-- ==== Sys2Proof/Word.lean ====
section
/-! DEFINITION. The words of the model: bytes, Folio registers, and the plainest arithmetic on natural numbers used as fields. -/

namespace Sys2Proof

/-- One byte of memory or of a structure. -/
abbrev Byte := BitVec 8

/-- A Folio general register (R76). -/
abbrev Word := BitVec 64

/-- A Folio vector register: sixteen 16-bit lanes (R76). -/
abbrev VWord := BitVec 256

/-- `n` cut to its low `w` bits. -/
def low (w n : Nat) : Nat := n % 2 ^ w

/-- Bits `[lo + w - 1 : lo]` of `n`. -/
def bits (n lo w : Nat) : Nat := n / 2 ^ lo % 2 ^ w

/-- Bit `i` of `n`. -/
def bit (n i : Nat) : Bool := n / 2 ^ i % 2 == 1

/-- A `w`-bit field read as a two's complement number. -/
def signed (w n : Nat) : Int :=
  if n % 2 ^ w < 2 ^ (w - 1) then (n % 2 ^ w : Nat) else (n % 2 ^ w : Nat) - (2 ^ w : Nat)

/-- The `w`-bit two's complement code of an integer. -/
def unsigned (w : Nat) (i : Int) : Nat := (i % (2 ^ w : Nat)).toNat

/-- A number held at the top of its `w`-bit counter: the saturating counters of the register maps. -/
def sat (w n : Nat) : Nat := min n (2 ^ w - 1)

/-- A signed number held within the range of a `w`-bit field. -/
def satInt (w : Nat) (i : Int) : Int :=
  max (-(2 ^ (w - 1) : Nat)) (min i ((2 ^ (w - 1) : Nat) - 1))

/-- 1 for true, 0 for false: a one-bit field. -/
def ofBool (b : Bool) : Nat := if b then 1 else 0

/-- The number that bytes spell, the first byte least significant (R9). -/
def leNat : List Byte → Nat
  | [] => 0
  | b :: bs => b.toNat + 256 * leNat bs

/-- The low `k` bytes of `n`, least significant first (R9). -/
def leBytes : Nat → Nat → List Byte
  | 0, _ => []
  | k + 1, n => BitVec.ofNat 8 n :: leBytes k (n / 256)

/-- The next multiple of `m` at or above `n`. -/
def alignUp (n m : Nat) : Nat := (n + (m - 1)) / m * m

end Sys2Proof
end

