-- ==== Sys2Proof/Records.lean ====
section
/-! DEFINITION. The records of the twin link (Table 13-2), with the fields the table gives each of them. The table does not give the byte
layout of most bodies, so a record is kept as its fields, and `body` lays them out. -/

namespace Sys2Proof

/-- A twin record. -/
inductive TwinRec where
  /-- 0x01: device address and data -/
  | stacksWrite (addr : Nat) (data : List Byte)
  /-- 0x02: page descriptor address, first line, job origin W0 in 2⁻³² mm once it is set -/
  | page (addr first : Nat) (w0 : Option Int)
  /-- 0x03: SUBST.SET or SUBST.CLR, nozzle, spare row, line -/
  | subst (isSet : Bool) (nozzle spare line : Nat)
  /-- 0x04: plane, bank, byte offset, trims -/
  | bank (plane bank offset : Nat) (trims : List Byte)
  /-- 0x05: the entry, and the line, frame or servo period from which it applies -/
  | entry (bytes : List Byte) (since : Nat)
  /-- 0x06: Drive Link port, servo period count, the 8 slots' control and set-point words -/
  | setpoint (port period : Nat) (slots : List Byte)
  /-- 0x07: mode, cause, line of effect, S for REWIND, and the step of its sequence -/
  | mode (mode cause line s step : Nat)
  /-- 0x08: Table 13-3 -/
  | health (bytes : List Byte)
  /-- 0x09: instant T in device time; per slot, the next line to send and the credits held -/
  | handover (instant : Nat) (slots : List (Nat × Nat))
  /-- 0x0A: 0x1 resync begins, 0x2 resync complete -/
  | syncMark (kind : Nat)
  deriving DecidableEq, Repr

/-- The type code of a record (Table 13-2). -/
def TwinRec.code : TwinRec → Nat
  | .stacksWrite _ _ => 1
  | .page _ _ _ => 2
  | .subst _ _ _ _ => 3
  | .bank _ _ _ _ => 4
  | .entry _ _ => 5
  | .setpoint _ _ _ => 6
  | .mode _ _ _ _ _ => 7
  | .health _ => 8
  | .handover _ _ => 9
  | .syncMark _ => 10

/-- The body of a record: its fields in the table's order, each little-endian; widths the table does not give are as small as the fields
(DESIGN CHOICE, log 135). -/
def TwinRec.body : TwinRec → List Byte
  | .stacksWrite a d => leBytes 8 a ++ d
  | .page a f w => leBytes 8 a ++ leBytes 6 f ++ (match w with | some x => leBytes 1 1 ++ leBytes 12 (unsigned 96 x) | none => leBytes 13 0)
  | .subst b n p l => leBytes 1 (if b then 1 else 0) ++ leBytes 4 n ++ leBytes 4 p ++ leBytes 6 l
  | .bank p b o t => leBytes 1 p ++ leBytes 1 b ++ leBytes 4 o ++ t
  | .entry b n => b ++ leBytes 8 n
  | .setpoint p n s => leBytes 1 p ++ leBytes 4 n ++ s
  | .mode m c l r k => leBytes 1 m ++ leBytes 1 c ++ leBytes 6 l ++ leBytes 6 r ++ leBytes 1 k
  | .health b => b
  | .handover t ss => leBytes 12 t ++ (ss.map (fun x => leBytes 6 x.1 ++ leBytes 2 x.2)).flatten
  | .syncMark k => leBytes 1 k

/-- Bytes of a record on the link: header, body and check (R411). -/
def TwinRec.size (r : TwinRec) : Nat := 12 + r.body.length

/-- Credits a record uses: one for every 256 bytes or part of them (R411). -/
def TwinRec.credits (r : TwinRec) : Nat := (r.size + 255) / 256

end Sys2Proof
end

