-- ==== Sys2Proof/Syntax.lean ====
section
/-! DEFINITION. The commands of the block: one constructor per row of spec/opcode_table.json, in the order of the table.
A command from outside the Scribes carries first the instant `t` at which it falls, in units of 2⁻¹⁶ ns from the start of the clock;
a Folio instruction carries first the engine that issues it: physical Scribe 0 to 15, or 16 for the Registrar. -/

namespace Sys2Proof

/-- One command. -/
inductive Instr where
  /-- REGISTER_WRITE (R40) -/
  | registerWrite (t src addr size value : Nat)
  /-- RC_REGISTER_READ (R41) -/
  | rcRegisterRead (t src addr size : Nat)
  /-- CAT_INVALIDATE (R26) -/
  | catInvalidate (t channel : Nat)
  /-- CAT_INVALIDATE_ALL (R25) -/
  | catInvalidateAll (t : Nat)
  /-- CATALOG_FETCH_COMPLETE (R24) -/
  | catalogFetchComplete (t channel : Nat)
  /-- CAT_LOCK (R22) -/
  | catLock (t : Nat)
  /-- LEDGER_SNAP_WRITE (R38) -/
  | ledgerSnapWrite (t : Nat)
  /-- LEDGER_SNAP_COMPLETE (R39) -/
  | ledgerSnapComplete (t : Nat)
  /-- RING_PRODUCER_WRITE (R32) -/
  | ringProducerWrite (t ring index : Nat)
  /-- RING_CONSUMER_WRITE (R44) -/
  | ringConsumerWrite (t ring index : Nat)
  /-- IRQ_HOLDOFF_EXPIRY (R34) -/
  | irqHoldoffExpiry (t ring : Nat)
  /-- POWER_REQ_WRITE (R52) -/
  | powerReqWrite (t req : Nat)
  /-- POWER_STATE_REACHED (R55) -/
  | powerStateReached (t : Nat)
  /-- EPOCH_SCHEDULE (R60) -/
  | epochSchedule (t target : Nat) (system : Bool)
  /-- EPOCH_CANCEL (R70) -/
  | epochCancel (t : Nat)
  /-- EPOCH_INSTANT (R61) -/
  | epochInstant (t : Nat)
  /-- EPOCH_TIMEOUT (R66) -/
  | epochTimeout (t : Nat)
  /-- ROLLBACK_EPOCH (R67) -/
  | rollbackEpoch (t : Nat)
  /-- ADD (R89) -/
  | add (p rd rs1 rs2 : Nat)
  /-- SUB (R89) -/
  | sub (p rd rs1 rs2 : Nat)
  /-- AND (R89) -/
  | andR (p rd rs1 rs2 : Nat)
  /-- OR (R89) -/
  | orR (p rd rs1 rs2 : Nat)
  /-- XOR (R89) -/
  | xorR (p rd rs1 rs2 : Nat)
  /-- SLL (R89) -/
  | sll (p rd rs1 rs2 : Nat)
  /-- SRL (R89) -/
  | srl (p rd rs1 rs2 : Nat)
  /-- SRA (R89) -/
  | sra (p rd rs1 rs2 : Nat)
  /-- SLT (R89) -/
  | slt (p rd rs1 rs2 : Nat)
  /-- SLTU (R89) -/
  | sltu (p rd rs1 rs2 : Nat)
  /-- MUL (R89) -/
  | mul (p rd rs1 rs2 : Nat)
  /-- MULH (R89) -/
  | mulh (p rd rs1 rs2 : Nat)
  /-- MULHU (R89) -/
  | mulhu (p rd rs1 rs2 : Nat)
  /-- DIVU (R89) -/
  | divu (p rd rs1 rs2 : Nat)
  /-- REMU (R89) -/
  | remu (p rd rs1 rs2 : Nat)
  /-- MIN (R89) -/
  | minS (p rd rs1 rs2 : Nat)
  /-- MAX (R89) -/
  | maxS (p rd rs1 rs2 : Nat)
  /-- MINU (R89) -/
  | minu (p rd rs1 rs2 : Nat)
  /-- MAXU (R89) -/
  | maxu (p rd rs1 rs2 : Nat)
  /-- CLZ (R89) -/
  | clz (p rd rs1 : Nat)
  /-- POPC (R89) -/
  | popc (p rd rs1 : Nat)
  /-- BFX (R89) -/
  | bfx (p rd rs1 rs2 k : Nat)
  /-- ADDI (R90) -/
  | addi (p rd rs1 imm : Nat)
  /-- ANDI (R90) -/
  | andi (p rd rs1 imm : Nat)
  /-- ORI (R90) -/
  | ori (p rd rs1 imm : Nat)
  /-- XORI (R90) -/
  | xori (p rd rs1 imm : Nat)
  /-- LUI (R90) -/
  | lui (p rd imm : Nat)
  /-- SLTI (R90) -/
  | slti (p rd rs1 imm : Nat)
  /-- SHI (R90) -/
  | shi (p rd rs1 imm : Nat)
  /-- LB (R91) -/
  | lb (p rt base win imm : Nat)
  /-- LH (R91) -/
  | lh (p rt base win imm : Nat)
  /-- LW (R91) -/
  | lw (p rt base win imm : Nat)
  /-- LD (R91) -/
  | ld (p rt base win imm : Nat)
  /-- LBU (R91) -/
  | lbu (p rt base win imm : Nat)
  /-- LHU (R91) -/
  | lhu (p rt base win imm : Nat)
  /-- LWU (R91) -/
  | lwu (p rt base win imm : Nat)
  /-- SB (R91) -/
  | sb (p rt base win imm : Nat)
  /-- SH (R91) -/
  | sh (p rt base win imm : Nat)
  /-- SW (R91) -/
  | sw (p rt base win imm : Nat)
  /-- SD (R91) -/
  | sd (p rt base win imm : Nat)
  /-- AMO (R92) -/
  | amo (p rt base win rs2 fn : Nat)
  /-- BEQ (R93) -/
  | beq (p rs1 rs2 off : Nat)
  /-- BNE (R93) -/
  | bne (p rs1 rs2 off : Nat)
  /-- BLT (R93) -/
  | blt (p rs1 rs2 off : Nat)
  /-- BGE (R93) -/
  | bge (p rs1 rs2 off : Nat)
  /-- BLTU (R93) -/
  | bltu (p rs1 rs2 off : Nat)
  /-- BGEU (R93) -/
  | bgeu (p rs1 rs2 off : Nat)
  /-- JAL (R93) -/
  | jal (p off : Nat)
  /-- JALR (R93) -/
  | jalr (p rd rs1 imm : Nat)
  /-- RING_PUSH (R96) -/
  | ringPush (p rd rs1 rs2 : Nat)
  /-- RING_POP (R95) -/
  | ringPop (p rd rs1 rs2 : Nat)
  /-- RING_DONE (R96) -/
  | ringDone (p rd rs1 rs2 : Nat)
  /-- RING_STAT (R95) -/
  | ringStat (p rd rs1 : Nat)
  /-- LEDGER_SNAP (R38) -/
  | ledgerSnap (p rd : Nat)
  /-- LEDGER_SEQ (R95) -/
  | ledgerSeq (p rd : Nat)
  /-- LEDGER_READ (R95) -/
  | ledgerRead (p rd rs1 : Nat)
  /-- LEDGER_LINE (R95) -/
  | ledgerLine (p rd : Nat)
  /-- TIME_NOW (R98) -/
  | timeNow (p rd : Nat)
  /-- TIME_WAIT (R98) -/
  | timeWait (p rs1 : Nat)
  /-- TIME_WAIT_EXPIRY (R98) -/
  | timeWaitExpiry (t p slice : Nat)
  /-- TIME_CAP (R95) -/
  | timeCap (p rd rs1 : Nat)
  /-- TIME_CAPN (R95) -/
  | timeCapn (p rd rs1 : Nat)
  /-- TIME_ARM (R329) -/
  | timeArm (p rd rs1 rs2 : Nat)
  /-- CAT_INV (R95) -/
  | catInv (p rs1 : Nat)
  /-- CAT_GEN (R95) -/
  | catGen (p rd rs1 : Nat)
  /-- CAT_ADDR (R95) -/
  | catAddr (p rd rs1 : Nat)
  /-- CAT_WIN (R95) -/
  | catWin (p rd k : Nat)
  /-- CAT_WSIZE (R95) -/
  | catWsize (p rd k : Nat)
  /-- LINE_PAGE (R99) -/
  | linePage (p rd rs1 rs2 : Nat)
  /-- LINE_STAT (R95) -/
  | lineStat (p rd k : Nat)
  /-- SUBST_SET (R100) -/
  | substSet (p rd rs1 rs2 : Nat)
  /-- SUBST_CLR (R100) -/
  | substClr (p rd rs1 rs2 : Nat)
  /-- SUBST_GET (R95) -/
  | substGet (p rd rs1 k : Nat)
  /-- STAT_SEG (R232) -/
  | statSeg (p rd rs1 rs2 : Nat)
  /-- STAT_VCOL (R103) -/
  | statVcol (p vd rs1 rs2 : Nat)
  /-- STAT_COLFRAME (R103) -/
  | statColframe (p rd rs1 : Nat)
  /-- STAT_EXPO (R235) -/
  | statExpo (p rd rs1 rs2 : Nat)
  /-- STAT_FRAME (R95) -/
  | statFrame (p rd rs1 : Nat)
  /-- SYNC_INIT (R95) -/
  | syncInit (p rs1 rs2 : Nat)
  /-- SYNC_ARRIVE (R104) -/
  | syncArrive (p rd rs1 : Nat)
  /-- SYNC_WAIT (R95) -/
  | syncWait (p rs1 rs2 : Nat)
  /-- SYNC_ARM (R95) -/
  | syncArm (p rs1 rs2 : Nat)
  /-- SYS_YIELD (R118) -/
  | sysYield (p : Nat)
  /-- SYS_END (R118) -/
  | sysEnd (p : Nat)
  /-- SYS_FENCE (R110) -/
  | sysFence (p : Nat)
  /-- SYS_CSRR (R105) -/
  | sysCsrr (p rd c : Nat)
  /-- SYS_CSRW (R105) -/
  | sysCsrw (p rs1 c : Nat)
  /-- SYS_ARM (R114) -/
  | sysArm (p rs1 : Nat)
  /-- SYS_DISARM (R114) -/
  | sysDisarm (p rs1 : Nat)
  /-- SYS_TRAP (R95) -/
  | sysTrap (p k : Nat)
  /-- SYS_START (R121) -/
  | sysStart (p rs1 rs2 : Nat)
  /-- SYS_HALT (R95) -/
  | sysHalt (p rs1 : Nat)
  /-- VADD (R106) -/
  | vadd (p vd vs1 vs2 : Nat)
  /-- VSUB (R106) -/
  | vsub (p vd vs1 vs2 : Nat)
  /-- VADDS (R106) -/
  | vadds (p vd vs1 vs2 : Nat)
  /-- VSUBS (R106) -/
  | vsubs (p vd vs1 vs2 : Nat)
  /-- VADDUS (R106) -/
  | vaddus (p vd vs1 vs2 : Nat)
  /-- VSUBUS (R106) -/
  | vsubus (p vd vs1 vs2 : Nat)
  /-- VMUL (R106) -/
  | vmul (p vd vs1 vs2 : Nat)
  /-- VMULH (R106) -/
  | vmulh (p vd vs1 vs2 : Nat)
  /-- VMULQ (R106) -/
  | vmulq (p vd vs1 vs2 : Nat)
  /-- VMIN (R106) -/
  | vmin (p vd vs1 vs2 : Nat)
  /-- VMAX (R106) -/
  | vmax (p vd vs1 vs2 : Nat)
  /-- VMINU (R106) -/
  | vminu (p vd vs1 vs2 : Nat)
  /-- VMAXU (R106) -/
  | vmaxu (p vd vs1 vs2 : Nat)
  /-- VABSDU (R106) -/
  | vabsdu (p vd vs1 vs2 : Nat)
  /-- VAND (R106) -/
  | vand (p vd vs1 vs2 : Nat)
  /-- VOR (R106) -/
  | vor (p vd vs1 vs2 : Nat)
  /-- VXOR (R106) -/
  | vxor (p vd vs1 vs2 : Nat)
  /-- VSHL (R106) -/
  | vshl (p vd vs1 k : Nat)
  /-- VSRL (R106) -/
  | vsrl (p vd vs1 k : Nat)
  /-- VSRA (R106) -/
  | vsra (p vd vs1 k : Nat)
  /-- VCGT (R106) -/
  | vcgt (p vd vs1 vs2 : Nat)
  /-- VCGTU (R106) -/
  | vcgtu (p vd vs1 vs2 : Nat)
  /-- VCEQ (R106) -/
  | vceq (p vd vs1 vs2 : Nat)
  /-- VSEL (R106) -/
  | vsel (p vd vs1 vs2 : Nat)
  /-- VEMA (R106) -/
  | vema (p vd vs1 k : Nat)
  /-- VSPLAT (R106) -/
  | vsplat (p vd rs1 : Nat)
  /-- VEXTU (R106) -/
  | vextu (p rd vs1 k : Nat)
  /-- VINS (R106) -/
  | vins (p vd rs1 k : Nat)
  /-- VREDADD (R106) -/
  | vredadd (p rd vs1 : Nat)
  /-- VANY (R106) -/
  | vany (p rd vs1 : Nat)
  /-- VLD (R107) -/
  | vld (p vt base win imm : Nat)
  /-- VST (R107) -/
  | vst (p vt base win imm : Nat)
  /-- SLICE_MAX_EXCEEDED (R118) -/
  | sliceMaxExceeded (t p : Nat)
  /-- SLICE_URGENCY_RISE (R117) -/
  | sliceUrgencyRise (t p : Nat)
  /-- SCRIBE_RESTART (R121) -/
  | scribeRestart (t logical : Nat)
  /-- SCRIBE_RESTART_COMPLETE (R121) -/
  | scribeRestartComplete (t logical : Nat)
  /-- SCRIBE_SUBSTITUTE_COMPLETE (R123) -/
  | scribeSubstituteComplete (t phys : Nat)
  /-- COPY_IN (R129) -/
  | copyIn (t ring : Nat)
  /-- COPY_IN_COMPLETE (R131) -/
  | copyInComplete (t ring : Nat)
  /-- PUT32 (R129) -/
  | put32 (t ring : Nat)
  /-- READY_BANDS_POLL (R136) -/
  | readyBandsPoll (t : Nat)
  /-- LINE_ACCEPT (R145) -/
  | lineAccept (t : Nat)
  /-- LINE_DECODE (R146) -/
  | lineDecode (t plane row err : Nat)
  /-- VJOB_WRITE (R154) -/
  | vjobWrite (t v : Nat)
  /-- REWIND_DWELL_EXPIRY (R161) -/
  | rewindDwellExpiry (t : Nat)
  /-- KEEPOPEN_TIMEOUT (R194) -/
  | keepopenTimeout (t slot : Nat)
  /-- HOLD_OPEN_EXPIRY (R164) -/
  | holdOpenExpiry (t : Nat)
  /-- START_OF_SCAN (R170) -/
  | startOfScan (t slot : Nat)
  /-- REFERENCE_START_OF_SCAN (R172) -/
  | referenceStartOfScan (t : Nat)
  /-- SOS_MISSING (R175) -/
  | sosMissing (t : Nat)
  /-- DATA_DEADLINE_EXPIRY (R178) -/
  | dataDeadlineExpiry (t slot : Nat)
  /-- DATA_FRAME_SEND (R176) -/
  | dataFrameSend (t slot err : Nat)
  /-- CREDIT (R190) -/
  | credit (t lane word : Nat)
  /-- LINE_OK (R176) -/
  | lineOk (t lane word : Nat)
  /-- LINE_NAK (R189) -/
  | lineNak (t lane word : Nat)
  /-- REL_ACK (R184) -/
  | relAck (t lane word : Nat)
  /-- REL_ACK_TIMEOUT (R184) -/
  | relAckTimeout (t slot : Nat)
  /-- TEMP (R438) -/
  | tempSet (t lane word : Nat)
  /-- STATUS (R419) -/
  | statusSet (t lane word : Nat)
  /-- HEARTBEAT (R192) -/
  | heartbeat (t : Nat)
  /-- TEMP_TIMEOUT (R195) -/
  | tempTimeout (t slot : Nat)
  /-- DECAP_LAPSE (R199) -/
  | decapLapse (t slot : Nat)
  /-- WAVE_COMMIT (R193) -/
  | waveCommit (t slot : Nat)
  /-- AUTH_START (R201) -/
  | authStart (t slot : Nat)
  /-- CERT (R201) -/
  | cert (t slot : Nat) (msg : List Byte)
  /-- USAGE_NOW (R203) -/
  | usageNow (t slot value seq : Nat) (mac : List Byte)
  /-- USAGE_ADD (R203) -/
  | usageAdd (t slot : Nat)
  /-- AUTH_TIMEOUT (R205) -/
  | authTimeout (t slot : Nat)
  /-- AUTH_RETRY (R205) -/
  | authRetry (t slot : Nat)
  /-- AUTH_GRACE_EXPIRY (R206) -/
  | authGraceExpiry (t slot : Nat)
  /-- CAMERA_PORT_TRAIN_COMPLETE (R211) -/
  | cameraPortTrainComplete (t port : Nat) (ok : Bool)
  /-- CAMERA_LINK_FAIL (R211) -/
  | cameraLinkFail (t port : Nat) (lost : Bool)
  /-- CSI2_PACKET (R212) -/
  | csi2Packet (t port vc dtype ecc : Nat) (crcOk : Bool) (payload : List Byte)
  /-- CAMERA_LINE_RECEIVE (R221) -/
  | cameraLineReceive (t port vc : Nat)
  /-- GROUP_TRIGGER (R218) -/
  | groupTrigger (t grp : Nat)
  /-- TRIGGER_LINE_LOST (R221) -/
  | triggerLineLost (t pipe : Nat)
  /-- FRAME_END (R222) -/
  | frameEnd (t pipe : Nat) (peakOk : Bool) (ests : List Int) (testOk : Bool)
  /-- GROUP_RUN_WRITE (R222) -/
  | groupRunWrite (t grp value : Nat)
  /-- ACCUMULATOR_COMPLETE (R234) -/
  | accumulatorComplete (t plane : Nat)
  /-- EXPO_GO (R235) -/
  | expoGo (t : Nat)
  /-- EXPO_COMMIT_CHECK (R236) -/
  | expoCommitCheck (t pipe value : Nat)
  /-- PIPELINE_TEST_TIMER (R430) -/
  | pipelineTestTimer (t pipe : Nat) (ok : Bool)
  /-- HEALTH_PASS (R248) -/
  | healthPass (t plane : Nat)
  /-- NOZ_RETIRE (R254) -/
  | nozRetire (t nozzle : Nat)
  /-- NOZ_RESTORE (R254) -/
  | nozRestore (t nozzle : Nat)
  /-- NOZ_RESTORE_PLANE (R254) -/
  | nozRestorePlane (t plane : Nat)
  /-- CU_SWAP_REQUEST (R256) -/
  | cuSwapRequest (t : Nat)
  /-- DENSITY_UPDATE (R257) -/
  | densityUpdate (t plane : Nat)
  /-- REGISTRATION_WINDOW (R261) -/
  | registrationWindow (t grp speed : Nat) (steady : Bool)
  /-- XSHIFT_APPLY (R264) -/
  | xshiftApply (t plane : Nat)
  /-- RECAL_REQUEST (R267) -/
  | recalRequest (t cls unit : Nat)
  /-- RECAL_AGE_EXPIRY (R267) -/
  | recalAgeExpiry (t cls unit : Nat)
  /-- RECAL_START (R267) -/
  | recalStart (t cls : Nat)
  /-- RECAL_COMPLETE (R267) -/
  | recalComplete (t cls unit a b ctle : Nat)
  /-- CONVERTER_SWAP (R268) -/
  | converterSwap (t input diff : Nat)
  /-- XREF_CHECK (R271) -/
  | xrefCheck (t ohms : Nat)
  /-- MOVE_ABS (R276) -/
  | moveAbs (t : Nat)
  /-- MOVE_REL (R276) -/
  | moveRel (t : Nat)
  /-- VELOCITY (R277) -/
  | velocity (t : Nat)
  /-- STOP (R276) -/
  | stop (t : Nat)
  /-- HOME (R290) -/
  | home (t : Nat)
  /-- ENABLE (R276) -/
  | enable (t : Nat)
  /-- DISABLE (R276) -/
  | disable (t : Nat)
  /-- SERVO_PERIOD (R283) -/
  | servoPeriod (t port : Nat)
  /-- DRIVE_LINK_FRAME_RECEIVE (R285) -/
  | driveLinkFrameReceive (t port : Nat) (chars : List Byte)
  /-- DRIVE_LINK_UP (R284) -/
  | driveLinkUp (t port seen : Nat) (hops : List Nat)
  /-- HOLD_DELAY_EXPIRY (R281) -/
  | holdDelayExpiry (t axis : Nat)
  /-- SWITCH_QUALIFY (R288) -/
  | switchQualify (t sw t0 : Nat) (level : Bool)
  /-- LATCH_HOLDOFF_EXPIRY (R289) -/
  | latchHoldoffExpiry (t axis : Nat)
  /-- FEEDBACK_POSITION_UPDATE (R294) -/
  | feedbackPositionUpdate (t input : Nat) (x y : Int)
  /-- SSI_READING (R298) -/
  | ssiReading (t input value : Nat) (idle : Bool)
  /-- INDEX_EDGE (R299) -/
  | indexEdge (t input : Nat)
  /-- SPEED_ZERO_TIMEOUT (R301) -/
  | speedZeroTimeout (t input : Nat)
  /-- EMULATOR_EDGE (R303) -/
  | emulatorEdge (t emu : Nat)
  /-- TIME_NOW_LATCH (R312) -/
  | timeNowLatch (t reader : Nat)
  /-- TIME_CAP_LATCH (R332) -/
  | timeCapLatch (t reader : Nat)
  /-- PTP_ANNOUNCE_RECEIVE (R315) -/
  | ptpAnnounceReceive (t port domain prio1 cls acc variance prio2 gm steps : Nat)
  /-- PTP_SYNC_RECEIVE (R319) -/
  | ptpSyncReceive (t port domain origin : Nat) (corr : Int)
  /-- PTP_DELAY_RESP_RECEIVE (R317) -/
  | ptpDelayRespReceive (t port seq rx : Nat) (corr : Int)
  /-- PTP_DELAY_REQ_SEND (R313) -/
  | ptpDelayReqSend (t : Nat)
  /-- PTP_MASTER_SEND (R313) -/
  | ptpMasterSend (t kind : Nat)
  /-- PTP_TRANSPARENT_FORWARD (R316) -/
  | ptpTransparentForward (t te port kind seq origin : Nat) (corr : Int)
  /-- ANNOUNCE_TIMEOUT (R318) -/
  | announceTimeout (t : Nat)
  /-- TRACE_HOLD_EXPIRY (R320) -/
  | traceHoldExpiry (t : Nat)
  /-- PPS_OUT_EDGE (R322) -/
  | ppsOutEdge (t : Nat)
  /-- PPS_IN_EDGE (R322) -/
  | ppsInEdge (t : Nat)
  /-- TIME_SET (R323) -/
  | timeSet (t : Nat)
  /-- TIME_SET_AT_PPS (R323) -/
  | timeSetAtPps (t : Nat)
  /-- TIME_TRIGGER_FIRE (R326) -/
  | timeTriggerFire (t trig : Nat)
  /-- NEIGHBOR_SEND (R337) -/
  | neighborSend (t port : Nat)
  /-- NEIGHBOR_RECEIVE (R334) -/
  | neighborReceive (t port node : Nat) (learned : Bool)
  /-- NEIGHBOR_MISS (R337) -/
  | neighborMiss (t port : Nat)
  /-- NODE_LEARN_TIMEOUT (R334) -/
  | nodeLearnTimeout (t : Nat)
  /-- RING_FRAME_RECEIVE (R337) -/
  | ringFrameReceive (t port : Nat) (bytes : List Byte)
  /-- RING_LINK_LOSS (R339) -/
  | ringLinkLoss (t port : Nat)
  /-- STACKS_REQUEST (R347) -/
  | stacksRequest (t port source addr len : Nat) (write : Bool) (data : List Byte)
  /-- STACKS_URGENCY_RISE (R348) -/
  | stacksUrgencyRise (t : Nat)
  /-- STACKS_REQUEST_SERVED (R348) -/
  | stacksRequestServed (t pc ecc : Nat)
  /-- BANK_REFRESH (R351) -/
  | bankRefresh (t pc bank : Nat)
  /-- STACK_TEMP_READ (R351) -/
  | stackTempRead (t stack : Nat) (value : Int)
  /-- HBM_PARITY_ERROR (R353) -/
  | hbmParityError (t kind port source addr : Nat) (named : Bool)
  /-- HBM_READ_TIMEOUT (R353) -/
  | hbmReadTimeout (t port source addr : Nat)
  /-- SCRUB_READ (R354) -/
  | scrubRead (t ecc : Nat)
  /-- ROW_REPAIR (R355) -/
  | rowRepair (t : Nat)
  /-- REPAIR_RECORD_WRITE (R355) -/
  | repairRecordWrite (t : Nat)
  /-- RETRAIN_WINDOW (R358) -/
  | retrainWindow (t pc rd wr : Nat)
  /-- FREEZE_ENTRY (R359) -/
  | freezeEntry (t cause port source addr : Nat)
  /-- FREEZE_WITHHOLD_EXPIRY (R46) -/
  | freezeWithholdExpiry (t : Nat)
  /-- RR_ROTATION (R365) -/
  | rrRotation (t : Nat)
  /-- RR_BANK_TEST_COMPLETE (R365) -/
  | rrBankTestComplete (t : Nat) (ok : Bool)
  /-- BINDERY_COMPRESS (R376) -/
  | binderyCompress (t unit : Nat)
  /-- BINDERY_DECOMPRESS (R381) -/
  | binderyDecompress (t unit : Nat)
  /-- BINDERY_BLOCK_WRITE (R379) -/
  | binderyBlockWrite (t unit : Nat) (coded : List Byte) (nbits : Nat) (storedOk : Bool)
  /-- BINDERY_JOB_COMPLETE (R373) -/
  | binderyJobComplete (t unit : Nat)
  /-- LANE_BRINGUP_START (R391) -/
  | laneBringupStart (t lane : Nat)
  /-- LANE_READY (R390) -/
  | laneReady (t lane ctle pad : Nat) (taps : List Int)
  /-- BLOCK_LOCK_LOSS (R392) -/
  | blockLockLoss (t lane : Nat)
  /-- LANE_SWITCH_SHIFT_COMPLETE (R394) -/
  | laneSwitchShiftComplete (t : Nat)
  /-- LANE_MOVE (R396) -/
  | laneMove (t lane : Nat)
  /-- LANE_RETIRE (R400) -/
  | laneRetire (t lane : Nat)
  /-- LANE_RESTORE (R400) -/
  | laneRestore (t lane : Nat)
  /-- LANE_SWITCH_VERIFY_TIMEOUT (R399) -/
  | laneSwitchVerifyTimeout (t : Nat)
  /-- PRBS_INJECT_ONCE (R402) -/
  | prbsInjectOnce (t lane : Nat)
  /-- PRBS_INJECT_PERIODIC (R402) -/
  | prbsInjectPeriodic (t lane : Nat)
  /-- EYE_MEASUREMENT (R403) -/
  | eyeMeasurement (t lane w h : Nat)
  /-- RELOAD_END (R409) -/
  | reloadEnd (t : Nat)
  /-- SECONDARY_WAIT_EXPIRY (R409) -/
  | secondaryWaitExpiry (t : Nat)
  /-- TWIN_HB (R410) -/
  | twinHb (t lane word : Nat) (alike : Bool)
  /-- TWIN_HB_SEND (R410) -/
  | twinHbSend (t : Nat)
  /-- TWIN_CREDIT (R411) -/
  | twinCredit (t lane word : Nat)
  /-- TWIN_ACK (R412) -/
  | twinAck (t lane word : Nat)
  /-- TWIN_NAK (R412) -/
  | twinNak (t lane word : Nat)
  /-- TWIN_FAIL (R419) -/
  | twinFail (t lane word : Nat)
  /-- TWIN_HB_TIMEOUT (R413) -/
  | twinHbTimeout (t : Nat)
  /-- TWIN_RECORD_RECEIVE (R412) -/
  | twinRecordReceive (t lane seq : Nat) (good : Bool) (rec : TwinRec)
  /-- STACKS_WRITE (R414) -/
  | stacksWrite (t addr : Nat) (data : List Byte)
  /-- PAGE (R414) -/
  | pageRec (t addr first : Nat) (hasW0 : Bool) (w0 : Int)
  /-- SUBST (R247) -/
  | substRec (t : Nat) (isSet : Bool) (nozzle spare line : Nat)
  /-- BANK (R247) -/
  | bankRec (t plane bank offset : Nat) (trims : List Byte)
  /-- ENTRY (R414) -/
  | entryRec (t : Nat) (entry : List Byte) (since : Nat)
  /-- SETPOINT (R414) -/
  | setpointRec (t port period : Nat) (slots : List Byte)
  /-- MODE (R414) -/
  | modeRec (t mode cause line stop step : Nat)
  /-- HEALTH (R417) -/
  | healthRec (t : Nat) (body : List Byte)
  /-- HANDOVER (R422) -/
  | handoverRec (t instant : Nat) (tags credits : List Nat)
  /-- SYNC_MARK (R416) -/
  | syncMark (t kind : Nat)
  /-- HEALTH_SEND (R417) -/
  | healthSend (t : Nat)
  /-- RESYNC_COMPLETE (R416) -/
  | resyncComplete (t : Nat) (equal : Bool) (reach : Nat)
  /-- SHADOW_LINE_TIMEOUT (R415) -/
  | shadowLineTimeout (t slot : Nat)
  /-- SWITCHOVER (R420) -/
  | switchover (t : Nat)
  /-- HANDOVER_REPORT (R425) -/
  | handoverReport (t : Nat)
  /-- PAIR_YIELD_PAGE (R422) -/
  | pairYieldPage (t : Nat)
  /-- PAIR_YIELD_NOW (R422) -/
  | pairYieldNow (t : Nat)
  /-- PAIR_RESYNC (R416) -/
  | pairResync (t : Nat)
  /-- HANDOVER_SEND (R422) -/
  | handoverSend (t : Nat)
  /-- HANDOVER_INSTANT (R422) -/
  | handoverInstant (t : Nat)
  /-- HANDOVER_TAKE (R422) -/
  | handoverTake (t : Nat)
  /-- WTR_EXPIRY (R427) -/
  | wtrExpiry (t : Nat)
  /-- SENSOR_CONVERSION (R432) -/
  | sensorConversion (t sensor : Nat) (raw : Int)
  /-- SENSOR_CONVERSION_TIMEOUT (R435) -/
  | sensorConversionTimeout (t sensor : Nat)
  /-- THERMAL_SWEEP (R437) -/
  | thermalSweep (t : Nat) (raws : List Int)
  /-- HARDWARE_TRIP (R443) -/
  | hardwareTrip (t src : Nat)
  /-- SENSOR_RESTORE (R435) -/
  | sensorRestore (t sensor : Nat)
  /-- FLASH_OK_RESTORE (R446) -/
  | flashOkRestore (t : Nat)
  /-- LIM_LOCK (R200) -/
  | limLock (t : Nat)
  /-- TLIM_LOCK (R445) -/
  | tlimLock (t : Nat)
  /-- CFG_LOCK (R334) -/
  | cfgLock (t : Nat)
  /-- COLD_START (R454) -/
  | coldStart (t : Nat)
  /-- RST_N_ASSERT (R457) -/
  | rstNAssert (t : Nat)
  /-- LX_RESET (R457) -/
  | lxReset (t key : Nat)
  /-- PE_PERST_ASSERT (R457) -/
  | pePerstAssert (t : Nat)
  /-- WATCHDOG_EXPIRY (R460) -/
  | watchdogExpiry (t : Nat)
  /-- WARM_RESET_ACK_WAIT_EXPIRY (R458) -/
  | warmResetAckWaitExpiry (t : Nat)
  /-- SET_SAVE (R466) -/
  | setSave (t : Nat)
  /-- SET_WRITE (R466) -/
  | setWrite (t : Nat)
  /-- SET_CLEAR (R466) -/
  | setClear (t : Nat)
  /-- SETTINGS_WRITE_COMPLETE (R466) -/
  | settingsWriteComplete (t : Nat)
  /-- UPD_LOAD (R473) -/
  | updLoad (t : Nat)
  /-- UPD_ARM (R474) -/
  | updArm (t : Nat)
  /-- UPD_DISARM (R474) -/
  | updDisarm (t : Nat)
  /-- UPD_CONFIRM (R476) -/
  | updConfirm (t : Nat)
  /-- UPD_FORWARD (R473) -/
  | updForward (t ports : Nat)
  /-- UPD_ABORT (R482) -/
  | updAbort (t : Nat)
  /-- ARM_COMPLETE (R474) -/
  | armComplete (t : Nat)
  /-- IMG_OFFER (R471) -/
  | imgOffer (t port id : Nat) (header : List Byte)
  /-- IMG_DATA (R471) -/
  | imgData (t port id block seg : Nat) (data : List Byte)
  /-- IMG_ACK (R471) -/
  | imgAck (t port id code err block missing : Nat)
  /-- IMG_ACK_TIMEOUT (R471) -/
  | imgAckTimeout (t port : Nat)
  /-- IMAGE_VERIFY_COMPLETE (R472) -/
  | imageVerifyComplete (t : Nat)
  /-- STAGING_WRITE_COMPLETE (R472) -/
  | stagingWriteComplete (t : Nat) (same : Bool)
  /-- LEVELS (R470) -/
  | levels (t port ring version : Nat)
  /-- LEVELS_SEND (R470) -/
  | levelsSend (t port : Nat)
  /-- TWIN_LEVEL (R479) -/
  | twinLevel (t lane word : Nat)
  /-- TWIN_LEVEL_SEND (R478) -/
  | twinLevelSend (t : Nat)
  /-- IMAGE_CONFIRM (R476) -/
  | imageConfirm (t : Nat)
  /-- CONFIRM_WINDOW_EXPIRY (R477) -/
  | confirmWindowExpiry (t : Nat)
  /-- GP_RUN_START (R487) -/
  | gpRunStart (t value : Nat)
  /-- GP_RUN_STOP (R487) -/
  | gpRunStop (t value : Nat)
  /-- GP_DMA_GO (R490) -/
  | gpDmaGo (t : Nat)
  /-- GP_INT_STAT_READ (R494) -/
  | gpIntStatRead (t : Nat)
  /-- GP_UNLOCK (R496) -/
  | gpUnlock (t key : Nat)
  /-- SUPPLY_EXCURSION (R505) -/
  | supplyExcursion (t rail mv : Nat)
  /-- SUPPLY_OUT_OF_RANGE (R505) -/
  | supplyOutOfRange (t rail : Nat)
  /-- ILLEGAL_INSTRUCTION (R88) -/
  | illegalInstruction (p : Nat) (word : BitVec 32)
  /-- RING_LINK_UP (R336) -/
  | ringLinkUp (t port : Nat)
  /-- PTP_DELAY_REQ_RECEIVE (R313) -/
  | ptpDelayReqReceive (t port seq : Nat) (corr : Int)
  /-- LANE_MOVE_RELEASE_WAIT_EXPIRY (R404) -/
  | laneMoveReleaseWaitExpiry (t : Nat)
  /-- TWIN_ACK_SEND (R410) -/
  | twinAckSend (t : Nat)
  /-- ACTIVE_HEARTBEAT_WAIT_EXPIRY (R409) -/
  | activeHeartbeatWaitExpiry (t : Nat)
  /-- CATALOG_WINDOW_WRITE (R45) -/
  | catalogWindowWrite (t addr value : Nat)
  /-- PRBS_ERROR_LIMIT (R402) -/
  | prbsErrorLimit (t lane errors : Nat)
  /-- PRBS_CHECKER_SYNC (R402) -/
  | prbsCheckerSync (t lane : Nat)
  /-- IMG_DATA_SEND (R471) -/
  | imgDataSend (t port : Nat)
  deriving DecidableEq, Repr

end Sys2Proof
end

