-- ==== Sys2Proof/Decode.lean ====
section
/-! DEFINITION. The commands a word spells. The opcode table gives no row any bits: every command is spelled by its name and operands.
A Folio instruction has a word of its own in the memory of its engine (R87): `folioDecode` reads it. -/

namespace Sys2Proof

/-- The command that the low `nbits` bits of `w` spell: none, as no row of the opcode table has bits. -/
def decodeTableWord (_nbits _w : Nat) : Option Instr := none

/-! ### Folio instruction words (R87 to R95, R106, Tables 3-4 to 3-7, 3-10) -/

/-- An instruction whose word is legal only under a condition on its fields (R88). -/
def onlyIf (b : Bool) (i : Instr) : Option Instr := if b then some i else none

/-- The ALU instructions, `k` 0 but for BFX (Table 3-6). -/
def decodeAlu (p rd a b sub k : Nat) : Option Instr :=
  let z := k == 0
  match sub with
  | 0x01 => onlyIf z (.add p rd a b) | 0x02 => onlyIf z (.sub p rd a b) | 0x03 => onlyIf z (.andR p rd a b)
  | 0x04 => onlyIf z (.orR p rd a b) | 0x05 => onlyIf z (.xorR p rd a b) | 0x06 => onlyIf z (.sll p rd a b)
  | 0x07 => onlyIf z (.srl p rd a b) | 0x08 => onlyIf z (.sra p rd a b) | 0x09 => onlyIf z (.slt p rd a b)
  | 0x0A => onlyIf z (.sltu p rd a b) | 0x0B => onlyIf z (.mul p rd a b) | 0x0C => onlyIf z (.mulh p rd a b)
  | 0x0D => onlyIf z (.mulhu p rd a b) | 0x0E => onlyIf z (.divu p rd a b) | 0x0F => onlyIf z (.remu p rd a b)
  | 0x10 => onlyIf z (.minS p rd a b) | 0x11 => onlyIf z (.maxS p rd a b) | 0x12 => onlyIf z (.minu p rd a b)
  | 0x13 => onlyIf z (.maxu p rd a b) | 0x14 => onlyIf (z && b == 0) (.clz p rd a) | 0x15 => onlyIf (z && b == 0) (.popc p rd a)
  | 0x16 => onlyIf (k != 0) (.bfx p rd a b k)
  | _ => none

/-- The device instructions and SYS; a register field their row does not name, and `k` where it names none, is 0 (R95). -/
def decodeDev (p op rd a b sub k : Nat) : Option Instr :=
  let z := k == 0
  let zd := z && rd == 0
  let zb := z && b == 0
  let zab := zb && a == 0
  match op, sub with
  | 0x20, 1 => onlyIf z (.ringPush p rd a b) | 0x20, 2 => onlyIf z (.ringPop p rd a b) | 0x20, 3 => onlyIf z (.ringDone p rd a b)
  | 0x20, 4 => onlyIf zb (.ringStat p rd a)
  | 0x21, 1 => onlyIf zab (.ledgerSnap p rd) | 0x21, 2 => onlyIf zab (.ledgerSeq p rd) | 0x21, 3 => onlyIf zb (.ledgerRead p rd a)
  | 0x21, 4 => onlyIf zab (.ledgerLine p rd)
  | 0x22, 1 => onlyIf zab (.timeNow p rd) | 0x22, 2 => onlyIf (zb && rd == 0) (.timeWait p a) | 0x22, 3 => onlyIf zb (.timeCap p rd a)
  | 0x22, 4 => onlyIf zb (.timeCapn p rd a) | 0x22, 5 => onlyIf z (.timeArm p rd a b)
  | 0x23, 1 => onlyIf (zb && rd == 0) (.catInv p a) | 0x23, 2 => onlyIf zb (.catGen p rd a) | 0x23, 3 => onlyIf zb (.catAddr p rd a)
  | 0x23, 4 => onlyIf (a == 0 && b == 0) (.catWin p rd k) | 0x23, 5 => onlyIf (a == 0 && b == 0) (.catWsize p rd k)
  | 0x24, 1 => onlyIf z (.linePage p rd a b) | 0x24, 2 => onlyIf (a == 0 && b == 0) (.lineStat p rd k)
  | 0x25, 1 => onlyIf z (.substSet p rd a b) | 0x25, 2 => onlyIf z (.substClr p rd a b) | 0x25, 3 => onlyIf (b == 0) (.substGet p rd a k)
  | 0x26, 1 => onlyIf z (.statSeg p rd a b) | 0x26, 2 => onlyIf (z && decide (rd < 16)) (.statVcol p rd a b)
  | 0x26, 3 => onlyIf zb (.statColframe p rd a) | 0x26, 4 => onlyIf z (.statExpo p rd a b) | 0x26, 5 => onlyIf zb (.statFrame p rd a)
  | 0x27, 1 => onlyIf zd (.syncInit p a b) | 0x27, 2 => onlyIf zb (.syncArrive p rd a) | 0x27, 3 => onlyIf zd (.syncWait p a b)
  | 0x27, 4 => onlyIf zd (.syncArm p a b)
  | 0x2F, 1 => onlyIf (zab && rd == 0) (.sysYield p) | 0x2F, 2 => onlyIf (zab && rd == 0) (.sysEnd p)
  | 0x2F, 3 => onlyIf (zab && rd == 0) (.sysFence p) | 0x2F, 4 => onlyIf (a == 0) (.sysCsrr p rd (b * 64 + k))
  | 0x2F, 5 => onlyIf (rd == 0) (.sysCsrw p a (b * 64 + k)) | 0x2F, 6 => onlyIf (zb && rd == 0) (.sysArm p a)
  | 0x2F, 7 => onlyIf (zb && rd == 0) (.sysDisarm p a) | 0x2F, 8 => onlyIf (rd == 0 && a == 0 && b == 0) (.sysTrap p k)
  | 0x2F, 9 => onlyIf zd (.sysStart p a b) | 0x2F, 10 => onlyIf (zb && rd == 0) (.sysHalt p a)
  | _, _ => none

/-- The vector instructions; a vector register field is below 16 (R88, Table 3-10). -/
def decodeVec (p d a b sub k : Nat) : Option Instr :=
  let vd := decide (d < 16)
  let va := decide (a < 16)
  let v3 := vd && va && decide (b < 16) && k == 0
  let vk := vd && va && b == 0 && decide (k < 16)
  match sub with
  | 0x01 => onlyIf v3 (.vadd p d a b) | 0x02 => onlyIf v3 (.vsub p d a b) | 0x03 => onlyIf v3 (.vadds p d a b)
  | 0x04 => onlyIf v3 (.vsubs p d a b) | 0x05 => onlyIf v3 (.vaddus p d a b) | 0x06 => onlyIf v3 (.vsubus p d a b)
  | 0x07 => onlyIf v3 (.vmul p d a b) | 0x08 => onlyIf v3 (.vmulh p d a b) | 0x09 => onlyIf v3 (.vmulq p d a b)
  | 0x0A => onlyIf v3 (.vmin p d a b) | 0x0B => onlyIf v3 (.vmax p d a b) | 0x0C => onlyIf v3 (.vminu p d a b)
  | 0x0D => onlyIf v3 (.vmaxu p d a b) | 0x0E => onlyIf v3 (.vabsdu p d a b) | 0x0F => onlyIf v3 (.vand p d a b)
  | 0x10 => onlyIf v3 (.vor p d a b) | 0x11 => onlyIf v3 (.vxor p d a b) | 0x12 => onlyIf vk (.vshl p d a k)
  | 0x13 => onlyIf vk (.vsrl p d a k) | 0x14 => onlyIf vk (.vsra p d a k) | 0x15 => onlyIf v3 (.vcgt p d a b)
  | 0x16 => onlyIf v3 (.vcgtu p d a b) | 0x17 => onlyIf v3 (.vceq p d a b) | 0x18 => onlyIf v3 (.vsel p d a b)
  | 0x19 => onlyIf vk (.vema p d a k) | 0x1A => onlyIf (vd && b == 0 && k == 0) (.vsplat p d a)
  | 0x1B => onlyIf (va && b == 0 && decide (k < 16)) (.vextu p d a k) | 0x1C => onlyIf (vd && b == 0 && decide (k < 16)) (.vins p d a k)
  | 0x1D => onlyIf (va && b == 0 && k == 0) (.vredadd p d a) | 0x1E => onlyIf (va && b == 0 && k == 0) (.vany p d a)
  | _ => none

/-- The instruction that word `w` is on engine `p`; none where the word is illegal (R88). -/
def folioDecode (p w : Nat) : Option Instr :=
  let op := bits w 26 6
  let d := bits w 21 5
  let a := bits w 16 5
  let b := bits w 11 5
  let sub := bits w 6 5
  let k := bits w 0 6
  let imm := bits w 0 16
  let win := bits w 13 3
  let off := bits w 0 13
  match op with
  | 0x00 => decodeAlu p d a b sub k
  | 0x01 => some (.addi p d a imm) | 0x02 => some (.andi p d a imm) | 0x03 => some (.ori p d a imm) | 0x04 => some (.xori p d a imm)
  | 0x05 => onlyIf (a == 0) (.lui p d imm) | 0x06 => some (.slti p d a imm) | 0x07 => onlyIf (decide (imm < 256)) (.shi p d a imm)
  | 0x08 => some (.lb p d a win off) | 0x09 => some (.lh p d a win off) | 0x0A => some (.lw p d a win off)
  | 0x0B => some (.ld p d a win off) | 0x0C => some (.lbu p d a win off) | 0x0D => some (.lhu p d a win off)
  | 0x0E => some (.lwu p d a win off) | 0x10 => some (.sb p d a win off) | 0x11 => some (.sh p d a win off)
  | 0x12 => some (.sw p d a win off) | 0x13 => some (.sd p d a win off)
  | 0x14 => onlyIf (off % 32 == 0 && decide (off / 32 % 8 < 4)) (.amo p d a win (off / 256) (off / 32 % 8))
  | 0x18 => some (.beq p d a imm) | 0x19 => some (.bne p d a imm) | 0x1A => some (.blt p d a imm) | 0x1B => some (.bge p d a imm)
  | 0x1C => some (.bltu p d a imm) | 0x1D => some (.bgeu p d a imm) | 0x1E => some (.jal p (bits w 0 26)) | 0x1F => some (.jalr p d a imm)
  | 0x28 => decodeVec p d a b sub k
  | 0x29 => onlyIf (decide (d < 16)) (.vld p d a win off) | 0x2A => onlyIf (decide (d < 16)) (.vst p d a win off)
  | _ => decodeDev p op d a b sub k

end Sys2Proof
end

