-- ==== Sys2Proof/Machine/Crc.lean ====
section
/-! DEFINITION. The two check codes of the manual (R527). -/

namespace Sys2Proof.Machine

/-- One bit into the CRC-8 register, polynomial 0x07, most significant bit first. -/
def crc8Bit (c : Nat) (b : Bool) : Nat :=
  let c' := c * 2 % 256
  if bit c 7 != b then Nat.xor c' 7 else c'

/-- CRC-8 of the low `w` bits of `n`, highest bit first, from register value `c`. -/
def crc8Bits (c n : Nat) : Nat → Nat
  | 0 => c
  | w + 1 => crc8Bits (crc8Bit c (bit n w)) n w

/-- CRC-8 of a bit field taken from its highest bit to its lowest. -/
def crc8Field (w n : Nat) : Nat := crc8Bits 0 n w

/-- CRC-8 of bytes, each from bit 7 to bit 0. -/
def crc8 (bs : List Byte) : Nat := bs.foldl (fun c b => crc8Bits c b.toNat 8) 0

/-- `k` steps of the reflected CRC-32 register. -/
def crc32Shift : Nat → Nat → Nat
  | 0, c => c
  | k + 1, c => crc32Shift k (if c % 2 = 1 then Nat.xor (c / 2) 0xEDB88320 else c / 2)

/-- CRC-32 of bytes, the IEEE 802.3 frame check sequence. -/
def crc32 (bs : List Byte) : Nat :=
  Nat.xor (bs.foldl (fun c b => crc32Shift 8 (Nat.xor c b.toNat)) 0xFFFFFFFF) 0xFFFFFFFF

end Sys2Proof.Machine
end

