-- ==== Sys2Proof/Machine/Inflate.lean ====
section
/-! DEFINITION. DEFLATE as a decoder reads it (RFC 1951, RFC 1950, RFC 1952; R368, R378, R381): bits, codes, blocks, wrappers and checksums. -/

namespace Sys2Proof.Machine

/-! ### Bits -/

/-- The bits of bytes, each from its least significant. -/
def bitsOf (bs : List Byte) : List Bool := (bs.map (fun b => (List.range 8).map (fun i => bit b.toNat i))).flatten

/-- The number that bits spell, least significant first. -/
def bitsNat : List Bool → Nat
  | [] => 0
  | b :: bs => ofBool b + 2 * bitsNat bs

/-- Bits of a number, least significant first. -/
def natBits (n w : Nat) : List Bool := (List.range w).map (bit n)

/-- Why decoding stops: more input is needed, or the data is invalid. -/
inductive Stop where
  | more | bad
  deriving DecidableEq, Repr

/-- The next `n` bits as a number. -/
def takeBits (n : Nat) (bs : List Bool) : Except Stop (Nat × List Bool) :=
  if bs.length < n then .error .more else .ok (bitsNat (bs.take n), bs.drop n)

/-- The rest after the present byte, `total` bits of which `bs` remain. -/
def byteAlign (total : Nat) (bs : List Bool) : List Bool := bs.drop ((8 - (total - bs.length) % 8) % 8)

/-! ### Codes -/

/-- Codes of a length. -/
def codeCount (lens : List Nat) (l : Nat) : Nat := (lens.filter (· == l)).length

/-- Code space left at 15 bits, in units of its last bit: negative when over-subscribed, positive when incomplete. -/
def codeLeft (lens : List Nat) : Int :=
  (List.range 15).foldl (fun (n : Int) k => 2 * n - codeCount lens (k + 1)) 1

/-- A distance code may be used: complete, a lone code of one bit, or none at all (RFC 1951, 3.2.7). -/
def codeOk (lens : List Nat) : Bool :=
  codeLeft lens == 0 || (decide (0 < codeLeft lens) && (lens.filter (· != 0)).length ≤ 1 && codeCount lens 1 ≤ 1 &&
    lens.all (fun l => decide (l ≤ 1)))

/-- Symbols in the order of their codes: by length, then by number. -/
def codeOrder (lens : List Nat) : List Nat :=
  ((List.range 15).map (fun k => (lens.zipIdx.filter (fun p => p.1 == k + 1)).map (·.2))).flatten

/-- One symbol, its code grown a bit at a time from `len`, the first code of that length and its place in the order. -/
def symbolAt (lens order : List Nat) : Nat → Nat → Nat → Nat → Nat → List Bool → Except Stop (Nat × List Bool)
  | 0, _, _, _, _, _ => .error .bad
  | _ + 1, _, _, _, _, [] => .error .more
  | fuel + 1, len, code, first, idx, b :: bs =>
    let code := code + ofBool b
    let n := codeCount lens len
    if code < first + n then .ok (order.getD (idx + (code - first)) 0, bs)
    else symbolAt lens order fuel (len + 1) (2 * code) (2 * (first + n)) (idx + n) bs

def symbol (lens : List Nat) (bs : List Bool) : Except Stop (Nat × List Bool) :=
  symbolAt lens (codeOrder lens) 15 1 0 0 0 bs

def fixedLit : List Nat :=
  List.replicate 144 8 ++ List.replicate 112 9 ++ List.replicate 24 7 ++ List.replicate 8 8
def fixedDist : List Nat := List.replicate 30 5 ++ List.replicate 2 5

def lenBase : List Nat :=
  [3, 4, 5, 6, 7, 8, 9, 10, 11, 13, 15, 17, 19, 23, 27, 31, 35, 43, 51, 59, 67, 83, 99, 115, 131, 163, 195, 227, 258]
def lenExtra : List Nat := [0, 0, 0, 0, 0, 0, 0, 0, 1, 1, 1, 1, 2, 2, 2, 2, 3, 3, 3, 3, 4, 4, 4, 4, 5, 5, 5, 5, 0]
def distBase : List Nat :=
  [1, 2, 3, 4, 5, 7, 9, 13, 17, 25, 33, 49, 65, 97, 129, 193, 257, 385, 513, 769, 1025, 1537, 2049, 3073, 4097, 6145, 8193, 12289,
   16385, 24577]
def distExtra : List Nat := [0, 0, 0, 0, 1, 1, 2, 2, 3, 3, 4, 4, 5, 5, 6, 6, 7, 7, 8, 8, 9, 9, 10, 10, 11, 11, 12, 12, 13, 13]
def lenOrder : List Nat := [16, 17, 18, 0, 8, 7, 9, 6, 10, 5, 11, 4, 12, 3, 13, 2, 14, 1, 15]

/-- Code lengths coded with the code-length code, `n` of them still to come; `acc` newest first. -/
def readLens (cl : List Nat) : Nat → Nat → List Nat → List Bool → Except Stop (List Nat × List Bool)
  | 0, _, _, _ => .error .bad
  | fuel + 1, n, acc, bs =>
    if n = 0 then .ok (acc.reverse, bs)
    else do
      let (v, bs) ← symbol cl bs
      if v < 16 then readLens cl fuel (n - 1) (v :: acc) bs
      else
        let (w, base) := if v = 16 then (2, 3) else if v = 17 then (3, 3) else (7, 11)
        let (x, bs) ← takeBits w bs
        let k := base + x
        if n < k ∨ (v = 16 ∧ acc = []) then .error .bad
        else readLens cl fuel (n - k) (List.replicate k (if v = 16 then acc.headD 0 else 0) ++ acc) bs

/-- The codes of a dynamic block. -/
def dynamicCodes (bs : List Bool) : Except Stop ((List Nat × List Nat) × List Bool) := do
  let (hlit, bs) ← takeBits 5 bs
  let (hdist, bs) ← takeBits 5 bs
  let (hclen, bs) ← takeBits 4 bs
  let (raw, bs) ← takeBits (3 * (hclen + 4)) bs
  let cl := (List.range 19).map (fun s => let i := lenOrder.idxOf s; if i < hclen + 4 then bits raw (3 * i) 3 else 0)
  if 29 < hlit ∨ codeLeft cl ≠ 0 then .error .bad
  else
    let (lens, bs) ← readLens cl 400 (hlit + 257 + hdist + 1) [] bs
    let lit := lens.take (hlit + 257)
    let dist := lens.drop (hlit + 257)
    if lit.getD 256 0 = 0 ∨ codeLeft lit ≠ 0 ∨ !codeOk dist then .error .bad else .ok ((lit, dist), bs)

/-! ### Blocks. Output is kept newest byte first. -/

/-- `n` bytes from distance `d` back. -/
def copyBack : Nat → Nat → List Byte → List Byte
  | 0, _, out => out
  | n + 1, d, out => copyBack n d (out.getD (d - 1) 0 :: out)

/-- How far a decoder has come. -/
structure Inf where
  /-- output, newest first; input not taken -/
  out : List Byte
  rest : List Bool
  /-- 0 more input needed, 1 invalid, 2 the last block has ended, 3 the output has reached its limit, 4 a block has ended -/
  st : Nat
  deriving DecidableEq, Repr

/-- Literals and matches of a block; `floor` is output that no distance reaches. -/
def infCodes (lit dist : List Nat) (limit floor : Nat) : Nat → List Byte → List Bool → Inf
  | 0, out, bs => ⟨out, bs, 1⟩
  | fuel + 1, out, bs =>
    match symbol lit bs with
    | .error .more => ⟨out, bs, 0⟩
    | .error .bad => ⟨out, bs, 1⟩
    | .ok (v, bs1) =>
      if v = 256 then ⟨out, bs1, 4⟩
      else if limit ≤ out.length then ⟨out, bs, 3⟩
      else if v < 256 then infCodes lit dist limit floor fuel (BitVec.ofNat 8 v :: out) bs1
      else if 285 < v then ⟨out, bs1, 1⟩
      else
        let r : Except Stop ((Nat × Nat) × List Bool) := do
          let (x, b) ← takeBits (lenExtra.getD (v - 257) 0) bs1
          let (d, b) ← symbol dist b
          if 29 < d then .error .bad
          else
            let (y, b) ← takeBits (distExtra.getD d 0) b
            .ok ((lenBase.getD (v - 257) 3 + x, distBase.getD d 1 + y), b)
        match r with
        | .error .more => ⟨out, bs, 0⟩
        | .error .bad => ⟨out, bs1, 1⟩
        | .ok ((n, d), b) =>
          if out.length - floor < d then ⟨out, b, 1⟩
          else if limit < out.length + n then ⟨copyBack (limit - out.length) d out, b, 3⟩
          else infCodes lit dist limit floor fuel (copyBack n d out) b

/-- One block from here on, and whether it is the last one; `total` is the length of the whole input in bits. -/
def infBlock (total limit floor : Nat) (out : List Byte) (bs : List Bool) : Inf × Bool :=
  match takeBits 3 bs with
  | .error _ => (⟨out, bs, 0⟩, false)
  | .ok (h, b) =>
    let kind := h / 2
    let r : Inf :=
      if kind = 0 then
        let b := byteAlign total b
        match takeBits 32 b with
        | .error _ => ⟨out, bs, 0⟩
        | .ok (v, b) =>
          let n := v % 65536
          if v / 65536 ≠ 65535 - n then ⟨out, b, 1⟩
          else
            let k := min (min n (b.length / 8)) (limit - out.length)
            let bytes := (List.range k).map (fun i => BitVec.ofNat 8 (bitsNat ((b.drop (8 * i)).take 8)))
            ⟨bytes.reverse ++ out, b.drop (8 * k), if k = n then 4 else if k = b.length / 8 then 0 else 3⟩
      else if kind = 1 then infCodes fixedLit fixedDist limit floor (b.length + 1) out b
      else if kind = 2 then
        match dynamicCodes b with
        | .error .more => ⟨out, bs, 0⟩
        | .error .bad => ⟨out, b, 1⟩
        | .ok ((lit, dist), b) => infCodes lit dist limit floor (b.length + 1) out b
      else ⟨out, b, 1⟩
    (r, h % 2 == 1)

/-- Blocks from here on to the end of the last one. -/
def infBlocks (total limit floor : Nat) : Nat → List Byte → List Bool → Inf
  | 0, out, bs => ⟨out, bs, 1⟩
  | fuel + 1, out, bs =>
    let (r, final) := infBlock total limit floor out bs
    if r.st = 4 then (if final then { r with st := 2 } else infBlocks total limit floor fuel r.out r.rest) else r

/-! ### Checksums and wrappers -/

/-- Adler-32 (RFC 1950). -/
def adler32 (bs : List Byte) : Nat :=
  let r := bs.foldl (fun (p : Nat × Nat) b => let a := (p.1 + b.toNat) % 65521; (a, (p.2 + a) % 65521)) (1, 0)
  r.2 * 65536 + r.1

/-- Bytes up to and including a zero byte. -/
def skipZero : List Byte → Option (List Byte)
  | [] => none
  | b :: bs => if b = 0 then some bs else skipZero bs

/-- The rest after a wrapper's header: 0 raw, 1 zlib, 2 gzip (R381). -/
def wrapHeader (wrap : Nat) (bs : List Byte) : Except Stop (List Byte) :=
  let n (i : Nat) : Nat := (bs.getD i 0).toNat
  if wrap = 1 then
    if bs.length < 2 then .error .more
    else if n 0 % 16 ≠ 8 ∨ 7 < n 0 / 16 ∨ (n 0 * 256 + n 1) % 31 ≠ 0 ∨ bit (n 1) 5 then .error .bad
    else .ok (bs.drop 2)
  else if wrap = 2 then
    if bs.length < 10 then .error .more
    else if n 0 ≠ 0x1F ∨ n 1 ≠ 0x8B ∨ n 2 ≠ 8 ∨ 32 ≤ n 3 then .error .bad
    else
      let flg := n 3
      let r := bs.drop 10
      let short (b : Bool) (r : List Byte) : Except Stop (List Byte) :=
        if b then (match skipZero r with | some r => .ok r | none => .error .more) else .ok r
      let extra (b : Bool) (r : List Byte) : Except Stop (List Byte) :=
        if !b then .ok r
        else if r.length < 2 then .error .more
        else
          let k := leNat (r.take 2)
          if r.length < 2 + k then .error .more else .ok (r.drop (2 + k))
      do
        let r ← extra (bit flg 2) r
        let r ← short (bit flg 3) r
        let r ← short (bit flg 4) r
        if bit flg 1 then
          if r.length < 2 then .error .more
          else if leNat (r.take 2) ≠ crc32 (bs.take (bs.length - r.length)) % 65536 then .error .bad
          else .ok (r.drop 2)
        else .ok r
  else .ok bs

/-- Bytes of a wrapper's trailer, and whether it agrees with the text. -/
def trailerLen (wrap : Nat) : Nat := if wrap = 1 then 4 else if wrap = 2 then 8 else 0

def beBytes (n k : Nat) : List Byte := (leBytes k n).reverse

def wrapTrailer (wrap : Nat) (text : List Byte) : List Byte :=
  if wrap = 1 then beBytes (adler32 text) 4
  else if wrap = 2 then leBytes 4 (crc32 text) ++ leBytes 4 text.length
  else []

/-- A whole stream decoded as far as it goes, at most `limit` bytes of output: output, input bytes taken, and `st` as in `Inf`. -/
def inflate (wrap limit : Nat) (input : List Byte) : List Byte × Nat × Nat :=
  match wrapHeader wrap input with
  | .error .more => ([], input.length, 0)
  | .error .bad => ([], input.length, 1)
  | .ok body =>
    let all := bitsOf body
    let r := infBlocks all.length limit 0 (all.length + 1) [] all
    let out := r.out.reverse
    if r.st = 2 then
      let k := trailerLen wrap
      let tail := byteAlign all.length r.rest
      let left := tail.length / 8
      if left < k then (out, input.length, 0)
      else if (body.drop (body.length - left)).take k = wrapTrailer wrap out then (out, input.length - left + k, 2)
      else (out, input.length - left + k, 1)
    else if r.st = 0 then (out, input.length, 0)
    else (out, input.length - r.rest.length / 8, r.st)

/-- Blocks one after another until no bit is left, none or the last one final (R379). -/
def codedTo (final : Bool) (total limit : Nat) : Nat → List Byte → List Bool → Option (List Byte)
  | 0, _, _ => none
  | fuel + 1, out, bs =>
    let (r, f) := infBlock total limit 0 out bs
    if r.st ≠ 4 then none
    else if r.rest = [] then (if f = final then some r.out else none)
    else if f then none
    else codedTo final total limit fuel r.out r.rest

/-- A coded block over its history decodes to exactly `text` (R379): `hist` newest first, `before` bits ahead of it in its byte. -/
def blockDecodes (hist text : List Byte) (final : Bool) (coded : List Bool) (before : Nat) : Bool :=
  codedTo final (coded.length + before) (hist.length + text.length + 1) (coded.length + 1) hist coded ==
    some (text.reverse ++ hist)

/-- A number as a Huffman code: most significant bit first. -/
def msbBits (n w : Nat) : List Bool := (natBits n w).reverse

/-- The fixed code of a literal or length symbol (RFC 1951, 3.2.6). -/
def fixedSym (v : Nat) : List Bool :=
  if v < 144 then msbBits (0x30 + v) 8
  else if v < 256 then msbBits (0x190 + (v - 144)) 9
  else if v < 280 then msbBits (v - 256) 7
  else msbBits (0xC0 + (v - 280)) 8

/-- The symbols of a block coded with `lit` and `dist`, up to its end, in the fixed codes. -/
def recode (lit dist : List Nat) : Nat → List Bool → Option (List Bool)
  | 0, _ => none
  | fuel + 1, bs =>
    match symbol lit bs with
    | .error _ => none
    | .ok (v, bs) =>
      if v = 256 then some (fixedSym 256)
      else if v < 256 then (recode lit dist fuel bs).map (fixedSym v ++ ·)
      else if 285 < v then none
      else
        let x := lenExtra.getD (v - 257) 0
        match symbol dist (bs.drop x) with
        | .error _ => none
        | .ok (d, b) =>
          let y := distExtra.getD d 0
          (recode lit dist fuel (b.drop y)).map (fixedSym v ++ bs.take x ++ msbBits d 5 ++ b.take y ++ ·)

/-- A dynamic block in the fixed codes (R376). -/
def fixedForm (coded : List Bool) : Option (List Bool) :=
  if (coded.drop 1).take 2 = [false, true] then
    match dynamicCodes (coded.drop 3) with
    | .ok ((lit, dist), bs) => (recode lit dist (bs.length + 1) bs).map (coded.take 1 ++ [true, false] ++ ·)
    | .error _ => none
  else none

/-- The shortest of the codings a compressor finds for a block with input, given one of them (R376); an empty block in the fixed codes is
its end alone. -/
def shortest (final : Bool) (input : List Byte) (coded : List Bool) : List Bool :=
  ((fixedForm coded).toList ++ if input = [] then [[final, true, false] ++ fixedSym 256] else []).foldl
    (fun a b => if b.length < a.length then b else a) coded

/-- Stored blocks of `text`, the last one final or not, after `before` bits (R379). -/
def storedBlocks (final : Bool) : Nat → List Byte → Nat → List Bool
  | 0, _, _ => []
  | fuel + 1, text, before =>
    let part := text.take 65535
    let rest := text.drop 65535
    let last := final && rest = []
    let head := natBits (ofBool last) 3
    let pad := List.replicate ((8 - (before + 3) % 8) % 8) false
    let block := head ++ pad ++ natBits part.length 16 ++ natBits (65535 - part.length) 16 ++ bitsOf part
    if rest = [] then block else block ++ storedBlocks final fuel rest (before + block.length)

end Sys2Proof.Machine
end

