-- ==== Sys2Proof/Config.lean ====
section
/-! DEFINITION. What an implementation fixes and what the manual leaves open: constants with no body, so that nothing proved rests on a value of one. -/

namespace Sys2Proof

/-- A free value: what the manual leaves open at place `site`, for the `n`-th time such a value is taken.
Nothing constrains it. -/
opaque Config.free (site n : Nat) : Nat

/-- The fuse at place `n`: factory contents that the manual does not give. -/
opaque Config.fuse (n : Nat) : Nat

/-- Where the vendor's test slice begins, in words of the program area (R125): not stated. -/
opaque Config.testEntry : Nat

/-- The press: pitch of the print columns in 2⁻³² mm, and the cross-track position of column 0 of a plane, 2⁻³² mm. -/
opaque Config.columnPitch : Nat
opaque Config.columnZero (plane : Nat) : Int

/-- The row at a distance on one side of a row, in the physical row order of a stack that the fuses hold (R352). -/
opaque Config.rowBeside (stack row : Nat) (above : Bool) (distance : Nat) : Option Nat

/-! The functions of the standards that the manual names (FIPS 180-4, FIPS 186, RFC 5869, RFC 2104). Their values are fixed outside the
manual, and nothing here rests on one. -/

/-- ECDSA verification: key, message, signature, over P-256 with SHA-256. -/
opaque Config.ecdsa256 (key msg sig : List Byte) : Bool

/-- ECDSA verification over P-384 with SHA-384. -/
opaque Config.ecdsa384 (key msg sig : List Byte) : Bool

/-- The P-256 public key of a private key. -/
opaque Config.ecPublic (priv : List Byte) : List Byte

/-- ECDH on P-256: private key, public key. -/
opaque Config.ecdh (priv pub : List Byte) : List Byte

/-- HKDF-SHA-256: input key material, salt, info. -/
opaque Config.hkdf (ikm salt info : List Byte) : List Byte

/-- HMAC-SHA-256: key, message. -/
opaque Config.hmac (key msg : List Byte) : List Byte

/-- The code of a message of R203 as its MAC covers it: 0 USAGE_ADD, 1 USAGE_NOW. The manual gives no code, nor its width. -/
opaque Config.msgCode (kind : Nat) : List Byte

/-- SHA-384 of a message. -/
opaque Config.sha384 (msg : List Byte) : List Byte

/-! What the vendor's image does with its own body (R454, R463): nothing rests on a value of these. -/

/-- What the image of a version copies to the Stacks as it starts: addresses and bytes. -/
opaque Config.imageStores (version : Nat) : List (Nat × List Byte)

/-- The image's conversion of settings records from a format level, where it succeeds. -/
opaque Config.settingsConvert (version fmt : Nat) (records : List Byte) : Option (List Byte)

/-- The sample that the 4-tap cubic interpolation of Table 6-4 forms from four neighbours at `frac` ÷ `den` between the middle two: its
kernel is not stated. -/
opaque Config.cubic : (a b c d frac den : Nat) → Nat

/-- Luminance of a pixel of three channels (R226): its weights are not stated. -/
opaque Config.luma : (r g b : Nat) → Nat

/-- `dens_frames` of R257: the manual gives it neither a value nor a register. -/
opaque Config.densFrames : Nat

/-- The firmware image of a version carries the calibration loops (R273). -/
opaque Config.imageLoops (version : Nat) : Bool

/-- The factory coefficients of a sin/cos input from fuses (R271): offsets of sin and cos in 1/10,000 of nominal amplitude, cos-to-sin gain
ratio less 1 in 1/10,000, quadrature phase error in 1/100 °. -/
opaque Config.factoryCoef (input which : Nat) : Int

/-- Where between two quarter-period crossings a sin/cos signal stands, of 1,024: from the reading that grows from 0 and the one that falls to
0, both in magnitude (R297). -/
opaque Config.interpolate (rises falls : Nat) : Nat

/-- The cos reading with a quadrature phase error of `angle` in 1/100 ° removed, from the sin and cos readings (R269): how the correction is
worked is not stated. -/
opaque Config.square (sin cos angle : Int) : Int

end Sys2Proof
end

