-- ==== Sys2Proof/Machine/Tbl.lean ====
section
/-! DEFINITION. Tables: plain lists of (key, value) pairs in rising key order, for what the machine keeps once per slot, lane, ring or address. -/

namespace Sys2Proof.Machine

/-- A table keyed by natural numbers, keys strictly rising. -/
abbrev Tbl (α : Type) := List (Nat × α)

/-- The value at `k`, or `d` where the table lists none. -/
def Tbl.get {α : Type} (d : α) : Tbl α → Nat → α
  | [], _ => d
  | (a, v) :: t, k => if a = k then v else Tbl.get d t k

/-- The value at `k`, if listed. -/
def Tbl.find {α : Type} : Tbl α → Nat → Option α
  | [], _ => none
  | (a, v) :: t, k => if a = k then some v else Tbl.find t k

/-- The table with `v` at `k`. -/
def Tbl.put {α : Type} : Tbl α → Nat → α → Tbl α
  | [], k, v => [(k, v)]
  | (a, w) :: t, k, v =>
    if a < k then (a, w) :: Tbl.put t k v
    else if a = k then (k, v) :: t
    else (k, v) :: (a, w) :: t

/-- The table with nothing listed at `k`. -/
def Tbl.del {α : Type} : Tbl α → Nat → Tbl α
  | [], _ => []
  | (a, w) :: t, k => if a = k then Tbl.del t k else (a, w) :: Tbl.del t k

/-- Keys strictly rising, the first above `lo`. -/
def Tbl.sortedFrom {α : Type} : Option Nat → Tbl α → Bool
  | _, [] => true
  | none, (a, _) :: t => Tbl.sortedFrom (some a) t
  | some lo, (a, _) :: t => decide (lo < a) && Tbl.sortedFrom (some a) t

/-- The table is in its canonical form. -/
def Tbl.sorted {α : Type} (t : Tbl α) : Bool := Tbl.sortedFrom none t

end Sys2Proof.Machine
end

