-- ==== Sys2Proof/Machine/Fld.lean ====
section
/-! DEFINITION. What a register-map row says of one field: where it lies, how it is accessed (Table 0-3), what it holds after cold start,
its range, and which copies of it the device keeps. -/

namespace Sys2Proof.Machine

/-- The four lock bits that RWL fields name. -/
inductive LockId where
  | cat | lim | tlim | cfg
  deriving DecidableEq, Repr

/-- Access codes of Table 0-3 (R10). -/
inductive Access where
  | rw | ro | wo | w1c | w1s | rc
  | rwl (k : LockId)
  deriving DecidableEq, Repr

/-- Which copies of a field exist, and how an address names one of them. -/
inductive Bank where
  /-- one copy -/
  | one
  /-- `n` copies, `stride` bytes apart -/
  | arr (stride n : Nat)
  /-- `n` copies at one offset, the copy shown chosen by the selector field at `addr`, bit `lo`, `w` wide -/
  | sel (addr lo w n : Nat)
  /-- `n` copies, `per` to a register, `step` bits apart -/
  | packed (step per n : Nat)
  /-- as `packed`, for each value of a selector field -/
  | selPacked (addr lo w step per n : Nat)
  deriving DecidableEq, Repr

/-- One field of a register map. `reset` is the "After cold start" column, the factory default where the settings
image gives the value (`image`). `lo` and `hi` bound what a write may carry. -/
structure Fld where
  addr : Nat
  lsb : Nat
  width : Nat
  acc : Access
  reset : Nat
  image : Bool
  range : Option (Int × Int)
  bank : Bank
  deriving DecidableEq, Repr

/-- A plain field. -/
def fl (addr lsb width : Nat) (acc : Access) (reset : Nat) : Fld :=
  { addr, lsb, width, acc, reset, image := false, range := none, bank := .one }

def Fld.img (f : Fld) : Fld := { f with image := true }
def Fld.rng (f : Fld) (lo hi : Int) : Fld := { f with range := some (lo, hi) }
def Fld.arr (f : Fld) (stride n : Nat) : Fld := { f with bank := .arr stride n }
def Fld.selBy (f : Fld) (addr lo w n : Nat) : Fld := { f with bank := .sel addr lo w n }
def Fld.packed (f : Fld) (step per n : Nat) : Fld := { f with bank := .packed step per n }
def Fld.selPackedBy (f : Fld) (addr lo w step per n : Nat) : Fld :=
  { f with bank := .selPacked addr lo w step per n }

/-- The table key of copy `i` of a field. -/
def Fld.key (f : Fld) (i : Nat) : Nat := (f.addr * 32 + f.lsb) * 4096 + i % 4096

end Sys2Proof.Machine
end

