-- ==== Sys2Proof/Machine/Entry.lean ====
section
/-! DEFINITION. The layouts of the Catalog entries: the header of Table 1-5 and the class bodies of Tables 1-7, 3-2, 4-7, 5-10, 6-3, 6-5,
8-9 to 8-12, 9-3, 9-10, 11-1, 12-7, 14-6 and 14-7, one constant per field with the range its table gives. -/

namespace Sys2Proof.Machine

/-- One field of an entry: its first byte, its byte count, the bits within those bytes, whether it is signed, its range and the
multiple it must be of. -/
structure EF where
  off : Nat
  size : Nat
  lsb : Nat
  width : Nat
  sgn : Bool
  range : Option (Int × Int)
  mult : Nat
  deriving DecidableEq, Repr

/-- The field of the entry bytes `e`, as a number. -/
def EF.get (f : EF) (e : List Byte) : Nat := bits (leNat ((e.drop f.off).take f.size)) f.lsb f.width

/-- The field of the entry bytes `e`, as a signed number. -/
def EF.geti (f : EF) (e : List Byte) : Int := if f.sgn then signed f.width (f.get e) else (f.get e : Nat)

/-- The field of the entry bytes `e`, as a flag. -/
def EF.on (f : EF) (e : List Byte) : Bool := f.get e == 1

/-- The field lies within its range and is the multiple it must be (R24). -/
def EF.ok (f : EF) (e : List Byte) : Bool :=
  (match f.range with
   | none => true
   | some (lo, hi) => decide (lo ≤ f.geti e) && decide (f.geti e ≤ hi)) &&
  f.get e % f.mult == 0

/-! ### Table 1-5, R23 (entry header) -/
def HdrE.channel : EF := ⟨0, 2, 0, 16, false, none, 1⟩
def HdrE.cls : EF := ⟨2, 1, 0, 8, false, none, 1⟩
def HdrE.layout : EF := ⟨3, 1, 0, 8, false, none, 1⟩
def HdrE.generation : EF := ⟨4, 4, 0, 32, false, none, 1⟩
def HdrE.valid : EF := ⟨8, 1, 0, 1, false, none, 1⟩
def HdrE.hostRo : EF := ⟨8, 1, 1, 1, false, none, 1⟩
def HdrE.pinned : EF := ⟨8, 1, 2, 1, false, none, 1⟩
def HdrE.owner : EF := ⟨9, 1, 0, 8, false, none, 1⟩
def HdrE.check : EF := ⟨12, 4, 0, 32, false, none, 1⟩

/-! ### Table 1-7, R29 (class 0x0C) -/
def RingE.base : EF := ⟨16, 8, 0, 64, false, none, 32⟩
def RingE.log2Size : EF := ⟨24, 1, 0, 8, false, (some (4, 16)), 1⟩
def RingE.direction : EF := ⟨25, 1, 0, 8, false, (some (1, 3)), 1⟩
def RingE.producer : EF := ⟨26, 1, 0, 8, false, none, 1⟩
def RingE.consumer : EF := ⟨27, 1, 0, 8, false, none, 1⟩
def RingE.irqHoldoff : EF := ⟨28, 2, 0, 16, false, none, 1⟩
def RingE.irqEn : EF := ⟨30, 1, 0, 1, false, none, 1⟩
def RingE.ranged : List EF := [RingE.base, RingE.log2Size, RingE.direction]

/-! ### Table 3-2, R84 (class 0x0E) -/
def ScribeE.role : EF := ⟨100, 1, 0, 8, false, none, 1⟩
def ScribeE.faultLimit : EF := ⟨101, 1, 0, 8, false, (some (1, 15)), 1⟩
def ScribeE.caps : EF := ⟨102, 2, 0, 16, false, none, 1⟩
def ScribeE.carrelImage : EF := ⟨104, 8, 0, 64, false, none, 64⟩
def ScribeE.fields : List EF := [ScribeE.role, ScribeE.faultLimit, ScribeE.caps, ScribeE.carrelImage]
def ScribeE.ranged : List EF := [ScribeE.faultLimit, ScribeE.carrelImage]

/-! ### Table 4-7, R142 (class 0x02) -/
def PlaneE.columns : EF := ⟨16, 4, 0, 32, false, (some (1, 131072)), 1⟩
def PlaneE.nPrint : EF := ⟨20, 1, 0, 8, false, (some (1, 4)), 1⟩
def PlaneE.nSpare : EF := ⟨21, 1, 0, 8, false, (some (0, 2)), 1⟩
def PlaneE.densityEn : EF := ⟨22, 1, 0, 1, false, none, 1⟩
def PlaneE.densityBank : EF := ⟨22, 1, 1, 1, false, none, 1⟩
def PlaneE.bankLine : EF := ⟨24, 6, 0, 48, false, none, 1⟩
def PlaneE.densBase0 : EF := ⟨32, 4, 0, 32, false, none, 64⟩
def PlaneE.densBase1 : EF := ⟨36, 4, 0, 32, false, none, 64⟩
def PlaneE.fields : List EF := [PlaneE.columns, PlaneE.nPrint, PlaneE.nSpare, PlaneE.densityEn, PlaneE.densityBank, PlaneE.bankLine, PlaneE.densBase0, PlaneE.densBase1]
def PlaneE.ranged : List EF := [PlaneE.columns, PlaneE.nPrint, PlaneE.nSpare, PlaneE.densBase0, PlaneE.densBase1]

/-! ### Table 5-10, R207 (class 0x01) -/
def SlotE.nozzles : EF := ⟨16, 4, 0, 32, false, (some (1, 65536)), 1⟩
def SlotE.lane : EF := ⟨20, 1, 0, 8, false, (some (0, 39)), 1⟩
def SlotE.laneHalf : EF := ⟨21, 1, 0, 8, false, (some (0, 1)), 1⟩
def SlotE.fireEn : EF := ⟨22, 1, 0, 1, false, none, 1⟩
def SlotE.warnStop : EF := ⟨22, 1, 1, 1, false, none, 1⟩
def SlotE.authReq : EF := ⟨22, 1, 2, 1, false, none, 1⟩
def SlotE.koEn : EF := ⟨22, 1, 3, 1, false, none, 1⟩
def SlotE.anchorMask : EF := ⟨23, 1, 0, 4, false, none, 1⟩
def SlotE.wavePeriodNs : EF := ⟨24, 4, 0, 32, false, (some (12500, 1000000)), 1⟩
def SlotE.fireAlignNs : EF := ⟨28, 2, 0, 16, false, (some (1250, 4000)), 1⟩
def SlotE.koPeriodUs : EF := ⟨30, 2, 0, 16, false, (some (10, 10000)), 1⟩
def SlotE.compNs : EF := ⟨32, 4, 0, 32, false, (some (0, 200000)), 1⟩
def SlotE.subOffset : EF := ⟨36, 4, 0, 32, true, (some (-65536, 65535)), 1⟩
def SlotE.fireTmin : EF := ⟨40, 1, 0, 8, true, none, 1⟩
def SlotE.fireTmax : EF := ⟨41, 1, 0, 8, true, none, 1⟩
def SlotE.tWarn : EF := ⟨42, 1, 0, 8, true, none, 1⟩
def SlotE.tHyst : EF := ⟨43, 1, 0, 8, false, (some (1, 5)), 1⟩
def SlotE.vDrive : EF := ⟨44, 2, 0, 16, false, none, 1⟩
def SlotE.decapMs : EF := ⟨46, 2, 0, 16, false, (some (60, 60000)), 1⟩
def SlotE.waveAddr : EF := ⟨48, 8, 0, 64, false, none, 256⟩
def SlotE.waveLen : EF := ⟨56, 4, 0, 32, false, (some (256, 65536)), 256⟩
def SlotE.waveCrc : EF := ⟨60, 4, 0, 32, false, none, 1⟩
def SlotE.fields : List EF := [SlotE.nozzles, SlotE.lane, SlotE.laneHalf, SlotE.fireEn, SlotE.warnStop, SlotE.authReq, SlotE.koEn, SlotE.anchorMask, SlotE.wavePeriodNs, SlotE.fireAlignNs, SlotE.koPeriodUs, SlotE.compNs, SlotE.subOffset, SlotE.fireTmin, SlotE.fireTmax, SlotE.tWarn, SlotE.tHyst, SlotE.vDrive, SlotE.decapMs, SlotE.waveAddr, SlotE.waveLen, SlotE.waveCrc]
def SlotE.ranged : List EF := [SlotE.nozzles, SlotE.lane, SlotE.laneHalf, SlotE.wavePeriodNs, SlotE.fireAlignNs, SlotE.koPeriodUs, SlotE.compNs, SlotE.subOffset, SlotE.tHyst, SlotE.decapMs, SlotE.waveAddr, SlotE.waveLen]

/-! ### Table 6-3, R213 (class 0x06) -/
def PortE.gearMax : EF := ⟨16, 1, 0, 8, false, (some (1, 5)), 1⟩
def PortE.uplinkGear : EF := ⟨17, 1, 0, 8, false, (some (1, 2)), 1⟩
def PortE.portEn : EF := ⟨18, 1, 0, 1, false, none, 1⟩
def PortE.cciEn : EF := ⟨18, 1, 1, 1, false, none, 1⟩
def PortE.cciKhz : EF := ⟨19, 1, 0, 8, false, none, 1⟩
def PortE.ranged : List EF := [PortE.gearMax, PortE.uplinkGear]

/-! ### Table 6-5, R224 (class 0x07) -/
def PipeE.port : EF := ⟨16, 1, 0, 8, false, (some (0, 15)), 1⟩
def PipeE.vc : EF := ⟨17, 1, 0, 8, false, (some (0, 31)), 1⟩
def PipeE.bindEn : EF := ⟨18, 1, 0, 1, false, none, 1⟩
def PipeE.cmpEn : EF := ⟨18, 1, 1, 1, false, none, 1⟩
def PipeE.accEn : EF := ⟨18, 1, 2, 1, false, none, 1⟩
def PipeE.learnEn : EF := ⟨18, 1, 3, 1, false, none, 1⟩
def PipeE.dtype : EF := ⟨19, 1, 0, 8, false, none, 1⟩
def PipeE.pixels : EF := ⟨20, 2, 0, 16, false, (some (64, 8192)), 1⟩
def PipeE.rawLayout : EF := ⟨22, 1, 0, 8, false, (some (0, 1)), 1⟩
def PipeE.grp : EF := ⟨23, 1, 0, 2, false, none, 1⟩
def PipeE.trigOut : EF := ⟨23, 1, 2, 2, false, none, 1⟩
def PipeE.statTap : EF := ⟨23, 1, 4, 2, false, (some (0, 2)), 1⟩
def PipeE.camLines : EF := ⟨24, 2, 0, 16, false, none, 1⟩
def PipeE.camSub0 : EF := ⟨28, 4, 0, 32, true, none, 1⟩
def PipeE.x0 : EF := ⟨32, 4, 0, 32, true, none, 1⟩
def PipeE.pixPitch : EF := ⟨36, 4, 0, 32, false, none, 1⟩
def PipeE.tabBase : EF := ⟨40, 4, 0, 32, false, none, 64⟩
def PipeE.segHi : EF := ⟨44, 2, 0, 16, false, none, 1⟩
def PipeE.segLo : EF := ⟨46, 2, 0, 16, false, none, 1⟩
def PipeE.segMinArea : EF := ⟨48, 2, 0, 16, false, (some (1, 65535)), 1⟩
def PipeE.edgeThr : EF := ⟨50, 2, 0, 16, false, none, 1⟩
def PipeE.edgeGain : EF := ⟨52, 2, 0, 16, false, (some (256, 4096)), 1⟩
def PipeE.ovlPx : EF := ⟨54, 2, 0, 16, false, (some (16, 256)), 1⟩
def PipeE.lensK1 : EF := ⟨80, 4, 0, 32, true, none, 1⟩
def PipeE.lensK2 : EF := ⟨84, 4, 0, 32, true, none, 1⟩
def PipeE.latLo : EF := ⟨94, 2, 0, 16, false, none, 1⟩
def PipeE.latHi : EF := ⟨96, 2, 0, 16, false, none, 1⟩
def PipeE.cciAddr : EF := ⟨98, 1, 0, 7, false, none, 1⟩
def PipeE.regExp : EF := ⟨100, 2, 0, 16, false, none, 1⟩
def PipeE.regGain : EF := ⟨102, 2, 0, 16, false, none, 1⟩
def PipeE.regIllum : EF := ⟨104, 2, 0, 16, false, none, 1⟩
def PipeE.regCommit : EF := ⟨106, 2, 0, 16, false, none, 1⟩
def PipeE.ranged : List EF := [PipeE.port, PipeE.vc, PipeE.pixels, PipeE.rawLayout, PipeE.statTap, PipeE.tabBase, PipeE.segMinArea, PipeE.edgeGain, PipeE.ovlPx]
/-- Every field of the body, the colour matrix, offsets and `chroma_k` (bytes 56 to 79 and 88 to 93) as runs of bytes. -/
def PipeE.fields : List EF := [PipeE.port, PipeE.vc, PipeE.bindEn, PipeE.cmpEn, PipeE.accEn, PipeE.learnEn, PipeE.dtype, PipeE.pixels,
  PipeE.rawLayout, PipeE.grp, PipeE.trigOut, PipeE.statTap, PipeE.camLines, PipeE.camSub0, PipeE.x0, PipeE.pixPitch, PipeE.tabBase,
  PipeE.segHi, PipeE.segLo, PipeE.segMinArea, PipeE.edgeThr, PipeE.edgeGain, PipeE.ovlPx, ⟨56, 24, 0, 192, false, none, 1⟩, PipeE.lensK1,
  PipeE.lensK2, ⟨88, 6, 0, 48, false, none, 1⟩, PipeE.latLo, PipeE.latHi, PipeE.cciAddr, PipeE.regExp, PipeE.regGain, PipeE.regIllum,
  PipeE.regCommit]

/-! ### Table 8-9, R305 (class 0x08) -/
def AxisE.port : EF := ⟨16, 1, 0, 8, false, (some (0, 3)), 1⟩
def AxisE.drive : EF := ⟨17, 1, 0, 8, false, (some (0, 7)), 1⟩
def AxisE.role : EF := ⟨18, 1, 0, 8, false, (some (0, 4)), 1⟩
def AxisE.axisEn : EF := ⟨19, 1, 0, 1, false, none, 1⟩
def AxisE.rotary : EF := ⟨19, 1, 1, 1, false, none, 1⟩
def AxisE.swLimEn : EF := ⟨19, 1, 2, 1, false, none, 1⟩
def AxisE.swHome : EF := ⟨20, 1, 0, 8, false, none, 1⟩
def AxisE.swLimNeg : EF := ⟨21, 1, 0, 8, false, none, 1⟩
def AxisE.swLimPos : EF := ⟨22, 1, 0, 8, false, none, 1⟩
def AxisE.swPol : EF := ⟨23, 1, 0, 3, false, none, 1⟩
def AxisE.vMax : EF := ⟨24, 4, 0, 32, false, (some (1, 20000000)), 1⟩
def AxisE.aMax : EF := ⟨28, 4, 0, 32, false, (some (1, 1000000)), 1⟩
def AxisE.jMax : EF := ⟨32, 4, 0, 32, false, (some (1, 100000000)), 1⟩
def AxisE.aHard : EF := ⟨36, 4, 0, 32, false, (some (1, 2000000)), 1⟩
def AxisE.posMin : EF := ⟨40, 8, 0, 64, true, none, 1⟩
def AxisE.posMax : EF := ⟨48, 8, 0, 64, true, none, 1⟩
def AxisE.cntNum : EF := ⟨56, 4, 0, 32, false, (some (1, 4294967295)), 1⟩
def AxisE.cntDen : EF := ⟨60, 4, 0, 32, false, (some (1, 4294967295)), 1⟩
def AxisE.holdPct : EF := ⟨64, 1, 0, 8, false, (some (10, 100)), 1⟩
def AxisE.fbInput : EF := ⟨65, 1, 0, 8, false, none, 1⟩
def AxisE.holdDelay : EF := ⟨66, 2, 0, 16, false, (some (10, 60000)), 1⟩
def AxisE.homeFast : EF := ⟨68, 4, 0, 32, false, (some (1, 20000000)), 1⟩
def AxisE.homeSlow : EF := ⟨72, 4, 0, 32, false, (some (1, 20000000)), 1⟩
def AxisE.backoff : EF := ⟨76, 4, 0, 32, false, none, 1⟩
def AxisE.homeOffset : EF := ⟨80, 8, 0, 64, true, none, 1⟩
def AxisE.homeDir : EF := ⟨88, 1, 0, 1, false, none, 1⟩
def AxisE.debounce : EF := ⟨90, 2, 0, 16, false, (some (0, 1000)), 1⟩
def AxisE.debDiv : EF := ⟨92, 2, 0, 16, false, (some (1, 2000)), 1⟩
def AxisE.latchHoldoff : EF := ⟨94, 2, 0, 16, false, (some (1, 65535)), 1⟩
def AxisE.parkPos : EF := ⟨96, 8, 0, 64, true, none, 1⟩
def AxisE.ranged : List EF := [AxisE.port, AxisE.drive, AxisE.role, AxisE.vMax, AxisE.aMax, AxisE.jMax, AxisE.aHard, AxisE.cntNum, AxisE.cntDen, AxisE.holdPct, AxisE.holdDelay, AxisE.homeFast, AxisE.homeSlow, AxisE.debounce, AxisE.debDiv, AxisE.latchHoldoff]

/-! ### Table 8-10, R306 (class 0x09) -/
def FbE.kind : EF := ⟨16, 1, 0, 8, false, (some (0, 3)), 1⟩
def FbE.fflags : EF := ⟨17, 1, 0, 3, false, none, 1⟩
def FbE.dirInv : EF := ⟨17, 1, 0, 1, false, none, 1⟩
def FbE.zEn : EF := ⟨17, 1, 1, 1, false, none, 1⟩
def FbE.ssiGray : EF := ⟨17, 1, 2, 1, false, none, 1⟩
def FbE.ssiBits : EF := ⟨18, 1, 0, 8, false, (some (8, 32)), 1⟩
def FbE.ssiTurnBits : EF := ⟨19, 1, 0, 8, false, (some (0, 24)), 1⟩
def FbE.cpr : EF := ⟨20, 4, 0, 32, false, (some (4, 2147483648)), 1⟩
def FbE.wpNum : EF := ⟨24, 4, 0, 32, false, (some (1, 4294967295)), 1⟩
def FbE.wpDen : EF := ⟨28, 4, 0, 32, false, (some (1, 4294967295)), 1⟩
def FbE.ssiKhz : EF := ⟨32, 2, 0, 16, false, (some (100, 10000)), 1⟩
def FbE.ssiPeriodUs : EF := ⟨34, 2, 0, 16, false, (some (10, 65535)), 1⟩
def FbE.zeroTimeout : EF := ⟨36, 2, 0, 16, false, (some (1, 10000)), 1⟩
def FbE.qerrLimit : EF := ⟨38, 2, 0, 16, false, (some (1, 65535)), 1⟩
def FbE.qerrWindow : EF := ⟨40, 2, 0, 16, false, (some (1, 65535)), 1⟩
def FbE.ampHold : EF := ⟨42, 2, 0, 16, false, (some (1, 65535)), 1⟩
def FbE.spdEdges : EF := ⟨44, 1, 0, 8, false, (some (1, 64)), 1⟩
def FbE.glitch : EF := ⟨45, 1, 0, 8, false, (some (0, 7)), 1⟩
def FbE.ranged : List EF := [FbE.kind, FbE.ssiBits, FbE.ssiTurnBits, FbE.cpr, FbE.wpNum, FbE.wpDen, FbE.ssiKhz, FbE.ssiPeriodUs, FbE.zeroTimeout, FbE.qerrLimit, FbE.qerrWindow, FbE.ampHold, FbE.spdEdges, FbE.glitch]

/-! ### Table 8-11, R307 (class 0x0A) -/
def EmuE.src : EF := ⟨16, 1, 0, 8, false, (some (0, 7)), 1⟩
def EmuE.emuEn : EF := ⟨17, 1, 0, 1, false, none, 1⟩
def EmuE.dirInv : EF := ⟨17, 1, 1, 1, false, none, 1⟩
def EmuE.zEn : EF := ⟨17, 1, 2, 1, false, none, 1⟩
def EmuE.minEdgeNs : EF := ⟨18, 2, 0, 16, false, (some (10, 10000)), 5⟩
def EmuE.nRatio : EF := ⟨20, 4, 0, 32, false, (some (1, 4294967295)), 1⟩
def EmuE.mRatio : EF := ⟨24, 4, 0, 32, false, (some (1, 4294967295)), 1⟩
def EmuE.zPeriod : EF := ⟨28, 4, 0, 32, false, (some (4, 2147483648)), 4⟩
def EmuE.fields : List EF := [EmuE.src, EmuE.emuEn, EmuE.dirInv, EmuE.zEn, EmuE.minEdgeNs, EmuE.nRatio, EmuE.mRatio, EmuE.zPeriod]
def EmuE.ranged : List EF := [EmuE.src, EmuE.minEdgeNs, EmuE.nRatio, EmuE.mRatio, EmuE.zPeriod]

/-! ### Table 8-12, R308 (class 0x0B) -/
def DlE.drives : EF := ⟨16, 1, 0, 8, false, (some (0, 8)), 1⟩
def DlE.portEn : EF := ⟨17, 1, 0, 1, false, none, 1⟩
def DlE.trig : EF := ⟨18, 1, 0, 8, false, (some (0, 63)), 1⟩
def DlE.missLimit : EF := ⟨19, 1, 0, 8, false, (some (1, 16)), 1⟩
def DlE.servoNs : EF := ⟨20, 4, 0, 32, false, (some (62500, 2000000)), 500⟩
def DlE.syncNs : EF := ⟨24, 4, 0, 32, false, (some (13000, 1995000)), 16⟩
def DlE.ranged : List EF := [DlE.drives, DlE.trig, DlE.missLimit, DlE.servoNs, DlE.syncNs]

/-! ### Table 9-3, R325 (class 0x0D) -/
def TrigE.tFirst : EF := ⟨16, 8, 0, 64, false, none, 1⟩
def TrigE.tFirstFrac : EF := ⟨24, 2, 0, 16, false, none, 1⟩
def TrigE.periodNs : EF := ⟨28, 4, 0, 32, false, none, 1⟩
def TrigE.periodFrac : EF := ⟨32, 2, 0, 16, false, none, 1⟩
def TrigE.action : EF := ⟨34, 1, 0, 8, false, (some (0, 3)), 1⟩
def TrigE.target : EF := ⟨35, 1, 0, 8, false, none, 1⟩
def TrigE.trigEn : EF := ⟨36, 1, 0, 1, false, none, 1⟩
def TrigE.count : EF := ⟨40, 4, 0, 32, false, none, 1⟩
def TrigE.ranged : List EF := [TrigE.action]

/-! ### Table 9-10, R339 (class 0x05) -/
def RPortE.rportEn : EF := ⟨16, 1, 0, 1, false, none, 1⟩
def RPortE.fecEn : EF := ⟨16, 1, 1, 1, false, none, 1⟩
def RPortE.ptpEn : EF := ⟨16, 1, 2, 1, false, none, 1⟩
def RPortE.delayAsym : EF := ⟨20, 4, 0, 32, true, none, 1⟩
def RPortE.ranged : List EF := []

/-! ### Table 11-1, R369 (class 0x0F) -/
def BndE.inRing : EF := ⟨16, 1, 0, 8, false, (some (16, 255)), 1⟩
def BndE.unitEn : EF := ⟨17, 1, 0, 1, false, none, 1⟩
def BndE.vfLimit : EF := ⟨18, 1, 0, 8, false, (some (1, 15)), 1⟩
def BndE.ranged : List EF := [BndE.inRing, BndE.vfLimit]

/-! ### Table 12-7, R405 (class 0x03 and 0x04) -/
def LaneE.hlEn : EF := ⟨16, 1, 0, 1, false, none, 1⟩
def LaneE.txInv : EF := ⟨16, 1, 1, 1, false, none, 1⟩
def LaneE.rxInv : EF := ⟨16, 1, 2, 1, false, none, 1⟩
def LaneE.txPre : EF := ⟨17, 1, 0, 8, false, (some (0, 15)), 1⟩
def LaneE.txPost : EF := ⟨18, 1, 0, 8, false, (some (0, 31)), 1⟩
def LaneE.txAmp : EF := ⟨19, 1, 0, 8, false, (some (40, 100)), 1⟩
def LaneE.ctleMax : EF := ⟨20, 1, 0, 8, false, (some (0, 15)), 1⟩
def LaneE.dfeTaps : EF := ⟨21, 1, 0, 8, false, (some (1, 12)), 1⟩
def LaneE.ranged : List EF := [LaneE.txPre, LaneE.txPost, LaneE.txAmp, LaneE.ctleMax, LaneE.dfeTaps]

/-! ### Table 14-6, R449 (class 0x10) -/
def SensE.subEn : EF := ⟨16, 1, 0, 1, false, none, 1⟩
def SensE.evThr : EF := ⟨17, 1, 0, 8, true, none, 1⟩
def SensE.ranged : List EF := []

/-! ### Table 14-7, R450 (class 0x11) -/
def HeadE.hchEn : EF := ⟨16, 1, 0, 1, false, none, 1⟩
def HeadE.subEn : EF := ⟨16, 1, 1, 1, false, none, 1⟩
def HeadE.rateMax : EF := ⟨17, 1, 0, 8, false, (some (1, 100)), 1⟩
def HeadE.trim : EF := ⟨18, 2, 0, 16, true, (some (-64, 64)), 1⟩
def HeadE.xcheck : EF := ⟨20, 1, 0, 8, false, (some (1, 20)), 1⟩
def HeadE.learnS : EF := ⟨22, 2, 0, 16, false, (some (10, 600)), 1⟩
def HeadE.ranged : List EF := [HeadE.rateMax, HeadE.trim, HeadE.xcheck, HeadE.learnS]

end Sys2Proof.Machine
end

