-- ==== Sys2Proof/Machine/RegMap.lean ====
section
/-! DEFINITION. The register maps of the manual (Tables 1-14, 1-15, 2-6, 3-18, 4-17, 5-11, 6-15, 7-9, 8-13, 9-11,
10-9, 11-9, 12-8, 13-9, 14-8, 15-12, 16-4 and 17-10): one constant per field, and the table of them all. BAR0 offsets stand as they are;
a BAR2 offset is written 0x1000_0000 above, a BAR4 offset 0x2000_0000 above, so that one number names a register. -/

namespace Sys2Proof.Machine

/-! ### Table 1-14 (R45, spec/01_architecture.md) -/
def Reg.LX_IDENT.part : Fld := fl 0x0 16 16 .ro 21056
def Reg.LX_IDENT.family : Fld := fl 0x0 12 4 .ro 1
def Reg.LX_IDENT.step_major : Fld := fl 0x0 8 4 .ro 1
def Reg.LX_IDENT.step_minor : Fld := fl 0x0 4 4 .ro 0
def Reg.LX_PERSONA.bar2_open : Fld := fl 0x4 8 1 .ro 1
def Reg.LX_PERSONA.personality : Fld := (fl 0x4 0 2 .ro 1).img.rng (1) (2)
def Reg.LX_FW_VER.fw_version : Fld := fl 0x8 0 32 .ro 0
def Reg.LX_SCRATCH.scratch : Fld := fl 0xC 0 32 .rw 0
/-! ### Table 1-15 (R45, spec/01_architecture.md) -/
def Reg.CAT_BASE_LO.base_lo : Fld := (fl 0x10090000 19 13 (.rwl .cat) 8191).img
def Reg.CAT_BASE_HI.base_hi : Fld := (fl 0x10090004 0 4 (.rwl .cat) 11).img.rng (0) (11)
def Reg.CAT_INVALIDATE.all : Fld := fl 0x10090008 31 1 .wo 0
def Reg.CAT_INVALIDATE.channel : Fld := fl 0x10090008 0 12 .wo 0
def Reg.CAT_LOADED_SEL.sel : Fld := fl 0x1009000C 0 12 .rw 0
def Reg.CAT_LOADED_GEN.loaded_gen : Fld := fl 0x10090010 0 32 .ro 0
def Reg.CAT_STATUS.cached : Fld := fl 0x10090014 16 11 .ro 0
def Reg.CAT_STATUS.cat_lock : Fld := fl 0x10090014 1 1 .w1s 0
def Reg.CAT_STATUS.inv_busy : Fld := fl 0x10090014 0 1 .ro 0
def Reg.LEDGER_SNAP.snap_free : Fld := fl 0x10090018 2 1 .ro 0
def Reg.LEDGER_SNAP.ledger_mismatch : Fld := fl 0x10090018 1 1 .w1c 0
def Reg.LEDGER_SNAP.snap_busy : Fld := fl 0x10090018 0 1 .w1s 0
def Reg.LEDGER_SNAP_LINE_LO.snap_line_lo : Fld := fl 0x1009001C 0 32 .ro 0
def Reg.LEDGER_SNAP_LINE_HI.snap_line_hi : Fld := fl 0x10090020 0 16 .ro 0
/-! ### Table 2-6 (R73, spec/02_operating_modes.md) -/
def Reg.MODE_CUR.cause : Fld := fl 0x10000 20 4 .ro 1
def Reg.MODE_CUR.shadow_of : Fld := fl 0x10000 16 4 .ro 0
def Reg.MODE_CUR.power_busy : Fld := fl 0x10000 10 1 .ro 0
def Reg.MODE_CUR.power : Fld := fl 0x10000 8 2 .ro 0
def Reg.MODE_CUR.prev_mode : Fld := fl 0x10000 4 4 .ro 0
def Reg.MODE_CUR.mode : Fld := fl 0x10000 0 4 .ro 1
def Reg.POWER_CTRL.power_req : Fld := (fl 0x10004 0 2 .rw 0).rng (0) (2)
def Reg.EPOCH_TIME_NS.ep_ns : Fld := (fl 0x10010 0 32 .rw 0).rng (0) (999999999)
def Reg.EPOCH_TIME_SEC_LO.ep_sec_lo : Fld := fl 0x10014 0 32 .rw 0
def Reg.EPOCH_TIME_SEC_HI.ep_sec_hi : Fld := fl 0x10018 0 16 .rw 0
def Reg.EPOCH_CMD.go : Fld := fl 0x1001C 31 1 .wo 0
def Reg.EPOCH_CMD.cancel : Fld := fl 0x1001C 30 1 .wo 0
def Reg.EPOCH_CMD.system : Fld := fl 0x1001C 8 1 .wo 0
def Reg.EPOCH_CMD.target : Fld := fl 0x1001C 0 4 .wo 0
def Reg.EPOCH_STATUS.ep_target : Fld := fl 0x10020 12 4 .ro 0
def Reg.EPOCH_STATUS.rb_cause : Fld := fl 0x10020 8 4 .ro 0
def Reg.EPOCH_STATUS.late_rollback : Fld := fl 0x10020 5 1 .w1c 0
def Reg.EPOCH_STATUS.late_epoch : Fld := fl 0x10020 4 1 .w1c 0
def Reg.EPOCH_STATUS.state : Fld := fl 0x10020 0 3 .ro 0
def Reg.EPOCH_ID.seq : Fld := fl 0x10024 14 18 .ro 0
def Reg.EPOCH_ID.origin : Fld := fl 0x10024 0 14 .ro 0
def Reg.EPOCH_TIMEOUT.epoch_timeout : Fld := (fl 0x10028 0 17 .rw 10000).img.rng (1000) (100000)
def Reg.EPOCH_APPLY_LINE_LO.apply_line_lo : Fld := fl 0x1002C 0 32 .ro 0
def Reg.EPOCH_APPLY_LINE_HI.apply_line_hi : Fld := fl 0x10030 0 16 .ro 0
def Reg.EPOCH_APPLIED_0.applied_0 : Fld := fl 0x10040 0 32 .ro 0
def Reg.EPOCH_APPLIED_1.applied_1 : Fld := fl 0x10044 0 32 .ro 0
def Reg.EPOCH_APPLIED_2.applied_2 : Fld := fl 0x10048 0 32 .ro 0
def Reg.EPOCH_APPLIED_3.applied_3 : Fld := fl 0x1004C 0 32 .ro 0
def Reg.EPOCH_RB_NS.rb_ns : Fld := fl 0x10060 0 32 .ro 0
def Reg.EPOCH_RB_SEC_LO.rb_sec_lo : Fld := fl 0x10064 0 32 .ro 0
def Reg.EPOCH_RB_SEC_HI.rb_sec_hi : Fld := fl 0x10068 0 16 .ro 0
/-! ### Table 3-18 (R128, spec/03_folio_engines.md) -/
def Reg.SCRIBE_MAP.valid : Fld := (fl 0x60000 7 1 .ro 0).packed 8 4 16
def Reg.SCRIBE_MAP.phys : Fld := (fl 0x60000 0 4 .ro 0).packed 8 4 16
def Reg.SCRIBE_STATE.state : Fld := (fl 0x60010 0 2 .ro 0).packed 2 16 16
def Reg.SCRIBE_COUNT.spares : Fld := fl 0x60014 16 5 .ro 0
def Reg.SCRIBE_COUNT.in_service : Fld := fl 0x60014 0 5 .ro 0
def Reg.SCRIBE_SEL.sel : Fld := fl 0x60018 0 4 .rw 0
def Reg.SCRIBE_INFO.faults : Fld := (fl 0x6001C 24 8 .ro 0).selBy 0x60018 0 4 16
def Reg.SCRIBE_INFO.last_cause : Fld := (fl 0x6001C 16 8 .ro 0).selBy 0x60018 0 4 16
def Reg.SCRIBE_INFO.logical : Fld := (fl 0x6001C 8 4 .ro 0).selBy 0x60018 0 4 16
def Reg.SCRIBE_INFO.state : Fld := (fl 0x6001C 0 2 .ro 0).selBy 0x60018 0 4 16
def Reg.SCRIBE_RESTART.go : Fld := fl 0x60020 31 1 .wo 0
def Reg.SCRIBE_RESTART.logical : Fld := fl 0x60020 0 4 .wo 0
def Reg.SCHED_LATE.late_runs : Fld := fl 0x60024 0 32 .rc 0
def Reg.SCRIBE_SUBSTS.substs : Fld := fl 0x60028 0 8 .ro 0
/-! ### Table 4-17 (R168, spec/04_raster_path.md) -/
def Reg.LA_STATUS.policy_eff : Fld := fl 0x40000 26 2 .ro 0
def Reg.LA_STATUS.zone : Fld := fl 0x40000 24 2 .ro 0
def Reg.LA_STATUS.rw_step : Fld := fl 0x40000 16 4 .ro 0
def Reg.LA_STATUS.queue_free : Fld := fl 0x40000 8 7 .ro 64
def Reg.LA_STATUS.job_open : Fld := fl 0x40000 0 1 .ro 0
def Reg.LA_POLICY.policy_default : Fld := (fl 0x40004 0 2 .rw 0).img.rng (0) (3)
def Reg.LA_WM_GREEN.wm_green : Fld := (fl 0x40008 0 16 .rw 3000).img.rng (200) (60000)
def Reg.LA_WM_AMBER.wm_amber : Fld := (fl 0x4000C 0 16 .rw 1500).img.rng (100) (30000)
def Reg.LA_WM_RED.wm_red : Fld := (fl 0x40010 0 16 .rw 300).img.rng (50) (10000)
def Reg.LA_LEAD_US.lead_us : Fld := fl 0x40014 0 32 .ro 0
def Reg.LA_LEAD_LINES.lead_lines : Fld := fl 0x40018 0 32 .ro 0
def Reg.LA_VJOB.v_job : Fld := (fl 0x4001C 0 24 .rw 0).img
def Reg.LA_HORIZON.horizon : Fld := (fl 0x40020 0 7 .rw 16).img.rng (8) (64)
def Reg.LA_THROTTLE.v_floor : Fld := (fl 0x40024 0 16 .rw 500).img.rng (50) (10000)
def Reg.LA_RW_CFG.rw_rev_speed : Fld := (fl 0x40028 16 16 .rw 2000).img.rng (100) (5000)
def Reg.LA_RW_CFG.rw_dwell : Fld := (fl 0x40028 8 8 .rw 20).img
def Reg.LA_RW_CFG.rw_settle : Fld := (fl 0x40028 0 8 .rw 50).img.rng (10) (255)
def Reg.LA_KEEPOPEN.hold_open : Fld := (fl 0x4002C 16 10 .rw 30).img.rng (1) (600)
def Reg.LA_KEEPOPEN.keepopen_after : Fld := (fl 0x4002C 0 10 .rw 50).img.rng (1) (1000)
def Reg.LA_RW_LINE_LO.rw_line_lo : Fld := fl 0x40030 0 32 .ro 0
def Reg.LA_RW_LINE_HI.rw_line_hi : Fld := fl 0x40034 0 16 .ro 0
def Reg.LA_RW_COUNT.holds : Fld := fl 0x40038 16 16 .ro 0
def Reg.LA_RW_COUNT.rewinds : Fld := fl 0x40038 0 16 .ro 0
def Reg.LA_RW_CHECK.count_slip : Fld := fl 0x4003C 31 1 .w1c 0
def Reg.LA_RW_CHECK.index_dev : Fld := fl 0x4003C 0 16 .ro 0
def Reg.LA_STARVED.starved_lines : Fld := fl 0x40040 0 32 .rc 0
def Reg.LA_DECODE_ERR.band_errs : Fld := fl 0x40044 16 16 .rc 0
def Reg.LA_DECODE_ERR.line_errs : Fld := fl 0x40044 0 16 .rc 0
def Reg.LA_SUBST_BASE.subst_base : Fld := fl 0x40048 0 32 .ro 0
def Reg.LA_SUBST_PEND.pending : Fld := fl 0x4004C 0 7 .ro 0
/-! ### Table 5-11 (R209, spec/05_firing.md) -/
def Reg.FS_STATUS.slots_firing : Fld := fl 0x50000 24 7 .ro 0
def Reg.FS_STATUS.cap_active : Fld := fl 0x50000 16 1 .ro 0
def Reg.FS_STATUS.slots_valid : Fld := fl 0x50000 0 7 .ro 0
def Reg.FS_FLAGS.usage_regress : Fld := fl 0x50004 6 1 .w1c 0
def Reg.FS_FLAGS.ack_lost : Fld := fl 0x50004 5 1 .w1c 0
def Reg.FS_FLAGS.data_late : Fld := fl 0x50004 4 1 .w1c 0
def Reg.FS_FLAGS.collided : Fld := fl 0x50004 3 1 .w1c 0
def Reg.FS_FLAGS.sos_jump : Fld := fl 0x50004 2 1 .w1c 0
def Reg.FS_FLAGS.sos_missing : Fld := fl 0x50004 1 1 .w1c 0
def Reg.FS_FLAGS.sos_early : Fld := fl 0x50004 0 1 .w1c 0
def Reg.FS_WEB.web_input : Fld := (fl 0x50008 0 3 .rw 0).img
def Reg.FS_PITCH.line_pitch : Fld := (fl 0x5000C 0 32 .rw 90910141).img.rng (45455070) (4294967295)
def Reg.FS_ORIGIN_LO.origin_lo : Fld := fl 0x50010 0 32 .ro 0
def Reg.FS_ORIGIN_HI.origin_hi : Fld := fl 0x50014 0 32 .ro 0
def Reg.FS_SOS_CHECK.miss_mult : Fld := (fl 0x50018 16 8 .rw 4).img.rng (2) (16)
def Reg.FS_SOS_CHECK.sos_tol : Fld := (fl 0x50018 0 8 .rw 25).img.rng (5) (90)
def Reg.FS_VMIN.start_dist : Fld := (fl 0x5001C 16 16 .rw 10).img.rng (1) (1000)
def Reg.FS_VMIN.v_min : Fld := (fl 0x5001C 0 16 .rw 100).img.rng (10) (1000)
def Reg.FS_VCAP.v_cap : Fld := fl 0x50020 0 24 .ro 0
def Reg.FS_DEADLINE.data_deadline : Fld := (fl 0x50024 0 11 .rw 1150).img.rng (200) (1150)
def Reg.FS_SOS_COUNT.early : Fld := fl 0x50028 16 16 .rc 0
def Reg.FS_SOS_COUNT.missing : Fld := fl 0x50028 0 16 .rc 0
def Reg.FS_SKIPPED.skipped : Fld := fl 0x5002C 0 32 .rc 0
def Reg.FS_WITHHELD.wh_thermal : Fld := fl 0x50030 16 16 .rc 0
def Reg.FS_WITHHELD.wh_data_late : Fld := fl 0x50030 0 16 .rc 0
def Reg.FS_RESP_MAX.resp_max : Fld := fl 0x50034 0 11 .rc 0
def Reg.FS_LIMITS.tmax_ceil : Fld := (fl 0x50038 24 8 (.rwl .lim) 60).img
def Reg.FS_LIMITS.tmin_floor : Fld := (fl 0x50038 16 8 (.rwl .lim) 10).img
def Reg.FS_LIMITS.lim_lock : Fld := (fl 0x50038 0 1 .w1s 1).img
def Reg.FS_VDRIVE_CEIL.vdrive_ceil : Fld := (fl 0x5003C 0 14 (.rwl .lim) 3500).img.rng (0) (10000)
def Reg.FS_AUTH.anchors : Fld := (fl 0x50040 0 4 .ro 0).img
def Reg.FS_SLOT_SEL.sel : Fld := (fl 0x50044 0 7 .rw 0).rng (0) (79)
def Reg.FS_SLOT_STATE.link : Fld := (fl 0x50048 30 2 .ro 0).selBy 0x50044 0 7 80
def Reg.FS_SLOT_STATE.temp_state : Fld := (fl 0x50048 28 2 .ro 3).selBy 0x50044 0 7 80
def Reg.FS_SLOT_STATE.auth : Fld := (fl 0x50048 26 2 .ro 0).selBy 0x50044 0 7 80
def Reg.FS_SLOT_STATE.withholding : Fld := (fl 0x50048 25 1 .ro 0).selBy 0x50044 0 7 80
def Reg.FS_SLOT_STATE.keepopen : Fld := (fl 0x50048 24 1 .ro 0).selBy 0x50044 0 7 80
def Reg.FS_SLOT_STATE.decap_lapsed : Fld := (fl 0x50048 23 1 .ro 0).selBy 0x50044 0 7 80
def Reg.FS_SLOT_STATE.temp : Fld := (fl 0x50048 0 16 .ro 0).selBy 0x50044 0 7 80
def Reg.FS_SLOT_USAGE_LO.usage_lo : Fld := (fl 0x5004C 0 32 .ro 0).selBy 0x50044 0 7 80
def Reg.FS_SLOT_USAGE_HI.usage_hi : Fld := (fl 0x50050 0 32 .ro 0).selBy 0x50044 0 7 80
/-! ### Table 6-15 (R245, spec/06_inspection.md) -/
def Reg.INSP_STATUS.grp_running : Fld := fl 0x70000 16 4 .ro 0
def Reg.INSP_STATUS.bound : Fld := fl 0x70000 0 16 .ro 0
def Reg.INSP_PLANE_GRP.pgrp : Fld := ((fl 0x70004 0 2 .rw 0).img).packed 2 16 16
def Reg.INSP_REL_LINE_LO.rel_line_lo : Fld := fl 0x70008 0 32 .ro 0
def Reg.INSP_REL_LINE_HI.rel_line_hi : Fld := fl 0x7000C 0 16 .ro 0
def Reg.INSP_MARK_RING.mark_ring : Fld := (fl 0x70010 0 8 .rw 0).img
def Reg.INSP_STAT_BASE_LO.stat_base_lo : Fld := (fl 0x70014 12 20 .rw 0).img
def Reg.INSP_STAT_BASE_HI.stat_base_hi : Fld := (fl 0x70018 0 32 .rw 0).img
def Reg.INSP_ACC_BASE_LO.acc_base_lo : Fld := (fl 0x7001C 6 26 .rw 0).img
def Reg.INSP_ACC_BASE_HI.acc_base_hi : Fld := (fl 0x70020 0 32 .rw 0).img
def Reg.INSP_INK_BASE.ink_base : Fld := fl 0x70024 12 14 .rw 0
def Reg.INSP_PORT_SEL.port_sel : Fld := fl 0x70028 0 4 .rw 0
def Reg.INSP_PORT_STATE.gear : Fld := (fl 0x7002C 29 3 .ro 0).selBy 0x70028 0 4 16
def Reg.INSP_PORT_STATE.link_up : Fld := (fl 0x7002C 28 1 .ro 0).selBy 0x70028 0 4 16
def Reg.INSP_PORT_STATE.uplink_up : Fld := (fl 0x7002C 27 1 .ro 0).selBy 0x70028 0 4 16
def Reg.INSP_PORT_STATE.retrains : Fld := (fl 0x7002C 16 8 .ro 0).selBy 0x70028 0 4 16
def Reg.INSP_PORT_UNBOUND.unbound_lines : Fld := (fl 0x70030 0 32 .rc 0).selBy 0x70028 0 4 16
def Reg.INSP_PORT_ERR.crc_err : Fld := (fl 0x70034 16 16 .rc 0).selBy 0x70028 0 4 16
def Reg.INSP_PORT_ERR.dt_unsupported : Fld := (fl 0x70034 0 16 .rc 0).selBy 0x70028 0 4 16
def Reg.INSP_PIPE_SEL.pipe_sel : Fld := fl 0x70038 0 4 .rw 0
def Reg.INSP_PIPE_BIND.pbound : Fld := (fl 0x7003C 31 1 .ro 0).selBy 0x70038 0 4 16
def Reg.INSP_PIPE_BIND.pgroup : Fld := (fl 0x7003C 20 2 .ro 0).selBy 0x70038 0 4 16
def Reg.INSP_PIPE_BIND.pport : Fld := (fl 0x7003C 8 4 .ro 0).selBy 0x70038 0 4 16
def Reg.INSP_PIPE_BIND.pvc : Fld := (fl 0x7003C 0 5 .ro 0).selBy 0x70038 0 4 16
def Reg.INSP_PIPE_FRAME_LO.frame_lo : Fld := (fl 0x70040 0 32 .ro 0).selBy 0x70038 0 4 16
def Reg.INSP_PIPE_FRAME_HI.frame_hi : Fld := (fl 0x70044 0 16 .ro 0).selBy 0x70038 0 4 16
def Reg.INSP_PIPE_EXPO.expo_eff : Fld := (fl 0x70048 16 16 .ro 0).selBy 0x70038 0 4 16
def Reg.INSP_PIPE_EXPO.expo_pend : Fld := (fl 0x70048 0 16 .ro 0).selBy 0x70038 0 4 16
def Reg.INSP_PIPE_LINES.lines_lost : Fld := (fl 0x7004C 16 16 .rc 0).selBy 0x70038 0 4 16
def Reg.INSP_PIPE_LINES.lines_orphan : Fld := (fl 0x7004C 0 16 .rc 0).selBy 0x70038 0 4 16
def Reg.INSP_PIPE_DROP.fate_stale : Fld := (fl 0x70050 24 8 .rc 0).selBy 0x70038 0 4 16
def Reg.INSP_PIPE_DROP.seg_frames : Fld := (fl 0x70050 16 8 .rc 0).selBy 0x70038 0 4 16
def Reg.INSP_PIPE_DROP.stat_dropped : Fld := (fl 0x70050 0 16 .rc 0).selBy 0x70038 0 4 16
def Reg.INSP_PIPE_GEOM_X0.geom_x0 : Fld := (fl 0x70054 0 32 .ro 0).selBy 0x70038 0 4 16
def Reg.INSP_PIPE_GEOM_QR.geom_q : Fld := (fl 0x70058 16 16 .ro 0).selBy 0x70038 0 4 16
def Reg.INSP_PIPE_GEOM_QR.geom_rho : Fld := (fl 0x70058 0 16 .ro 0).selBy 0x70038 0 4 16
def Reg.INSP_PIPE_GEOM_SUB.geom_sub : Fld := (fl 0x7005C 0 32 .ro 0).selBy 0x70038 0 4 16
def Reg.INSP_EXPO_SEL.expo_pipe : Fld := fl 0x70060 0 4 .rw 0
def Reg.EXPO_DATA.expo_data : Fld := (fl 0x70064 0 32 .rw 0).arr 4 8
def Reg.EXPO_GO.go : Fld := fl 0x70084 31 1 .wo 0
def Reg.EXPO_RESULT_LO.expo_t_lo : Fld := fl 0x70088 0 32 .ro 0
def Reg.EXPO_RESULT_HI.expo_t_hi : Fld := fl 0x7008C 0 16 .ro 0
def Reg.GRP_CFG.run : Fld := ((fl 0x70100 31 1 .rw 0).img).arr 16 4
def Reg.GRP_CFG.trig_out : Fld := ((fl 0x70100 16 2 .rw 0).img).arr 16 4
def Reg.GRP_CFG.frame_lines : Fld := ((fl 0x70100 0 14 .rw 1024).img.rng (256) (8192)).arr 16 4
def Reg.GRP_PITCH.grid_pitch : Fld := ((fl 0x70104 0 32 .rw 136365212).img.rng (90910141) (363640565)).arr 16 4
def Reg.GRP_ORIGIN_LO.e0_lo : Fld := (fl 0x70108 0 32 .ro 0).arr 16 4
def Reg.GRP_ORIGIN_HI.e0_hi : Fld := (fl 0x7010C 0 32 .ro 0).arr 16 4
/-! ### Table 7-9 (R273, spec/07_closed_loop.md) -/
def Reg.CL_CTRL.observe_only : Fld := fl 0x80000 7 1 .ro 0
def Reg.CL_CTRL.xshift_en : Fld := (fl 0x80000 5 1 .rw 0).img
def Reg.CL_CTRL.recal_en : Fld := (fl 0x80000 4 1 .rw 1).img
def Reg.CL_CTRL.reg_en : Fld := (fl 0x80000 3 1 .rw 1).img
def Reg.CL_CTRL.dens_en : Fld := (fl 0x80000 2 1 .rw 1).img
def Reg.CL_CTRL.health_en : Fld := (fl 0x80000 1 1 .rw 1).img
def Reg.CL_CTRL.loops_run : Fld := fl 0x80000 0 1 .ro 0
def Reg.CL_PLANE_EN.plane_en : Fld := (fl 0x80004 0 16 .rw 65535).img
def Reg.CL_HEALTH_CFG.h_fail : Fld := (fl 0x80008 16 16 .rw 3000).img.rng (256) (32768)
def Reg.CL_HEALTH_CFG.n_confirm : Fld := (fl 0x80008 12 4 .rw 3).img.rng (1) (15)
def Reg.CL_HEALTH_CFG.ema_shift : Fld := (fl 0x80008 8 4 .rw 3).img.rng (0) (7)
def Reg.CL_HEALTH_CFG.med_half : Fld := (fl 0x80008 0 8 .rw 16).img.rng (4) (64)
def Reg.CL_SUBST_CFG.nb_boost : Fld := (fl 0x8000C 16 8 .rw 32).img.rng (0) (64)
def Reg.CL_SUBST_CFG.sub_margin : Fld := (fl 0x8000C 0 13 .rw 64).img.rng (16) (4096)
def Reg.CL_SUBST_COUNT.retired : Fld := fl 0x80010 16 16 .ro 0
def Reg.CL_SUBST_COUNT.no_spare : Fld := fl 0x80010 0 16 .rc 0
def Reg.CL_NOZ_CMD.op : Fld := fl 0x80014 30 2 .wo 0
def Reg.CL_NOZ_CMD.nozzle : Fld := fl 0x80014 0 23 .wo 0
def Reg.CL_NOZ_RESULT_LO.noz_line_lo : Fld := fl 0x80018 0 32 .ro 0
def Reg.CL_NOZ_RESULT_HI.noz_result : Fld := fl 0x8001C 30 2 .ro 0
def Reg.CL_NOZ_RESULT_HI.noz_line_hi : Fld := fl 0x8001C 0 16 .ro 0
def Reg.CL_DENS_CFG.dens_gain : Fld := (fl 0x80020 24 8 .rw 128).img.rng (1) (255)
def Reg.CL_DENS_CFG.dens_step : Fld := (fl 0x80020 16 8 .rw 4).img.rng (1) (32)
def Reg.CL_DENS_CFG.dens_min_w : Fld := (fl 0x80020 0 16 .rw 4096).img.rng (16) (65535)
def Reg.CL_DENS_COV.cov_hi : Fld := (fl 0x80024 24 8 .rw 60).img.rng (2) (100)
def Reg.CL_DENS_COV.cov_lo : Fld := (fl 0x80024 16 8 .rw 10).img.rng (1) (98)
def Reg.CL_DENS_COV.flat_thr : Fld := (fl 0x80024 0 16 .rw 1024).img
def Reg.CL_CU_CTRL.swap : Fld := fl 0x80028 31 1 .w1s 0
def Reg.CL_CU_CTRL.cu_grp : Fld := fl 0x80028 24 2 .rw 0
def Reg.CL_CU_CTRL.dens_plane : Fld := fl 0x80028 20 4 .rw 0
def Reg.CL_CU_CTRL.cu_buf : Fld := fl 0x80028 0 1 .ro 0
def Reg.CL_CU_FIRST_LO.cu_first_lo : Fld := fl 0x8002C 0 32 .ro 0
def Reg.CL_CU_FIRST_HI.cu_frames : Fld := fl 0x80030 16 16 .ro 0
def Reg.CL_CU_FIRST_HI.cu_first_hi : Fld := fl 0x80030 0 16 .ro 0
def Reg.CL_CU_BASE.cu_base : Fld := fl 0x80034 0 32 .ro 0
def Reg.CL_REG_CFG.reg_gain : Fld := (fl 0x80038 24 8 .rw 64).img.rng (1) (255)
def Reg.CL_REG_CFG.reg_step : Fld := (fl 0x80038 16 8 .rw 20).img.rng (1) (200)
def Reg.CL_REG_CFG.reg_frames : Fld := (fl 0x80038 8 8 .rw 16).img.rng (1) (255)
def Reg.CL_REG_CFG.reg_ref_plane : Fld := (fl 0x80038 0 4 .rw 0).img
def Reg.CL_REG_TEX.reg_min_tex : Fld := (fl 0x8003C 0 32 .rw 65536).img
def Reg.CL_XSHIFT.xs_plane : Fld := fl 0x80040 28 4 .rw 0
def Reg.CL_XSHIFT.xs_applied : Fld := (fl 0x80040 8 8 .ro 0).selBy 0x80040 28 4 16
def Reg.CL_XSHIFT.xs_staged : Fld := (fl 0x80040 0 8 .ro 0).selBy 0x80040 28 4 16
def Reg.CL_RECAL_CFG.recal_max_s : Fld := (fl 0x80044 16 16 .rw 3600).img.rng (60) (65535)
def Reg.CL_RECAL_CFG.recal_min_s : Fld := (fl 0x80044 8 8 .rw 10).img.rng (1) (255)
def Reg.CL_RECAL_CFG.dtemp : Fld := (fl 0x80044 0 5 .rw 4).img.rng (1) (20)
def Reg.CL_RECAL_REQ.go : Fld := fl 0x80048 31 1 .wo 0
def Reg.CL_RECAL_REQ.uclass : Fld := fl 0x80048 8 3 .wo 0
def Reg.CL_RECAL_REQ.unit : Fld := fl 0x80048 0 8 .wo 0
def Reg.CL_RECAL_STATUS.busy : Fld := fl 0x8004C 28 4 .ro 0
def Reg.CL_RECAL_STATUS.deferred : Fld := fl 0x8004C 24 4 .ro 0
def Reg.CL_RECAL_STATUS.xref_fault : Fld := fl 0x8004C 23 1 .ro 0
def Reg.CL_RECAL_STATUS.recal_runs : Fld := fl 0x8004C 0 16 .ro 0
def Reg.CL_Q_SEL.q_class : Fld := fl 0x80050 8 3 .rw 0
def Reg.CL_Q_SEL.q_index : Fld := fl 0x80050 0 8 .rw 0
def Reg.CL_Q_A.q_a : Fld := fl 0x80054 0 32 .ro 0
def Reg.CL_Q_B.q_b : Fld := fl 0x80058 0 32 .ro 0
def Reg.CL_Q_AGE.q_age : Fld := fl 0x8005C 0 32 .ro 4294967295
def Reg.CL_Q_LIMITS.eye_w_min : Fld := (fl 0x80060 24 8 .rw 77).img
def Reg.CL_Q_LIMITS.eye_h_min : Fld := (fl 0x80060 16 8 .rw 15).img
def Reg.CL_Q_LIMITS.amp_res_max : Fld := (fl 0x80060 8 8 .rw 20).img
def Reg.CL_Q_LIMITS.swap_tol : Fld := (fl 0x80060 0 8 .rw 4).img.rng (1) (64)
def Reg.CL_HEALTH_BASE_LO.hb_lo : Fld := (fl 0x80064 12 20 .rw 1015808).img
def Reg.CL_HEALTH_BASE_HI.hb_hi : Fld := (fl 0x80068 0 32 .rw 11).img
/-! ### Table 8-13 (R310, spec/08_motion_feedback.md) -/
def Reg.MOT_STATUS.homed_map : Fld := fl 0x90000 16 16 .ro 0
def Reg.MOT_STATUS.moving_map : Fld := fl 0x90000 0 16 .ro 0
def Reg.MOT_FAULT.axis_fault : Fld := fl 0x90004 0 16 .w1c 0
def Reg.MOT_AXIS_SEL.axis_sel : Fld := fl 0x90008 0 4 .rw 0
def Reg.MOT_CMD.op : Fld := fl 0x9000C 29 3 .wo 0
def Reg.MOT_TARGET_LO.target_lo : Fld := fl 0x90010 0 32 .rw 0
def Reg.MOT_TARGET_HI.target_hi : Fld := fl 0x90014 0 32 .rw 0
def Reg.MOT_SPEED.speed : Fld := fl 0x90018 0 32 .rw 0
def Reg.MOT_AX_STATE.ax_state : Fld := (fl 0x9001C 28 4 .ro 0).selBy 0x90008 0 4 16
def Reg.MOT_AX_STATE.home_step : Fld := (fl 0x9001C 24 4 .ro 0).selBy 0x90008 0 4 16
def Reg.MOT_AX_STATE.decel_kept : Fld := (fl 0x9001C 23 1 .ro 0).selBy 0x90008 0 4 16
def Reg.MOT_AX_STATE.hold_reduced : Fld := (fl 0x9001C 22 1 .ro 0).selBy 0x90008 0 4 16
def Reg.MOT_AX_STATE.homed : Fld := (fl 0x9001C 21 1 .ro 0).selBy 0x90008 0 4 16
def Reg.MOT_AX_STATE.overshoot : Fld := (fl 0x9001C 20 1 .w1c 0).selBy 0x90008 0 4 16
def Reg.MOT_AX_STATE.limit_hit : Fld := (fl 0x9001C 19 1 .w1c 0).selBy 0x90008 0 4 16
def Reg.MOT_AX_STATE.home_failed : Fld := (fl 0x9001C 18 1 .w1c 0).selBy 0x90008 0 4 16
def Reg.MOT_AX_STATE.drive_fault : Fld := (fl 0x9001C 17 1 .w1c 0).selBy 0x90008 0 4 16
def Reg.MOT_AX_STATE.drv_code : Fld := (fl 0x9001C 0 8 .ro 0).selBy 0x90008 0 4 16
def Reg.MOT_AX_POS_LO.pos_lo : Fld := (fl 0x90020 0 32 .ro 0).selBy 0x90008 0 4 16
def Reg.MOT_AX_POS_HI.pos_hi : Fld := (fl 0x90024 0 32 .ro 0).selBy 0x90008 0 4 16
def Reg.MOT_AX_VEL.vel : Fld := (fl 0x90028 0 32 .ro 0).selBy 0x90008 0 4 16
def Reg.MOT_AX_LATCH_LO.latch_lo : Fld := (fl 0x9002C 0 32 .ro 0).selBy 0x90008 0 4 16
def Reg.MOT_AX_LATCH_HI.latch_hi : Fld := (fl 0x90030 0 32 .ro 0).selBy 0x90008 0 4 16
def Reg.MOT_AX_DRV_POS.drv_pos : Fld := (fl 0x90034 0 32 .ro 0).selBy 0x90008 0 4 16
def Reg.MOT_AX_DRV_CUR.drv_cur : Fld := (fl 0x90038 0 16 .ro 0).selBy 0x90008 0 4 16
def Reg.FB_SEL.fb_sel : Fld := fl 0x90040 0 3 .rw 0
def Reg.FB_STATE.enc_fault : Fld := (fl 0x90044 31 1 .w1c 0).selBy 0x90040 0 3 8
def Reg.FB_STATE.amp_fault : Fld := (fl 0x90044 30 1 .ro 0).selBy 0x90040 0 3 8
def Reg.FB_STATE.qerr_sticky : Fld := (fl 0x90044 29 1 .w1c 0).selBy 0x90040 0 3 8
def Reg.FB_STATE.ssi_err : Fld := (fl 0x90044 0 16 .rc 0).selBy 0x90040 0 3 8
def Reg.FB_POS_LO.fpos_lo : Fld := (fl 0x90048 0 32 .ro 0).selBy 0x90040 0 3 8
def Reg.FB_POS_HI.fpos_hi : Fld := (fl 0x9004C 0 32 .ro 0).selBy 0x90040 0 3 8
def Reg.FB_COUNT.count : Fld := (fl 0x90050 0 32 .ro 0).selBy 0x90040 0 3 8
def Reg.FB_REV.rev : Fld := (fl 0x90054 0 32 .ro 0).selBy 0x90040 0 3 8
def Reg.FB_SPEED.fspeed : Fld := (fl 0x90058 0 32 .ro 0).selBy 0x90040 0 3 8
def Reg.FB_QERR.qerr : Fld := (fl 0x9005C 0 32 .rc 0).selBy 0x90040 0 3 8
def Reg.FB_IDX_COUNT.idx_count : Fld := (fl 0x90060 0 32 .ro 0).selBy 0x90040 0 3 8
def Reg.FB_IDX_N.idx_n : Fld := (fl 0x90064 0 32 .ro 0).selBy 0x90040 0 3 8
def Reg.EMU_SEL.emu_sel : Fld := fl 0x90070 0 2 .rw 0
def Reg.EMU_STATE.emu_running : Fld := (fl 0x90074 31 1 .ro 0).selBy 0x90070 0 2 4
def Reg.EMU_STATE.emu_overrun : Fld := (fl 0x90074 30 1 .w1c 0).selBy 0x90070 0 2 4
def Reg.EMU_STATE.backlog : Fld := (fl 0x90074 0 16 .ro 0).selBy 0x90070 0 2 4
def Reg.DL_STATE.dl_link : Fld := (fl 0x90080 30 2 .ro 0).arr 8 4
def Reg.DL_STATE.drives_seen : Fld := (fl 0x90080 8 4 .ro 0).arr 8 4
def Reg.DL_STATE.fresh_map : Fld := (fl 0x90080 0 8 .ro 0).arr 8 4
def Reg.DL_ERR.crc_err : Fld := (fl 0x90084 16 16 .rc 0).arr 8 4
def Reg.DL_ERR.trig_err : Fld := (fl 0x90084 0 16 .rc 0).arr 8 4
/-! ### Table 9-11 (R340, spec/09_time_ring.md) -/
def Reg.TIME_NOW_SUB.now_sub : Fld := fl 0xA0000 0 16 .ro 0
def Reg.TIME_NOW_NS.now_ns : Fld := fl 0xA0004 0 32 .ro 0
def Reg.TIME_NOW_SEC_LO.now_sec_lo : Fld := fl 0xA0008 0 32 .ro 0
def Reg.TIME_NOW_SEC_HI.now_sec_hi : Fld := fl 0xA000C 0 16 .ro 0
def Reg.TIME_STATE.lock_state : Fld := fl 0xA0010 30 2 .ro 0
def Reg.TIME_STATE.traced : Fld := fl 0xA0010 29 1 .ro 0
def Reg.TIME_STATE.gm_self : Fld := fl 0xA0010 28 1 .ro 0
def Reg.TIME_STATE.slave_port : Fld := fl 0xA0010 27 1 .ro 0
def Reg.TIME_STATE.hold_s : Fld := fl 0xA0010 0 16 .ro 0
def Reg.TIME_OFFSET.offset : Fld := fl 0xA0014 0 32 .ro 0
def Reg.TIME_RATE.rate : Fld := fl 0xA0018 0 32 .ro 0
def Reg.TIME_MPD.mean_path : Fld := fl 0xA001C 0 32 .ro 0
def Reg.TIME_PTP_CFG.domain : Fld := (fl 0xA0020 24 8 .rw 0).img.rng (0) (127)
def Reg.TIME_PTP_CFG.log_sync : Fld := (fl 0xA0020 20 4 .rw 13).img.rng (-7) (1)
def Reg.TIME_PTP_CFG.log_dreq : Fld := (fl 0xA0020 16 4 .rw 13).img.rng (-7) (4)
def Reg.TIME_PTP_CFG.log_ann : Fld := (fl 0xA0020 12 4 .rw 1).img.rng (-3) (3)
def Reg.TIME_PTP_CFG.ann_timeout : Fld := (fl 0xA0020 8 4 .rw 3).img.rng (2) (10)
def Reg.TIME_PTP_CFG.ptp_role : Fld := (fl 0xA0020 0 2 .rw 1).img.rng (0) (2)
def Reg.TIME_GM_CFG.priority1 : Fld := (fl 0xA0024 24 8 .rw 128).img
def Reg.TIME_GM_CFG.priority2 : Fld := (fl 0xA0024 16 8 .rw 128).img
def Reg.TIME_GM_CFG.clock_class : Fld := (fl 0xA0024 8 8 .rw 248).img
def Reg.TIME_GM_CFG.clock_acc : Fld := (fl 0xA0024 0 8 .rw 254).img
def Reg.TIME_SERVO.lock_thr : Fld := (fl 0xA0028 16 16 .rw 100).img.rng (10) (10000)
def Reg.TIME_SERVO.slew_max : Fld := (fl 0xA0028 0 9 .rw 100).img.rng (1) (500)
def Reg.TIME_STEP_THR.step_thr : Fld := (fl 0xA002C 0 32 .rw 1000).img.rng (100) (1000000000)
def Reg.TIME_TRACE.trace_hold_s : Fld := (fl 0xA0030 16 16 .rw 300).img
def Reg.TIME_TRACE.steps : Fld := fl 0xA0030 0 16 .ro 0
def Reg.TIME_SET_NS.set_ns : Fld := fl 0xA0034 0 32 .rw 0
def Reg.TIME_SET_SEC_LO.set_sec_lo : Fld := fl 0xA0038 0 32 .rw 0
def Reg.TIME_SET_SEC_HI.set_sec_hi : Fld := fl 0xA003C 0 16 .rw 0
def Reg.TIME_SET_CMD.go : Fld := fl 0xA0040 31 1 .wo 0
def Reg.TIME_SET_CMD.at_pps : Fld := fl 0xA0040 30 1 .wo 0
def Reg.TIME_PPS.pps_in_en : Fld := (fl 0xA0044 31 1 .rw 0).img
def Reg.TIME_PPS.pps_out_en : Fld := (fl 0xA0044 30 1 .rw 0).img
def Reg.TIME_PPS.pps_lock : Fld := fl 0xA0044 29 1 .ro 0
def Reg.TIME_PPS.pps_width : Fld := (fl 0xA0044 0 10 .rw 100).img.rng (1) (500)
def Reg.TIME_GM_ID_LO.gm_id_lo : Fld := fl 0xA0048 0 32 .ro 0
def Reg.TIME_GM_ID_HI.gm_id_hi : Fld := fl 0xA004C 0 32 .ro 0
def Reg.TIME_CAP_SEL.cap_sel : Fld := fl 0xA0050 0 8 .rw 0
def Reg.TIME_CAP_SUB.cap_sub : Fld := fl 0xA0054 0 16 .ro 0
def Reg.TIME_CAP_NS.cap_ns : Fld := fl 0xA0058 0 32 .ro 0
def Reg.TIME_CAP_SEC_LO.cap_sec_lo : Fld := fl 0xA005C 0 32 .ro 0
def Reg.TIME_CAP_SEC_HI.cap_sec_hi : Fld := fl 0xA0060 0 16 .ro 0
def Reg.TIME_CAP_N.cap_n : Fld := fl 0xA0064 0 32 .ro 0
def Reg.TRIG_SEL.trig_sel : Fld := fl 0xA0068 0 6 .rw 0
def Reg.TRIG_STATE.armed : Fld := (fl 0xA006C 31 1 .ro 0).selBy 0xA0068 0 6 64
def Reg.TRIG_STATE.late_loads : Fld := (fl 0xA006C 16 8 .rc 0).selBy 0xA0068 0 6 64
def Reg.TRIG_STATE.missed : Fld := (fl 0xA006C 0 16 .rc 0).selBy 0xA0068 0 6 64
def Reg.TRIG_FIRINGS.firings : Fld := (fl 0xA0070 0 32 .ro 0).selBy 0xA0068 0 6 64
def Reg.RING_NODE.node_dup : Fld := fl 0xA0080 31 1 .w1c 0
def Reg.RING_NODE.ring_loop : Fld := fl 0xA0080 30 1 .w1c 0
def Reg.RING_NODE.learned : Fld := fl 0xA0080 29 1 .ro 0
def Reg.RING_NODE.node : Fld := (fl 0xA0080 0 14 (.rwl .cfg) 16383).img
def Reg.RING_CFG.cfg_lock : Fld := (fl 0xA0084 31 1 .w1s 1).img
def Reg.RING_CFG.ring_no : Fld := (fl 0xA0084 16 7 (.rwl .cfg) 0).img.rng (0) (127)
def Reg.RING_CFG.ethertype : Fld := (fl 0xA0084 0 16 (.rwl .cfg) 34997).img.rng (1536) (65535)
def Reg.RING_PORT_STATE.rlink : Fld := (fl 0xA0088 30 2 .ro 0).arr 8 2
def Reg.RING_PORT_STATE.partner_lx : Fld := (fl 0xA0088 29 1 .ro 0).arr 8 2
def Reg.RING_PORT_STATE.fec_on : Fld := (fl 0xA0088 28 1 .ro 0).arr 8 2
def Reg.RING_PORT_STATE.partner_node : Fld := (fl 0xA0088 0 14 .ro 0).arr 8 2
def Reg.RING_PORT_ERR.fcs_err : Fld := (fl 0xA008C 16 16 .rc 0).arr 8 2
def Reg.RING_PORT_ERR.foreign : Fld := (fl 0xA008C 0 16 .rc 0).arr 8 2
def Reg.RING_DISC.dup_disc : Fld := fl 0xA0098 16 16 .rc 0
def Reg.RING_DISC.hop_disc : Fld := fl 0xA0098 0 16 .rc 0
def Reg.RING_MAC_LO.mac_lo : Fld := (fl 0xA009C 0 32 .ro 0).img
def Reg.RING_MAC_HI.mac_hi : Fld := (fl 0xA00A0 0 16 .ro 0).img
/-! ### Table 10-9 (R367, spec/10_memory.md) -/
def Reg.MEM_STATUS.snap_valid : Fld := fl 0xB0000 7 1 .ro 0
def Reg.MEM_STATUS.frozen : Fld := fl 0xB0000 6 1 .ro 0
def Reg.MEM_STATUS.rep_full : Fld := fl 0xB0000 5 1 .ro 0
def Reg.MEM_STATUS.hot : Fld := fl 0xB0000 3 2 .ro 0
def Reg.MEM_STATUS.trained : Fld := fl 0xB0000 0 1 .ro 0
def Reg.MEM_NRR.nrr_dist : Fld := (fl 0xB0004 2 1 .rw 1).img
def Reg.MEM_NRR.nrr_log2 : Fld := (fl 0xB0004 0 2 .rw 2).img
def Reg.MEM_SCRUB.scrub_shadow_h : Fld := (fl 0xB0008 24 8 .rw 1).img.rng (1) (24)
def Reg.MEM_SCRUB.scrub_h : Fld := (fl 0xB0008 16 8 .rw 24).img.rng (1) (168)
def Reg.MEM_SCRUB.scrub_pass : Fld := fl 0xB0008 0 16 .ro 0
def Reg.MEM_ECC.ecc_die : Fld := fl 0xB000C 16 16 .rc 0
def Reg.MEM_ECC.ecc_corr : Fld := fl 0xB000C 0 16 .rc 0
def Reg.MEM_REPAIR.rep_thr : Fld := (fl 0xB0010 24 8 .rw 2).img.rng (1) (15)
def Reg.MEM_REPAIR.lanes_remapped : Fld := fl 0xB0010 16 8 .ro 0
def Reg.MEM_REPAIR.rows_repaired : Fld := fl 0xB0010 0 16 .ro 0
def Reg.MEM_MARGIN_CFG.margin_min : Fld := (fl 0xB0014 0 6 .rw 8).img
def Reg.MEM_PC_SEL.pc_sel : Fld := fl 0xB0018 0 6 .rw 0
def Reg.MEM_PC_MARGIN.rd_margin : Fld := (fl 0xB001C 24 8 .ro 0).selBy 0xB0018 0 6 64
def Reg.MEM_PC_MARGIN.wr_margin : Fld := (fl 0xB001C 16 8 .ro 0).selBy 0xB0018 0 6 64
def Reg.MEM_PC_MARGIN.pc_temp : Fld := (fl 0xB001C 0 16 .ro 0).selBy 0xB0018 0 6 64
def Reg.MEM_PORT_CFG.target_ns : Fld := ((fl 0xB0040 12 20 .rw 0).img).arr 8 9
def Reg.MEM_PORT_CFG.rate_gbs : Fld := ((fl 0xB0040 0 12 .rw 0).img.rng (0) (1150)).arr 8 9
def Reg.MEM_PORT_STAT.urgency : Fld := (fl 0xB0044 30 2 .ro 0).arr 8 9
def Reg.MEM_PORT_STAT.late : Fld := (fl 0xB0044 0 24 .rc 0).arr 8 9
def Reg.MEM_RR_STATUS.horizon_eff : Fld := fl 0xB0100 24 8 .ro 0
def Reg.MEM_RR_STATUS.rr_corr : Fld := fl 0xB0100 16 8 .rc 0
def Reg.MEM_RR_STATUS.rr_retired : Fld := fl 0xB0100 8 8 .ro 0
def Reg.MEM_RR_STATUS.rr_spares : Fld := fl 0xB0100 0 3 .ro 4
def Reg.MEM_RR_CFG.rr_rot_s : Fld := (fl 0xB0104 0 16 .rw 60).img.rng (10) (65535)
/-! ### Table 11-9 (R384, spec/11_bindery.md) -/
def Reg.BND_STATUS.suspect : Fld := fl 0xC0000 16 16 .w1c 0
def Reg.BND_STATUS.busy : Fld := fl 0xC0000 0 16 .ro 0
def Reg.BND_SEL.unit_sel : Fld := fl 0xC0004 0 4 .rw 0
def Reg.BND_STREAM.stream_open : Fld := (fl 0xC0008 31 1 .ro 0).selBy 0xC0004 0 4 16
def Reg.BND_STREAM.ring : Fld := (fl 0xC0008 16 8 .ro 0).selBy 0xC0004 0 4 16
def Reg.BND_STREAM.s_op : Fld := (fl 0xC0008 10 2 .ro 0).selBy 0xC0004 0 4 16
def Reg.BND_STREAM.s_wrap : Fld := (fl 0xC0008 8 2 .ro 0).selBy 0xC0004 0 4 16
def Reg.BND_STREAM.s_effort : Fld := (fl 0xC0008 4 4 .ro 0).selBy 0xC0004 0 4 16
def Reg.BND_IN_BYTES.in_bytes : Fld := (fl 0xC000C 0 32 .ro 0).selBy 0xC0004 0 4 16
def Reg.BND_OUT_BYTES.out_bytes : Fld := (fl 0xC0010 0 32 .ro 0).selBy 0xC0004 0 4 16
def Reg.BND_VERIFY.verify_fb : Fld := (fl 0xC0014 16 16 .rc 0).selBy 0xC0004 0 4 16
def Reg.BND_VERIFY.abandoned : Fld := (fl 0xC0014 0 16 .rc 0).selBy 0xC0004 0 4 16
def Reg.BND_ERR.data_err : Fld := (fl 0xC0018 16 16 .rc 0).selBy 0xC0004 0 4 16
def Reg.BND_ERR.job_err : Fld := (fl 0xC0018 0 16 .rc 0).selBy 0xC0004 0 4 16
/-! ### Table 12-8 (R407, spec/12_lanes.md) -/
def Reg.LANE_STATUS.twin_up : Fld := fl 0xD0000 12 4 .ro 0
def Reg.LANE_STATUS.hl_spares : Fld := fl 0xD0000 8 4 .ro 0
def Reg.LANE_STATUS.hl_retired : Fld := fl 0xD0000 0 6 .ro 0
def Reg.LANE_MAP.moved : Fld := (fl 0xD0004 7 1 .ro 0).packed 8 4 40
def Reg.LANE_MAP.phys : Fld := (fl 0xD0004 0 6 .ro 0).packed 8 4 40
def Reg.LANE_CMD.op : Fld := fl 0xD0030 30 2 .wo 0
def Reg.LANE_CMD.lane : Fld := fl 0xD0030 0 6 .wo 0
def Reg.LANE_CMD_RESULT.cmd_result : Fld := fl 0xD0034 30 2 .ro 0
def Reg.LANE_SEL.lsel : Fld := (fl 0xD0038 0 6 .rw 0).rng (0) (51)
def Reg.LANE_STATE.lstate : Fld := (fl 0xD003C 29 3 .ro 0).selBy 0xD0038 0 6 52
def Reg.LANE_STATE.block_lock : Fld := (fl 0xD003C 28 1 .ro 0).selBy 0xD0038 0 6 52
def Reg.LANE_STATE.cdr_lock : Fld := (fl 0xD003C 27 1 .ro 0).selBy 0xD0038 0 6 52
def Reg.LANE_STATE.loop : Fld := (fl 0xD003C 24 3 .ro 0).selBy 0xD0038 0 6 52
def Reg.LANE_STATE.ctle : Fld := (fl 0xD003C 20 4 .ro 0).selBy 0xD0038 0 6 52
def Reg.LANE_STATE.pad : Fld := (fl 0xD003C 14 6 .ro 0).selBy 0xD0038 0 6 52
def Reg.LANE_STATE.restarts : Fld := (fl 0xD003C 0 8 .ro 0).selBy 0xD0038 0 6 52
def Reg.LANE_DFE.tap : Fld := (fl 0xD0040 0 8 .ro 0).selPackedBy 0xD0038 0 6 8 4 12
def Reg.LANE_ERR.hdr_err : Fld := (fl 0xD004C 16 16 .rc 0).selBy 0xD0038 0 6 52
def Reg.LANE_ERR.os_err : Fld := (fl 0xD004C 8 8 .rc 0).selBy 0xD0038 0 6 52
def Reg.LANE_ERR.lock_loss : Fld := (fl 0xD004C 0 8 .rc 0).selBy 0xD0038 0 6 52
def Reg.LANE_FRAME_ERR.frame_err : Fld := (fl 0xD0050 16 16 .rc 0).selBy 0xD0038 0 6 52
def Reg.LANE_FRAME_ERR.switch_err : Fld := (fl 0xD0050 0 16 .rc 0).selBy 0xD0038 0 6 52
def Reg.PRBS_CTRL.gen_en : Fld := (fl 0xD0054 31 1 .rw 0).selBy 0xD0038 0 6 52
def Reg.PRBS_CTRL.chk_en : Fld := (fl 0xD0054 30 1 .rw 0).selBy 0xD0038 0 6 52
def Reg.PRBS_CTRL.pattern : Fld := ((fl 0xD0054 27 3 .rw 4).rng (0) (4)).selBy 0xD0038 0 6 52
def Reg.PRBS_CTRL.inv : Fld := (fl 0xD0054 26 1 .rw 0).selBy 0xD0038 0 6 52
def Reg.PRBS_CTRL.inj_once : Fld := (fl 0xD0054 25 1 .w1s 0).selBy 0xD0038 0 6 52
def Reg.PRBS_CTRL.chk_sync : Fld := (fl 0xD0054 24 1 .ro 0).selBy 0xD0038 0 6 52
def Reg.PRBS_CTRL.inj_period : Fld := (fl 0xD0054 0 24 .rw 0).selBy 0xD0038 0 6 52
def Reg.PRBS_ERR.prbs_err : Fld := (fl 0xD0058 0 32 .rc 0).selBy 0xD0038 0 6 52
def Reg.PRBS_BITS_LO.bits_lo : Fld := (fl 0xD005C 0 32 .ro 0).selBy 0xD0038 0 6 52
def Reg.PRBS_BITS_HI.bits_hi : Fld := (fl 0xD0060 0 32 .ro 0).selBy 0xD0038 0 6 52
def Reg.LANE_LOOP.loop_req : Fld := (fl 0xD0064 0 3 .rw 0).selBy 0xD0038 0 6 52
/-! ### Table 13-9 (R431, spec/13_pairing_spares.md) -/
def Reg.PAIR_STATUS.role_now : Fld := fl 0xE0000 30 2 .ro 0
def Reg.PAIR_STATUS.primary : Fld := fl 0xE0000 29 1 .ro 0
def Reg.PAIR_STATUS.partner_seen : Fld := fl 0xE0000 28 1 .ro 0
def Reg.PAIR_STATUS.in_sync : Fld := fl 0xE0000 27 1 .ro 0
def Reg.PAIR_STATUS.partner_fit : Fld := fl 0xE0000 26 1 .ro 0
def Reg.PAIR_STATUS.self_fit : Fld := fl 0xE0000 25 1 .ro 0
def Reg.PAIR_STATUS.twin_lost : Fld := fl 0xE0000 24 1 .ro 0
def Reg.PAIR_STATUS.role_clash : Fld := fl 0xE0000 23 1 .ro 0
def Reg.PAIR_STATUS.pipe_degraded : Fld := fl 0xE0000 22 1 .w1c 0
def Reg.PAIR_STATUS.switchovers : Fld := fl 0xE0000 8 8 .ro 0
def Reg.PAIR_STATUS.partner_mode : Fld := fl 0xE0000 0 4 .ro 0
def Reg.PAIR_CFG.pair_en : Fld := (fl 0xE0004 31 1 .ro 0).img
def Reg.PAIR_CFG.revertive : Fld := (fl 0xE0004 30 1 .rw 1).img
def Reg.PAIR_CFG.pipe_spare_en : Fld := (fl 0xE0004 29 1 .rw 1).img
def Reg.PAIR_CFG.wtr_s : Fld := (fl 0xE0004 0 12 .rw 120).img.rng (10) (3600)
def Reg.PAIR_CMD.op : Fld := fl 0xE0008 30 2 .wo 0
def Reg.PAIR_WTR.wtr_left : Fld := fl 0xE000C 0 12 .ro 0
def Reg.PAIR_SYNC.resyncs : Fld := fl 0xE0010 16 16 .ro 0
def Reg.PAIR_SYNC.backlog_kib : Fld := fl 0xE0010 0 16 .ro 0
def Reg.PAIR_TWIN.rec_retx : Fld := fl 0xE0014 16 16 .rc 0
def Reg.PAIR_TWIN.hb_miss : Fld := fl 0xE0014 0 16 .rc 0
def Reg.PAIR_HEALTH_SELF.hs : Fld := (fl 0xE0020 0 32 .ro 0).arr 4 8
def Reg.PAIR_HEALTH_PARTNER.hp : Fld := (fl 0xE0040 0 32 .ro 0).arr 4 8
def Reg.PAIR_MIR_BASE.mir_base : Fld := ((fl 0xE0060 0 20 .rw 0).img).arr 8 8
def Reg.PAIR_MIR_SIZE.mir_size : Fld := ((fl 0xE0064 0 20 .rw 0).img.rng (0) (786432)).arr 8 8
def Reg.PAIR_SLOT_SEL.pslot : Fld := (fl 0xE00A0 0 7 .rw 0).rng (0) (79)
def Reg.PAIR_SLOT_SHADOW.shadow_lines : Fld := (fl 0xE00A4 0 32 .ro 0).selBy 0xE00A0 0 7 80
def Reg.PAIR_HANDOVER_LO.ns_lo : Fld := (fl 0xE00A8 0 32 .ro 0).selBy 0xE00A0 0 7 80
def Reg.PAIR_HANDOVER_HI.ns_hi : Fld := (fl 0xE00AC 0 16 .ro 0).selBy 0xE00A0 0 7 80
def Reg.PAIR_REPORT_BASE_LO.rep_lo : Fld := (fl 0xE00B0 6 26 .rw 0).img
def Reg.PAIR_REPORT_BASE_HI.rep_hi : Fld := (fl 0xE00B4 0 32 .rw 0).img
/-! ### Table 14-8 (R451, spec/14_thermal.md) -/
def Reg.THERM_STATUS.tj_sensor : Fld := fl 0xF0000 24 6 .ro 0
def Reg.THERM_STATUS.flash_ok : Fld := fl 0xF0000 20 1 .ro 0
def Reg.THERM_STATUS.sens_degraded : Fld := fl 0xF0000 19 1 .ro 0
def Reg.THERM_STATUS.die_state : Fld := fl 0xF0000 16 2 .ro 0
def Reg.THERM_STATUS.tj : Fld := fl 0xF0000 0 16 .ro 0
def Reg.THERM_TJ_PEAK.tj_min : Fld := fl 0xF0004 16 16 .ro 0
def Reg.THERM_TJ_PEAK.tj_peak : Fld := fl 0xF0004 0 16 .rc 0
def Reg.THERM_LIMITS.tlim_lock : Fld := (fl 0xF0008 31 1 .w1s 1).img
def Reg.THERM_LIMITS.t_hyst_die : Fld := (fl 0xF0008 16 4 (.rwl .tlim) 5).img.rng (1) (10)
def Reg.THERM_LIMITS.tj_limit : Fld := (fl 0xF0008 8 8 (.rwl .tlim) 110).img.rng (60) (110)
def Reg.THERM_LIMITS.tj_warn : Fld := (fl 0xF0008 0 8 (.rwl .tlim) 100).img.rng (50) (100)
def Reg.THERM_HBM_LIMITS.hbm_limit : Fld := (fl 0xF000C 8 8 (.rwl .tlim) 105).img.rng (60) (105)
def Reg.THERM_HBM_LIMITS.hbm_warn : Fld := (fl 0xF000C 0 8 (.rwl .tlim) 100).img.rng (50) (100)
def Reg.THERM_HBM_TEMP.stack1 : Fld := fl 0xF0010 16 16 .ro 0
def Reg.THERM_HBM_TEMP.stack0 : Fld := fl 0xF0010 0 16 .ro 0
def Reg.THERM_XCHECK.xcount : Fld := (fl 0xF0014 8 8 .rw 20).img.rng (1) (255)
def Reg.THERM_XCHECK.xdev : Fld := (fl 0xF0014 0 8 .rw 12).img.rng (2) (40)
def Reg.THERM_SENS_SEL.sens_sel : Fld := (fl 0xF0018 0 6 .rw 0).rng (0) (47)
def Reg.THERM_SENS.s_state : Fld := (fl 0xF001C 30 2 .ro 0).selBy 0xF0018 0 6 48
def Reg.THERM_SENS.s_value : Fld := (fl 0xF001C 0 16 .ro 0).selBy 0xF0018 0 6 48
def Reg.THERM_SENS_RAW.s_offset : Fld := (fl 0xF0020 16 16 .ro 0).selBy 0xF0018 0 6 48
def Reg.THERM_SENS_RAW.s_raw : Fld := (fl 0xF0020 0 16 .ro 0).selBy 0xF0018 0 6 48
def Reg.THERM_SENS_NBR.nbr : Fld := (fl 0xF0024 0 6 .ro 63).selPackedBy 0xF0018 0 6 6 5 5
def Reg.THERM_SUBST.n_invalid : Fld := fl 0xF0028 8 8 .ro 0
def Reg.THERM_SUBST.n_subst : Fld := fl 0xF0028 0 8 .ro 0
def Reg.THERM_CMD.restore : Fld := fl 0xF002C 31 1 .wo 0
def Reg.THERM_CMD.cmd_sensor : Fld := fl 0xF002C 0 6 .wo 0
def Reg.THERM_HEAD_SEL.hsel : Fld := (fl 0xF0030 0 7 .rw 0).rng (0) (79)
def Reg.THERM_HEAD.drv_value : Fld := (fl 0xF0034 16 16 .ro 0).selBy 0xF0030 0 7 80
def Reg.THERM_HEAD.np_value : Fld := (fl 0xF0034 0 16 .ro 0).selBy 0xF0030 0 7 80
def Reg.THERM_HEAD_STATE.h_state : Fld := (fl 0xF0038 30 2 .ro 3).selBy 0xF0030 0 7 80
def Reg.THERM_HEAD_STATE.d_valid : Fld := (fl 0xF0038 29 1 .ro 0).selBy 0xF0030 0 7 80
def Reg.THERM_HEAD_STATE.d_offset : Fld := (fl 0xF0038 0 16 .ro 0).selBy 0xF0030 0 7 80
def Reg.THERM_FLASH.flash_refused : Fld := fl 0xF003C 0 16 .rc 0
def Reg.THERM_TRIP.trip_count : Fld := fl 0xF0040 16 16 .ro 0
def Reg.THERM_TRIP.trip_src : Fld := fl 0xF0040 0 2 .ro 0
def Reg.THERM_SENS_NBR5.nbr_5 : Fld := (fl 0xF0044 0 6 .ro 63).selBy 0xF0018 0 6 48
/-! ### Table 15-12 (R482, spec/15_startup_update.md) -/
def Reg.BOOT_STATUS.unconfirmed : Fld := fl 0x100000 31 1 .ro 0
def Reg.BOOT_STATUS.fallback_pend : Fld := fl 0x100000 30 1 .ro 0
def Reg.BOOT_STATUS.fell_back : Fld := fl 0x100000 29 1 .w1c 0
def Reg.BOOT_STATUS.run_half : Fld := fl 0x100000 28 1 .ro 0
def Reg.BOOT_STATUS.boot_cause : Fld := fl 0x100000 24 4 .ro 1
def Reg.BOOT_STATUS.starts : Fld := fl 0x100000 0 16 .ro 0
def Reg.BOOT_PREV_VER.prev_ver : Fld := fl 0x100004 0 32 .ro 0
def Reg.BOOT_RING_LVL.ring_levels : Fld := fl 0x100008 0 24 .ro 0
def Reg.BOOT_PAIR_LVL.pair_levels : Fld := fl 0x10000C 0 24 .ro 0
def Reg.LX_RESET.warm : Fld := fl 0x100010 31 1 .wo 0
def Reg.LX_RESET.key : Fld := fl 0x100010 0 16 .wo 0
def Reg.WDOG.wdog_ms : Fld := (fl 0x100014 16 16 .rw 1000).img.rng (100) (10000)
def Reg.WDOG.wdog_fires : Fld := fl 0x100014 0 16 .ro 0
def Reg.SET_STATUS.set_busy : Fld := fl 0x100020 31 1 .ro 0
def Reg.SET_STATUS.priv_reset : Fld := fl 0x100020 30 1 .w1c 0
def Reg.SET_STATUS.settings_src : Fld := fl 0x100020 24 4 .ro 0
def Reg.SET_STATUS.set_slot : Fld := fl 0x100020 16 2 .ro 0
def Reg.SET_STATUS.set_refused : Fld := fl 0x100020 0 16 .rc 0
def Reg.SET_GEN.sgen_used : Fld := fl 0x100024 0 32 .ro 0
def Reg.SET_CMD.op : Fld := fl 0x100028 30 2 .wo 0
def Reg.SET_ADDR_LO.set_addr_lo : Fld := fl 0x10002C 0 32 .rw 0
def Reg.SET_ADDR_HI.set_addr_hi : Fld := fl 0x100030 0 32 .rw 0
def Reg.SET_RESULT.set_result : Fld := fl 0x100034 30 2 .ro 0
def Reg.UPD_STATUS.stage_state : Fld := fl 0x100040 28 4 .ro 0
def Reg.UPD_STATUS.upd_err : Fld := fl 0x100040 24 4 .ro 0
def Reg.UPD_STATUS.blocks : Fld := fl 0x100040 0 10 .ro 0
def Reg.UPD_STAGE_VER.stage_ver : Fld := fl 0x100044 0 32 .ro 0
def Reg.UPD_CMD.op : Fld := fl 0x100048 29 3 .wo 0
def Reg.UPD_CMD.ports : Fld := fl 0x100048 0 2 .wo 0
def Reg.UPD_ADDR_LO.upd_addr_lo : Fld := fl 0x10004C 0 32 .rw 0
def Reg.UPD_ADDR_HI.upd_addr_hi : Fld := fl 0x100050 0 32 .rw 0
def Reg.UPD_CONFIRM.confirm_hold : Fld := (fl 0x100054 31 1 .rw 0).img
def Reg.UPD_CONFIRM.confirm_s : Fld := (fl 0x100054 0 16 .rw 600).img.rng (60) (65535)
def Reg.UPD_CONFIRM_LEFT.confirm_left : Fld := fl 0x100058 0 16 .ro 0
def Reg.UPD_BUF.buf_base : Fld := (fl 0x10005C 0 11 .rw 1531).img
def Reg.UPD_PEER_SEL.peer_sel : Fld := (fl 0x100060 0 2 .rw 0).rng (0) (2)
def Reg.UPD_PEER.known : Fld := (fl 0x100064 31 1 .ro 0).selBy 0x100060 0 2 3
def Reg.UPD_PEER.peer_levels : Fld := (fl 0x100064 0 24 .ro 0).selBy 0x100060 0 2 3
def Reg.UPD_RATE.upd_rate : Fld := (fl 0x100068 0 12 .rw 200).img.rng (10) (2000)
/-! ### Table 16-4 (R499, spec/16_gp40_mode.md) -/
def Reg.GP_ID.gp_part : Fld := fl 0x20000000 16 16 .ro 64
def Reg.GP_ID.gp_rev : Fld := fl 0x20000000 0 16 .ro 261
def Reg.GP_CTRL.int_en : Fld := fl 0x20000004 8 1 .rw 0
def Reg.GP_CTRL.one_size : Fld := (fl 0x20000004 2 2 .rw 2).rng (1) (3)
def Reg.GP_CTRL.depth : Fld := fl 0x20000004 1 1 .rw 1
def Reg.GP_CTRL.run : Fld := fl 0x20000004 0 1 .rw 0
def Reg.GP_STATUS.ports_up : Fld := fl 0x20000008 16 16 .ro 0
def Reg.GP_STATUS.cfg_err : Fld := fl 0x20000008 4 1 .ro 0
def Reg.GP_STATUS.rescuing : Fld := fl 0x20000008 3 1 .ro 0
def Reg.GP_STATUS.dma_busy : Fld := fl 0x20000008 2 1 .ro 0
def Reg.GP_STATUS.starving : Fld := fl 0x20000008 1 1 .ro 0
def Reg.GP_STATUS.running : Fld := fl 0x20000008 0 1 .ro 0
def Reg.GP_INT_STAT.dma_error : Fld := fl 0x2000000C 4 1 .rc 0
def Reg.GP_INT_STAT.head_fault : Fld := fl 0x2000000C 3 1 .rc 0
def Reg.GP_INT_STAT.line_wrap : Fld := fl 0x2000000C 2 1 .rc 0
def Reg.GP_INT_STAT.underrun : Fld := fl 0x2000000C 1 1 .rc 0
def Reg.GP_INT_STAT.page_done : Fld := fl 0x2000000C 0 1 .rc 0
def Reg.GP_INT_EN.int_mask : Fld := fl 0x20000010 0 5 .rw 0
def Reg.GP_LINE_COUNT.line_count : Fld := fl 0x20000014 0 24 .ro 0
def Reg.GP_UNDERRUN.underrun_lines : Fld := fl 0x20000018 0 16 .rc 0
def Reg.GP_DMA_ADDR_LO.dma_addr_lo : Fld := fl 0x20000020 0 32 .rw 0
def Reg.GP_DMA_ADDR_HI.dma_addr_hi : Fld := fl 0x20000024 0 32 .rw 0
def Reg.GP_DMA_LINES.dma_lines : Fld := (fl 0x20000028 0 24 .rw 0).rng (1) (16777215)
def Reg.GP_DMA_STRIDE.stride : Fld := (fl 0x2000002C 0 20 .rw 0).rng (4) (1048572)
def Reg.GP_DMA_GO.go : Fld := fl 0x20000030 0 1 .wo 0
def Reg.GP_DMA_QFREE.qfree : Fld := fl 0x20000034 0 3 .ro 4
def Reg.GP_LINE_PITCH.gp_pitch : Fld := fl 0x20000040 0 32 .rw 90909091
def Reg.GP_PORT_CFG.port_en : Fld := (fl 0x20000100 31 1 .rw 0).arr 16 16
def Reg.GP_PORT_CFG.phase : Fld := (fl 0x20000100 24 2 .rw 0).arr 16 16
def Reg.GP_PORT_CFG.plane : Fld := (fl 0x20000100 20 4 .rw 0).arr 16 16
def Reg.GP_PORT_CFG.nozzles : Fld := (fl 0x20000100 0 16 .rw 0).arr 16 16
def Reg.GP_PORT_DELAY.delay : Fld := (fl 0x20000104 0 24 .rw 0).arr 16 16
def Reg.GP_PORT_COL.first_col : Fld := (fl 0x20000108 0 17 .rw 0).arr 16 16
def Reg.GP_PORT_TEMP.temp_valid : Fld := (fl 0x2000010C 16 1 .ro 0).arr 16 16
def Reg.GP_PORT_TEMP.port_temp : Fld := (fl 0x2000010C 0 16 .ro 0).arr 16 16
def Reg.GP_EXT.ext_sig : Fld := fl 0x20000F00 16 16 .ro 19544
def Reg.GP_EXT.bar2_open : Fld := fl 0x20000F00 1 1 .ro 0
def Reg.GP_EXT.rescue_en : Fld := fl 0x20000F00 0 1 .rw 0
def Reg.GP_UNLOCK.key : Fld := fl 0x20000F04 0 16 .wo 0
/-! ### Table 17-10 (R520, spec/17_package_electrical.md) -/
def Reg.PKG_SUPPLY_STATUS.excursion : Fld := fl 0x110000 16 10 .w1c 0
def Reg.PKG_SUPPLY_STATUS.in_range : Fld := fl 0x110000 0 10 .ro 1023
def Reg.PKG_SUPPLY_SEL.rail_sel : Fld := (fl 0x110004 0 4 .rw 0).rng (0) (9)
def Reg.PKG_SUPPLY_VAL.v_min : Fld := (fl 0x110008 16 16 .rc 65535).selBy 0x110004 0 4 10
def Reg.PKG_SUPPLY_VAL.v_now : Fld := (fl 0x110008 0 16 .ro 0).selBy 0x110004 0 4 10
def Reg.PKG_STRAP.pair_role_strap : Fld := fl 0x11000C 0 1 .ro 0
/-! ### Table 1-13 (R43, spec/01_architecture.md) -/
def Reg.MSIX.addr_lo : Fld := (fl 0xFE0000 0 32 .rw 0).arr 16 256
def Reg.MSIX.addr_hi : Fld := (fl 0xFE0004 0 32 .rw 0).arr 16 256
def Reg.MSIX.data : Fld := (fl 0xFE0008 0 32 .rw 0).arr 16 256
def Reg.MSIX.mask : Fld := (fl 0xFE000C 0 1 .rw 1).arr 16 256
def Reg.MSIX_PBA.pend : Fld := (fl 0xFF0000 0 1 .ro 0).packed 1 32 256

def regTab1_14p0 : List Fld :=
  [Reg.LX_IDENT.part, Reg.LX_IDENT.family, Reg.LX_IDENT.step_major, Reg.LX_IDENT.step_minor,
   Reg.LX_PERSONA.bar2_open, Reg.LX_PERSONA.personality, Reg.LX_FW_VER.fw_version, Reg.LX_SCRATCH.scratch]
def regTab1_15p0 : List Fld :=
  [Reg.CAT_BASE_LO.base_lo, Reg.CAT_BASE_HI.base_hi, Reg.CAT_INVALIDATE.all, Reg.CAT_INVALIDATE.channel,
   Reg.CAT_LOADED_SEL.sel, Reg.CAT_LOADED_GEN.loaded_gen, Reg.CAT_STATUS.cached, Reg.CAT_STATUS.cat_lock,
   Reg.CAT_STATUS.inv_busy, Reg.LEDGER_SNAP.snap_free, Reg.LEDGER_SNAP.ledger_mismatch, Reg.LEDGER_SNAP.snap_busy,
   Reg.LEDGER_SNAP_LINE_LO.snap_line_lo, Reg.LEDGER_SNAP_LINE_HI.snap_line_hi]
def regTab2_6p0 : List Fld :=
  [Reg.MODE_CUR.cause, Reg.MODE_CUR.shadow_of, Reg.MODE_CUR.power_busy, Reg.MODE_CUR.power,
   Reg.MODE_CUR.prev_mode, Reg.MODE_CUR.mode, Reg.POWER_CTRL.power_req, Reg.EPOCH_TIME_NS.ep_ns,
   Reg.EPOCH_TIME_SEC_LO.ep_sec_lo, Reg.EPOCH_TIME_SEC_HI.ep_sec_hi, Reg.EPOCH_CMD.go, Reg.EPOCH_CMD.cancel,
   Reg.EPOCH_CMD.system, Reg.EPOCH_CMD.target, Reg.EPOCH_STATUS.ep_target, Reg.EPOCH_STATUS.rb_cause,
   Reg.EPOCH_STATUS.late_rollback, Reg.EPOCH_STATUS.late_epoch, Reg.EPOCH_STATUS.state, Reg.EPOCH_ID.seq,
   Reg.EPOCH_ID.origin, Reg.EPOCH_TIMEOUT.epoch_timeout, Reg.EPOCH_APPLY_LINE_LO.apply_line_lo, Reg.EPOCH_APPLY_LINE_HI.apply_line_hi]
def regTab2_6p1 : List Fld :=
  [Reg.EPOCH_APPLIED_0.applied_0, Reg.EPOCH_APPLIED_1.applied_1, Reg.EPOCH_APPLIED_2.applied_2, Reg.EPOCH_APPLIED_3.applied_3,
   Reg.EPOCH_RB_NS.rb_ns, Reg.EPOCH_RB_SEC_LO.rb_sec_lo, Reg.EPOCH_RB_SEC_HI.rb_sec_hi]
def regTab3_18p0 : List Fld :=
  [Reg.SCRIBE_MAP.valid, Reg.SCRIBE_MAP.phys, Reg.SCRIBE_STATE.state, Reg.SCRIBE_COUNT.spares,
   Reg.SCRIBE_COUNT.in_service, Reg.SCRIBE_SEL.sel, Reg.SCRIBE_INFO.faults, Reg.SCRIBE_INFO.last_cause,
   Reg.SCRIBE_INFO.logical, Reg.SCRIBE_INFO.state, Reg.SCRIBE_RESTART.go, Reg.SCRIBE_RESTART.logical,
   Reg.SCHED_LATE.late_runs, Reg.SCRIBE_SUBSTS.substs]
def regTab4_17p0 : List Fld :=
  [Reg.LA_STATUS.policy_eff, Reg.LA_STATUS.zone, Reg.LA_STATUS.rw_step, Reg.LA_STATUS.queue_free,
   Reg.LA_STATUS.job_open, Reg.LA_POLICY.policy_default, Reg.LA_WM_GREEN.wm_green, Reg.LA_WM_AMBER.wm_amber,
   Reg.LA_WM_RED.wm_red, Reg.LA_LEAD_US.lead_us, Reg.LA_LEAD_LINES.lead_lines, Reg.LA_VJOB.v_job,
   Reg.LA_HORIZON.horizon, Reg.LA_THROTTLE.v_floor, Reg.LA_RW_CFG.rw_rev_speed, Reg.LA_RW_CFG.rw_dwell,
   Reg.LA_RW_CFG.rw_settle, Reg.LA_KEEPOPEN.hold_open, Reg.LA_KEEPOPEN.keepopen_after, Reg.LA_RW_LINE_LO.rw_line_lo,
   Reg.LA_RW_LINE_HI.rw_line_hi, Reg.LA_RW_COUNT.holds, Reg.LA_RW_COUNT.rewinds, Reg.LA_RW_CHECK.count_slip]
def regTab4_17p1 : List Fld :=
  [Reg.LA_RW_CHECK.index_dev, Reg.LA_STARVED.starved_lines, Reg.LA_DECODE_ERR.band_errs, Reg.LA_DECODE_ERR.line_errs,
   Reg.LA_SUBST_BASE.subst_base, Reg.LA_SUBST_PEND.pending]
def regTab5_11p0 : List Fld :=
  [Reg.FS_STATUS.slots_firing, Reg.FS_STATUS.cap_active, Reg.FS_STATUS.slots_valid, Reg.FS_FLAGS.usage_regress,
   Reg.FS_FLAGS.ack_lost, Reg.FS_FLAGS.data_late, Reg.FS_FLAGS.collided, Reg.FS_FLAGS.sos_jump,
   Reg.FS_FLAGS.sos_missing, Reg.FS_FLAGS.sos_early, Reg.FS_WEB.web_input, Reg.FS_PITCH.line_pitch,
   Reg.FS_ORIGIN_LO.origin_lo, Reg.FS_ORIGIN_HI.origin_hi, Reg.FS_SOS_CHECK.miss_mult, Reg.FS_SOS_CHECK.sos_tol,
   Reg.FS_VMIN.start_dist, Reg.FS_VMIN.v_min, Reg.FS_VCAP.v_cap, Reg.FS_DEADLINE.data_deadline,
   Reg.FS_SOS_COUNT.early, Reg.FS_SOS_COUNT.missing, Reg.FS_SKIPPED.skipped, Reg.FS_WITHHELD.wh_thermal]
def regTab5_11p1 : List Fld :=
  [Reg.FS_WITHHELD.wh_data_late, Reg.FS_RESP_MAX.resp_max, Reg.FS_LIMITS.tmax_ceil, Reg.FS_LIMITS.tmin_floor,
   Reg.FS_LIMITS.lim_lock, Reg.FS_VDRIVE_CEIL.vdrive_ceil, Reg.FS_AUTH.anchors, Reg.FS_SLOT_SEL.sel,
   Reg.FS_SLOT_STATE.link, Reg.FS_SLOT_STATE.temp_state, Reg.FS_SLOT_STATE.auth, Reg.FS_SLOT_STATE.withholding,
   Reg.FS_SLOT_STATE.keepopen, Reg.FS_SLOT_STATE.decap_lapsed, Reg.FS_SLOT_STATE.temp, Reg.FS_SLOT_USAGE_LO.usage_lo,
   Reg.FS_SLOT_USAGE_HI.usage_hi]
def regTab6_15p0 : List Fld :=
  [Reg.INSP_STATUS.grp_running, Reg.INSP_STATUS.bound, Reg.INSP_PLANE_GRP.pgrp, Reg.INSP_REL_LINE_LO.rel_line_lo,
   Reg.INSP_REL_LINE_HI.rel_line_hi, Reg.INSP_MARK_RING.mark_ring, Reg.INSP_STAT_BASE_LO.stat_base_lo, Reg.INSP_STAT_BASE_HI.stat_base_hi,
   Reg.INSP_ACC_BASE_LO.acc_base_lo, Reg.INSP_ACC_BASE_HI.acc_base_hi, Reg.INSP_INK_BASE.ink_base, Reg.INSP_PORT_SEL.port_sel,
   Reg.INSP_PORT_STATE.gear, Reg.INSP_PORT_STATE.link_up, Reg.INSP_PORT_STATE.uplink_up, Reg.INSP_PORT_STATE.retrains,
   Reg.INSP_PORT_UNBOUND.unbound_lines, Reg.INSP_PORT_ERR.crc_err, Reg.INSP_PORT_ERR.dt_unsupported, Reg.INSP_PIPE_SEL.pipe_sel,
   Reg.INSP_PIPE_BIND.pbound, Reg.INSP_PIPE_BIND.pgroup, Reg.INSP_PIPE_BIND.pport, Reg.INSP_PIPE_BIND.pvc]
def regTab6_15p1 : List Fld :=
  [Reg.INSP_PIPE_FRAME_LO.frame_lo, Reg.INSP_PIPE_FRAME_HI.frame_hi, Reg.INSP_PIPE_EXPO.expo_eff, Reg.INSP_PIPE_EXPO.expo_pend,
   Reg.INSP_PIPE_LINES.lines_lost, Reg.INSP_PIPE_LINES.lines_orphan, Reg.INSP_PIPE_DROP.fate_stale, Reg.INSP_PIPE_DROP.seg_frames,
   Reg.INSP_PIPE_DROP.stat_dropped, Reg.INSP_PIPE_GEOM_X0.geom_x0, Reg.INSP_PIPE_GEOM_QR.geom_q, Reg.INSP_PIPE_GEOM_QR.geom_rho,
   Reg.INSP_PIPE_GEOM_SUB.geom_sub, Reg.INSP_EXPO_SEL.expo_pipe, Reg.EXPO_DATA.expo_data, Reg.EXPO_GO.go,
   Reg.EXPO_RESULT_LO.expo_t_lo, Reg.EXPO_RESULT_HI.expo_t_hi, Reg.GRP_CFG.run, Reg.GRP_CFG.trig_out,
   Reg.GRP_CFG.frame_lines, Reg.GRP_PITCH.grid_pitch, Reg.GRP_ORIGIN_LO.e0_lo, Reg.GRP_ORIGIN_HI.e0_hi]
def regTab7_9p0 : List Fld :=
  [Reg.CL_CTRL.observe_only, Reg.CL_CTRL.xshift_en, Reg.CL_CTRL.recal_en, Reg.CL_CTRL.reg_en,
   Reg.CL_CTRL.dens_en, Reg.CL_CTRL.health_en, Reg.CL_CTRL.loops_run, Reg.CL_PLANE_EN.plane_en,
   Reg.CL_HEALTH_CFG.h_fail, Reg.CL_HEALTH_CFG.n_confirm, Reg.CL_HEALTH_CFG.ema_shift, Reg.CL_HEALTH_CFG.med_half,
   Reg.CL_SUBST_CFG.nb_boost, Reg.CL_SUBST_CFG.sub_margin, Reg.CL_SUBST_COUNT.retired, Reg.CL_SUBST_COUNT.no_spare,
   Reg.CL_NOZ_CMD.op, Reg.CL_NOZ_CMD.nozzle, Reg.CL_NOZ_RESULT_LO.noz_line_lo, Reg.CL_NOZ_RESULT_HI.noz_result,
   Reg.CL_NOZ_RESULT_HI.noz_line_hi, Reg.CL_DENS_CFG.dens_gain, Reg.CL_DENS_CFG.dens_step, Reg.CL_DENS_CFG.dens_min_w]
def regTab7_9p1 : List Fld :=
  [Reg.CL_DENS_COV.cov_hi, Reg.CL_DENS_COV.cov_lo, Reg.CL_DENS_COV.flat_thr, Reg.CL_CU_CTRL.swap,
   Reg.CL_CU_CTRL.cu_grp, Reg.CL_CU_CTRL.dens_plane, Reg.CL_CU_CTRL.cu_buf, Reg.CL_CU_FIRST_LO.cu_first_lo,
   Reg.CL_CU_FIRST_HI.cu_frames, Reg.CL_CU_FIRST_HI.cu_first_hi, Reg.CL_CU_BASE.cu_base, Reg.CL_REG_CFG.reg_gain,
   Reg.CL_REG_CFG.reg_step, Reg.CL_REG_CFG.reg_frames, Reg.CL_REG_CFG.reg_ref_plane, Reg.CL_REG_TEX.reg_min_tex,
   Reg.CL_XSHIFT.xs_plane, Reg.CL_XSHIFT.xs_applied, Reg.CL_XSHIFT.xs_staged, Reg.CL_RECAL_CFG.recal_max_s,
   Reg.CL_RECAL_CFG.recal_min_s, Reg.CL_RECAL_CFG.dtemp, Reg.CL_RECAL_REQ.go, Reg.CL_RECAL_REQ.uclass]
def regTab7_9p2 : List Fld :=
  [Reg.CL_RECAL_REQ.unit, Reg.CL_RECAL_STATUS.busy, Reg.CL_RECAL_STATUS.deferred, Reg.CL_RECAL_STATUS.xref_fault,
   Reg.CL_RECAL_STATUS.recal_runs, Reg.CL_Q_SEL.q_class, Reg.CL_Q_SEL.q_index, Reg.CL_Q_A.q_a,
   Reg.CL_Q_B.q_b, Reg.CL_Q_AGE.q_age, Reg.CL_Q_LIMITS.eye_w_min, Reg.CL_Q_LIMITS.eye_h_min,
   Reg.CL_Q_LIMITS.amp_res_max, Reg.CL_Q_LIMITS.swap_tol, Reg.CL_HEALTH_BASE_LO.hb_lo, Reg.CL_HEALTH_BASE_HI.hb_hi]
def regTab8_13p0 : List Fld :=
  [Reg.MOT_STATUS.homed_map, Reg.MOT_STATUS.moving_map, Reg.MOT_FAULT.axis_fault, Reg.MOT_AXIS_SEL.axis_sel,
   Reg.MOT_CMD.op, Reg.MOT_TARGET_LO.target_lo, Reg.MOT_TARGET_HI.target_hi, Reg.MOT_SPEED.speed,
   Reg.MOT_AX_STATE.ax_state, Reg.MOT_AX_STATE.home_step, Reg.MOT_AX_STATE.decel_kept, Reg.MOT_AX_STATE.hold_reduced,
   Reg.MOT_AX_STATE.homed, Reg.MOT_AX_STATE.overshoot, Reg.MOT_AX_STATE.limit_hit, Reg.MOT_AX_STATE.home_failed,
   Reg.MOT_AX_STATE.drive_fault, Reg.MOT_AX_STATE.drv_code, Reg.MOT_AX_POS_LO.pos_lo, Reg.MOT_AX_POS_HI.pos_hi,
   Reg.MOT_AX_VEL.vel, Reg.MOT_AX_LATCH_LO.latch_lo, Reg.MOT_AX_LATCH_HI.latch_hi, Reg.MOT_AX_DRV_POS.drv_pos]
def regTab8_13p1 : List Fld :=
  [Reg.MOT_AX_DRV_CUR.drv_cur, Reg.FB_SEL.fb_sel, Reg.FB_STATE.enc_fault, Reg.FB_STATE.amp_fault,
   Reg.FB_STATE.qerr_sticky, Reg.FB_STATE.ssi_err, Reg.FB_POS_LO.fpos_lo, Reg.FB_POS_HI.fpos_hi,
   Reg.FB_COUNT.count, Reg.FB_REV.rev, Reg.FB_SPEED.fspeed, Reg.FB_QERR.qerr,
   Reg.FB_IDX_COUNT.idx_count, Reg.FB_IDX_N.idx_n, Reg.EMU_SEL.emu_sel, Reg.EMU_STATE.emu_running,
   Reg.EMU_STATE.emu_overrun, Reg.EMU_STATE.backlog, Reg.DL_STATE.dl_link, Reg.DL_STATE.drives_seen,
   Reg.DL_STATE.fresh_map, Reg.DL_ERR.crc_err, Reg.DL_ERR.trig_err]
def regTab9_11p0 : List Fld :=
  [Reg.TIME_NOW_SUB.now_sub, Reg.TIME_NOW_NS.now_ns, Reg.TIME_NOW_SEC_LO.now_sec_lo, Reg.TIME_NOW_SEC_HI.now_sec_hi,
   Reg.TIME_STATE.lock_state, Reg.TIME_STATE.traced, Reg.TIME_STATE.gm_self, Reg.TIME_STATE.slave_port,
   Reg.TIME_STATE.hold_s, Reg.TIME_OFFSET.offset, Reg.TIME_RATE.rate, Reg.TIME_MPD.mean_path,
   Reg.TIME_PTP_CFG.domain, Reg.TIME_PTP_CFG.log_sync, Reg.TIME_PTP_CFG.log_dreq, Reg.TIME_PTP_CFG.log_ann,
   Reg.TIME_PTP_CFG.ann_timeout, Reg.TIME_PTP_CFG.ptp_role, Reg.TIME_GM_CFG.priority1, Reg.TIME_GM_CFG.priority2,
   Reg.TIME_GM_CFG.clock_class, Reg.TIME_GM_CFG.clock_acc, Reg.TIME_SERVO.lock_thr, Reg.TIME_SERVO.slew_max]
def regTab9_11p1 : List Fld :=
  [Reg.TIME_STEP_THR.step_thr, Reg.TIME_TRACE.trace_hold_s, Reg.TIME_TRACE.steps, Reg.TIME_SET_NS.set_ns,
   Reg.TIME_SET_SEC_LO.set_sec_lo, Reg.TIME_SET_SEC_HI.set_sec_hi, Reg.TIME_SET_CMD.go, Reg.TIME_SET_CMD.at_pps,
   Reg.TIME_PPS.pps_in_en, Reg.TIME_PPS.pps_out_en, Reg.TIME_PPS.pps_lock, Reg.TIME_PPS.pps_width,
   Reg.TIME_GM_ID_LO.gm_id_lo, Reg.TIME_GM_ID_HI.gm_id_hi, Reg.TIME_CAP_SEL.cap_sel, Reg.TIME_CAP_SUB.cap_sub,
   Reg.TIME_CAP_NS.cap_ns, Reg.TIME_CAP_SEC_LO.cap_sec_lo, Reg.TIME_CAP_SEC_HI.cap_sec_hi, Reg.TIME_CAP_N.cap_n,
   Reg.TRIG_SEL.trig_sel, Reg.TRIG_STATE.armed, Reg.TRIG_STATE.late_loads, Reg.TRIG_STATE.missed]
def regTab9_11p2 : List Fld :=
  [Reg.TRIG_FIRINGS.firings, Reg.RING_NODE.node_dup, Reg.RING_NODE.ring_loop, Reg.RING_NODE.learned,
   Reg.RING_NODE.node, Reg.RING_CFG.cfg_lock, Reg.RING_CFG.ring_no, Reg.RING_CFG.ethertype,
   Reg.RING_PORT_STATE.rlink, Reg.RING_PORT_STATE.partner_lx, Reg.RING_PORT_STATE.fec_on, Reg.RING_PORT_STATE.partner_node,
   Reg.RING_PORT_ERR.fcs_err, Reg.RING_PORT_ERR.foreign, Reg.RING_DISC.dup_disc, Reg.RING_DISC.hop_disc,
   Reg.RING_MAC_LO.mac_lo, Reg.RING_MAC_HI.mac_hi]
def regTab10_9p0 : List Fld :=
  [Reg.MEM_STATUS.snap_valid, Reg.MEM_STATUS.frozen, Reg.MEM_STATUS.rep_full, Reg.MEM_STATUS.hot,
   Reg.MEM_STATUS.trained, Reg.MEM_NRR.nrr_dist, Reg.MEM_NRR.nrr_log2, Reg.MEM_SCRUB.scrub_shadow_h,
   Reg.MEM_SCRUB.scrub_h, Reg.MEM_SCRUB.scrub_pass, Reg.MEM_ECC.ecc_die, Reg.MEM_ECC.ecc_corr,
   Reg.MEM_REPAIR.rep_thr, Reg.MEM_REPAIR.lanes_remapped, Reg.MEM_REPAIR.rows_repaired, Reg.MEM_MARGIN_CFG.margin_min,
   Reg.MEM_PC_SEL.pc_sel, Reg.MEM_PC_MARGIN.rd_margin, Reg.MEM_PC_MARGIN.wr_margin, Reg.MEM_PC_MARGIN.pc_temp,
   Reg.MEM_PORT_CFG.target_ns, Reg.MEM_PORT_CFG.rate_gbs, Reg.MEM_PORT_STAT.urgency, Reg.MEM_PORT_STAT.late]
def regTab10_9p1 : List Fld :=
  [Reg.MEM_RR_STATUS.horizon_eff, Reg.MEM_RR_STATUS.rr_corr, Reg.MEM_RR_STATUS.rr_retired, Reg.MEM_RR_STATUS.rr_spares,
   Reg.MEM_RR_CFG.rr_rot_s]
def regTab11_9p0 : List Fld :=
  [Reg.BND_STATUS.suspect, Reg.BND_STATUS.busy, Reg.BND_SEL.unit_sel, Reg.BND_STREAM.stream_open,
   Reg.BND_STREAM.ring, Reg.BND_STREAM.s_op, Reg.BND_STREAM.s_wrap, Reg.BND_STREAM.s_effort,
   Reg.BND_IN_BYTES.in_bytes, Reg.BND_OUT_BYTES.out_bytes, Reg.BND_VERIFY.verify_fb, Reg.BND_VERIFY.abandoned,
   Reg.BND_ERR.data_err, Reg.BND_ERR.job_err]
def regTab12_8p0 : List Fld :=
  [Reg.LANE_STATUS.twin_up, Reg.LANE_STATUS.hl_spares, Reg.LANE_STATUS.hl_retired, Reg.LANE_MAP.moved,
   Reg.LANE_MAP.phys, Reg.LANE_CMD.op, Reg.LANE_CMD.lane, Reg.LANE_CMD_RESULT.cmd_result,
   Reg.LANE_SEL.lsel, Reg.LANE_STATE.lstate, Reg.LANE_STATE.block_lock, Reg.LANE_STATE.cdr_lock,
   Reg.LANE_STATE.loop, Reg.LANE_STATE.ctle, Reg.LANE_STATE.pad, Reg.LANE_STATE.restarts,
   Reg.LANE_DFE.tap, Reg.LANE_ERR.hdr_err, Reg.LANE_ERR.os_err, Reg.LANE_ERR.lock_loss,
   Reg.LANE_FRAME_ERR.frame_err, Reg.LANE_FRAME_ERR.switch_err, Reg.PRBS_CTRL.gen_en, Reg.PRBS_CTRL.chk_en]
def regTab12_8p1 : List Fld :=
  [Reg.PRBS_CTRL.pattern, Reg.PRBS_CTRL.inv, Reg.PRBS_CTRL.inj_once, Reg.PRBS_CTRL.chk_sync,
   Reg.PRBS_CTRL.inj_period, Reg.PRBS_ERR.prbs_err, Reg.PRBS_BITS_LO.bits_lo, Reg.PRBS_BITS_HI.bits_hi,
   Reg.LANE_LOOP.loop_req]
def regTab13_9p0 : List Fld :=
  [Reg.PAIR_STATUS.role_now, Reg.PAIR_STATUS.primary, Reg.PAIR_STATUS.partner_seen, Reg.PAIR_STATUS.in_sync,
   Reg.PAIR_STATUS.partner_fit, Reg.PAIR_STATUS.self_fit, Reg.PAIR_STATUS.twin_lost, Reg.PAIR_STATUS.role_clash,
   Reg.PAIR_STATUS.pipe_degraded, Reg.PAIR_STATUS.switchovers, Reg.PAIR_STATUS.partner_mode, Reg.PAIR_CFG.pair_en,
   Reg.PAIR_CFG.revertive, Reg.PAIR_CFG.pipe_spare_en, Reg.PAIR_CFG.wtr_s, Reg.PAIR_CMD.op,
   Reg.PAIR_WTR.wtr_left, Reg.PAIR_SYNC.resyncs, Reg.PAIR_SYNC.backlog_kib, Reg.PAIR_TWIN.rec_retx,
   Reg.PAIR_TWIN.hb_miss, Reg.PAIR_HEALTH_SELF.hs, Reg.PAIR_HEALTH_PARTNER.hp, Reg.PAIR_MIR_BASE.mir_base]
def regTab13_9p1 : List Fld :=
  [Reg.PAIR_MIR_SIZE.mir_size, Reg.PAIR_SLOT_SEL.pslot, Reg.PAIR_SLOT_SHADOW.shadow_lines, Reg.PAIR_HANDOVER_LO.ns_lo,
   Reg.PAIR_HANDOVER_HI.ns_hi, Reg.PAIR_REPORT_BASE_LO.rep_lo, Reg.PAIR_REPORT_BASE_HI.rep_hi]
def regTab14_8p0 : List Fld :=
  [Reg.THERM_STATUS.tj_sensor, Reg.THERM_STATUS.flash_ok, Reg.THERM_STATUS.sens_degraded, Reg.THERM_STATUS.die_state,
   Reg.THERM_STATUS.tj, Reg.THERM_TJ_PEAK.tj_min, Reg.THERM_TJ_PEAK.tj_peak, Reg.THERM_LIMITS.tlim_lock,
   Reg.THERM_LIMITS.t_hyst_die, Reg.THERM_LIMITS.tj_limit, Reg.THERM_LIMITS.tj_warn, Reg.THERM_HBM_LIMITS.hbm_limit,
   Reg.THERM_HBM_LIMITS.hbm_warn, Reg.THERM_HBM_TEMP.stack1, Reg.THERM_HBM_TEMP.stack0, Reg.THERM_XCHECK.xcount,
   Reg.THERM_XCHECK.xdev, Reg.THERM_SENS_SEL.sens_sel, Reg.THERM_SENS.s_state, Reg.THERM_SENS.s_value,
   Reg.THERM_SENS_RAW.s_offset, Reg.THERM_SENS_RAW.s_raw, Reg.THERM_SENS_NBR.nbr, Reg.THERM_SUBST.n_invalid]
def regTab14_8p1 : List Fld :=
  [Reg.THERM_SUBST.n_subst, Reg.THERM_CMD.restore, Reg.THERM_CMD.cmd_sensor, Reg.THERM_HEAD_SEL.hsel,
   Reg.THERM_HEAD.drv_value, Reg.THERM_HEAD.np_value, Reg.THERM_HEAD_STATE.h_state, Reg.THERM_HEAD_STATE.d_valid,
   Reg.THERM_HEAD_STATE.d_offset, Reg.THERM_FLASH.flash_refused, Reg.THERM_TRIP.trip_count, Reg.THERM_TRIP.trip_src,
   Reg.THERM_SENS_NBR5.nbr_5]
def regTab15_12p0 : List Fld :=
  [Reg.BOOT_STATUS.unconfirmed, Reg.BOOT_STATUS.fallback_pend, Reg.BOOT_STATUS.fell_back, Reg.BOOT_STATUS.run_half,
   Reg.BOOT_STATUS.boot_cause, Reg.BOOT_STATUS.starts, Reg.BOOT_PREV_VER.prev_ver, Reg.BOOT_RING_LVL.ring_levels,
   Reg.BOOT_PAIR_LVL.pair_levels, Reg.LX_RESET.warm, Reg.LX_RESET.key, Reg.WDOG.wdog_ms,
   Reg.WDOG.wdog_fires, Reg.SET_STATUS.set_busy, Reg.SET_STATUS.priv_reset, Reg.SET_STATUS.settings_src,
   Reg.SET_STATUS.set_slot, Reg.SET_STATUS.set_refused, Reg.SET_GEN.sgen_used, Reg.SET_CMD.op,
   Reg.SET_ADDR_LO.set_addr_lo, Reg.SET_ADDR_HI.set_addr_hi, Reg.SET_RESULT.set_result, Reg.UPD_STATUS.stage_state]
def regTab15_12p1 : List Fld :=
  [Reg.UPD_STATUS.upd_err, Reg.UPD_STATUS.blocks, Reg.UPD_STAGE_VER.stage_ver, Reg.UPD_CMD.op,
   Reg.UPD_CMD.ports, Reg.UPD_ADDR_LO.upd_addr_lo, Reg.UPD_ADDR_HI.upd_addr_hi, Reg.UPD_CONFIRM.confirm_hold,
   Reg.UPD_CONFIRM.confirm_s, Reg.UPD_CONFIRM_LEFT.confirm_left, Reg.UPD_BUF.buf_base, Reg.UPD_PEER_SEL.peer_sel,
   Reg.UPD_PEER.known, Reg.UPD_PEER.peer_levels, Reg.UPD_RATE.upd_rate]
def regTab16_4p0 : List Fld :=
  [Reg.GP_ID.gp_part, Reg.GP_ID.gp_rev, Reg.GP_CTRL.int_en, Reg.GP_CTRL.one_size,
   Reg.GP_CTRL.depth, Reg.GP_CTRL.run, Reg.GP_STATUS.ports_up, Reg.GP_STATUS.cfg_err,
   Reg.GP_STATUS.rescuing, Reg.GP_STATUS.dma_busy, Reg.GP_STATUS.starving, Reg.GP_STATUS.running,
   Reg.GP_INT_STAT.dma_error, Reg.GP_INT_STAT.head_fault, Reg.GP_INT_STAT.line_wrap, Reg.GP_INT_STAT.underrun,
   Reg.GP_INT_STAT.page_done, Reg.GP_INT_EN.int_mask, Reg.GP_LINE_COUNT.line_count, Reg.GP_UNDERRUN.underrun_lines,
   Reg.GP_DMA_ADDR_LO.dma_addr_lo, Reg.GP_DMA_ADDR_HI.dma_addr_hi, Reg.GP_DMA_LINES.dma_lines, Reg.GP_DMA_STRIDE.stride]
def regTab16_4p1 : List Fld :=
  [Reg.GP_DMA_GO.go, Reg.GP_DMA_QFREE.qfree, Reg.GP_LINE_PITCH.gp_pitch, Reg.GP_PORT_CFG.port_en,
   Reg.GP_PORT_CFG.phase, Reg.GP_PORT_CFG.plane, Reg.GP_PORT_CFG.nozzles, Reg.GP_PORT_DELAY.delay,
   Reg.GP_PORT_COL.first_col, Reg.GP_PORT_TEMP.temp_valid, Reg.GP_PORT_TEMP.port_temp, Reg.GP_EXT.ext_sig,
   Reg.GP_EXT.bar2_open, Reg.GP_EXT.rescue_en, Reg.GP_UNLOCK.key]
def regTab17_10p0 : List Fld :=
  [Reg.PKG_SUPPLY_STATUS.excursion, Reg.PKG_SUPPLY_STATUS.in_range, Reg.PKG_SUPPLY_SEL.rail_sel, Reg.PKG_SUPPLY_VAL.v_min,
   Reg.PKG_SUPPLY_VAL.v_now, Reg.PKG_STRAP.pair_role_strap]
def regTab1_13p0 : List Fld :=
  [Reg.MSIX.addr_lo, Reg.MSIX.addr_hi, Reg.MSIX.data, Reg.MSIX.mask,
   Reg.MSIX_PBA.pend]
/-- Every field of every register map, in the order of the manual. -/
def regTable : List Fld :=
  regTab1_14p0 ++ regTab1_15p0 ++ regTab2_6p0 ++ regTab2_6p1 ++
  regTab3_18p0 ++ regTab4_17p0 ++ regTab4_17p1 ++ regTab5_11p0 ++
  regTab5_11p1 ++ regTab6_15p0 ++ regTab6_15p1 ++ regTab7_9p0 ++
  regTab7_9p1 ++ regTab7_9p2 ++ regTab8_13p0 ++ regTab8_13p1 ++
  regTab9_11p0 ++ regTab9_11p1 ++ regTab9_11p2 ++ regTab10_9p0 ++
  regTab10_9p1 ++ regTab11_9p0 ++ regTab12_8p0 ++ regTab12_8p1 ++
  regTab13_9p0 ++ regTab13_9p1 ++ regTab14_8p0 ++ regTab14_8p1 ++
  regTab15_12p0 ++ regTab15_12p1 ++ regTab16_4p0 ++ regTab16_4p1 ++
  regTab17_10p0 ++ regTab1_13p0

end Sys2Proof.Machine
end

