-- ==== Sys2Proof/Machine/State.lean ====
section
/-! DEFINITION. The state of the block, the reasons a command can stop, and the state after power-on.
Register fields live in one table (`regs`), every copy of every field under its own key; what the manual gives the device beside its
registers is held in one structure per unit. Instants are in units of 2⁻¹⁶ ns of a clock that counts from power-on. -/

namespace Sys2Proof.Machine

/-- Why a command stops the machine. -/
inductive Fault where
  /-- Raised by a command that names an engine other than the sixteen Scribes and the Registrar: no such agent exists. Safe. -/
  | noSuchEngine
  deriving DecidableEq, Repr

/-- Why the model gives a command no meaning. -/
inductive Refusal where
  /-- Raised by an arm of `exec` whose meaning is not written yet. Safe. -/
  | notModelled (mnemonic : String)
  deriving DecidableEq, Repr

/-- Output balls (Table 17-1). -/
inductive Ball where
  | tripN | apActN | ppsOut | hlSwLat
  deriving DecidableEq, Repr

/-- A command of the Stacks controller on a pseudo-channel (R344, R351, R352): bank is 16 × SID + bank; `close` is auto-precharge. -/
inductive HbmCmd where
  | activate (bank row : Nat)
  | access (bank row burst : Nat) (write close : Bool)
  | precharge (bank : Nat)
  | refresh (bank : Nat)
  | neighbour (bank row : Nat)
  deriving DecidableEq, Repr

/-- Something the device sends, raises or drives. -/
inductive Emit where
  /-- an MSI-X message (R34) -/
  | msix (vector : Nat)
  /-- the value a register read answers (R41) -/
  | readData (src value : Nat)
  /-- the GP-40's own interrupt: the MSI vector, or MSI-X vector 6 (R495) -/
  | gpInterrupt
  /-- an ordered set on a lane: its 64-bit control block, check byte included (R188) -/
  | orderedSet (lane word : Nat)
  /-- the fire strobe of the GP-40 head-port protocol on a lane, or its null strobe (R488) -/
  | strobe (lane : Nat) (fires : Bool)
  /-- the data of a Stacks read as it leaves the controller for a port (R348) -/
  | memRead (port : Nat) (data : List Byte)
  /-- a command on a pseudo-channel of the Stacks (R344) -/
  | hbm (pc : Nat) (cmd : HbmCmd)
  /-- a frame on a head lane: trailer bits [55:32] and its 256 bytes (R186, R187); the check is over both -/
  | frame (lane trailer : Nat) (data : List Byte) (crc : Nat)
  /-- a ring frame out of a ring port, 0 East, 1 West, as its bytes (Table 9-6), check sequence last -/
  | ringFrame (port : Nat) (bytes : List Byte)
  /-- a PTP message out of a ring port: type, sequence, its time as the wire carries it, bits [95:16] of a timestamp (R14), and its correction in 2⁻¹⁶ ns (R313) -/
  | ptp (port kind seq time : Nat) (correction : Int)
  /-- an Announce message out of a ring port: sequence; priority 1, class, accuracy, variance, priority 2, grandmaster (R313) -/
  | announce (port seq : Nat) (dataset : List Nat)
  /-- a Drive Link frame: characters 1 to 140 (Table 8-3) -/
  | driveFrame (port : Nat) (bytes : List Byte)
  /-- an edge of an emulator output: levels of A, B and Z (R302) -/
  | emuEdge (output : Nat) (a b z : Bool)
  /-- the 192 bits shifted to the lane switches (R394) -/
  | laneShift (word : Nat)
  /-- one PRBS bit sent inverted on a lane (R402) -/
  | prbsError (lane : Nat)
  /-- an ordered set on a twin lane: its 64-bit control block (Table 13-1) -/
  | twinSet (lane word : Nat)
  /-- a record on a twin lane, with its sequence number and its bytes: header, body and CRC-32 (R411) -/
  | twinRecord (lane seq : Nat) (rec : TwinRec) (bytes : List Byte)
  /-- a camera register written over a port's uplink (R236): port, camera address, register, value -/
  | cci (port addr reg value : Nat)
  /-- a level on a ball that the manual names -/
  | ball (name : Ball) (level : Bool)
  deriving DecidableEq, Repr

/-- A ring's two indices and what its consumer holds (R31, Table 1-10). -/
structure Ring where
  prod : Nat
  cons : Nat
  /-- descriptors popped and not completed, oldest first: index and the agent that popped it -/
  flight : List (Nat × Nat)
  /-- instant of the last MSI-X message of the ring's vector -/
  lastMsi : Option Nat
  /-- a signalling event fell within the holdoff -/
  held : Bool
  deriving DecidableEq, Repr

def Ring.reset : Ring := { prod := 0, cons := 0, flight := [], lastMsi := none, held := false }

/-- An event not yet posted (R523). -/
structure Event where
  code : Nat
  chan : Nat
  line : Nat
  evA : Nat
  evB : Nat
  time : Nat
  deriving DecidableEq, Repr

/-- The Catalog cache: entries in effect, entries loaded that wait for their unit's boundary, and fetches outstanding
(R24 to R28). -/
structure Catalog where
  /-- the entry in effect of a channel, 128 bytes -/
  inEffect : Tbl (List Byte)
  /-- the entry loaded after it, applied at the unit's next boundary -/
  loaded : Tbl (List Byte)
  /-- fetches asked for: 1 one fetch, 2 one more after it -/
  fetches : Tbl Nat
  /-- where a twin record names it: the line, frame or servo period from which a loaded entry applies (R414) -/
  since : Tbl Nat
  deriving DecidableEq, Repr

def Catalog.reset : Catalog := { inEffect := [], loaded := [], fetches := [], since := [] }

/-- The Ledger: live counters keyed by their offset in the window of Table 1-11, the latest snapshot and one in progress. -/
structure Ledger where
  live : Tbl Nat
  snap : Tbl Nat
  /-- instant of the write that asked for the snapshot in progress -/
  asked : Option Nat
  /-- the snapshot in progress, once its instant has passed: counters, line number, whether at no line boundary -/
  taken : Option (Tbl Nat × Nat × Bool)
  /-- sequence numbers: started, complete -/
  seqStarted : Nat
  seqDone : Nat
  /-- the snapshot FREEZE keeps (R37) -/
  final : Option (Tbl Nat × Nat)
  /-- lines of the last job closed whose reference-row start-of-scan had passed (R38) -/
  passed : Nat
  deriving DecidableEq, Repr

def Ledger.reset : Ledger :=
  { live := [], snap := [], asked := none, taken := none, seqStarted := 0, seqDone := 0, final := none, passed := 0 }

/-- Modes beside their registers: local transitions waiting for the next boundary (R50), and the outstanding epoch. -/
structure Modes where
  /-- target mode, cause and, where a rule fixes it, the line of effect, in the order requested -/
  pending : List (Nat × Nat × Option Nat)
  /-- the outstanding epoch applies at, times out at, rolls back at: device time, 2⁻¹⁶ ns -/
  epInstant : Nat
  epDeadline : Nat
  rbInstant : Nat
  /-- bits of EPOCH_APPLIED -/
  applied : Nat
  /-- units that returned to the previous mode in a rollback -/
  returned : Nat
  system : Bool
  /-- the epoch instant has passed and its check held; the rollback epoch has passed -/
  started : Bool
  rbReached : Bool
  /-- the mode before the epoch -/
  before : Nat
  /-- sequence of the epochs this device originates (R60) -/
  mySeq : Nat
  /-- a power state change in progress ends in this state; another is to follow (R55) -/
  powerTo : Nat
  powerAgain : Bool
  /-- tripped: no clock outside the always-on island (R49) -/
  tripped : Bool
  /-- the mode of the head slots by line, newest first: from this line on, this mode (R50, R57) -/
  lines : List (Nat × Nat)
  /-- the active device's mode as last heard in TWIN_HB (R61) -/
  heard : Nat
  /-- the die reached its limit and has not returned to normal (R442) -/
  dieForbids : Bool
  /-- SERVICE or CALIBRATE ends for IDLE once this line is reached (R441) -/
  idleAfter : Option Nat
  /-- the die limit sent the device out of a pair: a warm reset follows when it cools (R444) -/
  coolReset : Bool
  deriving DecidableEq, Repr

def Modes.reset : Modes :=
  { pending := [], epInstant := 0, epDeadline := 0, rbInstant := 0, applied := 0, returned := 0, system := false,
    started := false, rbReached := false, before := 0, mySeq := 0, powerTo := 0, powerAgain := false, tripped := false,
    lines := [], heard := 0, dieForbids := false, idleAfter := none, coolReset := false }

/-- Why a slice that is not runnable waits (R98, R115, Table 3-7). -/
inductive Wait where
  | none
  | time (ns : Nat)
  | sync (barrier gen : Nat)
  deriving DecidableEq, Repr

/-- A slice as the dispatcher sees it; its table entry and context lie in the Carrel (R114 to R118). -/
structure Slice where
  /-- instant since which it is runnable -/
  since : Option Nat
  /-- runnable only while its ring is non-empty (R115) -/
  level : Bool
  /-- one further run is pending (R116) -/
  again : Bool
  wait : Wait
  /-- urgency 0 to 3 as last raised (R117) -/
  urgency : Nat
  deriving DecidableEq, Repr

def Slice.reset : Slice := { since := none, level := false, again := false, wait := .none, urgency := 0 }

/-- A Folio engine: a physical Scribe, or the Registrar (R76, R79). -/
structure Engine where
  g : Tbl Word
  v : Tbl VWord
  pc : Nat
  /-- the slice running -/
  running : Option Nat
  /-- core cycles counted, ×10, up to the instant `startAt` from which the engine runs at its present clock (Table 3-8) -/
  cycles : Nat
  startAt : Nat
  /-- instants: the running slice became runnable; the run began -/
  readyAt : Nat
  runAt : Nat
  slices : Tbl Slice
  /-- faults so far, and the instants of the latest ones (R112, R123) -/
  faults : Nat
  faultTimes : List Nat
  /-- dispatch stops at the end of the current run (SYS.HALT, R123) -/
  halted : Bool
  /-- the spare that takes over, and why: 1 fault limit, 2 fault 0x04, 3 test slice (Table 1-17, 0x0103) -/
  leaving : Option (Nat × Nat)
  /-- Registrar windows CSR_WINB_n and CSR_WINS_n (Table 3-8) -/
  winb : Tbl Nat
  wins : Tbl Nat
  /-- 64-bit words of the local memory whose error is uncorrectable, by offset / 8 (R81) -/
  bad : List Nat
  /-- it was retired with no spare: its logical Scribe is out of service (R124) -/
  lost : Bool
  deriving DecidableEq, Repr

def Engine.reset : Engine :=
  { g := [], v := [], pc := 0, running := none, cycles := 0, startAt := 0, readyAt := 0, runAt := 0, slices := [], faults := 0,
    faultTimes := [], halted := false, leaving := none, winb := [], wins := [], bad := [], lost := false }

/-- A barrier (R104). -/
structure Barrier where
  participants : Nat
  count : Nat
  gen : Nat
  deriving DecidableEq, Repr

def Barrier.reset : Barrier := { participants := 0, count := 0, gen := 0 }

/-- A queued page (Table 4-2), its lines numbered from the first line of the first of the jobs queued together. -/
structure Page where
  addr : Nat
  first : Nat
  lines : Nat
  /-- line 0 of the page's job -/
  base : Nat
  planes : Nat
  bandLines : Nat
  bandTable : Nat
  bands : Nat
  job : Nat
  page : Nat
  /-- which of the jobs since the last cold start or warm reset -/
  jobIdx : Nat
  jobEnd : Bool
  /-- `ready_bands` as last read, never lower (R136) -/
  ready : Nat
  /-- mark word (R243) -/
  mark : Nat
  deriving DecidableEq, Repr

/-- An open job, or one queued behind it (R134, R135): its number since the last reset, identifier, line 0 on the continuing line
count, policy (R157), and the line after its last once its `job_end` page is queued. -/
structure Job where
  idx : Nat
  id : Nat
  base : Nat
  policy : Nat
  ended : Option Nat
  /-- the planes of its pages queued so far -/
  planes : Nat
  deriving DecidableEq, Repr

/-- A pending substitution change (R150). -/
structure SubstChange where
  isSet : Bool
  plane : Nat
  col : Nat
  /-- spare row of the plane, 0 or 1 -/
  spare : Nat
  /-- row record index of the print row served -/
  row : Nat
  line : Nat
  deriving DecidableEq, Repr

/-- The Line Assembler beside its registers and the maps it keeps in the Reading Room. -/
structure Raster where
  pages : List Page
  /-- pages fired and not yet released (R230) -/
  fired : List Page
  /-- lines below this one are accepted or were gaps (R145) -/
  accepted : Nat
  /-- the line after the last page queued, and the same line as its job numbers it (Table 3-7) -/
  endLine : Nat
  lastEnd : Nat
  /-- the page number of the last page queued (Table 13-5) -/
  lastPage : Nat
  /-- open jobs, the current one first; jobs opened since the last cold start or warm reset; mark words of pages fired -/
  jobs : List Job
  jobCount : Nat
  /-- per row (6 × plane + row record): the line after the last one decoded -/
  rowDone : Tbl Nat
  /-- lines starved and not yet accepted (R159) -/
  starved : List Nat
  /-- row, line, drops moved to it -/
  moved : List (Nat × Nat × Nat)
  /-- per row: the band, plus 1, whose fault is already counted (R141) -/
  bandSeen : Tbl Nat
  changes : List SubstChange
  /-- changes committed, oldest first, with the map entry before each: lines not yet released are drawn as they were fired (R228) -/
  past : List (SubstChange × Nat)
  /-- jobs closed, oldest first, until their lines are released; per plane, the line of the continuing count from which the entry's bank
  applies whatever its `bank_line` says: a change pending as its job closed (R265) -/
  closed : List Job
  bankFrom : Tbl Nat
  /-- per retired nozzle: the line from which its last change took effect (Table 3-9) -/
  effLine : Tbl Nat
  /-- the line from which no slot charges: S + 1 of REWIND, HOLD and ORDERLY_STOP (R160, R197) -/
  stopFrom : Option Nat
  /-- lines held beyond `stopFrom` are withheld at standstill and the job closes (R197, policy 1) -/
  stopCloses : Bool
  /-- an ORDERLY_STOP in progress: 1 lines up to the stop line still fire, 2 axis 0 stops, 3 capping -/
  stopStage : Nat
  /-- the pages from the stop line on are suspect (R163) -/
  slip : Bool
  /-- instants: the dwell of `rw_step` 3 or 5 ends; HOLD began -/
  dwellUntil : Nat
  holdAt : Nat
  /-- the back-up distance of R162 and the index position before the stop (R163) -/
  backUp : Int
  indexBefore : Option Int
  /-- intake rings with a copy in progress -/
  copying : Tbl Nat
  /-- v_job in effect until the next servo period of axis 0 after a write while printing, mm/s; none where LA_VJOB is in effect (R154) -/
  vJob : Option Nat
  /-- S + 1 while the rows resume at it (Table 4-14, step 8) -/
  resumeAt : Nat
  deriving DecidableEq, Repr

def Raster.reset : Raster :=
  { pages := [], fired := [], accepted := 0, endLine := 0, lastEnd := 0, lastPage := 0, jobs := [], jobCount := 0, rowDone := [], starved := [], moved := [],
    bandSeen := [], changes := [], past := [], closed := [], bankFrom := [], effLine := [], stopFrom := none, stopCloses := false, stopStage := 0, slip := false, dwellUntil := 0,
    holdAt := 0, backUp := 0, indexBefore := none, copying := [], vJob := none, resumeAt := 0 }

/-- A slot's part of a line, decoded and held (R146, R176, R184). -/
structure Part where
  line : Nat
  /-- withheld at decode for a band fault (Table 4-15) -/
  fault : Bool
  /-- its line is decoded; before that, a place held for a line whose start-of-scan has passed -/
  decoded : Bool
  /-- the slot's row is a spare row -/
  spare : Bool
  plane : Nat
  jobIdx : Nat
  /-- drop values by local nozzle -/
  px : List Nat
  drops : Nat
  /-- frames sent, and frames to send again -/
  sent : Nat
  resend : List Nat
  /-- LINE_OK came -/
  complete : Bool
  /-- its row FIFO was read with an uncorrectable error: it is withheld at its start-of-scan (R366) -/
  bad : Bool
  /-- instant of the start-of-scan that awaits the data -/
  sosAt : Option Nat
  /-- how long its release waits for its data, ns (R178, R396) -/
  limit : Nat
  /-- instant of RELEASE with FIRE, while no REL_ACK came -/
  released : Option Nat
  /-- its start-of-scan passed between a takeover and the first RELEASE after it (R423) -/
  taken : Bool
  deriving DecidableEq, Repr

/-- A head slot beside its registers. -/
structure Slot where
  /-- next line due (R171) -/
  next : Nat
  parts : List Part
  /-- instant of the start-of-scan of the last FIRE (R181), and of the last line charged (R194) -/
  lastFire : Option Nat
  firing : Bool
  /-- credits held (R190) -/
  credits : Nat
  /-- the value the Thermal Monitor passed on, and when the last valid one came (R195) -/
  temp : Int
  tempAt : Option Nat
  /-- instant since which charge is forbidden (R199) -/
  forbidAt : Option Nat
  /-- waveform image: generation, frames still to send; once it is sent whole, whether WAVE_COMMIT is due, and the first line to use
  it (R193) -/
  waveGen : Nat
  waveLeft : Nat
  waveDue : Bool
  waveLine : Nat
  /-- authentication: instant it began or the last message asked for an answer, sequence, units sent unconfirmed and
  confirmed, next retry, grace after a switchover (R201 to R206) -/
  authAt : Option Nat
  /-- step of Table 5-8 awaited: 2 CERT, 5 the first USAGE_NOW, 0 none -/
  authStep : Nat
  authSeq : Nat
  /-- units that USAGE_ADD has named, and the USAGE_ADDs not yet answered, oldest first: sequence, units, instant -/
  unitsSent : Nat
  asked : List (Nat × Nat × Nat)
  lastAdd : Option Nat
  retryAt : Option Nat
  graceTo : Option Nat
  nonce : List Byte
  key : List Byte
  /-- message frames not yet sent: sequence, index, 256 bytes (R201) -/
  msgs : List (Nat × Nat × List Byte)
  msgSeq : Nat
  /-- module's STATUS bits [54:48] as last reported (Table 5-7) -/
  status : Option Nat
  /-- no RELEASE has been sent since the takeover (R423) -/
  unreleased : Bool
  /-- lines from this one on are left to the partner in a planned handover (R422) -/
  handed : Option Nat
  /-- n_s of the last switchover: lines below it are in the other device's Ledger (R423) -/
  ownFrom : Nat
  deriving DecidableEq, Repr

def Slot.reset : Slot :=
  { next := 0, parts := [], lastFire := none, firing := false, credits := 0, temp := 0, tempAt := none,
    forbidAt := none, waveGen := 0, waveLeft := 0, waveDue := false, waveLine := 0, authAt := none, authStep := 0, authSeq := 0,
    unitsSent := 0, asked := [], lastAdd := none, retryAt := none, graceTo := none, nonce := [], key := [], msgs := [], msgSeq := 0,
    status := none, unreleased := false, handed := none, ownFrom := 0 }

/-- The Start-of-Scan unit and the Fire Sequencer beside their registers. -/
structure Fire where
  /-- the position of line `w0Line` at the reference row, in 2⁻³² mm, and whether it is set (R172) -/
  w0 : Int
  w0Line : Nat
  w0Set : Bool
  /-- a line of the current job has been fired (R172) -/
  firedJob : Bool
  /-- next line due at the reference row -/
  refNext : Nat
  /-- the last line fired at the reference row, as its job numbers it (Table 3-7) -/
  lastFired : Nat
  /-- the last reference-row start-of-scan and the interval before it (R174) -/
  refAt : Option Nat
  refGap : Option Nat
  /-- the last early event posted; the missing event of this gap is counted (R174, R175) -/
  earlyAt : Option Nat
  missed : Bool
  slots : Tbl Slot
  /-- HEARTBEAT sequence, and the instant of the last sets -/
  hbSeq : Nat
  hbAt : Option Nat
  /-- trust anchors of the settings image (R202) -/
  anchors : Tbl (List Byte)
  /-- instant of entry to FREEZE (R46) -/
  freezeAt : Option Nat
  /-- the forward lanes carry HEARTBEAT STANDBY and no line is released, whatever the mode (R421) -/
  silent : Bool
  deriving DecidableEq, Repr

def Fire.reset : Fire :=
  { w0 := 0, w0Line := 0, w0Set := false, firedJob := false, refNext := 0, lastFired := 0, refAt := none, refGap := none, earlyAt := none, missed := false,
    slots := [], hbSeq := 0, hbAt := none, anchors := [], freezeAt := none, silent := false }

/-- What an axis is doing: nothing, running at a speed in µm/s, going to a position in wp at a peak speed, or stopping, at `a_hard`
or at `a_max`. -/
inductive Goal where
  | still
  | speed (v : Int)
  | target (p : Int) (peak : Nat)
  | stop (hard : Bool)
  deriving DecidableEq, Repr

/-- An axis beside its registers (R274 to R293). Position in 1/244,140,625 wp, speed in 1/16,000,000 µm/s, acceleration in 10⁻⁹ mm/s²:
units in which one servo period adds exactly. -/
structure Axis where
  p : Int
  v : Int
  a : Int
  goal : Goal
  lastTarget : Option Int
  /-- the drive has its enable (R276, R284) -/
  enabled : Bool
  /-- `home_shift`, wp -/
  shift : Int
  /-- the last VELOCITY speed, µm/s (R277) -/
  velCmd : Int
  /-- instant since which the set-point is unchanged (R281) -/
  stillAt : Nat
  /-- a target behind the point at which it could stop (R279) -/
  behind : Bool
  /-- the stop beyond the target at `a_hard` is in progress (R279) -/
  past : Bool
  /-- the last stretch of a move from standstill: where it began, its length, its periods, and the periods gone (R275) -/
  last : Option (Int × Int × Nat × Nat)
  /-- limits in effect: µm/s, mm/s², mm/s³ (R278) -/
  vLim : Nat
  aLim : Nat
  jLim : Nat
  /-- periods in a row without the fresh bit toggling (R285) -/
  missed : Nat
  /-- its drive's fault stands as the last period had it (R285) -/
  faulted : Bool
  /-- set-point last sent, drive counts, and the port and drive it went to (R309) -/
  sent : Nat
  sentTo : Option (Nat × Nat)
  /-- late set-points, newest first: instant of their sync point, wp (R288) -/
  hist : List (Nat × Int)
  /-- speed from the drive's reported positions, µm/s -/
  drvSpeed : Int
  drvPos : Option Int
  /-- part of the homing step in progress (Table 8-6) -/
  homePart : Nat
  /-- the capping move: 1 to be given its enable, 2 moving, 3 its enable sent (R280) -/
  park : Nat
  deriving DecidableEq, Repr

def Axis.reset : Axis :=
  { p := 0, v := 0, a := 0, goal := .still, lastTarget := none, enabled := false, shift := 0, velCmd := 0, stillAt := 0,
    behind := false, past := false, last := none, vLim := 0, aLim := 0, jLim := 0, missed := 0, faulted := false, sent := 0, sentTo := none, hist := [],
    drvSpeed := 0, drvPos := none, homePart := 0, park := 0 }

/-- A Drive Link port beside its registers. -/
structure DrivePort where
  /-- servo periods begun -/
  period : Nat
  lastTrig : Option Nat
  /-- its time trigger has fired and the period has not begun -/
  due : Bool
  /-- periods in a row without a returned frame -/
  lost : Nat
  returned : Bool
  /-- chain delays measured at link-up, ns; fresh bits as last returned, bit per drive -/
  hops : List Nat
  fresh : Nat
  deriving DecidableEq, Repr

def DrivePort.reset : DrivePort := { period := 0, lastTrig := none, due := false, lost := 0, returned := false, hops := [], fresh := 0 }

/-- The three converters of a sin/cos input and its corrections (R268, R269): offsets of sin and cos in 1/10,000 of nominal amplitude,
cos-to-sin gain ratio less 1 in 1/10,000, quadrature phase error in 1/100 °. -/
structure SinCos where
  /-- which converter serves as sin, as cos, and as the spare -/
  conv : List Nat
  /-- the spare has taken over in the run in progress, and the freed converter is being calibrated -/
  swapped : Bool
  offS : Int
  offC : Int
  gain : Int
  angle : Int
  /-- the fit in progress: extended count at its start; least, greatest and sum of the corrected amplitudes seen, and how many -/
  from_ : Option Int
  lo : Nat
  hi : Nat
  sum : Nat
  n : Nat
  deriving DecidableEq, Repr

def SinCos.reset : SinCos :=
  { conv := [0, 1, 2], swapped := false, offS := 0, offC := 0, gain := 0, angle := 0, from_ := none, lo := 0, hi := 0, sum := 0, n := 0 }

/-- A feedback input beside its registers (R294 to R301). -/
structure FbInput where
  /-- levels of A and B -/
  levelA : Bool
  levelB : Bool
  /-- count within the signal period, or quarter, as last sampled -/
  phase : Nat
  /-- instant and extended count of the edges since the speed was last 0, newest first -/
  edges : List (Nat × Int)
  /-- direction of the last edge -/
  dir : Int
  /-- instant of the last update, and the positions of late, newest first: instant, wp -/
  at_ : Nat
  hist : List (Nat × Int)
  qerrs : List Nat
  ampBad : Nat
  ampGood : Nat
  ssiBad : Nat
  ssiSeen : Bool
  /-- device time and extended count at the last index -/
  idxTime : Nat
  idxExt : Int
  sc : SinCos
  deriving DecidableEq, Repr

def FbInput.reset : FbInput :=
  { levelA := false, levelB := false, phase := 0, edges := [], dir := 0, at_ := 0, hist := [], qerrs := [], ampBad := 0,
    ampGood := 0, ssiBad := 0, ssiSeen := false, idxTime := 0, idxExt := 0, sc := .reset }

/-- An emulator output beside its registers (R302 to R304). -/
structure Emu where
  /-- extended count at its start -/
  base : Int
  /-- output counts sent, and counts lost (R303) -/
  sent : Int
  lost : Int
  lastEdge : Option Nat
  deriving DecidableEq, Repr

def Emu.reset : Emu := { base := 0, sent := 0, lost := 0, lastEdge := none }

/-- A switch input: its stable level, and until when its edges are ignored (R288, R289). -/
structure Switch where
  level : Bool
  ignoreTo : Nat
  deriving DecidableEq, Repr

def Switch.reset : Switch := { level := false, ignoreTo := 0 }

/-- The Motion Engine, the switches, the feedback inputs and the Encoder Emulator. -/
structure Motion where
  axes : Tbl Axis
  ports : Tbl DrivePort
  switches : Tbl Switch
  inputs : Tbl FbInput
  emus : Tbl Emu
  /-- capping: 0 none, 1 bar lift, 2 capping axes, 3 capped (R280) -/
  capping : Nat
  deriving DecidableEq, Repr

def Motion.reset : Motion := { axes := [], ports := [], switches := [], inputs := [], emus := [], capping := 0 }

/-- An exposure set (Table 6-9) and the frame T from which it applies. -/
structure Expo where
  id : Nat
  lineTime : Nat
  again : Nat
  illum : Nat
  gain : List Nat
  offset : List Int
  target : Nat
  deriving DecidableEq, Repr

/-- The four geometry terms of a pipeline (R225): X0 and σ in 2⁻³² mm, Q in 2⁻³² mm, ρ in 2⁻³⁰ grid line per pixel. -/
structure Geom where
  x0 : Int
  q : Int
  rho : Int
  sub : Int
  deriving DecidableEq, Repr

def Geom.reset : Geom := { x0 := 0, q := 0, rho := 0, sub := 0 }

/-- A camera line placed on the grid: its grid line; samples per channel at the statistics tap; corrected samples per channel. -/
structure CamLine where
  m : Nat
  tap : List (List Nat)
  img : List (List Nat)
  /-- instant of its trigger -/
  at_ : Nat
  /-- imaged in REWIND or HOLD beyond line S + 1: not compared (R234) -/
  held : Bool
  deriving DecidableEq, Repr

/-- A frame in progress at a pipeline (R222). -/
structure Frame where
  num : Nat
  /-- its first grid line; the instant of its first trigger; triggers counted; those not yet paired: grid line, instant -/
  m0 : Nat
  firstAt : Nat
  counted : Nat
  waiting : List (Nat × Nat)
  /-- lines received, newest first; lines lost -/
  lines : List CamLine
  lost : Nat
  /-- the exposure set of its lines; its number for the records, 0 if unconfirmed -/
  set : Option Expo
  expo : Nat
  unconfirmed : Bool
  geom : Geom
  /-- the entry of its pipeline that it runs under (R27) -/
  entry : Option (List Byte)
  deriving DecidableEq, Repr

/-- One line of the stitch overlap buffer (R226): its frame and grid line, and the luminance of the columns at each end of the field. -/
structure Overlap where
  frame : Nat
  m : Nat
  left : List Nat
  right : List Nat
  deriving DecidableEq, Repr

/-- An inspection pipeline beside its registers. -/
structure Pipe where
  /-- frames in progress, oldest first; the last frame it has ended; the last line received from its stream -/
  frames : List Frame
  ended : Nat
  lineAt : Option Nat
  /-- the exposure set in effect; sets pending (R235); a commit was sent that the frame in progress is to confirm; the set waits to
  be committed again (R236) -/
  expo : Option Expo
  pend : List Expo
  check : Bool
  again : Bool
  /-- geometry in effect, and from the next frame; a term is at the end of its range -/
  geom : Geom
  geomNext : Geom
  limit : Bool
  /-- region records waiting, oldest first (R232) -/
  regions : List (List Byte)
  /-- self-test failures in a row; retired until the next cold start (R430) -/
  bad : Nat
  retired : Bool
  /-- the pipeline that takes its place at its next frame start (R430) -/
  sub : Option Nat
  /-- the region records of the last frame ended, each with the device time, ns, of the trigger of its first grid line -/
  lastRegions : List (List Byte × Nat)
  /-- the stitch overlap buffer of its stream: the last 2 frames, newest line first (R226) -/
  overlap : List Overlap
  deriving DecidableEq, Repr

def Pipe.reset : Pipe :=
  { frames := [], ended := 0, lineAt := none, expo := none, pend := [], check := false, again := false, geom := .reset,
    geomNext := .reset, limit := false, regions := [], bad := 0, retired := false, sub := none, lastRegions := [], overlap := [] }

/-- A camera port beside its registers (R211). -/
structure CamPort where
  /-- the gear being trained, 0 for none; failures of it in a row; the gear above which it does not train again -/
  train : Nat
  fails : Nat
  top : Nat
  crcAt : List Nat
  /-- a line of a virtual channel whose packets have come: data type and payload -/
  bufs : Tbl (Nat × List Byte)
  deriving DecidableEq, Repr

def CamPort.reset : CamPort := { train := 0, fails := 0, top := 5, crcAt := [], bufs := [] }

/-- A stitch group beside its registers (R217 to R220): running; its first trigger has come; E0 and the highest position counted, 2⁻³² mm;
the next trigger; frame numbers used before this start. -/
structure Group where
  on : Bool
  started : Bool
  e0 : Int
  top : Int
  k : Nat
  base : Nat
  /-- the highest frame number the group has used (R220) -/
  used : Nat
  deriving DecidableEq, Repr

def Group.reset : Group := { on := false, started := false, e0 := 0, top := 0, k := 0, base := 0, used := 0 }

/-- What one pipeline's frame adds to the accumulators (R233): by key ((8 × plane + row record) × 65,536 + index), Σ |d_p| × overlap and
Σ overlap. `full` is false for a frame that ended incomplete or with its comparison suspended. -/
structure AccPart where
  grp : Nat
  frame : Nat
  pipe : Nat
  expo : Nat
  full : Bool
  sums : Tbl (Int × Nat)
  deriving DecidableEq, Repr

/-- Inspection beside its registers. -/
structure Insp where
  pipes : Tbl Pipe
  ports : Tbl CamPort
  groups : Tbl Group
  parts : List AccPart
  /-- completed accumulators by key; per plane the frame of the completed buffer and its exposure set number -/
  acc : Tbl Nat
  accDone : Tbl (Nat × Nat)
  /-- origins W0 of lines, newest first: from this line on, its position at this line -/
  origins : List (Nat × Int)
  /-- lines below this one are released by the Renderer (R230) -/
  rel : Nat
  /-- Calibration Unit: first frame of the written buffer and frames in it; values that `swap` gives `dens_plane` and `cu_grp` -/
  cuFirst : Nat
  cuFrames : Nat
  cuPlane : Option Nat
  cuGrp : Option Nat
  /-- plane and group of the completed buffer, and whether density and registration have still to use it: bits 0 and 1 -/
  cuDone : Nat × Nat
  cuNew : Nat
  deriving DecidableEq, Repr

def Insp.reset : Insp :=
  { pipes := [], ports := [], groups := [], parts := [], acc := [], accDone := [], origins := [], rel := 0, cuFirst := 0, cuFrames := 0,
    cuPlane := none, cuGrp := none, cuDone := (0, 0), cuNew := 0 }

/-- Σ of Table 7-5 for a head slot. -/
structure RegSums where
  sxx : Nat
  syy : Nat
  sxy : Int
  sdx : Int
  sdy : Int
  npix : Nat
  deriving DecidableEq, Repr

def RegSums.reset : RegSums := { sxx := 0, syy := 0, sxy := 0, sdx := 0, sdy := 0, npix := 0 }

/-- What the calibration firmware keeps (chapter 7). -/
structure Loops where
  /-- a′ of R248, by (8 × plane + row record) × 131,072 + column; the last frame each plane's health pass has used -/
  kept : Tbl Nat
  passed : Tbl Nat
  /-- spare nozzles that failed, and plane of each (R252); confirmations to repeat (R250): plane, row record, column -/
  failed : List (Nat × Nat)
  retry : List (Nat × Nat × Nat)
  /-- seen frames in a row in which a `no_spare` nozzle was no candidate -/
  quiet : Tbl Nat
  /-- updates in a row that a trim has been at its limit (R259), by plane, bank row and column as `kept` -/
  atLimit : Tbl Nat
  /-- registration: sums and frames of the window so far; per slot the last estimates, newest first: dy − ȳ in wp, speed in µm/s (R263) -/
  sums : Tbl RegSums
  frames : Nat
  hist : Tbl (List (Int × Int))
  /-- per plane: windows in a row whose cross-track estimate is beyond 0.6 column, and its sign (R264) -/
  xrun : Tbl (Nat × Bool)
  /-- converter swaps that failed in a row, per input (R268) -/
  convBad : Tbl Nat
  /-- planes whose new bank has been written and whose entry was not yet seen to take it (R258) -/
  densTry : Tbl Nat
  /-- nozzles without a spare whose neighbours the next density update of their plane raises (R253), by key as `kept` -/
  boost : List Nat
  /-- job, page and mark word of the pages marked, newest first (R243) -/
  marked : List (Nat × Nat × Nat)
  /-- accession records: the last second and count allocated (R240), records written (R242) -/
  accSec : Nat
  accSeq : Nat
  accN : Nat
  deriving DecidableEq, Repr

def Loops.reset : Loops :=
  { kept := [], passed := [], failed := [], retry := [], quiet := [], atLimit := [], sums := [], frames := 0, hist := [], xrun := [],
    convBad := [], densTry := [], boost := [], marked := [], accSec := 0, accSeq := 0, accN := 0 }

/-- A time trigger's running schedule, in device time (R326 to R329). -/
structure Trig where
  next : Option Nat
  grid : Nat
  left : Option Nat
  deriving DecidableEq, Repr

def Trig.reset : Trig := { next := none, grid := 0, left := none }

/-- What an Announce message gives the best master clock algorithm (R315): priority 1, class, accuracy, variance, priority 2,
grandmaster, steps removed, the instant it came, and the instant of the one before from that clock. -/
structure Announce where
  prio1 : Nat
  cls : Nat
  acc : Nat
  variance : Nat
  prio2 : Nat
  gm : Nat
  steps : Nat
  at_ : Nat
  prev : Option Nat
  deriving DecidableEq, Repr

/-- The Time Unit beside its registers. -/
structure TimeUnit where
  trigs : Tbl Trig
  capAt : Tbl Nat
  capN : Tbl Nat
  /-- per reader: latched time; latched capture time and count (R312, R332) -/
  nowLatch : Tbl Nat
  capLatch : Tbl (Nat × Nat)
  /-- latest Announce of each grandmaster on each port, by port + 2 × identity, and the parent's port (R315) -/
  heard : Tbl Announce
  parent : Option Nat
  /-- Delay_Resp exchanges completed since the parent was chosen; Syncs in a row within `lock_thr`; ever LOCKED -/
  exchanges : Nat
  goodSyncs : Nat
  everLocked : Bool
  /-- rate corrections of the last Sync intervals of LOCKED, newest first -/
  rates : List Int
  lastSync : Option Nat
  holdAt : Nat
  /-- the Delay_Req out: port, sequence, egress time; master to slave time of the last Sync; measured path delay per port -/
  reqSeq : Nat
  reqOut : Option (Nat × Nat × Nat)
  syncDelta : Int
  mpd : Tbl Nat
  /-- sequence of the messages sent as master -/
  masterSeq : Nat
  /-- a step that waits for the outstanding epoch to end, and the time to set at the next PPS_IN edge (R323, R324) -/
  setAtPps : Option Nat
  /-- the second of the last rising edge of PPS_OUT, and its level -/
  ppsAt : Nat
  ppsHigh : Bool
  /-- instant from which the rate correction in effect runs, and `timeOff` then (R311) -/
  rateFrom : Nat
  offFrom : Int
  /-- trigger actions due: calibration burst per input, thermal sweep (Table 9-4) -/
  burstDue : Tbl Nat
  sweepDue : Bool
  deriving DecidableEq, Repr

def TimeUnit.reset : TimeUnit :=
  { trigs := [], capAt := [], capN := [], nowLatch := [], capLatch := [], heard := [], parent := none, exchanges := 0,
    goodSyncs := 0, everLocked := false, rates := [], lastSync := none, holdAt := 0, reqSeq := 0, reqOut := none,
    syncDelta := 0, mpd := [], masterSeq := 0, setAtPps := none, ppsAt := 0, ppsHigh := false, rateFrom := 0, offFrom := 0, burstDue := [], sweepDue := false }

/-- The Ring Switch beside its registers. -/
structure RingNet where
  rseq : Nat
  /-- (origin, rseq, instant) of frames seen in the last 1.0 s (R337) -/
  seen : List (Nat × Nat × Nat)
  coldAt : Nat
  upAt : Tbl Nat
  /-- instants of the last NEIGHBOR frame received and sent, per port -/
  lastNeighbor : Tbl Nat
  sentAt : Tbl Nat
  /-- NEIGHBOR frames missed in a row, per port -/
  missed : Tbl Nat
  /-- the node number learned since the cold start (R334) -/
  found : Option Nat
  deriving DecidableEq, Repr

def RingNet.reset : RingNet :=
  { rseq := 0, seen := [], coldAt := 0, upAt := [], lastNeighbor := [], sentAt := [], missed := [], found := none }

/-- A lane beside its registers. -/
structure Lane where
  /-- the bring-up in progress is a full one, not a relock (R392); bring-up is called for and has not begun (R391) -/
  full : Bool
  called : Bool
  /-- it was restored, and becomes a spare only once its eye figures meet the limits (R400) -/
  proving : Bool
  /-- instants of failed full bring-ups -/
  fails : List Nat
  /-- verifications failed in a row (R399) -/
  verify : Nat
  /-- traffic waits until here: the 33 blocks of IDLE of a move (R396) -/
  idleTo : Nat
  /-- its PRBS checker counted more than 16 errors in 1.0 s, and no recalibration since (R402) -/
  isOver : Bool
  /-- instant since which its PRBS checker counts bits -/
  chkAt : Option Nat
  /-- instant at which its full bring-up began (R390); that at which its DFE taps were those shown (R389) -/
  startAt : Nat
  tapsAt : Option Nat
  deriving DecidableEq, Repr

def Lane.reset : Lane :=
  { full := false, called := false, proving := false, fails := [], verify := 0, idleTo := 0, isOver := false, chkAt := none, startAt := 0, tapsAt := none }

/-- A move of logical lane `l` from physical lane `a` to spare `b` (R396, R397): the step of Table 12-4 in progress, and when it began. -/
structure LaneMove where
  l : Nat
  a : Nat
  b : Nat
  step : Nat
  planned : Bool
  since : Nat
  /-- asked for through LANE_CMD, so that CMD_RESULT follows it -/
  asked : Bool
  deriving DecidableEq, Repr

/-- The lanes and the lane switches. -/
structure Lanes where
  lanes : Tbl Lane
  /-- per group, the word latched in its switch (Table 12-3) -/
  words : Tbl Nat
  /-- moves, the first in progress -/
  moves : List LaneMove
  /-- RELOAD: 1 the words that loop every lane are shifted, 2 they are latched and the lanes come up, 3 the home map is shifted (R395) -/
  boot : Nat
  /-- the words shifted in RELOAD, for the next latch; the word of its group before the latch of the move in progress (R399) -/
  shifted : Tbl Nat
  prev : Nat
  deriving DecidableEq, Repr

def Lanes.reset : Lanes := { lanes := [], words := [], moves := [], boot := 0, shifted := [], prev := 0 }

/-- A quality figure (Table 7-8): the four halves of CL_Q_A and CL_Q_B, and the instant of its last update. -/
structure Quality where
  a1 : Nat
  a0 : Nat
  b1 : Nat
  b0 : Nat
  at_ : Option Nat
  deriving DecidableEq, Repr

def Quality.reset : Quality := { a1 := 0, a0 := 0, b1 := 0, b0 := 0, at_ := none }

/-- Recalibration of units in traffic (R266 to R268): due units, oldest first, as class, unit and reason (0 quality, 1 request,
2 temperature, 3 age); units running, per class; last runs by 256 × class + unit, with the temperature then. -/
structure Recal where
  due : List (Nat × Nat × Nat)
  running : Tbl Nat
  lastRun : Tbl (Nat × Int)
  quality : Tbl Quality
  deriving DecidableEq, Repr

def Recal.reset : Recal := { due := [], running := [], lastRun := [], quality := [] }

/-- An on-die sensor beside its registers (R432 to R437). -/
structure Sensor where
  /-- instant of its last conversion, and since when its reading has not changed, with its neighbours' median then, 1/16 °C, once they have one -/
  lastAt : Option Nat
  stillAt : Nat
  stillMed : Option Int
  /-- conversions in a row that deviate, and at 120 °C or more -/
  deviant : Nat
  hot : Nat
  /-- the learned offset in 2⁻²⁰ °C -/
  offset : Int
  deriving DecidableEq, Repr

def Sensor.reset : Sensor := { lastAt := none, stillAt := 0, stillMed := none, deviant := 0, hot := 0, offset := 0 }

/-- The head temperature channels of a slot (R438, R439): last accepted value and instant of the nozzle plate and the driver, reports
in a row that disagree, the offset d in 2⁻²⁰ °C, when it was last updated, and since when it learns. -/
structure HeadTemp where
  plate : Option (Int × Nat)
  driver : Option (Int × Nat)
  disagree : Nat
  d : Int
  dAt : Option Nat
  learnAt : Nat
  deriving DecidableEq, Repr

def HeadTemp.reset : HeadTemp := { plate := none, driver := none, disagree := 0, d := 0, dAt := none, learnAt := 0 }

/-- The Thermal Monitor beside its registers. -/
structure Thermal where
  sensors : Tbl Sensor
  heads : Tbl HeadTemp
  /-- the digital path found 120 °C twice in a row (R443) -/
  tripDue : Bool
  sweepAt : Option Nat
  /-- a flash operation has been refused, and since when the conditions of R446 hold again -/
  refused : Bool
  goodAt : Option Nat
  /-- supply rails out of their monitored range (R505) -/
  railsBad : List Nat
  deriving DecidableEq, Repr

def Thermal.reset : Thermal :=
  { sensors := [], heads := [], tripDue := false, sweepAt := none, refused := false, goodAt := none, railsBad := [] }

/-- A request in a Stacks port's queue (R346 to R348). -/
structure MemReq where
  port : Nat
  source : Nat
  addr : Nat
  len : Nat
  /-- the bytes of a write, `none` for a read -/
  data : Option (List Byte)
  arrived : Nat
  reserved : Bool
  deriving DecidableEq, Repr

/-- The HBM3 controller and the Reading Room's banks beside their registers. -/
structure Stacks where
  queue : List MemReq
  /-- credit buckets: bytes × 2¹⁶, and when last filled, per port (R347) -/
  credit : Tbl (Nat × Nat)
  /-- per row: corrected reads; rows directed to a spare; rows due for repair, oldest first; spare rows used per bank (R355) -/
  rowErrs : Tbl Nat
  repaired : List Nat
  repairDue : List Nat
  spares : Tbl Nat
  /-- bursts the patrol scrub has read in this pass; when a pass last completed (R354) -/
  scrubPos : Nat
  scrubDone : Option Nat
  /-- bursts read in the training of this RELOAD; the delay code of each lane of a trained pseudo-channel, 1/64 UI (R357, R358) -/
  trainPos : Nat
  codes : Tbl (List Int)
  /-- refreshes postponed, per pseudo-channel × 64 + bank (R351); the row held open for a request queued (R344); neighbour refreshes to be
  issued: pseudo-channel, bank, row (R352) -/
  postponed : Tbl Nat
  openRow : Tbl Nat
  nrrDue : List (Nat × Nat × Nat)
  /-- redundant lanes in use, by pseudo-channel × 128 + lane, command-address lanes from 64 on; lanes known to fail; per lane a burst in which
  it was corrected; a pseudo-channel failed training (R356) -/
  laneMap : List Nat
  laneBad : List Nat
  laneErrs : Tbl Nat
  trainBad : Bool
  /-- retraining: windows run so far, and the start of the last one (R358) -/
  windows : Nat
  windowAt : Option Nat
  /-- the snapshot of Table 10-7 -/
  snap : List Byte
  /-- Reading Room: physical bank of each logical one that is not its own, spare banks, the next bank in turn, the last rotation, the
  bank under test, banks to be retired, and whether the last test passed (R365) -/
  bankMap : Tbl Nat
  bankSpares : List Nat
  bankNext : Nat
  rotAt : Nat
  testing : Option Nat
  bankBad : List Nat
  testOk : Bool
  /-- 8-byte words of the Reading Room that hold an uncorrectable error (R366) -/
  rrBad : List Nat
  /-- errors corrected per physical bank in this rotation period (R365) -/
  rrErrs : Tbl Nat
  deriving DecidableEq, Repr

def Stacks.reset : Stacks :=
  { queue := [], credit := [], rowErrs := [], repaired := [], repairDue := [], spares := [], scrubPos := 0, scrubDone := none, trainPos := 0, codes := [],
    postponed := [], openRow := [], nrrDue := [], laneMap := [], laneBad := [], laneErrs := [], trainBad := false, windows := 0, windowAt := none, snap := [], bankMap := [], bankSpares := [64, 65, 66, 67], bankNext := 0,
    rotAt := 0, testing := none, bankBad := [], testOk := true, rrBad := [], rrErrs := [] }

/-- A Bindery unit beside its registers (R368 to R383). -/
structure Bindery where
  /-- the job running: indices of its two descriptors, source address and length, destination and capacity, opcode -/
  job : Option (Nat × Nat)
  src : Nat
  srcLen : Nat
  dst : Nat
  dstCap : Nat
  opcode : Nat
  /-- bytes of the source read and of the destination written by the job, and whether its refusal or error is known -/
  done : Nat
  wrote : Nat
  status : Nat
  finished : Bool
  /-- the stream: open, its `op` and `wrap`; input of a COMPRESS stream not yet coded; all bytes of a stream so far: uncompressed for
  COMPRESS, the input of a DECOMPRESS; bits of output not yet whole bytes, least significant first -/
  isOpen : Bool
  sop : Nat
  swrap : Nat
  held : List Byte
  text : List Byte
  bits : List Bool
  /-- history kept from before the last FULL is not used: its length -/
  cut : Nat
  /-- bytes of the decompressed stream already written -/
  given : Nat
  /-- the header has been written -/
  headed : Bool
  /-- instants of verification fallbacks -/
  fallbacks : List Nat
  deriving DecidableEq, Repr

def Bindery.reset : Bindery :=
  { job := none, src := 0, srcLen := 0, dst := 0, dstCap := 0, opcode := 0, done := 0, wrote := 0, status := 0, finished := false,
    isOpen := false, sop := 0, swrap := 0, held := [], text := [], bits := [], cut := 0, given := 0, headed := false, fallbacks := [] }

/-- The GP-40 personality beside its registers. -/
structure Gp where
  /-- `rescue_en` and `depth` as latched at the start of the run (R493, Table 16-4) -/
  rescue : Bool
  depth : Bool
  /-- the next page queued is the first of its run (R490); pages queued since the run began -/
  first : Bool
  pages : Nat
  /-- where the personality places the next page in the Stacks -/
  place : Nat
  /-- the job closes at the end of the last page queued (R487) -/
  ending : Bool
  /-- the value of the settings record of R498 -/
  record : List Byte
  deriving DecidableEq, Repr

def Gp.reset : Gp := { rescue := false, depth := true, first := true, pages := 0, place := 0, ending := false, record := [] }

/-- A copy of the boot record (R453): whether its check holds, its generation, the current half, the versions of both halves, the state
of the current image, the flags, and the settings format level of the last confirmed image. -/
structure BootRec where
  good : Bool
  gen : Nat
  half : Nat
  verCur : Nat
  verPrev : Nat
  unconfirmed : Bool
  armed : Bool
  fallback : Bool
  fmt : Nat
  deriving DecidableEq, Repr

def BootRec.reset : BootRec :=
  { good := true, gen := 0, half := 0, verCur := 0, verPrev := 0, unconfirmed := false, armed := false, fallback := false, fmt := 0 }

/-- An image leaving through a ring port (R471): its transfer identifier, where it lies, its length; the next segment (64 × block +
segment), blocks sent whole and not acknowledged, segments to send again; what is awaited (1 the answer to IMG_OFFER, 2 blocks under
way, 3 the verdict); the last frame sent, its repeats, since when an answer is due, and when the next segment may go. -/
structure Sender where
  id : Nat
  base : Nat
  len : Nat
  next : Nat
  unacked : List Nat
  resend : List Nat
  phase : Nat
  lastType : Nat
  lastBody : List Byte
  repeats : Nat
  askedAt : Option Nat
  nextAt : Nat
  deriving DecidableEq, Repr

/-- An image coming in at a ring port: transfer identifier, port, length; segments received; blocks acknowledged. -/
structure Receiver where
  id : Nat
  port : Nat
  len : Nat
  got : List Nat
  blocks : List Nat
  deriving DecidableEq, Repr

/-- The boot flash, the start in progress and the transfer of images, beside the registers; the flash's banks and settings slots lie in
memory from `flashBase`. -/
structure Flash where
  /-- the repair record (R355, R400): kind (1 lane, 2 row, 3 stack lane, 4 Reading Room bank), unit, and whether it is written -/
  repair : List (Nat × Nat × Bool)
  recA : BootRec
  recB : BootRec
  /-- a boot record that waits for flash writes to be allowed -/
  recDue : Option BootRec
  /-- the boot ROM listens since this instant; none once an image is started -/
  bootAt : Option Nat
  /-- cause of the start in progress or last made (Table 15-3) -/
  cause : Nat
  /-- no image passed (R456) -/
  noImage : Bool
  /-- header of the running image, and where the image lies in the flash; empty before the first start -/
  header : List Byte
  runBase : Nat
  /-- a warm reset that waits for REL_ACK: its cause, and since when (R458) -/
  resetAsk : Option (Nat × Nat)
  /-- a warm reset that waits for the next line boundary: its cause (R50) -/
  resetWait : Option Nat
  /-- a device of a pair was reset, and its settings are not applied yet: its EMU_ balls stay in high impedance (R304) -/
  pairReset : Bool
  /-- the trip's end: the mode before the reset, for `prev_mode` -/
  prevMode : Nat
  /-- settings: cleared (R466); a write in progress: its slot and bytes, or no bytes for a clear; started; privileged registers whose
  record was dropped (R465) -/
  cleared : Bool
  setJob : Option (Nat × List Byte)
  setStarted : Bool
  privDrop : List Nat
  /-- the four PCIe identifiers: Vendor ID, Device ID, subsystem vendor and device ID (R43, Table 15-6; in GP-40 mode R484) -/
  pcie : List Nat
  /-- an arm in progress; a staging write in progress, or waiting; the staged image was rejected (R474, R472, R477) -/
  arming : Bool
  staging : Bool
  rejected : Bool
  /-- the image booted from the transfer buffer still waits for its write to half 0 (R446, R456) -/
  halfDue : Bool
  /-- an image to check in the transfer buffer: 0 none, 1 received, 2 loaded -/
  verify : Nat
  recv : Option Receiver
  send : Tbl Sender
  /-- transfers this device began -/
  xferN : Nat
  /-- image versions heard: East, West, partner -/
  peerVer : Tbl Nat
  /-- end of the confirm window, device time in 2⁻¹⁶ ns; the window has expired (R476, R477) -/
  confirmEnd : Option Nat
  expired : Bool
  /-- entries of rings in host memory, as the always-on island holds them (R459) -/
  aonRings : Tbl (List Byte)
  deriving DecidableEq, Repr

def Flash.reset : Flash :=
  { repair := [], recA := .reset, recB := { BootRec.reset with good := false }, recDue := none, bootAt := none, cause := 0,
    noImage := false, header := [], runBase := 0, resetAsk := none, resetWait := none, pairReset := false, prevMode := 0, cleared := false, setJob := none,
    setStarted := false, privDrop := [], pcie := [], arming := false, staging := false, rejected := false, halfDue := false, verify := 0,
    recv := none, send := [], xferN := 0, peerVer := [], confirmEnd := none, expired := false, aonRings := [] }

/-- The twin pair beside its registers (R408 to R428). -/
structure Pair where
  /-- records not yet sent: of the live stream, of a resync (R416) -/
  live : List TwinRec
  resync : List TwinRec
  /-- the replay buffer: records sent and not acknowledged, oldest first (R412) -/
  replay : List (Nat × TwinRec)
  /-- records that a TWIN_NAK asked for, not yet sent again (R412) -/
  again : List (Nat × TwinRec)
  /-- sequence of the next record sent, of the next one expected; of the TWIN_HB sets sent -/
  seqOut : Nat
  seqIn : Nat
  hbSeq : Nat
  /-- records received since the last TWIN_ACK -/
  unacked : Nat
  /-- what the last TWIN_HB said, and when it came -/
  heardAt : Option Nat
  heardRole : Nat
  heardSync : Bool
  heardFit : Bool
  /-- `in_sync` of this device at that TWIN_HB (R419) -/
  syncAtHb : Bool
  /-- takeover: 1 awaits the modules' STATUS, 2 confirmed by TWIN_FAIL -/
  watch : Nat
  /-- instant of the end of RELOAD, and whether a TWIN_HB has come since (R409) -/
  reloadEnd : Option Nat
  seen : Bool
  /-- PAGE, SUBST and MODE records of a resync in progress, oldest first: they apply once the windows hold what they name (R416) -/
  held : List TwinRec
  /-- SYNC_MARK 0x2 of the resync in progress came; the last resync has completed; a record was lost or late (R416) -/
  marked : Bool
  synced : Bool
  lost : Bool
  /-- the reconstruction of R424: counts keyed as the Ledger's -/
  tally : Tbl Nat
  /-- a planned handover: waiting (1 for a page boundary, 2 for none), the line B or the instant of T, the sequence of its
  HANDOVER record once sent, and whether a warm reset follows (R421, R422) -/
  handWait : Nat
  handLine : Option Nat
  handAt : Option Nat
  handSeq : Option Nat
  handReset : Bool
  /-- HANDOVER as received: T in device time, each slot's next line and credits -/
  handGot : Option (Nat × List (Nat × Nat))
  /-- the last switchover: per slot n_s, lines counted at T, of them skipped, their drops; kind, side, T, report due -/
  ns : Tbl Nat
  hoLines : Tbl Nat
  hoSkipped : Tbl Nat
  hoDrops : Tbl Nat
  hoKind : Nat
  hoSide : Nat
  hoTime : Nat
  hoJob : Nat
  hoPage : Nat × Nat
  reportAt : Option Nat
  /-- R427: instant since which `in_sync` and `fit` hold at the primary in SHADOW -/
  wtrFrom : Option Nat
  /-- HEALTH records made; faults so far, and at the last record; of the last ten records, the newest first, whether none; the
  flags last posted, own and partner's -/
  hseq : Nat
  faults : Nat
  faultsAt : Nat
  clean : List Bool
  flags : Nat
  partnerFlags : Nat
  /-- since when `in_sync` and `fit` both read 1 here (R476) -/
  fitSince : Option Nat
  /-- the test slice last failed at -/
  testBad : Option Nat
  /-- lines below this one had passed the reference row when a resync set W0: the standby catches up with them -/
  catchUp : Nat
  /-- the record last asked for again, and since when it is missing (R412) -/
  nak : Option (Nat × Nat)
  deriving DecidableEq, Repr

def Pair.reset : Pair :=
  { live := [], resync := [], replay := [], again := [], held := [], seqOut := 0, seqIn := 0, hbSeq := 0, unacked := 0, heardAt := none, heardRole := 0,
    heardSync := false, heardFit := false, syncAtHb := false, watch := 0, reloadEnd := none, seen := false, marked := false,
    synced := false, lost := false, tally := [], handWait := 0, handLine := none, handAt := none, handSeq := none,
    handReset := false, handGot := none, ns := [], hoLines := [], hoSkipped := [], hoDrops := [], hoKind := 0, hoSide := 0,
    hoTime := 0, hoJob := 0, hoPage := (0, 0), reportAt := none, wtrFrom := none, hseq := 0, faults := 0, faultsAt := 0, clean := [], flags := 0,
    partnerFlags := 0, fitSince := none, testBad := none, catchUp := 0, nak := none }

/-- The whole block. -/
structure State where
  /-- the clock, in 2⁻¹⁶ ns -/
  clk : Nat
  /-- device time less the clock, in 2⁻¹⁶ ns (R14, R311) -/
  timeOff : Int
  /-- how many free values have been taken: the model's own -/
  freeN : Nat
  /-- register fields, by key; a field not listed holds its reset value -/
  regs : Tbl Nat
  /-- memory by device address: Stacks, Reading Room, host memory, and the local stores of `Ops` -/
  mem : List Host.Cell
  /-- what the device has sent, newest first -/
  out : List Emit
  cat : Catalog
  rings : Tbl Ring
  /-- events held on the die, oldest first, and how many more were lost (R523) -/
  evHeld : List Event
  evLost : Nat
  led : Ledger
  md : Modes
  engines : Tbl Engine
  barriers : Tbl Barrier
  /-- SYS.TRAP codes for the Registrar, oldest first: physical Scribe, slice, code -/
  traps : List (Nat × Nat × Nat)
  la : Raster
  fire : Fire
  mot : Motion
  insp : Insp
  loops : Loops
  tu : TimeUnit
  net : RingNet
  pair : Pair
  ln : Lanes
  cal : Recal
  fl : Flash
  th : Thermal
  gp : Gp
  st : Stacks
  bnd : Tbl Bindery
  /-- commands waiting, first in, first out -/
  pending : List Instr
  deriving DecidableEq, Repr

/-- Register fields whose value after power-on differs from copy to copy: the factory values of Table 10-2
and the home lanes of Table 12-8. -/
def resetRegs : Tbl Nat :=
  let rates := [240, 4, 160, 16, 64, 24, 40, 160, 1]
  let targets := [2000, 500, 4000, 1500, 1500, 4000, 4000, 20000, 1000000]
  (rates.zipIdx.map (fun (v, i) => (Reg.MEM_PORT_CFG.rate_gbs.key i, v))) ++
  (targets.zipIdx.map (fun (v, i) => (Reg.MEM_PORT_CFG.target_ns.key i, v))) ++
  ((List.range 40).map (fun l => (Reg.LANE_MAP.phys.key l, l / 5 * 6 + l % 5)))

/-- The block after power-on, before COLD_START (Table 2-6, "After cold start"). -/
def State.reset : State :=
  { clk := 0, timeOff := 0, freeN := 0, regs := resetRegs, mem := [], out := [], cat := .reset, rings := [],
    evHeld := [], evLost := 0, led := .reset, md := .reset, engines := [], barriers := [], traps := [],
    la := .reset, fire := .reset, mot := .reset, insp := .reset, loops := .reset, tu := .reset, net := .reset, pair := .reset, ln := .reset, cal := .reset, fl := .reset, th := .reset, gp := .reset, st := .reset, bnd := [], pending := [] }

end Sys2Proof.Machine
end

