-- ==== Sys2Proof/Machine/Ops.lean ====
section
/-! DEFINITION. The named operations every meaning is written with: registers, the clock, memory, what the device sends, the Catalog
entry of a channel, and the engines. -/

namespace Sys2Proof.Machine

/-! ### Register fields -/

/-- Copy `i` of a register field. -/
def State.rd (s : State) (f : Fld) (i : Nat := 0) : Nat := Tbl.get f.reset s.regs (f.key i)

/-- Copy `i` of a register field, as a signed number. -/
def State.rdi (s : State) (f : Fld) (i : Nat := 0) : Int := signed f.width (s.rd f i)

/-- Copy `i` of a one-bit field, as a flag. -/
def State.on (s : State) (f : Fld) (i : Nat := 0) : Bool := s.rd f i == 1

/-- Copy `i` of a field takes the low bits of `v`. -/
def State.wr (s : State) (f : Fld) (i v : Nat) : State :=
  { s with regs := s.regs.put (f.key i) (low f.width v) }

/-- Copy `i` of a field takes a signed value. -/
def State.wri (s : State) (f : Fld) (i : Nat) (v : Int) : State := s.wr f i (unsigned f.width v)

/-- Copy `i` of a one-bit field takes a flag. -/
def State.wrb (s : State) (f : Fld) (i : Nat) (b : Bool) : State := s.wr f i (ofBool b)

/-- A saturating counter counts `n` more. -/
def State.count (s : State) (f : Fld) (i : Nat := 0) (n : Nat := 1) : State :=
  s.wr f i (sat f.width (s.rd f i + n))

/-- A counter modulo its width counts `n` more. -/
def State.countMod (s : State) (f : Fld) (i : Nat := 0) (n : Nat := 1) : State := s.wr f i (s.rd f i + n)

/-- Two registers that together hold one value, the low one first. -/
def State.rd2 (s : State) (lo hi : Fld) (i : Nat := 0) : Nat := s.rd lo i + 2 ^ lo.width * s.rd hi i

def State.wr2 (s : State) (lo hi : Fld) (i v : Nat) : State := (s.wr lo i v).wr hi i (v / 2 ^ lo.width)

/-- Two registers that together hold one signed value. -/
def State.rd2i (s : State) (lo hi : Fld) (i : Nat := 0) : Int := signed (lo.width + hi.width) (s.rd2 lo hi i)

def State.wr2i (s : State) (lo hi : Fld) (i : Nat) (v : Int) : State :=
  s.wr2 lo hi i (unsigned (lo.width + hi.width) v)

/-! ### The clock (R14) -/

/-- 2⁻¹⁶ ns in one nanosecond, microsecond, millisecond, second. -/
def nsU : Nat := 65536
def usU : Nat := 1000 * nsU
def msU : Nat := 1000 * usU
def secU : Nat := 1000 * msU

/-- The current job (R38): the first that is open. -/
def curJob (s : State) : Option Job := s.la.jobs.head?

/-- Ledger counters of lines and drops are kept per job: the key of a job's counter. The window of Table 1-11 takes the keys below. -/
def jobKey (idx off : Nat) : Nat := (idx + 1) * 65536 + off

/-- Lines of the current job, or of the last one closed, whose reference-row start-of-scan has passed (R38). -/
def State.snapLine (s : State) : Nat :=
  match curJob s with
  | some j => min s.fire.refNext (j.ended.getD s.fire.refNext) - j.base
  | none => s.led.passed

/-- The current job, or the last one closed since the last cold start or warm reset: how many jobs had opened with it; 0 for none. -/
def State.snapJob (s : State) : Nat := match curJob s with | some j => j.idx + 1 | none => s.la.jobCount

/-- The Ledger as a snapshot takes it: the live counters, in the window those of the current job, and beyond the window, at 0x9000 + ring,
the descriptors each ring holds. -/
def State.ledView (s : State) : Tbl Nat :=
  let own := s.led.live.foldl (fun (t : Tbl Nat) c =>
    if c.1 / 65536 = s.snapJob && s.snapJob != 0 then t.put (c.1 % 65536) c.2 else t) s.led.live
  s.rings.foldl (fun t r => t.put (0x9000 + r.1) ((r.2.prod + 2 ^ 32 - r.2.cons % 2 ^ 32) % 2 ^ 32)) own

/-- A snapshot asked for takes its counters at a line boundary, or at none. -/
def State.snapTake (s : State) (free : Bool) : State :=
  { s with led := { s.led with taken := some (s.ledView, s.snapLine, free) } }

/-- Device time less the clock once the clock reaches `t`: the rate correction, in 10⁻¹² , runs on (R311, R319). -/
def State.offAt (s : State) (t : Nat) : Int :=
  s.tu.offFrom + s.rdi Reg.TIME_RATE.rate * ((t : Int) - s.tu.rateFrom) / 1000000000000

/-- The clock has reached `t`. A snapshot that no start-of-scan met within its 10 µs is taken as they end (R38). -/
def State.at (s : State) (t : Nat) : State :=
  let s := match s.led.asked with
    | some a => if s.led.taken.isNone && decide (a + 10 * usU < t) then s.snapTake true else s
    | none => s
  { s with clk := max s.clk t, timeOff := s.offAt (max s.clk t) }

/-- Device time, 2⁻¹⁶ ns. -/
def State.devTime (s : State) : Nat := ((s.clk : Int) + s.timeOff).toNat

/-- Device time in nanoseconds (R98). -/
def State.devNs (s : State) : Nat := s.devTime / nsU

/-- Device time at an instant of the clock. -/
def State.devAt (s : State) (t : Nat) : Nat := ((t : Int) + s.timeOff).toNat

/-- Capture channel `ch` takes an event at device time `t` (R332). -/
def State.capture (s : State) (ch t : Nat) : State :=
  { s with tu := { s.tu with
      capAt := s.tu.capAt.put ch t, capN := s.tu.capN.put ch ((Tbl.get 0 s.tu.capN ch + 1) % 2 ^ 32) } }

/-- A timestamp as 12 bytes (R14). -/
def stamp (d : Nat) : List Byte := leBytes 2 (d % nsU) ++ leBytes 4 (d % secU / nsU) ++ leBytes 6 (d / secU)

/-! ### Free values and what the device sends -/

/-- A value the manual leaves open at place `site`. -/
def State.freeVal (s : State) (site : Nat) : Nat := Config.free site s.freeN

/-- The next free value is another one. -/
def State.spend (s : State) : State := { s with freeN := s.freeN + 1 }

/-- `n` bytes the manual leaves open at place `site`. -/
def State.freeBytes (s : State) (site n : Nat) : List Byte :=
  (List.range n).map (fun k => BitVec.ofNat 8 (Config.free (1000 * site + k) s.freeN))

/-- The device sends `e`. -/
def State.emit (s : State) (e : Emit) : State := { s with out := e :: s.out }

def State.emits (s : State) (es : List Emit) : State := { s with out := es.reverse ++ s.out }

/-! ### Modes -/

def modeCold : Nat := 1
def modeReload : Nat := 2
def modeShadow : Nat := 3
def modeIdle : Nat := 4
def modeService : Nat := 5
def modeCalibrate : Nat := 6
def modePrint : Nat := 7
def modeThrottle : Nat := 8
def modeHold : Nat := 9
def modeRewind : Nat := 10
def modeStop : Nat := 11
def modeFreeze : Nat := 12

/-- The current major mode (Table 0-5). -/
def State.mode (s : State) : Nat := s.rd Reg.MODE_CUR.mode

/-- Native mode, GP-40 mode (R2). -/
def State.native (s : State) : Bool := s.rd Reg.LX_PERSONA.personality == 1
def State.gp40 (s : State) : Bool := s.rd Reg.LX_PERSONA.personality == 2

/-! ### The mode that a unit runs under (R57, R59) -/

/-- The mode of the units in `mask` of Table 2-4: until its own bit is set a unit keeps the mode before the epoch, and after the
rollback epoch it keeps the epoch's mode until it returns (R67). -/
def unitMode (s : State) (mask : Nat) : Nat :=
  let n := s.rd Reg.EPOCH_STATUS.state
  if s.mode = modeShadow || !s.md.started then s.mode
  else if (n == 2 || (n == 4 && !s.md.rbReached)) && Nat.land s.md.applied mask != mask then s.md.before
  else if n == 4 && s.md.rbReached && Nat.land s.md.applied mask == mask && Nat.land s.md.returned mask != mask then
    s.rd Reg.EPOCH_STATUS.ep_target
  else s.mode

/-! ### Memory (R17): one list of bytes by device address, a byte not listed reading 0. -/

/-- What a byte nothing has written reads as. -/
def Mem.empty : Byte := 0

/-- The byte at `a`. -/
def Mem.get (m : List Host.Cell) (a : Nat) : Byte := Tbl.get Mem.empty m a

/-- The memory with byte `b` at `a`. -/
def Mem.put (m : List Host.Cell) (a : Nat) (b : Byte) : List Host.Cell :=
  if b = Mem.empty then Tbl.del m a else Tbl.put m a b

/-- Addresses strictly rising, no listed byte equal to what an unlisted one reads as. -/
def Mem.wf (m : List Host.Cell) : Bool := Tbl.sorted m && m.all (fun c => c.2 != Mem.empty)

/-- `n` bytes from `a`. -/
def Mem.read (m : List Host.Cell) (a : Nat) : Nat → List Byte
  | 0 => []
  | n + 1 => Mem.get m a :: Mem.read m (a + 1) n

/-- Bytes written from `a` on. -/
def Mem.write (m : List Host.Cell) (a : Nat) : List Byte → List Host.Cell
  | [] => m
  | b :: bs => Mem.write (Mem.put m a b) (a + 1) bs

/-- The areas of Table 1-2. -/
inductive Area where
  | stacks | readingRoom | registers | host | nowhere
  deriving DecidableEq, Repr

def stacksSize : Nat := 0xC_0000_0000
def rrBase : Nat := 0x10_0000_0000
def rrSize : Nat := 0x400_0000
def regBase : Nat := 0x20_0000_0000
def hostBit : Nat := 0x8000_0000_0000_0000

/-- The area that holds device address `a` (Table 1-2). -/
def areaOf (a : Nat) : Area :=
  if a < stacksSize then .stacks
  else if rrBase ≤ a && a < rrBase + rrSize then .readingRoom
  else if regBase ≤ a && a < regBase + 0x100_0000 then .registers
  else if hostBit ≤ a && a < 2 * hostBit then .host
  else .nowhere

/-- Local memory of an engine: the Carrel of Scribe `p`, or the Registrar's (`p` 16), outside the device address space. -/
def localBase (p : Nat) : Nat := 0x1_0000_0000_0000_0000 + p * 0x10_0000

/-- The boot flash, outside the device address space. -/
def flashBase : Nat := 0x1_0000_0000_0000_0000 + 0x1_0000_0000

def State.local (s : State) (p a n : Nat) : Nat := leNat (Mem.read s.mem (localBase p + a) n)

def State.setLocal (s : State) (p a n v : Nat) : State :=
  { s with mem := Mem.write s.mem (localBase p + a) (leBytes n v) }

/-- The Stacks answer with zero and take no write (R359, Table 2-1). -/
def State.frozen (s : State) : Bool := s.on Reg.MEM_STATUS.frozen

/-- The byte an agent of the device reads at device address `a`. -/
def State.peek (s : State) (a : Nat) : Byte :=
  match areaOf a with
  | .stacks => if s.frozen then 0 else Mem.get s.mem a
  | .readingRoom => Mem.get s.mem a
  | .host => Mem.get s.mem a
  | _ => 0

def State.peekBytes (s : State) (a : Nat) : Nat → List Byte
  | 0 => []
  | n + 1 => s.peek a :: s.peekBytes (a + 1) n

/-- An `n`-byte little-endian number at device address `a` (R9). -/
def State.peekNat (s : State) (a n : Nat) : Nat := leNat (s.peekBytes a n)

/-! ### Mirror windows (R414) -/

/-- Device address `a` lies in a mirror window in use. -/
def mirrored (s : State) (a : Nat) : Bool :=
  (List.range 8).any (fun w =>
    let base := s.rd Reg.PAIR_MIR_BASE.mir_base w * 65536
    decide (base ≤ a) && decide (a < base + s.rd Reg.PAIR_MIR_SIZE.mir_size w * 65536))

/-- The active device of a pair, its twin link up. -/
def twinActive (s : State) : Bool :=
  s.on Reg.PAIR_CFG.pair_en && s.rd Reg.PAIR_STATUS.role_now == 1 && !s.on Reg.PAIR_STATUS.twin_lost

/-- The active device has a record for its partner. -/
def State.twin (s : State) (r : TwinRec) : State :=
  if twinActive s then { s with pair := { s.pair with live := s.pair.live ++ [r] } } else s

/-- An agent of the device writes byte `b` at device address `a`: in SHADOW nothing into a mirror window (R414). -/
def State.poke (s : State) (a : Nat) (b : Byte) : State :=
  match areaOf a with
  | .stacks => if s.frozen || (s.mode == modeShadow && mirrored s a) then s else { s with mem := Mem.put s.mem a b }
  | .readingRoom =>
    { s with mem := Mem.put s.mem a b, st := { s.st with rrBad := s.st.rrBad.filter (· != (a - rrBase) / 8) } }
  | .host => { s with mem := Mem.put s.mem a b }
  | _ => s

def State.pokeList (s : State) (a : Nat) : List Byte → State
  | [] => s
  | b :: bs => (s.poke a b).pokeList (a + 1) bs

/-- Runs of bytes inside mirror windows, at most 4,088 to a record (R411): `run` collects the one in progress, newest byte first. -/
def mirrorRuns (s : State) (a : Nat) (run : List Byte) : List Byte → List TwinRec
  | [] => if run = [] then [] else [.stacksWrite (a - run.length) run.reverse]
  | b :: bs =>
    if mirrored s a && decide (run.length < 4088) then mirrorRuns s (a + 1) (b :: run) bs
    else
      let done := if run = [] then [] else [TwinRec.stacksWrite (a - run.length) run.reverse]
      done ++ mirrorRuns s (a + 1) (if mirrored s a then [b] else []) bs

/-- An agent of the device writes bytes from device address `a` on; the active device of a pair mirrors what lies in a window. -/
def State.pokeBytes (s : State) (a : Nat) (bs : List Byte) : State :=
  let s' := s.pokeList a bs
  if twinActive s && areaOf a == .stacks && !s.frozen then
    { s' with pair := { s'.pair with live := s'.pair.live ++ mirrorRuns s a [] bs } }
  else s'

def State.pokeNat (s : State) (a n v : Nat) : State := s.pokeBytes a (leBytes n v)

/-! ### Channels and their entries (Table 0-4) -/

def chSlot (n : Nat) : Nat := n
def chPlane (n : Nat) : Nat := 0x80 + n
def chLane (n : Nat) : Nat := if n < 48 then 0x100 + n else 0x140 + (n - 48)
def chRPort (n : Nat) : Nat := 0x144 + n
def chPort (n : Nat) : Nat := 0x200 + n
def chPipe (n : Nat) : Nat := 0x210 + n
def chAxis (n : Nat) : Nat := 0x300 + n
def chFb (n : Nat) : Nat := 0x310 + n
def chEmu (n : Nat) : Nat := 0x318 + n
def chDl (n : Nat) : Nat := 0x320 + n
def chRing (n : Nat) : Nat := 0x400 + n
def chTrig (n : Nat) : Nat := 0x500 + n
def chScribe (n : Nat) : Nat := 0x600 + n
def chBnd (n : Nat) : Nat := 0x700 + n
def chSens (n : Nat) : Nat := 0x800 + n
def chHead (n : Nat) : Nat := 0x830 + n

/-- The entry of a channel in effect, with `valid` 1. -/
def State.entry (s : State) (ch : Nat) : Option (List Byte) :=
  match Tbl.find s.cat.inEffect ch with
  | some e => if HdrE.valid.on e then some e else none
  | none => none

/-- A channel is in use. -/
def State.inUse (s : State) (ch : Nat) : Bool := (s.entry ch).isSome

/-- A field of the entry in effect of a channel, 0 where none is in use. -/
def State.ent (s : State) (ch : Nat) (f : EF) : Nat := match s.entry ch with | some e => f.get e | none => 0

def State.enti (s : State) (ch : Nat) (f : EF) : Int := match s.entry ch with | some e => f.geti e | none => 0

def State.entOn (s : State) (ch : Nat) (f : EF) : Bool := match s.entry ch with | some e => f.on e | none => false

/-- The entry loaded for a channel takes effect in place of the one before it (R27). -/
def State.catMove (s : State) (ch : Nat) : State :=
  match Tbl.find s.cat.loaded ch with
  | some e =>
    { s with cat := { s.cat with
        inEffect := s.cat.inEffect.put ch e, loaded := Tbl.del s.cat.loaded ch, since := Tbl.del s.cat.since ch } }
  | none => s

/-! ### Engines -/

def registrar : Nat := 16

/-- An engine that exists. -/
def isEngine (p : Nat) : Bool := decide (p ≤ registrar)

def State.eng (s : State) (p : Nat) : Engine := Tbl.get Engine.reset s.engines p

def State.setEng (s : State) (p : Nat) (e : Engine) : State := { s with engines := s.engines.put p e }

/-- A Scribe stands still in P2 (Table 2-3); the Registrar goes on. -/
def dormant (s : State) (p : Nat) : Bool := p < 16 && s.rd Reg.MODE_CUR.power == 2

/-- A meaning that only engines have; a tripped device has no clock for them (R49), nor a Scribe one in P2. -/
def State.onEngine (s : State) (p : Nat) (f : State → State) : Host.Outcome State Fault Refusal :=
  if isEngine p then .next (if s.md.tripped || dormant s p then s else f s) else .fault .noSuchEngine

end Sys2Proof.Machine
end

