-- ==== Sys2Proof/Machine/Slices.lean ====
section
/-! DEFINITION. The indices of rings (R29 to R31), and what rings and other triggers make run: slices, their triggers and the
dispatcher of each engine (R77, R114 to R117, R120). -/

namespace Sys2Proof.Machine

/-! ### Rings (R29 to R34) -/

def mod32 (n : Nat) : Nat := n % 2 ^ 32

/-- (a − b) mod 2³² (R31). -/
def diff32 (a b : Nat) : Nat := (a % 2 ^ 32 + 2 ^ 32 - b % 2 ^ 32) % 2 ^ 32

def State.ring (s : State) (n : Nat) : Ring := Tbl.get Ring.reset s.rings n

def State.setRing (s : State) (n : Nat) (r : Ring) : State := { s with rings := s.rings.put n r }

/-- The ring has a loaded entry with `valid` 1. -/
def State.ringUp (s : State) (n : Nat) : Bool := s.inUse (chRing n)

def State.ringSize (s : State) (n : Nat) : Nat := 2 ^ s.ent (chRing n) RingE.log2Size

/-- Descriptors the ring holds (R31). -/
def State.ringHolds (s : State) (n : Nat) : Nat := diff32 (s.ring n).prod (s.ring n).cons

def State.ringFull (s : State) (n : Nat) : Bool := s.ringHolds n == s.ringSize n

/-- Host software, the Registrar: owner codes of Table 1-5. -/
def ownerHost : Nat := 0xFF
def ownerRegistrar : Nat := 0xFE

/-! ### The areas of a Carrel (Table 3-1, R82) -/

/-- First offset beyond the program area; the slice contexts begin here. -/
def contextBase (p : Nat) : Nat := if p = registrar then 0xFD000 else 0x3D000
def sliceTable (p : Nat) : Nat := if p = registrar then 0xFF000 else 0x3F000
def faultBase (p : Nat) : Nat := if p = registrar then 0xFF400 else 0x3F400

/-- A field of slice table entry `i` (Table 3-14): `n` bytes at `o`. -/
def State.sliceGet (s : State) (p i o n : Nat) : Nat := s.local p (sliceTable p + 32 * i + o) n
def State.slicePut (s : State) (p i o n v : Nat) : State := s.setLocal p (sliceTable p + 32 * i + o) n v

def State.sliceEntry (s : State) (p i : Nat) : Nat := s.sliceGet p i 0 4
def State.sliceTrig (s : State) (p i : Nat) : Nat := s.sliceGet p i 4 1
def State.slicePriority (s : State) (p i : Nat) : Nat := s.sliceGet p i 5 1 % 16
def State.sliceArg (s : State) (p i : Nat) : Nat := s.sliceGet p i 6 2
def State.sliceTarget (s : State) (p i : Nat) : Nat := s.sliceGet p i 8 4
def State.sliceMax (s : State) (p i : Nat) : Nat := s.sliceGet p i 12 2
def State.sliceOn (s : State) (p i : Nat) : Bool := s.sliceGet p i 14 1 % 2 == 1

/-- `enable` of a slice (R114). -/
def State.sliceEnable (s : State) (p i : Nat) (b : Bool) : State :=
  s.slicePut p i 14 1 (s.sliceGet p i 14 1 / 2 * 2 + ofBool b)

def State.slice (s : State) (p i : Nat) : Slice := Tbl.get Slice.reset (s.eng p).slices i

def State.setSlice (s : State) (p i : Nat) (x : Slice) : State :=
  s.setEng p { s.eng p with slices := (s.eng p).slices.put i x }

/-- Local memory bytes `o` to `o + n - 1` touch a word with an uncorrectable error (R81). -/
def localBad (s : State) (p o n : Nat) : Bool := (s.eng p).bad.any (fun w => decide (o < 8 * w + 8) && decide (8 * w < o + n))

/-- Local memory bytes written: a word written whole is good again. -/
def localWrite (s : State) (p o : Nat) (b : List Byte) : State :=
  let e := s.eng p
  let s := if e.bad = [] then s
    else s.setEng p { e with bad := e.bad.filter (fun w => !(decide (o ≤ 8 * w) && decide (8 * w + 8 ≤ o + b.length))) }
  { s with mem := Mem.write s.mem (localBase p + o) b }

/-! ### Physical and logical Scribes (R77) -/

/-- The engine runs slices: the Registrar, or a Scribe in service. -/
def State.inService (s : State) (p : Nat) : Bool :=
  p == registrar || s.rd Reg.SCRIBE_STATE.state p == 1

/-- Slice `i` may run on an engine: any on one that runs slices, the test slice alone on a spare (R125). -/
def State.mayRun (s : State) (p i : Nat) : Bool := s.inService p || (i == 31 && s.rd Reg.SCRIBE_STATE.state p == 0)

/-- The owner code an engine acts under: its logical number, or the Registrar's. -/
def State.agent (s : State) (p : Nat) : Nat :=
  if p = registrar then ownerRegistrar else s.rd Reg.SCRIBE_INFO.logical p

/-- The physical Scribe that serves a logical one. -/
def State.physOf (s : State) (l : Nat) : Option Nat :=
  if l < 16 && s.on Reg.SCRIBE_MAP.valid l then some (s.rd Reg.SCRIBE_MAP.phys l) else none

/-- The engine that an owner code names. -/
def State.engineOf (s : State) (code : Nat) : Option Nat :=
  if code = ownerRegistrar then some registrar else s.physOf code

/-! ### Urgency and dispatch (R117) -/

/-- The urgency of a slice runnable for `w` units under a latency target of `t` ns. -/
def urgencyOf (w t : Nat) : Nat :=
  if 90 * (t * nsU) ≤ 100 * w then 3 else if 75 * (t * nsU) ≤ 100 * w then 2
  else if 50 * (t * nsU) ≤ 100 * w then 1 else 0

/-- The condition of a ring-level slice: the ring is non-empty and this engine is its consumer (Table 3-15). -/
def ringLevel (s : State) (p n : Nat) : Bool :=
  s.ringUp n && s.ringHolds n != 0 && s.ent (chRing n) RingE.consumer == s.agent p

/-- A slice that was made runnable by its ring alone stays so while the ring is non-empty (R115). -/
def stillRunnable (s : State) (p i : Nat) (x : Slice) : Bool :=
  x.since.isSome && s.sliceOn p i && (!x.level || ringLevel s p (s.sliceArg p i))

/-- A ring that holds nothing more, or has another consumer, makes no slice runnable: those it alone had made so are so no longer, and
once it gains descriptors again they count from then; one with a run pending by SYNC.ARM is runnable for that run (R115 to R117). -/
def ringSettle (s : State) (n : Nat) : State :=
  { s with engines := s.engines.map (fun c => (c.1, { c.2 with slices := c.2.slices.map (fun x =>
      if x.2.level && s.sliceArg c.1 x.1 == n && !ringLevel s c.1 n then
        (x.1, { x.2 with since := if x.2.again then some s.clk else none, again := false, level := false, urgency := 0 })
      else x) })) }

/-- Each runnable slice's urgency as the clock now has it. -/
def refreshUrgency (s : State) (p : Nat) : State :=
  s.setEng p { s.eng p with slices := (s.eng p).slices.map (fun c =>
    match c.2.since with
    | some t => (c.1, { c.2 with urgency := urgencyOf (s.clk - t) (s.sliceTarget p c.1) })
    | none => c) }

/-- Slice `a` is dispatched ahead of slice `b` (R117); equal in all, the lower number. -/
def ahead (s : State) (p : Nat) (a b : Nat × Slice) : Bool :=
  let pa := s.slicePriority p a.1
  let pb := s.slicePriority p b.1
  if a.2.urgency ≠ b.2.urgency then decide (b.2.urgency < a.2.urgency)
  else if pa ≠ pb then decide (pb < pa)
  else if a.2.since ≠ b.2.since then decide (a.2.since.getD 0 < b.2.since.getD 0)
  else decide (a.1 < b.1)

/-- The slice to run next. -/
def nextSlice (s : State) (p : Nat) : Option (Nat × Slice) :=
  ((s.eng p).slices.filter (fun c => s.mayRun p c.1 && stillRunnable s p c.1 c.2)).foldl
    (fun best c => match best with
      | none => some c
      | some b => if ahead s p c b then some c else some b) none

/-- g1 to g31 of a slice context (Table 3-1). -/
def loadContext (s : State) (p i : Nat) : Tbl Word :=
  (List.range 31).map (fun k => (k + 1, BitVec.ofNat 64 (s.local p (contextBase p + 256 * i + 8 * k) 8)))

def contextPc (s : State) (p i : Nat) : Nat := s.local p (contextBase p + 256 * i + 248) 8

/-- A run begins: the context is loaded, the vector registers are zero, the run is counted, late or not (R118, R120). -/
def startRun (s : State) (p i : Nat) (x : Slice) : State :=
  let t := x.since.getD s.clk
  let late := decide (s.sliceTarget p i * nsU ≤ s.clk - t)
  let e := s.eng p
  let s := s.setEng p { e with
    g := loadContext s p i, v := [], pc := contextPc s p i, running := some i, readyAt := t, runAt := s.clk,
    slices := e.slices.put i { x with since := none, level := false, wait := .none, urgency := 0 } }
  let s := s.slicePut p i 16 8 (s.sliceGet p i 16 8 + 1)
  if late then (s.slicePut p i 24 4 (s.sliceGet p i 24 4 + 1)).count Reg.SCHED_LATE.late_runs else s

/-- Core cycles per 10 ns: 1.6 GHz, in P2 the Registrar's 100 MHz, and none of a Scribe (R76, Table 2-3). -/
def coreRate (s : State) (p : Nat) : Nat := if s.rd Reg.MODE_CUR.power ≠ 2 then 16 else if p = registrar then 1 else 0

/-- Core cycles ×10 since the engine started. -/
def cyclesNow (s : State) (p : Nat) : Nat := (s.eng p).cycles + (s.clk - (s.eng p).startAt) * coreRate s p / nsU

/-- The power state is about to change: the cycles up to here are counted at the clock that ends. -/
def cyclesTurn (s : State) : State :=
  (List.range 17).foldl (fun s p => s.setEng p { s.eng p with cycles := cyclesNow s p, startAt := s.clk }) s

/-- SLICE_DISPATCH (R117): an idle engine takes its next runnable slice, under the entry last loaded for it (R85). -/
def dispatch (s : State) (p : Nat) : State :=
  if (s.eng p).running.isSome || (s.eng p).halted || (s.eng p).leaving.isSome || !s.mayRun p 31 || dormant s p then s
  else
    let s := refreshUrgency (s.catMove (chScribe p)) p
    match nextSlice s p with
    | some c => startRun s p c.1 c.2
    | none => s

/-! ### Triggers (R115, R116) -/

/-- An edge event reaches a slice: discarded, runnable, one further run, or merged (R116); dropped in P2 (R331). -/
def sliceEvent (s : State) (p i : Nat) : State :=
  let x := s.slice p i
  if !s.sliceOn p i || dormant s p then s
  else if (s.eng p).running == some i || stillRunnable s p i x then
    if x.again then s.slicePut p i 28 4 (s.sliceGet p i 28 4 + 1) else s.setSlice p i { x with again := true }
  else dispatch (s.setSlice p i { x with since := some s.clk, level := false, wait := .none }) p

/-- SLICE_TRIGGER (R115): every enabled slice of this trigger kind whose argument fits takes the event. -/
def triggerSlices (s : State) (kind : Nat) (fits : Nat → Bool) : State :=
  (List.range 17).foldl (fun s p =>
    if s.inService p then
      (List.range 32).foldl (fun s i =>
        if s.sliceOn p i && s.sliceTrig p i == kind && fits (s.sliceArg p i) then sliceEvent s p i else s) s
    else s) s

/-- A ring gained descriptors: the ring-level slices of its consumer become runnable (R115). -/
def ringWake (s : State) (n : Nat) : State :=
  match s.engineOf (s.ent (chRing n) RingE.consumer) with
  | none => s
  | some p =>
    if s.inService p && ringLevel s p n && !dormant s p then
      (List.range 32).foldl (fun s i =>
        let x := s.slice p i
        if s.sliceOn p i && s.sliceTrig p i == 1 && s.sliceArg p i == n && (s.eng p).running != some i &&
            !stillRunnable s p i x && x.wait == .none then
          dispatch (s.setSlice p i { x with since := some s.clk, level := true }) p
        else s) s
    else s

end Sys2Proof.Machine
end

