-- ==== Sys2Proof/Machine/Rings.lean ====
section
/-! DEFINITION. Ledger counters, rings, MSI-X messages and device events: what the other units post and count with. -/

namespace Sys2Proof.Machine

/-! ### Ledger counters (Table 1-11: their offsets name them) -/

namespace Led
def lines (slot i : Nat) : Nat := 0x1000 + slot * 64 + i * 8
def linesOffered (slot : Nat) : Nat := lines slot 0
def linesFired (slot : Nat) : Nat := lines slot 1
def linesSkipped (slot : Nat) : Nat := lines slot 2
def linesCollided (slot : Nat) : Nat := lines slot 3
def linesSwitchover (slot : Nat) : Nat := lines slot 4
def linesWithheld (slot : Nat) : Nat := lines slot 5
def linesHeld (slot : Nat) : Nat := lines slot 6
def drops (plane i : Nat) : Nat := 0x3000 + plane * 64 + i * 8
def dropsOffered (plane : Nat) : Nat := drops plane 0
def dropsFired (plane : Nat) : Nat := drops plane 1
def dropsSkipped (plane : Nat) : Nat := drops plane 2
def dropsWithheld (plane : Nat) : Nat := drops plane 3
def dropsHeld (plane : Nat) : Nat := drops plane 4
def dropsSubstituted (plane : Nat) : Nat := drops plane 5
def creditsGranted (lane : Nat) : Nat := 0x4000 + lane * 32
def creditsUsed (lane : Nat) : Nat := 0x4000 + lane * 32 + 8
def creditsAvailable (lane : Nat) : Nat := 0x4000 + lane * 32 + 16
def descPosted (ring : Nat) : Nat := 0x5000 + ring * 32
def descConsumed (ring : Nat) : Nat := 0x5000 + ring * 32 + 8
def descCompleted (ring : Nat) : Nat := 0x5000 + ring * 32 + 16
def descInFlight (ring : Nat) : Nat := 0x5000 + ring * 32 + 24
def usageUnits (slot : Nat) : Nat := 0x7000 + slot * 16
def usageResidue (slot : Nat) : Nat := 0x7000 + slot * 16 + 8
/-- drops fired by the head in the slot since its authentication: beyond the window (Table 1-10) -/
def usageDrops (slot : Nat) : Nat := 0xA000 + slot * 8
end Led

/-- A live Ledger counter. -/
def State.ledGet (s : State) (off : Nat) : Nat := Tbl.get 0 s.led.live off

def State.ledPut (s : State) (off v : Nat) : State :=
  { s with led := { s.led with live := s.led.live.put off (low 64 v) } }

/-- A Ledger counter counts `n` more. -/
def State.ledAdd (s : State) (off n : Nat) : State := s.ledPut off (s.ledGet off + n)

/-- A Ledger counter counts `n` less, modulo 2⁶⁴: a spare row may fire drops that its print row's decode has still to offer
(Table 4-15), and the counts of the invariant then still add up modulo 2⁶⁴. -/
def State.ledSub (s : State) (off n : Nat) : State := s.ledPut off (s.ledGet off + 2 ^ 64 - low 64 n)

/-- `n` units move from one Ledger counter to another: none is created or lost (R35). -/
def State.ledMove (s : State) (src dst n : Nat) : State := (s.ledSub src n).ledAdd dst n

/-! ### MSI-X (R34) -/

/-- `irq_holdoff` has passed since the last message of the vector. -/
def holdoffPassed (s : State) (n : Nat) (r : Ring) : Bool :=
  match r.lastMsi with
  | none => true
  | some t => decide (t + s.ent (chRing n) RingE.irqHoldoff * usU ≤ s.clk)

/-- Vector `n` is sent. -/
def msiSend (s : State) (n : Nat) : State :=
  (s.setRing n { s.ring n with lastMsi := some s.clk, held := false }).emit (.msix n)

/-- A descriptor of ring `n` with `irq` set reaches its signalling event. -/
def msiEvent (s : State) (n : Nat) : State :=
  if !s.entOn (chRing n) RingE.irqEn then s
  else if s.on Reg.MSIX.mask n then s.wr Reg.MSIX_PBA.pend n 1
  else if holdoffPassed s n (s.ring n) then msiSend s n
  else s.setRing n { s.ring n with held := true }

/-- The message that a masked vector owes goes out once the vector is unmasked and enabled, subject to the holdoff. -/
def msiOwed (s : State) (n : Nat) : State :=
  if s.on Reg.MSIX_PBA.pend n && !s.on Reg.MSIX.mask n && s.entOn (chRing n) RingE.irqEn then msiEvent (s.wr Reg.MSIX_PBA.pend n 0) n else s

/-! ### Descriptors (R29 to R34) -/

/-- Device address of the descriptor with index `i`. -/
def State.descAddr (s : State) (n i : Nat) : Nat :=
  s.ent (chRing n) RingE.base + 32 * (i % s.ringSize n)

/-- The fields of a ring descriptor (Table 1-8). -/
structure Desc where
  addr : Nat
  length : Nat
  opcode : Nat
  irq : Bool
  chain : Bool
  tag : Nat
  status : Nat
  result : Nat
  deriving DecidableEq, Repr

def Desc.bytes (d : Desc) (seq : Nat) : List Byte :=
  leBytes 8 d.addr ++ leBytes 4 d.length ++ leBytes 2 d.opcode ++ leBytes 1 (ofBool d.irq + 2 * ofBool d.chain) ++
  leBytes 1 seq ++ leBytes 8 d.tag ++ leBytes 4 d.status ++ leBytes 4 d.result

def Desc.ofBytes (b : List Byte) : Desc :=
  let n (o k : Nat) := leNat ((b.drop o).take k)
  { addr := n 0 8, length := n 8 4, opcode := n 12 2, irq := bit (n 14 1) 0, chain := bit (n 14 1) 1, tag := n 16 8,
    status := n 24 4, result := n 28 4 }

/-- The descriptor at index `i` of ring `n`. -/
def State.desc (s : State) (n i : Nat) : Desc := Desc.ofBytes (s.peekBytes (s.descAddr n i) 32)

/-- `k` descriptors are published: the producer index moves, `desc_posted` counts them, and on a ring that host software
consumes a descriptor with `irq` raises the vector (R34); the consumer's ring-level slices become runnable (R115). -/
def ringPublish (s : State) (n k : Nat) (irq : Bool) : State :=
  let r := s.ring n
  let s := (s.setRing n { r with prod := mod32 (r.prod + k) }).ledAdd (Led.descPosted n) k
  ringWake (if irq && s.ent (chRing n) RingE.consumer == ownerHost then msiEvent s n else s) n

/-- The device posts a descriptor on a ring that has room (R30). -/
def ringPost (s : State) (n : Nat) (d : Desc) : State :=
  let p := (s.ring n).prod
  ringPublish (s.pokeBytes (s.descAddr n p) (d.bytes (p % 256))) n 1 d.irq

/-- A ring that the device can post on: a valid loaded entry, and room. -/
def State.ringOpen (s : State) (n : Nat) : Bool := s.ringUp n && !s.ringFull n

/-- The consumer takes the descriptor at the consumer index: consumed, and in flight until completed (Table 1-10). -/
def ringTake (s : State) (n agent : Nat) : State :=
  let r := s.ring n
  let s := s.setRing n { r with cons := mod32 (r.cons + 1), flight := r.flight ++ [(r.cons, agent)] }
  (ringSettle s n).ledAdd (Led.descConsumed n) 1 |>.ledAdd (Led.descInFlight n) 1

/-- A descriptor taken is completed with `status` and `result`, and with `irq` raises the vector (R30, R34). -/
def ringComplete (s : State) (n i status result : Nat) : State :=
  let r := s.ring n
  if r.flight.any (fun p => p.1 == i) then
    let d := s.desc n i
    let s := s.setRing n { r with flight := r.flight.filter (fun p => p.1 != i) }
    let s := (s.pokeNat (s.descAddr n i + 24) 4 status).pokeNat (s.descAddr n i + 28) 4 result
    let s := s.ledMove (Led.descInFlight n) (Led.descCompleted n) 1
    if d.irq && s.ent (chRing n) RingE.consumer != ownerHost then msiEvent s n else s
  else s

/-! ### The GP-40's own interrupts (R494, R495) -/

/-- A bit of GP_INT_STAT is set; with its enable and `int_en`, the interrupt is sent. -/
def gpInt (s : State) (f : Fld) : State :=
  if !s.gp40 then s
  else
    let s := s.wr f 0 1
    if s.on Reg.GP_CTRL.int_en && bit (s.rd Reg.GP_INT_EN.int_mask) f.lsb then s.emit (.gpInterrupt) else s

/-- `running` of GP_STATUS (Table 16-4). -/
def gpRunning (s : State) : Bool :=
  s.gp40 && (s.mode == modePrint || s.mode == modeThrottle || s.mode == modeRewind || s.mode == modeHold)

/-! ### Device events on ring 0x00 (R523) -/

/-- Ring 0x00 can take an event: a valid loaded entry and room; in FREEZE only host memory takes it (R360), and a tripped device, its PCIe
endpoint stopped, posts none (R49). -/
def eventsOpen (s : State) : Bool :=
  !s.md.tripped && s.ringOpen 0 && (!s.frozen || decide (hostBit ≤ s.ent (chRing 0) RingE.base))

/-- The descriptor of an event (Table 1-16). -/
def Event.desc (e : Event) : Desc :=
  { addr := low 48 e.line + 2 ^ 48 * low 12 e.chan, length := low 32 e.evA, opcode := low 16 e.code, irq := true,
    chain := false, tag := low 64 e.time, status := 0, result := low 32 e.evB }

def postEventNow (s : State) (e : Event) : State := ringPost s 0 e.desc

/-- Held events go out in order while the ring takes them, then the count of those lost (R523). -/
def flushEvents : List Event → State → State
  | [], s =>
    if s.evLost = 0 then { s with evHeld := [] }
    else if eventsOpen s then
      { postEventNow s { code := 4, chan := 0xFFF, line := 0, evA := s.evLost, evB := 0, time := s.devNs } with
        evHeld := [], evLost := 0 }
    else { s with evHeld := [] }
  | e :: es, s => if eventsOpen s then flushEvents es (postEventNow s e) else { s with evHeld := e :: es }

def State.flushEvents (s : State) : State := Machine.flushEvents s.evHeld s

/-- No channel (Table 1-17). -/
def noChan : Nat := 0xFFF

/-- A fault that HEALTH counts (Table 13-3, R124): a Scribe fault, a logical Scribe lost, a lane failure, a bank retirement, a Bindery unit suspect. -/
def State.faultCount (s : State) : State := { s with pair := { s.pair with faults := s.pair.faults + 1 } }

/-- The device raises an event: posted, or held while ring 0x00 cannot take it, or lost beyond 64 held (R523). -/
def State.event (s : State) (code chan line evA evB : Nat) : State :=
  let e : Event := { code, chan, line, evA, evB, time := s.devNs }
  let s := if code == 0x0101 || code == 0x0104 || code == 0x0804 || code == 0x0901 then s.faultCount else s
  if s.evHeld = [] && s.evLost == 0 && eventsOpen s then postEventNow s e
  else if s.evHeld.length < 64 && s.evLost == 0 then { s with evHeld := s.evHeld ++ [e] }
  else { s with evLost := s.evLost + 1 }

/-! ### The check of a snapshot (R39) -/

/-- The invariants of Table 1-10 that counters `c` break: the quantity of event 0x0003, and the channel. Lines and drops are checked for
every job that has counters. -/
def ledBroken (c : Tbl Nat) : List (Nat × Nat) :=
  let g (o : Nat) : Nat := Tbl.get 0 c o
  let same (a b : Nat) : Bool := low 64 a == low 64 b
  let find (n quantity : Nat) (chan : Nat → Nat) (holds : Nat → Bool) : List (Nat × Nat) :=
    ((List.range n).filter (fun k => !holds k)).map (fun k => (quantity, chan k))
  let jobs := (c.map (fun x => x.1 / 65536 * 65536)).eraseDups
  find 80 1 chSlot (fun k => jobs.all (fun j =>
    same (g (j + Led.linesOffered k))
      (g (j + Led.linesFired k) + g (j + Led.linesSkipped k) + g (j + Led.linesWithheld k) + g (j + Led.linesHeld k)))) ++
  find 16 2 chPlane (fun k => jobs.all (fun j =>
    same (g (j + Led.dropsOffered k))
      (g (j + Led.dropsFired k) + g (j + Led.dropsSkipped k) + g (j + Led.dropsWithheld k) + g (j + Led.dropsHeld k)))) ++
  find 52 3 chLane (fun k => same (g (Led.creditsGranted k)) (g (Led.creditsUsed k) + g (Led.creditsAvailable k))) ++
  find 256 4 chRing (fun k =>
    same (g (Led.descPosted k)) (g (Led.descConsumed k) + g (0x9000 + k)) &&
    same (g (Led.descConsumed k)) (g (Led.descCompleted k) + g (Led.descInFlight k))) ++
  find 80 5 chSlot (fun k => same (g (Led.usageUnits k) * 65536 + g (Led.usageResidue k)) (g (Led.usageDrops k)))

/-- A snapshot is checked: what it breaks sets `ledger_mismatch` and is posted. -/
def ledCheck (s : State) (c : Tbl Nat) (line : Nat) : State :=
  (ledBroken c).foldl (fun s b => (s.wr Reg.LEDGER_SNAP.ledger_mismatch 0 1).event 0x0003 b.2 line b.1 0) s

end Sys2Proof.Machine
end

