-- ==== Sys2Proof/Machine/RingOps.lean ====
section
/-! DEFINITION. Ring frames as the device sends them (R334, R337, Tables 9-6 and 9-7). -/

namespace Sys2Proof.Machine

def rtNeighbor : Nat := 1
def rtEpoch : Nat := 2
def rtRollback : Nat := 3

/-- A 16-bit value, most significant byte first. -/
def be16 (n : Nat) : List Byte := [BitVec.ofNat 8 (n / 256), BitVec.ofNat 8 n]

/-- The device's MAC address as sent: RING_MAC_HI bytes 5 and 4, then bytes 3 to 0. -/
def macBytes (s : State) : List Byte := (leBytes 6 (s.rd2 Reg.RING_MAC_LO.mac_lo Reg.RING_MAC_HI.mac_hi)).reverse

/-- The node number as frames carry it: 0x3FFF until it is fixed (R334). -/
def nodeNow (s : State) : Nat := if s.on Reg.RING_NODE.learned then s.rd Reg.RING_NODE.node else 0x3FFF

/-- A frame padded to the Ethernet minimum of 60 bytes, check sequence apart. -/
def padFrame (b : List Byte) : List Byte := b ++ List.replicate (60 - b.length) 0

/-- The bytes of a ring frame of this device (Table 9-6). -/
def ringFrame (s : State) (rtype : Nat) (body : List Byte) : List Byte :=
  padFrame ([0x03, 0x42, 0x52, 0, 0, 0] ++ macBytes s ++ be16 (s.rd Reg.RING_CFG.ethertype) ++ leBytes 1 1 ++
    leBytes 1 rtype ++ leBytes 2 (nodeNow s) ++ leBytes 2 s.net.rseq ++ leBytes 1 255 ++ leBytes 1 0 ++
    leBytes 2 body.length ++ body)

/-- A ring port carries frames: link up, and its entry, where loaded, with `rport_en` 1. -/
def rportOpen (s : State) (k : Nat) : Bool :=
  s.rd Reg.RING_PORT_STATE.rlink k == 2 && (!s.inUse (chRPort k) || s.entOn (chRPort k) RPortE.rportEn)

/-- A frame leaves by port `k`, its check sequence after it. -/
def ringOut (s : State) (k : Nat) (frame : List Byte) : State :=
  if rportOpen s k then s.emit (.ringFrame k (frame ++ leBytes 4 (crc32 frame))) else s

def nextRseq (s : State) : State := { s with net := { s.net with rseq := (s.net.rseq + 1) % 65536 } }

/-- A link frame out of one port (R334). -/
def linkSend (s : State) (k rtype : Nat) (body : List Byte) : State := ringOut (nextRseq s) k (ringFrame s rtype body)

/-- A ring frame out of both ports: only with the node number fixed and 1.0 s after cold start (R334, R337). -/
def ringSend (s : State) (rtype : Nat) (body : List Byte) : State :=
  if s.on Reg.RING_NODE.learned && decide (s.net.coldAt + secU ≤ s.clk) then
    let f := ringFrame s rtype body
    ringOut (ringOut (nextRseq s) 0 f) 1 f
  else s

end Sys2Proof.Machine
end

