-- ==== Sys2Proof/Machine/Sched.lean ====
section
/-! DEFINITION. Slices, their triggers and the dispatcher (R114 to R120), faults of a Scribe (R112, R123), and the start of a logical
Scribe from its Carrel image (R121 to R127). -/

namespace Sys2Proof.Machine

/-! ### The end of a run (R118) -/

/-- g1 to g31 and the pc of the next run go into the slice's context. -/
def saveContext (s : State) (p i pc : Nat) : State :=
  let g := ((List.range 31).map (fun k => leBytes 8 (Tbl.get 0#64 (s.eng p).g (k + 1)).toNat)).flatten
  localWrite s p (contextBase p + 256 * i) (g ++ leBytes 8 pc)

/-- The run of slice `i` ends: its next run starts at `pc`, and `x` says how the slice goes on. Disabled by then, it does not become
runnable (R116); the test slice of a Scribe is runnable again at once (R125). -/
def endRun (s : State) (p i pc : Nat) (x : Slice) : State :=
  let s := saveContext s p i pc
  let s := s.setEng p { s.eng p with running := none }
  let x := if s.sliceOn p i then x else { x with since := none, level := false, again := false }
  let x := if i = 31 && decide (p < 16) && x.wait == .none && s.sliceOn p i then { x with since := some s.clk, level := false } else x
  let x := if x.again && x.since.isNone then { x with since := some s.clk, again := false } else x
  let x := if x.since.isNone && x.wait == .none && s.sliceOn p i && s.sliceTrig p i == 1 &&
              ringLevel s p (s.sliceArg p i)
           then { x with since := some s.clk, level := true } else x
  dispatch (s.setSlice p i x) p

/-- The engine's running slice, if any, ends its run. -/
def endRunning (s : State) (p pc : Nat) (f : Slice → Slice) : State :=
  match (s.eng p).running with
  | some i => endRun s p i pc (f (s.slice p i))
  | none => s

/-! ### Retiring and starting Scribes (R121 to R127) -/

/-- The lowest physical Scribe held spare. -/
def spareScribe (s : State) : Option Nat :=
  (List.range 16).find? (fun p => s.rd Reg.SCRIBE_STATE.state p == 0 && (s.eng p).leaving.isNone)

/-- SCRIBE_RETIRE (R123, R124): dispatch stops and a spare is taken, or the logical Scribe goes out of service; a spare that fails is
retired and serves none. -/
def scribeRetire (s : State) (p reason : Nat) : State :=
  if (s.eng p).leaving.isSome then s
  else if s.rd Reg.SCRIBE_STATE.state p = 0 then (s.setEng p { s.eng p with running := none, slices := [] }).wr Reg.SCRIBE_STATE.state p 2
  else if s.rd Reg.SCRIBE_STATE.state p ≠ 1 then s
  else
    let l := s.rd Reg.SCRIBE_INFO.logical p
    match spareScribe s with
    | some q =>
      (s.setEng p { s.eng p with leaving := some (q, reason) }).wr Reg.SCRIBE_STATE.state q 3
    | none =>
      let s := (s.wr Reg.SCRIBE_STATE.state p 2).wr Reg.SCRIBE_MAP.valid l 0
      (s.setEng p { s.eng p with running := none, lost := true }).event 0x0104 (chScribe p) 0 l 0

/-- SCRIBE_FAULT (R112): the run ends at the faulting instruction, the slice is disabled, the record is written and the
event posted; fault limit and fault 0x04 retire the Scribe (R123). -/
def scribeFault (s : State) (p cause word off : Nat) : State :=
  match (s.eng p).running with
  | none => s
  | some i =>
    let e := s.eng p
    let l := s.agent p % 16
    let a := faultBase p + 64 * (e.faults % 16)
    let s := s.sliceEnable p i false
    let rec_ := leBytes 8 s.devNs ++ leBytes 4 e.pc ++ leBytes 4 (if cause = 4 then 0 else word) ++ leBytes 1 cause ++ leBytes 1 i ++
      leBytes 1 l ++ leBytes 1 p ++ leBytes 4 0 ++ leBytes 8 off ++ leBytes 32 0
    let s := localWrite s p a rec_
    let times := (s.clk :: e.faultTimes).filter (fun t => decide (s.clk < t + secU))
    let s := s.setEng p { s.eng p with faults := e.faults + 1, faultTimes := times }
    let s := (s.wr Reg.SCRIBE_INFO.faults p (sat 8 (s.rd Reg.SCRIBE_INFO.faults p + 1))).wr
      Reg.SCRIBE_INFO.last_cause p cause
    let s := s.event 0x0101 (chScribe p) 0 (cause + 256 * i + 65536 * l) e.pc
    let s := if cause = 4 then scribeRetire s p 2
      else if s.ent (chScribe p) ScribeE.faultLimit ≤ times.length then scribeRetire s p 1 else s
    endRun s p i (e.pc + 4) Slice.reset

/-! ### Carrel images (R126, R127) -/

/-- A window of a Scribe entry (Table 3-2): base, log2 size, rights. -/
def winBase (e : List Byte) (n : Nat) : Nat := leNat ((e.drop (16 + 12 * (n - 1))).take 8)
def winLog2 (e : List Byte) (n : Nat) : Nat := leNat ((e.drop (16 + 12 * (n - 1) + 8)).take 1)
def winRights (e : List Byte) (n : Nat) : Nat := leNat ((e.drop (16 + 12 * (n - 1) + 9)).take 1)

/-- The number of the first check of R127 that an image fails for the Scribe with entry `e`, 0 when none (Table 1-17). DESIGN CHOICE (log
137): a reserved bit of `caps_needed` counts as any bit does. -/
def imageCheck (s : State) (e : List Byte) : Nat :=
  let a := ScribeE.carrelImage.get e
  let h (o n : Nat) := s.peekNat (a + o) n
  if h 0 4 ≠ 0x4F4C4D4B || h 4 2 ≠ 1 || crc32 (s.peekBytes (a + 64) (h 8 4 + 32 * h 12 1)) ≠ h 28 4 then 1
  else if 1 < h 7 1 then 2
  else if 0x3D000 < h 8 4 + h 24 4 then 3
  else if Nat.land (h 16 4) (ScribeE.caps.get e) ≠ h 16 4 then 4
  else if (List.range 7).any (fun k => bit (h 20 4) (k + 1) && winLog2 e (k + 1) == 0) then 5
  else 0

/-- The table entry of the vendor's test slice (R114, R125): enabled, priority 0, target 100 ms, the longest run allowed, and `trig` 0, for it
runs as Scribes are idle (log 125). Its `entry`, the vendor's, is a free value; the context's pc is at it. -/
def testSlice (s : State) (p : Nat) : State :=
  let e := Config.testEntry % 0xF400 * 4
  let s := localWrite s p (sliceTable p + 32 * 31) (leBytes 4 e ++ leBytes 4 0 ++ leBytes 4 100000000 ++ leBytes 2 2000 ++ leBytes 2 1 ++
    List.replicate 16 0)
  s.setLocal p (contextBase p + 256 * 31 + 248) 8 e

/-- The Carrel of Scribe `p` loaded from its image: load contents, zeroed data, cleared contexts each with its pc at the
slice's entry, slice table, the test slice, clean dispatcher (R121, R125). -/
def loadCarrel (s : State) (p : Nat) (e : List Byte) : State :=
  let a := ScribeE.carrelImage.get e
  let load := s.peekNat (a + 8) 4
  let n := s.peekNat (a + 12) 1
  let zeroes := s.peekNat (a + 24) 4
  let tab := s.peekBytes (a + 64 + load) (32 * n)
  let m := Mem.write s.mem (localBase p) (s.peekBytes (a + 64) load ++ List.replicate zeroes 0)
  let m := Mem.write m (localBase p + contextBase p) (List.replicate 8192 0)
  let m := Mem.write m (localBase p + sliceTable p) (tab ++ List.replicate (1024 - 32 * n) 0)
  let s := { s with mem := m }
  let s := (List.range n).foldl (fun s i => s.setLocal p (contextBase p + 256 * i + 248) 8 (s.sliceEntry p i)) s
  let s := testSlice s p
  s.setEng p { Engine.reset with startAt := s.clk, faults := (s.eng p).faults, faultTimes := (s.eng p).faultTimes }

/-- A spare runs the test slice continuously (R125). -/
def spareGoes (s : State) (p : Nat) : State :=
  if s.rd Reg.SCRIBE_STATE.state p = 0 then
    let s := testSlice (s.setEng p { Engine.reset with startAt := s.clk, faults := (s.eng p).faults, faultTimes := (s.eng p).faultTimes }) p
    dispatch (s.setSlice p 31 { Slice.reset with since := some s.clk }) p
  else s

/-- Descriptors that an agent popped and did not complete are completed with 0xFFFF_0001 (R122); their `result`, not stated, becomes 0
(DESIGN CHOICE, log 123). -/
def dropPopped (s : State) (agent : Nat) : State :=
  s.rings.foldl (fun s c => (c.2.flight.filter (fun x => x.2 == agent)).foldl
    (fun s x => ringComplete s c.1 x.1 0xFFFF0001 0) s) s

/-- Logical Scribe `l` begins to start on physical Scribe `p` from its image, or the failed check is posted (R127).
Dispatch begins at SCRIBE_RESTART_COMPLETE. -/
def scribeStart (s : State) (l p : Nat) : State :=
  match s.entry (chScribe p) with
  | none => s
  | some e =>
    let c := imageCheck s e
    if c = 0 then
      let s := loadCarrel s p e
      ((s.wr Reg.SCRIBE_STATE.state p 3).wr Reg.SCRIBE_INFO.logical p l).wr Reg.SCRIBE_MAP.phys l p
    else (s.event 0x0105 (chScribe p) 0 (l + 256 * c) 0)

/-- A Scribe takes up dispatch: its ring-level slices that can run do. -/
def scribeGoes (s : State) (p : Nat) : State :=
  dispatch ((List.range 32).foldl (fun s i =>
    let x := s.slice p i
    if s.sliceOn p i && s.sliceTrig p i == 1 && ringLevel s p (s.sliceArg p i) && x.since.isNone && x.wait == .none &&
        (s.eng p).running != some i then
      s.setSlice p i { x with since := some s.clk, level := true } else s) s) p

/-- Dispatch goes on after P2. -/
def scribesWake (s : State) : State :=
  (List.range 16).foldl (fun s p => if s.inService p then scribeGoes s p else dispatch s p) s

/-- A started Scribe dispatches: it is in service, its test slice runnable (R125). -/
def scribeServe (s : State) (l p : Nat) : State :=
  let s := ((s.wr Reg.SCRIBE_STATE.state p 1).wr Reg.SCRIBE_INFO.logical p l).wr Reg.SCRIBE_MAP.phys l p
  let s := s.setSlice p 31 { s.slice p 31 with since := some s.clk, level := false, wait := .none }
  scribeGoes (s.wr Reg.SCRIBE_MAP.valid l 1) p

/-- A physical Scribe that a substitution in progress has taken. -/
def scribeTaken (s : State) (q : Nat) : Bool :=
  (List.range 16).any (fun p => match (s.eng p).leaving with | some (r, _) => r == q | none => false)

/-- Logical Scribes mapped onto physical ones, those still starting among them: at most 14 (R77). -/
def scribesMapped (s : State) : Nat :=
  ((List.range 16).filter (fun l => s.on Reg.SCRIBE_MAP.valid l || (List.range 16).any (fun p =>
    s.rd Reg.SCRIBE_STATE.state p == 3 && s.rd Reg.SCRIBE_INFO.logical p == l && !scribeTaken s p))).length

/-- Counters of SCRIBE_COUNT: logical Scribes in service, healthy spares; none is counted before the start-up ends (Table 3-18). -/
def scribesInService (s : State) : Nat := ((List.range 16).filter (fun l => s.on Reg.SCRIBE_MAP.valid l)).length
def scribeSpares (s : State) : Nat :=
  if s.mode = modeCold || s.mode = modeReload then 0 else ((List.range 16).filter (fun p => s.rd Reg.SCRIBE_STATE.state p == 0)).length

end Sys2Proof.Machine
end

