-- ==== Sys2Proof/Machine/TimeOps.lean ====
section
/-! DEFINITION. Device time and time triggers (R311 to R332): steps, schedules and firings. -/

namespace Sys2Proof.Machine

/-- Device time as seconds, nanoseconds and 2⁻¹⁶ ns. -/
def secOf (d : Nat) : Nat := d / secU
def nsOf (d : Nat) : Nat := d % secU / nsU
def subOf (d : Nat) : Nat := d % nsU

/-- Device time from seconds and nanoseconds. -/
def devOf (sec ns : Nat) : Nat := sec * secU + ns * nsU

/-- An epoch is outstanding: `state` reads Pending, Applying or Rolling back (R60). -/
def epochOutstanding (s : State) : Bool :=
  s.rd Reg.EPOCH_STATUS.state == 1 || s.rd Reg.EPOCH_STATUS.state == 2 || s.rd Reg.EPOCH_STATUS.state == 4

/-! ### Time triggers -/

def State.trig (s : State) (k : Nat) : Trig := Tbl.get Trig.reset s.tu.trigs k

def State.setTrig (s : State) (k : Nat) (x : Trig) : State :=
  ({ s with tu := { s.tu with trigs := s.tu.trigs.put k x } }).wrb Reg.TRIG_STATE.armed k x.next.isSome

/-- First firing and period of an entry, 2⁻¹⁶ ns (Table 9-3); period 0 is one-shot. -/
def trigFirst (s : State) (k : Nat) : Nat := s.ent (chTrig k) TrigE.tFirst * nsU + s.ent (chTrig k) TrigE.tFirstFrac
def trigPeriod (s : State) (k : Nat) : Nat :=
  if s.ent (chTrig k) TrigE.periodNs = 0 then 0
  else s.ent (chTrig k) TrigE.periodNs * nsU + s.ent (chTrig k) TrigE.periodFrac

/-- The count of an entry, `none` for no limit. -/
def trigCount (s : State) (k : Nat) : Option Nat :=
  if s.ent (chTrig k) TrigE.count = 0 then none else some (s.ent (chTrig k) TrigE.count)

/-- The first time of the grid from `grid` by `period` at or after `now`. -/
def gridFrom (grid period now : Nat) : Nat :=
  if now ≤ grid then grid else grid + (now - grid + period - 1) / period * period

/-- A loaded entry replaces the schedule (R328). -/
def trigLoad (s : State) (k : Nat) : State :=
  let first := trigFirst s k
  let per := trigPeriod s k
  let now := s.devTime
  if !s.entOn (chTrig k) TrigE.trigEn then s.setTrig k Trig.reset
  else if per = 0 then
    let s := if first < now then s.count Reg.TRIG_STATE.late_loads k else s
    s.setTrig k { next := some first, grid := first, left := trigCount s k }
  else s.setTrig k { next := some (gridFrom first per now), grid := first, left := trigCount s k }

/-- The schedule of a trigger after a firing at `x`. -/
def Trig.fired (per x : Nat) (g : Trig) : Trig :=
  let left := g.left.map (· - 1)
  if per = 0 || left == some 0 then { g with next := none, left } else { g with next := some (x + per), left }

/-- What a firing does whatever its action: capture of the grid time, count, the slices and the Drive Link ports that name the
trigger (R326). -/
def trigEvent (s : State) (k x : Nat) : State :=
  let s := (s.capture (0x80 + k) x).countMod Reg.TRIG_FIRINGS.firings k
  let s := (List.range 4).foldl (fun s p =>
    if s.entOn (chDl p) DlE.portEn && s.ent (chDl p) DlE.trig == k then
      let d := { Tbl.get DrivePort.reset s.mot.ports p with due := true }
      { s with mot := { s.mot with ports := s.mot.ports.put p d } }
    else s) s
  triggerSlices s 2 (fun arg => arg == k)

/-- A firing of trigger `k` that is due. -/
def trigFire (s : State) (k : Nat) : State :=
  match (s.trig k).next with
  | some x =>
    if x ≤ s.devTime then trigEvent (s.setTrig k ((s.trig k).fired (trigPeriod s k) x)) k x else s
  | none => s

/-- TIME.ARM (R329): the next firing at `ns`, the grid from there, the count anew. -/
def trigArm (s : State) (k ns : Nat) : State :=
  s.setTrig k { next := some (ns * nsU), grid := ns * nsU, left := trigCount s k }

def trigArmOk (s : State) (k : Nat) : Bool := decide (k < 62) && s.entOn (chTrig k) TrigE.trigEn

/-- The Catalog table. -/
def catBase (s : State) : Nat := s.rd Reg.CAT_BASE_HI.base_hi * 2 ^ 32 + s.rd Reg.CAT_BASE_LO.base_lo * 2 ^ 19

/-- Where the entry of a channel stands in the Catalog table (R22). -/
def entryAddr (s : State) (ch : Nat) : Nat := catBase s + 128 * ch

/-- The check of an entry: CRC-32 over its 128 bytes with the check taken as zero. -/
def entryCheck (e : List Byte) : Nat := crc32 (e.take 12 ++ List.replicate 4 0 ++ e.drop 16)

/-- The entry with which the Registrar marks an instant of an epoch on trigger `k` (R330): owner 0xFE, `host_ro` 1, one firing, no action. -/
def markEntry (k gen at_ : Nat) : List Byte :=
  let e := leBytes 2 (chTrig k) ++ leBytes 1 0x0D ++ leBytes 1 1 ++ leBytes 4 gen ++ leBytes 1 3 ++ leBytes 1 ownerRegistrar ++ leBytes 6 0 ++
    leBytes 8 (at_ / nsU) ++ leBytes 2 (at_ % nsU) ++ leBytes 10 0 ++ leBytes 1 1 ++ List.replicate 91 0
  e.take 12 ++ leBytes 4 (entryCheck e) ++ e.drop 16

/-- Trigger 62 or 63 is set for an instant of the epoch, its entry written and in effect. -/
def epochMark (s : State) (k at_ : Nat) : State :=
  let gen := match Tbl.find s.cat.inEffect (chTrig k) with | some o => HdrE.generation.get o + 1 | none => 1
  let e := markEntry k (low 32 gen) at_
  let s := s.pokeBytes (entryAddr s (chTrig k)) e
  let s := { s with cat := { s.cat with inEffect := s.cat.inEffect.put (chTrig k) e } }
  s.setTrig k { next := some at_, grid := at_, left := none }

/-! ### Steps of device time (R324) -/

/-- A trigger as a step to `now` leaves it: a periodic one moves along its grid, passed times counted in `missed`. -/
def trigStep (s : State) (now k : Nat) : State :=
  match (s.trig k).next with
  | none => s
  | some x =>
    let per := trigPeriod s k
    if per = 0 || k = 62 || k = 63 then s
    else
      let g := (s.trig k).grid
      let n := gridFrom g per now
      let passed := if x < n then (n - x) / per else 0
      (s.setTrig k { s.trig k with next := some n }).count Reg.TRIG_STATE.missed k passed

/-- Device time steps to `now`. -/
def timeStep (s : State) (now : Nat) : State :=
  let old := s.devTime
  let d : Int := (now : Int) - old
  let s := s.capture 0x58 old
  let off := (now : Int) - s.clk
  let s := { s with timeOff := off, tu := { s.tu with rateFrom := s.clk, offFrom := off } }
  let s := s.count Reg.TIME_TRACE.steps
  let ns := unsigned 64 (d / nsU)
  let s := s.event 0x0701 noChan 0 (low 32 ns) (ns / 2 ^ 32)
  (List.range 64).foldl (fun s k => trigStep s now k) s

end Sys2Proof.Machine
end

