-- ==== Sys2Proof/Machine/Accession.lean ====
section
/-! DEFINITION. Accession records (R239 to R243): their numbers, their bytes and their delivery on ring 0x03. -/

namespace Sys2Proof.Machine

/-- What the region that a record is raised for says of it (Table 6-12). -/
structure AccRegion where
  time : Nat
  wp : Int
  line : Nat
  span : Nat
  xpos : Int
  width : Nat
  seam : Bool
  cont : Bool
  severity : Nat
  area : Nat
  pipe : Nat
  deriving DecidableEq, Repr

/-- The next accession number's second and count (R240): the first record since the classifier started counts from 0. -/
def accNext (s : State) : Nat × Nat :=
  let now := secOf s.devTime
  let last := s.loops.accSec
  if s.loops.accN = 0 || last < now then (now, 0)
  else if s.loops.accSeq + 1 < 2 ^ 18 then (last, s.loops.accSeq + 1)
  else (last + 1, 0)

/-- The marks that a page has had posted: its later records carry them (R243). -/
def pageMarks (s : State) (job page : Nat) : Nat :=
  (s.loops.marked.find? (fun x => x.1 == job && x.2.1 == page)).elim 0 (·.2.2)

/-- Byte 47 and its neighbours: what neither region nor page gives is free. -/
def accFlags (s : State) (r : Option AccRegion) (pg : Option (Nat × Nat)) (acted : Bool) : Nat :=
  let mark := match pg with | some p => pageMarks s p.1 p.2 % 4 | none => s.freeVal 121 % 4
  let joined := match r with | some x => ofBool x.seam + 2 * ofBool x.cont | none => s.freeVal 120 % 4
  mark + 4 * joined + 16 * ofBool (!s.on Reg.TIME_STATE.traced) + 32 * ofBool acted

/-- A record of class `cls` is raised on ring 0x03: `r` the region it is raised for, `pg` job and page where they are known. What the manual
does not say of a record without them is free. -/
def accession (s : State) (cls plane : Nat) (noz : Option Nat) (acted : Bool) (r : Option AccRegion) (pg : Option (Nat × Nat)) : State :=
  if !s.ringOpen 3 then s
  else
    let (sec, seq) := accNext s
    let num := low 14 (nodeNow s) * 2 ^ 50 + low 32 sec * 2 ^ 18 + seq
    let a := s.rd Reg.INSP_ACC_BASE_LO.acc_base_lo * 64 + s.rd Reg.INSP_ACC_BASE_HI.acc_base_hi * 2 ^ 32 + 64 * (s.loops.accN % s.ringSize 3)
    let place := match r with
      | some x => leBytes 8 x.time ++ leBytes 8 (unsigned 64 x.wp) ++ leBytes 6 x.line ++ leBytes 2 (sat 16 x.span)
      | none => s.freeBytes 122 24
    let page := match pg with | some p => leBytes 4 p.1 ++ leBytes 4 p.2 | none => s.freeBytes 119 8
    let across := match r with | some x => leBytes 4 (unsigned 32 x.xpos) ++ leBytes 2 x.width | none => s.freeBytes 118 6
    let size := match r with | some x => leBytes 2 x.severity ++ leBytes 2 (sat 16 x.area) | none => s.freeBytes 123 4
    let pipe := match r with | some x => x.pipe % 16 | none => s.freeVal 124 % 16
    let body := leBytes 8 num ++ place ++ page ++ across ++ leBytes 1 cls ++ leBytes 1 (accFlags s r pg acted) ++ size ++
      leBytes 1 plane ++ leBytes 1 (pipe + 16 * ofBool noz.isSome) ++ leBytes 3 (noz.getD 0) ++ leBytes 6 0
    let s := { s.spend with loops := { s.loops with accSec := sec, accSeq := seq, accN := s.loops.accN + 1 } }
    let s := s.pokeBytes a (body ++ leBytes 1 (crc8 body))
    ringPost s 3 { addr := a, length := 64, opcode := 0x0603, irq := true, chain := false, tag := num, status := 0, result := 0 }

/-- A marked page: one record of class 0x09, or 0x0A where it is suspect alone, no nozzle named; its later records carry the marks (R243). -/
def accessionPage (s : State) (job page mark : Nat) : State :=
  let s := { s with loops := { s.loops with marked := ((job, page, mark) :: s.loops.marked).take 1024 } }
  accession s (if bit mark 0 then 9 else 10) 0xFF none false none (some (job, page))

end Sys2Proof.Machine
end

