-- ==== Sys2Proof/Machine/BandCode.lean ====
section
/-! DEFINITION. Band code (R138 to R141): the tokens of a line, the line records of a band, and the trim of a pixel (R152). -/

namespace Sys2Proof.Machine

/-- The `n` first pixels of literal bytes, four to a byte, the first in bits [1:0]. -/
def literalPixels : Nat → List Byte → List Nat
  | 0, _ => []
  | _ + 1, [] => []
  | n + 1, b :: bs =>
    ((List.range 4).map (fun k => bits b.toNat (2 * k) 2)).take (n + 1) ++ literalPixels (n + 1 - 4) bs

/-- Unused high pairs of a literal's last byte are 0. -/
def literalTailOk (n : Nat) (bs : List Byte) : Bool :=
  n % 4 == 0 || (bs.getLastD 0).toNat / 4 ^ (n % 4) == 0

/-- One token (Table 4-5): its pixels and the bytes after it, or `none` where it is illegal. -/
def token : List Byte → Option (List Nat × List Byte)
  | [] => none
  | b :: bs =>
    let n := b.toNat % 64
    match b.toNat / 64 with
    | 0 => some (List.replicate (n + 1) 0, bs)
    | 1 => if n / 16 = 0 then none else some (List.replicate (n % 16 + 1) (n / 16), bs)
    | 2 =>
      let k := (n + 1 + 3) / 4
      if bs.length < k || !literalTailOk (n + 1) (bs.take k) then none
      else some (literalPixels (n + 1) (bs.take k), bs.drop k)
    | _ =>
      if n % 16 ≠ 0 || bs.length < 2 then none
      else some (List.replicate (leNat (bs.take 2) + 1) (n / 16), bs.drop 2)

/-- The pixels of a token string, at most `bound` tokens and `cols` pixels. -/
def tokens : Nat → Nat → List Byte → Option (List Nat)
  | _, cols, [] => if cols = 0 then some [] else none
  | 0, _, _ :: _ => none
  | bound + 1, cols, b :: bs =>
    match token (b :: bs) with
    | none => none
    | some (px, rest) =>
      if cols < px.length then none else (tokens bound (cols - px.length) rest).map (px ++ ·)

/-- Tokens a line may hold (R140). -/
def tokenBound (cols : Nat) : Nat := (cols + 7) / 8 + 8

/-- Decoding a band: the record bytes left, `none` once nothing further decodes; the last line's pixels, `none` for an affected one;
and the fault this line met: 0 none or one already counted, 1 of the line, a REPEAT or DELTA that follows an affected line among them,
2 of the rest of the band (Table 4-6). -/
structure BandSt where
  rest : Option (List Byte)
  px : Option (List Nat)
  fault : Nat
  deriving DecidableEq, Repr

def xorPixels (a b : List Nat) : List Nat := List.zipWith Nat.xor a b

/-- One line record (R139), the first of its band or not. -/
def bandLine (cols : Nat) (first : Bool) (st : BandSt) : BandSt :=
  match st.rest with
  | none => { rest := none, px := none, fault := 0 }
  | some [] => { rest := none, px := none, fault := 2 }
  | some (k :: bs) =>
    match k.toNat with
    | 0 => { rest := some bs, px := some (List.replicate cols 0), fault := 0 }
    | 1 => if first then { rest := some bs, px := none, fault := 1 } else { rest := some bs, px := st.px, fault := ofBool st.px.isNone }
    | 2 | 3 =>
      let len := leNat (bs.take 3)
      if bs.length < 3 + len then { rest := none, px := none, fault := 2 }
      else
        let rest := some (bs.drop (3 + len))
        let delta := k.toNat == 3
        if len = 0 || (delta && first) then { rest, px := none, fault := 1 }
        else match tokens (tokenBound cols) cols ((bs.drop 3).take len) with
          | none => { rest, px := none, fault := 1 }
          | some px => if delta then { rest, px := st.px.map (xorPixels · px), fault := ofBool st.px.isNone } else { rest, px := some px, fault := 0 }
    | _ => { rest := none, px := none, fault := 2 }

/-- The band after line `n` of it. -/
def bandTo (cols : Nat) (payload : List Byte) : Nat → BandSt
  | 0 => bandLine cols true { rest := some payload, px := none, fault := 0 }
  | n + 1 => bandLine cols false (bandTo cols payload n)

/-- Drops in a row of pixels. -/
def dropCount (px : List Nat) : Nat := (px.filter (· != 0)).length

/-- The trim of R152: pixel value `v`, trim `t`, line `n`, plane `p`, column `c`. -/
def trim (v : Nat) (t : Int) (n p c : Nat) : Nat :=
  let x := Nat.xor (n * 0x9E3779B1 % 2 ^ 32) ((p * 131072 + c) * 0x85EBCA6B % 2 ^ 32)
  let x := Nat.xor x (x / 2 ^ 15)
  let u : Int := (bits x 24 8 : Nat)
  if v = 0 then 0
  else if 0 < t && v < 3 && decide (u < t) then v + 1
  else if t < 0 && 1 < v && decide (u < -t) then v - 1
  else v

end Sys2Proof.Machine
end

