-- ==== Sys2Proof/Machine/Recal.lean ====
section
/-! DEFINITION. Due units and quality figures (R266, R267, R272): what the units report; `CalLoops` runs the recalibration. -/

namespace Sys2Proof.Machine

def reasonQuality : Nat := 0
def reasonRequest : Nat := 1
def reasonTemp : Nat := 2
def reasonAge : Nat := 3

/-- A unit of class `cls` becomes due, once for each reason. -/
def recalDue (s : State) (cls unit reason : Nat) : State :=
  if s.cal.due.contains (cls, unit, reason) then s
  else { s with cal := { s.cal with due := s.cal.due ++ [(cls, unit, reason)] } }

def unitKey (cls unit : Nat) : Nat := 256 * cls + unit

/-- Units are recalibrated at all (R267). -/
def recalOpen (s : State) : Bool :=
  s.on Reg.CL_CTRL.loops_run && s.on Reg.CL_CTRL.recal_en && s.mode != modeCold && s.mode != modeReload && s.mode != modeFreeze

/-- A quality figure of Table 7-8. -/
def State.quality (s : State) (cls i : Nat) : Quality := Tbl.get Quality.reset s.cal.quality (unitKey cls i)

/-- The figure is updated now. -/
def State.setQuality (s : State) (cls i : Nat) (q : Quality) : State :=
  { s with cal := { s.cal with quality := s.cal.quality.put (unitKey cls i) { q with at_ := some s.clk } } }

/-- What else a run leaves beside the figure: its age goes on (R272). -/
def State.noteQuality (s : State) (cls i : Nat) (q : Quality) : State :=
  { s with cal := { s.cal with quality := s.cal.quality.put (unitKey cls i) q } }

/-- A unit's retirement or repair joins the repair record; the Registrar writes it within 1.0 s (R355, R400). -/
def repairAdd (s : State) (kind unit : Nat) : State :=
  if s.fl.repair.any (fun r => r.1 == kind && r.2.1 == unit) then s
  else { s with fl := { s.fl with repair := s.fl.repair ++ [(kind, unit, false)] } }

def repairDrop (s : State) (kind unit : Nat) : State :=
  { s with fl := { s.fl with repair := s.fl.repair.filter (fun r => !(r.1 == kind && r.2.1 == unit)) } }

def repLane : Nat := 1
def repRow : Nat := 2
def repStackLane : Nat := 3
def repBank : Nat := 4

end Sys2Proof.Machine
end

