-- ==== Sys2Proof/Machine/Feedback.lean ====
section
/-! DEFINITION. The feedback inputs and the Encoder Emulator (R294 to R304): counts, positions, speed, faults, and what an emulator
output owes. -/

namespace Sys2Proof.Machine

def State.fb (s : State) (i : Nat) : FbInput := Tbl.get FbInput.reset s.mot.inputs i

def State.setFb (s : State) (i : Nat) (x : FbInput) : State :=
  { s with mot := { s.mot with inputs := s.mot.inputs.put i x } }

def State.emu (s : State) (k : Nat) : Emu := Tbl.get Emu.reset s.mot.emus k

def State.setEmu (s : State) (k : Nat) (x : Emu) : State :=
  { s with mot := { s.mot with emus := s.mot.emus.put k x } }

/-! ### Count and position -/

/-- Counts per revolution: of an SSI input, of its single-turn data (R298). -/
def fbCpr (s : State) (i : Nat) : Nat :=
  if s.ent (chFb i) FbE.kind = 3 then 2 ^ (s.ent (chFb i) FbE.ssiBits - s.ent (chFb i) FbE.ssiTurnBits)
  else s.ent (chFb i) FbE.cpr

/-- The extended count, `rev` × `cpr` + count (R294). -/
def fbExt (s : State) (i : Nat) : Int := s.rdi Reg.FB_REV.rev i * fbCpr s i + s.rd Reg.FB_COUNT.count i

/-- An extended count in wp: ⌊count × `wp_num` ÷ `wp_den`⌋, negated where `dir_inv` is set (R295). -/
def fbWp (s : State) (i : Nat) (ext : Int) : Int :=
  let p := ext * s.ent (chFb i) FbE.wpNum / s.ent (chFb i) FbE.wpDen
  if s.entOn (chFb i) FbE.dirInv then -p else p

/-- The position of an input, wp. -/
def fbPos (s : State) (i : Nat) : Int := s.rd2i Reg.FB_POS_LO.fpos_lo Reg.FB_POS_HI.fpos_hi i

/-! ### Speed (R301) -/

/-- `zero_timeout` in clock units. -/
def fbZero (s : State) (i : Nat) : Nat := s.ent (chFb i) FbE.zeroTimeout * msU

/-- A distance in wp over a time, as µm/s: 1 wp is 1,000/65,536 µm and a clock unit 1/65,536 ns. -/
def speedOf (wp : Int) (dt : Nat) : Int := (wp * 1000000000000).tdiv (max dt 1)

/-- The lesser in magnitude of two speeds. -/
def lesserSpeed (a b : Int) : Int := if a.natAbs ≤ b.natAbs then a else b

/-- The reported speed of an input, µm/s: 0 until two edges in one direction, and after `zero_timeout` without an edge. -/
def fbSpeed (s : State) (i : Nat) : Int :=
  match (s.fb i).edges with
  | (t0, e0) :: (t1, e1) :: rest =>
    if fbZero s i ≤ s.clk - t0 then 0
    else
      let all := (t0, e0) :: (t1, e1) :: rest
      let far := (all.take (s.ent (chFb i) FbE.spdEdges + 1)).getLastD (t1, e1)
      let measured := speedOf (fbWp s i (e0 - far.2)) (t0 - far.1)
      if s.clk ≤ t0 then measured
      else
        let one := speedOf (fbWp s i (e0 - e1)) (s.clk - t0)
        lesserSpeed measured one
  | _ => 0

/-- An edge at extended count `e`: it joins the edges of its direction, or starts again after standstill or reversal. -/
def FbInput.edge (x : FbInput) (now zeroAt cap : Nat) (e dir : Int) : FbInput :=
  match x.edges with
  | [] => { x with edges := [(now, e)], dir := dir }
  | (t, e0) :: rest =>
    if zeroAt ≤ now - t || dir ≠ x.dir then { x with edges := [(now, e)], dir := dir }
    else { x with edges := ((now, e) :: (t, e0) :: rest).take cap, dir := dir }

/-- The edge that a move of the count from `a` to `b` makes, and where it lies: every change, or on sin/cos a quarter-period
crossing. -/
def edgeAt (kind : Nat) (a b : Int) : Option Int :=
  if kind = 2 then
    if a / 1024 = b / 1024 then none
    else if a < b then some (b / 1024 * 1024) else some ((b / 1024 + 1) * 1024)
  else if a = b then none else some b

/-- Updates younger than this are kept for latches: longer than any debounce (R288). -/
def histSpan : Nat := 20 * msU

/-- An input takes extended count `e`: count, `rev`, position and speed follow (R294, R295, R301). -/
def fbTake (s : State) (i : Nat) (e : Int) : State :=
  let cpr : Int := max 1 (fbCpr s i)
  let old := fbExt s i
  let wp := fbWp s i e
  let x := s.fb i
  let x := match edgeAt (s.ent (chFb i) FbE.kind) old e with
    | some at_ => x.edge s.clk (fbZero s i) (s.ent (chFb i) FbE.spdEdges + 1) at_ (if old < e then 1 else -1)
    | none => x
  let kept := x.hist.takeWhile (fun h => decide (s.clk < h.1 + histSpan))
  let x := { x with at_ := s.clk, hist := (s.clk, wp) :: kept ++ ((x.hist.drop kept.length).take 1) }
  let s := ((s.setFb i x).wr Reg.FB_COUNT.count i (e % cpr).toNat).wri Reg.FB_REV.rev i (e / cpr)
  let s := s.wr2i Reg.FB_POS_LO.fpos_lo Reg.FB_POS_HI.fpos_hi i wp
  s.wri Reg.FB_SPEED.fspeed i (fbSpeed s i)

/-- The position at an earlier instant, of those kept, newest first, interpolated linearly between them; `now` where none is kept. -/
def histAt (now : Int) (hist : List (Nat × Int)) (t : Nat) : Int :=
  match hist with
  | [] => now
  | h :: hs =>
    if h.1 ≤ t then h.2
    else
      ((hs.foldl (fun (acc : (Nat × Int) × Option Int) g =>
        match acc.2 with
        | some _ => acc
        | none =>
          if g.1 ≤ t then
            (g, some (g.2 + (acc.1.2 - g.2) * ((t - g.1 : Nat) : Int) / (max 1 (acc.1.1 - g.1) : Nat)))
          else (g, none)) (h, none)).2).getD ((h :: hs).getLastD h).2

/-- The position of an input at an earlier instant (R288). -/
def fbPosAt (s : State) (i t : Nat) : Int := histAt (fbPos s i) (s.fb i).hist t

/-! ### The web: the input that `web_input` selects -/

def State.webInput (s : State) : Nat := s.rd Reg.FS_WEB.web_input

/-- Web speed, µm/s. -/
def webSpeed (s : State) : Int := fbSpeed s s.webInput

/-- Web position as the Start-of-Scan unit has it, in 2⁻³² mm: extrapolated from the last update by the speed, except on an SSI
input, whose position moves in single steps (R170, R298). -/
def webPos (s : State) : Int :=
  let i := s.webInput
  let base := fbPos s i * 65536
  if s.ent (chFb i) FbE.kind = 3 then base
  else base + fbSpeed s i * ((s.clk - (s.fb i).at_ : Nat) : Int) * 65536 / 1000000000000

/-! ### Faults (R296 to R300) -/

/-- The input's fault is set and, where it was clear, posted; `why` is `ev_a` of event 0x0602 (R300). -/
def encFault (s : State) (i why : Nat) : State :=
  if s.on Reg.FB_STATE.enc_fault i then s
  else (s.wr Reg.FB_STATE.enc_fault i 1).event 0x0602 (chFb i) 0 why 0

/-- A fault condition of the input still holds, so that writing 1 does not clear `enc_fault` (R300). -/
def encFaultHolds (s : State) (i : Nat) : Bool :=
  let x := s.fb i
  s.on Reg.FB_STATE.amp_fault i || decide (3 ≤ x.ssiBad) ||
  decide (s.ent (chFb i) FbE.qerrLimit ≤
    (x.qerrs.filter (fun t => decide (s.clk < t + s.ent (chFb i) FbE.qerrWindow * msU))).length &&
    s.ent (chFb i) FbE.kind = 1)

/-- An illegal quadrature transition (R296). -/
def quadError (s : State) (i : Nat) : State :=
  let x := s.fb i
  let errs := (s.clk :: x.qerrs).filter (fun t => decide (s.clk < t + s.ent (chFb i) FbE.qerrWindow * msU))
  let s := ((s.setFb i { x with qerrs := errs }).count Reg.FB_QERR.qerr i).wr Reg.FB_STATE.qerr_sticky i 1
  if s.ent (chFb i) FbE.qerrLimit ≤ errs.length then encFault s i 1 else s

/-- The quarter of a level pair, A leading B counting up. -/
def quarterOf (a b : Bool) : Nat :=
  match a, b with
  | false, false => 0
  | true, false => 1
  | true, true => 2
  | false, true => 3

/-- A sample of a quadrature input (R294, R296). -/
def quadSample (s : State) (i : Nat) (a b : Bool) : State :=
  let x := s.fb i
  let d := (quarterOf a b + 4 - quarterOf x.levelA x.levelB) % 4
  let s := s.setFb i { x with levelA := a, levelB := b }
  if d = 0 then s
  else if d = 2 then quadError s i
  else fbTake s i (fbExt s i + (if d = 1 then 1 else -1))

/-- The move between two phases of a `n`-count period, taken the shorter way. -/
def phaseStep (n from_ to_ : Nat) : Int :=
  let d := (to_ + n - from_ % n) % n
  if 2 * d < n then (d : Int) else (d : Int) - n

/-- ⌊√n⌋, settling `k` binary digits. -/
def rootGo (n : Nat) : Nat → Nat → Nat
  | 0, r => r
  | k + 1, r => rootGo n k (if (r + 2 ^ k) * (r + 2 ^ k) ≤ n then r + 2 ^ k else r)

def rootOf (n : Nat) : Nat := rootGo n (n.log2 / 2 + 1) 0

/-- The readings as corrected (R269): offsets, gain ratio and phase error taken out, the common amplitude as it is. -/
def SinCos.correct (c : SinCos) (sin cos : Int) : Int × Int :=
  let s := sin - c.offS
  let o := (cos - c.offC) * 10000 / (10000 + c.gain)
  (s, if c.angle = 0 then o else Config.square s o c.angle)

/-- The phase of corrected readings within the signal period, 0 to 4,095: the quarter from their signs, the rest interpolated (R297).
DESIGN CHOICE (log 126): count 0 of a period is where sin rises through 0, and the count rises with sin ahead. -/
def phaseOf (s c : Int) : Nat :=
  let part (r f : Int) : Nat := if r = 0 then 0 else Config.interpolate r.natAbs f.natAbs % 1024
  if 0 ≤ s && 0 < c then part s c
  else if 0 < s then 1024 + part c s
  else if c < 0 then 2048 + part s c
  else if s < 0 then 3072 + part c s
  else 0

/-- A correction moves towards what the fit finds, by at most `step`. -/
def fitMove (old found : Int) (step : Nat) : Int := max (old - step) (min (old + step) found)

/-- A free number of either sign. -/
def State.freeInt (s : State) (site : Nat) : Int := let n := s.freeVal site; if n % 2 = 0 then (n / 2 : Nat) else -(n / 2 : Nat)

/-- The loop fits the corrections once the signal has moved through 64 periods (R269): what each fit finds is free, and each correction
moves by at most 0.05 % of nominal amplitude, 0.05 % of ratio or 0.02 °. The input's figures follow (Table 7-8), and its converters are
due where the residual is above its limit (R267). -/
def sinCosFit (s : State) (i amp : Nat) (e : Int) : State :=
  let x := s.fb i
  let c := x.sc
  if !recalOpen s || s.on Reg.CL_RECAL_STATUS.xref_fault then s.setFb i { x with sc := { c with from_ := none } }
  else
    match c.from_ with
    | none => s.setFb i { x with sc := { c with from_ := some e, lo := amp, hi := amp, sum := amp, n := 1 } }
    | some e0 =>
      let c := { c with lo := min c.lo amp, hi := max c.hi amp, sum := c.sum + amp, n := c.n + 1 }
      if (e - e0).natAbs < 64 * 4096 then s.setFb i { x with sc := c }
      else
        let rest := c.hi - c.lo
        let s := (s.setFb i { x with sc := { c with
          offS := fitMove c.offS (s.freeInt 150) 5, offC := fitMove c.offC (s.freeInt 151) 5, gain := fitMove c.gain (s.freeInt 152) 5,
          angle := fitMove c.angle (s.freeInt 153) 2, from_ := some e, lo := amp, hi := amp, sum := amp, n := 1 } }).spend
        let s := s.setQuality 2 i { s.quality 2 i with a1 := sat 16 rest, a0 := sat 16 (c.sum / max 1 c.n) }
        if 10 * s.rd Reg.CL_Q_LIMITS.amp_res_max < rest then recalDue (recalDue s 3 (2 * i) reasonQuality) 3 (2 * i + 1) reasonQuality else s

/-- The a of R297 lies within 0.64 to 1.44. -/
def ampGood (s c : Int) : Bool := decide (64000000 ≤ s * s + c * c) && decide (s * s + c * c ≤ 144000000)

/-- The window of R297 counts samples; `amp_hold` of them on one side set or clear `amp_fault`. -/
def ampWatch (s : State) (i : Nat) (good : Bool) : State :=
  let x := s.fb i
  let bad := if good then 0 else x.ampBad + 1
  let ok := if good then x.ampGood + 1 else 0
  let hold := s.ent (chFb i) FbE.ampHold
  let s := s.setFb i { x with ampBad := bad, ampGood := ok }
  if hold ≤ bad then encFault (s.wr Reg.FB_STATE.amp_fault i 1) i 2
  else if hold ≤ ok then s.wr Reg.FB_STATE.amp_fault i 0 else s

/-- The move of the count that a sample at `phase` makes, the last one having been at `was`: on the interpolated phase, or, while
`amp_fault` is set, 1,024 counts for each quarter-period crossing (R297). -/
def sinCosStep (s : State) (i was phase : Nat) : Int :=
  if s.on Reg.FB_STATE.amp_fault i then 1024 * phaseStep 4 (was / 1024) (phase / 1024)
  else phaseStep 4096 (fbExt s i % 4096).toNat phase

/-- A sample of a sin/cos input (R297): the readings of the converters that serve as sin and cos, in 1/10,000 of nominal amplitude. -/
def sinCosSample (s : State) (i : Nat) (sin cos : Int) : State :=
  let r := (s.fb i).sc.correct sin cos
  let s := ampWatch s i (ampGood r.1 r.2)
  let was := (s.fb i).phase
  let phase := phaseOf r.1 r.2
  let step := sinCosStep s i was phase
  let e := fbExt s i + step
  let s := s.setFb i { s.fb i with phase := phase }
  let s := if step = 0 then s else fbTake s i e
  sinCosFit s i (rootOf (r.1 * r.1 + r.2 * r.2).toNat) e

/-- Gray code to binary, `k` bits. -/
def grayToBin (n : Nat) : Nat → Nat
  | 0 => n
  | k + 1 => grayToBin (Nat.xor n (n / 2 ^ (2 ^ k))) k

/-- A reading of an SSI input (R298): `idle` says that the data line was at idle level before and after. -/
def ssiReading (s : State) (i value : Nat) (idle : Bool) : State :=
  let x := s.fb i
  if !idle then
    let s := (s.setFb i { x with ssiBad := x.ssiBad + 1 }).count Reg.FB_STATE.ssi_err i
    if 3 ≤ x.ssiBad + 1 then encFault s i 4 else s
  else
    let bits_ := s.ent (chFb i) FbE.ssiBits
    let turnBits := s.ent (chFb i) FbE.ssiTurnBits
    let v := low bits_ value
    let v := if s.entOn (chFb i) FbE.ssiGray then grayToBin v 6 else v
    let turn := v / fbCpr s i
    let count := v % fbCpr s i
    let span : Int := 2 ^ turnBits
    let old := s.rdi Reg.FB_REV.rev i
    let wrap := if !x.ssiSeen then (turn : Int)
      else
        let d := ((turn : Int) - old) % span
        old + (if 2 * d < span then d else d - span)
    let wrap := if turnBits = 0 && x.ssiSeen then
        let d := (count : Int) - (s.rd Reg.FB_COUNT.count i : Int)
        let half := (fbCpr s i : Int)
        if half < -2 * d then old + 1 else if half < 2 * d then old - 1 else old
      else wrap
    fbTake (s.setFb i { x with ssiBad := 0, ssiSeen := true }) i (wrap * fbCpr s i + count)

/-! ### The Encoder Emulator (R302, R303) -/

/-- The count an output owes: ⌊(extended count − count at its start) × `n_ratio` ÷ `m_ratio`⌋, less what was lost. -/
def emuTarget (s : State) (k : Nat) : Int :=
  let ch := chEmu k
  (fbExt s (s.ent ch EmuE.src) - (s.emu k).base) * s.ent ch EmuE.nRatio / max 1 (s.ent ch EmuE.mRatio : Int) - (s.emu k).lost

def emuLag (s : State) (k : Nat) : Int := emuTarget s k - (s.emu k).sent

/-- The backlog of an output as its input has moved: beyond 65,535 edges the excess is lost (R303). -/
def emuUpdate (s : State) (k : Nat) : State :=
  if !s.on Reg.EMU_STATE.emu_running k then s
  else
    let lag := emuLag s k
    let isOver : Int := if 65535 < lag then lag - 65535 else if lag < -65535 then lag + 65535 else 0
    let s := if isOver = 0 then s
      else (s.setEmu k { s.emu k with lost := (s.emu k).lost + isOver }).wr Reg.EMU_STATE.emu_overrun k 1
    s.wr Reg.EMU_STATE.backlog k (emuLag s k).natAbs

/-- The outputs that re-issue input `i` follow it. -/
def emuFollow (s : State) (i : Nat) : State :=
  (List.range 4).foldl (fun s k => if s.ent (chEmu k) EmuE.src == i then emuUpdate s k else s) s

/-- The EMU_ balls are in high impedance: in SHADOW, and on a device of a pair from its reset until it has a mode again (R304). -/
def emuSilent (s : State) : Bool :=
  s.mode == modeShadow || ((s.on Reg.PAIR_CFG.pair_en || s.fl.pairReset) && (s.mode == modeCold || s.mode == modeReload))

/-- Levels at an output's EMU_ balls. -/
def emuDrive (s : State) (k : Nat) (a b z : Bool) : State := if emuSilent s then s else s.emit (.emuEdge k a b z)

/-- An output starts at phase A = 0, B = 0 (R304). -/
def emuStart (s : State) (k : Nat) : State :=
  let e := fbExt s (s.ent (chEmu k) EmuE.src)
  emuDrive (((s.setEmu k { Emu.reset with base := e }).wr Reg.EMU_STATE.emu_running k 1).wr Reg.EMU_STATE.backlog k 0) k false false false

def emuStop (s : State) (k : Nat) : State :=
  (s.wr Reg.EMU_STATE.emu_running k 0).wr Reg.EMU_STATE.backlog k 0

/-- Levels of A and B at an output count, `dir_inv` swapping them (R302). -/
def emuLevels (s : State) (k : Nat) (n : Int) : Bool × Bool :=
  let q := (n % 4).toNat
  let a := q == 1 || q == 2
  let b := q == 2 || q == 3
  if s.entOn (chEmu k) EmuE.dirInv then (b, a) else (a, b)

/-- Z is high for one quarter cycle in each `z_period` output counts, beginning at A = 1, B = 1 (R303). -/
def emuZ (s : State) (k : Nat) (n : Int) : Bool :=
  s.entOn (chEmu k) EmuE.zEn && n % max 1 (s.ent (chEmu k) EmuE.zPeriod : Int) == 2

/-- The next edge of an output, at least `min_edge_ns` after the last. -/
def emuEdge (s : State) (k : Nat) : State :=
  let x := s.emu k
  let due := match x.lastEdge with
    | some t => decide (t + s.ent (chEmu k) EmuE.minEdgeNs * nsU ≤ s.clk)
    | none => true
  let lag := emuLag s k
  if !s.on Reg.EMU_STATE.emu_running k || lag = 0 || !due then s
  else
    let n := x.sent + (if 0 < lag then 1 else -1)
    let s := s.setEmu k { x with sent := n, lastEdge := some s.clk }
    let s := s.wr Reg.EMU_STATE.backlog k (emuLag s k).natAbs
    let ab := emuLevels s k n
    emuDrive s k ab.1 ab.2 (emuZ s k n)

end Sys2Proof.Machine
end

