-- ==== Sys2Proof/Machine/Raster.lean ====
section
/-! DEFINITION. The Line Assembler (R133 to R159, R167): jobs, pages, plane geometry, the substitution map, acceptance, decoding, the
buffer lead, and the marks of a page. Lines are numbered here on one continuing count; the manual's line number is the difference
from line 0 of the line's job. -/

namespace Sys2Proof.Machine

/-! ### Jobs and lines -/

/-- The job a line belongs to. -/
def jobOf (s : State) (g : Nat) : Option Job := (s.la.jobs.filter (fun j => decide (j.base ≤ g))).getLast?

/-- A line as the manual numbers it (R12). -/
def relLine (s : State) (g : Nat) : Nat := match jobOf s g with | some j => g - j.base | none => 0

/-- The same for a line that may belong to a job closed since, while its raster is kept (R230). -/
def drawnLine (s : State) (g : Nat) : Nat :=
  match ((s.la.closed ++ s.la.jobs).filter (fun j => decide (j.base ≤ g))).getLast? with | some j => g - j.base | none => 0

/-- A manual line number of the current job, on the continuing count. -/
def absLine (s : State) (n : Nat) : Nat := match curJob s with | some j => j.base + n | none => n

/-- The next line due at the reference row (R172). -/
def nextDue (s : State) : Nat := if s.on Reg.LA_STATUS.job_open then relLine s s.fire.refNext else 0

/-- The page that holds a line. -/
def pageOf (s : State) (g : Nat) : Option Page :=
  s.la.pages.find? (fun p => decide (p.first ≤ g) && decide (g < p.first + p.lines))

def Page.last (p : Page) : Nat := p.first + p.lines - 1

/-! ### Page marks (R243) -/

def markSpoilt : Nat := 1
def markSuspect : Nat := 2
def causeStarved : Nat := 4
def causeCollided : Nat := 8
def causeDataLate : Nat := 16
def causeThermal : Nat := 32
def causeAckLost : Nat := 64
def causeCountSlip : Nat := 128
def causeDecap : Nat := 256
def causeBand : Nat := 512
def causeSwitchover : Nat := 1024

/-- The page of a line takes mark bits. -/
def markLine (s : State) (g m : Nat) : State :=
  { s with la := { s.la with pages := s.la.pages.map (fun p =>
      if p.first ≤ g && g < p.first + p.lines then { p with mark := Nat.lor p.mark m } else p) } }

/-! ### Plane geometry (R142 to R144) -/

structure RowRec where
  kind : Nat
  phase : Nat
  delay : Nat
  slotA : Nat
  slotB : Nat
  localA : Nat
  split : Nat
  localB : Nat
  deriving DecidableEq, Repr

/-- Row record `i` of a plane entry (Table 4-8). -/
def rowRec (e : List Byte) (i : Nat) : RowRec :=
  let n (o k : Nat) := leNat ((e.drop (44 + 14 * i + o)).take k)
  { kind := n 0 1, phase := n 1 1, delay := n 2 3, slotA := n 5 1, slotB := n 6 1, localA := n 7 2, split := n 9 3,
    localB := n 12 2 }

/-- Row record `i` of plane `p`, unused where the plane is out of use. -/
def planeRow (s : State) (p i : Nat) : RowRec :=
  match s.entry (chPlane p) with
  | some e => rowRec e i
  | none => { kind := 0, phase := 0, delay := 0, slotA := 0, slotB := 0xFF, localA := 0, split := 0, localB := 0 }

def rows6 : List Nat := List.range 6

/-- Rows of a plane of a kind: 1 print, 2 spare. -/
def rowsOf (s : State) (p kind : Nat) : List Nat := rows6.filter (fun i => (planeRow s p i).kind == kind)

/-- The head slots a row names. -/
def RowRec.slots (r : RowRec) : List Nat :=
  if r.kind = 0 then [] else r.slotA :: (if r.slotB = 0xFF ∨ r.slotB = r.slotA then [] else [r.slotB])

/-- The row that a head slot serves: plane and row record (R169). -/
def slotRow (s : State) (slot : Nat) : Option (Nat × Nat) :=
  ((List.range 16).map (fun p => (rows6.filter (fun i => (planeRow s p i).slots.contains slot)).map (fun i => (p, i)))).flatten.head?

/-- Bit positions set in a 16-bit set of planes. -/
def planeList (m : Nat) : List Nat := (List.range 16).filter (fun p => bit m p)

/-- The head slots of a page: those of every row of its planes. -/
def pageSlots (s : State) (p : Page) : List Nat :=
  ((planeList p.planes).map (fun q => (rows6.map (fun i => (planeRow s q i).slots)).flatten)).flatten

/-- Which spare row of its plane a row record is. -/
def spareIndex (s : State) (p i : Nat) : Nat := (rowsOf s p 2).idxOf i

/-- The column of plane `p` that a nozzle of row `i` fires (R143). -/
def columnOf (r : RowRec) (columns nozzle : Nat) : Option Nat :=
  let slot := nozzle / 65536
  let n := nozzle % 65536
  if slot = r.slotA ∧ r.localA ≤ n ∧ n - r.localA < min r.split columns then some (n - r.localA)
  else if r.slotB ≠ 0xFF ∧ slot = r.slotB ∧ r.localB ≤ n ∧ r.split + (n - r.localB) < columns then some (r.split + (n - r.localB))
  else none

/-- Where a nozzle lies: plane, row record, column. -/
def nozzleAt (s : State) (nozzle : Nat) : Option (Nat × Nat × Nat) :=
  match slotRow s (nozzle / 65536) with
  | some (p, i) => (columnOf (planeRow s p i) (s.ent (chPlane p) PlaneE.columns) nozzle).map (fun c => (p, i, c))
  | none => none

/-- The nozzle of a column in a row (R143). -/
def nozzleOf (r : RowRec) (c : Nat) : Nat :=
  if c < r.split then r.slotA * 65536 + r.localA + c else r.slotB * 65536 + r.localB + (c - r.split)

/-! ### The substitution map (R148 to R150) -/

/-- Device address of the map. -/
def substBase (s : State) : Nat := rrBase + s.rd Reg.LA_SUBST_BASE.subst_base

/-- The 4-bit map entry of plane `p`, spare row `r`, column `c`. -/
def mapEntry (s : State) (p r c : Nat) : Nat :=
  bits (s.peekNat (substBase s + ((2 * p + r) * 131072 + c) / 2) 1) (4 * (c % 2)) 4

/-- The map entry takes value `v`; no window stores here, only the Line Assembler does. -/
def setMapEntry (s : State) (p r c v : Nat) : State :=
  let a := substBase s + ((2 * p + r) * 131072 + c) / 2
  let old := s.peekNat a 1
  s.pokeNat a 1 (if c % 2 = 0 then old / 16 * 16 + v % 16 else old % 16 + v % 16 * 16)

/-- Device address of the phase word of a spare row. -/
def phaseAddr (s : State) (p r : Nat) : Nat := substBase s + 0x200000 + 4 * (2 * p + r)

/-- A phase word: `phase_set`, `users`, `phase`. -/
def phaseWord (s : State) (p r : Nat) : Bool × Nat × Nat :=
  let w := s.peekNat (phaseAddr s p r) 4
  (bit w 31, bits w 8 18, bits w 0 2)

def setPhaseWord (s : State) (p r : Nat) (on : Bool) (users phase : Nat) : State :=
  s.pokeNat (phaseAddr s p r) 4 (2 ^ 31 * ofBool on + 256 * low 18 users + low 2 phase)

/-- A change of one map entry. -/
def SubstChange.isOf (x : SubstChange) (p r c : Nat) : Bool := x.plane == p && x.spare == r && x.col == c

/-- The changes of one map entry that apply to line `g`, committed or pending, oldest first. -/
def changesAt (s : State) (p r c g : Nat) : List SubstChange :=
  ((s.la.past.map (·.1)) ++ s.la.changes).filter (fun x => x.isOf p r c && decide (x.line ≤ g))

/-- The map entry before every change still kept. -/
def mapBase (s : State) (p r c : Nat) : Nat :=
  match s.la.past.find? (fun x => x.1.isOf p r c) with
  | some x => x.2
  | none => mapEntry s p r c

/-- The map entry as line `g` finds it: as it was, then the changes that apply from the line each names (R150). -/
def mapAt (s : State) (p r c g : Nat) : Nat :=
  (changesAt s p r c g).foldl (fun _ x => if x.isSet then 8 + x.row else 0) (mapBase s p r c)

/-- The row record that the spare row `r` serves at column `c` of line `g`, if any. -/
def servedRow (s : State) (p r c g : Nat) : Option Nat :=
  let v := mapAt s p r c g
  if 8 ≤ v then some (v % 8) else none

/-- A spare row of the plane fires column `c` of row `i` on line `g`. -/
def movedAt (s : State) (p i c g : Nat) : Bool :=
  (List.range (rowsOf s p 2).length).any (fun r => servedRow s p r c g == some i)

/-- The phase that a spare row serves on line `g`: committed, or set by a pending change (R149, R150). -/
def servedPhase (s : State) (p r g : Nat) : Option Nat :=
  let w := phaseWord s p r
  if w.1 then some w.2.2
  else match s.la.changes.find? (fun x => x.isSet && x.plane == p && x.spare == r && decide (x.line ≤ g)) with
    | some x => some (planeRow s p x.row).phase
    | none => none

/-- A change commits to the map, from line `from_` on: the entry, the users and the phase of its spare row. -/
def commitChange (s : State) (x : SubstChange) (from_ : Nat) : State :=
  let w := phaseWord s x.plane x.spare
  let old := mapEntry s x.plane x.spare x.col
  let was := decide (8 ≤ old)
  let s := { s with la := { s.la with past := s.la.past ++ [({ x with line := from_ }, old)] } }
  let s := setMapEntry s x.plane x.spare x.col (if x.isSet then 8 + x.row else 0)
  let users := if x.isSet then (if was then w.2.1 else w.2.1 + 1) else (if was then w.2.1 - 1 else w.2.1)
  let others := s.la.changes.any (fun y => y != x && y.plane == x.plane && y.spare == x.spare)
  if x.isSet then setPhaseWord s x.plane x.spare true users (planeRow s x.plane x.row).phase
  else setPhaseWord s x.plane x.spare (w.1 && (users != 0 || others)) users w.2.2

/-- The nozzle that a change retires or restores. -/
def SubstChange.nozzle (s : State) (x : SubstChange) : Nat := nozzleOf (planeRow s x.plane x.row) x.col

/-- Changes that have left the queue: the ones kept are shown in LA_SUBST_PEND. -/
def keepChanges (s : State) (keep : List SubstChange) : State :=
  ({ s with la := { s.la with changes := keep } }).wr Reg.LA_SUBST_PEND.pending 0 keep.length

/-- The line after the last one a row has decoded. -/
def rowDone (s : State) (p i : Nat) : Nat := Tbl.get 0 s.la.rowDone (6 * p + i)

/-- Rows whose decoding a change of plane `p` waits for: print rows, and spare rows that serve a phase or are named by a pending
change (R150). -/
def commitRows (s : State) (p : Nat) : List Nat :=
  rowsOf s p 1 ++ (rowsOf s p 2).filter (fun i =>
    let r := spareIndex s p i
    (phaseWord s p r).1 || s.la.changes.any (fun x => x.plane == p && x.spare == r))

/-- SUBST_COMMIT (R150): each pending change whose plane's rows have all decoded its line commits, in order. -/
def substCommit (s : State) : State :=
  let done (x : SubstChange) := (commitRows s x.plane).all (fun i => decide (x.line < rowDone s x.plane i))
  let go := s.la.changes.filter done
  go.foldl (fun s x => keepChanges (commitChange s x x.line) (s.la.changes.filter (· != x))) s

/-- With no job open, or as its job closes, every change commits, whatever line it named, and takes effect from line 0 of the next job
(R150). -/
def substCommitAll (s : State) : State :=
  let next := match s.la.jobs with | _ :: j :: _ => j.base | _ => s.la.endLine
  let s := s.la.changes.foldl (fun s x => keepChanges (commitChange s x next) (s.la.changes.filter (· != x))) s
  { s with la := { s.la with effLine := [] } }

/-! ### Acceptance (R136, R145, R159) -/

/-- Position of a line at the reference row, 2⁻³² mm (R172). -/
def refPos (s : State) (g : Nat) : Int :=
  s.fire.w0 + ((g : Int) - s.fire.w0Line) * s.rd Reg.FS_PITCH.line_pitch

/-- The reference-row start-of-scan of line `g` lies at least 40 µs ahead. -/
def farAhead (s : State) (g : Nat) : Bool :=
  let v := webSpeed s
  !s.fire.w0Set || decide (v ≤ 0) || decide (v * 40 * 4294967296 ≤ (refPos s g - webPos s) * 1000000000)

/-- The reference-row start-of-scan of line `g` has passed. -/
def refPassed (s : State) (g : Nat) : Bool := decide (g < s.fire.refNext)

/-- `ready_bands` covers line `g` of page `p`. -/
def bandReady (p : Page) (g : Nat) : Bool := decide ((g - p.first) / p.bandLines < p.ready)

/-- Lines between pages count as accepted once the later page is queued (R145). -/
def skipGap (s : State) : State :=
  match pageOf s s.la.accepted with
  | some _ => s
  | none => match s.la.pages.find? (fun p => decide (s.la.accepted < p.first)) with
    | some p => { s with la := { s.la with accepted := p.first } }
    | none => s

/-- The first page not wholly accepted. -/
def acceptPage (s : State) : Option Page := s.la.pages.find? (fun p => decide (s.la.accepted ≤ p.last))

/-- READY_BANDS_POLL (R136): `ready_bands` of that page is read; a decrease has no effect. -/
def readyPoll (s : State) : State :=
  match acceptPage s with
  | none => s
  | some q =>
    let n := min q.bands (s.peekNat (q.addr + 40) 4)
    { s with la := { s.la with pages := s.la.pages.map (fun p =>
        if p.addr == q.addr && p.first == q.first then { p with ready := max p.ready n } else p) } }

/-- Lines and drops count in the Ledger: not in SHADOW, whose lines are shadow lines (R36, R415). -/
def counting (s : State) : Bool := s.mode != modeShadow

/-- The reconstruction of the active device's counts of a job (R424) counts `n` more. -/
def State.tally (s : State) (idx key n : Nat) : State :=
  let k := jobKey idx key
  { s with pair := { s.pair with tally := s.pair.tally.put k (Tbl.get 0 s.pair.tally k + n) } }

/-- A line of a slot ends as `to_`, `n` drops of a plane with it, in the reconstruction. -/
def tallyLine (s : State) (idx slot plane n : Nat) (to_ drop : Nat → Nat) : State :=
  (s.tally idx (to_ slot) 1).tally idx (drop plane) n

/-- Each of `slots` counts a line under `count`. -/
def countLines (s : State) (idx : Nat) (slots : List Nat) (count : Nat → Nat) : State :=
  if counting s then slots.foldl (fun s k => s.ledAdd (jobKey idx (count k)) 1) s else s

/-- A slot's held line becomes another count. -/
def moveLine (s : State) (idx slot : Nat) (to_ : Nat → Nat) : State :=
  if counting s then s.ledMove (jobKey idx (Led.linesHeld slot)) (jobKey idx (to_ slot)) 1 else s

/-- Held drops of a plane become another count. -/
def moveDrops (s : State) (idx plane n : Nat) (to_ : Nat → Nat) : State :=
  if counting s then s.ledMove (jobKey idx (Led.dropsHeld plane)) (jobKey idx (to_ plane)) n else s

/-- Drops of a plane count under `count`. -/
def countDrops (s : State) (idx plane n : Nat) (count : Nat → Nat) : State :=
  if counting s then s.ledAdd (jobKey idx (count plane)) n else s

/-- A line is offered and held in each slot of its page; in a slot whose own start-of-scan of it has passed already it is withheld at once
(DESIGN CHOICE, log 134: the manual does not say what such a line counts as). -/
def offerLine (s : State) (p : Page) (g : Nat) : State :=
  let (late, due) := (pageSlots s p).partition (fun k => decide (g < (Tbl.get Slot.reset s.fire.slots k).next))
  let s := countLines s p.jobIdx (pageSlots s p) Led.linesOffered
  let s := countLines (countLines s p.jobIdx due Led.linesHeld) p.jobIdx late Led.linesWithheld
  if counting s || decide (g < s.pair.catchUp) then s else late.foldl (fun s k => s.tally p.jobIdx (Led.linesWithheld k) 1) s

/-- LINE_ACCEPT (R145, R159, Table 4-15). -/
def lineAccept (s : State) : State :=
  let g := s.la.accepted
  match pageOf s g with
  | none => s
  | some p =>
    if !bandReady p g then s
    else if refPassed s g && !(s.mode == modeShadow && decide (g < s.pair.catchUp)) then
      let s := countLines (countLines s p.jobIdx (pageSlots s p) Led.linesOffered) p.jobIdx (pageSlots s p) Led.linesWithheld
      let s := if counting s then s else (pageSlots s p).foldl (fun s k => s.tally p.jobIdx (Led.linesWithheld k) 1) s
      let s := (s.count Reg.LA_STARVED.starved_lines)
      let s := markLine s g (markSpoilt + causeStarved)
      skipGap { s with la := { s.la with accepted := g + 1, starved := g :: s.la.starved } }
    else if farAhead s g || (s.mode == modeShadow && decide (g < s.pair.catchUp)) then
      skipGap { offerLine s p g with la := { s.la with accepted := g + 1 } }
    else s

/-! ### Fates (R229) -/

/-- Codes of the fate map: 1 fired; the others are the model's. -/
def fateFired : Nat := 1
def fateSkipped : Nat := 2
def fateWithheld : Nat := 3

/-- The fate of slot `k` for line `g`: 2 bits of the map in the Reading Room. -/
def setFate (s : State) (k g code : Nat) : State :=
  let a := rrBase + 0x3EA0000 + k * 16384 + g % 65536 / 4
  let sh := 4 ^ (g % 4)
  let old := s.peekNat a 1
  s.pokeNat a 1 (old - old / sh % 4 * sh + code % 4 * sh)

/-- The fate of slot `k` for line `g`, as the map has it. -/
def fateOf (s : State) (k g : Nat) : Nat := s.peekNat (rrBase + 0x3EA0000 + k * 16384 + g % 65536 / 4) 1 / 4 ^ (g % 4) % 4

/-! ### Decoding (R138, R146, R150 to R152) -/

/-- A band of a page: its header's address. -/
def bandHeader (s : State) (pg : Page) (plane b : Nat) : Nat := s.peekNat (pg.bandTable + 8 * (16 * b + plane)) 8

/-- The bytes from `a` lie wholly within the Stacks. -/
def inStacks (a n : Nat) : Bool := decide (a + n ≤ stacksSize)

/-- A band header agrees with its place (R138). -/
def headerOk (s : State) (pg : Page) (plane b : Nat) : Bool :=
  let h := bandHeader s pg plane b
  let n (o k : Nat) := s.peekNat (h + o) k
  let count := if n 5 1 = 0 then 256 else n 5 1
  h % 32 == 0 && inStacks h 32 && n 0 4 == 0x444E4142 && crc32 (s.peekBytes h 28) == n 28 4 && n 4 1 == plane &&
  n 8 4 == b * pg.bandLines && n 12 4 == s.ent (chPlane plane) PlaneE.columns &&
  count == min pg.bandLines (pg.lines - b * pg.bandLines) && decide (1 ≤ n 16 4) && decide (n 16 4 ≤ 16777184) &&
  inStacks (h + 32) (n 16 4)

/-- The raster of line `g` of a plane, or the kind of fault met: 0 affected by an earlier one, 1 of the line, 2 of the rest of the
band, 3 of the whole band. -/
def rasterLine (s : State) (pg : Page) (plane g : Nat) : Except Nat (List Nat) :=
  let rel := g - pg.first
  let b := rel / pg.bandLines
  if headerOk s pg plane b then
    let h := bandHeader s pg plane b
    let st := bandTo (s.ent (chPlane plane) PlaneE.columns) (s.peekBytes (h + 32) (s.peekNat (h + 16) 4)) (rel % pg.bandLines)
    match st.px with
    | some px => .ok px
    | none => .error st.fault
  else .error 3

/-- The density bank of line `g` (R151, R258, R265). -/
def trimBank (s : State) (p g : Nat) : Nat :=
  let k := s.ent (chPlane p) PlaneE.densityBank
  let all := match Tbl.find s.la.bankFrom p with | some b => decide (b ≤ g) | none => false
  if all || decide (s.ent (chPlane p) PlaneE.bankLine ≤ drawnLine s g) then k else 1 - k

/-- The trim of row `i`, column `c` in a bank (R151). -/
def bankTrim (s : State) (p i c bank : Nat) : Int :=
  if s.entOn (chPlane p) PlaneE.densityEn then
    let base := if bank = 0 then s.ent (chPlane p) PlaneE.densBase0 else s.ent (chPlane p) PlaneE.densBase1
    signed 8 (s.peekNat (rrBase + base + i * s.ent (chPlane p) PlaneE.columns + c) 1)
  else 0

/-- The pixels a row fires of a raster line: its own, less those moved to spares; a spare row's, those it serves; trimmed. -/
def rowPixels (s : State) (p i g : Nat) (px : List Nat) : List Nat :=
  let spare := (planeRow s p i).kind == 2
  let r := spareIndex s p i
  let n := drawnLine s g
  let bank := trimBank s p g
  px.zipIdx.map (fun x =>
    let c := x.2
    let fires := if spare then (servedRow s p r c g).isSome else !movedAt s p i c g
    if fires then trim x.1 (bankTrim s p i c bank) n p c else 0)

/-- Drops of a raster line that spare row `r` takes. -/
def movedDrops (s : State) (p r g : Nat) (px : List Nat) : Nat :=
  dropCount (px.zipIdx.map (fun x => if (servedRow s p r x.2 g).isSome then x.1 else 0))

/-- The part of a row's pixels that one slot fires, by local nozzle (R143). -/
def slotPixels (s : State) (r : RowRec) (slot : Nat) (px : List Nat) : List Nat :=
  (List.range (s.ent (chSlot slot) SlotE.nozzles)).map (fun n =>
    match columnOf r px.length (slot * 65536 + n) with
    | some c => px.getD c 0
    | none => 0)

def State.slot (s : State) (k : Nat) : Slot := Tbl.get Slot.reset s.fire.slots k

def State.setSlot (s : State) (k : Nat) (x : Slot) : State :=
  { s with fire := { s.fire with slots := s.fire.slots.put k x } }

/-- A slot's part of a line, if one is kept. -/
def partOf (s : State) (slot g : Nat) : Option Part := (s.slot slot).parts.find? (fun q => q.line == g)

/-- A slot's part of a line is replaced, or dropped. -/
def setPart (s : State) (slot : Nat) (q : Part) : State :=
  let x := s.slot slot
  let new := if x.parts.any (fun y => y.line == q.line)
    then x.parts.map (fun y => if y.line == q.line then q else y) else x.parts ++ [q]
  s.setSlot slot { x with parts := new }

def dropPart (s : State) (slot g : Nat) : State :=
  let x := s.slot slot
  s.setSlot slot { x with parts := x.parts.filter (fun y => y.line != g) }

/-- A part as decoded. -/
def newPart (g p idx : Nat) (spare fault : Bool) (px : List Nat) : Part :=
  { line := g, fault, decoded := true, spare, plane := p, jobIdx := idx, px, drops := dropCount px, sent := 0, resend := [],
    complete := false, bad := false, sosAt := none, released := none, taken := false, limit := 0 }

/-- The line is in a row's phase: a print row's own, a spare row's served one (R144, R149). -/
def inPhase (s : State) (p i g : Nat) : Bool :=
  let r := planeRow s p i
  let n := drawnLine s g % max 1 (s.ent (chPlane p) PlaneE.nPrint)
  if r.kind = 1 then n == r.phase
  else if r.kind = 2 then servedPhase s p (spareIndex s p i) g == some n
  else false

/-- The next line that a row decodes: from the last on, the first accepted line of its phase on a page that prints its plane. -/
def nextDecode (s : State) (p i : Nat) : Option Nat :=
  let start := rowDone s p i
  (List.range (s.la.accepted - start)).map (· + start) |>.find? (fun g =>
    inPhase s p i g && match pageOf s g with | some pg => bit pg.planes p | none => false)

/-- Fire cycles a row's FIFO holds: decoded parts of its first slot not yet disposed of. -/
def fifoHeld (s : State) (p i : Nat) : Nat :=
  ((s.slot (planeRow s p i).slotA).parts.filter (fun q => q.decoded && q.released.isNone)).length

/-- A row's place after line `g`. -/
def rowTo (s : State) (p i g : Nat) : State :=
  { s with la := { s.la with rowDone := s.la.rowDone.put (6 * p + i) (g + 1) } }

/-- BAND_FAULT (R141): counted and posted once for each fault a row meets. -/
def bandFault (s : State) (pg : Page) (p i g kind : Nat) : State :=
  let b := (g - pg.first) / pg.bandLines
  let key := 6 * p + i
  let seen := Tbl.get 0 s.la.bandSeen key == pg.first + b + 1
  if kind = 0 || (kind = 3 && seen) then s
  else
    let s := if kind = 1 then s.count Reg.LA_DECODE_ERR.line_errs else s.count Reg.LA_DECODE_ERR.band_errs
    let s := { s with la := { s.la with bandSeen := s.la.bandSeen.put key (pg.first + b + 1) } }
    s.event 0x0201 (chPlane p) (relLine s g) pg.page (b * 256 + i)

/-- Drops that the print-row decode of line `g` moved to row record `i`. -/
def movedCount (s : State) (p i g : Nat) : Nat :=
  match s.la.moved.find? (fun m => m.1 == 6 * p + i && m.2.1 == g) with
  | some m => m.2.2
  | none => 0

/-- The part reaches its slots: kept, or, where the line's start-of-scan has been disposed of, its drops counted at once as the line
was: skipped, or withheld. DESIGN CHOICE (log 134): a line accepted after its slot's own start-of-scan is one that its slot withheld. -/
def deliverPart (s : State) (slot : Nat) (q : Part) : State :=
  match partOf s slot q.line with
  | some old => setPart s slot { q with sosAt := old.sosAt, limit := old.limit, taken := old.taken }
  | none =>
    if (s.slot slot).next ≤ q.line then setPart s slot q
    else moveDrops s q.jobIdx q.plane q.drops (if fateOf s slot q.line = fateSkipped then Led.dropsSkipped else Led.dropsWithheld)

/-- A slot's part of a line whose band has a fault (Table 4-15): the line is withheld there once. A part that waits since its start-of-scan
ends so now; a line disposed of before is counted already. -/
def faultPart (s : State) (slot : Nat) (q : Part) : State :=
  match partOf s slot q.line with
  | some old =>
    let s := moveLine s q.jobIdx slot Led.linesWithheld
    if old.sosAt.isSome && counting s then setFate (dropPart s slot q.line) slot q.line fateWithheld
    else setPart s slot { q with sosAt := old.sosAt, limit := old.limit, taken := old.taken }
  | none => if (s.slot slot).next ≤ q.line then setPart (moveLine s q.jobIdx slot Led.linesWithheld) slot q else s

/-- LINE_DECODE of line `g` for row `i` of plane `p` (R146 to R152, Table 4-15). -/
def decodeLine (s : State) (p i g : Nat) (pg : Page) : State :=
  let r := planeRow s p i
  let spare := r.kind == 2
  let s := rowTo s p i g
  let starved := s.la.starved.contains g
  match rasterLine s pg p g with
  | .error kind =>
    let s := bandFault s pg p i g kind
    let s := markLine s g (markSpoilt + causeBand)
    let lost := if spare then movedCount s p i g else 0
    let s := if starved then s
      else r.slots.foldl (fun s k => faultPart s k (newPart g p pg.jobIdx spare true [])) s
    if starved then s else moveDrops s pg.jobIdx p lost Led.dropsWithheld
  | .ok px =>
    let out := rowPixels s p i g px
    let s := if spare then s
      else
        let n := dropCount px
        let s := countDrops s pg.jobIdx p n Led.dropsOffered
        let s := countDrops s pg.jobIdx p n (if starved then Led.dropsWithheld else Led.dropsHeld)
        let s := if starved && !counting s then s.tally pg.jobIdx (Led.dropsWithheld p) n else s
        let mv := (rowsOf s p 2).map (fun k => (6 * p + k, g, movedDrops s p (spareIndex s p k) g px))
        { s with la := { s.la with moved := (mv.filter (fun m => m.2.2 != 0)) ++ s.la.moved } }
    if starved then s
    else r.slots.foldl (fun s k => deliverPart s k (newPart g p pg.jobIdx spare false (slotPixels s r k out))) s

/-- `horizon_eff` (R364): the lesser of `horizon` and what fits the row FIFO area. -/
def horizonEff (s : State) : Nat :=
  let size := ((List.range 80).map (fun k => (s.ent (chSlot k) SlotE.nozzles + 1023) / 1024 * 256)).foldl (· + ·) 0
  let h := s.rd Reg.LA_HORIZON.horizon
  if size = 0 then h else min h (20 * 1048576 / size)

/-- LINE_DECODE for the row: its next line, once accepted and where its FIFO has room. -/
def lineDecode (s : State) (p i : Nat) : State :=
  match nextDecode s p i with
  | none => s
  | some g =>
    match pageOf s g with
    | none => s
    | some pg =>
      if fifoHeld s p i < s.rd Reg.MEM_RR_STATUS.horizon_eff then substCommit (decodeLine s p i g pg) else s

/-! ### The buffer lead (R153 to R155, R158) -/

/-- Gap lines from `a` up to the last line accepted. -/
def gapLines (s : State) (a : Nat) : Nat :=
  ((List.range (s.la.accepted - a)).filter (fun k => (pageOf s (a + k)).isNone)).length

/-- Lines a slot holds, over the open jobs, and the gap lines ahead of it. -/
def slotLead (s : State) (slot : Nat) : Nat :=
  (s.la.jobs.map (fun j => s.ledGet (jobKey j.idx (Led.linesHeld slot)))).foldl (· + ·) 0 + gapLines s (s.slot slot).next

/-- The head slots of the open job. -/
def jobSlots (s : State) : List Nat :=
  match curJob s with
  | some j => ((s.la.pages.filter (fun p => p.jobIdx == j.idx)).map (pageSlots s)).flatten
  | none => []

/-- The head slots in use by the open job: those of every plane of its pages, fired ones among them (R182). -/
def openSlots (s : State) : List Nat :=
  match curJob s with
  | some j => ((planeList j.planes).map (fun q => (rows6.map (fun i => (planeRow s q i).slots)).flatten)).flatten
  | none => []

/-- λ of R153. -/
def leadLines (s : State) : Nat :=
  match (jobSlots s).map (slotLead s) with
  | [] => 0
  | n :: ns => ns.foldl min n

/-- v_job in effect, mm/s (R154). -/
def jobSpeed (s : State) : Nat := s.la.vJob.getD (s.rd Reg.LA_VJOB.v_job)

/-- τ of R153 as a fraction, µs: λ × 1,000,000 ÷ r_job, and 0 ÷ 1 with no job open. With v_job 0 and a job open the manual gives the division
no value, and the model takes the largest that LA_LEAD_US shows (DESIGN CHOICE, log 123). -/
def leadFrac (s : State) : Nat × Nat :=
  let v := jobSpeed s
  if !s.on Reg.LA_STATUS.job_open then (0, 1)
  else if v = 0 then (2 ^ 32 - 1, 1)
  else (leadLines s * s.rd Reg.FS_PITCH.line_pitch * 1000000, v * 2 ^ 32)

/-- τ in whole µs, as LA_LEAD_US reports it. -/
def leadUs (s : State) : Nat := (leadFrac s).1 / (leadFrac s).2

/-- τ ≥ `wm`, and τ ≤ `wm`. -/
def leadFrom (s : State) (wm : Nat) : Bool := decide (wm * (leadFrac s).2 ≤ (leadFrac s).1)
def leadUpTo (s : State) (wm : Nat) : Bool := decide ((leadFrac s).1 ≤ wm * (leadFrac s).2)

/-- The zone of the lead time (Table 4-11). -/
def zoneNow (s : State) : Nat :=
  if leadFrom s (s.rd Reg.LA_WM_GREEN.wm_green) then 0
  else if leadFrom s (s.rd Reg.LA_WM_AMBER.wm_amber) then 1
  else if leadUpTo s (s.rd Reg.LA_WM_RED.wm_red) then 3 else 2

/-- LEAD_ZONE_CHANGE (R153, R155): the lead is shown, and a change of zone posted. While no job is open the zone stays as it was and nothing
is posted (DESIGN CHOICE, log 123). -/
def leadUpdate (s : State) : State :=
  let tau := leadUs s
  let zone := zoneNow s
  let s := (s.wr Reg.LA_LEAD_US.lead_us 0 (sat 32 tau)).wr Reg.LA_LEAD_LINES.lead_lines 0 (sat 32 (leadLines s))
  if s.on Reg.LA_STATUS.job_open && zone != s.rd Reg.LA_STATUS.zone then
    (s.wr Reg.LA_STATUS.zone 0 zone).event 0x0202 noChan (nextDue s) zone (sat 32 tau)
  else s

def isGreen (s : State) : Bool := leadFrom s (s.rd Reg.LA_WM_GREEN.wm_green)
def belowAmber (s : State) : Bool := !leadFrom s (s.rd Reg.LA_WM_AMBER.wm_amber)
def isRed (s : State) : Bool := leadUpTo s (s.rd Reg.LA_WM_RED.wm_red)

/-- GP-40 mode without rescue enters neither THROTTLE nor REWIND (R492). -/
def noRescue (s : State) : Bool := s.gp40 && !s.gp.rescue

/-- The policy in effect: 1 THROTTLE, 2 REWIND, 3 THROTTLE then REWIND (R157). -/
def policyOf (s : State) : Nat := if noRescue s then 1 else match curJob s with | some j => j.policy | none => 0

/-- v_cmd of the THROTTLE law, µm/s (R158). -/
def throttleSpeed (s : State) : Nat :=
  let v := jobSpeed s * 1000
  let red := s.rd Reg.LA_WM_RED.wm_red
  let (num, den) := leadFrac s
  let f := v * (num - red * den) / (den * max 1 (s.rd Reg.LA_WM_AMBER.wm_amber - red))
  min v (max f (s.rd Reg.LA_THROTTLE.v_floor * 1000))

/-! ### The Renderer's release of lines (R230) -/

/-- Position of a line, 2⁻³² mm, under the origin that was its own. -/
def linePos (s : State) (g : Nat) : Option Int :=
  (s.insp.origins.find? (fun o => decide (o.1 ≤ g))).map (fun o => o.2 + ((g : Int) - o.1) * s.rd Reg.FS_PITCH.line_pitch)

/-- The page of a line, queued or fired. -/
def anyPage (s : State) (g : Nat) : Option Page :=
  (s.la.fired ++ s.la.pages).find? (fun p => decide (p.first ≤ g) && decide (g < p.first + p.lines))

def State.pipe (s : State) (n : Nat) : Pipe := Tbl.get Pipe.reset s.insp.pipes n
def State.setPipe (s : State) (n : Nat) (x : Pipe) : State := { s with insp := { s.insp with pipes := s.insp.pipes.put n x } }
def State.group (s : State) (g : Nat) : Group := Tbl.get Group.reset s.insp.groups g
def State.setGroup (s : State) (g : Nat) (x : Group) : State := { s with insp := { s.insp with groups := s.insp.groups.put g x } }

/-- The pipelines bound in a group. -/
def boundPipes (s : State) (g : Nat) : List Nat :=
  (List.range 16).filter (fun n => s.on Reg.INSP_PIPE_BIND.pbound n && s.rd Reg.INSP_PIPE_BIND.pgroup n == g)

/-- Group `g` has ended, at every pipeline, the frame that holds line `n`'s material, its place as that pipeline's residual has it (R219);
material before its start it never sees. -/
def groupSaw (s : State) (g n : Nat) : Bool :=
  let x := s.group g
  if !x.on then true
  else if !x.started then false
  else match linePos s n with
    | none => true
    | some y =>
      (boundPipes s g).all (fun p =>
        let m := (y - x.e0 - (s.pipe p).geom.sub) / max 1 (s.rd Reg.GRP_PITCH.grid_pitch g)
        decide (m < 0) || decide (x.base + m.toNat / max 1 (s.rd Reg.GRP_CFG.frame_lines g) + 1 ≤ (s.pipe p).ended))

/-- A slot has disposed of every line up to `g`: its start-of-scans have passed and no part of them waits. -/
def slotPast (s : State) (slot g : Nat) : Bool :=
  decide (g < (s.slot slot).next) && !(s.slot slot).parts.any (fun q => decide (q.line ≤ g))

/-- The groups that inspect a set of planes. -/
def planeGroups (s : State) (planes : Nat) : List Nat :=
  (List.range 4).filter (fun g => (planeList planes).any (fun p => s.rd Reg.INSP_PLANE_GRP.pgrp p == g))

/-- Line `g` may be released: fired in every row, and seen by every running group of its planes; a line of no page has nothing. -/
def lineFree (s : State) (g : Nat) : Bool :=
  match anyPage s g with
  | none => decide (g < s.la.accepted)
  | some p => (pageSlots s p).all (fun k => slotPast s k g) && (planeGroups s p.planes).all (fun r => groupSaw s r g)

/-- The first line from `g` on that is not released. -/
def relFrom (s : State) : Nat → Nat → Nat
  | 0, g => g
  | n + 1, g => if lineFree s g then relFrom s n (g + 1) else g

/-- RASTER_RELEASE (R230): `rel_line` moves on, folios below it are released, and a job's last one is posted. -/
def rasterRelease (s : State) : State :=
  let r := relFrom s (s.la.endLine - s.insp.rel) s.insp.rel
  let s := { s with insp := { s.insp with rel := r }, la := { s.la with
    past := s.la.past.filter (fun x => decide (r < x.1.line)), closed := s.la.closed.filter (fun j => decide (r < j.ended.getD r)) } }
  let shown := match curJob s with | some j => r - j.base | none => 0
  let s := s.wr2 Reg.INSP_REL_LINE_LO.rel_line_lo Reg.INSP_REL_LINE_HI.rel_line_hi 0 shown
  let (done, rest) := s.la.fired.partition (fun p => decide (p.last < r))
  let s := { s with la := { s.la with fired := rest } }
  done.foldl (fun s p => if p.jobEnd then s.event 0x0204 noChan (p.last - p.base + 1) p.job 0 else s) s

/-! ### The end of a page and of a job (R133, R134) -/

/-- The print rows have decoded every line of the page: a starved line's drops are counted from its decode (R159). -/
def pageDecoded (s : State) (p : Page) : Bool :=
  (planeList p.planes).all (fun q => (rowsOf s q 1).all (fun i =>
    match nextDecode s q i with | some g => decide (p.last < g) | none => true))

/-- Every row has fired, skipped or withheld the page's last line. -/
def pageDone (s : State) (p : Page) : Bool :=
  decide (p.last < s.la.accepted) && pageDecoded s p && (pageSlots s p).all (fun k => slotPast s k p.last) &&
  decide (p.last < s.fire.refNext)

/-- The mark word of a page is posted: on the ring in INSP_MARK_RING, or as event 0x0306; the vendor's classifier raises the page's record
(R243). -/
def markPost (s : State) (p : Page) : State :=
  let r := s.rd Reg.INSP_MARK_RING.mark_ring
  if p.mark = 0 then s
  else
  let s := accessionPage s p.job p.page p.mark
  if r = 0 then s.event 0x0306 noChan p.job p.page p.mark
  else if s.ringOpen r then
    ringPost s r { addr := 0, length := 0, opcode := 0x0602, irq := true, chain := false, tag := p.job * 2 ^ 32 + p.page,
                   status := 0, result := p.mark }
  else s

/-- PAGE_FIRED (R133): `fired_line` is written, the mark posted, and the page leaves the queue. -/
def pageFired (s : State) (p : Page) : State :=
  let s := s.pokeNat (p.addr + 48) 8 (p.last - p.base + 1)
  let s := if counting s then markPost s p else s
  let s := { s with la := { s.la with pages := s.la.pages.filter (fun q => q.first != p.first), fired := s.la.fired ++ [p] } }
  s.wr Reg.LA_STATUS.queue_free 0 (64 - s.la.pages.length)

/-- The origin of the open job, wp, as FS_ORIGIN shows it (R170). -/
def showOrigin (s : State) : State :=
  match curJob s with
  | some j => s.wr2i Reg.FS_ORIGIN_LO.origin_lo Reg.FS_ORIGIN_HI.origin_hi 0 (if s.fire.w0Set then refPos s j.base / 65536 else 0)
  | none => s

/-- A job closes: the next one queued becomes the open job, or none is (R134). FS_ORIGIN keeps the last job's W0 while none is open (DESIGN
CHOICE, log 134). -/
def jobClose (s : State) : State :=
  match s.la.jobs with
  | [] => s
  | old :: rest =>
    let s := { s with led := { s.led with passed := s.snapLine } }
    let s := substCommitAll s
    let next := match rest with | j :: _ => j.base | [] => s.la.endLine
    let s := { s with la := { s.la with
      jobs := rest, slip := false, closed := s.la.closed ++ [{ old with ended := some next }]
      bankFrom := (List.range 16).foldl (fun (t : Tbl Nat) p => t.put p next) s.la.bankFrom } }
    let s := { s with fire := { s.fire with firedJob := false } }
    let s := (s.wr Reg.FS_STATUS.cap_active 0 0)
    match rest with
    | j :: _ => showOrigin ((s.wr Reg.LA_STATUS.policy_eff 0 j.policy).wr Reg.MEM_RR_STATUS.horizon_eff 0 (horizonEff s))
    | [] =>
      let s := (s.wr Reg.LA_STATUS.job_open 0 0).wr Reg.LA_STATUS.policy_eff 0 0
      let s := { s with
        la := { s.la with stopFrom := none, starved := [], moved := [], bandSeen := [] },
        fire := { s.fire with w0Set := false } }
      leadUpdate s

/-- The lines that a slot of a job still holds: those whose parts wait, and those accepted that its start-of-scan has not reached. -/
def linesLeft (s : State) (idx k : Nat) : List Nat :=
  let x := s.slot k
  (x.parts.filter (fun q => q.jobIdx == idx && decide (q.line < x.next))).map (·.line) ++
    ((List.range (s.la.accepted - x.next)).map (· + x.next)).filter (fun g =>
      match pageOf s g with | some p => p.jobIdx == idx && (pageSlots s p).contains k | none => false)

/-- Held lines of a job are counted withheld in every slot, and its pages leave the queue. -/
def withholdJob (s : State) (idx : Nat) : State :=
  let s := (List.range 80).foldl (fun s k =>
    let s := (linesLeft s idx k).foldl (fun s g => setFate s k g fateWithheld) s
    let n := s.ledGet (jobKey idx (Led.linesHeld k))
    let s := s.ledMove (jobKey idx (Led.linesHeld k)) (jobKey idx (Led.linesWithheld k)) n
    let x := s.slot k
    s.setSlot k { x with parts := x.parts.filter (fun q => q.jobIdx != idx) }) s
  let s := (List.range 16).foldl (fun s p => moveDrops s idx p (s.ledGet (jobKey idx (Led.dropsHeld p))) Led.dropsWithheld) s
  let left := s.la.pages.filter (fun p => p.jobIdx == idx)
  let s := left.foldl (fun s p => markPost s { p with mark := Nat.lor p.mark markSpoilt }) s
  let s := { s with la := { s.la with pages := s.la.pages.filter (fun p => p.jobIdx != idx), stopCloses := false } }
  s.wr Reg.LA_STATUS.queue_free 0 (64 - s.la.pages.length)

/-- Pages at the head of the queue that are done are fired; a job whose `job_end` page is done closes. Pages of the job queued behind that one
are withheld as it closes: the manual refuses no such page and gives it no end (DESIGN CHOICE, log 123). -/
def retirePages : Nat → State → State
  | 0, s => s
  | n + 1, s =>
    match s.la.pages with
    | p :: _ =>
      if pageDone s p then
        let s := pageFired s p
        let more := s.la.pages.any (fun q => q.jobIdx == p.jobIdx)
        retirePages n (if p.jobEnd then jobClose (if more then withholdJob s p.jobIdx else s) else s)
      else s
    | [] => s

def State.retirePages (s : State) : State := rasterRelease (Machine.retirePages s.la.pages.length s)

end Sys2Proof.Machine
end

