-- ==== Sys2Proof/Machine/Modes.lean ====
section
/-! DEFINITION. Major modes (R46 to R51) and the request side of local transitions: which transitions exist, which are waiting, and
where a stop lets the last line fire. `Transit` applies them. -/

namespace Sys2Proof.Machine

/-! ### Table 2-2 -/

/-- The epoch transitions. -/
def epochAllowed (m t : Nat) : Bool :=
  (m == modeIdle && (t == modeService || t == modeCalibrate || t == modePrint)) ||
  ((m == modeService || m == modeCalibrate) && t == modeIdle) ||
  (m == modeHold && t == modeRewind) ||
  ((m == modePrint || m == modeThrottle || m == modeRewind || m == modeHold) && t == modeStop)

/-- The local transitions that wait for a line boundary or for standstill; reset, FREEZE and the trip are applied apart. -/
def localAllowed (m t : Nat) : Bool :=
  ((m == modeService || m == modeCalibrate) && t == modeIdle) ||
  (m == modePrint && t == modeThrottle) || (m == modeThrottle && t == modePrint) ||
  ((m == modePrint || m == modeThrottle) && t == modeRewind) ||
  (m == modeRewind && (t == modePrint || t == modeHold)) ||
  (m == modeHold && t == modeRewind) ||
  ((m == modePrint || m == modeThrottle || m == modeRewind || m == modeHold) && t == modeStop) ||
  (m == modeStop && t == modeIdle) ||
  ((m == modePrint || m == modeThrottle || m == modeRewind || m == modeHold || m == modeIdle) && t == modeShadow)

/-- Host software reaches the registers beyond the identity and mode page. -/
def hostOpen (s : State) : Bool := s.mode != modeCold && s.mode != modeReload

/-- The codes of Table 0-5. -/
def isMode (t : Nat) : Bool := decide (1 ≤ t) && decide (t ≤ 12)

/-! ### The head slots' interval (R50, R58) -/

/-- The head slots have an interval in progress (R58): a job open with its origin set, and the web at its minimum print speed or above,
which is forward. -/
def headsRunning (s : State) : Bool :=
  s.on Reg.LA_STATUS.job_open && s.fire.w0Set && decide ((s.rd Reg.FS_VMIN.v_min * 1000 : Nat) ≤ webSpeed s)

/-! ### Requests (R50, R51) -/

def causeEpoch : Nat := 0
def causeReset : Nat := 1
def causeLead : Nat := 2
def causeDie : Nat := 3
def causeHead : Nat := 4
def causeTrip : Nat := 5
def causeHbm : Nat := 6
def causeSwitch : Nat := 7
def causeJobEnd : Nat := 8
def causeDecapLimit : Nat := 9
def causeCapped : Nat := 10
def causeRollback : Nat := 11

/-- A local transition is requested: it waits for the next boundary, once for each target. -/
def requestMode (s : State) (target cause : Nat) (line : Option Nat := none) : State :=
  if s.md.pending.any (fun p => p.1 == target) then s
  else { s with md := { s.md with pending := s.md.pending ++ [(target, cause, line)] } }

/-- Precedence on one line (R51): a reset, ORDERLY_STOP, REWIND or HOLD, THROTTLE, then the rest. -/
def precedence (t : Nat) : Nat :=
  if t = modeReload then 4 else if t = modeStop then 3 else if t = modeRewind ∨ t = modeHold then 2 else if t = modeThrottle then 1 else 0

/-! ### Stop lines (R160, R197, R198) -/

/-- No slot charges line `g` or later; an earlier stop stands. -/
def setStopFrom (s : State) (g : Nat) : State :=
  { s with la := { s.la with stopFrom := some (match s.la.stopFrom with | some h => min g h | none => g) } }

/-- S + 1: the line after the highest whose reference-row start-of-scan has passed (R197). -/
def lineAfterPassed (s : State) : Nat := s.fire.refNext

/-- The line after the last of the page that holds S (R197, R198);
the line due where none has passed. -/
def lineAfterPage (s : State) : Nat :=
  if s.fire.refNext = 0 then 0
  else match pageOf s (s.fire.refNext - 1) with
  | some p => max s.fire.refNext (p.last + 1)
  | none => s.fire.refNext

/-- Modes that print lines. -/
def isPrinting (m : Nat) : Bool := m == modePrint || m == modeThrottle

def inRun (m : Nat) : Bool := m == modePrint || m == modeThrottle || m == modeRewind || m == modeHold

/-- ORDERLY_STOP is requested, no slot charging line `g` or later; under policy 1 the job closes at standstill (R197). Where one is requested
already, a die limit gives it its cause (Table 14-5). -/
def requestStop (s : State) (cause g : Nat) : State :=
  if !inRun s.mode then s
  else if s.md.pending.any (fun p => p.1 == modeStop) then
    if cause = causeDie then
      { s with md := { s.md with pending := s.md.pending.map (fun p => if p.1 = modeStop then (p.1, causeDie, p.2.2) else p) } }
    else s
  else
    let s := if s.on Reg.LA_STATUS.job_open then setStopFrom s g else s
    let s := { s with la := { s.la with stopCloses := policyOf s == 1 && s.on Reg.LA_STATUS.job_open } }
    requestMode s modeStop cause none

/-- The stop line of a slot that leaves its temperature window (R197). -/
def windowStop (s : State) : Nat := if policyOf s = 1 then lineAfterPage s else lineAfterPassed s

/-! ### The mode of a line (R57) -/

/-- The mode under which a head slot fires a line (R50, R57). -/
def modeOfLine (s : State) (g : Nat) : Nat :=
  if s.mode = modeShadow || s.mode = modeCold || s.mode = modeReload then s.mode
  else match s.md.lines.find? (fun x => decide (x.1 ≤ g)) with
    | some x => x.2
    | none => unitMode s (2 ^ 80 - 1)

/-- Modes in which no job line fires (Table 2-1): a line that falls under one stays held and due. -/
def modeBars (m : Nat) : Bool := m == modeIdle || m == modeCold || m == modeReload

/-- A line that a stop line or its own mode holds back (Table 5-2, row 1; Table 2-1). -/
def heldBack (s : State) (g : Nat) : Bool :=
  (match s.la.stopFrom with | some h => decide (h ≤ g) | none => false) || modeBars (modeOfLine s g)

/-- The reference row's next line is held from firing: it stays due. -/
def refHeld (s : State) : Bool := heldBack s s.fire.refNext

end Sys2Proof.Machine
end

