-- ==== Sys2Proof/Machine/Motion.lean ====
section
/-! DEFINITION. The Motion Engine (R274 to R293): profiles, commands, homing, switches, standstill current, capping and the Drive Link
frame. -/

namespace Sys2Proof.Machine

def State.axis (s : State) (n : Nat) : Axis := Tbl.get Axis.reset s.mot.axes n

def State.setAxis (s : State) (n : Nat) (x : Axis) : State :=
  { s with mot := { s.mot with axes := s.mot.axes.put n x } }

def State.drivePort (s : State) (k : Nat) : DrivePort := Tbl.get DrivePort.reset s.mot.ports k

def State.setDrivePort (s : State) (k : Nat) (x : DrivePort) : State :=
  { s with mot := { s.mot with ports := s.mot.ports.put k x } }

def State.switch (s : State) (k : Nat) : Switch := Tbl.get Switch.reset s.mot.switches k

def State.setSwitch (s : State) (k : Nat) (x : Switch) : State :=
  { s with mot := { s.mot with switches := s.mot.switches.put k x } }

/-- The 16 axes. -/
def axes16 : List Nat := List.range 16

/-! ### Profile arithmetic

One servo period of `dt` ns, in the units of `Axis`. -/

/-- 1 wp in position units, 1 µm/s in speed units, 1 mm/s² in acceleration units. -/
def unitP : Int := 244140625
def unitV : Int := 16000000
def unitA : Int := 1000000000

/-- Position, speed and acceleration of a profile. -/
structure Kin where
  p : Int
  v : Int
  a : Int
  deriving DecidableEq, Repr

/-- One period in which the acceleration runs evenly to `a`. -/
def Kin.go (dt : Nat) (a : Int) (k : Kin) : Kin :=
  let v := k.v + (k.a + a) * 8 * dt / 1000000000
  { p := k.p + (k.v + v) * dt / 2000000, v, a }

/-- An acceleration moves towards `goal` by at most `step`, what the jerk limit allows in a period (R275). -/
def accTowards (step a goal : Int) : Int := max (a - step) (min (a + step) goal)

/-- The greatest acceleration that a period may end with so that the speed can then still be eased to `goal` under jerk `j`: the larger
root x of x² + j·dt·x = 2·j·(goal − v) − j·dt·a, or `low_` where there is none. -/
def easeAcc (j dt : Nat) (goal low_ : Int) (k : Kin) : Int :=
  let step : Int := (j * dt : Nat)
  let d := step * step + 4 * (j * (goal - k.v) * 125000000 - step * k.a)
  if d < 0 then low_ else ((rootOf d.toNat : Int) - step) / 2

/-- One period towards a speed above: the highest acceleration within `a_max` and `j_max` from which the goal can be eased into. An
acceleration above a lowered `a_max` comes down at `j_max` (R278). -/
def rise (aMax j dt : Nat) (goal : Int) (k : Kin) : Kin :=
  let lim : Int := aMax * unitA
  let step : Int := (j * dt : Nat)
  k.go dt (max (accTowards step k.a (-lim)) (min (accTowards step k.a lim) (easeAcc j dt goal (-lim) k)))

def Kin.neg (k : Kin) : Kin := { p := -k.p, v := -k.v, a := -k.a }

/-- Within one period the profile can come to speed `goal` with zero acceleration, under jerk `j`. -/
def settles (j dt : Nat) (goal : Int) (k : Kin) : Bool :=
  let step : Int := (j * dt : Nat)
  let d := j * (goal - k.v) * 250000000
  decide (k.a.natAbs ≤ j * dt) && decide (d ≤ (k.a + step) * (k.a + step) - 2 * k.a * k.a) &&
    decide (-d ≤ (k.a - step) * (k.a - step) - 2 * k.a * k.a)

/-- One period towards speed `goal` (R275). Where `j_max` would pass `a_max` within a period, the jerk is held to what reaches it. -/
def track (aMax jMax dt : Nat) (goal : Int) (k : Kin) : Kin :=
  let j := min jMax (aMax * 1000000000 / max 1 dt)
  if settles j dt goal k then { p := k.p + (k.v + goal) * dt / 2000000, v := goal, a := 0 }
  else if k.v ≤ goal then rise aMax j dt goal k
  else (rise aMax j dt (-goal) k.neg).neg

/-- The position at which the profile comes to rest under these limits. -/
def restAt (aMax j dt : Nat) : Nat → Kin → Int
  | 0, k => k.p
  | n + 1, k => if k.v = 0 ∧ k.a = 0 then k.p else restAt aMax j dt n (track aMax j dt 0 k)

/-- Periods within which every stop ends. -/
def stopFuel : Nat := 1099511627776

/-- Position `x` lies beyond `target` in direction `up`. -/
def beyond (up : Bool) (target x : Int) : Bool := if up then decide (target < x) else decide (x < target)

/-- One period towards a position target: at most at `peak`, never so fast that the stop would pass the target (R275). -/
def approach (aMax j dt : Nat) (peak target : Int) (k : Kin) : Kin :=
  let up := decide (k.p < target)
  let fast := track aMax j dt (if up then peak else -peak) k
  let keep := track aMax j dt k.v k
  if !beyond up target (restAt aMax j dt stopFuel fast) then fast
  else if !beyond up target (restAt aMax j dt stopFuel keep) then keep
  else track aMax j dt 0 k

/-- What is left of a move that is made as one stretch from standstill: below one unit of the set-point, or below what the jerk-limited
approach can cover from rest. -/
def landing (aMax jMax v dt : Nat) : Nat :=
  let j := min jMax (aMax * 1000000000 / max 1 dt)
  max unitP.toNat (min (64 * j * dt * dt * dt / 1000000000000000) (128 * v * dt))

/-- A stretch of length `d` from rest to rest in `n` periods keeps within speed, acceleration and jerk limits. -/
def lastFits (v aMax j dt d n : Nat) : Bool :=
  let t := n * dt
  decide (d ≤ 8 * v * t) && decide (d * 500000 ≤ aMax * t * t) && decide (d * 2000000000000000 ≤ j * t * t * t)

/-- The first number of periods from `n` on that fits. -/
def firstFit (fits : Nat → Bool) : Nat → Nat → Nat
  | 0, n => n
  | m + 1, n => if fits n then n else firstFit fits m (n + 1)

/-- The stretch of length `d` from `p` after `i` of its `n` periods: four quarters of even jerk. -/
def lastKin (p d : Int) (n i dt : Nat) : Kin :=
  let h : Int := min i (n - i)
  let m : Int := n
  let r := 4 * h - m
  let t : Int := n * dt
  let early := decide (4 * h ≤ m)
  let x := if early then 64 * h * h * h else m * m * m + 3 * r * m * m + 3 * r * r * m - r * r * r
  let v := if early then 16 * h * h else m * m + 2 * r * m - r * r
  let a := if early then 32 * h else 8 * (m - r)
  let part := d * x / (12 * m * m * m)
  { p := if 2 * i ≤ n then p + part else p + d - part
    v := d * 1000000 * v / (t * m * m)
    a := (if 2 * i ≤ n then d else -d) * 62500000000000 * a / (t * t * m) }

/-! ### An axis -/

def Axis.kin (x : Axis) : Kin := { p := x.p, v := x.v, a := x.a }

/-- The axis is at standstill. -/
def Axis.atRest (x : Axis) : Bool := x.v == 0 && x.a == 0 && x.goal == .still

/-- Set-point position in wp (R274). -/
def Axis.wp (x : Axis) : Int := x.p / unitP

/-- The servo period of an axis, ns. -/
def servoNs (s : State) (n : Nat) : Nat := s.ent (chDl (s.ent (chAxis n) AxisE.port)) DlE.servoNs

/-- The axis takes part in motion: a valid entry with `axis_en` 1. -/
def axisOn (s : State) (n : Nat) : Bool := s.entOn (chAxis n) AxisE.axisEn

/-- The commanded speed of an axis, µm/s: the speed it is commanded to run at (R277), 0 while it stops, the profile's own towards a
target. -/
def Axis.speedCmd (x : Axis) : Int :=
  match x.goal with
  | .speed v => max (-(x.vLim : Int)) (min v x.vLim)
  | .stop _ => 0
  | .target _ _ => x.v / unitV
  | .still => x.v / unitV

/-- `ax_state`, MOT_AX_POS, MOT_AX_VEL and the axis's bits of MOT_STATUS, as the axis now stands. -/
def showAxis (s : State) (n : Nat) : State :=
  let x := s.axis n
  let st := if !axisOn s n || !x.enabled then 0 else if s.rd Reg.MOT_AX_STATE.home_step n ≠ 0 then 3
    else if x.atRest then 1 else match x.goal with | .stop _ => 4 | _ => 2
  let s := (s.wr Reg.MOT_AX_STATE.ax_state n st).wr2i Reg.MOT_AX_POS_LO.pos_lo Reg.MOT_AX_POS_HI.pos_hi n x.wp
  let s := s.wri Reg.MOT_AX_VEL.vel n x.speedCmd
  let bitOf (f : Fld) (b : Bool) (s : State) : State :=
    s.wr f 0 (if b then Nat.lor (s.rd f) (2 ^ n) else Nat.land (s.rd f) (65535 - 2 ^ n))
  bitOf Reg.MOT_STATUS.homed_map (s.on Reg.MOT_AX_STATE.homed n) (bitOf Reg.MOT_STATUS.moving_map (!x.atRest) s)

/-- A fault flag of an axis and its bit of MOT_FAULT. -/
def axisFlag (s : State) (n : Nat) (f : Fld) : State :=
  (s.wr f n 1).wr Reg.MOT_FAULT.axis_fault 0 (Nat.lor (s.rd Reg.MOT_FAULT.axis_fault) (2 ^ n))

/-- Homing in progress ends as failed (R291, R292). -/
def homeFail (s : State) (n : Nat) : State :=
  if s.rd Reg.MOT_AX_STATE.home_step n = 0 then s
  else axisFlag ((s.wr Reg.MOT_AX_STATE.home_step n 0).setAxis n { s.axis n with homePart := 0 }) n Reg.MOT_AX_STATE.home_failed

/-- The axis stops under its limits, with no target (STOP, ORDERLY_STOP, FREEZE, a drive fault; R276, R292). -/
def axisStop (s : State) (n : Nat) (hard : Bool := false) : State :=
  let s := homeFail s n
  let x := s.axis n
  let g := if x.v = 0 ∧ x.a = 0 then Goal.still else Goal.stop hard
  showAxis (s.setAxis n { x with goal := g, lastTarget := none, behind := false, past := false, last := none }) n

/-- A target lies behind the point at which the axis can stop under its limits (R279). -/
def behindTarget (s : State) (n : Nat) (target : Int) : Bool :=
  let x := s.axis n
  let rest := restAt x.aLim x.jLim (servoNs s n) stopFuel x.kin
  if x.v > 0 then decide (target * unitP < rest) else if x.v < 0 then decide (rest < target * unitP) else false

/-- An axis goes to a target, in wp (R276, R279). -/
def axisMove (s : State) (n : Nat) (target : Int) (peak : Nat) : State :=
  showAxis (s.setAxis n { s.axis n with
    goal := .target target peak, lastTarget := some target, behind := behindTarget s n target, past := false, last := none }) n

/-- An axis runs at a speed, µm/s. -/
def axisRun (s : State) (n : Nat) (v : Int) : State :=
  showAxis (s.setAxis n { s.axis n with goal := .speed v, lastTarget := none, behind := false, past := false, last := none }) n

/-! ### Switches of an axis (R288, R293) -/

/-- Switch `k` is at its active level, the axis's polarity bit `i` giving which that is. -/
def switchActive (s : State) (n k i : Nat) : Bool :=
  k != 0xFF && ((s.switch k).level == bit (s.ent (chAxis n) AxisE.swPol) i)

def homeActive (s : State) (n : Nat) : Bool := switchActive s n (s.ent (chAxis n) AxisE.swHome) 0
def limNegActive (s : State) (n : Nat) : Bool := switchActive s n (s.ent (chAxis n) AxisE.swLimNeg) 1
def limPosActive (s : State) (n : Nat) : Bool := switchActive s n (s.ent (chAxis n) AxisE.swLimPos) 2

/-- A move in direction `d` goes towards a travel limit switch that is active. -/
def towardsLimit (s : State) (n : Nat) (d : Int) : Bool :=
  (decide (d < 0) && limNegActive s n) || (decide (0 < d) && limPosActive s n)

/-! ### Homing (R290 to R292) -/

/-- +1 or −1: `home_dir`. -/
def homeSign (s : State) (n : Nat) : Int := if s.entOn (chAxis n) AxisE.homeDir then 1 else -1

def homeFast (s : State) (n : Nat) : Int := homeSign s n * s.ent (chAxis n) AxisE.homeFast
def homeSlow (s : State) (n : Nat) : Int := homeSign s n * s.ent (chAxis n) AxisE.homeSlow

/-- Homing goes to a step (and a part of it) with this goal. -/
def homeTo (s : State) (n step part : Nat) (g : Goal) : State :=
  let behind := match g with | .target t _ => behindTarget s n t | _ => false
  showAxis ((s.wr Reg.MOT_AX_STATE.home_step n step).setAxis n
    { s.axis n with goal := g, homePart := part, lastTarget := none, behind, past := false, last := none }) n

/-- Step 3: back off until the switch is inactive, then a further `backoff` (parts 0 and 1). -/
def homeBackOff (s : State) (n : Nat) : State :=
  if homeActive s n then homeTo s n 3 0 (.speed (-homeSlow s n))
  else homeTo s n 3 1 (.target ((s.axis n).wp - homeSign s n * s.ent (chAxis n) AxisE.backoff) (s.ent (chAxis n) AxisE.homeSlow))

/-- HOME: the search of step 1, or step 3 where the switch is active. -/
def homeStart (s : State) (n : Nat) : State :=
  if homeActive s n then homeBackOff s n else homeTo s n 1 0 (.speed (homeFast s n))

/-- Step 5: the latched position becomes `home_offset`; the drive's set-point does not move. -/
def homeDone (s : State) (n : Nat) : State :=
  let x := s.axis n
  let d := s.enti (chAxis n) AxisE.homeOffset - s.rd2i Reg.MOT_AX_LATCH_LO.latch_lo Reg.MOT_AX_LATCH_HI.latch_hi n
  let s := s.setAxis n { x with p := x.p + d * unitP, shift := x.shift - d, homePart := 0, hist := x.hist.map (fun h => (h.1, h.2 + d)) }
  showAxis ((s.wr Reg.MOT_AX_STATE.home_step n 0).wr Reg.MOT_AX_STATE.homed n 1) n

/-- A homing axis has come to standstill (Table 8-6). -/
def homeRest (s : State) (n : Nat) : State :=
  let x := s.axis n
  match s.rd Reg.MOT_AX_STATE.home_step n, x.homePart with
  | 1, 1 => homeBackOff s n
  | 1, 2 => homeTo s n 2 0 (.speed (-homeFast s n))
  | 3, 1 => homeTo s n 4 0 (.speed (homeSlow s n))
  | 4, 1 => homeDone (s.wr Reg.MOT_AX_STATE.home_step n 5) n
  | _, _ => s

/-- The home switch qualified at a new level during homing; `pos` is the position captured. -/
def homeSwitch (s : State) (n : Nat) (active : Bool) (pos : Int) : State :=
  let x := s.axis n
  match s.rd Reg.MOT_AX_STATE.home_step n, x.homePart, active with
  | 1, 0, true => homeTo s n 1 1 (.stop false)
  | 2, 0, true => homeBackOff s n
  | 3, 0, false => homeBackOff s n
  | 4, 0, true =>
    let s := s.wr2i Reg.MOT_AX_LATCH_LO.latch_lo Reg.MOT_AX_LATCH_HI.latch_hi n pos
    let k := s.ent (chAxis n) AxisE.swHome
    let s := s.setSwitch k { s.switch k with ignoreTo := s.clk + s.ent (chAxis n) AxisE.latchHoldoff * usU }
    homeTo s n 4 1 (.stop false)
  | _, _, _ => s

/-- A travel limit switch qualified active (R291, R293); `d` is the direction in which it lies. -/
def limitSwitch (s : State) (n : Nat) (d : Int) : State :=
  let x := s.axis n
  let step := s.rd Reg.MOT_AX_STATE.home_step n
  if step = 1 then homeTo s n 1 2 (.stop false)
  else if step ≠ 0 then axisStop (s.wr Reg.MOT_AX_STATE.homed n 0) n
  else if 0 < d * x.v then axisFlag (axisStop s n true) n Reg.MOT_AX_STATE.limit_hit
  else s

/-- An axis names switch `k`. -/
def namesSwitch (s : State) (k n : Nat) : Bool :=
  s.inUse (chAxis n) &&
    (s.ent (chAxis n) AxisE.swHome == k || s.ent (chAxis n) AxisE.swLimNeg == k || s.ent (chAxis n) AxisE.swLimPos == k)

/-- How long a new level of switch `k` stands at least before it qualifies: `debounce` filter samples of `deb_div` × 5 ns (R288). -/
def debounceOf (s : State) (k : Nat) : Nat :=
  match axes16.find? (namesSwitch s k) with
  | some n => s.ent (chAxis n) AxisE.debounce * s.ent (chAxis n) AxisE.debDiv * 5 * nsU
  | none => 0

/-- A switch input has qualified at `level`, its first raw change at clock instant `t0` (R288 to R293). -/
def switchQualify (s : State) (k : Nat) (level : Bool) (t0 : Nat) : State :=
  let w := s.switch k
  if w.level == level || decide (s.clk < w.ignoreTo) || decide (s.clk < t0 + debounceOf s k) then s
  else
    let s := (s.setSwitch k { w with level }).capture (0x10 + k) (s.devAt t0)
    axes16.foldl (fun s n =>
      if !s.inUse (chAxis n) then s
      else
        let fb := s.ent (chAxis n) AxisE.fbInput
        let pos := if fb = 0xFF then histAt (s.axis n).wp (s.axis n).hist t0 else fbPosAt s fb t0
        if s.ent (chAxis n) AxisE.swHome = k then homeSwitch s n (homeActive s n) pos
        else if s.ent (chAxis n) AxisE.swLimNeg = k && limNegActive s n then limitSwitch s n (-1)
        else if s.ent (chAxis n) AxisE.swLimPos = k && limPosActive s n then limitSwitch s n 1
        else s) s

/-! ### Commands (Table 8-1, R276, R277) -/

def opMoveAbs : Nat := 1
def opMoveRel : Nat := 2
def opVelocity : Nat := 3
def opStop : Nat := 4
def opHome : Nat := 5
def opEnable : Nat := 6
def opDisable : Nat := 7

/-- The target a move names. -/
def moveTarget (s : State) (n op : Nat) : Int :=
  let t := s.rd2i Reg.MOT_TARGET_LO.target_lo Reg.MOT_TARGET_HI.target_hi
  if op = opMoveRel then (s.axis n).lastTarget.getD (s.axis n).wp + t else t

/-- The sign of an integer. -/
def sgn (i : Int) : Int := if 0 < i then 1 else if i < 0 then -1 else 0

/-- The direction in which a command moves the axis, 0 for none. -/
def commandDir (s : State) (n op : Nat) : Int :=
  if op = opMoveAbs ∨ op = opMoveRel then sgn (moveTarget s n op - (s.axis n).wp)
  else if op = opVelocity then sgn (s.rdi Reg.MOT_SPEED.speed)
  else if op = opHome then (if homeActive s n then -homeSign s n else homeSign s n) else 0

/-- The axis accepts the command: an operation of Table 8-1, and no case of R276 and R277 holds. -/
def commandOk (s : State) (n op : Nat) : Bool :=
  let m := unitMode s (2 ^ (96 + n))
  let isMove := op == opMoveAbs || op == opMoveRel
  let speed := s.rdi Reg.MOT_SPEED.speed
  let job := s.on Reg.LA_STATUS.job_open
  op != 0 && axisOn s n && m != modeCold && m != modeReload && m != modeShadow && m != modeFreeze && m != modeStop &&
  !(n == 0 && (m == modeRewind || m == modeHold)) &&
  !(isMove && s.entOn (chAxis n) AxisE.swLimEn &&
    (decide (moveTarget s n op < s.enti (chAxis n) AxisE.posMin) ||
     decide (s.enti (chAxis n) AxisE.posMax < moveTarget s n op))) &&
  !((isMove || op == opVelocity) && decide (s.ent (chAxis n) AxisE.vMax < speed.natAbs)) &&
  !(isMove && speed == 0) &&
  !((isMove || op == opVelocity || op == opHome) && !(s.axis n).enabled) &&
  !towardsLimit s n (commandDir s n op) &&
  !(n == 0 && job && !(op == opVelocity && decide ((s.rd Reg.FS_VMIN.v_min * 1000 : Nat) ≤ speed) &&
      decide (speed ≤ (s.rd Reg.LA_VJOB.v_job * 1000 : Nat))))

/-- What an accepted command does: it replaces the one in progress from the next servo period. -/
def commandDo (s : State) (n op : Nat) : State :=
  let speed := s.rdi Reg.MOT_SPEED.speed
  if op = opMoveAbs ∨ op = opMoveRel then
    let t := moveTarget s n op
    axisMove (homeFail s n) n t speed.natAbs
  else if op = opVelocity then
    let s := homeFail s n
    axisRun (s.setAxis n { s.axis n with velCmd := speed }) n speed
  else if op = opStop then axisStop s n
  else if op = opHome then
    let s := homeFail s n
    homeStart (s.setAxis n { s.axis n with lastTarget := none }) n
  else if op = opEnable then
    let s := homeFail s n
    let x := s.axis n
    showAxis (s.setAxis n { x with enabled := x.enabled || x.atRest, lastTarget := none, faulted := false }) n
  else
    let x := s.axis n
    if x.atRest then showAxis ((homeFail s n).setAxis n { x with enabled := false, lastTarget := none }) n else s

/-- MOT_CMD with operation `op` for the axis in MOT_AXIS_SEL. -/
def motCommand (s : State) (op : Nat) : State :=
  let n := s.rd Reg.MOT_AXIS_SEL.axis_sel
  if commandOk s n op then commandDo s n op else s

/-! ### One servo period of an axis (R275, R278, R279, R281) -/

/-- The limits of the entry in effect. -/
def entryLimits (s : State) (n : Nat) : Nat × Nat × Nat :=
  (s.ent (chAxis n) AxisE.vMax, s.ent (chAxis n) AxisE.aMax, s.ent (chAxis n) AxisE.jMax)

/-- The limits for the coming period: the entry's, which end a last stretch that was fitted to others, unless the axis is slowing towards a target at which the lower limits would
no longer let it stop, or, the old ones once kept, still slows by more than the new `a_max` (R278). -/
def takeLimits (s : State) (n dt : Nat) : State :=
  let x := s.axis n
  let new := entryLimits s n
  let keep := match x.goal with
    | .target t _ =>
      decide (x.v * x.a < 0) && !x.behind && (decide (new.2.1 < x.aLim) || decide (new.2.2 < x.jLim)) &&
        (beyond (decide (0 < x.v)) (t * unitP) (restAt new.2.1 new.2.2 dt stopFuel x.kin) ||
          (s.on Reg.MOT_AX_STATE.decel_kept n && decide (new.2.1 * unitA.toNat < x.a.natAbs)))
    | _ => false
  if keep then
    (s.setAxis n { x with vLim := new.1, aLim := min x.aLim (s.ent (chAxis n) AxisE.aHard) }).wr
      Reg.MOT_AX_STATE.decel_kept n 1
  else
    (s.setAxis n { x with
      vLim := new.1, aLim := new.2.1, jLim := new.2.2, last := if new = (x.vLim, x.aLim, x.jLim) then x.last else none }).wr
      Reg.MOT_AX_STATE.decel_kept n 0

/-- One more period of the last stretch of a move, `i` of its `m` periods gone. -/
def lastStep (s : State) (n dt : Nat) (p d : Int) (m i : Nat) : State :=
  let x := s.axis n
  let k := lastKin p d m (i + 1) dt
  if m ≤ i + 1 then s.setAxis n { x with p := p + d, v := 0, a := 0, goal := .still, last := none }
  else s.setAxis n { x with p := k.p, v := k.v, a := k.a, last := some (p, d, m, i + 1) }

/-- One period towards a target with the stop at `a_hard` where the limits no longer reach (R279). -/
def targetStep (s : State) (n dt : Nat) (t : Int) (peak : Nat) : State :=
  let x := s.axis n
  let goal := t * unitP
  let hard := s.ent (chAxis n) AxisE.aHard
  match x.last with
  | some (p, d, m, i) => lastStep s n dt p d m i
  | none =>
    if x.behind || x.past then
      let k := track (if x.past then hard else x.aLim) x.jLim dt 0 x.kin
      let moves := !(decide (k.v = 0) && decide (k.a = 0))
      s.setAxis n { x with p := k.p, v := k.v, a := k.a, behind := x.behind && moves, past := x.past && moves }
    else if x.v = 0 ∧ x.a = 0 ∧ (goal - x.p).natAbs ≤ landing x.aLim x.jLim (min peak x.vLim) dt then
      let d := goal - x.p
      lastStep s n dt x.p d (if d = 0 then 1 else firstFit (lastFits (min peak x.vLim) x.aLim x.jLim dt d.natAbs) 65536 1) 0
    else
      let up := decide (0 < x.v)
      let passes := x.v != 0 && decide (0 < (goal - x.p) * x.v) &&
        beyond up goal (restAt x.aLim x.jLim dt stopFuel x.kin)
      if passes then
        let isOver := beyond up goal (restAt hard x.jLim dt stopFuel x.kin)
        let k := track hard x.jLim dt 0 x.kin
        let s := if isOver then s.wr Reg.MOT_AX_STATE.overshoot n 1 else s
        s.setAxis n { x with p := k.p, v := k.v, a := k.a, past := isOver }
      else
        let k := approach x.aLim x.jLim dt (min peak x.vLim * unitV) goal x.kin
        s.setAxis n { x with p := k.p, v := k.v, a := k.a }

/-- The speed an axis is commanded to, held within its limit. -/
def capSpeed (v : Int) (lim : Nat) : Int := max (-(lim : Int)) (min v lim)

/-- One servo period of an axis. An axis whose current is reduced first has full current for one period (R281). -/
def axisPeriod (s : State) (n dt : Nat) : State :=
  let s := takeLimits s n dt
  let x := s.axis n
  if s.on Reg.MOT_AX_STATE.hold_reduced n && x.goal != .still then
    showAxis ((s.wr Reg.MOT_AX_STATE.hold_reduced n 0).setAxis n { x with stillAt := s.clk }) n
  else
    let s := match x.goal with
      | .still => s
      | .speed v =>
        let k := track x.aLim x.jLim dt (capSpeed v x.vLim * unitV) x.kin
        let g := if v = 0 ∧ k.v = 0 ∧ k.a = 0 then Goal.still else Goal.speed v
        s.setAxis n { x with p := k.p, v := k.v, a := k.a, goal := g }
      | .stop hard =>
        let k := track (if hard then s.ent (chAxis n) AxisE.aHard else x.aLim) x.jLim dt 0 x.kin
        let g := if k.v = 0 ∧ k.a = 0 then Goal.still else Goal.stop hard
        s.setAxis n { x with p := k.p, v := k.v, a := k.a, goal := g }
      | .target t peak => targetStep s n dt t peak
    let y := s.axis n
    let at_ := s.clk + s.ent (chDl (s.ent (chAxis n) AxisE.port)) DlE.syncNs * nsU
    let kept := y.hist.takeWhile (fun h => decide (s.clk < h.1 + histSpan))
    let s := s.setAxis n { y with
      stillAt := if y.p = x.p then y.stillAt else s.clk, hist := (at_, y.wp) :: kept ++ ((y.hist.drop kept.length).take 1) }
    let s := showAxis s n
    if (s.axis n).atRest && s.rd Reg.MOT_AX_STATE.home_step n != 0 then homeRest s n else s

/-! ### Capping (R280) -/

/-- Axes of a role that take part in capping. -/
def cappingAxes (s : State) (role : Nat) : List Nat :=
  axes16.filter (fun n => axisOn s n && s.ent (chAxis n) AxisE.role == role)

/-- An axis begins its capping move: with its drive enabled, at once; else it is given its enable at standstill first. -/
def parkAxis (s : State) (n : Nat) : State :=
  let x := s.axis n
  if x.enabled then
    let s := axisMove s n (s.enti (chAxis n) AxisE.parkPos) (s.ent (chAxis n) AxisE.vMax)
    s.setAxis n { s.axis n with park := 2 }
  else showAxis (s.setAxis n { x with enabled := x.atRest, park := 1 }) n

def parkRole (s : State) (role : Nat) : State := (cappingAxes s role).foldl parkAxis s

/-- Every capping axis of a role is at standstill at its `park_pos`. -/
def parked (s : State) (role : Nat) : Bool :=
  (cappingAxes s role).all (fun n =>
    (s.axis n).park == 2 && (s.axis n).atRest && (s.axis n).wp == s.enti (chAxis n) AxisE.parkPos)

/-- Axis 0 is at standstill, or has no entry to move it. -/
def webAtRest (s : State) : Bool := !axisOn s 0 || (s.axis 0).atRest

/-- The capping of ORDERLY_STOP begins: axis 0 is at standstill. -/
def capStart (s : State) : State :=
  let s := axes16.foldl (fun s n => s.setAxis n { s.axis n with park := 0 }) s
  parkRole { s with mot := { s.mot with capping := 1 } } 1

/-- Capping goes on once the axes of its stage have arrived: bar lift, then capping axes, then capped (stage 3). -/
def capAdvance (s : State) : State :=
  let s := if s.mot.capping == 1 && parked s 1 then parkRole { s with mot := { s.mot with capping := 2 } } 2 else s
  if s.mot.capping == 2 && parked s 2 then { s with mot := { s.mot with capping := 3 } } else s

/-- An axis given its enable sends it in this period's frame, and begins its capping move in the next (R280). -/
def parkGo (s : State) (n : Nat) : State :=
  let x := s.axis n
  if x.park == 3 then parkAxis s n
  else if x.park == 1 then
    let on := x.enabled || x.atRest
    showAxis (s.setAxis n { x with enabled := on, park := if on then 3 else 1 }) n
  else s

/-! ### The Drive Link (R282 to R287) -/

/-- The axis at a drive of a port, if any names it. -/
def axisAt (s : State) (port drive : Nat) : Option Nat :=
  axes16.find? (fun n => s.inUse (chAxis n) && s.ent (chAxis n) AxisE.port == port && s.ent (chAxis n) AxisE.drive == drive)

/-- The axis, its entry no longer valid, whose set-points went to a drive of a port (R309). -/
def axisLeft (s : State) (port drive : Nat) : Option Nat :=
  axes16.find? (fun n => !s.inUse (chAxis n) && (s.axis n).sentTo == some (port, drive))

/-- The set-point of an axis in drive counts (R274). -/
def setPoint (s : State) (n : Nat) : Nat :=
  let x := s.axis n
  unsigned 32 ((x.wp + x.shift) * s.ent (chAxis n) AxisE.cntNum / max 1 (s.ent (chAxis n) AxisE.cntDen : Int))

/-- Standstill current is in use (R281): axis 0 only outside PRINT, THROTTLE and REWIND. -/
def currentReduced (s : State) (n : Nat) : Bool :=
  s.on Reg.MOT_AX_STATE.hold_reduced n &&
  !(n == 0 && (s.mode == modePrint || s.mode == modeThrottle || s.mode == modeRewind))

/-- The control word of an axis (Table 8-4). Brake release and clear fault are bits the manual gives no rule for. -/
def controlWord (s : State) (n : Nat) : Nat :=
  let x := s.axis n
  let level := if currentReduced s n then s.ent (chAxis n) AxisE.holdPct else 100
  ofBool x.enabled + 2 * (s.freeVal 1 % 4) + 256 * level

/-- One slot of the frame: what the device writes, and the drive's bytes empty. An axis out of use has control word 0 and keeps
the set-point last sent (R309). -/
def driveSlot (s : State) (port drive : Nat) : List Byte :=
  let hop := ((s.drivePort port).hops.drop drive).headD 0
  let slot (control point : Nat) : List Byte := leBytes 2 control ++ leBytes 4 point ++ leBytes 2 hop ++ List.replicate 8 0
  if s.ent (chDl port) DlE.drives ≤ drive then List.replicate 16 0
  else match axisAt s port drive with
    | some n => if axisOn s n then slot (controlWord s n) (setPoint s n) else slot 0 (s.axis n).sent
    | none => match axisLeft s port drive with
      | some n => slot 0 (s.axis n).sent
      | none => slot 0 0

/-- Header of a frame of a type (Table 8-3). -/
def frameHead (s : State) (port type : Nat) : List Byte :=
  leBytes 1 type ++ leBytes 1 (s.drivePort port).period ++ leBytes 3 (s.ent (chDl port) DlE.syncNs / 16) ++
    leBytes 2 (s.ent (chDl port) DlE.servoNs / 500) ++ leBytes 1 0

def withCrc (b : List Byte) : List Byte := b ++ leBytes 4 (crc32 b)

/-- Characters 1 to 140 of a frame (Table 8-3). -/
def driveFrame (s : State) (port : Nat) : List Byte :=
  withCrc (frameHead s port 1 ++ ((List.range 8).map (driveSlot s port)).flatten)

/-- The loop-back frame of link-up (R284): of type 0x02; what its slots carry is not stated. -/
def loopFrame (s : State) (port : Nat) : List Byte := withCrc (frameHead s port 2 ++ leBytes 128 (s.freeVal 155))

/-- The DRV_ transmit pairs are in high impedance (Table 17-7): in SHADOW, in a start, and once the die limit has given the press to the partner
(R287, R444). -/
def drvSilent (s : State) : Bool := s.mode == modeShadow || s.mode == modeCold || s.mode == modeReload || s.md.coolReset

/-- The loop-back frame of a link-up goes out unless the port is silent. -/
def loopSend (s : State) (port : Nat) : State := if drvSilent s then s else (s.emit (.driveFrame port (loopFrame s port))).spend

/-- A port begins to link up: its axes lose their drive enable, an axis in motion is stopped, and the loop-back frame goes out unless the
port is silent (R284, R287). -/
def driveLinkUp (s : State) (port : Nat) : State :=
  let s := s.wr Reg.DL_STATE.dl_link port 1
  let s := s.setDrivePort port { s.drivePort port with lost := 0, returned := false, lastTrig := none }
  let s := axes16.foldl (fun s n =>
    if s.inUse (chAxis n) && s.ent (chAxis n) AxisE.port == port then
      let s := axisStop s n
      showAxis (s.setAxis n { s.axis n with enabled := false, missed := 0, faulted := false }) n
    else s) s
  loopSend s port

/-- A drive fault of an axis (R285): `why` bit 0 fresh bit not toggled, bit 1 fault reported. It is posted as it arises, and the axis is
stopped while it lasts. -/
def driveFault (s : State) (n code why : Nat) : State :=
  let x := s.axis n
  let s := s.setAxis n { x with faulted := true }
  let s := if x.faulted && s.on Reg.MOT_AX_STATE.drive_fault n then s
    else (axisFlag s n Reg.MOT_AX_STATE.drive_fault).event 0x0601 (chAxis n) 0 code why
  match x.goal with
  | .still => s
  | .stop _ => s
  | _ => axisStop s n

/-- A drive's fresh bit did not toggle in a period. -/
def freshMissed (s : State) (n : Nat) : State :=
  let x := s.axis n
  let s := s.setAxis n { x with missed := x.missed + 1 }
  if s.ent (chDl (s.ent (chAxis n) AxisE.port)) DlE.missLimit ≤ x.missed + 1 then
    driveFault s n (s.rd Reg.MOT_AX_STATE.drv_code n) 1
  else s

/-- What one drive returned: bytes 8 to 15 of its slot (Table 8-4). -/
def driveReturn (s : State) (port drive : Nat) (slot : List Byte) : State :=
  let status := leNat ((slot.drop 8).take 2)
  let pos := leNat ((slot.drop 10).take 4)
  let cur := leNat ((slot.drop 14).take 2)
  let d := s.drivePort port
  let toggled := bit d.fresh drive != bit status 0
  let s := s.setDrivePort port { d with fresh := if toggled then Nat.xor d.fresh (2 ^ drive) else d.fresh }
  let s := s.wr Reg.DL_STATE.fresh_map port
    (s.rd Reg.DL_STATE.fresh_map port + (if toggled then 2 ^ drive else 0))
  match axisAt s port drive with
  | none => s
  | some n =>
    let x := s.axis n
    let p := signed 32 pos
    let dt := s.ent (chDl port) DlE.servoNs * nsU
    let speed := match x.drvPos with
      | some q => speedOf ((p - q) * s.ent (chAxis n) AxisE.cntDen / max 1 (s.ent (chAxis n) AxisE.cntNum : Int)) dt
      | none => 0
    let s := s.setAxis n { x with drvPos := some p, drvSpeed := speed, missed := if toggled then 0 else x.missed }
    let s := (s.wr Reg.MOT_AX_DRV_POS.drv_pos n pos).wr Reg.MOT_AX_DRV_CUR.drv_cur n cur
    let s := if bit status 2 then s.wr Reg.MOT_AX_STATE.drv_code n (bits status 8 8) else s
    let s := if toggled then s else freshMissed s n
    if bit status 2 then driveFault s n (bits status 8 8) (if toggled then 2 else 3)
    else if toggled then s.setAxis n { s.axis n with faulted := false } else s

/-- A frame came back on a port: discarded where its CRC fails, else each drive's bytes are taken (R285). -/
def driveFrameBack (s : State) (port : Nat) (chars : List Byte) : State :=
  if s.rd Reg.DL_STATE.dl_link port ≠ 2 then s
  else if chars.length ≠ 140 ∨ crc32 (chars.take 136) ≠ leNat (chars.drop 136) then s.count Reg.DL_ERR.crc_err port
  else
    let s := (s.setDrivePort port { s.drivePort port with returned := true, lost := 0 }).wr Reg.DL_STATE.fresh_map port 0
    (List.range (s.ent (chDl port) DlE.drives)).foldl
      (fun s d => driveReturn s port d ((chars.drop (8 + 16 * d)).take 16)) s

/-- A port without a returned frame in the period that ends (R284, R285): after 16 the port links up again. -/
def driveLost (s : State) (port : Nat) : State :=
  let d := s.drivePort port
  if d.returned then s.setDrivePort port { d with returned := false }
  else
    let s := s.setDrivePort port { d with lost := d.lost + 1 }
    let s := axes16.foldl (fun s n =>
      if axisOn s n && s.ent (chAxis n) AxisE.port == port then freshMissed s n else s) s
    if 16 ≤ d.lost + 1 then driveLinkUp s port else s

end Sys2Proof.Machine
end

