-- ==== Sys2Proof/Machine/Lanes.lean ====
section
/-! DEFINITION. Lanes, their groups and the lane switches (R385 to R407), as far as the fire path takes part: which lane carries a slot,
what a latch of the switches does, and the wait of a planned move for a RELEASE. `LaneOps` holds bring-up, failures and commands. -/

namespace Sys2Proof.Machine

def lane52 : List Nat := List.range 52
def heads48 : List Nat := List.range 48

def State.lane (s : State) (n : Nat) : Lane := Tbl.get Lane.reset s.ln.lanes n

def State.setLane (s : State) (n : Nat) (x : Lane) : State :=
  { s with ln := { s.ln with lanes := s.ln.lanes.put n x } }

/-- `lstate` of a lane: 0 down, 1 bring-up, 2 in service, 3 spare, 4 recalibrating, 5 retired, 6 test. -/
def State.lstate (s : State) (n : Nat) : Nat := s.rd Reg.LANE_STATE.lstate n

/-- The physical lane of a logical lane, and its home lane (R393). -/
def physLane (s : State) (l : Nat) : Nat := s.rd Reg.LANE_MAP.phys l
def homeLane (l : Nat) : Nat := l / 5 * 6 + l % 5

/-- The logical lane that a physical head lane carries. -/
def logicalOn (s : State) (n : Nat) : Option Nat := (List.range 40).find? (fun l => physLane s l == n)

/-- The head slots of a logical lane. -/
def laneSlots (s : State) (l : Nat) : List Nat :=
  (List.range 80).filter (fun k => s.inUse (chSlot k) && s.ent (chSlot k) SlotE.lane == l)

/-- The physical lane that carries a head slot. -/
def slotLane (s : State) (k : Nat) : Nat := physLane s (s.ent (chSlot k) SlotE.lane)

/-- The lane carries traffic (R401): a twin lane in service; a head lane, neither spare, retired nor under test, that carries a logical lane
with a valid slot. -/
def carriesTraffic (s : State) (n : Nat) : Bool :=
  if 48 ≤ n then s.lstate n == 2
  else s.lstate n != 3 && s.lstate n != 5 && s.lstate n != 6 &&
    (match logicalOn s n with | some l => !(laneSlots s l).isEmpty | none => false)

/-- A field of a lane's entry, or its factory value (R405). -/
def laneEnt (s : State) (n : Nat) (f : EF) (factory : Nat) : Nat := if s.inUse (chLane n) then s.ent (chLane n) f else factory

/-- The spare of a group, brought up and healthy. -/
def groupSpare (s : State) (g : Nat) : Option Nat :=
  ((List.range 6).map (· + 6 * g)).find? (fun n => s.lstate n == 3)

/-- LANE_STATUS as the lanes stand. -/
def showLanes (s : State) : State :=
  let up := (List.range 4).foldl (fun n k => if s.lstate (48 + k) == 2 then n + 2 ^ k else n) 0
  let n (c : Nat) := (heads48.filter (fun k => s.lstate k == c)).length
  ((s.wr Reg.LANE_STATUS.twin_up 0 up).wr Reg.LANE_STATUS.hl_spares 0 (n 3)).wr Reg.LANE_STATUS.hl_retired 0 (n 5)

def setLstate (s : State) (n c : Nat) : State := showLanes (s.wr Reg.LANE_STATE.lstate n c)

/-- `link` of a logical lane's slots as its lane stands: 0 down, 1 training, 2 up, 3 up on a lane that is not its home. A link lost
ends the slot's session: authentication runs at link-up (R201). -/
def showLinks (s : State) (l : Nat) : State :=
  let p := physLane s l
  let c := s.lstate p
  let v := if c = 2 then (if p = homeLane l then 2 else 3) else if c = 1 then 1 else 0
  (laneSlots s l).foldl (fun s k =>
    let lost := decide (2 ≤ s.rd Reg.FS_SLOT_STATE.link k) && decide (v < 2)
    let s := if lost && gpRunning s then gpInt s Reg.GP_INT_STAT.head_fault else s
    (if lost then s.wr Reg.FS_SLOT_STATE.auth k 0 else s).wr Reg.FS_SLOT_STATE.link k v) s

/-- Bits its PRBS checker has checked, at 25.78125 Gbit/s, on a head lane in GP-40 mode 5.0 Gbit/s (R385, R402, R488). -/
def prbsBits (s : State) (n : Nat) : Nat :=
  s.rd2 Reg.PRBS_BITS_LO.bits_lo Reg.PRBS_BITS_HI.bits_hi n +
    (match (s.lane n).chkAt with
     | some t => if s.gp40 && decide (n < 48) then (s.clk - t) * 5 / nsU else (s.clk - t) * 2578125 / (100000 * nsU)
     | none => 0)

/-- PRBS_CTRL as written for a lane that carries no traffic: `chk_en` 0 → 1 clears the count of bits. -/
def prbsWrite (s : State) (n : Nat) (chk : Bool) : State :=
  let was := s.on Reg.PRBS_CTRL.chk_en n
  if chk && !was then
    let s := s.wr2 Reg.PRBS_BITS_LO.bits_lo Reg.PRBS_BITS_HI.bits_hi n 0
    (s.setLane n { s.lane n with chkAt := none }).wr Reg.PRBS_CTRL.chk_sync n 0
  else if !chk && was then
    let s := s.wr2 Reg.PRBS_BITS_LO.bits_lo Reg.PRBS_BITS_HI.bits_hi n (prbsBits s n)
    (s.setLane n { s.lane n with chkAt := none }).wr Reg.PRBS_CTRL.chk_sync n 0
  else s

/-- A lane stops its PRBS: generator and checker. -/
def prbsStop (s : State) (n : Nat) : State :=
  ((prbsWrite s n false).wr Reg.PRBS_CTRL.gen_en n 0).wr Reg.PRBS_CTRL.chk_en n 0

/-- A lane that comes to carry traffic leaves its loop and stops its PRBS (R401). -/
def laneClear (s : State) (n : Nat) : State :=
  ((prbsStop s n).wr Reg.LANE_LOOP.loop_req n 0).wr Reg.LANE_STATE.loop n 0

/-- A head lane without a logical lane is its group's spare, on its far-end loop with PRBS31 as self-test (R402). -/
def laneSpare (s : State) (n : Nat) : State :=
  let s := prbsWrite s n true
  let s := (s.wr Reg.LANE_STATE.loop n 3).wr Reg.PRBS_CTRL.pattern n 4
  setLstate ((s.wr Reg.PRBS_CTRL.gen_en n 1).wr Reg.PRBS_CTRL.chk_en n 1) n 3

/-! ### The lane switches (R394) -/

/-- The group word with the home map: `src_i` i, no copy. -/
def homeWord : Nat := 7 * 2 ^ 18 + 4 * 2 ^ 12 + 3 * 2 ^ 9 + 2 * 2 ^ 6 + 2 ^ 3
def groupWord (s : State) (g : Nat) : Nat := Tbl.get homeWord s.ln.words g

/-- `src_i` of a word replaced. -/
def setSrc (w i v : Nat) : Nat := w - bits w (3 * i) 3 * 2 ^ (3 * i) + v * 2 ^ (3 * i)

/-- `br_out` and `br_lane` of a word replaced. -/
def setBridge (w out lane : Nat) : Nat := w % 2 ^ 15 + lane * 2 ^ 15 + out * 2 ^ 18

/-- The words of a move: the bridge of step 2, and the final ones. -/
def bridgeWord (s : State) (m : LaneMove) : Nat := setBridge (groupWord s (m.l / 5)) (m.l % 5) (m.b % 6)
def finalWord (s : State) (m : LaneMove) : Nat := setBridge (setSrc (groupWord s (m.l / 5)) (m.l % 5) (m.b % 6)) 7 0

/-- 192 bits are shifted: group 7 first. -/
def shiftAll (s : State) (word : Nat → Nat) : State :=
  s.emit (.laneShift ((List.range 8).foldl (fun n k => n + word k * 2 ^ (24 * k)) 0))

/-- The words held are shifted again, one group's replaced. -/
def shiftWords (s : State) (g w : Nat) : State := shiftAll s (fun k => if k = g then w else groupWord s k)

/-- The word that feeds no port of a group: all its lanes are on their far-end loops. -/
def loopWord : Nat := 7 * 2 ^ 18 + (2 ^ 15 - 1)

/-- HL_SW_LAT is pulsed: a group's word takes effect; the one before it is remembered. -/
def latchWord (s : State) (g w : Nat) : State :=
  ({ s with ln := { s.ln with words := s.ln.words.put g w, prev := groupWord s g } }).emit (.ball .hlSwLat true)

/-- Credits of the slots of `l` leave lane `a` and join lane `b` (R398). -/
def moveCredits (s : State) (l a b : Nat) : State :=
  let k := ((laneSlots s l).map (fun k => (s.slot k).credits)).foldl (· + ·) 0
  let s := (s.ledAdd (Led.creditsUsed a) k).ledPut (Led.creditsAvailable a) (s.ledGet (Led.creditsAvailable a) - k)
  (s.ledAdd (Led.creditsGranted b) k).ledAdd (Led.creditsAvailable b) k

/-- The logical lane runs on lane `b`: LANE_MAP, the lanes' states, the slots' `link`. -/
def mapLane (s : State) (l a b stateA : Nat) : State :=
  let s := (s.wr Reg.LANE_MAP.phys l b).wrb Reg.LANE_MAP.moved l (b != homeLane l)
  showLinks (setLstate (setLstate (laneClear s b) b 2) a stateA) l

/-- The move in progress. -/
def curMove (s : State) : Option LaneMove := s.ln.moves.head?

def setMove (s : State) (m : LaneMove) : State := { s with ln := { s.ln with moves := m :: s.ln.moves.tail } }

/-- Step 5 of a planned move: the final words are latched, the lanes change, lane a on its far-end loop, and verification begins. -/
def planLatch (s : State) (m : LaneMove) : State :=
  let s := latchWord s (m.l / 5) (finalWord s m)
  let recal := decide (Tbl.find s.cal.running 0 = some m.a)
  let s := mapLane (moveCredits s m.l m.a m.b) m.l m.a m.b (if recal then 4 else 3)
  let s := if recal then s.wr Reg.LANE_STATE.loop m.a 3 else laneSpare s m.a
  let s := s.setLane m.b { s.lane m.b with idleTo := s.clk + 8448 * nsU / 100 }
  setMove s { m with step := 6, since := s.clk }

/-- A RELEASE or KEEPOPEN set went out for a slot of a logical lane whose move awaits it (step 5, R404). -/
def laneReleased (s : State) (k : Nat) : State :=
  match curMove s with
  | some m => if m.planned && m.step == 5 && s.ent (chSlot k) SlotE.lane == m.l then planLatch s m else s
  | none => s

/-- A start-of-scan from step 4 to the end of step 5, the last of its IDLE blocks, waits 100 ns less for its data (R396). -/
def deadlineOf (s : State) (k : Nat) : Nat :=
  let d := s.rd Reg.FS_DEADLINE.data_deadline
  match curMove s with
  | some m =>
    if m.planned && (m.step == 4 || m.step == 5 || (m.step == 6 && decide (s.clk < (s.lane m.b).idleTo))) && s.ent (chSlot k) SlotE.lane == m.l
    then d - 100 else d
  | none => d

/-- A move begins: the bridge of a planned one is shifted, the final words of another (R396, R397); the spare has left its PRBS. -/
def moveBegin (s : State) : State :=
  match curMove s with
  | none => s
  | some m =>
    let m := { m with step := if m.planned then 2 else 4, since := s.clk }
    let s := prbsStop s m.b
    shiftWords (setMove s m) (m.l / 5) (if m.planned then bridgeWord s m else finalWord s m)

/-- A move of the logical lane waits or is in progress; the spare is taken by one. -/
def moving (s : State) (l : Nat) : Bool := s.ln.moves.any (fun m => m.l == l)
def spareTaken (s : State) (b : Nat) : Bool := s.ln.moves.any (fun m => m.b == b)

/-- The first logical lane of a group that is down with its lane retired, and for which no move waits. -/
def lostLane (s : State) (g : Nat) : Option Nat :=
  ((List.range 5).map (· + g * 5)).find? (fun l => s.lstate (physLane s l) == 5 && !moving s l)

/-- A group that has its spare again moves the logical lane it left down to it (R404). -/
def spareClaim (s : State) (g : Nat) : State :=
  match groupSpare s g, lostLane s g with
  | some b, some l =>
    if spareTaken s b then s
    else { s with ln := { s.ln with moves := s.ln.moves ++
        [{ l, a := physLane s l, b, step := 0, planned := false, since := s.clk, asked := false }] } }
  | _, _ => s

/-- The move in progress ends, LANE_CMD_RESULT `result` if the host asked for it, and the next one begins. -/
def moveEnd (s : State) (result : Nat) : State :=
  match curMove s with
  | none => s
  | some m =>
    let s := if m.asked then s.wr Reg.LANE_CMD_RESULT.cmd_result 0 result else s
    moveBegin (spareClaim { s with ln := { s.ln with moves := s.ln.moves.tail } } (m.l / 5))

/-- A back-channel set arrived on the new lane: the move is verified (R399), and the next one can begin. -/
def laneHeard (s : State) (n : Nat) : State :=
  match curMove s with
  | some m =>
    if m.step == 6 && m.b == n then moveEnd (s.setLane n { s.lane n with verify := 0 }) 1
    else s
  | none => s

end Sys2Proof.Machine
end

