-- ==== Sys2Proof/Machine/Twin.lean ====
section
/-! DEFINITION. The twin link as a unit sends on it (R410 to R413): ordered sets, records, credits and the replay buffer. -/

namespace Sys2Proof.Machine

/-- An ordered set of `type` with `fields` in bits [55:8] and its check byte (R188). -/
def orderedSetWord (type fields : Nat) : Nat :=
  type * 2 ^ 56 + fields % 2 ^ 48 * 256 + crc8Field 56 (type % 256 * 2 ^ 48 + fields % 2 ^ 48)

/-- A back-channel set of `type` received as `word`: its fields, `none` where its check byte or its type is wrong. -/
def backSet (type word : Nat) : Option Nat :=
  if bits word 56 8 = type ∧ bits word 0 8 = crc8Field 56 (word / 256 % 2 ^ 56) then some (bits word 8 48) else none

/-- Twin lanes in service. -/
def twinLanes (s : State) : List Nat := (List.range 4).map (· + 48) |>.filter (fun n => s.lstate n == 2)

/-- An ordered set on each twin lane in service. -/
def twinSet (s : State) (type fields : Nat) : State :=
  (twinLanes s).foldl (fun s n => s.emit (.twinSet n (orderedSetWord type fields))) s

def osTwinIdle : Nat := 0xC1
def osTwinHb : Nat := 0xC2
def osTwinCredit : Nat := 0xC3
def osTwinAck : Nat := 0xC4
def osTwinNak : Nat := 0xC5
def osTwinFail : Nat := 0xC6

/-- TWIN_FAIL with its cause: 1 FREEZE, 2 warm reset, 3 die limit. -/
def twinFail (s : State) (cause : Nat) : State := twinSet s osTwinFail (cause * 2 ^ 44)

/-- Bytes of records. -/
def recBytes (rs : List TwinRec) : Nat := (rs.map TwinRec.size).foldl (· + ·) 0

/-- A record as it goes on a lane: type, reserved byte, body length and sequence, the body, and the CRC-32 over both (R411). -/
def recordWire (seq : Nat) (r : TwinRec) : List Byte :=
  let b := leBytes 1 r.code ++ leBytes 1 0 ++ leBytes 2 r.body.length ++ leBytes 4 seq ++ r.body
  b ++ leBytes 4 (crc32 b)

/-- PAIR_SYNC `backlog_kib`: records not yet acknowledged. -/
def showBacklog (s : State) : State :=
  let n := recBytes s.pair.live + recBytes s.pair.resync + recBytes (s.pair.replay.map (·.2))
  s.wr Reg.PAIR_SYNC.backlog_kib 0 (sat 16 (n / 1024))

/-- The replay buffer keeps the newest records that fit in 1 MiB (R412). -/
def trimReplay : List (Nat × TwinRec) → List (Nat × TwinRec)
  | [] => []
  | r :: rs => if recBytes ((r :: rs).map (·.2)) ≤ 1048576 then r :: rs else trimReplay rs

/-- A record goes out on a twin lane under its sequence number. -/
def recordOut (s : State) (lane seq : Nat) (r : TwinRec) : State :=
  let s := s.emit (.twinRecord lane seq r (recordWire seq r))
  (s.ledMove (Led.creditsAvailable lane) (Led.creditsUsed lane) r.credits)

/-- The lane for a record: of those in service with credits for it, chosen in turn. -/
def recordLane (s : State) (r : TwinRec) : Option Nat :=
  let fit := (twinLanes s).filter (fun n => decide (r.credits ≤ s.ledGet (Led.creditsAvailable n)))
  fit[s.pair.seqOut % max 1 fit.length]?

/-- The next record to send: the live stream takes precedence over a resync (R416). -/
def nextRecord (s : State) : Option (TwinRec × Pair) :=
  match s.pair.live with
  | r :: rs => some (r, { s.pair with live := rs })
  | [] => match s.pair.resync with
    | r :: rs => some (r, { s.pair with resync := rs })
    | [] => none

/-- Records go out while a lane in service holds credits for the next one: first those to be sent again (R412). -/
def twinPump : Nat → State → State
  | 0, s => s
  | n + 1, s =>
    match s.pair.again with
    | (seq, r) :: rs =>
      match recordLane s r with
      | none => s
      | some lane => twinPump n ((recordOut { s with pair := { s.pair with again := rs } } lane seq r).count Reg.PAIR_TWIN.rec_retx)
    | [] =>
    match nextRecord s with
    | none => s
    | some (r, p) =>
      match recordLane s r with
      | none => s
      | some lane =>
        let seq := s.pair.seqOut
        let s := { s with pair := { p with seqOut := (seq + 1) % 2 ^ 32, replay := trimReplay (p.replay ++ [(seq, r)]) } }
        twinPump n (recordOut s lane seq r)

def State.twinPump (s : State) : State :=
  showBacklog (Machine.twinPump (s.pair.again.length + s.pair.live.length + s.pair.resync.length) s)

/-- The partner is in sync and fit, as it last said, and heard in the last 4.0 µs (R421, R422, R444). -/
def partnerReady (s : State) : Bool :=
  s.on Reg.PAIR_CFG.pair_en && s.pair.heardSync && s.pair.heardFit && !s.on Reg.PAIR_STATUS.twin_lost &&
  (match s.pair.heardAt with | some t => decide (s.clk ≤ t + 4 * usU) | none => false)

end Sys2Proof.Machine
end

