-- ==== Sys2Proof/Machine/Fire.lean ====
section
/-! DEFINITION. Start-of-scan, the Fire Sequencer and the Head Link (R169 to R206): positions, dispositions, releases, frames, credits,
head temperature and authentication, as operations on a head slot. -/

namespace Sys2Proof.Machine

def slots80 : List Nat := List.range 80

/-! ### Lanes and ordered sets (R186 to R189) -/

def slotHalf (s : State) (k : Nat) : Nat := s.ent (chSlot k) SlotE.laneHalf

/-- The slot's link is up, on its own lane or a spare (Table 5-11). -/
def linkUp (s : State) (k : Nat) : Bool := decide (2 ≤ s.rd Reg.FS_SLOT_STATE.link k)

/-- The device drives the heads: not in SHADOW (R192), nor once it has left the press to its partner (R421). -/
def driving (s : State) : Bool := s.mode != modeShadow && !s.fire.silent

/-- Charge-bearing sets and data go out: on a lane that is up, of a device that drives the heads. -/
def mayDrive (s : State) (k : Nat) : Bool := linkUp s k && driving s

/-- Fields of a forward set for a slot: bit 55 the slot, `rest` in bits [54:8]. -/
def slotFields (s : State) (k rest : Nat) : Nat := slotHalf s k * 2 ^ 47 + rest % 2 ^ 47

def sendSet (s : State) (lane type fields : Nat) : State := s.emit (.orderedSet lane (orderedSetWord type fields))

/-- A forward set for a slot, where the slot may be driven. -/
def slotSet (s : State) (k type rest : Nat) : State :=
  if mayDrive s k then sendSet s (slotLane s k) type (slotFields s k rest) else s

def osHeartbeat : Nat := 0xA3
def osRelease : Nat := 0xA4
def osKeepopen : Nat := 0xA5
def osWaveCommit : Nat := 0xA6
def osLinkInit : Nat := 0xA7
def osDrive : Nat := 0xA8

/-- The head slot that a half of a physical lane carries. -/
def slotOn (s : State) (lane half : Nat) : Option Nat :=
  slots80.find? (fun k => s.inUse (chSlot k) && slotLane s k == lane && slotHalf s k == half)

/-- The slot that a received set names by its bit 55. -/
def slotOfSet (s : State) (lane fields : Nat) : Option Nat := slotOn s lane (bits fields 47 1)

/-- A set that its receiver discards is counted (R188). -/
def setError (s : State) (lane : Nat) : State := s.count Reg.LANE_ERR.os_err lane

/-- A block came under an invalid sync header, which its bits from 64 on tell: it is no set, and counts in `hdr_err` (R386). -/
def headerBad (word : Nat) : Bool := decide (2 ^ 64 ≤ word)

/-- What a received set does to the slot it names. -/
def onSet (s : State) (lane type word : Nat) (f : State → Nat → Nat → State) : State :=
  if headerBad word then s.count Reg.LANE_ERR.hdr_err lane
  else match backSet type word with
  | none => setError s lane
  | some fields =>
    let s := laneHeard s lane
    match slotOfSet s lane fields with
    | some k => f s k fields
    | none => s

/-- The pair identifier of HEARTBEAT: a factory value. -/
def pairId : Nat := Config.fuse 80 % 256

/-- HEARTBEAT on every forward lane in service (R192). -/
def heartbeat (s : State) : State :=
  let role := if driving s then 1 else 2
  let fields := role * 2 ^ 46 + pairId * 2 ^ 38 + s.fire.hbSeq % 65536 * 2 ^ 22
  let lanes := heads48.filter (fun n => s.lstate n == 2)
  let s := lanes.foldl (fun s n => sendSet s n osHeartbeat fields) s
  { s with fire := { s.fire with hbSeq := (s.fire.hbSeq + 1) % 65536, hbAt := some s.clk } }

/-! ### Positions (R170) -/

/-- P_s(n) in 2⁻³² mm. -/
def slotPos (s : State) (k g : Nat) : Int :=
  let d := match slotRow s k with | some (p, i) => (planeRow s p i).delay | none => 0
  s.fire.w0 + ((g : Int) - s.fire.w0Line + d) * s.rd Reg.FS_PITCH.line_pitch + s.enti (chSlot k) SlotE.subOffset * 65536 -
    max (webSpeed s) 0 * s.ent (chSlot k) SlotE.compNs * 4294967296 / 1000000000000

/-- The position is increasing (R171): the last move of the web input was forward. -/
def webForward (s : State) : Bool := (s.fb s.webInput).dir == 1

/-- Lines whose start-of-scan exists: up to the end of the last job queued, where its end is queued. -/
def lineExists (s : State) (g : Nat) : Bool :=
  match s.la.jobs.getLast? with
  | some j => match j.ended with | some e => decide (g < e) | none => true
  | none => false

/-- The slot has an entry, or a row that names it: its lines are raised. -/
def slotLives (s : State) (k : Nat) : Bool := s.inUse (chSlot k) || (slotRow s k).isSome

/-- The next line of a slot is due now. -/
def slotDue (s : State) (k : Nat) : Bool :=
  slotLives s k && s.fire.w0Set && webForward s && lineExists s (s.slot k).next &&
  decide (slotPos s k (s.slot k).next ≤ webPos s)

/-- The next line of the reference row is due now. -/
def refDue (s : State) : Bool :=
  s.fire.w0Set && webForward s && lineExists s s.fire.refNext && !refHeld s && decide (refPos s s.fire.refNext ≤ webPos s)

/-- v_cap of R182, µm/s, over the slots in use by the open job: 0 with no job open. -/
def vCapUm (s : State) : Nat :=
  let caps := (openSlots s).filterMap (fun k => match slotRow s k with
    | some (p, _) => some (98 * s.ent (chPlane p) PlaneE.nPrint * s.rd Reg.FS_PITCH.line_pitch * 1000000000000 /
        (max 1 (s.ent (chSlot k) SlotE.wavePeriodNs) * 4294967296 * 100))
    | none => none)
  if !s.on Reg.LA_STATUS.job_open then 0 else match caps with | [] => 0 | n :: ns => ns.foldl min n

/-- v_cap as FS_VCAP shows it, in whole mm/s. -/
def vCap (s : State) : Nat := vCapUm s / 1000

/-- The speed commanded to axis 0, µm/s: the least of the last VELOCITY speed, v_cmd while in THROTTLE and v_cap while asked (R277). -/
def webCommand (s : State) : Int :=
  let v := (s.axis 0).velCmd
  let v := if s.mode = modeThrottle then min v (throttleSpeed s) else v
  if s.on Reg.FS_STATUS.cap_active then min v (vCapUm s : Nat) else v

/-! ### Charge (Table 5-2, row 3) -/

/-- `auth_req` 1 and no authenticated session, outside the grace of R206. -/
def authForbids (s : State) (k : Nat) : Bool :=
  s.entOn (chSlot k) SlotE.authReq && s.rd Reg.FS_SLOT_STATE.auth k != 2 &&
  !(match (s.slot k).graceTo with | some t => decide (s.clk < t) | none => false)

/-- The temperature state forbids charge: outside or invalid (R195). -/
def tempForbids (s : State) (k : Nat) : Bool := decide (2 ≤ s.rd Reg.FS_SLOT_STATE.temp_state k)

def chargeForbidden (s : State) (k : Nat) : Bool :=
  !s.entOn (chSlot k) SlotE.fireEn || tempForbids s k || s.md.dieForbids || authForbids s k

/-- KEEPOPEN stop for a slot whose keep-open pulses run (R194). -/
def keepopenStop (s : State) (k : Nat) : State :=
  if s.on Reg.FS_SLOT_STATE.keepopen k then (laneReleased (slotSet s k osKeepopen 0) k).wr Reg.FS_SLOT_STATE.keepopen k 0 else s

/-- `withholding` and the instant since which charge is forbidden follow the slot's state (R196, R199). -/
def chargeUpdate (s : State) (k : Nat) : State :=
  let no := chargeForbidden s k && s.inUse (chSlot k)
  let x := s.slot k
  let s := s.setSlot k { x with forbidAt := if no then some (x.forbidAt.getD s.clk) else none }
  let s := s.wrb Reg.FS_SLOT_STATE.withholding k no
  if no then keepopenStop s k else s

/-! ### Head temperature (R195 to R198) -/

/-- The next temperature state (Table 5-12): 0 in window, 1 warning, 2 outside, 3 invalid; values in 1/16 °C. -/
def nextTempState (now : Nat) (v tmin tmax warn hyst : Int) : Nat :=
  if now ≤ 1 then
    if v < tmin ∨ tmax < v then 2
    else if now = 0 ∧ warn ≤ v then 1
    else if now = 1 ∧ v ≤ warn - hyst then 0 else now
  else if tmin + hyst ≤ v ∧ v ≤ warn - hyst then 0
  else if warn ≤ v ∧ v ≤ tmax - hyst then 1
  else 2

/-- No valid value for 1.0 ms. -/
def tempStale (s : State) (k : Nat) : Bool :=
  match (s.slot k).tempAt with | some t => decide (t + msU ≤ s.clk) | none => true

/-- A slot leaves its window while an ORDERLY_STOP is requested or its last lines still fire: the stop line moves back to that of R197. -/
def stopSooner (s : State) (g : Nat) : State :=
  let stopping := s.md.pending.any (fun p => p.1 == modeStop) || (s.mode == modeStop && s.la.stopStage == 1)
  if stopping && s.on Reg.LA_STATUS.job_open then
    let s := setStopFrom s g
    { s with la := { s.la with stopCloses := s.la.stopCloses || policyOf s == 1 } }
  else s

/-- What a change of temperature state starts: the event of R196 or R198, and ORDERLY_STOP for a slot that leaves its window
(R197) or, with `warn_stop`, enters warning (R198). -/
def tempChanged (s : State) (k old new : Nat) : State :=
  let left := decide (old ≤ 1) && decide (2 ≤ new)
  let warned := new == 1
  let s := s.wr Reg.FS_SLOT_STATE.temp_state k new
  let s := if left || warned then s.event 0x0304 (chSlot k) (nextDue s) new (unsigned 32 (s.slot k).temp) else s
  let s := if left && gpRunning s then gpInt s Reg.GP_INT_STAT.head_fault else s
  let s := if left then requestStop (stopSooner s (windowStop s)) causeHead (windowStop s)
    else if warned && s.entOn (chSlot k) SlotE.warnStop then requestStop s causeHead (lineAfterPage s) else s
  chargeUpdate s k

/-- SLOT_TEMP_STATE_CHANGE: the state is re-evaluated from the latest value. An out-of-range boundary of the table leaves it outside. -/
def tempEval (s : State) (k : Nat) : State :=
  if !s.inUse (chSlot k) then s
  else
    let ch := chSlot k
    let old := s.rd Reg.FS_SLOT_STATE.temp_state k
    let new := if tempStale s k then 3
      else nextTempState old (s.slot k).temp (16 * s.enti ch SlotE.fireTmin) (16 * s.enti ch SlotE.fireTmax)
        (16 * s.enti ch SlotE.tWarn) (16 * s.enti ch SlotE.tHyst)
    if new = old then s else tempChanged s k old new

/-- The Thermal Monitor passes a value on, 1/16 °C, accepted at clock instant `since` (R195). -/
def tempPass (s : State) (k : Nat) (v : Int) (since : Nat) : State :=
  tempEval ((s.setSlot k { s.slot k with temp := v, tempAt := some since }).wri Reg.FS_SLOT_STATE.temp k v) k

/-! ### Usage (R204) -/

/-- The usage counts of a slot begin anew (R204, R206). -/
def usageClear (s : State) (k : Nat) : State :=
  ((s.ledPut (Led.usageUnits k) 0).ledPut (Led.usageResidue k) 0).ledPut (Led.usageDrops k) 0

/-- Drops fired by a slot enter its usage counts. -/
def usageDrops (s : State) (k n : Nat) : State :=
  let r := s.ledGet (Led.usageResidue k) + n
  let s := s.ledAdd (Led.usageDrops k) n
  (s.ledPut (Led.usageResidue k) (r % 65536)).ledAdd (Led.usageUnits k) (r / 65536)

/-! ### Dispositions and releases (R177 to R185) -/

def dispFire : Nat := 0
def dispWithhold : Nat := 1
def dispSkip : Nat := 2

/-- The tag of a line: line number bits [13:0]. -/
def lineTag (s : State) (g : Nat) : Nat := relLine s g % 16384

/-- e for a release `wait` clock units after its start-of-scan: the wait and the 16.55 to 29.29 ns of Table 5-1, in 1.25 ns. -/
def releaseE (s : State) (wait : Nat) : Nat := wait * 100 / (125 * nsU) + 13 + s.freeVal 2 % 11

/-- RELEASE of a part (R177), and the longest response so far, in ns from the e that the set carries, rounded down (DESIGN CHOICE, log 134). -/
def sendRelease (s : State) (k g disp : Nat) (sos : Nat) : State :=
  let e := releaseE s (max s.clk (s.lane (slotLane s k)).idleTo - sos)
  let s := if s.gp40 then (if mayDrive s k then s.emit (.strobe (slotLane s k) (disp == 0)) else s)
    else slotSet s k osRelease (lineTag s g * 2 ^ 33 + e % 4096 * 2 ^ 21 + disp * 2 ^ 19)
  let s := s.setSlot k { s.slot k with unreleased := false }
  let s := (s.wr Reg.FS_RESP_MAX.resp_max 0 (sat 11 (max (s.rd Reg.FS_RESP_MAX.resp_max) (e * 125 / 100)))).spend
  laneReleased s k

/-- The page of a line fired by a slot with `decap_lapsed` is suspect (R199). -/
def decapMark (s : State) (k g : Nat) : State :=
  if s.on Reg.FS_SLOT_STATE.decap_lapsed k then markLine s g (markSuspect + causeDecap) else s

/-- The page of a line fired while the slot's temperature channels are not ok is suspect (R439). -/
def headMark (s : State) (k g : Nat) : State :=
  if s.rd Reg.THERM_HEAD_STATE.h_state k = 0 then s else markLine s g (markSuspect + causeThermal)

/-- `slots_firing` after slot `k`'s last disposition. -/
def showFiring (s : State) (k : Nat) (fires : Bool) : State :=
  let x := s.slot k
  let n := s.rd Reg.FS_STATUS.slots_firing
  let n := if fires && !x.firing then n + 1 else if !fires && x.firing then n - 1 else n
  (s.setSlot k { x with firing := fires }).wr Reg.FS_STATUS.slots_firing 0 n

/-- A slot of the reference row: plane 0's print row with phase 0 (R144). -/
def atRefRow (s : State) (k : Nat) : Bool :=
  match slotRow s k with
  | some (p, i) => p == 0 && (planeRow s p i).kind == 1 && (planeRow s p i).phase == 0
  | none => false

/-- A line fired in a slot of the reference row is the last one that LINE.STAT shows (Table 3-7). -/
def refFired (s : State) (k g : Nat) : State :=
  if atRefRow s k then { s with fire := { s.fire with lastFired := relLine s g } } else s

/-- FIRE: the part awaits its REL_ACK. -/
def firePart (s : State) (k : Nat) (q : Part) (sos : Nat) : State :=
  let s := headMark (decapMark (sendRelease s k q.line dispFire sos) k q.line) k q.line
  let s := refFired (showFiring s k true) k q.line
  let s := if modeOfLine s q.line = modeService then s.wr Reg.FS_SLOT_STATE.decap_lapsed k 0 else s
  let s := { s with fire := { s.fire with firedJob := true } }
  let s := s.setSlot k { s.slot k with lastFire := some sos }
  setPart s k { q with released := some s.clk, sosAt := none }

/-- A part released with WITHHOLD or SKIP: counted whether acknowledged or not (Table 5-3). -/
def endPart (s : State) (k : Nat) (q : Part) (disp sos : Nat) : State :=
  let s := showFiring (sendRelease s k q.line disp sos) k false
  let s := dropPart s k q.line
  if disp = dispSkip then
    let s := moveLine s q.jobIdx k Led.linesSkipped
    let s := countLines s q.jobIdx [k] Led.linesCollided
    setFate (moveDrops s q.jobIdx q.plane q.drops Led.dropsSkipped) k q.line fateSkipped
  else
    let s := moveLine s q.jobIdx k Led.linesWithheld
    setFate (moveDrops s q.jobIdx q.plane q.drops Led.dropsWithheld) k q.line fateWithheld

/-- A skipped line (R182): counted, its page spoilt, axis 0 asked to hold v_cap. -/
def skipPart (s : State) (k : Nat) (q : Part) : State :=
  let s := (endPart s k q dispSkip s.clk).count Reg.FS_SKIPPED.skipped
  let s := markLine s q.line (markSpoilt + causeCollided)
  (s.wr Reg.FS_FLAGS.collided 0 1).wr Reg.FS_STATUS.cap_active 0 1

/-- A line withheld under row 3: for temperature, counted and its page spoilt (R196). -/
def thermalMark (s : State) (k g : Nat) : State :=
  if tempForbids s k || s.md.dieForbids then (markLine s g (markSpoilt + causeThermal)).count Reg.FS_WITHHELD.wh_thermal else s

/-- A held line of the slot becomes another count, where it is in this device's Ledger: not below n_s of a takeover (R423). -/
def moveOwn (s : State) (idx k g : Nat) (to_ : Nat → Nat) : State :=
  if g < (s.slot k).ownFrom then s else moveLine s idx k to_

/-- A line that gives the slot an empty part (R180). -/
def emptyPart (s : State) (k g : Nat) (pg : Page) : State :=
  if chargeForbidden s k then showFiring (setFate (thermalMark (moveOwn s pg.jobIdx k g Led.linesWithheld) k g) k g fateWithheld) k false
  else refFired (showFiring (setFate (moveOwn s pg.jobIdx k g Led.linesFired) k g fateFired) k true) k g

/-- A place held for a part that is not decoded when its start-of-scan falls. -/
def blankPart (g plane idx : Nat) (spare : Bool) : Part :=
  { newPart g plane idx spare false [] with decoded := false }

/-- FREEZE, and the 50 ms of R46 have passed. -/
def freezeOver (s : State) : Bool :=
  s.mode == modeFreeze && (match s.fire.freezeAt with | some t => decide (t + 50 * msU ≤ s.clk) | none => false)

/-- The slot's last FIRE lies less than `wave_period_ns` back (R181), from its start-of-scan; a line of the slot's phase that still awaits
its data since such a start-of-scan counts as the one charged (R173). -/
def tooSoon (s : State) (k : Nat) : Bool :=
  let x := s.slot k
  let near (t : Nat) : Bool := decide (s.clk < t + s.ent (chSlot k) SlotE.wavePeriodNs * nsU)
  (match x.lastFire with | some t => near t | none => false) ||
  x.parts.any (fun q => q.released.isNone && !q.taken && (match q.sosAt with | some t => near t | none => false))

/-- LINE_DISPOSITION of a part in the slot's phase (Table 5-2, rows 2 to 6). -/
def disposePart (s : State) (k : Nat) (q : Part) : State :=
  if freezeOver s then endPart s k q dispWithhold s.clk
  else if chargeForbidden s k then thermalMark (endPart s k q dispWithhold s.clk) k q.line
  else if tooSoon s k then skipPart s k q
  else if q.bad then endPart s k q dispWithhold s.clk
  else if q.complete then firePart s k q s.clk
  else setPart s k { q with sosAt := some s.clk, taken := (s.slot k).unreleased, limit := deadlineOf s k }

/-- In SHADOW a part is awaited from the active device; an empty part counts as fired, or as withheld
while the temperature forbids charge (Table 2-1, R415, R424); one below n_s is this device's own, counted as it gave the slot up. -/
def shadowPart (s : State) (k g : Nat) (pg : Page) (phase : Bool) : State :=
  if phase then
    match partOf s k g with
    | some q => setPart s k { q with sosAt := some s.clk }
    | none => s
  else
    let s := setFate s k g fateFired
    if g < (s.slot k).ownFrom then s else s.tally pg.jobIdx ((if tempForbids s k then Led.linesWithheld else Led.linesFired) k) 1

/-- START_OF_SCAN of a slot's next line. Under row 1 the line stays due (R171, R179). A part that was decoded is disposed of whatever the
substitution map has become since; a line that the row's decode has gone past without one is an empty part. -/
def slotSos (s : State) (k : Nat) : State :=
  let g := (s.slot k).next
  if heldBack s g then s
  else
    let s := tempEval s k
    let s := s.setSlot k { s.slot k with next := g + 1 }
    match pageOf s g, slotRow s k with
    | some pg, some (p, i) =>
      if !bit pg.planes p || s.la.accepted ≤ g || s.la.starved.contains g then
        let s := setFate s k g fateWithheld
        if bit pg.planes p then showFiring s k false else s
      else match partOf s k g with
        | some q =>
          if s.mode = modeShadow then shadowPart s k g pg true
          else if q.fault then showFiring (setFate (dropPart s k g) k g fateWithheld) k false else disposePart s k q
        | none =>
          let waits := inPhase s p i g && decide (rowDone s p i ≤ g)
          if s.mode = modeShadow then shadowPart s k g pg waits
          else if !waits then emptyPart s k g pg
          else
            let q := blankPart g p pg.jobIdx ((planeRow s p i).kind == 2)
            disposePart (setPart s k q) k q
    | _, _ => s

/-- A line's data is complete: a part whose start-of-scan has passed is released now, within `data_deadline` (R178). -/
def partComplete (s : State) (k : Nat) (q : Part) : State :=
  let q := { q with complete := true }
  match q.sosAt with
  | some t =>
    if !driving s || q.taken then setPart s k q
    else if s.clk ≤ t + q.limit * nsU then firePart (setPart s k q) k q t else setPart s k q
  | none => setPart s k q

/-- DATA_DEADLINE_EXPIRY (R178, R183). -/
def dataLate (s : State) (k : Nat) : State :=
  let due (q : Part) : Bool := match q.sosAt with
    | some t => !q.complete && !q.taken && q.released.isNone && decide (t + q.limit * nsU ≤ s.clk)
    | none => false
  if s.mode = modeShadow then s
  else match (s.slot k).parts.find? due with
  | some q =>
    let s := (endPart s k q dispWithhold (q.sosAt.getD s.clk)).count Reg.FS_WITHHELD.wh_data_late
    markLine (s.wr Reg.FS_FLAGS.data_late 0 1) q.line (markSpoilt + causeDataLate)
  | none => s

/-- The released part with a tag, oldest first. -/
def releasedPart (s : State) (k tag : Nat) : Option Part :=
  (s.slot k).parts.find? (fun q => q.released.isSome && lineTag s q.line == tag)

/-- A released part ends fired or withheld (Table 5-3). -/
def settlePart (s : State) (k : Nat) (q : Part) (ejected : Bool) : State :=
  let s := dropPart s k q.line
  if ejected then
    let s := moveLine s q.jobIdx k Led.linesFired
    let s := moveDrops s q.jobIdx q.plane q.drops Led.dropsFired
    let s := if q.spare then countDrops s q.jobIdx q.plane q.drops Led.dropsSubstituted else s
    setFate (usageDrops s k q.drops) k q.line fateFired
  else
    let s := moveLine s q.jobIdx k Led.linesWithheld
    setFate (moveDrops s q.jobIdx q.plane q.drops Led.dropsWithheld) k q.line fateWithheld

/-- The oldest part whose REL_ACK is 50 µs overdue (R184). -/
def ackLate (s : State) (k : Nat) : Option Part :=
  (s.slot k).parts.find? (fun q => match q.released with | some t => decide (t + 50 * usU ≤ s.clk) | none => false)

def ackLost (s : State) (k : Nat) : State :=
  match ackLate s k with
  | some q => markLine ((settlePart s k q false).wr Reg.FS_FLAGS.ack_lost 0 1) q.line (markSuspect + causeAckLost)
  | none => s

/-! ### Frames and credits (R186, R187, R190, R191) -/

/-- Two-bit values as bytes, the first in bits [1:0] of the first byte. -/
def packPixels : Nat → List Nat → List Byte
  | 0, _ => []
  | n + 1, px =>
    BitVec.ofNat 8 ((px.getD 0 0) + 4 * (px.getD 1 0) + 16 * (px.getD 2 0) + 64 * (px.getD 3 0)) :: packPixels n (px.drop 4)

/-- Trailer bits [55:32] of a frame (Table 5-5). -/
def trailerBits (ftype half tag index : Nat) : Nat := ftype * 2 ^ 22 + half * 2 ^ 21 + tag % 16384 * 2 ^ 7 + index % 64 * 2

/-- A frame out of a slot's lane: one credit, its check over the data and trailer bits [55:32]. R187 gives those bits no order in the check:
they follow the data as three bytes, the lowest first (DESIGN CHOICE, log 123). -/
def sendFrame (s : State) (k ftype tag index : Nat) (data : List Byte) : State :=
  let lane := slotLane s k
  let t := trailerBits ftype (slotHalf s k) tag index
  let s := s.emit (.frame lane t data (crc32 (data ++ leBytes 3 t)))
  let s := s.setSlot k { s.slot k with credits := (s.slot k).credits - 1 }
  s.ledMove (Led.creditsAvailable lane) (Led.creditsUsed lane) 1

/-- Frames of a line of the slot. -/
def lineFrames (s : State) (k : Nat) : Nat := (s.ent (chSlot k) SlotE.nozzles + 1023) / 1024

/-- Frame `i` of a part. -/
def sendData (s : State) (k : Nat) (q : Part) (i : Nat) : State :=
  sendFrame s k 0 (lineTag s q.line) i (packPixels 256 ((q.px.drop (1024 * i)).take 1024))

/-- The part whose frame goes next: one to be sent again, or the first not sent whole, in line order. -/
def nextData (s : State) (k : Nat) : Option (Part × Nat × Bool) :=
  let mine (g : Nat) : Bool := match (s.slot k).handed with | some h => decide (g < h) | none => true
  let parts := (s.slot k).parts.filter (fun q => q.decoded && !q.fault && !q.bad && !q.taken && q.released.isNone && mine q.line)
  match parts.find? (fun q => !q.resend.isEmpty) with
  | some q => some (q, q.resend.headD 0, true)
  | none => match parts.find? (fun q => decide (q.sent < lineFrames s k)) with
    | some q => some (q, q.sent, false)
    | none => none

/-- A part whose row FIFO was read with an uncorrectable error is withheld: at its start-of-scan, or now where that has passed (R366). -/
def badPart (s : State) (k : Nat) (q : Part) : State :=
  let s := markLine s q.line (markSpoilt + causeBand)
  match q.sosAt with
  | some t => endPart s k q dispWithhold t
  | none => setPart s k { q with bad := true }

/-- The first line of the slot not yet sent. -/
def firstUnsent (s : State) (k : Nat) : Nat :=
  let x := s.slot k
  match x.parts.find? (fun q => q.sent == 0 && q.released.isNone) with
  | some q => q.line
  | none => match x.parts.getLast? with | some q => max x.next (q.line + 1) | none => x.next

/-- DATA_FRAME_SEND: with a credit held, and none of the 33 IDLE blocks of a move to come (R396), a waiting message, a waveform frame, a frame to send again or the next of the lines; `bad`
says that the row FIFO's words of that line were read with an uncorrectable error. -/
def frameSend (s : State) (k : Nat) (bad : Bool) : State :=
  let x := s.slot k
  if !mayDrive s k || x.credits = 0 || decide (s.clk < (s.lane (slotLane s k)).idleTo) then s
  else match x.msgs with
  | (seq, i, data) :: ms => sendFrame (s.setSlot k { x with msgs := ms }) k 2 seq i data
  | [] =>
    if 0 < x.waveLeft then
      let n := s.ent (chSlot k) SlotE.waveLen / 256
      let i := n - x.waveLeft
      let data := s.peekBytes (s.ent (chSlot k) SlotE.waveAddr + 256 * i) 256
      let last := x.waveLeft == 1
      sendFrame (s.setSlot k { x with
          waveLeft := x.waveLeft - 1, waveDue := last, waveLine := if last then firstUnsent s k else x.waveLine }) k 1
        (x.waveGen % 4096 * 4 + i / 64) i data
    else match nextData s k with
    | none => s
    | some (q, i, again) =>
      if bad then badPart s k q
      else
      let s := if i = 0 && !again then s.wr Reg.FS_SLOT_STATE.keepopen k 0 else s
      let s := setPart s k (if again then { q with resend := q.resend.drop 1 } else { q with sent := q.sent + 1 })
      sendData s k q i

/-- CREDIT: `n` credits for a slot. -/
def grantCredits (s : State) (k n : Nat) : State :=
  let lane := slotLane s k
  let s := s.setSlot k { s.slot k with credits := (s.slot k).credits + n }
  (s.ledAdd (Led.creditsGranted lane) n).ledAdd (Led.creditsAvailable lane) n

/-- A lane restarts (R191): LINK_INIT with the credits still held, and every line whose start-of-scan has not passed sent again. -/
def linkInit (s : State) (k : Nat) : State :=
  let x := s.slot k
  let again (q : Part) : Part := if q.released.isNone && q.sosAt.isNone then { q with sent := 0, resend := [], complete := false } else q
  slotSet (s.setSlot k { x with parts := x.parts.map again }) k osLinkInit (x.credits % 65536 * 2 ^ 31)

/-! ### Waveforms (R193) -/

/-- WAVEFORM_SEND: an image that passes its check is sent from the start; one that fails is not, nor is the rest of one under way, and the
slot keeps its own. -/
def waveStart (s : State) (k : Nat) : State :=
  let ch := chSlot k
  let a := s.ent ch SlotE.waveAddr
  let n := s.ent ch SlotE.waveLen
  if inStacks a n && crc32 (s.peekBytes a n) == s.ent ch SlotE.waveCrc && s.mode != modeShadow && s.native then
    s.setSlot k { s.slot k with waveGen := s.ent ch HdrE.generation, waveLeft := n / 256, waveDue := false }
  else s.setSlot k { s.slot k with waveLeft := 0 }

/-- WAVE_COMMIT once the image has been sent whole. -/
def waveCommit (s : State) (k : Nat) : State :=
  let x := s.slot k
  if x.waveDue && mayDrive s k then
    slotSet (s.setSlot k { x with waveDue := false }) k osWaveCommit
      (x.waveGen % 16384 * 2 ^ 33 + lineTag s x.waveLine * 2 ^ 19)
  else s

/-! ### Keep-open (R194) -/

/-- Modes in which keep-open pulses, which are charge, may run (Table 2-1). -/
def chargeMode (s : State) (k : Nat) : Bool :=
  let m := unitMode s (2 ^ k)
  m == modeService || m == modeCalibrate || m == modePrint || m == modeThrottle || m == modeHold || m == modeRewind ||
  (m == modeStop && decide (s.la.stopStage ≤ 1))

/-- KEEPOPEN_TIMEOUT. -/
def keepopenStart (s : State) (k : Nat) : State :=
  let due := decide ((s.slot k).lastFire.getD 0 + s.rd Reg.LA_KEEPOPEN.keepopen_after * msU ≤ s.clk)
  if due && s.inUse (chSlot k) && s.entOn (chSlot k) SlotE.koEn && !chargeForbidden s k && chargeMode s k && mayDrive s k &&
      !s.on Reg.FS_SLOT_STATE.keepopen k then
    (laneReleased (slotSet s k osKeepopen (2 ^ 46)) k).wr Reg.FS_SLOT_STATE.keepopen k 1
  else s

/-- Every slot's keep-open pulses stop: entry to a mode without charge. -/
def keepopenStopAll (s : State) : State := slots80.foldl keepopenStop s

/-! ### Authentication (R201 to R206) -/

/-- Message frames of `body`: whole frames of 256 bytes, the header before them. -/
def messageFrames (seq : Nat) (body : List Byte) : List (Nat × Nat × List Byte) :=
  let n := (body.length + 255) / 256
  (List.range n).map (fun i => (seq, i, ((body ++ List.replicate 256 0).drop (256 * i)).take 256))

/-- The 4-byte header of a message: its code and length, in a form the manual does not give. -/
def messageHeader (s : State) : List Byte := s.freeBytes 3 4

/-- A message waits to be sent to a slot's module. -/
def queueMessage (s : State) (k : Nat) (body : List Byte) : State :=
  let x := s.slot k
  let seq := x.msgSeq % 16384
  (s.setSlot k { x with msgs := x.msgs ++ messageFrames seq (messageHeader s ++ body), msgSeq := x.msgSeq + 1 }).spend

/-- AUTH_FAILED (R205): `step` of Table 5-8, or 0 for the counter exchange. -/
def authFail (s : State) (k step : Nat) (regress : Bool) : State :=
  let s := s.wr Reg.FS_SLOT_STATE.auth k 3
  let s := if regress then s.wr Reg.FS_FLAGS.usage_regress 0 1 else s
  let s := s.event 0x0305 (chSlot k) 0 (3 + 4 * ofBool regress + 256 * step) 0
  let x := s.slot k
  chargeUpdate (s.setSlot k { x with authAt := none, authStep := 0, asked := [], key := [], retryAt := some (x.retryAt.getD (s.clk + 100 * msU)) }) k

/-- AUTH_START (R201): HELLO with a nonce and an ephemeral key, both free. -/
def authStart (s : State) (k : Nat) : State :=
  if s.mode = modeShadow || !s.native || !s.inUse (chSlot k) || !linkUp s k then s
  else
    let nonce := s.freeBytes 4 32
    let priv := s.freeBytes 5 32
    let x := s.slot k
    let s := s.setSlot k { x with authAt := some s.clk, authStep := 2, nonce, key := priv, retryAt := none, asked := [] }
    let s := (s.wr Reg.FS_SLOT_STATE.auth k 1).spend
    chargeUpdate (queueMessage s k (nonce ++ Config.ecPublic priv)) k

/-- The MAC of a message of the counter exchange: over its code, sequence number and contents (R203). -/
def usageMac (x : Slot) (code : Nat) (body : List Byte) : List Byte := (Config.hmac x.key (Config.msgCode code ++ body)).take 16

/-- USAGE_ADD with `units`, its sequence number and MAC (R203). -/
def sendUsage (s : State) (k units : Nat) : State :=
  let x := s.slot k
  let seq := (x.authSeq + 1) % 2 ^ 32
  let body := leBytes 4 seq ++ leBytes 4 units
  let mac := usageMac x 0 body
  let s := s.setSlot k { x with
    authSeq := seq, asked := x.asked ++ [(seq, units, s.clk)], lastAdd := some s.clk, unitsSent := x.unitsSent + units }
  queueMessage s k (body ++ mac)

/-- Units that have accrued and no USAGE_ADD has named. -/
def usageDue (s : State) (k : Nat) : Nat := s.ledGet (Led.usageUnits k) - (s.slot k).unitsSent

/-- Units as messages carry them, at most 65,535 each. -/
def usageParts (n : Nat) : List Nat := List.replicate (n / 65535) 65535 ++ (if n % 65535 = 0 then [] else [n % 65535])

/-- The end of a session while the link works: the units not yet sent, and one for a residue (R204). -/
def usageFlush (s : State) (k : Nat) : State :=
  let n := usageDue s k + (if s.ledGet (Led.usageResidue k) = 0 then 0 else 1)
  if s.rd Reg.FS_SLOT_STATE.auth k = 2 && linkUp s k then (usageParts n).foldl (fun s u => sendUsage s k u) s else s

/-- Usage messages that wait leave at once, as far as the slot's credits allow: before a warm reset (R204). -/
def usageOut (s : State) (k : Nat) : State :=
  let s := usageFlush s k
  (s.slot k).msgs.foldl (fun s _ => frameSend s k false) s

/-- DRIVE with a slot's `v_drive` (Table 5-6); one of 0 ends the session (R204). -/
def sendDrive (s : State) (k : Nat) : State :=
  let v := s.ent (chSlot k) SlotE.vDrive
  slotSet (if v = 0 then usageFlush s k else s) k osDrive (v * 2 ^ 31)

/-- CERT (R201, R202): certificate, N2, QH and signature. -/
def authCert (s : State) (k : Nat) (msg : List Byte) : State :=
  let x := s.slot k
  let cert := msg.take 160
  let n2 := (msg.drop 160).take 32
  let qh := (msg.drop 192).take 64
  let sig := (msg.drop 256).take 64
  let anchor := (cert.getD 80 0).toNat
  let headKey := (cert.drop 16).take 64
  if x.authStep ≠ 2 then s
  else
    let known := decide (anchor < 4) && bit (s.rd Reg.FS_AUTH.anchors) anchor && bit (s.ent (chSlot k) SlotE.anchorMask) anchor
    let good := decide (msg.length = 320) && known &&
      Config.ecdsa256 (Tbl.get [] s.fire.anchors anchor) (cert.take 96) (cert.drop 96) &&
      Config.ecdsa256 headKey (x.nonce ++ n2 ++ Config.ecPublic x.key ++ qh) sig
    if good then
      let key := Config.hkdf (Config.ecdh x.key qh) (x.nonce ++ n2) (cert.take 16)
      sendUsage (s.setSlot k { x with key, authStep := 5 }) k 0
    else authFail s k (if msg.length = 320 then 3 else 2) false

/-- USAGE_NOW (R203): counter value, sequence number and MAC, in answer to the oldest USAGE_ADD not yet answered. -/
def usageNow (s : State) (k value seq : Nat) (mac : List Byte) : State :=
  let x := s.slot k
  match x.asked with
  | [] => s
  | (askedSeq, units, _) :: rest =>
    let body := leBytes 4 seq ++ leBytes 8 value
    let prev := s.rd2 Reg.FS_SLOT_USAGE_LO.usage_lo Reg.FS_SLOT_USAGE_HI.usage_hi k
    let opening := x.authStep == 5
    let macOk := mac == usageMac x 1 body && seq == askedSeq
    if !macOk then authFail s k (if opening then 5 else 0) false
    else if !opening && value ≠ (prev + units) % 2 ^ 64 then authFail s k 0 true
    else
      let s := s.wr2 Reg.FS_SLOT_USAGE_LO.usage_lo Reg.FS_SLOT_USAGE_HI.usage_hi k value
      if opening then
        let carried := match x.graceTo with | some _ => true | none => false
        let s := if carried then s else usageClear s k
        let s := s.wr Reg.FS_SLOT_STATE.auth k 2
        let y := s.slot k
        chargeUpdate (s.setSlot k { y with authAt := none, authStep := 0, asked := [], unitsSent := 0, graceTo := none, retryAt := none }) k
      else s.setSlot k { x with asked := rest }

/-- AUTH_TIMEOUT (R205): 50 ms for the exchange, 10 ms for a USAGE_NOW. -/
def authTimeout (s : State) (k : Nat) : State :=
  let x := s.slot k
  let late (t d : Nat) : Bool := decide (t + d * msU ≤ s.clk)
  match x.authAt, x.asked.head? with
  | some t, u =>
    if late t 50 then authFail s k x.authStep false
    else match u with
      | some (_, _, t') => if late t' 10 then authFail s k 5 false else s
      | none => s
  | none, some (_, _, t) => if late t 10 then authFail s k 0 false else s
  | none, none => s

end Sys2Proof.Machine
end

