-- ==== Sys2Proof/Machine/LaneOps.lean ====
section
/-! DEFINITION. Bring-up, failures and moves of lanes, the PRBS logic and the eye figures, and the commands of R390 to R407. -/

namespace Sys2Proof.Machine

/-- Bring-up of a lane is called for (R391). -/
def laneCall (s : State) (n : Nat) : State :=
  if s.lstate n == 5 then s else s.setLane n { s.lane n with called := true }

/-- The slots of a logical lane after its lane went down. -/
def linksDown (s : State) (l : Nat) : State := (laneSlots s l).foldl chargeUpdate (showLinks s l)

/-- A lane goes down with P1 or P2 (Table 2-3) or `hl_en` 0; a retired one stays retired. -/
def laneDown (s : State) (n : Nat) : State :=
  if s.lstate n == 5 then s
  else
    let l := logicalOn s n
    let s := s.setLane n { Lane.reset with fails := (s.lane n).fails, chkAt := (s.lane n).chkAt }
    let s := ((s.wr Reg.LANE_STATE.block_lock n 0).wr Reg.LANE_STATE.cdr_lock n 0).wr Reg.LANE_STATE.loop n 0
    let s := setLstate (prbsStop s n) n 0
    match l with | some l => linksDown s l | none => s

/-- Full bring-up begins: taps and CTLE at 0 (Table 12-2). -/
def laneStart (s : State) (n : Nat) : State :=
  let s := s.setLane n { s.lane n with full := true, called := false, startAt := s.clk, tapsAt := none }
  let s := ((s.wr Reg.LANE_STATE.block_lock n 0).wr Reg.LANE_STATE.cdr_lock n 0).wr Reg.LANE_STATE.ctle n 0
  let s := (List.range 12).foldl (fun s k => s.wr Reg.LANE_DFE.tap (12 * n + k) 0) s
  let s := setLstate s n 1
  match logicalOn s n with | some l => linksDown s l | none => s

/-- The slots of a logical lane whose lane came up: LINK_INIT, the waveform, the drive voltage (R191, R193, Table 5-6). -/
def linksUp (s : State) (l : Nat) : State :=
  (laneSlots s l).foldl (fun s k => sendDrive (waveStart (linkInit s k) k) k) (showLinks s l)

/-- A logical lane is to move to its group's spare: at once, or after the moves before it. -/
def moveAdd (s : State) (l : Nat) (b : Nat) (planned asked : Bool) : State :=
  let m : LaneMove := { l, a := physLane s l, b, step := 0, planned, since := s.clk, asked }
  let busy := !s.ln.moves.isEmpty
  let s := { s with ln := { s.ln with moves := s.ln.moves ++ [m] } }
  if busy then s else moveBegin s

/-- The spare that a logical lane can move to. -/
def freeSpare (s : State) (l : Nat) : Option Nat :=
  match groupSpare s (l / 5) with | some b => if spareTaken s b then none else some b | none => none

/-- A lane comes to stand by as its group's spare: a logical lane of the group that lost its lane moves to it (R400, R404), the one it carried
itself before it was retired first. -/
def laneStandby (s : State) (n : Nat) : State :=
  match logicalOn s n with
  | some l =>
    let s := latchWord (shiftWords s (n / 6) (setSrc (groupWord s (n / 6)) (l % 5) (n % 6))) (n / 6) (setSrc (groupWord s (n / 6)) (l % 5) (n % 6))
    linksUp (setLstate (laneClear s n) n 2) l
  | none =>
    let s := laneSpare s n
    match lostLane s (n / 6) with
    | some l => if spareTaken s n then s else moveAdd s l n false false
    | none => s

/-- The lane that takes up a logical lane with the home map: its home lane, or, where that one is retired and the group's spare is up, the
spare, for the lowest such logical lane of the group. -/
def homePhys (s : State) (l : Nat) : Nat :=
  let g := l / 5
  let first := ((List.range 5).map (· + 5 * g)).find? (fun j => s.lstate (homeLane j) == 5)
  if first = some l ∧ s.lstate (6 * g + 5) = 3 then 6 * g + 5 else homeLane l

/-- The group word of the home map. -/
def homeGroup (s : State) (g : Nat) : Nat := (List.range 5).foldl (fun w i => setSrc w i (homePhys s (5 * g + i) % 6)) homeWord

/-- Every lane on its loop that was called up has come up, or is retired: the home map is shifted (R395). -/
def bootShift (s : State) : State :=
  if s.ln.boot = 2 && heads48.all (fun n => !(s.lane n).called && s.lstate n != 1) then
    { shiftAll s (homeGroup s) with ln := { s.ln with boot := 3, shifted := (List.range 8).map (fun g => (g, homeGroup s g)) } }
  else s

/-- A lane has block lock after bring-up or relock. Taps in use are as found, and adapt from here (R389). -/
def laneReady (s : State) (n ctle pad : Nat) (taps : List Int) : State :=
  let x := s.lane n
  let s := (s.wr Reg.LANE_STATE.block_lock n 1).wr Reg.LANE_STATE.cdr_lock n 1
  let s := if x.full then
      let s := s.wr Reg.LANE_STATE.ctle n (min ctle (laneEnt s n LaneE.ctleMax 15))
      let used := laneEnt s n LaneE.dfeTaps 12
      (List.range 12).foldl (fun s k => s.wri Reg.LANE_DFE.tap (12 * n + k) (if k < used then taps.getD k 0 else 0)) s
    else s
  let s := if s.mode = modeReload then s.wr Reg.LANE_STATE.pad n (min pad 40) else s
  let s := s.setLane n { x with full := false, called := false, tapsAt := if x.full then some s.clk else x.tapsAt }
  if 48 ≤ n then setLstate (laneClear s n) n 2
  else if x.proving then setLstate s n 6
  else if s.ln.boot ≠ 0 then bootShift (setLstate s n 3)
  else match logicalOn s n with
    | some l => linksUp (setLstate (laneClear s n) n 2) l
    | none => laneStandby s n

/-- A physical lane is retired (R400): a logical lane on it moves without a bridge, or stays down. -/
def laneRetire (s : State) (n : Nat) : State :=
  let l := logicalOn s n
  let s := (s.wr Reg.LANE_STATE.block_lock n 0).setLane n Lane.reset
  let s := repairAdd (setLstate s n 5) repLane n
  if s.ln.boot ≠ 0 then bootShift s
  else match l with
  | none => match curMove s with
    | some m => if m.b == n && m.step != 6 then moveEnd s 2 else s
    | none => s
  | some l =>
    let s := linksDown s l
    match curMove s with
    | some m =>
      if m.l == l then
        if m.step == 6 then s
        else
          let m := { m with planned := false, step := 4, since := s.clk }
          shiftWords (setMove s m) (l / 5) (finalWord s m)
      else if moving s l then s
      else match freeSpare s l with | some b => moveAdd s l b false false | none => s
    | none => match freeSpare s l with | some b => moveAdd s l b false false | none => s

/-- BLOCK_LOCK_LOSS (R386, R392): 16 invalid headers; a relock, after it full bring-up; three failed full bring-ups within 10 s fail the lane.
A full bring-up that fails had no lock to lose. -/
def lockLoss (s : State) (n : Nat) : State :=
  if s.on Reg.LANE_STATE.block_lock n then
    let s := (s.wr Reg.LANE_STATE.block_lock n 0).count Reg.LANE_ERR.hdr_err n 16
    let s := laneCall ((s.faultCount.count Reg.LANE_STATE.restarts n).count Reg.LANE_ERR.lock_loss n) n
    let s := setLstate (s.setLane n { s.lane n with full := false }) n 1
    match logicalOn s n with | some l => linksDown s l | none => s
  else if s.lstate n == 1 && (s.lane n).full then
    let fails := (s.clk :: (s.lane n).fails).filter (fun t => decide (s.clk ≤ t + 10 * secU))
    let s := s.setLane n { s.lane n with fails }
    if 3 ≤ fails.length then laneRetire s n else laneCall s n
  else s

/-- The home map is latched: every logical lane runs on its lane, where that is up (R395, R400). -/
def homeMap (s : State) : State :=
  let ps := (List.range 40).map (fun l => (l, homePhys s l))
  ps.foldl (fun s x =>
    let s := (s.wr Reg.LANE_MAP.phys x.1 x.2).wrb Reg.LANE_MAP.moved x.1 (x.2 != homeLane x.1)
    if s.lstate x.2 == 3 then linksUp (setLstate (laneClear s x.2) x.2 2) x.1 else showLinks s x.1)
    { s with ln := { s.ln with boot := 0, words := s.ln.shifted, shifted := [] } }

/-- Lanes left without a logical lane stand by as spares. -/
def sparesWait (s : State) : State :=
  (heads48.filter (fun n => s.lstate n == 3 && (logicalOn s n).isNone)).foldl laneSpare s

/-- LANE_SWITCH_SHIFT_COMPLETE (R394 to R397). -/
def shiftDone (s : State) : State :=
  match curMove s with
  | some m =>
    if m.planned && m.step == 2 then
      let s := latchWord s (m.l / 5) (bridgeWord s m)
      let m := { m with step := 4, since := s.clk }
      shiftWords (setMove s m) (m.l / 5) (finalWord s m)
    else if m.planned && m.step == 4 then setMove s { m with step := 5, since := s.clk }
    else if !m.planned && m.step == 4 then
      let s := latchWord s (m.l / 5) (finalWord s m)
      let s := mapLane (moveCredits s m.l m.a m.b) m.l m.a m.b 5
      setMove (linksUp s m.l) { m with step := 6, since := s.clk }
    else s
  | none =>
    if s.ln.boot == 1 then
      let s := { s with ln := { s.ln with boot := 2, words := s.ln.shifted } }.emit (.ball .hlSwLat true)
      bootShift (heads48.foldl (fun s n => if s.lstate n == 5 then s else s.wr Reg.LANE_STATE.loop n 3) s)
    else if s.ln.boot == 3 then sparesWait (homeMap (s.emit (.ball .hlSwLat true)))
    else s

/-- LANE_SWITCH_VERIFY_TIMEOUT (R399): the previous words are shifted and latched again. -/
def verifyFailed (s : State) : State :=
  match curMove s with
  | some m =>
    if m.step == 6 && decide (m.since + 2 * usU ≤ s.clk) then
      let s := latchWord (shiftWords s (m.l / 5) s.ln.prev) (m.l / 5) s.ln.prev
      let s := moveCredits s m.l m.b m.a
      let s := (s.wr Reg.LANE_MAP.phys m.l m.a).wrb Reg.LANE_MAP.moved m.l (m.a != homeLane m.l)
      let s := if s.lstate m.a == 3 || s.lstate m.a == 4 then
          setLstate (laneClear s m.a) m.a 2
        else s
      let n := (s.lane m.b).verify + 1
      let s := laneSpare (s.setLane m.b { s.lane m.b with verify := n }) m.b
      let s := showLinks (s.count Reg.LANE_FRAME_ERR.switch_err m.b) m.l
      let s := s.event 0x0A01 (chLane m.b) 0 m.l 0
      moveEnd (if 2 ≤ n then laneRetire s m.b else s) 2
    else s
  | none => s

/-- Moves stop where they stand: FREEZE, P1 or P2, warm reset (R404). -/
def movesStop (s : State) : State :=
  let s := if s.ln.moves.any (fun m => m.asked) then s.wr Reg.LANE_CMD_RESULT.cmd_result 0 2 else s
  { s with ln := { s.ln with moves := [] } }

/-- P1 or P2 is entered from P0: head and twin lanes go down, moves stop (Table 2-3, R404). -/
def lanesSleep (s : State) : State := (List.range 52).foldl laneDown (movesStop s)

/-- The return to P0: each lane in use runs the full bring-up (R391). -/
def lanesWake (s : State) : State :=
  (List.range 52).foldl (fun s n => if s.entOn (chLane n) LaneE.hlEn then laneCall s n else s) s

/-- LANE_CMD move (R396): refused without a lane to move and a spare to take it. -/
def cmdMove (s : State) (l : Nat) : State :=
  if l < 40 && s.lstate (physLane s l) == 2 && !moving s l then
    match freeSpare s l with
    | some b => moveAdd (s.wr Reg.LANE_CMD_RESULT.cmd_result 0 3) l b true true
    | none => s.wr Reg.LANE_CMD_RESULT.cmd_result 0 2
  else s.wr Reg.LANE_CMD_RESULT.cmd_result 0 2

/-- LANE_CMD retire (R400). -/
def cmdRetire (s : State) (n : Nat) : State :=
  if n < 52 && s.lstate n != 5 then (laneRetire s n).wr Reg.LANE_CMD_RESULT.cmd_result 0 1
  else s.wr Reg.LANE_CMD_RESULT.cmd_result 0 2

/-- LANE_CMD restore (R400): the lane comes up on its far-end loop, feeding no port, and proves itself. -/
def cmdRestore (s : State) (n : Nat) : State :=
  if n < 52 && s.lstate n == 5 then
    let s := if n < 48 then s.wr Reg.LANE_STATE.loop n 3 else s
    let s := match if n < 48 then logicalOn s n else none with
      | some l =>
        let w := setSrc (groupWord s (n / 6)) (l % 5) 7
        latchWord (shiftWords s (n / 6) w) (n / 6) w
      | none => s
    let s := repairDrop (setLstate s n 0) repLane n
    let s := s.setLane n { Lane.reset with called := true, proving := decide (n < 48) }
    s.wr Reg.LANE_CMD_RESULT.cmd_result 0 1
  else s.wr Reg.LANE_CMD_RESULT.cmd_result 0 2

/-- Class of Table 7-7 and unit of a lane. -/
def laneUnit (n : Nat) : Nat × Nat := if n < 48 then (0, n) else (1, n - 48)

/-- EYE_MEASUREMENT (R403): width in 1/256 UI, height in mV. -/
def eyeMeasure (s : State) (n w h : Nat) : State :=
  let u := laneUnit n
  let s := s.setQuality u.1 u.2 { s.quality u.1 u.2 with a1 := low 16 w, a0 := low 16 h }
  let ok := decide (s.rd Reg.CL_Q_LIMITS.eye_w_min ≤ w) && decide (2 * s.rd Reg.CL_Q_LIMITS.eye_h_min ≤ h)
  if (s.lane n).proving && s.lstate n == 6 then
    if ok then laneStandby (s.setLane n { s.lane n with proving := false }) n else laneRetire s n
  else if ok then s else recalDue s u.1 u.2 reasonQuality

/-! ### Commands -/

/-- DFE tap `i` % 12 of lane `i` / 12 as it stands (R389): a tap in use has moved since it was found, by at most 1 mV in 65,536 UI, one way or
the other. -/
def tapNow (s : State) (i : Nat) : Nat :=
  let n := i / 12
  let v := s.rdi Reg.LANE_DFE.tap i
  let now : Int := match (s.lane n).tapsAt with
    | none => v
    | some t =>
      let ui := if s.gp40 && decide (n < 48) then (s.clk - t) * 5 / nsU else (s.clk - t) * 2578125 / (100000 * nsU)
      let far := ui / 65536
      if i % 12 < laneEnt s n LaneE.dfeTaps 12 then v - far + ((Config.free (167 + 1000 * i) s.clk % (2 * far + 1) : Nat) : Int) else v
  unsigned 8 (max (-128) (min 127 now))

/-- `cdr_lock` (R390): in a full bring-up the clock is recovered 10 µs to 50 µs after its start. -/
def cdrNow (s : State) (n : Nat) : Nat :=
  let x := s.lane n
  let d := s.clk - x.startAt
  if s.lstate n == 1 && x.full then (if d < 10 * usU then 0 else if 50 * usU ≤ d then 1 else Config.free (168 + 1000 * n) s.clk % 2)
  else s.rd Reg.LANE_STATE.cdr_lock n

/-- LANE_CMD (R407): a `lane` out of its range is ignored whole (R40). -/
def laneCmd (s : State) (op lane : Nat) : State :=
  if !hostOpen s then s
  else if op = 1 then (if lane < 40 then cmdMove s lane else s)
  else if 52 ≤ lane then s
  else if op = 2 then cmdRetire s lane else if op = 3 then cmdRestore s lane else s

def execLaneMove (t lane : Nat) (s : State) : Host.Outcome State Fault Refusal := .next (laneCmd (s.at t) 1 lane)

def execLaneRestore (t lane : Nat) (s : State) : Host.Outcome State Fault Refusal := .next (laneCmd (s.at t) 3 lane)

def execLaneSwitchVerifyTimeout (t : Nat) (s : State) : Host.Outcome State Fault Refusal :=
  .next (verifyFailed (s.at t))

/-- One transmitted bit is inverted: a checker that is fed by a loop of its own lane counts it (R402). -/
def prbsInject (s : State) (n : Nat) : State :=
  let s := s.emit (.prbsError n)
  if s.rd Reg.LANE_STATE.loop n != 0 && s.on Reg.PRBS_CTRL.chk_en n && s.on Reg.PRBS_CTRL.chk_sync n then s.count Reg.PRBS_ERR.prbs_err n else s

/-- PRBS_INJECT_ONCE: a write of `inj_once`, on a lane without traffic whose generator is on. -/
def execPrbsInjectOnce (t lane : Nat) (s : State) : Host.Outcome State Fault Refusal :=
  let s := s.at t
  .next (if lane < 52 && !carriesTraffic s lane && s.on Reg.PRBS_CTRL.gen_en lane then prbsInject s lane else s)

/-- PRBS_INJECT_PERIODIC: `inj_period` × 1,024 bits have been sent. -/
def execPrbsInjectPeriodic (t lane : Nat) (s : State) : Host.Outcome State Fault Refusal :=
  let s := s.at t
  .next (if lane < 52 && s.on Reg.PRBS_CTRL.gen_en lane && s.rd Reg.PRBS_CTRL.inj_period lane != 0 then prbsInject s lane
    else s)

def execEyeMeasurement (t lane w h : Nat) (s : State) : Host.Outcome State Fault Refusal :=
  let s := s.at t
  .next (if lane < 52 && s.on Reg.LANE_STATE.block_lock lane then eyeMeasure s lane w h else s)

/-- LANE_MOVE_RELEASE_WAIT_EXPIRY (R404): 100 µs of step 5 without a RELEASE or KEEPOPEN set. -/
def execLaneMoveReleaseWaitExpiry (t : Nat) (s : State) : Host.Outcome State Fault Refusal :=
  let s := s.at t
  .next (match curMove s with
    | some m => if m.planned && m.step == 5 && decide (m.since + 100 * usU ≤ s.clk) then planLatch s m else s
    | none => s)

/-- PRBS_ERROR_LIMIT (R402): `errors` within 1.0 s at a lane's checker; a spare head lane with more than 16 is due for recalibration. -/
def execPrbsErrorLimit (t lane errors : Nat) (s : State) : Host.Outcome State Fault Refusal :=
  let s := s.at t
  .next (if lane < 52 && s.on Reg.PRBS_CTRL.chk_en lane then
      let s := s.count Reg.PRBS_ERR.prbs_err lane errors
      if 16 < errors && decide (lane < 48) && s.lstate lane == 3 then recalDue (s.setLane lane { s.lane lane with isOver := true }) 0 lane reasonQuality else s
    else s)

/-- PRBS_CHECKER_SYNC (R402): bits count from here. -/
def execPrbsCheckerSync (t lane : Nat) (s : State) : Host.Outcome State Fault Refusal :=
  let s := s.at t
  .next (if lane < 52 && s.on Reg.PRBS_CTRL.chk_en lane && !s.on Reg.PRBS_CTRL.chk_sync lane then
      (s.setLane lane { s.lane lane with chkAt := some s.clk }).wr Reg.PRBS_CTRL.chk_sync lane 1
    else s)

end Sys2Proof.Machine
end

