-- ==== Sys2Proof/Machine/Image.lean ====
section
/-! DEFINITION. The stages of an inspection pipeline on one camera line (Table 6-4), from the bytes of its packet to corrected samples. -/

namespace Sys2Proof.Machine

/-- A quotient whose rounding the manual leaves open: exact where it is whole, else either neighbour (free value, by place and index). -/
def roundFree (s : State) (site idx : Nat) (num : Int) (den : Nat) : Int :=
  if num % den = 0 then num / den else num / den + (Config.free (site + 1000 * idx) s.freeN % 2 : Nat)

/-- A 16-bit sample that the manual leaves open. -/
def freeSample (s : State) (site idx : Nat) : Nat := Config.free (site + 1000 * idx) s.freeN % 65536

def clamp16 (i : Int) : Nat := (max 0 (min i 65535)).toNat

/-! ### Unpack (Table 6-2; the packings of MIPI CSI-2) -/

def unpack10 : List Byte → List Nat
  | a :: b :: c :: d :: e :: rest =>
    let low (i : Nat) (x : Byte) : Nat := (x.toNat * 4 + bits e.toNat (2 * i) 2) * 64
    low 0 a :: low 1 b :: low 2 c :: low 3 d :: unpack10 rest
  | _ => []

def unpack12 : List Byte → List Nat
  | a :: b :: c :: rest => (a.toNat * 16 + c.toNat % 16) * 16 :: (b.toNat * 16 + c.toNat / 16) * 16 :: unpack12 rest
  | _ => []

def unpack8 (bs : List Byte) : List Nat := bs.map (fun b => b.toNat * 256)

/-- Samples `i`, `i + step` and so on of an interleaved line, `n` of them; those the line lacks are open. -/
def pick (s : State) (xs : List Nat) (i step n : Nat) : List Nat :=
  (List.range n).map (fun x => xs.getD (i + step * x) (freeSample s 100 (step * x + i)))

/-- The channels of a line of `n` pixels. -/
def unpackLine (s : State) (dtype layout n : Nat) (bs : List Byte) : List (List Nat) :=
  if dtype = 0x24 then
    let xs := unpack8 bs
    [pick s xs 2 3 n, pick s xs 1 3 n, pick s xs 0 3 n]
  else if dtype = 0x1E then
    let xs := unpack8 bs
    let at_ (i : Nat) : Nat := xs.getD i (freeSample s 100 i)
    [(List.range n).map (fun x => at_ (2 * x + 1)), (List.range n).map (fun x => at_ (x / 2 * 4)),
     (List.range n).map (fun x => at_ (x / 2 * 4 + 2))]
  else
    let xs := if dtype = 0x2B then unpack10 bs else unpack12 bs
    if layout = 1 then [pick s xs 0 3 n, pick s xs 1 3 n, pick s xs 2 3 n] else [pick s xs 0 1 n]

/-! ### Dark, flat-field, lens -/

/-- Sample `x` of channel `k` less its dark value, times its gain. -/
def flatten (s : State) (p k n x v : Nat) : Nat :=
  let base := rrBase + s.ent (chPipe p) PipeE.tabBase
  let dark := s.peekNat (base + 6 * x + 2 * k) 2
  let gain := s.peekNat (base + 6 * n + 6 * x + 2 * k) 2
  clamp16 (roundFree s 101 (4 * x + k) ((v - dark) * gain : Nat) 16384)

/-- `chroma_k` of a channel, `coff`, `cmat` (Table 6-5). -/
def entSigned (s : State) (p off n : Nat) : Int :=
  match s.entry (chPipe p) with
  | some e => signed (8 * n) (leNat ((e.drop off).take n))
  | none => 0

def chromaK (s : State) (p k : Nat) : Int := entSigned s p (88 + 2 * k) 2
def colourMat (s : State) (p i : Nat) : Int := entSigned s p (56 + 2 * i) 2
def colourOff (s : State) (p k : Nat) : Int := entSigned s p (74 + 2 * k) 2

/-- Cross-track resampling: a sample taken at a whole pixel is that pixel; between pixels the 4-tap cubic of its neighbours, whose kernel the
manual does not give, nor what stands for a neighbour off the line. -/
def lens (s : State) (p k n : Nat) (xs : List Nat) : List Nat :=
  (List.range n).map (fun (x : Nat) =>
    let u : Int := 2 * x - n
    let num := s.enti (chPipe p) PipeE.lensK1 * u ^ 3 * n ^ 2 + s.enti (chPipe p) PipeE.lensK2 * u ^ 5 + chromaK s p k * 16 * u * n ^ 4
    let den : Int := (n : Int) ^ 5 * 65536
    let pos := x + num / den
    let frac := (num % den).toNat
    let tap (j : Int) : Nat :=
      let i := pos + j
      if 0 ≤ i ∧ i < n then xs.getD i.toNat 0 else freeSample s 102 (16 * x + 4 * k + (j + 1).toNat)
    if frac = 0 then tap 0 else Config.cubic (tap (-1)) (tap 0) (tap 1) (tap 2) frac den.toNat % 65536)

/-! ### Colour and exposure -/

/-- The colour matrix and offset of one pixel; a single-channel stream takes the first term alone. -/
def colour (s : State) (p x : Nat) (v : List Nat) : List Nat :=
  v.zipIdx.map (fun (_, k) =>
    let sum := v.zipIdx.foldl (fun (a : Int) (w, j) => a + colourMat s p (3 * k + j) * w) 0
    clamp16 (roundFree s 103 (4 * x + k) (sum + colourOff s p k * 4096) 4096))

/-- Digital gain and offset of the exposure set in effect; before the first, none. -/
def expose (s : State) (e : Option Expo) (x k v : Nat) : Nat :=
  match e with
  | none => v
  | some e => clamp16 (roundFree s 104 (4 * x + k) (v * e.gain.getD k 4096 + e.offset.getD k 0 * 4096) 4096)

/-- Channels to pixels and back. -/
def pixelsOf (n : Nat) (chans : List (List Nat)) : List (List Nat) := (List.range n).map (fun x => chans.map (fun c => c.getD x 0))

/-- A line through the stages: the samples at the statistics tap, and the corrected samples. -/
def camImage (s : State) (p dtype : Nat) (e : Option Expo) (bs : List Byte) : List (List Nat) × List (List Nat) :=
  let n := s.ent (chPipe p) PipeE.pixels
  let raw := unpackLine s dtype (s.ent (chPipe p) PipeE.rawLayout) n bs
  let flat := raw.zipIdx.map (fun (c, k) => c.zipIdx.map (fun (v, x) => flatten s p k n x v))
  let bent := flat.zipIdx.map (fun (c, k) => lens s p k n c)
  let lin := (pixelsOf n bent).zipIdx.map (fun (v, x) => colour s p x v)
  let exp := (List.range raw.length).map (fun k => lin.zipIdx.map (fun (v, x) => expose s e x k (v.getD k 0)))
  let tap := s.ent (chPipe p) PipeE.statTap
  (if tap = 0 then raw else if tap = 1 then flat else exp, exp)

end Sys2Proof.Machine
end

