-- ==== Sys2Proof/Machine/Render.lean ====
section
/-! DEFINITION. The Reference Renderer (R228, R229): which drops lie under an inspection pixel, and the linear RGB expected there. Positions
along and across the web are in 2⁻³³ mm, so that half a pixel is whole. An inspection pixel and a print pixel are centred on their points. -/

namespace Sys2Proof.Machine

/-! ### The ink table (Table 6-7) -/

def inkAt (s : State) (g o n : Nat) : Nat := s.peekNat (rrBase + s.rd Reg.INSP_INK_BASE.ink_base * 4096 + 1024 * g + o) n
def inkWhite (s : State) (g k : Nat) : Nat := inkAt s g (2 * k) 2
def inkMtf (s : State) (g : Nat) : Nat := inkAt s g 6 2
def inkT (s : State) (g p k : Nat) : Nat := inkAt s g (64 + 32 * p + 2 * k) 2
def inkU (s : State) (g p k : Nat) : Int := signed 16 (inkAt s g (64 + 32 * p + 6 + 2 * k) 2)
def inkW (s : State) (g p v : Nat) : Nat := if v = 0 then 0 else inkAt s g (64 + 32 * p + 12 + 2 * (v - 1)) 2

/-! ### Lines as the heads fired them -/

/-- One row's drops of one line, by column. -/
structure Drawn where
  line : Nat
  plane : Nat
  row : Nat
  /-- its place along the web -/
  y : Int
  px : List Nat
  deriving DecidableEq, Repr

/-- The slot's fate for a line has left the map. -/
def fateGone (s : State) (k g : Nat) : Bool := decide (g + 65536 < (s.slot k).next)

/-- Slot `k` fired line `g`, as the map has it. -/
def fatedFired (s : State) (k g : Nat) : Bool :=
  fateGone s k g || s.peekNat (rrBase + 0x3EA0000 + k * 16384 + g % 65536 / 4) 1 / 4 ^ (g % 4) % 4 == fateFired

/-- A row fires column `c` of line `g`: a print row on lines of its phase, a spare row where the row it serves does (R144, R150, R233). -/
def rowFires (s : State) (p i c g : Nat) : Bool :=
  if (planeRow s p i).kind = 2 then
    match servedRow s p (spareIndex s p i) c g with
    | some j => drawnLine s g % max 1 (s.ent (chPlane p) PlaneE.nPrint) == (planeRow s p j).phase
    | none => false
  else inPhase s p i g && !movedAt s p i c g

/-- The rows of plane `p` that fire part of line `g`. -/
def drawPlane (s : State) (pg : Page) (p g : Nat) (y : Int) : List Drawn :=
  match rasterLine s pg p g with
  | .error _ => []
  | .ok px =>
    (rows6.filter (fun i => (planeRow s p i).kind == 2 || (planeRow s p i).kind == 1)).map (fun i =>
      let r := planeRow s p i
      { line := g, plane := p, row := i, y := y,
        px := (rowPixels s p i g px).zipIdx.map (fun (v, c) =>
          if rowFires s p i c g && fatedFired s (if c < r.split then r.slotA else r.slotB) g then v else 0) })

/-- The planes of a group. -/
def groupPlanes (s : State) (grp : Nat) : List Nat :=
  (List.range 16).filter (fun p => s.inUse (chPlane p) && s.rd Reg.INSP_PLANE_GRP.pgrp p == grp)

/-- Lines `g` to `g + n - 1` of a group's planes. -/
def drawLines (s : State) (grp g n : Nat) : List Drawn :=
  ((List.range n).map (fun i =>
    match anyPage s (g + i), linePos s (g + i) with
    | some pg, some y => ((groupPlanes s grp).filter (fun p => bit pg.planes p)).map (fun p => drawPlane s pg p (g + i) (2 * y))
    | _, _ => [])).flatten.flatten

/-- Lines whose fate has left the map, among lines `g` to `g + n - 1`. -/
def staleLines (s : State) (grp g n : Nat) : Nat :=
  ((List.range n).filter (fun i =>
    match anyPage s (g + i) with
    | some pg => (groupPlanes s grp).any (fun p => bit pg.planes p) && (pageSlots s pg).any (fun k => fateGone s k (g + i))
    | none => false)).length

/-! ### Footprints -/

/-- What lies under an inspection pixel: a print pixel with a drop, and their overlap. -/
structure Under where
  plane : Nat
  row : Nat
  col : Nat
  line : Nat
  drop : Nat
  ov : Nat
  deriving DecidableEq, Repr

def overlapLen (a b c d : Int) : Nat := (min b d - max a c).toNat

/-- Columns of plane `p` that a span across the web may touch: the first, and how many. -/
def columnSpan (p : Nat) (lo hi : Int) : Nat × Nat :=
  let cp : Int := max 1 Config.columnPitch
  let first := (lo - 2 * Config.columnZero p + cp) / (2 * cp)
  (first.toNat, ((hi - lo) / (2 * cp) + 2).toNat)

/-- The print pixels with drops under the pixel centred at (x, y), of half width `h`. -/
def underPixel (s : State) (drawn : List Drawn) (x y : Int) (h : Nat) : List Under :=
  let p : Int := s.rd Reg.FS_PITCH.line_pitch
  let cp : Int := Config.columnPitch
  (drawn.map (fun d =>
    let oy := overlapLen (y - h) (y + h) (d.y - p) (d.y + p)
    if oy = 0 then []
    else
      let (c0, n) := columnSpan d.plane (x - h) (x + h)
      ((List.range n).filterMap (fun i =>
        let c := c0 + i
        let v := d.px.getD c 0
        let m := 2 * Config.columnZero d.plane + 2 * cp * c
        let ox := overlapLen (x - h) (x + h) (m - cp) (m + cp)
        if v = 0 ∨ ox = 0 then none else some { plane := d.plane, row := d.row, col := c, line := d.line, drop := v, ov := ox * oy })))).flatten

/-- An inspection pixel as drawn: what lies under it, the coverage of each plane of the group over `4 × h² × 65,536`, and E before the blur,
per channel over `den`. -/
structure Spot where
  under : List Under
  cov : List Nat
  raw : List Nat
  deriving DecidableEq, Repr

/-- Full coverage of a pixel of half width `h`. -/
def fullCov (h : Nat) : Nat := 4 * h * h * 65536

/-- min(a_p, 1) of a plane. -/
def coverage (s : State) (grp p : Nat) (h : Nat) (u : List Under) : Nat :=
  min (fullCov h) (u.foldl (fun a x => if x.plane = p then a + x.ov * inkW s grp p x.drop else a) 0)

/-- The factor of a plane in E_k, over `fullCov × 65,536`. -/
def inkFactor (s : State) (grp p k h cov : Nat) : Nat := fullCov h * 65536 - cov * (65536 - inkT s grp p k)

def drawSpot (s : State) (drawn : List Drawn) (grp : Nat) (x y : Int) (h : Nat) : Spot :=
  let u := underPixel s drawn x y h
  let ps := groupPlanes s grp
  let cov := ps.map (fun p => coverage s grp p h u)
  { under := u, cov := cov,
    raw := (List.range 3).map (fun k =>
      (ps.zip cov).foldl (fun e (p, a) => e * inkFactor s grp p k h a) (inkWhite s grp k)) }

/-- The denominator of `raw`. -/
def rawDen (s : State) (grp h : Nat) : Nat := (fullCov h * 65536) ^ (groupPlanes s grp).length

/-- The spot at row `i`, column `j` of a grid, the outermost ones repeated beyond its edge. -/
def spotAt (grid : List (List Spot)) (i j : Nat) : Spot :=
  let row := grid.getD (min i (grid.length - 1)) []
  row.getD (min j (row.length - 1)) { under := [], cov := [], raw := [] }

/-- The eight neighbours of a place at least one in from the edge of a grid. -/
def neighbours8 (i j : Nat) : List (Nat × Nat) :=
  [(i - 1, j - 1), (i - 1, j), (i - 1, j + 1), (i, j - 1), (i, j + 1), (i + 1, j - 1), (i + 1, j), (i + 1, j + 1)]

/-- E_k, blurred: exact but for the last rounding, which is open (R228). -/
def expected (s : State) (grid : List (List Spot)) (grp h k i j : Nat) : Nat :=
  let e (p : Nat × Nat) : Nat := (spotAt grid p.1 p.2).raw.getD k 0
  let m := inkMtf s grp
  let sum := (neighbours8 i j).foldl (fun a p => a + e p) 0
  (roundFree s 105 ((65536 * i + j) * 4 + k) (8 * m * e (i, j) + (65536 - m) * sum : Nat) (8 * 65536 * rawDen s grp h)).toNat

end Sys2Proof.Machine
end

