-- ==== Sys2Proof/Machine/Compare.lean ====
section
/-! DEFINITION. Compare, segmentation, column accumulators and the sums of the Calibration Unit for one frame of one pipeline
(R225, R226, R231 to R233, R255, R260). -/

namespace Sys2Proof.Machine

/-! ### Columns (R225, R226) -/

def pitchOf (s : State) (grp : Nat) : Nat := max 1 (s.rd Reg.GRP_PITCH.grid_pitch grp)

/-- The cross-track origin of a group: the lowest X0 of its pipelines. -/
def groupOrigin (s : State) (grp : Nat) : Int :=
  match (boundPipes s grp).map (fun p => (s.pipe p).geom.x0) with
  | [] => 0
  | x :: xs => xs.foldl min x

/-- The stitched column of camera pixel `x` under geometry `w`. -/
def colOf (s : State) (grp : Nat) (w : Geom) (x : Nat) : Nat :=
  let q : Int := pitchOf s grp
  ((2 * (w.x0 + x * w.q - groupOrigin s grp) + q) / (2 * q)).toNat

/-- First and last column of a pipeline's field. -/
def fieldOf (s : State) (grp p : Nat) : Nat × Nat :=
  let w := (s.pipe p).geom
  (colOf s grp w 0, colOf s grp w (s.ent (chPipe p) PipeE.pixels - 1))

/-- The overlap of two fields, as first and last column. -/
def overlapOf (a b : Nat × Nat) : Option (Nat × Nat) :=
  let lo := max a.1 b.1
  let hi := min a.2 b.2
  if lo ≤ hi then some (lo, hi) else none

/-- The columns a pipeline owns, and whether its first and its last lie at a seam (R226). DESIGN CHOICE (log 136): the midpoint of an even
width is its lower column, and of two pipelines of one X0 the higher number counts as the higher. -/
def ownColumns (s : State) (grp p : Nat) : (Nat × Nat) × Bool × Bool :=
  let f := fieldOf s grp p
  let x := (s.pipe p).geom.x0
  ((boundPipes s grp).filter (· != p)).foldl (fun own n =>
    match overlapOf f (fieldOf s grp n) with
    | none => own
    | some (lo, hi) =>
      let mid := (lo + hi) / 2
      let y := (s.pipe n).geom.x0
      let above := decide (y < x) || (y == x && decide (n < p))
      if above then (if own.1.1 < mid then ((mid, own.1.2), true, own.2.2) else own)
      else if mid ≤ own.1.2 then ((own.1.1, mid - 1), own.2.1, true) else own) (f, false, false)

/-- Column `j` lies in the overlap of a pipeline with another. -/
def inOverlap (s : State) (grp p j : Nat) : Bool :=
  ((boundPipes s grp).filter (· != p)).any (fun n =>
    match overlapOf (fieldOf s grp p) (fieldOf s grp n) with
    | some (lo, hi) => decide (lo ≤ j) && decide (j ≤ hi)
    | none => false)

/-! ### Differences (R231) -/

/-- A compared pixel. -/
structure Cmp where
  m : Nat
  j : Nat
  /-- E per channel; D per channel; whether E moves at most so much to its neighbours, per channel the largest step -/
  e : List Nat
  d : List Int
  step : List Nat
  spot : Spot
  /-- coverage of each plane one column below, and one grid line behind (R260) -/
  left : List Nat
  back : List Nat
  /-- max |D|, and what the two thresholds make of it -/
  big : Nat
  seed : Bool
  inside : Bool
  deriving DecidableEq, Repr

/-- The place of column `j` across the web, and of grid line `m` there along it, 2⁻³³ mm. -/
def pixelX (s : State) (grp : Nat) (j : Int) : Int := 2 * (groupOrigin s grp + j * pitchOf s grp)

def pixelY (s : State) (grp : Nat) (w : Geom) (m j : Int) : Int :=
  let q : Int := pitchOf s grp
  let x := (groupOrigin s grp + j * q - w.x0) / max 1 w.q
  2 * ((s.group grp).e0 + m * q + w.sub) + 2 * w.rho * x * q / 2 ^ 30

/-- A grid line imaged now lies beyond the position of line S + 1 in REWIND or HOLD: it is not compared (R46, R234). -/
def suspendedLine (s : State) (grp : Nat) (f : Frame) (m : Nat) : Bool :=
  (s.mode == modeRewind || s.mode == modeHold) &&
  (match s.la.stopFrom with
   | none => false
   | some g => match linePos s g with
     | some y => decide (2 * y ≤ pixelY s grp f.geom m 0)
     | none => false)

/-- The lines of a frame that are compared. -/
def comparedLines (f : Frame) : List CamLine := f.lines.filter (fun l => !l.held)

/-- The pixels drawn from grid line `m - 2` to `m + n + 1` and column `j - 2` to `j + k + 1`. -/
def spotGrid (s : State) (grp : Nat) (w : Geom) (drawn : List Drawn) (m n j k : Nat) : List (List Spot) :=
  (List.range (n + 4)).map (fun (a : Nat) => (List.range (k + 4)).map (fun (b : Nat) =>
    let y := pixelY s grp w ((m : Int) + a - 2) ((j : Int) + b - 2)
    drawSpot s drawn grp (pixelX s grp ((j : Int) + b - 2)) y (pitchOf s grp)))

/-- The print line nearest to a place along the web, 2⁻³³ mm. -/
def lineNear (s : State) (y : Int) : Nat :=
  let p : Int := max 1 (s.rd Reg.FS_PITCH.line_pitch)
  match s.insp.origins.find? (fun o => decide (2 * o.2 ≤ y + p)) with
  | some o => o.1 + ((y - 2 * o.2 + p) / (2 * p)).toNat
  | none => 0

/-- The lines that a span of grid lines may touch: the first, and how many. -/
def lineSpan (s : State) (grp : Nat) (w : Geom) (m n : Nat) : Nat × Nat :=
  let a := lineNear s (pixelY s grp w ((m : Int) - 4) 0)
  let b := lineNear s (pixelY s grp w ((m : Int) + n + 4) 0)
  (a - 2, b - (a - 2) + 3)

/-- One compared pixel at row `a`, column `b` of the grid. -/
def cmpPixel (s : State) (p : Nat) (grid : List (List Spot)) (eg : List (List (List Nat))) (m j a b : Nat) (v : List Nat) : Cmp :=
  let e (q : Nat × Nat) (k : Nat) : Nat := ((eg.getD (q.1 - 1) []).getD (q.2 - 1) []).getD k 0
  let here := (List.range v.length).map (e (a, b))
  let d := v.zipIdx.map (fun (x, k) => (x : Int) - e (a, b) k)
  let step := (List.range v.length).map (fun k =>
    (neighbours8 a b).foldl (fun g q => max g ((e (a, b) k : Int) - e q k).natAbs) 0)
  let big := d.foldl (fun g x => max g x.natAbs) 0
  let gain := if step.any (fun g => decide (s.ent (chPipe p) PipeE.edgeThr < g)) then s.ent (chPipe p) PipeE.edgeGain else 256
  { m, j, e := here, d, step, spot := spotAt grid a b, left := (spotAt grid a (b - 1)).cov, back := (spotAt grid (a - 1) b).cov, big,
    seed := decide (s.ent (chPipe p) PipeE.segHi * gain ≤ big * 256),
    inside := decide (s.ent (chPipe p) PipeE.segLo * gain ≤ big * 256) }

/-- The frame is so far ahead of another of its group that its overlap is not compared (R216). -/
def skewed (s : State) (grp p : Nat) (f : Frame) : Bool :=
  ((boundPipes s grp).filter (· != p)).any (fun n => decide ((s.pipe n).ended + 3 < f.num))

/-- Every compared pixel of a frame. -/
def cmpFrame (s : State) (p grp : Nat) (f : Frame) : List Cmp :=
  let lines := comparedLines f
  match lines with
  | [] => []
  | l :: ls =>
    let m := ls.foldl (fun a x => min a x.m) l.m
    let n := ls.foldl (fun a x => max a x.m) l.m - m + 1
    let own := (ownColumns s grp p).1
    let (g, cnt) := lineSpan s grp f.geom m n
    let grid := spotGrid s grp f.geom (drawLines s grp g cnt) m n own.1 (own.2 + 1 - own.1)
    let eg := (List.range (n + 2)).map (fun a => (List.range (own.2 + 3 - own.1)).map (fun b =>
      (List.range 3).map (fun k => expected s grid grp (pitchOf s grp) k (a + 1) (b + 1))))
    let skew := skewed s grp p f
    let pix := (List.range (s.ent (chPipe p) PipeE.pixels)).map (fun x => (colOf s grp f.geom x, x))
    (lines.map (fun l =>
      (List.range (own.2 + 1 - own.1)).filterMap (fun b =>
        let j := own.1 + b
        if skew && inOverlap s grp p j then none
        else (pix.find? (fun c => c.1 == j)).map (fun c =>
          cmpPixel s p grid eg l.m j (l.m - m + 2) (b + 2) (l.img.map (fun ch => ch.getD c.2 0)))))).flatten

/-- d_p of a pixel, over 4,096 (R231). -/
def planeDiff (s : State) (grp p : Nat) (c : Cmp) : Int :=
  c.d.zipIdx.foldl (fun a (x, k) => a + inkU s grp p k * x) 0

/-! ### Regions (R231, R232) -/

def near (a b : Cmp) : Bool := decide (a.m ≤ b.m + 1) && decide (b.m ≤ a.m + 1) && decide (a.j ≤ b.j + 1) && decide (b.j ≤ a.j + 1)

/-- A region grown from its pixels so far, and the pixels left. -/
def growRegion : Nat → List Cmp → List Cmp → List Cmp × List Cmp
  | 0, r, rest => (r, rest)
  | n + 1, r, rest =>
    let (more, left) := rest.partition (fun c => r.any (near c))
    if more = [] then (r, rest) else growRegion n (r ++ more) left

/-- Members gathered into connected sets. -/
def regionsOf : Nat → List Cmp → List (List Cmp)
  | 0, _ => []
  | _ + 1, [] => []
  | n + 1, c :: cs => let (r, left) := growRegion (cs.length + 1) [c] cs; r :: regionsOf n left

def minOf (f : Cmp → Nat) (r : List Cmp) : Nat := match r with | [] => 0 | c :: cs => cs.foldl (fun a x => min a (f x)) (f c)
def maxOf (f : Cmp → Nat) (r : List Cmp) : Nat := r.foldl (fun a x => max a (f x)) 0

/-- A region before another in the order they close: by last line, then by first column. -/
def closesFirst (a b : List Cmp) : Bool :=
  let la := maxOf (·.m) a
  let lb := maxOf (·.m) b
  decide (la < lb) || (la == lb && decide (minOf (·.j) a ≤ minOf (·.j) b))

def insertRegion (r : List Cmp) : List (List Cmp) → List (List Cmp)
  | [] => [r]
  | x :: xs => if closesFirst r x then r :: x :: xs else x :: insertRegion r xs

/-- The regions a frame keeps, in the order they close. -/
def frameRegions (s : State) (p : Nat) (cs : List Cmp) : List (List Cmp) :=
  let ms := cs.filter (·.inside)
  ((regionsOf ms.length ms).filter (fun r => r.any (·.seed) && decide (s.ent (chPipe p) PipeE.segMinArea ≤ r.length))).foldl
    (fun acc r => insertRegion r acc) []

/-- The planes of a group by Σ |d_p| over a region, the largest first. -/
def planesByDiff (s : State) (grp : Nat) (r : List Cmp) : List Nat :=
  let sums := (groupPlanes s grp).map (fun p => (p, r.foldl (fun a c => a + (planeDiff s grp p c).natAbs) 0))
  let rec insert (x : Nat × Nat) : List (Nat × Nat) → List (Nat × Nat)
    | [] => [x]
    | y :: ys => if y.2 < x.2 then x :: y :: ys else y :: insert x ys
  (sums.foldl (fun acc x => insert x acc) []).map (·.1)

/-- The print column of plane `p` nearest to column `j`. -/
def printCol (s : State) (grp p j : Nat) : Nat :=
  let cp : Int := max 1 Config.columnPitch
  ((pixelX s grp j - 2 * Config.columnZero p + cp) / (2 * cp)).toNat

/-- A region record (Table 6-8). -/
def regionRecord (s : State) (p grp : Nat) (f : Frame) (frameLines idx : Nat) (r : List Cmp) : List Byte :=
  let own := ownColumns s grp p
  let top := minOf (·.m) r
  let height := maxOf (·.m) r - top + 1
  let left := minOf (·.j) r
  let right := maxOf (·.j) r
  let width := right - left + 1
  let peak := maxOf (·.big) r
  let at_ := (r.find? (fun c => c.big == peak)).getD
    { m := 0, j := 0, e := [], d := [], step := [], spot := { under := [], cov := [], raw := [] }, left := [], back := [], big := 0,
      seed := false, inside := false }
  let mean := (roundFree s 106 idx (r.foldl (fun a c => a + c.big) 0 : Nat) r.length).toNat
  let planes := planesByDiff s grp r
  let p1 := planes.getD 0 0xFF
  let dark := decide (r.foldl (fun (a : Int) c => c.d.foldl (· + ·) a) 0 < 0)
  let line := drawnLine s (lineNear s (pixelY s grp f.geom at_.m at_.j))
  let streak := decide (64 ≤ height) && decide (16 * width ≤ height)
  let seam := (own.2.1 && left == own.1.1) || (own.2.2 && right == own.1.2)
  leBytes 6 f.num ++ leBytes 2 f.expo ++ leBytes 6 top ++ leBytes 2 height ++ leBytes 2 left ++ leBytes 2 width ++
  leBytes 4 r.length ++ leBytes 2 peak ++ leBytes 2 mean ++ leBytes 1 p1 ++ leBytes 1 (planes.getD 1 0xFF) ++
  leBytes 1 (ofBool dark) ++ leBytes 1 p ++
  leBytes 4 (if p1 = 0xFF then s.freeVal 107 else printCol s grp p1 at_.j) ++ leBytes 6 line ++
  leBytes 1 (ofBool streak + 2 * ofBool (top == f.m0) + 4 * ofBool (top + height == f.m0 + frameLines) + 8 * ofBool seam) ++
  List.replicate 5 0

/-! ### Column accumulators (R233) -/

/-- b of R233. -/
def accShift (columns : Nat) : Nat :=
  ((List.range 24).find? (fun b => decide ((columns + 2 ^ b - 1) / 2 ^ b ≤ 65536))).getD 0

def accKey (p i a : Nat) : Nat := (p * 8 + i) * 65536 + a

def addSum (t : Tbl (Int × Nat)) (key : Nat) (num : Int) (den : Nat) : Tbl (Int × Nat) :=
  let old := Tbl.get (0, 0) t key
  Tbl.put t key (old.1 + num, old.2 + den)

/-- What a frame's compared pixels add to the accumulators, Σ |d_p| over 4,096. -/
def accSums (s : State) (grp : Nat) (cs : List Cmp) : Tbl (Int × Nat) :=
  cs.foldl (fun t c => c.spot.under.foldl (fun t u =>
    let d := (planeDiff s grp u.plane c).natAbs
    addSum t (accKey u.plane u.row (u.col / 2 ^ accShift (s.ent (chPlane u.plane) PlaneE.columns))) (d * u.ov) u.ov) t) []

/-! ### The Calibration Unit (R255, R260) -/

/-- Change of Σ u_k S_k when the coverage printed of plane `p` goes from `cov` to `cov + delta`, over 4,096 × `rawDen`. -/
def diffSlope (s : State) (grp p h : Nat) (covs : List Nat) (delta : Int) : Int :=
  (List.range 3).foldl (fun (a : Int) k =>
    let others := ((groupPlanes s grp).zip covs).foldl (fun (e : Int) (x, c) =>
      if x = p then e else e * inkFactor s grp x k h c) (inkWhite s grp k)
    a - inkU s grp p k * others * (delta * (65536 - inkT s grp p k))) 0

def covOf (s : State) (grp p : Nat) (covs : List Nat) : Nat :=
  (((groupPlanes s grp).zip covs).find? (fun x => x.1 == p)).elim 0 (·.2)

def cuBase (s : State) : Nat := rrBase + s.rd Reg.CL_CU_BASE.cu_base
def densAddr (s : State) (b i c : Nat) : Nat := cuBase s + b * 0x600000 + 8 * (i * 131072 + c)
def regAddr (s : State) (b slot : Nat) : Nat := cuBase s + 0xC00000 + b * 0x2000 + 64 * slot

/-- An entry of Table 7-4 takes w and ε. -/
def densAdd (s : State) (b i c w : Nat) (eps : Int) : State :=
  let a := densAddr s b i c
  let sw := s.peekNat (a + 4) 2
  if sw = 65535 then s
  else
    let se := signed 32 (s.peekNat a 4)
    (s.pokeNat a 4 (unsigned 32 (satInt 32 (se + w * eps)))).pokeNat (a + 4) 2 (sat 16 (sw + w))

/-- A compared pixel's part of the density sums. -/
def densPixel (s : State) (grp idx : Nat) (inRegion : Bool) (c : Cmp) : State :=
  let p := s.rd Reg.CL_CU_CTRL.dens_plane
  let h := pitchOf s grp
  let cov := covOf s grp p c.spot.cov
  let slope := diffSlope s grp p h c.spot.cov cov
  let flat := c.step.all (fun g => decide (g ≤ s.rd Reg.CL_DENS_COV.flat_thr))
  if inRegion || !flat || slope == 0 || decide (cov * 100 < s.rd Reg.CL_DENS_COV.cov_lo * fullCov h) ||
      decide (s.rd Reg.CL_DENS_COV.cov_hi * fullCov h < cov * 100) then s
  else
    let eps := roundFree s 108 idx (planeDiff s grp p c * rawDen s grp h * 65536 * (if slope < 0 then -1 else 1)) slope.natAbs
    let full := 4 * s.rd Reg.FS_PITCH.line_pitch * Config.columnPitch
    (c.spot.under.filter (fun u => u.plane == p)).foldl (fun s u =>
      densAdd s (s.rd Reg.CL_CU_CTRL.cu_buf) u.row u.col (roundFree s 109 (16 * idx + u.row) (16 * u.ov : Nat) (max 1 full)).toNat eps) s

/-- A record of Table 7-5 takes one pixel's gx, gy and d_p. -/
def regAdd (s : State) (b slot : Nat) (gx gy d : Int) : State :=
  let a := regAddr s b slot
  let u (o : Nat) (x : Int) (s : State) : State := s.pokeNat (a + o) 8 (sat 64 (s.peekNat (a + o) 8 + x.toNat))
  let i (o : Nat) (x : Int) (s : State) : State := s.pokeNat (a + o) 8 (unsigned 64 (satInt 64 (signed 64 (s.peekNat (a + o) 8) + x)))
  let s := i 32 (d * gy) (i 24 (d * gx) (i 16 (gx * gy) (u 8 (gy * gy) (u 0 (gx * gx) s))))
  s.pokeNat (a + 40) 4 (sat 32 (s.peekNat (a + 40) 4 + 1))

/-- A compared pixel's part of the registration sums: gx and gy as a shift of the drawn plane by one grid pixel changes d_p there, which is
the sense that the signs of R261 take. -/
def regPixel (s : State) (grp idx : Nat) (c : Cmp) : State :=
  let h := pitchOf s grp
  let den := 4096 * rawDen s grp h
  let slots := (c.spot.under.map (fun u =>
    let r := planeRow s u.plane u.row
    (u.plane, if u.col < r.split then r.slotA else r.slotB))).eraseDups
  slots.foldl (fun s (p, slot) =>
    let cov : Int := covOf s grp p c.spot.cov
    let gx := roundFree s 110 (2 * idx) (diffSlope s grp p h c.spot.cov (cov - covOf s grp p c.left)) den
    let gy := roundFree s 110 (2 * idx + 1) (diffSlope s grp p h c.spot.cov (cov - covOf s grp p c.back)) den
    regAdd s (s.rd Reg.CL_CU_CTRL.cu_buf) slot gx gy (roundFree s 111 (16 * idx + p) (planeDiff s grp p c) 4096)) s

/-- A frame's part of the Calibration Unit's sums. -/
def cuAdd (s : State) (grp : Nat) (cs : List Cmp) (regions : List (List Cmp)) : State :=
  if s.rd Reg.CL_CU_CTRL.cu_grp = grp then
    cs.zipIdx.foldl (fun s (c, idx) =>
      let inRegion := regions.any (fun r => r.any (fun x => x.m == c.m && x.j == c.j))
      regPixel (densPixel s grp idx inRegion c) grp idx c) s
  else s

end Sys2Proof.Machine
end

