-- ==== Sys2Proof/Machine/Insp.lean ====
section
/-! DEFINITION. Camera ports, pipelines, stitch groups, frames, exposure sets and statistics records (chapter 6). -/

namespace Sys2Proof.Machine

def pipes16 : List Nat := List.range 16

/-- Inspection runs in this mode (Table 2-1). -/
def inspRuns (s : State) : Bool :=
  s.mode != modeCold && s.mode != modeReload && s.mode != modeFreeze && s.rd Reg.MODE_CUR.power == 0

/-! ### Camera ports (R211) -/

def State.camPort (s : State) (n : Nat) : CamPort := Tbl.get CamPort.reset s.insp.ports n
def State.setCamPort (s : State) (n : Nat) (x : CamPort) : State := { s with insp := { s.insp with ports := s.insp.ports.put n x } }

/-- The port's downlink, up at a gear or down. -/
def showPort (s : State) (n gear : Nat) : State :=
  ((s.wr Reg.INSP_PORT_STATE.gear n gear).wrb Reg.INSP_PORT_STATE.link_up n (gear != 0)).wrb Reg.INSP_PORT_STATE.uplink_up n (gear != 0)

/-- Training from gear 1 upward; only a new edge of `port_en` lets a port go up again to a gear it gave up. -/
def portStart (s : State) (n : Nat) (edge : Bool) : State :=
  let x := s.camPort n
  showPort (s.setCamPort n { x with train := 1, fails := 0, top := if edge then 5 else x.top, crcAt := [], bufs := [] }) n 0

/-- The port goes out of use. -/
def portStop (s : State) (n : Nat) : State := showPort (s.setCamPort n { CamPort.reset with top := (s.camPort n).top }) n 0

def portTop (s : State) (n : Nat) : Nat := min (s.camPort n).top (s.ent (chPort n) PortE.gearMax)

/-- CAMERA_PORT_TRAIN_COMPLETE: up a gear, in use, or, after two failures, down a gear. -/
def portTrained (s : State) (n : Nat) (ok : Bool) : State :=
  let x := s.camPort n
  if x.train = 0 || !s.entOn (chPort n) PortE.portEn || s.rd Reg.MODE_CUR.power != 0 then s
  else if ok then
    if x.train < portTop s n then s.setCamPort n { x with train := x.train + 1, fails := 0 }
    else showPort (s.setCamPort n { x with train := 0, fails := 0, crcAt := [] }) n x.train
  else if x.fails = 0 then s.setCamPort n { x with fails := 1 }
  else
    let g := max 1 (x.train - 1)
    (s.setCamPort n { x with train := g, fails := 0, top := g }).event 0x0401 (chPort n) 0 g 0

/-- CRC errors of the last 1.000 s. -/
def crcLate (s : State) (n : Nat) : Nat := ((s.camPort n).crcAt.filter (fun t => decide (s.clk ≤ t + secU))).length

/-- CAMERA_LINK_FAIL: the link is lost, or more than 16 CRC errors came in 1.000 s; the port retrains at its gear. -/
def portFail (s : State) (n : Nat) (lost : Bool) : State :=
  let g := s.rd Reg.INSP_PORT_STATE.gear n
  if g = 0 || !(lost || decide (16 < crcLate s n)) then s
  else
    let s := s.count Reg.INSP_PORT_STATE.retrains n
    showPort (s.setCamPort n { s.camPort n with train := g, fails := 0, crcAt := [], bufs := [] }) n 0

/-- CSI2_PACKET (R212): `ecc` 0 clean, 1 corrected, 2 beyond correction. -/
def csiPacket (s : State) (n vc dtype ecc : Nat) (crcOk : Bool) (payload : List Byte) : State :=
  let x := s.camPort n
  let drop := { x with bufs := Tbl.del x.bufs vc }
  if !s.on Reg.INSP_PORT_STATE.link_up n then s
  else if 2 ≤ ecc then (s.setCamPort n drop).count Reg.INSP_PORT_ERR.crc_err n
  else if dtype < 0x10 then (if dtype = 2 then s.setCamPort n drop else s)
  else if dtype = 0x12 then s
  else if !crcOk then (s.setCamPort n { drop with crcAt := s.clk :: x.crcAt }).count Reg.INSP_PORT_ERR.crc_err n
  else if dtype = 0x2B || dtype = 0x2C || dtype = 0x24 || dtype = 0x1E then
    s.setCamPort n { x with bufs := x.bufs.put vc (dtype, payload) }
  else (s.setCamPort n drop).count Reg.INSP_PORT_ERR.dt_unsupported n

/-! ### Pipelines: binding, geometry, what their registers show -/

/-- The starting geometry of an entry (R225). -/
def geomStart (s : State) (p : Nat) : Geom :=
  { x0 := s.enti (chPipe p) PipeE.x0 * 65536, q := s.ent (chPipe p) PipeE.pixPitch, rho := 0,
    sub := s.enti (chPipe p) PipeE.camSub0 * 65536 }

def showGeom (s : State) (p : Nat) : State :=
  let w := (s.pipe p).geom
  let pp : Int := max 1 (s.ent (chPipe p) PipeE.pixPitch)
  let s := s.wri Reg.INSP_PIPE_GEOM_X0.geom_x0 p (w.x0 / 65536)
  let s := s.wri Reg.INSP_PIPE_GEOM_QR.geom_q p ((w.q - pp) * 4000000 / pp)
  let s := s.wri Reg.INSP_PIPE_GEOM_QR.geom_rho p (w.rho / 1024)
  s.wri Reg.INSP_PIPE_GEOM_SUB.geom_sub p (w.sub / 65536)

def geomRestart (s : State) (p : Nat) : State :=
  let w := geomStart s p
  showGeom (s.setPipe p { s.pipe p with geom := w, geomNext := w, limit := false }) p

/-- The frame in progress, the newest where the lines of one are still coming while the next has begun. -/
def curFrame (s : State) (p : Nat) : Nat := match (s.pipe p).frames.getLast? with | some f => f.num | none => 0

/-- Exposure sets pending, the earliest first. -/
def earliest (es : List Expo) : Option Expo :=
  es.foldl (fun b e => match b with | none => some e | some x => if e.target < x.target then some e else b) none

def showPipe (s : State) (p : Nat) : State :=
  let x := s.pipe p
  let s := s.wr2 Reg.INSP_PIPE_FRAME_LO.frame_lo Reg.INSP_PIPE_FRAME_HI.frame_hi p (curFrame s p)
  let s := s.wr Reg.INSP_PIPE_EXPO.expo_eff p (x.expo.elim 0 (·.id))
  s.wr Reg.INSP_PIPE_EXPO.expo_pend p ((earliest x.pend).elim 0 (·.id))

/-- The pipeline's entry takes effect: it binds, or lets go (R214, R216). -/
def pipeBind (s : State) (p : Nat) : State :=
  let e := s.entOn (chPipe p) PipeE.bindEn
  let port := s.ent (chPipe p) PipeE.port
  let vc := s.ent (chPipe p) PipeE.vc
  let same := e && s.on Reg.INSP_PIPE_BIND.pbound p && s.rd Reg.INSP_PIPE_BIND.pport p == port && s.rd Reg.INSP_PIPE_BIND.pvc p == vc
  let s := s.wrb Reg.INSP_PIPE_BIND.pbound p e
  let s := s.wr Reg.INSP_PIPE_BIND.pgroup p (if e then s.ent (chPipe p) PipeE.grp else 0)
  let s := s.wr Reg.INSP_PIPE_BIND.pport p (if e then port else 0)
  let s := s.wr Reg.INSP_PIPE_BIND.pvc p (if e then vc else 0)
  let s := s.wr Reg.INSP_STATUS.bound 0 ((pipes16.filter (fun n => s.on Reg.INSP_PIPE_BIND.pbound n)).foldl (fun a n => a + 2 ^ n) 0)
  if e && !same then
    let s := s.setPipe p { s.pipe p with ended := (s.group (s.ent (chPipe p) PipeE.grp)).used, overlap := [] }
    geomRestart s p
  else s

/-! ### Exposure sets (R235, R236) -/

def expoOf (b : List Byte) (target : Nat) : Expo :=
  let n (o k : Nat) := leNat ((b.drop o).take k)
  { id := n 0 2, lineTime := n 4 4, again := n 8 2, illum := n 10 2, gain := [n 12 2, n 14 2, n 16 2],
    offset := [signed 16 (n 18 2), signed 16 (n 20 2), signed 16 (n 22 2)], target }

/-- A camera register written over the uplink, where the port tunnels it. -/
def cciWrite (s : State) (p : Nat) (reg : EF) (value : Nat) : State :=
  let port := s.rd Reg.INSP_PIPE_BIND.pport p
  if s.on Reg.INSP_PIPE_BIND.pbound p && s.entOn (chPort port) PortE.cciEn && s.on Reg.INSP_PORT_STATE.uplink_up port then
    s.emit (.cci port (s.ent (chPipe p) PipeE.cciAddr) (s.ent (chPipe p) reg) value)
  else s

/-- EXPO_CCI_WRITE: the camera values of a set. -/
def expoSend (s : State) (p : Nat) (e : Expo) : State :=
  cciWrite (cciWrite (cciWrite s p PipeE.regExp e.lineTime) p PipeE.regGain e.again) p PipeE.regIllum e.illum

def expoCommit (s : State) (p : Nat) : State := cciWrite s p PipeE.regCommit 1

def pipeGroup (s : State) (p : Nat) : Nat :=
  if s.on Reg.INSP_PIPE_BIND.pbound p then s.rd Reg.INSP_PIPE_BIND.pgroup p else s.ent (chPipe p) PipeE.grp

/-- F + 1 of R235: the frame after the one in progress. DESIGN CHOICE (log 136): between two frames of a run F is the last frame ended. -/
def nextFrame (s : State) (p : Nat) : Nat :=
  let g := s.group (pipeGroup s p)
  if curFrame s p ≠ 0 then curFrame s p + 1 else if g.on then max (g.base + 1) ((s.pipe p).ended + 1) else g.used + 1

/-- The frame from which a set written now applies, or 0 if the write is ignored. -/
def expoTarget (s : State) (p : Nat) (b : List Byte) : Nat :=
  let e := expoOf b 0
  let minF := leNat ((b.drop 24).take 6)
  let x := s.pipe p
  let run := (s.group (pipeGroup s p)).on
  let f1 := nextFrame s p
  let t := if run then max (f1 + 1) minF else max f1 minF
  if e.id = 0 || (x.expo.elim 0 (·.id)) == e.id || decide (e.lineTime < 200) || decide (1000000 < e.lineTime) ||
      (minF != 0 && decide (minF < if run then f1 + 1 else 2)) ||
      (decide (2 ≤ x.pend.length) && x.pend.all (fun q => q.target != t)) then 0
  else t

/-- An exposure set is written to a pipeline; outside a run, a set for the next start goes to the camera at once. -/
def expoWrite (s : State) (p : Nat) (b : List Byte) : State × Nat :=
  let t := expoTarget s p b
  if t = 0 then (s, 0)
  else
    let e := expoOf b t
    let x := s.pipe p
    let s := s.setPipe p { x with pend := x.pend.filter (fun q => q.target != t) ++ [e] }
    let s := if !(s.group (pipeGroup s p)).on && t == nextFrame s p then expoCommit (expoSend s p e) p else s
    (showPipe s p, t)

/-- EXPO_GO: EXPO_DATA goes to the pipeline in `expo_pipe`. -/
def expoGo (s : State) : State :=
  let b := ((List.range 8).map (fun i => leBytes 4 (s.rd Reg.EXPO_DATA.expo_data i))).flatten
  let (s, t) := expoWrite s (s.rd Reg.INSP_EXPO_SEL.expo_pipe) b
  s.wr2 Reg.EXPO_RESULT_LO.expo_t_lo Reg.EXPO_RESULT_HI.expo_t_hi 0 t

/-- EXPO_COMMIT_CHECK (R236): the commit register as read during the frame; still 1, the frame is unconfirmed and the set is committed
again at its end. -/
def expoCheck (s : State) (p : Nat) (value : Nat) : State :=
  let x := s.pipe p
  match x.frames.getLast? with
  | none => s
  | some f =>
    if !x.check then s
    else if value % 2 = 1 then
      let g := { f with expo := 0, unconfirmed := true }
      let s := s.setPipe p { x with frames := x.frames.dropLast ++ [g], check := false, again := true }
      s.event 0x0402 (chPipe p) f.num (x.expo.elim 0 (·.id)) 0
    else s.setPipe p { x with check := false, again := false }

/-! ### Triggers and lines (R217 to R221) -/

def frameLines (s : State) (g : Nat) : Nat := max 1 (s.rd Reg.GRP_CFG.frame_lines g)

/-- The state with pipeline `p` under the entry of frame `f`: what is formed of that frame's lines is formed of it (R27). -/
def frameView (s : State) (p : Nat) (f : Frame) : State :=
  { s with cat := { s.cat with inEffect := match f.entry with
      | some e => s.cat.inEffect.put (chPipe p) e
      | none => Tbl.del s.cat.inEffect (chPipe p) } }

/-- The group that a frame of pipeline `p` belongs to. -/
def frameGroup (s : State) (p : Nat) (f : Frame) : Nat := match f.entry with | some e => PipeE.grp.get e | none => pipeGroup s p

/-- A frame begins at pipeline `p`: the new geometry, and the exposure set for it (R227, R236). -/
def frameBegin (s : State) (p num m : Nat) : State :=
  let x := s.pipe p
  let due := x.pend.find? (fun e => e.target == num)
  let set := match due with | some e => some e | none => x.expo
  let f : Frame := {
    num, m0 := m, firstAt := s.clk, counted := 0, waiting := [], lines := [], lost := 0, set, expo := set.elim 0 (·.id),
    unconfirmed := false, geom := x.geomNext, entry := Tbl.find s.cat.inEffect (chPipe p) }
  let g := pipeGroup s p
  let s := s.setGroup g { s.group g with used := max (s.group g).used num }
  let s := s.setPipe p { x with
    frames := x.frames ++ [f], overlap := x.overlap.filter (fun o => decide (num ≤ o.frame + 1)), geom := x.geomNext, expo := set, pend := x.pend.filter (fun e => decide (num < e.target)),
    check := due.isSome || x.again, again := false }
  let s := match (s.pipe p).pend.find? (fun e => e.target == num + 1) with | some e => expoSend s p e | none => s
  showGeom (showPipe s p) p

/-- Trigger `k` of a group reaches a pipeline: its frame, which has begun, counts it; the last of a frame commits the next set. -/
def pipeTrigger (s : State) (p g k : Nat) : State :=
  let x := s.pipe p
  let l := s.ent (chPipe p) PipeE.camLines
  match x.frames.getLast? with
  | none => s
  | some f =>
    let m := k - l
    let f := { f with counted := f.counted + 1, waiting := f.waiting ++ [(m, s.clk)] }
    let s := s.setPipe p { x with frames := x.frames.dropLast ++ [f] }
    if m % frameLines s g = frameLines s g - 1 && (x.again || x.pend.any (fun e => e.target == f.num + 1)) then expoCommit s p else s

/-- A rising edge of the trigger output: a new trigger, or `none` (R218). -/
def groupCount (s : State) (g : Nat) : Option State :=
  let x := s.group g
  let pos := webPos s
  if !(decide (g < 4) && x.on && inspRuns s) then none
  else if !x.started then
    some ((s.setGroup g { x with started := true, e0 := pos, top := pos, k := 0 }).wr2i
      Reg.GRP_ORIGIN_LO.e0_lo Reg.GRP_ORIGIN_HI.e0_hi g (pos / 65536))
  else if x.top < pos then some (s.setGroup g { x with top := pos, k := x.k + 1 })
  else none

/-- The pipelines whose frame begins at the group's present trigger, with its number and first grid line. DESIGN CHOICE (log 136): after a
restart grid lines count from 0 again, as triggers do, and the first frame holds the first of them. -/
def framesDue (s : State) (g : Nat) : List (Nat × Nat × Nat) :=
  let x := s.group g
  (boundPipes s g).filterMap (fun p =>
    let l := s.ent (chPipe p) PipeE.camLines
    let m := x.k - l
    if l ≤ x.k ∧ m % frameLines s g = 0 then some (p, x.base + m / frameLines s g + 1, m) else none)

/-- The pipelines that count the group's present trigger. -/
def pipesSeeing (s : State) (g : Nat) : List Nat :=
  (boundPipes s g).filter (fun p => decide (s.ent (chPipe p) PipeE.camLines ≤ (s.group g).k))

/-- The oldest unpaired trigger whose time is at least `lat_hi` past is lost (R221). -/
def lineLost (s : State) (p : Nat) : State :=
  let x := s.pipe p
  match x.frames.findIdx? (fun f => f.waiting != []) with
  | none => s
  | some i =>
    let f := x.frames.getD i
      { num := 0, m0 := 0, firstAt := 0, counted := 0, waiting := [], lines := [], lost := 0, set := none, expo := 0, unconfirmed := false,
        geom := .reset, entry := none }
    match f.waiting with
    | [] => s
    | w :: ws =>
      if w.2 + (frameView s p f).ent (chPipe p) PipeE.latHi * 10 * nsU < s.clk then
        (s.setPipe p { x with frames := x.frames.set i { f with waiting := ws, lost := f.lost + 1 } }).count Reg.INSP_PIPE_LINES.lines_lost p
      else s

/-- All triggers too old for a line that arrives now. -/
def linesLost : Nat → State → Nat → State
  | 0, s, _ => s
  | n + 1, s, p => linesLost n (lineLost s p) p

def waitingCount (s : State) (p : Nat) : Nat := (s.pipe p).frames.foldl (fun a f => a + f.waiting.length) 0

/-- The place of the oldest candidate trigger for a line arriving now: frame, and the trigger. -/
def candidate (s : State) (p : Nat) : Option (Nat × (Nat × Nat)) :=
  ((s.pipe p).frames.zipIdx.filterMap (fun (f, i) =>
    let v := frameView s p f
    let lo := v.ent (chPipe p) PipeE.latLo * 10 * nsU
    let hi := v.ent (chPipe p) PipeE.latHi * 10 * nsU
    (f.waiting.find? (fun w => decide (w.2 + lo ≤ s.clk) && decide (s.clk ≤ w.2 + hi))).map (fun w => (i, w)))).head?

/-- Samples of a line, and whether they would take the pipeline over 1.6 Gsample/s (R223). -/
def overRate (s : State) (p n : Nat) : Bool :=
  match (s.pipe p).lineAt with
  | none => false
  | some t => decide ((s.clk - t) * 16 < n * 10 * nsU)

/-- What the stitch overlap buffer keeps of a corrected line: luminance of `ovl_px` columns at each end of the field (R226). -/
def overlapLine (s : State) (p num m : Nat) (img : List (List Nat)) : Overlap :=
  let n := s.ent (chPipe p) PipeE.ovlPx
  let lum := (pixelsOf (s.ent (chPipe p) PipeE.pixels) img).map (fun v =>
    match v with
    | [y] => y
    | _ => Config.luma (v.getD 0 0) (v.getD 1 0) (v.getD 2 0) % 65536)
  { frame := num, m, left := lum.take n, right := lum.drop (lum.length - n) }

/-- A line arrives at its pipeline. DESIGN CHOICE (log 136): it is unpacked by the data type of its packet, whatever the entry's. -/
def pipeLine (s : State) (p dtype : Nat) (payload : List Byte) : State :=
  let s := linesLost (waitingCount s p) s p
  match candidate s p with
  | none => s.count Reg.INSP_PIPE_LINES.lines_orphan p
  | some (i, w) =>
    let x := s.pipe p
    match x.frames[i]? with
    | none => s
    | some f =>
      let v := frameView s p f
      let chans := if dtype = 0x24 || dtype = 0x1E || v.entOn (chPipe p) PipeE.rawLayout then 3 else 1
      if overRate s p (chans * v.ent (chPipe p) PipeE.pixels) then s
      else
        let r := camImage v p dtype f.set payload
        let l : CamLine := { m := w.1, tap := r.1, img := r.2, at_ := w.2, held := suspendedLine s (frameGroup s p f) f w.1 }
        s.setPipe p { x with
          lineAt := some s.clk
          frames := x.frames.set i { f with waiting := f.waiting.filter (· != w), lines := l :: f.lines }
          overlap := overlapLine v p f.num w.1 r.2 :: x.overlap }

/-- The pipeline bound to a stream. -/
def pipeOf (s : State) (port vc : Nat) : Option Nat :=
  pipes16.find? (fun p => s.on Reg.INSP_PIPE_BIND.pbound p && s.rd Reg.INSP_PIPE_BIND.pport p == port && s.rd Reg.INSP_PIPE_BIND.pvc p == vc)

/-- CAMERA_LINE_RECEIVE: the line of a stream is complete. -/
def lineReceive (s : State) (port vc : Nat) : State :=
  let x := s.camPort port
  match Tbl.find x.bufs vc with
  | none => s
  | some (dtype, payload) =>
    let s := s.setCamPort port { x with bufs := Tbl.del x.bufs vc }
    if !s.on Reg.INSP_PORT_STATE.link_up port then s
    else match pipeOf s port vc with
      | none => s.count Reg.INSP_PORT_UNBOUND.unbound_lines port
      | some p => if (s.group (pipeGroup s p)).on && inspRuns s then pipeLine s p dtype payload else s.count Reg.INSP_PIPE_LINES.lines_orphan p

/-! ### Statistics records (R237, R238) -/

/-- Samples of channel `k` at the tap, line by line. -/
def tapOf (f : Frame) (k : Nat) : List (List Nat) := f.lines.map (fun l => l.tap.getD k [])

def histBin (f : Frame) (k j : Nat) : Nat := (tapOf f k).foldl (fun a xs => a + (xs.filter (fun v => v / 256 == j)).length) 0

def zoneAvg (s : State) (f : Frame) (pixels z k : Nat) : Nat :=
  let a := z * pixels / 64
  let b := (z + 1) * pixels / 64
  let vals := ((tapOf f k).map (fun xs => (xs.take b).drop a)).flatten
  if vals = [] then 0 else (roundFree s 112 (4 * z + k) (vals.foldl (· + ·) 0 : Nat) vals.length).toNat

def saturatedOf (f : Frame) (pixels : Nat) : Nat :=
  f.lines.foldl (fun a l => a + ((pixelsOf pixels l.tap).filter (fun v => v.any (· == 0xFFFF))).length) 0

def channelsOf (s : State) (p : Nat) : Nat :=
  if s.ent (chPipe p) PipeE.dtype = 0x24 || s.ent (chPipe p) PipeE.dtype = 0x1E || s.entOn (chPipe p) PipeE.rawLayout then 3 else 1

def statRecord (s : State) (p g : Nat) (f : Frame) (flags : Nat) : List Byte :=
  let n := s.ent (chPipe p) PipeE.pixels
  let first := ((s.group g).e0 + f.m0 * pitchOf s g + f.geom.sub) / 65536
  leBytes 6 f.num ++ leBytes 2 f.expo ++ leBytes 1 p ++ leBytes 1 (channelsOf s p) ++ leBytes 1 (s.ent (chPipe p) PipeE.statTap) ++
  leBytes 1 flags ++ leBytes 2 f.lines.length ++ leBytes 2 f.lost ++ leBytes 8 (s.devAt f.firstAt / nsU) ++
  leBytes 8 (unsigned 64 first) ++ leBytes 4 n ++ leBytes 4 (saturatedOf f n) ++ List.replicate 24 0 ++
  ((List.range 3).map (fun k => ((List.range 256).map (fun j => leBytes 4 (histBin f k j))).flatten)).flatten ++
  ((List.range 64).map (fun z => ((List.range 3).map (fun k => leBytes 2 (zoneAvg s f n z k))).flatten)).flatten

def statBase (s : State) : Nat :=
  s.rd Reg.INSP_STAT_BASE_HI.stat_base_hi * 2 ^ 32 + s.rd Reg.INSP_STAT_BASE_LO.stat_base_lo * 4096

def statPost (s : State) (p g : Nat) (f : Frame) (flags : Nat) : State :=
  if s.ringOpen 4 then
    let a := statBase s + 4096 * ((s.ring 4).prod % s.ringSize 4)
    let s := s.pokeBytes a (statRecord s p g f flags)
    ringPost s 4 { addr := a, length := 3520, opcode := 0x0604, irq := true, chain := false, tag := p + f.num * 65536, status := 0, result := 0 }
  else s.count Reg.INSP_PIPE_DROP.stat_dropped p

/-! ### Stitch learning (R227) -/

/-- A term moves towards its estimate by no more than `step`, within `span` of where it started; at the end of its range it stays. -/
def learnTerm (now est : Int) (step : Nat) (start span : Int) : Int × Bool :=
  let v := if now = start - span || now = start + span then now else max (now - step) (min (now + step) est)
  let w := max (start - span) (min (start + span) v)
  (w, w == start - span || w == start + span)

/-- The four terms after a frame; `ests` are the estimates of X0, Q, ρ and σ in the units of `Geom` (Table 6-6). -/
def learnGeom (s : State) (p g : Nat) (ests : List Int) : State :=
  let x := s.pipe p
  let w := x.geomNext
  let st := geomStart s p
  let q : Int := pitchOf s g
  let a := learnTerm w.x0 (ests.getD 0 w.x0) (w.q / 8).toNat st.x0 (2 * 4294967296)
  let b := learnTerm w.q (ests.getD 1 w.q) (w.q / 50000).toNat st.q (st.q / 200)
  let c := learnTerm w.rho (ests.getD 2 w.rho) 1024 0 1048576
  let d := learnTerm w.sub (ests.getD 3 w.sub) (q / 8).toNat st.sub (4 * q)
  s.setPipe p { x with geomNext := { x0 := a.1, q := b.1, rho := c.1, sub := d.1 }, limit := a.2 || b.2 || c.2 || d.2 }

/-! ### The end of a frame (R222, R234) -/

/-- The swap of the Calibration Unit's buffers (R256). -/
def cuSwap (s : State) (num : Nat) : State :=
  let s := s.wr2 Reg.CL_CU_FIRST_LO.cu_first_lo Reg.CL_CU_FIRST_HI.cu_first_hi 0 s.insp.cuFirst
  let s := s.wr Reg.CL_CU_FIRST_HI.cu_frames 0 s.insp.cuFrames
  let b := 1 - s.rd Reg.CL_CU_CTRL.cu_buf
  let s := s.wr Reg.CL_CU_CTRL.cu_buf 0 b
  let inBuf (a : Nat) : Bool :=
    (decide (densAddr s b 0 0 ≤ a) && decide (a < densAddr s b 0 0 + 0x600000)) ||
    (decide (regAddr s b 0 ≤ a) && decide (a < regAddr s b 0 + 0x2000))
  let s := { s with mem := s.mem.filter (fun c => !inBuf c.1) }
  let s := { s with insp := { s.insp with cuDone := (s.rd Reg.CL_CU_CTRL.dens_plane, s.rd Reg.CL_CU_CTRL.cu_grp), cuNew := 3 } }
  let s := match s.insp.cuPlane with | some v => s.wr Reg.CL_CU_CTRL.dens_plane 0 v | none => s
  let s := match s.insp.cuGrp with | some v => s.wr Reg.CL_CU_CTRL.cu_grp 0 v | none => s
  (s.wr Reg.CL_CU_CTRL.swap 0 0) |> fun s =>
    { s with insp := { s.insp with cuFirst := num + 1, cuFrames := 0, cuPlane := none, cuGrp := none } }

/-- The density loop runs for the plane summed (Table 7-1): it swaps the buffers after `dens_frames` frames (R257). -/
def densCollects (s : State) : Bool :=
  s.on Reg.CL_CTRL.loops_run && s.on Reg.CL_CTRL.dens_en && bit (s.rd Reg.CL_PLANE_EN.plane_en) (s.rd Reg.CL_CU_CTRL.dens_plane) &&
    (s.mode == modePrint || s.mode == modeThrottle || s.mode == modeService || s.mode == modeCalibrate || s.mode == modeShadow)

/-- A frame of group `g` has ended at its last pipeline; the loop asks for the swap so that it takes effect as the last of its frames
ends. -/
def groupFrameEnd (s : State) (g num : Nat) : State :=
  if s.rd Reg.CL_CU_CTRL.cu_grp = g then
    let s := { s with insp := { s.insp with
      cuFirst := if s.insp.cuFrames = 0 then num else s.insp.cuFirst, cuFrames := sat 16 (s.insp.cuFrames + 1) } }
    let s := if s.on Reg.CL_CU_CTRL.swap then cuSwap s num else s
    if densCollects s && decide (Config.densFrames ≤ s.insp.cuFrames + 1) then s.wr Reg.CL_CU_CTRL.swap 0 1 else s
  else s

/-- Every channel of the field holds one value: the content is blank or uniform, and no correlation of it has a peak (R227). -/
def uniformField (f : Frame) : Bool :=
  (List.range 3).all (fun k =>
    match (f.lines.map (fun l => l.img.getD k [])).flatten with
    | [] => true
    | v :: vs => vs.all (· == v))

/-- What a frame of pipeline `p` that ends is made into: its regions, its share of the accumulators and of the Calibration Unit's sums,
the learnt geometry and its statistics record; the other frames of its group keep what they hold. -/
def frameForm (s : State) (p g : Nat) (f : Frame) (inc : Bool) (learn : Option (List Int)) : State :=
  let fl := frameLines s g
  let whole := f.lines != [] && comparedLines f == []
  let some_ := f.lines.any (·.held)
  let cmp := s.entOn (chPipe p) PipeE.cmpEn && !f.unconfirmed && !whole
  let cs := if cmp then cmpFrame s p g f else []
  let regions := frameRegions s p cs
  let kept := regions.take 256
  let isOver := decide (256 < regions.length)
  let recs := kept.zipIdx.map (fun (r, i) => regionRecord s p g f fl i r)
  let part : AccPart := {
    grp := g, frame := f.num, pipe := p, expo := f.expo, full := !inc && !whole,
    sums := if s.entOn (chPipe p) PipeE.accEn && !inc then accSums s g cs else [] }
  let span := lineSpan s g f.geom f.m0 f.counted
  let stale := if cmp then staleLines s g span.1 span.2 else 0
  let s := s.setPipe p { s.pipe p with regions := (s.pipe p).regions ++ recs, lastRegions := recs.map (fun r =>
    (r, match f.lines.find? (fun l => l.m == leNat ((r.drop 8).take 6)) with | some l => s.devAt l.at_ / nsU | none => 0)) }
  let low := (boundPipes s g).foldl (fun a n => min a (if n = p then f.num else (s.pipe n).ended)) f.num
  let s := { s with insp := { s.insp with parts := s.insp.parts.filter (fun (a : AccPart) => a.grp != g || decide (low ≤ a.frame + 8)) ++ [part] } }
  let s := if isOver then s.count Reg.INSP_PIPE_DROP.seg_frames p else s
  let s := s.count Reg.INSP_PIPE_DROP.fate_stale p stale
  let s := if some_ then s else cuAdd s g cs regions
  let s := match learn with
    | some e => if s.entOn (chPipe p) PipeE.learnEn && !inc && !uniformField f then learnGeom s p g e else s
    | none => s
  let flags := ofBool f.unconfirmed + 2 * ofBool inc + 4 * ofBool some_ + 8 * ofBool isOver + 16 * ofBool (skewed s g p f) +
    32 * ofBool (s.pipe p).limit
  statPost s p g f flags

/-- Frame `f` of pipeline `p` ends, under the entry it began with (R27); `inc` incomplete. -/
def frameClose (s : State) (p : Nat) (f : Frame) (inc : Bool) (learn : Option (List Int)) : State :=
  let g := frameGroup s p f
  let t := frameForm (frameView s p f) p g f inc learn
  let s := { t with cat := s.cat }
  let x := s.pipe p
  let s := showPipe (s.setPipe p { x with frames := x.frames.filter (fun h => h.num != f.num), ended := f.num }) p
  let s := triggerSlices s 4 (fun a => a == p)
  let s := if (boundPipes s g).all (fun n => decide (f.num ≤ (s.pipe n).ended)) then groupFrameEnd s g f.num else s
  rasterRelease s

/-- The oldest frame of a pipeline, if every trigger of its grid lines is paired or lost. -/
def frameReady (s : State) (p : Nat) : Option Frame :=
  match (s.pipe p).frames.head? with
  | none => none
  | some f => if f.counted = frameLines s (frameGroup s p f) ∧ f.waiting = [] then some f else none

/-! ### Groups (R217, R222) -/

def showGroups (s : State) : State :=
  s.wr Reg.INSP_STATUS.grp_running 0 ((List.range 4).foldl (fun a g => if (s.group g).on then a + 2 ^ g else a) 0)

/-- A group starts: numbering goes on from the highest number it has used, the origin is taken anew at the first trigger (R218, R220,
R225). -/
def groupStart (s : State) (g : Nat) : State :=
  let used := (s.group g).used
  let s := s.setGroup g { Group.reset with on := true, base := used, used }
  let s := (boundPipes s g).foldl (fun s p => s.setPipe p { s.pipe p with ended := used }) s
  showGroups ((boundPipes s g).foldl geomRestart s)

/-- Every frame in progress at a pipeline ends incomplete. -/
def framesAbort (s : State) (p : Nat) : State := (s.pipe p).frames.foldl (fun s f => frameClose s p f true none) s

/-- A group stops at once. -/
def groupStop (s : State) (g : Nat) : State :=
  let s := (boundPipes s g).foldl framesAbort s
  let used := (s.group g).used
  rasterRelease (showGroups (s.setGroup g { Group.reset with base := used, used }))

/-- Entry to P1 or P2 stops every running group, and the return starts those whose `run` is still 1 (R222). -/
def groupsSleep (s : State) : State := (List.range 4).foldl (fun s g => if (s.group g).on then groupStop s g else s) s
def groupsWake (s : State) : State :=
  (List.range 4).foldl (fun s g => if s.on Reg.GRP_CFG.run g && !(s.group g).on then groupStart s g else s) s

/-- A write of GRP_CFG (R217, R222). DESIGN CHOICE (log 136): a write of `run` 0 that changes another field stops the group and changes no
other field. -/
def groupWrite (s : State) (g value : Nat) : State :=
  let run := bit value 31
  let fl := value % 16384
  if 4 ≤ g || decide (fl < 256) || decide (8192 < fl) then s
  else if s.on Reg.GRP_CFG.run g then
    if run then s else groupStop (s.wr Reg.GRP_CFG.run g 0) g
  else
    let s := ((s.wr Reg.GRP_CFG.trig_out g (bits value 16 2)).wr Reg.GRP_CFG.frame_lines g fl).wrb Reg.GRP_CFG.run g run
    if run && inspRuns s then groupStart s g else s

/-! ### Accumulators (R103, R234) -/

/-- The earliest frame later than the completed one that every bound pipeline of the group has ended in full. -/
def accReady (s : State) (plane g : Nat) : Option Nat :=
  let done := (Tbl.get (0, 0) s.insp.accDone plane).1
  let ps := boundPipes s g
  let frames := (s.insp.parts.filter (fun a => a.grp == g && a.full && decide (done < a.frame))).map (·.frame)
  let good := frames.filter (fun f => ps.all (fun p => s.insp.parts.any (fun a => a.grp == g && a.frame == f && a.pipe == p && a.full)))
  match good with
  | [] => none
  | f :: fs => some (fs.foldl min f)

/-- The columns of an accumulator all belong to retired nozzles: it reads 0, as no drops are attributed to it (R103). Line `n` is the
last one of the frame. -/
def accRetired (s : State) (plane i a n : Nat) : Bool :=
  let cols := s.ent (chPlane plane) PlaneE.columns
  let b := accShift cols
  (planeRow s plane i).kind == 1 && (List.range (2 ^ b)).all (fun k =>
    let c := a * 2 ^ b + k
    decide (cols ≤ c) || movedAt s plane i c n)

/-- ACCUMULATOR_COMPLETE: the buffer is replaced whole, entries that collected nothing holding their value, those of retired nozzles 0. -/
def accComplete (s : State) (plane : Nat) : State :=
  let g := s.rd Reg.INSP_PLANE_GRP.pgrp plane
  match accReady s plane g with
  | none => s
  | some f =>
    let parts := s.insp.parts.filter (fun a => a.grp == g && a.frame == f)
    let lo := accKey plane 0 0
    let hi := accKey (plane + 1) 0 0
    let last := lineNear s (2 * ((s.group g).e0 + ((f - (s.group g).base) * frameLines s g : Nat) * (pitchOf s g : Int)))
    let sums := parts.foldl (fun t a => (a.sums.filter (fun x => decide (lo ≤ x.1) && decide (x.1 < hi))).foldl
      (fun t x => addSum t x.1 x.2.1 x.2.2) t) []
    let acc := sums.foldl (fun acc x =>
      Tbl.put acc x.1 (sat 16 (roundFree s 113 x.1 x.2.1 (4096 * max 1 x.2.2)).toNat))
      (s.insp.acc.filter (fun x => !(decide (lo ≤ x.1) && decide (x.1 < hi) && accRetired s plane ((x.1 - lo) / 65536) (x.1 % 65536) last)))
    let expos := (parts.filter (fun a => (boundPipes s g).contains a.pipe)).map (·.expo)
    let e := match expos with | [] => 0xFFFF | x :: xs => if xs.all (· == x) then x else 0xFFFF
    let s := { s with insp := { s.insp with acc := acc, accDone := s.insp.accDone.put plane (f, e) } }
    triggerSlices s 5 (fun a => a == plane)

/-- STAT.VCOL: an accumulator of the completed buffer. -/
def accValue (s : State) (plane i a : Nat) : Nat := Tbl.get 0 s.insp.acc (accKey plane i a)

/-! ### The commands that touch no unit boundary -/

/-- CAMERA_LINK_FAIL -/
def execCameraLinkFail (t port : Nat) (lost : Bool) (s : State) : Host.Outcome State Fault Refusal := .next (portFail (s.at t) port lost)

/-- CSI2_PACKET -/
def execCsi2Packet (t port vc dtype ecc : Nat) (crcOk : Bool) (payload : List Byte) (s : State) : Host.Outcome State Fault Refusal :=
  .next (csiPacket (s.at t) port vc dtype ecc crcOk payload)

/-- CAMERA_LINE_RECEIVE -/
def execCameraLineReceive (t port vc : Nat) (s : State) : Host.Outcome State Fault Refusal := .next (lineReceive (s.at t) port vc).spend

/-- TRIGGER_LINE_LOST -/
def execTriggerLineLost (t pipe : Nat) (s : State) : Host.Outcome State Fault Refusal := .next (lineLost (s.at t) pipe)

/-- GROUP_RUN_WRITE -/
def execGroupRunWrite (t grp value : Nat) (s : State) : Host.Outcome State Fault Refusal := .next (groupWrite (s.at t) grp value).spend

/-- ACCUMULATOR_COMPLETE -/
def execAccumulatorComplete (t plane : Nat) (s : State) : Host.Outcome State Fault Refusal := .next (accComplete (s.at t) plane).spend

/-- EXPO_GO -/
def execExpoGo (t : Nat) (s : State) : Host.Outcome State Fault Refusal := .next (expoGo (s.at t))

/-- EXPO_COMMIT_CHECK -/
def execExpoCommitCheck (t pipe value : Nat) (s : State) : Host.Outcome State Fault Refusal := .next (expoCheck (s.at t) pipe value)

end Sys2Proof.Machine
end

