-- ==== Sys2Proof/Machine/Transit.lean ====
section
/-! DEFINITION. Mode changes as they take effect (R46 to R75): local transitions and what each mode starts, the orderly stop, the REWIND
sequence, power states, and epochs from schedule to rollback. -/

namespace Sys2Proof.Machine

/-! ### Axis 0 under the modes -/

/-- Axis 0 is commanded to a speed, which becomes the last VELOCITY speed of R277. -/
def webRun (s : State) (v : Int) : State :=
  axisRun (s.setAxis 0 { s.axis 0 with velCmd := v }) 0 v

def webStop (s : State) : State := axisStop s 0

/-- v_job, µm/s. -/
def vJob (s : State) : Nat := s.rd Reg.LA_VJOB.v_job * 1000

/-- The MODE record of the mode now in effect (Table 13-2), with S and the step of REWIND. -/
def modeTwin (s : State) (cause line : Nat) : TwinRec :=
  .mode s.mode cause line (s.rd2 Reg.LA_RW_LINE_LO.rw_line_lo Reg.LA_RW_LINE_HI.rw_line_hi) (s.rd Reg.LA_STATUS.rw_step)

/-- The line from which the mode of the head slots holds, as its job numbers it: the line of effect of a MODE record. -/
def modeFrom (s : State) : Nat := match s.md.lines.head? with | some x => relLine s x.1 | none => 0

/-- `rw_step` changes; the partner learns it by a MODE record (Table 13-6). -/
def setStep (s : State) (n : Nat) : State :=
  let t := s.wr Reg.LA_STATUS.rw_step 0 n
  if s.rd Reg.LA_STATUS.rw_step = n then t else t.twin (modeTwin t (s.rd Reg.MODE_CUR.cause) (modeFrom t))

/-! ### The origin of a job (R170, R172) -/

/-- W0 of the current job is set: `start_dist` ahead of the web's position, line 0 due everywhere. -/
def setOrigin (s : State) : State :=
  match curJob s with
  | none => s
  | some j =>
    let pos := webPos s + s.rd Reg.FS_VMIN.start_dist * 4294967296
    let slots := slots80.map (fun k => (k, { s.slot k with next := j.base }))
    let s := { s with fire := { s.fire with w0 := pos, w0Line := j.base, w0Set := true, refNext := j.base, slots := slots,
                                            refAt := none, refGap := none },
                      insp := { s.insp with origins := (j.base, pos) :: s.insp.origins.filter (fun o => decide (o.1 < j.base)) } }
    let s := match s.la.pages.find? (fun p => p.jobIdx == j.idx) with
      | some p => s.twin (.page p.addr (p.first - p.base) (some pos))
      | none => s
    showOrigin s

/-! ### REWIND (R160 to R163) -/

/-- d_run of R162 in 2⁻³² mm: v ÷ 2 × (v ÷ a + a ÷ j), v in mm/s. -/
def runUp (s : State) : Int :=
  let v := s.rd Reg.LA_VJOB.v_job
  let a := max 1 (s.ent (chAxis 0) AxisE.aMax)
  let j := max 1 (s.ent (chAxis 0) AxisE.jMax)
  ((v * (v * j + a * a) * 4294967296 / (2 * a * j) : Nat) : Int)

/-- The position from which a resume begins: `rw_settle` and the run-up before `pos`. -/
def runUpStart (s : State) (pos : Int) : Int := pos - runUp s - s.rd Reg.LA_RW_CFG.rw_settle * 4294967296

/-- Step 4: axis 0 reverses by the back-up distance, at most at `rw_rev_speed`. -/
def backUp (s : State) : State :=
  let d := s.la.backUp / 65536
  let peak := min (s.rd Reg.LA_RW_CFG.rw_rev_speed * 1000) (s.ent (chAxis 0) AxisE.vMax)
  if d ≤ 0 then setStep s 4 else axisMove (setStep s 4) 0 ((s.axis 0).wp - d) peak

def dwell (s : State) : State :=
  { s with la := { s.la with dwellUntil := s.clk + s.rd Reg.LA_RW_CFG.rw_dwell * msU } }

/-- Step 7 begins: the line due is the line after S. -/
def resumeSet (s : State) : State := setStep { s with la := { s.la with stopFrom := none } } 7

/-- Step 7: run-up to v_job. -/
def resumeRun (s : State) : State := webRun (resumeSet s) (vJob s)

/-- Every head slot of the job has passed its lines below the stop line. -/
def stopLinePassed (s : State) : Bool :=
  match s.la.stopFrom with
  | some g => (jobSlots s).all (fun k => decide (g ≤ (s.slot k).next)) && decide (g ≤ s.fire.refNext)
  | none => true

/-- No part of the job's slots awaits its disposition. -/
def slotsDone (s : State) : Bool :=
  (jobSlots s).all (fun k => (s.slot k).parts.all (fun q => decide ((s.slot k).next ≤ q.line)))

/-- REWIND_STEP_ADVANCE at a servo period or a start-of-scan (Table 4-14). -/
def rewindAdvance (s : State) : State :=
  let step := s.rd Reg.LA_STATUS.rw_step
  if s.mode ≠ modeRewind ∧ s.mode ≠ modePrint then s
  else if step = 1 && s.mode == modeRewind && stopLinePassed s then webStop (setStep s 2)
  else if step = 2 && webAtRest s then
    let x := s.fb s.webInput
    let s := { s with la := { s.la with
      backUp := webPos s - runUpStart s (refPos s s.fire.refNext), indexBefore := if x.idxTime = 0 then none else some x.idxExt } }
    dwell (setStep s 3)
  else if step = 4 && webAtRest s then dwell (setStep s 5)
  else if step = 8 && (jobSlots s).all (fun k => decide (s.la.resumeAt < (s.slot k).next)) then setStep s 0
  else s

/-- The lead check of step 6: on to the run-up, or HOLD at this position. -/
def leadCheck (s : State) : State :=
  let s := setStep s 6
  if isGreen s then resumeRun s else requestMode s modeHold causeLead

/-- REWIND_DWELL_EXPIRY: the dwell of step 3 or 5 has passed, in REWIND only (R161, R165). -/
def dwellEnd (s : State) : State :=
  let step := s.rd Reg.LA_STATUS.rw_step
  if s.clk < s.la.dwellUntil || s.mode != modeRewind then s
  else if step = 3 then backUp s
  else if step = 5 then leadCheck s
  else s

/-- COUNT_SLIP_CHECK (R163): the index captured before the stop and again during the run-up, in encoder counts modulo the revolution. LA_RW_CHECK
shows the low 16 bits of the difference (DESIGN CHOICE, log 134). -/
def indexCheck (s : State) (ext : Int) : State :=
  let step := s.rd Reg.LA_STATUS.rw_step
  match s.la.indexBefore with
  | none => s
  | some before =>
    if step ≠ 7 then s
    else
      let cpr : Int := max 1 (fbCpr s s.webInput)
      let d := (ext - before) % cpr
      let dev := if 2 * d < cpr then d else d - cpr
      let s := (s.wri Reg.LA_RW_CHECK.index_dev 0 dev)
      let s := { s with la := { s.la with indexBefore := none } }
      if 4 < dev.natAbs then
        let suspect (p : Page) : Page :=
          if s.fire.refNext ≤ p.last then { p with mark := Nat.lor p.mark (markSuspect + causeCountSlip) } else p
        let s := { s with la := { s.la with slip := true, pages := s.la.pages.map suspect } }
        (s.wr Reg.LA_RW_CHECK.count_slip 0 1).event 0x0203 (chFb s.webInput) (s.rd2 Reg.LA_RW_LINE_LO.rw_line_lo Reg.LA_RW_LINE_HI.rw_line_hi)
          (unsigned 32 dev) 0
      else s

/-! ### What each mode starts -/

/-- PRINT takes effect with a job open (R154, R164, R172): from line 0, or at the line after the last stop, which it resumes with steps 7
and 8 from the web's position. -/
def startPrint (s : State) : State :=
  let s := { s with la := { s.la with stopStage := 0, stopCloses := false }, mot := { s.mot with capping := 0 } }
  if !s.on Reg.LA_STATUS.job_open then s
  else if !s.fire.firedJob || !s.fire.w0Set then
    setOrigin (setStep { s with la := { s.la with stopFrom := none } } 0)
  else resumeSet s

/-- Held lines of the open job are counted withheld in every slot, and the job closes (R197, policy 1). -/
def withholdHeld (s : State) : State :=
  match curJob s with
  | none => s
  | some j => jobClose (withholdJob s j.idx)

/-- Bits of axis 0, and of every axis (Table 2-4). -/
def axisBit0 : Nat := 2 ^ 96
def axisBits : Nat := 2 ^ 112 - 2 ^ 96

/-- ORDERLY_STOP advances (R197, R280) from axis 0's boundary on: the last lines fire, unless the web stands, axis 0 stops, the heads are
capped once every axis has taken up the mode, and IDLE is requested. -/
def stopAdvance (s : State) : State :=
  if s.mode ≠ modeStop || unitMode s axisBit0 ≠ modeStop then s
  else
    let still := webAtRest s && decide (webSpeed s < (s.rd Reg.FS_VMIN.v_min * 1000 : Nat))
    let s := if s.la.stopStage == 1 && (stopLinePassed s || !s.on Reg.LA_STATUS.job_open || still) then
        webStop { s with la := { s.la with stopStage := 2 } } else s
    let s := if s.la.stopStage == 2 && webAtRest s && slotsDone s && unitMode s axisBits == modeStop then
        let s := if s.la.stopCloses then withholdHeld s else s
        capStart { s with la := { s.la with stopStage := 3 } } else s
    let s := if s.la.stopStage == 3 then capAdvance s else s
    if s.la.stopStage == 3 && s.mot.capping == 3 then requestMode s modeIdle causeCapped else s

/-- Axis 0's part of a change of mode from `old` to `new`, at its own boundary (R59, R67, R154): it runs up to v_job, goes on to the last line of
a stop, or, back from PRINT by a rollback or in HOLD, stops. -/
def webTake (s : State) (old new : Nat) : State :=
  if new = modePrint ∨ new = modeThrottle then
    if old = modeRewind ∨ old = modeThrottle ∨ old = modePrint ∨ !s.on Reg.LA_STATUS.job_open then s else webRun s (vJob s)
  else if new = modeRewind then if old = modeHold then webRun s (vJob s) else s
  else if new = modeStop then stopAdvance (if isPrinting old then webRun s (webCommand s) else s)
  else if new = modeHold then if old = modeRewind then webStop s else s
  else if isPrinting old && new ≠ modeShadow then webStop s
  else s

/-- What a mode starts when it takes effect, `old` the mode before, but for the units that take it up at boundaries of their own. -/
def enterMode (s : State) (old new : Nat) : State :=
  if new = modePrint then
    if old = modeRewind then setStep { s with la := { s.la with stopFrom := none } } 8
    else if old = modeThrottle then s
    else startPrint s
  else if new = modeService ∨ new = modeCalibrate then
    if s.on Reg.LA_STATUS.job_open && !s.fire.firedJob then setOrigin { s with la := { s.la with stopFrom := none } } else s
  else if new = modeRewind then
    if old = modeHold then resumeSet s
    else s.count Reg.LA_RW_COUNT.rewinds
  else if new = modeHold then
    let s := { s with la := { s.la with holdAt := s.clk } }
    s.count Reg.LA_RW_COUNT.holds
  else if new = modeStop then
    setStep { s with la := { s.la with stopStage := 1 }, mot := { s.mot with capping := 0 } } 0
  else if new = modeIdle then
    let s := if old = modeStop then slots80.foldl usageFlush s else s
    let s := { s with la := { s.la with stopStage := 0 }, mot := { s.mot with capping := 0 } }
    setStep s 0
  else s

/-- What units take up of a change of mode from `old` to `m` at their own boundaries (R59): axes 1 to 15 come to standstill under ORDERLY_STOP,
slots end their keep-open pulses under IDLE (Table 2-1), and axis 0 has its part. `fresh` holds their bits of Table 2-4. -/
def unitsTake (s : State) (old m fresh : Nat) : State :=
  let s := if m = modeStop then axes16.foldl (fun s n => if n ≠ 0 && bit fresh (96 + n) then axisStop s n else s) s
    else if m = modeIdle then slots80.foldl (fun s k => if bit fresh k then keepopenStop s k else s) s
    else s
  if bit fresh 96 then webTake s old m else s

/-- The mode changes: `prev_mode`, `mode`, `cause`. -/
def setMode (s : State) (m cause : Nat) : State :=
  let s := s.wr Reg.MODE_CUR.prev_mode 0 s.mode
  let s := (s.wr Reg.MODE_CUR.mode 0 m).wr Reg.MODE_CUR.cause 0 cause
  if m = modeShadow then s else s.wr Reg.MODE_CUR.shadow_of 0 0

/-- The event of a local transition (R50, Table 1-17). -/
def modeEvent (s : State) (new old cause line : Nat) : State :=
  s.event 0x0001 noChan line (new + 16 * old + 256 * cause) 0

/-- A mode takes effect at a line: the records of it, the event, and what entering it does. -/
def moveMode (s : State) (target cause line : Nat) : State :=
  let old := s.mode
  let rel := if s.on Reg.LA_STATUS.job_open then relLine s line else 0
  let s := { s with md := { s.md with lines := (line, target) :: s.md.lines } }
  let s := if target = modeShadow then s else s.twin (.mode target cause rel (s.rd2 Reg.LA_RW_LINE_LO.rw_line_lo Reg.LA_RW_LINE_HI.rw_line_hi)
    (s.rd Reg.LA_STATUS.rw_step))
  unitsTake (enterMode (modeEvent (setMode s target cause) target old cause rel) old target) old target (2 ^ 112 - 1)

/-- RELOAD takes effect at a line of a device that prints: it releases no further line, and waits 50 µs for REL_ACK (R458 step 1). -/
def reloadMode (s : State) (line : Nat) : State :=
  let old := s.mode
  let rel := if s.on Reg.LA_STATUS.job_open then relLine s line else 0
  let s := { s with
    fl := { s.fl with resetAsk := some (s.fl.resetWait.getD 2, s.clk), resetWait := none }, md := { s.md with pending := [] } }
  modeEvent (setMode s modeReload causeReset) modeReload old causeReset rel

/-- LOCAL_TRANSITION_APPLY: a transition that Table 2-2 has from the mode now current; `line` is its line of effect. -/
def applyLocal (s : State) (target cause line : Nat) : State :=
  if target = modeReload then (if s.fl.resetWait.isSome then reloadMode s line else s)
  else if localAllowed s.mode target then moveMode s target cause line else s

/-- The transitions waiting, the highest precedence first (R51). -/
def pendingOrder (s : State) : List (Nat × Nat × Option Nat) :=
  ([4, 3, 2, 1, 0].map (fun k => s.md.pending.filter (fun p => precedence p.1 == k))).flatten

/-- Every waiting transition takes effect at line `g`. -/
def applyPending (s : State) (g : Nat) : State :=
  let ps := pendingOrder s
  ps.foldl (fun s p => applyLocal s p.1 p.2.1 (p.2.2.getD g)) { s with md := { s.md with pending := [] } }

/-- Where no reference-row start-of-scan is coming, waiting transitions take effect at once (R50); a transition may request one more. -/
def settle : Nat → State → State
  | 0, s => s
  | n + 1, s => if s.md.pending.isEmpty || headsRunning s then s else settle n (applyPending s s.fire.refNext)

/-- As often as one command can chain transitions. -/
def State.settle (s : State) : State := Machine.settle 4 s

/-! ### Power states (R52 to R55) -/

/-- A change of power state begins: `power_busy` reads 1 until POWER_STATE_REACHED. -/
def powerStart (s : State) (to_ : Nat) : State :=
  let s := { s with md := { s.md with powerTo := to_ } }
  let s := if to_ ≠ 0 then (List.range 4).foldl emuStop (groupsSleep (movesStop s)) else s
  s.wr Reg.MODE_CUR.power_busy 0 1

/-- An epoch that leaves IDLE calls for P0 (R55). -/
def powerRecall (s : State) : State :=
  let s := s.wr Reg.POWER_CTRL.power_req 0 0
  if s.on Reg.MODE_CUR.power_busy then { s with md := { s.md with powerAgain := s.md.powerTo != 0 } }
  else if s.rd Reg.MODE_CUR.power ≠ 0 then powerStart s 0 else s

/-! ### Epochs (R56 to R71) -/

/-- EPOCH_ID as one word. -/
def epochId (s : State) : Nat := s.rd Reg.EPOCH_ID.seq * 16384 + s.rd Reg.EPOCH_ID.origin

/-- EPOCH_APPLIED shows the bits. -/
def showApplied (s : State) (bits_ : Nat) : State :=
  let s := { s with md := { s.md with applied := bits_ } }
  (((s.wr Reg.EPOCH_APPLIED_0.applied_0 0 bits_).wr Reg.EPOCH_APPLIED_1.applied_1 0 (bits_ / 2 ^ 32)).wr
    Reg.EPOCH_APPLIED_2.applied_2 0 (bits_ / 2 ^ 64)).wr Reg.EPOCH_APPLIED_3.applied_3 0 (bits_ / 2 ^ 96)

/-- The event of an epoch applied, failed, rolled back or abandoned (Table 1-17). -/
def epochEvent (s : State) : State :=
  s.event 0x0002 noChan (s.rd2 Reg.EPOCH_APPLY_LINE_LO.apply_line_lo Reg.EPOCH_APPLY_LINE_HI.apply_line_hi)
    (s.rd Reg.EPOCH_STATUS.state + 16 * s.rd Reg.EPOCH_STATUS.ep_target + 256 * s.rd Reg.EPOCH_STATUS.rb_cause +
     4096 * s.rd Reg.EPOCH_STATUS.late_epoch + 8192 * s.rd Reg.EPOCH_STATUS.late_rollback) (epochId s)

def epochState (s : State) : Nat := s.rd Reg.EPOCH_STATUS.state
/-- `state` of the epoch: with none outstanding, triggers 62 and 63 mark nothing (R330). -/
def setEpochState (s : State) (n : Nat) : State :=
  let s := s.wr Reg.EPOCH_STATUS.state 0 n
  if epochOutstanding s then s else (s.setTrig 62 .reset).setTrig 63 .reset

/-- Bits 0 to 79, 80 to 95, 96 to 111 and 127 (Table 2-4). -/
def headBits : Nat := 2 ^ 80 - 1
def coreBit : Nat := 2 ^ 127
def allBits : Nat := 2 ^ 112 - 1 + coreBit

/-- Bits of the pipelines and axes with no interval in progress, or out of use (R58). -/
def idleUnits (s : State) : Nat :=
  let pipes := (List.range 16).foldl (fun n p =>
    if s.inUse (chPipe p) && (Tbl.get Pipe.reset s.insp.pipes p).frames != [] then n else n + 2 ^ (80 + p)) 0
  let axes := axes16.foldl (fun n a =>
    if s.inUse (chAxis a) && s.rd Reg.DL_STATE.dl_link (s.ent (chAxis a) AxisE.port) == 2 then n else n + 2 ^ (96 + a)) 0
  let heads := slots80.foldl (fun n k => if s.inUse (chSlot k) then n else n + 2 ^ k) 0
  pipes + axes + heads

/-- The transition from the mode current now (in SHADOW, the active device's, R61) to `t` is allowed: Table 2-2, and neither R154 nor
R441 forbids it. -/
def epochFits (s : State) (t : Nat) : Bool :=
  let m := if s.mode = modeShadow then s.md.heard else s.mode
  epochAllowed m t &&
  !(t == modePrint && decide (s.rd Reg.LA_VJOB.v_job < s.rd Reg.FS_VMIN.v_min)) &&
  !((t == modePrint || t == modeService || t == modeCalibrate) && s.rd Reg.THERM_STATUS.die_state != 0)

/-- The rollback epoch is fixed, at device time `at_`; EPOCH_RB shows it, trigger 63 marks it (R330). -/
def setRollback (s : State) (cause at_ : Nat) : State :=
  let s := { s with md := { s.md with rbInstant := at_, rbReached := false, returned := 0 } }
  let s := (s.wr Reg.EPOCH_RB_NS.rb_ns 0 (nsOf at_)).wr2 Reg.EPOCH_RB_SEC_LO.rb_sec_lo Reg.EPOCH_RB_SEC_HI.rb_sec_hi 0 (secOf at_)
  let s := epochMark s 63 at_
  setEpochState (s.wr Reg.EPOCH_STATUS.rb_cause 0 cause) 4

/-- A ROLLBACK message (Table 9-7). -/
def sendRollback (s : State) (id cause at_ : Nat) : State :=
  ringSend s rtRollback (leBytes 4 id ++ leBytes 1 cause ++ leBytes 1 0 ++ leBytes 6 (secOf at_) ++ leBytes 4 (nsOf at_))

/-- The device rolls its epoch back, and tells the ring where the epoch is the system's. -/
def rollBack (s : State) (cause at_ : Nat) : State :=
  let s := setRollback s cause at_
  if s.md.system && cause != 4 then sendRollback s (epochId s) cause at_ else s

/-- The epoch is applied once all its bits are 1 (R59). -/
def epochCheck (s : State) : State :=
  if epochState s == 2 && Nat.land s.md.applied allBits == allBits then epochEvent (setEpochState s 3) else s

/-- L of the epoch is line `g` (R57, R58); of a local epoch the partner learns it by the MODE record (Table 13-2). -/
def setApplyLine (s : State) (g : Nat) : State :=
  let n := if s.on Reg.LA_STATUS.job_open then relLine s g else 0
  let s := s.wr2 Reg.EPOCH_APPLY_LINE_LO.apply_line_lo Reg.EPOCH_APPLY_LINE_HI.apply_line_hi 0 n
  let s := { s with md := { s.md with lines := (g, s.rd Reg.EPOCH_STATUS.ep_target) :: s.md.lines } }
  if s.md.system then s else s.twin (modeTwin s causeEpoch n)

/-- All units have returned from a rolled-back epoch (R67). -/
def returnCheck (s : State) : State :=
  if epochState s == 4 && s.md.rbReached && Nat.land s.md.applied s.md.returned == s.md.applied then epochEvent (setEpochState s 5)
  else s

/-- The bits of `mask` that are not in `had`. -/
def freshBits (mask had : Nat) : Nat := Nat.lor mask had - had

/-- EPOCH_UNIT_APPLY: units reach a boundary, and apply the epoch, up to the rollback epoch (R67), or return from it. -/
def unitBoundary (s : State) (mask g : Nat) : State :=
  if s.md.started && (epochState s == 2 || (epochState s == 4 && !s.md.rbReached)) then
    let fresh := freshBits mask s.md.applied
    let s := if Nat.land mask headBits == headBits && Nat.land fresh headBits != 0 then setApplyLine s g else s
    let s := showApplied s (Nat.lor s.md.applied mask)
    epochCheck (if s.mode = modeShadow then s else unitsTake s s.md.before (s.rd Reg.EPOCH_STATUS.ep_target) fresh)
  else if epochState s == 4 && s.md.rbReached then
    let fresh := Nat.land (freshBits mask s.md.returned) s.md.applied
    let s := if Nat.land mask headBits == headBits && Nat.land fresh headBits == headBits then
        { s with md := { s.md with lines := (g, s.md.before) :: s.md.lines } } else s
    let s := { s with md := { s.md with returned := Nat.lor s.md.returned mask } }
    returnCheck (if s.mode = modeShadow then s else unitsTake s (s.rd Reg.EPOCH_STATUS.ep_target) s.md.before fresh)
  else s

/-- Units outside P0 cannot apply (R55). -/
def powered (s : State) : Bool := s.rd Reg.MODE_CUR.power == 0 && !s.on Reg.MODE_CUR.power_busy

/-- The line boundary `g` of the head slots (R51): the waiting local transitions apply first, from the mode the slots still run under
(R59); an epoch that falls on the line is then checked against the mode they left, and rolled back with cause 0x3 where it no longer
fits. -/
def lineBoundary (s : State) (g : Nat) : State :=
  if epochState s == 2 && s.md.started && Nat.land s.md.applied headBits != headBits && !s.md.pending.isEmpty &&
      s.mode != modeShadow then
    let target := s.mode
    let cause := s.rd Reg.MODE_CUR.cause
    let u := applyPending (s.wr Reg.MODE_CUR.mode 0 s.md.before) g
    if u.mode = s.md.before then unitBoundary (u.wr Reg.MODE_CUR.mode 0 target) headBits g
    else
      let u := { u with md := { u.md with before := u.mode } }
      if epochFits u (u.rd Reg.EPOCH_STATUS.ep_target) then unitBoundary (setMode u target cause) headBits g
      else
        let u := showApplied u (u.md.applied - Nat.land u.md.applied coreBit)
        epochEvent (rollBack { u with md := { u.md with started := false } } 3 (u.md.epInstant + msU))
  else unitBoundary (applyPending s g) headBits g

/-- What the units do at the epoch instant or at the return to P0: the core applies, and MODE_CUR shows the target; units with no
interval in progress apply with it (R58, R59); in SHADOW the target is recorded in `shadow_of` (R62). -/
def epochApply (s : State) : State :=
  let t := s.rd Reg.EPOCH_STATUS.ep_target
  let old := s.mode
  let s := { s with md := { s.md with started := true, before := if old = modeShadow then s.rd Reg.MODE_CUR.shadow_of else old } }
  let s := if old = modeShadow then s.wr Reg.MODE_CUR.shadow_of 0 t
    else if t = modeStop then
      let g := if isPrinting old then lineAfterPage s else 0
      let s := if s.on Reg.LA_STATUS.job_open then setStopFrom s g else s
      enterMode (setMode s t causeEpoch) old t
    else enterMode (setMode s t causeEpoch) old t
  let s := unitBoundary s coreBit 0
  let s := if headsRunning s then s else unitBoundary s headBits s.fire.refNext
  unitBoundary s (idleUnits s) s.fire.refNext

/-- EPOCH_INSTANT (R61): the transition is checked again; the epoch is applied, or rolled back 1.0 ms later with cause 0x3. -/
def epochStart (s : State) : State :=
  if epochFits s (s.rd Reg.EPOCH_STATUS.ep_target) then
    let s := setEpochState s 2
    if powered s then epochApply s else s
  else epochEvent (rollBack (setEpochState s 2) 3 (s.md.epInstant + msU))

/-- An epoch is scheduled for device time `at_`: identifier, target and instant stand; trigger 62 marks it (R60, R330). -/
def epochSet (s : State) (id target at_ deadline : Nat) (system : Bool) : State :=
  let s := { s with md := { s.md with epInstant := at_, epDeadline := deadline, applied := 0, returned := 0, system, started := false, rbReached := false } }
  let s := showApplied s 0
  let s := (s.wr Reg.EPOCH_ID.seq 0 (id / 16384)).wr Reg.EPOCH_ID.origin 0 (id % 16384)
  let s := (s.wr Reg.EPOCH_STATUS.ep_target 0 target).wr Reg.EPOCH_STATUS.rb_cause 0 0
  let s := s.wr2 Reg.EPOCH_APPLY_LINE_LO.apply_line_lo Reg.EPOCH_APPLY_LINE_HI.apply_line_hi 0 0
  let s := epochMark s 62 at_
  let s := setEpochState s 1
  if s.mode = modeIdle && target != modeIdle then powerRecall s else s

/-- `epoch_timeout` in clock units. -/
def epochTimeoutU (s : State) : Nat := s.rd Reg.EPOCH_TIMEOUT.epoch_timeout * usU

/-- The instant that EPOCH_TIME gives. -/
def epochTime (s : State) : Nat :=
  devOf (s.rd2 Reg.EPOCH_TIME_SEC_LO.ep_sec_lo Reg.EPOCH_TIME_SEC_HI.ep_sec_hi) (s.rd Reg.EPOCH_TIME_NS.ep_ns)

/-- EPOCH_CMD with `go` (R60): scheduled, or ignored whole. DESIGN CHOICE (log 123): the timeout of R66 is EPOCH_TIMEOUT as it stands when
the epoch is scheduled or its message comes; a later write of that register leaves the outstanding epoch's timeout alone. -/
def epochSchedule (s : State) (target : Nat) (system : Bool) : State :=
  let at_ := epochTime s
  let m := if s.mode = modeShadow then s.md.heard else s.mode
  let lead := if system then 2 * msU else 20 * usU
  if epochOutstanding s || !isMode target || !epochAllowed m target || decide (at_ < s.devTime + lead) ||
      (system && (!s.on Reg.RING_NODE.learned || s.on Reg.RING_NODE.node_dup)) then s
  else
    let seq := (s.md.mySeq + 1) % 2 ^ 18
    let id := seq * 16384 + nodeNow s
    let s := epochSet { s with md := { s.md with mySeq := seq } } id target at_ (at_ + epochTimeoutU s) system
    if system then
      ringSend s rtEpoch (leBytes 4 id ++ leBytes 1 target ++ leBytes 1 0 ++ leBytes 6 (secOf at_) ++ leBytes 4 (nsOf at_))
    else s

/-- `cancel` (R70): the later of 1.0 ms on and the epoch instant. -/
def epochCancel (s : State) : State :=
  if !s.md.tripped && (epochState s == 1 || epochState s == 2) then rollBack s 5 (max (s.devTime + msU) s.md.epInstant) else s

/-- EPOCH_TIMEOUT (R66). -/
def epochExpire (s : State) : State :=
  if !s.md.tripped && epochState s == 2 && decide (s.md.epDeadline ≤ s.devTime) then
    epochEvent (rollBack s 1 (s.md.epDeadline + msU))
  else s

/-- ROLLBACK_EPOCH (R67): MODE_CUR returns; units that applied return at their boundaries, at once where they have none. -/
def rollbackEnd (s : State) : State :=
  let s := { s with md := { s.md with rbReached := true } }
  let core := Nat.land s.md.applied coreBit != 0
  let old := s.mode
  let back := s.md.before
  let s := if !core then s
    else if old = modeShadow then s.wr Reg.MODE_CUR.shadow_of 0 back
    else
      let s := setMode s back causeRollback
      if old = modeStop && isPrinting back && s.la.stopStage == 1 then
        { s with la := { s.la with stopFrom := none, stopStage := 0 } }
      else if isPrinting old && !inRun back then setStopFrom (enterMode s old back) s.fire.refNext
      else if old = back then s
      else if old = modeRewind && back = modeHold then setStep (setStopFrom s s.fire.refNext) 6
      else enterMode s old back
  let s := unitBoundary s coreBit 0
  let s := if headsRunning s then s else unitBoundary s headBits s.fire.refNext
  returnCheck (unitBoundary s (idleUnits s) s.fire.refNext)

/-- The rollback epoch has come. -/
def rollbackDue (s : State) : State :=
  if !s.md.tripped && epochState s == 4 && !s.md.rbReached && decide (s.md.rbInstant ≤ s.devTime) then rollbackEnd s else s

/-- The epoch instant has come. -/
def epochDue (s : State) : State :=
  if !s.md.tripped && epochState s == 1 && decide (s.md.epInstant ≤ s.devTime) then epochStart s else s

/-- An EPOCH message (R63 to R65, R338); a tripped device has no clock for it (R49): scheduled; with one outstanding, refused by a rollback of it with cause 0x2. -/
def epochReceive (s : State) (id target at_ : Nat) : State :=
  if s.md.tripped then s
  else if id = epochId s && epochState s != 0 then s
  else if epochOutstanding s then sendRollback s id 2 (at_ + msU)
  else if at_ ≤ s.devTime then
    epochDue ((epochSet s id target at_ (s.devTime + epochTimeoutU s) true).wr Reg.EPOCH_STATUS.late_epoch 0 1)
  else epochSet s id target at_ (at_ + epochTimeoutU s) true

/-- A ROLLBACK message (R67 to R69): for the epoch held, and not rolled back already. -/
def rollbackReceive (s : State) (id at_ : Nat) : State :=
  if id ≠ epochId s || !(epochState s == 1 || epochState s == 2 || epochState s == 3) then s
  else
    let s := setRollback s 4 at_
    if at_ ≤ s.devTime then rollbackDue (s.wr Reg.EPOCH_STATUS.late_rollback 0 1) else s

/-- FREEZE abandons the outstanding epoch (R71). -/
def epochAbandon (s : State) : State := if epochOutstanding s then epochEvent (setEpochState s 6) else s

/-- POWER_STATE_REACHED (R52, R55): the state in effect; a return held back by the change now starts; an epoch that waited applies. P2 is
not reached while a Bindery unit's job runs: it completes first, and the command comes again (R383, log 95). -/
def powerReached (s : State) : State :=
  if !s.on Reg.MODE_CUR.power_busy || (s.md.powerTo == 2 && s.bnd.any (fun u => u.2.job.isSome)) then s
  else
    let to_ := s.md.powerTo
    let was := s.rd Reg.MODE_CUR.power
    let s := ((cyclesTurn s).wr Reg.MODE_CUR.power_busy 0 0).wr Reg.MODE_CUR.power 0 to_
    let s := if was = 0 && to_ != 0 then pipes16.foldl portStop (lanesSleep s) else s
    let s := if was = 2 && to_ != 2 then scribesWake s else s
    if s.md.powerAgain then powerStart { s with md := { s.md with powerAgain := false } } 0
    else if to_ = 0 then
      let s := (List.range 4).foldl (fun s k => if s.entOn (chEmu k) EmuE.emuEn then emuStart s k else s) s
      let s := groupsWake (pipes16.foldl (fun s n => if s.entOn (chPort n) PortE.portEn then portStart s n false else s) (lanesWake s))
      if epochState s == 2 && !s.md.started then epochApply s else s
    else s

end Sys2Proof.Machine
end

