-- ==== Sys2Proof/Machine/Thermal.lean ====
section
/-! DEFINITION. The Thermal Monitor (R432 to R451): sensors and their neighbours, the junction temperature and the die state, head
temperature channels, and flash permission. Temperatures are in 1/16 °C. -/

namespace Sys2Proof.Machine

def State.sensor (s : State) (n : Nat) : Sensor := Tbl.get Sensor.reset s.th.sensors n

def State.setSensor (s : State) (n : Nat) (x : Sensor) : State := { s with th := { s.th with sensors := s.th.sensors.put n x } }

def sensors48 : List Nat := List.range 48

/-! ### Neighbours (R435) -/

def insertInt (x : Int) : List Int → List Int
  | [] => [x]
  | y :: ys => if x ≤ y then x :: y :: ys else y :: insertInt x ys

/-- The median: the middle value, or the mean of the middle two. -/
def median (xs : List Int) : Option Int :=
  let ys := xs.foldr insertInt []
  match ys[ys.length / 2]?, ys[(ys.length - 1) / 2]? with
  | some a, some b => some ((a + b) / 2)
  | _, _ => none

/-- The neighbours of a sensor that its fuses name. -/
def neighbours (s : State) (n : Nat) : List Nat :=
  ((List.range 5).map (fun j => s.rd Reg.THERM_SENS_NBR.nbr (5 * n + j)) ++ [s.rd Reg.THERM_SENS_NBR5.nbr_5 n]).filter (fun k => decide (k < 48))

/-- The neighbours in the state ok. -/
def okNeighbours (s : State) (n : Nat) : List Nat :=
  (neighbours s n).filter (fun k => s.rd Reg.THERM_SENS.s_state k == 0 && (s.sensor k).lastAt.isSome)

def nbrMedian (s : State) (n : Nat) : Option Int := median ((okNeighbours s n).map (fun k => s.rdi Reg.THERM_SENS.s_value k))

/-- off_s, 1/16 °C. -/
def sensOffset (s : State) (n : Nat) : Int := s.rdi Reg.THERM_SENS_RAW.s_offset n

/-- `sub_en` of a sensor: 1 unless its entry says otherwise. -/
def sensSubEn (s : State) (n : Nat) : Bool := !s.inUse (chSens n) || s.entOn (chSens n) SensE.subEn

/-! ### The die (R434, R436, R440 to R444) -/

/-- Sensors whose value counts. -/
def liveSensors (s : State) : List Nat :=
  sensors48.filter (fun n => decide (s.rd Reg.THERM_SENS.s_state n ≤ 1) && (s.sensor n).lastAt.isSome)

/-- The rows of Table 14-1. -/
def sensorRows : List (List Nat) :=
  [List.range 16, (List.range 8).map (· + 16), [24], [25], (List.range 4).map (· + 26), (List.range 4).map (· + 30), [34, 35], [36, 37],
   [38], [39], [40], [41], [42], [43], (List.range 4).map (· + 44)]

/-- `sens_degraded` (R436). -/
def sensDegraded (s : State) : Bool :=
  decide (8 < (sensors48.filter (fun n => s.rd Reg.THERM_SENS.s_state n != 0)).length) ||
  sensorRows.any (fun r => r.all (fun n => decide (2 ≤ s.rd Reg.THERM_SENS.s_state n)))

/-- Stack temperatures. -/
def stackTemp (s : State) (k : Nat) : Int := if k = 0 then s.rdi Reg.THERM_HBM_TEMP.stack0 else s.rdi Reg.THERM_HBM_TEMP.stack1

/-- The state that a temperature calls for, from state `now`, with hysteresis. -/
def thermState (now : Nat) (v warn limit hyst : Int) : Nat :=
  if limit ≤ v then 2
  else if now = 2 ∧ limit - hyst < v then 2
  else if warn ≤ v then 1
  else if 1 ≤ now ∧ warn - hyst < v then 1
  else 0

/-- Charge is forbidden or allowed again by the die (R442). -/
def setDieForbids (s : State) (b : Bool) : State :=
  slots80.foldl chargeUpdate { s with md := { s.md with dieForbids := b } }

/-- SERVICE or CALIBRATE completes its folio and enters IDLE (R441). -/
def serviceEnd (s : State) : State :=
  if s.on Reg.LA_STATUS.job_open then
    let g := lineAfterPage s
    setStopFrom { s with md := { s.md with idleAfter := some g } } g
  else requestMode s modeIdle causeDie

/-- What the warning state asks of a device with no partner to take over (R441). -/
def dieWarned (s : State) : State :=
  if s.mode = modeService ∨ s.mode = modeCalibrate then serviceEnd s else requestStop s causeDie (lineAfterPage s)

/-- Table 14-3, the warning state (R441), or R444 in a pair. -/
def dieWarning (s : State) : State :=
  if s.mode = modeShadow then s
  else if partnerReady s && s.rd Reg.PAIR_STATUS.role_now == 1 then { s with pair := { s.pair with handWait := max 1 s.pair.handWait } }
  else dieWarned s

/-- Table 14-3, the limit state (R442), or R421 and R444 in a pair. During an orderly stop the lines up to its stop line are withheld, for
charge is forbidden (Table 14-5). -/
def dieLimit (s : State) : State :=
  let s := setDieForbids s true
  if s.mode = modeShadow then s
  else
    let s := if partnerReady s && s.rd Reg.PAIR_STATUS.role_now == 1 then
        heartbeat (twinFail { s with fire := { s.fire with silent := true }, md := { s.md with coolReset := true } } 3)
      else s
    if s.mode = modeService ∨ s.mode = modeCalibrate then serviceEnd s
    else requestStop s causeDie (lineAfterPassed s)

/-- The die and stack states are evaluated; a change is posted and acts. `stack`: a stack temperature was taken last. -/
def dieUpdate (s : State) (stack : Bool) : State :=
  let live := liveSensors s
  let best := live.foldl (fun (b : Option Nat) n => match b with
    | some m => if s.rdi Reg.THERM_SENS.s_value m < s.rdi Reg.THERM_SENS.s_value n then some n else b
    | none => some n) none
  let tj := match best with | some n => s.rdi Reg.THERM_SENS.s_value n | none => s.rdi Reg.THERM_STATUS.tj
  let lowest := live.foldl (fun (b : Int) n => min b (s.rdi Reg.THERM_SENS.s_value n)) tj
  let s := (s.wri Reg.THERM_STATUS.tj 0 tj).wr Reg.THERM_STATUS.tj_sensor 0 (best.getD 0)
  let s := s.wri Reg.THERM_TJ_PEAK.tj_min 0 lowest
  let s := if s.rdi Reg.THERM_TJ_PEAK.tj_peak < tj then s.wri Reg.THERM_TJ_PEAK.tj_peak 0 tj else s
  let n (c : Nat) := (sensors48.filter (fun k => s.rd Reg.THERM_SENS.s_state k == c)).length
  let s := (s.wr Reg.THERM_SUBST.n_subst 0 (n 1)).wr Reg.THERM_SUBST.n_invalid 0 (n 2)
  let degraded := sensDegraded s
  let s := s.wrb Reg.THERM_STATUS.sens_degraded 0 degraded
  let old := s.rd Reg.THERM_STATUS.die_state
  let hyst : Int := 16 * s.rd Reg.THERM_LIMITS.t_hyst_die
  let die := thermState old tj (16 * s.rd Reg.THERM_LIMITS.tj_warn) (16 * s.rd Reg.THERM_LIMITS.tj_limit) hyst
  let hot := max (stackTemp s 0) (stackTemp s 1)
  let stk := thermState old hot (16 * s.rd Reg.THERM_HBM_LIMITS.hbm_warn) (16 * s.rd Reg.THERM_HBM_LIMITS.hbm_limit) hyst
  let new := max (max die stk) (ofBool degraded)
  if new = old then s
  else
    let s := s.wr Reg.THERM_STATUS.die_state 0 new
    let s := s.event 0x0C03 noChan 0 (new + 16 * ofBool (stack && decide (die < new ∨ die < old))) (unsigned 32 tj)
    if new = 2 then dieLimit s
    else
      let s := if new = 0 then setDieForbids s false else s
      if new = 1 ∧ old = 0 then dieWarning s else s

/-! ### Flash permission (R446) -/

def flashGood (s : State) (hi lo : Int) : Bool :=
  decide (s.rdi Reg.THERM_STATUS.tj ≤ 16 * hi) && decide (16 * lo ≤ s.rdi Reg.THERM_TJ_PEAK.tj_min) && s.th.railsBad.isEmpty

/-- `flash_ok` follows temperatures and supplies: after a refusal only by FLASH_OK_RESTORE. -/
def flashUpdate (s : State) : State :=
  let s := if s.th.refused then
      let good := if flashGood s 93 2 then some (s.th.goodAt.getD s.clk) else none
      { s with th := { s.th with goodAt := good } }
    else s
  s.wrb Reg.THERM_STATUS.flash_ok 0 (flashGood s 95 0 && !s.th.refused)

/-- FLASH_REFUSED (R446): 1 settings write, 2 repair record, 3 boot record, 4 staging write, 5 activation. -/
def flashRefuse (s : State) (who : Nat) : State :=
  let s := { s with th := { s.th with refused := true, goodAt := none } }
  flashUpdate ((s.count Reg.THERM_FLASH.flash_refused).event 0x0C05 noChan 0 who 0)

/-- The state of a sensor changes, and its change is posted. -/
def sensSet (s : State) (n st : Nat) (v : Int) : State :=
  let old := s.rd Reg.THERM_SENS.s_state n
  let s := (s.wr Reg.THERM_SENS.s_state n st).wri Reg.THERM_SENS.s_value n v
  if st = old then s else s.event 0x0C01 (chSens n) 0 st (unsigned 32 (s.rdi Reg.THERM_SENS_RAW.s_raw n))

/-- A failed sensor is substituted by its neighbours, or invalid. -/
def sensFail (s : State) (n : Nat) : State :=
  match nbrMedian s n with
  | some m =>
    if sensSubEn s n && decide (2 ≤ (okNeighbours s n).length) then sensSet s n 1 (m + sensOffset s n)
    else sensSet s n 2 (s.rdi Reg.THERM_SENS.s_value n)
  | none => sensSet s n 2 (s.rdi Reg.THERM_SENS.s_value n)

/-- A substituted sensor reads its neighbours' median with its offset, whichever of them has moved (R435). -/
def substFollow (s : State) : State :=
  sensors48.foldl (fun s n => if s.rd Reg.THERM_SENS.s_state n = 1 then sensFail s n else s) s

/-- All follow every temperature taken. -/
def thermalUpdate (s : State) (stack : Bool) : State := flashUpdate (dieUpdate (substFollow s) stack)

/-! ### Sensor conversions (R435) -/

/-- The units of a sensor that has moved more than `dtemp` since their last run are due (R267, R433). -/
def tempMoved (s : State) (n : Nat) : State :=
  let units : List (Nat × Nat) :=
    if 16 ≤ n ∧ n < 24 then (List.range 6).map (fun k => (0, 6 * (n - 16) + k))
    else if n = 24 then (List.range 4).map (fun k => (1, k))
    else if n = 34 ∨ n = 35 then (List.range 32).map (fun k => (2, 32 * (n - 34) + k))
    else if n = 41 then (List.range 16).map (fun k => (3, k))
    else []
  units.foldl (fun s u =>
    match Tbl.find s.cal.lastRun (unitKey u.1 u.2) with
    | some (_, t) => if 16 * s.rd Reg.CL_RECAL_CFG.dtemp < (s.rdi Reg.THERM_SENS.s_value n - t).natAbs then recalDue s u.1 u.2 reasonTemp else s
    | none => s) s

/-- The value rises through the entry's `ev_thr` (R449). -/
def sensEvent (s : State) (n : Nat) (old : Int) : State :=
  let thr := s.enti (chSens n) SensE.evThr
  let v := s.rdi Reg.THERM_SENS.s_value n
  if s.inUse (chSens n) && thr != -128 && decide (old < 16 * thr) && decide (16 * thr ≤ v) then
    s.event 0x0C04 (chSens n) 0 (unsigned 32 thr) (unsigned 32 v)
  else s

/-- A conversion of a sensor completes with a raw reading. -/
def sensConvert (s : State) (n : Nat) (raw : Int) : State :=
  let x := s.sensor n
  let old := s.rdi Reg.THERM_SENS.s_value n
  let med := nbrMedian s n
  let moved := x.lastAt.isNone || raw != s.rdi Reg.THERM_SENS_RAW.s_raw n
  let xdev := 16 * s.rd Reg.THERM_XCHECK.xdev
  let dev := match med with | some m => decide (xdev < (raw - m - sensOffset s n).natAbs) | none => false
  let x := { x with
    lastAt := some s.clk, stillAt := if moved then s.clk else x.stillAt, stillMed := if moved then med else x.stillMed.or med,
    deviant := if dev then x.deviant + 1 else 0 }
  let stuck := decide (x.stillAt + 10 * secU ≤ s.clk) && (match med, x.stillMed with | some m, some b => decide (32 < (m - b).natAbs) | _, _ => false)
  let outside := decide (raw < -880) || decide (2400 < raw)
  let s := s.wri Reg.THERM_SENS_RAW.s_raw n raw
  let s := s.setSensor n x
  let st := s.rd Reg.THERM_SENS.s_state n
  let s := if st = 0 then
      if outside || stuck || decide (s.rd Reg.THERM_XCHECK.xcount ≤ x.deviant) then sensFail s n else sensSet s n 0 raw
    else if st = 1 then sensFail s n
    else s
  let hot := decide (s.rd Reg.THERM_SENS.s_state n ≤ 1) && decide (1920 ≤ s.rdi Reg.THERM_SENS.s_value n)
  let s := s.setSensor n { x with hot := if hot then x.hot + 1 else 0 }
  let s := if hot && decide (2 ≤ x.hot + 1) then { s with th := { s.th with tripDue := true } } else s
  tempMoved (sensEvent s n old) n

/-- The learned offset of an ok sensor moves towards its distance from its neighbours, time constant 64 s, within ±20 °C. -/
def sensLearn (s : State) (dt n : Nat) : State :=
  match nbrMedian s n with
  | some m =>
    if s.rd Reg.THERM_SENS.s_state n = 0 then
      let x := s.sensor n
      let goal := (s.rdi Reg.THERM_SENS.s_value n - m) * 65536
      let was := if x.offset / 65536 = sensOffset s n then x.offset else 65536 * sensOffset s n
      let off := was + (goal - was) * (min dt (64 * secU) : Nat) / (64 * secU : Nat)
      let off := max (-20 * 1048576) (min off (20 * 1048576))
      (s.setSensor n { x with offset := off }).wri Reg.THERM_SENS_RAW.s_offset n (off / 65536)
    else s
  | none => s

/-- A sweep (R437): every sensor converts, then the offsets are learned. -/
def thermSweep (s : State) (raws : List Int) : State :=
  let s := sensors48.foldl (fun s n => match raws[n]? with | some r => sensConvert s n r | none => s) s
  let s := match s.th.sweepAt with
    | some t => sensors48.foldl (fun s n => sensLearn s (s.clk - t) n) s
    | none => s
  let s := { s with th := { s.th with sweepAt := some s.clk }, tu := { s.tu with sweepDue := false } }
  thermalUpdate s false

/-- A time trigger with `action` 0x02 is enabled. -/
def sweepTriggered (s : State) : Bool :=
  (List.range 62).any (fun k => s.entOn (chTrig k) TrigE.trigEn && s.ent (chTrig k) TrigE.action == 2)

/-- No trigger starts sweeps, and 100 ms, less the 1 ms of tolerance, have passed since the last (R437). -/
def sweepAlone (s : State) : Bool :=
  !sweepTriggered s && (match s.th.sweepAt with | some t => decide (t + 99 * msU ≤ s.clk) | none => true)

/-- THERM_CMD restore (R435): the raw reading lies within `xdev` of median + off_s. -/
def sensRestore (s : State) (n : Nat) : State :=
  if n < 48 && s.rd Reg.THERM_SENS.s_state n != 0 then
    match nbrMedian s n with
    | some m =>
      let raw := s.rdi Reg.THERM_SENS_RAW.s_raw n
      if (raw - m - sensOffset s n).natAbs ≤ 16 * s.rd Reg.THERM_XCHECK.xdev then
        thermalUpdate (sensSet (s.setSensor n { s.sensor n with deviant := 0, hot := 0, stillAt := s.clk, stillMed := some m }) n 0 raw) false
      else s
    | none => s
  else s

/-! ### Head temperature channels (R438, R439, R450) -/

def State.head (s : State) (k : Nat) : HeadTemp := Tbl.get HeadTemp.reset s.th.heads k

def State.setHead (s : State) (k : Nat) (x : HeadTemp) : State := { s with th := { s.th with heads := s.th.heads.put k x } }

/-- A field of a head temperature channel's entry, its factory value where none is in use. -/
def headEnt (s : State) (c : Nat) (f : EF) (factory : Int) : Int := if s.inUse (chHead c) then s.enti (chHead c) f else factory

def headEn (s : State) (c : Nat) : Bool := !s.inUse (chHead c) || s.entOn (chHead c) HeadE.hchEn

/-- A channel was accepted within the last 1.0 ms. -/
def accepted (s : State) (c : Option (Int × Nat)) : Bool := match c with | some (_, t) => decide (s.clk < t + msU) | none => false

/-- d is valid: `learn_s` has passed since the channels were last restored or enabled. -/
def dValid (s : State) (k : Nat) : Bool :=
  decide ((s.head k).learnAt + (headEnt s (2 * k) HeadE.learnS 60).toNat * secU ≤ s.clk) && (s.head k).dAt.isSome

/-- The learning of d starts again. -/
def headRelearn (s : State) (k : Nat) : State := s.setHead k { s.head k with learnAt := s.clk, dAt := none, d := 0, disagree := 0 }

/-- Table 14-2: `h_state`, the value passed to the fire path, and the instant it was accepted. -/
def headPass (s : State) (k : Nat) : Nat × Option (Int × Nat) :=
  let x := s.head k
  let d := x.d / 65536
  let subEn := !s.inUse (chHead (2 * k + 1)) || s.entOn (chHead (2 * k + 1)) HeadE.subEn
  match x.plate, x.driver with
  | some (p, tp), drv =>
    if accepted s x.plate then
      match drv with
      | some (v, tv) =>
        if decide (10 ≤ x.disagree) && dValid s k && accepted s drv then
          let mid := 8 * (s.enti (chSlot k) SlotE.fireTmin + s.enti (chSlot k) SlotE.fireTmax)
          (2, some (if (p - mid).natAbs < (v + d - mid).natAbs then (v + d, tv) else (p, tp)))
        else (0, some (p, tp))
      | none => (0, some (p, tp))
    else match drv with
      | some (v, tv) => if accepted s drv && dValid s k && subEn then (1, some (v + d, tv)) else (3, none)
      | none => (3, none)
  | none, some (v, tv) => if accepted s x.driver && dValid s k && subEn then (1, some (v + d, tv)) else (3, none)
  | none, none => (3, none)

/-- HEAD_CHANNEL_STATE_CHANGE and the value passed on (R439). -/
def headEval (s : State) (k : Nat) : State :=
  let old := s.rd Reg.THERM_HEAD_STATE.h_state k
  let (st, v) := headPass s k
  let s := (s.wr Reg.THERM_HEAD_STATE.h_state k st).wrb Reg.THERM_HEAD_STATE.d_valid k (dValid s k)
  let s := if st != old && st != 0 then s.event 0x0C02 (chHead (2 * k)) 0 st 0 else s
  match v with
  | some (v, since) => tempPass s k v since
  | none => tempEval s k

/-- An accepted report: its value is kept, disagreements are counted, d learns. -/
def headTake (s : State) (k : Nat) (driver : Bool) (v : Int) : State :=
  let x := s.head k
  let back := !(accepted s (if driver then x.driver else x.plate))
  let x := if driver then { x with driver := some (v, s.clk) } else { x with plate := some (v, s.clk) }
  let x := if back then { x with learnAt := s.clk, disagree := 0 } else x
  let s := if driver then s.wri Reg.THERM_HEAD.drv_value k v else s.wri Reg.THERM_HEAD.np_value k v
  let s := s.setHead k x
  match x.plate, x.driver with
  | some (p, _), some (w, _) =>
    if accepted s x.plate && accepted s x.driver then
      let off := (dValid s k) && decide (16 * headEnt s (2 * k) HeadE.xcheck 5 < ((p - w) - x.d / 65536).natAbs)
      let x := if driver then x else { x with disagree := if off then x.disagree + 1 else 0 }
      let tau := (headEnt s (2 * k) HeadE.learnS 60).toNat * secU
      let d := match x.dAt with
        | some t => x.d + ((p - w) * 65536 - x.d) * (min (s.clk - t) tau : Nat) / (max 1 tau : Nat)
        | none => (p - w) * 65536
      let x := if s.rd Reg.FS_SLOT_STATE.temp_state k ≤ 1 then { x with d, dAt := some s.clk } else x
      (s.setHead k x).wri Reg.THERM_HEAD_STATE.d_offset k (x.d / 65536)
    else s
  | _, _ => s

/-- A TEMP report, fields as Table 5-7 (R438). -/
def headReport (s : State) (k fields : Nat) : State :=
  let driver := bit fields 46
  let c := 2 * k + ofBool driver
  let v := signed 16 (bits fields 29 16) + headEnt s c HeadE.trim 0
  let last := if driver then (s.head k).driver else (s.head k).plate
  let smooth := match last with
    | some (w, t) => decide ((v - w).natAbs * secU ≤ (16 * headEnt s c HeadE.rateMax 20).toNat * (s.clk - t))
    | none => true
  if bit fields 45 && headEn s c && smooth then headEval (headTake s k driver v) k else headEval s k

/-! ### Commands -/

def execTempSet (t lane word : Nat) (s : State) : Host.Outcome State Fault Refusal :=
  .next (onSet (s.at t) lane 0xB7 word headReport).settle

/-- TEMP_TIMEOUT (R195, R439). -/
def execTempTimeout (t slot : Nat) (s : State) : Host.Outcome State Fault Refusal :=
  let s := s.at t
  .next (if slot < 80 then headEval s slot else s).settle

/-- TLIM_LOCK (R445). -/
def execTlimLock (t : Nat) (s : State) : Host.Outcome State Fault Refusal :=
  let s := s.at t
  .next (if hostOpen s then s.wr Reg.THERM_LIMITS.tlim_lock 0 1 else s)

end Sys2Proof.Machine
end

