-- ==== Sys2Proof/Machine/Memory.lean ====
section
/-! DEFINITION. The Stacks and the Reading Room (R341 to R367, R528): address mapping, ports, errors, repair, retraining, FREEZE, and the
rotation of Reading Room banks. -/

namespace Sys2Proof.Machine

/-! ### Address mapping (Table 10-1) -/

def pcOf (a : Nat) : Nat := Nat.xor (bits a 8 6) (bits a 20 6)
def sidOf (a : Nat) : Nat := bits a 34 2
def rowOf (a : Nat) : Nat := bits a 20 14
def bankOf (a : Nat) : Nat := Nat.xor (bits a 18 2) (bits a 20 2) * 4 + Nat.xor (bits a 16 2) (bits a 22 2)
/-- 16 × SID + bank. -/
def bankIn (a : Nat) : Nat := sidOf a * 16 + bankOf a
def burstOf (a : Nat) : Nat := bits a 14 2 * 8 + bits a 5 3

/-- `snap_loc` (Table 10-7). -/
def locOf (a : Nat) : Nat := pcOf a + 2 ^ 6 * sidOf a + 2 ^ 8 * bankOf a + 2 ^ 12 * rowOf a + 2 ^ 26 * burstOf a

/-- The row of an address: its location with burst 0; and its bank. -/
def rowKey (a : Nat) : Nat := locOf a % 2 ^ 26
def bankKey (a : Nat) : Nat := locOf a % 2 ^ 12

/-! ### Ports, credit and urgency (R346 to R349) -/

def portPriority (p : Nat) : Nat := ([7, 6, 5, 4, 3, 3, 2, 1, 0] : List Nat).getD p 0

def bucketMax : Nat := 4096 * 65536

/-- The credit of a port now: 1 GB/s is one byte in a nanosecond, so `rate_gbs` units of 2⁻¹⁶ byte in a clock unit. -/
def creditNow (s : State) (p : Nat) : Nat :=
  match Tbl.find s.st.credit p with
  | some (c, t) => min bucketMax (c + (s.clk - t) * s.rd Reg.MEM_PORT_CFG.rate_gbs p)
  | none => bucketMax

/-- A request arrives, reserved where the bucket holds credit for it (R347). -/
def memArrive (s : State) (p source addr len : Nat) (data : Option (List Byte)) : State :=
  let c := creditNow s p
  let res := decide (len * 65536 ≤ c)
  let st := { s.st with
    credit := s.st.credit.put p (if res then c - len * 65536 else c, s.clk),
    queue := s.st.queue ++ [{ port := p, source, addr, len, data, arrived := s.clk, reserved := res }] }
  { s with st := st }

/-- The target that a request's age counts against. -/
def memTarget (s : State) (r : MemReq) : Nat := s.rd Reg.MEM_PORT_CFG.target_ns r.port * (if r.reserved then 1 else 4)

def memUrgency (s : State) (r : MemReq) : Nat := urgencyOf (s.clk - r.arrived) (memTarget s r)

/-- A request goes ahead of another: urgency, port priority, age (R348). -/
def memAhead (s : State) (a b : MemReq) : Bool :=
  if memUrgency s a ≠ memUrgency s b then decide (memUrgency s b < memUrgency s a)
  else if portPriority a.port ≠ portPriority b.port then decide (portPriority b.port < portPriority a.port)
  else decide (a.arrived < b.arrived)

/-- The request a pseudo-channel serves next. -/
def memNext (s : State) (pc : Nat) : Option MemReq :=
  (s.st.queue.filter (fun r => pcOf r.addr == pc)).foldl (fun b r => match b with
    | some q => if memAhead s r q then some r else b
    | none => some r) none

/-- MEM_PORT_STAT `urgency`: of each port's oldest request. -/
def showUrgency (s : State) : State :=
  (List.range 9).foldl (fun s p => s.wr Reg.MEM_PORT_STAT.urgency p
    (match s.st.queue.find? (fun r => r.port == p) with | some r => memUrgency s r | none => 0)) s

/-! ### Rows: close-page policy and neighbour refresh (R344, R352) -/

/-- Where `openRow` and `postponed` keep a bank. -/
def bankAt (a : Nat) : Nat := pcOf a * 64 + bankIn a

/-- The rows a neighbour refresh of row `r` of a stack covers. -/
def rowsBeside (s : State) (stack r : Nat) : List Nat :=
  (if s.on Reg.MEM_NRR.nrr_dist then [1, 2] else [1]).flatMap (fun d =>
    [false, true].filterMap (fun up => Config.rowBeside stack r up d))

/-- Neighbour refreshes due on a pseudo-channel go out, at a slot that delays no request at urgency 3. -/
def nrrIssue (s : State) (pc : Nat) : State :=
  if s.st.queue.any (fun r => pcOf r.addr == pc && memUrgency s r == 3) then s
  else
    let mine := s.st.nrrDue.filter (fun x => x.1 == pc)
    let s := { s with st := { s.st with nrrDue := s.st.nrrDue.filter (fun x => x.1 != pc) } }
    mine.foldl (fun s x => s.emit (.hbm pc (.neighbour x.2.1 x.2.2))) s

/-- The spare row of its bank that a repaired row is directed to: the oldest repair of a bank took the first. -/
def spareIn (k : Nat) : List Nat → Option Nat
  | [] => none
  | r :: rs => if r = k then some (rs.filter (fun q => q % 2 ^ 12 == k % 2 ^ 12)).length else spareIn k rs

/-- The row that an access of an address goes to: its own, or past the 2¹⁴ of the address map the spare row that replaces it (R355). -/
def rowNow (s : State) (a : Nat) : Nat := match spareIn (rowKey a) s.st.repaired with | some n => 2 ^ 14 + n | none => rowOf a

/-- A row is activated, the one open in its bank closed first: the entropy source decides, once in 2^−`nrr_log2`, that its neighbours are to
be refreshed. -/
def rowActivate (s : State) (a : Nat) : State :=
  let s := if (Tbl.find s.st.openRow (bankAt a)).isSome then s.emit (.hbm (pcOf a) (.precharge (bankIn a))) else s
  let s := s.emit (.hbm (pcOf a) (.activate (bankIn a) (rowNow s a)))
  let pick := s.freeVal 160 % 2 ^ (8 + s.rd Reg.MEM_NRR.nrr_log2) == 0
  let rows := (rowsBeside s (pcOf a / 32) (rowNow s a)).map (fun r => (pcOf a, bankIn a, r))
  let s := s.spend
  if pick then { s with st := { s.st with nrrDue := s.st.nrrDue ++ rows } } else s

/-- A burst of a row is read or written: with auto-precharge, unless a later access to the same row is queued (R344), of another request or,
with `more`, of this one. -/
def rowAccess (s : State) (a : Nat) (write more : Bool) : State :=
  let row := rowNow s a
  let s := if Tbl.find s.st.openRow (bankAt a) = some row then s else rowActivate s a
  let stay := more || s.st.queue.any (fun r => bankAt r.addr == bankAt a && rowNow s r.addr == row)
  let s := { s with st := { s.st with openRow := if stay then s.st.openRow.put (bankAt a) row else Tbl.del s.st.openRow (bankAt a) } }
  nrrIssue (s.emit (.hbm (pcOf a) (.access (bankIn a) row (burstOf a) write (!stay)))) (pcOf a)

/-- A request of urgency 3 waits for the bank of an address: no other request opens a row there (R348). -/
def bankHeld (s : State) (a : Nat) : Bool := s.st.queue.any (fun r => bankAt r.addr == bankAt a && memUrgency s r == 3)

/-- The bursts that `n` bytes from `a` on lie in. -/
def burstsOf (a n : Nat) : List Nat := (List.range ((a % 32 + n + 31) / 32)).map (fun j => a / 32 * 32 + 32 * j)

/-! ### FREEZE (R359 to R361, R528) -/

/-- The snapshot (Table 10-7, R528): what the manual gives, the device's own bits of it free. `named`: the command named a burst or a row;
where it did not, the bank alone is shown, and a command of the controller's own. The data of a write are those the Stacks were sent. -/
def snapshot (s : State) (cause port source addr : Nat) (named : Bool) : List Byte :=
  let temp := stackTemp s (pcOf addr / 32)
  let oldest (p : Nat) : Nat := match s.st.queue.find? (fun r => r.port == p) with | some r => (s.clk - r.arrived) / nsU | none => 0
  let port := if named then port else 0xFF
  let units := port == 0 || port == 2 || port == 4 || port == 7
  stamp s.devTime ++ leBytes 1 cause ++ leBytes 1 port ++ leBytes 1 (if units then source else 0xFF) ++ leBytes 1 0 ++
  leBytes 8 (if named then addr / 32 * 32 else 2 ^ 64 - 1) ++ leBytes 4 (if named then locOf addr else locOf addr % 2 ^ 12) ++
  (if cause ≤ 2 then s.freeBytes 20 4 else leBytes 4 0) ++
  (if cause ≤ 2 then s.freeBytes 21 36 else if cause = 4 then s.peekBytes (addr / 32 * 32) 32 ++ s.freeBytes 21 4 else leBytes 36 0) ++
  (if cause = 3 ∨ cause = 5 then leBytes 1 0 else s.freeBytes 22 1) ++ leBytes 3 0 ++
  s.freeBytes 23 64 ++
  (List.range 9).map (fun p => BitVec.ofNat 8 (s.st.queue.filter (fun r => r.port == p)).length) ++ leBytes 3 0 ++
  ((List.range 9).map (fun p => leBytes 4 (oldest p))).flatten ++ leBytes 2 (unsigned 16 temp) ++ leBytes 70 0

/-- Axes stop from the profile state held on the die, drives enabled (R280, Table 2-1). -/
def freezeAxes (s : State) : State := axes16.foldl (fun s n => axisStop s n) s

/-- The Bindery units stop at once and complete nothing (R383). -/
def freezeBindery (s : State) : State :=
  { s.wr Reg.BND_STATUS.busy 0 0 with bnd := s.bnd.map (fun u => (u.1, { u.2 with job := none })) }

/-- The Calibration Unit's buffers are discarded. -/
def cuDiscard (s : State) : State :=
  let a := cuBase s
  let keep (c : Host.Cell) : Bool := !(decide (a ≤ c.1) && decide (c.1 < a + 0xC04000))
  { s with mem := s.mem.filter keep, insp := { s.insp with cuNew := 0, cuFrames := 0 } }

/-- The calibration loops and recalibration stop; staged shifts and the Calibration Unit's buffers are discarded (Table 7-6). -/
def loopsFreeze (s : State) : State :=
  let s := ((List.range 16).foldl (fun s p => s.wr Reg.CL_XSHIFT.xs_staged p 0) s).wr Reg.CL_RECAL_STATUS.busy 0 0
  cuDiscard { s with cal := { s.cal with running := [] } }

/-- FREEZE_ENTRY (R359): `cause` 1 port read, 2 scrub read, 3 command or address parity, 4 write data parity, 5 read timeout. -/
def freezeEnter (s : State) (cause port source addr : Nat) (named : Bool) : State :=
  if s.frozen || s.mode == modeCold then s
  else
    let waiting := s.st.queue.filter (fun r => r.data.isNone)
    let s := { s with st := { s.st with snap := snapshot s cause port source addr named, queue := [] } }
    let s := waiting.foldl (fun s r => s.emit (.memRead r.port (List.replicate r.len 0))) s
    let s := (s.spend.wr Reg.MEM_STATUS.frozen 0 1).wr Reg.MEM_STATUS.snap_valid 0 1
    let view := s.ledView
    let s := { s with led := { s.led with final := some (view, s.snapLine) } }
    let s := ledCheck s view s.snapLine
    let s := epochAbandon s
    let old := s.mode
    let pairOut := old != modeShadow && partnerReady s && s.rd Reg.PAIR_STATUS.role_now == 1
    let lines := if modeBars old then s.md.lines else (s.fire.refNext, modeFreeze) :: s.md.lines
    let s := setStep { s with md := { s.md with pending := [], lines } } 0
    let s := setMode s modeFreeze causeHbm
    let s := { s with fire := { s.fire with freezeAt := some s.clk, silent := s.fire.silent || pairOut } }
    let s := if pairOut then heartbeat (twinFail s 1) else s
    let s := gpInt (movesStop (freezeBindery (freezeAxes (loopsFreeze s)))) Reg.GP_INT_STAT.dma_error
    let s := { s with fl := { s.fl with resetWait := none }, tu := { s.tu with burstDue := [] } }
    if decide (hostBit ≤ s.ent (chRing 0) RingE.base) then
      (modeEvent s modeFreeze old causeHbm (nextDue s)).event 0x0803 noChan 0 cause port
    else s

/-- FREEZE_WITHHOLD_EXPIRY (R46): 50 ms after entry every remaining line is withheld. -/
def freezeWithhold (s : State) : State :=
  if freezeOver s then
    slots80.foldl (fun s k => (s.slot k).parts.foldl (fun s q =>
      if q.released.isNone && !q.fault then
        let s := moveLine s q.jobIdx k Led.linesWithheld
        setFate (dropPart (moveDrops s q.jobIdx q.plane q.drops Led.dropsWithheld) k q.line) k q.line fateWithheld
      else s) s) s
  else s

/-! ### Errors, scrub and repair (R353 to R355) -/

/-- A corrected error of a row: counted, and the row due for repair at `rep_thr`. -/
def eccCorrected (s : State) (addr : Nat) : State :=
  let k := rowKey addr
  let n := Tbl.get 0 s.st.rowErrs k + 1
  let due := decide (s.rd Reg.MEM_REPAIR.rep_thr ≤ n) && !s.st.repaired.contains k && !s.st.repairDue.contains k
  let s := s.count Reg.MEM_ECC.ecc_corr
  { s with st := { s.st with rowErrs := s.st.rowErrs.put k n, repairDue := if due then s.st.repairDue ++ [k] else s.st.repairDue } }

/-! Redundant lanes (R356). -/

/-- A redundant lane of the kind of lane `k` is left on its pseudo-channel: two for data, one for command and address. -/
def laneRoom (s : State) (k : Nat) : Bool :=
  let ca (x : Nat) : Bool := decide (64 ≤ x % 128)
  decide ((s.st.laneMap.filter (fun x => x / 128 == k / 128 && ca x == ca k)).length < (if ca k then 1 else 2))

/-- Lanes known to fail are remapped where a redundant lane is left, and recorded. -/
def lanesFix (s : State) : State :=
  s.st.laneBad.foldl (fun s k =>
    if laneRoom s k then
      let s := { s with st := { s.st with laneMap := s.st.laneMap ++ [k], laneBad := s.st.laneBad.filter (· != k) } }
      repairAdd (s.wr Reg.MEM_REPAIR.lanes_remapped 0 (sat 8 s.st.laneMap.length)) repStackLane k
    else s) s

/-- A lane is known to fail. -/
def laneFail (s : State) (k : Nat) : State :=
  if s.st.laneBad.contains k then s else { s with st := { s.st with laneBad := s.st.laneBad ++ [k] } }

/-- A symbol corrected: eight beats of one data or check lane. The lane is the common cause once a second burst needs it (R356). -/
def laneSeen (s : State) (addr symbol : Nat) : State :=
  let k := pcOf addr * 128 + symbol % 36
  if s.st.laneBad.contains k then s
  else match Tbl.find s.st.laneErrs k with
    | none => { s with st := { s.st with laneErrs := s.st.laneErrs.put k (addr / 32) } }
    | some b =>
      if b = addr / 32 then s
      else laneFail { s with st := { s.st with laneErrs := Tbl.del s.st.laneErrs k } } k

/-- What a read of a burst found (Table 10-5), in `ecc` [1:0]: 0 nothing, 1 corrected in the die, 2 one symbol corrected, the one in the bits
above, 3 uncorrectable. A failing lane is remapped at once in IDLE with no job open (R356). -/
def eccFound (s : State) (ecc port source addr : Nat) : State :=
  let s := if ecc % 4 = 1 then s.count Reg.MEM_ECC.ecc_die
    else if ecc % 4 = 2 then laneSeen (eccCorrected s addr) addr (ecc / 4)
    else if ecc % 4 = 3 then freezeEnter s (if port = 8 then 2 else 1) port source addr true
    else s
  if s.mode == modeIdle && !s.on Reg.LA_STATUS.job_open then lanesFix s else s

/-- Burst `j` of a request: read, or written, and where it is written in part first read (R343). `ecc` / 256^j tells what a read found. -/
def memBurst (r : MemReq) (ecc : Nat) (s : State) (b : Nat × Nat) : State :=
  let n := match r.data with | some d => d.length | none => r.len
  let last := decide (r.addr + n ≤ b.1 + 32)
  let part := decide (b.1 < r.addr) || decide (r.addr + n < b.1 + 32)
  let found := ecc / 256 ^ b.2 % 256
  if s.frozen then s
  else if r.data.isNone then eccFound (rowAccess s b.1 false (!last)) found r.port r.source b.1
  else if part then
    let s := eccFound (rowAccess s b.1 false true) found r.port r.source b.1
    if s.frozen then s else rowAccess s b.1 true (!last)
  else rowAccess s b.1 true (!last)

/-- A read or write of a port is served, unless the HBM3 refreshes itself: the write is done, or the data leaves. An uncorrectable error in it
freezes the Stacks: the write is discarded, the read completed with zeros. -/
def memServe (s : State) (pc ecc : Nat) : State :=
  match if s.rd Reg.MODE_CUR.power = 2 then none else memNext s pc with
  | none => s
  | some r =>
    let late := r.reserved && decide (r.arrived + memTarget s r * nsU < s.clk)
    let s := if late then s.count Reg.MEM_PORT_STAT.late r.port else s
    let s := { s with st := { s.st with queue := s.st.queue.erase r } }
    let s := (burstsOf r.addr (match r.data with | some d => d.length | none => r.len)).zipIdx.foldl (memBurst r ecc) s
    let s := match r.data with
      | some d => s.pokeBytes r.addr d
      | none => s.emit (.memRead r.port (s.peekBytes r.addr r.len))
    showUrgency s

/-- Bursts of the Stacks. -/
def scrubBursts : Nat := stacksSize / 32

/-- SCRUB_READ (R354): not in P2, nor once commands have stopped, nor in a bank that a request of urgency 3 waits for. In RELOAD, before the Stacks are trained, it is a read of their training
on the pseudo-channel that has come to: the lane that needs correction fails training (R356), symbol 36 standing for its command-address lane. -/
def scrubRead (s : State) (ecc : Nat) : State :=
  if s.frozen || s.rd Reg.MODE_CUR.power == 2 then s
  else if s.mode == modeReload && !s.on Reg.MEM_STATUS.trained then
    let pc := pcOf (s.st.trainPos * 32)
    let s := if ecc % 4 = 2 then laneFail s (pc * 128 + (if ecc / 4 < 36 then ecc / 4 else 64)) else s
    { s with st := { s.st with trainPos := (s.st.trainPos + 1) % scrubBursts } }
  else if bankHeld s (s.st.scrubPos * 32) then s
  else
    let a := s.st.scrubPos * 32
    let s := eccFound (rowAccess s a false false) ecc 8 255 a
    let next := s.st.scrubPos + 1
    if scrubBursts ≤ next then
      { s.count Reg.MEM_SCRUB.scrub_pass with st := { s.st with scrubPos := 0, scrubDone := some s.clk } }
    else { s with st := { s.st with scrubPos := next } }

/-- The 32 bursts of a row, by its location with burst 0 (Table 10-1). -/
def rowBursts (k : Nat) : List Nat :=
  let row := bits k 12 14
  let bank := bits k 8 4
  let base := bits k 6 2 * 2 ^ 34 + row * 2 ^ 20 + Nat.xor (bank / 4) (bits row 0 2) * 2 ^ 18 + Nat.xor (bank % 4) (bits row 2 2) * 2 ^ 16 +
    Nat.xor (bits k 0 6) (bits row 0 6) * 2 ^ 8
  (List.range 32).map (fun j => base + j / 8 * 2 ^ 14 + j % 8 * 32)

/-- A row is copied to the spare row that takes its place, each burst read through port 8 and written corrected. DESIGN CHOICE (log 137): an
error that a read of the copy meets comes by the command that reports it. -/
def rowCopy (s : State) (k spare : Nat) : State :=
  (rowBursts k).foldl (fun s a =>
    let s := rowAccess s a false false
    let s := s.emit (.hbm (pcOf a) (.activate (bankIn a) (2 ^ 14 + spare)))
    s.emit (.hbm (pcOf a) (.access (bankIn a) (2 ^ 14 + spare) (burstOf a) true true))) s

/-- ROW_REPAIR (R355): the row first due, while its bank has a spare row and the controller issues commands. -/
def rowRepair (s : State) : State :=
  match if s.frozen || s.rd Reg.MODE_CUR.power == 2 then [] else s.st.repairDue with
  | [] => s
  | k :: ks =>
    let s := { s with st := { s.st with repairDue := ks } }
    let bank := k % 2 ^ 12
    let used := Tbl.get 0 s.st.spares bank
    if 32 ≤ used then s
    else
      let s := rowCopy s k used
      let s := { s with st := { s.st with spares := s.st.spares.put bank (used + 1), repaired := k :: s.st.repaired } }
      let s := (s.wr Reg.MEM_REPAIR.rows_repaired 0 (s.rd Reg.MEM_REPAIR.rows_repaired + 1))
      let s := if used + 1 = 32 then s.wr Reg.MEM_STATUS.rep_full 0 1 else s
      repairAdd (s.event 0x0801 noChan 0 k (s.rd Reg.MEM_STATUS.rep_full)) repRow k

/-- REPAIR_RECORD_WRITE (R355, R446): refused while flash writes are, and then tried again. -/
def repairWrite (s : State) : State :=
  if s.fl.repair.all (fun r => r.2.2) then s
  else if s.on Reg.THERM_STATUS.flash_ok then
    { s with fl := { s.fl with repair := s.fl.repair.map (fun r => (r.1, r.2.1, true)) } }
  else flashRefuse s 2

/-! ### Refresh and temperature (R351) -/

/-- BANK_REFRESH, but in P2, where the HBM3 refreshes itself: postponed while requests for the bank wait, at most 8 times; those postponed follow once the bank is idle. -/
def bankRefresh (s : State) (pc bank : Nat) : State :=
  let k := pc * 64 + bank
  let busy := s.st.queue.any (fun r => bankAt r.addr == k)
  let n := Tbl.get 0 s.st.postponed k
  if s.frozen || s.rd Reg.MODE_CUR.power == 2 then s
  else if busy && decide (n < 8) then { s with st := { s.st with postponed := s.st.postponed.put k (n + 1) } }
  else
    let issue := if busy then 1 else n + 1
    let s := if (Tbl.find s.st.openRow k).isSome then s.emit (.hbm pc (.precharge bank)) else s
    let s := { s with st := { s.st with
      postponed := if busy then s.st.postponed else Tbl.del s.st.postponed k, openRow := Tbl.del s.st.openRow k } }
    nrrIssue ((List.range issue).foldl (fun s _ => s.emit (.hbm pc (.refresh bank))) s) pc

/-- STACK_TEMP_READ: the refresh rate follows the hotter stack. -/
def stackTempRead (s : State) (stack : Nat) (v : Int) : State :=
  let s := if stack = 0 then s.wri Reg.THERM_HBM_TEMP.stack0 0 v else s.wri Reg.THERM_HBM_TEMP.stack1 0 v
  let hot := max (stackTemp s 0) (stackTemp s 1)
  let s := s.wr Reg.MEM_STATUS.hot 0 (if 95 * 16 < hot then 2 else if 85 * 16 < hot then 1 else 0)
  thermalUpdate s true

/-! ### Retraining (R358) -/

/-- A window of the run's 128 may start on the pseudo-channel. -/
def windowOk (s : State) (pc : Nat) : Bool :=
  !s.frozen && Tbl.find s.cal.running 2 == some pc && decide (s.st.windows < 128) &&
  (match s.st.windowAt with | some t => decide (t + 10 * usU ≤ s.clk) | none => true) &&
  !s.st.queue.any (fun r => pcOf r.addr == pc && decide (2 ≤ memUrgency s r)) &&
  !s.st.postponed.any (fun x => x.1 / 64 == pc && decide (0 < x.2))

/-- At the end of a run each lane's delay moves to its new centre, by at most 2/64 UI; where the centres lie is open (R358). -/
def codesMove (s : State) (pc : Nat) : State :=
  { s with st := { s.st with codes := s.st.codes.put pc ((Tbl.get [] s.st.codes pc).zipIdx.map (fun (c, i) =>
      c + ((Config.free (162 + 1000 * i) s.freeN % 5 : Nat) : Int) - 2)) } }.spend

/-- RETRAIN_WINDOW: the 128th ends the run, moves the delays and reports the margins found. -/
def retrainWindow (s : State) (pc rd wr : Nat) : State :=
  if !windowOk s pc then s
  else
    let n := s.st.windows + 1
    let s := { s with st := { s.st with windows := n, windowAt := some s.clk } }
    if n = 128 then
      let s := codesMove s pc
      let s := (s.wr Reg.MEM_PC_MARGIN.rd_margin pc rd).wr Reg.MEM_PC_MARGIN.wr_margin pc wr
      let s := s.wri Reg.MEM_PC_MARGIN.pc_temp pc (stackTemp s (pc / 32))
      let lim := s.rd Reg.MEM_MARGIN_CFG.margin_min
      if rd < lim ∨ wr < lim then recalDue (s.event 0x0802 noChan 0 pc (rd % 256 * 256 + wr % 256)) 2 pc reasonQuality else s
    else s

/-! ### Reading Room banks (R362, R365, R366) -/

/-- A recorded repair is applied again at a start (R355, R356, R400). -/
def repairApply (s : State) (kind unit : Nat) : State :=
  if kind = repLane then setLstate s unit 5
  else if kind = repRow then
    let used := Tbl.get 0 s.st.spares (unit % 2 ^ 12)
    let s := { s with st := { s.st with spares := s.st.spares.put (unit % 2 ^ 12) (used + 1), repaired := unit :: s.st.repaired } }
    (s.wr Reg.MEM_REPAIR.rows_repaired 0 (s.rd Reg.MEM_REPAIR.rows_repaired + 1)).wrb Reg.MEM_STATUS.rep_full 0
      (s.on Reg.MEM_STATUS.rep_full || decide (32 ≤ used + 1))
  else if kind = repStackLane then
    let s := { s with st := { s.st with laneMap := s.st.laneMap ++ [unit] } }
    s.wr Reg.MEM_REPAIR.lanes_remapped 0 (sat 8 s.st.laneMap.length)
  else if kind = repBank then
    let q := s.st.bankSpares.filter (· != unit)
    let s := s.count Reg.MEM_RR_STATUS.rr_retired
    let s := { s with st := { s.st with
      bankSpares := if unit < 64 then q.drop 1 else q
      bankMap := match q.head? with | some b => if unit < 64 then s.st.bankMap.put unit b else s.st.bankMap | none => s.st.bankMap } }
    s.wr Reg.MEM_RR_STATUS.rr_spares 0 s.st.bankSpares.length
  else s

/-- The physical bank of a Reading Room offset. -/
def rrBank (s : State) (off : Nat) : Nat := let l := bits off 6 6; (Tbl.find s.st.bankMap l).getD l

/-- An uncorrectable Reading Room error at an offset: posted, its bank to be retired (R366). -/
def rrUncorrectable (s : State) (off : Nat) : State :=
  let b := rrBank s off
  let s := { s with st := { s.st with
    rrBad := if s.st.rrBad.contains (off / 8) then s.st.rrBad else off / 8 :: s.st.rrBad,
    bankBad := if s.st.bankBad.contains b then s.st.bankBad else b :: s.st.bankBad } }
  s.event 0x0805 noChan 0 off 0

/-- A single-bit error of the Reading Room at an offset is corrected and written back (R362): counted, and its bank to be retired once 16
fall in a rotation period (R365). -/
def rrCorrected (s : State) (off : Nat) : State :=
  let b := rrBank s off
  let n := Tbl.get 0 s.st.rrErrs b + 1
  let s := s.count Reg.MEM_RR_STATUS.rr_corr
  { s with st := { s.st with
      rrErrs := s.st.rrErrs.put b n
      bankBad := if decide (16 ≤ n) && !s.st.bankBad.contains b then b :: s.st.bankBad else s.st.bankBad } }

/-- What a command's read of the Reading Room met, in its operand: 0 nothing; 1 more than the offset of a word with an uncorrectable error; 2²⁶
and 1 more than the offset of one corrected. -/
def rrErrBad (err : Nat) : Option Nat := if err = 0 ∨ 2 ^ 26 < err then none else some (err - 1)
def rrMet (s : State) (err : Nat) : State :=
  if err = 0 then s else if 2 ^ 26 < err then rrCorrected s (err - 1 - 2 ^ 26) else rrUncorrectable s (err - 1)

/-- A read of `n` bytes from device address `a` meets an uncorrectable Reading Room word. -/
def rrBadRead (s : State) (a n : Nat) : Option Nat :=
  if areaOf a = .readingRoom then
    (s.st.rrBad.find? (fun w => decide (a - rrBase < 8 * w + 8) && decide (8 * w < a - rrBase + n))).map (· * 8)
  else none

/-- The bytes an agent reads from device address `a`: an uncorrectable Reading Room word is reported and reads zero (R366). -/
def memFetch (s : State) (a n : Nat) : State × List Byte :=
  let data := s.peekBytes a n
  if areaOf a = .readingRoom then
    let hit := s.st.rrBad.filter (fun w => decide (a - rrBase < 8 * w + 8) && decide (8 * w < a - rrBase + n))
    (hit.foldl (fun s w => rrUncorrectable s (8 * w)) s,
      data.zipIdx.map (fun (b, i) => if hit.contains ((a - rrBase + i) / 8) then 0 else b))
  else (s, data)

/-- A bank is retired: posted, counted, and entered in the repair record. -/
def bankRetire (s : State) (b : Nat) : State :=
  let s := { s with st := { s.st with bankBad := s.st.bankBad.filter (· != b) } }
  repairAdd ((s.count Reg.MEM_RR_STATUS.rr_retired).event 0x0804 noChan 0 b 0) repBank b

/-- The rotation period in force (R365, R417). -/
def rotPeriod (s : State) : Nat := s.rd Reg.MEM_RR_CFG.rr_rot_s * secU / (if s.mode = modeShadow then 8 else 1)

/-- RR_ROTATION: the next bank in turn, or one to be retired, gives way to a spare; it is tested, or retired. -/
def rrRotate (s : State) : State :=
  match s.st.bankSpares with
  | [] => s
  | q :: qs =>
    if s.st.testing.isSome || decide (s.clk < s.st.rotAt + rotPeriod s) then s
    else
      let phys (l : Nat) : Nat := (Tbl.find s.st.bankMap l).getD l
      let out := (List.range 64).find? (fun l => s.st.bankBad.contains (phys l))
      let l := out.getD s.st.bankNext
      let p := phys l
      let bad := s.st.bankBad.contains p
      let s := { s with st := { s.st with
        bankMap := s.st.bankMap.put l q, bankSpares := qs, rotAt := s.clk, rrErrs := []
        bankNext := if out.isSome && l != s.st.bankNext then s.st.bankNext else (s.st.bankNext + 1) % 64
        testing := if bad then none else some p } }
      let s := s.wr Reg.MEM_RR_STATUS.rr_spares 0 qs.length
      if bad then bankRetire s p else s

/-- RR_BANK_TEST_COMPLETE. -/
def rrTested (s : State) (ok : Bool) : State :=
  match s.st.testing with
  | none => s
  | some p =>
    let s := { s with st := { s.st with testing := none, testOk := ok } }
    if ok then
      let spares := s.st.bankSpares ++ [p]
      ({ s with st := { s.st with bankSpares := spares } }).wr Reg.MEM_RR_STATUS.rr_spares 0 spares.length
    else bankRetire s p

/-! ### Commands -/

/-- STACKS_REQUEST (R347): `write` with its data, or a read of `len` bytes. In FREEZE a read is completed with zeros and a write discarded
(R359). -/
def execStacksRequest (t port source addr len : Nat) (write : Bool) (data : List Byte) (s : State) :
    Host.Outcome State Fault Refusal :=
  let s := s.at t
  .next (if port < 9 && areaOf addr == .stacks then
      if s.frozen then (if write then s else s.emit (.memRead port (List.replicate len 0)))
      else showUrgency (memArrive s port source addr (if write then data.length else len) (if write then some data else none))
    else s)

def execStacksUrgencyRise (t : Nat) (s : State) : Host.Outcome State Fault Refusal := .next (showUrgency (s.at t))

/-- STACKS_REQUEST_SERVED (R348): the pseudo-channel whose command slot it is, and what the reads of its bursts met, eight bits each. -/
def execStacksRequestServed (t pc ecc : Nat) (s : State) : Host.Outcome State Fault Refusal :=
  .next (memServe (s.at t) pc ecc).settle

def execBankRefresh (t pc bank : Nat) (s : State) : Host.Outcome State Fault Refusal :=
  .next (bankRefresh (s.at t) (pc % 64) (bank % 48))

/-- HBM_PARITY_ERROR (R353): `kind` 3 command or address, 4 write data; the command named a burst or row, or neither. -/
def execHbmParityError (t kind port source addr : Nat) (named : Bool) (s : State) : Host.Outcome State Fault Refusal :=
  .next (freezeEnter (s.at t) (if kind = 4 then 4 else 3) port source addr named).settle

/-- HBM_READ_TIMEOUT (R353). -/
def execHbmReadTimeout (t port source addr : Nat) (s : State) : Host.Outcome State Fault Refusal :=
  .next (freezeEnter (s.at t) 5 port source addr true).settle

def execScrubRead (t ecc : Nat) (s : State) : Host.Outcome State Fault Refusal := .next (scrubRead (s.at t) ecc).settle

def execRowRepair (t : Nat) (s : State) : Host.Outcome State Fault Refusal := .next (rowRepair (s.at t))

def execRepairRecordWrite (t : Nat) (s : State) : Host.Outcome State Fault Refusal := .next (repairWrite (s.at t))

def execRetrainWindow (t pc rd wr : Nat) (s : State) : Host.Outcome State Fault Refusal :=
  .next (retrainWindow (s.at t) (pc % 64) rd wr)

/-- FREEZE_ENTRY (R359), for an uncorrectable read: `cause` 1 of a port, 2 of the scrub. -/
def execFreezeEntry (t cause port source addr : Nat) (s : State) : Host.Outcome State Fault Refusal :=
  .next (freezeEnter (s.at t) cause port source addr true).settle

def execFreezeWithholdExpiry (t : Nat) (s : State) : Host.Outcome State Fault Refusal := .next (freezeWithhold (s.at t))

def execRrRotation (t : Nat) (s : State) : Host.Outcome State Fault Refusal := .next (rrRotate (s.at t))

def execRrBankTestComplete (t : Nat) (ok : Bool) (s : State) : Host.Outcome State Fault Refusal :=
  .next (rrTested (s.at t) ok)

end Sys2Proof.Machine
end

