-- ==== Sys2Proof/Machine/Bindery.lean ====
section
/-! DEFINITION. The Bindery (chapter 11): jobs, streams, the verification of coded blocks, and decompression. The coding a compressor chooses
for a block is an operand of the command; what the block must decode to is not. -/

namespace Sys2Proof.Machine

def State.bind (s : State) (u : Nat) : Bindery := Tbl.get Bindery.reset s.bnd u

def State.setBind (s : State) (u : Nat) (x : Bindery) : State := { s with bnd := s.bnd.put u x }

/-! ### Opcodes (Table 11-2) -/

def bopOf (o : Nat) : Nat := bits o 10 2
def bwrapOf (o : Nat) : Nat := bits o 8 2
def beffortOf (o : Nat) : Nat := bits o 4 4
def bflushOf (o : Nat) : Nat := bits o 1 3
def bfirstOf (o : Nat) : Bool := bit o 0

def opCompress : Nat := 1
def opDecompress : Nat := 2
def flushNone : Nat := 0
def flushSync : Nat := 1
def flushFull : Nat := 2
def flushFinish : Nat := 3

/-- A job's opcode holds no reserved value (Table 11-2). -/
def bopOk (o : Nat) : Bool :=
  o / 4096 == 7 && (bopOf o == opCompress || bopOf o == opDecompress) && bwrapOf o != 3 && decide (bflushOf o ≤ 3) &&
  (if bopOf o = opCompress then decide (beffortOf o ≤ 9) else beffortOf o == 0)

/-! ### Areas (R372) -/

/-- `n` bytes from `a` lie wholly in one area. -/
def liesIn (a n : Nat) (area : Area) : Bool := n == 0 || (areaOf a == area && areaOf (a + n - 1) == area)

/-- Bytes of the Catalog table. -/
def catSize : Nat := 2 ^ 19

/-- Two ranges overlap. -/
def overlap (a n b m : Nat) : Bool := decide (a < b + m) && decide (b < a + n) && n != 0 && m != 0

/-- C(n) of R377. -/
def compressBound (n : Nat) : Nat := n + 65536 + 5 * ((n + 65536 + 65534) / 65535) + 24

/-- Why a job is refused before it starts, or 0 (Table 11-3). -/
def bndRefusal (s : State) (x : Bindery) (d e : Desc) : Nat :=
  let dec := bopOf d.opcode == opDecompress
  if !bopOk d.opcode || !d.chain || e.opcode != 0x7000 then 0x707
  else if !bfirstOf d.opcode && (!x.isOpen || x.sop != bopOf d.opcode || x.swrap != bwrapOf d.opcode) then 0x706
  else if !(liesIn d.addr d.length .stacks || liesIn d.addr d.length .readingRoom || liesIn d.addr d.length .host) then 0x701
  else if !(liesIn e.addr e.length .stacks || liesIn e.addr e.length .host) || overlap e.addr e.length d.addr d.length ||
      overlap e.addr e.length (catBase s) catSize then 0x702
  else if !dec && decide (e.length < compressBound d.length) then 0x704
  else 0

/-! ### Registers -/

/-- BND_STATUS and BND_STREAM as a unit's state has them. -/
def bndShow (s : State) (u : Nat) : State :=
  let x := s.bind u
  let busy := s.rd Reg.BND_STATUS.busy
  let bit_ := 2 ^ u
  let s := s.wr Reg.BND_STATUS.busy 0 (if x.job.isSome then Nat.lor busy bit_ else Nat.lor busy bit_ - bit_)
  let s := s.wrb Reg.BND_STREAM.stream_open u x.isOpen
  let s := s.wr Reg.BND_STREAM.s_op u (if x.isOpen then x.sop else 0)
  let s := s.wr Reg.BND_STREAM.s_wrap u (if x.isOpen then x.swrap else 0)
  s.wr Reg.BND_STREAM.ring u (if s.entOn (chBnd u) BndE.unitEn then s.ent (chBnd u) BndE.inRing else 0)

/-- The open stream of a unit is lost. -/
def bndClose (s : State) (u : Nat) : State :=
  s.setBind u { s.bind u with isOpen := false, held := [], text := [], bits := [], cut := 0, given := 0, headed := false }

/-- The open stream of a unit, if any, is abandoned (R374, R383). -/
def bndAbandon (s : State) (u : Nat) : State :=
  if (s.bind u).isOpen then bndShow (bndClose (s.count Reg.BND_VERIFY.abandoned u) u) u else s

/-! ### Starting a job (R371, R372) -/

def bndAgent (u : Nat) : Nat := 0x100 + u

/-- The units run: every mode but COLD_START, RELOAD and FREEZE (R368). -/
def bndRuns (s : State) : Bool := s.mode != modeCold && s.mode != modeReload && s.mode != modeFreeze

/-- The unit may start a job: not in P2, nor once P2 is asked for (R368, R383). -/
def bndMayRun (s : State) (u : Nat) : Bool :=
  s.entOn (chBnd u) BndE.unitEn && bndRuns s && decide (s.rd Reg.MODE_CUR.power ≤ 1) &&
  !(s.on Reg.MODE_CUR.power_busy && s.md.powerTo == 2) && (s.bind u).job.isNone

/-- A job begins on the stream: its source is read, and a COMPRESS job holds it for coding; its bytes count as consumed then (R384, log
95). -/
def bndBegin (s : State) (u : Nat) (d e : Desc) (job : Nat × Nat) : State :=
  let o := d.opcode
  let s := if bfirstOf o then bndAbandon s u else s
  let (s, data) := memFetch s d.addr d.length
  let x := s.bind u
  let x := if bfirstOf o then { x with
    isOpen := true, sop := bopOf o, swrap := bwrapOf o, held := [], text := [], bits := [], cut := 0, given := 0, headed := false } else x
  let x := { x with
    job := some job, src := d.addr, srcLen := d.length, dst := e.addr, dstCap := e.length, opcode := o, done := 0, wrote := 0, status := 0,
    finished := false, text := x.text ++ data, held := if bopOf o = opCompress then x.held ++ data else x.held }
  let s := s.setBind u x
  bndShow (if bopOf o = opCompress then
    (s.wr Reg.BND_STREAM.s_effort u (beffortOf o)).countMod Reg.BND_IN_BYTES.in_bytes u d.length else s) u

/-- The unit takes the next job of its ring, of the kind asked for: it starts, or its refusal is known. -/
def bndStart (s : State) (u : Nat) (dec : Bool) : State :=
  let n := s.ent (chBnd u) BndE.inRing
  if !(decide (u < 16) && bndMayRun s u && s.ringUp n && decide (1 ≤ s.ringHolds n)) then s
  else
    let i := (s.ring n).cons
    let d := s.desc n i
    if (bopOf d.opcode == opDecompress) != dec then s
    else if !d.chain then
      let s := ringTake s n (bndAgent u)
      bndShow (s.setBind u { s.bind u with job := some (i, i), opcode := 0, done := 0, wrote := 0, status := 0x707, finished := true }) u
    else if s.ringHolds n < 2 then s
    else
      let j := mod32 (i + 1)
      let e := s.desc n j
      let why := bndRefusal s (s.bind u) d e
      let s := ringTake (ringTake s n (bndAgent u)) n (bndAgent u)
      if why ≠ 0 then
        bndShow (s.setBind u { s.bind u with job := some (i, j), opcode := 0, done := 0, wrote := 0, status := why, finished := true }) u
      else bndBegin s u d e (i, j)

/-! ### Blocks (R376 to R380) -/

/-- Whole bytes of a run of bits, and the bits left over. -/
def wholeBytes : List Bool → List Byte × List Bool
  | a :: b :: c :: d :: e :: f :: g :: h :: rest =>
    let r := wholeBytes rest
    (BitVec.ofNat 8 (bitsNat [a, b, c, d, e, f, g, h]) :: r.1, r.2)
  | bs => ([], bs)

/-- A unit writes bytes at the end of its job's output, and counts them (R384). -/
def bndWrite (s : State) (u : Nat) (bytes : List Byte) : State :=
  let x := s.bind u
  ((s.pokeBytes (x.dst + x.wrote) bytes).setBind u { x with wrote := x.wrote + bytes.length }).countMod
    Reg.BND_OUT_BYTES.out_bytes u bytes.length

/-- The wrapper header a COMPRESS stream begins with (Table 11-6). -/
def bndHeader (wrap effort : Nat) : List Byte :=
  if wrap = 1 then
    let lvl := if effort ≤ 1 then 0 else if effort ≤ 5 then 1 else if effort = 6 then 2 else 3
    let flg := lvl * 64
    [0x78, BitVec.ofNat 8 (flg + (31 - (0x7800 + flg) % 31) % 31)]
  else if wrap = 2 then
    [0x1F, 0x8B, 8, 0, 0, 0, 0, 0, if effort = 9 then 2 else if effort ≤ 1 then 4 else 0, 255]
  else []

/-- Bits join the output of a COMPRESS stream; whole bytes are written, after the header if it is still to come. -/
def bndPut (s : State) (u : Nat) (bs : List Bool) : State :=
  let x := s.bind u
  let s := if x.headed then s else bndWrite s u (bndHeader x.swrap (beffortOf x.opcode))
  let x := { s.bind u with headed := true }
  let (bytes, rest) := wholeBytes (x.bits ++ bs)
  bndWrite (s.setBind u { x with bits := rest }) u bytes

/-- A COMPRESS job still has a block to code before it can complete (R375, R376). -/
def blockDue (x : Bindery) : Bool :=
  x.job.isSome && !x.finished && bopOf x.opcode == opCompress &&
  (decide (65536 ≤ x.held.length) || (bflushOf x.opcode != flushNone && x.held != []) || bflushOf x.opcode == flushFinish)

/-- `vf_limit` fallbacks within 1.000 s mark the unit suspect (R380). -/
def bndSuspect (s : State) (u : Nat) : State :=
  let s := s.count Reg.BND_VERIFY.verify_fb u
  let late := ((s.bind u).fallbacks.filter (fun t => decide (s.clk ≤ t + secU)))
  let s := s.setBind u { s.bind u with fallbacks := s.clk :: late }
  let seen := s.rd Reg.BND_STATUS.suspect
  if s.ent (chBnd u) BndE.vfLimit ≤ late.length + 1 && !bit seen u then
    (s.wr Reg.BND_STATUS.suspect 0 (seen + 2 ^ u)).event 0x0901 (chBnd u) 0 0 0
  else s

/-- BINDERY_BLOCK_WRITE: the next block of a COMPRESS job. `coded` is a coding the compressor found for it; the shortest of it, its fixed
form and stored is chosen (R376). A stored block takes 65,535 bytes of input, the byte left of a full block going on to the next, so that no
job passes C(n) (R377, log 95). `storedOk` says whether stored blocks, where they are written, compare equal (R379). -/
def bndBlock (s : State) (u : Nat) (coded : List Bool) (storedOk : Bool) : State :=
  let x := s.bind u
  if !(decide (u < 16) && bndRuns s && blockDue x) then s
  else
    let input := x.held.take 65536
    let final := bflushOf x.opcode == flushFinish && decide (x.held.length ≤ 65536)
    let past := (x.text.take (x.text.length - x.held.length)).drop x.cut
    let lastStored := bflushOf x.opcode == flushFinish && decide (x.held.length ≤ 65535)
    let plain := storedBlocks lastStored 1 (input.take 65535) x.bits.length
    let best := shortest final input coded
    let good := blockDecodes (past.reverse.take 32768) input final coded x.bits.length
    if beffortOf x.opcode ≠ 0 ∧ good = true ∧ best.length ≤ plain.length + 8 * (input.length - 65535) then
      bndPut (s.setBind u { x with held := x.held.drop 65536, finished := final }) u best
    else
      let s := s.setBind u { x with held := x.held.drop 65535, finished := lastStored }
      let s := if (beffortOf x.opcode == 0 || good) && storedOk then s else bndSuspect s u
      if storedOk then bndPut s u plain else s.setBind u { s.bind u with status := 0x70A, finished := true }

/-! ### Completion (R373, R375, R381) -/

/-- What a COMPRESS job writes after its last block (Table 11-4). -/
def compressTail (s : State) (u : Nat) : State :=
  let x := s.bind u
  let f := bflushOf x.opcode
  if f = flushSync ∨ f = flushFull then
    let s := bndPut s u (storedBlocks false 1 [] x.bits.length)
    if f = flushFull then s.setBind u { s.bind u with cut := x.text.length } else s
  else if f = flushFinish then
    let s := bndPut s u (List.replicate ((8 - x.bits.length % 8) % 8) false)
    bndClose (bndWrite s u (wrapTrailer x.swrap x.text)) u
  else s

/-- A DECOMPRESS job: what the stream yields beyond the bytes already given (R381). -/
def decompressRun (s : State) (u : Nat) : State :=
  let x := s.bind u
  let (out, taken, st) := inflate x.swrap (x.given + x.dstCap) x.text
  let fresh := out.drop x.given
  let fin := bflushOf x.opcode == flushFinish
  let status := if st = 1 ∨ (st = 0 ∧ fin) then 0x705 else if st = 3 then 0x703 else 0
  let s := bndWrite s u fresh
  let used := taken - (x.text.length - x.srcLen)
  let s := (s.setBind u { s.bind u with
    given := x.given + fresh.length, text := x.text.take taken, done := used, status }).countMod Reg.BND_IN_BYTES.in_bytes u used
  if status = 0x705 ∨ (st = 2 ∧ fin) then bndClose s u else s

/-- The job's work after its last block, if it was not refused or stopped. -/
def bndFinish (s : State) (u : Nat) : State :=
  let x := s.bind u
  if x.status = 0x70A then
    let s := bndClose s u
    s.setBind u { s.bind u with done := x.srcLen }
  else if x.status ≠ 0 then s
  else if bopOf x.opcode = opCompress then
    let s := compressTail s u
    s.setBind u { s.bind u with done := x.srcLen }
  else decompressRun s u

/-- Jobs that did not end well are counted. -/
def bndCount (s : State) (u status : Nat) : State :=
  if status = 0x705 ∨ status = 0x70A then s.count Reg.BND_ERR.data_err u
  else if status ≠ 0 then s.count Reg.BND_ERR.job_err u else s

/-- BINDERY_JOB_COMPLETE: both descriptors complete, the one named first first. -/
def bndComplete (s : State) (u : Nat) : State :=
  match (s.bind u).job with
  | none => s
  | some (i, j) =>
    if !bndRuns s || blockDue (s.bind u) then s
    else
      let n := s.ent (chBnd u) BndE.inRing
      let s := bndFinish s u
      let x := s.bind u
      let s := bndCount s u x.status
      let s := s.setBind u { s.bind u with job := none, held := if x.isOpen then x.held else [] }
      let s := ringComplete s n i x.status x.done
      bndShow (ringComplete s n j x.status x.wrote) u

/-! ### The commands -/

/-- BINDERY_COMPRESS -/
def execBinderyCompress (t unit : Nat) (s : State) : Host.Outcome State Fault Refusal := .next (bndStart (s.at t) unit false)

/-- BINDERY_DECOMPRESS -/
def execBinderyDecompress (t unit : Nat) (s : State) : Host.Outcome State Fault Refusal := .next (bndStart (s.at t) unit true)

/-- BINDERY_BLOCK_WRITE -/
def execBinderyBlockWrite (t unit : Nat) (coded : List Byte) (nbits : Nat) (storedOk : Bool) (s : State) :
    Host.Outcome State Fault Refusal :=
  .next (bndBlock (s.at t) unit ((bitsOf coded).take nbits) storedOk)

end Sys2Proof.Machine
end

