-- ==== Sys2Proof/Machine/Pages.lean ====
section
/-! DEFINITION. What Folio programs ask of the Line Assembler: pages (R99, R133 to R135, R157), its status, and substitutions (R100 to R102,
R148 to R150). -/

namespace Sys2Proof.Machine

/-! ### LINE.STAT (Table 3-7) -/

/-! LINE.STAT gives no value for k = 0 before a line has been fired at the reference row, nor for k = 4 before one is assembled: both then
read 0 (DESIGN CHOICE, log 123). -/

/-- The line after the highest one assembled in any row. -/
def assembledTo (s : State) : Nat := s.la.rowDone.foldl (fun a r => max a r.2) 0

def lineStat (s : State) (k : Nat) : Nat :=
  if k = 0 then s.fire.lastFired
  else if k = 1 then leadLines s
  else if k = 2 then s.rd Reg.LA_STATUS.queue_free
  else if k = 3 then unsigned 64 (webPos s / 65536)
  else if k = 4 then relLine s (assembledTo s - 1)
  else if k = 5 then s.la.lastEnd
  else 0

/-! ### LINE.PAGE -/

/-- The checks of R134 on the descriptor itself. -/
def pageOk (s : State) (a : Nat) : Bool :=
  let n (o k : Nat) := s.peekNat (a + o) k
  a % 64 == 0 && inStacks a 64 && n 0 4 == 0x4F494C46 && n 4 2 == 1 && crc32 (s.peekBytes a 36) == n 36 4 &&
  (!bit (n 6 1) 0 || decide (n 7 1 ≤ 3)) && decide (1 ≤ n 16 4) && decide (n 16 4 ≤ 16777216) && n 20 2 != 0 &&
  (planeList (n 20 2)).all (fun p => s.inUse (chPlane p)) && decide (1 ≤ n 22 2) && decide (n 22 2 ≤ 256) &&
  n 32 4 == (n 16 4 + n 22 2 - 1) / n 22 2 && n 24 8 % 8 == 0 && inStacks (n 24 8) (128 * n 32 4) && decide (n 40 4 ≤ n 32 4)

/-- The page's place among the jobs: a first page with no job waiting for its end, or a page of the job last queued, whether or not its
`job_end` page is queued (R134). -/
def pageFits (s : State) (start : Bool) (job : Nat) : Bool :=
  match s.la.jobs.getLast? with
  | none => start
  | some j => if start then j.ended.isSome else j.id == job

/-- The policy of a job (R157). -/
def jobPolicy (s : State) (code : Nat) : Nat :=
  let c := if code = 0 then s.rd Reg.LA_POLICY.policy_default else code
  if c = 0 then (if (slots80.filter (fun k => s.inUse (chSlot k))).length ≤ 39 then 1 else 2) else c

/-- A job opens, or queues behind the one open (R134, R135). -/
def jobOpen (s : State) (id code : Nat) : State :=
  let j : Job := { idx := s.la.jobCount, id, base := s.la.endLine, policy := jobPolicy s code, ended := none, planes := 0 }
  let first := s.la.jobs == []
  let s := { s with la := { s.la with jobs := s.la.jobs ++ [j], jobCount := s.la.jobCount + 1 } }
  if first then
    ((s.wr Reg.LA_STATUS.job_open 0 1).wr Reg.LA_STATUS.policy_eff 0 j.policy).wr Reg.MEM_RR_STATUS.horizon_eff 0 (horizonEff s)
  else s

/-- A page that fits is queued from line `first` of its job; the line after its last one. -/
def pageQueue (s : State) (a first : Nat) : State × Nat :=
  let n (o k : Nat) := s.peekNat (a + o) k
  let start := bit (n 6 1) 0
  let opens := start && s.la.jobs == []
  let s := if start then jobOpen s (n 8 4) (n 7 1) else s
  match s.la.jobs.getLast? with
  | none => (s, 0)
  | some j =>
    let ends := bit (n 6 1) 1
    let after := first + n 16 4
    let pg : Page := {
      addr := a, first := j.base + first, lines := n 16 4, base := j.base, planes := n 20 2, bandLines := n 22 2, bandTable := n 24 8,
      bands := n 32 4, job := n 8 4, page := n 12 4, jobIdx := j.idx, jobEnd := ends, ready := min (n 32 4) (n 40 4),
      mark := if s.la.slip then markSuspect + causeCountSlip else 0 }
    let jobs := s.la.jobs.map (fun x => if x.idx = j.idx then
      { x with planes := Nat.lor x.planes pg.planes, ended := if x.ended.isNone && ends then some (j.base + after) else x.ended } else x)
    let s := { s with la := { s.la with pages := s.la.pages ++ [pg], endLine := j.base + after, lastEnd := after, lastPage := n 12 4, jobs := jobs } }
    let s := s.wr Reg.LA_STATUS.queue_free 0 (64 - s.la.pages.length)
    let s := s.twin (.page a first none)
    let printing := s.mode == modePrint || s.mode == modeThrottle || s.mode == modeService || s.mode == modeCalibrate
    (leadUpdate (skipGap (if opens && printing then setOrigin s else s)), after)

/-- LINE.PAGE (R99): the line after the page's last line, or 0 if it is refused. That the bound of R135 on a first page holds for every page is
a DESIGN CHOICE (log 134). -/
def linePage (s : State) (a first : Nat) : State × Nat :=
  let n (o k : Nat) := s.peekNat (a + o) k
  let start := bit (n 6 1) 0
  let endRel := match s.la.jobs.getLast? with | some j => s.la.endLine - j.base | none => 0
  if 64 ≤ s.la.pages.length || 2 ^ 48 ≤ first || !pageOk s a || !pageFits s start (n 8 4) ||
      (if start then decide (2 ^ 48 - 1 < first + n 16 4) else decide (first < endRel) || decide (2 ^ 48 - 1 < first + n 16 4)) then (s, 0)
  else pageQueue s a first

/-! ### Substitutions -/

/-- The spare row that serves a nozzle on line `g`, if any. -/
def spareOf (s : State) (p i c g : Nat) : Option Nat :=
  (List.range (rowsOf s p 2).length).find? (fun r => servedRow s p r c g == some i)

/-- Pending changes of one nozzle, oldest first. -/
def nozzleChanges (s : State) (p i c : Nat) : List SubstChange :=
  s.la.changes.filter (fun x => x.plane == p && x.row == i && x.col == c)

/-- The committed spare row of a nozzle. -/
def committedSpare (s : State) (p i c : Nat) : Option Nat :=
  (List.range (rowsOf s p 2).length).find? (fun r => mapEntry s p r c == 8 + i)

/-- The read-back of Table 3-9. -/
def substRead (s : State) (nozzle : Nat) : Nat :=
  match nozzleAt s nozzle with
  | none => 0
  | some (p, i, c) =>
    let cs := nozzleChanges s p i c
    let on := (committedSpare s p i c).isSome || cs.any (·.isSet)
    let line := match cs.getLast? with
      | some x => relLine s x.line
      | none => relLine s (Tbl.get 0 s.la.effLine nozzle)
    2 ^ 63 * ofBool on + 2 ^ 62 * ofBool (cs != []) + low 48 line

/-- The spare nozzle that SUBST.GET shows with k = 1. -/
def substSpare (s : State) (nozzle : Nat) : Nat :=
  match nozzleAt s nozzle with
  | none => 0
  | some (p, i, c) =>
    let r := match ((nozzleChanges s p i c).filter (·.isSet)).getLast? with
      | some x => some x.spare
      | none => committedSpare s p i c
    match r with
    | none => 0
    | some r => nozzleOf (planeRow s p ((rowsOf s p 2).getD r 0)) c

/-- Line `n` of an instruction on the continuing count; with no job open every line is the next job's line 0. -/
def substLine (s : State) (n : Nat) : Nat := if s.on Reg.LA_STATUS.job_open then absLine s n else s.la.endLine

/-- No line from `g` on is assembled in a row (R100). -/
def notAssembled (s : State) (p i g : Nat) : Bool := !s.on Reg.LA_STATUS.job_open || decide (rowDone s p i ≤ g)

/-- A change joins the queue, or commits at once with no job open (R150). -/
def substAccept (s : State) (x : SubstChange) (nozzle spare n : Nat) : State :=
  let s := s.twin (.subst x.isSet nozzle spare n)
  let s := keepChanges s (s.la.changes ++ [x])
  if s.on Reg.LA_STATUS.job_open then
    substCommit { s with la := { s.la with effLine := s.la.effLine.put nozzle x.line } }
  else substCommitAll s

/-- SUBST.SET is accepted (R100, R149): the place of the nozzle and its spare row. -/
def substSetOk (s : State) (nozzle spare n : Nat) : Option (Nat × Nat × Nat × Nat) :=
  match nozzleAt s nozzle, nozzleAt s spare with
  | some (p, i, c), some (p2, i2, c2) =>
    let g := substLine s n
    let r := spareIndex s p i2
    let ph := (planeRow s p i).phase
    let w := phaseWord s p r
    if p = p2 ∧ c = c2 ∧ (planeRow s p i).kind = 1 ∧ (planeRow s p i2).kind = 2 ∧ (spareOf s p i c g).isNone ∧
        (servedRow s p r c g).isNone ∧ notAssembled s p i g ∧ notAssembled s p i2 g ∧ s.la.changes.length < 64 ∧
        (!w.1 || w.2.2 == ph) ∧
        s.la.changes.all (fun x => !(x.isSet && x.plane == p && x.spare == r) || (planeRow s p x.row).phase == ph) ∧ n < 2 ^ 48
    then some (p, i, c, r) else none
  | _, _ => none

/-- SUBST.SET and its read-back. -/
def substSet (s : State) (nozzle spare n : Nat) : State × Nat :=
  let s := match substSetOk s nozzle spare n with
    | some (p, i, c, r) =>
      substAccept s { isSet := true, plane := p, col := c, spare := r, row := i, line := substLine s n } nozzle spare n
    | none => s
  (s, substRead s nozzle)

/-- SUBST.CLR is accepted (R100). -/
def substClrOk (s : State) (nozzle n : Nat) : Option (Nat × Nat × Nat × Nat) :=
  match nozzleAt s nozzle with
  | some (p, i, c) =>
    let g := substLine s n
    match spareOf s p i c g with
    | some r =>
      if notAssembled s p i g ∧ notAssembled s p ((rowsOf s p 2).getD r 0) g ∧ s.la.changes.length < 64 ∧ n < 2 ^ 48
      then some (p, i, c, r) else none
    | none => none
  | none => none

def substClr (s : State) (nozzle n : Nat) : State × Nat :=
  let s := match substClrOk s nozzle n with
    | some (p, i, c, r) =>
      substAccept s { isSet := false, plane := p, col := c, spare := r, row := i, line := substLine s n } nozzle
        (nozzleOf (planeRow s p ((rowsOf s p 2).getD r 0)) c) n
    | none => s
  (s, substRead s nozzle)

end Sys2Proof.Machine
end

