-- ==== Sys2Proof/Machine/Catalog.lean ====
section
/-! DEFINITION. The Catalog (R22 to R28): fetches, the checks of a fetched entry (R24, R524) with the refusals each class adds, and the
loaded entry taking effect at its unit's boundary. -/

namespace Sys2Proof.Machine

/-! ### Channels and classes (Tables 0-4, 1-6) -/

/-- First channel, count, class code and whether pinned. -/
def catRanges : List (Nat × Nat × Nat × Bool) :=
  [(0x0000, 80, 0x01, true), (0x0080, 16, 0x02, true), (0x0100, 48, 0x03, true), (0x0140, 4, 0x04, true), (0x0144, 2, 0x05, false),
   (0x0200, 16, 0x06, true), (0x0210, 16, 0x07, true), (0x0300, 16, 0x08, true), (0x0310, 8, 0x09, false), (0x0318, 4, 0x0A, false),
   (0x0320, 4, 0x0B, true), (0x0400, 256, 0x0C, false), (0x0500, 64, 0x0D, true), (0x0600, 16, 0x0E, false), (0x0700, 16, 0x0F, false),
   (0x0800, 48, 0x10, false), (0x0830, 160, 0x11, false)]

/-- Class and instance number of a channel that carries entries (R15). -/
def classOf (ch : Nat) : Option (Nat × Nat) :=
  (catRanges.find? (fun r => decide (r.1 ≤ ch) && decide (ch < r.1 + r.2.1))).map (fun r => (r.2.2.1, ch - r.1))

def clsPinned (cls : Nat) : Bool := catRanges.any (fun r => r.2.2.1 == cls && r.2.2.2)

/-- Every channel, in ascending order. -/
def catChannels : List Nat := (catRanges.map (fun r => (List.range r.2.1).map (· + r.1))).flatten

/-- Classes whose entries the twin stream carries (Table 13-2). -/
def mirroredChan (ch : Nat) : Bool :=
  match classOf ch with
  | some (c, k) => c == 0x01 || c == 0x02 || c == 0x08 || c == 0x09 || c == 0x0A || c == 0x0B || (c == 0x0D && decide (k < 62))
  | none => false

/-- Channels whose entries cannot be changed: reserved rings (R33), and the triggers that follow the epoch alone (R330). -/
def catFixed (ch : Nat) : Bool := (decide (chRing 6 ≤ ch) && decide (ch ≤ chRing 15)) || ch == chTrig 62 || ch == chTrig 63

/-- Body fields that have a range, per class. -/
def rangedOf (cls : Nat) : List EF :=
  match cls with
  | 0x01 => SlotE.ranged | 0x02 => PlaneE.ranged | 0x03 => LaneE.ranged | 0x04 => LaneE.ranged | 0x05 => RPortE.ranged
  | 0x06 => PortE.ranged | 0x07 => PipeE.ranged | 0x08 => AxisE.ranged | 0x09 => FbE.ranged | 0x0A => EmuE.ranged
  | 0x0B => DlE.ranged | 0x0C => RingE.ranged | 0x0D => TrigE.ranged | 0x0E => ScribeE.ranged | 0x0F => BndE.ranged
  | 0x10 => SensE.ranged | 0x11 => HeadE.ranged | _ => []

/-- The other channels of a class whose entry in effect is in use, with that entry. -/
def othersInUse (s : State) (base n self : Nat) : List (Nat × List Byte) :=
  ((List.range n).filter (fun k => base + k != self)).filterMap (fun k => (s.entry (base + k)).map (fun e => (k, e)))

/-! ### Refusals of the owning chapters -/

/-- R208: of a head slot entry. -/
def slotRefused (s : State) (ch : Nat) (e : List Byte) : Bool :=
  let tmin := SlotE.fireTmin.geti e
  let tmax := SlotE.fireTmax.geti e
  let warn := SlotE.tWarn.geti e
  let isOver (r : RowRec) (columns : Nat) : Bool :=
    r.kind != 0 &&
    ((r.slotA == ch && decide (0 < r.split) && decide (SlotE.nozzles.get e < r.localA + r.split)) ||
     (r.slotB == ch && r.slotB != 0xFF && decide (r.split < columns) && decide (SlotE.nozzles.get e < r.localB + (columns - r.split))))
  decide (tmin < s.rdi Reg.FS_LIMITS.tmin_floor) || decide (s.rdi Reg.FS_LIMITS.tmax_ceil < tmax) ||
  !(decide (tmin + 2 * SlotE.tHyst.get e < warn) && decide (warn ≤ tmax)) ||
  decide (s.rd Reg.FS_VDRIVE_CEIL.vdrive_ceil < SlotE.vDrive.get e) ||
  decide (SlotE.decapMs.get e ≤ s.rd Reg.LA_KEEPOPEN.keepopen_after) ||
  decide (SlotE.decapMs.get e * 1000 < SlotE.koPeriodUs.get e * 2) ||
  (othersInUse s 0 80 ch).any (fun o => SlotE.lane.get o.2 == SlotE.lane.get e && SlotE.laneHalf.get o.2 == SlotE.laneHalf.get e) ||
  (SlotE.authReq.on e && Nat.land (SlotE.anchorMask.get e) (s.rd Reg.FS_AUTH.anchors) == 0) ||
  (othersInUse s 0x80 16 0xFFFF).any (fun o => rows6.any (fun i => isOver (rowRec o.2 i) (PlaneE.columns.get o.2)))

/-- The fields of a row record lie within Table 4-8. The table does not say whether the other fields of an unused record count: they do not
(DESIGN CHOICE, log 123). -/
def rowInRange (r : RowRec) : Bool :=
  decide (r.kind ≤ 2) && (r.kind != 2 || r.phase == 0) &&
  (r.kind == 0 || (decide (r.slotA ≤ 79) && (decide (r.slotB ≤ 79) || r.slotB == 0xFF) && decide (r.split ≤ 131072)))

/-- R143, R169: of a colour plane entry. Rows that name no slot of another row map to nozzles of their own. -/
def planeRefused (s : State) (ch : Nat) (e : List Byte) : Bool :=
  let columns := PlaneE.columns.get e
  let rows := rows6.map (rowRec e)
  let used := rows.filter (fun r => r.kind != 0)
  let prints := rows.filter (fun r => r.kind == 1)
  let nPrint := PlaneE.nPrint.get e
  let badRow (r : RowRec) : Bool :=
    decide (columns < r.split) || (r.slotB == 0xFF && r.split != columns) ||
    (decide (0 < r.split) && decide (65536 < r.localA + r.split)) ||
    (decide (r.split < columns) && decide (65536 < r.localB + (columns - r.split))) ||
    (s.inUse (chSlot r.slotA) && decide (0 < r.split) && decide (s.ent (chSlot r.slotA) SlotE.nozzles < r.localA + r.split)) ||
    (r.slotB != 0xFF && s.inUse (chSlot r.slotB) && decide (r.split < columns) &&
      decide (s.ent (chSlot r.slotB) SlotE.nozzles < r.localB + (columns - r.split)))
  let slots := (rows6.map (fun i => ((rowRec e i).slots.map (fun k => (k, ch * 8 + i))))).flatten
  let other := ((othersInUse s 0x80 16 ch).map (fun o => (rows6.map (fun i => (rowRec o.2 i).slots)).flatten)).flatten
  let bank (f : EF) : Bool := PlaneE.densityEn.on e && decide (rrSize < f.get e + 6 * columns)
  let old := Tbl.find s.cat.inEffect ch
  let bankMoves := match old with
    | some o => HdrE.valid.on o && (PlaneE.densityBank.get o != PlaneE.densityBank.get e || PlaneE.bankLine.get o != PlaneE.bankLine.get e)
    | none => false
  let done := rows6.foldl (fun m i => max m (rowDone s (ch - 0x80) i)) 0
  !rows.all rowInRange || used.any badRow || bank PlaneE.densBase0 || bank PlaneE.densBase1 ||
  prints.length != nPrint || (rows.filter (fun r => r.kind == 2)).length != PlaneE.nSpare.get e ||
  prints.any (fun r => decide (nPrint ≤ r.phase)) || decide ((prints.map (·.phase)).eraseDups.length < prints.length) ||
  (ch == 0x80 && prints.any (fun r => r.phase == 0 && r.delay != 0)) ||
  slots.any (fun a => slots.any (fun b => a.1 == b.1 && a.2 != b.2) || other.contains a.1) ||
  (bankMoves && s.on Reg.LA_STATUS.job_open && decide (0 < done) && decide (absLine s (PlaneE.bankLine.get e) < done))

/-- R406: of a lane entry. -/
def laneRefused (s : State) (ch : Nat) (e : List Byte) : Bool :=
  let n := if ch < 0x140 then ch - 0x100 else 48 + (ch - 0x140)
  carriesTraffic s n &&
  (!LaneE.hlEn.on e ||
   match s.entry ch with
   | some o => LaneE.txInv.get o != LaneE.txInv.get e || LaneE.rxInv.get o != LaneE.rxInv.get e
   | none => false)

/-- R213: of a camera port entry: the three CCI clocks. -/
def camPortRefused (e : List Byte) : Bool :=
  let k := PortE.cciKhz.get e
  !(k == 1 || k == 4 || k == 0x0A)

/-- R214, R224: of an inspection pipeline entry. -/
def pipeRefused (s : State) (ch : Nat) (e : List Byte) : Bool :=
  let p := ch - 0x210
  let g := PipeE.grp.get e
  let dtype := PipeE.dtype.get e
  let pair (x : Nat) : Bool := s.rd Reg.INSP_PIPE_BIND.pport x == PipeE.port.get e && s.rd Reg.INSP_PIPE_BIND.pvc x == PipeE.vc.get e
  (PipeE.bindEn.on e &&
    (pipes16.any (fun x => x != p && s.on Reg.INSP_PIPE_BIND.pbound x && pair x) ||
     (s.on Reg.INSP_PIPE_BIND.pbound p && !pair p))) ||
  !(dtype == 0x2B || dtype == 0x2C || dtype == 0x24 || dtype == 0x1E) ||
  decide (rrSize < PipeE.tabBase.get e + 12 * PipeE.pixels.get e) || decide (PipeE.latHi.get e ≤ PipeE.latLo.get e) ||
  decide (PipeE.segHi.get e < PipeE.segLo.get e) ||
  ((s.group g).on && PipeE.trigOut.get e != s.rd Reg.GRP_CFG.trig_out g)

/-- The switch inputs an axis entry names. -/
def axisSwitches (e : List Byte) : List Nat :=
  [AxisE.swHome.get e, AxisE.swLimNeg.get e, AxisE.swLimPos.get e].filter (· != 0xFF)

/-- R309: of an axis entry with `valid` 1. -/
def axisRefused (s : State) (ch : Nat) (e : List Byte) : Bool :=
  let n := ch - 0x300
  let sw := axisSwitches e
  let fb := AxisE.fbInput.get e
  let port := AxisE.port.get e
  sw.any (fun k => decide (47 < k)) || (fb != 0xFF && decide (7 < fb)) ||
  decide (AxisE.aHard.get e < AxisE.aMax.get e) || decide (AxisE.posMax.geti e ≤ AxisE.posMin.geti e) ||
  decide (AxisE.vMax.get e < AxisE.homeFast.get e) || decide (AxisE.homeFast.get e < AxisE.homeSlow.get e) ||
  decide (sw.eraseDups.length < sw.length) || ((AxisE.role.get e == 0) != (n == 0)) ||
  (othersInUse s 0x300 16 ch).any (fun o =>
    (AxisE.port.get o.2 == port && AxisE.drive.get o.2 == AxisE.drive.get e) || (axisSwitches o.2).any (sw.contains ·)) ||
  (s.inUse (chDl port) && decide (s.ent (chDl port) DlE.drives ≤ AxisE.drive.get e)) ||
  (!(s.axis n).atRest &&
    (!AxisE.axisEn.on e ||
     match s.entry ch with
     | some o => AxisE.port.get o != port || AxisE.drive.get o != AxisE.drive.get e
     | none => false))

/-- While a job is open, an entry with `valid` 1 changes what R309 names of the web input. -/
def webChanged (s : State) (ch : Nat) (e : List Byte) : Bool :=
  let fields : List EF := [FbE.kind, FbE.cpr, FbE.wpNum, FbE.wpDen, FbE.fflags]
  s.on Reg.LA_STATUS.job_open && s.webInput == ch - 0x310 &&
    match s.entry ch with
    | some o => fields.any (fun f => f.get o != f.get e)
    | none => true

/-- R309, R327: of a feedback input entry. -/
def fbRefused (s : State) (ch : Nat) (e : List Byte) : Bool :=
  let i := ch - 0x310
  (FbE.kind.get e == 2 && FbE.cpr.get e % 4096 != 0) || decide (FbE.ssiBits.get e ≤ FbE.ssiTurnBits.get e) ||
  webChanged s ch e ||
  (FbE.kind.get e != 2 && (othersInUse s 0x500 64 0xFFFF).any (fun o => TrigE.action.get o.2 == 1 && TrigE.target.get o.2 == i))

/-- A running stitch group uses an emulator output. -/
def emuUsed (s : State) (ch : Nat) : Bool :=
  (List.range 4).any (fun g => (s.group g).on && s.rd Reg.GRP_CFG.trig_out g == ch - 0x318)

/-- R307, R309: of an emulator output entry. A change of bits that the table reserves is no change of the output (R522). -/
def emuRefused (s : State) (ch : Nat) (e : List Byte) : Bool :=
  decide (EmuE.mRatio.get e < EmuE.nRatio.get e) ||
  (emuUsed s ch &&
    match s.entry ch with
    | some o => EmuE.fields.any (fun f => f.get o != f.get e)
    | none => true)

/-- R309: of a Drive Link port entry. -/
def dlRefused (s : State) (ch : Nat) (e : List Byte) : Bool :=
  let k := ch - 0x320
  let mine := (List.range 16).filter (fun n => s.inUse (chAxis n) && s.ent (chAxis n) AxisE.port == k)
  let fields : List EF := [DlE.servoNs, DlE.syncNs, DlE.trig]
  decide (DlE.servoNs.get e < DlE.syncNs.get e + 5000) ||
  mine.any (fun n => decide (DlE.drives.get e ≤ s.ent (chAxis n) AxisE.drive)) ||
  (mine.any (fun n => !(s.axis n).atRest) &&
    match s.entry ch with
    | some o => fields.any (fun f => f.get o != f.get e)
    | none => false)

/-- The ring holds a descriptor, or one popped from it is not completed (R525). -/
def ringBusy (s : State) (n : Nat) : Bool := s.ringHolds n != 0 || (s.ring n).flight != []

/-- An owner code of Table 1-5. -/
def ownerCode (n : Nat) : Bool := decide (n ≤ 15) || n == ownerRegistrar || n == ownerHost

/-- R29, R369, R525: of a ring entry with `valid` 1. -/
def ringRefused (s : State) (ch : Nat) (e : List Byte) : Bool :=
  let n := ch - 0x400
  let a := RingE.base.get e
  let size := 32 * 2 ^ RingE.log2Size.get e
  let fields : List EF := [RingE.base, RingE.log2Size, RingE.direction, RingE.producer, RingE.consumer]
  let placed := (liesIn a size .stacks && !overlap a size (catBase s) catSize) || liesIn a size .readingRoom || liesIn a size .host
  !placed || !ownerCode (RingE.producer.get e) || !ownerCode (RingE.consumer.get e) ||
  (ringBusy s n &&
    match Tbl.find s.cat.inEffect ch with
    | some o => fields.any (fun f => f.get o != f.get e)
    | none => true) ||
  ((RingE.consumer.get e != ownerRegistrar || RingE.direction.get e == 2) &&
    (othersInUse s 0x700 16 0xFFFF).any (fun o => BndE.inRing.get o.2 == n))

/-- R327: of a time trigger entry. -/
def trigRefused (s : State) (ch : Nat) (e : List Byte) : Bool :=
  let action := TrigE.action.get e
  let target := TrigE.target.get e
  let per := TrigE.periodNs.get e
  (decide (1 ≤ per) && decide (per ≤ 999)) ||
  (if action = 1 then decide (7 < target) || (s.inUse (chFb target) && s.ent (chFb target) FbE.kind != 2)
   else if action = 3 then decide (3 < target) else target != 0) ||
  (decide (1 ≤ action) && (othersInUse s 0x500 64 ch).any (fun o =>
    TrigE.trigEn.on o.2 && TrigE.action.get o.2 == action && TrigE.target.get o.2 == target))

/-- R84, R85: of a Scribe entry. -/
def scribeRefused (e : List Byte) : Bool :=
  let role := ScribeE.role.get e
  (List.range 7).any (fun k =>
    let l := winLog2 e (k + 1)
    winBase e (k + 1) % 4096 != 0 ||
    (l != 0 && (decide (l < 12) || decide (36 < l) || decide (2 ^ 64 < winBase e (k + 1) + 2 ^ l)))) ||
  decide (stacksSize ≤ ScribeE.carrelImage.get e) ||
  (decide (0x10 ≤ role) && decide (role ≤ 0xFD))

/-- R369: of a Bindery unit entry. -/
def bndRefused (s : State) (ch : Nat) (e : List Byte) : Bool :=
  let r := BndE.inRing.get e
  (othersInUse s 0x700 16 ch).any (fun o => BndE.unitEn.on o.2 && BndE.inRing.get o.2 == r) ||
  (s.ringUp r && (s.ent (chRing r) RingE.consumer != ownerRegistrar || s.ent (chRing r) RingE.direction == 2))

/-- The owning chapter refuses an entry with `valid` 1. -/
def chapterRefuses (s : State) (cls ch : Nat) (e : List Byte) : Bool :=
  match cls with
  | 0x01 => slotRefused s ch e | 0x02 => planeRefused s ch e | 0x03 => laneRefused s ch e | 0x04 => laneRefused s ch e
  | 0x06 => camPortRefused e | 0x07 => pipeRefused s ch e | 0x08 => axisRefused s ch e | 0x09 => fbRefused s ch e | 0x0A => emuRefused s ch e
  | 0x0B => dlRefused s ch e | 0x0C => ringRefused s ch e | 0x0D => trigRefused s ch e | 0x0E => scribeRefused e
  | 0x0F => bndRefused s ch e | _ => false

/-- It refuses an entry with `valid` 0 (R24): a ring that holds descriptors (R525); an axis not at standstill (R309). DEDUCED (log 124): no
other refusal of R309 is one of `valid` 0. -/
def chapterKeeps (s : State) (cls ch : Nat) : Bool :=
  match cls with
  | 0x0C => ringBusy s (ch - 0x400)
  | 0x08 => !(s.axis (ch - 0x300)).atRest
  | _ => false

/-- R24: the fetched entry may be loaded. -/
def entryOk (s : State) (ch : Nat) (e : List Byte) : Bool :=
  match classOf ch with
  | none => false
  | some (cls, _) =>
    !catFixed ch && HdrE.channel.get e == ch && HdrE.cls.get e == cls && HdrE.layout.get e == 1 &&
    HdrE.check.get e == entryCheck e &&
    (if HdrE.valid.on e then (rangedOf cls).all (fun f => f.ok e) && !chapterRefuses s cls ch e
     else !chapterKeeps s cls ch)

/-! ### A loaded entry takes effect (R27) -/

/-- Fields of an entry changed, counting an entry that was or is not in use as all zero. -/
def changed (old new : Option (List Byte)) (f : EF) : Bool :=
  let v (e : Option (List Byte)) : Nat := match e with | some b => f.get b | none => 0
  v old != v new

/-- What the unit of channel `ch` does as its entry changes from `old` to the one now in effect. -/
def entryTaken (s : State) (ch : Nat) (old : Option (List Byte)) : State :=
  let new := s.entry ch
  let ch' := changed old new
  let was (f : EF) : Bool := match old with | some e => f.on e | none => false
  match classOf ch with
  | some (0x01, k) =>
    let s := if new.isSome && carriesTraffic s (slotLane s k) then laneClear s (slotLane s k) else s
    let s := (List.range 40).foldl (fun s l =>
      if s.ent ch SlotE.lane == l || (old.elim 0 SlotE.lane.get) == l then showLinks s l else s) s
    let s := if new.isSome && linkUp s k && (ch' SlotE.waveAddr || ch' SlotE.waveLen || ch' SlotE.waveCrc) then waveStart s k else s
    let s := if new.isSome then sendDrive s k else s
    chargeUpdate (tempEval s k) k
  | some (0x02, p) =>
    if ch' PlaneE.densityBank || ch' PlaneE.bankLine then { s with la := { s.la with bankFrom := Tbl.del s.la.bankFrom p } } else s
  | some (0x03, k) => if s.entOn ch LaneE.hlEn && !was LaneE.hlEn then laneCall s k else if !s.entOn ch LaneE.hlEn && was LaneE.hlEn then laneDown s k else s
  | some (0x04, k) =>
    if s.entOn ch LaneE.hlEn && !was LaneE.hlEn then laneCall s (48 + k) else if !s.entOn ch LaneE.hlEn && was LaneE.hlEn then laneDown s (48 + k) else s
  | some (0x06, k) =>
    if s.entOn ch PortE.portEn && !was PortE.portEn then portStart s k true
    else if !s.entOn ch PortE.portEn && was PortE.portEn then portStop s k else s
  | some (0x07, k) => pipeBind s k
  | some (0x08, k) =>
    let step := s.rd Reg.MOT_AX_STATE.home_step k
    let s := if decide (1 ≤ step) && (ch' AxisE.swHome || ch' AxisE.homeDir || ch' AxisE.homeOffset) then axisStop (homeFail s k) k else s
    showAxis s k
  | some (0x09, i) =>
    (s.setFb i { s.fb i with hist := [] }).wr2i Reg.FB_POS_LO.fpos_lo Reg.FB_POS_HI.fpos_hi i (fbWp s i (fbExt s i))
  | some (0x0A, k) =>
    if s.entOn ch EmuE.emuEn && !was EmuE.emuEn then emuStart s k
    else if !s.entOn ch EmuE.emuEn && was EmuE.emuEn then emuStop s k else s
  | some (0x0B, k) =>
    if s.entOn ch DlE.portEn && !was DlE.portEn then driveLinkUp s k
    else if !s.entOn ch DlE.portEn && was DlE.portEn then s.wr Reg.DL_STATE.dl_link k 0 else s
  | some (0x0C, k) => ringWake (ringSettle (msiOwed (if k = 0 then s.flushEvents else s) k) k) k
  | some (0x0D, k) => trigLoad s k
  | some (0x0F, k) =>
    let s := if ch' BndE.inRing || !s.entOn ch BndE.unitEn then bndAbandon s k else s
    bndShow s k
  | some (0x11, k) =>
    if ch' HeadE.trim || ch' HeadE.hchEn || ch' HeadE.subEn then headRelearn s (k / 2) else s
  | _ => s

/-- The unit stands within an interval that runs under the entry it has. -/
def catWaits (s : State) (ch : Nat) : Bool :=
  match classOf ch with
  | some (0x01, _) => s.on Reg.LA_STATUS.job_open
  | some (0x02, _) => s.on Reg.LA_STATUS.job_open
  | some (0x03, k) => s.on Reg.LA_STATUS.job_open || s.ln.moves.any (fun m => m.a == k || m.b == k)
  | some (0x04, _) => s.on Reg.LA_STATUS.job_open
  | some (0x06, k) => pipes16.any (fun p => s.on Reg.INSP_PIPE_BIND.pbound p && s.rd Reg.INSP_PIPE_BIND.pport p == k && (s.pipe p).frames != [])
  | some (0x07, k) => (s.pipe k).frames != []
  | some (0x08, k) => s.inUse ch && s.rd Reg.DL_STATE.dl_link (s.ent (chAxis k) AxisE.port) == 2
  | some (0x0B, k) => s.rd Reg.DL_STATE.dl_link k == 2
  | some (0x0E, k) => (s.eng k).running.isSome
  | some (0x0F, k) => (s.bind k).job.isSome
  | _ => false

/-- The line, frame or servo period now at hand for a unit. -/
def catCount (s : State) (ch : Nat) : Nat :=
  match classOf ch with
  | some (0x01, k) => if s.on Reg.LA_STATUS.job_open then (s.slot k).next else 0
  | some (0x02, _) => if s.on Reg.LA_STATUS.job_open then s.fire.refNext else 0
  | some (0x08, k) => (s.drivePort (s.ent (chAxis k) AxisE.port)).period
  | some (0x0B, k) => (s.drivePort k).period
  | _ => 0

def catShow (s : State) : State :=
  let s := s.wrb Reg.CAT_STATUS.inv_busy 0 (s.cat.fetches != [])
  let held := s.cat.inEffect.map (·.1) ++ s.cat.loaded.map (·.1)
  let cached := catChannels.filter (fun ch => held.contains ch && (Tbl.find s.cat.fetches ch).isNone)
  s.wr Reg.CAT_STATUS.cached 0 cached.length

/-- The boundary of a unit: the entry loaded for it, if any, takes effect. -/
def catApply (s : State) (ch : Nat) : State :=
  match Tbl.find s.cat.loaded ch with
  | none => s
  | some _ =>
    if Tbl.get 0 s.cat.since ch ≤ catCount s ch || !s.on Reg.LA_STATUS.job_open then entryTaken (s.catMove ch) ch (s.entry ch) else s

/-- Entries whose unit is between two intervals take effect. -/
def State.catSettle (s : State) : State :=
  s.cat.loaded.foldl (fun s c => if catWaits s c.1 then s else catApply s c.1) s

/-- An entry is loaded: in effect at the unit's next boundary; the partner gets it if its class is mirrored. -/
def catLoad (s : State) (ch : Nat) (e : List Byte) (since : Option Nat) : State :=
  let e := match classOf ch with
    | some (c, _) => if clsPinned c then e.take 8 ++ [e.getD 8 0 ||| 4] ++ e.drop 9 else e
    | none => e
  let s := { s with cat := { s.cat with
      loaded := s.cat.loaded.put ch e
      since := match since with | some n => s.cat.since.put ch n | none => Tbl.del s.cat.since ch } }
  let s := if mirroredChan ch then s.twin (.entry e (catCount s ch + (if catWaits s ch then 1 else 0))) else s
  if catWaits s ch then s else catApply s ch

/-- The entry of a channel in the table is fetched and, if it passes, loaded. -/
def catFetch (s : State) (ch : Nat) : State :=
  let e := s.peekBytes (entryAddr s ch) 128
  if entryOk s ch e then catLoad s ch e none else s

/-- CATALOG_FETCH_COMPLETE: the fetch outstanding ends, and a further one follows if the channel was invalidated meanwhile (R26). -/
def catFetched (s : State) (ch : Nat) : State :=
  match Tbl.find s.cat.fetches ch with
  | none => s
  | some n =>
    let fetches := if n ≤ 1 then Tbl.del s.cat.fetches ch else s.cat.fetches.put ch (n - 1)
    catShow (catFetch { s with cat := { s.cat with fetches := fetches } } ch)

/-- An invalidation of a channel (R26): a fetch starts; one more follows a fetch in progress. -/
def catInvalidate (s : State) (ch : Nat) : State :=
  if (classOf ch).isNone || catFixed ch then s
  else
    let n := Tbl.get 0 s.cat.fetches ch
    catShow { s with cat := { s.cat with fetches := s.cat.fetches.put ch (min 2 (n + 1)) } }

/-- CAT_INVALIDATE with `all`: every unpinned entry cached. -/
def catInvalidateAll (s : State) : State :=
  catChannels.foldl (fun s ch =>
    match classOf ch with
    | some (c, _) =>
      if !clsPinned c && ((Tbl.find s.cat.inEffect ch).isSome || (Tbl.find s.cat.loaded ch).isSome) then catInvalidate s ch else s
    | none => s) s

/-- `generation` of the entry in effect, 0 if none is loaded (R28). -/
def catGen (s : State) (ch : Nat) : Nat := match Tbl.find s.cat.inEffect ch with | some e => HdrE.generation.get e | none => 0

/-- A field of an entry set to `v`. -/
def EF.set (f : EF) (e : List Byte) (v : Nat) : List Byte :=
  let old := leNat ((e.drop f.off).take f.size)
  let new := old - bits old f.lsb f.width * 2 ^ f.lsb + low f.width v * 2 ^ f.lsb
  e.take f.off ++ leBytes f.size new ++ e.drop (f.off + f.size)

/-- The fields of an entry that the device writes: of the header, of a head slot, a colour plane, a pipeline or a Scribe. A colour plane's row records
and a Scribe's windows have no reserved bits but those named here. -/
def writtenFields (cls : Nat) : List EF :=
  [HdrE.channel, HdrE.cls, HdrE.layout, HdrE.generation, HdrE.valid, HdrE.hostRo, HdrE.pinned, HdrE.owner] ++
  match cls with
  | 0x01 => SlotE.fields
  | 0x02 => PlaneE.fields ++ [⟨44, 84, 0, 672, false, none, 1⟩]
  | 0x07 => PipeE.fields
  | 0x0E => ScribeE.fields ++ (List.range 7).flatMap (fun k => [⟨16 + 12 * k, 9, 0, 72, false, none, 1⟩, ⟨16 + 12 * k + 9, 1, 0, 3, false, none, 1⟩])
  | _ => []

/-- An entry with its reserved bits 0 (R522). -/
def entryClean (e : List Byte) : List Byte :=
  (writtenFields (HdrE.cls.get e)).foldl (fun b f => f.set b (f.get e)) (List.replicate 128 0)

/-- An entry as an agent of the device writes it: its generation one higher, its reserved bits 0 and its check correct. -/
def nextEntry (e : List Byte) : List Byte :=
  let e := entryClean (HdrE.generation.set e (HdrE.generation.get e + 1))
  e.take 12 ++ leBytes 4 (entryCheck e) ++ e.drop 16

/-- An agent of the device rewrites an entry in the table and invalidates it. -/
def catWrite (s : State) (ch : Nat) (e : List Byte) : State := catInvalidate (s.pokeBytes (entryAddr s ch) (nextEntry e)) ch

/-! ### Commands -/

/-- CATALOG_FETCH_COMPLETE. -/
def execCatalogFetchComplete (t channel : Nat) (s : State) : Host.Outcome State Fault Refusal := .next (catFetched (s.at t) channel).settle

/-- BINDERY_JOB_COMPLETE (R372): an entry loaded while the job ran then takes effect. -/
def execBinderyJobComplete (t unit : Nat) (s : State) : Host.Outcome State Fault Refusal := .next (bndComplete (s.at t) unit).catSettle

end Sys2Proof.Machine
end

