-- ==== Sys2Proof/Machine/Circulation.lean ====
section
/-! DEFINITION. Ledger snapshots (R37 to R39), the doorbells of the rings (R32, R44), interrupt holdoff (R34), and the copy engine
(R129 to R131). -/

namespace Sys2Proof.Machine

/-! ### Host access (Table 2-1, R496) -/

/-- BAR2 answers the host. -/
def bar2Open (s : State) : Bool := hostOpen s && s.on Reg.LX_PERSONA.bar2_open

/-! ### Ledger snapshots -/

/-- A write of 1 to `snap_busy`, or LEDGER.SNAP: whether it is taken up. -/
def snapAsk (s : State) : State :=
  if s.on Reg.LEDGER_SNAP.snap_busy then s
  else
    { s.wr Reg.LEDGER_SNAP.snap_busy 0 1 with
      led := { s.led with asked := some s.clk, taken := none, seqStarted := s.led.seqStarted + 1 } }

/-- LEDGER_SNAP_COMPLETE: the window shows the snapshot, and it is checked (R39). -/
def snapDone (s : State) : State :=
  match s.led.taken with
  | none => s
  | some (c, line, free) =>
    let s := { s with led := { s.led with snap := c, asked := none, taken := none, seqDone := s.led.seqStarted } }
    let s := (s.wr Reg.LEDGER_SNAP.snap_busy 0 0).wrb Reg.LEDGER_SNAP.snap_free 0 free
    let s := s.wr2 Reg.LEDGER_SNAP_LINE_LO.snap_line_lo Reg.LEDGER_SNAP_LINE_HI.snap_line_hi 0 line
    ledCheck s c line

/-! ### Doorbells (R32, R44) -/

/-- The host writes a producer index. -/
def doorProducer (s : State) (n p : Nat) : State :=
  let r := s.ring n
  let k := diff32 p r.prod
  if !s.ringUp n || s.ent (chRing n) RingE.direction != 1 || decide (s.ringSize n < k) || decide (s.ringSize n < diff32 p r.cons) then s
  else
    let irq := (List.range k).any (fun i => (s.desc n (mod32 (r.prod + i))).irq)
    ringPublish s n k irq

/-- The host writes a consumer index: each descriptor passed is consumed and completed at once. Room on ring 0x00 lets held events out. -/
def doorConsumer (s : State) (n c : Nat) : State :=
  let r := s.ring n
  let k := diff32 c r.cons
  if !s.ringUp n || s.ent (chRing n) RingE.direction != 2 || decide (s.ringHolds n < k) then s
  else
    let s := ((s.setRing n { r with cons := mod32 c }).ledAdd (Led.descConsumed n) k).ledAdd (Led.descCompleted n) k
    if n = 0 then s.flushEvents else s

/-- IRQ_HOLDOFF_EXPIRY: one message covers the events within the holdoff. -/
def holdoffEnd (s : State) (n : Nat) : State :=
  let r := s.ring n
  if !r.held || !holdoffPassed s n r then s
  else if !s.entOn (chRing n) RingE.irqEn then s.setRing n { r with held := false }
  else if s.on Reg.MSIX.mask n then (s.setRing n { r with held := false }).wr Reg.MSIX_PBA.pend n 1
  else msiSend s n

/-! ### The copy engine (R129 to R131) -/

/-- The agent under which the copy engine takes descriptors. -/
def copyAgent : Nat := 0x200

/-- The ring accepts intake opcodes. -/
def intakeRing (s : State) (n : Nat) : Bool :=
  s.ringUp n && s.ent (chRing n) RingE.direction == 1 && s.ent (chRing n) RingE.consumer == ownerRegistrar &&
  !(List.range 16).any (fun u => s.inUse (chBnd u) && s.ent (chBnd u) BndE.inRing == n)

/-- The destination lies wholly within the Stacks, outside the Catalog table. -/
def intakeDest (s : State) (a n : Nat) : Bool := inStacks a n && !overlap a n (catBase s) catSize

/-- The engine takes the descriptor at the consumer index and completes it alone. -/
def intakeRefuse (s : State) (n status : Nat) : State :=
  let i := (s.ring n).cons
  ringComplete (ringTake s n copyAgent) n i status 0

/-- The engine can serve the ring: outside a copy in progress, in a mode with host access to the Stacks. -/
def intakeReady (s : State) (n : Nat) : Bool :=
  hostOpen s && !s.frozen && intakeRing s n && (Tbl.find s.la.copying n).isNone && s.ringHolds n != 0

def opCopyIn : Nat := 0x0101
def opCopyDest : Nat := 0x0100
def opPut32 : Nat := 0x0102

/-- A descriptor with an opcode of no use here, or a COPY_IN without its pair, completes alone. -/
def intakeOther (s : State) (n : Nat) : State := intakeRefuse s n 0x103

/-- COPY_IN: the pair is checked, and the copy starts. -/
def copyIn (s : State) (n : Nat) : State :=
  if !intakeReady s n then s
  else
    let i := (s.ring n).cons
    let d := s.desc n i
    if d.opcode = opPut32 then s
    else if d.opcode ≠ opCopyIn then intakeOther s n
    else if !d.chain then intakeRefuse s n 0x104
    else if s.ringHolds n < 2 then s
    else
      let e := s.desc n (mod32 (i + 1))
      let pair (s : State) (status : Nat) : State :=
        ringComplete (ringComplete (ringTake (ringTake s n copyAgent) n copyAgent) n i status 0) n (mod32 (i + 1)) status 0
      if e.opcode ≠ opCopyDest then intakeRefuse s n 0x104
      else if !liesIn d.addr d.length .host || areaOf d.addr != .host then pair s 0x101
      else if !intakeDest s e.addr d.length then pair s 0x102
      else
        let s := ringTake (ringTake s n copyAgent) n copyAgent
        { s with la := { s.la with copying := s.la.copying.put n i } }

/-- COPY_IN_COMPLETE: the data lands, then both descriptors complete. -/
def copyDone (s : State) (n : Nat) : State :=
  match Tbl.find s.la.copying n with
  | none => s
  | some i =>
    let d := s.desc n i
    let e := s.desc n (mod32 (i + 1))
    let s := { s with la := { s.la with copying := Tbl.del s.la.copying n } }
    let s := s.pokeBytes e.addr (s.peekBytes d.addr d.length)
    ringComplete (ringComplete s n i 0 d.length) n (mod32 (i + 1)) 0 d.length

/-- PUT32. -/
def put32 (s : State) (n : Nat) : State :=
  if !intakeReady s n then s
  else
    let i := (s.ring n).cons
    let d := s.desc n i
    if d.opcode ≠ opPut32 then (if d.opcode = opCopyIn then s else intakeOther s n)
    else if d.addr % 4 ≠ 0 || !intakeDest s d.addr 4 then intakeRefuse s n 0x102
    else ringComplete ((ringTake s n copyAgent).pokeNat d.addr 4 d.length) n i 0 d.length

/-! ### The Catalog window (R45, R414) -/

/-- `n` bytes, 1, 2 or 4, that the host writes through the BAR2 window, at offset `off` of the table: the window shows memory, so that
a narrow write is taken too. -/
def catWindowBytes (s : State) (off n value : Nat) : State :=
  let ch := off / 128
  let a := catBase s + off
  let ro := HdrE.hostRo.on (s.peekBytes (entryAddr s ch) 128)
  if ro || (decide (chRing 6 ≤ ch) && decide (ch ≤ chRing 15)) || (s.mode == modeShadow && mirroredChan ch) || off % n ≠ 0 ||
      catSize ≤ off then s
  else s.pokeBytes a (leBytes n value)

/-- A 32-bit word the host writes through the BAR2 window. -/
def catWindow (s : State) (off value : Nat) : State := catWindowBytes s off 4 value

/-! ### Commands -/

/-- CAT_INVALIDATE. -/
def execCatInvalidate (t channel : Nat) (s : State) : Host.Outcome State Fault Refusal :=
  .next (if bar2Open s then catInvalidate (s.at t) (low 12 channel) else s.at t)

/-- CAT_INVALIDATE_ALL. -/
def execCatInvalidateAll (t : Nat) (s : State) : Host.Outcome State Fault Refusal :=
  .next (if bar2Open s then catInvalidateAll (s.at t) else s.at t)

/-- CAT_LOCK (R22). -/
def execCatLock (t : Nat) (s : State) : Host.Outcome State Fault Refusal :=
  .next (if bar2Open s then (s.at t).wr Reg.CAT_STATUS.cat_lock 0 1 else s.at t)

/-- LEDGER_SNAP_WRITE. -/
def execLedgerSnapWrite (t : Nat) (s : State) : Host.Outcome State Fault Refusal :=
  .next (if bar2Open s then snapAsk (s.at t) else s.at t)

/-- LEDGER_SNAP_COMPLETE: at the latest as the 10 µs of R38 end, the counters stand. -/
def execLedgerSnapComplete (t : Nat) (s : State) : Host.Outcome State Fault Refusal :=
  let s := s.at t
  .next (snapDone (match s.led.asked with
    | some a => if s.led.taken.isNone && decide (a + 10 * usU ≤ s.clk) then s.snapTake true else s
    | none => s))

/-- RING_PRODUCER_WRITE. -/
def execRingProducerWrite (t ring index : Nat) (s : State) : Host.Outcome State Fault Refusal :=
  .next (if bar2Open s && decide (ring < 256) then doorProducer (s.at t) ring (low 32 index) else s.at t)

/-- RING_CONSUMER_WRITE. -/
def execRingConsumerWrite (t ring index : Nat) (s : State) : Host.Outcome State Fault Refusal :=
  .next (if bar2Open s && decide (ring < 256) then doorConsumer (s.at t) ring (low 32 index) else s.at t)

/-- IRQ_HOLDOFF_EXPIRY. -/
def execIrqHoldoffExpiry (t ring : Nat) (s : State) : Host.Outcome State Fault Refusal := .next (holdoffEnd (s.at t) ring)

/-- COPY_IN. -/
def execCopyIn (t ring : Nat) (s : State) : Host.Outcome State Fault Refusal := .next (copyIn (s.at t) ring)

/-- COPY_IN_COMPLETE. -/
def execCopyInComplete (t ring : Nat) (s : State) : Host.Outcome State Fault Refusal := .next (copyDone (s.at t) ring)

/-- PUT32. -/
def execPut32 (t ring : Nat) (s : State) : Host.Outcome State Fault Refusal := .next (put32 (s.at t) ring)

/-- CATALOG_WINDOW_WRITE. -/
def execCatalogWindowWrite (t addr value : Nat) (s : State) : Host.Outcome State Fault Refusal :=
  .next (if bar2Open s then catWindow (s.at t) addr value else s.at t)

end Sys2Proof.Machine
end

