-- ==== Sys2Proof/Machine/Pair.lean ====
section
/-! DEFINITION. The twin pair (R408 to R427): heartbeats, the application of records at the standby, sync and resync, health, takeover,
planned handover, and the handover report. -/

namespace Sys2Proof.Machine

def roleActive : Nat := 1
def roleStandby : Nat := 2

def State.role (s : State) : Nat := s.rd Reg.PAIR_STATUS.role_now
def State.primary (s : State) : Bool := s.on Reg.PAIR_STATUS.primary

/-- The role changes; the AP_ACT_N ball is low while this device drives (Table 17-7). -/
def setRole (s : State) (r : Nat) : State := (s.wr Reg.PAIR_STATUS.role_now 0 r).emit (.ball .apActN (r != roleActive))

/-! ### Heartbeats -/

/-- TWIN_HB on every twin lane in service; what is queued goes out with it, and with nothing else due TWIN_IDLE, one set for the run of them up
to the next command (DESIGN CHOICE, log 135). -/
def twinHbSend (s : State) : State :=
  let role := if s.role = roleActive then 1 else 2
  let fields := role * 2 ^ 46 + s.mode * 2 ^ 42 + s.rd Reg.PAIR_STATUS.in_sync * 2 ^ 41 + s.rd Reg.PAIR_STATUS.self_fit * 2 ^ 40 +
    s.pair.hbSeq % 2 ^ 32 * 256
  let s := twinSet s osTwinHb fields
  let s := { s with pair := { s.pair with hbSeq := (s.pair.hbSeq + 1) % 2 ^ 32 } }.twinPump
  if s.pair.again.isEmpty && s.pair.live.isEmpty && s.pair.resync.isEmpty then twinSet s osTwinIdle 0 else s

/-! ### Health and fitness (R417, R418) -/

/-- Lines a slot holds as shadow lines: parts not acknowledged, and accepted lines to come, in line order. -/
def shadowLines (s : State) (k : Nat) : List Nat :=
  let x := s.slot k
  let past := (x.parts.filter (fun q => decide (q.line < x.next))).map (·.line)
  let ahead := ((List.range (s.la.accepted - x.next)).map (· + x.next)).filter (fun g =>
    !s.la.starved.contains g && match pageOf s g, slotRow s k with
      | some pg, some (p, _) => bit pg.planes p
      | _, _ => false)
  past ++ ahead

/-- A test slice has failed in the last 100 ms. -/
def scribesBad (s : State) : Bool := match s.pair.testBad with | some t => decide (s.clk ≤ t + 100 * msU) | none => false

/-- A scrub pass completed within 1.1 times the period in force. -/
def scrubOk (s : State) : Bool :=
  let h := if s.mode = modeShadow then s.rd Reg.MEM_SCRUB.scrub_shadow_h else s.rd Reg.MEM_SCRUB.scrub_h
  match s.st.scrubDone with | some t => decide (10 * (s.clk - t) ≤ 11 * h * 3600 * secU) | none => false

def spareLanes (s : State) : List Nat := heads48.filter (fun n => s.lstate n == 3)

/-- Bits 1 to 7 of `hflags` (Table 13-3). -/
def hflagsHigh (s : State) : Nat :=
  2 * s.rd Reg.PAIR_STATUS.in_sync + 4 * ofBool s.st.testOk + 8 * ofBool (!(spareLanes s).any (fun n => (s.lane n).isOver)) +
  16 * ofBool (!scribesBad s) + 32 * ofBool (scrubOk s) + 64 * ofBool (!s.on Reg.CL_RECAL_STATUS.xref_fault) +
  128 * ofBool (decide ((twinLanes s).length = 4))

/-- Logical Scribes out of service (R124): physical Scribes retired with no spare to serve for them. -/
def lostScribes (s : State) : Nat := ((List.range 16).filter (fun p => (s.eng p).lost)).length

def fitNow (s : State) : Bool :=
  let f := hflagsHigh s
  (s.role != roleStandby || bit f 1) && (List.range 5).all (fun i => bit f (i + 2)) && lostScribes s == 0 &&
  decide (s.rdi Reg.THERM_STATUS.tj < 16 * (s.rd Reg.THERM_LIMITS.tj_warn : Int)) && s.rd Reg.THERM_STATUS.die_state == 0 &&
  decide ((s.pair.clean.filter (fun c => !c)).length ≤ 2)

def hflags (s : State) : Nat := s.rd Reg.PAIR_STATUS.self_fit + hflagsHigh s

/-- A change of `fit` or `in_sync` on either device is posted (R417), and the wait to restore follows it (R427). -/
def showFlags (s : State) : State :=
  let s := s.wrb Reg.PAIR_STATUS.self_fit 0 (fitNow s)
  let own := hflags s % 4
  let s := if own ≠ s.pair.flags % 4 then
      ({ s with pair := { s.pair with flags := hflags s } }).event 0x0B02 noChan 0 (hflags s) s.pair.partnerFlags else s
  let counts := s.on Reg.PAIR_CFG.revertive &&
    (if s.primary then s.mode == modeShadow && s.on Reg.PAIR_STATUS.in_sync && s.on Reg.PAIR_STATUS.self_fit
     else s.role == roleActive && s.pair.heardSync && s.pair.heardFit)
  let from_ := if !counts then none else match s.pair.wtrFrom with | some t => some t | none => some s.clk
  let fit := if own = 3 then some (s.pair.fitSince.getD s.clk) else none
  { s with pair := { s.pair with wtrFrom := from_, fitSince := fit } }

/-- HEALTH_SEND: the record is made, shown, and sent to the partner. -/
def healthSend (s : State) : State :=
  if !s.on Reg.PAIR_CFG.pair_en then s
  else
    let n := s.pair.faults - s.pair.faultsAt
    let p := { s.pair with hseq := s.pair.hseq + 1, faultsAt := s.pair.faults, clean := ((n == 0) :: s.pair.clean).take 10 }
    let s := showFlags { s with pair := p }
    let body := leBytes 1 (hflags s) ++ leBytes 1 s.mode ++ leBytes 1 (scribeSpares s) ++ leBytes 1 (spareLanes s).length ++
      leBytes 1 s.st.bankSpares.length ++
      leBytes 1 (pipes16.filter (fun q => !s.on Reg.INSP_PIPE_BIND.pbound q && !(s.pipe q).retired && (s.pipe q).bad == 0)).length ++
      leBytes 1 (sensors48.filter (fun k => 1 ≤ s.rd Reg.THERM_SENS.s_state k)).length ++ leBytes 1 (lostScribes s) ++
      leBytes 2 (s.rd Reg.THERM_STATUS.tj) ++ leBytes 2 (sat 16 n) ++ leBytes 4 s.pair.hseq ++ leBytes 8 s.devNs ++ leBytes 8 0
    let s := (List.range 8).foldl (fun s i => s.wr Reg.PAIR_HEALTH_SELF.hs i (leNat ((body.drop (4 * i)).take 4))) s
    ({ s with pair := { s.pair with live := s.pair.live ++ [TwinRec.health body] } }).twinPump

/-- HEALTH from the partner. -/
def healthTake (s : State) (body : List Byte) : State :=
  let s := (List.range 8).foldl (fun s i => s.wr Reg.PAIR_HEALTH_PARTNER.hp i (leNat ((body.drop (4 * i)).take 4))) s
  let f := (body.getD 0 0).toNat
  let s := s.wr Reg.PAIR_STATUS.partner_fit 0 (f % 2)
  let moved := f % 4 != s.pair.partnerFlags % 4
  let s := { s with pair := { s.pair with partnerFlags := f } }
  showFlags (if moved then s.event 0x0B02 noChan 0 (hflags s) f else s)

/-! ### Sync (R416) -/

/-- The standby asks for a resync: its shadow lines, pages and jobs go, and SYNC_MARK 0x1 is sent. -/
def resyncStart (s : State) : State :=
  let s := s.wr Reg.PAIR_STATUS.in_sync 0 0
  let s := slots80.foldl (fun s k => s.setSlot k { s.slot k with parts := [], unreleased := false }) s
  let s := { s with
    la := { s.la with pages := [], jobs := [], changes := [], starved := [], moved := [], accepted := s.la.endLine, stopFrom := none,
                      rowDone := s.la.rowDone.map (fun (r : Nat × Nat) => (r.1, max r.2 s.la.endLine)) }
    fire := { s.fire with w0Set := false }
    pair := { s.pair with live := s.pair.live ++ [TwinRec.syncMark 1], marked := false, held := [], synced := false, lost := false, tally := [] } }
  let s := ((s.wr Reg.LA_STATUS.job_open 0 0).wr Reg.LA_STATUS.queue_free 0 64).count Reg.PAIR_SYNC.resyncs
  (showFlags s).twinPump

/-- The standby loses sync. -/
def loseSync (s : State) : State := if s.role = roleStandby then resyncStart s else s

/-- The contents of an area of memory as STACKS_WRITE records, at most 4,096 bytes of body to each (R411). -/
def areaRecords (s : State) (a n : Nat) : List TwinRec :=
  (List.range ((n + 4087) / 4088)).map (fun i => .stacksWrite (a + 4088 * i) (s.peekBytes (a + 4088 * i) (min 4088 (n - 4088 * i))))

/-- The trims of a density bank as BANK records. -/
def bankRecords (s : State) (p b : Nat) : List TwinRec :=
  let base := s.ent (chPlane p) (if b = 0 then PlaneE.densBase0 else PlaneE.densBase1)
  let size := 6 * s.ent (chPlane p) PlaneE.columns
  (List.range ((size + 4079) / 4080)).map (fun i =>
    .bank p b (4080 * i) (s.peekBytes (rrBase + base + 4080 * i) (min 4080 (size - 4080 * i))))

/-- The page queue with W0, each job's origin with its first page queued. -/
def pageRecords (s : State) : List TwinRec :=
  s.la.pages.map (fun p =>
    let heads := match s.la.pages.find? (fun q => q.jobIdx == p.jobIdx) with | some q => q.first == p.first | none => false
    let w0 := if heads && s.fire.w0Set && (match curJob s with | some j => j.idx == p.jobIdx | none => false)
      then some (refPos s p.base) else none
    .page p.addr (p.first - p.base) w0)

/-- What the active device sends for a resync, in the order of R416. -/
def resyncRecords (s : State) : List TwinRec :=
  let entries := (s.cat.inEffect.filter (fun c => mirroredChan c.1)).map (fun c => TwinRec.entry c.2 0)
  let maps := areaRecords s (substBase s) (0x200000 + 128)
  let banks := ((List.range 16).map (fun p => if s.inUse (chPlane p) then bankRecords s p 0 ++ bankRecords s p 1 else [])).flatten
  let changes := s.la.changes.map (fun x =>
    TwinRec.subst x.isSet (x.nozzle s) (nozzleOf (planeRow s x.plane ((rowsOf s x.plane 2).getD x.spare 0)) x.col) (relLine s x.line))
  let windows := ((List.range 8).map (fun w =>
    areaRecords s (s.rd Reg.PAIR_MIR_BASE.mir_base w * 65536) (s.rd Reg.PAIR_MIR_SIZE.mir_size w * 65536))).flatten
  entries ++ maps ++ banks ++ changes ++ pageRecords s ++ [modeTwin s (s.rd Reg.MODE_CUR.cause) (modeFrom s)] ++ windows ++ [.syncMark 2]

/-- Every sync condition that this device can see, given that the windows are equal and the active device's highest held line. -/
def syncHolds (s : State) (equal : Bool) (reach : Nat) : Bool :=
  s.mode == modeShadow && s.pair.marked && !s.pair.lost && equal && !s.on Reg.PAIR_STATUS.twin_lost &&
  (!s.on Reg.LA_STATUS.job_open || decide (absLine s reach ≤ s.la.accepted + 1))

/-- RESYNC_COMPLETE. -/
def resyncDone (s : State) (equal : Bool) (reach : Nat) : State :=
  if syncHolds s equal reach then
    showFlags ({ s with pair := { s.pair with synced := true } }.wr Reg.PAIR_STATUS.in_sync 0 1)
  else if s.mode == modeShadow && s.on Reg.PAIR_STATUS.in_sync then loseSync s
  else s

/-! ### Records at the receiver (Table 13-2) -/

/-- A record of a change named a line that has passed: the standby loses sync (R416). -/
def lateFor (s : State) (late : Bool) : State := if late && s.on Reg.PAIR_STATUS.in_sync then loseSync s else s

/-- STACKS_WRITE: mirrored data, and at a resync the substitution maps, written as the stream carries them. -/
def recStacks (s : State) (a : Nat) (data : List Byte) : State :=
  if s.role = roleActive || s.frozen then s
  else if areaOf a == .readingRoom || mirrored s a then { s with mem := Mem.write s.mem a data } else s

/-- W0 of the current job is `pos`; lines whose positions the web has passed already are the active device's. -/
def placeLines (s : State) (pos : Int) : State :=
  match curJob s with
  | none => s
  | some j =>
    let s := { s with
      fire := { s.fire with w0 := pos, w0Line := j.base, w0Set := true }
      insp := { s.insp with origins := (j.base, pos) :: s.insp.origins.filter (fun o => decide (o.1 < j.base)) } }
    let pitch : Int := max 1 (s.rd Reg.FS_PITCH.line_pitch)
    let passed (p0 : Int) : Nat := j.base + (if webPos s < p0 then 0 else ((webPos s - p0) / pitch).toNat + 1)
    let s := slots80.foldl (fun s k => s.setSlot k { s.slot k with next := passed (slotPos s k j.base) }) s
    let first := slots80.foldl (fun m k => min m (s.slot k).next) (passed pos)
    let rows := ((List.range 16).map (fun p => rows6.map (fun i => (p, i)))).flatten
    let done := rows.foldl (fun t r => match (planeRow s r.1 r.2).slots with
      | [] => t
      | k :: ks => t.put (6 * r.1 + r.2) (max (Tbl.get 0 t (6 * r.1 + r.2)) (ks.foldl (fun m k => min m (s.slot k).next) (s.slot k).next)))
      s.la.rowDone
    let s := { s with la := { s.la with rowDone := done, accepted := max s.la.accepted first },
                      fire := { s.fire with refNext := passed pos }, pair := { s.pair with catchUp := passed pos } }
    showOrigin (skipGap s)

/-- A record of a resync in progress waits until the windows hold what it names. -/
def holdRecord (s : State) (r : TwinRec) : State := { s with pair := { s.pair with held := s.pair.held ++ [r] } }

/-- PAGE at a standby that has the windows: the page joins the queue unless it is there, and W0 is set. -/
def takePage (s : State) (a first : Nat) (w0 : Option Int) : State :=
  let there := s.la.pages.any (fun p => p.addr == a && p.first - p.base == first)
  let s := if there then s
    else
      let s := if s.la.jobs == [] then { s with pair := { s.pair with tally := [] } } else s
      let s := if s.la.jobs == [] && s.peekNat (a + 6) 1 % 2 == 0 then jobOpen s (s.peekNat (a + 8) 4) (s.peekNat (a + 7) 1) else s
      (pageQueue s a first).1
  match w0 with | some pos => placeLines s pos | none => s

/-- PAGE; while a resync is in progress it waits for the windows. -/
def recPage (s : State) (a first : Nat) (w0 : Option Int) : State :=
  if s.role ≠ roleStandby then s else if !s.pair.marked then holdRecord s (.page a first w0) else takePage s a first w0

/-- SUBST at a standby that has the pages: the change takes effect at the same line. -/
def takeSubst (s : State) (isSet : Bool) (nozzle spare line : Nat) : State :=
  let late := s.on Reg.LA_STATUS.job_open && decide (absLine s line < s.fire.refNext)
  lateFor (if isSet then (substSet s nozzle spare line).1 else (substClr s nozzle line).1) late

/-- SUBST; while a resync is in progress it waits for the pages. -/
def recSubst (s : State) (isSet : Bool) (nozzle spare line : Nat) : State :=
  if s.role ≠ roleStandby then s else if !s.pair.marked then holdRecord s (.subst isSet nozzle spare line)
  else takeSubst s isSet nozzle spare line

/-- BANK: trims of a density bank. -/
def recBank (s : State) (plane bank offset : Nat) (trims : List Byte) : State :=
  if s.role ≠ roleStandby then s
  else
    let base := s.ent (chPlane plane) (if bank = 0 then PlaneE.densBase0 else PlaneE.densBase1)
    s.pokeBytes (rrBase + base + offset) trims

/-- ENTRY: written to this device's table and loaded from the line, frame or servo period named. -/
def recEntry (s : State) (bytes : List Byte) (since : Nat) : State :=
  let ch := HdrE.channel.get bytes
  if s.role ≠ roleStandby || !mirroredChan ch || bytes.length ≠ 128 then s
  else
    let late := decide (0 < since) && decide (since < catCount s ch)
    let s := s.pokeBytes (entryAddr s ch) bytes
    lateFor (catLoad s ch bytes (some since)) late

/-- The word pair of a drive slot in a SETPOINT record: control word and set-point. -/
def setpointWords (s : State) (port : Nat) : List Byte :=
  ((List.range 8).map (fun d => (driveSlot s port d).take 6)).flatten

/-- SETPOINT: each axis of the port takes the profile state that its set-points spell (R414): the least position that gives the set-point
received, speed and acceleration from one period to the next. -/
def recSetpoint (s : State) (port period : Nat) (slots : List Byte) : State :=
  if s.role ≠ roleStandby then s
  else
    let dt := max 1 (s.ent (chDl port) DlE.servoNs)
    let s := s.setDrivePort port { s.drivePort port with period := period }
    (List.range 8).foldl (fun s d =>
      match axisAt s port d with
      | none => s
      | some n =>
        let x := s.axis n
        let control := leNat ((slots.drop (6 * d)).take 2)
        let count := leNat ((slots.drop (6 * d + 2)).take 4)
        let num : Int := max 1 (s.ent (chAxis n) AxisE.cntNum : Int)
        let old := (x.wp + x.shift) * num / max 1 (s.ent (chAxis n) AxisE.cntDen : Int)
        let full := old + signed 32 (unsigned 32 ((count : Int) - old))
        let wp := -(-full * s.ent (chAxis n) AxisE.cntDen / num) - x.shift
        let v := (wp - x.wp) * 1000000000000 / (65536 * (dt : Int))
        let lim : Int := s.ent (chAxis n) AxisE.aMax * unitA
        let a := (v * unitV - x.v) * 62500000 / (dt : Int)
        showAxis (s.setAxis n { x with
          p := wp * unitP, v := v * unitV, a := if v = 0 then 0 else max (-lim) (min lim a), sent := count, sentTo := some (port, d),
          enabled := bit control 0, goal := if v = 0 then .still else .speed v, last := none, behind := false, past := false }) n) s

/-- MODE at the standby: the active device's mode from its line of effect, S and step of REWIND (R62, Table 13-6). -/
def takeMode (s : State) (mode cause line stop step : Nat) : State :=
  let s := { s with md := { s.md with lines := (absLine s line, mode) :: s.md.lines } }
  let s := (s.wr Reg.MODE_CUR.shadow_of 0 mode).wr Reg.MODE_CUR.cause 0 cause
  let s := (s.wr2 Reg.LA_RW_LINE_LO.rw_line_lo Reg.LA_RW_LINE_HI.rw_line_hi 0 stop).wr Reg.LA_STATUS.rw_step 0 step
  let next := absLine s (stop + 1)
  let held := mode == modeRewind || mode == modeHold
  { s with la := { s.la with
    stopFrom := if held && decide (1 ≤ step) && decide (step ≤ 6) then some next else none
    resumeAt := if 7 ≤ step then next else s.la.resumeAt } }

/-- MODE; while a resync is in progress it is taken once more when the pages are there. -/
def recMode (s : State) (mode cause line stop step : Nat) : State :=
  if s.role ≠ roleStandby then s
  else takeMode (if s.pair.marked then s else holdRecord s (.mode mode cause line stop step)) mode cause line stop step

/-- HANDOVER: T, each slot's next tag to send and the credits it holds. One applied after T is void (R422). -/
def recHandover (s : State) (instant : Nat) (slots : List (Nat × Nat)) : State :=
  if s.role ≠ roleStandby || decide (instant < s.devTime) then s else { s with pair := { s.pair with handGot := some (instant, slots) } }

/-- A record that waited for the end of a resync. -/
def takeHeld (s : State) : TwinRec → State
  | .page a f w => takePage s a f w
  | .subst b n p l => takeSubst s b n p l
  | .mode m c l r k => takeMode s m c l r k
  | _ => s

/-- SYNC_MARK: the active device starts a resync; the standby has all of one, and takes the records that waited for it. -/
def recSync (s : State) (kind : Nat) : State :=
  if kind = 1 then
    if s.role = roleActive then ({ s with pair := { s.pair with resync := resyncRecords s } }).twinPump else s
  else if s.role = roleStandby then
    s.pair.held.foldl takeHeld { s with pair := { s.pair with marked := true, held := [] } }
  else s

def applyRecord (s : State) : TwinRec → State
  | .stacksWrite a d => recStacks s a d
  | .page a f w => recPage s a f w
  | .subst b n p l => recSubst s b n p l
  | .bank p b o t => recBank s p b o t
  | .entry b n => recEntry s b n
  | .setpoint p n b => recSetpoint s p n b
  | .mode m c l r k => recMode s m c l r k
  | .health b => healthTake s b
  | .handover t x => recHandover s t x
  | .syncMark k => recSync s k

/-- TWIN_ACK with the highest sequence received in order. -/
def twinAck (s : State) : State :=
  let s := twinSet s osTwinAck ((s.pair.seqIn + 2 ^ 32 - 1) % 2 ^ 32 * 2 ^ 16)
  { s with pair := { s.pair with unacked := 0 } }

/-- TWIN_RECORD_RECEIVE: `good` says that the record's CRC holds. A record that stays missing for 20 µs is lost beyond replay (R412). -/
def recordIn (s : State) (lane seq : Nat) (good : Bool) (r : TwinRec) : State :=
  let behind := diff32 s.pair.seqIn seq
  let s := if good then s else s.count Reg.LANE_FRAME_ERR.frame_err lane
  let s := s.emit (.twinSet lane (orderedSetWord osTwinCredit (r.credits * 2 ^ 32)))
  if good && seq == s.pair.seqIn then
    let s := { s with pair := { s.pair with seqIn := (seq + 1) % 2 ^ 32, unacked := s.pair.unacked + 1, nak := none } }
    let s := applyRecord s r
    if 64 ≤ s.pair.unacked then twinAck s else s
  else if good && decide (0 < behind) && decide (behind < 2 ^ 31) then s
  else
    let since := match s.pair.nak with | some (q, t) => if q = s.pair.seqIn then t else s.clk | none => s.clk
    if good && decide (since + 20 * usU ≤ s.clk) then
      let s := { s with pair := { s.pair with seqIn := (seq + 1) % 2 ^ 32, nak := none, lost := true } }
      applyRecord (loseSync s) r
    else
      let s := twinSet s osTwinNak (s.pair.seqIn % 2 ^ 32 * 2 ^ 16)
      { s with pair := { s.pair with nak := some (s.pair.seqIn, since) } }

/-! ### The sender's side (R411, R412) -/

/-- TWIN_CREDIT on a lane. -/
def twinCredit (s : State) (lane n : Nat) : State :=
  ((s.ledAdd (Led.creditsGranted lane) n).ledAdd (Led.creditsAvailable lane) n).twinPump

/-- TWIN_ACK: records up to a sequence leave the replay buffer. -/
def twinAcked (s : State) (seq : Nat) : State :=
  let open_ (r : Nat × TwinRec) : Bool := decide (2 ^ 31 ≤ diff32 seq r.1)
  showBacklog { s with pair := { s.pair with replay := s.pair.replay.filter open_, again := s.pair.again.filter open_ } }

/-- TWIN_NAK: records from a sequence go out again, as far as the buffer holds them, as soon as lanes have credits for them. -/
def twinNaked (s : State) (seq : Nat) : State :=
  ({ s with pair := { s.pair with again := s.pair.replay.filter (fun r => decide (diff32 r.1 seq < 2 ^ 31)) } }).twinPump

/-! ### Roles -/

/-- The Drive Link ports leave high impedance: those that link up send their loop-back frame (R284, Table 17-7). -/
def linksGo (s : State) : State :=
  (List.range 4).foldl (fun s k => if s.rd Reg.DL_STATE.dl_link k = 1 then loopSend s k else s) s

/-- RELOAD ends with this device active, or single (R409). -/
def goIdle (s : State) : State :=
  let s := if s.on Reg.PAIR_CFG.pair_en then setRole s roleActive else setRole s 0
  let s := { s with pair := { s.pair with reloadEnd := none } }
  linksGo (moveMode s modeIdle causeReset 0)

/-- SHADOW takes effect; `shadow_of` is the active device's mode. -/
def enterShadow (s : State) (of cause : Nat) : State :=
  let old := s.mode
  let s := keepopenStopAll { s with md := { s.md with pending := [], heard := of } }
  let s := (setRole (setMode s modeShadow cause) roleStandby).wr Reg.MODE_CUR.shadow_of 0 of
  modeEvent s modeShadow old cause (nextDue s)

/-- TWIN_HB received: `alike` says that the partner is strapped alike (R408). A mode of the active device other than the last one heard shows in
`shadow_of`; the same one again leaves the target of an epoch recorded there (R62). -/
def twinHb (s : State) (word : Nat) (alike : Bool) : State :=
  match backSet osTwinHb word with
  | none => s
  | some f =>
    let role := bits f 46 2
    let mode := bits f 42 4
    let missed := match s.pair.heardAt with | some t => (s.clk - t) / usU - 1 | none => 0
    let s := if 0 < missed then s.count Reg.PAIR_TWIN.hb_miss 0 missed else s
    let s := { s with pair := { s.pair with
        heardAt := some s.clk, heardRole := role, heardSync := bit f 41, heardFit := bit f 40, seen := true,
        syncAtHb := s.on Reg.PAIR_STATUS.in_sync, watch := if s.pair.watch = 1 then 0 else s.pair.watch } }
    let news := role == roleActive && mode != s.md.heard
    let s := if role = roleActive then { s with md := { s.md with heard := mode } } else s
    let s := (s.wr Reg.PAIR_STATUS.partner_seen 0 1).wr Reg.PAIR_STATUS.partner_mode 0 mode
    let s := if s.mode = modeShadow && news then s.wr Reg.MODE_CUR.shadow_of 0 mode else s
    let s := if alike then s.wr Reg.PAIR_STATUS.role_clash 0 1 else s
    let back := s.on Reg.PAIR_STATUS.twin_lost && decide (3 ≤ (twinLanes s).length)
    let s := if back then s.wr Reg.PAIR_STATUS.twin_lost 0 0 else s
    let s := if back then loseSync s else s
    if s.mode = modeReload && s.pair.reloadEnd.isSome && role = roleActive && !s.on Reg.PAIR_STATUS.role_clash then
      let of := mode
      resyncStart (enterShadow { s with pair := { s.pair with reloadEnd := none } } of causeReset)
    else showFlags s

/-- RELOAD_END in a pair or alone; in a pair the partner's heartbeat decides. -/
def reloadPair (s : State) : State :=
  if !s.on Reg.PAIR_CFG.pair_en then goIdle s
  else { s with pair := { s.pair with reloadEnd := some s.clk, seen := false } }

/-- No ACTIVE heartbeat came within 10 ms (primary), or none at all within 200 ms (secondary). -/
def heartbeatWaited (s : State) : State :=
  match s.pair.reloadEnd with
  | none => s
  | some t =>
    if s.mode ≠ modeReload || s.on Reg.PAIR_STATUS.role_clash then s
    else if s.primary && decide (t + 10 * msU ≤ s.clk) then goIdle s
    else if !s.primary && decide (t + 200 * msU ≤ s.clk) && !s.pair.seen then goIdle s
    else s

/-! ### Loss of the link and takeover (R413, R419, R420) -/

/-- No TWIN_HB for 4.0 µs; where none ever came, since the end of RELOAD. -/
def silent (s : State) : Bool :=
  match s.pair.heardAt, s.pair.reloadEnd with
  | some t, _ => decide (t + 4 * usU ≤ s.clk)
  | none, some t => decide (t + 4 * usU ≤ s.clk)
  | none, none => s.mode != modeCold && s.mode != modeReload

/-- The link is lost by silence, or with fewer than three lanes in service (R413). A silence that begins starts the test of R419 by `in_sync` as
the last TWIN_HB found it, whether or not the link was lost before. -/
def twinSilence (s : State) : State :=
  if !s.on Reg.PAIR_CFG.pair_en then (if silent s then s.wr Reg.PAIR_STATUS.partner_seen 0 0 else s)
  else
    let begins := silent s && s.on Reg.PAIR_STATUS.partner_seen
    let s := if silent s then s.wr Reg.PAIR_STATUS.partner_seen 0 0 else s
    let lost := !s.on Reg.PAIR_STATUS.twin_lost && (silent s || decide ((twinLanes s).length < 3))
    let lanes := (twinLanes s).foldl (fun m n => m + 2 ^ (n - 48)) 0
    let s := if lost then (s.wr Reg.PAIR_STATUS.twin_lost 0 1).event 0x0B01 noChan 0 lanes 0 else s
    if s.role ≠ roleStandby then (if lost then showFlags s else s)
    else if begins && s.pair.syncAtHb then { s with pair := { s.pair with watch := 1 } }
    else if begins then loseSync (s.event 0x0B04 noChan 0 0 0)
    else if lost then loseSync s
    else s

/-- Every module of a valid slot shows no ACTIVE from the other group. -/
def othersUnheard (s : State) : Bool :=
  slots80.all (fun k => !s.inUse (chSlot k) || match (s.slot k).status with
    | some b => !bit b (if s.primary then 1 else 0)
    | none => false)

/-- The lowest line of a slot's phase held as a shadow line (R423), the next line where there is none. -/
def handoverLine (s : State) (k : Nat) : Nat :=
  match slotRow s k with
  | none => (s.slot k).next
  | some (p, i) =>
    match (shadowLines s k).filter (fun g => inPhase s p i g || decide (g < (s.slot k).next)) with
    | [] => (s.slot k).next
    | g :: gs => gs.foldl min g

/-- Of a slot: lines of its job below `n_s` whose start-of-scan has not passed, empty parts of the old active device. -/
def emptiesBelow (s : State) (k ns : Nat) : List Nat := (shadowLines s k).filter (fun g => decide (g < ns))

def jobIdxOf (s : State) (g : Nat) : Nat := match pageOf s g with | some p => p.jobIdx | none => (curJob s).elim 0 (·.idx)

/-- n_s of a slot, as PAIR_HANDOVER shows it, relative to its job. -/
def setNs (s : State) (k ns lines drops : Nat) : State :=
  let s := s.wr2 Reg.PAIR_HANDOVER_LO.ns_lo Reg.PAIR_HANDOVER_HI.ns_hi k (relLine s ns)
  { s with pair := { s.pair with ns := s.pair.ns.put k (relLine s ns), hoLines := s.pair.hoLines.put k lines,
                                 hoSkipped := s.pair.hoSkipped.put k 0, hoDrops := s.pair.hoDrops.put k drops } }

/-- What an empty part of the failed device counts as: fired, or withheld while the slot's temperature state forbids charge (R424). -/
def emptyFate (s : State) (k : Nat) : Nat → Nat := if tempForbids s k then Led.linesWithheld else Led.linesFired

/-- The new active device counts a slot's shadow lines from n_s on as offered and held, with their drops (R423); one with a band fault whose
start-of-scan has not passed is withheld at once, as at decode (Table 4-15). -/
def takeSlot (s : State) (k : Nat) : State :=
  let ns := handoverLine s k
  let s := (emptiesBelow s k ns).foldl (fun s g => s.tally (jobIdxOf s g) (emptyFate s k k) 1) s
  let lines := (shadowLines s k).filter (fun g => decide (ns ≤ g))
  let parts := (s.slot k).parts.filter (fun q => decide (ns ≤ q.line))
  let s := lines.foldl (fun s g => countLines (countLines s (jobIdxOf s g) [k] Led.linesOffered) (jobIdxOf s g) [k] Led.linesHeld) s
  let s := (parts.filter (fun q => q.fault && q.sosAt.isNone)).foldl (fun s q => moveLine s q.jobIdx k Led.linesWithheld) s
  let s := parts.foldl (fun s q =>
    countDrops (countDrops s q.jobIdx q.plane q.drops Led.dropsOffered) q.jobIdx q.plane q.drops Led.dropsHeld) s
  let x := s.slot k
  let s := s.setSlot k { x with
    unreleased := true, ownFrom := ns, parts := x.parts.map (fun q => if q.sosAt.isSome then { q with taken := true } else q) }
  setNs s k ns lines.length (parts.foldl (fun n q => n + q.drops) 0)

/-- Drops moved to spare rows that have not decoded their lines yet are held as well. -/
def takeMoved (s : State) : State :=
  s.la.moved.foldl (fun s m =>
    if rowDone s (m.1 / 6) (m.1 % 6) ≤ m.2.1 then
      let idx := jobIdxOf s m.2.1
      countDrops (countDrops s idx (m.1 / 6) m.2.2 Led.dropsOffered) idx (m.1 / 6) m.2.2 Led.dropsHeld
    else s) s

/-- The back-up distance of R162 from where the web stands. -/
def backFrom (s : State) : State :=
  { s with la := { s.la with backUp := webPos s - runUpStart s (refPos s s.fire.refNext) } }

/-- REWIND goes on at the step that MODE records carried, with the same S (Table 13-6). A dwell begins again, and a back-up goes to the place of
R162 (DESIGN CHOICE, log 135: no record carries how far they had come). -/
def rewindTake (s : State) : State :=
  let step := s.rd Reg.LA_STATUS.rw_step
  if step = 2 then webStop s
  else if step = 3 then dwell (backFrom s)
  else if step = 4 then backUp (backFrom s)
  else if step = 5 then dwell s
  else if step = 6 then leadCheck s
  else if step = 7 ∨ step = 8 then webRun s (vJob s)
  else s

/-- The web's origin as a job is taken over: the one carried, or a new one. -/
def originTake (s : State) : State := if s.on Reg.LA_STATUS.job_open && !s.fire.w0Set then setOrigin s else s

/-- What the mode taken over starts here (R62, R420, R428): printing goes on at v_job under the THROTTLE law, from the origin carried or a new
one; REWIND at its step; HOLD and ORDERLY_STOP begin anew, the latter with the page in progress for its last (DESIGN CHOICE, log 135: no record
carries its stop line). -/
def modeTake (s : State) (m : Nat) : State :=
  if isPrinting m then
    let s := originTake (s.setAxis 0 { s.axis 0 with velCmd := vJob s })
    if s.on Reg.LA_STATUS.job_open then axisRun s 0 (webCommand s) else s
  else if m = modeService ∨ m = modeCalibrate then originTake s
  else if m = modeRewind then rewindTake s
  else if m = modeHold then webStop { s with la := { s.la with holdAt := s.clk } }
  else if m = modeStop then
    let s := if s.on Reg.LA_STATUS.job_open then setStopFrom s (lineAfterPage s) else s
    stopAdvance (setStep { s with la := { s.la with stopStage := 1 }, mot := { s.mot with capping := 0 } } 0)
  else s

/-- The target of a move of axes 1 to 15 is in no record: they come to standstill under their limits (DESIGN CHOICE, log 135). -/
def axesTake (s : State) : State :=
  axes16.foldl (fun s n => if n ≠ 0 && !(s.axis n).atRest then axisStop s n else s) s

/-- This device becomes the active one: it leaves SHADOW for the mode the active device was in, and counts its lines. `kind` is
`ho_kind` of the report. -/
def becomeActive (s : State) (kind : Nat) : State :=
  let m := s.rd Reg.MODE_CUR.shadow_of
  let m := if m = 0 then modeIdle else m
  let s := setMode s m causeSwitch
  let s := { s with fire := { s.fire with silent := false }, md := { s.md with lines := (s.fire.refNext, m) :: s.md.lines } }
  let s := modeEvent (setRole s roleActive) m modeShadow causeSwitch (nextDue s)
  let s := takeMoved (slots80.foldl (fun s k => if (slotRow s k).isSome then takeSlot s k else s) s)
  let s := slots80.foldl (fun s k =>
    if s.inUse (chSlot k) then
      let s := usageClear s k
      s.setSlot k { s.slot k with graceTo := some (s.clk + secU), unitsSent := 0 }
    else s) s
  let s := axesTake (modeTake s m)
  let s := s.count Reg.PAIR_STATUS.switchovers
  let s := { s with pair := { s.pair with
      watch := 0, hoKind := kind, hoSide := 1, hoTime := s.devTime, hoJob := (curJob s).elim 0 (·.id), hoPage := (s.la.lastPage, lineStat s 5),
      reportAt := some s.clk, handGot := none, replay := [], again := [], live := [], resync := [], held := [] } }
  let s := (s.wr Reg.PAIR_STATUS.in_sync 0 0).event 0x0B03 noChan 0 kind (s.rd Reg.PAIR_STATUS.switchovers)
  heartbeat (showFlags s)

/-- SWITCHOVER: the takeover after a failure (R420). -/
def switchover (s : State) : State :=
  if s.mode = modeShadow && (s.pair.watch == 2 || (s.pair.watch == 1 && silent s && othersUnheard s)) &&
      !s.on Reg.PAIR_STATUS.role_clash then
    let s := becomeActive s (if s.pair.watch == 2 then 2 else 1)
    slots80.foldl (fun s k =>
      if s.inUse (chSlot k) && linkUp s k then linkInit (s.setSlot k { s.slot k with credits := 0 }) k else s) s
  else s

/-- TWIN_FAIL received. -/
def twinFailed (s : State) : State :=
  if s.role ≠ roleStandby then s
  else if s.pair.syncAtHb then { s with pair := { s.pair with watch := 2 } }
  else loseSync (s.event 0x0B04 noChan 0 0 0)

/-- STATUS from a module: its bits [54:48], and a standby that waits for confirmation sees whether the other group is heard. -/
def slotStatus (s : State) (k f : Nat) : State :=
  let s := s.setSlot k { s.slot k with status := some (bits f 40 7) }
  let late := match s.pair.heardAt with | some t => decide (t + 7 * usU ≤ s.clk) | none => false
  if s.pair.watch = 1 && late && !othersUnheard s then loseSync { s with pair := { s.pair with watch := 0 } } else s

/-- A shadow line, or a line taken over, whose REL_ACK was not heard within 50 µs of its start-of-scan (R415, R423). -/
def shadowLate (s : State) (k : Nat) : State :=
  match (s.slot k).parts.find? (fun q => match q.sosAt with | some t => decide (t + 50 * usU ≤ s.clk) | none => false) with
  | none => s
  | some q =>
    if s.mode = modeShadow then
      setFate (tallyLine (dropPart s k q.line) q.jobIdx k q.plane q.drops Led.linesWithheld Led.dropsWithheld) k q.line fateWithheld
    else if q.taken then
      let s := dropPart s k q.line
      let s := countLines (moveLine s q.jobIdx k Led.linesSkipped) q.jobIdx [k] Led.linesSwitchover
      let s := moveDrops s q.jobIdx q.plane q.drops Led.dropsSkipped
      let s := { s with pair := { s.pair with hoSkipped := s.pair.hoSkipped.put k (Tbl.get 0 s.pair.hoSkipped k + 1) } }
      markLine (setFate s k q.line fateSkipped) q.line (markSpoilt + causeSwitchover)
    else s

/-! ### The handover report (R425) -/

def reportBase (s : State) : Nat := s.rd Reg.PAIR_REPORT_BASE_LO.rep_lo * 64 + s.rd Reg.PAIR_REPORT_BASE_HI.rep_hi * 2 ^ 32

/-- Table 13-5. -/
def handoverReport (s : State) : List Byte :=
  let p := s.pair
  let failed := p.hoSide == 1 && p.hoKind != 3
  let idx := (s.la.jobs ++ s.la.closed).find? (fun j => j.id == p.hoJob) |>.elim 0 (·.idx)
  let old (key w : Nat) : List Byte := leBytes w (if failed then Tbl.get 0 p.tally (jobKey idx key) else 0)
  let head := stamp p.hoTime ++ leBytes 1 p.hoKind ++ leBytes 1 p.hoSide ++ leBytes 2 0 ++ leBytes 4 p.hoJob ++ leBytes 4 p.hoPage.1 ++
    leBytes 6 p.hoPage.2 ++ leBytes 34 0
  let slots := (slots80.map (fun k =>
    leBytes 6 (Tbl.get 0 p.ns k) ++ leBytes 4 (Tbl.get 0 p.hoLines k) ++
    leBytes 4 (if p.hoSide = 1 then Tbl.get 0 p.hoSkipped k else 0) ++ leBytes 8 (Tbl.get 0 p.hoDrops k) ++ leBytes 10 0)).flatten
  let olds := (slots80.map (fun k =>
    old (Led.linesFired k) 6 ++ old (Led.linesSkipped k) 6 ++ old (Led.linesWithheld k) 6 ++ leBytes 14 0)).flatten
  let planes := ((List.range 16).map (fun q =>
    old (Led.dropsFired q) 8 ++ old (Led.dropsSkipped q) 8 ++ old (Led.dropsWithheld q) 8 ++ leBytes 8 0)).flatten
  head ++ slots ++ olds ++ planes

/-- HANDOVER_REPORT: written at PAIR_REPORT_BASE and posted on ring 0x05. -/
def reportWrite (s : State) : State :=
  match s.pair.reportAt with
  | none => s
  | some t =>
    if s.clk < t + (if s.pair.hoSide = 1 then 100 * usU else 0) then s
    else
      let s := s.pokeBytes (reportBase s) (handoverReport s)
      let s := { s with pair := { s.pair with reportAt := none } }
      if s.ringOpen 5 then
        ringPost s 5 { addr := reportBase s, length := 5696, opcode := 0x0505, irq := true, chain := false,
                       tag := s.rd Reg.PAIR_STATUS.switchovers, status := 0, result := 0 }
      else s

/-! ### Planned handover (R422) -/

/-- The modes in which no planned handover runs (R422), those included from which Table 2-2 has no transition to SHADOW. -/
def modeKeepsRole (m : Nat) : Bool :=
  m == modeRewind || m == modeHold || m == modeStop || m == modeService || m == modeCalibrate

def handBarred (s : State) : Bool := modeKeepsRole s.mode

/-- R422 allows a handover now. -/
def handAllowed (s : State) : Bool := s.role == roleActive && partnerReady s && !handBarred s

/-- The first line of the first queued page that lies at least 200 µs ahead. -/
def handPage (s : State) : Option Nat :=
  let v := webSpeed s
  let far (g : Nat) : Bool := decide (0 < v) && decide (v * 200 * 4294967296 ≤ (refPos s g - webPos s) * 1000000000)
  (s.la.pages.find? (fun p => decide (s.fire.refNext ≤ p.first) && far p.first)).map (·.first)

/-- T is fixed once it can be. -/
def handPlan (s : State) : State :=
  let p := s.pair
  if p.handWait = 0 || p.handAt.isSome || p.handLine.isSome || !handAllowed s then s
  else if p.handWait = 2 || !s.on Reg.LA_STATUS.job_open then { s with pair := { p with handAt := some (s.clk + 200 * usU) } }
  else match handPage s with
    | some g => { s with pair := { p with handLine := some g } }
    | none => s

/-- A handover is asked for: 1 at the next page boundary, 2 now; `reset` where a warm reset follows. One asked for now takes the place of a
page boundary planned, unless its HANDOVER is out (R421). -/
def handAsk (s : State) (kind : Nat) (reset : Bool) : State :=
  let p := if kind = 2 && s.pair.handSeq.isNone then { s.pair with handAt := none, handLine := none } else s.pair
  handPlan { s with pair := { p with handWait := kind, handReset := reset || p.handReset } }

/-- The handover is abandoned: both devices keep their roles. -/
def handDrop (s : State) : State :=
  let s := slots80.foldl (fun s k => s.setSlot k { s.slot k with handed := none }) s
  { s with pair := { s.pair with handWait := 0, handAt := none, handLine := none, handSeq := none, handReset := false } }

/-- T lies at most 20 µs ahead. -/
def handNear (s : State) : Option Nat :=
  match s.pair.handAt, s.pair.handLine with
  | some t, _ => if t ≤ s.clk + 20 * usU then some t else none
  | none, some g =>
    let v := webSpeed s
    let d := refPos s g - webPos s
    if 0 < v ∧ d * 1000000000 ≤ v * 20 * 4294967296 then some (s.clk + 20 * usU) else none
  | none, none => none

/-- HANDOVER_SEND: each slot's next line to send and its credits go to the partner; no frame of it or a later line follows. In a mode that allows
no handover it waits, and T is fixed anew (R422). -/
def handSend (s : State) : State :=
  match handNear s with
  | none => s
  | some t =>
    if s.pair.handSeq.isSome || s.role ≠ roleActive then s
    else if handBarred s then { s with pair := { s.pair with handAt := none, handLine := none } }
    else
      let s := slots80.foldl (fun s k => s.setSlot k { s.slot k with handed := some (firstUnsent s k) }) s
      let slots := slots80.map (fun k => (relLine s ((s.slot k).handed.getD 0), (s.slot k).credits))
      let seq := (s.pair.seqOut + s.pair.live.length) % 2 ^ 32
      ({ s with pair := { s.pair with live := s.pair.live ++ [TwinRec.handover (s.devAt t) slots], handSeq := some seq } }).twinPump

/-- The HANDOVER record has been applied: the partner acknowledged it. -/
def handApplied (s : State) : Bool :=
  match s.pair.handSeq with
  | some q => !(s.pair.replay.any (fun r => r.1 == q)) && !(s.pair.live.any (fun r => match r with | .handover _ _ => true | _ => false))
  | none => false

/-- The old active device gives up a slot: held lines from n_s on become withheld, empty ones below it fired; the credits move. -/
def giveSlot (s : State) (k : Nat) : State :=
  let ns := handoverLine s k
  let below := emptiesBelow s k ns
  let s := below.foldl (fun s g => moveOwn s (jobIdxOf s g) k g (if chargeForbidden s k then Led.linesWithheld else Led.linesFired)) s
  let parts := (s.slot k).parts
  let n := (s.la.jobs.map (fun j => s.ledGet (jobKey j.idx (Led.linesHeld k)))).foldl (· + ·) 0
  let s := s.la.jobs.foldl (fun s j =>
    s.ledMove (jobKey j.idx (Led.linesHeld k)) (jobKey j.idx (Led.linesWithheld k)) (s.ledGet (jobKey j.idx (Led.linesHeld k)))) s
  let x := s.slot k
  let lane := slotLane s k
  let s := (s.ledAdd (Led.creditsUsed lane) x.credits).ledPut (Led.creditsAvailable lane) (s.ledGet (Led.creditsAvailable lane) - x.credits)
  let s := s.setSlot k { x with
    credits := 0, handed := none, unreleased := false, ownFrom := ns,
    parts := parts.map (fun q => match q.released with | some t => { q with released := none, sosAt := some t } | none => q) }
  setNs s k ns n (parts.foldl (fun m q => m + q.drops) 0)

/-- This device gives the press to its partner at T: HEARTBEAT STANDBY, SHADOW, and its report at once. -/
def handOver (s : State) : State :=
  let s := { s with pair := { s.pair with
    hoKind := 3, hoSide := 2, hoTime := s.devTime, hoJob := (curJob s).elim 0 (·.id), hoPage := (s.la.lastPage, lineStat s 5) } }
  let s := slots80.foldl (fun s k => if (slotRow s k).isSome then giveSlot s k else s) s
  let s := s.la.jobs.foldl (fun s j => (List.range 16).foldl (fun s p =>
    moveDrops s j.idx p (s.ledGet (jobKey j.idx (Led.dropsHeld p))) Led.dropsWithheld) s) s
  let reset := s.pair.handReset
  let s := enterShadow (handDrop s) s.mode causeSwitch
  let s := s.count Reg.PAIR_STATUS.switchovers
  let s := { s with pair := { s.pair with reportAt := some s.clk, synced := true, marked := true, lost := false, tally := [], handReset := reset } }
  let s := (s.wr Reg.PAIR_STATUS.in_sync 0 1).event 0x0B03 noChan 0 3 (s.rd Reg.PAIR_STATUS.switchovers)
  reportWrite (heartbeat (showFlags s))

/-- T has come: the instant itself, or the reference row has reached line B. -/
def handDue (s : State) : Bool :=
  match s.pair.handAt, s.pair.handLine with
  | some t, _ => decide (t ≤ s.clk)
  | none, some g => decide (g ≤ s.fire.refNext) && decide (refPos s g ≤ webPos s)
  | none, none => false

/-- HANDOVER_TAKE: a handover that its mode made the active device abandon is void here too; otherwise this device continues each slot from the handed line with the handed credits, and sends no LINK_INIT. -/
def handTake (s : State) : State :=
  match s.pair.handGot with
  | none => s
  | some (t, slots) =>
    if s.mode ≠ modeShadow || s.devTime < t + usU / 2 then s
    else if modeKeepsRole (s.rd Reg.MODE_CUR.shadow_of) then { s with pair := { s.pair with handGot := none } }
    else
      let s := slots80.foldl (fun s k =>
        let x := s.slot k
        let (tag, n) := slots.getD k (0, 0)
        let g := absLine s tag
        let lane := slotLane s k
        let s := s.setSlot k { x with
          credits := n, parts := x.parts.map (fun q => if q.line < g then { q with sent := lineFrames s k } else { q with sent := 0 }) }
        (s.ledAdd (Led.creditsGranted lane) n).ledAdd (Led.creditsAvailable lane) n) s
      becomeActive s 3

/-- WTR_EXPIRY: at the secondary the active role goes back at the next page boundary (R427). -/
def wtrEnd (s : State) : State :=
  match s.pair.wtrFrom with
  | some t =>
    if t + s.rd Reg.PAIR_CFG.wtr_s * secU ≤ s.clk && s.role == roleActive && !s.primary && s.pair.handWait == 0 then handAsk s 1 false else s
  | none => s

/-- Seconds left of the wait to restore, 0 when not counting. -/
def wtrLeft (s : State) : Nat :=
  match s.pair.wtrFrom with
  | some t => s.rd Reg.PAIR_CFG.wtr_s - (s.clk - t) / secU
  | none => 0

/-- PAIR_CMD. A yield waits for a mode that allows it (R422). -/
def pairCommand (s : State) (op : Nat) : State :=
  if op = 3 then loseSync s
  else if (op = 1 || op = 2) && s.role == roleActive && partnerReady s && s.pair.handWait == 0 then handAsk s op false
  else s

end Sys2Proof.Machine
end

