-- ==== Sys2Proof/Machine/Lines.lean ====
section
/-! DEFINITION. Lines as they pass (R36 to R40, R145, R153 to R165, R170 to R206): the reference-row start-of-scan and what hangs on it,
the slots' start-of-scans, what every line event may end, and the commands of the fire path. -/

namespace Sys2Proof.Machine

/-! ### After a line event -/

/-- The last queued job has closed: a run stops in order, a service or calibration job gives IDLE (Table 2-2). -/
def jobsOver (s : State) : State :=
  if inRun s.mode then requestStop s causeJobEnd s.fire.refNext
  else if s.mode == modeService || s.mode == modeCalibrate then requestMode s modeIdle causeJobEnd
  else s

/-- SERVICE or CALIBRATE ends once every slot has disposed of its last line of the folio (R441). -/
def serviceOver (s : State) : State :=
  if s.md.idleAfter.isSome && stopLinePassed s && slotsDone s then requestMode { s with md := { s.md with idleAfter := none } } modeIdle causeDie
  else s

/-- What a line event may bring to its end: pages, jobs, the zone of the lead, the steps of REWIND and ORDERLY_STOP, HOLD (R165), and
transitions and entries that no boundary holds back any longer. -/
def State.lineEnd (s : State) : State :=
  let was := s.on Reg.LA_STATUS.job_open
  let s := leadUpdate (leadUpdate s).retirePages
  let s := serviceOver (stopAdvance (rewindAdvance s))
  let s := if was && !s.on Reg.LA_STATUS.job_open then jobsOver s else s
  let s := if s.mode == modeHold && isGreen s && s.on Reg.LA_STATUS.job_open then requestMode s modeRewind causeLead else s
  s.settle.catSettle

/-! ### The reference row -/

/-- The interval since the last start-of-scan at the reference row (R174). -/
def refInterval (s : State) (g : Nat) : State :=
  let gap := s.fire.refAt.map (fun t => s.clk - t)
  let early := match gap, s.fire.refGap with
    | some a, some b => decide (a * 100 < (100 - s.rd Reg.FS_SOS_CHECK.sos_tol) * b)
    | _, _ => false
  let s := { s with fire := { s.fire with refAt := some s.clk, refGap := gap, missed := false } }
  if early then
    let s := (s.wr Reg.FS_FLAGS.sos_early 0 1).count Reg.FS_SOS_COUNT.early
    let told := match s.fire.earlyAt with | some t => decide (s.clk < t + msU) | none => false
    if told then s
    else ({ s with fire := { s.fire with earlyAt := some s.clk } }).event 0x0302 noChan (relLine s g) (s.rd Reg.FS_SOS_COUNT.early) 0
  else s

/-- REWIND is requested at a red lead: S is the highest line accepted (R160). Where no line of the job is accepted yet, S + 1 is its line 0 and
LA_RW_LINE reads 0 (DESIGN CHOICE, log 134). -/
def rewindAsk (s : State) : State :=
  let next := s.la.accepted
  let stop := match curJob s with | some j => if j.base < next then relLine s (next - 1) else 0 | none => 0
  let s := s.wr2 Reg.LA_RW_LINE_LO.rw_line_lo Reg.LA_RW_LINE_HI.rw_line_hi 0 stop
  requestMode (setStep (setStopFrom s next) 1) modeRewind causeLead (some next)

/-- Under policies 2 and 3 the next line comes to the reference row before it is accepted: it is S + 1 or beyond, and stays held (R159, R160).
SERVICE and CALIBRATE, which have no REWIND, let it starve (DESIGN CHOICE, log 134). -/
def outrun (s : State) : Bool :=
  let p := policyOf s
  s.on Reg.LA_STATUS.job_open && (p == 2 || p == 3) && decide (s.la.accepted ≤ s.fire.refNext) &&
  (isPrinting s.mode || (s.mode == modeRewind && s.rd Reg.LA_STATUS.rw_step == 7) || s.mode == modeStop)

/-- The line that comes too early is held: printing stops before it by REWIND, ORDERLY_STOP by an earlier stop line. -/
def holdBefore (s : State) : State :=
  if s.mode = modeStop then setStopFrom s s.la.accepted else rewindAsk s

/-- The lead calls for REWIND or THROTTLE at a start-of-scan of the reference row (R158, R160). -/
def leadCalls (s : State) : State :=
  let p := policyOf s
  let step := s.rd Reg.LA_STATUS.rw_step
  if noRescue s || !s.on Reg.LA_STATUS.job_open then s
  else if isPrinting s.mode && (p == 2 || p == 3) && isRed s && (step == 0 || step == 8) then rewindAsk s
  else if s.mode == modePrint && (p == 1 || p == 3) && belowAmber s then requestMode s modeThrottle causeLead
  else s

/-- Line S + 1 has come again (Table 4-14, steps 7 and 8). -/
def resumeLine (s : State) (g : Nat) : State :=
  if s.rd Reg.LA_STATUS.rw_step ≠ 7 then s
  else if s.mode = modeRewind then requestMode { s with la := { s.la with resumeAt := g } } modePrint causeLead (some g)
  else setStep { s with la := { s.la with resumeAt := g } } 8

/-- The GP-40's line counter, underrun and page end (R491, R492, Table 16-2). -/
def gpLine (s : State) (g : Nat) : State :=
  if !s.gp40 then s
  else match pageOf s g with
  | none => s
  | some p =>
    let n := (s.rd Reg.GP_LINE_COUNT.line_count + 1) % 2 ^ 24
    let s := s.wr Reg.GP_LINE_COUNT.line_count 0 n
    let s := if n = 0 then gpInt s Reg.GP_INT_STAT.line_wrap else s
    let starved := decide (s.la.accepted ≤ g)
    let s := s.wrb Reg.GP_STATUS.starving 0 starved
    let s := if starved then gpInt (s.count Reg.GP_UNDERRUN.underrun_lines) Reg.GP_INT_STAT.underrun else s
    if g = p.last then gpInt s Reg.GP_INT_STAT.page_done else s

/-- Channels whose entries change at the line boundary of the reference row: planes, and lanes outside a move (R27, R397). -/
def lineChannels (s : State) : List Nat :=
  (List.range 16).map chPlane ++
  (lane52.filter (fun n => !s.ln.moves.any (fun m => m.a == n || m.b == n))).map chLane

/-- REFERENCE_START_OF_SCAN of the next line due (R172): snapshot, capture, interval check, triggers, entries, transitions, epoch,
and the lead's calls, which take effect at the next line. -/
def refSos (s : State) : State :=
  let g := s.fire.refNext
  if outrun s then lineBoundary (holdBefore s) g
  else
  let n := relLine s g
  let s := if s.led.asked.isSome && s.led.taken.isNone then s.snapTake false else s
  let s := refInterval (s.capture 0 s.devTime) g
  let s := triggerSlices s 3 (fun a => a != 0 && n % a == 0)
  let s := (lineChannels s).foldl catApply s
  let s := lineBoundary (resumeLine s g) g
  let s := gpLine { s with fire := { s.fire with refNext := g + 1 } } g
  handPlan (leadCalls s)

/-- SOS_MISSING (R175). -/
def sosMissing (s : State) : State :=
  let v : Int := match (s.axis 0).goal with | .speed x => x | _ => 0
  let v := v.toNat
  match s.fire.refAt with
  | none => s
  | some t =>
    let gap := s.rd Reg.FS_SOS_CHECK.miss_mult * s.rd Reg.FS_PITCH.line_pitch * 1000000000000 / (max 1 v * 65536)
    if isPrinting s.mode && !s.fire.missed && decide (s.rd Reg.FS_VMIN.v_min * 1000 ≤ v) && decide (t + gap ≤ s.clk) then
      let s := { s with fire := { s.fire with missed := true } }
      ((s.wr Reg.FS_FLAGS.sos_missing 0 1).count Reg.FS_SOS_COUNT.missing).event 0x0303 noChan (relLine s (s.fire.refNext - 1)) 0 0
    else s

/-! ### Positions crossed in one update (R171, R173) -/

/-- Lines from `pos` on that the web's position has reached. -/
def crossed (s : State) (pos : Int) : Nat :=
  if webPos s < pos then 0 else ((webPos s - pos) / max 1 (s.rd Reg.FS_PITCH.line_pitch : Int)).toNat + 1

/-- The reference row crosses the position of its next line where that line is held or does not exist: no start-of-scan is raised and
the line stays due, but what waits for a line boundary of the head slots takes effect at it (R50, R57, R67). -/
def heldBoundary (s : State) : State :=
  let waits := !s.md.pending.isEmpty ||
    (s.md.started && epochState s == 2 && Nat.land s.md.applied headBits != headBits) ||
    (epochState s == 4 && s.md.rbReached && Nat.land s.md.applied headBits != 0 && Nat.land s.md.returned headBits != headBits)
  if s.fire.w0Set && webForward s && (refHeld s || !lineExists s s.fire.refNext) && decide (refPos s s.fire.refNext ≤ webPos s) && waits then
    lineBoundary s s.fire.refNext
  else s

def refCross : Nat → State → State
  | 0, s => heldBoundary s
  | n + 1, s =>
    let s := heldBoundary s
    if refDue s then refCross n (refSos s) else s

/-- A start-of-scan of a slot: the line boundary of its entry, then the line's disposition. -/
def slotStart (s : State) (k : Nat) : State := slotSos (catApply s (chSlot k)) k

/-- The slot's next line is due and no stop line holds it. -/
def slotGoes (s : State) (k : Nat) : Bool := slotDue s k && !heldBack s (s.slot k).next

def slotCross (k : Nat) : Nat → State → State
  | 0, s => s
  | n + 1, s => if slotGoes s k then slotCross k n (slotStart s k) else s

/-- A slot without an entry and without a row raises nothing: its next line due only follows the web, so that an entry loaded later
begins there. -/
def slotSkips (s : State) (k : Nat) : State :=
  let g := (s.slot k).next
  let n := if webForward s then crossed s (slotPos s k g) else 0
  if n = 0 then s else s.setSlot k { s.slot k with next := g + n }

/-- A slot's lines as its position is crossed; two or more are a jump. -/
def slotMoves (s : State) (k : Nat) : State :=
  if !slotLives s k then slotSkips s k
  else
  let g := (s.slot k).next
  let n := relLine s g
  let t := slotCross k (crossed s (slotPos s k g)) s
  let d := (t.slot k).next - g
  if 2 ≤ d then (t.wr Reg.FS_FLAGS.sos_jump 0 1).event 0x0301 (chSlot k) n d 0 else t

/-- Every start-of-scan that the web's position has reached, the reference row's first. -/
def webMoved (s : State) : State :=
  if !s.fire.w0Set then s
  else slots80.foldl slotMoves (refCross (crossed s (refPos s s.fire.refNext)) s)

/-! ### What the module sends (Table 5-7) -/

def osCredit : Nat := 0xB3
def osLineOk : Nat := 0xB4
def osLineNak : Nat := 0xB5
def osRelAck : Nat := 0xB6
def osStatus : Nat := 0xB8

/-- A part not yet complete with a tag, oldest first. -/
def openPart (s : State) (k tag : Nat) : Option Part :=
  (s.slot k).parts.find? (fun q => !q.complete && q.released.isNone && lineTag s q.line == tag)

/-- CREDIT: in SHADOW none are counted (R192). -/
def creditSet (s : State) (k f : Nat) : State := if s.mode = modeShadow then s else grantCredits s k (bits f 31 16)

/-- LINE_OK. -/
def lineOkSet (s : State) (k f : Nat) : State :=
  match openPart s k (bits f 33 14) with
  | some q => if s.mode = modeShadow then s else partComplete s k q
  | none => s

/-- LINE_NAK: the frame goes again while the line still waits for its data (Table 5-7). -/
def lineNakSet (s : State) (k f : Nat) : State :=
  match openPart s k (bits f 33 14) with
  | some q =>
    let i := bits f 27 6
    let late := match q.sosAt with | some t => decide (t + q.limit * nsU < s.clk) | none => false
    if s.mode = modeShadow || late || lineFrames s k ≤ i || q.sent ≤ i || q.resend.contains i then s
    else setPart s k { q with resend := q.resend ++ [i] }
  | none => s

/-- REL_ACK heard in SHADOW: the shadow line goes, its fate is drawn, and the reconstruction counts it (R415, R424). -/
def ackShadow (s : State) (k f : Nat) : State :=
  match (s.slot k).parts.find? (fun q => lineTag s q.line == bits f 33 14) with
  | none => s
  | some q =>
    let s := dropPart s k q.line
    if bit f 32 then setFate (tallyLine s q.jobIdx k q.plane q.drops Led.linesFired Led.dropsFired) k q.line fateFired
    else if bits f 30 2 = 2 then setFate (tallyLine s q.jobIdx k q.plane q.drops Led.linesSkipped Led.dropsSkipped) k q.line fateSkipped
    else setFate (tallyLine s q.jobIdx k q.plane q.drops Led.linesWithheld Led.dropsWithheld) k q.line fateWithheld

/-- REL_ACK (R184, R423): a released part ends; a part whose start-of-scan passed at a takeover ends fired where it was ejected. -/
def relAckSet (s : State) (k f : Nat) : State :=
  if s.mode = modeShadow then ackShadow s k f
  else match releasedPart s k (bits f 33 14) with
  | some q => settlePart s k q (bit f 32)
  | none =>
    match (s.slot k).parts.find? (fun q => q.taken && lineTag s q.line == bits f 33 14) with
    | some q => if bit f 32 then settlePart s k q true else s
    | none => s

/-! ### Timers of the fire path -/

/-- HEARTBEAT is due every 1.000 µs ±10 ns; a GP-40 module hears none. -/
def heartbeatDue (s : State) : Bool :=
  s.native && match s.fire.hbAt with | some t => decide (t + 990 * nsU ≤ s.clk) | none => true

/-- DECAP_LAPSE (R199). -/
def decapLapse (s : State) (k : Nat) : State :=
  match (s.slot k).forbidAt with
  | some t => if t + s.ent (chSlot k) SlotE.decapMs * msU ≤ s.clk then s.wr Reg.FS_SLOT_STATE.decap_lapsed k 1 else s
  | none => s

/-- AUTH_RETRY (R205): 100 ms after a failure, then every 1.0 s. -/
def authRetry (s : State) (k : Nat) : State :=
  match (s.slot k).retryAt with
  | some t =>
    if s.clk < t then s
    else
      let s := authStart s k
      s.setSlot k { s.slot k with retryAt := some (s.clk + secU) }
  | none => s

/-- AUTH_GRACE_EXPIRY (R206): the slot now needs its session; the counts since the switchover still carry into it. -/
def graceOver (s : State) (k : Nat) : State :=
  match (s.slot k).graceTo with
  | some t => if t ≤ s.clk then chargeUpdate s k else s
  | none => s

/-- USAGE_ADD (R203). -/
def usageAdd (s : State) (k : Nat) : State :=
  let x := s.slot k
  let soon := match x.lastAdd with | some t => decide (s.clk < t + msU) | none => false
  if s.rd Reg.FS_SLOT_STATE.auth k = 2 && !soon && decide (0 < usageDue s k) && linkUp s k then
    sendUsage s k (min (usageDue s k) 65535)
  else s

/-- HOLD_OPEN_EXPIRY (R164). -/
def holdOver (s : State) : State :=
  if s.mode = modeHold && decide (s.la.holdAt + s.rd Reg.LA_KEEPOPEN.hold_open * secU ≤ s.clk) then
    requestStop s causeDecapLimit (lineAfterPassed s)
  else s

/-- The range of v_job (R154, Table 4-17): 0 for unset, or from `v_min` to `v_max` of axis 0. While axis 0 has no entry in effect there is no
`v_max` and no upper end (DESIGN CHOICE, log 123). -/
def vjobOk (s : State) (v : Nat) : Bool :=
  v == 0 || (decide (s.rd Reg.FS_VMIN.v_min ≤ v) && (!s.inUse (chAxis 0) || decide (v * 1000 ≤ s.ent (chAxis 0) AxisE.vMax)))

/-- VJOB_WRITE (R154): in PRINT and THROTTLE from the next servo period of axis 0. -/
def vjobWrite (s : State) (v : Nat) : State :=
  let barred := s.mode == modeRewind || s.mode == modeHold || s.mode == modeStop
  if !hostOpen s || barred || !vjobOk s v then s
  else
    let old := jobSpeed s
    let s := { s with la := { s.la with vJob := if isPrinting s.mode then some old else none } }
    s.wr Reg.LA_VJOB.v_job 0 v

/-- LINE_DECODE; `err` tells what reads of the map or density words met: an uncorrectable word reads zero (R366). -/
def decodeCommand (s : State) (p i err : Nat) : State :=
  let s := match rrErrBad err with
    | none => rrMet s err
    | some o =>
      let a := o / 8 * 8
      let s := rrUncorrectable s a
      { s with mem := Mem.write s.mem (rrBase + a) (List.replicate 8 0) }
  lineDecode s p i

/-! ### Commands -/

/-- READY_BANDS_POLL. -/
def execReadyBandsPoll (t : Nat) (s : State) : Host.Outcome State Fault Refusal := .next (readyPoll (s.at t))

/-- LINE_ACCEPT. -/
def execLineAccept (t : Nat) (s : State) : Host.Outcome State Fault Refusal := .next (lineAccept (s.at t)).lineEnd

/-- LINE_DECODE. -/
def execLineDecode (t plane row err : Nat) (s : State) : Host.Outcome State Fault Refusal :=
  .next (decodeCommand (s.at t) plane row err).lineEnd

/-- VJOB_WRITE. -/
def execVjobWrite (t v : Nat) (s : State) : Host.Outcome State Fault Refusal := .next (leadUpdate (vjobWrite (s.at t) v))

/-- REWIND_DWELL_EXPIRY. -/
def execRewindDwellExpiry (t : Nat) (s : State) : Host.Outcome State Fault Refusal := .next (dwellEnd (s.at t)).lineEnd

/-- KEEPOPEN_TIMEOUT. -/
def execKeepopenTimeout (t slot : Nat) (s : State) : Host.Outcome State Fault Refusal := .next (keepopenStart (s.at t) slot)

/-- HOLD_OPEN_EXPIRY. -/
def execHoldOpenExpiry (t : Nat) (s : State) : Host.Outcome State Fault Refusal := .next (holdOver (s.at t)).settle

/-- START_OF_SCAN: the fire clock at which the web's position reaches the slot's next line. -/
def execStartOfScan (t slot : Nat) (s : State) : Host.Outcome State Fault Refusal :=
  let s := s.at t
  .next (if slotGoes s slot then slotStart s slot else s).lineEnd

/-- REFERENCE_START_OF_SCAN. -/
def execReferenceStartOfScan (t : Nat) (s : State) : Host.Outcome State Fault Refusal :=
  let s := heldBoundary (s.at t)
  .next (if refDue s then refSos s else s).lineEnd

/-- SOS_MISSING. -/
def execSosMissing (t : Nat) (s : State) : Host.Outcome State Fault Refusal := .next (sosMissing (s.at t))

/-- DATA_DEADLINE_EXPIRY. -/
def execDataDeadlineExpiry (t slot : Nat) (s : State) : Host.Outcome State Fault Refusal := .next (dataLate (s.at t) slot).lineEnd

/-- DATA_FRAME_SEND. -/
def execDataFrameSend (t slot err : Nat) (s : State) : Host.Outcome State Fault Refusal :=
  let s := s.at t
  let hit := decide (err ≠ 0) && (nextData s slot).isSome
  .next (frameSend (if hit then rrMet s err else s) slot (rrErrBad err).isSome).lineEnd

/-- CREDIT. -/
def execCredit (t lane word : Nat) (s : State) : Host.Outcome State Fault Refusal := .next (onSet (s.at t) lane osCredit word creditSet)

/-- LINE_OK. -/
def execLineOk (t lane word : Nat) (s : State) : Host.Outcome State Fault Refusal := .next (onSet (s.at t) lane osLineOk word lineOkSet)

/-- LINE_NAK. -/
def execLineNak (t lane word : Nat) (s : State) : Host.Outcome State Fault Refusal := .next (onSet (s.at t) lane osLineNak word lineNakSet)

/-- REL_ACK. -/
def execRelAck (t lane word : Nat) (s : State) : Host.Outcome State Fault Refusal :=
  .next (onSet (s.at t) lane osRelAck word relAckSet).lineEnd

/-- REL_ACK_TIMEOUT (R184). -/
def execRelAckTimeout (t slot : Nat) (s : State) : Host.Outcome State Fault Refusal := .next (ackLost (s.at t) slot).lineEnd

/-- STATUS. -/
def execStatusSet (t lane word : Nat) (s : State) : Host.Outcome State Fault Refusal := .next (onSet (s.at t) lane osStatus word slotStatus)

/-- HEARTBEAT (R192). -/
def execHeartbeat (t : Nat) (s : State) : Host.Outcome State Fault Refusal :=
  let s := s.at t
  .next (if heartbeatDue s then heartbeat s else s)

/-- DECAP_LAPSE. -/
def execDecapLapse (t slot : Nat) (s : State) : Host.Outcome State Fault Refusal := .next (decapLapse (s.at t) slot)

/-- WAVE_COMMIT. -/
def execWaveCommit (t slot : Nat) (s : State) : Host.Outcome State Fault Refusal := .next (waveCommit (s.at t) slot)

/-- AUTH_START. -/
def execAuthStart (t slot : Nat) (s : State) : Host.Outcome State Fault Refusal := .next (authStart (s.at t) slot)

/-- CERT, with the contents of the message. -/
def execCert (t slot : Nat) (msg : List Byte) (s : State) : Host.Outcome State Fault Refusal := .next (authCert (s.at t) slot msg)

/-- USAGE_NOW. -/
def execUsageNow (t slot value seq : Nat) (mac : List Byte) (s : State) : Host.Outcome State Fault Refusal :=
  .next (usageNow (s.at t) slot value seq mac)

/-- USAGE_ADD. -/
def execUsageAdd (t slot : Nat) (s : State) : Host.Outcome State Fault Refusal := .next (usageAdd (s.at t) slot)

/-- AUTH_TIMEOUT. -/
def execAuthTimeout (t slot : Nat) (s : State) : Host.Outcome State Fault Refusal := .next (authTimeout (s.at t) slot)

/-- AUTH_RETRY. -/
def execAuthRetry (t slot : Nat) (s : State) : Host.Outcome State Fault Refusal := .next (authRetry (s.at t) slot)

/-- AUTH_GRACE_EXPIRY. -/
def execAuthGraceExpiry (t slot : Nat) (s : State) : Host.Outcome State Fault Refusal := .next (graceOver (s.at t) slot)

end Sys2Proof.Machine
end

