-- ==== Sys2Proof/Machine/PairCmds.lean ====
section
/-! DEFINITION. The commands of the twin pair (R408 to R427): sets and records of the twin link, sync, takeover and planned handover.
HANDOVER_INSTANT, which a warm reset may follow, stands in `Startup`. -/

namespace Sys2Proof.Machine

/-- What a set received on a twin lane does with its fields; one that fails its check is counted (R188, R410). -/
def onTwinSet (s : State) (lane type word : Nat) (f : State → Nat → State) : State :=
  if headerBad word then s.count Reg.LANE_ERR.hdr_err lane
  else match backSet type word with
  | some fields => f s fields
  | none => setError s lane

/-- Records apply in a pair. -/
def inPair (s : State) (f : State → State) : State := if s.on Reg.PAIR_CFG.pair_en then f s else s

/-- TWIN_HB_SEND. -/
def execTwinHbSend (t : Nat) (s : State) : Host.Outcome State Fault Refusal := .next (inPair (s.at t) twinHbSend)

/-- TWIN_CREDIT. -/
def execTwinCredit (t lane word : Nat) (s : State) : Host.Outcome State Fault Refusal :=
  .next (inPair (s.at t) (fun s => onTwinSet s lane osTwinCredit word (fun s f => twinCredit s lane (bits f 32 16))))

/-- TWIN_ACK. -/
def execTwinAck (t lane word : Nat) (s : State) : Host.Outcome State Fault Refusal :=
  .next (inPair (s.at t) (fun s => onTwinSet s lane osTwinAck word (fun s f => twinAcked s (bits f 16 32))))

/-- TWIN_NAK. -/
def execTwinNak (t lane word : Nat) (s : State) : Host.Outcome State Fault Refusal :=
  .next (inPair (s.at t) (fun s => onTwinSet s lane osTwinNak word (fun s f => twinNaked s (bits f 16 32))))

/-- TWIN_FAIL. -/
def execTwinFail (t lane word : Nat) (s : State) : Host.Outcome State Fault Refusal :=
  .next (inPair (s.at t) (fun s => onTwinSet s lane osTwinFail word (fun s _ => twinFailed s)))

/-- TWIN_RECORD_RECEIVE: `good` says that the record's CRC holds. -/
def execTwinRecordReceive (t lane seq : Nat) (good : Bool) (rec : TwinRec) (s : State) : Host.Outcome State Fault Refusal :=
  .next (inPair (s.at t) (fun s => recordIn s lane seq good rec)).lineEnd

/-- TWIN_ACK_SEND. -/
def execTwinAckSend (t : Nat) (s : State) : Host.Outcome State Fault Refusal := .next (inPair (s.at t) twinAck)

/-- STACKS_WRITE. -/
def execStacksWrite (t addr : Nat) (data : List Byte) (s : State) : Host.Outcome State Fault Refusal :=
  .next (inPair (s.at t) (fun s => recStacks s addr data))

/-- PAGE. -/
def execPageRec (t addr first : Nat) (hasW0 : Bool) (w0 : Int) (s : State) : Host.Outcome State Fault Refusal :=
  .next (inPair (s.at t) (fun s => recPage s addr first (if hasW0 then some w0 else none))).lineEnd

/-- SUBST. -/
def execSubstRec (t : Nat) (isSet : Bool) (nozzle spare line : Nat) (s : State) : Host.Outcome State Fault Refusal :=
  .next (inPair (s.at t) (fun s => recSubst s isSet nozzle spare line))

/-- BANK. -/
def execBankRec (t plane bank offset : Nat) (trims : List Byte) (s : State) : Host.Outcome State Fault Refusal :=
  .next (inPair (s.at t) (fun s => recBank s plane bank offset trims))

/-- ENTRY. -/
def execEntryRec (t : Nat) (entry : List Byte) (since : Nat) (s : State) : Host.Outcome State Fault Refusal :=
  .next (inPair (s.at t) (fun s => recEntry s entry since))

/-- SETPOINT. -/
def execSetpointRec (t port period : Nat) (slots : List Byte) (s : State) : Host.Outcome State Fault Refusal :=
  .next (inPair (s.at t) (fun s => recSetpoint s port period slots))

/-- MODE. -/
def execModeRec (t mode cause line stop step : Nat) (s : State) : Host.Outcome State Fault Refusal :=
  .next (inPair (s.at t) (fun s => recMode s mode cause line stop step)).lineEnd

/-- HEALTH. -/
def execHealthRec (t : Nat) (body : List Byte) (s : State) : Host.Outcome State Fault Refusal :=
  .next (inPair (s.at t) (fun s => healthTake s body))

/-- HANDOVER: instant T in device time; for each slot the tag to continue at, and the credits. -/
def execHandoverRec (t instant : Nat) (tags credits : List Nat) (s : State) : Host.Outcome State Fault Refusal :=
  .next (inPair (s.at t) (fun s => recHandover s instant (tags.zip credits)))

/-- SYNC_MARK. -/
def execSyncMark (t kind : Nat) (s : State) : Host.Outcome State Fault Refusal := .next (inPair (s.at t) (fun s => recSync s kind))

/-- HEALTH_SEND. -/
def execHealthSend (t : Nat) (s : State) : Host.Outcome State Fault Refusal := .next (healthSend (s.at t))

/-- RESYNC_COMPLETE: `equal` says that the mirror windows equal the active device's, `reach` is its highest held line. -/
def execResyncComplete (t : Nat) (equal : Bool) (reach : Nat) (s : State) : Host.Outcome State Fault Refusal :=
  .next (resyncDone (s.at t) equal reach)

/-- SHADOW_LINE_TIMEOUT. -/
def execShadowLineTimeout (t slot : Nat) (s : State) : Host.Outcome State Fault Refusal := .next (shadowLate (s.at t) slot).lineEnd

/-- SWITCHOVER. -/
def execSwitchover (t : Nat) (s : State) : Host.Outcome State Fault Refusal := .next (switchover (s.at t)).lineEnd

/-- HANDOVER_REPORT. -/
def execHandoverReport (t : Nat) (s : State) : Host.Outcome State Fault Refusal := .next (reportWrite (s.at t))

/-- PAIR_YIELD_PAGE. -/
def execPairYieldPage (t : Nat) (s : State) : Host.Outcome State Fault Refusal :=
  let s := s.at t
  .next (if hostOpen s then pairCommand s 1 else s)

/-- PAIR_YIELD_NOW. -/
def execPairYieldNow (t : Nat) (s : State) : Host.Outcome State Fault Refusal :=
  let s := s.at t
  .next (if hostOpen s then pairCommand s 2 else s)

/-- PAIR_RESYNC. -/
def execPairResync (t : Nat) (s : State) : Host.Outcome State Fault Refusal :=
  let s := s.at t
  .next (if hostOpen s then pairCommand s 3 else s)

/-- HANDOVER_SEND. -/
def execHandoverSend (t : Nat) (s : State) : Host.Outcome State Fault Refusal := .next (handSend (s.at t))

/-- HANDOVER_TAKE. -/
def execHandoverTake (t : Nat) (s : State) : Host.Outcome State Fault Refusal := .next (handTake (s.at t)).lineEnd

/-- WTR_EXPIRY. -/
def execWtrExpiry (t : Nat) (s : State) : Host.Outcome State Fault Refusal := .next (wtrEnd (s.at t))

/-- SECONDARY_WAIT_EXPIRY (R409). -/
def execSecondaryWaitExpiry (t : Nat) (s : State) : Host.Outcome State Fault Refusal :=
  let s := s.at t
  .next (if s.primary then s else heartbeatWaited s).lineEnd

/-- ACTIVE_HEARTBEAT_WAIT_EXPIRY (R409). -/
def execActiveHeartbeatWaitExpiry (t : Nat) (s : State) : Host.Outcome State Fault Refusal :=
  let s := s.at t
  .next (if s.primary then heartbeatWaited s else s).lineEnd

end Sys2Proof.Machine
end

