-- ==== Sys2Proof/Machine/Frames.lean ====
section
/-! DEFINITION. Frames as they begin and end (R218, R222, R430): the triggers of a stitch group, with the boundaries at which pipelines and
camera ports take their entries and an epoch, and the self-test and substitution of pipelines. -/

namespace Sys2Proof.Machine

/-! ### Pipeline self-test and substitution (R430) -/

/-- The lowest-numbered healthy unbound pipeline. -/
def freePipe (s : State) : Option Nat :=
  pipes16.find? (fun q => !s.on Reg.INSP_PIPE_BIND.pbound q && !(s.pipe q).retired && (s.pipe q).bad == 0)

/-- The entry of a channel in the table. -/
def tableEntry (s : State) (ch : Nat) : List Byte := s.peekBytes (entryAddr s ch) 128

/-- An entry is put in effect at once, without the fetch that R430 runs before the frame start. -/
def catForce (s : State) (ch : Nat) (e : List Byte) : State :=
  let s := { s with cat := { s.cat with loaded := s.cat.loaded.put ch e, since := Tbl.del s.cat.since ch } }
  entryTaken (s.catMove ch) ch (s.entry ch)

/-- The entry that gives `q` the body of `p`'s: its own header, `p`'s bytes from 16 on. -/
def bodyFrom (own other : List Byte) : List Byte := own.take 16 ++ other.drop 16

/-- A pipeline fails and none can take its place (R430). -/
def pipeDegraded (s : State) (p : Nat) : State := (s.wr Reg.PAIR_STATUS.pipe_degraded 0 1).event 0x0404 (chPipe p) 0 0 0

/-- Pipeline `p` gives way: it has no healthy successor, or its entry and `q`'s are written for its next frame start. `q`'s is checked with
`p`'s released; refused, `p`'s former entry is written and loaded again. -/
def pipeSubstitute (s : State) (p : Nat) : State :=
  match freePipe s with
  | none => pipeDegraded s p
  | some q =>
    let was := tableEntry s (chPipe p)
    let off := nextEntry (PipeE.bindEn.set was 0)
    let new := nextEntry (bodyFrom (tableEntry s (chPipe q)) was)
    let t := (s.pokeBytes (entryAddr s (chPipe p)) off).pokeBytes (entryAddr s (chPipe q)) new
    let freed := { t with cat := { t.cat with inEffect := t.cat.inEffect.put (chPipe p) off } }.wr Reg.INSP_PIPE_BIND.pbound p 0
    if entryOk freed (chPipe q) new then
      let t := t.setPipe p { t.pipe p with sub := some q, retired := true }
      t.event 0x0403 (chPipe p) 0 q 0
    else pipeDegraded (catFetch (t.pokeBytes (entryAddr t (chPipe p)) (nextEntry (bodyFrom off was))) (chPipe p)) p

/-- The result of a bound pipeline's test line after a frame: two failures in a row substitute it. -/
def pipeTested (s : State) (p : Nat) (ok : Bool) : State :=
  let x := s.pipe p
  let bad := if ok then 0 else x.bad + 1
  let s := s.setPipe p { x with bad }
  if 2 ≤ bad && s.on Reg.PAIR_CFG.pipe_spare_en && x.sub.isNone && !x.retired then pipeSubstitute s p else s

/-- At `p`'s frame start its successor takes its place: entries, geometry, pending exposure sets and frame number. -/
def pipeSwap (s : State) (p : Nat) : State :=
  match (s.pipe p).sub with
  | none => s
  | some q =>
    let x := s.pipe p
    let s := s.setPipe p { x with sub := none }
    let s := catForce (catForce s (chPipe p) (tableEntry s (chPipe p))) (chPipe q) (tableEntry s (chPipe q))
    let y := s.pipe q
    showGeom (s.setPipe q { y with geom := x.geom, geomNext := x.geomNext, expo := x.expo, pend := x.pend, again := x.again, ended := x.ended }) q

/-! ### Triggers and frames -/

/-- A pipeline's frame start: its entry and its port's, the epoch, the capture, and the frame (R27, R56, R222). -/
def frameStart (s : State) (d : Nat × Nat × Nat) : State :=
  let p := d.1
  let s := catApply (catApply s (chPipe p)) (chPort (s.rd Reg.INSP_PIPE_BIND.pport p))
  let s := (unitBoundary s (2 ^ (80 + p)) 0).capture (0x40 + p) s.devTime
  if s.on Reg.INSP_PIPE_BIND.pbound p then frameBegin s p d.2.1 d.2.2 else s

/-- GROUP_TRIGGER (R218, R219). -/
def groupTrigger (s : State) (g : Nat) : State :=
  match groupCount s g with
  | none => s
  | some s =>
    let s := (framesDue s g).foldl (fun s d => pipeSwap s d.1) s
    let s := (framesDue s g).foldl frameStart s
    (pipesSeeing s g).foldl (fun s p => pipeTrigger s p g (s.group g).k) s

/-- FRAME_END (R222): the frame closes, learning where the estimates stand, and the test line's signature is compared. -/
def frameEnd (s : State) (p : Nat) (peakOk : Bool) (ests : List Int) (testOk : Bool) : State :=
  match frameReady s p with
  | none => s
  | some f => pipeTested (frameClose s p f false (if peakOk then some ests else none)) p testOk

/-- PIPELINE_TEST_TIMER: an unbound pipeline's test line. -/
def pipeIdleTest (s : State) (p : Nat) (ok : Bool) : State :=
  if 16 ≤ p || s.on Reg.INSP_PIPE_BIND.pbound p then s
  else s.setPipe p { s.pipe p with bad := if ok then 0 else (s.pipe p).bad + 1 }

/-! ### Commands -/

/-- GROUP_TRIGGER. -/
def execGroupTrigger (t grp : Nat) (s : State) : Host.Outcome State Fault Refusal := .next (groupTrigger (s.at t) grp)

/-- FRAME_END: `ests` are the estimates of the four geometry terms, used where `peakOk`. -/
def execFrameEnd (t pipe : Nat) (peakOk : Bool) (ests : List Int) (testOk : Bool) (s : State) : Host.Outcome State Fault Refusal :=
  .next (frameEnd (s.at t) pipe peakOk ests testOk).spend.lineEnd

/-- PIPELINE_TEST_TIMER. -/
def execPipelineTestTimer (t pipe : Nat) (ok : Bool) (s : State) : Host.Outcome State Fault Refusal := .next (pipeIdleTest (s.at t) pipe ok)

end Sys2Proof.Machine
end

