-- ==== Sys2Proof/Machine/MotionCmds.lean ====
section
/-! DEFINITION. The commands of motion and feedback (chapter 8): axis commands, the servo period, Drive Link frames, switches, and the
updates of the feedback inputs with the start-of-scans they bring. -/

namespace Sys2Proof.Machine

/-! ### The servo period (R27, R154, R158, R275 to R287) -/

/-- The axes whose entries name a port. -/
def axesOfPort (s : State) (k : Nat) : List Nat := axes16.filter (fun n => s.inUse (chAxis n) && s.ent (chAxis n) AxisE.port == k)

/-- The axes of a port that take part in motion. -/
def portAxes (s : State) (k : Nat) : List Nat := axes16.filter (fun n => axisOn s n && s.ent (chAxis n) AxisE.port == k)

/-- A newly written v_job is taken (R154). -/
def takeJobSpeed (s : State) : State :=
  if s.la.vJob.isNone then s
  else
    let v := s.rd Reg.LA_VJOB.v_job * 1000
    let s := { s with la := { s.la with vJob := none } }
    leadUpdate (if isPrinting s.mode then s.setAxis 0 { s.axis 0 with velCmd := v } else s)

/-- THROTTLE is left once the lead is green and axis 0 runs within 0.1 % of v_job (R158). -/
def throttleOver (s : State) : State :=
  let v : Int := jobSpeed s * 1000
  if s.mode == modeThrottle && isGreen s && decide (1000 * ((s.axis 0).drvSpeed - v).natAbs ≤ v.toNat) then
    requestMode s modePrint causeLead
  else s

/-- The speed commanded to axis 0 in PRINT and THROTTLE (R277); v_cap holds in REWIND too (R182). -/
def webFollow (s : State) : State :=
  match (s.axis 0).goal with
  | .speed v =>
    let cap : Int := (vCapUm s : Nat)
    if isPrinting s.mode then (if v != webCommand s then axisRun s 0 (webCommand s) else s)
    else if s.mode == modeRewind && s.on Reg.FS_STATUS.cap_active && decide (cap < v) then axisRun s 0 cap else s
  | _ => s

/-- One period of every axis of a port, and its frame. -/
def portPeriod (s : State) (k : Nat) : State :=
  let dt := s.ent (chDl k) DlE.servoNs
  let s := s.setDrivePort k { s.drivePort k with period := (s.drivePort k).period + 1, lastTrig := some s.clk }
  let s := (axesOfPort s k).foldl (fun s n => catApply s (chAxis n)) s
  let s := catApply s (chDl k)
  let s := unitBoundary s ((axesOfPort s k).foldl (fun m n => m + 2 ^ (96 + n)) 0) 0
  let axes := portAxes s k
  if drvSilent s then s
  else
    let s := if axes.contains 0 then webFollow (throttleOver (takeJobSpeed s)) else s
    let s := axes.foldl (fun s n => axisPeriod (parkGo s n) n dt) s
    let s := (s.emit (.driveFrame k (driveFrame s k)))
    let s := s.twin (.setpoint k (s.drivePort k).period (setpointWords s k))
    (axes.foldl (fun s n => s.setAxis n { s.axis n with sent := setPoint s n, sentTo := some (k, s.ent (chAxis n) AxisE.drive) }) s).spend

/-- SERVO_PERIOD of a port whose trigger has fired: dropped where the port is not running (R331), ignored too soon after the last
(R285). -/
def servoPeriod (s : State) (k : Nat) : State :=
  let d := s.drivePort k
  if !d.due then s
  else
    let s := s.setDrivePort k { d with due := false }
    let soon := match d.lastTrig with
      | some t => decide (10 * (s.clk - t) < 9 * s.ent (chDl k) DlE.servoNs * nsU)
      | none => false
    if !s.entOn (chDl k) DlE.portEn || s.rd Reg.DL_STATE.dl_link k ≠ 2 || s.mode == modeCold || s.mode == modeReload then s
    else if soon then s.count Reg.DL_ERR.trig_err k
    else
      let s := if drvSilent s || (s.drivePort k).lastTrig.isNone then s else driveLost s k
      if s.rd Reg.DL_STATE.dl_link k = 2 then portPeriod s k else s

/-- DRIVE_LINK_UP (R284): the chain is measured and the port runs; in a start the port is silent, and nothing is measured (Table 17-7). -/
def driveUp (s : State) (k seen : Nat) (hops : List Nat) : State :=
  if s.rd Reg.DL_STATE.dl_link k ≠ 1 || s.mode == modeCold || s.mode == modeReload then s
  else
    let s := (s.wr Reg.DL_STATE.dl_link k 2).wr Reg.DL_STATE.drives_seen k seen
    s.setDrivePort k { s.drivePort k with hops, lost := 0, returned := false, lastTrig := none }

/-- HOLD_DELAY_EXPIRY (R281). -/
def holdReduce (s : State) (n : Nat) : State :=
  let run := s.mode == modePrint || s.mode == modeThrottle || s.mode == modeRewind
  if axisOn s n && (s.axis n).atRest && decide (s.ent (chAxis n) AxisE.holdPct < 100) && !(n == 0 && run) &&
      decide ((s.axis n).stillAt + s.ent (chAxis n) AxisE.holdDelay * msU ≤ s.clk) then
    showAxis (s.wr Reg.MOT_AX_STATE.hold_reduced n 1) n
  else s

/-- LATCH_HOLDOFF_EXPIRY (R289). -/
def latchOpen (s : State) (n : Nat) : State :=
  let k := s.ent (chAxis n) AxisE.swHome
  if s.inUse (chAxis n) && decide ((s.switch k).ignoreTo ≤ s.clk) then s.setSwitch k { s.switch k with ignoreTo := 0 } else s

/-! ### Feedback (R294 to R301) -/

/-- What follows an update of an input: the emulator outputs, and at the web's input the start-of-scans crossed. -/
def fbFollow (s : State) (i : Nat) : State :=
  let s := emuFollow s i
  if i = s.webInput then webMoved s else s

/-- FEEDBACK_POSITION_UPDATE: levels of A and B (quadrature), or the readings of sin and cos (sin/cos). -/
def fbUpdate (s : State) (i : Nat) (x y : Int) : State :=
  let kind := s.ent (chFb i) FbE.kind
  if 8 ≤ i then s
  else if kind = 1 then fbFollow (quadSample s i (x != 0) (y != 0)) i
  else if kind = 2 then fbFollow (sinCosSample s i x y) i
  else s

/-- INDEX_EDGE (R299, R163). -/
def indexEdge (s : State) (i : Nat) : State :=
  if 8 ≤ i || !s.entOn (chFb i) FbE.zEn || s.ent (chFb i) FbE.kind = 3 then s
  else
    let e := fbExt s i
    let s := (s.wri Reg.FB_IDX_COUNT.idx_count i e).countMod Reg.FB_IDX_N.idx_n i
    let s := (s.setFb i { s.fb i with idxTime := s.devTime, idxExt := e }).capture (1 + i) s.devTime
    if i = s.webInput then indexCheck s e else s

/-- SPEED_ZERO_TIMEOUT (R301). -/
def speedZero (s : State) (i : Nat) : State :=
  let idle := match (s.fb i).edges with | (t, _) :: _ => decide (t + fbZero s i ≤ s.clk) | [] => true
  if idle then (s.setFb i { s.fb i with edges := [] }).wr Reg.FB_SPEED.fspeed i 0 else s

/-- MOT_CMD from the host. -/
def hostMotion (s : State) (op : Nat) : State := if hostOpen s then motCommand s op else s

/-! ### Commands -/

/-- MOVE_ABS. -/
def execMoveAbs (t : Nat) (s : State) : Host.Outcome State Fault Refusal := .next (hostMotion (s.at t) opMoveAbs)

/-- MOVE_REL. -/
def execMoveRel (t : Nat) (s : State) : Host.Outcome State Fault Refusal := .next (hostMotion (s.at t) opMoveRel)

/-- VELOCITY. -/
def execVelocity (t : Nat) (s : State) : Host.Outcome State Fault Refusal := .next (hostMotion (s.at t) opVelocity)

/-- STOP. -/
def execStop (t : Nat) (s : State) : Host.Outcome State Fault Refusal := .next (hostMotion (s.at t) opStop)

/-- HOME. -/
def execHome (t : Nat) (s : State) : Host.Outcome State Fault Refusal := .next (hostMotion (s.at t) opHome)

/-- ENABLE. -/
def execEnable (t : Nat) (s : State) : Host.Outcome State Fault Refusal := .next (hostMotion (s.at t) opEnable)

/-- DISABLE. -/
def execDisable (t : Nat) (s : State) : Host.Outcome State Fault Refusal := .next (hostMotion (s.at t) opDisable)

/-- SERVO_PERIOD. -/
def execServoPeriod (t port : Nat) (s : State) : Host.Outcome State Fault Refusal := .next (servoPeriod (s.at t) port).lineEnd

/-- DRIVE_LINK_FRAME_RECEIVE: characters 1 to 140 of the frame as it came back. -/
def execDriveLinkFrameReceive (t port : Nat) (chars : List Byte) (s : State) : Host.Outcome State Fault Refusal :=
  .next (driveFrameBack (s.at t) port chars).settle

/-- HOLD_DELAY_EXPIRY. -/
def execHoldDelayExpiry (t axis : Nat) (s : State) : Host.Outcome State Fault Refusal := .next (holdReduce (s.at t) axis)

/-- SWITCH_QUALIFY: the level now stable, and the instant of the first raw change. -/
def execSwitchQualify (t sw t0 : Nat) (level : Bool) (s : State) : Host.Outcome State Fault Refusal :=
  .next (switchQualify (s.at t) sw level t0)

/-- LATCH_HOLDOFF_EXPIRY. -/
def execLatchHoldoffExpiry (t axis : Nat) (s : State) : Host.Outcome State Fault Refusal := .next (latchOpen (s.at t) axis)

/-- FEEDBACK_POSITION_UPDATE. -/
def execFeedbackPositionUpdate (t input : Nat) (x y : Int) (s : State) : Host.Outcome State Fault Refusal :=
  .next (fbUpdate (s.at t) input x y).lineEnd

/-- SSI_READING: the data bits, and whether the line was idle before and after. -/
def execSsiReading (t input value : Nat) (idle : Bool) (s : State) : Host.Outcome State Fault Refusal :=
  let s := s.at t
  .next (if input < 8 ∧ s.ent (chFb input) FbE.kind = 3 then fbFollow (ssiReading s input value idle) input else s).lineEnd

/-- INDEX_EDGE. -/
def execIndexEdge (t input : Nat) (s : State) : Host.Outcome State Fault Refusal := .next (indexEdge (s.at t) input)

/-- SPEED_ZERO_TIMEOUT. -/
def execSpeedZeroTimeout (t input : Nat) (s : State) : Host.Outcome State Fault Refusal := .next (speedZero (s.at t) input).settle

/-- A rising edge of an output's A triggers the groups whose `trig_out` names it (R217). -/
def emuTriggers (s : State) (k : Nat) : State :=
  let was := (emuLevels s k (s.emu k).sent).1
  let s := emuEdge s k
  if !was && (emuLevels s k (s.emu k).sent).1 then
    (List.range 4).foldl (fun s g => if s.rd Reg.GRP_CFG.trig_out g = k then groupTrigger s g else s) s
  else s

/-- EMULATOR_EDGE. -/
def execEmulatorEdge (t emu : Nat) (s : State) : Host.Outcome State Fault Refusal := .next (emuTriggers (s.at t) emu)

end Sys2Proof.Machine
end

