-- ==== Sys2Proof/Machine/TimeCmds.lean ====
section
/-! DEFINITION. The Time Unit (R311 to R332): the ordinary clock and its servo, the transparent clock, PPS, steps, triggers; the power
states and epochs as commanded (R52 to R70); and the ring ports' links and neighbours (R333 to R337). -/

namespace Sys2Proof.Machine

/-! ### Rate and lock state -/

/-- The rate correction in effect from now on, in 0.001 ppb (R319). -/
def setRate (s : State) (r : Int) : State :=
  let s := { s with tu := { s.tu with rateFrom := s.clk, offFrom := s.timeOff } }
  s.wri Reg.TIME_RATE.rate 0 r

def lockFree : Nat := 0
def lockAcq : Nat := 1
def lockOn : Nat := 2
def lockHold : Nat := 3

def lockState (s : State) : Nat := s.rd Reg.TIME_STATE.lock_state

/-- Seconds of HOLDOVER (R318). -/
def holdSeconds (s : State) : Nat :=
  if lockState s = lockHold then sat 16 ((s.clk - s.tu.holdAt) / secU) else s.rd Reg.TIME_STATE.hold_s

/-- The average of the last rate corrections of LOCKED (R318); with none, the rate stands. -/
def holdRate (s : State) : Int :=
  if s.tu.rates = [] then s.rdi Reg.TIME_RATE.rate else s.tu.rates.foldl (· + ·) 0 / (s.tu.rates.length : Int)

/-- `lock_state` changes (Table 9-2), and `traced` with it (R320). -/
def setLock (s : State) (n : Nat) : State :=
  if lockState s = n then s
  else
    let s := s.wr Reg.TIME_STATE.hold_s 0 (holdSeconds s)
    let tu := { s.tu with goodSyncs := 0, holdAt := s.clk, everLocked := s.tu.everLocked || n == lockOn }
    let s := { s with tu := tu }
    let s := if n = lockHold then setRate s (holdRate s) else if n = lockFree then setRate s 0 else s
    (s.wr Reg.TIME_STATE.lock_state 0 n).wrb Reg.TIME_STATE.traced 0 (n == lockOn || n == lockHold)

/-- Device time steps; an exchange that the step falls into is not completed. -/
def stepTo (s : State) (now : Nat) : State :=
  let d := (now : Int) - s.devTime
  let s := timeStep s now
  { s with tu := { s.tu with syncDelta := s.tu.syncDelta + d, reqOut := none } }

/-- `lock_thr` and `step_thr` in 2⁻¹⁶ ns. -/
def lockThr (s : State) : Nat := s.rd Reg.TIME_SERVO.lock_thr * nsU
def stepThr (s : State) : Nat := s.rd Reg.TIME_STEP_THR.step_thr * nsU

/-- The servo's rate for an offset: within ±`slew_max`, against the offset while it is not within `lock_thr`; beyond that the manual
leaves the servo open, so the rate is a free value. -/
def steer (s : State) (offset : Int) : State :=
  let top : Int := s.rd Reg.TIME_SERVO.slew_max * 1000000
  let m : Int := (s.freeVal 90 : Int) % (2 * top + 1) - top
  let r := if offset.natAbs < lockThr s then m else if 0 < offset then -(m.natAbs : Int) else (m.natAbs : Int)
  setRate s.spend r

/-! ### The best master clock algorithm (R315) -/

/-- The clock identity of the device: EUI-64 of its MAC address. -/
def ownIdentity (s : State) : Nat :=
  let mac := s.rd2 Reg.RING_MAC_LO.mac_lo Reg.RING_MAC_HI.mac_hi
  mac / 2 ^ 24 * 2 ^ 40 + 0xFFFE * 2 ^ 24 + mac % 2 ^ 24

/-- The device's own dataset, in the order of comparison. -/
def ownDataset (s : State) : List Nat :=
  [s.rd Reg.TIME_GM_CFG.priority1, s.rd Reg.TIME_GM_CFG.clock_class, s.rd Reg.TIME_GM_CFG.clock_acc, Config.fuse 90,
   s.rd Reg.TIME_GM_CFG.priority2, ownIdentity s]

def Announce.dataset (a : Announce) : List Nat := [a.prio1, a.cls, a.acc, a.variance, a.prio2, a.gm]

/-- Lexicographic order. -/
def lexLt : List Nat → List Nat → Bool
  | a :: as, b :: bs => decide (a < b) || (a == b && lexLt as bs)
  | _, _ => false

/-- The Announce of one port is better than that of the other: its dataset, then fewer steps. -/
def Announce.better (a b : Announce) : Bool := lexLt (a.dataset ++ [a.steps]) (b.dataset ++ [b.steps])

/-- 2^n s in 2⁻¹⁶ ns. -/
def logSec (n : Int) : Nat := if 0 ≤ n then secU * 2 ^ n.toNat else secU / 2 ^ (-n).toNat

/-- How long an Announce stands. -/
def announceLife (s : State) : Nat := s.rd Reg.TIME_PTP_CFG.ann_timeout * logSec (s.rdi Reg.TIME_PTP_CFG.log_ann)

/-- Where `heard` keeps the Announce of grandmaster `gm` on port `k`. -/
def heardKey (k gm : Nat) : Nat := k + 2 * gm

/-- The clock qualifies as a foreign master: it has not timed out, and its last two Announce messages lie within four Announce intervals (IEEE 1588-2019, whose
default algorithm Table 9-1 names; PRESUMED, log 127). -/
def Announce.qualifies (s : State) (a : Announce) : Bool :=
  decide (s.clk < a.at_ + announceLife s) &&
  match a.prev with | some t => decide (a.at_ ≤ t + 4 * logSec (s.rdi Reg.TIME_PTP_CFG.log_ann)) | none => false

/-- The better of the Announces qualified on port `k`. -/
def bestOn (s : State) (k : Nat) : Option Announce :=
  s.tu.heard.foldl (fun best h =>
    if h.1 % 2 = k && h.2.qualifies s then
      match best with
      | some b => if h.2.better b then some h.2 else best
      | none => some h.2
    else best) none

/-- The parent as last heard, on its port. -/
def parentHeard (s : State) : Option (Nat × Announce) :=
  match s.tu.parent with
  | some p => (Tbl.find s.tu.heard (heardKey p (s.rd2 Reg.TIME_GM_ID_LO.gm_id_lo Reg.TIME_GM_ID_HI.gm_id_hi))).map (fun a => (p, a))
  | none => none

/-- The port and clock that the algorithm finds best: equal datasets, the port of the smaller path delay. -/
def bestHeard (s : State) : Option (Nat × Announce) :=
  match bestOn s 0, bestOn s 1 with
  | none, none => none
  | some e, none => some (0, e)
  | none, some w => some (1, w)
  | some e, some w =>
    if e.better w then some (0, e)
    else if w.better e then some (1, w)
    else if Tbl.get 0 s.tu.mpd 1 < Tbl.get 0 s.tu.mpd 0 then some (1, w) else some (0, e)

/-- The choice (R315): the parent stands until it is heard no more or a better dataset appears. -/
def bestPort (s : State) : Option (Nat × Announce) :=
  match parentHeard s, bestHeard s with
  | some p, some b => if b.2.better p.2 then some b else some p
  | some p, none => some p
  | none, b => b

/-- The parent as the registers show it. -/
def showMaster (s : State) (gm : Nat) : State := s.wr2 Reg.TIME_GM_ID_LO.gm_id_lo Reg.TIME_GM_ID_HI.gm_id_hi 0 gm

/-- The parent is chosen, changed or lost: a change from a clock that had a master gives HOLDOVER (R318). -/
def setParent (s : State) (p : Option Nat) (gm : Nat) : State :=
  let had := s.tu.parent.isSome || s.on Reg.TIME_STATE.gm_self
  let s := (s.wr Reg.TIME_STATE.gm_self 0 0).wr Reg.TIME_STATE.slave_port 0 (p.getD 0)
  let s := { s with tu := { s.tu with parent := p, exchanges := 0, goodSyncs := 0, reqOut := none } }
  let s := showMaster s gm
  if had then setLock s lockHold else s

/-- The device wins: master on both ports, and LOCKED. -/
def winMaster (s : State) : State :=
  let s := { s with tu := { s.tu with parent := none, exchanges := 0, reqOut := none } }
  let s := (s.wr Reg.TIME_STATE.gm_self 0 1).wr Reg.TIME_STATE.slave_port 0 0
  setLock (showMaster s (ownIdentity s)) lockOn

/-- The algorithm runs on what the ports last heard; `alone` says that nobody has been heard for an Announce timeout. -/
def chooseParent (s : State) (alone : Bool) : State :=
  let master := s.rd Reg.TIME_PTP_CFG.ptp_role == 2
  match bestPort s with
  | none =>
    if master && alone then winMaster s
    else if s.tu.parent.isSome then setParent s none 0 else s
  | some (p, a) =>
    if master && lexLt (ownDataset s) a.dataset then
      if s.on Reg.TIME_STATE.gm_self then s else winMaster s
    else if s.tu.parent == some p && s.rd2 Reg.TIME_GM_ID_LO.gm_id_lo Reg.TIME_GM_ID_HI.gm_id_hi == a.gm then s
    else setParent s (some p) a.gm

/-! ### Messages -/

def ptpSync : Nat := 0
def ptpDelayReq : Nat := 1
def ptpDelayResp : Nat := 9

/-- `ptp_en` of a ring port; 1 where no entry is loaded. -/
def ptpOn (s : State) (k : Nat) : Bool := !s.inUse (chRPort k) || s.entOn (chRPort k) RPortE.ptpEn

def ptpRole (s : State) : Nat := s.rd Reg.TIME_PTP_CFG.ptp_role

/-- An Announce of this domain from another clock. -/
def announceGot (s : State) (k domain : Nat) (a : Announce) : State :=
  if ptpRole s = 0 || 2 ≤ k || !rportOpen s k || domain ≠ s.rd Reg.TIME_PTP_CFG.domain || a.gm = ownIdentity s || 255 ≤ a.steps then s
  else
    let key := heardKey k a.gm
    let a := { a with prev := (Tbl.find s.tu.heard key).map (·.at_) }
    chooseParent { s with tu := { s.tu with heard := s.tu.heard.put key a } } false

/-- The parent's Announce messages have timed out (R318). -/
def announceLost (s : State) : State :=
  let fresh := s.tu.heard.filter (fun h => decide (s.clk < h.2.at_ + announceLife s))
  if ptpRole s = 0 || s.on Reg.TIME_STATE.gm_self then s
  else match s.tu.parent with
    | some _ => if (parentHeard { s with tu := { s.tu with heard := fresh } }).isSome then s else chooseParent { s with tu := { s.tu with heard := fresh } } true
    | none => chooseParent { s with tu := { s.tu with heard := fresh } } true

/-- Device time may step to the master's (R319), no epoch outstanding (R324). -/
def mayStep (s : State) (offset : Int) : Bool :=
  !s.tu.everLocked || (decide (stepThr s < offset.natAbs) && !s.on Reg.LA_STATUS.job_open && !epochOutstanding s)

/-- A Sync's offset reaches the servo (R317, R319). -/
def servo (s : State) (offset : Int) : State :=
  let st := lockState s
  let good := if offset.natAbs < lockThr s then s.tu.goodSyncs + 1 else 0
  let s := { s with tu := { s.tu with goodSyncs := good, lastSync := some s.clk } }
  let s :=
    if st = lockAcq then
      if mayStep s offset then
        if offset = 0 || epochOutstanding s then s else stepTo s ((s.devTime : Int) - offset).toNat
      else steer s offset
    else if st = lockOn then
      let s := steer s offset
      let rates := (s.rdi Reg.TIME_RATE.rate :: s.tu.rates).take 16
      { s with tu := { s.tu with rates := rates } }
    else s
  if st = lockAcq && 16 ≤ good then setLock s lockOn else s

/-- Bits [95:16] of a timestamp, as the PTP wire format carries them: seconds and nanoseconds (R14). -/
def wireTime (d : Nat) : Nat := secOf d * 2 ^ 32 + nsOf d

/-- Device time of a timestamp on the wire. -/
def fromWire (w : Nat) : Nat := devOf (w / 2 ^ 32) (w % 2 ^ 32)

/-- A Sync from the parent: its offset from the master (R313, R319). -/
def syncGot (s : State) (k domain origin : Nat) (corr : Int) : State :=
  if ptpRole s = 0 || s.tu.parent ≠ some k || domain ≠ s.rd Reg.TIME_PTP_CFG.domain || !ptpOn s k || !rportOpen s k then s
  else
    let d := (s.devTime : Int) - fromWire origin - corr - s.enti (chRPort k) RPortE.delayAsym
    let offset := d - Tbl.get 0 s.tu.mpd k
    let s := { s with tu := { s.tu with syncDelta := d } }
    servo (s.wri Reg.TIME_OFFSET.offset 0 (satInt 32 (offset / 4096))) offset

/-- A Delay_Req leaves by the parent's port. -/
def delayReq (s : State) : State :=
  match s.tu.parent with
  | some k =>
    if ptpRole s = 0 || !ptpOn s k || !rportOpen s k then s
    else
      let q := (s.tu.reqSeq + 1) % 65536
      let s := { s with tu := { s.tu with reqSeq := q, reqOut := some (k, q, s.devTime) } }
      s.emit (.ptp k ptpDelayReq q (wireTime s.devTime) (-s.enti (chRPort k) RPortE.delayAsym))
  | none => s

/-- A Delay_Resp completes an exchange; the fourth gives ACQUIRING (Table 9-2). -/
def delayResp (s : State) (k q rx : Nat) (corr : Int) : State :=
  match s.tu.reqOut with
  | some (p, q', t3) =>
    if p ≠ k || q' ≠ q || s.tu.parent ≠ some k then s
    else
      let m := ((s.tu.syncDelta + ((fromWire rx : Int) - t3 - corr)) / 2).toNat
      let s := { s with tu := { s.tu with reqOut := none, mpd := s.tu.mpd.put k m, exchanges := s.tu.exchanges + 1 } }
      let s := s.wr Reg.TIME_MPD.mean_path 0 (sat 32 (m / 4096))
      if 4 ≤ s.tu.exchanges && (lockState s == lockFree || lockState s == lockHold) then setLock s lockAcq else s
  | none => s

/-- As master: one-step Sync, or Announce, out of both ports. What the wire format cuts off below a nanosecond goes into the correction
(IEEE 1588-2019; PRESUMED, log 127). -/
def masterSend (s : State) (announce : Bool) : State :=
  if !s.on Reg.TIME_STATE.gm_self then s
  else
    let q := (s.tu.masterSeq + 1) % 65536
    let s := { s with tu := { s.tu with masterSeq := q } }
    [0, 1].foldl (fun s k =>
      if !rportOpen s k || (!announce && !ptpOn s k) then s
      else s.emit (if announce then .announce k q (ownDataset s) else .ptp k ptpSync q (wireTime s.devTime) (subOf s.devTime : Nat))) s

/-- As master: a Delay_Req of its domain is answered. -/
def delayReqGot (s : State) (k q : Nat) (corr : Int) : State :=
  if s.on Reg.TIME_STATE.gm_self && decide (k < 2) && rportOpen s k && ptpOn s k then
    s.emit (.ptp k ptpDelayResp q (wireTime s.devTime) (corr - (subOf s.devTime : Nat)))
  else s

/-- A PTP message that came in at port `k` when device time was `came` leaves by the other (R316): event messages carry their
residence time. -/
def transparent (s : State) (came k kind q origin : Nat) (corr : Int) : State :=
  if 2 ≤ k || !rportOpen s k || !rportOpen s (1 - k) then s
  else
    let stay : Int := if kind ≤ 3 && ptpOn s 0 && ptpOn s 1 then (s.devTime : Int) - came else 0
    s.emit (.ptp (1 - k) kind q origin (corr + stay))

/-- TIME_PTP_CFG was written: off, or the algorithm starts again where the role or the domain changed. DESIGN CHOICE (log 138): a clock that
PPS_IN alone disciplined holds over. -/
def ptpRestart (s : State) (oldRole oldDomain : Nat) : State :=
  if ptpRole s = 0 then
    let s := { s with tu := { s.tu with heard := [], parent := none, exchanges := 0, reqOut := none } }
    let s := (s.wr Reg.TIME_STATE.gm_self 0 0).wr Reg.TIME_STATE.slave_port 0 0
    setLock (showMaster s 0) lockFree
  else if ptpRole s = oldRole && s.rd Reg.TIME_PTP_CFG.domain = oldDomain then s
  else
    let s := { s with tu := { s.tu with heard := [] } }
    let s := if oldRole = 0 then setLock (s.wr Reg.TIME_PPS.pps_lock 0 0) (if lockState s = lockOn then lockHold else lockState s) else s
    if s.tu.parent.isSome || s.on Reg.TIME_STATE.gm_self then setParent s none 0 else s

/-- `trace_hold_s` of HOLDOVER have passed (R320). -/
def traceOver (s : State) : State :=
  if lockState s = lockHold && decide (s.tu.holdAt + s.rd Reg.TIME_TRACE.trace_hold_s * secU ≤ s.clk) then s.wr Reg.TIME_STATE.traced 0 0
  else s

/-! ### PPS and setting time by hand -/

/-- PPS_OUT rises at a whole second, within 1.0 ns, and falls after `pps_width` (R322). -/
def ppsOut (s : State) : State :=
  let d := s.devTime
  if s.tu.ppsHigh then
    if s.tu.ppsAt + s.rd Reg.TIME_PPS.pps_width * msU ≤ s.clk + nsU then
      ({ s with tu := { s.tu with ppsHigh := false } }).emit (.ball .ppsOut false)
    else s
  else if s.on Reg.TIME_PPS.pps_out_en && (d + nsU) % secU ≤ 2 * nsU then
    ({ s with tu := { s.tu with ppsHigh := true, ppsAt := s.clk } }).emit (.ball .ppsOut true)
  else s

/-- Device time less the nearest whole second. -/
def ppsOffset (s : State) : Int :=
  let r : Int := (s.devTime % secU : Nat)
  if 2 * r < secU then r else r - secU

/-- A rising edge of PPS_IN (R322, R323): captured; a time to be set is set; a time without another master is steered to it. -/
def ppsIn (s : State) : State :=
  let s := s.capture 0x54 s.devTime
  match s.tu.setAtPps with
  | some v => if epochOutstanding s then s else stepTo { s with tu := { s.tu with setAtPps := none } } v
  | none =>
    let self := s.on Reg.TIME_STATE.gm_self
    if s.on Reg.TIME_PPS.pps_in_en && (self || ptpRole s == 0) then
      let o := ppsOffset s
      let good := decide (o.natAbs < lockThr s)
      let first := !s.tu.everLocked && o != 0 && !epochOutstanding s
      let s := s.wrb Reg.TIME_PPS.pps_lock 0 good
      let s := if good then setLock s lockOn else if self then s else setLock s lockFree
      if first then stepTo s ((s.devTime : Int) - o).toNat else steer s o
    else s

/-- TIME_PPS was written: without `pps_in_en` no edge holds a lock, and a clock with no other source runs free (Table 9-2). -/
def ppsOff (s : State) : State :=
  if s.on Reg.TIME_PPS.pps_in_en then s
  else
    let s := s.wr Reg.TIME_PPS.pps_lock 0 0
    if ptpRole s = 0 then setLock s lockFree else s

/-- TIME_SET_CMD with `go` (R323). -/
def timeSet (s : State) (atPps : Bool) : State :=
  let st := lockState s
  let ns := s.rd Reg.TIME_SET_NS.set_ns
  if !hostOpen s || s.on Reg.LA_STATUS.job_open || epochOutstanding s || st == lockAcq || (st == lockOn && s.tu.parent.isSome) ||
      decide (999999999 < ns) then s
  else
    let v := devOf (s.rd2 Reg.TIME_SET_SEC_LO.set_sec_lo Reg.TIME_SET_SEC_HI.set_sec_hi) ns
    if atPps then { s with tu := { s.tu with setAtPps := some v } } else stepTo s v

/-! ### Time triggers -/

/-- A firing that is due, with the action of its entry (Table 9-4); an event aimed at a unit that is not running is dropped (R331). -/
def fireTrigger (s : State) (k : Nat) : State :=
  match (s.trig k).next with
  | none => s
  | some x =>
    if s.devTime < x || 62 ≤ k then s
    else
      let act := s.ent (chTrig k) TrigE.action
      let target := s.ent (chTrig k) TrigE.target
      let s := trigFire s k
      if act = 1 && (s.mode == modeCold || s.mode == modeReload || s.mode == modeFreeze) then s
      else if act = 1 then { s with tu := { s.tu with burstDue := s.tu.burstDue.put target 1 } }
      else if act = 2 then { s with tu := { s.tu with sweepDue := true } }
      else if act = 3 && inspRuns s then
        groupWrite s target (2 ^ 31 + s.rd Reg.GRP_CFG.trig_out target * 65536 + s.rd Reg.GRP_CFG.frame_lines target)
      else s

/-! ### Power states and epochs as commanded -/

/-- A write of `power_req` (R52). -/
def powerWrite (s : State) (n : Nat) : State :=
  if !hostOpen s || s.mode ≠ modeIdle || s.on Reg.MODE_CUR.power_busy || 3 ≤ n then s
  else
    let s := s.wr Reg.POWER_CTRL.power_req 0 n
    if s.rd Reg.MODE_CUR.power = n then s else powerStart s n

/-! ### The device ring -/

/-- A node number is learned: it stays until the next cold start (R334). -/
def fixNode (s : State) (n : Nat) : State :=
  ({ s with net := { s.net with found := some n } }.wr Reg.RING_NODE.node 0 n).wr Reg.RING_NODE.learned 0 1

/-- The device is to learn its position. -/
def learning (s : State) : Bool :=
  !s.on Reg.RING_NODE.learned && s.rd Reg.RING_NODE.node == 0x3FFF && hostOpen s

/-- NEIGHBOR out of port `k`, every 10 ms ±1 ms. -/
def neighborSend (s : State) (k : Nat) : State :=
  let due := match Tbl.find s.net.sentAt k with | some t => decide (t + 9 * msU ≤ s.clk) | none => true
  if k < 2 && due && rportOpen s k then
    let s := { s with net := { s.net with sentAt := s.net.sentAt.put k s.clk } }
    linkSend s k rtNeighbor (leBytes 2 (nodeNow s) ++ leBytes 1 (s.rd Reg.RING_NODE.learned) ++ leBytes 1 s.mode)
  else s

/-- A NEIGHBOR frame: the partner's number; the West neighbour's learned position gives this device's. -/
def neighborGot (s : State) (k node : Nat) (learned : Bool) : State :=
  if 2 ≤ k || !rportOpen s k then s
  else
    let s := (s.wr Reg.RING_PORT_STATE.partner_lx k 1).wr Reg.RING_PORT_STATE.partner_node k node
    let s := { s with net := { s.net with lastNeighbor := s.net.lastNeighbor.put k s.clk, missed := s.net.missed.put k 0 } }
    if k = 1 && learned && learning s && decide (node % 128 < 127) then
      fixNode s (s.rd Reg.RING_CFG.ring_no * 128 + (node % 128 + 1))
    else s

/-- A NEIGHBOR frame that was due, 11 ms after the one before, did not come; the third in a row is posted. -/
def neighborMiss (s : State) (k : Nat) : State :=
  let n := Tbl.get 0 s.net.missed k
  if 2 ≤ k || !s.on Reg.RING_PORT_STATE.partner_lx k || decide (s.clk < Tbl.get 0 s.net.lastNeighbor k + (n + 1) * (11 * msU)) then s
  else
    let s := { s with net := { s.net with missed := s.net.missed.put k (n + 1) } }
    if n = 2 then s.event 0x0703 (chRPort k) 0 0 0 else s

/-- No LX5240 has answered on the West port within 100 ms of the ports' link-up: position 0. -/
def learnTimeout (s : State) : State :=
  let up := s.net.upAt.foldl (fun m u => max m u.2) 0
  if learning s && !s.on Reg.RING_PORT_STATE.partner_lx 1 && !s.net.upAt.isEmpty && decide (up + 100 * msU ≤ s.clk) then
    fixNode s (s.rd Reg.RING_CFG.ring_no * 128)
  else s

def ringLinkUp (s : State) (k : Nat) : State :=
  if 2 ≤ k || s.rd Reg.RING_PORT_STATE.rlink k = 2 then s
  else
    let s := (s.wr Reg.RING_PORT_STATE.rlink k 2).wrb Reg.RING_PORT_STATE.fec_on k (s.entOn (chRPort k) RPortE.fecEn)
    { s with net := { s.net with upAt := s.net.upAt.put k s.clk } }

def ringLinkLoss (s : State) (k : Nat) : State :=
  if 2 ≤ k || s.rd Reg.RING_PORT_STATE.rlink k ≠ 2 then s
  else
    let s := ((s.wr Reg.RING_PORT_STATE.rlink k 0).wr Reg.RING_PORT_STATE.partner_lx k 0).wr Reg.RING_PORT_STATE.fec_on k 0
    let s := { s with net := { s.net with upAt := Tbl.del s.net.upAt k, missed := Tbl.del s.net.missed k } }
    s.event 0x0704 (chRPort k) 0 0 0

/-! ### Latches (R312, R332) -/

def latchNow (s : State) (r : Nat) : State := { s with tu := { s.tu with nowLatch := s.tu.nowLatch.put r s.devTime } }

def latchCap (s : State) (r : Nat) : State :=
  let c := s.rd Reg.TIME_CAP_SEL.cap_sel
  { s with tu := { s.tu with capLatch := s.tu.capLatch.put r (Tbl.get 0 s.tu.capAt c, Tbl.get 0 s.tu.capN c) } }

/-! ### Commands -/

/-- POWER_REQ_WRITE. -/
def execPowerReqWrite (t req : Nat) (s : State) : Host.Outcome State Fault Refusal := .next (powerWrite (s.at t) req)

/-- POWER_STATE_REACHED. -/
def execPowerStateReached (t : Nat) (s : State) : Host.Outcome State Fault Refusal := .next (powerReached (s.at t)).lineEnd

/-- EPOCH_SCHEDULE. -/
def execEpochSchedule (t target : Nat) (system : Bool) (s : State) : Host.Outcome State Fault Refusal :=
  let s := s.at t
  .next (if hostOpen s then epochSchedule s target system else s)

/-- EPOCH_CANCEL. -/
def execEpochCancel (t : Nat) (s : State) : Host.Outcome State Fault Refusal :=
  let s := s.at t
  .next (if hostOpen s then epochCancel s else s)

/-- EPOCH_INSTANT: trigger 62 fires at the epoch instant (R330). -/
def execEpochInstant (t : Nat) (s : State) : Host.Outcome State Fault Refusal := .next (epochDue (trigFire (s.at t) 62)).lineEnd

/-- EPOCH_TIMEOUT. -/
def execEpochTimeout (t : Nat) (s : State) : Host.Outcome State Fault Refusal := .next (epochExpire (s.at t))

/-- ROLLBACK_EPOCH: trigger 63 fires at the rollback epoch (R330). -/
def execRollbackEpoch (t : Nat) (s : State) : Host.Outcome State Fault Refusal := .next (rollbackDue (trigFire (s.at t) 63)).lineEnd

/-- TIME_NOW_LATCH: the read of TIME_NOW_SUB by a reader. -/
def execTimeNowLatch (t reader : Nat) (s : State) : Host.Outcome State Fault Refusal :=
  let s := latchNow (s.at t) reader
  .next (s.emit (.readData reader (subOf s.devTime)))

/-- TIME_CAP_LATCH: the read of TIME_CAP_SUB by a reader. -/
def execTimeCapLatch (t reader : Nat) (s : State) : Host.Outcome State Fault Refusal :=
  let s := latchCap (s.at t) reader
  .next (s.emit (.readData reader (subOf (Tbl.get (0, 0) s.tu.capLatch reader).1)))

/-- PTP_ANNOUNCE_RECEIVE. -/
def execPtpAnnounceReceive (t port domain prio1 cls acc variance prio2 gm steps : Nat) (s : State) : Host.Outcome State Fault Refusal :=
  let s := s.at t
  .next (announceGot s port domain { prio1, cls, acc, variance, prio2, gm, steps, at_ := s.clk, prev := none })

/-- PTP_SYNC_RECEIVE. -/
def execPtpSyncReceive (t port domain origin : Nat) (corr : Int) (s : State) : Host.Outcome State Fault Refusal :=
  .next (syncGot (s.at t) port domain origin corr)

/-- PTP_DELAY_RESP_RECEIVE. -/
def execPtpDelayRespReceive (t port seq rx : Nat) (corr : Int) (s : State) : Host.Outcome State Fault Refusal :=
  .next (delayResp (s.at t) port seq rx corr)

/-- PTP_DELAY_REQ_SEND. -/
def execPtpDelayReqSend (t : Nat) (s : State) : Host.Outcome State Fault Refusal := .next (delayReq (s.at t))

/-- PTP_MASTER_SEND: 0 Sync, otherwise Announce. -/
def execPtpMasterSend (t kind : Nat) (s : State) : Host.Outcome State Fault Refusal := .next (masterSend (s.at t) (kind != 0))

/-- PTP_TRANSPARENT_FORWARD: in at `t`, out at `te`. -/
def execPtpTransparentForward (t te port kind seq origin : Nat) (corr : Int) (s : State) : Host.Outcome State Fault Refusal :=
  let s := s.at t
  .next (transparent (s.at te) s.devTime port kind seq origin corr)

/-- PTP_DELAY_REQ_RECEIVE, of this clock's domain: as with any PTP message, one of another domain is a frame and no more (R313), and comes as
RING_FRAME_RECEIVE. -/
def execPtpDelayReqReceive (t port seq : Nat) (corr : Int) (s : State) : Host.Outcome State Fault Refusal :=
  .next (delayReqGot (s.at t) port seq corr)

/-- ANNOUNCE_TIMEOUT. -/
def execAnnounceTimeout (t : Nat) (s : State) : Host.Outcome State Fault Refusal := .next (announceLost (s.at t))

/-- TRACE_HOLD_EXPIRY. -/
def execTraceHoldExpiry (t : Nat) (s : State) : Host.Outcome State Fault Refusal := .next (traceOver (s.at t))

/-- PPS_OUT_EDGE. -/
def execPpsOutEdge (t : Nat) (s : State) : Host.Outcome State Fault Refusal := .next (ppsOut (s.at t))

/-- PPS_IN_EDGE. -/
def execPpsInEdge (t : Nat) (s : State) : Host.Outcome State Fault Refusal := .next (ppsIn (s.at t))

/-- TIME_SET. -/
def execTimeSet (t : Nat) (s : State) : Host.Outcome State Fault Refusal := .next (timeSet (s.at t) false)

/-- TIME_SET_AT_PPS. -/
def execTimeSetAtPps (t : Nat) (s : State) : Host.Outcome State Fault Refusal := .next (timeSet (s.at t) true)

/-- TIME_TRIGGER_FIRE. -/
def execTimeTriggerFire (t trig : Nat) (s : State) : Host.Outcome State Fault Refusal := .next (fireTrigger (s.at t) trig)

/-- NEIGHBOR_SEND. -/
def execNeighborSend (t port : Nat) (s : State) : Host.Outcome State Fault Refusal := .next (neighborSend (s.at t) port)

/-- NEIGHBOR_RECEIVE. -/
def execNeighborReceive (t port node : Nat) (learned : Bool) (s : State) : Host.Outcome State Fault Refusal :=
  .next (neighborGot (s.at t) port node learned)

/-- NEIGHBOR_MISS. -/
def execNeighborMiss (t port : Nat) (s : State) : Host.Outcome State Fault Refusal := .next (neighborMiss (s.at t) port)

/-- NODE_LEARN_TIMEOUT. -/
def execNodeLearnTimeout (t : Nat) (s : State) : Host.Outcome State Fault Refusal := .next (learnTimeout (s.at t))

/-- RING_LINK_UP. -/
def execRingLinkUp (t port : Nat) (s : State) : Host.Outcome State Fault Refusal := .next (ringLinkUp (s.at t) port)

/-- RING_LINK_LOSS. -/
def execRingLinkLoss (t port : Nat) (s : State) : Host.Outcome State Fault Refusal := .next (ringLinkLoss (s.at t) port)

end Sys2Proof.Machine
end

