-- ==== Sys2Proof/Machine/CalLoops.lean ====
section
/-! DEFINITION. Live calibration (R246 to R271): nozzle health, density, registration, whole-column shifts, recalibration of units, XREF.
The loops are vendor firmware; each command here is one run of a loop, as the manual lays its result down. -/

namespace Sys2Proof.Machine

/-! ### Where loops act (R246, R247) -/

/-- A loop with this enable bit runs for a plane. -/
def loopOn (s : State) (en : Fld) (p : Nat) : Bool :=
  s.on Reg.CL_CTRL.loops_run && s.on en && decide (p < 16) && bit (s.rd Reg.CL_PLANE_EN.plane_en) p

/-- The mode lets a loop issue changes; keep estimates without issuing. -/
def observeOnly (s : State) : Bool := s.mode == modeShadow || s.gp40
def loopIssues (s : State) : Bool := isPrinting s.mode && !observeOnly s
def loopObserves (s : State) : Bool :=
  s.mode == modeService || s.mode == modeCalibrate || s.mode == modeShadow || (isPrinting s.mode && s.gp40)

/-- L of R250. -/
def loopLine (s : State) : Nat := lineStat s 4 + s.rd Reg.CL_SUBST_CFG.sub_margin

/-! ### Accession records of the loops (R239 to R241) -/

/-- The newest region of the last frames ended whose largest difference lies in plane `p`, its peak in column `c`: pipeline, record, time. -/
def regionAt (s : State) (p c : Nat) : Option (Nat × List Byte × Nat) :=
  ((boundPipes s (s.rd Reg.INSP_PLANE_GRP.pgrp p)).filterMap (fun n =>
    ((s.pipe n).lastRegions.reverse.find? (fun r => leNat ((r.1.drop 28).take 1) == p && leNat ((r.1.drop 32).take 4) == c)).map
      (fun r => (n, r.1, r.2)))).head?

/-- A region as an accession record has it (Table 6-12). -/
def accRegion (s : State) (x : Nat × List Byte × Nat) : AccRegion :=
  let n (o k : Nat) := leNat ((x.2.1.drop o).take k)
  let g := s.rd Reg.INSP_PIPE_BIND.pgroup x.1
  let y := pixelY s g (s.pipe x.1).geom (n 8 6) (n 16 2)
  let shape := n 42 1
  { time := x.2.2, wp := y / 131072, line := drawnLine s (lineNear s y), span := n 14 2 * pitchOf s g / max 1 (s.rd Reg.FS_PITCH.line_pitch),
    xpos := pixelX s g (n 16 2) / 131072, width := n 18 2, seam := bit shape 3, cont := bit shape 1, severity := n 24 2, area := n 20 4,
    pipe := x.1 }

/-- Job and page of a region's first line. -/
def accPage (s : State) (x : Nat × List Byte × Nat) : Option (Nat × Nat) :=
  let n (o k : Nat) := leNat ((x.2.1.drop o).take k)
  let y := pixelY s (s.rd Reg.INSP_PIPE_BIND.pgroup x.1) (s.pipe x.1).geom (n 8 6) (n 16 2)
  (anyPage s (lineNear s y)).map (fun p => (p.job, p.page))

/-- A loop raises a record for column `c` of plane `p`, or for the plane as a whole. -/
def loopRecord (s : State) (cls p : Nat) (c noz : Option Nat) (acted : Bool) : State :=
  match c.bind (regionAt s p) with
  | some x => accession s cls p noz acted (some (accRegion s x)) (accPage s x)
  | none => accession s cls p noz acted none none

/-- A streak is light or dark as its region says (Tables 6-8, 6-13); where no region tells, the accumulators hold |d_p| alone and the class
is free. -/
def streakClass (s : State) (p c : Nat) : Nat :=
  match regionAt s p c with
  | some x => 1 + leNat ((x.2.1.drop 30).take 1) % 2
  | none => 1 + s.freeVal 125 % 2

/-! ### The health table (Table 7-2) -/

def healthBase (s : State) : Nat := s.rd Reg.CL_HEALTH_BASE_LO.hb_lo * 4096 + s.rd Reg.CL_HEALTH_BASE_HI.hb_hi * 2 ^ 32
def nozKey (p i c : Nat) : Nat := (6 * p + i) * 131072 + c
def healthAddr (s : State) (p i c : Nat) : Nat := healthBase s + 4 * nozKey p i c
/-- A health word; its reserved bits count as 0 and are written back 0 (R522). -/
def healthWord (s : State) (p i c : Nat) : Nat := Nat.land (s.peekNat (healthAddr s p i c) 4) 0xEFFFFF
def setHealth (s : State) (p i c w : Nat) : State := s.pokeNat (healthAddr s p i c) 4 w

def hwSeen : Nat := 23
def hwNoSpare : Nat := 22
def hwRetired : Nat := 21

/-- One bit of a word. -/
def setBit (w k : Nat) (b : Bool) : Nat := w - bits w k 1 * 2 ^ k + ofBool b * 2 ^ k

/-- Ascending order. -/
def insNat (a : Nat) : List Nat → List Nat
  | [] => [a]
  | b :: bs => if a ≤ b then a :: b :: bs else b :: insNat a bs

def sortNat (xs : List Nat) : List Nat := xs.foldl (fun acc a => insNat a acc) []

/-- The median; between two middle values the manual leaves it open, as it does for none. -/
def medianFree (s : State) (idx : Nat) (xs : List Nat) : Nat :=
  let ys := sortNat xs
  let n := ys.length
  let free := Config.free (126 + 1000 * idx) s.freeN
  if n = 0 then free % 65536
  else if n % 2 = 1 then ys.getD (n / 2) 0
  else ys.getD (n / 2 - 1) 0 + free % (ys.getD (n / 2) 0 - ys.getD (n / 2 - 1) 0 + 1)

/-- A substitution of the nozzle is pending or in effect. -/
def isRetired (s : State) (p i c : Nat) : Bool := bit (substRead s (nozzleOf (planeRow s p i) c)) 63

/-- One row's accumulator values by column, and which columns are seen. -/
structure HealthRow where
  acc : List Nat
  seen : List Bool
  deriving DecidableEq, Repr

def healthRowOf (s : State) (p i : Nat) : HealthRow :=
  let cols := s.ent (chPlane p) PlaneE.columns
  let b := accShift cols
  let acc := (List.range cols).map (fun c => accValue s p i (c / 2 ^ b))
  { acc, seen := acc.zipIdx.map (fun (a, c) => a != Tbl.get 0 s.loops.kept (nozKey p i c) && !isRetired s p i c) }

def HealthRow.seenAt (r : HealthRow) (c : Nat) : Bool := r.seen.getD c false

/-- The seen columns from `lo` to `hi` but `c`. -/
def HealthRow.around (r : HealthRow) (lo hi c : Nat) : List Nat :=
  ((List.range (hi + 1 - lo)).map (· + lo)).filter (fun x => x != c && r.seenAt x)

/-- R248 for a seen column: the health word, and whether the column is a candidate. -/
def healthCol (s : State) (r : HealthRow) (c w idx : Nat) : Nat × Bool :=
  let half := s.rd Reg.CL_HEALTH_CFG.med_half
  let a := r.acc.getD c 0
  let win := r.around (c - half) (c + half) c
  let dev : Int := (a : Int) - medianFree s idx (win.map (fun x => r.acc.getD x 0))
  let h : Int := w % 65536
  let h' := h + ((max dev 0 - h) / (2 ^ s.rd Reg.CL_HEALTH_CFG.ema_shift : Nat))
  let peak := (r.around (c - 2) (c + 2) c).all (fun x => decide (r.acc.getD x 0 ≤ a)) &&
    (r.around (c - 2) (c - 1) c).all (fun x => decide (x ≥ c) || decide (r.acc.getD x 0 < a))
  let cand := decide ((s.rd Reg.CL_HEALTH_CFG.h_fail : Int) ≤ dev) && peak && decide (4 ≤ win.length)
  let count := if cand then min (bits w 16 4 + 1) 15 else 0
  (low 16 h'.toNat + 65536 * count + 2 ^ 20 * (w / 2 ^ 20), cand)

/-- What one row's pass leaves: the state, and the columns confirmed failing. -/
def healthRow (s : State) (p i : Nat) : State × List Nat :=
  let r := healthRowOf s p i
  let n := s.rd Reg.CL_HEALTH_CFG.n_confirm
  r.acc.zipIdx.foldl (fun (s, conf) (a, c) =>
    let key := nozKey p i c
    let s := { s with loops := { s.loops with kept := s.loops.kept.put key a } }
    let w := setBit (setBit (healthWord s p i c) hwSeen (r.seenAt c)) hwRetired (isRetired s p i c)
    if !r.seenAt c then (setHealth s p i c w, conf)
    else
      let (w, cand) := healthCol s r c w key
      let quiet := if cand then 0 else Tbl.get 0 s.loops.quiet key + 1
      let w := if bit w hwNoSpare && decide (n ≤ quiet) then setBit w hwNoSpare false else w
      let s := { s with loops := { s.loops with quiet := s.loops.quiet.put key quiet } }
      let s := setHealth s p i c w
      if cand && decide (n ≤ bits w 16 4) && !bit w hwNoSpare && !bit w hwRetired then (s, conf ++ [c]) else (s, conf)) (s, [])

/-! ### Retiring and moving nozzles (R250 to R253) -/

/-- A spare row may take column `c` of row `i` (R250, step 2). -/
def spareFits (s : State) (p i c r : Nat) : Bool :=
  let row := planeRow s p ((rowsOf s p 2).getD r 0)
  let w := phaseWord s p r
  let noz := nozzleOf row c
  (!w.1 || w.2.2 == (planeRow s p i).phase) && decide (mapEntry s p r c < 8) && decide (2 ≤ s.rd Reg.FS_SLOT_STATE.link (noz / 65536)) &&
    s.rd Reg.FS_SLOT_STATE.temp_state (noz / 65536) == 0 && !s.loops.failed.any (fun f => f.1 == noz)

/-- What came of a try: accepted, stopped because 64 changes are pending, or no spare. -/
inductive Tried where
  | taken | full | noSpare
  deriving DecidableEq, Repr

/-- SUBST.SET to each spare row that fits, in record order, until one is accepted. After a clear at the same line the read-back still
shows the old substitution (R252), so what counts is that the change was accepted. -/
def trySpares (s : State) (p i c line : Nat) : List Nat → State × Tried
  | [] => (s, .noSpare)
  | r :: rs =>
    if spareFits s p i c r then
      let noz := nozzleOf (planeRow s p i) c
      let spare := nozzleOf (planeRow s p ((rowsOf s p 2).getD r 0)) c
      let ok := (substSetOk s noz spare line).isSome
      let s := (substSet s noz spare line).1
      if ok then (s, .taken)
      else if 64 ≤ s.la.changes.length then (s, .full)
      else trySpares s p i c line rs
    else trySpares s p i c line rs

def spareRows (s : State) (p : Nat) : List Nat := List.range (rowsOf s p 2).length

/-- No spare can take a confirmed nozzle (R253): the neighbours' trims are due to rise at the plane's next density update. -/
def noSpareFor (s : State) (p i c : Nat) : State :=
  let noz := nozzleOf (planeRow s p i) c
  let s := setHealth s p i c (setBit (healthWord s p i c) hwNoSpare true)
  let s := { s with loops := { s.loops with boost := nozKey p i c :: s.loops.boost.filter (· != nozKey p i c) } }
  let s := loopRecord (s.count Reg.CL_SUBST_COUNT.no_spare) (streakClass s p c) p (some c) (some noz) false
  s.event 0x0501 (chPlane p) 0 noz 0

/-- A confirmed nozzle of a print row (R250). -/
def retireNozzle (s : State) (p i c : Nat) : State × Tried :=
  match trySpares s p i c (loopLine s) (spareRows s p) with
  | (s, .taken) =>
    let s := setHealth s p i c (setBit (healthWord s p i c) hwRetired true)
    (loopRecord s (streakClass s p c) p (some c) (some (nozzleOf (planeRow s p i) c)) true, .taken)
  | (s, .full) => (s, .full)
  | (s, .noSpare) => (noSpareFor s p i c, .noSpare)

/-- A confirmed nozzle of a spare row: what it serves moves to another spare, or back (R252). The nozzle confirmed, which the record names
and which has no spare where none takes its place, is the spare's own (R241, R253). -/
def moveSpare (s : State) (p j c : Nat) : State × Tried :=
  let r := spareIndex s p j
  let bad := nozzleOf (planeRow s p j) c
  let line := loopLine s
  match servedRow s p r c (substLine s line) with
  | none => (s, .noSpare)
  | some i =>
    if 63 ≤ s.la.changes.length then (s, .full)
    else
      let noz := nozzleOf (planeRow s p i) c
      let s := { s with loops := { s.loops with failed := s.loops.failed.filter (· != (bad, p)) ++ [(bad, p)] } }
      match substClrOk s noz line with
      | none => (noSpareFor s p j c, .noSpare)
      | some _ =>
        let s := (substClr s noz line).1
        match trySpares s p i c line ((spareRows s p).filter (· != r)) with
        | (s, .taken) => (loopRecord s (streakClass s p c) p (some c) (some bad) true, .taken)
        | (s, _) => (noSpareFor (substSet s noz bad line).1 p j c, .noSpare)

/-- Confirmations in turn, until 64 changes are pending; the rest wait for the next completed frame. -/
def confirmAll (s : State) : List (Nat × Nat × Nat) → State
  | [] => s
  | (p, i, c) :: rest =>
    let spare := (planeRow s p i).kind == 2
    match (if spare then moveSpare s p i c else retireNozzle s p i c) with
    | (s, .full) => { s with loops := { s.loops with retry := s.loops.retry ++ ((p, i, c) :: rest) } }
    | (s, _) => confirmAll s.spend rest

/-- HEALTH_PASS (R248, R249). -/
def healthPass (s : State) (p : Nat) : State :=
  let frame := (Tbl.get (0, 0) s.insp.accDone p).1
  if !loopOn s Reg.CL_CTRL.health_en p || !(loopIssues s || loopObserves s) || !s.inUse (chPlane p) ||
      (Tbl.find s.insp.accDone p).isNone || Tbl.find s.loops.passed p == some frame then s
  else
    let s := { s with loops := { s.loops with passed := s.loops.passed.put p frame } }
    let again := s.loops.retry.filter (fun x => x.1 == p)
    let rows := rows6.filter (fun i => (planeRow s p i).kind != 0)
    let (s, conf) := rows.foldl (fun (s, conf) i =>
      let (s, cs) := healthRow s p i
      (s, conf ++ cs.map (fun c => (p, i, c)))) (s, [])
    if loopIssues s then
      let s := { s with loops := { s.loops with retry := s.loops.retry.filter (fun x => x.1 != p) } }
      (confirmAll s (again ++ conf.filter (fun x => !again.contains x))).spend
    else s.spend

/-! ### CL_NOZ_CMD (R254) -/

def nozResult (s : State) (line code : Nat) : State :=
  ((s.wr Reg.CL_NOZ_RESULT_LO.noz_line_lo 0 line).wr Reg.CL_NOZ_RESULT_HI.noz_line_hi 0 (line / 2 ^ 32)).wr Reg.CL_NOZ_RESULT_HI.noz_result 0 code

/-- The health loop carries a command out. -/
def nozOpen (s : State) (p : Nat) : Bool :=
  hostOpen s && loopOn s Reg.CL_CTRL.health_en p && !observeOnly s && s.mode != modeFreeze

def nozRetire (s : State) (noz : Nat) : State :=
  match nozzleAt s noz with
  | none => if s.on Reg.CL_CTRL.loops_run && hostOpen s then nozResult s (loopLine s) 2 else s
  | some (p, i, c) =>
    if !nozOpen s p then s
    else if (planeRow s p i).kind ≠ 1 || isRetired s p i c then nozResult s (loopLine s) 2
    else
      let line := loopLine s
      let (s, r) := retireNozzle s p i c
      (nozResult s line (match r with | .taken => 1 | .full => 2 | .noSpare => 3)).spend

/-- SUBST.CLR of a nozzle at the loop's line; whether it was accepted. -/
def clearNozzle (s : State) (noz line : Nat) : State × Bool :=
  ((substClr s noz line).1, (substClrOk s noz line).isSome)

def nozRestore (s : State) (noz : Nat) : State :=
  match nozzleAt s noz with
  | none => if s.on Reg.CL_CTRL.loops_run && hostOpen s then nozResult s (loopLine s) 2 else s
  | some (p, i, c) =>
    if !nozOpen s p then s
    else
      let line := loopLine s
      let (s, ok) := clearNozzle s noz line
      let s := { s with loops := { s.loops with retry := s.loops.retry.filter (· != (p, i, c)) } }
      let s := setHealth s p i c (healthWord s p i c / 2 ^ 20 * 2 ^ 20 + healthWord s p i c % 65536)
      nozResult s line (if ok then 1 else 2)

/-- Committed substitutions of a plane: row record and column, from the map's bytes. -/
def mapSubsts (s : State) (p : Nat) : List (Nat × Nat) :=
  let a := substBase s + 2 * p * 65536
  ((s.mem.filter (fun c => decide (a ≤ c.1) && decide (c.1 < a + 131072))).map (fun c =>
    let col := 2 * ((c.1 - a) % 65536)
    let v := c.2.toNat
    (if bit v 3 then [(v % 8, col)] else []) ++ (if bit v 7 then [(v / 16 % 8, col + 1)] else []))).flatten

/-- Nozzles of a plane with a substitution pending or in effect. -/
def planeSubsts (s : State) (p : Nat) : List Nat :=
  ((mapSubsts s p).map (fun x => nozzleOf (planeRow s p x.1) x.2) ++
    (s.la.changes.filter (fun x => x.isSet && x.plane == p)).map (fun x => x.nozzle s)).eraseDups

/-- `retired` of CL_SUBST_COUNT. -/
def retiredCount (s : State) : Nat := sat 16 (((List.range 16).map (fun p => (planeSubsts s p).length)).foldl (· + ·) 0)

/-- `count` and `h` of a plane are 0, and `no_spare` is clear. -/
def healthClear (s : State) (p : Nat) : State :=
  let a := healthAddr s p 0 0
  let clear (c : Host.Cell) : Option Host.Cell :=
    if decide (a ≤ c.1) && decide (c.1 < a + 4 * 6 * 131072) then
      let v : Byte := c.2 &&& 0xA0
      if (c.1 - a) % 4 = 2 && v != 0 then some (c.1, v) else none
    else some c
  { s with mem := s.mem.filterMap clear }

def nozRestorePlane (s : State) (p : Nat) : State :=
  if !nozOpen s p then s
  else
    let line := loopLine s
    let (s, ok) := (planeSubsts s p).foldl (fun (s, ok) n => let (s, k) := clearNozzle s n line; (s, ok && k)) (s, true)
    let s := { s with loops := { s.loops with failed := s.loops.failed.filter (fun f => f.2 != p),
                                              retry := s.loops.retry.filter (fun x => x.1 != p),
                                              quiet := s.loops.quiet.filter (fun x => x.1 / 131072 / 6 != p) } }
    nozResult (healthClear s p) line (if ok then 1 else 2)

/-! ### Density (R255 to R259) -/

/-- A write of 1 to `swap` (R256). -/
def cuSwapAsk (s : State) : State := if hostOpen s then s.wr Reg.CL_CU_CTRL.swap 0 1 else s

/-- k of R257, 256 × w[2] ÷ ((w[3] − w[1]) ÷ 2). -/
def densK (s : State) (p : Nat) : Int :=
  let g := s.rd Reg.INSP_PLANE_GRP.pgrp p
  let d : Int := (inkW s g p 3 : Int) - inkW s g p 1
  if d ≤ 0 then (s.freeVal 127 % 65536 : Nat) else 512 * (inkW s g p 2 : Int) / d

def clampI (lo hi x : Int) : Int := max lo (min hi x)

/-- An entry of the completed buffer: `sum_e`, `sum_w`. -/
def densEntry (s : State) (i c : Nat) : Int × Nat :=
  let a := densAddr s (1 - s.rd Reg.CL_CU_CTRL.cu_buf) i c
  (signed 32 (s.peekNat a 4), s.peekNat (a + 4) 2)

/-- R253's boost: `nb_boost` for each neighbour found without a spare since the plane's last update. -/
def densBoost (s : State) (p i c : Nat) : Int :=
  let b : Int := s.rd Reg.CL_SUBST_CFG.nb_boost
  (if c != 0 && s.loops.boost.contains (nozKey p i (c - 1)) then b else 0) + 
  (if c + 1 < s.ent (chPlane p) PlaneE.columns && s.loops.boost.contains (nozKey p i (c + 1)) then b else 0)

/-- The trim of row `i`, column `c` in the bank being prepared (R257). -/
def newTrim (s : State) (p i c : Nat) (k : Int) : Int :=
  let t := bankTrim s p i c (s.ent (chPlane p) PlaneE.densityBank)
  let (e, w) := densEntry s i c
  if w < s.rd Reg.CL_DENS_CFG.dens_min_w then t
  else
    let dt := roundFree s 128 (nozKey p i c) (-(s.rd Reg.CL_DENS_CFG.dens_gain * e * k)) (256 * 65536 * w)
    let step : Int := s.rd Reg.CL_DENS_CFG.dens_step
    clampI (-128) 127 (t + clampI (-step) step (dt + densBoost s p i c))

/-- Every row record and column of a plane. -/
def nozGrid (s : State) (p : Nat) : List (Nat × Nat) :=
  (rows6.map (fun i => (List.range (s.ent (chPlane p) PlaneE.columns)).map (fun c => (i, c)))).flatten

/-- The residual and the signed mean of r over the nozzles that met `dens_min_w`, in 0.01 % (R259). -/
def densQuality (s : State) (p : Nat) : Nat × Int :=
  let rs := (nozGrid s p).filterMap (fun (i, c) =>
    let (e, w) := densEntry s i c
    if w < max 1 (s.rd Reg.CL_DENS_CFG.dens_min_w) then none else some (e * 10000 / (65536 * (w : Int))))
  let n := rs.length
  if n = 0 then (0, 0)
  else
    let sq := (rs.foldl (fun a r => a + r * r) (0 : Int)).toNat / n
    let root := ((List.range 65536).foldl (fun (a : Nat) k => if k * k ≤ sq then k else a) 0)
    (root + s.freeVal 129 % 2, roundFree s 130 p (rs.foldl (· + ·) 0) n)

/-- Trims held at a limit are counted; the fourth update in a row marks the nozzle (R259). -/
def trimLimits (s : State) (p : Nat) (ts : List ((Nat × Nat) × Int)) : State :=
  ts.foldl (fun s ((i, c), t) =>
    let key := nozKey p i c
    if t = -128 || t = 127 then
      let n := Tbl.get 0 s.loops.atLimit key + 1
      let s := { s with loops := { s.loops with atLimit := s.loops.atLimit.put key n } }
      if n = 4 then
        let q := s.quality 4 p
        loopRecord (s.setQuality 4 p { q with b1 := sat 16 (q.b1 + 1) }) 6 p (some c) (some (nozzleOf (planeRow s p i) c)) true
      else s
    else if (Tbl.find s.loops.atLimit key).isSome then { s with loops := { s.loops with atLimit := Tbl.del s.loops.atLimit key } }
    else s) s

/-- The plane entry names the prepared bank from L on (R258). -/
def densLoad (s : State) (p : Nat) : State :=
  match s.entry (chPlane p) with
  | none => s
  | some e =>
    let bank := 1 - PlaneE.densityBank.get e
    let e := PlaneE.bankLine.set (PlaneE.densityBank.set e bank) (loopLine s)
    catWrite { s with loops := { s.loops with densTry := s.loops.densTry.put p bank } } (chPlane p) e

/-- The bank that lines at or above `bank_line` do not use may be written: every line trimmed with it is released (R230, R258). -/
def bankFree (s : State) (p : Nat) : Bool :=
  if !s.on Reg.LA_STATUS.job_open then s.la.fired == [] else
  if (Tbl.find s.la.bankFrom p).isSome then decide ((Tbl.find s.la.bankFrom p).getD 0 ≤ s.insp.rel) else decide (absLine s (s.ent (chPlane p) PlaneE.bankLine) ≤ s.insp.rel)

/-- An entry of the plane is on its way. -/
def entryComing (s : State) (ch : Nat) : Bool := (Tbl.find s.cat.loaded ch).isSome || (Tbl.find s.cat.fetches ch).isSome

/-- New trims go into the bank not in use, and the entry is loaded; an entry that was refused, its bank not the one in use since, is tried
again with the bank as it is. -/
def densIssue (s : State) (p : Nat) : State :=
  let bank := 1 - s.ent (chPlane p) PlaneE.densityBank
  if entryComing s (chPlane p) || !s.entOn (chPlane p) PlaneE.densityEn then s
  else if Tbl.find s.loops.densTry p = some bank then densLoad s p
  else if !bankFree s p then s
  else
    let k := densK s p
    let ts := (nozGrid s p).map (fun x => (x, newTrim s p x.1 x.2 k))
    let base := if bank = 0 then s.ent (chPlane p) PlaneE.densBase0 else s.ent (chPlane p) PlaneE.densBase1
    let s := s.pokeBytes (rrBase + base) (ts.map (fun x => BitVec.ofInt 8 x.2))
    let s := (bankRecords s p bank).foldl (fun s r => s.twin r) s
    let s := { s with loops := { s.loops with boost := s.loops.boost.filter (fun k => k / 131072 / 6 != p) } }
    densLoad (trimLimits s p ts) p

/-- The next enabled plane of the group after `p`. -/
def nextPlane (s : State) (g p : Nat) : Nat :=
  (((List.range 16).map (fun k => (p + 1 + k) % 16)).find? (fun q =>
    bit (s.rd Reg.CL_PLANE_EN.plane_en) q && s.inUse (chPlane q) && s.rd Reg.INSP_PLANE_GRP.pgrp q == g)).getD p

/-- DENSITY_UPDATE (R257). -/
def densityUpdate (s : State) (p : Nat) : State :=
  if !loopOn s Reg.CL_CTRL.dens_en p || !(loopIssues s || loopObserves s) || !bit s.insp.cuNew 0 || s.insp.cuDone.1 ≠ p ||
      !s.inUse (chPlane p) then s
  else
    let s := { s with insp := { s.insp with cuNew := s.insp.cuNew - 1 } }
    let (res, mean) := densQuality s p
    let q := s.quality 4 p
    let s := s.setQuality 4 p { q with a1 := sat 16 res, a0 := unsigned 16 (satInt 16 mean), b0 := sat 16 (q.b0 + 1) }
    let s := if loopIssues s then densIssue s p else s
    let s := if s.on Reg.CL_CU_CTRL.swap then s
      else { s with insp := { s.insp with cuPlane := some (nextPlane s s.insp.cuDone.2 p) } }
    s.spend

/-! ### Registration (R260 to R263) -/

/-- A slot's record of the completed buffer joins the window's sums. -/
def regTake (s : State) (slot : Nat) : State :=
  let a := regAddr s (1 - s.rd Reg.CL_CU_CTRL.cu_buf) slot
  let u (o : Nat) := s.peekNat (a + o) 8
  let x := Tbl.get RegSums.reset s.loops.sums slot
  let x : RegSums := { sxx := x.sxx + u 0, syy := x.syy + u 8, sxy := x.sxy + signed 64 (u 16), sdx := x.sdx + signed 64 (u 24),
                       sdy := x.sdy + signed 64 (u 32), npix := x.npix + s.peekNat (a + 40) 4 }
  { s with loops := { s.loops with sums := s.loops.sums.put slot x } }

/-- The estimate of a slot as dx and dy over det (R261). -/
def RegSums.estimate (tex : Nat) (x : RegSums) : Option (Int × Int × Nat) :=
  let det := (x.sxx : Int) * x.syy - x.sxy * x.sxy
  if x.sxx / 65536 < tex || x.syy / 65536 < tex || det ≤ 0 then none
  else some (-((x.syy : Int) * x.sdx - x.sxy * x.sdy), -((x.sxx : Int) * x.sdy - x.sxy * x.sdx), det.toNat)

/-- A slot's estimate in wp: slot, plane, dx, dy, and the weights `sxx` and `syy`. -/
structure RegEst where
  slot : Nat
  plane : Nat
  dx : Int
  dy : Int
  wx : Nat
  wy : Nat
  deriving DecidableEq, Repr

def regEstimates (s : State) : List RegEst :=
  slots80.filterMap (fun k =>
    let x := Tbl.get RegSums.reset s.loops.sums k
    match x.estimate (s.rd Reg.CL_REG_TEX.reg_min_tex), slotRow s k with
    | some (nx, ny, det), some (p, _) =>
      let q := s.rd Reg.GRP_PITCH.grid_pitch s.insp.cuDone.2
      some { slot := k, plane := p, dx := roundFree s 131 (2 * k) (nx * q) (det * 65536),
             dy := roundFree s 131 (2 * k + 1) (ny * q) (det * 65536), wx := x.sxx, wy := x.syy }
    | _, _ => none)

/-- A weighted mean. -/
def meanOf (s : State) (idx : Nat) (f : RegEst → Int) (w : RegEst → Nat) (es : List RegEst) : Int :=
  roundFree s 132 idx (es.foldl (fun a e => a + f e * (w e : Int)) 0) (max 1 (es.foldl (fun a e => a + w e) 0))

/-- wp as 0.1 µm. -/
def wpTenths (x : Int) : Int := x * 10000 / 65536

/-- Least squares of the kept estimates of a slot: the change of offset with speed, in ns (R263). -/
def speedSlope (s : State) (idx : Nat) (h : List (Int × Int)) : Int :=
  let vs := h.map (·.2)
  let spread := vs.foldl max (vs.headD 0) - vs.foldl min (vs.headD 0)
  if decide (5 * spread < (jobSpeed s * 1000 : Nat)) || h.length < 2 then 0
  else
    let n : Int := h.length
    let sx := vs.foldl (· + ·) 0
    let sy := (h.map (·.1)).foldl (· + ·) 0
    let sxy := h.foldl (fun a x => a + x.1 * x.2) 0
    let sxx := h.foldl (fun a x => a + x.2 * x.2) 0
    let den := n * sxx - sx * sx
    if den ≤ 0 then 0
    else clampI (-50) 50 (roundFree s 133 idx ((n * sxy - sx * sy) * 1000000000000) (65536 * den).toNat)

/-- The correction of one slot (R262, R263): `sub_offset` and `comp_ns` of its entry. -/
def regCorrect (s : State) (e : RegEst) (ybar slope : Int) : State :=
  match s.entry (chSlot e.slot) with
  | none => s
  | some b =>
    let top : Int := roundFree s 134 e.slot (s.rd Reg.CL_REG_CFG.reg_step * 65536 : Nat) 10000
    let d := clampI (-top) top (roundFree s 135 e.slot (s.rd Reg.CL_REG_CFG.reg_gain * (e.dy - ybar)) 256)
    let v := SlotE.subOffset.geti b - d
    let q := s.quality 5 e.slot
    let out := v < -65536 || 65535 < v
    let s := if out then loopRecord (s.setQuality 5 e.slot { q with b1 := 32768 }) 5 e.plane none none true else s
    let c := clampI 0 200000 (SlotE.compNs.get b + slope)
    let b := SlotE.subOffset.set b (unsigned 32 (clampI (-65536) 65535 v))
    catWrite s (chSlot e.slot) (SlotE.compNs.set b c.toNat)

/-- Figures of a slot (Table 7-8, class 5). -/
def regFigure (s : State) (e : RegEst) (xbar ybar : Int) : State :=
  let q := s.quality 5 e.slot
  s.setQuality 5 e.slot { a1 := unsigned 16 (satInt 16 (wpTenths (e.dy - ybar))), a0 := unsigned 16 (satInt 16 (wpTenths (e.dx - xbar))),
                          b1 := q.b1, b0 := sat 16 (q.b0 + 1), at_ := q.at_ }

/-- A plane after a window: its figures, and a shift staged after four windows beyond 0.6 column (R264). -/
def regPlane (s : State) (p : Nat) (es : List RegEst) (xbar ybar : Int) : State :=
  let mine := es.filter (fun e => e.plane == p)
  if mine.isEmpty then s
  else
    let d := meanOf s (16 + p) (·.dx) (·.wx) mine - xbar
    let sq := (mine.foldl (fun a e => a + (e.dy - ybar) * (e.dy - ybar)) (0 : Int)).toNat / mine.length
    let rms := (List.range 20).foldr (fun k (a : Nat) => if (a + 2 ^ k) * (a + 2 ^ k) ≤ sq then a + 2 ^ k else a) 0
    let pitch : Int := Config.columnPitch
    let beyond := decide (6 * pitch ≤ 10 * 65536 * (d.natAbs : Int))
    let old := Tbl.get (0, false) s.loops.xrun p
    let run := if beyond then (if old.2 == decide (0 < d) then old.1 + 1 else 1) else 0
    let s := { s with loops := { s.loops with xrun := s.loops.xrun.put p (run, decide (0 < d)) } }
    let ok := s.on Reg.CL_CTRL.xshift_en && pitch == s.rd Reg.FS_PITCH.line_pitch && p != s.rd Reg.CL_REG_CFG.reg_ref_plane &&
      decide (4 ≤ run) && s.rd Reg.CL_XSHIFT.xs_staged p == 0
    let k := if d < 0 then -((2 * 65536 * (d.natAbs : Int) + pitch) / (2 * max 1 pitch)) else (2 * 65536 * d + pitch) / (2 * max 1 pitch)
    let s := if ok then s.wri Reg.CL_XSHIFT.xs_staged p (satInt 8 k) else s
    let q := s.quality 3 p
    s.setQuality 3 p { a1 := sat 16 (wpTenths rms).toNat + s.freeVal 136 % 2, a0 := unsigned 16 (satInt 16 (wpTenths d)),
                       b1 := unsigned 16 (s.rdi Reg.CL_XSHIFT.xs_staged p), b0 := sat 16 (q.b0 + 1), at_ := q.at_ }

/-- A window ends: estimates, figures, and where the loop issues, corrections. -/
def regWindow (s : State) (speed : Nat) (steady : Bool) : State :=
  let es := regEstimates s
  let ref := es.filter (fun e => e.plane == s.rd Reg.CL_REG_CFG.reg_ref_plane)
  let s := { s with loops := { s.loops with sums := [], frames := 0 } }
  if ref.isEmpty then s
  else
    let ybar := meanOf s 0 (·.dy) (·.wy) ref
    let xbar := meanOf s 1 (·.dx) (·.wx) ref
    let s := (List.range 16).foldl (fun s p => if bit (s.rd Reg.CL_PLANE_EN.plane_en) p then regPlane s p es xbar ybar else s) s
    (es.filter (fun e => bit (s.rd Reg.CL_PLANE_EN.plane_en) e.plane)).foldl (fun s e =>
      let old := Tbl.get [] s.loops.hist e.slot
      let hist := if steady then ((e.dy - ybar, (speed : Int)) :: old).take 16 else old
      let s := { s with loops := { s.loops with hist := s.loops.hist.put e.slot hist } }
      let s := regFigure s e xbar ybar
      if loopIssues s then (regCorrect s e ybar (speedSlope s e.slot hist)).spend else s) s

/-- REGISTRATION_WINDOW (R261): the completed buffer's sums, and the end of the window once `reg_frames` are gathered. -/
def registration (s : State) (g speed : Nat) (steady : Bool) : State :=
  if !s.on Reg.CL_CTRL.loops_run || !s.on Reg.CL_CTRL.reg_en || !(loopIssues s || observeOnly s) || s.insp.cuNew / 2 = 0 ||
      s.insp.cuDone.2 ≠ g then s
  else
    let s := { s with insp := { s.insp with cuNew := s.insp.cuNew % 2 } }
    let s := slots80.foldl regTake s
    let n := s.loops.frames + s.rd Reg.CL_CU_FIRST_HI.cu_frames
    let s := { s with loops := { s.loops with frames := n } }
    (if s.rd Reg.CL_REG_CFG.reg_frames ≤ n then regWindow s speed steady else s).spend

/-! ### Whole-column shifts (R264) -/

/-- Both banks of a plane move by `k` columns. -/
def shiftBanks (s : State) (p : Nat) (k : Int) : State :=
  let cols := s.ent (chPlane p) PlaneE.columns
  [PlaneE.densBase0, PlaneE.densBase1].foldl (fun s f =>
    let base := rrBase + s.ent (chPlane p) f
    rows6.foldl (fun s i =>
      let old := s.peekBytes (base + i * cols) cols
      s.pokeBytes (base + i * cols) ((List.range cols).map (fun (c : Nat) =>
        let x := (c : Int) - k
        if 0 ≤ x && decide (x < cols) then old.getD x.toNat 0 else 0))) s) s

/-- The plane entry with every local nozzle reduced by `k`; none where one would fall below 0. -/
def shiftEntry (e : List Byte) (k : Int) : Option (List Byte) :=
  let out := rows6.filter (fun i => (rowRec e i).kind ≠ 0)
  let bad (i : Nat) : Bool :=
    let r := rowRec e i
    decide ((r.localA : Int) - k < 0) || decide (65535 < (r.localA : Int) - k) ||
      (r.slotB != 0xFF && (decide ((r.localB : Int) - k < 0) || decide (65535 < (r.localB : Int) - k)))
  if out.any bad then none
  else some (out.foldl (fun e i =>
    let o := 44 + 14 * i
    let r := rowRec e i
    let e := e.take (o + 7) ++ leBytes 2 ((r.localA : Int) - k).toNat ++ e.drop (o + 9)
    if r.slotB = 0xFF then e else e.take (o + 12) ++ leBytes 2 ((r.localB : Int) - k).toNat ++ e.drop (o + 14)) e)

/-- XSHIFT_APPLY (R264): cleared, moved, loaded and set again; or, where the entry is refused, discarded. -/
def xshiftApply (s : State) (p : Nat) : State :=
  let k := s.rdi Reg.CL_XSHIFT.xs_staged p
  if !loopOn s Reg.CL_CTRL.reg_en p || !s.on Reg.CL_CTRL.xshift_en || (Config.columnPitch : Nat) != s.rd Reg.FS_PITCH.line_pitch ||
      observeOnly s || s.mode == modeFreeze || k = 0 || s.on Reg.LA_STATUS.job_open ||
      s.la.fired ≠ [] || s.la.pages ≠ [] then s
  else
    match s.entry (chPlane p) with
    | none => s
    | some e =>
      let pairs := (planeSubsts s p).map (fun n => (n, substSpare s n))
      let t := pairs.foldl (fun t x => (substClr t x.1 0).1) s
      let refused := loopRecord (s.wr Reg.CL_XSHIFT.xs_staged p 0) 5 p none none false
      match shiftEntry e k with
      | none => refused.spend
      | some b =>
        let b := nextEntry b
        if !entryOk t (chPlane p) b then refused.spend
        else
          let t := (shiftBanks t p k).pokeBytes (entryAddr t (chPlane p)) b
          let t := (bankRecords t p 0 ++ bankRecords t p 1).foldl (fun t r => t.twin r) t
          let t := catLoad t (chPlane p) b none
          let t := pairs.foldl (fun t x => (substSet t x.1 x.2 0).1) t
          (t.wri Reg.CL_XSHIFT.xs_applied p (t.rdi Reg.CL_XSHIFT.xs_applied p + k)).wr Reg.CL_XSHIFT.xs_staged p 0

/-! ### Recalibration of units (R266 to R269) -/

/-- Units of a class (Table 7-7). -/
def classUnits (cls : Nat) : Nat := ([48, 4, 64, 16] : List Nat).getD cls 0

/-- The on-die sensor assigned to a unit (Table 14-1). -/
def unitSensor (cls u : Nat) : Nat :=
  if cls = 0 then 16 + u / 6 else if cls = 1 then 24 else if cls = 2 then 34 + u / 32 else 41

def showBusy (s : State) : State :=
  s.wr Reg.CL_RECAL_STATUS.busy 0 (s.cal.running.foldl (fun n x => n + 2 ^ x.1) 0)

def setDeferred (s : State) (cls : Nat) (b : Bool) : State :=
  s.wr Reg.CL_RECAL_STATUS.deferred 0 (setBit (s.rd Reg.CL_RECAL_STATUS.deferred) cls b)

/-- `recal_min_s` has passed since the unit's last run. -/
def rested (s : State) (cls u : Nat) : Bool :=
  match Tbl.find s.cal.lastRun (unitKey cls u) with
  | some (t, _) => decide (t + s.rd Reg.CL_RECAL_CFG.recal_min_s * secU ≤ s.clk)
  | none => true

/-- A lane unit as its physical number. -/
def unitLane (cls u : Nat) : Nat := if cls = 0 then u else 48 + u

/-- The due units of a class that may run now as far as their own state goes. -/
def dueReady (s : State) (cls : Nat) : List (Nat × Nat × Nat) :=
  s.cal.due.filter (fun d => d.1 == cls && rested s cls d.2.1 &&
    (cls != 1 || s.lstate (48 + d.2.1) == 2) && (cls != 0 || s.lstate d.2.1 == 2 || s.lstate d.2.1 == 3))

/-- A due head lane waits for the end of the job: it carries a logical lane, and its group has no spare to take that (R267, R400). -/
def laneWaits (s : State) (u : Nat) : Bool :=
  s.lstate u != 3 && s.on Reg.LA_STATUS.job_open &&
    (match logicalOn s u with | some l => (freeSpare s l).isNone && !moving s l | none => false)

/-- The due unit of a class that ranks first (R267). -/
def firstDue (s : State) (cls : Nat) : Option Nat :=
  let ready := (dueReady s cls).filter (fun d => cls != 0 || !laneWaits s d.2.1)
  ([reasonQuality, reasonRequest, reasonTemp, reasonAge].filterMap (fun r => (ready.find? (fun d => d.2.2 == r)).map (·.2.1))).head?

/-- A run of a unit begins. -/
def recalRun (s : State) (cls u : Nat) : State :=
  let s := { s with cal := { s.cal with running := s.cal.running.put cls u, due := s.cal.due.filter (fun d => !(d.1 == cls && d.2.1 == u)) } }
  showBusy (setDeferred s cls false)

/-- A head lane's run begins: one in service first moves to its group's spare, or, with no job open and no spare, leaves its traffic down. -/
def recalLane (s : State) (u : Nat) : State :=
  match if s.lstate u = 3 then none else logicalOn s u with
  | none => setLstate (recalRun s 0 u) u 4
  | some l =>
    match freeSpare s l with
    | some b => if moving s l then s else moveAdd (recalRun s 0 u) l b true false
    | none => if moving s l then s else showLinks (setLstate (recalRun s 0 u) u 4) l

/-- RECAL_START (R267): while `xref_fault` is set no unit traced to XREF, lane or converter, is recalibrated (R270, R271). `deferred` shows
whether a due lane waits for the end of the job. -/
def recalStart (s : State) (cls : Nat) : State :=
  let lanes := decide (cls ≤ 1)
  if !recalOpen s || 4 ≤ cls || (Tbl.find s.cal.running cls).isSome || (cls != 2 && s.on Reg.CL_RECAL_STATUS.xref_fault) ||
      (lanes && s.rd Reg.MODE_CUR.power != 0) then s
  else
    let t := match firstDue s cls with
      | none => s
      | some u =>
        if cls = 0 then recalLane s u
        else if cls = 1 then setLstate (recalRun s 1 u) (48 + u) 4
        else if cls = 2 then
          let s := recalRun s 2 u
          { s with st := { s.st with windows := 0 } }
        else recalRun s 3 u
    if cls = 0 then setDeferred t 0 ((dueReady s 0).any (fun d => laneWaits s d.2.1)) else t

/-- A run ends: time, temperature and count of the unit. -/
def recalEnd (s : State) (cls u : Nat) (counts : Bool) : State :=
  let temp := s.rdi Reg.THERM_SENS.s_value (unitSensor cls u)
  let s := { s with cal := { s.cal with running := Tbl.del s.cal.running cls, lastRun := s.cal.lastRun.put (unitKey cls u) (s.clk, temp) } }
  showBusy (if counts then s.count Reg.CL_RECAL_STATUS.recal_runs else s)

/-- RECAL_COMPLETE, but while `xref_fault` suspends all analog recalibration (R271): of a lane, `a` and `b` are the eye width and height found and `ctle` its new setting; a converter's run ends once
its agreement has let it be exchanged (R268). A lane below its limits is retired, its traffic left where it is (R267, R400). -/
def recalComplete (s : State) (cls u a b ctle : Nat) : State :=
  if Tbl.find s.cal.running cls ≠ some u ∨ (cls ≠ 2 ∧ s.on Reg.CL_RECAL_STATUS.xref_fault = true) then s
  else
    let temp := unsigned 16 (s.rdi Reg.THERM_SENS.s_value (unitSensor cls u))
    if cls ≤ 1 then
      let n := unitLane cls u
      if s.lstate n = 4 then
        let q := s.quality cls u
        let s := recalEnd s cls u true
        let s := s.setQuality cls u { q with a1 := low 16 a, a0 := low 16 b, b1 := temp, b0 := sat 16 (q.b0 + 1) }
        let s := s.wr Reg.LANE_STATE.ctle n (min ctle (laneEnt s n LaneE.ctleMax 15))
        let s := (List.range 12).foldl (fun s k => s.wri Reg.LANE_DFE.tap (12 * n + k)
          (if k < laneEnt s n LaneE.dfeTaps 12 then signed 8 (s.freeVal (169 + 1000 * k) % 256) else 0)) s
        let s := s.spend
        let s := s.setLane n { s.lane n with isOver := false, tapsAt := some s.clk }
        let ok := decide (s.rd Reg.CL_Q_LIMITS.eye_w_min ≤ a) && decide (2 * s.rd Reg.CL_Q_LIMITS.eye_h_min ≤ b)
        if !ok then laneRetire s n
        else if cls = 1 then setLstate s n 2
        else match logicalOn s n with
          | some l => showLinks (setLstate s n 2) l
          | none => laneStandby s n
      else if moving s ((logicalOn s n).getD 40) then s
      else recalEnd s cls u false
    else if cls = 2 then if s.st.windows = 128 then recalEnd s 2 u true else s
    else
      let x := s.fb (u / 2)
      if x.sc.swapped then
        let s := (recalEnd s 3 u true).setFb (u / 2) { x with sc := { x.sc with swapped := false } }
        s.noteQuality 2 (u / 2) { s.quality 2 (u / 2) with b1 := temp }
      else s

/-- The spare converter takes over from the one that serves as sin (`k` 0) or cos (`k` 1), which becomes the spare (R268). -/
def SinCos.takeOver (c : SinCos) (k : Nat) : SinCos :=
  { c with conv := (c.conv.set k (c.conv.getD 2 2)).set 2 (c.conv.getD k k) }

/-- CONVERTER_SWAP (R268), of the converter in calibration or, for a burst with none in calibration, of either: `diff` is the average
disagreement in LSB. -/
def converterSwap (s : State) (i diff : Nat) : State :=
  let run := match Tbl.find s.cal.running 3 with | some u => if u / 2 = i then some u else none | none => none
  let burst := (Tbl.find s.tu.burstDue i).isSome
  let x := s.fb i
  if !recalOpen s || 8 ≤ i || s.on Reg.CL_RECAL_STATUS.xref_fault || !(run.isSome || burst) || x.sc.swapped then s
  else
    let s := { s with tu := { s.tu with burstDue := Tbl.del s.tu.burstDue i } }
    if diff ≤ s.rd Reg.CL_Q_LIMITS.swap_tol then
      let k := match run with | some u => u % 2 | none => s.freeVal 154 % 2
      let q := s.quality 2 i
      let s := { s with loops := { s.loops with convBad := Tbl.del s.loops.convBad i } }
      let s := (s.setFb i { x with sc := { x.sc.takeOver k with swapped := run.isSome } }).spend
      s.noteQuality 2 i { q with b0 := sat 16 (q.b0 + 1) }
    else
      let n := Tbl.get 0 s.loops.convBad i + 1
      let s := { s with loops := { s.loops with convBad := if n = 3 then Tbl.del s.loops.convBad i else s.loops.convBad.put i n } }
      let s := match run with
        | some u => recalDue (recalEnd s 3 u false) 3 u reasonRequest
        | none => s
      if n = 3 then encFault s i 0 else s

/-- RECAL_REQUEST. -/
def recalRequest (s : State) (cls u : Nat) : State :=
  if hostOpen s && s.on Reg.CL_CTRL.loops_run && decide (cls < 4) && decide (u < classUnits cls) then recalDue s cls u reasonRequest else s

/-- RECAL_AGE_EXPIRY: `recal_max_s` since the last run, or since cold start. -/
def recalAge (s : State) (cls u : Nat) : State :=
  let from_ := match Tbl.find s.cal.lastRun (unitKey cls u) with | some (t, _) => t | none => s.net.coldAt
  if recalOpen s && decide (cls < 4) && decide (u < classUnits cls) && decide (from_ + s.rd Reg.CL_RECAL_CFG.recal_max_s * secU ≤ s.clk) then
    recalDue s cls u reasonAge
  else s

/-- An input takes its coefficients from the fuses (R271). -/
def factoryCoefs (s : State) (i : Nat) : State :=
  s.setFb i { s.fb i with sc := { (s.fb i).sc with
    offS := Config.factoryCoef i 0, offC := Config.factoryCoef i 1, gain := Config.factoryCoef i 2, angle := Config.factoryCoef i 3 } }

/-- XREF_CHECK (R271): with the fault found at start-up, the factory coefficients are used. -/
def xrefCheck (s : State) (ohms : Nat) : State :=
  let bad := decide (ohms < 4000) || decide (6000 < ohms)
  let s := if bad && (s.mode == modeCold || s.mode == modeReload) then (List.range 8).foldl factoryCoefs s else s
  if bad == s.on Reg.CL_RECAL_STATUS.xref_fault then s
  else (s.wrb Reg.CL_RECAL_STATUS.xref_fault 0 bad).event 0x0502 noChan 0 (ofBool bad) ohms

/-! ### Commands -/

/-- HEALTH_PASS. -/
def execHealthPass (t plane : Nat) (s : State) : Host.Outcome State Fault Refusal := .next (healthPass (s.at t) plane)

/-- NOZ_RETIRE. -/
def execNozRetire (t nozzle : Nat) (s : State) : Host.Outcome State Fault Refusal := .next (nozRetire (s.at t) nozzle)

/-- NOZ_RESTORE. -/
def execNozRestore (t nozzle : Nat) (s : State) : Host.Outcome State Fault Refusal := .next (nozRestore (s.at t) nozzle)

/-- NOZ_RESTORE_PLANE. -/
def execNozRestorePlane (t plane : Nat) (s : State) : Host.Outcome State Fault Refusal := .next (nozRestorePlane (s.at t) plane)

/-- CU_SWAP_REQUEST. -/
def execCuSwapRequest (t : Nat) (s : State) : Host.Outcome State Fault Refusal := .next (cuSwapAsk (s.at t))

/-- DENSITY_UPDATE. -/
def execDensityUpdate (t plane : Nat) (s : State) : Host.Outcome State Fault Refusal := .next (densityUpdate (s.at t) plane)

/-- REGISTRATION_WINDOW: the mean speed of axis 0 over the window, µm/s, and whether it varied by at most 2 %. -/
def execRegistrationWindow (t grp speed : Nat) (steady : Bool) (s : State) : Host.Outcome State Fault Refusal :=
  .next (registration (s.at t) grp speed steady)

/-- XSHIFT_APPLY. -/
def execXshiftApply (t plane : Nat) (s : State) : Host.Outcome State Fault Refusal := .next (xshiftApply (s.at t) plane)

/-- RECAL_REQUEST. -/
def execRecalRequest (t cls unit : Nat) (s : State) : Host.Outcome State Fault Refusal := .next (recalRequest (s.at t) cls unit)

/-- RECAL_AGE_EXPIRY. -/
def execRecalAgeExpiry (t cls unit : Nat) (s : State) : Host.Outcome State Fault Refusal := .next (recalAge (s.at t) cls unit)

/-- RECAL_START. -/
def execRecalStart (t cls : Nat) (s : State) : Host.Outcome State Fault Refusal := .next (recalStart (s.at t) cls)

/-- RECAL_COMPLETE. -/
def execRecalComplete (t cls unit a b ctle : Nat) (s : State) : Host.Outcome State Fault Refusal :=
  .next (recalComplete (s.at t) cls unit a b ctle)

/-- CONVERTER_SWAP. -/
def execConverterSwap (t input diff : Nat) (s : State) : Host.Outcome State Fault Refusal := .next (converterSwap (s.at t) input diff)

/-- XREF_CHECK. -/
def execXrefCheck (t ohms : Nat) (s : State) : Host.Outcome State Fault Refusal := .next (xrefCheck (s.at t) ohms)

end Sys2Proof.Machine
end

