-- ==== Sys2Proof/Machine/RegBus.lean ====
section
/-! DEFINITION. A register as a 32-bit word: the fields at its address, the value they read, and what a write of it does to them
(Tables 0-3 and 1-12; R10, R40). -/

namespace Sys2Proof.Machine

/-- A field as an address names it: the field, the copy, its lowest bit there. -/
abbrev FieldAt := Fld × Nat × Nat

/-- The copies of a field that lie in the register at `a`. -/
def Fld.atAddr (s : State) (a : Nat) (f : Fld) : List FieldAt :=
  match f.bank with
  | .one => if f.addr = a then [(f, 0, f.lsb)] else []
  | .arr stride n =>
    if f.addr ≤ a ∧ (a - f.addr) % stride = 0 ∧ (a - f.addr) / stride < n then [(f, (a - f.addr) / stride, f.lsb)] else []
  | .sel addr lo w n =>
    if f.addr = a then
      let k := s.rd { f with addr := addr, lsb := lo, width := w, reset := 0, bank := .one }
      if k < n then [(f, k, f.lsb)] else []
    else []
  | .packed st per n =>
    if f.addr ≤ a ∧ (a - f.addr) % 4 = 0 ∧ (a - f.addr) / 4 * per < n then
      (List.range per).map (fun j => (f, (a - f.addr) / 4 * per + j, f.lsb + st * j))
    else []
  | .selPacked addr lo w st per n =>
    if f.addr ≤ a ∧ (a - f.addr) % 4 = 0 ∧ (a - f.addr) / 4 * per < n then
      let k := s.rd { f with addr := addr, lsb := lo, width := w, reset := 0, bank := .one }
      (List.range per).filterMap (fun j =>
        if (a - f.addr) / 4 * per + j < n then some (f, n * k + ((a - f.addr) / 4 * per + j), f.lsb + st * j) else none)
    else []

/-- The fields of the register at `a`. -/
def regFields (s : State) (a : Nat) : List FieldAt := regTable.flatMap (Fld.atAddr s a)

/-- What a field carries in a written word. -/
def FieldAt.of (p : FieldAt) (v : Nat) : Nat := bits v p.2.2 p.1.width

/-- The word that stored fields spell; a write-only field reads 0. -/
def fieldsWord (s : State) (ps : List FieldAt) : Nat :=
  ps.foldl (fun n p => if p.1.acc == .wo then n else n + s.rd p.1 p.2.1 * 2 ^ p.2.2) 0

/-- A lock bit (Table 0-3). -/
def locked (s : State) : LockId → Bool
  | .cat => s.on Reg.CAT_STATUS.cat_lock
  | .lim => s.on Reg.FS_LIMITS.lim_lock
  | .tlim => s.on Reg.THERM_LIMITS.tlim_lock
  | .cfg => s.on Reg.RING_CFG.cfg_lock

/-- A value lies in the range that the register map gives its field. -/
def Fld.inRange (f : Fld) (v : Nat) : Bool :=
  match f.range with
  | none => true
  | some (lo, hi) =>
    let x : Int := if lo < 0 then signed f.width v else v
    decide (lo ≤ x) && decide (x ≤ hi)

/-- A field is written by software at all. -/
def Fld.writable (f : Fld) : Bool := f.acc != .ro && f.acc != .rc

/-- The value that the register at `f`'s address would give field `f` after a write of `v`, or its present value where `v` is a word
of another register. -/
def newVal (s : State) (a v : Nat) (f : Fld) : Nat := if f.addr = a then bits v f.lsb f.width else s.rd f

/-- Ranges of a Stacks port's latency target, ns (Table 10-2); port 8 is fixed. -/
def portTargets : List (Nat × Nat) :=
  [(500, 8000), (200, 800), (1000, 50000), (500, 20000), (500, 20000), (1000, 50000), (1000, 100000), (2000, 1000000)]

/-- Two spans of addresses meet. -/
def spansMeet (a n b m : Nat) : Bool := decide (a < b + m) && decide (b < a + n)

/-- The rules of the owning chapters under which a write of `v` to the register at `a` is ignored whole, beyond the ranges of its
fields. -/
def regForbids (s : State) (a v : Nat) : Bool :=
  let jobOpen := s.on Reg.LA_STATUS.job_open
  let nv := newVal s a v
  if a = Reg.LA_VJOB.v_job.addr then
    -- R154
    !vjobOk s (nv Reg.LA_VJOB.v_job) || s.mode == modeRewind || s.mode == modeHold || s.mode == modeStop
  else if a = Reg.LA_WM_GREEN.wm_green.addr || a = Reg.LA_WM_AMBER.wm_amber.addr || a = Reg.LA_WM_RED.wm_red.addr then
    -- R156
    !(decide (nv Reg.LA_WM_RED.wm_red < nv Reg.LA_WM_AMBER.wm_amber) && decide (nv Reg.LA_WM_AMBER.wm_amber < nv Reg.LA_WM_GREEN.wm_green))
  else if a = Reg.LA_HORIZON.horizon.addr || a = Reg.FS_WEB.web_input.addr || a = Reg.FS_PITCH.line_pitch.addr then jobOpen
  else if a = Reg.INSP_MARK_RING.mark_ring.addr then
    let x := nv Reg.INSP_MARK_RING.mark_ring
    x != 0 && decide (x < 16)
  else if (List.range 4).any (fun g => a == 0x70104 + 16 * g) then s.on Reg.GRP_CFG.run ((a - 0x70104) / 16)
  else if a = Reg.CL_DENS_COV.cov_hi.addr then decide (nv Reg.CL_DENS_COV.cov_hi ≤ nv Reg.CL_DENS_COV.cov_lo)
  else if (List.range 9).any (fun n => a == 0xB0040 + 8 * n) then
    -- Table 10-2, R347
    let n := (a - 0xB0040) / 8
    let t := bits v Reg.MEM_PORT_CFG.target_ns.lsb Reg.MEM_PORT_CFG.target_ns.width
    let r := bits v Reg.MEM_PORT_CFG.rate_gbs.lsb Reg.MEM_PORT_CFG.rate_gbs.width
    let others := ((List.range 9).map (fun m => if m = n then 0 else s.rd Reg.MEM_PORT_CFG.rate_gbs m)).foldl (· + ·) 0
    match portTargets[n]? with
    | some (lo, hi) => !(decide (lo ≤ t) && decide (t ≤ hi)) || decide (1150 < r + others)
    | none => true
  else if (List.range 8).any (fun w => a == 0xE0060 + 8 * w || a == 0xE0064 + 8 * w) then jobOpen
  else if a = Reg.THERM_LIMITS.tj_warn.addr then
    -- R445
    !(decide (nv Reg.THERM_LIMITS.tj_warn < nv Reg.THERM_LIMITS.tj_limit)) ||
      [Reg.THERM_LIMITS.t_hyst_die, Reg.THERM_LIMITS.tj_limit, Reg.THERM_LIMITS.tj_warn].any (fun f => decide (f.reset < nv f))
  else if a = Reg.THERM_HBM_LIMITS.hbm_warn.addr then
    !(decide (nv Reg.THERM_HBM_LIMITS.hbm_warn < nv Reg.THERM_HBM_LIMITS.hbm_limit)) ||
      [Reg.THERM_HBM_LIMITS.hbm_limit, Reg.THERM_HBM_LIMITS.hbm_warn].any (fun f => decide (f.reset < nv f))
  else if a = Reg.PRBS_CTRL.gen_en.addr || a = Reg.LANE_LOOP.loop_req.addr then
    -- R401
    carriesTraffic s (s.rd Reg.LANE_SEL.lsel) || (a == Reg.LANE_LOOP.loop_req.addr && decide (3 < nv Reg.LANE_LOOP.loop_req))
  else if a = Reg.UPD_BUF.buf_base.addr then
    let st := s.rd Reg.UPD_STATUS.stage_state
    let cat := s.rd Reg.CAT_BASE_LO.base_lo * 2 ^ 19 + s.rd Reg.CAT_BASE_HI.base_hi * 2 ^ 32
    st == 1 || st == 2 || st == 6 || spansMeet (nv Reg.UPD_BUF.buf_base * 2 ^ 25) (2 ^ 25) cat (2 ^ 19) ||
      decide (stacksSize < nv Reg.UPD_BUF.buf_base * 2 ^ 25 + 2 ^ 25)
  else if a = Reg.GP_DMA_ADDR_LO.dma_addr_lo.addr then v % 4 != 0
  else if a = Reg.GP_DMA_STRIDE.stride.addr then v % 4 != 0
  else if (List.range 16).any (fun k => a == 0x20000100 + 16 * k) then
    decide (32768 < bits v Reg.GP_PORT_CFG.nozzles.lsb Reg.GP_PORT_CFG.nozzles.width)
  else false

/-- A write of `v` to the register at `a` whose fields are `ps` is taken: every writable field in its range, and no rule of its
chapter against it. A field under a set lock is not written, so that its range does not count. -/
def regTakes (s : State) (a v : Nat) (ps : List FieldAt) : Bool :=
  !ps.isEmpty &&
  ps.all (fun p => !p.1.writable || (match p.1.acc with | .rwl k => locked s k | _ => false) || p.1.inRange (p.of v)) &&
  !regForbids s a v

/-- A written word gives one field its value, as its access code has it. An encoder fault whose cause still holds stays (R300). -/
def fieldWrite (s : State) (v : Nat) (p : FieldAt) : State :=
  match p.1.acc with
  | .rw => s.wr p.1 p.2.1 (p.of v)
  | .rwl k => if locked s k then s else s.wr p.1 p.2.1 (p.of v)
  | .w1c => if p.1 = Reg.FB_STATE.enc_fault ∧ encFaultHolds s p.2.1 = true then s else s.wr p.1 p.2.1 (Nat.land (s.rd p.1 p.2.1) (2 ^ p.1.width - 1 - p.of v))
  | .w1s => s.wr p.1 p.2.1 (Nat.lor (s.rd p.1 p.2.1) (p.of v))
  | .ro => s
  | .wo => s
  | .rc => s

/-- A taken write gives the fields their values; fields that a lock of the same word guards take theirs before the lock closes. -/
def fieldsWrite (s : State) (v : Nat) (ps : List FieldAt) : State :=
  let (locks, rest) := ps.partition (fun p => p.1.acc == .w1s)
  (rest ++ locks).foldl (fun s p => fieldWrite s v p) s

end Sys2Proof.Machine
end

