-- ==== Sys2Proof/Machine/Boot.lean ====
section
/-! DEFINITION. The flash, firmware images, the settings image, and what a start does (chapter 15: R452 to R469, R475). -/

namespace Sys2Proof.Machine

/-! ### Flash map (Table 15-1) -/

def stagingBase : Nat := flashBase
def halfBase (h : Nat) : Nat := flashBase + 0x400_0000 + h % 2 * 0x200_0000
def slotBase (i : Nat) : Nat := flashBase + 0x801_0000 + i * 0x10_0000

/-- Every byte of a span reads as one nothing has written. -/
def memErase (m : List Host.Cell) (a n : Nat) : List Host.Cell := m.filter (fun c => !(decide (a ≤ c.1) && decide (c.1 < a + n)))

def flashOk (s : State) : Bool := s.on Reg.THERM_STATUS.flash_ok

/-- Bytes `[o + n - 1 : o]` of a structure, as a number. -/
def fieldAt (b : List Byte) (o n : Nat) : Nat := leNat ((b.drop o).take n)

/-! ### The boot record (R453) -/

/-- The copy in use: valid, of the higher generation; what is held on the die counts before it. -/
def bootRec (s : State) : BootRec :=
  match s.fl.recDue with
  | some r => r
  | none =>
    if !s.fl.recB.good then s.fl.recA
    else if !s.fl.recA.good || decide (s.fl.recA.gen < s.fl.recB.gen) then s.fl.recB else s.fl.recA

/-- The other copy takes the record, one generation on. -/
def recStore (s : State) (r : BootRec) : State :=
  let inB := s.fl.recB.good && (!s.fl.recA.good || decide (s.fl.recA.gen < s.fl.recB.gen))
  let now := if inB then s.fl.recB else s.fl.recA
  let r := { r with good := true, gen := (now.gen + 1) % 2 ^ 32 }
  if inB then { s with fl := { s.fl with recA := r, recDue := none } } else { s with fl := { s.fl with recB := r, recDue := none } }

/-- The record is written, or held until flash writes are allowed (R446, R476). -/
def recWrite (s : State) (r : BootRec) : State :=
  if flashOk s then recStore s r else flashRefuse { s with fl := { s.fl with recDue := some r } } 3

/-! ### Images (R467 to R469) -/

/-- The header of the image at a place in memory. -/
def imgHeader (s : State) (base : Nat) : List Byte := Mem.read s.mem base 1024

def imgLen (h : List Byte) : Nat := fieldAt h 8 4
def imgVer (h : List Byte) : Nat := fieldAt h 12 4
def imgFmt (h : List Byte) : Nat := fieldAt h 7 1
def imgDigest (h : List Byte) : List Byte := (h.drop 416).take 48

/-- Three levels as a register shows them: level, lowest, highest, high byte first. -/
def levels (h : List Byte) (o : Nat) : Nat := fieldAt h o 1 * 65536 + fieldAt h (o + 1) 1 * 256 + fieldAt h (o + 2) 1
def imgRing (h : List Byte) : Nat := levels h 16
def imgPair (h : List Byte) : Nat := levels h 19

/-- The privileged list: offset and expected `rfmt` (Table 15-7). -/
def imgPriv (h : List Byte) : List (Nat × Nat) :=
  (List.range (min (fieldAt h 22 1) 32)).map (fun i => (fieldAt h (64 + 8 * i) 4, fieldAt h (68 + 8 * i) 1))

/-- The fused digest of a vendor key, and its revocation bit (R468): fuses 70 to 74. -/
def keyDigest (k : Nat) : List Byte := leBytes 48 (Config.fuse (70 + k))
def keyRevoked (k : Nat) : Bool := bit (Config.fuse 74) k

/-- The first two conditions of R469. -/
def imgHeaderOk (h : List Byte) : Bool :=
  let k := fieldAt h 6 1
  fieldAt h 0 4 == 0x4D49584C && fieldAt h 4 2 == 1 && decide (1024 ≤ imgLen h) && decide (imgLen h ≤ 33554432) && decide (k < 4) &&
  Config.sha384 ((h.drop 320).take 96) == keyDigest k && !keyRevoked k

/-- Why the image at a place fails R469, as a code of Table 15-13: 0 when it passes. -/
def imgError (s : State) (base : Nat) : Nat :=
  let h := imgHeader s base
  if !imgHeaderOk h then 1
  else
    let text := h.take 416 ++ Mem.read s.mem (base + 1024) (imgLen h - 1024)
    if Config.sha384 text != imgDigest h then 2
    else if !Config.ecdsa384 ((h.drop 320).take 96) text ((h.drop 464).take 96) then 3
    else 0

/-- An image is copied to another place. -/
def imgCopy (s : State) (src dst size : Nat) : State :=
  { s with mem := Mem.write (memErase s.mem dst size) dst (Mem.read s.mem src (imgLen (imgHeader s src))) }

/-- A level lies in a range, both ways (R475). -/
def levelsMeet (a b : Nat) : Bool :=
  let within (x y : Nat) : Bool := decide (bits y 8 8 ≤ bits x 16 8) && decide (bits x 16 8 ≤ bits y 0 8)
  within a b && within b a

/-- The levels of an image fit every LX5240 neighbour and the partner heard. -/
def levelsFit (s : State) (h : List Byte) : Bool :=
  let ok (i lv : Nat) : Bool := !s.on Reg.UPD_PEER.known i || levelsMeet lv (s.rd Reg.UPD_PEER.peer_levels i)
  ok 0 (imgRing h) && ok 1 (imgRing h) && ok 2 (imgPair h)

/-- `stage_state` and `stage_ver` as the flash has them. -/
def showStage (s : State) : State :=
  let good := imgError s stagingBase == 0
  let st := if (bootRec s).armed then 4 else if !good then 0 else if s.fl.rejected then 5 else 3
  (s.wr Reg.UPD_STATUS.stage_state 0 st).wr Reg.UPD_STAGE_VER.stage_ver 0 (if good then imgVer (imgHeader s stagingBase) else 0)

/-! ### Settings slots (R462 to R466) -/

/-- A settings record: kind, format, key, value. -/
abbrev SetRec := Nat × Nat × Nat × List Byte

/-- The records of a slot, each padded to a multiple of 4 bytes. -/
def parseRecs : Nat → List Byte → List SetRec
  | 0, _ => []
  | n + 1, b =>
    if b.length < 8 then []
    else
      let len := fieldAt b 2 2
      (fieldAt b 0 1, fieldAt b 1 1, fieldAt b 4 4, (b.drop 8).take len) :: parseRecs n (b.drop (8 + (len + 3) / 4 * 4))

/-- A record as its bytes. -/
def SetRec.bytes (r : SetRec) : List Byte :=
  let v := r.2.2.2
  leBytes 1 r.1 ++ leBytes 1 r.2.1 ++ leBytes 2 v.length ++ leBytes 4 r.2.2.1 ++ v ++ List.replicate ((v.length + 3) / 4 * 4 - v.length) 0

/-- A slot as its bytes (Table 15-5). -/
def slotBytes (fmt gen ver : Nat) (recs : List Byte) : List Byte :=
  let hdr (crc : Nat) : List Byte := leBytes 4 0x54455353 ++ leBytes 2 1 ++ leBytes 1 fmt ++ leBytes 1 0 ++ leBytes 4 gen ++
    leBytes 4 recs.length ++ leBytes 4 ver ++ leBytes 4 crc ++ List.replicate 40 0
  hdr (crc32 (hdr 0 ++ recs)) ++ recs

/-- The bytes of a slot with header `h`: valid when `smagic`, `sfmt` and `scrc` are correct, its records within the slot (R463). -/
def slotValid (b : List Byte) : Bool :=
  let len := fieldAt b 12 4
  fieldAt b 0 4 == 0x54455353 && fieldAt b 4 2 == 1 && decide (len ≤ 1048512) &&
  crc32 (b.take 20 ++ List.replicate 4 0 ++ (b.drop 24).take (40 + len)) == fieldAt b 20 4

/-- The bytes at a slot's place, as far as its header says. -/
def slotAt (s : State) (base : Nat) : List Byte := Mem.read s.mem base (64 + min (leNat (Mem.read s.mem (base + 12) 4)) 1048512)

def slotGen (b : List Byte) : Nat := fieldAt b 8 4
def slotFmt (b : List Byte) : Nat := fieldAt b 6 1
def slotRecs (b : List Byte) : List SetRec := parseRecs b.length (b.drop 64)

/-- The valid slots with their bytes. -/
def validSlots (s : State) : List (Nat × List Byte) :=
  ((List.range 4).map (fun i => (i, slotAt s (slotBase i)))).filter (fun p => slotValid p.2)

/-- The slot of the highest generation. -/
def newestSlot (ps : List (Nat × List Byte)) : Option (Nat × List Byte) :=
  ps.foldl (fun best p => match best with
    | some q => if slotGen q.2 < slotGen p.2 then some p else best
    | none => some p) none

/-- A slot's generation, and an invalid slot before any. -/
def writeRank (vs : List (Nat × List Byte)) (i : Nat) : Nat :=
  match vs.find? (fun p => p.1 == i) with | some p => slotGen p.2 + 1 | none => 0

/-- The slot a settings write goes to (R466): lowest generation, an invalid slot before any; not the slot in use, nor the newest of the
boot record's format while the running image is unconfirmed. -/
def writeSlot (s : State) : Nat :=
  let vs := validSlots s
  let src := s.rd Reg.SET_STATUS.settings_src
  let used := if src = 1 ∨ src = 2 then [s.rd Reg.SET_STATUS.set_slot] else []
  let kept := if s.on Reg.BOOT_STATUS.unconfirmed then
      match newestSlot (vs.filter (fun p => slotFmt p.2 == (bootRec s).fmt)) with | some p => [p.1] | none => []
    else []
  let free := (List.range 4).filter (fun i => !used.contains i && !kept.contains i)
  (free.foldl (fun (best : Option Nat) (i : Nat) => match best with
    | some j => if writeRank vs i < writeRank vs j then some i else best
    | none => some i) none).getD 0

/-- One above the highest generation in any slot. -/
def nextSetGen (s : State) : Nat := match newestSlot (validSlots s) with | some p => (slotGen p.2 + 1) % 2 ^ 32 | none => 1

/-! ### Applying the settings (R464, R465) -/

/-- A register of the always-on island: the pages of time, ring and thermal registers (Table 15-4). -/
def islandReg (a : Nat) : Bool := a / 65536 == 0x0A || a / 65536 == 0x0F

/-- The address of a field as `regs` keys it. -/
def keyAddr (k : Nat) : Nat := k / 4096 / 32

/-- Fields that a REG record sets: those marked "from settings image" at its offset. -/
def imageFields (s : State) (a : Nat) : List FieldAt := (regFields s a).filter (fun p => p.1.image)

/-- One REG record: applied, or refused as R40 would; its lock bits are left for the end. -/
def regRecord (s : State) (a v : Nat) : State :=
  let ps := (imageFields s a).filter (fun p => p.1.acc != .w1s)
  if ps.all (fun p => p.1.inRange (p.of v)) && !regForbids s a v then ps.foldl (fun s p => s.wr p.1 p.2.1 (p.of v)) s
  else s.count Reg.SET_STATUS.set_refused

/-- The lock bits of a REG record. -/
def lockRecord (s : State) (a v : Nat) : State :=
  ((imageFields s a).filter (fun p => p.1.acc == .w1s)).foldl (fun s p => s.wr p.1 p.2.1 (p.of v)) s

/-- Records in ascending key. -/
def insertRec (r : SetRec) : List SetRec → List SetRec
  | [] => [r]
  | x :: xs => if r.2.2.1 < x.2.2.1 then r :: x :: xs else x :: insertRec r xs

/-- The settings of a start, from records `recs`: registers in ascending offset, then the locks; trust anchors, identifiers, the GP-40
record. The function's identifiers are the vendor's, 0x5240 and the subsystem's (R43). `island` says whether the always-on registers are taken again. -/
def applyRecords (s : State) (recs : List SetRec) (island : Bool) : State :=
  let priv := imgPriv s.fl.header
  let regs := (recs.filter (fun r => r.1 == 1)).foldl (fun l r => insertRec r l) []
  let regs := regs.filter (fun r => island || !islandReg r.2.2.1)
  let bad (r : SetRec) : Bool := priv.any (fun p => p.1 == r.2.2.1 && p.2 != r.2.1)
  let s := (regs.filter bad).foldl (fun s r =>
    let s := { s with fl := { s.fl with privDrop := r.2.2.1 :: s.fl.privDrop } }
    (s.wr Reg.SET_STATUS.priv_reset 0 1).event 0x0D01 noChan 0 r.2.2.1 r.2.1) s
  let good := regs.filter (fun r => !bad r)
  let s := good.foldl (fun s r => regRecord s r.2.2.1 (leNat r.2.2.2)) s
  let s := good.foldl (fun s r => lockRecord s r.2.2.1 (leNat r.2.2.2)) s
  let anchors := (recs.filter (fun r => r.1 == 3 && decide (r.2.2.1 < 4))).foldl (fun (t : Tbl (List Byte)) (r : SetRec) => Tbl.put t r.2.2.1 r.2.2.2) ([] : Tbl (List Byte))
  let s := { s with fire := { s.fire with anchors := anchors } }
  let s := s.wr Reg.FS_AUTH.anchors 0 (anchors.foldl (fun n a => n + 2 ^ a.1) 0)
  let gp := match recs.find? (fun r => r.1 == 6 && r.2.2.1 == 1) with | some r => r.2.2.2 | none => []
  let pcie := match recs.find? (fun r => r.1 == 5 && r.2.2.1 == 1) with
    | some r => [Config.fuse 88, 0x5240, fieldAt r.2.2.2 0 2, fieldAt r.2.2.2 2 2]
    | none => [Config.fuse 88, 0x5240, Config.fuse 82, Config.fuse 83]
  { s with gp := { s.gp with record := gp }, fl := { s.fl with pcie := pcie } }

/-- The settings a start takes (R463): source code, slot, generation, records, and the slot to write after a conversion. -/
def chooseSettings (s : State) : Nat × Nat × Nat × List SetRec × Option (List Byte) :=
  let h := s.fl.header
  let r := bootRec s
  if s.fl.cleared then (4, 0, 0, [], none)
  else
    match newestSlot ((validSlots s).filter (fun p => slotFmt p.2 == imgFmt h)) with
    | some p => (1, p.1, slotGen p.2, slotRecs p.2, none)
    | none =>
      let old := if r.unconfirmed then newestSlot ((validSlots s).filter (fun p => slotFmt p.2 == r.fmt)) else none
      match old with
      | none => (3, 0, 0, [], none)
      | some p =>
        match Config.settingsConvert (imgVer h) r.fmt ((p.2.drop 64).take (fieldAt p.2 12 4)) with
        | none => (3, 0, 0, [], none)
        | some bs =>
          let priv := (imgPriv h).map (fun q => q.1)
          let rs := (parseRecs bs.length bs).filter (fun r => !(r.1 == 1 && priv.contains r.2.2.1))
          (2, 0, 0, rs, some (rs.flatMap SetRec.bytes))

/-! ### The Catalog at a start (R454, R459) -/

/-- An entry is written to the Catalog table. -/
def tableStore (s : State) (ch : Nat) (e : List Byte) : State :=
  { s with mem := Mem.write s.mem (entryAddr s ch) (e.take 128) }

/-- A time trigger whose entry stands as it was keeps its running schedule (R331). -/
def sameTrigger (s : State) (ch : Nat) (e : List Byte) : Bool :=
  decide (0x500 ≤ ch) && decide (ch < 0x540) &&
  (match Tbl.find s.cat.inEffect ch with
   | some o => HdrE.valid.on o == HdrE.valid.on e && o.drop 16 == e.drop 16
   | none => false)

/-- The entries of the table are loaded. -/
def loadCatalog (s : State) : State :=
  let s := catChannels.foldl (fun s ch =>
    let e := s.peekBytes (entryAddr s ch) 128
    if sameTrigger s ch e then
      if entryOk s ch e then { s with cat := { s.cat with inEffect := s.cat.inEffect.put ch e } } else s
    else catFetch s ch) s
  catShow s

/-! ### The image starts (R454 steps 5 and 6) -/

/-- A byte of the GP-40 settings record, or its factory value (Table 16-3). -/
def gpRec (s : State) (o n factory : Nat) : Nat := if s.gp.record = [] then factory else fieldAt s.gp.record o n

/-- The start in GP-40 mode: identifiers, no pair (R489), the BAR4 values of the record (R498), BAR2 as it says (R496). -/
def gpStart (s : State) : State :=
  let was := s.on Reg.PAIR_CFG.pair_en
  let s := if was then (s.wr Reg.PAIR_CFG.pair_en 0 0).event 0x0D03 noChan 0 0 0 else s
  let open_ := bit (gpRec s 8 1 0) 0
  let s := (s.wrb Reg.LX_PERSONA.bar2_open 0 open_).wrb Reg.GP_EXT.bar2_open 0 open_
  let s := s.wrb Reg.GP_EXT.rescue_en 0 (bit (gpRec s 8 1 0) 1)
  let ids := if s.gp.record = [] then [Config.fuse 85, 0x0040, Config.fuse 86, Config.fuse 87]
    else [gpRec s 0 2 0, gpRec s 2 2 0, gpRec s 4 2 0, gpRec s 6 2 0]
  let s := { s with fl := { s.fl with pcie := ids } }
  (List.range (min (gpRec s 20 4 0) 1024)).foldl (fun s i =>
    let a := 0x20000000 + fieldAt s.gp.record (24 + 8 * i) 4
    let v := fieldAt s.gp.record (28 + 8 * i) 4
    let ps := regFields s a
    if regTakes s a v ps && a != Reg.GP_CTRL.run.addr then fieldsWrite s v ps
    else if a = Reg.GP_CTRL.run.addr && regTakes s a v ps then fieldsWrite s (v / 2 * 2) ps
    else s.count Reg.SET_STATUS.set_refused) s

/-- Places in the Reading Room that the Registrar fixes (Table 10-8). -/
def placeAreas (s : State) : State :=
  ((s.wr Reg.CL_CU_BASE.cu_base 0 0x3080000).wr Reg.LA_SUBST_BASE.subst_base 0 0x3C90000).wr Reg.INSP_INK_BASE.ink_base 0 (0x3FE0000 / 4096)

/-- What the image copies: to the Stacks and the Reading Room, or into the Registrar's own memory. -/
def storesDo (s : State) (p : Nat × List Byte) : State :=
  if localBase registrar ≤ p.1 ∧ p.1 + p.2.length ≤ localBase registrar + 0x10_0000 then { s with mem := Mem.write s.mem p.1 p.2 }
  else if areaOf p.1 = .stacks ∨ areaOf p.1 = .readingRoom then s.pokeList p.1 p.2 else s

/-- Lanes whose entries enable them begin their bring-up: after a cold start in full, otherwise from step 4 with the taps they have
(R391); a twin lane is up from step 2 of R454 on. -/
def lanesBoot (s : State) (cold : Bool) : State :=
  lane52.foldl (fun s n =>
    let x := s.lane n
    if !x.called then s
    else if 48 ≤ n ∧ s.lstate n ≠ 0 then s.setLane n { x with called := false }
    else if cold then s
    else setLstate (s.setLane n { x with full := false, called := false }) n 1) s

/-- The boot ROM brings up the twin lanes (R454 step 2). -/
def twinLanesBoot (s : State) (cold : Bool) : State :=
  [48, 49, 50, 51].foldl (fun s n =>
    if s.lstate n = 5 then s
    else if cold then s.setLane n { s.lane n with called := true }
    else setLstate (s.setLane n { s.lane n with full := false, called := false }) n 1) s

/-- Every lane of the eight groups is shifted onto its loop (R395). -/
def loopsShift (s : State) : State :=
  shiftAll { s with ln := { s.ln with boot := 1, shifted := (List.range 8).map (fun g => (g, loopWord)) } } (fun _ => loopWord)

/-- The node number learned before the reset stands where the settings give none (R334). -/
def nodeFound (s : State) : State :=
  let s := match s.net.found with
    | some n => if s.rd Reg.RING_NODE.node = 0x3FFF then s.wr Reg.RING_NODE.node 0 n else s
    | none => s
  s.wrb Reg.RING_NODE.learned 0 (s.rd Reg.RING_NODE.node != 0x3FFF)

/-- The image at `base` starts: identity and levels, settings, the Catalog, the Carrel images, the lanes on their loops. `fresh` says
that a different image runs than before the reset. -/
def imageStart (s : State) (base : Nat) (fresh : Bool) : State :=
  let h := imgHeader s base
  let r := bootRec s
  let cold := s.fl.cause == 1
  let rebuild := cold || s.fl.cause == 4
  let island := cold || fresh
  let s := { s with fl := { s.fl with bootAt := none, noImage := false, header := h, runBase := base, privDrop := [], pairReset := false } }
  let s := if fresh && !cold then
      { s with regs := s.regs.filter (fun kv =>
          !(regTable.any (fun f => f.image && islandReg f.addr && f.addr == keyAddr kv.1 && f.lsb == kv.1 / 4096 % 32))) } else s
  let s := ((s.wr Reg.LX_FW_VER.fw_version 0 (imgVer h)).wr Reg.BOOT_RING_LVL.ring_levels 0 (imgRing h)).wr Reg.BOOT_PAIR_LVL.pair_levels 0 (imgPair h)
  let s := ((s.wrb Reg.BOOT_STATUS.unconfirmed 0 r.unconfirmed).wr Reg.BOOT_STATUS.run_half 0 r.half).wr Reg.BOOT_PREV_VER.prev_ver 0 r.verPrev
  let s := showStage s
  let (src, slot, gen, recs, conv) := chooseSettings s
  let s := ((s.wr Reg.SET_STATUS.settings_src 0 src).wr Reg.SET_STATUS.set_slot 0 slot).wr Reg.SET_GEN.sgen_used 0 gen
  let s := applyRecords s recs island
  let s := match conv with
    | none => s
    | some bs =>
      let i := writeSlot s
      let g := nextSetGen s
      let b := slotBytes (imgFmt h) g (imgVer h) bs
      if flashOk s then
        ({ s with mem := Mem.write s.mem (slotBase i) b }.wr Reg.SET_STATUS.set_slot 0 i).wr Reg.SET_GEN.sgen_used 0 g
      else flashRefuse ({ s with fl := { s.fl with setJob := some (i, b) } }.wr Reg.SET_STATUS.set_busy 0 1) 1
  let s := placeAreas s
  let s := if s.gp40 then gpStart s else s.wr Reg.LX_PERSONA.bar2_open 0 1
  let s := (Config.imageStores (imgVer h)).foldl storesDo s
  let s := if rebuild then
      (recs.filter (fun r => r.1 == 2 && decide (r.2.2.1 < 4096))).foldl (fun s r => tableStore s r.2.2.1 r.2.2.2) s
    else s
  let s := s.fl.aonRings.foldl (fun s c => tableStore s c.1 c.2) s
  loopsShift (nodeFound (lanesBoot (loadCatalog s) cold))

/-! ### Which image (R455, R456, R475) -/

/-- An armed image is activated if its levels fit and flash writes are allowed. -/
def activate (s : State) : State × Bool :=
  let r := bootRec s
  if !r.armed then (s, false)
  else if !levelsFit s (imgHeader s stagingBase) then
    (recWrite (s.wr Reg.UPD_STATUS.upd_err 0 4) { r with armed := false }, false)
  else if !flashOk s then (flashRefuse (s.wr Reg.UPD_STATUS.upd_err 0 5) 5, false)
  else
    let s := imgCopy s stagingBase (halfBase (1 - r.half)) 0x200_0000
    let s := recStore s { r with half := 1 - r.half, verCur := imgVer (imgHeader s stagingBase), verPrev := r.verCur,
                                 unconfirmed := true, armed := false, fallback := false }
    ({ s with fl := { s.fl with confirmEnd := none, expired := false } }, true)

/-- Steps 3 to 6 of R454. -/
def bootRun (s : State) : State :=
  let (s, new) := activate s
  let r := bootRec s
  let cur := halfBase r.half
  let prev := halfBase (1 - r.half)
  let barred := r.unconfirmed && (r.fallback || s.fl.cause == 5 || s.fl.cause == 7)
  if !barred && imgError s cur == 0 then imageStart s cur new
  else
    let s := s.wr Reg.BOOT_STATUS.fell_back 0 1
    if imgError s prev == 0 then
      let s := recWrite s { r with half := 1 - r.half, verCur := r.verPrev, verPrev := r.verCur, unconfirmed := false, fallback := false }
      imageStart { s with fl := { s.fl with confirmEnd := none, expired := false } } prev true
    else if imgError s stagingBase == 0 then imageStart s stagingBase true
    else { s with fl := { s.fl with noImage := true } }

/-- The boot ROM has listened for 100 ms (R454 step 2). -/
def bootDue (s : State) : State :=
  match s.fl.bootAt with
  | some t => if decide (t + 100 * msU ≤ s.clk) && !s.fl.noImage then bootRun s else s
  | none => s

/-! ### Resets (R457 to R461) -/

/-- Register fields outside the always-on island that a warm reset keeps: rows of Table 15-4, and counts since cold start or power-on. -/
def warmFields : List Fld :=
  [Reg.BOOT_STATUS.starts, Reg.WDOG.wdog_fires, Reg.UPD_PEER.known, Reg.UPD_PEER.peer_levels, Reg.UPD_STATUS.stage_state,
   Reg.UPD_STAGE_VER.stage_ver, Reg.SCRIBE_INFO.faults, Reg.SCRIBE_SUBSTS.substs, Reg.LA_RW_COUNT.holds, Reg.LA_RW_COUNT.rewinds] ++
  [Reg.LA_SUBST_BASE.subst_base, Reg.INSP_INK_BASE.ink_base, Reg.CL_CU_BASE.cu_base, Reg.INSP_PORT_STATE.gear,
   Reg.INSP_PORT_STATE.link_up, Reg.INSP_PORT_STATE.uplink_up, Reg.INSP_PORT_STATE.retrains, Reg.CL_XSHIFT.xs_applied,
   Reg.CL_RECAL_STATUS.recal_runs, Reg.MOT_AX_STATE.homed, Reg.MOT_STATUS.homed_map, Reg.MOT_AX_POS_LO.pos_lo,
   Reg.MOT_AX_POS_HI.pos_hi] ++
  [Reg.FB_POS_LO.fpos_lo, Reg.FB_POS_HI.fpos_hi, Reg.FB_COUNT.count, Reg.FB_REV.rev, Reg.FB_IDX_COUNT.idx_count, Reg.FB_IDX_N.idx_n,
   Reg.EMU_STATE.emu_running, Reg.EMU_STATE.backlog, Reg.MEM_STATUS.snap_valid, Reg.MEM_STATUS.rep_full,
   Reg.MEM_REPAIR.lanes_remapped, Reg.MEM_REPAIR.rows_repaired, Reg.MEM_RR_STATUS.rr_retired, Reg.MEM_RR_STATUS.rr_spares,
   Reg.BND_IN_BYTES.in_bytes, Reg.BND_OUT_BYTES.out_bytes] ++
  [Reg.LANE_STATE.ctle, Reg.LANE_DFE.tap, Reg.PAIR_STATUS.primary, Reg.PAIR_STATUS.switchovers, Reg.PAIR_SYNC.resyncs,
   Reg.PKG_STRAP.pair_role_strap, Reg.PKG_SUPPLY_STATUS.in_range, Reg.PKG_SUPPLY_VAL.v_now, Reg.LEDGER_SNAP.snap_free,
   Reg.LEDGER_SNAP_LINE_LO.snap_line_lo, Reg.LEDGER_SNAP_LINE_HI.snap_line_hi]

/-- A stored field outlives a warm reset. `pcie` says that the reset came over PCIe, which clears the MSI-X table (Table 15-4). -/
def warmKeeps (pcie : Bool) (kv : Nat × Nat) : Bool :=
  let a := keyAddr kv.1
  islandReg a || (!pcie && (a / 4096 == 0xFE0 || a / 4096 == 0xFF0)) ||
  warmFields.any (fun f => f.lsb == kv.1 / 4096 % 32 && (f.addr == a ||
    (f.bank != .one && decide (f.addr * 32 + f.lsb = kv.1 / 4096)))) ||
  (kv.1 / 4096 == Reg.SCRIBE_STATE.state.addr * 32 + Reg.SCRIBE_STATE.state.lsb && kv.2 == 2) ||
  (kv.1 / 4096 == Reg.LANE_STATE.lstate.addr * 32 + Reg.LANE_STATE.lstate.lsb && kv.2 == 5)

/-- A ring whose descriptors lie in host memory (R459). -/
def hostRing (s : State) (n : Nat) : Bool := decide (hostBit ≤ s.ent (chRing n) RingE.base)

/-- Descriptors popped and not completed on rings in host memory are completed: 0x709 by a Bindery unit, else 0xFFFF_0002. -/
def ringsClose (s : State) : State :=
  s.rings.foldl (fun s c =>
    if hostRing s c.1 then
      c.2.flight.foldl (fun s x =>
        let status := if decide (0x100 ≤ x.2) && decide (x.2 < 0x110) then 0x709 else 0xFFFF0002
        ringComplete s c.1 x.1 status 0) s
    else s) s

/-- Ledger counters of descriptors of rings in host memory. -/
def keptCounters (s : State) : Tbl Nat :=
  s.rings.foldl (fun t c => if hostRing s c.1 then
    [Led.descPosted c.1, Led.descConsumed c.1, Led.descCompleted c.1, Led.descInFlight c.1].foldl (fun t o => t.put o (s.ledGet o)) t
    else t) []

/-- Every open job closes, its held lines withheld (R458). -/
def closeJobs : Nat → State → State
  | 0, s => s
  | n + 1, s => if s.la.jobs.isEmpty then s else closeJobs n (withholdHeld s)

/-- Steps 2 to 4 of R458: held lines withheld, jobs closed, usage sent, the final snapshot taken. -/
def jobsEnd (s : State) : State :=
  let s := closeJobs s.la.jobs.length s
  let s := (List.range 80).foldl usageOut s
  snapDone (s.snapTake true)

/-- The channels whose entries the always-on island holds: rings in host memory, feedback inputs, emulator outputs, time triggers. -/
def keptEntries (s : State) : Tbl (List Byte) :=
  s.cat.inEffect.filter (fun c =>
    (decide (0x400 ≤ c.1) && decide (c.1 < 0x500) && hostRing s (c.1 - 0x400)) ||
    (decide (0x310 ≤ c.1) && decide (c.1 < 0x31C)) || (decide (0x500 ≤ c.1) && decide (c.1 < 0x540)))

/-- Pipelines retired since the cold start stay so (R430). -/
def retiredPipes (s : State) : Tbl Pipe :=
  s.insp.pipes.filterMap (fun c => if c.2.retired then some (c.1, { Pipe.reset with retired := true }) else none)

/-- What stands once no unit outside the always-on island holds anything of its own: what Table 15-4 keeps over a warm reset. `freeze` drops
the Stacks and the Ledger snapshot, `pcie` the MSI-X table. -/
def quench (s : State) (freeze pcie : Bool) : State :=
  let island := s.rings.filter (fun c => hostRing s c.1)
  let aon := (keptEntries s).filter (fun c => decide (0x400 ≤ c.1) && decide (c.1 < 0x500))
  let mem := s.mem.filter (fun c => !(freeze && decide (c.1 < stacksSize)) && !(decide (localBase 0 ≤ c.1) && decide (c.1 < flashBase)))
  { State.reset with
    clk := s.clk, timeOff := s.timeOff, freeN := s.freeN, out := s.out, pending := s.pending, mem := mem
    regs := resetRegs.foldl (fun (t : Tbl Nat) (kv : Nat × Nat) => if (Tbl.find t kv.1).isSome then t else t.put kv.1 kv.2)
      (s.regs.filter (warmKeeps pcie))
    cat := { Catalog.reset with inEffect := keptEntries s }
    rings := island, evHeld := s.evHeld, evLost := s.evLost
    led := { Ledger.reset with
      live := keptCounters s, snap := if freeze then [] else s.led.snap, seqStarted := s.led.seqStarted, seqDone := s.led.seqDone }
    md := { Modes.reset with mySeq := s.md.mySeq, dieForbids := s.md.dieForbids }
    mot := { Motion.reset with
      switches := s.mot.switches, inputs := s.mot.inputs, emus := s.mot.emus
      axes := s.mot.axes.map (fun (c : Nat × Axis) => (c.1, { Axis.reset with p := c.2.p, shift := c.2.shift })) }
    insp := { Insp.reset with ports := s.insp.ports, pipes := retiredPipes s }
    tu := { s.tu with burstDue := [] }, net := s.net, th := { s.th with tripDue := false }
    st := { Stacks.reset with
      repaired := s.st.repaired, spares := s.st.spares, snap := s.st.snap, bankMap := s.st.bankMap, bankSpares := s.st.bankSpares
      bankBad := s.st.bankBad, rrBad := s.st.rrBad, codes := s.st.codes, laneMap := s.st.laneMap, laneBad := s.st.laneBad }
    engines := (List.range 16).foldl (fun t p => let e := s.eng p
      if e.faults = 0 then t else t.put p { Engine.reset with faults := e.faults, faultTimes := e.faultTimes }) []
    fl := { s.fl with
      resetAsk := none, resetWait := none, setJob := none, setStarted := false, halfDue := false
      recv := none, send := [], verify := 0, arming := false, staging := false, aonRings := aon } }

/-- The warm reset itself: what Table 15-4 keeps stands, all else starts anew; the boot ROM listens (R454). -/
def warmWipe (s : State) (cause : Nat) : State :=
  let old := s.mode
  let line := nextDue s
  let freeze := old == modeFreeze || cause == 4
  let prev := if s.fl.resetAsk.isSome then s.rd Reg.MODE_CUR.prev_mode else old
  let s := if old = modeShadow || freeze || s.md.tripped then s else jobsEnd s
  let s := epochAbandon (ringsClose (substCommitAll s))
  let epoch := s.rd Reg.EPOCH_STATUS.state
  let s' := quench s freeze (cause == 3 || cause == 6)
  let s' := { s' with fl := { s'.fl with
    bootAt := some s.clk, cause := if freeze then 4 else cause, noImage := false, pairReset := s.on Reg.PAIR_CFG.pair_en || s.fl.pairReset } }
  let s' := if epoch = 5 || epoch = 6 then s'.wr Reg.EPOCH_STATUS.state 0 epoch else s'
  let s' := if s.md.tripped then s'.emit (.ball .tripN true) else s'
  let s' := (s'.wr Reg.BOOT_STATUS.boot_cause 0 (if freeze then 4 else cause)).count Reg.BOOT_STATUS.starts
  let s' := ((s'.wr Reg.MODE_CUR.mode 0 modeReload).wr Reg.MODE_CUR.prev_mode 0 prev).wr Reg.MODE_CUR.cause 0 causeReset
  let s' := twinLanesBoot s' false
  if s.fl.resetAsk.isSome then s' else modeEvent s' modeReload prev causeReset line

/-- Lines are held, or a RELEASE awaits its acknowledgement, in some slot. -/
def linesOut (s : State) : Bool := (List.range 80).any (fun k => (s.slot k).parts != [])

/-- A warm reset starts (R50, R458): where lines run, at the next line boundary, from which none is released; at once otherwise, with the wait
for REL_ACK where lines are out. -/
def warmBegin (s : State) (cause : Nat) : State :=
  if s.fl.resetAsk.isSome then s
  else if s.mode = modeShadow || s.mode = modeFreeze || s.mode = modeCold || s.mode = modeReload then warmWipe s cause
  else if headsRunning s then
    let s := setStopFrom s (lineAfterPassed s)
    requestMode { s with fl := { s.fl with resetWait := some cause } } modeReload causeReset
  else if linesOut s then
    reloadMode { setStopFrom s (lineAfterPassed s) with fl := { s.fl with resetWait := some cause } } s.fire.refNext
  else warmWipe s cause

/-- The wait for REL_ACK ends. -/
def warmWaited (s : State) : State :=
  match s.fl.resetAsk with
  | some (cause, t) => if t + 50 * usU ≤ s.clk then warmWipe s cause else s
  | none => s

/-- This device is the active one of a pair. -/
def activeOfPair (s : State) : Bool := s.on Reg.PAIR_CFG.pair_en && s.rd Reg.PAIR_STATUS.role_now == 1

/-- A fault at Registrar privilege (R113). -/
def registrarReset (s : State) : State := if s.md.tripped then s else warmBegin s 7

/-- A warm reset asked for by LX_RESET (R421): a planned handover first where it is allowed, TWIN_FAIL first otherwise. -/
def resetAsk (s : State) : State :=
  if !hostOpen s || s.md.tripped || s.fl.resetAsk.isSome || s.fl.resetWait.isSome || s.pair.handReset then s
  else if activeOfPair s then
    if partnerReady s && handAllowed s then handAsk s 2 true else warmBegin (twinFail s 2) 2
  else warmBegin s 2

/-- An assertion of PE_PERST_N, or a PCIe hot reset. -/
def perst (s : State) : State :=
  if s.md.tripped then
    if (liveSensors s).all (fun n => decide (s.rdi Reg.THERM_SENS.s_value n < 1600)) then warmWipe s 6 else s
  else if s.mode = modeCold then s
  else
    let s := if s.fl.resetAsk.isSome then s else if activeOfPair s then twinFail s 2 else s
    warmBegin (handDrop s) 3

/-- The Registrar missed its watchdog (R460). -/
def watchdog (s : State) : State :=
  if s.md.tripped || s.mode = modeCold then s else warmBegin (s.count Reg.WDOG.wdog_fires) 5

/-- The device is held in reset: what a cold start loses is lost (Table 15-4). Host memory, the flash, and what counts from power-on
stay. -/
def coldWipe (s : State) : State :=
  let keep := [Reg.THERM_TRIP.trip_count, Reg.THERM_TRIP.trip_src, Reg.BOOT_STATUS.starts, Reg.PKG_SUPPLY_STATUS.in_range,
    Reg.PKG_SUPPLY_VAL.v_now]
  let regs := s.regs.filter (fun kv => keep.any (fun f => f.addr * 32 + f.lsb == kv.1 / 4096))
  { State.reset with
    clk := s.clk, timeOff := s.timeOff, freeN := s.freeN, out := s.out, pending := s.pending
    mem := s.mem.filter (fun c => (decide (hostBit ≤ c.1) && decide (c.1 < 2 * hostBit)) || decide (flashBase ≤ c.1))
    regs := resetRegs.foldl (fun (t : Tbl Nat) (kv : Nat × Nat) => if (Tbl.find t kv.1).isSome then t else t.put kv.1 kv.2) regs
    th := { Thermal.reset with railsBad := s.th.railsBad }
    fl := { Flash.reset with
      repair := s.fl.repair.filter (fun r => r.2.2), recA := s.fl.recA, recB := s.fl.recB, cleared := s.fl.cleared, rejected := s.fl.rejected } }

/-- Repairs of the record, applied again at a cold start (R355, R356, R400). -/
def repairsApply (s : State) : State := s.fl.repair.foldl (fun s r => repairApply s r.1 r.2.1) s

/-- COLD_START (R454 steps 1 and 2): device time starts at 0, the strap is sampled, the boot ROM listens. -/
def coldStart (s : State) : State :=
  let s := coldWipe s
  let off : Int := -(s.clk : Int)
  let s := { s with
    timeOff := off, tu := { s.tu with rateFrom := s.clk, offFrom := off }, net := { s.net with coldAt := s.clk }
    th := { s.th with railsBad := [] }, fl := { s.fl with bootAt := some s.clk, cause := 1 } }
  let s := s.wr Reg.PKG_SUPPLY_STATUS.in_range 0 0x3FF
  let strap := Config.fuse 81 % 2
  let s := (s.wr Reg.PKG_STRAP.pair_role_strap 0 strap).wr Reg.PAIR_STATUS.primary 0 strap
  let s := ((s.wr Reg.BOOT_STATUS.boot_cause 0 1).count Reg.BOOT_STATUS.starts).emit (.ball .tripN true)
  let s := ((s.wr Reg.MODE_CUR.mode 0 modeReload).wr Reg.MODE_CUR.prev_mode 0 modeCold).wr Reg.MODE_CUR.cause 0 causeReset
  twinLanesBoot (repairsApply (modeEvent s modeReload modeCold causeReset 0)) true

/-! ### The end of RELOAD (R409, R454 step 7) -/

/-- Every physical Scribe whose entry names a logical one starts as that one, 14 of them at most (R77); the rest are spares. -/
def scribesStart (s : State) : State :=
  let s := (List.range 16).foldl (fun s p =>
    if s.rd Reg.SCRIBE_STATE.state p = 2 then s
    else match s.entry (chScribe p) with
      | some e =>
        let l := ScribeE.role.get e
        if l < 16 ∧ !s.on Reg.SCRIBE_MAP.valid l ∧ scribesMapped s < 14 then
          let s := scribeStart s l p
          if s.rd Reg.SCRIBE_STATE.state p = 3 then scribeServe s l p else s
        else s
      | none => s) s
  (List.range 16).foldl spareGoes s

/-- The confirm window of an unconfirmed image begins at the end of its first RELOAD (R476). -/
def windowStart (s : State) : State :=
  if s.on Reg.BOOT_STATUS.unconfirmed && s.fl.confirmEnd.isNone then
    { s with fl := { s.fl with confirmEnd := some (s.devTime + s.rd Reg.UPD_CONFIRM.confirm_s * secU) } }
  else s

/-- The delay codes of a pseudo-channel as a full training finds them, 36 lanes. -/
def codesTrain (s : State) (pc : Nat) : State :=
  { s with st := { s.st with codes := s.st.codes.put pc ((List.range 36).map (fun i => ((Config.free (163 + 1000 * i) s.freeN % 64 : Nat) : Int))) } }.spend

/-- Every pseudo-channel after a cold start is trained in full; after a warm reset each is checked by a single pass, and one that fails the
check is trained in full (R357, Table 15-4). Which fail is open. -/
def codesStart (s : State) : State :=
  (List.range 64).foldl (fun s pc => if s.fl.cause = 1 || s.freeVal (1000 * pc + 164) % 2 == 0 then codesTrain s pc else s) s

/-- Training of the Stacks ends (R356, R357): lanes that failed it, or before, take redundant lanes; where one is left without, its
pseudo-channel fails, and the device stays in RELOAD with `cause` 0x6. -/
def stacksTrain (s : State) : State :=
  let s := lanesFix s
  let s := codesStart { s with st := { s.st with trainPos := 0 } }
  if s.st.laneBad = [] then s.wr Reg.MEM_STATUS.trained 0 1
  else ({ s with st := { s.st with trainBad := true } }).wr Reg.MODE_CUR.cause 0 causeHbm

/-- RELOAD_END. -/
def reloadDone (s : State) : State :=
  if s.mode ≠ modeReload || s.fl.cause = 0 || s.fl.resetAsk.isSome || s.pair.reloadEnd.isSome || s.st.trainBad then s
  else
    let s := if s.fl.bootAt.isSome && !s.fl.noImage then bootRun s else s
    let s := if s.fl.bootAt.isSome then s else stacksTrain s
    if s.fl.bootAt.isSome || s.st.trainBad then s
    else
      let s := (s.wrb Reg.CL_CTRL.loops_run 0 (Config.imageLoops (s.rd Reg.LX_FW_VER.fw_version)))
      let s := groupsWake (scribesStart s)
      let s := windowStart { s with fl := { s.fl with cause := 0 } }
      reloadPair s

end Sys2Proof.Machine
end

