-- ==== Sys2Proof/Machine/Update.lean ====
section
/-! DEFINITION. Settings writes, the transfer of images along a ring, activation, CONFIRM and fallback, and the levels heard
(chapter 15: R466, R470 to R480). -/

namespace Sys2Proof.Machine

/-! ### Settings commands (R466) -/

/-- The registers with a field marked "from settings image", each copy's address once, ascending. -/
def imageAddrs : List Nat :=
  (regTable.filter (fun f => f.image)).foldl (fun l f =>
    let as := match f.bank with
      | .arr st n => (List.range n).map (fun i => f.addr + st * i)
      | .packed _ per n => (List.range ((n + per - 1) / per)).map (fun i => f.addr + 4 * i)
      | _ => [f.addr]
    as.foldl (fun l a => if l.contains a then l else l ++ [a]) l) []

/-- The REG record of a register as it stands. -/
def saveRec (s : State) (a : Nat) : SetRec :=
  let f := match (imgPriv s.fl.header).find? (fun p => p.1 == a) with | some p => p.2 | none => 0
  (1, f, a, leBytes 4 (fieldsWord s (imageFields s a)))

/-- The records of the slot in use other than REG, which every settings write keeps. -/
def otherRecs (s : State) : List SetRec :=
  let src := s.rd Reg.SET_STATUS.settings_src
  if src = 1 ∨ src = 2 then (slotRecs (slotAt s (slotBase (s.rd Reg.SET_STATUS.set_slot)))).filter (fun r => r.1 != 1) else []

/-- A settings write begins, or waits for `flash_ok` (R446). -/
def setBegin (s : State) (job : Nat × List Byte) : State :=
  let s := { s with fl := { s.fl with setJob := some job, setStarted := flashOk s } }.wr Reg.SET_STATUS.set_busy 0 1
  if flashOk s then s else flashRefuse s 1

/-- SET_CMD is open to the host, and no settings write is in progress. -/
def setOpen (s : State) : Bool := hostOpen s && !s.on Reg.SET_STATUS.set_busy

def setSave (s : State) : State :=
  if !setOpen s then s
  else
    let recs := (imageAddrs.map (saveRec s) ++ otherRecs s).flatMap SetRec.bytes
    setBegin s (writeSlot s, slotBytes (imgFmt s.fl.header) (nextSetGen s) (imgVer s.fl.header) recs)

/-- The slot that host software built at SET_ADDR. -/
def setWrite (s : State) : State :=
  if !setOpen s then s
  else
    let a := s.rd2 Reg.SET_ADDR_LO.set_addr_lo Reg.SET_ADDR_HI.set_addr_hi
    let b := s.peekBytes a (64 + min (s.peekNat (a + 12) 4) 1048512)
    let priv := imgPriv s.fl.header
    let good := slotValid b && slotFmt b == imgFmt s.fl.header &&
      (slotRecs b).all (fun r => r.1 != 1 || !(priv.any (fun p => p.1 == r.2.2.1 && p.2 != r.2.1)))
    if good then setBegin s (writeSlot s, b) else s.wr Reg.SET_RESULT.set_result 0 2

def setClear (s : State) : State := if !setOpen s then s else setBegin s (0, [])

/-- SETTINGS_WRITE_COMPLETE. With flash writes forbidden since the write began, its next program is refused and the write is held (R446,
log 139). -/
def setDone (s : State) : State :=
  match s.fl.setJob with
  | none => s
  | some (i, b) =>
    if !s.fl.setStarted then s
    else if !flashOk s then flashRefuse { s with fl := { s.fl with setStarted := false } } 1
    else
      let s := if b = [] then { s with fl := { s.fl with cleared := true } }
        else { s with mem := Mem.write (memErase s.mem (slotBase i) 0x10_0000) (slotBase i) b, fl := { s.fl with cleared := false } }
      let s := { s with fl := { s.fl with setJob := none, setStarted := false } }
      (s.wr Reg.SET_STATUS.set_busy 0 0).wr Reg.SET_RESULT.set_result 0 1

/-! ### The transfer buffer and the senders (R470 to R473) -/

def rtOffer : Nat := 4
def rtData : Nat := 5
def rtAck : Nat := 6
def rtLevels : Nat := 7

/-- The transfer buffer in the Stacks (UPD_BUF). -/
def bufBase (s : State) : Nat := s.rd Reg.UPD_BUF.buf_base * 0x200_0000

def setUpdErr (s : State) (e : Nat) : State := s.wr Reg.UPD_STATUS.upd_err 0 e

/-- A transfer is in progress at this device, into its buffer. -/
def receiving (s : State) : Bool := s.fl.recv.isSome || s.fl.verify != 0 || s.fl.staging || s.fl.halfDue

def facesDevice (s : State) (k : Nat) : Bool := decide (k < 2) && s.on Reg.RING_PORT_STATE.partner_lx k

/-- An image transfer frame out of one port, `hops_left` 0 (R470). -/
def linkOne (s : State) (k rtype : Nat) (body : List Byte) : State := ringOut (nextRseq s) k ((ringFrame s rtype body).set 20 0)

/-- A transfer frame of a sender, its last one from then on. -/
def xferFrame (s : State) (k : Nat) (x : Sender) (rtype : Nat) (body : List Byte) (ask : Bool) : State :=
  let x := { x with lastType := rtype, lastBody := body, askedAt := if ask then some s.clk else x.askedAt }
  linkOne { s with fl := { s.fl with send := s.fl.send.put k x } } k rtype body

/-- IMG_OFFER out of port `k` of the image at `base` (R471). -/
def offer (s : State) (k base : Nat) : State :=
  if !facesDevice s k || (Tbl.find s.fl.send k).isSome then s
  else
    let n := (s.fl.xferN + 1) % 2 ^ 18
    let id := nodeNow s + n * 16384
    let h := imgHeader s base
    let s := { s with fl := { s.fl with xferN := n } }
    xferFrame s k
      { id := id, base := base, len := imgLen h, next := 0, unacked := [], resend := [], phase := 1, lastType := 0, lastBody := [],
        repeats := 0, askedAt := none, nextAt := s.clk } rtOffer (leBytes 4 id ++ h) true

def xferBlocks (len : Nat) : Nat := (len + 65535) / 65536

/-- IMG_DATA_SEND: the next segment to send again, or the next one while fewer than 4 blocks are unacknowledged; paced at `upd_rate`. -/
def dataSend (s : State) (k : Nat) : State :=
  match Tbl.find s.fl.send k with
  | none => s
  | some x =>
    let fresh := decide (x.next < 64 * xferBlocks x.len) && (x.next % 64 != 0 || decide (x.unacked.length < 4))
    let seg : Option (Nat × Bool × Sender) := match x.resend with
      | n :: rest => some (n, rest.isEmpty, { x with resend := rest })
      | [] => if fresh then some (x.next, x.next % 64 == 63, { x with
          next := x.next + 1, unacked := if x.next % 64 = 0 then x.unacked ++ [x.next / 64] else x.unacked }) else none
    if x.phase ≠ 2 || decide (s.clk < x.nextAt) then s
    else match seg with
      | none => s
      | some (n, last, x) =>
        let x := { x with nextAt := s.clk + 1024 * 1000 * nsU / max 1 (s.rd Reg.UPD_RATE.upd_rate) }
        xferFrame s k x rtData (leBytes 4 x.id ++ leBytes 2 (n / 64) ++ leBytes 1 (n % 64) ++ leBytes 1 0 ++
          Mem.read s.mem (x.base + 1024 * n) (min 1024 (x.len - 1024 * n)) ++
          List.replicate (1024 - min 1024 (x.len - 1024 * n)) 0) last

def sendEnd (s : State) (k : Nat) : State := { s with fl := { s.fl with send := Tbl.del s.fl.send k } }

/-- IMG_ACK (R471): 0x00 WANT, 0x01 HAVE, 0x02 BUSY, 0x03 REFUSE, 0x10 BLOCK_OK, 0x11 MISSING, 0x20 VERIFIED, 0x21 FAILED. -/
def ackGot (s : State) (k id code err block missing : Nat) : State :=
  match Tbl.find s.fl.send k with
  | none => s
  | some x =>
    if x.id ≠ id then s
    else
      let x := { x with repeats := 0 }
      let keep (x : Sender) : State := { s with fl := { s.fl with send := s.fl.send.put k x } }
      if code = 0 then if x.phase = 1 then keep { x with phase := 2, askedAt := none } else s
      else if code = 1 ∨ code = 2 then if x.phase = 1 then sendEnd s k else s
      else if code = 3 then if x.phase = 1 then setUpdErr (sendEnd s k) err else s
      else if code = 0x10 then
        let left := x.unacked.filter (· != block)
        let isOver := left.isEmpty && x.resend.isEmpty && decide (64 * xferBlocks x.len ≤ x.next)
        keep { x with unacked := left, phase := if isOver then 3 else x.phase, askedAt := if left.isEmpty && !isOver then none else some s.clk }
      else if code = 0x11 then
        let segs := ((List.range 64).filter (fun n => bit missing n)).map (· + 64 * block)
        keep { x with resend := segs ++ x.resend.filter (fun n => !segs.contains n), askedAt := some s.clk }
      else if code = 0x20 then sendEnd s k
      else if code = 0x21 then setUpdErr (sendEnd s k) err
      else s

/-- IMG_ACK_TIMEOUT: the last frame again after 100 ms without the answer due; after 10 repeats the transfer is abandoned. -/
def ackTimeout (s : State) (k : Nat) : State :=
  match Tbl.find s.fl.send k with
  | none => s
  | some x =>
    match x.askedAt with
    | none => s
    | some t =>
      if s.clk < t + 100 * msU then s
      else if 10 ≤ x.repeats then setUpdErr (sendEnd s k) 8
      else xferFrame s k { x with repeats := x.repeats + 1 } x.lastType x.lastBody true

/-! ### The receiver -/

def ackSend (s : State) (k id code err block missing : Nat) : State :=
  if facesDevice s k then
    linkOne s k rtAck (leBytes 4 id ++ leBytes 1 code ++ leBytes 1 err ++ leBytes 2 block ++ leBytes 8 missing)
  else s

/-- Where this device holds an image of a header's version and digest: the image it runs, the staging bank, or the buffer once checked. -/
def holdsImage (s : State) (h : List Byte) : Option Nat :=
  let same (g : List Byte) : Bool := imgVer g == imgVer h && imgDigest g == imgDigest h
  let st := s.rd Reg.UPD_STATUS.stage_state
  if s.fl.header != [] && same s.fl.header then some s.fl.runBase
  else if (st == 3 || st == 4 || st == 5) && same (imgHeader s stagingBase) then some stagingBase
  else if (st == 2 || st == 6) && s.fl.verify == 0 && same (imgHeader s (bufBase s)) then some (bufBase s)
  else none

/-- IMG_OFFER received (R471). -/
def offerGot (s : State) (k id : Nat) (h : List Byte) : State :=
  if 2 ≤ k then s
  else if !imgHeaderOk h then ackSend s k id 3 1 0 0
  else match holdsImage s h with
    | some base => offer (ackSend s k id 1 0 0 0) (1 - k) base
    | none =>
      let again := match s.fl.recv with | some r => r.id == id && r.port == k | none => false
      let busy := s.rd Reg.MODE_CUR.power == 2 || s.mode == modeFreeze || (receiving s && !again) || (bootRec s).armed || s.fl.arming
      if busy then ackSend s k id 2 0 0 0
      else
        let s := { s with fl := { s.fl with recv := some { id := id, port := k, len := imgLen h, got := [], blocks := [] } } }
        let s := (s.wr Reg.UPD_STATUS.stage_state 0 1).wr Reg.UPD_STATUS.blocks 0 0
        ackSend s k id 0 0 0 0

/-- IMG_DATA received: into the buffer; a whole block is acknowledged, and after the last one the image is to be checked. -/
def dataGot (s : State) (k id block seg : Nat) (data : List Byte) : State :=
  match s.fl.recv with
  | none => s
  | some r =>
    let n := xferBlocks r.len
    if r.id ≠ id || r.port ≠ k || decide (n ≤ block) || decide (64 ≤ seg) || decide (data.length ≠ 1024) then s
    else
      let m := 64 * block + seg
      let s := s.pokeList (bufBase s + 1024 * m) data
      let got := if r.got.contains m then r.got else m :: r.got
      let lack := (List.range 64).filter (fun j => !got.contains (64 * block + j))
      if lack.isEmpty then
        let blocks := if r.blocks.contains block then r.blocks else block :: r.blocks
        let s := s.wr Reg.UPD_STATUS.blocks 0 blocks.length
        let s := { s with fl := { s.fl with
            recv := some { r with got := got, blocks := blocks }, verify := if blocks.length = n then 1 else s.fl.verify } }
        ackSend s k id 0x10 0 block 0
      else
        let s := { s with fl := { s.fl with recv := some { r with got := got } } }
        if seg = 63 then ackSend s k id 0x11 0 block (lack.foldl (fun w j => w + 2 ^ j) 0) else s

/-- The staging write begins, or waits for `flash_ok` (R472). -/
def stageBegin (s : State) : State :=
  let s := { s with fl := { s.fl with staging := true } }
  if flashOk s then s.wr Reg.UPD_STATUS.stage_state 0 2 else flashRefuse (s.wr Reg.UPD_STATUS.stage_state 0 6) 4

/-- The image at `base` becomes half 0, current and confirmed (R456). -/
def firstHalf (s : State) (base : Nat) : State :=
  let s := imgCopy { s with fl := { s.fl with halfDue := false } } base (halfBase 0) 0x200_0000
  let v := imgVer (imgHeader s (halfBase 0))
  recStore s { bootRec s with half := 0, verCur := v, unconfirmed := false, armed := false, fallback := false }

/-- IMAGE_VERIFY_COMPLETE (R469, R472): forwarded at once, staged in the background; with no image to run it is booted (R456), from the
transfer buffer while flash writes are forbidden, its write then held (R446, log 139). -/
def verifyDone (s : State) : State :=
  if s.fl.verify = 0 then s
  else
    let e := imgError s (bufBase s)
    let from_ := s.fl.recv
    let s := { s with fl := { s.fl with verify := 0, recv := none } }
    let s := setUpdErr s e
    if e = 0 then
      let s := match from_ with
        | some r => offer (ackSend s r.port r.id 0x20 0 0 0) (1 - r.port) (bufBase s)
        | none => s
      if s.fl.noImage then
        if flashOk s then imageStart (firstHalf s (bufBase s)) (halfBase 0) true
        else imageStart (flashRefuse { s with fl := { s.fl with halfDue := true } } 4) (bufBase s) true
      else stageBegin s
    else
      let s := match from_ with | some r => ackSend s r.port r.id 0x21 e 0 0 | none => s
      showStage s

/-- STAGING_WRITE_COMPLETE: the bank written and read back; `same` says that it reads back as written. With flash writes forbidden since it
began, its next program is refused and the write starts again later (R446, R472). -/
def stageDone (s : State) (same : Bool) : State :=
  if !s.fl.staging then s
  else if !flashOk s then
    if s.rd Reg.UPD_STATUS.stage_state = 6 then s else flashRefuse (s.wr Reg.UPD_STATUS.stage_state 0 6) 4
  else
    let s := { s with fl := { s.fl with staging := false, rejected := false } }
    if same then
      let s := imgCopy s (bufBase s) stagingBase 0x400_0000
      (s.wr Reg.UPD_STATUS.stage_state 0 3).wr Reg.UPD_STAGE_VER.stage_ver 0 (imgVer (imgHeader s stagingBase))
    else setUpdErr ((({ s with mem := memErase s.mem stagingBase 0x400_0000 }).wr Reg.UPD_STATUS.stage_state 0 0).wr
      Reg.UPD_STAGE_VER.stage_ver 0 0) 6

/-! ### UPD_CMD (R473 to R476) -/

/-- `load`: the image at UPD_ADDR into the buffer, to be checked. -/
def updLoad (s : State) : State :=
  if !hostOpen s || receiving s || (bootRec s).armed || s.fl.arming then s
  else
    let a := s.rd2 Reg.UPD_ADDR_LO.upd_addr_lo Reg.UPD_ADDR_HI.upd_addr_hi
    let n := max 1024 (min 33554432 (s.peekNat (a + 8) 4))
    if (areaOf a = .stacks ∨ areaOf a = .host) ∧ areaOf (a + n - 1) = areaOf a then
      let s := s.pokeList (bufBase s) (s.peekBytes a n)
      ({ s with fl := { s.fl with verify := 2 } }.wr Reg.UPD_STATUS.stage_state 0 1).wr Reg.UPD_STATUS.blocks 0 0
    else setUpdErr s 7

/-- `arm` (R474). -/
def updArm (s : State) : State :=
  let st := s.rd Reg.UPD_STATUS.stage_state
  if !hostOpen s || s.fl.arming then s
  else if !(st == 3 || st == 5) || (bootRec s).unconfirmed then setUpdErr s 9
  else if !levelsFit s (imgHeader s stagingBase) then setUpdErr s 4
  else if !flashOk s then flashRefuse (setUpdErr s 5) 3
  else setUpdErr { s with fl := { s.fl with arming := true } } 0

/-- ARM_COMPLETE: the half not running is erased and the armed flag written. With flash writes forbidden since the arm began, its next erase
is refused, shown in `upd_err`, and held (R446, log 139). -/
def armDone (s : State) : State :=
  if !s.fl.arming then s
  else if !flashOk s then if s.rd Reg.UPD_STATUS.upd_err = 5 then s else flashRefuse (setUpdErr s 5) 3
  else
    let r := bootRec s
    let s := { s with mem := memErase s.mem (halfBase (1 - r.half)) 0x200_0000, fl := { s.fl with arming := false } }
    (recStore (setUpdErr s 0) { r with armed := true, verPrev := 0 }).wr Reg.UPD_STATUS.stage_state 0 4

def updDisarm (s : State) : State :=
  if !hostOpen s then s
  else if s.fl.arming then { s with fl := { s.fl with arming := false } }
  else if (bootRec s).armed then
    (recWrite s { bootRec s with armed := false }).wr Reg.UPD_STATUS.stage_state 0 (if s.fl.rejected then 5 else 3)
  else s

/-- CONFIRM (R476): the image is confirmed, unless its window has expired. -/
def confirm (s : State) : State :=
  if !s.on Reg.BOOT_STATUS.unconfirmed || s.fl.expired then s
  else
    let s := { s with fl := { s.fl with confirmEnd := none } }.wr Reg.BOOT_STATUS.unconfirmed 0 0
    recWrite s { bootRec s with unconfirmed := false, fallback := false, fmt := imgFmt s.fl.header }

def updConfirm (s : State) : State := if hostOpen s then confirm s else s

/-- What the vendor image checks before it writes CONFIRM (R476): every logical Scribe started, the lanes and Stacks trained, and in a
pair `in_sync` and `fit` held for 60 s. The settings are applied before the image runs. -/
def confirmReady (s : State) : Bool :=
  let started := (List.range 16).all (fun p => match s.entry (chScribe p) with
    | some e => let l := ScribeE.role.get e; decide (16 ≤ l) || s.on Reg.SCRIBE_MAP.valid l
    | none => true)
  let held := match s.pair.fitSince with | some t => decide (t + 60 * secU ≤ s.clk) | none => false
  hostOpen s && !s.on Reg.UPD_CONFIRM.confirm_hold && started && s.on Reg.MEM_STATUS.trained &&
  lane52.all (fun n => s.lstate n != 1) && (!s.on Reg.PAIR_CFG.pair_en || held)

def imageConfirm (s : State) : State := if confirmReady s then confirm s else s

/-- Seconds left of the confirm window. -/
def confirmLeft (s : State) : Nat :=
  match s.fl.confirmEnd with
  | some e => if s.on Reg.BOOT_STATUS.unconfirmed then (e - s.devTime) / secU else 0
  | none => 0

/-- CONFIRM_WINDOW_EXPIRY (R477). -/
def confirmExpire (s : State) : State :=
  match s.fl.confirmEnd with
  | none => s
  | some e =>
    if !s.on Reg.BOOT_STATUS.unconfirmed || s.fl.expired || decide (s.devTime < e) then s
    else
      let s := { s with fl := { s.fl with expired := true, rejected := true } }
      let s := ((recWrite s { bootRec s with fallback := true }).wr Reg.BOOT_STATUS.fallback_pend 0 1).wr Reg.UPD_STATUS.stage_state 0 5
      s.event 0x0D02 noChan 0 (imgVer s.fl.header) 0

/-- `forward`: the staged image out of the ports named. -/
def updForward (s : State) (ports : Nat) : State :=
  let st := s.rd Reg.UPD_STATUS.stage_state
  if !hostOpen s || !(st == 3 || st == 4 || st == 5) then s
  else
    let s := if bit ports 0 then offer s 0 stagingBase else s
    if bit ports 1 then offer s 1 stagingBase else s

/-- `abort transfer`. -/
def updAbort (s : State) : State :=
  if !hostOpen s || (s.fl.send = [] && s.fl.recv.isNone && s.fl.verify = 0) then s
  else setUpdErr (showStage { s with fl := { s.fl with send := [], recv := none, verify := 0 } }) 8

/-! ### Levels (R470, R478, R479) -/

/-- The levels of the image running, or about to be started. -/
def ownHeader (s : State) : List Byte := if s.fl.bootAt.isSome then imgHeader s (halfBase (bootRec s).half) else s.fl.header

/-- The twelve-byte body of LEVELS. -/
def levelsBody (s : State) : List Byte :=
  let h := ownHeader s
  leBytes 2 (nodeNow s) ++ (h.drop 16).take 6 ++ leBytes 4 (imgVer h)

def levelsSend (s : State) (k : Nat) : State := if facesDevice s k then linkOne s k rtLevels (levelsBody s) else s

/-- A neighbour's or the partner's levels are held: 0 East, 1 West, 2 partner. -/
def peerTake (s : State) (i lv ver : Nat) : State :=
  let s := (s.wr Reg.UPD_PEER.known i 1).wr Reg.UPD_PEER.peer_levels i lv
  { s with fl := { s.fl with peerVer := s.fl.peerVer.put i ver } }

def osTwinLevel : Nat := 0xC7

/-- TWIN_LEVEL on each twin lane in service. -/
def twinLevelSend (s : State) : State :=
  let h := ownHeader s
  twinSet s osTwinLevel (imgPair h * 2 ^ 24 + imgVer h % 2 ^ 24)

/-- TWIN_LEVEL received: its fields. -/
def twinLevelGot (s : State) (f : Nat) : State := peerTake s 2 (bits f 24 24) (bits f 0 24)

/-- Level at which the twin link runs: the lower of the two heard (R479). -/
def twinLevel (s : State) : Nat :=
  let own := s.rd Reg.BOOT_PAIR_LVL.pair_levels / 65536
  if s.on Reg.UPD_PEER.known 2 then min own (s.rd Reg.UPD_PEER.peer_levels 2 / 65536) else own

/-! ### Flash writes allowed again (R446) -/

/-- FLASH_OK_RESTORE: ten seconds without a break; what was held is written. -/
def flashRestore (s : State) : State :=
  match s.th.goodAt with
  | none => s
  | some t =>
    if !s.th.refused || !flashGood s 93 2 || decide (s.clk < t + 10 * secU) then s
    else
      let s := flashUpdate { s with th := { s.th with refused := false, goodAt := none } }
      let s := match s.fl.recDue with | some r => recStore s r | none => s
      let s := { s with fl := { s.fl with setStarted := s.fl.setJob.isSome } }
      let s := if s.fl.halfDue then firstHalf { s with fl := { s.fl with runBase := halfBase 0 } } s.fl.runBase else s
      if s.fl.staging then s.wr Reg.UPD_STATUS.stage_state 0 2 else s

end Sys2Proof.Machine
end

