-- ==== Sys2Proof/Machine/Startup.lean ====
section
/-! DEFINITION. The commands of starting, resets, settings and firmware update (chapter 15), of supplies (R505) and of the hardware trip
(R443), and those of a planned handover's instant (R422). -/

namespace Sys2Proof.Machine

/-! ### Trip and supplies -/

/-- A trip: 1 the digital path, 2 the comparators, 3 both; the digital path trips only after two conversions at 120 °C (R443). Every
clock outside the always-on island stops, TRIP_N goes low, and nothing is posted (R49): no unit outside the island goes on, so what only
those units hold is lost as in the warm reset or cold start that must follow. An outstanding epoch stays as its registers show it until then. -/
def trip (s : State) (src : Nat) : State :=
  let src := if s.th.tripDue then src % 4 else src / 2 % 2 * 2
  if src = 0 ∨ s.md.tripped then s
  else
    let old := s.mode
    let epoch := s.regs.filter (fun kv =>
      decide (Reg.EPOCH_STATUS.state.addr ≤ keyAddr kv.1) && decide (keyAddr kv.1 ≤ Reg.EPOCH_APPLY_LINE_HI.apply_line_hi.addr))
    let z := quench s false false
    let z := { z with regs := epoch.foldl (fun (t : Tbl Nat) (kv : Nat × Nat) => t.put kv.1 kv.2) z.regs, fl := { z.fl with bootAt := none } }
    let z := (z.count Reg.THERM_TRIP.trip_count).wr Reg.THERM_TRIP.trip_src 0 src
    let z := ((z.wr Reg.MODE_CUR.mode 0 modeCold).wr Reg.MODE_CUR.prev_mode 0 old).wr Reg.MODE_CUR.cause 0 causeTrip
    let z := { z with md := { z.md with tripped := true } }
    z.emit (.ball .tripN false)

/-- A rail outside its range for 1 µs to 10 µs (R505): supplies count as out of range, and `flash_ok` returns as after a refusal. -/
def excursion (s : State) (rail mv : Nat) : State :=
  if 10 ≤ rail then s
  else
    let s := s.wr Reg.PKG_SUPPLY_STATUS.excursion 0 (Nat.lor (s.rd Reg.PKG_SUPPLY_STATUS.excursion) (2 ^ rail))
    let was := s.rd Reg.PKG_SUPPLY_VAL.v_min rail
    let low := if was = 0 then mv else min mv was
    let s := s.wr Reg.PKG_SUPPLY_VAL.v_min rail low
    let s := flashUpdate { s with th := { s.th with refused := true, goodAt := none } }
    s.event 0x0E01 noChan 0 rail low

/-- A rail outside its range for more than 10 µs: held in reset, as RST_N low does. -/
def railLost (s : State) (rail : Nat) : State :=
  if 10 ≤ rail then s
  else
    let s := coldWipe { s with th := { s.th with railsBad := rail :: s.th.railsBad.filter (· != rail) } }
    s.wr Reg.PKG_SUPPLY_STATUS.in_range 0 (s.th.railsBad.foldl (fun n r => n - 2 ^ r) 0x3FF)

/-- A device that the die limit sent out of a pair starts a warm reset once the die is back to normal (R444). -/
def State.cool (s : State) : State :=
  if s.md.coolReset && s.rd Reg.THERM_STATUS.die_state == 0 && !s.md.tripped then
    warmBegin { s with md := { s.md with coolReset := false } } 8
  else s

/-! ### The handover's instant (R421, R422) -/

/-- The handover is abandoned: a warm reset that asked for it goes on as R421 gives, and R441 applies to a die in its warning state (R444). -/
def handAbandon (s : State) : State :=
  let again := s.pair.handReset
  let s := handDrop s
  if again then warmBegin (twinFail s 2) 2
  else if s.rd Reg.THERM_STATUS.die_state = 1 then dieWarned s else s

/-- T: the role moves, or the handover is abandoned; a warm reset that asked for it follows, and R441 applies to a die in its warning
state (R444). -/
def handInstant (s : State) : State :=
  if !handDue s then s
  else if handApplied s && !handBarred s then
    let s := handOver s
    if s.pair.handReset then warmBegin { s with pair := { s.pair with handReset := false } } 2 else s
  else handAbandon s

/-- While a handover waits: the partner that is no longer in sync, fit and heard ends it (R422), else T is fixed once it can be. -/
def handCheck (s : State) : State :=
  if s.pair.handWait ≠ 0 && s.role == roleActive && !partnerReady s then handAbandon s else handPlan s

/-! ### The commands -/

/-- COLD_START. -/
def execColdStart (t : Nat) (s : State) : Host.Outcome State Fault Refusal := .next (coldStart (s.at t))

/-- RST_N_ASSERT. -/
def execRstNAssert (t : Nat) (s : State) : Host.Outcome State Fault Refusal := .next (coldWipe (s.at t))

/-- LX_RESET: a write with `warm` 1 and this key. -/
def execLxReset (t key : Nat) (s : State) : Host.Outcome State Fault Refusal :=
  let s := s.at t
  .next (if key = 0x5A17 then resetAsk s else s)

/-- PE_PERST_ASSERT. -/
def execPePerstAssert (t : Nat) (s : State) : Host.Outcome State Fault Refusal := .next (perst (s.at t))

/-- WATCHDOG_EXPIRY. -/
def execWatchdogExpiry (t : Nat) (s : State) : Host.Outcome State Fault Refusal := .next (watchdog (s.at t))

/-- WARM_RESET_ACK_WAIT_EXPIRY. -/
def execWarmResetAckWaitExpiry (t : Nat) (s : State) : Host.Outcome State Fault Refusal := .next (warmWaited (s.at t))

/-- RELOAD_END. -/
def execReloadEnd (t : Nat) (s : State) : Host.Outcome State Fault Refusal := .next (reloadDone (s.at t)).settle

/-- HANDOVER_INSTANT. -/
def execHandoverInstant (t : Nat) (s : State) : Host.Outcome State Fault Refusal := .next (handInstant (s.at t)).settle

/-- HARDWARE_TRIP. -/
def execHardwareTrip (t src : Nat) (s : State) : Host.Outcome State Fault Refusal := .next (trip (s.at t) src)

/-- FLASH_OK_RESTORE. -/
def execFlashOkRestore (t : Nat) (s : State) : Host.Outcome State Fault Refusal := .next (flashRestore (s.at t))

/-- SUPPLY_EXCURSION: rail 0 to 9, its lowest voltage in mV. -/
def execSupplyExcursion (t rail mv : Nat) (s : State) : Host.Outcome State Fault Refusal := .next (excursion (s.at t) rail mv)

/-- SUPPLY_OUT_OF_RANGE. -/
def execSupplyOutOfRange (t rail : Nat) (s : State) : Host.Outcome State Fault Refusal := .next (railLost (s.at t) rail)

/-- LIM_LOCK. -/
def execLimLock (t : Nat) (s : State) : Host.Outcome State Fault Refusal :=
  let s := s.at t
  .next (if hostOpen s then s.wr Reg.FS_LIMITS.lim_lock 0 1 else s)

/-- CFG_LOCK. -/
def execCfgLock (t : Nat) (s : State) : Host.Outcome State Fault Refusal :=
  let s := s.at t
  .next (if hostOpen s then s.wr Reg.RING_CFG.cfg_lock 0 1 else s)

/-- SET_SAVE. -/
def execSetSave (t : Nat) (s : State) : Host.Outcome State Fault Refusal := .next (setSave (s.at t))

/-- SET_WRITE. -/
def execSetWrite (t : Nat) (s : State) : Host.Outcome State Fault Refusal := .next (setWrite (s.at t))

/-- SET_CLEAR. -/
def execSetClear (t : Nat) (s : State) : Host.Outcome State Fault Refusal := .next (setClear (s.at t))

/-- SETTINGS_WRITE_COMPLETE. -/
def execSettingsWriteComplete (t : Nat) (s : State) : Host.Outcome State Fault Refusal := .next (setDone (s.at t))

/-- UPD_LOAD. -/
def execUpdLoad (t : Nat) (s : State) : Host.Outcome State Fault Refusal := .next (updLoad (s.at t))

/-- UPD_ARM. -/
def execUpdArm (t : Nat) (s : State) : Host.Outcome State Fault Refusal := .next (updArm (s.at t))

/-- UPD_DISARM. -/
def execUpdDisarm (t : Nat) (s : State) : Host.Outcome State Fault Refusal := .next (updDisarm (s.at t))

/-- UPD_CONFIRM. -/
def execUpdConfirm (t : Nat) (s : State) : Host.Outcome State Fault Refusal := .next (updConfirm (s.at t))

/-- UPD_FORWARD. -/
def execUpdForward (t ports : Nat) (s : State) : Host.Outcome State Fault Refusal := .next (updForward (s.at t) ports)

/-- UPD_ABORT. -/
def execUpdAbort (t : Nat) (s : State) : Host.Outcome State Fault Refusal := .next (updAbort (s.at t))

/-- ARM_COMPLETE. -/
def execArmComplete (t : Nat) (s : State) : Host.Outcome State Fault Refusal := .next (armDone (s.at t))

/-- IMG_OFFER received at a port: transfer identifier and image header. -/
def execImgOffer (t port id : Nat) (header : List Byte) (s : State) : Host.Outcome State Fault Refusal :=
  .next (offerGot (s.at t) port id header)

/-- IMG_DATA received at a port. -/
def execImgData (t port id block seg : Nat) (data : List Byte) (s : State) : Host.Outcome State Fault Refusal :=
  .next (dataGot (s.at t) port id block seg data)

/-- IMG_ACK received at a port. -/
def execImgAck (t port id code err block missing : Nat) (s : State) : Host.Outcome State Fault Refusal :=
  .next (ackGot (s.at t) port id code err block missing)

/-- IMG_ACK_TIMEOUT at a port. -/
def execImgAckTimeout (t port : Nat) (s : State) : Host.Outcome State Fault Refusal := .next (ackTimeout (s.at t) port)

/-- IMG_DATA_SEND out of a port. -/
def execImgDataSend (t port : Nat) (s : State) : Host.Outcome State Fault Refusal := .next (dataSend (s.at t) port)

/-- IMAGE_VERIFY_COMPLETE. -/
def execImageVerifyComplete (t : Nat) (s : State) : Host.Outcome State Fault Refusal := .next (verifyDone (s.at t))

/-- STAGING_WRITE_COMPLETE: `same` says that the bank reads back as written. -/
def execStagingWriteComplete (t : Nat) (same : Bool) (s : State) : Host.Outcome State Fault Refusal := .next (stageDone (s.at t) same)

/-- IMAGE_CONFIRM. -/
def execImageConfirm (t : Nat) (s : State) : Host.Outcome State Fault Refusal := .next (imageConfirm (s.at t))

/-- CONFIRM_WINDOW_EXPIRY. -/
def execConfirmWindowExpiry (t : Nat) (s : State) : Host.Outcome State Fault Refusal := .next (confirmExpire (s.at t))

/-- LEVELS received at a port: ring levels as UPD_PEER shows them, image version. -/
def execLevels (t port ring version : Nat) (s : State) : Host.Outcome State Fault Refusal :=
  let s := s.at t
  .next (if port < 2 then peerTake s port ring version else s)

/-- LEVELS_SEND. -/
def execLevelsSend (t port : Nat) (s : State) : Host.Outcome State Fault Refusal := .next (levelsSend (s.at t) port)

/-- TWIN_LEVEL received on a twin lane. -/
def execTwinLevel (t lane word : Nat) (s : State) : Host.Outcome State Fault Refusal :=
  .next (onTwinSet (s.at t) lane osTwinLevel word twinLevelGot)

/-- TWIN_LEVEL_SEND. -/
def execTwinLevelSend (t : Nat) (s : State) : Host.Outcome State Fault Refusal := .next (twinLevelSend (s.at t))

/-! ### Commands of other chapters that a start or a reset can follow -/

/-- TWIN_HB. -/
def execTwinHb (t lane word : Nat) (alike : Bool) (s : State) : Host.Outcome State Fault Refusal :=
  .next (inPair (s.at t) (fun s => onTwinSet s lane osTwinHb word (fun s _ => handCheck (twinHb s word alike)))).lineEnd

/-- TWIN_HB_TIMEOUT. -/
def execTwinHbTimeout (t : Nat) (s : State) : Host.Outcome State Fault Refusal := .next (handCheck (twinSilence (s.at t)))

/-- Twin lanes fewer than three lose the link at once (R413). -/
def lanesCheck (s : State) (n : Nat) : State := if 48 ≤ n then handCheck (twinSilence s) else s

/-- BLOCK_LOCK_LOSS. -/
def execBlockLockLoss (t lane : Nat) (s : State) : Host.Outcome State Fault Refusal :=
  let s := s.at t
  .next (if lane < 52 then lanesCheck (lockLoss s lane) lane else s)

/-- LANE_CMD retire. -/
def execLaneRetire (t lane : Nat) (s : State) : Host.Outcome State Fault Refusal :=
  .next (lanesCheck (laneCmd (s.at t) 2 lane) lane)

/-- SENSOR_CONVERSION. -/
def execSensorConversion (t sensor : Nat) (raw : Int) (s : State) : Host.Outcome State Fault Refusal :=
  let s := s.at t
  .next (if sensor < 48 then thermalUpdate (sensConvert s sensor raw) false else s).cool.settle

/-- SENSOR_CONVERSION_TIMEOUT (R435): 200 µs without a conversion. -/
def execSensorConversionTimeout (t sensor : Nat) (s : State) : Host.Outcome State Fault Refusal :=
  let s := s.at t
  let late := match (s.sensor sensor).lastAt with | some a => decide (a + 200 * usU ≤ s.clk) | none => decide (200 * usU ≤ s.clk)
  .next (if sensor < 48 && late && s.rd Reg.THERM_SENS.s_state sensor == 0 then thermalUpdate (sensFail s sensor) false else s).cool.settle

/-- THERMAL_SWEEP (R437), with the readings of all 48 sensors: by a trigger with `action` 0x02, or by itself every 100 ms where none is enabled. -/
def execThermalSweep (t : Nat) (raws : List Int) (s : State) : Host.Outcome State Fault Refusal :=
  let s := s.at t
  .next (if raws.length = 48 && (s.tu.sweepDue || sweepAlone s) then thermSweep s raws else s).cool.settle

/-- SENSOR_RESTORE. -/
def execSensorRestore (t sensor : Nat) (s : State) : Host.Outcome State Fault Refusal :=
  .next (sensRestore (s.at t) sensor).cool.settle

/-- STACK_TEMP_READ. -/
def execStackTempRead (t stack : Nat) (value : Int) (s : State) : Host.Outcome State Fault Refusal :=
  .next (stackTempRead (s.at t) stack value).cool.settle

/-- LANE_BRINGUP_START (R391). -/
def execLaneBringupStart (t lane : Nat) (s : State) : Host.Outcome State Fault Refusal :=
  let s := bootDue (s.at t)
  .next (if lane < 52 && (s.lane lane).called && s.rd Reg.MODE_CUR.power == 0 then laneStart s lane else s)

/-- LANE_READY (R390): the CTLE setting kept, the padding measured in RELOAD, the taps. -/
def execLaneReady (t lane ctle pad : Nat) (taps : List Int) (s : State) : Host.Outcome State Fault Refusal :=
  let s := bootDue (s.at t)
  .next (if lane < 52 && s.lstate lane == 1 then laneReady s lane ctle pad taps else s)

/-- LANE_SWITCH_SHIFT_COMPLETE. -/
def execLaneSwitchShiftComplete (t : Nat) (s : State) : Host.Outcome State Fault Refusal :=
  .next (shiftDone (bootDue (s.at t)))

/-- DRIVE_LINK_UP: drives found, and their chain delays in ns. -/
def execDriveLinkUp (t port seen : Nat) (hops : List Nat) (s : State) : Host.Outcome State Fault Refusal :=
  .next (driveUp (bootDue (s.at t)) port seen hops)

/-- CAMERA_PORT_TRAIN_COMPLETE. -/
def execCameraPortTrainComplete (t port : Nat) (ok : Bool) (s : State) : Host.Outcome State Fault Refusal :=
  .next (portTrained (bootDue (s.at t)) port ok)

end Sys2Proof.Machine
end

