-- ==== Sys2Proof/Machine/Gp.lean ====
section
/-! DEFINITION. The GP-40 personality: runs, page DMA, interrupt status and the key to BAR2 (chapter 16). -/

namespace Sys2Proof.Machine

/-! ### What a run is built from (R485, R486) -/

/-- The GP-40 register file answers: GP-40 mode, host access open. -/
def gpOpen (s : State) : Bool := s.gp40 && hostOpen s

def ports16 : List Nat := List.range 16

/-- Ports in use of a plane and phase, the one with the lower `first_col` first. -/
def gpRow (s : State) (p f : Nat) : List Nat :=
  let ks := ports16.filter (fun k => s.on Reg.GP_PORT_CFG.port_en k && s.rd Reg.GP_PORT_CFG.plane k == p && s.rd Reg.GP_PORT_CFG.phase k == f)
  match ks with
  | [a, b] => if s.rd Reg.GP_PORT_COL.first_col b < s.rd Reg.GP_PORT_COL.first_col a then [b, a] else [a, b]
  | _ => ks

/-- Planes that the ports in use name, and the print rows of each. -/
def gpPlanes (s : State) : List Nat :=
  (List.range 16).filter (fun p => ports16.any (fun k => s.on Reg.GP_PORT_CFG.port_en k && s.rd Reg.GP_PORT_CFG.plane k == p))

def gpRows (s : State) (p : Nat) : Nat :=
  ports16.foldl (fun n k =>
    if s.on Reg.GP_PORT_CFG.port_en k && s.rd Reg.GP_PORT_CFG.plane k == p then max n (s.rd Reg.GP_PORT_CFG.phase k + 1) else n) 0

/-- Columns of a row: it starts at column 0, its second port where the first ends. -/
def gpColumns (s : State) (p f : Nat) : Option Nat :=
  let n (k : Nat) : Nat := s.rd Reg.GP_PORT_CFG.nozzles k
  let c (k : Nat) : Nat := s.rd Reg.GP_PORT_COL.first_col k
  match gpRow s p f with
  | [a] => if c a = 0 ∧ 0 < n a then some (n a) else none
  | [a, b] => if c a = 0 ∧ 0 < n a ∧ 0 < n b ∧ c b = n a ∧ s.rd Reg.GP_PORT_DELAY.delay a = s.rd Reg.GP_PORT_DELAY.delay b then
      some (n a + n b) else none
  | _ => none

/-- The configuration can be built: each plane's rows are whole and equally wide. -/
def gpBuildable (s : State) : Bool :=
  gpPlanes s != [] &&
  (gpPlanes s).all (fun p => (gpColumns s p 0).isSome && (List.range (gpRows s p)).all (fun f => gpColumns s p f == gpColumns s p 0))

/-- An entry of the personality: `owner` its logical Scribe, `host_ro` 1, the generation after the one in effect (R485). -/
def gpEntry (s : State) (ch cls : Nat) (valid : Bool) (body : List Byte) : List Byte :=
  let head := leBytes 2 ch ++ leBytes 1 cls ++ leBytes 1 1 ++ leBytes 4 (catGen s ch + 1) ++ leBytes 1 (ofBool valid + 2) ++ leBytes 1 0 ++
    leBytes 2 0 ++ leBytes 4 0
  let e := (head ++ body ++ List.replicate 112 0).take 128
  e.take 12 ++ leBytes 4 (entryCheck e) ++ e.drop 16

/-- The 256 zeros that `wave_addr` names, below the pages of the personality (R498). -/
def gpWave : Nat := 0

def gpSlotBody (s : State) (k : Nat) : List Byte :=
  leBytes 4 (s.rd Reg.GP_PORT_CFG.nozzles k) ++ leBytes 1 k ++ leBytes 1 0 ++ leBytes 1 (1 + 8) ++ leBytes 1 0 ++
  leBytes 4 (gpRec s 14 2 20 * 1000) ++ leBytes 2 (gpRec s 16 2 2000) ++ leBytes 2 (gpRec s 18 2 200) ++ leBytes 4 0 ++ leBytes 4 0 ++
  leBytes 1 (gpRec s 9 1 20) ++ leBytes 1 (gpRec s 10 1 55) ++ leBytes 1 (gpRec s 11 1 52) ++ leBytes 1 2 ++ leBytes 2 (gpRec s 12 2 2400) ++
  leBytes 2 1000 ++ leBytes 8 gpWave ++ leBytes 4 256 ++ leBytes 4 (crc32 (List.replicate 256 0))

def gpRowBytes (s : State) (p f : Nat) : List Byte :=
  let a := (gpRow s p f).headD 0
  let two := (gpRow s p f).length == 2
  let b := (gpRow s p f).getD 1 0xFF
  leBytes 1 1 ++ leBytes 1 f ++ leBytes 3 (s.rd Reg.GP_PORT_DELAY.delay a) ++ leBytes 1 a ++ leBytes 1 b ++ leBytes 2 0 ++
  leBytes 3 (if two then s.rd Reg.GP_PORT_COL.first_col b else (gpColumns s p f).getD 0) ++ leBytes 2 0

def gpPlaneBody (s : State) (p : Nat) : List Byte :=
  leBytes 4 ((gpColumns s p 0).getD 0) ++ leBytes 1 (gpRows s p) ++ leBytes 1 0 ++ List.replicate 22 0 ++
  ((List.range (gpRows s p)).map (gpRowBytes s p)).flatten

/-- A head lane entry: enabled, its line equalisation as the entry in effect has it, or at the factory values of R405. -/
def gpLaneBody (s : State) (n : Nat) : List Byte :=
  match s.entry (chLane n) with
  | some e => (LaneE.hlEn.set e 1).drop 16
  | none => leBytes 1 1 ++ leBytes 1 4 ++ leBytes 1 12 ++ leBytes 1 80 ++ leBytes 1 15 ++ leBytes 1 12

/-- An entry is written to the table and loaded; whether it is in effect then (R28). -/
def gpLoad (s : State) (ch : Nat) (e : List Byte) : State × Bool :=
  let s := catShow (catFetch (tableStore s ch e) ch)
  (s, catGen s ch == HdrE.generation.get e)

def gpLoadAll (s : State) (es : List (Nat × Nat × Bool × (State → List Byte))) : State × Bool :=
  es.foldl (fun (r : State × Bool) x =>
    let (s, ok) := gpLoad r.1 x.1 (gpEntry r.1 x.1 x.2.1 x.2.2.1 (x.2.2.2 r.1))
    (s, r.2 && ok)) (s, true)

/-- Every entry of a run: planes and slots out of use first, then lanes, slots and planes in use. -/
def gpEntries (s : State) : List (Nat × Nat × Bool × (State → List Byte)) :=
  let on (k : Nat) : Bool := decide (k < 16) && s.on Reg.GP_PORT_CFG.port_en k
  let plain (e : List Byte) : State → List Byte := fun _ => e.drop 16
  ((List.range 16).filterMap (fun p => (s.entry (chPlane p)).map (fun e => (chPlane p, 2, false, plain e)))) ++
  (heads48.filterMap (fun k => if on k then none else (s.entry (chSlot k)).map (fun e => (chSlot k, 1, false, plain e)))) ++
  ((List.range 32).filterMap (fun j => let k := j + 48; (s.entry (chSlot k)).map (fun e => (chSlot k, 1, false, plain e)))) ++
  (ports16.filterMap (fun k => if on k then some (chLane (physLane s k), 3, true, fun s => gpLaneBody s (physLane s k)) else none)) ++
  (ports16.filterMap (fun k => if on k then some (chSlot k, 1, true, fun s => gpSlotBody s k) else none)) ++
  ((gpPlanes s).map (fun p => (chPlane p, 2, true, fun s => gpPlaneBody s p)))

/-! ### Runs (R487) -/

/-- A local epoch 100 µs ahead. -/
def gpEpoch (s : State) (target : Nat) : State :=
  if epochOutstanding s || !epochAllowed s.mode target then s
  else
    let seq := (s.md.mySeq + 1) % 2 ^ 18
    let at_ := s.devTime + 100 * usU
    epochSet { s with md := { s.md with mySeq := seq } } (seq * 16384 + nodeNow s) target at_ (at_ + epochTimeoutU s) false

/-- The fields of GP_CTRL beside `run`. -/
def gpCtrl (s : State) (v run : Nat) : State :=
  (((s.wr Reg.GP_CTRL.int_en 0 (bits v 8 1)).wr Reg.GP_CTRL.one_size 0 (bits v 2 2)).wr Reg.GP_CTRL.depth 0 (bits v 1 1)).wr Reg.GP_CTRL.run 0 run

/-- A write of GP_CTRL with `run` 1: a run starts, unless one runs. -/
def gpRunStart (s : State) (v : Nat) : State :=
  if !gpOpen s || bits v 2 2 = 0 then s
  else if s.on Reg.GP_CTRL.run then gpCtrl s v 1
  else
    let s := gpCtrl s v 0
    let s := { s with mem := Mem.write s.mem gpWave (List.replicate 256 0) }
    let (s', ok) := if gpBuildable s then gpLoadAll s (gpEntries s) else (s, false)
    if ok then
      let s := (s'.wr Reg.GP_CTRL.run 0 1).wr Reg.GP_STATUS.cfg_err 0 0
      let s := s.wr Reg.FS_PITCH.line_pitch 0 (s.rd Reg.GP_LINE_PITCH.gp_pitch)
      let s := s.wr Reg.GP_LINE_COUNT.line_count 0 0
      let s := { s with gp := { s.gp with
          rescue := s.on Reg.GP_EXT.rescue_en, depth := s.on Reg.GP_CTRL.depth, first := true, pages := 0, ending := false } }
      gpEpoch s modePrint
    else s'.wr Reg.GP_STATUS.cfg_err 0 1

/-- The job closes at the end of the last page queued, or at once. -/
def gpJobEnd (s : State) : State :=
  match s.la.jobs.getLast? with
  | none => s
  | some j =>
    match s.la.pages.getLast? with
    | some p =>
      let pages := s.la.pages.map (fun q => if q.first == p.first && q.jobIdx == p.jobIdx then { q with jobEnd := true } else q)
      let jobs := s.la.jobs.map (fun k => if k.idx == j.idx then { k with ended := some s.la.endLine } else k)
      { s with la := { s.la with pages := pages, jobs := jobs }, gp := { s.gp with ending := true } }
    | none => jobClose s

/-- A write of GP_CTRL with `run` 0: the run stops. -/
def gpRunStop (s : State) (v : Nat) : State :=
  if !gpOpen s || bits v 2 2 = 0 then s
  else if !s.on Reg.GP_CTRL.run then gpCtrl s v 0
  else gpEpoch (gpJobEnd (gpCtrl s v 0)) modeStop

/-! ### Page DMA (R490) -/

/-- Free entries of the page queue. -/
def gpQfree (s : State) : Nat := 4 - min 4 s.la.pages.length

/-- Bytes that a port takes of a line. -/
def gpPortBytes (s : State) (k : Nat) : Nat :=
  let n := s.rd Reg.GP_PORT_CFG.nozzles k
  if s.gp.depth then (n + 3) / 4 else (n + 7) / 8

/-- Where a port's pixels lie within a line. -/
def gpPortOff (s : State) (k : Nat) : Nat :=
  (List.range k).foldl (fun n j => if s.on Reg.GP_PORT_CFG.port_en j then n + gpPortBytes s j else n) 0

/-- Pixels of a port from its bytes: one or two bits each, the first in the lowest bits; a 1-bit pixel is `one_size`. -/
def gpPixels (s : State) (k : Nat) (bs : List Byte) : List Nat :=
  (List.range (s.rd Reg.GP_PORT_CFG.nozzles k)).map (fun i =>
    if s.gp.depth then bits (bs.getD (i / 4) 0).toNat (2 * (i % 4)) 2
    else if bit (bs.getD (i / 8) 0).toNat (i % 8) then s.rd Reg.GP_CTRL.one_size else 0)

/-- A line of a plane from the page's bytes at `a`, `g` its line of the job: the ports of the row that fires it. -/
def gpLinePixels (s : State) (p a g : Nat) : List Nat :=
  (gpRow s p (g % max 1 (gpRows s p))).flatMap (fun k => gpPixels s k (s.peekBytes (a + gpPortOff s k) (gpPortBytes s k)))

/-- Literal tokens of 64 pixels, the last one shorter (Table 4-5). -/
def gpTokens : Nat → List Nat → List Byte
  | 0, _ => []
  | n + 1, px =>
    if px = [] then []
    else
      let now := px.take 64
      let byte (j : Nat) : Byte := BitVec.ofNat 8 ((List.range 4).foldl (fun w i => w + now.getD (4 * j + i) 0 * 4 ^ i) 0)
      leBytes 1 (0x80 + (now.length - 1)) ++ (List.range ((now.length + 3) / 4)).map byte ++ gpTokens n (px.drop 64)

/-- A line record: BLANK, or CODED (R490). -/
def gpRecord (px : List Nat) : List Byte :=
  if px.all (· == 0) then leBytes 1 0
  else let t := gpTokens px.length px; leBytes 1 2 ++ leBytes 3 t.length ++ t

/-- A band: header and line records, padded to 32 bytes (Table 4-3). -/
def gpBand (s : State) (p a stride first b count columns : Nat) : List Byte :=
  let recs := (List.range count).flatMap (fun j => gpRecord (gpLinePixels s p (a + (256 * b + j) * stride) (first + 256 * b + j)))
  let head := leBytes 4 0x444E4142 ++ leBytes 1 p ++ leBytes 1 count ++ leBytes 2 0 ++ leBytes 4 (256 * b) ++ leBytes 4 columns ++
    leBytes 4 recs.length ++ List.replicate 8 0
  let all := head ++ leBytes 4 (crc32 head) ++ recs
  all ++ List.replicate (alignUp all.length 32 - all.length) 0

/-- GP_DMA_GO (R490): the page is copied in, coded and published; ignored while no entry is free. -/
def gpDmaGo (s : State) : State :=
  if !gpOpen s || gpQfree s = 0 || !s.on Reg.GP_CTRL.run then s
  else
    let lines := s.rd Reg.GP_DMA_LINES.dma_lines
    let stride := s.rd Reg.GP_DMA_STRIDE.stride
    let src := hostBit + s.rd2 Reg.GP_DMA_ADDR_LO.dma_addr_lo Reg.GP_DMA_ADDR_HI.dma_addr_hi % hostBit
    if lines = 0 || stride = 0 then s
    else
      let planes := gpPlanes s
      let bands := (lines + 255) / 256
      let first := if s.gp.first then 0 else match s.la.jobs.getLast? with | some j => s.la.endLine - j.base | none => 0
      let count (b : Nat) : Nat := min 256 (lines - 256 * b)
      let data := planes.flatMap (fun p => (List.range bands).map (fun b =>
        (16 * b + p, gpBand s p src stride first b (count b) ((gpColumns s p 0).getD 0))))
      let size := 64 + 128 * bands + data.foldl (fun n d => n + d.2.length) 0
      let top := bufBase s
      let at_ := alignUp (max 4096 s.gp.place) 64
      let at_ := if top < at_ + size then 4096 else at_
      let (tab, _) := data.foldl (fun (r : Tbl Nat × Nat) d => (Tbl.put r.1 d.1 r.2, r.2 + d.2.length)) (([] : Tbl Nat), at_ + 64 + 128 * bands)
      let desc := leBytes 4 0x4F494C46 ++ leBytes 2 1 ++ leBytes 1 (ofBool s.gp.first) ++ leBytes 1 0 ++ leBytes 4 0 ++ leBytes 4 s.gp.pages ++
        leBytes 4 lines ++ leBytes 2 (planes.foldl (fun m p => m + 2 ^ p) 0) ++ leBytes 2 (min lines 256) ++ leBytes 8 (at_ + 64) ++ leBytes 4 bands
      let page := desc ++ leBytes 4 (crc32 desc) ++ leBytes 4 bands ++ List.replicate 20 0
      let s := s.pokeList at_ (page ++ (List.range (16 * bands)).flatMap (fun i => leBytes 8 (Tbl.get 0 tab i)))
      let s := data.foldl (fun s d => s.pokeList (Tbl.get 0 tab d.1) d.2) s
      let (s, after) := linePage s at_ first
      if after = 0 then s
      else { s with gp := { s.gp with first := false, pages := s.gp.pages + 1, place := at_ + size } }

/-! ### Commands -/

/-- GP_RUN_START: a write of this word to GP_CTRL, its bit `run` 1. -/
def execGpRunStart (t value : Nat) (s : State) : Host.Outcome State Fault Refusal :=
  let s := s.at t
  .next (if bit value 0 then gpRunStart s value else s).settle

/-- GP_RUN_STOP: a write of this word to GP_CTRL, its bit `run` 0. -/
def execGpRunStop (t value : Nat) (s : State) : Host.Outcome State Fault Refusal :=
  let s := s.at t
  .next (if bit value 0 then s else gpRunStop s value).settle

/-- GP_DMA_GO. -/
def execGpDmaGo (t : Nat) (s : State) : Host.Outcome State Fault Refusal := .next (gpDmaGo (s.at t)).settle

/-- The read of GP_INT_STAT returns every set bit and clears them all (R494). -/
def gpIntRead (s : State) : State × Nat :=
  let fs := [Reg.GP_INT_STAT.dma_error, Reg.GP_INT_STAT.head_fault, Reg.GP_INT_STAT.line_wrap, Reg.GP_INT_STAT.underrun,
    Reg.GP_INT_STAT.page_done]
  if gpOpen s then (fs.foldl (fun s f => s.wr f 0 0) s, fs.foldl (fun n f => n + s.rd f * 2 ^ f.lsb) 0) else (s, 0)

/-- GP_INT_STAT_READ. -/
def execGpIntStatRead (t : Nat) (s : State) : Host.Outcome State Fault Refusal :=
  let (s, v) := gpIntRead (s.at t)
  .next (s.emit (.readData 17 v))

/-- A write of GP_UNLOCK (R496). -/
def gpUnlock (s : State) (key : Nat) : State :=
  if gpOpen s && key == 0xB2B2 then (s.wr Reg.LX_PERSONA.bar2_open 0 1).wr Reg.GP_EXT.bar2_open 0 1 else s

/-- GP_UNLOCK. -/
def execGpUnlock (t key : Nat) (s : State) : Host.Outcome State Fault Refusal := .next (gpUnlock (s.at t) key)

end Sys2Proof.Machine
end

