-- ==== Sys2Proof/Machine/RingRecv.lean ====
section
/-! DEFINITION. Frames received at a ring port: foreign ones, bad check sequences, duplicates, loops, delivery and forwarding
(R334 to R338, R470, Tables 9-6, 9-7 and 15-8). -/

namespace Sys2Proof.Machine

/-- `n` bytes at `o` of a frame, little-endian. -/
def frameNat (f : List Byte) (o n : Nat) : Nat := leNat ((f.drop o).take n)

/-- EtherType of PTP over Ethernet (IEEE 1588): its messages have rows of their own. -/
def ptpEthertype : Nat := 0x88F7

/-- EtherType of a frame, most significant byte first. -/
def frameType (f : List Byte) : Nat := 256 * frameNat f 12 1 + frameNat f 13 1

/-- A PTP frame, with at most one IEEE 802.1Q tag (Table 9-1). -/
def ptpFrame (f : List Byte) : Bool :=
  frameType f == ptpEthertype || (frameType f == 0x8100 && 256 * frameNat f 16 1 + frameNat f 17 1 == ptpEthertype)

/-- A PTP frame as it leaves the transparent clock, with its check sequence (R313, R316): an event message carries, in its correction field,
the time it was in the device, which is open here. -/
def ptpPass (s : State) (f : List Byte) : List Byte :=
  let o := if frameType f = ptpEthertype then 14 else 18
  let corr := leNat (((f.drop (o + 8)).take 8).reverse)
  let g := if frameNat f o 1 % 16 ≤ 3 && decide (o + 16 ≤ f.length) && ptpOn s 0 && ptpOn s 1 then
      f.take (o + 8) ++ (leBytes 8 (corr + s.freeVal 170)).reverse ++ f.drop (o + 16)
    else f
  g ++ leBytes 4 (crc32 g)

/-- Link frames: NEIGHBOR, LEVELS and image transfer (R334). -/
def isLinkFrame (rtype : Nat) : Bool := rtype == rtNeighbor || (decide (rtOffer ≤ rtype) && decide (rtype ≤ rtLevels))

/-- The frame sent itself out of this device's MAC address under this device's node number. -/
def ownFrame (s : State) (f : List Byte) : Bool := (f.drop 6).take 6 == macBytes s

/-- A delivered frame's effect, by its type (Tables 9-7 and 15-8). -/
def deliver (s : State) (k rtype : Nat) (b : List Byte) : State :=
  let n (o c : Nat) := leNat ((b.drop o).take c)
  if rtype = rtNeighbor then neighborGot s k (n 0 2 % 16384) (bit (n 2 1) 0)
  else if rtype = rtEpoch then (epochReceive s (n 0 4) (n 4 1 % 16) (devOf (n 6 6) (n 12 4))).lineEnd
  else if rtype = rtRollback then (rollbackReceive s (n 0 4) (devOf (n 6 6) (n 12 4))).lineEnd
  else if rtype = rtOffer then offerGot s k (n 0 4) ((b.drop 4).take 1024)
  else if rtype = rtData then dataGot s k (n 0 4) (n 4 2) (n 6 1) ((b.drop 8).take 1024)
  else if rtype = rtAck then ackGot s k (n 0 4) (n 4 1) (n 5 1) (n 6 2) (n 8 8)
  else if rtype = rtLevels then peerTake s k (n 2 3) (n 8 4)
  else s

/-- The frame as it leaves by the other port: one hop fewer, its check sequence made new. -/
def forwardGood (s : State) (k : Nat) (f : List Byte) : State :=
  let h := frameNat f 20 1
  if h = 0 then s.count Reg.RING_DISC.hop_disc else ringOut s (1 - k) (f.set 20 (BitVec.ofNat 8 (h - 1)))

/-- A frame received with a bad check sequence leaves with that sequence inverted (R336). -/
def forwardBad (s : State) (k : Nat) (f fcs : List Byte) : State :=
  let h := frameNat f 20 1
  if h = 0 then s.count Reg.RING_DISC.hop_disc
  else if rportOpen s (1 - k) then
    s.emit (.ringFrame (1 - k) (f.set 20 (BitVec.ofNat 8 (h - 1)) ++ fcs.map (fun b => ~~~b)))
  else s

/-- The frame was seen within the last 1.0 s. -/
def seenBefore (s : State) (origin rseq : Nat) : Bool :=
  s.net.seen.any (fun x => x.1 == origin && x.2.1 == rseq && decide (s.clk ≤ x.2.2 + secU))

def recordSeen (s : State) (origin rseq : Nat) : State :=
  { s with net := { s.net with seen := (origin, rseq, s.clk) :: s.net.seen.filter (fun x => decide (s.clk ≤ x.2.2 + secU)) } }

/-- A frame of the ring's EtherType with a good check sequence (R335, R337). -/
def ringGood (s : State) (k : Nat) (f : List Byte) : State :=
  let rtype := frameNat f 15 1
  let known := frameNat f 14 1 == 1
  let origin := frameNat f 16 2 % 16384
  let rseq := frameNat f 18 2
  let body := (f.drop 24).take (frameNat f 22 2)
  let mine := s.on Reg.RING_NODE.learned && origin == s.rd Reg.RING_NODE.node
  if isLinkFrame rtype then if known then deliver s k rtype body else s
  else if mine && ownFrame s f then (s.wr Reg.RING_NODE.ring_loop 0 1).event 0x0702 (chRPort k) 0 origin 2
  else
    let s := if mine then (s.wr Reg.RING_NODE.node_dup 0 1).event 0x0702 (chRPort k) 0 origin 1 else s
    if seenBefore s origin rseq then s.count Reg.RING_DISC.dup_disc
    else
      let s := forwardGood (recordSeen s origin rseq) k f
      if known then deliver s k rtype body else s

/-- A frame received at ring port `k`, `bytes` its bytes with the check sequence last (R336). -/
def frameGot (s : State) (k : Nat) (bytes : List Byte) : State :=
  let f := bytes.take (bytes.length - 4)
  let fcs := bytes.drop (bytes.length - 4)
  if 2 ≤ k || !rportOpen s k then s
  else if frameType f = s.rd Reg.RING_CFG.ethertype then
    if leNat fcs = crc32 f then (if bytes.length < 28 then s.count Reg.RING_PORT_ERR.foreign k else ringGood s k f)
    else
      let s := s.count Reg.RING_PORT_ERR.fcs_err k
      if isLinkFrame (frameNat f 15 1) then s else forwardBad s k f fcs
  else if ptpFrame f then
    if leNat fcs = crc32 f then (if rportOpen s (1 - k) then (s.emit (.ringFrame (1 - k) (ptpPass s f))).spend else s)
    else
      let s := s.count Reg.RING_PORT_ERR.fcs_err k
      if rportOpen s (1 - k) then s.emit (.ringFrame (1 - k) (f ++ fcs.map (fun b => ~~~b))) else s
  else s.count Reg.RING_PORT_ERR.foreign k

/-- RING_FRAME_RECEIVE. -/
def execRingFrameReceive (t port : Nat) (bytes : List Byte) (s : State) : Host.Outcome State Fault Refusal :=
  .next (frameGot (s.at t) port bytes)

end Sys2Proof.Machine
end

