-- ==== Sys2Proof/Machine/Scribes.lean ====
section
/-! DEFINITION. Restart and substitution of Scribes, runs that outlast their limit, urgencies, and slices that waited (R98, R117, R118,
R121 to R124). -/

namespace Sys2Proof.Machine

/-- A restart of logical Scribe `l` (R121, R122): ignored unless it is in service. -/
def scribeRestart (s : State) (l : Nat) : State :=
  match s.physOf l with
  | none => s
  | some p =>
    match s.entry (chScribe p) with
    | none => s
    | some e =>
      if s.rd Reg.SCRIBE_STATE.state p ≠ 1 || (s.eng p).leaving.isSome then s
      else if imageCheck s e = 0 then scribeStart (dropPopped s l) l p
      else scribeStart s l p

/-- SCRIBE_RESTART_COMPLETE: logical Scribe `l`, started from its image, dispatches. -/
def scribeRestarted (s : State) (l : Nat) : State :=
  match (List.range 16).find? (fun p =>
      s.rd Reg.SCRIBE_STATE.state p == 3 && s.rd Reg.SCRIBE_INFO.logical p == l && !scribeTaken s p) with
  | none => s
  | some p => scribeServe (s.event 0x0102 (chScribe p) 0 l 0) l p

/-- SYS.START (R121): logical Scribe `l` on physical Scribe `q`, itself or a spare; another engine that served `l` becomes a spare. -/
def scribeLaunch (s : State) (l q : Nat) : State :=
  let old := s.physOf l
  let mapped := scribesMapped s
  let own := old == some q && s.rd Reg.SCRIBE_STATE.state q == 1
  if 16 ≤ l || 16 ≤ q || (s.eng q).leaving.isSome || scribeTaken s q || !(own || s.rd Reg.SCRIBE_STATE.state q == 0) ||
      (old.isNone && decide (14 ≤ mapped)) then s
  else match s.entry (chScribe q) with
    | none => s
    | some e =>
      if imageCheck s e ≠ 0 then scribeStart s l q
      else
        let s := dropPopped s l
        let s := match old with
          | some p => if p = q then s else spareGoes (s.wr Reg.SCRIBE_STATE.state p 0) p
          | none => s
        scribeStart s l q

/-- The whole Carrel of Scribe `p` in the Carrel of Scribe `q` (R123). -/
def carrelCopy (s : State) (p q : Nat) : State :=
  let m := s.mem.filter (fun c => !(decide (localBase q ≤ c.1) && decide (c.1 < localBase q + 0x40000)))
  let src := s.mem.filter (fun c => decide (localBase p ≤ c.1) && decide (c.1 < localBase p + 0x40000))
  { s with mem := src.foldl (fun m c => Mem.put m (c.1 - localBase p + localBase q) c.2) m }

/-- The entry of the spare: windows, rights, capabilities and role of the failing Scribe's, under the spare's channel, `owner` 0xFE and `host_ro` 1 (R84, R123 step 2). -/
def spareEntry (s : State) (p q : Nat) : State :=
  match Tbl.find s.cat.inEffect (chScribe p) with
  | none => s
  | some e =>
    let gen := HdrE.generation.get (s.peekBytes (entryAddr s (chScribe q)) 128)
    let e := HdrE.hostRo.set (HdrE.owner.set (HdrE.generation.set (HdrE.channel.set e (chScribe q)) gen) ownerRegistrar) 1
    let s := catWrite s (chScribe q) e
    { s with cat := { s.cat with inEffect := s.cat.inEffect.put (chScribe q) e } }

/-- SCRIBE_SUBSTITUTE_COMPLETE (R123): the failing Scribe's last run has ended, the spare serves in its place. A Carrel with a word that cannot be
read is not copied: the spare is loaded as after fault 0x04 (R81). -/
def scribeSubstituted (s : State) (p : Nat) : State :=
  match (s.eng p).leaving with
  | none => s
  | some (q, reason) =>
    if (s.eng p).running.isSome then s
    else
      let l := s.rd Reg.SCRIBE_INFO.logical p
      let reload := reason == 2 || (s.eng p).bad != []
      let s := spareEntry s p q
      let s := if reload then
          let s := dropPopped s l
          match s.entry (chScribe q) with
          | some e => if imageCheck s e = 0 then loadCarrel s q e else scribeStart s l q
          | none => s
        else
          let s := carrelCopy s p q
          s.setEng q { Engine.reset with
            startAt := s.clk, slices := (s.eng p).slices, faults := (s.eng q).faults, faultTimes := (s.eng q).faultTimes }
      let ok := !reload || (match s.entry (chScribe q) with | some e => imageCheck s e == 0 | none => false)
      let s := (s.setEng p { s.eng p with leaving := none, slices := [] }).wr Reg.SCRIBE_STATE.state p 2
      let s := s.count Reg.SCRIBE_SUBSTS.substs
      let s := s.event 0x0103 (chScribe q) 0 (l + 256 * p + 4096 * reason) 0
      if ok then scribeServe s l q else spareGoes ((s.wr Reg.SCRIBE_STATE.state q 0).wr Reg.SCRIBE_MAP.valid l 0) q

/-- A fault of an engine: at Registrar privilege it starts a warm reset (R113). -/
def folioFault (s : State) (p cause word off : Nat) : State :=
  if p = registrar then registrarReset s else scribeFault s p cause word off

/-- SLICE_MAX_EXCEEDED (R118): the running slice has run longer than its `slice_max`. -/
def sliceOver (s : State) (p : Nat) : State :=
  match (s.eng p).running with
  | none => s
  | some i =>
    if s.clk ≤ (s.eng p).runAt + s.sliceMax p i * nsU then s
    else folioFault s p 5 (s.local p (s.eng p).pc 4) 0

/-- A slice that waited is runnable again; disabled, it is not (R115, R116). -/
def sliceResume (s : State) (p i : Nat) : State :=
  let x := { s.slice p i with wait := Wait.none }
  if s.sliceOn p i then dispatch (s.setSlice p i { x with since := some s.clk, level := false }) p else s.setSlice p i x

/-- TIME_WAIT_EXPIRY (R98): device time has reached what TIME.WAIT named. -/
def waitOver (s : State) (p i : Nat) : State :=
  match (s.slice p i).wait with
  | .time ns => if ns ≤ s.devNs && (s.slice p i).since.isNone then sliceResume s p i else s
  | _ => s

/-! ### Commands -/

/-- SLICE_MAX_EXCEEDED. -/
def execSliceMaxExceeded (t p : Nat) (s : State) : Host.Outcome State Fault Refusal := (s.at t).onEngine p (fun s => sliceOver s p)

/-- SLICE_URGENCY_RISE. -/
def execSliceUrgencyRise (t p : Nat) (s : State) : Host.Outcome State Fault Refusal := (s.at t).onEngine p (fun s => refreshUrgency s p)

/-- TIME_WAIT_EXPIRY. -/
def execTimeWaitExpiry (t p slice : Nat) (s : State) : Host.Outcome State Fault Refusal := (s.at t).onEngine p (fun s => waitOver s p slice)

/-- SCRIBE_RESTART: the write of the register with `go`. -/
def execScribeRestart (t logical : Nat) (s : State) : Host.Outcome State Fault Refusal :=
  let s := s.at t
  .next (if hostOpen s then scribeRestart s logical else s)

/-- SCRIBE_RESTART_COMPLETE. -/
def execScribeRestartComplete (t logical : Nat) (s : State) : Host.Outcome State Fault Refusal := .next (scribeRestarted (s.at t) logical)

/-- SCRIBE_SUBSTITUTE_COMPLETE of the failing physical Scribe. -/
def execScribeSubstituteComplete (t phys : Nat) (s : State) : Host.Outcome State Fault Refusal := .next (scribeSubstituted (s.at t) phys)

end Sys2Proof.Machine
end

