-- ==== Sys2Proof/Machine/Bus.lean ====
section
/-! DEFINITION. Reads and writes of registers by the host and by Scribes: what each address answers, what a write of it does, and which
fields a read clears (R10, R40, R41, R44, Tables 1-12 and 1-13). An address is a BAR0 offset, 0x1000_0000 + a BAR2 offset or
0x2000_0000 + a BAR4 offset; Scribes and the Registrar reach BAR0's layout alone (Table 1-2). -/

namespace Sys2Proof.Machine

/-- Host software, as a reader and writer of registers. -/
def readerHost : Nat := 17

def bar2 : Nat := 0x1000_0000
def bar4 : Nat := 0x2000_0000

/-- The address answers this reader at all (Tables 1-12, 1-13 and 2-1, R49). -/
def reaches (s : State) (src a : Nat) : Bool :=
  if src ≤ registrar then decide (a < 0x100_0000)
  else !s.md.tripped &&
    (if a < bar2 then hostOpen s || decide (a < 0x1000) || (decide (0x1_0000 ≤ a) && decide (a < 0x2_0000))
     else if a < bar4 then bar2Open s
     else gpOpen s)

/-! ### What registers read (computed fields) -/

/-- The Ledger the window shows: in FREEZE the final snapshot (R37). -/
def ledShown (s : State) : Tbl Nat := match s.led.final with | some (c, _) => c | none => s.led.snap

def ledLine (s : State) : Nat :=
  match s.led.final with
  | some (_, n) => n
  | none => s.rd2 Reg.LEDGER_SNAP_LINE_LO.snap_line_lo Reg.LEDGER_SNAP_LINE_HI.snap_line_hi

/-- An offset of Table 1-11 that holds a counter. -/
def ledOffset (o : Nat) : Bool :=
  (decide (0x1000 ≤ o) && decide (o < 0x1000 + 80 * 64)) || (decide (0x3000 ≤ o) && decide (o < 0x3000 + 16 * 64)) ||
  (decide (0x4000 ≤ o) && decide (o < 0x4000 + 52 * 32)) || (decide (0x5000 ≤ o) && decide (o < 0x5000 + 256 * 32)) ||
  (decide (0x7000 ≤ o) && decide (o < 0x7000 + 80 * 16))

/-- Seconds since a quality figure's last update; none reads as all ones (R272). -/
def qualityAge (s : State) (q : Quality) : Nat :=
  match q.at_ with | some t => min (2 ^ 32 - 1) ((s.clk - t) / secU) | none => 2 ^ 32 - 1

/-- A head's nozzle plate temperature for the GP-40: in 0.5 °C towards zero, at most 127.5 °C (Table 16-2). -/
def gpPortTemp (s : State) (k : Nat) : Int := min 255 (Int.tdiv (s.rdi Reg.THERM_HEAD.np_value k) 8)

/-- A temperature report of the port was accepted in the last 1.0 ms. -/
def gpTempValid (s : State) (k : Nat) : Bool :=
  match (Tbl.get HeadTemp.reset s.th.heads k).plate with | some (_, t) => decide (s.clk ≤ t + msU) | none => false

/-- The value of copy `i` of a field as `src` reads it: as stored, or computed from what the device holds. -/
def fieldNow (s : State) (src : Nat) (f : Fld) (i : Nat) : Nat :=
  let now := Tbl.get 0 s.tu.nowLatch src
  let cap := Tbl.get (0, 0) s.tu.capLatch src
  let q := s.quality (s.rd Reg.CL_Q_SEL.q_class) (s.rd Reg.CL_Q_SEL.q_index)
  let sec (d k : Nat) : Nat := d / secU / 2 ^ (32 * k)
  if f = Reg.CAT_LOADED_GEN.loaded_gen then catGen s (s.rd Reg.CAT_LOADED_SEL.sel)
  else if f = Reg.LEDGER_SNAP_LINE_LO.snap_line_lo then low 32 (ledLine s)
  else if f = Reg.LEDGER_SNAP_LINE_HI.snap_line_hi then ledLine s / 2 ^ 32
  else if f = Reg.SCRIBE_COUNT.spares then scribeSpares s
  else if f = Reg.SCRIBE_COUNT.in_service then scribesInService s
  else if f = Reg.SCRIBE_INFO.state then s.rd Reg.SCRIBE_STATE.state i
  else if f = Reg.FS_VCAP.v_cap then vCap s
  else if f = Reg.FS_STATUS.slots_valid then (slots80.filter (fun k => s.inUse (chSlot k))).length
  else if f = Reg.CL_CTRL.observe_only then ofBool (observeOnly s)
  else if f = Reg.CL_SUBST_COUNT.retired then retiredCount s
  else if f = Reg.CL_Q_A.q_a then q.a1 * 65536 + q.a0
  else if f = Reg.CL_Q_B.q_b then q.b1 * 65536 + q.b0
  else if f = Reg.CL_Q_AGE.q_age then qualityAge s q
  else if f = Reg.FB_SPEED.fspeed then unsigned 32 (fbSpeed s i)
  else if f = Reg.TIME_NOW_SUB.now_sub then subOf now
  else if f = Reg.TIME_NOW_NS.now_ns then nsOf now
  else if f = Reg.TIME_NOW_SEC_LO.now_sec_lo then sec now 0
  else if f = Reg.TIME_NOW_SEC_HI.now_sec_hi then sec now 1
  else if f = Reg.TIME_STATE.hold_s then holdSeconds s
  else if f = Reg.TIME_CAP_SUB.cap_sub then subOf cap.1
  else if f = Reg.TIME_CAP_NS.cap_ns then nsOf cap.1
  else if f = Reg.TIME_CAP_SEC_LO.cap_sec_lo then sec cap.1 0
  else if f = Reg.TIME_CAP_SEC_HI.cap_sec_hi then sec cap.1 1
  else if f = Reg.TIME_CAP_N.cap_n then cap.2
  else if f = Reg.LANE_DFE.tap then tapNow s i
  else if f = Reg.LANE_STATE.cdr_lock then cdrNow s i
  else if f = Reg.PRBS_BITS_LO.bits_lo then prbsBits s i
  else if f = Reg.PRBS_BITS_HI.bits_hi then prbsBits s i / 2 ^ 32
  else if f = Reg.PAIR_WTR.wtr_left then wtrLeft s
  else if f = Reg.PAIR_SLOT_SHADOW.shadow_lines then (if s.mode == modeShadow then (shadowLines s i).length else 0)
  else if f = Reg.UPD_CONFIRM_LEFT.confirm_left then confirmLeft s
  else if f = Reg.PKG_SUPPLY_VAL.v_now then s.freeVal (140 + i)
  else if f = Reg.GP_STATUS.ports_up then
    ports16.foldl (fun n k => if 2 ≤ s.rd Reg.FS_SLOT_STATE.link k then n + 2 ^ k else n) 0
  else if f = Reg.GP_STATUS.rescuing then ofBool (s.mode == modeThrottle || s.mode == modeRewind || s.mode == modeHold)
  else if f = Reg.GP_STATUS.running then ofBool (gpRunning s)
  else if f = Reg.GP_DMA_QFREE.qfree then gpQfree s
  else if f = Reg.GP_PORT_TEMP.temp_valid then ofBool (gpTempValid s i)
  else if f = Reg.GP_PORT_TEMP.port_temp then unsigned 16 (gpPortTemp s i)
  else s.rd f i

/-- The word that the fields at an address spell; write-only fields read 0. -/
def wordNow (s : State) (src : Nat) (ps : List FieldAt) : Nat :=
  ps.foldl (fun n p => if p.1.acc == .wo then n else n + low p.1.width (fieldNow s src p.1 p.2.1) * 2 ^ p.2.2) 0

/-- The control registers also seen in the Ledger window (R44). -/
def busAlias (a : Nat) : Nat :=
  if a = bar2 + 0x10_0000 then Reg.LEDGER_SNAP.snap_busy.addr
  else if a = bar2 + 0x10_0008 then Reg.LEDGER_SNAP_LINE_LO.snap_line_lo.addr
  else if a = bar2 + 0x10_000C then Reg.LEDGER_SNAP_LINE_HI.snap_line_hi.addr
  else a

/-- The 32-bit word at `a`, a multiple of 4: memory behind a window, an index, a counter, or a register's fields. -/
def busWord (s : State) (src a : Nat) : Nat :=
  let o := a - bar2
  if a < bar2 || bar4 ≤ a then
    if decide (0xB_0200 ≤ a) && decide (a < 0xB_0300) then leNat ((s.st.snap.drop (a - 0xB_0200)).take 4)
    else wordNow s src (regFields s a)
  else if o < catSize then s.peekNat (catBase s + o) 4
  else if decide (0x8_0000 ≤ o) && decide (o < 0x8_1000) then
    let n := (o - 0x8_0000) / 16
    if o % 16 = 0 then (s.ring n).prod else if o % 16 = 4 then (s.ring n).cons else 0
  else if decide (0x10_1000 ≤ o) && decide (o < 0x10_8000) then
    let k := o - 0x10_0000
    if ledOffset k then low 32 (Tbl.get 0 (ledShown s) (k / 8 * 8) / 2 ^ (32 * (k / 4 % 2))) else 0
  else wordNow s src (regFields s a)

/-- A read of TIME_NOW_SUB or TIME_CAP_SUB latches for its reader (R312, R332). -/
def busLatch (s : State) (src a : Nat) : State :=
  if a = Reg.TIME_NOW_SUB.now_sub.addr then latchNow s src
  else if a = Reg.TIME_CAP_SUB.cap_sub.addr then latchCap s src
  else s

/-- The RC fields of a register that lie wholly within bytes `[o, o + n)` of it are cleared (R41). -/
def busClear (s : State) (a o n : Nat) : State :=
  (regFields s a).foldl (fun s p =>
    if p.1.acc == .rc && decide (8 * o ≤ p.2.2) && decide (p.2.2 + p.1.width ≤ 8 * (o + n)) then s.wr p.1 p.2.1 0 else s) s

/-- A read of `n` bytes, 1, 2 or 4, that lie within one register. -/
def busReadWord (s : State) (src a n : Nat) : State × Nat :=
  if !reaches s src a || a % n ≠ 0 then (s, 0)
  else
    let r := busAlias (a / 4 * 4)
    let o := a % 4
    let s := busLatch s src r
    (busClear s r o n, low (8 * n) (busWord s src r / 2 ^ (8 * o)))

/-- A read of `n` bytes: beyond 4 bytes, as many 32-bit reads, the lowest address first (R41). -/
def busReadWords (src : Nat) : Nat → Nat → State → State × Nat
  | 0, _, s => (s, 0)
  | k + 1, a, s =>
    let (s, v) := busReadWord s src a 4
    let (s, w) := busReadWords src k (a + 4) s
    (s, v + 2 ^ 32 * w)

def busRead (s : State) (src a n : Nat) : State × Nat :=
  if n = 1 ∨ n = 2 ∨ n = 4 then busReadWord s src a n
  else if n = 8 ∨ n = 32 then busReadWords src (n / 4) a s
  else (s, 0)

/-! ### Writes -/

/-- A write that has no more effect than on the fields written. -/
def plainWrite (s : State) (a v : Nat) : State :=
  let ps := regFields s a
  if regTakes s a v ps then fieldsWrite s v ps else s

/-- MEM_PORT_CFG: the credit gained until now is at the rate until now (R347). -/
def portCfgWrite (s : State) (a v : Nat) : State :=
  plainWrite { s with st := { s.st with credit := s.st.credit.map (fun c => (c.1, (creditNow s c.1, s.clk))) } } a v

/-- CL_CU_CTRL (R256): `cu_grp` and `dens_plane` take effect at the swap, and are not taken while one is awaited. -/
def cuWrite (s : State) (v : Nat) : State :=
  if s.on Reg.CL_CU_CTRL.swap then s
  else
    let s := { s with insp := { s.insp with cuPlane := some (bits v 20 4), cuGrp := some (bits v 24 2) } }
    if bit v 31 then s.wr Reg.CL_CU_CTRL.swap 0 1 else s

/-- PRBS_CTRL of the lane selected (R401, R402): `inj_once` stands until the generator is on and has sent the error. -/
def prbsCtrlWrite (s : State) (v : Nat) : State :=
  let a := Reg.PRBS_CTRL.gen_en.addr
  let ps := regFields s a
  let n := s.rd Reg.LANE_SEL.lsel
  if !regTakes s a v ps then s
  else
    let s := fieldsWrite (prbsWrite s n (bit v 30)) v ps
    if s.on Reg.PRBS_CTRL.inj_once n && s.on Reg.PRBS_CTRL.gen_en n then (prbsInject s n).wr Reg.PRBS_CTRL.inj_once n 0 else s

/-- LANE_LOOP of the lane selected: the loop asked for is in effect (R401). -/
def loopWrite (s : State) (v : Nat) : State :=
  let a := Reg.LANE_LOOP.loop_req.addr
  let ps := regFields s a
  if regTakes s a v ps then
    (fieldsWrite s v ps).wr Reg.LANE_STATE.loop (s.rd Reg.LANE_SEL.lsel) (bits v 0 3)
  else s

/-- An MSI-X vector that is unmasked sends the message it owes (PCI Express). -/
def msixWrite (s : State) (a v : Nat) : State :=
  let n := (a - Reg.MSIX.mask.addr) / 16
  let s := plainWrite s a v
  msiOwed s n

/-- EPOCH_CMD (R60, R70). -/
def epochCmd (s : State) (v : Nat) : State :=
  if bit v 31 && bit v 30 then s
  else if bit v 31 then epochSchedule s (bits v 0 4) (bit v 8)
  else if bit v 30 then epochCancel s
  else s

/-- SET_CMD (R466). -/
def setCmd (s : State) (op : Nat) : State :=
  if op = 1 then setSave s else if op = 2 then setWrite s else if op = 3 then setClear s else s

/-- UPD_CMD (Table 15-12). -/
def updCmd (s : State) (op ports : Nat) : State :=
  if op = 1 then updLoad s else if op = 2 then updArm s else if op = 3 then updDisarm s else if op = 4 then updConfirm s
  else if op = 5 then updForward s ports else if op = 6 then updAbort s else s

/-- CL_NOZ_CMD (R254). -/
def nozCmd (s : State) (op nozzle : Nat) : State :=
  if op = 1 then nozRetire s nozzle else if op = 2 then nozRestore s nozzle
  else if op = 3 then nozRestorePlane s (nozzle % 16) else s

/-- A 32-bit write of a BAR0 register. -/
def bar0Write (s : State) (a v : Nat) : State :=
  if a = Reg.POWER_CTRL.power_req.addr then powerWrite s (bits v 0 2)
  else if a = Reg.EPOCH_CMD.go.addr then epochCmd s v
  else if a = Reg.SCRIBE_RESTART.go.addr then if bit v 31 then scribeRestart s (bits v 0 4) else s
  else if a = Reg.LA_VJOB.v_job.addr then
    leadUpdate (vjobWrite s (bits v Reg.LA_VJOB.v_job.lsb Reg.LA_VJOB.v_job.width))
  else if a = Reg.EXPO_GO.go.addr then if bit v 31 then expoGo s else s
  else if a = 0x7_0100 ∨ a = 0x7_0110 ∨ a = 0x7_0120 ∨ a = 0x7_0130 then (groupWrite s ((a - 0x7_0100) / 16) v).spend
  else if a = Reg.CL_NOZ_CMD.op.addr then nozCmd s (bits v 30 2) (bits v 0 23)
  else if a = Reg.CL_CU_CTRL.swap.addr then cuWrite s v
  else if a = Reg.CL_RECAL_REQ.go.addr then if bit v 31 then recalRequest s (bits v 8 3) (bits v 0 8) else s
  else if a = Reg.MOT_CMD.op.addr then motCommand s (bits v 29 3)
  else if a = Reg.TIME_PTP_CFG.domain.addr then
    ptpRestart (plainWrite s a v) (ptpRole s) (s.rd Reg.TIME_PTP_CFG.domain)
  else if a = Reg.TIME_PPS.pps_in_en.addr then ppsOff (plainWrite s a v)
  else if a = Reg.TIME_SET_CMD.go.addr then if bit v 31 then timeSet s (bit v 30) else s
  else if a = Reg.LANE_CMD.op.addr then laneCmd s (bits v 30 2) (bits v 0 6)
  else if a = Reg.PRBS_CTRL.gen_en.addr then prbsCtrlWrite s v
  else if a = Reg.LANE_LOOP.loop_req.addr then loopWrite s v
  else if a = Reg.PAIR_CMD.op.addr then pairCommand s (bits v 30 2)
  else if a = Reg.THERM_CMD.restore.addr then if bit v 31 then (sensRestore s (bits v 0 6)).cool else s
  else if a = Reg.LX_RESET.warm.addr then if bit v 31 && bits v 0 16 == 0x5A17 then resetAsk s else s
  else if a = Reg.SET_CMD.op.addr then setCmd s (bits v 30 2)
  else if a = Reg.UPD_CMD.op.addr then updCmd s (bits v 29 3) (bits v 0 2)
  else if decide (Reg.MEM_PORT_CFG.rate_gbs.addr ≤ a) && decide (a < Reg.MEM_PORT_CFG.rate_gbs.addr + 72) then portCfgWrite s a v
  else if decide (0xFE_0000 ≤ a) && decide (a < 0xFE_1000) && a % 16 == 12 then msixWrite s a v
  else plainWrite s a v

/-- A 32-bit write through BAR2. -/
def bar2Write (s : State) (a v : Nat) : State :=
  let o := a - bar2
  if o < catSize then catWindow s o v
  else if decide (0x8_0000 ≤ o) && decide (o < 0x8_1000) then
    let n := (o - 0x8_0000) / 16
    if o % 16 = 0 then doorProducer s n v else if o % 16 = 4 then doorConsumer s n v else s
  else if a = Reg.CAT_INVALIDATE.all.addr then if bit v 31 then catInvalidateAll s else catInvalidate s (bits v 0 12)
  else if a = Reg.LEDGER_SNAP.snap_busy.addr then
    let f := Reg.LEDGER_SNAP.ledger_mismatch
    let s := if bit v f.lsb then s.wr f 0 0 else s
    if bit v Reg.LEDGER_SNAP.snap_busy.lsb then snapAsk s else s
  else plainWrite s a v

/-- A 32-bit write through BAR4. -/
def bar4Write (s : State) (a v : Nat) : State :=
  if a = Reg.GP_CTRL.run.addr then if bit v 0 then gpRunStart s v else gpRunStop s v
  else if a = Reg.GP_DMA_GO.go.addr then if bit v Reg.GP_DMA_GO.go.lsb then gpDmaGo s else s
  else if a = Reg.GP_UNLOCK.key.addr then gpUnlock s (bits v Reg.GP_UNLOCK.key.lsb Reg.GP_UNLOCK.key.width)
  else plainWrite s a v

/-- A 32-bit write at `a`, a multiple of 4. -/
def busWriteWord (s : State) (src a v : Nat) : State :=
  if !reaches s src a || a % 4 ≠ 0 then s
  else
    let a := busAlias a
    (if a < bar2 then bar0Write s a v else if a < bar4 then bar2Write s a v else bar4Write s a v).settle

/-- A write of 8 or 16 bits: a register takes none (Table 1-12), the Catalog window does. -/
def busWriteNarrow (s : State) (src a n v : Nat) : State :=
  if bar2 ≤ a ∧ a < bar2 + catSize ∧ reaches s src a then catWindowBytes s (a - bar2) n (low (8 * n) v) else s

/-- A write of `n` bytes: 4, or as many 32-bit writes, the lowest address first (R41). -/
def busWriteWords (src : Nat) : Nat → Nat → Nat → State → State
  | 0, _, _, s => s
  | k + 1, a, v, s => busWriteWords src k (a + 4) (v / 2 ^ 32) (busWriteWord s src a (low 32 v))

def busWrite (s : State) (src a n v : Nat) : State :=
  if n = 4 ∨ n = 8 ∨ n = 32 then busWriteWords src (n / 4) a v s
  else if n = 1 ∨ n = 2 then busWriteNarrow s src a n v else s

/-! ### Commands -/

/-- REGISTER_WRITE. -/
def execRegisterWrite (t src addr size value : Nat) (s : State) : Host.Outcome State Fault Refusal :=
  .next (busWrite (s.at t) src addr size value)

/-- RC_REGISTER_READ: the value goes to the reader, and the fields read are cleared. -/
def execRcRegisterRead (t src addr size : Nat) (s : State) : Host.Outcome State Fault Refusal :=
  let (s, v) := busRead (s.at t) src addr size
  .next (s.emit (.readData src v))

end Sys2Proof.Machine
end

