-- ==== Sys2Proof/Machine/Operands.lean ====
section
/-! DEFINITION. The operands of Folio instructions: register fields, immediates, instruction words, the program counter, and memory
behind the eight windows (R79 to R88, R107, R111, Tables 3-1, 3-2, 3-4, 3-8, 3-12). -/

namespace Sys2Proof.Machine

/-! ### Registers (R79) -/

/-- General register `n` of engine `p`; g0 reads 0. -/
def State.gget (s : State) (p n : Nat) : Word := if n % 32 = 0 then 0 else Tbl.get 0 (s.eng p).g (n % 32)

/-- A write of general register `n`; a write of g0 is discarded. -/
def State.gset (s : State) (p n : Nat) (v : Word) : State :=
  if n % 32 = 0 then s else s.setEng p { s.eng p with g := (s.eng p).g.put (n % 32) v }

/-- A general register takes a number. -/
def State.gnat (s : State) (p n v : Nat) : State := s.gset p n (BitVec.ofNat 64 v)

/-- A general register as an unsigned number. -/
def State.gnum (s : State) (p n : Nat) : Nat := (s.gget p n).toNat

def State.vget (s : State) (p n : Nat) : VWord := Tbl.get 0 (s.eng p).v (n % 16)

def State.vset (s : State) (p n : Nat) (v : VWord) : State :=
  s.setEng p { s.eng p with v := (s.eng p).v.put (n % 16) v }

/-- A vector register field of 16 to 31 is illegal (R88). -/
def vBad (n : Nat) : Bool := decide (16 ≤ n % 32)

/-! ### Immediates -/

/-- The sign extension of a `w`-bit field. -/
def sext (w n : Nat) : Word := BitVec.ofInt 64 (signed w n)

/-- The zero extension of a `w`-bit field. -/
def zext (w n : Nat) : Word := BitVec.ofNat 64 (low w n)

/-! ### Instruction words (Tables 3-4, 3-5) -/

def wordX (op rd rs1 rs2 sub k : Nat) : Nat :=
  op * 2 ^ 26 + low 5 rd * 2 ^ 21 + low 5 rs1 * 2 ^ 16 + low 5 rs2 * 2 ^ 11 + low 5 sub * 2 ^ 6 + low 6 k

def wordI (op rd rs1 imm : Nat) : Nat := op * 2 ^ 26 + low 5 rd * 2 ^ 21 + low 5 rs1 * 2 ^ 16 + low 16 imm

def wordM (op rt base win imm : Nat) : Nat :=
  op * 2 ^ 26 + low 5 rt * 2 ^ 21 + low 5 base * 2 ^ 16 + low 3 win * 2 ^ 13 + low 13 imm

def wordB (op rs1 rs2 off : Nat) : Nat := op * 2 ^ 26 + low 5 rs1 * 2 ^ 21 + low 5 rs2 * 2 ^ 16 + low 16 off

/-! ### The program counter (R79, R93) -/

def State.pcOf (s : State) (p : Nat) : Nat := (s.eng p).pc

def State.setPc (s : State) (p pc : Nat) : State := s.setEng p { s.eng p with pc := pc }

/-- The fault that the fetch of an instruction of a run meets: 0x06 outside the program area (R93), 0x04 on an uncorrectable error of
its word, or of the slice's context or table entry, read before it (R81). -/
def fetchFault (s : State) (p : Nat) : Option Nat :=
  match (s.eng p).running with
  | none => none
  | some i =>
    if contextBase p ≤ s.pcOf p then some 6
    else if localBad s p (s.pcOf p) 4 || localBad s p (contextBase p + 256 * i) 256 ||
        localBad s p (sliceTable p + 32 * i) 32 then some 4 else none

/-- The next instruction of a run is fetched. -/
def fetchCheck (s : State) (p : Nat) : State := match fetchFault s p with | some c => folioFault s p c 0 0 | none => s

/-- An instruction of engine `p`: it is fetched, the pc passes to the next one, it has its effect `f`, and the next one is fetched. -/
def State.folio (s : State) (p : Nat) (f : State → State) : Host.Outcome State Fault Refusal :=
  s.onEngine p (fun s =>
    match fetchFault s p with
    | some c => folioFault s p c 0 0
    | none => fetchCheck (f (s.setPc p (s.pcOf p + 4))) p)

/-- An instruction that may fault: `bad` gives the cause and the effective offset of its fault (R112). -/
def State.folioIf (s : State) (p word : Nat) (bad : State → Option (Nat × Nat)) (f : State → State) : Host.Outcome State Fault Refusal :=
  match bad s with
  | none => s.folio p f
  | some (cause, off) =>
    s.onEngine p (fun s =>
      match fetchFault s p with
      | some c => folioFault s p c 0 0
      | none => folioFault s p cause word off)

/-- An illegal field (R88). -/
def illegalIf (b : Bool) (_ : State) : Option (Nat × Nat) := if b then some (1, 0) else none

/-! ### Windows (R82 to R85, R111) -/

/-- What an engine's window opens onto: base, log2 of its size, rights (Tables 3-2 and 3-8). -/
structure Window where
  base : Nat
  log2 : Nat
  rights : Nat
  deriving DecidableEq, Repr

/-- The test area of the Scribes in the Reading Room (Table 10-8). -/
def testArea : Nat := rrBase + 0x3FF0000

/-- Window `w`, 1 to 7, of engine `p`. The test slice has w1 alone, onto its area, to read and write (R125; DESIGN CHOICE, log 125). -/
def State.window (s : State) (p w : Nat) : Window :=
  if p = registrar then
    let x := Tbl.get 0 (s.eng p).wins w
    { base := Tbl.get 0 (s.eng p).winb w, log2 := bits x 0 8, rights := bits x 8 3 }
  else if (s.eng p).running = some 31 then
    if w = 1 then { base := testArea, log2 := 16, rights := 3 } else { base := 0, log2 := 0, rights := 0 }
  else match s.entry (chScribe p) with
    | some e => { base := winBase e w, log2 := winLog2 e w, rights := winRights e w }
    | none => { base := 0, log2 := 0, rights := 0 }

/-- An access of `n` bytes at offset `o` lies inside the window (R83). -/
def Window.holds (x : Window) (o n : Nat) : Bool := x.log2 != 0 && decide (o + n ≤ 2 ^ x.log2)

def Window.rd (x : Window) : Bool := bit x.rights 0
def Window.wr (x : Window) : Bool := bit x.rights 1
def Window.amo (x : Window) : Bool := bit x.rights 2

/-- Device address of an offset. -/
def Window.addr (x : Window) (o : Nat) : Nat := (x.base + o) % 2 ^ 64

/-- The effective offset of an access (R83). -/
def State.offset (s : State) (p base imm : Nat) : Nat := (s.gget p base + sext 13 imm).toNat

/-- Local offset that a load reads as zero: reserved, or beyond the memory (Table 3-1, R82). -/
def localDark (p o : Nat) : Bool := decide (faultBase p + 0x400 ≤ o)

/-- Local offset that a store reaches: the program area, and for the Registrar the slice table (R78, R80). -/
def localOpen (p o : Nat) : Bool :=
  decide (o < contextBase p) || (p == registrar && decide (sliceTable p ≤ o) && decide (o < sliceTable p + 0x400))

/-- Device address `a` lies in the substitution map or its phase words (R148). -/
def inSubstMap (s : State) (a : Nat) : Bool := decide (substBase s ≤ a) && decide (a < substBase s + 0x20_0080)

/-- `n` bytes of the device address space at `a`, as engine `p` reads them, little-endian (R9). -/
def deviceRead (s : State) (p a n : Nat) : State × Nat :=
  match areaOf a with
  | .registers => busRead s p (a - regBase) n
  | .nowhere => (s, 0)
  | _ => let (s, b) := memFetch s a n; (s, leNat b)

/-- Bytes written at device address `a` by engine `p`; the substitution map takes no store. -/
def deviceWrite (s : State) (p a n v : Nat) : State :=
  match areaOf a with
  | .registers => busWrite s p (a - regBase) n v
  | .nowhere => s
  | _ => if inSubstMap s a || inSubstMap s (a + (n - 1)) then s else s.pokeBytes a (leBytes n v)

/-- A load of `n` bytes at offset `o` of window `w`. -/
def memLoad (s : State) (p w o n : Nat) : State × Nat :=
  if w % 8 = 0 then (s, if localDark p o || localDark p (o + (n - 1)) then 0 else s.local p o n)
  else
    let x := s.window p (w % 8)
    if x.holds o n && x.rd then deviceRead s p (x.addr o) n else (s, 0)

/-- A store of the low `n` bytes of `v` at offset `o` of window `w`. -/
def memStore (s : State) (p w o n v : Nat) : State :=
  if w % 8 = 0 then if localOpen p o && localOpen p (o + (n - 1)) then localWrite s p o (leBytes n v) else s
  else
    let x := s.window p (w % 8)
    if x.holds o n && x.wr then deviceWrite s p (x.addr o) n v else s

/-- An effective offset that is not a multiple of the access size: fault 0x03 (R91, R107). -/
def misaligned (p base imm n : Nat) (s : State) : Option (Nat × Nat) :=
  let o := s.offset p base imm
  if o % n = 0 then none else some (3, o)

/-- The faults of a load: the offset, then an uncorrectable error of the word read from local memory (R81, R91). -/
def loadBad (p base win imm n : Nat) (s : State) : Option (Nat × Nat) :=
  match misaligned p base imm n s with
  | some x => some x
  | none => if win % 8 = 0 && localBad s p (s.offset p base imm) n then some (4, 0) else none

/-- An uncorrectable error among `n` bytes at local offset `o` that a device instruction copies. -/
def copyBad (p o n : Nat) (s : State) : Option (Nat × Nat) := if localBad s p o n then some (4, 0) else none

/-! ### Device instructions -/

/-- The engine holds a capability of Table 3-3; the Registrar needs none (R78). -/
def State.cap (s : State) (p k : Nat) : Bool := p == registrar || bit (s.ent (chScribe p) ScribeE.caps) k

/-- 32 bytes of the engine's own memory at `o`, as a device instruction copies them; an operand beyond the memory is out of range. -/
def localFits (p o n : Nat) : Bool := decide (o + n ≤ faultBase p + 0x400)

/-- A local area that a device instruction writes. -/
def localTakes (p o n : Nat) : Bool := decide (0 < n) && localOpen p o && localOpen p (o + (n - 1))

end Sys2Proof.Machine
end

