-- ==== Sys2Proof/Machine/Alu.lean ====
section
/-! DEFINITION. Integer arithmetic of the Folio instruction set, immediates among it (R89, R90, Table 3-6). -/

namespace Sys2Proof.Machine

/-! ### Results of Table 3-6 -/

def aluMulh (a b : Word) : Word := BitVec.ofInt 64 (a.toInt * b.toInt / 2 ^ 64)
def aluMulhu (a b : Word) : Word := BitVec.ofNat 64 (a.toNat * b.toNat / 2 ^ 64)
def aluDivu (a b : Word) : Word := if b = 0 then BitVec.allOnes 64 else a.udiv b
def aluRemu (a b : Word) : Word := if b = 0 then a else a.umod b
def aluMin (a b : Word) : Word := if a.slt b then a else b
def aluMax (a b : Word) : Word := if a.slt b then b else a
def aluMinu (a b : Word) : Word := if a.ult b then a else b
def aluMaxu (a b : Word) : Word := if a.ult b then b else a

/-- Number of one bits. -/
def aluPopc (a : Word) : Word := BitVec.ofNat 64 (((List.range 64).filter (fun i => a.getLsbD i)).length)

/-- Number of leading zero bits, 0 to 64. -/
def aluClz (a : Word) : Word := BitVec.ofNat 64 (((List.range 64).takeWhile (fun i => !a.getLsbD (63 - i))).length)

/-- A shift amount, bits [5:0]. -/
def shamt (b : Word) : Nat := b.toNat % 64

def aluBfx (a b : Word) (k : Nat) : Word := (a >>> shamt b) &&& BitVec.ofNat 64 (2 ^ (k % 64) - 1)

/-- SHI: imm16[7:6] selects SLL, SRL, SRA or rotate right by imm16[5:0]. -/
def aluShi (a : Word) (imm : Nat) : Word :=
  let n := imm % 64
  match imm / 64 % 4 with
  | 0 => a <<< n
  | 1 => a >>> n
  | 2 => a.sshiftRight n
  | _ => a.rotateRight n

/-! ### The two shapes -/

/-- rd takes a function of rs1 and rs2. -/
def alu (p rd rs1 rs2 : Nat) (f : Word → Word → Word) (s : State) : Host.Outcome State Fault Refusal :=
  s.folio p (fun s => s.gset p rd (f (s.gget p rs1) (s.gget p rs2)))

/-- rd takes a function of rs1. -/
def aluI (p rd rs1 : Nat) (f : Word → Word) (s : State) : Host.Outcome State Fault Refusal :=
  s.folio p (fun s => s.gset p rd (f (s.gget p rs1)))

/-! ### Commands -/

/-- ADD. -/
def execAdd (p rd rs1 rs2 : Nat) (s : State) : Host.Outcome State Fault Refusal := alu p rd rs1 rs2 (fun a b => a + b) s
/-- SUB. -/
def execSub (p rd rs1 rs2 : Nat) (s : State) : Host.Outcome State Fault Refusal := alu p rd rs1 rs2 (fun a b => a - b) s
/-- AND. -/
def execAndR (p rd rs1 rs2 : Nat) (s : State) : Host.Outcome State Fault Refusal := alu p rd rs1 rs2 (fun a b => a &&& b) s
/-- OR. -/
def execOrR (p rd rs1 rs2 : Nat) (s : State) : Host.Outcome State Fault Refusal := alu p rd rs1 rs2 (fun a b => a ||| b) s
/-- XOR. -/
def execXorR (p rd rs1 rs2 : Nat) (s : State) : Host.Outcome State Fault Refusal := alu p rd rs1 rs2 (fun a b => a ^^^ b) s
/-- SLL. -/
def execSll (p rd rs1 rs2 : Nat) (s : State) : Host.Outcome State Fault Refusal := alu p rd rs1 rs2 (fun a b => a <<< shamt b) s
/-- SRL. -/
def execSrl (p rd rs1 rs2 : Nat) (s : State) : Host.Outcome State Fault Refusal := alu p rd rs1 rs2 (fun a b => a >>> shamt b) s
/-- SRA. -/
def execSra (p rd rs1 rs2 : Nat) (s : State) : Host.Outcome State Fault Refusal := alu p rd rs1 rs2 (fun a b => a.sshiftRight (shamt b)) s
/-- SLT. -/
def execSlt (p rd rs1 rs2 : Nat) (s : State) : Host.Outcome State Fault Refusal :=
  alu p rd rs1 rs2 (fun a b => BitVec.ofNat 64 (ofBool (a.slt b))) s
/-- SLTU. -/
def execSltu (p rd rs1 rs2 : Nat) (s : State) : Host.Outcome State Fault Refusal :=
  alu p rd rs1 rs2 (fun a b => BitVec.ofNat 64 (ofBool (a.ult b))) s
/-- MUL. -/
def execMul (p rd rs1 rs2 : Nat) (s : State) : Host.Outcome State Fault Refusal := alu p rd rs1 rs2 (fun a b => a * b) s
/-- MULH. -/
def execMulh (p rd rs1 rs2 : Nat) (s : State) : Host.Outcome State Fault Refusal := alu p rd rs1 rs2 aluMulh s
/-- MULHU. -/
def execMulhu (p rd rs1 rs2 : Nat) (s : State) : Host.Outcome State Fault Refusal := alu p rd rs1 rs2 aluMulhu s
/-- DIVU. -/
def execDivu (p rd rs1 rs2 : Nat) (s : State) : Host.Outcome State Fault Refusal := alu p rd rs1 rs2 aluDivu s
/-- REMU. -/
def execRemu (p rd rs1 rs2 : Nat) (s : State) : Host.Outcome State Fault Refusal := alu p rd rs1 rs2 aluRemu s
/-- MIN. -/
def execMinS (p rd rs1 rs2 : Nat) (s : State) : Host.Outcome State Fault Refusal := alu p rd rs1 rs2 aluMin s
/-- MAX. -/
def execMaxS (p rd rs1 rs2 : Nat) (s : State) : Host.Outcome State Fault Refusal := alu p rd rs1 rs2 aluMax s
/-- MINU. -/
def execMinu (p rd rs1 rs2 : Nat) (s : State) : Host.Outcome State Fault Refusal := alu p rd rs1 rs2 aluMinu s
/-- MAXU. -/
def execMaxu (p rd rs1 rs2 : Nat) (s : State) : Host.Outcome State Fault Refusal := alu p rd rs1 rs2 aluMaxu s
/-- CLZ. -/
def execClz (p rd rs1 : Nat) (s : State) : Host.Outcome State Fault Refusal := aluI p rd rs1 aluClz s
/-- POPC. -/
def execPopc (p rd rs1 : Nat) (s : State) : Host.Outcome State Fault Refusal := aluI p rd rs1 aluPopc s

/-- BFX; a field width of 0 is illegal. -/
def execBfx (p rd rs1 rs2 k : Nat) (s : State) : Host.Outcome State Fault Refusal :=
  s.folioIf p (wordX 0x00 rd rs1 rs2 0x16 k) (illegalIf (k % 64 == 0)) (fun s => s.gset p rd (aluBfx (s.gget p rs1) (s.gget p rs2) k))

/-- ADDI. -/
def execAddi (p rd rs1 imm : Nat) (s : State) : Host.Outcome State Fault Refusal := aluI p rd rs1 (fun a => a + sext 16 imm) s
/-- ANDI. -/
def execAndi (p rd rs1 imm : Nat) (s : State) : Host.Outcome State Fault Refusal := aluI p rd rs1 (fun a => a &&& zext 16 imm) s
/-- ORI. -/
def execOri (p rd rs1 imm : Nat) (s : State) : Host.Outcome State Fault Refusal := aluI p rd rs1 (fun a => a ||| zext 16 imm) s
/-- XORI. -/
def execXori (p rd rs1 imm : Nat) (s : State) : Host.Outcome State Fault Refusal := aluI p rd rs1 (fun a => a ^^^ zext 16 imm) s

/-- LUI: the sign extension of imm16 × 65,536. -/
def execLui (p rd imm : Nat) (s : State) : Host.Outcome State Fault Refusal := aluI p rd 0 (fun _ => sext 32 (low 16 imm * 65536)) s

/-- SLTI. -/
def execSlti (p rd rs1 imm : Nat) (s : State) : Host.Outcome State Fault Refusal :=
  aluI p rd rs1 (fun a => BitVec.ofNat 64 (ofBool (a.slt (sext 16 imm)))) s

/-- SHI; imm16[15:8] is 0, or the word is illegal. -/
def execShi (p rd rs1 imm : Nat) (s : State) : Host.Outcome State Fault Refusal :=
  s.folioIf p (wordI 0x07 rd rs1 imm) (illegalIf (low 16 imm / 256 != 0)) (fun s => s.gset p rd (aluShi (s.gget p rs1) imm))

/-- ILLEGAL_INSTRUCTION: a word that no instruction has (R88). A legal word is no illegal instruction: of it this command does nothing. -/
def execIllegalInstruction (p : Nat) (word : BitVec 32) (s : State) : Host.Outcome State Fault Refusal :=
  if (folioDecode p word.toNat).isSome then s.onEngine p (fun s => s)
  else s.folioIf p word.toNat (illegalIf true) (fun s => s)

end Sys2Proof.Machine
end

