-- ==== Sys2Proof/Machine/Access.lean ====
section
/-! DEFINITION. Loads, stores and atomic operations through windows (R83, R91, R92, R107, R111). -/

namespace Sys2Proof.Machine

/-- A load of `n` bytes into rt, sign-extended or not. -/
def load (op n : Nat) (sgn : Bool) (p rt base win imm : Nat) (s : State) : Host.Outcome State Fault Refusal :=
  s.folioIf p (wordM op rt base win imm) (loadBad p base win imm n) (fun s =>
    let (s, v) := memLoad s p win (s.offset p base imm) n
    s.gset p rt (if sgn then sext (8 * n) v else BitVec.ofNat 64 v))

/-- A store of the low `n` bytes of rt. -/
def store (op n p rt base win imm : Nat) (s : State) : Host.Outcome State Fault Refusal :=
  s.folioIf p (wordM op rt base win imm) (misaligned p base imm n) (fun s =>
    memStore s p win (s.offset p base imm) n (s.gnum p rt))

/-- The word an AMO writes back: ADD, SWAP, MAXU, MINU. -/
def amoWord (fn : Nat) (old v : Word) : Word :=
  if fn = 0 then old + v else if fn = 1 then v else if fn = 2 then aluMaxu old v else aluMinu old v

/-- The bits of an AMO's imm13. -/
def amoImm (rs2 fn : Nat) : Nat := low 5 rs2 * 256 + low 3 fn * 32

/-- An AMO at offset `o`: through w0, or a window onto the Reading Room with `amo`; any other returns 0 and changes nothing (R92).
Through w0 at an area that takes no store the old word is returned and stays (DESIGN CHOICE, log 123: the spec gives both the rule that an
AMO through w0 is allowed and the one that such a store is ignored). -/
def amoDo (s : State) (p win o fn : Nat) (v : Word) : State × Word :=
  let x := s.window p (win % 8)
  let ok := if win % 8 = 0 then true else x.holds o 8 && x.wr && x.amo && areaOf (x.addr o) == .readingRoom
  if !ok then (s, 0)
  else
    let (s, old) := if win % 8 = 0 then memLoad s p 0 o 8 else deviceRead s p (x.addr o) 8
    let new := (amoWord fn (BitVec.ofNat 64 old) v).toNat
    (if win % 8 = 0 then memStore s p 0 o 8 new else deviceWrite s p (x.addr o) 8 new, BitVec.ofNat 64 old)

/-- An AMO's faults: a function code that is not listed, a misaligned word, an uncorrectable one. That a code not listed is illegal is a
DESIGN CHOICE (log 123): R88 names opcodes, `sub` values and unused fields. -/
def amoBad (p base win fn : Nat) (s : State) : Option (Nat × Nat) :=
  if 4 ≤ fn % 8 then some (1, 0) else loadBad p base win 0 8 s

/-! ### Commands -/

/-- LB. -/
def execLb (p rt base win imm : Nat) (s : State) : Host.Outcome State Fault Refusal := load 0x08 1 true p rt base win imm s
/-- LH. -/
def execLh (p rt base win imm : Nat) (s : State) : Host.Outcome State Fault Refusal := load 0x09 2 true p rt base win imm s
/-- LW. -/
def execLw (p rt base win imm : Nat) (s : State) : Host.Outcome State Fault Refusal := load 0x0A 4 true p rt base win imm s
/-- LD. -/
def execLd (p rt base win imm : Nat) (s : State) : Host.Outcome State Fault Refusal := load 0x0B 8 true p rt base win imm s
/-- LBU. -/
def execLbu (p rt base win imm : Nat) (s : State) : Host.Outcome State Fault Refusal := load 0x0C 1 false p rt base win imm s
/-- LHU. -/
def execLhu (p rt base win imm : Nat) (s : State) : Host.Outcome State Fault Refusal := load 0x0D 2 false p rt base win imm s
/-- LWU. -/
def execLwu (p rt base win imm : Nat) (s : State) : Host.Outcome State Fault Refusal := load 0x0E 4 false p rt base win imm s
/-- SB. -/
def execSb (p rt base win imm : Nat) (s : State) : Host.Outcome State Fault Refusal := store 0x10 1 p rt base win imm s
/-- SH. -/
def execSh (p rt base win imm : Nat) (s : State) : Host.Outcome State Fault Refusal := store 0x11 2 p rt base win imm s
/-- SW. -/
def execSw (p rt base win imm : Nat) (s : State) : Host.Outcome State Fault Refusal := store 0x12 4 p rt base win imm s
/-- SD. -/
def execSd (p rt base win imm : Nat) (s : State) : Host.Outcome State Fault Refusal := store 0x13 8 p rt base win imm s

/-- AMO. -/
def execAmo (p rt base win rs2 fn : Nat) (s : State) : Host.Outcome State Fault Refusal :=
  s.folioIf p (wordM 0x14 rt base win (amoImm rs2 fn)) (amoBad p base win fn) (fun s =>
    let (s, old) := amoDo s p win (s.offset p base 0) (fn % 8) (s.gget p rs2)
    s.gset p rt old)

end Sys2Proof.Machine
end

