-- ==== Sys2Proof/Machine/Branch.lean ====
section
/-! DEFINITION. Branches and jumps (R93). -/

namespace Sys2Proof.Machine

/-- The address `off` instructions from `pc`, in 64 bits. -/
def branchTo (pc : Nat) (off : Int) : Nat := unsigned 64 ((pc : Int) + 4 * off)

/-- A conditional branch: taken, the next instruction is at its own address plus 4 × off16. -/
def branch (p rs1 rs2 off : Nat) (f : Word → Word → Bool) (s : State) : Host.Outcome State Fault Refusal :=
  let pc := s.pcOf p
  s.folio p (fun s => if f (s.gget p rs1) (s.gget p rs2) then s.setPc p (branchTo pc (signed 16 off)) else s)

/-- BEQ. -/
def execBeq (p rs1 rs2 off : Nat) (s : State) : Host.Outcome State Fault Refusal := branch p rs1 rs2 off (fun a b => a == b) s
/-- BNE. -/
def execBne (p rs1 rs2 off : Nat) (s : State) : Host.Outcome State Fault Refusal := branch p rs1 rs2 off (fun a b => a != b) s
/-- BLT. -/
def execBlt (p rs1 rs2 off : Nat) (s : State) : Host.Outcome State Fault Refusal := branch p rs1 rs2 off (fun a b => a.slt b) s
/-- BGE. -/
def execBge (p rs1 rs2 off : Nat) (s : State) : Host.Outcome State Fault Refusal := branch p rs1 rs2 off (fun a b => !a.slt b) s
/-- BLTU. -/
def execBltu (p rs1 rs2 off : Nat) (s : State) : Host.Outcome State Fault Refusal := branch p rs1 rs2 off (fun a b => a.ult b) s
/-- BGEU. -/
def execBgeu (p rs1 rs2 off : Nat) (s : State) : Host.Outcome State Fault Refusal := branch p rs1 rs2 off (fun a b => !a.ult b) s

/-- JAL: the address after it goes to g31. -/
def execJal (p off : Nat) (s : State) : Host.Outcome State Fault Refusal :=
  let pc := s.pcOf p
  s.folio p (fun s => (s.gnat p 31 (pc + 4)).setPc p (branchTo pc (signed 26 off)))

/-- Where JALR goes. -/
def jalrTo (p rs1 imm : Nat) (s : State) : Nat := (s.gget p rs1 + sext 16 imm).toNat

/-- JALR: rs1 is read before rd is written; a target that is not a multiple of 4 raises fault 0x02. -/
def execJalr (p rd rs1 imm : Nat) (s : State) : Host.Outcome State Fault Refusal :=
  let pc := s.pcOf p
  s.folioIf p (wordI 0x1F rd rs1 imm) (fun s => if jalrTo p rs1 imm s % 4 = 0 then none else some (2, 0))
    (fun s => (s.gnat p rd (pc + 4)).setPc p (jalrTo p rs1 imm s))

end Sys2Proof.Machine
end

