-- ==== Sys2Proof/Machine/Vec.lean ====
section
/-! DEFINITION. Vector instructions: sixteen lanes of 16 bits (R88, R106, R107, Table 3-10). -/

namespace Sys2Proof.Machine

/-- A lane. -/
abbrev Lane16 := BitVec 16

/-- Lane `i` of a vector. -/
def vlane (v : VWord) (i : Nat) : Lane16 := BitVec.ofNat 16 (v.toNat / 2 ^ (16 * i))

/-- The vector with lanes `f 0` to `f 15`. -/
def vmake (f : Nat → Lane16) : VWord := BitVec.ofNat 256 ((List.range 16).foldl (fun n i => n + (f i).toNat * 2 ^ (16 * i)) 0)

/-- A result held in the range of a signed lane. -/
def laneSat (x : Int) : Lane16 := BitVec.ofInt 16 (satInt 16 x)

/-- A result held in the range of an unsigned lane. -/
def laneSatu (x : Int) : Lane16 := BitVec.ofInt 16 (max 0 (min 65535 x))

/-- A comparison's lane. -/
def laneMask (b : Bool) : Lane16 := if b then 0xFFFF else 0

def laneMulq (a b : Lane16) : Lane16 := laneSat ((a.toInt * b.toInt + 16384) / 32768)

def laneAbsd (a b : Lane16) : Lane16 := if a.ult b then b - a else a - b

/-- VEMA, in 17 bits with sign fill. -/
def laneEma (k : Nat) (d a : Lane16) : Lane16 := BitVec.ofInt 16 ((d.toNat : Int) + ((a.toNat : Int) - d.toNat) / 2 ^ k)

/-- Opcode of VEC (Table 3-5). -/
def opVec : Nat := 0x28

/-- vd takes a function of the lanes of vs1 and vs2. -/
def vec2 (sub p vd vs1 vs2 : Nat) (f : Lane16 → Lane16 → Lane16) (s : State) : Host.Outcome State Fault Refusal :=
  s.folioIf p (wordX opVec vd vs1 vs2 sub 0) (illegalIf (vBad vd || vBad vs1 || vBad vs2)) (fun s =>
    s.vset p vd (vmake (fun i => f (vlane (s.vget p vs1) i) (vlane (s.vget p vs2) i))))

/-- vd takes a function of the lanes of vs1, with k of 0 to 15. -/
def vecK (sub p vd vs1 k : Nat) (f : Nat → Lane16 → Lane16) (s : State) : Host.Outcome State Fault Refusal :=
  s.folioIf p (wordX opVec vd vs1 0 sub k) (illegalIf (vBad vd || vBad vs1 || decide (16 ≤ k % 64))) (fun s =>
    s.vset p vd (vmake (fun i => f (k % 64) (vlane (s.vget p vs1) i))))

/-! ### Commands -/

/-- VADD. -/
def execVadd (p vd vs1 vs2 : Nat) (s : State) : Host.Outcome State Fault Refusal := vec2 0x01 p vd vs1 vs2 (fun a b => a + b) s
/-- VSUB. -/
def execVsub (p vd vs1 vs2 : Nat) (s : State) : Host.Outcome State Fault Refusal := vec2 0x02 p vd vs1 vs2 (fun a b => a - b) s
/-- VADDS. -/
def execVadds (p vd vs1 vs2 : Nat) (s : State) : Host.Outcome State Fault Refusal :=
  vec2 0x03 p vd vs1 vs2 (fun a b => laneSat (a.toInt + b.toInt)) s
/-- VSUBS. -/
def execVsubs (p vd vs1 vs2 : Nat) (s : State) : Host.Outcome State Fault Refusal :=
  vec2 0x04 p vd vs1 vs2 (fun a b => laneSat (a.toInt - b.toInt)) s
/-- VADDUS. -/
def execVaddus (p vd vs1 vs2 : Nat) (s : State) : Host.Outcome State Fault Refusal :=
  vec2 0x05 p vd vs1 vs2 (fun a b => laneSatu ((a.toNat : Int) + b.toNat)) s
/-- VSUBUS. -/
def execVsubus (p vd vs1 vs2 : Nat) (s : State) : Host.Outcome State Fault Refusal :=
  vec2 0x06 p vd vs1 vs2 (fun a b => laneSatu ((a.toNat : Int) - b.toNat)) s
/-- VMUL. -/
def execVmul (p vd vs1 vs2 : Nat) (s : State) : Host.Outcome State Fault Refusal := vec2 0x07 p vd vs1 vs2 (fun a b => a * b) s
/-- VMULH. -/
def execVmulh (p vd vs1 vs2 : Nat) (s : State) : Host.Outcome State Fault Refusal :=
  vec2 0x08 p vd vs1 vs2 (fun a b => BitVec.ofInt 16 (a.toInt * b.toInt / 65536)) s
/-- VMULQ. -/
def execVmulq (p vd vs1 vs2 : Nat) (s : State) : Host.Outcome State Fault Refusal := vec2 0x09 p vd vs1 vs2 laneMulq s
/-- VMIN. -/
def execVmin (p vd vs1 vs2 : Nat) (s : State) : Host.Outcome State Fault Refusal :=
  vec2 0x0A p vd vs1 vs2 (fun a b => if a.slt b then a else b) s
/-- VMAX. -/
def execVmax (p vd vs1 vs2 : Nat) (s : State) : Host.Outcome State Fault Refusal :=
  vec2 0x0B p vd vs1 vs2 (fun a b => if a.slt b then b else a) s
/-- VMINU. -/
def execVminu (p vd vs1 vs2 : Nat) (s : State) : Host.Outcome State Fault Refusal :=
  vec2 0x0C p vd vs1 vs2 (fun a b => if a.ult b then a else b) s
/-- VMAXU. -/
def execVmaxu (p vd vs1 vs2 : Nat) (s : State) : Host.Outcome State Fault Refusal :=
  vec2 0x0D p vd vs1 vs2 (fun a b => if a.ult b then b else a) s
/-- VABSDU. -/
def execVabsdu (p vd vs1 vs2 : Nat) (s : State) : Host.Outcome State Fault Refusal := vec2 0x0E p vd vs1 vs2 laneAbsd s
/-- VAND. -/
def execVand (p vd vs1 vs2 : Nat) (s : State) : Host.Outcome State Fault Refusal := vec2 0x0F p vd vs1 vs2 (fun a b => a &&& b) s
/-- VOR. -/
def execVor (p vd vs1 vs2 : Nat) (s : State) : Host.Outcome State Fault Refusal := vec2 0x10 p vd vs1 vs2 (fun a b => a ||| b) s
/-- VXOR. -/
def execVxor (p vd vs1 vs2 : Nat) (s : State) : Host.Outcome State Fault Refusal := vec2 0x11 p vd vs1 vs2 (fun a b => a ^^^ b) s
/-- VSHL. -/
def execVshl (p vd vs1 k : Nat) (s : State) : Host.Outcome State Fault Refusal := vecK 0x12 p vd vs1 k (fun k a => a <<< k) s
/-- VSRL. -/
def execVsrl (p vd vs1 k : Nat) (s : State) : Host.Outcome State Fault Refusal := vecK 0x13 p vd vs1 k (fun k a => a >>> k) s
/-- VSRA. -/
def execVsra (p vd vs1 k : Nat) (s : State) : Host.Outcome State Fault Refusal := vecK 0x14 p vd vs1 k (fun k a => a.sshiftRight k) s
/-- VCGT. -/
def execVcgt (p vd vs1 vs2 : Nat) (s : State) : Host.Outcome State Fault Refusal :=
  vec2 0x15 p vd vs1 vs2 (fun a b => laneMask (b.slt a)) s
/-- VCGTU. -/
def execVcgtu (p vd vs1 vs2 : Nat) (s : State) : Host.Outcome State Fault Refusal :=
  vec2 0x16 p vd vs1 vs2 (fun a b => laneMask (b.ult a)) s
/-- VCEQ. -/
def execVceq (p vd vs1 vs2 : Nat) (s : State) : Host.Outcome State Fault Refusal :=
  vec2 0x17 p vd vs1 vs2 (fun a b => laneMask (a == b)) s

/-- VSEL: vs1 where the lane of vd is non-zero, else vs2. -/
def execVsel (p vd vs1 vs2 : Nat) (s : State) : Host.Outcome State Fault Refusal :=
  s.folioIf p (wordX opVec vd vs1 vs2 0x18 0) (illegalIf (vBad vd || vBad vs1 || vBad vs2)) (fun s =>
    s.vset p vd (vmake (fun i => if vlane (s.vget p vd) i = 0 then vlane (s.vget p vs2) i else vlane (s.vget p vs1) i)))

/-- VEMA. -/
def execVema (p vd vs1 k : Nat) (s : State) : Host.Outcome State Fault Refusal :=
  s.folioIf p (wordX opVec vd vs1 0 0x19 k) (illegalIf (vBad vd || vBad vs1 || decide (16 ≤ k % 64))) (fun s =>
    s.vset p vd (vmake (fun i => laneEma (k % 64) (vlane (s.vget p vd) i) (vlane (s.vget p vs1) i))))

/-- VSPLAT. -/
def execVsplat (p vd rs1 : Nat) (s : State) : Host.Outcome State Fault Refusal :=
  s.folioIf p (wordX opVec vd rs1 0 0x1A 0) (illegalIf (vBad vd)) (fun s =>
    s.vset p vd (vmake (fun _ => BitVec.ofNat 16 (s.gnum p rs1))))

/-- VEXTU. -/
def execVextu (p rd vs1 k : Nat) (s : State) : Host.Outcome State Fault Refusal :=
  s.folioIf p (wordX opVec rd vs1 0 0x1B k) (illegalIf (vBad vs1 || decide (16 ≤ k % 64))) (fun s =>
    s.gnat p rd (vlane (s.vget p vs1) (k % 64)).toNat)

/-- VINS. -/
def execVins (p vd rs1 k : Nat) (s : State) : Host.Outcome State Fault Refusal :=
  s.folioIf p (wordX opVec vd rs1 0 0x1C k) (illegalIf (vBad vd || decide (16 ≤ k % 64))) (fun s =>
    s.vset p vd (vmake (fun i => if i = k % 64 then BitVec.ofNat 16 (s.gnum p rs1) else vlane (s.vget p vd) i)))

/-- VREDADD: the signed sum of the lanes. -/
def execVredadd (p rd vs1 : Nat) (s : State) : Host.Outcome State Fault Refusal :=
  s.folioIf p (wordX opVec rd vs1 0 0x1D 0) (illegalIf (vBad vs1)) (fun s =>
    s.gset p rd (BitVec.ofInt 64 ((List.range 16).foldl (fun (n : Int) i => n + (vlane (s.vget p vs1) i).toInt) 0)))

/-- VANY: bit i set where lane i is non-zero. -/
def execVany (p rd vs1 : Nat) (s : State) : Host.Outcome State Fault Refusal :=
  s.folioIf p (wordX opVec rd vs1 0 0x1E 0) (illegalIf (vBad vs1)) (fun s =>
    s.gnat p rd ((List.range 16).foldl (fun n i => if vlane (s.vget p vs1) i = 0 then n else n + 2 ^ i) 0))

/-- The faults of VST: an illegal vector field, an offset that is no multiple of 32. -/
def vmemBad (p vt base imm : Nat) (s : State) : Option (Nat × Nat) :=
  if vBad vt then some (1, 0) else misaligned p base imm 32 s

/-- The faults of VLD, an uncorrectable error of its vector among them. -/
def vloadBad (p vt base win imm : Nat) (s : State) : Option (Nat × Nat) :=
  if vBad vt then some (1, 0) else loadBad p base win imm 32 s

/-- VLD. -/
def execVld (p vt base win imm : Nat) (s : State) : Host.Outcome State Fault Refusal :=
  s.folioIf p (wordM 0x29 vt base win imm) (vloadBad p vt base win imm) (fun s =>
    let (s, v) := memLoad s p win (s.offset p base imm) 32
    s.vset p vt (BitVec.ofNat 256 v))

/-- VST. -/
def execVst (p vt base win imm : Nat) (s : State) : Host.Outcome State Fault Refusal :=
  s.folioIf p (wordM 0x2A vt base win imm) (vmemBad p vt base imm) (fun s =>
    memStore s p win (s.offset p base imm) 32 (s.vget p vt).toNat)

end Sys2Proof.Machine
end

