-- ==== Sys2Proof/Machine/Devices.lean ====
section
/-! DEFINITION. Device instructions of Folio programs: rings, the Ledger, time, the Catalog, the Line Assembler, substitutions, inspection
results and barriers (R94 to R104, R111, Tables 3-7, 3-9 and 3-12). -/

namespace Sys2Proof.Machine

/-- A device instruction: its effect, and the read-back that rd takes (R94). -/
def devOp (p rd : Nat) (f : State → State × Nat) (s : State) : Host.Outcome State Fault Refusal :=
  s.folio p (fun s => let (s, v) := f s; s.gnat p rd v)

/-- A device instruction that copies 32 bytes from the local offset in general register `r` first (R81). -/
def copyOp (op sub p rd rs1 rs2 r : Nat) (f : State → State × Nat) (s : State) : Host.Outcome State Fault Refusal :=
  s.folioIf p (wordX op rd rs1 rs2 sub 0) (copyBad p (s.gnum p r) 32) (fun s => let (s, v) := f s; s.gnat p rd v)

/-! ### Rings (Table 3-7, R96, R97) -/

/-- RING.PUSH: the producer of a ring with room publishes the descriptor at local offset `o`. -/
def ringPush (s : State) (p n o : Nat) : State × Nat :=
  if 256 ≤ n || !localFits p o 32 || !s.ringUp n || s.ent (chRing n) RingE.producer != s.agent p then (s, 0)
  else if s.ringFull n then (s, (s.ring n).prod)
  else
    let b := Mem.read s.mem (localBase p + o) 32
    let i := (s.ring n).prod
    let d := b.take 15 ++ leBytes 1 i ++ b.drop 16
    let s := ringPublish (s.pokeBytes (s.descAddr n i) d) n 1 (Desc.ofBytes d).irq
    (s, (s.ring n).prod)

/-- An enabled Bindery unit consumes the ring, and nothing else does (R370). -/
def bndOwns (s : State) (n : Nat) : Bool :=
  (List.range 16).any (fun u => s.entOn (chBnd u) BndE.unitEn && s.ent (chBnd u) BndE.inRing == n)

/-- RING.POP: the consumer takes the descriptor at the consumer index to local offset `o`. -/
def ringPop (s : State) (p n o : Nat) : State × Nat :=
  if 256 ≤ n || !localTakes p o 32 || !s.ringUp n || s.ent (chRing n) RingE.consumer != s.agent p || bndOwns s n || s.ringHolds n == 0 then
    (s, 0)
  else
    let i := (s.ring n).cons
    let b := s.peekBytes (s.descAddr n i) 32
    (localWrite (ringTake s n (s.agent p)) p o b, 2 ^ 32 + i)

/-- RING.DONE: the consumer completes a descriptor that its RING.POP returned as `v`, with the status and result at `o`. -/
def ringDone (s : State) (p v n o : Nat) : State :=
  let a := s.agent p
  if 256 ≤ n || !localFits p o 32 || s.ent (chRing n) RingE.consumer != a || v / 2 ^ 32 != 1 ||
      !(s.ring n).flight.any (fun x => x == (v % 2 ^ 32, a)) then s
  else ringComplete s n (v % 2 ^ 32) (s.local p (o + 24) 4) (s.local p (o + 28) 4)

/-- RING.STAT. -/
def ringStat (s : State) (n : Nat) : Nat := if n < 256 then (s.ring n).cons * 2 ^ 32 + (s.ring n).prod else 0

/-! ### The Ledger -/

/-- LEDGER.SNAP: the sequence number of the snapshot started, 0 where none is. -/
def ledSnap (s : State) (p : Nat) : State × Nat :=
  if !s.cap p 5 || s.on Reg.LEDGER_SNAP.snap_busy then (s, 0)
  else let s := snapAsk s; (s, s.led.seqStarted)

/-- LEDGER.SEQ. -/
def ledSeq (s : State) : Nat := low 32 s.led.seqDone + 2 ^ 63 * s.rd Reg.LEDGER_SNAP.snap_busy

/-- Offset of word `w` of instance `i` of block `b` in the window of Table 1-11. -/
def ledPlace (b i w : Nat) : Option Nat :=
  match b with
  | 1 => if i < 80 then some (0x1000 + 64 * i + 8 * w) else none
  | 2 => if i < 16 then some (0x3000 + 64 * i + 8 * w) else none
  | 3 => if i < 52 ∧ w < 4 then some (0x4000 + 32 * i + 8 * w) else none
  | 4 => if w < 4 then some (0x5000 + 32 * i + 8 * w) else none
  | 5 => if i < 80 ∧ w < 2 then some (0x7000 + 16 * i + 8 * w) else none
  | _ => none

/-- LEDGER.READ; bit 11 and bits [63:15] of its operand, which name nothing, are ignored (DESIGN CHOICE, log 123). -/
def ledRead (s : State) (x : Nat) : Nat :=
  let w := bits x 0 3
  let i := bits x 3 8
  let b := bits x 12 3
  if b = 0 then
    if i = 0 ∧ w = 0 then wordNow s registrar (regFields s Reg.LEDGER_SNAP.snap_busy.addr)
    else if i = 0 ∧ w = 1 then ledLine s else 0
  else match ledPlace b i w with | some o => Tbl.get 0 (ledShown s) o | none => 0

/-! ### Time (R98, R329) -/

def timeCap (s : State) (ch : Nat) : Nat := if ch < 256 then Tbl.get 0 s.tu.capAt ch / nsU else 0
def timeCapn (s : State) (ch : Nat) : Nat := if ch < 256 then Tbl.get 0 s.tu.capN ch else 0

/-- TIME.WAIT: the run ends; a time already past makes the slice runnable at once. -/
def timeWait (s : State) (p ns : Nat) : State :=
  endRunning s p (s.pcOf p) (fun x =>
    if ns ≤ s.devNs then { x with since := some s.clk, level := false, wait := .none } else { x with wait := .time ns })

/-- TIME.ARM. -/
def timeArm (s : State) (p k ns : Nat) : State × Nat :=
  if s.cap p 4 && trigArmOk s k then (trigArm s k ns, ns) else (s, 0)

/-! ### The Catalog -/

/-- The agent that owns a channel's entry: of the entry in effect, or where there is none, of the entry in the table. -/
def catOwner (s : State) (ch : Nat) : Nat :=
  match Tbl.find s.cat.inEffect ch with
  | some e => HdrE.owner.get e
  | none => HdrE.owner.get (s.peekBytes (entryAddr s ch) 128)

/-- CAT.INV. -/
def catInv (s : State) (p ch : Nat) : State :=
  if ch < 4096 && (s.cap p 7 || catOwner s ch == s.agent p) then catInvalidate s ch else s

def catWin (s : State) (p k : Nat) : Nat :=
  let x := s.window p k
  if decide (1 ≤ k) && decide (k ≤ 7) && x.log2 != 0 then x.base else 0

def catWsize (s : State) (p k : Nat) : Nat :=
  let x := s.window p k
  if decide (1 ≤ k) && decide (k ≤ 7) && x.log2 != 0 then 2 ^ x.log2 else 0

/-! ### Line Assembler and substitution -/

/-- LINE.PAGE; in SHADOW it is ignored (R414). -/
def linePageOp (s : State) (p a first : Nat) : State × Nat :=
  if !s.cap p 0 || s.mode == modeShadow then (s, 0)
  else let (s, n) := linePage s a first; (s.settle, n)

def substSetOp (s : State) (p x line : Nat) : State × Nat :=
  if !s.cap p 1 || s.mode == modeShadow || decide (2 ^ 48 ≤ line) then (s, 0) else substSet s (bits x 0 23) (bits x 32 23) line

def substClrOp (s : State) (p x line : Nat) : State × Nat :=
  if !s.cap p 1 || s.mode == modeShadow || decide (2 ^ 48 ≤ line) then (s, 0) else substClr s (bits x 0 23) line

def substGet (s : State) (x k : Nat) : Nat :=
  if k % 64 = 0 then substRead s (bits x 0 23) else if k % 64 = 1 then substSpare s (bits x 0 23) else 0

/-! ### Inspection results -/

/-- STAT.SEG: the oldest region record of a pipeline. -/
def statSeg (s : State) (p n o : Nat) : State × Nat :=
  if !s.cap p 2 || 16 ≤ n || !localTakes p o 64 then (s, 0)
  else match (s.pipe n).regions with
    | [] => (s, 0)
    | r :: rest =>
      (localWrite (s.setPipe n { s.pipe n with regions := rest }) p o r, r.length)

/-- Lane `i` of STAT.VCOL. -/
def statVcol (s : State) (p x a i : Nat) : Nat :=
  if s.cap p 2 && decide (x < 128) && a % 16 == 0 && decide (a ≤ 65520) then accValue s (x / 8) (x % 8) (a + i) else 0

/-- STAT.COLFRAME. -/
def statColframe (s : State) (p plane : Nat) : Nat :=
  let x := Tbl.get (0, 0) s.insp.accDone plane
  if s.cap p 2 && decide (plane < 16) then low 48 x.1 + 2 ^ 48 * low 16 x.2 else 0

/-- STAT.EXPO: the exposure set at local offset `o`. -/
def statExpo (s : State) (p n o : Nat) : State × Nat :=
  if !s.cap p 3 || 16 ≤ n || !localFits p o 32 then (s, 0) else expoWrite s n (Mem.read s.mem (localBase p + o) 32)

/-- STAT.FRAME. -/
def statFrame (s : State) (p n : Nat) : Nat :=
  if s.cap p 2 && decide (n < 16) then
    let e := match (s.pipe n).frames.getLast? with | some f => f.expo | none => 0
    low 48 (curFrame s n) + 2 ^ 48 * low 16 e
  else 0

/-! ### Barriers (R104) -/

def State.barrier (s : State) (n : Nat) : Barrier := Tbl.get Barrier.reset s.barriers n

/-- The barrier's generation has changed: slices that waited for another one become runnable. -/
def syncWake (s : State) (n : Nat) : State :=
  let gen := (s.barrier n).gen
  s.engines.foldl (fun s c => c.2.slices.foldl (fun s x =>
    match x.2.wait with
    | .sync b g => if b == n && g != gen && x.2.since.isNone then sliceResume s c.1 x.1 else s
    | _ => s) s) s

def syncInit (s : State) (p n k : Nat) : State :=
  if s.cap p 6 && decide (n < 32) && decide (1 ≤ k) && decide (k ≤ 64) then
    syncWake { s with barriers := s.barriers.put n { participants := k, count := 0, gen := 0 } } n
  else s

/-- SYNC.ARRIVE: one arrival; the generation at arrival. -/
def syncArrive (s : State) (n : Nat) : State × Nat :=
  if 32 ≤ n then (s, 0)
  else
    let b := s.barrier n
    if b.count + 1 = b.participants then
      (syncWake { s with barriers := s.barriers.put n { b with count := 0, gen := (b.gen + 1) % 2 ^ 32 } } n, b.gen)
    else ({ s with barriers := s.barriers.put n { b with count := b.count + 1 } }, b.gen)

def syncWait (s : State) (p n g : Nat) : State :=
  if n < 32 && (s.barrier n).gen == g then endRunning s p (s.pcOf p) (fun x => { x with wait := .sync n g }) else s

/-- SYNC.ARM: an arm event to slice `i` of logical Scribe `l`. -/
def syncArm (s : State) (p l i : Nat) : State :=
  if decide (l < 16) && decide (i < 32) && (s.cap p 6 || (s.agent p == l)) then
    match s.physOf l with
    | some q => sliceEvent s q i
    | none => s
  else s

/-! ### Commands -/

/-- RING_PUSH. -/
def execRingPush (p rd rs1 rs2 : Nat) (s : State) : Host.Outcome State Fault Refusal :=
  copyOp 0x20 1 p rd rs1 rs2 rs2 (fun s => ringPush s p (s.gnum p rs1) (s.gnum p rs2)) s
/-- RING_POP. -/
def execRingPop (p rd rs1 rs2 : Nat) (s : State) : Host.Outcome State Fault Refusal :=
  devOp p rd (fun s => ringPop s p (s.gnum p rs1) (s.gnum p rs2)) s
/-- RING_DONE: rd is a source. -/
def execRingDone (p rd rs1 rs2 : Nat) (s : State) : Host.Outcome State Fault Refusal :=
  s.folioIf p (wordX 0x20 rd rs1 rs2 3 0) (copyBad p (s.gnum p rs2) 32) (fun s => ringDone s p (s.gnum p rd) (s.gnum p rs1) (s.gnum p rs2))
/-- RING_STAT. -/
def execRingStat (p rd rs1 : Nat) (s : State) : Host.Outcome State Fault Refusal :=
  devOp p rd (fun s => (s, ringStat s (s.gnum p rs1))) s
/-- LEDGER_SNAP. -/
def execLedgerSnap (p rd : Nat) (s : State) : Host.Outcome State Fault Refusal := devOp p rd (fun s => ledSnap s p) s
/-- LEDGER_SEQ. -/
def execLedgerSeq (p rd : Nat) (s : State) : Host.Outcome State Fault Refusal := devOp p rd (fun s => (s, ledSeq s)) s
/-- LEDGER_READ. -/
def execLedgerRead (p rd rs1 : Nat) (s : State) : Host.Outcome State Fault Refusal :=
  devOp p rd (fun s => (s, ledRead s (s.gnum p rs1))) s
/-- LEDGER_LINE. -/
def execLedgerLine (p rd : Nat) (s : State) : Host.Outcome State Fault Refusal := devOp p rd (fun s => (s, ledLine s)) s
/-- TIME_NOW. -/
def execTimeNow (p rd : Nat) (s : State) : Host.Outcome State Fault Refusal := devOp p rd (fun s => (s, s.devNs)) s
/-- TIME_WAIT. -/
def execTimeWait (p rs1 : Nat) (s : State) : Host.Outcome State Fault Refusal := s.folio p (fun s => timeWait s p (s.gnum p rs1))
/-- TIME_CAP. -/
def execTimeCap (p rd rs1 : Nat) (s : State) : Host.Outcome State Fault Refusal :=
  devOp p rd (fun s => (s, timeCap s (s.gnum p rs1))) s
/-- TIME_CAPN. -/
def execTimeCapn (p rd rs1 : Nat) (s : State) : Host.Outcome State Fault Refusal :=
  devOp p rd (fun s => (s, timeCapn s (s.gnum p rs1))) s
/-- TIME_ARM. -/
def execTimeArm (p rd rs1 rs2 : Nat) (s : State) : Host.Outcome State Fault Refusal :=
  devOp p rd (fun s => timeArm s p (s.gnum p rs1) (s.gnum p rs2)) s
/-- CAT_INV. -/
def execCatInv (p rs1 : Nat) (s : State) : Host.Outcome State Fault Refusal := s.folio p (fun s => catInv s p (s.gnum p rs1))
/-- CAT_GEN. -/
def execCatGen (p rd rs1 : Nat) (s : State) : Host.Outcome State Fault Refusal :=
  devOp p rd (fun s => (s, if s.gnum p rs1 < 4096 then catGen s (s.gnum p rs1) else 0)) s
/-- CAT_ADDR. -/
def execCatAddr (p rd rs1 : Nat) (s : State) : Host.Outcome State Fault Refusal :=
  devOp p rd (fun s => (s, if s.gnum p rs1 < 4096 then entryAddr s (s.gnum p rs1) else 0)) s
/-- CAT_WIN. -/
def execCatWin (p rd k : Nat) (s : State) : Host.Outcome State Fault Refusal := devOp p rd (fun s => (s, catWin s p (k % 64))) s
/-- CAT_WSIZE. -/
def execCatWsize (p rd k : Nat) (s : State) : Host.Outcome State Fault Refusal := devOp p rd (fun s => (s, catWsize s p (k % 64))) s
/-- LINE_PAGE. -/
def execLinePage (p rd rs1 rs2 : Nat) (s : State) : Host.Outcome State Fault Refusal :=
  devOp p rd (fun s => linePageOp s p (s.gnum p rs1) (s.gnum p rs2)) s
/-- LINE_STAT. -/
def execLineStat (p rd k : Nat) (s : State) : Host.Outcome State Fault Refusal := devOp p rd (fun s => (s, lineStat s (k % 64))) s
/-- SUBST_SET. -/
def execSubstSet (p rd rs1 rs2 : Nat) (s : State) : Host.Outcome State Fault Refusal :=
  devOp p rd (fun s => substSetOp s p (s.gnum p rs1) (s.gnum p rs2)) s
/-- SUBST_CLR. -/
def execSubstClr (p rd rs1 rs2 : Nat) (s : State) : Host.Outcome State Fault Refusal :=
  devOp p rd (fun s => substClrOp s p (s.gnum p rs1) (s.gnum p rs2)) s
/-- SUBST_GET. -/
def execSubstGet (p rd rs1 k : Nat) (s : State) : Host.Outcome State Fault Refusal :=
  devOp p rd (fun s => (s, substGet s (s.gnum p rs1) k)) s
/-- STAT_SEG. -/
def execStatSeg (p rd rs1 rs2 : Nat) (s : State) : Host.Outcome State Fault Refusal :=
  devOp p rd (fun s => statSeg s p (s.gnum p rs1) (s.gnum p rs2)) s
/-- STAT_VCOL. -/
def execStatVcol (p vd rs1 rs2 : Nat) (s : State) : Host.Outcome State Fault Refusal :=
  s.folioIf p (wordX 0x26 vd rs1 rs2 2 0) (illegalIf (vBad vd)) (fun s =>
    s.vset p vd (vmake (fun i => BitVec.ofNat 16 (statVcol s p (s.gnum p rs1) (s.gnum p rs2) i))))
/-- STAT_COLFRAME. -/
def execStatColframe (p rd rs1 : Nat) (s : State) : Host.Outcome State Fault Refusal :=
  devOp p rd (fun s => (s, statColframe s p (s.gnum p rs1))) s
/-- STAT_EXPO. -/
def execStatExpo (p rd rs1 rs2 : Nat) (s : State) : Host.Outcome State Fault Refusal :=
  copyOp 0x26 4 p rd rs1 rs2 rs2 (fun s => statExpo s p (s.gnum p rs1) (s.gnum p rs2)) s
/-- STAT_FRAME. -/
def execStatFrame (p rd rs1 : Nat) (s : State) : Host.Outcome State Fault Refusal :=
  devOp p rd (fun s => (s, statFrame s p (s.gnum p rs1))) s
/-- SYNC_INIT. -/
def execSyncInit (p rs1 rs2 : Nat) (s : State) : Host.Outcome State Fault Refusal :=
  s.folio p (fun s => syncInit s p (s.gnum p rs1) (s.gnum p rs2))
/-- SYNC_ARRIVE. -/
def execSyncArrive (p rd rs1 : Nat) (s : State) : Host.Outcome State Fault Refusal :=
  devOp p rd (fun s => syncArrive s (s.gnum p rs1)) s
/-- SYNC_WAIT. -/
def execSyncWait (p rs1 rs2 : Nat) (s : State) : Host.Outcome State Fault Refusal :=
  s.folio p (fun s => syncWait s p (s.gnum p rs1) (s.gnum p rs2))
/-- SYNC_ARM. -/
def execSyncArm (p rs1 rs2 : Nat) (s : State) : Host.Outcome State Fault Refusal :=
  s.folio p (fun s => syncArm s p (s.gnum p rs1) (s.gnum p rs2))

end Sys2Proof.Machine
end

