-- ==== Sys2Proof/Machine/Sys.lean ====
section
/-! DEFINITION. SYS instructions: the end of a run, special registers, slices, and what only the Registrar does (R78, R105, R115, R118,
R121, R123, Tables 3-7 and 3-8). -/

namespace Sys2Proof.Machine

/-- CSR_CYCLE: core cycles since the engine started. -/
def coreCycles (s : State) (p : Nat) : Nat := cyclesNow s p / 10

/-- The window a number of Table 3-8 names, and whether it names the size register. -/
def csrWindow (c : Nat) : Option (Nat × Bool) := if 0x10 ≤ c ∧ c < 0x1E then some ((c - 0x10) / 2 + 1, c % 2 == 1) else none

/-- A special register as engine `p` reads it (R105); what is not listed reads 0. On a Scribe that serves no logical one the field
`logical` of CSR_IDENT reads as SCRIBE_INFO's last did, and at the Registrar both Scribe fields read 0 (DESIGN CHOICE, log 123). -/
def csrRead (s : State) (p c : Nat) : Nat :=
  let e := s.eng p
  if c = 0 then if p = registrar then 2 ^ 16 else p + 2 ^ 8 * (s.agent p % 16)
  else if c = 1 then e.running.getD 0
  else if c = 2 then coreCycles s p
  else if c = 3 then s.devAt e.readyAt / nsU
  else if c = 4 then s.devAt e.runAt / nsU
  else if p ≠ registrar then 0
  else match csrWindow c with
    | some (w, true) => Tbl.get 0 e.wins w
    | some (w, false) => Tbl.get 0 e.winb w
    | none => 0

/-- A special register as the Registrar writes it. -/
def csrWrite (s : State) (p c v : Nat) : State :=
  if p ≠ registrar then s
  else
    let e := s.eng p
    match csrWindow c with
    | some (w, true) => s.setEng p { e with wins := e.wins.put w (low 11 v) }
    | some (w, false) => s.setEng p { e with winb := e.winb.put w v }
    | none => s

/-- SYS.ARM: a level trigger whose condition holds makes the slice runnable. -/
def sliceArm (s : State) (p i : Nat) : State :=
  if 32 ≤ i then s
  else
    let s := s.sliceEnable p i true
    let x := s.slice p i
    if s.sliceTrig p i == 1 && ringLevel s p (s.sliceArg p i) && !stillRunnable s p i x && x.wait == .none && (s.eng p).running != some i then
      dispatch (s.setSlice p i { x with since := some s.clk, level := true }) p
    else s

/-- SYS.DISARM: a slice that is not running is no longer runnable. -/
def sliceDisarm (s : State) (p i : Nat) : State :=
  if 32 ≤ i then s
  else (s.sliceEnable p i false).setSlice p i { s.slice p i with since := none, level := false, again := false }

/-- SYS.TRAP: an event code for the Registrar; from the test slice, a code other than 0 reports that the test failed. -/
def sysTrap (s : State) (p k : Nat) : State :=
  let i := (s.eng p).running.getD 0
  let s := { s with traps := s.traps ++ [(p, i, k)] }
  if i = 31 ∧ k ≠ 0 ∧ p < 16 then scribeRetire { s with pair := { s.pair with testBad := some s.clk } } p 3 else s

/-- SYS.HALT. -/
def sysHalt (s : State) (p q : Nat) : State :=
  if p = registrar ∧ q < 16 then s.setEng q { s.eng q with halted := true } else s

/-! ### Commands -/

/-- SYS_YIELD: the slice is runnable again at once, its urgency from 0. -/
def execSysYield (p : Nat) (s : State) : Host.Outcome State Fault Refusal :=
  s.folio p (fun s => endRunning s p (s.pcOf p) (fun x => { x with since := some s.clk, level := false, urgency := 0 }))
/-- SYS_END: the next run starts at the slice's entry. -/
def execSysEnd (p : Nat) (s : State) : Host.Outcome State Fault Refusal :=
  s.folio p (fun s => endRunning s p (s.sliceEntry p ((s.eng p).running.getD 0)) (fun x => x))
/-- SYS_FENCE: accesses of a command reach memory within it. -/
def execSysFence (p : Nat) (s : State) : Host.Outcome State Fault Refusal := s.folio p (fun s => s)
/-- SYS_CSRR. -/
def execSysCsrr (p rd c : Nat) (s : State) : Host.Outcome State Fault Refusal := devOp p rd (fun s => (s, csrRead s p (c % 2048))) s
/-- SYS_CSRW. -/
def execSysCsrw (p rs1 c : Nat) (s : State) : Host.Outcome State Fault Refusal :=
  s.folio p (fun s => csrWrite s p (c % 2048) (s.gnum p rs1))
/-- SYS_ARM. -/
def execSysArm (p rs1 : Nat) (s : State) : Host.Outcome State Fault Refusal := s.folio p (fun s => sliceArm s p (s.gnum p rs1))
/-- SYS_DISARM. -/
def execSysDisarm (p rs1 : Nat) (s : State) : Host.Outcome State Fault Refusal := s.folio p (fun s => sliceDisarm s p (s.gnum p rs1))
/-- SYS_TRAP. -/
def execSysTrap (p k : Nat) (s : State) : Host.Outcome State Fault Refusal := s.folio p (fun s => sysTrap s p (k % 64))
/-- SYS_START. -/
def execSysStart (p rs1 rs2 : Nat) (s : State) : Host.Outcome State Fault Refusal :=
  s.folio p (fun s => if p = registrar then scribeLaunch s (s.gnum p rs1) (s.gnum p rs2) else s)
/-- SYS_HALT. -/
def execSysHalt (p rs1 : Nat) (s : State) : Host.Outcome State Fault Refusal := s.folio p (fun s => sysHalt s p (s.gnum p rs1))

end Sys2Proof.Machine
end

