-- ==== Sys2Proof/Machine/Dispatch.lean ====
section
/-! DEFINITION. One arm per command: the meaning each command has. -/

namespace Sys2Proof.Machine

def exec (i : Instr) (s : State) : Host.Outcome State Fault Refusal :=
  match i with
  | .registerWrite t src addr size value => Sys2Proof.Machine.execRegisterWrite t src addr size value s
  | .rcRegisterRead t src addr size => Sys2Proof.Machine.execRcRegisterRead t src addr size s
  | .catInvalidate t channel => Sys2Proof.Machine.execCatInvalidate t channel s
  | .catInvalidateAll t => Sys2Proof.Machine.execCatInvalidateAll t s
  | .catalogFetchComplete t channel => Sys2Proof.Machine.execCatalogFetchComplete t channel s
  | .catLock t => Sys2Proof.Machine.execCatLock t s
  | .ledgerSnapWrite t => Sys2Proof.Machine.execLedgerSnapWrite t s
  | .ledgerSnapComplete t => Sys2Proof.Machine.execLedgerSnapComplete t s
  | .ringProducerWrite t ring index => Sys2Proof.Machine.execRingProducerWrite t ring index s
  | .ringConsumerWrite t ring index => Sys2Proof.Machine.execRingConsumerWrite t ring index s
  | .irqHoldoffExpiry t ring => Sys2Proof.Machine.execIrqHoldoffExpiry t ring s
  | .powerReqWrite t req => Sys2Proof.Machine.execPowerReqWrite t req s
  | .powerStateReached t => Sys2Proof.Machine.execPowerStateReached t s
  | .epochSchedule t target system => Sys2Proof.Machine.execEpochSchedule t target system s
  | .epochCancel t => Sys2Proof.Machine.execEpochCancel t s
  | .epochInstant t => Sys2Proof.Machine.execEpochInstant t s
  | .epochTimeout t => Sys2Proof.Machine.execEpochTimeout t s
  | .rollbackEpoch t => Sys2Proof.Machine.execRollbackEpoch t s
  | .add p rd rs1 rs2 => Sys2Proof.Machine.execAdd p rd rs1 rs2 s
  | .sub p rd rs1 rs2 => Sys2Proof.Machine.execSub p rd rs1 rs2 s
  | .andR p rd rs1 rs2 => Sys2Proof.Machine.execAndR p rd rs1 rs2 s
  | .orR p rd rs1 rs2 => Sys2Proof.Machine.execOrR p rd rs1 rs2 s
  | .xorR p rd rs1 rs2 => Sys2Proof.Machine.execXorR p rd rs1 rs2 s
  | .sll p rd rs1 rs2 => Sys2Proof.Machine.execSll p rd rs1 rs2 s
  | .srl p rd rs1 rs2 => Sys2Proof.Machine.execSrl p rd rs1 rs2 s
  | .sra p rd rs1 rs2 => Sys2Proof.Machine.execSra p rd rs1 rs2 s
  | .slt p rd rs1 rs2 => Sys2Proof.Machine.execSlt p rd rs1 rs2 s
  | .sltu p rd rs1 rs2 => Sys2Proof.Machine.execSltu p rd rs1 rs2 s
  | .mul p rd rs1 rs2 => Sys2Proof.Machine.execMul p rd rs1 rs2 s
  | .mulh p rd rs1 rs2 => Sys2Proof.Machine.execMulh p rd rs1 rs2 s
  | .mulhu p rd rs1 rs2 => Sys2Proof.Machine.execMulhu p rd rs1 rs2 s
  | .divu p rd rs1 rs2 => Sys2Proof.Machine.execDivu p rd rs1 rs2 s
  | .remu p rd rs1 rs2 => Sys2Proof.Machine.execRemu p rd rs1 rs2 s
  | .minS p rd rs1 rs2 => Sys2Proof.Machine.execMinS p rd rs1 rs2 s
  | .maxS p rd rs1 rs2 => Sys2Proof.Machine.execMaxS p rd rs1 rs2 s
  | .minu p rd rs1 rs2 => Sys2Proof.Machine.execMinu p rd rs1 rs2 s
  | .maxu p rd rs1 rs2 => Sys2Proof.Machine.execMaxu p rd rs1 rs2 s
  | .clz p rd rs1 => Sys2Proof.Machine.execClz p rd rs1 s
  | .popc p rd rs1 => Sys2Proof.Machine.execPopc p rd rs1 s
  | .bfx p rd rs1 rs2 k => Sys2Proof.Machine.execBfx p rd rs1 rs2 k s
  | .addi p rd rs1 imm => Sys2Proof.Machine.execAddi p rd rs1 imm s
  | .andi p rd rs1 imm => Sys2Proof.Machine.execAndi p rd rs1 imm s
  | .ori p rd rs1 imm => Sys2Proof.Machine.execOri p rd rs1 imm s
  | .xori p rd rs1 imm => Sys2Proof.Machine.execXori p rd rs1 imm s
  | .lui p rd imm => Sys2Proof.Machine.execLui p rd imm s
  | .slti p rd rs1 imm => Sys2Proof.Machine.execSlti p rd rs1 imm s
  | .shi p rd rs1 imm => Sys2Proof.Machine.execShi p rd rs1 imm s
  | .lb p rt base win imm => Sys2Proof.Machine.execLb p rt base win imm s
  | .lh p rt base win imm => Sys2Proof.Machine.execLh p rt base win imm s
  | .lw p rt base win imm => Sys2Proof.Machine.execLw p rt base win imm s
  | .ld p rt base win imm => Sys2Proof.Machine.execLd p rt base win imm s
  | .lbu p rt base win imm => Sys2Proof.Machine.execLbu p rt base win imm s
  | .lhu p rt base win imm => Sys2Proof.Machine.execLhu p rt base win imm s
  | .lwu p rt base win imm => Sys2Proof.Machine.execLwu p rt base win imm s
  | .sb p rt base win imm => Sys2Proof.Machine.execSb p rt base win imm s
  | .sh p rt base win imm => Sys2Proof.Machine.execSh p rt base win imm s
  | .sw p rt base win imm => Sys2Proof.Machine.execSw p rt base win imm s
  | .sd p rt base win imm => Sys2Proof.Machine.execSd p rt base win imm s
  | .amo p rt base win rs2 fn => Sys2Proof.Machine.execAmo p rt base win rs2 fn s
  | .beq p rs1 rs2 off => Sys2Proof.Machine.execBeq p rs1 rs2 off s
  | .bne p rs1 rs2 off => Sys2Proof.Machine.execBne p rs1 rs2 off s
  | .blt p rs1 rs2 off => Sys2Proof.Machine.execBlt p rs1 rs2 off s
  | .bge p rs1 rs2 off => Sys2Proof.Machine.execBge p rs1 rs2 off s
  | .bltu p rs1 rs2 off => Sys2Proof.Machine.execBltu p rs1 rs2 off s
  | .bgeu p rs1 rs2 off => Sys2Proof.Machine.execBgeu p rs1 rs2 off s
  | .jal p off => Sys2Proof.Machine.execJal p off s
  | .jalr p rd rs1 imm => Sys2Proof.Machine.execJalr p rd rs1 imm s
  | .ringPush p rd rs1 rs2 => Sys2Proof.Machine.execRingPush p rd rs1 rs2 s
  | .ringPop p rd rs1 rs2 => Sys2Proof.Machine.execRingPop p rd rs1 rs2 s
  | .ringDone p rd rs1 rs2 => Sys2Proof.Machine.execRingDone p rd rs1 rs2 s
  | .ringStat p rd rs1 => Sys2Proof.Machine.execRingStat p rd rs1 s
  | .ledgerSnap p rd => Sys2Proof.Machine.execLedgerSnap p rd s
  | .ledgerSeq p rd => Sys2Proof.Machine.execLedgerSeq p rd s
  | .ledgerRead p rd rs1 => Sys2Proof.Machine.execLedgerRead p rd rs1 s
  | .ledgerLine p rd => Sys2Proof.Machine.execLedgerLine p rd s
  | .timeNow p rd => Sys2Proof.Machine.execTimeNow p rd s
  | .timeWait p rs1 => Sys2Proof.Machine.execTimeWait p rs1 s
  | .timeWaitExpiry t p slice => Sys2Proof.Machine.execTimeWaitExpiry t p slice s
  | .timeCap p rd rs1 => Sys2Proof.Machine.execTimeCap p rd rs1 s
  | .timeCapn p rd rs1 => Sys2Proof.Machine.execTimeCapn p rd rs1 s
  | .timeArm p rd rs1 rs2 => Sys2Proof.Machine.execTimeArm p rd rs1 rs2 s
  | .catInv p rs1 => Sys2Proof.Machine.execCatInv p rs1 s
  | .catGen p rd rs1 => Sys2Proof.Machine.execCatGen p rd rs1 s
  | .catAddr p rd rs1 => Sys2Proof.Machine.execCatAddr p rd rs1 s
  | .catWin p rd k => Sys2Proof.Machine.execCatWin p rd k s
  | .catWsize p rd k => Sys2Proof.Machine.execCatWsize p rd k s
  | .linePage p rd rs1 rs2 => Sys2Proof.Machine.execLinePage p rd rs1 rs2 s
  | .lineStat p rd k => Sys2Proof.Machine.execLineStat p rd k s
  | .substSet p rd rs1 rs2 => Sys2Proof.Machine.execSubstSet p rd rs1 rs2 s
  | .substClr p rd rs1 rs2 => Sys2Proof.Machine.execSubstClr p rd rs1 rs2 s
  | .substGet p rd rs1 k => Sys2Proof.Machine.execSubstGet p rd rs1 k s
  | .statSeg p rd rs1 rs2 => Sys2Proof.Machine.execStatSeg p rd rs1 rs2 s
  | .statVcol p vd rs1 rs2 => Sys2Proof.Machine.execStatVcol p vd rs1 rs2 s
  | .statColframe p rd rs1 => Sys2Proof.Machine.execStatColframe p rd rs1 s
  | .statExpo p rd rs1 rs2 => Sys2Proof.Machine.execStatExpo p rd rs1 rs2 s
  | .statFrame p rd rs1 => Sys2Proof.Machine.execStatFrame p rd rs1 s
  | .syncInit p rs1 rs2 => Sys2Proof.Machine.execSyncInit p rs1 rs2 s
  | .syncArrive p rd rs1 => Sys2Proof.Machine.execSyncArrive p rd rs1 s
  | .syncWait p rs1 rs2 => Sys2Proof.Machine.execSyncWait p rs1 rs2 s
  | .syncArm p rs1 rs2 => Sys2Proof.Machine.execSyncArm p rs1 rs2 s
  | .sysYield p => Sys2Proof.Machine.execSysYield p s
  | .sysEnd p => Sys2Proof.Machine.execSysEnd p s
  | .sysFence p => Sys2Proof.Machine.execSysFence p s
  | .sysCsrr p rd c => Sys2Proof.Machine.execSysCsrr p rd c s
  | .sysCsrw p rs1 c => Sys2Proof.Machine.execSysCsrw p rs1 c s
  | .sysArm p rs1 => Sys2Proof.Machine.execSysArm p rs1 s
  | .sysDisarm p rs1 => Sys2Proof.Machine.execSysDisarm p rs1 s
  | .sysTrap p k => Sys2Proof.Machine.execSysTrap p k s
  | .sysStart p rs1 rs2 => Sys2Proof.Machine.execSysStart p rs1 rs2 s
  | .sysHalt p rs1 => Sys2Proof.Machine.execSysHalt p rs1 s
  | .vadd p vd vs1 vs2 => Sys2Proof.Machine.execVadd p vd vs1 vs2 s
  | .vsub p vd vs1 vs2 => Sys2Proof.Machine.execVsub p vd vs1 vs2 s
  | .vadds p vd vs1 vs2 => Sys2Proof.Machine.execVadds p vd vs1 vs2 s
  | .vsubs p vd vs1 vs2 => Sys2Proof.Machine.execVsubs p vd vs1 vs2 s
  | .vaddus p vd vs1 vs2 => Sys2Proof.Machine.execVaddus p vd vs1 vs2 s
  | .vsubus p vd vs1 vs2 => Sys2Proof.Machine.execVsubus p vd vs1 vs2 s
  | .vmul p vd vs1 vs2 => Sys2Proof.Machine.execVmul p vd vs1 vs2 s
  | .vmulh p vd vs1 vs2 => Sys2Proof.Machine.execVmulh p vd vs1 vs2 s
  | .vmulq p vd vs1 vs2 => Sys2Proof.Machine.execVmulq p vd vs1 vs2 s
  | .vmin p vd vs1 vs2 => Sys2Proof.Machine.execVmin p vd vs1 vs2 s
  | .vmax p vd vs1 vs2 => Sys2Proof.Machine.execVmax p vd vs1 vs2 s
  | .vminu p vd vs1 vs2 => Sys2Proof.Machine.execVminu p vd vs1 vs2 s
  | .vmaxu p vd vs1 vs2 => Sys2Proof.Machine.execVmaxu p vd vs1 vs2 s
  | .vabsdu p vd vs1 vs2 => Sys2Proof.Machine.execVabsdu p vd vs1 vs2 s
  | .vand p vd vs1 vs2 => Sys2Proof.Machine.execVand p vd vs1 vs2 s
  | .vor p vd vs1 vs2 => Sys2Proof.Machine.execVor p vd vs1 vs2 s
  | .vxor p vd vs1 vs2 => Sys2Proof.Machine.execVxor p vd vs1 vs2 s
  | .vshl p vd vs1 k => Sys2Proof.Machine.execVshl p vd vs1 k s
  | .vsrl p vd vs1 k => Sys2Proof.Machine.execVsrl p vd vs1 k s
  | .vsra p vd vs1 k => Sys2Proof.Machine.execVsra p vd vs1 k s
  | .vcgt p vd vs1 vs2 => Sys2Proof.Machine.execVcgt p vd vs1 vs2 s
  | .vcgtu p vd vs1 vs2 => Sys2Proof.Machine.execVcgtu p vd vs1 vs2 s
  | .vceq p vd vs1 vs2 => Sys2Proof.Machine.execVceq p vd vs1 vs2 s
  | .vsel p vd vs1 vs2 => Sys2Proof.Machine.execVsel p vd vs1 vs2 s
  | .vema p vd vs1 k => Sys2Proof.Machine.execVema p vd vs1 k s
  | .vsplat p vd rs1 => Sys2Proof.Machine.execVsplat p vd rs1 s
  | .vextu p rd vs1 k => Sys2Proof.Machine.execVextu p rd vs1 k s
  | .vins p vd rs1 k => Sys2Proof.Machine.execVins p vd rs1 k s
  | .vredadd p rd vs1 => Sys2Proof.Machine.execVredadd p rd vs1 s
  | .vany p rd vs1 => Sys2Proof.Machine.execVany p rd vs1 s
  | .vld p vt base win imm => Sys2Proof.Machine.execVld p vt base win imm s
  | .vst p vt base win imm => Sys2Proof.Machine.execVst p vt base win imm s
  | .sliceMaxExceeded t p => Sys2Proof.Machine.execSliceMaxExceeded t p s
  | .sliceUrgencyRise t p => Sys2Proof.Machine.execSliceUrgencyRise t p s
  | .scribeRestart t logical => Sys2Proof.Machine.execScribeRestart t logical s
  | .scribeRestartComplete t logical => Sys2Proof.Machine.execScribeRestartComplete t logical s
  | .scribeSubstituteComplete t phys => Sys2Proof.Machine.execScribeSubstituteComplete t phys s
  | .copyIn t ring => Sys2Proof.Machine.execCopyIn t ring s
  | .copyInComplete t ring => Sys2Proof.Machine.execCopyInComplete t ring s
  | .put32 t ring => Sys2Proof.Machine.execPut32 t ring s
  | .readyBandsPoll t => Sys2Proof.Machine.execReadyBandsPoll t s
  | .lineAccept t => Sys2Proof.Machine.execLineAccept t s
  | .lineDecode t plane row err => Sys2Proof.Machine.execLineDecode t plane row err s
  | .vjobWrite t v => Sys2Proof.Machine.execVjobWrite t v s
  | .rewindDwellExpiry t => Sys2Proof.Machine.execRewindDwellExpiry t s
  | .keepopenTimeout t slot => Sys2Proof.Machine.execKeepopenTimeout t slot s
  | .holdOpenExpiry t => Sys2Proof.Machine.execHoldOpenExpiry t s
  | .startOfScan t slot => Sys2Proof.Machine.execStartOfScan t slot s
  | .referenceStartOfScan t => Sys2Proof.Machine.execReferenceStartOfScan t s
  | .sosMissing t => Sys2Proof.Machine.execSosMissing t s
  | .dataDeadlineExpiry t slot => Sys2Proof.Machine.execDataDeadlineExpiry t slot s
  | .dataFrameSend t slot err => Sys2Proof.Machine.execDataFrameSend t slot err s
  | .credit t lane word => Sys2Proof.Machine.execCredit t lane word s
  | .lineOk t lane word => Sys2Proof.Machine.execLineOk t lane word s
  | .lineNak t lane word => Sys2Proof.Machine.execLineNak t lane word s
  | .relAck t lane word => Sys2Proof.Machine.execRelAck t lane word s
  | .relAckTimeout t slot => Sys2Proof.Machine.execRelAckTimeout t slot s
  | .tempSet t lane word => Sys2Proof.Machine.execTempSet t lane word s
  | .statusSet t lane word => Sys2Proof.Machine.execStatusSet t lane word s
  | .heartbeat t => Sys2Proof.Machine.execHeartbeat t s
  | .tempTimeout t slot => Sys2Proof.Machine.execTempTimeout t slot s
  | .decapLapse t slot => Sys2Proof.Machine.execDecapLapse t slot s
  | .waveCommit t slot => Sys2Proof.Machine.execWaveCommit t slot s
  | .authStart t slot => Sys2Proof.Machine.execAuthStart t slot s
  | .cert t slot msg => Sys2Proof.Machine.execCert t slot msg s
  | .usageNow t slot value seq mac => Sys2Proof.Machine.execUsageNow t slot value seq mac s
  | .usageAdd t slot => Sys2Proof.Machine.execUsageAdd t slot s
  | .authTimeout t slot => Sys2Proof.Machine.execAuthTimeout t slot s
  | .authRetry t slot => Sys2Proof.Machine.execAuthRetry t slot s
  | .authGraceExpiry t slot => Sys2Proof.Machine.execAuthGraceExpiry t slot s
  | .cameraPortTrainComplete t port ok => Sys2Proof.Machine.execCameraPortTrainComplete t port ok s
  | .cameraLinkFail t port lost => Sys2Proof.Machine.execCameraLinkFail t port lost s
  | .csi2Packet t port vc dtype ecc crcOk payload => Sys2Proof.Machine.execCsi2Packet t port vc dtype ecc crcOk payload s
  | .cameraLineReceive t port vc => Sys2Proof.Machine.execCameraLineReceive t port vc s
  | .groupTrigger t grp => Sys2Proof.Machine.execGroupTrigger t grp s
  | .triggerLineLost t pipe => Sys2Proof.Machine.execTriggerLineLost t pipe s
  | .frameEnd t pipe peakOk ests testOk => Sys2Proof.Machine.execFrameEnd t pipe peakOk ests testOk s
  | .groupRunWrite t grp value => Sys2Proof.Machine.execGroupRunWrite t grp value s
  | .accumulatorComplete t plane => Sys2Proof.Machine.execAccumulatorComplete t plane s
  | .expoGo t => Sys2Proof.Machine.execExpoGo t s
  | .expoCommitCheck t pipe value => Sys2Proof.Machine.execExpoCommitCheck t pipe value s
  | .pipelineTestTimer t pipe ok => Sys2Proof.Machine.execPipelineTestTimer t pipe ok s
  | .healthPass t plane => Sys2Proof.Machine.execHealthPass t plane s
  | .nozRetire t nozzle => Sys2Proof.Machine.execNozRetire t nozzle s
  | .nozRestore t nozzle => Sys2Proof.Machine.execNozRestore t nozzle s
  | .nozRestorePlane t plane => Sys2Proof.Machine.execNozRestorePlane t plane s
  | .cuSwapRequest t => Sys2Proof.Machine.execCuSwapRequest t s
  | .densityUpdate t plane => Sys2Proof.Machine.execDensityUpdate t plane s
  | .registrationWindow t grp speed steady => Sys2Proof.Machine.execRegistrationWindow t grp speed steady s
  | .xshiftApply t plane => Sys2Proof.Machine.execXshiftApply t plane s
  | .recalRequest t cls unit => Sys2Proof.Machine.execRecalRequest t cls unit s
  | .recalAgeExpiry t cls unit => Sys2Proof.Machine.execRecalAgeExpiry t cls unit s
  | .recalStart t cls => Sys2Proof.Machine.execRecalStart t cls s
  | .recalComplete t cls unit a b ctle => Sys2Proof.Machine.execRecalComplete t cls unit a b ctle s
  | .converterSwap t input diff => Sys2Proof.Machine.execConverterSwap t input diff s
  | .xrefCheck t ohms => Sys2Proof.Machine.execXrefCheck t ohms s
  | .moveAbs t => Sys2Proof.Machine.execMoveAbs t s
  | .moveRel t => Sys2Proof.Machine.execMoveRel t s
  | .velocity t => Sys2Proof.Machine.execVelocity t s
  | .stop t => Sys2Proof.Machine.execStop t s
  | .home t => Sys2Proof.Machine.execHome t s
  | .enable t => Sys2Proof.Machine.execEnable t s
  | .disable t => Sys2Proof.Machine.execDisable t s
  | .servoPeriod t port => Sys2Proof.Machine.execServoPeriod t port s
  | .driveLinkFrameReceive t port chars => Sys2Proof.Machine.execDriveLinkFrameReceive t port chars s
  | .driveLinkUp t port seen hops => Sys2Proof.Machine.execDriveLinkUp t port seen hops s
  | .holdDelayExpiry t axis => Sys2Proof.Machine.execHoldDelayExpiry t axis s
  | .switchQualify t sw t0 level => Sys2Proof.Machine.execSwitchQualify t sw t0 level s
  | .latchHoldoffExpiry t axis => Sys2Proof.Machine.execLatchHoldoffExpiry t axis s
  | .feedbackPositionUpdate t input x y => Sys2Proof.Machine.execFeedbackPositionUpdate t input x y s
  | .ssiReading t input value idle => Sys2Proof.Machine.execSsiReading t input value idle s
  | .indexEdge t input => Sys2Proof.Machine.execIndexEdge t input s
  | .speedZeroTimeout t input => Sys2Proof.Machine.execSpeedZeroTimeout t input s
  | .emulatorEdge t emu => Sys2Proof.Machine.execEmulatorEdge t emu s
  | .timeNowLatch t reader => Sys2Proof.Machine.execTimeNowLatch t reader s
  | .timeCapLatch t reader => Sys2Proof.Machine.execTimeCapLatch t reader s
  | .ptpAnnounceReceive t port domain prio1 cls acc variance prio2 gm steps => Sys2Proof.Machine.execPtpAnnounceReceive t port domain prio1 cls acc variance prio2 gm steps s
  | .ptpSyncReceive t port domain origin corr => Sys2Proof.Machine.execPtpSyncReceive t port domain origin corr s
  | .ptpDelayRespReceive t port seq rx corr => Sys2Proof.Machine.execPtpDelayRespReceive t port seq rx corr s
  | .ptpDelayReqSend t => Sys2Proof.Machine.execPtpDelayReqSend t s
  | .ptpMasterSend t kind => Sys2Proof.Machine.execPtpMasterSend t kind s
  | .ptpTransparentForward t te port kind seq origin corr => Sys2Proof.Machine.execPtpTransparentForward t te port kind seq origin corr s
  | .announceTimeout t => Sys2Proof.Machine.execAnnounceTimeout t s
  | .traceHoldExpiry t => Sys2Proof.Machine.execTraceHoldExpiry t s
  | .ppsOutEdge t => Sys2Proof.Machine.execPpsOutEdge t s
  | .ppsInEdge t => Sys2Proof.Machine.execPpsInEdge t s
  | .timeSet t => Sys2Proof.Machine.execTimeSet t s
  | .timeSetAtPps t => Sys2Proof.Machine.execTimeSetAtPps t s
  | .timeTriggerFire t trig => Sys2Proof.Machine.execTimeTriggerFire t trig s
  | .neighborSend t port => Sys2Proof.Machine.execNeighborSend t port s
  | .neighborReceive t port node learned => Sys2Proof.Machine.execNeighborReceive t port node learned s
  | .neighborMiss t port => Sys2Proof.Machine.execNeighborMiss t port s
  | .nodeLearnTimeout t => Sys2Proof.Machine.execNodeLearnTimeout t s
  | .ringFrameReceive t port bytes => Sys2Proof.Machine.execRingFrameReceive t port bytes s
  | .ringLinkLoss t port => Sys2Proof.Machine.execRingLinkLoss t port s
  | .stacksRequest t port source addr len write data => Sys2Proof.Machine.execStacksRequest t port source addr len write data s
  | .stacksUrgencyRise t => Sys2Proof.Machine.execStacksUrgencyRise t s
  | .stacksRequestServed t pc ecc => Sys2Proof.Machine.execStacksRequestServed t pc ecc s
  | .bankRefresh t pc bank => Sys2Proof.Machine.execBankRefresh t pc bank s
  | .stackTempRead t stack value => Sys2Proof.Machine.execStackTempRead t stack value s
  | .hbmParityError t kind port source addr named => Sys2Proof.Machine.execHbmParityError t kind port source addr named s
  | .hbmReadTimeout t port source addr => Sys2Proof.Machine.execHbmReadTimeout t port source addr s
  | .scrubRead t ecc => Sys2Proof.Machine.execScrubRead t ecc s
  | .rowRepair t => Sys2Proof.Machine.execRowRepair t s
  | .repairRecordWrite t => Sys2Proof.Machine.execRepairRecordWrite t s
  | .retrainWindow t pc rd wr => Sys2Proof.Machine.execRetrainWindow t pc rd wr s
  | .freezeEntry t cause port source addr => Sys2Proof.Machine.execFreezeEntry t cause port source addr s
  | .freezeWithholdExpiry t => Sys2Proof.Machine.execFreezeWithholdExpiry t s
  | .rrRotation t => Sys2Proof.Machine.execRrRotation t s
  | .rrBankTestComplete t ok => Sys2Proof.Machine.execRrBankTestComplete t ok s
  | .binderyCompress t unit => Sys2Proof.Machine.execBinderyCompress t unit s
  | .binderyDecompress t unit => Sys2Proof.Machine.execBinderyDecompress t unit s
  | .binderyBlockWrite t unit coded nbits storedOk => Sys2Proof.Machine.execBinderyBlockWrite t unit coded nbits storedOk s
  | .binderyJobComplete t unit => Sys2Proof.Machine.execBinderyJobComplete t unit s
  | .laneBringupStart t lane => Sys2Proof.Machine.execLaneBringupStart t lane s
  | .laneReady t lane ctle pad taps => Sys2Proof.Machine.execLaneReady t lane ctle pad taps s
  | .blockLockLoss t lane => Sys2Proof.Machine.execBlockLockLoss t lane s
  | .laneSwitchShiftComplete t => Sys2Proof.Machine.execLaneSwitchShiftComplete t s
  | .laneMove t lane => Sys2Proof.Machine.execLaneMove t lane s
  | .laneRetire t lane => Sys2Proof.Machine.execLaneRetire t lane s
  | .laneRestore t lane => Sys2Proof.Machine.execLaneRestore t lane s
  | .laneSwitchVerifyTimeout t => Sys2Proof.Machine.execLaneSwitchVerifyTimeout t s
  | .prbsInjectOnce t lane => Sys2Proof.Machine.execPrbsInjectOnce t lane s
  | .prbsInjectPeriodic t lane => Sys2Proof.Machine.execPrbsInjectPeriodic t lane s
  | .eyeMeasurement t lane w h => Sys2Proof.Machine.execEyeMeasurement t lane w h s
  | .reloadEnd t => Sys2Proof.Machine.execReloadEnd t s
  | .secondaryWaitExpiry t => Sys2Proof.Machine.execSecondaryWaitExpiry t s
  | .twinHb t lane word alike => Sys2Proof.Machine.execTwinHb t lane word alike s
  | .twinHbSend t => Sys2Proof.Machine.execTwinHbSend t s
  | .twinCredit t lane word => Sys2Proof.Machine.execTwinCredit t lane word s
  | .twinAck t lane word => Sys2Proof.Machine.execTwinAck t lane word s
  | .twinNak t lane word => Sys2Proof.Machine.execTwinNak t lane word s
  | .twinFail t lane word => Sys2Proof.Machine.execTwinFail t lane word s
  | .twinHbTimeout t => Sys2Proof.Machine.execTwinHbTimeout t s
  | .twinRecordReceive t lane seq good rec => Sys2Proof.Machine.execTwinRecordReceive t lane seq good rec s
  | .stacksWrite t addr data => Sys2Proof.Machine.execStacksWrite t addr data s
  | .pageRec t addr first hasW0 w0 => Sys2Proof.Machine.execPageRec t addr first hasW0 w0 s
  | .substRec t isSet nozzle spare line => Sys2Proof.Machine.execSubstRec t isSet nozzle spare line s
  | .bankRec t plane bank offset trims => Sys2Proof.Machine.execBankRec t plane bank offset trims s
  | .entryRec t entry since => Sys2Proof.Machine.execEntryRec t entry since s
  | .setpointRec t port period slots => Sys2Proof.Machine.execSetpointRec t port period slots s
  | .modeRec t mode cause line stop step => Sys2Proof.Machine.execModeRec t mode cause line stop step s
  | .healthRec t body => Sys2Proof.Machine.execHealthRec t body s
  | .handoverRec t instant tags credits => Sys2Proof.Machine.execHandoverRec t instant tags credits s
  | .syncMark t kind => Sys2Proof.Machine.execSyncMark t kind s
  | .healthSend t => Sys2Proof.Machine.execHealthSend t s
  | .resyncComplete t equal reach => Sys2Proof.Machine.execResyncComplete t equal reach s
  | .shadowLineTimeout t slot => Sys2Proof.Machine.execShadowLineTimeout t slot s
  | .switchover t => Sys2Proof.Machine.execSwitchover t s
  | .handoverReport t => Sys2Proof.Machine.execHandoverReport t s
  | .pairYieldPage t => Sys2Proof.Machine.execPairYieldPage t s
  | .pairYieldNow t => Sys2Proof.Machine.execPairYieldNow t s
  | .pairResync t => Sys2Proof.Machine.execPairResync t s
  | .handoverSend t => Sys2Proof.Machine.execHandoverSend t s
  | .handoverInstant t => Sys2Proof.Machine.execHandoverInstant t s
  | .handoverTake t => Sys2Proof.Machine.execHandoverTake t s
  | .wtrExpiry t => Sys2Proof.Machine.execWtrExpiry t s
  | .sensorConversion t sensor raw => Sys2Proof.Machine.execSensorConversion t sensor raw s
  | .sensorConversionTimeout t sensor => Sys2Proof.Machine.execSensorConversionTimeout t sensor s
  | .thermalSweep t raws => Sys2Proof.Machine.execThermalSweep t raws s
  | .hardwareTrip t src => Sys2Proof.Machine.execHardwareTrip t src s
  | .sensorRestore t sensor => Sys2Proof.Machine.execSensorRestore t sensor s
  | .flashOkRestore t => Sys2Proof.Machine.execFlashOkRestore t s
  | .limLock t => Sys2Proof.Machine.execLimLock t s
  | .tlimLock t => Sys2Proof.Machine.execTlimLock t s
  | .cfgLock t => Sys2Proof.Machine.execCfgLock t s
  | .coldStart t => Sys2Proof.Machine.execColdStart t s
  | .rstNAssert t => Sys2Proof.Machine.execRstNAssert t s
  | .lxReset t key => Sys2Proof.Machine.execLxReset t key s
  | .pePerstAssert t => Sys2Proof.Machine.execPePerstAssert t s
  | .watchdogExpiry t => Sys2Proof.Machine.execWatchdogExpiry t s
  | .warmResetAckWaitExpiry t => Sys2Proof.Machine.execWarmResetAckWaitExpiry t s
  | .setSave t => Sys2Proof.Machine.execSetSave t s
  | .setWrite t => Sys2Proof.Machine.execSetWrite t s
  | .setClear t => Sys2Proof.Machine.execSetClear t s
  | .settingsWriteComplete t => Sys2Proof.Machine.execSettingsWriteComplete t s
  | .updLoad t => Sys2Proof.Machine.execUpdLoad t s
  | .updArm t => Sys2Proof.Machine.execUpdArm t s
  | .updDisarm t => Sys2Proof.Machine.execUpdDisarm t s
  | .updConfirm t => Sys2Proof.Machine.execUpdConfirm t s
  | .updForward t ports => Sys2Proof.Machine.execUpdForward t ports s
  | .updAbort t => Sys2Proof.Machine.execUpdAbort t s
  | .armComplete t => Sys2Proof.Machine.execArmComplete t s
  | .imgOffer t port id header => Sys2Proof.Machine.execImgOffer t port id header s
  | .imgData t port id block seg data => Sys2Proof.Machine.execImgData t port id block seg data s
  | .imgAck t port id code err block missing => Sys2Proof.Machine.execImgAck t port id code err block missing s
  | .imgAckTimeout t port => Sys2Proof.Machine.execImgAckTimeout t port s
  | .imageVerifyComplete t => Sys2Proof.Machine.execImageVerifyComplete t s
  | .stagingWriteComplete t same => Sys2Proof.Machine.execStagingWriteComplete t same s
  | .levels t port ring version => Sys2Proof.Machine.execLevels t port ring version s
  | .levelsSend t port => Sys2Proof.Machine.execLevelsSend t port s
  | .twinLevel t lane word => Sys2Proof.Machine.execTwinLevel t lane word s
  | .twinLevelSend t => Sys2Proof.Machine.execTwinLevelSend t s
  | .imageConfirm t => Sys2Proof.Machine.execImageConfirm t s
  | .confirmWindowExpiry t => Sys2Proof.Machine.execConfirmWindowExpiry t s
  | .gpRunStart t value => Sys2Proof.Machine.execGpRunStart t value s
  | .gpRunStop t value => Sys2Proof.Machine.execGpRunStop t value s
  | .gpDmaGo t => Sys2Proof.Machine.execGpDmaGo t s
  | .gpIntStatRead t => Sys2Proof.Machine.execGpIntStatRead t s
  | .gpUnlock t key => Sys2Proof.Machine.execGpUnlock t key s
  | .supplyExcursion t rail mv => Sys2Proof.Machine.execSupplyExcursion t rail mv s
  | .supplyOutOfRange t rail => Sys2Proof.Machine.execSupplyOutOfRange t rail s
  | .illegalInstruction p word => Sys2Proof.Machine.execIllegalInstruction p word s
  | .ringLinkUp t port => Sys2Proof.Machine.execRingLinkUp t port s
  | .ptpDelayReqReceive t port seq corr => Sys2Proof.Machine.execPtpDelayReqReceive t port seq corr s
  | .laneMoveReleaseWaitExpiry t => Sys2Proof.Machine.execLaneMoveReleaseWaitExpiry t s
  | .twinAckSend t => Sys2Proof.Machine.execTwinAckSend t s
  | .activeHeartbeatWaitExpiry t => Sys2Proof.Machine.execActiveHeartbeatWaitExpiry t s
  | .catalogWindowWrite t addr value => Sys2Proof.Machine.execCatalogWindowWrite t addr value s
  | .prbsErrorLimit t lane errors => Sys2Proof.Machine.execPrbsErrorLimit t lane errors s
  | .prbsCheckerSync t lane => Sys2Proof.Machine.execPrbsCheckerSync t lane s
  | .imgDataSend t port => Sys2Proof.Machine.execImgDataSend t port s

end Sys2Proof.Machine
end

