-- ==== Sys2Proof/Safety.lean ====
section
/-! DEFINITION. What a sound state is, what every command keeps, which engine a command names, and when a Folio instruction runs on. -/

namespace Sys2Proof

open Machine

/-- A sound state: memory and the tables of registers, engines and rings are in their one canonical form, so that equal contents are equal data. -/
structure Sound (s : State) : Prop where
  mem : Mem.wf s.mem = true
  regs : Tbl.sorted s.regs = true
  engines : Tbl.sorted s.engines = true
  rings : Tbl.sorted s.rings = true

/-- What every command keeps: the queue of commands is not its business, the clock and the count of free values spent do not run back,
what the device has sent stays sent, and a sound state stays sound. -/
structure Keeps (s t : State) : Prop where
  pending : t.pending = s.pending
  clk : s.clk ≤ t.clk
  freeN : s.freeN ≤ t.freeN
  out : s.out <:+ t.out
  mem : Mem.wf s.mem = true → Mem.wf t.mem = true
  regs : Tbl.sorted s.regs = true → Tbl.sorted t.regs = true
  engines : Tbl.sorted s.engines = true → Tbl.sorted t.engines = true
  rings : Tbl.sorted s.rings = true → Tbl.sorted t.rings = true

/-- The engine whose number a command carries: of a Folio instruction, and of what befalls a run. -/
def engineOf : Instr → Option Nat
  | .registerWrite _ _ _ _ _ => none
  | .rcRegisterRead _ _ _ _ => none
  | .catInvalidate _ _ => none
  | .catInvalidateAll _ => none
  | .catalogFetchComplete _ _ => none
  | .catLock _ => none
  | .ledgerSnapWrite _ => none
  | .ledgerSnapComplete _ => none
  | .ringProducerWrite _ _ _ => none
  | .ringConsumerWrite _ _ _ => none
  | .irqHoldoffExpiry _ _ => none
  | .powerReqWrite _ _ => none
  | .powerStateReached _ => none
  | .epochSchedule _ _ _ => none
  | .epochCancel _ => none
  | .epochInstant _ => none
  | .epochTimeout _ => none
  | .rollbackEpoch _ => none
  | .add p _ _ _ => some p
  | .sub p _ _ _ => some p
  | .andR p _ _ _ => some p
  | .orR p _ _ _ => some p
  | .xorR p _ _ _ => some p
  | .sll p _ _ _ => some p
  | .srl p _ _ _ => some p
  | .sra p _ _ _ => some p
  | .slt p _ _ _ => some p
  | .sltu p _ _ _ => some p
  | .mul p _ _ _ => some p
  | .mulh p _ _ _ => some p
  | .mulhu p _ _ _ => some p
  | .divu p _ _ _ => some p
  | .remu p _ _ _ => some p
  | .minS p _ _ _ => some p
  | .maxS p _ _ _ => some p
  | .minu p _ _ _ => some p
  | .maxu p _ _ _ => some p
  | .clz p _ _ => some p
  | .popc p _ _ => some p
  | .bfx p _ _ _ _ => some p
  | .addi p _ _ _ => some p
  | .andi p _ _ _ => some p
  | .ori p _ _ _ => some p
  | .xori p _ _ _ => some p
  | .lui p _ _ => some p
  | .slti p _ _ _ => some p
  | .shi p _ _ _ => some p
  | .lb p _ _ _ _ => some p
  | .lh p _ _ _ _ => some p
  | .lw p _ _ _ _ => some p
  | .ld p _ _ _ _ => some p
  | .lbu p _ _ _ _ => some p
  | .lhu p _ _ _ _ => some p
  | .lwu p _ _ _ _ => some p
  | .sb p _ _ _ _ => some p
  | .sh p _ _ _ _ => some p
  | .sw p _ _ _ _ => some p
  | .sd p _ _ _ _ => some p
  | .amo p _ _ _ _ _ => some p
  | .beq p _ _ _ => some p
  | .bne p _ _ _ => some p
  | .blt p _ _ _ => some p
  | .bge p _ _ _ => some p
  | .bltu p _ _ _ => some p
  | .bgeu p _ _ _ => some p
  | .jal p _ => some p
  | .jalr p _ _ _ => some p
  | .ringPush p _ _ _ => some p
  | .ringPop p _ _ _ => some p
  | .ringDone p _ _ _ => some p
  | .ringStat p _ _ => some p
  | .ledgerSnap p _ => some p
  | .ledgerSeq p _ => some p
  | .ledgerRead p _ _ => some p
  | .ledgerLine p _ => some p
  | .timeNow p _ => some p
  | .timeWait p _ => some p
  | .timeWaitExpiry _ p _ => some p
  | .timeCap p _ _ => some p
  | .timeCapn p _ _ => some p
  | .timeArm p _ _ _ => some p
  | .catInv p _ => some p
  | .catGen p _ _ => some p
  | .catAddr p _ _ => some p
  | .catWin p _ _ => some p
  | .catWsize p _ _ => some p
  | .linePage p _ _ _ => some p
  | .lineStat p _ _ => some p
  | .substSet p _ _ _ => some p
  | .substClr p _ _ _ => some p
  | .substGet p _ _ _ => some p
  | .statSeg p _ _ _ => some p
  | .statVcol p _ _ _ => some p
  | .statColframe p _ _ => some p
  | .statExpo p _ _ _ => some p
  | .statFrame p _ _ => some p
  | .syncInit p _ _ => some p
  | .syncArrive p _ _ => some p
  | .syncWait p _ _ => some p
  | .syncArm p _ _ => some p
  | .sysYield p => some p
  | .sysEnd p => some p
  | .sysFence p => some p
  | .sysCsrr p _ _ => some p
  | .sysCsrw p _ _ => some p
  | .sysArm p _ => some p
  | .sysDisarm p _ => some p
  | .sysTrap p _ => some p
  | .sysStart p _ _ => some p
  | .sysHalt p _ => some p
  | .vadd p _ _ _ => some p
  | .vsub p _ _ _ => some p
  | .vadds p _ _ _ => some p
  | .vsubs p _ _ _ => some p
  | .vaddus p _ _ _ => some p
  | .vsubus p _ _ _ => some p
  | .vmul p _ _ _ => some p
  | .vmulh p _ _ _ => some p
  | .vmulq p _ _ _ => some p
  | .vmin p _ _ _ => some p
  | .vmax p _ _ _ => some p
  | .vminu p _ _ _ => some p
  | .vmaxu p _ _ _ => some p
  | .vabsdu p _ _ _ => some p
  | .vand p _ _ _ => some p
  | .vor p _ _ _ => some p
  | .vxor p _ _ _ => some p
  | .vshl p _ _ _ => some p
  | .vsrl p _ _ _ => some p
  | .vsra p _ _ _ => some p
  | .vcgt p _ _ _ => some p
  | .vcgtu p _ _ _ => some p
  | .vceq p _ _ _ => some p
  | .vsel p _ _ _ => some p
  | .vema p _ _ _ => some p
  | .vsplat p _ _ => some p
  | .vextu p _ _ _ => some p
  | .vins p _ _ _ => some p
  | .vredadd p _ _ => some p
  | .vany p _ _ => some p
  | .vld p _ _ _ _ => some p
  | .vst p _ _ _ _ => some p
  | .sliceMaxExceeded _ p => some p
  | .sliceUrgencyRise _ p => some p
  | .scribeRestart _ _ => none
  | .scribeRestartComplete _ _ => none
  | .scribeSubstituteComplete _ _ => none
  | .copyIn _ _ => none
  | .copyInComplete _ _ => none
  | .put32 _ _ => none
  | .readyBandsPoll _ => none
  | .lineAccept _ => none
  | .lineDecode _ _ _ _ => none
  | .vjobWrite _ _ => none
  | .rewindDwellExpiry _ => none
  | .keepopenTimeout _ _ => none
  | .holdOpenExpiry _ => none
  | .startOfScan _ _ => none
  | .referenceStartOfScan _ => none
  | .sosMissing _ => none
  | .dataDeadlineExpiry _ _ => none
  | .dataFrameSend _ _ _ => none
  | .credit _ _ _ => none
  | .lineOk _ _ _ => none
  | .lineNak _ _ _ => none
  | .relAck _ _ _ => none
  | .relAckTimeout _ _ => none
  | .tempSet _ _ _ => none
  | .statusSet _ _ _ => none
  | .heartbeat _ => none
  | .tempTimeout _ _ => none
  | .decapLapse _ _ => none
  | .waveCommit _ _ => none
  | .authStart _ _ => none
  | .cert _ _ _ => none
  | .usageNow _ _ _ _ _ => none
  | .usageAdd _ _ => none
  | .authTimeout _ _ => none
  | .authRetry _ _ => none
  | .authGraceExpiry _ _ => none
  | .cameraPortTrainComplete _ _ _ => none
  | .cameraLinkFail _ _ _ => none
  | .csi2Packet _ _ _ _ _ _ _ => none
  | .cameraLineReceive _ _ _ => none
  | .groupTrigger _ _ => none
  | .triggerLineLost _ _ => none
  | .frameEnd _ _ _ _ _ => none
  | .groupRunWrite _ _ _ => none
  | .accumulatorComplete _ _ => none
  | .expoGo _ => none
  | .expoCommitCheck _ _ _ => none
  | .pipelineTestTimer _ _ _ => none
  | .healthPass _ _ => none
  | .nozRetire _ _ => none
  | .nozRestore _ _ => none
  | .nozRestorePlane _ _ => none
  | .cuSwapRequest _ => none
  | .densityUpdate _ _ => none
  | .registrationWindow _ _ _ _ => none
  | .xshiftApply _ _ => none
  | .recalRequest _ _ _ => none
  | .recalAgeExpiry _ _ _ => none
  | .recalStart _ _ => none
  | .recalComplete _ _ _ _ _ _ => none
  | .converterSwap _ _ _ => none
  | .xrefCheck _ _ => none
  | .moveAbs _ => none
  | .moveRel _ => none
  | .velocity _ => none
  | .stop _ => none
  | .home _ => none
  | .enable _ => none
  | .disable _ => none
  | .servoPeriod _ _ => none
  | .driveLinkFrameReceive _ _ _ => none
  | .driveLinkUp _ _ _ _ => none
  | .holdDelayExpiry _ _ => none
  | .switchQualify _ _ _ _ => none
  | .latchHoldoffExpiry _ _ => none
  | .feedbackPositionUpdate _ _ _ _ => none
  | .ssiReading _ _ _ _ => none
  | .indexEdge _ _ => none
  | .speedZeroTimeout _ _ => none
  | .emulatorEdge _ _ => none
  | .timeNowLatch _ _ => none
  | .timeCapLatch _ _ => none
  | .ptpAnnounceReceive _ _ _ _ _ _ _ _ _ _ => none
  | .ptpSyncReceive _ _ _ _ _ => none
  | .ptpDelayRespReceive _ _ _ _ _ => none
  | .ptpDelayReqSend _ => none
  | .ptpMasterSend _ _ => none
  | .ptpTransparentForward _ _ _ _ _ _ _ => none
  | .announceTimeout _ => none
  | .traceHoldExpiry _ => none
  | .ppsOutEdge _ => none
  | .ppsInEdge _ => none
  | .timeSet _ => none
  | .timeSetAtPps _ => none
  | .timeTriggerFire _ _ => none
  | .neighborSend _ _ => none
  | .neighborReceive _ _ _ _ => none
  | .neighborMiss _ _ => none
  | .nodeLearnTimeout _ => none
  | .ringFrameReceive _ _ _ => none
  | .ringLinkLoss _ _ => none
  | .stacksRequest _ _ _ _ _ _ _ => none
  | .stacksUrgencyRise _ => none
  | .stacksRequestServed _ _ _ => none
  | .bankRefresh _ _ _ => none
  | .stackTempRead _ _ _ => none
  | .hbmParityError _ _ _ _ _ _ => none
  | .hbmReadTimeout _ _ _ _ => none
  | .scrubRead _ _ => none
  | .rowRepair _ => none
  | .repairRecordWrite _ => none
  | .retrainWindow _ _ _ _ => none
  | .freezeEntry _ _ _ _ _ => none
  | .freezeWithholdExpiry _ => none
  | .rrRotation _ => none
  | .rrBankTestComplete _ _ => none
  | .binderyCompress _ _ => none
  | .binderyDecompress _ _ => none
  | .binderyBlockWrite _ _ _ _ _ => none
  | .binderyJobComplete _ _ => none
  | .laneBringupStart _ _ => none
  | .laneReady _ _ _ _ _ => none
  | .blockLockLoss _ _ => none
  | .laneSwitchShiftComplete _ => none
  | .laneMove _ _ => none
  | .laneRetire _ _ => none
  | .laneRestore _ _ => none
  | .laneSwitchVerifyTimeout _ => none
  | .prbsInjectOnce _ _ => none
  | .prbsInjectPeriodic _ _ => none
  | .eyeMeasurement _ _ _ _ => none
  | .reloadEnd _ => none
  | .secondaryWaitExpiry _ => none
  | .twinHb _ _ _ _ => none
  | .twinHbSend _ => none
  | .twinCredit _ _ _ => none
  | .twinAck _ _ _ => none
  | .twinNak _ _ _ => none
  | .twinFail _ _ _ => none
  | .twinHbTimeout _ => none
  | .twinRecordReceive _ _ _ _ _ => none
  | .stacksWrite _ _ _ => none
  | .pageRec _ _ _ _ _ => none
  | .substRec _ _ _ _ _ => none
  | .bankRec _ _ _ _ _ => none
  | .entryRec _ _ _ => none
  | .setpointRec _ _ _ _ => none
  | .modeRec _ _ _ _ _ _ => none
  | .healthRec _ _ => none
  | .handoverRec _ _ _ _ => none
  | .syncMark _ _ => none
  | .healthSend _ => none
  | .resyncComplete _ _ _ => none
  | .shadowLineTimeout _ _ => none
  | .switchover _ => none
  | .handoverReport _ => none
  | .pairYieldPage _ => none
  | .pairYieldNow _ => none
  | .pairResync _ => none
  | .handoverSend _ => none
  | .handoverInstant _ => none
  | .handoverTake _ => none
  | .wtrExpiry _ => none
  | .sensorConversion _ _ _ => none
  | .sensorConversionTimeout _ _ => none
  | .thermalSweep _ _ => none
  | .hardwareTrip _ _ => none
  | .sensorRestore _ _ => none
  | .flashOkRestore _ => none
  | .limLock _ => none
  | .tlimLock _ => none
  | .cfgLock _ => none
  | .coldStart _ => none
  | .rstNAssert _ => none
  | .lxReset _ _ => none
  | .pePerstAssert _ => none
  | .watchdogExpiry _ => none
  | .warmResetAckWaitExpiry _ => none
  | .setSave _ => none
  | .setWrite _ => none
  | .setClear _ => none
  | .settingsWriteComplete _ => none
  | .updLoad _ => none
  | .updArm _ => none
  | .updDisarm _ => none
  | .updConfirm _ => none
  | .updForward _ _ => none
  | .updAbort _ => none
  | .armComplete _ => none
  | .imgOffer _ _ _ _ => none
  | .imgData _ _ _ _ _ _ => none
  | .imgAck _ _ _ _ _ _ _ => none
  | .imgAckTimeout _ _ => none
  | .imageVerifyComplete _ => none
  | .stagingWriteComplete _ _ => none
  | .levels _ _ _ _ => none
  | .levelsSend _ _ => none
  | .twinLevel _ _ _ => none
  | .twinLevelSend _ => none
  | .imageConfirm _ => none
  | .confirmWindowExpiry _ => none
  | .gpRunStart _ _ => none
  | .gpRunStop _ _ => none
  | .gpDmaGo _ => none
  | .gpIntStatRead _ => none
  | .gpUnlock _ _ => none
  | .supplyExcursion _ _ _ => none
  | .supplyOutOfRange _ _ => none
  | .illegalInstruction p _ => some p
  | .ringLinkUp _ _ => none
  | .ptpDelayReqReceive _ _ _ _ => none
  | .laneMoveReleaseWaitExpiry _ => none
  | .twinAckSend _ => none
  | .activeHeartbeatWaitExpiry _ => none
  | .catalogWindowWrite _ _ _ => none
  | .prbsErrorLimit _ _ _ => none
  | .prbsCheckerSync _ _ => none
  | .imgDataSend _ _ => none

/-- The instant a command carries. -/
def instantOf : Instr → Option Nat
  | .registerWrite t _ _ _ _ => some t
  | .rcRegisterRead t _ _ _ => some t
  | .catInvalidate t _ => some t
  | .catInvalidateAll t => some t
  | .catalogFetchComplete t _ => some t
  | .catLock t => some t
  | .ledgerSnapWrite t => some t
  | .ledgerSnapComplete t => some t
  | .ringProducerWrite t _ _ => some t
  | .ringConsumerWrite t _ _ => some t
  | .irqHoldoffExpiry t _ => some t
  | .powerReqWrite t _ => some t
  | .powerStateReached t => some t
  | .epochSchedule t _ _ => some t
  | .epochCancel t => some t
  | .epochInstant t => some t
  | .epochTimeout t => some t
  | .rollbackEpoch t => some t
  | .add _ _ _ _ => none
  | .sub _ _ _ _ => none
  | .andR _ _ _ _ => none
  | .orR _ _ _ _ => none
  | .xorR _ _ _ _ => none
  | .sll _ _ _ _ => none
  | .srl _ _ _ _ => none
  | .sra _ _ _ _ => none
  | .slt _ _ _ _ => none
  | .sltu _ _ _ _ => none
  | .mul _ _ _ _ => none
  | .mulh _ _ _ _ => none
  | .mulhu _ _ _ _ => none
  | .divu _ _ _ _ => none
  | .remu _ _ _ _ => none
  | .minS _ _ _ _ => none
  | .maxS _ _ _ _ => none
  | .minu _ _ _ _ => none
  | .maxu _ _ _ _ => none
  | .clz _ _ _ => none
  | .popc _ _ _ => none
  | .bfx _ _ _ _ _ => none
  | .addi _ _ _ _ => none
  | .andi _ _ _ _ => none
  | .ori _ _ _ _ => none
  | .xori _ _ _ _ => none
  | .lui _ _ _ => none
  | .slti _ _ _ _ => none
  | .shi _ _ _ _ => none
  | .lb _ _ _ _ _ => none
  | .lh _ _ _ _ _ => none
  | .lw _ _ _ _ _ => none
  | .ld _ _ _ _ _ => none
  | .lbu _ _ _ _ _ => none
  | .lhu _ _ _ _ _ => none
  | .lwu _ _ _ _ _ => none
  | .sb _ _ _ _ _ => none
  | .sh _ _ _ _ _ => none
  | .sw _ _ _ _ _ => none
  | .sd _ _ _ _ _ => none
  | .amo _ _ _ _ _ _ => none
  | .beq _ _ _ _ => none
  | .bne _ _ _ _ => none
  | .blt _ _ _ _ => none
  | .bge _ _ _ _ => none
  | .bltu _ _ _ _ => none
  | .bgeu _ _ _ _ => none
  | .jal _ _ => none
  | .jalr _ _ _ _ => none
  | .ringPush _ _ _ _ => none
  | .ringPop _ _ _ _ => none
  | .ringDone _ _ _ _ => none
  | .ringStat _ _ _ => none
  | .ledgerSnap _ _ => none
  | .ledgerSeq _ _ => none
  | .ledgerRead _ _ _ => none
  | .ledgerLine _ _ => none
  | .timeNow _ _ => none
  | .timeWait _ _ => none
  | .timeWaitExpiry t _ _ => some t
  | .timeCap _ _ _ => none
  | .timeCapn _ _ _ => none
  | .timeArm _ _ _ _ => none
  | .catInv _ _ => none
  | .catGen _ _ _ => none
  | .catAddr _ _ _ => none
  | .catWin _ _ _ => none
  | .catWsize _ _ _ => none
  | .linePage _ _ _ _ => none
  | .lineStat _ _ _ => none
  | .substSet _ _ _ _ => none
  | .substClr _ _ _ _ => none
  | .substGet _ _ _ _ => none
  | .statSeg _ _ _ _ => none
  | .statVcol _ _ _ _ => none
  | .statColframe _ _ _ => none
  | .statExpo _ _ _ _ => none
  | .statFrame _ _ _ => none
  | .syncInit _ _ _ => none
  | .syncArrive _ _ _ => none
  | .syncWait _ _ _ => none
  | .syncArm _ _ _ => none
  | .sysYield _ => none
  | .sysEnd _ => none
  | .sysFence _ => none
  | .sysCsrr _ _ _ => none
  | .sysCsrw _ _ _ => none
  | .sysArm _ _ => none
  | .sysDisarm _ _ => none
  | .sysTrap _ _ => none
  | .sysStart _ _ _ => none
  | .sysHalt _ _ => none
  | .vadd _ _ _ _ => none
  | .vsub _ _ _ _ => none
  | .vadds _ _ _ _ => none
  | .vsubs _ _ _ _ => none
  | .vaddus _ _ _ _ => none
  | .vsubus _ _ _ _ => none
  | .vmul _ _ _ _ => none
  | .vmulh _ _ _ _ => none
  | .vmulq _ _ _ _ => none
  | .vmin _ _ _ _ => none
  | .vmax _ _ _ _ => none
  | .vminu _ _ _ _ => none
  | .vmaxu _ _ _ _ => none
  | .vabsdu _ _ _ _ => none
  | .vand _ _ _ _ => none
  | .vor _ _ _ _ => none
  | .vxor _ _ _ _ => none
  | .vshl _ _ _ _ => none
  | .vsrl _ _ _ _ => none
  | .vsra _ _ _ _ => none
  | .vcgt _ _ _ _ => none
  | .vcgtu _ _ _ _ => none
  | .vceq _ _ _ _ => none
  | .vsel _ _ _ _ => none
  | .vema _ _ _ _ => none
  | .vsplat _ _ _ => none
  | .vextu _ _ _ _ => none
  | .vins _ _ _ _ => none
  | .vredadd _ _ _ => none
  | .vany _ _ _ => none
  | .vld _ _ _ _ _ => none
  | .vst _ _ _ _ _ => none
  | .sliceMaxExceeded t _ => some t
  | .sliceUrgencyRise t _ => some t
  | .scribeRestart t _ => some t
  | .scribeRestartComplete t _ => some t
  | .scribeSubstituteComplete t _ => some t
  | .copyIn t _ => some t
  | .copyInComplete t _ => some t
  | .put32 t _ => some t
  | .readyBandsPoll t => some t
  | .lineAccept t => some t
  | .lineDecode t _ _ _ => some t
  | .vjobWrite t _ => some t
  | .rewindDwellExpiry t => some t
  | .keepopenTimeout t _ => some t
  | .holdOpenExpiry t => some t
  | .startOfScan t _ => some t
  | .referenceStartOfScan t => some t
  | .sosMissing t => some t
  | .dataDeadlineExpiry t _ => some t
  | .dataFrameSend t _ _ => some t
  | .credit t _ _ => some t
  | .lineOk t _ _ => some t
  | .lineNak t _ _ => some t
  | .relAck t _ _ => some t
  | .relAckTimeout t _ => some t
  | .tempSet t _ _ => some t
  | .statusSet t _ _ => some t
  | .heartbeat t => some t
  | .tempTimeout t _ => some t
  | .decapLapse t _ => some t
  | .waveCommit t _ => some t
  | .authStart t _ => some t
  | .cert t _ _ => some t
  | .usageNow t _ _ _ _ => some t
  | .usageAdd t _ => some t
  | .authTimeout t _ => some t
  | .authRetry t _ => some t
  | .authGraceExpiry t _ => some t
  | .cameraPortTrainComplete t _ _ => some t
  | .cameraLinkFail t _ _ => some t
  | .csi2Packet t _ _ _ _ _ _ => some t
  | .cameraLineReceive t _ _ => some t
  | .groupTrigger t _ => some t
  | .triggerLineLost t _ => some t
  | .frameEnd t _ _ _ _ => some t
  | .groupRunWrite t _ _ => some t
  | .accumulatorComplete t _ => some t
  | .expoGo t => some t
  | .expoCommitCheck t _ _ => some t
  | .pipelineTestTimer t _ _ => some t
  | .healthPass t _ => some t
  | .nozRetire t _ => some t
  | .nozRestore t _ => some t
  | .nozRestorePlane t _ => some t
  | .cuSwapRequest t => some t
  | .densityUpdate t _ => some t
  | .registrationWindow t _ _ _ => some t
  | .xshiftApply t _ => some t
  | .recalRequest t _ _ => some t
  | .recalAgeExpiry t _ _ => some t
  | .recalStart t _ => some t
  | .recalComplete t _ _ _ _ _ => some t
  | .converterSwap t _ _ => some t
  | .xrefCheck t _ => some t
  | .moveAbs t => some t
  | .moveRel t => some t
  | .velocity t => some t
  | .stop t => some t
  | .home t => some t
  | .enable t => some t
  | .disable t => some t
  | .servoPeriod t _ => some t
  | .driveLinkFrameReceive t _ _ => some t
  | .driveLinkUp t _ _ _ => some t
  | .holdDelayExpiry t _ => some t
  | .switchQualify t _ _ _ => some t
  | .latchHoldoffExpiry t _ => some t
  | .feedbackPositionUpdate t _ _ _ => some t
  | .ssiReading t _ _ _ => some t
  | .indexEdge t _ => some t
  | .speedZeroTimeout t _ => some t
  | .emulatorEdge t _ => some t
  | .timeNowLatch t _ => some t
  | .timeCapLatch t _ => some t
  | .ptpAnnounceReceive t _ _ _ _ _ _ _ _ _ => some t
  | .ptpSyncReceive t _ _ _ _ => some t
  | .ptpDelayRespReceive t _ _ _ _ => some t
  | .ptpDelayReqSend t => some t
  | .ptpMasterSend t _ => some t
  | .ptpTransparentForward t _ _ _ _ _ _ => some t
  | .announceTimeout t => some t
  | .traceHoldExpiry t => some t
  | .ppsOutEdge t => some t
  | .ppsInEdge t => some t
  | .timeSet t => some t
  | .timeSetAtPps t => some t
  | .timeTriggerFire t _ => some t
  | .neighborSend t _ => some t
  | .neighborReceive t _ _ _ => some t
  | .neighborMiss t _ => some t
  | .nodeLearnTimeout t => some t
  | .ringFrameReceive t _ _ => some t
  | .ringLinkLoss t _ => some t
  | .stacksRequest t _ _ _ _ _ _ => some t
  | .stacksUrgencyRise t => some t
  | .stacksRequestServed t _ _ => some t
  | .bankRefresh t _ _ => some t
  | .stackTempRead t _ _ => some t
  | .hbmParityError t _ _ _ _ _ => some t
  | .hbmReadTimeout t _ _ _ => some t
  | .scrubRead t _ => some t
  | .rowRepair t => some t
  | .repairRecordWrite t => some t
  | .retrainWindow t _ _ _ => some t
  | .freezeEntry t _ _ _ _ => some t
  | .freezeWithholdExpiry t => some t
  | .rrRotation t => some t
  | .rrBankTestComplete t _ => some t
  | .binderyCompress t _ => some t
  | .binderyDecompress t _ => some t
  | .binderyBlockWrite t _ _ _ _ => some t
  | .binderyJobComplete t _ => some t
  | .laneBringupStart t _ => some t
  | .laneReady t _ _ _ _ => some t
  | .blockLockLoss t _ => some t
  | .laneSwitchShiftComplete t => some t
  | .laneMove t _ => some t
  | .laneRetire t _ => some t
  | .laneRestore t _ => some t
  | .laneSwitchVerifyTimeout t => some t
  | .prbsInjectOnce t _ => some t
  | .prbsInjectPeriodic t _ => some t
  | .eyeMeasurement t _ _ _ => some t
  | .reloadEnd t => some t
  | .secondaryWaitExpiry t => some t
  | .twinHb t _ _ _ => some t
  | .twinHbSend t => some t
  | .twinCredit t _ _ => some t
  | .twinAck t _ _ => some t
  | .twinNak t _ _ => some t
  | .twinFail t _ _ => some t
  | .twinHbTimeout t => some t
  | .twinRecordReceive t _ _ _ _ => some t
  | .stacksWrite t _ _ => some t
  | .pageRec t _ _ _ _ => some t
  | .substRec t _ _ _ _ => some t
  | .bankRec t _ _ _ _ => some t
  | .entryRec t _ _ => some t
  | .setpointRec t _ _ _ => some t
  | .modeRec t _ _ _ _ _ => some t
  | .healthRec t _ => some t
  | .handoverRec t _ _ _ => some t
  | .syncMark t _ => some t
  | .healthSend t => some t
  | .resyncComplete t _ _ => some t
  | .shadowLineTimeout t _ => some t
  | .switchover t => some t
  | .handoverReport t => some t
  | .pairYieldPage t => some t
  | .pairYieldNow t => some t
  | .pairResync t => some t
  | .handoverSend t => some t
  | .handoverInstant t => some t
  | .handoverTake t => some t
  | .wtrExpiry t => some t
  | .sensorConversion t _ _ => some t
  | .sensorConversionTimeout t _ => some t
  | .thermalSweep t _ => some t
  | .hardwareTrip t _ => some t
  | .sensorRestore t _ => some t
  | .flashOkRestore t => some t
  | .limLock t => some t
  | .tlimLock t => some t
  | .cfgLock t => some t
  | .coldStart t => some t
  | .rstNAssert t => some t
  | .lxReset t _ => some t
  | .pePerstAssert t => some t
  | .watchdogExpiry t => some t
  | .warmResetAckWaitExpiry t => some t
  | .setSave t => some t
  | .setWrite t => some t
  | .setClear t => some t
  | .settingsWriteComplete t => some t
  | .updLoad t => some t
  | .updArm t => some t
  | .updDisarm t => some t
  | .updConfirm t => some t
  | .updForward t _ => some t
  | .updAbort t => some t
  | .armComplete t => some t
  | .imgOffer t _ _ _ => some t
  | .imgData t _ _ _ _ _ => some t
  | .imgAck t _ _ _ _ _ _ => some t
  | .imgAckTimeout t _ => some t
  | .imageVerifyComplete t => some t
  | .stagingWriteComplete t _ => some t
  | .levels t _ _ _ => some t
  | .levelsSend t _ => some t
  | .twinLevel t _ _ => some t
  | .twinLevelSend t => some t
  | .imageConfirm t => some t
  | .confirmWindowExpiry t => some t
  | .gpRunStart t _ => some t
  | .gpRunStop t _ => some t
  | .gpDmaGo t => some t
  | .gpIntStatRead t => some t
  | .gpUnlock t _ => some t
  | .supplyExcursion t _ _ => some t
  | .supplyOutOfRange t _ => some t
  | .illegalInstruction _ _ => none
  | .ringLinkUp t _ => some t
  | .ptpDelayReqReceive t _ _ _ => some t
  | .laneMoveReleaseWaitExpiry t => some t
  | .twinAckSend t => some t
  | .activeHeartbeatWaitExpiry t => some t
  | .catalogWindowWrite t _ _ => some t
  | .prbsErrorLimit t _ _ => some t
  | .prbsCheckerSync t _ => some t
  | .imgDataSend t _ => some t

/-- Engine `p` exists and has its clock (R49), the instruction at its program counter and the next one lie in the program area (R93), and
no word of its local memory has an uncorrectable error (R81). -/
def Runs (s : State) (p : Nat) : Prop :=
  p ≤ registrar ∧ s.md.tripped = false ∧ dormant s p = false ∧ s.pcOf p + 4 < contextBase p ∧ (s.eng p).bad = []

/-- The state in which an instruction of engine `p` has its effect: the program counter has passed to the next one. -/
def passed (s : State) (p : Nat) : State := s.setPc p (s.pcOf p + 4)

end Sys2Proof
end

