-- ==== Sys2Proof/Vocabulary.lean ====
section
/-! DEFINITION. The terms in which statements about commands are written: how a command ends, and what it has changed. -/

namespace Sys2Proof

open Machine


/-- A command answers a next state of which `P` holds. -/
def Ends (o : Host.Outcome State Fault Refusal) (P : State → Prop) : Prop := ∃ t, o = .next t ∧ P t

/-- A command answers what `f` makes of a state of which `P` holds: what the command does itself, and then what follows from it. -/
def EndsIn (o : Host.Outcome State Fault Refusal) (f : State → State) (P : State → Prop) : Prop := ∃ u, o = .next (f u) ∧ P u

/-- From `s` to `t`, an instruction of engine `p` has written general register `rd` with `v` and passed to the next one;
every other register, engine, byte of memory and field of the state is as before. A write of g0 is discarded. -/
structure GWrites (s t : State) (p rd : Nat) (v : Word) : Prop where
  value : t.gget p rd = if rd % 32 = 0 then 0 else v
  others : ∀ n, n % 32 ≠ rd % 32 → t.gget p n = s.gget p n
  vectors : ∀ n, t.vget p n = s.vget p n
  pc : t.pcOf p = s.pcOf p + 4
  engine : t.eng p = { s.eng p with g := (t.eng p).g, pc := (t.eng p).pc }
  engines : ∀ q, q ≠ p → t.eng q = s.eng q
  memory : ∀ a, Mem.get t.mem a = Mem.get s.mem a
  rest : t = { s with engines := t.engines }

/-- The same of vector register `vd`. -/
structure VWrites (s t : State) (p vd : Nat) (v : VWord) : Prop where
  value : t.vget p vd = v
  others : ∀ n, n % 16 ≠ vd % 16 → t.vget p n = s.vget p n
  generals : ∀ n, t.gget p n = s.gget p n
  pc : t.pcOf p = s.pcOf p + 4
  engine : t.eng p = { s.eng p with v := (t.eng p).v, pc := (t.eng p).pc }
  engines : ∀ q, q ≠ p → t.eng q = s.eng q
  memory : ∀ a, Mem.get t.mem a = Mem.get s.mem a
  rest : t = { s with engines := t.engines }

/-- From `s` to `t`, an instruction of engine `p` has passed to `pc` and nothing else has changed. -/
structure Jumps (s t : State) (p pc : Nat) : Prop where
  target : t.pcOf p = pc
  engine : t.eng p = { s.eng p with pc := (t.eng p).pc }
  engines : ∀ q, q ≠ p → t.eng q = s.eng q
  memory : ∀ a, Mem.get t.mem a = Mem.get s.mem a
  rest : t = { s with engines := t.engines }

/-- From `s` to `t`, an instruction of engine `p` has stored the low `n` bytes of `v`, least significant first, from place `a` of memory on,
and passed to the next one; every other byte and every other register is as before. -/
structure Stores (s t : State) (p a n v : Nat) : Prop where
  bytes : ∀ k, k < n → Mem.get t.mem (a + k) = BitVec.ofNat 8 (v / 256 ^ k)
  others : ∀ x, (x < a ∨ a + n ≤ x) → Mem.get t.mem x = Mem.get s.mem x
  pc : t.pcOf p = s.pcOf p + 4
  engine : t.eng p = { s.eng p with pc := (t.eng p).pc }
  engines : ∀ q, q ≠ p → t.eng q = s.eng q
  rest : t = { s with engines := t.engines, mem := t.mem }

/-- Nothing of the machine but the register fields `fs` name, copy by copy, has changed. -/
def OnlyRegs (s t : State) (fs : List Nat) : Prop :=
  t = { s with regs := t.regs } ∧ ∀ (f : Fld) (i : Nat), f.key i ∉ fs → t.rd f i = s.rd f i

/-- Bytes `k - 1` to 0 from place `a` of memory on, as one number of 8 × `k` bits, the first byte least significant. -/
def word16 (s : State) (a : Nat) : BitVec 16 := Mem.get s.mem (a + 1) ++ Mem.get s.mem a
def word32 (s : State) (a : Nat) : BitVec 32 := word16 s (a + 2) ++ word16 s a
def word64 (s : State) (a : Nat) : BitVec 64 := word32 s (a + 4) ++ word32 s a

/-- The fields of the register at `r` that a read of its bytes `o` to `o + n - 1` clears (R41), by key. -/
def rcWithin (s : State) (r o n : Nat) : List Nat :=
  ((regFields s r).filter (fun p => p.1.acc == .rc && decide (8 * o ≤ p.2.2) && decide (p.2.2 + p.1.width ≤ 8 * (o + n)))).map
    (fun p => p.1.key p.2.1)

/-- Registers of BAR0 a write of which does more than give its fields their values: most have a row of the opcode table of their own. -/
def ownRow (a : Nat) : Bool :=
  [Reg.POWER_CTRL.power_req.addr, Reg.EPOCH_CMD.go.addr, Reg.SCRIBE_RESTART.go.addr, Reg.LA_VJOB.v_job.addr, Reg.EXPO_GO.go.addr,
    Reg.GRP_CFG.run.addr, Reg.GRP_CFG.run.addr + 16, Reg.GRP_CFG.run.addr + 32, Reg.GRP_CFG.run.addr + 48, Reg.CL_NOZ_CMD.op.addr,
    Reg.CL_CU_CTRL.swap.addr, Reg.CL_RECAL_REQ.go.addr, Reg.MOT_CMD.op.addr, Reg.TIME_PTP_CFG.domain.addr, Reg.TIME_SET_CMD.go.addr,
    Reg.LANE_CMD.op.addr, Reg.PRBS_CTRL.gen_en.addr, Reg.LANE_LOOP.loop_req.addr, Reg.PAIR_CMD.op.addr, Reg.THERM_CMD.restore.addr,
    Reg.LX_RESET.warm.addr, Reg.SET_CMD.op.addr, Reg.UPD_CMD.op.addr, Reg.TIME_PPS.pps_in_en.addr].contains a ||
  (decide (Reg.MEM_PORT_CFG.rate_gbs.addr ≤ a) && decide (a < Reg.MEM_PORT_CFG.rate_gbs.addr + 72)) || (decide (0xFE_0000 ≤ a) && decide (a < 0xFE_1000))

/-- A Catalog entry as the cache keeps it: one of a pinned class shows `pinned` (Table 1-5). -/
def asCached (ch : Nat) (e : List Byte) : List Byte :=
  match classOf ch with
  | some (c, _) => if clsPinned c then e.take 8 ++ [e.getD 8 0 ||| 4] ++ e.drop 9 else e
  | none => e

/-- From `s` to `t`, bytes `bs` have been written from place `a` of memory on, and every other byte is as before. -/
def Wrote (s t : State) (a : Nat) (bs : List Byte) : Prop :=
  Mem.read t.mem a bs.length = bs ∧ ∀ x, (x < a ∨ a + bs.length ≤ x) → Mem.get t.mem x = Mem.get s.mem x

/-- The core's boundary, then the boundary of every unit with no interval in progress (R58): an epoch applies or returns there. -/
def boundariesNow (s : State) : State :=
  let z := unitBoundary s coreBit 0
  let z := if headsRunning z then z else unitBoundary z headBits z.fire.refNext
  unitBoundary z (idleUnits z) z.fire.refNext

/-- What comes up as the device reaches P0: emulator outputs, lanes, camera ports and stitch groups, and an epoch that waited for it (R53, R55). -/
def wakeAll (s : State) : State :=
  let s := (List.range 4).foldl (fun s k => if s.entOn (chEmu k) EmuE.emuEn then emuStart s k else s) s
  let s := groupsWake (pipes16.foldl (fun s n => if s.entOn (chPort n) PortE.portEn then portStart s n false else s) (lanesWake s))
  if epochState s == 2 && !s.md.started then epochApply s else s

/-- Trigger `k` marks device time `r`, under an entry of the Catalog that the device has written for it; no other entry, and no byte of
memory outside that entry, has changed from `s`. -/
def Marks (s t : State) (k r : Nat) : Prop :=
  t.trig k = { next := some r, grid := r, left := none } ∧ Tbl.find t.cat.inEffect (chTrig k) ≠ none ∧
  (∀ c, c ≠ chTrig k → Tbl.find t.cat.inEffect c = Tbl.find s.cat.inEffect c) ∧ t.cat = { s.cat with inEffect := t.cat.inEffect } ∧
  ∀ x, (x < entryAddr s (chTrig k) ∨ entryAddr s (chTrig k) + 128 ≤ x) → Mem.get t.mem x = Mem.get s.mem x

/-- The rollback epoch of the outstanding epoch stands at device time `r`, with cause `c`, and trigger 63 marks it; nothing else but
registers has changed from `s`. -/
def RollsBack (s t : State) (c r : Nat) : Prop :=
  t.rd Reg.EPOCH_STATUS.state = 4 ∧ t.rd Reg.EPOCH_STATUS.rb_cause = c ∧ t.md = { s.md with rbInstant := r, rbReached := false, returned := 0 } ∧
  t.rd Reg.EPOCH_RB_NS.rb_ns = nsOf r ∧ t.rd2 Reg.EPOCH_RB_SEC_LO.rb_sec_lo Reg.EPOCH_RB_SEC_HI.rb_sec_hi = secOf r % 2 ^ 48 ∧
  Marks s t 63 r ∧ t.mode = s.mode ∧ t = { s with regs := t.regs, md := t.md, tu := t.tu, cat := t.cat, mem := t.mem, pair := t.pair }

/-- What a part's release leaves: RELEASE with the disposition has been sent for the line where the slot may drive and is no GP-40 port,
the part is no longer kept, and the Ledger has its line and drops among those that `lines` and `drops` count (Table 4-15). -/
structure PartEnds (s t : State) (k : Nat) (q : Part) (disp : Nat) (lines drops : Nat → Nat) : Prop where
  sent : s.gp40 = false → mayDrive s k = true →
    ∃ e, Emit.orderedSet (slotLane s k) (orderedSetWord osRelease (slotFields s k (lineTag s q.line * 2 ^ 33 + e % 4096 * 2 ^ 21 + disp * 2 ^ 19))) ∈ t.out
  gone : partOf t k q.line = none
  ledger : s.ln.moves = [] → t.led.live = (moveDrops (moveLine s q.jobIdx k lines) q.jobIdx q.plane q.drops drops).led.live

/-- What FIRE leaves: RELEASE with disposition 0 has been sent, the part waits for its REL_ACK, and the slot has fired as of instant `sos`. -/
structure PartFires (s t : State) (k : Nat) (q : Part) (sos : Nat) : Prop where
  sent : s.gp40 = false → mayDrive s k = true →
    ∃ e, Emit.orderedSet (slotLane s k) (orderedSetWord osRelease (slotFields s k (lineTag s q.line * 2 ^ 33 + e % 4096 * 2 ^ 21))) ∈ t.out
  kept : partOf t k q.line = some { q with released := some s.clk, sosAt := none }
  fired : (t.slot k).lastFire = some sos ∧ (t.slot k).firing = true
  job : t.fire.firedJob = true

/-- The interval since the last reference-row start-of-scan is shorter than `sos_tol` allows of the one before (R174). -/
def sosEarly (s : State) : Bool :=
  match s.fire.refAt, s.fire.refGap with
  | some a, some b => decide ((s.clk - a) * 100 < (100 - s.rd Reg.FS_SOS_CHECK.sos_tol) * b)
  | _, _ => false

/-- What follows the capture of a reference-row start-of-scan: interval check, line triggers, entries, transitions and epochs, the GP-40's
line, and the calls of the lead (R172). -/
def refTail (s : State) (g : Nat) : State :=
  let n := relLine s g
  let s := refInterval s g
  let s := triggerSlices s 3 (fun a => a != 0 && n % a == 0)
  let s := lineBoundary (resumeLine ((lineChannels s).foldl catApply s) g) g
  handPlan (leadCalls (gpLine { s with fire := { s.fire with refNext := g + 1 } } g))

/-- A reported head temperature lies within `rate_max` of the channel's last accepted one (R438). -/
def tempSmooth (s : State) (k : Nat) (driver : Bool) (v : Int) : Bool :=
  match (if driver then (s.head k).driver else (s.head k).plate) with
  | some (w, a) => decide ((v - w).natAbs * secU ≤ (16 * headEnt s (2 * k + ofBool driver) HeadE.rateMax 20).toNat * (s.clk - a))
  | none => true

/-- The Thermal Monitor passes the slot's value on to the fire path, or none (Table 14-2). -/
def headValue (s : State) (k : Nat) : Option (Int × Nat) → State
  | some (v, since) => tempPass s k v since
  | none => tempEval s k

/-- A trigger of group `g` that has been counted reaches its pipelines: substitutes take their places, frames begin, and each pipeline
that sees it counts it (R218, R222). -/
def triggerReaches (s : State) (g : Nat) : State :=
  let s := (framesDue s g).foldl (fun s d => pipeSwap s d.1) s
  let s := (framesDue s g).foldl frameStart s
  (pipesSeeing s g).foldl (fun s p => pipeTrigger s p g (s.group g).k) s

/-- Once its statistics record is out, frame `f` of group `g` leaves pipeline `p`; slices, the group's frame end
where every pipeline of the group has ended the frame, and the release of lines follow. -/
def frameLeaves (s : State) (p g : Nat) (f : Frame) : State :=
  let x := s.pipe p
  let s := showPipe (s.setPipe p { x with frames := x.frames.filter (fun h => h.num != f.num), ended := f.num }) p
  let s := triggerSlices s 4 (fun a => a == p)
  rasterRelease (if (boundPipes s g).all (fun n => decide (f.num ≤ (s.pipe n).ended)) then groupFrameEnd s g f.num else s)

/-- The axes of a port go on by one period of `dt` ns, and the port's frame goes out (R275, R283). -/
def portFrame (s : State) (k dt : Nat) (axes : List Nat) : State :=
  let s := if axes.contains 0 then webFollow (throttleOver (takeJobSpeed s)) else s
  let s := axes.foldl (fun s n => axisPeriod (parkGo s n) n dt) s
  let s := (s.emit (.driveFrame k (driveFrame s k)))
  let s := s.twin (.setpoint k (s.drivePort k).period (setpointWords s k))
  (axes.foldl (fun s n => s.setAxis n { s.axis n with sent := setPoint s n, sentTo := some (k, s.ent (chAxis n) AxisE.drive) }) s).spend

/-- A qualified change of switch `k` reaches the axes that name it (R290 to R293). -/
def switchAxes (s : State) (k t0 : Nat) : State :=
  axes16.foldl (fun s n =>
    if !s.inUse (chAxis n) then s
    else
      let fb := s.ent (chAxis n) AxisE.fbInput
      let pos := if fb = 0xFF then histAt (s.axis n).wp (s.axis n).hist t0 else fbPosAt s fb t0
      if s.ent (chAxis n) AxisE.swHome = k then homeSwitch s n (homeActive s n) pos
      else if s.ent (chAxis n) AxisE.swLimNeg = k && limNegActive s n then limitSwitch s n (-1)
      else if s.ent (chAxis n) AxisE.swLimPos = k && limPosActive s n then limitSwitch s n 1
      else s) s

end Sys2Proof
end

