-- ==== Sys2Proof/WellFormed.lean ====
section
/-! DEFINITION. The operands a command can carry: what the fields of its encoding hold (Tables 3-4 and 3-10), and the numbers of the things
the manual counts (Table 0-4). A meaning is defined for every operand; a command that is not well-formed is one no sender can spell. -/

namespace Sys2Proof

/-- A general register, g0 to g31. -/
def isReg (n : Nat) : Bool := decide (n < 32)

/-- A vector register, v0 to v15. -/
def isVec (n : Nat) : Bool := decide (n < 16)

/-- A physical Scribe, or 16 for the Registrar. -/
def isEngineNo (n : Nat) : Bool := decide (n < 17)

/-- A field of `w` bits. -/
def inBits (w n : Nat) : Bool := decide (n < 2 ^ w)

/-- Bytes of a register access (R41). -/
def isSize (n : Nat) : Bool := n == 1 || n == 2 || n == 4 || n == 8

/-- A command as a sender can spell it. -/
def wellFormed : Instr → Bool
  | .registerWrite _ src _ size value => decide (src < 18) && isSize size && inBits 64 value
  | .rcRegisterRead _ src _ size => decide (src < 18) && isSize size
  | .catInvalidate _ channel => decide (channel < 4096)
  | .catInvalidateAll _ => true
  | .catalogFetchComplete _ channel => decide (channel < 4096)
  | .catLock _ => true
  | .ledgerSnapWrite _ => true
  | .ledgerSnapComplete _ => true
  | .ringProducerWrite _ ring index => decide (ring < 256) && inBits 32 index
  | .ringConsumerWrite _ ring index => decide (ring < 256) && inBits 32 index
  | .irqHoldoffExpiry _ ring => decide (ring < 256)
  | .powerReqWrite _ req => inBits 2 req
  | .powerStateReached _ => true
  | .epochSchedule _ target _ => inBits 4 target
  | .epochCancel _ => true
  | .epochInstant _ => true
  | .epochTimeout _ => true
  | .rollbackEpoch _ => true
  | .add p rd rs1 rs2 => isEngineNo p && isReg rd && isReg rs1 && isReg rs2
  | .sub p rd rs1 rs2 => isEngineNo p && isReg rd && isReg rs1 && isReg rs2
  | .andR p rd rs1 rs2 => isEngineNo p && isReg rd && isReg rs1 && isReg rs2
  | .orR p rd rs1 rs2 => isEngineNo p && isReg rd && isReg rs1 && isReg rs2
  | .xorR p rd rs1 rs2 => isEngineNo p && isReg rd && isReg rs1 && isReg rs2
  | .sll p rd rs1 rs2 => isEngineNo p && isReg rd && isReg rs1 && isReg rs2
  | .srl p rd rs1 rs2 => isEngineNo p && isReg rd && isReg rs1 && isReg rs2
  | .sra p rd rs1 rs2 => isEngineNo p && isReg rd && isReg rs1 && isReg rs2
  | .slt p rd rs1 rs2 => isEngineNo p && isReg rd && isReg rs1 && isReg rs2
  | .sltu p rd rs1 rs2 => isEngineNo p && isReg rd && isReg rs1 && isReg rs2
  | .mul p rd rs1 rs2 => isEngineNo p && isReg rd && isReg rs1 && isReg rs2
  | .mulh p rd rs1 rs2 => isEngineNo p && isReg rd && isReg rs1 && isReg rs2
  | .mulhu p rd rs1 rs2 => isEngineNo p && isReg rd && isReg rs1 && isReg rs2
  | .divu p rd rs1 rs2 => isEngineNo p && isReg rd && isReg rs1 && isReg rs2
  | .remu p rd rs1 rs2 => isEngineNo p && isReg rd && isReg rs1 && isReg rs2
  | .minS p rd rs1 rs2 => isEngineNo p && isReg rd && isReg rs1 && isReg rs2
  | .maxS p rd rs1 rs2 => isEngineNo p && isReg rd && isReg rs1 && isReg rs2
  | .minu p rd rs1 rs2 => isEngineNo p && isReg rd && isReg rs1 && isReg rs2
  | .maxu p rd rs1 rs2 => isEngineNo p && isReg rd && isReg rs1 && isReg rs2
  | .clz p rd rs1 => isEngineNo p && isReg rd && isReg rs1
  | .popc p rd rs1 => isEngineNo p && isReg rd && isReg rs1
  | .bfx p rd rs1 rs2 k => isEngineNo p && isReg rd && isReg rs1 && isReg rs2 && decide (0 < k) && inBits 6 k
  | .addi p rd rs1 imm => isEngineNo p && isReg rd && isReg rs1 && inBits 16 imm
  | .andi p rd rs1 imm => isEngineNo p && isReg rd && isReg rs1 && inBits 16 imm
  | .ori p rd rs1 imm => isEngineNo p && isReg rd && isReg rs1 && inBits 16 imm
  | .xori p rd rs1 imm => isEngineNo p && isReg rd && isReg rs1 && inBits 16 imm
  | .lui p rd imm => isEngineNo p && isReg rd && inBits 16 imm
  | .slti p rd rs1 imm => isEngineNo p && isReg rd && isReg rs1 && inBits 16 imm
  | .shi p rd rs1 imm => isEngineNo p && isReg rd && isReg rs1 && decide (imm < 256)
  | .lb p rt base win imm => isEngineNo p && isReg rt && isReg base && inBits 3 win && inBits 13 imm
  | .lh p rt base win imm => isEngineNo p && isReg rt && isReg base && inBits 3 win && inBits 13 imm
  | .lw p rt base win imm => isEngineNo p && isReg rt && isReg base && inBits 3 win && inBits 13 imm
  | .ld p rt base win imm => isEngineNo p && isReg rt && isReg base && inBits 3 win && inBits 13 imm
  | .lbu p rt base win imm => isEngineNo p && isReg rt && isReg base && inBits 3 win && inBits 13 imm
  | .lhu p rt base win imm => isEngineNo p && isReg rt && isReg base && inBits 3 win && inBits 13 imm
  | .lwu p rt base win imm => isEngineNo p && isReg rt && isReg base && inBits 3 win && inBits 13 imm
  | .sb p rt base win imm => isEngineNo p && isReg rt && isReg base && inBits 3 win && inBits 13 imm
  | .sh p rt base win imm => isEngineNo p && isReg rt && isReg base && inBits 3 win && inBits 13 imm
  | .sw p rt base win imm => isEngineNo p && isReg rt && isReg base && inBits 3 win && inBits 13 imm
  | .sd p rt base win imm => isEngineNo p && isReg rt && isReg base && inBits 3 win && inBits 13 imm
  | .amo p rt base win rs2 fn => isEngineNo p && isReg rt && isReg base && inBits 3 win && isReg rs2 && decide (fn < 4)
  | .beq p rs1 rs2 off => isEngineNo p && isReg rs1 && isReg rs2 && inBits 16 off
  | .bne p rs1 rs2 off => isEngineNo p && isReg rs1 && isReg rs2 && inBits 16 off
  | .blt p rs1 rs2 off => isEngineNo p && isReg rs1 && isReg rs2 && inBits 16 off
  | .bge p rs1 rs2 off => isEngineNo p && isReg rs1 && isReg rs2 && inBits 16 off
  | .bltu p rs1 rs2 off => isEngineNo p && isReg rs1 && isReg rs2 && inBits 16 off
  | .bgeu p rs1 rs2 off => isEngineNo p && isReg rs1 && isReg rs2 && inBits 16 off
  | .jal p off => isEngineNo p && inBits 26 off
  | .jalr p rd rs1 imm => isEngineNo p && isReg rd && isReg rs1 && inBits 16 imm
  | .ringPush p rd rs1 rs2 => isEngineNo p && isReg rd && isReg rs1 && isReg rs2
  | .ringPop p rd rs1 rs2 => isEngineNo p && isReg rd && isReg rs1 && isReg rs2
  | .ringDone p rd rs1 rs2 => isEngineNo p && isReg rd && isReg rs1 && isReg rs2
  | .ringStat p rd rs1 => isEngineNo p && isReg rd && isReg rs1
  | .ledgerSnap p rd => isEngineNo p && isReg rd
  | .ledgerSeq p rd => isEngineNo p && isReg rd
  | .ledgerRead p rd rs1 => isEngineNo p && isReg rd && isReg rs1
  | .ledgerLine p rd => isEngineNo p && isReg rd
  | .timeNow p rd => isEngineNo p && isReg rd
  | .timeWait p rs1 => isEngineNo p && isReg rs1
  | .timeWaitExpiry _ p slice => isEngineNo p && decide (slice < 32)
  | .timeCap p rd rs1 => isEngineNo p && isReg rd && isReg rs1
  | .timeCapn p rd rs1 => isEngineNo p && isReg rd && isReg rs1
  | .timeArm p rd rs1 rs2 => isEngineNo p && isReg rd && isReg rs1 && isReg rs2
  | .catInv p rs1 => isEngineNo p && isReg rs1
  | .catGen p rd rs1 => isEngineNo p && isReg rd && isReg rs1
  | .catAddr p rd rs1 => isEngineNo p && isReg rd && isReg rs1
  | .catWin p rd k => isEngineNo p && isReg rd && inBits 6 k
  | .catWsize p rd k => isEngineNo p && isReg rd && inBits 6 k
  | .linePage p rd rs1 rs2 => isEngineNo p && isReg rd && isReg rs1 && isReg rs2
  | .lineStat p rd k => isEngineNo p && isReg rd && inBits 6 k
  | .substSet p rd rs1 rs2 => isEngineNo p && isReg rd && isReg rs1 && isReg rs2
  | .substClr p rd rs1 rs2 => isEngineNo p && isReg rd && isReg rs1 && isReg rs2
  | .substGet p rd rs1 k => isEngineNo p && isReg rd && isReg rs1 && inBits 6 k
  | .statSeg p rd rs1 rs2 => isEngineNo p && isReg rd && isReg rs1 && isReg rs2
  | .statVcol p vd rs1 rs2 => isEngineNo p && isVec vd && isReg rs1 && isReg rs2
  | .statColframe p rd rs1 => isEngineNo p && isReg rd && isReg rs1
  | .statExpo p rd rs1 rs2 => isEngineNo p && isReg rd && isReg rs1 && isReg rs2
  | .statFrame p rd rs1 => isEngineNo p && isReg rd && isReg rs1
  | .syncInit p rs1 rs2 => isEngineNo p && isReg rs1 && isReg rs2
  | .syncArrive p rd rs1 => isEngineNo p && isReg rd && isReg rs1
  | .syncWait p rs1 rs2 => isEngineNo p && isReg rs1 && isReg rs2
  | .syncArm p rs1 rs2 => isEngineNo p && isReg rs1 && isReg rs2
  | .sysYield p => isEngineNo p
  | .sysEnd p => isEngineNo p
  | .sysFence p => isEngineNo p
  | .sysCsrr p rd c => isEngineNo p && isReg rd && inBits 11 c
  | .sysCsrw p rs1 c => isEngineNo p && isReg rs1 && inBits 11 c
  | .sysArm p rs1 => isEngineNo p && isReg rs1
  | .sysDisarm p rs1 => isEngineNo p && isReg rs1
  | .sysTrap p k => isEngineNo p && inBits 6 k
  | .sysStart p rs1 rs2 => isEngineNo p && isReg rs1 && isReg rs2
  | .sysHalt p rs1 => isEngineNo p && isReg rs1
  | .vadd p vd vs1 vs2 => isEngineNo p && isVec vd && isVec vs1 && isVec vs2
  | .vsub p vd vs1 vs2 => isEngineNo p && isVec vd && isVec vs1 && isVec vs2
  | .vadds p vd vs1 vs2 => isEngineNo p && isVec vd && isVec vs1 && isVec vs2
  | .vsubs p vd vs1 vs2 => isEngineNo p && isVec vd && isVec vs1 && isVec vs2
  | .vaddus p vd vs1 vs2 => isEngineNo p && isVec vd && isVec vs1 && isVec vs2
  | .vsubus p vd vs1 vs2 => isEngineNo p && isVec vd && isVec vs1 && isVec vs2
  | .vmul p vd vs1 vs2 => isEngineNo p && isVec vd && isVec vs1 && isVec vs2
  | .vmulh p vd vs1 vs2 => isEngineNo p && isVec vd && isVec vs1 && isVec vs2
  | .vmulq p vd vs1 vs2 => isEngineNo p && isVec vd && isVec vs1 && isVec vs2
  | .vmin p vd vs1 vs2 => isEngineNo p && isVec vd && isVec vs1 && isVec vs2
  | .vmax p vd vs1 vs2 => isEngineNo p && isVec vd && isVec vs1 && isVec vs2
  | .vminu p vd vs1 vs2 => isEngineNo p && isVec vd && isVec vs1 && isVec vs2
  | .vmaxu p vd vs1 vs2 => isEngineNo p && isVec vd && isVec vs1 && isVec vs2
  | .vabsdu p vd vs1 vs2 => isEngineNo p && isVec vd && isVec vs1 && isVec vs2
  | .vand p vd vs1 vs2 => isEngineNo p && isVec vd && isVec vs1 && isVec vs2
  | .vor p vd vs1 vs2 => isEngineNo p && isVec vd && isVec vs1 && isVec vs2
  | .vxor p vd vs1 vs2 => isEngineNo p && isVec vd && isVec vs1 && isVec vs2
  | .vshl p vd vs1 k => isEngineNo p && isVec vd && isVec vs1 && decide (k < 16)
  | .vsrl p vd vs1 k => isEngineNo p && isVec vd && isVec vs1 && decide (k < 16)
  | .vsra p vd vs1 k => isEngineNo p && isVec vd && isVec vs1 && decide (k < 16)
  | .vcgt p vd vs1 vs2 => isEngineNo p && isVec vd && isVec vs1 && isVec vs2
  | .vcgtu p vd vs1 vs2 => isEngineNo p && isVec vd && isVec vs1 && isVec vs2
  | .vceq p vd vs1 vs2 => isEngineNo p && isVec vd && isVec vs1 && isVec vs2
  | .vsel p vd vs1 vs2 => isEngineNo p && isVec vd && isVec vs1 && isVec vs2
  | .vema p vd vs1 k => isEngineNo p && isVec vd && isVec vs1 && decide (k < 16)
  | .vsplat p vd rs1 => isEngineNo p && isVec vd && isReg rs1
  | .vextu p rd vs1 k => isEngineNo p && isReg rd && isVec vs1 && decide (k < 16)
  | .vins p vd rs1 k => isEngineNo p && isVec vd && isReg rs1 && decide (k < 16)
  | .vredadd p rd vs1 => isEngineNo p && isReg rd && isVec vs1
  | .vany p rd vs1 => isEngineNo p && isReg rd && isVec vs1
  | .vld p vt base win imm => isEngineNo p && isVec vt && isReg base && inBits 3 win && inBits 13 imm
  | .vst p vt base win imm => isEngineNo p && isVec vt && isReg base && inBits 3 win && inBits 13 imm
  | .sliceMaxExceeded _ p => isEngineNo p
  | .sliceUrgencyRise _ p => isEngineNo p
  | .scribeRestart _ logical => decide (logical < 16)
  | .scribeRestartComplete _ logical => decide (logical < 16)
  | .scribeSubstituteComplete _ phys => decide (phys < 16)
  | .copyIn _ ring => decide (ring < 256)
  | .copyInComplete _ ring => decide (ring < 256)
  | .put32 _ ring => decide (ring < 256)
  | .readyBandsPoll _ => true
  | .lineAccept _ => true
  | .lineDecode _ plane row _ => decide (plane < 16) && decide (row < 6)
  | .vjobWrite _ _ => true
  | .rewindDwellExpiry _ => true
  | .keepopenTimeout _ slot => decide (slot < 80)
  | .holdOpenExpiry _ => true
  | .startOfScan _ slot => decide (slot < 80)
  | .referenceStartOfScan _ => true
  | .sosMissing _ => true
  | .dataDeadlineExpiry _ slot => decide (slot < 80)
  | .dataFrameSend _ slot _ => decide (slot < 80)
  | .credit _ lane word => decide (lane < 48) && inBits 66 word
  | .lineOk _ lane word => decide (lane < 48) && inBits 66 word
  | .lineNak _ lane word => decide (lane < 48) && inBits 66 word
  | .relAck _ lane word => decide (lane < 48) && inBits 66 word
  | .relAckTimeout _ slot => decide (slot < 80)
  | .tempSet _ lane word => decide (lane < 48) && inBits 66 word
  | .statusSet _ lane word => decide (lane < 48) && inBits 66 word
  | .heartbeat _ => true
  | .tempTimeout _ slot => decide (slot < 80)
  | .decapLapse _ slot => decide (slot < 80)
  | .waveCommit _ slot => decide (slot < 80)
  | .authStart _ slot => decide (slot < 80)
  | .cert _ slot _ => decide (slot < 80)
  | .usageNow _ slot _ _ _ => decide (slot < 80)
  | .usageAdd _ slot => decide (slot < 80)
  | .authTimeout _ slot => decide (slot < 80)
  | .authRetry _ slot => decide (slot < 80)
  | .authGraceExpiry _ slot => decide (slot < 80)
  | .cameraPortTrainComplete _ port _ => decide (port < 16)
  | .cameraLinkFail _ port _ => decide (port < 16)
  | .csi2Packet _ port vc _ _ _ _ => decide (port < 16) && decide (vc < 32)
  | .cameraLineReceive _ port vc => decide (port < 16) && decide (vc < 32)
  | .groupTrigger _ grp => decide (grp < 4)
  | .triggerLineLost _ pipe => decide (pipe < 16)
  | .frameEnd _ pipe _ _ _ => decide (pipe < 16)
  | .groupRunWrite _ grp value => decide (grp < 4) && inBits 32 value
  | .accumulatorComplete _ plane => decide (plane < 16)
  | .expoGo _ => true
  | .expoCommitCheck _ pipe _ => decide (pipe < 16)
  | .pipelineTestTimer _ pipe _ => decide (pipe < 16)
  | .healthPass _ plane => decide (plane < 16)
  | .nozRetire _ nozzle => inBits 23 nozzle
  | .nozRestore _ nozzle => inBits 23 nozzle
  | .nozRestorePlane _ plane => decide (plane < 16)
  | .cuSwapRequest _ => true
  | .densityUpdate _ plane => decide (plane < 16)
  | .registrationWindow _ grp _ _ => decide (grp < 4)
  | .xshiftApply _ plane => decide (plane < 16)
  | .recalRequest _ cls unit => inBits 3 cls && inBits 8 unit
  | .recalAgeExpiry _ cls _ => decide (cls < 4)
  | .recalStart _ _ => true
  | .recalComplete _ _ _ _ _ _ => true
  | .converterSwap _ input _ => decide (input < 8)
  | .xrefCheck _ _ => true
  | .moveAbs _ => true
  | .moveRel _ => true
  | .velocity _ => true
  | .stop _ => true
  | .home _ => true
  | .enable _ => true
  | .disable _ => true
  | .servoPeriod _ port => decide (port < 4)
  | .driveLinkFrameReceive _ port _ => decide (port < 4)
  | .driveLinkUp _ port _ _ => decide (port < 4)
  | .holdDelayExpiry _ axis => decide (axis < 16)
  | .switchQualify _ sw _ _ => decide (sw < 48)
  | .latchHoldoffExpiry _ axis => decide (axis < 16)
  | .feedbackPositionUpdate _ input _ _ => decide (input < 8)
  | .ssiReading _ input _ _ => decide (input < 8)
  | .indexEdge _ input => decide (input < 8)
  | .speedZeroTimeout _ input => decide (input < 8)
  | .emulatorEdge _ emu => decide (emu < 4)
  | .timeNowLatch _ reader => decide (reader < 18)
  | .timeCapLatch _ reader => decide (reader < 18)
  | .ptpAnnounceReceive _ port domain _ _ _ _ _ _ _ => decide (port < 2) && inBits 8 domain
  | .ptpSyncReceive _ port domain _ _ => decide (port < 2) && inBits 8 domain
  | .ptpDelayRespReceive _ port _ _ _ => decide (port < 2)
  | .ptpDelayReqSend _ => true
  | .ptpMasterSend _ _ => true
  | .ptpTransparentForward _ _ port _ _ _ _ => decide (port < 2)
  | .announceTimeout _ => true
  | .traceHoldExpiry _ => true
  | .ppsOutEdge _ => true
  | .ppsInEdge _ => true
  | .timeSet _ => true
  | .timeSetAtPps _ => true
  | .timeTriggerFire _ trig => decide (trig < 64)
  | .neighborSend _ port => decide (port < 2)
  | .neighborReceive _ port _ _ => decide (port < 2)
  | .neighborMiss _ port => decide (port < 2)
  | .nodeLearnTimeout _ => true
  | .ringFrameReceive _ port _ => decide (port < 2)
  | .ringLinkLoss _ port => decide (port < 2)
  | .stacksRequest _ port _ _ _ _ _ => decide (port < 9)
  | .stacksUrgencyRise _ => true
  | .stacksRequestServed _ pc ecc => decide (pc < 64) && (List.range (ecc.log2 / 8 + 1)).all (fun j => decide (ecc / 256 ^ j % 256 < 144))
  | .bankRefresh _ pc bank => decide (pc < 64) && decide (bank < 48)
  | .stackTempRead _ stack _ => decide (stack < 2)
  | .hbmParityError _ _ port _ _ _ => decide (port < 9)
  | .hbmReadTimeout _ port _ _ => decide (port < 9)
  | .scrubRead _ ecc => decide (ecc < 148)
  | .rowRepair _ => true
  | .repairRecordWrite _ => true
  | .retrainWindow _ pc rd wr => decide (pc < 64) && inBits 8 rd && inBits 8 wr
  | .freezeEntry _ _ port _ _ => decide (port < 9)
  | .freezeWithholdExpiry _ => true
  | .rrRotation _ => true
  | .rrBankTestComplete _ _ => true
  | .binderyCompress _ unit => decide (unit < 16)
  | .binderyDecompress _ unit => decide (unit < 16)
  | .binderyBlockWrite _ unit _ _ _ => decide (unit < 16)
  | .binderyJobComplete _ unit => decide (unit < 16)
  | .laneBringupStart _ lane => decide (lane < 52)
  | .laneReady _ lane _ _ _ => decide (lane < 52)
  | .blockLockLoss _ lane => decide (lane < 52)
  | .laneSwitchShiftComplete _ => true
  | .laneMove _ lane => inBits 6 lane
  | .laneRetire _ lane => inBits 6 lane
  | .laneRestore _ lane => inBits 6 lane
  | .laneSwitchVerifyTimeout _ => true
  | .prbsInjectOnce _ lane => decide (lane < 52)
  | .prbsInjectPeriodic _ lane => decide (lane < 52)
  | .eyeMeasurement _ lane _ _ => decide (lane < 52)
  | .reloadEnd _ => true
  | .secondaryWaitExpiry _ => true
  | .twinHb _ lane word _ => decide (lane < 52) && inBits 66 word
  | .twinHbSend _ => true
  | .twinCredit _ lane word => decide (lane < 52) && inBits 66 word
  | .twinAck _ lane word => decide (lane < 52) && inBits 66 word
  | .twinNak _ lane word => decide (lane < 52) && inBits 66 word
  | .twinFail _ lane word => decide (lane < 52) && inBits 66 word
  | .twinHbTimeout _ => true
  | .twinRecordReceive _ lane _ _ _ => decide (lane < 52)
  | .stacksWrite _ _ _ => true
  | .pageRec _ _ _ _ _ => true
  | .substRec _ _ nozzle spare _ => decide (nozzle < 5242880) && decide (spare < 5242880)
  | .bankRec _ plane _ _ _ => decide (plane < 16)
  | .entryRec _ _ _ => true
  | .setpointRec _ port _ _ => decide (port < 4)
  | .modeRec _ _ _ _ _ _ => true
  | .healthRec _ _ => true
  | .handoverRec _ _ _ _ => true
  | .syncMark _ _ => true
  | .healthSend _ => true
  | .resyncComplete _ _ _ => true
  | .shadowLineTimeout _ slot => decide (slot < 80)
  | .switchover _ => true
  | .handoverReport _ => true
  | .pairYieldPage _ => true
  | .pairYieldNow _ => true
  | .pairResync _ => true
  | .handoverSend _ => true
  | .handoverInstant _ => true
  | .handoverTake _ => true
  | .wtrExpiry _ => true
  | .sensorConversion _ sensor _ => decide (sensor < 48)
  | .sensorConversionTimeout _ sensor => decide (sensor < 48)
  | .thermalSweep _ raws => decide (raws.length = 48)
  | .hardwareTrip _ _ => true
  | .sensorRestore _ sensor => decide (sensor < 48)
  | .flashOkRestore _ => true
  | .limLock _ => true
  | .tlimLock _ => true
  | .cfgLock _ => true
  | .coldStart _ => true
  | .rstNAssert _ => true
  | .lxReset _ _ => true
  | .pePerstAssert _ => true
  | .watchdogExpiry _ => true
  | .warmResetAckWaitExpiry _ => true
  | .setSave _ => true
  | .setWrite _ => true
  | .setClear _ => true
  | .settingsWriteComplete _ => true
  | .updLoad _ => true
  | .updArm _ => true
  | .updDisarm _ => true
  | .updConfirm _ => true
  | .updForward _ _ => true
  | .updAbort _ => true
  | .armComplete _ => true
  | .imgOffer _ port _ _ => decide (port < 2)
  | .imgData _ port _ block seg _ => decide (port < 2) && inBits 16 block && inBits 8 seg
  | .imgAck _ port _ _ _ block _ => decide (port < 2) && inBits 16 block
  | .imgAckTimeout _ port => decide (port < 2)
  | .imageVerifyComplete _ => true
  | .stagingWriteComplete _ _ => true
  | .levels _ port _ _ => decide (port < 2)
  | .levelsSend _ port => decide (port < 2)
  | .twinLevel _ lane word => decide (lane < 52) && inBits 66 word
  | .twinLevelSend _ => true
  | .imageConfirm _ => true
  | .confirmWindowExpiry _ => true
  | .gpRunStart _ value => inBits 32 value
  | .gpRunStop _ value => inBits 32 value
  | .gpDmaGo _ => true
  | .gpIntStatRead _ => true
  | .gpUnlock _ _ => true
  | .supplyExcursion _ rail _ => decide (rail < 10)
  | .supplyOutOfRange _ rail => decide (rail < 10)
  | .illegalInstruction p _ => isEngineNo p
  | .ringLinkUp _ port => decide (port < 2)
  | .ptpDelayReqReceive _ port _ _ => decide (port < 2)
  | .laneMoveReleaseWaitExpiry _ => true
  | .twinAckSend _ => true
  | .activeHeartbeatWaitExpiry _ => true
  | .catalogWindowWrite _ off value => inBits 19 off && inBits 32 value
  | .prbsErrorLimit _ lane _ => decide (lane < 52)
  | .prbsCheckerSync _ lane => decide (lane < 52)
  | .imgDataSend _ port => decide (port < 2)

end Sys2Proof
end

