-- ==== Sys2Proof/Certificates/Slice0/Obligations.lean ====
section
/-! DEFINITION. The statements for the provers: what each family of commands does, what it leaves alone, and what every step keeps. -/

open Sys2Proof Sys2Proof.Machine

/-- A step runs the command at the front of the queue. With command c at the front of the queue, step is exec of c on the state with the rest of the queue; with an empty queue the block idles and the state is unchanged (the model's choice, log 1). -/
def Obligations.StepRunsFront : Prop :=
  (∀ (s : State) (c : Instr) (rest : List Instr), s.pending = c :: rest → step s = exec c { s with pending := rest }) ∧
  (∀ s : State, s.pending = [] → step s = .next s)

/-- Every step keeps the state sound. From every state whose memory and whose tables of registers, engines and rings are in their canonical form, a step that answers a next state answers one of the same kind. The form is the model's own (log 9, log 12). -/
def Obligations.StepKeepsSound : Prop :=
  ∀ s t : State, Sound s → step s = .next t → Sound t

/-- A step takes one command and never runs time or output back. A step from a state with c at the front of the queue that answers a next state leaves exactly the rest of the queue; the clock does not run back, and what the device has sent stays sent, as the older part of what it has sent after the step. -/
def Obligations.StepConsumes : Prop :=
  ∀ (s t : State) (c : Instr) (rest : List Instr), s.pending = c :: rest → step s = .next t →
    t.pending = rest ∧ s.clk ≤ t.clk ∧ s.freeN ≤ t.freeN ∧ s.out <:+ t.out

/-- A command stops only for an engine that does not exist. A command that names no engine, or an engine of 0 to 16, answers a next state in every state of the machine; one that names another engine stops with the fault noSuchEngine (the model's own fault, log 5). No command is refused. -/
def Obligations.OnlyEngineNumberStops : Prop :=
  ∀ (i : Instr) (s : State),
    ((∀ p, engineOf i = some p → p ≤ 16) → ∃ t, exec i s = .next t) ∧
    (∀ p, engineOf i = some p → 16 < p → exec i s = .fault .noSuchEngine)

/-- The state after reset is sound and has nothing waiting. State.reset has canonical memory with nothing listed, canonical tables, an empty queue and nothing sent. The form of memory and its zeros are the model's choice (log 9, log 10). -/
def Obligations.ResetIsSound : Prop :=
  Sound State.reset ∧ State.reset.mem = [] ∧ State.reset.pending = [] ∧ State.reset.out = []

/-- Register values after cold start. After reset the registers of the maps hold the values their After cold start columns give: device identity 0x5240, mode COLD, epoch_timeout 10,000 µs, watermarks 3,000, 1,500 and 300 µs, horizon 16 lines, miss_mult 4, the limits of the heads and of the die, the watchdog's 1,000 ms, the confirmation's 600 s, and every logical lane on its home lane. -/
def Obligations.ResetRegisters : Prop :=
  State.reset.rd Reg.LX_IDENT.part = 0x5240 ∧ State.reset.mode = modeCold ∧
  State.reset.rd Reg.EPOCH_TIMEOUT.epoch_timeout = 10000 ∧
  State.reset.rd Reg.LA_WM_GREEN.wm_green = 3000 ∧ State.reset.rd Reg.LA_WM_AMBER.wm_amber = 1500 ∧ State.reset.rd Reg.LA_WM_RED.wm_red = 300 ∧
  State.reset.rd Reg.LA_HORIZON.horizon = 16 ∧ State.reset.rd Reg.FS_SOS_CHECK.miss_mult = 4 ∧
  State.reset.rd Reg.FS_LIMITS.tmin_floor = 10 ∧ State.reset.rd Reg.FS_LIMITS.tmax_ceil = 60 ∧ State.reset.rd Reg.FS_LIMITS.lim_lock = 1 ∧
  State.reset.rd Reg.CL_HEALTH_CFG.h_fail = 3000 ∧ State.reset.rd Reg.CL_HEALTH_CFG.n_confirm = 3 ∧
  State.reset.rd Reg.THERM_LIMITS.tj_limit = 110 ∧ State.reset.rd Reg.THERM_LIMITS.tj_warn = 100 ∧
  State.reset.rd Reg.WDOG.wdog_ms = 1000 ∧ State.reset.rd Reg.UPD_CONFIRM.confirm_s = 600 ∧
  (∀ l, l < 40 → State.reset.rd Reg.LANE_MAP.phys l = l / 5 * 6 + l % 5)

/-- Register arithmetic of Table 3-6. ADD, SUB, AND, OR, XOR, SLL, SRL, SRA, SLT, SLTU, MUL, MULH and MULHU: rd takes the result of rs1 and rs2 as Table 3-6 gives it, the upper halves of the products from 128-bit products, and a write of g0 is discarded. Nothing else changes but the pc, which passes to the next instruction. -/
def Obligations.FolioArithmetic : Prop :=
  ∀ (s : State) (p rd rs1 rs2 : Nat), Runs s p →
    Ends (exec (.add p rd rs1 rs2) s) (fun t => GWrites s t p rd ((s.gget p rs1) + (s.gget p rs2))) ∧
    Ends (exec (.sub p rd rs1 rs2) s) (fun t => GWrites s t p rd ((s.gget p rs1) - (s.gget p rs2))) ∧
    Ends (exec (.andR p rd rs1 rs2) s) (fun t => GWrites s t p rd ((s.gget p rs1) &&& (s.gget p rs2))) ∧
    Ends (exec (.orR p rd rs1 rs2) s) (fun t => GWrites s t p rd ((s.gget p rs1) ||| (s.gget p rs2))) ∧
    Ends (exec (.xorR p rd rs1 rs2) s) (fun t => GWrites s t p rd ((s.gget p rs1) ^^^ (s.gget p rs2))) ∧
    Ends (exec (.sll p rd rs1 rs2) s) (fun t => GWrites s t p rd ((s.gget p rs1) <<< ((s.gget p rs2).toNat % 64))) ∧
    Ends (exec (.srl p rd rs1 rs2) s) (fun t => GWrites s t p rd ((s.gget p rs1) >>> ((s.gget p rs2).toNat % 64))) ∧
    Ends (exec (.sra p rd rs1 rs2) s) (fun t => GWrites s t p rd ((s.gget p rs1).sshiftRight ((s.gget p rs2).toNat % 64))) ∧
    Ends (exec (.slt p rd rs1 rs2) s) (fun t => GWrites s t p rd (if (s.gget p rs1).toInt < (s.gget p rs2).toInt then 1 else 0)) ∧
    Ends (exec (.sltu p rd rs1 rs2) s) (fun t => GWrites s t p rd (if (s.gget p rs1).toNat < (s.gget p rs2).toNat then 1 else 0)) ∧
    Ends (exec (.mul p rd rs1 rs2) s) (fun t => GWrites s t p rd ((s.gget p rs1) * (s.gget p rs2))) ∧
    Ends (exec (.mulh p rd rs1 rs2) s) (fun t => GWrites s t p rd (((s.gget p rs1).signExtend 128 * (s.gget p rs2).signExtend 128).extractLsb' 64 64)) ∧
    Ends (exec (.mulhu p rd rs1 rs2) s) (fun t => GWrites s t p rd (((s.gget p rs1).zeroExtend 128 * (s.gget p rs2).zeroExtend 128).extractLsb' 64 64))

/-- Division, selection, counting and bit fields of Table 3-6. DIVU and REMU are the truncated quotient and remainder, all ones and rs1 for a divisor of 0; MIN, MAX, MINU and MAXU select the lesser or greater; CLZ gives the number of leading zero bits, 64 for 0; POPC the number of one bits; BFX, for a width k of 1 to 63, the k bits of rs1 from bit rs2[5:0] on. Nothing else changes but the pc. -/
def Obligations.FolioDivideSelectCount : Prop :=
  ∀ (s : State) (p rd rs1 rs2 k : Nat), Runs s p →
    Ends (exec (.divu p rd rs1 rs2) s) (fun t => GWrites s t p rd (if (s.gget p rs2) = 0 then BitVec.allOnes 64 else BitVec.ofNat 64 ((s.gget p rs1).toNat / (s.gget p rs2).toNat))) ∧
    Ends (exec (.remu p rd rs1 rs2) s) (fun t => GWrites s t p rd (if (s.gget p rs2) = 0 then (s.gget p rs1) else BitVec.ofNat 64 ((s.gget p rs1).toNat % (s.gget p rs2).toNat))) ∧
    Ends (exec (.minS p rd rs1 rs2) s) (fun t => GWrites s t p rd (if (s.gget p rs1).toInt ≤ (s.gget p rs2).toInt then (s.gget p rs1) else (s.gget p rs2))) ∧
    Ends (exec (.maxS p rd rs1 rs2) s) (fun t => GWrites s t p rd (if (s.gget p rs1).toInt ≤ (s.gget p rs2).toInt then (s.gget p rs2) else (s.gget p rs1))) ∧
    Ends (exec (.minu p rd rs1 rs2) s) (fun t => GWrites s t p rd (if (s.gget p rs1).toNat ≤ (s.gget p rs2).toNat then (s.gget p rs1) else (s.gget p rs2))) ∧
    Ends (exec (.maxu p rd rs1 rs2) s) (fun t => GWrites s t p rd (if (s.gget p rs1).toNat ≤ (s.gget p rs2).toNat then (s.gget p rs2) else (s.gget p rs1))) ∧
    Ends (exec (.clz p rd rs1) s) (fun t => ∃ z : Nat, GWrites s t p rd (BitVec.ofNat 64 z) ∧ z ≤ 64 ∧ (s.gget p rs1).toNat < 2 ^ (64 - z) ∧ (z < 64 → 2 ^ (63 - z) ≤ (s.gget p rs1).toNat)) ∧
    Ends (exec (.popc p rd rs1) s) (fun t => GWrites s t p rd (BitVec.ofNat 64 ((List.range 64).countP (fun i => (s.gget p rs1).getLsbD i)))) ∧
    (1 ≤ k → k ≤ 63 → Ends (exec (.bfx p rd rs1 rs2 k) s) (fun t => GWrites s t p rd (BitVec.ofNat 64 ((s.gget p rs1).toNat / 2 ^ ((s.gget p rs2).toNat % 64) % 2 ^ k))))

/-- Immediate instructions. ADDI and SLTI sign-extend imm16, ANDI, ORI and XORI zero-extend it, LUI sets rd to the sign extension of imm16 × 65,536, and SHI, with imm16[15:8] 0, shifts rs1 by imm16[5:0]: left, right with zero fill, right with sign fill, or rotates it right, as imm16[7:6] selects. imm16 is any 16-bit field. Nothing else changes but the pc. -/
def Obligations.FolioImmediates : Prop :=
  ∀ (s : State) (p rd rs1 imm : Nat), Runs s p → imm < 65536 →
    Ends (exec (.addi p rd rs1 imm) s) (fun t => GWrites s t p rd ((s.gget p rs1) + (BitVec.ofNat 16 imm).signExtend 64)) ∧
    Ends (exec (.slti p rd rs1 imm) s) (fun t => GWrites s t p rd (if (s.gget p rs1).toInt < (BitVec.ofNat 16 imm).toInt then 1 else 0)) ∧
    Ends (exec (.andi p rd rs1 imm) s) (fun t => GWrites s t p rd ((s.gget p rs1) &&& BitVec.ofNat 64 imm)) ∧
    Ends (exec (.ori p rd rs1 imm) s) (fun t => GWrites s t p rd ((s.gget p rs1) ||| BitVec.ofNat 64 imm)) ∧
    Ends (exec (.xori p rd rs1 imm) s) (fun t => GWrites s t p rd ((s.gget p rs1) ^^^ BitVec.ofNat 64 imm)) ∧
    Ends (exec (.lui p rd imm) s) (fun t => GWrites s t p rd ((BitVec.ofNat 32 (imm * 65536)).signExtend 64)) ∧
    (∀ n, n < 64 → imm = n → Ends (exec (.shi p rd rs1 imm) s) (fun t => GWrites s t p rd ((s.gget p rs1) <<< n))) ∧
    (∀ n, n < 64 → imm = 64 + n → Ends (exec (.shi p rd rs1 imm) s) (fun t => GWrites s t p rd ((s.gget p rs1) >>> n))) ∧
    (∀ n, n < 64 → imm = 128 + n → Ends (exec (.shi p rd rs1 imm) s) (fun t => GWrites s t p rd ((s.gget p rs1).sshiftRight n))) ∧
    (∀ n, n < 64 → imm = 192 + n → Ends (exec (.shi p rd rs1 imm) s) (fun t => GWrites s t p rd (((s.gget p rs1) >>> n) ||| ((s.gget p rs1) <<< (64 - n)))))

/-- Loads from the local memory. Through w0, at an aligned offset o below the end of the fault records, LB, LH, LW and LD load 1, 2, 4 and 8 bytes of the engine's own memory, the first byte least significant, and sign-extend them; LBU, LHU and LWU zero-extend them. The offset is the base register plus the sign-extended imm13. Memory and every register but rt are as before. -/
def Obligations.FolioLoadsLocal : Prop :=
  ∀ (s : State) (p rt base imm o : Nat), Runs s p → o = (s.gget p base + (BitVec.ofNat 13 imm).signExtend 64).toNat → o < faultBase p + 0x400 →
    Ends (exec (.lb p rt base 0 imm) s) (fun t => GWrites s t p rt ((Mem.get s.mem (localBase p + o)).signExtend 64)) ∧
    Ends (exec (.lbu p rt base 0 imm) s) (fun t => GWrites s t p rt ((Mem.get s.mem (localBase p + o)).zeroExtend 64)) ∧
    (o % 2 = 0 → Ends (exec (.lh p rt base 0 imm) s) (fun t => GWrites s t p rt ((word16 s (localBase p + o)).signExtend 64)) ∧ Ends (exec (.lhu p rt base 0 imm) s) (fun t => GWrites s t p rt ((word16 s (localBase p + o)).zeroExtend 64))) ∧
    (o % 4 = 0 → Ends (exec (.lw p rt base 0 imm) s) (fun t => GWrites s t p rt ((word32 s (localBase p + o)).signExtend 64)) ∧ Ends (exec (.lwu p rt base 0 imm) s) (fun t => GWrites s t p rt ((word32 s (localBase p + o)).zeroExtend 64))) ∧
    (o % 8 = 0 → Ends (exec (.ld p rt base 0 imm) s) (fun t => GWrites s t p rt (word64 s (localBase p + o))))

/-- Stores to the local memory, and where they reach. Through w0, at an aligned offset o of the program area, SB, SH, SW and SD store the low 1, 2, 4 and 8 bytes of rt at o, least significant first, and every other byte of memory is as before; outside the program area (and, for the Registrar, its slice table) a store changes nothing. Registers change in neither case but for the pc. That the Registrar's stores reach its slice table is the model's reading (log 50). -/
def Obligations.FolioStoresLocal : Prop :=
  ∀ (s : State) (p rt base imm o : Nat), Runs s p → o = (s.gget p base + (BitVec.ofNat 13 imm).signExtend 64).toNat →
    (o + 8 ≤ contextBase p →
      Ends (exec (.sb p rt base 0 imm) s) (fun t => Stores s t p (localBase p + o) 1 (s.gget p rt).toNat) ∧ (o % 2 = 0 → Ends (exec (.sh p rt base 0 imm) s) (fun t => Stores s t p (localBase p + o) 2 (s.gget p rt).toNat)) ∧ (o % 4 = 0 → Ends (exec (.sw p rt base 0 imm) s) (fun t => Stores s t p (localBase p + o) 4 (s.gget p rt).toNat)) ∧ (o % 8 = 0 → Ends (exec (.sd p rt base 0 imm) s) (fun t => Stores s t p (localBase p + o) 8 (s.gget p rt).toNat))) ∧
    (contextBase p ≤ o → (p = registrar → o < sliceTable p ∨ sliceTable p + 0x400 ≤ o) →
      Ends (exec (.sb p rt base 0 imm) s) (fun t => Jumps s t p (s.pcOf p + 4)) ∧ (o % 2 = 0 → Ends (exec (.sh p rt base 0 imm) s) (fun t => Jumps s t p (s.pcOf p + 4))) ∧ (o % 4 = 0 → Ends (exec (.sw p rt base 0 imm) s) (fun t => Jumps s t p (s.pcOf p + 4))) ∧ (o % 8 = 0 → Ends (exec (.sd p rt base 0 imm) s) (fun t => Jumps s t p (s.pcOf p + 4))))

/-- Windows: closed ones read zero and take nothing, open ones reach the Stacks. Through window w, 1 to 7, an aligned access of n bytes at offset o outside the window, through a window of size 0 or without the right it needs, loads 0 and stores nothing. A load inside a readable window onto the Stacks takes the n bytes at base + o, zero while the Stacks are frozen; a store inside a writable one leaves every byte of memory outside those n as before. -/
def Obligations.FolioWindows : Prop :=
  ∀ (s : State) (p rt base imm w o : Nat), Runs s p → 1 ≤ w → w ≤ 7 → o = s.offset p base imm → o % 8 = 0 →
    (((s.window p w).holds o 8 && (s.window p w).rd) = false →
      Ends (exec (.ld p rt base w imm) s) (fun t => GWrites s t p rt 0)) ∧
    (((s.window p w).holds o 8 && (s.window p w).wr) = false →
      Ends (exec (.sd p rt base w imm) s) (fun t => Jumps s t p (s.pcOf p + 4))) ∧
    ((s.window p w).log2 ≠ 0 → o + 8 ≤ 2 ^ (s.window p w).log2 → (s.window p w).base + o + 8 ≤ stacksSize →
      (bit (s.window p w).rights 0 = true →
        Ends (exec (.ld p rt base w imm) s) (fun t => GWrites s t p rt (if s.frozen then 0 else word64 s ((s.window p w).base + o)))) ∧
      (bit (s.window p w).rights 1 = true →
        Ends (exec (.sd p rt base w imm) s) (fun t => t.regs = s.regs ∧ t.engines = (passed s p).engines ∧ ∀ x, (x < (s.window p w).base + o ∨ (s.window p w).base + o + 8 ≤ x) → Mem.get t.mem x = Mem.get s.mem x)))

/-- A misaligned access raises fault 0x03, before the window is looked at. A load, store, VLD, VST or AMO whose effective offset is not a multiple of its size ends in fault 0x03 with that offset, whatever the window: the instruction itself has no effect and the state is that of the fault. -/
def Obligations.FolioMisaligned : Prop :=
  ∀ (s : State) (p rt base w imm o : Nat), Runs s p → o = s.offset p base imm →
    (o % 2 ≠ 0 → exec (.lh p rt base w imm) s = .next (folioFault s p 3 (wordM 9 rt base w imm) o)) ∧
    (o % 4 ≠ 0 → exec (.lw p rt base w imm) s = .next (folioFault s p 3 (wordM 10 rt base w imm) o)) ∧
    (o % 8 ≠ 0 → exec (.ld p rt base w imm) s = .next (folioFault s p 3 (wordM 11 rt base w imm) o)) ∧
    (o % 2 ≠ 0 → exec (.lhu p rt base w imm) s = .next (folioFault s p 3 (wordM 13 rt base w imm) o)) ∧
    (o % 4 ≠ 0 → exec (.lwu p rt base w imm) s = .next (folioFault s p 3 (wordM 14 rt base w imm) o)) ∧
    (o % 2 ≠ 0 → exec (.sh p rt base w imm) s = .next (folioFault s p 3 (wordM 17 rt base w imm) o)) ∧
    (o % 4 ≠ 0 → exec (.sw p rt base w imm) s = .next (folioFault s p 3 (wordM 18 rt base w imm) o)) ∧
    (o % 8 ≠ 0 → exec (.sd p rt base w imm) s = .next (folioFault s p 3 (wordM 19 rt base w imm) o)) ∧
    (o % 32 ≠ 0 → rt % 32 < 16 → exec (.vld p rt base w imm) s = .next (folioFault s p 3 (wordM 0x29 rt base w imm) o) ∧
      exec (.vst p rt base w imm) s = .next (folioFault s p 3 (wordM 0x2A rt base w imm) o)) ∧
    (∀ rs2 fn, fn % 8 < 4 → s.offset p base 0 % 8 ≠ 0 →
      exec (.amo p rt base w rs2 fn) s = .next (folioFault s p 3 (wordM 0x14 rt base w (amoImm rs2 fn)) (s.offset p base 0)))

/-- What a fault of a Scribe leaves. A fault of a Scribe that runs slice i, with fewer faults in the last second than its limit: the slice is disabled in its table and the record of Table 3-13 lies at fault record (faults so far mod 16): device time, pc, instruction word, cause, slice, logical and physical number, and the offset; the event 0x0101 is posted with cause, slice, logical number and pc, and the run ends. The registers of the Scribe count it and hold its cause. A fault of the Registrar starts a warm reset. -/
def Obligations.FolioFaultRecord : Prop :=
  (∀ (s : State) (word off cause : Nat), folioFault s registrar cause word off = registrarReset s) ∧
  ∀ (s : State) (p i cause word off : Nat), p < 16 → (s.eng p).running = some i → cause < 16 → cause ≠ 4 →
    ((s.clk :: (s.eng p).faultTimes).filter (fun t => decide (s.clk < t + secU))).length < s.ent (chScribe p) ScribeE.faultLimit →
    ∃ u : State, folioFault s p cause word off =
        endRun (u.event 0x0101 (chScribe p) 0 (cause + 256 * i + 65536 * (s.agent p % 16)) (s.pcOf p)) p i (s.pcOf p + 4) Slice.reset ∧
      (i < 32 → u.sliceOn p i = false) ∧ (u.eng p).faults = (s.eng p).faults + 1 ∧
      u.rd Reg.SCRIBE_INFO.last_cause p = cause ∧ u.rd Reg.SCRIBE_INFO.faults p = min (s.rd Reg.SCRIBE_INFO.faults p + 1) 255 ∧
      Mem.read u.mem (localBase p + faultBase p + 64 * ((s.eng p).faults % 16)) 20 =
        leBytes 8 s.devNs ++ leBytes 4 (s.pcOf p) ++ leBytes 4 word ++ [BitVec.ofNat 8 cause, BitVec.ofNat 8 i, BitVec.ofNat 8 (s.agent p % 16), BitVec.ofNat 8 p] ∧
      (s.engineOf (s.ent (chRing 0) RingE.consumer) = none → ∀ q, q ≠ p → u.eng q = s.eng q)

/-- Atomic operations on the local memory. An AMO through w0 at an aligned offset o of the program area returns the old 8-byte word in rt and stores op of it and rs2: the sum, rs2 itself, the greater or the lesser unsigned. Every byte outside those eight is as before. A function code above 3 is an illegal instruction. -/
def Obligations.FolioAtomic : Prop :=
  ∀ (s : State) (p rt base rs2 fn o : Nat), Runs s p → o = s.offset p base 0 → o % 8 = 0 →
    (o + 8 ≤ contextBase p → ∀ (w v n : Word), w = word64 s (localBase p + o) → v = s.gget p rs2 →
      (fn = 0 → n = w + v) → (fn = 1 → n = v) → (fn = 2 → n = if w.toNat ≤ v.toNat then v else w) → (fn = 3 → n = if w.toNat ≤ v.toNat then w else v) →
      fn ≤ 3 → Ends (exec (.amo p rt base 0 rs2 fn) s) (fun t =>
        ∃ u, Stores s u p (localBase p + o) 8 n.toNat ∧ t = u.gset p rt w)) ∧
    (∀ w, 4 ≤ fn → fn ≤ 7 → exec (.amo p rt base w rs2 fn) s = .next (folioFault s p 1 (wordM 0x14 rt base w (amoImm rs2 fn)) 0))

/-- Conditional branches. BEQ, BNE, BLT, BGE, BLTU and BGEU compare rs1 with rs2, for equality, signed or unsigned; taken, the next instruction is at the branch's own address plus 4 × the sign-extended off16 (here inside the program area), else at the next address. Nothing else changes. -/
def Obligations.FolioBranches : Prop :=
  ∀ (s : State) (p rs1 rs2 off : Nat), Runs s p → 0 ≤ (s.pcOf p : Int) + 4 * (BitVec.ofNat 16 off).toInt →
    (if (s.gget p rs1) = (s.gget p rs2) then (((s.pcOf p : Int) + 4 * (BitVec.ofNat 16 off).toInt).toNat < contextBase p → Ends (exec (.beq p rs1 rs2 off) s) (fun t => Jumps s t p ((s.pcOf p : Int) + 4 * (BitVec.ofNat 16 off).toInt).toNat)) else Ends (exec (.beq p rs1 rs2 off) s) (fun t => Jumps s t p (s.pcOf p + 4))) ∧
    (if (s.gget p rs1) ≠ (s.gget p rs2) then (((s.pcOf p : Int) + 4 * (BitVec.ofNat 16 off).toInt).toNat < contextBase p → Ends (exec (.bne p rs1 rs2 off) s) (fun t => Jumps s t p ((s.pcOf p : Int) + 4 * (BitVec.ofNat 16 off).toInt).toNat)) else Ends (exec (.bne p rs1 rs2 off) s) (fun t => Jumps s t p (s.pcOf p + 4))) ∧
    (if (s.gget p rs1).toInt < (s.gget p rs2).toInt then (((s.pcOf p : Int) + 4 * (BitVec.ofNat 16 off).toInt).toNat < contextBase p → Ends (exec (.blt p rs1 rs2 off) s) (fun t => Jumps s t p ((s.pcOf p : Int) + 4 * (BitVec.ofNat 16 off).toInt).toNat)) else Ends (exec (.blt p rs1 rs2 off) s) (fun t => Jumps s t p (s.pcOf p + 4))) ∧
    (if (s.gget p rs2).toInt ≤ (s.gget p rs1).toInt then (((s.pcOf p : Int) + 4 * (BitVec.ofNat 16 off).toInt).toNat < contextBase p → Ends (exec (.bge p rs1 rs2 off) s) (fun t => Jumps s t p ((s.pcOf p : Int) + 4 * (BitVec.ofNat 16 off).toInt).toNat)) else Ends (exec (.bge p rs1 rs2 off) s) (fun t => Jumps s t p (s.pcOf p + 4))) ∧
    (if (s.gget p rs1).toNat < (s.gget p rs2).toNat then (((s.pcOf p : Int) + 4 * (BitVec.ofNat 16 off).toInt).toNat < contextBase p → Ends (exec (.bltu p rs1 rs2 off) s) (fun t => Jumps s t p ((s.pcOf p : Int) + 4 * (BitVec.ofNat 16 off).toInt).toNat)) else Ends (exec (.bltu p rs1 rs2 off) s) (fun t => Jumps s t p (s.pcOf p + 4))) ∧
    (if (s.gget p rs2).toNat ≤ (s.gget p rs1).toNat then (((s.pcOf p : Int) + 4 * (BitVec.ofNat 16 off).toInt).toNat < contextBase p → Ends (exec (.bgeu p rs1 rs2 off) s) (fun t => Jumps s t p ((s.pcOf p : Int) + 4 * (BitVec.ofNat 16 off).toInt).toNat)) else Ends (exec (.bgeu p rs1 rs2 off) s) (fun t => Jumps s t p (s.pcOf p + 4)))

/-- Jumps. JAL goes to its own address plus 4 × the sign-extended off26 and writes the address after it to g31. JALR goes to rs1 plus the sign-extended imm16 and writes the address after it to rd, reading rs1 first, so rd may be rs1; a target that is not a multiple of 4 raises fault 0x02. Targets here lie in the program area. -/
def Obligations.FolioJumps : Prop :=
  ∀ (s : State) (p rd rs1 off imm dest : Nat), Runs s p →
    ((dest : Int) = (s.pcOf p : Int) + 4 * (BitVec.ofNat 26 off).toInt → dest < contextBase p →
      Ends (exec (.jal p off) s) (fun t => ∃ u, GWrites s u p 31 (BitVec.ofNat 64 (s.pcOf p + 4)) ∧ Jumps u t p dest)) ∧
    (dest = ((s.gget p rs1) + (BitVec.ofNat 16 imm).signExtend 64).toNat →
      (dest % 4 = 0 → dest < contextBase p →
        Ends (exec (.jalr p rd rs1 imm) s) (fun t => ∃ u, GWrites s u p rd (BitVec.ofNat 64 (s.pcOf p + 4)) ∧ Jumps u t p dest)) ∧
      (dest % 4 ≠ 0 → exec (.jalr p rd rs1 imm) s = .next (folioFault s p 2 (wordI 0x1F rd rs1 imm) 0)))

/-- Illegal words. A word that no format of Table 3-5 and no opcode of the tables names, BFX with k 0, SHI with imm16[15:8] not 0, a vector register field of 16 to 31, and a lane number or shift of 16 or more each raise fault 0x01, and the instruction itself has no effect. A word that is an instruction is no illegal one: the command leaves everything as it was. -/
def Obligations.FolioIllegal : Prop :=
  ∀ (s : State) (p rd rs1 rs2 k imm : Nat) (word : BitVec 32), Runs s p →
    (folioDecode p word.toNat = none → exec (.illegalInstruction p word) s = .next (folioFault s p 1 word.toNat 0)) ∧
    (folioDecode p word.toNat ≠ none → exec (.illegalInstruction p word) s = .next s) ∧
    exec (.bfx p rd rs1 rs2 0) s = .next (folioFault s p 1 (wordX 0 rd rs1 rs2 0x16 0) 0) ∧
    (256 ≤ imm → imm < 65536 → exec (.shi p rd rs1 imm) s = .next (folioFault s p 1 (wordI 0x07 rd rs1 imm) 0)) ∧
    (16 ≤ rd → rd < 32 → exec (.vadd p rd rs1 rs2) s = .next (folioFault s p 1 (wordX 0x28 rd rs1 rs2 1 0) 0) ∧
      exec (.vsplat p rd rs1) s = .next (folioFault s p 1 (wordX 0x28 rd rs1 0 0x1A 0) 0)) ∧
    (16 ≤ k → k < 64 → exec (.vshl p rd rs1 k) s = .next (folioFault s p 1 (wordX 0x28 rd rs1 0 0x12 k) 0) ∧
      exec (.vextu p rd rs1 k) s = .next (folioFault s p 1 (wordX 0x28 rd rs1 0 0x1B k) 0))

/-- Vector arithmetic, lane by lane. VADD, VSUB, their signed and unsigned saturating forms, VMUL, VMULH, VMULQ, VMIN, VMAX, VMINU, VMAXU and VABSDU give in each of the sixteen lanes the result of Table 3-10. Nothing but vd and the pc changes. -/
def Obligations.FolioVectorArithmetic : Prop :=
  ∀ (s : State) (p vd vs1 vs2 : Nat), Runs s p → vd < 16 → vs1 < 16 → vs2 < 16 →
    Ends (exec (.vadd p vd vs1 vs2) s) (fun t => ∃ r, VWrites s t p vd r ∧ ∀ i, i < 16 → vlane r i = (vlane (s.vget p vs1) i) + (vlane (s.vget p vs2) i)) ∧
    Ends (exec (.vsub p vd vs1 vs2) s) (fun t => ∃ r, VWrites s t p vd r ∧ ∀ i, i < 16 → vlane r i = (vlane (s.vget p vs1) i) - (vlane (s.vget p vs2) i)) ∧
    Ends (exec (.vadds p vd vs1 vs2) s) (fun t => ∃ r, VWrites s t p vd r ∧ ∀ i, i < 16 → vlane r i = BitVec.ofInt 16 (max (-32768) (min 32767 ((vlane (s.vget p vs1) i).toInt + (vlane (s.vget p vs2) i).toInt)))) ∧
    Ends (exec (.vsubs p vd vs1 vs2) s) (fun t => ∃ r, VWrites s t p vd r ∧ ∀ i, i < 16 → vlane r i = BitVec.ofInt 16 (max (-32768) (min 32767 ((vlane (s.vget p vs1) i).toInt - (vlane (s.vget p vs2) i).toInt)))) ∧
    Ends (exec (.vaddus p vd vs1 vs2) s) (fun t => ∃ r, VWrites s t p vd r ∧ ∀ i, i < 16 → vlane r i = BitVec.ofInt 16 (max 0 (min 65535 (((vlane (s.vget p vs1) i).toNat : Int) + (vlane (s.vget p vs2) i).toNat)))) ∧
    Ends (exec (.vsubus p vd vs1 vs2) s) (fun t => ∃ r, VWrites s t p vd r ∧ ∀ i, i < 16 → vlane r i = BitVec.ofInt 16 (max 0 (min 65535 (((vlane (s.vget p vs1) i).toNat : Int) - (vlane (s.vget p vs2) i).toNat)))) ∧
    Ends (exec (.vmul p vd vs1 vs2) s) (fun t => ∃ r, VWrites s t p vd r ∧ ∀ i, i < 16 → vlane r i = (vlane (s.vget p vs1) i) * (vlane (s.vget p vs2) i)) ∧
    Ends (exec (.vmulh p vd vs1 vs2) s) (fun t => ∃ r, VWrites s t p vd r ∧ ∀ i, i < 16 → vlane r i = ((vlane (s.vget p vs1) i).signExtend 32 * (vlane (s.vget p vs2) i).signExtend 32).extractLsb' 16 16) ∧
    Ends (exec (.vmulq p vd vs1 vs2) s) (fun t => ∃ r, VWrites s t p vd r ∧ ∀ i, i < 16 → vlane r i = BitVec.ofInt 16 (max (-32768) (min 32767 (((vlane (s.vget p vs1) i).toInt * (vlane (s.vget p vs2) i).toInt + 2 ^ 14) / 2 ^ 15)))) ∧
    Ends (exec (.vmin p vd vs1 vs2) s) (fun t => ∃ r, VWrites s t p vd r ∧ ∀ i, i < 16 → vlane r i = if (vlane (s.vget p vs1) i).toInt ≤ (vlane (s.vget p vs2) i).toInt then (vlane (s.vget p vs1) i) else (vlane (s.vget p vs2) i)) ∧
    Ends (exec (.vmax p vd vs1 vs2) s) (fun t => ∃ r, VWrites s t p vd r ∧ ∀ i, i < 16 → vlane r i = if (vlane (s.vget p vs1) i).toInt ≤ (vlane (s.vget p vs2) i).toInt then (vlane (s.vget p vs2) i) else (vlane (s.vget p vs1) i)) ∧
    Ends (exec (.vminu p vd vs1 vs2) s) (fun t => ∃ r, VWrites s t p vd r ∧ ∀ i, i < 16 → vlane r i = if (vlane (s.vget p vs1) i).toNat ≤ (vlane (s.vget p vs2) i).toNat then (vlane (s.vget p vs1) i) else (vlane (s.vget p vs2) i)) ∧
    Ends (exec (.vmaxu p vd vs1 vs2) s) (fun t => ∃ r, VWrites s t p vd r ∧ ∀ i, i < 16 → vlane r i = if (vlane (s.vget p vs1) i).toNat ≤ (vlane (s.vget p vs2) i).toNat then (vlane (s.vget p vs2) i) else (vlane (s.vget p vs1) i)) ∧
    Ends (exec (.vabsdu p vd vs1 vs2) s) (fun t => ∃ r, VWrites s t p vd r ∧ ∀ i, i < 16 → vlane r i = BitVec.ofNat 16 (max (vlane (s.vget p vs1) i).toNat (vlane (s.vget p vs2) i).toNat - min (vlane (s.vget p vs1) i).toNat (vlane (s.vget p vs2) i).toNat))

/-- Vector logic, shifts, comparisons and selection, lane by lane. VAND, VOR, VXOR, VSHL, VSRL and VSRA by k of 0 to 15, VCGT, VCGTU, VCEQ, VSEL, and VEMA with k of 0 to 15, whose lane is vd + ((vs1 − vd) shifted right by k with sign fill), give in each lane the result of Table 3-10. Nothing but vd and the pc changes. -/
def Obligations.FolioVectorLogic : Prop :=
  ∀ (s : State) (p vd vs1 vs2 k : Nat), Runs s p → vd < 16 → vs1 < 16 → vs2 < 16 → k < 16 →
    Ends (exec (.vand p vd vs1 vs2) s) (fun t => ∃ r, VWrites s t p vd r ∧ ∀ i, i < 16 → vlane r i = (vlane (s.vget p vs1) i) &&& (vlane (s.vget p vs2) i)) ∧
    Ends (exec (.vor p vd vs1 vs2) s) (fun t => ∃ r, VWrites s t p vd r ∧ ∀ i, i < 16 → vlane r i = (vlane (s.vget p vs1) i) ||| (vlane (s.vget p vs2) i)) ∧
    Ends (exec (.vxor p vd vs1 vs2) s) (fun t => ∃ r, VWrites s t p vd r ∧ ∀ i, i < 16 → vlane r i = (vlane (s.vget p vs1) i) ^^^ (vlane (s.vget p vs2) i)) ∧
    Ends (exec (.vshl p vd vs1 k) s) (fun t => ∃ r, VWrites s t p vd r ∧ ∀ i, i < 16 → vlane r i = (vlane (s.vget p vs1) i) <<< k) ∧
    Ends (exec (.vsrl p vd vs1 k) s) (fun t => ∃ r, VWrites s t p vd r ∧ ∀ i, i < 16 → vlane r i = (vlane (s.vget p vs1) i) >>> k) ∧
    Ends (exec (.vsra p vd vs1 k) s) (fun t => ∃ r, VWrites s t p vd r ∧ ∀ i, i < 16 → vlane r i = (vlane (s.vget p vs1) i).sshiftRight k) ∧
    Ends (exec (.vcgt p vd vs1 vs2) s) (fun t => ∃ r, VWrites s t p vd r ∧ ∀ i, i < 16 → vlane r i = if (vlane (s.vget p vs2) i).toInt < (vlane (s.vget p vs1) i).toInt then BitVec.allOnes 16 else 0) ∧
    Ends (exec (.vcgtu p vd vs1 vs2) s) (fun t => ∃ r, VWrites s t p vd r ∧ ∀ i, i < 16 → vlane r i = if (vlane (s.vget p vs2) i).toNat < (vlane (s.vget p vs1) i).toNat then BitVec.allOnes 16 else 0) ∧
    Ends (exec (.vceq p vd vs1 vs2) s) (fun t => ∃ r, VWrites s t p vd r ∧ ∀ i, i < 16 → vlane r i = if (vlane (s.vget p vs1) i) = (vlane (s.vget p vs2) i) then BitVec.allOnes 16 else 0) ∧
    Ends (exec (.vsel p vd vs1 vs2) s) (fun t => ∃ r, VWrites s t p vd r ∧ ∀ i, i < 16 → vlane r i = if (vlane (s.vget p vd) i) = 0 then (vlane (s.vget p vs2) i) else (vlane (s.vget p vs1) i)) ∧
    Ends (exec (.vema p vd vs1 k) s) (fun t => ∃ r, VWrites s t p vd r ∧ ∀ i, i < 16 → vlane r i = ((vlane (s.vget p vd) i).zeroExtend 17 + ((vlane (s.vget p vs1) i).zeroExtend 17 - (vlane (s.vget p vd) i).zeroExtend 17).sshiftRight k).extractLsb' 0 16)

/-- Vector and general registers: splat, extract, insert, reduce. VSPLAT sets every lane to g[rs1][15:0]; VINS sets lane k to it and keeps the others; VEXTU zero-extends lane k into rd; VREDADD gives rd the signed sum of the lanes; VANY sets bit i of rd where lane i is non-zero and clears every other bit. Nothing else changes but the pc. -/
def Obligations.FolioVectorRegisters : Prop :=
  ∀ (s : State) (p rd r v k : Nat), Runs s p → v < 16 → k < 16 →
    Ends (exec (.vsplat p v r) s) (fun t => ∃ x, VWrites s t p v x ∧ ∀ i, i < 16 → vlane x i = (s.gget p r).setWidth 16) ∧
    Ends (exec (.vins p v r k) s) (fun t => ∃ x, VWrites s t p v x ∧ ∀ i, i < 16 → vlane x i = if i = k then (s.gget p r).setWidth 16 else vlane (s.vget p v) i) ∧
    Ends (exec (.vextu p rd v k) s) (fun t => GWrites s t p rd ((vlane (s.vget p v) k).zeroExtend 64)) ∧
    Ends (exec (.vredadd p rd v) s) (fun t => GWrites s t p rd (BitVec.ofInt 64 (((List.range 16).map (fun i => (vlane (s.vget p v) i).toInt)).sum))) ∧
    Ends (exec (.vany p rd v) s) (fun t => ∃ x : Word, GWrites s t p rd x ∧ ∀ i, i < 64 → x.getLsbD i = (decide (i < 16) && vlane (s.vget p v) i != 0))

/-- VLD and VST on the local memory. VLD through w0 at an offset o that is a multiple of 32 loads 32 bytes into vt, lane i from the bytes at o + 2i, low byte first; VST stores 32 bytes so at an offset of the program area. Every other byte of memory and every other register are as before. -/
def Obligations.FolioVectorMemory : Prop :=
  ∀ (s : State) (p vt base imm o : Nat), Runs s p → vt < 16 → o = s.offset p base imm → o % 32 = 0 →
    (o < faultBase p + 0x400 → Ends (exec (.vld p vt base 0 imm) s) (fun t => ∃ r, VWrites s t p vt r ∧ ∀ i, i < 16 → vlane r i = word16 s (localBase p + o + 2 * i))) ∧
    (o + 32 ≤ contextBase p → Ends (exec (.vst p vt base 0 imm) s) (fun t => Stores s t p (localBase p + o) 32 (s.vget p vt).toNat))

/-- RING.PUSH, RING.POP, RING.DONE and RING.STAT. RING.PUSH by the producer of a ring with room copies the 32 bytes at its local offset to the slot of the producer index, with seq the index mod 256, advances the index mod 2³² and returns it; RING.POP by the consumer of a ring that holds a descriptor copies it to the local offset, advances the consumer index, holds the descriptor in flight and returns 2³² + its index; a ring that an enabled Bindery unit names gives it nothing (R370); RING.DONE completes a descriptor that RING.POP returned; RING.STAT shows both indices. On a full ring RING.PUSH returns the unchanged index (the model's reading, log 26); a ring number above 255 gives 0 and changes nothing but rd. The wake of the ring's consumer and the fetch of the next instruction follow. -/
def Obligations.FolioRings : Prop :=
  ∀ (s : State) (p rd rs1 rs2 n o i : Nat), Runs s p → n = (s.gnum p rs1) → o = (s.gnum p rs2) → i = (s.ring n).prod →
    (256 ≤ n → Ends (exec (.ringPush p rd rs1 rs2) s) (fun t => GWrites s t p rd (BitVec.ofNat 64 (0))) ∧ Ends (exec (.ringPop p rd rs1 rs2) s) (fun t => GWrites s t p rd (BitVec.ofNat 64 (0))) ∧ Ends (exec (.ringStat p rd rs1) s) (fun t => GWrites s t p rd (BitVec.ofNat 64 (0)))) ∧
    (n < 256 → Ends (exec (.ringStat p rd rs1) s) (fun t => GWrites s t p rd (BitVec.ofNat 64 ((s.ring n).cons * 2 ^ 32 + (s.ring n).prod)))) ∧
    (n < 256 → localFits p o 32 = true → s.ringUp n = true → s.ent (chRing n) RingE.producer = s.agent p →
      (s.ringFull n = true → Ends (exec (.ringPush p rd rs1 rs2) s) (fun t => GWrites s t p rd (BitVec.ofNat 64 (i)))) ∧
      (s.ringFull n = false → ∃ u : State, (u.ring n).prod = (i + 1) % 2 ^ 32 ∧ (u.ring n).cons = (s.ring n).cons ∧ u.engines = (passed s p).engines ∧
        u.ledGet (Led.descPosted n) = (s.ledGet (Led.descPosted n) + 1) % 2 ^ 64 ∧
        (areaOf (s.descAddr n i) = .readingRoom → s.descAddr n i + 32 ≤ rrBase + rrSize → ∀ k, k < 32 →
          Mem.get u.mem (s.descAddr n i + k) = if k = 15 then BitVec.ofNat 8 i else Mem.get s.mem (localBase p + o + k)) ∧
        exec (.ringPush p rd rs1 rs2) s = .next (fetchCheck ((ringWake u n).gset p rd (BitVec.ofNat 64 ((ringWake u n).ring n).prod)) p))) ∧
    (n < 256 → localTakes p o 32 = true → s.ringUp n = true → s.ent (chRing n) RingE.consumer = s.agent p → bndOwns s n = false → s.ringHolds n ≠ 0 →
      ∃ u : State, (u.ring n).cons = ((s.ring n).cons + 1) % 2 ^ 32 ∧ (u.ring n).prod = i ∧ (u.ring n).flight = (s.ring n).flight ++ [((s.ring n).cons, s.agent p)] ∧
        Mem.read u.mem (localBase p + o) 32 = s.peekBytes (s.descAddr n (s.ring n).cons) 32 ∧
        (∀ x, (x < localBase p + o ∨ localBase p + o + 32 ≤ x) → Mem.get u.mem x = Mem.get s.mem x) ∧ u.regs = s.regs ∧
        (∀ q, u.eng q = { (passed s p).eng q with slices := (u.eng q).slices }) ∧
        exec (.ringPop p rd rs1 rs2) s = .next (u.gset p rd (BitVec.ofNat 64 (2 ^ 32 + (s.ring n).cons)))) ∧
    (bndOwns s n = true → Ends (exec (.ringPop p rd rs1 rs2) s) (fun t => GWrites s t p rd (BitVec.ofNat 64 0))) ∧
    (n < 256 → localFits p o 32 = true → s.ent (chRing n) RingE.consumer = s.agent p → (s.gnum p rd) / 2 ^ 32 = 1 → ((s.gnum p rd) % 2 ^ 32, s.agent p) ∈ (s.ring n).flight →
      ∃ u : State, u.rings = s.rings ∧ u.mem = s.mem ∧ u.engines = (passed s p).engines ∧
        exec (.ringDone p rd rs1 rs2) s = .next (fetchCheck (ringComplete u n ((s.gnum p rd) % 2 ^ 32) (s.local p (o + 24) 4) (s.local p (o + 28) 4)) p))

/-- What completing a descriptor does. Completing a descriptor in flight on a ring in the Reading Room writes its status and result in place, takes it out of flight, moves one count from in flight to completed in the Ledger, and leaves both indices of the ring as they were. -/
def Obligations.RingCompletion : Prop :=
  ∀ (s : State) (n i status result : Nat), (s.ring n).flight.any (fun x => x.1 == i) = true → s.entOn (chRing n) RingE.irqEn = false →
    ((ringComplete s n i status result).ring n).prod = (s.ring n).prod ∧ ((ringComplete s n i status result).ring n).cons = (s.ring n).cons ∧
    ((ringComplete s n i status result).ring n).flight = (s.ring n).flight.filter (fun x => x.1 != i) ∧
    (0 < s.ledGet (Led.descInFlight n) → s.ledGet (Led.descInFlight n) < 2 ^ 64 →
      (ringComplete s n i status result).ledGet (Led.descInFlight n) = s.ledGet (Led.descInFlight n) - 1 ∧
      (ringComplete s n i status result).ledGet (Led.descCompleted n) = (s.ledGet (Led.descCompleted n) + 1) % 2 ^ 64) ∧
    (areaOf (s.descAddr n i) = .readingRoom → s.descAddr n i + 32 ≤ rrBase + rrSize →
      Mem.read (ringComplete s n i status result).mem (s.descAddr n i + 24) 8 = leBytes 4 status ++ leBytes 4 result)

/-- Device instructions that read. LEDGER.SEQ, LEDGER.LINE and LEDGER.READ show the latest complete snapshot (rs1[2:0] the word, rs1[10:3] the instance, rs1[14:12] the block); TIME.NOW is the device time in whole ns; TIME.CAP and TIME.CAPN the latest capture and the count of a channel; CAT.GEN the generation of the entry in effect, CAT.ADDR the address of an entry, CAT.WIN and CAT.WSIZE a window, 0 if unused; SYS.CSRR a special register. Each changes nothing but rd and the pc. -/
def Obligations.FolioReads : Prop :=
  ∀ (s : State) (p rd rs1 k x i w : Nat), Runs s p → x = (s.gnum p rs1) →
    Ends (exec (.ledgerSeq p rd) s) (fun t => GWrites s t p rd (BitVec.ofNat 64 (s.led.seqDone % 2 ^ 32 + 2 ^ 63 * s.rd Reg.LEDGER_SNAP.snap_busy))) ∧
    (s.led.final = none → Ends (exec (.ledgerLine p rd) s) (fun t => GWrites s t p rd (BitVec.ofNat 64 (s.rd2 Reg.LEDGER_SNAP_LINE_LO.snap_line_lo Reg.LEDGER_SNAP_LINE_HI.snap_line_hi)))) ∧
    (s.led.final = none → w < 8 → (i < 80 → x = w + 8 * i + 4096 → Ends (exec (.ledgerRead p rd rs1) s) (fun t => GWrites s t p rd (BitVec.ofNat 64 (Tbl.get 0 s.led.snap (0x1000 + 64 * i + 8 * w))))) ∧
      (i < 16 → x = w + 8 * i + 8192 → Ends (exec (.ledgerRead p rd rs1) s) (fun t => GWrites s t p rd (BitVec.ofNat 64 (Tbl.get 0 s.led.snap (0x3000 + 64 * i + 8 * w))))) ∧
      (i < 52 → w < 4 → x = w + 8 * i + 12288 → Ends (exec (.ledgerRead p rd rs1) s) (fun t => GWrites s t p rd (BitVec.ofNat 64 (Tbl.get 0 s.led.snap (0x4000 + 32 * i + 8 * w))))) ∧
      (i < 256 → w < 4 → x = w + 8 * i + 16384 → Ends (exec (.ledgerRead p rd rs1) s) (fun t => GWrites s t p rd (BitVec.ofNat 64 (Tbl.get 0 s.led.snap (0x5000 + 32 * i + 8 * w))))) ∧
      (i < 80 → w < 2 → x = w + 8 * i + 20480 → Ends (exec (.ledgerRead p rd rs1) s) (fun t => GWrites s t p rd (BitVec.ofNat 64 (Tbl.get 0 s.led.snap (0x7000 + 16 * i + 8 * w)))))) ∧
    Ends (exec (.timeNow p rd) s) (fun t => GWrites s t p rd (BitVec.ofNat 64 (((s.clk : Int) + s.timeOff).toNat / 65536))) ∧
    (x < 256 → Ends (exec (.timeCap p rd rs1) s) (fun t => GWrites s t p rd (BitVec.ofNat 64 (Tbl.get 0 s.tu.capAt x / 65536))) ∧ Ends (exec (.timeCapn p rd rs1) s) (fun t => GWrites s t p rd (BitVec.ofNat 64 (Tbl.get 0 s.tu.capN x)))) ∧
    (x < 4096 → Ends (exec (.catAddr p rd rs1) s) (fun t => GWrites s t p rd (BitVec.ofNat 64 (s.rd Reg.CAT_BASE_LO.base_lo * 2 ^ 19 + s.rd Reg.CAT_BASE_HI.base_hi * 2 ^ 32 + 128 * x))) ∧
      Ends (exec (.catGen p rd rs1) s) (fun t => GWrites s t p rd (BitVec.ofNat 64 ((Tbl.find s.cat.inEffect x).elim 0 HdrE.generation.get)))) ∧
    (1 ≤ k → k ≤ 7 → Ends (exec (.catWin p rd k) s) (fun t => GWrites s t p rd (BitVec.ofNat 64 (if (s.window p k).log2 = 0 then 0 else (s.window p k).base))) ∧ Ends (exec (.catWsize p rd k) s) (fun t => GWrites s t p rd (BitVec.ofNat 64 (if (s.window p k).log2 = 0 then 0 else 2 ^ (s.window p k).log2)))) ∧
    Ends (exec (.sysCsrr p rd 1) s) (fun t => GWrites s t p rd (BitVec.ofNat 64 ((s.eng p).running.getD 0))) ∧
    Ends (exec (.sysCsrr p rd 4) s) (fun t => GWrites s t p rd (BitVec.ofNat 64 (s.devAt (s.eng p).runAt / 65536))) ∧
    (p = registrar → Ends (exec (.sysCsrr p rd 0) s) (fun t => GWrites s t p rd (BitVec.ofNat 64 (65536)))) ∧
    (p ≠ registrar → Ends (exec (.sysCsrr p rd 0) s) (fun t => GWrites s t p rd (BitVec.ofNat 64 (p + 256 * (s.rd Reg.SCRIBE_INFO.logical p % 16))))) ∧
    (1 ≤ k → k ≤ 7 → Ends (exec (.sysCsrr p rd (0x10 + 2 * (k - 1))) s) (fun t => GWrites s t p rd (BitVec.ofNat 64 (if p = registrar then Tbl.get 0 (s.eng p).winb k else 0))))

/-- Device instructions that read the Line Assembler and inspection. LINE.STAT shows the last line fired at the reference row, the lead, the free page-queue entries, the web position, the highest line assembled and the end line of the last page queued by k, and 0 for any other k; SUBST.GET the read-back of Table 3-9, with k 1 the spare nozzle of the last change pending or else of the map, and 0 for any other k or for a nozzle that no row has; STAT.COLFRAME, STAT.FRAME and STAT.VCOL, with cap_stat, the completed accumulator's frame and set, the frame in progress and its set, and sixteen accumulators from a column number that is a multiple of 16; without the capability, or with an operand out of range, they read 0. None changes anything but its destination and the pc. -/
def Obligations.FolioReadsLine : Prop :=
  ∀ (s : State) (p rd rs1 rs2 vd k x a : Nat), Runs s p → x = s.gnum p rs1 → a = s.gnum p rs2 →
    Ends (exec (.lineStat p rd 0) s) (fun t => GWrites s t p rd (BitVec.ofNat 64 s.fire.lastFired)) ∧
    Ends (exec (.lineStat p rd 1) s) (fun t => GWrites s t p rd (BitVec.ofNat 64 (leadLines s))) ∧
    Ends (exec (.lineStat p rd 2) s) (fun t => GWrites s t p rd (BitVec.ofNat 64 (s.rd Reg.LA_STATUS.queue_free))) ∧
    Ends (exec (.lineStat p rd 3) s) (fun t => GWrites s t p rd (BitVec.ofNat 64 (unsigned 64 (webPos s / 65536)))) ∧
    Ends (exec (.lineStat p rd 4) s) (fun t => GWrites s t p rd (BitVec.ofNat 64 (relLine s (assembledTo s - 1)))) ∧
    Ends (exec (.lineStat p rd 5) s) (fun t => GWrites s t p rd (BitVec.ofNat 64 s.la.lastEnd)) ∧
    (6 ≤ k → k < 64 → Ends (exec (.lineStat p rd k) s) (fun t => GWrites s t p rd 0)) ∧
    (nozzleAt s (x % 2 ^ 23) = none ∨ (2 ≤ k ∧ k < 64) → Ends (exec (.substGet p rd rs1 k) s) (fun t => GWrites s t p rd 0)) ∧
    (∀ b i c cs, nozzleAt s (x % 2 ^ 23) = some (b, i, c) → cs = s.la.changes.filter (fun y => y.plane == b && y.row == i && y.col == c) →
      (∃ v : Word, Ends (exec (.substGet p rd rs1 0) s) (fun t => GWrites s t p rd v) ∧
        v.getLsbD 63 = ((committedSpare s b i c).isSome || cs.any (·.isSet)) ∧ v.getLsbD 62 = (cs != []) ∧ v.toNat % 2 ^ 62 < 2 ^ 48 ∧
        (∀ y, cs.getLast? = some y → v.toNat % 2 ^ 48 = relLine s y.line % 2 ^ 48) ∧
        (cs = [] → v.toNat % 2 ^ 48 = relLine s (Tbl.get 0 s.la.effLine (x % 2 ^ 23)) % 2 ^ 48)) ∧
      (∀ r, (match (cs.filter (·.isSet)).getLast? with | some y => some y.spare | none => committedSpare s b i c) = r →
        Ends (exec (.substGet p rd rs1 1) s) (fun t => GWrites s t p rd
          (BitVec.ofNat 64 (r.elim 0 (fun r => nozzleOf (planeRow s b ((rowsOf s b 2).getD r 0)) c)))))) ∧
    (s.cap p 2 = true → x < 16 →
      Ends (exec (.statColframe p rd rs1) s) (fun t => GWrites s t p rd (BitVec.ofNat 64 ((Tbl.get (0, 0) s.insp.accDone x).1 % 2 ^ 48 + 2 ^ 48 * ((Tbl.get (0, 0) s.insp.accDone x).2 % 65536)))) ∧
      ((s.pipe x).frames = [] → Ends (exec (.statFrame p rd rs1) s) (fun t => GWrites s t p rd 0)) ∧
      (∀ f, (s.pipe x).frames.getLast? = some f → Ends (exec (.statFrame p rd rs1) s) (fun t => GWrites s t p rd (BitVec.ofNat 64 (f.num % 2 ^ 48 + 2 ^ 48 * (f.expo % 65536)))))) ∧
    (s.cap p 2 = true → vd < 16 → x < 128 → a % 16 = 0 → a ≤ 65520 →
      Ends (exec (.statVcol p vd rs1 rs2) s) (fun t => ∃ r, VWrites s t p vd r ∧ ∀ i, i < 16 → vlane r i = BitVec.ofNat 16 (Tbl.get 0 s.insp.acc (accKey (x / 8) (x % 8) (a + i))))) ∧
    (s.cap p 2 = false ∨ 16 ≤ x →
      Ends (exec (.statColframe p rd rs1) s) (fun t => GWrites s t p rd 0) ∧ Ends (exec (.statFrame p rd rs1) s) (fun t => GWrites s t p rd 0)) ∧
    (s.cap p 2 = false ∨ 128 ≤ x ∨ a % 16 ≠ 0 ∨ 65520 < a → vd < 16 → Ends (exec (.statVcol p vd rs1 rs2) s) (fun t => VWrites s t p vd 0))

/-- Device instructions that act on a unit. With their capability: LEDGER.SNAP starts a snapshot and returns its sequence number; TIME.ARM arms a trigger in use for a time and returns it; STAT.SEG takes the oldest region record of a pipeline to the local offset and returns its length, 0 if none waits; CAT.INV invalidates a channel its agent owns; LINE.PAGE, SUBST.SET, SUBST.CLR and STAT.EXPO ask the unit and return its read-back. Without the capability each leaves the unit as it was and returns 0. -/
def Obligations.FolioDeviceActs : Prop :=
  ∀ (s : State) (p rd rs1 rs2 : Nat), Runs s p →
    (s.cap p 5 = true → s.on Reg.LEDGER_SNAP.snap_busy = false → Ends (exec (.ledgerSnap p rd) s) (fun t => t.rd Reg.LEDGER_SNAP.snap_busy = 1 ∧ t.led.seqStarted = s.led.seqStarted + 1 ∧ t.led.asked = some s.clk ∧ t.gget p rd = (if rd % 32 = 0 then 0 else BitVec.ofNat 64 (s.led.seqStarted + 1)) ∧ t.mem = s.mem)) ∧
    (s.cap p 5 = false → Ends (exec (.ledgerSnap p rd) s) (fun t => GWrites s t p rd (BitVec.ofNat 64 (0)))) ∧
    (s.cap p 4 = true → s.gnum p rs1 < 62 → s.entOn (chTrig (s.gnum p rs1)) TrigE.trigEn = true → Ends (exec (.timeArm p rd rs1 rs2) s) (fun t => (t.trig (s.gnum p rs1)).next = some (s.gnum p rs2 * 65536) ∧ t.gget p rd = (if rd % 32 = 0 then 0 else s.gget p rs2) ∧ t.mem = s.mem)) ∧
    (s.cap p 4 = false → Ends (exec (.timeArm p rd rs1 rs2) s) (fun t => GWrites s t p rd (BitVec.ofNat 64 (0)))) ∧
    (s.cap p 2 = true → s.gnum p rs1 < 16 → localTakes p (s.gnum p rs2) 64 = true →
      ((s.pipe (s.gnum p rs1)).regions = [] → Ends (exec (.statSeg p rd rs1 rs2) s) (fun t => GWrites s t p rd (BitVec.ofNat 64 (0)))) ∧
      (∀ r rest, (s.pipe (s.gnum p rs1)).regions = r :: rest → Ends (exec (.statSeg p rd rs1 rs2) s) (fun t => (t.pipe (s.gnum p rs1)).regions = rest ∧ Mem.read t.mem (localBase p + s.gnum p rs2) r.length = r ∧ t.gget p rd = (if rd % 32 = 0 then 0 else BitVec.ofNat 64 r.length)))) ∧
    (s.gnum p rs1 < 4096 → (s.cap p 7 || catOwner s (s.gnum p rs1) == s.agent p) = true → exec (.catInv p rs1) s = .next (catInvalidate (passed s p) (s.gnum p rs1))) ∧
    (s.cap p 7 = false → catOwner s (s.gnum p rs1) ≠ s.agent p → Ends (exec (.catInv p rs1) s) (fun t => Jumps s t p (s.pcOf p + 4))) ∧
    (s.cap p 0 = true → s.mode ≠ modeShadow → exec (.linePage p rd rs1 rs2) s = .next (fetchCheck ((linePage (passed s p) (s.gnum p rs1) (s.gnum p rs2)).1.settle.gnat p rd (linePage (passed s p) (s.gnum p rs1) (s.gnum p rs2)).2) p)) ∧
    (s.cap p 1 = true → s.mode ≠ modeShadow → s.gnum p rs2 < 2 ^ 48 →
      exec (.substSet p rd rs1 rs2) s = .next (fetchCheck ((substSet (passed s p) (s.gnum p rs1 % 2 ^ 23) (s.gnum p rs1 / 2 ^ 32 % 2 ^ 23) (s.gnum p rs2)).1.gnat p rd (substSet (passed s p) (s.gnum p rs1 % 2 ^ 23) (s.gnum p rs1 / 2 ^ 32 % 2 ^ 23) (s.gnum p rs2)).2) p) ∧
      exec (.substClr p rd rs1 rs2) s = .next (fetchCheck ((substClr (passed s p) (s.gnum p rs1 % 2 ^ 23) (s.gnum p rs2)).1.gnat p rd (substClr (passed s p) (s.gnum p rs1 % 2 ^ 23) (s.gnum p rs2)).2) p)) ∧
    (s.cap p 0 = false → Ends (exec (.linePage p rd rs1 rs2) s) (fun t => GWrites s t p rd (BitVec.ofNat 64 (0)))) ∧ (s.cap p 1 = false → Ends (exec (.substSet p rd rs1 rs2) s) (fun t => GWrites s t p rd (BitVec.ofNat 64 (0))) ∧ Ends (exec (.substClr p rd rs1 rs2) s) (fun t => GWrites s t p rd (BitVec.ofNat 64 (0)))) ∧
    (s.cap p 3 = true → s.gnum p rs1 < 16 → localFits p (s.gnum p rs2) 32 = true →
      exec (.statExpo p rd rs1 rs2) s = .next (fetchCheck ((expoWrite (passed s p) (s.gnum p rs1) (Mem.read s.mem (localBase p + s.gnum p rs2) 32)).1.gnat p rd (expoWrite (passed s p) (s.gnum p rs1) (Mem.read s.mem (localBase p + s.gnum p rs2) 32)).2) p)) ∧
    (s.cap p 3 = false → Ends (exec (.statExpo p rd rs1 rs2) s) (fun t => GWrites s t p rd (BitVec.ofNat 64 (0))))

/-- When a substitution is taken, and what is pending then. With a job open, a SUBST.SET that R100 accepts joins the pending changes as the last one for the line it names, which is kept as the line of its last change; one that is not accepted, or that would be the 65th pending change, leaves everything as it was, as does a SUBST.CLR that would be. -/
def Obligations.Substitutions : Prop :=
  ∀ (s : State) (nozzle spare n : Nat),
    (∀ p i c r x, substSetOk s nozzle spare n = some (p, i, c, r) → s.on Reg.LA_STATUS.job_open = true →
      x = ({ isSet := true, plane := p, col := c, spare := r, row := i, line := absLine s n } : SubstChange) →
      ∃ u : State, (substSet s nozzle spare n).1 = substCommit u ∧ u.la.changes = s.la.changes ++ [x] ∧ Tbl.get 0 u.la.effLine nozzle = absLine s n ∧
        u.rd Reg.LA_SUBST_PEND.pending = low Reg.LA_SUBST_PEND.pending.width (s.la.changes.length + 1) ∧
        OnlyRegs { s with la := u.la, pair := u.pair } u [Reg.LA_SUBST_PEND.pending.key 0]) ∧
    (64 ≤ s.la.changes.length → (substSet s nozzle spare n).1 = s ∧ (substClr s nozzle n).1 = s) ∧
    (substSetOk s nozzle spare n = none → (substSet s nozzle spare n).1 = s) ∧
    (∀ b i c, nozzleAt s nozzle = some (b, i, c) → s.on Reg.LA_STATUS.job_open = true →
      notAssembled s b i (substLine s n) = false → (substSet s nozzle spare n).1 = s ∧ (substClr s nozzle n).1 = s) ∧
    (∀ b i c b2 i2 c2, nozzleAt s nozzle = some (b, i, c) → nozzleAt s spare = some (b2, i2, c2) → b ≠ b2 ∨ c ≠ c2 ∨ (planeRow s b2 i2).kind ≠ 2 →
      (substSet s nozzle spare n).1 = s)

/-- Barriers, fences, slices and traps. SYNC.INIT with its capability sets a barrier's participants and clears its count and generation; SYNC.ARRIVE returns the generation and counts one arrival, the last one of the participants clearing the count and advancing the generation, which wakes the slices that waited; SYNC.WAIT for a generation that differs does nothing. SYS.FENCE does nothing but pass on. SYS.DISARM clears the enable of a slice, which is then not runnable. SYS.TRAP posts its code to the Registrar and the run goes on. SYS.CSRW, at Registrar privilege, writes the base of a window, and does nothing at Folio privilege; neither do SYS.START and SYS.HALT there; at Registrar privilege SYS.HALT stops a Scribe and SYS.START launches one. -/
def Obligations.FolioSync : Prop :=
  ∀ (s : State) (p rd rs1 rs2 k n : Nat), Runs s p → n = (s.gnum p rs1) →
    Ends (exec (.sysFence p) s) (fun t => Jumps s t p (s.pcOf p + 4)) ∧
    (s.cap p 6 = true → n < 32 → 1 ≤ s.gnum p rs2 → s.gnum p rs2 ≤ 64 → ∃ u : State, u.barrier n = { participants := s.gnum p rs2, count := 0, gen := 0 } ∧ u.mem = s.mem ∧ u.regs = s.regs ∧ exec (.syncInit p rs1 rs2) s = .next (fetchCheck (syncWake u n) p)) ∧
    (s.cap p 6 = false → Ends (exec (.syncInit p rs1 rs2) s) (fun t => Jumps s t p (s.pcOf p + 4))) ∧
    (n < 32 → (s.barrier n).count + 1 ≠ (s.barrier n).participants → Ends (exec (.syncArrive p rd rs1) s) (fun t => (t.barrier n).count = (s.barrier n).count + 1 ∧ (t.barrier n).gen = (s.barrier n).gen ∧ t.gget p rd = (if rd % 32 = 0 then 0 else BitVec.ofNat 64 (s.barrier n).gen) ∧ t.mem = s.mem ∧ t.regs = s.regs)) ∧
    (n < 32 → (s.barrier n).count + 1 = (s.barrier n).participants → ∃ u : State, u.barrier n = { participants := (s.barrier n).participants, count := 0, gen := ((s.barrier n).gen + 1) % 2 ^ 32 } ∧ u.mem = s.mem ∧ u.regs = s.regs ∧
      exec (.syncArrive p rd rs1) s = .next (fetchCheck ((syncWake u n).gnat p rd (s.barrier n).gen) p)) ∧
    ((s.barrier n).gen ≠ s.gnum p rs2 → Ends (exec (.syncWait p rs1 rs2) s) (fun t => Jumps s t p (s.pcOf p + 4))) ∧
    (n < 32 → (s.barrier n).gen = s.gnum p rs2 → ∀ j, (s.eng p).running = some j → exec (.syncWait p rs1 rs2) s = .next (fetchCheck (endRun (passed s p) p j (s.pcOf p + 4) { s.slice p j with wait := .sync n (s.gnum p rs2) }) p)) ∧
    (n < 16 → s.gnum p rs2 < 32 → (s.cap p 6 || s.agent p == n) = true → ∀ q, s.physOf n = some q → exec (.syncArm p rs1 rs2) s = .next (fetchCheck (sliceEvent (passed s p) q (s.gnum p rs2)) p)) ∧
    (n < 32 → Ends (exec (.sysDisarm p rs1) s) (fun t => t.sliceOn p n = false ∧ t.slice p n = { s.slice p n with since := none, level := false, again := false } ∧
      (∀ i, i ≠ n → t.slice p i = s.slice p i) ∧ t.eng p = { (passed s p).eng p with slices := (t.eng p).slices } ∧ (∀ q, q ≠ p → t.eng q = s.eng q) ∧
      t.regs = s.regs ∧ ∀ x, x ≠ localBase p + sliceTable p + 32 * n + 14 → Mem.get t.mem x = Mem.get s.mem x)) ∧
    (k < 64 → (s.eng p).running.getD 0 ≠ 31 → Ends (exec (.sysTrap p k) s) (fun t => t.traps = s.traps ++ [(p, (s.eng p).running.getD 0, k)] ∧ t = { passed s p with traps := t.traps })) ∧
    (p ≠ registrar → Ends (exec (.sysCsrw p rs1 k) s) (fun t => Jumps s t p (s.pcOf p + 4)) ∧ Ends (exec (.sysHalt p rs1) s) (fun t => Jumps s t p (s.pcOf p + 4)) ∧ Ends (exec (.sysStart p rs1 rs2) s) (fun t => Jumps s t p (s.pcOf p + 4))) ∧
    (p = registrar → 1 ≤ k → k ≤ 7 → Ends (exec (.sysCsrw p rs1 (0x10 + 2 * (k - 1))) s) (fun t => Tbl.get 0 (t.eng p).winb k = n ∧ t.regs = s.regs ∧ t.mem = s.mem)) ∧
    (p = registrar → n < 16 → Ends (exec (.sysHalt p rs1) s) (fun t => (t.eng n).halted = true ∧ t.regs = s.regs ∧ t.mem = s.mem ∧ ∀ q, q ≠ n → q ≠ p → t.eng q = s.eng q)) ∧
    (p = registrar → exec (.sysStart p rs1 rs2) s = .next (fetchCheck (scribeLaunch (passed s p) n (s.gnum p rs2)) p))

/-- Instructions that end a run, and slices that come to run. SYS.YIELD and TIME.WAIT save the context of the running slice with the pc of the next instruction, SYS.END with the slice's entry; the slice of SYS.YIELD, and of a TIME.WAIT whose time has passed, is runnable at once. SYS.ARM sets the enable of a slice. A slice that waited is runnable again when its time has come, TIME_WAIT_EXPIRY; urgencies rise with the clock; a run that outlasts its slice_max ends with fault 0x05. -/
def Obligations.FolioRunEnds : Prop :=
  ∀ (s : State) (p rs1 i j t0 : Nat), Runs s p → (s.eng p).running = some i →
    exec (.sysYield p) s = .next (fetchCheck (endRun (passed s p) p i (s.pcOf p + 4) { s.slice p i with since := some s.clk, level := false, urgency := 0 }) p) ∧
    exec (.sysEnd p) s = .next (fetchCheck (endRun (passed s p) p i (s.sliceEntry p i) (s.slice p i)) p) ∧
    (s.devNs < s.gnum p rs1 → exec (.timeWait p rs1) s = .next (fetchCheck (endRun (passed s p) p i (s.pcOf p + 4) { s.slice p i with wait := .time (s.gnum p rs1) }) p)) ∧
    (s.gnum p rs1 ≤ s.devNs → exec (.timeWait p rs1) s = .next (fetchCheck (endRun (passed s p) p i (s.pcOf p + 4) { s.slice p i with since := some s.clk, level := false, wait := .none }) p)) ∧
    (s.gnum p rs1 < 32 → s.sliceTrig p (s.gnum p rs1) ≠ 1 → Ends (exec (.sysArm p rs1) s) (fun t => t.sliceOn p (s.gnum p rs1) = true ∧ t.engines = (passed s p).engines ∧ t.regs = s.regs)) ∧
    (∀ ns, ((s.at t0).slice p j).wait = .time ns → ns ≤ (s.at t0).devNs → ((s.at t0).slice p j).since = none →
      exec (.timeWaitExpiry t0 p j) s = .next (sliceResume (s.at t0) p j)) ∧
    (∀ ns, ((s.at t0).slice p j).wait = .time ns → (s.at t0).devNs < ns → exec (.timeWaitExpiry t0 p j) s = .next (s.at t0)) ∧
    ((s.eng p).runAt + s.sliceMax p i * 65536 < max s.clk t0 → exec (.sliceMaxExceeded t0 p) s = .next (folioFault (s.at t0) p 5 (s.local p (s.pcOf p) 4) 0)) ∧
    (max s.clk t0 ≤ (s.eng p).runAt + s.sliceMax p i * 65536 → exec (.sliceMaxExceeded t0 p) s = .next (s.at t0)) ∧
    Ends (exec (.sliceUrgencyRise t0 p) s) (fun t => t.regs = s.regs ∧ t.mem = s.mem ∧ (t.eng p).running = some i ∧
      (t.eng p).slices.map (·.1) = (s.eng p).slices.map (·.1) ∧
      ∀ c ∈ (t.eng p).slices, ∀ r, c.2.since = some r → c.2.urgency = urgencyOf (max s.clk t0 - r) (s.sliceTarget p c.1))

/-- Register reads: what they return, and what they clear. A read of 1, 2 or 4 aligned bytes of a register returns the addressed bytes of its word and clears the RC fields that lie wholly within them; every other field, and everything else, is as before but for the reader's latch of TIME_NOW_SUB and TIME_CAP_SUB. A read that no register answers returns 0 and changes nothing. A 64-bit read is two 32-bit reads, the lower address first, each clearing the RC fields of its own register. -/
def Obligations.RegisterReads : Prop :=
  ∀ (s σ : State) (t src a : Nat), σ = s.at t →
    (∀ n l r, n = 1 ∨ n = 2 ∨ n = 4 → a % n = 0 → reaches σ src a = true → r = busAlias (a / 4 * 4) → l = busLatch σ src r →
      Ends (exec (.rcRegisterRead t src a n) s) (fun u =>
        u.out = .readData src (busWord l src r / 2 ^ (8 * (a % 4)) % 2 ^ (8 * n)) :: σ.out ∧
        (∀ f i, u.rd f i = if f.key i ∈ rcWithin l r (a % 4) n then 0 else σ.rd f i) ∧
        u = { σ with regs := u.regs, out := u.out, tu := l.tu })) ∧
    (∀ n, n = 1 ∨ n = 2 ∨ n = 4 → reaches σ src a = false ∨ a % n ≠ 0 →
      exec (.rcRegisterRead t src a n) s = .next (σ.emit (.readData src 0))) ∧
    (∀ lo hi, lo = busReadWord σ src a 4 → hi = busReadWord lo.1 src (a + 4) 4 →
      exec (.rcRegisterRead t src a 8) s = .next (hi.1.emit (.readData src (lo.2 + 2 ^ 32 * hi.2))))

/-- Register writes: the access codes, and the writes that are ignored. A 32-bit write of a register of BAR0 that has no row of its own is ignored whole if a field that it writes is out of its range or a rule of its chapter is against it. Otherwise a field RW takes its bits; RO, WO and RC fields keep what they hold; an RWL field takes its bits unless its lock is set; a 1 clears a bit of a W1C field and sets a bit of a W1S field, a 0 leaves it. No other register changes, and nothing else of the machine, but that a mode transition that waits may then apply. A write of 8 or 16 bits, one at an address that does not answer its writer, and one that is not aligned are ignored; a 64-bit write is two 32-bit writes, the lower address first. -/
def Obligations.RegisterWrites : Prop :=
  ∀ (s σ : State) (t src a v : Nat) (ps : List FieldAt), σ = s.at t → ps = regFields σ a →
    (reaches σ src a = false ∨ a % 4 ≠ 0 → exec (.registerWrite t src a 4 v) s = .next σ) ∧
    (∀ n, n = 1 ∨ n = 2 → a < bar2 ∨ bar2 + catSize ≤ a → exec (.registerWrite t src a n v) s = .next σ) ∧
    exec (.registerWrite t src a 8 v) s = .next (busWriteWord (busWriteWord σ src a (v % 2 ^ 32)) src (a + 4) (v / 2 ^ 32 % 2 ^ 32)) ∧
    (reaches σ src a = true → a % 4 = 0 → a < bar2 → ownRow a = false → v < 2 ^ 32 →
      (∀ f ∈ regTable, f.bank = .one → f.addr = a → f.acc = .rw → f.inRange (bits v f.lsb f.width) = false →
        exec (.registerWrite t src a 4 v) s = .next σ.settle) ∧
      (regForbids σ a v = true → exec (.registerWrite t src a 4 v) s = .next σ.settle) ∧
      (regTakes σ a v ps = true → EndsIn (exec (.registerWrite t src a 4 v) s) State.settle (fun u =>
        OnlyRegs σ u (ps.map (fun p => p.1.key p.2.1)) ∧
        ∀ f ∈ regTable, f.bank = .one → f.addr = a →
          (f.acc = .rw → u.rd f = bits v f.lsb f.width) ∧
          (f.acc = .ro ∨ f.acc = .wo ∨ f.acc = .rc → u.rd f = σ.rd f) ∧
          (∀ k, f.acc = .rwl k → u.rd f = if locked σ k then σ.rd f else bits v f.lsb f.width) ∧
          (f.acc = .w1c → ∀ j, j < f.width → (u.rd f).testBit j = ((σ.rd f).testBit j && !v.testBit (f.lsb + j))) ∧
          (f.acc = .w1s → ∀ j, j < f.width → (u.rd f).testBit j = ((σ.rd f).testBit j || v.testBit (f.lsb + j))))))

/-- The Catalog: invalidations, fetches and the lock. CAT_INVALIDATE of a channel that carries entries starts a fetch, or one further fetch while one is outstanding, and no more; with `all` it does so for every unpinned channel whose entry is cached. A fetched entry that fails a check is dropped without trace: the entry in effect stays. One that passes is loaded for its unit's next boundary while the unit stands within an interval, and is in effect at once otherwise. CAT_LOCK sets `cat_lock` and nothing else. With BAR2 closed to the host, each of the host's commands moves the clock alone. Reserved rings and the two triggers of the epoch are not fetched (the model's reading, log 25). -/
def Obligations.CatalogFetches : Prop :=
  ∀ (s σ : State) (t ch : Nat), σ = s.at t → ch < 4096 →
    (bar2Open s = false → exec (.catInvalidate t ch) s = .next σ ∧ exec (.catInvalidateAll t) s = .next σ ∧ exec (.catLock t) s = .next σ) ∧
    (bar2Open s = true → Ends (exec (.catLock t) s) (fun u => u.on Reg.CAT_STATUS.cat_lock = true ∧ OnlyRegs σ u [Reg.CAT_STATUS.cat_lock.key 0])) ∧
    (bar2Open s = true → classOf ch = none ∨ catFixed ch = true → exec (.catInvalidate t ch) s = .next σ) ∧
    (bar2Open s = true → classOf ch ≠ none → catFixed ch = false → Ends (exec (.catInvalidate t ch) s) (fun u =>
      (∀ c, Tbl.get 0 u.cat.fetches c = if c = ch then min 2 (Tbl.get 0 s.cat.fetches ch + 1) else Tbl.get 0 s.cat.fetches c) ∧
      u.on Reg.CAT_STATUS.inv_busy = true ∧ u.cat.inEffect = s.cat.inEffect ∧ u.cat.loaded = s.cat.loaded ∧ u.mem = s.mem ∧
      OnlyRegs { σ with cat := u.cat } u [Reg.CAT_STATUS.inv_busy.key 0, Reg.CAT_STATUS.cached.key 0])) ∧
    (bar2Open s = true → Ends (exec (.catInvalidateAll t) s) (fun u =>
      (∀ c, Tbl.get 0 u.cat.fetches c =
        if (classOf c).any (fun k => !clsPinned k.1) && !catFixed c && ((Tbl.find s.cat.inEffect c).isSome || (Tbl.find s.cat.loaded c).isSome)
        then min 2 (Tbl.get 0 s.cat.fetches c + 1) else Tbl.get 0 s.cat.fetches c) ∧
      u.cat.inEffect = s.cat.inEffect ∧ u.cat.loaded = s.cat.loaded ∧ u.mem = s.mem)) ∧
    (Tbl.find s.cat.fetches ch = none → exec (.catalogFetchComplete t ch) s = .next σ.settle) ∧
    (∀ n e x, Tbl.find s.cat.fetches ch = some n → e = σ.peekBytes (entryAddr σ ch) 128 →
      x = { σ with cat := { σ.cat with fetches := if n ≤ 1 then Tbl.del s.cat.fetches ch else s.cat.fetches.put ch (n - 1) } } →
      (entryOk x ch e = false →
        EndsIn (exec (.catalogFetchComplete t ch) s) State.settle (fun u =>
          (n ≤ 1 → Tbl.get 0 u.cat.fetches ch = 0) ∧ (1 < n → Tbl.get 0 u.cat.fetches ch = n - 1) ∧
          u.cat.inEffect = s.cat.inEffect ∧ u.cat.loaded = s.cat.loaded ∧
          OnlyRegs { σ with cat := u.cat } u [Reg.CAT_STATUS.inv_busy.key 0, Reg.CAT_STATUS.cached.key 0])) ∧
      (entryOk x ch e = true →
        (catWaits s ch = true → EndsIn (exec (.catalogFetchComplete t ch) s) State.settle (fun u =>
          Tbl.find u.cat.loaded ch = some (asCached ch e) ∧ u.cat.inEffect = s.cat.inEffect ∧ u.mem = s.mem ∧
          (n ≤ 1 → Tbl.get 0 u.cat.fetches ch = 0) ∧ (1 < n → Tbl.get 0 u.cat.fetches ch = n - 1))) ∧
        (catWaits s ch = false → EndsIn (exec (.catalogFetchComplete t ch) s)
          (fun x => (catShow (entryTaken x ch (s.entry ch))).settle) (fun u =>
            Tbl.find u.cat.inEffect ch = some (asCached ch e) ∧ (∀ c, c ≠ ch → Tbl.find u.cat.inEffect c = Tbl.find s.cat.inEffect c) ∧
            Tbl.find u.cat.loaded ch = none ∧ u.mem = s.mem ∧ u.regs = s.regs))))

/-- The Catalog window, and the locks of limits. A 32-bit word the host writes through BAR2 within the table lands in the Stacks at CAT_BASE + offset, low byte first, and no other byte changes; a write to an entry with `host_ro`, to a reserved ring, in SHADOW to a mirrored class, or that is not aligned is ignored. LIM_LOCK, TLIM_LOCK and CFG_LOCK, with the registers open to the host, set their lock bit and nothing else. -/
def Obligations.CatalogWindowAndLocks : Prop :=
  ∀ (s σ : State) (t off v : Nat), σ = s.at t →
    (bar2Open s = false → exec (.catalogWindowWrite t off v) s = .next σ) ∧
    (HdrE.hostRo.on (σ.peekBytes (entryAddr σ (off / 128)) 128) = true ∨ (chRing 6 ≤ off / 128 ∧ off / 128 ≤ chRing 15) ∨
      (σ.mode = modeShadow ∧ mirroredChan (off / 128) = true) ∨ off % 4 ≠ 0 ∨ catSize ≤ off →
      exec (.catalogWindowWrite t off v) s = .next σ) ∧
    (bar2Open s = true → HdrE.hostRo.on (σ.peekBytes (entryAddr σ (off / 128)) 128) = false → ¬(chRing 6 ≤ off / 128 ∧ off / 128 ≤ chRing 15) →
      σ.mode ≠ modeShadow → off % 4 = 0 → off < catSize → catBase σ + catSize ≤ stacksSize → σ.frozen = false →
      Ends (exec (.catalogWindowWrite t off v) s) (fun u => Wrote s u (catBase σ + off) (leBytes 4 v) ∧ u = { σ with mem := u.mem, pair := u.pair })) ∧
    (hostOpen σ = false → exec (.tlimLock t) s = .next σ) ∧
    (hostOpen σ = true →
      Ends (exec (.tlimLock t) s) (fun u => u.on Reg.THERM_LIMITS.tlim_lock = true ∧ OnlyRegs σ u [Reg.THERM_LIMITS.tlim_lock.key 0]) ∧
      Ends (exec (.limLock t) s) (fun u => u.on Reg.FS_LIMITS.lim_lock = true ∧ OnlyRegs σ u [Reg.FS_LIMITS.lim_lock.key 0]) ∧
      Ends (exec (.cfgLock t) s) (fun u => u.on Reg.RING_CFG.cfg_lock = true ∧ OnlyRegs σ u [Reg.RING_CFG.cfg_lock.key 0]))

/-- Ledger snapshots and the holdoff of interrupts. LEDGER_SNAP_WRITE sets `snap_busy` and asks for a snapshot, and does nothing while one is in progress or BAR2 is closed. LEDGER_SNAP_COMPLETE, once the counters have been taken at a line boundary or the 10 µs are over, shows them in the window with their line number and `snap_free`, clears `snap_busy`, and sets `ledger_mismatch` and raises event 0x0003 with its quantity and channel for each invariant of Table 1-10 that fails; before that it does nothing. At the end of a holdoff IRQ_HOLDOFF_EXPIRY sends one message for the events that fell within it, or marks it pending under a mask. -/
def Obligations.LedgerSnapshots : Prop :=
  ∀ (s σ : State) (t n line : Nat) (c : Tbl Nat) (free : Bool), σ = s.at t →
    (bar2Open s = false ∨ σ.on Reg.LEDGER_SNAP.snap_busy = true → exec (.ledgerSnapWrite t) s = .next σ) ∧
    (bar2Open s = true → σ.on Reg.LEDGER_SNAP.snap_busy = false → Ends (exec (.ledgerSnapWrite t) s) (fun u =>
      u.on Reg.LEDGER_SNAP.snap_busy = true ∧ u.led = { σ.led with asked := some σ.clk, taken := none, seqStarted := s.led.seqStarted + 1 } ∧
      OnlyRegs { σ with led := u.led } u [Reg.LEDGER_SNAP.snap_busy.key 0])) ∧
    (∀ a, σ.led.taken = none → σ.led.asked = some a → σ.clk < a + 10 * usU → exec (.ledgerSnapComplete t) s = .next σ) ∧
    (σ.led.taken = some (c, line, free) ∨
        (σ.led.taken = none ∧ (∃ a, σ.led.asked = some a ∧ a + 10 * usU ≤ σ.clk) ∧ c = σ.ledView ∧ line = σ.snapLine ∧ free = true) →
      line < 2 ^ 48 →
      (ledBroken c = [] → Ends (exec (.ledgerSnapComplete t) s) (fun u =>
        u.led.snap = c ∧ u.led.live = s.led.live ∧ u.led.asked = none ∧ u.led.seqDone = s.led.seqStarted ∧
        u.on Reg.LEDGER_SNAP.snap_busy = false ∧ u.on Reg.LEDGER_SNAP.snap_free = free ∧
        u.rd2 Reg.LEDGER_SNAP_LINE_LO.snap_line_lo Reg.LEDGER_SNAP_LINE_HI.snap_line_hi = line ∧
        u.on Reg.LEDGER_SNAP.ledger_mismatch = s.on Reg.LEDGER_SNAP.ledger_mismatch ∧ u.mem = s.mem ∧ u.out = s.out)) ∧
      (∀ q ch rest, ledBroken c = (q, ch) :: rest → EndsIn (exec (.ledgerSnapComplete t) s)
        (fun x => rest.foldl (fun x b => (x.wr Reg.LEDGER_SNAP.ledger_mismatch 0 1).event 0x0003 b.2 line b.1 0) (x.event 0x0003 ch line q 0)) (fun u =>
        u.led.snap = c ∧ u.led.seqDone = s.led.seqStarted ∧
        u.on Reg.LEDGER_SNAP.snap_busy = false ∧ u.on Reg.LEDGER_SNAP.snap_free = free ∧
        u.rd2 Reg.LEDGER_SNAP_LINE_LO.snap_line_lo Reg.LEDGER_SNAP_LINE_HI.snap_line_hi = line ∧
        u.on Reg.LEDGER_SNAP.ledger_mismatch = true ∧ u.mem = s.mem ∧ u.out = s.out))) ∧
    ((s.ring n).held = false ∨ holdoffPassed σ n (s.ring n) = false → exec (.irqHoldoffExpiry t n) s = .next σ) ∧
    ((s.ring n).held = true → holdoffPassed σ n (s.ring n) = true → s.entOn (chRing n) RingE.irqEn = true →
      (s.on Reg.MSIX.mask n = false → Ends (exec (.irqHoldoffExpiry t n) s) (fun u =>
        u.out = .msix n :: s.out ∧ u.ring n = { s.ring n with lastMsi := some σ.clk, held := false } ∧
        u = { σ with out := u.out, rings := u.rings })) ∧
      (s.on Reg.MSIX.mask n = true → Ends (exec (.irqHoldoffExpiry t n) s) (fun u =>
        u.on Reg.MSIX_PBA.pend n = true ∧ u.ring n = { s.ring n with held := false } ∧ u.out = s.out ∧
        OnlyRegs { σ with rings := u.rings } u [Reg.MSIX_PBA.pend.key n])))

/-- Doorbells: when an index write is accepted. A host write of a producer index P of a host-to-device ring is accepted exactly when (P − producer index) mod 2³² and (P − consumer index) mod 2³² are each at most the ring size; the producer index is then P and `desc_posted` counts the descriptors published, before the ring's consumer is woken. A host write of a consumer index C of a device-to-host ring is accepted exactly when (C − consumer index) mod 2³² is at most (producer index − consumer index) mod 2³²; the consumer index is then C, and the descriptors passed count as consumed and completed. Every other write is ignored and the indices keep their values: one that would move an index back, one of an index that the host does not own, and one of a ring without a valid entry. -/
def Obligations.Doorbells : Prop :=
  ∀ (s σ : State) (t n i : Nat), σ = s.at t → n < 256 → i < 2 ^ 32 →
    (bar2Open s = false ∨ s.ringUp n = false → exec (.ringProducerWrite t n i) s = .next σ ∧ exec (.ringConsumerWrite t n i) s = .next σ) ∧
    (s.ent (chRing n) RingE.direction ≠ 1 → exec (.ringProducerWrite t n i) s = .next σ) ∧
    (s.ent (chRing n) RingE.direction ≠ 2 → exec (.ringConsumerWrite t n i) s = .next σ) ∧
    (bar2Open s = true → s.ringUp n = true → s.ent (chRing n) RingE.direction = 1 →
      (diff32 i (s.ring n).prod ≤ s.ringSize n → diff32 i (s.ring n).cons ≤ s.ringSize n →
        EndsIn (exec (.ringProducerWrite t n i) s) (fun x => ringWake x n) (fun u =>
          (u.ring n).prod = i ∧ (u.ring n).cons = (s.ring n).cons ∧ (u.ring n).flight = (s.ring n).flight ∧
          u.ledGet (Led.descPosted n) = low 64 (s.ledGet (Led.descPosted n) + diff32 i (s.ring n).prod) ∧
          (∀ k, k ≠ n → u.ring k = s.ring k) ∧ u.mem = s.mem)) ∧
      (s.ringSize n < diff32 i (s.ring n).prod ∨ s.ringSize n < diff32 i (s.ring n).cons →
        exec (.ringProducerWrite t n i) s = .next σ)) ∧
    (bar2Open s = true → s.ringUp n = true → s.ent (chRing n) RingE.direction = 2 →
      (diff32 i (s.ring n).cons ≤ s.ringHolds n →
        EndsIn (exec (.ringConsumerWrite t n i) s) (fun x => if n = 0 then x.flushEvents else x) (fun u =>
          u.ring n = { s.ring n with cons := i } ∧ (∀ k, k ≠ n → u.ring k = s.ring k) ∧
          u.ledGet (Led.descConsumed n) = low 64 (s.ledGet (Led.descConsumed n) + diff32 i (s.ring n).cons) ∧
          u.ledGet (Led.descCompleted n) = low 64 (s.ledGet (Led.descCompleted n) + diff32 i (s.ring n).cons) ∧
          u.ledGet (Led.descInFlight n) = s.ledGet (Led.descInFlight n) ∧ u.mem = s.mem ∧ u.regs = s.regs)) ∧
      (s.ringHolds n < diff32 i (s.ring n).cons → exec (.ringConsumerWrite t n i) s = .next σ))

/-- The copy engine: what an intake descriptor completes with. On an intake ring that the engine can serve: a descriptor whose opcode is neither COPY_IN nor PUT32 completes alone with 0x103; a COPY_IN whose `chain` is clear, or whose next descriptor's opcode is not 0x0100, alone with 0x104; a COPY_IN pair whose source is not host memory together with 0x101, one whose destination is not wholly within the Stacks or overlaps the Catalog table together with 0x102; a PUT32 whose destination is so or is not 4-byte aligned with 0x102. None of these writes anything but its descriptors. A pair that passes is taken and copied: as the copy completes the source bytes are at the destination, no other byte has changed, and both descriptors complete with status 0 and the bytes copied. A PUT32 that passes stores its value, low byte first, and completes with status 0 and the value. -/
def Obligations.IntakeDescriptors : Prop :=
  ∀ (s σ : State) (t n i : Nat) (d e : Desc), σ = s.at t → i = (s.ring n).cons → d = s.desc n i → e = s.desc n (mod32 (i + 1)) →
    (intakeReady s n = true →
      (d.opcode ≠ 0x0101 → d.opcode ≠ 0x0102 →
        exec (.copyIn t n) s = .next (ringComplete (ringTake σ n copyAgent) n i 0x103 0) ∧
        exec (.put32 t n) s = .next (ringComplete (ringTake σ n copyAgent) n i 0x103 0)) ∧
      (d.opcode = 0x0101 → d.chain = false → exec (.copyIn t n) s = .next (ringComplete (ringTake σ n copyAgent) n i 0x104 0)) ∧
      (d.opcode = 0x0101 → d.chain = true → 2 ≤ s.ringHolds n →
        (e.opcode ≠ 0x0100 → exec (.copyIn t n) s = .next (ringComplete (ringTake σ n copyAgent) n i 0x104 0)) ∧
        (e.opcode = 0x0100 →
          (liesIn d.addr d.length .host = false ∨ areaOf d.addr ≠ .host → exec (.copyIn t n) s = .next
            (ringComplete (ringComplete (ringTake (ringTake σ n copyAgent) n copyAgent) n i 0x101 0) n (mod32 (i + 1)) 0x101 0)) ∧
          (liesIn d.addr d.length .host = true → areaOf d.addr = .host →
            (stacksSize < e.addr + d.length ∨ overlap e.addr d.length (catBase s) catSize = true → exec (.copyIn t n) s = .next
              (ringComplete (ringComplete (ringTake (ringTake σ n copyAgent) n copyAgent) n i 0x102 0) n (mod32 (i + 1)) 0x102 0)) ∧
            (e.addr + d.length ≤ stacksSize → overlap e.addr d.length (catBase s) catSize = false →
              Ends (exec (.copyIn t n) s) (fun u => Tbl.find u.la.copying n = some i ∧ (u.ring n).cons = mod32 (mod32 (i + 1) + 1) ∧
                (u.ring n).flight = (s.ring n).flight ++ [(i, copyAgent), (mod32 (i + 1), copyAgent)] ∧ u.mem = s.mem ∧ u.regs = s.regs))))) ∧
      (d.opcode = 0x0102 →
        (d.addr % 4 ≠ 0 ∨ stacksSize < d.addr + 4 ∨ overlap d.addr 4 (catBase s) catSize = true →
          exec (.put32 t n) s = .next (ringComplete (ringTake σ n copyAgent) n i 0x102 0)) ∧
        (d.addr % 4 = 0 → d.addr + 4 ≤ stacksSize → overlap d.addr 4 (catBase s) catSize = false → s.mode ≠ modeShadow →
          EndsIn (exec (.put32 t n) s) (fun x => ringComplete x n i 0 d.length) (fun u => Wrote s u d.addr (leBytes 4 d.length) ∧
            u = { ringTake σ n copyAgent with mem := u.mem, pair := u.pair })))) ∧
    (Tbl.find s.la.copying n = none → exec (.copyInComplete t n) s = .next σ) ∧
    (∀ j d e, Tbl.find s.la.copying n = some j → d = s.desc n j → e = s.desc n (mod32 (j + 1)) → e.addr + d.length ≤ stacksSize →
      s.mode ≠ modeShadow → s.frozen = false →
      EndsIn (exec (.copyInComplete t n) s) (fun x => ringComplete (ringComplete x n j 0 d.length) n (mod32 (j + 1)) 0 d.length) (fun u =>
        Wrote s u e.addr (s.peekBytes d.addr d.length) ∧ Tbl.find u.la.copying n = none ∧ u.rings = s.rings ∧ u.regs = s.regs))

/-- Power states within IDLE. A write of `power_req` is ignored outside IDLE, while `power_busy` is 1 and for 0b11. In IDLE it stands; where it asks for another state than the one in effect the change begins and `power_busy` reads 1 until POWER_STATE_REACHED, which shows the new state in `power` and clears `power_busy`: on the way out of P0 lanes and camera ports go down, on the way to P0 what was down comes up, and a return to P0 that an epoch asked for meanwhile begins at once. While no change is in progress, or P2 is asked for and a Bindery unit's job still runs (that the command then comes again is the model's choice, log 95), POWER_STATE_REACHED changes nothing of its own. -/
def Obligations.PowerStates : Prop :=
  ∀ (s σ : State) (t n to_ was : Nat), σ = s.at t → to_ = s.md.powerTo → was = s.rd Reg.MODE_CUR.power →
    (s.mode ≠ modeIdle ∨ s.on Reg.MODE_CUR.power_busy = true ∨ 3 ≤ n → exec (.powerReqWrite t n) s = .next σ) ∧
    (s.mode = modeIdle → s.on Reg.MODE_CUR.power_busy = false → n < 3 →
      (was = n → Ends (exec (.powerReqWrite t n) s) (fun u => u.rd Reg.POWER_CTRL.power_req = n ∧ OnlyRegs σ u [Reg.POWER_CTRL.power_req.key 0])) ∧
      (was ≠ n → n = 0 → Ends (exec (.powerReqWrite t n) s) (fun u => u.rd Reg.POWER_CTRL.power_req = 0 ∧ u.on Reg.MODE_CUR.power_busy = true ∧
        u.md.powerTo = 0 ∧ u.rd Reg.MODE_CUR.power = was ∧ u.mode = modeIdle ∧
        OnlyRegs { σ with md := u.md } u [Reg.POWER_CTRL.power_req.key 0, Reg.MODE_CUR.power_busy.key 0])) ∧
      (was ≠ n → n ≠ 0 → EndsIn (exec (.powerReqWrite t n) s)
        (fun x => ((List.range 4).foldl emuStop (groupsSleep (movesStop x))).wr Reg.MODE_CUR.power_busy 0 1)
        (fun u => u.rd Reg.POWER_CTRL.power_req = n ∧ u.md.powerTo = n ∧ OnlyRegs { σ with md := u.md } u [Reg.POWER_CTRL.power_req.key 0]))) ∧
    (s.on Reg.MODE_CUR.power_busy = false → exec (.powerStateReached t) s = .next σ.lineEnd) ∧
    (to_ = 2 → s.bnd.any (fun b => b.2.job.isSome) = true → exec (.powerStateReached t) s = .next σ.lineEnd) ∧
    (s.on Reg.MODE_CUR.power_busy = true → to_ < 3 → (to_ = 2 → s.bnd.any (fun b => b.2.job.isSome) = false) →
      (was ≠ 0 → was ≠ 2 ∨ to_ = 2 → s.md.powerAgain = true → EndsIn (exec (.powerStateReached t) s) (fun x => (powerStart x 0).lineEnd) (fun u =>
        u.rd Reg.MODE_CUR.power = to_ ∧ u.on Reg.MODE_CUR.power_busy = false ∧ u.md.powerAgain = false ∧
        OnlyRegs { cyclesTurn σ with md := u.md } u [Reg.MODE_CUR.power_busy.key 0, Reg.MODE_CUR.power.key 0])) ∧
      (was = 1 → to_ = 2 → s.md.powerAgain = false → EndsIn (exec (.powerStateReached t) s) State.lineEnd (fun u =>
        u.rd Reg.MODE_CUR.power = 2 ∧ u.on Reg.MODE_CUR.power_busy = false ∧ OnlyRegs (cyclesTurn σ) u [Reg.MODE_CUR.power_busy.key 0, Reg.MODE_CUR.power.key 0])) ∧
      (was = 0 → to_ ≠ 0 → EndsIn (exec (.powerStateReached t) s) (fun x =>
          let y := pipes16.foldl portStop (lanesSleep x)
          (if y.md.powerAgain then powerStart { y with md := { y.md with powerAgain := false } } 0 else y).lineEnd)
        (fun u => u.rd Reg.MODE_CUR.power = to_ ∧ u.on Reg.MODE_CUR.power_busy = false ∧ u.md = s.md ∧
          OnlyRegs (cyclesTurn σ) u [Reg.MODE_CUR.power_busy.key 0, Reg.MODE_CUR.power.key 0])) ∧
      (was = 1 → to_ = 0 → s.md.powerAgain = false → EndsIn (exec (.powerStateReached t) s) (fun x => (wakeAll x).lineEnd) (fun u =>
        u.rd Reg.MODE_CUR.power = 0 ∧ u.on Reg.MODE_CUR.power_busy = false ∧ OnlyRegs (cyclesTurn σ) u [Reg.MODE_CUR.power_busy.key 0, Reg.MODE_CUR.power.key 0])) ∧
      (was = 2 → to_ = 0 → s.md.powerAgain = false → EndsIn (exec (.powerStateReached t) s) (fun x => (wakeAll (scribesWake x)).lineEnd) (fun u =>
        u.rd Reg.MODE_CUR.power = 0 ∧ u.on Reg.MODE_CUR.power_busy = false ∧ OnlyRegs (cyclesTurn σ) u [Reg.MODE_CUR.power_busy.key 0, Reg.MODE_CUR.power.key 0])))

/-- Epochs as commanded: when EPOCH_CMD is ignored, what a schedule leaves, and what a cancel does. EPOCH_SCHEDULE, and the write of EPOCH_CMD with `target`, `system` and `go` that it stands for, is ignored while an epoch is outstanding, that is while `state` reads Pending, Applying or Rolling back; for a transition that Table 2-2 does not have as an epoch from the current mode, in SHADOW the active device's; for an instant less than 20 µs ahead, or less than 2.0 ms for a system epoch; for a `target` that is no mode; and for a system epoch while the node number is not fixed or `node_dup` is set. Otherwise the epoch is pending at the instant of EPOCH_TIME, `seq` is one more than that of the last epoch this device originated, and `origin` is the node number, 0x3FFF while none is fixed; leaving IDLE calls for P0, and a system epoch is sent over the ring. A cancel of a pending or applying epoch starts its rollback with cause 0x5 at the later of 1.0 ms on and the epoch instant, and sends it for a system epoch; without one, while the epoch is rolling back, and in a write with both `go` and `cancel`, it is ignored. -/
def Obligations.EpochCommands : Prop :=
  ∀ (s σ : State) (t target at_ m seq v : Nat) (system : Bool), σ = s.at t → hostOpen s = true → at_ = epochTime s →
    m = (if s.mode = modeShadow then s.md.heard else s.mode) → seq = (s.md.mySeq + 1) % 2 ^ 18 → nodeNow s < 2 ^ 14 →
    ((s.rd Reg.EPOCH_STATUS.state = 1 ∨ s.rd Reg.EPOCH_STATUS.state = 2 ∨ s.rd Reg.EPOCH_STATUS.state = 4) ∨ epochAllowed m target = false ∨
        at_ < σ.devTime + (if system then 2 * msU else 20 * usU) ∨ target < 1 ∨ 12 < target ∨
        (system = true ∧ (s.on Reg.RING_NODE.learned = false ∨ s.on Reg.RING_NODE.node_dup = true)) →
      exec (.epochSchedule t target system) s = .next σ) ∧
    (s.rd Reg.EPOCH_STATUS.state ≠ 1 → s.rd Reg.EPOCH_STATUS.state ≠ 2 → s.rd Reg.EPOCH_STATUS.state ≠ 4 → epochAllowed m target = true →
      σ.devTime + (if system then 2 * msU else 20 * usU) ≤ at_ → 1 ≤ target → target ≤ 12 →
      (system = true → s.on Reg.RING_NODE.learned = true ∧ s.on Reg.RING_NODE.node_dup = false) →
      EndsIn (exec (.epochSchedule t target system) s) (fun x =>
          let y := if s.mode = modeIdle && target != modeIdle then powerRecall x else x
          if system then ringSend y rtEpoch (leBytes 4 (seq * 16384 + nodeNow s) ++ leBytes 1 target ++ leBytes 1 0 ++ leBytes 6 (secOf at_) ++ leBytes 4 (nsOf at_))
          else y)
        (fun u => u.rd Reg.EPOCH_STATUS.state = 1 ∧ u.rd Reg.EPOCH_STATUS.ep_target = target ∧ u.rd Reg.EPOCH_STATUS.rb_cause = 0 ∧
          u.rd Reg.EPOCH_ID.seq = seq ∧ u.md.mySeq = seq ∧
          u.rd Reg.EPOCH_ID.origin = (if s.on Reg.RING_NODE.learned then s.rd Reg.RING_NODE.node else 0x3FFF) ∧
          u.md.epInstant = at_ ∧ u.md.epDeadline = at_ + s.rd Reg.EPOCH_TIMEOUT.epoch_timeout * usU ∧ u.md.system = system ∧ u.md.applied = 0 ∧
          u.rd Reg.EPOCH_APPLIED_0.applied_0 = 0 ∧ u.rd Reg.EPOCH_APPLIED_3.applied_3 = 0 ∧
          Marks σ u 62 at_ ∧ u.mode = s.mode ∧ u = { σ with regs := u.regs, md := u.md, tu := u.tu, cat := u.cat, mem := u.mem, pair := u.pair })) ∧
    (s.md.tripped = false → s.rd Reg.EPOCH_STATUS.state = 1 ∨ s.rd Reg.EPOCH_STATUS.state = 2 → EndsIn (exec (.epochCancel t) s)
      (fun x => if s.md.system then sendRollback x (epochId s) 5 (max (σ.devTime + msU) s.md.epInstant) else x)
      (fun u => RollsBack σ u 5 (max (σ.devTime + msU) s.md.epInstant))) ∧
    (s.md.tripped = true ∨ (s.rd Reg.EPOCH_STATUS.state ≠ 1 ∧ s.rd Reg.EPOCH_STATUS.state ≠ 2) → exec (.epochCancel t) s = .next σ) ∧
    (s.md.tripped = false → v < 2 ^ 32 →
      (bit v 31 = true → bit v 30 = true → exec (.registerWrite t 17 Reg.EPOCH_CMD.go.addr 4 v) s = .next σ.settle) ∧
      (bit v 31 = true → bit v 30 = false → ∃ u, exec (.epochSchedule t (bits v 0 4) (bit v 8)) s = .next u ∧
        exec (.registerWrite t 17 Reg.EPOCH_CMD.go.addr 4 v) s = .next u.settle) ∧
      (bit v 31 = false → bit v 30 = true → ∃ u, exec (.epochCancel t) s = .next u ∧
        exec (.registerWrite t 17 Reg.EPOCH_CMD.go.addr 4 v) s = .next u.settle))

/-- Epochs as they come: instant, timeout and rollback. At the epoch instant a pending epoch whose transition is no longer allowed rolls back 1.0 ms later with cause 0x3 and the mode stays; one that is allowed, with the device in P0, applies: MODE_CUR shows the target, in SHADOW `shadow_of` does, what the mode starts begins, and each unit with no interval in progress applies with the core; outside P0 it waits. When `epoch_timeout` has passed with units that have not applied, the epoch rolls back with cause 0x1, 1.0 ms after its deadline, and a system epoch is rolled back over the ring. At the rollback epoch MODE_CUR returns to the mode before, in SHADOW `shadow_of` does, and the units return at their boundaries. Trigger 62 or 63 fires first, and what the end of a line may bring follows. Out of their time, and on a device that a thermal trip has stopped, these commands change no epoch. -/
def Obligations.EpochOutcomes : Prop :=
  ∀ (s σ y z : State) (t g : Nat), σ = s.at t → y = trigFire σ 62 → z = trigFire σ 63 → g = y.rd Reg.EPOCH_STATUS.ep_target →
    (s.md.tripped = true ∨ s.rd Reg.EPOCH_STATUS.state ≠ 2 ∨ σ.devTime < s.md.epDeadline → exec (.epochTimeout t) s = .next σ) ∧
    (s.md.tripped = false → s.rd Reg.EPOCH_STATUS.state = 2 → s.md.epDeadline ≤ σ.devTime → EndsIn (exec (.epochTimeout t) s)
      (fun x => epochEvent (if s.md.system then sendRollback x (epochId s) 1 (s.md.epDeadline + msU) else x))
      (fun u => RollsBack σ u 1 (s.md.epDeadline + msU))) ∧
    (y.md.tripped = true ∨ epochState y ≠ 1 ∨ y.devTime < y.md.epInstant → exec (.epochInstant t) s = .next y.lineEnd) ∧
    (y.md.tripped = false → epochState y = 1 → y.md.epInstant ≤ y.devTime →
      (epochFits y g = false → EndsIn (exec (.epochInstant t) s)
        (fun x => (epochEvent (if y.md.system then sendRollback x (epochId y) 3 (y.md.epInstant + msU) else x)).lineEnd)
        (fun u => RollsBack y u 3 (y.md.epInstant + msU))) ∧
      (epochFits y g = true → powered y = false → EndsIn (exec (.epochInstant t) s) State.lineEnd (fun u =>
        u.rd Reg.EPOCH_STATUS.state = 2 ∧ OnlyRegs y u [Reg.EPOCH_STATUS.state.key 0])) ∧
      (epochFits y g = true → powered y = true →
        (y.mode = modeShadow → EndsIn (exec (.epochInstant t) s)
          (fun x => (boundariesNow x).lineEnd)
          (fun u => u.rd Reg.MODE_CUR.shadow_of = g % 16 ∧ u.mode = modeShadow ∧ u.rd Reg.EPOCH_STATUS.state = 2 ∧ u.md.started = true ∧
            OnlyRegs { y with md := u.md } u [Reg.EPOCH_STATUS.state.key 0, Reg.MODE_CUR.shadow_of.key 0])) ∧
        (y.mode ≠ modeShadow → g ≠ modeStop → g < 16 → EndsIn (exec (.epochInstant t) s)
          (fun x => (boundariesNow (enterMode x y.mode g)).lineEnd)
          (fun u => u.mode = g ∧ u.rd Reg.MODE_CUR.prev_mode = y.mode % 16 ∧ u.rd Reg.MODE_CUR.cause = 0 ∧ u.rd Reg.EPOCH_STATUS.state = 2 ∧
            u.md = { y.md with started := true, before := y.mode } ∧ u = { y with regs := u.regs, md := u.md })))) ∧
    (z.md.tripped = true ∨ epochState z ≠ 4 ∨ z.md.rbReached = true ∨ z.devTime < z.md.rbInstant → exec (.rollbackEpoch t) s = .next z.lineEnd) ∧
    (z.md.tripped = false → epochState z = 4 → z.md.rbReached = false → z.md.rbInstant ≤ z.devTime →
      (Nat.land z.md.applied coreBit = 0 → EndsIn (exec (.rollbackEpoch t) s) (fun x => (returnCheck (boundariesNow x)).lineEnd)
        (fun u => u = { z with md := { z.md with rbReached := true } })) ∧
      (Nat.land z.md.applied coreBit ≠ 0 → z.mode = modeShadow → EndsIn (exec (.rollbackEpoch t) s) (fun x => (returnCheck (boundariesNow x)).lineEnd)
        (fun u => u.rd Reg.MODE_CUR.shadow_of = z.md.before % 16 ∧ u.mode = modeShadow ∧
          OnlyRegs { z with md := { z.md with rbReached := true } } u [Reg.MODE_CUR.shadow_of.key 0])) ∧
      (Nat.land z.md.applied coreBit ≠ 0 → z.mode ≠ modeShadow → isPrinting z.mode = false → z.mode ≠ modeStop → z.mode ≠ modeRewind → z.mode ≠ z.md.before →
        z.md.before < 16 → EndsIn (exec (.rollbackEpoch t) s) (fun x => (returnCheck (boundariesNow (enterMode x z.mode z.md.before))).lineEnd)
        (fun u => u.mode = z.md.before ∧ u.rd Reg.MODE_CUR.prev_mode = z.mode % 16 ∧ u.rd Reg.MODE_CUR.cause = causeRollback ∧
          u = { z with regs := u.regs, md := { z.md with rbReached := true } })))

/-- Lines as they are accepted, decoded and held up. READY_BANDS_POLL reads `ready_bands` of the page being accepted, and a decrease has no effect. A line is accepted once its bands are ready and its start-of-scan lies at least 40 µs ahead, and is counted offered, and held in each slot (withheld in one whose own start-of-scan of it has passed: the model's choice, log 134); one whose reference-row start-of-scan has passed is accepted as starved: offered and withheld, counted in LA_STARVED, its page marked spoilt; any other waits. In SHADOW the lines up to the one a resync catches up with are accepted at any time (the model's reading, log 122). LINE_DECODE takes the next accepted line of its row while the row FIFO has room, and gives each slot of the row its pixels, or, where the band does not decode, a part without drops that will be withheld. A write of `v_job` other than 0 is ignored below `v_min` and above `v_max` of axis 0, and any write of it in REWIND, HOLD and ORDERLY_STOP. Dwells, KEEPOPEN and `hold_open` come when their time is over and not before. -/
def Obligations.RasterLines : Prop :=
  ∀ (s σ : State) (t g : Nat), σ = s.at t → g = s.la.accepted →
    (acceptPage σ = none → exec (.readyBandsPoll t) s = .next σ) ∧
    (∀ q, acceptPage σ = some q → Ends (exec (.readyBandsPoll t) s) (fun u =>
      u.la.pages.length = s.la.pages.length ∧
      (∀ (k : Nat) (p : Page), s.la.pages[k]? = some p → u.la.pages[k]? = some (if p.addr = q.addr ∧ p.first = q.first
        then { p with ready := max p.ready (min q.bands (leNat (σ.peekBytes (q.addr + 40) 4))) } else p)) ∧
      u = { σ with la := { s.la with pages := u.la.pages } })) ∧
    (pageOf σ g = none → exec (.lineAccept t) s = .next σ.lineEnd) ∧
    (∀ p, pageOf σ g = some p →
      (bandReady p g = false → exec (.lineAccept t) s = .next σ.lineEnd) ∧
      (bandReady p g = true → g < s.fire.refNext → ¬(s.mode = modeShadow ∧ g < s.pair.catchUp) → EndsIn (exec (.lineAccept t) s) State.lineEnd (fun u =>
        g < u.la.accepted ∧ u.la.starved = g :: s.la.starved ∧
        u.rd Reg.LA_STARVED.starved_lines = sat 32 (s.rd Reg.LA_STARVED.starved_lines + 1) ∧
        (∀ (k : Nat) (q : Page), s.la.pages[k]? = some q → u.la.pages[k]? = some (if q.first ≤ g ∧ g < q.first + q.lines
          then { q with mark := Nat.lor q.mark (markSpoilt + causeStarved) } else q)) ∧
        u.led = (countLines (countLines σ p.jobIdx (pageSlots σ p) Led.linesOffered) p.jobIdx (pageSlots σ p) Led.linesWithheld).led ∧
        (s.mode ≠ modeShadow → u.pair = s.pair) ∧
        OnlyRegs { σ with la := u.la, led := u.led, pair := u.pair } u [Reg.LA_STARVED.starved_lines.key 0])) ∧
      (bandReady p g = true → (s.fire.refNext ≤ g ∧ farAhead σ g = true) ∨ (s.mode = modeShadow ∧ g < s.pair.catchUp) →
        EndsIn (exec (.lineAccept t) s) State.lineEnd (fun u =>
          g < u.la.accepted ∧
          u.led = (countLines (countLines (countLines σ p.jobIdx (pageSlots σ p) Led.linesOffered)
            p.jobIdx ((pageSlots σ p).filter (fun k => decide ((s.slot k).next ≤ g))) Led.linesHeld)
            p.jobIdx ((pageSlots σ p).filter (fun k => decide (g < (s.slot k).next))) Led.linesWithheld).led ∧
          (s.mode ≠ modeShadow → u.pair = s.pair) ∧
          u = { σ with la := { s.la with accepted := u.la.accepted }, led := u.led, pair := u.pair })) ∧
      (bandReady p g = true → s.fire.refNext ≤ g → farAhead σ g = false → ¬(s.mode = modeShadow ∧ g < s.pair.catchUp) →
        exec (.lineAccept t) s = .next σ.lineEnd)) ∧
    (∀ p i, nextDecode σ p i = none → exec (.lineDecode t p i 0) s = .next σ.lineEnd) ∧
    (∀ p i n pg, nextDecode σ p i = some n → pageOf σ n = some pg →
      (s.rd Reg.MEM_RR_STATUS.horizon_eff ≤ fifoHeld σ p i → exec (.lineDecode t p i 0) s = .next σ.lineEnd) ∧
      (∀ k px, fifoHeld σ p i < s.rd Reg.MEM_RR_STATUS.horizon_eff → rasterLine (rowTo σ p i n) pg p n = .ok px → n ∉ s.la.starved →
        k ∈ (planeRow σ p i).slots → partOf σ k n = none → (s.slot k).next ≤ n →
        EndsIn (exec (.lineDecode t p i 0) s) (fun x => (substCommit x).lineEnd) (fun u =>
          rowDone u p i = n + 1 ∧ u.regs = s.regs ∧ u.mem = s.mem ∧
          ∃ q, partOf u k n = some q ∧ q.px = slotPixels σ (planeRow σ p i) k (rowPixels σ p i n px) ∧ q.drops = dropCount q.px ∧
            q.decoded = true ∧ q.fault = false ∧ q.plane = p ∧ q.line = n)) ∧
      (∀ k kind, fifoHeld σ p i < s.rd Reg.MEM_RR_STATUS.horizon_eff → rasterLine (rowTo σ p i n) pg p n = .error kind → n ∉ s.la.starved →
        k ∈ (planeRow σ p i).slots → partOf σ k n = none → (s.slot k).next ≤ n →
        EndsIn (exec (.lineDecode t p i 0) s) (fun x => (substCommit x).lineEnd) (fun u =>
          rowDone u p i = n + 1 ∧ ∃ q, partOf u k n = some q ∧ q.px = [] ∧ q.drops = 0 ∧ q.decoded = true ∧ q.fault = true))) ∧
    (∀ v, (hostOpen s = false ∨ s.mode = modeRewind ∨ s.mode = modeHold ∨ s.mode = modeStop ∨
        (v ≠ 0 ∧ (v < s.rd Reg.FS_VMIN.v_min ∨ (s.inUse (chAxis 0) = true ∧ s.ent (chAxis 0) AxisE.vMax < v * 1000))) → exec (.vjobWrite t v) s = .next (leadUpdate σ)) ∧
      (hostOpen s = true → s.mode ≠ modeRewind → s.mode ≠ modeHold → s.mode ≠ modeStop →
        v = 0 ∨ (s.rd Reg.FS_VMIN.v_min ≤ v ∧ (s.inUse (chAxis 0) = true → v * 1000 ≤ s.ent (chAxis 0) AxisE.vMax)) → v < 2 ^ 24 → EndsIn (exec (.vjobWrite t v) s) leadUpdate (fun u => u.rd Reg.LA_VJOB.v_job = v ∧
          u.la = { s.la with vJob := if isPrinting s.mode then some (s.la.vJob.getD (s.rd Reg.LA_VJOB.v_job)) else none } ∧ OnlyRegs { σ with la := u.la } u [Reg.LA_VJOB.v_job.key 0]))) ∧
    (s.mode ≠ modeRewind ∨ σ.clk < s.la.dwellUntil ∨ (s.rd Reg.LA_STATUS.rw_step ≠ 3 ∧ s.rd Reg.LA_STATUS.rw_step ≠ 5) → exec (.rewindDwellExpiry t) s = .next σ.lineEnd) ∧
    (s.mode = modeRewind → s.la.dwellUntil ≤ σ.clk →
      (s.rd Reg.LA_STATUS.rw_step = 3 → ∃ u : State, exec (.rewindDwellExpiry t) s = .next u.lineEnd ∧ u.rd Reg.LA_STATUS.rw_step = 4 ∧
        (0 < s.la.backUp / 65536 → (u.axis 0).goal = .target ((s.axis 0).wp - s.la.backUp / 65536)
          (min (s.rd Reg.LA_RW_CFG.rw_rev_speed * 1000) (s.ent (chAxis 0) AxisE.vMax)))) ∧
      (s.rd Reg.LA_STATUS.rw_step = 5 → EndsIn (exec (.rewindDwellExpiry t) s)
        (fun x => (if isGreen x = true then resumeRun x else requestMode x modeHold causeLead).lineEnd)
        (fun u => u.rd Reg.LA_STATUS.rw_step = 6 ∧ OnlyRegs { σ with pair := u.pair } u [Reg.LA_STATUS.rw_step.key 0]))) ∧
    (∀ k, s.inUse (chSlot k) = false ∨ s.entOn (chSlot k) SlotE.koEn = false ∨ mayDrive s k = false ∨ chargeMode s k = false ∨ chargeForbidden s k = true ∨
        s.on Reg.FS_SLOT_STATE.keepopen k = true ∨ σ.clk < (s.slot k).lastFire.getD 0 + s.rd Reg.LA_KEEPOPEN.keepopen_after * msU →
      exec (.keepopenTimeout t k) s = .next σ) ∧
    (∀ k, s.inUse (chSlot k) = true → s.entOn (chSlot k) SlotE.koEn = true → mayDrive s k = true → chargeMode s k = true → chargeForbidden s k = false →
      s.on Reg.FS_SLOT_STATE.keepopen k = false → (s.slot k).lastFire.getD 0 + s.rd Reg.LA_KEEPOPEN.keepopen_after * msU ≤ σ.clk →
      EndsIn (exec (.keepopenTimeout t k) s) (fun x => (laneReleased x k).wr Reg.FS_SLOT_STATE.keepopen k 1) (fun u =>
        u = { σ with out := .orderedSet (slotLane s k) (orderedSetWord osKeepopen (slotFields s k (2 ^ 46))) :: s.out })) ∧
    (s.mode ≠ modeHold ∨ σ.clk < s.la.holdAt + s.rd Reg.LA_KEEPOPEN.hold_open * secU → exec (.holdOpenExpiry t) s = .next σ.settle) ∧
    (s.mode = modeHold → s.la.holdAt + s.rd Reg.LA_KEEPOPEN.hold_open * secU ≤ σ.clk → s.md.pending.any (fun p => p.1 == modeStop) = false →
      EndsIn (exec (.holdOpenExpiry t) s) State.settle (fun u =>
        u.md = { s.md with pending := s.md.pending ++ [(modeStop, causeDecapLimit, none)] } ∧
        u = { σ with md := u.md, la := { s.la with stopFrom := u.la.stopFrom, stopCloses := u.la.stopCloses } } ∧
        (s.on Reg.LA_STATUS.job_open = true → u.la.stopFrom = some (match s.la.stopFrom with | some h => min h s.fire.refNext | none => s.fire.refNext))))

/-- Lines at their start-of-scan: the dispositions of Table 5-2, the data and its deadline, and the acknowledgement. A slot's next line is disposed of by the first row that applies: withheld where charge is forbidden, skipped where the last FIRE lies less than the waveform period back, fired with its data complete, else awaiting its data. LINE_OK within the deadline fires it; past the deadline it is withheld, `data_late` set and its page spoilt. REL_ACK ends a released line fired or withheld, and 50 µs without one withhold it with `ack_lost`. A frame costs one credit and CREDIT grants them. A set whose check fails is counted in `os_err` and discarded, and one under an invalid sync header, which the bits of the operand above its 64 tell (log 133), in `hdr_err`. No frame leaves while a move holds the lane in IDLE. The reference row's start-of-scan captures device time in channel 0x00 and checks the interval; under policies 2 and 3 a line that comes before it is accepted is held back, with those behind it. -/
def Obligations.SlotLines : Prop :=
  (∀ (z : State) (k sos : Nat) (q : Part), PartFires z (firePart z k q sos) k q sos ∧
    PartEnds z (endPart z k q dispWithhold sos) k q dispWithhold Led.linesWithheld Led.dropsWithheld) ∧
  (∀ (z x : State) (g : Nat), x = refInterval z g →
    (sosEarly z = false → x = { z with fire := { z.fire with refAt := some z.clk, refGap := z.fire.refAt.map (fun a => z.clk - a), missed := false } }) ∧
    (sosEarly z = true → (∃ a, z.fire.earlyAt = some a ∧ z.clk < a + msU) →
      x.on Reg.FS_FLAGS.sos_early = true ∧ x.rd Reg.FS_SOS_COUNT.early = sat 16 (z.rd Reg.FS_SOS_COUNT.early + 1)) ∧
    (sosEarly z = true → (∀ a, z.fire.earlyAt = some a → a + msU ≤ z.clk) → ∃ w : State,
      x = w.event 0x0302 noChan (relLine w g) (w.rd Reg.FS_SOS_COUNT.early) 0 ∧
      w.on Reg.FS_FLAGS.sos_early = true ∧ w.rd Reg.FS_SOS_COUNT.early = sat 16 (z.rd Reg.FS_SOS_COUNT.early + 1) ∧ w.fire.earlyAt = some z.clk)) ∧
  ∀ (s σ : State) (t : Nat), σ = s.at t →
    (∀ k x g z, x = catApply σ (chSlot k) → g = (x.slot k).next →
      z = (let y := tempEval x k; y.setSlot k { y.slot k with next := g + 1 }) →
      (slotGoes σ k = false → exec (.startOfScan t k) s = .next σ.lineEnd) ∧
      (slotGoes σ k = true → heldBack x g = false → (pageOf z g = none ∨ slotRow z k = none) → exec (.startOfScan t k) s = .next z.lineEnd) ∧
      (∀ pg p i q, slotGoes σ k = true → heldBack x g = false → pageOf z g = some pg → slotRow z k = some (p, i) → bit pg.planes p = true →
        g < z.la.accepted → g ∉ z.la.starved → partOf z k g = some q →
        (z.mode = modeShadow → EndsIn (exec (.startOfScan t k) s) State.lineEnd (fun u => partOf u k g = some { q with sosAt := some z.clk } ∧ u.regs = z.regs)) ∧
        (z.mode ≠ modeShadow → q.fault = false → freezeOver z = false →
          (chargeForbidden z k = true → exec (.startOfScan t k) s = .next (thermalMark (endPart z k q dispWithhold z.clk) k g).lineEnd) ∧
          (chargeForbidden z k = false → tooSoon z k = true → EndsIn (exec (.startOfScan t k) s) State.lineEnd (fun u =>
            partOf u k g = none ∧ u.on Reg.FS_FLAGS.collided = true ∧ u.on Reg.FS_STATUS.cap_active = true ∧
            u.rd Reg.FS_SKIPPED.skipped = sat 32 (z.rd Reg.FS_SKIPPED.skipped + 1))) ∧
          (chargeForbidden z k = false → tooSoon z k = false → q.bad = true → exec (.startOfScan t k) s = .next (endPart z k q dispWithhold z.clk).lineEnd) ∧
          (chargeForbidden z k = false → tooSoon z k = false → q.bad = false → q.complete = true →
            exec (.startOfScan t k) s = .next (firePart z k q z.clk).lineEnd) ∧
          (chargeForbidden z k = false → tooSoon z k = false → q.bad = false → q.complete = false → EndsIn (exec (.startOfScan t k) s) State.lineEnd (fun u =>
            partOf u k g = some { q with sosAt := some z.clk, taken := (z.slot k).unreleased, limit := deadlineOf z k } ∧ u.regs = z.regs ∧ u.out = z.out))))) ∧
    (refDue (heldBoundary σ) = false → exec (.referenceStartOfScan t) s = .next (heldBoundary σ).lineEnd) ∧
    (s.md.pending = [] → s.md.started = false → s.rd Reg.EPOCH_STATUS.state ≠ 4 → refDue σ = false → exec (.referenceStartOfScan t) s = .next σ.lineEnd) ∧
    (refDue σ = true → outrun σ = true → exec (.referenceStartOfScan t) s = .next (lineBoundary (holdBefore σ) s.fire.refNext).lineEnd) ∧
    (refDue σ = true → outrun σ = false → EndsIn (exec (.referenceStartOfScan t) s) (fun x => (refTail x s.fire.refNext).lineEnd) (fun u =>
      Tbl.get 0 u.tu.capAt 0 = σ.devTime ∧ Tbl.get 0 u.tu.capN 0 = (Tbl.get 0 s.tu.capN 0 + 1) % 2 ^ 32 ∧
      (σ.led.asked.isSome = true → u.led.taken.isSome = true) ∧ u = { σ with led := { σ.led with taken := u.led.taken }, tu := u.tu })) ∧
    (isPrinting s.mode = false ∨ s.fire.missed = true ∨ s.fire.refAt = none → exec (.sosMissing t) s = .next σ) ∧
    (∀ a v : Nat, isPrinting s.mode = true → s.fire.missed = false → s.fire.refAt = some a → (s.axis 0).goal = .speed v → s.rd Reg.FS_VMIN.v_min * 1000 ≤ v →
      (σ.clk < a + s.rd Reg.FS_SOS_CHECK.miss_mult * s.rd Reg.FS_PITCH.line_pitch * 1000000000000 / (max 1 v * 65536) → exec (.sosMissing t) s = .next σ) ∧
      (a + s.rd Reg.FS_SOS_CHECK.miss_mult * s.rd Reg.FS_PITCH.line_pitch * 1000000000000 / (max 1 v * 65536) ≤ σ.clk →
        EndsIn (exec (.sosMissing t) s) (fun x => x.event 0x0303 noChan (relLine x (x.fire.refNext - 1)) 0 0) (fun u =>
          u.on Reg.FS_FLAGS.sos_missing = true ∧ u.rd Reg.FS_SOS_COUNT.missing = sat 16 (s.rd Reg.FS_SOS_COUNT.missing + 1) ∧ u.fire.missed = true ∧
          OnlyRegs { σ with fire := u.fire } u [Reg.FS_FLAGS.sos_missing.key 0, Reg.FS_SOS_COUNT.missing.key 0]))) ∧
    (∀ k, s.mode = modeShadow ∨ (∀ q ∈ (s.slot k).parts, ∀ a, q.sosAt = some a → q.complete = true ∨ σ.clk < a + q.limit * nsU) →
      exec (.dataDeadlineExpiry t k) s = .next σ.lineEnd) ∧
    (∀ k q qs a, s.mode ≠ modeShadow → (s.slot k).parts = q :: qs → q.sosAt = some a → q.complete = false → q.taken = false → q.released = none →
      a + q.limit * nsU ≤ σ.clk → EndsIn (exec (.dataDeadlineExpiry t k) s) State.lineEnd (fun u => partOf u k q.line = none ∧
        u.on Reg.FS_FLAGS.data_late = true ∧ u.rd Reg.FS_WITHHELD.wh_data_late = sat 16 (s.rd Reg.FS_WITHHELD.wh_data_late + 1) ∧
        ∀ pg ∈ u.la.pages, pg.first ≤ q.line → q.line < pg.first + pg.lines → bit pg.mark 0 = true)) ∧
    (∀ k, mayDrive s k = false ∨ (s.slot k).credits = 0 ∨ σ.clk < (s.lane (slotLane s k)).idleTo →
      exec (.dataFrameSend t k 0) s = .next σ.lineEnd) ∧
    (∀ k c, mayDrive s k = true → (s.slot k).credits = c + 1 → (s.lane (slotLane s k)).idleTo ≤ σ.clk →
      (∀ seq i data ms, (s.slot k).msgs = (seq, i, data) :: ms → EndsIn (exec (.dataFrameSend t k 0) s) State.lineEnd (fun u =>
        u.out = .frame (slotLane s k) (trailerBits 2 (slotHalf s k) seq i) data (crc32 (data ++ leBytes 3 (trailerBits 2 (slotHalf s k) seq i))) :: s.out ∧
        u.slot k = { s.slot k with msgs := ms, credits := c })) ∧
      (∀ w i, (s.slot k).msgs = [] → (s.slot k).waveLeft = w + 1 → i = s.ent (chSlot k) SlotE.waveLen / 256 - (w + 1) → EndsIn (exec (.dataFrameSend t k 0) s) State.lineEnd (fun u =>
        (∃ crc, u.out = .frame (slotLane s k) (trailerBits 1 (slotHalf s k) ((s.slot k).waveGen % 4096 * 4 + i / 64) i)
          (s.peekBytes (s.ent (chSlot k) SlotE.waveAddr + 256 * i) 256) crc :: s.out) ∧
        u.slot k = { s.slot k with waveLeft := w, waveDue := w == 0, waveLine := if w = 0 then firstUnsent s k else (s.slot k).waveLine, credits := c })) ∧
      (∀ q i, (s.slot k).msgs = [] → (s.slot k).waveLeft = 0 → nextData s k = some (q, i, false) → EndsIn (exec (.dataFrameSend t k 0) s) State.lineEnd (fun u =>
        (∃ crc, u.out = .frame (slotLane s k) (trailerBits 0 (slotHalf s k) (lineTag s q.line) i) (packPixels 256 ((q.px.drop (1024 * i)).take 1024)) crc :: s.out) ∧
        partOf u k q.line = some { q with sent := q.sent + 1 } ∧ (u.slot k).credits = c)) ∧
      (∀ q i, (s.slot k).msgs = [] → (s.slot k).waveLeft = 0 → nextData s k = some (q, i, true) → EndsIn (exec (.dataFrameSend t k 0) s) State.lineEnd (fun u =>
        (∃ crc, u.out = .frame (slotLane s k) (trailerBits 0 (slotHalf s k) (lineTag s q.line) i) (packPixels 256 ((q.px.drop (1024 * i)).take 1024)) crc :: s.out) ∧
        partOf u k q.line = some { q with resend := q.resend.drop 1 } ∧ (u.slot k).credits = c))) ∧
    (∀ lane w, 2 ^ 64 ≤ w → Ends (exec (.credit t lane w) s) (fun u =>
      u.rd Reg.LANE_ERR.hdr_err lane = sat Reg.LANE_ERR.hdr_err.width (s.rd Reg.LANE_ERR.hdr_err lane + 1) ∧
      OnlyRegs σ u [Reg.LANE_ERR.hdr_err.key lane])) ∧
    (∀ lane w, w < 2 ^ 64 → backSet osCredit w = none → Ends (exec (.credit t lane w) s) (fun u =>
      u.rd Reg.LANE_ERR.os_err lane = sat 8 (s.rd Reg.LANE_ERR.os_err lane + 1) ∧ OnlyRegs σ u [Reg.LANE_ERR.os_err.key lane])) ∧
    (∀ lane w f k h, w < 2 ^ 64 → h = laneHeard σ lane → slotOfSet h lane f = some k →
      (backSet osCredit w = some f → h.mode ≠ modeShadow → Ends (exec (.credit t lane w) s) (fun u =>
        (u.slot k).credits = (h.slot k).credits + bits f 31 16 ∧ u.led.live = ((h.ledAdd (Led.creditsGranted (slotLane h k)) (bits f 31 16)).ledAdd
          (Led.creditsAvailable (slotLane h k)) (bits f 31 16)).led.live ∧ u.regs = h.regs)) ∧
      (backSet osCredit w = some f → h.mode = modeShadow → exec (.credit t lane w) s = .next h) ∧
      (∀ q, backSet osLineOk w = some f → openPart h k (bits f 33 14) = some q → h.mode ≠ modeShadow →
        (q.sosAt = none → Ends (exec (.lineOk t lane w) s) (fun u => partOf u k q.line = some { q with complete := true } ∧ u.out = h.out)) ∧
        (∀ a x, q.sosAt = some a → h.fire.silent = false → q.taken = false → x = setPart h k { q with complete := true } →
          (a + q.limit * nsU < h.clk → exec (.lineOk t lane w) s = .next x) ∧
          (h.clk ≤ a + q.limit * nsU → exec (.lineOk t lane w) s = .next (firePart x k { q with complete := true } a)))) ∧
      (∀ q, backSet osLineNak w = some f → openPart h k (bits f 33 14) = some q →
        (h.mode = modeShadow ∨ q.sent ≤ bits f 27 6 ∨ bits f 27 6 ∈ q.resend → exec (.lineNak t lane w) s = .next h) ∧
        (h.mode ≠ modeShadow → q.sosAt = none → bits f 27 6 < lineFrames h k → bits f 27 6 < q.sent → bits f 27 6 ∉ q.resend →
          Ends (exec (.lineNak t lane w) s) (fun u => partOf u k q.line = some { q with resend := q.resend ++ [bits f 27 6] } ∧ u.out = h.out ∧ u.regs = h.regs))) ∧
      (∀ q, backSet osRelAck w = some f → h.mode ≠ modeShadow → releasedPart h k (bits f 33 14) = some q →
        (bit f 32 = true → exec (.relAck t lane w) s = .next (settlePart h k q true).lineEnd ∧ partOf (settlePart h k q true) k q.line = none) ∧
        (bit f 32 = false → EndsIn (exec (.relAck t lane w) s) State.lineEnd (fun u => partOf u k q.line = none ∧
          u.led.live = (moveDrops (moveLine h q.jobIdx k Led.linesWithheld) q.jobIdx q.plane q.drops Led.dropsWithheld).led.live)))) ∧
    (∀ k, (∀ q ∈ (s.slot k).parts, ∀ a, q.released = some a → σ.clk < a + 50 * usU) → exec (.relAckTimeout t k) s = .next σ.lineEnd) ∧
    (∀ k q, ackLate σ k = some q → EndsIn (exec (.relAckTimeout t k) s) State.lineEnd (fun u => partOf u k q.line = none ∧ u.on Reg.FS_FLAGS.ack_lost = true ∧
      u.led.live = (moveDrops (moveLine σ q.jobIdx k Led.linesWithheld) q.jobIdx q.plane q.drops Led.dropsWithheld).led.live ∧
      ∀ pg ∈ u.la.pages, pg.first ≤ q.line → q.line < pg.first + pg.lines → bit pg.mark 1 = true))

/-- Heads: temperatures, status, heartbeats, waveforms, and authentication with its usage counters. A TEMP report that is valid, enabled and within `rate_max` is taken; then, as at TEMP_TIMEOUT, the channel state follows Table 14-2, a change away from ok posts event 0x0C02, and the value is passed on. HEARTBEAT goes out on every lane in service. DECAP_LAPSE sets `decap_lapsed` once charge has been forbidden for `decap_ms`. WAVE_COMMIT follows an image sent whole. AUTH_START sends HELLO, a good CERT answers with the first USAGE_ADD, and the first USAGE_NOW with the right MAC completes the session; later ones must equal the value before plus the units of the USAGE_ADD they answer, the oldest one not yet answered. A failed step, a wrong MAC, a counter that moved wrongly or an answer that stays out sets the state to failed and posts event 0x0305. Bytes of a nonce, a key, a message header and a message code are free values (log 64). -/
def Obligations.HeadsAndSessions : Prop :=
  (∀ (z : State) (k step : Nat) (r : Bool), ∃ w v : State, v = w.event 0x0305 (chSlot k) 0 (3 + 4 * ofBool r + 256 * step) 0 ∧
    authFail z k step r = chargeUpdate (v.setSlot k { v.slot k with
      authAt := none, authStep := 0, asked := [], key := [], retryAt := some ((v.slot k).retryAt.getD (v.clk + 100 * msU)) }) k ∧
    w.rd Reg.FS_SLOT_STATE.auth k = 3 ∧ (r = true → w.on Reg.FS_FLAGS.usage_regress = true) ∧
    OnlyRegs z w [Reg.FS_SLOT_STATE.auth.key k, Reg.FS_FLAGS.usage_regress.key 0]) ∧
  (∀ (z : State) (k tp : Nat) (p : Int), (z.head k).plate = some (p, tp) → accepted z (z.head k).plate = true → (z.head k).disagree < 10 →
    headPass z k = (0, some (p, tp))) ∧
  ∀ (s σ : State) (t k : Nat), σ = s.at t →
    (∀ lane w, 2 ^ 64 ≤ w → exec (.tempSet t lane w) s = .next (σ.count Reg.LANE_ERR.hdr_err lane).settle ∧
      exec (.statusSet t lane w) s = .next (σ.count Reg.LANE_ERR.hdr_err lane)) ∧
    (∀ lane w, w < 2 ^ 64 → backSet 0xB7 w = none → EndsIn (exec (.tempSet t lane w) s) State.settle (fun u =>
      u.rd Reg.LANE_ERR.os_err lane = sat 8 (s.rd Reg.LANE_ERR.os_err lane + 1) ∧ OnlyRegs σ u [Reg.LANE_ERR.os_err.key lane])) ∧
    (∀ lane w f h, w < 2 ^ 64 → backSet 0xB7 w = some f → h = laneHeard σ lane → slotOfSet h lane f = none → exec (.tempSet t lane w) s = .next h.settle) ∧
    (∀ lane w f h v d, w < 2 ^ 64 → backSet 0xB7 w = some f → h = laneHeard σ lane → slotOfSet h lane f = some k → d = bit f 46 →
      v = signed 16 (bits f 29 16) + headEnt h (2 * k + ofBool d) HeadE.trim 0 →
      (bit f 45 = false ∨ headEn h (2 * k + ofBool d) = false ∨ tempSmooth h k d v = false → exec (.tempSet t lane w) s = .next (headEval h k).settle) ∧
      (bit f 45 = true → headEn h (2 * k + ofBool d) = true → tempSmooth h k d v = true →
        EndsIn (exec (.tempSet t lane w) s) (fun x => (headEval x k).settle) (fun u =>
          (d = false → (u.head k).plate = some (v, h.clk) ∧ u.rd Reg.THERM_HEAD.np_value k = unsigned 16 v ∧ (u.head k).driver = (h.head k).driver) ∧
          (d = true → (u.head k).driver = some (v, h.clk) ∧ u.rd Reg.THERM_HEAD.drv_value k = unsigned 16 v ∧ (u.head k).plate = (h.head k).plate) ∧
          OnlyRegs { h with th := u.th } u [Reg.THERM_HEAD.np_value.key k, Reg.THERM_HEAD.drv_value.key k, Reg.THERM_HEAD_STATE.d_offset.key k]))) ∧
    (80 ≤ k → exec (.tempTimeout t k) s = .next σ.settle) ∧
    (∀ st v, k < 80 → (st, v) = headPass σ k →
      (st = s.rd Reg.THERM_HEAD_STATE.h_state k ∨ st = 0 → EndsIn (exec (.tempTimeout t k) s) (fun x => (headValue x k v).settle) (fun u =>
        u.rd Reg.THERM_HEAD_STATE.h_state k = st ∧ u.on Reg.THERM_HEAD_STATE.d_valid k = dValid σ k ∧
        OnlyRegs σ u [Reg.THERM_HEAD_STATE.h_state.key k, Reg.THERM_HEAD_STATE.d_valid.key k])) ∧
      (st ≠ s.rd Reg.THERM_HEAD_STATE.h_state k → st ≠ 0 →
        EndsIn (exec (.tempTimeout t k) s) (fun x => (headValue (x.event 0x0C02 (chHead (2 * k)) 0 st 0) k v).settle) (fun u =>
          u.rd Reg.THERM_HEAD_STATE.h_state k = st ∧ u.on Reg.THERM_HEAD_STATE.d_valid k = dValid σ k ∧
          OnlyRegs σ u [Reg.THERM_HEAD_STATE.h_state.key k, Reg.THERM_HEAD_STATE.d_valid.key k]))) ∧
    (∀ lane w, w < 2 ^ 64 → backSet osStatus w = none → Ends (exec (.statusSet t lane w) s) (fun u =>
      u.rd Reg.LANE_ERR.os_err lane = sat 8 (s.rd Reg.LANE_ERR.os_err lane + 1) ∧ OnlyRegs σ u [Reg.LANE_ERR.os_err.key lane])) ∧
    (∀ lane w f h, w < 2 ^ 64 → backSet osStatus w = some f → h = laneHeard σ lane →
      (slotOfSet h lane f = none → exec (.statusSet t lane w) s = .next h) ∧
      (slotOfSet h lane f = some k → h.pair.watch ≠ 1 ∨ (∀ a, h.pair.heardAt = some a → h.clk < a + 7 * usU) →
        Ends (exec (.statusSet t lane w) s) (fun u => u.slot k = { h.slot k with status := some (bits f 40 7) } ∧
          (∀ j, j ≠ k → u.slot j = h.slot j) ∧ u = { h with fire := { h.fire with slots := u.fire.slots } })) ∧
      (∀ a, slotOfSet h lane f = some k → h.pair.watch = 1 → h.pair.heardAt = some a → a + 7 * usU ≤ h.clk →
        EndsIn (exec (.statusSet t lane w) s) (fun x => if othersUnheard x then x else loseSync { x with pair := { x.pair with watch := 0 } }) (fun u =>
          u.slot k = { h.slot k with status := some (bits f 40 7) } ∧
          (∀ j, j ≠ k → u.slot j = h.slot j) ∧ u = { h with fire := { h.fire with slots := u.fire.slots } }))) ∧
    (heartbeatDue σ = false → exec (.heartbeat t) s = .next σ) ∧
    (heartbeatDue σ = true → Ends (exec (.heartbeat t) s) (fun u =>
      (∀ n, n < 48 → s.lstate n = 2 → .orderedSet n (orderedSetWord osHeartbeat
        ((if driving s then 1 else 2) * 2 ^ 46 + pairId * 2 ^ 38 + s.fire.hbSeq % 65536 * 2 ^ 22)) ∈ u.out) ∧
      u.fire = { s.fire with hbSeq := (s.fire.hbSeq + 1) % 65536, hbAt := some σ.clk } ∧ u = { σ with out := u.out, fire := u.fire })) ∧
    ((∀ a, (s.slot k).forbidAt = some a → σ.clk < a + s.ent (chSlot k) SlotE.decapMs * msU) → exec (.decapLapse t k) s = .next σ) ∧
    (∀ a, (s.slot k).forbidAt = some a → a + s.ent (chSlot k) SlotE.decapMs * msU ≤ σ.clk → Ends (exec (.decapLapse t k) s) (fun u =>
      u.on Reg.FS_SLOT_STATE.decap_lapsed k = true ∧ OnlyRegs σ u [Reg.FS_SLOT_STATE.decap_lapsed.key k])) ∧
    ((s.slot k).waveDue = false ∨ mayDrive s k = false → exec (.waveCommit t k) s = .next σ) ∧
    ((s.slot k).waveDue = true → mayDrive s k = true → Ends (exec (.waveCommit t k) s) (fun u =>
      u.out = .orderedSet (slotLane s k) (orderedSetWord osWaveCommit (slotFields s k
        ((s.slot k).waveGen % 16384 * 2 ^ 33 + lineTag s (s.slot k).waveLine * 2 ^ 19))) :: s.out ∧
      u.slot k = { s.slot k with waveDue := false } ∧ u.regs = s.regs)) ∧
    (s.mode = modeShadow ∨ s.native = false ∨ s.inUse (chSlot k) = false ∨ linkUp s k = false → exec (.authStart t k) s = .next σ) ∧
    (s.mode ≠ modeShadow → s.native = true → s.inUse (chSlot k) = true → linkUp s k = true →
      EndsIn (exec (.authStart t k) s) (fun x => chargeUpdate x k) (fun u => u.rd Reg.FS_SLOT_STATE.auth k = 1 ∧
        ∃ nonce key head, nonce.length = 32 ∧ key.length = 32 ∧ head.length = 4 ∧
          u.slot k = { s.slot k with
            authAt := some σ.clk, authStep := 2, nonce, key, retryAt := none, asked := [], msgSeq := (s.slot k).msgSeq + 1,
            msgs := (s.slot k).msgs ++ messageFrames ((s.slot k).msgSeq % 16384) (head ++ (nonce ++ Config.ecPublic key)) })) ∧
    (∀ msg, (s.slot k).authStep ≠ 2 → exec (.cert t k msg) s = .next σ) ∧
    (∀ msg anchor, (s.slot k).authStep = 2 → anchor = ((msg.take 160).getD 80 0).toNat →
      (msg.length ≠ 320 → exec (.cert t k msg) s = .next (authFail σ k 2 false)) ∧
      (msg.length = 320 → 4 ≤ anchor ∨ bit (s.rd Reg.FS_AUTH.anchors) anchor = false ∨ bit (s.ent (chSlot k) SlotE.anchorMask) anchor = false ∨
          Config.ecdsa256 (Tbl.get [] s.fire.anchors anchor) ((msg.take 160).take 96) ((msg.take 160).drop 96) = false ∨
          Config.ecdsa256 (((msg.take 160).drop 16).take 64)
            ((s.slot k).nonce ++ (msg.drop 160).take 32 ++ Config.ecPublic (s.slot k).key ++ (msg.drop 192).take 64) ((msg.drop 256).take 64) = false →
        exec (.cert t k msg) s = .next (authFail σ k 3 false)) ∧
      (msg.length = 320 → anchor < 4 → bit (s.rd Reg.FS_AUTH.anchors) anchor = true → bit (s.ent (chSlot k) SlotE.anchorMask) anchor = true →
        Config.ecdsa256 (Tbl.get [] s.fire.anchors anchor) ((msg.take 160).take 96) ((msg.take 160).drop 96) = true →
        Config.ecdsa256 (((msg.take 160).drop 16).take 64)
          ((s.slot k).nonce ++ (msg.drop 160).take 32 ++ Config.ecPublic (s.slot k).key ++ (msg.drop 192).take 64) ((msg.drop 256).take 64) = true →
        Ends (exec (.cert t k msg) s) (fun u => (u.slot k).authStep = 5 ∧ (u.slot k).authSeq = ((s.slot k).authSeq + 1) % 2 ^ 32 ∧
          (u.slot k).asked = (s.slot k).asked ++ [(((s.slot k).authSeq + 1) % 2 ^ 32, 0, σ.clk)] ∧
          (u.slot k).key = Config.hkdf (Config.ecdh (s.slot k).key ((msg.drop 192).take 64)) ((s.slot k).nonce ++ (msg.drop 160).take 32) ((msg.take 160).take 16) ∧
          u.regs = s.regs))) ∧
    (∀ value seq mac, (s.slot k).asked = [] → exec (.usageNow t k value seq mac) s = .next σ) ∧
    (∀ value seq mac askedSeq units a rest, (s.slot k).asked = (askedSeq, units, a) :: rest →
      (mac ≠ (Config.hmac (s.slot k).key (Config.msgCode 1 ++ (leBytes 4 seq ++ leBytes 8 value))).take 16 ∨ seq ≠ askedSeq →
        exec (.usageNow t k value seq mac) s = .next (authFail σ k (if (s.slot k).authStep = 5 then 5 else 0) false)) ∧
      (mac = (Config.hmac (s.slot k).key (Config.msgCode 1 ++ (leBytes 4 seq ++ leBytes 8 value))).take 16 → seq = askedSeq → value < 2 ^ 64 →
        ((s.slot k).authStep ≠ 5 → value ≠ (s.rd2 Reg.FS_SLOT_USAGE_LO.usage_lo Reg.FS_SLOT_USAGE_HI.usage_hi k + units) % 2 ^ 64 →
          exec (.usageNow t k value seq mac) s = .next (authFail σ k 0 true)) ∧
        ((s.slot k).authStep ≠ 5 → value = (s.rd2 Reg.FS_SLOT_USAGE_LO.usage_lo Reg.FS_SLOT_USAGE_HI.usage_hi k + units) % 2 ^ 64 →
          Ends (exec (.usageNow t k value seq mac) s) (fun u => u.rd2 Reg.FS_SLOT_USAGE_LO.usage_lo Reg.FS_SLOT_USAGE_HI.usage_hi k = value ∧
            u.slot k = { s.slot k with asked := rest } ∧
            OnlyRegs { σ with fire := u.fire } u [Reg.FS_SLOT_USAGE_LO.usage_lo.key k, Reg.FS_SLOT_USAGE_HI.usage_hi.key k])) ∧
        ((s.slot k).authStep = 5 → EndsIn (exec (.usageNow t k value seq mac) s) (fun x => chargeUpdate x k) (fun u =>
          u.rd2 Reg.FS_SLOT_USAGE_LO.usage_lo Reg.FS_SLOT_USAGE_HI.usage_hi k = value ∧ u.rd Reg.FS_SLOT_STATE.auth k = 2 ∧
          u.slot k = { s.slot k with authAt := none, authStep := 0, asked := [], unitsSent := 0, graceTo := none, retryAt := none } ∧
          ((s.slot k).graceTo.isSome = true → u.led = σ.led) ∧
          ((s.slot k).graceTo = none → u.ledGet (Led.usageUnits k) = 0 ∧ u.ledGet (Led.usageResidue k) = 0 ∧ u.ledGet (Led.usageDrops k) = 0))))) ∧
    (s.rd Reg.FS_SLOT_STATE.auth k ≠ 2 ∨ usageDue s k = 0 ∨ linkUp s k = false ∨
        (∃ a, (s.slot k).lastAdd = some a ∧ σ.clk < a + msU) → exec (.usageAdd t k) s = .next σ) ∧
    (∀ n seq, s.rd Reg.FS_SLOT_STATE.auth k = 2 → usageDue s k = n + 1 → linkUp s k = true → seq = ((s.slot k).authSeq + 1) % 2 ^ 32 →
      (∀ a, (s.slot k).lastAdd = some a → a + msU ≤ σ.clk) → Ends (exec (.usageAdd t k) s) (fun u =>
        (u.slot k).asked = (s.slot k).asked ++ [(seq, min (n + 1) 65535, σ.clk)] ∧ (u.slot k).unitsSent = (s.slot k).unitsSent + min (n + 1) 65535 ∧
        (u.slot k).authSeq = seq ∧ (u.slot k).lastAdd = some σ.clk ∧
        ∃ head body, head.length = 4 ∧ body = leBytes 4 seq ++ leBytes 4 (min (n + 1) 65535) ∧
          (u.slot k).msgs = (s.slot k).msgs ++ messageFrames ((s.slot k).msgSeq % 16384)
            (head ++ (body ++ (Config.hmac (s.slot k).key (Config.msgCode 0 ++ body)).take 16)) ∧
          u.regs = s.regs)) ∧
    ((s.slot k).authAt = none → (s.slot k).asked = [] → exec (.authTimeout t k) s = .next σ) ∧
    (∀ a, (s.slot k).authAt = some a → a + 50 * msU ≤ σ.clk → exec (.authTimeout t k) s = .next (authFail σ k (s.slot k).authStep false)) ∧
    (∀ a, (s.slot k).authAt = some a → σ.clk < a + 50 * msU →
      ((∀ x, (s.slot k).asked.head? = some x → σ.clk < x.2.2 + 10 * msU) → exec (.authTimeout t k) s = .next σ) ∧
      (∀ x, (s.slot k).asked.head? = some x → x.2.2 + 10 * msU ≤ σ.clk → exec (.authTimeout t k) s = .next (authFail σ k 5 false))) ∧
    (∀ n q a rest, (s.slot k).authAt = none → (s.slot k).asked = (q, n, a) :: rest →
      (σ.clk < a + 10 * msU → exec (.authTimeout t k) s = .next σ) ∧
      (a + 10 * msU ≤ σ.clk → exec (.authTimeout t k) s = .next (authFail σ k 0 false))) ∧
    ((∀ a, (s.slot k).retryAt = some a → σ.clk < a) → exec (.authRetry t k) s = .next σ) ∧
    (∀ a, (s.slot k).retryAt = some a → a ≤ σ.clk → EndsIn (exec (.authRetry t k) s)
      (fun x => x.setSlot k { x.slot k with retryAt := some (x.clk + secU) }) (fun u => exec (.authStart t k) s = .next u)) ∧
    ((∀ a, (s.slot k).graceTo = some a → σ.clk < a) → exec (.authGraceExpiry t k) s = .next σ) ∧
    (∀ a, (s.slot k).graceTo = some a → a ≤ σ.clk → exec (.authGraceExpiry t k) s = .next (chargeUpdate σ k))

/-- Cameras and inspection: ports, lines, triggers, frames, groups and exposure sets. A port trains a gear at a time, up to its highest, goes down a gear with event 0x0401 after two failures, and retrains when its link is lost or more than 16 CRC errors come in 1.000 s. A packet that fails its check is counted and its line dropped. A line goes to the oldest trigger that it fits, or is counted as an orphan; a trigger with no line in `lat_hi` is lost. A trigger of a running group counts over new forward ground only. As the last trigger of a frame is paired or lost, the frame's statistics record goes out, or is counted dropped, and the frame leaves its pipeline. GRP_CFG starts and stops a group. EXPO_GO files an exposure set for the frame that EXPO_RESULT names, 0 where it is ignored, and a commit that reads 1 leaves its frame unconfirmed. -/
def Obligations.CamerasAndFrames : Prop :=
  (∀ (z : State) (p g flags : Nat) (f : Frame),
    (z.ringOpen 4 = false → statPost z p g f flags = z.count Reg.INSP_PIPE_DROP.stat_dropped p) ∧
    (∀ a, z.ringOpen 4 = true → a = statBase z + 4096 * ((z.ring 4).prod % z.ringSize 4) → statPost z p g f flags =
      ringPost (z.pokeBytes a (statRecord z p g f flags)) 4
        { addr := a, length := 3520, opcode := 0x0604, irq := true, chain := false, tag := p + f.num * 65536, status := 0, result := 0 })) ∧
  (∀ (z : State) (p g k : Nat) (fs : List Frame) (f : Frame), (z.pipe p).frames = fs ++ [f] →
    ((pipeTrigger z p g k).pipe p).frames = fs ++ [{ f with counted := f.counted + 1, waiting := f.waiting ++ [(k - z.ent (chPipe p) PipeE.camLines, z.clk)] }]) ∧
  ∀ (s σ b : State) (t n : Nat), σ = s.at t → b = bootDue σ →
    (∀ ok, (b.camPort n).train = 0 ∨ b.entOn (chPort n) PortE.portEn = false ∨ b.rd Reg.MODE_CUR.power ≠ 0 → exec (.cameraPortTrainComplete t n ok) s = .next b) ∧
    (∀ g, (b.camPort n).train = g + 1 → b.entOn (chPort n) PortE.portEn = true → b.rd Reg.MODE_CUR.power = 0 → g < 5 →
      (g + 1 < portTop b n → Ends (exec (.cameraPortTrainComplete t n true) s) (fun u =>
        u.camPort n = { b.camPort n with train := g + 2, fails := 0 } ∧ u.regs = b.regs)) ∧
      (portTop b n ≤ g + 1 → Ends (exec (.cameraPortTrainComplete t n true) s) (fun u => (u.camPort n).train = 0 ∧
        u.rd Reg.INSP_PORT_STATE.gear n = g + 1 ∧ u.on Reg.INSP_PORT_STATE.link_up n = true ∧ u.on Reg.INSP_PORT_STATE.uplink_up n = true)) ∧
      ((b.camPort n).fails = 0 → Ends (exec (.cameraPortTrainComplete t n false) s) (fun u =>
        u.camPort n = { b.camPort n with fails := 1 } ∧ u.regs = b.regs)) ∧
      ((b.camPort n).fails ≠ 0 → EndsIn (exec (.cameraPortTrainComplete t n false) s) (fun x => x.event 0x0401 (chPort n) 0 (max 1 g) 0)
        (fun u => u.camPort n = { b.camPort n with train := max 1 g, fails := 0, top := max 1 g } ∧ u.regs = b.regs))) ∧
    (∀ lost, s.rd Reg.INSP_PORT_STATE.gear n = 0 ∨ (lost = false ∧ crcLate σ n ≤ 16) → exec (.cameraLinkFail t n lost) s = .next σ) ∧
    (∀ lost g, s.rd Reg.INSP_PORT_STATE.gear n = g + 1 → lost = true ∨ 16 < crcLate σ n → Ends (exec (.cameraLinkFail t n lost) s) (fun u =>
      (u.camPort n).train = g + 1 ∧ u.on Reg.INSP_PORT_STATE.link_up n = false ∧ u.rd Reg.INSP_PORT_STATE.gear n = 0 ∧
      u.rd Reg.INSP_PORT_STATE.retrains n = sat 8 (s.rd Reg.INSP_PORT_STATE.retrains n + 1))) ∧
    (∀ vc dt ecc crc bytes, s.on Reg.INSP_PORT_STATE.link_up n = false → exec (.csi2Packet t n vc dt ecc crc bytes) s = .next σ) ∧
    (∀ vc dt ecc crc bytes, s.on Reg.INSP_PORT_STATE.link_up n = true →
      (2 ≤ ecc ∨ (0x10 ≤ dt ∧ dt ≠ 0x12 ∧ crc = false) → Ends (exec (.csi2Packet t n vc dt ecc crc bytes) s) (fun u =>
        Tbl.find (u.camPort n).bufs vc = none ∧ u.rd Reg.INSP_PORT_ERR.crc_err n = sat 16 (s.rd Reg.INSP_PORT_ERR.crc_err n + 1) ∧
        OnlyRegs { σ with insp := u.insp } u [Reg.INSP_PORT_ERR.crc_err.key n])) ∧
      (ecc < 2 → crc = true → dt = 0x2B ∨ dt = 0x2C ∨ dt = 0x24 ∨ dt = 0x1E → Ends (exec (.csi2Packet t n vc dt ecc crc bytes) s) (fun u =>
        Tbl.find (u.camPort n).bufs vc = some (dt, bytes) ∧ (∀ v, v ≠ vc → Tbl.find (u.camPort n).bufs v = Tbl.find (s.camPort n).bufs v) ∧
        u = { σ with insp := u.insp })) ∧
      (ecc < 2 → crc = true → 0x10 ≤ dt → dt ≠ 0x12 → dt ≠ 0x2B → dt ≠ 0x2C → dt ≠ 0x24 → dt ≠ 0x1E →
        Ends (exec (.csi2Packet t n vc dt ecc crc bytes) s) (fun u => Tbl.find (u.camPort n).bufs vc = none ∧
          u.rd Reg.INSP_PORT_ERR.dt_unsupported n = sat 16 (s.rd Reg.INSP_PORT_ERR.dt_unsupported n + 1)))) ∧
    (∀ vc, Tbl.find (s.camPort n).bufs vc = none → exec (.cameraLineReceive t n vc) s = .next σ.spend) ∧
    (∀ vc dt bytes y, Tbl.find (s.camPort n).bufs vc = some (dt, bytes) → s.on Reg.INSP_PORT_STATE.link_up n = true →
      y = σ.setCamPort n { s.camPort n with bufs := Tbl.del (s.camPort n).bufs vc } →
      (pipeOf y n vc = none → EndsIn (exec (.cameraLineReceive t n vc) s) State.spend (fun u => OnlyRegs y u [Reg.INSP_PORT_UNBOUND.unbound_lines.key n] ∧
        u.rd Reg.INSP_PORT_UNBOUND.unbound_lines n = sat 32 (s.rd Reg.INSP_PORT_UNBOUND.unbound_lines n + 1))) ∧
      (∀ p x, pipeOf y n vc = some p → x = linesLost (waitingCount y p) y p →
        ((y.group (pipeGroup y p)).on = false ∨ inspRuns y = false → EndsIn (exec (.cameraLineReceive t n vc) s) State.spend (fun u =>
          OnlyRegs y u [Reg.INSP_PIPE_LINES.lines_orphan.key p] ∧ u.rd Reg.INSP_PIPE_LINES.lines_orphan p = sat 16 (s.rd Reg.INSP_PIPE_LINES.lines_orphan p + 1))) ∧
        ((y.group (pipeGroup y p)).on = true → inspRuns y = true → candidate x p = none → EndsIn (exec (.cameraLineReceive t n vc) s) State.spend (fun u =>
          u.rd Reg.INSP_PIPE_LINES.lines_orphan p = sat 16 (x.rd Reg.INSP_PIPE_LINES.lines_orphan p + 1) ∧ OnlyRegs x u [Reg.INSP_PIPE_LINES.lines_orphan.key p])) ∧
        (∀ i w f, (y.group (pipeGroup y p)).on = true → inspRuns y = true → candidate x p = some (i, w) → (x.pipe p).lineAt = none → (x.pipe p).frames[i]? = some f →
          EndsIn (exec (.cameraLineReceive t n vc) s) State.spend (fun u => (u.pipe p).lineAt = some x.clk ∧ u.regs = x.regs ∧
            ∃ l, l.m = w.1 ∧ (u.pipe p).frames[i]? = some { f with waiting := f.waiting.filter (· != w), lines := l :: f.lines })))) ∧
    (groupCount σ n = none → exec (.groupTrigger t n) s = .next σ) ∧
    (n < 4 → (s.group n).on = true → inspRuns s = true →
      ((s.group n).started = false → EndsIn (exec (.groupTrigger t n) s) (fun x => triggerReaches x n) (fun u =>
        u.group n = { s.group n with started := true, e0 := webPos σ, top := webPos σ, k := 0 } ∧
        OnlyRegs { σ with insp := u.insp } u [Reg.GRP_ORIGIN_LO.e0_lo.key n, Reg.GRP_ORIGIN_HI.e0_hi.key n])) ∧
      ((s.group n).started = true → (s.group n).top < webPos σ → EndsIn (exec (.groupTrigger t n) s) (fun x => triggerReaches x n) (fun u =>
        u.group n = { s.group n with top := webPos σ, k := (s.group n).k + 1 } ∧ u.regs = s.regs)) ∧
      ((s.group n).started = true → webPos σ ≤ (s.group n).top → exec (.groupTrigger t n) s = .next σ)) ∧
    (∀ f fs w ws, (s.pipe n).frames = f :: fs → f.waiting = w :: ws →
      (σ.clk ≤ w.2 + (frameView s n f).ent (chPipe n) PipeE.latHi * 10 * nsU → exec (.triggerLineLost t n) s = .next σ) ∧
      (w.2 + (frameView s n f).ent (chPipe n) PipeE.latHi * 10 * nsU < σ.clk → Ends (exec (.triggerLineLost t n) s) (fun u =>
        (u.pipe n).frames = { f with waiting := ws, lost := f.lost + 1 } :: fs ∧
        u.rd Reg.INSP_PIPE_LINES.lines_lost n = sat 16 (s.rd Reg.INSP_PIPE_LINES.lines_lost n + 1) ∧
        OnlyRegs { σ with insp := u.insp } u [Reg.INSP_PIPE_LINES.lines_lost.key n]))) ∧
    (∀ peak ests ok, frameReady σ n = none → exec (.frameEnd t n peak ests ok) s = .next σ.spend.lineEnd) ∧
    (∀ peak ests ok f, frameReady σ n = some f → EndsIn (exec (.frameEnd t n peak ests ok) s)
      (fun x => (pipeTested (frameLeaves x n (frameGroup σ n f) f) n ok).spend.lineEnd)
      (fun x => (x.pipe n).frames = (s.pipe n).frames ∧ ∃ w flags, x = { statPost w n (frameGroup σ n f) f flags with cat := s.cat } ∧
        flags % 4 = ofBool f.unconfirmed)) ∧
    (∀ v, 4 ≤ n ∨ v % 16384 < 256 ∨ 8192 < v % 16384 ∨ (s.on Reg.GRP_CFG.run n = true ∧ bit v 31 = true) →
      exec (.groupRunWrite t n v) s = .next σ.spend) ∧
    (∀ v, n < 4 → 256 ≤ v % 16384 → v % 16384 ≤ 8192 → s.on Reg.GRP_CFG.run n = true → bit v 31 = false →
      EndsIn (exec (.groupRunWrite t n v) s) (fun x => (groupStop x n).spend) (fun u => u.on Reg.GRP_CFG.run n = false ∧ OnlyRegs σ u [Reg.GRP_CFG.run.key n])) ∧
    (∀ v, n < 4 → 256 ≤ v % 16384 → v % 16384 ≤ 8192 → s.on Reg.GRP_CFG.run n = false →
      EndsIn (exec (.groupRunWrite t n v) s) (fun x => (if bit v 31 && inspRuns x then groupStart x n else x).spend) (fun u =>
        u.rd Reg.GRP_CFG.trig_out n = bits v 16 2 ∧ u.rd Reg.GRP_CFG.frame_lines n = v % 16384 ∧ u.on Reg.GRP_CFG.run n = bit v 31 ∧
        OnlyRegs σ u [Reg.GRP_CFG.run.key n, Reg.GRP_CFG.trig_out.key n, Reg.GRP_CFG.frame_lines.key n])) ∧
    (accReady σ n (s.rd Reg.INSP_PLANE_GRP.pgrp n) = none → exec (.accumulatorComplete t n) s = .next σ.spend) ∧
    (∀ f, accReady σ n (s.rd Reg.INSP_PLANE_GRP.pgrp n) = some f →
      EndsIn (exec (.accumulatorComplete t n) s) (fun x => (triggerSlices x 5 (fun a => a == n)).spend) (fun u =>
        (Tbl.get (0, 0) u.insp.accDone n).1 = f ∧ u = { σ with insp := { s.insp with acc := u.insp.acc, accDone := u.insp.accDone } } ∧
        ∀ k, k < accKey n 0 0 ∨ accKey (n + 1) 0 0 ≤ k → Tbl.get 0 u.insp.acc k = Tbl.get 0 s.insp.acc k)) ∧
    (∀ p bytes tg, p = s.rd Reg.INSP_EXPO_SEL.expo_pipe → bytes = ((List.range 8).map (fun i => leBytes 4 (s.rd Reg.EXPO_DATA.expo_data i))).flatten →
      tg = expoTarget σ p bytes →
      (tg = 0 → Ends (exec (.expoGo t) s) (fun u => u.rd2 Reg.EXPO_RESULT_LO.expo_t_lo Reg.EXPO_RESULT_HI.expo_t_hi = 0 ∧
        OnlyRegs σ u [Reg.EXPO_RESULT_LO.expo_t_lo.key 0, Reg.EXPO_RESULT_HI.expo_t_hi.key 0])) ∧
      (tg ≠ 0 → tg < 2 ^ 48 → Ends (exec (.expoGo t) s) (fun u => u.rd2 Reg.EXPO_RESULT_LO.expo_t_lo Reg.EXPO_RESULT_HI.expo_t_hi = tg ∧
        (u.pipe p).pend = (s.pipe p).pend.filter (fun q => q.target != tg) ++ [expoOf bytes tg]))) ∧
    (∀ v, (s.pipe n).frames = [] ∨ (s.pipe n).check = false → exec (.expoCommitCheck t n v) s = .next σ) ∧
    (∀ v fs f, (s.pipe n).frames = fs ++ [f] → (s.pipe n).check = true →
      (v % 2 = 0 → Ends (exec (.expoCommitCheck t n v) s) (fun u => u.pipe n = { s.pipe n with check := false, again := false } ∧ u.regs = s.regs)) ∧
      (v % 2 = 1 → EndsIn (exec (.expoCommitCheck t n v) s) (fun x => x.event 0x0402 (chPipe n) f.num ((s.pipe n).expo.elim 0 (·.id)) 0) (fun u =>
        u.pipe n = { s.pipe n with frames := fs ++ [{ f with expo := 0, unconfirmed := true }], check := false, again := true } ∧ u.regs = s.regs))) ∧
    (∀ ok, 16 ≤ n ∨ s.on Reg.INSP_PIPE_BIND.pbound n = true → exec (.pipelineTestTimer t n ok) s = .next σ) ∧
    (∀ ok, n < 16 → s.on Reg.INSP_PIPE_BIND.pbound n = false → Ends (exec (.pipelineTestTimer t n ok) s) (fun u =>
      u.pipe n = { s.pipe n with bad := if ok then 0 else (s.pipe n).bad + 1 } ∧ u.regs = s.regs))

/-- Calibration: the loops' passes and the commands to them. A health pass of a plane in use runs once for each completed frame; while the loops only observe it changes no substitution, and while they print its confirmed nozzles are taken up one by one. CL_NOZ commands act in the modes of log 74, and CL_NOZ_RESULT shows their line and result. CL_CU_CTRL `swap` waits for the end of a frame. A density update and a registration window use the completed buffer once each; the update files the plane's figures. A staged shift is made only with `xshift_en` set and columns as wide as lines are high (a free value of the machine); one whose entry is not possible is refused with an accession record; otherwise the shifted entry is loaded, the substitutions of the plane set again, and the shift counted as applied. -/
def Obligations.CalibrationLoops : Prop :=
  ∀ (s σ : State) (t n : Nat), σ = s.at t →
    (loopOn s Reg.CL_CTRL.health_en n = false ∨ (loopIssues s = false ∧ loopObserves s = false) ∨ s.inUse (chPlane n) = false ∨
      Tbl.find s.insp.accDone n = none ∨ (∃ f e, Tbl.find s.insp.accDone n = some (f, e) ∧ Tbl.find s.loops.passed n = some f) →
      exec (.healthPass t n) s = .next σ) ∧
    (∀ f e, loopOn s Reg.CL_CTRL.health_en n = true → s.inUse (chPlane n) = true → Tbl.find s.insp.accDone n = some (f, e) → Tbl.find s.loops.passed n ≠ some f →
      (loopIssues s = false → loopObserves s = true → EndsIn (exec (.healthPass t n) s) State.spend (fun u =>
        Tbl.find u.loops.passed n = some f ∧ u.la = s.la ∧ u.cat = s.cat ∧ u.out = s.out ∧ u.regs = s.regs)) ∧
      (loopIssues s = true → ∃ conf, EndsIn (exec (.healthPass t n) s) (fun x => (confirmAll x conf).spend) (fun u =>
        Tbl.find u.loops.passed n = some f ∧ u.la = s.la ∧ u.regs = s.regs ∧ ∀ x ∈ u.loops.retry, x.1 ≠ n))) ∧
    (∀ p i c, nozzleAt σ n = some (p, i, c) →
      (nozOpen s p = false → exec (.nozRetire t n) s = .next σ ∧ exec (.nozRestore t n) s = .next σ) ∧
      (nozOpen s p = true → loopLine σ < 2 ^ 48 →
        ((planeRow s p i).kind ≠ 1 ∨ isRetired σ p i c = true → Ends (exec (.nozRetire t n) s) (fun u => u.rd Reg.CL_NOZ_RESULT_HI.noz_result = 2 ∧
          u.rd2 Reg.CL_NOZ_RESULT_LO.noz_line_lo Reg.CL_NOZ_RESULT_HI.noz_line_hi = loopLine σ ∧
          OnlyRegs σ u [Reg.CL_NOZ_RESULT_LO.noz_line_lo.key 0, Reg.CL_NOZ_RESULT_HI.noz_line_hi.key 0, Reg.CL_NOZ_RESULT_HI.noz_result.key 0])) ∧
        (∀ x r, (planeRow s p i).kind = 1 → isRetired σ p i c = false → (x, r) = retireNozzle σ p i c →
          EndsIn (exec (.nozRetire t n) s) State.spend (fun u =>
            u.rd Reg.CL_NOZ_RESULT_HI.noz_result = (match r with | .taken => 1 | .full => 2 | .noSpare => 3) ∧
            u.rd2 Reg.CL_NOZ_RESULT_LO.noz_line_lo Reg.CL_NOZ_RESULT_HI.noz_line_hi = loopLine σ ∧
            OnlyRegs x u [Reg.CL_NOZ_RESULT_LO.noz_line_lo.key 0, Reg.CL_NOZ_RESULT_HI.noz_line_hi.key 0, Reg.CL_NOZ_RESULT_HI.noz_result.key 0])) ∧
        Ends (exec (.nozRestore t n) s) (fun u => u.rd Reg.CL_NOZ_RESULT_HI.noz_result = (if (substClrOk σ n (loopLine σ)).isSome then 1 else 2) ∧
          u.rd2 Reg.CL_NOZ_RESULT_LO.noz_line_lo Reg.CL_NOZ_RESULT_HI.noz_line_hi = loopLine σ ∧ (p, i, c) ∉ u.loops.retry))) ∧
    (nozzleAt σ n = none →
      (s.on Reg.CL_CTRL.loops_run = false ∨ hostOpen s = false → exec (.nozRetire t n) s = .next σ ∧ exec (.nozRestore t n) s = .next σ) ∧
      (s.on Reg.CL_CTRL.loops_run = true → hostOpen s = true →
        Ends (exec (.nozRetire t n) s) (fun u => u.rd Reg.CL_NOZ_RESULT_HI.noz_result = 2) ∧
        Ends (exec (.nozRestore t n) s) (fun u => u.rd Reg.CL_NOZ_RESULT_HI.noz_result = 2))) ∧
    (nozOpen s n = false → exec (.nozRestorePlane t n) s = .next σ) ∧
    (nozOpen s n = true → loopLine σ < 2 ^ 48 → Ends (exec (.nozRestorePlane t n) s) (fun u =>
      (u.rd Reg.CL_NOZ_RESULT_HI.noz_result = 1 ∨ u.rd Reg.CL_NOZ_RESULT_HI.noz_result = 2) ∧
      (planeSubsts σ n = [] → u.rd Reg.CL_NOZ_RESULT_HI.noz_result = 1) ∧
      u.rd2 Reg.CL_NOZ_RESULT_LO.noz_line_lo Reg.CL_NOZ_RESULT_HI.noz_line_hi = loopLine σ ∧
      (∀ x ∈ u.loops.failed, x.2 ≠ n) ∧ ∀ x ∈ u.loops.retry, x.1 ≠ n)) ∧
    (hostOpen s = false → exec (.cuSwapRequest t) s = .next σ) ∧
    (hostOpen s = true → Ends (exec (.cuSwapRequest t) s) (fun u => u.on Reg.CL_CU_CTRL.swap = true ∧ OnlyRegs σ u [Reg.CL_CU_CTRL.swap.key 0])) ∧
    (loopOn s Reg.CL_CTRL.dens_en n = false ∨ (loopIssues s = false ∧ loopObserves s = false) ∨ bit s.insp.cuNew 0 = false ∨ s.insp.cuDone.1 ≠ n ∨
      s.inUse (chPlane n) = false → exec (.densityUpdate t n) s = .next σ) ∧
    (∀ z, loopOn s Reg.CL_CTRL.dens_en n = true → bit s.insp.cuNew 0 = true → s.insp.cuDone.1 = n → s.inUse (chPlane n) = true →
      z = { σ with insp := { s.insp with cuNew := s.insp.cuNew - 1 } } → loopIssues s = true ∨ loopObserves s = true →
      EndsIn (exec (.densityUpdate t n) s) (fun x =>
          let y := if loopIssues s then densIssue x n else x
          (if y.on Reg.CL_CU_CTRL.swap then y else { y with insp := { y.insp with cuPlane := some (nextPlane y y.insp.cuDone.2 n) } }).spend)
        (fun u => bit u.insp.cuNew 0 = false ∧ (u.quality 4 n).a1 = sat 16 (densQuality z n).1 ∧ (u.quality 4 n).a0 = unsigned 16 (satInt 16 (densQuality z n).2) ∧
          (u.quality 4 n).b0 = sat 16 ((s.quality 4 n).b0 + 1) ∧ (u.quality 4 n).at_ = some σ.clk ∧ u = { z with cal := u.cal })) ∧
    (∀ speed steady, s.on Reg.CL_CTRL.loops_run = false ∨ s.on Reg.CL_CTRL.reg_en = false ∨ (loopIssues s = false ∧ observeOnly s = false) ∨
      s.insp.cuNew / 2 = 0 ∨ s.insp.cuDone.2 ≠ n → exec (.registrationWindow t n speed steady) s = .next σ) ∧
    (∀ speed steady, s.on Reg.CL_CTRL.loops_run = true → s.on Reg.CL_CTRL.reg_en = true → loopIssues s = true ∨ observeOnly s = true →
      s.insp.cuNew / 2 ≠ 0 → s.insp.cuDone.2 = n → EndsIn (exec (.registrationWindow t n speed steady) s)
        (fun x => (if s.rd Reg.CL_REG_CFG.reg_frames ≤ x.loops.frames then regWindow x speed steady else x).spend) (fun u =>
          u.insp = { s.insp with cuNew := s.insp.cuNew % 2 } ∧ u.loops.frames = s.loops.frames + s.rd Reg.CL_CU_FIRST_HI.cu_frames ∧
          (∀ k, k < 80 → (Tbl.get RegSums.reset u.loops.sums k).npix = (Tbl.get RegSums.reset s.loops.sums k).npix +
            σ.peekNat (regAddr s (1 - s.rd Reg.CL_CU_CTRL.cu_buf) k + 40) 4) ∧
          u = { σ with insp := u.insp, loops := u.loops })) ∧
    (loopOn s Reg.CL_CTRL.reg_en n = false ∨ s.on Reg.CL_CTRL.xshift_en = false ∨ Config.columnPitch ≠ s.rd Reg.FS_PITCH.line_pitch ∨
      observeOnly s = true ∨ s.mode = modeFreeze ∨ s.rd Reg.CL_XSHIFT.xs_staged n = 0 ∨
      s.on Reg.LA_STATUS.job_open = true ∨ s.la.fired ≠ [] ∨ s.la.pages ≠ [] ∨ s.entry (chPlane n) = none → exec (.xshiftApply t n) s = .next σ) ∧
    (∀ e k, loopOn s Reg.CL_CTRL.reg_en n = true → s.on Reg.CL_CTRL.xshift_en = true → Config.columnPitch = s.rd Reg.FS_PITCH.line_pitch → observeOnly s = false → s.mode ≠ modeFreeze → k = s.rdi Reg.CL_XSHIFT.xs_staged n → k ≠ 0 →
      s.on Reg.LA_STATUS.job_open = false → s.la.fired = [] → s.la.pages = [] → s.entry (chPlane n) = some e →
      (shiftEntry e k = none ∨ (∃ e', shiftEntry e k = some e' ∧
          entryOk ((planeSubsts σ n).foldl (fun x z => (substClr x z 0).1) σ) (chPlane n) (nextEntry e') = false) →
        EndsIn (exec (.xshiftApply t n) s) (fun x => (accession x 5 n none false none none).spend) (fun u =>
        u.rd Reg.CL_XSHIFT.xs_staged n = 0 ∧ OnlyRegs σ u [Reg.CL_XSHIFT.xs_staged.key n])) ∧
      (∀ e' pairs, shiftEntry e k = some e' → pairs = (planeSubsts σ n).map (fun z => (z, substSpare σ z)) →
        entryOk (pairs.foldl (fun x z => (substClr x z.1 0).1) σ) (chPlane n) (nextEntry e') = true →
        EndsIn (exec (.xshiftApply t n) s) (fun x => (x.wri Reg.CL_XSHIFT.xs_applied n (x.rdi Reg.CL_XSHIFT.xs_applied n + k)).wr Reg.CL_XSHIFT.xs_staged n 0)
          (fun u => ∃ w, u = pairs.foldl (fun x z => (substSet x z.1 z.2 0).1) (catLoad w (chPlane n) (nextEntry e') none))))

/-- Recalibration of units: what is due, when it starts, and what its end files. A request or an age that has come puts the unit among those due, once for each reason. A class runs one unit at a time, and no unit traced to XREF starts or completes while `xref_fault` is set; a lane that carries traffic and has no spare waits for the job to end, with `deferred` set, and the due lanes that need not wait run before it. At the end of a run its instant is kept, it counts in `recal_runs`, and a lane's figures are filed; a figure beyond its limit retires the lane. A converter swap within `swap_tol` lets the spare converter take over, and the run ends at the RECAL_COMPLETE after it; one beyond `swap_tol` fails, the third in a row as an encoder fault. A reference resistance below 4,000 or above 6,000 Ω sets `xref_fault`, at start-up with the coefficients of the fuses (free values, log 126); a change of it posts event 0x0502. -/
def Obligations.Recalibration : Prop :=
  ∀ (s σ : State) (t c n : Nat), σ = s.at t →
    (hostOpen s = false ∨ s.on Reg.CL_CTRL.loops_run = false ∨ 4 ≤ c ∨ classUnits c ≤ n → exec (.recalRequest t c n) s = .next σ) ∧
    (hostOpen s = true → s.on Reg.CL_CTRL.loops_run = true → c < 4 → n < classUnits c → Ends (exec (.recalRequest t c n) s) (fun u =>
      (c, n, reasonRequest) ∈ u.cal.due ∧ (∀ d, d ∈ s.cal.due → d ∈ u.cal.due) ∧ u = { σ with cal := { s.cal with due := u.cal.due } })) ∧
    (∀ a, a = (match Tbl.find s.cal.lastRun (unitKey c n) with | some (b, _) => b | none => s.net.coldAt) →
      (recalOpen s = false ∨ 4 ≤ c ∨ classUnits c ≤ n ∨ σ.clk < a + s.rd Reg.CL_RECAL_CFG.recal_max_s * secU → exec (.recalAgeExpiry t c n) s = .next σ) ∧
      (recalOpen s = true → c < 4 → n < classUnits c → a + s.rd Reg.CL_RECAL_CFG.recal_max_s * secU ≤ σ.clk →
        Ends (exec (.recalAgeExpiry t c n) s) (fun u => (c, n, reasonAge) ∈ u.cal.due ∧ u = { σ with cal := { s.cal with due := u.cal.due } }))) ∧
    (recalOpen s = false ∨ 4 ≤ c ∨ (Tbl.find s.cal.running c).isSome = true ∨ (c ≠ 2 ∧ s.on Reg.CL_RECAL_STATUS.xref_fault = true) ∨
      (c ≤ 1 ∧ s.rd Reg.MODE_CUR.power ≠ 0) ∨ (c ≠ 0 ∧ firstDue σ c = none) → exec (.recalStart t c) s = .next σ) ∧
    (recalOpen s = true → Tbl.find s.cal.running c = none → c = 2 ∨ s.on Reg.CL_RECAL_STATUS.xref_fault = false → 2 ≤ c ∨ s.rd Reg.MODE_CUR.power = 0 →
      (c = 3 → firstDue σ c = some n → exec (.recalStart t c) s = .next (recalRun σ 3 n)) ∧
      (c = 2 → firstDue σ c = some n → EndsIn (exec (.recalStart t c) s) (fun x => { x with st := { x.st with windows := 0 } }) (fun u => u = recalRun σ 2 n)) ∧
      (c = 1 → firstDue σ c = some n → exec (.recalStart t c) s = .next (setLstate (recalRun σ 1 n) (48 + n) 4)) ∧
      (c = 0 → EndsIn (exec (.recalStart t c) s)
        (fun x => x.wr Reg.CL_RECAL_STATUS.deferred 0 (setBit (x.rd Reg.CL_RECAL_STATUS.deferred) 0
          ((dueReady σ 0).any (fun d => laneWaits σ d.2.1)))) (fun u =>
        (firstDue σ 0 = none → u = σ) ∧
        (firstDue σ 0 = some n →
          laneWaits σ n = false ∧
          (s.lstate n = 3 ∨ logicalOn s n = none → u = setLstate (recalRun σ 0 n) n 4) ∧
          ∀ l, s.lstate n ≠ 3 → logicalOn s n = some l →
            (moving s l = true → u = σ) ∧
            (moving s l = false → freeSpare σ l = none →
              s.on Reg.LA_STATUS.job_open = false ∧ u = showLinks (setLstate (recalRun σ 0 n) n 4) l) ∧
            (∀ b, moving s l = false → freeSpare σ l = some b → u = moveAdd (recalRun σ 0 n) l b true false))))) ∧
    (∀ z : State, Tbl.find (recalRun z c n).cal.running c = some n ∧ (∀ d ∈ (recalRun z c n).cal.due, ¬(d.1 = c ∧ d.2.1 = n)) ∧
      OnlyRegs { z with cal := (recalRun z c n).cal } (recalRun z c n) [Reg.CL_RECAL_STATUS.busy.key 0, Reg.CL_RECAL_STATUS.deferred.key 0]) ∧
    (∀ z : State, Tbl.find (recalEnd z c n true).cal.running c = none ∧
      Tbl.find (recalEnd z c n true).cal.lastRun (unitKey c n) = some (z.clk, z.rdi Reg.THERM_SENS.s_value (unitSensor c n)) ∧
      (recalEnd z c n true).rd Reg.CL_RECAL_STATUS.recal_runs = sat 16 (z.rd Reg.CL_RECAL_STATUS.recal_runs + 1)) ∧
    (∀ a b ctle, Tbl.find s.cal.running c ≠ some n ∨ (c ≠ 2 ∧ s.on Reg.CL_RECAL_STATUS.xref_fault = true) →
      exec (.recalComplete t c n a b ctle) s = .next σ) ∧
    (∀ a b ctle, Tbl.find s.cal.running c = some n → c = 2 ∨ s.on Reg.CL_RECAL_STATUS.xref_fault = false →
      (c = 2 → s.st.windows = 128 → exec (.recalComplete t c n a b ctle) s = .next (recalEnd σ 2 n true)) ∧
      (c = 2 → s.st.windows ≠ 128 → exec (.recalComplete t c n a b ctle) s = .next σ) ∧
      (c = 3 → (s.fb (n / 2)).sc.swapped = false → exec (.recalComplete t c n a b ctle) s = .next σ) ∧
      (c = 3 → (s.fb (n / 2)).sc.swapped = true → Ends (exec (.recalComplete t c n a b ctle) s) (fun u =>
        (u.fb (n / 2)).sc = { (s.fb (n / 2)).sc with swapped := false } ∧
        (u.quality 2 (n / 2)).b1 = unsigned 16 (s.rdi Reg.THERM_SENS.s_value (unitSensor 3 n)) ∧ (u.quality 2 (n / 2)).at_ = (s.quality 2 (n / 2)).at_ ∧
        Tbl.find u.cal.running 3 = none ∧ u.regs = (recalEnd σ 3 n true).regs ∧ u.cal.lastRun = (recalEnd σ 3 n true).cal.lastRun)) ∧
      (c ≤ 1 → s.lstate (unitLane c n) ≠ 4 → (moving s ((logicalOn s (unitLane c n)).getD 40) = true → exec (.recalComplete t c n a b ctle) s = .next σ) ∧
        (moving s ((logicalOn s (unitLane c n)).getD 40) = false → exec (.recalComplete t c n a b ctle) s = .next (recalEnd σ c n false))) ∧
      (c ≤ 1 → s.lstate (unitLane c n) = 4 → s.rd Reg.CL_Q_LIMITS.eye_w_min ≤ a → 2 * s.rd Reg.CL_Q_LIMITS.eye_h_min ≤ b →
        EndsIn (exec (.recalComplete t c n a b ctle) s)
          (fun x => match c, logicalOn x (unitLane c n) with
            | 0, some l => showLinks (setLstate x (unitLane c n) 2) l
            | 0, none => laneStandby x (unitLane c n)
            | _, _ => setLstate x (unitLane c n) 2)
          (fun u => (u.quality c n).a1 = low 16 a ∧ (u.quality c n).a0 = low 16 b ∧ (u.lane (unitLane c n)).isOver = false ∧ (u.lane (unitLane c n)).tapsAt = some σ.clk ∧
            u.rd Reg.LANE_STATE.ctle (unitLane c n) = low 4 (min ctle (laneEnt s (unitLane c n) LaneE.ctleMax 15)) ∧
            u.rd Reg.CL_RECAL_STATUS.recal_runs = sat 16 (s.rd Reg.CL_RECAL_STATUS.recal_runs + 1))) ∧
      (c ≤ 1 → s.lstate (unitLane c n) = 4 → a < s.rd Reg.CL_Q_LIMITS.eye_w_min ∨ b < 2 * s.rd Reg.CL_Q_LIMITS.eye_h_min →
        EndsIn (exec (.recalComplete t c n a b ctle) s) (fun x => laneRetire x (unitLane c n)) (fun u =>
          (u.quality c n).a1 = low 16 a ∧ u.rd Reg.CL_RECAL_STATUS.recal_runs = sat 16 (s.rd Reg.CL_RECAL_STATUS.recal_runs + 1)))) ∧
    (∀ d, recalOpen s = false ∨ 8 ≤ n ∨ s.on Reg.CL_RECAL_STATUS.xref_fault = true ∨ (s.fb n).sc.swapped = true ∨
      ((∀ k, Tbl.find s.cal.running 3 = some k → k / 2 ≠ n) ∧ Tbl.find s.tu.burstDue n = none) → exec (.converterSwap t n d) s = .next σ) ∧
    (∀ d, recalOpen s = true → n < 8 → s.on Reg.CL_RECAL_STATUS.xref_fault = false → (s.fb n).sc.swapped = false →
      (∃ k, Tbl.find s.cal.running 3 = some k ∧ k / 2 = n) ∨ (Tbl.find s.tu.burstDue n).isSome = true →
      (d ≤ s.rd Reg.CL_Q_LIMITS.swap_tol → Ends (exec (.converterSwap t n d) s) (fun u => (u.quality 2 n).b0 = sat 16 ((s.quality 2 n).b0 + 1) ∧
        (u.quality 2 n).at_ = (s.quality 2 n).at_ ∧
        (∀ k, Tbl.find s.cal.running 3 = some k → k / 2 = n → (u.fb n).sc = { (s.fb n).sc.takeOver (k % 2) with swapped := true }) ∧
        ((∀ k, Tbl.find s.cal.running 3 = some k → k / 2 ≠ n) → ∃ k, k < 2 ∧ (u.fb n).sc = (s.fb n).sc.takeOver k) ∧
        Tbl.get 0 u.loops.convBad n = 0 ∧ Tbl.find u.tu.burstDue n = none ∧ u.regs = s.regs)) ∧
      (s.rd Reg.CL_Q_LIMITS.swap_tol < d →
        (Tbl.get 0 s.loops.convBad n ≠ 2 → Ends (exec (.converterSwap t n d) s) (fun u => Tbl.get 0 u.loops.convBad n = Tbl.get 0 s.loops.convBad n + 1 ∧
          (u.fb n).sc = (s.fb n).sc ∧ u.out = s.out)) ∧
        (Tbl.get 0 s.loops.convBad n = 2 → EndsIn (exec (.converterSwap t n d) s) (fun x => encFault x n 0) (fun u =>
          Tbl.get 0 u.loops.convBad n = 0 ∧ (u.fb n).sc = (s.fb n).sc ∧ u.out = s.out)))) ∧
    (∀ r y, y = (if (decide (r < 4000 ∨ 6000 < r) && (s.mode == modeCold || s.mode == modeReload)) = true then (List.range 8).foldl factoryCoefs σ else σ) →
      (decide (r < 4000 ∨ 6000 < r) = s.on Reg.CL_RECAL_STATUS.xref_fault → exec (.xrefCheck t r) s = .next y) ∧
      (decide (r < 4000 ∨ 6000 < r) ≠ s.on Reg.CL_RECAL_STATUS.xref_fault →
        EndsIn (exec (.xrefCheck t r) s) (fun x => x.event 0x0502 noChan 0 (ofBool (decide (r < 4000 ∨ 6000 < r))) r) (fun u =>
          u.on Reg.CL_RECAL_STATUS.xref_fault = decide (r < 4000 ∨ 6000 < r) ∧ OnlyRegs y u [Reg.CL_RECAL_STATUS.xref_fault.key 0])))

/-- Axes, drives and switches. A command of MOT_CMD goes to the axis in `axis_sel`, or is ignored where R276 or R277 is against it; one that is carried out ends a homing in progress. MOVE takes its target, relative to the last target where one stands; VELOCITY its speed; STOP brings the axis to rest; HOME starts at step 1, or at step 3 where the home switch is active already; ENABLE gives the drive its enable at rest and DISABLE takes it at rest. A servo period begins once for each firing of its trigger, and one too soon is counted in `trig_err`; no frame goes out while the transmit pairs are in high impedance. A returned frame whose CRC fails is counted and discarded; each slot of a good one brings its axis's position and current. A switch qualifies once stable, and its instant is captured; a travel limit that the axis moves towards stops it hard. -/
def Obligations.AxesAndDrives : Prop :=
  (∀ (z : State) (k dt : Nat) (axes : List Nat), ∃ b out, (portFrame z k dt axes).out = .driveFrame k b :: out) ∧
  (∀ (z : State) (n : Nat) (d : Int), z.rd Reg.MOT_AX_STATE.home_step n = 0 →
    (d * (z.axis n).v ≤ 0 → limitSwitch z n d = z) ∧
    (0 < d * (z.axis n).v → (limitSwitch z n d).on Reg.MOT_AX_STATE.limit_hit n = true ∧ ((limitSwitch z n d).axis n).goal = .stop true)) ∧
  (∀ (z u : State) (port d n : Nat) (slot : List Byte) (st : Nat), u = driveReturn z port d slot → st = leNat ((slot.drop 8).take 2) →
    axisAt z port d = some n → bit (z.drivePort port).fresh d ≠ bit st 0 → bit st 2 = false →
    u.rd Reg.MOT_AX_DRV_POS.drv_pos n = low 32 (leNat ((slot.drop 10).take 4)) ∧ u.rd Reg.MOT_AX_DRV_CUR.drv_cur n = low 16 (leNat ((slot.drop 14).take 2)) ∧
    (u.axis n).drvPos = some (signed 32 (leNat ((slot.drop 10).take 4))) ∧ (u.axis n).missed = 0 ∧ bit (u.drivePort port).fresh d = bit st 0) ∧
  ∀ (s σ b : State) (t n k : Nat), σ = s.at t → b = bootDue σ → n = s.rd Reg.MOT_AXIS_SEL.axis_sel →
    (∀ c op, (c, op) ∈ [(Instr.moveAbs t, opMoveAbs), (.moveRel t, opMoveRel), (.velocity t, opVelocity), (.stop t, opStop), (.home t, opHome),
        (.enable t, opEnable), (.disable t, opDisable)] → hostOpen s = false ∨ commandOk σ n op = false → exec c s = .next σ) ∧
    (∀ c op, (c, op) ∈ [(Instr.moveAbs t, opMoveAbs), (.moveRel t, opMoveRel)] → hostOpen s = true → commandOk σ n op = true →
      Ends (exec c s) (fun u => (u.axis n).goal = .target (moveTarget σ n op) (s.rdi Reg.MOT_SPEED.speed).natAbs ∧
        (u.axis n).lastTarget = some (moveTarget σ n op) ∧ u.rd Reg.MOT_AX_STATE.home_step n = 0 ∧
        (∀ j, j ≠ n → u.axis j = s.axis j) ∧ u = { σ with regs := u.regs, mot := u.mot })) ∧
    (moveTarget σ n opMoveAbs = s.rd2i Reg.MOT_TARGET_LO.target_lo Reg.MOT_TARGET_HI.target_hi ∧
      moveTarget σ n opMoveRel = (s.axis n).lastTarget.getD (s.axis n).wp + s.rd2i Reg.MOT_TARGET_LO.target_lo Reg.MOT_TARGET_HI.target_hi) ∧
    (hostOpen s = true → commandOk σ n opVelocity = true → Ends (exec (.velocity t) s) (fun u =>
      (u.axis n).goal = .speed (s.rdi Reg.MOT_SPEED.speed) ∧ (u.axis n).velCmd = s.rdi Reg.MOT_SPEED.speed ∧ (u.axis n).lastTarget = none ∧
      u.rd Reg.MOT_AX_STATE.home_step n = 0 ∧ (∀ j, j ≠ n → u.axis j = s.axis j) ∧ u = { σ with regs := u.regs, mot := u.mot })) ∧
    (hostOpen s = true → commandOk σ n opStop = true → Ends (exec (.stop t) s) (fun u =>
      (u.axis n).goal = (if (s.axis n).v = 0 ∧ (s.axis n).a = 0 then .still else .stop false) ∧ (u.axis n).lastTarget = none ∧
      u.rd Reg.MOT_AX_STATE.home_step n = 0 ∧ (s.rd Reg.MOT_AX_STATE.home_step n ≠ 0 → u.on Reg.MOT_AX_STATE.home_failed n = true) ∧
      (∀ j, j ≠ n → u.axis j = s.axis j) ∧ u = { σ with regs := u.regs, mot := u.mot })) ∧
    (hostOpen s = true → commandOk σ n opHome = true → Ends (exec (.home t) s) (fun u =>
      u.rd Reg.MOT_AX_STATE.home_step n = (if homeActive σ n then 3 else 1) ∧ (u.axis n).lastTarget = none ∧
      (homeActive σ n = false → (u.axis n).goal = .speed (homeFast σ n)) ∧ (homeActive σ n = true → (u.axis n).goal = .speed (-homeSlow σ n)) ∧
      (∀ j, j ≠ n → u.axis j = s.axis j) ∧ u = { σ with regs := u.regs, mot := u.mot })) ∧
    (hostOpen s = true → commandOk σ n opEnable = true → Ends (exec (.enable t) s) (fun u =>
      (u.axis n).enabled = ((s.axis n).enabled || (s.axis n).atRest) ∧ (u.axis n).goal = (s.axis n).goal ∧ (u.axis n).lastTarget = none ∧
      (∀ j, j ≠ n → u.axis j = s.axis j) ∧ u = { σ with regs := u.regs, mot := u.mot })) ∧
    (hostOpen s = true → commandOk σ n opDisable = true →
      ((s.axis n).atRest = false → exec (.disable t) s = .next σ) ∧
      ((s.axis n).atRest = true → Ends (exec (.disable t) s) (fun u => (u.axis n).enabled = false ∧ u.rd Reg.MOT_AX_STATE.ax_state n = 0 ∧
        (∀ j, j ≠ n → u.axis j = s.axis j) ∧ u = { σ with regs := u.regs, mot := u.mot }))) ∧
    ((s.drivePort k).due = false → exec (.servoPeriod t k) s = .next σ.lineEnd) ∧
    (∀ y, (s.drivePort k).due = true → y = σ.setDrivePort k { s.drivePort k with due := false } →
      (s.entOn (chDl k) DlE.portEn = false ∨ s.rd Reg.DL_STATE.dl_link k ≠ 2 ∨ s.mode = modeCold ∨ s.mode = modeReload → exec (.servoPeriod t k) s = .next y.lineEnd) ∧
      (s.entOn (chDl k) DlE.portEn = true → s.rd Reg.DL_STATE.dl_link k = 2 → s.mode ≠ modeCold → s.mode ≠ modeReload →
        (∀ a, (s.drivePort k).lastTrig = some a → 10 * (σ.clk - a) < 9 * s.ent (chDl k) DlE.servoNs * nsU →
          EndsIn (exec (.servoPeriod t k) s) State.lineEnd (fun u => u.rd Reg.DL_ERR.trig_err k = sat 16 (s.rd Reg.DL_ERR.trig_err k + 1) ∧
            OnlyRegs y u [Reg.DL_ERR.trig_err.key k])) ∧
        (∀ a z, (s.drivePort k).lastTrig = some a → 9 * s.ent (chDl k) DlE.servoNs * nsU ≤ 10 * (σ.clk - a) →
          z = (if drvSilent s = true then y else driveLost y k) →
          exec (.servoPeriod t k) s = .next (if z.rd Reg.DL_STATE.dl_link k = 2 then portPeriod z k else z).lineEnd) ∧
        ((s.drivePort k).lastTrig = none → EndsIn (exec (.servoPeriod t k) s) (fun x =>
            let dt := x.ent (chDl k) DlE.servoNs
            let x := catApply ((axesOfPort x k).foldl (fun z n => catApply z (chAxis n)) x) (chDl k)
            let x := unitBoundary x ((axesOfPort x k).foldl (fun m n => m + 2 ^ (96 + n)) 0) 0
            (if drvSilent x = true then x else portFrame x k dt (portAxes x k)).lineEnd)
          (fun u => (u.drivePort k).period = (s.drivePort k).period + 1 ∧ (u.drivePort k).lastTrig = some σ.clk ∧ (u.drivePort k).due = false ∧
            u = { σ with mot := u.mot })))) ∧
    (∀ cs, s.rd Reg.DL_STATE.dl_link k ≠ 2 → exec (.driveLinkFrameReceive t k cs) s = .next σ.settle) ∧
    (∀ cs, s.rd Reg.DL_STATE.dl_link k = 2 →
      (cs.length ≠ 140 ∨ crc32 (cs.take 136) ≠ leNat (cs.drop 136) → EndsIn (exec (.driveLinkFrameReceive t k cs) s) State.settle (fun u =>
        u.rd Reg.DL_ERR.crc_err k = sat 16 (s.rd Reg.DL_ERR.crc_err k + 1) ∧ OnlyRegs σ u [Reg.DL_ERR.crc_err.key k])) ∧
      (cs.length = 140 → crc32 (cs.take 136) = leNat (cs.drop 136) → EndsIn (exec (.driveLinkFrameReceive t k cs) s)
        (fun x => ((List.range (x.ent (chDl k) DlE.drives)).foldl (fun z d => driveReturn z k d ((cs.drop (8 + 16 * d)).take 16)) x).settle)
        (fun u => u.drivePort k = { s.drivePort k with returned := true, lost := 0 } ∧ u.rd Reg.DL_STATE.fresh_map k = 0 ∧
          OnlyRegs { σ with mot := u.mot } u [Reg.DL_STATE.fresh_map.key k]))) ∧
    (∀ seen hops, b.rd Reg.DL_STATE.dl_link k ≠ 1 ∨ b.mode = modeCold ∨ b.mode = modeReload → exec (.driveLinkUp t k seen hops) s = .next b) ∧
    (∀ seen hops, b.rd Reg.DL_STATE.dl_link k = 1 → b.mode ≠ modeCold → b.mode ≠ modeReload → Ends (exec (.driveLinkUp t k seen hops) s) (fun u =>
      u.rd Reg.DL_STATE.dl_link k = 2 ∧ u.rd Reg.DL_STATE.drives_seen k = low 4 seen ∧
      u.drivePort k = { b.drivePort k with hops := hops, lost := 0, returned := false, lastTrig := none } ∧
      OnlyRegs { b with mot := u.mot } u [Reg.DL_STATE.dl_link.key k, Reg.DL_STATE.drives_seen.key k])) ∧
    (∀ a, axisOn s a = false ∨ (s.axis a).atRest = false ∨ 100 ≤ s.ent (chAxis a) AxisE.holdPct ∨
        (a = 0 ∧ (s.mode = modePrint ∨ s.mode = modeThrottle ∨ s.mode = modeRewind)) ∨ σ.clk < (s.axis a).stillAt + s.ent (chAxis a) AxisE.holdDelay * msU →
      exec (.holdDelayExpiry t a) s = .next σ) ∧
    (∀ a, axisOn s a = true → (s.axis a).atRest = true → s.ent (chAxis a) AxisE.holdPct < 100 →
      ¬(a = 0 ∧ (s.mode = modePrint ∨ s.mode = modeThrottle ∨ s.mode = modeRewind)) → (s.axis a).stillAt + s.ent (chAxis a) AxisE.holdDelay * msU ≤ σ.clk →
      Ends (exec (.holdDelayExpiry t a) s) (fun u => u.on Reg.MOT_AX_STATE.hold_reduced a = true ∧ u.mot = s.mot ∧ u = { σ with regs := u.regs })) ∧
    (∀ t0 l, (s.switch k).level = l ∨ σ.clk < (s.switch k).ignoreTo ∨ σ.clk < t0 + debounceOf s k → exec (.switchQualify t k t0 l) s = .next σ) ∧
    (∀ t0 l, (s.switch k).level ≠ l → (s.switch k).ignoreTo ≤ σ.clk → t0 + debounceOf s k ≤ σ.clk → EndsIn (exec (.switchQualify t k t0 l) s) (fun x => switchAxes x k t0) (fun u =>
      u.switch k = { s.switch k with level := l } ∧ Tbl.get 0 u.tu.capAt (0x10 + k) = σ.devAt t0 ∧
      Tbl.get 0 u.tu.capN (0x10 + k) = (Tbl.get 0 s.tu.capN (0x10 + k) + 1) % 2 ^ 32 ∧ u = { σ with mot := u.mot, tu := u.tu })) ∧
    (∀ a j, j = s.ent (chAxis a) AxisE.swHome →
      (s.inUse (chAxis a) = false ∨ σ.clk < (s.switch j).ignoreTo → exec (.latchHoldoffExpiry t a) s = .next σ) ∧
      (s.inUse (chAxis a) = true → (s.switch j).ignoreTo ≤ σ.clk → Ends (exec (.latchHoldoffExpiry t a) s) (fun u =>
        u.switch j = { s.switch j with ignoreTo := 0 } ∧ u = { σ with mot := u.mot })))

/-- Position feedback and device time. A quadrature sample in which both levels changed leaves the count and counts `qerr`; one step moves the extended count by 1, wrapping at `cpr`. A sin/cos sample counts by the interpolated phase of its corrected readings (free within a quarter, log 126), by quarter-period crossings while `amp_fault` is set, which `amp_hold` samples outside the amplitude window set; a fit moves each correction by at most its step, and only after 64 periods. An SSI reading with the line not idle is discarded and counted. An index captures count and time. An emulator output sends its edges one at a time, `min_edge_ns` apart, and a rising edge of its A triggers the groups whose `trig_out` names it. Reads of TIME_NOW_SUB and TIME_CAP_SUB latch what the reader's further reads return. Device time steps with capture 0x58 of the time before and event 0x0701; TIME_SET is ignored with a job open, with an epoch outstanding, while a master is followed or for nanoseconds out of range. PPS_IN is captured always, and a time without another master is steered to it, by a rate within `slew_max` that is otherwise free (log 85), or stepped where it was never locked; a write of TIME_PPS that clears `pps_in_en` ends its lock. A time trigger fires at its grid time, captures it, counts, and starts its ports, slices and action; an action aimed at a unit that is not running is dropped. -/
def Obligations.FeedbackAndTime : Prop :=
  (∀ (z u : State) (i d : Nat) (a b : Bool) (e : Int), u = quadSample z i a b → d = (quarterOf a b + 4 - quarterOf (z.fb i).levelA (z.fb i).levelB) % 4 →
    (d = 0 → u.regs = z.regs) ∧
    (d = 2 → z.on Reg.FB_STATE.enc_fault i = true → u.rd Reg.FB_QERR.qerr i = sat 32 (z.rd Reg.FB_QERR.qerr i + 1) ∧
      u.on Reg.FB_STATE.qerr_sticky i = true ∧ OnlyRegs { z with mot := u.mot } u [Reg.FB_QERR.qerr.key i, Reg.FB_STATE.qerr_sticky.key i]) ∧
    (d = 1 ∨ d = 3 → e = fbExt z i + (if d = 1 then 1 else -1) → u.rd Reg.FB_COUNT.count i = low 32 (e % (max 1 (fbCpr z i) : Nat)).toNat ∧
      u.rd Reg.FB_REV.rev i = unsigned 32 (e / (max 1 (fbCpr z i) : Nat)) ∧ u.rd Reg.FB_QERR.qerr i = z.rd Reg.FB_QERR.qerr i)) ∧
  (∀ (z u : State) (i : Nat) (sn cs e : Int) (r : Int × Int), u = sinCosSample z i sn cs → r = (z.fb i).sc.correct sn cs →
    (64000000 ≤ r.1 * r.1 + r.2 * r.2 → r.1 * r.1 + r.2 * r.2 ≤ 144000000 → 0 < z.ent (chFb i) FbE.ampHold →
      (z.on Reg.FB_STATE.amp_fault i = false → e = fbExt z i + phaseStep 4096 (fbExt z i % 4096).toNat (phaseOf r.1 r.2) →
        (e = fbExt z i → u.rd Reg.FB_COUNT.count i = z.rd Reg.FB_COUNT.count i ∧ u.rd Reg.FB_REV.rev i = z.rd Reg.FB_REV.rev i) ∧
        (e ≠ fbExt z i → u.rd Reg.FB_COUNT.count i = low 32 (e % (max 1 (fbCpr z i) : Nat)).toNat ∧ u.rd Reg.FB_REV.rev i = unsigned 32 (e / (max 1 (fbCpr z i) : Nat)))) ∧
      (z.on Reg.FB_STATE.amp_fault i = true → (z.fb i).ampGood + 1 < z.ent (chFb i) FbE.ampHold →
        e = fbExt z i + 1024 * phaseStep 4 ((z.fb i).phase / 1024) (phaseOf r.1 r.2 / 1024) → e ≠ fbExt z i →
        u.on Reg.FB_STATE.amp_fault i = true ∧ u.rd Reg.FB_COUNT.count i = low 32 (e % (max 1 (fbCpr z i) : Nat)).toNat ∧
        u.rd Reg.FB_REV.rev i = unsigned 32 (e / (max 1 (fbCpr z i) : Nat)))) ∧
    (r.1 * r.1 + r.2 * r.2 < 64000000 ∨ 144000000 < r.1 * r.1 + r.2 * r.2 → z.ent (chFb i) FbE.ampHold ≤ (z.fb i).ampBad + 1 →
      z.on Reg.FB_STATE.enc_fault i = true → u.on Reg.FB_STATE.amp_fault i = true)) ∧
  (∀ (z : State) (i amp : Nat) (e : Int) (c d : SinCos), c = (z.fb i).sc → d = ((sinCosFit z i amp e).fb i).sc →
    (d.offS - c.offS).natAbs ≤ 5 ∧ (d.offC - c.offC).natAbs ≤ 5 ∧ (d.gain - c.gain).natAbs ≤ 5 ∧ (d.angle - c.angle).natAbs ≤ 2 ∧
    (recalOpen z = false ∨ z.on Reg.CL_RECAL_STATUS.xref_fault = true ∨ c.from_ = none ∨ (∃ a, c.from_ = some a ∧ (e - a).natAbs < 262144) →
      d.offS = c.offS ∧ d.offC = c.offC ∧ d.gain = c.gain ∧ d.angle = c.angle)) ∧
  (∀ (z u : State) (i v : Nat),
    (u = ssiReading z i v false → (z.fb i).ssiBad < 2 → u.rd Reg.FB_STATE.ssi_err i = sat 16 (z.rd Reg.FB_STATE.ssi_err i + 1) ∧
      (u.fb i).ssiBad = (z.fb i).ssiBad + 1 ∧ OnlyRegs { z with mot := u.mot } u [Reg.FB_STATE.ssi_err.key i]) ∧
    (u = ssiReading z i v true → z.ent (chFb i) FbE.kind = 3 → z.entOn (chFb i) FbE.ssiGray = false → (z.fb i).ssiSeen = false →
      u.rd Reg.FB_COUNT.count i = low 32 (low (z.ent (chFb i) FbE.ssiBits) v % fbCpr z i) ∧
      u.rd Reg.FB_REV.rev i = low 32 (low (z.ent (chFb i) FbE.ssiBits) v / fbCpr z i) ∧ (u.fb i).ssiBad = 0)) ∧
  (∀ (z : State) (v : Nat), ∃ w : State, w.devTime = v ∧ Tbl.get 0 w.tu.capAt 0x58 = z.devTime ∧
    w.rd Reg.TIME_TRACE.steps = sat 16 (z.rd Reg.TIME_TRACE.steps + 1) ∧ OnlyRegs { z with tu := w.tu, timeOff := w.timeOff } w [Reg.TIME_TRACE.steps.key 0] ∧
    stepTo z v =
      (let ns := unsigned 64 (((v : Int) - z.devTime) / nsU)
       let y := (List.range 64).foldl (fun x k => trigStep x v k) (w.event 0x0701 noChan 0 (low 32 ns) (ns / 2 ^ 32))
       { y with tu := { y.tu with syncDelta := y.tu.syncDelta + ((v : Int) - z.devTime), reqOut := none } })) ∧
  (∀ (z : State) (o : Int), z.rd Reg.TIME_SERVO.slew_max * 1000000 < 2 ^ 31 →
    ((steer z o).rdi Reg.TIME_RATE.rate).natAbs ≤ z.rd Reg.TIME_SERVO.slew_max * 1000000 ∧
    (lockThr z ≤ o.natAbs → 0 < o → (steer z o).rdi Reg.TIME_RATE.rate ≤ 0) ∧ (lockThr z ≤ o.natAbs → o < 0 → 0 ≤ (steer z o).rdi Reg.TIME_RATE.rate)) ∧
  ∀ (s σ : State) (t i : Nat), σ = s.at t →
    (∀ x y, 8 ≤ i ∨ (s.ent (chFb i) FbE.kind ≠ 1 ∧ s.ent (chFb i) FbE.kind ≠ 2) → exec (.feedbackPositionUpdate t i x y) s = .next σ.lineEnd) ∧
    (∀ x y, i < 8 → s.ent (chFb i) FbE.kind = 1 → exec (.feedbackPositionUpdate t i x y) s = .next (fbFollow (quadSample σ i (x != 0) (y != 0)) i).lineEnd) ∧
    (∀ x y, i < 8 → s.ent (chFb i) FbE.kind = 2 → exec (.feedbackPositionUpdate t i x y) s = .next (fbFollow (sinCosSample σ i x y) i).lineEnd) ∧
    (∀ v idle, (8 ≤ i ∨ s.ent (chFb i) FbE.kind ≠ 3 → exec (.ssiReading t i v idle) s = .next σ.lineEnd) ∧
      (i < 8 → s.ent (chFb i) FbE.kind = 3 → exec (.ssiReading t i v idle) s = .next (fbFollow (ssiReading σ i v idle) i).lineEnd)) ∧
    (8 ≤ i ∨ s.entOn (chFb i) FbE.zEn = false ∨ s.ent (chFb i) FbE.kind = 3 → exec (.indexEdge t i) s = .next σ) ∧
    (i < 8 → s.entOn (chFb i) FbE.zEn = true → s.ent (chFb i) FbE.kind ≠ 3 →
      EndsIn (exec (.indexEdge t i) s) (fun x => if i = x.webInput then indexCheck x (fbExt s i) else x) (fun u =>
        u.rd Reg.FB_IDX_COUNT.idx_count i = unsigned 32 (fbExt s i) ∧ u.rd Reg.FB_IDX_N.idx_n i = low 32 (s.rd Reg.FB_IDX_N.idx_n i + 1) ∧
        (u.fb i).idxTime = σ.devTime ∧ (u.fb i).idxExt = fbExt s i ∧ Tbl.get 0 u.tu.capAt (1 + i) = σ.devTime ∧
        OnlyRegs { σ with mot := u.mot, tu := u.tu } u [Reg.FB_IDX_COUNT.idx_count.key i, Reg.FB_IDX_N.idx_n.key i])) ∧
    (∀ a e es, (s.fb i).edges = (a, e) :: es → σ.clk < a + fbZero s i → exec (.speedZeroTimeout t i) s = .next σ.settle) ∧
    ((∀ a e es, (s.fb i).edges = (a, e) :: es → a + fbZero s i ≤ σ.clk) → EndsIn (exec (.speedZeroTimeout t i) s) State.settle (fun u =>
      u.rd Reg.FB_SPEED.fspeed i = 0 ∧ (u.fb i).edges = [] ∧ OnlyRegs { σ with mot := u.mot } u [Reg.FB_SPEED.fspeed.key i])) ∧
    (s.on Reg.EMU_STATE.emu_running i = false ∨ emuLag σ i = 0 ∨ (∃ a, (s.emu i).lastEdge = some a ∧ σ.clk < a + s.ent (chEmu i) EmuE.minEdgeNs * nsU) →
      exec (.emulatorEdge t i) s = .next σ) ∧
    (∀ n, s.on Reg.EMU_STATE.emu_running i = true → emuLag σ i ≠ 0 → (∀ a, (s.emu i).lastEdge = some a → a + s.ent (chEmu i) EmuE.minEdgeNs * nsU ≤ σ.clk) →
      n = (s.emu i).sent + (if 0 < emuLag σ i then 1 else -1) → EndsIn (exec (.emulatorEdge t i) s)
        (fun x => if (!(emuLevels s i (s.emu i).sent).1 && (emuLevels s i n).1) = true then
          (List.range 4).foldl (fun z g => if z.rd Reg.GRP_CFG.trig_out g = i then groupTrigger z g else z) x else x) (fun u =>
        u.emu i = { s.emu i with sent := n, lastEdge := some σ.clk } ∧
        u.out = (if s.mode = modeShadow ∨ ((s.on Reg.PAIR_CFG.pair_en = true ∨ s.fl.pairReset = true) ∧ (s.mode = modeCold ∨ s.mode = modeReload)) then s.out
          else .emuEdge i (emuLevels s i n).1 (emuLevels s i n).2 (emuZ s i n) :: s.out) ∧
        OnlyRegs { σ with mot := u.mot, out := u.out } u [Reg.EMU_STATE.backlog.key i])) ∧
    Ends (exec (.timeNowLatch t i) s) (fun u => u.out = .readData i (subOf σ.devTime) :: s.out ∧ Tbl.get 0 u.tu.nowLatch i = σ.devTime ∧
      u = { σ with out := u.out, tu := u.tu }) ∧
    (∀ c, c = s.rd Reg.TIME_CAP_SEL.cap_sel → Ends (exec (.timeCapLatch t i) s) (fun u => u.out = .readData i (subOf (Tbl.get 0 s.tu.capAt c)) :: s.out ∧
      Tbl.get (0, 0) u.tu.capLatch i = (Tbl.get 0 s.tu.capAt c, Tbl.get 0 s.tu.capN c) ∧ u = { σ with out := u.out, tu := u.tu })) ∧
    (lockState s ≠ lockHold ∨ σ.clk < s.tu.holdAt + s.rd Reg.TIME_TRACE.trace_hold_s * secU → exec (.traceHoldExpiry t) s = .next σ) ∧
    (lockState s = lockHold → s.tu.holdAt + s.rd Reg.TIME_TRACE.trace_hold_s * secU ≤ σ.clk → Ends (exec (.traceHoldExpiry t) s) (fun u =>
      u.on Reg.TIME_STATE.traced = false ∧ OnlyRegs σ u [Reg.TIME_STATE.traced.key 0])) ∧
    (s.tu.ppsHigh = true →
      (σ.clk + nsU < s.tu.ppsAt + s.rd Reg.TIME_PPS.pps_width * msU → exec (.ppsOutEdge t) s = .next σ) ∧
      (s.tu.ppsAt + s.rd Reg.TIME_PPS.pps_width * msU ≤ σ.clk + nsU → Ends (exec (.ppsOutEdge t) s) (fun u =>
        u.out = .ball .ppsOut false :: s.out ∧ u.tu = { s.tu with ppsHigh := false } ∧ u.regs = s.regs))) ∧
    (s.tu.ppsHigh = false →
      (s.on Reg.TIME_PPS.pps_out_en = false ∨ 2 * nsU < (σ.devTime + nsU) % secU → exec (.ppsOutEdge t) s = .next σ) ∧
      (s.on Reg.TIME_PPS.pps_out_en = true → (σ.devTime + nsU) % secU ≤ 2 * nsU → Ends (exec (.ppsOutEdge t) s) (fun u =>
        u.out = .ball .ppsOut true :: s.out ∧ u.tu = { s.tu with ppsHigh := true, ppsAt := σ.clk } ∧ u.regs = s.regs))) ∧
    (∀ y, y = σ.capture 0x54 σ.devTime →
      (∀ v, s.tu.setAtPps = some v → (epochOutstanding s = true → exec (.ppsInEdge t) s = .next y) ∧
        (epochOutstanding s = false → exec (.ppsInEdge t) s = .next (stepTo { y with tu := { y.tu with setAtPps := none } } v))) ∧
      (s.tu.setAtPps = none → s.on Reg.TIME_PPS.pps_in_en = false ∨ (s.on Reg.TIME_STATE.gm_self = false ∧ ptpRole s ≠ 0) → exec (.ppsInEdge t) s = .next y) ∧
      (s.tu.setAtPps = none → s.on Reg.TIME_PPS.pps_in_en = true → s.on Reg.TIME_STATE.gm_self = true ∨ ptpRole s = 0 →
        EndsIn (exec (.ppsInEdge t) s) (fun x =>
            let z := if x.on Reg.TIME_PPS.pps_lock then setLock x lockOn else if s.on Reg.TIME_STATE.gm_self then x else setLock x lockFree
            if s.tu.everLocked = false ∧ ppsOffset σ ≠ 0 ∧ epochOutstanding s = false then stepTo z ((z.devTime : Int) - ppsOffset σ).toNat
            else steer z (ppsOffset σ))
          (fun u => u.on Reg.TIME_PPS.pps_lock = decide ((ppsOffset σ).natAbs < lockThr s) ∧ OnlyRegs y u [Reg.TIME_PPS.pps_lock.key 0]))) ∧
    (∀ src v, reaches σ src Reg.TIME_PPS.pps_in_en.addr = true → 1 ≤ v % 1024 → v % 1024 ≤ 500 → v < 2 ^ 32 →
      EndsIn (exec (.registerWrite t src Reg.TIME_PPS.pps_in_en.addr 4 v) s)
        (fun x => (if x.on Reg.TIME_PPS.pps_in_en then x
          else
            let z := x.wr Reg.TIME_PPS.pps_lock 0 0
            if ptpRole s = 0 then setLock z lockFree else z).settle)
        (fun u => u.on Reg.TIME_PPS.pps_in_en = bit v 31 ∧ u.on Reg.TIME_PPS.pps_out_en = bit v 30 ∧ u.rd Reg.TIME_PPS.pps_width = v % 1024 ∧
          OnlyRegs σ u [Reg.TIME_PPS.pps_in_en.key 0, Reg.TIME_PPS.pps_out_en.key 0, Reg.TIME_PPS.pps_width.key 0])) ∧
    (∀ v, v = devOf (s.rd2 Reg.TIME_SET_SEC_LO.set_sec_lo Reg.TIME_SET_SEC_HI.set_sec_hi) (s.rd Reg.TIME_SET_NS.set_ns) →
      (hostOpen s = false ∨ s.on Reg.LA_STATUS.job_open = true ∨ epochOutstanding s = true ∨ lockState s = lockAcq ∨
        (lockState s = lockOn ∧ s.tu.parent ≠ none) ∨ 999999999 < s.rd Reg.TIME_SET_NS.set_ns →
        exec (.timeSet t) s = .next σ ∧ exec (.timeSetAtPps t) s = .next σ) ∧
      (hostOpen s = true → s.on Reg.LA_STATUS.job_open = false → epochOutstanding s = false → lockState s ≠ lockAcq →
        ¬(lockState s = lockOn ∧ s.tu.parent ≠ none) → s.rd Reg.TIME_SET_NS.set_ns ≤ 999999999 →
        exec (.timeSet t) s = .next (stepTo σ v) ∧
        Ends (exec (.timeSetAtPps t) s) (fun u => u.tu.setAtPps = some v ∧ u = { σ with tu := { s.tu with setAtPps := u.tu.setAtPps } }))) ∧
    ((s.trig i).next = none ∨ 62 ≤ i ∨ (∃ x, (s.trig i).next = some x ∧ σ.devTime < x) → exec (.timeTriggerFire t i) s = .next σ) ∧
    (∀ x tg, (s.trig i).next = some x → x ≤ σ.devTime → i < 62 → tg = s.ent (chTrig i) TrigE.target →
      EndsIn (exec (.timeTriggerFire t i) s) (fun y =>
          let y := triggerSlices y 2 (fun a => a == i)
          if s.ent (chTrig i) TrigE.action = 1 ∧ (y.mode = modeCold ∨ y.mode = modeReload ∨ y.mode = modeFreeze) then y
          else if s.ent (chTrig i) TrigE.action = 1 then { y with tu := { y.tu with burstDue := y.tu.burstDue.put tg 1 } }
          else if s.ent (chTrig i) TrigE.action = 2 then { y with tu := { y.tu with sweepDue := true } }
          else if s.ent (chTrig i) TrigE.action = 3 ∧ inspRuns y = true then
            groupWrite y tg (2 ^ 31 + y.rd Reg.GRP_CFG.trig_out tg * 65536 + y.rd Reg.GRP_CFG.frame_lines tg)
          else y)
        (fun u => u.trig i = (s.trig i).fired (trigPeriod s i) x ∧ Tbl.get 0 u.tu.capAt (0x80 + i) = x ∧
          u.rd Reg.TRIG_FIRINGS.firings i = low 32 (s.rd Reg.TRIG_FIRINGS.firings i + 1) ∧
          (∀ p, p < 4 → s.entOn (chDl p) DlE.portEn = true → s.ent (chDl p) DlE.trig = i → (u.drivePort p).due = true) ∧
          OnlyRegs { σ with mot := u.mot, tu := u.tu } u [Reg.TRIG_FIRINGS.firings.key i, Reg.TRIG_STATE.armed.key i]))

/-- The clock of the ring: PTP messages. An Announce from another clock of the domain is remembered, by port and clock, and the algorithm runs on the clocks that qualify (log 127): the better dataset in lexicographic order, then fewer steps, then the smaller path delay; the parent, while it is heard, yields only to a better one; a change from a clock that had a master gives HOLDOVER, and a device that wins is master on both ports and LOCKED. A Sync from the parent writes TIME_OFFSET and reaches the servo, which in ACQUIRING steps or slews, in LOCKED slews, and otherwise only counts; the sixteenth good one in a row gives LOCKED. A Delay_Resp to the last Delay_Req writes TIME_MPD, and the fourth exchange gives ACQUIRING. The master sends Sync and Announce and answers Delay_Req; a message in transit leaves by the other port, its correction grown by its stay. Nobody heard for the Announce timeout runs the algorithm. The rate within `slew_max` is free (log 85). -/
def Obligations.RingClock : Prop :=
  (∀ (z : State) (x y : Nat × Announce),
    (parentHeard z = none → bestPort z = bestHeard z) ∧ (parentHeard z = some x → bestHeard z = none → bestPort z = some x) ∧
    (parentHeard z = some x → bestHeard z = some y → (y.2.better x.2 = true → bestPort z = some y) ∧ (y.2.better x.2 = false → bestPort z = some x))) ∧
  (∀ (z : State) (e w : Announce),
    (bestOn z 0 = none → bestHeard z = (bestOn z 1).map (fun a => (1, a))) ∧ (bestOn z 1 = none → bestHeard z = (bestOn z 0).map (fun a => (0, a))) ∧
    (bestOn z 0 = some e → bestOn z 1 = some w →
      (e.better w = true → bestHeard z = some (0, e)) ∧ (e.better w = false → w.better e = true → bestHeard z = some (1, w)) ∧
      (e.better w = false → w.better e = false →
        bestHeard z = some (if Tbl.get 0 z.tu.mpd 1 < Tbl.get 0 z.tu.mpd 0 then (1, w) else (0, e))))) ∧
  (∀ (z : State) (k : Nat) (a : Announce), bestOn z k = some a →
    (∃ h ∈ z.tu.heard, h.1 % 2 = k ∧ h.2 = a ∧ a.qualifies z = true) ∧
    ∀ h ∈ z.tu.heard, h.1 % 2 = k → h.2.qualifies z = true → h.2.better a = false) ∧
  (∀ (e w : Announce) (n : Nat), n < 6 → (∀ j, j < n → e.dataset[j]? = w.dataset[j]?) →
    (∀ x y, e.dataset[n]? = some x → w.dataset[n]? = some y → x < y → e.better w = true ∧ w.better e = false)) ∧
  (∀ (z : State) (alone : Bool) (p : Nat) (a : Announce), bestPort z = some (p, a) →
    (ptpRole z = 2 ∧ lexLt (ownDataset z) a.dataset = true → chooseParent z alone = (if z.on Reg.TIME_STATE.gm_self then z else winMaster z)) ∧
    (¬(ptpRole z = 2 ∧ lexLt (ownDataset z) a.dataset = true) →
      (z.tu.parent = some p → z.rd2 Reg.TIME_GM_ID_LO.gm_id_lo Reg.TIME_GM_ID_HI.gm_id_hi = a.gm → chooseParent z alone = z) ∧
      (z.tu.parent ≠ some p ∨ z.rd2 Reg.TIME_GM_ID_LO.gm_id_lo Reg.TIME_GM_ID_HI.gm_id_hi ≠ a.gm → chooseParent z alone = setParent z (some p) a.gm))) ∧
  (∀ (z : State) (alone : Bool), bestPort z = none →
    (ptpRole z = 2 → alone = true → chooseParent z alone = winMaster z) ∧
    (¬(ptpRole z = 2 ∧ alone = true) → chooseParent z alone = (if z.tu.parent.isSome then setParent z none 0 else z))) ∧
  (∀ (z u : State) (p : Option Nat) (gm : Nat), u = setParent z p gm →
    u.tu.parent = p ∧ u.tu.exchanges = 0 ∧ u.tu.goodSyncs = 0 ∧ u.tu.reqOut = none ∧ u.on Reg.TIME_STATE.gm_self = false ∧
    u.rd2 Reg.TIME_GM_ID_LO.gm_id_lo Reg.TIME_GM_ID_HI.gm_id_hi = gm % 2 ^ 64 ∧
    lockState u = (if z.tu.parent.isSome = true ∨ z.on Reg.TIME_STATE.gm_self = true then lockHold else lockState z) ∧
    u = { z with regs := u.regs, tu := u.tu }) ∧
  (∀ (z u : State), u = winMaster z → u.tu.parent = none ∧ u.tu.exchanges = 0 ∧ u.on Reg.TIME_STATE.gm_self = true ∧ lockState u = lockOn ∧
    u.rd2 Reg.TIME_GM_ID_LO.gm_id_lo Reg.TIME_GM_ID_HI.gm_id_hi = ownIdentity z % 2 ^ 64 ∧ u = { z with regs := u.regs, tu := u.tu }) ∧
  (∀ (z y : State) (o : Int) (g : Nat), g = (if o.natAbs < lockThr z then z.tu.goodSyncs + 1 else 0) →
    y = { z with tu := { z.tu with goodSyncs := g, lastSync := some z.clk } } →
    (lockState z ≠ lockAcq → lockState z ≠ lockOn → servo z o = y) ∧
    (lockState z = lockOn → servo z o = (let x := steer y o
      { x with tu := { x.tu with rates := (x.rdi Reg.TIME_RATE.rate :: x.tu.rates).take 16 } })) ∧
    (lockState z = lockAcq → 16 ≤ g → lockState (servo z o) = lockOn) ∧
    (lockState z = lockAcq → g < 16 → mayStep z o = false → servo z o = steer y o) ∧
    (lockState z = lockAcq → g < 16 → mayStep z o = true → o ≠ 0 → epochOutstanding z = false → servo z o = stepTo y ((z.devTime : Int) - o).toNat)) ∧
  ∀ (s σ : State) (t k : Nat), σ = s.at t →
    (∀ dom p1 cls acc var p2 gm st,
      (ptpRole s = 0 ∨ 2 ≤ k ∨ rportOpen s k = false ∨ dom ≠ s.rd Reg.TIME_PTP_CFG.domain ∨ gm = ownIdentity s ∨ 255 ≤ st →
        exec (.ptpAnnounceReceive t k dom p1 cls acc var p2 gm st) s = .next σ) ∧
      (ptpRole s ≠ 0 → k < 2 → rportOpen s k = true → dom = s.rd Reg.TIME_PTP_CFG.domain → gm ≠ ownIdentity s → st < 255 →
        EndsIn (exec (.ptpAnnounceReceive t k dom p1 cls acc var p2 gm st) s) (fun x => chooseParent x false) (fun u =>
          Tbl.find u.tu.heard (k + 2 * gm) = some { prio1 := p1, cls := cls, acc := acc, variance := var, prio2 := p2, gm := gm, steps := st, at_ := σ.clk, prev := (Tbl.find s.tu.heard (k + 2 * gm)).map (·.at_) } ∧
          (∀ j, j ≠ k + 2 * gm → Tbl.find u.tu.heard j = Tbl.find s.tu.heard j) ∧ u = { σ with tu := { s.tu with heard := u.tu.heard } }))) ∧
    (∀ dom org corr d,
      (ptpRole s = 0 ∨ s.tu.parent ≠ some k ∨ dom ≠ s.rd Reg.TIME_PTP_CFG.domain ∨ ptpOn s k = false ∨ rportOpen s k = false →
        exec (.ptpSyncReceive t k dom org corr) s = .next σ) ∧
      (ptpRole s ≠ 0 → s.tu.parent = some k → dom = s.rd Reg.TIME_PTP_CFG.domain → ptpOn s k = true → rportOpen s k = true →
        d = (σ.devTime : Int) - fromWire org - corr - s.enti (chRPort k) RPortE.delayAsym →
        EndsIn (exec (.ptpSyncReceive t k dom org corr) s) (fun x => servo x (d - Tbl.get 0 s.tu.mpd k)) (fun u =>
          u.rdi Reg.TIME_OFFSET.offset = satInt 32 ((d - Tbl.get 0 s.tu.mpd k) / 4096) ∧ u.tu = { s.tu with syncDelta := d } ∧
          OnlyRegs { σ with tu := u.tu } u [Reg.TIME_OFFSET.offset.key 0]))) ∧
    (∀ q rx corr,
      ((∀ t3, s.tu.reqOut ≠ some (k, q, t3)) ∨ s.tu.parent ≠ some k → exec (.ptpDelayRespReceive t k q rx corr) s = .next σ) ∧
      (∀ t3 m, s.tu.reqOut = some (k, q, t3) → s.tu.parent = some k → m = ((s.tu.syncDelta + ((fromWire rx : Int) - t3 - corr)) / 2).toNat →
        EndsIn (exec (.ptpDelayRespReceive t k q rx corr) s) (fun x =>
          if 3 ≤ s.tu.exchanges ∧ (lockState s = lockFree ∨ lockState s = lockHold) then setLock x lockAcq else x) (fun u =>
          u.rd Reg.TIME_MPD.mean_path = sat 32 (m / 4096) ∧ Tbl.get 0 u.tu.mpd k = m ∧ u.tu.exchanges = s.tu.exchanges + 1 ∧ u.tu.reqOut = none ∧
          OnlyRegs { σ with tu := { s.tu with reqOut := none, mpd := u.tu.mpd, exchanges := u.tu.exchanges } } u [Reg.TIME_MPD.mean_path.key 0]))) ∧
    (s.tu.parent = none → exec (.ptpDelayReqSend t) s = .next σ) ∧
    (s.tu.parent = some k → ptpRole s = 0 ∨ ptpOn s k = false ∨ rportOpen s k = false → exec (.ptpDelayReqSend t) s = .next σ) ∧
    (∀ q, s.tu.parent = some k → ptpRole s ≠ 0 → ptpOn s k = true → rportOpen s k = true → q = (s.tu.reqSeq + 1) % 65536 →
      Ends (exec (.ptpDelayReqSend t) s) (fun u => u.tu = { s.tu with reqSeq := q, reqOut := some (k, q, σ.devTime) } ∧
        u.out = .ptp k ptpDelayReq q (wireTime σ.devTime) (-s.enti (chRPort k) RPortE.delayAsym) :: s.out ∧ u = { σ with tu := u.tu, out := u.out })) ∧
    (∀ kind, s.on Reg.TIME_STATE.gm_self = false → exec (.ptpMasterSend t kind) s = .next σ) ∧
    (∀ kind q, s.on Reg.TIME_STATE.gm_self = true → q = (s.tu.masterSeq + 1) % 65536 → Ends (exec (.ptpMasterSend t kind) s) (fun u =>
      u.tu = { s.tu with masterSeq := q } ∧ u = { σ with tu := u.tu, out := u.out } ∧
      ∃ es, u.out = es ++ s.out ∧ ∀ e, e ∈ es ↔ ∃ j, j < 2 ∧ rportOpen s j = true ∧
        ((kind ≠ 0 ∧ e = .announce j q (ownDataset s)) ∨ (kind = 0 ∧ ptpOn s j = true ∧ e = .ptp j ptpSync q (wireTime σ.devTime) (subOf σ.devTime : Nat))))) ∧
    (∀ q corr, ¬(s.on Reg.TIME_STATE.gm_self = true ∧ k < 2 ∧ rportOpen s k = true ∧ ptpOn s k = true) → exec (.ptpDelayReqReceive t k q corr) s = .next σ) ∧
    (∀ q corr, s.on Reg.TIME_STATE.gm_self = true → k < 2 → rportOpen s k = true → ptpOn s k = true → Ends (exec (.ptpDelayReqReceive t k q corr) s) (fun u =>
      u.out = .ptp k ptpDelayResp q (wireTime σ.devTime) (corr - (subOf σ.devTime : Nat)) :: s.out ∧ u = { σ with out := u.out })) ∧
    (∀ te kind q org corr w, w = σ.at te →
      (¬(k < 2 ∧ rportOpen s k = true ∧ rportOpen s (1 - k) = true) → exec (.ptpTransparentForward t te k kind q org corr) s = .next w) ∧
      (k < 2 → rportOpen s k = true → rportOpen s (1 - k) = true → Ends (exec (.ptpTransparentForward t te k kind q org corr) s) (fun u =>
        u.out = .ptp (1 - k) kind q org (corr + (if kind ≤ 3 ∧ ptpOn s 0 = true ∧ ptpOn s 1 = true then (w.devTime : Int) - σ.devTime else 0)) :: s.out ∧
        u = { w with out := u.out }))) ∧
    (∀ fresh, fresh = s.tu.heard.filter (fun h => decide (σ.clk < h.2.at_ + announceLife s)) →
      (ptpRole s = 0 ∨ s.on Reg.TIME_STATE.gm_self = true ∨ (parentHeard { σ with tu := { s.tu with heard := fresh } }).isSome = true → exec (.announceTimeout t) s = .next σ) ∧
      (ptpRole s ≠ 0 → s.on Reg.TIME_STATE.gm_self = false → parentHeard { σ with tu := { s.tu with heard := fresh } } = none →
        exec (.announceTimeout t) s = .next (chooseParent { σ with tu := { s.tu with heard := fresh } } true)))

/-- The device ring. NEIGHBOR leaves an open port every 10 ms, 1 ms early at most; one received sets the partner's number, and from the West a learned position gives this device's. Three in a row that did not come are posted as event 0x0703; nobody on the West port within 100 ms of link-up means position 0. A frame received at an open port is foreign unless its EtherType is the ring's and it is long enough, or its EtherType is PTP's with at most one 802.1Q tag; a PTP message leaves by the other port, an event message with its correction field grown by its stay, which is free here (log 127); a bad check sequence is counted, and such a frame that is no link frame goes on with its sequence inverted. A good ring frame of this device is a loop, one under its number a duplicate node, and one seen within 1 s is discarded; else it goes on with one hop fewer, or is discarded with none left, and its body takes effect if its version is known. Link loss closes the port with event 0x0704, and link-up opens it. -/
def Obligations.DeviceRing : Prop :=
  (∀ (z : State) (k : Nat) (f : List Byte),
    (frameNat f 20 1 = 0 → ∃ u, forwardGood z k f = u ∧ u.rd Reg.RING_DISC.hop_disc = sat 16 (z.rd Reg.RING_DISC.hop_disc + 1) ∧
      OnlyRegs z u [Reg.RING_DISC.hop_disc.key 0]) ∧
    (frameNat f 20 1 ≠ 0 → rportOpen z (1 - k) = true → ∃ g, g = f.set 20 (BitVec.ofNat 8 (frameNat f 20 1 - 1)) ∧
      forwardGood z k f = { z with out := .ringFrame (1 - k) (g ++ leBytes 4 (crc32 g)) :: z.out }) ∧
    (frameNat f 20 1 ≠ 0 → rportOpen z (1 - k) = false → forwardGood z k f = z)) ∧
  ∀ (s σ : State) (t k : Nat), σ = s.at t →
    (2 ≤ k ∨ rportOpen s k = false ∨ (∃ a, Tbl.find s.net.sentAt k = some a ∧ σ.clk < a + 9 * msU) → exec (.neighborSend t k) s = .next σ) ∧
    (∀ w f, k < 2 → rportOpen s k = true → (∀ a, Tbl.find s.net.sentAt k = some a → a + 9 * msU ≤ σ.clk) →
      w = { s.net with sentAt := s.net.sentAt.put k σ.clk, rseq := (s.net.rseq + 1) % 65536 } →
      f = ringFrame s rtNeighbor (leBytes 2 (nodeNow s) ++ leBytes 1 (s.rd Reg.RING_NODE.learned) ++ leBytes 1 s.mode) →
      exec (.neighborSend t k) s = .next { σ with net := w, out := .ringFrame k (f ++ leBytes 4 (crc32 f)) :: s.out }) ∧
    (∀ n l, 2 ≤ k ∨ rportOpen s k = false → exec (.neighborReceive t k n l) s = .next σ) ∧
    (∀ n l, k < 2 → rportOpen s k = true → Ends (exec (.neighborReceive t k n l) s) (fun u =>
      u.on Reg.RING_PORT_STATE.partner_lx k = true ∧ u.rd Reg.RING_PORT_STATE.partner_node k = low 14 n ∧
      u.net = { s.net with lastNeighbor := s.net.lastNeighbor.put k σ.clk, missed := s.net.missed.put k 0, found := u.net.found } ∧
      u.net.found = (if k = 1 ∧ l = true ∧ learning s = true ∧ n % 128 < 127 then some (s.rd Reg.RING_CFG.ring_no * 128 + (n % 128 + 1)) else s.net.found) ∧
      (k = 1 ∧ l = true ∧ learning s = true ∧ n % 128 < 127 → u.on Reg.RING_NODE.learned = true ∧
        u.rd Reg.RING_NODE.node = low 14 (s.rd Reg.RING_CFG.ring_no * 128 + (n % 128 + 1))) ∧
      (¬(k = 1 ∧ l = true ∧ learning s = true ∧ n % 128 < 127) →
        OnlyRegs { σ with net := u.net } u [Reg.RING_PORT_STATE.partner_lx.key k, Reg.RING_PORT_STATE.partner_node.key k]) ∧
      OnlyRegs { σ with net := u.net } u [Reg.RING_PORT_STATE.partner_lx.key k, Reg.RING_PORT_STATE.partner_node.key k,
        Reg.RING_NODE.node.key 0, Reg.RING_NODE.learned.key 0])) ∧
    (∀ n, n = Tbl.get 0 s.net.missed k →
      (2 ≤ k ∨ s.on Reg.RING_PORT_STATE.partner_lx k = false ∨ σ.clk < Tbl.get 0 s.net.lastNeighbor k + (n + 1) * (11 * msU) →
        exec (.neighborMiss t k) s = .next σ) ∧
      (k < 2 → s.on Reg.RING_PORT_STATE.partner_lx k = true → Tbl.get 0 s.net.lastNeighbor k + (n + 1) * (11 * msU) ≤ σ.clk →
        EndsIn (exec (.neighborMiss t k) s) (fun x => if n = 2 then x.event 0x0703 (chRPort k) 0 0 0 else x)
          (fun u => u.net = { s.net with missed := s.net.missed.put k (n + 1) } ∧ u = { σ with net := u.net }))) ∧
    (∀ up, up = s.net.upAt.foldl (fun m u => max m u.2) 0 →
      (learning s = false ∨ s.on Reg.RING_PORT_STATE.partner_lx 1 = true ∨ s.net.upAt = [] ∨ σ.clk < up + 100 * msU → exec (.nodeLearnTimeout t) s = .next σ) ∧
      (learning s = true → s.on Reg.RING_PORT_STATE.partner_lx 1 = false → s.net.upAt ≠ [] → up + 100 * msU ≤ σ.clk →
        Ends (exec (.nodeLearnTimeout t) s) (fun u => u.on Reg.RING_NODE.learned = true ∧
          u.rd Reg.RING_NODE.node = low 14 (s.rd Reg.RING_CFG.ring_no * 128) ∧ u.net.found = some (s.rd Reg.RING_CFG.ring_no * 128) ∧
          OnlyRegs { σ with net := { s.net with found := u.net.found } } u [Reg.RING_NODE.node.key 0, Reg.RING_NODE.learned.key 0]))) ∧
    (∀ bs f fcs rt origin rseq body (ptp : Prop), (ptp ↔ frameType f = 0x88F7 ∨ (frameType f = 0x8100 ∧ 256 * frameNat f 16 1 + frameNat f 17 1 = 0x88F7)) → f = bs.take (bs.length - 4) → fcs = bs.drop (bs.length - 4) → rt = frameNat f 15 1 →
      origin = frameNat f 16 2 % 16384 → rseq = frameNat f 18 2 → body = (f.drop 24).take (frameNat f 22 2) →
      (2 ≤ k ∨ rportOpen s k = false → exec (.ringFrameReceive t k bs) s = .next σ) ∧
      (k < 2 → rportOpen s k = true →
        (frameType f ≠ s.rd Reg.RING_CFG.ethertype → ptp → leNat fcs = crc32 f →
          (rportOpen s (1 - k) = false → exec (.ringFrameReceive t k bs) s = .next σ) ∧
          (rportOpen s (1 - k) = true → EndsIn (exec (.ringFrameReceive t k bs) s) State.spend (fun u => u = { σ with out := u.out } ∧
            ∃ o g, o = (if frameType f = 0x88F7 then 14 else 18) ∧ u.out = .ringFrame (1 - k) (g ++ leBytes 4 (crc32 g)) :: s.out ∧
              (3 < frameNat f o 1 % 16 ∨ ptpOn s 0 = false ∨ ptpOn s 1 = false ∨ f.length < o + 16 → g = f) ∧
              g.take (o + 8) = f.take (o + 8) ∧ g.drop (o + 16) = f.drop (o + 16) ∧ g.length = f.length))) ∧
        (frameType f ≠ s.rd Reg.RING_CFG.ethertype → ptp → leNat fcs ≠ crc32 f → Ends (exec (.ringFrameReceive t k bs) s) (fun u =>
          u.rd Reg.RING_PORT_ERR.fcs_err k = sat 16 (s.rd Reg.RING_PORT_ERR.fcs_err k + 1) ∧
          u.out = (if rportOpen s (1 - k) = true then .ringFrame (1 - k) (f ++ fcs.map (fun b => ~~~b)) :: s.out else s.out) ∧
          OnlyRegs { σ with out := u.out } u [Reg.RING_PORT_ERR.fcs_err.key k])) ∧
        (frameType f ≠ s.rd Reg.RING_CFG.ethertype → ¬ptp → Ends (exec (.ringFrameReceive t k bs) s) (fun u =>
          u.rd Reg.RING_PORT_ERR.foreign k = sat 16 (s.rd Reg.RING_PORT_ERR.foreign k + 1) ∧ OnlyRegs σ u [Reg.RING_PORT_ERR.foreign.key k])) ∧
        (frameType f = s.rd Reg.RING_CFG.ethertype → bs.length < 28 → leNat fcs = crc32 f → Ends (exec (.ringFrameReceive t k bs) s) (fun u =>
          u.rd Reg.RING_PORT_ERR.foreign k = sat 16 (s.rd Reg.RING_PORT_ERR.foreign k + 1) ∧ OnlyRegs σ u [Reg.RING_PORT_ERR.foreign.key k])) ∧
        (frameType f = s.rd Reg.RING_CFG.ethertype →
          (leNat fcs ≠ crc32 f → Ends (exec (.ringFrameReceive t k bs) s) (fun u =>
            u.rd Reg.RING_PORT_ERR.fcs_err k = sat 16 (s.rd Reg.RING_PORT_ERR.fcs_err k + 1) ∧
            u.rd Reg.RING_DISC.hop_disc = (if isLinkFrame rt = false ∧ frameNat f 20 1 = 0 then sat 16 (s.rd Reg.RING_DISC.hop_disc + 1)
              else s.rd Reg.RING_DISC.hop_disc) ∧
            u.out = (if isLinkFrame rt = false ∧ frameNat f 20 1 ≠ 0 ∧ rportOpen s (1 - k) = true then
                .ringFrame (1 - k) (f.set 20 (BitVec.ofNat 8 (frameNat f 20 1 - 1)) ++ fcs.map (fun b => ~~~b)) :: s.out else s.out) ∧
            OnlyRegs { σ with out := u.out } u [Reg.RING_PORT_ERR.fcs_err.key k, Reg.RING_DISC.hop_disc.key 0])) ∧
          (28 ≤ bs.length → leNat fcs = crc32 f →
            (isLinkFrame rt = true → exec (.ringFrameReceive t k bs) s = .next (if frameNat f 14 1 = 1 then deliver σ k rt body else σ)) ∧
            (isLinkFrame rt = false → s.on Reg.RING_NODE.learned = true → origin = s.rd Reg.RING_NODE.node → (f.drop 6).take 6 = macBytes s →
              EndsIn (exec (.ringFrameReceive t k bs) s) (fun x => x.event 0x0702 (chRPort k) 0 origin 2)
                (fun u => u.on Reg.RING_NODE.ring_loop = true ∧ OnlyRegs σ u [Reg.RING_NODE.ring_loop.key 0])) ∧
            (isLinkFrame rt = false → s.on Reg.RING_NODE.learned = true → origin = s.rd Reg.RING_NODE.node → (f.drop 6).take 6 ≠ macBytes s →
              EndsIn (exec (.ringFrameReceive t k bs) s) (fun x =>
                let x := x.event 0x0702 (chRPort k) 0 origin 1
                if seenBefore x origin rseq then x.count Reg.RING_DISC.dup_disc
                else
                  let x := forwardGood (recordSeen x origin rseq) k f
                  if frameNat f 14 1 = 1 then deliver x k rt body else x)
                (fun u => u.on Reg.RING_NODE.node_dup = true ∧ OnlyRegs σ u [Reg.RING_NODE.node_dup.key 0])) ∧
            (isLinkFrame rt = false → s.on Reg.RING_NODE.learned = false ∨ origin ≠ s.rd Reg.RING_NODE.node →
              (seenBefore σ origin rseq = true → Ends (exec (.ringFrameReceive t k bs) s) (fun u =>
                u.rd Reg.RING_DISC.dup_disc = sat 16 (s.rd Reg.RING_DISC.dup_disc + 1) ∧ OnlyRegs σ u [Reg.RING_DISC.dup_disc.key 0])) ∧
              (seenBefore σ origin rseq = false → EndsIn (exec (.ringFrameReceive t k bs) s)
                (fun x => let x := forwardGood x k f; if frameNat f 14 1 = 1 then deliver x k rt body else x)
                (fun u => (origin, rseq, σ.clk) ∈ u.net.seen ∧ (∀ x, x ∈ u.net.seen → x = (origin, rseq, σ.clk) ∨ (x ∈ s.net.seen ∧ σ.clk ≤ x.2.2 + secU)) ∧
                  u = { σ with net := { s.net with seen := u.net.seen } }))))))) ∧
    (2 ≤ k ∨ s.rd Reg.RING_PORT_STATE.rlink k = 2 → exec (.ringLinkUp t k) s = .next σ) ∧
    (k < 2 → s.rd Reg.RING_PORT_STATE.rlink k ≠ 2 → Ends (exec (.ringLinkUp t k) s) (fun u =>
      u.rd Reg.RING_PORT_STATE.rlink k = 2 ∧ u.on Reg.RING_PORT_STATE.fec_on k = s.entOn (chRPort k) RPortE.fecEn ∧
      u.net = { s.net with upAt := s.net.upAt.put k σ.clk } ∧
      OnlyRegs { σ with net := u.net } u [Reg.RING_PORT_STATE.rlink.key k, Reg.RING_PORT_STATE.fec_on.key k])) ∧
    (2 ≤ k ∨ s.rd Reg.RING_PORT_STATE.rlink k ≠ 2 → exec (.ringLinkLoss t k) s = .next σ) ∧
    (k < 2 → s.rd Reg.RING_PORT_STATE.rlink k = 2 → EndsIn (exec (.ringLinkLoss t k) s) (fun x => x.event 0x0704 (chRPort k) 0 0 0) (fun u =>
      u.rd Reg.RING_PORT_STATE.rlink k = 0 ∧ u.on Reg.RING_PORT_STATE.partner_lx k = false ∧ u.on Reg.RING_PORT_STATE.fec_on k = false ∧
      u.net = { s.net with upAt := Tbl.del s.net.upAt k, missed := Tbl.del s.net.missed k } ∧
      OnlyRegs { σ with net := u.net } u [Reg.RING_PORT_STATE.rlink.key k, Reg.RING_PORT_STATE.partner_lx.key k, Reg.RING_PORT_STATE.fec_on.key k]))

/-- The Stacks. Requests queue with their port's credit, reserved where it suffices; the most urgent, then that of the port of higher priority, then the oldest is served, and a late reserved one counted; a write of MEM_PORT_CFG leaves the credit gained. Each burst of a request is an access, one written in part is read first, and what a read finds is acted on by burst. A corrected error is counted and its row, at `rep_thr` errors, is due for repair; the oldest row due is copied to a spare row of its bank, while there is one, and accesses go there from then on (shown as a row past the map's, log 137); the repair is recorded unless flash writes are refused, which is counted. An access activates its row where not open, the bank's open row precharged first, and leaves it open while another access to it is queued; one activation in 2^(8 + `nrr_log2`), at random, has the rows beside it refreshed, when no request at urgency 3 would wait (the draw and a row's neighbours are free, log 129). A lane corrected in two bursts fails; in IDLE with no job open a redundant lane, while there is one, takes its place and the repair is recorded. A refresh is postponed while its bank has requests, 8 at most, and those follow; in P2 the HBM3 refreshes itself and nothing is served. The hotter stack sets `hot`. The scrub goes on by a burst, unless a request at urgency 3 waits for its bank, and counts passes; in RELOAD it finds the lanes that fail training. The 128th retraining window moves delays by 2/64 UI at most (free within it, log 137) and shows the margins. An uncorrectable read, a parity error or a read timeout enters FREEZE once, not from COLD_START: commands stop, waiting reads complete with zeros, the snapshot and final Ledger, checked, stand, the epoch is abandoned, moves and Bindery jobs end, axes stop. 50 ms later unreleased lines are withheld. A Reading Room bank gives way to a spare in turn, is tested, and is a spare or retired; one with 16 corrected errors between rotations is to be retired. -/
def Obligations.StacksAndFreeze : Prop :=
  (∀ (z : State) (pc : Nat) (r : MemReq),
    (memNext z pc = some r → r ∈ z.st.queue ∧ pcOf r.addr = pc ∧ ∀ q, q ∈ z.st.queue → pcOf q.addr = pc → memAhead z q r = false) ∧
    (memNext z pc = none → ∀ q, q ∈ z.st.queue → pcOf q.addr ≠ pc)) ∧
  (∀ (z u : State), u = showUrgency z → OnlyRegs z u ((List.range 9).map Reg.MEM_PORT_STAT.urgency.key) ∧
    ∀ p, p < 9 → u.rd Reg.MEM_PORT_STAT.urgency p =
      (match z.st.queue.find? (fun r => r.port == p) with | some r => memUrgency z r | none => 0)) ∧
  (∀ (z : State) (e port src a n : Nat), n = Tbl.get 0 z.st.rowErrs (rowKey a) + 1 → ∃ y : State,
    eccFound z e port src a = (if y.mode = modeIdle ∧ y.on Reg.LA_STATUS.job_open = false then lanesFix y else y) ∧
    (e % 4 = 0 → y = z) ∧
    (e % 4 = 1 → y.rd Reg.MEM_ECC.ecc_die = sat 16 (z.rd Reg.MEM_ECC.ecc_die + 1) ∧ OnlyRegs z y [Reg.MEM_ECC.ecc_die.key 0]) ∧
    (e % 4 = 2 → ∃ u : State, y = laneSeen u a (e / 4) ∧ u.rd Reg.MEM_ECC.ecc_corr = sat 16 (z.rd Reg.MEM_ECC.ecc_corr + 1) ∧
      Tbl.get 0 u.st.rowErrs (rowKey a) = n ∧
      u.st.repairDue = (if z.rd Reg.MEM_REPAIR.rep_thr ≤ n ∧ rowKey a ∉ z.st.repaired ∧ rowKey a ∉ z.st.repairDue then z.st.repairDue ++ [rowKey a] else z.st.repairDue) ∧
      OnlyRegs { z with st := { z.st with rowErrs := u.st.rowErrs, repairDue := u.st.repairDue } } u [Reg.MEM_ECC.ecc_corr.key 0]) ∧
    (e % 4 = 3 → y = freezeEnter z (if port = 8 then 2 else 1) port src a true)) ∧
  (∀ (z : State) (a sym k : Nat), k = pcOf a * 128 + sym % 36 →
    (k ∈ z.st.laneBad → laneSeen z a sym = z) ∧
    (k ∉ z.st.laneBad →
      (Tbl.find z.st.laneErrs k = none → laneSeen z a sym = { z with st := { z.st with laneErrs := z.st.laneErrs.put k (a / 32) } }) ∧
      (Tbl.find z.st.laneErrs k = some (a / 32) → laneSeen z a sym = z) ∧
      (∀ b, Tbl.find z.st.laneErrs k = some b → b ≠ a / 32 →
        laneSeen z a sym = { z with st := { z.st with laneErrs := Tbl.del z.st.laneErrs k, laneBad := z.st.laneBad ++ [k] } }))) ∧
  (∀ (z : State) (k : Nat),
    (k ∈ (lanesFix z).st.laneBad → k ∈ z.st.laneBad ∧ laneRoom (lanesFix z) k = false) ∧
    (k ∈ z.st.laneBad → k ∈ (lanesFix z).st.laneBad ∨ k ∈ (lanesFix z).st.laneMap) ∧
    z.st.laneMap <+: (lanesFix z).st.laneMap ∧
    (z.st.laneBad = [k] → laneRoom z k = true → EndsIn (.next (lanesFix z)) (fun x => repairAdd x repStackLane k) (fun u =>
      u.st = { z.st with laneMap := z.st.laneMap ++ [k], laneBad := [] } ∧
      u.rd Reg.MEM_REPAIR.lanes_remapped = sat 8 (z.st.laneMap.length + 1) ∧ OnlyRegs { z with st := u.st } u [Reg.MEM_REPAIR.lanes_remapped.key 0]))) ∧
  (∀ (z : State) (a : Nat), Ends (.next (rowActivate z a)) (fun u =>
    (∀ x, x ∈ u.st.nrrDue ↔ x ∈ z.st.nrrDue ∨ (z.freeVal 160 % 2 ^ (8 + z.rd Reg.MEM_NRR.nrr_log2) = 0 ∧ x.1 = pcOf a ∧ x.2.1 = sidOf a * 16 + bankOf a ∧
      ∃ d up, (d = 1 ∨ (d = 2 ∧ z.on Reg.MEM_NRR.nrr_dist = true)) ∧ Config.rowBeside (pcOf a / 32) (rowNow z a) up d = some x.2.2)) ∧
    u = { z with freeN := z.freeN + 1, st := { z.st with nrrDue := u.st.nrrDue }
                 out := .hbm (pcOf a) (.activate (sidOf a * 16 + bankOf a) (rowNow z a)) ::
                   ((if (Tbl.find z.st.openRow (bankAt a)).isSome = true then [Emit.hbm (pcOf a) (.precharge (sidOf a * 16 + bankOf a))] else []) ++ z.out) })) ∧
  (∀ (z : State) (a : Nat) (rs : List Nat), (rowKey a ∉ z.st.repaired → rowNow z a = rowOf a) ∧
    (z.st.repaired = rowKey a :: rs → rowNow z a = 2 ^ 14 + (rs.filter (fun q => q % 2 ^ 12 == rowKey a % 2 ^ 12)).length)) ∧
  (∀ (z : State) (pc : Nat),
    ((∃ r, r ∈ z.st.queue ∧ pcOf r.addr = pc ∧ memUrgency z r = 3) → nrrIssue z pc = z) ∧
    ((∀ r, r ∈ z.st.queue → pcOf r.addr = pc → memUrgency z r ≠ 3) → nrrIssue z pc =
      { z with st := { z.st with nrrDue := z.st.nrrDue.filter (fun x => x.1 != pc) }
               out := ((z.st.nrrDue.filter (fun x => x.1 == pc)).map (fun x => Emit.hbm pc (.neighbour x.2.1 x.2.2))).reverse ++ z.out })) ∧
  (∀ (z y : State) (a k : Nat) (w more stay : Bool), k = pcOf a * 64 + (sidOf a * 16 + bankOf a) →
    y = (if Tbl.find z.st.openRow k = some (rowNow z a) then z else rowActivate z a) →
    stay = (more || z.st.queue.any (fun r => pcOf r.addr * 64 + (sidOf r.addr * 16 + bankOf r.addr) == k && rowNow z r.addr == rowNow z a)) →
    EndsIn (.next (rowAccess z a w more)) (fun x => nrrIssue x (pcOf a)) (fun u =>
      Tbl.find u.st.openRow k = (if stay then some (rowNow z a) else none) ∧
      u.out = .hbm (pcOf a) (.access (sidOf a * 16 + bankOf a) (rowNow z a) (burstOf a) w (!stay)) :: y.out ∧
      u = { y with out := u.out, st := { y.st with openRow := u.st.openRow } })) ∧
  (∀ a n b, b ∈ burstsOf a n ↔ b % 32 = 0 ∧ a < b + 32 ∧ b < a + n) ∧
  (∀ (z y : State) (r : MemReq) (e a j n : Nat) (part last : Bool), n = (match r.data with | some d => d.length | none => r.len) →
    part = (decide (a < r.addr) || decide (r.addr + n < a + 32)) → last = decide (r.addr + n ≤ a + 32) →
    (z.frozen = true → memBurst r e z (a, j) = z) ∧
    (z.frozen = false →
      (r.data = none → memBurst r e z (a, j) = eccFound (rowAccess z a false (!last)) (e / 256 ^ j % 256) r.port r.source a) ∧
      (r.data ≠ none → part = false → memBurst r e z (a, j) = rowAccess z a true (!last)) ∧
      (r.data ≠ none → part = true → y = eccFound (rowAccess z a false true) (e / 256 ^ j % 256) r.port r.source a →
        memBurst r e z (a, j) = if y.frozen = true then y else rowAccess y a true (!last)))) ∧
  (∀ (z : State) (k n : Nat), (∀ a, a ∈ rowBursts k → Emit.hbm (pcOf a) (.access (sidOf a * 16 + bankOf a) (2 ^ 14 + n) (burstOf a) true true) ∈ (rowCopy z k n).out) ∧
    (k < 2 ^ 26 → (rowBursts k).length = 32 ∧ ∀ a, a ∈ rowBursts k → rowKey a = k) ∧
    Ends (.next (rowCopy z k n)) (fun u => u = { z with out := u.out, freeN := u.freeN, st := { z.st with openRow := u.st.openRow, nrrDue := u.st.nrrDue } })) ∧
  (∀ (z : State) (off b n : Nat), b = rrBank z off → n = Tbl.get 0 z.st.rrErrs b + 1 → Ends (.next (rrCorrected z off)) (fun u =>
    u.rd Reg.MEM_RR_STATUS.rr_corr = sat 16 (z.rd Reg.MEM_RR_STATUS.rr_corr + 1) ∧ Tbl.get 0 u.st.rrErrs b = n ∧
    (∀ x, x ∈ u.st.bankBad ↔ x ∈ z.st.bankBad ∨ (x = b ∧ 16 ≤ n)) ∧
    OnlyRegs { z with st := { z.st with rrErrs := u.st.rrErrs, bankBad := u.st.bankBad } } u [Reg.MEM_RR_STATUS.rr_corr.key 0])) ∧
  (∀ (z : State) (cause port src a : Nat) (named out : Bool),
    (z.frozen = true ∨ z.mode = modeCold → freezeEnter z cause port src a named = z) ∧
    (z.frozen = false → z.mode ≠ modeCold → out = (z.mode != modeShadow && partnerReady z && z.rd Reg.PAIR_STATUS.role_now == 1) → ∃ w : State,
      freezeEnter z cause port src a named = (if hostBit ≤ z.ent (chRing 0) RingE.base then
        (w.event 0x0001 noChan (nextDue w) (modeFreeze + 16 * z.mode + 256 * causeHbm) 0).event 0x0803 noChan 0 cause port else w) ∧
      w.frozen = true ∧ w.on Reg.MEM_STATUS.snap_valid = true ∧ w.mode = modeFreeze ∧ w.rd Reg.MODE_CUR.cause = causeHbm ∧ w.rd Reg.LA_STATUS.rw_step = 0 ∧
      w.st = { z.st with snap := snapshot z cause port src a named, queue := [], rrBad := w.st.rrBad } ∧
      (∀ r, r ∈ z.st.queue → r.data = none → Emit.memRead r.port (List.replicate r.len 0) ∈ w.out) ∧
      w.led.final = some (z.ledView, z.snapLine) ∧
      w.on Reg.LEDGER_SNAP.ledger_mismatch = (z.on Reg.LEDGER_SNAP.ledger_mismatch || decide (ledBroken z.ledView ≠ [])) ∧
      w.md = { z.md with pending := [], lines := if z.mode = modeIdle ∨ z.mode = modeReload then z.md.lines else (z.fire.refNext, modeFreeze) :: z.md.lines } ∧
      w.fire = { z.fire with
        freezeAt := some z.clk, silent := z.fire.silent || out, hbSeq := if out then (z.fire.hbSeq + 1) % 65536 else z.fire.hbSeq
        hbAt := if out then some z.clk else z.fire.hbAt } ∧
      w.cal.running = [] ∧ w.tu.burstDue = [] ∧ w.fl.resetWait = none ∧ w.insp = { z.insp with cuNew := 0, cuFrames := 0 } ∧
      (epochOutstanding z = true → epochState w = 6) ∧ w.ln.moves = [] ∧ (∀ b, b ∈ w.bnd → b.2.job = none) ∧
      (z.gp40 = true → w.on Reg.GP_INT_STAT.dma_error = true) ∧
      (∀ n, n < 16 → (w.axis n).goal = (if (z.axis n).v = 0 ∧ (z.axis n).a = 0 then .still else .stop false) ∧ (w.axis n).enabled = (z.axis n).enabled) ∧
      (∀ p, p < 16 → w.rd Reg.CL_XSHIFT.xs_staged p = 0))) ∧
  ∀ (s σ : State) (t : Nat), σ = s.at t →
    (∀ p src a n wr d, 9 ≤ p ∨ areaOf a ≠ .stacks → exec (.stacksRequest t p src a n wr d) s = .next σ) ∧
    (∀ p src a n d, p < 9 → areaOf a = .stacks → s.frozen = true → exec (.stacksRequest t p src a n true d) s = .next σ ∧
      exec (.stacksRequest t p src a n false d) s = .next { σ with out := .memRead p (List.replicate n 0) :: s.out }) ∧
    (∀ p src a n wr d c m, p < 9 → areaOf a = .stacks → s.frozen = false → c = creditNow σ p → m = (if wr then d.length else n) →
      EndsIn (exec (.stacksRequest t p src a n wr d) s) showUrgency (fun u =>
        Tbl.get (0, 0) u.st.credit p = (if m * 65536 ≤ c then c - m * 65536 else c, σ.clk) ∧
        u.st.queue = s.st.queue ++ [MemReq.mk p src a m (if wr then some d else none) σ.clk (decide (m * 65536 ≤ c))] ∧ u = { σ with st := { s.st with credit := u.st.credit, queue := u.st.queue } })) ∧
    exec (.stacksUrgencyRise t) s = .next (showUrgency σ) ∧
    (∀ src a v j, j < 9 → a = Reg.MEM_PORT_CFG.rate_gbs.addr + 8 * j → reaches σ src a = true → v < 2 ^ 32 →
      (regTakes σ a v (regFields σ a) = true → EndsIn (exec (.registerWrite t src a 4 v) s) State.settle (fun u =>
        u.rd Reg.MEM_PORT_CFG.rate_gbs j = v % 4096 ∧ u.rd Reg.MEM_PORT_CFG.target_ns j = bits v 12 20 ∧ (∀ p, creditNow u p = creditNow σ p) ∧
        OnlyRegs { σ with st := { s.st with credit := u.st.credit } } u [Reg.MEM_PORT_CFG.rate_gbs.key j, Reg.MEM_PORT_CFG.target_ns.key j])) ∧
      (regTakes σ a v (regFields σ a) = false → EndsIn (exec (.registerWrite t src a 4 v) s) State.settle (fun u =>
        (∀ p, creditNow u p = creditNow σ p) ∧ u = { σ with st := { s.st with credit := u.st.credit } }))) ∧
    (∀ pc e, s.rd Reg.MODE_CUR.power = 2 ∨ memNext σ pc = none → exec (.stacksRequestServed t pc e) s = .next σ.settle) ∧
    (∀ pc e r late, s.rd Reg.MODE_CUR.power ≠ 2 → memNext σ pc = some r → late = (r.reserved && decide (r.arrived + memTarget s r * nsU < σ.clk)) →
      EndsIn (exec (.stacksRequestServed t pc e) s) (fun x =>
          let x := (burstsOf r.addr (match r.data with | some d => d.length | none => r.len)).zipIdx.foldl (memBurst r e) x
          (showUrgency (match r.data with
          | some d => x.pokeBytes r.addr d
          | none => x.emit (.memRead r.port (x.peekBytes r.addr r.len)))).settle)
        (fun u => u.st = { s.st with queue := s.st.queue.erase r } ∧
          u.rd Reg.MEM_PORT_STAT.late r.port = (if late then sat 24 (s.rd Reg.MEM_PORT_STAT.late r.port + 1) else s.rd Reg.MEM_PORT_STAT.late r.port) ∧
          OnlyRegs { σ with st := u.st } u [Reg.MEM_PORT_STAT.late.key r.port])) ∧
    (∀ pc b, s.frozen = true ∨ s.rd Reg.MODE_CUR.power = 2 → exec (.bankRefresh t pc b) s = .next σ) ∧
    (∀ pc b k n pre (busy : Prop), s.frozen = false → s.rd Reg.MODE_CUR.power ≠ 2 →
      pre = (if (Tbl.find s.st.openRow k).isSome = true then [Emit.hbm (pc % 64) (.precharge (b % 48))] else []) → k = pc % 64 * 64 + b % 48 → n = Tbl.get 0 s.st.postponed k →
      (busy ↔ ∃ r, r ∈ s.st.queue ∧ pcOf r.addr * 64 + (sidOf r.addr * 16 + bankOf r.addr) = k) →
      (busy → n < 8 → exec (.bankRefresh t pc b) s = .next { σ with st := { s.st with postponed := s.st.postponed.put k (n + 1) } }) ∧
      (busy → 8 ≤ n → EndsIn (exec (.bankRefresh t pc b) s) (fun x => nrrIssue x (pc % 64)) (fun u => Tbl.find u.st.openRow k = none ∧
        u.out = .hbm (pc % 64) (.refresh (b % 48)) :: (pre ++ s.out) ∧ u = { σ with out := u.out, st := { s.st with openRow := u.st.openRow } })) ∧
      (¬busy → EndsIn (exec (.bankRefresh t pc b) s) (fun x => nrrIssue x (pc % 64)) (fun u => Tbl.find u.st.openRow k = none ∧ Tbl.find u.st.postponed k = none ∧
        u.out = List.replicate (n + 1) (Emit.hbm (pc % 64) (.refresh (b % 48))) ++ (pre ++ s.out) ∧
        u = { σ with out := u.out, st := { s.st with openRow := u.st.openRow, postponed := u.st.postponed } }))) ∧
    (∀ k v, EndsIn (exec (.stackTempRead t k v) s) (fun x => (thermalUpdate x true).cool.settle) (fun u =>
      stackTemp u (if k = 0 then 0 else 1) = signed 16 (unsigned 16 v) ∧ stackTemp u (if k = 0 then 1 else 0) = stackTemp s (if k = 0 then 1 else 0) ∧
      u.rd Reg.MEM_STATUS.hot = (if 95 * 16 < max (stackTemp u 0) (stackTemp u 1) then 2 else if 85 * 16 < max (stackTemp u 0) (stackTemp u 1) then 1 else 0) ∧
      OnlyRegs σ u [Reg.THERM_HBM_TEMP.stack0.key 0, Reg.THERM_HBM_TEMP.stack1.key 0, Reg.MEM_STATUS.hot.key 0])) ∧
    (∀ e, s.frozen = true ∨ s.rd Reg.MODE_CUR.power = 2 → exec (.scrubRead t e) s = .next σ.settle) ∧
    (∀ e k, s.frozen = false → s.rd Reg.MODE_CUR.power ≠ 2 → s.mode = modeReload → s.on Reg.MEM_STATUS.trained = false →
      k = pcOf (s.st.trainPos * 32) * 128 + (if e / 4 < 36 then e / 4 else 64) → EndsIn (exec (.scrubRead t e) s) State.settle (fun u =>
        u = { σ with st := { s.st with
          trainPos := (s.st.trainPos + 1) % (stacksSize / 32)
          laneBad := if e % 4 = 2 ∧ k ∉ s.st.laneBad then s.st.laneBad ++ [k] else s.st.laneBad } })) ∧
    (∀ e, ¬(s.mode = modeReload ∧ s.on Reg.MEM_STATUS.trained = false) → bankHeld σ (s.st.scrubPos * 32) = true → exec (.scrubRead t e) s = .next σ.settle) ∧
    (∀ e y, s.frozen = false → s.rd Reg.MODE_CUR.power ≠ 2 → ¬(s.mode = modeReload ∧ s.on Reg.MEM_STATUS.trained = false) →
      bankHeld σ (s.st.scrubPos * 32) = false → y = eccFound (rowAccess σ (s.st.scrubPos * 32) false false) e 8 255 (s.st.scrubPos * 32) →
      (s.st.scrubPos + 1 < stacksSize / 32 → exec (.scrubRead t e) s = .next { y with st := { y.st with scrubPos := s.st.scrubPos + 1 } }.settle) ∧
      (stacksSize / 32 ≤ s.st.scrubPos + 1 → EndsIn (exec (.scrubRead t e) s) State.settle (fun u => u.st = { y.st with scrubPos := 0, scrubDone := some σ.clk } ∧
        u.rd Reg.MEM_SCRUB.scrub_pass = sat 16 (y.rd Reg.MEM_SCRUB.scrub_pass + 1) ∧ OnlyRegs { y with st := u.st } u [Reg.MEM_SCRUB.scrub_pass.key 0]))) ∧
    (s.st.repairDue = [] ∨ s.frozen = true ∨ s.rd Reg.MODE_CUR.power = 2 → exec (.rowRepair t) s = .next σ) ∧
    (∀ k ks n y, s.frozen = false → s.rd Reg.MODE_CUR.power ≠ 2 → y = rowCopy { σ with st := { s.st with repairDue := ks } } k n → s.st.repairDue = k :: ks → n = Tbl.get 0 s.st.spares (k % 2 ^ 12) →
      (32 ≤ n → exec (.rowRepair t) s = .next { σ with st := { s.st with repairDue := ks } }) ∧
      (n < 32 → EndsIn (exec (.rowRepair t) s) (fun x => repairAdd (x.event 0x0801 noChan 0 k (x.rd Reg.MEM_STATUS.rep_full)) repRow k) (fun u =>
        u.st = { y.st with repairDue := ks, spares := s.st.spares.put (k % 2 ^ 12) (n + 1), repaired := k :: s.st.repaired } ∧
        u.rd Reg.MEM_REPAIR.rows_repaired = low 16 (s.rd Reg.MEM_REPAIR.rows_repaired + 1) ∧ (n = 31 → u.on Reg.MEM_STATUS.rep_full = true) ∧
        (n ≠ 31 → u.rd Reg.MEM_STATUS.rep_full = s.rd Reg.MEM_STATUS.rep_full) ∧
        OnlyRegs { y with st := u.st } u [Reg.MEM_REPAIR.rows_repaired.key 0, Reg.MEM_STATUS.rep_full.key 0]))) ∧
    ((∀ r, r ∈ s.fl.repair → r.2.2 = true) → exec (.repairRecordWrite t) s = .next σ) ∧
    ((∃ r, r ∈ s.fl.repair ∧ r.2.2 = false) →
      (s.on Reg.THERM_STATUS.flash_ok = true → exec (.repairRecordWrite t) s =
        .next { σ with fl := { s.fl with repair := s.fl.repair.map (fun r => (r.1, r.2.1, true)) } }) ∧
      (s.on Reg.THERM_STATUS.flash_ok = false → EndsIn (exec (.repairRecordWrite t) s) (fun x => flashUpdate (x.event 0x0C05 noChan 0 2 0)) (fun u =>
        u.th.refused = true ∧ u.th.goodAt = none ∧ u.rd Reg.THERM_FLASH.flash_refused = sat Reg.THERM_FLASH.flash_refused.width (s.rd Reg.THERM_FLASH.flash_refused + 1) ∧
        OnlyRegs { σ with th := { s.th with refused := true, goodAt := none } } u [Reg.THERM_FLASH.flash_refused.key 0]))) ∧
    (∀ pc rd wr, windowOk σ (pc % 64) = false → exec (.retrainWindow t pc rd wr) s = .next σ) ∧
    (∀ pc rd wr y lim, windowOk σ (pc % 64) = true → y = { σ with st := { s.st with windows := s.st.windows + 1, windowAt := some σ.clk } } →
      lim = s.rd Reg.MEM_MARGIN_CFG.margin_min →
      (s.st.windows ≠ 127 → exec (.retrainWindow t pc rd wr) s = .next y) ∧
      (s.st.windows = 127 → EndsIn (exec (.retrainWindow t pc rd wr) s) (fun x =>
          if rd < lim ∨ wr < lim then recalDue (x.event 0x0802 noChan 0 (pc % 64) (rd % 256 * 256 + wr % 256)) 2 (pc % 64) reasonQuality else x) (fun u =>
        u.rd Reg.MEM_PC_MARGIN.rd_margin (pc % 64) = low 8 rd ∧ u.rd Reg.MEM_PC_MARGIN.wr_margin (pc % 64) = low 8 wr ∧
        u.rd Reg.MEM_PC_MARGIN.pc_temp (pc % 64) = unsigned 16 (stackTemp s (pc % 64 / 32)) ∧
        (∀ (j : Nat) (c : Int), (Tbl.get [] s.st.codes (pc % 64))[j]? = some c → ∃ d : Int, (Tbl.get [] u.st.codes (pc % 64))[j]? = some d ∧ (d - c).natAbs ≤ 2) ∧
        (∀ q, q ≠ pc % 64 → Tbl.get [] u.st.codes q = Tbl.get [] s.st.codes q) ∧
        OnlyRegs { y with freeN := s.freeN + 1, st := { y.st with codes := u.st.codes } } u [Reg.MEM_PC_MARGIN.rd_margin.key (pc % 64), Reg.MEM_PC_MARGIN.wr_margin.key (pc % 64), Reg.MEM_PC_MARGIN.pc_temp.key (pc % 64)]))) ∧
    (∀ kind p src a named, exec (.hbmParityError t kind p src a named) s = .next (freezeEnter σ (if kind = 4 then 4 else 3) p src a named).settle ∧
      exec (.hbmReadTimeout t p src a) s = .next (freezeEnter σ 5 p src a true).settle ∧
      exec (.freezeEntry t kind p src a) s = .next (freezeEnter σ kind p src a true).settle) ∧
    (freezeOver σ = false → exec (.freezeWithholdExpiry t) s = .next σ) ∧
    (freezeOver σ = true → Ends (exec (.freezeWithholdExpiry t) s) (fun u =>
      (∀ k q, k < 80 → q ∈ (u.slot k).parts → q ∈ (s.slot k).parts ∧ (q.released ≠ none ∨ q.fault = true)) ∧
      u.led.live = (slots80.foldl (fun z k => ((s.slot k).parts.filter (fun q => q.released.isNone && !q.fault)).foldl (fun z q =>
        moveDrops (moveLine z q.jobIdx k Led.linesWithheld) q.jobIdx q.plane q.drops Led.dropsWithheld) z) σ).led.live ∧
      u = { σ with led := u.led, fire := { s.fire with slots := u.fire.slots }, mem := u.mem, st := { s.st with rrBad := u.st.rrBad } })) ∧
    (s.st.bankSpares = [] ∨ s.st.testing ≠ none ∨ σ.clk < s.st.rotAt + rotPeriod s → exec (.rrRotation t) s = .next σ) ∧
    (∀ q qs (phys : Nat → Nat) l, s.st.bankSpares = q :: qs → s.st.testing = none → s.st.rotAt + rotPeriod s ≤ σ.clk →
      phys = (fun j => (Tbl.find s.st.bankMap j).getD j) → l = ((List.range 64).find? (fun j => s.st.bankBad.contains (phys j))).getD s.st.bankNext →
      EndsIn (exec (.rrRotation t) s) (fun x => if phys l ∈ s.st.bankBad then bankRetire x (phys l) else x) (fun u =>
        u.st = { s.st with bankMap := s.st.bankMap.put l q, bankSpares := qs, rrErrs := [], bankNext := (if l = s.st.bankNext then (s.st.bankNext + 1) % 64 else s.st.bankNext), rotAt := σ.clk, testing := (if phys l ∈ s.st.bankBad then none else some (phys l)) } ∧
        u.rd Reg.MEM_RR_STATUS.rr_spares = low 3 qs.length ∧ OnlyRegs { σ with st := u.st } u [Reg.MEM_RR_STATUS.rr_spares.key 0])) ∧
    (∀ ok, s.st.testing = none → exec (.rrBankTestComplete t ok) s = .next σ) ∧
    (∀ p, s.st.testing = some p →
      Ends (exec (.rrBankTestComplete t true) s) (fun u => u.st = { s.st with testing := none, testOk := true, bankSpares := s.st.bankSpares ++ [p] } ∧
        u.rd Reg.MEM_RR_STATUS.rr_spares = low 3 (s.st.bankSpares.length + 1) ∧ OnlyRegs { σ with st := u.st } u [Reg.MEM_RR_STATUS.rr_spares.key 0]) ∧
      exec (.rrBankTestComplete t false) s = .next (bankRetire { σ with st := { s.st with testing := none, testOk := false } } p))

/-- The Bindery, and Scribes that restart or are replaced. A unit that may run takes the next job of its ring, both descriptors of it: one without its second descriptor or that Table 11-3 refuses is known to end with that status, another begins, its source joined to the stream's. A block of a COMPRESS job is written in the shorter of its coding and the fixed form of it, where it decodes to its input and a stored block is not shorter, else as a stored block of 65,535 bytes at most; one that does not decode is counted, and if the stored block fails too the job ends with 0x70A. A DECOMPRESS job writes what its stream yields beyond what was given. The bytes of a job are counted as they are read and written. A job's completion, once no block is due, completes both descriptors; neither blocks nor completions come in COLD_START, RELOAD or FREEZE. SCRIBE_RESTART completes what the Scribe had popped and loads its Carrel, or posts event 0x0105 for an image that fails; once loaded it serves, with event 0x0102. A substitution ends with the failing Scribe's last run: the spare takes its slices, event 0x0103 is posted and the spare serves, loaded from its image where the Carrel cannot be copied. The compressor's choice of coding is the command's operand (log 95). -/
def Obligations.BinderyAndRestarts : Prop :=
  (∀ (z y u : State) (k : Nat) (d e : Desc) (job : Nat × Nat) (first cmp : Bool), u = bndBegin z k d e job → first = bfirstOf d.opcode →
    cmp = (bopOf d.opcode == opCompress) → y = (if first then bndAbandon z k else z) → k < 16 → areaOf d.addr ≠ .readingRoom →
    (u.bind k).job = some job ∧ (u.bind k).src = d.addr ∧ (u.bind k).srcLen = d.length ∧ (u.bind k).dst = e.addr ∧ (u.bind k).dstCap = e.length ∧
    (u.bind k).opcode = d.opcode ∧ (u.bind k).done = 0 ∧ (u.bind k).wrote = 0 ∧ (u.bind k).status = 0 ∧ (u.bind k).finished = false ∧
    (u.bind k).text = (if first then [] else (z.bind k).text) ++ y.peekBytes d.addr d.length ∧
    (u.bind k).held = (if first then [] else (z.bind k).held) ++ (if cmp then y.peekBytes d.addr d.length else []) ∧
    (first = true → (u.bind k).isOpen = true ∧ (u.bind k).sop = bopOf d.opcode ∧ (u.bind k).swrap = bwrapOf d.opcode) ∧
    u.rd Reg.BND_IN_BYTES.in_bytes k = (if cmp then low Reg.BND_IN_BYTES.in_bytes.width (z.rd Reg.BND_IN_BYTES.in_bytes k + d.length)
      else z.rd Reg.BND_IN_BYTES.in_bytes k) ∧
    bit (u.rd Reg.BND_STATUS.busy) k = true ∧ (first = true → (z.bind k).isOpen = true →
      u.rd Reg.BND_VERIFY.abandoned k = sat Reg.BND_VERIFY.abandoned.width (z.rd Reg.BND_VERIFY.abandoned k + 1))) ∧
  (∀ (z u : State) (k : Nat) (bs : List Bool) (by_ : List Byte) (rest : List Bool), u = bndPut z k bs → (z.bind k).headed = true →
    wholeBytes ((z.bind k).bits ++ bs) = (by_, rest) → (u.bind k).bits = rest ∧ (u.bind k).wrote = (z.bind k).wrote + by_.length ∧
    u.mem = (z.pokeBytes ((z.bind k).dst + (z.bind k).wrote) by_).mem ∧
    u.rd Reg.BND_OUT_BYTES.out_bytes k = low Reg.BND_OUT_BYTES.out_bytes.width (z.rd Reg.BND_OUT_BYTES.out_bytes k + by_.length) ∧
    ∀ (f : Fld) (i : Nat), f.key i ≠ Reg.BND_OUT_BYTES.out_bytes.key k → u.rd f i = z.rd f i) ∧
  (∀ (final : Bool) (input : List Byte) (coded c : List Bool), (shortest final input coded).length ≤ coded.length ∧
    (fixedForm coded = some c → (shortest final input coded).length ≤ c.length) ∧
    (input ≠ [] → shortest final input coded = coded ∨ fixedForm coded = some (shortest final input coded))) ∧
  (∀ (z u : State) (k st taken : Nat) (out : List Byte), u = decompressRun z k →
    inflate (z.bind k).swrap ((z.bind k).given + (z.bind k).dstCap) (z.bind k).text = (out, taken, st) →
    (u.bind k).status = (if st = 1 ∨ (st = 0 ∧ bflushOf (z.bind k).opcode = flushFinish) then 0x705 else if st = 3 then 0x703 else 0) ∧
    (u.bind k).wrote = (z.bind k).wrote + (out.drop (z.bind k).given).length ∧ (u.bind k).done = taken - ((z.bind k).text.length - (z.bind k).srcLen) ∧
    u.rd Reg.BND_OUT_BYTES.out_bytes k = low Reg.BND_OUT_BYTES.out_bytes.width (z.rd Reg.BND_OUT_BYTES.out_bytes k + (out.drop (z.bind k).given).length) ∧
    u.rd Reg.BND_IN_BYTES.in_bytes k = low Reg.BND_IN_BYTES.in_bytes.width (z.rd Reg.BND_IN_BYTES.in_bytes k + (u.bind k).done) ∧
    u.mem = (z.pokeBytes ((z.bind k).dst + (z.bind k).wrote) (out.drop (z.bind k).given)).mem) ∧
  (∀ (z : State) (l p : Nat) (e : List Byte), z.entry (chScribe p) = some e →
    (imageCheck z e = 0 → Ends (.next (scribeStart z l p)) (fun u => u.rd Reg.SCRIBE_STATE.state p = 3 ∧
      u.rd Reg.SCRIBE_INFO.logical p = low Reg.SCRIBE_INFO.logical.width l ∧ u.rd Reg.SCRIBE_MAP.phys l = low Reg.SCRIBE_MAP.phys.width p ∧
      OnlyRegs (loadCarrel z p e) u [Reg.SCRIBE_STATE.state.key p, Reg.SCRIBE_INFO.logical.key p, Reg.SCRIBE_MAP.phys.key l])) ∧
    (imageCheck z e ≠ 0 → scribeStart z l p = z.event 0x0105 (chScribe p) 0 (l + 256 * imageCheck z e) 0)) ∧
  ∀ (s σ : State) (t k : Nat), σ = s.at t →
    (∀ c dec n, (c, dec) ∈ [(Instr.binderyCompress t k, false), (.binderyDecompress t k, true)] → n = s.ent (chBnd k) BndE.inRing →
      (16 ≤ k ∨ bndMayRun σ k = false ∨ s.ringUp n = false ∨ s.ringHolds n = 0 → exec c s = .next σ) ∧
      (∀ i j d e w, k < 16 → bndMayRun σ k = true → s.ringUp n = true → s.ringHolds n ≠ 0 → i = (s.ring n).cons → j = mod32 (i + 1) →
        d = σ.desc n i → e = σ.desc n j → w = ringTake (ringTake σ n (bndAgent k)) n (bndAgent k) →
        ((bopOf d.opcode == opDecompress) ≠ dec → exec c s = .next σ) ∧
        ((bopOf d.opcode == opDecompress) = dec →
          (d.chain = false → EndsIn (exec c s) (fun x => bndShow x k) (fun u => (u.bind k).job = some (i, i) ∧ (u.bind k).status = 0x707 ∧
            (u.bind k).finished = true ∧ u = { ringTake σ n (bndAgent k) with bnd := u.bnd })) ∧
          (d.chain = true → s.ringHolds n < 2 → exec c s = .next σ) ∧
          (d.chain = true → 2 ≤ s.ringHolds n → bndRefusal σ (s.bind k) d e ≠ 0 → EndsIn (exec c s) (fun x => bndShow x k) (fun u =>
            (u.bind k).job = some (i, j) ∧ (u.bind k).status = bndRefusal σ (s.bind k) d e ∧ (u.bind k).finished = true ∧ u = { w with bnd := u.bnd })) ∧
          (d.chain = true → 2 ≤ s.ringHolds n → bndRefusal σ (s.bind k) d e = 0 → exec c s = .next (bndBegin w k d e (i, j)))))) ∧
    (∀ cs n ok, 16 ≤ k ∨ bndRuns s = false ∨ blockDue (s.bind k) = false → exec (.binderyBlockWrite t k cs n ok) s = .next σ) ∧
    (∀ cs n ok x y input final last past plain coded best good (fits : Prop), k < 16 → bndRuns s = true → blockDue x = true → x = s.bind k →
      coded = (bitsOf cs).take n → input = x.held.take 65536 → final = (bflushOf x.opcode == flushFinish && decide (x.held.length ≤ 65536)) →
      last = (bflushOf x.opcode == flushFinish && decide (x.held.length ≤ 65535)) →
      past = (x.text.take (x.text.length - x.held.length)).drop x.cut → plain = storedBlocks last 1 (input.take 65535) x.bits.length →
      best = shortest final input coded → good = blockDecodes (past.reverse.take 32768) input final coded x.bits.length →
      (fits ↔ beffortOf x.opcode ≠ 0 ∧ good = true ∧ best.length ≤ plain.length + 8 * (input.length - 65535)) →
      y = σ.setBind k { x with held := x.held.drop 65535, finished := last } →
      (fits → exec (.binderyBlockWrite t k cs n ok) s = .next (bndPut (σ.setBind k { x with held := x.held.drop 65536, finished := final }) k best)) ∧
      (¬fits → beffortOf x.opcode = 0 ∨ good = true → ok = true → exec (.binderyBlockWrite t k cs n ok) s = .next (bndPut y k plain)) ∧
      (¬fits → (beffortOf x.opcode ≠ 0 ∧ good = false) ∨ ok = false →
        EndsIn (exec (.binderyBlockWrite t k cs n ok) s) (fun z =>
            let z := if s.ent (chBnd k) BndE.vfLimit ≤ (x.fallbacks.filter (fun a => decide (σ.clk ≤ a + secU))).length + 1 ∧
                bit (s.rd Reg.BND_STATUS.suspect) k = false then
                (z.wr Reg.BND_STATUS.suspect 0 (s.rd Reg.BND_STATUS.suspect + 2 ^ k)).event 0x0901 (chBnd k) 0 0 0 else z
            if ok then bndPut z k plain else z.setBind k { z.bind k with status := 0x70A, finished := true })
          (fun u => u.rd Reg.BND_VERIFY.verify_fb k = sat Reg.BND_VERIFY.verify_fb.width (s.rd Reg.BND_VERIFY.verify_fb k + 1) ∧
            (u.bind k).fallbacks = σ.clk :: x.fallbacks.filter (fun a => decide (σ.clk ≤ a + secU)) ∧
            OnlyRegs { y with bnd := u.bnd } u [Reg.BND_VERIFY.verify_fb.key k]))) ∧
    ((s.bind k).job = none ∨ bndRuns s = false ∨ blockDue (s.bind k) = true → exec (.binderyJobComplete t k) s = .next σ.catSettle) ∧
    (∀ i j x, (s.bind k).job = some (i, j) → bndRuns s = true → blockDue (s.bind k) = false → x = (bndFinish σ k).bind k →
      EndsIn (exec (.binderyJobComplete t k) s)
        (fun z => (bndShow (ringComplete (ringComplete z (s.ent (chBnd k) BndE.inRing) i x.status x.done) (s.ent (chBnd k) BndE.inRing) j x.status x.wrote) k).catSettle)
        (fun u => (u.bind k).job = none ∧
          (x.status = 0x705 ∨ x.status = 0x70A → u.rd Reg.BND_ERR.data_err k = sat Reg.BND_ERR.data_err.width ((bndFinish σ k).rd Reg.BND_ERR.data_err k + 1)) ∧
          (x.status ≠ 0 → x.status ≠ 0x705 → x.status ≠ 0x70A → u.rd Reg.BND_ERR.job_err k = sat Reg.BND_ERR.job_err.width ((bndFinish σ k).rd Reg.BND_ERR.job_err k + 1)) ∧
          OnlyRegs { bndFinish σ k with bnd := u.bnd } u [Reg.BND_ERR.data_err.key k, Reg.BND_ERR.job_err.key k])) ∧
    (∀ l, hostOpen s = false ∨ s.physOf l = none → exec (.scribeRestart t l) s = .next σ) ∧
    (∀ l p, s.physOf l = some p → s.entry (chScribe p) = none ∨ s.rd Reg.SCRIBE_STATE.state p ≠ 1 ∨ (s.eng p).leaving ≠ none →
      exec (.scribeRestart t l) s = .next σ) ∧
    (∀ l p e, hostOpen s = true → s.physOf l = some p → s.entry (chScribe p) = some e → s.rd Reg.SCRIBE_STATE.state p = 1 → (s.eng p).leaving = none →
      exec (.scribeRestart t l) s = .next (scribeStart (if imageCheck σ e = 0 then dropPopped σ l else σ) l p)) ∧
    (∀ l ready, ready = (List.range 16).find? (fun p => s.rd Reg.SCRIBE_STATE.state p == 3 && s.rd Reg.SCRIBE_INFO.logical p == l && !scribeTaken s p) →
      (ready = none → exec (.scribeRestartComplete t l) s = .next σ) ∧
      (∀ p, ready = some p → exec (.scribeRestartComplete t l) s = .next (scribeServe (σ.event 0x0102 (chScribe p) 0 l 0) l p))) ∧
    ((s.eng k).leaving = none ∨ (s.eng k).running ≠ none → exec (.scribeSubstituteComplete t k) s = .next σ) ∧
    (∀ q reason l, (s.eng k).leaving = some (q, reason) → (s.eng k).running = none → reason ≠ 2 → (s.eng k).bad = [] → q ≠ k → l = s.rd Reg.SCRIBE_INFO.logical k →
      EndsIn (exec (.scribeSubstituteComplete t k) s) (fun x => scribeServe (x.event 0x0103 (chScribe q) 0 (l + 256 * k + 4096 * reason) 0) l q) (fun u =>
        u.rd Reg.SCRIBE_STATE.state k = 2 ∧ u.rd Reg.SCRIBE_SUBSTS.substs = sat Reg.SCRIBE_SUBSTS.substs.width (s.rd Reg.SCRIBE_SUBSTS.substs + 1) ∧
        (u.eng k).leaving = none ∧ (u.eng k).slices = [] ∧ (u.eng q).slices = (s.eng k).slices ∧ (u.eng q).startAt = σ.clk)) ∧
    (∀ q reason l y e, (s.eng k).leaving = some (q, reason) → reason = 2 ∨ (s.eng k).bad ≠ [] → (s.eng k).running = none → q ≠ k → l = s.rd Reg.SCRIBE_INFO.logical k →
      y = dropPopped (spareEntry σ k q) l → y.entry (chScribe q) = some e → imageCheck y e = 0 → imageCheck (loadCarrel y q e) e = 0 →
      EndsIn (exec (.scribeSubstituteComplete t k) s) (fun x => scribeServe (x.event 0x0103 (chScribe q) 0 (l + 256 * k + 4096 * reason) 0) l q) (fun u =>
        u.rd Reg.SCRIBE_STATE.state k = 2 ∧ u.rd Reg.SCRIBE_SUBSTS.substs = sat Reg.SCRIBE_SUBSTS.substs.width (s.rd Reg.SCRIBE_SUBSTS.substs + 1) ∧
        (u.eng k).leaving = none ∧ (u.eng k).slices = []))

/-- Lanes and their PRBS logic. A lane called for begins its full bring-up with its taps at 0; ready, it has block lock and enters service, stands by as its group's spare on its far-end loop with PRBS31, which takes a logical lane of the group that lost its own, or proves itself. A move begins with the spare's PRBS logic off and the words shifted. At boot every lane is shifted onto its loop, and once each has come up the home map is shifted and latched, the spare taking the first retired home. A lost block lock is counted, with 16 header errors, and relocked; of a twin lane it may lose the link; the third failed full bring-up within 10 s retires the lane, which enters the repair record. LANE_CMD move needs a lane to move and a spare to take it, and is else refused with result 2; the switch's words are shifted, bridge first, latched, and the logical lane runs on the spare; not verified within 2 µs, the words before are shifted and latched again, with event 0x0A01. Step 5 without a set for 100 µs goes on. Retire and restore act on the lane named, and a lane out of range is ignored. A lane without traffic injects an error into its PRBS pattern on request, which its checker counts through a loop; more than 16 errors on a spare and eye figures below their limits call for its recalibration. -/
def Obligations.LanesAndMoves : Prop :=
  (∀ (z : State) (n : Nat), n < 52 → ∃ u : State, laneStart z n = (match logicalOn u n with | some l => linksDown u l | none => u) ∧
    u.lstate n = 1 ∧ u.on Reg.LANE_STATE.block_lock n = false ∧ u.on Reg.LANE_STATE.cdr_lock n = false ∧ u.rd Reg.LANE_STATE.ctle n = 0 ∧
    (∀ k, k < 12 → u.rd Reg.LANE_DFE.tap (12 * n + k) = 0) ∧ u.lane n = { z.lane n with full := true, called := false, startAt := z.clk, tapsAt := none } ∧
    u = { z with regs := u.regs, ln := { z.ln with lanes := u.ln.lanes } }) ∧
  (∀ (z u : State) (n ctle pad : Nat) (taps : List Int), n < 52 → u = laneReady z n ctle pad taps →
    u.on Reg.LANE_STATE.block_lock n = true ∧ u.on Reg.LANE_STATE.cdr_lock n = true ∧
    u.lstate n = (if 48 ≤ n then 2 else if (z.lane n).proving then 6 else if z.ln.boot ≠ 0 then 3 else if (logicalOn z n).isSome then 2 else 3) ∧
    (n < 48 → (z.lane n).proving = false → z.ln.boot = 0 → logicalOn z n = none → u.rd Reg.LANE_STATE.loop n = 3 ∧ u.rd Reg.PRBS_CTRL.pattern n = 4 ∧
      (spareTaken z n = true ∨ (∀ l, l / 5 = n / 6 → z.lstate (physLane z l) ≠ 5 ∨ moving z l = true) →
        u.on Reg.PRBS_CTRL.gen_en n = true ∧ u.on Reg.PRBS_CTRL.chk_en n = true)) ∧
    ((z.lane n).full = true → u.rd Reg.LANE_STATE.ctle n = low Reg.LANE_STATE.ctle.width (min ctle (laneEnt z n LaneE.ctleMax 15)) ∧
      ∀ k, k < 12 → u.rd Reg.LANE_DFE.tap (12 * n + k) =
        unsigned Reg.LANE_DFE.tap.width (if k < laneEnt z n LaneE.dfeTaps 12 then taps.getD k 0 else 0)) ∧
    u.lane n = { z.lane n with full := false, called := false, chkAt := (u.lane n).chkAt
                               tapsAt := if (z.lane n).full then some z.clk else (z.lane n).tapsAt }) ∧
  (∀ (z : State) (n : Nat) (lost : Nat → Prop), n < 48 →
    (∀ l, lost l ↔ l / 5 = n / 6 ∧ z.lstate (physLane z l) = 5 ∧ moving z l = false) →
    (logicalOn z n = none →
      (spareTaken z n = true ∨ (∀ l, ¬lost l) → laneStandby z n = laneSpare z n) ∧
      (∀ l, spareTaken z n = false → lost l → (∀ j, j < l → ¬lost j) → laneStandby z n = moveAdd (laneSpare z n) l n false false)) ∧
    (∀ l, logicalOn z n = some l → EndsIn (.next (laneStandby z n)) (fun x => linksUp x l) (fun u => u.lstate n = 2 ∧ u.rd Reg.LANE_STATE.loop n = 0 ∧
      u.on Reg.PRBS_CTRL.gen_en n = false ∧ u.on Reg.PRBS_CTRL.chk_en n = false ∧
      groupWord u (n / 6) = setSrc (groupWord z (n / 6)) (l % 5) (n % 6) ∧ ∃ w, u.out = .ball .hlSwLat true :: .laneShift w :: z.out))) ∧
  (∀ (z : State) (n : Nat), n < 52 → Ends (.next (laneSpare z n)) (fun u => u.lstate n = 3 ∧ u.rd Reg.LANE_STATE.loop n = 3 ∧ u.rd Reg.PRBS_CTRL.pattern n = 4 ∧
    u.on Reg.PRBS_CTRL.gen_en n = true ∧ u.on Reg.PRBS_CTRL.chk_en n = true ∧ (∀ k, k ≠ n → u.lane k = z.lane k) ∧
    (z.on Reg.PRBS_CTRL.chk_en n = true → u.lane n = z.lane n ∧ u.on Reg.PRBS_CTRL.chk_sync n = z.on Reg.PRBS_CTRL.chk_sync n) ∧
    (z.on Reg.PRBS_CTRL.chk_en n = false → u.lane n = { z.lane n with chkAt := none } ∧ u.on Reg.PRBS_CTRL.chk_sync n = false ∧ prbsBits u n = 0) ∧
    OnlyRegs { z with ln := { z.ln with lanes := u.ln.lanes } } u [Reg.LANE_STATE.lstate.key n, Reg.LANE_STATE.loop.key n,
      Reg.PRBS_CTRL.pattern.key n, Reg.PRBS_CTRL.gen_en.key n, Reg.PRBS_CTRL.chk_en.key n, Reg.PRBS_CTRL.chk_sync.key n,
      Reg.PRBS_BITS_LO.bits_lo.key n, Reg.PRBS_BITS_HI.bits_hi.key n,
      Reg.LANE_STATUS.twin_up.key 0, Reg.LANE_STATUS.hl_spares.key 0, Reg.LANE_STATUS.hl_retired.key 0])) ∧
  (∀ (z : State) (l b : Nat) (pl as : Bool) (y : State), y = { z with ln := { z.ln with moves := z.ln.moves ++ [LaneMove.mk l (physLane z l) b 0 pl z.clk as] } } →
    moveAdd z l b pl as = (if z.ln.moves = [] then moveBegin y else y)) ∧
  (∀ (z : State) (m : LaneMove), curMove z = some m → Ends (.next (moveBegin z)) (fun u =>
    u.ln.moves = { m with step := if m.planned then 2 else 4, since := z.clk } :: z.ln.moves.tail ∧
    u.on Reg.PRBS_CTRL.gen_en m.b = false ∧ u.on Reg.PRBS_CTRL.chk_en m.b = false ∧
    (z.on Reg.PRBS_CTRL.chk_en m.b = true → u.on Reg.PRBS_CTRL.chk_sync m.b = false ∧ (u.lane m.b).chkAt = none) ∧
    (∃ w, u.out = .laneShift w :: z.out ∧ (m.l / 5 < 8 → (∀ g, g < 8 → groupWord z g < 2 ^ 24) →
      w / 2 ^ (24 * (m.l / 5)) % 2 ^ 24 = (if m.planned then bridgeWord z m else finalWord z m) % 2 ^ 24)) ∧
    OnlyRegs { z with out := u.out, ln := { z.ln with moves := u.ln.moves, lanes := u.ln.lanes } } u [Reg.PRBS_CTRL.gen_en.key m.b, Reg.PRBS_CTRL.chk_en.key m.b,
      Reg.PRBS_CTRL.chk_sync.key m.b, Reg.PRBS_BITS_LO.bits_lo.key m.b, Reg.PRBS_BITS_HI.bits_hi.key m.b])) ∧
  (∀ (z u : State) (n : Nat), n < 52 → u = laneRetire z n → (∃ r, r ∈ u.fl.repair ∧ r.1 = repLane ∧ r.2.1 = n) ∧
    u.lstate n = 5 ∧ u.on Reg.LANE_STATE.block_lock n = false ∧ u.lane n = Lane.reset) ∧
  (∀ (z : State) (n : Nat), lanesCheck z n = if 48 ≤ n then handCheck (twinSilence z) else z) ∧
  (∀ z : State, Ends (.next (loopsShift z)) (fun u => u.ln.boot = 1 ∧ (∀ g, g < 8 → Tbl.get homeWord u.ln.shifted g = 7 * 2 ^ 18 + (2 ^ 15 - 1)) ∧
    (∃ w, u.out = .laneShift w :: z.out ∧ ∀ g, g < 8 → w / 2 ^ (24 * g) % 2 ^ 24 = 7 * 2 ^ 18 + (2 ^ 15 - 1)) ∧
    u = { z with out := u.out, ln := { z.ln with boot := 1, shifted := u.ln.shifted } })) ∧
  (∀ (z : State) (up : Prop), (up ↔ z.ln.boot = 2 ∧ ∀ k, k < 48 → (z.lane k).called = false ∧ z.lstate k ≠ 1) →
    (¬up → bootShift z = z) ∧
    (up → Ends (.next (bootShift z)) (fun u => u.ln.boot = 3 ∧ (∀ g, g < 8 → Tbl.get homeWord u.ln.shifted g = homeGroup z g) ∧
      (∃ w, u.out = .laneShift w :: z.out ∧ ∀ g, g < 8 → w / 2 ^ (24 * g) % 2 ^ 24 = homeGroup z g) ∧
      u = { z with out := u.out, ln := { z.ln with boot := 3, shifted := u.ln.shifted } }))) ∧
  (∀ (z : State) (l : Nat), (z.lstate (homeLane l) ≠ 5 → homePhys z l = homeLane l) ∧
    (z.lstate (homeLane l) = 5 → (∀ j, j / 5 = l / 5 → j < l → z.lstate (homeLane j) ≠ 5) → z.lstate (6 * (l / 5) + 5) = 3 → homePhys z l = 6 * (l / 5) + 5)) ∧
  (∀ (z u : State) (m : LaneMove), curMove z = some m → u = planLatch z m → u.rd Reg.LANE_MAP.phys m.l = low Reg.LANE_MAP.phys.width m.b ∧
    u.on Reg.LANE_MAP.moved m.l = (m.b != homeLane m.l) ∧ u.ln.moves = { m with step := 6, since := z.clk } :: z.ln.moves.tail ∧
    groupWord u (m.l / 5) = finalWord z m ∧ u.rd Reg.LANE_STATE.loop m.a = 3 ∧ (u.lane m.b).idleTo = z.clk + 8448 * nsU / 100 ∧
    (m.a < 52 → m.b < 52 → m.a ≠ m.b → u.lstate m.b = 2 ∧ u.lstate m.a = (if Tbl.find z.cal.running 0 = some m.a then 4 else 3))) ∧
  ∀ (s σ b : State) (t n : Nat), σ = s.at t → b = bootDue σ →
    (¬(n < 52 ∧ (b.lane n).called = true ∧ b.rd Reg.MODE_CUR.power = 0) → exec (.laneBringupStart t n) s = .next b) ∧
    (n < 52 → (b.lane n).called = true → b.rd Reg.MODE_CUR.power = 0 → exec (.laneBringupStart t n) s = .next (laneStart b n)) ∧
    (∀ c p ts, (¬(n < 52 ∧ b.lstate n = 1) → exec (.laneReady t n c p ts) s = .next b) ∧
      (n < 52 → b.lstate n = 1 → exec (.laneReady t n c p ts) s = .next (laneReady b n c p ts))) ∧
    (52 ≤ n → exec (.blockLockLoss t n) s = .next σ) ∧
    (n < 52 → s.on Reg.LANE_STATE.block_lock n = false → s.lstate n ≠ 1 ∨ (s.lane n).full = false → exec (.blockLockLoss t n) s = .next (lanesCheck σ n)) ∧
    (n < 52 → s.on Reg.LANE_STATE.block_lock n = true → s.lstate n ≠ 5 →
      EndsIn (exec (.blockLockLoss t n) s) (fun x => lanesCheck (match logicalOn x n with | some l => linksDown x l | none => x) n) (fun u =>
        u.lstate n = 1 ∧ u.on Reg.LANE_STATE.block_lock n = false ∧ u.pair.faults = s.pair.faults + 1 ∧
        u.lane n = { s.lane n with full := false, called := true } ∧
        u.rd Reg.LANE_STATE.restarts n = sat Reg.LANE_STATE.restarts.width (s.rd Reg.LANE_STATE.restarts n + 1) ∧
        u.rd Reg.LANE_ERR.lock_loss n = sat Reg.LANE_ERR.lock_loss.width (s.rd Reg.LANE_ERR.lock_loss n + 1) ∧
        u.rd Reg.LANE_ERR.hdr_err n = sat Reg.LANE_ERR.hdr_err.width (s.rd Reg.LANE_ERR.hdr_err n + 16))) ∧
    (∀ fs y, n < 52 → s.on Reg.LANE_STATE.block_lock n = false → s.lstate n = 1 → (s.lane n).full = true →
      fs = (σ.clk :: (s.lane n).fails).filter (fun a => decide (σ.clk ≤ a + 10 * secU)) → y = σ.setLane n { s.lane n with fails := fs } →
      (3 ≤ fs.length → exec (.blockLockLoss t n) s = .next (lanesCheck (laneRetire y n) n)) ∧
      (fs.length < 3 → EndsIn (exec (.blockLockLoss t n) s) (fun x => lanesCheck x n) (fun u => u.lane n = { s.lane n with fails := fs, called := true } ∧
        (∀ k, k ≠ n → u.lane k = s.lane k) ∧ u = { σ with ln := { s.ln with lanes := u.ln.lanes } }))) ∧
    (∀ m, curMove b = some m →
      (m.planned = true → m.step = 2 → Ends (exec (.laneSwitchShiftComplete t) s) (fun u =>
        u.ln.moves = { m with step := 4, since := b.clk } :: b.ln.moves.tail ∧ groupWord u (m.l / 5) = bridgeWord b m ∧
        (∃ w, u.out = .laneShift w :: .ball .hlSwLat true :: b.out) ∧ u = { b with ln := u.ln, out := u.out })) ∧
      (m.planned = true → m.step = 4 → Ends (exec (.laneSwitchShiftComplete t) s) (fun u =>
        u.ln.moves = { m with step := 5, since := b.clk } :: b.ln.moves.tail ∧ u = { b with ln := { b.ln with moves := u.ln.moves } })) ∧
      (m.planned = false → m.step = 4 →
        EndsIn (exec (.laneSwitchShiftComplete t) s) (fun x => setMove (linksUp x m.l) { m with step := 6, since := b.clk }) (fun u =>
          groupWord u (m.l / 5) = finalWord b m ∧ u.rd Reg.LANE_MAP.phys m.l = low Reg.LANE_MAP.phys.width m.b ∧
          (m.a < 52 → m.b < 52 → m.a ≠ m.b → u.lstate m.b = 2 ∧ u.lstate m.a = 5))) ∧
      (¬(m.planned = true ∧ m.step = 2) → m.step ≠ 4 → exec (.laneSwitchShiftComplete t) s = .next b)) ∧
    (curMove b = none →
      (b.ln.boot = 1 → EndsIn (exec (.laneSwitchShiftComplete t) s) bootShift (fun u => u.ln = { b.ln with boot := 2, words := b.ln.shifted } ∧
        u.out = .ball .hlSwLat true :: b.out ∧ (∀ k, k < 48 → b.lstate k ≠ 5 → u.rd Reg.LANE_STATE.loop k = 3) ∧
        OnlyRegs { b with ln := u.ln, out := u.out } u ((List.range 48).map (fun k => Reg.LANE_STATE.loop.key k)))) ∧
      (b.ln.boot = 3 → exec (.laneSwitchShiftComplete t) s = .next (sparesWait (homeMap (b.emit (.ball .hlSwLat true))))) ∧
      (b.ln.boot ≠ 1 → b.ln.boot ≠ 3 → exec (.laneSwitchShiftComplete t) s = .next b)) ∧
    (hostOpen s = false ∨ 40 ≤ n → exec (.laneMove t n) s = .next σ) ∧
    (hostOpen s = false ∨ 52 ≤ n → exec (.laneRetire t n) s = .next (lanesCheck σ n) ∧ exec (.laneRestore t n) s = .next σ) ∧
    (hostOpen s = true → n < 40 → ¬(s.lstate (physLane s n) = 2 ∧ moving s n = false ∧ ∃ x, freeSpare s n = some x) → Ends (exec (.laneMove t n) s) (fun u =>
      u.rd Reg.LANE_CMD_RESULT.cmd_result = 2 ∧ OnlyRegs σ u [Reg.LANE_CMD_RESULT.cmd_result.key 0])) ∧
    (∀ x, hostOpen s = true → n < 40 → s.lstate (physLane s n) = 2 → moving s n = false → freeSpare s n = some x →
      EndsIn (exec (.laneMove t n) s) (fun z => if s.ln.moves = [] then moveBegin z else z) (fun u => u.rd Reg.LANE_CMD_RESULT.cmd_result = 3 ∧
        u.ln.moves = s.ln.moves ++ [LaneMove.mk n (physLane s n) x 0 true σ.clk true] ∧
        OnlyRegs { σ with ln := { s.ln with moves := u.ln.moves } } u [Reg.LANE_CMD_RESULT.cmd_result.key 0])) ∧
    (hostOpen s = true → n < 52 → s.lstate n = 5 → EndsIn (exec (.laneRetire t n) s) (fun x => lanesCheck x n) (fun u =>
      u.rd Reg.LANE_CMD_RESULT.cmd_result = 2 ∧ OnlyRegs σ u [Reg.LANE_CMD_RESULT.cmd_result.key 0])) ∧
    (hostOpen s = true → n < 52 → s.lstate n ≠ 5 → EndsIn (exec (.laneRetire t n) s) (fun x => lanesCheck x n) (fun u =>
      u.rd Reg.LANE_CMD_RESULT.cmd_result = 1 ∧ OnlyRegs (laneRetire σ n) u [Reg.LANE_CMD_RESULT.cmd_result.key 0])) ∧
    (hostOpen s = true → n < 52 → s.lstate n ≠ 5 → Ends (exec (.laneRestore t n) s) (fun u => u.rd Reg.LANE_CMD_RESULT.cmd_result = 2 ∧
      OnlyRegs σ u [Reg.LANE_CMD_RESULT.cmd_result.key 0])) ∧
    (hostOpen s = true → n < 52 → s.lstate n = 5 → Ends (exec (.laneRestore t n) s) (fun u => u.rd Reg.LANE_CMD_RESULT.cmd_result = 1 ∧ u.lstate n = 0 ∧
      (n < 48 → u.rd Reg.LANE_STATE.loop n = 3) ∧
      (∀ l, n < 48 → logicalOn s n = some l → groupWord u (n / 6) = setSrc (groupWord s (n / 6)) (l % 5) 7 ∧ ∃ w, u.out = .ball .hlSwLat true :: .laneShift w :: s.out) ∧
      (48 ≤ n ∨ logicalOn s n = none → u.out = s.out ∧ u.ln.words = s.ln.words) ∧
      u.lane n = { Lane.reset with called := true, proving := decide (n < 48) } ∧ u.fl = (repairDrop σ repLane n).fl ∧
      OnlyRegs { σ with ln := u.ln, fl := u.fl, out := u.out } u [Reg.LANE_CMD_RESULT.cmd_result.key 0, Reg.LANE_STATE.lstate.key n, Reg.LANE_STATE.loop.key n,
        Reg.LANE_STATUS.twin_up.key 0, Reg.LANE_STATUS.hl_spares.key 0, Reg.LANE_STATUS.hl_retired.key 0])) ∧
    ((∀ m, curMove s = some m → m.step ≠ 6 ∨ σ.clk < m.since + 2 * usU) → exec (.laneSwitchVerifyTimeout t) s = .next σ) ∧
    (∀ m v, curMove s = some m → m.step = 6 → m.since + 2 * usU ≤ σ.clk → v = (s.lane m.b).verify + 1 →
      EndsIn (exec (.laneSwitchVerifyTimeout t) s)
        (fun x => let x := x.event 0x0A01 (chLane m.b) 0 m.l 0; moveEnd (if 2 ≤ v then laneRetire x m.b else x) 2) (fun u =>
        u.rd Reg.LANE_MAP.phys m.l = low Reg.LANE_MAP.phys.width m.a ∧ u.on Reg.LANE_MAP.moved m.l = (m.a != homeLane m.l) ∧
        groupWord u (m.l / 5) = s.ln.prev ∧ (∃ w es, u.out = es ++ .ball .hlSwLat true :: .laneShift w :: s.out) ∧ (u.lane m.b).verify = v ∧ u.lstate m.b = 3 ∧ u.rd Reg.LANE_STATE.loop m.b = 3 ∧ u.on Reg.PRBS_CTRL.gen_en m.b = true ∧
        (m.a < 52 → m.b < 52 → m.a ≠ m.b → s.lstate m.a = 3 ∨ s.lstate m.a = 4 → u.lstate m.a = 2 ∧ u.rd Reg.LANE_STATE.loop m.a = 0 ∧ u.on Reg.PRBS_CTRL.gen_en m.a = false) ∧
        u.rd Reg.LANE_FRAME_ERR.switch_err m.b = sat Reg.LANE_FRAME_ERR.switch_err.width (s.rd Reg.LANE_FRAME_ERR.switch_err m.b + 1))) ∧
    ((∀ m, curMove s = some m → m.planned = false ∨ m.step ≠ 5 ∨ σ.clk < m.since + 100 * usU) → exec (.laneMoveReleaseWaitExpiry t) s = .next σ) ∧
    (∀ m, curMove s = some m → m.planned = true → m.step = 5 → m.since + 100 * usU ≤ σ.clk → exec (.laneMoveReleaseWaitExpiry t) s = .next (planLatch σ m)) ∧
    (52 ≤ n ∨ carriesTraffic s n = true ∨ s.on Reg.PRBS_CTRL.gen_en n = false → exec (.prbsInjectOnce t n) s = .next σ) ∧
    (∀ c, (c = .prbsInjectOnce t n ∧ carriesTraffic s n = false) ∨ (c = .prbsInjectPeriodic t n ∧ s.rd Reg.PRBS_CTRL.inj_period n ≠ 0) →
      n < 52 → s.on Reg.PRBS_CTRL.gen_en n = true → Ends (exec c s) (fun u => u.out = .prbsError n :: s.out ∧
        u.rd Reg.PRBS_ERR.prbs_err n =
          (if s.rd Reg.LANE_STATE.loop n ≠ 0 ∧ s.on Reg.PRBS_CTRL.chk_en n = true ∧ s.on Reg.PRBS_CTRL.chk_sync n = true then
            sat Reg.PRBS_ERR.prbs_err.width (s.rd Reg.PRBS_ERR.prbs_err n + 1) else s.rd Reg.PRBS_ERR.prbs_err n) ∧
        OnlyRegs { σ with out := u.out } u [Reg.PRBS_ERR.prbs_err.key n])) ∧
    (52 ≤ n ∨ s.on Reg.PRBS_CTRL.gen_en n = false ∨ s.rd Reg.PRBS_CTRL.inj_period n = 0 → exec (.prbsInjectPeriodic t n) s = .next σ) ∧
    (∀ e, 52 ≤ n ∨ s.on Reg.PRBS_CTRL.chk_en n = false → exec (.prbsErrorLimit t n e) s = .next σ) ∧
    (∀ e, n < 52 → s.on Reg.PRBS_CTRL.chk_en n = true →
      EndsIn (exec (.prbsErrorLimit t n e) s) (fun x => if 16 < e ∧ n < 48 ∧ s.lstate n = 3 then
          recalDue (x.setLane n { s.lane n with isOver := true }) 0 n reasonQuality else x) (fun u =>
        u.rd Reg.PRBS_ERR.prbs_err n = sat Reg.PRBS_ERR.prbs_err.width (s.rd Reg.PRBS_ERR.prbs_err n + e) ∧ OnlyRegs σ u [Reg.PRBS_ERR.prbs_err.key n])) ∧
    (52 ≤ n ∨ s.on Reg.PRBS_CTRL.chk_en n = false ∨ s.on Reg.PRBS_CTRL.chk_sync n = true → exec (.prbsCheckerSync t n) s = .next σ) ∧
    (n < 52 → s.on Reg.PRBS_CTRL.chk_en n = true → s.on Reg.PRBS_CTRL.chk_sync n = false → Ends (exec (.prbsCheckerSync t n) s) (fun u =>
      u.on Reg.PRBS_CTRL.chk_sync n = true ∧ u.lane n = { s.lane n with chkAt := some σ.clk } ∧
      OnlyRegs { σ with ln := u.ln } u [Reg.PRBS_CTRL.chk_sync.key n])) ∧
    (∀ w h, 52 ≤ n ∨ s.on Reg.LANE_STATE.block_lock n = false → exec (.eyeMeasurement t n w h) s = .next σ) ∧
    (∀ w h c ok y, n < 52 → s.on Reg.LANE_STATE.block_lock n = true → c = laneUnit n →
      ok = (decide (s.rd Reg.CL_Q_LIMITS.eye_w_min ≤ w) && decide (2 * s.rd Reg.CL_Q_LIMITS.eye_h_min ≤ h)) →
      y = σ.setQuality c.1 c.2 { s.quality c.1 c.2 with a1 := low 16 w, a0 := low 16 h } →
      ((s.lane n).proving = true → s.lstate n = 6 → exec (.eyeMeasurement t n w h) s =
        .next (if ok then laneStandby (y.setLane n { s.lane n with proving := false }) n else laneRetire y n)) ∧
      (¬((s.lane n).proving = true ∧ s.lstate n = 6) → exec (.eyeMeasurement t n w h) s = .next (if ok then y else recalDue y c.1 c.2 reasonQuality)))

/-- The twin link and the end of RELOAD. A set whose check fails, or whose sync header does, is counted and does nothing else, and outside a pair sets and records do nothing. TWIN_HB takes what the partner says of its role, mode, sync and fitness; heartbeats missed are counted; at the end of RELOAD one from an active partner makes this device the standby, else 10 ms without one at the primary, or 200 ms without any at the secondary, make it active. Credits granted let queued records go; TWIN_ACK empties the replay buffer up to its sequence, TWIN_NAK sends again from it, before all else and as lanes have credits, counted in `rec_retx`; a heartbeat with nothing left to send is followed by TWIN_IDLE (log 135); a record in order returns its credits and applies, one already seen returns them, and one beyond a gap is asked for again, or after 20 µs taken as it is with sync lost. TWIN_FAIL of an active device in sync confirms the takeover. Silence of 4 µs, or fewer than 3 lanes, loses the link, with event 0x0B01, and ends a handover that waits. RELOAD_END trains the Stacks, where every failing lane has a redundant one, starts the loops the image has (log 131), and the Scribes; a failing lane left without one keeps the device in RELOAD with cause 0x6. -/
def Obligations.TwinLink : Prop :=
  (∀ (z u : State) (lane seq : Nat) (r : TwinRec), u = recordOut z lane seq r → u.out = .twinRecord lane seq r (recordWire seq r) :: z.out ∧
    u.led = (z.ledMove (Led.creditsAvailable lane) (Led.creditsUsed lane) r.credits).led ∧ u = { z with out := u.out, led := u.led }) ∧
  (∀ (seq : Nat) (r : TwinRec) (b : List Byte), b = recordWire seq r → b.take 8 = leBytes 1 r.code ++ leBytes 1 0 ++ leBytes 2 r.body.length ++ leBytes 4 seq ∧
    (b.drop 8).take r.body.length = r.body ∧ b.drop (8 + r.body.length) = leBytes 4 (crc32 (b.take (8 + r.body.length)))) ∧
  (∀ (z : State) (n seq : Nat) (r : TwinRec) (rs : List (Nat × TwinRec)), z.pair.again = (seq, r) :: rs →
    (recordLane z r = none → twinPump n z = z) ∧
    (∀ l, recordLane z r = some l →
      twinPump (n + 1) z = twinPump n ((recordOut { z with pair := { z.pair with again := rs } } l seq r).count Reg.PAIR_TWIN.rec_retx))) ∧
  (∀ (z : State), (z.on Reg.PAIR_CFG.pair_en = true → reloadPair z = { z with pair := { z.pair with reloadEnd := some z.clk, seen := false } }) ∧
    (z.on Reg.PAIR_CFG.pair_en = false → reloadPair z = goIdle z) ∧
    ∃ w : State, goIdle z = linksGo (moveMode w modeIdle causeReset 0) ∧ w.role = (if z.on Reg.PAIR_CFG.pair_en then roleActive else 0) ∧
      w.pair = { z.pair with reloadEnd := none } ∧ OnlyRegs { z with pair := w.pair, out := w.out } w [Reg.PAIR_STATUS.role_now.key 0]) ∧
  ∀ (s σ : State) (t lane w : Nat), σ = s.at t →
    (∀ c seq, c ∈ [Instr.twinCredit t lane w, .twinAck t lane w, .twinNak t lane w, .twinFail t lane w, .twinHbSend t, .twinAckSend t] →
      s.on Reg.PAIR_CFG.pair_en = false → exec c s = .next σ ∧ (∀ al, exec (.twinHb t lane w al) s = .next σ.lineEnd) ∧
        ∀ good r, exec (.twinRecordReceive t lane seq good r) s = .next σ.lineEnd) ∧
    (∀ c, c ∈ [Instr.twinCredit t lane w, .twinAck t lane w, .twinNak t lane w, .twinFail t lane w] → s.on Reg.PAIR_CFG.pair_en = true → 2 ^ 64 ≤ w →
      exec c s = .next (σ.count Reg.LANE_ERR.hdr_err lane) ∧ ∀ al, exec (.twinHb t lane w al) s = .next (σ.count Reg.LANE_ERR.hdr_err lane).lineEnd) ∧
    (2 ^ 64 ≤ w → exec (.twinLevel t lane w) s = .next (σ.count Reg.LANE_ERR.hdr_err lane)) ∧
    (∀ c ty, (c, ty) ∈ [(Instr.twinCredit t lane w, osTwinCredit), (.twinAck t lane w, osTwinAck), (.twinNak t lane w, osTwinNak), (.twinFail t lane w, osTwinFail)] →
      s.on Reg.PAIR_CFG.pair_en = true → w < 2 ^ 64 → backSet ty w = none → Ends (exec c s) (fun u =>
        u.rd Reg.LANE_ERR.os_err lane = sat 8 (s.rd Reg.LANE_ERR.os_err lane + 1) ∧ OnlyRegs σ u [Reg.LANE_ERR.os_err.key lane])) ∧
    (∀ al, s.on Reg.PAIR_CFG.pair_en = true → w < 2 ^ 64 → backSet osTwinHb w = none → EndsIn (exec (.twinHb t lane w al) s) State.lineEnd (fun u =>
      u.rd Reg.LANE_ERR.os_err lane = sat 8 (s.rd Reg.LANE_ERR.os_err lane + 1) ∧ OnlyRegs σ u [Reg.LANE_ERR.os_err.key lane])) ∧
    (∀ al f role mode missed (back : Bool), s.on Reg.PAIR_CFG.pair_en = true → w < 2 ^ 64 → backSet osTwinHb w = some f → role = bits f 46 2 → mode = bits f 42 4 →
      missed = (match s.pair.heardAt with | some a => (σ.clk - a) / usU - 1 | none => 0) →
      back = (s.on Reg.PAIR_STATUS.twin_lost && decide (3 ≤ (twinLanes s).length)) →
      EndsIn (exec (.twinHb t lane w al) s) (fun x =>
          let x := if back then loseSync x else x
          (handCheck (if x.mode = modeReload ∧ x.pair.reloadEnd.isSome = true ∧ role = roleActive ∧ x.on Reg.PAIR_STATUS.role_clash = false then
            resyncStart (enterShadow { x with pair := { x.pair with reloadEnd := none } } mode causeReset)
          else showFlags x)).lineEnd) (fun u =>
        u.rd Reg.PAIR_TWIN.hb_miss = (if missed = 0 then s.rd Reg.PAIR_TWIN.hb_miss else
          sat Reg.PAIR_TWIN.hb_miss.width (s.rd Reg.PAIR_TWIN.hb_miss + missed)) ∧
        u.pair = { s.pair with heardAt := some σ.clk, heardRole := role, heardSync := bit f 41, heardFit := bit f 40, seen := true,
                               syncAtHb := s.on Reg.PAIR_STATUS.in_sync, watch := (if s.pair.watch = 1 then 0 else s.pair.watch) } ∧
        u.md.heard = (if role = roleActive then mode else s.md.heard) ∧ u.on Reg.PAIR_STATUS.partner_seen = true ∧
        u.rd Reg.PAIR_STATUS.partner_mode = mode ∧ u.rd Reg.MODE_CUR.shadow_of =
          (if s.mode = modeShadow ∧ role = roleActive ∧ mode ≠ s.md.heard then mode else s.rd Reg.MODE_CUR.shadow_of) ∧
        (al = true → u.on Reg.PAIR_STATUS.role_clash = true) ∧ u.on Reg.PAIR_STATUS.twin_lost = (s.on Reg.PAIR_STATUS.twin_lost && !back) ∧
        OnlyRegs { σ with pair := u.pair, md := u.md } u [Reg.PAIR_TWIN.hb_miss.key 0, Reg.PAIR_STATUS.partner_seen.key 0,
          Reg.PAIR_STATUS.partner_mode.key 0, Reg.MODE_CUR.shadow_of.key 0, Reg.PAIR_STATUS.role_clash.key 0, Reg.PAIR_STATUS.twin_lost.key 0])) ∧
    (∀ h, s.on Reg.PAIR_CFG.pair_en = true → h = orderedSetWord osTwinHb ((if s.role = roleActive then 1 else 2) * 2 ^ 46 + s.mode * 2 ^ 42 +
        s.rd Reg.PAIR_STATUS.in_sync * 2 ^ 41 + s.rd Reg.PAIR_STATUS.self_fit * 2 ^ 40 + s.pair.hbSeq % 2 ^ 32 * 256) →
      EndsIn (exec (.twinHbSend t) s) (fun x =>
          let x := x.twinPump
          if x.pair.again = [] ∧ x.pair.live = [] ∧ x.pair.resync = [] then twinSet x osTwinIdle 0 else x) (fun u => u.out = ((twinLanes s).map (fun n => Emit.twinSet n h)).reverse ++ s.out ∧
        u.pair = { s.pair with hbSeq := (s.pair.hbSeq + 1) % 2 ^ 32 } ∧ u = { σ with out := u.out, pair := u.pair })) ∧
    (∀ f, s.on Reg.PAIR_CFG.pair_en = true → w < 2 ^ 64 → backSet osTwinCredit w = some f → exec (.twinCredit t lane w) s =
      .next ((σ.ledAdd (Led.creditsGranted lane) (bits f 32 16)).ledAdd (Led.creditsAvailable lane) (bits f 32 16)).twinPump) ∧
    (∀ f, s.on Reg.PAIR_CFG.pair_en = true → w < 2 ^ 64 → backSet osTwinAck w = some f → Ends (exec (.twinAck t lane w) s) (fun u =>
      u.pair = { s.pair with
        replay := s.pair.replay.filter (fun r => decide (2 ^ 31 ≤ diff32 (bits f 16 32) r.1))
        again := s.pair.again.filter (fun r => decide (2 ^ 31 ≤ diff32 (bits f 16 32) r.1)) } ∧
      OnlyRegs { σ with pair := u.pair } u [Reg.PAIR_SYNC.backlog_kib.key 0])) ∧
    (∀ f again, s.on Reg.PAIR_CFG.pair_en = true → w < 2 ^ 64 → backSet osTwinNak w = some f →
      again = s.pair.replay.filter (fun r => decide (diff32 r.1 (bits f 16 32) < 2 ^ 31)) →
      exec (.twinNak t lane w) s = .next ({ σ with pair := { s.pair with again := again } }).twinPump) ∧
    (∀ f, s.on Reg.PAIR_CFG.pair_en = true → w < 2 ^ 64 → backSet osTwinFail w = some f →
      (s.role ≠ roleStandby → exec (.twinFail t lane w) s = .next σ) ∧
      (s.role = roleStandby → s.pair.syncAtHb = true → exec (.twinFail t lane w) s = .next { σ with pair := { s.pair with watch := 2 } }) ∧
      (s.role = roleStandby → s.pair.syncAtHb = false → exec (.twinFail t lane w) s = .next (loseSync (σ.event 0x0B04 noChan 0 0 0)))) ∧
    (s.on Reg.PAIR_CFG.pair_en = false → EndsIn (exec (.twinHbTimeout t) s) handCheck (fun u =>
      u.on Reg.PAIR_STATUS.partner_seen = (s.on Reg.PAIR_STATUS.partner_seen && !silent σ) ∧ OnlyRegs σ u [Reg.PAIR_STATUS.partner_seen.key 0])) ∧
    (∀ begins lost, s.on Reg.PAIR_CFG.pair_en = true → begins = (silent σ && s.on Reg.PAIR_STATUS.partner_seen) →
      lost = (!s.on Reg.PAIR_STATUS.twin_lost && (silent σ || decide ((twinLanes s).length < 3))) →
      EndsIn (exec (.twinHbTimeout t) s) (fun x =>
          let x := if lost then x.event 0x0B01 noChan 0 ((twinLanes s).foldl (fun m n => m + 2 ^ (n - 48)) 0) 0 else x
          handCheck (if x.role ≠ roleStandby then (if lost then showFlags x else x)
            else if begins && x.pair.syncAtHb then { x with pair := { x.pair with watch := 1 } }
            else if begins then loseSync (x.event 0x0B04 noChan 0 0 0)
            else if lost then loseSync x else x))
        (fun u => u.on Reg.PAIR_STATUS.twin_lost = (s.on Reg.PAIR_STATUS.twin_lost || lost) ∧
          u.on Reg.PAIR_STATUS.partner_seen = (s.on Reg.PAIR_STATUS.partner_seen && !silent σ) ∧
          OnlyRegs σ u [Reg.PAIR_STATUS.twin_lost.key 0, Reg.PAIR_STATUS.partner_seen.key 0])) ∧
    (∀ seq good r y since, s.on Reg.PAIR_CFG.pair_en = true → y = (if good then σ else σ.count Reg.LANE_FRAME_ERR.frame_err lane).emit (.twinSet lane (orderedSetWord osTwinCredit (r.credits * 2 ^ 32))) →
      since = (match s.pair.nak with | some (q, a) => if q = s.pair.seqIn then a else σ.clk | none => σ.clk) →
      (good = true → seq = s.pair.seqIn → EndsIn (exec (.twinRecordReceive t lane seq good r) s)
        (fun x => let x := applyRecord x r; (if 64 ≤ x.pair.unacked then twinAck x else x).lineEnd)
        (fun u => u = { y with pair := { s.pair with seqIn := (seq + 1) % 2 ^ 32, unacked := s.pair.unacked + 1, nak := none } })) ∧
      (good = true → 0 < diff32 s.pair.seqIn seq → diff32 s.pair.seqIn seq < 2 ^ 31 → seq ≠ s.pair.seqIn →
        exec (.twinRecordReceive t lane seq good r) s = .next y.lineEnd) ∧
      (good = true → seq ≠ s.pair.seqIn → ¬(0 < diff32 s.pair.seqIn seq ∧ diff32 s.pair.seqIn seq < 2 ^ 31) → since + 20 * usU ≤ σ.clk →
        EndsIn (exec (.twinRecordReceive t lane seq good r) s) (fun x => (applyRecord (loseSync x) r).lineEnd)
          (fun u => u = { y with pair := { s.pair with seqIn := (seq + 1) % 2 ^ 32, nak := none, lost := true } })) ∧
      (good = false ∨ (seq ≠ s.pair.seqIn ∧ ¬(0 < diff32 s.pair.seqIn seq ∧ diff32 s.pair.seqIn seq < 2 ^ 31) ∧ σ.clk < since + 20 * usU) →
        EndsIn (exec (.twinRecordReceive t lane seq good r) s) State.lineEnd (fun u =>
          u.out = ((twinLanes s).map (fun n => Emit.twinSet n (orderedSetWord osTwinNak (s.pair.seqIn % 2 ^ 32 * 2 ^ 16)))).reverse ++ y.out ∧
          u.pair = { s.pair with nak := some (s.pair.seqIn, since) } ∧ u = { y with out := u.out, pair := u.pair }))) ∧
    (s.on Reg.PAIR_CFG.pair_en = true → Ends (exec (.twinAckSend t) s) (fun u => u.pair = { s.pair with unacked := 0 } ∧
      u.out = ((twinLanes s).map (fun n => Emit.twinSet n (orderedSetWord osTwinAck ((s.pair.seqIn + 2 ^ 32 - 1) % 2 ^ 32 * 2 ^ 16)))).reverse ++ s.out ∧
      u = { σ with pair := u.pair, out := u.out })) ∧
    (w < 2 ^ 64 → backSet osTwinLevel w = none → Ends (exec (.twinLevel t lane w) s) (fun u =>
      u.rd Reg.LANE_ERR.os_err lane = sat 8 (s.rd Reg.LANE_ERR.os_err lane + 1) ∧ OnlyRegs σ u [Reg.LANE_ERR.os_err.key lane])) ∧
    (∀ f, w < 2 ^ 64 → backSet osTwinLevel w = some f → exec (.twinLevel t lane w) s = .next (peerTake σ 2 (bits f 24 24) (bits f 0 24))) ∧
    (∀ h, h = ownHeader s → Ends (exec (.twinLevelSend t) s) (fun u => u = { σ with out := u.out } ∧
      u.out = ((twinLanes s).map (fun n => Emit.twinSet n (orderedSetWord osTwinLevel (imgPair h * 2 ^ 24 + imgVer h % 2 ^ 24)))).reverse ++ s.out)) ∧
    (s.mode ≠ modeReload ∨ s.fl.cause = 0 ∨ s.fl.resetAsk ≠ none ∨ s.pair.reloadEnd ≠ none ∨ s.st.trainBad = true → exec (.reloadEnd t) s = .next σ.settle) ∧
    (∀ y, s.mode = modeReload → s.fl.cause ≠ 0 → s.fl.resetAsk = none → s.pair.reloadEnd = none → s.st.trainBad = false →
      y = (if s.fl.bootAt.isSome && !s.fl.noImage then bootRun σ else σ) →
      (y.fl.bootAt ≠ none → exec (.reloadEnd t) s = .next y.settle) ∧
      (y.fl.bootAt = none → (lanesFix y).st.laneBad ≠ [] → EndsIn (exec (.reloadEnd t) s) State.settle (fun u =>
        u.st = { (lanesFix y).st with trainBad := true, trainPos := 0, codes := u.st.codes } ∧ u.rd Reg.MODE_CUR.cause = causeHbm ∧
        OnlyRegs { lanesFix y with st := u.st, freeN := u.freeN } u [Reg.MODE_CUR.cause.key 0])) ∧
      (y.fl.bootAt = none → (lanesFix y).st.laneBad = [] → EndsIn (exec (.reloadEnd t) s)
        (fun x => let x := groupsWake (scribesStart x); (reloadPair (windowStart { x with fl := { x.fl with cause := 0 } })).settle)
        (fun u => u.on Reg.MEM_STATUS.trained = true ∧ u.on Reg.CL_CTRL.loops_run = Config.imageLoops (y.rd Reg.LX_FW_VER.fw_version) ∧
          u.st = { (lanesFix y).st with trainPos := 0, codes := u.st.codes } ∧ (y.fl.cause = 1 → ∀ k, k < 64 → (Tbl.get [] u.st.codes k).length = 36) ∧
          OnlyRegs { lanesFix y with st := u.st, freeN := u.freeN } u [Reg.MEM_STATUS.trained.key 0, Reg.CL_CTRL.loops_run.key 0]))) ∧
    (∀ c due, (c, due) ∈ [(Instr.activeHeartbeatWaitExpiry t, s.primary && (match s.pair.reloadEnd with | some a => decide (a + 10 * msU ≤ σ.clk) | none => false)),
        (.secondaryWaitExpiry t, !s.primary && !s.pair.seen && (match s.pair.reloadEnd with | some a => decide (a + 200 * msU ≤ σ.clk) | none => false))] →
      (s.mode ≠ modeReload ∨ s.on Reg.PAIR_STATUS.role_clash = true ∨ due = false → exec c s = .next σ.lineEnd) ∧
      (s.mode = modeReload → s.on Reg.PAIR_STATUS.role_clash = false → due = true → exec c s = .next (goIdle σ).lineEnd))

/-- The records of a pair, at the standby and at the active device. Outside a pair none does anything, and at a device that is not the standby PAGE, SUBST, BANK, ENTRY, SETPOINT, MODE and HANDOVER do nothing. STACKS_WRITE writes mirrored places and the Reading Room; PAGE joins the queue unless it is there, and sets W0; SUBST and ENTRY take effect at the line named, and one that is late loses sync; BANK writes trims; SETPOINT sets the period, and each axis to the least position that gives its set-point, with the speed and acceleration of the period; MODE sets `shadow_of`, cause, S and the step of REWIND; HEALTH is shown and its flags taken; HANDOVER is kept for T, unless T has passed; SYNC_MARK 0x1 makes the active device send all of a resync, 0x2 marks it complete, and the PAGE, SUBST and MODE records of it that waited are taken. HEALTH_SEND shows and sends this device's record. RESYNC_COMPLETE gives sync where every condition holds, and loses it in SHADOW where one does not. A shadow line not acknowledged within 50 µs is withheld in the reconstruction, one taken over is skipped. -/
def Obligations.PairRecords : Prop :=
  (∀ (z : State) (a first : Nat) w0, z.role = roleStandby → z.pair.marked = false →
    recPage z a first w0 = { z with pair := { z.pair with held := z.pair.held ++ [.page a first w0] } }) ∧
  (∀ (z : State) (a first : Nat), z.role = roleStandby → z.pair.marked = true →
    ((∃ p, p ∈ z.la.pages ∧ p.addr = a ∧ p.first - p.base = first) → recPage z a first none = z ∧ ∀ pos, recPage z a first (some pos) = placeLines z pos) ∧
    ((∀ p, p ∈ z.la.pages → p.addr = a → p.first - p.base ≠ first) → z.la.jobs ≠ [] →
      recPage z a first none = (pageQueue z a first).1 ∧ ∀ pos, recPage z a first (some pos) = placeLines (pageQueue z a first).1 pos) ∧
    ((∀ p, p ∈ z.la.pages → p.addr = a → p.first - p.base ≠ first) → z.la.jobs = [] →
      ∃ w : State, w.pair = { z.pair with tally := [] } ∧ recPage z a first none = (pageQueue w a first).1)) ∧
  (∀ (z : State) (pos : Int), (curJob z = none → placeLines z pos = z) ∧
    (∀ j, curJob z = some j → (placeLines z pos).fire.w0 = pos ∧ (placeLines z pos).fire.w0Line = j.base ∧ (placeLines z pos).fire.w0Set = true)) ∧
  (∀ (z u : State) (port period n d : Nat) (bs : List Byte), u = recSetpoint z port period bs → z.role = roleStandby →
    (u.drivePort port).period = period ∧
    (∀ (count dt : Nat) (num den old full wp v a lim : Int), d < 8 → axisAt z port d = some n → count = leNat ((bs.drop (6 * d + 2)).take 4) →
      dt = max 1 (z.ent (chDl port) DlE.servoNs) → num = max 1 (z.ent (chAxis n) AxisE.cntNum : Int) → den = z.ent (chAxis n) AxisE.cntDen →
      old = ((z.axis n).wp + (z.axis n).shift) * num / max 1 den → full = old + signed 32 (unsigned 32 ((count : Int) - old)) →
      wp = -(-full * den / num) - (z.axis n).shift → v = (wp - (z.axis n).wp) * 1000000000000 / (65536 * (dt : Int)) →
      a = (v * unitV - (z.axis n).v) * 62500000 / (dt : Int) → lim = z.ent (chAxis n) AxisE.aMax * unitA →
      (u.axis n).p = wp * unitP ∧ (u.axis n).v = v * unitV ∧ (u.axis n).a = (if v = 0 then 0 else max (-lim) (min lim a)) ∧
      (u.axis n).sent = count ∧ (u.axis n).sentTo = some (port, d) ∧ (u.axis n).enabled = bit (leNat ((bs.drop (6 * d)).take 2)) 0 ∧
      (u.axis n).goal = (if v = 0 then .still else .speed v))) ∧
  ∀ (s σ : State) (t : Nat), σ = s.at t →
    (∀ a d sub nz sp ln pl bk o tr ebs sn po pe sl m c l st k body ins tags cr kind first hw w0, s.on Reg.PAIR_CFG.pair_en = false →
      exec (.pageRec t a first hw w0) s = .next σ.lineEnd ∧ exec (.modeRec t m c l st k) s = .next σ.lineEnd ∧
      (∀ i, i ∈ [Instr.stacksWrite t a d, .substRec t sub nz sp ln, .bankRec t pl bk o tr, .entryRec t ebs sn, .setpointRec t po pe sl, .healthRec t body,
        .handoverRec t ins tags cr, .syncMark t kind] → exec i s = .next σ)) ∧
    (∀ sub nz sp ln pl bk o tr ebs sn po pe sl m c l st k ins tags cr a first hw w0, s.on Reg.PAIR_CFG.pair_en = true → s.role ≠ roleStandby →
      exec (.pageRec t a first hw w0) s = .next σ.lineEnd ∧ exec (.modeRec t m c l st k) s = .next σ.lineEnd ∧
      (∀ i, i ∈ [Instr.substRec t sub nz sp ln, .bankRec t pl bk o tr, .entryRec t ebs sn, .setpointRec t po pe sl, .handoverRec t ins tags cr] →
        exec i s = .next σ)) ∧
    (∀ a d, s.on Reg.PAIR_CFG.pair_en = true →
      (s.role = roleActive ∨ s.frozen = true ∨ (areaOf a ≠ .readingRoom ∧ mirrored s a = false) → exec (.stacksWrite t a d) s = .next σ) ∧
      (s.role ≠ roleActive → s.frozen = false → areaOf a = .readingRoom ∨ mirrored s a = true → Ends (exec (.stacksWrite t a d) s) (fun u =>
        Wrote s u a d ∧ u = { σ with mem := u.mem }))) ∧
    (∀ a first hw w0, s.on Reg.PAIR_CFG.pair_en = true → s.role = roleStandby →
      exec (.pageRec t a first hw w0) s = .next (recPage σ a first (if hw then some w0 else none)).lineEnd) ∧
    (∀ nz sp ln b, s.on Reg.PAIR_CFG.pair_en = true → s.role = roleStandby → s.pair.marked = false →
      exec (.substRec t b nz sp ln) s = .next { σ with pair := { s.pair with held := s.pair.held ++ [.subst b nz sp ln] } }) ∧
    (∀ nz sp ln late, s.on Reg.PAIR_CFG.pair_en = true → s.role = roleStandby → s.pair.marked = true →
      late = (s.on Reg.LA_STATUS.job_open && decide (absLine s ln < s.fire.refNext)) →
      exec (.substRec t true nz sp ln) s = .next (lateFor (substSet σ nz sp ln).1 late) ∧
      exec (.substRec t false nz sp ln) s = .next (lateFor (substClr σ nz ln).1 late)) ∧
    (∀ (z : State) late, lateFor z late = (if late = true ∧ z.on Reg.PAIR_STATUS.in_sync = true then loseSync z else z)) ∧
    (∀ pl bk o tr, s.on Reg.PAIR_CFG.pair_en = true → s.role = roleStandby → exec (.bankRec t pl bk o tr) s =
      .next (σ.pokeBytes (rrBase + s.ent (chPlane pl) (if bk = 0 then PlaneE.densBase0 else PlaneE.densBase1) + o) tr)) ∧
    (∀ ebs sn ch, s.on Reg.PAIR_CFG.pair_en = true → s.role = roleStandby → ch = HdrE.channel.get ebs →
      (mirroredChan ch = false ∨ ebs.length ≠ 128 → exec (.entryRec t ebs sn) s = .next σ) ∧
      (mirroredChan ch = true → ebs.length = 128 → exec (.entryRec t ebs sn) s =
        .next (lateFor (catLoad (σ.pokeBytes (entryAddr s ch) ebs) ch ebs (some sn)) (decide (0 < sn) && decide (sn < catCount s ch))))) ∧
    (∀ po pe sl, s.on Reg.PAIR_CFG.pair_en = true → s.role = roleStandby → exec (.setpointRec t po pe sl) s = .next (recSetpoint σ po pe sl)) ∧
    (∀ m c l st k g, s.on Reg.PAIR_CFG.pair_en = true → s.role = roleStandby → g = absLine s l → EndsIn (exec (.modeRec t m c l st k) s) State.lineEnd (fun u =>
      u.md = { s.md with lines := (g, m) :: s.md.lines } ∧
      u.pair = { s.pair with held := if s.pair.marked then s.pair.held else s.pair.held ++ [.mode m c l st k] } ∧ u.rd Reg.MODE_CUR.shadow_of = low Reg.MODE_CUR.shadow_of.width m ∧
      u.rd Reg.MODE_CUR.cause = low Reg.MODE_CUR.cause.width c ∧ u.rd Reg.LA_STATUS.rw_step = low Reg.LA_STATUS.rw_step.width k ∧
      u.rd2 Reg.LA_RW_LINE_LO.rw_line_lo Reg.LA_RW_LINE_HI.rw_line_hi = st % 2 ^ (32 + Reg.LA_RW_LINE_HI.rw_line_hi.width) ∧
      u.la.stopFrom = (if (m = modeRewind ∨ m = modeHold) ∧ 1 ≤ k ∧ k ≤ 6 then some (absLine σ (st + 1)) else none) ∧
      u.la.resumeAt = (if 7 ≤ k then absLine σ (st + 1) else s.la.resumeAt) ∧
      OnlyRegs { σ with md := u.md, pair := u.pair, la := { s.la with stopFrom := u.la.stopFrom, resumeAt := u.la.resumeAt } } u [Reg.MODE_CUR.shadow_of.key 0, Reg.MODE_CUR.cause.key 0,
        Reg.LA_RW_LINE_LO.rw_line_lo.key 0, Reg.LA_RW_LINE_HI.rw_line_hi.key 0, Reg.LA_STATUS.rw_step.key 0])) ∧
    (∀ body f, s.on Reg.PAIR_CFG.pair_en = true → f = (body.getD 0 0).toNat → EndsIn (exec (.healthRec t body) s)
      (fun x => showFlags (if f % 4 ≠ s.pair.partnerFlags % 4 then x.event 0x0B02 noChan 0 (hflags x) f else x)) (fun u =>
      (∀ i, i < 8 → u.rd Reg.PAIR_HEALTH_PARTNER.hp i = low 32 (leNat ((body.drop (4 * i)).take 4))) ∧ u.rd Reg.PAIR_STATUS.partner_fit = f % 2 ∧
      u.pair = { s.pair with partnerFlags := f } ∧
      OnlyRegs { σ with pair := u.pair } u (Reg.PAIR_STATUS.partner_fit.key 0 :: (List.range 8).map Reg.PAIR_HEALTH_PARTNER.hp.key))) ∧
    (∀ ins tags cr, s.on Reg.PAIR_CFG.pair_en = true → s.role = roleStandby →
      (ins < σ.devTime → exec (.handoverRec t ins tags cr) s = .next σ) ∧
      (σ.devTime ≤ ins → exec (.handoverRec t ins tags cr) s = .next { σ with pair := { s.pair with handGot := some (ins, tags.zip cr) } })) ∧
    (s.on Reg.PAIR_CFG.pair_en = true →
      (s.role = roleActive → exec (.syncMark t 1) s = .next { σ with pair := { s.pair with resync := resyncRecords σ } }.twinPump) ∧
      (s.role ≠ roleActive → exec (.syncMark t 1) s = .next σ) ∧
      (∀ k, k ≠ 1 → s.role = roleStandby → exec (.syncMark t k) s =
        .next (s.pair.held.foldl takeHeld { σ with pair := { s.pair with marked := true, held := [] } })) ∧
      (∀ k, k ≠ 1 → s.role ≠ roleStandby → exec (.syncMark t k) s = .next σ)) ∧
    (s.on Reg.PAIR_CFG.pair_en = false → exec (.healthSend t) s = .next σ) ∧
    (∀ n y, s.on Reg.PAIR_CFG.pair_en = true → n = s.pair.faults - s.pair.faultsAt →
      y = showFlags { σ with pair := { s.pair with hseq := s.pair.hseq + 1, faultsAt := s.pair.faults, clean := ((n == 0) :: s.pair.clean).take 10 } } →
      EndsIn (exec (.healthSend t) s) State.twinPump (fun u => ∃ body, u.pair = { y.pair with live := y.pair.live ++ [TwinRec.health body] } ∧ body.length = 32 ∧
        (∀ i, i < 8 → u.rd Reg.PAIR_HEALTH_SELF.hs i = leNat ((body.drop (4 * i)).take 4)) ∧ (body.getD 0 0).toNat = hflags y % 256 ∧
        (body.getD 1 0).toNat = y.mode % 256 ∧ OnlyRegs { y with pair := u.pair } u ((List.range 8).map Reg.PAIR_HEALTH_SELF.hs.key))) ∧
    (∀ eq reach,
      (syncHolds σ eq reach = true → EndsIn (exec (.resyncComplete t eq reach) s) showFlags (fun u => u.on Reg.PAIR_STATUS.in_sync = true ∧
        u.pair = { s.pair with synced := true } ∧ OnlyRegs { σ with pair := u.pair } u [Reg.PAIR_STATUS.in_sync.key 0])) ∧
      (syncHolds σ eq reach = false → s.on Reg.PAIR_STATUS.in_sync = true → s.mode = modeShadow → exec (.resyncComplete t eq reach) s = .next (loseSync σ)) ∧
      (syncHolds σ eq reach = false → s.on Reg.PAIR_STATUS.in_sync = false ∨ s.mode ≠ modeShadow → exec (.resyncComplete t eq reach) s = .next σ)) ∧
    (∀ k late, late = (s.slot k).parts.find? (fun q => match q.sosAt with | some a => decide (a + 50 * usU ≤ σ.clk) | none => false) →
      (late = none → exec (.shadowLineTimeout t k) s = .next σ.lineEnd) ∧
      (∀ q, late = some q → s.mode = modeShadow → EndsIn (exec (.shadowLineTimeout t k) s)
        (fun x => (setFate (tallyLine x q.jobIdx k q.plane q.drops Led.linesWithheld Led.dropsWithheld) k q.line fateWithheld).lineEnd)
        (fun u => partOf u k q.line = none ∧ u = dropPart σ k q.line)) ∧
      (∀ q, late = some q → s.mode ≠ modeShadow → q.taken = false → exec (.shadowLineTimeout t k) s = .next σ.lineEnd) ∧
      (∀ q, late = some q → s.mode ≠ modeShadow → q.taken = true → EndsIn (exec (.shadowLineTimeout t k) s)
        (fun x => (markLine (setFate x k q.line fateSkipped) q.line (markSpoilt + causeSwitchover)).lineEnd)
        (fun u => partOf u k q.line = none ∧ Tbl.get 0 u.pair.hoSkipped k = Tbl.get 0 s.pair.hoSkipped k + 1)))

/-- Takeover and planned handover. SWITCHOVER makes the standby active once TWIN_FAIL confirmed it, or silence and every module's STATUS did, unless `role_clash`: it leaves SHADOW for the active device's mode, counts a switchover, and each slot that is up starts its session anew. A planned handover is asked for by PAIR_CMD at the active device of a ready pair, and after the wait to restore, and waits for a mode that allows it; its instant is 200 µs ahead, or the first page at least 200 µs ahead. 20 µs before it each slot's next line and credits go to the partner. At the instant the role moves, or, not acknowledged or in a mode that bars it, the handover is abandoned, as it is when the partner is no longer ready; the partner takes each slot with its credits. The report is written 100 µs after a takeover, at once by the device that gave the press, and posted on ring 0x05. A resync asked for drops lines, pages and jobs and sends SYNC_MARK 0x1. -/
def Obligations.Handover : Prop :=
  (∀ (z : State) (kind m : Nat), m = (if z.rd Reg.MODE_CUR.shadow_of = 0 then modeIdle else z.rd Reg.MODE_CUR.shadow_of) → ∃ w : State,
    becomeActive z kind = heartbeat (showFlags (w.event 0x0B03 noChan 0 kind (w.rd Reg.PAIR_STATUS.switchovers))) ∧
    w.mode = low Reg.MODE_CUR.mode.width m ∧ w.rd Reg.MODE_CUR.cause = causeSwitch ∧ w.role = roleActive ∧ w.on Reg.PAIR_STATUS.in_sync = false ∧
    w.rd Reg.PAIR_STATUS.switchovers = sat 8 (z.rd Reg.PAIR_STATUS.switchovers + 1) ∧ w.fire.silent = false ∧
    w.pair.watch = 0 ∧ w.pair.hoKind = kind ∧ w.pair.hoSide = 1 ∧ w.pair.hoTime = z.devTime ∧ w.pair.reportAt = some z.clk ∧ w.pair.handGot = none ∧
    w.pair.live = [] ∧ w.pair.again = [] ∧ w.pair.held = []) ∧
  (∀ (z : State), ∃ w : State, handOver z = reportWrite (heartbeat (showFlags (w.event 0x0B03 noChan 0 3 (w.rd Reg.PAIR_STATUS.switchovers)))) ∧
    w.mode = modeShadow ∧ w.rd Reg.MODE_CUR.shadow_of = low Reg.MODE_CUR.shadow_of.width z.mode ∧ w.role = roleStandby ∧
    w.on Reg.PAIR_STATUS.in_sync = true ∧ w.rd Reg.PAIR_STATUS.switchovers = sat 8 (z.rd Reg.PAIR_STATUS.switchovers + 1) ∧
    w.pair.hoKind = 3 ∧ w.pair.hoSide = 2 ∧ w.pair.hoTime = z.devTime ∧ w.pair.reportAt = some z.clk ∧ w.pair.synced = true ∧ w.pair.marked = true ∧
    w.pair.handReset = z.pair.handReset ∧ w.pair.handAt = none ∧ w.pair.handLine = none) ∧
  (∀ (z : State), (z.role ≠ roleStandby → loseSync z = z) ∧ (z.role = roleStandby → ∃ w : State, loseSync z = (showFlags w).twinPump ∧
    w.on Reg.PAIR_STATUS.in_sync = false ∧ w.on Reg.LA_STATUS.job_open = false ∧ w.rd Reg.PAIR_SYNC.resyncs = sat 16 (z.rd Reg.PAIR_SYNC.resyncs + 1) ∧
    w.la.pages = [] ∧ w.la.jobs = [] ∧ w.la.changes = [] ∧ w.la.accepted = z.la.endLine ∧ (∀ k, k < 80 → (w.slot k).parts = []) ∧
    w.pair = { z.pair with live := z.pair.live ++ [.syncMark 1], marked := false, held := [], synced := false, lost := false, tally := [] })) ∧
  (∀ (z : State),
    (z.pair.handWait = 0 ∨ z.pair.handAt ≠ none ∨ z.pair.handLine ≠ none ∨ handAllowed z = false → handPlan z = z) ∧
    (z.pair.handWait ≠ 0 → z.pair.handAt = none → z.pair.handLine = none → handAllowed z = true →
      (z.pair.handWait = 2 ∨ z.on Reg.LA_STATUS.job_open = false → handPlan z = { z with pair := { z.pair with handAt := some (z.clk + 200 * usU) } }) ∧
      (z.pair.handWait ≠ 2 → z.on Reg.LA_STATUS.job_open = true → handPage z = none → handPlan z = z) ∧
      (∀ g, z.pair.handWait ≠ 2 → z.on Reg.LA_STATUS.job_open = true → handPage z = some g →
        handPlan z = { z with pair := { z.pair with handLine := some g } }))) ∧
  (∀ (z : State), (z.pair.handWait ≠ 0 ∧ z.role = roleActive ∧ partnerReady z = false → handCheck z = handAbandon z) ∧
    (z.pair.handWait = 0 ∨ z.role ≠ roleActive ∨ partnerReady z = true → handCheck z = handPlan z) ∧
    EndsIn (.next (handAbandon z)) (fun x => if z.pair.handReset then warmBegin (twinFail x 2) 2
        else if z.rd Reg.THERM_STATUS.die_state = 1 then dieWarned x else x)
      (fun u => u.pair = { z.pair with handWait := 0, handAt := none, handLine := none, handSeq := none, handReset := false } ∧
        (∀ k, k < 80 → u.slot k = { z.slot k with handed := none }) ∧ u.regs = z.regs)) ∧
  ∀ (s σ : State) (t : Nat), σ = s.at t →
    (∀ due, due = (s.mode == modeShadow && (s.pair.watch == 2 || (s.pair.watch == 1 && silent σ && othersUnheard s)) && !s.on Reg.PAIR_STATUS.role_clash) →
      (due = false → exec (.switchover t) s = .next σ.lineEnd) ∧
      (due = true → exec (.switchover t) s = .next (slots80.foldl (fun z k =>
        if z.inUse (chSlot k) && linkUp z k then linkInit (z.setSlot k { z.slot k with credits := 0 }) k else z)
          (becomeActive σ (if s.pair.watch = 2 then 2 else 1))).lineEnd)) ∧
    (s.pair.reportAt = none → exec (.handoverReport t) s = .next σ) ∧
    (∀ a y, s.pair.reportAt = some a → y = { σ.pokeBytes (reportBase s) (handoverReport σ) with
        pair := { (σ.pokeBytes (reportBase s) (handoverReport σ)).pair with reportAt := none } } →
      (σ.clk < a + (if s.pair.hoSide = 1 then 100 * usU else 0) → exec (.handoverReport t) s = .next σ) ∧
      (a + (if s.pair.hoSide = 1 then 100 * usU else 0) ≤ σ.clk →
        (y.ringOpen 5 = false → exec (.handoverReport t) s = .next y) ∧
        (y.ringOpen 5 = true → ∃ d : Desc, d.addr = reportBase y ∧ d.length = 5696 ∧ d.opcode = 0x0505 ∧ d.irq = true ∧
          d.tag = s.rd Reg.PAIR_STATUS.switchovers ∧ exec (.handoverReport t) s = .next (ringPost y 5 d)))) ∧
    (∀ c op, (c, op) ∈ [(Instr.pairYieldPage t, 1), (.pairYieldNow t, 2)] →
      (hostOpen s = false ∨ s.role ≠ roleActive ∨ partnerReady σ = false ∨ s.pair.handWait ≠ 0 → exec c s = .next σ) ∧
      (hostOpen s = true → s.role = roleActive → partnerReady σ = true → s.pair.handWait = 0 →
        exec c s = .next (handPlan { σ with pair := { s.pair with handWait := op, handAt := (if op = 2 ∧ s.pair.handSeq = none then none else s.pair.handAt), handLine := (if op = 2 ∧ s.pair.handSeq = none then none else s.pair.handLine) } }))) ∧
    (hostOpen s = false → exec (.pairResync t) s = .next σ) ∧
    (hostOpen s = true → exec (.pairResync t) s = .next (loseSync σ)) ∧
    (handNear σ = none ∨ s.pair.handSeq ≠ none ∨ s.role ≠ roleActive → exec (.handoverSend t) s = .next σ) ∧
    (∀ a, handNear σ = some a → s.pair.handSeq = none → s.role = roleActive → handBarred s = true →
      exec (.handoverSend t) s = .next { σ with pair := { s.pair with handAt := none, handLine := none } }) ∧
    (∀ a, handNear σ = some a → s.pair.handSeq = none → s.role = roleActive → handBarred s = false → EndsIn (exec (.handoverSend t) s) State.twinPump (fun u =>
      (∀ k, k < 80 → u.slot k = { s.slot k with handed := some (firstUnsent σ k) }) ∧
      u.pair = { s.pair with
        live := s.pair.live ++ [.handover (σ.devAt a) (slots80.map (fun k => (relLine σ (firstUnsent σ k), (s.slot k).credits)))],
        handSeq := some ((s.pair.seqOut + s.pair.live.length) % 2 ^ 32) } ∧ u = { σ with fire := u.fire, pair := u.pair })) ∧
    (handDue σ = false → exec (.handoverInstant t) s = .next σ.settle) ∧
    (∀ y, handDue σ = true → handApplied s = true → handBarred s = false → y = handOver σ → exec (.handoverInstant t) s =
      .next (if y.pair.handReset then warmBegin { y with pair := { y.pair with handReset := false } } 2 else y).settle) ∧
    (handDue σ = true → handApplied s = false ∨ handBarred s = true → exec (.handoverInstant t) s = .next (handAbandon σ).settle) ∧
    (s.pair.handGot = none → exec (.handoverTake t) s = .next σ.lineEnd) ∧
    (∀ a slots, s.pair.handGot = some (a, slots) →
      (s.mode ≠ modeShadow ∨ σ.devTime < a + usU / 2 → exec (.handoverTake t) s = .next σ.lineEnd) ∧
      (s.mode = modeShadow → a + usU / 2 ≤ σ.devTime → modeKeepsRole (s.rd Reg.MODE_CUR.shadow_of) = true →
        exec (.handoverTake t) s = .next { σ with pair := { s.pair with handGot := none } }.lineEnd) ∧
      (s.mode = modeShadow → a + usU / 2 ≤ σ.devTime → modeKeepsRole (s.rd Reg.MODE_CUR.shadow_of) = false → EndsIn (exec (.handoverTake t) s) (fun x => (becomeActive x 3).lineEnd) (fun u =>
        (∀ k, k < 80 → u.slot k = { s.slot k with
          credits := (slots.getD k (0, 0)).2,
          parts := (s.slot k).parts.map (fun q => if q.line < absLine s (slots.getD k (0, 0)).1 then { q with sent := lineFrames s k } else { q with sent := 0 }) }) ∧
        u = { σ with fire := u.fire, led := u.led }))) ∧
    ((∀ a, s.pair.wtrFrom = some a → σ.clk < a + s.rd Reg.PAIR_CFG.wtr_s * secU) ∨ s.role ≠ roleActive ∨ s.primary = true ∨ s.pair.handWait ≠ 0 →
      exec (.wtrExpiry t) s = .next σ) ∧
    (∀ a, s.pair.wtrFrom = some a → a + s.rd Reg.PAIR_CFG.wtr_s * secU ≤ σ.clk → s.role = roleActive → s.primary = false → s.pair.handWait = 0 →
      exec (.wtrExpiry t) s = .next (handPlan { σ with pair := { s.pair with handWait := 1 } }))

/-- Sensors, the trip and resets. A conversion is kept raw; one in range that does not deviate for `xcount` readings is the sensor's value, one that fails is substituted by the median of two ok neighbours or more and its learned offset, else the sensor is invalid, a change posted as event 0x0C01. THERMAL_SWEEP converts every sensor, by its trigger or every 100 ms without one; a restore needs a reading within `xdev`. The hottest live sensor is `tj`, and a changed die state is posted as event 0x0C03. A substituted sensor follows its neighbours. A trip counts, drives TRIP_N low and leaves COLD_START, posting nothing; no unit outside the always-on island goes on, and what those units hold is lost at once (the model's reading of clocks that stop, log 128). FLASH_OK_RESTORE allows writes again after 10 s of good conditions. RST_N or a lost rail wipes what no supply keeps; a cold start starts device time and RELOAD. LX_RESET with its key, PE_PERST_N and the watchdog start a warm reset, at once, where lines run at the next line boundary, and with lines out once they are acknowledged or 50 µs have passed; an active device of a pair first hands over or sends TWIN_FAIL. -/
def Obligations.ThermalAndResets : Prop :=
  (∀ (z w : State) (n st : Nat) (v : Int), w = (z.wr Reg.THERM_SENS.s_state n st).wri Reg.THERM_SENS.s_value n v →
    w.rd Reg.THERM_SENS.s_state n = low 2 st ∧ w.rd Reg.THERM_SENS.s_value n = unsigned 16 v ∧
    (z.rd Reg.THERM_SENS.s_state n = st → sensSet z n st v = w) ∧
    (z.rd Reg.THERM_SENS.s_state n ≠ st → sensSet z n st v = w.event 0x0C01 (chSens n) 0 st (unsigned 32 (z.rdi Reg.THERM_SENS_RAW.s_raw n)))) ∧
  (∀ (z : State) (n : Nat),
    (∀ m, nbrMedian z n = some m → sensSubEn z n = true → 2 ≤ (okNeighbours z n).length → sensFail z n = sensSet z n 1 (m + sensOffset z n)) ∧
    (nbrMedian z n = none ∨ sensSubEn z n = false ∨ (okNeighbours z n).length < 2 → sensFail z n = sensSet z n 2 (z.rdi Reg.THERM_SENS.s_value n))) ∧
  (∀ (z : State) (n : Nat) (raw : Int) (old : Int) (dev : Bool), old = z.rdi Reg.THERM_SENS.s_value n → raw ≠ z.rdi Reg.THERM_SENS_RAW.s_raw n →
    dev = (match nbrMedian z n with | some m => decide (16 * z.rd Reg.THERM_XCHECK.xdev < (raw - m - sensOffset z n).natAbs) | none => false) →
    ∃ w : State, sensConvert z n raw = tempMoved (sensEvent w n old) n ∧ w.rd Reg.THERM_SENS_RAW.s_raw n = unsigned 16 raw ∧ (w.sensor n).lastAt = some z.clk ∧
      (w.sensor n).deviant = (if dev then (z.sensor n).deviant + 1 else 0) ∧
      (z.rd Reg.THERM_SENS.s_state n = 0 → -880 ≤ raw → raw ≤ 2400 → (w.sensor n).deviant < z.rd Reg.THERM_XCHECK.xcount →
        w.rd Reg.THERM_SENS.s_state n = 0 ∧ w.rd Reg.THERM_SENS.s_value n = unsigned 16 raw) ∧
      (z.rd Reg.THERM_SENS.s_state n = 0 → raw < -880 ∨ 2400 < raw → nbrMedian z n = none → n ∉ neighbours z n → w.rd Reg.THERM_SENS.s_state n = 2) ∧
      (2 ≤ z.rd Reg.THERM_SENS.s_state n → w.rd Reg.THERM_SENS.s_state n = z.rd Reg.THERM_SENS.s_state n ∧ w.rd Reg.THERM_SENS.s_value n = z.rd Reg.THERM_SENS.s_value n)) ∧
  (∀ (z : State) (stk : Bool), ∃ (w : State) (tj : Int) (new : Nat) (x : State),
    w.rd Reg.THERM_STATUS.tj = unsigned 16 tj ∧ (liveSensors z = [] → tj = z.rdi Reg.THERM_STATUS.tj) ∧
    (∀ n, n ∈ liveSensors z → z.rdi Reg.THERM_SENS.s_value n ≤ tj) ∧ (liveSensors z ≠ [] → ∃ n, n ∈ liveSensors z ∧ z.rdi Reg.THERM_SENS.s_value n = tj) ∧
    (∀ old hyst, old = z.rd Reg.THERM_STATUS.die_state → hyst = (16 * z.rd Reg.THERM_LIMITS.t_hyst_die : Int) → new = max (max
      (thermState old tj (16 * z.rd Reg.THERM_LIMITS.tj_warn) (16 * z.rd Reg.THERM_LIMITS.tj_limit) hyst)
      (thermState old (max (stackTemp z 0) (stackTemp z 1)) (16 * z.rd Reg.THERM_HBM_LIMITS.hbm_warn) (16 * z.rd Reg.THERM_HBM_LIMITS.hbm_limit) hyst))
      (ofBool (sensDegraded z))) ∧
    w.on Reg.THERM_STATUS.sens_degraded = sensDegraded z ∧ w.rd Reg.THERM_STATUS.die_state = z.rd Reg.THERM_STATUS.die_state ∧
    (new = z.rd Reg.THERM_STATUS.die_state → dieUpdate z stk = w) ∧
    (new ≠ z.rd Reg.THERM_STATUS.die_state → x.rd Reg.THERM_STATUS.die_state = low 2 new ∧ OnlyRegs w x [Reg.THERM_STATUS.die_state.key 0] ∧
      ∃ a, dieUpdate z stk = (let y := x.event 0x0C03 noChan 0 a (unsigned 32 tj)
        if new = 2 then dieLimit y
        else
          let y := if new = 0 then setDieForbids y false else y
          if new = 1 ∧ z.rd Reg.THERM_STATUS.die_state = 0 then dieWarning y else y))) ∧
  (∀ (z : State), (z.md.coolReset = true ∧ z.rd Reg.THERM_STATUS.die_state = 0 ∧ z.md.tripped = false →
      z.cool = warmBegin { z with md := { z.md with coolReset := false } } 8) ∧
    (¬(z.md.coolReset = true ∧ z.rd Reg.THERM_STATUS.die_state = 0 ∧ z.md.tripped = false) → z.cool = z)) ∧
  (∀ (z : State) (c : Nat),
    (z.fl.resetAsk ≠ none → warmBegin z c = z) ∧
    (z.fl.resetAsk = none → z.mode = modeShadow ∨ z.mode = modeFreeze ∨ z.mode = modeCold ∨ z.mode = modeReload ∨ (headsRunning z = false ∧ linesOut z = false) →
      warmBegin z c = warmWipe z c) ∧
    (z.fl.resetAsk = none → z.mode ≠ modeShadow → z.mode ≠ modeFreeze → z.mode ≠ modeCold → z.mode ≠ modeReload →
      (headsRunning z = true → Ends (.next (warmBegin z c)) (fun u => u.fl = { z.fl with resetWait := some c } ∧ (∃ p, p ∈ u.md.pending ∧ p.1 = modeReload) ∧
        (∃ g, u.la.stopFrom = some g ∧ g ≤ lineAfterPassed z) ∧
        u = { z with fl := u.fl, md := { z.md with pending := u.md.pending }, la := { z.la with stopFrom := u.la.stopFrom } })) ∧
      (headsRunning z = false → linesOut z = true → ∃ w : State, warmBegin z c = reloadMode w z.fire.refNext ∧ w.fl = { z.fl with resetWait := some c } ∧
        (∃ g, w.la.stopFrom = some g ∧ g ≤ lineAfterPassed z) ∧ w = { z with fl := w.fl, la := { z.la with stopFrom := w.la.stopFrom } })) ∧
    (∀ g, ∃ w : State, reloadMode z g = modeEvent w modeReload z.mode causeReset (if z.on Reg.LA_STATUS.job_open then relLine z g else 0) ∧
      w.mode = modeReload ∧ w.rd Reg.MODE_CUR.cause = causeReset ∧ w.fl = { z.fl with resetAsk := some (z.fl.resetWait.getD 2, z.clk), resetWait := none } ∧
      w.md = { z.md with pending := [] }) ∧
    ∃ (w : State) (prev : Nat), warmWipe z c = (if z.fl.resetAsk.isSome then w else modeEvent w modeReload prev causeReset (nextDue z)) ∧ w.mode = modeReload ∧
      w.rd Reg.MODE_CUR.cause = causeReset ∧ w.rd Reg.BOOT_STATUS.boot_cause = low Reg.BOOT_STATUS.boot_cause.width (if z.mode = modeFreeze ∨ c = 4 then 4 else c) ∧
      w.fl.bootAt = some z.clk ∧ w.fl.resetAsk = none ∧ w.fl.resetWait = none ∧
      w.fl.pairReset = (z.on Reg.PAIR_CFG.pair_en || z.fl.pairReset) ∧ w.pending = z.pending ∧ w.clk = z.clk ∧ w.md.tripped = false ∧ w.bnd = [] ∧ w.ln.moves = []) ∧
  (∀ (z u : State) (fr pc : Bool), u = quench z fr pc → u.clk = z.clk ∧ u.pending = z.pending ∧ u.out = z.out ∧ u.freeN = z.freeN ∧
    (∀ a, Mem.get u.mem a = (if (fr = true ∧ a < stacksSize) ∨ (localBase 0 ≤ a ∧ a < flashBase) then Mem.empty else Mem.get z.mem a)) ∧
    u.tu = { z.tu with burstDue := [] } ∧ u.net = z.net ∧ u.th = { z.th with tripDue := false } ∧ u.evHeld = z.evHeld ∧ u.md = { State.reset.md with mySeq := z.md.mySeq, dieForbids := z.md.dieForbids } ∧
    u.la = State.reset.la ∧ u.fire = State.reset.fire ∧ u.pair = State.reset.pair ∧ u.bnd = [] ∧ u.ln = State.reset.ln ∧ u.st.queue = [] ∧
    u.mot.inputs = z.mot.inputs ∧ u.mot.emus = z.mot.emus ∧ (∀ n, u.axis n = { Axis.reset with p := (z.axis n).p, shift := (z.axis n).shift }) ∧
    (∀ p, (u.eng p).running = none)) ∧
  (∀ (z : State) (stk : Bool),
    ((∀ k, k < 48 → z.rd Reg.THERM_SENS.s_state k ≠ 1) → thermalUpdate z stk = flashUpdate (dieUpdate z stk)) ∧
    (∀ n, n < 48 → z.rd Reg.THERM_SENS.s_state n = 1 → (∀ k, k < 48 → k ≠ n → z.rd Reg.THERM_SENS.s_state k ≠ 1) →
      thermalUpdate z stk = flashUpdate (dieUpdate (sensFail z n) stk))) ∧
  (∀ (z u : State), u = coldWipe z → u.clk = z.clk ∧ u.pending = z.pending ∧
    (∀ a, a < stacksSize → Mem.get u.mem a = Mem.empty) ∧ (∀ a, flashBase ≤ a → Mem.get u.mem a = Mem.get z.mem a) ∧
    u.rd Reg.THERM_TRIP.trip_count = z.rd Reg.THERM_TRIP.trip_count ∧ u.mode = modeCold ∧ u.fl.recA = z.fl.recA ∧ u.fl.recB = z.fl.recB ∧
    u.la = State.reset.la ∧ u.fire = State.reset.fire ∧ u.mot = State.reset.mot ∧ u.cat = State.reset.cat) ∧
  ∀ (s σ : State) (t n : Nat), σ = s.at t →
    (∀ raw, (n < 48 → exec (.sensorConversion t n raw) s = .next (thermalUpdate (sensConvert σ n raw) false).cool.settle) ∧
      (48 ≤ n → exec (.sensorConversion t n raw) s = .next σ.cool.settle)) ∧
    (∀ late, late = (match (s.sensor n).lastAt with | some a => decide (a + 200 * usU ≤ σ.clk) | none => decide (200 * usU ≤ σ.clk)) →
      (48 ≤ n ∨ late = false ∨ s.rd Reg.THERM_SENS.s_state n ≠ 0 → exec (.sensorConversionTimeout t n) s = .next σ.cool.settle) ∧
      (n < 48 → late = true → s.rd Reg.THERM_SENS.s_state n = 0 → exec (.sensorConversionTimeout t n) s = .next (thermalUpdate (sensFail σ n) false).cool.settle)) ∧
    (∀ raws (due : Prop), (due ↔ raws.length = 48 ∧ (s.tu.sweepDue = true ∨ (sweepTriggered s = false ∧ ∀ a, s.th.sweepAt = some a → a + 99 * msU ≤ σ.clk))) →
      (¬due → exec (.thermalSweep t raws) s = .next σ.cool.settle) ∧
      (due → EndsIn (exec (.thermalSweep t raws) s) (fun x => (thermalUpdate x false).cool.settle) (fun u =>
        u.th.sweepAt = some σ.clk ∧ u.tu.sweepDue = false ∧ ∀ k v, raws[k]? = some v → u.rd Reg.THERM_SENS_RAW.s_raw k = unsigned 16 v))) ∧
    (∀ m, nbrMedian s n = some m →
      (n < 48 → s.rd Reg.THERM_SENS.s_state n ≠ 0 → (s.rdi Reg.THERM_SENS_RAW.s_raw n - m - sensOffset s n).natAbs ≤ 16 * s.rd Reg.THERM_XCHECK.xdev →
        EndsIn (exec (.sensorRestore t n) s) (fun x => (thermalUpdate (sensSet x n 0 (s.rdi Reg.THERM_SENS_RAW.s_raw n)) false).cool.settle) (fun u =>
          u.sensor n = { s.sensor n with deviant := 0, hot := 0, stillAt := σ.clk, stillMed := some m } ∧ u = { σ with th := u.th })) ∧
      (48 ≤ n ∨ s.rd Reg.THERM_SENS.s_state n = 0 ∨ 16 * s.rd Reg.THERM_XCHECK.xdev < (s.rdi Reg.THERM_SENS_RAW.s_raw n - m - sensOffset s n).natAbs →
        exec (.sensorRestore t n) s = .next σ.cool.settle)) ∧
    (nbrMedian s n = none → exec (.sensorRestore t n) s = .next σ.cool.settle) ∧
    (∀ src why, why = (if s.th.tripDue then src % 4 else src / 2 % 2 * 2) →
      (why = 0 ∨ s.md.tripped = true → exec (.hardwareTrip t src) s = .next σ) ∧
      (why ≠ 0 → s.md.tripped = false → Ends (exec (.hardwareTrip t src) s) (fun u => u.rd Reg.THERM_TRIP.trip_count = sat 16 (s.rd Reg.THERM_TRIP.trip_count + 1) ∧
        u.rd Reg.THERM_TRIP.trip_src = why ∧ u.mode = modeCold ∧ u.rd Reg.MODE_CUR.prev_mode = low Reg.MODE_CUR.prev_mode.width s.mode ∧
        u.rd Reg.MODE_CUR.cause = low 4 causeTrip ∧ (Tbl.sorted s.regs = true → epochState u = epochState s ∧ epochId u = epochId s) ∧
        (∀ (f : Fld) i, f.lsb < 32 → f.addr < Reg.EPOCH_STATUS.state.addr ∨ Reg.EPOCH_APPLY_LINE_HI.apply_line_hi.addr < f.addr →
          f.key i ∉ [Reg.THERM_TRIP.trip_count.key 0, Reg.THERM_TRIP.trip_src.key 0, Reg.MODE_CUR.mode.key 0, Reg.MODE_CUR.prev_mode.key 0,
            Reg.MODE_CUR.cause.key 0] → u.rd f i = (quench σ false false).rd f i) ∧
        u = { quench σ false false with
          regs := u.regs, md := { (quench σ false false).md with tripped := true }, fl := { (quench σ false false).fl with bootAt := none }
          out := .ball .tripN false :: s.out }))) ∧
    (s.th.goodAt = none ∨ s.th.refused = false ∨ flashGood s 93 2 = false ∨ (∃ a, s.th.goodAt = some a ∧ σ.clk < a + 10 * secU) →
      exec (.flashOkRestore t) s = .next σ) ∧
    (∀ a y, s.th.goodAt = some a → s.th.refused = true → flashGood s 93 2 = true → a + 10 * secU ≤ σ.clk →
      y = flashUpdate { σ with th := { s.th with refused := false, goodAt := none } } →
      EndsIn (exec (.flashOkRestore t) s) (fun x =>
          let x := if s.fl.halfDue then firstHalf { x with fl := { x.fl with runBase := halfBase 0 } } s.fl.runBase else x
          if s.fl.staging then x.wr Reg.UPD_STATUS.stage_state 0 2 else x) (fun u =>
        u.th.refused = false ∧ u.th.goodAt = none ∧ u.fl.recDue = none ∧ u.fl.setStarted = s.fl.setJob.isSome ∧ u = { y with fl := u.fl })) ∧
    exec (.rstNAssert t) s = .next (coldWipe σ) ∧
    EndsIn (exec (.coldStart t) s) (fun x => twinLanesBoot (repairsApply (modeEvent x modeReload modeCold causeReset 0)) true) (fun u =>
      u.mode = modeReload ∧ u.rd Reg.MODE_CUR.prev_mode = modeCold ∧ u.rd Reg.MODE_CUR.cause = causeReset ∧ u.rd Reg.BOOT_STATUS.boot_cause = 1 ∧
      u.rd Reg.BOOT_STATUS.starts = sat 16 (s.rd Reg.BOOT_STATUS.starts + 1) ∧ u.devTime = 0 ∧ u.fl.bootAt = some σ.clk ∧ u.fl.cause = 1 ∧
      u.net.coldAt = σ.clk ∧ u.mem = (coldWipe σ).mem ∧ u.out = .ball .tripN true :: s.out) ∧
    (∀ key, key ≠ 0x5A17 ∨ hostOpen s = false ∨ s.md.tripped = true ∨ s.fl.resetAsk ≠ none ∨ s.fl.resetWait ≠ none ∨ s.pair.handReset = true → exec (.lxReset t key) s = .next σ) ∧
    (hostOpen s = true → s.md.tripped = false → s.fl.resetAsk = none → s.fl.resetWait = none → s.pair.handReset = false →
      (activeOfPair s = true → handAllowed σ = true → exec (.lxReset t 0x5A17) s =
        .next (handPlan { σ with pair := { s.pair with handWait := 2, handReset := true, handAt := (if s.pair.handSeq = none then none else s.pair.handAt), handLine := (if s.pair.handSeq = none then none else s.pair.handLine) } })) ∧
      (activeOfPair s = true → handAllowed σ = false → exec (.lxReset t 0x5A17) s = .next (warmBegin (twinFail σ 2) 2)) ∧
      (activeOfPair s = false → exec (.lxReset t 0x5A17) s = .next (warmBegin σ 2))) ∧
    (s.md.tripped = true →
      ((∀ k, k ∈ liveSensors s → s.rdi Reg.THERM_SENS.s_value k < 1600) → exec (.pePerstAssert t) s = .next (warmWipe σ 6)) ∧
      ((∃ k, k ∈ liveSensors s ∧ 1600 ≤ s.rdi Reg.THERM_SENS.s_value k) → exec (.pePerstAssert t) s = .next σ)) ∧
    (s.md.tripped = false → s.mode = modeCold → exec (.pePerstAssert t) s = .next σ) ∧
    (s.md.tripped = false → s.mode ≠ modeCold → exec (.pePerstAssert t) s =
      .next (warmBegin (handDrop (if s.fl.resetAsk = none ∧ activeOfPair s = true then twinFail σ 2 else σ)) 3)) ∧
    (s.md.tripped = true ∨ s.mode = modeCold → exec (.watchdogExpiry t) s = .next σ) ∧
    (s.md.tripped = false → s.mode ≠ modeCold → EndsIn (exec (.watchdogExpiry t) s) (fun x => warmBegin x 5) (fun u =>
      u.rd Reg.WDOG.wdog_fires = sat 16 (s.rd Reg.WDOG.wdog_fires + 1) ∧ OnlyRegs σ u [Reg.WDOG.wdog_fires.key 0])) ∧
    (s.fl.resetAsk = none → exec (.warmResetAckWaitExpiry t) s = .next σ) ∧
    (∀ c a, s.fl.resetAsk = some (c, a) → (σ.clk < a + 50 * usU → exec (.warmResetAckWaitExpiry t) s = .next σ) ∧
      (a + 50 * usU ≤ σ.clk → exec (.warmResetAckWaitExpiry t) s = .next (warmWipe σ c)))

/-- Settings writes and activation. SET_CMD is open to the host while no settings write is in progress; a write begins with its slot's bytes, or is held and counted where flash writes are refused; `write` takes a slot built at SET_ADDR, refused with result 2 where it is no good; a completed write stands in its slot, `clear` marks the settings cleared, with result 1. `load` copies an image from the Stacks or the host to the buffer to be checked, or gives error 7. `arm` needs a staged image and no unconfirmed one, else error 9, fitting levels, else 4, and flash writes, else 5; once armed the half not running is erased. A write that flash writes are refused to midway is held and counted (log 139). `disarm` clears the flag. CONFIRM, by the host or the image, ends an unconfirmed state whose window has not expired; expired, the image is rejected, a fallback is pending and event 0x0D02 posted. `forward` offers the staged image out of the ports named; `abort` drops transfers with error 8. -/
def Obligations.SettingsAndUpdate : Prop :=
  (∀ (z : State) (job : Nat × List Byte), ∃ w : State, setBegin z job = (if flashOk z then w else flashRefuse w 1) ∧
    w.fl = { z.fl with setJob := some job, setStarted := flashOk z } ∧ w.on Reg.SET_STATUS.set_busy = true ∧
    OnlyRegs { z with fl := w.fl } w [Reg.SET_STATUS.set_busy.key 0]) ∧
  (∀ (z : State) (who : Nat), ∃ w : State, flashRefuse z who = flashUpdate (w.event 0x0C05 noChan 0 who 0) ∧ w.th = { z.th with refused := true, goodAt := none } ∧
    w.rd Reg.THERM_FLASH.flash_refused = sat Reg.THERM_FLASH.flash_refused.width (z.rd Reg.THERM_FLASH.flash_refused + 1) ∧
    OnlyRegs { z with th := w.th } w [Reg.THERM_FLASH.flash_refused.key 0]) ∧
  (∀ (z : State) (r : BootRec),
    (flashOk z = true → recWrite z r = recStore z r) ∧ (flashOk z = false → recWrite z r = flashRefuse { z with fl := { z.fl with recDue := some r } } 3) ∧
    (z.fl.recA.gen + 1 < 2 ^ 32 → z.fl.recB.gen + 1 < 2 ^ 32 → ∃ g, bootRec (recStore z r) = { r with good := true, gen := g }) ∧
    recStore z r = { z with fl := { z.fl with recA := (recStore z r).fl.recA, recB := (recStore z r).fl.recB, recDue := none } }) ∧
  (∀ (z y : State), y = { z with fl := { z.fl with confirmEnd := none } }.wr Reg.BOOT_STATUS.unconfirmed 0 0 →
    (z.on Reg.BOOT_STATUS.unconfirmed = false ∨ z.fl.expired = true → confirm z = z) ∧
    (z.on Reg.BOOT_STATUS.unconfirmed = true → z.fl.expired = false →
      confirm z = recWrite y { bootRec y with unconfirmed := false, fallback := false, fmt := imgFmt z.fl.header })) ∧
  (∀ (z : State), confirmReady z = true ↔ hostOpen z = true ∧ z.on Reg.UPD_CONFIRM.confirm_hold = false ∧ z.on Reg.MEM_STATUS.trained = true ∧
    (∀ p e, p < 16 → z.entry (chScribe p) = some e → ScribeE.role.get e < 16 → z.on Reg.SCRIBE_MAP.valid (ScribeE.role.get e) = true) ∧
    (∀ n, n < 52 → z.lstate n ≠ 1) ∧ (z.on Reg.PAIR_CFG.pair_en = true → ∃ a, z.pair.fitSince = some a ∧ a + 60 * secU ≤ z.clk)) ∧
  (∀ (z u : State) (k base : Nat), u = offer z k base →
    (facesDevice z k = false ∨ Tbl.find z.fl.send k ≠ none → u = z) ∧
    (facesDevice z k = true → Tbl.find z.fl.send k = none → ∃ x, Tbl.find u.fl.send k = some x ∧ x.id = nodeNow z + (z.fl.xferN + 1) % 2 ^ 18 * 16384 ∧
      x.base = base ∧ x.len = imgLen (imgHeader z base) ∧ x.phase = 1 ∧ x.lastType = rtOffer ∧ x.lastBody = leBytes 4 x.id ++ imgHeader z base ∧
      x.askedAt = some z.clk ∧ u.regs = z.regs ∧ u.mem = z.mem ∧ (rportOpen z k = true → u.out.length = z.out.length + 1))) ∧
  ∀ (s σ : State) (t : Nat), σ = s.at t →
    (∀ c, c ∈ [Instr.setSave t, .setWrite t, .setClear t] → hostOpen s = false ∨ s.on Reg.SET_STATUS.set_busy = true → exec c s = .next σ) ∧
    (hostOpen s = true → s.on Reg.SET_STATUS.set_busy = false →
      exec (.setSave t) s = .next (setBegin σ (writeSlot σ, slotBytes (imgFmt s.fl.header) (nextSetGen σ) (imgVer s.fl.header)
        ((imageAddrs.map (saveRec σ) ++ otherRecs σ).flatMap SetRec.bytes))) ∧
      exec (.setClear t) s = .next (setBegin σ (0, [])) ∧
      ∀ a b (good : Bool), a = s.rd2 Reg.SET_ADDR_LO.set_addr_lo Reg.SET_ADDR_HI.set_addr_hi → b = s.peekBytes a (64 + min (s.peekNat (a + 12) 4) 1048512) →
        good = (slotValid b && slotFmt b == imgFmt s.fl.header &&
          (slotRecs b).all (fun r => r.1 != 1 || !((imgPriv s.fl.header).any (fun p => p.1 == r.2.2.1 && p.2 != r.2.1)))) →
        (good = true → exec (.setWrite t) s = .next (setBegin σ (writeSlot σ, b))) ∧
        (good = false → Ends (exec (.setWrite t) s) (fun u => u.rd Reg.SET_RESULT.set_result = 2 ∧ OnlyRegs σ u [Reg.SET_RESULT.set_result.key 0]))) ∧
    (s.fl.setJob = none ∨ s.fl.setStarted = false → exec (.settingsWriteComplete t) s = .next σ) ∧
    (s.fl.setJob ≠ none → s.fl.setStarted = true → flashOk s = false →
      exec (.settingsWriteComplete t) s = .next (flashRefuse { σ with fl := { s.fl with setStarted := false } } 1)) ∧
    (∀ i b, s.fl.setJob = some (i, b) → s.fl.setStarted = true → flashOk s = true → Ends (exec (.settingsWriteComplete t) s) (fun u =>
      u.on Reg.SET_STATUS.set_busy = false ∧ u.rd Reg.SET_RESULT.set_result = 1 ∧
      u.fl = { s.fl with setJob := none, setStarted := false, cleared := decide (b = []) } ∧
      (b = [] → u.mem = s.mem) ∧ (b ≠ [] → Mem.read u.mem (slotBase i) b.length = b ∧
        ∀ x, x < slotBase i ∨ (slotBase i + 0x10_0000 ≤ x ∧ slotBase i + b.length ≤ x) → Mem.get u.mem x = Mem.get s.mem x) ∧
      OnlyRegs { σ with fl := u.fl, mem := u.mem } u [Reg.SET_STATUS.set_busy.key 0, Reg.SET_RESULT.set_result.key 0])) ∧
    (hostOpen s = false ∨ receiving s = true ∨ (bootRec s).armed = true ∨ s.fl.arming = true → exec (.updLoad t) s = .next σ) ∧
    (∀ a n, hostOpen s = true → receiving s = false → (bootRec s).armed = false → s.fl.arming = false →
      a = s.rd2 Reg.UPD_ADDR_LO.upd_addr_lo Reg.UPD_ADDR_HI.upd_addr_hi → n = max 1024 (min 33554432 (s.peekNat (a + 8) 4)) →
      ((areaOf a = .stacks ∨ areaOf a = .host) → areaOf (a + n - 1) = areaOf a → Ends (exec (.updLoad t) s) (fun u =>
        u.fl = { s.fl with verify := 2 } ∧ u.rd Reg.UPD_STATUS.stage_state = 1 ∧ u.rd Reg.UPD_STATUS.blocks = 0 ∧
        OnlyRegs { σ.pokeList (bufBase s) (σ.peekBytes a n) with fl := u.fl } u [Reg.UPD_STATUS.stage_state.key 0, Reg.UPD_STATUS.blocks.key 0])) ∧
      (¬((areaOf a = .stacks ∨ areaOf a = .host) ∧ areaOf (a + n - 1) = areaOf a) → Ends (exec (.updLoad t) s) (fun u =>
        u.rd Reg.UPD_STATUS.upd_err = 7 ∧ OnlyRegs σ u [Reg.UPD_STATUS.upd_err.key 0]))) ∧
    (hostOpen s = false ∨ s.fl.arming = true → exec (.updArm t) s = .next σ) ∧
    (∀ (staged : Bool), staged = (s.rd Reg.UPD_STATUS.stage_state == 3 || s.rd Reg.UPD_STATUS.stage_state == 5) → hostOpen s = true → s.fl.arming = false →
      (∀ e, (e = 9 ∧ (staged = false ∨ (bootRec s).unconfirmed = true)) ∨
          (e = 4 ∧ staged = true ∧ (bootRec s).unconfirmed = false ∧ levelsFit s (imgHeader s stagingBase) = false) →
        Ends (exec (.updArm t) s) (fun u => u.rd Reg.UPD_STATUS.upd_err = e ∧ OnlyRegs σ u [Reg.UPD_STATUS.upd_err.key 0])) ∧
      (staged = true → (bootRec s).unconfirmed = false → levelsFit s (imgHeader s stagingBase) = true →
        (flashOk s = false → EndsIn (exec (.updArm t) s) (fun x => flashRefuse x 3) (fun u => u.rd Reg.UPD_STATUS.upd_err = 5 ∧
          OnlyRegs σ u [Reg.UPD_STATUS.upd_err.key 0])) ∧
        (flashOk s = true → Ends (exec (.updArm t) s) (fun u => u.rd Reg.UPD_STATUS.upd_err = 0 ∧ u.fl = { s.fl with arming := true } ∧
          OnlyRegs { σ with fl := u.fl } u [Reg.UPD_STATUS.upd_err.key 0])))) ∧
    (s.fl.arming = false ∨ (flashOk s = false ∧ s.rd Reg.UPD_STATUS.upd_err = 5) → exec (.armComplete t) s = .next σ) ∧
    (s.fl.arming = true → flashOk s = false → s.rd Reg.UPD_STATUS.upd_err ≠ 5 → EndsIn (exec (.armComplete t) s) (fun x => flashRefuse x 3) (fun u =>
      u.rd Reg.UPD_STATUS.upd_err = 5 ∧ OnlyRegs σ u [Reg.UPD_STATUS.upd_err.key 0])) ∧
    (∀ r y, s.fl.arming = true → flashOk s = true → r = bootRec s →
      y = { σ with mem := memErase s.mem (halfBase (1 - r.half)) 0x200_0000, fl := { s.fl with arming := false } } →
      Ends (exec (.armComplete t) s) (fun u => u.rd Reg.UPD_STATUS.stage_state = 4 ∧ u.rd Reg.UPD_STATUS.upd_err = 0 ∧ u.fl = (recStore y { r with armed := true, verPrev := 0 }).fl ∧
        OnlyRegs { y with fl := u.fl } u [Reg.UPD_STATUS.stage_state.key 0, Reg.UPD_STATUS.upd_err.key 0])) ∧
    (hostOpen s = false ∨ (s.fl.arming = false ∧ (bootRec s).armed = false) → exec (.updDisarm t) s = .next σ) ∧
    (hostOpen s = true → s.fl.arming = true → exec (.updDisarm t) s = .next { σ with fl := { s.fl with arming := false } }) ∧
    (hostOpen s = true → s.fl.arming = false → (bootRec s).armed = true → EndsIn (exec (.updDisarm t) s)
      (fun x => x.wr Reg.UPD_STATUS.stage_state 0 (if s.fl.rejected then 5 else 3)) (fun u => u = recWrite σ { bootRec s with armed := false })) ∧
    (hostOpen s = false → exec (.updConfirm t) s = .next σ) ∧ (hostOpen s = true → exec (.updConfirm t) s = .next (confirm σ)) ∧
    (confirmReady σ = false → exec (.imageConfirm t) s = .next σ) ∧ (confirmReady σ = true → exec (.imageConfirm t) s = .next (confirm σ)) ∧
    (s.fl.confirmEnd = none ∨ s.on Reg.BOOT_STATUS.unconfirmed = false ∨ s.fl.expired = true ∨ (∃ e, s.fl.confirmEnd = some e ∧ σ.devTime < e) →
      exec (.confirmWindowExpiry t) s = .next σ) ∧
    (∀ e y, s.fl.confirmEnd = some e → s.on Reg.BOOT_STATUS.unconfirmed = true → s.fl.expired = false → e ≤ σ.devTime →
      y = recWrite { σ with fl := { s.fl with expired := true, rejected := true } } { bootRec s with fallback := true } →
      EndsIn (exec (.confirmWindowExpiry t) s) (fun x => x.event 0x0D02 noChan 0 (imgVer x.fl.header) 0) (fun u =>
        u.on Reg.BOOT_STATUS.fallback_pend = true ∧ u.rd Reg.UPD_STATUS.stage_state = 5 ∧
        OnlyRegs y u [Reg.BOOT_STATUS.fallback_pend.key 0, Reg.UPD_STATUS.stage_state.key 0])) ∧
    (∀ ports (open_ : Bool), open_ = (hostOpen s && (s.rd Reg.UPD_STATUS.stage_state == 3 || s.rd Reg.UPD_STATUS.stage_state == 4 || s.rd Reg.UPD_STATUS.stage_state == 5)) →
      (open_ = false → exec (.updForward t ports) s = .next σ) ∧
      (open_ = true → exec (.updForward t ports) s = .next (let x := if bit ports 0 then offer σ 0 stagingBase else σ
        if bit ports 1 then offer x 1 stagingBase else x))) ∧
    (hostOpen s = false ∨ (s.fl.send = [] ∧ s.fl.recv = none ∧ s.fl.verify = 0) → exec (.updAbort t) s = .next σ) ∧
    (hostOpen s = true → ¬(s.fl.send = [] ∧ s.fl.recv = none ∧ s.fl.verify = 0) → Ends (exec (.updAbort t) s) (fun u =>
      u.rd Reg.UPD_STATUS.upd_err = 8 ∧ u.fl = { s.fl with send := [], recv := none, verify := 0 } ∧
      OnlyRegs (showStage { σ with fl := u.fl }) u [Reg.UPD_STATUS.upd_err.key 0]))

/-- Transfer of images. An offer whose header fails is refused with error 1; one of an image held is answered HAVE and offered on by the other port; one that comes while the device is busy is answered BUSY; else WANT, and its data is expected. A segment goes into the buffer; a whole block is acknowledged, and after its last segment what a block lacks is asked for; with all blocks the image is to be checked. A sender sends segments to send again, then new ones with at most 4 blocks unacknowledged, paced at `upd_rate`; BLOCK_OK, MISSING, VERIFIED and FAILED act on it, and 100 ms without an answer repeat its last frame, after 10 repeats abandon it with error 8. A checked image is offered on and staged, or shown with its error; with no image to run it becomes half 0 and starts, from the buffer while flash writes are refused; staged, it stands in the bank with its version, or the bank is erased with error 6. LEVELS are held per port, and sent. -/
def Obligations.ImageTransfer : Prop :=
  (∀ (z u : State) (k id code err block missing : Nat) (f : List Byte), u = ackSend z k id code err block missing →
    (facesDevice z k = false → u = z) ∧
    (facesDevice z k = true → f = (ringFrame z rtAck (leBytes 4 id ++ leBytes 1 code ++ leBytes 1 err ++ leBytes 2 block ++ leBytes 8 missing)).set 20 0 →
      u.net = { z.net with rseq := (z.net.rseq + 1) % 65536 } ∧ u = { z with net := u.net, out := u.out } ∧
      u.out = (if rportOpen z k then .ringFrame k (f ++ leBytes 4 (crc32 f)) :: z.out else z.out))) ∧
  (∀ (z : State), ∃ w : State, stageBegin z = (if flashOk z then w else flashRefuse w 4) ∧ w.fl = { z.fl with staging := true } ∧
    w.rd Reg.UPD_STATUS.stage_state = (if flashOk z then 2 else 6) ∧ OnlyRegs { z with fl := w.fl } w [Reg.UPD_STATUS.stage_state.key 0]) ∧
  (∀ (z u : State) (k : Nat) (x : Sender) (ty : Nat) (body : List Byte) (ask : Bool), u = xferFrame z k x ty body ask →
    Tbl.find u.fl.send k = some { x with lastType := ty, lastBody := body, askedAt := if ask then some z.clk else x.askedAt } ∧
    (∀ j, j ≠ k → Tbl.find u.fl.send j = Tbl.find z.fl.send j) ∧ u = { z with fl := { z.fl with send := u.fl.send }, net := u.net, out := u.out }) ∧
  ∀ (s σ : State) (t k : Nat), σ = s.at t →
    (∀ id h, 2 ≤ k → exec (.imgOffer t k id h) s = .next σ) ∧
    (∀ id h, k < 2 →
      (imgHeaderOk h = false → exec (.imgOffer t k id h) s = .next (ackSend σ k id 3 1 0 0)) ∧
      (∀ base, imgHeaderOk h = true → holdsImage s h = some base → exec (.imgOffer t k id h) s = .next (offer (ackSend σ k id 1 0 0 0) (1 - k) base)) ∧
      (∀ (again busy : Bool), imgHeaderOk h = true → holdsImage s h = none → again = (match s.fl.recv with | some r => r.id == id && r.port == k | none => false) →
        busy = (s.rd Reg.MODE_CUR.power == 2 || s.mode == modeFreeze || (receiving s && !again) || (bootRec s).armed || s.fl.arming) →
        (busy = true → exec (.imgOffer t k id h) s = .next (ackSend σ k id 2 0 0 0)) ∧
        (busy = false → EndsIn (exec (.imgOffer t k id h) s) (fun x => ackSend x k id 0 0 0 0) (fun u =>
          u.fl = { s.fl with recv := some (Receiver.mk id k (imgLen h) [] []) } ∧ u.rd Reg.UPD_STATUS.stage_state = 1 ∧ u.rd Reg.UPD_STATUS.blocks = 0 ∧
          OnlyRegs { σ with fl := u.fl } u [Reg.UPD_STATUS.stage_state.key 0, Reg.UPD_STATUS.blocks.key 0])))) ∧
    (∀ id bl seg d, s.fl.recv = none → exec (.imgData t k id bl seg d) s = .next σ) ∧
    (∀ id bl seg d r m y got lack, s.fl.recv = some r → m = 64 * bl + seg → y = σ.pokeList (bufBase s + 1024 * m) d → got = (if m ∈ r.got then r.got else m :: r.got) →
      lack = (List.range 64).filter (fun j => !got.contains (64 * bl + j)) →
      (r.id ≠ id ∨ r.port ≠ k ∨ xferBlocks r.len ≤ bl ∨ 64 ≤ seg ∨ d.length ≠ 1024 → exec (.imgData t k id bl seg d) s = .next σ) ∧
      (r.id = id → r.port = k → bl < xferBlocks r.len → seg < 64 → d.length = 1024 →
        (lack ≠ [] → seg = 63 → exec (.imgData t k id bl seg d) s = .next (ackSend { y with fl := { s.fl with recv := some { r with got := got } } } k id 0x11 0 bl
          (lack.foldl (fun w j => w + 2 ^ j) 0))) ∧
        (lack ≠ [] → seg ≠ 63 → exec (.imgData t k id bl seg d) s = .next { y with fl := { s.fl with recv := some { r with got := got } } }) ∧
        (lack = [] → EndsIn (exec (.imgData t k id bl seg d) s) (fun x => ackSend x k id 0x10 0 bl 0) (fun u => ∃ bls, bls = (if bl ∈ r.blocks then r.blocks else bl :: r.blocks) ∧
          u.fl = { s.fl with recv := some { r with got := got, blocks := bls }, verify := (if bls.length = xferBlocks r.len then 1 else s.fl.verify) } ∧
          u.rd Reg.UPD_STATUS.blocks = low 10 bls.length ∧ OnlyRegs { y with fl := u.fl } u [Reg.UPD_STATUS.blocks.key 0])))) ∧
    (Tbl.find s.fl.send k = none → exec (.imgDataSend t k) s = .next σ ∧ exec (.imgAckTimeout t k) s = .next σ ∧
      ∀ id c e bl m, exec (.imgAck t k id c e bl m) s = .next σ) ∧
    (∀ x, Tbl.find s.fl.send k = some x → x.phase ≠ 2 ∨ σ.clk < x.nextAt ∨
        (x.resend = [] ∧ ¬(x.next < 64 * xferBlocks x.len ∧ (x.next % 64 ≠ 0 ∨ x.unacked.length < 4))) → exec (.imgDataSend t k) s = .next σ) ∧
    (∀ x x' n (ask : Bool), Tbl.find s.fl.send k = some x → x.phase = 2 → x.nextAt ≤ σ.clk →
      (∃ rest, (x.resend = n :: rest ∧ ask = rest.isEmpty ∧ x' = { x with resend := rest }) ∨
        (x.resend = [] ∧ n = x.next ∧ x.next < 64 * xferBlocks x.len ∧ (x.next % 64 ≠ 0 ∨ x.unacked.length < 4) ∧ ask = decide (x.next % 64 = 63) ∧
          x' = { x with next := x.next + 1, unacked := (if x.next % 64 = 0 then x.unacked ++ [x.next / 64] else x.unacked) })) →
      exec (.imgDataSend t k) s = .next (xferFrame σ k { x' with nextAt := σ.clk + 1024 * 1000 * nsU / max 1 (s.rd Reg.UPD_RATE.upd_rate) } rtData
        (leBytes 4 x.id ++ leBytes 2 (n / 64) ++ leBytes 1 (n % 64) ++ leBytes 1 0 ++ Mem.read s.mem (x.base + 1024 * n) (min 1024 (x.len - 1024 * n)) ++
          List.replicate (1024 - min 1024 (x.len - 1024 * n)) 0) ask)) ∧
    (∀ id c e bl m x (keep : Sender → State), Tbl.find s.fl.send k = some x → keep = (fun q => { σ with fl := { s.fl with send := s.fl.send.put k q } }) →
      (x.id ≠ id ∨ (c ≤ 3 ∧ x.phase ≠ 1) ∨ c ∉ [0, 1, 2, 3, 0x10, 0x11, 0x20, 0x21] → exec (.imgAck t k id c e bl m) s = .next σ) ∧
      (x.id = id → x.phase = 1 → exec (.imgAck t k id 0 e bl m) s = .next (keep { x with repeats := 0, phase := 2, askedAt := none })) ∧
      (x.id = id → (c = 1 ∨ c = 2) ∧ x.phase = 1 ∨ c = 0x20 → exec (.imgAck t k id c e bl m) s = .next (sendEnd σ k)) ∧
      (x.id = id → c = 3 ∧ x.phase = 1 ∨ c = 0x21 → exec (.imgAck t k id c e bl m) s = .next (setUpdErr (sendEnd σ k) e)) ∧
      (∀ left (ovr : Bool), x.id = id → left = x.unacked.filter (· != bl) → ovr = (left.isEmpty && x.resend.isEmpty && decide (64 * xferBlocks x.len ≤ x.next)) →
        exec (.imgAck t k id 0x10 e bl m) s = .next (keep { x with
          repeats := 0, unacked := left, phase := (if ovr then 3 else x.phase), askedAt := (if left.isEmpty && !ovr then none else some σ.clk) })) ∧
      (∀ segs, x.id = id → segs = ((List.range 64).filter (fun n => bit m n)).map (· + 64 * bl) →
        exec (.imgAck t k id 0x11 e bl m) s = .next (keep { x with
          repeats := 0, resend := segs ++ x.resend.filter (fun n => !segs.contains n), askedAt := some σ.clk }))) ∧
    (∀ x, Tbl.find s.fl.send k = some x →
      (x.askedAt = none ∨ (∃ a, x.askedAt = some a ∧ σ.clk < a + 100 * msU) → exec (.imgAckTimeout t k) s = .next σ) ∧
      (∀ a, x.askedAt = some a → a + 100 * msU ≤ σ.clk →
        (10 ≤ x.repeats → exec (.imgAckTimeout t k) s = .next (setUpdErr (sendEnd σ k) 8)) ∧
        (x.repeats < 10 → exec (.imgAckTimeout t k) s = .next (xferFrame σ k { x with repeats := x.repeats + 1 } x.lastType x.lastBody true)))) ∧
    (s.fl.verify = 0 → exec (.imageVerifyComplete t) s = .next σ) ∧
    (∀ e y, s.fl.verify ≠ 0 → e = imgError s (bufBase s) → y = setUpdErr { σ with fl := { s.fl with verify := 0, recv := none } } e →
      (e ≠ 0 → exec (.imageVerifyComplete t) s = .next (showStage (match s.fl.recv with | some r => ackSend y r.port r.id 0x21 e 0 0 | none => y))) ∧
      (∀ w, e = 0 → w = (match s.fl.recv with | some r => offer (ackSend y r.port r.id 0x20 0 0 0) (1 - r.port) (bufBase s) | none => y) →
        (s.fl.noImage = false → exec (.imageVerifyComplete t) s = .next (stageBegin w)) ∧
        (s.fl.noImage = true → flashOk s = true → exec (.imageVerifyComplete t) s = .next (imageStart (firstHalf w (bufBase s)) (halfBase 0) true)) ∧
        (s.fl.noImage = true → flashOk s = false → exec (.imageVerifyComplete t) s =
          .next (imageStart (flashRefuse { w with fl := { w.fl with halfDue := true } } 4) (bufBase s) true)))) ∧
    (∀ base, ∃ r, r.half = 0 ∧ r.armed = false ∧ r.unconfirmed = false ∧ r.fallback = false ∧
      firstHalf s base = recStore (imgCopy { s with fl := { s.fl with halfDue := false } } base (halfBase 0) 0x200_0000) r) ∧
    (∀ same, s.fl.staging = false → exec (.stagingWriteComplete t same) s = .next σ) ∧
    (∀ same, s.fl.staging = true → flashOk s = false → s.rd Reg.UPD_STATUS.stage_state = 6 → exec (.stagingWriteComplete t same) s = .next σ) ∧
    (∀ same, s.fl.staging = true → flashOk s = false → s.rd Reg.UPD_STATUS.stage_state ≠ 6 → EndsIn (exec (.stagingWriteComplete t same) s) (fun x => flashRefuse x 4) (fun u =>
      u.rd Reg.UPD_STATUS.stage_state = 6 ∧ OnlyRegs σ u [Reg.UPD_STATUS.stage_state.key 0])) ∧
    (s.fl.staging = true → flashOk s = true →
      Ends (exec (.stagingWriteComplete t true) s) (fun u => u.rd Reg.UPD_STATUS.stage_state = 3 ∧
        u.rd Reg.UPD_STAGE_VER.stage_ver = low 32 (imgVer (imgHeader u stagingBase)) ∧ u.fl = { s.fl with staging := false, rejected := false } ∧
        u.mem = (imgCopy σ (bufBase s) stagingBase 0x400_0000).mem ∧
        OnlyRegs { σ with fl := u.fl, mem := u.mem } u [Reg.UPD_STATUS.stage_state.key 0, Reg.UPD_STAGE_VER.stage_ver.key 0]) ∧
      Ends (exec (.stagingWriteComplete t false) s) (fun u => u.rd Reg.UPD_STATUS.stage_state = 0 ∧ u.rd Reg.UPD_STAGE_VER.stage_ver = 0 ∧
        u.rd Reg.UPD_STATUS.upd_err = 6 ∧ u.fl = { s.fl with staging := false, rejected := false } ∧
        (∀ x, stagingBase ≤ x → x < stagingBase + 0x400_0000 → Mem.get u.mem x = Mem.empty) ∧
        (∀ x, x < stagingBase ∨ stagingBase + 0x400_0000 ≤ x → Mem.get u.mem x = Mem.get s.mem x) ∧
        OnlyRegs { σ with fl := u.fl, mem := u.mem } u [Reg.UPD_STATUS.stage_state.key 0, Reg.UPD_STAGE_VER.stage_ver.key 0, Reg.UPD_STATUS.upd_err.key 0])) ∧
    (∀ lv v, (2 ≤ k → exec (.levels t k lv v) s = .next σ) ∧ (k < 2 → Ends (exec (.levels t k lv v) s) (fun u => u.on Reg.UPD_PEER.known k = true ∧
      u.rd Reg.UPD_PEER.peer_levels k = low 24 lv ∧ u.fl = { s.fl with peerVer := s.fl.peerVer.put k v } ∧
      OnlyRegs { σ with fl := u.fl } u [Reg.UPD_PEER.known.key k, Reg.UPD_PEER.peer_levels.key k]))) ∧
    (facesDevice s k = false → exec (.levelsSend t k) s = .next σ) ∧
    (facesDevice s k = true → exec (.levelsSend t k) s = .next (linkOne σ k rtLevels (levelsBody σ)))

/-- GP-40 commands and supplies. Outside GP-40 mode, or with host access closed, they do nothing. A write of GP_CTRL with `run` 1 and a legal `one_size` takes its fields and, while no run is on, builds and loads the entries of a run: all in effect, `run` reads 1 and an epoch to PRINT is scheduled 100 µs ahead; else `cfg_err` reads 1. With `run` 0 the job ends and an epoch to ORDERLY_STOP is scheduled. GP_DMA_GO with an entry of the page queue free copies the page in, coded into bands, and publishes it. A read of GP_INT_STAT returns every set bit and clears them; the key opens BAR2. A supply excursion is kept with its lowest voltage, posted as event 0x0E01, and refuses flash writes as a refusal does; a rail lost for longer is a reset. -/
def Obligations.Gp40AndSupplies : Prop :=
  (∀ (z u : State) (v r : Nat), u = gpCtrl z v r → u.rd Reg.GP_CTRL.int_en = bits v 8 1 ∧ u.rd Reg.GP_CTRL.one_size = bits v 2 2 ∧
    u.rd Reg.GP_CTRL.depth = bits v 1 1 ∧ u.rd Reg.GP_CTRL.run = low 1 r ∧
    OnlyRegs z u [Reg.GP_CTRL.int_en.key 0, Reg.GP_CTRL.one_size.key 0, Reg.GP_CTRL.depth.key 0, Reg.GP_CTRL.run.key 0]) ∧
  (∀ (z : State) (m q : Nat), (epochOutstanding z = true ∨ epochAllowed z.mode m = false → gpEpoch z m = z) ∧
    (epochOutstanding z = false → epochAllowed z.mode m = true → q = (z.md.mySeq + 1) % 2 ^ 18 →
      gpEpoch z m = epochSet { z with md := { z.md with mySeq := q } } (q * 16384 + nodeNow z) m (z.devTime + 100 * usU)
        (z.devTime + 100 * usU + epochTimeoutU z) false)) ∧
  ∀ (s σ : State) (t v : Nat), σ = s.at t →
    (bit v 0 = false ∨ gpOpen s = false ∨ bits v 2 2 = 0 → exec (.gpRunStart t v) s = .next σ.settle) ∧
    (bit v 0 = true → gpOpen s = true → bits v 2 2 ≠ 0 →
      (s.on Reg.GP_CTRL.run = true → exec (.gpRunStart t v) s = .next (gpCtrl σ v 1).settle) ∧
      (∀ y r, s.on Reg.GP_CTRL.run = false → y = { gpCtrl σ v 0 with mem := Mem.write s.mem gpWave (List.replicate 256 0) } →
        r = (if gpBuildable y then gpLoadAll y (gpEntries y) else (y, false)) →
        (r.2 = false → EndsIn (exec (.gpRunStart t v) s) State.settle (fun u => u.on Reg.GP_STATUS.cfg_err = true ∧
          OnlyRegs r.1 u [Reg.GP_STATUS.cfg_err.key 0])) ∧
        (r.2 = true → EndsIn (exec (.gpRunStart t v) s) (fun x => (gpEpoch x modePrint).settle) (fun u => u.on Reg.GP_CTRL.run = true ∧
          u.on Reg.GP_STATUS.cfg_err = false ∧ u.rd Reg.FS_PITCH.line_pitch = low Reg.FS_PITCH.line_pitch.width (r.1.rd Reg.GP_LINE_PITCH.gp_pitch) ∧
          u.rd Reg.GP_LINE_COUNT.line_count = 0 ∧ u.gp.first = true ∧ u.gp.pages = 0 ∧ u.gp.ending = false ∧
          OnlyRegs { r.1 with gp := u.gp } u [Reg.GP_CTRL.run.key 0, Reg.GP_STATUS.cfg_err.key 0, Reg.FS_PITCH.line_pitch.key 0, Reg.GP_LINE_COUNT.line_count.key 0])))) ∧
    (bit v 0 = true ∨ gpOpen s = false ∨ bits v 2 2 = 0 → exec (.gpRunStop t v) s = .next σ.settle) ∧
    (bit v 0 = false → gpOpen s = true → bits v 2 2 ≠ 0 →
      (s.on Reg.GP_CTRL.run = false → exec (.gpRunStop t v) s = .next (gpCtrl σ v 0).settle) ∧
      (s.on Reg.GP_CTRL.run = true → exec (.gpRunStop t v) s = .next (gpEpoch (gpJobEnd (gpCtrl σ v 0)) modeStop).settle)) ∧
    (gpOpen s = false ∨ gpQfree s = 0 ∨ s.on Reg.GP_CTRL.run = false ∨ s.rd Reg.GP_DMA_LINES.dma_lines = 0 ∨ s.rd Reg.GP_DMA_STRIDE.stride = 0 →
      exec (.gpDmaGo t) s = .next σ.settle) ∧
    (∀ lines stride src bands first data size pl, lines = s.rd Reg.GP_DMA_LINES.dma_lines → stride = s.rd Reg.GP_DMA_STRIDE.stride → gpOpen s = true →
      gpQfree s ≠ 0 → s.on Reg.GP_CTRL.run = true → lines ≠ 0 → stride ≠ 0 →
      src = hostBit + s.rd2 Reg.GP_DMA_ADDR_LO.dma_addr_lo Reg.GP_DMA_ADDR_HI.dma_addr_hi % hostBit → bands = (lines + 255) / 256 →
      first = (if s.gp.first then 0 else match s.la.jobs.getLast? with | some j => s.la.endLine - j.base | none => 0) →
      data = (gpPlanes s).flatMap (fun p => (List.range bands).map (fun b =>
        (16 * b + p, gpBand σ p src stride first b (min 256 (lines - 256 * b)) ((gpColumns s p 0).getD 0)))) →
      size = 64 + 128 * bands + data.foldl (fun n d => n + d.2.length) 0 →
      pl = (if bufBase s < alignUp (max 4096 s.gp.place) 64 + size then 4096 else alignUp (max 4096 s.gp.place) 64) →
      EndsIn (exec (.gpDmaGo t) s) (fun x => (let r := linePage x pl first
          if r.2 = 0 then r.1 else { r.1 with gp := { r.1.gp with first := false, pages := r.1.gp.pages + 1, place := pl + size } }).settle) (fun u =>
        u.regs = s.regs ∧ u.la = s.la ∧ u.gp = s.gp ∧ (∀ x, x < pl ∨ pl + size ≤ x → Mem.get u.mem x = Mem.get s.mem x) ∧
        (s.frozen = false → s.mode ≠ modeShadow → pl + size ≤ stacksSize → Mem.read u.mem pl 36 = leBytes 4 0x4F494C46 ++ leBytes 2 1 ++
          leBytes 1 (ofBool s.gp.first) ++ leBytes 1 0 ++ leBytes 4 0 ++ leBytes 4 s.gp.pages ++ leBytes 4 lines ++
          leBytes 2 ((gpPlanes s).foldl (fun m p => m + 2 ^ p) 0) ++ leBytes 2 (min lines 256) ++ leBytes 8 (pl + 64) ++ leBytes 4 bands))) ∧
    (∀ (fs : List Fld), fs = [Reg.GP_INT_STAT.dma_error, Reg.GP_INT_STAT.head_fault, Reg.GP_INT_STAT.line_wrap, Reg.GP_INT_STAT.underrun, Reg.GP_INT_STAT.page_done] →
      (gpOpen s = false → Ends (exec (.gpIntStatRead t) s) (fun u => u = { σ with out := .readData 17 0 :: s.out })) ∧
      (gpOpen s = true → Ends (exec (.gpIntStatRead t) s) (fun u => (∀ f, f ∈ fs → u.rd f = 0) ∧
        u.out = .readData 17 (fs.foldl (fun n f => n + s.rd f * 2 ^ f.lsb) 0) :: s.out ∧ OnlyRegs { σ with out := u.out } u (fs.map (fun f => f.key 0))))) ∧
    (gpOpen s = false ∨ v ≠ 0xB2B2 → exec (.gpUnlock t v) s = .next σ) ∧
    (gpOpen s = true → Ends (exec (.gpUnlock t 0xB2B2) s) (fun u => u.on Reg.LX_PERSONA.bar2_open = true ∧ u.on Reg.GP_EXT.bar2_open = true ∧
      OnlyRegs σ u [Reg.LX_PERSONA.bar2_open.key 0, Reg.GP_EXT.bar2_open.key 0])) ∧
    (∀ rail, 10 ≤ rail → exec (.supplyExcursion t rail v) s = .next σ ∧ exec (.supplyOutOfRange t rail) s = .next σ) ∧
    (∀ rail lo, rail < 10 → lo = (if s.rd Reg.PKG_SUPPLY_VAL.v_min rail = 0 then v else min v (s.rd Reg.PKG_SUPPLY_VAL.v_min rail)) →
      EndsIn (exec (.supplyExcursion t rail v) s) (fun x => (flashUpdate x).event 0x0E01 noChan 0 rail lo) (fun u =>
        u.rd Reg.PKG_SUPPLY_STATUS.excursion = low 10 (Nat.lor (s.rd Reg.PKG_SUPPLY_STATUS.excursion) (2 ^ rail)) ∧
        u.rd Reg.PKG_SUPPLY_VAL.v_min rail = low 16 lo ∧ u.th = { s.th with refused := true, goodAt := none } ∧
        OnlyRegs { σ with th := u.th } u [Reg.PKG_SUPPLY_STATUS.excursion.key 0, Reg.PKG_SUPPLY_VAL.v_min.key rail])) ∧
    (∀ rail bad, rail < 10 → bad = rail :: s.th.railsBad.filter (· != rail) → Ends (exec (.supplyOutOfRange t rail) s) (fun u =>
      u.rd Reg.PKG_SUPPLY_STATUS.in_range = low 10 (bad.foldl (fun n r => n - 2 ^ r) 0x3FF) ∧ u.th = { Thermal.reset with railsBad := bad } ∧
      u.mode = modeCold ∧ OnlyRegs (coldWipe { σ with th := { s.th with railsBad := bad } }) u [Reg.PKG_SUPPLY_STATUS.in_range.key 0]))
end

