-- ==== Sys2Proof/Laws/Exec.lean ====
section
/-! SUPPORT. The meaning that `exec` calls for each command, one equation per command. -/

namespace Sys2Proof.Laws

open Sys2Proof.Machine

set_option Elab.async false

@[simp] theorem exec_registerWrite (t src addr size value : Nat) (s : State) : exec (.registerWrite t src addr size value) s = execRegisterWrite t src addr size value s := rfl
@[simp] theorem exec_rcRegisterRead (t src addr size : Nat) (s : State) : exec (.rcRegisterRead t src addr size) s = execRcRegisterRead t src addr size s := rfl
@[simp] theorem exec_catInvalidate (t channel : Nat) (s : State) : exec (.catInvalidate t channel) s = execCatInvalidate t channel s := rfl
@[simp] theorem exec_catInvalidateAll (t : Nat) (s : State) : exec (.catInvalidateAll t) s = execCatInvalidateAll t s := rfl
@[simp] theorem exec_catalogFetchComplete (t channel : Nat) (s : State) : exec (.catalogFetchComplete t channel) s = execCatalogFetchComplete t channel s := rfl
@[simp] theorem exec_catLock (t : Nat) (s : State) : exec (.catLock t) s = execCatLock t s := rfl
@[simp] theorem exec_ledgerSnapWrite (t : Nat) (s : State) : exec (.ledgerSnapWrite t) s = execLedgerSnapWrite t s := rfl
@[simp] theorem exec_ledgerSnapComplete (t : Nat) (s : State) : exec (.ledgerSnapComplete t) s = execLedgerSnapComplete t s := rfl
@[simp] theorem exec_ringProducerWrite (t ring index : Nat) (s : State) : exec (.ringProducerWrite t ring index) s = execRingProducerWrite t ring index s := rfl
@[simp] theorem exec_ringConsumerWrite (t ring index : Nat) (s : State) : exec (.ringConsumerWrite t ring index) s = execRingConsumerWrite t ring index s := rfl
@[simp] theorem exec_irqHoldoffExpiry (t ring : Nat) (s : State) : exec (.irqHoldoffExpiry t ring) s = execIrqHoldoffExpiry t ring s := rfl
@[simp] theorem exec_powerReqWrite (t req : Nat) (s : State) : exec (.powerReqWrite t req) s = execPowerReqWrite t req s := rfl
@[simp] theorem exec_powerStateReached (t : Nat) (s : State) : exec (.powerStateReached t) s = execPowerStateReached t s := rfl
@[simp] theorem exec_epochSchedule (t target : Nat) (system : Bool) (s : State) : exec (.epochSchedule t target system) s = execEpochSchedule t target system s := rfl
@[simp] theorem exec_epochCancel (t : Nat) (s : State) : exec (.epochCancel t) s = execEpochCancel t s := rfl
@[simp] theorem exec_epochInstant (t : Nat) (s : State) : exec (.epochInstant t) s = execEpochInstant t s := rfl
@[simp] theorem exec_epochTimeout (t : Nat) (s : State) : exec (.epochTimeout t) s = execEpochTimeout t s := rfl
@[simp] theorem exec_rollbackEpoch (t : Nat) (s : State) : exec (.rollbackEpoch t) s = execRollbackEpoch t s := rfl
@[simp] theorem exec_add (p rd rs1 rs2 : Nat) (s : State) : exec (.add p rd rs1 rs2) s = execAdd p rd rs1 rs2 s := rfl
@[simp] theorem exec_sub (p rd rs1 rs2 : Nat) (s : State) : exec (.sub p rd rs1 rs2) s = execSub p rd rs1 rs2 s := rfl
@[simp] theorem exec_andR (p rd rs1 rs2 : Nat) (s : State) : exec (.andR p rd rs1 rs2) s = execAndR p rd rs1 rs2 s := rfl
@[simp] theorem exec_orR (p rd rs1 rs2 : Nat) (s : State) : exec (.orR p rd rs1 rs2) s = execOrR p rd rs1 rs2 s := rfl
@[simp] theorem exec_xorR (p rd rs1 rs2 : Nat) (s : State) : exec (.xorR p rd rs1 rs2) s = execXorR p rd rs1 rs2 s := rfl
@[simp] theorem exec_sll (p rd rs1 rs2 : Nat) (s : State) : exec (.sll p rd rs1 rs2) s = execSll p rd rs1 rs2 s := rfl
@[simp] theorem exec_srl (p rd rs1 rs2 : Nat) (s : State) : exec (.srl p rd rs1 rs2) s = execSrl p rd rs1 rs2 s := rfl
@[simp] theorem exec_sra (p rd rs1 rs2 : Nat) (s : State) : exec (.sra p rd rs1 rs2) s = execSra p rd rs1 rs2 s := rfl
@[simp] theorem exec_slt (p rd rs1 rs2 : Nat) (s : State) : exec (.slt p rd rs1 rs2) s = execSlt p rd rs1 rs2 s := rfl
@[simp] theorem exec_sltu (p rd rs1 rs2 : Nat) (s : State) : exec (.sltu p rd rs1 rs2) s = execSltu p rd rs1 rs2 s := rfl
@[simp] theorem exec_mul (p rd rs1 rs2 : Nat) (s : State) : exec (.mul p rd rs1 rs2) s = execMul p rd rs1 rs2 s := rfl
@[simp] theorem exec_mulh (p rd rs1 rs2 : Nat) (s : State) : exec (.mulh p rd rs1 rs2) s = execMulh p rd rs1 rs2 s := rfl
@[simp] theorem exec_mulhu (p rd rs1 rs2 : Nat) (s : State) : exec (.mulhu p rd rs1 rs2) s = execMulhu p rd rs1 rs2 s := rfl
@[simp] theorem exec_divu (p rd rs1 rs2 : Nat) (s : State) : exec (.divu p rd rs1 rs2) s = execDivu p rd rs1 rs2 s := rfl
@[simp] theorem exec_remu (p rd rs1 rs2 : Nat) (s : State) : exec (.remu p rd rs1 rs2) s = execRemu p rd rs1 rs2 s := rfl
@[simp] theorem exec_minS (p rd rs1 rs2 : Nat) (s : State) : exec (.minS p rd rs1 rs2) s = execMinS p rd rs1 rs2 s := rfl
@[simp] theorem exec_maxS (p rd rs1 rs2 : Nat) (s : State) : exec (.maxS p rd rs1 rs2) s = execMaxS p rd rs1 rs2 s := rfl
@[simp] theorem exec_minu (p rd rs1 rs2 : Nat) (s : State) : exec (.minu p rd rs1 rs2) s = execMinu p rd rs1 rs2 s := rfl
@[simp] theorem exec_maxu (p rd rs1 rs2 : Nat) (s : State) : exec (.maxu p rd rs1 rs2) s = execMaxu p rd rs1 rs2 s := rfl
@[simp] theorem exec_clz (p rd rs1 : Nat) (s : State) : exec (.clz p rd rs1) s = execClz p rd rs1 s := rfl
@[simp] theorem exec_popc (p rd rs1 : Nat) (s : State) : exec (.popc p rd rs1) s = execPopc p rd rs1 s := rfl
@[simp] theorem exec_bfx (p rd rs1 rs2 k : Nat) (s : State) : exec (.bfx p rd rs1 rs2 k) s = execBfx p rd rs1 rs2 k s := rfl
@[simp] theorem exec_addi (p rd rs1 imm : Nat) (s : State) : exec (.addi p rd rs1 imm) s = execAddi p rd rs1 imm s := rfl
@[simp] theorem exec_andi (p rd rs1 imm : Nat) (s : State) : exec (.andi p rd rs1 imm) s = execAndi p rd rs1 imm s := rfl
@[simp] theorem exec_ori (p rd rs1 imm : Nat) (s : State) : exec (.ori p rd rs1 imm) s = execOri p rd rs1 imm s := rfl
@[simp] theorem exec_xori (p rd rs1 imm : Nat) (s : State) : exec (.xori p rd rs1 imm) s = execXori p rd rs1 imm s := rfl
@[simp] theorem exec_lui (p rd imm : Nat) (s : State) : exec (.lui p rd imm) s = execLui p rd imm s := rfl
@[simp] theorem exec_slti (p rd rs1 imm : Nat) (s : State) : exec (.slti p rd rs1 imm) s = execSlti p rd rs1 imm s := rfl
@[simp] theorem exec_shi (p rd rs1 imm : Nat) (s : State) : exec (.shi p rd rs1 imm) s = execShi p rd rs1 imm s := rfl
@[simp] theorem exec_lb (p rt base win imm : Nat) (s : State) : exec (.lb p rt base win imm) s = execLb p rt base win imm s := rfl
@[simp] theorem exec_lh (p rt base win imm : Nat) (s : State) : exec (.lh p rt base win imm) s = execLh p rt base win imm s := rfl
@[simp] theorem exec_lw (p rt base win imm : Nat) (s : State) : exec (.lw p rt base win imm) s = execLw p rt base win imm s := rfl
@[simp] theorem exec_ld (p rt base win imm : Nat) (s : State) : exec (.ld p rt base win imm) s = execLd p rt base win imm s := rfl
@[simp] theorem exec_lbu (p rt base win imm : Nat) (s : State) : exec (.lbu p rt base win imm) s = execLbu p rt base win imm s := rfl
@[simp] theorem exec_lhu (p rt base win imm : Nat) (s : State) : exec (.lhu p rt base win imm) s = execLhu p rt base win imm s := rfl
@[simp] theorem exec_lwu (p rt base win imm : Nat) (s : State) : exec (.lwu p rt base win imm) s = execLwu p rt base win imm s := rfl
@[simp] theorem exec_sb (p rt base win imm : Nat) (s : State) : exec (.sb p rt base win imm) s = execSb p rt base win imm s := rfl
@[simp] theorem exec_sh (p rt base win imm : Nat) (s : State) : exec (.sh p rt base win imm) s = execSh p rt base win imm s := rfl
@[simp] theorem exec_sw (p rt base win imm : Nat) (s : State) : exec (.sw p rt base win imm) s = execSw p rt base win imm s := rfl
@[simp] theorem exec_sd (p rt base win imm : Nat) (s : State) : exec (.sd p rt base win imm) s = execSd p rt base win imm s := rfl
@[simp] theorem exec_amo (p rt base win rs2 fn : Nat) (s : State) : exec (.amo p rt base win rs2 fn) s = execAmo p rt base win rs2 fn s := rfl
@[simp] theorem exec_beq (p rs1 rs2 off : Nat) (s : State) : exec (.beq p rs1 rs2 off) s = execBeq p rs1 rs2 off s := rfl
@[simp] theorem exec_bne (p rs1 rs2 off : Nat) (s : State) : exec (.bne p rs1 rs2 off) s = execBne p rs1 rs2 off s := rfl
@[simp] theorem exec_blt (p rs1 rs2 off : Nat) (s : State) : exec (.blt p rs1 rs2 off) s = execBlt p rs1 rs2 off s := rfl
@[simp] theorem exec_bge (p rs1 rs2 off : Nat) (s : State) : exec (.bge p rs1 rs2 off) s = execBge p rs1 rs2 off s := rfl
@[simp] theorem exec_bltu (p rs1 rs2 off : Nat) (s : State) : exec (.bltu p rs1 rs2 off) s = execBltu p rs1 rs2 off s := rfl
@[simp] theorem exec_bgeu (p rs1 rs2 off : Nat) (s : State) : exec (.bgeu p rs1 rs2 off) s = execBgeu p rs1 rs2 off s := rfl
@[simp] theorem exec_jal (p off : Nat) (s : State) : exec (.jal p off) s = execJal p off s := rfl
@[simp] theorem exec_jalr (p rd rs1 imm : Nat) (s : State) : exec (.jalr p rd rs1 imm) s = execJalr p rd rs1 imm s := rfl
@[simp] theorem exec_ringPush (p rd rs1 rs2 : Nat) (s : State) : exec (.ringPush p rd rs1 rs2) s = execRingPush p rd rs1 rs2 s := rfl
@[simp] theorem exec_ringPop (p rd rs1 rs2 : Nat) (s : State) : exec (.ringPop p rd rs1 rs2) s = execRingPop p rd rs1 rs2 s := rfl
@[simp] theorem exec_ringDone (p rd rs1 rs2 : Nat) (s : State) : exec (.ringDone p rd rs1 rs2) s = execRingDone p rd rs1 rs2 s := rfl
@[simp] theorem exec_ringStat (p rd rs1 : Nat) (s : State) : exec (.ringStat p rd rs1) s = execRingStat p rd rs1 s := rfl
@[simp] theorem exec_ledgerSnap (p rd : Nat) (s : State) : exec (.ledgerSnap p rd) s = execLedgerSnap p rd s := rfl
@[simp] theorem exec_ledgerSeq (p rd : Nat) (s : State) : exec (.ledgerSeq p rd) s = execLedgerSeq p rd s := rfl
@[simp] theorem exec_ledgerRead (p rd rs1 : Nat) (s : State) : exec (.ledgerRead p rd rs1) s = execLedgerRead p rd rs1 s := rfl
@[simp] theorem exec_ledgerLine (p rd : Nat) (s : State) : exec (.ledgerLine p rd) s = execLedgerLine p rd s := rfl
@[simp] theorem exec_timeNow (p rd : Nat) (s : State) : exec (.timeNow p rd) s = execTimeNow p rd s := rfl
@[simp] theorem exec_timeWait (p rs1 : Nat) (s : State) : exec (.timeWait p rs1) s = execTimeWait p rs1 s := rfl
@[simp] theorem exec_timeWaitExpiry (t p slice : Nat) (s : State) : exec (.timeWaitExpiry t p slice) s = execTimeWaitExpiry t p slice s := rfl
@[simp] theorem exec_timeCap (p rd rs1 : Nat) (s : State) : exec (.timeCap p rd rs1) s = execTimeCap p rd rs1 s := rfl
@[simp] theorem exec_timeCapn (p rd rs1 : Nat) (s : State) : exec (.timeCapn p rd rs1) s = execTimeCapn p rd rs1 s := rfl
@[simp] theorem exec_timeArm (p rd rs1 rs2 : Nat) (s : State) : exec (.timeArm p rd rs1 rs2) s = execTimeArm p rd rs1 rs2 s := rfl
@[simp] theorem exec_catInv (p rs1 : Nat) (s : State) : exec (.catInv p rs1) s = execCatInv p rs1 s := rfl
@[simp] theorem exec_catGen (p rd rs1 : Nat) (s : State) : exec (.catGen p rd rs1) s = execCatGen p rd rs1 s := rfl
@[simp] theorem exec_catAddr (p rd rs1 : Nat) (s : State) : exec (.catAddr p rd rs1) s = execCatAddr p rd rs1 s := rfl
@[simp] theorem exec_catWin (p rd k : Nat) (s : State) : exec (.catWin p rd k) s = execCatWin p rd k s := rfl
@[simp] theorem exec_catWsize (p rd k : Nat) (s : State) : exec (.catWsize p rd k) s = execCatWsize p rd k s := rfl
@[simp] theorem exec_linePage (p rd rs1 rs2 : Nat) (s : State) : exec (.linePage p rd rs1 rs2) s = execLinePage p rd rs1 rs2 s := rfl
@[simp] theorem exec_lineStat (p rd k : Nat) (s : State) : exec (.lineStat p rd k) s = execLineStat p rd k s := rfl
@[simp] theorem exec_substSet (p rd rs1 rs2 : Nat) (s : State) : exec (.substSet p rd rs1 rs2) s = execSubstSet p rd rs1 rs2 s := rfl
@[simp] theorem exec_substClr (p rd rs1 rs2 : Nat) (s : State) : exec (.substClr p rd rs1 rs2) s = execSubstClr p rd rs1 rs2 s := rfl
@[simp] theorem exec_substGet (p rd rs1 k : Nat) (s : State) : exec (.substGet p rd rs1 k) s = execSubstGet p rd rs1 k s := rfl
@[simp] theorem exec_statSeg (p rd rs1 rs2 : Nat) (s : State) : exec (.statSeg p rd rs1 rs2) s = execStatSeg p rd rs1 rs2 s := rfl
@[simp] theorem exec_statVcol (p vd rs1 rs2 : Nat) (s : State) : exec (.statVcol p vd rs1 rs2) s = execStatVcol p vd rs1 rs2 s := rfl
@[simp] theorem exec_statColframe (p rd rs1 : Nat) (s : State) : exec (.statColframe p rd rs1) s = execStatColframe p rd rs1 s := rfl
@[simp] theorem exec_statExpo (p rd rs1 rs2 : Nat) (s : State) : exec (.statExpo p rd rs1 rs2) s = execStatExpo p rd rs1 rs2 s := rfl
@[simp] theorem exec_statFrame (p rd rs1 : Nat) (s : State) : exec (.statFrame p rd rs1) s = execStatFrame p rd rs1 s := rfl
@[simp] theorem exec_syncInit (p rs1 rs2 : Nat) (s : State) : exec (.syncInit p rs1 rs2) s = execSyncInit p rs1 rs2 s := rfl
@[simp] theorem exec_syncArrive (p rd rs1 : Nat) (s : State) : exec (.syncArrive p rd rs1) s = execSyncArrive p rd rs1 s := rfl
@[simp] theorem exec_syncWait (p rs1 rs2 : Nat) (s : State) : exec (.syncWait p rs1 rs2) s = execSyncWait p rs1 rs2 s := rfl
@[simp] theorem exec_syncArm (p rs1 rs2 : Nat) (s : State) : exec (.syncArm p rs1 rs2) s = execSyncArm p rs1 rs2 s := rfl
@[simp] theorem exec_sysYield (p : Nat) (s : State) : exec (.sysYield p) s = execSysYield p s := rfl
@[simp] theorem exec_sysEnd (p : Nat) (s : State) : exec (.sysEnd p) s = execSysEnd p s := rfl
@[simp] theorem exec_sysFence (p : Nat) (s : State) : exec (.sysFence p) s = execSysFence p s := rfl
@[simp] theorem exec_sysCsrr (p rd c : Nat) (s : State) : exec (.sysCsrr p rd c) s = execSysCsrr p rd c s := rfl
@[simp] theorem exec_sysCsrw (p rs1 c : Nat) (s : State) : exec (.sysCsrw p rs1 c) s = execSysCsrw p rs1 c s := rfl
@[simp] theorem exec_sysArm (p rs1 : Nat) (s : State) : exec (.sysArm p rs1) s = execSysArm p rs1 s := rfl
@[simp] theorem exec_sysDisarm (p rs1 : Nat) (s : State) : exec (.sysDisarm p rs1) s = execSysDisarm p rs1 s := rfl
@[simp] theorem exec_sysTrap (p k : Nat) (s : State) : exec (.sysTrap p k) s = execSysTrap p k s := rfl
@[simp] theorem exec_sysStart (p rs1 rs2 : Nat) (s : State) : exec (.sysStart p rs1 rs2) s = execSysStart p rs1 rs2 s := rfl
@[simp] theorem exec_sysHalt (p rs1 : Nat) (s : State) : exec (.sysHalt p rs1) s = execSysHalt p rs1 s := rfl
@[simp] theorem exec_vadd (p vd vs1 vs2 : Nat) (s : State) : exec (.vadd p vd vs1 vs2) s = execVadd p vd vs1 vs2 s := rfl
@[simp] theorem exec_vsub (p vd vs1 vs2 : Nat) (s : State) : exec (.vsub p vd vs1 vs2) s = execVsub p vd vs1 vs2 s := rfl
@[simp] theorem exec_vadds (p vd vs1 vs2 : Nat) (s : State) : exec (.vadds p vd vs1 vs2) s = execVadds p vd vs1 vs2 s := rfl
@[simp] theorem exec_vsubs (p vd vs1 vs2 : Nat) (s : State) : exec (.vsubs p vd vs1 vs2) s = execVsubs p vd vs1 vs2 s := rfl
@[simp] theorem exec_vaddus (p vd vs1 vs2 : Nat) (s : State) : exec (.vaddus p vd vs1 vs2) s = execVaddus p vd vs1 vs2 s := rfl
@[simp] theorem exec_vsubus (p vd vs1 vs2 : Nat) (s : State) : exec (.vsubus p vd vs1 vs2) s = execVsubus p vd vs1 vs2 s := rfl
@[simp] theorem exec_vmul (p vd vs1 vs2 : Nat) (s : State) : exec (.vmul p vd vs1 vs2) s = execVmul p vd vs1 vs2 s := rfl
@[simp] theorem exec_vmulh (p vd vs1 vs2 : Nat) (s : State) : exec (.vmulh p vd vs1 vs2) s = execVmulh p vd vs1 vs2 s := rfl
@[simp] theorem exec_vmulq (p vd vs1 vs2 : Nat) (s : State) : exec (.vmulq p vd vs1 vs2) s = execVmulq p vd vs1 vs2 s := rfl
@[simp] theorem exec_vmin (p vd vs1 vs2 : Nat) (s : State) : exec (.vmin p vd vs1 vs2) s = execVmin p vd vs1 vs2 s := rfl
@[simp] theorem exec_vmax (p vd vs1 vs2 : Nat) (s : State) : exec (.vmax p vd vs1 vs2) s = execVmax p vd vs1 vs2 s := rfl
@[simp] theorem exec_vminu (p vd vs1 vs2 : Nat) (s : State) : exec (.vminu p vd vs1 vs2) s = execVminu p vd vs1 vs2 s := rfl
@[simp] theorem exec_vmaxu (p vd vs1 vs2 : Nat) (s : State) : exec (.vmaxu p vd vs1 vs2) s = execVmaxu p vd vs1 vs2 s := rfl
@[simp] theorem exec_vabsdu (p vd vs1 vs2 : Nat) (s : State) : exec (.vabsdu p vd vs1 vs2) s = execVabsdu p vd vs1 vs2 s := rfl
@[simp] theorem exec_vand (p vd vs1 vs2 : Nat) (s : State) : exec (.vand p vd vs1 vs2) s = execVand p vd vs1 vs2 s := rfl
@[simp] theorem exec_vor (p vd vs1 vs2 : Nat) (s : State) : exec (.vor p vd vs1 vs2) s = execVor p vd vs1 vs2 s := rfl
@[simp] theorem exec_vxor (p vd vs1 vs2 : Nat) (s : State) : exec (.vxor p vd vs1 vs2) s = execVxor p vd vs1 vs2 s := rfl
@[simp] theorem exec_vshl (p vd vs1 k : Nat) (s : State) : exec (.vshl p vd vs1 k) s = execVshl p vd vs1 k s := rfl
@[simp] theorem exec_vsrl (p vd vs1 k : Nat) (s : State) : exec (.vsrl p vd vs1 k) s = execVsrl p vd vs1 k s := rfl
@[simp] theorem exec_vsra (p vd vs1 k : Nat) (s : State) : exec (.vsra p vd vs1 k) s = execVsra p vd vs1 k s := rfl
@[simp] theorem exec_vcgt (p vd vs1 vs2 : Nat) (s : State) : exec (.vcgt p vd vs1 vs2) s = execVcgt p vd vs1 vs2 s := rfl
@[simp] theorem exec_vcgtu (p vd vs1 vs2 : Nat) (s : State) : exec (.vcgtu p vd vs1 vs2) s = execVcgtu p vd vs1 vs2 s := rfl
@[simp] theorem exec_vceq (p vd vs1 vs2 : Nat) (s : State) : exec (.vceq p vd vs1 vs2) s = execVceq p vd vs1 vs2 s := rfl
@[simp] theorem exec_vsel (p vd vs1 vs2 : Nat) (s : State) : exec (.vsel p vd vs1 vs2) s = execVsel p vd vs1 vs2 s := rfl
@[simp] theorem exec_vema (p vd vs1 k : Nat) (s : State) : exec (.vema p vd vs1 k) s = execVema p vd vs1 k s := rfl
@[simp] theorem exec_vsplat (p vd rs1 : Nat) (s : State) : exec (.vsplat p vd rs1) s = execVsplat p vd rs1 s := rfl
@[simp] theorem exec_vextu (p rd vs1 k : Nat) (s : State) : exec (.vextu p rd vs1 k) s = execVextu p rd vs1 k s := rfl
@[simp] theorem exec_vins (p vd rs1 k : Nat) (s : State) : exec (.vins p vd rs1 k) s = execVins p vd rs1 k s := rfl
@[simp] theorem exec_vredadd (p rd vs1 : Nat) (s : State) : exec (.vredadd p rd vs1) s = execVredadd p rd vs1 s := rfl
@[simp] theorem exec_vany (p rd vs1 : Nat) (s : State) : exec (.vany p rd vs1) s = execVany p rd vs1 s := rfl
@[simp] theorem exec_vld (p vt base win imm : Nat) (s : State) : exec (.vld p vt base win imm) s = execVld p vt base win imm s := rfl
@[simp] theorem exec_vst (p vt base win imm : Nat) (s : State) : exec (.vst p vt base win imm) s = execVst p vt base win imm s := rfl
@[simp] theorem exec_sliceMaxExceeded (t p : Nat) (s : State) : exec (.sliceMaxExceeded t p) s = execSliceMaxExceeded t p s := rfl
@[simp] theorem exec_sliceUrgencyRise (t p : Nat) (s : State) : exec (.sliceUrgencyRise t p) s = execSliceUrgencyRise t p s := rfl
@[simp] theorem exec_scribeRestart (t logical : Nat) (s : State) : exec (.scribeRestart t logical) s = execScribeRestart t logical s := rfl
@[simp] theorem exec_scribeRestartComplete (t logical : Nat) (s : State) : exec (.scribeRestartComplete t logical) s = execScribeRestartComplete t logical s := rfl
@[simp] theorem exec_scribeSubstituteComplete (t phys : Nat) (s : State) : exec (.scribeSubstituteComplete t phys) s = execScribeSubstituteComplete t phys s := rfl
@[simp] theorem exec_copyIn (t ring : Nat) (s : State) : exec (.copyIn t ring) s = execCopyIn t ring s := rfl
@[simp] theorem exec_copyInComplete (t ring : Nat) (s : State) : exec (.copyInComplete t ring) s = execCopyInComplete t ring s := rfl
@[simp] theorem exec_put32 (t ring : Nat) (s : State) : exec (.put32 t ring) s = execPut32 t ring s := rfl
@[simp] theorem exec_readyBandsPoll (t : Nat) (s : State) : exec (.readyBandsPoll t) s = execReadyBandsPoll t s := rfl
@[simp] theorem exec_lineAccept (t : Nat) (s : State) : exec (.lineAccept t) s = execLineAccept t s := rfl
@[simp] theorem exec_lineDecode (t plane row err : Nat) (s : State) : exec (.lineDecode t plane row err) s = execLineDecode t plane row err s := rfl
@[simp] theorem exec_vjobWrite (t v : Nat) (s : State) : exec (.vjobWrite t v) s = execVjobWrite t v s := rfl
@[simp] theorem exec_rewindDwellExpiry (t : Nat) (s : State) : exec (.rewindDwellExpiry t) s = execRewindDwellExpiry t s := rfl
@[simp] theorem exec_keepopenTimeout (t slot : Nat) (s : State) : exec (.keepopenTimeout t slot) s = execKeepopenTimeout t slot s := rfl
@[simp] theorem exec_holdOpenExpiry (t : Nat) (s : State) : exec (.holdOpenExpiry t) s = execHoldOpenExpiry t s := rfl
@[simp] theorem exec_startOfScan (t slot : Nat) (s : State) : exec (.startOfScan t slot) s = execStartOfScan t slot s := rfl
@[simp] theorem exec_referenceStartOfScan (t : Nat) (s : State) : exec (.referenceStartOfScan t) s = execReferenceStartOfScan t s := rfl
@[simp] theorem exec_sosMissing (t : Nat) (s : State) : exec (.sosMissing t) s = execSosMissing t s := rfl
@[simp] theorem exec_dataDeadlineExpiry (t slot : Nat) (s : State) : exec (.dataDeadlineExpiry t slot) s = execDataDeadlineExpiry t slot s := rfl
@[simp] theorem exec_dataFrameSend (t slot err : Nat) (s : State) : exec (.dataFrameSend t slot err) s = execDataFrameSend t slot err s := rfl
@[simp] theorem exec_credit (t lane word : Nat) (s : State) : exec (.credit t lane word) s = execCredit t lane word s := rfl
@[simp] theorem exec_lineOk (t lane word : Nat) (s : State) : exec (.lineOk t lane word) s = execLineOk t lane word s := rfl
@[simp] theorem exec_lineNak (t lane word : Nat) (s : State) : exec (.lineNak t lane word) s = execLineNak t lane word s := rfl
@[simp] theorem exec_relAck (t lane word : Nat) (s : State) : exec (.relAck t lane word) s = execRelAck t lane word s := rfl
@[simp] theorem exec_relAckTimeout (t slot : Nat) (s : State) : exec (.relAckTimeout t slot) s = execRelAckTimeout t slot s := rfl
@[simp] theorem exec_tempSet (t lane word : Nat) (s : State) : exec (.tempSet t lane word) s = execTempSet t lane word s := rfl
@[simp] theorem exec_statusSet (t lane word : Nat) (s : State) : exec (.statusSet t lane word) s = execStatusSet t lane word s := rfl
@[simp] theorem exec_heartbeat (t : Nat) (s : State) : exec (.heartbeat t) s = execHeartbeat t s := rfl
@[simp] theorem exec_tempTimeout (t slot : Nat) (s : State) : exec (.tempTimeout t slot) s = execTempTimeout t slot s := rfl
@[simp] theorem exec_decapLapse (t slot : Nat) (s : State) : exec (.decapLapse t slot) s = execDecapLapse t slot s := rfl
@[simp] theorem exec_waveCommit (t slot : Nat) (s : State) : exec (.waveCommit t slot) s = execWaveCommit t slot s := rfl
@[simp] theorem exec_authStart (t slot : Nat) (s : State) : exec (.authStart t slot) s = execAuthStart t slot s := rfl
@[simp] theorem exec_cert (t slot : Nat) (msg : List Byte) (s : State) : exec (.cert t slot msg) s = execCert t slot msg s := rfl
@[simp] theorem exec_usageNow (t slot value seq : Nat) (mac : List Byte) (s : State) : exec (.usageNow t slot value seq mac) s = execUsageNow t slot value seq mac s := rfl
@[simp] theorem exec_usageAdd (t slot : Nat) (s : State) : exec (.usageAdd t slot) s = execUsageAdd t slot s := rfl
@[simp] theorem exec_authTimeout (t slot : Nat) (s : State) : exec (.authTimeout t slot) s = execAuthTimeout t slot s := rfl
@[simp] theorem exec_authRetry (t slot : Nat) (s : State) : exec (.authRetry t slot) s = execAuthRetry t slot s := rfl
@[simp] theorem exec_authGraceExpiry (t slot : Nat) (s : State) : exec (.authGraceExpiry t slot) s = execAuthGraceExpiry t slot s := rfl
@[simp] theorem exec_cameraPortTrainComplete (t port : Nat) (ok : Bool) (s : State) : exec (.cameraPortTrainComplete t port ok) s = execCameraPortTrainComplete t port ok s := rfl
@[simp] theorem exec_cameraLinkFail (t port : Nat) (lost : Bool) (s : State) : exec (.cameraLinkFail t port lost) s = execCameraLinkFail t port lost s := rfl
@[simp] theorem exec_csi2Packet (t port vc dtype ecc : Nat) (crcOk : Bool) (payload : List Byte) (s : State) : exec (.csi2Packet t port vc dtype ecc crcOk payload) s = execCsi2Packet t port vc dtype ecc crcOk payload s := rfl
@[simp] theorem exec_cameraLineReceive (t port vc : Nat) (s : State) : exec (.cameraLineReceive t port vc) s = execCameraLineReceive t port vc s := rfl
@[simp] theorem exec_groupTrigger (t grp : Nat) (s : State) : exec (.groupTrigger t grp) s = execGroupTrigger t grp s := rfl
@[simp] theorem exec_triggerLineLost (t pipe : Nat) (s : State) : exec (.triggerLineLost t pipe) s = execTriggerLineLost t pipe s := rfl
@[simp] theorem exec_frameEnd (t pipe : Nat) (peakOk : Bool) (ests : List Int) (testOk : Bool) (s : State) : exec (.frameEnd t pipe peakOk ests testOk) s = execFrameEnd t pipe peakOk ests testOk s := rfl
@[simp] theorem exec_groupRunWrite (t grp value : Nat) (s : State) : exec (.groupRunWrite t grp value) s = execGroupRunWrite t grp value s := rfl
@[simp] theorem exec_accumulatorComplete (t plane : Nat) (s : State) : exec (.accumulatorComplete t plane) s = execAccumulatorComplete t plane s := rfl
@[simp] theorem exec_expoGo (t : Nat) (s : State) : exec (.expoGo t) s = execExpoGo t s := rfl
@[simp] theorem exec_expoCommitCheck (t pipe value : Nat) (s : State) : exec (.expoCommitCheck t pipe value) s = execExpoCommitCheck t pipe value s := rfl
@[simp] theorem exec_pipelineTestTimer (t pipe : Nat) (ok : Bool) (s : State) : exec (.pipelineTestTimer t pipe ok) s = execPipelineTestTimer t pipe ok s := rfl
@[simp] theorem exec_healthPass (t plane : Nat) (s : State) : exec (.healthPass t plane) s = execHealthPass t plane s := rfl
@[simp] theorem exec_nozRetire (t nozzle : Nat) (s : State) : exec (.nozRetire t nozzle) s = execNozRetire t nozzle s := rfl
@[simp] theorem exec_nozRestore (t nozzle : Nat) (s : State) : exec (.nozRestore t nozzle) s = execNozRestore t nozzle s := rfl
@[simp] theorem exec_nozRestorePlane (t plane : Nat) (s : State) : exec (.nozRestorePlane t plane) s = execNozRestorePlane t plane s := rfl
@[simp] theorem exec_cuSwapRequest (t : Nat) (s : State) : exec (.cuSwapRequest t) s = execCuSwapRequest t s := rfl
@[simp] theorem exec_densityUpdate (t plane : Nat) (s : State) : exec (.densityUpdate t plane) s = execDensityUpdate t plane s := rfl
@[simp] theorem exec_registrationWindow (t grp speed : Nat) (steady : Bool) (s : State) : exec (.registrationWindow t grp speed steady) s = execRegistrationWindow t grp speed steady s := rfl
@[simp] theorem exec_xshiftApply (t plane : Nat) (s : State) : exec (.xshiftApply t plane) s = execXshiftApply t plane s := rfl
@[simp] theorem exec_recalRequest (t cls unit : Nat) (s : State) : exec (.recalRequest t cls unit) s = execRecalRequest t cls unit s := rfl
@[simp] theorem exec_recalAgeExpiry (t cls unit : Nat) (s : State) : exec (.recalAgeExpiry t cls unit) s = execRecalAgeExpiry t cls unit s := rfl
@[simp] theorem exec_recalStart (t cls : Nat) (s : State) : exec (.recalStart t cls) s = execRecalStart t cls s := rfl
@[simp] theorem exec_recalComplete (t cls unit a b ctle : Nat) (s : State) : exec (.recalComplete t cls unit a b ctle) s = execRecalComplete t cls unit a b ctle s := rfl
@[simp] theorem exec_converterSwap (t input diff : Nat) (s : State) : exec (.converterSwap t input diff) s = execConverterSwap t input diff s := rfl
@[simp] theorem exec_xrefCheck (t ohms : Nat) (s : State) : exec (.xrefCheck t ohms) s = execXrefCheck t ohms s := rfl
@[simp] theorem exec_moveAbs (t : Nat) (s : State) : exec (.moveAbs t) s = execMoveAbs t s := rfl
@[simp] theorem exec_moveRel (t : Nat) (s : State) : exec (.moveRel t) s = execMoveRel t s := rfl
@[simp] theorem exec_velocity (t : Nat) (s : State) : exec (.velocity t) s = execVelocity t s := rfl
@[simp] theorem exec_stop (t : Nat) (s : State) : exec (.stop t) s = execStop t s := rfl
@[simp] theorem exec_home (t : Nat) (s : State) : exec (.home t) s = execHome t s := rfl
@[simp] theorem exec_enable (t : Nat) (s : State) : exec (.enable t) s = execEnable t s := rfl
@[simp] theorem exec_disable (t : Nat) (s : State) : exec (.disable t) s = execDisable t s := rfl
@[simp] theorem exec_servoPeriod (t port : Nat) (s : State) : exec (.servoPeriod t port) s = execServoPeriod t port s := rfl
@[simp] theorem exec_driveLinkFrameReceive (t port : Nat) (chars : List Byte) (s : State) : exec (.driveLinkFrameReceive t port chars) s = execDriveLinkFrameReceive t port chars s := rfl
@[simp] theorem exec_driveLinkUp (t port seen : Nat) (hops : List Nat) (s : State) : exec (.driveLinkUp t port seen hops) s = execDriveLinkUp t port seen hops s := rfl
@[simp] theorem exec_holdDelayExpiry (t axis : Nat) (s : State) : exec (.holdDelayExpiry t axis) s = execHoldDelayExpiry t axis s := rfl
@[simp] theorem exec_switchQualify (t sw t0 : Nat) (level : Bool) (s : State) : exec (.switchQualify t sw t0 level) s = execSwitchQualify t sw t0 level s := rfl
@[simp] theorem exec_latchHoldoffExpiry (t axis : Nat) (s : State) : exec (.latchHoldoffExpiry t axis) s = execLatchHoldoffExpiry t axis s := rfl
@[simp] theorem exec_feedbackPositionUpdate (t input : Nat) (x y : Int) (s : State) : exec (.feedbackPositionUpdate t input x y) s = execFeedbackPositionUpdate t input x y s := rfl
@[simp] theorem exec_ssiReading (t input value : Nat) (idle : Bool) (s : State) : exec (.ssiReading t input value idle) s = execSsiReading t input value idle s := rfl
@[simp] theorem exec_indexEdge (t input : Nat) (s : State) : exec (.indexEdge t input) s = execIndexEdge t input s := rfl
@[simp] theorem exec_speedZeroTimeout (t input : Nat) (s : State) : exec (.speedZeroTimeout t input) s = execSpeedZeroTimeout t input s := rfl
@[simp] theorem exec_emulatorEdge (t emu : Nat) (s : State) : exec (.emulatorEdge t emu) s = execEmulatorEdge t emu s := rfl
@[simp] theorem exec_timeNowLatch (t reader : Nat) (s : State) : exec (.timeNowLatch t reader) s = execTimeNowLatch t reader s := rfl
@[simp] theorem exec_timeCapLatch (t reader : Nat) (s : State) : exec (.timeCapLatch t reader) s = execTimeCapLatch t reader s := rfl
@[simp] theorem exec_ptpAnnounceReceive (t port domain prio1 cls acc variance prio2 gm steps : Nat) (s : State) : exec (.ptpAnnounceReceive t port domain prio1 cls acc variance prio2 gm steps) s = execPtpAnnounceReceive t port domain prio1 cls acc variance prio2 gm steps s := rfl
@[simp] theorem exec_ptpSyncReceive (t port domain origin : Nat) (corr : Int) (s : State) : exec (.ptpSyncReceive t port domain origin corr) s = execPtpSyncReceive t port domain origin corr s := rfl
@[simp] theorem exec_ptpDelayRespReceive (t port seq rx : Nat) (corr : Int) (s : State) : exec (.ptpDelayRespReceive t port seq rx corr) s = execPtpDelayRespReceive t port seq rx corr s := rfl
@[simp] theorem exec_ptpDelayReqSend (t : Nat) (s : State) : exec (.ptpDelayReqSend t) s = execPtpDelayReqSend t s := rfl
@[simp] theorem exec_ptpMasterSend (t kind : Nat) (s : State) : exec (.ptpMasterSend t kind) s = execPtpMasterSend t kind s := rfl
@[simp] theorem exec_ptpTransparentForward (t te port kind seq origin : Nat) (corr : Int) (s : State) : exec (.ptpTransparentForward t te port kind seq origin corr) s = execPtpTransparentForward t te port kind seq origin corr s := rfl
@[simp] theorem exec_announceTimeout (t : Nat) (s : State) : exec (.announceTimeout t) s = execAnnounceTimeout t s := rfl
@[simp] theorem exec_traceHoldExpiry (t : Nat) (s : State) : exec (.traceHoldExpiry t) s = execTraceHoldExpiry t s := rfl
@[simp] theorem exec_ppsOutEdge (t : Nat) (s : State) : exec (.ppsOutEdge t) s = execPpsOutEdge t s := rfl
@[simp] theorem exec_ppsInEdge (t : Nat) (s : State) : exec (.ppsInEdge t) s = execPpsInEdge t s := rfl
@[simp] theorem exec_timeSet (t : Nat) (s : State) : exec (.timeSet t) s = execTimeSet t s := rfl
@[simp] theorem exec_timeSetAtPps (t : Nat) (s : State) : exec (.timeSetAtPps t) s = execTimeSetAtPps t s := rfl
@[simp] theorem exec_timeTriggerFire (t trig : Nat) (s : State) : exec (.timeTriggerFire t trig) s = execTimeTriggerFire t trig s := rfl
@[simp] theorem exec_neighborSend (t port : Nat) (s : State) : exec (.neighborSend t port) s = execNeighborSend t port s := rfl
@[simp] theorem exec_neighborReceive (t port node : Nat) (learned : Bool) (s : State) : exec (.neighborReceive t port node learned) s = execNeighborReceive t port node learned s := rfl
@[simp] theorem exec_neighborMiss (t port : Nat) (s : State) : exec (.neighborMiss t port) s = execNeighborMiss t port s := rfl
@[simp] theorem exec_nodeLearnTimeout (t : Nat) (s : State) : exec (.nodeLearnTimeout t) s = execNodeLearnTimeout t s := rfl
@[simp] theorem exec_ringFrameReceive (t port : Nat) (bytes : List Byte) (s : State) : exec (.ringFrameReceive t port bytes) s = execRingFrameReceive t port bytes s := rfl
@[simp] theorem exec_ringLinkLoss (t port : Nat) (s : State) : exec (.ringLinkLoss t port) s = execRingLinkLoss t port s := rfl
@[simp] theorem exec_stacksRequest (t port source addr len : Nat) (write : Bool) (data : List Byte) (s : State) : exec (.stacksRequest t port source addr len write data) s = execStacksRequest t port source addr len write data s := rfl
@[simp] theorem exec_stacksUrgencyRise (t : Nat) (s : State) : exec (.stacksUrgencyRise t) s = execStacksUrgencyRise t s := rfl
@[simp] theorem exec_stacksRequestServed (t pc ecc : Nat) (s : State) : exec (.stacksRequestServed t pc ecc) s = execStacksRequestServed t pc ecc s := rfl
@[simp] theorem exec_bankRefresh (t pc bank : Nat) (s : State) : exec (.bankRefresh t pc bank) s = execBankRefresh t pc bank s := rfl
@[simp] theorem exec_stackTempRead (t stack : Nat) (value : Int) (s : State) : exec (.stackTempRead t stack value) s = execStackTempRead t stack value s := rfl
@[simp] theorem exec_hbmParityError (t kind port source addr : Nat) (named : Bool) (s : State) : exec (.hbmParityError t kind port source addr named) s = execHbmParityError t kind port source addr named s := rfl
@[simp] theorem exec_hbmReadTimeout (t port source addr : Nat) (s : State) : exec (.hbmReadTimeout t port source addr) s = execHbmReadTimeout t port source addr s := rfl
@[simp] theorem exec_scrubRead (t ecc : Nat) (s : State) : exec (.scrubRead t ecc) s = execScrubRead t ecc s := rfl
@[simp] theorem exec_rowRepair (t : Nat) (s : State) : exec (.rowRepair t) s = execRowRepair t s := rfl
@[simp] theorem exec_repairRecordWrite (t : Nat) (s : State) : exec (.repairRecordWrite t) s = execRepairRecordWrite t s := rfl
@[simp] theorem exec_retrainWindow (t pc rd wr : Nat) (s : State) : exec (.retrainWindow t pc rd wr) s = execRetrainWindow t pc rd wr s := rfl
@[simp] theorem exec_freezeEntry (t cause port source addr : Nat) (s : State) : exec (.freezeEntry t cause port source addr) s = execFreezeEntry t cause port source addr s := rfl
@[simp] theorem exec_freezeWithholdExpiry (t : Nat) (s : State) : exec (.freezeWithholdExpiry t) s = execFreezeWithholdExpiry t s := rfl
@[simp] theorem exec_rrRotation (t : Nat) (s : State) : exec (.rrRotation t) s = execRrRotation t s := rfl
@[simp] theorem exec_rrBankTestComplete (t : Nat) (ok : Bool) (s : State) : exec (.rrBankTestComplete t ok) s = execRrBankTestComplete t ok s := rfl
@[simp] theorem exec_binderyCompress (t unit : Nat) (s : State) : exec (.binderyCompress t unit) s = execBinderyCompress t unit s := rfl
@[simp] theorem exec_binderyDecompress (t unit : Nat) (s : State) : exec (.binderyDecompress t unit) s = execBinderyDecompress t unit s := rfl
@[simp] theorem exec_binderyBlockWrite (t unit : Nat) (coded : List Byte) (nbits : Nat) (storedOk : Bool) (s : State) : exec (.binderyBlockWrite t unit coded nbits storedOk) s = execBinderyBlockWrite t unit coded nbits storedOk s := rfl
@[simp] theorem exec_binderyJobComplete (t unit : Nat) (s : State) : exec (.binderyJobComplete t unit) s = execBinderyJobComplete t unit s := rfl
@[simp] theorem exec_laneBringupStart (t lane : Nat) (s : State) : exec (.laneBringupStart t lane) s = execLaneBringupStart t lane s := rfl
@[simp] theorem exec_laneReady (t lane ctle pad : Nat) (taps : List Int) (s : State) : exec (.laneReady t lane ctle pad taps) s = execLaneReady t lane ctle pad taps s := rfl
@[simp] theorem exec_blockLockLoss (t lane : Nat) (s : State) : exec (.blockLockLoss t lane) s = execBlockLockLoss t lane s := rfl
@[simp] theorem exec_laneSwitchShiftComplete (t : Nat) (s : State) : exec (.laneSwitchShiftComplete t) s = execLaneSwitchShiftComplete t s := rfl
@[simp] theorem exec_laneMove (t lane : Nat) (s : State) : exec (.laneMove t lane) s = execLaneMove t lane s := rfl
@[simp] theorem exec_laneRetire (t lane : Nat) (s : State) : exec (.laneRetire t lane) s = execLaneRetire t lane s := rfl
@[simp] theorem exec_laneRestore (t lane : Nat) (s : State) : exec (.laneRestore t lane) s = execLaneRestore t lane s := rfl
@[simp] theorem exec_laneSwitchVerifyTimeout (t : Nat) (s : State) : exec (.laneSwitchVerifyTimeout t) s = execLaneSwitchVerifyTimeout t s := rfl
@[simp] theorem exec_prbsInjectOnce (t lane : Nat) (s : State) : exec (.prbsInjectOnce t lane) s = execPrbsInjectOnce t lane s := rfl
@[simp] theorem exec_prbsInjectPeriodic (t lane : Nat) (s : State) : exec (.prbsInjectPeriodic t lane) s = execPrbsInjectPeriodic t lane s := rfl
@[simp] theorem exec_eyeMeasurement (t lane w h : Nat) (s : State) : exec (.eyeMeasurement t lane w h) s = execEyeMeasurement t lane w h s := rfl
@[simp] theorem exec_reloadEnd (t : Nat) (s : State) : exec (.reloadEnd t) s = execReloadEnd t s := rfl
@[simp] theorem exec_secondaryWaitExpiry (t : Nat) (s : State) : exec (.secondaryWaitExpiry t) s = execSecondaryWaitExpiry t s := rfl
@[simp] theorem exec_twinHb (t lane word : Nat) (alike : Bool) (s : State) : exec (.twinHb t lane word alike) s = execTwinHb t lane word alike s := rfl
@[simp] theorem exec_twinHbSend (t : Nat) (s : State) : exec (.twinHbSend t) s = execTwinHbSend t s := rfl
@[simp] theorem exec_twinCredit (t lane word : Nat) (s : State) : exec (.twinCredit t lane word) s = execTwinCredit t lane word s := rfl
@[simp] theorem exec_twinAck (t lane word : Nat) (s : State) : exec (.twinAck t lane word) s = execTwinAck t lane word s := rfl
@[simp] theorem exec_twinNak (t lane word : Nat) (s : State) : exec (.twinNak t lane word) s = execTwinNak t lane word s := rfl
@[simp] theorem exec_twinFail (t lane word : Nat) (s : State) : exec (.twinFail t lane word) s = execTwinFail t lane word s := rfl
@[simp] theorem exec_twinHbTimeout (t : Nat) (s : State) : exec (.twinHbTimeout t) s = execTwinHbTimeout t s := rfl
@[simp] theorem exec_twinRecordReceive (t lane seq : Nat) (good : Bool) (rec : TwinRec) (s : State) : exec (.twinRecordReceive t lane seq good rec) s = execTwinRecordReceive t lane seq good rec s := rfl
@[simp] theorem exec_stacksWrite (t addr : Nat) (data : List Byte) (s : State) : exec (.stacksWrite t addr data) s = execStacksWrite t addr data s := rfl
@[simp] theorem exec_pageRec (t addr first : Nat) (hasW0 : Bool) (w0 : Int) (s : State) : exec (.pageRec t addr first hasW0 w0) s = execPageRec t addr first hasW0 w0 s := rfl
@[simp] theorem exec_substRec (t : Nat) (isSet : Bool) (nozzle spare line : Nat) (s : State) : exec (.substRec t isSet nozzle spare line) s = execSubstRec t isSet nozzle spare line s := rfl
@[simp] theorem exec_bankRec (t plane bank offset : Nat) (trims : List Byte) (s : State) : exec (.bankRec t plane bank offset trims) s = execBankRec t plane bank offset trims s := rfl
@[simp] theorem exec_entryRec (t : Nat) (entry : List Byte) (since : Nat) (s : State) : exec (.entryRec t entry since) s = execEntryRec t entry since s := rfl
@[simp] theorem exec_setpointRec (t port period : Nat) (slots : List Byte) (s : State) : exec (.setpointRec t port period slots) s = execSetpointRec t port period slots s := rfl
@[simp] theorem exec_modeRec (t mode cause line stop step : Nat) (s : State) : exec (.modeRec t mode cause line stop step) s = execModeRec t mode cause line stop step s := rfl
@[simp] theorem exec_healthRec (t : Nat) (body : List Byte) (s : State) : exec (.healthRec t body) s = execHealthRec t body s := rfl
@[simp] theorem exec_handoverRec (t instant : Nat) (tags credits : List Nat) (s : State) : exec (.handoverRec t instant tags credits) s = execHandoverRec t instant tags credits s := rfl
@[simp] theorem exec_syncMark (t kind : Nat) (s : State) : exec (.syncMark t kind) s = execSyncMark t kind s := rfl
@[simp] theorem exec_healthSend (t : Nat) (s : State) : exec (.healthSend t) s = execHealthSend t s := rfl
@[simp] theorem exec_resyncComplete (t : Nat) (equal : Bool) (reach : Nat) (s : State) : exec (.resyncComplete t equal reach) s = execResyncComplete t equal reach s := rfl
@[simp] theorem exec_shadowLineTimeout (t slot : Nat) (s : State) : exec (.shadowLineTimeout t slot) s = execShadowLineTimeout t slot s := rfl
@[simp] theorem exec_switchover (t : Nat) (s : State) : exec (.switchover t) s = execSwitchover t s := rfl
@[simp] theorem exec_handoverReport (t : Nat) (s : State) : exec (.handoverReport t) s = execHandoverReport t s := rfl
@[simp] theorem exec_pairYieldPage (t : Nat) (s : State) : exec (.pairYieldPage t) s = execPairYieldPage t s := rfl
@[simp] theorem exec_pairYieldNow (t : Nat) (s : State) : exec (.pairYieldNow t) s = execPairYieldNow t s := rfl
@[simp] theorem exec_pairResync (t : Nat) (s : State) : exec (.pairResync t) s = execPairResync t s := rfl
@[simp] theorem exec_handoverSend (t : Nat) (s : State) : exec (.handoverSend t) s = execHandoverSend t s := rfl
@[simp] theorem exec_handoverInstant (t : Nat) (s : State) : exec (.handoverInstant t) s = execHandoverInstant t s := rfl
@[simp] theorem exec_handoverTake (t : Nat) (s : State) : exec (.handoverTake t) s = execHandoverTake t s := rfl
@[simp] theorem exec_wtrExpiry (t : Nat) (s : State) : exec (.wtrExpiry t) s = execWtrExpiry t s := rfl
@[simp] theorem exec_sensorConversion (t sensor : Nat) (raw : Int) (s : State) : exec (.sensorConversion t sensor raw) s = execSensorConversion t sensor raw s := rfl
@[simp] theorem exec_sensorConversionTimeout (t sensor : Nat) (s : State) : exec (.sensorConversionTimeout t sensor) s = execSensorConversionTimeout t sensor s := rfl
@[simp] theorem exec_thermalSweep (t : Nat) (raws : List Int) (s : State) : exec (.thermalSweep t raws) s = execThermalSweep t raws s := rfl
@[simp] theorem exec_hardwareTrip (t src : Nat) (s : State) : exec (.hardwareTrip t src) s = execHardwareTrip t src s := rfl
@[simp] theorem exec_sensorRestore (t sensor : Nat) (s : State) : exec (.sensorRestore t sensor) s = execSensorRestore t sensor s := rfl
@[simp] theorem exec_flashOkRestore (t : Nat) (s : State) : exec (.flashOkRestore t) s = execFlashOkRestore t s := rfl
@[simp] theorem exec_limLock (t : Nat) (s : State) : exec (.limLock t) s = execLimLock t s := rfl
@[simp] theorem exec_tlimLock (t : Nat) (s : State) : exec (.tlimLock t) s = execTlimLock t s := rfl
@[simp] theorem exec_cfgLock (t : Nat) (s : State) : exec (.cfgLock t) s = execCfgLock t s := rfl
@[simp] theorem exec_coldStart (t : Nat) (s : State) : exec (.coldStart t) s = execColdStart t s := rfl
@[simp] theorem exec_rstNAssert (t : Nat) (s : State) : exec (.rstNAssert t) s = execRstNAssert t s := rfl
@[simp] theorem exec_lxReset (t key : Nat) (s : State) : exec (.lxReset t key) s = execLxReset t key s := rfl
@[simp] theorem exec_pePerstAssert (t : Nat) (s : State) : exec (.pePerstAssert t) s = execPePerstAssert t s := rfl
@[simp] theorem exec_watchdogExpiry (t : Nat) (s : State) : exec (.watchdogExpiry t) s = execWatchdogExpiry t s := rfl
@[simp] theorem exec_warmResetAckWaitExpiry (t : Nat) (s : State) : exec (.warmResetAckWaitExpiry t) s = execWarmResetAckWaitExpiry t s := rfl
@[simp] theorem exec_setSave (t : Nat) (s : State) : exec (.setSave t) s = execSetSave t s := rfl
@[simp] theorem exec_setWrite (t : Nat) (s : State) : exec (.setWrite t) s = execSetWrite t s := rfl
@[simp] theorem exec_setClear (t : Nat) (s : State) : exec (.setClear t) s = execSetClear t s := rfl
@[simp] theorem exec_settingsWriteComplete (t : Nat) (s : State) : exec (.settingsWriteComplete t) s = execSettingsWriteComplete t s := rfl
@[simp] theorem exec_updLoad (t : Nat) (s : State) : exec (.updLoad t) s = execUpdLoad t s := rfl
@[simp] theorem exec_updArm (t : Nat) (s : State) : exec (.updArm t) s = execUpdArm t s := rfl
@[simp] theorem exec_updDisarm (t : Nat) (s : State) : exec (.updDisarm t) s = execUpdDisarm t s := rfl
@[simp] theorem exec_updConfirm (t : Nat) (s : State) : exec (.updConfirm t) s = execUpdConfirm t s := rfl
@[simp] theorem exec_updForward (t ports : Nat) (s : State) : exec (.updForward t ports) s = execUpdForward t ports s := rfl
@[simp] theorem exec_updAbort (t : Nat) (s : State) : exec (.updAbort t) s = execUpdAbort t s := rfl
@[simp] theorem exec_armComplete (t : Nat) (s : State) : exec (.armComplete t) s = execArmComplete t s := rfl
@[simp] theorem exec_imgOffer (t port id : Nat) (header : List Byte) (s : State) : exec (.imgOffer t port id header) s = execImgOffer t port id header s := rfl
@[simp] theorem exec_imgData (t port id block seg : Nat) (data : List Byte) (s : State) : exec (.imgData t port id block seg data) s = execImgData t port id block seg data s := rfl
@[simp] theorem exec_imgAck (t port id code err block missing : Nat) (s : State) : exec (.imgAck t port id code err block missing) s = execImgAck t port id code err block missing s := rfl
@[simp] theorem exec_imgAckTimeout (t port : Nat) (s : State) : exec (.imgAckTimeout t port) s = execImgAckTimeout t port s := rfl
@[simp] theorem exec_imageVerifyComplete (t : Nat) (s : State) : exec (.imageVerifyComplete t) s = execImageVerifyComplete t s := rfl
@[simp] theorem exec_stagingWriteComplete (t : Nat) (same : Bool) (s : State) : exec (.stagingWriteComplete t same) s = execStagingWriteComplete t same s := rfl
@[simp] theorem exec_levels (t port ring version : Nat) (s : State) : exec (.levels t port ring version) s = execLevels t port ring version s := rfl
@[simp] theorem exec_levelsSend (t port : Nat) (s : State) : exec (.levelsSend t port) s = execLevelsSend t port s := rfl
@[simp] theorem exec_twinLevel (t lane word : Nat) (s : State) : exec (.twinLevel t lane word) s = execTwinLevel t lane word s := rfl
@[simp] theorem exec_twinLevelSend (t : Nat) (s : State) : exec (.twinLevelSend t) s = execTwinLevelSend t s := rfl
@[simp] theorem exec_imageConfirm (t : Nat) (s : State) : exec (.imageConfirm t) s = execImageConfirm t s := rfl
@[simp] theorem exec_confirmWindowExpiry (t : Nat) (s : State) : exec (.confirmWindowExpiry t) s = execConfirmWindowExpiry t s := rfl
@[simp] theorem exec_gpRunStart (t value : Nat) (s : State) : exec (.gpRunStart t value) s = execGpRunStart t value s := rfl
@[simp] theorem exec_gpRunStop (t value : Nat) (s : State) : exec (.gpRunStop t value) s = execGpRunStop t value s := rfl
@[simp] theorem exec_gpDmaGo (t : Nat) (s : State) : exec (.gpDmaGo t) s = execGpDmaGo t s := rfl
@[simp] theorem exec_gpIntStatRead (t : Nat) (s : State) : exec (.gpIntStatRead t) s = execGpIntStatRead t s := rfl
@[simp] theorem exec_gpUnlock (t key : Nat) (s : State) : exec (.gpUnlock t key) s = execGpUnlock t key s := rfl
@[simp] theorem exec_supplyExcursion (t rail mv : Nat) (s : State) : exec (.supplyExcursion t rail mv) s = execSupplyExcursion t rail mv s := rfl
@[simp] theorem exec_supplyOutOfRange (t rail : Nat) (s : State) : exec (.supplyOutOfRange t rail) s = execSupplyOutOfRange t rail s := rfl
@[simp] theorem exec_illegalInstruction (p : Nat) (word : BitVec 32) (s : State) : exec (.illegalInstruction p word) s = execIllegalInstruction p word s := rfl
@[simp] theorem exec_ringLinkUp (t port : Nat) (s : State) : exec (.ringLinkUp t port) s = execRingLinkUp t port s := rfl
@[simp] theorem exec_ptpDelayReqReceive (t port seq : Nat) (corr : Int) (s : State) : exec (.ptpDelayReqReceive t port seq corr) s = execPtpDelayReqReceive t port seq corr s := rfl
@[simp] theorem exec_laneMoveReleaseWaitExpiry (t : Nat) (s : State) : exec (.laneMoveReleaseWaitExpiry t) s = execLaneMoveReleaseWaitExpiry t s := rfl
@[simp] theorem exec_twinAckSend (t : Nat) (s : State) : exec (.twinAckSend t) s = execTwinAckSend t s := rfl
@[simp] theorem exec_activeHeartbeatWaitExpiry (t : Nat) (s : State) : exec (.activeHeartbeatWaitExpiry t) s = execActiveHeartbeatWaitExpiry t s := rfl
@[simp] theorem exec_catalogWindowWrite (t addr value : Nat) (s : State) : exec (.catalogWindowWrite t addr value) s = execCatalogWindowWrite t addr value s := rfl
@[simp] theorem exec_prbsErrorLimit (t lane errors : Nat) (s : State) : exec (.prbsErrorLimit t lane errors) s = execPrbsErrorLimit t lane errors s := rfl
@[simp] theorem exec_prbsCheckerSync (t lane : Nat) (s : State) : exec (.prbsCheckerSync t lane) s = execPrbsCheckerSync t lane s := rfl
@[simp] theorem exec_imgDataSend (t port : Nat) (s : State) : exec (.imgDataSend t port) s = execImgDataSend t port s := rfl

end Sys2Proof.Laws
end

