-- ==== Sys2Proof/Laws/Tables.lean ====
section
/-! SUPPORT. Tables and memory: what one write leaves, and that every operation keeps the canonical form. -/

namespace Sys2Proof.Laws

open Sys2Proof.Machine

variable {α : Type}

/-! ### Reading after writing -/

@[simp] theorem tbl_get_put_self (d : α) (t : Tbl α) (k : Nat) (v : α) : Tbl.get d (Tbl.put t k v) k = v := by
  induction t with
  | nil => simp [Tbl.put, Tbl.get]
  | cons c t ih =>
    obtain ⟨a, w⟩ := c
    unfold Tbl.put
    split
    · have : a ≠ k := by omega
      simp [Tbl.get, this, ih]
    · split <;> simp [Tbl.get]

theorem tbl_get_put_ne (d : α) (t : Tbl α) {k j : Nat} (v : α) (h : j ≠ k) : Tbl.get d (Tbl.put t k v) j = Tbl.get d t j := by
  induction t with
  | nil => simp [Tbl.put, Tbl.get, Ne.symm h]
  | cons c t ih =>
    obtain ⟨a, w⟩ := c
    unfold Tbl.put
    split
    · simp only [Tbl.get, ih]
    · split
      · rename_i e
        subst e
        simp [Tbl.get, Ne.symm h]
      · simp [Tbl.get, Ne.symm h]

theorem tbl_get_put (d : α) (t : Tbl α) (k j : Nat) (v : α) :
    Tbl.get d (Tbl.put t k v) j = if j = k then v else Tbl.get d t j := by
  split
  · rename_i e; subst e; simp
  · exact tbl_get_put_ne d t v ‹_›

theorem tbl_find_put (t : Tbl α) (k j : Nat) (v : α) : Tbl.find (Tbl.put t k v) j = if j = k then some v else Tbl.find t j := by
  induction t with
  | nil => simp only [Tbl.put, Tbl.find, eq_comm]
  | cons c t ih =>
    obtain ⟨a, w⟩ := c
    unfold Tbl.put
    split
    · simp only [Tbl.find, ih]
      repeat' split
      all_goals first | rfl | omega
    · split
      · simp only [Tbl.find]; repeat' split
        all_goals first | rfl | omega
      · simp only [Tbl.find]; repeat' split
        all_goals first | rfl | omega

@[simp] theorem tbl_get_del_self (d : α) (t : Tbl α) (k : Nat) : Tbl.get d (Tbl.del t k) k = d := by
  induction t with
  | nil => rfl
  | cons c t ih =>
    obtain ⟨a, w⟩ := c
    unfold Tbl.del
    split
    · exact ih
    · simp [Tbl.get, *]

theorem tbl_get_del_ne (d : α) (t : Tbl α) {k j : Nat} (h : j ≠ k) : Tbl.get d (Tbl.del t k) j = Tbl.get d t j := by
  induction t with
  | nil => rfl
  | cons c t ih =>
    obtain ⟨a, w⟩ := c
    unfold Tbl.del
    split
    · rename_i e; subst e; simp [Tbl.get, Ne.symm h, ih]
    · simp [Tbl.get, ih]

/-! ### The canonical form -/

/-- A key is above a bound, where there is one. -/
def above (lo : Option Nat) (k : Nat) : Prop := ∀ b, lo = some b → b < k

theorem sortedFrom_cons {lo : Option Nat} {a : Nat} {v : α} {t : Tbl α} :
    Tbl.sortedFrom lo ((a, v) :: t) = true ↔ above lo a ∧ Tbl.sortedFrom (some a) t = true := by
  cases lo <;> simp [Tbl.sortedFrom, above]

theorem sortedFrom_weaken {t : Tbl α} {lo hi : Option Nat} (h : ∀ k, above hi k → above lo k)
    (ht : Tbl.sortedFrom hi t = true) : Tbl.sortedFrom lo t = true := by
  cases t with
  | nil => cases lo <;> rfl
  | cons c t =>
    obtain ⟨a, v⟩ := c
    rw [sortedFrom_cons] at *
    exact ⟨h a ht.1, ht.2⟩

theorem above_some_trans {lo : Option Nat} {a k : Nat} (h : above lo a) (hk : above (some a) k) : above lo k :=
  fun b hb => Nat.lt_trans (h b hb) (hk a rfl)

theorem sortedFrom_put {t : Tbl α} {lo : Option Nat} {k : Nat} {v : α} (hk : above lo k)
    (ht : Tbl.sortedFrom lo t = true) : Tbl.sortedFrom lo (Tbl.put t k v) = true := by
  induction t generalizing lo with
  | nil => exact sortedFrom_cons.2 ⟨hk, by rfl⟩
  | cons c t ih =>
    obtain ⟨a, w⟩ := c
    rw [sortedFrom_cons] at ht
    unfold Tbl.put
    split
    · rename_i h
      exact sortedFrom_cons.2 ⟨ht.1, ih (fun b hb => by cases hb; exact h) ht.2⟩
    · split
      · rename_i h; subst h
        exact sortedFrom_cons.2 ⟨ht.1, ht.2⟩
      · exact sortedFrom_cons.2 ⟨hk, sortedFrom_cons.2 ⟨fun b hb => by cases hb; omega, ht.2⟩⟩

theorem sortedFrom_filter {t : Tbl α} (p : Nat × α → Bool) {lo : Option Nat} (ht : Tbl.sortedFrom lo t = true) :
    Tbl.sortedFrom lo (t.filter p) = true := by
  induction t generalizing lo with
  | nil => exact ht
  | cons c t ih =>
    obtain ⟨a, w⟩ := c
    rw [sortedFrom_cons] at ht
    rw [List.filter_cons]
    split
    · exact sortedFrom_cons.2 ⟨ht.1, ih ht.2⟩
    · exact sortedFrom_weaken (fun _ => above_some_trans ht.1) (ih ht.2)

/-- New values at the same keys. -/
theorem sortedFrom_mapVal {β : Type} (f : Nat × α → β) {t : Tbl α} {lo : Option Nat} (ht : Tbl.sortedFrom lo t = true) :
    Tbl.sortedFrom lo (t.map (fun c => (c.1, f c))) = true := by
  induction t generalizing lo with
  | nil => rfl
  | cons c t ih =>
    obtain ⟨a, w⟩ := c
    rw [sortedFrom_cons] at ht
    exact sortedFrom_cons.2 ⟨ht.1, ih ht.2⟩

theorem tbl_del_eq_filter (t : Tbl α) (k : Nat) : Tbl.del t k = t.filter (fun c => decide (c.1 ≠ k)) := by
  induction t with
  | nil => rfl
  | cons c t ih =>
    obtain ⟨a, w⟩ := c
    unfold Tbl.del
    rw [List.filter_cons, ih]
    by_cases h : a = k <;> simp [h]

theorem sorted_put {t : Tbl α} (k : Nat) (v : α) (ht : Tbl.sorted t = true) : Tbl.sorted (Tbl.put t k v) = true :=
  sortedFrom_put (fun _ h => by cases h) ht

theorem sorted_filter {t : Tbl α} (p : Nat × α → Bool) (ht : Tbl.sorted t = true) : Tbl.sorted (t.filter p) = true :=
  sortedFrom_filter p ht

theorem sorted_del {t : Tbl α} (k : Nat) (ht : Tbl.sorted t = true) : Tbl.sorted (Tbl.del t k) = true := by
  rw [tbl_del_eq_filter]; exact sorted_filter _ ht

theorem sorted_foldl_put {β : Type} (key : β → Nat) (val : Tbl α → β → α) (l : List β) {t : Tbl α} (ht : Tbl.sorted t = true) :
    Tbl.sorted (l.foldl (fun t x => Tbl.put t (key x) (val t x)) t) = true := by
  induction l generalizing t with
  | nil => exact ht
  | cons x l ih => exact ih (sorted_put _ _ ht)

theorem sorted_foldl {β : Type} (f : Tbl α → β → Tbl α) (hf : ∀ t x, Tbl.sorted t = true → Tbl.sorted (f t x) = true) (l : List β)
    {t : Tbl α} (ht : Tbl.sorted t = true) : Tbl.sorted (l.foldl f t) = true := by
  induction l generalizing t with
  | nil => exact ht
  | cons x l ih => exact ih (hf _ _ ht)

/-! ### Memory -/

theorem mem_wf_iff {m : List Host.Cell} : Mem.wf m = true ↔ Tbl.sorted m = true ∧ ∀ c ∈ m, c.2 ≠ Mem.empty := by
  simp [Mem.wf]

theorem mem_of_mem_put {t : Tbl α} {k : Nat} {v : α} {c : Nat × α} (h : c ∈ Tbl.put t k v) : c = (k, v) ∨ c ∈ t := by
  induction t with
  | nil => simpa [Tbl.put] using h
  | cons d t ih =>
    obtain ⟨a, w⟩ := d
    unfold Tbl.put at h
    split at h
    · rcases List.mem_cons.1 h with h | h
      · exact .inr (by simp [h])
      · rcases ih h with h | h
        · exact .inl h
        · exact .inr (List.mem_cons_of_mem _ h)
    · split at h <;> simp only [List.mem_cons] at h ⊢
      · rcases h with h | h <;> simp [h]
      · exact h

theorem mem_wf_filter {m : List Host.Cell} (p : Host.Cell → Bool) (h : Mem.wf m = true) : Mem.wf (m.filter p) = true := by
  rw [mem_wf_iff] at *
  exact ⟨sorted_filter p h.1, fun c hc => h.2 c ((List.mem_filter.1 hc).1)⟩

/-- One byte written keeps the canonical form. -/
theorem mem_wf_put {m : List Host.Cell} (a : Nat) (b : Byte) (h : Mem.wf m = true) : Mem.wf (Mem.put m a b) = true := by
  unfold Mem.put
  split
  · rw [tbl_del_eq_filter]; exact mem_wf_filter _ h
  · rw [mem_wf_iff] at *
    refine ⟨sorted_put _ _ h.1, fun c hc => ?_⟩
    rcases mem_of_mem_put hc with h' | h'
    · simpa [h'] using ‹¬ b = Mem.empty›
    · exact h.2 c h'

/-- Bytes written keep the canonical form. -/
theorem mem_wf_write (bs : List Byte) {m : List Host.Cell} (a : Nat) (h : Mem.wf m = true) : Mem.wf (Mem.write m a bs) = true := by
  induction bs generalizing m a with
  | nil => exact h
  | cons b bs ih => exact ih _ (mem_wf_put _ _ h)

theorem sortedFrom_filterMap {t : Tbl α} (f : Nat × α → Option (Nat × α)) (hf : ∀ c d, f c = some d → d.1 = c.1) {lo : Option Nat}
    (ht : Tbl.sortedFrom lo t = true) : Tbl.sortedFrom lo (t.filterMap f) = true := by
  induction t generalizing lo with
  | nil => exact ht
  | cons c t ih =>
    obtain ⟨a, w⟩ := c
    rw [sortedFrom_cons] at ht
    rw [List.filterMap_cons]
    split
    · exact sortedFrom_weaken (fun _ => above_some_trans ht.1) (ih ht.2)
    · rename_i d e
      obtain ⟨b, v⟩ := d
      have h := hf _ _ e
      dsimp only at h
      subst h
      exact sortedFrom_cons.2 ⟨ht.1, ih ht.2⟩

/-- Cells kept or changed in place, none to the value of an unlisted one, stay in canonical form. -/
theorem mem_wf_filterMap {m : List Host.Cell} (f : Host.Cell → Option Host.Cell)
    (hf : ∀ c d, f c = some d → d.1 = c.1 ∧ (d.2 = c.2 ∨ d.2 ≠ Mem.empty)) (h : Mem.wf m = true) : Mem.wf (m.filterMap f) = true := by
  rw [mem_wf_iff] at *
  refine ⟨sortedFrom_filterMap f (fun c d e => (hf c d e).1) h.1, fun d hd => ?_⟩
  obtain ⟨c, hc, e⟩ := List.mem_filterMap.1 hd
  rcases (hf c d e).2 with k | k
  · exact k ▸ h.2 c hc
  · exact k

theorem mem_wf_foldl {β : Type} (f : List Host.Cell → β → List Host.Cell)
    (hf : ∀ m x, Mem.wf m = true → Mem.wf (f m x) = true) (l : List β) {m : List Host.Cell} (h : Mem.wf m = true) :
    Mem.wf (l.foldl f m) = true := by
  induction l generalizing m with
  | nil => exact h
  | cons x l ih => exact ih (hf _ _ h)

@[simp] theorem mem_get_put_self (m : List Host.Cell) (a : Nat) (b : Byte) : Mem.get (Mem.put m a b) a = b := by
  unfold Mem.get Mem.put
  split
  · rename_i h; simp [h]
  · simp

theorem mem_get_put_ne (m : List Host.Cell) {a x : Nat} (b : Byte) (h : x ≠ a) : Mem.get (Mem.put m a b) x = Mem.get m x := by
  unfold Mem.get Mem.put
  split
  · exact tbl_get_del_ne _ _ h
  · exact tbl_get_put_ne _ _ _ h

/-- A write leaves every byte outside it alone. -/
theorem mem_get_write_out (bs : List Byte) (m : List Host.Cell) (a : Nat) {x : Nat} (h : x < a ∨ a + bs.length ≤ x) :
    Mem.get (Mem.write m a bs) x = Mem.get m x := by
  induction bs generalizing m a with
  | nil => rfl
  | cons b bs ih =>
    simp only [List.length_cons] at h
    unfold Mem.write
    rw [ih _ _ (by omega), mem_get_put_ne _ _ (by omega)]

/-- A read of what was just written gives it back. -/
theorem mem_read_write (bs : List Byte) (m : List Host.Cell) (a : Nat) : Mem.read (Mem.write m a bs) a bs.length = bs := by
  induction bs generalizing m a with
  | nil => rfl
  | cons b bs ih =>
    unfold Mem.write
    simp only [List.length_cons, Mem.read]
    rw [ih, mem_get_write_out _ _ _ (by omega), mem_get_put_self]

end Sys2Proof.Laws
end

