-- ==== Sys2Proof/Laws/Images.lean ====
section
/-! SUPPORT. Loading a Scribe's image changes only local memory: every byte of the device's address space reads as before. -/

namespace Sys2Proof.Laws

open Sys2Proof.Machine

/-- Local memory lies in no area of the device's address space, so what is read from an address does not depend on it. -/
theorem peek_of_local (s t : State) (h : s.frozen = t.frozen) (hm : ∀ a, a < localBase 0 → Mem.get s.mem a = Mem.get t.mem a) : s.peek = t.peek := by
  funext a
  unfold State.peek
  by_cases ha : a < localBase 0
  · rw [h, hm a ha]
  · have : areaOf a = .nowhere := by
      unfold areaOf localBase at *
      have h1 : stacksSize = 51539607552 ∧ rrBase + rrSize = 68786585600 ∧ regBase = 137438953472 ∧ 2 * hostBit = 18446744073709551616 := by decide
      rw [if_neg (by omega), if_neg (by rw [Bool.and_eq_true, decide_eq_true_eq, decide_eq_true_eq]; omega),
        if_neg (by rw [Bool.and_eq_true, decide_eq_true_eq, decide_eq_true_eq]; omega), if_neg (by rw [Bool.and_eq_true, decide_eq_true_eq, decide_eq_true_eq]; omega)]
    simp only [this]

theorem peekBytes_of_peek {s t : State} (h : s.peek = t.peek) (a n : Nat) : s.peekBytes a n = t.peekBytes a n := by
  induction n generalizing a with
  | zero => rfl
  | succ n ih => simp only [State.peekBytes, h, ih]

/-- Two states that read alike from every address: what is written stands in local memory alone. -/
structure Alike (s t : State) : Prop where
  frozen : s.frozen = t.frozen
  mem : ∀ a, a < localBase 0 → Mem.get s.mem a = Mem.get t.mem a

theorem Alike.trans {s t u : State} (h : Alike s t) (k : Alike t u) : Alike s u :=
  ⟨h.frozen.trans k.frozen, fun a ha => (h.mem a ha).trans (k.mem a ha)⟩

theorem alike_setEng (s : State) (p : Nat) (e : Engine) : Alike (s.setEng p e) s := ⟨rfl, fun _ _ => rfl⟩

theorem alike_store (s : State) (p o : Nat) (bs : List Byte) : Alike { s with mem := Mem.write s.mem (localBase p + o) bs } s := by
  refine ⟨rfl, fun a ha => mem_get_write_out _ _ _ (.inl ?_)⟩
  simp only [localBase] at ha ⊢; omega

theorem alike_localWrite (s : State) (p o : Nat) (bs : List Byte) : Alike (localWrite s p o bs) s := by
  unfold localWrite
  refine (alike_store _ _ _ _).trans ?_
  split
  · exact ⟨rfl, fun _ _ => rfl⟩
  · exact alike_setEng _ _ _

theorem alike_slices (f : State → Nat → Nat × Nat × Nat) (p : Nat) (ns : List Nat) (s : State) :
    Alike (ns.foldl (fun s i => s.setLocal p (f s i).1 (f s i).2.1 (f s i).2.2) s) s := by
  induction ns generalizing s with
  | nil => exact ⟨rfl, fun _ _ => rfl⟩
  | cons n ns ih => exact (ih _).trans (alike_store _ _ _ _)

theorem loadCarrel_peek (z : State) (p : Nat) (e : List Byte) : (loadCarrel z p e).peek = z.peek := by
  have hl (a b : Nat) (h : a < localBase 0) : a < localBase p + b := by simp only [localBase] at h ⊢; omega
  have hl0 (a : Nat) (h : a < localBase 0) : a < localBase p := by have := hl a 0 h; rwa [Nat.add_zero] at this
  suffices h : Alike (loadCarrel z p e) z from peek_of_local _ _ h.frozen h.mem
  unfold loadCarrel testSlice
  generalize List.replicate 8192 (0 : Byte) = zs
  refine (alike_setEng _ _ _).trans ((alike_store _ _ _ _).trans <| (alike_localWrite _ _ _ _).trans
    ((alike_slices (fun s i => (contextBase p + 256 * i + 248, 8, s.sliceEntry p i)) _ _ _).trans ⟨rfl, fun a ha => ?_⟩))
  generalize localBase p = b at *
  refine (mem_get_write_out _ _ _ (.inl ?_)).trans ((mem_get_write_out _ _ _ (.inl ?_)).trans (mem_get_write_out _ _ _ (.inl ?_)))
  · exact hl a _ ha
  · exact hl a _ ha
  · exact hl0 a ha

theorem imageCheck_loadCarrel (z : State) (p : Nat) (e : List Byte) : imageCheck (loadCarrel z p e) e = imageCheck z e := by
  have h : ∀ a n, (loadCarrel z p e).peekBytes a n = z.peekBytes a n := peekBytes_of_peek (loadCarrel_peek z p e)
  unfold imageCheck State.peekNat
  simp only [h]

end Sys2Proof.Laws
end

