-- ==== Sys2Proof/Laws/Keeps.lean ====
section
/-! SUPPORT. The relation `Keeps`: how it composes. The files beside this one prove it of every operation, once each. -/

namespace Sys2Proof

open Machine

variable {α β : Type} {s t u : State}

theorem Keeps.refl (s : State) : Keeps s s :=
  ⟨rfl, Nat.le_refl _, Nat.le_refl _, List.suffix_refl _, id, id, id, id⟩

theorem Keeps.trans (h : Keeps s t) (k : Keeps t u) : Keeps s u :=
  ⟨k.pending.trans h.pending, Nat.le_trans h.clk k.clk, Nat.le_trans h.freeN k.freeN, h.out.trans k.out,
    fun x => k.mem (h.mem x), fun x => k.regs (h.regs x), fun x => k.engines (h.engines x), fun x => k.rings (h.rings x)⟩

/-- A state on the way, once kept, may be used for what follows. -/
theorem Keeps.hyp (x : State) (h : Keeps s x) (k : Keeps s x → Keeps s t) : Keeps s t := k h

/-- A change of other fields than the ones `Keeps` speaks of. -/
theorem Keeps.upd (hp : t.pending = s.pending) (hc : t.clk = s.clk) (hf : t.freeN = s.freeN) (ho : t.out = s.out)
    (hm : t.mem = s.mem) (hr : t.regs = s.regs) (he : t.engines = s.engines) (hg : t.rings = s.rings) : Keeps s t :=
  ⟨hp, hc ▸ Nat.le_refl _, hf ▸ Nat.le_refl _, ho ▸ List.suffix_refl _, fun x => hm ▸ x, fun x => hr ▸ x, fun x => he ▸ x,
    fun x => hg ▸ x⟩

/-- A state written out whole on another one, with other fields of its own. -/
theorem Keeps.mk' {s m : State} (h : Keeps s m) {timeOff} {cat} {evHeld} {evLost} {led} {md} {barriers} {traps} {la} {fire} {mot} {insp} {loops} {tu} {net} {pair} {ln} {cal} {fl} {th} {gp} {st} {bnd} :
    Keeps s (State.mk m.clk timeOff m.freeN m.regs m.mem m.out cat m.rings evHeld evLost led md m.engines barriers traps la fire mot insp loops tu net pair ln cal fl th gp st bnd m.pending) := h.trans (Keeps.upd rfl rfl rfl rfl rfl rfl rfl rfl)

/-- The same, with a memory of its own in canonical form. -/
theorem Keeps.mkMem {s m : State} (h : Keeps s m) {mem : List Host.Cell} (hm : Mem.wf m.mem = true → Mem.wf mem = true) {timeOff} {cat} {evHeld} {evLost} {led} {md} {barriers} {traps} {la} {fire} {mot} {insp} {loops} {tu} {net} {pair} {ln} {cal} {fl} {th} {gp} {st} {bnd} :
    Keeps s (State.mk m.clk timeOff m.freeN m.regs mem m.out cat m.rings evHeld evLost led md m.engines barriers traps la fire mot insp loops tu net pair ln cal fl th gp st bnd m.pending) := h.trans ⟨rfl, Nat.le_refl _, Nat.le_refl _, List.suffix_refl _, hm, id, id, id⟩

/-- A change of memory that keeps its canonical form. -/
theorem Keeps.updMem (m : List Host.Cell) (h : Mem.wf s.mem = true → Mem.wf m = true) : Keeps s { s with mem := m } :=
  ⟨rfl, Nat.le_refl _, Nat.le_refl _, List.suffix_refl _, h, id, id, id⟩

theorem Keeps.ite {c : Prop} [Decidable c] {a b : State} (h : Keeps s a) (k : Keeps s b) : Keeps s (if c then a else b) := by
  split
  · exact h
  · exact k

theorem Keeps.foldl (f : State → β → State) (h : ∀ s x, Keeps s (f s x)) (l : List β) (k : Keeps u s) : Keeps u (l.foldl f s) := by
  induction l generalizing s with
  | nil => exact k
  | cons x l ih => exact ih (k.trans (h s x))

/-- A fold that carries a value beside the state. -/
theorem Keeps.foldlPair (f : State × α → β → State × α) (h : ∀ p x, Keeps p.1 (f p x).1) (l : List β) (p : State × α) (hp : Keeps s p.1) :
    Keeps s (l.foldl f p).1 := by
  induction l generalizing p with
  | nil => exact hp
  | cons x l ih => exact ih _ (hp.trans (h p x))

/-- What is kept in a pair is kept in its first half by name. -/
theorem Keeps.ofPair {p : State × α} {a : State} {b : α} (e : p = (a, b)) (h : Keeps s p.1) : Keeps s a := by
  subst e; exact h

theorem Keeps.ite1 {c : Prop} [Decidable c] {a b : State × α} (h : Keeps s a.1) (k : Keeps s b.1) : Keeps s (if c then a else b).1 := by
  split
  · exact h
  · exact k

/-- Where a command answers a next state, `Keeps` holds of it. -/
structure KeepsOut (s : State) (o : Host.Outcome State Fault Refusal) : Prop where
  next_keeps : ∀ t, o = .next t → Keeps s t

theorem KeepsOut.hyp {o : Host.Outcome State Fault Refusal} (x : State) (h : Keeps s x) (k : Keeps s x → KeepsOut s o) :
    KeepsOut s o := k h

theorem KeepsOut.next (h : Keeps s t) : KeepsOut s (.next t) := ⟨fun u e => by cases e; exact h⟩

theorem KeepsOut.ite {c : Prop} [Decidable c] {a b : Host.Outcome State Fault Refusal} (h : KeepsOut s a) (k : KeepsOut s b) :
    KeepsOut s (if c then a else b) := by
  split
  · exact h
  · exact k

theorem KeepsOut.trans {o : Host.Outcome State Fault Refusal} (h : Keeps s t) (k : KeepsOut t o) : KeepsOut s o :=
  ⟨fun u e => h.trans (k.next_keeps u e)⟩

theorem KeepsOut.onEngine (p : Nat) (f : State → State) (k : Keeps s u) (h : Keeps s (f u)) :
    KeepsOut s (u.onEngine p f) := by
  unfold State.onEngine
  exact KeepsOut.ite (KeepsOut.next (Keeps.ite k h)) ⟨fun t e => by cases e⟩

end Sys2Proof
end

