-- ==== Sys2Proof/Laws/KeepOps.lean ====
section
/-! SUPPORT. `Keeps` of every operation of Machine/Ops.lean. -/

namespace Sys2Proof.Laws

open Sys2Proof.Machine

set_option linter.unusedTactic false
set_option linter.unreachableTactic false
set_option linter.tactic.unusedName false

theorem keeps_State_wr (s : State) (f : Fld) (i v : Nat) {r0 : State} (hr : Keeps r0 s) : Keeps r0 (s.wr f i v) :=
  hr.trans ⟨rfl, Nat.le_refl _, Nat.le_refl _, List.suffix_refl _, id, sorted_put _ _, id, id⟩

theorem keeps_State_wri (s : State) (f : Fld) (i : Nat) (v : Int) {r0 : State} (hr : Keeps r0 s) : Keeps r0 (State.wri s f i v) := by
  refine Keeps.trans hr ?_
  clear hr
  unfold State.wri
  repeat' first
    | with_reducible apply Keeps.refl
    | intro _
    | with_reducible apply keeps_State_wr

theorem keeps_State_wrb (s : State) (f : Fld) (i : Nat) (b : Bool) {r0 : State} (hr : Keeps r0 s) : Keeps r0 (State.wrb s f i b) := by
  refine Keeps.trans hr ?_
  clear hr
  unfold State.wrb
  repeat' first
    | with_reducible apply Keeps.refl
    | intro _
    | with_reducible apply keeps_State_wr

theorem keeps_State_count (s : State) (f : Fld) (i : optParam Nat 0) (n : optParam Nat 1) {r0 : State} (hr : Keeps r0 s) : Keeps r0 (State.count s f i n) := by
  refine Keeps.trans hr ?_
  clear hr
  unfold State.count
  repeat' first
    | with_reducible apply Keeps.refl
    | intro _
    | with_reducible apply keeps_State_wr

theorem keeps_State_countMod (s : State) (f : Fld) (i : optParam Nat 0) (n : optParam Nat 1) {r0 : State} (hr : Keeps r0 s) : Keeps r0 (State.countMod s f i n) := by
  refine Keeps.trans hr ?_
  clear hr
  unfold State.countMod
  repeat' first
    | with_reducible apply Keeps.refl
    | intro _
    | with_reducible apply keeps_State_wr

theorem keeps_State_wr2 (s : State) (lo : Fld) (hi : Fld) (i : Nat) (v : Nat) {r0 : State} (hr : Keeps r0 s) : Keeps r0 (State.wr2 s lo hi i v) := by
  refine Keeps.trans hr ?_
  clear hr
  unfold State.wr2
  repeat' first
    | with_reducible apply Keeps.refl
    | intro _
    | with_reducible apply keeps_State_wr

theorem keeps_State_wr2i (s : State) (lo : Fld) (hi : Fld) (i : Nat) (v : Int) {r0 : State} (hr : Keeps r0 s) : Keeps r0 (State.wr2i s lo hi i v) := by
  refine Keeps.trans hr ?_
  clear hr
  unfold State.wr2i
  repeat' first
    | with_reducible apply Keeps.refl
    | intro _
    | with_reducible apply keeps_State_wr2

theorem keeps_State_snapTake (s : State) (free : Bool) {r0 : State} (hr : Keeps r0 s) : Keeps r0 (State.snapTake s free) := by
  refine Keeps.trans hr ?_
  clear hr
  unfold State.snapTake
  repeat' first
    | with_reducible apply Keeps.refl
    | intro _
    | with_reducible assumption
    | with_reducible refine Keeps.ofPair (by assumption) ?_
    | with_reducible apply Keeps.ite
    | fail_if_no_progress (with_reducible apply Keeps.mk')

theorem keeps_State_at (s : State) (t : Nat) {r0 : State} (hr : Keeps r0 s) : Keeps r0 (s.at t) := by
  have h : ∀ u : State, Keeps u { u with clk := max u.clk t, timeOff := u.offAt (max u.clk t) } := fun u =>
    ⟨rfl, Nat.le_max_left _ _, Nat.le_refl _, List.suffix_refl _, id, id, id, id⟩
  refine hr.trans ?_
  unfold State.at
  refine Keeps.trans ?_ (h _)
  repeat' first
    | with_reducible apply Keeps.refl
    | with_reducible apply keeps_State_snapTake
    | split

theorem keeps_State_capture (s : State) (ch : Nat) (t : Nat) {r0 : State} (hr : Keeps r0 s) : Keeps r0 (State.capture s ch t) := by
  refine Keeps.trans hr ?_
  clear hr
  unfold State.capture
  repeat' first
    | with_reducible apply Keeps.refl
    | intro _
    | with_reducible assumption
    | (fail_if_no_progress extract_lets +onlyGivenNames x
       first | (refine Keeps.hyp x ?_ (fun _ => ?_); subst x; rotate_left; clear_value x; rotate_left) | clear_value x)
    | fail_if_no_progress (with_reducible apply Keeps.mk')

theorem keeps_State_spend (s : State) {r0 : State} (hr : Keeps r0 s) : Keeps r0 s.spend :=
  hr.trans ⟨rfl, Nat.le_refl _, Nat.le_succ _, List.suffix_refl _, id, id, id, id⟩

theorem keeps_State_emit (s : State) (e : Emit) {r0 : State} (hr : Keeps r0 s) : Keeps r0 (s.emit e) :=
  hr.trans ⟨rfl, Nat.le_refl _, Nat.le_refl _, List.suffix_cons _ _, id, id, id, id⟩

theorem keeps_State_emits (s : State) (es : List Emit) {r0 : State} (hr : Keeps r0 s) : Keeps r0 (s.emits es) :=
  hr.trans ⟨rfl, Nat.le_refl _, Nat.le_refl _, List.suffix_append _ _, id, id, id, id⟩

theorem keeps_State_setLocal (s : State) (p a n v : Nat) {r0 : State} (hr : Keeps r0 s) : Keeps r0 (s.setLocal p a n v) :=
  hr.trans (Keeps.updMem _ (mem_wf_write _ _))

theorem keeps_State_twin (s : State) (r : TwinRec) {r0 : State} (hr : Keeps r0 s) : Keeps r0 (State.twin s r) := by
  refine Keeps.trans hr ?_
  clear hr
  unfold State.twin
  repeat' first
    | with_reducible apply Keeps.refl
    | intro _
    | with_reducible assumption
    | (fail_if_no_progress extract_lets +onlyGivenNames x
       first | (refine Keeps.hyp x ?_ (fun _ => ?_); subst x; rotate_left; clear_value x; rotate_left) | clear_value x)
    | with_reducible apply Keeps.ite
    | fail_if_no_progress (with_reducible apply Keeps.mk')

theorem keeps_State_poke (s : State) (a : Nat) (b : Byte) {r0 : State} (hr : Keeps r0 s) : Keeps r0 (s.poke a b) := by
  have h : Keeps s { s with mem := Mem.put s.mem a b } := Keeps.updMem _ (mem_wf_put _ _)
  refine hr.trans ?_
  unfold State.poke
  split
  · exact Keeps.ite (Keeps.refl _) h
  · exact h.trans (Keeps.upd rfl rfl rfl rfl rfl rfl rfl rfl)
  · exact h
  · exact Keeps.refl _

theorem keeps_State_pokeList (s : State) (a : Nat) (x2 : List Byte) {r0 : State} (hr : Keeps r0 s) : Keeps r0 (State.pokeList s a x2) := by
  refine Keeps.trans hr ?_
  clear hr
  fun_induction State.pokeList s a x2
  repeat' first
    | with_reducible apply Keeps.refl
    | intro _
    | with_reducible refine Keeps.trans ?_ (by assumption)
    | with_reducible apply keeps_State_poke

theorem keeps_State_pokeBytes (s : State) (a : Nat) (bs : List Byte) {r0 : State} (hr : Keeps r0 s) : Keeps r0 (State.pokeBytes s a bs) := by
  refine Keeps.trans hr ?_
  clear hr
  unfold State.pokeBytes
  repeat' first
    | with_reducible apply Keeps.refl
    | intro _
    | with_reducible assumption
    | (fail_if_no_progress extract_lets +onlyGivenNames x
       first | (refine Keeps.hyp x ?_ (fun _ => ?_); subst x; rotate_left; clear_value x; rotate_left) | clear_value x)
    | with_reducible apply keeps_State_pokeList
    | with_reducible apply Keeps.ite
    | fail_if_no_progress (with_reducible apply Keeps.mk')

theorem keeps_State_pokeNat (s : State) (a : Nat) (n : Nat) (v : Nat) {r0 : State} (hr : Keeps r0 s) : Keeps r0 (State.pokeNat s a n v) := by
  refine Keeps.trans hr ?_
  clear hr
  unfold State.pokeNat
  repeat' first
    | with_reducible apply Keeps.refl
    | intro _
    | with_reducible apply keeps_State_pokeBytes

theorem keeps_State_catMove (s : State) (ch : Nat) {r0 : State} (hr : Keeps r0 s) : Keeps r0 (State.catMove s ch) := by
  refine Keeps.trans hr ?_
  clear hr
  unfold State.catMove
  repeat' first
    | with_reducible apply Keeps.refl
    | intro _
    | with_reducible assumption
    | (fail_if_no_progress extract_lets +onlyGivenNames x
       first | (refine Keeps.hyp x ?_ (fun _ => ?_); subst x; rotate_left; clear_value x; rotate_left) | clear_value x)
    | with_reducible refine Keeps.ofPair (by assumption) ?_
    | fail_if_no_progress (with_reducible apply Keeps.mk')
    | split

theorem keeps_State_setEng (s : State) (p : Nat) (e : Engine) {r0 : State} (hr : Keeps r0 s) : Keeps r0 (s.setEng p e) :=
  hr.trans ⟨rfl, Nat.le_refl _, Nat.le_refl _, List.suffix_refl _, id, id, sorted_put _ _, id⟩

end Sys2Proof.Laws
end

