-- ==== Sys2Proof/Laws/KeepSlices.lean ====
section
/-! SUPPORT. `Keeps` of every operation of Machine/Slices.lean. -/

namespace Sys2Proof.Laws

open Sys2Proof.Machine

set_option linter.unusedTactic false
set_option linter.unreachableTactic false
set_option linter.tactic.unusedName false

theorem keeps_State_setRing (s : State) (n : Nat) (x : Ring) {r0 : State} (hr : Keeps r0 s) : Keeps r0 (s.setRing n x) :=
  hr.trans ⟨rfl, Nat.le_refl _, Nat.le_refl _, List.suffix_refl _, id, id, id, sorted_put _ _⟩

theorem keeps_State_slicePut (s : State) (p : Nat) (i : Nat) (o : Nat) (n : Nat) (v : Nat) {r0 : State} (hr : Keeps r0 s) : Keeps r0 (State.slicePut s p i o n v) := by
  refine Keeps.trans hr ?_
  clear hr
  unfold State.slicePut
  repeat' first
    | with_reducible apply Keeps.refl
    | intro _
    | with_reducible apply keeps_State_setLocal

theorem keeps_State_sliceEnable (s : State) (p : Nat) (i : Nat) (b : Bool) {r0 : State} (hr : Keeps r0 s) : Keeps r0 (State.sliceEnable s p i b) := by
  refine Keeps.trans hr ?_
  clear hr
  unfold State.sliceEnable
  repeat' first
    | with_reducible apply Keeps.refl
    | intro _
    | with_reducible apply keeps_State_slicePut

theorem keeps_State_setSlice (s : State) (p : Nat) (i : Nat) (x3 : Slice) {r0 : State} (hr : Keeps r0 s) : Keeps r0 (State.setSlice s p i x3) := by
  refine Keeps.trans hr ?_
  clear hr
  unfold State.setSlice
  repeat' first
    | with_reducible apply Keeps.refl
    | intro _
    | with_reducible assumption
    | (fail_if_no_progress extract_lets +onlyGivenNames x
       first | (refine Keeps.hyp x ?_ (fun _ => ?_); subst x; rotate_left; clear_value x; rotate_left) | clear_value x)
    | with_reducible apply keeps_State_setEng

theorem keeps_localWrite (s : State) (p : Nat) (o : Nat) (b : List Byte) {r0 : State} (hr : Keeps r0 s) : Keeps r0 (localWrite s p o b) :=
  Keeps.mkMem (Keeps.ite hr (keeps_State_setEng _ _ _ hr)) (mem_wf_write _ _)

theorem keeps_ringSettle (s : State) (n : Nat) {r0 : State} (hr : Keeps r0 s) : Keeps r0 (ringSettle s n) :=
  hr.trans ⟨rfl, Nat.le_refl _, Nat.le_refl _, List.suffix_refl _, id, id, sortedFrom_mapVal _, id⟩

theorem keeps_refreshUrgency (s : State) (p : Nat) {r0 : State} (hr : Keeps r0 s) : Keeps r0 (refreshUrgency s p) := by
  refine Keeps.trans hr ?_
  clear hr
  unfold refreshUrgency
  repeat' first
    | with_reducible apply Keeps.refl
    | intro _
    | with_reducible assumption
    | (fail_if_no_progress extract_lets +onlyGivenNames x
       first | (refine Keeps.hyp x ?_ (fun _ => ?_); subst x; rotate_left; clear_value x; rotate_left) | clear_value x)
    | with_reducible apply keeps_State_setEng

theorem keeps_startRun (s : State) (p : Nat) (i : Nat) (x3 : Slice) {r0 : State} (hr : Keeps r0 s) : Keeps r0 (startRun s p i x3) := by
  refine Keeps.trans hr ?_
  clear hr
  unfold startRun
  repeat' first
    | with_reducible apply Keeps.refl
    | intro _
    | with_reducible assumption
    | (fail_if_no_progress extract_lets +onlyGivenNames x
       first | (refine Keeps.hyp x ?_ (fun _ => ?_); subst x; rotate_left; clear_value x; rotate_left) | clear_value x)
    | with_reducible apply keeps_State_setEng
    | with_reducible apply keeps_State_slicePut
    | with_reducible apply keeps_State_count
    | with_reducible apply Keeps.ite

theorem keeps_cyclesTurn (s : State) {r0 : State} (hr : Keeps r0 s) : Keeps r0 (cyclesTurn s) := by
  refine Keeps.trans hr ?_
  clear hr
  unfold cyclesTurn
  repeat' first
    | with_reducible apply Keeps.refl
    | intro _
    | with_reducible assumption
    | with_reducible apply keeps_State_setEng
    | with_reducible refine Keeps.ofPair (by assumption) ?_
    | with_reducible apply Keeps.foldl
    | with_reducible apply Keeps.foldlPair
    | with_reducible apply Keeps.ite
    | fail_if_no_progress (with_reducible apply Keeps.mk')

theorem keeps_dispatch (s : State) (p : Nat) {r0 : State} (hr : Keeps r0 s) : Keeps r0 (dispatch s p) := by
  refine Keeps.trans hr ?_
  clear hr
  unfold dispatch
  repeat' first
    | with_reducible apply Keeps.refl
    | intro _
    | with_reducible assumption
    | (fail_if_no_progress extract_lets +onlyGivenNames x
       first | (refine Keeps.hyp x ?_ (fun _ => ?_); subst x; rotate_left; clear_value x; rotate_left) | clear_value x)
    | with_reducible apply keeps_refreshUrgency
    | with_reducible apply keeps_State_catMove
    | with_reducible apply keeps_startRun
    | with_reducible refine Keeps.ofPair (by assumption) ?_
    | with_reducible apply Keeps.ite
    | fail_if_no_progress (with_reducible apply Keeps.mk')
    | split

theorem keeps_sliceEvent (s : State) (p : Nat) (i : Nat) {r0 : State} (hr : Keeps r0 s) : Keeps r0 (sliceEvent s p i) := by
  refine Keeps.trans hr ?_
  clear hr
  unfold sliceEvent
  repeat' first
    | with_reducible apply Keeps.refl
    | intro _
    | with_reducible assumption
    | (fail_if_no_progress extract_lets +onlyGivenNames x
       first | (refine Keeps.hyp x ?_ (fun _ => ?_); subst x; rotate_left; clear_value x; rotate_left) | clear_value x)
    | with_reducible apply keeps_State_slicePut
    | with_reducible apply keeps_State_setSlice
    | with_reducible apply keeps_dispatch
    | with_reducible refine Keeps.ofPair (by assumption) ?_
    | with_reducible apply Keeps.ite
    | fail_if_no_progress (with_reducible apply Keeps.mk')
    | split

theorem keeps_triggerSlices (s : State) (kind : Nat) (fits : Nat → Bool) {r0 : State} (hr : Keeps r0 s) : Keeps r0 (triggerSlices s kind fits) := by
  refine Keeps.trans hr ?_
  clear hr
  unfold triggerSlices
  repeat' first
    | with_reducible apply Keeps.refl
    | intro _
    | with_reducible apply keeps_sliceEvent
    | with_reducible apply Keeps.foldl
    | with_reducible apply Keeps.foldlPair
    | with_reducible apply Keeps.ite

theorem keeps_ringWake (s : State) (n : Nat) {r0 : State} (hr : Keeps r0 s) : Keeps r0 (ringWake s n) := by
  refine Keeps.trans hr ?_
  clear hr
  unfold ringWake
  repeat' first
    | with_reducible apply Keeps.refl
    | intro _
    | with_reducible assumption
    | (fail_if_no_progress extract_lets +onlyGivenNames x
       first | (refine Keeps.hyp x ?_ (fun _ => ?_); subst x; rotate_left; clear_value x; rotate_left) | clear_value x)
    | with_reducible apply keeps_dispatch
    | with_reducible apply keeps_State_setSlice
    | with_reducible refine Keeps.ofPair (by assumption) ?_
    | with_reducible apply Keeps.foldl
    | with_reducible apply Keeps.foldlPair
    | with_reducible apply Keeps.ite
    | fail_if_no_progress (with_reducible apply Keeps.mk')
    | split

end Sys2Proof.Laws
end

