-- ==== Sys2Proof/Laws/KeepRings.lean ====
section
/-! SUPPORT. `Keeps` of every operation of Machine/Rings.lean. -/

namespace Sys2Proof.Laws

open Sys2Proof.Machine

set_option linter.unusedTactic false
set_option linter.unreachableTactic false
set_option linter.tactic.unusedName false

theorem keeps_State_ledPut (s : State) (off : Nat) (v : Nat) {r0 : State} (hr : Keeps r0 s) : Keeps r0 (State.ledPut s off v) := by
  refine Keeps.trans hr ?_
  clear hr
  unfold State.ledPut
  repeat' first
    | with_reducible apply Keeps.refl
    | intro _
    | with_reducible assumption
    | (fail_if_no_progress extract_lets +onlyGivenNames x
       first | (refine Keeps.hyp x ?_ (fun _ => ?_); subst x; rotate_left; clear_value x; rotate_left) | clear_value x)
    | fail_if_no_progress (with_reducible apply Keeps.mk')

theorem keeps_State_ledAdd (s : State) (off : Nat) (n : Nat) {r0 : State} (hr : Keeps r0 s) : Keeps r0 (State.ledAdd s off n) := by
  refine Keeps.trans hr ?_
  clear hr
  unfold State.ledAdd
  repeat' first
    | with_reducible apply Keeps.refl
    | intro _
    | with_reducible apply keeps_State_ledPut

theorem keeps_State_ledSub (s : State) (off : Nat) (n : Nat) {r0 : State} (hr : Keeps r0 s) : Keeps r0 (State.ledSub s off n) := by
  refine Keeps.trans hr ?_
  clear hr
  unfold State.ledSub
  repeat' first
    | with_reducible apply Keeps.refl
    | intro _
    | with_reducible assumption
    | with_reducible apply keeps_State_ledPut
    | with_reducible refine Keeps.ofPair (by assumption) ?_
    | with_reducible apply Keeps.ite
    | fail_if_no_progress (with_reducible apply Keeps.mk')

theorem keeps_State_ledMove (s : State) (src : Nat) (dst : Nat) (n : Nat) {r0 : State} (hr : Keeps r0 s) : Keeps r0 (State.ledMove s src dst n) := by
  refine Keeps.trans hr ?_
  clear hr
  unfold State.ledMove
  repeat' first
    | with_reducible apply Keeps.refl
    | intro _
    | with_reducible assumption
    | with_reducible apply keeps_State_ledSub
    | with_reducible apply keeps_State_ledAdd
    | with_reducible refine Keeps.ofPair (by assumption) ?_
    | with_reducible apply Keeps.ite
    | fail_if_no_progress (with_reducible apply Keeps.mk')

theorem keeps_msiSend (s : State) (n : Nat) {r0 : State} (hr : Keeps r0 s) : Keeps r0 (msiSend s n) := by
  refine Keeps.trans hr ?_
  clear hr
  unfold msiSend
  repeat' first
    | with_reducible apply Keeps.refl
    | intro _
    | with_reducible assumption
    | (fail_if_no_progress extract_lets +onlyGivenNames x
       first | (refine Keeps.hyp x ?_ (fun _ => ?_); subst x; rotate_left; clear_value x; rotate_left) | clear_value x)
    | with_reducible apply keeps_State_emit
    | with_reducible apply keeps_State_setRing

theorem keeps_msiEvent (s : State) (n : Nat) {r0 : State} (hr : Keeps r0 s) : Keeps r0 (msiEvent s n) := by
  refine Keeps.trans hr ?_
  clear hr
  unfold msiEvent
  repeat' first
    | with_reducible apply Keeps.refl
    | intro _
    | with_reducible assumption
    | (fail_if_no_progress extract_lets +onlyGivenNames x
       first | (refine Keeps.hyp x ?_ (fun _ => ?_); subst x; rotate_left; clear_value x; rotate_left) | clear_value x)
    | with_reducible apply keeps_State_wr
    | with_reducible apply keeps_msiSend
    | with_reducible apply keeps_State_setRing
    | with_reducible apply Keeps.ite

theorem keeps_msiOwed (s : State) (n : Nat) {r0 : State} (hr : Keeps r0 s) : Keeps r0 (msiOwed s n) := by
  refine Keeps.trans hr ?_
  clear hr
  unfold msiOwed
  repeat' first
    | with_reducible apply Keeps.refl
    | intro _
    | with_reducible assumption
    | with_reducible apply keeps_msiEvent
    | with_reducible apply keeps_State_wr
    | with_reducible refine Keeps.ofPair (by assumption) ?_
    | with_reducible apply Keeps.ite
    | fail_if_no_progress (with_reducible apply Keeps.mk')
    | split

theorem keeps_ringPublish (s : State) (n : Nat) (k : Nat) (irq : Bool) {r0 : State} (hr : Keeps r0 s) : Keeps r0 (ringPublish s n k irq) := by
  refine Keeps.trans hr ?_
  clear hr
  unfold ringPublish
  repeat' first
    | with_reducible apply Keeps.refl
    | intro _
    | with_reducible assumption
    | (fail_if_no_progress extract_lets +onlyGivenNames x
       first | (refine Keeps.hyp x ?_ (fun _ => ?_); subst x; rotate_left; clear_value x; rotate_left) | clear_value x)
    | with_reducible apply keeps_State_setRing
    | with_reducible apply keeps_State_ledAdd
    | with_reducible apply keeps_ringWake
    | with_reducible apply keeps_msiEvent
    | with_reducible refine Keeps.ofPair (by assumption) ?_
    | with_reducible apply Keeps.ite
    | fail_if_no_progress (with_reducible apply Keeps.mk')
    | split

theorem keeps_ringPost (s : State) (n : Nat) (d : Desc) {r0 : State} (hr : Keeps r0 s) : Keeps r0 (ringPost s n d) := by
  refine Keeps.trans hr ?_
  clear hr
  unfold ringPost
  repeat' first
    | with_reducible apply Keeps.refl
    | intro _
    | with_reducible assumption
    | (fail_if_no_progress extract_lets +onlyGivenNames x
       first | (refine Keeps.hyp x ?_ (fun _ => ?_); subst x; rotate_left; clear_value x; rotate_left) | clear_value x)
    | with_reducible apply keeps_ringPublish
    | with_reducible apply keeps_State_pokeBytes

theorem keeps_ringTake (s : State) (n : Nat) (agent : Nat) {r0 : State} (hr : Keeps r0 s) : Keeps r0 (ringTake s n agent) := by
  refine Keeps.trans hr ?_
  clear hr
  unfold ringTake
  repeat' first
    | with_reducible apply Keeps.refl
    | intro _
    | with_reducible assumption
    | (fail_if_no_progress extract_lets +onlyGivenNames x
       first | (refine Keeps.hyp x ?_ (fun _ => ?_); subst x; rotate_left; clear_value x; rotate_left) | clear_value x)
    | with_reducible apply keeps_State_setRing
    | with_reducible apply keeps_ringSettle
    | with_reducible apply keeps_State_ledAdd
    | with_reducible refine Keeps.ofPair (by assumption) ?_
    | with_reducible apply Keeps.ite
    | fail_if_no_progress (with_reducible apply Keeps.mk')

theorem keeps_ringComplete (s : State) (n : Nat) (i : Nat) (status : Nat) (result : Nat) {r0 : State} (hr : Keeps r0 s) : Keeps r0 (ringComplete s n i status result) := by
  refine Keeps.trans hr ?_
  clear hr
  unfold ringComplete
  repeat' first
    | with_reducible apply Keeps.refl
    | intro _
    | with_reducible assumption
    | (fail_if_no_progress extract_lets +onlyGivenNames x
       first | (refine Keeps.hyp x ?_ (fun _ => ?_); subst x; rotate_left; clear_value x; rotate_left) | clear_value x)
    | with_reducible apply keeps_State_setRing
    | with_reducible apply keeps_State_pokeNat
    | with_reducible apply keeps_State_ledMove
    | with_reducible apply keeps_msiEvent
    | with_reducible apply Keeps.ite

theorem keeps_gpInt (s : State) (f : Fld) {r0 : State} (hr : Keeps r0 s) : Keeps r0 (gpInt s f) := by
  refine Keeps.trans hr ?_
  clear hr
  unfold gpInt
  repeat' first
    | with_reducible apply Keeps.refl
    | intro _
    | with_reducible assumption
    | (fail_if_no_progress extract_lets +onlyGivenNames x
       first | (refine Keeps.hyp x ?_ (fun _ => ?_); subst x; rotate_left; clear_value x; rotate_left) | clear_value x)
    | with_reducible apply keeps_State_wr
    | with_reducible apply keeps_State_emit
    | with_reducible apply Keeps.ite

theorem keeps_postEventNow (s : State) (e : Event) {r0 : State} (hr : Keeps r0 s) : Keeps r0 (postEventNow s e) := by
  refine Keeps.trans hr ?_
  clear hr
  unfold postEventNow
  repeat' first
    | with_reducible apply Keeps.refl
    | intro _
    | with_reducible apply keeps_ringPost

theorem keeps_flushEvents (x0 : List Event) (x1 : State) {r0 : State} (hr : Keeps r0 x1) : Keeps r0 (flushEvents x0 x1) := by
  refine Keeps.trans hr ?_
  clear hr
  fun_induction flushEvents x0 x1
  repeat' first
    | with_reducible apply Keeps.refl
    | intro _
    | with_reducible assumption
    | (fail_if_no_progress extract_lets +onlyGivenNames x
       first | (refine Keeps.hyp x ?_ (fun _ => ?_); subst x; rotate_left; clear_value x; rotate_left) | clear_value x)
    | with_reducible refine Keeps.trans ?_ (by assumption)
    | with_reducible apply keeps_postEventNow
    | with_reducible apply Keeps.ite
    | fail_if_no_progress (with_reducible apply Keeps.mk')

theorem keeps_State_flushEvents (s : State) {r0 : State} (hr : Keeps r0 s) : Keeps r0 (State.flushEvents s) := by
  refine Keeps.trans hr ?_
  clear hr
  unfold State.flushEvents
  repeat' first
    | with_reducible apply Keeps.refl
    | intro _
    | with_reducible apply keeps_flushEvents

theorem keeps_State_faultCount (s : State) {r0 : State} (hr : Keeps r0 s) : Keeps r0 (State.faultCount s) := by
  refine Keeps.trans hr ?_
  clear hr
  unfold State.faultCount
  repeat' first
    | with_reducible apply Keeps.refl
    | intro _
    | with_reducible assumption
    | (fail_if_no_progress extract_lets +onlyGivenNames x
       first | (refine Keeps.hyp x ?_ (fun _ => ?_); subst x; rotate_left; clear_value x; rotate_left) | clear_value x)
    | fail_if_no_progress (with_reducible apply Keeps.mk')

theorem keeps_State_event (s : State) (code : Nat) (chan : Nat) (line : Nat) (evA : Nat) (evB : Nat) {r0 : State} (hr : Keeps r0 s) : Keeps r0 (State.event s code chan line evA evB) := by
  refine Keeps.trans hr ?_
  clear hr
  unfold State.event
  repeat' first
    | with_reducible apply Keeps.refl
    | intro _
    | with_reducible assumption
    | (fail_if_no_progress extract_lets +onlyGivenNames x
       first | (refine Keeps.hyp x ?_ (fun _ => ?_); subst x; rotate_left; clear_value x; rotate_left) | clear_value x)
    | with_reducible apply keeps_State_faultCount
    | with_reducible apply keeps_postEventNow
    | with_reducible refine Keeps.ofPair (by assumption) ?_
    | with_reducible apply Keeps.ite
    | fail_if_no_progress (with_reducible apply Keeps.mk')
    | split

theorem keeps_ledCheck (s : State) (c : Tbl Nat) (line : Nat) {r0 : State} (hr : Keeps r0 s) : Keeps r0 (ledCheck s c line) := by
  refine Keeps.trans hr ?_
  clear hr
  unfold ledCheck
  repeat' first
    | with_reducible apply Keeps.refl
    | intro _
    | with_reducible assumption
    | with_reducible apply keeps_State_wr
    | with_reducible apply keeps_State_event
    | with_reducible refine Keeps.ofPair (by assumption) ?_
    | with_reducible apply Keeps.foldl
    | with_reducible apply Keeps.foldlPair
    | with_reducible apply Keeps.ite
    | fail_if_no_progress (with_reducible apply Keeps.mk')
    | split

end Sys2Proof.Laws
end

