-- ==== Sys2Proof/Laws/KeepRingOps.lean ====
section
/-! SUPPORT. `Keeps` of every operation of Machine/RingOps.lean. -/

namespace Sys2Proof.Laws

open Sys2Proof.Machine

set_option linter.unusedTactic false
set_option linter.unreachableTactic false
set_option linter.tactic.unusedName false

theorem keeps_ringOut (s : State) (k : Nat) (frame : List Byte) {r0 : State} (hr : Keeps r0 s) : Keeps r0 (ringOut s k frame) := by
  refine Keeps.trans hr ?_
  clear hr
  unfold ringOut
  repeat' first
    | with_reducible apply Keeps.refl
    | intro _
    | with_reducible apply keeps_State_emit
    | with_reducible apply Keeps.ite

theorem keeps_nextRseq (s : State) {r0 : State} (hr : Keeps r0 s) : Keeps r0 (nextRseq s) := by
  refine Keeps.trans hr ?_
  clear hr
  unfold nextRseq
  repeat' first
    | with_reducible apply Keeps.refl
    | intro _
    | with_reducible assumption
    | (fail_if_no_progress extract_lets +onlyGivenNames x
       first | (refine Keeps.hyp x ?_ (fun _ => ?_); subst x; rotate_left; clear_value x; rotate_left) | clear_value x)
    | fail_if_no_progress (with_reducible apply Keeps.mk')

theorem keeps_linkSend (s : State) (k : Nat) (rtype : Nat) (body : List Byte) {r0 : State} (hr : Keeps r0 s) : Keeps r0 (linkSend s k rtype body) := by
  refine Keeps.trans hr ?_
  clear hr
  unfold linkSend
  repeat' first
    | with_reducible apply Keeps.refl
    | intro _
    | with_reducible apply keeps_ringOut
    | with_reducible apply keeps_nextRseq

theorem keeps_ringSend (s : State) (rtype : Nat) (body : List Byte) {r0 : State} (hr : Keeps r0 s) : Keeps r0 (ringSend s rtype body) := by
  refine Keeps.trans hr ?_
  clear hr
  unfold ringSend
  repeat' first
    | with_reducible apply Keeps.refl
    | intro _
    | with_reducible assumption
    | (fail_if_no_progress extract_lets +onlyGivenNames x
       first | (refine Keeps.hyp x ?_ (fun _ => ?_); subst x; rotate_left; clear_value x; rotate_left) | clear_value x)
    | with_reducible apply keeps_ringOut
    | with_reducible apply keeps_nextRseq
    | with_reducible apply Keeps.ite

end Sys2Proof.Laws
end

