-- ==== Sys2Proof/Laws/KeepSched.lean ====
section
/-! SUPPORT. `Keeps` of every operation of Machine/Sched.lean. -/

namespace Sys2Proof.Laws

open Sys2Proof.Machine

set_option linter.unusedTactic false
set_option linter.unreachableTactic false
set_option linter.tactic.unusedName false

theorem keeps_saveContext (s : State) (p : Nat) (i : Nat) (pc : Nat) {r0 : State} (hr : Keeps r0 s) : Keeps r0 (saveContext s p i pc) := by
  refine Keeps.trans hr ?_
  clear hr
  unfold saveContext
  repeat' first
    | with_reducible apply Keeps.refl
    | intro _
    | with_reducible assumption
    | (fail_if_no_progress extract_lets +onlyGivenNames x
       first | (refine Keeps.hyp x ?_ (fun _ => ?_); subst x; rotate_left; clear_value x; rotate_left) | clear_value x)
    | with_reducible apply keeps_localWrite
    | with_reducible refine Keeps.ofPair (by assumption) ?_
    | with_reducible apply Keeps.ite
    | fail_if_no_progress (with_reducible apply Keeps.mk')

theorem keeps_endRun (s : State) (p : Nat) (i : Nat) (pc : Nat) (x : Slice) {r0 : State} (hr : Keeps r0 s) : Keeps r0 (endRun s p i pc x) := by
  refine Keeps.trans hr ?_
  clear hr
  unfold endRun
  repeat' first
    | with_reducible apply Keeps.refl
    | intro _
    | with_reducible assumption
    | (fail_if_no_progress extract_lets +onlyGivenNames x
       first | (refine Keeps.hyp x ?_ (fun _ => ?_); subst x; rotate_left; clear_value x; rotate_left) | clear_value x)
    | with_reducible apply keeps_saveContext
    | with_reducible apply keeps_State_setEng
    | with_reducible apply keeps_dispatch
    | with_reducible apply keeps_State_setSlice
    | with_reducible refine Keeps.ofPair (by assumption) ?_
    | with_reducible apply Keeps.ite
    | fail_if_no_progress (with_reducible apply Keeps.mk')
    | split

theorem keeps_endRunning (s : State) (p : Nat) (pc : Nat) (f : Slice → Slice) {r0 : State} (hr : Keeps r0 s) : Keeps r0 (endRunning s p pc f) := by
  refine Keeps.trans hr ?_
  clear hr
  unfold endRunning
  repeat' first
    | with_reducible apply Keeps.refl
    | intro _
    | with_reducible assumption
    | (fail_if_no_progress extract_lets +onlyGivenNames x
       first | (refine Keeps.hyp x ?_ (fun _ => ?_); subst x; rotate_left; clear_value x; rotate_left) | clear_value x)
    | with_reducible apply keeps_endRun
    | with_reducible refine Keeps.ofPair (by assumption) ?_
    | fail_if_no_progress (with_reducible apply Keeps.mk')
    | split

theorem keeps_scribeRetire (s : State) (p : Nat) (reason : Nat) {r0 : State} (hr : Keeps r0 s) : Keeps r0 (scribeRetire s p reason) := by
  refine Keeps.trans hr ?_
  clear hr
  unfold scribeRetire
  repeat' first
    | with_reducible apply Keeps.refl
    | intro _
    | with_reducible assumption
    | (fail_if_no_progress extract_lets +onlyGivenNames x
       first | (refine Keeps.hyp x ?_ (fun _ => ?_); subst x; rotate_left; clear_value x; rotate_left) | clear_value x)
    | with_reducible apply keeps_State_setEng
    | with_reducible apply keeps_State_wr
    | with_reducible apply keeps_State_event
    | with_reducible refine Keeps.ofPair (by assumption) ?_
    | with_reducible apply Keeps.ite
    | fail_if_no_progress (with_reducible apply Keeps.mk')
    | split

theorem keeps_scribeFault (s : State) (p cause word off : Nat) {r0 : State} (hr : Keeps r0 s) : Keeps r0 (scribeFault s p cause word off) := by
  refine hr.trans ?_
  clear hr
  unfold scribeFault
  split
  · exact Keeps.refl _
  · extract_lets e l a b rec_ c times d f g k m
    have hc : Keeps s c := keeps_localWrite _ _ _ _ (keeps_State_sliceEnable _ _ _ _ (Keeps.refl _))
    have hk : Keeps s k := keeps_State_event _ _ _ _ _ _ (keeps_State_wr _ _ _ _ (keeps_State_wr _ _ _ _ (keeps_State_setEng _ _ _ hc)))
    exact keeps_endRun _ _ _ _ _
      (Keeps.ite (keeps_scribeRetire _ _ _ hk) (Keeps.ite (keeps_scribeRetire _ _ _ hk) hk))

theorem keeps_testSlice (s : State) (p : Nat) {r0 : State} (hr : Keeps r0 s) : Keeps r0 (testSlice s p) := by
  refine Keeps.trans hr ?_
  clear hr
  unfold testSlice
  repeat' first
    | with_reducible apply Keeps.refl
    | intro _
    | with_reducible assumption
    | (fail_if_no_progress extract_lets +onlyGivenNames x
       first | (refine Keeps.hyp x ?_ (fun _ => ?_); subst x; rotate_left; clear_value x; rotate_left) | clear_value x)
    | with_reducible apply keeps_localWrite
    | with_reducible apply keeps_State_setLocal
    | with_reducible refine Keeps.ofPair (by assumption) ?_
    | with_reducible apply Keeps.ite
    | fail_if_no_progress (with_reducible apply Keeps.mk')

theorem keeps_loadCarrel (s : State) (p : Nat) (e : List Byte) {r0 : State} (hr : Keeps r0 s) : Keeps r0 (loadCarrel s p e) := by
  refine hr.trans ?_
  clear hr
  unfold loadCarrel
  exact keeps_State_setEng _ _ _ (keeps_testSlice _ _ (Keeps.foldl _ (fun _ _ => keeps_State_setLocal _ _ _ _ _ (Keeps.refl _)) _
    (Keeps.updMem _ (fun h => mem_wf_write _ _ (mem_wf_write _ _ (mem_wf_write _ _ h))))))

theorem keeps_spareGoes (s : State) (p : Nat) {r0 : State} (hr : Keeps r0 s) : Keeps r0 (spareGoes s p) := by
  refine Keeps.trans hr ?_
  clear hr
  unfold spareGoes
  repeat' first
    | with_reducible apply Keeps.refl
    | intro _
    | with_reducible assumption
    | (fail_if_no_progress extract_lets +onlyGivenNames x
       first | (refine Keeps.hyp x ?_ (fun _ => ?_); subst x; rotate_left; clear_value x; rotate_left) | clear_value x)
    | with_reducible apply keeps_testSlice
    | with_reducible apply keeps_State_setEng
    | with_reducible apply keeps_dispatch
    | with_reducible apply keeps_State_setSlice
    | with_reducible refine Keeps.ofPair (by assumption) ?_
    | with_reducible apply Keeps.ite
    | fail_if_no_progress (with_reducible apply Keeps.mk')
    | split

theorem keeps_dropPopped (s : State) (agent : Nat) {r0 : State} (hr : Keeps r0 s) : Keeps r0 (dropPopped s agent) := by
  refine Keeps.trans hr ?_
  clear hr
  unfold dropPopped
  repeat' first
    | with_reducible apply Keeps.refl
    | intro _
    | with_reducible apply keeps_ringComplete
    | with_reducible apply Keeps.foldl

theorem keeps_scribeStart (s : State) (l : Nat) (p : Nat) {r0 : State} (hr : Keeps r0 s) : Keeps r0 (scribeStart s l p) := by
  refine Keeps.trans hr ?_
  clear hr
  unfold scribeStart
  repeat' first
    | with_reducible apply Keeps.refl
    | intro _
    | with_reducible assumption
    | (fail_if_no_progress extract_lets +onlyGivenNames x
       first | (refine Keeps.hyp x ?_ (fun _ => ?_); subst x; rotate_left; clear_value x; rotate_left) | clear_value x)
    | with_reducible apply keeps_loadCarrel
    | with_reducible apply keeps_State_wr
    | with_reducible apply keeps_State_event
    | with_reducible refine Keeps.ofPair (by assumption) ?_
    | with_reducible apply Keeps.ite
    | fail_if_no_progress (with_reducible apply Keeps.mk')
    | split

theorem keeps_scribeGoes (s : State) (p : Nat) {r0 : State} (hr : Keeps r0 s) : Keeps r0 (scribeGoes s p) := by
  refine Keeps.trans hr ?_
  clear hr
  unfold scribeGoes
  repeat' first
    | with_reducible apply Keeps.refl
    | intro _
    | with_reducible assumption
    | (fail_if_no_progress extract_lets +onlyGivenNames x
       first | (refine Keeps.hyp x ?_ (fun _ => ?_); subst x; rotate_left; clear_value x; rotate_left) | clear_value x)
    | with_reducible apply keeps_dispatch
    | with_reducible apply keeps_State_setSlice
    | with_reducible apply Keeps.foldl
    | with_reducible apply Keeps.foldlPair
    | with_reducible apply Keeps.ite

theorem keeps_scribesWake (s : State) {r0 : State} (hr : Keeps r0 s) : Keeps r0 (scribesWake s) := by
  refine Keeps.trans hr ?_
  clear hr
  unfold scribesWake
  repeat' first
    | with_reducible apply Keeps.refl
    | intro _
    | with_reducible assumption
    | with_reducible apply keeps_scribeGoes
    | with_reducible apply keeps_dispatch
    | with_reducible refine Keeps.ofPair (by assumption) ?_
    | with_reducible apply Keeps.foldl
    | with_reducible apply Keeps.foldlPair
    | with_reducible apply Keeps.ite
    | fail_if_no_progress (with_reducible apply Keeps.mk')
    | split

theorem keeps_scribeServe (s : State) (l : Nat) (p : Nat) {r0 : State} (hr : Keeps r0 s) : Keeps r0 (scribeServe s l p) := by
  refine Keeps.trans hr ?_
  clear hr
  unfold scribeServe
  repeat' first
    | with_reducible apply Keeps.refl
    | intro _
    | with_reducible assumption
    | (fail_if_no_progress extract_lets +onlyGivenNames x
       first | (refine Keeps.hyp x ?_ (fun _ => ?_); subst x; rotate_left; clear_value x; rotate_left) | clear_value x)
    | with_reducible apply keeps_State_wr
    | with_reducible apply keeps_State_setSlice
    | with_reducible apply keeps_scribeGoes
    | with_reducible refine Keeps.ofPair (by assumption) ?_
    | with_reducible apply Keeps.ite
    | fail_if_no_progress (with_reducible apply Keeps.mk')

end Sys2Proof.Laws
end

