-- ==== Sys2Proof/Laws/KeepTimeOps.lean ====
section
/-! SUPPORT. `Keeps` of every operation of Machine/TimeOps.lean. -/

namespace Sys2Proof.Laws

open Sys2Proof.Machine

set_option linter.unusedTactic false
set_option linter.unreachableTactic false
set_option linter.tactic.unusedName false

theorem keeps_State_setTrig (s : State) (k : Nat) (x2 : Trig) {r0 : State} (hr : Keeps r0 s) : Keeps r0 (State.setTrig s k x2) := by
  refine Keeps.trans hr ?_
  clear hr
  unfold State.setTrig
  repeat' first
    | with_reducible apply Keeps.refl
    | intro _
    | with_reducible assumption
    | (fail_if_no_progress extract_lets +onlyGivenNames x
       first | (refine Keeps.hyp x ?_ (fun _ => ?_); subst x; rotate_left; clear_value x; rotate_left) | clear_value x)
    | with_reducible apply keeps_State_wrb
    | fail_if_no_progress (with_reducible apply Keeps.mk')

theorem keeps_trigLoad (s : State) (k : Nat) {r0 : State} (hr : Keeps r0 s) : Keeps r0 (trigLoad s k) := by
  refine Keeps.trans hr ?_
  clear hr
  unfold trigLoad
  repeat' first
    | with_reducible apply Keeps.refl
    | intro _
    | with_reducible assumption
    | (fail_if_no_progress extract_lets +onlyGivenNames x
       first | (refine Keeps.hyp x ?_ (fun _ => ?_); subst x; rotate_left; clear_value x; rotate_left) | clear_value x)
    | with_reducible apply keeps_State_setTrig
    | with_reducible apply keeps_State_count
    | with_reducible apply Keeps.ite

theorem keeps_trigEvent (s : State) (k : Nat) (x2 : Nat) {r0 : State} (hr : Keeps r0 s) : Keeps r0 (trigEvent s k x2) := by
  refine Keeps.trans hr ?_
  clear hr
  unfold trigEvent
  repeat' first
    | with_reducible apply Keeps.refl
    | intro _
    | with_reducible assumption
    | (fail_if_no_progress extract_lets +onlyGivenNames x
       first | (refine Keeps.hyp x ?_ (fun _ => ?_); subst x; rotate_left; clear_value x; rotate_left) | clear_value x)
    | with_reducible apply keeps_State_countMod
    | with_reducible apply keeps_State_capture
    | with_reducible apply keeps_triggerSlices
    | with_reducible apply Keeps.foldl
    | with_reducible apply Keeps.foldlPair
    | with_reducible apply Keeps.ite
    | fail_if_no_progress (with_reducible apply Keeps.mk')

theorem keeps_trigFire (s : State) (k : Nat) {r0 : State} (hr : Keeps r0 s) : Keeps r0 (trigFire s k) := by
  refine Keeps.trans hr ?_
  clear hr
  unfold trigFire
  repeat' first
    | with_reducible apply Keeps.refl
    | intro _
    | with_reducible assumption
    | (fail_if_no_progress extract_lets +onlyGivenNames x
       first | (refine Keeps.hyp x ?_ (fun _ => ?_); subst x; rotate_left; clear_value x; rotate_left) | clear_value x)
    | with_reducible apply keeps_trigEvent
    | with_reducible apply keeps_State_setTrig
    | with_reducible refine Keeps.ofPair (by assumption) ?_
    | with_reducible apply Keeps.ite
    | fail_if_no_progress (with_reducible apply Keeps.mk')
    | split

theorem keeps_trigArm (s : State) (k : Nat) (ns : Nat) {r0 : State} (hr : Keeps r0 s) : Keeps r0 (trigArm s k ns) := by
  refine Keeps.trans hr ?_
  clear hr
  unfold trigArm
  repeat' first
    | with_reducible apply Keeps.refl
    | intro _
    | with_reducible apply keeps_State_setTrig

theorem keeps_epochMark (s : State) (k : Nat) (at_ : Nat) {r0 : State} (hr : Keeps r0 s) : Keeps r0 (epochMark s k at_) := by
  refine Keeps.trans hr ?_
  clear hr
  unfold epochMark
  repeat' first
    | with_reducible apply Keeps.refl
    | intro _
    | with_reducible assumption
    | (fail_if_no_progress extract_lets +onlyGivenNames x
       first | (refine Keeps.hyp x ?_ (fun _ => ?_); subst x; rotate_left; clear_value x; rotate_left) | clear_value x)
    | with_reducible apply keeps_State_pokeBytes
    | with_reducible apply keeps_State_setTrig
    | with_reducible refine Keeps.ofPair (by assumption) ?_
    | with_reducible apply Keeps.ite
    | fail_if_no_progress (with_reducible apply Keeps.mk')
    | split

theorem keeps_trigStep (s : State) (now : Nat) (k : Nat) {r0 : State} (hr : Keeps r0 s) : Keeps r0 (trigStep s now k) := by
  refine Keeps.trans hr ?_
  clear hr
  unfold trigStep
  repeat' first
    | with_reducible apply Keeps.refl
    | intro _
    | with_reducible assumption
    | (fail_if_no_progress extract_lets +onlyGivenNames x
       first | (refine Keeps.hyp x ?_ (fun _ => ?_); subst x; rotate_left; clear_value x; rotate_left) | clear_value x)
    | with_reducible apply keeps_State_count
    | with_reducible apply keeps_State_setTrig
    | with_reducible refine Keeps.ofPair (by assumption) ?_
    | with_reducible apply Keeps.ite
    | fail_if_no_progress (with_reducible apply Keeps.mk')
    | split

theorem keeps_timeStep (s : State) (now : Nat) {r0 : State} (hr : Keeps r0 s) : Keeps r0 (timeStep s now) := by
  refine Keeps.trans hr ?_
  clear hr
  unfold timeStep
  repeat' first
    | with_reducible apply Keeps.refl
    | intro _
    | with_reducible assumption
    | (fail_if_no_progress extract_lets +onlyGivenNames x
       first | (refine Keeps.hyp x ?_ (fun _ => ?_); subst x; rotate_left; clear_value x; rotate_left) | clear_value x)
    | with_reducible apply keeps_State_capture
    | with_reducible apply keeps_State_count
    | with_reducible apply keeps_State_event
    | with_reducible apply keeps_trigStep
    | with_reducible apply Keeps.foldl
    | with_reducible apply Keeps.foldlPair
    | fail_if_no_progress (with_reducible apply Keeps.mk')

end Sys2Proof.Laws
end

