-- ==== Sys2Proof/Laws/KeepAccession.lean ====
section
/-! SUPPORT. `Keeps` of every operation of Machine/Accession.lean. -/

namespace Sys2Proof.Laws

open Sys2Proof.Machine

set_option linter.unusedTactic false
set_option linter.unreachableTactic false
set_option linter.tactic.unusedName false

theorem keeps_accession (s : State) (cls : Nat) (plane : Nat) (noz : Option Nat) (acted : Bool) (r : Option AccRegion) (pg : Option (Nat × Nat)) {r0 : State} (hr : Keeps r0 s) : Keeps r0 (accession s cls plane noz acted r pg) := by
  refine Keeps.trans hr ?_
  clear hr
  unfold accession
  repeat' first
    | with_reducible apply Keeps.refl
    | intro _
    | with_reducible assumption
    | (fail_if_no_progress extract_lets +onlyGivenNames x
       first | (refine Keeps.hyp x ?_ (fun _ => ?_); subst x; rotate_left; clear_value x; rotate_left) | clear_value x)
    | with_reducible apply keeps_State_spend
    | with_reducible apply keeps_State_pokeBytes
    | with_reducible apply keeps_ringPost
    | with_reducible refine Keeps.ofPair (by assumption) ?_
    | with_reducible apply Keeps.ite
    | fail_if_no_progress (with_reducible apply Keeps.mk')
    | split

theorem keeps_accessionPage (s : State) (job : Nat) (page : Nat) (mark : Nat) {r0 : State} (hr : Keeps r0 s) : Keeps r0 (accessionPage s job page mark) := by
  refine Keeps.trans hr ?_
  clear hr
  unfold accessionPage
  repeat' first
    | with_reducible apply Keeps.refl
    | intro _
    | with_reducible assumption
    | (fail_if_no_progress extract_lets +onlyGivenNames x
       first | (refine Keeps.hyp x ?_ (fun _ => ?_); subst x; rotate_left; clear_value x; rotate_left) | clear_value x)
    | with_reducible apply keeps_accession
    | with_reducible refine Keeps.ofPair (by assumption) ?_
    | with_reducible apply Keeps.ite
    | fail_if_no_progress (with_reducible apply Keeps.mk')
    | split

end Sys2Proof.Laws
end

