-- ==== Sys2Proof/Laws/KeepRecal.lean ====
section
/-! SUPPORT. `Keeps` of every operation of Machine/Recal.lean. -/

namespace Sys2Proof.Laws

open Sys2Proof.Machine

set_option linter.unusedTactic false
set_option linter.unreachableTactic false
set_option linter.tactic.unusedName false

theorem keeps_recalDue (s : State) (cls : Nat) (unit : Nat) (reason : Nat) {r0 : State} (hr : Keeps r0 s) : Keeps r0 (recalDue s cls unit reason) := by
  refine Keeps.trans hr ?_
  clear hr
  unfold recalDue
  repeat' first
    | with_reducible apply Keeps.refl
    | intro _
    | with_reducible assumption
    | (fail_if_no_progress extract_lets +onlyGivenNames x
       first | (refine Keeps.hyp x ?_ (fun _ => ?_); subst x; rotate_left; clear_value x; rotate_left) | clear_value x)
    | with_reducible apply Keeps.ite
    | fail_if_no_progress (with_reducible apply Keeps.mk')

theorem keeps_State_setQuality (s : State) (cls : Nat) (i : Nat) (q : Quality) {r0 : State} (hr : Keeps r0 s) : Keeps r0 (State.setQuality s cls i q) := by
  refine Keeps.trans hr ?_
  clear hr
  unfold State.setQuality
  repeat' first
    | with_reducible apply Keeps.refl
    | intro _
    | with_reducible assumption
    | (fail_if_no_progress extract_lets +onlyGivenNames x
       first | (refine Keeps.hyp x ?_ (fun _ => ?_); subst x; rotate_left; clear_value x; rotate_left) | clear_value x)
    | fail_if_no_progress (with_reducible apply Keeps.mk')

theorem keeps_State_noteQuality (s : State) (cls : Nat) (i : Nat) (q : Quality) {r0 : State} (hr : Keeps r0 s) : Keeps r0 (State.noteQuality s cls i q) := by
  refine Keeps.trans hr ?_
  clear hr
  unfold State.noteQuality
  repeat' first
    | with_reducible apply Keeps.refl
    | intro _
    | with_reducible assumption
    | with_reducible refine Keeps.ofPair (by assumption) ?_
    | with_reducible apply Keeps.ite
    | fail_if_no_progress (with_reducible apply Keeps.mk')

theorem keeps_repairAdd (s : State) (kind : Nat) (unit : Nat) {r0 : State} (hr : Keeps r0 s) : Keeps r0 (repairAdd s kind unit) := by
  refine Keeps.trans hr ?_
  clear hr
  unfold repairAdd
  repeat' first
    | with_reducible apply Keeps.refl
    | intro _
    | with_reducible assumption
    | (fail_if_no_progress extract_lets +onlyGivenNames x
       first | (refine Keeps.hyp x ?_ (fun _ => ?_); subst x; rotate_left; clear_value x; rotate_left) | clear_value x)
    | with_reducible apply Keeps.ite
    | fail_if_no_progress (with_reducible apply Keeps.mk')

theorem keeps_repairDrop (s : State) (kind : Nat) (unit : Nat) {r0 : State} (hr : Keeps r0 s) : Keeps r0 (repairDrop s kind unit) := by
  refine Keeps.trans hr ?_
  clear hr
  unfold repairDrop
  repeat' first
    | with_reducible apply Keeps.refl
    | intro _
    | with_reducible assumption
    | (fail_if_no_progress extract_lets +onlyGivenNames x
       first | (refine Keeps.hyp x ?_ (fun _ => ?_); subst x; rotate_left; clear_value x; rotate_left) | clear_value x)
    | fail_if_no_progress (with_reducible apply Keeps.mk')

end Sys2Proof.Laws
end

