-- ==== Sys2Proof/Laws/KeepFeedback.lean ====
section
/-! SUPPORT. `Keeps` of every operation of Machine/Feedback.lean. -/

namespace Sys2Proof.Laws

open Sys2Proof.Machine

set_option linter.unusedTactic false
set_option linter.unreachableTactic false
set_option linter.tactic.unusedName false

theorem keeps_State_setFb (s : State) (i : Nat) (x2 : FbInput) {r0 : State} (hr : Keeps r0 s) : Keeps r0 (State.setFb s i x2) := by
  refine Keeps.trans hr ?_
  clear hr
  unfold State.setFb
  repeat' first
    | with_reducible apply Keeps.refl
    | intro _
    | with_reducible assumption
    | (fail_if_no_progress extract_lets +onlyGivenNames x
       first | (refine Keeps.hyp x ?_ (fun _ => ?_); subst x; rotate_left; clear_value x; rotate_left) | clear_value x)
    | fail_if_no_progress (with_reducible apply Keeps.mk')

theorem keeps_State_setEmu (s : State) (k : Nat) (x2 : Emu) {r0 : State} (hr : Keeps r0 s) : Keeps r0 (State.setEmu s k x2) := by
  refine Keeps.trans hr ?_
  clear hr
  unfold State.setEmu
  repeat' first
    | with_reducible apply Keeps.refl
    | intro _
    | with_reducible assumption
    | (fail_if_no_progress extract_lets +onlyGivenNames x
       first | (refine Keeps.hyp x ?_ (fun _ => ?_); subst x; rotate_left; clear_value x; rotate_left) | clear_value x)
    | fail_if_no_progress (with_reducible apply Keeps.mk')

theorem keeps_fbTake (s : State) (i : Nat) (e : Int) {r0 : State} (hr : Keeps r0 s) : Keeps r0 (fbTake s i e) := by
  refine Keeps.trans hr ?_
  clear hr
  unfold fbTake
  repeat' first
    | with_reducible apply Keeps.refl
    | intro _
    | with_reducible assumption
    | (fail_if_no_progress extract_lets +onlyGivenNames x
       first | (refine Keeps.hyp x ?_ (fun _ => ?_); subst x; rotate_left; clear_value x; rotate_left) | clear_value x)
    | with_reducible apply keeps_State_wri
    | with_reducible apply keeps_State_wr
    | with_reducible apply keeps_State_setFb
    | with_reducible apply keeps_State_wr2i

theorem keeps_encFault (s : State) (i : Nat) (why : Nat) {r0 : State} (hr : Keeps r0 s) : Keeps r0 (encFault s i why) := by
  refine Keeps.trans hr ?_
  clear hr
  unfold encFault
  repeat' first
    | with_reducible apply Keeps.refl
    | intro _
    | with_reducible apply keeps_State_event
    | with_reducible apply keeps_State_wr
    | with_reducible apply Keeps.ite

theorem keeps_quadError (s : State) (i : Nat) {r0 : State} (hr : Keeps r0 s) : Keeps r0 (quadError s i) := by
  refine Keeps.trans hr ?_
  clear hr
  unfold quadError
  repeat' first
    | with_reducible apply Keeps.refl
    | intro _
    | with_reducible assumption
    | (fail_if_no_progress extract_lets +onlyGivenNames x
       first | (refine Keeps.hyp x ?_ (fun _ => ?_); subst x; rotate_left; clear_value x; rotate_left) | clear_value x)
    | with_reducible apply keeps_State_wr
    | with_reducible apply keeps_State_count
    | with_reducible apply keeps_State_setFb
    | with_reducible apply keeps_encFault
    | with_reducible apply Keeps.ite

theorem keeps_quadSample (s : State) (i : Nat) (a : Bool) (b : Bool) {r0 : State} (hr : Keeps r0 s) : Keeps r0 (quadSample s i a b) := by
  refine Keeps.trans hr ?_
  clear hr
  unfold quadSample
  repeat' first
    | with_reducible apply Keeps.refl
    | intro _
    | with_reducible assumption
    | (fail_if_no_progress extract_lets +onlyGivenNames x
       first | (refine Keeps.hyp x ?_ (fun _ => ?_); subst x; rotate_left; clear_value x; rotate_left) | clear_value x)
    | with_reducible apply keeps_State_setFb
    | with_reducible apply keeps_quadError
    | with_reducible apply keeps_fbTake
    | with_reducible apply Keeps.ite

theorem keeps_sinCosFit (s : State) (i : Nat) (amp : Nat) (e : Int) {r0 : State} (hr : Keeps r0 s) : Keeps r0 (sinCosFit s i amp e) := by
  refine Keeps.trans hr ?_
  clear hr
  unfold sinCosFit
  repeat' first
    | with_reducible apply Keeps.refl
    | intro _
    | with_reducible assumption
    | (fail_if_no_progress extract_lets +onlyGivenNames x
       first | (refine Keeps.hyp x ?_ (fun _ => ?_); subst x; rotate_left; clear_value x; rotate_left) | clear_value x)
    | with_reducible apply keeps_State_setFb
    | with_reducible apply keeps_State_spend
    | with_reducible apply keeps_State_setQuality
    | with_reducible apply keeps_recalDue
    | with_reducible refine Keeps.ofPair (by assumption) ?_
    | with_reducible apply Keeps.ite
    | fail_if_no_progress (with_reducible apply Keeps.mk')
    | split

theorem keeps_ampWatch (s : State) (i : Nat) (good : Bool) {r0 : State} (hr : Keeps r0 s) : Keeps r0 (ampWatch s i good) := by
  refine Keeps.trans hr ?_
  clear hr
  unfold ampWatch
  repeat' first
    | with_reducible apply Keeps.refl
    | intro _
    | with_reducible assumption
    | (fail_if_no_progress extract_lets +onlyGivenNames x
       first | (refine Keeps.hyp x ?_ (fun _ => ?_); subst x; rotate_left; clear_value x; rotate_left) | clear_value x)
    | with_reducible apply keeps_State_setFb
    | with_reducible apply keeps_encFault
    | with_reducible apply keeps_State_wr
    | with_reducible refine Keeps.ofPair (by assumption) ?_
    | with_reducible apply Keeps.ite
    | fail_if_no_progress (with_reducible apply Keeps.mk')
    | split

theorem keeps_sinCosSample (s : State) (i : Nat) (sin : Int) (cos : Int) {r0 : State} (hr : Keeps r0 s) : Keeps r0 (sinCosSample s i sin cos) := by
  refine Keeps.trans hr ?_
  clear hr
  unfold sinCosSample
  repeat' first
    | with_reducible apply Keeps.refl
    | intro _
    | with_reducible assumption
    | (fail_if_no_progress extract_lets +onlyGivenNames x
       first | (refine Keeps.hyp x ?_ (fun _ => ?_); subst x; rotate_left; clear_value x; rotate_left) | clear_value x)
    | with_reducible apply keeps_ampWatch
    | with_reducible apply keeps_State_setFb
    | with_reducible apply keeps_fbTake
    | with_reducible apply keeps_sinCosFit
    | with_reducible refine Keeps.ofPair (by assumption) ?_
    | with_reducible apply Keeps.ite
    | fail_if_no_progress (with_reducible apply Keeps.mk')
    | split

theorem keeps_ssiReading (s : State) (i : Nat) (value : Nat) (idle : Bool) {r0 : State} (hr : Keeps r0 s) : Keeps r0 (ssiReading s i value idle) := by
  refine Keeps.trans hr ?_
  clear hr
  unfold ssiReading
  repeat' first
    | with_reducible apply Keeps.refl
    | intro _
    | with_reducible assumption
    | (fail_if_no_progress extract_lets +onlyGivenNames x
       first | (refine Keeps.hyp x ?_ (fun _ => ?_); subst x; rotate_left; clear_value x; rotate_left) | clear_value x)
    | with_reducible apply keeps_State_count
    | with_reducible apply keeps_State_setFb
    | with_reducible apply keeps_encFault
    | with_reducible apply keeps_fbTake
    | with_reducible apply Keeps.ite

theorem keeps_emuUpdate (s : State) (k : Nat) {r0 : State} (hr : Keeps r0 s) : Keeps r0 (emuUpdate s k) := by
  refine Keeps.trans hr ?_
  clear hr
  unfold emuUpdate
  repeat' first
    | with_reducible apply Keeps.refl
    | intro _
    | with_reducible assumption
    | (fail_if_no_progress extract_lets +onlyGivenNames x
       first | (refine Keeps.hyp x ?_ (fun _ => ?_); subst x; rotate_left; clear_value x; rotate_left) | clear_value x)
    | with_reducible apply keeps_State_wr
    | with_reducible apply keeps_State_setEmu
    | with_reducible apply Keeps.ite

theorem keeps_emuFollow (s : State) (i : Nat) {r0 : State} (hr : Keeps r0 s) : Keeps r0 (emuFollow s i) := by
  refine Keeps.trans hr ?_
  clear hr
  unfold emuFollow
  repeat' first
    | with_reducible apply Keeps.refl
    | intro _
    | with_reducible apply keeps_emuUpdate
    | with_reducible apply Keeps.foldl
    | with_reducible apply Keeps.foldlPair
    | with_reducible apply Keeps.ite

theorem keeps_emuDrive (s : State) (k : Nat) (a : Bool) (b : Bool) (z : Bool) {r0 : State} (hr : Keeps r0 s) : Keeps r0 (emuDrive s k a b z) := by
  refine Keeps.trans hr ?_
  clear hr
  unfold emuDrive
  repeat' first
    | with_reducible apply Keeps.refl
    | intro _
    | with_reducible assumption
    | with_reducible apply keeps_State_emit
    | with_reducible apply keeps_emuEdge
    | with_reducible refine Keeps.ofPair (by assumption) ?_
    | with_reducible apply Keeps.ite
    | fail_if_no_progress (with_reducible apply Keeps.mk')
    | split

theorem keeps_emuStart (s : State) (k : Nat) {r0 : State} (hr : Keeps r0 s) : Keeps r0 (emuStart s k) := by
  refine Keeps.trans hr ?_
  clear hr
  unfold emuStart
  repeat' first
    | with_reducible apply Keeps.refl
    | intro _
    | with_reducible assumption
    | (fail_if_no_progress extract_lets +onlyGivenNames x
       first | (refine Keeps.hyp x ?_ (fun _ => ?_); subst x; rotate_left; clear_value x; rotate_left) | clear_value x)
    | with_reducible apply keeps_emuDrive
    | with_reducible apply keeps_State_wr
    | with_reducible apply keeps_State_setEmu

theorem keeps_emuStop (s : State) (k : Nat) {r0 : State} (hr : Keeps r0 s) : Keeps r0 (emuStop s k) := by
  refine Keeps.trans hr ?_
  clear hr
  unfold emuStop
  repeat' first
    | with_reducible apply Keeps.refl
    | intro _
    | with_reducible apply keeps_State_wr

theorem keeps_emuEdge (s : State) (k : Nat) {r0 : State} (hr : Keeps r0 s) : Keeps r0 (emuEdge s k) := by
  refine Keeps.trans hr ?_
  clear hr
  unfold emuEdge
  repeat' first
    | with_reducible apply Keeps.refl
    | intro _
    | with_reducible assumption
    | (fail_if_no_progress extract_lets +onlyGivenNames x
       first | (refine Keeps.hyp x ?_ (fun _ => ?_); subst x; rotate_left; clear_value x; rotate_left) | clear_value x)
    | with_reducible apply keeps_State_setEmu
    | with_reducible apply keeps_State_wr
    | with_reducible apply keeps_emuDrive
    | with_reducible refine Keeps.ofPair (by assumption) ?_
    | with_reducible apply Keeps.ite

end Sys2Proof.Laws
end

