-- ==== Sys2Proof/Laws/KeepRaster.lean ====
section
/-! SUPPORT. `Keeps` of every operation of Machine/Raster.lean. -/

namespace Sys2Proof.Laws

open Sys2Proof.Machine

set_option linter.unusedTactic false
set_option linter.unreachableTactic false
set_option linter.tactic.unusedName false

theorem keeps_markLine (s : State) (g : Nat) (m : Nat) {r0 : State} (hr : Keeps r0 s) : Keeps r0 (markLine s g m) := by
  refine Keeps.trans hr ?_
  clear hr
  unfold markLine
  repeat' first
    | with_reducible apply Keeps.refl
    | intro _
    | with_reducible assumption
    | (fail_if_no_progress extract_lets +onlyGivenNames x
       first | (refine Keeps.hyp x ?_ (fun _ => ?_); subst x; rotate_left; clear_value x; rotate_left) | clear_value x)
    | with_reducible apply Keeps.ite
    | fail_if_no_progress (with_reducible apply Keeps.mk')

theorem keeps_setMapEntry (s : State) (p : Nat) (r : Nat) (c : Nat) (v : Nat) {r0 : State} (hr : Keeps r0 s) : Keeps r0 (setMapEntry s p r c v) := by
  refine Keeps.trans hr ?_
  clear hr
  unfold setMapEntry
  repeat' first
    | with_reducible apply Keeps.refl
    | intro _
    | with_reducible assumption
    | (fail_if_no_progress extract_lets +onlyGivenNames x
       first | (refine Keeps.hyp x ?_ (fun _ => ?_); subst x; rotate_left; clear_value x; rotate_left) | clear_value x)
    | with_reducible apply keeps_State_pokeNat

theorem keeps_setPhaseWord (s : State) (p : Nat) (r : Nat) (on : Bool) (users : Nat) (phase : Nat) {r0 : State} (hr : Keeps r0 s) : Keeps r0 (setPhaseWord s p r on users phase) := by
  refine Keeps.trans hr ?_
  clear hr
  unfold setPhaseWord
  repeat' first
    | with_reducible apply Keeps.refl
    | intro _
    | with_reducible apply keeps_State_pokeNat

theorem keeps_commitChange (s : State) (x : SubstChange) (from_ : Nat) {r0 : State} (hr : Keeps r0 s) : Keeps r0 (commitChange s x from_) := by
  refine Keeps.trans hr ?_
  clear hr
  unfold commitChange
  repeat' first
    | with_reducible apply Keeps.refl
    | intro _
    | with_reducible assumption
    | (fail_if_no_progress extract_lets +onlyGivenNames x
       first | (refine Keeps.hyp x ?_ (fun _ => ?_); subst x; rotate_left; clear_value x; rotate_left) | clear_value x)
    | with_reducible apply keeps_setMapEntry
    | with_reducible apply keeps_setPhaseWord
    | with_reducible refine Keeps.ofPair (by assumption) ?_
    | with_reducible apply Keeps.ite
    | fail_if_no_progress (with_reducible apply Keeps.mk')
    | split

theorem keeps_keepChanges (s : State) (keep : List SubstChange) {r0 : State} (hr : Keeps r0 s) : Keeps r0 (keepChanges s keep) := by
  refine Keeps.trans hr ?_
  clear hr
  unfold keepChanges
  repeat' first
    | with_reducible apply Keeps.refl
    | intro _
    | with_reducible assumption
    | (fail_if_no_progress extract_lets +onlyGivenNames x
       first | (refine Keeps.hyp x ?_ (fun _ => ?_); subst x; rotate_left; clear_value x; rotate_left) | clear_value x)
    | with_reducible apply keeps_State_wr
    | fail_if_no_progress (with_reducible apply Keeps.mk')

theorem keeps_substCommit (s : State) {r0 : State} (hr : Keeps r0 s) : Keeps r0 (substCommit s) := by
  refine Keeps.trans hr ?_
  clear hr
  unfold substCommit
  repeat' first
    | with_reducible apply Keeps.refl
    | intro _
    | with_reducible assumption
    | (fail_if_no_progress extract_lets +onlyGivenNames x
       first | (refine Keeps.hyp x ?_ (fun _ => ?_); subst x; rotate_left; clear_value x; rotate_left) | clear_value x)
    | with_reducible apply keeps_keepChanges
    | with_reducible apply keeps_commitChange
    | with_reducible refine Keeps.ofPair (by assumption) ?_
    | with_reducible apply Keeps.foldl
    | with_reducible apply Keeps.foldlPair
    | with_reducible apply Keeps.ite
    | fail_if_no_progress (with_reducible apply Keeps.mk')

theorem keeps_substCommitAll (s : State) {r0 : State} (hr : Keeps r0 s) : Keeps r0 (substCommitAll s) := by
  refine Keeps.trans hr ?_
  clear hr
  unfold substCommitAll
  repeat' first
    | with_reducible apply Keeps.refl
    | intro _
    | with_reducible assumption
    | (fail_if_no_progress extract_lets +onlyGivenNames x
       first | (refine Keeps.hyp x ?_ (fun _ => ?_); subst x; rotate_left; clear_value x; rotate_left) | clear_value x)
    | with_reducible apply keeps_keepChanges
    | with_reducible apply keeps_commitChange
    | with_reducible refine Keeps.ofPair (by assumption) ?_
    | with_reducible apply Keeps.foldl
    | with_reducible apply Keeps.foldlPair
    | with_reducible apply Keeps.ite
    | fail_if_no_progress (with_reducible apply Keeps.mk')
    | split

theorem keeps_skipGap (s : State) {r0 : State} (hr : Keeps r0 s) : Keeps r0 (skipGap s) := by
  refine Keeps.trans hr ?_
  clear hr
  unfold skipGap
  repeat' first
    | with_reducible apply Keeps.refl
    | intro _
    | with_reducible assumption
    | (fail_if_no_progress extract_lets +onlyGivenNames x
       first | (refine Keeps.hyp x ?_ (fun _ => ?_); subst x; rotate_left; clear_value x; rotate_left) | clear_value x)
    | with_reducible refine Keeps.ofPair (by assumption) ?_
    | fail_if_no_progress (with_reducible apply Keeps.mk')
    | split

theorem keeps_readyPoll (s : State) {r0 : State} (hr : Keeps r0 s) : Keeps r0 (readyPoll s) := by
  refine Keeps.trans hr ?_
  clear hr
  unfold readyPoll
  repeat' first
    | with_reducible apply Keeps.refl
    | intro _
    | with_reducible assumption
    | (fail_if_no_progress extract_lets +onlyGivenNames x
       first | (refine Keeps.hyp x ?_ (fun _ => ?_); subst x; rotate_left; clear_value x; rotate_left) | clear_value x)
    | with_reducible refine Keeps.ofPair (by assumption) ?_
    | with_reducible apply Keeps.ite
    | fail_if_no_progress (with_reducible apply Keeps.mk')
    | split

theorem keeps_State_tally (s : State) (idx : Nat) (key : Nat) (n : Nat) {r0 : State} (hr : Keeps r0 s) : Keeps r0 (State.tally s idx key n) := by
  refine Keeps.trans hr ?_
  clear hr
  unfold State.tally
  repeat' first
    | with_reducible apply Keeps.refl
    | intro _
    | with_reducible assumption
    | (fail_if_no_progress extract_lets +onlyGivenNames x
       first | (refine Keeps.hyp x ?_ (fun _ => ?_); subst x; rotate_left; clear_value x; rotate_left) | clear_value x)
    | with_reducible refine Keeps.ofPair (by assumption) ?_
    | with_reducible apply Keeps.ite
    | fail_if_no_progress (with_reducible apply Keeps.mk')

theorem keeps_tallyLine (s : State) (idx : Nat) (slot : Nat) (plane : Nat) (n : Nat) (to_ : Nat → Nat) (drop : Nat → Nat) {r0 : State} (hr : Keeps r0 s) : Keeps r0 (tallyLine s idx slot plane n to_ drop) := by
  refine Keeps.trans hr ?_
  clear hr
  unfold tallyLine
  repeat' first
    | with_reducible apply Keeps.refl
    | intro _
    | with_reducible assumption
    | with_reducible apply keeps_State_tally
    | with_reducible refine Keeps.ofPair (by assumption) ?_
    | with_reducible apply Keeps.ite
    | fail_if_no_progress (with_reducible apply Keeps.mk')

theorem keeps_countLines (s : State) (idx : Nat) (slots : List Nat) (count : Nat → Nat) {r0 : State} (hr : Keeps r0 s) : Keeps r0 (countLines s idx slots count) := by
  refine Keeps.trans hr ?_
  clear hr
  unfold countLines
  repeat' first
    | with_reducible apply Keeps.refl
    | intro _
    | with_reducible apply keeps_State_ledAdd
    | with_reducible apply Keeps.foldl
    | with_reducible apply Keeps.foldlPair
    | with_reducible apply Keeps.ite

theorem keeps_moveLine (s : State) (idx : Nat) (slot : Nat) (to_ : Nat → Nat) {r0 : State} (hr : Keeps r0 s) : Keeps r0 (moveLine s idx slot to_) := by
  refine Keeps.trans hr ?_
  clear hr
  unfold moveLine
  repeat' first
    | with_reducible apply Keeps.refl
    | intro _
    | with_reducible apply keeps_State_ledMove
    | with_reducible apply Keeps.ite

theorem keeps_moveDrops (s : State) (idx : Nat) (plane : Nat) (n : Nat) (to_ : Nat → Nat) {r0 : State} (hr : Keeps r0 s) : Keeps r0 (moveDrops s idx plane n to_) := by
  refine Keeps.trans hr ?_
  clear hr
  unfold moveDrops
  repeat' first
    | with_reducible apply Keeps.refl
    | intro _
    | with_reducible apply keeps_State_ledMove
    | with_reducible apply Keeps.ite

theorem keeps_countDrops (s : State) (idx : Nat) (plane : Nat) (n : Nat) (count : Nat → Nat) {r0 : State} (hr : Keeps r0 s) : Keeps r0 (countDrops s idx plane n count) := by
  refine Keeps.trans hr ?_
  clear hr
  unfold countDrops
  repeat' first
    | with_reducible apply Keeps.refl
    | intro _
    | with_reducible apply keeps_State_ledAdd
    | with_reducible apply Keeps.ite

theorem keeps_offerLine (s : State) (p : Page) (g : Nat) {r0 : State} (hr : Keeps r0 s) : Keeps r0 (offerLine s p g) := by
  refine Keeps.trans hr ?_
  clear hr
  unfold offerLine
  repeat' first
    | with_reducible apply Keeps.refl
    | intro _
    | with_reducible assumption
    | (fail_if_no_progress extract_lets +onlyGivenNames x
       first | (refine Keeps.hyp x ?_ (fun _ => ?_); subst x; rotate_left; clear_value x; rotate_left) | clear_value x)
    | with_reducible apply keeps_countLines
    | with_reducible apply keeps_State_tally
    | with_reducible refine Keeps.ofPair (by assumption) ?_
    | with_reducible apply Keeps.foldl
    | with_reducible apply Keeps.foldlPair
    | with_reducible apply Keeps.ite
    | fail_if_no_progress (with_reducible apply Keeps.mk')
    | split

theorem keeps_lineAccept (s : State) {r0 : State} (hr : Keeps r0 s) : Keeps r0 (lineAccept s) := by
  refine Keeps.trans hr ?_
  clear hr
  unfold lineAccept
  repeat' first
    | with_reducible apply Keeps.refl
    | intro _
    | with_reducible assumption
    | (fail_if_no_progress extract_lets +onlyGivenNames x
       first | (refine Keeps.hyp x ?_ (fun _ => ?_); subst x; rotate_left; clear_value x; rotate_left) | clear_value x)
    | with_reducible apply keeps_countLines
    | with_reducible apply keeps_State_tally
    | with_reducible apply keeps_State_count
    | with_reducible apply keeps_markLine
    | with_reducible apply keeps_skipGap
    | with_reducible apply keeps_offerLine
    | with_reducible refine Keeps.ofPair (by assumption) ?_
    | with_reducible apply Keeps.foldl
    | with_reducible apply Keeps.foldlPair
    | with_reducible apply Keeps.ite
    | fail_if_no_progress (with_reducible apply Keeps.mk')
    | split

theorem keeps_setFate (s : State) (k : Nat) (g : Nat) (code : Nat) {r0 : State} (hr : Keeps r0 s) : Keeps r0 (setFate s k g code) := by
  refine Keeps.trans hr ?_
  clear hr
  unfold setFate
  repeat' first
    | with_reducible apply Keeps.refl
    | intro _
    | with_reducible assumption
    | (fail_if_no_progress extract_lets +onlyGivenNames x
       first | (refine Keeps.hyp x ?_ (fun _ => ?_); subst x; rotate_left; clear_value x; rotate_left) | clear_value x)
    | with_reducible apply keeps_State_pokeNat

theorem keeps_State_setSlot (s : State) (k : Nat) (x2 : Slot) {r0 : State} (hr : Keeps r0 s) : Keeps r0 (State.setSlot s k x2) := by
  refine Keeps.trans hr ?_
  clear hr
  unfold State.setSlot
  repeat' first
    | with_reducible apply Keeps.refl
    | intro _
    | with_reducible assumption
    | (fail_if_no_progress extract_lets +onlyGivenNames x
       first | (refine Keeps.hyp x ?_ (fun _ => ?_); subst x; rotate_left; clear_value x; rotate_left) | clear_value x)
    | fail_if_no_progress (with_reducible apply Keeps.mk')

theorem keeps_setPart (s : State) (slot : Nat) (q : Part) {r0 : State} (hr : Keeps r0 s) : Keeps r0 (setPart s slot q) := by
  refine Keeps.trans hr ?_
  clear hr
  unfold setPart
  repeat' first
    | with_reducible apply Keeps.refl
    | intro _
    | with_reducible assumption
    | (fail_if_no_progress extract_lets +onlyGivenNames x
       first | (refine Keeps.hyp x ?_ (fun _ => ?_); subst x; rotate_left; clear_value x; rotate_left) | clear_value x)
    | with_reducible apply keeps_State_setSlot

theorem keeps_dropPart (s : State) (slot : Nat) (g : Nat) {r0 : State} (hr : Keeps r0 s) : Keeps r0 (dropPart s slot g) := by
  refine Keeps.trans hr ?_
  clear hr
  unfold dropPart
  repeat' first
    | with_reducible apply Keeps.refl
    | intro _
    | with_reducible assumption
    | (fail_if_no_progress extract_lets +onlyGivenNames x
       first | (refine Keeps.hyp x ?_ (fun _ => ?_); subst x; rotate_left; clear_value x; rotate_left) | clear_value x)
    | with_reducible apply keeps_State_setSlot

theorem keeps_rowTo (s : State) (p : Nat) (i : Nat) (g : Nat) {r0 : State} (hr : Keeps r0 s) : Keeps r0 (rowTo s p i g) := by
  refine Keeps.trans hr ?_
  clear hr
  unfold rowTo
  repeat' first
    | with_reducible apply Keeps.refl
    | intro _
    | with_reducible assumption
    | (fail_if_no_progress extract_lets +onlyGivenNames x
       first | (refine Keeps.hyp x ?_ (fun _ => ?_); subst x; rotate_left; clear_value x; rotate_left) | clear_value x)
    | fail_if_no_progress (with_reducible apply Keeps.mk')

theorem keeps_bandFault (s : State) (pg : Page) (p : Nat) (i : Nat) (g : Nat) (kind : Nat) {r0 : State} (hr : Keeps r0 s) : Keeps r0 (bandFault s pg p i g kind) := by
  refine Keeps.trans hr ?_
  clear hr
  unfold bandFault
  repeat' first
    | with_reducible apply Keeps.refl
    | intro _
    | with_reducible assumption
    | (fail_if_no_progress extract_lets +onlyGivenNames x
       first | (refine Keeps.hyp x ?_ (fun _ => ?_); subst x; rotate_left; clear_value x; rotate_left) | clear_value x)
    | with_reducible apply keeps_State_count
    | with_reducible apply keeps_State_event
    | with_reducible apply Keeps.ite
    | fail_if_no_progress (with_reducible apply Keeps.mk')

theorem keeps_deliverPart (s : State) (slot : Nat) (q : Part) {r0 : State} (hr : Keeps r0 s) : Keeps r0 (deliverPart s slot q) := by
  refine Keeps.trans hr ?_
  clear hr
  unfold deliverPart
  repeat' first
    | with_reducible apply Keeps.refl
    | intro _
    | with_reducible assumption
    | with_reducible apply keeps_setPart
    | with_reducible apply keeps_moveDrops
    | with_reducible refine Keeps.ofPair (by assumption) ?_
    | with_reducible apply Keeps.ite
    | fail_if_no_progress (with_reducible apply Keeps.mk')
    | split

theorem keeps_faultPart (s : State) (slot : Nat) (q : Part) {r0 : State} (hr : Keeps r0 s) : Keeps r0 (faultPart s slot q) := by
  refine Keeps.trans hr ?_
  clear hr
  unfold faultPart
  repeat' first
    | with_reducible apply Keeps.refl
    | intro _
    | with_reducible assumption
    | (fail_if_no_progress extract_lets +onlyGivenNames x
       first | (refine Keeps.hyp x ?_ (fun _ => ?_); subst x; rotate_left; clear_value x; rotate_left) | clear_value x)
    | with_reducible apply keeps_moveLine
    | with_reducible apply keeps_setFate
    | with_reducible apply keeps_dropPart
    | with_reducible apply keeps_setPart
    | with_reducible refine Keeps.ofPair (by assumption) ?_
    | with_reducible apply Keeps.ite
    | fail_if_no_progress (with_reducible apply Keeps.mk')
    | split

theorem keeps_decodeLine (s : State) (p : Nat) (i : Nat) (g : Nat) (pg : Page) {r0 : State} (hr : Keeps r0 s) : Keeps r0 (decodeLine s p i g pg) := by
  refine Keeps.trans hr ?_
  clear hr
  unfold decodeLine
  repeat' first
    | with_reducible apply Keeps.refl
    | intro _
    | with_reducible assumption
    | (fail_if_no_progress extract_lets +onlyGivenNames x
       first | (refine Keeps.hyp x ?_ (fun _ => ?_); subst x; rotate_left; clear_value x; rotate_left) | clear_value x)
    | with_reducible apply keeps_rowTo
    | with_reducible apply keeps_bandFault
    | with_reducible apply keeps_markLine
    | with_reducible apply keeps_faultPart
    | with_reducible apply keeps_moveDrops
    | with_reducible apply keeps_countDrops
    | with_reducible apply keeps_State_tally
    | with_reducible apply keeps_deliverPart
    | with_reducible refine Keeps.ofPair (by assumption) ?_
    | with_reducible apply Keeps.foldl
    | with_reducible apply Keeps.foldlPair
    | with_reducible apply Keeps.ite
    | fail_if_no_progress (with_reducible apply Keeps.mk')
    | split

theorem keeps_lineDecode (s : State) (p : Nat) (i : Nat) {r0 : State} (hr : Keeps r0 s) : Keeps r0 (lineDecode s p i) := by
  refine Keeps.trans hr ?_
  clear hr
  unfold lineDecode
  repeat' first
    | with_reducible apply Keeps.refl
    | intro _
    | with_reducible assumption
    | (fail_if_no_progress extract_lets +onlyGivenNames x
       first | (refine Keeps.hyp x ?_ (fun _ => ?_); subst x; rotate_left; clear_value x; rotate_left) | clear_value x)
    | with_reducible apply keeps_substCommit
    | with_reducible apply keeps_decodeLine
    | with_reducible refine Keeps.ofPair (by assumption) ?_
    | with_reducible apply Keeps.ite
    | fail_if_no_progress (with_reducible apply Keeps.mk')
    | split

theorem keeps_leadUpdate (s : State) {r0 : State} (hr : Keeps r0 s) : Keeps r0 (leadUpdate s) := by
  refine Keeps.trans hr ?_
  clear hr
  unfold leadUpdate
  repeat' first
    | with_reducible apply Keeps.refl
    | intro _
    | with_reducible assumption
    | (fail_if_no_progress extract_lets +onlyGivenNames x
       first | (refine Keeps.hyp x ?_ (fun _ => ?_); subst x; rotate_left; clear_value x; rotate_left) | clear_value x)
    | with_reducible apply keeps_State_wr
    | with_reducible apply keeps_State_event
    | with_reducible refine Keeps.ofPair (by assumption) ?_
    | with_reducible apply Keeps.ite
    | fail_if_no_progress (with_reducible apply Keeps.mk')
    | split

theorem keeps_State_setPipe (s : State) (n : Nat) (x2 : Pipe) {r0 : State} (hr : Keeps r0 s) : Keeps r0 (State.setPipe s n x2) := by
  refine Keeps.trans hr ?_
  clear hr
  unfold State.setPipe
  repeat' first
    | with_reducible apply Keeps.refl
    | intro _
    | with_reducible assumption
    | (fail_if_no_progress extract_lets +onlyGivenNames x
       first | (refine Keeps.hyp x ?_ (fun _ => ?_); subst x; rotate_left; clear_value x; rotate_left) | clear_value x)
    | fail_if_no_progress (with_reducible apply Keeps.mk')

theorem keeps_State_setGroup (s : State) (g : Nat) (x2 : Group) {r0 : State} (hr : Keeps r0 s) : Keeps r0 (State.setGroup s g x2) := by
  refine Keeps.trans hr ?_
  clear hr
  unfold State.setGroup
  repeat' first
    | with_reducible apply Keeps.refl
    | intro _
    | with_reducible assumption
    | (fail_if_no_progress extract_lets +onlyGivenNames x
       first | (refine Keeps.hyp x ?_ (fun _ => ?_); subst x; rotate_left; clear_value x; rotate_left) | clear_value x)
    | fail_if_no_progress (with_reducible apply Keeps.mk')

theorem keeps_rasterRelease (s : State) {r0 : State} (hr : Keeps r0 s) : Keeps r0 (rasterRelease s) := by
  refine Keeps.trans hr ?_
  clear hr
  unfold rasterRelease
  repeat' first
    | with_reducible apply Keeps.refl
    | intro _
    | with_reducible assumption
    | (fail_if_no_progress extract_lets +onlyGivenNames x
       first | (refine Keeps.hyp x ?_ (fun _ => ?_); subst x; rotate_left; clear_value x; rotate_left) | clear_value x)
    | with_reducible apply keeps_State_wr2
    | with_reducible apply keeps_State_event
    | with_reducible refine Keeps.ofPair (by assumption) ?_
    | with_reducible apply Keeps.foldl
    | with_reducible apply Keeps.foldlPair
    | with_reducible apply Keeps.ite
    | fail_if_no_progress (with_reducible apply Keeps.mk')
    | split

theorem keeps_markPost (s : State) (p : Page) {r0 : State} (hr : Keeps r0 s) : Keeps r0 (markPost s p) := by
  refine Keeps.trans hr ?_
  clear hr
  unfold markPost
  repeat' first
    | with_reducible apply Keeps.refl
    | intro _
    | with_reducible assumption
    | (fail_if_no_progress extract_lets +onlyGivenNames x
       first | (refine Keeps.hyp x ?_ (fun _ => ?_); subst x; rotate_left; clear_value x; rotate_left) | clear_value x)
    | with_reducible apply keeps_accessionPage
    | with_reducible apply keeps_State_event
    | with_reducible apply keeps_ringPost
    | with_reducible refine Keeps.ofPair (by assumption) ?_
    | with_reducible apply Keeps.ite
    | fail_if_no_progress (with_reducible apply Keeps.mk')
    | split

theorem keeps_pageFired (s : State) (p : Page) {r0 : State} (hr : Keeps r0 s) : Keeps r0 (pageFired s p) := by
  refine Keeps.trans hr ?_
  clear hr
  unfold pageFired
  repeat' first
    | with_reducible apply Keeps.refl
    | intro _
    | with_reducible assumption
    | (fail_if_no_progress extract_lets +onlyGivenNames x
       first | (refine Keeps.hyp x ?_ (fun _ => ?_); subst x; rotate_left; clear_value x; rotate_left) | clear_value x)
    | with_reducible apply keeps_State_pokeNat
    | with_reducible apply keeps_markPost
    | with_reducible apply keeps_State_wr
    | with_reducible apply Keeps.ite
    | fail_if_no_progress (with_reducible apply Keeps.mk')

theorem keeps_showOrigin (s : State) {r0 : State} (hr : Keeps r0 s) : Keeps r0 (showOrigin s) := by
  refine Keeps.trans hr ?_
  clear hr
  unfold showOrigin
  repeat' first
    | with_reducible apply Keeps.refl
    | intro _
    | with_reducible assumption
    | (fail_if_no_progress extract_lets +onlyGivenNames x
       first | (refine Keeps.hyp x ?_ (fun _ => ?_); subst x; rotate_left; clear_value x; rotate_left) | clear_value x)
    | with_reducible apply keeps_State_wr2i
    | with_reducible refine Keeps.ofPair (by assumption) ?_
    | with_reducible apply Keeps.ite
    | fail_if_no_progress (with_reducible apply Keeps.mk')
    | split

theorem keeps_jobClose (s : State) {r0 : State} (hr : Keeps r0 s) : Keeps r0 (jobClose s) := by
  refine Keeps.trans hr ?_
  clear hr
  unfold jobClose
  repeat' first
    | with_reducible apply Keeps.refl
    | intro _
    | with_reducible assumption
    | (fail_if_no_progress extract_lets +onlyGivenNames x
       first | (refine Keeps.hyp x ?_ (fun _ => ?_); subst x; rotate_left; clear_value x; rotate_left) | clear_value x)
    | with_reducible apply keeps_substCommitAll
    | with_reducible apply keeps_State_wr
    | with_reducible apply keeps_showOrigin
    | with_reducible apply keeps_leadUpdate
    | with_reducible refine Keeps.ofPair (by assumption) ?_
    | with_reducible apply Keeps.foldl
    | with_reducible apply Keeps.foldlPair
    | with_reducible apply Keeps.ite
    | fail_if_no_progress (with_reducible apply Keeps.mk')
    | split

theorem keeps_withholdJob (s : State) (idx : Nat) {r0 : State} (hr : Keeps r0 s) : Keeps r0 (withholdJob s idx) := by
  refine Keeps.trans hr ?_
  clear hr
  unfold withholdJob
  repeat' first
    | with_reducible apply Keeps.refl
    | intro _
    | with_reducible assumption
    | (fail_if_no_progress extract_lets +onlyGivenNames x
       first | (refine Keeps.hyp x ?_ (fun _ => ?_); subst x; rotate_left; clear_value x; rotate_left) | clear_value x)
    | with_reducible apply keeps_setFate
    | with_reducible apply keeps_State_ledMove
    | with_reducible apply keeps_State_setSlot
    | with_reducible apply keeps_moveDrops
    | with_reducible apply keeps_markPost
    | with_reducible apply keeps_State_wr
    | with_reducible refine Keeps.ofPair (by assumption) ?_
    | with_reducible apply Keeps.foldl
    | with_reducible apply Keeps.foldlPair
    | with_reducible apply Keeps.ite
    | fail_if_no_progress (with_reducible apply Keeps.mk')

theorem keeps_retirePages (x0 : Nat) (x1 : State) {r0 : State} (hr : Keeps r0 x1) : Keeps r0 (retirePages x0 x1) := by
  refine Keeps.trans hr ?_
  clear hr
  fun_induction retirePages x0 x1
  repeat' first
    | with_reducible apply Keeps.refl
    | intro _
    | with_reducible assumption
    | (fail_if_no_progress extract_lets +onlyGivenNames x
       first | (refine Keeps.hyp x ?_ (fun _ => ?_); subst x; rotate_left; clear_value x; rotate_left) | clear_value x)
    | with_reducible refine Keeps.trans ?_ (by assumption)
    | with_reducible apply keeps_pageFired
    | with_reducible apply keeps_withholdJob
    | with_reducible apply keeps_jobClose
    | with_reducible refine Keeps.ofPair (by assumption) ?_
    | with_reducible apply Keeps.ite

theorem keeps_State_retirePages (s : State) {r0 : State} (hr : Keeps r0 s) : Keeps r0 (State.retirePages s) := by
  refine Keeps.trans hr ?_
  clear hr
  unfold State.retirePages
  repeat' first
    | with_reducible apply Keeps.refl
    | intro _
    | with_reducible apply keeps_rasterRelease
    | with_reducible apply keeps_retirePages

end Sys2Proof.Laws
end

