-- ==== Sys2Proof/Laws/KeepModes.lean ====
section
/-! SUPPORT. `Keeps` of every operation of Machine/Modes.lean. -/

namespace Sys2Proof.Laws

open Sys2Proof.Machine

set_option linter.unusedTactic false
set_option linter.unreachableTactic false
set_option linter.tactic.unusedName false

theorem keeps_requestMode (s : State) (target : Nat) (cause : Nat) (line : optParam (Option Nat) none) {r0 : State} (hr : Keeps r0 s) : Keeps r0 (requestMode s target cause line) := by
  refine Keeps.trans hr ?_
  clear hr
  unfold requestMode
  repeat' first
    | with_reducible apply Keeps.refl
    | intro _
    | with_reducible assumption
    | (fail_if_no_progress extract_lets +onlyGivenNames x
       first | (refine Keeps.hyp x ?_ (fun _ => ?_); subst x; rotate_left; clear_value x; rotate_left) | clear_value x)
    | with_reducible apply Keeps.ite
    | fail_if_no_progress (with_reducible apply Keeps.mk')

theorem keeps_setStopFrom (s : State) (g : Nat) {r0 : State} (hr : Keeps r0 s) : Keeps r0 (setStopFrom s g) := by
  refine Keeps.trans hr ?_
  clear hr
  unfold setStopFrom
  repeat' first
    | with_reducible apply Keeps.refl
    | intro _
    | with_reducible assumption
    | (fail_if_no_progress extract_lets +onlyGivenNames x
       first | (refine Keeps.hyp x ?_ (fun _ => ?_); subst x; rotate_left; clear_value x; rotate_left) | clear_value x)
    | with_reducible refine Keeps.ofPair (by assumption) ?_
    | fail_if_no_progress (with_reducible apply Keeps.mk')

theorem keeps_requestStop (s : State) (cause : Nat) (g : Nat) {r0 : State} (hr : Keeps r0 s) : Keeps r0 (requestStop s cause g) := by
  refine Keeps.trans hr ?_
  clear hr
  unfold requestStop
  repeat' first
    | with_reducible apply Keeps.refl
    | intro _
    | with_reducible assumption
    | (fail_if_no_progress extract_lets +onlyGivenNames x
       first | (refine Keeps.hyp x ?_ (fun _ => ?_); subst x; rotate_left; clear_value x; rotate_left) | clear_value x)
    | with_reducible apply keeps_setStopFrom
    | with_reducible apply keeps_requestMode
    | with_reducible refine Keeps.ofPair (by assumption) ?_
    | with_reducible apply Keeps.ite
    | fail_if_no_progress (with_reducible apply Keeps.mk')
    | split

end Sys2Proof.Laws
end

