-- ==== Sys2Proof/Laws/KeepMotion.lean ====
section
/-! SUPPORT. `Keeps` of every operation of Machine/Motion.lean. -/

namespace Sys2Proof.Laws

open Sys2Proof.Machine

set_option linter.unusedTactic false
set_option linter.unreachableTactic false
set_option linter.tactic.unusedName false

theorem keeps_State_setAxis (s : State) (n : Nat) (x2 : Axis) {r0 : State} (hr : Keeps r0 s) : Keeps r0 (State.setAxis s n x2) := by
  refine Keeps.trans hr ?_
  clear hr
  unfold State.setAxis
  repeat' first
    | with_reducible apply Keeps.refl
    | intro _
    | with_reducible assumption
    | (fail_if_no_progress extract_lets +onlyGivenNames x
       first | (refine Keeps.hyp x ?_ (fun _ => ?_); subst x; rotate_left; clear_value x; rotate_left) | clear_value x)
    | fail_if_no_progress (with_reducible apply Keeps.mk')

theorem keeps_State_setDrivePort (s : State) (k : Nat) (x2 : DrivePort) {r0 : State} (hr : Keeps r0 s) : Keeps r0 (State.setDrivePort s k x2) := by
  refine Keeps.trans hr ?_
  clear hr
  unfold State.setDrivePort
  repeat' first
    | with_reducible apply Keeps.refl
    | intro _
    | with_reducible assumption
    | (fail_if_no_progress extract_lets +onlyGivenNames x
       first | (refine Keeps.hyp x ?_ (fun _ => ?_); subst x; rotate_left; clear_value x; rotate_left) | clear_value x)
    | fail_if_no_progress (with_reducible apply Keeps.mk')

theorem keeps_State_setSwitch (s : State) (k : Nat) (x2 : Switch) {r0 : State} (hr : Keeps r0 s) : Keeps r0 (State.setSwitch s k x2) := by
  refine Keeps.trans hr ?_
  clear hr
  unfold State.setSwitch
  repeat' first
    | with_reducible apply Keeps.refl
    | intro _
    | with_reducible assumption
    | (fail_if_no_progress extract_lets +onlyGivenNames x
       first | (refine Keeps.hyp x ?_ (fun _ => ?_); subst x; rotate_left; clear_value x; rotate_left) | clear_value x)
    | fail_if_no_progress (with_reducible apply Keeps.mk')

theorem keeps_showAxis (s : State) (n : Nat) {r0 : State} (hr : Keeps r0 s) : Keeps r0 (showAxis s n) := by
  refine Keeps.trans hr ?_
  clear hr
  unfold showAxis
  repeat' first
    | with_reducible apply Keeps.refl
    | intro _
    | with_reducible assumption
    | (fail_if_no_progress extract_lets +onlyGivenNames x
       first | (refine Keeps.hyp x ?_ (fun _ => ?_); subst x; rotate_left; clear_value x; rotate_left) | subst x)
    | with_reducible apply keeps_State_wr2i
    | with_reducible apply keeps_State_wr
    | with_reducible apply keeps_State_wri

theorem keeps_axisFlag (s : State) (n : Nat) (f : Fld) {r0 : State} (hr : Keeps r0 s) : Keeps r0 (axisFlag s n f) := by
  refine Keeps.trans hr ?_
  clear hr
  unfold axisFlag
  repeat' first
    | with_reducible apply Keeps.refl
    | intro _
    | with_reducible apply keeps_State_wr

theorem keeps_homeFail (s : State) (n : Nat) {r0 : State} (hr : Keeps r0 s) : Keeps r0 (homeFail s n) := by
  refine Keeps.trans hr ?_
  clear hr
  unfold homeFail
  repeat' first
    | with_reducible apply Keeps.refl
    | intro _
    | with_reducible assumption
    | (fail_if_no_progress extract_lets +onlyGivenNames x
       first | (refine Keeps.hyp x ?_ (fun _ => ?_); subst x; rotate_left; clear_value x; rotate_left) | clear_value x)
    | with_reducible apply keeps_axisFlag
    | with_reducible apply keeps_State_setAxis
    | with_reducible apply keeps_State_wr
    | with_reducible apply Keeps.ite

theorem keeps_axisStop (s : State) (n : Nat) (hard : Bool := false) {r0 : State} (hr : Keeps r0 s) : Keeps r0 (axisStop s n hard) := by
  refine Keeps.trans hr ?_
  clear hr
  unfold axisStop
  repeat' first
    | with_reducible apply Keeps.refl
    | intro _
    | with_reducible assumption
    | (fail_if_no_progress extract_lets +onlyGivenNames x
       first | (refine Keeps.hyp x ?_ (fun _ => ?_); subst x; rotate_left; clear_value x; rotate_left) | clear_value x)
    | with_reducible apply keeps_homeFail
    | with_reducible apply keeps_showAxis
    | with_reducible apply keeps_State_setAxis
    | with_reducible refine Keeps.ofPair (by assumption) ?_
    | with_reducible apply Keeps.ite
    | fail_if_no_progress (with_reducible apply Keeps.mk')
    | split

theorem keeps_axisMove (s : State) (n : Nat) (target : Int) (peak : Nat) {r0 : State} (hr : Keeps r0 s) : Keeps r0 (axisMove s n target peak) := by
  refine Keeps.trans hr ?_
  clear hr
  unfold axisMove
  repeat' first
    | with_reducible apply Keeps.refl
    | intro _
    | with_reducible assumption
    | with_reducible apply keeps_showAxis
    | with_reducible apply keeps_State_setAxis
    | with_reducible refine Keeps.ofPair (by assumption) ?_
    | with_reducible apply Keeps.ite
    | fail_if_no_progress (with_reducible apply Keeps.mk')

theorem keeps_axisRun (s : State) (n : Nat) (v : Int) {r0 : State} (hr : Keeps r0 s) : Keeps r0 (axisRun s n v) := by
  refine Keeps.trans hr ?_
  clear hr
  unfold axisRun
  repeat' first
    | with_reducible apply Keeps.refl
    | intro _
    | with_reducible assumption
    | with_reducible apply keeps_showAxis
    | with_reducible apply keeps_State_setAxis
    | with_reducible refine Keeps.ofPair (by assumption) ?_
    | with_reducible apply Keeps.ite
    | fail_if_no_progress (with_reducible apply Keeps.mk')

theorem keeps_homeTo (s : State) (n : Nat) (step : Nat) (part : Nat) (g : Goal) {r0 : State} (hr : Keeps r0 s) : Keeps r0 (homeTo s n step part g) := by
  refine Keeps.trans hr ?_
  clear hr
  unfold homeTo
  repeat' first
    | with_reducible apply Keeps.refl
    | intro _
    | with_reducible assumption
    | (fail_if_no_progress extract_lets +onlyGivenNames x
       first | (refine Keeps.hyp x ?_ (fun _ => ?_); subst x; rotate_left; clear_value x; rotate_left) | clear_value x)
    | with_reducible apply keeps_showAxis
    | with_reducible apply keeps_State_wr
    | with_reducible apply keeps_State_setAxis
    | with_reducible refine Keeps.ofPair (by assumption) ?_
    | with_reducible apply Keeps.ite
    | fail_if_no_progress (with_reducible apply Keeps.mk')
    | split

theorem keeps_homeBackOff (s : State) (n : Nat) {r0 : State} (hr : Keeps r0 s) : Keeps r0 (homeBackOff s n) := by
  refine Keeps.trans hr ?_
  clear hr
  unfold homeBackOff
  repeat' first
    | with_reducible apply Keeps.refl
    | intro _
    | with_reducible apply keeps_homeTo
    | with_reducible apply Keeps.ite

theorem keeps_homeStart (s : State) (n : Nat) {r0 : State} (hr : Keeps r0 s) : Keeps r0 (homeStart s n) := by
  refine Keeps.trans hr ?_
  clear hr
  unfold homeStart
  repeat' first
    | with_reducible apply Keeps.refl
    | intro _
    | with_reducible apply keeps_homeBackOff
    | with_reducible apply keeps_homeTo
    | with_reducible apply Keeps.ite

theorem keeps_homeDone (s : State) (n : Nat) {r0 : State} (hr : Keeps r0 s) : Keeps r0 (homeDone s n) := by
  refine Keeps.trans hr ?_
  clear hr
  unfold homeDone
  repeat' first
    | with_reducible apply Keeps.refl
    | intro _
    | with_reducible assumption
    | (fail_if_no_progress extract_lets +onlyGivenNames x
       first | (refine Keeps.hyp x ?_ (fun _ => ?_); subst x; rotate_left; clear_value x; rotate_left) | clear_value x)
    | with_reducible apply keeps_State_setAxis
    | with_reducible apply keeps_showAxis
    | with_reducible apply keeps_State_wr
    | with_reducible refine Keeps.ofPair (by assumption) ?_
    | with_reducible apply Keeps.ite
    | fail_if_no_progress (with_reducible apply Keeps.mk')

theorem keeps_homeRest (s : State) (n : Nat) {r0 : State} (hr : Keeps r0 s) : Keeps r0 (homeRest s n) := by
  refine Keeps.trans hr ?_
  clear hr
  unfold homeRest
  repeat' first
    | with_reducible apply Keeps.refl
    | intro _
    | with_reducible assumption
    | (fail_if_no_progress extract_lets +onlyGivenNames x
       first | (refine Keeps.hyp x ?_ (fun _ => ?_); subst x; rotate_left; clear_value x; rotate_left) | clear_value x)
    | with_reducible apply keeps_homeBackOff
    | with_reducible apply keeps_homeTo
    | with_reducible apply keeps_homeDone
    | with_reducible apply keeps_State_wr
    | with_reducible refine Keeps.ofPair (by assumption) ?_
    | fail_if_no_progress (with_reducible apply Keeps.mk')
    | split

theorem keeps_homeSwitch (s : State) (n : Nat) (active : Bool) (pos : Int) {r0 : State} (hr : Keeps r0 s) : Keeps r0 (homeSwitch s n active pos) := by
  refine Keeps.trans hr ?_
  clear hr
  unfold homeSwitch
  repeat' first
    | with_reducible apply Keeps.refl
    | intro _
    | with_reducible assumption
    | (fail_if_no_progress extract_lets +onlyGivenNames x
       first | (refine Keeps.hyp x ?_ (fun _ => ?_); subst x; rotate_left; clear_value x; rotate_left) | clear_value x)
    | with_reducible apply keeps_homeTo
    | with_reducible apply keeps_homeBackOff
    | with_reducible apply keeps_State_wr2i
    | with_reducible apply keeps_State_setSwitch
    | with_reducible refine Keeps.ofPair (by assumption) ?_
    | fail_if_no_progress (with_reducible apply Keeps.mk')
    | split

theorem keeps_limitSwitch (s : State) (n : Nat) (d : Int) {r0 : State} (hr : Keeps r0 s) : Keeps r0 (limitSwitch s n d) := by
  refine Keeps.trans hr ?_
  clear hr
  unfold limitSwitch
  repeat' first
    | with_reducible apply Keeps.refl
    | intro _
    | with_reducible assumption
    | (fail_if_no_progress extract_lets +onlyGivenNames x
       first | (refine Keeps.hyp x ?_ (fun _ => ?_); subst x; rotate_left; clear_value x; rotate_left) | clear_value x)
    | with_reducible apply keeps_homeTo
    | with_reducible apply keeps_axisStop
    | with_reducible apply keeps_State_wr
    | with_reducible apply keeps_axisFlag
    | with_reducible apply Keeps.ite

theorem keeps_switchQualify (s : State) (k : Nat) (level : Bool) (t0 : Nat) {r0 : State} (hr : Keeps r0 s) : Keeps r0 (switchQualify s k level t0) := by
  refine Keeps.trans hr ?_
  clear hr
  unfold switchQualify
  repeat' first
    | with_reducible apply Keeps.refl
    | intro _
    | with_reducible assumption
    | (fail_if_no_progress extract_lets +onlyGivenNames x
       first | (refine Keeps.hyp x ?_ (fun _ => ?_); subst x; rotate_left; clear_value x; rotate_left) | clear_value x)
    | with_reducible apply keeps_State_setSwitch
    | with_reducible apply keeps_State_capture
    | with_reducible apply keeps_homeSwitch
    | with_reducible apply keeps_limitSwitch
    | with_reducible refine Keeps.ofPair (by assumption) ?_
    | with_reducible apply Keeps.foldl
    | with_reducible apply Keeps.foldlPair
    | with_reducible apply Keeps.ite
    | fail_if_no_progress (with_reducible apply Keeps.mk')
    | split

theorem keeps_commandDo (s : State) (n : Nat) (op : Nat) {r0 : State} (hr : Keeps r0 s) : Keeps r0 (commandDo s n op) := by
  refine Keeps.trans hr ?_
  clear hr
  unfold commandDo
  repeat' first
    | with_reducible apply Keeps.refl
    | intro _
    | with_reducible assumption
    | (fail_if_no_progress extract_lets +onlyGivenNames x
       first | (refine Keeps.hyp x ?_ (fun _ => ?_); subst x; rotate_left; clear_value x; rotate_left) | clear_value x)
    | with_reducible apply keeps_axisMove
    | with_reducible apply keeps_homeFail
    | with_reducible apply keeps_axisRun
    | with_reducible apply keeps_State_setAxis
    | with_reducible apply keeps_axisStop
    | with_reducible apply keeps_homeStart
    | with_reducible apply keeps_showAxis
    | with_reducible refine Keeps.ofPair (by assumption) ?_
    | with_reducible apply Keeps.ite
    | fail_if_no_progress (with_reducible apply Keeps.mk')
    | split

theorem keeps_motCommand (s : State) (op : Nat) {r0 : State} (hr : Keeps r0 s) : Keeps r0 (motCommand s op) := by
  refine Keeps.trans hr ?_
  clear hr
  unfold motCommand
  repeat' first
    | with_reducible apply Keeps.refl
    | intro _
    | with_reducible assumption
    | (fail_if_no_progress extract_lets +onlyGivenNames x
       first | (refine Keeps.hyp x ?_ (fun _ => ?_); subst x; rotate_left; clear_value x; rotate_left) | clear_value x)
    | with_reducible apply keeps_commandDo
    | with_reducible apply Keeps.ite

theorem keeps_takeLimits (s : State) (n : Nat) (dt : Nat) {r0 : State} (hr : Keeps r0 s) : Keeps r0 (takeLimits s n dt) := by
  refine Keeps.trans hr ?_
  clear hr
  unfold takeLimits
  repeat' first
    | with_reducible apply Keeps.refl
    | intro _
    | with_reducible assumption
    | (fail_if_no_progress extract_lets +onlyGivenNames x
       first | (refine Keeps.hyp x ?_ (fun _ => ?_); subst x; rotate_left; clear_value x; rotate_left) | clear_value x)
    | with_reducible apply keeps_State_setAxis
    | with_reducible apply keeps_State_wr
    | with_reducible refine Keeps.ofPair (by assumption) ?_
    | with_reducible apply Keeps.ite
    | fail_if_no_progress (with_reducible apply Keeps.mk')
    | split

theorem keeps_lastStep (s : State) (n : Nat) (dt : Nat) (p : Int) (d : Int) (m : Nat) (i : Nat) {r0 : State} (hr : Keeps r0 s) : Keeps r0 (lastStep s n dt p d m i) := by
  refine Keeps.trans hr ?_
  clear hr
  unfold lastStep
  repeat' first
    | with_reducible apply Keeps.refl
    | intro _
    | with_reducible assumption
    | (fail_if_no_progress extract_lets +onlyGivenNames x
       first | (refine Keeps.hyp x ?_ (fun _ => ?_); subst x; rotate_left; clear_value x; rotate_left) | clear_value x)
    | with_reducible apply keeps_State_setAxis
    | with_reducible refine Keeps.ofPair (by assumption) ?_
    | with_reducible apply Keeps.ite
    | fail_if_no_progress (with_reducible apply Keeps.mk')
    | split

theorem keeps_targetStep (s : State) (n : Nat) (dt : Nat) (t : Int) (peak : Nat) {r0 : State} (hr : Keeps r0 s) : Keeps r0 (targetStep s n dt t peak) := by
  refine Keeps.trans hr ?_
  clear hr
  unfold targetStep
  repeat' first
    | with_reducible apply Keeps.refl
    | intro _
    | with_reducible assumption
    | (fail_if_no_progress extract_lets +onlyGivenNames x
       first | (refine Keeps.hyp x ?_ (fun _ => ?_); subst x; rotate_left; clear_value x; rotate_left) | clear_value x)
    | with_reducible apply keeps_lastStep
    | with_reducible apply keeps_State_setAxis
    | with_reducible apply keeps_State_wr
    | with_reducible refine Keeps.ofPair (by assumption) ?_
    | with_reducible apply Keeps.ite
    | fail_if_no_progress (with_reducible apply Keeps.mk')
    | split

theorem keeps_axisPeriod (s : State) (n : Nat) (dt : Nat) {r0 : State} (hr : Keeps r0 s) : Keeps r0 (axisPeriod s n dt) := by
  refine Keeps.trans hr ?_
  clear hr
  unfold axisPeriod
  repeat' first
    | with_reducible apply Keeps.refl
    | intro _
    | with_reducible assumption
    | (fail_if_no_progress extract_lets +onlyGivenNames x
       first | (refine Keeps.hyp x ?_ (fun _ => ?_); subst x; rotate_left; clear_value x; rotate_left) | clear_value x)
    | with_reducible apply keeps_takeLimits
    | with_reducible apply keeps_showAxis
    | with_reducible apply keeps_State_wr
    | with_reducible apply keeps_State_setAxis
    | with_reducible apply keeps_targetStep
    | with_reducible apply keeps_homeRest
    | with_reducible refine Keeps.ofPair (by assumption) ?_
    | with_reducible apply Keeps.ite
    | fail_if_no_progress (with_reducible apply Keeps.mk')
    | split

theorem keeps_parkAxis (s : State) (n : Nat) {r0 : State} (hr : Keeps r0 s) : Keeps r0 (parkAxis s n) := by
  refine Keeps.trans hr ?_
  clear hr
  unfold parkAxis
  repeat' first
    | with_reducible apply Keeps.refl
    | intro _
    | with_reducible assumption
    | (fail_if_no_progress extract_lets +onlyGivenNames x
       first | (refine Keeps.hyp x ?_ (fun _ => ?_); subst x; rotate_left; clear_value x; rotate_left) | clear_value x)
    | with_reducible apply keeps_axisMove
    | with_reducible apply keeps_State_setAxis
    | with_reducible apply keeps_showAxis
    | with_reducible refine Keeps.ofPair (by assumption) ?_
    | with_reducible apply Keeps.ite
    | fail_if_no_progress (with_reducible apply Keeps.mk')
    | split

theorem keeps_parkRole (s : State) (role : Nat) {r0 : State} (hr : Keeps r0 s) : Keeps r0 (parkRole s role) := by
  refine Keeps.trans hr ?_
  clear hr
  unfold parkRole
  repeat' first
    | with_reducible apply Keeps.refl
    | intro _
    | with_reducible apply keeps_parkAxis
    | with_reducible apply Keeps.foldl

theorem keeps_capStart (s : State) {r0 : State} (hr : Keeps r0 s) : Keeps r0 (capStart s) := by
  refine Keeps.trans hr ?_
  clear hr
  unfold capStart
  repeat' first
    | with_reducible apply Keeps.refl
    | intro _
    | with_reducible assumption
    | (fail_if_no_progress extract_lets +onlyGivenNames x
       first | (refine Keeps.hyp x ?_ (fun _ => ?_); subst x; rotate_left; clear_value x; rotate_left) | clear_value x)
    | with_reducible apply keeps_State_setAxis
    | with_reducible apply keeps_parkRole
    | with_reducible apply Keeps.foldl
    | with_reducible apply Keeps.foldlPair
    | fail_if_no_progress (with_reducible apply Keeps.mk')

theorem keeps_capAdvance (s : State) {r0 : State} (hr : Keeps r0 s) : Keeps r0 (capAdvance s) := by
  refine Keeps.trans hr ?_
  clear hr
  unfold capAdvance
  repeat' first
    | with_reducible apply Keeps.refl
    | intro _
    | with_reducible assumption
    | (fail_if_no_progress extract_lets +onlyGivenNames x
       first | (refine Keeps.hyp x ?_ (fun _ => ?_); subst x; rotate_left; clear_value x; rotate_left) | clear_value x)
    | with_reducible apply keeps_parkRole
    | with_reducible apply Keeps.ite
    | fail_if_no_progress (with_reducible apply Keeps.mk')

theorem keeps_parkGo (s : State) (n : Nat) {r0 : State} (hr : Keeps r0 s) : Keeps r0 (parkGo s n) := by
  refine Keeps.trans hr ?_
  clear hr
  unfold parkGo
  repeat' first
    | with_reducible apply Keeps.refl
    | intro _
    | with_reducible assumption
    | (fail_if_no_progress extract_lets +onlyGivenNames x
       first | (refine Keeps.hyp x ?_ (fun _ => ?_); subst x; rotate_left; clear_value x; rotate_left) | clear_value x)
    | with_reducible apply keeps_parkAxis
    | with_reducible apply keeps_showAxis
    | with_reducible apply keeps_State_setAxis
    | with_reducible refine Keeps.ofPair (by assumption) ?_
    | with_reducible apply Keeps.ite
    | fail_if_no_progress (with_reducible apply Keeps.mk')
    | split

theorem keeps_loopSend (s : State) (port : Nat) {r0 : State} (hr : Keeps r0 s) : Keeps r0 (loopSend s port) := by
  refine Keeps.trans hr ?_
  clear hr
  unfold loopSend
  repeat' first
    | with_reducible apply Keeps.refl
    | intro _
    | with_reducible assumption
    | with_reducible apply keeps_State_emit
    | with_reducible apply keeps_State_spend
    | with_reducible refine Keeps.ofPair (by assumption) ?_
    | with_reducible apply Keeps.ite
    | fail_if_no_progress (with_reducible apply Keeps.mk')
    | split

theorem keeps_driveLinkUp (s : State) (port : Nat) {r0 : State} (hr : Keeps r0 s) : Keeps r0 (driveLinkUp s port) := by
  refine Keeps.trans hr ?_
  clear hr
  unfold driveLinkUp
  repeat' first
    | with_reducible apply Keeps.refl
    | intro _
    | with_reducible assumption
    | (fail_if_no_progress extract_lets +onlyGivenNames x
       first | (refine Keeps.hyp x ?_ (fun _ => ?_); subst x; rotate_left; clear_value x; rotate_left) | clear_value x)
    | with_reducible apply keeps_State_wr
    | with_reducible apply keeps_State_setDrivePort
    | with_reducible apply keeps_axisStop
    | with_reducible apply keeps_showAxis
    | with_reducible apply keeps_State_setAxis
    | with_reducible apply keeps_loopSend
    | with_reducible refine Keeps.ofPair (by assumption) ?_
    | with_reducible apply Keeps.foldl
    | with_reducible apply Keeps.foldlPair
    | with_reducible apply Keeps.ite
    | fail_if_no_progress (with_reducible apply Keeps.mk')
    | split

theorem keeps_driveFault (s : State) (n : Nat) (code : Nat) (why : Nat) {r0 : State} (hr : Keeps r0 s) : Keeps r0 (driveFault s n code why) := by
  refine Keeps.trans hr ?_
  clear hr
  unfold driveFault
  repeat' first
    | with_reducible apply Keeps.refl
    | intro _
    | with_reducible assumption
    | (fail_if_no_progress extract_lets +onlyGivenNames x
       first | (refine Keeps.hyp x ?_ (fun _ => ?_); subst x; rotate_left; clear_value x; rotate_left) | clear_value x)
    | with_reducible apply keeps_State_setAxis
    | with_reducible apply keeps_axisFlag
    | with_reducible apply keeps_State_event
    | with_reducible apply keeps_axisStop
    | with_reducible refine Keeps.ofPair (by assumption) ?_
    | with_reducible apply Keeps.ite
    | fail_if_no_progress (with_reducible apply Keeps.mk')
    | split

theorem keeps_freshMissed (s : State) (n : Nat) {r0 : State} (hr : Keeps r0 s) : Keeps r0 (freshMissed s n) := by
  refine Keeps.trans hr ?_
  clear hr
  unfold freshMissed
  repeat' first
    | with_reducible apply Keeps.refl
    | intro _
    | with_reducible assumption
    | (fail_if_no_progress extract_lets +onlyGivenNames x
       first | (refine Keeps.hyp x ?_ (fun _ => ?_); subst x; rotate_left; clear_value x; rotate_left) | clear_value x)
    | with_reducible apply keeps_State_setAxis
    | with_reducible apply keeps_driveFault
    | with_reducible apply Keeps.ite

theorem keeps_driveReturn (s : State) (port : Nat) (drive : Nat) (slot : List Byte) {r0 : State} (hr : Keeps r0 s) : Keeps r0 (driveReturn s port drive slot) := by
  refine Keeps.trans hr ?_
  clear hr
  unfold driveReturn
  repeat' first
    | with_reducible apply Keeps.refl
    | intro _
    | with_reducible assumption
    | (fail_if_no_progress extract_lets +onlyGivenNames x
       first | (refine Keeps.hyp x ?_ (fun _ => ?_); subst x; rotate_left; clear_value x; rotate_left) | clear_value x)
    | with_reducible apply keeps_State_setDrivePort
    | with_reducible apply keeps_State_wr
    | with_reducible apply keeps_State_setAxis
    | with_reducible apply keeps_freshMissed
    | with_reducible apply keeps_driveFault
    | with_reducible refine Keeps.ofPair (by assumption) ?_
    | with_reducible apply Keeps.ite
    | fail_if_no_progress (with_reducible apply Keeps.mk')
    | split

theorem keeps_driveFrameBack (s : State) (port : Nat) (chars : List Byte) {r0 : State} (hr : Keeps r0 s) : Keeps r0 (driveFrameBack s port chars) := by
  refine Keeps.trans hr ?_
  clear hr
  unfold driveFrameBack
  repeat' first
    | with_reducible apply Keeps.refl
    | intro _
    | with_reducible assumption
    | (fail_if_no_progress extract_lets +onlyGivenNames x
       first | (refine Keeps.hyp x ?_ (fun _ => ?_); subst x; rotate_left; clear_value x; rotate_left) | clear_value x)
    | with_reducible apply keeps_State_count
    | with_reducible apply keeps_State_wr
    | with_reducible apply keeps_State_setDrivePort
    | with_reducible apply keeps_driveReturn
    | with_reducible apply Keeps.foldl
    | with_reducible apply Keeps.foldlPair
    | with_reducible apply Keeps.ite

theorem keeps_driveLost (s : State) (port : Nat) {r0 : State} (hr : Keeps r0 s) : Keeps r0 (driveLost s port) := by
  refine Keeps.trans hr ?_
  clear hr
  unfold driveLost
  repeat' first
    | with_reducible apply Keeps.refl
    | intro _
    | with_reducible assumption
    | (fail_if_no_progress extract_lets +onlyGivenNames x
       first | (refine Keeps.hyp x ?_ (fun _ => ?_); subst x; rotate_left; clear_value x; rotate_left) | clear_value x)
    | with_reducible apply keeps_State_setDrivePort
    | with_reducible apply keeps_freshMissed
    | with_reducible apply keeps_driveLinkUp
    | with_reducible apply Keeps.foldl
    | with_reducible apply Keeps.foldlPair
    | with_reducible apply Keeps.ite

end Sys2Proof.Laws
end

