-- ==== Sys2Proof/Laws/KeepLanes.lean ====
section
/-! SUPPORT. `Keeps` of every operation of Machine/Lanes.lean. -/

namespace Sys2Proof.Laws

open Sys2Proof.Machine

set_option linter.unusedTactic false
set_option linter.unreachableTactic false
set_option linter.tactic.unusedName false

theorem keeps_State_setLane (s : State) (n : Nat) (x2 : Lane) {r0 : State} (hr : Keeps r0 s) : Keeps r0 (State.setLane s n x2) := by
  refine Keeps.trans hr ?_
  clear hr
  unfold State.setLane
  repeat' first
    | with_reducible apply Keeps.refl
    | intro _
    | with_reducible assumption
    | (fail_if_no_progress extract_lets +onlyGivenNames x
       first | (refine Keeps.hyp x ?_ (fun _ => ?_); subst x; rotate_left; clear_value x; rotate_left) | clear_value x)
    | fail_if_no_progress (with_reducible apply Keeps.mk')

theorem keeps_showLanes (s : State) {r0 : State} (hr : Keeps r0 s) : Keeps r0 (showLanes s) := by
  refine Keeps.trans hr ?_
  clear hr
  unfold showLanes
  repeat' first
    | with_reducible apply Keeps.refl
    | intro _
    | with_reducible assumption
    | (fail_if_no_progress extract_lets +onlyGivenNames x
       first | (refine Keeps.hyp x ?_ (fun _ => ?_); subst x; rotate_left; clear_value x; rotate_left) | subst x)
    | with_reducible apply keeps_State_wr

theorem keeps_setLstate (s : State) (n : Nat) (c : Nat) {r0 : State} (hr : Keeps r0 s) : Keeps r0 (setLstate s n c) := by
  refine Keeps.trans hr ?_
  clear hr
  unfold setLstate
  repeat' first
    | with_reducible apply Keeps.refl
    | intro _
    | with_reducible apply keeps_showLanes
    | with_reducible apply keeps_State_wr

theorem keeps_showLinks (s : State) (l : Nat) {r0 : State} (hr : Keeps r0 s) : Keeps r0 (showLinks s l) := by
  refine Keeps.trans hr ?_
  clear hr
  unfold showLinks
  repeat' first
    | with_reducible apply Keeps.refl
    | intro _
    | with_reducible assumption
    | (fail_if_no_progress extract_lets +onlyGivenNames x
       first | (refine Keeps.hyp x ?_ (fun _ => ?_); subst x; rotate_left; clear_value x; rotate_left) | clear_value x)
    | with_reducible apply keeps_gpInt
    | with_reducible apply keeps_State_wr
    | with_reducible apply Keeps.foldl
    | with_reducible apply Keeps.foldlPair
    | with_reducible apply Keeps.ite

theorem keeps_prbsWrite (s : State) (n : Nat) (chk : Bool) {r0 : State} (hr : Keeps r0 s) : Keeps r0 (prbsWrite s n chk) := by
  refine Keeps.trans hr ?_
  clear hr
  unfold prbsWrite
  repeat' first
    | with_reducible apply Keeps.refl
    | intro _
    | with_reducible assumption
    | (fail_if_no_progress extract_lets +onlyGivenNames x
       first | (refine Keeps.hyp x ?_ (fun _ => ?_); subst x; rotate_left; clear_value x; rotate_left) | clear_value x)
    | with_reducible apply keeps_State_wr2
    | with_reducible apply keeps_State_wr
    | with_reducible apply keeps_State_setLane
    | with_reducible apply Keeps.ite

theorem keeps_prbsStop (s : State) (n : Nat) {r0 : State} (hr : Keeps r0 s) : Keeps r0 (prbsStop s n) := by
  refine Keeps.trans hr ?_
  clear hr
  unfold prbsStop
  repeat' first
    | with_reducible apply Keeps.refl
    | intro _
    | with_reducible assumption
    | with_reducible apply keeps_prbsWrite
    | with_reducible apply keeps_State_wr
    | with_reducible refine Keeps.ofPair (by assumption) ?_
    | with_reducible apply Keeps.ite
    | fail_if_no_progress (with_reducible apply Keeps.mk')

theorem keeps_laneClear (s : State) (n : Nat) {r0 : State} (hr : Keeps r0 s) : Keeps r0 (laneClear s n) := by
  refine Keeps.trans hr ?_
  clear hr
  unfold laneClear
  repeat' first
    | with_reducible apply Keeps.refl
    | intro _
    | with_reducible assumption
    | with_reducible apply keeps_prbsStop
    | with_reducible apply keeps_State_wr
    | with_reducible refine Keeps.ofPair (by assumption) ?_
    | with_reducible apply Keeps.ite
    | fail_if_no_progress (with_reducible apply Keeps.mk')

theorem keeps_laneSpare (s : State) (n : Nat) {r0 : State} (hr : Keeps r0 s) : Keeps r0 (laneSpare s n) := by
  refine Keeps.trans hr ?_
  clear hr
  unfold laneSpare
  repeat' first
    | with_reducible apply Keeps.refl
    | intro _
    | with_reducible assumption
    | (fail_if_no_progress extract_lets +onlyGivenNames x
       first | (refine Keeps.hyp x ?_ (fun _ => ?_); subst x; rotate_left; clear_value x; rotate_left) | clear_value x)
    | with_reducible apply keeps_prbsWrite
    | with_reducible apply keeps_State_wr
    | with_reducible apply keeps_setLstate
    | with_reducible refine Keeps.ofPair (by assumption) ?_
    | with_reducible apply Keeps.ite
    | fail_if_no_progress (with_reducible apply Keeps.mk')

theorem keeps_shiftAll (s : State) (word : Nat → Nat) {r0 : State} (hr : Keeps r0 s) : Keeps r0 (shiftAll s word) := by
  refine Keeps.trans hr ?_
  clear hr
  unfold shiftAll
  repeat' first
    | with_reducible apply Keeps.refl
    | intro _
    | with_reducible assumption
    | with_reducible apply keeps_State_emit
    | with_reducible refine Keeps.ofPair (by assumption) ?_
    | with_reducible apply Keeps.foldl
    | with_reducible apply Keeps.foldlPair
    | with_reducible apply Keeps.ite
    | fail_if_no_progress (with_reducible apply Keeps.mk')

theorem keeps_shiftWords (s : State) (g : Nat) (w : Nat) {r0 : State} (hr : Keeps r0 s) : Keeps r0 (shiftWords s g w) := by
  refine Keeps.trans hr ?_
  clear hr
  unfold shiftWords
  repeat' first
    | with_reducible apply Keeps.refl
    | intro _
    | with_reducible assumption
    | with_reducible apply keeps_shiftAll
    | with_reducible refine Keeps.ofPair (by assumption) ?_
    | with_reducible apply Keeps.ite
    | fail_if_no_progress (with_reducible apply Keeps.mk')
    | split

theorem keeps_latchWord (s : State) (g : Nat) (w : Nat) {r0 : State} (hr : Keeps r0 s) : Keeps r0 (latchWord s g w) := by
  refine Keeps.trans hr ?_
  clear hr
  unfold latchWord
  repeat' first
    | with_reducible apply Keeps.refl
    | intro _
    | with_reducible assumption
    | with_reducible apply keeps_State_emit
    | with_reducible refine Keeps.ofPair (by assumption) ?_
    | with_reducible apply Keeps.ite
    | fail_if_no_progress (with_reducible apply Keeps.mk')

theorem keeps_moveCredits (s : State) (l : Nat) (a : Nat) (b : Nat) {r0 : State} (hr : Keeps r0 s) : Keeps r0 (moveCredits s l a b) := by
  refine Keeps.trans hr ?_
  clear hr
  unfold moveCredits
  repeat' first
    | with_reducible apply Keeps.refl
    | intro _
    | with_reducible assumption
    | (fail_if_no_progress extract_lets +onlyGivenNames x
       first | (refine Keeps.hyp x ?_ (fun _ => ?_); subst x; rotate_left; clear_value x; rotate_left) | clear_value x)
    | with_reducible apply keeps_State_ledPut
    | with_reducible apply keeps_State_ledAdd

theorem keeps_mapLane (s : State) (l : Nat) (a : Nat) (b : Nat) (stateA : Nat) {r0 : State} (hr : Keeps r0 s) : Keeps r0 (mapLane s l a b stateA) := by
  refine Keeps.trans hr ?_
  clear hr
  unfold mapLane
  repeat' first
    | with_reducible apply Keeps.refl
    | intro _
    | with_reducible assumption
    | (fail_if_no_progress extract_lets +onlyGivenNames x
       first | (refine Keeps.hyp x ?_ (fun _ => ?_); subst x; rotate_left; clear_value x; rotate_left) | clear_value x)
    | with_reducible apply keeps_State_wr
    | with_reducible apply keeps_State_wrb
    | with_reducible apply keeps_showLinks
    | with_reducible apply keeps_setLstate
    | with_reducible apply keeps_laneClear
    | with_reducible refine Keeps.ofPair (by assumption) ?_
    | with_reducible apply Keeps.ite
    | fail_if_no_progress (with_reducible apply Keeps.mk')

theorem keeps_setMove (s : State) (m : LaneMove) {r0 : State} (hr : Keeps r0 s) : Keeps r0 (setMove s m) := by
  refine Keeps.trans hr ?_
  clear hr
  unfold setMove
  repeat' first
    | with_reducible apply Keeps.refl
    | intro _
    | with_reducible assumption
    | (fail_if_no_progress extract_lets +onlyGivenNames x
       first | (refine Keeps.hyp x ?_ (fun _ => ?_); subst x; rotate_left; clear_value x; rotate_left) | clear_value x)
    | fail_if_no_progress (with_reducible apply Keeps.mk')

theorem keeps_planLatch (s : State) (m : LaneMove) {r0 : State} (hr : Keeps r0 s) : Keeps r0 (planLatch s m) := by
  refine Keeps.trans hr ?_
  clear hr
  unfold planLatch
  repeat' first
    | with_reducible apply Keeps.refl
    | intro _
    | with_reducible assumption
    | (fail_if_no_progress extract_lets +onlyGivenNames x
       first | (refine Keeps.hyp x ?_ (fun _ => ?_); subst x; rotate_left; clear_value x; rotate_left) | clear_value x)
    | with_reducible apply keeps_latchWord
    | with_reducible apply keeps_mapLane
    | with_reducible apply keeps_moveCredits
    | with_reducible apply keeps_State_wr
    | with_reducible apply keeps_laneSpare
    | with_reducible apply keeps_State_setLane
    | with_reducible apply keeps_setMove
    | with_reducible refine Keeps.ofPair (by assumption) ?_
    | with_reducible apply Keeps.ite
    | fail_if_no_progress (with_reducible apply Keeps.mk')
    | split

theorem keeps_laneReleased (s : State) (k : Nat) {r0 : State} (hr : Keeps r0 s) : Keeps r0 (laneReleased s k) := by
  refine Keeps.trans hr ?_
  clear hr
  unfold laneReleased
  repeat' first
    | with_reducible apply Keeps.refl
    | intro _
    | with_reducible assumption
    | (fail_if_no_progress extract_lets +onlyGivenNames x
       first | (refine Keeps.hyp x ?_ (fun _ => ?_); subst x; rotate_left; clear_value x; rotate_left) | clear_value x)
    | with_reducible apply keeps_planLatch
    | with_reducible refine Keeps.ofPair (by assumption) ?_
    | with_reducible apply Keeps.ite
    | fail_if_no_progress (with_reducible apply Keeps.mk')
    | split

theorem keeps_moveBegin (s : State) {r0 : State} (hr : Keeps r0 s) : Keeps r0 (moveBegin s) := by
  refine Keeps.trans hr ?_
  clear hr
  unfold moveBegin
  repeat' first
    | with_reducible apply Keeps.refl
    | intro _
    | with_reducible assumption
    | (fail_if_no_progress extract_lets +onlyGivenNames x
       first | (refine Keeps.hyp x ?_ (fun _ => ?_); subst x; rotate_left; clear_value x; rotate_left) | clear_value x)
    | with_reducible apply keeps_prbsStop
    | with_reducible apply keeps_shiftWords
    | with_reducible apply keeps_setMove
    | with_reducible refine Keeps.ofPair (by assumption) ?_
    | with_reducible apply Keeps.ite
    | fail_if_no_progress (with_reducible apply Keeps.mk')
    | split

theorem keeps_spareClaim (s : State) (g : Nat) {r0 : State} (hr : Keeps r0 s) : Keeps r0 (spareClaim s g) := by
  refine Keeps.trans hr ?_
  clear hr
  unfold spareClaim
  repeat' first
    | with_reducible apply Keeps.refl
    | intro _
    | with_reducible assumption
    | with_reducible refine Keeps.ofPair (by assumption) ?_
    | with_reducible apply Keeps.ite
    | fail_if_no_progress (with_reducible apply Keeps.mk')
    | split

theorem keeps_moveEnd (s : State) (result : Nat) {r0 : State} (hr : Keeps r0 s) : Keeps r0 (moveEnd s result) := by
  refine Keeps.trans hr ?_
  clear hr
  unfold moveEnd
  repeat' first
    | with_reducible apply Keeps.refl
    | intro _
    | with_reducible assumption
    | (fail_if_no_progress extract_lets +onlyGivenNames x
       first | (refine Keeps.hyp x ?_ (fun _ => ?_); subst x; rotate_left; clear_value x; rotate_left) | clear_value x)
    | with_reducible apply keeps_State_wr
    | with_reducible apply keeps_moveBegin
    | with_reducible apply keeps_spareClaim
    | with_reducible refine Keeps.ofPair (by assumption) ?_
    | with_reducible apply Keeps.ite
    | fail_if_no_progress (with_reducible apply Keeps.mk')
    | split

theorem keeps_laneHeard (s : State) (n : Nat) {r0 : State} (hr : Keeps r0 s) : Keeps r0 (laneHeard s n) := by
  refine Keeps.trans hr ?_
  clear hr
  unfold laneHeard
  repeat' first
    | with_reducible apply Keeps.refl
    | intro _
    | with_reducible assumption
    | (fail_if_no_progress extract_lets +onlyGivenNames x
       first | (refine Keeps.hyp x ?_ (fun _ => ?_); subst x; rotate_left; clear_value x; rotate_left) | clear_value x)
    | with_reducible apply keeps_moveEnd
    | with_reducible apply keeps_State_setLane
    | with_reducible refine Keeps.ofPair (by assumption) ?_
    | with_reducible apply Keeps.ite
    | fail_if_no_progress (with_reducible apply Keeps.mk')
    | split

end Sys2Proof.Laws
end

