-- ==== Sys2Proof/Laws/KeepTwin.lean ====
section
/-! SUPPORT. `Keeps` of every operation of Machine/Twin.lean. -/

namespace Sys2Proof.Laws

open Sys2Proof.Machine

set_option linter.unusedTactic false
set_option linter.unreachableTactic false
set_option linter.tactic.unusedName false

theorem keeps_twinSet (s : State) (type : Nat) (fields : Nat) {r0 : State} (hr : Keeps r0 s) : Keeps r0 (twinSet s type fields) := by
  refine Keeps.trans hr ?_
  clear hr
  unfold twinSet
  repeat' first
    | with_reducible apply Keeps.refl
    | intro _
    | with_reducible apply keeps_State_emit
    | with_reducible apply Keeps.foldl

theorem keeps_twinFail (s : State) (cause : Nat) {r0 : State} (hr : Keeps r0 s) : Keeps r0 (twinFail s cause) := by
  refine Keeps.trans hr ?_
  clear hr
  unfold twinFail
  repeat' first
    | with_reducible apply Keeps.refl
    | intro _
    | with_reducible apply keeps_twinSet

theorem keeps_showBacklog (s : State) {r0 : State} (hr : Keeps r0 s) : Keeps r0 (showBacklog s) := by
  refine Keeps.trans hr ?_
  clear hr
  unfold showBacklog
  repeat' first
    | with_reducible apply Keeps.refl
    | intro _
    | with_reducible assumption
    | (fail_if_no_progress extract_lets +onlyGivenNames x
       first | (refine Keeps.hyp x ?_ (fun _ => ?_); subst x; rotate_left; clear_value x; rotate_left) | clear_value x)
    | with_reducible apply keeps_State_wr

theorem keeps_recordOut (s : State) (lane : Nat) (seq : Nat) (r : TwinRec) {r0 : State} (hr : Keeps r0 s) : Keeps r0 (recordOut s lane seq r) := by
  refine Keeps.trans hr ?_
  clear hr
  unfold recordOut
  repeat' first
    | with_reducible apply Keeps.refl
    | intro _
    | with_reducible assumption
    | (fail_if_no_progress extract_lets +onlyGivenNames x
       first | (refine Keeps.hyp x ?_ (fun _ => ?_); subst x; rotate_left; clear_value x; rotate_left) | clear_value x)
    | with_reducible apply keeps_State_emit
    | with_reducible apply keeps_State_ledMove
    | with_reducible refine Keeps.ofPair (by assumption) ?_
    | with_reducible apply Keeps.ite
    | fail_if_no_progress (with_reducible apply Keeps.mk')

theorem keeps_twinPump (x0 : Nat) (x1 : State) {r0 : State} (hr : Keeps r0 x1) : Keeps r0 (twinPump x0 x1) := by
  refine Keeps.trans hr ?_
  clear hr
  induction x0 generalizing x1 with
  | zero => exact Keeps.refl _
  | succ n ih =>
    rw [twinPump]
    split
    · split
      · exact Keeps.refl _
      · exact Keeps.trans (keeps_State_count _ _ _ _ (keeps_recordOut _ _ _ _ (Keeps.mk' (Keeps.refl _)))) (ih _)
    · split
      · exact Keeps.refl _
      · split
        · exact Keeps.refl _
        · exact Keeps.trans (keeps_recordOut _ _ _ _ (Keeps.mk' (Keeps.refl _))) (ih _)

theorem keeps_State_twinPump (s : State) {r0 : State} (hr : Keeps r0 s) : Keeps r0 (State.twinPump s) := by
  refine Keeps.trans hr ?_
  clear hr
  unfold State.twinPump
  repeat' first
    | with_reducible apply Keeps.refl
    | intro _
    | with_reducible assumption
    | with_reducible apply keeps_showBacklog
    | with_reducible apply keeps_twinPump
    | with_reducible refine Keeps.ofPair (by assumption) ?_
    | with_reducible apply Keeps.ite
    | fail_if_no_progress (with_reducible apply Keeps.mk')

end Sys2Proof.Laws
end

