-- ==== Sys2Proof/Laws/KeepFire.lean ====
section
/-! SUPPORT. `Keeps` of every operation of Machine/Fire.lean. -/

namespace Sys2Proof.Laws

open Sys2Proof.Machine

set_option linter.unusedTactic false
set_option linter.unreachableTactic false
set_option linter.tactic.unusedName false

theorem keeps_sendSet (s : State) (lane : Nat) (type : Nat) (fields : Nat) {r0 : State} (hr : Keeps r0 s) : Keeps r0 (sendSet s lane type fields) := by
  refine Keeps.trans hr ?_
  clear hr
  unfold sendSet
  repeat' first
    | with_reducible apply Keeps.refl
    | intro _
    | with_reducible apply keeps_State_emit

theorem keeps_slotSet (s : State) (k : Nat) (type : Nat) (rest : Nat) {r0 : State} (hr : Keeps r0 s) : Keeps r0 (slotSet s k type rest) := by
  refine Keeps.trans hr ?_
  clear hr
  unfold slotSet
  repeat' first
    | with_reducible apply Keeps.refl
    | intro _
    | with_reducible apply keeps_sendSet
    | with_reducible apply Keeps.ite

theorem keeps_setError (s : State) (lane : Nat) {r0 : State} (hr : Keeps r0 s) : Keeps r0 (setError s lane) := by
  refine Keeps.trans hr ?_
  clear hr
  unfold setError
  repeat' first
    | with_reducible apply Keeps.refl
    | intro _
    | with_reducible apply keeps_State_count

theorem keeps_onSet (s : State) (lane : Nat) (type : Nat) (word : Nat) (f : State → Nat → Nat → State) (hf : ∀ y0 y1 y2, Keeps y0 (f y0 y1 y2)) {r0 : State} (hr : Keeps r0 s) : Keeps r0 (onSet s lane type word f) := by
  refine Keeps.trans hr ?_
  clear hr
  unfold onSet
  repeat' first
    | with_reducible apply Keeps.refl
    | intro _
    | with_reducible assumption
    | (fail_if_no_progress extract_lets +onlyGivenNames x
       first | (refine Keeps.hyp x ?_ (fun _ => ?_); subst x; rotate_left; clear_value x; rotate_left) | clear_value x)
    | with_reducible apply keeps_State_count
    | with_reducible apply keeps_setError
    | with_reducible apply keeps_laneHeard
    | with_reducible refine Keeps.trans ?_ (hf ..)
    | with_reducible refine Keeps.ofPair (by assumption) ?_
    | with_reducible apply Keeps.ite
    | fail_if_no_progress (with_reducible apply Keeps.mk')
    | split

theorem keeps_heartbeat (s : State) {r0 : State} (hr : Keeps r0 s) : Keeps r0 (heartbeat s) := by
  refine Keeps.trans hr ?_
  clear hr
  unfold heartbeat
  repeat' first
    | with_reducible apply Keeps.refl
    | intro _
    | with_reducible assumption
    | (fail_if_no_progress extract_lets +onlyGivenNames x
       first | (refine Keeps.hyp x ?_ (fun _ => ?_); subst x; rotate_left; clear_value x; rotate_left) | clear_value x)
    | with_reducible apply keeps_sendSet
    | with_reducible apply Keeps.foldl
    | with_reducible apply Keeps.foldlPair
    | with_reducible apply Keeps.ite
    | fail_if_no_progress (with_reducible apply Keeps.mk')

theorem keeps_keepopenStop (s : State) (k : Nat) {r0 : State} (hr : Keeps r0 s) : Keeps r0 (keepopenStop s k) := by
  refine Keeps.trans hr ?_
  clear hr
  unfold keepopenStop
  repeat' first
    | with_reducible apply Keeps.refl
    | intro _
    | with_reducible apply keeps_State_wr
    | with_reducible apply keeps_laneReleased
    | with_reducible apply keeps_slotSet
    | with_reducible apply Keeps.ite

theorem keeps_chargeUpdate (s : State) (k : Nat) {r0 : State} (hr : Keeps r0 s) : Keeps r0 (chargeUpdate s k) := by
  refine Keeps.trans hr ?_
  clear hr
  unfold chargeUpdate
  repeat' first
    | with_reducible apply Keeps.refl
    | intro _
    | with_reducible assumption
    | (fail_if_no_progress extract_lets +onlyGivenNames x
       first | (refine Keeps.hyp x ?_ (fun _ => ?_); subst x; rotate_left; clear_value x; rotate_left) | clear_value x)
    | with_reducible apply keeps_State_setSlot
    | with_reducible apply keeps_State_wrb
    | with_reducible apply keeps_keepopenStop
    | with_reducible apply Keeps.ite

theorem keeps_stopSooner (s : State) (g : Nat) {r0 : State} (hr : Keeps r0 s) : Keeps r0 (stopSooner s g) := by
  refine Keeps.trans hr ?_
  clear hr
  unfold stopSooner
  repeat' first
    | with_reducible apply Keeps.refl
    | intro _
    | with_reducible assumption
    | (fail_if_no_progress extract_lets +onlyGivenNames x
       first | (refine Keeps.hyp x ?_ (fun _ => ?_); subst x; rotate_left; clear_value x; rotate_left) | clear_value x)
    | with_reducible apply keeps_setStopFrom
    | with_reducible refine Keeps.ofPair (by assumption) ?_
    | with_reducible apply Keeps.ite
    | fail_if_no_progress (with_reducible apply Keeps.mk')
    | split

theorem keeps_tempChanged (s : State) (k : Nat) (old : Nat) (new : Nat) {r0 : State} (hr : Keeps r0 s) : Keeps r0 (tempChanged s k old new) := by
  refine Keeps.trans hr ?_
  clear hr
  unfold tempChanged
  repeat' first
    | with_reducible apply Keeps.refl
    | intro _
    | with_reducible assumption
    | (fail_if_no_progress extract_lets +onlyGivenNames x
       first | (refine Keeps.hyp x ?_ (fun _ => ?_); subst x; rotate_left; clear_value x; rotate_left) | clear_value x)
    | with_reducible apply keeps_State_wr
    | with_reducible apply keeps_State_event
    | with_reducible apply keeps_gpInt
    | with_reducible apply keeps_requestStop
    | with_reducible apply keeps_stopSooner
    | with_reducible apply keeps_chargeUpdate
    | with_reducible refine Keeps.ofPair (by assumption) ?_
    | with_reducible apply Keeps.ite
    | fail_if_no_progress (with_reducible apply Keeps.mk')
    | split

theorem keeps_tempEval (s : State) (k : Nat) {r0 : State} (hr : Keeps r0 s) : Keeps r0 (tempEval s k) := by
  refine Keeps.trans hr ?_
  clear hr
  unfold tempEval
  repeat' first
    | with_reducible apply Keeps.refl
    | intro _
    | with_reducible assumption
    | (fail_if_no_progress extract_lets +onlyGivenNames x
       first | (refine Keeps.hyp x ?_ (fun _ => ?_); subst x; rotate_left; clear_value x; rotate_left) | clear_value x)
    | with_reducible apply keeps_tempChanged
    | with_reducible apply Keeps.ite

theorem keeps_tempPass (s : State) (k : Nat) (v : Int) (since : Nat) {r0 : State} (hr : Keeps r0 s) : Keeps r0 (tempPass s k v since) := by
  refine Keeps.trans hr ?_
  clear hr
  unfold tempPass
  repeat' first
    | with_reducible apply Keeps.refl
    | intro _
    | with_reducible assumption
    | (fail_if_no_progress extract_lets +onlyGivenNames x
       first | (refine Keeps.hyp x ?_ (fun _ => ?_); subst x; rotate_left; clear_value x; rotate_left) | clear_value x)
    | with_reducible apply keeps_tempEval
    | with_reducible apply keeps_State_wri
    | with_reducible apply keeps_State_setSlot

theorem keeps_usageClear (s : State) (k : Nat) {r0 : State} (hr : Keeps r0 s) : Keeps r0 (usageClear s k) := by
  refine Keeps.trans hr ?_
  clear hr
  unfold usageClear
  repeat' first
    | with_reducible apply Keeps.refl
    | intro _
    | with_reducible assumption
    | with_reducible apply keeps_State_ledPut
    | with_reducible refine Keeps.ofPair (by assumption) ?_
    | with_reducible apply Keeps.ite
    | fail_if_no_progress (with_reducible apply Keeps.mk')

theorem keeps_usageDrops (s : State) (k : Nat) (n : Nat) {r0 : State} (hr : Keeps r0 s) : Keeps r0 (usageDrops s k n) := by
  refine Keeps.trans hr ?_
  clear hr
  unfold usageDrops
  repeat' first
    | with_reducible apply Keeps.refl
    | intro _
    | with_reducible assumption
    | (fail_if_no_progress extract_lets +onlyGivenNames x
       first | (refine Keeps.hyp x ?_ (fun _ => ?_); subst x; rotate_left; clear_value x; rotate_left) | clear_value x)
    | with_reducible apply keeps_State_ledAdd
    | with_reducible apply keeps_State_ledPut
    | with_reducible refine Keeps.ofPair (by assumption) ?_
    | with_reducible apply Keeps.ite
    | fail_if_no_progress (with_reducible apply Keeps.mk')

theorem keeps_sendRelease (s : State) (k : Nat) (g : Nat) (disp : Nat) (sos : Nat) {r0 : State} (hr : Keeps r0 s) : Keeps r0 (sendRelease s k g disp sos) := by
  refine Keeps.trans hr ?_
  clear hr
  unfold sendRelease
  repeat' first
    | with_reducible apply Keeps.refl
    | intro _
    | with_reducible assumption
    | (fail_if_no_progress extract_lets +onlyGivenNames x
       first | (refine Keeps.hyp x ?_ (fun _ => ?_); subst x; rotate_left; clear_value x; rotate_left) | clear_value x)
    | with_reducible apply keeps_State_emit
    | with_reducible apply keeps_slotSet
    | with_reducible apply keeps_State_setSlot
    | with_reducible apply keeps_State_spend
    | with_reducible apply keeps_State_wr
    | with_reducible apply keeps_laneReleased
    | with_reducible apply Keeps.ite

theorem keeps_decapMark (s : State) (k : Nat) (g : Nat) {r0 : State} (hr : Keeps r0 s) : Keeps r0 (decapMark s k g) := by
  refine Keeps.trans hr ?_
  clear hr
  unfold decapMark
  repeat' first
    | with_reducible apply Keeps.refl
    | intro _
    | with_reducible apply keeps_markLine
    | with_reducible apply Keeps.ite

theorem keeps_headMark (s : State) (k : Nat) (g : Nat) {r0 : State} (hr : Keeps r0 s) : Keeps r0 (headMark s k g) := by
  refine Keeps.trans hr ?_
  clear hr
  unfold headMark
  repeat' first
    | with_reducible apply Keeps.refl
    | intro _
    | with_reducible apply keeps_markLine
    | with_reducible apply Keeps.ite

theorem keeps_showFiring (s : State) (k : Nat) (fires : Bool) {r0 : State} (hr : Keeps r0 s) : Keeps r0 (showFiring s k fires) := by
  refine Keeps.trans hr ?_
  clear hr
  unfold showFiring
  repeat' first
    | with_reducible apply Keeps.refl
    | intro _
    | with_reducible assumption
    | (fail_if_no_progress extract_lets +onlyGivenNames x
       first | (refine Keeps.hyp x ?_ (fun _ => ?_); subst x; rotate_left; clear_value x; rotate_left) | clear_value x)
    | with_reducible apply keeps_State_wr
    | with_reducible apply keeps_State_setSlot

theorem keeps_refFired (s : State) (k : Nat) (g : Nat) {r0 : State} (hr : Keeps r0 s) : Keeps r0 (refFired s k g) := by
  refine Keeps.trans hr ?_
  clear hr
  unfold refFired
  repeat' first
    | with_reducible apply Keeps.refl
    | intro _
    | with_reducible assumption
    | with_reducible refine Keeps.ofPair (by assumption) ?_
    | with_reducible apply Keeps.ite
    | fail_if_no_progress (with_reducible apply Keeps.mk')
    | split

theorem keeps_firePart (s : State) (k : Nat) (q : Part) (sos : Nat) {r0 : State} (hr : Keeps r0 s) : Keeps r0 (firePart s k q sos) := by
  refine Keeps.trans hr ?_
  clear hr
  unfold firePart
  repeat' first
    | with_reducible apply Keeps.refl
    | intro _
    | with_reducible assumption
    | (fail_if_no_progress extract_lets +onlyGivenNames x
       first | (refine Keeps.hyp x ?_ (fun _ => ?_); subst x; rotate_left; clear_value x; rotate_left) | clear_value x)
    | with_reducible apply keeps_headMark
    | with_reducible apply keeps_decapMark
    | with_reducible apply keeps_sendRelease
    | with_reducible apply keeps_refFired
    | with_reducible apply keeps_showFiring
    | with_reducible apply keeps_State_wr
    | with_reducible apply keeps_State_setSlot
    | with_reducible apply keeps_setPart
    | with_reducible refine Keeps.ofPair (by assumption) ?_
    | with_reducible apply Keeps.ite
    | fail_if_no_progress (with_reducible apply Keeps.mk')
    | split

theorem keeps_endPart (s : State) (k : Nat) (q : Part) (disp : Nat) (sos : Nat) {r0 : State} (hr : Keeps r0 s) : Keeps r0 (endPart s k q disp sos) := by
  refine Keeps.trans hr ?_
  clear hr
  unfold endPart
  repeat' first
    | with_reducible apply Keeps.refl
    | intro _
    | with_reducible assumption
    | (fail_if_no_progress extract_lets +onlyGivenNames x
       first | (refine Keeps.hyp x ?_ (fun _ => ?_); subst x; rotate_left; clear_value x; rotate_left) | clear_value x)
    | with_reducible apply keeps_showFiring
    | with_reducible apply keeps_sendRelease
    | with_reducible apply keeps_dropPart
    | with_reducible apply keeps_moveLine
    | with_reducible apply keeps_countLines
    | with_reducible apply keeps_setFate
    | with_reducible apply keeps_moveDrops
    | with_reducible apply Keeps.ite

theorem keeps_skipPart (s : State) (k : Nat) (q : Part) {r0 : State} (hr : Keeps r0 s) : Keeps r0 (skipPart s k q) := by
  refine Keeps.trans hr ?_
  clear hr
  unfold skipPart
  repeat' first
    | with_reducible apply Keeps.refl
    | intro _
    | with_reducible assumption
    | (fail_if_no_progress extract_lets +onlyGivenNames x
       first | (refine Keeps.hyp x ?_ (fun _ => ?_); subst x; rotate_left; clear_value x; rotate_left) | clear_value x)
    | with_reducible apply keeps_endPart
    | with_reducible apply keeps_State_count
    | with_reducible apply keeps_markLine
    | with_reducible apply keeps_State_wr
    | with_reducible refine Keeps.ofPair (by assumption) ?_
    | with_reducible apply Keeps.ite
    | fail_if_no_progress (with_reducible apply Keeps.mk')

theorem keeps_thermalMark (s : State) (k : Nat) (g : Nat) {r0 : State} (hr : Keeps r0 s) : Keeps r0 (thermalMark s k g) := by
  refine Keeps.trans hr ?_
  clear hr
  unfold thermalMark
  repeat' first
    | with_reducible apply Keeps.refl
    | intro _
    | with_reducible apply keeps_State_count
    | with_reducible apply keeps_markLine
    | with_reducible apply Keeps.ite

theorem keeps_moveOwn (s : State) (idx : Nat) (k : Nat) (g : Nat) (to_ : Nat → Nat) {r0 : State} (hr : Keeps r0 s) : Keeps r0 (moveOwn s idx k g to_) := by
  refine Keeps.trans hr ?_
  clear hr
  unfold moveOwn
  repeat' first
    | with_reducible apply Keeps.refl
    | intro _
    | with_reducible assumption
    | with_reducible apply keeps_moveLine
    | with_reducible refine Keeps.ofPair (by assumption) ?_
    | with_reducible apply Keeps.ite
    | fail_if_no_progress (with_reducible apply Keeps.mk')
    | split

theorem keeps_emptyPart (s : State) (k : Nat) (g : Nat) (pg : Page) {r0 : State} (hr : Keeps r0 s) : Keeps r0 (emptyPart s k g pg) := by
  refine Keeps.trans hr ?_
  clear hr
  unfold emptyPart
  repeat' first
    | with_reducible apply Keeps.refl
    | intro _
    | with_reducible assumption
    | with_reducible apply keeps_showFiring
    | with_reducible apply keeps_setFate
    | with_reducible apply keeps_thermalMark
    | with_reducible apply keeps_moveOwn
    | with_reducible apply keeps_refFired
    | with_reducible refine Keeps.ofPair (by assumption) ?_
    | with_reducible apply Keeps.ite
    | fail_if_no_progress (with_reducible apply Keeps.mk')
    | split

theorem keeps_disposePart (s : State) (k : Nat) (q : Part) {r0 : State} (hr : Keeps r0 s) : Keeps r0 (disposePart s k q) := by
  refine Keeps.trans hr ?_
  clear hr
  unfold disposePart
  repeat' first
    | with_reducible apply Keeps.refl
    | intro _
    | with_reducible assumption
    | (fail_if_no_progress extract_lets +onlyGivenNames x
       first | (refine Keeps.hyp x ?_ (fun _ => ?_); subst x; rotate_left; clear_value x; rotate_left) | clear_value x)
    | with_reducible apply keeps_endPart
    | with_reducible apply keeps_thermalMark
    | with_reducible apply keeps_skipPart
    | with_reducible apply keeps_firePart
    | with_reducible apply keeps_setPart
    | with_reducible apply Keeps.ite

theorem keeps_shadowPart (s : State) (k : Nat) (g : Nat) (pg : Page) (phase : Bool) {r0 : State} (hr : Keeps r0 s) : Keeps r0 (shadowPart s k g pg phase) := by
  refine Keeps.trans hr ?_
  clear hr
  unfold shadowPart
  repeat' first
    | with_reducible apply Keeps.refl
    | intro _
    | with_reducible assumption
    | (fail_if_no_progress extract_lets +onlyGivenNames x
       first | (refine Keeps.hyp x ?_ (fun _ => ?_); subst x; rotate_left; clear_value x; rotate_left) | clear_value x)
    | with_reducible apply keeps_setPart
    | with_reducible apply keeps_setFate
    | with_reducible apply keeps_State_tally
    | with_reducible refine Keeps.ofPair (by assumption) ?_
    | with_reducible apply Keeps.ite
    | fail_if_no_progress (with_reducible apply Keeps.mk')
    | split

theorem keeps_slotSos (s : State) (k : Nat) {r0 : State} (hr : Keeps r0 s) : Keeps r0 (slotSos s k) := by
  refine Keeps.trans hr ?_
  clear hr
  unfold slotSos
  repeat' first
    | with_reducible apply Keeps.refl
    | intro _
    | with_reducible assumption
    | (fail_if_no_progress extract_lets +onlyGivenNames x
       first | (refine Keeps.hyp x ?_ (fun _ => ?_); subst x; rotate_left; clear_value x; rotate_left) | clear_value x)
    | with_reducible apply keeps_tempEval
    | with_reducible apply keeps_State_setSlot
    | with_reducible apply keeps_setFate
    | with_reducible apply keeps_showFiring
    | with_reducible apply keeps_shadowPart
    | with_reducible apply keeps_dropPart
    | with_reducible apply keeps_disposePart
    | with_reducible apply keeps_emptyPart
    | with_reducible apply keeps_setPart
    | with_reducible refine Keeps.ofPair (by assumption) ?_
    | with_reducible apply Keeps.ite
    | fail_if_no_progress (with_reducible apply Keeps.mk')
    | split

theorem keeps_partComplete (s : State) (k : Nat) (q : Part) {r0 : State} (hr : Keeps r0 s) : Keeps r0 (partComplete s k q) := by
  refine Keeps.trans hr ?_
  clear hr
  unfold partComplete
  repeat' first
    | with_reducible apply Keeps.refl
    | intro _
    | with_reducible assumption
    | (fail_if_no_progress extract_lets +onlyGivenNames x
       first | (refine Keeps.hyp x ?_ (fun _ => ?_); subst x; rotate_left; clear_value x; rotate_left) | clear_value x)
    | with_reducible apply keeps_setPart
    | with_reducible apply keeps_firePart
    | with_reducible refine Keeps.ofPair (by assumption) ?_
    | with_reducible apply Keeps.ite
    | fail_if_no_progress (with_reducible apply Keeps.mk')
    | split

theorem keeps_dataLate (s : State) (k : Nat) {r0 : State} (hr : Keeps r0 s) : Keeps r0 (dataLate s k) := by
  refine Keeps.trans hr ?_
  clear hr
  unfold dataLate
  repeat' first
    | with_reducible apply Keeps.refl
    | intro _
    | with_reducible assumption
    | (fail_if_no_progress extract_lets +onlyGivenNames x
       first | (refine Keeps.hyp x ?_ (fun _ => ?_); subst x; rotate_left; clear_value x; rotate_left) | subst x)
    | with_reducible apply keeps_State_count
    | with_reducible apply keeps_endPart
    | with_reducible apply keeps_markLine
    | with_reducible apply keeps_State_wr
    | with_reducible refine Keeps.ofPair (by assumption) ?_
    | with_reducible apply Keeps.ite
    | fail_if_no_progress (with_reducible apply Keeps.mk')
    | split

theorem keeps_settlePart (s : State) (k : Nat) (q : Part) (ejected : Bool) {r0 : State} (hr : Keeps r0 s) : Keeps r0 (settlePart s k q ejected) := by
  refine Keeps.trans hr ?_
  clear hr
  unfold settlePart
  repeat' first
    | with_reducible apply Keeps.refl
    | intro _
    | with_reducible assumption
    | (fail_if_no_progress extract_lets +onlyGivenNames x
       first | (refine Keeps.hyp x ?_ (fun _ => ?_); subst x; rotate_left; clear_value x; rotate_left) | clear_value x)
    | with_reducible apply keeps_dropPart
    | with_reducible apply keeps_moveLine
    | with_reducible apply keeps_moveDrops
    | with_reducible apply keeps_countDrops
    | with_reducible apply keeps_setFate
    | with_reducible apply keeps_usageDrops
    | with_reducible apply Keeps.ite

theorem keeps_ackLost (s : State) (k : Nat) {r0 : State} (hr : Keeps r0 s) : Keeps r0 (ackLost s k) := by
  refine Keeps.trans hr ?_
  clear hr
  unfold ackLost
  repeat' first
    | with_reducible apply Keeps.refl
    | intro _
    | with_reducible assumption
    | (fail_if_no_progress extract_lets +onlyGivenNames x
       first | (refine Keeps.hyp x ?_ (fun _ => ?_); subst x; rotate_left; clear_value x; rotate_left) | clear_value x)
    | with_reducible apply keeps_markLine
    | with_reducible apply keeps_State_wr
    | with_reducible apply keeps_settlePart
    | with_reducible refine Keeps.ofPair (by assumption) ?_
    | fail_if_no_progress (with_reducible apply Keeps.mk')
    | split

theorem keeps_sendFrame (s : State) (k : Nat) (ftype : Nat) (tag : Nat) (index : Nat) (data : List Byte) {r0 : State} (hr : Keeps r0 s) : Keeps r0 (sendFrame s k ftype tag index data) := by
  refine Keeps.trans hr ?_
  clear hr
  unfold sendFrame
  repeat' first
    | with_reducible apply Keeps.refl
    | intro _
    | with_reducible assumption
    | (fail_if_no_progress extract_lets +onlyGivenNames x
       first | (refine Keeps.hyp x ?_ (fun _ => ?_); subst x; rotate_left; clear_value x; rotate_left) | clear_value x)
    | with_reducible apply keeps_State_emit
    | with_reducible apply keeps_State_setSlot
    | with_reducible apply keeps_State_ledMove

theorem keeps_sendData (s : State) (k : Nat) (q : Part) (i : Nat) {r0 : State} (hr : Keeps r0 s) : Keeps r0 (sendData s k q i) := by
  refine Keeps.trans hr ?_
  clear hr
  unfold sendData
  repeat' first
    | with_reducible apply Keeps.refl
    | intro _
    | with_reducible apply keeps_sendFrame

theorem keeps_badPart (s : State) (k : Nat) (q : Part) {r0 : State} (hr : Keeps r0 s) : Keeps r0 (badPart s k q) := by
  refine Keeps.trans hr ?_
  clear hr
  unfold badPart
  repeat' first
    | with_reducible apply Keeps.refl
    | intro _
    | with_reducible assumption
    | (fail_if_no_progress extract_lets +onlyGivenNames x
       first | (refine Keeps.hyp x ?_ (fun _ => ?_); subst x; rotate_left; clear_value x; rotate_left) | clear_value x)
    | with_reducible apply keeps_markLine
    | with_reducible apply keeps_endPart
    | with_reducible apply keeps_setPart
    | with_reducible refine Keeps.ofPair (by assumption) ?_
    | fail_if_no_progress (with_reducible apply Keeps.mk')
    | split

theorem keeps_frameSend (s : State) (k : Nat) (bad : Bool) {r0 : State} (hr : Keeps r0 s) : Keeps r0 (frameSend s k bad) := by
  refine Keeps.trans hr ?_
  clear hr
  unfold frameSend
  repeat' first
    | with_reducible apply Keeps.refl
    | intro _
    | with_reducible assumption
    | (fail_if_no_progress extract_lets +onlyGivenNames x
       first | (refine Keeps.hyp x ?_ (fun _ => ?_); subst x; rotate_left; clear_value x; rotate_left) | clear_value x)
    | with_reducible apply keeps_sendFrame
    | with_reducible apply keeps_State_setSlot
    | with_reducible apply keeps_badPart
    | with_reducible apply keeps_State_wr
    | with_reducible apply keeps_setPart
    | with_reducible apply keeps_sendData
    | with_reducible refine Keeps.ofPair (by assumption) ?_
    | with_reducible apply Keeps.ite
    | fail_if_no_progress (with_reducible apply Keeps.mk')
    | split

theorem keeps_grantCredits (s : State) (k : Nat) (n : Nat) {r0 : State} (hr : Keeps r0 s) : Keeps r0 (grantCredits s k n) := by
  refine Keeps.trans hr ?_
  clear hr
  unfold grantCredits
  repeat' first
    | with_reducible apply Keeps.refl
    | intro _
    | with_reducible assumption
    | (fail_if_no_progress extract_lets +onlyGivenNames x
       first | (refine Keeps.hyp x ?_ (fun _ => ?_); subst x; rotate_left; clear_value x; rotate_left) | clear_value x)
    | with_reducible apply keeps_State_setSlot
    | with_reducible apply keeps_State_ledAdd

theorem keeps_linkInit (s : State) (k : Nat) {r0 : State} (hr : Keeps r0 s) : Keeps r0 (linkInit s k) := by
  refine Keeps.trans hr ?_
  clear hr
  unfold linkInit
  repeat' first
    | with_reducible apply Keeps.refl
    | intro _
    | with_reducible assumption
    | (fail_if_no_progress extract_lets +onlyGivenNames x
       first | (refine Keeps.hyp x ?_ (fun _ => ?_); subst x; rotate_left; clear_value x; rotate_left) | subst x)
    | with_reducible apply keeps_slotSet
    | with_reducible apply keeps_State_setSlot

theorem keeps_waveStart (s : State) (k : Nat) {r0 : State} (hr : Keeps r0 s) : Keeps r0 (waveStart s k) := by
  refine Keeps.trans hr ?_
  clear hr
  unfold waveStart
  repeat' first
    | with_reducible apply Keeps.refl
    | intro _
    | with_reducible assumption
    | (fail_if_no_progress extract_lets +onlyGivenNames x
       first | (refine Keeps.hyp x ?_ (fun _ => ?_); subst x; rotate_left; clear_value x; rotate_left) | clear_value x)
    | with_reducible apply keeps_State_setSlot
    | with_reducible refine Keeps.ofPair (by assumption) ?_
    | with_reducible apply Keeps.ite
    | fail_if_no_progress (with_reducible apply Keeps.mk')
    | split

theorem keeps_waveCommit (s : State) (k : Nat) {r0 : State} (hr : Keeps r0 s) : Keeps r0 (waveCommit s k) := by
  refine Keeps.trans hr ?_
  clear hr
  unfold waveCommit
  repeat' first
    | with_reducible apply Keeps.refl
    | intro _
    | with_reducible assumption
    | (fail_if_no_progress extract_lets +onlyGivenNames x
       first | (refine Keeps.hyp x ?_ (fun _ => ?_); subst x; rotate_left; clear_value x; rotate_left) | clear_value x)
    | with_reducible apply keeps_slotSet
    | with_reducible apply keeps_State_setSlot
    | with_reducible refine Keeps.ofPair (by assumption) ?_
    | with_reducible apply Keeps.ite
    | fail_if_no_progress (with_reducible apply Keeps.mk')
    | split

theorem keeps_keepopenStart (s : State) (k : Nat) {r0 : State} (hr : Keeps r0 s) : Keeps r0 (keepopenStart s k) := by
  refine Keeps.trans hr ?_
  clear hr
  unfold keepopenStart
  repeat' first
    | with_reducible apply Keeps.refl
    | intro _
    | with_reducible assumption
    | (fail_if_no_progress extract_lets +onlyGivenNames x
       first | (refine Keeps.hyp x ?_ (fun _ => ?_); subst x; rotate_left; clear_value x; rotate_left) | clear_value x)
    | with_reducible apply keeps_laneReleased
    | with_reducible apply keeps_slotSet
    | with_reducible apply keeps_State_wr
    | with_reducible refine Keeps.ofPair (by assumption) ?_
    | with_reducible apply Keeps.ite
    | fail_if_no_progress (with_reducible apply Keeps.mk')
    | split

theorem keeps_keepopenStopAll (s : State) {r0 : State} (hr : Keeps r0 s) : Keeps r0 (keepopenStopAll s) := by
  refine Keeps.trans hr ?_
  clear hr
  unfold keepopenStopAll
  repeat' first
    | with_reducible apply Keeps.refl
    | intro _
    | with_reducible apply keeps_keepopenStop
    | with_reducible apply Keeps.foldl

theorem keeps_queueMessage (s : State) (k : Nat) (body : List Byte) {r0 : State} (hr : Keeps r0 s) : Keeps r0 (queueMessage s k body) := by
  refine Keeps.trans hr ?_
  clear hr
  unfold queueMessage
  repeat' first
    | with_reducible apply Keeps.refl
    | intro _
    | with_reducible assumption
    | (fail_if_no_progress extract_lets +onlyGivenNames x
       first | (refine Keeps.hyp x ?_ (fun _ => ?_); subst x; rotate_left; clear_value x; rotate_left) | clear_value x)
    | with_reducible apply keeps_State_spend
    | with_reducible apply keeps_State_setSlot

theorem keeps_authFail (s : State) (k : Nat) (step : Nat) (regress : Bool) {r0 : State} (hr : Keeps r0 s) : Keeps r0 (authFail s k step regress) := by
  refine Keeps.trans hr ?_
  clear hr
  unfold authFail
  repeat' first
    | with_reducible apply Keeps.refl
    | intro _
    | with_reducible assumption
    | (fail_if_no_progress extract_lets +onlyGivenNames x
       first | (refine Keeps.hyp x ?_ (fun _ => ?_); subst x; rotate_left; clear_value x; rotate_left) | clear_value x)
    | with_reducible apply keeps_State_wr
    | with_reducible apply keeps_State_event
    | with_reducible apply keeps_chargeUpdate
    | with_reducible apply keeps_State_setSlot
    | with_reducible refine Keeps.ofPair (by assumption) ?_
    | with_reducible apply Keeps.ite
    | fail_if_no_progress (with_reducible apply Keeps.mk')
    | split

theorem keeps_authStart (s : State) (k : Nat) {r0 : State} (hr : Keeps r0 s) : Keeps r0 (authStart s k) := by
  refine Keeps.trans hr ?_
  clear hr
  unfold authStart
  repeat' first
    | with_reducible apply Keeps.refl
    | intro _
    | with_reducible assumption
    | (fail_if_no_progress extract_lets +onlyGivenNames x
       first | (refine Keeps.hyp x ?_ (fun _ => ?_); subst x; rotate_left; clear_value x; rotate_left) | clear_value x)
    | with_reducible apply keeps_State_setSlot
    | with_reducible apply keeps_State_wr
    | with_reducible apply keeps_State_spend
    | with_reducible apply keeps_chargeUpdate
    | with_reducible apply keeps_queueMessage
    | with_reducible refine Keeps.ofPair (by assumption) ?_
    | with_reducible apply Keeps.ite
    | fail_if_no_progress (with_reducible apply Keeps.mk')
    | split

theorem keeps_sendUsage (s : State) (k : Nat) (units : Nat) {r0 : State} (hr : Keeps r0 s) : Keeps r0 (sendUsage s k units) := by
  refine Keeps.trans hr ?_
  clear hr
  unfold sendUsage
  repeat' first
    | with_reducible apply Keeps.refl
    | intro _
    | with_reducible assumption
    | (fail_if_no_progress extract_lets +onlyGivenNames x
       first | (refine Keeps.hyp x ?_ (fun _ => ?_); subst x; rotate_left; clear_value x; rotate_left) | clear_value x)
    | with_reducible apply keeps_State_setSlot
    | with_reducible apply keeps_queueMessage
    | with_reducible refine Keeps.ofPair (by assumption) ?_
    | with_reducible apply Keeps.ite
    | fail_if_no_progress (with_reducible apply Keeps.mk')

theorem keeps_usageFlush (s : State) (k : Nat) {r0 : State} (hr : Keeps r0 s) : Keeps r0 (usageFlush s k) := by
  refine Keeps.trans hr ?_
  clear hr
  unfold usageFlush
  repeat' first
    | with_reducible apply Keeps.refl
    | intro _
    | with_reducible assumption
    | (fail_if_no_progress extract_lets +onlyGivenNames x
       first | (refine Keeps.hyp x ?_ (fun _ => ?_); subst x; rotate_left; clear_value x; rotate_left) | clear_value x)
    | with_reducible apply keeps_sendUsage
    | with_reducible refine Keeps.ofPair (by assumption) ?_
    | with_reducible apply Keeps.foldl
    | with_reducible apply Keeps.foldlPair
    | with_reducible apply Keeps.ite
    | fail_if_no_progress (with_reducible apply Keeps.mk')
    | split

theorem keeps_usageOut (s : State) (k : Nat) {r0 : State} (hr : Keeps r0 s) : Keeps r0 (usageOut s k) := by
  refine Keeps.trans hr ?_
  clear hr
  unfold usageOut
  repeat' first
    | with_reducible apply Keeps.refl
    | intro _
    | with_reducible assumption
    | (fail_if_no_progress extract_lets +onlyGivenNames x
       first | (refine Keeps.hyp x ?_ (fun _ => ?_); subst x; rotate_left; clear_value x; rotate_left) | clear_value x)
    | with_reducible apply keeps_usageFlush
    | with_reducible apply keeps_frameSend
    | with_reducible refine Keeps.ofPair (by assumption) ?_
    | with_reducible apply Keeps.foldl
    | with_reducible apply Keeps.foldlPair
    | with_reducible apply Keeps.ite
    | fail_if_no_progress (with_reducible apply Keeps.mk')

theorem keeps_sendDrive (s : State) (k : Nat) {r0 : State} (hr : Keeps r0 s) : Keeps r0 (sendDrive s k) := by
  refine Keeps.trans hr ?_
  clear hr
  unfold sendDrive
  repeat' first
    | with_reducible apply Keeps.refl
    | intro _
    | with_reducible assumption
    | (fail_if_no_progress extract_lets +onlyGivenNames x
       first | (refine Keeps.hyp x ?_ (fun _ => ?_); subst x; rotate_left; clear_value x; rotate_left) | clear_value x)
    | with_reducible apply keeps_slotSet
    | with_reducible apply keeps_usageFlush
    | with_reducible refine Keeps.ofPair (by assumption) ?_
    | with_reducible apply Keeps.ite
    | fail_if_no_progress (with_reducible apply Keeps.mk')
    | split

theorem keeps_authCert (s : State) (k : Nat) (msg : List Byte) {r0 : State} (hr : Keeps r0 s) : Keeps r0 (authCert s k msg) := by
  refine Keeps.trans hr ?_
  clear hr
  unfold authCert
  repeat' first
    | with_reducible apply Keeps.refl
    | intro _
    | with_reducible assumption
    | (fail_if_no_progress extract_lets +onlyGivenNames x
       first | (refine Keeps.hyp x ?_ (fun _ => ?_); subst x; rotate_left; clear_value x; rotate_left) | clear_value x)
    | with_reducible apply keeps_sendUsage
    | with_reducible apply keeps_State_setSlot
    | with_reducible apply keeps_authFail
    | with_reducible refine Keeps.ofPair (by assumption) ?_
    | with_reducible apply Keeps.ite
    | fail_if_no_progress (with_reducible apply Keeps.mk')
    | split

theorem keeps_usageNow (s : State) (k : Nat) (value : Nat) (seq : Nat) (mac : List Byte) {r0 : State} (hr : Keeps r0 s) : Keeps r0 (usageNow s k value seq mac) := by
  refine Keeps.trans hr ?_
  clear hr
  unfold usageNow
  repeat' first
    | with_reducible apply Keeps.refl
    | intro _
    | with_reducible assumption
    | (fail_if_no_progress extract_lets +onlyGivenNames x
       first | (refine Keeps.hyp x ?_ (fun _ => ?_); subst x; rotate_left; clear_value x; rotate_left) | clear_value x)
    | with_reducible apply keeps_authFail
    | with_reducible apply keeps_State_wr2
    | with_reducible apply keeps_usageClear
    | with_reducible apply keeps_State_wr
    | with_reducible apply keeps_chargeUpdate
    | with_reducible apply keeps_State_setSlot
    | with_reducible refine Keeps.ofPair (by assumption) ?_
    | with_reducible apply Keeps.ite
    | fail_if_no_progress (with_reducible apply Keeps.mk')
    | split

theorem keeps_authTimeout (s : State) (k : Nat) {r0 : State} (hr : Keeps r0 s) : Keeps r0 (authTimeout s k) := by
  refine Keeps.trans hr ?_
  clear hr
  unfold authTimeout
  repeat' first
    | with_reducible apply Keeps.refl
    | intro _
    | with_reducible assumption
    | (fail_if_no_progress extract_lets +onlyGivenNames x
       first | (refine Keeps.hyp x ?_ (fun _ => ?_); subst x; rotate_left; clear_value x; rotate_left) | clear_value x)
    | with_reducible apply keeps_authFail
    | with_reducible refine Keeps.ofPair (by assumption) ?_
    | with_reducible apply Keeps.ite
    | fail_if_no_progress (with_reducible apply Keeps.mk')
    | split

end Sys2Proof.Laws
end

