-- ==== Sys2Proof/Laws/KeepLaneOps.lean ====
section
/-! SUPPORT. `Keeps` of every operation of Machine/LaneOps.lean. -/

namespace Sys2Proof.Laws

open Sys2Proof.Machine

set_option linter.unusedTactic false
set_option linter.unreachableTactic false
set_option linter.tactic.unusedName false

theorem keeps_laneCall (s : State) (n : Nat) {r0 : State} (hr : Keeps r0 s) : Keeps r0 (laneCall s n) := by
  refine Keeps.trans hr ?_
  clear hr
  unfold laneCall
  repeat' first
    | with_reducible apply Keeps.refl
    | intro _
    | with_reducible assumption
    | (fail_if_no_progress extract_lets +onlyGivenNames x
       first | (refine Keeps.hyp x ?_ (fun _ => ?_); subst x; rotate_left; clear_value x; rotate_left) | clear_value x)
    | with_reducible apply keeps_State_setLane
    | with_reducible apply Keeps.ite

theorem keeps_linksDown (s : State) (l : Nat) {r0 : State} (hr : Keeps r0 s) : Keeps r0 (linksDown s l) := by
  refine Keeps.trans hr ?_
  clear hr
  unfold linksDown
  repeat' first
    | with_reducible apply Keeps.refl
    | intro _
    | with_reducible apply keeps_chargeUpdate
    | with_reducible apply keeps_showLinks
    | with_reducible apply Keeps.foldl

theorem keeps_laneDown (s : State) (n : Nat) {r0 : State} (hr : Keeps r0 s) : Keeps r0 (laneDown s n) := by
  refine Keeps.trans hr ?_
  clear hr
  unfold laneDown
  repeat' first
    | with_reducible apply Keeps.refl
    | intro _
    | with_reducible assumption
    | (fail_if_no_progress extract_lets +onlyGivenNames x
       first | (refine Keeps.hyp x ?_ (fun _ => ?_); subst x; rotate_left; clear_value x; rotate_left) | clear_value x)
    | with_reducible apply keeps_State_setLane
    | with_reducible apply keeps_State_wr
    | with_reducible apply keeps_setLstate
    | with_reducible apply keeps_prbsStop
    | with_reducible apply keeps_linksDown
    | with_reducible refine Keeps.ofPair (by assumption) ?_
    | with_reducible apply Keeps.ite
    | fail_if_no_progress (with_reducible apply Keeps.mk')
    | split

theorem keeps_laneStart (s : State) (n : Nat) {r0 : State} (hr : Keeps r0 s) : Keeps r0 (laneStart s n) := by
  refine Keeps.trans hr ?_
  clear hr
  unfold laneStart
  repeat' first
    | with_reducible apply Keeps.refl
    | intro _
    | with_reducible assumption
    | (fail_if_no_progress extract_lets +onlyGivenNames x
       first | (refine Keeps.hyp x ?_ (fun _ => ?_); subst x; rotate_left; clear_value x; rotate_left) | clear_value x)
    | with_reducible apply keeps_State_setLane
    | with_reducible apply keeps_State_wr
    | with_reducible apply keeps_setLstate
    | with_reducible apply keeps_linksDown
    | with_reducible refine Keeps.ofPair (by assumption) ?_
    | with_reducible apply Keeps.foldl
    | with_reducible apply Keeps.foldlPair
    | with_reducible apply Keeps.ite
    | fail_if_no_progress (with_reducible apply Keeps.mk')
    | split

theorem keeps_linksUp (s : State) (l : Nat) {r0 : State} (hr : Keeps r0 s) : Keeps r0 (linksUp s l) := by
  refine Keeps.trans hr ?_
  clear hr
  unfold linksUp
  repeat' first
    | with_reducible apply Keeps.refl
    | intro _
    | with_reducible apply keeps_sendDrive
    | with_reducible apply keeps_waveStart
    | with_reducible apply keeps_linkInit
    | with_reducible apply keeps_showLinks
    | with_reducible apply Keeps.foldl

theorem keeps_moveAdd (s : State) (l : Nat) (b : Nat) (planned : Bool) (asked : Bool) {r0 : State} (hr : Keeps r0 s) : Keeps r0 (moveAdd s l b planned asked) := by
  refine Keeps.trans hr ?_
  clear hr
  unfold moveAdd
  repeat' first
    | with_reducible apply Keeps.refl
    | intro _
    | with_reducible assumption
    | (fail_if_no_progress extract_lets +onlyGivenNames x
       first | (refine Keeps.hyp x ?_ (fun _ => ?_); subst x; rotate_left; clear_value x; rotate_left) | clear_value x)
    | with_reducible apply keeps_moveBegin
    | with_reducible apply Keeps.ite
    | fail_if_no_progress (with_reducible apply Keeps.mk')

theorem keeps_laneStandby (s : State) (n : Nat) {r0 : State} (hr : Keeps r0 s) : Keeps r0 (laneStandby s n) := by
  refine Keeps.trans hr ?_
  clear hr
  unfold laneStandby
  repeat' first
    | with_reducible apply Keeps.refl
    | intro _
    | with_reducible assumption
    | (fail_if_no_progress extract_lets +onlyGivenNames x
       first | (refine Keeps.hyp x ?_ (fun _ => ?_); subst x; rotate_left; clear_value x; rotate_left) | clear_value x)
    | with_reducible apply keeps_latchWord
    | with_reducible apply keeps_shiftWords
    | with_reducible apply keeps_linksUp
    | with_reducible apply keeps_setLstate
    | with_reducible apply keeps_laneClear
    | with_reducible apply keeps_laneSpare
    | with_reducible apply keeps_moveAdd
    | with_reducible refine Keeps.ofPair (by assumption) ?_
    | with_reducible apply Keeps.ite
    | fail_if_no_progress (with_reducible apply Keeps.mk')
    | split

theorem keeps_bootShift (s : State) {r0 : State} (hr : Keeps r0 s) : Keeps r0 (bootShift s) := by
  refine Keeps.trans hr ?_
  clear hr
  unfold bootShift
  repeat' first
    | with_reducible apply Keeps.refl
    | intro _
    | with_reducible assumption
    | with_reducible apply keeps_shiftAll
    | with_reducible refine Keeps.ofPair (by assumption) ?_
    | with_reducible apply Keeps.ite
    | fail_if_no_progress (with_reducible apply Keeps.mk')
    | split

theorem keeps_laneReady (s : State) (n : Nat) (ctle : Nat) (pad : Nat) (taps : List Int) {r0 : State} (hr : Keeps r0 s) : Keeps r0 (laneReady s n ctle pad taps) := by
  refine Keeps.trans hr ?_
  clear hr
  unfold laneReady
  repeat' first
    | with_reducible apply Keeps.refl
    | intro _
    | with_reducible assumption
    | (fail_if_no_progress extract_lets +onlyGivenNames x
       first | (refine Keeps.hyp x ?_ (fun _ => ?_); subst x; rotate_left; clear_value x; rotate_left) | clear_value x)
    | with_reducible apply keeps_State_wr
    | with_reducible apply keeps_State_wri
    | with_reducible apply keeps_State_setLane
    | with_reducible apply keeps_setLstate
    | with_reducible apply keeps_laneClear
    | with_reducible apply keeps_bootShift
    | with_reducible apply keeps_linksUp
    | with_reducible apply keeps_laneStandby
    | with_reducible refine Keeps.ofPair (by assumption) ?_
    | with_reducible apply Keeps.foldl
    | with_reducible apply Keeps.foldlPair
    | with_reducible apply Keeps.ite
    | fail_if_no_progress (with_reducible apply Keeps.mk')
    | split

theorem keeps_laneRetire (s : State) (n : Nat) {r0 : State} (hr : Keeps r0 s) : Keeps r0 (laneRetire s n) := by
  refine Keeps.trans hr ?_
  clear hr
  unfold laneRetire
  repeat' first
    | with_reducible apply Keeps.refl
    | intro _
    | with_reducible assumption
    | (fail_if_no_progress extract_lets +onlyGivenNames x
       first | (refine Keeps.hyp x ?_ (fun _ => ?_); subst x; rotate_left; clear_value x; rotate_left) | clear_value x)
    | with_reducible apply keeps_State_wr
    | with_reducible apply keeps_State_setLane
    | with_reducible apply keeps_repairAdd
    | with_reducible apply keeps_setLstate
    | with_reducible apply keeps_bootShift
    | with_reducible apply keeps_moveEnd
    | with_reducible apply keeps_linksDown
    | with_reducible apply keeps_shiftWords
    | with_reducible apply keeps_setMove
    | with_reducible apply keeps_moveAdd
    | with_reducible refine Keeps.ofPair (by assumption) ?_
    | with_reducible apply Keeps.ite
    | fail_if_no_progress (with_reducible apply Keeps.mk')
    | split

theorem keeps_lockLoss (s : State) (n : Nat) {r0 : State} (hr : Keeps r0 s) : Keeps r0 (lockLoss s n) := by
  refine Keeps.trans hr ?_
  clear hr
  unfold lockLoss
  repeat' first
    | with_reducible apply Keeps.refl
    | intro _
    | with_reducible assumption
    | (fail_if_no_progress extract_lets +onlyGivenNames x
       first | (refine Keeps.hyp x ?_ (fun _ => ?_); subst x; rotate_left; clear_value x; rotate_left) | clear_value x)
    | with_reducible apply keeps_State_wr
    | with_reducible apply keeps_State_count
    | with_reducible apply keeps_laneCall
    | with_reducible apply keeps_State_faultCount
    | with_reducible apply keeps_setLstate
    | with_reducible apply keeps_State_setLane
    | with_reducible apply keeps_linksDown
    | with_reducible apply keeps_laneRetire
    | with_reducible refine Keeps.ofPair (by assumption) ?_
    | with_reducible apply Keeps.ite
    | fail_if_no_progress (with_reducible apply Keeps.mk')
    | split

theorem keeps_homeMap (s : State) {r0 : State} (hr : Keeps r0 s) : Keeps r0 (homeMap s) := by
  refine Keeps.trans hr ?_
  clear hr
  unfold homeMap
  repeat' first
    | with_reducible apply Keeps.refl
    | intro _
    | with_reducible assumption
    | (fail_if_no_progress extract_lets +onlyGivenNames x
       first | (refine Keeps.hyp x ?_ (fun _ => ?_); subst x; rotate_left; clear_value x; rotate_left) | clear_value x)
    | with_reducible apply keeps_State_wr
    | with_reducible apply keeps_State_wrb
    | with_reducible apply keeps_linksUp
    | with_reducible apply keeps_setLstate
    | with_reducible apply keeps_laneClear
    | with_reducible apply keeps_showLinks
    | with_reducible refine Keeps.ofPair (by assumption) ?_
    | with_reducible apply Keeps.foldl
    | with_reducible apply Keeps.foldlPair
    | with_reducible apply Keeps.ite
    | fail_if_no_progress (with_reducible apply Keeps.mk')
    | split

theorem keeps_sparesWait (s : State) {r0 : State} (hr : Keeps r0 s) : Keeps r0 (sparesWait s) := by
  refine Keeps.trans hr ?_
  clear hr
  unfold sparesWait
  repeat' first
    | with_reducible apply Keeps.refl
    | intro _
    | with_reducible apply keeps_laneSpare
    | with_reducible apply Keeps.foldl

theorem keeps_shiftDone (s : State) {r0 : State} (hr : Keeps r0 s) : Keeps r0 (shiftDone s) := by
  refine Keeps.trans hr ?_
  clear hr
  unfold shiftDone
  repeat' first
    | with_reducible apply Keeps.refl
    | intro _
    | with_reducible assumption
    | (fail_if_no_progress extract_lets +onlyGivenNames x
       first | (refine Keeps.hyp x ?_ (fun _ => ?_); subst x; rotate_left; clear_value x; rotate_left) | clear_value x)
    | with_reducible apply keeps_latchWord
    | with_reducible apply keeps_shiftWords
    | with_reducible apply keeps_setMove
    | with_reducible apply keeps_mapLane
    | with_reducible apply keeps_moveCredits
    | with_reducible apply keeps_linksUp
    | with_reducible apply keeps_State_emit
    | with_reducible apply keeps_bootShift
    | with_reducible apply keeps_State_wr
    | with_reducible apply keeps_sparesWait
    | with_reducible apply keeps_homeMap
    | with_reducible refine Keeps.ofPair (by assumption) ?_
    | with_reducible apply Keeps.foldl
    | with_reducible apply Keeps.foldlPair
    | with_reducible apply Keeps.ite
    | fail_if_no_progress (with_reducible apply Keeps.mk')
    | split

theorem keeps_verifyFailed (s : State) {r0 : State} (hr : Keeps r0 s) : Keeps r0 (verifyFailed s) := by
  refine Keeps.trans hr ?_
  clear hr
  unfold verifyFailed
  repeat' first
    | with_reducible apply Keeps.refl
    | intro _
    | with_reducible assumption
    | (fail_if_no_progress extract_lets +onlyGivenNames x
       first | (refine Keeps.hyp x ?_ (fun _ => ?_); subst x; rotate_left; clear_value x; rotate_left) | clear_value x)
    | with_reducible apply keeps_latchWord
    | with_reducible apply keeps_shiftWords
    | with_reducible apply keeps_moveCredits
    | with_reducible apply keeps_State_wr
    | with_reducible apply keeps_State_wrb
    | with_reducible apply keeps_setLstate
    | with_reducible apply keeps_laneClear
    | with_reducible apply keeps_laneSpare
    | with_reducible apply keeps_State_setLane
    | with_reducible apply keeps_showLinks
    | with_reducible apply keeps_State_count
    | with_reducible apply keeps_State_event
    | with_reducible apply keeps_moveEnd
    | with_reducible apply keeps_laneRetire
    | with_reducible refine Keeps.ofPair (by assumption) ?_
    | with_reducible apply Keeps.ite
    | fail_if_no_progress (with_reducible apply Keeps.mk')
    | split

theorem keeps_movesStop (s : State) {r0 : State} (hr : Keeps r0 s) : Keeps r0 (movesStop s) := by
  refine Keeps.trans hr ?_
  clear hr
  unfold movesStop
  repeat' first
    | with_reducible apply Keeps.refl
    | intro _
    | with_reducible assumption
    | (fail_if_no_progress extract_lets +onlyGivenNames x
       first | (refine Keeps.hyp x ?_ (fun _ => ?_); subst x; rotate_left; clear_value x; rotate_left) | clear_value x)
    | with_reducible apply keeps_State_wr
    | with_reducible apply Keeps.ite
    | fail_if_no_progress (with_reducible apply Keeps.mk')

theorem keeps_lanesSleep (s : State) {r0 : State} (hr : Keeps r0 s) : Keeps r0 (lanesSleep s) := by
  refine Keeps.trans hr ?_
  clear hr
  unfold lanesSleep
  repeat' first
    | with_reducible apply Keeps.refl
    | intro _
    | with_reducible apply keeps_laneDown
    | with_reducible apply keeps_movesStop
    | with_reducible apply Keeps.foldl

theorem keeps_lanesWake (s : State) {r0 : State} (hr : Keeps r0 s) : Keeps r0 (lanesWake s) := by
  refine Keeps.trans hr ?_
  clear hr
  unfold lanesWake
  repeat' first
    | with_reducible apply Keeps.refl
    | intro _
    | with_reducible apply keeps_laneCall
    | with_reducible apply Keeps.foldl
    | with_reducible apply Keeps.foldlPair
    | with_reducible apply Keeps.ite

theorem keeps_cmdMove (s : State) (l : Nat) {r0 : State} (hr : Keeps r0 s) : Keeps r0 (cmdMove s l) := by
  refine Keeps.trans hr ?_
  clear hr
  unfold cmdMove
  repeat' first
    | with_reducible apply Keeps.refl
    | intro _
    | with_reducible assumption
    | (fail_if_no_progress extract_lets +onlyGivenNames x
       first | (refine Keeps.hyp x ?_ (fun _ => ?_); subst x; rotate_left; clear_value x; rotate_left) | clear_value x)
    | with_reducible apply keeps_moveAdd
    | with_reducible apply keeps_State_wr
    | with_reducible refine Keeps.ofPair (by assumption) ?_
    | with_reducible apply Keeps.ite
    | fail_if_no_progress (with_reducible apply Keeps.mk')
    | split

theorem keeps_cmdRetire (s : State) (n : Nat) {r0 : State} (hr : Keeps r0 s) : Keeps r0 (cmdRetire s n) := by
  refine Keeps.trans hr ?_
  clear hr
  unfold cmdRetire
  repeat' first
    | with_reducible apply Keeps.refl
    | intro _
    | with_reducible apply keeps_State_wr
    | with_reducible apply keeps_laneRetire
    | with_reducible apply Keeps.ite

theorem keeps_cmdRestore (s : State) (n : Nat) {r0 : State} (hr : Keeps r0 s) : Keeps r0 (cmdRestore s n) := by
  refine Keeps.trans hr ?_
  clear hr
  unfold cmdRestore
  repeat' first
    | with_reducible apply Keeps.refl
    | intro _
    | with_reducible assumption
    | (fail_if_no_progress extract_lets +onlyGivenNames x
       first | (refine Keeps.hyp x ?_ (fun _ => ?_); subst x; rotate_left; clear_value x; rotate_left) | clear_value x)
    | with_reducible apply keeps_State_wr
    | with_reducible apply keeps_latchWord
    | with_reducible apply keeps_shiftWords
    | with_reducible apply keeps_repairDrop
    | with_reducible apply keeps_setLstate
    | with_reducible apply keeps_State_setLane
    | with_reducible refine Keeps.ofPair (by assumption) ?_
    | with_reducible apply Keeps.ite
    | fail_if_no_progress (with_reducible apply Keeps.mk')
    | split

theorem keeps_eyeMeasure (s : State) (n : Nat) (w : Nat) (h : Nat) {r0 : State} (hr : Keeps r0 s) : Keeps r0 (eyeMeasure s n w h) := by
  refine Keeps.trans hr ?_
  clear hr
  unfold eyeMeasure
  repeat' first
    | with_reducible apply Keeps.refl
    | intro _
    | with_reducible assumption
    | (fail_if_no_progress extract_lets +onlyGivenNames x
       first | (refine Keeps.hyp x ?_ (fun _ => ?_); subst x; rotate_left; clear_value x; rotate_left) | clear_value x)
    | with_reducible apply keeps_State_setQuality
    | with_reducible apply keeps_laneStandby
    | with_reducible apply keeps_State_setLane
    | with_reducible apply keeps_laneRetire
    | with_reducible apply keeps_recalDue
    | with_reducible refine Keeps.ofPair (by assumption) ?_
    | with_reducible apply Keeps.ite
    | fail_if_no_progress (with_reducible apply Keeps.mk')
    | split

theorem keeps_laneCmd (s : State) (op : Nat) (lane : Nat) {r0 : State} (hr : Keeps r0 s) : Keeps r0 (laneCmd s op lane) := by
  refine Keeps.trans hr ?_
  clear hr
  unfold laneCmd
  repeat' first
    | with_reducible apply Keeps.refl
    | intro _
    | with_reducible assumption
    | with_reducible apply keeps_cmdMove
    | with_reducible apply keeps_cmdRetire
    | with_reducible apply keeps_cmdRestore
    | with_reducible refine Keeps.ofPair (by assumption) ?_
    | with_reducible apply Keeps.ite
    | fail_if_no_progress (with_reducible apply Keeps.mk')
    | split

theorem keeps_execLaneMove (t : Nat) (lane : Nat) (s : State) {r0 : State} (hr : Keeps r0 s) : KeepsOut r0 (execLaneMove t lane s) := by
  refine KeepsOut.trans hr ?_
  clear hr
  unfold execLaneMove
  repeat' first
    | with_reducible apply Keeps.refl
    | intro _
    | with_reducible assumption
    | with_reducible apply keeps_laneCmd
    | with_reducible apply keeps_State_at
    | with_reducible apply KeepsOut.next
    | with_reducible apply KeepsOut.onEngine
    | with_reducible apply KeepsOut.ite
    | with_reducible refine Keeps.ofPair (by assumption) ?_
    | with_reducible apply Keeps.ite
    | fail_if_no_progress (with_reducible apply Keeps.mk')

theorem keeps_execLaneRestore (t : Nat) (lane : Nat) (s : State) {r0 : State} (hr : Keeps r0 s) : KeepsOut r0 (execLaneRestore t lane s) := by
  refine KeepsOut.trans hr ?_
  clear hr
  unfold execLaneRestore
  repeat' first
    | with_reducible apply Keeps.refl
    | intro _
    | with_reducible assumption
    | with_reducible apply keeps_laneCmd
    | with_reducible apply keeps_State_at
    | with_reducible apply KeepsOut.next
    | with_reducible apply KeepsOut.onEngine
    | with_reducible apply KeepsOut.ite
    | with_reducible refine Keeps.ofPair (by assumption) ?_
    | with_reducible apply Keeps.ite
    | fail_if_no_progress (with_reducible apply Keeps.mk')

theorem keeps_execLaneSwitchVerifyTimeout (t : Nat) (s : State) {r0 : State} (hr : Keeps r0 s) : KeepsOut r0 (execLaneSwitchVerifyTimeout t s) := by
  refine KeepsOut.trans hr ?_
  clear hr
  unfold execLaneSwitchVerifyTimeout
  repeat' first
    | with_reducible apply Keeps.refl
    | intro _
    | with_reducible apply keeps_verifyFailed
    | with_reducible apply keeps_State_at
    | with_reducible apply KeepsOut.next

theorem keeps_prbsInject (s : State) (n : Nat) {r0 : State} (hr : Keeps r0 s) : Keeps r0 (prbsInject s n) := by
  refine Keeps.trans hr ?_
  clear hr
  unfold prbsInject
  repeat' first
    | with_reducible apply Keeps.refl
    | intro _
    | with_reducible assumption
    | (fail_if_no_progress extract_lets +onlyGivenNames x
       first | (refine Keeps.hyp x ?_ (fun _ => ?_); subst x; rotate_left; clear_value x; rotate_left) | clear_value x)
    | with_reducible apply keeps_State_emit
    | with_reducible apply keeps_State_count
    | with_reducible refine Keeps.ofPair (by assumption) ?_
    | with_reducible apply Keeps.ite
    | fail_if_no_progress (with_reducible apply Keeps.mk')
    | split

theorem keeps_execPrbsInjectOnce (t : Nat) (lane : Nat) (s : State) {r0 : State} (hr : Keeps r0 s) : KeepsOut r0 (execPrbsInjectOnce t lane s) := by
  refine KeepsOut.trans hr ?_
  clear hr
  unfold execPrbsInjectOnce
  repeat' first
    | with_reducible apply Keeps.refl
    | intro _
    | with_reducible assumption
    | (fail_if_no_progress extract_lets +onlyGivenNames x
       first | (refine KeepsOut.hyp x ?_ (fun _ => ?_); subst x; rotate_left; clear_value x; rotate_left) | clear_value x)
    | with_reducible apply keeps_State_at
    | with_reducible apply keeps_prbsInject
    | with_reducible apply KeepsOut.next
    | with_reducible apply KeepsOut.onEngine
    | with_reducible apply KeepsOut.ite
    | with_reducible refine Keeps.ofPair (by assumption) ?_
    | with_reducible apply Keeps.ite
    | fail_if_no_progress (with_reducible apply Keeps.mk')
    | split

theorem keeps_execPrbsInjectPeriodic (t : Nat) (lane : Nat) (s : State) {r0 : State} (hr : Keeps r0 s) : KeepsOut r0 (execPrbsInjectPeriodic t lane s) := by
  refine KeepsOut.trans hr ?_
  clear hr
  unfold execPrbsInjectPeriodic
  repeat' first
    | with_reducible apply Keeps.refl
    | intro _
    | with_reducible assumption
    | (fail_if_no_progress extract_lets +onlyGivenNames x
       first | (refine KeepsOut.hyp x ?_ (fun _ => ?_); subst x; rotate_left; clear_value x; rotate_left) | clear_value x)
    | with_reducible apply keeps_State_at
    | with_reducible apply keeps_prbsInject
    | with_reducible apply KeepsOut.next
    | with_reducible apply KeepsOut.onEngine
    | with_reducible apply KeepsOut.ite
    | with_reducible refine Keeps.ofPair (by assumption) ?_
    | with_reducible apply Keeps.ite
    | fail_if_no_progress (with_reducible apply Keeps.mk')
    | split

theorem keeps_execEyeMeasurement (t : Nat) (lane : Nat) (w : Nat) (h : Nat) (s : State) {r0 : State} (hr : Keeps r0 s) : KeepsOut r0 (execEyeMeasurement t lane w h s) := by
  refine KeepsOut.trans hr ?_
  clear hr
  unfold execEyeMeasurement
  repeat' first
    | with_reducible apply Keeps.refl
    | intro _
    | with_reducible assumption
    | (fail_if_no_progress extract_lets +onlyGivenNames x
       first | (refine KeepsOut.hyp x ?_ (fun _ => ?_); subst x; rotate_left; clear_value x; rotate_left) | clear_value x)
    | (fail_if_no_progress extract_lets +onlyGivenNames x
       first | (refine Keeps.hyp x ?_ (fun _ => ?_); subst x; rotate_left; clear_value x; rotate_left) | clear_value x)
    | with_reducible apply keeps_State_at
    | with_reducible apply keeps_eyeMeasure
    | with_reducible apply KeepsOut.next
    | with_reducible apply KeepsOut.ite
    | with_reducible apply KeepsOut.onEngine
    | with_reducible apply Keeps.ite

theorem keeps_execLaneMoveReleaseWaitExpiry (t : Nat) (s : State) {r0 : State} (hr : Keeps r0 s) : KeepsOut r0 (execLaneMoveReleaseWaitExpiry t s) := by
  refine KeepsOut.trans hr ?_
  clear hr
  unfold execLaneMoveReleaseWaitExpiry
  repeat' first
    | with_reducible apply Keeps.refl
    | intro _
    | with_reducible assumption
    | (fail_if_no_progress extract_lets +onlyGivenNames x
       first | (refine KeepsOut.hyp x ?_ (fun _ => ?_); subst x; rotate_left; clear_value x; rotate_left) | clear_value x)
    | (fail_if_no_progress extract_lets +onlyGivenNames x
       first | (refine Keeps.hyp x ?_ (fun _ => ?_); subst x; rotate_left; clear_value x; rotate_left) | clear_value x)
    | with_reducible apply keeps_State_at
    | with_reducible apply keeps_planLatch
    | with_reducible apply KeepsOut.next
    | with_reducible apply KeepsOut.ite
    | with_reducible apply KeepsOut.onEngine
    | with_reducible refine Keeps.ofPair (by assumption) ?_
    | with_reducible apply Keeps.ite
    | fail_if_no_progress (with_reducible apply Keeps.mk')
    | split

theorem keeps_execPrbsErrorLimit (t : Nat) (lane : Nat) (errors : Nat) (s : State) {r0 : State} (hr : Keeps r0 s) : KeepsOut r0 (execPrbsErrorLimit t lane errors s) := by
  refine KeepsOut.trans hr ?_
  clear hr
  unfold execPrbsErrorLimit
  repeat' first
    | with_reducible apply Keeps.refl
    | intro _
    | with_reducible assumption
    | (fail_if_no_progress extract_lets +onlyGivenNames x
       first | (refine KeepsOut.hyp x ?_ (fun _ => ?_); subst x; rotate_left; clear_value x; rotate_left) | clear_value x)
    | with_reducible apply keeps_State_at
    | with_reducible apply keeps_State_count
    | with_reducible apply keeps_recalDue
    | with_reducible apply keeps_State_setLane
    | with_reducible apply KeepsOut.next
    | with_reducible apply KeepsOut.onEngine
    | with_reducible apply KeepsOut.ite
    | with_reducible refine Keeps.ofPair (by assumption) ?_
    | with_reducible apply Keeps.ite
    | fail_if_no_progress (with_reducible apply Keeps.mk')
    | split

theorem keeps_execPrbsCheckerSync (t : Nat) (lane : Nat) (s : State) {r0 : State} (hr : Keeps r0 s) : KeepsOut r0 (execPrbsCheckerSync t lane s) := by
  refine KeepsOut.trans hr ?_
  clear hr
  unfold execPrbsCheckerSync
  repeat' first
    | with_reducible apply Keeps.refl
    | intro _
    | with_reducible assumption
    | (fail_if_no_progress extract_lets +onlyGivenNames x
       first | (refine KeepsOut.hyp x ?_ (fun _ => ?_); subst x; rotate_left; clear_value x; rotate_left) | clear_value x)
    | (fail_if_no_progress extract_lets +onlyGivenNames x
       first | (refine Keeps.hyp x ?_ (fun _ => ?_); subst x; rotate_left; clear_value x; rotate_left) | clear_value x)
    | with_reducible apply keeps_State_at
    | with_reducible apply keeps_State_wr
    | with_reducible apply keeps_State_setLane
    | with_reducible apply KeepsOut.next
    | with_reducible apply KeepsOut.ite
    | with_reducible apply KeepsOut.onEngine
    | with_reducible apply Keeps.ite

end Sys2Proof.Laws
end

