-- ==== Sys2Proof/Laws/KeepCompare.lean ====
section
/-! SUPPORT. `Keeps` of every operation of Machine/Compare.lean. -/

namespace Sys2Proof.Laws

open Sys2Proof.Machine

set_option linter.unusedTactic false
set_option linter.unreachableTactic false
set_option linter.tactic.unusedName false

theorem keeps_densAdd (s : State) (b : Nat) (i : Nat) (c : Nat) (w : Nat) (eps : Int) {r0 : State} (hr : Keeps r0 s) : Keeps r0 (densAdd s b i c w eps) := by
  refine Keeps.trans hr ?_
  clear hr
  unfold densAdd
  repeat' first
    | with_reducible apply Keeps.refl
    | intro _
    | with_reducible assumption
    | (fail_if_no_progress extract_lets +onlyGivenNames x
       first | (refine Keeps.hyp x ?_ (fun _ => ?_); subst x; rotate_left; clear_value x; rotate_left) | clear_value x)
    | with_reducible apply keeps_State_pokeNat
    | with_reducible apply Keeps.ite

theorem keeps_densPixel (s : State) (grp : Nat) (idx : Nat) (inRegion : Bool) (c : Cmp) {r0 : State} (hr : Keeps r0 s) : Keeps r0 (densPixel s grp idx inRegion c) := by
  refine Keeps.trans hr ?_
  clear hr
  unfold densPixel
  repeat' first
    | with_reducible apply Keeps.refl
    | intro _
    | with_reducible assumption
    | (fail_if_no_progress extract_lets +onlyGivenNames x
       first | (refine Keeps.hyp x ?_ (fun _ => ?_); subst x; rotate_left; clear_value x; rotate_left) | clear_value x)
    | with_reducible apply keeps_densAdd
    | with_reducible apply Keeps.foldl
    | with_reducible apply Keeps.foldlPair
    | with_reducible apply Keeps.ite

theorem keeps_regAdd (s : State) (b : Nat) (slot : Nat) (gx : Int) (gy : Int) (d : Int) {r0 : State} (hr : Keeps r0 s) : Keeps r0 (regAdd s b slot gx gy d) := by
  refine Keeps.trans hr ?_
  clear hr
  unfold regAdd
  repeat' first
    | with_reducible apply Keeps.refl
    | intro _
    | with_reducible assumption
    | (fail_if_no_progress extract_lets +onlyGivenNames x
       first | (refine Keeps.hyp x ?_ (fun _ => ?_); subst x; rotate_left; clear_value x; rotate_left) | subst x)
    | with_reducible apply keeps_State_pokeNat

theorem keeps_regPixel (s : State) (grp : Nat) (idx : Nat) (c : Cmp) {r0 : State} (hr : Keeps r0 s) : Keeps r0 (regPixel s grp idx c) := by
  refine Keeps.trans hr ?_
  clear hr
  unfold regPixel
  repeat' first
    | with_reducible apply Keeps.refl
    | intro _
    | with_reducible assumption
    | (fail_if_no_progress extract_lets +onlyGivenNames x
       first | (refine Keeps.hyp x ?_ (fun _ => ?_); subst x; rotate_left; clear_value x; rotate_left) | clear_value x)
    | with_reducible apply keeps_regAdd
    | with_reducible apply Keeps.foldl

theorem keeps_cuAdd (s : State) (grp : Nat) (cs : List Cmp) (regions : List (List Cmp)) {r0 : State} (hr : Keeps r0 s) : Keeps r0 (cuAdd s grp cs regions) := by
  refine Keeps.trans hr ?_
  clear hr
  unfold cuAdd
  repeat' first
    | with_reducible apply Keeps.refl
    | intro _
    | with_reducible assumption
    | (fail_if_no_progress extract_lets +onlyGivenNames x
       first | (refine Keeps.hyp x ?_ (fun _ => ?_); subst x; rotate_left; clear_value x; rotate_left) | clear_value x)
    | with_reducible apply keeps_regPixel
    | with_reducible apply keeps_densPixel
    | with_reducible apply Keeps.foldl
    | with_reducible apply Keeps.foldlPair
    | with_reducible apply Keeps.ite

end Sys2Proof.Laws
end

