-- ==== Sys2Proof/Laws/KeepInsp.lean ====
section
/-! SUPPORT. `Keeps` of every operation of Machine/Insp.lean. -/

namespace Sys2Proof.Laws

open Sys2Proof.Machine

set_option linter.unusedTactic false
set_option linter.unreachableTactic false
set_option linter.tactic.unusedName false

theorem keeps_State_setCamPort (s : State) (n : Nat) (x2 : CamPort) {r0 : State} (hr : Keeps r0 s) : Keeps r0 (State.setCamPort s n x2) := by
  refine Keeps.trans hr ?_
  clear hr
  unfold State.setCamPort
  repeat' first
    | with_reducible apply Keeps.refl
    | intro _
    | with_reducible assumption
    | (fail_if_no_progress extract_lets +onlyGivenNames x
       first | (refine Keeps.hyp x ?_ (fun _ => ?_); subst x; rotate_left; clear_value x; rotate_left) | clear_value x)
    | fail_if_no_progress (with_reducible apply Keeps.mk')

theorem keeps_showPort (s : State) (n : Nat) (gear : Nat) {r0 : State} (hr : Keeps r0 s) : Keeps r0 (showPort s n gear) := by
  refine Keeps.trans hr ?_
  clear hr
  unfold showPort
  repeat' first
    | with_reducible apply Keeps.refl
    | intro _
    | with_reducible apply keeps_State_wrb
    | with_reducible apply keeps_State_wr

theorem keeps_portStart (s : State) (n : Nat) (edge : Bool) {r0 : State} (hr : Keeps r0 s) : Keeps r0 (portStart s n edge) := by
  refine Keeps.trans hr ?_
  clear hr
  unfold portStart
  repeat' first
    | with_reducible apply Keeps.refl
    | intro _
    | with_reducible assumption
    | (fail_if_no_progress extract_lets +onlyGivenNames x
       first | (refine Keeps.hyp x ?_ (fun _ => ?_); subst x; rotate_left; clear_value x; rotate_left) | clear_value x)
    | with_reducible apply keeps_showPort
    | with_reducible apply keeps_State_setCamPort
    | with_reducible refine Keeps.ofPair (by assumption) ?_
    | with_reducible apply Keeps.ite
    | fail_if_no_progress (with_reducible apply Keeps.mk')
    | split

theorem keeps_portStop (s : State) (n : Nat) {r0 : State} (hr : Keeps r0 s) : Keeps r0 (portStop s n) := by
  refine Keeps.trans hr ?_
  clear hr
  unfold portStop
  repeat' first
    | with_reducible apply Keeps.refl
    | intro _
    | with_reducible assumption
    | with_reducible apply keeps_showPort
    | with_reducible apply keeps_State_setCamPort
    | with_reducible refine Keeps.ofPair (by assumption) ?_
    | with_reducible apply Keeps.ite
    | fail_if_no_progress (with_reducible apply Keeps.mk')

theorem keeps_portTrained (s : State) (n : Nat) (ok : Bool) {r0 : State} (hr : Keeps r0 s) : Keeps r0 (portTrained s n ok) := by
  refine Keeps.trans hr ?_
  clear hr
  unfold portTrained
  repeat' first
    | with_reducible apply Keeps.refl
    | intro _
    | with_reducible assumption
    | (fail_if_no_progress extract_lets +onlyGivenNames x
       first | (refine Keeps.hyp x ?_ (fun _ => ?_); subst x; rotate_left; clear_value x; rotate_left) | clear_value x)
    | with_reducible apply keeps_State_setCamPort
    | with_reducible apply keeps_showPort
    | with_reducible apply keeps_State_event
    | with_reducible apply Keeps.ite

theorem keeps_portFail (s : State) (n : Nat) (lost : Bool) {r0 : State} (hr : Keeps r0 s) : Keeps r0 (portFail s n lost) := by
  refine Keeps.trans hr ?_
  clear hr
  unfold portFail
  repeat' first
    | with_reducible apply Keeps.refl
    | intro _
    | with_reducible assumption
    | (fail_if_no_progress extract_lets +onlyGivenNames x
       first | (refine Keeps.hyp x ?_ (fun _ => ?_); subst x; rotate_left; clear_value x; rotate_left) | clear_value x)
    | with_reducible apply keeps_State_count
    | with_reducible apply keeps_showPort
    | with_reducible apply keeps_State_setCamPort
    | with_reducible apply Keeps.ite

theorem keeps_csiPacket (s : State) (n : Nat) (vc : Nat) (dtype : Nat) (ecc : Nat) (crcOk : Bool) (payload : List Byte) {r0 : State} (hr : Keeps r0 s) : Keeps r0 (csiPacket s n vc dtype ecc crcOk payload) := by
  refine Keeps.trans hr ?_
  clear hr
  unfold csiPacket
  repeat' first
    | with_reducible apply Keeps.refl
    | intro _
    | with_reducible assumption
    | (fail_if_no_progress extract_lets +onlyGivenNames x
       first | (refine Keeps.hyp x ?_ (fun _ => ?_); subst x; rotate_left; clear_value x; rotate_left) | clear_value x)
    | with_reducible apply keeps_State_count
    | with_reducible apply keeps_State_setCamPort
    | with_reducible apply Keeps.ite

theorem keeps_showGeom (s : State) (p : Nat) {r0 : State} (hr : Keeps r0 s) : Keeps r0 (showGeom s p) := by
  refine Keeps.trans hr ?_
  clear hr
  unfold showGeom
  repeat' first
    | with_reducible apply Keeps.refl
    | intro _
    | with_reducible assumption
    | (fail_if_no_progress extract_lets +onlyGivenNames x
       first | (refine Keeps.hyp x ?_ (fun _ => ?_); subst x; rotate_left; clear_value x; rotate_left) | clear_value x)
    | with_reducible apply keeps_State_wri

theorem keeps_geomRestart (s : State) (p : Nat) {r0 : State} (hr : Keeps r0 s) : Keeps r0 (geomRestart s p) := by
  refine Keeps.trans hr ?_
  clear hr
  unfold geomRestart
  repeat' first
    | with_reducible apply Keeps.refl
    | intro _
    | with_reducible assumption
    | (fail_if_no_progress extract_lets +onlyGivenNames x
       first | (refine Keeps.hyp x ?_ (fun _ => ?_); subst x; rotate_left; clear_value x; rotate_left) | clear_value x)
    | with_reducible apply keeps_showGeom
    | with_reducible apply keeps_State_setPipe

theorem keeps_showPipe (s : State) (p : Nat) {r0 : State} (hr : Keeps r0 s) : Keeps r0 (showPipe s p) := by
  refine Keeps.trans hr ?_
  clear hr
  unfold showPipe
  repeat' first
    | with_reducible apply Keeps.refl
    | intro _
    | with_reducible assumption
    | (fail_if_no_progress extract_lets +onlyGivenNames x
       first | (refine Keeps.hyp x ?_ (fun _ => ?_); subst x; rotate_left; clear_value x; rotate_left) | clear_value x)
    | with_reducible apply keeps_State_wr2
    | with_reducible apply keeps_State_wr

theorem keeps_pipeBind (s : State) (p : Nat) {r0 : State} (hr : Keeps r0 s) : Keeps r0 (pipeBind s p) := by
  refine Keeps.trans hr ?_
  clear hr
  unfold pipeBind
  repeat' first
    | with_reducible apply Keeps.refl
    | intro _
    | with_reducible assumption
    | (fail_if_no_progress extract_lets +onlyGivenNames x
       first | (refine Keeps.hyp x ?_ (fun _ => ?_); subst x; rotate_left; clear_value x; rotate_left) | clear_value x)
    | with_reducible apply keeps_State_wrb
    | with_reducible apply keeps_State_wr
    | with_reducible apply keeps_State_setPipe
    | with_reducible apply keeps_geomRestart
    | with_reducible refine Keeps.ofPair (by assumption) ?_
    | with_reducible apply Keeps.foldl
    | with_reducible apply Keeps.foldlPair
    | with_reducible apply Keeps.ite
    | fail_if_no_progress (with_reducible apply Keeps.mk')
    | split

theorem keeps_cciWrite (s : State) (p : Nat) (reg : EF) (value : Nat) {r0 : State} (hr : Keeps r0 s) : Keeps r0 (cciWrite s p reg value) := by
  refine Keeps.trans hr ?_
  clear hr
  unfold cciWrite
  repeat' first
    | with_reducible apply Keeps.refl
    | intro _
    | with_reducible assumption
    | (fail_if_no_progress extract_lets +onlyGivenNames x
       first | (refine Keeps.hyp x ?_ (fun _ => ?_); subst x; rotate_left; clear_value x; rotate_left) | clear_value x)
    | with_reducible apply keeps_State_emit
    | with_reducible apply Keeps.ite

theorem keeps_expoSend (s : State) (p : Nat) (e : Expo) {r0 : State} (hr : Keeps r0 s) : Keeps r0 (expoSend s p e) := by
  refine Keeps.trans hr ?_
  clear hr
  unfold expoSend
  repeat' first
    | with_reducible apply Keeps.refl
    | intro _
    | with_reducible apply keeps_cciWrite

theorem keeps_expoCommit (s : State) (p : Nat) {r0 : State} (hr : Keeps r0 s) : Keeps r0 (expoCommit s p) := by
  refine Keeps.trans hr ?_
  clear hr
  unfold expoCommit
  repeat' first
    | with_reducible apply Keeps.refl
    | intro _
    | with_reducible apply keeps_cciWrite

theorem keeps_expoWrite (s : State) (p : Nat) (b : List Byte) {r0 : State} (hr : Keeps r0 s) : Keeps r0 (expoWrite s p b).1 := by
  refine Keeps.trans hr ?_
  clear hr
  unfold expoWrite
  repeat' first
    | with_reducible apply Keeps.refl
    | intro _
    | with_reducible assumption
    | (fail_if_no_progress extract_lets +onlyGivenNames x
       first | (refine Keeps.hyp x ?_ (fun _ => ?_); subst x; rotate_left; clear_value x; rotate_left) | clear_value x)
    | with_reducible apply keeps_State_setPipe
    | with_reducible apply keeps_expoCommit
    | with_reducible apply keeps_expoSend
    | with_reducible apply keeps_showPipe
    | with_reducible apply Keeps.ite1
    | with_reducible apply Keeps.ite

theorem keeps_expoGo (s : State) {r0 : State} (hr : Keeps r0 s) : Keeps r0 (expoGo s) := by
  refine Keeps.trans hr ?_
  clear hr
  unfold expoGo
  repeat' first
    | with_reducible apply Keeps.refl
    | intro _
    | with_reducible assumption
    | (fail_if_no_progress extract_lets +onlyGivenNames x
       first | (refine Keeps.hyp x ?_ (fun _ => ?_); subst x; rotate_left; clear_value x; rotate_left) | clear_value x)
    | with_reducible apply keeps_expoWrite
    | with_reducible apply keeps_State_wr2

theorem keeps_expoCheck (s : State) (p : Nat) (value : Nat) {r0 : State} (hr : Keeps r0 s) : Keeps r0 (expoCheck s p value) := by
  refine Keeps.trans hr ?_
  clear hr
  unfold expoCheck
  repeat' first
    | with_reducible apply Keeps.refl
    | intro _
    | with_reducible assumption
    | (fail_if_no_progress extract_lets +onlyGivenNames x
       first | (refine Keeps.hyp x ?_ (fun _ => ?_); subst x; rotate_left; clear_value x; rotate_left) | clear_value x)
    | with_reducible apply keeps_State_setPipe
    | with_reducible apply keeps_State_event
    | with_reducible refine Keeps.ofPair (by assumption) ?_
    | with_reducible apply Keeps.ite
    | fail_if_no_progress (with_reducible apply Keeps.mk')
    | split

theorem keeps_frameView (s : State) (p : Nat) (f : Frame) {r0 : State} (hr : Keeps r0 s) : Keeps r0 (frameView s p f) := by
  refine Keeps.trans hr ?_
  clear hr
  unfold frameView
  repeat' first
    | with_reducible apply Keeps.refl
    | intro _
    | with_reducible assumption
    | with_reducible refine Keeps.ofPair (by assumption) ?_
    | with_reducible apply Keeps.ite
    | fail_if_no_progress (with_reducible apply Keeps.mk')
    | split

theorem keeps_frameBegin (s : State) (p : Nat) (num : Nat) (m : Nat) {r0 : State} (hr : Keeps r0 s) : Keeps r0 (frameBegin s p num m) := by
  refine Keeps.trans hr ?_
  clear hr
  unfold frameBegin
  repeat' first
    | with_reducible apply Keeps.refl
    | intro _
    | with_reducible assumption
    | (fail_if_no_progress extract_lets +onlyGivenNames x
       first | (refine Keeps.hyp x ?_ (fun _ => ?_); subst x; rotate_left; clear_value x; rotate_left) | clear_value x)
    | with_reducible apply keeps_State_setGroup
    | with_reducible apply keeps_State_setPipe
    | with_reducible apply keeps_expoSend
    | with_reducible apply keeps_showGeom
    | with_reducible apply keeps_showPipe
    | with_reducible refine Keeps.ofPair (by assumption) ?_
    | with_reducible apply Keeps.ite
    | fail_if_no_progress (with_reducible apply Keeps.mk')
    | split

theorem keeps_pipeTrigger (s : State) (p : Nat) (g : Nat) (k : Nat) {r0 : State} (hr : Keeps r0 s) : Keeps r0 (pipeTrigger s p g k) := by
  refine Keeps.trans hr ?_
  clear hr
  unfold pipeTrigger
  repeat' first
    | with_reducible apply Keeps.refl
    | intro _
    | with_reducible assumption
    | (fail_if_no_progress extract_lets +onlyGivenNames x
       first | (refine Keeps.hyp x ?_ (fun _ => ?_); subst x; rotate_left; clear_value x; rotate_left) | clear_value x)
    | with_reducible apply keeps_State_setPipe
    | with_reducible apply keeps_expoCommit
    | with_reducible refine Keeps.ofPair (by assumption) ?_
    | with_reducible apply Keeps.ite
    | fail_if_no_progress (with_reducible apply Keeps.mk')
    | split

theorem keeps_groupCount (s : State) (g : Nat) {r0 : State} (hr : Keeps r0 s) : ∀ t, groupCount s g = some t → Keeps r0 t := by
  intro t e
  unfold groupCount at e
  dsimp only at e
  split at e
  · cases e
  · split at e
    · cases e; exact keeps_State_wr2i _ _ _ _ _ (keeps_State_setGroup _ _ _ hr)
    · split at e
      · cases e; exact keeps_State_setGroup _ _ _ hr
      · cases e

theorem keeps_lineLost (s : State) (p : Nat) {r0 : State} (hr : Keeps r0 s) : Keeps r0 (lineLost s p) := by
  refine Keeps.trans hr ?_
  clear hr
  unfold lineLost
  repeat' first
    | with_reducible apply Keeps.refl
    | intro _
    | with_reducible assumption
    | (fail_if_no_progress extract_lets +onlyGivenNames x
       first | (refine Keeps.hyp x ?_ (fun _ => ?_); subst x; rotate_left; clear_value x; rotate_left) | clear_value x)
    | with_reducible apply keeps_frameView
    | with_reducible apply keeps_State_setPipe
    | with_reducible apply keeps_State_count
    | with_reducible refine Keeps.ofPair (by assumption) ?_
    | with_reducible apply Keeps.ite
    | fail_if_no_progress (with_reducible apply Keeps.mk')
    | split

theorem keeps_linesLost (x0 : Nat) (x1 : State) (x2 : Nat) {r0 : State} (hr : Keeps r0 x1) : Keeps r0 (linesLost x0 x1 x2) := by
  refine Keeps.trans hr ?_
  clear hr
  fun_induction linesLost x0 x1 x2
  repeat' first
    | with_reducible apply Keeps.refl
    | intro _
    | with_reducible refine Keeps.trans ?_ (by assumption)
    | with_reducible apply keeps_lineLost

theorem keeps_pipeLine (s : State) (p : Nat) (dtype : Nat) (payload : List Byte) {r0 : State} (hr : Keeps r0 s) : Keeps r0 (pipeLine s p dtype payload) := by
  refine Keeps.trans hr ?_
  clear hr
  unfold pipeLine
  repeat' first
    | with_reducible apply Keeps.refl
    | intro _
    | with_reducible assumption
    | (fail_if_no_progress extract_lets +onlyGivenNames x
       first | (refine Keeps.hyp x ?_ (fun _ => ?_); subst x; rotate_left; clear_value x; rotate_left) | clear_value x)
    | with_reducible apply keeps_linesLost
    | with_reducible apply keeps_State_count
    | with_reducible apply keeps_frameView
    | with_reducible apply keeps_State_setPipe
    | with_reducible refine Keeps.ofPair (by assumption) ?_
    | with_reducible apply Keeps.ite
    | fail_if_no_progress (with_reducible apply Keeps.mk')
    | split

theorem keeps_lineReceive (s : State) (port : Nat) (vc : Nat) {r0 : State} (hr : Keeps r0 s) : Keeps r0 (lineReceive s port vc) := by
  refine Keeps.trans hr ?_
  clear hr
  unfold lineReceive
  repeat' first
    | with_reducible apply Keeps.refl
    | intro _
    | with_reducible assumption
    | (fail_if_no_progress extract_lets +onlyGivenNames x
       first | (refine Keeps.hyp x ?_ (fun _ => ?_); subst x; rotate_left; clear_value x; rotate_left) | clear_value x)
    | with_reducible apply keeps_State_setCamPort
    | with_reducible apply keeps_State_count
    | with_reducible apply keeps_pipeLine
    | with_reducible refine Keeps.ofPair (by assumption) ?_
    | with_reducible apply Keeps.ite
    | fail_if_no_progress (with_reducible apply Keeps.mk')
    | split

theorem keeps_statPost (s : State) (p : Nat) (g : Nat) (f : Frame) (flags : Nat) {r0 : State} (hr : Keeps r0 s) : Keeps r0 (statPost s p g f flags) := by
  refine Keeps.trans hr ?_
  clear hr
  unfold statPost
  repeat' first
    | with_reducible apply Keeps.refl
    | intro _
    | with_reducible assumption
    | (fail_if_no_progress extract_lets +onlyGivenNames x
       first | (refine Keeps.hyp x ?_ (fun _ => ?_); subst x; rotate_left; clear_value x; rotate_left) | clear_value x)
    | with_reducible apply keeps_State_pokeBytes
    | with_reducible apply keeps_ringPost
    | with_reducible apply keeps_State_count
    | with_reducible apply Keeps.ite

theorem keeps_learnGeom (s : State) (p : Nat) (g : Nat) (ests : List Int) {r0 : State} (hr : Keeps r0 s) : Keeps r0 (learnGeom s p g ests) := by
  refine Keeps.trans hr ?_
  clear hr
  unfold learnGeom
  repeat' first
    | with_reducible apply Keeps.refl
    | intro _
    | with_reducible assumption
    | (fail_if_no_progress extract_lets +onlyGivenNames x
       first | (refine Keeps.hyp x ?_ (fun _ => ?_); subst x; rotate_left; clear_value x; rotate_left) | clear_value x)
    | with_reducible apply keeps_State_setPipe

theorem keeps_cuSwap (s : State) (num : Nat) {r0 : State} (hr : Keeps r0 s) : Keeps r0 (cuSwap s num) := by
  have h : ∀ (u : State) (p : Host.Cell → Bool), Keeps u { u with mem := u.mem.filter p } :=
    fun u p => Keeps.updMem _ (mem_wf_filter p)
  refine hr.trans ?_
  clear hr
  unfold cuSwap
  extract_lets a b c d inBuf e f g k m
  have he : Keeps s e := by
    refine Keeps.trans ?_ (h d _)
    exact keeps_State_wr _ _ _ _ (keeps_State_wr _ _ _ _ (keeps_State_wr2 _ _ _ _ _ (Keeps.refl _)))
  have hg : Keeps s g := Keeps.mk' he
  have hk : Keeps s k := by
    clear_value g
    subst k
    split
    · exact keeps_State_wr _ _ _ _ hg
    · exact hg
  have hm : Keeps s m := by
    clear_value k
    subst m
    split
    · exact keeps_State_wr _ _ _ _ hk
    · exact hk
  clear_value m
  exact Keeps.mk' (keeps_State_wr _ _ _ _ hm)

theorem keeps_groupFrameEnd (s : State) (g : Nat) (num : Nat) {r0 : State} (hr : Keeps r0 s) : Keeps r0 (groupFrameEnd s g num) := by
  refine Keeps.trans hr ?_
  clear hr
  unfold groupFrameEnd
  repeat' first
    | with_reducible apply Keeps.refl
    | intro _
    | with_reducible assumption
    | (fail_if_no_progress extract_lets +onlyGivenNames x
       first | (refine Keeps.hyp x ?_ (fun _ => ?_); subst x; rotate_left; clear_value x; rotate_left) | clear_value x)
    | with_reducible apply keeps_cuSwap
    | with_reducible apply keeps_State_wr
    | with_reducible refine Keeps.ofPair (by assumption) ?_
    | with_reducible apply Keeps.ite
    | fail_if_no_progress (with_reducible apply Keeps.mk')
    | split

theorem keeps_frameForm (s : State) (p : Nat) (g : Nat) (f : Frame) (inc : Bool) (learn : Option (List Int)) {r0 : State} (hr : Keeps r0 s) : Keeps r0 (frameForm s p g f inc learn) := by
  refine Keeps.trans hr ?_
  clear hr
  unfold frameForm
  repeat' first
    | with_reducible apply Keeps.refl
    | intro _
    | with_reducible assumption
    | (fail_if_no_progress extract_lets +onlyGivenNames x
       first | (refine Keeps.hyp x ?_ (fun _ => ?_); subst x; rotate_left; clear_value x; rotate_left) | clear_value x)
    | with_reducible apply keeps_State_setPipe
    | with_reducible apply keeps_State_count
    | with_reducible apply keeps_cuAdd
    | with_reducible apply keeps_learnGeom
    | with_reducible apply keeps_statPost
    | with_reducible refine Keeps.ofPair (by assumption) ?_
    | with_reducible apply Keeps.foldl
    | with_reducible apply Keeps.foldlPair
    | with_reducible apply Keeps.ite
    | fail_if_no_progress (with_reducible apply Keeps.mk')
    | split

theorem keeps_frameClose (s : State) (p : Nat) (f : Frame) (inc : Bool) (learn : Option (List Int)) {r0 : State} (hr : Keeps r0 s) : Keeps r0 (frameClose s p f inc learn) := by
  refine Keeps.trans hr ?_
  clear hr
  unfold frameClose
  repeat' first
    | with_reducible apply Keeps.refl
    | intro _
    | with_reducible assumption
    | (fail_if_no_progress extract_lets +onlyGivenNames x
       first | (refine Keeps.hyp x ?_ (fun _ => ?_); subst x; rotate_left; clear_value x; rotate_left) | clear_value x)
    | with_reducible apply keeps_frameForm
    | with_reducible apply keeps_frameView
    | with_reducible apply keeps_showPipe
    | with_reducible apply keeps_State_setPipe
    | with_reducible apply keeps_triggerSlices
    | with_reducible apply keeps_groupFrameEnd
    | with_reducible apply keeps_rasterRelease
    | with_reducible refine Keeps.ofPair (by assumption) ?_
    | with_reducible apply Keeps.ite
    | fail_if_no_progress (with_reducible apply Keeps.mk')
    | split

theorem keeps_showGroups (s : State) {r0 : State} (hr : Keeps r0 s) : Keeps r0 (showGroups s) := by
  refine Keeps.trans hr ?_
  clear hr
  unfold showGroups
  repeat' first
    | with_reducible apply Keeps.refl
    | intro _
    | with_reducible apply keeps_State_wr

theorem keeps_groupStart (s : State) (g : Nat) {r0 : State} (hr : Keeps r0 s) : Keeps r0 (groupStart s g) := by
  refine Keeps.trans hr ?_
  clear hr
  unfold groupStart
  repeat' first
    | with_reducible apply Keeps.refl
    | intro _
    | with_reducible assumption
    | (fail_if_no_progress extract_lets +onlyGivenNames x
       first | (refine Keeps.hyp x ?_ (fun _ => ?_); subst x; rotate_left; clear_value x; rotate_left) | clear_value x)
    | with_reducible apply keeps_State_setGroup
    | with_reducible apply keeps_State_setPipe
    | with_reducible apply keeps_showGroups
    | with_reducible apply keeps_geomRestart
    | with_reducible refine Keeps.ofPair (by assumption) ?_
    | with_reducible apply Keeps.foldl
    | with_reducible apply Keeps.foldlPair
    | with_reducible apply Keeps.ite
    | fail_if_no_progress (with_reducible apply Keeps.mk')

theorem keeps_framesAbort (s : State) (p : Nat) {r0 : State} (hr : Keeps r0 s) : Keeps r0 (framesAbort s p) := by
  refine Keeps.trans hr ?_
  clear hr
  unfold framesAbort
  repeat' first
    | with_reducible apply Keeps.refl
    | intro _
    | with_reducible apply keeps_frameClose
    | with_reducible apply Keeps.foldl

theorem keeps_groupStop (s : State) (g : Nat) {r0 : State} (hr : Keeps r0 s) : Keeps r0 (groupStop s g) := by
  refine Keeps.trans hr ?_
  clear hr
  unfold groupStop
  repeat' first
    | with_reducible apply Keeps.refl
    | intro _
    | with_reducible assumption
    | (fail_if_no_progress extract_lets +onlyGivenNames x
       first | (refine Keeps.hyp x ?_ (fun _ => ?_); subst x; rotate_left; clear_value x; rotate_left) | clear_value x)
    | with_reducible apply keeps_framesAbort
    | with_reducible apply keeps_rasterRelease
    | with_reducible apply keeps_showGroups
    | with_reducible apply keeps_State_setGroup
    | with_reducible refine Keeps.ofPair (by assumption) ?_
    | with_reducible apply Keeps.foldl
    | with_reducible apply Keeps.foldlPair
    | with_reducible apply Keeps.ite
    | fail_if_no_progress (with_reducible apply Keeps.mk')

theorem keeps_groupsSleep (s : State) {r0 : State} (hr : Keeps r0 s) : Keeps r0 (groupsSleep s) := by
  refine Keeps.trans hr ?_
  clear hr
  unfold groupsSleep
  repeat' first
    | with_reducible apply Keeps.refl
    | intro _
    | with_reducible apply keeps_groupStop
    | with_reducible apply Keeps.foldl
    | with_reducible apply Keeps.foldlPair
    | with_reducible apply Keeps.ite

theorem keeps_groupsWake (s : State) {r0 : State} (hr : Keeps r0 s) : Keeps r0 (groupsWake s) := by
  refine Keeps.trans hr ?_
  clear hr
  unfold groupsWake
  repeat' first
    | with_reducible apply Keeps.refl
    | intro _
    | with_reducible apply keeps_groupStart
    | with_reducible apply Keeps.foldl
    | with_reducible apply Keeps.foldlPair
    | with_reducible apply Keeps.ite

theorem keeps_groupWrite (s : State) (g : Nat) (value : Nat) {r0 : State} (hr : Keeps r0 s) : Keeps r0 (groupWrite s g value) := by
  refine Keeps.trans hr ?_
  clear hr
  unfold groupWrite
  repeat' first
    | with_reducible apply Keeps.refl
    | intro _
    | with_reducible assumption
    | (fail_if_no_progress extract_lets +onlyGivenNames x
       first | (refine Keeps.hyp x ?_ (fun _ => ?_); subst x; rotate_left; clear_value x; rotate_left) | clear_value x)
    | with_reducible apply keeps_groupStop
    | with_reducible apply keeps_State_wr
    | with_reducible apply keeps_State_wrb
    | with_reducible apply keeps_groupStart
    | with_reducible apply Keeps.ite

theorem keeps_accComplete (s : State) (plane : Nat) {r0 : State} (hr : Keeps r0 s) : Keeps r0 (accComplete s plane) := by
  refine Keeps.trans hr ?_
  clear hr
  unfold accComplete
  repeat' first
    | with_reducible apply Keeps.refl
    | intro _
    | with_reducible assumption
    | (fail_if_no_progress extract_lets +onlyGivenNames x
       first | (refine Keeps.hyp x ?_ (fun _ => ?_); subst x; rotate_left; clear_value x; rotate_left) | clear_value x)
    | with_reducible apply keeps_triggerSlices
    | with_reducible refine Keeps.ofPair (by assumption) ?_
    | with_reducible apply Keeps.foldl
    | with_reducible apply Keeps.foldlPair
    | with_reducible apply Keeps.ite
    | fail_if_no_progress (with_reducible apply Keeps.mk')
    | split

theorem keeps_execCameraLinkFail (t : Nat) (port : Nat) (lost : Bool) (s : State) {r0 : State} (hr : Keeps r0 s) : KeepsOut r0 (execCameraLinkFail t port lost s) := by
  refine KeepsOut.trans hr ?_
  clear hr
  unfold execCameraLinkFail
  repeat' first
    | with_reducible apply Keeps.refl
    | intro _
    | with_reducible apply keeps_portFail
    | with_reducible apply keeps_State_at
    | with_reducible apply KeepsOut.next

theorem keeps_execCsi2Packet (t : Nat) (port : Nat) (vc : Nat) (dtype : Nat) (ecc : Nat) (crcOk : Bool) (payload : List Byte) (s : State) {r0 : State} (hr : Keeps r0 s) : KeepsOut r0 (execCsi2Packet t port vc dtype ecc crcOk payload s) := by
  refine KeepsOut.trans hr ?_
  clear hr
  unfold execCsi2Packet
  repeat' first
    | with_reducible apply Keeps.refl
    | intro _
    | with_reducible apply keeps_csiPacket
    | with_reducible apply keeps_State_at
    | with_reducible apply KeepsOut.next

theorem keeps_execCameraLineReceive (t : Nat) (port : Nat) (vc : Nat) (s : State) {r0 : State} (hr : Keeps r0 s) : KeepsOut r0 (execCameraLineReceive t port vc s) := by
  refine KeepsOut.trans hr ?_
  clear hr
  unfold execCameraLineReceive
  repeat' first
    | with_reducible apply Keeps.refl
    | intro _
    | with_reducible apply keeps_State_spend
    | with_reducible apply keeps_lineReceive
    | with_reducible apply keeps_State_at
    | with_reducible apply KeepsOut.next

theorem keeps_execTriggerLineLost (t : Nat) (pipe : Nat) (s : State) {r0 : State} (hr : Keeps r0 s) : KeepsOut r0 (execTriggerLineLost t pipe s) := by
  refine KeepsOut.trans hr ?_
  clear hr
  unfold execTriggerLineLost
  repeat' first
    | with_reducible apply Keeps.refl
    | intro _
    | with_reducible apply keeps_lineLost
    | with_reducible apply keeps_State_at
    | with_reducible apply KeepsOut.next

theorem keeps_execGroupRunWrite (t : Nat) (grp : Nat) (value : Nat) (s : State) {r0 : State} (hr : Keeps r0 s) : KeepsOut r0 (execGroupRunWrite t grp value s) := by
  refine KeepsOut.trans hr ?_
  clear hr
  unfold execGroupRunWrite
  repeat' first
    | with_reducible apply Keeps.refl
    | intro _
    | with_reducible apply keeps_State_spend
    | with_reducible apply keeps_groupWrite
    | with_reducible apply keeps_State_at
    | with_reducible apply KeepsOut.next

theorem keeps_execAccumulatorComplete (t : Nat) (plane : Nat) (s : State) {r0 : State} (hr : Keeps r0 s) : KeepsOut r0 (execAccumulatorComplete t plane s) := by
  refine KeepsOut.trans hr ?_
  clear hr
  unfold execAccumulatorComplete
  repeat' first
    | with_reducible apply Keeps.refl
    | intro _
    | with_reducible apply keeps_State_spend
    | with_reducible apply keeps_accComplete
    | with_reducible apply keeps_State_at
    | with_reducible apply KeepsOut.next

theorem keeps_execExpoGo (t : Nat) (s : State) {r0 : State} (hr : Keeps r0 s) : KeepsOut r0 (execExpoGo t s) := by
  refine KeepsOut.trans hr ?_
  clear hr
  unfold execExpoGo
  repeat' first
    | with_reducible apply Keeps.refl
    | intro _
    | with_reducible apply keeps_expoGo
    | with_reducible apply keeps_State_at
    | with_reducible apply KeepsOut.next

theorem keeps_execExpoCommitCheck (t : Nat) (pipe : Nat) (value : Nat) (s : State) {r0 : State} (hr : Keeps r0 s) : KeepsOut r0 (execExpoCommitCheck t pipe value s) := by
  refine KeepsOut.trans hr ?_
  clear hr
  unfold execExpoCommitCheck
  repeat' first
    | with_reducible apply Keeps.refl
    | intro _
    | with_reducible apply keeps_expoCheck
    | with_reducible apply keeps_State_at
    | with_reducible apply KeepsOut.next

end Sys2Proof.Laws
end

