-- ==== Sys2Proof/Laws/KeepTransit.lean ====
section
/-! SUPPORT. `Keeps` of every operation of Machine/Transit.lean. -/

namespace Sys2Proof.Laws

open Sys2Proof.Machine

set_option linter.unusedTactic false
set_option linter.unreachableTactic false
set_option linter.tactic.unusedName false

theorem keeps_webRun (s : State) (v : Int) {r0 : State} (hr : Keeps r0 s) : Keeps r0 (webRun s v) := by
  refine Keeps.trans hr ?_
  clear hr
  unfold webRun
  repeat' first
    | with_reducible apply Keeps.refl
    | intro _
    | with_reducible assumption
    | (fail_if_no_progress extract_lets +onlyGivenNames x
       first | (refine Keeps.hyp x ?_ (fun _ => ?_); subst x; rotate_left; clear_value x; rotate_left) | clear_value x)
    | with_reducible apply keeps_axisRun
    | with_reducible apply keeps_State_setAxis

theorem keeps_webStop (s : State) {r0 : State} (hr : Keeps r0 s) : Keeps r0 (webStop s) := by
  refine Keeps.trans hr ?_
  clear hr
  unfold webStop
  repeat' first
    | with_reducible apply Keeps.refl
    | intro _
    | with_reducible apply keeps_axisStop

theorem keeps_setStep (s : State) (n : Nat) {r0 : State} (hr : Keeps r0 s) : Keeps r0 (setStep s n) := by
  refine Keeps.trans hr ?_
  clear hr
  unfold setStep
  repeat' first
    | with_reducible apply Keeps.refl
    | intro _
    | with_reducible assumption
    | (fail_if_no_progress extract_lets +onlyGivenNames x
       first | (refine Keeps.hyp x ?_ (fun _ => ?_); subst x; rotate_left; clear_value x; rotate_left) | clear_value x)
    | with_reducible apply keeps_State_wr
    | with_reducible apply keeps_State_twin
    | with_reducible refine Keeps.ofPair (by assumption) ?_
    | with_reducible apply Keeps.ite
    | fail_if_no_progress (with_reducible apply Keeps.mk')
    | split

theorem keeps_setOrigin (s : State) {r0 : State} (hr : Keeps r0 s) : Keeps r0 (setOrigin s) := by
  refine Keeps.trans hr ?_
  clear hr
  unfold setOrigin
  repeat' first
    | with_reducible apply Keeps.refl
    | intro _
    | with_reducible assumption
    | (fail_if_no_progress extract_lets +onlyGivenNames x
       first | (refine Keeps.hyp x ?_ (fun _ => ?_); subst x; rotate_left; clear_value x; rotate_left) | clear_value x)
    | with_reducible apply keeps_State_twin
    | with_reducible apply keeps_showOrigin
    | with_reducible refine Keeps.ofPair (by assumption) ?_
    | fail_if_no_progress (with_reducible apply Keeps.mk')
    | split

theorem keeps_backUp (s : State) {r0 : State} (hr : Keeps r0 s) : Keeps r0 (backUp s) := by
  refine Keeps.trans hr ?_
  clear hr
  unfold backUp
  repeat' first
    | with_reducible apply Keeps.refl
    | intro _
    | with_reducible assumption
    | (fail_if_no_progress extract_lets +onlyGivenNames x
       first | (refine Keeps.hyp x ?_ (fun _ => ?_); subst x; rotate_left; clear_value x; rotate_left) | clear_value x)
    | with_reducible apply keeps_setStep
    | with_reducible apply keeps_axisMove
    | with_reducible apply Keeps.ite

theorem keeps_dwell (s : State) {r0 : State} (hr : Keeps r0 s) : Keeps r0 (dwell s) := by
  refine Keeps.trans hr ?_
  clear hr
  unfold dwell
  repeat' first
    | with_reducible apply Keeps.refl
    | intro _
    | with_reducible assumption
    | (fail_if_no_progress extract_lets +onlyGivenNames x
       first | (refine Keeps.hyp x ?_ (fun _ => ?_); subst x; rotate_left; clear_value x; rotate_left) | clear_value x)
    | fail_if_no_progress (with_reducible apply Keeps.mk')

theorem keeps_resumeSet (s : State) {r0 : State} (hr : Keeps r0 s) : Keeps r0 (resumeSet s) := by
  refine Keeps.trans hr ?_
  clear hr
  unfold resumeSet
  repeat' first
    | with_reducible apply Keeps.refl
    | intro _
    | with_reducible assumption
    | with_reducible apply keeps_setStep
    | with_reducible refine Keeps.ofPair (by assumption) ?_
    | with_reducible apply Keeps.ite
    | fail_if_no_progress (with_reducible apply Keeps.mk')

theorem keeps_resumeRun (s : State) {r0 : State} (hr : Keeps r0 s) : Keeps r0 (resumeRun s) := by
  refine Keeps.trans hr ?_
  clear hr
  unfold resumeRun
  repeat' first
    | with_reducible apply Keeps.refl
    | intro _
    | with_reducible assumption
    | with_reducible apply keeps_webRun
    | with_reducible apply keeps_resumeSet
    | with_reducible refine Keeps.ofPair (by assumption) ?_
    | with_reducible apply Keeps.ite
    | fail_if_no_progress (with_reducible apply Keeps.mk')

theorem keeps_rewindAdvance (s : State) {r0 : State} (hr : Keeps r0 s) : Keeps r0 (rewindAdvance s) := by
  refine Keeps.trans hr ?_
  clear hr
  unfold rewindAdvance
  repeat' first
    | with_reducible apply Keeps.refl
    | intro _
    | with_reducible assumption
    | (fail_if_no_progress extract_lets +onlyGivenNames x
       first | (refine Keeps.hyp x ?_ (fun _ => ?_); subst x; rotate_left; clear_value x; rotate_left) | clear_value x)
    | with_reducible apply keeps_webStop
    | with_reducible apply keeps_setStep
    | with_reducible apply keeps_backUp
    | with_reducible apply keeps_dwell
    | with_reducible refine Keeps.ofPair (by assumption) ?_
    | with_reducible apply Keeps.ite
    | fail_if_no_progress (with_reducible apply Keeps.mk')
    | split

theorem keeps_leadCheck (s : State) {r0 : State} (hr : Keeps r0 s) : Keeps r0 (leadCheck s) := by
  refine Keeps.trans hr ?_
  clear hr
  unfold leadCheck
  repeat' first
    | with_reducible apply Keeps.refl
    | intro _
    | with_reducible assumption
    | (fail_if_no_progress extract_lets +onlyGivenNames x
       first | (refine Keeps.hyp x ?_ (fun _ => ?_); subst x; rotate_left; clear_value x; rotate_left) | clear_value x)
    | with_reducible apply keeps_setStep
    | with_reducible apply keeps_resumeRun
    | with_reducible apply keeps_requestMode
    | with_reducible refine Keeps.ofPair (by assumption) ?_
    | with_reducible apply Keeps.ite
    | fail_if_no_progress (with_reducible apply Keeps.mk')
    | split

theorem keeps_dwellEnd (s : State) {r0 : State} (hr : Keeps r0 s) : Keeps r0 (dwellEnd s) := by
  refine Keeps.trans hr ?_
  clear hr
  unfold dwellEnd
  repeat' first
    | with_reducible apply Keeps.refl
    | intro _
    | with_reducible assumption
    | (fail_if_no_progress extract_lets +onlyGivenNames x
       first | (refine Keeps.hyp x ?_ (fun _ => ?_); subst x; rotate_left; clear_value x; rotate_left) | clear_value x)
    | with_reducible apply keeps_backUp
    | with_reducible apply keeps_leadCheck
    | with_reducible refine Keeps.ofPair (by assumption) ?_
    | with_reducible apply Keeps.ite
    | fail_if_no_progress (with_reducible apply Keeps.mk')
    | split

theorem keeps_indexCheck (s : State) (ext : Int) {r0 : State} (hr : Keeps r0 s) : Keeps r0 (indexCheck s ext) := by
  refine Keeps.trans hr ?_
  clear hr
  unfold indexCheck
  repeat' first
    | with_reducible apply Keeps.refl
    | intro _
    | with_reducible assumption
    | (fail_if_no_progress extract_lets +onlyGivenNames x
       first | (refine Keeps.hyp x ?_ (fun _ => ?_); subst x; rotate_left; clear_value x; rotate_left) | clear_value x)
    | with_reducible apply keeps_State_wri
    | with_reducible apply keeps_State_wr
    | with_reducible apply keeps_State_event
    | with_reducible refine Keeps.ofPair (by assumption) ?_
    | with_reducible apply Keeps.ite
    | fail_if_no_progress (with_reducible apply Keeps.mk')
    | split

theorem keeps_startPrint (s : State) {r0 : State} (hr : Keeps r0 s) : Keeps r0 (startPrint s) := by
  refine Keeps.trans hr ?_
  clear hr
  unfold startPrint
  repeat' first
    | with_reducible apply Keeps.refl
    | intro _
    | with_reducible assumption
    | (fail_if_no_progress extract_lets +onlyGivenNames x
       first | (refine Keeps.hyp x ?_ (fun _ => ?_); subst x; rotate_left; clear_value x; rotate_left) | clear_value x)
    | with_reducible apply keeps_setOrigin
    | with_reducible apply keeps_setStep
    | with_reducible apply keeps_resumeSet
    | with_reducible refine Keeps.ofPair (by assumption) ?_
    | with_reducible apply Keeps.ite
    | fail_if_no_progress (with_reducible apply Keeps.mk')
    | split

theorem keeps_withholdHeld (s : State) {r0 : State} (hr : Keeps r0 s) : Keeps r0 (withholdHeld s) := by
  refine Keeps.trans hr ?_
  clear hr
  unfold withholdHeld
  repeat' first
    | with_reducible apply Keeps.refl
    | intro _
    | with_reducible assumption
    | with_reducible apply keeps_jobClose
    | with_reducible apply keeps_withholdJob
    | with_reducible refine Keeps.ofPair (by assumption) ?_
    | with_reducible apply Keeps.ite
    | fail_if_no_progress (with_reducible apply Keeps.mk')
    | split

theorem keeps_stopAdvance (s : State) {r0 : State} (hr : Keeps r0 s) : Keeps r0 (stopAdvance s) := by
  refine Keeps.trans hr ?_
  clear hr
  unfold stopAdvance
  repeat' first
    | with_reducible apply Keeps.refl
    | intro _
    | with_reducible assumption
    | (fail_if_no_progress extract_lets +onlyGivenNames x
       first | (refine Keeps.hyp x ?_ (fun _ => ?_); subst x; rotate_left; clear_value x; rotate_left) | clear_value x)
    | with_reducible apply keeps_webStop
    | with_reducible apply keeps_withholdHeld
    | with_reducible apply keeps_capStart
    | with_reducible apply keeps_capAdvance
    | with_reducible apply keeps_requestMode
    | with_reducible refine Keeps.ofPair (by assumption) ?_
    | with_reducible apply Keeps.ite
    | fail_if_no_progress (with_reducible apply Keeps.mk')
    | split

theorem keeps_webTake (s : State) (old : Nat) (new : Nat) {r0 : State} (hr : Keeps r0 s) : Keeps r0 (webTake s old new) := by
  refine Keeps.trans hr ?_
  clear hr
  unfold webTake
  repeat' first
    | with_reducible apply Keeps.refl
    | intro _
    | with_reducible assumption
    | with_reducible apply keeps_webRun
    | with_reducible apply keeps_stopAdvance
    | with_reducible apply keeps_webStop
    | with_reducible refine Keeps.ofPair (by assumption) ?_
    | with_reducible apply Keeps.ite
    | fail_if_no_progress (with_reducible apply Keeps.mk')
    | split

theorem keeps_enterMode (s : State) (old : Nat) (new : Nat) {r0 : State} (hr : Keeps r0 s) : Keeps r0 (enterMode s old new) := by
  refine Keeps.trans hr ?_
  clear hr
  unfold enterMode
  repeat' first
    | with_reducible apply Keeps.refl
    | intro _
    | with_reducible assumption
    | (fail_if_no_progress extract_lets +onlyGivenNames x
       first | (refine Keeps.hyp x ?_ (fun _ => ?_); subst x; rotate_left; clear_value x; rotate_left) | clear_value x)
    | with_reducible apply keeps_setStep
    | with_reducible apply keeps_startPrint
    | with_reducible apply keeps_setOrigin
    | with_reducible apply keeps_resumeSet
    | with_reducible apply keeps_State_count
    | with_reducible apply keeps_usageFlush
    | with_reducible refine Keeps.ofPair (by assumption) ?_
    | with_reducible apply Keeps.foldl
    | with_reducible apply Keeps.foldlPair
    | with_reducible apply Keeps.ite
    | fail_if_no_progress (with_reducible apply Keeps.mk')
    | split

theorem keeps_unitsTake (s : State) (old : Nat) (m : Nat) (fresh : Nat) {r0 : State} (hr : Keeps r0 s) : Keeps r0 (unitsTake s old m fresh) := by
  refine Keeps.trans hr ?_
  clear hr
  unfold unitsTake
  repeat' first
    | with_reducible apply Keeps.refl
    | intro _
    | with_reducible assumption
    | (fail_if_no_progress extract_lets +onlyGivenNames x
       first | (refine Keeps.hyp x ?_ (fun _ => ?_); subst x; rotate_left; clear_value x; rotate_left) | clear_value x)
    | with_reducible apply keeps_axisStop
    | with_reducible apply keeps_keepopenStop
    | with_reducible apply keeps_webTake
    | with_reducible refine Keeps.ofPair (by assumption) ?_
    | with_reducible apply Keeps.foldl
    | with_reducible apply Keeps.foldlPair
    | with_reducible apply Keeps.ite
    | fail_if_no_progress (with_reducible apply Keeps.mk')
    | split

theorem keeps_setMode (s : State) (m : Nat) (cause : Nat) {r0 : State} (hr : Keeps r0 s) : Keeps r0 (setMode s m cause) := by
  refine Keeps.trans hr ?_
  clear hr
  unfold setMode
  repeat' first
    | with_reducible apply Keeps.refl
    | intro _
    | with_reducible assumption
    | (fail_if_no_progress extract_lets +onlyGivenNames x
       first | (refine Keeps.hyp x ?_ (fun _ => ?_); subst x; rotate_left; clear_value x; rotate_left) | clear_value x)
    | with_reducible apply keeps_State_wr
    | with_reducible apply Keeps.ite

theorem keeps_modeEvent (s : State) (new : Nat) (old : Nat) (cause : Nat) (line : Nat) {r0 : State} (hr : Keeps r0 s) : Keeps r0 (modeEvent s new old cause line) := by
  refine Keeps.trans hr ?_
  clear hr
  unfold modeEvent
  repeat' first
    | with_reducible apply Keeps.refl
    | intro _
    | with_reducible apply keeps_State_event

theorem keeps_moveMode (s : State) (target : Nat) (cause : Nat) (line : Nat) {r0 : State} (hr : Keeps r0 s) : Keeps r0 (moveMode s target cause line) := by
  refine Keeps.trans hr ?_
  clear hr
  unfold moveMode
  repeat' first
    | with_reducible apply Keeps.refl
    | intro _
    | with_reducible assumption
    | (fail_if_no_progress extract_lets +onlyGivenNames x
       first | (refine Keeps.hyp x ?_ (fun _ => ?_); subst x; rotate_left; clear_value x; rotate_left) | clear_value x)
    | with_reducible apply keeps_State_twin
    | with_reducible apply keeps_unitsTake
    | with_reducible apply keeps_enterMode
    | with_reducible apply keeps_modeEvent
    | with_reducible apply keeps_setMode
    | with_reducible refine Keeps.ofPair (by assumption) ?_
    | with_reducible apply Keeps.ite
    | fail_if_no_progress (with_reducible apply Keeps.mk')
    | split

theorem keeps_reloadMode (s : State) (line : Nat) {r0 : State} (hr : Keeps r0 s) : Keeps r0 (reloadMode s line) := by
  refine Keeps.trans hr ?_
  clear hr
  unfold reloadMode
  repeat' first
    | with_reducible apply Keeps.refl
    | intro _
    | with_reducible assumption
    | (fail_if_no_progress extract_lets +onlyGivenNames x
       first | (refine Keeps.hyp x ?_ (fun _ => ?_); subst x; rotate_left; clear_value x; rotate_left) | clear_value x)
    | with_reducible apply keeps_resetAsk
    | with_reducible apply keeps_modeEvent
    | with_reducible apply keeps_setMode
    | with_reducible refine Keeps.ofPair (by assumption) ?_
    | with_reducible apply Keeps.ite
    | fail_if_no_progress (with_reducible apply Keeps.mk')
    | split

theorem keeps_applyLocal (s : State) (target : Nat) (cause : Nat) (line : Nat) {r0 : State} (hr : Keeps r0 s) : Keeps r0 (applyLocal s target cause line) := by
  refine Keeps.trans hr ?_
  clear hr
  unfold applyLocal
  repeat' first
    | with_reducible apply Keeps.refl
    | intro _
    | with_reducible assumption
    | with_reducible apply keeps_reloadMode
    | with_reducible apply keeps_moveMode
    | with_reducible refine Keeps.ofPair (by assumption) ?_
    | with_reducible apply Keeps.ite
    | fail_if_no_progress (with_reducible apply Keeps.mk')
    | split

theorem keeps_applyPending (s : State) (g : Nat) {r0 : State} (hr : Keeps r0 s) : Keeps r0 (applyPending s g) := by
  refine Keeps.trans hr ?_
  clear hr
  unfold applyPending
  repeat' first
    | with_reducible apply Keeps.refl
    | intro _
    | with_reducible assumption
    | (fail_if_no_progress extract_lets +onlyGivenNames x
       first | (refine Keeps.hyp x ?_ (fun _ => ?_); subst x; rotate_left; clear_value x; rotate_left) | clear_value x)
    | with_reducible apply keeps_applyLocal
    | with_reducible apply Keeps.foldl
    | with_reducible apply Keeps.foldlPair
    | fail_if_no_progress (with_reducible apply Keeps.mk')

theorem keeps_settle (x0 : Nat) (x1 : State) {r0 : State} (hr : Keeps r0 x1) : Keeps r0 (settle x0 x1) := by
  refine Keeps.trans hr ?_
  clear hr
  fun_induction settle x0 x1
  repeat' first
    | with_reducible apply Keeps.refl
    | intro _
    | with_reducible refine Keeps.trans ?_ (by assumption)
    | with_reducible apply keeps_applyPending

theorem keeps_State_settle (s : State) {r0 : State} (hr : Keeps r0 s) : Keeps r0 (State.settle s) := by
  refine Keeps.trans hr ?_
  clear hr
  unfold State.settle
  repeat' first
    | with_reducible apply Keeps.refl
    | intro _
    | with_reducible apply keeps_settle

theorem keeps_powerStart (s : State) (to_ : Nat) {r0 : State} (hr : Keeps r0 s) : Keeps r0 (powerStart s to_) := by
  refine Keeps.trans hr ?_
  clear hr
  unfold powerStart
  repeat' first
    | with_reducible apply Keeps.refl
    | intro _
    | with_reducible assumption
    | (fail_if_no_progress extract_lets +onlyGivenNames x
       first | (refine Keeps.hyp x ?_ (fun _ => ?_); subst x; rotate_left; clear_value x; rotate_left) | clear_value x)
    | with_reducible apply keeps_emuStop
    | with_reducible apply keeps_groupsSleep
    | with_reducible apply keeps_movesStop
    | with_reducible apply keeps_State_wr
    | with_reducible apply Keeps.foldl
    | with_reducible apply Keeps.foldlPair
    | with_reducible apply Keeps.ite
    | fail_if_no_progress (with_reducible apply Keeps.mk')

theorem keeps_powerRecall (s : State) {r0 : State} (hr : Keeps r0 s) : Keeps r0 (powerRecall s) := by
  refine Keeps.trans hr ?_
  clear hr
  unfold powerRecall
  repeat' first
    | with_reducible apply Keeps.refl
    | intro _
    | with_reducible assumption
    | (fail_if_no_progress extract_lets +onlyGivenNames x
       first | (refine Keeps.hyp x ?_ (fun _ => ?_); subst x; rotate_left; clear_value x; rotate_left) | clear_value x)
    | with_reducible apply keeps_State_wr
    | with_reducible apply keeps_powerStart
    | with_reducible apply Keeps.ite
    | fail_if_no_progress (with_reducible apply Keeps.mk')

theorem keeps_showApplied (s : State) (bits_ : Nat) {r0 : State} (hr : Keeps r0 s) : Keeps r0 (showApplied s bits_) := by
  refine Keeps.trans hr ?_
  clear hr
  unfold showApplied
  repeat' first
    | with_reducible apply Keeps.refl
    | intro _
    | with_reducible assumption
    | (fail_if_no_progress extract_lets +onlyGivenNames x
       first | (refine Keeps.hyp x ?_ (fun _ => ?_); subst x; rotate_left; clear_value x; rotate_left) | clear_value x)
    | with_reducible apply keeps_State_wr
    | fail_if_no_progress (with_reducible apply Keeps.mk')

theorem keeps_epochEvent (s : State) {r0 : State} (hr : Keeps r0 s) : Keeps r0 (epochEvent s) := by
  refine Keeps.trans hr ?_
  clear hr
  unfold epochEvent
  repeat' first
    | with_reducible apply Keeps.refl
    | intro _
    | with_reducible apply keeps_State_event

theorem keeps_setEpochState (s : State) (n : Nat) {r0 : State} (hr : Keeps r0 s) : Keeps r0 (setEpochState s n) := by
  refine Keeps.trans hr ?_
  clear hr
  unfold setEpochState
  repeat' first
    | with_reducible apply Keeps.refl
    | intro _
    | with_reducible assumption
    | (fail_if_no_progress extract_lets +onlyGivenNames x
       first | (refine Keeps.hyp x ?_ (fun _ => ?_); subst x; rotate_left; clear_value x; rotate_left) | clear_value x)
    | with_reducible apply keeps_State_wr
    | with_reducible apply keeps_State_setTrig
    | with_reducible refine Keeps.ofPair (by assumption) ?_
    | with_reducible apply Keeps.ite
    | fail_if_no_progress (with_reducible apply Keeps.mk')
    | split

theorem keeps_setRollback (s : State) (cause : Nat) (at_ : Nat) {r0 : State} (hr : Keeps r0 s) : Keeps r0 (setRollback s cause at_) := by
  refine Keeps.trans hr ?_
  clear hr
  unfold setRollback
  repeat' first
    | with_reducible apply Keeps.refl
    | intro _
    | with_reducible assumption
    | (fail_if_no_progress extract_lets +onlyGivenNames x
       first | (refine Keeps.hyp x ?_ (fun _ => ?_); subst x; rotate_left; clear_value x; rotate_left) | clear_value x)
    | with_reducible apply keeps_State_wr
    | with_reducible apply keeps_State_wr2
    | with_reducible apply keeps_epochMark
    | with_reducible apply keeps_setEpochState
    | with_reducible refine Keeps.ofPair (by assumption) ?_
    | with_reducible apply Keeps.ite
    | fail_if_no_progress (with_reducible apply Keeps.mk')

theorem keeps_sendRollback (s : State) (id : Nat) (cause : Nat) (at_ : Nat) {r0 : State} (hr : Keeps r0 s) : Keeps r0 (sendRollback s id cause at_) := by
  refine Keeps.trans hr ?_
  clear hr
  unfold sendRollback
  repeat' first
    | with_reducible apply Keeps.refl
    | intro _
    | with_reducible apply keeps_ringSend

theorem keeps_rollBack (s : State) (cause : Nat) (at_ : Nat) {r0 : State} (hr : Keeps r0 s) : Keeps r0 (rollBack s cause at_) := by
  refine Keeps.trans hr ?_
  clear hr
  unfold rollBack
  repeat' first
    | with_reducible apply Keeps.refl
    | intro _
    | with_reducible assumption
    | (fail_if_no_progress extract_lets +onlyGivenNames x
       first | (refine Keeps.hyp x ?_ (fun _ => ?_); subst x; rotate_left; clear_value x; rotate_left) | clear_value x)
    | with_reducible apply keeps_setRollback
    | with_reducible apply keeps_sendRollback
    | with_reducible apply Keeps.ite

theorem keeps_epochCheck (s : State) {r0 : State} (hr : Keeps r0 s) : Keeps r0 (epochCheck s) := by
  refine Keeps.trans hr ?_
  clear hr
  unfold epochCheck
  repeat' first
    | with_reducible apply Keeps.refl
    | intro _
    | with_reducible apply keeps_epochEvent
    | with_reducible apply keeps_setEpochState
    | with_reducible apply Keeps.ite

theorem keeps_setApplyLine (s : State) (g : Nat) {r0 : State} (hr : Keeps r0 s) : Keeps r0 (setApplyLine s g) := by
  refine Keeps.trans hr ?_
  clear hr
  unfold setApplyLine
  repeat' first
    | with_reducible apply Keeps.refl
    | intro _
    | with_reducible assumption
    | (fail_if_no_progress extract_lets +onlyGivenNames x
       first | (refine Keeps.hyp x ?_ (fun _ => ?_); subst x; rotate_left; clear_value x; rotate_left) | clear_value x)
    | with_reducible apply keeps_State_wr2
    | with_reducible apply keeps_State_twin
    | with_reducible refine Keeps.ofPair (by assumption) ?_
    | with_reducible apply Keeps.ite
    | fail_if_no_progress (with_reducible apply Keeps.mk')
    | split

theorem keeps_returnCheck (s : State) {r0 : State} (hr : Keeps r0 s) : Keeps r0 (returnCheck s) := by
  refine Keeps.trans hr ?_
  clear hr
  unfold returnCheck
  repeat' first
    | with_reducible apply Keeps.refl
    | intro _
    | with_reducible apply keeps_epochEvent
    | with_reducible apply keeps_setEpochState
    | with_reducible apply Keeps.ite

theorem keeps_unitBoundary (s : State) (mask : Nat) (g : Nat) {r0 : State} (hr : Keeps r0 s) : Keeps r0 (unitBoundary s mask g) := by
  refine Keeps.trans hr ?_
  clear hr
  unfold unitBoundary
  repeat' first
    | with_reducible apply Keeps.refl
    | intro _
    | with_reducible assumption
    | (fail_if_no_progress extract_lets +onlyGivenNames x
       first | (refine Keeps.hyp x ?_ (fun _ => ?_); subst x; rotate_left; clear_value x; rotate_left) | clear_value x)
    | with_reducible apply keeps_setApplyLine
    | with_reducible apply keeps_showApplied
    | with_reducible apply keeps_epochCheck
    | with_reducible apply keeps_unitsTake
    | with_reducible apply keeps_returnCheck
    | with_reducible refine Keeps.ofPair (by assumption) ?_
    | with_reducible apply Keeps.ite
    | fail_if_no_progress (with_reducible apply Keeps.mk')
    | split

theorem keeps_lineBoundary (s : State) (g : Nat) {r0 : State} (hr : Keeps r0 s) : Keeps r0 (lineBoundary s g) := by
  refine Keeps.trans hr ?_
  clear hr
  unfold lineBoundary
  repeat' first
    | with_reducible apply Keeps.refl
    | intro _
    | with_reducible assumption
    | (fail_if_no_progress extract_lets +onlyGivenNames x
       first | (refine Keeps.hyp x ?_ (fun _ => ?_); subst x; rotate_left; clear_value x; rotate_left) | clear_value x)
    | with_reducible apply keeps_applyPending
    | with_reducible apply keeps_State_wr
    | with_reducible apply keeps_unitBoundary
    | with_reducible apply keeps_setMode
    | with_reducible apply keeps_showApplied
    | with_reducible apply keeps_epochEvent
    | with_reducible apply keeps_rollBack
    | with_reducible refine Keeps.ofPair (by assumption) ?_
    | with_reducible apply Keeps.ite
    | fail_if_no_progress (with_reducible apply Keeps.mk')
    | split

theorem keeps_epochApply (s : State) {r0 : State} (hr : Keeps r0 s) : Keeps r0 (epochApply s) := by
  refine Keeps.trans hr ?_
  clear hr
  unfold epochApply
  repeat' first
    | with_reducible apply Keeps.refl
    | intro _
    | with_reducible assumption
    | (fail_if_no_progress extract_lets +onlyGivenNames x
       first | (refine Keeps.hyp x ?_ (fun _ => ?_); subst x; rotate_left; clear_value x; rotate_left) | clear_value x)
    | with_reducible apply keeps_State_wr
    | with_reducible apply keeps_setStopFrom
    | with_reducible apply keeps_enterMode
    | with_reducible apply keeps_setMode
    | with_reducible apply keeps_unitBoundary
    | with_reducible refine Keeps.ofPair (by assumption) ?_
    | with_reducible apply Keeps.ite
    | fail_if_no_progress (with_reducible apply Keeps.mk')
    | split

theorem keeps_epochStart (s : State) {r0 : State} (hr : Keeps r0 s) : Keeps r0 (epochStart s) := by
  refine Keeps.trans hr ?_
  clear hr
  unfold epochStart
  repeat' first
    | with_reducible apply Keeps.refl
    | intro _
    | with_reducible assumption
    | (fail_if_no_progress extract_lets +onlyGivenNames x
       first | (refine Keeps.hyp x ?_ (fun _ => ?_); subst x; rotate_left; clear_value x; rotate_left) | clear_value x)
    | with_reducible apply keeps_setEpochState
    | with_reducible apply keeps_epochApply
    | with_reducible apply keeps_epochEvent
    | with_reducible apply keeps_rollBack
    | with_reducible apply Keeps.ite

theorem keeps_epochSet (s : State) (id : Nat) (target : Nat) (at_ : Nat) (deadline : Nat) (system : Bool) {r0 : State} (hr : Keeps r0 s) : Keeps r0 (epochSet s id target at_ deadline system) := by
  refine Keeps.trans hr ?_
  clear hr
  unfold epochSet
  repeat' first
    | with_reducible apply Keeps.refl
    | intro _
    | with_reducible assumption
    | (fail_if_no_progress extract_lets +onlyGivenNames x
       first | (refine Keeps.hyp x ?_ (fun _ => ?_); subst x; rotate_left; clear_value x; rotate_left) | clear_value x)
    | with_reducible apply keeps_showApplied
    | with_reducible apply keeps_State_wr
    | with_reducible apply keeps_State_wr2
    | with_reducible apply keeps_epochMark
    | with_reducible apply keeps_setEpochState
    | with_reducible apply keeps_powerRecall
    | with_reducible refine Keeps.ofPair (by assumption) ?_
    | with_reducible apply Keeps.ite
    | fail_if_no_progress (with_reducible apply Keeps.mk')
    | split

theorem keeps_epochSchedule (s : State) (target : Nat) (system : Bool) {r0 : State} (hr : Keeps r0 s) : Keeps r0 (epochSchedule s target system) := by
  refine Keeps.trans hr ?_
  clear hr
  unfold epochSchedule
  repeat' first
    | with_reducible apply Keeps.refl
    | intro _
    | with_reducible assumption
    | (fail_if_no_progress extract_lets +onlyGivenNames x
       first | (refine Keeps.hyp x ?_ (fun _ => ?_); subst x; rotate_left; clear_value x; rotate_left) | clear_value x)
    | with_reducible apply keeps_epochSet
    | with_reducible apply keeps_ringSend
    | with_reducible apply Keeps.ite
    | fail_if_no_progress (with_reducible apply Keeps.mk')

theorem keeps_epochCancel (s : State) {r0 : State} (hr : Keeps r0 s) : Keeps r0 (epochCancel s) := by
  refine Keeps.trans hr ?_
  clear hr
  unfold epochCancel
  repeat' first
    | with_reducible apply Keeps.refl
    | intro _
    | with_reducible assumption
    | with_reducible apply keeps_rollBack
    | with_reducible refine Keeps.ofPair (by assumption) ?_
    | with_reducible apply Keeps.ite
    | fail_if_no_progress (with_reducible apply Keeps.mk')
    | split

theorem keeps_epochExpire (s : State) {r0 : State} (hr : Keeps r0 s) : Keeps r0 (epochExpire s) := by
  refine Keeps.trans hr ?_
  clear hr
  unfold epochExpire
  repeat' first
    | with_reducible apply Keeps.refl
    | intro _
    | with_reducible assumption
    | with_reducible apply keeps_epochEvent
    | with_reducible apply keeps_rollBack
    | with_reducible refine Keeps.ofPair (by assumption) ?_
    | with_reducible apply Keeps.ite
    | fail_if_no_progress (with_reducible apply Keeps.mk')
    | split

theorem keeps_rollbackEnd (s : State) {r0 : State} (hr : Keeps r0 s) : Keeps r0 (rollbackEnd s) := by
  refine Keeps.trans hr ?_
  clear hr
  unfold rollbackEnd
  repeat' first
    | with_reducible apply Keeps.refl
    | intro _
    | with_reducible assumption
    | (fail_if_no_progress extract_lets +onlyGivenNames x
       first | (refine Keeps.hyp x ?_ (fun _ => ?_); subst x; rotate_left; clear_value x; rotate_left) | clear_value x)
    | with_reducible apply keeps_State_wr
    | with_reducible apply keeps_setMode
    | with_reducible apply keeps_setStopFrom
    | with_reducible apply keeps_enterMode
    | with_reducible apply keeps_setStep
    | with_reducible apply keeps_unitBoundary
    | with_reducible apply keeps_returnCheck
    | with_reducible refine Keeps.ofPair (by assumption) ?_
    | with_reducible apply Keeps.ite
    | fail_if_no_progress (with_reducible apply Keeps.mk')
    | split

theorem keeps_rollbackDue (s : State) {r0 : State} (hr : Keeps r0 s) : Keeps r0 (rollbackDue s) := by
  refine Keeps.trans hr ?_
  clear hr
  unfold rollbackDue
  repeat' first
    | with_reducible apply Keeps.refl
    | intro _
    | with_reducible assumption
    | with_reducible apply keeps_rollbackEnd
    | with_reducible refine Keeps.ofPair (by assumption) ?_
    | with_reducible apply Keeps.ite
    | fail_if_no_progress (with_reducible apply Keeps.mk')
    | split

theorem keeps_epochDue (s : State) {r0 : State} (hr : Keeps r0 s) : Keeps r0 (epochDue s) := by
  refine Keeps.trans hr ?_
  clear hr
  unfold epochDue
  repeat' first
    | with_reducible apply Keeps.refl
    | intro _
    | with_reducible assumption
    | with_reducible apply keeps_epochStart
    | with_reducible refine Keeps.ofPair (by assumption) ?_
    | with_reducible apply Keeps.ite
    | fail_if_no_progress (with_reducible apply Keeps.mk')
    | split

theorem keeps_epochReceive (s : State) (id : Nat) (target : Nat) (at_ : Nat) {r0 : State} (hr : Keeps r0 s) : Keeps r0 (epochReceive s id target at_) := by
  refine Keeps.trans hr ?_
  clear hr
  unfold epochReceive
  repeat' first
    | with_reducible apply Keeps.refl
    | intro _
    | with_reducible assumption
    | with_reducible apply keeps_sendRollback
    | with_reducible apply keeps_epochDue
    | with_reducible apply keeps_epochSet
    | with_reducible apply keeps_State_wr
    | with_reducible refine Keeps.ofPair (by assumption) ?_
    | with_reducible apply Keeps.ite
    | fail_if_no_progress (with_reducible apply Keeps.mk')
    | split

theorem keeps_rollbackReceive (s : State) (id : Nat) (at_ : Nat) {r0 : State} (hr : Keeps r0 s) : Keeps r0 (rollbackReceive s id at_) := by
  refine Keeps.trans hr ?_
  clear hr
  unfold rollbackReceive
  repeat' first
    | with_reducible apply Keeps.refl
    | intro _
    | with_reducible assumption
    | (fail_if_no_progress extract_lets +onlyGivenNames x
       first | (refine Keeps.hyp x ?_ (fun _ => ?_); subst x; rotate_left; clear_value x; rotate_left) | clear_value x)
    | with_reducible apply keeps_setRollback
    | with_reducible apply keeps_rollbackDue
    | with_reducible apply keeps_State_wr
    | with_reducible apply Keeps.ite

theorem keeps_epochAbandon (s : State) {r0 : State} (hr : Keeps r0 s) : Keeps r0 (epochAbandon s) := by
  refine Keeps.trans hr ?_
  clear hr
  unfold epochAbandon
  repeat' first
    | with_reducible apply Keeps.refl
    | intro _
    | with_reducible apply keeps_epochEvent
    | with_reducible apply keeps_setEpochState
    | with_reducible apply Keeps.ite

theorem keeps_powerReached (s : State) {r0 : State} (hr : Keeps r0 s) : Keeps r0 (powerReached s) := by
  refine Keeps.trans hr ?_
  clear hr
  unfold powerReached
  repeat' first
    | with_reducible apply Keeps.refl
    | intro _
    | with_reducible assumption
    | (fail_if_no_progress extract_lets +onlyGivenNames x
       first | (refine Keeps.hyp x ?_ (fun _ => ?_); subst x; rotate_left; clear_value x; rotate_left) | clear_value x)
    | with_reducible apply keeps_cyclesTurn
    | with_reducible apply keeps_State_wr
    | with_reducible apply keeps_portStop
    | with_reducible apply keeps_lanesSleep
    | with_reducible apply keeps_scribesWake
    | with_reducible apply keeps_powerStart
    | with_reducible apply keeps_emuStart
    | with_reducible apply keeps_groupsWake
    | with_reducible apply keeps_portStart
    | with_reducible apply keeps_lanesWake
    | with_reducible apply keeps_epochApply
    | with_reducible refine Keeps.ofPair (by assumption) ?_
    | with_reducible apply Keeps.foldl
    | with_reducible apply Keeps.foldlPair
    | with_reducible apply Keeps.ite
    | fail_if_no_progress (with_reducible apply Keeps.mk')
    | split

end Sys2Proof.Laws
end

