-- ==== Sys2Proof/Laws/KeepThermal.lean ====
section
/-! SUPPORT. `Keeps` of every operation of Machine/Thermal.lean. -/

namespace Sys2Proof.Laws

open Sys2Proof.Machine

set_option linter.unusedTactic false
set_option linter.unreachableTactic false
set_option linter.tactic.unusedName false

theorem keeps_State_setSensor (s : State) (n : Nat) (x2 : Sensor) {r0 : State} (hr : Keeps r0 s) : Keeps r0 (State.setSensor s n x2) := by
  refine Keeps.trans hr ?_
  clear hr
  unfold State.setSensor
  repeat' first
    | with_reducible apply Keeps.refl
    | intro _
    | with_reducible assumption
    | (fail_if_no_progress extract_lets +onlyGivenNames x
       first | (refine Keeps.hyp x ?_ (fun _ => ?_); subst x; rotate_left; clear_value x; rotate_left) | clear_value x)
    | fail_if_no_progress (with_reducible apply Keeps.mk')

theorem keeps_setDieForbids (s : State) (b : Bool) {r0 : State} (hr : Keeps r0 s) : Keeps r0 (setDieForbids s b) := by
  refine Keeps.trans hr ?_
  clear hr
  unfold setDieForbids
  repeat' first
    | with_reducible apply Keeps.refl
    | intro _
    | with_reducible assumption
    | (fail_if_no_progress extract_lets +onlyGivenNames x
       first | (refine Keeps.hyp x ?_ (fun _ => ?_); subst x; rotate_left; clear_value x; rotate_left) | clear_value x)
    | with_reducible apply keeps_chargeUpdate
    | with_reducible apply Keeps.foldl
    | with_reducible apply Keeps.foldlPair
    | fail_if_no_progress (with_reducible apply Keeps.mk')

theorem keeps_serviceEnd (s : State) {r0 : State} (hr : Keeps r0 s) : Keeps r0 (serviceEnd s) := by
  refine Keeps.trans hr ?_
  clear hr
  unfold serviceEnd
  repeat' first
    | with_reducible apply Keeps.refl
    | intro _
    | with_reducible assumption
    | (fail_if_no_progress extract_lets +onlyGivenNames x
       first | (refine Keeps.hyp x ?_ (fun _ => ?_); subst x; rotate_left; clear_value x; rotate_left) | clear_value x)
    | with_reducible apply keeps_setStopFrom
    | with_reducible apply keeps_requestMode
    | with_reducible apply Keeps.ite
    | fail_if_no_progress (with_reducible apply Keeps.mk')

theorem keeps_dieWarned (s : State) {r0 : State} (hr : Keeps r0 s) : Keeps r0 (dieWarned s) := by
  refine Keeps.trans hr ?_
  clear hr
  unfold dieWarned
  repeat' first
    | with_reducible apply Keeps.refl
    | intro _
    | with_reducible assumption
    | with_reducible apply keeps_serviceEnd
    | with_reducible apply keeps_requestStop
    | with_reducible refine Keeps.ofPair (by assumption) ?_
    | with_reducible apply Keeps.ite
    | fail_if_no_progress (with_reducible apply Keeps.mk')
    | split

theorem keeps_dieWarning (s : State) {r0 : State} (hr : Keeps r0 s) : Keeps r0 (dieWarning s) := by
  refine Keeps.trans hr ?_
  clear hr
  unfold dieWarning
  repeat' first
    | with_reducible apply Keeps.refl
    | intro _
    | with_reducible assumption
    | with_reducible apply keeps_dieWarned
    | with_reducible refine Keeps.ofPair (by assumption) ?_
    | with_reducible apply Keeps.ite
    | fail_if_no_progress (with_reducible apply Keeps.mk')
    | split

theorem keeps_dieLimit (s : State) {r0 : State} (hr : Keeps r0 s) : Keeps r0 (dieLimit s) := by
  refine Keeps.trans hr ?_
  clear hr
  unfold dieLimit
  repeat' first
    | with_reducible apply Keeps.refl
    | intro _
    | with_reducible assumption
    | (fail_if_no_progress extract_lets +onlyGivenNames x
       first | (refine Keeps.hyp x ?_ (fun _ => ?_); subst x; rotate_left; clear_value x; rotate_left) | clear_value x)
    | with_reducible apply keeps_setDieForbids
    | with_reducible apply keeps_heartbeat
    | with_reducible apply keeps_twinFail
    | with_reducible apply keeps_serviceEnd
    | with_reducible apply keeps_requestStop
    | with_reducible refine Keeps.ofPair (by assumption) ?_
    | with_reducible apply Keeps.ite
    | fail_if_no_progress (with_reducible apply Keeps.mk')
    | split

theorem keeps_dieUpdate (s : State) (stack : Bool) {r0 : State} (hr : Keeps r0 s) : Keeps r0 (dieUpdate s stack) := by
  refine Keeps.trans hr ?_
  clear hr
  unfold dieUpdate
  repeat' first
    | with_reducible apply Keeps.refl
    | intro _
    | with_reducible assumption
    | (fail_if_no_progress extract_lets +onlyGivenNames x
       first | (refine Keeps.hyp x ?_ (fun _ => ?_); subst x; rotate_left; clear_value x; rotate_left) | subst x)
    | with_reducible apply keeps_State_wr
    | with_reducible apply keeps_State_wri
    | with_reducible apply keeps_State_wrb
    | with_reducible apply keeps_State_event
    | with_reducible apply keeps_dieLimit
    | with_reducible apply keeps_setDieForbids
    | with_reducible apply keeps_dieWarning
    | with_reducible apply Keeps.foldl
    | with_reducible apply Keeps.foldlPair
    | with_reducible refine Keeps.ofPair (by assumption) ?_
    | with_reducible apply Keeps.ite

theorem keeps_flashUpdate (s : State) {r0 : State} (hr : Keeps r0 s) : Keeps r0 (flashUpdate s) := by
  refine Keeps.trans hr ?_
  clear hr
  unfold flashUpdate
  repeat' first
    | with_reducible apply Keeps.refl
    | intro _
    | with_reducible assumption
    | (fail_if_no_progress extract_lets +onlyGivenNames x
       first | (refine Keeps.hyp x ?_ (fun _ => ?_); subst x; rotate_left; clear_value x; rotate_left) | clear_value x)
    | with_reducible apply keeps_State_wrb
    | with_reducible apply Keeps.ite
    | fail_if_no_progress (with_reducible apply Keeps.mk')

theorem keeps_flashRefuse (s : State) (who : Nat) {r0 : State} (hr : Keeps r0 s) : Keeps r0 (flashRefuse s who) := by
  refine Keeps.trans hr ?_
  clear hr
  unfold flashRefuse
  repeat' first
    | with_reducible apply Keeps.refl
    | intro _
    | with_reducible assumption
    | (fail_if_no_progress extract_lets +onlyGivenNames x
       first | (refine Keeps.hyp x ?_ (fun _ => ?_); subst x; rotate_left; clear_value x; rotate_left) | clear_value x)
    | with_reducible apply keeps_flashUpdate
    | with_reducible apply keeps_State_event
    | with_reducible apply keeps_State_count
    | fail_if_no_progress (with_reducible apply Keeps.mk')

theorem keeps_sensSet (s : State) (n : Nat) (st : Nat) (v : Int) {r0 : State} (hr : Keeps r0 s) : Keeps r0 (sensSet s n st v) := by
  refine Keeps.trans hr ?_
  clear hr
  unfold sensSet
  repeat' first
    | with_reducible apply Keeps.refl
    | intro _
    | with_reducible assumption
    | (fail_if_no_progress extract_lets +onlyGivenNames x
       first | (refine Keeps.hyp x ?_ (fun _ => ?_); subst x; rotate_left; clear_value x; rotate_left) | clear_value x)
    | with_reducible apply keeps_State_wri
    | with_reducible apply keeps_State_wr
    | with_reducible apply keeps_State_event
    | with_reducible apply Keeps.ite

theorem keeps_sensFail (s : State) (n : Nat) {r0 : State} (hr : Keeps r0 s) : Keeps r0 (sensFail s n) := by
  refine Keeps.trans hr ?_
  clear hr
  unfold sensFail
  repeat' first
    | with_reducible apply Keeps.refl
    | intro _
    | with_reducible assumption
    | (fail_if_no_progress extract_lets +onlyGivenNames x
       first | (refine Keeps.hyp x ?_ (fun _ => ?_); subst x; rotate_left; clear_value x; rotate_left) | clear_value x)
    | with_reducible apply keeps_sensSet
    | with_reducible refine Keeps.ofPair (by assumption) ?_
    | with_reducible apply Keeps.ite
    | fail_if_no_progress (with_reducible apply Keeps.mk')
    | split

theorem keeps_substFollow (s : State) {r0 : State} (hr : Keeps r0 s) : Keeps r0 (substFollow s) := by
  refine Keeps.trans hr ?_
  clear hr
  unfold substFollow
  repeat' first
    | with_reducible apply Keeps.refl
    | intro _
    | with_reducible assumption
    | with_reducible apply keeps_sensFail
    | with_reducible refine Keeps.ofPair (by assumption) ?_
    | with_reducible apply Keeps.foldl
    | with_reducible apply Keeps.foldlPair
    | with_reducible apply Keeps.ite
    | fail_if_no_progress (with_reducible apply Keeps.mk')
    | split

theorem keeps_thermalUpdate (s : State) (stack : Bool) {r0 : State} (hr : Keeps r0 s) : Keeps r0 (thermalUpdate s stack) := by
  refine Keeps.trans hr ?_
  clear hr
  unfold thermalUpdate
  repeat' first
    | with_reducible apply Keeps.refl
    | intro _
    | with_reducible assumption
    | with_reducible apply keeps_flashUpdate
    | with_reducible apply keeps_dieUpdate
    | with_reducible apply keeps_substFollow
    | with_reducible refine Keeps.ofPair (by assumption) ?_
    | with_reducible apply Keeps.ite
    | fail_if_no_progress (with_reducible apply Keeps.mk')

theorem keeps_tempMoved (s : State) (n : Nat) {r0 : State} (hr : Keeps r0 s) : Keeps r0 (tempMoved s n) := by
  refine Keeps.trans hr ?_
  clear hr
  unfold tempMoved
  repeat' first
    | with_reducible apply Keeps.refl
    | intro _
    | with_reducible assumption
    | (fail_if_no_progress extract_lets +onlyGivenNames x
       first | (refine Keeps.hyp x ?_ (fun _ => ?_); subst x; rotate_left; clear_value x; rotate_left) | clear_value x)
    | with_reducible apply keeps_recalDue
    | with_reducible apply Keeps.foldl
    | with_reducible apply Keeps.foldlPair
    | with_reducible refine Keeps.ofPair (by assumption) ?_
    | with_reducible apply Keeps.ite
    | fail_if_no_progress (with_reducible apply Keeps.mk')
    | split

theorem keeps_sensEvent (s : State) (n : Nat) (old : Int) {r0 : State} (hr : Keeps r0 s) : Keeps r0 (sensEvent s n old) := by
  refine Keeps.trans hr ?_
  clear hr
  unfold sensEvent
  repeat' first
    | with_reducible apply Keeps.refl
    | intro _
    | with_reducible assumption
    | (fail_if_no_progress extract_lets +onlyGivenNames x
       first | (refine Keeps.hyp x ?_ (fun _ => ?_); subst x; rotate_left; clear_value x; rotate_left) | clear_value x)
    | with_reducible apply keeps_State_event
    | with_reducible apply Keeps.ite

theorem keeps_sensConvert (s : State) (n : Nat) (raw : Int) {r0 : State} (hr : Keeps r0 s) : Keeps r0 (sensConvert s n raw) := by
  refine Keeps.trans hr ?_
  clear hr
  unfold sensConvert
  repeat' first
    | with_reducible apply Keeps.refl
    | intro _
    | with_reducible assumption
    | (fail_if_no_progress extract_lets +onlyGivenNames x
       first | (refine Keeps.hyp x ?_ (fun _ => ?_); subst x; rotate_left; clear_value x; rotate_left) | clear_value x)
    | with_reducible apply keeps_State_wri
    | with_reducible apply keeps_State_setSensor
    | with_reducible apply keeps_sensFail
    | with_reducible apply keeps_sensSet
    | with_reducible apply keeps_tempMoved
    | with_reducible apply keeps_sensEvent
    | with_reducible refine Keeps.ofPair (by assumption) ?_
    | with_reducible apply Keeps.ite
    | fail_if_no_progress (with_reducible apply Keeps.mk')
    | split

theorem keeps_sensLearn (s : State) (dt : Nat) (n : Nat) {r0 : State} (hr : Keeps r0 s) : Keeps r0 (sensLearn s dt n) := by
  refine Keeps.trans hr ?_
  clear hr
  unfold sensLearn
  repeat' first
    | with_reducible apply Keeps.refl
    | intro _
    | with_reducible assumption
    | (fail_if_no_progress extract_lets +onlyGivenNames x
       first | (refine Keeps.hyp x ?_ (fun _ => ?_); subst x; rotate_left; clear_value x; rotate_left) | clear_value x)
    | with_reducible apply keeps_State_setSensor
    | with_reducible apply keeps_State_wri
    | with_reducible refine Keeps.ofPair (by assumption) ?_
    | with_reducible apply Keeps.ite
    | fail_if_no_progress (with_reducible apply Keeps.mk')
    | split

theorem keeps_thermSweep (s : State) (raws : List Int) {r0 : State} (hr : Keeps r0 s) : Keeps r0 (thermSweep s raws) := by
  refine Keeps.trans hr ?_
  clear hr
  unfold thermSweep
  repeat' first
    | with_reducible apply Keeps.refl
    | intro _
    | with_reducible assumption
    | (fail_if_no_progress extract_lets +onlyGivenNames x
       first | (refine Keeps.hyp x ?_ (fun _ => ?_); subst x; rotate_left; clear_value x; rotate_left) | clear_value x)
    | with_reducible apply keeps_sensConvert
    | with_reducible apply keeps_sensLearn
    | with_reducible apply keeps_thermalUpdate
    | with_reducible apply Keeps.foldl
    | with_reducible apply Keeps.foldlPair
    | with_reducible refine Keeps.ofPair (by assumption) ?_
    | fail_if_no_progress (with_reducible apply Keeps.mk')
    | split

theorem keeps_sensRestore (s : State) (n : Nat) {r0 : State} (hr : Keeps r0 s) : Keeps r0 (sensRestore s n) := by
  refine Keeps.trans hr ?_
  clear hr
  unfold sensRestore
  repeat' first
    | with_reducible apply Keeps.refl
    | intro _
    | with_reducible assumption
    | (fail_if_no_progress extract_lets +onlyGivenNames x
       first | (refine Keeps.hyp x ?_ (fun _ => ?_); subst x; rotate_left; clear_value x; rotate_left) | clear_value x)
    | with_reducible apply keeps_thermalUpdate
    | with_reducible apply keeps_sensSet
    | with_reducible apply keeps_State_setSensor
    | with_reducible refine Keeps.ofPair (by assumption) ?_
    | with_reducible apply Keeps.ite
    | fail_if_no_progress (with_reducible apply Keeps.mk')
    | split

theorem keeps_State_setHead (s : State) (k : Nat) (x2 : HeadTemp) {r0 : State} (hr : Keeps r0 s) : Keeps r0 (State.setHead s k x2) := by
  refine Keeps.trans hr ?_
  clear hr
  unfold State.setHead
  repeat' first
    | with_reducible apply Keeps.refl
    | intro _
    | with_reducible assumption
    | (fail_if_no_progress extract_lets +onlyGivenNames x
       first | (refine Keeps.hyp x ?_ (fun _ => ?_); subst x; rotate_left; clear_value x; rotate_left) | clear_value x)
    | fail_if_no_progress (with_reducible apply Keeps.mk')

theorem keeps_headRelearn (s : State) (k : Nat) {r0 : State} (hr : Keeps r0 s) : Keeps r0 (headRelearn s k) := by
  refine Keeps.trans hr ?_
  clear hr
  unfold headRelearn
  repeat' first
    | with_reducible apply Keeps.refl
    | intro _
    | with_reducible assumption
    | with_reducible apply keeps_State_setHead
    | with_reducible refine Keeps.ofPair (by assumption) ?_
    | with_reducible apply Keeps.ite
    | fail_if_no_progress (with_reducible apply Keeps.mk')

theorem keeps_headEval (s : State) (k : Nat) {r0 : State} (hr : Keeps r0 s) : Keeps r0 (headEval s k) := by
  refine Keeps.trans hr ?_
  clear hr
  unfold headEval
  repeat' first
    | with_reducible apply Keeps.refl
    | intro _
    | with_reducible assumption
    | (fail_if_no_progress extract_lets +onlyGivenNames x
       first | (refine Keeps.hyp x ?_ (fun _ => ?_); subst x; rotate_left; clear_value x; rotate_left) | clear_value x)
    | with_reducible apply keeps_State_wrb
    | with_reducible apply keeps_State_wr
    | with_reducible apply keeps_State_event
    | with_reducible apply keeps_tempPass
    | with_reducible apply keeps_tempEval
    | with_reducible refine Keeps.ofPair (by assumption) ?_
    | with_reducible apply Keeps.ite
    | fail_if_no_progress (with_reducible apply Keeps.mk')
    | split

theorem keeps_headTake (s : State) (k : Nat) (driver : Bool) (v : Int) {r0 : State} (hr : Keeps r0 s) : Keeps r0 (headTake s k driver v) := by
  refine Keeps.trans hr ?_
  clear hr
  unfold headTake
  repeat' first
    | with_reducible apply Keeps.refl
    | intro _
    | with_reducible assumption
    | (fail_if_no_progress extract_lets +onlyGivenNames x
       first | (refine Keeps.hyp x ?_ (fun _ => ?_); subst x; rotate_left; clear_value x; rotate_left) | clear_value x)
    | with_reducible apply keeps_State_wri
    | with_reducible apply keeps_State_setHead
    | with_reducible refine Keeps.ofPair (by assumption) ?_
    | with_reducible apply Keeps.ite
    | fail_if_no_progress (with_reducible apply Keeps.mk')
    | split

theorem keeps_headReport (s : State) (k : Nat) (fields : Nat) {r0 : State} (hr : Keeps r0 s) : Keeps r0 (headReport s k fields) := by
  refine Keeps.trans hr ?_
  clear hr
  unfold headReport
  repeat' first
    | with_reducible apply Keeps.refl
    | intro _
    | with_reducible assumption
    | (fail_if_no_progress extract_lets +onlyGivenNames x
       first | (refine Keeps.hyp x ?_ (fun _ => ?_); subst x; rotate_left; clear_value x; rotate_left) | clear_value x)
    | with_reducible apply keeps_headEval
    | with_reducible apply keeps_headTake
    | with_reducible refine Keeps.ofPair (by assumption) ?_
    | with_reducible apply Keeps.ite

theorem keeps_execTempSet (t : Nat) (lane : Nat) (word : Nat) (s : State) {r0 : State} (hr : Keeps r0 s) : KeepsOut r0 (execTempSet t lane word s) := by
  refine KeepsOut.trans hr ?_
  clear hr
  unfold execTempSet
  repeat' first
    | with_reducible apply Keeps.refl
    | intro _
    | with_reducible apply keeps_State_settle
    | with_reducible apply keeps_onSet
    | with_reducible apply keeps_State_at
    | with_reducible apply keeps_headReport
    | with_reducible apply KeepsOut.next

theorem keeps_execTempTimeout (t : Nat) (slot : Nat) (s : State) {r0 : State} (hr : Keeps r0 s) : KeepsOut r0 (execTempTimeout t slot s) := by
  refine KeepsOut.trans hr ?_
  clear hr
  unfold execTempTimeout
  repeat' first
    | with_reducible apply Keeps.refl
    | intro _
    | with_reducible assumption
    | (fail_if_no_progress extract_lets +onlyGivenNames x
       first | (refine KeepsOut.hyp x ?_ (fun _ => ?_); subst x; rotate_left; clear_value x; rotate_left) | clear_value x)
    | (fail_if_no_progress extract_lets +onlyGivenNames x
       first | (refine Keeps.hyp x ?_ (fun _ => ?_); subst x; rotate_left; clear_value x; rotate_left) | clear_value x)
    | with_reducible apply keeps_State_at
    | with_reducible apply keeps_State_settle
    | with_reducible apply keeps_headEval
    | with_reducible apply KeepsOut.next
    | with_reducible apply KeepsOut.ite
    | with_reducible apply KeepsOut.onEngine
    | with_reducible apply Keeps.ite

theorem keeps_execTlimLock (t : Nat) (s : State) {r0 : State} (hr : Keeps r0 s) : KeepsOut r0 (execTlimLock t s) := by
  refine KeepsOut.trans hr ?_
  clear hr
  unfold execTlimLock
  repeat' first
    | with_reducible apply Keeps.refl
    | intro _
    | with_reducible assumption
    | (fail_if_no_progress extract_lets +onlyGivenNames x
       first | (refine KeepsOut.hyp x ?_ (fun _ => ?_); subst x; rotate_left; clear_value x; rotate_left) | clear_value x)
    | with_reducible apply keeps_State_at
    | with_reducible apply keeps_State_wr
    | with_reducible apply KeepsOut.next
    | with_reducible apply KeepsOut.onEngine
    | with_reducible apply KeepsOut.ite
    | with_reducible refine Keeps.ofPair (by assumption) ?_
    | with_reducible apply Keeps.ite
    | fail_if_no_progress (with_reducible apply Keeps.mk')
    | split

end Sys2Proof.Laws
end

