-- ==== Sys2Proof/Laws/KeepMemory.lean ====
section
/-! SUPPORT. `Keeps` of every operation of Machine/Memory.lean. -/

namespace Sys2Proof.Laws

open Sys2Proof.Machine

set_option linter.unusedTactic false
set_option linter.unreachableTactic false
set_option linter.tactic.unusedName false

theorem keeps_memArrive (s : State) (p : Nat) (source : Nat) (addr : Nat) (len : Nat) (data : Option (List Byte)) {r0 : State} (hr : Keeps r0 s) : Keeps r0 (memArrive s p source addr len data) := by
  refine Keeps.trans hr ?_
  clear hr
  unfold memArrive
  repeat' first
    | with_reducible apply Keeps.refl
    | intro _
    | with_reducible assumption
    | (fail_if_no_progress extract_lets +onlyGivenNames x
       first | (refine Keeps.hyp x ?_ (fun _ => ?_); subst x; rotate_left; clear_value x; rotate_left) | clear_value x)
    | with_reducible apply Keeps.ite
    | fail_if_no_progress (with_reducible apply Keeps.mk')

theorem keeps_showUrgency (s : State) {r0 : State} (hr : Keeps r0 s) : Keeps r0 (showUrgency s) := by
  refine Keeps.trans hr ?_
  clear hr
  unfold showUrgency
  repeat' first
    | with_reducible apply Keeps.refl
    | intro _
    | with_reducible assumption
    | (fail_if_no_progress extract_lets +onlyGivenNames x
       first | (refine Keeps.hyp x ?_ (fun _ => ?_); subst x; rotate_left; clear_value x; rotate_left) | clear_value x)
    | with_reducible apply keeps_State_wr
    | with_reducible apply Keeps.foldl

theorem keeps_nrrIssue (s : State) (pc : Nat) {r0 : State} (hr : Keeps r0 s) : Keeps r0 (nrrIssue s pc) := by
  refine Keeps.trans hr ?_
  clear hr
  unfold nrrIssue
  repeat' first
    | with_reducible apply Keeps.refl
    | intro _
    | with_reducible assumption
    | (fail_if_no_progress extract_lets +onlyGivenNames x
       first | (refine Keeps.hyp x ?_ (fun _ => ?_); subst x; rotate_left; clear_value x; rotate_left) | clear_value x)
    | with_reducible apply keeps_State_emit
    | with_reducible refine Keeps.ofPair (by assumption) ?_
    | with_reducible apply Keeps.foldl
    | with_reducible apply Keeps.foldlPair
    | with_reducible apply Keeps.ite
    | fail_if_no_progress (with_reducible apply Keeps.mk')
    | split

theorem keeps_rowActivate (s : State) (a : Nat) {r0 : State} (hr : Keeps r0 s) : Keeps r0 (rowActivate s a) := by
  refine Keeps.trans hr ?_
  clear hr
  unfold rowActivate
  repeat' first
    | with_reducible apply Keeps.refl
    | intro _
    | with_reducible assumption
    | (fail_if_no_progress extract_lets +onlyGivenNames x
       first | (refine Keeps.hyp x ?_ (fun _ => ?_); subst x; rotate_left; clear_value x; rotate_left) | clear_value x)
    | with_reducible apply keeps_State_emit
    | with_reducible apply keeps_activate
    | with_reducible apply keeps_State_spend
    | with_reducible refine Keeps.ofPair (by assumption) ?_
    | with_reducible apply Keeps.ite
    | fail_if_no_progress (with_reducible apply Keeps.mk')
    | split

theorem keeps_rowAccess (s : State) (a : Nat) (write : Bool) (more : Bool) {r0 : State} (hr : Keeps r0 s) : Keeps r0 (rowAccess s a write more) := by
  refine Keeps.trans hr ?_
  clear hr
  unfold rowAccess
  repeat' first
    | with_reducible apply Keeps.refl
    | intro _
    | with_reducible assumption
    | (fail_if_no_progress extract_lets +onlyGivenNames x
       first | (refine Keeps.hyp x ?_ (fun _ => ?_); subst x; rotate_left; clear_value x; rotate_left) | clear_value x)
    | with_reducible apply keeps_rowActivate
    | with_reducible apply keeps_nrrIssue
    | with_reducible apply keeps_State_emit
    | with_reducible refine Keeps.ofPair (by assumption) ?_
    | with_reducible apply Keeps.ite
    | fail_if_no_progress (with_reducible apply Keeps.mk')
    | split

theorem keeps_freezeAxes (s : State) {r0 : State} (hr : Keeps r0 s) : Keeps r0 (freezeAxes s) := by
  refine Keeps.trans hr ?_
  clear hr
  unfold freezeAxes
  repeat' first
    | with_reducible apply Keeps.refl
    | intro _
    | with_reducible apply keeps_axisStop
    | with_reducible apply Keeps.foldl

theorem keeps_freezeBindery (s : State) {r0 : State} (hr : Keeps r0 s) : Keeps r0 (freezeBindery s) := by
  refine Keeps.trans hr ?_
  clear hr
  unfold freezeBindery
  repeat' first
    | with_reducible apply Keeps.refl
    | intro _
    | with_reducible assumption
    | (fail_if_no_progress extract_lets +onlyGivenNames x
       first | (refine Keeps.hyp x ?_ (fun _ => ?_); subst x; rotate_left; clear_value x; rotate_left) | clear_value x)
    | with_reducible apply keeps_State_wr
    | fail_if_no_progress (with_reducible apply Keeps.mk')

theorem keeps_cuDiscard (s : State) {r0 : State} (hr : Keeps r0 s) : Keeps r0 (cuDiscard s) :=
  Keeps.mkMem hr (mem_wf_filter _)

theorem keeps_loopsFreeze (s : State) {r0 : State} (hr : Keeps r0 s) : Keeps r0 (loopsFreeze s) := by
  have h : Keeps r0 (((List.range 16).foldl (fun s p => s.wr Reg.CL_XSHIFT.xs_staged p 0) s).wr Reg.CL_RECAL_STATUS.busy 0 0) :=
    keeps_State_wr _ _ _ _ (Keeps.foldl _ (fun _ _ => keeps_State_wr _ _ _ _ (Keeps.refl _)) _ hr)
  exact keeps_cuDiscard _ (Keeps.mk' h)

theorem keeps_freezeEnter (s : State) (cause : Nat) (port : Nat) (source : Nat) (addr : Nat) (named : Bool) {r0 : State} (hr : Keeps r0 s) : Keeps r0 (freezeEnter s cause port source addr named) := by
  refine Keeps.trans hr ?_
  clear hr
  unfold freezeEnter
  repeat' first
    | with_reducible apply Keeps.refl
    | intro _
    | with_reducible assumption
    | (fail_if_no_progress extract_lets +onlyGivenNames x
       first | (refine Keeps.hyp x ?_ (fun _ => ?_); subst x; rotate_left; clear_value x; rotate_left) | clear_value x)
    | with_reducible apply keeps_State_emit
    | with_reducible apply keeps_State_spend
    | with_reducible apply keeps_State_wr
    | with_reducible apply keeps_ledCheck
    | with_reducible apply keeps_epochAbandon
    | with_reducible apply keeps_setStep
    | with_reducible apply keeps_setMode
    | with_reducible apply keeps_heartbeat
    | with_reducible apply keeps_twinFail
    | with_reducible apply keeps_gpInt
    | with_reducible apply keeps_movesStop
    | with_reducible apply keeps_freezeBindery
    | with_reducible apply keeps_freezeAxes
    | with_reducible apply keeps_loopsFreeze
    | with_reducible apply keeps_modeEvent
    | with_reducible apply keeps_State_event
    | with_reducible refine Keeps.ofPair (by assumption) ?_
    | with_reducible apply Keeps.foldl
    | with_reducible apply Keeps.foldlPair
    | with_reducible apply Keeps.ite
    | fail_if_no_progress (with_reducible apply Keeps.mk')
    | split

theorem keeps_freezeWithhold (s : State) {r0 : State} (hr : Keeps r0 s) : Keeps r0 (freezeWithhold s) := by
  refine Keeps.trans hr ?_
  clear hr
  unfold freezeWithhold
  repeat' first
    | with_reducible apply Keeps.refl
    | intro _
    | with_reducible assumption
    | (fail_if_no_progress extract_lets +onlyGivenNames x
       first | (refine Keeps.hyp x ?_ (fun _ => ?_); subst x; rotate_left; clear_value x; rotate_left) | clear_value x)
    | with_reducible apply keeps_moveLine
    | with_reducible apply keeps_setFate
    | with_reducible apply keeps_dropPart
    | with_reducible apply keeps_moveDrops
    | with_reducible refine Keeps.ofPair (by assumption) ?_
    | with_reducible apply Keeps.foldl
    | with_reducible apply Keeps.foldlPair
    | with_reducible apply Keeps.ite
    | fail_if_no_progress (with_reducible apply Keeps.mk')
    | split

theorem keeps_eccCorrected (s : State) (addr : Nat) {r0 : State} (hr : Keeps r0 s) : Keeps r0 (eccCorrected s addr) := by
  refine Keeps.trans hr ?_
  clear hr
  unfold eccCorrected
  repeat' first
    | with_reducible apply Keeps.refl
    | intro _
    | with_reducible assumption
    | (fail_if_no_progress extract_lets +onlyGivenNames x
       first | (refine Keeps.hyp x ?_ (fun _ => ?_); subst x; rotate_left; clear_value x; rotate_left) | clear_value x)
    | with_reducible apply keeps_State_count
    | with_reducible apply Keeps.ite
    | fail_if_no_progress (with_reducible apply Keeps.mk')

theorem keeps_lanesFix (s : State) {r0 : State} (hr : Keeps r0 s) : Keeps r0 (lanesFix s) := by
  refine Keeps.trans hr ?_
  clear hr
  unfold lanesFix
  repeat' first
    | with_reducible apply Keeps.refl
    | intro _
    | with_reducible assumption
    | (fail_if_no_progress extract_lets +onlyGivenNames x
       first | (refine Keeps.hyp x ?_ (fun _ => ?_); subst x; rotate_left; clear_value x; rotate_left) | clear_value x)
    | with_reducible apply keeps_repairAdd
    | with_reducible apply keeps_State_wr
    | with_reducible refine Keeps.ofPair (by assumption) ?_
    | with_reducible apply Keeps.foldl
    | with_reducible apply Keeps.foldlPair
    | with_reducible apply Keeps.ite
    | fail_if_no_progress (with_reducible apply Keeps.mk')
    | split

theorem keeps_laneFail (s : State) (k : Nat) {r0 : State} (hr : Keeps r0 s) : Keeps r0 (laneFail s k) := by
  refine Keeps.trans hr ?_
  clear hr
  unfold laneFail
  repeat' first
    | with_reducible apply Keeps.refl
    | intro _
    | with_reducible assumption
    | with_reducible refine Keeps.ofPair (by assumption) ?_
    | with_reducible apply Keeps.ite
    | fail_if_no_progress (with_reducible apply Keeps.mk')
    | split

theorem keeps_laneSeen (s : State) (addr : Nat) (symbol : Nat) {r0 : State} (hr : Keeps r0 s) : Keeps r0 (laneSeen s addr symbol) := by
  refine Keeps.trans hr ?_
  clear hr
  unfold laneSeen
  repeat' first
    | with_reducible apply Keeps.refl
    | intro _
    | with_reducible assumption
    | (fail_if_no_progress extract_lets +onlyGivenNames x
       first | (refine Keeps.hyp x ?_ (fun _ => ?_); subst x; rotate_left; clear_value x; rotate_left) | clear_value x)
    | with_reducible apply keeps_laneFail
    | with_reducible refine Keeps.ofPair (by assumption) ?_
    | with_reducible apply Keeps.ite
    | fail_if_no_progress (with_reducible apply Keeps.mk')
    | split

theorem keeps_eccFound (s : State) (ecc : Nat) (port : Nat) (source : Nat) (addr : Nat) {r0 : State} (hr : Keeps r0 s) : Keeps r0 (eccFound s ecc port source addr) := by
  refine Keeps.trans hr ?_
  clear hr
  unfold eccFound
  repeat' first
    | with_reducible apply Keeps.refl
    | intro _
    | with_reducible assumption
    | (fail_if_no_progress extract_lets +onlyGivenNames x
       first | (refine Keeps.hyp x ?_ (fun _ => ?_); subst x; rotate_left; clear_value x; rotate_left) | clear_value x)
    | with_reducible apply keeps_State_count
    | with_reducible apply keeps_laneSeen
    | with_reducible apply keeps_eccCorrected
    | with_reducible apply keeps_freezeEnter
    | with_reducible apply keeps_lanesFix
    | with_reducible refine Keeps.ofPair (by assumption) ?_
    | with_reducible apply Keeps.ite
    | fail_if_no_progress (with_reducible apply Keeps.mk')
    | split

theorem keeps_memBurst (r : MemReq) (ecc : Nat) (s : State) (b : Nat × Nat) {r0 : State} (hr : Keeps r0 s) : Keeps r0 (memBurst r ecc s b) := by
  refine Keeps.trans hr ?_
  clear hr
  unfold memBurst
  repeat' first
    | with_reducible apply Keeps.refl
    | intro _
    | with_reducible assumption
    | (fail_if_no_progress extract_lets +onlyGivenNames x
       first | (refine Keeps.hyp x ?_ (fun _ => ?_); subst x; rotate_left; clear_value x; rotate_left) | clear_value x)
    | with_reducible apply keeps_eccFound
    | with_reducible apply keeps_rowAccess
    | with_reducible refine Keeps.ofPair (by assumption) ?_
    | with_reducible apply Keeps.ite
    | fail_if_no_progress (with_reducible apply Keeps.mk')
    | split

theorem keeps_memServe (s : State) (pc : Nat) (ecc : Nat) {r0 : State} (hr : Keeps r0 s) : Keeps r0 (memServe s pc ecc) := by
  refine Keeps.trans hr ?_
  clear hr
  unfold memServe
  repeat' first
    | with_reducible apply Keeps.refl
    | intro _
    | with_reducible assumption
    | (fail_if_no_progress extract_lets +onlyGivenNames x
       first | (refine Keeps.hyp x ?_ (fun _ => ?_); subst x; rotate_left; clear_value x; rotate_left) | clear_value x)
    | with_reducible apply keeps_State_count
    | with_reducible apply keeps_memBurst
    | with_reducible apply keeps_State_pokeBytes
    | with_reducible apply keeps_State_emit
    | with_reducible apply keeps_showUrgency
    | with_reducible refine Keeps.ofPair (by assumption) ?_
    | with_reducible apply Keeps.foldl
    | with_reducible apply Keeps.foldlPair
    | with_reducible apply Keeps.ite
    | fail_if_no_progress (with_reducible apply Keeps.mk')
    | split

theorem keeps_scrubRead (s : State) (ecc : Nat) {r0 : State} (hr : Keeps r0 s) : Keeps r0 (scrubRead s ecc) := by
  refine Keeps.trans hr ?_
  clear hr
  unfold scrubRead
  repeat' first
    | with_reducible apply Keeps.refl
    | intro _
    | with_reducible assumption
    | (fail_if_no_progress extract_lets +onlyGivenNames x
       first | (refine Keeps.hyp x ?_ (fun _ => ?_); subst x; rotate_left; clear_value x; rotate_left) | clear_value x)
    | with_reducible apply keeps_laneFail
    | with_reducible apply keeps_eccFound
    | with_reducible apply keeps_rowAccess
    | with_reducible apply keeps_State_count
    | with_reducible refine Keeps.ofPair (by assumption) ?_
    | with_reducible apply Keeps.ite
    | fail_if_no_progress (with_reducible apply Keeps.mk')
    | split

theorem keeps_rowCopy (s : State) (k : Nat) (spare : Nat) {r0 : State} (hr : Keeps r0 s) : Keeps r0 (rowCopy s k spare) := by
  refine Keeps.trans hr ?_
  clear hr
  unfold rowCopy
  repeat' first
    | with_reducible apply Keeps.refl
    | intro _
    | with_reducible assumption
    | (fail_if_no_progress extract_lets +onlyGivenNames x
       first | (refine Keeps.hyp x ?_ (fun _ => ?_); subst x; rotate_left; clear_value x; rotate_left) | clear_value x)
    | with_reducible apply keeps_rowAccess
    | with_reducible apply keeps_State_emit
    | with_reducible apply keeps_activate
    | with_reducible refine Keeps.ofPair (by assumption) ?_
    | with_reducible apply Keeps.foldl
    | with_reducible apply Keeps.foldlPair
    | with_reducible apply Keeps.ite
    | fail_if_no_progress (with_reducible apply Keeps.mk')

theorem keeps_rowRepair (s : State) {r0 : State} (hr : Keeps r0 s) : Keeps r0 (rowRepair s) := by
  refine Keeps.trans hr ?_
  clear hr
  unfold rowRepair
  repeat' first
    | with_reducible apply Keeps.refl
    | intro _
    | with_reducible assumption
    | (fail_if_no_progress extract_lets +onlyGivenNames x
       first | (refine Keeps.hyp x ?_ (fun _ => ?_); subst x; rotate_left; clear_value x; rotate_left) | clear_value x)
    | with_reducible apply keeps_rowCopy
    | with_reducible apply keeps_State_wr
    | with_reducible apply keeps_repairAdd
    | with_reducible apply keeps_State_event
    | with_reducible refine Keeps.ofPair (by assumption) ?_
    | with_reducible apply Keeps.ite
    | fail_if_no_progress (with_reducible apply Keeps.mk')
    | split

theorem keeps_repairWrite (s : State) {r0 : State} (hr : Keeps r0 s) : Keeps r0 (repairWrite s) := by
  refine Keeps.trans hr ?_
  clear hr
  unfold repairWrite
  repeat' first
    | with_reducible apply Keeps.refl
    | intro _
    | with_reducible assumption
    | (fail_if_no_progress extract_lets +onlyGivenNames x
       first | (refine Keeps.hyp x ?_ (fun _ => ?_); subst x; rotate_left; clear_value x; rotate_left) | clear_value x)
    | with_reducible apply keeps_flashRefuse
    | with_reducible apply Keeps.ite
    | fail_if_no_progress (with_reducible apply Keeps.mk')

theorem keeps_bankRefresh (s : State) (pc : Nat) (bank : Nat) {r0 : State} (hr : Keeps r0 s) : Keeps r0 (bankRefresh s pc bank) := by
  refine Keeps.trans hr ?_
  clear hr
  unfold bankRefresh
  repeat' first
    | with_reducible apply Keeps.refl
    | intro _
    | with_reducible assumption
    | (fail_if_no_progress extract_lets +onlyGivenNames x
       first | (refine Keeps.hyp x ?_ (fun _ => ?_); subst x; rotate_left; clear_value x; rotate_left) | clear_value x)
    | with_reducible apply keeps_State_emit
    | with_reducible apply keeps_nrrIssue
    | with_reducible refine Keeps.ofPair (by assumption) ?_
    | with_reducible apply Keeps.foldl
    | with_reducible apply Keeps.foldlPair
    | with_reducible apply Keeps.ite
    | fail_if_no_progress (with_reducible apply Keeps.mk')
    | split

theorem keeps_stackTempRead (s : State) (stack : Nat) (v : Int) {r0 : State} (hr : Keeps r0 s) : Keeps r0 (stackTempRead s stack v) := by
  refine Keeps.trans hr ?_
  clear hr
  unfold stackTempRead
  repeat' first
    | with_reducible apply Keeps.refl
    | intro _
    | with_reducible assumption
    | (fail_if_no_progress extract_lets +onlyGivenNames x
       first | (refine Keeps.hyp x ?_ (fun _ => ?_); subst x; rotate_left; clear_value x; rotate_left) | clear_value x)
    | with_reducible apply keeps_State_wri
    | with_reducible apply keeps_State_wr
    | with_reducible apply keeps_thermalUpdate
    | with_reducible apply Keeps.ite

theorem keeps_codesMove (s : State) (pc : Nat) {r0 : State} (hr : Keeps r0 s) : Keeps r0 (codesMove s pc) := by
  refine Keeps.trans hr ?_
  clear hr
  unfold codesMove
  repeat' first
    | with_reducible apply Keeps.refl
    | intro _
    | with_reducible assumption
    | with_reducible apply keeps_State_spend
    | with_reducible refine Keeps.ofPair (by assumption) ?_
    | with_reducible apply Keeps.ite
    | fail_if_no_progress (with_reducible apply Keeps.mk')

theorem keeps_retrainWindow (s : State) (pc : Nat) (rd : Nat) (wr : Nat) {r0 : State} (hr : Keeps r0 s) : Keeps r0 (retrainWindow s pc rd wr) := by
  refine Keeps.trans hr ?_
  clear hr
  unfold retrainWindow
  repeat' first
    | with_reducible apply Keeps.refl
    | intro _
    | with_reducible assumption
    | (fail_if_no_progress extract_lets +onlyGivenNames x
       first | (refine Keeps.hyp x ?_ (fun _ => ?_); subst x; rotate_left; clear_value x; rotate_left) | clear_value x)
    | with_reducible apply keeps_codesMove
    | with_reducible apply keeps_State_wr
    | with_reducible apply keeps_State_wri
    | with_reducible apply keeps_recalDue
    | with_reducible apply keeps_State_event
    | with_reducible refine Keeps.ofPair (by assumption) ?_
    | with_reducible apply Keeps.ite
    | fail_if_no_progress (with_reducible apply Keeps.mk')
    | split

theorem keeps_repairApply (s : State) (kind : Nat) (unit : Nat) {r0 : State} (hr : Keeps r0 s) : Keeps r0 (repairApply s kind unit) := by
  refine Keeps.trans hr ?_
  clear hr
  unfold repairApply
  repeat' first
    | with_reducible apply Keeps.refl
    | intro _
    | with_reducible assumption
    | (fail_if_no_progress extract_lets +onlyGivenNames x
       first | (refine Keeps.hyp x ?_ (fun _ => ?_); subst x; rotate_left; clear_value x; rotate_left) | clear_value x)
    | with_reducible apply keeps_setLstate
    | with_reducible apply keeps_State_wr
    | with_reducible apply keeps_State_wrb
    | with_reducible apply keeps_State_count
    | with_reducible refine Keeps.ofPair (by assumption) ?_
    | with_reducible apply Keeps.ite
    | fail_if_no_progress (with_reducible apply Keeps.mk')
    | split

theorem keeps_rrUncorrectable (s : State) (off : Nat) {r0 : State} (hr : Keeps r0 s) : Keeps r0 (rrUncorrectable s off) := by
  refine Keeps.trans hr ?_
  clear hr
  unfold rrUncorrectable
  repeat' first
    | with_reducible apply Keeps.refl
    | intro _
    | with_reducible assumption
    | (fail_if_no_progress extract_lets +onlyGivenNames x
       first | (refine Keeps.hyp x ?_ (fun _ => ?_); subst x; rotate_left; clear_value x; rotate_left) | clear_value x)
    | with_reducible apply keeps_State_event
    | with_reducible apply Keeps.ite
    | fail_if_no_progress (with_reducible apply Keeps.mk')

theorem keeps_rrCorrected (s : State) (off : Nat) {r0 : State} (hr : Keeps r0 s) : Keeps r0 (rrCorrected s off) := by
  refine Keeps.trans hr ?_
  clear hr
  unfold rrCorrected
  repeat' first
    | with_reducible apply Keeps.refl
    | intro _
    | with_reducible assumption
    | (fail_if_no_progress extract_lets +onlyGivenNames x
       first | (refine Keeps.hyp x ?_ (fun _ => ?_); subst x; rotate_left; clear_value x; rotate_left) | clear_value x)
    | with_reducible apply keeps_State_count
    | with_reducible refine Keeps.ofPair (by assumption) ?_
    | with_reducible apply Keeps.ite
    | fail_if_no_progress (with_reducible apply Keeps.mk')
    | split

theorem keeps_rrMet (s : State) (err : Nat) {r0 : State} (hr : Keeps r0 s) : Keeps r0 (rrMet s err) := by
  refine Keeps.trans hr ?_
  clear hr
  unfold rrMet
  repeat' first
    | with_reducible apply Keeps.refl
    | intro _
    | with_reducible assumption
    | with_reducible apply keeps_rrCorrected
    | with_reducible apply keeps_rrUncorrectable
    | with_reducible refine Keeps.ofPair (by assumption) ?_
    | with_reducible apply Keeps.ite
    | fail_if_no_progress (with_reducible apply Keeps.mk')
    | split

theorem keeps_memFetch (s : State) (a : Nat) (n : Nat) {r0 : State} (hr : Keeps r0 s) : Keeps r0 (memFetch s a n).1 := by
  refine Keeps.trans hr ?_
  clear hr
  unfold memFetch
  repeat' first
    | with_reducible apply Keeps.refl
    | intro _
    | with_reducible assumption
    | (fail_if_no_progress extract_lets +onlyGivenNames x
       first | (refine Keeps.hyp x ?_ (fun _ => ?_); subst x; rotate_left; clear_value x; rotate_left) | clear_value x)
    | with_reducible apply keeps_rrUncorrectable
    | with_reducible apply Keeps.foldl
    | with_reducible apply Keeps.foldlPair
    | with_reducible apply Keeps.ite1

theorem keeps_bankRetire (s : State) (b : Nat) {r0 : State} (hr : Keeps r0 s) : Keeps r0 (bankRetire s b) := by
  refine Keeps.trans hr ?_
  clear hr
  unfold bankRetire
  repeat' first
    | with_reducible apply Keeps.refl
    | intro _
    | with_reducible assumption
    | (fail_if_no_progress extract_lets +onlyGivenNames x
       first | (refine Keeps.hyp x ?_ (fun _ => ?_); subst x; rotate_left; clear_value x; rotate_left) | clear_value x)
    | with_reducible apply keeps_repairAdd
    | with_reducible apply keeps_State_event
    | with_reducible apply keeps_State_count
    | fail_if_no_progress (with_reducible apply Keeps.mk')

theorem keeps_rrRotate (s : State) {r0 : State} (hr : Keeps r0 s) : Keeps r0 (rrRotate s) := by
  refine Keeps.trans hr ?_
  clear hr
  unfold rrRotate
  repeat' first
    | with_reducible apply Keeps.refl
    | intro _
    | with_reducible assumption
    | (fail_if_no_progress extract_lets +onlyGivenNames x
       first | (refine Keeps.hyp x ?_ (fun _ => ?_); subst x; rotate_left; clear_value x; rotate_left) | clear_value x)
    | with_reducible apply keeps_State_wr
    | with_reducible apply keeps_bankRetire
    | with_reducible refine Keeps.ofPair (by assumption) ?_
    | with_reducible apply Keeps.ite
    | fail_if_no_progress (with_reducible apply Keeps.mk')
    | split

theorem keeps_rrTested (s : State) (ok : Bool) {r0 : State} (hr : Keeps r0 s) : Keeps r0 (rrTested s ok) := by
  refine Keeps.trans hr ?_
  clear hr
  unfold rrTested
  repeat' first
    | with_reducible apply Keeps.refl
    | intro _
    | with_reducible assumption
    | (fail_if_no_progress extract_lets +onlyGivenNames x
       first | (refine Keeps.hyp x ?_ (fun _ => ?_); subst x; rotate_left; clear_value x; rotate_left) | clear_value x)
    | with_reducible apply keeps_State_wr
    | with_reducible apply keeps_bankRetire
    | with_reducible refine Keeps.ofPair (by assumption) ?_
    | with_reducible apply Keeps.ite
    | fail_if_no_progress (with_reducible apply Keeps.mk')
    | split

theorem keeps_execStacksRequest (t : Nat) (port : Nat) (source : Nat) (addr : Nat) (len : Nat) (write : Bool) (data : List Byte) (s : State) {r0 : State} (hr : Keeps r0 s) : KeepsOut r0 (execStacksRequest t port source addr len write data s) := by
  refine KeepsOut.trans hr ?_
  clear hr
  unfold execStacksRequest
  repeat' first
    | with_reducible apply Keeps.refl
    | intro _
    | with_reducible assumption
    | (fail_if_no_progress extract_lets +onlyGivenNames x
       first | (refine KeepsOut.hyp x ?_ (fun _ => ?_); subst x; rotate_left; clear_value x; rotate_left) | clear_value x)
    | with_reducible apply keeps_State_at
    | with_reducible apply keeps_State_emit
    | with_reducible apply keeps_showUrgency
    | with_reducible apply keeps_memArrive
    | with_reducible apply KeepsOut.next
    | with_reducible apply KeepsOut.onEngine
    | with_reducible apply KeepsOut.ite
    | with_reducible refine Keeps.ofPair (by assumption) ?_
    | with_reducible apply Keeps.ite
    | fail_if_no_progress (with_reducible apply Keeps.mk')
    | split

theorem keeps_execStacksUrgencyRise (t : Nat) (s : State) {r0 : State} (hr : Keeps r0 s) : KeepsOut r0 (execStacksUrgencyRise t s) := by
  refine KeepsOut.trans hr ?_
  clear hr
  unfold execStacksUrgencyRise
  repeat' first
    | with_reducible apply Keeps.refl
    | intro _
    | with_reducible apply keeps_showUrgency
    | with_reducible apply keeps_State_at
    | with_reducible apply KeepsOut.next

theorem keeps_execStacksRequestServed (t : Nat) (pc : Nat) (ecc : Nat) (s : State) {r0 : State} (hr : Keeps r0 s) : KeepsOut r0 (execStacksRequestServed t pc ecc s) := by
  refine KeepsOut.trans hr ?_
  clear hr
  unfold execStacksRequestServed
  repeat' first
    | with_reducible apply Keeps.refl
    | intro _
    | with_reducible apply keeps_State_settle
    | with_reducible apply keeps_memServe
    | with_reducible apply keeps_State_at
    | with_reducible apply KeepsOut.next

theorem keeps_execBankRefresh (t : Nat) (pc : Nat) (bank : Nat) (s : State) {r0 : State} (hr : Keeps r0 s) : KeepsOut r0 (execBankRefresh t pc bank s) := by
  refine KeepsOut.trans hr ?_
  clear hr
  unfold execBankRefresh
  repeat' first
    | with_reducible apply Keeps.refl
    | intro _
    | with_reducible apply keeps_bankRefresh
    | with_reducible apply keeps_State_at
    | with_reducible apply KeepsOut.next

theorem keeps_execHbmParityError (t : Nat) (kind : Nat) (port : Nat) (source : Nat) (addr : Nat) (named : Bool) (s : State) {r0 : State} (hr : Keeps r0 s) : KeepsOut r0 (execHbmParityError t kind port source addr named s) := by
  refine KeepsOut.trans hr ?_
  clear hr
  unfold execHbmParityError
  repeat' first
    | with_reducible apply Keeps.refl
    | intro _
    | with_reducible apply keeps_State_settle
    | with_reducible apply keeps_freezeEnter
    | with_reducible apply keeps_State_at
    | with_reducible apply KeepsOut.next

theorem keeps_execHbmReadTimeout (t : Nat) (port : Nat) (source : Nat) (addr : Nat) (s : State) {r0 : State} (hr : Keeps r0 s) : KeepsOut r0 (execHbmReadTimeout t port source addr s) := by
  refine KeepsOut.trans hr ?_
  clear hr
  unfold execHbmReadTimeout
  repeat' first
    | with_reducible apply Keeps.refl
    | intro _
    | with_reducible apply keeps_State_settle
    | with_reducible apply keeps_freezeEnter
    | with_reducible apply keeps_State_at
    | with_reducible apply KeepsOut.next

theorem keeps_execScrubRead (t : Nat) (ecc : Nat) (s : State) {r0 : State} (hr : Keeps r0 s) : KeepsOut r0 (execScrubRead t ecc s) := by
  refine KeepsOut.trans hr ?_
  clear hr
  unfold execScrubRead
  repeat' first
    | with_reducible apply Keeps.refl
    | intro _
    | with_reducible apply keeps_State_settle
    | with_reducible apply keeps_scrubRead
    | with_reducible apply keeps_State_at
    | with_reducible apply KeepsOut.next

theorem keeps_execRowRepair (t : Nat) (s : State) {r0 : State} (hr : Keeps r0 s) : KeepsOut r0 (execRowRepair t s) := by
  refine KeepsOut.trans hr ?_
  clear hr
  unfold execRowRepair
  repeat' first
    | with_reducible apply Keeps.refl
    | intro _
    | with_reducible apply keeps_rowRepair
    | with_reducible apply keeps_State_at
    | with_reducible apply KeepsOut.next

theorem keeps_execRepairRecordWrite (t : Nat) (s : State) {r0 : State} (hr : Keeps r0 s) : KeepsOut r0 (execRepairRecordWrite t s) := by
  refine KeepsOut.trans hr ?_
  clear hr
  unfold execRepairRecordWrite
  repeat' first
    | with_reducible apply Keeps.refl
    | intro _
    | with_reducible apply keeps_repairWrite
    | with_reducible apply keeps_State_at
    | with_reducible apply KeepsOut.next

theorem keeps_execRetrainWindow (t : Nat) (pc : Nat) (rd : Nat) (wr : Nat) (s : State) {r0 : State} (hr : Keeps r0 s) : KeepsOut r0 (execRetrainWindow t pc rd wr s) := by
  refine KeepsOut.trans hr ?_
  clear hr
  unfold execRetrainWindow
  repeat' first
    | with_reducible apply Keeps.refl
    | intro _
    | with_reducible apply keeps_retrainWindow
    | with_reducible apply keeps_State_at
    | with_reducible apply KeepsOut.next

theorem keeps_execFreezeEntry (t : Nat) (cause : Nat) (port : Nat) (source : Nat) (addr : Nat) (s : State) {r0 : State} (hr : Keeps r0 s) : KeepsOut r0 (execFreezeEntry t cause port source addr s) := by
  refine KeepsOut.trans hr ?_
  clear hr
  unfold execFreezeEntry
  repeat' first
    | with_reducible apply Keeps.refl
    | intro _
    | with_reducible apply keeps_State_settle
    | with_reducible apply keeps_freezeEnter
    | with_reducible apply keeps_State_at
    | with_reducible apply KeepsOut.next

theorem keeps_execFreezeWithholdExpiry (t : Nat) (s : State) {r0 : State} (hr : Keeps r0 s) : KeepsOut r0 (execFreezeWithholdExpiry t s) := by
  refine KeepsOut.trans hr ?_
  clear hr
  unfold execFreezeWithholdExpiry
  repeat' first
    | with_reducible apply Keeps.refl
    | intro _
    | with_reducible apply keeps_freezeWithhold
    | with_reducible apply keeps_State_at
    | with_reducible apply KeepsOut.next

theorem keeps_execRrRotation (t : Nat) (s : State) {r0 : State} (hr : Keeps r0 s) : KeepsOut r0 (execRrRotation t s) := by
  refine KeepsOut.trans hr ?_
  clear hr
  unfold execRrRotation
  repeat' first
    | with_reducible apply Keeps.refl
    | intro _
    | with_reducible apply keeps_rrRotate
    | with_reducible apply keeps_State_at
    | with_reducible apply KeepsOut.next

theorem keeps_execRrBankTestComplete (t : Nat) (ok : Bool) (s : State) {r0 : State} (hr : Keeps r0 s) : KeepsOut r0 (execRrBankTestComplete t ok s) := by
  refine KeepsOut.trans hr ?_
  clear hr
  unfold execRrBankTestComplete
  repeat' first
    | with_reducible apply Keeps.refl
    | intro _
    | with_reducible apply keeps_rrTested
    | with_reducible apply keeps_State_at
    | with_reducible apply KeepsOut.next

end Sys2Proof.Laws
end

