-- ==== Sys2Proof/Laws/KeepBindery.lean ====
section
/-! SUPPORT. `Keeps` of every operation of Machine/Bindery.lean. -/

namespace Sys2Proof.Laws

open Sys2Proof.Machine

set_option linter.unusedTactic false
set_option linter.unreachableTactic false
set_option linter.tactic.unusedName false

theorem keeps_State_setBind (s : State) (u : Nat) (x2 : Bindery) {r0 : State} (hr : Keeps r0 s) : Keeps r0 (State.setBind s u x2) := by
  refine Keeps.trans hr ?_
  clear hr
  unfold State.setBind
  repeat' first
    | with_reducible apply Keeps.refl
    | intro _
    | with_reducible assumption
    | (fail_if_no_progress extract_lets +onlyGivenNames x
       first | (refine Keeps.hyp x ?_ (fun _ => ?_); subst x; rotate_left; clear_value x; rotate_left) | clear_value x)
    | fail_if_no_progress (with_reducible apply Keeps.mk')

theorem keeps_bndShow (s : State) (u : Nat) {r0 : State} (hr : Keeps r0 s) : Keeps r0 (bndShow s u) := by
  refine Keeps.trans hr ?_
  clear hr
  unfold bndShow
  repeat' first
    | with_reducible apply Keeps.refl
    | intro _
    | with_reducible assumption
    | (fail_if_no_progress extract_lets +onlyGivenNames x
       first | (refine Keeps.hyp x ?_ (fun _ => ?_); subst x; rotate_left; clear_value x; rotate_left) | clear_value x)
    | with_reducible apply keeps_State_wr
    | with_reducible apply keeps_State_wrb

theorem keeps_bndClose (s : State) (u : Nat) {r0 : State} (hr : Keeps r0 s) : Keeps r0 (bndClose s u) := by
  refine Keeps.trans hr ?_
  clear hr
  unfold bndClose
  repeat' first
    | with_reducible apply Keeps.refl
    | intro _
    | with_reducible assumption
    | (fail_if_no_progress extract_lets +onlyGivenNames x
       first | (refine Keeps.hyp x ?_ (fun _ => ?_); subst x; rotate_left; clear_value x; rotate_left) | clear_value x)
    | with_reducible apply keeps_State_setBind

theorem keeps_bndAbandon (s : State) (u : Nat) {r0 : State} (hr : Keeps r0 s) : Keeps r0 (bndAbandon s u) := by
  refine Keeps.trans hr ?_
  clear hr
  unfold bndAbandon
  repeat' first
    | with_reducible apply Keeps.refl
    | intro _
    | with_reducible apply keeps_bndShow
    | with_reducible apply keeps_bndClose
    | with_reducible apply keeps_State_count
    | with_reducible apply Keeps.ite

theorem keeps_bndBegin (s : State) (u : Nat) (d : Desc) (e : Desc) (job : Nat × Nat) {r0 : State} (hr : Keeps r0 s) : Keeps r0 (bndBegin s u d e job) := by
  refine Keeps.trans hr ?_
  clear hr
  unfold bndBegin
  repeat' first
    | with_reducible apply Keeps.refl
    | intro _
    | with_reducible assumption
    | (fail_if_no_progress extract_lets +onlyGivenNames x
       first | (refine Keeps.hyp x ?_ (fun _ => ?_); subst x; rotate_left; clear_value x; rotate_left) | clear_value x)
    | with_reducible apply keeps_bndAbandon
    | with_reducible apply keeps_memFetch
    | with_reducible apply keeps_State_setBind
    | with_reducible apply keeps_bndShow
    | with_reducible apply keeps_State_wr
    | with_reducible apply keeps_State_countMod
    | with_reducible refine Keeps.ofPair (by assumption) ?_
    | with_reducible apply Keeps.ite
    | fail_if_no_progress (with_reducible apply Keeps.mk')
    | split

theorem keeps_bndStart (s : State) (u : Nat) (dec : Bool) {r0 : State} (hr : Keeps r0 s) : Keeps r0 (bndStart s u dec) := by
  refine Keeps.trans hr ?_
  clear hr
  unfold bndStart
  repeat' first
    | with_reducible apply Keeps.refl
    | intro _
    | with_reducible assumption
    | (fail_if_no_progress extract_lets +onlyGivenNames x
       first | (refine Keeps.hyp x ?_ (fun _ => ?_); subst x; rotate_left; clear_value x; rotate_left) | clear_value x)
    | with_reducible apply keeps_ringTake
    | with_reducible apply keeps_bndShow
    | with_reducible apply keeps_State_setBind
    | with_reducible apply keeps_bndBegin
    | with_reducible apply Keeps.ite

theorem keeps_bndWrite (s : State) (u : Nat) (bytes : List Byte) {r0 : State} (hr : Keeps r0 s) : Keeps r0 (bndWrite s u bytes) := by
  refine Keeps.trans hr ?_
  clear hr
  unfold bndWrite
  repeat' first
    | with_reducible apply Keeps.refl
    | intro _
    | with_reducible assumption
    | (fail_if_no_progress extract_lets +onlyGivenNames x
       first | (refine Keeps.hyp x ?_ (fun _ => ?_); subst x; rotate_left; clear_value x; rotate_left) | clear_value x)
    | with_reducible apply keeps_State_pokeBytes
    | with_reducible apply keeps_State_setBind
    | with_reducible apply keeps_State_countMod
    | with_reducible refine Keeps.ofPair (by assumption) ?_
    | with_reducible apply Keeps.ite
    | fail_if_no_progress (with_reducible apply Keeps.mk')

theorem keeps_bndPut (s : State) (u : Nat) (bs : List Bool) {r0 : State} (hr : Keeps r0 s) : Keeps r0 (bndPut s u bs) := by
  refine Keeps.trans hr ?_
  clear hr
  unfold bndPut
  repeat' first
    | with_reducible apply Keeps.refl
    | intro _
    | with_reducible assumption
    | (fail_if_no_progress extract_lets +onlyGivenNames x
       first | (refine Keeps.hyp x ?_ (fun _ => ?_); subst x; rotate_left; clear_value x; rotate_left) | clear_value x)
    | with_reducible apply keeps_bndWrite
    | with_reducible apply keeps_State_setBind
    | with_reducible refine Keeps.ofPair (by assumption) ?_
    | with_reducible apply Keeps.ite

theorem keeps_bndSuspect (s : State) (u : Nat) {r0 : State} (hr : Keeps r0 s) : Keeps r0 (bndSuspect s u) := by
  refine Keeps.trans hr ?_
  clear hr
  unfold bndSuspect
  repeat' first
    | with_reducible apply Keeps.refl
    | intro _
    | with_reducible assumption
    | (fail_if_no_progress extract_lets +onlyGivenNames x
       first | (refine Keeps.hyp x ?_ (fun _ => ?_); subst x; rotate_left; clear_value x; rotate_left) | clear_value x)
    | with_reducible apply keeps_State_count
    | with_reducible apply keeps_State_setBind
    | with_reducible apply keeps_State_event
    | with_reducible apply keeps_State_wr
    | with_reducible apply Keeps.ite

theorem keeps_bndBlock (s : State) (u : Nat) (coded : List Bool) (storedOk : Bool) {r0 : State} (hr : Keeps r0 s) : Keeps r0 (bndBlock s u coded storedOk) := by
  refine Keeps.trans hr ?_
  clear hr
  unfold bndBlock
  repeat' first
    | with_reducible apply Keeps.refl
    | intro _
    | with_reducible assumption
    | (fail_if_no_progress extract_lets +onlyGivenNames x
       first | (refine Keeps.hyp x ?_ (fun _ => ?_); subst x; rotate_left; clear_value x; rotate_left) | clear_value x)
    | with_reducible apply keeps_bndPut
    | with_reducible apply keeps_State_setBind
    | with_reducible apply keeps_bndSuspect
    | with_reducible refine Keeps.ofPair (by assumption) ?_
    | with_reducible apply Keeps.ite
    | fail_if_no_progress (with_reducible apply Keeps.mk')
    | split

theorem keeps_compressTail (s : State) (u : Nat) {r0 : State} (hr : Keeps r0 s) : Keeps r0 (compressTail s u) := by
  refine Keeps.trans hr ?_
  clear hr
  unfold compressTail
  repeat' first
    | with_reducible apply Keeps.refl
    | intro _
    | with_reducible assumption
    | (fail_if_no_progress extract_lets +onlyGivenNames x
       first | (refine Keeps.hyp x ?_ (fun _ => ?_); subst x; rotate_left; clear_value x; rotate_left) | clear_value x)
    | with_reducible apply keeps_bndPut
    | with_reducible apply keeps_State_setBind
    | with_reducible apply keeps_bndClose
    | with_reducible apply keeps_bndWrite
    | with_reducible apply Keeps.ite

theorem keeps_decompressRun (s : State) (u : Nat) {r0 : State} (hr : Keeps r0 s) : Keeps r0 (decompressRun s u) := by
  refine Keeps.trans hr ?_
  clear hr
  unfold decompressRun
  repeat' first
    | with_reducible apply Keeps.refl
    | intro _
    | with_reducible assumption
    | (fail_if_no_progress extract_lets +onlyGivenNames x
       first | (refine Keeps.hyp x ?_ (fun _ => ?_); subst x; rotate_left; clear_value x; rotate_left) | clear_value x)
    | with_reducible apply keeps_bndWrite
    | with_reducible apply keeps_State_setBind
    | with_reducible apply keeps_State_countMod
    | with_reducible apply keeps_bndClose
    | with_reducible refine Keeps.ofPair (by assumption) ?_
    | with_reducible apply Keeps.ite
    | fail_if_no_progress (with_reducible apply Keeps.mk')
    | split

theorem keeps_bndFinish (s : State) (u : Nat) {r0 : State} (hr : Keeps r0 s) : Keeps r0 (bndFinish s u) := by
  refine Keeps.trans hr ?_
  clear hr
  unfold bndFinish
  repeat' first
    | with_reducible apply Keeps.refl
    | intro _
    | with_reducible assumption
    | (fail_if_no_progress extract_lets +onlyGivenNames x
       first | (refine Keeps.hyp x ?_ (fun _ => ?_); subst x; rotate_left; clear_value x; rotate_left) | clear_value x)
    | with_reducible apply keeps_bndClose
    | with_reducible apply keeps_State_setBind
    | with_reducible apply keeps_compressTail
    | with_reducible apply keeps_decompressRun
    | with_reducible apply Keeps.ite

theorem keeps_bndCount (s : State) (u : Nat) (status : Nat) {r0 : State} (hr : Keeps r0 s) : Keeps r0 (bndCount s u status) := by
  refine Keeps.trans hr ?_
  clear hr
  unfold bndCount
  repeat' first
    | with_reducible apply Keeps.refl
    | intro _
    | with_reducible apply keeps_State_count
    | with_reducible apply Keeps.ite

theorem keeps_bndComplete (s : State) (u : Nat) {r0 : State} (hr : Keeps r0 s) : Keeps r0 (bndComplete s u) := by
  refine Keeps.trans hr ?_
  clear hr
  unfold bndComplete
  repeat' first
    | with_reducible apply Keeps.refl
    | intro _
    | with_reducible assumption
    | (fail_if_no_progress extract_lets +onlyGivenNames x
       first | (refine Keeps.hyp x ?_ (fun _ => ?_); subst x; rotate_left; clear_value x; rotate_left) | clear_value x)
    | with_reducible apply keeps_bndFinish
    | with_reducible apply keeps_bndCount
    | with_reducible apply keeps_State_setBind
    | with_reducible apply keeps_ringComplete
    | with_reducible apply keeps_bndShow
    | with_reducible refine Keeps.ofPair (by assumption) ?_
    | with_reducible apply Keeps.ite
    | fail_if_no_progress (with_reducible apply Keeps.mk')
    | split

theorem keeps_execBinderyCompress (t : Nat) (unit : Nat) (s : State) {r0 : State} (hr : Keeps r0 s) : KeepsOut r0 (execBinderyCompress t unit s) := by
  refine KeepsOut.trans hr ?_
  clear hr
  unfold execBinderyCompress
  repeat' first
    | with_reducible apply Keeps.refl
    | intro _
    | with_reducible apply keeps_bndStart
    | with_reducible apply keeps_State_at
    | with_reducible apply KeepsOut.next

theorem keeps_execBinderyDecompress (t : Nat) (unit : Nat) (s : State) {r0 : State} (hr : Keeps r0 s) : KeepsOut r0 (execBinderyDecompress t unit s) := by
  refine KeepsOut.trans hr ?_
  clear hr
  unfold execBinderyDecompress
  repeat' first
    | with_reducible apply Keeps.refl
    | intro _
    | with_reducible apply keeps_bndStart
    | with_reducible apply keeps_State_at
    | with_reducible apply KeepsOut.next

theorem keeps_execBinderyBlockWrite (t : Nat) (unit : Nat) (coded : List Byte) (nbits : Nat) (storedOk : Bool) (s : State) {r0 : State} (hr : Keeps r0 s) : KeepsOut r0 (execBinderyBlockWrite t unit coded nbits storedOk s) := by
  refine KeepsOut.trans hr ?_
  clear hr
  unfold execBinderyBlockWrite
  repeat' first
    | with_reducible apply Keeps.refl
    | intro _
    | with_reducible apply keeps_bndBlock
    | with_reducible apply keeps_State_at
    | with_reducible apply KeepsOut.next

end Sys2Proof.Laws
end

