-- ==== Sys2Proof/Laws/KeepPages.lean ====
section
/-! SUPPORT. `Keeps` of every operation of Machine/Pages.lean. -/

namespace Sys2Proof.Laws

open Sys2Proof.Machine

set_option linter.unusedTactic false
set_option linter.unreachableTactic false
set_option linter.tactic.unusedName false

theorem keeps_jobOpen (s : State) (id : Nat) (code : Nat) {r0 : State} (hr : Keeps r0 s) : Keeps r0 (jobOpen s id code) := by
  refine Keeps.trans hr ?_
  clear hr
  unfold jobOpen
  repeat' first
    | with_reducible apply Keeps.refl
    | intro _
    | with_reducible assumption
    | (fail_if_no_progress extract_lets +onlyGivenNames x
       first | (refine Keeps.hyp x ?_ (fun _ => ?_); subst x; rotate_left; clear_value x; rotate_left) | clear_value x)
    | with_reducible apply keeps_State_wr
    | with_reducible refine Keeps.ofPair (by assumption) ?_
    | with_reducible apply Keeps.ite
    | fail_if_no_progress (with_reducible apply Keeps.mk')
    | split

theorem keeps_pageQueue (s : State) (a : Nat) (first : Nat) {r0 : State} (hr : Keeps r0 s) : Keeps r0 (pageQueue s a first).1 := by
  refine Keeps.trans hr ?_
  clear hr
  unfold pageQueue
  repeat' first
    | with_reducible apply Keeps.refl
    | intro _
    | with_reducible assumption
    | (fail_if_no_progress extract_lets +onlyGivenNames x
       first | (refine Keeps.hyp x ?_ (fun _ => ?_); subst x; rotate_left; clear_value x; rotate_left) | clear_value x)
    | with_reducible apply keeps_jobOpen
    | with_reducible apply keeps_State_wr
    | with_reducible apply keeps_State_twin
    | with_reducible apply keeps_leadUpdate
    | with_reducible apply keeps_skipGap
    | with_reducible apply keeps_setOrigin
    | with_reducible refine Keeps.ofPair (by assumption) ?_
    | with_reducible apply Keeps.ite
    | with_reducible apply Keeps.ite1
    | fail_if_no_progress (with_reducible apply Keeps.mk')
    | split

theorem keeps_linePage (s : State) (a : Nat) (first : Nat) {r0 : State} (hr : Keeps r0 s) : Keeps r0 (linePage s a first).1 := by
  refine Keeps.trans hr ?_
  clear hr
  unfold linePage
  repeat' first
    | with_reducible apply Keeps.refl
    | intro _
    | with_reducible assumption
    | (fail_if_no_progress extract_lets +onlyGivenNames x
       first | (refine Keeps.hyp x ?_ (fun _ => ?_); subst x; rotate_left; clear_value x; rotate_left) | subst x)
    | with_reducible apply keeps_pageQueue
    | with_reducible refine Keeps.ofPair (by assumption) ?_
    | with_reducible apply Keeps.ite1

theorem keeps_substAccept (s : State) (x1 : SubstChange) (nozzle : Nat) (spare : Nat) (n : Nat) {r0 : State} (hr : Keeps r0 s) : Keeps r0 (substAccept s x1 nozzle spare n) := by
  refine Keeps.trans hr ?_
  clear hr
  unfold substAccept
  repeat' first
    | with_reducible apply Keeps.refl
    | intro _
    | with_reducible assumption
    | (fail_if_no_progress extract_lets +onlyGivenNames x
       first | (refine Keeps.hyp x ?_ (fun _ => ?_); subst x; rotate_left; clear_value x; rotate_left) | clear_value x)
    | with_reducible apply keeps_State_twin
    | with_reducible apply keeps_keepChanges
    | with_reducible apply keeps_substCommit
    | with_reducible apply keeps_substCommitAll
    | with_reducible apply Keeps.ite
    | fail_if_no_progress (with_reducible apply Keeps.mk')

theorem keeps_substSet (s : State) (nozzle : Nat) (spare : Nat) (n : Nat) {r0 : State} (hr : Keeps r0 s) : Keeps r0 (substSet s nozzle spare n).1 := by
  refine Keeps.trans hr ?_
  clear hr
  unfold substSet
  repeat' first
    | with_reducible apply Keeps.refl
    | intro _
    | with_reducible assumption
    | (fail_if_no_progress extract_lets +onlyGivenNames x
       first | (refine Keeps.hyp x ?_ (fun _ => ?_); subst x; rotate_left; clear_value x; rotate_left) | clear_value x)
    | with_reducible apply keeps_substAccept
    | with_reducible refine Keeps.ofPair (by assumption) ?_
    | fail_if_no_progress (with_reducible apply Keeps.mk')
    | split

theorem keeps_substClr (s : State) (nozzle : Nat) (n : Nat) {r0 : State} (hr : Keeps r0 s) : Keeps r0 (substClr s nozzle n).1 := by
  refine Keeps.trans hr ?_
  clear hr
  unfold substClr
  repeat' first
    | with_reducible apply Keeps.refl
    | intro _
    | with_reducible assumption
    | (fail_if_no_progress extract_lets +onlyGivenNames x
       first | (refine Keeps.hyp x ?_ (fun _ => ?_); subst x; rotate_left; clear_value x; rotate_left) | clear_value x)
    | with_reducible apply keeps_substAccept
    | with_reducible refine Keeps.ofPair (by assumption) ?_
    | fail_if_no_progress (with_reducible apply Keeps.mk')
    | split

end Sys2Proof.Laws
end

