-- ==== Sys2Proof/Laws/KeepCatalog.lean ====
section
/-! SUPPORT. `Keeps` of every operation of Machine/Catalog.lean. -/

namespace Sys2Proof.Laws

open Sys2Proof.Machine

set_option linter.unusedTactic false
set_option linter.unreachableTactic false
set_option linter.tactic.unusedName false

theorem keeps_entryTaken (s : State) (ch : Nat) (old : Option (List Byte)) {r0 : State} (hr : Keeps r0 s) : Keeps r0 (entryTaken s ch old) := by
  refine Keeps.trans hr ?_
  clear hr
  unfold entryTaken
  repeat' first
    | with_reducible apply Keeps.refl
    | intro _
    | with_reducible assumption
    | (fail_if_no_progress extract_lets +onlyGivenNames x
       first | (refine Keeps.hyp x ?_ (fun _ => ?_); subst x; rotate_left; clear_value x; rotate_left) | clear_value x)
    | with_reducible apply keeps_laneClear
    | with_reducible apply keeps_showLinks
    | with_reducible apply keeps_waveStart
    | with_reducible apply keeps_sendDrive
    | with_reducible apply keeps_chargeUpdate
    | with_reducible apply keeps_tempEval
    | with_reducible apply keeps_laneCall
    | with_reducible apply keeps_laneDown
    | with_reducible apply keeps_portStart
    | with_reducible apply keeps_portStop
    | with_reducible apply keeps_pipeBind
    | with_reducible apply keeps_axisStop
    | with_reducible apply keeps_homeFail
    | with_reducible apply keeps_showAxis
    | with_reducible apply keeps_State_setFb
    | with_reducible apply keeps_State_wr2i
    | with_reducible apply keeps_emuStart
    | with_reducible apply keeps_emuStop
    | with_reducible apply keeps_driveLinkUp
    | with_reducible apply keeps_State_wr
    | with_reducible apply keeps_ringWake
    | with_reducible apply keeps_ringSettle
    | with_reducible apply keeps_msiOwed
    | with_reducible apply keeps_State_flushEvents
    | with_reducible apply keeps_trigLoad
    | with_reducible apply keeps_bndAbandon
    | with_reducible apply keeps_bndShow
    | with_reducible apply keeps_headRelearn
    | with_reducible refine Keeps.ofPair (by assumption) ?_
    | with_reducible apply Keeps.foldl
    | with_reducible apply Keeps.foldlPair
    | with_reducible apply Keeps.ite
    | fail_if_no_progress (with_reducible apply Keeps.mk')
    | split

theorem keeps_catShow (s : State) {r0 : State} (hr : Keeps r0 s) : Keeps r0 (catShow s) := by
  refine Keeps.trans hr ?_
  clear hr
  unfold catShow
  repeat' first
    | with_reducible apply Keeps.refl
    | intro _
    | with_reducible assumption
    | (fail_if_no_progress extract_lets +onlyGivenNames x
       first | (refine Keeps.hyp x ?_ (fun _ => ?_); subst x; rotate_left; clear_value x; rotate_left) | clear_value x)
    | with_reducible apply keeps_State_wrb
    | with_reducible apply keeps_State_wr

theorem keeps_catApply (s : State) (ch : Nat) {r0 : State} (hr : Keeps r0 s) : Keeps r0 (catApply s ch) := by
  refine Keeps.trans hr ?_
  clear hr
  unfold catApply
  repeat' first
    | with_reducible apply Keeps.refl
    | intro _
    | with_reducible assumption
    | (fail_if_no_progress extract_lets +onlyGivenNames x
       first | (refine Keeps.hyp x ?_ (fun _ => ?_); subst x; rotate_left; clear_value x; rotate_left) | clear_value x)
    | with_reducible apply keeps_entryTaken
    | with_reducible apply keeps_State_catMove
    | with_reducible refine Keeps.ofPair (by assumption) ?_
    | with_reducible apply Keeps.ite
    | fail_if_no_progress (with_reducible apply Keeps.mk')
    | split

theorem keeps_State_catSettle (s : State) {r0 : State} (hr : Keeps r0 s) : Keeps r0 (State.catSettle s) := by
  refine Keeps.trans hr ?_
  clear hr
  unfold State.catSettle
  repeat' first
    | with_reducible apply Keeps.refl
    | intro _
    | with_reducible apply keeps_catApply
    | with_reducible apply Keeps.foldl
    | with_reducible apply Keeps.foldlPair
    | with_reducible apply Keeps.ite

theorem keeps_catLoad (s : State) (ch : Nat) (e : List Byte) (since : Option Nat) {r0 : State} (hr : Keeps r0 s) : Keeps r0 (catLoad s ch e since) := by
  refine Keeps.trans hr ?_
  clear hr
  unfold catLoad
  repeat' first
    | with_reducible apply Keeps.refl
    | intro _
    | with_reducible assumption
    | (fail_if_no_progress extract_lets +onlyGivenNames x
       first | (refine Keeps.hyp x ?_ (fun _ => ?_); subst x; rotate_left; clear_value x; rotate_left) | clear_value x)
    | with_reducible apply keeps_State_twin
    | with_reducible apply keeps_catApply
    | with_reducible refine Keeps.ofPair (by assumption) ?_
    | with_reducible apply Keeps.ite
    | fail_if_no_progress (with_reducible apply Keeps.mk')

theorem keeps_catFetch (s : State) (ch : Nat) {r0 : State} (hr : Keeps r0 s) : Keeps r0 (catFetch s ch) := by
  refine Keeps.trans hr ?_
  clear hr
  unfold catFetch
  repeat' first
    | with_reducible apply Keeps.refl
    | intro _
    | with_reducible assumption
    | (fail_if_no_progress extract_lets +onlyGivenNames x
       first | (refine Keeps.hyp x ?_ (fun _ => ?_); subst x; rotate_left; clear_value x; rotate_left) | clear_value x)
    | with_reducible apply keeps_catLoad
    | with_reducible apply Keeps.ite

theorem keeps_catFetched (s : State) (ch : Nat) {r0 : State} (hr : Keeps r0 s) : Keeps r0 (catFetched s ch) := by
  refine Keeps.trans hr ?_
  clear hr
  unfold catFetched
  repeat' first
    | with_reducible apply Keeps.refl
    | intro _
    | with_reducible assumption
    | (fail_if_no_progress extract_lets +onlyGivenNames x
       first | (refine Keeps.hyp x ?_ (fun _ => ?_); subst x; rotate_left; clear_value x; rotate_left) | clear_value x)
    | with_reducible apply keeps_catShow
    | with_reducible apply keeps_catFetch
    | with_reducible refine Keeps.ofPair (by assumption) ?_
    | with_reducible apply Keeps.ite
    | fail_if_no_progress (with_reducible apply Keeps.mk')
    | split

theorem keeps_catInvalidate (s : State) (ch : Nat) {r0 : State} (hr : Keeps r0 s) : Keeps r0 (catInvalidate s ch) := by
  refine Keeps.trans hr ?_
  clear hr
  unfold catInvalidate
  repeat' first
    | with_reducible apply Keeps.refl
    | intro _
    | with_reducible assumption
    | (fail_if_no_progress extract_lets +onlyGivenNames x
       first | (refine Keeps.hyp x ?_ (fun _ => ?_); subst x; rotate_left; clear_value x; rotate_left) | clear_value x)
    | with_reducible apply keeps_catShow
    | with_reducible apply Keeps.ite
    | fail_if_no_progress (with_reducible apply Keeps.mk')

theorem keeps_catInvalidateAll (s : State) {r0 : State} (hr : Keeps r0 s) : Keeps r0 (catInvalidateAll s) := by
  refine Keeps.trans hr ?_
  clear hr
  unfold catInvalidateAll
  repeat' first
    | with_reducible apply Keeps.refl
    | intro _
    | with_reducible assumption
    | (fail_if_no_progress extract_lets +onlyGivenNames x
       first | (refine Keeps.hyp x ?_ (fun _ => ?_); subst x; rotate_left; clear_value x; rotate_left) | clear_value x)
    | with_reducible apply keeps_catInvalidate
    | with_reducible apply Keeps.foldl
    | with_reducible apply Keeps.foldlPair
    | with_reducible refine Keeps.ofPair (by assumption) ?_
    | with_reducible apply Keeps.ite
    | fail_if_no_progress (with_reducible apply Keeps.mk')
    | split

theorem keeps_catWrite (s : State) (ch : Nat) (e : List Byte) {r0 : State} (hr : Keeps r0 s) : Keeps r0 (catWrite s ch e) := by
  refine Keeps.trans hr ?_
  clear hr
  unfold catWrite
  repeat' first
    | with_reducible apply Keeps.refl
    | intro _
    | with_reducible assumption
    | with_reducible apply keeps_catInvalidate
    | with_reducible apply keeps_State_pokeBytes
    | with_reducible refine Keeps.ofPair (by assumption) ?_
    | with_reducible apply Keeps.ite
    | fail_if_no_progress (with_reducible apply Keeps.mk')

theorem keeps_execCatalogFetchComplete (t : Nat) (channel : Nat) (s : State) {r0 : State} (hr : Keeps r0 s) : KeepsOut r0 (execCatalogFetchComplete t channel s) := by
  refine KeepsOut.trans hr ?_
  clear hr
  unfold execCatalogFetchComplete
  repeat' first
    | with_reducible apply Keeps.refl
    | intro _
    | with_reducible apply keeps_State_settle
    | with_reducible apply keeps_catFetched
    | with_reducible apply keeps_State_at
    | with_reducible apply KeepsOut.next

theorem keeps_execBinderyJobComplete (t : Nat) (unit : Nat) (s : State) {r0 : State} (hr : Keeps r0 s) : KeepsOut r0 (execBinderyJobComplete t unit s) := by
  refine KeepsOut.trans hr ?_
  clear hr
  unfold execBinderyJobComplete
  repeat' first
    | with_reducible apply Keeps.refl
    | intro _
    | with_reducible apply keeps_State_catSettle
    | with_reducible apply keeps_bndComplete
    | with_reducible apply keeps_State_at
    | with_reducible apply KeepsOut.next

end Sys2Proof.Laws
end

