-- ==== Sys2Proof/Laws/KeepCirculation.lean ====
section
/-! SUPPORT. `Keeps` of every operation of Machine/Circulation.lean. -/

namespace Sys2Proof.Laws

open Sys2Proof.Machine

set_option linter.unusedTactic false
set_option linter.unreachableTactic false
set_option linter.tactic.unusedName false

theorem keeps_snapAsk (s : State) {r0 : State} (hr : Keeps r0 s) : Keeps r0 (snapAsk s) := by
  refine Keeps.trans hr ?_
  clear hr
  unfold snapAsk
  repeat' first
    | with_reducible apply Keeps.refl
    | intro _
    | with_reducible assumption
    | (fail_if_no_progress extract_lets +onlyGivenNames x
       first | (refine Keeps.hyp x ?_ (fun _ => ?_); subst x; rotate_left; clear_value x; rotate_left) | clear_value x)
    | with_reducible apply keeps_State_wr
    | with_reducible apply Keeps.ite
    | fail_if_no_progress (with_reducible apply Keeps.mk')

theorem keeps_snapDone (s : State) {r0 : State} (hr : Keeps r0 s) : Keeps r0 (snapDone s) := by
  refine Keeps.trans hr ?_
  clear hr
  unfold snapDone
  repeat' first
    | with_reducible apply Keeps.refl
    | intro _
    | with_reducible assumption
    | (fail_if_no_progress extract_lets +onlyGivenNames x
       first | (refine Keeps.hyp x ?_ (fun _ => ?_); subst x; rotate_left; clear_value x; rotate_left) | clear_value x)
    | with_reducible apply keeps_State_wr
    | with_reducible apply keeps_State_wrb
    | with_reducible apply keeps_State_wr2
    | with_reducible apply keeps_ledCheck
    | with_reducible refine Keeps.ofPair (by assumption) ?_
    | with_reducible apply Keeps.ite
    | fail_if_no_progress (with_reducible apply Keeps.mk')
    | split

theorem keeps_doorProducer (s : State) (n : Nat) (p : Nat) {r0 : State} (hr : Keeps r0 s) : Keeps r0 (doorProducer s n p) := by
  refine Keeps.trans hr ?_
  clear hr
  unfold doorProducer
  repeat' first
    | with_reducible apply Keeps.refl
    | intro _
    | with_reducible assumption
    | (fail_if_no_progress extract_lets +onlyGivenNames x
       first | (refine Keeps.hyp x ?_ (fun _ => ?_); subst x; rotate_left; clear_value x; rotate_left) | clear_value x)
    | with_reducible apply keeps_ringPublish
    | with_reducible refine Keeps.ofPair (by assumption) ?_
    | with_reducible apply Keeps.ite
    | fail_if_no_progress (with_reducible apply Keeps.mk')
    | split

theorem keeps_doorConsumer (s : State) (n : Nat) (c : Nat) {r0 : State} (hr : Keeps r0 s) : Keeps r0 (doorConsumer s n c) := by
  refine Keeps.trans hr ?_
  clear hr
  unfold doorConsumer
  repeat' first
    | with_reducible apply Keeps.refl
    | intro _
    | with_reducible assumption
    | (fail_if_no_progress extract_lets +onlyGivenNames x
       first | (refine Keeps.hyp x ?_ (fun _ => ?_); subst x; rotate_left; clear_value x; rotate_left) | clear_value x)
    | with_reducible apply keeps_State_ledAdd
    | with_reducible apply keeps_State_setRing
    | with_reducible apply keeps_State_flushEvents
    | with_reducible apply Keeps.ite

theorem keeps_holdoffEnd (s : State) (n : Nat) {r0 : State} (hr : Keeps r0 s) : Keeps r0 (holdoffEnd s n) := by
  refine Keeps.trans hr ?_
  clear hr
  unfold holdoffEnd
  repeat' first
    | with_reducible apply Keeps.refl
    | intro _
    | with_reducible assumption
    | (fail_if_no_progress extract_lets +onlyGivenNames x
       first | (refine Keeps.hyp x ?_ (fun _ => ?_); subst x; rotate_left; clear_value x; rotate_left) | clear_value x)
    | with_reducible apply keeps_State_setRing
    | with_reducible apply keeps_State_wr
    | with_reducible apply keeps_msiSend
    | with_reducible apply Keeps.ite

theorem keeps_intakeRefuse (s : State) (n : Nat) (status : Nat) {r0 : State} (hr : Keeps r0 s) : Keeps r0 (intakeRefuse s n status) := by
  refine Keeps.trans hr ?_
  clear hr
  unfold intakeRefuse
  repeat' first
    | with_reducible apply Keeps.refl
    | intro _
    | with_reducible assumption
    | (fail_if_no_progress extract_lets +onlyGivenNames x
       first | (refine Keeps.hyp x ?_ (fun _ => ?_); subst x; rotate_left; clear_value x; rotate_left) | clear_value x)
    | with_reducible apply keeps_ringComplete
    | with_reducible apply keeps_ringTake

theorem keeps_intakeOther (s : State) (n : Nat) {r0 : State} (hr : Keeps r0 s) : Keeps r0 (intakeOther s n) := by
  refine Keeps.trans hr ?_
  clear hr
  unfold intakeOther
  repeat' first
    | with_reducible apply Keeps.refl
    | intro _
    | with_reducible apply keeps_intakeRefuse

theorem keeps_copyIn (s : State) (n : Nat) {r0 : State} (hr : Keeps r0 s) : Keeps r0 (copyIn s n) := by
  refine Keeps.trans hr ?_
  clear hr
  unfold copyIn
  repeat' first
    | with_reducible apply Keeps.refl
    | intro _
    | with_reducible assumption
    | (fail_if_no_progress extract_lets +onlyGivenNames x
       first | (refine Keeps.hyp x ?_ (fun _ => ?_); subst x; rotate_left; clear_value x; rotate_left) | subst x)
    | with_reducible apply keeps_intakeOther
    | with_reducible apply keeps_intakeRefuse
    | with_reducible apply keeps_ringComplete
    | with_reducible apply keeps_ringTake
    | with_reducible apply Keeps.ite
    | fail_if_no_progress (with_reducible apply Keeps.mk')

theorem keeps_copyDone (s : State) (n : Nat) {r0 : State} (hr : Keeps r0 s) : Keeps r0 (copyDone s n) := by
  refine Keeps.trans hr ?_
  clear hr
  unfold copyDone
  repeat' first
    | with_reducible apply Keeps.refl
    | intro _
    | with_reducible assumption
    | (fail_if_no_progress extract_lets +onlyGivenNames x
       first | (refine Keeps.hyp x ?_ (fun _ => ?_); subst x; rotate_left; clear_value x; rotate_left) | clear_value x)
    | with_reducible apply keeps_State_pokeBytes
    | with_reducible apply keeps_ringComplete
    | with_reducible refine Keeps.ofPair (by assumption) ?_
    | fail_if_no_progress (with_reducible apply Keeps.mk')
    | split

theorem keeps_put32 (s : State) (n : Nat) {r0 : State} (hr : Keeps r0 s) : Keeps r0 (put32 s n) := by
  refine Keeps.trans hr ?_
  clear hr
  unfold put32
  repeat' first
    | with_reducible apply Keeps.refl
    | intro _
    | with_reducible assumption
    | (fail_if_no_progress extract_lets +onlyGivenNames x
       first | (refine Keeps.hyp x ?_ (fun _ => ?_); subst x; rotate_left; clear_value x; rotate_left) | clear_value x)
    | with_reducible apply keeps_intakeOther
    | with_reducible apply keeps_intakeRefuse
    | with_reducible apply keeps_ringComplete
    | with_reducible apply keeps_State_pokeNat
    | with_reducible apply keeps_ringTake
    | with_reducible apply Keeps.ite

theorem keeps_catWindowBytes (s : State) (off : Nat) (n : Nat) (value : Nat) {r0 : State} (hr : Keeps r0 s) : Keeps r0 (catWindowBytes s off n value) := by
  refine Keeps.trans hr ?_
  clear hr
  unfold catWindowBytes
  repeat' first
    | with_reducible apply Keeps.refl
    | intro _
    | with_reducible assumption
    | (fail_if_no_progress extract_lets +onlyGivenNames x
       first | (refine Keeps.hyp x ?_ (fun _ => ?_); subst x; rotate_left; clear_value x; rotate_left) | clear_value x)
    | with_reducible apply keeps_State_pokeBytes
    | with_reducible apply Keeps.ite

theorem keeps_catWindow (s : State) (off : Nat) (value : Nat) {r0 : State} (hr : Keeps r0 s) : Keeps r0 (catWindow s off value) := by
  refine Keeps.trans hr ?_
  clear hr
  unfold catWindow
  repeat' first
    | with_reducible apply Keeps.refl
    | intro _
    | with_reducible apply keeps_catWindowBytes

theorem keeps_execCatInvalidate (t : Nat) (channel : Nat) (s : State) {r0 : State} (hr : Keeps r0 s) : KeepsOut r0 (execCatInvalidate t channel s) := by
  refine KeepsOut.trans hr ?_
  clear hr
  unfold execCatInvalidate
  repeat' first
    | with_reducible apply Keeps.refl
    | intro _
    | with_reducible apply keeps_catInvalidate
    | with_reducible apply keeps_State_at
    | with_reducible apply KeepsOut.next
    | with_reducible apply KeepsOut.ite
    | with_reducible apply KeepsOut.onEngine
    | with_reducible apply Keeps.ite

theorem keeps_execCatInvalidateAll (t : Nat) (s : State) {r0 : State} (hr : Keeps r0 s) : KeepsOut r0 (execCatInvalidateAll t s) := by
  refine KeepsOut.trans hr ?_
  clear hr
  unfold execCatInvalidateAll
  repeat' first
    | with_reducible apply Keeps.refl
    | intro _
    | with_reducible apply keeps_catInvalidateAll
    | with_reducible apply keeps_State_at
    | with_reducible apply KeepsOut.next
    | with_reducible apply KeepsOut.ite
    | with_reducible apply KeepsOut.onEngine
    | with_reducible apply Keeps.ite

theorem keeps_execCatLock (t : Nat) (s : State) {r0 : State} (hr : Keeps r0 s) : KeepsOut r0 (execCatLock t s) := by
  refine KeepsOut.trans hr ?_
  clear hr
  unfold execCatLock
  repeat' first
    | with_reducible apply Keeps.refl
    | intro _
    | with_reducible apply keeps_State_wr
    | with_reducible apply keeps_State_at
    | with_reducible apply KeepsOut.next
    | with_reducible apply KeepsOut.ite
    | with_reducible apply KeepsOut.onEngine
    | with_reducible apply Keeps.ite

theorem keeps_execLedgerSnapWrite (t : Nat) (s : State) {r0 : State} (hr : Keeps r0 s) : KeepsOut r0 (execLedgerSnapWrite t s) := by
  refine KeepsOut.trans hr ?_
  clear hr
  unfold execLedgerSnapWrite
  repeat' first
    | with_reducible apply Keeps.refl
    | intro _
    | with_reducible apply keeps_snapAsk
    | with_reducible apply keeps_State_at
    | with_reducible apply KeepsOut.next
    | with_reducible apply KeepsOut.ite
    | with_reducible apply KeepsOut.onEngine
    | with_reducible apply Keeps.ite

theorem keeps_execLedgerSnapComplete (t : Nat) (s : State) {r0 : State} (hr : Keeps r0 s) : KeepsOut r0 (execLedgerSnapComplete t s) := by
  refine KeepsOut.trans hr ?_
  clear hr
  unfold execLedgerSnapComplete
  repeat' first
    | with_reducible apply Keeps.refl
    | intro _
    | with_reducible assumption
    | (fail_if_no_progress extract_lets +onlyGivenNames x
       first | (refine KeepsOut.hyp x ?_ (fun _ => ?_); subst x; rotate_left; clear_value x; rotate_left) | clear_value x)
    | (fail_if_no_progress extract_lets +onlyGivenNames x
       first | (refine Keeps.hyp x ?_ (fun _ => ?_); subst x; rotate_left; clear_value x; rotate_left) | clear_value x)
    | with_reducible apply keeps_State_at
    | with_reducible apply keeps_snapDone
    | with_reducible apply keeps_State_snapTake
    | with_reducible apply KeepsOut.next
    | with_reducible apply KeepsOut.ite
    | with_reducible apply KeepsOut.onEngine
    | with_reducible refine Keeps.ofPair (by assumption) ?_
    | with_reducible apply Keeps.ite
    | fail_if_no_progress (with_reducible apply Keeps.mk')
    | split

theorem keeps_execRingProducerWrite (t : Nat) (ring : Nat) (index : Nat) (s : State) {r0 : State} (hr : Keeps r0 s) : KeepsOut r0 (execRingProducerWrite t ring index s) := by
  refine KeepsOut.trans hr ?_
  clear hr
  unfold execRingProducerWrite
  repeat' first
    | with_reducible apply Keeps.refl
    | intro _
    | with_reducible apply keeps_doorProducer
    | with_reducible apply keeps_State_at
    | with_reducible apply KeepsOut.next
    | with_reducible apply KeepsOut.ite
    | with_reducible apply KeepsOut.onEngine
    | with_reducible apply Keeps.ite

theorem keeps_execRingConsumerWrite (t : Nat) (ring : Nat) (index : Nat) (s : State) {r0 : State} (hr : Keeps r0 s) : KeepsOut r0 (execRingConsumerWrite t ring index s) := by
  refine KeepsOut.trans hr ?_
  clear hr
  unfold execRingConsumerWrite
  repeat' first
    | with_reducible apply Keeps.refl
    | intro _
    | with_reducible apply keeps_doorConsumer
    | with_reducible apply keeps_State_at
    | with_reducible apply KeepsOut.next
    | with_reducible apply KeepsOut.ite
    | with_reducible apply KeepsOut.onEngine
    | with_reducible apply Keeps.ite

theorem keeps_execIrqHoldoffExpiry (t : Nat) (ring : Nat) (s : State) {r0 : State} (hr : Keeps r0 s) : KeepsOut r0 (execIrqHoldoffExpiry t ring s) := by
  refine KeepsOut.trans hr ?_
  clear hr
  unfold execIrqHoldoffExpiry
  repeat' first
    | with_reducible apply Keeps.refl
    | intro _
    | with_reducible apply keeps_holdoffEnd
    | with_reducible apply keeps_State_at
    | with_reducible apply KeepsOut.next

theorem keeps_execCopyIn (t : Nat) (ring : Nat) (s : State) {r0 : State} (hr : Keeps r0 s) : KeepsOut r0 (execCopyIn t ring s) := by
  refine KeepsOut.trans hr ?_
  clear hr
  unfold execCopyIn
  repeat' first
    | with_reducible apply Keeps.refl
    | intro _
    | with_reducible apply keeps_copyIn
    | with_reducible apply keeps_State_at
    | with_reducible apply KeepsOut.next

theorem keeps_execCopyInComplete (t : Nat) (ring : Nat) (s : State) {r0 : State} (hr : Keeps r0 s) : KeepsOut r0 (execCopyInComplete t ring s) := by
  refine KeepsOut.trans hr ?_
  clear hr
  unfold execCopyInComplete
  repeat' first
    | with_reducible apply Keeps.refl
    | intro _
    | with_reducible apply keeps_copyDone
    | with_reducible apply keeps_State_at
    | with_reducible apply KeepsOut.next

theorem keeps_execPut32 (t : Nat) (ring : Nat) (s : State) {r0 : State} (hr : Keeps r0 s) : KeepsOut r0 (execPut32 t ring s) := by
  refine KeepsOut.trans hr ?_
  clear hr
  unfold execPut32
  repeat' first
    | with_reducible apply Keeps.refl
    | intro _
    | with_reducible apply keeps_put32
    | with_reducible apply keeps_State_at
    | with_reducible apply KeepsOut.next

theorem keeps_execCatalogWindowWrite (t : Nat) (addr : Nat) (value : Nat) (s : State) {r0 : State} (hr : Keeps r0 s) : KeepsOut r0 (execCatalogWindowWrite t addr value s) := by
  refine KeepsOut.trans hr ?_
  clear hr
  unfold execCatalogWindowWrite
  repeat' first
    | with_reducible apply Keeps.refl
    | intro _
    | with_reducible apply keeps_catWindow
    | with_reducible apply keeps_State_at
    | with_reducible apply KeepsOut.next
    | with_reducible apply KeepsOut.ite
    | with_reducible apply KeepsOut.onEngine
    | with_reducible apply Keeps.ite

end Sys2Proof.Laws
end

