-- ==== Sys2Proof/Laws/KeepPair.lean ====
section
/-! SUPPORT. `Keeps` of every operation of Machine/Pair.lean. -/

namespace Sys2Proof.Laws

open Sys2Proof.Machine

set_option linter.unusedTactic false
set_option linter.unreachableTactic false
set_option linter.tactic.unusedName false

theorem keeps_setRole (s : State) (r : Nat) {r0 : State} (hr : Keeps r0 s) : Keeps r0 (setRole s r) := by
  refine Keeps.trans hr ?_
  clear hr
  unfold setRole
  repeat' first
    | with_reducible apply Keeps.refl
    | intro _
    | with_reducible apply keeps_State_emit
    | with_reducible apply keeps_State_wr

theorem keeps_twinHbSend (s : State) {r0 : State} (hr : Keeps r0 s) : Keeps r0 (twinHbSend s) := by
  refine Keeps.trans hr ?_
  clear hr
  unfold twinHbSend
  repeat' first
    | with_reducible apply Keeps.refl
    | intro _
    | with_reducible assumption
    | (fail_if_no_progress extract_lets +onlyGivenNames x
       first | (refine Keeps.hyp x ?_ (fun _ => ?_); subst x; rotate_left; clear_value x; rotate_left) | clear_value x)
    | with_reducible apply keeps_twinSet
    | with_reducible apply keeps_twinPump
    | with_reducible apply keeps_State_twinPump
    | with_reducible refine Keeps.ofPair (by assumption) ?_
    | with_reducible apply Keeps.ite
    | fail_if_no_progress (with_reducible apply Keeps.mk')
    | split

theorem keeps_showFlags (s : State) {r0 : State} (hr : Keeps r0 s) : Keeps r0 (showFlags s) := by
  refine Keeps.trans hr ?_
  clear hr
  unfold showFlags
  repeat' first
    | with_reducible apply Keeps.refl
    | intro _
    | with_reducible assumption
    | (fail_if_no_progress extract_lets +onlyGivenNames x
       first | (refine Keeps.hyp x ?_ (fun _ => ?_); subst x; rotate_left; clear_value x; rotate_left) | clear_value x)
    | with_reducible apply keeps_State_wrb
    | with_reducible apply keeps_State_event
    | with_reducible refine Keeps.ofPair (by assumption) ?_
    | with_reducible apply Keeps.ite
    | fail_if_no_progress (with_reducible apply Keeps.mk')
    | split

theorem keeps_healthSend (s : State) {r0 : State} (hr : Keeps r0 s) : Keeps r0 (healthSend s) := by
  refine Keeps.trans hr ?_
  clear hr
  unfold healthSend
  repeat' first
    | with_reducible apply Keeps.refl
    | intro _
    | with_reducible assumption
    | (fail_if_no_progress extract_lets +onlyGivenNames x
       first | (refine Keeps.hyp x ?_ (fun _ => ?_); subst x; rotate_left; clear_value x; rotate_left) | clear_value x)
    | with_reducible apply keeps_showFlags
    | with_reducible apply keeps_State_wr
    | with_reducible apply keeps_twinPump
    | with_reducible apply keeps_State_twinPump
    | with_reducible refine Keeps.ofPair (by assumption) ?_
    | with_reducible apply Keeps.foldl
    | with_reducible apply Keeps.foldlPair
    | with_reducible apply Keeps.ite
    | fail_if_no_progress (with_reducible apply Keeps.mk')
    | split

theorem keeps_healthTake (s : State) (body : List Byte) {r0 : State} (hr : Keeps r0 s) : Keeps r0 (healthTake s body) := by
  refine Keeps.trans hr ?_
  clear hr
  unfold healthTake
  repeat' first
    | with_reducible apply Keeps.refl
    | intro _
    | with_reducible assumption
    | (fail_if_no_progress extract_lets +onlyGivenNames x
       first | (refine Keeps.hyp x ?_ (fun _ => ?_); subst x; rotate_left; clear_value x; rotate_left) | clear_value x)
    | with_reducible apply keeps_State_wr
    | with_reducible apply keeps_showFlags
    | with_reducible apply keeps_State_event
    | with_reducible apply Keeps.foldl
    | with_reducible apply Keeps.foldlPair
    | with_reducible apply Keeps.ite
    | fail_if_no_progress (with_reducible apply Keeps.mk')

theorem keeps_resyncStart (s : State) {r0 : State} (hr : Keeps r0 s) : Keeps r0 (resyncStart s) := by
  refine Keeps.trans hr ?_
  clear hr
  unfold resyncStart
  repeat' first
    | with_reducible apply Keeps.refl
    | intro _
    | with_reducible assumption
    | (fail_if_no_progress extract_lets +onlyGivenNames x
       first | (refine Keeps.hyp x ?_ (fun _ => ?_); subst x; rotate_left; clear_value x; rotate_left) | clear_value x)
    | with_reducible apply keeps_State_wr
    | with_reducible apply keeps_State_setSlot
    | with_reducible apply keeps_State_tally
    | with_reducible apply keeps_State_count
    | with_reducible apply keeps_showFlags
    | with_reducible apply keeps_twinPump
    | with_reducible apply keeps_State_twinPump
    | with_reducible refine Keeps.ofPair (by assumption) ?_
    | with_reducible apply Keeps.foldl
    | with_reducible apply Keeps.foldlPair
    | with_reducible apply Keeps.ite
    | fail_if_no_progress (with_reducible apply Keeps.mk')

theorem keeps_loseSync (s : State) {r0 : State} (hr : Keeps r0 s) : Keeps r0 (loseSync s) := by
  refine Keeps.trans hr ?_
  clear hr
  unfold loseSync
  repeat' first
    | with_reducible apply Keeps.refl
    | intro _
    | with_reducible apply keeps_resyncStart
    | with_reducible apply Keeps.ite

theorem keeps_resyncDone (s : State) (equal : Bool) (reach : Nat) {r0 : State} (hr : Keeps r0 s) : Keeps r0 (resyncDone s equal reach) := by
  refine Keeps.trans hr ?_
  clear hr
  unfold resyncDone
  repeat' first
    | with_reducible apply Keeps.refl
    | intro _
    | with_reducible assumption
    | with_reducible apply keeps_showFlags
    | with_reducible apply keeps_State_wr
    | with_reducible apply keeps_loseSync
    | with_reducible refine Keeps.ofPair (by assumption) ?_
    | with_reducible apply Keeps.ite
    | fail_if_no_progress (with_reducible apply Keeps.mk')
    | split

theorem keeps_lateFor (s : State) (late : Bool) {r0 : State} (hr : Keeps r0 s) : Keeps r0 (lateFor s late) := by
  refine Keeps.trans hr ?_
  clear hr
  unfold lateFor
  repeat' first
    | with_reducible apply Keeps.refl
    | intro _
    | with_reducible apply keeps_loseSync
    | with_reducible apply Keeps.ite

theorem keeps_recStacks (s : State) (a : Nat) (data : List Byte) {r0 : State} (hr : Keeps r0 s) : Keeps r0 (recStacks s a data) := by
  unfold recStacks
  exact Keeps.ite hr (Keeps.ite (hr.trans (Keeps.updMem _ (mem_wf_write _ _))) hr)

theorem keeps_placeLines (s : State) (pos : Int) {r0 : State} (hr : Keeps r0 s) : Keeps r0 (placeLines s pos) := by
  refine Keeps.trans hr ?_
  clear hr
  unfold placeLines
  repeat' first
    | with_reducible apply Keeps.refl
    | intro _
    | with_reducible assumption
    | (fail_if_no_progress extract_lets +onlyGivenNames x
       first | (refine Keeps.hyp x ?_ (fun _ => ?_); subst x; rotate_left; clear_value x; rotate_left) | subst x)
    | with_reducible apply keeps_State_setSlot
    | with_reducible apply keeps_showOrigin
    | with_reducible apply keeps_skipGap
    | with_reducible apply Keeps.foldl
    | with_reducible apply Keeps.foldlPair
    | with_reducible refine Keeps.ofPair (by assumption) ?_
    | with_reducible apply Keeps.ite
    | fail_if_no_progress (with_reducible apply Keeps.mk')
    | split

theorem keeps_holdRecord (s : State) (r : TwinRec) {r0 : State} (hr : Keeps r0 s) : Keeps r0 (holdRecord s r) := by
  refine Keeps.trans hr ?_
  clear hr
  unfold holdRecord
  repeat' first
    | with_reducible apply Keeps.refl
    | intro _
    | with_reducible assumption
    | with_reducible refine Keeps.ofPair (by assumption) ?_
    | with_reducible apply Keeps.ite
    | fail_if_no_progress (with_reducible apply Keeps.mk')

theorem keeps_takePage (s : State) (a : Nat) (first : Nat) (w0 : Option Int) {r0 : State} (hr : Keeps r0 s) : Keeps r0 (takePage s a first w0) := by
  refine Keeps.trans hr ?_
  clear hr
  unfold takePage
  repeat' first
    | with_reducible apply Keeps.refl
    | intro _
    | with_reducible assumption
    | (fail_if_no_progress extract_lets +onlyGivenNames x
       first | (refine Keeps.hyp x ?_ (fun _ => ?_); subst x; rotate_left; clear_value x; rotate_left) | clear_value x)
    | with_reducible apply keeps_State_tally
    | with_reducible apply keeps_jobOpen
    | with_reducible apply keeps_pageQueue
    | with_reducible apply keeps_placeLines
    | with_reducible refine Keeps.ofPair (by assumption) ?_
    | with_reducible apply Keeps.ite
    | fail_if_no_progress (with_reducible apply Keeps.mk')
    | split

theorem keeps_recPage (s : State) (a : Nat) (first : Nat) (w0 : Option Int) {r0 : State} (hr : Keeps r0 s) : Keeps r0 (recPage s a first w0) := by
  refine Keeps.trans hr ?_
  clear hr
  unfold recPage
  repeat' first
    | with_reducible apply Keeps.refl
    | intro _
    | with_reducible assumption
    | with_reducible apply keeps_holdRecord
    | with_reducible apply keeps_takePage
    | with_reducible refine Keeps.ofPair (by assumption) ?_
    | with_reducible apply Keeps.ite
    | fail_if_no_progress (with_reducible apply Keeps.mk')
    | split

theorem keeps_takeSubst (s : State) (isSet : Bool) (nozzle : Nat) (spare : Nat) (line : Nat) {r0 : State} (hr : Keeps r0 s) : Keeps r0 (takeSubst s isSet nozzle spare line) := by
  refine Keeps.trans hr ?_
  clear hr
  unfold takeSubst
  repeat' first
    | with_reducible apply Keeps.refl
    | intro _
    | with_reducible assumption
    | (fail_if_no_progress extract_lets +onlyGivenNames x
       first | (refine Keeps.hyp x ?_ (fun _ => ?_); subst x; rotate_left; clear_value x; rotate_left) | clear_value x)
    | with_reducible apply keeps_lateFor
    | with_reducible apply keeps_substSet
    | with_reducible apply keeps_substClr
    | with_reducible refine Keeps.ofPair (by assumption) ?_
    | with_reducible apply Keeps.ite
    | fail_if_no_progress (with_reducible apply Keeps.mk')
    | split

theorem keeps_recSubst (s : State) (isSet : Bool) (nozzle : Nat) (spare : Nat) (line : Nat) {r0 : State} (hr : Keeps r0 s) : Keeps r0 (recSubst s isSet nozzle spare line) := by
  refine Keeps.trans hr ?_
  clear hr
  unfold recSubst
  repeat' first
    | with_reducible apply Keeps.refl
    | intro _
    | with_reducible assumption
    | with_reducible apply keeps_holdRecord
    | with_reducible apply keeps_takeSubst
    | with_reducible refine Keeps.ofPair (by assumption) ?_
    | with_reducible apply Keeps.ite
    | fail_if_no_progress (with_reducible apply Keeps.mk')
    | split

theorem keeps_recBank (s : State) (plane : Nat) (bank : Nat) (offset : Nat) (trims : List Byte) {r0 : State} (hr : Keeps r0 s) : Keeps r0 (recBank s plane bank offset trims) := by
  refine Keeps.trans hr ?_
  clear hr
  unfold recBank
  repeat' first
    | with_reducible apply Keeps.refl
    | intro _
    | with_reducible assumption
    | (fail_if_no_progress extract_lets +onlyGivenNames x
       first | (refine Keeps.hyp x ?_ (fun _ => ?_); subst x; rotate_left; clear_value x; rotate_left) | clear_value x)
    | with_reducible apply keeps_State_pokeBytes
    | with_reducible apply Keeps.ite

theorem keeps_recEntry (s : State) (bytes : List Byte) (since : Nat) {r0 : State} (hr : Keeps r0 s) : Keeps r0 (recEntry s bytes since) := by
  refine Keeps.trans hr ?_
  clear hr
  unfold recEntry
  repeat' first
    | with_reducible apply Keeps.refl
    | intro _
    | with_reducible assumption
    | (fail_if_no_progress extract_lets +onlyGivenNames x
       first | (refine Keeps.hyp x ?_ (fun _ => ?_); subst x; rotate_left; clear_value x; rotate_left) | clear_value x)
    | with_reducible apply keeps_State_pokeBytes
    | with_reducible apply keeps_lateFor
    | with_reducible apply keeps_catLoad
    | with_reducible apply Keeps.ite

theorem keeps_recSetpoint (s : State) (port : Nat) (period : Nat) (slots : List Byte) {r0 : State} (hr : Keeps r0 s) : Keeps r0 (recSetpoint s port period slots) := by
  refine Keeps.trans hr ?_
  clear hr
  unfold recSetpoint
  repeat' first
    | with_reducible apply Keeps.refl
    | intro _
    | with_reducible assumption
    | (fail_if_no_progress extract_lets +onlyGivenNames x
       first | (refine Keeps.hyp x ?_ (fun _ => ?_); subst x; rotate_left; clear_value x; rotate_left) | clear_value x)
    | with_reducible apply keeps_State_setDrivePort
    | with_reducible apply keeps_State_count
    | with_reducible apply keeps_showAxis
    | with_reducible apply keeps_State_setAxis
    | with_reducible refine Keeps.ofPair (by assumption) ?_
    | with_reducible apply Keeps.foldl
    | with_reducible apply Keeps.foldlPair
    | with_reducible apply Keeps.ite
    | fail_if_no_progress (with_reducible apply Keeps.mk')
    | split

theorem keeps_takeMode (s : State) (mode : Nat) (cause : Nat) (line : Nat) (stop : Nat) (step : Nat) {r0 : State} (hr : Keeps r0 s) : Keeps r0 (takeMode s mode cause line stop step) := by
  refine Keeps.trans hr ?_
  clear hr
  unfold takeMode
  repeat' first
    | with_reducible apply Keeps.refl
    | intro _
    | with_reducible assumption
    | (fail_if_no_progress extract_lets +onlyGivenNames x
       first | (refine Keeps.hyp x ?_ (fun _ => ?_); subst x; rotate_left; clear_value x; rotate_left) | clear_value x)
    | with_reducible apply keeps_State_wr
    | with_reducible apply keeps_State_wr2
    | with_reducible refine Keeps.ofPair (by assumption) ?_
    | with_reducible apply Keeps.ite
    | fail_if_no_progress (with_reducible apply Keeps.mk')
    | split

theorem keeps_recMode (s : State) (mode : Nat) (cause : Nat) (line : Nat) (stop : Nat) (step : Nat) {r0 : State} (hr : Keeps r0 s) : Keeps r0 (recMode s mode cause line stop step) := by
  refine Keeps.trans hr ?_
  clear hr
  unfold recMode
  repeat' first
    | with_reducible apply Keeps.refl
    | intro _
    | with_reducible assumption
    | with_reducible apply keeps_takeMode
    | with_reducible apply keeps_holdRecord
    | with_reducible refine Keeps.ofPair (by assumption) ?_
    | with_reducible apply Keeps.ite
    | fail_if_no_progress (with_reducible apply Keeps.mk')
    | split

theorem keeps_recHandover (s : State) (instant : Nat) (slots : List (Nat × Nat)) {r0 : State} (hr : Keeps r0 s) : Keeps r0 (recHandover s instant slots) := by
  refine Keeps.trans hr ?_
  clear hr
  unfold recHandover
  repeat' first
    | with_reducible apply Keeps.refl
    | intro _
    | with_reducible assumption
    | with_reducible refine Keeps.ofPair (by assumption) ?_
    | with_reducible apply Keeps.ite
    | fail_if_no_progress (with_reducible apply Keeps.mk')
    | split

theorem keeps_takeHeld (s : State) (x1 : TwinRec) {r0 : State} (hr : Keeps r0 s) : Keeps r0 (takeHeld s x1) := by
  refine Keeps.trans hr ?_
  clear hr
  unfold takeHeld
  repeat' first
    | with_reducible apply Keeps.refl
    | intro _
    | with_reducible assumption
    | with_reducible apply keeps_takePage
    | with_reducible apply keeps_takeSubst
    | with_reducible apply keeps_takeMode
    | with_reducible refine Keeps.ofPair (by assumption) ?_
    | with_reducible apply Keeps.ite
    | fail_if_no_progress (with_reducible apply Keeps.mk')
    | split

theorem keeps_recSync (s : State) (kind : Nat) {r0 : State} (hr : Keeps r0 s) : Keeps r0 (recSync s kind) := by
  refine Keeps.trans hr ?_
  clear hr
  unfold recSync
  repeat' first
    | with_reducible apply Keeps.refl
    | intro _
    | with_reducible assumption
    | with_reducible apply keeps_twinPump
    | with_reducible apply keeps_State_twinPump
    | with_reducible apply keeps_takeHeld
    | with_reducible refine Keeps.ofPair (by assumption) ?_
    | with_reducible apply Keeps.foldl
    | with_reducible apply Keeps.foldlPair
    | with_reducible apply Keeps.ite
    | fail_if_no_progress (with_reducible apply Keeps.mk')
    | split

theorem keeps_applyRecord (s : State) (x1 : TwinRec) {r0 : State} (hr : Keeps r0 s) : Keeps r0 (applyRecord s x1) := by
  refine Keeps.trans hr ?_
  clear hr
  unfold applyRecord
  repeat' first
    | with_reducible apply Keeps.refl
    | intro _
    | with_reducible assumption
    | with_reducible apply keeps_recStacks
    | with_reducible apply keeps_recPage
    | with_reducible apply keeps_recSubst
    | with_reducible apply keeps_recBank
    | with_reducible apply keeps_recEntry
    | with_reducible apply keeps_recSetpoint
    | with_reducible apply keeps_recMode
    | with_reducible apply keeps_healthTake
    | with_reducible apply keeps_recHandover
    | with_reducible apply keeps_recSync
    | with_reducible refine Keeps.ofPair (by assumption) ?_
    | with_reducible apply Keeps.ite
    | fail_if_no_progress (with_reducible apply Keeps.mk')
    | split

theorem keeps_twinAck (s : State) {r0 : State} (hr : Keeps r0 s) : Keeps r0 (twinAck s) := by
  refine Keeps.trans hr ?_
  clear hr
  unfold twinAck
  repeat' first
    | with_reducible apply Keeps.refl
    | intro _
    | with_reducible assumption
    | (fail_if_no_progress extract_lets +onlyGivenNames x
       first | (refine Keeps.hyp x ?_ (fun _ => ?_); subst x; rotate_left; clear_value x; rotate_left) | clear_value x)
    | with_reducible apply keeps_twinSet
    | fail_if_no_progress (with_reducible apply Keeps.mk')

theorem keeps_recordIn (s : State) (lane : Nat) (seq : Nat) (good : Bool) (r : TwinRec) {r0 : State} (hr : Keeps r0 s) : Keeps r0 (recordIn s lane seq good r) := by
  refine Keeps.trans hr ?_
  clear hr
  unfold recordIn
  repeat' first
    | with_reducible apply Keeps.refl
    | intro _
    | with_reducible assumption
    | (fail_if_no_progress extract_lets +onlyGivenNames x
       first | (refine Keeps.hyp x ?_ (fun _ => ?_); subst x; rotate_left; clear_value x; rotate_left) | clear_value x)
    | with_reducible apply keeps_State_count
    | with_reducible apply keeps_State_emit
    | with_reducible apply keeps_twinSet
    | with_reducible apply keeps_applyRecord
    | with_reducible apply keeps_twinAck
    | with_reducible apply keeps_loseSync
    | with_reducible refine Keeps.ofPair (by assumption) ?_
    | with_reducible apply Keeps.ite
    | fail_if_no_progress (with_reducible apply Keeps.mk')
    | split

theorem keeps_twinCredit (s : State) (lane : Nat) (n : Nat) {r0 : State} (hr : Keeps r0 s) : Keeps r0 (twinCredit s lane n) := by
  refine Keeps.trans hr ?_
  clear hr
  unfold twinCredit
  repeat' first
    | with_reducible apply Keeps.refl
    | intro _
    | with_reducible apply keeps_State_twinPump
    | with_reducible apply keeps_State_ledAdd

theorem keeps_twinAcked (s : State) (seq : Nat) {r0 : State} (hr : Keeps r0 s) : Keeps r0 (twinAcked s seq) := by
  refine Keeps.trans hr ?_
  clear hr
  unfold twinAcked
  repeat' first
    | with_reducible apply Keeps.refl
    | intro _
    | with_reducible assumption
    | (fail_if_no_progress extract_lets +onlyGivenNames x
       first | (refine Keeps.hyp x ?_ (fun _ => ?_); subst x; rotate_left; clear_value x; rotate_left) | clear_value x)
    | with_reducible apply keeps_showBacklog
    | with_reducible refine Keeps.ofPair (by assumption) ?_
    | with_reducible apply Keeps.ite
    | fail_if_no_progress (with_reducible apply Keeps.mk')

theorem keeps_twinNaked (s : State) (seq : Nat) {r0 : State} (hr : Keeps r0 s) : Keeps r0 (twinNaked s seq) := by
  refine Keeps.trans hr ?_
  clear hr
  unfold twinNaked
  repeat' first
    | with_reducible apply Keeps.refl
    | intro _
    | with_reducible assumption
    | with_reducible apply keeps_twinPump
    | with_reducible apply keeps_State_twinPump
    | with_reducible refine Keeps.ofPair (by assumption) ?_
    | with_reducible apply Keeps.ite
    | fail_if_no_progress (with_reducible apply Keeps.mk')

theorem keeps_linksGo (s : State) {r0 : State} (hr : Keeps r0 s) : Keeps r0 (linksGo s) := by
  refine Keeps.trans hr ?_
  clear hr
  unfold linksGo
  repeat' first
    | with_reducible apply Keeps.refl
    | intro _
    | with_reducible assumption
    | with_reducible apply keeps_loopSend
    | with_reducible refine Keeps.ofPair (by assumption) ?_
    | with_reducible apply Keeps.foldl
    | with_reducible apply Keeps.foldlPair
    | with_reducible apply Keeps.ite
    | fail_if_no_progress (with_reducible apply Keeps.mk')
    | split

theorem keeps_goIdle (s : State) {r0 : State} (hr : Keeps r0 s) : Keeps r0 (goIdle s) := by
  refine Keeps.trans hr ?_
  clear hr
  unfold goIdle
  repeat' first
    | with_reducible apply Keeps.refl
    | intro _
    | with_reducible assumption
    | (fail_if_no_progress extract_lets +onlyGivenNames x
       first | (refine Keeps.hyp x ?_ (fun _ => ?_); subst x; rotate_left; clear_value x; rotate_left) | clear_value x)
    | with_reducible apply keeps_setRole
    | with_reducible apply keeps_linksGo
    | with_reducible apply keeps_moveMode
    | with_reducible refine Keeps.ofPair (by assumption) ?_
    | with_reducible apply Keeps.ite
    | fail_if_no_progress (with_reducible apply Keeps.mk')
    | split

theorem keeps_enterShadow (s : State) (of : Nat) (cause : Nat) {r0 : State} (hr : Keeps r0 s) : Keeps r0 (enterShadow s of cause) := by
  refine Keeps.trans hr ?_
  clear hr
  unfold enterShadow
  repeat' first
    | with_reducible apply Keeps.refl
    | intro _
    | with_reducible assumption
    | (fail_if_no_progress extract_lets +onlyGivenNames x
       first | (refine Keeps.hyp x ?_ (fun _ => ?_); subst x; rotate_left; clear_value x; rotate_left) | clear_value x)
    | with_reducible apply keeps_keepopenStopAll
    | with_reducible apply keeps_State_wr
    | with_reducible apply keeps_setRole
    | with_reducible apply keeps_setMode
    | with_reducible apply keeps_modeEvent
    | fail_if_no_progress (with_reducible apply Keeps.mk')

theorem keeps_twinHb (s : State) (word : Nat) (alike : Bool) {r0 : State} (hr : Keeps r0 s) : Keeps r0 (twinHb s word alike) := by
  refine Keeps.trans hr ?_
  clear hr
  unfold twinHb
  repeat' first
    | with_reducible apply Keeps.refl
    | intro _
    | with_reducible assumption
    | (fail_if_no_progress extract_lets +onlyGivenNames x
       first | (refine Keeps.hyp x ?_ (fun _ => ?_); subst x; rotate_left; clear_value x; rotate_left) | clear_value x)
    | with_reducible apply keeps_State_count
    | with_reducible apply keeps_State_wr
    | with_reducible apply keeps_loseSync
    | with_reducible apply keeps_resyncStart
    | with_reducible apply keeps_enterShadow
    | with_reducible apply keeps_showFlags
    | with_reducible refine Keeps.ofPair (by assumption) ?_
    | with_reducible apply Keeps.ite
    | fail_if_no_progress (with_reducible apply Keeps.mk')
    | split

theorem keeps_reloadPair (s : State) {r0 : State} (hr : Keeps r0 s) : Keeps r0 (reloadPair s) := by
  refine Keeps.trans hr ?_
  clear hr
  unfold reloadPair
  repeat' first
    | with_reducible apply Keeps.refl
    | intro _
    | with_reducible assumption
    | (fail_if_no_progress extract_lets +onlyGivenNames x
       first | (refine Keeps.hyp x ?_ (fun _ => ?_); subst x; rotate_left; clear_value x; rotate_left) | clear_value x)
    | with_reducible apply keeps_goIdle
    | with_reducible apply Keeps.ite
    | fail_if_no_progress (with_reducible apply Keeps.mk')

theorem keeps_heartbeatWaited (s : State) {r0 : State} (hr : Keeps r0 s) : Keeps r0 (heartbeatWaited s) := by
  refine Keeps.trans hr ?_
  clear hr
  unfold heartbeatWaited
  repeat' first
    | with_reducible apply Keeps.refl
    | intro _
    | with_reducible assumption
    | (fail_if_no_progress extract_lets +onlyGivenNames x
       first | (refine Keeps.hyp x ?_ (fun _ => ?_); subst x; rotate_left; clear_value x; rotate_left) | clear_value x)
    | with_reducible apply keeps_goIdle
    | with_reducible refine Keeps.ofPair (by assumption) ?_
    | with_reducible apply Keeps.ite
    | fail_if_no_progress (with_reducible apply Keeps.mk')
    | split

theorem keeps_twinSilence (s : State) {r0 : State} (hr : Keeps r0 s) : Keeps r0 (twinSilence s) := by
  refine Keeps.trans hr ?_
  clear hr
  unfold twinSilence
  repeat' first
    | with_reducible apply Keeps.refl
    | intro _
    | with_reducible assumption
    | (fail_if_no_progress extract_lets +onlyGivenNames x
       first | (refine Keeps.hyp x ?_ (fun _ => ?_); subst x; rotate_left; clear_value x; rotate_left) | clear_value x)
    | with_reducible apply keeps_State_wr
    | with_reducible apply keeps_State_event
    | with_reducible apply keeps_showFlags
    | with_reducible apply keeps_loseSync
    | with_reducible refine Keeps.ofPair (by assumption) ?_
    | with_reducible apply Keeps.foldl
    | with_reducible apply Keeps.foldlPair
    | with_reducible apply Keeps.ite
    | fail_if_no_progress (with_reducible apply Keeps.mk')
    | split

theorem keeps_setNs (s : State) (k : Nat) (ns : Nat) (lines : Nat) (drops : Nat) {r0 : State} (hr : Keeps r0 s) : Keeps r0 (setNs s k ns lines drops) := by
  refine Keeps.trans hr ?_
  clear hr
  unfold setNs
  repeat' first
    | with_reducible apply Keeps.refl
    | intro _
    | with_reducible assumption
    | (fail_if_no_progress extract_lets +onlyGivenNames x
       first | (refine Keeps.hyp x ?_ (fun _ => ?_); subst x; rotate_left; clear_value x; rotate_left) | clear_value x)
    | with_reducible apply keeps_State_wr2
    | fail_if_no_progress (with_reducible apply Keeps.mk')

theorem keeps_takeSlot (s : State) (k : Nat) {r0 : State} (hr : Keeps r0 s) : Keeps r0 (takeSlot s k) := by
  refine Keeps.trans hr ?_
  clear hr
  unfold takeSlot
  repeat' first
    | with_reducible apply Keeps.refl
    | intro _
    | with_reducible assumption
    | (fail_if_no_progress extract_lets +onlyGivenNames x
       first | (refine Keeps.hyp x ?_ (fun _ => ?_); subst x; rotate_left; clear_value x; rotate_left) | clear_value x)
    | with_reducible apply keeps_State_tally
    | with_reducible apply keeps_countLines
    | with_reducible apply keeps_moveLine
    | with_reducible apply keeps_countDrops
    | with_reducible apply keeps_State_setSlot
    | with_reducible apply keeps_setNs
    | with_reducible refine Keeps.ofPair (by assumption) ?_
    | with_reducible apply Keeps.foldl
    | with_reducible apply Keeps.foldlPair
    | with_reducible apply Keeps.ite
    | fail_if_no_progress (with_reducible apply Keeps.mk')
    | split

theorem keeps_takeMoved (s : State) {r0 : State} (hr : Keeps r0 s) : Keeps r0 (takeMoved s) := by
  refine Keeps.trans hr ?_
  clear hr
  unfold takeMoved
  repeat' first
    | with_reducible apply Keeps.refl
    | intro _
    | with_reducible assumption
    | (fail_if_no_progress extract_lets +onlyGivenNames x
       first | (refine Keeps.hyp x ?_ (fun _ => ?_); subst x; rotate_left; clear_value x; rotate_left) | clear_value x)
    | with_reducible apply keeps_countDrops
    | with_reducible apply Keeps.foldl
    | with_reducible apply Keeps.foldlPair
    | with_reducible apply Keeps.ite

theorem keeps_backFrom (s : State) {r0 : State} (hr : Keeps r0 s) : Keeps r0 (backFrom s) := by
  refine Keeps.trans hr ?_
  clear hr
  unfold backFrom
  repeat' first
    | with_reducible apply Keeps.refl
    | intro _
    | with_reducible assumption
    | with_reducible apply keeps_backUp
    | with_reducible refine Keeps.ofPair (by assumption) ?_
    | with_reducible apply Keeps.ite
    | fail_if_no_progress (with_reducible apply Keeps.mk')

theorem keeps_rewindTake (s : State) {r0 : State} (hr : Keeps r0 s) : Keeps r0 (rewindTake s) := by
  refine Keeps.trans hr ?_
  clear hr
  unfold rewindTake
  repeat' first
    | with_reducible apply Keeps.refl
    | intro _
    | with_reducible assumption
    | (fail_if_no_progress extract_lets +onlyGivenNames x
       first | (refine Keeps.hyp x ?_ (fun _ => ?_); subst x; rotate_left; clear_value x; rotate_left) | clear_value x)
    | with_reducible apply keeps_webStop
    | with_reducible apply keeps_dwell
    | with_reducible apply keeps_backFrom
    | with_reducible apply keeps_backUp
    | with_reducible apply keeps_leadCheck
    | with_reducible apply keeps_webRun
    | with_reducible refine Keeps.ofPair (by assumption) ?_
    | with_reducible apply Keeps.ite
    | fail_if_no_progress (with_reducible apply Keeps.mk')
    | split

theorem keeps_originTake (s : State) {r0 : State} (hr : Keeps r0 s) : Keeps r0 (originTake s) := by
  refine Keeps.trans hr ?_
  clear hr
  unfold originTake
  repeat' first
    | with_reducible apply Keeps.refl
    | intro _
    | with_reducible assumption
    | with_reducible apply keeps_setOrigin
    | with_reducible refine Keeps.ofPair (by assumption) ?_
    | with_reducible apply Keeps.ite
    | fail_if_no_progress (with_reducible apply Keeps.mk')
    | split

theorem keeps_modeTake (s : State) (m : Nat) {r0 : State} (hr : Keeps r0 s) : Keeps r0 (modeTake s m) := by
  refine Keeps.trans hr ?_
  clear hr
  unfold modeTake
  repeat' first
    | with_reducible apply Keeps.refl
    | intro _
    | with_reducible assumption
    | (fail_if_no_progress extract_lets +onlyGivenNames x
       first | (refine Keeps.hyp x ?_ (fun _ => ?_); subst x; rotate_left; clear_value x; rotate_left) | clear_value x)
    | with_reducible apply keeps_originTake
    | with_reducible apply keeps_State_setAxis
    | with_reducible apply keeps_axisRun
    | with_reducible apply keeps_rewindTake
    | with_reducible apply keeps_webStop
    | with_reducible apply keeps_setStopFrom
    | with_reducible apply keeps_stopAdvance
    | with_reducible apply keeps_setStep
    | with_reducible refine Keeps.ofPair (by assumption) ?_
    | with_reducible apply Keeps.ite
    | fail_if_no_progress (with_reducible apply Keeps.mk')
    | split

theorem keeps_axesTake (s : State) {r0 : State} (hr : Keeps r0 s) : Keeps r0 (axesTake s) := by
  refine Keeps.trans hr ?_
  clear hr
  unfold axesTake
  repeat' first
    | with_reducible apply Keeps.refl
    | intro _
    | with_reducible assumption
    | with_reducible apply keeps_axisStop
    | with_reducible refine Keeps.ofPair (by assumption) ?_
    | with_reducible apply Keeps.foldl
    | with_reducible apply Keeps.foldlPair
    | with_reducible apply Keeps.ite
    | fail_if_no_progress (with_reducible apply Keeps.mk')
    | split

theorem keeps_becomeActive (s : State) (kind : Nat) {r0 : State} (hr : Keeps r0 s) : Keeps r0 (becomeActive s kind) := by
  refine Keeps.trans hr ?_
  clear hr
  unfold becomeActive
  repeat' first
    | with_reducible apply Keeps.refl
    | intro _
    | with_reducible assumption
    | (fail_if_no_progress extract_lets +onlyGivenNames x
       first | (refine Keeps.hyp x ?_ (fun _ => ?_); subst x; rotate_left; clear_value x; rotate_left) | clear_value x)
    | with_reducible apply keeps_setMode
    | with_reducible apply keeps_modeEvent
    | with_reducible apply keeps_setRole
    | with_reducible apply keeps_takeMoved
    | with_reducible apply keeps_takeSlot
    | with_reducible apply keeps_usageClear
    | with_reducible apply keeps_State_setSlot
    | with_reducible apply keeps_axesTake
    | with_reducible apply keeps_modeTake
    | with_reducible apply keeps_State_count
    | with_reducible apply keeps_State_wr
    | with_reducible apply keeps_State_event
    | with_reducible apply keeps_heartbeat
    | with_reducible apply keeps_showFlags
    | with_reducible refine Keeps.ofPair (by assumption) ?_
    | with_reducible apply Keeps.foldl
    | with_reducible apply Keeps.foldlPair
    | with_reducible apply Keeps.ite
    | fail_if_no_progress (with_reducible apply Keeps.mk')
    | split

theorem keeps_switchover (s : State) {r0 : State} (hr : Keeps r0 s) : Keeps r0 (switchover s) := by
  refine Keeps.trans hr ?_
  clear hr
  unfold switchover
  repeat' first
    | with_reducible apply Keeps.refl
    | intro _
    | with_reducible assumption
    | (fail_if_no_progress extract_lets +onlyGivenNames x
       first | (refine Keeps.hyp x ?_ (fun _ => ?_); subst x; rotate_left; clear_value x; rotate_left) | clear_value x)
    | with_reducible apply keeps_becomeActive
    | with_reducible apply keeps_linkInit
    | with_reducible apply keeps_State_setSlot
    | with_reducible apply Keeps.foldl
    | with_reducible apply Keeps.foldlPair
    | with_reducible apply Keeps.ite

theorem keeps_twinFailed (s : State) {r0 : State} (hr : Keeps r0 s) : Keeps r0 (twinFailed s) := by
  refine Keeps.trans hr ?_
  clear hr
  unfold twinFailed
  repeat' first
    | with_reducible apply Keeps.refl
    | intro _
    | with_reducible assumption
    | (fail_if_no_progress extract_lets +onlyGivenNames x
       first | (refine Keeps.hyp x ?_ (fun _ => ?_); subst x; rotate_left; clear_value x; rotate_left) | clear_value x)
    | with_reducible apply keeps_loseSync
    | with_reducible apply keeps_State_event
    | with_reducible apply Keeps.ite
    | fail_if_no_progress (with_reducible apply Keeps.mk')

theorem keeps_slotStatus (s : State) (k : Nat) (f : Nat) {r0 : State} (hr : Keeps r0 s) : Keeps r0 (slotStatus s k f) := by
  refine Keeps.trans hr ?_
  clear hr
  unfold slotStatus
  repeat' first
    | with_reducible apply Keeps.refl
    | intro _
    | with_reducible assumption
    | (fail_if_no_progress extract_lets +onlyGivenNames x
       first | (refine Keeps.hyp x ?_ (fun _ => ?_); subst x; rotate_left; clear_value x; rotate_left) | clear_value x)
    | with_reducible apply keeps_State_setSlot
    | with_reducible apply keeps_loseSync
    | with_reducible refine Keeps.ofPair (by assumption) ?_
    | with_reducible apply Keeps.ite
    | fail_if_no_progress (with_reducible apply Keeps.mk')

theorem keeps_shadowLate (s : State) (k : Nat) {r0 : State} (hr : Keeps r0 s) : Keeps r0 (shadowLate s k) := by
  refine Keeps.trans hr ?_
  clear hr
  unfold shadowLate
  repeat' first
    | with_reducible apply Keeps.refl
    | intro _
    | with_reducible assumption
    | (fail_if_no_progress extract_lets +onlyGivenNames x
       first | (refine Keeps.hyp x ?_ (fun _ => ?_); subst x; rotate_left; clear_value x; rotate_left) | clear_value x)
    | with_reducible apply keeps_setFate
    | with_reducible apply keeps_tallyLine
    | with_reducible apply keeps_dropPart
    | with_reducible apply keeps_countLines
    | with_reducible apply keeps_moveLine
    | with_reducible apply keeps_moveDrops
    | with_reducible apply keeps_markLine
    | with_reducible refine Keeps.ofPair (by assumption) ?_
    | with_reducible apply Keeps.ite
    | fail_if_no_progress (with_reducible apply Keeps.mk')
    | split

theorem keeps_reportWrite (s : State) {r0 : State} (hr : Keeps r0 s) : Keeps r0 (reportWrite s) := by
  refine Keeps.trans hr ?_
  clear hr
  unfold reportWrite
  repeat' first
    | with_reducible apply Keeps.refl
    | intro _
    | with_reducible assumption
    | (fail_if_no_progress extract_lets +onlyGivenNames x
       first | (refine Keeps.hyp x ?_ (fun _ => ?_); subst x; rotate_left; clear_value x; rotate_left) | clear_value x)
    | with_reducible apply keeps_State_pokeBytes
    | with_reducible apply keeps_ringPost
    | with_reducible refine Keeps.ofPair (by assumption) ?_
    | with_reducible apply Keeps.ite
    | fail_if_no_progress (with_reducible apply Keeps.mk')
    | split

theorem keeps_handPlan (s : State) {r0 : State} (hr : Keeps r0 s) : Keeps r0 (handPlan s) := by
  refine Keeps.trans hr ?_
  clear hr
  unfold handPlan
  repeat' first
    | with_reducible apply Keeps.refl
    | intro _
    | with_reducible assumption
    | (fail_if_no_progress extract_lets +onlyGivenNames x
       first | (refine Keeps.hyp x ?_ (fun _ => ?_); subst x; rotate_left; clear_value x; rotate_left) | clear_value x)
    | with_reducible refine Keeps.ofPair (by assumption) ?_
    | with_reducible apply Keeps.ite
    | fail_if_no_progress (with_reducible apply Keeps.mk')
    | split

theorem keeps_handAsk (s : State) (kind : Nat) (reset : Bool) {r0 : State} (hr : Keeps r0 s) : Keeps r0 (handAsk s kind reset) := by
  refine Keeps.trans hr ?_
  clear hr
  unfold handAsk
  repeat' first
    | with_reducible apply Keeps.refl
    | intro _
    | with_reducible assumption
    | (fail_if_no_progress extract_lets +onlyGivenNames x
       first | (refine Keeps.hyp x ?_ (fun _ => ?_); subst x; rotate_left; clear_value x; rotate_left) | clear_value x)
    | with_reducible apply keeps_handPlan
    | with_reducible refine Keeps.ofPair (by assumption) ?_
    | with_reducible apply Keeps.ite
    | fail_if_no_progress (with_reducible apply Keeps.mk')
    | split

theorem keeps_handDrop (s : State) {r0 : State} (hr : Keeps r0 s) : Keeps r0 (handDrop s) := by
  refine Keeps.trans hr ?_
  clear hr
  unfold handDrop
  repeat' first
    | with_reducible apply Keeps.refl
    | intro _
    | with_reducible assumption
    | (fail_if_no_progress extract_lets +onlyGivenNames x
       first | (refine Keeps.hyp x ?_ (fun _ => ?_); subst x; rotate_left; clear_value x; rotate_left) | clear_value x)
    | with_reducible apply keeps_State_setSlot
    | with_reducible apply Keeps.foldl
    | with_reducible apply Keeps.foldlPair
    | fail_if_no_progress (with_reducible apply Keeps.mk')

theorem keeps_handSend (s : State) {r0 : State} (hr : Keeps r0 s) : Keeps r0 (handSend s) := by
  refine Keeps.trans hr ?_
  clear hr
  unfold handSend
  repeat' first
    | with_reducible apply Keeps.refl
    | intro _
    | with_reducible assumption
    | (fail_if_no_progress extract_lets +onlyGivenNames x
       first | (refine Keeps.hyp x ?_ (fun _ => ?_); subst x; rotate_left; clear_value x; rotate_left) | clear_value x)
    | with_reducible apply keeps_State_setSlot
    | with_reducible apply keeps_twinPump
    | with_reducible apply keeps_State_twinPump
    | with_reducible refine Keeps.ofPair (by assumption) ?_
    | with_reducible apply Keeps.foldl
    | with_reducible apply Keeps.foldlPair
    | with_reducible apply Keeps.ite
    | fail_if_no_progress (with_reducible apply Keeps.mk')
    | split

theorem keeps_giveSlot (s : State) (k : Nat) {r0 : State} (hr : Keeps r0 s) : Keeps r0 (giveSlot s k) := by
  refine Keeps.trans hr ?_
  clear hr
  unfold giveSlot
  repeat' first
    | with_reducible apply Keeps.refl
    | intro _
    | with_reducible assumption
    | (fail_if_no_progress extract_lets +onlyGivenNames x
       first | (refine Keeps.hyp x ?_ (fun _ => ?_); subst x; rotate_left; clear_value x; rotate_left) | clear_value x)
    | with_reducible apply keeps_moveOwn
    | with_reducible apply keeps_State_ledMove
    | with_reducible apply keeps_State_ledAdd
    | with_reducible apply keeps_State_ledPut
    | with_reducible apply keeps_State_setSlot
    | with_reducible apply keeps_setNs
    | with_reducible refine Keeps.ofPair (by assumption) ?_
    | with_reducible apply Keeps.foldl
    | with_reducible apply Keeps.foldlPair
    | with_reducible apply Keeps.ite
    | fail_if_no_progress (with_reducible apply Keeps.mk')
    | split

theorem keeps_handOver (s : State) {r0 : State} (hr : Keeps r0 s) : Keeps r0 (handOver s) := by
  refine Keeps.trans hr ?_
  clear hr
  unfold handOver
  repeat' first
    | with_reducible apply Keeps.refl
    | intro _
    | with_reducible assumption
    | (fail_if_no_progress extract_lets +onlyGivenNames x
       first | (refine Keeps.hyp x ?_ (fun _ => ?_); subst x; rotate_left; clear_value x; rotate_left) | clear_value x)
    | with_reducible apply keeps_giveSlot
    | with_reducible apply keeps_moveDrops
    | with_reducible apply keeps_enterShadow
    | with_reducible apply keeps_handDrop
    | with_reducible apply keeps_State_count
    | with_reducible apply keeps_State_tally
    | with_reducible apply keeps_State_wr
    | with_reducible apply keeps_State_event
    | with_reducible apply keeps_reportWrite
    | with_reducible apply keeps_heartbeat
    | with_reducible apply keeps_showFlags
    | with_reducible refine Keeps.ofPair (by assumption) ?_
    | with_reducible apply Keeps.foldl
    | with_reducible apply Keeps.foldlPair
    | with_reducible apply Keeps.ite
    | fail_if_no_progress (with_reducible apply Keeps.mk')
    | split

theorem keeps_handTake (s : State) {r0 : State} (hr : Keeps r0 s) : Keeps r0 (handTake s) := by
  refine Keeps.trans hr ?_
  clear hr
  unfold handTake
  repeat' first
    | with_reducible apply Keeps.refl
    | intro _
    | with_reducible assumption
    | (fail_if_no_progress extract_lets +onlyGivenNames x
       first | (refine Keeps.hyp x ?_ (fun _ => ?_); subst x; rotate_left; clear_value x; rotate_left) | clear_value x)
    | with_reducible apply keeps_State_setSlot
    | with_reducible apply keeps_State_ledAdd
    | with_reducible apply keeps_becomeActive
    | with_reducible refine Keeps.ofPair (by assumption) ?_
    | with_reducible apply Keeps.foldl
    | with_reducible apply Keeps.foldlPair
    | with_reducible apply Keeps.ite
    | fail_if_no_progress (with_reducible apply Keeps.mk')
    | split

theorem keeps_wtrEnd (s : State) {r0 : State} (hr : Keeps r0 s) : Keeps r0 (wtrEnd s) := by
  refine Keeps.trans hr ?_
  clear hr
  unfold wtrEnd
  repeat' first
    | with_reducible apply Keeps.refl
    | intro _
    | with_reducible assumption
    | (fail_if_no_progress extract_lets +onlyGivenNames x
       first | (refine Keeps.hyp x ?_ (fun _ => ?_); subst x; rotate_left; clear_value x; rotate_left) | clear_value x)
    | with_reducible apply keeps_handAsk
    | with_reducible refine Keeps.ofPair (by assumption) ?_
    | with_reducible apply Keeps.ite
    | fail_if_no_progress (with_reducible apply Keeps.mk')
    | split

theorem keeps_pairCommand (s : State) (op : Nat) {r0 : State} (hr : Keeps r0 s) : Keeps r0 (pairCommand s op) := by
  refine Keeps.trans hr ?_
  clear hr
  unfold pairCommand
  repeat' first
    | with_reducible apply Keeps.refl
    | intro _
    | with_reducible assumption
    | with_reducible apply keeps_loseSync
    | with_reducible apply keeps_handAsk
    | with_reducible refine Keeps.ofPair (by assumption) ?_
    | with_reducible apply Keeps.ite
    | fail_if_no_progress (with_reducible apply Keeps.mk')
    | split

end Sys2Proof.Laws
end

