-- ==== Sys2Proof/Laws/KeepLines.lean ====
section
/-! SUPPORT. `Keeps` of every operation of Machine/Lines.lean. -/

namespace Sys2Proof.Laws

open Sys2Proof.Machine

set_option linter.unusedTactic false
set_option linter.unreachableTactic false
set_option linter.tactic.unusedName false

theorem keeps_jobsOver (s : State) {r0 : State} (hr : Keeps r0 s) : Keeps r0 (jobsOver s) := by
  refine Keeps.trans hr ?_
  clear hr
  unfold jobsOver
  repeat' first
    | with_reducible apply Keeps.refl
    | intro _
    | with_reducible apply keeps_requestStop
    | with_reducible apply keeps_requestMode
    | with_reducible apply Keeps.ite

theorem keeps_serviceOver (s : State) {r0 : State} (hr : Keeps r0 s) : Keeps r0 (serviceOver s) := by
  refine Keeps.trans hr ?_
  clear hr
  unfold serviceOver
  repeat' first
    | with_reducible apply Keeps.refl
    | intro _
    | with_reducible assumption
    | (fail_if_no_progress extract_lets +onlyGivenNames x
       first | (refine Keeps.hyp x ?_ (fun _ => ?_); subst x; rotate_left; clear_value x; rotate_left) | clear_value x)
    | with_reducible apply keeps_requestMode
    | with_reducible apply Keeps.ite
    | fail_if_no_progress (with_reducible apply Keeps.mk')

theorem keeps_State_lineEnd (s : State) {r0 : State} (hr : Keeps r0 s) : Keeps r0 (State.lineEnd s) := by
  refine Keeps.trans hr ?_
  clear hr
  unfold State.lineEnd
  repeat' first
    | with_reducible apply Keeps.refl
    | intro _
    | with_reducible assumption
    | (fail_if_no_progress extract_lets +onlyGivenNames x
       first | (refine Keeps.hyp x ?_ (fun _ => ?_); subst x; rotate_left; clear_value x; rotate_left) | clear_value x)
    | with_reducible apply keeps_leadUpdate
    | with_reducible apply keeps_State_retirePages
    | with_reducible apply keeps_serviceOver
    | with_reducible apply keeps_stopAdvance
    | with_reducible apply keeps_rewindAdvance
    | with_reducible apply keeps_jobsOver
    | with_reducible apply keeps_requestMode
    | with_reducible apply keeps_State_catSettle
    | with_reducible apply keeps_State_settle
    | with_reducible apply Keeps.ite

theorem keeps_refInterval (s : State) (g : Nat) {r0 : State} (hr : Keeps r0 s) : Keeps r0 (refInterval s g) := by
  refine Keeps.trans hr ?_
  clear hr
  unfold refInterval
  repeat' first
    | with_reducible apply Keeps.refl
    | intro _
    | with_reducible assumption
    | (fail_if_no_progress extract_lets +onlyGivenNames x
       first | (refine Keeps.hyp x ?_ (fun _ => ?_); subst x; rotate_left; clear_value x; rotate_left) | clear_value x)
    | with_reducible apply keeps_State_count
    | with_reducible apply keeps_State_wr
    | with_reducible apply keeps_State_event
    | with_reducible refine Keeps.ofPair (by assumption) ?_
    | with_reducible apply Keeps.ite
    | fail_if_no_progress (with_reducible apply Keeps.mk')

theorem keeps_rewindAsk (s : State) {r0 : State} (hr : Keeps r0 s) : Keeps r0 (rewindAsk s) := by
  refine Keeps.trans hr ?_
  clear hr
  unfold rewindAsk
  repeat' first
    | with_reducible apply Keeps.refl
    | intro _
    | with_reducible assumption
    | (fail_if_no_progress extract_lets +onlyGivenNames x
       first | (refine Keeps.hyp x ?_ (fun _ => ?_); subst x; rotate_left; clear_value x; rotate_left) | clear_value x)
    | with_reducible apply keeps_State_wr2
    | with_reducible apply keeps_requestMode
    | with_reducible apply keeps_setStep
    | with_reducible apply keeps_setStopFrom
    | with_reducible refine Keeps.ofPair (by assumption) ?_
    | with_reducible apply Keeps.ite
    | fail_if_no_progress (with_reducible apply Keeps.mk')
    | split

theorem keeps_holdBefore (s : State) {r0 : State} (hr : Keeps r0 s) : Keeps r0 (holdBefore s) := by
  refine Keeps.trans hr ?_
  clear hr
  unfold holdBefore
  repeat' first
    | with_reducible apply Keeps.refl
    | intro _
    | with_reducible assumption
    | with_reducible apply keeps_setStopFrom
    | with_reducible apply keeps_rewindAsk
    | with_reducible refine Keeps.ofPair (by assumption) ?_
    | with_reducible apply Keeps.ite
    | fail_if_no_progress (with_reducible apply Keeps.mk')
    | split

theorem keeps_leadCalls (s : State) {r0 : State} (hr : Keeps r0 s) : Keeps r0 (leadCalls s) := by
  refine Keeps.trans hr ?_
  clear hr
  unfold leadCalls
  repeat' first
    | with_reducible apply Keeps.refl
    | intro _
    | with_reducible assumption
    | (fail_if_no_progress extract_lets +onlyGivenNames x
       first | (refine Keeps.hyp x ?_ (fun _ => ?_); subst x; rotate_left; clear_value x; rotate_left) | clear_value x)
    | with_reducible apply keeps_rewindAsk
    | with_reducible apply keeps_requestMode
    | with_reducible apply Keeps.ite

theorem keeps_resumeLine (s : State) (g : Nat) {r0 : State} (hr : Keeps r0 s) : Keeps r0 (resumeLine s g) := by
  refine Keeps.trans hr ?_
  clear hr
  unfold resumeLine
  repeat' first
    | with_reducible apply Keeps.refl
    | intro _
    | with_reducible assumption
    | with_reducible apply keeps_requestMode
    | with_reducible apply keeps_setStep
    | with_reducible refine Keeps.ofPair (by assumption) ?_
    | with_reducible apply Keeps.ite
    | fail_if_no_progress (with_reducible apply Keeps.mk')
    | split

theorem keeps_gpLine (s : State) (g : Nat) {r0 : State} (hr : Keeps r0 s) : Keeps r0 (gpLine s g) := by
  refine Keeps.trans hr ?_
  clear hr
  unfold gpLine
  repeat' first
    | with_reducible apply Keeps.refl
    | intro _
    | with_reducible assumption
    | (fail_if_no_progress extract_lets +onlyGivenNames x
       first | (refine Keeps.hyp x ?_ (fun _ => ?_); subst x; rotate_left; clear_value x; rotate_left) | clear_value x)
    | with_reducible apply keeps_State_wr
    | with_reducible apply keeps_gpInt
    | with_reducible apply keeps_State_wrb
    | with_reducible apply keeps_State_count
    | with_reducible refine Keeps.ofPair (by assumption) ?_
    | with_reducible apply Keeps.ite
    | fail_if_no_progress (with_reducible apply Keeps.mk')
    | split

theorem keeps_refSos (s : State) {r0 : State} (hr : Keeps r0 s) : Keeps r0 (refSos s) := by
  refine Keeps.trans hr ?_
  clear hr
  unfold refSos
  repeat' first
    | with_reducible apply Keeps.refl
    | intro _
    | with_reducible assumption
    | (fail_if_no_progress extract_lets +onlyGivenNames x
       first | (refine Keeps.hyp x ?_ (fun _ => ?_); subst x; rotate_left; clear_value x; rotate_left) | clear_value x)
    | with_reducible apply keeps_lineBoundary
    | with_reducible apply keeps_holdBefore
    | with_reducible apply keeps_State_snapTake
    | with_reducible apply keeps_refInterval
    | with_reducible apply keeps_State_capture
    | with_reducible apply keeps_triggerSlices
    | with_reducible apply keeps_catApply
    | with_reducible apply keeps_resumeLine
    | with_reducible apply keeps_gpLine
    | with_reducible apply keeps_handPlan
    | with_reducible apply keeps_leadCalls
    | with_reducible refine Keeps.ofPair (by assumption) ?_
    | with_reducible apply Keeps.foldl
    | with_reducible apply Keeps.foldlPair
    | with_reducible apply Keeps.ite
    | fail_if_no_progress (with_reducible apply Keeps.mk')
    | split

theorem keeps_sosMissing (s : State) {r0 : State} (hr : Keeps r0 s) : Keeps r0 (sosMissing s) := by
  refine Keeps.trans hr ?_
  clear hr
  unfold sosMissing
  repeat' first
    | with_reducible apply Keeps.refl
    | intro _
    | with_reducible assumption
    | (fail_if_no_progress extract_lets +onlyGivenNames x
       first | (refine Keeps.hyp x ?_ (fun _ => ?_); subst x; rotate_left; clear_value x; rotate_left) | clear_value x)
    | with_reducible apply keeps_State_event
    | with_reducible apply keeps_State_count
    | with_reducible apply keeps_State_wr
    | with_reducible refine Keeps.ofPair (by assumption) ?_
    | with_reducible apply Keeps.ite
    | fail_if_no_progress (with_reducible apply Keeps.mk')
    | split

theorem keeps_heldBoundary (s : State) {r0 : State} (hr : Keeps r0 s) : Keeps r0 (heldBoundary s) := by
  refine Keeps.trans hr ?_
  clear hr
  unfold heldBoundary
  repeat' first
    | with_reducible apply Keeps.refl
    | intro _
    | with_reducible assumption
    | (fail_if_no_progress extract_lets +onlyGivenNames x
       first | (refine Keeps.hyp x ?_ (fun _ => ?_); subst x; rotate_left; clear_value x; rotate_left) | clear_value x)
    | with_reducible apply keeps_lineBoundary
    | with_reducible refine Keeps.ofPair (by assumption) ?_
    | with_reducible apply Keeps.ite
    | fail_if_no_progress (with_reducible apply Keeps.mk')
    | split

theorem keeps_refCross (x0 : Nat) (x1 : State) {r0 : State} (hr : Keeps r0 x1) : Keeps r0 (refCross x0 x1) := by
  refine Keeps.trans hr ?_
  clear hr
  fun_induction refCross x0 x1
  repeat' first
    | with_reducible apply Keeps.refl
    | intro _
    | with_reducible apply keeps_heldBoundary
    | with_reducible refine Keeps.trans ?_ (by assumption)
    | with_reducible apply keeps_refSos

theorem keeps_slotStart (s : State) (k : Nat) {r0 : State} (hr : Keeps r0 s) : Keeps r0 (slotStart s k) := by
  refine Keeps.trans hr ?_
  clear hr
  unfold slotStart
  repeat' first
    | with_reducible apply Keeps.refl
    | intro _
    | with_reducible apply keeps_slotSos
    | with_reducible apply keeps_catApply

theorem keeps_slotCross (k : Nat) (x1 : Nat) (x2 : State) {r0 : State} (hr : Keeps r0 x2) : Keeps r0 (slotCross k x1 x2) := by
  refine Keeps.trans hr ?_
  clear hr
  fun_induction slotCross k x1 x2
  repeat' first
    | with_reducible apply Keeps.refl
    | intro _
    | with_reducible refine Keeps.trans ?_ (by assumption)
    | with_reducible apply keeps_slotStart

theorem keeps_slotSkips (s : State) (k : Nat) {r0 : State} (hr : Keeps r0 s) : Keeps r0 (slotSkips s k) := by
  refine Keeps.trans hr ?_
  clear hr
  unfold slotSkips
  repeat' first
    | with_reducible apply Keeps.refl
    | intro _
    | with_reducible assumption
    | (fail_if_no_progress extract_lets +onlyGivenNames x
       first | (refine Keeps.hyp x ?_ (fun _ => ?_); subst x; rotate_left; clear_value x; rotate_left) | clear_value x)
    | with_reducible apply keeps_State_setSlot
    | with_reducible apply Keeps.ite

theorem keeps_slotMoves (s : State) (k : Nat) {r0 : State} (hr : Keeps r0 s) : Keeps r0 (slotMoves s k) := by
  refine Keeps.trans hr ?_
  clear hr
  unfold slotMoves
  repeat' first
    | with_reducible apply Keeps.refl
    | intro _
    | with_reducible assumption
    | (fail_if_no_progress extract_lets +onlyGivenNames x
       first | (refine Keeps.hyp x ?_ (fun _ => ?_); subst x; rotate_left; clear_value x; rotate_left) | clear_value x)
    | with_reducible apply keeps_slotSkips
    | with_reducible apply keeps_slotCross
    | with_reducible apply keeps_State_event
    | with_reducible apply keeps_State_wr
    | with_reducible apply Keeps.ite

theorem keeps_webMoved (s : State) {r0 : State} (hr : Keeps r0 s) : Keeps r0 (webMoved s) := by
  refine Keeps.trans hr ?_
  clear hr
  unfold webMoved
  repeat' first
    | with_reducible apply Keeps.refl
    | intro _
    | with_reducible apply keeps_slotMoves
    | with_reducible apply keeps_refCross
    | with_reducible apply Keeps.foldl
    | with_reducible apply Keeps.foldlPair
    | with_reducible apply Keeps.ite

theorem keeps_creditSet (s : State) (k : Nat) (f : Nat) {r0 : State} (hr : Keeps r0 s) : Keeps r0 (creditSet s k f) := by
  refine Keeps.trans hr ?_
  clear hr
  unfold creditSet
  repeat' first
    | with_reducible apply Keeps.refl
    | intro _
    | with_reducible apply keeps_grantCredits
    | with_reducible apply Keeps.ite

theorem keeps_lineOkSet (s : State) (k : Nat) (f : Nat) {r0 : State} (hr : Keeps r0 s) : Keeps r0 (lineOkSet s k f) := by
  refine Keeps.trans hr ?_
  clear hr
  unfold lineOkSet
  repeat' first
    | with_reducible apply Keeps.refl
    | intro _
    | with_reducible assumption
    | (fail_if_no_progress extract_lets +onlyGivenNames x
       first | (refine Keeps.hyp x ?_ (fun _ => ?_); subst x; rotate_left; clear_value x; rotate_left) | clear_value x)
    | with_reducible apply keeps_partComplete
    | with_reducible refine Keeps.ofPair (by assumption) ?_
    | with_reducible apply Keeps.ite
    | fail_if_no_progress (with_reducible apply Keeps.mk')
    | split

theorem keeps_lineNakSet (s : State) (k : Nat) (f : Nat) {r0 : State} (hr : Keeps r0 s) : Keeps r0 (lineNakSet s k f) := by
  refine Keeps.trans hr ?_
  clear hr
  unfold lineNakSet
  repeat' first
    | with_reducible apply Keeps.refl
    | intro _
    | with_reducible assumption
    | (fail_if_no_progress extract_lets +onlyGivenNames x
       first | (refine Keeps.hyp x ?_ (fun _ => ?_); subst x; rotate_left; clear_value x; rotate_left) | clear_value x)
    | with_reducible apply keeps_setPart
    | with_reducible refine Keeps.ofPair (by assumption) ?_
    | with_reducible apply Keeps.ite
    | fail_if_no_progress (with_reducible apply Keeps.mk')
    | split

theorem keeps_ackShadow (s : State) (k : Nat) (f : Nat) {r0 : State} (hr : Keeps r0 s) : Keeps r0 (ackShadow s k f) := by
  refine Keeps.trans hr ?_
  clear hr
  unfold ackShadow
  repeat' first
    | with_reducible apply Keeps.refl
    | intro _
    | with_reducible assumption
    | (fail_if_no_progress extract_lets +onlyGivenNames x
       first | (refine Keeps.hyp x ?_ (fun _ => ?_); subst x; rotate_left; clear_value x; rotate_left) | clear_value x)
    | with_reducible apply keeps_dropPart
    | with_reducible apply keeps_setFate
    | with_reducible apply keeps_tallyLine
    | with_reducible refine Keeps.ofPair (by assumption) ?_
    | with_reducible apply Keeps.ite
    | fail_if_no_progress (with_reducible apply Keeps.mk')
    | split

theorem keeps_relAckSet (s : State) (k : Nat) (f : Nat) {r0 : State} (hr : Keeps r0 s) : Keeps r0 (relAckSet s k f) := by
  refine Keeps.trans hr ?_
  clear hr
  unfold relAckSet
  repeat' first
    | with_reducible apply Keeps.refl
    | intro _
    | with_reducible assumption
    | (fail_if_no_progress extract_lets +onlyGivenNames x
       first | (refine Keeps.hyp x ?_ (fun _ => ?_); subst x; rotate_left; clear_value x; rotate_left) | clear_value x)
    | with_reducible apply keeps_ackShadow
    | with_reducible apply keeps_settlePart
    | with_reducible refine Keeps.ofPair (by assumption) ?_
    | with_reducible apply Keeps.ite
    | fail_if_no_progress (with_reducible apply Keeps.mk')
    | split

theorem keeps_decapLapse (s : State) (k : Nat) {r0 : State} (hr : Keeps r0 s) : Keeps r0 (decapLapse s k) := by
  refine Keeps.trans hr ?_
  clear hr
  unfold decapLapse
  repeat' first
    | with_reducible apply Keeps.refl
    | intro _
    | with_reducible assumption
    | (fail_if_no_progress extract_lets +onlyGivenNames x
       first | (refine Keeps.hyp x ?_ (fun _ => ?_); subst x; rotate_left; clear_value x; rotate_left) | clear_value x)
    | with_reducible apply keeps_State_wr
    | with_reducible refine Keeps.ofPair (by assumption) ?_
    | with_reducible apply Keeps.ite
    | fail_if_no_progress (with_reducible apply Keeps.mk')
    | split

theorem keeps_authRetry (s : State) (k : Nat) {r0 : State} (hr : Keeps r0 s) : Keeps r0 (authRetry s k) := by
  refine Keeps.trans hr ?_
  clear hr
  unfold authRetry
  repeat' first
    | with_reducible apply Keeps.refl
    | intro _
    | with_reducible assumption
    | (fail_if_no_progress extract_lets +onlyGivenNames x
       first | (refine Keeps.hyp x ?_ (fun _ => ?_); subst x; rotate_left; clear_value x; rotate_left) | clear_value x)
    | with_reducible apply keeps_authStart
    | with_reducible apply keeps_State_setSlot
    | with_reducible refine Keeps.ofPair (by assumption) ?_
    | with_reducible apply Keeps.ite
    | fail_if_no_progress (with_reducible apply Keeps.mk')
    | split

theorem keeps_graceOver (s : State) (k : Nat) {r0 : State} (hr : Keeps r0 s) : Keeps r0 (graceOver s k) := by
  refine Keeps.trans hr ?_
  clear hr
  unfold graceOver
  repeat' first
    | with_reducible apply Keeps.refl
    | intro _
    | with_reducible assumption
    | with_reducible apply keeps_chargeUpdate
    | with_reducible refine Keeps.ofPair (by assumption) ?_
    | with_reducible apply Keeps.ite
    | fail_if_no_progress (with_reducible apply Keeps.mk')
    | split

theorem keeps_usageAdd (s : State) (k : Nat) {r0 : State} (hr : Keeps r0 s) : Keeps r0 (usageAdd s k) := by
  refine Keeps.trans hr ?_
  clear hr
  unfold usageAdd
  repeat' first
    | with_reducible apply Keeps.refl
    | intro _
    | with_reducible assumption
    | (fail_if_no_progress extract_lets +onlyGivenNames x
       first | (refine Keeps.hyp x ?_ (fun _ => ?_); subst x; rotate_left; clear_value x; rotate_left) | clear_value x)
    | with_reducible apply keeps_sendUsage
    | with_reducible refine Keeps.ofPair (by assumption) ?_
    | with_reducible apply Keeps.ite
    | fail_if_no_progress (with_reducible apply Keeps.mk')
    | split

theorem keeps_holdOver (s : State) {r0 : State} (hr : Keeps r0 s) : Keeps r0 (holdOver s) := by
  refine Keeps.trans hr ?_
  clear hr
  unfold holdOver
  repeat' first
    | with_reducible apply Keeps.refl
    | intro _
    | with_reducible apply keeps_requestStop
    | with_reducible apply Keeps.ite

theorem keeps_vjobWrite (s : State) (v : Nat) {r0 : State} (hr : Keeps r0 s) : Keeps r0 (vjobWrite s v) := by
  refine Keeps.trans hr ?_
  clear hr
  unfold vjobWrite
  repeat' first
    | with_reducible apply Keeps.refl
    | intro _
    | with_reducible assumption
    | (fail_if_no_progress extract_lets +onlyGivenNames x
       first | (refine Keeps.hyp x ?_ (fun _ => ?_); subst x; rotate_left; clear_value x; rotate_left) | clear_value x)
    | with_reducible apply keeps_State_wr
    | with_reducible refine Keeps.ofPair (by assumption) ?_
    | with_reducible apply Keeps.ite
    | fail_if_no_progress (with_reducible apply Keeps.mk')
    | split

theorem keeps_decodeCommand (s : State) (p i err : Nat) {r0 : State} (hr : Keeps r0 s) : Keeps r0 (decodeCommand s p i err) := by
  unfold decodeCommand
  refine keeps_lineDecode _ _ _ ?_
  split
  · exact keeps_rrMet _ _ hr
  · exact (keeps_rrUncorrectable _ _ hr).trans (Keeps.updMem _ (mem_wf_write _ _))

theorem keeps_execReadyBandsPoll (t : Nat) (s : State) {r0 : State} (hr : Keeps r0 s) : KeepsOut r0 (execReadyBandsPoll t s) := by
  refine KeepsOut.trans hr ?_
  clear hr
  unfold execReadyBandsPoll
  repeat' first
    | with_reducible apply Keeps.refl
    | intro _
    | with_reducible apply keeps_readyPoll
    | with_reducible apply keeps_State_at
    | with_reducible apply KeepsOut.next

theorem keeps_execLineAccept (t : Nat) (s : State) {r0 : State} (hr : Keeps r0 s) : KeepsOut r0 (execLineAccept t s) := by
  refine KeepsOut.trans hr ?_
  clear hr
  unfold execLineAccept
  repeat' first
    | with_reducible apply Keeps.refl
    | intro _
    | with_reducible apply keeps_State_lineEnd
    | with_reducible apply keeps_lineAccept
    | with_reducible apply keeps_State_at
    | with_reducible apply KeepsOut.next

theorem keeps_execLineDecode (t : Nat) (plane : Nat) (row : Nat) (err : Nat) (s : State) {r0 : State} (hr : Keeps r0 s) : KeepsOut r0 (execLineDecode t plane row err s) := by
  refine KeepsOut.trans hr ?_
  clear hr
  unfold execLineDecode
  repeat' first
    | with_reducible apply Keeps.refl
    | intro _
    | with_reducible apply keeps_State_lineEnd
    | with_reducible apply keeps_decodeCommand
    | with_reducible apply keeps_State_at
    | with_reducible apply KeepsOut.next

theorem keeps_execVjobWrite (t : Nat) (v : Nat) (s : State) {r0 : State} (hr : Keeps r0 s) : KeepsOut r0 (execVjobWrite t v s) := by
  refine KeepsOut.trans hr ?_
  clear hr
  unfold execVjobWrite
  repeat' first
    | with_reducible apply Keeps.refl
    | intro _
    | with_reducible apply keeps_leadUpdate
    | with_reducible apply keeps_vjobWrite
    | with_reducible apply keeps_State_at
    | with_reducible apply KeepsOut.next

theorem keeps_execRewindDwellExpiry (t : Nat) (s : State) {r0 : State} (hr : Keeps r0 s) : KeepsOut r0 (execRewindDwellExpiry t s) := by
  refine KeepsOut.trans hr ?_
  clear hr
  unfold execRewindDwellExpiry
  repeat' first
    | with_reducible apply Keeps.refl
    | intro _
    | with_reducible apply keeps_State_lineEnd
    | with_reducible apply keeps_dwellEnd
    | with_reducible apply keeps_State_at
    | with_reducible apply KeepsOut.next

theorem keeps_execKeepopenTimeout (t : Nat) (slot : Nat) (s : State) {r0 : State} (hr : Keeps r0 s) : KeepsOut r0 (execKeepopenTimeout t slot s) := by
  refine KeepsOut.trans hr ?_
  clear hr
  unfold execKeepopenTimeout
  repeat' first
    | with_reducible apply Keeps.refl
    | intro _
    | with_reducible apply keeps_keepopenStart
    | with_reducible apply keeps_State_at
    | with_reducible apply KeepsOut.next

theorem keeps_execHoldOpenExpiry (t : Nat) (s : State) {r0 : State} (hr : Keeps r0 s) : KeepsOut r0 (execHoldOpenExpiry t s) := by
  refine KeepsOut.trans hr ?_
  clear hr
  unfold execHoldOpenExpiry
  repeat' first
    | with_reducible apply Keeps.refl
    | intro _
    | with_reducible apply keeps_State_settle
    | with_reducible apply keeps_holdOver
    | with_reducible apply keeps_State_at
    | with_reducible apply KeepsOut.next

theorem keeps_execStartOfScan (t : Nat) (slot : Nat) (s : State) {r0 : State} (hr : Keeps r0 s) : KeepsOut r0 (execStartOfScan t slot s) := by
  refine KeepsOut.trans hr ?_
  clear hr
  unfold execStartOfScan
  repeat' first
    | with_reducible apply Keeps.refl
    | intro _
    | with_reducible assumption
    | (fail_if_no_progress extract_lets +onlyGivenNames x
       first | (refine KeepsOut.hyp x ?_ (fun _ => ?_); subst x; rotate_left; clear_value x; rotate_left) | clear_value x)
    | (fail_if_no_progress extract_lets +onlyGivenNames x
       first | (refine Keeps.hyp x ?_ (fun _ => ?_); subst x; rotate_left; clear_value x; rotate_left) | clear_value x)
    | with_reducible apply keeps_State_at
    | with_reducible apply keeps_State_lineEnd
    | with_reducible apply keeps_slotStart
    | with_reducible apply KeepsOut.next
    | with_reducible apply KeepsOut.ite
    | with_reducible apply KeepsOut.onEngine
    | with_reducible apply Keeps.ite

theorem keeps_execReferenceStartOfScan (t : Nat) (s : State) {r0 : State} (hr : Keeps r0 s) : KeepsOut r0 (execReferenceStartOfScan t s) := by
  refine KeepsOut.trans hr ?_
  clear hr
  unfold execReferenceStartOfScan
  repeat' first
    | with_reducible apply Keeps.refl
    | intro _
    | with_reducible assumption
    | (fail_if_no_progress extract_lets +onlyGivenNames x
       first | (refine KeepsOut.hyp x ?_ (fun _ => ?_); subst x; rotate_left; clear_value x; rotate_left) | clear_value x)
    | with_reducible apply keeps_heldBoundary
    | with_reducible apply keeps_State_at
    | with_reducible apply keeps_refSos
    | with_reducible apply keeps_State_lineEnd
    | with_reducible apply KeepsOut.next
    | with_reducible apply KeepsOut.onEngine
    | with_reducible apply KeepsOut.ite
    | with_reducible refine Keeps.ofPair (by assumption) ?_
    | with_reducible apply Keeps.ite
    | fail_if_no_progress (with_reducible apply Keeps.mk')
    | split

theorem keeps_execSosMissing (t : Nat) (s : State) {r0 : State} (hr : Keeps r0 s) : KeepsOut r0 (execSosMissing t s) := by
  refine KeepsOut.trans hr ?_
  clear hr
  unfold execSosMissing
  repeat' first
    | with_reducible apply Keeps.refl
    | intro _
    | with_reducible apply keeps_sosMissing
    | with_reducible apply keeps_State_at
    | with_reducible apply KeepsOut.next

theorem keeps_execDataDeadlineExpiry (t : Nat) (slot : Nat) (s : State) {r0 : State} (hr : Keeps r0 s) : KeepsOut r0 (execDataDeadlineExpiry t slot s) := by
  refine KeepsOut.trans hr ?_
  clear hr
  unfold execDataDeadlineExpiry
  repeat' first
    | with_reducible apply Keeps.refl
    | intro _
    | with_reducible apply keeps_State_lineEnd
    | with_reducible apply keeps_dataLate
    | with_reducible apply keeps_State_at
    | with_reducible apply KeepsOut.next

theorem keeps_execDataFrameSend (t : Nat) (slot : Nat) (err : Nat) (s : State) {r0 : State} (hr : Keeps r0 s) : KeepsOut r0 (execDataFrameSend t slot err s) := by
  refine KeepsOut.trans hr ?_
  clear hr
  unfold execDataFrameSend
  repeat' first
    | with_reducible apply Keeps.refl
    | intro _
    | with_reducible assumption
    | (fail_if_no_progress extract_lets +onlyGivenNames x
       first | (refine KeepsOut.hyp x ?_ (fun _ => ?_); subst x; rotate_left; clear_value x; rotate_left) | clear_value x)
    | with_reducible apply keeps_State_at
    | with_reducible apply keeps_frameSend
    | with_reducible apply keeps_rrMet
    | with_reducible apply keeps_State_lineEnd
    | with_reducible apply KeepsOut.next
    | with_reducible apply KeepsOut.onEngine
    | with_reducible apply KeepsOut.ite
    | with_reducible refine Keeps.ofPair (by assumption) ?_
    | with_reducible apply Keeps.ite
    | fail_if_no_progress (with_reducible apply Keeps.mk')
    | split

theorem keeps_execCredit (t : Nat) (lane : Nat) (word : Nat) (s : State) {r0 : State} (hr : Keeps r0 s) : KeepsOut r0 (execCredit t lane word s) := by
  refine KeepsOut.trans hr ?_
  clear hr
  unfold execCredit
  repeat' first
    | with_reducible apply Keeps.refl
    | intro _
    | with_reducible apply keeps_onSet
    | with_reducible apply keeps_State_at
    | with_reducible apply keeps_creditSet
    | with_reducible apply KeepsOut.next

theorem keeps_execLineOk (t : Nat) (lane : Nat) (word : Nat) (s : State) {r0 : State} (hr : Keeps r0 s) : KeepsOut r0 (execLineOk t lane word s) := by
  refine KeepsOut.trans hr ?_
  clear hr
  unfold execLineOk
  repeat' first
    | with_reducible apply Keeps.refl
    | intro _
    | with_reducible apply keeps_onSet
    | with_reducible apply keeps_State_at
    | with_reducible apply keeps_lineOkSet
    | with_reducible apply KeepsOut.next

theorem keeps_execLineNak (t : Nat) (lane : Nat) (word : Nat) (s : State) {r0 : State} (hr : Keeps r0 s) : KeepsOut r0 (execLineNak t lane word s) := by
  refine KeepsOut.trans hr ?_
  clear hr
  unfold execLineNak
  repeat' first
    | with_reducible apply Keeps.refl
    | intro _
    | with_reducible apply keeps_onSet
    | with_reducible apply keeps_State_at
    | with_reducible apply keeps_lineNakSet
    | with_reducible apply KeepsOut.next

theorem keeps_execRelAck (t : Nat) (lane : Nat) (word : Nat) (s : State) {r0 : State} (hr : Keeps r0 s) : KeepsOut r0 (execRelAck t lane word s) := by
  refine KeepsOut.trans hr ?_
  clear hr
  unfold execRelAck
  repeat' first
    | with_reducible apply Keeps.refl
    | intro _
    | with_reducible apply keeps_State_lineEnd
    | with_reducible apply keeps_onSet
    | with_reducible apply keeps_State_at
    | with_reducible apply keeps_relAckSet
    | with_reducible apply KeepsOut.next

theorem keeps_execRelAckTimeout (t : Nat) (slot : Nat) (s : State) {r0 : State} (hr : Keeps r0 s) : KeepsOut r0 (execRelAckTimeout t slot s) := by
  refine KeepsOut.trans hr ?_
  clear hr
  unfold execRelAckTimeout
  repeat' first
    | with_reducible apply Keeps.refl
    | intro _
    | with_reducible apply keeps_State_lineEnd
    | with_reducible apply keeps_ackLost
    | with_reducible apply keeps_State_at
    | with_reducible apply KeepsOut.next

theorem keeps_execStatusSet (t : Nat) (lane : Nat) (word : Nat) (s : State) {r0 : State} (hr : Keeps r0 s) : KeepsOut r0 (execStatusSet t lane word s) := by
  refine KeepsOut.trans hr ?_
  clear hr
  unfold execStatusSet
  repeat' first
    | with_reducible apply Keeps.refl
    | intro _
    | with_reducible apply keeps_onSet
    | with_reducible apply keeps_State_at
    | with_reducible apply keeps_slotStatus
    | with_reducible apply KeepsOut.next

theorem keeps_execHeartbeat (t : Nat) (s : State) {r0 : State} (hr : Keeps r0 s) : KeepsOut r0 (execHeartbeat t s) := by
  refine KeepsOut.trans hr ?_
  clear hr
  unfold execHeartbeat
  repeat' first
    | with_reducible apply Keeps.refl
    | intro _
    | with_reducible assumption
    | (fail_if_no_progress extract_lets +onlyGivenNames x
       first | (refine KeepsOut.hyp x ?_ (fun _ => ?_); subst x; rotate_left; clear_value x; rotate_left) | clear_value x)
    | (fail_if_no_progress extract_lets +onlyGivenNames x
       first | (refine Keeps.hyp x ?_ (fun _ => ?_); subst x; rotate_left; clear_value x; rotate_left) | clear_value x)
    | with_reducible apply keeps_State_at
    | with_reducible apply keeps_heartbeat
    | with_reducible apply KeepsOut.next
    | with_reducible apply KeepsOut.ite
    | with_reducible apply KeepsOut.onEngine
    | with_reducible apply Keeps.ite

theorem keeps_execDecapLapse (t : Nat) (slot : Nat) (s : State) {r0 : State} (hr : Keeps r0 s) : KeepsOut r0 (execDecapLapse t slot s) := by
  refine KeepsOut.trans hr ?_
  clear hr
  unfold execDecapLapse
  repeat' first
    | with_reducible apply Keeps.refl
    | intro _
    | with_reducible apply keeps_decapLapse
    | with_reducible apply keeps_State_at
    | with_reducible apply KeepsOut.next

theorem keeps_execWaveCommit (t : Nat) (slot : Nat) (s : State) {r0 : State} (hr : Keeps r0 s) : KeepsOut r0 (execWaveCommit t slot s) := by
  refine KeepsOut.trans hr ?_
  clear hr
  unfold execWaveCommit
  repeat' first
    | with_reducible apply Keeps.refl
    | intro _
    | with_reducible apply keeps_waveCommit
    | with_reducible apply keeps_State_at
    | with_reducible apply KeepsOut.next

theorem keeps_execAuthStart (t : Nat) (slot : Nat) (s : State) {r0 : State} (hr : Keeps r0 s) : KeepsOut r0 (execAuthStart t slot s) := by
  refine KeepsOut.trans hr ?_
  clear hr
  unfold execAuthStart
  repeat' first
    | with_reducible apply Keeps.refl
    | intro _
    | with_reducible apply keeps_authStart
    | with_reducible apply keeps_State_at
    | with_reducible apply KeepsOut.next

theorem keeps_execCert (t : Nat) (slot : Nat) (msg : List Byte) (s : State) {r0 : State} (hr : Keeps r0 s) : KeepsOut r0 (execCert t slot msg s) := by
  refine KeepsOut.trans hr ?_
  clear hr
  unfold execCert
  repeat' first
    | with_reducible apply Keeps.refl
    | intro _
    | with_reducible apply keeps_authCert
    | with_reducible apply keeps_State_at
    | with_reducible apply KeepsOut.next

theorem keeps_execUsageNow (t : Nat) (slot : Nat) (value : Nat) (seq : Nat) (mac : List Byte) (s : State) {r0 : State} (hr : Keeps r0 s) : KeepsOut r0 (execUsageNow t slot value seq mac s) := by
  refine KeepsOut.trans hr ?_
  clear hr
  unfold execUsageNow
  repeat' first
    | with_reducible apply Keeps.refl
    | intro _
    | with_reducible apply keeps_usageNow
    | with_reducible apply keeps_State_at
    | with_reducible apply KeepsOut.next

theorem keeps_execUsageAdd (t : Nat) (slot : Nat) (s : State) {r0 : State} (hr : Keeps r0 s) : KeepsOut r0 (execUsageAdd t slot s) := by
  refine KeepsOut.trans hr ?_
  clear hr
  unfold execUsageAdd
  repeat' first
    | with_reducible apply Keeps.refl
    | intro _
    | with_reducible apply keeps_usageAdd
    | with_reducible apply keeps_State_at
    | with_reducible apply KeepsOut.next

theorem keeps_execAuthTimeout (t : Nat) (slot : Nat) (s : State) {r0 : State} (hr : Keeps r0 s) : KeepsOut r0 (execAuthTimeout t slot s) := by
  refine KeepsOut.trans hr ?_
  clear hr
  unfold execAuthTimeout
  repeat' first
    | with_reducible apply Keeps.refl
    | intro _
    | with_reducible apply keeps_authTimeout
    | with_reducible apply keeps_State_at
    | with_reducible apply KeepsOut.next

theorem keeps_execAuthRetry (t : Nat) (slot : Nat) (s : State) {r0 : State} (hr : Keeps r0 s) : KeepsOut r0 (execAuthRetry t slot s) := by
  refine KeepsOut.trans hr ?_
  clear hr
  unfold execAuthRetry
  repeat' first
    | with_reducible apply Keeps.refl
    | intro _
    | with_reducible apply keeps_authRetry
    | with_reducible apply keeps_State_at
    | with_reducible apply KeepsOut.next

theorem keeps_execAuthGraceExpiry (t : Nat) (slot : Nat) (s : State) {r0 : State} (hr : Keeps r0 s) : KeepsOut r0 (execAuthGraceExpiry t slot s) := by
  refine KeepsOut.trans hr ?_
  clear hr
  unfold execAuthGraceExpiry
  repeat' first
    | with_reducible apply Keeps.refl
    | intro _
    | with_reducible apply keeps_graceOver
    | with_reducible apply keeps_State_at
    | with_reducible apply KeepsOut.next

end Sys2Proof.Laws
end

