-- ==== Sys2Proof/Laws/KeepPairCmds.lean ====
section
/-! SUPPORT. `Keeps` of every operation of Machine/PairCmds.lean. -/

namespace Sys2Proof.Laws

open Sys2Proof.Machine

set_option linter.unusedTactic false
set_option linter.unreachableTactic false
set_option linter.tactic.unusedName false

theorem keeps_onTwinSet (s : State) (lane : Nat) (type : Nat) (word : Nat) (f : State → Nat → State) (hf : ∀ y0 y1, Keeps y0 (f y0 y1)) {r0 : State} (hr : Keeps r0 s) : Keeps r0 (onTwinSet s lane type word f) := by
  refine Keeps.trans hr ?_
  clear hr
  unfold onTwinSet
  repeat' first
    | with_reducible apply Keeps.refl
    | intro _
    | with_reducible assumption
    | with_reducible apply keeps_State_count
    | with_reducible apply keeps_setError
    | with_reducible refine Keeps.trans ?_ (hf ..)
    | with_reducible refine Keeps.ofPair (by assumption) ?_
    | with_reducible apply Keeps.ite
    | fail_if_no_progress (with_reducible apply Keeps.mk')
    | split

theorem keeps_inPair (s : State) (f : State → State) (hf : ∀ y0, Keeps y0 (f y0)) {r0 : State} (hr : Keeps r0 s) : Keeps r0 (inPair s f) := by
  refine Keeps.trans hr ?_
  clear hr
  unfold inPair
  repeat' first
    | with_reducible apply Keeps.refl
    | intro _
    | with_reducible refine Keeps.trans ?_ (hf ..)
    | with_reducible apply Keeps.ite

theorem keeps_execTwinHbSend (t : Nat) (s : State) {r0 : State} (hr : Keeps r0 s) : KeepsOut r0 (execTwinHbSend t s) := by
  refine KeepsOut.trans hr ?_
  clear hr
  unfold execTwinHbSend
  repeat' first
    | with_reducible apply Keeps.refl
    | intro _
    | with_reducible apply keeps_inPair
    | with_reducible apply keeps_State_at
    | with_reducible apply keeps_twinHbSend
    | with_reducible apply KeepsOut.next

theorem keeps_execTwinCredit (t : Nat) (lane : Nat) (word : Nat) (s : State) {r0 : State} (hr : Keeps r0 s) : KeepsOut r0 (execTwinCredit t lane word s) := by
  refine KeepsOut.trans hr ?_
  clear hr
  unfold execTwinCredit
  repeat' first
    | with_reducible apply Keeps.refl
    | intro _
    | with_reducible apply keeps_inPair
    | with_reducible apply keeps_State_at
    | with_reducible apply keeps_onTwinSet
    | with_reducible apply keeps_twinCredit
    | with_reducible apply KeepsOut.next

theorem keeps_execTwinAck (t : Nat) (lane : Nat) (word : Nat) (s : State) {r0 : State} (hr : Keeps r0 s) : KeepsOut r0 (execTwinAck t lane word s) := by
  refine KeepsOut.trans hr ?_
  clear hr
  unfold execTwinAck
  repeat' first
    | with_reducible apply Keeps.refl
    | intro _
    | with_reducible apply keeps_inPair
    | with_reducible apply keeps_State_at
    | with_reducible apply keeps_onTwinSet
    | with_reducible apply keeps_twinAcked
    | with_reducible apply KeepsOut.next

theorem keeps_execTwinNak (t : Nat) (lane : Nat) (word : Nat) (s : State) {r0 : State} (hr : Keeps r0 s) : KeepsOut r0 (execTwinNak t lane word s) := by
  refine KeepsOut.trans hr ?_
  clear hr
  unfold execTwinNak
  repeat' first
    | with_reducible apply Keeps.refl
    | intro _
    | with_reducible apply keeps_inPair
    | with_reducible apply keeps_State_at
    | with_reducible apply keeps_onTwinSet
    | with_reducible apply keeps_twinNaked
    | with_reducible apply KeepsOut.next

theorem keeps_execTwinFail (t : Nat) (lane : Nat) (word : Nat) (s : State) {r0 : State} (hr : Keeps r0 s) : KeepsOut r0 (execTwinFail t lane word s) := by
  refine KeepsOut.trans hr ?_
  clear hr
  unfold execTwinFail
  repeat' first
    | with_reducible apply Keeps.refl
    | intro _
    | with_reducible apply keeps_inPair
    | with_reducible apply keeps_State_at
    | with_reducible apply keeps_onTwinSet
    | with_reducible apply keeps_twinFailed
    | with_reducible apply KeepsOut.next

theorem keeps_execTwinRecordReceive (t : Nat) (lane : Nat) (seq : Nat) (good : Bool) (rec : TwinRec) (s : State) {r0 : State} (hr : Keeps r0 s) : KeepsOut r0 (execTwinRecordReceive t lane seq good rec s) := by
  refine KeepsOut.trans hr ?_
  clear hr
  unfold execTwinRecordReceive
  repeat' first
    | with_reducible apply Keeps.refl
    | intro _
    | with_reducible apply keeps_State_lineEnd
    | with_reducible apply keeps_inPair
    | with_reducible apply keeps_State_at
    | with_reducible apply keeps_recordIn
    | with_reducible apply KeepsOut.next

theorem keeps_execTwinAckSend (t : Nat) (s : State) {r0 : State} (hr : Keeps r0 s) : KeepsOut r0 (execTwinAckSend t s) := by
  refine KeepsOut.trans hr ?_
  clear hr
  unfold execTwinAckSend
  repeat' first
    | with_reducible apply Keeps.refl
    | intro _
    | with_reducible apply keeps_inPair
    | with_reducible apply keeps_State_at
    | with_reducible apply keeps_twinAck
    | with_reducible apply KeepsOut.next

theorem keeps_execStacksWrite (t : Nat) (addr : Nat) (data : List Byte) (s : State) {r0 : State} (hr : Keeps r0 s) : KeepsOut r0 (execStacksWrite t addr data s) := by
  refine KeepsOut.trans hr ?_
  clear hr
  unfold execStacksWrite
  repeat' first
    | with_reducible apply Keeps.refl
    | intro _
    | with_reducible apply keeps_inPair
    | with_reducible apply keeps_State_at
    | with_reducible apply keeps_recStacks
    | with_reducible apply KeepsOut.next

theorem keeps_execPageRec (t : Nat) (addr : Nat) (first : Nat) (hasW0 : Bool) (w0 : Int) (s : State) {r0 : State} (hr : Keeps r0 s) : KeepsOut r0 (execPageRec t addr first hasW0 w0 s) := by
  refine KeepsOut.trans hr ?_
  clear hr
  unfold execPageRec
  repeat' first
    | with_reducible apply Keeps.refl
    | intro _
    | with_reducible apply keeps_State_lineEnd
    | with_reducible apply keeps_inPair
    | with_reducible apply keeps_State_at
    | with_reducible apply keeps_recPage
    | with_reducible apply KeepsOut.next

theorem keeps_execSubstRec (t : Nat) (isSet : Bool) (nozzle : Nat) (spare : Nat) (line : Nat) (s : State) {r0 : State} (hr : Keeps r0 s) : KeepsOut r0 (execSubstRec t isSet nozzle spare line s) := by
  refine KeepsOut.trans hr ?_
  clear hr
  unfold execSubstRec
  repeat' first
    | with_reducible apply Keeps.refl
    | intro _
    | with_reducible apply keeps_inPair
    | with_reducible apply keeps_State_at
    | with_reducible apply keeps_recSubst
    | with_reducible apply KeepsOut.next

theorem keeps_execBankRec (t : Nat) (plane : Nat) (bank : Nat) (offset : Nat) (trims : List Byte) (s : State) {r0 : State} (hr : Keeps r0 s) : KeepsOut r0 (execBankRec t plane bank offset trims s) := by
  refine KeepsOut.trans hr ?_
  clear hr
  unfold execBankRec
  repeat' first
    | with_reducible apply Keeps.refl
    | intro _
    | with_reducible apply keeps_inPair
    | with_reducible apply keeps_State_at
    | with_reducible apply keeps_recBank
    | with_reducible apply KeepsOut.next

theorem keeps_execEntryRec (t : Nat) (entry : List Byte) (since : Nat) (s : State) {r0 : State} (hr : Keeps r0 s) : KeepsOut r0 (execEntryRec t entry since s) := by
  refine KeepsOut.trans hr ?_
  clear hr
  unfold execEntryRec
  repeat' first
    | with_reducible apply Keeps.refl
    | intro _
    | with_reducible apply keeps_inPair
    | with_reducible apply keeps_State_at
    | with_reducible apply keeps_recEntry
    | with_reducible apply KeepsOut.next

theorem keeps_execSetpointRec (t : Nat) (port : Nat) (period : Nat) (slots : List Byte) (s : State) {r0 : State} (hr : Keeps r0 s) : KeepsOut r0 (execSetpointRec t port period slots s) := by
  refine KeepsOut.trans hr ?_
  clear hr
  unfold execSetpointRec
  repeat' first
    | with_reducible apply Keeps.refl
    | intro _
    | with_reducible apply keeps_inPair
    | with_reducible apply keeps_State_at
    | with_reducible apply keeps_recSetpoint
    | with_reducible apply KeepsOut.next

theorem keeps_execModeRec (t : Nat) (mode : Nat) (cause : Nat) (line : Nat) (stop : Nat) (step : Nat) (s : State) {r0 : State} (hr : Keeps r0 s) : KeepsOut r0 (execModeRec t mode cause line stop step s) := by
  refine KeepsOut.trans hr ?_
  clear hr
  unfold execModeRec
  repeat' first
    | with_reducible apply Keeps.refl
    | intro _
    | with_reducible apply keeps_State_lineEnd
    | with_reducible apply keeps_inPair
    | with_reducible apply keeps_State_at
    | with_reducible apply keeps_recMode
    | with_reducible apply KeepsOut.next

theorem keeps_execHealthRec (t : Nat) (body : List Byte) (s : State) {r0 : State} (hr : Keeps r0 s) : KeepsOut r0 (execHealthRec t body s) := by
  refine KeepsOut.trans hr ?_
  clear hr
  unfold execHealthRec
  repeat' first
    | with_reducible apply Keeps.refl
    | intro _
    | with_reducible apply keeps_inPair
    | with_reducible apply keeps_State_at
    | with_reducible apply keeps_healthTake
    | with_reducible apply KeepsOut.next

theorem keeps_execHandoverRec (t : Nat) (instant : Nat) (tags : List Nat) (credits : List Nat) (s : State) {r0 : State} (hr : Keeps r0 s) : KeepsOut r0 (execHandoverRec t instant tags credits s) := by
  refine KeepsOut.trans hr ?_
  clear hr
  unfold execHandoverRec
  repeat' first
    | with_reducible apply Keeps.refl
    | intro _
    | with_reducible apply keeps_inPair
    | with_reducible apply keeps_State_at
    | with_reducible apply keeps_recHandover
    | with_reducible apply KeepsOut.next

theorem keeps_execSyncMark (t : Nat) (kind : Nat) (s : State) {r0 : State} (hr : Keeps r0 s) : KeepsOut r0 (execSyncMark t kind s) := by
  refine KeepsOut.trans hr ?_
  clear hr
  unfold execSyncMark
  repeat' first
    | with_reducible apply Keeps.refl
    | intro _
    | with_reducible apply keeps_inPair
    | with_reducible apply keeps_State_at
    | with_reducible apply keeps_recSync
    | with_reducible apply KeepsOut.next

theorem keeps_execHealthSend (t : Nat) (s : State) {r0 : State} (hr : Keeps r0 s) : KeepsOut r0 (execHealthSend t s) := by
  refine KeepsOut.trans hr ?_
  clear hr
  unfold execHealthSend
  repeat' first
    | with_reducible apply Keeps.refl
    | intro _
    | with_reducible apply keeps_healthSend
    | with_reducible apply keeps_State_at
    | with_reducible apply KeepsOut.next

theorem keeps_execResyncComplete (t : Nat) (equal : Bool) (reach : Nat) (s : State) {r0 : State} (hr : Keeps r0 s) : KeepsOut r0 (execResyncComplete t equal reach s) := by
  refine KeepsOut.trans hr ?_
  clear hr
  unfold execResyncComplete
  repeat' first
    | with_reducible apply Keeps.refl
    | intro _
    | with_reducible apply keeps_resyncDone
    | with_reducible apply keeps_State_at
    | with_reducible apply KeepsOut.next

theorem keeps_execShadowLineTimeout (t : Nat) (slot : Nat) (s : State) {r0 : State} (hr : Keeps r0 s) : KeepsOut r0 (execShadowLineTimeout t slot s) := by
  refine KeepsOut.trans hr ?_
  clear hr
  unfold execShadowLineTimeout
  repeat' first
    | with_reducible apply Keeps.refl
    | intro _
    | with_reducible apply keeps_State_lineEnd
    | with_reducible apply keeps_shadowLate
    | with_reducible apply keeps_State_at
    | with_reducible apply KeepsOut.next

theorem keeps_execSwitchover (t : Nat) (s : State) {r0 : State} (hr : Keeps r0 s) : KeepsOut r0 (execSwitchover t s) := by
  refine KeepsOut.trans hr ?_
  clear hr
  unfold execSwitchover
  repeat' first
    | with_reducible apply Keeps.refl
    | intro _
    | with_reducible apply keeps_State_lineEnd
    | with_reducible apply keeps_switchover
    | with_reducible apply keeps_State_at
    | with_reducible apply KeepsOut.next

theorem keeps_execHandoverReport (t : Nat) (s : State) {r0 : State} (hr : Keeps r0 s) : KeepsOut r0 (execHandoverReport t s) := by
  refine KeepsOut.trans hr ?_
  clear hr
  unfold execHandoverReport
  repeat' first
    | with_reducible apply Keeps.refl
    | intro _
    | with_reducible apply keeps_reportWrite
    | with_reducible apply keeps_State_at
    | with_reducible apply KeepsOut.next

theorem keeps_execPairYieldPage (t : Nat) (s : State) {r0 : State} (hr : Keeps r0 s) : KeepsOut r0 (execPairYieldPage t s) := by
  refine KeepsOut.trans hr ?_
  clear hr
  unfold execPairYieldPage
  repeat' first
    | with_reducible apply Keeps.refl
    | intro _
    | with_reducible assumption
    | (fail_if_no_progress extract_lets +onlyGivenNames x
       first | (refine KeepsOut.hyp x ?_ (fun _ => ?_); subst x; rotate_left; clear_value x; rotate_left) | clear_value x)
    | (fail_if_no_progress extract_lets +onlyGivenNames x
       first | (refine Keeps.hyp x ?_ (fun _ => ?_); subst x; rotate_left; clear_value x; rotate_left) | clear_value x)
    | with_reducible apply keeps_State_at
    | with_reducible apply keeps_pairCommand
    | with_reducible apply KeepsOut.next
    | with_reducible apply KeepsOut.ite
    | with_reducible apply KeepsOut.onEngine
    | with_reducible apply Keeps.ite

theorem keeps_execPairYieldNow (t : Nat) (s : State) {r0 : State} (hr : Keeps r0 s) : KeepsOut r0 (execPairYieldNow t s) := by
  refine KeepsOut.trans hr ?_
  clear hr
  unfold execPairYieldNow
  repeat' first
    | with_reducible apply Keeps.refl
    | intro _
    | with_reducible assumption
    | (fail_if_no_progress extract_lets +onlyGivenNames x
       first | (refine KeepsOut.hyp x ?_ (fun _ => ?_); subst x; rotate_left; clear_value x; rotate_left) | clear_value x)
    | (fail_if_no_progress extract_lets +onlyGivenNames x
       first | (refine Keeps.hyp x ?_ (fun _ => ?_); subst x; rotate_left; clear_value x; rotate_left) | clear_value x)
    | with_reducible apply keeps_State_at
    | with_reducible apply keeps_pairCommand
    | with_reducible apply KeepsOut.next
    | with_reducible apply KeepsOut.ite
    | with_reducible apply KeepsOut.onEngine
    | with_reducible apply Keeps.ite

theorem keeps_execPairResync (t : Nat) (s : State) {r0 : State} (hr : Keeps r0 s) : KeepsOut r0 (execPairResync t s) := by
  refine KeepsOut.trans hr ?_
  clear hr
  unfold execPairResync
  repeat' first
    | with_reducible apply Keeps.refl
    | intro _
    | with_reducible assumption
    | (fail_if_no_progress extract_lets +onlyGivenNames x
       first | (refine KeepsOut.hyp x ?_ (fun _ => ?_); subst x; rotate_left; clear_value x; rotate_left) | clear_value x)
    | (fail_if_no_progress extract_lets +onlyGivenNames x
       first | (refine Keeps.hyp x ?_ (fun _ => ?_); subst x; rotate_left; clear_value x; rotate_left) | clear_value x)
    | with_reducible apply keeps_State_at
    | with_reducible apply keeps_pairCommand
    | with_reducible apply KeepsOut.next
    | with_reducible apply KeepsOut.ite
    | with_reducible apply KeepsOut.onEngine
    | with_reducible apply Keeps.ite

theorem keeps_execHandoverSend (t : Nat) (s : State) {r0 : State} (hr : Keeps r0 s) : KeepsOut r0 (execHandoverSend t s) := by
  refine KeepsOut.trans hr ?_
  clear hr
  unfold execHandoverSend
  repeat' first
    | with_reducible apply Keeps.refl
    | intro _
    | with_reducible apply keeps_handSend
    | with_reducible apply keeps_State_at
    | with_reducible apply KeepsOut.next

theorem keeps_execHandoverTake (t : Nat) (s : State) {r0 : State} (hr : Keeps r0 s) : KeepsOut r0 (execHandoverTake t s) := by
  refine KeepsOut.trans hr ?_
  clear hr
  unfold execHandoverTake
  repeat' first
    | with_reducible apply Keeps.refl
    | intro _
    | with_reducible apply keeps_State_lineEnd
    | with_reducible apply keeps_handTake
    | with_reducible apply keeps_State_at
    | with_reducible apply KeepsOut.next

theorem keeps_execWtrExpiry (t : Nat) (s : State) {r0 : State} (hr : Keeps r0 s) : KeepsOut r0 (execWtrExpiry t s) := by
  refine KeepsOut.trans hr ?_
  clear hr
  unfold execWtrExpiry
  repeat' first
    | with_reducible apply Keeps.refl
    | intro _
    | with_reducible apply keeps_wtrEnd
    | with_reducible apply keeps_State_at
    | with_reducible apply KeepsOut.next

theorem keeps_execSecondaryWaitExpiry (t : Nat) (s : State) {r0 : State} (hr : Keeps r0 s) : KeepsOut r0 (execSecondaryWaitExpiry t s) := by
  refine KeepsOut.trans hr ?_
  clear hr
  unfold execSecondaryWaitExpiry
  repeat' first
    | with_reducible apply Keeps.refl
    | intro _
    | with_reducible assumption
    | (fail_if_no_progress extract_lets +onlyGivenNames x
       first | (refine KeepsOut.hyp x ?_ (fun _ => ?_); subst x; rotate_left; clear_value x; rotate_left) | clear_value x)
    | (fail_if_no_progress extract_lets +onlyGivenNames x
       first | (refine Keeps.hyp x ?_ (fun _ => ?_); subst x; rotate_left; clear_value x; rotate_left) | clear_value x)
    | with_reducible apply keeps_State_at
    | with_reducible apply keeps_State_lineEnd
    | with_reducible apply keeps_heartbeatWaited
    | with_reducible apply KeepsOut.next
    | with_reducible apply KeepsOut.ite
    | with_reducible apply KeepsOut.onEngine
    | with_reducible apply Keeps.ite

theorem keeps_execActiveHeartbeatWaitExpiry (t : Nat) (s : State) {r0 : State} (hr : Keeps r0 s) : KeepsOut r0 (execActiveHeartbeatWaitExpiry t s) := by
  refine KeepsOut.trans hr ?_
  clear hr
  unfold execActiveHeartbeatWaitExpiry
  repeat' first
    | with_reducible apply Keeps.refl
    | intro _
    | with_reducible assumption
    | (fail_if_no_progress extract_lets +onlyGivenNames x
       first | (refine KeepsOut.hyp x ?_ (fun _ => ?_); subst x; rotate_left; clear_value x; rotate_left) | clear_value x)
    | (fail_if_no_progress extract_lets +onlyGivenNames x
       first | (refine Keeps.hyp x ?_ (fun _ => ?_); subst x; rotate_left; clear_value x; rotate_left) | clear_value x)
    | with_reducible apply keeps_State_at
    | with_reducible apply keeps_State_lineEnd
    | with_reducible apply keeps_heartbeatWaited
    | with_reducible apply KeepsOut.next
    | with_reducible apply KeepsOut.ite
    | with_reducible apply KeepsOut.onEngine
    | with_reducible apply Keeps.ite

end Sys2Proof.Laws
end

