-- ==== Sys2Proof/Laws/KeepFrames.lean ====
section
/-! SUPPORT. `Keeps` of every operation of Machine/Frames.lean. -/

namespace Sys2Proof.Laws

open Sys2Proof.Machine

set_option linter.unusedTactic false
set_option linter.unreachableTactic false
set_option linter.tactic.unusedName false

theorem keeps_catForce (s : State) (ch : Nat) (e : List Byte) {r0 : State} (hr : Keeps r0 s) : Keeps r0 (catForce s ch e) := by
  refine Keeps.trans hr ?_
  clear hr
  unfold catForce
  repeat' first
    | with_reducible apply Keeps.refl
    | intro _
    | with_reducible assumption
    | (fail_if_no_progress extract_lets +onlyGivenNames x
       first | (refine Keeps.hyp x ?_ (fun _ => ?_); subst x; rotate_left; clear_value x; rotate_left) | clear_value x)
    | with_reducible apply keeps_entryTaken
    | with_reducible apply keeps_State_catMove
    | fail_if_no_progress (with_reducible apply Keeps.mk')

theorem keeps_pipeDegraded (s : State) (p : Nat) {r0 : State} (hr : Keeps r0 s) : Keeps r0 (pipeDegraded s p) := by
  refine Keeps.trans hr ?_
  clear hr
  unfold pipeDegraded
  repeat' first
    | with_reducible apply Keeps.refl
    | intro _
    | with_reducible assumption
    | with_reducible apply keeps_State_wr
    | with_reducible apply keeps_State_event
    | with_reducible refine Keeps.ofPair (by assumption) ?_
    | with_reducible apply Keeps.ite
    | fail_if_no_progress (with_reducible apply Keeps.mk')

theorem keeps_pipeSubstitute (s : State) (p : Nat) {r0 : State} (hr : Keeps r0 s) : Keeps r0 (pipeSubstitute s p) := by
  refine Keeps.trans hr ?_
  clear hr
  unfold pipeSubstitute
  repeat' first
    | with_reducible apply Keeps.refl
    | intro _
    | with_reducible assumption
    | (fail_if_no_progress extract_lets +onlyGivenNames x
       first | (refine Keeps.hyp x ?_ (fun _ => ?_); subst x; rotate_left; clear_value x; rotate_left) | clear_value x)
    | with_reducible apply keeps_pipeDegraded
    | with_reducible apply keeps_State_pokeBytes
    | with_reducible apply keeps_State_wr
    | with_reducible apply keeps_State_setPipe
    | with_reducible apply keeps_State_event
    | with_reducible apply keeps_catFetch
    | with_reducible refine Keeps.ofPair (by assumption) ?_
    | with_reducible apply Keeps.ite
    | fail_if_no_progress (with_reducible apply Keeps.mk')
    | split

theorem keeps_pipeTested (s : State) (p : Nat) (ok : Bool) {r0 : State} (hr : Keeps r0 s) : Keeps r0 (pipeTested s p ok) := by
  refine Keeps.trans hr ?_
  clear hr
  unfold pipeTested
  repeat' first
    | with_reducible apply Keeps.refl
    | intro _
    | with_reducible assumption
    | (fail_if_no_progress extract_lets +onlyGivenNames x
       first | (refine Keeps.hyp x ?_ (fun _ => ?_); subst x; rotate_left; clear_value x; rotate_left) | clear_value x)
    | with_reducible apply keeps_State_setPipe
    | with_reducible apply keeps_pipeSubstitute
    | with_reducible apply Keeps.ite

theorem keeps_pipeSwap (s : State) (p : Nat) {r0 : State} (hr : Keeps r0 s) : Keeps r0 (pipeSwap s p) := by
  refine Keeps.trans hr ?_
  clear hr
  unfold pipeSwap
  repeat' first
    | with_reducible apply Keeps.refl
    | intro _
    | with_reducible assumption
    | (fail_if_no_progress extract_lets +onlyGivenNames x
       first | (refine Keeps.hyp x ?_ (fun _ => ?_); subst x; rotate_left; clear_value x; rotate_left) | clear_value x)
    | with_reducible apply keeps_State_setPipe
    | with_reducible apply keeps_catForce
    | with_reducible apply keeps_showGeom
    | with_reducible refine Keeps.ofPair (by assumption) ?_
    | fail_if_no_progress (with_reducible apply Keeps.mk')
    | split

theorem keeps_frameStart (s : State) (d : Nat × Nat × Nat) {r0 : State} (hr : Keeps r0 s) : Keeps r0 (frameStart s d) := by
  refine Keeps.trans hr ?_
  clear hr
  unfold frameStart
  repeat' first
    | with_reducible apply Keeps.refl
    | intro _
    | with_reducible assumption
    | (fail_if_no_progress extract_lets +onlyGivenNames x
       first | (refine Keeps.hyp x ?_ (fun _ => ?_); subst x; rotate_left; clear_value x; rotate_left) | clear_value x)
    | with_reducible apply keeps_catApply
    | with_reducible apply keeps_State_capture
    | with_reducible apply keeps_unitBoundary
    | with_reducible apply keeps_frameBegin
    | with_reducible apply Keeps.ite

theorem keeps_groupTrigger (s : State) (g : Nat) {r0 : State} (hr : Keeps r0 s) : Keeps r0 (groupTrigger s g) := by
  unfold groupTrigger
  split
  · exact hr
  · rename_i u e
    exact Keeps.foldl _ (fun _ _ => keeps_pipeTrigger _ _ _ _ (Keeps.refl _)) _
      (Keeps.foldl _ (fun _ _ => keeps_frameStart _ _ (Keeps.refl _)) _
        (Keeps.foldl _ (fun _ _ => keeps_pipeSwap _ _ (Keeps.refl _)) _ (keeps_groupCount _ _ hr _ e)))

theorem keeps_frameEnd (s : State) (p : Nat) (peakOk : Bool) (ests : List Int) (testOk : Bool) {r0 : State} (hr : Keeps r0 s) : Keeps r0 (frameEnd s p peakOk ests testOk) := by
  refine Keeps.trans hr ?_
  clear hr
  unfold frameEnd
  repeat' first
    | with_reducible apply Keeps.refl
    | intro _
    | with_reducible assumption
    | (fail_if_no_progress extract_lets +onlyGivenNames x
       first | (refine Keeps.hyp x ?_ (fun _ => ?_); subst x; rotate_left; clear_value x; rotate_left) | clear_value x)
    | with_reducible apply keeps_pipeTested
    | with_reducible apply keeps_frameClose
    | with_reducible refine Keeps.ofPair (by assumption) ?_
    | with_reducible apply Keeps.ite
    | fail_if_no_progress (with_reducible apply Keeps.mk')
    | split

theorem keeps_pipeIdleTest (s : State) (p : Nat) (ok : Bool) {r0 : State} (hr : Keeps r0 s) : Keeps r0 (pipeIdleTest s p ok) := by
  refine Keeps.trans hr ?_
  clear hr
  unfold pipeIdleTest
  repeat' first
    | with_reducible apply Keeps.refl
    | intro _
    | with_reducible assumption
    | (fail_if_no_progress extract_lets +onlyGivenNames x
       first | (refine Keeps.hyp x ?_ (fun _ => ?_); subst x; rotate_left; clear_value x; rotate_left) | clear_value x)
    | with_reducible apply keeps_State_setPipe
    | with_reducible apply Keeps.ite

theorem keeps_execGroupTrigger (t : Nat) (grp : Nat) (s : State) {r0 : State} (hr : Keeps r0 s) : KeepsOut r0 (execGroupTrigger t grp s) := by
  refine KeepsOut.trans hr ?_
  clear hr
  unfold execGroupTrigger
  repeat' first
    | with_reducible apply Keeps.refl
    | intro _
    | with_reducible apply keeps_groupTrigger
    | with_reducible apply keeps_State_at
    | with_reducible apply KeepsOut.next

theorem keeps_execFrameEnd (t : Nat) (pipe : Nat) (peakOk : Bool) (ests : List Int) (testOk : Bool) (s : State) {r0 : State} (hr : Keeps r0 s) : KeepsOut r0 (execFrameEnd t pipe peakOk ests testOk s) := by
  refine KeepsOut.trans hr ?_
  clear hr
  unfold execFrameEnd
  repeat' first
    | with_reducible apply Keeps.refl
    | intro _
    | with_reducible apply keeps_State_lineEnd
    | with_reducible apply keeps_State_spend
    | with_reducible apply keeps_frameEnd
    | with_reducible apply keeps_State_at
    | with_reducible apply KeepsOut.next

theorem keeps_execPipelineTestTimer (t : Nat) (pipe : Nat) (ok : Bool) (s : State) {r0 : State} (hr : Keeps r0 s) : KeepsOut r0 (execPipelineTestTimer t pipe ok s) := by
  refine KeepsOut.trans hr ?_
  clear hr
  unfold execPipelineTestTimer
  repeat' first
    | with_reducible apply Keeps.refl
    | intro _
    | with_reducible apply keeps_pipeIdleTest
    | with_reducible apply keeps_State_at
    | with_reducible apply KeepsOut.next

end Sys2Proof.Laws
end

