-- ==== Sys2Proof/Laws/KeepMotionCmds.lean ====
section
/-! SUPPORT. `Keeps` of every operation of Machine/MotionCmds.lean. -/

namespace Sys2Proof.Laws

open Sys2Proof.Machine

set_option linter.unusedTactic false
set_option linter.unreachableTactic false
set_option linter.tactic.unusedName false

theorem keeps_takeJobSpeed (s : State) {r0 : State} (hr : Keeps r0 s) : Keeps r0 (takeJobSpeed s) := by
  refine Keeps.trans hr ?_
  clear hr
  unfold takeJobSpeed
  repeat' first
    | with_reducible apply Keeps.refl
    | intro _
    | with_reducible assumption
    | (fail_if_no_progress extract_lets +onlyGivenNames x
       first | (refine Keeps.hyp x ?_ (fun _ => ?_); subst x; rotate_left; clear_value x; rotate_left) | clear_value x)
    | with_reducible apply keeps_leadUpdate
    | with_reducible apply keeps_State_setAxis
    | with_reducible refine Keeps.ofPair (by assumption) ?_
    | with_reducible apply Keeps.ite
    | fail_if_no_progress (with_reducible apply Keeps.mk')
    | split

theorem keeps_throttleOver (s : State) {r0 : State} (hr : Keeps r0 s) : Keeps r0 (throttleOver s) := by
  refine Keeps.trans hr ?_
  clear hr
  unfold throttleOver
  repeat' first
    | with_reducible apply Keeps.refl
    | intro _
    | with_reducible assumption
    | (fail_if_no_progress extract_lets +onlyGivenNames x
       first | (refine Keeps.hyp x ?_ (fun _ => ?_); subst x; rotate_left; clear_value x; rotate_left) | clear_value x)
    | with_reducible apply keeps_requestMode
    | with_reducible apply Keeps.ite

theorem keeps_webFollow (s : State) {r0 : State} (hr : Keeps r0 s) : Keeps r0 (webFollow s) := by
  refine Keeps.trans hr ?_
  clear hr
  unfold webFollow
  repeat' first
    | with_reducible apply Keeps.refl
    | intro _
    | with_reducible assumption
    | (fail_if_no_progress extract_lets +onlyGivenNames x
       first | (refine Keeps.hyp x ?_ (fun _ => ?_); subst x; rotate_left; clear_value x; rotate_left) | clear_value x)
    | with_reducible apply keeps_axisRun
    | with_reducible refine Keeps.ofPair (by assumption) ?_
    | with_reducible apply Keeps.ite
    | fail_if_no_progress (with_reducible apply Keeps.mk')
    | split

theorem keeps_portPeriod (s : State) (k : Nat) {r0 : State} (hr : Keeps r0 s) : Keeps r0 (portPeriod s k) := by
  refine Keeps.trans hr ?_
  clear hr
  unfold portPeriod
  repeat' first
    | with_reducible apply Keeps.refl
    | intro _
    | with_reducible assumption
    | (fail_if_no_progress extract_lets +onlyGivenNames x
       first | (refine Keeps.hyp x ?_ (fun _ => ?_); subst x; rotate_left; clear_value x; rotate_left) | clear_value x)
    | with_reducible apply keeps_State_setDrivePort
    | with_reducible apply keeps_catApply
    | with_reducible apply keeps_unitBoundary
    | with_reducible apply keeps_webFollow
    | with_reducible apply keeps_throttleOver
    | with_reducible apply keeps_takeJobSpeed
    | with_reducible apply keeps_axisPeriod
    | with_reducible apply keeps_parkGo
    | with_reducible apply keeps_State_emit
    | with_reducible apply keeps_State_twin
    | with_reducible apply keeps_State_setAxis
    | with_reducible apply keeps_State_spend
    | with_reducible refine Keeps.ofPair (by assumption) ?_
    | with_reducible apply Keeps.foldl
    | with_reducible apply Keeps.foldlPair
    | with_reducible apply Keeps.ite
    | fail_if_no_progress (with_reducible apply Keeps.mk')
    | split

theorem keeps_servoPeriod (s : State) (k : Nat) {r0 : State} (hr : Keeps r0 s) : Keeps r0 (servoPeriod s k) := by
  refine Keeps.trans hr ?_
  clear hr
  unfold servoPeriod
  repeat' first
    | with_reducible apply Keeps.refl
    | intro _
    | with_reducible assumption
    | (fail_if_no_progress extract_lets +onlyGivenNames x
       first | (refine Keeps.hyp x ?_ (fun _ => ?_); subst x; rotate_left; clear_value x; rotate_left) | clear_value x)
    | with_reducible apply keeps_State_setDrivePort
    | with_reducible apply keeps_State_count
    | with_reducible apply keeps_driveLost
    | with_reducible apply keeps_portPeriod
    | with_reducible refine Keeps.ofPair (by assumption) ?_
    | with_reducible apply Keeps.ite
    | fail_if_no_progress (with_reducible apply Keeps.mk')
    | split

theorem keeps_driveUp (s : State) (k : Nat) (seen : Nat) (hops : List Nat) {r0 : State} (hr : Keeps r0 s) : Keeps r0 (driveUp s k seen hops) := by
  refine Keeps.trans hr ?_
  clear hr
  unfold driveUp
  repeat' first
    | with_reducible apply Keeps.refl
    | intro _
    | with_reducible assumption
    | (fail_if_no_progress extract_lets +onlyGivenNames x
       first | (refine Keeps.hyp x ?_ (fun _ => ?_); subst x; rotate_left; clear_value x; rotate_left) | clear_value x)
    | with_reducible apply keeps_State_wr
    | with_reducible apply keeps_State_setDrivePort
    | with_reducible refine Keeps.ofPair (by assumption) ?_
    | with_reducible apply Keeps.ite
    | fail_if_no_progress (with_reducible apply Keeps.mk')
    | split

theorem keeps_holdReduce (s : State) (n : Nat) {r0 : State} (hr : Keeps r0 s) : Keeps r0 (holdReduce s n) := by
  refine Keeps.trans hr ?_
  clear hr
  unfold holdReduce
  repeat' first
    | with_reducible apply Keeps.refl
    | intro _
    | with_reducible assumption
    | (fail_if_no_progress extract_lets +onlyGivenNames x
       first | (refine Keeps.hyp x ?_ (fun _ => ?_); subst x; rotate_left; clear_value x; rotate_left) | clear_value x)
    | with_reducible apply keeps_showAxis
    | with_reducible apply keeps_State_wr
    | with_reducible apply Keeps.ite

theorem keeps_latchOpen (s : State) (n : Nat) {r0 : State} (hr : Keeps r0 s) : Keeps r0 (latchOpen s n) := by
  refine Keeps.trans hr ?_
  clear hr
  unfold latchOpen
  repeat' first
    | with_reducible apply Keeps.refl
    | intro _
    | with_reducible assumption
    | (fail_if_no_progress extract_lets +onlyGivenNames x
       first | (refine Keeps.hyp x ?_ (fun _ => ?_); subst x; rotate_left; clear_value x; rotate_left) | clear_value x)
    | with_reducible apply keeps_State_setSwitch
    | with_reducible apply Keeps.ite

theorem keeps_fbFollow (s : State) (i : Nat) {r0 : State} (hr : Keeps r0 s) : Keeps r0 (fbFollow s i) := by
  refine Keeps.trans hr ?_
  clear hr
  unfold fbFollow
  repeat' first
    | with_reducible apply Keeps.refl
    | intro _
    | with_reducible assumption
    | (fail_if_no_progress extract_lets +onlyGivenNames x
       first | (refine Keeps.hyp x ?_ (fun _ => ?_); subst x; rotate_left; clear_value x; rotate_left) | clear_value x)
    | with_reducible apply keeps_emuFollow
    | with_reducible apply keeps_webMoved
    | with_reducible apply Keeps.ite

theorem keeps_fbUpdate (s : State) (i : Nat) (x : Int) (y : Int) {r0 : State} (hr : Keeps r0 s) : Keeps r0 (fbUpdate s i x y) := by
  refine Keeps.trans hr ?_
  clear hr
  unfold fbUpdate
  repeat' first
    | with_reducible apply Keeps.refl
    | intro _
    | with_reducible assumption
    | (fail_if_no_progress extract_lets +onlyGivenNames x
       first | (refine Keeps.hyp x ?_ (fun _ => ?_); subst x; rotate_left; clear_value x; rotate_left) | clear_value x)
    | with_reducible apply keeps_fbFollow
    | with_reducible apply keeps_quadSample
    | with_reducible apply keeps_sinCosSample
    | with_reducible refine Keeps.ofPair (by assumption) ?_
    | with_reducible apply Keeps.ite
    | fail_if_no_progress (with_reducible apply Keeps.mk')
    | split

theorem keeps_indexEdge (s : State) (i : Nat) {r0 : State} (hr : Keeps r0 s) : Keeps r0 (indexEdge s i) := by
  refine Keeps.trans hr ?_
  clear hr
  unfold indexEdge
  repeat' first
    | with_reducible apply Keeps.refl
    | intro _
    | with_reducible assumption
    | (fail_if_no_progress extract_lets +onlyGivenNames x
       first | (refine Keeps.hyp x ?_ (fun _ => ?_); subst x; rotate_left; clear_value x; rotate_left) | clear_value x)
    | with_reducible apply keeps_State_countMod
    | with_reducible apply keeps_State_wri
    | with_reducible apply keeps_State_capture
    | with_reducible apply keeps_State_setFb
    | with_reducible apply keeps_indexCheck
    | with_reducible apply Keeps.ite

theorem keeps_speedZero (s : State) (i : Nat) {r0 : State} (hr : Keeps r0 s) : Keeps r0 (speedZero s i) := by
  refine Keeps.trans hr ?_
  clear hr
  unfold speedZero
  repeat' first
    | with_reducible apply Keeps.refl
    | intro _
    | with_reducible assumption
    | (fail_if_no_progress extract_lets +onlyGivenNames x
       first | (refine Keeps.hyp x ?_ (fun _ => ?_); subst x; rotate_left; clear_value x; rotate_left) | clear_value x)
    | with_reducible apply keeps_State_wr
    | with_reducible apply keeps_State_setFb
    | with_reducible refine Keeps.ofPair (by assumption) ?_
    | with_reducible apply Keeps.ite

theorem keeps_hostMotion (s : State) (op : Nat) {r0 : State} (hr : Keeps r0 s) : Keeps r0 (hostMotion s op) := by
  refine Keeps.trans hr ?_
  clear hr
  unfold hostMotion
  repeat' first
    | with_reducible apply Keeps.refl
    | intro _
    | with_reducible apply keeps_motCommand
    | with_reducible apply Keeps.ite

theorem keeps_execMoveAbs (t : Nat) (s : State) {r0 : State} (hr : Keeps r0 s) : KeepsOut r0 (execMoveAbs t s) := by
  refine KeepsOut.trans hr ?_
  clear hr
  unfold execMoveAbs
  repeat' first
    | with_reducible apply Keeps.refl
    | intro _
    | with_reducible apply keeps_hostMotion
    | with_reducible apply keeps_State_at
    | with_reducible apply KeepsOut.next

theorem keeps_execMoveRel (t : Nat) (s : State) {r0 : State} (hr : Keeps r0 s) : KeepsOut r0 (execMoveRel t s) := by
  refine KeepsOut.trans hr ?_
  clear hr
  unfold execMoveRel
  repeat' first
    | with_reducible apply Keeps.refl
    | intro _
    | with_reducible apply keeps_hostMotion
    | with_reducible apply keeps_State_at
    | with_reducible apply KeepsOut.next

theorem keeps_execVelocity (t : Nat) (s : State) {r0 : State} (hr : Keeps r0 s) : KeepsOut r0 (execVelocity t s) := by
  refine KeepsOut.trans hr ?_
  clear hr
  unfold execVelocity
  repeat' first
    | with_reducible apply Keeps.refl
    | intro _
    | with_reducible apply keeps_hostMotion
    | with_reducible apply keeps_State_at
    | with_reducible apply KeepsOut.next

theorem keeps_execStop (t : Nat) (s : State) {r0 : State} (hr : Keeps r0 s) : KeepsOut r0 (execStop t s) := by
  refine KeepsOut.trans hr ?_
  clear hr
  unfold execStop
  repeat' first
    | with_reducible apply Keeps.refl
    | intro _
    | with_reducible apply keeps_hostMotion
    | with_reducible apply keeps_State_at
    | with_reducible apply KeepsOut.next

theorem keeps_execHome (t : Nat) (s : State) {r0 : State} (hr : Keeps r0 s) : KeepsOut r0 (execHome t s) := by
  refine KeepsOut.trans hr ?_
  clear hr
  unfold execHome
  repeat' first
    | with_reducible apply Keeps.refl
    | intro _
    | with_reducible apply keeps_hostMotion
    | with_reducible apply keeps_State_at
    | with_reducible apply KeepsOut.next

theorem keeps_execEnable (t : Nat) (s : State) {r0 : State} (hr : Keeps r0 s) : KeepsOut r0 (execEnable t s) := by
  refine KeepsOut.trans hr ?_
  clear hr
  unfold execEnable
  repeat' first
    | with_reducible apply Keeps.refl
    | intro _
    | with_reducible apply keeps_hostMotion
    | with_reducible apply keeps_State_at
    | with_reducible apply KeepsOut.next

theorem keeps_execDisable (t : Nat) (s : State) {r0 : State} (hr : Keeps r0 s) : KeepsOut r0 (execDisable t s) := by
  refine KeepsOut.trans hr ?_
  clear hr
  unfold execDisable
  repeat' first
    | with_reducible apply Keeps.refl
    | intro _
    | with_reducible apply keeps_hostMotion
    | with_reducible apply keeps_State_at
    | with_reducible apply KeepsOut.next

theorem keeps_execServoPeriod (t : Nat) (port : Nat) (s : State) {r0 : State} (hr : Keeps r0 s) : KeepsOut r0 (execServoPeriod t port s) := by
  refine KeepsOut.trans hr ?_
  clear hr
  unfold execServoPeriod
  repeat' first
    | with_reducible apply Keeps.refl
    | intro _
    | with_reducible apply keeps_State_lineEnd
    | with_reducible apply keeps_servoPeriod
    | with_reducible apply keeps_State_at
    | with_reducible apply KeepsOut.next

theorem keeps_execDriveLinkFrameReceive (t : Nat) (port : Nat) (chars : List Byte) (s : State) {r0 : State} (hr : Keeps r0 s) : KeepsOut r0 (execDriveLinkFrameReceive t port chars s) := by
  refine KeepsOut.trans hr ?_
  clear hr
  unfold execDriveLinkFrameReceive
  repeat' first
    | with_reducible apply Keeps.refl
    | intro _
    | with_reducible apply keeps_State_settle
    | with_reducible apply keeps_driveFrameBack
    | with_reducible apply keeps_State_at
    | with_reducible apply KeepsOut.next

theorem keeps_execHoldDelayExpiry (t : Nat) (axis : Nat) (s : State) {r0 : State} (hr : Keeps r0 s) : KeepsOut r0 (execHoldDelayExpiry t axis s) := by
  refine KeepsOut.trans hr ?_
  clear hr
  unfold execHoldDelayExpiry
  repeat' first
    | with_reducible apply Keeps.refl
    | intro _
    | with_reducible apply keeps_holdReduce
    | with_reducible apply keeps_State_at
    | with_reducible apply KeepsOut.next

theorem keeps_execSwitchQualify (t : Nat) (sw : Nat) (t0 : Nat) (level : Bool) (s : State) {r0 : State} (hr : Keeps r0 s) : KeepsOut r0 (execSwitchQualify t sw t0 level s) := by
  refine KeepsOut.trans hr ?_
  clear hr
  unfold execSwitchQualify
  repeat' first
    | with_reducible apply Keeps.refl
    | intro _
    | with_reducible apply keeps_switchQualify
    | with_reducible apply keeps_State_at
    | with_reducible apply KeepsOut.next

theorem keeps_execLatchHoldoffExpiry (t : Nat) (axis : Nat) (s : State) {r0 : State} (hr : Keeps r0 s) : KeepsOut r0 (execLatchHoldoffExpiry t axis s) := by
  refine KeepsOut.trans hr ?_
  clear hr
  unfold execLatchHoldoffExpiry
  repeat' first
    | with_reducible apply Keeps.refl
    | intro _
    | with_reducible apply keeps_latchOpen
    | with_reducible apply keeps_State_at
    | with_reducible apply KeepsOut.next

theorem keeps_execFeedbackPositionUpdate (t : Nat) (input : Nat) (x2 : Int) (y : Int) (s : State) {r0 : State} (hr : Keeps r0 s) : KeepsOut r0 (execFeedbackPositionUpdate t input x2 y s) := by
  refine KeepsOut.trans hr ?_
  clear hr
  unfold execFeedbackPositionUpdate
  repeat' first
    | with_reducible apply Keeps.refl
    | intro _
    | with_reducible apply keeps_State_lineEnd
    | with_reducible apply keeps_fbUpdate
    | with_reducible apply keeps_State_at
    | with_reducible apply KeepsOut.next

theorem keeps_execSsiReading (t : Nat) (input : Nat) (value : Nat) (idle : Bool) (s : State) {r0 : State} (hr : Keeps r0 s) : KeepsOut r0 (execSsiReading t input value idle s) := by
  refine KeepsOut.trans hr ?_
  clear hr
  unfold execSsiReading
  repeat' first
    | with_reducible apply Keeps.refl
    | intro _
    | with_reducible assumption
    | (fail_if_no_progress extract_lets +onlyGivenNames x
       first | (refine KeepsOut.hyp x ?_ (fun _ => ?_); subst x; rotate_left; clear_value x; rotate_left) | clear_value x)
    | (fail_if_no_progress extract_lets +onlyGivenNames x
       first | (refine Keeps.hyp x ?_ (fun _ => ?_); subst x; rotate_left; clear_value x; rotate_left) | clear_value x)
    | with_reducible apply keeps_State_at
    | with_reducible apply keeps_State_lineEnd
    | with_reducible apply keeps_fbFollow
    | with_reducible apply keeps_ssiReading
    | with_reducible apply KeepsOut.next
    | with_reducible apply KeepsOut.ite
    | with_reducible apply KeepsOut.onEngine
    | with_reducible apply Keeps.ite

theorem keeps_execIndexEdge (t : Nat) (input : Nat) (s : State) {r0 : State} (hr : Keeps r0 s) : KeepsOut r0 (execIndexEdge t input s) := by
  refine KeepsOut.trans hr ?_
  clear hr
  unfold execIndexEdge
  repeat' first
    | with_reducible apply Keeps.refl
    | intro _
    | with_reducible apply keeps_indexEdge
    | with_reducible apply keeps_State_at
    | with_reducible apply KeepsOut.next

theorem keeps_execSpeedZeroTimeout (t : Nat) (input : Nat) (s : State) {r0 : State} (hr : Keeps r0 s) : KeepsOut r0 (execSpeedZeroTimeout t input s) := by
  refine KeepsOut.trans hr ?_
  clear hr
  unfold execSpeedZeroTimeout
  repeat' first
    | with_reducible apply Keeps.refl
    | intro _
    | with_reducible apply keeps_State_settle
    | with_reducible apply keeps_speedZero
    | with_reducible apply keeps_State_at
    | with_reducible apply KeepsOut.next

theorem keeps_emuTriggers (s : State) (k : Nat) {r0 : State} (hr : Keeps r0 s) : Keeps r0 (emuTriggers s k) := by
  refine Keeps.trans hr ?_
  clear hr
  unfold emuTriggers
  repeat' first
    | with_reducible apply Keeps.refl
    | intro _
    | with_reducible assumption
    | (fail_if_no_progress extract_lets +onlyGivenNames x
       first | (refine Keeps.hyp x ?_ (fun _ => ?_); subst x; rotate_left; clear_value x; rotate_left) | clear_value x)
    | with_reducible apply keeps_emuEdge
    | with_reducible apply keeps_groupTrigger
    | with_reducible refine Keeps.ofPair (by assumption) ?_
    | with_reducible apply Keeps.foldl
    | with_reducible apply Keeps.foldlPair
    | with_reducible apply Keeps.ite
    | fail_if_no_progress (with_reducible apply Keeps.mk')
    | split

theorem keeps_execEmulatorEdge (t : Nat) (emu : Nat) (s : State) {r0 : State} (hr : Keeps r0 s) : KeepsOut r0 (execEmulatorEdge t emu s) := by
  refine KeepsOut.trans hr ?_
  clear hr
  unfold execEmulatorEdge
  repeat' first
    | with_reducible apply Keeps.refl
    | intro _
    | with_reducible assumption
    | with_reducible apply keeps_emuTriggers
    | with_reducible apply keeps_State_at
    | with_reducible apply KeepsOut.next
    | with_reducible apply KeepsOut.onEngine
    | with_reducible apply KeepsOut.ite
    | with_reducible refine Keeps.ofPair (by assumption) ?_
    | with_reducible apply Keeps.ite
    | fail_if_no_progress (with_reducible apply Keeps.mk')

end Sys2Proof.Laws
end

