-- ==== Sys2Proof/Laws/KeepTimeCmds.lean ====
section
/-! SUPPORT. `Keeps` of every operation of Machine/TimeCmds.lean. -/

namespace Sys2Proof.Laws

open Sys2Proof.Machine

set_option linter.unusedTactic false
set_option linter.unreachableTactic false
set_option linter.tactic.unusedName false

theorem keeps_setRate (s : State) (r : Int) {r0 : State} (hr : Keeps r0 s) : Keeps r0 (setRate s r) := by
  refine Keeps.trans hr ?_
  clear hr
  unfold setRate
  repeat' first
    | with_reducible apply Keeps.refl
    | intro _
    | with_reducible assumption
    | (fail_if_no_progress extract_lets +onlyGivenNames x
       first | (refine Keeps.hyp x ?_ (fun _ => ?_); subst x; rotate_left; clear_value x; rotate_left) | clear_value x)
    | with_reducible apply keeps_State_wri
    | fail_if_no_progress (with_reducible apply Keeps.mk')

theorem keeps_setLock (s : State) (n : Nat) {r0 : State} (hr : Keeps r0 s) : Keeps r0 (setLock s n) := by
  refine Keeps.trans hr ?_
  clear hr
  unfold setLock
  repeat' first
    | with_reducible apply Keeps.refl
    | intro _
    | with_reducible assumption
    | (fail_if_no_progress extract_lets +onlyGivenNames x
       first | (refine Keeps.hyp x ?_ (fun _ => ?_); subst x; rotate_left; clear_value x; rotate_left) | clear_value x)
    | with_reducible apply keeps_State_wr
    | with_reducible apply keeps_setRate
    | with_reducible apply keeps_State_wrb
    | with_reducible apply Keeps.ite
    | fail_if_no_progress (with_reducible apply Keeps.mk')

theorem keeps_stepTo (s : State) (now : Nat) {r0 : State} (hr : Keeps r0 s) : Keeps r0 (stepTo s now) := by
  refine Keeps.trans hr ?_
  clear hr
  unfold stepTo
  repeat' first
    | with_reducible apply Keeps.refl
    | intro _
    | with_reducible assumption
    | (fail_if_no_progress extract_lets +onlyGivenNames x
       first | (refine Keeps.hyp x ?_ (fun _ => ?_); subst x; rotate_left; clear_value x; rotate_left) | clear_value x)
    | with_reducible apply keeps_timeStep
    | fail_if_no_progress (with_reducible apply Keeps.mk')

theorem keeps_steer (s : State) (offset : Int) {r0 : State} (hr : Keeps r0 s) : Keeps r0 (steer s offset) := by
  refine Keeps.trans hr ?_
  clear hr
  unfold steer
  repeat' first
    | with_reducible apply Keeps.refl
    | intro _
    | with_reducible assumption
    | (fail_if_no_progress extract_lets +onlyGivenNames x
       first | (refine Keeps.hyp x ?_ (fun _ => ?_); subst x; rotate_left; clear_value x; rotate_left) | clear_value x)
    | with_reducible apply keeps_setRate
    | with_reducible apply keeps_State_spend

theorem keeps_showMaster (s : State) (gm : Nat) {r0 : State} (hr : Keeps r0 s) : Keeps r0 (showMaster s gm) := by
  refine Keeps.trans hr ?_
  clear hr
  unfold showMaster
  repeat' first
    | with_reducible apply Keeps.refl
    | intro _
    | with_reducible apply keeps_State_wr2

theorem keeps_setParent (s : State) (p : Option Nat) (gm : Nat) {r0 : State} (hr : Keeps r0 s) : Keeps r0 (setParent s p gm) := by
  refine Keeps.trans hr ?_
  clear hr
  unfold setParent
  repeat' first
    | with_reducible apply Keeps.refl
    | intro _
    | with_reducible assumption
    | (fail_if_no_progress extract_lets +onlyGivenNames x
       first | (refine Keeps.hyp x ?_ (fun _ => ?_); subst x; rotate_left; clear_value x; rotate_left) | clear_value x)
    | with_reducible apply keeps_State_wr
    | with_reducible apply keeps_showMaster
    | with_reducible apply keeps_setLock
    | with_reducible apply Keeps.ite
    | fail_if_no_progress (with_reducible apply Keeps.mk')

theorem keeps_winMaster (s : State) {r0 : State} (hr : Keeps r0 s) : Keeps r0 (winMaster s) := by
  refine Keeps.trans hr ?_
  clear hr
  unfold winMaster
  repeat' first
    | with_reducible apply Keeps.refl
    | intro _
    | with_reducible assumption
    | (fail_if_no_progress extract_lets +onlyGivenNames x
       first | (refine Keeps.hyp x ?_ (fun _ => ?_); subst x; rotate_left; clear_value x; rotate_left) | clear_value x)
    | with_reducible apply keeps_State_wr
    | with_reducible apply keeps_setLock
    | with_reducible apply keeps_showMaster
    | fail_if_no_progress (with_reducible apply Keeps.mk')

theorem keeps_chooseParent (s : State) (alone : Bool) {r0 : State} (hr : Keeps r0 s) : Keeps r0 (chooseParent s alone) := by
  refine Keeps.trans hr ?_
  clear hr
  unfold chooseParent
  repeat' first
    | with_reducible apply Keeps.refl
    | intro _
    | with_reducible assumption
    | (fail_if_no_progress extract_lets +onlyGivenNames x
       first | (refine Keeps.hyp x ?_ (fun _ => ?_); subst x; rotate_left; clear_value x; rotate_left) | clear_value x)
    | with_reducible apply keeps_winMaster
    | with_reducible apply keeps_setParent
    | with_reducible refine Keeps.ofPair (by assumption) ?_
    | with_reducible apply Keeps.ite
    | fail_if_no_progress (with_reducible apply Keeps.mk')
    | split

theorem keeps_announceGot (s : State) (k : Nat) (domain : Nat) (a : Announce) {r0 : State} (hr : Keeps r0 s) : Keeps r0 (announceGot s k domain a) := by
  refine Keeps.trans hr ?_
  clear hr
  unfold announceGot
  repeat' first
    | with_reducible apply Keeps.refl
    | intro _
    | with_reducible assumption
    | (fail_if_no_progress extract_lets +onlyGivenNames x
       first | (refine Keeps.hyp x ?_ (fun _ => ?_); subst x; rotate_left; clear_value x; rotate_left) | clear_value x)
    | with_reducible apply keeps_chooseParent
    | with_reducible refine Keeps.ofPair (by assumption) ?_
    | with_reducible apply Keeps.ite
    | fail_if_no_progress (with_reducible apply Keeps.mk')
    | split

theorem keeps_announceLost (s : State) {r0 : State} (hr : Keeps r0 s) : Keeps r0 (announceLost s) := by
  refine Keeps.trans hr ?_
  clear hr
  unfold announceLost
  repeat' first
    | with_reducible apply Keeps.refl
    | intro _
    | with_reducible assumption
    | (fail_if_no_progress extract_lets +onlyGivenNames x
       first | (refine Keeps.hyp x ?_ (fun _ => ?_); subst x; rotate_left; clear_value x; rotate_left) | clear_value x)
    | with_reducible apply keeps_chooseParent
    | with_reducible refine Keeps.ofPair (by assumption) ?_
    | with_reducible apply Keeps.ite
    | fail_if_no_progress (with_reducible apply Keeps.mk')
    | split

theorem keeps_servo (s : State) (offset : Int) {r0 : State} (hr : Keeps r0 s) : Keeps r0 (servo s offset) := by
  refine Keeps.trans hr ?_
  clear hr
  unfold servo
  repeat' first
    | with_reducible apply Keeps.refl
    | intro _
    | with_reducible assumption
    | (fail_if_no_progress extract_lets +onlyGivenNames x
       first | (refine Keeps.hyp x ?_ (fun _ => ?_); subst x; rotate_left; clear_value x; rotate_left) | clear_value x)
    | with_reducible apply keeps_stepTo
    | with_reducible apply keeps_steer
    | with_reducible apply keeps_setLock
    | with_reducible apply Keeps.ite
    | fail_if_no_progress (with_reducible apply Keeps.mk')

theorem keeps_syncGot (s : State) (k : Nat) (domain : Nat) (origin : Nat) (corr : Int) {r0 : State} (hr : Keeps r0 s) : Keeps r0 (syncGot s k domain origin corr) := by
  refine Keeps.trans hr ?_
  clear hr
  unfold syncGot
  repeat' first
    | with_reducible apply Keeps.refl
    | intro _
    | with_reducible assumption
    | (fail_if_no_progress extract_lets +onlyGivenNames x
       first | (refine Keeps.hyp x ?_ (fun _ => ?_); subst x; rotate_left; clear_value x; rotate_left) | clear_value x)
    | with_reducible apply keeps_servo
    | with_reducible apply keeps_State_wri
    | with_reducible refine Keeps.ofPair (by assumption) ?_
    | with_reducible apply Keeps.ite
    | fail_if_no_progress (with_reducible apply Keeps.mk')
    | split

theorem keeps_delayReq (s : State) {r0 : State} (hr : Keeps r0 s) : Keeps r0 (delayReq s) := by
  refine Keeps.trans hr ?_
  clear hr
  unfold delayReq
  repeat' first
    | with_reducible apply Keeps.refl
    | intro _
    | with_reducible assumption
    | (fail_if_no_progress extract_lets +onlyGivenNames x
       first | (refine Keeps.hyp x ?_ (fun _ => ?_); subst x; rotate_left; clear_value x; rotate_left) | clear_value x)
    | with_reducible apply keeps_State_emit
    | with_reducible refine Keeps.ofPair (by assumption) ?_
    | with_reducible apply Keeps.ite
    | fail_if_no_progress (with_reducible apply Keeps.mk')
    | split

theorem keeps_delayResp (s : State) (k : Nat) (q : Nat) (rx : Nat) (corr : Int) {r0 : State} (hr : Keeps r0 s) : Keeps r0 (delayResp s k q rx corr) := by
  refine Keeps.trans hr ?_
  clear hr
  unfold delayResp
  repeat' first
    | with_reducible apply Keeps.refl
    | intro _
    | with_reducible assumption
    | (fail_if_no_progress extract_lets +onlyGivenNames x
       first | (refine Keeps.hyp x ?_ (fun _ => ?_); subst x; rotate_left; clear_value x; rotate_left) | clear_value x)
    | with_reducible apply keeps_State_wr
    | with_reducible apply keeps_setLock
    | with_reducible refine Keeps.ofPair (by assumption) ?_
    | with_reducible apply Keeps.ite
    | fail_if_no_progress (with_reducible apply Keeps.mk')
    | split

theorem keeps_masterSend (s : State) (announce : Bool) {r0 : State} (hr : Keeps r0 s) : Keeps r0 (masterSend s announce) := by
  refine Keeps.trans hr ?_
  clear hr
  unfold masterSend
  repeat' first
    | with_reducible apply Keeps.refl
    | intro _
    | with_reducible assumption
    | (fail_if_no_progress extract_lets +onlyGivenNames x
       first | (refine Keeps.hyp x ?_ (fun _ => ?_); subst x; rotate_left; clear_value x; rotate_left) | clear_value x)
    | with_reducible apply keeps_State_emit
    | with_reducible refine Keeps.ofPair (by assumption) ?_
    | with_reducible apply Keeps.foldl
    | with_reducible apply Keeps.foldlPair
    | with_reducible apply Keeps.ite
    | fail_if_no_progress (with_reducible apply Keeps.mk')
    | split

theorem keeps_delayReqGot (s : State) (k : Nat) (q : Nat) (corr : Int) {r0 : State} (hr : Keeps r0 s) : Keeps r0 (delayReqGot s k q corr) := by
  refine Keeps.trans hr ?_
  clear hr
  unfold delayReqGot
  repeat' first
    | with_reducible apply Keeps.refl
    | intro _
    | with_reducible assumption
    | with_reducible apply keeps_State_emit
    | with_reducible refine Keeps.ofPair (by assumption) ?_
    | with_reducible apply Keeps.ite
    | fail_if_no_progress (with_reducible apply Keeps.mk')
    | split

theorem keeps_transparent (s : State) (came : Nat) (k : Nat) (kind : Nat) (q : Nat) (origin : Nat) (corr : Int) {r0 : State} (hr : Keeps r0 s) : Keeps r0 (transparent s came k kind q origin corr) := by
  refine Keeps.trans hr ?_
  clear hr
  unfold transparent
  repeat' first
    | with_reducible apply Keeps.refl
    | intro _
    | with_reducible assumption
    | (fail_if_no_progress extract_lets +onlyGivenNames x
       first | (refine Keeps.hyp x ?_ (fun _ => ?_); subst x; rotate_left; clear_value x; rotate_left) | clear_value x)
    | with_reducible apply keeps_State_emit
    | with_reducible apply Keeps.ite

theorem keeps_ptpRestart (s : State) (oldRole : Nat) (oldDomain : Nat) {r0 : State} (hr : Keeps r0 s) : Keeps r0 (ptpRestart s oldRole oldDomain) := by
  refine Keeps.trans hr ?_
  clear hr
  unfold ptpRestart
  repeat' first
    | with_reducible apply Keeps.refl
    | intro _
    | with_reducible assumption
    | (fail_if_no_progress extract_lets +onlyGivenNames x
       first | (refine Keeps.hyp x ?_ (fun _ => ?_); subst x; rotate_left; clear_value x; rotate_left) | clear_value x)
    | with_reducible apply keeps_State_wr
    | with_reducible apply keeps_setLock
    | with_reducible apply keeps_showMaster
    | with_reducible apply keeps_setParent
    | with_reducible refine Keeps.ofPair (by assumption) ?_
    | with_reducible apply Keeps.ite
    | fail_if_no_progress (with_reducible apply Keeps.mk')
    | split

theorem keeps_traceOver (s : State) {r0 : State} (hr : Keeps r0 s) : Keeps r0 (traceOver s) := by
  refine Keeps.trans hr ?_
  clear hr
  unfold traceOver
  repeat' first
    | with_reducible apply Keeps.refl
    | intro _
    | with_reducible apply keeps_State_wr
    | with_reducible apply Keeps.ite

theorem keeps_ppsOut (s : State) {r0 : State} (hr : Keeps r0 s) : Keeps r0 (ppsOut s) := by
  refine Keeps.trans hr ?_
  clear hr
  unfold ppsOut
  repeat' first
    | with_reducible apply Keeps.refl
    | intro _
    | with_reducible assumption
    | (fail_if_no_progress extract_lets +onlyGivenNames x
       first | (refine Keeps.hyp x ?_ (fun _ => ?_); subst x; rotate_left; clear_value x; rotate_left) | clear_value x)
    | with_reducible apply keeps_State_emit
    | with_reducible refine Keeps.ofPair (by assumption) ?_
    | with_reducible apply Keeps.ite
    | fail_if_no_progress (with_reducible apply Keeps.mk')
    | split

theorem keeps_ppsIn (s : State) {r0 : State} (hr : Keeps r0 s) : Keeps r0 (ppsIn s) := by
  refine Keeps.trans hr ?_
  clear hr
  unfold ppsIn
  repeat' first
    | with_reducible apply Keeps.refl
    | intro _
    | with_reducible assumption
    | (fail_if_no_progress extract_lets +onlyGivenNames x
       first | (refine Keeps.hyp x ?_ (fun _ => ?_); subst x; rotate_left; clear_value x; rotate_left) | clear_value x)
    | with_reducible apply keeps_State_capture
    | with_reducible apply keeps_stepTo
    | with_reducible apply keeps_State_wrb
    | with_reducible apply keeps_setLock
    | with_reducible apply keeps_steer
    | with_reducible refine Keeps.ofPair (by assumption) ?_
    | with_reducible apply Keeps.ite
    | fail_if_no_progress (with_reducible apply Keeps.mk')
    | split

theorem keeps_ppsOff (s : State) {r0 : State} (hr : Keeps r0 s) : Keeps r0 (ppsOff s) := by
  refine Keeps.trans hr ?_
  clear hr
  unfold ppsOff
  repeat' first
    | with_reducible apply Keeps.refl
    | intro _
    | with_reducible assumption
    | (fail_if_no_progress extract_lets +onlyGivenNames x
       first | (refine Keeps.hyp x ?_ (fun _ => ?_); subst x; rotate_left; clear_value x; rotate_left) | clear_value x)
    | with_reducible apply keeps_State_wr
    | with_reducible apply keeps_setLock
    | with_reducible refine Keeps.ofPair (by assumption) ?_
    | with_reducible apply Keeps.ite
    | fail_if_no_progress (with_reducible apply Keeps.mk')
    | split

theorem keeps_timeSet (s : State) (atPps : Bool) {r0 : State} (hr : Keeps r0 s) : Keeps r0 (timeSet s atPps) := by
  refine Keeps.trans hr ?_
  clear hr
  unfold timeSet
  repeat' first
    | with_reducible apply Keeps.refl
    | intro _
    | with_reducible assumption
    | (fail_if_no_progress extract_lets +onlyGivenNames x
       first | (refine Keeps.hyp x ?_ (fun _ => ?_); subst x; rotate_left; clear_value x; rotate_left) | clear_value x)
    | with_reducible apply keeps_stepTo
    | with_reducible apply Keeps.ite
    | fail_if_no_progress (with_reducible apply Keeps.mk')

theorem keeps_fireTrigger (s : State) (k : Nat) {r0 : State} (hr : Keeps r0 s) : Keeps r0 (fireTrigger s k) := by
  refine Keeps.trans hr ?_
  clear hr
  unfold fireTrigger
  repeat' first
    | with_reducible apply Keeps.refl
    | intro _
    | with_reducible assumption
    | (fail_if_no_progress extract_lets +onlyGivenNames x
       first | (refine Keeps.hyp x ?_ (fun _ => ?_); subst x; rotate_left; clear_value x; rotate_left) | clear_value x)
    | with_reducible apply keeps_trigFire
    | with_reducible apply keeps_groupWrite
    | with_reducible refine Keeps.ofPair (by assumption) ?_
    | with_reducible apply Keeps.ite
    | fail_if_no_progress (with_reducible apply Keeps.mk')
    | split

theorem keeps_powerWrite (s : State) (n : Nat) {r0 : State} (hr : Keeps r0 s) : Keeps r0 (powerWrite s n) := by
  refine Keeps.trans hr ?_
  clear hr
  unfold powerWrite
  repeat' first
    | with_reducible apply Keeps.refl
    | intro _
    | with_reducible assumption
    | (fail_if_no_progress extract_lets +onlyGivenNames x
       first | (refine Keeps.hyp x ?_ (fun _ => ?_); subst x; rotate_left; clear_value x; rotate_left) | clear_value x)
    | with_reducible apply keeps_State_wr
    | with_reducible apply keeps_powerStart
    | with_reducible apply Keeps.ite

theorem keeps_fixNode (s : State) (n : Nat) {r0 : State} (hr : Keeps r0 s) : Keeps r0 (fixNode s n) := by
  refine Keeps.trans hr ?_
  clear hr
  unfold fixNode
  repeat' first
    | with_reducible apply Keeps.refl
    | intro _
    | with_reducible assumption
    | with_reducible apply keeps_State_wr
    | with_reducible refine Keeps.ofPair (by assumption) ?_
    | with_reducible apply Keeps.ite
    | fail_if_no_progress (with_reducible apply Keeps.mk')

theorem keeps_neighborSend (s : State) (k : Nat) {r0 : State} (hr : Keeps r0 s) : Keeps r0 (neighborSend s k) := by
  refine Keeps.trans hr ?_
  clear hr
  unfold neighborSend
  repeat' first
    | with_reducible apply Keeps.refl
    | intro _
    | with_reducible assumption
    | (fail_if_no_progress extract_lets +onlyGivenNames x
       first | (refine Keeps.hyp x ?_ (fun _ => ?_); subst x; rotate_left; clear_value x; rotate_left) | clear_value x)
    | with_reducible apply keeps_linkSend
    | with_reducible refine Keeps.ofPair (by assumption) ?_
    | with_reducible apply Keeps.ite
    | fail_if_no_progress (with_reducible apply Keeps.mk')

theorem keeps_neighborGot (s : State) (k : Nat) (node : Nat) (learned : Bool) {r0 : State} (hr : Keeps r0 s) : Keeps r0 (neighborGot s k node learned) := by
  refine Keeps.trans hr ?_
  clear hr
  unfold neighborGot
  repeat' first
    | with_reducible apply Keeps.refl
    | intro _
    | with_reducible assumption
    | (fail_if_no_progress extract_lets +onlyGivenNames x
       first | (refine Keeps.hyp x ?_ (fun _ => ?_); subst x; rotate_left; clear_value x; rotate_left) | clear_value x)
    | with_reducible apply keeps_State_wr
    | with_reducible apply keeps_fixNode
    | with_reducible apply Keeps.ite
    | fail_if_no_progress (with_reducible apply Keeps.mk')

theorem keeps_neighborMiss (s : State) (k : Nat) {r0 : State} (hr : Keeps r0 s) : Keeps r0 (neighborMiss s k) := by
  refine Keeps.trans hr ?_
  clear hr
  unfold neighborMiss
  repeat' first
    | with_reducible apply Keeps.refl
    | intro _
    | with_reducible assumption
    | (fail_if_no_progress extract_lets +onlyGivenNames x
       first | (refine Keeps.hyp x ?_ (fun _ => ?_); subst x; rotate_left; clear_value x; rotate_left) | clear_value x)
    | with_reducible apply keeps_State_event
    | with_reducible apply Keeps.ite
    | fail_if_no_progress (with_reducible apply Keeps.mk')

theorem keeps_learnTimeout (s : State) {r0 : State} (hr : Keeps r0 s) : Keeps r0 (learnTimeout s) := by
  refine Keeps.trans hr ?_
  clear hr
  unfold learnTimeout
  repeat' first
    | with_reducible apply Keeps.refl
    | intro _
    | with_reducible assumption
    | (fail_if_no_progress extract_lets +onlyGivenNames x
       first | (refine Keeps.hyp x ?_ (fun _ => ?_); subst x; rotate_left; clear_value x; rotate_left) | clear_value x)
    | with_reducible apply keeps_fixNode
    | with_reducible apply Keeps.foldl
    | with_reducible apply Keeps.foldlPair
    | with_reducible apply Keeps.ite

theorem keeps_ringLinkUp (s : State) (k : Nat) {r0 : State} (hr : Keeps r0 s) : Keeps r0 (ringLinkUp s k) := by
  refine Keeps.trans hr ?_
  clear hr
  unfold ringLinkUp
  repeat' first
    | with_reducible apply Keeps.refl
    | intro _
    | with_reducible assumption
    | (fail_if_no_progress extract_lets +onlyGivenNames x
       first | (refine Keeps.hyp x ?_ (fun _ => ?_); subst x; rotate_left; clear_value x; rotate_left) | clear_value x)
    | with_reducible apply keeps_State_wrb
    | with_reducible apply keeps_State_wr
    | with_reducible apply Keeps.ite
    | fail_if_no_progress (with_reducible apply Keeps.mk')

theorem keeps_ringLinkLoss (s : State) (k : Nat) {r0 : State} (hr : Keeps r0 s) : Keeps r0 (ringLinkLoss s k) := by
  refine Keeps.trans hr ?_
  clear hr
  unfold ringLinkLoss
  repeat' first
    | with_reducible apply Keeps.refl
    | intro _
    | with_reducible assumption
    | (fail_if_no_progress extract_lets +onlyGivenNames x
       first | (refine Keeps.hyp x ?_ (fun _ => ?_); subst x; rotate_left; clear_value x; rotate_left) | clear_value x)
    | with_reducible apply keeps_State_wr
    | with_reducible apply keeps_State_event
    | with_reducible apply Keeps.ite
    | fail_if_no_progress (with_reducible apply Keeps.mk')

theorem keeps_latchNow (s : State) (r : Nat) {r0 : State} (hr : Keeps r0 s) : Keeps r0 (latchNow s r) := by
  refine Keeps.trans hr ?_
  clear hr
  unfold latchNow
  repeat' first
    | with_reducible apply Keeps.refl
    | intro _
    | with_reducible assumption
    | (fail_if_no_progress extract_lets +onlyGivenNames x
       first | (refine Keeps.hyp x ?_ (fun _ => ?_); subst x; rotate_left; clear_value x; rotate_left) | clear_value x)
    | fail_if_no_progress (with_reducible apply Keeps.mk')

theorem keeps_latchCap (s : State) (r : Nat) {r0 : State} (hr : Keeps r0 s) : Keeps r0 (latchCap s r) := by
  refine Keeps.trans hr ?_
  clear hr
  unfold latchCap
  repeat' first
    | with_reducible apply Keeps.refl
    | intro _
    | with_reducible assumption
    | (fail_if_no_progress extract_lets +onlyGivenNames x
       first | (refine Keeps.hyp x ?_ (fun _ => ?_); subst x; rotate_left; clear_value x; rotate_left) | clear_value x)
    | fail_if_no_progress (with_reducible apply Keeps.mk')

theorem keeps_execPowerReqWrite (t : Nat) (req : Nat) (s : State) {r0 : State} (hr : Keeps r0 s) : KeepsOut r0 (execPowerReqWrite t req s) := by
  refine KeepsOut.trans hr ?_
  clear hr
  unfold execPowerReqWrite
  repeat' first
    | with_reducible apply Keeps.refl
    | intro _
    | with_reducible apply keeps_powerWrite
    | with_reducible apply keeps_State_at
    | with_reducible apply KeepsOut.next

theorem keeps_execPowerStateReached (t : Nat) (s : State) {r0 : State} (hr : Keeps r0 s) : KeepsOut r0 (execPowerStateReached t s) := by
  refine KeepsOut.trans hr ?_
  clear hr
  unfold execPowerStateReached
  repeat' first
    | with_reducible apply Keeps.refl
    | intro _
    | with_reducible apply keeps_State_lineEnd
    | with_reducible apply keeps_powerReached
    | with_reducible apply keeps_State_at
    | with_reducible apply KeepsOut.next

theorem keeps_execEpochSchedule (t : Nat) (target : Nat) (system : Bool) (s : State) {r0 : State} (hr : Keeps r0 s) : KeepsOut r0 (execEpochSchedule t target system s) := by
  refine KeepsOut.trans hr ?_
  clear hr
  unfold execEpochSchedule
  repeat' first
    | with_reducible apply Keeps.refl
    | intro _
    | with_reducible assumption
    | (fail_if_no_progress extract_lets +onlyGivenNames x
       first | (refine KeepsOut.hyp x ?_ (fun _ => ?_); subst x; rotate_left; clear_value x; rotate_left) | clear_value x)
    | (fail_if_no_progress extract_lets +onlyGivenNames x
       first | (refine Keeps.hyp x ?_ (fun _ => ?_); subst x; rotate_left; clear_value x; rotate_left) | clear_value x)
    | with_reducible apply keeps_State_at
    | with_reducible apply keeps_epochSchedule
    | with_reducible apply KeepsOut.next
    | with_reducible apply KeepsOut.ite
    | with_reducible apply KeepsOut.onEngine
    | with_reducible apply Keeps.ite

theorem keeps_execEpochCancel (t : Nat) (s : State) {r0 : State} (hr : Keeps r0 s) : KeepsOut r0 (execEpochCancel t s) := by
  refine KeepsOut.trans hr ?_
  clear hr
  unfold execEpochCancel
  repeat' first
    | with_reducible apply Keeps.refl
    | intro _
    | with_reducible assumption
    | (fail_if_no_progress extract_lets +onlyGivenNames x
       first | (refine KeepsOut.hyp x ?_ (fun _ => ?_); subst x; rotate_left; clear_value x; rotate_left) | clear_value x)
    | (fail_if_no_progress extract_lets +onlyGivenNames x
       first | (refine Keeps.hyp x ?_ (fun _ => ?_); subst x; rotate_left; clear_value x; rotate_left) | clear_value x)
    | with_reducible apply keeps_State_at
    | with_reducible apply keeps_epochCancel
    | with_reducible apply KeepsOut.next
    | with_reducible apply KeepsOut.ite
    | with_reducible apply KeepsOut.onEngine
    | with_reducible apply Keeps.ite

theorem keeps_execEpochInstant (t : Nat) (s : State) {r0 : State} (hr : Keeps r0 s) : KeepsOut r0 (execEpochInstant t s) := by
  refine KeepsOut.trans hr ?_
  clear hr
  unfold execEpochInstant
  repeat' first
    | with_reducible apply Keeps.refl
    | intro _
    | with_reducible apply keeps_State_lineEnd
    | with_reducible apply keeps_epochDue
    | with_reducible apply keeps_trigFire
    | with_reducible apply keeps_State_at
    | with_reducible apply KeepsOut.next

theorem keeps_execEpochTimeout (t : Nat) (s : State) {r0 : State} (hr : Keeps r0 s) : KeepsOut r0 (execEpochTimeout t s) := by
  refine KeepsOut.trans hr ?_
  clear hr
  unfold execEpochTimeout
  repeat' first
    | with_reducible apply Keeps.refl
    | intro _
    | with_reducible apply keeps_epochExpire
    | with_reducible apply keeps_State_at
    | with_reducible apply KeepsOut.next

theorem keeps_execRollbackEpoch (t : Nat) (s : State) {r0 : State} (hr : Keeps r0 s) : KeepsOut r0 (execRollbackEpoch t s) := by
  refine KeepsOut.trans hr ?_
  clear hr
  unfold execRollbackEpoch
  repeat' first
    | with_reducible apply Keeps.refl
    | intro _
    | with_reducible apply keeps_State_lineEnd
    | with_reducible apply keeps_rollbackDue
    | with_reducible apply keeps_trigFire
    | with_reducible apply keeps_State_at
    | with_reducible apply KeepsOut.next

theorem keeps_execTimeNowLatch (t : Nat) (reader : Nat) (s : State) {r0 : State} (hr : Keeps r0 s) : KeepsOut r0 (execTimeNowLatch t reader s) := by
  refine KeepsOut.trans hr ?_
  clear hr
  unfold execTimeNowLatch
  repeat' first
    | with_reducible apply Keeps.refl
    | intro _
    | with_reducible assumption
    | (fail_if_no_progress extract_lets +onlyGivenNames x
       first | (refine KeepsOut.hyp x ?_ (fun _ => ?_); subst x; rotate_left; clear_value x; rotate_left) | clear_value x)
    | (fail_if_no_progress extract_lets +onlyGivenNames x
       first | (refine Keeps.hyp x ?_ (fun _ => ?_); subst x; rotate_left; clear_value x; rotate_left) | clear_value x)
    | with_reducible apply keeps_latchNow
    | with_reducible apply keeps_State_at
    | with_reducible apply keeps_State_emit
    | with_reducible apply KeepsOut.next

theorem keeps_execTimeCapLatch (t : Nat) (reader : Nat) (s : State) {r0 : State} (hr : Keeps r0 s) : KeepsOut r0 (execTimeCapLatch t reader s) := by
  refine KeepsOut.trans hr ?_
  clear hr
  unfold execTimeCapLatch
  repeat' first
    | with_reducible apply Keeps.refl
    | intro _
    | with_reducible assumption
    | (fail_if_no_progress extract_lets +onlyGivenNames x
       first | (refine KeepsOut.hyp x ?_ (fun _ => ?_); subst x; rotate_left; clear_value x; rotate_left) | clear_value x)
    | (fail_if_no_progress extract_lets +onlyGivenNames x
       first | (refine Keeps.hyp x ?_ (fun _ => ?_); subst x; rotate_left; clear_value x; rotate_left) | clear_value x)
    | with_reducible apply keeps_latchCap
    | with_reducible apply keeps_State_at
    | with_reducible apply keeps_State_emit
    | with_reducible apply KeepsOut.next

theorem keeps_execPtpAnnounceReceive (t : Nat) (port : Nat) (domain : Nat) (prio1 : Nat) (cls : Nat) (acc : Nat) (variance : Nat) (prio2 : Nat) (gm : Nat) (steps : Nat) (s : State) {r0 : State} (hr : Keeps r0 s) : KeepsOut r0 (execPtpAnnounceReceive t port domain prio1 cls acc variance prio2 gm steps s) := by
  refine KeepsOut.trans hr ?_
  clear hr
  unfold execPtpAnnounceReceive
  repeat' first
    | with_reducible apply Keeps.refl
    | intro _
    | with_reducible assumption
    | (fail_if_no_progress extract_lets +onlyGivenNames x
       first | (refine KeepsOut.hyp x ?_ (fun _ => ?_); subst x; rotate_left; clear_value x; rotate_left) | clear_value x)
    | with_reducible apply keeps_State_at
    | with_reducible apply keeps_announceGot
    | with_reducible apply KeepsOut.next
    | with_reducible apply KeepsOut.onEngine
    | with_reducible apply KeepsOut.ite
    | with_reducible refine Keeps.ofPair (by assumption) ?_
    | with_reducible apply Keeps.ite
    | fail_if_no_progress (with_reducible apply Keeps.mk')

theorem keeps_execPtpSyncReceive (t : Nat) (port : Nat) (domain : Nat) (origin : Nat) (corr : Int) (s : State) {r0 : State} (hr : Keeps r0 s) : KeepsOut r0 (execPtpSyncReceive t port domain origin corr s) := by
  refine KeepsOut.trans hr ?_
  clear hr
  unfold execPtpSyncReceive
  repeat' first
    | with_reducible apply Keeps.refl
    | intro _
    | with_reducible apply keeps_syncGot
    | with_reducible apply keeps_State_at
    | with_reducible apply KeepsOut.next

theorem keeps_execPtpDelayRespReceive (t : Nat) (port : Nat) (seq : Nat) (rx : Nat) (corr : Int) (s : State) {r0 : State} (hr : Keeps r0 s) : KeepsOut r0 (execPtpDelayRespReceive t port seq rx corr s) := by
  refine KeepsOut.trans hr ?_
  clear hr
  unfold execPtpDelayRespReceive
  repeat' first
    | with_reducible apply Keeps.refl
    | intro _
    | with_reducible assumption
    | with_reducible apply keeps_delayResp
    | with_reducible apply keeps_State_at
    | with_reducible apply KeepsOut.next
    | with_reducible apply KeepsOut.onEngine
    | with_reducible apply KeepsOut.ite
    | with_reducible refine Keeps.ofPair (by assumption) ?_
    | with_reducible apply Keeps.ite
    | fail_if_no_progress (with_reducible apply Keeps.mk')

theorem keeps_execPtpDelayReqSend (t : Nat) (s : State) {r0 : State} (hr : Keeps r0 s) : KeepsOut r0 (execPtpDelayReqSend t s) := by
  refine KeepsOut.trans hr ?_
  clear hr
  unfold execPtpDelayReqSend
  repeat' first
    | with_reducible apply Keeps.refl
    | intro _
    | with_reducible apply keeps_delayReq
    | with_reducible apply keeps_State_at
    | with_reducible apply KeepsOut.next

theorem keeps_execPtpMasterSend (t : Nat) (kind : Nat) (s : State) {r0 : State} (hr : Keeps r0 s) : KeepsOut r0 (execPtpMasterSend t kind s) := by
  refine KeepsOut.trans hr ?_
  clear hr
  unfold execPtpMasterSend
  repeat' first
    | with_reducible apply Keeps.refl
    | intro _
    | with_reducible apply keeps_masterSend
    | with_reducible apply keeps_State_at
    | with_reducible apply KeepsOut.next

theorem keeps_execPtpTransparentForward (t : Nat) (te : Nat) (port : Nat) (kind : Nat) (seq : Nat) (origin : Nat) (corr : Int) (s : State) {r0 : State} (hr : Keeps r0 s) : KeepsOut r0 (execPtpTransparentForward t te port kind seq origin corr s) := by
  refine KeepsOut.trans hr ?_
  clear hr
  unfold execPtpTransparentForward
  repeat' first
    | with_reducible apply Keeps.refl
    | intro _
    | with_reducible assumption
    | (fail_if_no_progress extract_lets +onlyGivenNames x
       first | (refine KeepsOut.hyp x ?_ (fun _ => ?_); subst x; rotate_left; clear_value x; rotate_left) | clear_value x)
    | (fail_if_no_progress extract_lets +onlyGivenNames x
       first | (refine Keeps.hyp x ?_ (fun _ => ?_); subst x; rotate_left; clear_value x; rotate_left) | clear_value x)
    | with_reducible apply keeps_State_at
    | with_reducible apply keeps_transparent
    | with_reducible apply KeepsOut.next

theorem keeps_execPtpDelayReqReceive (t : Nat) (port : Nat) (seq : Nat) (corr : Int) (s : State) {r0 : State} (hr : Keeps r0 s) : KeepsOut r0 (execPtpDelayReqReceive t port seq corr s) := by
  refine KeepsOut.trans hr ?_
  clear hr
  unfold execPtpDelayReqReceive
  repeat' first
    | with_reducible apply Keeps.refl
    | intro _
    | with_reducible assumption
    | with_reducible apply keeps_delayReqGot
    | with_reducible apply keeps_State_at
    | with_reducible apply KeepsOut.next
    | with_reducible apply KeepsOut.onEngine
    | with_reducible apply KeepsOut.ite
    | with_reducible refine Keeps.ofPair (by assumption) ?_
    | with_reducible apply Keeps.ite
    | fail_if_no_progress (with_reducible apply Keeps.mk')

theorem keeps_execAnnounceTimeout (t : Nat) (s : State) {r0 : State} (hr : Keeps r0 s) : KeepsOut r0 (execAnnounceTimeout t s) := by
  refine KeepsOut.trans hr ?_
  clear hr
  unfold execAnnounceTimeout
  repeat' first
    | with_reducible apply Keeps.refl
    | intro _
    | with_reducible apply keeps_announceLost
    | with_reducible apply keeps_State_at
    | with_reducible apply KeepsOut.next

theorem keeps_execTraceHoldExpiry (t : Nat) (s : State) {r0 : State} (hr : Keeps r0 s) : KeepsOut r0 (execTraceHoldExpiry t s) := by
  refine KeepsOut.trans hr ?_
  clear hr
  unfold execTraceHoldExpiry
  repeat' first
    | with_reducible apply Keeps.refl
    | intro _
    | with_reducible apply keeps_traceOver
    | with_reducible apply keeps_State_at
    | with_reducible apply KeepsOut.next

theorem keeps_execPpsOutEdge (t : Nat) (s : State) {r0 : State} (hr : Keeps r0 s) : KeepsOut r0 (execPpsOutEdge t s) := by
  refine KeepsOut.trans hr ?_
  clear hr
  unfold execPpsOutEdge
  repeat' first
    | with_reducible apply Keeps.refl
    | intro _
    | with_reducible apply keeps_ppsOut
    | with_reducible apply keeps_State_at
    | with_reducible apply KeepsOut.next

theorem keeps_execPpsInEdge (t : Nat) (s : State) {r0 : State} (hr : Keeps r0 s) : KeepsOut r0 (execPpsInEdge t s) := by
  refine KeepsOut.trans hr ?_
  clear hr
  unfold execPpsInEdge
  repeat' first
    | with_reducible apply Keeps.refl
    | intro _
    | with_reducible apply keeps_ppsIn
    | with_reducible apply keeps_State_at
    | with_reducible apply KeepsOut.next

theorem keeps_execTimeSet (t : Nat) (s : State) {r0 : State} (hr : Keeps r0 s) : KeepsOut r0 (execTimeSet t s) := by
  refine KeepsOut.trans hr ?_
  clear hr
  unfold execTimeSet
  repeat' first
    | with_reducible apply Keeps.refl
    | intro _
    | with_reducible apply keeps_timeSet
    | with_reducible apply keeps_State_at
    | with_reducible apply KeepsOut.next

theorem keeps_execTimeSetAtPps (t : Nat) (s : State) {r0 : State} (hr : Keeps r0 s) : KeepsOut r0 (execTimeSetAtPps t s) := by
  refine KeepsOut.trans hr ?_
  clear hr
  unfold execTimeSetAtPps
  repeat' first
    | with_reducible apply Keeps.refl
    | intro _
    | with_reducible apply keeps_timeSet
    | with_reducible apply keeps_State_at
    | with_reducible apply KeepsOut.next

theorem keeps_execTimeTriggerFire (t : Nat) (trig : Nat) (s : State) {r0 : State} (hr : Keeps r0 s) : KeepsOut r0 (execTimeTriggerFire t trig s) := by
  refine KeepsOut.trans hr ?_
  clear hr
  unfold execTimeTriggerFire
  repeat' first
    | with_reducible apply Keeps.refl
    | intro _
    | with_reducible apply keeps_fireTrigger
    | with_reducible apply keeps_State_at
    | with_reducible apply KeepsOut.next

theorem keeps_execNeighborSend (t : Nat) (port : Nat) (s : State) {r0 : State} (hr : Keeps r0 s) : KeepsOut r0 (execNeighborSend t port s) := by
  refine KeepsOut.trans hr ?_
  clear hr
  unfold execNeighborSend
  repeat' first
    | with_reducible apply Keeps.refl
    | intro _
    | with_reducible apply keeps_neighborSend
    | with_reducible apply keeps_State_at
    | with_reducible apply KeepsOut.next

theorem keeps_execNeighborReceive (t : Nat) (port : Nat) (node : Nat) (learned : Bool) (s : State) {r0 : State} (hr : Keeps r0 s) : KeepsOut r0 (execNeighborReceive t port node learned s) := by
  refine KeepsOut.trans hr ?_
  clear hr
  unfold execNeighborReceive
  repeat' first
    | with_reducible apply Keeps.refl
    | intro _
    | with_reducible apply keeps_neighborGot
    | with_reducible apply keeps_State_at
    | with_reducible apply KeepsOut.next

theorem keeps_execNeighborMiss (t : Nat) (port : Nat) (s : State) {r0 : State} (hr : Keeps r0 s) : KeepsOut r0 (execNeighborMiss t port s) := by
  refine KeepsOut.trans hr ?_
  clear hr
  unfold execNeighborMiss
  repeat' first
    | with_reducible apply Keeps.refl
    | intro _
    | with_reducible apply keeps_neighborMiss
    | with_reducible apply keeps_State_at
    | with_reducible apply KeepsOut.next

theorem keeps_execNodeLearnTimeout (t : Nat) (s : State) {r0 : State} (hr : Keeps r0 s) : KeepsOut r0 (execNodeLearnTimeout t s) := by
  refine KeepsOut.trans hr ?_
  clear hr
  unfold execNodeLearnTimeout
  repeat' first
    | with_reducible apply Keeps.refl
    | intro _
    | with_reducible apply keeps_learnTimeout
    | with_reducible apply keeps_State_at
    | with_reducible apply KeepsOut.next

theorem keeps_execRingLinkUp (t : Nat) (port : Nat) (s : State) {r0 : State} (hr : Keeps r0 s) : KeepsOut r0 (execRingLinkUp t port s) := by
  refine KeepsOut.trans hr ?_
  clear hr
  unfold execRingLinkUp
  repeat' first
    | with_reducible apply Keeps.refl
    | intro _
    | with_reducible apply keeps_ringLinkUp
    | with_reducible apply keeps_State_at
    | with_reducible apply KeepsOut.next

theorem keeps_execRingLinkLoss (t : Nat) (port : Nat) (s : State) {r0 : State} (hr : Keeps r0 s) : KeepsOut r0 (execRingLinkLoss t port s) := by
  refine KeepsOut.trans hr ?_
  clear hr
  unfold execRingLinkLoss
  repeat' first
    | with_reducible apply Keeps.refl
    | intro _
    | with_reducible apply keeps_ringLinkLoss
    | with_reducible apply keeps_State_at
    | with_reducible apply KeepsOut.next

end Sys2Proof.Laws
end

