-- ==== Sys2Proof/Laws/KeepCalLoops.lean ====
section
/-! SUPPORT. `Keeps` of every operation of Machine/CalLoops.lean. -/

namespace Sys2Proof.Laws

open Sys2Proof.Machine

set_option linter.unusedTactic false
set_option linter.unreachableTactic false
set_option linter.tactic.unusedName false

theorem keeps_loopRecord (s : State) (cls : Nat) (p : Nat) (c : Option Nat) (noz : Option Nat) (acted : Bool) {r0 : State} (hr : Keeps r0 s) : Keeps r0 (loopRecord s cls p c noz acted) := by
  refine Keeps.trans hr ?_
  clear hr
  unfold loopRecord
  repeat' first
    | with_reducible apply Keeps.refl
    | intro _
    | with_reducible assumption
    | with_reducible apply keeps_accession
    | with_reducible refine Keeps.ofPair (by assumption) ?_
    | with_reducible apply Keeps.ite
    | fail_if_no_progress (with_reducible apply Keeps.mk')
    | split

theorem keeps_setHealth (s : State) (p : Nat) (i : Nat) (c : Nat) (w : Nat) {r0 : State} (hr : Keeps r0 s) : Keeps r0 (setHealth s p i c w) := by
  refine Keeps.trans hr ?_
  clear hr
  unfold setHealth
  repeat' first
    | with_reducible apply Keeps.refl
    | intro _
    | with_reducible apply keeps_State_pokeNat

theorem keeps_healthRow (s : State) (p : Nat) (i : Nat) {r0 : State} (hr : Keeps r0 s) : Keeps r0 (healthRow s p i).1 := by
  refine Keeps.trans hr ?_
  clear hr
  unfold healthRow
  repeat' first
    | with_reducible apply Keeps.refl
    | intro _
    | with_reducible assumption
    | (fail_if_no_progress extract_lets +onlyGivenNames x
       first | (refine Keeps.hyp x ?_ (fun _ => ?_); subst x; rotate_left; clear_value x; rotate_left) | clear_value x)
    | with_reducible apply keeps_setHealth
    | with_reducible apply Keeps.foldl
    | with_reducible apply Keeps.foldlPair
    | with_reducible refine Keeps.ofPair (by assumption) ?_
    | with_reducible apply Keeps.ite1
    | with_reducible apply Keeps.ite
    | fail_if_no_progress (with_reducible apply Keeps.mk')

theorem keeps_trySpares (s : State) (p i c line : Nat) (l : List Nat) {r0 : State} (hr : Keeps r0 s) : Keeps r0 (trySpares s p i c line l).1 := by
  induction l generalizing s with
  | nil => exact hr
  | cons x l ih =>
    unfold trySpares
    refine Keeps.ite1 ?_ (ih _ hr)
    have hu := keeps_substSet s (nozzleOf (planeRow s p i) c) (nozzleOf (planeRow s p ((rowsOf s p 2).getD x 0)) c) line hr
    exact Keeps.ite1 hu (Keeps.ite1 hu (ih _ hu))

theorem keeps_noSpareFor (s : State) (p : Nat) (i : Nat) (c : Nat) {r0 : State} (hr : Keeps r0 s) : Keeps r0 (noSpareFor s p i c) := by
  refine Keeps.trans hr ?_
  clear hr
  unfold noSpareFor
  repeat' first
    | with_reducible apply Keeps.refl
    | intro _
    | with_reducible assumption
    | (fail_if_no_progress extract_lets +onlyGivenNames x
       first | (refine Keeps.hyp x ?_ (fun _ => ?_); subst x; rotate_left; clear_value x; rotate_left) | clear_value x)
    | with_reducible apply keeps_setHealth
    | with_reducible apply keeps_loopRecord
    | with_reducible apply keeps_State_count
    | with_reducible apply keeps_State_event
    | with_reducible refine Keeps.ofPair (by assumption) ?_
    | with_reducible apply Keeps.ite
    | fail_if_no_progress (with_reducible apply Keeps.mk')

theorem keeps_retireNozzle (s : State) (p : Nat) (i : Nat) (c : Nat) {r0 : State} (hr : Keeps r0 s) : Keeps r0 (retireNozzle s p i c).1 := by
  refine Keeps.trans hr ?_
  clear hr
  unfold retireNozzle
  repeat' first
    | with_reducible apply Keeps.refl
    | intro _
    | with_reducible assumption
    | (fail_if_no_progress extract_lets +onlyGivenNames x
       first | (refine Keeps.hyp x ?_ (fun _ => ?_); subst x; rotate_left; clear_value x; rotate_left) | clear_value x)
    | with_reducible apply keeps_trySpares
    | with_reducible apply keeps_setHealth
    | with_reducible apply keeps_loopRecord
    | with_reducible apply keeps_noSpareFor
    | with_reducible refine Keeps.ofPair (by assumption) ?_
    | with_reducible apply Keeps.ite
    | with_reducible apply Keeps.ite1
    | fail_if_no_progress (with_reducible apply Keeps.mk')
    | split

theorem keeps_moveSpare (s : State) (p : Nat) (j : Nat) (c : Nat) {r0 : State} (hr : Keeps r0 s) : Keeps r0 (moveSpare s p j c).1 := by
  refine Keeps.trans hr ?_
  clear hr
  unfold moveSpare
  repeat' first
    | with_reducible apply Keeps.refl
    | intro _
    | with_reducible assumption
    | (fail_if_no_progress extract_lets +onlyGivenNames x
       first | (refine Keeps.hyp x ?_ (fun _ => ?_); subst x; rotate_left; clear_value x; rotate_left) | clear_value x)
    | with_reducible apply keeps_noSpareFor
    | with_reducible apply keeps_substClr
    | with_reducible apply keeps_trySpares
    | with_reducible apply keeps_loopRecord
    | with_reducible apply keeps_substSet
    | with_reducible refine Keeps.ofPair (by assumption) ?_
    | with_reducible apply Keeps.ite
    | with_reducible apply Keeps.ite1
    | fail_if_no_progress (with_reducible apply Keeps.mk')
    | split

theorem keeps_confirmAll (s : State) (x1 : List (Nat × Nat × Nat)) {r0 : State} (hr : Keeps r0 s) : Keeps r0 (confirmAll s x1) := by
  refine Keeps.trans hr ?_
  clear hr
  fun_induction confirmAll s x1
  repeat' first
    | with_reducible apply Keeps.refl
    | intro _
    | with_reducible assumption
    | (fail_if_no_progress extract_lets +onlyGivenNames x
       first | (refine Keeps.hyp x ?_ (fun _ => ?_); subst x; rotate_left; clear_value x; rotate_left) | clear_value x)
    | with_reducible refine Keeps.trans ?_ (by assumption)
    | with_reducible apply keeps_moveSpare
    | with_reducible apply keeps_retireNozzle
    | with_reducible apply keeps_State_spend
    | with_reducible refine Keeps.ofPair (by assumption) ?_
    | with_reducible apply Keeps.ite
    | fail_if_no_progress (with_reducible apply Keeps.mk')
    | split

theorem keeps_healthPass (s : State) (p : Nat) {r0 : State} (hr : Keeps r0 s) : Keeps r0 (healthPass s p) := by
  refine Keeps.trans hr ?_
  clear hr
  unfold healthPass
  repeat' first
    | with_reducible apply Keeps.refl
    | intro _
    | with_reducible assumption
    | (fail_if_no_progress extract_lets +onlyGivenNames x
       first | (refine Keeps.hyp x ?_ (fun _ => ?_); subst x; rotate_left; clear_value x; rotate_left) | clear_value x)
    | with_reducible apply keeps_healthRow
    | with_reducible apply keeps_State_spend
    | with_reducible apply keeps_confirmAll
    | with_reducible apply Keeps.foldl
    | with_reducible apply Keeps.foldlPair
    | with_reducible refine Keeps.ofPair (by assumption) ?_
    | with_reducible apply Keeps.ite
    | fail_if_no_progress (with_reducible apply Keeps.mk')

theorem keeps_nozResult (s : State) (line : Nat) (code : Nat) {r0 : State} (hr : Keeps r0 s) : Keeps r0 (nozResult s line code) := by
  refine Keeps.trans hr ?_
  clear hr
  unfold nozResult
  repeat' first
    | with_reducible apply Keeps.refl
    | intro _
    | with_reducible apply keeps_State_wr

theorem keeps_nozRetire (s : State) (noz : Nat) {r0 : State} (hr : Keeps r0 s) : Keeps r0 (nozRetire s noz) := by
  refine Keeps.trans hr ?_
  clear hr
  unfold nozRetire
  repeat' first
    | with_reducible apply Keeps.refl
    | intro _
    | with_reducible assumption
    | (fail_if_no_progress extract_lets +onlyGivenNames x
       first | (refine Keeps.hyp x ?_ (fun _ => ?_); subst x; rotate_left; clear_value x; rotate_left) | clear_value x)
    | with_reducible apply keeps_nozResult
    | with_reducible apply keeps_retireNozzle
    | with_reducible apply keeps_State_spend
    | with_reducible refine Keeps.ofPair (by assumption) ?_
    | with_reducible apply Keeps.ite
    | fail_if_no_progress (with_reducible apply Keeps.mk')
    | split

theorem keeps_clearNozzle (s : State) (noz : Nat) (line : Nat) {r0 : State} (hr : Keeps r0 s) : Keeps r0 (clearNozzle s noz line).1 := by
  refine Keeps.trans hr ?_
  clear hr
  unfold clearNozzle
  repeat' first
    | with_reducible apply Keeps.refl
    | intro _
    | with_reducible apply keeps_substClr

theorem keeps_nozRestore (s : State) (noz : Nat) {r0 : State} (hr : Keeps r0 s) : Keeps r0 (nozRestore s noz) := by
  refine Keeps.trans hr ?_
  clear hr
  unfold nozRestore
  repeat' first
    | with_reducible apply Keeps.refl
    | intro _
    | with_reducible assumption
    | (fail_if_no_progress extract_lets +onlyGivenNames x
       first | (refine Keeps.hyp x ?_ (fun _ => ?_); subst x; rotate_left; clear_value x; rotate_left) | clear_value x)
    | with_reducible apply keeps_nozResult
    | with_reducible apply keeps_clearNozzle
    | with_reducible apply keeps_setHealth
    | with_reducible refine Keeps.ofPair (by assumption) ?_
    | with_reducible apply Keeps.ite
    | fail_if_no_progress (with_reducible apply Keeps.mk')
    | split

theorem keeps_healthClear (s : State) (p : Nat) {r0 : State} (hr : Keeps r0 s) : Keeps r0 (healthClear s p) := by
  refine hr.trans (Keeps.updMem _ (mem_wf_filterMap _ (fun c d e => ?_)))
  dsimp only at e
  split at e
  · split at e
    · cases e; exact ⟨rfl, .inr (by rename_i h; simpa [Mem.empty] using (Bool.and_eq_true_iff.1 h).2)⟩
    · cases e
  · cases e; exact ⟨rfl, .inl rfl⟩

theorem keeps_nozRestorePlane (s : State) (p : Nat) {r0 : State} (hr : Keeps r0 s) : Keeps r0 (nozRestorePlane s p) := by
  refine Keeps.trans hr ?_
  clear hr
  unfold nozRestorePlane
  repeat' first
    | with_reducible apply Keeps.refl
    | intro _
    | with_reducible assumption
    | (fail_if_no_progress extract_lets +onlyGivenNames x
       first | (refine Keeps.hyp x ?_ (fun _ => ?_); subst x; rotate_left; clear_value x; rotate_left) | clear_value x)
    | with_reducible apply keeps_clearNozzle
    | with_reducible apply keeps_nozResult
    | with_reducible apply keeps_healthClear
    | with_reducible apply Keeps.foldl
    | with_reducible apply Keeps.foldlPair
    | with_reducible refine Keeps.ofPair (by assumption) ?_
    | with_reducible apply Keeps.ite
    | fail_if_no_progress (with_reducible apply Keeps.mk')

theorem keeps_cuSwapAsk (s : State) {r0 : State} (hr : Keeps r0 s) : Keeps r0 (cuSwapAsk s) := by
  refine Keeps.trans hr ?_
  clear hr
  unfold cuSwapAsk
  repeat' first
    | with_reducible apply Keeps.refl
    | intro _
    | with_reducible apply keeps_State_wr
    | with_reducible apply Keeps.ite

theorem keeps_trimLimits (s : State) (p : Nat) (ts : List ((Nat × Nat) × Int)) {r0 : State} (hr : Keeps r0 s) : Keeps r0 (trimLimits s p ts) := by
  refine Keeps.trans hr ?_
  clear hr
  unfold trimLimits
  repeat' first
    | with_reducible apply Keeps.refl
    | intro _
    | with_reducible assumption
    | (fail_if_no_progress extract_lets +onlyGivenNames x
       first | (refine Keeps.hyp x ?_ (fun _ => ?_); subst x; rotate_left; clear_value x; rotate_left) | clear_value x)
    | with_reducible apply keeps_loopRecord
    | with_reducible apply keeps_State_setQuality
    | with_reducible refine Keeps.ofPair (by assumption) ?_
    | with_reducible apply Keeps.foldl
    | with_reducible apply Keeps.foldlPair
    | with_reducible apply Keeps.ite
    | fail_if_no_progress (with_reducible apply Keeps.mk')
    | split

theorem keeps_densLoad (s : State) (p : Nat) {r0 : State} (hr : Keeps r0 s) : Keeps r0 (densLoad s p) := by
  refine Keeps.trans hr ?_
  clear hr
  unfold densLoad
  repeat' first
    | with_reducible apply Keeps.refl
    | intro _
    | with_reducible assumption
    | (fail_if_no_progress extract_lets +onlyGivenNames x
       first | (refine Keeps.hyp x ?_ (fun _ => ?_); subst x; rotate_left; clear_value x; rotate_left) | clear_value x)
    | with_reducible apply keeps_catWrite
    | with_reducible refine Keeps.ofPair (by assumption) ?_
    | with_reducible apply Keeps.ite
    | fail_if_no_progress (with_reducible apply Keeps.mk')
    | split

theorem keeps_densIssue (s : State) (p : Nat) {r0 : State} (hr : Keeps r0 s) : Keeps r0 (densIssue s p) := by
  refine Keeps.trans hr ?_
  clear hr
  unfold densIssue
  repeat' first
    | with_reducible apply Keeps.refl
    | intro _
    | with_reducible assumption
    | (fail_if_no_progress extract_lets +onlyGivenNames x
       first | (refine Keeps.hyp x ?_ (fun _ => ?_); subst x; rotate_left; clear_value x; rotate_left) | clear_value x)
    | with_reducible apply keeps_densLoad
    | with_reducible apply keeps_State_pokeBytes
    | with_reducible apply keeps_State_twin
    | with_reducible apply keeps_trimLimits
    | with_reducible refine Keeps.ofPair (by assumption) ?_
    | with_reducible apply Keeps.foldl
    | with_reducible apply Keeps.foldlPair
    | with_reducible apply Keeps.ite
    | fail_if_no_progress (with_reducible apply Keeps.mk')
    | split

theorem keeps_densityUpdate (s : State) (p : Nat) {r0 : State} (hr : Keeps r0 s) : Keeps r0 (densityUpdate s p) := by
  refine Keeps.trans hr ?_
  clear hr
  unfold densityUpdate
  repeat' first
    | with_reducible apply Keeps.refl
    | intro _
    | with_reducible assumption
    | (fail_if_no_progress extract_lets +onlyGivenNames x
       first | (refine Keeps.hyp x ?_ (fun _ => ?_); subst x; rotate_left; clear_value x; rotate_left) | clear_value x)
    | with_reducible apply keeps_State_setQuality
    | with_reducible apply keeps_densIssue
    | with_reducible apply keeps_State_spend
    | with_reducible refine Keeps.ofPair (by assumption) ?_
    | with_reducible apply Keeps.ite
    | fail_if_no_progress (with_reducible apply Keeps.mk')

theorem keeps_regTake (s : State) (slot : Nat) {r0 : State} (hr : Keeps r0 s) : Keeps r0 (regTake s slot) := by
  refine Keeps.trans hr ?_
  clear hr
  unfold regTake
  repeat' first
    | with_reducible apply Keeps.refl
    | intro _
    | with_reducible assumption
    | (fail_if_no_progress extract_lets +onlyGivenNames x
       first | (refine Keeps.hyp x ?_ (fun _ => ?_); subst x; rotate_left; clear_value x; rotate_left) | subst x)
    | fail_if_no_progress (with_reducible apply Keeps.mk')

theorem keeps_regCorrect (s : State) (e : RegEst) (ybar : Int) (slope : Int) {r0 : State} (hr : Keeps r0 s) : Keeps r0 (regCorrect s e ybar slope) := by
  refine Keeps.trans hr ?_
  clear hr
  unfold regCorrect
  repeat' first
    | with_reducible apply Keeps.refl
    | intro _
    | with_reducible assumption
    | (fail_if_no_progress extract_lets +onlyGivenNames x
       first | (refine Keeps.hyp x ?_ (fun _ => ?_); subst x; rotate_left; clear_value x; rotate_left) | clear_value x)
    | with_reducible apply keeps_loopRecord
    | with_reducible apply keeps_State_setQuality
    | with_reducible apply keeps_catWrite
    | with_reducible refine Keeps.ofPair (by assumption) ?_
    | with_reducible apply Keeps.ite
    | fail_if_no_progress (with_reducible apply Keeps.mk')
    | split

theorem keeps_regFigure (s : State) (e : RegEst) (xbar : Int) (ybar : Int) {r0 : State} (hr : Keeps r0 s) : Keeps r0 (regFigure s e xbar ybar) := by
  refine Keeps.trans hr ?_
  clear hr
  unfold regFigure
  repeat' first
    | with_reducible apply Keeps.refl
    | intro _
    | with_reducible assumption
    | (fail_if_no_progress extract_lets +onlyGivenNames x
       first | (refine Keeps.hyp x ?_ (fun _ => ?_); subst x; rotate_left; clear_value x; rotate_left) | clear_value x)
    | with_reducible apply keeps_State_setQuality

theorem keeps_regPlane (s : State) (p : Nat) (es : List RegEst) (xbar : Int) (ybar : Int) {r0 : State} (hr : Keeps r0 s) : Keeps r0 (regPlane s p es xbar ybar) := by
  refine Keeps.trans hr ?_
  clear hr
  unfold regPlane
  repeat' first
    | with_reducible apply Keeps.refl
    | intro _
    | with_reducible assumption
    | (fail_if_no_progress extract_lets +onlyGivenNames x
       first | (refine Keeps.hyp x ?_ (fun _ => ?_); subst x; rotate_left; clear_value x; rotate_left) | clear_value x)
    | with_reducible apply keeps_State_wri
    | with_reducible apply keeps_State_setQuality
    | with_reducible refine Keeps.ofPair (by assumption) ?_
    | with_reducible apply Keeps.foldl
    | with_reducible apply Keeps.foldlPair
    | with_reducible apply Keeps.ite
    | fail_if_no_progress (with_reducible apply Keeps.mk')
    | split

theorem keeps_regWindow (s : State) (speed : Nat) (steady : Bool) {r0 : State} (hr : Keeps r0 s) : Keeps r0 (regWindow s speed steady) := by
  refine Keeps.trans hr ?_
  clear hr
  unfold regWindow
  repeat' first
    | with_reducible apply Keeps.refl
    | intro _
    | with_reducible assumption
    | (fail_if_no_progress extract_lets +onlyGivenNames x
       first | (refine Keeps.hyp x ?_ (fun _ => ?_); subst x; rotate_left; clear_value x; rotate_left) | clear_value x)
    | with_reducible apply keeps_regPlane
    | with_reducible apply keeps_regFigure
    | with_reducible apply keeps_State_spend
    | with_reducible apply keeps_regCorrect
    | with_reducible apply Keeps.foldl
    | with_reducible apply Keeps.foldlPair
    | with_reducible apply Keeps.ite
    | fail_if_no_progress (with_reducible apply Keeps.mk')

theorem keeps_registration (s : State) (g : Nat) (speed : Nat) (steady : Bool) {r0 : State} (hr : Keeps r0 s) : Keeps r0 (registration s g speed steady) := by
  refine Keeps.trans hr ?_
  clear hr
  unfold registration
  repeat' first
    | with_reducible apply Keeps.refl
    | intro _
    | with_reducible assumption
    | (fail_if_no_progress extract_lets +onlyGivenNames x
       first | (refine Keeps.hyp x ?_ (fun _ => ?_); subst x; rotate_left; clear_value x; rotate_left) | clear_value x)
    | with_reducible apply keeps_regTake
    | with_reducible apply keeps_State_spend
    | with_reducible apply keeps_regWindow
    | with_reducible apply Keeps.foldl
    | with_reducible apply Keeps.foldlPair
    | with_reducible apply Keeps.ite
    | fail_if_no_progress (with_reducible apply Keeps.mk')

theorem keeps_shiftBanks (s : State) (p : Nat) (k : Int) {r0 : State} (hr : Keeps r0 s) : Keeps r0 (shiftBanks s p k) := by
  refine Keeps.trans hr ?_
  clear hr
  unfold shiftBanks
  repeat' first
    | with_reducible apply Keeps.refl
    | intro _
    | with_reducible assumption
    | (fail_if_no_progress extract_lets +onlyGivenNames x
       first | (refine Keeps.hyp x ?_ (fun _ => ?_); subst x; rotate_left; clear_value x; rotate_left) | clear_value x)
    | with_reducible apply keeps_State_pokeBytes
    | with_reducible apply Keeps.foldl

theorem keeps_xshiftApply (s : State) (p : Nat) {r0 : State} (hr : Keeps r0 s) : Keeps r0 (xshiftApply s p) := by
  refine Keeps.trans hr ?_
  clear hr
  unfold xshiftApply
  repeat' first
    | with_reducible apply Keeps.refl
    | intro _
    | with_reducible assumption
    | (fail_if_no_progress extract_lets +onlyGivenNames x
       first | (refine Keeps.hyp x ?_ (fun _ => ?_); subst x; rotate_left; clear_value x; rotate_left) | clear_value x)
    | with_reducible apply keeps_substClr
    | with_reducible apply keeps_loopRecord
    | with_reducible apply keeps_State_wr
    | with_reducible apply keeps_State_spend
    | with_reducible apply keeps_shiftBanks
    | with_reducible apply keeps_State_pokeBytes
    | with_reducible apply keeps_State_twin
    | with_reducible apply keeps_catLoad
    | with_reducible apply keeps_substSet
    | with_reducible apply keeps_State_wri
    | with_reducible refine Keeps.ofPair (by assumption) ?_
    | with_reducible apply Keeps.foldl
    | with_reducible apply Keeps.foldlPair
    | with_reducible apply Keeps.ite
    | fail_if_no_progress (with_reducible apply Keeps.mk')
    | split

theorem keeps_showBusy (s : State) {r0 : State} (hr : Keeps r0 s) : Keeps r0 (showBusy s) := by
  refine Keeps.trans hr ?_
  clear hr
  unfold showBusy
  repeat' first
    | with_reducible apply Keeps.refl
    | intro _
    | with_reducible apply keeps_State_wr

theorem keeps_setDeferred (s : State) (cls : Nat) (b : Bool) {r0 : State} (hr : Keeps r0 s) : Keeps r0 (setDeferred s cls b) := by
  refine Keeps.trans hr ?_
  clear hr
  unfold setDeferred
  repeat' first
    | with_reducible apply Keeps.refl
    | intro _
    | with_reducible apply keeps_State_wr

theorem keeps_recalRun (s : State) (cls : Nat) (u : Nat) {r0 : State} (hr : Keeps r0 s) : Keeps r0 (recalRun s cls u) := by
  refine Keeps.trans hr ?_
  clear hr
  unfold recalRun
  repeat' first
    | with_reducible apply Keeps.refl
    | intro _
    | with_reducible assumption
    | (fail_if_no_progress extract_lets +onlyGivenNames x
       first | (refine Keeps.hyp x ?_ (fun _ => ?_); subst x; rotate_left; clear_value x; rotate_left) | clear_value x)
    | with_reducible apply keeps_showBusy
    | with_reducible apply keeps_setDeferred
    | fail_if_no_progress (with_reducible apply Keeps.mk')

theorem keeps_recalLane (s : State) (u : Nat) {r0 : State} (hr : Keeps r0 s) : Keeps r0 (recalLane s u) := by
  refine Keeps.trans hr ?_
  clear hr
  unfold recalLane
  repeat' first
    | with_reducible apply Keeps.refl
    | intro _
    | with_reducible assumption
    | with_reducible apply keeps_setLstate
    | with_reducible apply keeps_recalRun
    | with_reducible apply keeps_moveAdd
    | with_reducible apply keeps_showLinks
    | with_reducible refine Keeps.ofPair (by assumption) ?_
    | with_reducible apply Keeps.ite
    | fail_if_no_progress (with_reducible apply Keeps.mk')
    | split

theorem keeps_recalStart (s : State) (cls : Nat) {r0 : State} (hr : Keeps r0 s) : Keeps r0 (recalStart s cls) := by
  refine Keeps.trans hr ?_
  clear hr
  unfold recalStart
  repeat' first
    | with_reducible apply Keeps.refl
    | intro _
    | with_reducible assumption
    | (fail_if_no_progress extract_lets +onlyGivenNames x
       first | (refine Keeps.hyp x ?_ (fun _ => ?_); subst x; rotate_left; clear_value x; rotate_left) | clear_value x)
    | with_reducible apply keeps_recalLane
    | with_reducible apply keeps_setLstate
    | with_reducible apply keeps_recalRun
    | with_reducible apply keeps_setDeferred
    | with_reducible refine Keeps.ofPair (by assumption) ?_
    | with_reducible apply Keeps.ite
    | fail_if_no_progress (with_reducible apply Keeps.mk')
    | split

theorem keeps_recalEnd (s : State) (cls : Nat) (u : Nat) (counts : Bool) {r0 : State} (hr : Keeps r0 s) : Keeps r0 (recalEnd s cls u counts) := by
  refine Keeps.trans hr ?_
  clear hr
  unfold recalEnd
  repeat' first
    | with_reducible apply Keeps.refl
    | intro _
    | with_reducible assumption
    | (fail_if_no_progress extract_lets +onlyGivenNames x
       first | (refine Keeps.hyp x ?_ (fun _ => ?_); subst x; rotate_left; clear_value x; rotate_left) | clear_value x)
    | with_reducible apply keeps_showBusy
    | with_reducible apply keeps_State_count
    | with_reducible apply Keeps.ite
    | fail_if_no_progress (with_reducible apply Keeps.mk')

theorem keeps_recalComplete (s : State) (cls : Nat) (u : Nat) (a : Nat) (b : Nat) (ctle : Nat) {r0 : State} (hr : Keeps r0 s) : Keeps r0 (recalComplete s cls u a b ctle) := by
  refine Keeps.trans hr ?_
  clear hr
  unfold recalComplete
  repeat' first
    | with_reducible apply Keeps.refl
    | intro _
    | with_reducible assumption
    | (fail_if_no_progress extract_lets +onlyGivenNames x
       first | (refine Keeps.hyp x ?_ (fun _ => ?_); subst x; rotate_left; clear_value x; rotate_left) | clear_value x)
    | with_reducible apply keeps_recalEnd
    | with_reducible apply keeps_State_setQuality
    | with_reducible apply keeps_State_wr
    | with_reducible apply keeps_State_wri
    | with_reducible apply keeps_State_spend
    | with_reducible apply keeps_State_setLane
    | with_reducible apply keeps_laneRetire
    | with_reducible apply keeps_setLstate
    | with_reducible apply keeps_showLinks
    | with_reducible apply keeps_laneStandby
    | with_reducible apply keeps_State_setFb
    | with_reducible apply keeps_State_noteQuality
    | with_reducible refine Keeps.ofPair (by assumption) ?_
    | with_reducible apply Keeps.foldl
    | with_reducible apply Keeps.foldlPair
    | with_reducible apply Keeps.ite
    | fail_if_no_progress (with_reducible apply Keeps.mk')
    | split

theorem keeps_converterSwap (s : State) (i : Nat) (diff : Nat) {r0 : State} (hr : Keeps r0 s) : Keeps r0 (converterSwap s i diff) := by
  refine Keeps.trans hr ?_
  clear hr
  unfold converterSwap
  repeat' first
    | with_reducible apply Keeps.refl
    | intro _
    | with_reducible assumption
    | (fail_if_no_progress extract_lets +onlyGivenNames x
       first | (refine Keeps.hyp x ?_ (fun _ => ?_); subst x; rotate_left; clear_value x; rotate_left) | clear_value x)
    | with_reducible apply keeps_State_setFb
    | with_reducible apply keeps_State_spend
    | with_reducible apply keeps_State_noteQuality
    | with_reducible apply keeps_recalDue
    | with_reducible apply keeps_recalEnd
    | with_reducible apply keeps_encFault
    | with_reducible refine Keeps.ofPair (by assumption) ?_
    | with_reducible apply Keeps.ite
    | fail_if_no_progress (with_reducible apply Keeps.mk')
    | split

theorem keeps_recalRequest (s : State) (cls : Nat) (u : Nat) {r0 : State} (hr : Keeps r0 s) : Keeps r0 (recalRequest s cls u) := by
  refine Keeps.trans hr ?_
  clear hr
  unfold recalRequest
  repeat' first
    | with_reducible apply Keeps.refl
    | intro _
    | with_reducible apply keeps_recalDue
    | with_reducible apply Keeps.ite

theorem keeps_recalAge (s : State) (cls : Nat) (u : Nat) {r0 : State} (hr : Keeps r0 s) : Keeps r0 (recalAge s cls u) := by
  refine Keeps.trans hr ?_
  clear hr
  unfold recalAge
  repeat' first
    | with_reducible apply Keeps.refl
    | intro _
    | with_reducible assumption
    | (fail_if_no_progress extract_lets +onlyGivenNames x
       first | (refine Keeps.hyp x ?_ (fun _ => ?_); subst x; rotate_left; clear_value x; rotate_left) | clear_value x)
    | with_reducible apply keeps_recalDue
    | with_reducible refine Keeps.ofPair (by assumption) ?_
    | with_reducible apply Keeps.ite

theorem keeps_factoryCoefs (s : State) (i : Nat) {r0 : State} (hr : Keeps r0 s) : Keeps r0 (factoryCoefs s i) := by
  refine Keeps.trans hr ?_
  clear hr
  unfold factoryCoefs
  repeat' first
    | with_reducible apply Keeps.refl
    | intro _
    | with_reducible assumption
    | with_reducible apply keeps_State_setFb
    | with_reducible refine Keeps.ofPair (by assumption) ?_
    | with_reducible apply Keeps.ite
    | fail_if_no_progress (with_reducible apply Keeps.mk')

theorem keeps_xrefCheck (s : State) (ohms : Nat) {r0 : State} (hr : Keeps r0 s) : Keeps r0 (xrefCheck s ohms) := by
  refine Keeps.trans hr ?_
  clear hr
  unfold xrefCheck
  repeat' first
    | with_reducible apply Keeps.refl
    | intro _
    | with_reducible assumption
    | (fail_if_no_progress extract_lets +onlyGivenNames x
       first | (refine Keeps.hyp x ?_ (fun _ => ?_); subst x; rotate_left; clear_value x; rotate_left) | clear_value x)
    | with_reducible apply keeps_factoryCoefs
    | with_reducible apply keeps_State_wrb
    | with_reducible apply keeps_State_event
    | with_reducible refine Keeps.ofPair (by assumption) ?_
    | with_reducible apply Keeps.foldl
    | with_reducible apply Keeps.foldlPair
    | with_reducible apply Keeps.ite
    | fail_if_no_progress (with_reducible apply Keeps.mk')
    | split

theorem keeps_execHealthPass (t : Nat) (plane : Nat) (s : State) {r0 : State} (hr : Keeps r0 s) : KeepsOut r0 (execHealthPass t plane s) := by
  refine KeepsOut.trans hr ?_
  clear hr
  unfold execHealthPass
  repeat' first
    | with_reducible apply Keeps.refl
    | intro _
    | with_reducible apply keeps_healthPass
    | with_reducible apply keeps_State_at
    | with_reducible apply KeepsOut.next

theorem keeps_execNozRetire (t : Nat) (nozzle : Nat) (s : State) {r0 : State} (hr : Keeps r0 s) : KeepsOut r0 (execNozRetire t nozzle s) := by
  refine KeepsOut.trans hr ?_
  clear hr
  unfold execNozRetire
  repeat' first
    | with_reducible apply Keeps.refl
    | intro _
    | with_reducible apply keeps_nozRetire
    | with_reducible apply keeps_State_at
    | with_reducible apply KeepsOut.next

theorem keeps_execNozRestore (t : Nat) (nozzle : Nat) (s : State) {r0 : State} (hr : Keeps r0 s) : KeepsOut r0 (execNozRestore t nozzle s) := by
  refine KeepsOut.trans hr ?_
  clear hr
  unfold execNozRestore
  repeat' first
    | with_reducible apply Keeps.refl
    | intro _
    | with_reducible apply keeps_nozRestore
    | with_reducible apply keeps_State_at
    | with_reducible apply KeepsOut.next

theorem keeps_execNozRestorePlane (t : Nat) (plane : Nat) (s : State) {r0 : State} (hr : Keeps r0 s) : KeepsOut r0 (execNozRestorePlane t plane s) := by
  refine KeepsOut.trans hr ?_
  clear hr
  unfold execNozRestorePlane
  repeat' first
    | with_reducible apply Keeps.refl
    | intro _
    | with_reducible apply keeps_nozRestorePlane
    | with_reducible apply keeps_State_at
    | with_reducible apply KeepsOut.next

theorem keeps_execCuSwapRequest (t : Nat) (s : State) {r0 : State} (hr : Keeps r0 s) : KeepsOut r0 (execCuSwapRequest t s) := by
  refine KeepsOut.trans hr ?_
  clear hr
  unfold execCuSwapRequest
  repeat' first
    | with_reducible apply Keeps.refl
    | intro _
    | with_reducible apply keeps_cuSwapAsk
    | with_reducible apply keeps_State_at
    | with_reducible apply KeepsOut.next

theorem keeps_execDensityUpdate (t : Nat) (plane : Nat) (s : State) {r0 : State} (hr : Keeps r0 s) : KeepsOut r0 (execDensityUpdate t plane s) := by
  refine KeepsOut.trans hr ?_
  clear hr
  unfold execDensityUpdate
  repeat' first
    | with_reducible apply Keeps.refl
    | intro _
    | with_reducible apply keeps_densityUpdate
    | with_reducible apply keeps_State_at
    | with_reducible apply KeepsOut.next

theorem keeps_execRegistrationWindow (t : Nat) (grp : Nat) (speed : Nat) (steady : Bool) (s : State) {r0 : State} (hr : Keeps r0 s) : KeepsOut r0 (execRegistrationWindow t grp speed steady s) := by
  refine KeepsOut.trans hr ?_
  clear hr
  unfold execRegistrationWindow
  repeat' first
    | with_reducible apply Keeps.refl
    | intro _
    | with_reducible apply keeps_registration
    | with_reducible apply keeps_State_at
    | with_reducible apply KeepsOut.next

theorem keeps_execXshiftApply (t : Nat) (plane : Nat) (s : State) {r0 : State} (hr : Keeps r0 s) : KeepsOut r0 (execXshiftApply t plane s) := by
  refine KeepsOut.trans hr ?_
  clear hr
  unfold execXshiftApply
  repeat' first
    | with_reducible apply Keeps.refl
    | intro _
    | with_reducible apply keeps_xshiftApply
    | with_reducible apply keeps_State_at
    | with_reducible apply KeepsOut.next

theorem keeps_execRecalRequest (t : Nat) (cls : Nat) (unit : Nat) (s : State) {r0 : State} (hr : Keeps r0 s) : KeepsOut r0 (execRecalRequest t cls unit s) := by
  refine KeepsOut.trans hr ?_
  clear hr
  unfold execRecalRequest
  repeat' first
    | with_reducible apply Keeps.refl
    | intro _
    | with_reducible apply keeps_recalRequest
    | with_reducible apply keeps_State_at
    | with_reducible apply KeepsOut.next

theorem keeps_execRecalAgeExpiry (t : Nat) (cls : Nat) (unit : Nat) (s : State) {r0 : State} (hr : Keeps r0 s) : KeepsOut r0 (execRecalAgeExpiry t cls unit s) := by
  refine KeepsOut.trans hr ?_
  clear hr
  unfold execRecalAgeExpiry
  repeat' first
    | with_reducible apply Keeps.refl
    | intro _
    | with_reducible apply keeps_recalAge
    | with_reducible apply keeps_State_at
    | with_reducible apply KeepsOut.next

theorem keeps_execRecalStart (t : Nat) (cls : Nat) (s : State) {r0 : State} (hr : Keeps r0 s) : KeepsOut r0 (execRecalStart t cls s) := by
  refine KeepsOut.trans hr ?_
  clear hr
  unfold execRecalStart
  repeat' first
    | with_reducible apply Keeps.refl
    | intro _
    | with_reducible apply keeps_recalStart
    | with_reducible apply keeps_State_at
    | with_reducible apply KeepsOut.next

theorem keeps_execRecalComplete (t : Nat) (cls : Nat) (unit : Nat) (a : Nat) (b : Nat) (ctle : Nat) (s : State) {r0 : State} (hr : Keeps r0 s) : KeepsOut r0 (execRecalComplete t cls unit a b ctle s) := by
  refine KeepsOut.trans hr ?_
  clear hr
  unfold execRecalComplete
  repeat' first
    | with_reducible apply Keeps.refl
    | intro _
    | with_reducible apply keeps_recalComplete
    | with_reducible apply keeps_State_at
    | with_reducible apply KeepsOut.next

theorem keeps_execConverterSwap (t : Nat) (input : Nat) (diff : Nat) (s : State) {r0 : State} (hr : Keeps r0 s) : KeepsOut r0 (execConverterSwap t input diff s) := by
  refine KeepsOut.trans hr ?_
  clear hr
  unfold execConverterSwap
  repeat' first
    | with_reducible apply Keeps.refl
    | intro _
    | with_reducible apply keeps_converterSwap
    | with_reducible apply keeps_State_at
    | with_reducible apply KeepsOut.next

theorem keeps_execXrefCheck (t : Nat) (ohms : Nat) (s : State) {r0 : State} (hr : Keeps r0 s) : KeepsOut r0 (execXrefCheck t ohms s) := by
  refine KeepsOut.trans hr ?_
  clear hr
  unfold execXrefCheck
  repeat' first
    | with_reducible apply Keeps.refl
    | intro _
    | with_reducible apply keeps_xrefCheck
    | with_reducible apply keeps_State_at
    | with_reducible apply KeepsOut.next

end Sys2Proof.Laws
end

