-- ==== Sys2Proof/Laws/KeepRegBus.lean ====
section
/-! SUPPORT. `Keeps` of every operation of Machine/RegBus.lean. -/

namespace Sys2Proof.Laws

open Sys2Proof.Machine

set_option linter.unusedTactic false
set_option linter.unreachableTactic false
set_option linter.tactic.unusedName false

theorem keeps_fieldWrite (s : State) (v : Nat) (p : FieldAt) {r0 : State} (hr : Keeps r0 s) : Keeps r0 (fieldWrite s v p) := by
  refine Keeps.trans hr ?_
  clear hr
  unfold fieldWrite
  repeat' first
    | with_reducible apply Keeps.refl
    | intro _
    | with_reducible assumption
    | with_reducible apply keeps_State_wr
    | with_reducible refine Keeps.ofPair (by assumption) ?_
    | with_reducible apply Keeps.ite
    | fail_if_no_progress (with_reducible apply Keeps.mk')
    | split

theorem keeps_fieldsWrite (s : State) (v : Nat) (ps : List FieldAt) {r0 : State} (hr : Keeps r0 s) : Keeps r0 (fieldsWrite s v ps) := by
  refine Keeps.trans hr ?_
  clear hr
  unfold fieldsWrite
  repeat' first
    | with_reducible apply Keeps.refl
    | intro _
    | with_reducible assumption
    | (fail_if_no_progress extract_lets +onlyGivenNames x
       first | (refine Keeps.hyp x ?_ (fun _ => ?_); subst x; rotate_left; clear_value x; rotate_left) | clear_value x)
    | with_reducible apply keeps_fieldWrite
    | with_reducible apply Keeps.foldl

end Sys2Proof.Laws
end

