-- ==== Sys2Proof/Laws/KeepBoot.lean ====
section
/-! SUPPORT. `Keeps` of every operation of Machine/Boot.lean. -/

namespace Sys2Proof.Laws

open Sys2Proof.Machine

set_option linter.unusedTactic false
set_option linter.unreachableTactic false
set_option linter.tactic.unusedName false

theorem keeps_recStore (s : State) (r : BootRec) {r0 : State} (hr : Keeps r0 s) : Keeps r0 (recStore s r) := by
  refine Keeps.trans hr ?_
  clear hr
  unfold recStore
  repeat' first
    | with_reducible apply Keeps.refl
    | intro _
    | with_reducible assumption
    | (fail_if_no_progress extract_lets +onlyGivenNames x
       first | (refine Keeps.hyp x ?_ (fun _ => ?_); subst x; rotate_left; clear_value x; rotate_left) | clear_value x)
    | with_reducible apply Keeps.ite
    | fail_if_no_progress (with_reducible apply Keeps.mk')

theorem keeps_recWrite (s : State) (r : BootRec) {r0 : State} (hr : Keeps r0 s) : Keeps r0 (recWrite s r) := by
  refine Keeps.trans hr ?_
  clear hr
  unfold recWrite
  repeat' first
    | with_reducible apply Keeps.refl
    | intro _
    | with_reducible assumption
    | (fail_if_no_progress extract_lets +onlyGivenNames x
       first | (refine Keeps.hyp x ?_ (fun _ => ?_); subst x; rotate_left; clear_value x; rotate_left) | clear_value x)
    | with_reducible apply keeps_recStore
    | with_reducible apply keeps_flashRefuse
    | with_reducible apply Keeps.ite
    | fail_if_no_progress (with_reducible apply Keeps.mk')

theorem keeps_imgCopy (s : State) (src dst size : Nat) {r0 : State} (hr : Keeps r0 s) : Keeps r0 (imgCopy s src dst size) :=
  hr.trans (Keeps.updMem _ (fun h => mem_wf_write _ _ (mem_wf_filter _ h)))

theorem keeps_showStage (s : State) {r0 : State} (hr : Keeps r0 s) : Keeps r0 (showStage s) := by
  refine Keeps.trans hr ?_
  clear hr
  unfold showStage
  repeat' first
    | with_reducible apply Keeps.refl
    | intro _
    | with_reducible assumption
    | (fail_if_no_progress extract_lets +onlyGivenNames x
       first | (refine Keeps.hyp x ?_ (fun _ => ?_); subst x; rotate_left; clear_value x; rotate_left) | clear_value x)
    | with_reducible apply keeps_State_wr

theorem keeps_regRecord (s : State) (a : Nat) (v : Nat) {r0 : State} (hr : Keeps r0 s) : Keeps r0 (regRecord s a v) := by
  refine Keeps.trans hr ?_
  clear hr
  unfold regRecord
  repeat' first
    | with_reducible apply Keeps.refl
    | intro _
    | with_reducible assumption
    | (fail_if_no_progress extract_lets +onlyGivenNames x
       first | (refine Keeps.hyp x ?_ (fun _ => ?_); subst x; rotate_left; clear_value x; rotate_left) | clear_value x)
    | with_reducible apply keeps_State_wr
    | with_reducible apply keeps_State_count
    | with_reducible apply Keeps.foldl
    | with_reducible apply Keeps.foldlPair
    | with_reducible apply Keeps.ite

theorem keeps_lockRecord (s : State) (a : Nat) (v : Nat) {r0 : State} (hr : Keeps r0 s) : Keeps r0 (lockRecord s a v) := by
  refine Keeps.trans hr ?_
  clear hr
  unfold lockRecord
  repeat' first
    | with_reducible apply Keeps.refl
    | intro _
    | with_reducible apply keeps_State_wr
    | with_reducible apply Keeps.foldl

theorem keeps_applyRecords (s : State) (recs : List SetRec) (island : Bool) {r0 : State} (hr : Keeps r0 s) : Keeps r0 (applyRecords s recs island) := by
  refine Keeps.trans hr ?_
  clear hr
  unfold applyRecords
  repeat' first
    | with_reducible apply Keeps.refl
    | intro _
    | with_reducible assumption
    | (fail_if_no_progress extract_lets +onlyGivenNames x
       first | (refine Keeps.hyp x ?_ (fun _ => ?_); subst x; rotate_left; clear_value x; rotate_left) | clear_value x)
    | with_reducible apply keeps_State_wr
    | with_reducible apply keeps_State_event
    | with_reducible apply keeps_regRecord
    | with_reducible apply keeps_lockRecord
    | with_reducible refine Keeps.ofPair (by assumption) ?_
    | with_reducible apply Keeps.foldl
    | with_reducible apply Keeps.foldlPair
    | with_reducible apply Keeps.ite
    | fail_if_no_progress (with_reducible apply Keeps.mk')
    | split

theorem keeps_tableStore (s : State) (ch : Nat) (e : List Byte) {r0 : State} (hr : Keeps r0 s) : Keeps r0 (tableStore s ch e) :=
  hr.trans (Keeps.updMem _ (mem_wf_write _ _))

theorem keeps_loadCatalog (s : State) {r0 : State} (hr : Keeps r0 s) : Keeps r0 (loadCatalog s) := by
  refine Keeps.trans hr ?_
  clear hr
  unfold loadCatalog
  repeat' first
    | with_reducible apply Keeps.refl
    | intro _
    | with_reducible assumption
    | (fail_if_no_progress extract_lets +onlyGivenNames x
       first | (refine Keeps.hyp x ?_ (fun _ => ?_); subst x; rotate_left; clear_value x; rotate_left) | clear_value x)
    | with_reducible apply keeps_catFetch
    | with_reducible apply keeps_catShow
    | with_reducible apply Keeps.foldl
    | with_reducible apply Keeps.foldlPair
    | with_reducible apply Keeps.ite
    | fail_if_no_progress (with_reducible apply Keeps.mk')

theorem keeps_gpStart (s : State) {r0 : State} (hr : Keeps r0 s) : Keeps r0 (gpStart s) := by
  refine Keeps.trans hr ?_
  clear hr
  unfold gpStart
  repeat' first
    | with_reducible apply Keeps.refl
    | intro _
    | with_reducible assumption
    | (fail_if_no_progress extract_lets +onlyGivenNames x
       first | (refine Keeps.hyp x ?_ (fun _ => ?_); subst x; rotate_left; clear_value x; rotate_left) | clear_value x)
    | with_reducible apply keeps_State_event
    | with_reducible apply keeps_State_wr
    | with_reducible apply keeps_State_wrb
    | with_reducible apply keeps_fieldsWrite
    | with_reducible apply keeps_State_count
    | with_reducible apply Keeps.foldl
    | with_reducible apply Keeps.foldlPair
    | with_reducible apply Keeps.ite
    | fail_if_no_progress (with_reducible apply Keeps.mk')

theorem keeps_placeAreas (s : State) {r0 : State} (hr : Keeps r0 s) : Keeps r0 (placeAreas s) := by
  refine Keeps.trans hr ?_
  clear hr
  unfold placeAreas
  repeat' first
    | with_reducible apply Keeps.refl
    | intro _
    | with_reducible apply keeps_State_wr

theorem keeps_storesDo (s : State) (p : Nat × List Byte) {r0 : State} (hr : Keeps r0 s) : Keeps r0 (storesDo s p) := by
  unfold storesDo
  split
  · exact hr.trans (Keeps.updMem _ (mem_wf_write _ _))
  · exact Keeps.ite (keeps_State_pokeList _ _ _ hr) hr

theorem keeps_lanesBoot (s : State) (cold : Bool) {r0 : State} (hr : Keeps r0 s) : Keeps r0 (lanesBoot s cold) := by
  refine Keeps.trans hr ?_
  clear hr
  unfold lanesBoot
  repeat' first
    | with_reducible apply Keeps.refl
    | intro _
    | with_reducible assumption
    | (fail_if_no_progress extract_lets +onlyGivenNames x
       first | (refine Keeps.hyp x ?_ (fun _ => ?_); subst x; rotate_left; clear_value x; rotate_left) | clear_value x)
    | with_reducible apply keeps_State_setLane
    | with_reducible apply keeps_setLstate
    | with_reducible apply Keeps.foldl
    | with_reducible apply Keeps.foldlPair
    | with_reducible apply Keeps.ite

theorem keeps_twinLanesBoot (s : State) (cold : Bool) {r0 : State} (hr : Keeps r0 s) : Keeps r0 (twinLanesBoot s cold) := by
  refine Keeps.trans hr ?_
  clear hr
  unfold twinLanesBoot
  repeat' first
    | with_reducible apply Keeps.refl
    | intro _
    | with_reducible assumption
    | (fail_if_no_progress extract_lets +onlyGivenNames x
       first | (refine Keeps.hyp x ?_ (fun _ => ?_); subst x; rotate_left; clear_value x; rotate_left) | clear_value x)
    | with_reducible apply keeps_State_setLane
    | with_reducible apply keeps_setLstate
    | with_reducible apply Keeps.foldl
    | with_reducible apply Keeps.foldlPair
    | with_reducible apply Keeps.ite

theorem keeps_loopsShift (s : State) {r0 : State} (hr : Keeps r0 s) : Keeps r0 (loopsShift s) := by
  refine Keeps.trans hr ?_
  clear hr
  unfold loopsShift
  repeat' first
    | with_reducible apply Keeps.refl
    | intro _
    | with_reducible assumption
    | with_reducible apply keeps_shiftAll
    | with_reducible refine Keeps.ofPair (by assumption) ?_
    | with_reducible apply Keeps.ite
    | fail_if_no_progress (with_reducible apply Keeps.mk')

theorem keeps_nodeFound (s : State) {r0 : State} (hr : Keeps r0 s) : Keeps r0 (nodeFound s) := by
  refine Keeps.trans hr ?_
  clear hr
  unfold nodeFound
  repeat' first
    | with_reducible apply Keeps.refl
    | intro _
    | with_reducible assumption
    | (fail_if_no_progress extract_lets +onlyGivenNames x
       first | (refine Keeps.hyp x ?_ (fun _ => ?_); subst x; rotate_left; clear_value x; rotate_left) | clear_value x)
    | with_reducible apply keeps_State_wr
    | with_reducible apply keeps_State_wrb
    | with_reducible refine Keeps.ofPair (by assumption) ?_
    | with_reducible apply Keeps.ite
    | fail_if_no_progress (with_reducible apply Keeps.mk')
    | split

theorem keeps_imageStart (s : State) (base : Nat) (fresh : Bool) {r0 : State} (hr : Keeps r0 s) : Keeps r0 (imageStart s base fresh) := by
  refine hr.trans ?_
  clear hr
  unfold imageStart
  extract_lets h r cold rebuild island f0 a b c d e
  have ha : Keeps s a := Keeps.mk' (Keeps.refl _)
  have hb : Keeps s b := by
    clear_value a
    subst b
    refine Keeps.ite ?_ ha
    exact ha.trans ⟨rfl, Nat.le_refl _, Nat.le_refl _, List.suffix_refl _, id, sorted_filter _, id, id⟩
  clear_value b
  have he : Keeps s e := keeps_showStage _ (keeps_State_wr _ _ _ _ (keeps_State_wr _ _ _ _ (keeps_State_wrb _ _ _ _
    (keeps_State_wr _ _ _ _ (keeps_State_wr _ _ _ _ (keeps_State_wr _ _ _ _ hb))))))
  clear_value e
  split
  rename_i src slot gen recs conv ec
  extract_lets g i k l m n o q u v w
  have hi : Keeps s i := keeps_applyRecords _ _ _ (keeps_State_wr _ _ _ _ (keeps_State_wr _ _ _ _ (keeps_State_wr _ _ _ _ he)))
  clear_value i
  have hn : Keeps s n := by
    subst n
    split
    · exact hi
    · refine Keeps.ite (keeps_State_wr _ _ _ _ (keeps_State_wr _ _ _ _ (hi.trans (Keeps.updMem _ (mem_wf_write _ _))))) ?_
      exact keeps_flashRefuse _ _ (keeps_State_wr _ _ _ _ (Keeps.mk' hi))
  clear_value n
  have ho : Keeps s o := keeps_placeAreas _ hn
  clear_value o
  have hq : Keeps s q := Keeps.ite (keeps_gpStart _ ho) (keeps_State_wr _ _ _ _ ho)
  clear_value q
  have hu : Keeps s u := Keeps.foldl _ (fun _ _ => keeps_storesDo _ _ (Keeps.refl _)) _ hq
  clear_value u
  have hv : Keeps s v := Keeps.ite (Keeps.foldl _ (fun _ _ => keeps_tableStore _ _ _ (Keeps.refl _)) _ hu) hu
  clear_value v
  have hw : Keeps s w := Keeps.foldl _ (fun _ _ => keeps_tableStore _ _ _ (Keeps.refl _)) _ hv
  clear_value w
  have hx := keeps_lanesBoot _ cold (keeps_loadCatalog _ hw)
  exact keeps_loopsShift _ (keeps_nodeFound _ hx)

theorem keeps_activate (s : State) {r0 : State} (hr : Keeps r0 s) : Keeps r0 (activate s).1 := by
  refine Keeps.trans hr ?_
  clear hr
  unfold activate
  repeat' first
    | with_reducible apply Keeps.refl
    | intro _
    | with_reducible assumption
    | (fail_if_no_progress extract_lets +onlyGivenNames x
       first | (refine Keeps.hyp x ?_ (fun _ => ?_); subst x; rotate_left; clear_value x; rotate_left) | clear_value x)
    | with_reducible apply keeps_recWrite
    | with_reducible apply keeps_State_wr
    | with_reducible apply keeps_flashRefuse
    | with_reducible apply keeps_imgCopy
    | with_reducible apply keeps_recStore
    | with_reducible apply Keeps.ite1
    | with_reducible apply Keeps.ite
    | fail_if_no_progress (with_reducible apply Keeps.mk')

theorem keeps_bootRun (s : State) {r0 : State} (hr : Keeps r0 s) : Keeps r0 (bootRun s) := by
  refine Keeps.trans hr ?_
  clear hr
  unfold bootRun
  repeat' first
    | with_reducible apply Keeps.refl
    | intro _
    | with_reducible assumption
    | (fail_if_no_progress extract_lets +onlyGivenNames x
       first | (refine Keeps.hyp x ?_ (fun _ => ?_); subst x; rotate_left; clear_value x; rotate_left) | clear_value x)
    | with_reducible apply keeps_activate
    | with_reducible apply keeps_imageStart
    | with_reducible apply keeps_State_wr
    | with_reducible apply keeps_recWrite
    | with_reducible refine Keeps.ofPair (by assumption) ?_
    | with_reducible apply Keeps.ite
    | fail_if_no_progress (with_reducible apply Keeps.mk')

theorem keeps_bootDue (s : State) {r0 : State} (hr : Keeps r0 s) : Keeps r0 (bootDue s) := by
  refine Keeps.trans hr ?_
  clear hr
  unfold bootDue
  repeat' first
    | with_reducible apply Keeps.refl
    | intro _
    | with_reducible assumption
    | (fail_if_no_progress extract_lets +onlyGivenNames x
       first | (refine Keeps.hyp x ?_ (fun _ => ?_); subst x; rotate_left; clear_value x; rotate_left) | clear_value x)
    | with_reducible apply keeps_bootRun
    | with_reducible refine Keeps.ofPair (by assumption) ?_
    | with_reducible apply Keeps.ite
    | fail_if_no_progress (with_reducible apply Keeps.mk')
    | split

theorem keeps_ringsClose (s : State) {r0 : State} (hr : Keeps r0 s) : Keeps r0 (ringsClose s) := by
  refine Keeps.trans hr ?_
  clear hr
  unfold ringsClose
  repeat' first
    | with_reducible apply Keeps.refl
    | intro _
    | with_reducible assumption
    | (fail_if_no_progress extract_lets +onlyGivenNames x
       first | (refine Keeps.hyp x ?_ (fun _ => ?_); subst x; rotate_left; clear_value x; rotate_left) | clear_value x)
    | with_reducible apply keeps_ringComplete
    | with_reducible apply Keeps.foldl
    | with_reducible apply Keeps.foldlPair
    | with_reducible apply Keeps.ite

theorem keeps_closeJobs (x0 : Nat) (x1 : State) {r0 : State} (hr : Keeps r0 x1) : Keeps r0 (closeJobs x0 x1) := by
  refine Keeps.trans hr ?_
  clear hr
  fun_induction closeJobs x0 x1
  repeat' first
    | with_reducible apply Keeps.refl
    | intro _
    | with_reducible refine Keeps.trans ?_ (by assumption)
    | with_reducible apply keeps_withholdHeld

theorem keeps_jobsEnd (s : State) {r0 : State} (hr : Keeps r0 s) : Keeps r0 (jobsEnd s) := by
  refine Keeps.trans hr ?_
  clear hr
  unfold jobsEnd
  repeat' first
    | with_reducible apply Keeps.refl
    | intro _
    | with_reducible assumption
    | (fail_if_no_progress extract_lets +onlyGivenNames x
       first | (refine Keeps.hyp x ?_ (fun _ => ?_); subst x; rotate_left; clear_value x; rotate_left) | clear_value x)
    | with_reducible apply keeps_closeJobs
    | with_reducible apply keeps_usageOut
    | with_reducible apply keeps_snapDone
    | with_reducible apply keeps_State_snapTake
    | with_reducible refine Keeps.ofPair (by assumption) ?_
    | with_reducible apply Keeps.foldl
    | with_reducible apply Keeps.foldlPair
    | with_reducible apply Keeps.ite
    | fail_if_no_progress (with_reducible apply Keeps.mk')

theorem keeps_quench (s : State) (freeze : Bool) (pcie : Bool) {r0 : State} (hr : Keeps r0 s) : Keeps r0 (quench s freeze pcie) := by
  refine hr.trans ?_
  unfold quench
  extract_lets island aon mem
  constructor
  · rfl
  · exact Nat.le_refl _
  · exact Nat.le_refl _
  · exact List.suffix_refl _
  · exact mem_wf_filter _
  · intro k
    dsimp only
    generalize resetRegs = l
    refine sorted_foldl _ (fun t x k => ?_) _ (sorted_filter _ k)
    split
    exacts [k, sorted_put _ _ k]
  · intro k
    dsimp only
    refine sorted_foldl _ (fun t x k => ?_) _ rfl
    split
    exacts [k, sorted_put _ _ k]
  · exact sorted_filter _

theorem keeps_warmWipe (s : State) (cause : Nat) {r0 : State} (hr : Keeps r0 s) : Keeps r0 (warmWipe s cause) := by
  unfold warmWipe
  extract_lets old line freeze prev a b epoch z0 src z1 w0 w1 w2 w3 w4
  have ha : Keeps r0 a := Keeps.ite hr (keeps_jobsEnd _ hr)
  have hb : Keeps r0 b := keeps_epochAbandon _ (keeps_ringsClose _ (keeps_substCommitAll _ ha))
  have hz : Keeps r0 z0 := keeps_quench _ _ _ hb
  clear_value z0
  have h0 : Keeps r0 z1 := Keeps.mk' hz
  clear_value z1
  have h1 : Keeps r0 w0 := Keeps.ite (keeps_State_wr _ _ _ _ h0) h0
  have h2 : Keeps r0 w1 := Keeps.ite (keeps_State_emit _ _ h1) h1
  have h5 : Keeps r0 w4 := keeps_twinLanesBoot _ _ (keeps_State_wr _ _ _ _ (keeps_State_wr _ _ _ _ (keeps_State_wr _ _ _ _
    (keeps_State_count _ _ _ _ (keeps_State_wr _ _ _ _ h2)))))
  exact Keeps.ite h5 (keeps_modeEvent _ _ _ _ _ h5)

theorem keeps_warmBegin (s : State) (cause : Nat) {r0 : State} (hr : Keeps r0 s) : Keeps r0 (warmBegin s cause) := by
  refine Keeps.trans hr ?_
  clear hr
  unfold warmBegin
  repeat' first
    | with_reducible apply Keeps.refl
    | intro _
    | with_reducible assumption
    | (fail_if_no_progress extract_lets +onlyGivenNames x
       first | (refine Keeps.hyp x ?_ (fun _ => ?_); subst x; rotate_left; clear_value x; rotate_left) | clear_value x)
    | with_reducible apply keeps_warmWipe
    | with_reducible apply keeps_setStopFrom
    | with_reducible apply keeps_requestMode
    | with_reducible apply keeps_reloadMode
    | with_reducible refine Keeps.ofPair (by assumption) ?_
    | with_reducible apply Keeps.ite
    | fail_if_no_progress (with_reducible apply Keeps.mk')
    | split

theorem keeps_warmWaited (s : State) {r0 : State} (hr : Keeps r0 s) : Keeps r0 (warmWaited s) := by
  refine Keeps.trans hr ?_
  clear hr
  unfold warmWaited
  repeat' first
    | with_reducible apply Keeps.refl
    | intro _
    | with_reducible assumption
    | (fail_if_no_progress extract_lets +onlyGivenNames x
       first | (refine Keeps.hyp x ?_ (fun _ => ?_); subst x; rotate_left; clear_value x; rotate_left) | clear_value x)
    | with_reducible apply keeps_warmWipe
    | with_reducible refine Keeps.ofPair (by assumption) ?_
    | with_reducible apply Keeps.ite
    | fail_if_no_progress (with_reducible apply Keeps.mk')
    | split

theorem keeps_registrarReset (s : State) {r0 : State} (hr : Keeps r0 s) : Keeps r0 (registrarReset s) := by
  refine Keeps.trans hr ?_
  clear hr
  unfold registrarReset
  repeat' first
    | with_reducible apply Keeps.refl
    | intro _
    | with_reducible apply keeps_warmBegin
    | with_reducible apply Keeps.ite

theorem keeps_resetAsk (s : State) {r0 : State} (hr : Keeps r0 s) : Keeps r0 (resetAsk s) := by
  refine Keeps.trans hr ?_
  clear hr
  unfold resetAsk
  repeat' first
    | with_reducible apply Keeps.refl
    | intro _
    | with_reducible assumption
    | with_reducible apply keeps_handAsk
    | with_reducible apply keeps_warmBegin
    | with_reducible apply keeps_twinFail
    | with_reducible refine Keeps.ofPair (by assumption) ?_
    | with_reducible apply Keeps.ite
    | fail_if_no_progress (with_reducible apply Keeps.mk')
    | split

theorem keeps_perst (s : State) {r0 : State} (hr : Keeps r0 s) : Keeps r0 (perst s) := by
  refine Keeps.trans hr ?_
  clear hr
  unfold perst
  repeat' first
    | with_reducible apply Keeps.refl
    | intro _
    | with_reducible assumption
    | (fail_if_no_progress extract_lets +onlyGivenNames x
       first | (refine Keeps.hyp x ?_ (fun _ => ?_); subst x; rotate_left; clear_value x; rotate_left) | clear_value x)
    | with_reducible apply keeps_warmWipe
    | with_reducible apply keeps_twinFail
    | with_reducible apply keeps_warmBegin
    | with_reducible apply keeps_handDrop
    | with_reducible apply Keeps.ite

theorem keeps_watchdog (s : State) {r0 : State} (hr : Keeps r0 s) : Keeps r0 (watchdog s) := by
  refine Keeps.trans hr ?_
  clear hr
  unfold watchdog
  repeat' first
    | with_reducible apply Keeps.refl
    | intro _
    | with_reducible apply keeps_warmBegin
    | with_reducible apply keeps_State_count
    | with_reducible apply Keeps.ite

theorem keeps_coldWipe (s : State) {r0 : State} (hr : Keeps r0 s) : Keeps r0 (coldWipe s) := by
  refine hr.trans ?_
  unfold coldWipe
  extract_lets keep regs
  have hk : Tbl.sorted s.regs = true → Tbl.sorted regs = true := sorted_filter _
  clear_value regs
  constructor
  · rfl
  · exact Nat.le_refl _
  · exact Nat.le_refl _
  · exact List.suffix_refl _
  · exact mem_wf_filter _
  · intro k
    dsimp only
    generalize resetRegs = l
    refine sorted_foldl _ (fun t x k => ?_) _ (hk k)
    split
    exacts [k, sorted_put _ _ k]
  · exact fun _ => rfl
  · exact fun _ => rfl

theorem keeps_repairsApply (s : State) {r0 : State} (hr : Keeps r0 s) : Keeps r0 (repairsApply s) := by
  refine Keeps.trans hr ?_
  clear hr
  unfold repairsApply
  repeat' first
    | with_reducible apply Keeps.refl
    | intro _
    | with_reducible assumption
    | with_reducible apply keeps_repairApply
    | with_reducible refine Keeps.ofPair (by assumption) ?_
    | with_reducible apply Keeps.foldl
    | with_reducible apply Keeps.foldlPair
    | with_reducible apply Keeps.ite
    | fail_if_no_progress (with_reducible apply Keeps.mk')

theorem keeps_coldStart (s : State) {r0 : State} (hr : Keeps r0 s) : Keeps r0 (coldStart s) := by
  refine Keeps.trans hr ?_
  clear hr
  unfold coldStart
  repeat' first
    | with_reducible apply Keeps.refl
    | intro _
    | with_reducible assumption
    | (fail_if_no_progress extract_lets +onlyGivenNames x
       first | (refine Keeps.hyp x ?_ (fun _ => ?_); subst x; rotate_left; clear_value x; rotate_left) | clear_value x)
    | with_reducible apply keeps_coldWipe
    | with_reducible apply keeps_State_wr
    | with_reducible apply keeps_State_emit
    | with_reducible apply keeps_State_count
    | with_reducible apply keeps_twinLanesBoot
    | with_reducible apply keeps_repairsApply
    | with_reducible apply keeps_modeEvent
    | fail_if_no_progress (with_reducible apply Keeps.mk')

theorem keeps_scribesStart (s : State) {r0 : State} (hr : Keeps r0 s) : Keeps r0 (scribesStart s) := by
  refine Keeps.trans hr ?_
  clear hr
  unfold scribesStart
  repeat' first
    | with_reducible apply Keeps.refl
    | intro _
    | with_reducible assumption
    | (fail_if_no_progress extract_lets +onlyGivenNames x
       first | (refine Keeps.hyp x ?_ (fun _ => ?_); subst x; rotate_left; clear_value x; rotate_left) | clear_value x)
    | with_reducible apply keeps_scribeStart
    | with_reducible apply keeps_scribeServe
    | with_reducible apply keeps_spareGoes
    | with_reducible refine Keeps.ofPair (by assumption) ?_
    | with_reducible apply Keeps.foldl
    | with_reducible apply Keeps.foldlPair
    | with_reducible apply Keeps.ite
    | fail_if_no_progress (with_reducible apply Keeps.mk')
    | split

theorem keeps_windowStart (s : State) {r0 : State} (hr : Keeps r0 s) : Keeps r0 (windowStart s) := by
  refine Keeps.trans hr ?_
  clear hr
  unfold windowStart
  repeat' first
    | with_reducible apply Keeps.refl
    | intro _
    | with_reducible assumption
    | (fail_if_no_progress extract_lets +onlyGivenNames x
       first | (refine Keeps.hyp x ?_ (fun _ => ?_); subst x; rotate_left; clear_value x; rotate_left) | clear_value x)
    | with_reducible apply Keeps.ite
    | fail_if_no_progress (with_reducible apply Keeps.mk')

theorem keeps_codesTrain (s : State) (pc : Nat) {r0 : State} (hr : Keeps r0 s) : Keeps r0 (codesTrain s pc) := by
  refine Keeps.trans hr ?_
  clear hr
  unfold codesTrain
  repeat' first
    | with_reducible apply Keeps.refl
    | intro _
    | with_reducible assumption
    | with_reducible apply keeps_State_spend
    | with_reducible refine Keeps.ofPair (by assumption) ?_
    | with_reducible apply Keeps.ite
    | fail_if_no_progress (with_reducible apply Keeps.mk')

theorem keeps_codesStart (s : State) {r0 : State} (hr : Keeps r0 s) : Keeps r0 (codesStart s) := by
  refine Keeps.trans hr ?_
  clear hr
  unfold codesStart
  repeat' first
    | with_reducible apply Keeps.refl
    | intro _
    | with_reducible assumption
    | with_reducible apply keeps_codesTrain
    | with_reducible refine Keeps.ofPair (by assumption) ?_
    | with_reducible apply Keeps.foldl
    | with_reducible apply Keeps.foldlPair
    | with_reducible apply Keeps.ite
    | fail_if_no_progress (with_reducible apply Keeps.mk')
    | split

theorem keeps_stacksTrain (s : State) {r0 : State} (hr : Keeps r0 s) : Keeps r0 (stacksTrain s) := by
  refine Keeps.trans hr ?_
  clear hr
  unfold stacksTrain
  repeat' first
    | with_reducible apply Keeps.refl
    | intro _
    | with_reducible assumption
    | (fail_if_no_progress extract_lets +onlyGivenNames x
       first | (refine Keeps.hyp x ?_ (fun _ => ?_); subst x; rotate_left; clear_value x; rotate_left) | clear_value x)
    | with_reducible apply keeps_lanesFix
    | with_reducible apply keeps_codesStart
    | with_reducible apply keeps_State_wr
    | with_reducible refine Keeps.ofPair (by assumption) ?_
    | with_reducible apply Keeps.ite
    | fail_if_no_progress (with_reducible apply Keeps.mk')
    | split

theorem keeps_reloadDone (s : State) {r0 : State} (hr : Keeps r0 s) : Keeps r0 (reloadDone s) := by
  refine Keeps.trans hr ?_
  clear hr
  unfold reloadDone
  repeat' first
    | with_reducible apply Keeps.refl
    | intro _
    | with_reducible assumption
    | (fail_if_no_progress extract_lets +onlyGivenNames x
       first | (refine Keeps.hyp x ?_ (fun _ => ?_); subst x; rotate_left; clear_value x; rotate_left) | clear_value x)
    | with_reducible apply keeps_bootRun
    | with_reducible apply keeps_stacksTrain
    | with_reducible apply keeps_State_wrb
    | with_reducible apply keeps_groupsWake
    | with_reducible apply keeps_scribesStart
    | with_reducible apply keeps_windowStart
    | with_reducible apply keeps_reloadPair
    | with_reducible refine Keeps.ofPair (by assumption) ?_
    | with_reducible apply Keeps.ite
    | fail_if_no_progress (with_reducible apply Keeps.mk')
    | split

end Sys2Proof.Laws
end

