-- ==== Sys2Proof/Laws/KeepUpdate.lean ====
section
/-! SUPPORT. `Keeps` of every operation of Machine/Update.lean. -/

namespace Sys2Proof.Laws

open Sys2Proof.Machine

set_option linter.unusedTactic false
set_option linter.unreachableTactic false
set_option linter.tactic.unusedName false

theorem keeps_setBegin (s : State) (job : Nat × List Byte) {r0 : State} (hr : Keeps r0 s) : Keeps r0 (setBegin s job) := by
  refine Keeps.trans hr ?_
  clear hr
  unfold setBegin
  repeat' first
    | with_reducible apply Keeps.refl
    | intro _
    | with_reducible assumption
    | (fail_if_no_progress extract_lets +onlyGivenNames x
       first | (refine Keeps.hyp x ?_ (fun _ => ?_); subst x; rotate_left; clear_value x; rotate_left) | clear_value x)
    | with_reducible apply keeps_State_wr
    | with_reducible apply keeps_flashRefuse
    | with_reducible apply Keeps.ite
    | fail_if_no_progress (with_reducible apply Keeps.mk')

theorem keeps_setSave (s : State) {r0 : State} (hr : Keeps r0 s) : Keeps r0 (setSave s) := by
  refine Keeps.trans hr ?_
  clear hr
  unfold setSave
  repeat' first
    | with_reducible apply Keeps.refl
    | intro _
    | with_reducible assumption
    | (fail_if_no_progress extract_lets +onlyGivenNames x
       first | (refine Keeps.hyp x ?_ (fun _ => ?_); subst x; rotate_left; clear_value x; rotate_left) | clear_value x)
    | with_reducible apply keeps_setBegin
    | with_reducible apply Keeps.ite

theorem keeps_setWrite (s : State) {r0 : State} (hr : Keeps r0 s) : Keeps r0 (setWrite s) := by
  refine Keeps.trans hr ?_
  clear hr
  unfold setWrite
  repeat' first
    | with_reducible apply Keeps.refl
    | intro _
    | with_reducible assumption
    | (fail_if_no_progress extract_lets +onlyGivenNames x
       first | (refine Keeps.hyp x ?_ (fun _ => ?_); subst x; rotate_left; clear_value x; rotate_left) | clear_value x)
    | with_reducible apply keeps_setBegin
    | with_reducible apply keeps_State_wr
    | with_reducible apply Keeps.ite

theorem keeps_setClear (s : State) {r0 : State} (hr : Keeps r0 s) : Keeps r0 (setClear s) := by
  refine Keeps.trans hr ?_
  clear hr
  unfold setClear
  repeat' first
    | with_reducible apply Keeps.refl
    | intro _
    | with_reducible apply keeps_setBegin
    | with_reducible apply Keeps.ite

theorem keeps_setDone (s : State) {r0 : State} (hr : Keeps r0 s) : Keeps r0 (setDone s) := by
  unfold setDone
  split
  · exact hr
  · refine Keeps.ite hr (Keeps.ite (keeps_flashRefuse _ _ (Keeps.mk' hr))
      (keeps_State_wr _ _ _ _ (keeps_State_wr _ _ _ _ (Keeps.mk' (Keeps.ite (Keeps.mk' hr) ?_)))))
    exact Keeps.mkMem hr (fun h => mem_wf_write _ _ (mem_wf_filter _ h))

theorem keeps_setUpdErr (s : State) (e : Nat) {r0 : State} (hr : Keeps r0 s) : Keeps r0 (setUpdErr s e) := by
  refine Keeps.trans hr ?_
  clear hr
  unfold setUpdErr
  repeat' first
    | with_reducible apply Keeps.refl
    | intro _
    | with_reducible apply keeps_State_wr

theorem keeps_linkOne (s : State) (k : Nat) (rtype : Nat) (body : List Byte) {r0 : State} (hr : Keeps r0 s) : Keeps r0 (linkOne s k rtype body) := by
  refine Keeps.trans hr ?_
  clear hr
  unfold linkOne
  repeat' first
    | with_reducible apply Keeps.refl
    | intro _
    | with_reducible apply keeps_ringOut
    | with_reducible apply keeps_nextRseq

theorem keeps_xferFrame (s : State) (k : Nat) (x2 : Sender) (rtype : Nat) (body : List Byte) (ask : Bool) {r0 : State} (hr : Keeps r0 s) : Keeps r0 (xferFrame s k x2 rtype body ask) := by
  refine Keeps.trans hr ?_
  clear hr
  unfold xferFrame
  repeat' first
    | with_reducible apply Keeps.refl
    | intro _
    | with_reducible assumption
    | (fail_if_no_progress extract_lets +onlyGivenNames x
       first | (refine Keeps.hyp x ?_ (fun _ => ?_); subst x; rotate_left; clear_value x; rotate_left) | clear_value x)
    | with_reducible apply keeps_linkOne
    | with_reducible apply Keeps.ite
    | fail_if_no_progress (with_reducible apply Keeps.mk')

theorem keeps_offer (s : State) (k : Nat) (base : Nat) {r0 : State} (hr : Keeps r0 s) : Keeps r0 (offer s k base) := by
  refine Keeps.trans hr ?_
  clear hr
  unfold offer
  repeat' first
    | with_reducible apply Keeps.refl
    | intro _
    | with_reducible assumption
    | (fail_if_no_progress extract_lets +onlyGivenNames x
       first | (refine Keeps.hyp x ?_ (fun _ => ?_); subst x; rotate_left; clear_value x; rotate_left) | clear_value x)
    | with_reducible apply keeps_xferFrame
    | with_reducible apply Keeps.ite
    | fail_if_no_progress (with_reducible apply Keeps.mk')

theorem keeps_dataSend (s : State) (k : Nat) {r0 : State} (hr : Keeps r0 s) : Keeps r0 (dataSend s k) := by
  refine Keeps.trans hr ?_
  clear hr
  unfold dataSend
  repeat' first
    | with_reducible apply Keeps.refl
    | intro _
    | with_reducible assumption
    | (fail_if_no_progress extract_lets +onlyGivenNames x
       first | (refine Keeps.hyp x ?_ (fun _ => ?_); subst x; rotate_left; clear_value x; rotate_left) | clear_value x)
    | with_reducible apply keeps_xferFrame
    | with_reducible refine Keeps.ofPair (by assumption) ?_
    | with_reducible apply Keeps.ite
    | fail_if_no_progress (with_reducible apply Keeps.mk')
    | split

theorem keeps_sendEnd (s : State) (k : Nat) {r0 : State} (hr : Keeps r0 s) : Keeps r0 (sendEnd s k) := by
  refine Keeps.trans hr ?_
  clear hr
  unfold sendEnd
  repeat' first
    | with_reducible apply Keeps.refl
    | intro _
    | with_reducible assumption
    | (fail_if_no_progress extract_lets +onlyGivenNames x
       first | (refine Keeps.hyp x ?_ (fun _ => ?_); subst x; rotate_left; clear_value x; rotate_left) | clear_value x)
    | fail_if_no_progress (with_reducible apply Keeps.mk')

theorem keeps_ackGot (s : State) (k : Nat) (id : Nat) (code : Nat) (err : Nat) (block : Nat) (missing : Nat) {r0 : State} (hr : Keeps r0 s) : Keeps r0 (ackGot s k id code err block missing) := by
  refine Keeps.trans hr ?_
  clear hr
  unfold ackGot
  repeat' first
    | with_reducible apply Keeps.refl
    | intro _
    | with_reducible assumption
    | (fail_if_no_progress extract_lets +onlyGivenNames x
       first | (refine Keeps.hyp x ?_ (fun _ => ?_); subst x; rotate_left; clear_value x; rotate_left) | subst x)
    | with_reducible apply keeps_sendEnd
    | with_reducible apply keeps_setUpdErr
    | with_reducible refine Keeps.ofPair (by assumption) ?_
    | with_reducible apply Keeps.ite
    | fail_if_no_progress (with_reducible apply Keeps.mk')
    | split

theorem keeps_ackTimeout (s : State) (k : Nat) {r0 : State} (hr : Keeps r0 s) : Keeps r0 (ackTimeout s k) := by
  refine Keeps.trans hr ?_
  clear hr
  unfold ackTimeout
  repeat' first
    | with_reducible apply Keeps.refl
    | intro _
    | with_reducible assumption
    | (fail_if_no_progress extract_lets +onlyGivenNames x
       first | (refine Keeps.hyp x ?_ (fun _ => ?_); subst x; rotate_left; clear_value x; rotate_left) | clear_value x)
    | with_reducible apply keeps_setUpdErr
    | with_reducible apply keeps_sendEnd
    | with_reducible apply keeps_xferFrame
    | with_reducible refine Keeps.ofPair (by assumption) ?_
    | with_reducible apply Keeps.ite
    | fail_if_no_progress (with_reducible apply Keeps.mk')
    | split

theorem keeps_ackSend (s : State) (k : Nat) (id : Nat) (code : Nat) (err : Nat) (block : Nat) (missing : Nat) {r0 : State} (hr : Keeps r0 s) : Keeps r0 (ackSend s k id code err block missing) := by
  refine Keeps.trans hr ?_
  clear hr
  unfold ackSend
  repeat' first
    | with_reducible apply Keeps.refl
    | intro _
    | with_reducible apply keeps_linkOne
    | with_reducible apply Keeps.ite

theorem keeps_offerGot (s : State) (k : Nat) (id : Nat) (h : List Byte) {r0 : State} (hr : Keeps r0 s) : Keeps r0 (offerGot s k id h) := by
  refine Keeps.trans hr ?_
  clear hr
  unfold offerGot
  repeat' first
    | with_reducible apply Keeps.refl
    | intro _
    | with_reducible assumption
    | (fail_if_no_progress extract_lets +onlyGivenNames x
       first | (refine Keeps.hyp x ?_ (fun _ => ?_); subst x; rotate_left; clear_value x; rotate_left) | clear_value x)
    | with_reducible apply keeps_ackSend
    | with_reducible apply keeps_offer
    | with_reducible apply keeps_State_wr
    | with_reducible refine Keeps.ofPair (by assumption) ?_
    | with_reducible apply Keeps.ite
    | fail_if_no_progress (with_reducible apply Keeps.mk')
    | split

theorem keeps_dataGot (s : State) (k : Nat) (id : Nat) (block : Nat) (seg : Nat) (data : List Byte) {r0 : State} (hr : Keeps r0 s) : Keeps r0 (dataGot s k id block seg data) := by
  refine Keeps.trans hr ?_
  clear hr
  unfold dataGot
  repeat' first
    | with_reducible apply Keeps.refl
    | intro _
    | with_reducible assumption
    | (fail_if_no_progress extract_lets +onlyGivenNames x
       first | (refine Keeps.hyp x ?_ (fun _ => ?_); subst x; rotate_left; clear_value x; rotate_left) | clear_value x)
    | with_reducible apply keeps_State_pokeList
    | with_reducible apply keeps_State_wr
    | with_reducible apply keeps_ackSend
    | with_reducible apply Keeps.foldl
    | with_reducible apply Keeps.foldlPair
    | with_reducible refine Keeps.ofPair (by assumption) ?_
    | with_reducible apply Keeps.ite
    | fail_if_no_progress (with_reducible apply Keeps.mk')
    | split

theorem keeps_stageBegin (s : State) {r0 : State} (hr : Keeps r0 s) : Keeps r0 (stageBegin s) := by
  refine Keeps.trans hr ?_
  clear hr
  unfold stageBegin
  repeat' first
    | with_reducible apply Keeps.refl
    | intro _
    | with_reducible assumption
    | (fail_if_no_progress extract_lets +onlyGivenNames x
       first | (refine Keeps.hyp x ?_ (fun _ => ?_); subst x; rotate_left; clear_value x; rotate_left) | clear_value x)
    | with_reducible apply keeps_State_wr
    | with_reducible apply keeps_flashRefuse
    | with_reducible apply Keeps.ite
    | fail_if_no_progress (with_reducible apply Keeps.mk')

theorem keeps_firstHalf (s : State) (base : Nat) {r0 : State} (hr : Keeps r0 s) : Keeps r0 (firstHalf s base) := by
  refine Keeps.trans hr ?_
  clear hr
  unfold firstHalf
  repeat' first
    | with_reducible apply Keeps.refl
    | intro _
    | with_reducible assumption
    | (fail_if_no_progress extract_lets +onlyGivenNames x
       first | (refine Keeps.hyp x ?_ (fun _ => ?_); subst x; rotate_left; clear_value x; rotate_left) | clear_value x)
    | with_reducible apply keeps_imgCopy
    | with_reducible apply keeps_recStore
    | with_reducible refine Keeps.ofPair (by assumption) ?_
    | with_reducible apply Keeps.ite
    | fail_if_no_progress (with_reducible apply Keeps.mk')

theorem keeps_verifyDone (s : State) {r0 : State} (hr : Keeps r0 s) : Keeps r0 (verifyDone s) := by
  refine Keeps.trans hr ?_
  clear hr
  unfold verifyDone
  repeat' first
    | with_reducible apply Keeps.refl
    | intro _
    | with_reducible assumption
    | (fail_if_no_progress extract_lets +onlyGivenNames x
       first | (refine Keeps.hyp x ?_ (fun _ => ?_); subst x; rotate_left; clear_value x; rotate_left) | clear_value x)
    | with_reducible apply keeps_setUpdErr
    | with_reducible apply keeps_offer
    | with_reducible apply keeps_ackSend
    | with_reducible apply keeps_imageStart
    | with_reducible apply keeps_firstHalf
    | with_reducible apply keeps_flashRefuse
    | with_reducible apply keeps_stageBegin
    | with_reducible apply keeps_showStage
    | with_reducible refine Keeps.ofPair (by assumption) ?_
    | with_reducible apply Keeps.ite
    | fail_if_no_progress (with_reducible apply Keeps.mk')
    | split

theorem keeps_stageDone (s : State) (same : Bool) {r0 : State} (hr : Keeps r0 s) : Keeps r0 (stageDone s same) := by
  unfold stageDone
  refine Keeps.ite hr (Keeps.ite (Keeps.ite hr (keeps_flashRefuse _ _ (keeps_State_wr _ _ _ _ hr))) (Keeps.ite ?_ ?_))
  · exact keeps_State_wr _ _ _ _ (keeps_State_wr _ _ _ _ (keeps_imgCopy _ _ _ _ (Keeps.mk' hr)))
  · exact keeps_setUpdErr _ _ (keeps_State_wr _ _ _ _ (keeps_State_wr _ _ _ _ (Keeps.mkMem (Keeps.mk' hr) (mem_wf_filter _))))

theorem keeps_updLoad (s : State) {r0 : State} (hr : Keeps r0 s) : Keeps r0 (updLoad s) := by
  refine Keeps.trans hr ?_
  clear hr
  unfold updLoad
  repeat' first
    | with_reducible apply Keeps.refl
    | intro _
    | with_reducible assumption
    | (fail_if_no_progress extract_lets +onlyGivenNames x
       first | (refine Keeps.hyp x ?_ (fun _ => ?_); subst x; rotate_left; clear_value x; rotate_left) | clear_value x)
    | with_reducible apply keeps_State_pokeList
    | with_reducible apply keeps_State_wr
    | with_reducible apply keeps_setUpdErr
    | with_reducible apply Keeps.ite
    | fail_if_no_progress (with_reducible apply Keeps.mk')

theorem keeps_updArm (s : State) {r0 : State} (hr : Keeps r0 s) : Keeps r0 (updArm s) := by
  refine Keeps.trans hr ?_
  clear hr
  unfold updArm
  repeat' first
    | with_reducible apply Keeps.refl
    | intro _
    | with_reducible assumption
    | (fail_if_no_progress extract_lets +onlyGivenNames x
       first | (refine Keeps.hyp x ?_ (fun _ => ?_); subst x; rotate_left; clear_value x; rotate_left) | clear_value x)
    | with_reducible apply keeps_setUpdErr
    | with_reducible apply keeps_flashRefuse
    | with_reducible apply Keeps.ite
    | fail_if_no_progress (with_reducible apply Keeps.mk')

theorem keeps_armDone (s : State) {r0 : State} (hr : Keeps r0 s) : Keeps r0 (armDone s) := by
  unfold armDone
  exact Keeps.ite hr (Keeps.ite (Keeps.ite hr (keeps_flashRefuse _ _ (keeps_setUpdErr _ _ hr)))
    (keeps_State_wr _ _ _ _ (keeps_recStore _ _ (keeps_setUpdErr _ _ (Keeps.mkMem hr (mem_wf_filter _))))))

theorem keeps_updDisarm (s : State) {r0 : State} (hr : Keeps r0 s) : Keeps r0 (updDisarm s) := by
  refine Keeps.trans hr ?_
  clear hr
  unfold updDisarm
  repeat' first
    | with_reducible apply Keeps.refl
    | intro _
    | with_reducible assumption
    | (fail_if_no_progress extract_lets +onlyGivenNames x
       first | (refine Keeps.hyp x ?_ (fun _ => ?_); subst x; rotate_left; clear_value x; rotate_left) | clear_value x)
    | with_reducible apply keeps_State_wr
    | with_reducible apply keeps_recWrite
    | with_reducible apply Keeps.ite
    | fail_if_no_progress (with_reducible apply Keeps.mk')

theorem keeps_confirm (s : State) {r0 : State} (hr : Keeps r0 s) : Keeps r0 (confirm s) := by
  refine Keeps.trans hr ?_
  clear hr
  unfold confirm
  repeat' first
    | with_reducible apply Keeps.refl
    | intro _
    | with_reducible assumption
    | (fail_if_no_progress extract_lets +onlyGivenNames x
       first | (refine Keeps.hyp x ?_ (fun _ => ?_); subst x; rotate_left; clear_value x; rotate_left) | clear_value x)
    | with_reducible apply keeps_State_wr
    | with_reducible apply keeps_recWrite
    | with_reducible apply Keeps.ite
    | fail_if_no_progress (with_reducible apply Keeps.mk')

theorem keeps_updConfirm (s : State) {r0 : State} (hr : Keeps r0 s) : Keeps r0 (updConfirm s) := by
  refine Keeps.trans hr ?_
  clear hr
  unfold updConfirm
  repeat' first
    | with_reducible apply Keeps.refl
    | intro _
    | with_reducible apply keeps_confirm
    | with_reducible apply Keeps.ite

theorem keeps_imageConfirm (s : State) {r0 : State} (hr : Keeps r0 s) : Keeps r0 (imageConfirm s) := by
  refine Keeps.trans hr ?_
  clear hr
  unfold imageConfirm
  repeat' first
    | with_reducible apply Keeps.refl
    | intro _
    | with_reducible apply keeps_confirm
    | with_reducible apply Keeps.ite

theorem keeps_confirmExpire (s : State) {r0 : State} (hr : Keeps r0 s) : Keeps r0 (confirmExpire s) := by
  refine Keeps.trans hr ?_
  clear hr
  unfold confirmExpire
  repeat' first
    | with_reducible apply Keeps.refl
    | intro _
    | with_reducible assumption
    | (fail_if_no_progress extract_lets +onlyGivenNames x
       first | (refine Keeps.hyp x ?_ (fun _ => ?_); subst x; rotate_left; clear_value x; rotate_left) | clear_value x)
    | with_reducible apply keeps_State_wr
    | with_reducible apply keeps_recWrite
    | with_reducible apply keeps_State_event
    | with_reducible refine Keeps.ofPair (by assumption) ?_
    | with_reducible apply Keeps.ite
    | fail_if_no_progress (with_reducible apply Keeps.mk')
    | split

theorem keeps_updForward (s : State) (ports : Nat) {r0 : State} (hr : Keeps r0 s) : Keeps r0 (updForward s ports) := by
  refine Keeps.trans hr ?_
  clear hr
  unfold updForward
  repeat' first
    | with_reducible apply Keeps.refl
    | intro _
    | with_reducible assumption
    | (fail_if_no_progress extract_lets +onlyGivenNames x
       first | (refine Keeps.hyp x ?_ (fun _ => ?_); subst x; rotate_left; clear_value x; rotate_left) | clear_value x)
    | with_reducible apply keeps_offer
    | with_reducible apply Keeps.ite

theorem keeps_updAbort (s : State) {r0 : State} (hr : Keeps r0 s) : Keeps r0 (updAbort s) := by
  refine Keeps.trans hr ?_
  clear hr
  unfold updAbort
  repeat' first
    | with_reducible apply Keeps.refl
    | intro _
    | with_reducible assumption
    | (fail_if_no_progress extract_lets +onlyGivenNames x
       first | (refine Keeps.hyp x ?_ (fun _ => ?_); subst x; rotate_left; clear_value x; rotate_left) | clear_value x)
    | with_reducible apply keeps_setUpdErr
    | with_reducible apply keeps_showStage
    | with_reducible apply Keeps.ite
    | fail_if_no_progress (with_reducible apply Keeps.mk')

theorem keeps_levelsSend (s : State) (k : Nat) {r0 : State} (hr : Keeps r0 s) : Keeps r0 (levelsSend s k) := by
  refine Keeps.trans hr ?_
  clear hr
  unfold levelsSend
  repeat' first
    | with_reducible apply Keeps.refl
    | intro _
    | with_reducible apply keeps_linkOne
    | with_reducible apply Keeps.ite

theorem keeps_peerTake (s : State) (i : Nat) (lv : Nat) (ver : Nat) {r0 : State} (hr : Keeps r0 s) : Keeps r0 (peerTake s i lv ver) := by
  refine Keeps.trans hr ?_
  clear hr
  unfold peerTake
  repeat' first
    | with_reducible apply Keeps.refl
    | intro _
    | with_reducible assumption
    | (fail_if_no_progress extract_lets +onlyGivenNames x
       first | (refine Keeps.hyp x ?_ (fun _ => ?_); subst x; rotate_left; clear_value x; rotate_left) | clear_value x)
    | with_reducible apply keeps_State_wr
    | fail_if_no_progress (with_reducible apply Keeps.mk')

theorem keeps_twinLevelSend (s : State) {r0 : State} (hr : Keeps r0 s) : Keeps r0 (twinLevelSend s) := by
  refine Keeps.trans hr ?_
  clear hr
  unfold twinLevelSend
  repeat' first
    | with_reducible apply Keeps.refl
    | intro _
    | with_reducible assumption
    | (fail_if_no_progress extract_lets +onlyGivenNames x
       first | (refine Keeps.hyp x ?_ (fun _ => ?_); subst x; rotate_left; clear_value x; rotate_left) | clear_value x)
    | with_reducible apply keeps_twinSet

theorem keeps_twinLevelGot (s : State) (f : Nat) {r0 : State} (hr : Keeps r0 s) : Keeps r0 (twinLevelGot s f) := by
  refine Keeps.trans hr ?_
  clear hr
  unfold twinLevelGot
  repeat' first
    | with_reducible apply Keeps.refl
    | intro _
    | with_reducible apply keeps_peerTake

theorem keeps_flashRestore (s : State) {r0 : State} (hr : Keeps r0 s) : Keeps r0 (flashRestore s) := by
  refine Keeps.trans hr ?_
  clear hr
  unfold flashRestore
  repeat' first
    | with_reducible apply Keeps.refl
    | intro _
    | with_reducible assumption
    | (fail_if_no_progress extract_lets +onlyGivenNames x
       first | (refine Keeps.hyp x ?_ (fun _ => ?_); subst x; rotate_left; clear_value x; rotate_left) | clear_value x)
    | with_reducible apply keeps_flashUpdate
    | with_reducible apply keeps_recStore
    | with_reducible apply keeps_firstHalf
    | with_reducible apply keeps_State_wr
    | with_reducible refine Keeps.ofPair (by assumption) ?_
    | with_reducible apply Keeps.ite
    | fail_if_no_progress (with_reducible apply Keeps.mk')
    | split

end Sys2Proof.Laws
end

