-- ==== Sys2Proof/Laws/KeepStartup.lean ====
section
/-! SUPPORT. `Keeps` of every operation of Machine/Startup.lean. -/

namespace Sys2Proof.Laws

open Sys2Proof.Machine

set_option linter.unusedTactic false
set_option linter.unreachableTactic false
set_option linter.tactic.unusedName false

theorem keeps_trip (s : State) (src : Nat) {r0 : State} (hr : Keeps r0 s) : Keeps r0 (trip s src) := by
  unfold trip
  extract_lets d old epoch z fl z1 z2 z3 md z4
  refine Keeps.ite hr ?_
  have hz : Keeps r0 z := keeps_quench _ _ _ hr
  clear_value z
  have h1 : Keeps r0 z1 :=
    hz.trans ⟨rfl, Nat.le_refl _, Nat.le_refl _, List.suffix_refl _, id, sorted_foldl_put _ _ _, id, id⟩
  clear_value z1
  have h3 : Keeps r0 z3 :=
    keeps_State_wr _ _ _ _ (keeps_State_wr _ _ _ _ (keeps_State_wr _ _ _ _ (keeps_State_wr _ _ _ _ (keeps_State_count _ _ _ _ h1))))
  clear_value z3
  exact keeps_State_emit _ _ (Keeps.mk' h3)

theorem keeps_excursion (s : State) (rail : Nat) (mv : Nat) {r0 : State} (hr : Keeps r0 s) : Keeps r0 (excursion s rail mv) := by
  refine Keeps.trans hr ?_
  clear hr
  unfold excursion
  repeat' first
    | with_reducible apply Keeps.refl
    | intro _
    | with_reducible assumption
    | (fail_if_no_progress extract_lets +onlyGivenNames x
       first | (refine Keeps.hyp x ?_ (fun _ => ?_); subst x; rotate_left; clear_value x; rotate_left) | clear_value x)
    | with_reducible apply keeps_State_wr
    | with_reducible apply keeps_flashUpdate
    | with_reducible apply keeps_State_event
    | with_reducible apply Keeps.ite
    | fail_if_no_progress (with_reducible apply Keeps.mk')

theorem keeps_railLost (s : State) (rail : Nat) {r0 : State} (hr : Keeps r0 s) : Keeps r0 (railLost s rail) := by
  refine Keeps.trans hr ?_
  clear hr
  unfold railLost
  repeat' first
    | with_reducible apply Keeps.refl
    | intro _
    | with_reducible assumption
    | (fail_if_no_progress extract_lets +onlyGivenNames x
       first | (refine Keeps.hyp x ?_ (fun _ => ?_); subst x; rotate_left; clear_value x; rotate_left) | clear_value x)
    | with_reducible apply keeps_coldWipe
    | with_reducible apply keeps_State_wr
    | with_reducible apply Keeps.foldl
    | with_reducible apply Keeps.foldlPair
    | with_reducible apply Keeps.ite
    | fail_if_no_progress (with_reducible apply Keeps.mk')

theorem keeps_State_cool (s : State) {r0 : State} (hr : Keeps r0 s) : Keeps r0 (State.cool s) := by
  refine Keeps.trans hr ?_
  clear hr
  unfold State.cool
  repeat' first
    | with_reducible apply Keeps.refl
    | intro _
    | with_reducible assumption
    | (fail_if_no_progress extract_lets +onlyGivenNames x
       first | (refine Keeps.hyp x ?_ (fun _ => ?_); subst x; rotate_left; clear_value x; rotate_left) | clear_value x)
    | with_reducible apply keeps_warmBegin
    | with_reducible apply Keeps.ite
    | fail_if_no_progress (with_reducible apply Keeps.mk')

theorem keeps_handAbandon (s : State) {r0 : State} (hr : Keeps r0 s) : Keeps r0 (handAbandon s) := by
  refine Keeps.trans hr ?_
  clear hr
  unfold handAbandon
  repeat' first
    | with_reducible apply Keeps.refl
    | intro _
    | with_reducible assumption
    | (fail_if_no_progress extract_lets +onlyGivenNames x
       first | (refine Keeps.hyp x ?_ (fun _ => ?_); subst x; rotate_left; clear_value x; rotate_left) | clear_value x)
    | with_reducible apply keeps_handDrop
    | with_reducible apply keeps_warmBegin
    | with_reducible apply keeps_twinFail
    | with_reducible apply keeps_dieWarned
    | with_reducible refine Keeps.ofPair (by assumption) ?_
    | with_reducible apply Keeps.ite
    | fail_if_no_progress (with_reducible apply Keeps.mk')
    | split

theorem keeps_handInstant (s : State) {r0 : State} (hr : Keeps r0 s) : Keeps r0 (handInstant s) := by
  refine Keeps.trans hr ?_
  clear hr
  unfold handInstant
  repeat' first
    | with_reducible apply Keeps.refl
    | intro _
    | with_reducible assumption
    | (fail_if_no_progress extract_lets +onlyGivenNames x
       first | (refine Keeps.hyp x ?_ (fun _ => ?_); subst x; rotate_left; clear_value x; rotate_left) | clear_value x)
    | with_reducible apply keeps_handOver
    | with_reducible apply keeps_warmBegin
    | with_reducible apply keeps_handAbandon
    | with_reducible refine Keeps.ofPair (by assumption) ?_
    | with_reducible apply Keeps.ite
    | fail_if_no_progress (with_reducible apply Keeps.mk')
    | split

theorem keeps_handCheck (s : State) {r0 : State} (hr : Keeps r0 s) : Keeps r0 (handCheck s) := by
  refine Keeps.trans hr ?_
  clear hr
  unfold handCheck
  repeat' first
    | with_reducible apply Keeps.refl
    | intro _
    | with_reducible assumption
    | with_reducible apply keeps_handAbandon
    | with_reducible apply keeps_handPlan
    | with_reducible refine Keeps.ofPair (by assumption) ?_
    | with_reducible apply Keeps.ite
    | fail_if_no_progress (with_reducible apply Keeps.mk')
    | split

theorem keeps_execColdStart (t : Nat) (s : State) {r0 : State} (hr : Keeps r0 s) : KeepsOut r0 (execColdStart t s) := by
  refine KeepsOut.trans hr ?_
  clear hr
  unfold execColdStart
  repeat' first
    | with_reducible apply Keeps.refl
    | intro _
    | with_reducible apply keeps_coldStart
    | with_reducible apply keeps_State_at
    | with_reducible apply KeepsOut.next

theorem keeps_execRstNAssert (t : Nat) (s : State) {r0 : State} (hr : Keeps r0 s) : KeepsOut r0 (execRstNAssert t s) := by
  refine KeepsOut.trans hr ?_
  clear hr
  unfold execRstNAssert
  repeat' first
    | with_reducible apply Keeps.refl
    | intro _
    | with_reducible apply keeps_coldWipe
    | with_reducible apply keeps_State_at
    | with_reducible apply KeepsOut.next

theorem keeps_execLxReset (t : Nat) (key : Nat) (s : State) {r0 : State} (hr : Keeps r0 s) : KeepsOut r0 (execLxReset t key s) := by
  refine KeepsOut.trans hr ?_
  clear hr
  unfold execLxReset
  repeat' first
    | with_reducible apply Keeps.refl
    | intro _
    | with_reducible assumption
    | (fail_if_no_progress extract_lets +onlyGivenNames x
       first | (refine KeepsOut.hyp x ?_ (fun _ => ?_); subst x; rotate_left; clear_value x; rotate_left) | clear_value x)
    | (fail_if_no_progress extract_lets +onlyGivenNames x
       first | (refine Keeps.hyp x ?_ (fun _ => ?_); subst x; rotate_left; clear_value x; rotate_left) | clear_value x)
    | with_reducible apply keeps_State_at
    | with_reducible apply keeps_resetAsk
    | with_reducible apply KeepsOut.next
    | with_reducible apply KeepsOut.ite
    | with_reducible apply KeepsOut.onEngine
    | with_reducible apply Keeps.ite

theorem keeps_execPePerstAssert (t : Nat) (s : State) {r0 : State} (hr : Keeps r0 s) : KeepsOut r0 (execPePerstAssert t s) := by
  refine KeepsOut.trans hr ?_
  clear hr
  unfold execPePerstAssert
  repeat' first
    | with_reducible apply Keeps.refl
    | intro _
    | with_reducible apply keeps_perst
    | with_reducible apply keeps_State_at
    | with_reducible apply KeepsOut.next

theorem keeps_execWatchdogExpiry (t : Nat) (s : State) {r0 : State} (hr : Keeps r0 s) : KeepsOut r0 (execWatchdogExpiry t s) := by
  refine KeepsOut.trans hr ?_
  clear hr
  unfold execWatchdogExpiry
  repeat' first
    | with_reducible apply Keeps.refl
    | intro _
    | with_reducible apply keeps_watchdog
    | with_reducible apply keeps_State_at
    | with_reducible apply KeepsOut.next

theorem keeps_execWarmResetAckWaitExpiry (t : Nat) (s : State) {r0 : State} (hr : Keeps r0 s) : KeepsOut r0 (execWarmResetAckWaitExpiry t s) := by
  refine KeepsOut.trans hr ?_
  clear hr
  unfold execWarmResetAckWaitExpiry
  repeat' first
    | with_reducible apply Keeps.refl
    | intro _
    | with_reducible apply keeps_warmWaited
    | with_reducible apply keeps_State_at
    | with_reducible apply KeepsOut.next

theorem keeps_execReloadEnd (t : Nat) (s : State) {r0 : State} (hr : Keeps r0 s) : KeepsOut r0 (execReloadEnd t s) := by
  refine KeepsOut.trans hr ?_
  clear hr
  unfold execReloadEnd
  repeat' first
    | with_reducible apply Keeps.refl
    | intro _
    | with_reducible assumption
    | with_reducible apply keeps_reloadDone
    | with_reducible apply keeps_State_at
    | with_reducible apply keeps_settle
    | with_reducible apply keeps_State_settle
    | with_reducible apply KeepsOut.next
    | with_reducible apply KeepsOut.onEngine
    | with_reducible apply KeepsOut.ite
    | with_reducible refine Keeps.ofPair (by assumption) ?_
    | with_reducible apply Keeps.ite
    | fail_if_no_progress (with_reducible apply Keeps.mk')

theorem keeps_execHandoverInstant (t : Nat) (s : State) {r0 : State} (hr : Keeps r0 s) : KeepsOut r0 (execHandoverInstant t s) := by
  refine KeepsOut.trans hr ?_
  clear hr
  unfold execHandoverInstant
  repeat' first
    | with_reducible apply Keeps.refl
    | intro _
    | with_reducible apply keeps_State_settle
    | with_reducible apply keeps_handInstant
    | with_reducible apply keeps_State_at
    | with_reducible apply KeepsOut.next

theorem keeps_execHardwareTrip (t : Nat) (src : Nat) (s : State) {r0 : State} (hr : Keeps r0 s) : KeepsOut r0 (execHardwareTrip t src s) := by
  refine KeepsOut.trans hr ?_
  clear hr
  unfold execHardwareTrip
  repeat' first
    | with_reducible apply Keeps.refl
    | intro _
    | with_reducible apply keeps_trip
    | with_reducible apply keeps_State_at
    | with_reducible apply KeepsOut.next

theorem keeps_execFlashOkRestore (t : Nat) (s : State) {r0 : State} (hr : Keeps r0 s) : KeepsOut r0 (execFlashOkRestore t s) := by
  refine KeepsOut.trans hr ?_
  clear hr
  unfold execFlashOkRestore
  repeat' first
    | with_reducible apply Keeps.refl
    | intro _
    | with_reducible apply keeps_flashRestore
    | with_reducible apply keeps_State_at
    | with_reducible apply KeepsOut.next

theorem keeps_execSupplyExcursion (t : Nat) (rail : Nat) (mv : Nat) (s : State) {r0 : State} (hr : Keeps r0 s) : KeepsOut r0 (execSupplyExcursion t rail mv s) := by
  refine KeepsOut.trans hr ?_
  clear hr
  unfold execSupplyExcursion
  repeat' first
    | with_reducible apply Keeps.refl
    | intro _
    | with_reducible apply keeps_excursion
    | with_reducible apply keeps_State_at
    | with_reducible apply KeepsOut.next

theorem keeps_execSupplyOutOfRange (t : Nat) (rail : Nat) (s : State) {r0 : State} (hr : Keeps r0 s) : KeepsOut r0 (execSupplyOutOfRange t rail s) := by
  refine KeepsOut.trans hr ?_
  clear hr
  unfold execSupplyOutOfRange
  repeat' first
    | with_reducible apply Keeps.refl
    | intro _
    | with_reducible apply keeps_railLost
    | with_reducible apply keeps_State_at
    | with_reducible apply KeepsOut.next

theorem keeps_execLimLock (t : Nat) (s : State) {r0 : State} (hr : Keeps r0 s) : KeepsOut r0 (execLimLock t s) := by
  refine KeepsOut.trans hr ?_
  clear hr
  unfold execLimLock
  repeat' first
    | with_reducible apply Keeps.refl
    | intro _
    | with_reducible assumption
    | (fail_if_no_progress extract_lets +onlyGivenNames x
       first | (refine KeepsOut.hyp x ?_ (fun _ => ?_); subst x; rotate_left; clear_value x; rotate_left) | clear_value x)
    | (fail_if_no_progress extract_lets +onlyGivenNames x
       first | (refine Keeps.hyp x ?_ (fun _ => ?_); subst x; rotate_left; clear_value x; rotate_left) | clear_value x)
    | with_reducible apply keeps_State_at
    | with_reducible apply keeps_State_wr
    | with_reducible apply KeepsOut.next
    | with_reducible apply KeepsOut.ite
    | with_reducible apply KeepsOut.onEngine
    | with_reducible apply Keeps.ite

theorem keeps_execCfgLock (t : Nat) (s : State) {r0 : State} (hr : Keeps r0 s) : KeepsOut r0 (execCfgLock t s) := by
  refine KeepsOut.trans hr ?_
  clear hr
  unfold execCfgLock
  repeat' first
    | with_reducible apply Keeps.refl
    | intro _
    | with_reducible assumption
    | (fail_if_no_progress extract_lets +onlyGivenNames x
       first | (refine KeepsOut.hyp x ?_ (fun _ => ?_); subst x; rotate_left; clear_value x; rotate_left) | clear_value x)
    | (fail_if_no_progress extract_lets +onlyGivenNames x
       first | (refine Keeps.hyp x ?_ (fun _ => ?_); subst x; rotate_left; clear_value x; rotate_left) | clear_value x)
    | with_reducible apply keeps_State_at
    | with_reducible apply keeps_State_wr
    | with_reducible apply KeepsOut.next
    | with_reducible apply KeepsOut.ite
    | with_reducible apply KeepsOut.onEngine
    | with_reducible apply Keeps.ite

theorem keeps_execSetSave (t : Nat) (s : State) {r0 : State} (hr : Keeps r0 s) : KeepsOut r0 (execSetSave t s) := by
  refine KeepsOut.trans hr ?_
  clear hr
  unfold execSetSave
  repeat' first
    | with_reducible apply Keeps.refl
    | intro _
    | with_reducible apply keeps_setSave
    | with_reducible apply keeps_State_at
    | with_reducible apply KeepsOut.next

theorem keeps_execSetWrite (t : Nat) (s : State) {r0 : State} (hr : Keeps r0 s) : KeepsOut r0 (execSetWrite t s) := by
  refine KeepsOut.trans hr ?_
  clear hr
  unfold execSetWrite
  repeat' first
    | with_reducible apply Keeps.refl
    | intro _
    | with_reducible apply keeps_setWrite
    | with_reducible apply keeps_State_at
    | with_reducible apply KeepsOut.next

theorem keeps_execSetClear (t : Nat) (s : State) {r0 : State} (hr : Keeps r0 s) : KeepsOut r0 (execSetClear t s) := by
  refine KeepsOut.trans hr ?_
  clear hr
  unfold execSetClear
  repeat' first
    | with_reducible apply Keeps.refl
    | intro _
    | with_reducible apply keeps_setClear
    | with_reducible apply keeps_State_at
    | with_reducible apply KeepsOut.next

theorem keeps_execSettingsWriteComplete (t : Nat) (s : State) {r0 : State} (hr : Keeps r0 s) : KeepsOut r0 (execSettingsWriteComplete t s) := by
  refine KeepsOut.trans hr ?_
  clear hr
  unfold execSettingsWriteComplete
  repeat' first
    | with_reducible apply Keeps.refl
    | intro _
    | with_reducible apply keeps_setDone
    | with_reducible apply keeps_State_at
    | with_reducible apply KeepsOut.next

theorem keeps_execUpdLoad (t : Nat) (s : State) {r0 : State} (hr : Keeps r0 s) : KeepsOut r0 (execUpdLoad t s) := by
  refine KeepsOut.trans hr ?_
  clear hr
  unfold execUpdLoad
  repeat' first
    | with_reducible apply Keeps.refl
    | intro _
    | with_reducible apply keeps_updLoad
    | with_reducible apply keeps_State_at
    | with_reducible apply KeepsOut.next

theorem keeps_execUpdArm (t : Nat) (s : State) {r0 : State} (hr : Keeps r0 s) : KeepsOut r0 (execUpdArm t s) := by
  refine KeepsOut.trans hr ?_
  clear hr
  unfold execUpdArm
  repeat' first
    | with_reducible apply Keeps.refl
    | intro _
    | with_reducible apply keeps_updArm
    | with_reducible apply keeps_State_at
    | with_reducible apply KeepsOut.next

theorem keeps_execUpdDisarm (t : Nat) (s : State) {r0 : State} (hr : Keeps r0 s) : KeepsOut r0 (execUpdDisarm t s) := by
  refine KeepsOut.trans hr ?_
  clear hr
  unfold execUpdDisarm
  repeat' first
    | with_reducible apply Keeps.refl
    | intro _
    | with_reducible apply keeps_updDisarm
    | with_reducible apply keeps_State_at
    | with_reducible apply KeepsOut.next

theorem keeps_execUpdConfirm (t : Nat) (s : State) {r0 : State} (hr : Keeps r0 s) : KeepsOut r0 (execUpdConfirm t s) := by
  refine KeepsOut.trans hr ?_
  clear hr
  unfold execUpdConfirm
  repeat' first
    | with_reducible apply Keeps.refl
    | intro _
    | with_reducible apply keeps_updConfirm
    | with_reducible apply keeps_State_at
    | with_reducible apply KeepsOut.next

theorem keeps_execUpdForward (t : Nat) (ports : Nat) (s : State) {r0 : State} (hr : Keeps r0 s) : KeepsOut r0 (execUpdForward t ports s) := by
  refine KeepsOut.trans hr ?_
  clear hr
  unfold execUpdForward
  repeat' first
    | with_reducible apply Keeps.refl
    | intro _
    | with_reducible apply keeps_updForward
    | with_reducible apply keeps_State_at
    | with_reducible apply KeepsOut.next

theorem keeps_execUpdAbort (t : Nat) (s : State) {r0 : State} (hr : Keeps r0 s) : KeepsOut r0 (execUpdAbort t s) := by
  refine KeepsOut.trans hr ?_
  clear hr
  unfold execUpdAbort
  repeat' first
    | with_reducible apply Keeps.refl
    | intro _
    | with_reducible apply keeps_updAbort
    | with_reducible apply keeps_State_at
    | with_reducible apply KeepsOut.next

theorem keeps_execArmComplete (t : Nat) (s : State) {r0 : State} (hr : Keeps r0 s) : KeepsOut r0 (execArmComplete t s) := by
  refine KeepsOut.trans hr ?_
  clear hr
  unfold execArmComplete
  repeat' first
    | with_reducible apply Keeps.refl
    | intro _
    | with_reducible apply keeps_armDone
    | with_reducible apply keeps_State_at
    | with_reducible apply KeepsOut.next

theorem keeps_execImgOffer (t : Nat) (port : Nat) (id : Nat) (header : List Byte) (s : State) {r0 : State} (hr : Keeps r0 s) : KeepsOut r0 (execImgOffer t port id header s) := by
  refine KeepsOut.trans hr ?_
  clear hr
  unfold execImgOffer
  repeat' first
    | with_reducible apply Keeps.refl
    | intro _
    | with_reducible apply keeps_offerGot
    | with_reducible apply keeps_State_at
    | with_reducible apply KeepsOut.next

theorem keeps_execImgData (t : Nat) (port : Nat) (id : Nat) (block : Nat) (seg : Nat) (data : List Byte) (s : State) {r0 : State} (hr : Keeps r0 s) : KeepsOut r0 (execImgData t port id block seg data s) := by
  refine KeepsOut.trans hr ?_
  clear hr
  unfold execImgData
  repeat' first
    | with_reducible apply Keeps.refl
    | intro _
    | with_reducible apply keeps_dataGot
    | with_reducible apply keeps_State_at
    | with_reducible apply KeepsOut.next

theorem keeps_execImgAck (t : Nat) (port : Nat) (id : Nat) (code : Nat) (err : Nat) (block : Nat) (missing : Nat) (s : State) {r0 : State} (hr : Keeps r0 s) : KeepsOut r0 (execImgAck t port id code err block missing s) := by
  refine KeepsOut.trans hr ?_
  clear hr
  unfold execImgAck
  repeat' first
    | with_reducible apply Keeps.refl
    | intro _
    | with_reducible apply keeps_ackGot
    | with_reducible apply keeps_State_at
    | with_reducible apply KeepsOut.next

theorem keeps_execImgAckTimeout (t : Nat) (port : Nat) (s : State) {r0 : State} (hr : Keeps r0 s) : KeepsOut r0 (execImgAckTimeout t port s) := by
  refine KeepsOut.trans hr ?_
  clear hr
  unfold execImgAckTimeout
  repeat' first
    | with_reducible apply Keeps.refl
    | intro _
    | with_reducible apply keeps_ackTimeout
    | with_reducible apply keeps_State_at
    | with_reducible apply KeepsOut.next

theorem keeps_execImgDataSend (t : Nat) (port : Nat) (s : State) {r0 : State} (hr : Keeps r0 s) : KeepsOut r0 (execImgDataSend t port s) := by
  refine KeepsOut.trans hr ?_
  clear hr
  unfold execImgDataSend
  repeat' first
    | with_reducible apply Keeps.refl
    | intro _
    | with_reducible apply keeps_dataSend
    | with_reducible apply keeps_State_at
    | with_reducible apply KeepsOut.next

theorem keeps_execImageVerifyComplete (t : Nat) (s : State) {r0 : State} (hr : Keeps r0 s) : KeepsOut r0 (execImageVerifyComplete t s) := by
  refine KeepsOut.trans hr ?_
  clear hr
  unfold execImageVerifyComplete
  repeat' first
    | with_reducible apply Keeps.refl
    | intro _
    | with_reducible apply keeps_verifyDone
    | with_reducible apply keeps_State_at
    | with_reducible apply KeepsOut.next

theorem keeps_execStagingWriteComplete (t : Nat) (same : Bool) (s : State) {r0 : State} (hr : Keeps r0 s) : KeepsOut r0 (execStagingWriteComplete t same s) := by
  refine KeepsOut.trans hr ?_
  clear hr
  unfold execStagingWriteComplete
  repeat' first
    | with_reducible apply Keeps.refl
    | intro _
    | with_reducible apply keeps_stageDone
    | with_reducible apply keeps_State_at
    | with_reducible apply KeepsOut.next

theorem keeps_execImageConfirm (t : Nat) (s : State) {r0 : State} (hr : Keeps r0 s) : KeepsOut r0 (execImageConfirm t s) := by
  refine KeepsOut.trans hr ?_
  clear hr
  unfold execImageConfirm
  repeat' first
    | with_reducible apply Keeps.refl
    | intro _
    | with_reducible apply keeps_imageConfirm
    | with_reducible apply keeps_State_at
    | with_reducible apply KeepsOut.next

theorem keeps_execConfirmWindowExpiry (t : Nat) (s : State) {r0 : State} (hr : Keeps r0 s) : KeepsOut r0 (execConfirmWindowExpiry t s) := by
  refine KeepsOut.trans hr ?_
  clear hr
  unfold execConfirmWindowExpiry
  repeat' first
    | with_reducible apply Keeps.refl
    | intro _
    | with_reducible apply keeps_confirmExpire
    | with_reducible apply keeps_State_at
    | with_reducible apply KeepsOut.next

theorem keeps_execLevels (t : Nat) (port : Nat) (ring : Nat) (version : Nat) (s : State) {r0 : State} (hr : Keeps r0 s) : KeepsOut r0 (execLevels t port ring version s) := by
  refine KeepsOut.trans hr ?_
  clear hr
  unfold execLevels
  repeat' first
    | with_reducible apply Keeps.refl
    | intro _
    | with_reducible assumption
    | (fail_if_no_progress extract_lets +onlyGivenNames x
       first | (refine KeepsOut.hyp x ?_ (fun _ => ?_); subst x; rotate_left; clear_value x; rotate_left) | clear_value x)
    | (fail_if_no_progress extract_lets +onlyGivenNames x
       first | (refine Keeps.hyp x ?_ (fun _ => ?_); subst x; rotate_left; clear_value x; rotate_left) | clear_value x)
    | with_reducible apply keeps_State_at
    | with_reducible apply keeps_peerTake
    | with_reducible apply KeepsOut.next
    | with_reducible apply KeepsOut.ite
    | with_reducible apply KeepsOut.onEngine
    | with_reducible apply Keeps.ite

theorem keeps_execLevelsSend (t : Nat) (port : Nat) (s : State) {r0 : State} (hr : Keeps r0 s) : KeepsOut r0 (execLevelsSend t port s) := by
  refine KeepsOut.trans hr ?_
  clear hr
  unfold execLevelsSend
  repeat' first
    | with_reducible apply Keeps.refl
    | intro _
    | with_reducible apply keeps_levelsSend
    | with_reducible apply keeps_State_at
    | with_reducible apply KeepsOut.next

theorem keeps_execTwinLevel (t : Nat) (lane : Nat) (word : Nat) (s : State) {r0 : State} (hr : Keeps r0 s) : KeepsOut r0 (execTwinLevel t lane word s) := by
  refine KeepsOut.trans hr ?_
  clear hr
  unfold execTwinLevel
  repeat' first
    | with_reducible apply Keeps.refl
    | intro _
    | with_reducible apply keeps_onTwinSet
    | with_reducible apply keeps_State_at
    | with_reducible apply keeps_twinLevelGot
    | with_reducible apply KeepsOut.next

theorem keeps_execTwinLevelSend (t : Nat) (s : State) {r0 : State} (hr : Keeps r0 s) : KeepsOut r0 (execTwinLevelSend t s) := by
  refine KeepsOut.trans hr ?_
  clear hr
  unfold execTwinLevelSend
  repeat' first
    | with_reducible apply Keeps.refl
    | intro _
    | with_reducible apply keeps_twinLevelSend
    | with_reducible apply keeps_State_at
    | with_reducible apply KeepsOut.next

theorem keeps_execTwinHb (t : Nat) (lane : Nat) (word : Nat) (alike : Bool) (s : State) {r0 : State} (hr : Keeps r0 s) : KeepsOut r0 (execTwinHb t lane word alike s) := by
  refine KeepsOut.trans hr ?_
  clear hr
  unfold execTwinHb
  repeat' first
    | with_reducible apply Keeps.refl
    | intro _
    | with_reducible assumption
    | with_reducible apply keeps_inPair
    | with_reducible apply keeps_State_at
    | with_reducible apply keeps_onTwinSet
    | with_reducible apply keeps_handCheck
    | with_reducible apply keeps_twinHb
    | with_reducible apply keeps_State_lineEnd
    | with_reducible apply KeepsOut.next
    | with_reducible apply KeepsOut.onEngine
    | with_reducible apply KeepsOut.ite
    | with_reducible refine Keeps.ofPair (by assumption) ?_
    | with_reducible apply Keeps.ite
    | fail_if_no_progress (with_reducible apply Keeps.mk')

theorem keeps_execTwinHbTimeout (t : Nat) (s : State) {r0 : State} (hr : Keeps r0 s) : KeepsOut r0 (execTwinHbTimeout t s) := by
  refine KeepsOut.trans hr ?_
  clear hr
  unfold execTwinHbTimeout
  repeat' first
    | with_reducible apply Keeps.refl
    | intro _
    | with_reducible assumption
    | with_reducible apply keeps_handCheck
    | with_reducible apply keeps_twinSilence
    | with_reducible apply keeps_State_at
    | with_reducible apply KeepsOut.next
    | with_reducible apply KeepsOut.onEngine
    | with_reducible apply KeepsOut.ite
    | with_reducible refine Keeps.ofPair (by assumption) ?_
    | with_reducible apply Keeps.ite
    | fail_if_no_progress (with_reducible apply Keeps.mk')

theorem keeps_lanesCheck (s : State) (n : Nat) {r0 : State} (hr : Keeps r0 s) : Keeps r0 (lanesCheck s n) := by
  refine Keeps.trans hr ?_
  clear hr
  unfold lanesCheck
  repeat' first
    | with_reducible apply Keeps.refl
    | intro _
    | with_reducible assumption
    | with_reducible apply keeps_handCheck
    | with_reducible apply keeps_twinSilence
    | with_reducible refine Keeps.ofPair (by assumption) ?_
    | with_reducible apply Keeps.ite
    | fail_if_no_progress (with_reducible apply Keeps.mk')
    | split

theorem keeps_execBlockLockLoss (t : Nat) (lane : Nat) (s : State) {r0 : State} (hr : Keeps r0 s) : KeepsOut r0 (execBlockLockLoss t lane s) := by
  refine KeepsOut.trans hr ?_
  clear hr
  unfold execBlockLockLoss
  repeat' first
    | with_reducible apply Keeps.refl
    | intro _
    | with_reducible assumption
    | (fail_if_no_progress extract_lets +onlyGivenNames x
       first | (refine KeepsOut.hyp x ?_ (fun _ => ?_); subst x; rotate_left; clear_value x; rotate_left) | clear_value x)
    | with_reducible apply keeps_State_at
    | with_reducible apply keeps_lanesCheck
    | with_reducible apply keeps_lockLoss
    | with_reducible apply KeepsOut.next
    | with_reducible apply KeepsOut.onEngine
    | with_reducible apply KeepsOut.ite
    | with_reducible refine Keeps.ofPair (by assumption) ?_
    | with_reducible apply Keeps.ite
    | fail_if_no_progress (with_reducible apply Keeps.mk')
    | split

theorem keeps_execLaneRetire (t : Nat) (lane : Nat) (s : State) {r0 : State} (hr : Keeps r0 s) : KeepsOut r0 (execLaneRetire t lane s) := by
  refine KeepsOut.trans hr ?_
  clear hr
  unfold execLaneRetire
  repeat' first
    | with_reducible apply Keeps.refl
    | intro _
    | with_reducible assumption
    | with_reducible apply keeps_lanesCheck
    | with_reducible apply keeps_laneCmd
    | with_reducible apply keeps_State_at
    | with_reducible apply KeepsOut.next
    | with_reducible apply KeepsOut.onEngine
    | with_reducible apply KeepsOut.ite
    | with_reducible refine Keeps.ofPair (by assumption) ?_
    | with_reducible apply Keeps.ite
    | fail_if_no_progress (with_reducible apply Keeps.mk')

theorem keeps_execSensorConversion (t : Nat) (sensor : Nat) (raw : Int) (s : State) {r0 : State} (hr : Keeps r0 s) : KeepsOut r0 (execSensorConversion t sensor raw s) := by
  refine KeepsOut.trans hr ?_
  clear hr
  unfold execSensorConversion
  repeat' first
    | with_reducible apply Keeps.refl
    | intro _
    | with_reducible assumption
    | (fail_if_no_progress extract_lets +onlyGivenNames x
       first | (refine KeepsOut.hyp x ?_ (fun _ => ?_); subst x; rotate_left; clear_value x; rotate_left) | clear_value x)
    | (fail_if_no_progress extract_lets +onlyGivenNames x
       first | (refine Keeps.hyp x ?_ (fun _ => ?_); subst x; rotate_left; clear_value x; rotate_left) | clear_value x)
    | with_reducible apply keeps_State_at
    | with_reducible apply keeps_State_settle
    | with_reducible apply keeps_State_cool
    | with_reducible apply keeps_thermalUpdate
    | with_reducible apply keeps_sensConvert
    | with_reducible apply KeepsOut.next
    | with_reducible apply KeepsOut.ite
    | with_reducible apply KeepsOut.onEngine
    | with_reducible apply Keeps.ite

theorem keeps_execSensorConversionTimeout (t : Nat) (sensor : Nat) (s : State) {r0 : State} (hr : Keeps r0 s) : KeepsOut r0 (execSensorConversionTimeout t sensor s) := by
  refine KeepsOut.trans hr ?_
  clear hr
  unfold execSensorConversionTimeout
  repeat' first
    | with_reducible apply Keeps.refl
    | intro _
    | with_reducible assumption
    | (fail_if_no_progress extract_lets +onlyGivenNames x
       first | (refine KeepsOut.hyp x ?_ (fun _ => ?_); subst x; rotate_left; clear_value x; rotate_left) | clear_value x)
    | (fail_if_no_progress extract_lets +onlyGivenNames x
       first | (refine Keeps.hyp x ?_ (fun _ => ?_); subst x; rotate_left; clear_value x; rotate_left) | clear_value x)
    | with_reducible apply keeps_State_at
    | with_reducible apply keeps_State_settle
    | with_reducible apply keeps_State_cool
    | with_reducible apply keeps_thermalUpdate
    | with_reducible apply keeps_sensFail
    | with_reducible apply KeepsOut.next
    | with_reducible apply KeepsOut.ite
    | with_reducible apply KeepsOut.onEngine
    | with_reducible refine Keeps.ofPair (by assumption) ?_
    | with_reducible apply Keeps.ite

theorem keeps_execThermalSweep (t : Nat) (raws : List Int) (s : State) {r0 : State} (hr : Keeps r0 s) : KeepsOut r0 (execThermalSweep t raws s) := by
  refine KeepsOut.trans hr ?_
  clear hr
  unfold execThermalSweep
  repeat' first
    | with_reducible apply Keeps.refl
    | intro _
    | with_reducible assumption
    | (fail_if_no_progress extract_lets +onlyGivenNames x
       first | (refine KeepsOut.hyp x ?_ (fun _ => ?_); subst x; rotate_left; clear_value x; rotate_left) | clear_value x)
    | with_reducible apply keeps_State_at
    | with_reducible apply keeps_thermSweep
    | with_reducible apply keeps_State_cool
    | with_reducible apply keeps_State_settle
    | with_reducible apply KeepsOut.next
    | with_reducible apply KeepsOut.onEngine
    | with_reducible apply KeepsOut.ite
    | with_reducible refine Keeps.ofPair (by assumption) ?_
    | with_reducible apply Keeps.ite
    | fail_if_no_progress (with_reducible apply Keeps.mk')
    | split

theorem keeps_execSensorRestore (t : Nat) (sensor : Nat) (s : State) {r0 : State} (hr : Keeps r0 s) : KeepsOut r0 (execSensorRestore t sensor s) := by
  refine KeepsOut.trans hr ?_
  clear hr
  unfold execSensorRestore
  repeat' first
    | with_reducible apply Keeps.refl
    | intro _
    | with_reducible apply keeps_State_settle
    | with_reducible apply keeps_State_cool
    | with_reducible apply keeps_sensRestore
    | with_reducible apply keeps_State_at
    | with_reducible apply KeepsOut.next

theorem keeps_execStackTempRead (t : Nat) (stack : Nat) (value : Int) (s : State) {r0 : State} (hr : Keeps r0 s) : KeepsOut r0 (execStackTempRead t stack value s) := by
  refine KeepsOut.trans hr ?_
  clear hr
  unfold execStackTempRead
  repeat' first
    | with_reducible apply Keeps.refl
    | intro _
    | with_reducible apply keeps_State_settle
    | with_reducible apply keeps_State_cool
    | with_reducible apply keeps_stackTempRead
    | with_reducible apply keeps_State_at
    | with_reducible apply KeepsOut.next

theorem keeps_execLaneBringupStart (t : Nat) (lane : Nat) (s : State) {r0 : State} (hr : Keeps r0 s) : KeepsOut r0 (execLaneBringupStart t lane s) := by
  refine KeepsOut.trans hr ?_
  clear hr
  unfold execLaneBringupStart
  repeat' first
    | with_reducible apply Keeps.refl
    | intro _
    | with_reducible assumption
    | (fail_if_no_progress extract_lets +onlyGivenNames x
       first | (refine KeepsOut.hyp x ?_ (fun _ => ?_); subst x; rotate_left; clear_value x; rotate_left) | clear_value x)
    | (fail_if_no_progress extract_lets +onlyGivenNames x
       first | (refine Keeps.hyp x ?_ (fun _ => ?_); subst x; rotate_left; clear_value x; rotate_left) | clear_value x)
    | with_reducible apply keeps_bootDue
    | with_reducible apply keeps_State_at
    | with_reducible apply keeps_laneStart
    | with_reducible apply KeepsOut.next
    | with_reducible apply KeepsOut.ite
    | with_reducible apply KeepsOut.onEngine
    | with_reducible apply Keeps.ite

theorem keeps_execLaneReady (t : Nat) (lane : Nat) (ctle : Nat) (pad : Nat) (taps : List Int) (s : State) {r0 : State} (hr : Keeps r0 s) : KeepsOut r0 (execLaneReady t lane ctle pad taps s) := by
  refine KeepsOut.trans hr ?_
  clear hr
  unfold execLaneReady
  repeat' first
    | with_reducible apply Keeps.refl
    | intro _
    | with_reducible assumption
    | (fail_if_no_progress extract_lets +onlyGivenNames x
       first | (refine KeepsOut.hyp x ?_ (fun _ => ?_); subst x; rotate_left; clear_value x; rotate_left) | clear_value x)
    | (fail_if_no_progress extract_lets +onlyGivenNames x
       first | (refine Keeps.hyp x ?_ (fun _ => ?_); subst x; rotate_left; clear_value x; rotate_left) | clear_value x)
    | with_reducible apply keeps_bootDue
    | with_reducible apply keeps_State_at
    | with_reducible apply keeps_laneReady
    | with_reducible apply KeepsOut.next
    | with_reducible apply KeepsOut.ite
    | with_reducible apply KeepsOut.onEngine
    | with_reducible apply Keeps.ite

theorem keeps_execLaneSwitchShiftComplete (t : Nat) (s : State) {r0 : State} (hr : Keeps r0 s) : KeepsOut r0 (execLaneSwitchShiftComplete t s) := by
  refine KeepsOut.trans hr ?_
  clear hr
  unfold execLaneSwitchShiftComplete
  repeat' first
    | with_reducible apply Keeps.refl
    | intro _
    | with_reducible apply keeps_shiftDone
    | with_reducible apply keeps_bootDue
    | with_reducible apply keeps_State_at
    | with_reducible apply KeepsOut.next

theorem keeps_execDriveLinkUp (t : Nat) (port : Nat) (seen : Nat) (hops : List Nat) (s : State) {r0 : State} (hr : Keeps r0 s) : KeepsOut r0 (execDriveLinkUp t port seen hops s) := by
  refine KeepsOut.trans hr ?_
  clear hr
  unfold execDriveLinkUp
  repeat' first
    | with_reducible apply Keeps.refl
    | intro _
    | with_reducible apply keeps_driveUp
    | with_reducible apply keeps_bootDue
    | with_reducible apply keeps_State_at
    | with_reducible apply KeepsOut.next

theorem keeps_execCameraPortTrainComplete (t : Nat) (port : Nat) (ok : Bool) (s : State) {r0 : State} (hr : Keeps r0 s) : KeepsOut r0 (execCameraPortTrainComplete t port ok s) := by
  refine KeepsOut.trans hr ?_
  clear hr
  unfold execCameraPortTrainComplete
  repeat' first
    | with_reducible apply Keeps.refl
    | intro _
    | with_reducible apply keeps_portTrained
    | with_reducible apply keeps_bootDue
    | with_reducible apply keeps_State_at
    | with_reducible apply KeepsOut.next

end Sys2Proof.Laws
end

