-- ==== Sys2Proof/Laws/KeepGp.lean ====
section
/-! SUPPORT. `Keeps` of every operation of Machine/Gp.lean. -/

namespace Sys2Proof.Laws

open Sys2Proof.Machine

set_option linter.unusedTactic false
set_option linter.unreachableTactic false
set_option linter.tactic.unusedName false

theorem keeps_gpLoad (s : State) (ch : Nat) (e : List Byte) {r0 : State} (hr : Keeps r0 s) : Keeps r0 (gpLoad s ch e).1 := by
  refine Keeps.trans hr ?_
  clear hr
  unfold gpLoad
  repeat' first
    | with_reducible apply Keeps.refl
    | intro _
    | with_reducible assumption
    | (fail_if_no_progress extract_lets +onlyGivenNames x
       first | (refine Keeps.hyp x ?_ (fun _ => ?_); subst x; rotate_left; clear_value x; rotate_left) | clear_value x)
    | with_reducible apply keeps_catShow
    | with_reducible apply keeps_catFetch
    | with_reducible apply keeps_tableStore

theorem keeps_gpLoadAll (s : State) (es : List (Nat × Nat × Bool × (State → List Byte))) {r0 : State} (hr : Keeps r0 s) : Keeps r0 (gpLoadAll s es).1 := by
  refine Keeps.trans hr ?_
  clear hr
  unfold gpLoadAll
  repeat' first
    | with_reducible apply Keeps.refl
    | intro _
    | with_reducible assumption
    | (fail_if_no_progress extract_lets +onlyGivenNames x
       first | (refine Keeps.hyp x ?_ (fun _ => ?_); subst x; rotate_left; clear_value x; rotate_left) | clear_value x)
    | with_reducible apply keeps_gpLoad
    | with_reducible apply Keeps.foldl
    | with_reducible apply Keeps.foldlPair

theorem keeps_gpEpoch (s : State) (target : Nat) {r0 : State} (hr : Keeps r0 s) : Keeps r0 (gpEpoch s target) := by
  refine Keeps.trans hr ?_
  clear hr
  unfold gpEpoch
  repeat' first
    | with_reducible apply Keeps.refl
    | intro _
    | with_reducible assumption
    | (fail_if_no_progress extract_lets +onlyGivenNames x
       first | (refine Keeps.hyp x ?_ (fun _ => ?_); subst x; rotate_left; clear_value x; rotate_left) | clear_value x)
    | with_reducible apply keeps_epochSet
    | with_reducible apply Keeps.ite
    | fail_if_no_progress (with_reducible apply Keeps.mk')

theorem keeps_gpCtrl (s : State) (v : Nat) (run : Nat) {r0 : State} (hr : Keeps r0 s) : Keeps r0 (gpCtrl s v run) := by
  refine Keeps.trans hr ?_
  clear hr
  unfold gpCtrl
  repeat' first
    | with_reducible apply Keeps.refl
    | intro _
    | with_reducible apply keeps_State_wr

theorem keeps_gpRunStart (s : State) (v : Nat) {r0 : State} (hr : Keeps r0 s) : Keeps r0 (gpRunStart s v) := by
  unfold gpRunStart
  refine Keeps.ite hr (Keeps.ite (keeps_gpCtrl _ _ _ hr) ?_)
  extract_lets a b
  have h : Keeps r0 b := Keeps.mkMem (keeps_gpCtrl _ _ _ hr) (mem_wf_write _ _)
  clear_value b
  split
  rename_i u' ok e
  have hu : Keeps r0 u' := Keeps.ofPair e (Keeps.ite1 (keeps_gpLoadAll _ _ h) h)
  refine Keeps.ite (keeps_gpEpoch _ _ (Keeps.mk' ?_)) (keeps_State_wr _ _ _ _ hu)
  exact keeps_State_wr _ _ _ _ (keeps_State_wr _ _ _ _ (keeps_State_wr _ _ _ _ (keeps_State_wr _ _ _ _ hu)))

theorem keeps_gpJobEnd (s : State) {r0 : State} (hr : Keeps r0 s) : Keeps r0 (gpJobEnd s) := by
  refine Keeps.trans hr ?_
  clear hr
  unfold gpJobEnd
  repeat' first
    | with_reducible apply Keeps.refl
    | intro _
    | with_reducible assumption
    | (fail_if_no_progress extract_lets +onlyGivenNames x
       first | (refine Keeps.hyp x ?_ (fun _ => ?_); subst x; rotate_left; clear_value x; rotate_left) | clear_value x)
    | with_reducible apply keeps_jobClose
    | with_reducible refine Keeps.ofPair (by assumption) ?_
    | with_reducible apply Keeps.ite
    | fail_if_no_progress (with_reducible apply Keeps.mk')
    | split

theorem keeps_gpRunStop (s : State) (v : Nat) {r0 : State} (hr : Keeps r0 s) : Keeps r0 (gpRunStop s v) := by
  refine Keeps.trans hr ?_
  clear hr
  unfold gpRunStop
  repeat' first
    | with_reducible apply Keeps.refl
    | intro _
    | with_reducible apply keeps_gpCtrl
    | with_reducible apply keeps_gpEpoch
    | with_reducible apply keeps_gpJobEnd
    | with_reducible apply Keeps.ite

theorem keeps_gpDmaGo (s : State) {r0 : State} (hr : Keeps r0 s) : Keeps r0 (gpDmaGo s) := by
  refine Keeps.trans hr ?_
  clear hr
  unfold gpDmaGo
  repeat' first
    | with_reducible apply Keeps.refl
    | intro _
    | with_reducible assumption
    | (fail_if_no_progress extract_lets +onlyGivenNames x
       first | (refine Keeps.hyp x ?_ (fun _ => ?_); subst x; rotate_left; clear_value x; rotate_left) | subst x)
    | with_reducible apply keeps_State_pokeList
    | with_reducible apply keeps_linePage
    | with_reducible apply Keeps.foldl
    | with_reducible apply Keeps.foldlPair
    | with_reducible refine Keeps.ofPair (by assumption) ?_
    | with_reducible apply Keeps.ite
    | fail_if_no_progress (with_reducible apply Keeps.mk')

theorem keeps_execGpRunStart (t : Nat) (value : Nat) (s : State) {r0 : State} (hr : Keeps r0 s) : KeepsOut r0 (execGpRunStart t value s) := by
  refine KeepsOut.trans hr ?_
  clear hr
  unfold execGpRunStart
  repeat' first
    | with_reducible apply Keeps.refl
    | intro _
    | with_reducible assumption
    | (fail_if_no_progress extract_lets +onlyGivenNames x
       first | (refine KeepsOut.hyp x ?_ (fun _ => ?_); subst x; rotate_left; clear_value x; rotate_left) | clear_value x)
    | (fail_if_no_progress extract_lets +onlyGivenNames x
       first | (refine Keeps.hyp x ?_ (fun _ => ?_); subst x; rotate_left; clear_value x; rotate_left) | clear_value x)
    | with_reducible apply keeps_State_at
    | with_reducible apply keeps_State_settle
    | with_reducible apply keeps_gpRunStart
    | with_reducible apply KeepsOut.next
    | with_reducible apply KeepsOut.ite
    | with_reducible apply KeepsOut.onEngine
    | with_reducible apply Keeps.ite

theorem keeps_execGpRunStop (t : Nat) (value : Nat) (s : State) {r0 : State} (hr : Keeps r0 s) : KeepsOut r0 (execGpRunStop t value s) := by
  refine KeepsOut.trans hr ?_
  clear hr
  unfold execGpRunStop
  repeat' first
    | with_reducible apply Keeps.refl
    | intro _
    | with_reducible assumption
    | (fail_if_no_progress extract_lets +onlyGivenNames x
       first | (refine KeepsOut.hyp x ?_ (fun _ => ?_); subst x; rotate_left; clear_value x; rotate_left) | clear_value x)
    | (fail_if_no_progress extract_lets +onlyGivenNames x
       first | (refine Keeps.hyp x ?_ (fun _ => ?_); subst x; rotate_left; clear_value x; rotate_left) | clear_value x)
    | with_reducible apply keeps_State_at
    | with_reducible apply keeps_State_settle
    | with_reducible apply keeps_gpRunStop
    | with_reducible apply KeepsOut.next
    | with_reducible apply KeepsOut.ite
    | with_reducible apply KeepsOut.onEngine
    | with_reducible apply Keeps.ite

theorem keeps_execGpDmaGo (t : Nat) (s : State) {r0 : State} (hr : Keeps r0 s) : KeepsOut r0 (execGpDmaGo t s) := by
  refine KeepsOut.trans hr ?_
  clear hr
  unfold execGpDmaGo
  repeat' first
    | with_reducible apply Keeps.refl
    | intro _
    | with_reducible apply keeps_State_settle
    | with_reducible apply keeps_gpDmaGo
    | with_reducible apply keeps_State_at
    | with_reducible apply KeepsOut.next

theorem keeps_gpIntRead (s : State) {r0 : State} (hr : Keeps r0 s) : Keeps r0 (gpIntRead s).1 := by
  refine Keeps.trans hr ?_
  clear hr
  unfold gpIntRead
  repeat' first
    | with_reducible apply Keeps.refl
    | intro _
    | with_reducible assumption
    | (fail_if_no_progress extract_lets +onlyGivenNames x
       first | (refine Keeps.hyp x ?_ (fun _ => ?_); subst x; rotate_left; clear_value x; rotate_left) | clear_value x)
    | with_reducible apply keeps_State_wr
    | with_reducible apply Keeps.foldl
    | with_reducible apply Keeps.foldlPair
    | with_reducible apply Keeps.ite1

theorem keeps_execGpIntStatRead (t : Nat) (s : State) {r0 : State} (hr : Keeps r0 s) : KeepsOut r0 (execGpIntStatRead t s) := by
  refine KeepsOut.trans hr ?_
  clear hr
  unfold execGpIntStatRead
  repeat' first
    | with_reducible apply Keeps.refl
    | intro _
    | with_reducible assumption
    | (fail_if_no_progress extract_lets +onlyGivenNames x
       first | (refine KeepsOut.hyp x ?_ (fun _ => ?_); subst x; rotate_left; clear_value x; rotate_left) | clear_value x)
    | (fail_if_no_progress extract_lets +onlyGivenNames x
       first | (refine Keeps.hyp x ?_ (fun _ => ?_); subst x; rotate_left; clear_value x; rotate_left) | clear_value x)
    | with_reducible apply keeps_gpIntRead
    | with_reducible apply keeps_State_at
    | with_reducible apply keeps_State_emit
    | with_reducible apply KeepsOut.next

theorem keeps_gpUnlock (s : State) (key : Nat) {r0 : State} (hr : Keeps r0 s) : Keeps r0 (gpUnlock s key) := by
  refine Keeps.trans hr ?_
  clear hr
  unfold gpUnlock
  repeat' first
    | with_reducible apply Keeps.refl
    | intro _
    | with_reducible apply keeps_State_wr
    | with_reducible apply Keeps.ite

theorem keeps_execGpUnlock (t : Nat) (key : Nat) (s : State) {r0 : State} (hr : Keeps r0 s) : KeepsOut r0 (execGpUnlock t key s) := by
  refine KeepsOut.trans hr ?_
  clear hr
  unfold execGpUnlock
  repeat' first
    | with_reducible apply Keeps.refl
    | intro _
    | with_reducible apply keeps_gpUnlock
    | with_reducible apply keeps_State_at
    | with_reducible apply KeepsOut.next

end Sys2Proof.Laws
end

