-- ==== Sys2Proof/Laws/KeepRingRecv.lean ====
section
/-! SUPPORT. `Keeps` of every operation of Machine/RingRecv.lean. -/

namespace Sys2Proof.Laws

open Sys2Proof.Machine

set_option linter.unusedTactic false
set_option linter.unreachableTactic false
set_option linter.tactic.unusedName false

theorem keeps_deliver (s : State) (k : Nat) (rtype : Nat) (b : List Byte) {r0 : State} (hr : Keeps r0 s) : Keeps r0 (deliver s k rtype b) := by
  refine Keeps.trans hr ?_
  clear hr
  unfold deliver
  repeat' first
    | with_reducible apply Keeps.refl
    | intro _
    | with_reducible assumption
    | (fail_if_no_progress extract_lets +onlyGivenNames x
       first | (refine Keeps.hyp x ?_ (fun _ => ?_); subst x; rotate_left; clear_value x; rotate_left) | subst x)
    | with_reducible apply keeps_neighborGot
    | with_reducible apply keeps_State_lineEnd
    | with_reducible apply keeps_epochReceive
    | with_reducible apply keeps_rollbackReceive
    | with_reducible apply keeps_offerGot
    | with_reducible apply keeps_dataGot
    | with_reducible apply keeps_ackGot
    | with_reducible apply keeps_peerTake
    | with_reducible apply Keeps.ite

theorem keeps_forwardGood (s : State) (k : Nat) (f : List Byte) {r0 : State} (hr : Keeps r0 s) : Keeps r0 (forwardGood s k f) := by
  refine Keeps.trans hr ?_
  clear hr
  unfold forwardGood
  repeat' first
    | with_reducible apply Keeps.refl
    | intro _
    | with_reducible assumption
    | (fail_if_no_progress extract_lets +onlyGivenNames x
       first | (refine Keeps.hyp x ?_ (fun _ => ?_); subst x; rotate_left; clear_value x; rotate_left) | clear_value x)
    | with_reducible apply keeps_State_count
    | with_reducible apply keeps_ringOut
    | with_reducible apply Keeps.ite

theorem keeps_forwardBad (s : State) (k : Nat) (f : List Byte) (fcs : List Byte) {r0 : State} (hr : Keeps r0 s) : Keeps r0 (forwardBad s k f fcs) := by
  refine Keeps.trans hr ?_
  clear hr
  unfold forwardBad
  repeat' first
    | with_reducible apply Keeps.refl
    | intro _
    | with_reducible assumption
    | (fail_if_no_progress extract_lets +onlyGivenNames x
       first | (refine Keeps.hyp x ?_ (fun _ => ?_); subst x; rotate_left; clear_value x; rotate_left) | clear_value x)
    | with_reducible apply keeps_State_count
    | with_reducible apply keeps_State_emit
    | with_reducible apply Keeps.ite

theorem keeps_recordSeen (s : State) (origin : Nat) (rseq : Nat) {r0 : State} (hr : Keeps r0 s) : Keeps r0 (recordSeen s origin rseq) := by
  refine Keeps.trans hr ?_
  clear hr
  unfold recordSeen
  repeat' first
    | with_reducible apply Keeps.refl
    | intro _
    | with_reducible assumption
    | (fail_if_no_progress extract_lets +onlyGivenNames x
       first | (refine Keeps.hyp x ?_ (fun _ => ?_); subst x; rotate_left; clear_value x; rotate_left) | clear_value x)
    | fail_if_no_progress (with_reducible apply Keeps.mk')

theorem keeps_ringGood (s : State) (k : Nat) (f : List Byte) {r0 : State} (hr : Keeps r0 s) : Keeps r0 (ringGood s k f) := by
  refine Keeps.trans hr ?_
  clear hr
  unfold ringGood
  repeat' first
    | with_reducible apply Keeps.refl
    | intro _
    | with_reducible assumption
    | (fail_if_no_progress extract_lets +onlyGivenNames x
       first | (refine Keeps.hyp x ?_ (fun _ => ?_); subst x; rotate_left; clear_value x; rotate_left) | clear_value x)
    | with_reducible apply keeps_deliver
    | with_reducible apply keeps_State_event
    | with_reducible apply keeps_State_wr
    | with_reducible apply keeps_State_count
    | with_reducible apply keeps_forwardGood
    | with_reducible apply keeps_recordSeen
    | with_reducible apply Keeps.ite

theorem keeps_frameGot (s : State) (k : Nat) (bytes : List Byte) {r0 : State} (hr : Keeps r0 s) : Keeps r0 (frameGot s k bytes) := by
  refine Keeps.trans hr ?_
  clear hr
  unfold frameGot
  repeat' first
    | with_reducible apply Keeps.refl
    | intro _
    | with_reducible assumption
    | (fail_if_no_progress extract_lets +onlyGivenNames x
       first | (refine Keeps.hyp x ?_ (fun _ => ?_); subst x; rotate_left; clear_value x; rotate_left) | clear_value x)
    | with_reducible apply keeps_State_count
    | with_reducible apply keeps_ringGood
    | with_reducible apply keeps_forwardBad
    | with_reducible apply keeps_State_emit
    | with_reducible apply keeps_State_spend
    | with_reducible refine Keeps.ofPair (by assumption) ?_
    | with_reducible apply Keeps.ite
    | fail_if_no_progress (with_reducible apply Keeps.mk')
    | split

theorem keeps_execRingFrameReceive (t : Nat) (port : Nat) (bytes : List Byte) (s : State) {r0 : State} (hr : Keeps r0 s) : KeepsOut r0 (execRingFrameReceive t port bytes s) := by
  refine KeepsOut.trans hr ?_
  clear hr
  unfold execRingFrameReceive
  repeat' first
    | with_reducible apply Keeps.refl
    | intro _
    | with_reducible apply keeps_frameGot
    | with_reducible apply keeps_State_at
    | with_reducible apply KeepsOut.next

end Sys2Proof.Laws
end

