-- ==== Sys2Proof/Laws/KeepScribes.lean ====
section
/-! SUPPORT. `Keeps` of every operation of Machine/Scribes.lean. -/

namespace Sys2Proof.Laws

open Sys2Proof.Machine

set_option linter.unusedTactic false
set_option linter.unreachableTactic false
set_option linter.tactic.unusedName false

theorem keeps_scribeRestart (s : State) (l : Nat) {r0 : State} (hr : Keeps r0 s) : Keeps r0 (scribeRestart s l) := by
  refine Keeps.trans hr ?_
  clear hr
  unfold scribeRestart
  repeat' first
    | with_reducible apply Keeps.refl
    | intro _
    | with_reducible assumption
    | (fail_if_no_progress extract_lets +onlyGivenNames x
       first | (refine Keeps.hyp x ?_ (fun _ => ?_); subst x; rotate_left; clear_value x; rotate_left) | clear_value x)
    | with_reducible apply keeps_scribeStart
    | with_reducible apply keeps_dropPopped
    | with_reducible refine Keeps.ofPair (by assumption) ?_
    | with_reducible apply Keeps.ite
    | fail_if_no_progress (with_reducible apply Keeps.mk')
    | split

theorem keeps_scribeRestarted (s : State) (l : Nat) {r0 : State} (hr : Keeps r0 s) : Keeps r0 (scribeRestarted s l) := by
  refine Keeps.trans hr ?_
  clear hr
  unfold scribeRestarted
  repeat' first
    | with_reducible apply Keeps.refl
    | intro _
    | with_reducible assumption
    | (fail_if_no_progress extract_lets +onlyGivenNames x
       first | (refine Keeps.hyp x ?_ (fun _ => ?_); subst x; rotate_left; clear_value x; rotate_left) | clear_value x)
    | with_reducible apply keeps_scribeServe
    | with_reducible apply keeps_State_event
    | with_reducible refine Keeps.ofPair (by assumption) ?_
    | fail_if_no_progress (with_reducible apply Keeps.mk')
    | split

theorem keeps_scribeLaunch (s : State) (l : Nat) (q : Nat) {r0 : State} (hr : Keeps r0 s) : Keeps r0 (scribeLaunch s l q) := by
  refine Keeps.trans hr ?_
  clear hr
  unfold scribeLaunch
  repeat' first
    | with_reducible apply Keeps.refl
    | intro _
    | with_reducible assumption
    | (fail_if_no_progress extract_lets +onlyGivenNames x
       first | (refine Keeps.hyp x ?_ (fun _ => ?_); subst x; rotate_left; clear_value x; rotate_left) | clear_value x)
    | with_reducible apply keeps_scribeStart
    | with_reducible apply keeps_dropPopped
    | with_reducible apply keeps_spareGoes
    | with_reducible apply keeps_State_wr
    | with_reducible refine Keeps.ofPair (by assumption) ?_
    | with_reducible apply Keeps.ite
    | fail_if_no_progress (with_reducible apply Keeps.mk')
    | split

theorem keeps_carrelCopy (s : State) (p q : Nat) {r0 : State} (hr : Keeps r0 s) : Keeps r0 (carrelCopy s p q) :=
  hr.trans (Keeps.updMem _ (fun h => mem_wf_foldl _ (fun _ _ k => mem_wf_put _ _ k) _ (mem_wf_filter _ h)))

theorem keeps_spareEntry (s : State) (p : Nat) (q : Nat) {r0 : State} (hr : Keeps r0 s) : Keeps r0 (spareEntry s p q) := by
  refine Keeps.trans hr ?_
  clear hr
  unfold spareEntry
  repeat' first
    | with_reducible apply Keeps.refl
    | intro _
    | with_reducible assumption
    | (fail_if_no_progress extract_lets +onlyGivenNames x
       first | (refine Keeps.hyp x ?_ (fun _ => ?_); subst x; rotate_left; clear_value x; rotate_left) | clear_value x)
    | with_reducible apply keeps_catWrite
    | with_reducible refine Keeps.ofPair (by assumption) ?_
    | with_reducible apply Keeps.ite
    | fail_if_no_progress (with_reducible apply Keeps.mk')
    | split

theorem keeps_scribeSubstituted (s : State) (p : Nat) {r0 : State} (hr : Keeps r0 s) : Keeps r0 (scribeSubstituted s p) := by
  refine Keeps.trans hr ?_
  clear hr
  unfold scribeSubstituted
  repeat' first
    | with_reducible apply Keeps.refl
    | intro _
    | with_reducible assumption
    | (fail_if_no_progress extract_lets +onlyGivenNames x
       first | (refine Keeps.hyp x ?_ (fun _ => ?_); subst x; rotate_left; clear_value x; rotate_left) | clear_value x)
    | with_reducible apply keeps_spareEntry
    | with_reducible apply keeps_dropPopped
    | with_reducible apply keeps_loadCarrel
    | with_reducible apply keeps_scribeStart
    | with_reducible apply keeps_carrelCopy
    | with_reducible apply keeps_State_setEng
    | with_reducible apply keeps_State_wr
    | with_reducible apply keeps_State_count
    | with_reducible apply keeps_State_event
    | with_reducible apply keeps_scribeServe
    | with_reducible apply keeps_spareGoes
    | with_reducible refine Keeps.ofPair (by assumption) ?_
    | with_reducible apply Keeps.ite
    | fail_if_no_progress (with_reducible apply Keeps.mk')
    | split

theorem keeps_folioFault (s : State) (p : Nat) (cause : Nat) (word : Nat) (off : Nat) {r0 : State} (hr : Keeps r0 s) : Keeps r0 (folioFault s p cause word off) := by
  refine Keeps.trans hr ?_
  clear hr
  unfold folioFault
  repeat' first
    | with_reducible apply Keeps.refl
    | intro _
    | with_reducible apply keeps_registrarReset
    | with_reducible apply keeps_scribeFault
    | with_reducible apply Keeps.ite

theorem keeps_sliceOver (s : State) (p : Nat) {r0 : State} (hr : Keeps r0 s) : Keeps r0 (sliceOver s p) := by
  refine Keeps.trans hr ?_
  clear hr
  unfold sliceOver
  repeat' first
    | with_reducible apply Keeps.refl
    | intro _
    | with_reducible assumption
    | (fail_if_no_progress extract_lets +onlyGivenNames x
       first | (refine Keeps.hyp x ?_ (fun _ => ?_); subst x; rotate_left; clear_value x; rotate_left) | clear_value x)
    | with_reducible apply keeps_folioFault
    | with_reducible refine Keeps.ofPair (by assumption) ?_
    | with_reducible apply Keeps.ite
    | fail_if_no_progress (with_reducible apply Keeps.mk')
    | split

theorem keeps_sliceResume (s : State) (p : Nat) (i : Nat) {r0 : State} (hr : Keeps r0 s) : Keeps r0 (sliceResume s p i) := by
  refine Keeps.trans hr ?_
  clear hr
  unfold sliceResume
  repeat' first
    | with_reducible apply Keeps.refl
    | intro _
    | with_reducible assumption
    | (fail_if_no_progress extract_lets +onlyGivenNames x
       first | (refine Keeps.hyp x ?_ (fun _ => ?_); subst x; rotate_left; clear_value x; rotate_left) | clear_value x)
    | with_reducible apply keeps_dispatch
    | with_reducible apply keeps_State_setSlice
    | with_reducible apply Keeps.ite

theorem keeps_waitOver (s : State) (p : Nat) (i : Nat) {r0 : State} (hr : Keeps r0 s) : Keeps r0 (waitOver s p i) := by
  refine Keeps.trans hr ?_
  clear hr
  unfold waitOver
  repeat' first
    | with_reducible apply Keeps.refl
    | intro _
    | with_reducible assumption
    | (fail_if_no_progress extract_lets +onlyGivenNames x
       first | (refine Keeps.hyp x ?_ (fun _ => ?_); subst x; rotate_left; clear_value x; rotate_left) | clear_value x)
    | with_reducible apply keeps_sliceResume
    | with_reducible refine Keeps.ofPair (by assumption) ?_
    | with_reducible apply Keeps.ite
    | fail_if_no_progress (with_reducible apply Keeps.mk')
    | split

theorem keeps_execSliceMaxExceeded (t : Nat) (p : Nat) (s : State) {r0 : State} (hr : Keeps r0 s) : KeepsOut r0 (execSliceMaxExceeded t p s) := by
  refine KeepsOut.trans hr ?_
  clear hr
  unfold execSliceMaxExceeded
  repeat' first
    | with_reducible apply Keeps.refl
    | intro _
    | with_reducible apply keeps_State_at
    | with_reducible apply keeps_sliceOver
    | with_reducible apply KeepsOut.next
    | with_reducible apply KeepsOut.ite
    | with_reducible apply KeepsOut.onEngine

theorem keeps_execSliceUrgencyRise (t : Nat) (p : Nat) (s : State) {r0 : State} (hr : Keeps r0 s) : KeepsOut r0 (execSliceUrgencyRise t p s) := by
  refine KeepsOut.trans hr ?_
  clear hr
  unfold execSliceUrgencyRise
  repeat' first
    | with_reducible apply Keeps.refl
    | intro _
    | with_reducible apply keeps_State_at
    | with_reducible apply keeps_refreshUrgency
    | with_reducible apply KeepsOut.next
    | with_reducible apply KeepsOut.ite
    | with_reducible apply KeepsOut.onEngine

theorem keeps_execTimeWaitExpiry (t : Nat) (p : Nat) (slice : Nat) (s : State) {r0 : State} (hr : Keeps r0 s) : KeepsOut r0 (execTimeWaitExpiry t p slice s) := by
  refine KeepsOut.trans hr ?_
  clear hr
  unfold execTimeWaitExpiry
  repeat' first
    | with_reducible apply Keeps.refl
    | intro _
    | with_reducible apply keeps_State_at
    | with_reducible apply keeps_waitOver
    | with_reducible apply KeepsOut.next
    | with_reducible apply KeepsOut.ite
    | with_reducible apply KeepsOut.onEngine

theorem keeps_execScribeRestart (t : Nat) (logical : Nat) (s : State) {r0 : State} (hr : Keeps r0 s) : KeepsOut r0 (execScribeRestart t logical s) := by
  refine KeepsOut.trans hr ?_
  clear hr
  unfold execScribeRestart
  repeat' first
    | with_reducible apply Keeps.refl
    | intro _
    | with_reducible assumption
    | (fail_if_no_progress extract_lets +onlyGivenNames x
       first | (refine KeepsOut.hyp x ?_ (fun _ => ?_); subst x; rotate_left; clear_value x; rotate_left) | clear_value x)
    | (fail_if_no_progress extract_lets +onlyGivenNames x
       first | (refine Keeps.hyp x ?_ (fun _ => ?_); subst x; rotate_left; clear_value x; rotate_left) | clear_value x)
    | with_reducible apply keeps_State_at
    | with_reducible apply keeps_scribeRestart
    | with_reducible apply KeepsOut.next
    | with_reducible apply KeepsOut.ite
    | with_reducible apply KeepsOut.onEngine
    | with_reducible apply Keeps.ite

theorem keeps_execScribeRestartComplete (t : Nat) (logical : Nat) (s : State) {r0 : State} (hr : Keeps r0 s) : KeepsOut r0 (execScribeRestartComplete t logical s) := by
  refine KeepsOut.trans hr ?_
  clear hr
  unfold execScribeRestartComplete
  repeat' first
    | with_reducible apply Keeps.refl
    | intro _
    | with_reducible apply keeps_scribeRestarted
    | with_reducible apply keeps_State_at
    | with_reducible apply KeepsOut.next

theorem keeps_execScribeSubstituteComplete (t : Nat) (phys : Nat) (s : State) {r0 : State} (hr : Keeps r0 s) : KeepsOut r0 (execScribeSubstituteComplete t phys s) := by
  refine KeepsOut.trans hr ?_
  clear hr
  unfold execScribeSubstituteComplete
  repeat' first
    | with_reducible apply Keeps.refl
    | intro _
    | with_reducible apply keeps_scribeSubstituted
    | with_reducible apply keeps_State_at
    | with_reducible apply KeepsOut.next

end Sys2Proof.Laws
end

