-- ==== Sys2Proof/Laws/KeepBus.lean ====
section
/-! SUPPORT. `Keeps` of every operation of Machine/Bus.lean. -/

namespace Sys2Proof.Laws

open Sys2Proof.Machine

set_option linter.unusedTactic false
set_option linter.unreachableTactic false
set_option linter.tactic.unusedName false

theorem keeps_busLatch (s : State) (src : Nat) (a : Nat) {r0 : State} (hr : Keeps r0 s) : Keeps r0 (busLatch s src a) := by
  refine Keeps.trans hr ?_
  clear hr
  unfold busLatch
  repeat' first
    | with_reducible apply Keeps.refl
    | intro _
    | with_reducible apply keeps_latchNow
    | with_reducible apply keeps_latchCap
    | with_reducible apply Keeps.ite

theorem keeps_busClear (s : State) (a : Nat) (o : Nat) (n : Nat) {r0 : State} (hr : Keeps r0 s) : Keeps r0 (busClear s a o n) := by
  refine Keeps.trans hr ?_
  clear hr
  unfold busClear
  repeat' first
    | with_reducible apply Keeps.refl
    | intro _
    | with_reducible apply keeps_State_wr
    | with_reducible apply Keeps.foldl
    | with_reducible apply Keeps.foldlPair
    | with_reducible apply Keeps.ite

theorem keeps_busReadWord (s : State) (src : Nat) (a : Nat) (n : Nat) {r0 : State} (hr : Keeps r0 s) : Keeps r0 (busReadWord s src a n).1 := by
  refine Keeps.trans hr ?_
  clear hr
  unfold busReadWord
  repeat' first
    | with_reducible apply Keeps.refl
    | intro _
    | with_reducible assumption
    | (fail_if_no_progress extract_lets +onlyGivenNames x
       first | (refine Keeps.hyp x ?_ (fun _ => ?_); subst x; rotate_left; clear_value x; rotate_left) | clear_value x)
    | with_reducible apply keeps_busLatch
    | with_reducible apply keeps_busClear
    | with_reducible apply Keeps.ite1

theorem keeps_busReadWords (src k a : Nat) (s : State) {r0 : State} (hr : Keeps r0 s) : Keeps r0 (busReadWords src k a s).1 := by
  induction k generalizing a s with
  | zero => exact hr
  | succ k ih => exact ih _ _ (keeps_busReadWord _ _ _ _ hr)

theorem keeps_busRead (s : State) (src : Nat) (a : Nat) (n : Nat) {r0 : State} (hr : Keeps r0 s) : Keeps r0 (busRead s src a n).1 := by
  refine Keeps.trans hr ?_
  clear hr
  unfold busRead
  repeat' first
    | with_reducible apply Keeps.refl
    | intro _
    | with_reducible apply keeps_busReadWord
    | with_reducible apply keeps_busReadWords
    | with_reducible apply Keeps.ite1

theorem keeps_plainWrite (s : State) (a : Nat) (v : Nat) {r0 : State} (hr : Keeps r0 s) : Keeps r0 (plainWrite s a v) := by
  refine Keeps.trans hr ?_
  clear hr
  unfold plainWrite
  repeat' first
    | with_reducible apply Keeps.refl
    | intro _
    | with_reducible assumption
    | (fail_if_no_progress extract_lets +onlyGivenNames x
       first | (refine Keeps.hyp x ?_ (fun _ => ?_); subst x; rotate_left; clear_value x; rotate_left) | clear_value x)
    | with_reducible apply keeps_fieldsWrite
    | with_reducible apply Keeps.ite

theorem keeps_portCfgWrite (s : State) (a : Nat) (v : Nat) {r0 : State} (hr : Keeps r0 s) : Keeps r0 (portCfgWrite s a v) := by
  refine Keeps.trans hr ?_
  clear hr
  unfold portCfgWrite
  repeat' first
    | with_reducible apply Keeps.refl
    | intro _
    | with_reducible assumption
    | with_reducible apply keeps_plainWrite
    | with_reducible refine Keeps.ofPair (by assumption) ?_
    | with_reducible apply Keeps.ite
    | fail_if_no_progress (with_reducible apply Keeps.mk')

theorem keeps_cuWrite (s : State) (v : Nat) {r0 : State} (hr : Keeps r0 s) : Keeps r0 (cuWrite s v) := by
  refine Keeps.trans hr ?_
  clear hr
  unfold cuWrite
  repeat' first
    | with_reducible apply Keeps.refl
    | intro _
    | with_reducible assumption
    | (fail_if_no_progress extract_lets +onlyGivenNames x
       first | (refine Keeps.hyp x ?_ (fun _ => ?_); subst x; rotate_left; clear_value x; rotate_left) | clear_value x)
    | with_reducible apply keeps_State_wr
    | with_reducible apply Keeps.ite
    | fail_if_no_progress (with_reducible apply Keeps.mk')

theorem keeps_prbsCtrlWrite (s : State) (v : Nat) {r0 : State} (hr : Keeps r0 s) : Keeps r0 (prbsCtrlWrite s v) := by
  refine Keeps.trans hr ?_
  clear hr
  unfold prbsCtrlWrite
  repeat' first
    | with_reducible apply Keeps.refl
    | intro _
    | with_reducible assumption
    | (fail_if_no_progress extract_lets +onlyGivenNames x
       first | (refine Keeps.hyp x ?_ (fun _ => ?_); subst x; rotate_left; clear_value x; rotate_left) | clear_value x)
    | with_reducible apply keeps_fieldsWrite
    | with_reducible apply keeps_prbsWrite
    | with_reducible apply keeps_prbsInject
    | with_reducible apply keeps_State_wr
    | with_reducible refine Keeps.ofPair (by assumption) ?_
    | with_reducible apply Keeps.ite
    | fail_if_no_progress (with_reducible apply Keeps.mk')
    | split

theorem keeps_loopWrite (s : State) (v : Nat) {r0 : State} (hr : Keeps r0 s) : Keeps r0 (loopWrite s v) := by
  refine Keeps.trans hr ?_
  clear hr
  unfold loopWrite
  repeat' first
    | with_reducible apply Keeps.refl
    | intro _
    | with_reducible assumption
    | (fail_if_no_progress extract_lets +onlyGivenNames x
       first | (refine Keeps.hyp x ?_ (fun _ => ?_); subst x; rotate_left; clear_value x; rotate_left) | clear_value x)
    | with_reducible apply keeps_State_wr
    | with_reducible apply keeps_fieldsWrite
    | with_reducible apply Keeps.ite

theorem keeps_msixWrite (s : State) (a : Nat) (v : Nat) {r0 : State} (hr : Keeps r0 s) : Keeps r0 (msixWrite s a v) := by
  refine Keeps.trans hr ?_
  clear hr
  unfold msixWrite
  repeat' first
    | with_reducible apply Keeps.refl
    | intro _
    | with_reducible assumption
    | (fail_if_no_progress extract_lets +onlyGivenNames x
       first | (refine Keeps.hyp x ?_ (fun _ => ?_); subst x; rotate_left; clear_value x; rotate_left) | clear_value x)
    | with_reducible apply keeps_plainWrite
    | with_reducible apply keeps_msiOwed
    | with_reducible refine Keeps.ofPair (by assumption) ?_
    | with_reducible apply Keeps.ite
    | fail_if_no_progress (with_reducible apply Keeps.mk')

theorem keeps_epochCmd (s : State) (v : Nat) {r0 : State} (hr : Keeps r0 s) : Keeps r0 (epochCmd s v) := by
  refine Keeps.trans hr ?_
  clear hr
  unfold epochCmd
  repeat' first
    | with_reducible apply Keeps.refl
    | intro _
    | with_reducible apply keeps_epochSchedule
    | with_reducible apply keeps_epochCancel
    | with_reducible apply Keeps.ite

theorem keeps_setCmd (s : State) (op : Nat) {r0 : State} (hr : Keeps r0 s) : Keeps r0 (setCmd s op) := by
  refine Keeps.trans hr ?_
  clear hr
  unfold setCmd
  repeat' first
    | with_reducible apply Keeps.refl
    | intro _
    | with_reducible apply keeps_setSave
    | with_reducible apply keeps_setWrite
    | with_reducible apply keeps_setClear
    | with_reducible apply Keeps.ite

theorem keeps_updCmd (s : State) (op : Nat) (ports : Nat) {r0 : State} (hr : Keeps r0 s) : Keeps r0 (updCmd s op ports) := by
  refine Keeps.trans hr ?_
  clear hr
  unfold updCmd
  repeat' first
    | with_reducible apply Keeps.refl
    | intro _
    | with_reducible apply keeps_updLoad
    | with_reducible apply keeps_updArm
    | with_reducible apply keeps_updDisarm
    | with_reducible apply keeps_updConfirm
    | with_reducible apply keeps_updForward
    | with_reducible apply keeps_updAbort
    | with_reducible apply Keeps.ite

theorem keeps_nozCmd (s : State) (op : Nat) (nozzle : Nat) {r0 : State} (hr : Keeps r0 s) : Keeps r0 (nozCmd s op nozzle) := by
  refine Keeps.trans hr ?_
  clear hr
  unfold nozCmd
  repeat' first
    | with_reducible apply Keeps.refl
    | intro _
    | with_reducible apply keeps_nozRetire
    | with_reducible apply keeps_nozRestore
    | with_reducible apply keeps_nozRestorePlane
    | with_reducible apply Keeps.ite

theorem keeps_bar0Write (s : State) (a : Nat) (v : Nat) {r0 : State} (hr : Keeps r0 s) : Keeps r0 (bar0Write s a v) := by
  refine Keeps.trans hr ?_
  clear hr
  unfold bar0Write
  repeat' first
    | with_reducible apply Keeps.refl
    | intro _
    | with_reducible assumption
    | with_reducible apply keeps_powerWrite
    | with_reducible apply keeps_epochCmd
    | with_reducible apply keeps_scribeRestart
    | with_reducible apply keeps_leadUpdate
    | with_reducible apply keeps_vjobWrite
    | with_reducible apply keeps_expoGo
    | with_reducible apply keeps_groupWrite
    | with_reducible apply keeps_State_spend
    | with_reducible apply keeps_nozCmd
    | with_reducible apply keeps_cuWrite
    | with_reducible apply keeps_recalRequest
    | with_reducible apply keeps_motCommand
    | with_reducible apply keeps_ptpRestart
    | with_reducible apply keeps_plainWrite
    | with_reducible apply keeps_ppsOff
    | with_reducible apply keeps_timeSet
    | with_reducible apply keeps_laneCmd
    | with_reducible apply keeps_prbsCtrlWrite
    | with_reducible apply keeps_loopWrite
    | with_reducible apply keeps_pairCommand
    | with_reducible apply keeps_sensRestore
    | with_reducible apply keeps_State_cool
    | with_reducible apply keeps_resetAsk
    | with_reducible apply keeps_setCmd
    | with_reducible apply keeps_updCmd
    | with_reducible apply keeps_portCfgWrite
    | with_reducible apply keeps_msixWrite
    | with_reducible refine Keeps.ofPair (by assumption) ?_
    | with_reducible apply Keeps.ite
    | fail_if_no_progress (with_reducible apply Keeps.mk')
    | split

theorem keeps_bar2Write (s : State) (a : Nat) (v : Nat) {r0 : State} (hr : Keeps r0 s) : Keeps r0 (bar2Write s a v) := by
  refine Keeps.trans hr ?_
  clear hr
  unfold bar2Write
  repeat' first
    | with_reducible apply Keeps.refl
    | intro _
    | with_reducible assumption
    | (fail_if_no_progress extract_lets +onlyGivenNames x
       first | (refine Keeps.hyp x ?_ (fun _ => ?_); subst x; rotate_left; clear_value x; rotate_left) | clear_value x)
    | with_reducible apply keeps_catWindow
    | with_reducible apply keeps_doorProducer
    | with_reducible apply keeps_doorConsumer
    | with_reducible apply keeps_catInvalidateAll
    | with_reducible apply keeps_catInvalidate
    | with_reducible apply keeps_State_wr
    | with_reducible apply keeps_snapAsk
    | with_reducible apply keeps_plainWrite
    | with_reducible apply Keeps.ite

theorem keeps_bar4Write (s : State) (a : Nat) (v : Nat) {r0 : State} (hr : Keeps r0 s) : Keeps r0 (bar4Write s a v) := by
  refine Keeps.trans hr ?_
  clear hr
  unfold bar4Write
  repeat' first
    | with_reducible apply Keeps.refl
    | intro _
    | with_reducible apply keeps_gpRunStart
    | with_reducible apply keeps_gpRunStop
    | with_reducible apply keeps_gpDmaGo
    | with_reducible apply keeps_gpUnlock
    | with_reducible apply keeps_plainWrite
    | with_reducible apply Keeps.ite

theorem keeps_busWriteWord (s : State) (src : Nat) (a : Nat) (v : Nat) {r0 : State} (hr : Keeps r0 s) : Keeps r0 (busWriteWord s src a v) := by
  refine Keeps.trans hr ?_
  clear hr
  unfold busWriteWord
  repeat' first
    | with_reducible apply Keeps.refl
    | intro _
    | with_reducible assumption
    | (fail_if_no_progress extract_lets +onlyGivenNames x
       first | (refine Keeps.hyp x ?_ (fun _ => ?_); subst x; rotate_left; clear_value x; rotate_left) | clear_value x)
    | with_reducible apply keeps_State_settle
    | with_reducible apply keeps_bar0Write
    | with_reducible apply keeps_bar2Write
    | with_reducible apply keeps_bar4Write
    | with_reducible apply Keeps.ite

theorem keeps_busWriteNarrow (s : State) (src : Nat) (a : Nat) (n : Nat) (v : Nat) {r0 : State} (hr : Keeps r0 s) : Keeps r0 (busWriteNarrow s src a n v) := by
  refine Keeps.trans hr ?_
  clear hr
  unfold busWriteNarrow
  repeat' first
    | with_reducible apply Keeps.refl
    | intro _
    | with_reducible apply keeps_catWindowBytes
    | with_reducible apply Keeps.ite

theorem keeps_busWriteWords (src : Nat) (x1 : Nat) (x2 : Nat) (x3 : Nat) (x4 : State) {r0 : State} (hr : Keeps r0 x4) : Keeps r0 (busWriteWords src x1 x2 x3 x4) := by
  refine Keeps.trans hr ?_
  clear hr
  fun_induction busWriteWords src x1 x2 x3 x4
  repeat' first
    | with_reducible apply Keeps.refl
    | intro _
    | with_reducible refine Keeps.trans ?_ (by assumption)
    | with_reducible apply keeps_busWriteWord

theorem keeps_busWrite (s : State) (src : Nat) (a : Nat) (n : Nat) (v : Nat) {r0 : State} (hr : Keeps r0 s) : Keeps r0 (busWrite s src a n v) := by
  refine Keeps.trans hr ?_
  clear hr
  unfold busWrite
  repeat' first
    | with_reducible apply Keeps.refl
    | intro _
    | with_reducible apply keeps_busWriteWords
    | with_reducible apply keeps_busWriteNarrow
    | with_reducible apply Keeps.ite

theorem keeps_execRegisterWrite (t : Nat) (src : Nat) (addr : Nat) (size : Nat) (value : Nat) (s : State) {r0 : State} (hr : Keeps r0 s) : KeepsOut r0 (execRegisterWrite t src addr size value s) := by
  refine KeepsOut.trans hr ?_
  clear hr
  unfold execRegisterWrite
  repeat' first
    | with_reducible apply Keeps.refl
    | intro _
    | with_reducible apply keeps_busWrite
    | with_reducible apply keeps_State_at
    | with_reducible apply KeepsOut.next

theorem keeps_execRcRegisterRead (t : Nat) (src : Nat) (addr : Nat) (size : Nat) (s : State) {r0 : State} (hr : Keeps r0 s) : KeepsOut r0 (execRcRegisterRead t src addr size s) := by
  refine KeepsOut.trans hr ?_
  clear hr
  unfold execRcRegisterRead
  repeat' first
    | with_reducible apply Keeps.refl
    | intro _
    | with_reducible assumption
    | (fail_if_no_progress extract_lets +onlyGivenNames x
       first | (refine KeepsOut.hyp x ?_ (fun _ => ?_); subst x; rotate_left; clear_value x; rotate_left) | clear_value x)
    | (fail_if_no_progress extract_lets +onlyGivenNames x
       first | (refine Keeps.hyp x ?_ (fun _ => ?_); subst x; rotate_left; clear_value x; rotate_left) | clear_value x)
    | with_reducible apply keeps_busRead
    | with_reducible apply keeps_State_at
    | with_reducible apply keeps_State_emit
    | with_reducible apply KeepsOut.next

end Sys2Proof.Laws
end

