-- ==== Sys2Proof/Laws/KeepOperands.lean ====
section
/-! SUPPORT. `Keeps` of every operation of Machine/Operands.lean. -/

namespace Sys2Proof.Laws

open Sys2Proof.Machine

set_option linter.unusedTactic false
set_option linter.unreachableTactic false
set_option linter.tactic.unusedName false

theorem keeps_State_gset (s : State) (p : Nat) (n : Nat) (v : Word) {r0 : State} (hr : Keeps r0 s) : Keeps r0 (State.gset s p n v) := by
  refine Keeps.trans hr ?_
  clear hr
  unfold State.gset
  repeat' first
    | with_reducible apply Keeps.refl
    | intro _
    | with_reducible assumption
    | (fail_if_no_progress extract_lets +onlyGivenNames x
       first | (refine Keeps.hyp x ?_ (fun _ => ?_); subst x; rotate_left; clear_value x; rotate_left) | clear_value x)
    | with_reducible apply keeps_State_setEng
    | with_reducible apply Keeps.ite

theorem keeps_State_gnat (s : State) (p : Nat) (n : Nat) (v : Nat) {r0 : State} (hr : Keeps r0 s) : Keeps r0 (State.gnat s p n v) := by
  refine Keeps.trans hr ?_
  clear hr
  unfold State.gnat
  repeat' first
    | with_reducible apply Keeps.refl
    | intro _
    | with_reducible apply keeps_State_gset

theorem keeps_State_vset (s : State) (p : Nat) (n : Nat) (v : VWord) {r0 : State} (hr : Keeps r0 s) : Keeps r0 (State.vset s p n v) := by
  refine Keeps.trans hr ?_
  clear hr
  unfold State.vset
  repeat' first
    | with_reducible apply Keeps.refl
    | intro _
    | with_reducible assumption
    | (fail_if_no_progress extract_lets +onlyGivenNames x
       first | (refine Keeps.hyp x ?_ (fun _ => ?_); subst x; rotate_left; clear_value x; rotate_left) | clear_value x)
    | with_reducible apply keeps_State_setEng

theorem keeps_State_setPc (s : State) (p : Nat) (pc : Nat) {r0 : State} (hr : Keeps r0 s) : Keeps r0 (State.setPc s p pc) := by
  refine Keeps.trans hr ?_
  clear hr
  unfold State.setPc
  repeat' first
    | with_reducible apply Keeps.refl
    | intro _
    | with_reducible assumption
    | (fail_if_no_progress extract_lets +onlyGivenNames x
       first | (refine Keeps.hyp x ?_ (fun _ => ?_); subst x; rotate_left; clear_value x; rotate_left) | clear_value x)
    | with_reducible apply keeps_State_setEng

theorem keeps_fetchCheck (s : State) (p : Nat) {r0 : State} (hr : Keeps r0 s) : Keeps r0 (fetchCheck s p) := by
  refine Keeps.trans hr ?_
  clear hr
  unfold fetchCheck
  repeat' first
    | with_reducible apply Keeps.refl
    | intro _
    | with_reducible assumption
    | with_reducible apply keeps_folioFault
    | with_reducible refine Keeps.ofPair (by assumption) ?_
    | with_reducible apply Keeps.ite
    | fail_if_no_progress (with_reducible apply Keeps.mk')
    | split

theorem keeps_State_folio (s : State) (p : Nat) (f : State → State) (hf : ∀ u, Keeps u (f u)) {r0 : State} (hr : Keeps r0 s) :
    KeepsOut r0 (s.folio p f) := by
  refine KeepsOut.trans hr (KeepsOut.onEngine _ _ (Keeps.refl _) ?_)
  split
  · exact keeps_folioFault _ _ _ _ _ (Keeps.refl _)
  · exact keeps_fetchCheck _ _ ((keeps_State_setPc _ _ _ (Keeps.refl _)).trans (hf _))

theorem keeps_State_folioIf (s : State) (p word : Nat) (bad : State → Option (Nat × Nat)) (f : State → State) (hf : ∀ u, Keeps u (f u)) {r0 : State} (hr : Keeps r0 s) :
    KeepsOut r0 (s.folioIf p word bad f) := by
  refine KeepsOut.trans hr ?_
  unfold State.folioIf
  split
  · exact keeps_State_folio _ _ _ hf (Keeps.refl _)
  · refine KeepsOut.onEngine _ _ (Keeps.refl _) ?_
    split <;> exact keeps_folioFault _ _ _ _ _ (Keeps.refl _)

theorem keeps_deviceRead (s : State) (p : Nat) (a : Nat) (n : Nat) {r0 : State} (hr : Keeps r0 s) : Keeps r0 (deviceRead s p a n).1 := by
  refine Keeps.trans hr ?_
  clear hr
  unfold deviceRead
  repeat' first
    | with_reducible apply Keeps.refl
    | intro _
    | with_reducible assumption
    | (fail_if_no_progress extract_lets +onlyGivenNames x
       first | (refine Keeps.hyp x ?_ (fun _ => ?_); subst x; rotate_left; clear_value x; rotate_left) | clear_value x)
    | with_reducible apply keeps_busRead
    | with_reducible apply keeps_memFetch
    | with_reducible refine Keeps.ofPair (by assumption) ?_
    | fail_if_no_progress (with_reducible apply Keeps.mk')
    | split

theorem keeps_deviceWrite (s : State) (p : Nat) (a : Nat) (n : Nat) (v : Nat) {r0 : State} (hr : Keeps r0 s) : Keeps r0 (deviceWrite s p a n v) := by
  refine Keeps.trans hr ?_
  clear hr
  unfold deviceWrite
  repeat' first
    | with_reducible apply Keeps.refl
    | intro _
    | with_reducible assumption
    | (fail_if_no_progress extract_lets +onlyGivenNames x
       first | (refine Keeps.hyp x ?_ (fun _ => ?_); subst x; rotate_left; clear_value x; rotate_left) | clear_value x)
    | with_reducible apply keeps_busWrite
    | with_reducible apply keeps_State_pokeBytes
    | with_reducible refine Keeps.ofPair (by assumption) ?_
    | with_reducible apply Keeps.ite
    | fail_if_no_progress (with_reducible apply Keeps.mk')
    | split

theorem keeps_memLoad (s : State) (p : Nat) (w : Nat) (o : Nat) (n : Nat) {r0 : State} (hr : Keeps r0 s) : Keeps r0 (memLoad s p w o n).1 := by
  refine Keeps.trans hr ?_
  clear hr
  unfold memLoad
  repeat' first
    | with_reducible apply Keeps.refl
    | intro _
    | with_reducible assumption
    | (fail_if_no_progress extract_lets +onlyGivenNames x
       first | (refine Keeps.hyp x ?_ (fun _ => ?_); subst x; rotate_left; clear_value x; rotate_left) | clear_value x)
    | with_reducible apply keeps_deviceRead
    | with_reducible apply Keeps.ite1

theorem keeps_memStore (s : State) (p : Nat) (w : Nat) (o : Nat) (n : Nat) (v : Nat) {r0 : State} (hr : Keeps r0 s) : Keeps r0 (memStore s p w o n v) := by
  refine Keeps.trans hr ?_
  clear hr
  unfold memStore
  repeat' first
    | with_reducible apply Keeps.refl
    | intro _
    | with_reducible assumption
    | (fail_if_no_progress extract_lets +onlyGivenNames x
       first | (refine Keeps.hyp x ?_ (fun _ => ?_); subst x; rotate_left; clear_value x; rotate_left) | clear_value x)
    | with_reducible apply keeps_localWrite
    | with_reducible apply keeps_State_wr
    | with_reducible apply keeps_deviceWrite
    | with_reducible refine Keeps.ofPair (by assumption) ?_
    | with_reducible apply Keeps.ite
    | fail_if_no_progress (with_reducible apply Keeps.mk')
    | split

end Sys2Proof.Laws
end

