-- ==== Sys2Proof/Laws/KeepAlu.lean ====
section
/-! SUPPORT. `Keeps` of every operation of Machine/Alu.lean. -/

namespace Sys2Proof.Laws

open Sys2Proof.Machine

set_option linter.unusedTactic false
set_option linter.unreachableTactic false
set_option linter.tactic.unusedName false

theorem keeps_alu (p : Nat) (rd : Nat) (rs1 : Nat) (rs2 : Nat) (f : Word → Word → Word) (s : State) {r0 : State} (hr : Keeps r0 s) : KeepsOut r0 (alu p rd rs1 rs2 f s) := by
  refine KeepsOut.trans hr ?_
  clear hr
  unfold alu
  repeat' first
    | with_reducible apply Keeps.refl
    | intro _
    | with_reducible apply keeps_State_folio
    | with_reducible apply keeps_State_gset

theorem keeps_aluI (p : Nat) (rd : Nat) (rs1 : Nat) (f : Word → Word) (s : State) {r0 : State} (hr : Keeps r0 s) : KeepsOut r0 (aluI p rd rs1 f s) := by
  refine KeepsOut.trans hr ?_
  clear hr
  unfold aluI
  repeat' first
    | with_reducible apply Keeps.refl
    | intro _
    | with_reducible apply keeps_State_folio
    | with_reducible apply keeps_State_gset

theorem keeps_execAdd (p : Nat) (rd : Nat) (rs1 : Nat) (rs2 : Nat) (s : State) {r0 : State} (hr : Keeps r0 s) : KeepsOut r0 (execAdd p rd rs1 rs2 s) := by
  refine KeepsOut.trans hr ?_
  clear hr
  unfold execAdd
  repeat' first
    | with_reducible apply Keeps.refl
    | intro _
    | with_reducible apply keeps_alu

theorem keeps_execSub (p : Nat) (rd : Nat) (rs1 : Nat) (rs2 : Nat) (s : State) {r0 : State} (hr : Keeps r0 s) : KeepsOut r0 (execSub p rd rs1 rs2 s) := by
  refine KeepsOut.trans hr ?_
  clear hr
  unfold execSub
  repeat' first
    | with_reducible apply Keeps.refl
    | intro _
    | with_reducible apply keeps_alu

theorem keeps_execAndR (p : Nat) (rd : Nat) (rs1 : Nat) (rs2 : Nat) (s : State) {r0 : State} (hr : Keeps r0 s) : KeepsOut r0 (execAndR p rd rs1 rs2 s) := by
  refine KeepsOut.trans hr ?_
  clear hr
  unfold execAndR
  repeat' first
    | with_reducible apply Keeps.refl
    | intro _
    | with_reducible apply keeps_alu

theorem keeps_execOrR (p : Nat) (rd : Nat) (rs1 : Nat) (rs2 : Nat) (s : State) {r0 : State} (hr : Keeps r0 s) : KeepsOut r0 (execOrR p rd rs1 rs2 s) := by
  refine KeepsOut.trans hr ?_
  clear hr
  unfold execOrR
  repeat' first
    | with_reducible apply Keeps.refl
    | intro _
    | with_reducible apply keeps_alu

theorem keeps_execXorR (p : Nat) (rd : Nat) (rs1 : Nat) (rs2 : Nat) (s : State) {r0 : State} (hr : Keeps r0 s) : KeepsOut r0 (execXorR p rd rs1 rs2 s) := by
  refine KeepsOut.trans hr ?_
  clear hr
  unfold execXorR
  repeat' first
    | with_reducible apply Keeps.refl
    | intro _
    | with_reducible apply keeps_alu

theorem keeps_execSll (p : Nat) (rd : Nat) (rs1 : Nat) (rs2 : Nat) (s : State) {r0 : State} (hr : Keeps r0 s) : KeepsOut r0 (execSll p rd rs1 rs2 s) := by
  refine KeepsOut.trans hr ?_
  clear hr
  unfold execSll
  repeat' first
    | with_reducible apply Keeps.refl
    | intro _
    | with_reducible apply keeps_alu

theorem keeps_execSrl (p : Nat) (rd : Nat) (rs1 : Nat) (rs2 : Nat) (s : State) {r0 : State} (hr : Keeps r0 s) : KeepsOut r0 (execSrl p rd rs1 rs2 s) := by
  refine KeepsOut.trans hr ?_
  clear hr
  unfold execSrl
  repeat' first
    | with_reducible apply Keeps.refl
    | intro _
    | with_reducible apply keeps_alu

theorem keeps_execSra (p : Nat) (rd : Nat) (rs1 : Nat) (rs2 : Nat) (s : State) {r0 : State} (hr : Keeps r0 s) : KeepsOut r0 (execSra p rd rs1 rs2 s) := by
  refine KeepsOut.trans hr ?_
  clear hr
  unfold execSra
  repeat' first
    | with_reducible apply Keeps.refl
    | intro _
    | with_reducible apply keeps_alu

theorem keeps_execSlt (p : Nat) (rd : Nat) (rs1 : Nat) (rs2 : Nat) (s : State) {r0 : State} (hr : Keeps r0 s) : KeepsOut r0 (execSlt p rd rs1 rs2 s) := by
  refine KeepsOut.trans hr ?_
  clear hr
  unfold execSlt
  repeat' first
    | with_reducible apply Keeps.refl
    | intro _
    | with_reducible apply keeps_alu

theorem keeps_execSltu (p : Nat) (rd : Nat) (rs1 : Nat) (rs2 : Nat) (s : State) {r0 : State} (hr : Keeps r0 s) : KeepsOut r0 (execSltu p rd rs1 rs2 s) := by
  refine KeepsOut.trans hr ?_
  clear hr
  unfold execSltu
  repeat' first
    | with_reducible apply Keeps.refl
    | intro _
    | with_reducible apply keeps_alu

theorem keeps_execMul (p : Nat) (rd : Nat) (rs1 : Nat) (rs2 : Nat) (s : State) {r0 : State} (hr : Keeps r0 s) : KeepsOut r0 (execMul p rd rs1 rs2 s) := by
  refine KeepsOut.trans hr ?_
  clear hr
  unfold execMul
  repeat' first
    | with_reducible apply Keeps.refl
    | intro _
    | with_reducible apply keeps_alu

theorem keeps_execMulh (p : Nat) (rd : Nat) (rs1 : Nat) (rs2 : Nat) (s : State) {r0 : State} (hr : Keeps r0 s) : KeepsOut r0 (execMulh p rd rs1 rs2 s) := by
  refine KeepsOut.trans hr ?_
  clear hr
  unfold execMulh
  repeat' first
    | with_reducible apply Keeps.refl
    | intro _
    | with_reducible apply keeps_alu

theorem keeps_execMulhu (p : Nat) (rd : Nat) (rs1 : Nat) (rs2 : Nat) (s : State) {r0 : State} (hr : Keeps r0 s) : KeepsOut r0 (execMulhu p rd rs1 rs2 s) := by
  refine KeepsOut.trans hr ?_
  clear hr
  unfold execMulhu
  repeat' first
    | with_reducible apply Keeps.refl
    | intro _
    | with_reducible apply keeps_alu

theorem keeps_execDivu (p : Nat) (rd : Nat) (rs1 : Nat) (rs2 : Nat) (s : State) {r0 : State} (hr : Keeps r0 s) : KeepsOut r0 (execDivu p rd rs1 rs2 s) := by
  refine KeepsOut.trans hr ?_
  clear hr
  unfold execDivu
  repeat' first
    | with_reducible apply Keeps.refl
    | intro _
    | with_reducible apply keeps_alu

theorem keeps_execRemu (p : Nat) (rd : Nat) (rs1 : Nat) (rs2 : Nat) (s : State) {r0 : State} (hr : Keeps r0 s) : KeepsOut r0 (execRemu p rd rs1 rs2 s) := by
  refine KeepsOut.trans hr ?_
  clear hr
  unfold execRemu
  repeat' first
    | with_reducible apply Keeps.refl
    | intro _
    | with_reducible apply keeps_alu

theorem keeps_execMinS (p : Nat) (rd : Nat) (rs1 : Nat) (rs2 : Nat) (s : State) {r0 : State} (hr : Keeps r0 s) : KeepsOut r0 (execMinS p rd rs1 rs2 s) := by
  refine KeepsOut.trans hr ?_
  clear hr
  unfold execMinS
  repeat' first
    | with_reducible apply Keeps.refl
    | intro _
    | with_reducible apply keeps_alu

theorem keeps_execMaxS (p : Nat) (rd : Nat) (rs1 : Nat) (rs2 : Nat) (s : State) {r0 : State} (hr : Keeps r0 s) : KeepsOut r0 (execMaxS p rd rs1 rs2 s) := by
  refine KeepsOut.trans hr ?_
  clear hr
  unfold execMaxS
  repeat' first
    | with_reducible apply Keeps.refl
    | intro _
    | with_reducible apply keeps_alu

theorem keeps_execMinu (p : Nat) (rd : Nat) (rs1 : Nat) (rs2 : Nat) (s : State) {r0 : State} (hr : Keeps r0 s) : KeepsOut r0 (execMinu p rd rs1 rs2 s) := by
  refine KeepsOut.trans hr ?_
  clear hr
  unfold execMinu
  repeat' first
    | with_reducible apply Keeps.refl
    | intro _
    | with_reducible apply keeps_alu

theorem keeps_execMaxu (p : Nat) (rd : Nat) (rs1 : Nat) (rs2 : Nat) (s : State) {r0 : State} (hr : Keeps r0 s) : KeepsOut r0 (execMaxu p rd rs1 rs2 s) := by
  refine KeepsOut.trans hr ?_
  clear hr
  unfold execMaxu
  repeat' first
    | with_reducible apply Keeps.refl
    | intro _
    | with_reducible apply keeps_alu

theorem keeps_execClz (p : Nat) (rd : Nat) (rs1 : Nat) (s : State) {r0 : State} (hr : Keeps r0 s) : KeepsOut r0 (execClz p rd rs1 s) := by
  refine KeepsOut.trans hr ?_
  clear hr
  unfold execClz
  repeat' first
    | with_reducible apply Keeps.refl
    | intro _
    | with_reducible apply keeps_aluI

theorem keeps_execPopc (p : Nat) (rd : Nat) (rs1 : Nat) (s : State) {r0 : State} (hr : Keeps r0 s) : KeepsOut r0 (execPopc p rd rs1 s) := by
  refine KeepsOut.trans hr ?_
  clear hr
  unfold execPopc
  repeat' first
    | with_reducible apply Keeps.refl
    | intro _
    | with_reducible apply keeps_aluI

theorem keeps_execBfx (p : Nat) (rd : Nat) (rs1 : Nat) (rs2 : Nat) (k : Nat) (s : State) {r0 : State} (hr : Keeps r0 s) : KeepsOut r0 (execBfx p rd rs1 rs2 k s) := by
  refine KeepsOut.trans hr ?_
  clear hr
  unfold execBfx
  repeat' first
    | with_reducible apply Keeps.refl
    | intro _
    | with_reducible apply keeps_State_folioIf
    | with_reducible apply keeps_State_gset

theorem keeps_execAddi (p : Nat) (rd : Nat) (rs1 : Nat) (imm : Nat) (s : State) {r0 : State} (hr : Keeps r0 s) : KeepsOut r0 (execAddi p rd rs1 imm s) := by
  refine KeepsOut.trans hr ?_
  clear hr
  unfold execAddi
  repeat' first
    | with_reducible apply Keeps.refl
    | intro _
    | with_reducible apply keeps_aluI

theorem keeps_execAndi (p : Nat) (rd : Nat) (rs1 : Nat) (imm : Nat) (s : State) {r0 : State} (hr : Keeps r0 s) : KeepsOut r0 (execAndi p rd rs1 imm s) := by
  refine KeepsOut.trans hr ?_
  clear hr
  unfold execAndi
  repeat' first
    | with_reducible apply Keeps.refl
    | intro _
    | with_reducible apply keeps_aluI

theorem keeps_execOri (p : Nat) (rd : Nat) (rs1 : Nat) (imm : Nat) (s : State) {r0 : State} (hr : Keeps r0 s) : KeepsOut r0 (execOri p rd rs1 imm s) := by
  refine KeepsOut.trans hr ?_
  clear hr
  unfold execOri
  repeat' first
    | with_reducible apply Keeps.refl
    | intro _
    | with_reducible apply keeps_aluI

theorem keeps_execXori (p : Nat) (rd : Nat) (rs1 : Nat) (imm : Nat) (s : State) {r0 : State} (hr : Keeps r0 s) : KeepsOut r0 (execXori p rd rs1 imm s) := by
  refine KeepsOut.trans hr ?_
  clear hr
  unfold execXori
  repeat' first
    | with_reducible apply Keeps.refl
    | intro _
    | with_reducible apply keeps_aluI

theorem keeps_execLui (p : Nat) (rd : Nat) (imm : Nat) (s : State) {r0 : State} (hr : Keeps r0 s) : KeepsOut r0 (execLui p rd imm s) := by
  refine KeepsOut.trans hr ?_
  clear hr
  unfold execLui
  repeat' first
    | with_reducible apply Keeps.refl
    | intro _
    | with_reducible apply keeps_aluI

theorem keeps_execSlti (p : Nat) (rd : Nat) (rs1 : Nat) (imm : Nat) (s : State) {r0 : State} (hr : Keeps r0 s) : KeepsOut r0 (execSlti p rd rs1 imm s) := by
  refine KeepsOut.trans hr ?_
  clear hr
  unfold execSlti
  repeat' first
    | with_reducible apply Keeps.refl
    | intro _
    | with_reducible apply keeps_aluI

theorem keeps_execShi (p : Nat) (rd : Nat) (rs1 : Nat) (imm : Nat) (s : State) {r0 : State} (hr : Keeps r0 s) : KeepsOut r0 (execShi p rd rs1 imm s) := by
  refine KeepsOut.trans hr ?_
  clear hr
  unfold execShi
  repeat' first
    | with_reducible apply Keeps.refl
    | intro _
    | with_reducible apply keeps_State_folioIf
    | with_reducible apply keeps_State_gset

theorem keeps_execIllegalInstruction (p : Nat) (word : BitVec 32) (s : State) {r0 : State} (hr : Keeps r0 s) : KeepsOut r0 (execIllegalInstruction p word s) := by
  refine KeepsOut.trans hr ?_
  clear hr
  unfold execIllegalInstruction
  repeat' first
    | with_reducible apply Keeps.refl
    | intro _
    | with_reducible assumption
    | with_reducible apply keeps_State_folioIf
    | with_reducible apply KeepsOut.next
    | with_reducible apply KeepsOut.onEngine
    | with_reducible apply KeepsOut.ite
    | with_reducible refine Keeps.ofPair (by assumption) ?_
    | with_reducible apply Keeps.ite
    | fail_if_no_progress (with_reducible apply Keeps.mk')
    | split

end Sys2Proof.Laws
end

