-- ==== Sys2Proof/Laws/KeepAccess.lean ====
section
/-! SUPPORT. `Keeps` of every operation of Machine/Access.lean. -/

namespace Sys2Proof.Laws

open Sys2Proof.Machine

set_option linter.unusedTactic false
set_option linter.unreachableTactic false
set_option linter.tactic.unusedName false

theorem keeps_load (op : Nat) (n : Nat) (sgn : Bool) (p : Nat) (rt : Nat) (base : Nat) (win : Nat) (imm : Nat) (s : State) {r0 : State} (hr : Keeps r0 s) : KeepsOut r0 (load op n sgn p rt base win imm s) := by
  refine KeepsOut.trans hr ?_
  clear hr
  unfold load
  repeat' first
    | with_reducible apply Keeps.refl
    | intro _
    | with_reducible assumption
    | (fail_if_no_progress extract_lets +onlyGivenNames x
       first | (refine KeepsOut.hyp x ?_ (fun _ => ?_); subst x; rotate_left; clear_value x; rotate_left) | clear_value x)
    | with_reducible apply keeps_State_folioIf
    | with_reducible apply keeps_memLoad
    | with_reducible apply keeps_State_gset
    | with_reducible apply KeepsOut.next
    | with_reducible apply KeepsOut.onEngine
    | with_reducible apply KeepsOut.ite
    | with_reducible refine Keeps.ofPair (by assumption) ?_
    | with_reducible apply Keeps.ite
    | fail_if_no_progress (with_reducible apply Keeps.mk')
    | split

theorem keeps_store (op : Nat) (n : Nat) (p : Nat) (rt : Nat) (base : Nat) (win : Nat) (imm : Nat) (s : State) {r0 : State} (hr : Keeps r0 s) : KeepsOut r0 (store op n p rt base win imm s) := by
  refine KeepsOut.trans hr ?_
  clear hr
  unfold store
  repeat' first
    | with_reducible apply Keeps.refl
    | intro _
    | with_reducible apply keeps_State_folioIf
    | with_reducible apply keeps_memStore

theorem keeps_amoDo (s : State) (p : Nat) (win : Nat) (o : Nat) (fn : Nat) (v : Word) {r0 : State} (hr : Keeps r0 s) : Keeps r0 (amoDo s p win o fn v).1 := by
  refine Keeps.trans hr ?_
  clear hr
  unfold amoDo
  repeat' first
    | with_reducible apply Keeps.refl
    | intro _
    | with_reducible assumption
    | (fail_if_no_progress extract_lets +onlyGivenNames x
       first | (refine Keeps.hyp x ?_ (fun _ => ?_); subst x; rotate_left; clear_value x; rotate_left) | clear_value x)
    | with_reducible apply keeps_memLoad
    | with_reducible apply keeps_deviceRead
    | with_reducible apply keeps_memStore
    | with_reducible apply keeps_deviceWrite
    | with_reducible refine Keeps.ofPair (by assumption) ?_
    | with_reducible apply Keeps.ite1
    | with_reducible apply Keeps.ite

theorem keeps_execLb (p : Nat) (rt : Nat) (base : Nat) (win : Nat) (imm : Nat) (s : State) {r0 : State} (hr : Keeps r0 s) : KeepsOut r0 (execLb p rt base win imm s) := by
  refine KeepsOut.trans hr ?_
  clear hr
  unfold execLb
  repeat' first
    | with_reducible apply Keeps.refl
    | intro _
    | with_reducible apply keeps_load

theorem keeps_execLh (p : Nat) (rt : Nat) (base : Nat) (win : Nat) (imm : Nat) (s : State) {r0 : State} (hr : Keeps r0 s) : KeepsOut r0 (execLh p rt base win imm s) := by
  refine KeepsOut.trans hr ?_
  clear hr
  unfold execLh
  repeat' first
    | with_reducible apply Keeps.refl
    | intro _
    | with_reducible apply keeps_load

theorem keeps_execLw (p : Nat) (rt : Nat) (base : Nat) (win : Nat) (imm : Nat) (s : State) {r0 : State} (hr : Keeps r0 s) : KeepsOut r0 (execLw p rt base win imm s) := by
  refine KeepsOut.trans hr ?_
  clear hr
  unfold execLw
  repeat' first
    | with_reducible apply Keeps.refl
    | intro _
    | with_reducible apply keeps_load

theorem keeps_execLd (p : Nat) (rt : Nat) (base : Nat) (win : Nat) (imm : Nat) (s : State) {r0 : State} (hr : Keeps r0 s) : KeepsOut r0 (execLd p rt base win imm s) := by
  refine KeepsOut.trans hr ?_
  clear hr
  unfold execLd
  repeat' first
    | with_reducible apply Keeps.refl
    | intro _
    | with_reducible apply keeps_load

theorem keeps_execLbu (p : Nat) (rt : Nat) (base : Nat) (win : Nat) (imm : Nat) (s : State) {r0 : State} (hr : Keeps r0 s) : KeepsOut r0 (execLbu p rt base win imm s) := by
  refine KeepsOut.trans hr ?_
  clear hr
  unfold execLbu
  repeat' first
    | with_reducible apply Keeps.refl
    | intro _
    | with_reducible apply keeps_load

theorem keeps_execLhu (p : Nat) (rt : Nat) (base : Nat) (win : Nat) (imm : Nat) (s : State) {r0 : State} (hr : Keeps r0 s) : KeepsOut r0 (execLhu p rt base win imm s) := by
  refine KeepsOut.trans hr ?_
  clear hr
  unfold execLhu
  repeat' first
    | with_reducible apply Keeps.refl
    | intro _
    | with_reducible apply keeps_load

theorem keeps_execLwu (p : Nat) (rt : Nat) (base : Nat) (win : Nat) (imm : Nat) (s : State) {r0 : State} (hr : Keeps r0 s) : KeepsOut r0 (execLwu p rt base win imm s) := by
  refine KeepsOut.trans hr ?_
  clear hr
  unfold execLwu
  repeat' first
    | with_reducible apply Keeps.refl
    | intro _
    | with_reducible apply keeps_load

theorem keeps_execSb (p : Nat) (rt : Nat) (base : Nat) (win : Nat) (imm : Nat) (s : State) {r0 : State} (hr : Keeps r0 s) : KeepsOut r0 (execSb p rt base win imm s) := by
  refine KeepsOut.trans hr ?_
  clear hr
  unfold execSb
  repeat' first
    | with_reducible apply Keeps.refl
    | intro _
    | with_reducible apply keeps_store

theorem keeps_execSh (p : Nat) (rt : Nat) (base : Nat) (win : Nat) (imm : Nat) (s : State) {r0 : State} (hr : Keeps r0 s) : KeepsOut r0 (execSh p rt base win imm s) := by
  refine KeepsOut.trans hr ?_
  clear hr
  unfold execSh
  repeat' first
    | with_reducible apply Keeps.refl
    | intro _
    | with_reducible apply keeps_store

theorem keeps_execSw (p : Nat) (rt : Nat) (base : Nat) (win : Nat) (imm : Nat) (s : State) {r0 : State} (hr : Keeps r0 s) : KeepsOut r0 (execSw p rt base win imm s) := by
  refine KeepsOut.trans hr ?_
  clear hr
  unfold execSw
  repeat' first
    | with_reducible apply Keeps.refl
    | intro _
    | with_reducible apply keeps_store

theorem keeps_execSd (p : Nat) (rt : Nat) (base : Nat) (win : Nat) (imm : Nat) (s : State) {r0 : State} (hr : Keeps r0 s) : KeepsOut r0 (execSd p rt base win imm s) := by
  refine KeepsOut.trans hr ?_
  clear hr
  unfold execSd
  repeat' first
    | with_reducible apply Keeps.refl
    | intro _
    | with_reducible apply keeps_store

theorem keeps_execAmo (p : Nat) (rt : Nat) (base : Nat) (win : Nat) (rs2 : Nat) (fn : Nat) (s : State) {r0 : State} (hr : Keeps r0 s) : KeepsOut r0 (execAmo p rt base win rs2 fn s) := by
  refine KeepsOut.trans hr ?_
  clear hr
  unfold execAmo
  repeat' first
    | with_reducible apply Keeps.refl
    | intro _
    | with_reducible assumption
    | (fail_if_no_progress extract_lets +onlyGivenNames x
       first | (refine KeepsOut.hyp x ?_ (fun _ => ?_); subst x; rotate_left; clear_value x; rotate_left) | clear_value x)
    | with_reducible apply keeps_State_folioIf
    | with_reducible apply keeps_amoDo
    | with_reducible apply keeps_State_gset
    | with_reducible apply KeepsOut.next
    | with_reducible apply KeepsOut.onEngine
    | with_reducible apply KeepsOut.ite
    | with_reducible refine Keeps.ofPair (by assumption) ?_
    | with_reducible apply Keeps.ite
    | fail_if_no_progress (with_reducible apply Keeps.mk')
    | split

end Sys2Proof.Laws
end

