-- ==== Sys2Proof/Laws/KeepBranch.lean ====
section
/-! SUPPORT. `Keeps` of every operation of Machine/Branch.lean. -/

namespace Sys2Proof.Laws

open Sys2Proof.Machine

set_option linter.unusedTactic false
set_option linter.unreachableTactic false
set_option linter.tactic.unusedName false

theorem keeps_branch (p : Nat) (rs1 : Nat) (rs2 : Nat) (off : Nat) (f : Word → Word → Bool) (s : State) {r0 : State} (hr : Keeps r0 s) : KeepsOut r0 (branch p rs1 rs2 off f s) := by
  refine KeepsOut.trans hr ?_
  clear hr
  unfold branch
  repeat' first
    | with_reducible apply Keeps.refl
    | intro _
    | with_reducible assumption
    | (fail_if_no_progress extract_lets +onlyGivenNames x
       first | (refine KeepsOut.hyp x ?_ (fun _ => ?_); subst x; rotate_left; clear_value x; rotate_left) | clear_value x)
    | (fail_if_no_progress extract_lets +onlyGivenNames x
       first | (refine Keeps.hyp x ?_ (fun _ => ?_); subst x; rotate_left; clear_value x; rotate_left) | clear_value x)
    | with_reducible apply keeps_State_folio
    | with_reducible apply keeps_State_setPc
    | with_reducible apply KeepsOut.next
    | with_reducible apply KeepsOut.ite
    | with_reducible apply KeepsOut.onEngine
    | with_reducible apply Keeps.ite

theorem keeps_execBeq (p : Nat) (rs1 : Nat) (rs2 : Nat) (off : Nat) (s : State) {r0 : State} (hr : Keeps r0 s) : KeepsOut r0 (execBeq p rs1 rs2 off s) := by
  refine KeepsOut.trans hr ?_
  clear hr
  unfold execBeq
  repeat' first
    | with_reducible apply Keeps.refl
    | intro _
    | with_reducible apply keeps_branch

theorem keeps_execBne (p : Nat) (rs1 : Nat) (rs2 : Nat) (off : Nat) (s : State) {r0 : State} (hr : Keeps r0 s) : KeepsOut r0 (execBne p rs1 rs2 off s) := by
  refine KeepsOut.trans hr ?_
  clear hr
  unfold execBne
  repeat' first
    | with_reducible apply Keeps.refl
    | intro _
    | with_reducible apply keeps_branch

theorem keeps_execBlt (p : Nat) (rs1 : Nat) (rs2 : Nat) (off : Nat) (s : State) {r0 : State} (hr : Keeps r0 s) : KeepsOut r0 (execBlt p rs1 rs2 off s) := by
  refine KeepsOut.trans hr ?_
  clear hr
  unfold execBlt
  repeat' first
    | with_reducible apply Keeps.refl
    | intro _
    | with_reducible apply keeps_branch

theorem keeps_execBge (p : Nat) (rs1 : Nat) (rs2 : Nat) (off : Nat) (s : State) {r0 : State} (hr : Keeps r0 s) : KeepsOut r0 (execBge p rs1 rs2 off s) := by
  refine KeepsOut.trans hr ?_
  clear hr
  unfold execBge
  repeat' first
    | with_reducible apply Keeps.refl
    | intro _
    | with_reducible apply keeps_branch

theorem keeps_execBltu (p : Nat) (rs1 : Nat) (rs2 : Nat) (off : Nat) (s : State) {r0 : State} (hr : Keeps r0 s) : KeepsOut r0 (execBltu p rs1 rs2 off s) := by
  refine KeepsOut.trans hr ?_
  clear hr
  unfold execBltu
  repeat' first
    | with_reducible apply Keeps.refl
    | intro _
    | with_reducible apply keeps_branch

theorem keeps_execBgeu (p : Nat) (rs1 : Nat) (rs2 : Nat) (off : Nat) (s : State) {r0 : State} (hr : Keeps r0 s) : KeepsOut r0 (execBgeu p rs1 rs2 off s) := by
  refine KeepsOut.trans hr ?_
  clear hr
  unfold execBgeu
  repeat' first
    | with_reducible apply Keeps.refl
    | intro _
    | with_reducible apply keeps_branch

theorem keeps_execJal (p : Nat) (off : Nat) (s : State) {r0 : State} (hr : Keeps r0 s) : KeepsOut r0 (execJal p off s) := by
  refine KeepsOut.trans hr ?_
  clear hr
  unfold execJal
  repeat' first
    | with_reducible apply Keeps.refl
    | intro _
    | with_reducible assumption
    | (fail_if_no_progress extract_lets +onlyGivenNames x
       first | (refine KeepsOut.hyp x ?_ (fun _ => ?_); subst x; rotate_left; clear_value x; rotate_left) | clear_value x)
    | (fail_if_no_progress extract_lets +onlyGivenNames x
       first | (refine Keeps.hyp x ?_ (fun _ => ?_); subst x; rotate_left; clear_value x; rotate_left) | clear_value x)
    | with_reducible apply keeps_State_folio
    | with_reducible apply keeps_State_setPc
    | with_reducible apply keeps_State_gnat

theorem keeps_execJalr (p : Nat) (rd : Nat) (rs1 : Nat) (imm : Nat) (s : State) {r0 : State} (hr : Keeps r0 s) : KeepsOut r0 (execJalr p rd rs1 imm s) := by
  refine KeepsOut.trans hr ?_
  clear hr
  unfold execJalr
  repeat' first
    | with_reducible apply Keeps.refl
    | intro _
    | with_reducible assumption
    | (fail_if_no_progress extract_lets +onlyGivenNames x
       first | (refine KeepsOut.hyp x ?_ (fun _ => ?_); subst x; rotate_left; clear_value x; rotate_left) | clear_value x)
    | (fail_if_no_progress extract_lets +onlyGivenNames x
       first | (refine Keeps.hyp x ?_ (fun _ => ?_); subst x; rotate_left; clear_value x; rotate_left) | clear_value x)
    | with_reducible apply keeps_State_folioIf
    | with_reducible apply keeps_State_setPc
    | with_reducible apply keeps_State_gnat

end Sys2Proof.Laws
end

