-- ==== Sys2Proof/Laws/KeepVec.lean ====
section
/-! SUPPORT. `Keeps` of every operation of Machine/Vec.lean. -/

namespace Sys2Proof.Laws

open Sys2Proof.Machine

set_option linter.unusedTactic false
set_option linter.unreachableTactic false
set_option linter.tactic.unusedName false

theorem keeps_vec2 (sub : Nat) (p : Nat) (vd : Nat) (vs1 : Nat) (vs2 : Nat) (f : Lane16 → Lane16 → Lane16) (s : State) {r0 : State} (hr : Keeps r0 s) : KeepsOut r0 (vec2 sub p vd vs1 vs2 f s) := by
  refine KeepsOut.trans hr ?_
  clear hr
  unfold vec2
  repeat' first
    | with_reducible apply Keeps.refl
    | intro _
    | with_reducible apply keeps_State_folioIf
    | with_reducible apply keeps_State_vset

theorem keeps_vecK (sub : Nat) (p : Nat) (vd : Nat) (vs1 : Nat) (k : Nat) (f : Nat → Lane16 → Lane16) (s : State) {r0 : State} (hr : Keeps r0 s) : KeepsOut r0 (vecK sub p vd vs1 k f s) := by
  refine KeepsOut.trans hr ?_
  clear hr
  unfold vecK
  repeat' first
    | with_reducible apply Keeps.refl
    | intro _
    | with_reducible apply keeps_State_folioIf
    | with_reducible apply keeps_State_vset

theorem keeps_execVadd (p : Nat) (vd : Nat) (vs1 : Nat) (vs2 : Nat) (s : State) {r0 : State} (hr : Keeps r0 s) : KeepsOut r0 (execVadd p vd vs1 vs2 s) := by
  refine KeepsOut.trans hr ?_
  clear hr
  unfold execVadd
  repeat' first
    | with_reducible apply Keeps.refl
    | intro _
    | with_reducible apply keeps_vec2

theorem keeps_execVsub (p : Nat) (vd : Nat) (vs1 : Nat) (vs2 : Nat) (s : State) {r0 : State} (hr : Keeps r0 s) : KeepsOut r0 (execVsub p vd vs1 vs2 s) := by
  refine KeepsOut.trans hr ?_
  clear hr
  unfold execVsub
  repeat' first
    | with_reducible apply Keeps.refl
    | intro _
    | with_reducible apply keeps_vec2

theorem keeps_execVadds (p : Nat) (vd : Nat) (vs1 : Nat) (vs2 : Nat) (s : State) {r0 : State} (hr : Keeps r0 s) : KeepsOut r0 (execVadds p vd vs1 vs2 s) := by
  refine KeepsOut.trans hr ?_
  clear hr
  unfold execVadds
  repeat' first
    | with_reducible apply Keeps.refl
    | intro _
    | with_reducible apply keeps_vec2

theorem keeps_execVsubs (p : Nat) (vd : Nat) (vs1 : Nat) (vs2 : Nat) (s : State) {r0 : State} (hr : Keeps r0 s) : KeepsOut r0 (execVsubs p vd vs1 vs2 s) := by
  refine KeepsOut.trans hr ?_
  clear hr
  unfold execVsubs
  repeat' first
    | with_reducible apply Keeps.refl
    | intro _
    | with_reducible apply keeps_vec2

theorem keeps_execVaddus (p : Nat) (vd : Nat) (vs1 : Nat) (vs2 : Nat) (s : State) {r0 : State} (hr : Keeps r0 s) : KeepsOut r0 (execVaddus p vd vs1 vs2 s) := by
  refine KeepsOut.trans hr ?_
  clear hr
  unfold execVaddus
  repeat' first
    | with_reducible apply Keeps.refl
    | intro _
    | with_reducible apply keeps_vec2

theorem keeps_execVsubus (p : Nat) (vd : Nat) (vs1 : Nat) (vs2 : Nat) (s : State) {r0 : State} (hr : Keeps r0 s) : KeepsOut r0 (execVsubus p vd vs1 vs2 s) := by
  refine KeepsOut.trans hr ?_
  clear hr
  unfold execVsubus
  repeat' first
    | with_reducible apply Keeps.refl
    | intro _
    | with_reducible apply keeps_vec2

theorem keeps_execVmul (p : Nat) (vd : Nat) (vs1 : Nat) (vs2 : Nat) (s : State) {r0 : State} (hr : Keeps r0 s) : KeepsOut r0 (execVmul p vd vs1 vs2 s) := by
  refine KeepsOut.trans hr ?_
  clear hr
  unfold execVmul
  repeat' first
    | with_reducible apply Keeps.refl
    | intro _
    | with_reducible apply keeps_vec2

theorem keeps_execVmulh (p : Nat) (vd : Nat) (vs1 : Nat) (vs2 : Nat) (s : State) {r0 : State} (hr : Keeps r0 s) : KeepsOut r0 (execVmulh p vd vs1 vs2 s) := by
  refine KeepsOut.trans hr ?_
  clear hr
  unfold execVmulh
  repeat' first
    | with_reducible apply Keeps.refl
    | intro _
    | with_reducible apply keeps_vec2

theorem keeps_execVmulq (p : Nat) (vd : Nat) (vs1 : Nat) (vs2 : Nat) (s : State) {r0 : State} (hr : Keeps r0 s) : KeepsOut r0 (execVmulq p vd vs1 vs2 s) := by
  refine KeepsOut.trans hr ?_
  clear hr
  unfold execVmulq
  repeat' first
    | with_reducible apply Keeps.refl
    | intro _
    | with_reducible apply keeps_vec2

theorem keeps_execVmin (p : Nat) (vd : Nat) (vs1 : Nat) (vs2 : Nat) (s : State) {r0 : State} (hr : Keeps r0 s) : KeepsOut r0 (execVmin p vd vs1 vs2 s) := by
  refine KeepsOut.trans hr ?_
  clear hr
  unfold execVmin
  repeat' first
    | with_reducible apply Keeps.refl
    | intro _
    | with_reducible apply keeps_vec2

theorem keeps_execVmax (p : Nat) (vd : Nat) (vs1 : Nat) (vs2 : Nat) (s : State) {r0 : State} (hr : Keeps r0 s) : KeepsOut r0 (execVmax p vd vs1 vs2 s) := by
  refine KeepsOut.trans hr ?_
  clear hr
  unfold execVmax
  repeat' first
    | with_reducible apply Keeps.refl
    | intro _
    | with_reducible apply keeps_vec2

theorem keeps_execVminu (p : Nat) (vd : Nat) (vs1 : Nat) (vs2 : Nat) (s : State) {r0 : State} (hr : Keeps r0 s) : KeepsOut r0 (execVminu p vd vs1 vs2 s) := by
  refine KeepsOut.trans hr ?_
  clear hr
  unfold execVminu
  repeat' first
    | with_reducible apply Keeps.refl
    | intro _
    | with_reducible apply keeps_vec2

theorem keeps_execVmaxu (p : Nat) (vd : Nat) (vs1 : Nat) (vs2 : Nat) (s : State) {r0 : State} (hr : Keeps r0 s) : KeepsOut r0 (execVmaxu p vd vs1 vs2 s) := by
  refine KeepsOut.trans hr ?_
  clear hr
  unfold execVmaxu
  repeat' first
    | with_reducible apply Keeps.refl
    | intro _
    | with_reducible apply keeps_vec2

theorem keeps_execVabsdu (p : Nat) (vd : Nat) (vs1 : Nat) (vs2 : Nat) (s : State) {r0 : State} (hr : Keeps r0 s) : KeepsOut r0 (execVabsdu p vd vs1 vs2 s) := by
  refine KeepsOut.trans hr ?_
  clear hr
  unfold execVabsdu
  repeat' first
    | with_reducible apply Keeps.refl
    | intro _
    | with_reducible apply keeps_vec2

theorem keeps_execVand (p : Nat) (vd : Nat) (vs1 : Nat) (vs2 : Nat) (s : State) {r0 : State} (hr : Keeps r0 s) : KeepsOut r0 (execVand p vd vs1 vs2 s) := by
  refine KeepsOut.trans hr ?_
  clear hr
  unfold execVand
  repeat' first
    | with_reducible apply Keeps.refl
    | intro _
    | with_reducible apply keeps_vec2

theorem keeps_execVor (p : Nat) (vd : Nat) (vs1 : Nat) (vs2 : Nat) (s : State) {r0 : State} (hr : Keeps r0 s) : KeepsOut r0 (execVor p vd vs1 vs2 s) := by
  refine KeepsOut.trans hr ?_
  clear hr
  unfold execVor
  repeat' first
    | with_reducible apply Keeps.refl
    | intro _
    | with_reducible apply keeps_vec2

theorem keeps_execVxor (p : Nat) (vd : Nat) (vs1 : Nat) (vs2 : Nat) (s : State) {r0 : State} (hr : Keeps r0 s) : KeepsOut r0 (execVxor p vd vs1 vs2 s) := by
  refine KeepsOut.trans hr ?_
  clear hr
  unfold execVxor
  repeat' first
    | with_reducible apply Keeps.refl
    | intro _
    | with_reducible apply keeps_vec2

theorem keeps_execVshl (p : Nat) (vd : Nat) (vs1 : Nat) (k : Nat) (s : State) {r0 : State} (hr : Keeps r0 s) : KeepsOut r0 (execVshl p vd vs1 k s) := by
  refine KeepsOut.trans hr ?_
  clear hr
  unfold execVshl
  repeat' first
    | with_reducible apply Keeps.refl
    | intro _
    | with_reducible apply keeps_vecK

theorem keeps_execVsrl (p : Nat) (vd : Nat) (vs1 : Nat) (k : Nat) (s : State) {r0 : State} (hr : Keeps r0 s) : KeepsOut r0 (execVsrl p vd vs1 k s) := by
  refine KeepsOut.trans hr ?_
  clear hr
  unfold execVsrl
  repeat' first
    | with_reducible apply Keeps.refl
    | intro _
    | with_reducible apply keeps_vecK

theorem keeps_execVsra (p : Nat) (vd : Nat) (vs1 : Nat) (k : Nat) (s : State) {r0 : State} (hr : Keeps r0 s) : KeepsOut r0 (execVsra p vd vs1 k s) := by
  refine KeepsOut.trans hr ?_
  clear hr
  unfold execVsra
  repeat' first
    | with_reducible apply Keeps.refl
    | intro _
    | with_reducible apply keeps_vecK

theorem keeps_execVcgt (p : Nat) (vd : Nat) (vs1 : Nat) (vs2 : Nat) (s : State) {r0 : State} (hr : Keeps r0 s) : KeepsOut r0 (execVcgt p vd vs1 vs2 s) := by
  refine KeepsOut.trans hr ?_
  clear hr
  unfold execVcgt
  repeat' first
    | with_reducible apply Keeps.refl
    | intro _
    | with_reducible apply keeps_vec2

theorem keeps_execVcgtu (p : Nat) (vd : Nat) (vs1 : Nat) (vs2 : Nat) (s : State) {r0 : State} (hr : Keeps r0 s) : KeepsOut r0 (execVcgtu p vd vs1 vs2 s) := by
  refine KeepsOut.trans hr ?_
  clear hr
  unfold execVcgtu
  repeat' first
    | with_reducible apply Keeps.refl
    | intro _
    | with_reducible apply keeps_vec2

theorem keeps_execVceq (p : Nat) (vd : Nat) (vs1 : Nat) (vs2 : Nat) (s : State) {r0 : State} (hr : Keeps r0 s) : KeepsOut r0 (execVceq p vd vs1 vs2 s) := by
  refine KeepsOut.trans hr ?_
  clear hr
  unfold execVceq
  repeat' first
    | with_reducible apply Keeps.refl
    | intro _
    | with_reducible apply keeps_vec2

theorem keeps_execVsel (p : Nat) (vd : Nat) (vs1 : Nat) (vs2 : Nat) (s : State) {r0 : State} (hr : Keeps r0 s) : KeepsOut r0 (execVsel p vd vs1 vs2 s) := by
  refine KeepsOut.trans hr ?_
  clear hr
  unfold execVsel
  repeat' first
    | with_reducible apply Keeps.refl
    | intro _
    | with_reducible apply keeps_State_folioIf
    | with_reducible apply keeps_State_vset

theorem keeps_execVema (p : Nat) (vd : Nat) (vs1 : Nat) (k : Nat) (s : State) {r0 : State} (hr : Keeps r0 s) : KeepsOut r0 (execVema p vd vs1 k s) := by
  refine KeepsOut.trans hr ?_
  clear hr
  unfold execVema
  repeat' first
    | with_reducible apply Keeps.refl
    | intro _
    | with_reducible apply keeps_State_folioIf
    | with_reducible apply keeps_State_vset

theorem keeps_execVsplat (p : Nat) (vd : Nat) (rs1 : Nat) (s : State) {r0 : State} (hr : Keeps r0 s) : KeepsOut r0 (execVsplat p vd rs1 s) := by
  refine KeepsOut.trans hr ?_
  clear hr
  unfold execVsplat
  repeat' first
    | with_reducible apply Keeps.refl
    | intro _
    | with_reducible apply keeps_State_folioIf
    | with_reducible apply keeps_State_vset

theorem keeps_execVextu (p : Nat) (rd : Nat) (vs1 : Nat) (k : Nat) (s : State) {r0 : State} (hr : Keeps r0 s) : KeepsOut r0 (execVextu p rd vs1 k s) := by
  refine KeepsOut.trans hr ?_
  clear hr
  unfold execVextu
  repeat' first
    | with_reducible apply Keeps.refl
    | intro _
    | with_reducible apply keeps_State_folioIf
    | with_reducible apply keeps_State_gnat

theorem keeps_execVins (p : Nat) (vd : Nat) (rs1 : Nat) (k : Nat) (s : State) {r0 : State} (hr : Keeps r0 s) : KeepsOut r0 (execVins p vd rs1 k s) := by
  refine KeepsOut.trans hr ?_
  clear hr
  unfold execVins
  repeat' first
    | with_reducible apply Keeps.refl
    | intro _
    | with_reducible apply keeps_State_folioIf
    | with_reducible apply keeps_State_vset

theorem keeps_execVredadd (p : Nat) (rd : Nat) (vs1 : Nat) (s : State) {r0 : State} (hr : Keeps r0 s) : KeepsOut r0 (execVredadd p rd vs1 s) := by
  refine KeepsOut.trans hr ?_
  clear hr
  unfold execVredadd
  repeat' first
    | with_reducible apply Keeps.refl
    | intro _
    | with_reducible apply keeps_State_folioIf
    | with_reducible apply keeps_State_gset

theorem keeps_execVany (p : Nat) (rd : Nat) (vs1 : Nat) (s : State) {r0 : State} (hr : Keeps r0 s) : KeepsOut r0 (execVany p rd vs1 s) := by
  refine KeepsOut.trans hr ?_
  clear hr
  unfold execVany
  repeat' first
    | with_reducible apply Keeps.refl
    | intro _
    | with_reducible apply keeps_State_folioIf
    | with_reducible apply keeps_State_gnat

theorem keeps_execVld (p : Nat) (vt : Nat) (base : Nat) (win : Nat) (imm : Nat) (s : State) {r0 : State} (hr : Keeps r0 s) : KeepsOut r0 (execVld p vt base win imm s) := by
  refine KeepsOut.trans hr ?_
  clear hr
  unfold execVld
  repeat' first
    | with_reducible apply Keeps.refl
    | intro _
    | with_reducible assumption
    | (fail_if_no_progress extract_lets +onlyGivenNames x
       first | (refine KeepsOut.hyp x ?_ (fun _ => ?_); subst x; rotate_left; clear_value x; rotate_left) | clear_value x)
    | with_reducible apply keeps_State_folioIf
    | with_reducible apply keeps_memLoad
    | with_reducible apply keeps_State_vset
    | with_reducible apply KeepsOut.next
    | with_reducible apply KeepsOut.onEngine
    | with_reducible apply KeepsOut.ite
    | with_reducible refine Keeps.ofPair (by assumption) ?_
    | with_reducible apply Keeps.ite
    | fail_if_no_progress (with_reducible apply Keeps.mk')
    | split

theorem keeps_execVst (p : Nat) (vt : Nat) (base : Nat) (win : Nat) (imm : Nat) (s : State) {r0 : State} (hr : Keeps r0 s) : KeepsOut r0 (execVst p vt base win imm s) := by
  refine KeepsOut.trans hr ?_
  clear hr
  unfold execVst
  repeat' first
    | with_reducible apply Keeps.refl
    | intro _
    | with_reducible apply keeps_State_folioIf
    | with_reducible apply keeps_memStore

end Sys2Proof.Laws
end

