-- ==== Sys2Proof/Laws/KeepDevices.lean ====
section
/-! SUPPORT. `Keeps` of every operation of Machine/Devices.lean. -/

namespace Sys2Proof.Laws

open Sys2Proof.Machine

set_option linter.unusedTactic false
set_option linter.unreachableTactic false
set_option linter.tactic.unusedName false

theorem keeps_devOp (p : Nat) (rd : Nat) (f : State → State × Nat) (s : State) (hf : ∀ y0, Keeps y0 (f y0).1) {r0 : State} (hr : Keeps r0 s) : KeepsOut r0 (devOp p rd f s) := by
  refine KeepsOut.trans hr ?_
  clear hr
  unfold devOp
  repeat' first
    | with_reducible apply Keeps.refl
    | intro _
    | with_reducible assumption
    | (fail_if_no_progress extract_lets +onlyGivenNames x
       first | (refine KeepsOut.hyp x ?_ (fun _ => ?_); subst x; rotate_left; clear_value x; rotate_left) | clear_value x)
    | (fail_if_no_progress extract_lets +onlyGivenNames x
       first | (refine Keeps.hyp x ?_ (fun _ => ?_); subst x; rotate_left; clear_value x; rotate_left) | clear_value x)
    | with_reducible refine Keeps.trans ?_ (hf ..)
    | with_reducible refine KeepsOut.next (Keeps.trans ?_ (hf ..))
    | with_reducible apply keeps_State_folio
    | with_reducible apply keeps_State_gnat

theorem keeps_copyOp (op : Nat) (sub : Nat) (p : Nat) (rd : Nat) (rs1 : Nat) (rs2 : Nat) (r : Nat) (f : State → State × Nat) (s : State) (hf : ∀ y0, Keeps y0 (f y0).1) {r0 : State} (hr : Keeps r0 s) : KeepsOut r0 (copyOp op sub p rd rs1 rs2 r f s) := by
  refine KeepsOut.trans hr ?_
  clear hr
  unfold copyOp
  repeat' first
    | with_reducible apply Keeps.refl
    | intro _
    | with_reducible assumption
    | (fail_if_no_progress extract_lets +onlyGivenNames x
       first | (refine KeepsOut.hyp x ?_ (fun _ => ?_); subst x; rotate_left; clear_value x; rotate_left) | clear_value x)
    | with_reducible apply keeps_State_folioIf
    | with_reducible apply keeps_State_gnat
    | with_reducible refine Keeps.trans ?_ (hf ..)
    | with_reducible apply KeepsOut.next
    | with_reducible apply KeepsOut.onEngine
    | with_reducible apply KeepsOut.ite
    | with_reducible refine Keeps.ofPair (by assumption) ?_
    | with_reducible apply Keeps.ite
    | fail_if_no_progress (with_reducible apply Keeps.mk')
    | split

theorem keeps_ringPush (s : State) (p : Nat) (n : Nat) (o : Nat) {r0 : State} (hr : Keeps r0 s) : Keeps r0 (ringPush s p n o).1 := by
  refine Keeps.trans hr ?_
  clear hr
  unfold ringPush
  repeat' first
    | with_reducible apply Keeps.refl
    | intro _
    | with_reducible assumption
    | (fail_if_no_progress extract_lets +onlyGivenNames x
       first | (refine Keeps.hyp x ?_ (fun _ => ?_); subst x; rotate_left; clear_value x; rotate_left) | clear_value x)
    | with_reducible apply keeps_ringPublish
    | with_reducible apply keeps_State_pokeBytes
    | with_reducible refine Keeps.ofPair (by assumption) ?_
    | with_reducible apply Keeps.ite
    | with_reducible apply Keeps.ite1
    | fail_if_no_progress (with_reducible apply Keeps.mk')
    | split

theorem keeps_ringPop (s : State) (p n o : Nat) {r0 : State} (hr : Keeps r0 s) : Keeps r0 (ringPop s p n o).1 := by
  unfold ringPop
  exact Keeps.ite1 hr (keeps_localWrite _ _ _ _ (keeps_ringTake _ _ _ hr))

theorem keeps_ringDone (s : State) (p : Nat) (v : Nat) (n : Nat) (o : Nat) {r0 : State} (hr : Keeps r0 s) : Keeps r0 (ringDone s p v n o) := by
  refine Keeps.trans hr ?_
  clear hr
  unfold ringDone
  repeat' first
    | with_reducible apply Keeps.refl
    | intro _
    | with_reducible assumption
    | (fail_if_no_progress extract_lets +onlyGivenNames x
       first | (refine Keeps.hyp x ?_ (fun _ => ?_); subst x; rotate_left; clear_value x; rotate_left) | clear_value x)
    | with_reducible apply keeps_ringComplete
    | with_reducible apply Keeps.ite

theorem keeps_ledSnap (s : State) (p : Nat) {r0 : State} (hr : Keeps r0 s) : Keeps r0 (ledSnap s p).1 := by
  refine Keeps.trans hr ?_
  clear hr
  unfold ledSnap
  repeat' first
    | with_reducible apply Keeps.refl
    | intro _
    | with_reducible assumption
    | (fail_if_no_progress extract_lets +onlyGivenNames x
       first | (refine Keeps.hyp x ?_ (fun _ => ?_); subst x; rotate_left; clear_value x; rotate_left) | clear_value x)
    | with_reducible apply keeps_snapAsk
    | with_reducible apply Keeps.ite1

theorem keeps_timeWait (s : State) (p : Nat) (ns : Nat) {r0 : State} (hr : Keeps r0 s) : Keeps r0 (timeWait s p ns) := by
  refine Keeps.trans hr ?_
  clear hr
  unfold timeWait
  repeat' first
    | with_reducible apply Keeps.refl
    | intro _
    | with_reducible assumption
    | (fail_if_no_progress extract_lets +onlyGivenNames x
       first | (refine Keeps.hyp x ?_ (fun _ => ?_); subst x; rotate_left; clear_value x; rotate_left) | clear_value x)
    | with_reducible apply keeps_endRunning

theorem keeps_timeArm (s : State) (p : Nat) (k : Nat) (ns : Nat) {r0 : State} (hr : Keeps r0 s) : Keeps r0 (timeArm s p k ns).1 := by
  refine Keeps.trans hr ?_
  clear hr
  unfold timeArm
  repeat' first
    | with_reducible apply Keeps.refl
    | intro _
    | with_reducible apply keeps_trigArm
    | with_reducible apply Keeps.ite1

theorem keeps_catInv (s : State) (p : Nat) (ch : Nat) {r0 : State} (hr : Keeps r0 s) : Keeps r0 (catInv s p ch) := by
  refine Keeps.trans hr ?_
  clear hr
  unfold catInv
  repeat' first
    | with_reducible apply Keeps.refl
    | intro _
    | with_reducible apply keeps_catInvalidate
    | with_reducible apply Keeps.ite

theorem keeps_linePageOp (s : State) (p : Nat) (a : Nat) (first : Nat) {r0 : State} (hr : Keeps r0 s) : Keeps r0 (linePageOp s p a first).1 := by
  refine Keeps.trans hr ?_
  clear hr
  unfold linePageOp
  repeat' first
    | with_reducible apply Keeps.refl
    | intro _
    | with_reducible assumption
    | (fail_if_no_progress extract_lets +onlyGivenNames x
       first | (refine Keeps.hyp x ?_ (fun _ => ?_); subst x; rotate_left; clear_value x; rotate_left) | clear_value x)
    | with_reducible apply keeps_linePage
    | with_reducible apply keeps_State_settle
    | with_reducible refine Keeps.ofPair (by assumption) ?_
    | with_reducible apply Keeps.ite1

theorem keeps_substSetOp (s : State) (p : Nat) (x2 : Nat) (line : Nat) {r0 : State} (hr : Keeps r0 s) : Keeps r0 (substSetOp s p x2 line).1 := by
  refine Keeps.trans hr ?_
  clear hr
  unfold substSetOp
  repeat' first
    | with_reducible apply Keeps.refl
    | intro _
    | with_reducible apply keeps_substSet
    | with_reducible apply Keeps.ite1

theorem keeps_substClrOp (s : State) (p : Nat) (x2 : Nat) (line : Nat) {r0 : State} (hr : Keeps r0 s) : Keeps r0 (substClrOp s p x2 line).1 := by
  refine Keeps.trans hr ?_
  clear hr
  unfold substClrOp
  repeat' first
    | with_reducible apply Keeps.refl
    | intro _
    | with_reducible apply keeps_substClr
    | with_reducible apply Keeps.ite1

theorem keeps_statSeg (s : State) (p n o : Nat) {r0 : State} (hr : Keeps r0 s) : Keeps r0 (statSeg s p n o).1 := by
  unfold statSeg
  refine Keeps.ite1 hr ?_
  split
  · exact hr
  · exact keeps_localWrite _ _ _ _ (keeps_State_setPipe _ _ _ hr)

theorem keeps_statExpo (s : State) (p : Nat) (n : Nat) (o : Nat) {r0 : State} (hr : Keeps r0 s) : Keeps r0 (statExpo s p n o).1 := by
  refine Keeps.trans hr ?_
  clear hr
  unfold statExpo
  repeat' first
    | with_reducible apply Keeps.refl
    | intro _
    | with_reducible apply keeps_expoWrite
    | with_reducible apply Keeps.ite1

theorem keeps_syncWake (s : State) (n : Nat) {r0 : State} (hr : Keeps r0 s) : Keeps r0 (syncWake s n) := by
  refine Keeps.trans hr ?_
  clear hr
  unfold syncWake
  repeat' first
    | with_reducible apply Keeps.refl
    | intro _
    | with_reducible assumption
    | (fail_if_no_progress extract_lets +onlyGivenNames x
       first | (refine Keeps.hyp x ?_ (fun _ => ?_); subst x; rotate_left; clear_value x; rotate_left) | clear_value x)
    | with_reducible apply keeps_sliceResume
    | with_reducible apply Keeps.foldl
    | with_reducible apply Keeps.foldlPair
    | with_reducible refine Keeps.ofPair (by assumption) ?_
    | with_reducible apply Keeps.ite
    | fail_if_no_progress (with_reducible apply Keeps.mk')
    | split

theorem keeps_syncInit (s : State) (p : Nat) (n : Nat) (k : Nat) {r0 : State} (hr : Keeps r0 s) : Keeps r0 (syncInit s p n k) := by
  refine Keeps.trans hr ?_
  clear hr
  unfold syncInit
  repeat' first
    | with_reducible apply Keeps.refl
    | intro _
    | with_reducible assumption
    | (fail_if_no_progress extract_lets +onlyGivenNames x
       first | (refine Keeps.hyp x ?_ (fun _ => ?_); subst x; rotate_left; clear_value x; rotate_left) | clear_value x)
    | with_reducible apply keeps_syncWake
    | with_reducible apply Keeps.ite
    | fail_if_no_progress (with_reducible apply Keeps.mk')

theorem keeps_syncArrive (s : State) (n : Nat) {r0 : State} (hr : Keeps r0 s) : Keeps r0 (syncArrive s n).1 := by
  refine Keeps.trans hr ?_
  clear hr
  unfold syncArrive
  repeat' first
    | with_reducible apply Keeps.refl
    | intro _
    | with_reducible assumption
    | (fail_if_no_progress extract_lets +onlyGivenNames x
       first | (refine Keeps.hyp x ?_ (fun _ => ?_); subst x; rotate_left; clear_value x; rotate_left) | clear_value x)
    | with_reducible apply keeps_syncWake
    | with_reducible apply Keeps.ite1
    | with_reducible apply Keeps.ite
    | fail_if_no_progress (with_reducible apply Keeps.mk')

theorem keeps_syncWait (s : State) (p : Nat) (n : Nat) (g : Nat) {r0 : State} (hr : Keeps r0 s) : Keeps r0 (syncWait s p n g) := by
  refine Keeps.trans hr ?_
  clear hr
  unfold syncWait
  repeat' first
    | with_reducible apply Keeps.refl
    | intro _
    | with_reducible assumption
    | (fail_if_no_progress extract_lets +onlyGivenNames x
       first | (refine Keeps.hyp x ?_ (fun _ => ?_); subst x; rotate_left; clear_value x; rotate_left) | clear_value x)
    | with_reducible apply keeps_endRunning
    | with_reducible apply Keeps.ite

theorem keeps_syncArm (s : State) (p : Nat) (l : Nat) (i : Nat) {r0 : State} (hr : Keeps r0 s) : Keeps r0 (syncArm s p l i) := by
  refine Keeps.trans hr ?_
  clear hr
  unfold syncArm
  repeat' first
    | with_reducible apply Keeps.refl
    | intro _
    | with_reducible assumption
    | (fail_if_no_progress extract_lets +onlyGivenNames x
       first | (refine Keeps.hyp x ?_ (fun _ => ?_); subst x; rotate_left; clear_value x; rotate_left) | clear_value x)
    | with_reducible apply keeps_sliceEvent
    | with_reducible refine Keeps.ofPair (by assumption) ?_
    | with_reducible apply Keeps.ite
    | fail_if_no_progress (with_reducible apply Keeps.mk')
    | split

theorem keeps_execRingPush (p : Nat) (rd : Nat) (rs1 : Nat) (rs2 : Nat) (s : State) {r0 : State} (hr : Keeps r0 s) : KeepsOut r0 (execRingPush p rd rs1 rs2 s) := by
  refine KeepsOut.trans hr ?_
  clear hr
  unfold execRingPush
  repeat' first
    | with_reducible apply Keeps.refl
    | intro _
    | with_reducible assumption
    | with_reducible apply keeps_copyOp
    | with_reducible apply keeps_ringPush
    | with_reducible apply KeepsOut.next
    | with_reducible apply KeepsOut.onEngine
    | with_reducible apply KeepsOut.ite
    | with_reducible refine Keeps.ofPair (by assumption) ?_
    | with_reducible apply Keeps.ite
    | fail_if_no_progress (with_reducible apply Keeps.mk')

theorem keeps_execRingPop (p : Nat) (rd : Nat) (rs1 : Nat) (rs2 : Nat) (s : State) {r0 : State} (hr : Keeps r0 s) : KeepsOut r0 (execRingPop p rd rs1 rs2 s) := by
  refine KeepsOut.trans hr ?_
  clear hr
  unfold execRingPop
  repeat' first
    | with_reducible apply Keeps.refl
    | intro _
    | with_reducible apply keeps_devOp
    | with_reducible apply keeps_ringPop

theorem keeps_execRingDone (p : Nat) (rd : Nat) (rs1 : Nat) (rs2 : Nat) (s : State) {r0 : State} (hr : Keeps r0 s) : KeepsOut r0 (execRingDone p rd rs1 rs2 s) := by
  refine KeepsOut.trans hr ?_
  clear hr
  unfold execRingDone
  repeat' first
    | with_reducible apply Keeps.refl
    | intro _
    | with_reducible assumption
    | with_reducible apply keeps_State_folioIf
    | with_reducible apply keeps_ringDone
    | with_reducible apply KeepsOut.next
    | with_reducible apply KeepsOut.onEngine
    | with_reducible apply KeepsOut.ite
    | with_reducible refine Keeps.ofPair (by assumption) ?_
    | with_reducible apply Keeps.ite
    | fail_if_no_progress (with_reducible apply Keeps.mk')

theorem keeps_execRingStat (p : Nat) (rd : Nat) (rs1 : Nat) (s : State) {r0 : State} (hr : Keeps r0 s) : KeepsOut r0 (execRingStat p rd rs1 s) := by
  refine KeepsOut.trans hr ?_
  clear hr
  unfold execRingStat
  repeat' first
    | with_reducible apply Keeps.refl
    | intro _
    | with_reducible apply keeps_devOp

theorem keeps_execLedgerSnap (p : Nat) (rd : Nat) (s : State) {r0 : State} (hr : Keeps r0 s) : KeepsOut r0 (execLedgerSnap p rd s) := by
  refine KeepsOut.trans hr ?_
  clear hr
  unfold execLedgerSnap
  repeat' first
    | with_reducible apply Keeps.refl
    | intro _
    | with_reducible apply keeps_devOp
    | with_reducible apply keeps_ledSnap

theorem keeps_execLedgerSeq (p : Nat) (rd : Nat) (s : State) {r0 : State} (hr : Keeps r0 s) : KeepsOut r0 (execLedgerSeq p rd s) := by
  refine KeepsOut.trans hr ?_
  clear hr
  unfold execLedgerSeq
  repeat' first
    | with_reducible apply Keeps.refl
    | intro _
    | with_reducible apply keeps_devOp

theorem keeps_execLedgerRead (p : Nat) (rd : Nat) (rs1 : Nat) (s : State) {r0 : State} (hr : Keeps r0 s) : KeepsOut r0 (execLedgerRead p rd rs1 s) := by
  refine KeepsOut.trans hr ?_
  clear hr
  unfold execLedgerRead
  repeat' first
    | with_reducible apply Keeps.refl
    | intro _
    | with_reducible apply keeps_devOp

theorem keeps_execLedgerLine (p : Nat) (rd : Nat) (s : State) {r0 : State} (hr : Keeps r0 s) : KeepsOut r0 (execLedgerLine p rd s) := by
  refine KeepsOut.trans hr ?_
  clear hr
  unfold execLedgerLine
  repeat' first
    | with_reducible apply Keeps.refl
    | intro _
    | with_reducible apply keeps_devOp

theorem keeps_execTimeNow (p : Nat) (rd : Nat) (s : State) {r0 : State} (hr : Keeps r0 s) : KeepsOut r0 (execTimeNow p rd s) := by
  refine KeepsOut.trans hr ?_
  clear hr
  unfold execTimeNow
  repeat' first
    | with_reducible apply Keeps.refl
    | intro _
    | with_reducible apply keeps_devOp

theorem keeps_execTimeWait (p : Nat) (rs1 : Nat) (s : State) {r0 : State} (hr : Keeps r0 s) : KeepsOut r0 (execTimeWait p rs1 s) := by
  refine KeepsOut.trans hr ?_
  clear hr
  unfold execTimeWait
  repeat' first
    | with_reducible apply Keeps.refl
    | intro _
    | with_reducible apply keeps_State_folio
    | with_reducible apply keeps_timeWait

theorem keeps_execTimeCap (p : Nat) (rd : Nat) (rs1 : Nat) (s : State) {r0 : State} (hr : Keeps r0 s) : KeepsOut r0 (execTimeCap p rd rs1 s) := by
  refine KeepsOut.trans hr ?_
  clear hr
  unfold execTimeCap
  repeat' first
    | with_reducible apply Keeps.refl
    | intro _
    | with_reducible apply keeps_devOp

theorem keeps_execTimeCapn (p : Nat) (rd : Nat) (rs1 : Nat) (s : State) {r0 : State} (hr : Keeps r0 s) : KeepsOut r0 (execTimeCapn p rd rs1 s) := by
  refine KeepsOut.trans hr ?_
  clear hr
  unfold execTimeCapn
  repeat' first
    | with_reducible apply Keeps.refl
    | intro _
    | with_reducible apply keeps_devOp

theorem keeps_execTimeArm (p : Nat) (rd : Nat) (rs1 : Nat) (rs2 : Nat) (s : State) {r0 : State} (hr : Keeps r0 s) : KeepsOut r0 (execTimeArm p rd rs1 rs2 s) := by
  refine KeepsOut.trans hr ?_
  clear hr
  unfold execTimeArm
  repeat' first
    | with_reducible apply Keeps.refl
    | intro _
    | with_reducible apply keeps_devOp
    | with_reducible apply keeps_timeArm

theorem keeps_execCatInv (p : Nat) (rs1 : Nat) (s : State) {r0 : State} (hr : Keeps r0 s) : KeepsOut r0 (execCatInv p rs1 s) := by
  refine KeepsOut.trans hr ?_
  clear hr
  unfold execCatInv
  repeat' first
    | with_reducible apply Keeps.refl
    | intro _
    | with_reducible apply keeps_State_folio
    | with_reducible apply keeps_catInv

theorem keeps_execCatGen (p : Nat) (rd : Nat) (rs1 : Nat) (s : State) {r0 : State} (hr : Keeps r0 s) : KeepsOut r0 (execCatGen p rd rs1 s) := by
  refine KeepsOut.trans hr ?_
  clear hr
  unfold execCatGen
  repeat' first
    | with_reducible apply Keeps.refl
    | intro _
    | with_reducible apply keeps_devOp

theorem keeps_execCatAddr (p : Nat) (rd : Nat) (rs1 : Nat) (s : State) {r0 : State} (hr : Keeps r0 s) : KeepsOut r0 (execCatAddr p rd rs1 s) := by
  refine KeepsOut.trans hr ?_
  clear hr
  unfold execCatAddr
  repeat' first
    | with_reducible apply Keeps.refl
    | intro _
    | with_reducible apply keeps_devOp

theorem keeps_execCatWin (p : Nat) (rd : Nat) (k : Nat) (s : State) {r0 : State} (hr : Keeps r0 s) : KeepsOut r0 (execCatWin p rd k s) := by
  refine KeepsOut.trans hr ?_
  clear hr
  unfold execCatWin
  repeat' first
    | with_reducible apply Keeps.refl
    | intro _
    | with_reducible apply keeps_devOp

theorem keeps_execCatWsize (p : Nat) (rd : Nat) (k : Nat) (s : State) {r0 : State} (hr : Keeps r0 s) : KeepsOut r0 (execCatWsize p rd k s) := by
  refine KeepsOut.trans hr ?_
  clear hr
  unfold execCatWsize
  repeat' first
    | with_reducible apply Keeps.refl
    | intro _
    | with_reducible apply keeps_devOp

theorem keeps_execLinePage (p : Nat) (rd : Nat) (rs1 : Nat) (rs2 : Nat) (s : State) {r0 : State} (hr : Keeps r0 s) : KeepsOut r0 (execLinePage p rd rs1 rs2 s) := by
  refine KeepsOut.trans hr ?_
  clear hr
  unfold execLinePage
  repeat' first
    | with_reducible apply Keeps.refl
    | intro _
    | with_reducible apply keeps_devOp
    | with_reducible apply keeps_linePageOp

theorem keeps_execLineStat (p : Nat) (rd : Nat) (k : Nat) (s : State) {r0 : State} (hr : Keeps r0 s) : KeepsOut r0 (execLineStat p rd k s) := by
  refine KeepsOut.trans hr ?_
  clear hr
  unfold execLineStat
  repeat' first
    | with_reducible apply Keeps.refl
    | intro _
    | with_reducible apply keeps_devOp

theorem keeps_execSubstSet (p : Nat) (rd : Nat) (rs1 : Nat) (rs2 : Nat) (s : State) {r0 : State} (hr : Keeps r0 s) : KeepsOut r0 (execSubstSet p rd rs1 rs2 s) := by
  refine KeepsOut.trans hr ?_
  clear hr
  unfold execSubstSet
  repeat' first
    | with_reducible apply Keeps.refl
    | intro _
    | with_reducible apply keeps_devOp
    | with_reducible apply keeps_substSetOp

theorem keeps_execSubstClr (p : Nat) (rd : Nat) (rs1 : Nat) (rs2 : Nat) (s : State) {r0 : State} (hr : Keeps r0 s) : KeepsOut r0 (execSubstClr p rd rs1 rs2 s) := by
  refine KeepsOut.trans hr ?_
  clear hr
  unfold execSubstClr
  repeat' first
    | with_reducible apply Keeps.refl
    | intro _
    | with_reducible apply keeps_devOp
    | with_reducible apply keeps_substClrOp

theorem keeps_execSubstGet (p : Nat) (rd : Nat) (rs1 : Nat) (k : Nat) (s : State) {r0 : State} (hr : Keeps r0 s) : KeepsOut r0 (execSubstGet p rd rs1 k s) := by
  refine KeepsOut.trans hr ?_
  clear hr
  unfold execSubstGet
  repeat' first
    | with_reducible apply Keeps.refl
    | intro _
    | with_reducible apply keeps_devOp

theorem keeps_execStatSeg (p : Nat) (rd : Nat) (rs1 : Nat) (rs2 : Nat) (s : State) {r0 : State} (hr : Keeps r0 s) : KeepsOut r0 (execStatSeg p rd rs1 rs2 s) := by
  refine KeepsOut.trans hr ?_
  clear hr
  unfold execStatSeg
  repeat' first
    | with_reducible apply Keeps.refl
    | intro _
    | with_reducible apply keeps_devOp
    | with_reducible apply keeps_statSeg

theorem keeps_execStatVcol (p : Nat) (vd : Nat) (rs1 : Nat) (rs2 : Nat) (s : State) {r0 : State} (hr : Keeps r0 s) : KeepsOut r0 (execStatVcol p vd rs1 rs2 s) := by
  refine KeepsOut.trans hr ?_
  clear hr
  unfold execStatVcol
  repeat' first
    | with_reducible apply Keeps.refl
    | intro _
    | with_reducible apply keeps_State_folioIf
    | with_reducible apply keeps_State_vset

theorem keeps_execStatColframe (p : Nat) (rd : Nat) (rs1 : Nat) (s : State) {r0 : State} (hr : Keeps r0 s) : KeepsOut r0 (execStatColframe p rd rs1 s) := by
  refine KeepsOut.trans hr ?_
  clear hr
  unfold execStatColframe
  repeat' first
    | with_reducible apply Keeps.refl
    | intro _
    | with_reducible apply keeps_devOp

theorem keeps_execStatExpo (p : Nat) (rd : Nat) (rs1 : Nat) (rs2 : Nat) (s : State) {r0 : State} (hr : Keeps r0 s) : KeepsOut r0 (execStatExpo p rd rs1 rs2 s) := by
  refine KeepsOut.trans hr ?_
  clear hr
  unfold execStatExpo
  repeat' first
    | with_reducible apply Keeps.refl
    | intro _
    | with_reducible assumption
    | with_reducible apply keeps_copyOp
    | with_reducible apply keeps_statExpo
    | with_reducible apply KeepsOut.next
    | with_reducible apply KeepsOut.onEngine
    | with_reducible apply KeepsOut.ite
    | with_reducible refine Keeps.ofPair (by assumption) ?_
    | with_reducible apply Keeps.ite
    | fail_if_no_progress (with_reducible apply Keeps.mk')

theorem keeps_execStatFrame (p : Nat) (rd : Nat) (rs1 : Nat) (s : State) {r0 : State} (hr : Keeps r0 s) : KeepsOut r0 (execStatFrame p rd rs1 s) := by
  refine KeepsOut.trans hr ?_
  clear hr
  unfold execStatFrame
  repeat' first
    | with_reducible apply Keeps.refl
    | intro _
    | with_reducible apply keeps_devOp

theorem keeps_execSyncInit (p : Nat) (rs1 : Nat) (rs2 : Nat) (s : State) {r0 : State} (hr : Keeps r0 s) : KeepsOut r0 (execSyncInit p rs1 rs2 s) := by
  refine KeepsOut.trans hr ?_
  clear hr
  unfold execSyncInit
  repeat' first
    | with_reducible apply Keeps.refl
    | intro _
    | with_reducible apply keeps_State_folio
    | with_reducible apply keeps_syncInit

theorem keeps_execSyncArrive (p : Nat) (rd : Nat) (rs1 : Nat) (s : State) {r0 : State} (hr : Keeps r0 s) : KeepsOut r0 (execSyncArrive p rd rs1 s) := by
  refine KeepsOut.trans hr ?_
  clear hr
  unfold execSyncArrive
  repeat' first
    | with_reducible apply Keeps.refl
    | intro _
    | with_reducible apply keeps_devOp
    | with_reducible apply keeps_syncArrive

theorem keeps_execSyncWait (p : Nat) (rs1 : Nat) (rs2 : Nat) (s : State) {r0 : State} (hr : Keeps r0 s) : KeepsOut r0 (execSyncWait p rs1 rs2 s) := by
  refine KeepsOut.trans hr ?_
  clear hr
  unfold execSyncWait
  repeat' first
    | with_reducible apply Keeps.refl
    | intro _
    | with_reducible apply keeps_State_folio
    | with_reducible apply keeps_syncWait

theorem keeps_execSyncArm (p : Nat) (rs1 : Nat) (rs2 : Nat) (s : State) {r0 : State} (hr : Keeps r0 s) : KeepsOut r0 (execSyncArm p rs1 rs2 s) := by
  refine KeepsOut.trans hr ?_
  clear hr
  unfold execSyncArm
  repeat' first
    | with_reducible apply Keeps.refl
    | intro _
    | with_reducible apply keeps_State_folio
    | with_reducible apply keeps_syncArm

end Sys2Proof.Laws
end

