-- ==== Sys2Proof/Laws/KeepSys.lean ====
section
/-! SUPPORT. `Keeps` of every operation of Machine/Sys.lean. -/

namespace Sys2Proof.Laws

open Sys2Proof.Machine

set_option linter.unusedTactic false
set_option linter.unreachableTactic false
set_option linter.tactic.unusedName false

theorem keeps_csrWrite (s : State) (p : Nat) (c : Nat) (v : Nat) {r0 : State} (hr : Keeps r0 s) : Keeps r0 (csrWrite s p c v) := by
  refine Keeps.trans hr ?_
  clear hr
  unfold csrWrite
  repeat' first
    | with_reducible apply Keeps.refl
    | intro _
    | with_reducible assumption
    | (fail_if_no_progress extract_lets +onlyGivenNames x
       first | (refine Keeps.hyp x ?_ (fun _ => ?_); subst x; rotate_left; clear_value x; rotate_left) | clear_value x)
    | with_reducible apply keeps_State_setEng
    | with_reducible refine Keeps.ofPair (by assumption) ?_
    | with_reducible apply Keeps.ite
    | fail_if_no_progress (with_reducible apply Keeps.mk')
    | split

theorem keeps_sliceArm (s : State) (p : Nat) (i : Nat) {r0 : State} (hr : Keeps r0 s) : Keeps r0 (sliceArm s p i) := by
  refine Keeps.trans hr ?_
  clear hr
  unfold sliceArm
  repeat' first
    | with_reducible apply Keeps.refl
    | intro _
    | with_reducible assumption
    | (fail_if_no_progress extract_lets +onlyGivenNames x
       first | (refine Keeps.hyp x ?_ (fun _ => ?_); subst x; rotate_left; clear_value x; rotate_left) | clear_value x)
    | with_reducible apply keeps_State_sliceEnable
    | with_reducible apply keeps_dispatch
    | with_reducible apply keeps_State_setSlice
    | with_reducible refine Keeps.ofPair (by assumption) ?_
    | with_reducible apply Keeps.ite
    | fail_if_no_progress (with_reducible apply Keeps.mk')
    | split

theorem keeps_sliceDisarm (s : State) (p : Nat) (i : Nat) {r0 : State} (hr : Keeps r0 s) : Keeps r0 (sliceDisarm s p i) := by
  refine Keeps.trans hr ?_
  clear hr
  unfold sliceDisarm
  repeat' first
    | with_reducible apply Keeps.refl
    | intro _
    | with_reducible assumption
    | with_reducible apply keeps_State_sliceEnable
    | with_reducible apply keeps_State_setSlice
    | with_reducible refine Keeps.ofPair (by assumption) ?_
    | with_reducible apply Keeps.ite
    | fail_if_no_progress (with_reducible apply Keeps.mk')
    | split

theorem keeps_sysTrap (s : State) (p : Nat) (k : Nat) {r0 : State} (hr : Keeps r0 s) : Keeps r0 (sysTrap s p k) := by
  refine Keeps.trans hr ?_
  clear hr
  unfold sysTrap
  repeat' first
    | with_reducible apply Keeps.refl
    | intro _
    | with_reducible assumption
    | (fail_if_no_progress extract_lets +onlyGivenNames x
       first | (refine Keeps.hyp x ?_ (fun _ => ?_); subst x; rotate_left; clear_value x; rotate_left) | clear_value x)
    | with_reducible apply keeps_scribeRetire
    | with_reducible apply Keeps.ite
    | fail_if_no_progress (with_reducible apply Keeps.mk')

theorem keeps_sysHalt (s : State) (p : Nat) (q : Nat) {r0 : State} (hr : Keeps r0 s) : Keeps r0 (sysHalt s p q) := by
  refine Keeps.trans hr ?_
  clear hr
  unfold sysHalt
  repeat' first
    | with_reducible apply Keeps.refl
    | intro _
    | with_reducible assumption
    | (fail_if_no_progress extract_lets +onlyGivenNames x
       first | (refine Keeps.hyp x ?_ (fun _ => ?_); subst x; rotate_left; clear_value x; rotate_left) | clear_value x)
    | with_reducible apply keeps_State_setEng
    | with_reducible apply Keeps.ite

theorem keeps_execSysYield (p : Nat) (s : State) {r0 : State} (hr : Keeps r0 s) : KeepsOut r0 (execSysYield p s) := by
  refine KeepsOut.trans hr ?_
  clear hr
  unfold execSysYield
  repeat' first
    | with_reducible apply Keeps.refl
    | intro _
    | with_reducible assumption
    | (fail_if_no_progress extract_lets +onlyGivenNames x
       first | (refine KeepsOut.hyp x ?_ (fun _ => ?_); subst x; rotate_left; clear_value x; rotate_left) | clear_value x)
    | (fail_if_no_progress extract_lets +onlyGivenNames x
       first | (refine Keeps.hyp x ?_ (fun _ => ?_); subst x; rotate_left; clear_value x; rotate_left) | clear_value x)
    | with_reducible apply keeps_State_folio
    | with_reducible apply keeps_endRunning

theorem keeps_execSysEnd (p : Nat) (s : State) {r0 : State} (hr : Keeps r0 s) : KeepsOut r0 (execSysEnd p s) := by
  refine KeepsOut.trans hr ?_
  clear hr
  unfold execSysEnd
  repeat' first
    | with_reducible apply Keeps.refl
    | intro _
    | with_reducible apply keeps_State_folio
    | with_reducible apply keeps_endRunning

theorem keeps_execSysFence (p : Nat) (s : State) {r0 : State} (hr : Keeps r0 s) : KeepsOut r0 (execSysFence p s) := by
  refine KeepsOut.trans hr ?_
  clear hr
  unfold execSysFence
  repeat' first
    | with_reducible apply Keeps.refl
    | intro _
    | with_reducible apply keeps_State_folio

theorem keeps_execSysCsrr (p : Nat) (rd : Nat) (c : Nat) (s : State) {r0 : State} (hr : Keeps r0 s) : KeepsOut r0 (execSysCsrr p rd c s) := by
  refine KeepsOut.trans hr ?_
  clear hr
  unfold execSysCsrr
  repeat' first
    | with_reducible apply Keeps.refl
    | intro _
    | with_reducible apply keeps_devOp

theorem keeps_execSysCsrw (p : Nat) (rs1 : Nat) (c : Nat) (s : State) {r0 : State} (hr : Keeps r0 s) : KeepsOut r0 (execSysCsrw p rs1 c s) := by
  refine KeepsOut.trans hr ?_
  clear hr
  unfold execSysCsrw
  repeat' first
    | with_reducible apply Keeps.refl
    | intro _
    | with_reducible apply keeps_State_folio
    | with_reducible apply keeps_csrWrite

theorem keeps_execSysArm (p : Nat) (rs1 : Nat) (s : State) {r0 : State} (hr : Keeps r0 s) : KeepsOut r0 (execSysArm p rs1 s) := by
  refine KeepsOut.trans hr ?_
  clear hr
  unfold execSysArm
  repeat' first
    | with_reducible apply Keeps.refl
    | intro _
    | with_reducible apply keeps_State_folio
    | with_reducible apply keeps_sliceArm

theorem keeps_execSysDisarm (p : Nat) (rs1 : Nat) (s : State) {r0 : State} (hr : Keeps r0 s) : KeepsOut r0 (execSysDisarm p rs1 s) := by
  refine KeepsOut.trans hr ?_
  clear hr
  unfold execSysDisarm
  repeat' first
    | with_reducible apply Keeps.refl
    | intro _
    | with_reducible apply keeps_State_folio
    | with_reducible apply keeps_sliceDisarm

theorem keeps_execSysTrap (p : Nat) (k : Nat) (s : State) {r0 : State} (hr : Keeps r0 s) : KeepsOut r0 (execSysTrap p k s) := by
  refine KeepsOut.trans hr ?_
  clear hr
  unfold execSysTrap
  repeat' first
    | with_reducible apply Keeps.refl
    | intro _
    | with_reducible apply keeps_State_folio
    | with_reducible apply keeps_sysTrap

theorem keeps_execSysStart (p : Nat) (rs1 : Nat) (rs2 : Nat) (s : State) {r0 : State} (hr : Keeps r0 s) : KeepsOut r0 (execSysStart p rs1 rs2 s) := by
  refine KeepsOut.trans hr ?_
  clear hr
  unfold execSysStart
  repeat' first
    | with_reducible apply Keeps.refl
    | intro _
    | with_reducible apply keeps_State_folio
    | with_reducible apply keeps_scribeLaunch
    | with_reducible apply KeepsOut.next
    | with_reducible apply KeepsOut.ite
    | with_reducible apply KeepsOut.onEngine
    | with_reducible apply Keeps.ite

theorem keeps_execSysHalt (p : Nat) (rs1 : Nat) (s : State) {r0 : State} (hr : Keeps r0 s) : KeepsOut r0 (execSysHalt p rs1 s) := by
  refine KeepsOut.trans hr ?_
  clear hr
  unfold execSysHalt
  repeat' first
    | with_reducible apply Keeps.refl
    | intro _
    | with_reducible apply keeps_State_folio
    | with_reducible apply keeps_sysHalt

end Sys2Proof.Laws
end

