-- ==== Sys2Proof/Laws/PerInstr.lean ====
section
/-! SUPPORT. A well-formed command names no engine beyond the sixteen Scribes and the Registrar: one lemma per command. -/

namespace Sys2Proof.Laws.NamesEngine

open Sys2Proof.Machine

set_option Elab.async false

/-- What the family says of a command. -/
def Statement (i : Instr) : Prop := wellFormed i = true → ∀ p, engineOf i = some p → p ≤ registrar

theorem engine_le {p : Nat} (h : isEngineNo p = true) : p ≤ registrar := Nat.le_of_lt_succ (of_decide_eq_true h)

theorem registerWrite (t src addr size value : Nat) : Statement (.registerWrite t src addr size value) := fun _ _ e => by cases e
theorem rcRegisterRead (t src addr size : Nat) : Statement (.rcRegisterRead t src addr size) := fun _ _ e => by cases e
theorem catInvalidate (t channel : Nat) : Statement (.catInvalidate t channel) := fun _ _ e => by cases e
theorem catInvalidateAll (t : Nat) : Statement (.catInvalidateAll t) := fun _ _ e => by cases e
theorem catalogFetchComplete (t channel : Nat) : Statement (.catalogFetchComplete t channel) := fun _ _ e => by cases e
theorem catLock (t : Nat) : Statement (.catLock t) := fun _ _ e => by cases e
theorem ledgerSnapWrite (t : Nat) : Statement (.ledgerSnapWrite t) := fun _ _ e => by cases e
theorem ledgerSnapComplete (t : Nat) : Statement (.ledgerSnapComplete t) := fun _ _ e => by cases e
theorem ringProducerWrite (t ring index : Nat) : Statement (.ringProducerWrite t ring index) := fun _ _ e => by cases e
theorem ringConsumerWrite (t ring index : Nat) : Statement (.ringConsumerWrite t ring index) := fun _ _ e => by cases e
theorem irqHoldoffExpiry (t ring : Nat) : Statement (.irqHoldoffExpiry t ring) := fun _ _ e => by cases e
theorem powerReqWrite (t req : Nat) : Statement (.powerReqWrite t req) := fun _ _ e => by cases e
theorem powerStateReached (t : Nat) : Statement (.powerStateReached t) := fun _ _ e => by cases e
theorem epochSchedule (t target : Nat) (system : Bool) : Statement (.epochSchedule t target system) := fun _ _ e => by cases e
theorem epochCancel (t : Nat) : Statement (.epochCancel t) := fun _ _ e => by cases e
theorem epochInstant (t : Nat) : Statement (.epochInstant t) := fun _ _ e => by cases e
theorem epochTimeout (t : Nat) : Statement (.epochTimeout t) := fun _ _ e => by cases e
theorem rollbackEpoch (t : Nat) : Statement (.rollbackEpoch t) := fun _ _ e => by cases e
theorem add (p rd rs1 rs2 : Nat) : Statement (.add p rd rs1 rs2) := fun w _ e => by cases e; exact engine_le (Bool.and_eq_true_iff.1 (Bool.and_eq_true_iff.1 (Bool.and_eq_true_iff.1 w).1).1).1
theorem sub (p rd rs1 rs2 : Nat) : Statement (.sub p rd rs1 rs2) := fun w _ e => by cases e; exact engine_le (Bool.and_eq_true_iff.1 (Bool.and_eq_true_iff.1 (Bool.and_eq_true_iff.1 w).1).1).1
theorem andR (p rd rs1 rs2 : Nat) : Statement (.andR p rd rs1 rs2) := fun w _ e => by cases e; exact engine_le (Bool.and_eq_true_iff.1 (Bool.and_eq_true_iff.1 (Bool.and_eq_true_iff.1 w).1).1).1
theorem orR (p rd rs1 rs2 : Nat) : Statement (.orR p rd rs1 rs2) := fun w _ e => by cases e; exact engine_le (Bool.and_eq_true_iff.1 (Bool.and_eq_true_iff.1 (Bool.and_eq_true_iff.1 w).1).1).1
theorem xorR (p rd rs1 rs2 : Nat) : Statement (.xorR p rd rs1 rs2) := fun w _ e => by cases e; exact engine_le (Bool.and_eq_true_iff.1 (Bool.and_eq_true_iff.1 (Bool.and_eq_true_iff.1 w).1).1).1
theorem sll (p rd rs1 rs2 : Nat) : Statement (.sll p rd rs1 rs2) := fun w _ e => by cases e; exact engine_le (Bool.and_eq_true_iff.1 (Bool.and_eq_true_iff.1 (Bool.and_eq_true_iff.1 w).1).1).1
theorem srl (p rd rs1 rs2 : Nat) : Statement (.srl p rd rs1 rs2) := fun w _ e => by cases e; exact engine_le (Bool.and_eq_true_iff.1 (Bool.and_eq_true_iff.1 (Bool.and_eq_true_iff.1 w).1).1).1
theorem sra (p rd rs1 rs2 : Nat) : Statement (.sra p rd rs1 rs2) := fun w _ e => by cases e; exact engine_le (Bool.and_eq_true_iff.1 (Bool.and_eq_true_iff.1 (Bool.and_eq_true_iff.1 w).1).1).1
theorem slt (p rd rs1 rs2 : Nat) : Statement (.slt p rd rs1 rs2) := fun w _ e => by cases e; exact engine_le (Bool.and_eq_true_iff.1 (Bool.and_eq_true_iff.1 (Bool.and_eq_true_iff.1 w).1).1).1
theorem sltu (p rd rs1 rs2 : Nat) : Statement (.sltu p rd rs1 rs2) := fun w _ e => by cases e; exact engine_le (Bool.and_eq_true_iff.1 (Bool.and_eq_true_iff.1 (Bool.and_eq_true_iff.1 w).1).1).1
theorem mul (p rd rs1 rs2 : Nat) : Statement (.mul p rd rs1 rs2) := fun w _ e => by cases e; exact engine_le (Bool.and_eq_true_iff.1 (Bool.and_eq_true_iff.1 (Bool.and_eq_true_iff.1 w).1).1).1
theorem mulh (p rd rs1 rs2 : Nat) : Statement (.mulh p rd rs1 rs2) := fun w _ e => by cases e; exact engine_le (Bool.and_eq_true_iff.1 (Bool.and_eq_true_iff.1 (Bool.and_eq_true_iff.1 w).1).1).1
theorem mulhu (p rd rs1 rs2 : Nat) : Statement (.mulhu p rd rs1 rs2) := fun w _ e => by cases e; exact engine_le (Bool.and_eq_true_iff.1 (Bool.and_eq_true_iff.1 (Bool.and_eq_true_iff.1 w).1).1).1
theorem divu (p rd rs1 rs2 : Nat) : Statement (.divu p rd rs1 rs2) := fun w _ e => by cases e; exact engine_le (Bool.and_eq_true_iff.1 (Bool.and_eq_true_iff.1 (Bool.and_eq_true_iff.1 w).1).1).1
theorem remu (p rd rs1 rs2 : Nat) : Statement (.remu p rd rs1 rs2) := fun w _ e => by cases e; exact engine_le (Bool.and_eq_true_iff.1 (Bool.and_eq_true_iff.1 (Bool.and_eq_true_iff.1 w).1).1).1
theorem minS (p rd rs1 rs2 : Nat) : Statement (.minS p rd rs1 rs2) := fun w _ e => by cases e; exact engine_le (Bool.and_eq_true_iff.1 (Bool.and_eq_true_iff.1 (Bool.and_eq_true_iff.1 w).1).1).1
theorem maxS (p rd rs1 rs2 : Nat) : Statement (.maxS p rd rs1 rs2) := fun w _ e => by cases e; exact engine_le (Bool.and_eq_true_iff.1 (Bool.and_eq_true_iff.1 (Bool.and_eq_true_iff.1 w).1).1).1
theorem minu (p rd rs1 rs2 : Nat) : Statement (.minu p rd rs1 rs2) := fun w _ e => by cases e; exact engine_le (Bool.and_eq_true_iff.1 (Bool.and_eq_true_iff.1 (Bool.and_eq_true_iff.1 w).1).1).1
theorem maxu (p rd rs1 rs2 : Nat) : Statement (.maxu p rd rs1 rs2) := fun w _ e => by cases e; exact engine_le (Bool.and_eq_true_iff.1 (Bool.and_eq_true_iff.1 (Bool.and_eq_true_iff.1 w).1).1).1
theorem clz (p rd rs1 : Nat) : Statement (.clz p rd rs1) := fun w _ e => by cases e; exact engine_le (Bool.and_eq_true_iff.1 (Bool.and_eq_true_iff.1 w).1).1
theorem popc (p rd rs1 : Nat) : Statement (.popc p rd rs1) := fun w _ e => by cases e; exact engine_le (Bool.and_eq_true_iff.1 (Bool.and_eq_true_iff.1 w).1).1
theorem bfx (p rd rs1 rs2 k : Nat) : Statement (.bfx p rd rs1 rs2 k) := fun w _ e => by cases e; exact engine_le (Bool.and_eq_true_iff.1 (Bool.and_eq_true_iff.1 (Bool.and_eq_true_iff.1 (Bool.and_eq_true_iff.1 (Bool.and_eq_true_iff.1 w).1).1).1).1).1
theorem addi (p rd rs1 imm : Nat) : Statement (.addi p rd rs1 imm) := fun w _ e => by cases e; exact engine_le (Bool.and_eq_true_iff.1 (Bool.and_eq_true_iff.1 (Bool.and_eq_true_iff.1 w).1).1).1
theorem andi (p rd rs1 imm : Nat) : Statement (.andi p rd rs1 imm) := fun w _ e => by cases e; exact engine_le (Bool.and_eq_true_iff.1 (Bool.and_eq_true_iff.1 (Bool.and_eq_true_iff.1 w).1).1).1
theorem ori (p rd rs1 imm : Nat) : Statement (.ori p rd rs1 imm) := fun w _ e => by cases e; exact engine_le (Bool.and_eq_true_iff.1 (Bool.and_eq_true_iff.1 (Bool.and_eq_true_iff.1 w).1).1).1
theorem xori (p rd rs1 imm : Nat) : Statement (.xori p rd rs1 imm) := fun w _ e => by cases e; exact engine_le (Bool.and_eq_true_iff.1 (Bool.and_eq_true_iff.1 (Bool.and_eq_true_iff.1 w).1).1).1
theorem lui (p rd imm : Nat) : Statement (.lui p rd imm) := fun w _ e => by cases e; exact engine_le (Bool.and_eq_true_iff.1 (Bool.and_eq_true_iff.1 w).1).1
theorem slti (p rd rs1 imm : Nat) : Statement (.slti p rd rs1 imm) := fun w _ e => by cases e; exact engine_le (Bool.and_eq_true_iff.1 (Bool.and_eq_true_iff.1 (Bool.and_eq_true_iff.1 w).1).1).1
theorem shi (p rd rs1 imm : Nat) : Statement (.shi p rd rs1 imm) := fun w _ e => by cases e; exact engine_le (Bool.and_eq_true_iff.1 (Bool.and_eq_true_iff.1 (Bool.and_eq_true_iff.1 w).1).1).1
theorem lb (p rt base win imm : Nat) : Statement (.lb p rt base win imm) := fun w _ e => by cases e; exact engine_le (Bool.and_eq_true_iff.1 (Bool.and_eq_true_iff.1 (Bool.and_eq_true_iff.1 (Bool.and_eq_true_iff.1 w).1).1).1).1
theorem lh (p rt base win imm : Nat) : Statement (.lh p rt base win imm) := fun w _ e => by cases e; exact engine_le (Bool.and_eq_true_iff.1 (Bool.and_eq_true_iff.1 (Bool.and_eq_true_iff.1 (Bool.and_eq_true_iff.1 w).1).1).1).1
theorem lw (p rt base win imm : Nat) : Statement (.lw p rt base win imm) := fun w _ e => by cases e; exact engine_le (Bool.and_eq_true_iff.1 (Bool.and_eq_true_iff.1 (Bool.and_eq_true_iff.1 (Bool.and_eq_true_iff.1 w).1).1).1).1
theorem ld (p rt base win imm : Nat) : Statement (.ld p rt base win imm) := fun w _ e => by cases e; exact engine_le (Bool.and_eq_true_iff.1 (Bool.and_eq_true_iff.1 (Bool.and_eq_true_iff.1 (Bool.and_eq_true_iff.1 w).1).1).1).1
theorem lbu (p rt base win imm : Nat) : Statement (.lbu p rt base win imm) := fun w _ e => by cases e; exact engine_le (Bool.and_eq_true_iff.1 (Bool.and_eq_true_iff.1 (Bool.and_eq_true_iff.1 (Bool.and_eq_true_iff.1 w).1).1).1).1
theorem lhu (p rt base win imm : Nat) : Statement (.lhu p rt base win imm) := fun w _ e => by cases e; exact engine_le (Bool.and_eq_true_iff.1 (Bool.and_eq_true_iff.1 (Bool.and_eq_true_iff.1 (Bool.and_eq_true_iff.1 w).1).1).1).1
theorem lwu (p rt base win imm : Nat) : Statement (.lwu p rt base win imm) := fun w _ e => by cases e; exact engine_le (Bool.and_eq_true_iff.1 (Bool.and_eq_true_iff.1 (Bool.and_eq_true_iff.1 (Bool.and_eq_true_iff.1 w).1).1).1).1
theorem sb (p rt base win imm : Nat) : Statement (.sb p rt base win imm) := fun w _ e => by cases e; exact engine_le (Bool.and_eq_true_iff.1 (Bool.and_eq_true_iff.1 (Bool.and_eq_true_iff.1 (Bool.and_eq_true_iff.1 w).1).1).1).1
theorem sh (p rt base win imm : Nat) : Statement (.sh p rt base win imm) := fun w _ e => by cases e; exact engine_le (Bool.and_eq_true_iff.1 (Bool.and_eq_true_iff.1 (Bool.and_eq_true_iff.1 (Bool.and_eq_true_iff.1 w).1).1).1).1
theorem sw (p rt base win imm : Nat) : Statement (.sw p rt base win imm) := fun w _ e => by cases e; exact engine_le (Bool.and_eq_true_iff.1 (Bool.and_eq_true_iff.1 (Bool.and_eq_true_iff.1 (Bool.and_eq_true_iff.1 w).1).1).1).1
theorem sd (p rt base win imm : Nat) : Statement (.sd p rt base win imm) := fun w _ e => by cases e; exact engine_le (Bool.and_eq_true_iff.1 (Bool.and_eq_true_iff.1 (Bool.and_eq_true_iff.1 (Bool.and_eq_true_iff.1 w).1).1).1).1
theorem amo (p rt base win rs2 fn : Nat) : Statement (.amo p rt base win rs2 fn) := fun w _ e => by cases e; exact engine_le (Bool.and_eq_true_iff.1 (Bool.and_eq_true_iff.1 (Bool.and_eq_true_iff.1 (Bool.and_eq_true_iff.1 (Bool.and_eq_true_iff.1 w).1).1).1).1).1
theorem beq (p rs1 rs2 off : Nat) : Statement (.beq p rs1 rs2 off) := fun w _ e => by cases e; exact engine_le (Bool.and_eq_true_iff.1 (Bool.and_eq_true_iff.1 (Bool.and_eq_true_iff.1 w).1).1).1
theorem bne (p rs1 rs2 off : Nat) : Statement (.bne p rs1 rs2 off) := fun w _ e => by cases e; exact engine_le (Bool.and_eq_true_iff.1 (Bool.and_eq_true_iff.1 (Bool.and_eq_true_iff.1 w).1).1).1
theorem blt (p rs1 rs2 off : Nat) : Statement (.blt p rs1 rs2 off) := fun w _ e => by cases e; exact engine_le (Bool.and_eq_true_iff.1 (Bool.and_eq_true_iff.1 (Bool.and_eq_true_iff.1 w).1).1).1
theorem bge (p rs1 rs2 off : Nat) : Statement (.bge p rs1 rs2 off) := fun w _ e => by cases e; exact engine_le (Bool.and_eq_true_iff.1 (Bool.and_eq_true_iff.1 (Bool.and_eq_true_iff.1 w).1).1).1
theorem bltu (p rs1 rs2 off : Nat) : Statement (.bltu p rs1 rs2 off) := fun w _ e => by cases e; exact engine_le (Bool.and_eq_true_iff.1 (Bool.and_eq_true_iff.1 (Bool.and_eq_true_iff.1 w).1).1).1
theorem bgeu (p rs1 rs2 off : Nat) : Statement (.bgeu p rs1 rs2 off) := fun w _ e => by cases e; exact engine_le (Bool.and_eq_true_iff.1 (Bool.and_eq_true_iff.1 (Bool.and_eq_true_iff.1 w).1).1).1
theorem jal (p off : Nat) : Statement (.jal p off) := fun w _ e => by cases e; exact engine_le (Bool.and_eq_true_iff.1 w).1
theorem jalr (p rd rs1 imm : Nat) : Statement (.jalr p rd rs1 imm) := fun w _ e => by cases e; exact engine_le (Bool.and_eq_true_iff.1 (Bool.and_eq_true_iff.1 (Bool.and_eq_true_iff.1 w).1).1).1
theorem ringPush (p rd rs1 rs2 : Nat) : Statement (.ringPush p rd rs1 rs2) := fun w _ e => by cases e; exact engine_le (Bool.and_eq_true_iff.1 (Bool.and_eq_true_iff.1 (Bool.and_eq_true_iff.1 w).1).1).1
theorem ringPop (p rd rs1 rs2 : Nat) : Statement (.ringPop p rd rs1 rs2) := fun w _ e => by cases e; exact engine_le (Bool.and_eq_true_iff.1 (Bool.and_eq_true_iff.1 (Bool.and_eq_true_iff.1 w).1).1).1
theorem ringDone (p rd rs1 rs2 : Nat) : Statement (.ringDone p rd rs1 rs2) := fun w _ e => by cases e; exact engine_le (Bool.and_eq_true_iff.1 (Bool.and_eq_true_iff.1 (Bool.and_eq_true_iff.1 w).1).1).1
theorem ringStat (p rd rs1 : Nat) : Statement (.ringStat p rd rs1) := fun w _ e => by cases e; exact engine_le (Bool.and_eq_true_iff.1 (Bool.and_eq_true_iff.1 w).1).1
theorem ledgerSnap (p rd : Nat) : Statement (.ledgerSnap p rd) := fun w _ e => by cases e; exact engine_le (Bool.and_eq_true_iff.1 w).1
theorem ledgerSeq (p rd : Nat) : Statement (.ledgerSeq p rd) := fun w _ e => by cases e; exact engine_le (Bool.and_eq_true_iff.1 w).1
theorem ledgerRead (p rd rs1 : Nat) : Statement (.ledgerRead p rd rs1) := fun w _ e => by cases e; exact engine_le (Bool.and_eq_true_iff.1 (Bool.and_eq_true_iff.1 w).1).1
theorem ledgerLine (p rd : Nat) : Statement (.ledgerLine p rd) := fun w _ e => by cases e; exact engine_le (Bool.and_eq_true_iff.1 w).1
theorem timeNow (p rd : Nat) : Statement (.timeNow p rd) := fun w _ e => by cases e; exact engine_le (Bool.and_eq_true_iff.1 w).1
theorem timeWait (p rs1 : Nat) : Statement (.timeWait p rs1) := fun w _ e => by cases e; exact engine_le (Bool.and_eq_true_iff.1 w).1
theorem timeWaitExpiry (t p slice : Nat) : Statement (.timeWaitExpiry t p slice) := fun w _ e => by cases e; exact engine_le (Bool.and_eq_true_iff.1 w).1
theorem timeCap (p rd rs1 : Nat) : Statement (.timeCap p rd rs1) := fun w _ e => by cases e; exact engine_le (Bool.and_eq_true_iff.1 (Bool.and_eq_true_iff.1 w).1).1
theorem timeCapn (p rd rs1 : Nat) : Statement (.timeCapn p rd rs1) := fun w _ e => by cases e; exact engine_le (Bool.and_eq_true_iff.1 (Bool.and_eq_true_iff.1 w).1).1
theorem timeArm (p rd rs1 rs2 : Nat) : Statement (.timeArm p rd rs1 rs2) := fun w _ e => by cases e; exact engine_le (Bool.and_eq_true_iff.1 (Bool.and_eq_true_iff.1 (Bool.and_eq_true_iff.1 w).1).1).1
theorem catInv (p rs1 : Nat) : Statement (.catInv p rs1) := fun w _ e => by cases e; exact engine_le (Bool.and_eq_true_iff.1 w).1
theorem catGen (p rd rs1 : Nat) : Statement (.catGen p rd rs1) := fun w _ e => by cases e; exact engine_le (Bool.and_eq_true_iff.1 (Bool.and_eq_true_iff.1 w).1).1
theorem catAddr (p rd rs1 : Nat) : Statement (.catAddr p rd rs1) := fun w _ e => by cases e; exact engine_le (Bool.and_eq_true_iff.1 (Bool.and_eq_true_iff.1 w).1).1
theorem catWin (p rd k : Nat) : Statement (.catWin p rd k) := fun w _ e => by cases e; exact engine_le (Bool.and_eq_true_iff.1 (Bool.and_eq_true_iff.1 w).1).1
theorem catWsize (p rd k : Nat) : Statement (.catWsize p rd k) := fun w _ e => by cases e; exact engine_le (Bool.and_eq_true_iff.1 (Bool.and_eq_true_iff.1 w).1).1
theorem linePage (p rd rs1 rs2 : Nat) : Statement (.linePage p rd rs1 rs2) := fun w _ e => by cases e; exact engine_le (Bool.and_eq_true_iff.1 (Bool.and_eq_true_iff.1 (Bool.and_eq_true_iff.1 w).1).1).1
theorem lineStat (p rd k : Nat) : Statement (.lineStat p rd k) := fun w _ e => by cases e; exact engine_le (Bool.and_eq_true_iff.1 (Bool.and_eq_true_iff.1 w).1).1
theorem substSet (p rd rs1 rs2 : Nat) : Statement (.substSet p rd rs1 rs2) := fun w _ e => by cases e; exact engine_le (Bool.and_eq_true_iff.1 (Bool.and_eq_true_iff.1 (Bool.and_eq_true_iff.1 w).1).1).1
theorem substClr (p rd rs1 rs2 : Nat) : Statement (.substClr p rd rs1 rs2) := fun w _ e => by cases e; exact engine_le (Bool.and_eq_true_iff.1 (Bool.and_eq_true_iff.1 (Bool.and_eq_true_iff.1 w).1).1).1
theorem substGet (p rd rs1 k : Nat) : Statement (.substGet p rd rs1 k) := fun w _ e => by cases e; exact engine_le (Bool.and_eq_true_iff.1 (Bool.and_eq_true_iff.1 (Bool.and_eq_true_iff.1 w).1).1).1
theorem statSeg (p rd rs1 rs2 : Nat) : Statement (.statSeg p rd rs1 rs2) := fun w _ e => by cases e; exact engine_le (Bool.and_eq_true_iff.1 (Bool.and_eq_true_iff.1 (Bool.and_eq_true_iff.1 w).1).1).1
theorem statVcol (p vd rs1 rs2 : Nat) : Statement (.statVcol p vd rs1 rs2) := fun w _ e => by cases e; exact engine_le (Bool.and_eq_true_iff.1 (Bool.and_eq_true_iff.1 (Bool.and_eq_true_iff.1 w).1).1).1
theorem statColframe (p rd rs1 : Nat) : Statement (.statColframe p rd rs1) := fun w _ e => by cases e; exact engine_le (Bool.and_eq_true_iff.1 (Bool.and_eq_true_iff.1 w).1).1
theorem statExpo (p rd rs1 rs2 : Nat) : Statement (.statExpo p rd rs1 rs2) := fun w _ e => by cases e; exact engine_le (Bool.and_eq_true_iff.1 (Bool.and_eq_true_iff.1 (Bool.and_eq_true_iff.1 w).1).1).1
theorem statFrame (p rd rs1 : Nat) : Statement (.statFrame p rd rs1) := fun w _ e => by cases e; exact engine_le (Bool.and_eq_true_iff.1 (Bool.and_eq_true_iff.1 w).1).1
theorem syncInit (p rs1 rs2 : Nat) : Statement (.syncInit p rs1 rs2) := fun w _ e => by cases e; exact engine_le (Bool.and_eq_true_iff.1 (Bool.and_eq_true_iff.1 w).1).1
theorem syncArrive (p rd rs1 : Nat) : Statement (.syncArrive p rd rs1) := fun w _ e => by cases e; exact engine_le (Bool.and_eq_true_iff.1 (Bool.and_eq_true_iff.1 w).1).1
theorem syncWait (p rs1 rs2 : Nat) : Statement (.syncWait p rs1 rs2) := fun w _ e => by cases e; exact engine_le (Bool.and_eq_true_iff.1 (Bool.and_eq_true_iff.1 w).1).1
theorem syncArm (p rs1 rs2 : Nat) : Statement (.syncArm p rs1 rs2) := fun w _ e => by cases e; exact engine_le (Bool.and_eq_true_iff.1 (Bool.and_eq_true_iff.1 w).1).1
theorem sysYield (p : Nat) : Statement (.sysYield p) := fun w _ e => by cases e; exact engine_le w
theorem sysEnd (p : Nat) : Statement (.sysEnd p) := fun w _ e => by cases e; exact engine_le w
theorem sysFence (p : Nat) : Statement (.sysFence p) := fun w _ e => by cases e; exact engine_le w
theorem sysCsrr (p rd c : Nat) : Statement (.sysCsrr p rd c) := fun w _ e => by cases e; exact engine_le (Bool.and_eq_true_iff.1 (Bool.and_eq_true_iff.1 w).1).1
theorem sysCsrw (p rs1 c : Nat) : Statement (.sysCsrw p rs1 c) := fun w _ e => by cases e; exact engine_le (Bool.and_eq_true_iff.1 (Bool.and_eq_true_iff.1 w).1).1
theorem sysArm (p rs1 : Nat) : Statement (.sysArm p rs1) := fun w _ e => by cases e; exact engine_le (Bool.and_eq_true_iff.1 w).1
theorem sysDisarm (p rs1 : Nat) : Statement (.sysDisarm p rs1) := fun w _ e => by cases e; exact engine_le (Bool.and_eq_true_iff.1 w).1
theorem sysTrap (p k : Nat) : Statement (.sysTrap p k) := fun w _ e => by cases e; exact engine_le (Bool.and_eq_true_iff.1 w).1
theorem sysStart (p rs1 rs2 : Nat) : Statement (.sysStart p rs1 rs2) := fun w _ e => by cases e; exact engine_le (Bool.and_eq_true_iff.1 (Bool.and_eq_true_iff.1 w).1).1
theorem sysHalt (p rs1 : Nat) : Statement (.sysHalt p rs1) := fun w _ e => by cases e; exact engine_le (Bool.and_eq_true_iff.1 w).1
theorem vadd (p vd vs1 vs2 : Nat) : Statement (.vadd p vd vs1 vs2) := fun w _ e => by cases e; exact engine_le (Bool.and_eq_true_iff.1 (Bool.and_eq_true_iff.1 (Bool.and_eq_true_iff.1 w).1).1).1
theorem vsub (p vd vs1 vs2 : Nat) : Statement (.vsub p vd vs1 vs2) := fun w _ e => by cases e; exact engine_le (Bool.and_eq_true_iff.1 (Bool.and_eq_true_iff.1 (Bool.and_eq_true_iff.1 w).1).1).1
theorem vadds (p vd vs1 vs2 : Nat) : Statement (.vadds p vd vs1 vs2) := fun w _ e => by cases e; exact engine_le (Bool.and_eq_true_iff.1 (Bool.and_eq_true_iff.1 (Bool.and_eq_true_iff.1 w).1).1).1
theorem vsubs (p vd vs1 vs2 : Nat) : Statement (.vsubs p vd vs1 vs2) := fun w _ e => by cases e; exact engine_le (Bool.and_eq_true_iff.1 (Bool.and_eq_true_iff.1 (Bool.and_eq_true_iff.1 w).1).1).1
theorem vaddus (p vd vs1 vs2 : Nat) : Statement (.vaddus p vd vs1 vs2) := fun w _ e => by cases e; exact engine_le (Bool.and_eq_true_iff.1 (Bool.and_eq_true_iff.1 (Bool.and_eq_true_iff.1 w).1).1).1
theorem vsubus (p vd vs1 vs2 : Nat) : Statement (.vsubus p vd vs1 vs2) := fun w _ e => by cases e; exact engine_le (Bool.and_eq_true_iff.1 (Bool.and_eq_true_iff.1 (Bool.and_eq_true_iff.1 w).1).1).1
theorem vmul (p vd vs1 vs2 : Nat) : Statement (.vmul p vd vs1 vs2) := fun w _ e => by cases e; exact engine_le (Bool.and_eq_true_iff.1 (Bool.and_eq_true_iff.1 (Bool.and_eq_true_iff.1 w).1).1).1
theorem vmulh (p vd vs1 vs2 : Nat) : Statement (.vmulh p vd vs1 vs2) := fun w _ e => by cases e; exact engine_le (Bool.and_eq_true_iff.1 (Bool.and_eq_true_iff.1 (Bool.and_eq_true_iff.1 w).1).1).1
theorem vmulq (p vd vs1 vs2 : Nat) : Statement (.vmulq p vd vs1 vs2) := fun w _ e => by cases e; exact engine_le (Bool.and_eq_true_iff.1 (Bool.and_eq_true_iff.1 (Bool.and_eq_true_iff.1 w).1).1).1
theorem vmin (p vd vs1 vs2 : Nat) : Statement (.vmin p vd vs1 vs2) := fun w _ e => by cases e; exact engine_le (Bool.and_eq_true_iff.1 (Bool.and_eq_true_iff.1 (Bool.and_eq_true_iff.1 w).1).1).1
theorem vmax (p vd vs1 vs2 : Nat) : Statement (.vmax p vd vs1 vs2) := fun w _ e => by cases e; exact engine_le (Bool.and_eq_true_iff.1 (Bool.and_eq_true_iff.1 (Bool.and_eq_true_iff.1 w).1).1).1
theorem vminu (p vd vs1 vs2 : Nat) : Statement (.vminu p vd vs1 vs2) := fun w _ e => by cases e; exact engine_le (Bool.and_eq_true_iff.1 (Bool.and_eq_true_iff.1 (Bool.and_eq_true_iff.1 w).1).1).1
theorem vmaxu (p vd vs1 vs2 : Nat) : Statement (.vmaxu p vd vs1 vs2) := fun w _ e => by cases e; exact engine_le (Bool.and_eq_true_iff.1 (Bool.and_eq_true_iff.1 (Bool.and_eq_true_iff.1 w).1).1).1
theorem vabsdu (p vd vs1 vs2 : Nat) : Statement (.vabsdu p vd vs1 vs2) := fun w _ e => by cases e; exact engine_le (Bool.and_eq_true_iff.1 (Bool.and_eq_true_iff.1 (Bool.and_eq_true_iff.1 w).1).1).1
theorem vand (p vd vs1 vs2 : Nat) : Statement (.vand p vd vs1 vs2) := fun w _ e => by cases e; exact engine_le (Bool.and_eq_true_iff.1 (Bool.and_eq_true_iff.1 (Bool.and_eq_true_iff.1 w).1).1).1
theorem vor (p vd vs1 vs2 : Nat) : Statement (.vor p vd vs1 vs2) := fun w _ e => by cases e; exact engine_le (Bool.and_eq_true_iff.1 (Bool.and_eq_true_iff.1 (Bool.and_eq_true_iff.1 w).1).1).1
theorem vxor (p vd vs1 vs2 : Nat) : Statement (.vxor p vd vs1 vs2) := fun w _ e => by cases e; exact engine_le (Bool.and_eq_true_iff.1 (Bool.and_eq_true_iff.1 (Bool.and_eq_true_iff.1 w).1).1).1
theorem vshl (p vd vs1 k : Nat) : Statement (.vshl p vd vs1 k) := fun w _ e => by cases e; exact engine_le (Bool.and_eq_true_iff.1 (Bool.and_eq_true_iff.1 (Bool.and_eq_true_iff.1 w).1).1).1
theorem vsrl (p vd vs1 k : Nat) : Statement (.vsrl p vd vs1 k) := fun w _ e => by cases e; exact engine_le (Bool.and_eq_true_iff.1 (Bool.and_eq_true_iff.1 (Bool.and_eq_true_iff.1 w).1).1).1
theorem vsra (p vd vs1 k : Nat) : Statement (.vsra p vd vs1 k) := fun w _ e => by cases e; exact engine_le (Bool.and_eq_true_iff.1 (Bool.and_eq_true_iff.1 (Bool.and_eq_true_iff.1 w).1).1).1
theorem vcgt (p vd vs1 vs2 : Nat) : Statement (.vcgt p vd vs1 vs2) := fun w _ e => by cases e; exact engine_le (Bool.and_eq_true_iff.1 (Bool.and_eq_true_iff.1 (Bool.and_eq_true_iff.1 w).1).1).1
theorem vcgtu (p vd vs1 vs2 : Nat) : Statement (.vcgtu p vd vs1 vs2) := fun w _ e => by cases e; exact engine_le (Bool.and_eq_true_iff.1 (Bool.and_eq_true_iff.1 (Bool.and_eq_true_iff.1 w).1).1).1
theorem vceq (p vd vs1 vs2 : Nat) : Statement (.vceq p vd vs1 vs2) := fun w _ e => by cases e; exact engine_le (Bool.and_eq_true_iff.1 (Bool.and_eq_true_iff.1 (Bool.and_eq_true_iff.1 w).1).1).1
theorem vsel (p vd vs1 vs2 : Nat) : Statement (.vsel p vd vs1 vs2) := fun w _ e => by cases e; exact engine_le (Bool.and_eq_true_iff.1 (Bool.and_eq_true_iff.1 (Bool.and_eq_true_iff.1 w).1).1).1
theorem vema (p vd vs1 k : Nat) : Statement (.vema p vd vs1 k) := fun w _ e => by cases e; exact engine_le (Bool.and_eq_true_iff.1 (Bool.and_eq_true_iff.1 (Bool.and_eq_true_iff.1 w).1).1).1
theorem vsplat (p vd rs1 : Nat) : Statement (.vsplat p vd rs1) := fun w _ e => by cases e; exact engine_le (Bool.and_eq_true_iff.1 (Bool.and_eq_true_iff.1 w).1).1
theorem vextu (p rd vs1 k : Nat) : Statement (.vextu p rd vs1 k) := fun w _ e => by cases e; exact engine_le (Bool.and_eq_true_iff.1 (Bool.and_eq_true_iff.1 (Bool.and_eq_true_iff.1 w).1).1).1
theorem vins (p vd rs1 k : Nat) : Statement (.vins p vd rs1 k) := fun w _ e => by cases e; exact engine_le (Bool.and_eq_true_iff.1 (Bool.and_eq_true_iff.1 (Bool.and_eq_true_iff.1 w).1).1).1
theorem vredadd (p rd vs1 : Nat) : Statement (.vredadd p rd vs1) := fun w _ e => by cases e; exact engine_le (Bool.and_eq_true_iff.1 (Bool.and_eq_true_iff.1 w).1).1
theorem vany (p rd vs1 : Nat) : Statement (.vany p rd vs1) := fun w _ e => by cases e; exact engine_le (Bool.and_eq_true_iff.1 (Bool.and_eq_true_iff.1 w).1).1
theorem vld (p vt base win imm : Nat) : Statement (.vld p vt base win imm) := fun w _ e => by cases e; exact engine_le (Bool.and_eq_true_iff.1 (Bool.and_eq_true_iff.1 (Bool.and_eq_true_iff.1 (Bool.and_eq_true_iff.1 w).1).1).1).1
theorem vst (p vt base win imm : Nat) : Statement (.vst p vt base win imm) := fun w _ e => by cases e; exact engine_le (Bool.and_eq_true_iff.1 (Bool.and_eq_true_iff.1 (Bool.and_eq_true_iff.1 (Bool.and_eq_true_iff.1 w).1).1).1).1
theorem sliceMaxExceeded (t p : Nat) : Statement (.sliceMaxExceeded t p) := fun w _ e => by cases e; exact engine_le w
theorem sliceUrgencyRise (t p : Nat) : Statement (.sliceUrgencyRise t p) := fun w _ e => by cases e; exact engine_le w
theorem scribeRestart (t logical : Nat) : Statement (.scribeRestart t logical) := fun _ _ e => by cases e
theorem scribeRestartComplete (t logical : Nat) : Statement (.scribeRestartComplete t logical) := fun _ _ e => by cases e
theorem scribeSubstituteComplete (t phys : Nat) : Statement (.scribeSubstituteComplete t phys) := fun _ _ e => by cases e
theorem copyIn (t ring : Nat) : Statement (.copyIn t ring) := fun _ _ e => by cases e
theorem copyInComplete (t ring : Nat) : Statement (.copyInComplete t ring) := fun _ _ e => by cases e
theorem put32 (t ring : Nat) : Statement (.put32 t ring) := fun _ _ e => by cases e
theorem readyBandsPoll (t : Nat) : Statement (.readyBandsPoll t) := fun _ _ e => by cases e
theorem lineAccept (t : Nat) : Statement (.lineAccept t) := fun _ _ e => by cases e
theorem lineDecode (t plane row err : Nat) : Statement (.lineDecode t plane row err) := fun _ _ e => by cases e
theorem vjobWrite (t v : Nat) : Statement (.vjobWrite t v) := fun _ _ e => by cases e
theorem rewindDwellExpiry (t : Nat) : Statement (.rewindDwellExpiry t) := fun _ _ e => by cases e
theorem keepopenTimeout (t slot : Nat) : Statement (.keepopenTimeout t slot) := fun _ _ e => by cases e
theorem holdOpenExpiry (t : Nat) : Statement (.holdOpenExpiry t) := fun _ _ e => by cases e
theorem startOfScan (t slot : Nat) : Statement (.startOfScan t slot) := fun _ _ e => by cases e
theorem referenceStartOfScan (t : Nat) : Statement (.referenceStartOfScan t) := fun _ _ e => by cases e
theorem sosMissing (t : Nat) : Statement (.sosMissing t) := fun _ _ e => by cases e
theorem dataDeadlineExpiry (t slot : Nat) : Statement (.dataDeadlineExpiry t slot) := fun _ _ e => by cases e
theorem dataFrameSend (t slot err : Nat) : Statement (.dataFrameSend t slot err) := fun _ _ e => by cases e
theorem credit (t lane word : Nat) : Statement (.credit t lane word) := fun _ _ e => by cases e
theorem lineOk (t lane word : Nat) : Statement (.lineOk t lane word) := fun _ _ e => by cases e
theorem lineNak (t lane word : Nat) : Statement (.lineNak t lane word) := fun _ _ e => by cases e
theorem relAck (t lane word : Nat) : Statement (.relAck t lane word) := fun _ _ e => by cases e
theorem relAckTimeout (t slot : Nat) : Statement (.relAckTimeout t slot) := fun _ _ e => by cases e
theorem tempSet (t lane word : Nat) : Statement (.tempSet t lane word) := fun _ _ e => by cases e
theorem statusSet (t lane word : Nat) : Statement (.statusSet t lane word) := fun _ _ e => by cases e
theorem heartbeat (t : Nat) : Statement (.heartbeat t) := fun _ _ e => by cases e
theorem tempTimeout (t slot : Nat) : Statement (.tempTimeout t slot) := fun _ _ e => by cases e
theorem decapLapse (t slot : Nat) : Statement (.decapLapse t slot) := fun _ _ e => by cases e
theorem waveCommit (t slot : Nat) : Statement (.waveCommit t slot) := fun _ _ e => by cases e
theorem authStart (t slot : Nat) : Statement (.authStart t slot) := fun _ _ e => by cases e
theorem cert (t slot : Nat) (msg : List Byte) : Statement (.cert t slot msg) := fun _ _ e => by cases e
theorem usageNow (t slot value seq : Nat) (mac : List Byte) : Statement (.usageNow t slot value seq mac) := fun _ _ e => by cases e
theorem usageAdd (t slot : Nat) : Statement (.usageAdd t slot) := fun _ _ e => by cases e
theorem authTimeout (t slot : Nat) : Statement (.authTimeout t slot) := fun _ _ e => by cases e
theorem authRetry (t slot : Nat) : Statement (.authRetry t slot) := fun _ _ e => by cases e
theorem authGraceExpiry (t slot : Nat) : Statement (.authGraceExpiry t slot) := fun _ _ e => by cases e
theorem cameraPortTrainComplete (t port : Nat) (ok : Bool) : Statement (.cameraPortTrainComplete t port ok) := fun _ _ e => by cases e
theorem cameraLinkFail (t port : Nat) (lost : Bool) : Statement (.cameraLinkFail t port lost) := fun _ _ e => by cases e
theorem csi2Packet (t port vc dtype ecc : Nat) (crcOk : Bool) (payload : List Byte) : Statement (.csi2Packet t port vc dtype ecc crcOk payload) := fun _ _ e => by cases e
theorem cameraLineReceive (t port vc : Nat) : Statement (.cameraLineReceive t port vc) := fun _ _ e => by cases e
theorem groupTrigger (t grp : Nat) : Statement (.groupTrigger t grp) := fun _ _ e => by cases e
theorem triggerLineLost (t pipe : Nat) : Statement (.triggerLineLost t pipe) := fun _ _ e => by cases e
theorem frameEnd (t pipe : Nat) (peakOk : Bool) (ests : List Int) (testOk : Bool) : Statement (.frameEnd t pipe peakOk ests testOk) := fun _ _ e => by cases e
theorem groupRunWrite (t grp value : Nat) : Statement (.groupRunWrite t grp value) := fun _ _ e => by cases e
theorem accumulatorComplete (t plane : Nat) : Statement (.accumulatorComplete t plane) := fun _ _ e => by cases e
theorem expoGo (t : Nat) : Statement (.expoGo t) := fun _ _ e => by cases e
theorem expoCommitCheck (t pipe value : Nat) : Statement (.expoCommitCheck t pipe value) := fun _ _ e => by cases e
theorem pipelineTestTimer (t pipe : Nat) (ok : Bool) : Statement (.pipelineTestTimer t pipe ok) := fun _ _ e => by cases e
theorem healthPass (t plane : Nat) : Statement (.healthPass t plane) := fun _ _ e => by cases e
theorem nozRetire (t nozzle : Nat) : Statement (.nozRetire t nozzle) := fun _ _ e => by cases e
theorem nozRestore (t nozzle : Nat) : Statement (.nozRestore t nozzle) := fun _ _ e => by cases e
theorem nozRestorePlane (t plane : Nat) : Statement (.nozRestorePlane t plane) := fun _ _ e => by cases e
theorem cuSwapRequest (t : Nat) : Statement (.cuSwapRequest t) := fun _ _ e => by cases e
theorem densityUpdate (t plane : Nat) : Statement (.densityUpdate t plane) := fun _ _ e => by cases e
theorem registrationWindow (t grp speed : Nat) (steady : Bool) : Statement (.registrationWindow t grp speed steady) := fun _ _ e => by cases e
theorem xshiftApply (t plane : Nat) : Statement (.xshiftApply t plane) := fun _ _ e => by cases e
theorem recalRequest (t cls unit : Nat) : Statement (.recalRequest t cls unit) := fun _ _ e => by cases e
theorem recalAgeExpiry (t cls unit : Nat) : Statement (.recalAgeExpiry t cls unit) := fun _ _ e => by cases e
theorem recalStart (t cls : Nat) : Statement (.recalStart t cls) := fun _ _ e => by cases e
theorem recalComplete (t cls unit a b ctle : Nat) : Statement (.recalComplete t cls unit a b ctle) := fun _ _ e => by cases e
theorem converterSwap (t input diff : Nat) : Statement (.converterSwap t input diff) := fun _ _ e => by cases e
theorem xrefCheck (t ohms : Nat) : Statement (.xrefCheck t ohms) := fun _ _ e => by cases e
theorem moveAbs (t : Nat) : Statement (.moveAbs t) := fun _ _ e => by cases e
theorem moveRel (t : Nat) : Statement (.moveRel t) := fun _ _ e => by cases e
theorem velocity (t : Nat) : Statement (.velocity t) := fun _ _ e => by cases e
theorem stop (t : Nat) : Statement (.stop t) := fun _ _ e => by cases e
theorem home (t : Nat) : Statement (.home t) := fun _ _ e => by cases e
theorem enable (t : Nat) : Statement (.enable t) := fun _ _ e => by cases e
theorem disable (t : Nat) : Statement (.disable t) := fun _ _ e => by cases e
theorem servoPeriod (t port : Nat) : Statement (.servoPeriod t port) := fun _ _ e => by cases e
theorem driveLinkFrameReceive (t port : Nat) (chars : List Byte) : Statement (.driveLinkFrameReceive t port chars) := fun _ _ e => by cases e
theorem driveLinkUp (t port seen : Nat) (hops : List Nat) : Statement (.driveLinkUp t port seen hops) := fun _ _ e => by cases e
theorem holdDelayExpiry (t axis : Nat) : Statement (.holdDelayExpiry t axis) := fun _ _ e => by cases e
theorem switchQualify (t sw t0 : Nat) (level : Bool) : Statement (.switchQualify t sw t0 level) := fun _ _ e => by cases e
theorem latchHoldoffExpiry (t axis : Nat) : Statement (.latchHoldoffExpiry t axis) := fun _ _ e => by cases e
theorem feedbackPositionUpdate (t input : Nat) (x y : Int) : Statement (.feedbackPositionUpdate t input x y) := fun _ _ e => by cases e
theorem ssiReading (t input value : Nat) (idle : Bool) : Statement (.ssiReading t input value idle) := fun _ _ e => by cases e
theorem indexEdge (t input : Nat) : Statement (.indexEdge t input) := fun _ _ e => by cases e
theorem speedZeroTimeout (t input : Nat) : Statement (.speedZeroTimeout t input) := fun _ _ e => by cases e
theorem emulatorEdge (t emu : Nat) : Statement (.emulatorEdge t emu) := fun _ _ e => by cases e
theorem timeNowLatch (t reader : Nat) : Statement (.timeNowLatch t reader) := fun _ _ e => by cases e
theorem timeCapLatch (t reader : Nat) : Statement (.timeCapLatch t reader) := fun _ _ e => by cases e
theorem ptpAnnounceReceive (t port domain prio1 cls acc variance prio2 gm steps : Nat) : Statement (.ptpAnnounceReceive t port domain prio1 cls acc variance prio2 gm steps) := fun _ _ e => by cases e
theorem ptpSyncReceive (t port domain origin : Nat) (corr : Int) : Statement (.ptpSyncReceive t port domain origin corr) := fun _ _ e => by cases e
theorem ptpDelayRespReceive (t port seq rx : Nat) (corr : Int) : Statement (.ptpDelayRespReceive t port seq rx corr) := fun _ _ e => by cases e
theorem ptpDelayReqSend (t : Nat) : Statement (.ptpDelayReqSend t) := fun _ _ e => by cases e
theorem ptpMasterSend (t kind : Nat) : Statement (.ptpMasterSend t kind) := fun _ _ e => by cases e
theorem ptpTransparentForward (t te port kind seq origin : Nat) (corr : Int) : Statement (.ptpTransparentForward t te port kind seq origin corr) := fun _ _ e => by cases e
theorem announceTimeout (t : Nat) : Statement (.announceTimeout t) := fun _ _ e => by cases e
theorem traceHoldExpiry (t : Nat) : Statement (.traceHoldExpiry t) := fun _ _ e => by cases e
theorem ppsOutEdge (t : Nat) : Statement (.ppsOutEdge t) := fun _ _ e => by cases e
theorem ppsInEdge (t : Nat) : Statement (.ppsInEdge t) := fun _ _ e => by cases e
theorem timeSet (t : Nat) : Statement (.timeSet t) := fun _ _ e => by cases e
theorem timeSetAtPps (t : Nat) : Statement (.timeSetAtPps t) := fun _ _ e => by cases e
theorem timeTriggerFire (t trig : Nat) : Statement (.timeTriggerFire t trig) := fun _ _ e => by cases e
theorem neighborSend (t port : Nat) : Statement (.neighborSend t port) := fun _ _ e => by cases e
theorem neighborReceive (t port node : Nat) (learned : Bool) : Statement (.neighborReceive t port node learned) := fun _ _ e => by cases e
theorem neighborMiss (t port : Nat) : Statement (.neighborMiss t port) := fun _ _ e => by cases e
theorem nodeLearnTimeout (t : Nat) : Statement (.nodeLearnTimeout t) := fun _ _ e => by cases e
theorem ringFrameReceive (t port : Nat) (bytes : List Byte) : Statement (.ringFrameReceive t port bytes) := fun _ _ e => by cases e
theorem ringLinkLoss (t port : Nat) : Statement (.ringLinkLoss t port) := fun _ _ e => by cases e
theorem stacksRequest (t port source addr len : Nat) (write : Bool) (data : List Byte) : Statement (.stacksRequest t port source addr len write data) := fun _ _ e => by cases e
theorem stacksUrgencyRise (t : Nat) : Statement (.stacksUrgencyRise t) := fun _ _ e => by cases e
theorem stacksRequestServed (t pc ecc : Nat) : Statement (.stacksRequestServed t pc ecc) := fun _ _ e => by cases e
theorem bankRefresh (t pc bank : Nat) : Statement (.bankRefresh t pc bank) := fun _ _ e => by cases e
theorem stackTempRead (t stack : Nat) (value : Int) : Statement (.stackTempRead t stack value) := fun _ _ e => by cases e
theorem hbmParityError (t kind port source addr : Nat) (named : Bool) : Statement (.hbmParityError t kind port source addr named) := fun _ _ e => by cases e
theorem hbmReadTimeout (t port source addr : Nat) : Statement (.hbmReadTimeout t port source addr) := fun _ _ e => by cases e
theorem scrubRead (t ecc : Nat) : Statement (.scrubRead t ecc) := fun _ _ e => by cases e
theorem rowRepair (t : Nat) : Statement (.rowRepair t) := fun _ _ e => by cases e
theorem repairRecordWrite (t : Nat) : Statement (.repairRecordWrite t) := fun _ _ e => by cases e
theorem retrainWindow (t pc rd wr : Nat) : Statement (.retrainWindow t pc rd wr) := fun _ _ e => by cases e
theorem freezeEntry (t cause port source addr : Nat) : Statement (.freezeEntry t cause port source addr) := fun _ _ e => by cases e
theorem freezeWithholdExpiry (t : Nat) : Statement (.freezeWithholdExpiry t) := fun _ _ e => by cases e
theorem rrRotation (t : Nat) : Statement (.rrRotation t) := fun _ _ e => by cases e
theorem rrBankTestComplete (t : Nat) (ok : Bool) : Statement (.rrBankTestComplete t ok) := fun _ _ e => by cases e
theorem binderyCompress (t unit : Nat) : Statement (.binderyCompress t unit) := fun _ _ e => by cases e
theorem binderyDecompress (t unit : Nat) : Statement (.binderyDecompress t unit) := fun _ _ e => by cases e
theorem binderyBlockWrite (t unit : Nat) (coded : List Byte) (nbits : Nat) (storedOk : Bool) : Statement (.binderyBlockWrite t unit coded nbits storedOk) := fun _ _ e => by cases e
theorem binderyJobComplete (t unit : Nat) : Statement (.binderyJobComplete t unit) := fun _ _ e => by cases e
theorem laneBringupStart (t lane : Nat) : Statement (.laneBringupStart t lane) := fun _ _ e => by cases e
theorem laneReady (t lane ctle pad : Nat) (taps : List Int) : Statement (.laneReady t lane ctle pad taps) := fun _ _ e => by cases e
theorem blockLockLoss (t lane : Nat) : Statement (.blockLockLoss t lane) := fun _ _ e => by cases e
theorem laneSwitchShiftComplete (t : Nat) : Statement (.laneSwitchShiftComplete t) := fun _ _ e => by cases e
theorem laneMove (t lane : Nat) : Statement (.laneMove t lane) := fun _ _ e => by cases e
theorem laneRetire (t lane : Nat) : Statement (.laneRetire t lane) := fun _ _ e => by cases e
theorem laneRestore (t lane : Nat) : Statement (.laneRestore t lane) := fun _ _ e => by cases e
theorem laneSwitchVerifyTimeout (t : Nat) : Statement (.laneSwitchVerifyTimeout t) := fun _ _ e => by cases e
theorem prbsInjectOnce (t lane : Nat) : Statement (.prbsInjectOnce t lane) := fun _ _ e => by cases e
theorem prbsInjectPeriodic (t lane : Nat) : Statement (.prbsInjectPeriodic t lane) := fun _ _ e => by cases e
theorem eyeMeasurement (t lane w h : Nat) : Statement (.eyeMeasurement t lane w h) := fun _ _ e => by cases e
theorem reloadEnd (t : Nat) : Statement (.reloadEnd t) := fun _ _ e => by cases e
theorem secondaryWaitExpiry (t : Nat) : Statement (.secondaryWaitExpiry t) := fun _ _ e => by cases e
theorem twinHb (t lane word : Nat) (alike : Bool) : Statement (.twinHb t lane word alike) := fun _ _ e => by cases e
theorem twinHbSend (t : Nat) : Statement (.twinHbSend t) := fun _ _ e => by cases e
theorem twinCredit (t lane word : Nat) : Statement (.twinCredit t lane word) := fun _ _ e => by cases e
theorem twinAck (t lane word : Nat) : Statement (.twinAck t lane word) := fun _ _ e => by cases e
theorem twinNak (t lane word : Nat) : Statement (.twinNak t lane word) := fun _ _ e => by cases e
theorem twinFail (t lane word : Nat) : Statement (.twinFail t lane word) := fun _ _ e => by cases e
theorem twinHbTimeout (t : Nat) : Statement (.twinHbTimeout t) := fun _ _ e => by cases e
theorem twinRecordReceive (t lane seq : Nat) (good : Bool) (rec : TwinRec) : Statement (.twinRecordReceive t lane seq good rec) := fun _ _ e => by cases e
theorem stacksWrite (t addr : Nat) (data : List Byte) : Statement (.stacksWrite t addr data) := fun _ _ e => by cases e
theorem pageRec (t addr first : Nat) (hasW0 : Bool) (w0 : Int) : Statement (.pageRec t addr first hasW0 w0) := fun _ _ e => by cases e
theorem substRec (t : Nat) (isSet : Bool) (nozzle spare line : Nat) : Statement (.substRec t isSet nozzle spare line) := fun _ _ e => by cases e
theorem bankRec (t plane bank offset : Nat) (trims : List Byte) : Statement (.bankRec t plane bank offset trims) := fun _ _ e => by cases e
theorem entryRec (t : Nat) (entry : List Byte) (since : Nat) : Statement (.entryRec t entry since) := fun _ _ e => by cases e
theorem setpointRec (t port period : Nat) (slots : List Byte) : Statement (.setpointRec t port period slots) := fun _ _ e => by cases e
theorem modeRec (t mode cause line stop step : Nat) : Statement (.modeRec t mode cause line stop step) := fun _ _ e => by cases e
theorem healthRec (t : Nat) (body : List Byte) : Statement (.healthRec t body) := fun _ _ e => by cases e
theorem handoverRec (t instant : Nat) (tags credits : List Nat) : Statement (.handoverRec t instant tags credits) := fun _ _ e => by cases e
theorem syncMark (t kind : Nat) : Statement (.syncMark t kind) := fun _ _ e => by cases e
theorem healthSend (t : Nat) : Statement (.healthSend t) := fun _ _ e => by cases e
theorem resyncComplete (t : Nat) (equal : Bool) (reach : Nat) : Statement (.resyncComplete t equal reach) := fun _ _ e => by cases e
theorem shadowLineTimeout (t slot : Nat) : Statement (.shadowLineTimeout t slot) := fun _ _ e => by cases e
theorem switchover (t : Nat) : Statement (.switchover t) := fun _ _ e => by cases e
theorem handoverReport (t : Nat) : Statement (.handoverReport t) := fun _ _ e => by cases e
theorem pairYieldPage (t : Nat) : Statement (.pairYieldPage t) := fun _ _ e => by cases e
theorem pairYieldNow (t : Nat) : Statement (.pairYieldNow t) := fun _ _ e => by cases e
theorem pairResync (t : Nat) : Statement (.pairResync t) := fun _ _ e => by cases e
theorem handoverSend (t : Nat) : Statement (.handoverSend t) := fun _ _ e => by cases e
theorem handoverInstant (t : Nat) : Statement (.handoverInstant t) := fun _ _ e => by cases e
theorem handoverTake (t : Nat) : Statement (.handoverTake t) := fun _ _ e => by cases e
theorem wtrExpiry (t : Nat) : Statement (.wtrExpiry t) := fun _ _ e => by cases e
theorem sensorConversion (t sensor : Nat) (raw : Int) : Statement (.sensorConversion t sensor raw) := fun _ _ e => by cases e
theorem sensorConversionTimeout (t sensor : Nat) : Statement (.sensorConversionTimeout t sensor) := fun _ _ e => by cases e
theorem thermalSweep (t : Nat) (raws : List Int) : Statement (.thermalSweep t raws) := fun _ _ e => by cases e
theorem hardwareTrip (t src : Nat) : Statement (.hardwareTrip t src) := fun _ _ e => by cases e
theorem sensorRestore (t sensor : Nat) : Statement (.sensorRestore t sensor) := fun _ _ e => by cases e
theorem flashOkRestore (t : Nat) : Statement (.flashOkRestore t) := fun _ _ e => by cases e
theorem limLock (t : Nat) : Statement (.limLock t) := fun _ _ e => by cases e
theorem tlimLock (t : Nat) : Statement (.tlimLock t) := fun _ _ e => by cases e
theorem cfgLock (t : Nat) : Statement (.cfgLock t) := fun _ _ e => by cases e
theorem coldStart (t : Nat) : Statement (.coldStart t) := fun _ _ e => by cases e
theorem rstNAssert (t : Nat) : Statement (.rstNAssert t) := fun _ _ e => by cases e
theorem lxReset (t key : Nat) : Statement (.lxReset t key) := fun _ _ e => by cases e
theorem pePerstAssert (t : Nat) : Statement (.pePerstAssert t) := fun _ _ e => by cases e
theorem watchdogExpiry (t : Nat) : Statement (.watchdogExpiry t) := fun _ _ e => by cases e
theorem warmResetAckWaitExpiry (t : Nat) : Statement (.warmResetAckWaitExpiry t) := fun _ _ e => by cases e
theorem setSave (t : Nat) : Statement (.setSave t) := fun _ _ e => by cases e
theorem setWrite (t : Nat) : Statement (.setWrite t) := fun _ _ e => by cases e
theorem setClear (t : Nat) : Statement (.setClear t) := fun _ _ e => by cases e
theorem settingsWriteComplete (t : Nat) : Statement (.settingsWriteComplete t) := fun _ _ e => by cases e
theorem updLoad (t : Nat) : Statement (.updLoad t) := fun _ _ e => by cases e
theorem updArm (t : Nat) : Statement (.updArm t) := fun _ _ e => by cases e
theorem updDisarm (t : Nat) : Statement (.updDisarm t) := fun _ _ e => by cases e
theorem updConfirm (t : Nat) : Statement (.updConfirm t) := fun _ _ e => by cases e
theorem updForward (t ports : Nat) : Statement (.updForward t ports) := fun _ _ e => by cases e
theorem updAbort (t : Nat) : Statement (.updAbort t) := fun _ _ e => by cases e
theorem armComplete (t : Nat) : Statement (.armComplete t) := fun _ _ e => by cases e
theorem imgOffer (t port id : Nat) (header : List Byte) : Statement (.imgOffer t port id header) := fun _ _ e => by cases e
theorem imgData (t port id block seg : Nat) (data : List Byte) : Statement (.imgData t port id block seg data) := fun _ _ e => by cases e
theorem imgAck (t port id code err block missing : Nat) : Statement (.imgAck t port id code err block missing) := fun _ _ e => by cases e
theorem imgAckTimeout (t port : Nat) : Statement (.imgAckTimeout t port) := fun _ _ e => by cases e
theorem imageVerifyComplete (t : Nat) : Statement (.imageVerifyComplete t) := fun _ _ e => by cases e
theorem stagingWriteComplete (t : Nat) (same : Bool) : Statement (.stagingWriteComplete t same) := fun _ _ e => by cases e
theorem levels (t port ring version : Nat) : Statement (.levels t port ring version) := fun _ _ e => by cases e
theorem levelsSend (t port : Nat) : Statement (.levelsSend t port) := fun _ _ e => by cases e
theorem twinLevel (t lane word : Nat) : Statement (.twinLevel t lane word) := fun _ _ e => by cases e
theorem twinLevelSend (t : Nat) : Statement (.twinLevelSend t) := fun _ _ e => by cases e
theorem imageConfirm (t : Nat) : Statement (.imageConfirm t) := fun _ _ e => by cases e
theorem confirmWindowExpiry (t : Nat) : Statement (.confirmWindowExpiry t) := fun _ _ e => by cases e
theorem gpRunStart (t value : Nat) : Statement (.gpRunStart t value) := fun _ _ e => by cases e
theorem gpRunStop (t value : Nat) : Statement (.gpRunStop t value) := fun _ _ e => by cases e
theorem gpDmaGo (t : Nat) : Statement (.gpDmaGo t) := fun _ _ e => by cases e
theorem gpIntStatRead (t : Nat) : Statement (.gpIntStatRead t) := fun _ _ e => by cases e
theorem gpUnlock (t key : Nat) : Statement (.gpUnlock t key) := fun _ _ e => by cases e
theorem supplyExcursion (t rail mv : Nat) : Statement (.supplyExcursion t rail mv) := fun _ _ e => by cases e
theorem supplyOutOfRange (t rail : Nat) : Statement (.supplyOutOfRange t rail) := fun _ _ e => by cases e
theorem illegalInstruction (p : Nat) (word : BitVec 32) : Statement (.illegalInstruction p word) := fun w _ e => by cases e; exact engine_le w
theorem ringLinkUp (t port : Nat) : Statement (.ringLinkUp t port) := fun _ _ e => by cases e
theorem ptpDelayReqReceive (t port seq : Nat) (corr : Int) : Statement (.ptpDelayReqReceive t port seq corr) := fun _ _ e => by cases e
theorem laneMoveReleaseWaitExpiry (t : Nat) : Statement (.laneMoveReleaseWaitExpiry t) := fun _ _ e => by cases e
theorem twinAckSend (t : Nat) : Statement (.twinAckSend t) := fun _ _ e => by cases e
theorem activeHeartbeatWaitExpiry (t : Nat) : Statement (.activeHeartbeatWaitExpiry t) := fun _ _ e => by cases e
theorem catalogWindowWrite (t addr value : Nat) : Statement (.catalogWindowWrite t addr value) := fun _ _ e => by cases e
theorem prbsErrorLimit (t lane errors : Nat) : Statement (.prbsErrorLimit t lane errors) := fun _ _ e => by cases e
theorem prbsCheckerSync (t lane : Nat) : Statement (.prbsCheckerSync t lane) := fun _ _ e => by cases e
theorem imgDataSend (t port : Nat) : Statement (.imgDataSend t port) := fun _ _ e => by cases e

end Sys2Proof.Laws.NamesEngine
end

