-- ==== Sys2Proof/Laws/State.lean ====
section
/-! SUPPORT. What each update of State leaves alone, field by field, and what it leaves in the field it writes. -/

namespace Sys2Proof.Laws

open Sys2Proof.Machine

/-! ### Fields an update leaves alone -/

@[simp] theorem wr_clk (s : State) (f : Fld) (i v : Nat) : (s.wr f i v).clk = s.clk := rfl
@[simp] theorem wr_timeOff (s : State) (f : Fld) (i v : Nat) : (s.wr f i v).timeOff = s.timeOff := rfl
@[simp] theorem wr_freeN (s : State) (f : Fld) (i v : Nat) : (s.wr f i v).freeN = s.freeN := rfl
@[simp] theorem wr_mem (s : State) (f : Fld) (i v : Nat) : (s.wr f i v).mem = s.mem := rfl
@[simp] theorem wr_out (s : State) (f : Fld) (i v : Nat) : (s.wr f i v).out = s.out := rfl
@[simp] theorem wr_cat (s : State) (f : Fld) (i v : Nat) : (s.wr f i v).cat = s.cat := rfl
@[simp] theorem wr_rings (s : State) (f : Fld) (i v : Nat) : (s.wr f i v).rings = s.rings := rfl
@[simp] theorem wr_evHeld (s : State) (f : Fld) (i v : Nat) : (s.wr f i v).evHeld = s.evHeld := rfl
@[simp] theorem wr_evLost (s : State) (f : Fld) (i v : Nat) : (s.wr f i v).evLost = s.evLost := rfl
@[simp] theorem wr_led (s : State) (f : Fld) (i v : Nat) : (s.wr f i v).led = s.led := rfl
@[simp] theorem wr_md (s : State) (f : Fld) (i v : Nat) : (s.wr f i v).md = s.md := rfl
@[simp] theorem wr_engines (s : State) (f : Fld) (i v : Nat) : (s.wr f i v).engines = s.engines := rfl
@[simp] theorem wr_barriers (s : State) (f : Fld) (i v : Nat) : (s.wr f i v).barriers = s.barriers := rfl
@[simp] theorem wr_traps (s : State) (f : Fld) (i v : Nat) : (s.wr f i v).traps = s.traps := rfl
@[simp] theorem wr_la (s : State) (f : Fld) (i v : Nat) : (s.wr f i v).la = s.la := rfl
@[simp] theorem wr_fire (s : State) (f : Fld) (i v : Nat) : (s.wr f i v).fire = s.fire := rfl
@[simp] theorem wr_mot (s : State) (f : Fld) (i v : Nat) : (s.wr f i v).mot = s.mot := rfl
@[simp] theorem wr_insp (s : State) (f : Fld) (i v : Nat) : (s.wr f i v).insp = s.insp := rfl
@[simp] theorem wr_loops (s : State) (f : Fld) (i v : Nat) : (s.wr f i v).loops = s.loops := rfl
@[simp] theorem wr_tu (s : State) (f : Fld) (i v : Nat) : (s.wr f i v).tu = s.tu := rfl
@[simp] theorem wr_net (s : State) (f : Fld) (i v : Nat) : (s.wr f i v).net = s.net := rfl
@[simp] theorem wr_pair (s : State) (f : Fld) (i v : Nat) : (s.wr f i v).pair = s.pair := rfl
@[simp] theorem wr_ln (s : State) (f : Fld) (i v : Nat) : (s.wr f i v).ln = s.ln := rfl
@[simp] theorem wr_cal (s : State) (f : Fld) (i v : Nat) : (s.wr f i v).cal = s.cal := rfl
@[simp] theorem wr_fl (s : State) (f : Fld) (i v : Nat) : (s.wr f i v).fl = s.fl := rfl
@[simp] theorem wr_th (s : State) (f : Fld) (i v : Nat) : (s.wr f i v).th = s.th := rfl
@[simp] theorem wr_gp (s : State) (f : Fld) (i v : Nat) : (s.wr f i v).gp = s.gp := rfl
@[simp] theorem wr_st (s : State) (f : Fld) (i v : Nat) : (s.wr f i v).st = s.st := rfl
@[simp] theorem wr_bnd (s : State) (f : Fld) (i v : Nat) : (s.wr f i v).bnd = s.bnd := rfl
@[simp] theorem wr_pending (s : State) (f : Fld) (i v : Nat) : (s.wr f i v).pending = s.pending := rfl

@[simp] theorem wri_clk (s : State) (f : Fld) (i : Nat) (v : Int) : (s.wri f i v).clk = s.clk := rfl
@[simp] theorem wri_timeOff (s : State) (f : Fld) (i : Nat) (v : Int) : (s.wri f i v).timeOff = s.timeOff := rfl
@[simp] theorem wri_freeN (s : State) (f : Fld) (i : Nat) (v : Int) : (s.wri f i v).freeN = s.freeN := rfl
@[simp] theorem wri_mem (s : State) (f : Fld) (i : Nat) (v : Int) : (s.wri f i v).mem = s.mem := rfl
@[simp] theorem wri_out (s : State) (f : Fld) (i : Nat) (v : Int) : (s.wri f i v).out = s.out := rfl
@[simp] theorem wri_cat (s : State) (f : Fld) (i : Nat) (v : Int) : (s.wri f i v).cat = s.cat := rfl
@[simp] theorem wri_rings (s : State) (f : Fld) (i : Nat) (v : Int) : (s.wri f i v).rings = s.rings := rfl
@[simp] theorem wri_evHeld (s : State) (f : Fld) (i : Nat) (v : Int) : (s.wri f i v).evHeld = s.evHeld := rfl
@[simp] theorem wri_evLost (s : State) (f : Fld) (i : Nat) (v : Int) : (s.wri f i v).evLost = s.evLost := rfl
@[simp] theorem wri_led (s : State) (f : Fld) (i : Nat) (v : Int) : (s.wri f i v).led = s.led := rfl
@[simp] theorem wri_md (s : State) (f : Fld) (i : Nat) (v : Int) : (s.wri f i v).md = s.md := rfl
@[simp] theorem wri_engines (s : State) (f : Fld) (i : Nat) (v : Int) : (s.wri f i v).engines = s.engines := rfl
@[simp] theorem wri_barriers (s : State) (f : Fld) (i : Nat) (v : Int) : (s.wri f i v).barriers = s.barriers := rfl
@[simp] theorem wri_traps (s : State) (f : Fld) (i : Nat) (v : Int) : (s.wri f i v).traps = s.traps := rfl
@[simp] theorem wri_la (s : State) (f : Fld) (i : Nat) (v : Int) : (s.wri f i v).la = s.la := rfl
@[simp] theorem wri_fire (s : State) (f : Fld) (i : Nat) (v : Int) : (s.wri f i v).fire = s.fire := rfl
@[simp] theorem wri_mot (s : State) (f : Fld) (i : Nat) (v : Int) : (s.wri f i v).mot = s.mot := rfl
@[simp] theorem wri_insp (s : State) (f : Fld) (i : Nat) (v : Int) : (s.wri f i v).insp = s.insp := rfl
@[simp] theorem wri_loops (s : State) (f : Fld) (i : Nat) (v : Int) : (s.wri f i v).loops = s.loops := rfl
@[simp] theorem wri_tu (s : State) (f : Fld) (i : Nat) (v : Int) : (s.wri f i v).tu = s.tu := rfl
@[simp] theorem wri_net (s : State) (f : Fld) (i : Nat) (v : Int) : (s.wri f i v).net = s.net := rfl
@[simp] theorem wri_pair (s : State) (f : Fld) (i : Nat) (v : Int) : (s.wri f i v).pair = s.pair := rfl
@[simp] theorem wri_ln (s : State) (f : Fld) (i : Nat) (v : Int) : (s.wri f i v).ln = s.ln := rfl
@[simp] theorem wri_cal (s : State) (f : Fld) (i : Nat) (v : Int) : (s.wri f i v).cal = s.cal := rfl
@[simp] theorem wri_fl (s : State) (f : Fld) (i : Nat) (v : Int) : (s.wri f i v).fl = s.fl := rfl
@[simp] theorem wri_th (s : State) (f : Fld) (i : Nat) (v : Int) : (s.wri f i v).th = s.th := rfl
@[simp] theorem wri_gp (s : State) (f : Fld) (i : Nat) (v : Int) : (s.wri f i v).gp = s.gp := rfl
@[simp] theorem wri_st (s : State) (f : Fld) (i : Nat) (v : Int) : (s.wri f i v).st = s.st := rfl
@[simp] theorem wri_bnd (s : State) (f : Fld) (i : Nat) (v : Int) : (s.wri f i v).bnd = s.bnd := rfl
@[simp] theorem wri_pending (s : State) (f : Fld) (i : Nat) (v : Int) : (s.wri f i v).pending = s.pending := rfl

@[simp] theorem wrb_clk (s : State) (f : Fld) (i : Nat) (b : Bool) : (s.wrb f i b).clk = s.clk := rfl
@[simp] theorem wrb_timeOff (s : State) (f : Fld) (i : Nat) (b : Bool) : (s.wrb f i b).timeOff = s.timeOff := rfl
@[simp] theorem wrb_freeN (s : State) (f : Fld) (i : Nat) (b : Bool) : (s.wrb f i b).freeN = s.freeN := rfl
@[simp] theorem wrb_mem (s : State) (f : Fld) (i : Nat) (b : Bool) : (s.wrb f i b).mem = s.mem := rfl
@[simp] theorem wrb_out (s : State) (f : Fld) (i : Nat) (b : Bool) : (s.wrb f i b).out = s.out := rfl
@[simp] theorem wrb_cat (s : State) (f : Fld) (i : Nat) (b : Bool) : (s.wrb f i b).cat = s.cat := rfl
@[simp] theorem wrb_rings (s : State) (f : Fld) (i : Nat) (b : Bool) : (s.wrb f i b).rings = s.rings := rfl
@[simp] theorem wrb_evHeld (s : State) (f : Fld) (i : Nat) (b : Bool) : (s.wrb f i b).evHeld = s.evHeld := rfl
@[simp] theorem wrb_evLost (s : State) (f : Fld) (i : Nat) (b : Bool) : (s.wrb f i b).evLost = s.evLost := rfl
@[simp] theorem wrb_led (s : State) (f : Fld) (i : Nat) (b : Bool) : (s.wrb f i b).led = s.led := rfl
@[simp] theorem wrb_md (s : State) (f : Fld) (i : Nat) (b : Bool) : (s.wrb f i b).md = s.md := rfl
@[simp] theorem wrb_engines (s : State) (f : Fld) (i : Nat) (b : Bool) : (s.wrb f i b).engines = s.engines := rfl
@[simp] theorem wrb_barriers (s : State) (f : Fld) (i : Nat) (b : Bool) : (s.wrb f i b).barriers = s.barriers := rfl
@[simp] theorem wrb_traps (s : State) (f : Fld) (i : Nat) (b : Bool) : (s.wrb f i b).traps = s.traps := rfl
@[simp] theorem wrb_la (s : State) (f : Fld) (i : Nat) (b : Bool) : (s.wrb f i b).la = s.la := rfl
@[simp] theorem wrb_fire (s : State) (f : Fld) (i : Nat) (b : Bool) : (s.wrb f i b).fire = s.fire := rfl
@[simp] theorem wrb_mot (s : State) (f : Fld) (i : Nat) (b : Bool) : (s.wrb f i b).mot = s.mot := rfl
@[simp] theorem wrb_insp (s : State) (f : Fld) (i : Nat) (b : Bool) : (s.wrb f i b).insp = s.insp := rfl
@[simp] theorem wrb_loops (s : State) (f : Fld) (i : Nat) (b : Bool) : (s.wrb f i b).loops = s.loops := rfl
@[simp] theorem wrb_tu (s : State) (f : Fld) (i : Nat) (b : Bool) : (s.wrb f i b).tu = s.tu := rfl
@[simp] theorem wrb_net (s : State) (f : Fld) (i : Nat) (b : Bool) : (s.wrb f i b).net = s.net := rfl
@[simp] theorem wrb_pair (s : State) (f : Fld) (i : Nat) (b : Bool) : (s.wrb f i b).pair = s.pair := rfl
@[simp] theorem wrb_ln (s : State) (f : Fld) (i : Nat) (b : Bool) : (s.wrb f i b).ln = s.ln := rfl
@[simp] theorem wrb_cal (s : State) (f : Fld) (i : Nat) (b : Bool) : (s.wrb f i b).cal = s.cal := rfl
@[simp] theorem wrb_fl (s : State) (f : Fld) (i : Nat) (b : Bool) : (s.wrb f i b).fl = s.fl := rfl
@[simp] theorem wrb_th (s : State) (f : Fld) (i : Nat) (b : Bool) : (s.wrb f i b).th = s.th := rfl
@[simp] theorem wrb_gp (s : State) (f : Fld) (i : Nat) (b : Bool) : (s.wrb f i b).gp = s.gp := rfl
@[simp] theorem wrb_st (s : State) (f : Fld) (i : Nat) (b : Bool) : (s.wrb f i b).st = s.st := rfl
@[simp] theorem wrb_bnd (s : State) (f : Fld) (i : Nat) (b : Bool) : (s.wrb f i b).bnd = s.bnd := rfl
@[simp] theorem wrb_pending (s : State) (f : Fld) (i : Nat) (b : Bool) : (s.wrb f i b).pending = s.pending := rfl

@[simp] theorem wr2_clk (s : State) (lo hi : Fld) (i v : Nat) : (s.wr2 lo hi i v).clk = s.clk := rfl
@[simp] theorem wr2_timeOff (s : State) (lo hi : Fld) (i v : Nat) : (s.wr2 lo hi i v).timeOff = s.timeOff := rfl
@[simp] theorem wr2_freeN (s : State) (lo hi : Fld) (i v : Nat) : (s.wr2 lo hi i v).freeN = s.freeN := rfl
@[simp] theorem wr2_mem (s : State) (lo hi : Fld) (i v : Nat) : (s.wr2 lo hi i v).mem = s.mem := rfl
@[simp] theorem wr2_out (s : State) (lo hi : Fld) (i v : Nat) : (s.wr2 lo hi i v).out = s.out := rfl
@[simp] theorem wr2_cat (s : State) (lo hi : Fld) (i v : Nat) : (s.wr2 lo hi i v).cat = s.cat := rfl
@[simp] theorem wr2_rings (s : State) (lo hi : Fld) (i v : Nat) : (s.wr2 lo hi i v).rings = s.rings := rfl
@[simp] theorem wr2_evHeld (s : State) (lo hi : Fld) (i v : Nat) : (s.wr2 lo hi i v).evHeld = s.evHeld := rfl
@[simp] theorem wr2_evLost (s : State) (lo hi : Fld) (i v : Nat) : (s.wr2 lo hi i v).evLost = s.evLost := rfl
@[simp] theorem wr2_led (s : State) (lo hi : Fld) (i v : Nat) : (s.wr2 lo hi i v).led = s.led := rfl
@[simp] theorem wr2_md (s : State) (lo hi : Fld) (i v : Nat) : (s.wr2 lo hi i v).md = s.md := rfl
@[simp] theorem wr2_engines (s : State) (lo hi : Fld) (i v : Nat) : (s.wr2 lo hi i v).engines = s.engines := rfl
@[simp] theorem wr2_barriers (s : State) (lo hi : Fld) (i v : Nat) : (s.wr2 lo hi i v).barriers = s.barriers := rfl
@[simp] theorem wr2_traps (s : State) (lo hi : Fld) (i v : Nat) : (s.wr2 lo hi i v).traps = s.traps := rfl
@[simp] theorem wr2_la (s : State) (lo hi : Fld) (i v : Nat) : (s.wr2 lo hi i v).la = s.la := rfl
@[simp] theorem wr2_fire (s : State) (lo hi : Fld) (i v : Nat) : (s.wr2 lo hi i v).fire = s.fire := rfl
@[simp] theorem wr2_mot (s : State) (lo hi : Fld) (i v : Nat) : (s.wr2 lo hi i v).mot = s.mot := rfl
@[simp] theorem wr2_insp (s : State) (lo hi : Fld) (i v : Nat) : (s.wr2 lo hi i v).insp = s.insp := rfl
@[simp] theorem wr2_loops (s : State) (lo hi : Fld) (i v : Nat) : (s.wr2 lo hi i v).loops = s.loops := rfl
@[simp] theorem wr2_tu (s : State) (lo hi : Fld) (i v : Nat) : (s.wr2 lo hi i v).tu = s.tu := rfl
@[simp] theorem wr2_net (s : State) (lo hi : Fld) (i v : Nat) : (s.wr2 lo hi i v).net = s.net := rfl
@[simp] theorem wr2_pair (s : State) (lo hi : Fld) (i v : Nat) : (s.wr2 lo hi i v).pair = s.pair := rfl
@[simp] theorem wr2_ln (s : State) (lo hi : Fld) (i v : Nat) : (s.wr2 lo hi i v).ln = s.ln := rfl
@[simp] theorem wr2_cal (s : State) (lo hi : Fld) (i v : Nat) : (s.wr2 lo hi i v).cal = s.cal := rfl
@[simp] theorem wr2_fl (s : State) (lo hi : Fld) (i v : Nat) : (s.wr2 lo hi i v).fl = s.fl := rfl
@[simp] theorem wr2_th (s : State) (lo hi : Fld) (i v : Nat) : (s.wr2 lo hi i v).th = s.th := rfl
@[simp] theorem wr2_gp (s : State) (lo hi : Fld) (i v : Nat) : (s.wr2 lo hi i v).gp = s.gp := rfl
@[simp] theorem wr2_st (s : State) (lo hi : Fld) (i v : Nat) : (s.wr2 lo hi i v).st = s.st := rfl
@[simp] theorem wr2_bnd (s : State) (lo hi : Fld) (i v : Nat) : (s.wr2 lo hi i v).bnd = s.bnd := rfl
@[simp] theorem wr2_pending (s : State) (lo hi : Fld) (i v : Nat) : (s.wr2 lo hi i v).pending = s.pending := rfl

@[simp] theorem wr2i_clk (s : State) (lo hi : Fld) (i : Nat) (v : Int) : (s.wr2i lo hi i v).clk = s.clk := rfl
@[simp] theorem wr2i_timeOff (s : State) (lo hi : Fld) (i : Nat) (v : Int) : (s.wr2i lo hi i v).timeOff = s.timeOff := rfl
@[simp] theorem wr2i_freeN (s : State) (lo hi : Fld) (i : Nat) (v : Int) : (s.wr2i lo hi i v).freeN = s.freeN := rfl
@[simp] theorem wr2i_mem (s : State) (lo hi : Fld) (i : Nat) (v : Int) : (s.wr2i lo hi i v).mem = s.mem := rfl
@[simp] theorem wr2i_out (s : State) (lo hi : Fld) (i : Nat) (v : Int) : (s.wr2i lo hi i v).out = s.out := rfl
@[simp] theorem wr2i_cat (s : State) (lo hi : Fld) (i : Nat) (v : Int) : (s.wr2i lo hi i v).cat = s.cat := rfl
@[simp] theorem wr2i_rings (s : State) (lo hi : Fld) (i : Nat) (v : Int) : (s.wr2i lo hi i v).rings = s.rings := rfl
@[simp] theorem wr2i_evHeld (s : State) (lo hi : Fld) (i : Nat) (v : Int) : (s.wr2i lo hi i v).evHeld = s.evHeld := rfl
@[simp] theorem wr2i_evLost (s : State) (lo hi : Fld) (i : Nat) (v : Int) : (s.wr2i lo hi i v).evLost = s.evLost := rfl
@[simp] theorem wr2i_led (s : State) (lo hi : Fld) (i : Nat) (v : Int) : (s.wr2i lo hi i v).led = s.led := rfl
@[simp] theorem wr2i_md (s : State) (lo hi : Fld) (i : Nat) (v : Int) : (s.wr2i lo hi i v).md = s.md := rfl
@[simp] theorem wr2i_engines (s : State) (lo hi : Fld) (i : Nat) (v : Int) : (s.wr2i lo hi i v).engines = s.engines := rfl
@[simp] theorem wr2i_barriers (s : State) (lo hi : Fld) (i : Nat) (v : Int) : (s.wr2i lo hi i v).barriers = s.barriers := rfl
@[simp] theorem wr2i_traps (s : State) (lo hi : Fld) (i : Nat) (v : Int) : (s.wr2i lo hi i v).traps = s.traps := rfl
@[simp] theorem wr2i_la (s : State) (lo hi : Fld) (i : Nat) (v : Int) : (s.wr2i lo hi i v).la = s.la := rfl
@[simp] theorem wr2i_fire (s : State) (lo hi : Fld) (i : Nat) (v : Int) : (s.wr2i lo hi i v).fire = s.fire := rfl
@[simp] theorem wr2i_mot (s : State) (lo hi : Fld) (i : Nat) (v : Int) : (s.wr2i lo hi i v).mot = s.mot := rfl
@[simp] theorem wr2i_insp (s : State) (lo hi : Fld) (i : Nat) (v : Int) : (s.wr2i lo hi i v).insp = s.insp := rfl
@[simp] theorem wr2i_loops (s : State) (lo hi : Fld) (i : Nat) (v : Int) : (s.wr2i lo hi i v).loops = s.loops := rfl
@[simp] theorem wr2i_tu (s : State) (lo hi : Fld) (i : Nat) (v : Int) : (s.wr2i lo hi i v).tu = s.tu := rfl
@[simp] theorem wr2i_net (s : State) (lo hi : Fld) (i : Nat) (v : Int) : (s.wr2i lo hi i v).net = s.net := rfl
@[simp] theorem wr2i_pair (s : State) (lo hi : Fld) (i : Nat) (v : Int) : (s.wr2i lo hi i v).pair = s.pair := rfl
@[simp] theorem wr2i_ln (s : State) (lo hi : Fld) (i : Nat) (v : Int) : (s.wr2i lo hi i v).ln = s.ln := rfl
@[simp] theorem wr2i_cal (s : State) (lo hi : Fld) (i : Nat) (v : Int) : (s.wr2i lo hi i v).cal = s.cal := rfl
@[simp] theorem wr2i_fl (s : State) (lo hi : Fld) (i : Nat) (v : Int) : (s.wr2i lo hi i v).fl = s.fl := rfl
@[simp] theorem wr2i_th (s : State) (lo hi : Fld) (i : Nat) (v : Int) : (s.wr2i lo hi i v).th = s.th := rfl
@[simp] theorem wr2i_gp (s : State) (lo hi : Fld) (i : Nat) (v : Int) : (s.wr2i lo hi i v).gp = s.gp := rfl
@[simp] theorem wr2i_st (s : State) (lo hi : Fld) (i : Nat) (v : Int) : (s.wr2i lo hi i v).st = s.st := rfl
@[simp] theorem wr2i_bnd (s : State) (lo hi : Fld) (i : Nat) (v : Int) : (s.wr2i lo hi i v).bnd = s.bnd := rfl
@[simp] theorem wr2i_pending (s : State) (lo hi : Fld) (i : Nat) (v : Int) : (s.wr2i lo hi i v).pending = s.pending := rfl

@[simp] theorem count_clk (s : State) (f : Fld) (i n : Nat) : (s.count f i n).clk = s.clk := rfl
@[simp] theorem count_timeOff (s : State) (f : Fld) (i n : Nat) : (s.count f i n).timeOff = s.timeOff := rfl
@[simp] theorem count_freeN (s : State) (f : Fld) (i n : Nat) : (s.count f i n).freeN = s.freeN := rfl
@[simp] theorem count_mem (s : State) (f : Fld) (i n : Nat) : (s.count f i n).mem = s.mem := rfl
@[simp] theorem count_out (s : State) (f : Fld) (i n : Nat) : (s.count f i n).out = s.out := rfl
@[simp] theorem count_cat (s : State) (f : Fld) (i n : Nat) : (s.count f i n).cat = s.cat := rfl
@[simp] theorem count_rings (s : State) (f : Fld) (i n : Nat) : (s.count f i n).rings = s.rings := rfl
@[simp] theorem count_evHeld (s : State) (f : Fld) (i n : Nat) : (s.count f i n).evHeld = s.evHeld := rfl
@[simp] theorem count_evLost (s : State) (f : Fld) (i n : Nat) : (s.count f i n).evLost = s.evLost := rfl
@[simp] theorem count_led (s : State) (f : Fld) (i n : Nat) : (s.count f i n).led = s.led := rfl
@[simp] theorem count_md (s : State) (f : Fld) (i n : Nat) : (s.count f i n).md = s.md := rfl
@[simp] theorem count_engines (s : State) (f : Fld) (i n : Nat) : (s.count f i n).engines = s.engines := rfl
@[simp] theorem count_barriers (s : State) (f : Fld) (i n : Nat) : (s.count f i n).barriers = s.barriers := rfl
@[simp] theorem count_traps (s : State) (f : Fld) (i n : Nat) : (s.count f i n).traps = s.traps := rfl
@[simp] theorem count_la (s : State) (f : Fld) (i n : Nat) : (s.count f i n).la = s.la := rfl
@[simp] theorem count_fire (s : State) (f : Fld) (i n : Nat) : (s.count f i n).fire = s.fire := rfl
@[simp] theorem count_mot (s : State) (f : Fld) (i n : Nat) : (s.count f i n).mot = s.mot := rfl
@[simp] theorem count_insp (s : State) (f : Fld) (i n : Nat) : (s.count f i n).insp = s.insp := rfl
@[simp] theorem count_loops (s : State) (f : Fld) (i n : Nat) : (s.count f i n).loops = s.loops := rfl
@[simp] theorem count_tu (s : State) (f : Fld) (i n : Nat) : (s.count f i n).tu = s.tu := rfl
@[simp] theorem count_net (s : State) (f : Fld) (i n : Nat) : (s.count f i n).net = s.net := rfl
@[simp] theorem count_pair (s : State) (f : Fld) (i n : Nat) : (s.count f i n).pair = s.pair := rfl
@[simp] theorem count_ln (s : State) (f : Fld) (i n : Nat) : (s.count f i n).ln = s.ln := rfl
@[simp] theorem count_cal (s : State) (f : Fld) (i n : Nat) : (s.count f i n).cal = s.cal := rfl
@[simp] theorem count_fl (s : State) (f : Fld) (i n : Nat) : (s.count f i n).fl = s.fl := rfl
@[simp] theorem count_th (s : State) (f : Fld) (i n : Nat) : (s.count f i n).th = s.th := rfl
@[simp] theorem count_gp (s : State) (f : Fld) (i n : Nat) : (s.count f i n).gp = s.gp := rfl
@[simp] theorem count_st (s : State) (f : Fld) (i n : Nat) : (s.count f i n).st = s.st := rfl
@[simp] theorem count_bnd (s : State) (f : Fld) (i n : Nat) : (s.count f i n).bnd = s.bnd := rfl
@[simp] theorem count_pending (s : State) (f : Fld) (i n : Nat) : (s.count f i n).pending = s.pending := rfl

@[simp] theorem countMod_clk (s : State) (f : Fld) (i n : Nat) : (s.countMod f i n).clk = s.clk := rfl
@[simp] theorem countMod_timeOff (s : State) (f : Fld) (i n : Nat) : (s.countMod f i n).timeOff = s.timeOff := rfl
@[simp] theorem countMod_freeN (s : State) (f : Fld) (i n : Nat) : (s.countMod f i n).freeN = s.freeN := rfl
@[simp] theorem countMod_mem (s : State) (f : Fld) (i n : Nat) : (s.countMod f i n).mem = s.mem := rfl
@[simp] theorem countMod_out (s : State) (f : Fld) (i n : Nat) : (s.countMod f i n).out = s.out := rfl
@[simp] theorem countMod_cat (s : State) (f : Fld) (i n : Nat) : (s.countMod f i n).cat = s.cat := rfl
@[simp] theorem countMod_rings (s : State) (f : Fld) (i n : Nat) : (s.countMod f i n).rings = s.rings := rfl
@[simp] theorem countMod_evHeld (s : State) (f : Fld) (i n : Nat) : (s.countMod f i n).evHeld = s.evHeld := rfl
@[simp] theorem countMod_evLost (s : State) (f : Fld) (i n : Nat) : (s.countMod f i n).evLost = s.evLost := rfl
@[simp] theorem countMod_led (s : State) (f : Fld) (i n : Nat) : (s.countMod f i n).led = s.led := rfl
@[simp] theorem countMod_md (s : State) (f : Fld) (i n : Nat) : (s.countMod f i n).md = s.md := rfl
@[simp] theorem countMod_engines (s : State) (f : Fld) (i n : Nat) : (s.countMod f i n).engines = s.engines := rfl
@[simp] theorem countMod_barriers (s : State) (f : Fld) (i n : Nat) : (s.countMod f i n).barriers = s.barriers := rfl
@[simp] theorem countMod_traps (s : State) (f : Fld) (i n : Nat) : (s.countMod f i n).traps = s.traps := rfl
@[simp] theorem countMod_la (s : State) (f : Fld) (i n : Nat) : (s.countMod f i n).la = s.la := rfl
@[simp] theorem countMod_fire (s : State) (f : Fld) (i n : Nat) : (s.countMod f i n).fire = s.fire := rfl
@[simp] theorem countMod_mot (s : State) (f : Fld) (i n : Nat) : (s.countMod f i n).mot = s.mot := rfl
@[simp] theorem countMod_insp (s : State) (f : Fld) (i n : Nat) : (s.countMod f i n).insp = s.insp := rfl
@[simp] theorem countMod_loops (s : State) (f : Fld) (i n : Nat) : (s.countMod f i n).loops = s.loops := rfl
@[simp] theorem countMod_tu (s : State) (f : Fld) (i n : Nat) : (s.countMod f i n).tu = s.tu := rfl
@[simp] theorem countMod_net (s : State) (f : Fld) (i n : Nat) : (s.countMod f i n).net = s.net := rfl
@[simp] theorem countMod_pair (s : State) (f : Fld) (i n : Nat) : (s.countMod f i n).pair = s.pair := rfl
@[simp] theorem countMod_ln (s : State) (f : Fld) (i n : Nat) : (s.countMod f i n).ln = s.ln := rfl
@[simp] theorem countMod_cal (s : State) (f : Fld) (i n : Nat) : (s.countMod f i n).cal = s.cal := rfl
@[simp] theorem countMod_fl (s : State) (f : Fld) (i n : Nat) : (s.countMod f i n).fl = s.fl := rfl
@[simp] theorem countMod_th (s : State) (f : Fld) (i n : Nat) : (s.countMod f i n).th = s.th := rfl
@[simp] theorem countMod_gp (s : State) (f : Fld) (i n : Nat) : (s.countMod f i n).gp = s.gp := rfl
@[simp] theorem countMod_st (s : State) (f : Fld) (i n : Nat) : (s.countMod f i n).st = s.st := rfl
@[simp] theorem countMod_bnd (s : State) (f : Fld) (i n : Nat) : (s.countMod f i n).bnd = s.bnd := rfl
@[simp] theorem countMod_pending (s : State) (f : Fld) (i n : Nat) : (s.countMod f i n).pending = s.pending := rfl

@[simp] theorem emit_clk (s : State) (e : Emit) : (s.emit e).clk = s.clk := rfl
@[simp] theorem emit_timeOff (s : State) (e : Emit) : (s.emit e).timeOff = s.timeOff := rfl
@[simp] theorem emit_freeN (s : State) (e : Emit) : (s.emit e).freeN = s.freeN := rfl
@[simp] theorem emit_regs (s : State) (e : Emit) : (s.emit e).regs = s.regs := rfl
@[simp] theorem emit_mem (s : State) (e : Emit) : (s.emit e).mem = s.mem := rfl
@[simp] theorem emit_cat (s : State) (e : Emit) : (s.emit e).cat = s.cat := rfl
@[simp] theorem emit_rings (s : State) (e : Emit) : (s.emit e).rings = s.rings := rfl
@[simp] theorem emit_evHeld (s : State) (e : Emit) : (s.emit e).evHeld = s.evHeld := rfl
@[simp] theorem emit_evLost (s : State) (e : Emit) : (s.emit e).evLost = s.evLost := rfl
@[simp] theorem emit_led (s : State) (e : Emit) : (s.emit e).led = s.led := rfl
@[simp] theorem emit_md (s : State) (e : Emit) : (s.emit e).md = s.md := rfl
@[simp] theorem emit_engines (s : State) (e : Emit) : (s.emit e).engines = s.engines := rfl
@[simp] theorem emit_barriers (s : State) (e : Emit) : (s.emit e).barriers = s.barriers := rfl
@[simp] theorem emit_traps (s : State) (e : Emit) : (s.emit e).traps = s.traps := rfl
@[simp] theorem emit_la (s : State) (e : Emit) : (s.emit e).la = s.la := rfl
@[simp] theorem emit_fire (s : State) (e : Emit) : (s.emit e).fire = s.fire := rfl
@[simp] theorem emit_mot (s : State) (e : Emit) : (s.emit e).mot = s.mot := rfl
@[simp] theorem emit_insp (s : State) (e : Emit) : (s.emit e).insp = s.insp := rfl
@[simp] theorem emit_loops (s : State) (e : Emit) : (s.emit e).loops = s.loops := rfl
@[simp] theorem emit_tu (s : State) (e : Emit) : (s.emit e).tu = s.tu := rfl
@[simp] theorem emit_net (s : State) (e : Emit) : (s.emit e).net = s.net := rfl
@[simp] theorem emit_pair (s : State) (e : Emit) : (s.emit e).pair = s.pair := rfl
@[simp] theorem emit_ln (s : State) (e : Emit) : (s.emit e).ln = s.ln := rfl
@[simp] theorem emit_cal (s : State) (e : Emit) : (s.emit e).cal = s.cal := rfl
@[simp] theorem emit_fl (s : State) (e : Emit) : (s.emit e).fl = s.fl := rfl
@[simp] theorem emit_th (s : State) (e : Emit) : (s.emit e).th = s.th := rfl
@[simp] theorem emit_gp (s : State) (e : Emit) : (s.emit e).gp = s.gp := rfl
@[simp] theorem emit_st (s : State) (e : Emit) : (s.emit e).st = s.st := rfl
@[simp] theorem emit_bnd (s : State) (e : Emit) : (s.emit e).bnd = s.bnd := rfl
@[simp] theorem emit_pending (s : State) (e : Emit) : (s.emit e).pending = s.pending := rfl

@[simp] theorem emits_clk (s : State) (es : List Emit) : (s.emits es).clk = s.clk := rfl
@[simp] theorem emits_timeOff (s : State) (es : List Emit) : (s.emits es).timeOff = s.timeOff := rfl
@[simp] theorem emits_freeN (s : State) (es : List Emit) : (s.emits es).freeN = s.freeN := rfl
@[simp] theorem emits_regs (s : State) (es : List Emit) : (s.emits es).regs = s.regs := rfl
@[simp] theorem emits_mem (s : State) (es : List Emit) : (s.emits es).mem = s.mem := rfl
@[simp] theorem emits_cat (s : State) (es : List Emit) : (s.emits es).cat = s.cat := rfl
@[simp] theorem emits_rings (s : State) (es : List Emit) : (s.emits es).rings = s.rings := rfl
@[simp] theorem emits_evHeld (s : State) (es : List Emit) : (s.emits es).evHeld = s.evHeld := rfl
@[simp] theorem emits_evLost (s : State) (es : List Emit) : (s.emits es).evLost = s.evLost := rfl
@[simp] theorem emits_led (s : State) (es : List Emit) : (s.emits es).led = s.led := rfl
@[simp] theorem emits_md (s : State) (es : List Emit) : (s.emits es).md = s.md := rfl
@[simp] theorem emits_engines (s : State) (es : List Emit) : (s.emits es).engines = s.engines := rfl
@[simp] theorem emits_barriers (s : State) (es : List Emit) : (s.emits es).barriers = s.barriers := rfl
@[simp] theorem emits_traps (s : State) (es : List Emit) : (s.emits es).traps = s.traps := rfl
@[simp] theorem emits_la (s : State) (es : List Emit) : (s.emits es).la = s.la := rfl
@[simp] theorem emits_fire (s : State) (es : List Emit) : (s.emits es).fire = s.fire := rfl
@[simp] theorem emits_mot (s : State) (es : List Emit) : (s.emits es).mot = s.mot := rfl
@[simp] theorem emits_insp (s : State) (es : List Emit) : (s.emits es).insp = s.insp := rfl
@[simp] theorem emits_loops (s : State) (es : List Emit) : (s.emits es).loops = s.loops := rfl
@[simp] theorem emits_tu (s : State) (es : List Emit) : (s.emits es).tu = s.tu := rfl
@[simp] theorem emits_net (s : State) (es : List Emit) : (s.emits es).net = s.net := rfl
@[simp] theorem emits_pair (s : State) (es : List Emit) : (s.emits es).pair = s.pair := rfl
@[simp] theorem emits_ln (s : State) (es : List Emit) : (s.emits es).ln = s.ln := rfl
@[simp] theorem emits_cal (s : State) (es : List Emit) : (s.emits es).cal = s.cal := rfl
@[simp] theorem emits_fl (s : State) (es : List Emit) : (s.emits es).fl = s.fl := rfl
@[simp] theorem emits_th (s : State) (es : List Emit) : (s.emits es).th = s.th := rfl
@[simp] theorem emits_gp (s : State) (es : List Emit) : (s.emits es).gp = s.gp := rfl
@[simp] theorem emits_st (s : State) (es : List Emit) : (s.emits es).st = s.st := rfl
@[simp] theorem emits_bnd (s : State) (es : List Emit) : (s.emits es).bnd = s.bnd := rfl
@[simp] theorem emits_pending (s : State) (es : List Emit) : (s.emits es).pending = s.pending := rfl

@[simp] theorem spend_clk (s : State)  : (s.spend ).clk = s.clk := rfl
@[simp] theorem spend_timeOff (s : State)  : (s.spend ).timeOff = s.timeOff := rfl
@[simp] theorem spend_regs (s : State)  : (s.spend ).regs = s.regs := rfl
@[simp] theorem spend_mem (s : State)  : (s.spend ).mem = s.mem := rfl
@[simp] theorem spend_out (s : State)  : (s.spend ).out = s.out := rfl
@[simp] theorem spend_cat (s : State)  : (s.spend ).cat = s.cat := rfl
@[simp] theorem spend_rings (s : State)  : (s.spend ).rings = s.rings := rfl
@[simp] theorem spend_evHeld (s : State)  : (s.spend ).evHeld = s.evHeld := rfl
@[simp] theorem spend_evLost (s : State)  : (s.spend ).evLost = s.evLost := rfl
@[simp] theorem spend_led (s : State)  : (s.spend ).led = s.led := rfl
@[simp] theorem spend_md (s : State)  : (s.spend ).md = s.md := rfl
@[simp] theorem spend_engines (s : State)  : (s.spend ).engines = s.engines := rfl
@[simp] theorem spend_barriers (s : State)  : (s.spend ).barriers = s.barriers := rfl
@[simp] theorem spend_traps (s : State)  : (s.spend ).traps = s.traps := rfl
@[simp] theorem spend_la (s : State)  : (s.spend ).la = s.la := rfl
@[simp] theorem spend_fire (s : State)  : (s.spend ).fire = s.fire := rfl
@[simp] theorem spend_mot (s : State)  : (s.spend ).mot = s.mot := rfl
@[simp] theorem spend_insp (s : State)  : (s.spend ).insp = s.insp := rfl
@[simp] theorem spend_loops (s : State)  : (s.spend ).loops = s.loops := rfl
@[simp] theorem spend_tu (s : State)  : (s.spend ).tu = s.tu := rfl
@[simp] theorem spend_net (s : State)  : (s.spend ).net = s.net := rfl
@[simp] theorem spend_pair (s : State)  : (s.spend ).pair = s.pair := rfl
@[simp] theorem spend_ln (s : State)  : (s.spend ).ln = s.ln := rfl
@[simp] theorem spend_cal (s : State)  : (s.spend ).cal = s.cal := rfl
@[simp] theorem spend_fl (s : State)  : (s.spend ).fl = s.fl := rfl
@[simp] theorem spend_th (s : State)  : (s.spend ).th = s.th := rfl
@[simp] theorem spend_gp (s : State)  : (s.spend ).gp = s.gp := rfl
@[simp] theorem spend_st (s : State)  : (s.spend ).st = s.st := rfl
@[simp] theorem spend_bnd (s : State)  : (s.spend ).bnd = s.bnd := rfl
@[simp] theorem spend_pending (s : State)  : (s.spend ).pending = s.pending := rfl

@[simp] theorem setEng_clk (s : State) (p : Nat) (e : Engine) : (s.setEng p e).clk = s.clk := rfl
@[simp] theorem setEng_timeOff (s : State) (p : Nat) (e : Engine) : (s.setEng p e).timeOff = s.timeOff := rfl
@[simp] theorem setEng_freeN (s : State) (p : Nat) (e : Engine) : (s.setEng p e).freeN = s.freeN := rfl
@[simp] theorem setEng_regs (s : State) (p : Nat) (e : Engine) : (s.setEng p e).regs = s.regs := rfl
@[simp] theorem setEng_mem (s : State) (p : Nat) (e : Engine) : (s.setEng p e).mem = s.mem := rfl
@[simp] theorem setEng_out (s : State) (p : Nat) (e : Engine) : (s.setEng p e).out = s.out := rfl
@[simp] theorem setEng_cat (s : State) (p : Nat) (e : Engine) : (s.setEng p e).cat = s.cat := rfl
@[simp] theorem setEng_rings (s : State) (p : Nat) (e : Engine) : (s.setEng p e).rings = s.rings := rfl
@[simp] theorem setEng_evHeld (s : State) (p : Nat) (e : Engine) : (s.setEng p e).evHeld = s.evHeld := rfl
@[simp] theorem setEng_evLost (s : State) (p : Nat) (e : Engine) : (s.setEng p e).evLost = s.evLost := rfl
@[simp] theorem setEng_led (s : State) (p : Nat) (e : Engine) : (s.setEng p e).led = s.led := rfl
@[simp] theorem setEng_md (s : State) (p : Nat) (e : Engine) : (s.setEng p e).md = s.md := rfl
@[simp] theorem setEng_barriers (s : State) (p : Nat) (e : Engine) : (s.setEng p e).barriers = s.barriers := rfl
@[simp] theorem setEng_traps (s : State) (p : Nat) (e : Engine) : (s.setEng p e).traps = s.traps := rfl
@[simp] theorem setEng_la (s : State) (p : Nat) (e : Engine) : (s.setEng p e).la = s.la := rfl
@[simp] theorem setEng_fire (s : State) (p : Nat) (e : Engine) : (s.setEng p e).fire = s.fire := rfl
@[simp] theorem setEng_mot (s : State) (p : Nat) (e : Engine) : (s.setEng p e).mot = s.mot := rfl
@[simp] theorem setEng_insp (s : State) (p : Nat) (e : Engine) : (s.setEng p e).insp = s.insp := rfl
@[simp] theorem setEng_loops (s : State) (p : Nat) (e : Engine) : (s.setEng p e).loops = s.loops := rfl
@[simp] theorem setEng_tu (s : State) (p : Nat) (e : Engine) : (s.setEng p e).tu = s.tu := rfl
@[simp] theorem setEng_net (s : State) (p : Nat) (e : Engine) : (s.setEng p e).net = s.net := rfl
@[simp] theorem setEng_pair (s : State) (p : Nat) (e : Engine) : (s.setEng p e).pair = s.pair := rfl
@[simp] theorem setEng_ln (s : State) (p : Nat) (e : Engine) : (s.setEng p e).ln = s.ln := rfl
@[simp] theorem setEng_cal (s : State) (p : Nat) (e : Engine) : (s.setEng p e).cal = s.cal := rfl
@[simp] theorem setEng_fl (s : State) (p : Nat) (e : Engine) : (s.setEng p e).fl = s.fl := rfl
@[simp] theorem setEng_th (s : State) (p : Nat) (e : Engine) : (s.setEng p e).th = s.th := rfl
@[simp] theorem setEng_gp (s : State) (p : Nat) (e : Engine) : (s.setEng p e).gp = s.gp := rfl
@[simp] theorem setEng_st (s : State) (p : Nat) (e : Engine) : (s.setEng p e).st = s.st := rfl
@[simp] theorem setEng_bnd (s : State) (p : Nat) (e : Engine) : (s.setEng p e).bnd = s.bnd := rfl
@[simp] theorem setEng_pending (s : State) (p : Nat) (e : Engine) : (s.setEng p e).pending = s.pending := rfl

@[simp] theorem setLocal_clk (s : State) (p a n v : Nat) : (s.setLocal p a n v).clk = s.clk := rfl
@[simp] theorem setLocal_timeOff (s : State) (p a n v : Nat) : (s.setLocal p a n v).timeOff = s.timeOff := rfl
@[simp] theorem setLocal_freeN (s : State) (p a n v : Nat) : (s.setLocal p a n v).freeN = s.freeN := rfl
@[simp] theorem setLocal_regs (s : State) (p a n v : Nat) : (s.setLocal p a n v).regs = s.regs := rfl
@[simp] theorem setLocal_out (s : State) (p a n v : Nat) : (s.setLocal p a n v).out = s.out := rfl
@[simp] theorem setLocal_cat (s : State) (p a n v : Nat) : (s.setLocal p a n v).cat = s.cat := rfl
@[simp] theorem setLocal_rings (s : State) (p a n v : Nat) : (s.setLocal p a n v).rings = s.rings := rfl
@[simp] theorem setLocal_evHeld (s : State) (p a n v : Nat) : (s.setLocal p a n v).evHeld = s.evHeld := rfl
@[simp] theorem setLocal_evLost (s : State) (p a n v : Nat) : (s.setLocal p a n v).evLost = s.evLost := rfl
@[simp] theorem setLocal_led (s : State) (p a n v : Nat) : (s.setLocal p a n v).led = s.led := rfl
@[simp] theorem setLocal_md (s : State) (p a n v : Nat) : (s.setLocal p a n v).md = s.md := rfl
@[simp] theorem setLocal_engines (s : State) (p a n v : Nat) : (s.setLocal p a n v).engines = s.engines := rfl
@[simp] theorem setLocal_barriers (s : State) (p a n v : Nat) : (s.setLocal p a n v).barriers = s.barriers := rfl
@[simp] theorem setLocal_traps (s : State) (p a n v : Nat) : (s.setLocal p a n v).traps = s.traps := rfl
@[simp] theorem setLocal_la (s : State) (p a n v : Nat) : (s.setLocal p a n v).la = s.la := rfl
@[simp] theorem setLocal_fire (s : State) (p a n v : Nat) : (s.setLocal p a n v).fire = s.fire := rfl
@[simp] theorem setLocal_mot (s : State) (p a n v : Nat) : (s.setLocal p a n v).mot = s.mot := rfl
@[simp] theorem setLocal_insp (s : State) (p a n v : Nat) : (s.setLocal p a n v).insp = s.insp := rfl
@[simp] theorem setLocal_loops (s : State) (p a n v : Nat) : (s.setLocal p a n v).loops = s.loops := rfl
@[simp] theorem setLocal_tu (s : State) (p a n v : Nat) : (s.setLocal p a n v).tu = s.tu := rfl
@[simp] theorem setLocal_net (s : State) (p a n v : Nat) : (s.setLocal p a n v).net = s.net := rfl
@[simp] theorem setLocal_pair (s : State) (p a n v : Nat) : (s.setLocal p a n v).pair = s.pair := rfl
@[simp] theorem setLocal_ln (s : State) (p a n v : Nat) : (s.setLocal p a n v).ln = s.ln := rfl
@[simp] theorem setLocal_cal (s : State) (p a n v : Nat) : (s.setLocal p a n v).cal = s.cal := rfl
@[simp] theorem setLocal_fl (s : State) (p a n v : Nat) : (s.setLocal p a n v).fl = s.fl := rfl
@[simp] theorem setLocal_th (s : State) (p a n v : Nat) : (s.setLocal p a n v).th = s.th := rfl
@[simp] theorem setLocal_gp (s : State) (p a n v : Nat) : (s.setLocal p a n v).gp = s.gp := rfl
@[simp] theorem setLocal_st (s : State) (p a n v : Nat) : (s.setLocal p a n v).st = s.st := rfl
@[simp] theorem setLocal_bnd (s : State) (p a n v : Nat) : (s.setLocal p a n v).bnd = s.bnd := rfl
@[simp] theorem setLocal_pending (s : State) (p a n v : Nat) : (s.setLocal p a n v).pending = s.pending := rfl

@[simp] theorem snapTake_clk (s : State) (free : Bool) : (s.snapTake free).clk = s.clk := rfl
@[simp] theorem snapTake_timeOff (s : State) (free : Bool) : (s.snapTake free).timeOff = s.timeOff := rfl
@[simp] theorem snapTake_freeN (s : State) (free : Bool) : (s.snapTake free).freeN = s.freeN := rfl
@[simp] theorem snapTake_regs (s : State) (free : Bool) : (s.snapTake free).regs = s.regs := rfl
@[simp] theorem snapTake_mem (s : State) (free : Bool) : (s.snapTake free).mem = s.mem := rfl
@[simp] theorem snapTake_out (s : State) (free : Bool) : (s.snapTake free).out = s.out := rfl
@[simp] theorem snapTake_cat (s : State) (free : Bool) : (s.snapTake free).cat = s.cat := rfl
@[simp] theorem snapTake_rings (s : State) (free : Bool) : (s.snapTake free).rings = s.rings := rfl
@[simp] theorem snapTake_evHeld (s : State) (free : Bool) : (s.snapTake free).evHeld = s.evHeld := rfl
@[simp] theorem snapTake_evLost (s : State) (free : Bool) : (s.snapTake free).evLost = s.evLost := rfl
@[simp] theorem snapTake_md (s : State) (free : Bool) : (s.snapTake free).md = s.md := rfl
@[simp] theorem snapTake_engines (s : State) (free : Bool) : (s.snapTake free).engines = s.engines := rfl
@[simp] theorem snapTake_barriers (s : State) (free : Bool) : (s.snapTake free).barriers = s.barriers := rfl
@[simp] theorem snapTake_traps (s : State) (free : Bool) : (s.snapTake free).traps = s.traps := rfl
@[simp] theorem snapTake_la (s : State) (free : Bool) : (s.snapTake free).la = s.la := rfl
@[simp] theorem snapTake_fire (s : State) (free : Bool) : (s.snapTake free).fire = s.fire := rfl
@[simp] theorem snapTake_mot (s : State) (free : Bool) : (s.snapTake free).mot = s.mot := rfl
@[simp] theorem snapTake_insp (s : State) (free : Bool) : (s.snapTake free).insp = s.insp := rfl
@[simp] theorem snapTake_loops (s : State) (free : Bool) : (s.snapTake free).loops = s.loops := rfl
@[simp] theorem snapTake_tu (s : State) (free : Bool) : (s.snapTake free).tu = s.tu := rfl
@[simp] theorem snapTake_net (s : State) (free : Bool) : (s.snapTake free).net = s.net := rfl
@[simp] theorem snapTake_pair (s : State) (free : Bool) : (s.snapTake free).pair = s.pair := rfl
@[simp] theorem snapTake_ln (s : State) (free : Bool) : (s.snapTake free).ln = s.ln := rfl
@[simp] theorem snapTake_cal (s : State) (free : Bool) : (s.snapTake free).cal = s.cal := rfl
@[simp] theorem snapTake_fl (s : State) (free : Bool) : (s.snapTake free).fl = s.fl := rfl
@[simp] theorem snapTake_th (s : State) (free : Bool) : (s.snapTake free).th = s.th := rfl
@[simp] theorem snapTake_gp (s : State) (free : Bool) : (s.snapTake free).gp = s.gp := rfl
@[simp] theorem snapTake_st (s : State) (free : Bool) : (s.snapTake free).st = s.st := rfl
@[simp] theorem snapTake_bnd (s : State) (free : Bool) : (s.snapTake free).bnd = s.bnd := rfl
@[simp] theorem snapTake_pending (s : State) (free : Bool) : (s.snapTake free).pending = s.pending := rfl

@[simp] theorem capture_clk (s : State) (ch t : Nat) : (s.capture ch t).clk = s.clk := rfl
@[simp] theorem capture_timeOff (s : State) (ch t : Nat) : (s.capture ch t).timeOff = s.timeOff := rfl
@[simp] theorem capture_freeN (s : State) (ch t : Nat) : (s.capture ch t).freeN = s.freeN := rfl
@[simp] theorem capture_regs (s : State) (ch t : Nat) : (s.capture ch t).regs = s.regs := rfl
@[simp] theorem capture_mem (s : State) (ch t : Nat) : (s.capture ch t).mem = s.mem := rfl
@[simp] theorem capture_out (s : State) (ch t : Nat) : (s.capture ch t).out = s.out := rfl
@[simp] theorem capture_cat (s : State) (ch t : Nat) : (s.capture ch t).cat = s.cat := rfl
@[simp] theorem capture_rings (s : State) (ch t : Nat) : (s.capture ch t).rings = s.rings := rfl
@[simp] theorem capture_evHeld (s : State) (ch t : Nat) : (s.capture ch t).evHeld = s.evHeld := rfl
@[simp] theorem capture_evLost (s : State) (ch t : Nat) : (s.capture ch t).evLost = s.evLost := rfl
@[simp] theorem capture_led (s : State) (ch t : Nat) : (s.capture ch t).led = s.led := rfl
@[simp] theorem capture_md (s : State) (ch t : Nat) : (s.capture ch t).md = s.md := rfl
@[simp] theorem capture_engines (s : State) (ch t : Nat) : (s.capture ch t).engines = s.engines := rfl
@[simp] theorem capture_barriers (s : State) (ch t : Nat) : (s.capture ch t).barriers = s.barriers := rfl
@[simp] theorem capture_traps (s : State) (ch t : Nat) : (s.capture ch t).traps = s.traps := rfl
@[simp] theorem capture_la (s : State) (ch t : Nat) : (s.capture ch t).la = s.la := rfl
@[simp] theorem capture_fire (s : State) (ch t : Nat) : (s.capture ch t).fire = s.fire := rfl
@[simp] theorem capture_mot (s : State) (ch t : Nat) : (s.capture ch t).mot = s.mot := rfl
@[simp] theorem capture_insp (s : State) (ch t : Nat) : (s.capture ch t).insp = s.insp := rfl
@[simp] theorem capture_loops (s : State) (ch t : Nat) : (s.capture ch t).loops = s.loops := rfl
@[simp] theorem capture_net (s : State) (ch t : Nat) : (s.capture ch t).net = s.net := rfl
@[simp] theorem capture_pair (s : State) (ch t : Nat) : (s.capture ch t).pair = s.pair := rfl
@[simp] theorem capture_ln (s : State) (ch t : Nat) : (s.capture ch t).ln = s.ln := rfl
@[simp] theorem capture_cal (s : State) (ch t : Nat) : (s.capture ch t).cal = s.cal := rfl
@[simp] theorem capture_fl (s : State) (ch t : Nat) : (s.capture ch t).fl = s.fl := rfl
@[simp] theorem capture_th (s : State) (ch t : Nat) : (s.capture ch t).th = s.th := rfl
@[simp] theorem capture_gp (s : State) (ch t : Nat) : (s.capture ch t).gp = s.gp := rfl
@[simp] theorem capture_st (s : State) (ch t : Nat) : (s.capture ch t).st = s.st := rfl
@[simp] theorem capture_bnd (s : State) (ch t : Nat) : (s.capture ch t).bnd = s.bnd := rfl
@[simp] theorem capture_pending (s : State) (ch t : Nat) : (s.capture ch t).pending = s.pending := rfl

@[simp] theorem setPc_clk (s : State) (p pc : Nat) : (s.setPc p pc).clk = s.clk := rfl
@[simp] theorem setPc_timeOff (s : State) (p pc : Nat) : (s.setPc p pc).timeOff = s.timeOff := rfl
@[simp] theorem setPc_freeN (s : State) (p pc : Nat) : (s.setPc p pc).freeN = s.freeN := rfl
@[simp] theorem setPc_regs (s : State) (p pc : Nat) : (s.setPc p pc).regs = s.regs := rfl
@[simp] theorem setPc_mem (s : State) (p pc : Nat) : (s.setPc p pc).mem = s.mem := rfl
@[simp] theorem setPc_out (s : State) (p pc : Nat) : (s.setPc p pc).out = s.out := rfl
@[simp] theorem setPc_cat (s : State) (p pc : Nat) : (s.setPc p pc).cat = s.cat := rfl
@[simp] theorem setPc_rings (s : State) (p pc : Nat) : (s.setPc p pc).rings = s.rings := rfl
@[simp] theorem setPc_evHeld (s : State) (p pc : Nat) : (s.setPc p pc).evHeld = s.evHeld := rfl
@[simp] theorem setPc_evLost (s : State) (p pc : Nat) : (s.setPc p pc).evLost = s.evLost := rfl
@[simp] theorem setPc_led (s : State) (p pc : Nat) : (s.setPc p pc).led = s.led := rfl
@[simp] theorem setPc_md (s : State) (p pc : Nat) : (s.setPc p pc).md = s.md := rfl
@[simp] theorem setPc_barriers (s : State) (p pc : Nat) : (s.setPc p pc).barriers = s.barriers := rfl
@[simp] theorem setPc_traps (s : State) (p pc : Nat) : (s.setPc p pc).traps = s.traps := rfl
@[simp] theorem setPc_la (s : State) (p pc : Nat) : (s.setPc p pc).la = s.la := rfl
@[simp] theorem setPc_fire (s : State) (p pc : Nat) : (s.setPc p pc).fire = s.fire := rfl
@[simp] theorem setPc_mot (s : State) (p pc : Nat) : (s.setPc p pc).mot = s.mot := rfl
@[simp] theorem setPc_insp (s : State) (p pc : Nat) : (s.setPc p pc).insp = s.insp := rfl
@[simp] theorem setPc_loops (s : State) (p pc : Nat) : (s.setPc p pc).loops = s.loops := rfl
@[simp] theorem setPc_tu (s : State) (p pc : Nat) : (s.setPc p pc).tu = s.tu := rfl
@[simp] theorem setPc_net (s : State) (p pc : Nat) : (s.setPc p pc).net = s.net := rfl
@[simp] theorem setPc_pair (s : State) (p pc : Nat) : (s.setPc p pc).pair = s.pair := rfl
@[simp] theorem setPc_ln (s : State) (p pc : Nat) : (s.setPc p pc).ln = s.ln := rfl
@[simp] theorem setPc_cal (s : State) (p pc : Nat) : (s.setPc p pc).cal = s.cal := rfl
@[simp] theorem setPc_fl (s : State) (p pc : Nat) : (s.setPc p pc).fl = s.fl := rfl
@[simp] theorem setPc_th (s : State) (p pc : Nat) : (s.setPc p pc).th = s.th := rfl
@[simp] theorem setPc_gp (s : State) (p pc : Nat) : (s.setPc p pc).gp = s.gp := rfl
@[simp] theorem setPc_st (s : State) (p pc : Nat) : (s.setPc p pc).st = s.st := rfl
@[simp] theorem setPc_bnd (s : State) (p pc : Nat) : (s.setPc p pc).bnd = s.bnd := rfl
@[simp] theorem setPc_pending (s : State) (p pc : Nat) : (s.setPc p pc).pending = s.pending := rfl

@[simp] theorem vset_clk (s : State) (p n : Nat) (v : VWord) : (s.vset p n v).clk = s.clk := rfl
@[simp] theorem vset_timeOff (s : State) (p n : Nat) (v : VWord) : (s.vset p n v).timeOff = s.timeOff := rfl
@[simp] theorem vset_freeN (s : State) (p n : Nat) (v : VWord) : (s.vset p n v).freeN = s.freeN := rfl
@[simp] theorem vset_regs (s : State) (p n : Nat) (v : VWord) : (s.vset p n v).regs = s.regs := rfl
@[simp] theorem vset_mem (s : State) (p n : Nat) (v : VWord) : (s.vset p n v).mem = s.mem := rfl
@[simp] theorem vset_out (s : State) (p n : Nat) (v : VWord) : (s.vset p n v).out = s.out := rfl
@[simp] theorem vset_cat (s : State) (p n : Nat) (v : VWord) : (s.vset p n v).cat = s.cat := rfl
@[simp] theorem vset_rings (s : State) (p n : Nat) (v : VWord) : (s.vset p n v).rings = s.rings := rfl
@[simp] theorem vset_evHeld (s : State) (p n : Nat) (v : VWord) : (s.vset p n v).evHeld = s.evHeld := rfl
@[simp] theorem vset_evLost (s : State) (p n : Nat) (v : VWord) : (s.vset p n v).evLost = s.evLost := rfl
@[simp] theorem vset_led (s : State) (p n : Nat) (v : VWord) : (s.vset p n v).led = s.led := rfl
@[simp] theorem vset_md (s : State) (p n : Nat) (v : VWord) : (s.vset p n v).md = s.md := rfl
@[simp] theorem vset_barriers (s : State) (p n : Nat) (v : VWord) : (s.vset p n v).barriers = s.barriers := rfl
@[simp] theorem vset_traps (s : State) (p n : Nat) (v : VWord) : (s.vset p n v).traps = s.traps := rfl
@[simp] theorem vset_la (s : State) (p n : Nat) (v : VWord) : (s.vset p n v).la = s.la := rfl
@[simp] theorem vset_fire (s : State) (p n : Nat) (v : VWord) : (s.vset p n v).fire = s.fire := rfl
@[simp] theorem vset_mot (s : State) (p n : Nat) (v : VWord) : (s.vset p n v).mot = s.mot := rfl
@[simp] theorem vset_insp (s : State) (p n : Nat) (v : VWord) : (s.vset p n v).insp = s.insp := rfl
@[simp] theorem vset_loops (s : State) (p n : Nat) (v : VWord) : (s.vset p n v).loops = s.loops := rfl
@[simp] theorem vset_tu (s : State) (p n : Nat) (v : VWord) : (s.vset p n v).tu = s.tu := rfl
@[simp] theorem vset_net (s : State) (p n : Nat) (v : VWord) : (s.vset p n v).net = s.net := rfl
@[simp] theorem vset_pair (s : State) (p n : Nat) (v : VWord) : (s.vset p n v).pair = s.pair := rfl
@[simp] theorem vset_ln (s : State) (p n : Nat) (v : VWord) : (s.vset p n v).ln = s.ln := rfl
@[simp] theorem vset_cal (s : State) (p n : Nat) (v : VWord) : (s.vset p n v).cal = s.cal := rfl
@[simp] theorem vset_fl (s : State) (p n : Nat) (v : VWord) : (s.vset p n v).fl = s.fl := rfl
@[simp] theorem vset_th (s : State) (p n : Nat) (v : VWord) : (s.vset p n v).th = s.th := rfl
@[simp] theorem vset_gp (s : State) (p n : Nat) (v : VWord) : (s.vset p n v).gp = s.gp := rfl
@[simp] theorem vset_st (s : State) (p n : Nat) (v : VWord) : (s.vset p n v).st = s.st := rfl
@[simp] theorem vset_bnd (s : State) (p n : Nat) (v : VWord) : (s.vset p n v).bnd = s.bnd := rfl
@[simp] theorem vset_pending (s : State) (p n : Nat) (v : VWord) : (s.vset p n v).pending = s.pending := rfl

@[simp] theorem setRing_clk (s : State) (n : Nat) (r : Ring) : (s.setRing n r).clk = s.clk := rfl
@[simp] theorem setRing_timeOff (s : State) (n : Nat) (r : Ring) : (s.setRing n r).timeOff = s.timeOff := rfl
@[simp] theorem setRing_freeN (s : State) (n : Nat) (r : Ring) : (s.setRing n r).freeN = s.freeN := rfl
@[simp] theorem setRing_regs (s : State) (n : Nat) (r : Ring) : (s.setRing n r).regs = s.regs := rfl
@[simp] theorem setRing_mem (s : State) (n : Nat) (r : Ring) : (s.setRing n r).mem = s.mem := rfl
@[simp] theorem setRing_out (s : State) (n : Nat) (r : Ring) : (s.setRing n r).out = s.out := rfl
@[simp] theorem setRing_cat (s : State) (n : Nat) (r : Ring) : (s.setRing n r).cat = s.cat := rfl
@[simp] theorem setRing_evHeld (s : State) (n : Nat) (r : Ring) : (s.setRing n r).evHeld = s.evHeld := rfl
@[simp] theorem setRing_evLost (s : State) (n : Nat) (r : Ring) : (s.setRing n r).evLost = s.evLost := rfl
@[simp] theorem setRing_led (s : State) (n : Nat) (r : Ring) : (s.setRing n r).led = s.led := rfl
@[simp] theorem setRing_md (s : State) (n : Nat) (r : Ring) : (s.setRing n r).md = s.md := rfl
@[simp] theorem setRing_engines (s : State) (n : Nat) (r : Ring) : (s.setRing n r).engines = s.engines := rfl
@[simp] theorem setRing_barriers (s : State) (n : Nat) (r : Ring) : (s.setRing n r).barriers = s.barriers := rfl
@[simp] theorem setRing_traps (s : State) (n : Nat) (r : Ring) : (s.setRing n r).traps = s.traps := rfl
@[simp] theorem setRing_la (s : State) (n : Nat) (r : Ring) : (s.setRing n r).la = s.la := rfl
@[simp] theorem setRing_fire (s : State) (n : Nat) (r : Ring) : (s.setRing n r).fire = s.fire := rfl
@[simp] theorem setRing_mot (s : State) (n : Nat) (r : Ring) : (s.setRing n r).mot = s.mot := rfl
@[simp] theorem setRing_insp (s : State) (n : Nat) (r : Ring) : (s.setRing n r).insp = s.insp := rfl
@[simp] theorem setRing_loops (s : State) (n : Nat) (r : Ring) : (s.setRing n r).loops = s.loops := rfl
@[simp] theorem setRing_tu (s : State) (n : Nat) (r : Ring) : (s.setRing n r).tu = s.tu := rfl
@[simp] theorem setRing_net (s : State) (n : Nat) (r : Ring) : (s.setRing n r).net = s.net := rfl
@[simp] theorem setRing_pair (s : State) (n : Nat) (r : Ring) : (s.setRing n r).pair = s.pair := rfl
@[simp] theorem setRing_ln (s : State) (n : Nat) (r : Ring) : (s.setRing n r).ln = s.ln := rfl
@[simp] theorem setRing_cal (s : State) (n : Nat) (r : Ring) : (s.setRing n r).cal = s.cal := rfl
@[simp] theorem setRing_fl (s : State) (n : Nat) (r : Ring) : (s.setRing n r).fl = s.fl := rfl
@[simp] theorem setRing_th (s : State) (n : Nat) (r : Ring) : (s.setRing n r).th = s.th := rfl
@[simp] theorem setRing_gp (s : State) (n : Nat) (r : Ring) : (s.setRing n r).gp = s.gp := rfl
@[simp] theorem setRing_st (s : State) (n : Nat) (r : Ring) : (s.setRing n r).st = s.st := rfl
@[simp] theorem setRing_bnd (s : State) (n : Nat) (r : Ring) : (s.setRing n r).bnd = s.bnd := rfl
@[simp] theorem setRing_pending (s : State) (n : Nat) (r : Ring) : (s.setRing n r).pending = s.pending := rfl

@[simp] theorem setSlot_clk (s : State) (k : Nat) (x : Slot) : (s.setSlot k x).clk = s.clk := rfl
@[simp] theorem setSlot_timeOff (s : State) (k : Nat) (x : Slot) : (s.setSlot k x).timeOff = s.timeOff := rfl
@[simp] theorem setSlot_freeN (s : State) (k : Nat) (x : Slot) : (s.setSlot k x).freeN = s.freeN := rfl
@[simp] theorem setSlot_regs (s : State) (k : Nat) (x : Slot) : (s.setSlot k x).regs = s.regs := rfl
@[simp] theorem setSlot_mem (s : State) (k : Nat) (x : Slot) : (s.setSlot k x).mem = s.mem := rfl
@[simp] theorem setSlot_out (s : State) (k : Nat) (x : Slot) : (s.setSlot k x).out = s.out := rfl
@[simp] theorem setSlot_cat (s : State) (k : Nat) (x : Slot) : (s.setSlot k x).cat = s.cat := rfl
@[simp] theorem setSlot_rings (s : State) (k : Nat) (x : Slot) : (s.setSlot k x).rings = s.rings := rfl
@[simp] theorem setSlot_evHeld (s : State) (k : Nat) (x : Slot) : (s.setSlot k x).evHeld = s.evHeld := rfl
@[simp] theorem setSlot_evLost (s : State) (k : Nat) (x : Slot) : (s.setSlot k x).evLost = s.evLost := rfl
@[simp] theorem setSlot_led (s : State) (k : Nat) (x : Slot) : (s.setSlot k x).led = s.led := rfl
@[simp] theorem setSlot_md (s : State) (k : Nat) (x : Slot) : (s.setSlot k x).md = s.md := rfl
@[simp] theorem setSlot_engines (s : State) (k : Nat) (x : Slot) : (s.setSlot k x).engines = s.engines := rfl
@[simp] theorem setSlot_barriers (s : State) (k : Nat) (x : Slot) : (s.setSlot k x).barriers = s.barriers := rfl
@[simp] theorem setSlot_traps (s : State) (k : Nat) (x : Slot) : (s.setSlot k x).traps = s.traps := rfl
@[simp] theorem setSlot_la (s : State) (k : Nat) (x : Slot) : (s.setSlot k x).la = s.la := rfl
@[simp] theorem setSlot_mot (s : State) (k : Nat) (x : Slot) : (s.setSlot k x).mot = s.mot := rfl
@[simp] theorem setSlot_insp (s : State) (k : Nat) (x : Slot) : (s.setSlot k x).insp = s.insp := rfl
@[simp] theorem setSlot_loops (s : State) (k : Nat) (x : Slot) : (s.setSlot k x).loops = s.loops := rfl
@[simp] theorem setSlot_tu (s : State) (k : Nat) (x : Slot) : (s.setSlot k x).tu = s.tu := rfl
@[simp] theorem setSlot_net (s : State) (k : Nat) (x : Slot) : (s.setSlot k x).net = s.net := rfl
@[simp] theorem setSlot_pair (s : State) (k : Nat) (x : Slot) : (s.setSlot k x).pair = s.pair := rfl
@[simp] theorem setSlot_ln (s : State) (k : Nat) (x : Slot) : (s.setSlot k x).ln = s.ln := rfl
@[simp] theorem setSlot_cal (s : State) (k : Nat) (x : Slot) : (s.setSlot k x).cal = s.cal := rfl
@[simp] theorem setSlot_fl (s : State) (k : Nat) (x : Slot) : (s.setSlot k x).fl = s.fl := rfl
@[simp] theorem setSlot_th (s : State) (k : Nat) (x : Slot) : (s.setSlot k x).th = s.th := rfl
@[simp] theorem setSlot_gp (s : State) (k : Nat) (x : Slot) : (s.setSlot k x).gp = s.gp := rfl
@[simp] theorem setSlot_st (s : State) (k : Nat) (x : Slot) : (s.setSlot k x).st = s.st := rfl
@[simp] theorem setSlot_bnd (s : State) (k : Nat) (x : Slot) : (s.setSlot k x).bnd = s.bnd := rfl
@[simp] theorem setSlot_pending (s : State) (k : Nat) (x : Slot) : (s.setSlot k x).pending = s.pending := rfl

@[simp] theorem setLane_clk (s : State) (n : Nat) (x : Lane) : (s.setLane n x).clk = s.clk := rfl
@[simp] theorem setLane_timeOff (s : State) (n : Nat) (x : Lane) : (s.setLane n x).timeOff = s.timeOff := rfl
@[simp] theorem setLane_freeN (s : State) (n : Nat) (x : Lane) : (s.setLane n x).freeN = s.freeN := rfl
@[simp] theorem setLane_regs (s : State) (n : Nat) (x : Lane) : (s.setLane n x).regs = s.regs := rfl
@[simp] theorem setLane_mem (s : State) (n : Nat) (x : Lane) : (s.setLane n x).mem = s.mem := rfl
@[simp] theorem setLane_out (s : State) (n : Nat) (x : Lane) : (s.setLane n x).out = s.out := rfl
@[simp] theorem setLane_cat (s : State) (n : Nat) (x : Lane) : (s.setLane n x).cat = s.cat := rfl
@[simp] theorem setLane_rings (s : State) (n : Nat) (x : Lane) : (s.setLane n x).rings = s.rings := rfl
@[simp] theorem setLane_evHeld (s : State) (n : Nat) (x : Lane) : (s.setLane n x).evHeld = s.evHeld := rfl
@[simp] theorem setLane_evLost (s : State) (n : Nat) (x : Lane) : (s.setLane n x).evLost = s.evLost := rfl
@[simp] theorem setLane_led (s : State) (n : Nat) (x : Lane) : (s.setLane n x).led = s.led := rfl
@[simp] theorem setLane_md (s : State) (n : Nat) (x : Lane) : (s.setLane n x).md = s.md := rfl
@[simp] theorem setLane_engines (s : State) (n : Nat) (x : Lane) : (s.setLane n x).engines = s.engines := rfl
@[simp] theorem setLane_barriers (s : State) (n : Nat) (x : Lane) : (s.setLane n x).barriers = s.barriers := rfl
@[simp] theorem setLane_traps (s : State) (n : Nat) (x : Lane) : (s.setLane n x).traps = s.traps := rfl
@[simp] theorem setLane_la (s : State) (n : Nat) (x : Lane) : (s.setLane n x).la = s.la := rfl
@[simp] theorem setLane_fire (s : State) (n : Nat) (x : Lane) : (s.setLane n x).fire = s.fire := rfl
@[simp] theorem setLane_mot (s : State) (n : Nat) (x : Lane) : (s.setLane n x).mot = s.mot := rfl
@[simp] theorem setLane_insp (s : State) (n : Nat) (x : Lane) : (s.setLane n x).insp = s.insp := rfl
@[simp] theorem setLane_loops (s : State) (n : Nat) (x : Lane) : (s.setLane n x).loops = s.loops := rfl
@[simp] theorem setLane_tu (s : State) (n : Nat) (x : Lane) : (s.setLane n x).tu = s.tu := rfl
@[simp] theorem setLane_net (s : State) (n : Nat) (x : Lane) : (s.setLane n x).net = s.net := rfl
@[simp] theorem setLane_pair (s : State) (n : Nat) (x : Lane) : (s.setLane n x).pair = s.pair := rfl
@[simp] theorem setLane_cal (s : State) (n : Nat) (x : Lane) : (s.setLane n x).cal = s.cal := rfl
@[simp] theorem setLane_fl (s : State) (n : Nat) (x : Lane) : (s.setLane n x).fl = s.fl := rfl
@[simp] theorem setLane_th (s : State) (n : Nat) (x : Lane) : (s.setLane n x).th = s.th := rfl
@[simp] theorem setLane_gp (s : State) (n : Nat) (x : Lane) : (s.setLane n x).gp = s.gp := rfl
@[simp] theorem setLane_st (s : State) (n : Nat) (x : Lane) : (s.setLane n x).st = s.st := rfl
@[simp] theorem setLane_bnd (s : State) (n : Nat) (x : Lane) : (s.setLane n x).bnd = s.bnd := rfl
@[simp] theorem setLane_pending (s : State) (n : Nat) (x : Lane) : (s.setLane n x).pending = s.pending := rfl

@[simp] theorem setSensor_clk (s : State) (n : Nat) (x : Sensor) : (s.setSensor n x).clk = s.clk := rfl
@[simp] theorem setSensor_timeOff (s : State) (n : Nat) (x : Sensor) : (s.setSensor n x).timeOff = s.timeOff := rfl
@[simp] theorem setSensor_freeN (s : State) (n : Nat) (x : Sensor) : (s.setSensor n x).freeN = s.freeN := rfl
@[simp] theorem setSensor_regs (s : State) (n : Nat) (x : Sensor) : (s.setSensor n x).regs = s.regs := rfl
@[simp] theorem setSensor_mem (s : State) (n : Nat) (x : Sensor) : (s.setSensor n x).mem = s.mem := rfl
@[simp] theorem setSensor_out (s : State) (n : Nat) (x : Sensor) : (s.setSensor n x).out = s.out := rfl
@[simp] theorem setSensor_cat (s : State) (n : Nat) (x : Sensor) : (s.setSensor n x).cat = s.cat := rfl
@[simp] theorem setSensor_rings (s : State) (n : Nat) (x : Sensor) : (s.setSensor n x).rings = s.rings := rfl
@[simp] theorem setSensor_evHeld (s : State) (n : Nat) (x : Sensor) : (s.setSensor n x).evHeld = s.evHeld := rfl
@[simp] theorem setSensor_evLost (s : State) (n : Nat) (x : Sensor) : (s.setSensor n x).evLost = s.evLost := rfl
@[simp] theorem setSensor_led (s : State) (n : Nat) (x : Sensor) : (s.setSensor n x).led = s.led := rfl
@[simp] theorem setSensor_md (s : State) (n : Nat) (x : Sensor) : (s.setSensor n x).md = s.md := rfl
@[simp] theorem setSensor_engines (s : State) (n : Nat) (x : Sensor) : (s.setSensor n x).engines = s.engines := rfl
@[simp] theorem setSensor_barriers (s : State) (n : Nat) (x : Sensor) : (s.setSensor n x).barriers = s.barriers := rfl
@[simp] theorem setSensor_traps (s : State) (n : Nat) (x : Sensor) : (s.setSensor n x).traps = s.traps := rfl
@[simp] theorem setSensor_la (s : State) (n : Nat) (x : Sensor) : (s.setSensor n x).la = s.la := rfl
@[simp] theorem setSensor_fire (s : State) (n : Nat) (x : Sensor) : (s.setSensor n x).fire = s.fire := rfl
@[simp] theorem setSensor_mot (s : State) (n : Nat) (x : Sensor) : (s.setSensor n x).mot = s.mot := rfl
@[simp] theorem setSensor_insp (s : State) (n : Nat) (x : Sensor) : (s.setSensor n x).insp = s.insp := rfl
@[simp] theorem setSensor_loops (s : State) (n : Nat) (x : Sensor) : (s.setSensor n x).loops = s.loops := rfl
@[simp] theorem setSensor_tu (s : State) (n : Nat) (x : Sensor) : (s.setSensor n x).tu = s.tu := rfl
@[simp] theorem setSensor_net (s : State) (n : Nat) (x : Sensor) : (s.setSensor n x).net = s.net := rfl
@[simp] theorem setSensor_pair (s : State) (n : Nat) (x : Sensor) : (s.setSensor n x).pair = s.pair := rfl
@[simp] theorem setSensor_ln (s : State) (n : Nat) (x : Sensor) : (s.setSensor n x).ln = s.ln := rfl
@[simp] theorem setSensor_cal (s : State) (n : Nat) (x : Sensor) : (s.setSensor n x).cal = s.cal := rfl
@[simp] theorem setSensor_fl (s : State) (n : Nat) (x : Sensor) : (s.setSensor n x).fl = s.fl := rfl
@[simp] theorem setSensor_gp (s : State) (n : Nat) (x : Sensor) : (s.setSensor n x).gp = s.gp := rfl
@[simp] theorem setSensor_st (s : State) (n : Nat) (x : Sensor) : (s.setSensor n x).st = s.st := rfl
@[simp] theorem setSensor_bnd (s : State) (n : Nat) (x : Sensor) : (s.setSensor n x).bnd = s.bnd := rfl
@[simp] theorem setSensor_pending (s : State) (n : Nat) (x : Sensor) : (s.setSensor n x).pending = s.pending := rfl

@[simp] theorem setHead_clk (s : State) (k : Nat) (x : HeadTemp) : (s.setHead k x).clk = s.clk := rfl
@[simp] theorem setHead_timeOff (s : State) (k : Nat) (x : HeadTemp) : (s.setHead k x).timeOff = s.timeOff := rfl
@[simp] theorem setHead_freeN (s : State) (k : Nat) (x : HeadTemp) : (s.setHead k x).freeN = s.freeN := rfl
@[simp] theorem setHead_regs (s : State) (k : Nat) (x : HeadTemp) : (s.setHead k x).regs = s.regs := rfl
@[simp] theorem setHead_mem (s : State) (k : Nat) (x : HeadTemp) : (s.setHead k x).mem = s.mem := rfl
@[simp] theorem setHead_out (s : State) (k : Nat) (x : HeadTemp) : (s.setHead k x).out = s.out := rfl
@[simp] theorem setHead_cat (s : State) (k : Nat) (x : HeadTemp) : (s.setHead k x).cat = s.cat := rfl
@[simp] theorem setHead_rings (s : State) (k : Nat) (x : HeadTemp) : (s.setHead k x).rings = s.rings := rfl
@[simp] theorem setHead_evHeld (s : State) (k : Nat) (x : HeadTemp) : (s.setHead k x).evHeld = s.evHeld := rfl
@[simp] theorem setHead_evLost (s : State) (k : Nat) (x : HeadTemp) : (s.setHead k x).evLost = s.evLost := rfl
@[simp] theorem setHead_led (s : State) (k : Nat) (x : HeadTemp) : (s.setHead k x).led = s.led := rfl
@[simp] theorem setHead_md (s : State) (k : Nat) (x : HeadTemp) : (s.setHead k x).md = s.md := rfl
@[simp] theorem setHead_engines (s : State) (k : Nat) (x : HeadTemp) : (s.setHead k x).engines = s.engines := rfl
@[simp] theorem setHead_barriers (s : State) (k : Nat) (x : HeadTemp) : (s.setHead k x).barriers = s.barriers := rfl
@[simp] theorem setHead_traps (s : State) (k : Nat) (x : HeadTemp) : (s.setHead k x).traps = s.traps := rfl
@[simp] theorem setHead_la (s : State) (k : Nat) (x : HeadTemp) : (s.setHead k x).la = s.la := rfl
@[simp] theorem setHead_fire (s : State) (k : Nat) (x : HeadTemp) : (s.setHead k x).fire = s.fire := rfl
@[simp] theorem setHead_mot (s : State) (k : Nat) (x : HeadTemp) : (s.setHead k x).mot = s.mot := rfl
@[simp] theorem setHead_insp (s : State) (k : Nat) (x : HeadTemp) : (s.setHead k x).insp = s.insp := rfl
@[simp] theorem setHead_loops (s : State) (k : Nat) (x : HeadTemp) : (s.setHead k x).loops = s.loops := rfl
@[simp] theorem setHead_tu (s : State) (k : Nat) (x : HeadTemp) : (s.setHead k x).tu = s.tu := rfl
@[simp] theorem setHead_net (s : State) (k : Nat) (x : HeadTemp) : (s.setHead k x).net = s.net := rfl
@[simp] theorem setHead_pair (s : State) (k : Nat) (x : HeadTemp) : (s.setHead k x).pair = s.pair := rfl
@[simp] theorem setHead_ln (s : State) (k : Nat) (x : HeadTemp) : (s.setHead k x).ln = s.ln := rfl
@[simp] theorem setHead_cal (s : State) (k : Nat) (x : HeadTemp) : (s.setHead k x).cal = s.cal := rfl
@[simp] theorem setHead_fl (s : State) (k : Nat) (x : HeadTemp) : (s.setHead k x).fl = s.fl := rfl
@[simp] theorem setHead_gp (s : State) (k : Nat) (x : HeadTemp) : (s.setHead k x).gp = s.gp := rfl
@[simp] theorem setHead_st (s : State) (k : Nat) (x : HeadTemp) : (s.setHead k x).st = s.st := rfl
@[simp] theorem setHead_bnd (s : State) (k : Nat) (x : HeadTemp) : (s.setHead k x).bnd = s.bnd := rfl
@[simp] theorem setHead_pending (s : State) (k : Nat) (x : HeadTemp) : (s.setHead k x).pending = s.pending := rfl

@[simp] theorem setBind_clk (s : State) (u : Nat) (x : Bindery) : (s.setBind u x).clk = s.clk := rfl
@[simp] theorem setBind_timeOff (s : State) (u : Nat) (x : Bindery) : (s.setBind u x).timeOff = s.timeOff := rfl
@[simp] theorem setBind_freeN (s : State) (u : Nat) (x : Bindery) : (s.setBind u x).freeN = s.freeN := rfl
@[simp] theorem setBind_regs (s : State) (u : Nat) (x : Bindery) : (s.setBind u x).regs = s.regs := rfl
@[simp] theorem setBind_mem (s : State) (u : Nat) (x : Bindery) : (s.setBind u x).mem = s.mem := rfl
@[simp] theorem setBind_out (s : State) (u : Nat) (x : Bindery) : (s.setBind u x).out = s.out := rfl
@[simp] theorem setBind_cat (s : State) (u : Nat) (x : Bindery) : (s.setBind u x).cat = s.cat := rfl
@[simp] theorem setBind_rings (s : State) (u : Nat) (x : Bindery) : (s.setBind u x).rings = s.rings := rfl
@[simp] theorem setBind_evHeld (s : State) (u : Nat) (x : Bindery) : (s.setBind u x).evHeld = s.evHeld := rfl
@[simp] theorem setBind_evLost (s : State) (u : Nat) (x : Bindery) : (s.setBind u x).evLost = s.evLost := rfl
@[simp] theorem setBind_led (s : State) (u : Nat) (x : Bindery) : (s.setBind u x).led = s.led := rfl
@[simp] theorem setBind_md (s : State) (u : Nat) (x : Bindery) : (s.setBind u x).md = s.md := rfl
@[simp] theorem setBind_engines (s : State) (u : Nat) (x : Bindery) : (s.setBind u x).engines = s.engines := rfl
@[simp] theorem setBind_barriers (s : State) (u : Nat) (x : Bindery) : (s.setBind u x).barriers = s.barriers := rfl
@[simp] theorem setBind_traps (s : State) (u : Nat) (x : Bindery) : (s.setBind u x).traps = s.traps := rfl
@[simp] theorem setBind_la (s : State) (u : Nat) (x : Bindery) : (s.setBind u x).la = s.la := rfl
@[simp] theorem setBind_fire (s : State) (u : Nat) (x : Bindery) : (s.setBind u x).fire = s.fire := rfl
@[simp] theorem setBind_mot (s : State) (u : Nat) (x : Bindery) : (s.setBind u x).mot = s.mot := rfl
@[simp] theorem setBind_insp (s : State) (u : Nat) (x : Bindery) : (s.setBind u x).insp = s.insp := rfl
@[simp] theorem setBind_loops (s : State) (u : Nat) (x : Bindery) : (s.setBind u x).loops = s.loops := rfl
@[simp] theorem setBind_tu (s : State) (u : Nat) (x : Bindery) : (s.setBind u x).tu = s.tu := rfl
@[simp] theorem setBind_net (s : State) (u : Nat) (x : Bindery) : (s.setBind u x).net = s.net := rfl
@[simp] theorem setBind_pair (s : State) (u : Nat) (x : Bindery) : (s.setBind u x).pair = s.pair := rfl
@[simp] theorem setBind_ln (s : State) (u : Nat) (x : Bindery) : (s.setBind u x).ln = s.ln := rfl
@[simp] theorem setBind_cal (s : State) (u : Nat) (x : Bindery) : (s.setBind u x).cal = s.cal := rfl
@[simp] theorem setBind_fl (s : State) (u : Nat) (x : Bindery) : (s.setBind u x).fl = s.fl := rfl
@[simp] theorem setBind_th (s : State) (u : Nat) (x : Bindery) : (s.setBind u x).th = s.th := rfl
@[simp] theorem setBind_gp (s : State) (u : Nat) (x : Bindery) : (s.setBind u x).gp = s.gp := rfl
@[simp] theorem setBind_st (s : State) (u : Nat) (x : Bindery) : (s.setBind u x).st = s.st := rfl
@[simp] theorem setBind_pending (s : State) (u : Nat) (x : Bindery) : (s.setBind u x).pending = s.pending := rfl

@[simp] theorem setAxis_clk (s : State) (n : Nat) (x : Axis) : (s.setAxis n x).clk = s.clk := rfl
@[simp] theorem setAxis_timeOff (s : State) (n : Nat) (x : Axis) : (s.setAxis n x).timeOff = s.timeOff := rfl
@[simp] theorem setAxis_freeN (s : State) (n : Nat) (x : Axis) : (s.setAxis n x).freeN = s.freeN := rfl
@[simp] theorem setAxis_regs (s : State) (n : Nat) (x : Axis) : (s.setAxis n x).regs = s.regs := rfl
@[simp] theorem setAxis_mem (s : State) (n : Nat) (x : Axis) : (s.setAxis n x).mem = s.mem := rfl
@[simp] theorem setAxis_out (s : State) (n : Nat) (x : Axis) : (s.setAxis n x).out = s.out := rfl
@[simp] theorem setAxis_cat (s : State) (n : Nat) (x : Axis) : (s.setAxis n x).cat = s.cat := rfl
@[simp] theorem setAxis_rings (s : State) (n : Nat) (x : Axis) : (s.setAxis n x).rings = s.rings := rfl
@[simp] theorem setAxis_evHeld (s : State) (n : Nat) (x : Axis) : (s.setAxis n x).evHeld = s.evHeld := rfl
@[simp] theorem setAxis_evLost (s : State) (n : Nat) (x : Axis) : (s.setAxis n x).evLost = s.evLost := rfl
@[simp] theorem setAxis_led (s : State) (n : Nat) (x : Axis) : (s.setAxis n x).led = s.led := rfl
@[simp] theorem setAxis_md (s : State) (n : Nat) (x : Axis) : (s.setAxis n x).md = s.md := rfl
@[simp] theorem setAxis_engines (s : State) (n : Nat) (x : Axis) : (s.setAxis n x).engines = s.engines := rfl
@[simp] theorem setAxis_barriers (s : State) (n : Nat) (x : Axis) : (s.setAxis n x).barriers = s.barriers := rfl
@[simp] theorem setAxis_traps (s : State) (n : Nat) (x : Axis) : (s.setAxis n x).traps = s.traps := rfl
@[simp] theorem setAxis_la (s : State) (n : Nat) (x : Axis) : (s.setAxis n x).la = s.la := rfl
@[simp] theorem setAxis_fire (s : State) (n : Nat) (x : Axis) : (s.setAxis n x).fire = s.fire := rfl
@[simp] theorem setAxis_insp (s : State) (n : Nat) (x : Axis) : (s.setAxis n x).insp = s.insp := rfl
@[simp] theorem setAxis_loops (s : State) (n : Nat) (x : Axis) : (s.setAxis n x).loops = s.loops := rfl
@[simp] theorem setAxis_tu (s : State) (n : Nat) (x : Axis) : (s.setAxis n x).tu = s.tu := rfl
@[simp] theorem setAxis_net (s : State) (n : Nat) (x : Axis) : (s.setAxis n x).net = s.net := rfl
@[simp] theorem setAxis_pair (s : State) (n : Nat) (x : Axis) : (s.setAxis n x).pair = s.pair := rfl
@[simp] theorem setAxis_ln (s : State) (n : Nat) (x : Axis) : (s.setAxis n x).ln = s.ln := rfl
@[simp] theorem setAxis_cal (s : State) (n : Nat) (x : Axis) : (s.setAxis n x).cal = s.cal := rfl
@[simp] theorem setAxis_fl (s : State) (n : Nat) (x : Axis) : (s.setAxis n x).fl = s.fl := rfl
@[simp] theorem setAxis_th (s : State) (n : Nat) (x : Axis) : (s.setAxis n x).th = s.th := rfl
@[simp] theorem setAxis_gp (s : State) (n : Nat) (x : Axis) : (s.setAxis n x).gp = s.gp := rfl
@[simp] theorem setAxis_st (s : State) (n : Nat) (x : Axis) : (s.setAxis n x).st = s.st := rfl
@[simp] theorem setAxis_bnd (s : State) (n : Nat) (x : Axis) : (s.setAxis n x).bnd = s.bnd := rfl
@[simp] theorem setAxis_pending (s : State) (n : Nat) (x : Axis) : (s.setAxis n x).pending = s.pending := rfl

@[simp] theorem setSwitch_clk (s : State) (k : Nat) (x : Switch) : (s.setSwitch k x).clk = s.clk := rfl
@[simp] theorem setSwitch_timeOff (s : State) (k : Nat) (x : Switch) : (s.setSwitch k x).timeOff = s.timeOff := rfl
@[simp] theorem setSwitch_freeN (s : State) (k : Nat) (x : Switch) : (s.setSwitch k x).freeN = s.freeN := rfl
@[simp] theorem setSwitch_regs (s : State) (k : Nat) (x : Switch) : (s.setSwitch k x).regs = s.regs := rfl
@[simp] theorem setSwitch_mem (s : State) (k : Nat) (x : Switch) : (s.setSwitch k x).mem = s.mem := rfl
@[simp] theorem setSwitch_out (s : State) (k : Nat) (x : Switch) : (s.setSwitch k x).out = s.out := rfl
@[simp] theorem setSwitch_cat (s : State) (k : Nat) (x : Switch) : (s.setSwitch k x).cat = s.cat := rfl
@[simp] theorem setSwitch_rings (s : State) (k : Nat) (x : Switch) : (s.setSwitch k x).rings = s.rings := rfl
@[simp] theorem setSwitch_evHeld (s : State) (k : Nat) (x : Switch) : (s.setSwitch k x).evHeld = s.evHeld := rfl
@[simp] theorem setSwitch_evLost (s : State) (k : Nat) (x : Switch) : (s.setSwitch k x).evLost = s.evLost := rfl
@[simp] theorem setSwitch_led (s : State) (k : Nat) (x : Switch) : (s.setSwitch k x).led = s.led := rfl
@[simp] theorem setSwitch_md (s : State) (k : Nat) (x : Switch) : (s.setSwitch k x).md = s.md := rfl
@[simp] theorem setSwitch_engines (s : State) (k : Nat) (x : Switch) : (s.setSwitch k x).engines = s.engines := rfl
@[simp] theorem setSwitch_barriers (s : State) (k : Nat) (x : Switch) : (s.setSwitch k x).barriers = s.barriers := rfl
@[simp] theorem setSwitch_traps (s : State) (k : Nat) (x : Switch) : (s.setSwitch k x).traps = s.traps := rfl
@[simp] theorem setSwitch_la (s : State) (k : Nat) (x : Switch) : (s.setSwitch k x).la = s.la := rfl
@[simp] theorem setSwitch_fire (s : State) (k : Nat) (x : Switch) : (s.setSwitch k x).fire = s.fire := rfl
@[simp] theorem setSwitch_insp (s : State) (k : Nat) (x : Switch) : (s.setSwitch k x).insp = s.insp := rfl
@[simp] theorem setSwitch_loops (s : State) (k : Nat) (x : Switch) : (s.setSwitch k x).loops = s.loops := rfl
@[simp] theorem setSwitch_tu (s : State) (k : Nat) (x : Switch) : (s.setSwitch k x).tu = s.tu := rfl
@[simp] theorem setSwitch_net (s : State) (k : Nat) (x : Switch) : (s.setSwitch k x).net = s.net := rfl
@[simp] theorem setSwitch_pair (s : State) (k : Nat) (x : Switch) : (s.setSwitch k x).pair = s.pair := rfl
@[simp] theorem setSwitch_ln (s : State) (k : Nat) (x : Switch) : (s.setSwitch k x).ln = s.ln := rfl
@[simp] theorem setSwitch_cal (s : State) (k : Nat) (x : Switch) : (s.setSwitch k x).cal = s.cal := rfl
@[simp] theorem setSwitch_fl (s : State) (k : Nat) (x : Switch) : (s.setSwitch k x).fl = s.fl := rfl
@[simp] theorem setSwitch_th (s : State) (k : Nat) (x : Switch) : (s.setSwitch k x).th = s.th := rfl
@[simp] theorem setSwitch_gp (s : State) (k : Nat) (x : Switch) : (s.setSwitch k x).gp = s.gp := rfl
@[simp] theorem setSwitch_st (s : State) (k : Nat) (x : Switch) : (s.setSwitch k x).st = s.st := rfl
@[simp] theorem setSwitch_bnd (s : State) (k : Nat) (x : Switch) : (s.setSwitch k x).bnd = s.bnd := rfl
@[simp] theorem setSwitch_pending (s : State) (k : Nat) (x : Switch) : (s.setSwitch k x).pending = s.pending := rfl

@[simp] theorem setFb_clk (s : State) (i : Nat) (x : FbInput) : (s.setFb i x).clk = s.clk := rfl
@[simp] theorem setFb_timeOff (s : State) (i : Nat) (x : FbInput) : (s.setFb i x).timeOff = s.timeOff := rfl
@[simp] theorem setFb_freeN (s : State) (i : Nat) (x : FbInput) : (s.setFb i x).freeN = s.freeN := rfl
@[simp] theorem setFb_regs (s : State) (i : Nat) (x : FbInput) : (s.setFb i x).regs = s.regs := rfl
@[simp] theorem setFb_mem (s : State) (i : Nat) (x : FbInput) : (s.setFb i x).mem = s.mem := rfl
@[simp] theorem setFb_out (s : State) (i : Nat) (x : FbInput) : (s.setFb i x).out = s.out := rfl
@[simp] theorem setFb_cat (s : State) (i : Nat) (x : FbInput) : (s.setFb i x).cat = s.cat := rfl
@[simp] theorem setFb_rings (s : State) (i : Nat) (x : FbInput) : (s.setFb i x).rings = s.rings := rfl
@[simp] theorem setFb_evHeld (s : State) (i : Nat) (x : FbInput) : (s.setFb i x).evHeld = s.evHeld := rfl
@[simp] theorem setFb_evLost (s : State) (i : Nat) (x : FbInput) : (s.setFb i x).evLost = s.evLost := rfl
@[simp] theorem setFb_led (s : State) (i : Nat) (x : FbInput) : (s.setFb i x).led = s.led := rfl
@[simp] theorem setFb_md (s : State) (i : Nat) (x : FbInput) : (s.setFb i x).md = s.md := rfl
@[simp] theorem setFb_engines (s : State) (i : Nat) (x : FbInput) : (s.setFb i x).engines = s.engines := rfl
@[simp] theorem setFb_barriers (s : State) (i : Nat) (x : FbInput) : (s.setFb i x).barriers = s.barriers := rfl
@[simp] theorem setFb_traps (s : State) (i : Nat) (x : FbInput) : (s.setFb i x).traps = s.traps := rfl
@[simp] theorem setFb_la (s : State) (i : Nat) (x : FbInput) : (s.setFb i x).la = s.la := rfl
@[simp] theorem setFb_fire (s : State) (i : Nat) (x : FbInput) : (s.setFb i x).fire = s.fire := rfl
@[simp] theorem setFb_insp (s : State) (i : Nat) (x : FbInput) : (s.setFb i x).insp = s.insp := rfl
@[simp] theorem setFb_loops (s : State) (i : Nat) (x : FbInput) : (s.setFb i x).loops = s.loops := rfl
@[simp] theorem setFb_tu (s : State) (i : Nat) (x : FbInput) : (s.setFb i x).tu = s.tu := rfl
@[simp] theorem setFb_net (s : State) (i : Nat) (x : FbInput) : (s.setFb i x).net = s.net := rfl
@[simp] theorem setFb_pair (s : State) (i : Nat) (x : FbInput) : (s.setFb i x).pair = s.pair := rfl
@[simp] theorem setFb_ln (s : State) (i : Nat) (x : FbInput) : (s.setFb i x).ln = s.ln := rfl
@[simp] theorem setFb_cal (s : State) (i : Nat) (x : FbInput) : (s.setFb i x).cal = s.cal := rfl
@[simp] theorem setFb_fl (s : State) (i : Nat) (x : FbInput) : (s.setFb i x).fl = s.fl := rfl
@[simp] theorem setFb_th (s : State) (i : Nat) (x : FbInput) : (s.setFb i x).th = s.th := rfl
@[simp] theorem setFb_gp (s : State) (i : Nat) (x : FbInput) : (s.setFb i x).gp = s.gp := rfl
@[simp] theorem setFb_st (s : State) (i : Nat) (x : FbInput) : (s.setFb i x).st = s.st := rfl
@[simp] theorem setFb_bnd (s : State) (i : Nat) (x : FbInput) : (s.setFb i x).bnd = s.bnd := rfl
@[simp] theorem setFb_pending (s : State) (i : Nat) (x : FbInput) : (s.setFb i x).pending = s.pending := rfl

@[simp] theorem setEmu_clk (s : State) (k : Nat) (x : Emu) : (s.setEmu k x).clk = s.clk := rfl
@[simp] theorem setEmu_timeOff (s : State) (k : Nat) (x : Emu) : (s.setEmu k x).timeOff = s.timeOff := rfl
@[simp] theorem setEmu_freeN (s : State) (k : Nat) (x : Emu) : (s.setEmu k x).freeN = s.freeN := rfl
@[simp] theorem setEmu_regs (s : State) (k : Nat) (x : Emu) : (s.setEmu k x).regs = s.regs := rfl
@[simp] theorem setEmu_mem (s : State) (k : Nat) (x : Emu) : (s.setEmu k x).mem = s.mem := rfl
@[simp] theorem setEmu_out (s : State) (k : Nat) (x : Emu) : (s.setEmu k x).out = s.out := rfl
@[simp] theorem setEmu_cat (s : State) (k : Nat) (x : Emu) : (s.setEmu k x).cat = s.cat := rfl
@[simp] theorem setEmu_rings (s : State) (k : Nat) (x : Emu) : (s.setEmu k x).rings = s.rings := rfl
@[simp] theorem setEmu_evHeld (s : State) (k : Nat) (x : Emu) : (s.setEmu k x).evHeld = s.evHeld := rfl
@[simp] theorem setEmu_evLost (s : State) (k : Nat) (x : Emu) : (s.setEmu k x).evLost = s.evLost := rfl
@[simp] theorem setEmu_led (s : State) (k : Nat) (x : Emu) : (s.setEmu k x).led = s.led := rfl
@[simp] theorem setEmu_md (s : State) (k : Nat) (x : Emu) : (s.setEmu k x).md = s.md := rfl
@[simp] theorem setEmu_engines (s : State) (k : Nat) (x : Emu) : (s.setEmu k x).engines = s.engines := rfl
@[simp] theorem setEmu_barriers (s : State) (k : Nat) (x : Emu) : (s.setEmu k x).barriers = s.barriers := rfl
@[simp] theorem setEmu_traps (s : State) (k : Nat) (x : Emu) : (s.setEmu k x).traps = s.traps := rfl
@[simp] theorem setEmu_la (s : State) (k : Nat) (x : Emu) : (s.setEmu k x).la = s.la := rfl
@[simp] theorem setEmu_fire (s : State) (k : Nat) (x : Emu) : (s.setEmu k x).fire = s.fire := rfl
@[simp] theorem setEmu_insp (s : State) (k : Nat) (x : Emu) : (s.setEmu k x).insp = s.insp := rfl
@[simp] theorem setEmu_loops (s : State) (k : Nat) (x : Emu) : (s.setEmu k x).loops = s.loops := rfl
@[simp] theorem setEmu_tu (s : State) (k : Nat) (x : Emu) : (s.setEmu k x).tu = s.tu := rfl
@[simp] theorem setEmu_net (s : State) (k : Nat) (x : Emu) : (s.setEmu k x).net = s.net := rfl
@[simp] theorem setEmu_pair (s : State) (k : Nat) (x : Emu) : (s.setEmu k x).pair = s.pair := rfl
@[simp] theorem setEmu_ln (s : State) (k : Nat) (x : Emu) : (s.setEmu k x).ln = s.ln := rfl
@[simp] theorem setEmu_cal (s : State) (k : Nat) (x : Emu) : (s.setEmu k x).cal = s.cal := rfl
@[simp] theorem setEmu_fl (s : State) (k : Nat) (x : Emu) : (s.setEmu k x).fl = s.fl := rfl
@[simp] theorem setEmu_th (s : State) (k : Nat) (x : Emu) : (s.setEmu k x).th = s.th := rfl
@[simp] theorem setEmu_gp (s : State) (k : Nat) (x : Emu) : (s.setEmu k x).gp = s.gp := rfl
@[simp] theorem setEmu_st (s : State) (k : Nat) (x : Emu) : (s.setEmu k x).st = s.st := rfl
@[simp] theorem setEmu_bnd (s : State) (k : Nat) (x : Emu) : (s.setEmu k x).bnd = s.bnd := rfl
@[simp] theorem setEmu_pending (s : State) (k : Nat) (x : Emu) : (s.setEmu k x).pending = s.pending := rfl

@[simp] theorem setDrivePort_clk (s : State) (k : Nat) (x : DrivePort) : (s.setDrivePort k x).clk = s.clk := rfl
@[simp] theorem setDrivePort_timeOff (s : State) (k : Nat) (x : DrivePort) : (s.setDrivePort k x).timeOff = s.timeOff := rfl
@[simp] theorem setDrivePort_freeN (s : State) (k : Nat) (x : DrivePort) : (s.setDrivePort k x).freeN = s.freeN := rfl
@[simp] theorem setDrivePort_regs (s : State) (k : Nat) (x : DrivePort) : (s.setDrivePort k x).regs = s.regs := rfl
@[simp] theorem setDrivePort_mem (s : State) (k : Nat) (x : DrivePort) : (s.setDrivePort k x).mem = s.mem := rfl
@[simp] theorem setDrivePort_out (s : State) (k : Nat) (x : DrivePort) : (s.setDrivePort k x).out = s.out := rfl
@[simp] theorem setDrivePort_cat (s : State) (k : Nat) (x : DrivePort) : (s.setDrivePort k x).cat = s.cat := rfl
@[simp] theorem setDrivePort_rings (s : State) (k : Nat) (x : DrivePort) : (s.setDrivePort k x).rings = s.rings := rfl
@[simp] theorem setDrivePort_evHeld (s : State) (k : Nat) (x : DrivePort) : (s.setDrivePort k x).evHeld = s.evHeld := rfl
@[simp] theorem setDrivePort_evLost (s : State) (k : Nat) (x : DrivePort) : (s.setDrivePort k x).evLost = s.evLost := rfl
@[simp] theorem setDrivePort_led (s : State) (k : Nat) (x : DrivePort) : (s.setDrivePort k x).led = s.led := rfl
@[simp] theorem setDrivePort_md (s : State) (k : Nat) (x : DrivePort) : (s.setDrivePort k x).md = s.md := rfl
@[simp] theorem setDrivePort_engines (s : State) (k : Nat) (x : DrivePort) : (s.setDrivePort k x).engines = s.engines := rfl
@[simp] theorem setDrivePort_barriers (s : State) (k : Nat) (x : DrivePort) : (s.setDrivePort k x).barriers = s.barriers := rfl
@[simp] theorem setDrivePort_traps (s : State) (k : Nat) (x : DrivePort) : (s.setDrivePort k x).traps = s.traps := rfl
@[simp] theorem setDrivePort_la (s : State) (k : Nat) (x : DrivePort) : (s.setDrivePort k x).la = s.la := rfl
@[simp] theorem setDrivePort_fire (s : State) (k : Nat) (x : DrivePort) : (s.setDrivePort k x).fire = s.fire := rfl
@[simp] theorem setDrivePort_insp (s : State) (k : Nat) (x : DrivePort) : (s.setDrivePort k x).insp = s.insp := rfl
@[simp] theorem setDrivePort_loops (s : State) (k : Nat) (x : DrivePort) : (s.setDrivePort k x).loops = s.loops := rfl
@[simp] theorem setDrivePort_tu (s : State) (k : Nat) (x : DrivePort) : (s.setDrivePort k x).tu = s.tu := rfl
@[simp] theorem setDrivePort_net (s : State) (k : Nat) (x : DrivePort) : (s.setDrivePort k x).net = s.net := rfl
@[simp] theorem setDrivePort_pair (s : State) (k : Nat) (x : DrivePort) : (s.setDrivePort k x).pair = s.pair := rfl
@[simp] theorem setDrivePort_ln (s : State) (k : Nat) (x : DrivePort) : (s.setDrivePort k x).ln = s.ln := rfl
@[simp] theorem setDrivePort_cal (s : State) (k : Nat) (x : DrivePort) : (s.setDrivePort k x).cal = s.cal := rfl
@[simp] theorem setDrivePort_fl (s : State) (k : Nat) (x : DrivePort) : (s.setDrivePort k x).fl = s.fl := rfl
@[simp] theorem setDrivePort_th (s : State) (k : Nat) (x : DrivePort) : (s.setDrivePort k x).th = s.th := rfl
@[simp] theorem setDrivePort_gp (s : State) (k : Nat) (x : DrivePort) : (s.setDrivePort k x).gp = s.gp := rfl
@[simp] theorem setDrivePort_st (s : State) (k : Nat) (x : DrivePort) : (s.setDrivePort k x).st = s.st := rfl
@[simp] theorem setDrivePort_bnd (s : State) (k : Nat) (x : DrivePort) : (s.setDrivePort k x).bnd = s.bnd := rfl
@[simp] theorem setDrivePort_pending (s : State) (k : Nat) (x : DrivePort) : (s.setDrivePort k x).pending = s.pending := rfl

@[simp] theorem setQuality_clk (s : State) (cls i : Nat) (q : Quality) : (s.setQuality cls i q).clk = s.clk := rfl
@[simp] theorem setQuality_timeOff (s : State) (cls i : Nat) (q : Quality) : (s.setQuality cls i q).timeOff = s.timeOff := rfl
@[simp] theorem setQuality_freeN (s : State) (cls i : Nat) (q : Quality) : (s.setQuality cls i q).freeN = s.freeN := rfl
@[simp] theorem setQuality_regs (s : State) (cls i : Nat) (q : Quality) : (s.setQuality cls i q).regs = s.regs := rfl
@[simp] theorem setQuality_mem (s : State) (cls i : Nat) (q : Quality) : (s.setQuality cls i q).mem = s.mem := rfl
@[simp] theorem setQuality_out (s : State) (cls i : Nat) (q : Quality) : (s.setQuality cls i q).out = s.out := rfl
@[simp] theorem setQuality_cat (s : State) (cls i : Nat) (q : Quality) : (s.setQuality cls i q).cat = s.cat := rfl
@[simp] theorem setQuality_rings (s : State) (cls i : Nat) (q : Quality) : (s.setQuality cls i q).rings = s.rings := rfl
@[simp] theorem setQuality_evHeld (s : State) (cls i : Nat) (q : Quality) : (s.setQuality cls i q).evHeld = s.evHeld := rfl
@[simp] theorem setQuality_evLost (s : State) (cls i : Nat) (q : Quality) : (s.setQuality cls i q).evLost = s.evLost := rfl
@[simp] theorem setQuality_led (s : State) (cls i : Nat) (q : Quality) : (s.setQuality cls i q).led = s.led := rfl
@[simp] theorem setQuality_md (s : State) (cls i : Nat) (q : Quality) : (s.setQuality cls i q).md = s.md := rfl
@[simp] theorem setQuality_engines (s : State) (cls i : Nat) (q : Quality) : (s.setQuality cls i q).engines = s.engines := rfl
@[simp] theorem setQuality_barriers (s : State) (cls i : Nat) (q : Quality) : (s.setQuality cls i q).barriers = s.barriers := rfl
@[simp] theorem setQuality_traps (s : State) (cls i : Nat) (q : Quality) : (s.setQuality cls i q).traps = s.traps := rfl
@[simp] theorem setQuality_la (s : State) (cls i : Nat) (q : Quality) : (s.setQuality cls i q).la = s.la := rfl
@[simp] theorem setQuality_fire (s : State) (cls i : Nat) (q : Quality) : (s.setQuality cls i q).fire = s.fire := rfl
@[simp] theorem setQuality_mot (s : State) (cls i : Nat) (q : Quality) : (s.setQuality cls i q).mot = s.mot := rfl
@[simp] theorem setQuality_insp (s : State) (cls i : Nat) (q : Quality) : (s.setQuality cls i q).insp = s.insp := rfl
@[simp] theorem setQuality_loops (s : State) (cls i : Nat) (q : Quality) : (s.setQuality cls i q).loops = s.loops := rfl
@[simp] theorem setQuality_tu (s : State) (cls i : Nat) (q : Quality) : (s.setQuality cls i q).tu = s.tu := rfl
@[simp] theorem setQuality_net (s : State) (cls i : Nat) (q : Quality) : (s.setQuality cls i q).net = s.net := rfl
@[simp] theorem setQuality_pair (s : State) (cls i : Nat) (q : Quality) : (s.setQuality cls i q).pair = s.pair := rfl
@[simp] theorem setQuality_ln (s : State) (cls i : Nat) (q : Quality) : (s.setQuality cls i q).ln = s.ln := rfl
@[simp] theorem setQuality_fl (s : State) (cls i : Nat) (q : Quality) : (s.setQuality cls i q).fl = s.fl := rfl
@[simp] theorem setQuality_th (s : State) (cls i : Nat) (q : Quality) : (s.setQuality cls i q).th = s.th := rfl
@[simp] theorem setQuality_gp (s : State) (cls i : Nat) (q : Quality) : (s.setQuality cls i q).gp = s.gp := rfl
@[simp] theorem setQuality_st (s : State) (cls i : Nat) (q : Quality) : (s.setQuality cls i q).st = s.st := rfl
@[simp] theorem setQuality_bnd (s : State) (cls i : Nat) (q : Quality) : (s.setQuality cls i q).bnd = s.bnd := rfl
@[simp] theorem setQuality_pending (s : State) (cls i : Nat) (q : Quality) : (s.setQuality cls i q).pending = s.pending := rfl

@[simp] theorem setCamPort_clk (s : State) (n : Nat) (x : CamPort) : (s.setCamPort n x).clk = s.clk := rfl
@[simp] theorem setCamPort_timeOff (s : State) (n : Nat) (x : CamPort) : (s.setCamPort n x).timeOff = s.timeOff := rfl
@[simp] theorem setCamPort_freeN (s : State) (n : Nat) (x : CamPort) : (s.setCamPort n x).freeN = s.freeN := rfl
@[simp] theorem setCamPort_regs (s : State) (n : Nat) (x : CamPort) : (s.setCamPort n x).regs = s.regs := rfl
@[simp] theorem setCamPort_mem (s : State) (n : Nat) (x : CamPort) : (s.setCamPort n x).mem = s.mem := rfl
@[simp] theorem setCamPort_out (s : State) (n : Nat) (x : CamPort) : (s.setCamPort n x).out = s.out := rfl
@[simp] theorem setCamPort_cat (s : State) (n : Nat) (x : CamPort) : (s.setCamPort n x).cat = s.cat := rfl
@[simp] theorem setCamPort_rings (s : State) (n : Nat) (x : CamPort) : (s.setCamPort n x).rings = s.rings := rfl
@[simp] theorem setCamPort_evHeld (s : State) (n : Nat) (x : CamPort) : (s.setCamPort n x).evHeld = s.evHeld := rfl
@[simp] theorem setCamPort_evLost (s : State) (n : Nat) (x : CamPort) : (s.setCamPort n x).evLost = s.evLost := rfl
@[simp] theorem setCamPort_led (s : State) (n : Nat) (x : CamPort) : (s.setCamPort n x).led = s.led := rfl
@[simp] theorem setCamPort_md (s : State) (n : Nat) (x : CamPort) : (s.setCamPort n x).md = s.md := rfl
@[simp] theorem setCamPort_engines (s : State) (n : Nat) (x : CamPort) : (s.setCamPort n x).engines = s.engines := rfl
@[simp] theorem setCamPort_barriers (s : State) (n : Nat) (x : CamPort) : (s.setCamPort n x).barriers = s.barriers := rfl
@[simp] theorem setCamPort_traps (s : State) (n : Nat) (x : CamPort) : (s.setCamPort n x).traps = s.traps := rfl
@[simp] theorem setCamPort_la (s : State) (n : Nat) (x : CamPort) : (s.setCamPort n x).la = s.la := rfl
@[simp] theorem setCamPort_fire (s : State) (n : Nat) (x : CamPort) : (s.setCamPort n x).fire = s.fire := rfl
@[simp] theorem setCamPort_mot (s : State) (n : Nat) (x : CamPort) : (s.setCamPort n x).mot = s.mot := rfl
@[simp] theorem setCamPort_loops (s : State) (n : Nat) (x : CamPort) : (s.setCamPort n x).loops = s.loops := rfl
@[simp] theorem setCamPort_tu (s : State) (n : Nat) (x : CamPort) : (s.setCamPort n x).tu = s.tu := rfl
@[simp] theorem setCamPort_net (s : State) (n : Nat) (x : CamPort) : (s.setCamPort n x).net = s.net := rfl
@[simp] theorem setCamPort_pair (s : State) (n : Nat) (x : CamPort) : (s.setCamPort n x).pair = s.pair := rfl
@[simp] theorem setCamPort_ln (s : State) (n : Nat) (x : CamPort) : (s.setCamPort n x).ln = s.ln := rfl
@[simp] theorem setCamPort_cal (s : State) (n : Nat) (x : CamPort) : (s.setCamPort n x).cal = s.cal := rfl
@[simp] theorem setCamPort_fl (s : State) (n : Nat) (x : CamPort) : (s.setCamPort n x).fl = s.fl := rfl
@[simp] theorem setCamPort_th (s : State) (n : Nat) (x : CamPort) : (s.setCamPort n x).th = s.th := rfl
@[simp] theorem setCamPort_gp (s : State) (n : Nat) (x : CamPort) : (s.setCamPort n x).gp = s.gp := rfl
@[simp] theorem setCamPort_st (s : State) (n : Nat) (x : CamPort) : (s.setCamPort n x).st = s.st := rfl
@[simp] theorem setCamPort_bnd (s : State) (n : Nat) (x : CamPort) : (s.setCamPort n x).bnd = s.bnd := rfl
@[simp] theorem setCamPort_pending (s : State) (n : Nat) (x : CamPort) : (s.setCamPort n x).pending = s.pending := rfl

@[simp] theorem setPipe_clk (s : State) (n : Nat) (x : Pipe) : (s.setPipe n x).clk = s.clk := rfl
@[simp] theorem setPipe_timeOff (s : State) (n : Nat) (x : Pipe) : (s.setPipe n x).timeOff = s.timeOff := rfl
@[simp] theorem setPipe_freeN (s : State) (n : Nat) (x : Pipe) : (s.setPipe n x).freeN = s.freeN := rfl
@[simp] theorem setPipe_regs (s : State) (n : Nat) (x : Pipe) : (s.setPipe n x).regs = s.regs := rfl
@[simp] theorem setPipe_mem (s : State) (n : Nat) (x : Pipe) : (s.setPipe n x).mem = s.mem := rfl
@[simp] theorem setPipe_out (s : State) (n : Nat) (x : Pipe) : (s.setPipe n x).out = s.out := rfl
@[simp] theorem setPipe_cat (s : State) (n : Nat) (x : Pipe) : (s.setPipe n x).cat = s.cat := rfl
@[simp] theorem setPipe_rings (s : State) (n : Nat) (x : Pipe) : (s.setPipe n x).rings = s.rings := rfl
@[simp] theorem setPipe_evHeld (s : State) (n : Nat) (x : Pipe) : (s.setPipe n x).evHeld = s.evHeld := rfl
@[simp] theorem setPipe_evLost (s : State) (n : Nat) (x : Pipe) : (s.setPipe n x).evLost = s.evLost := rfl
@[simp] theorem setPipe_led (s : State) (n : Nat) (x : Pipe) : (s.setPipe n x).led = s.led := rfl
@[simp] theorem setPipe_md (s : State) (n : Nat) (x : Pipe) : (s.setPipe n x).md = s.md := rfl
@[simp] theorem setPipe_engines (s : State) (n : Nat) (x : Pipe) : (s.setPipe n x).engines = s.engines := rfl
@[simp] theorem setPipe_barriers (s : State) (n : Nat) (x : Pipe) : (s.setPipe n x).barriers = s.barriers := rfl
@[simp] theorem setPipe_traps (s : State) (n : Nat) (x : Pipe) : (s.setPipe n x).traps = s.traps := rfl
@[simp] theorem setPipe_la (s : State) (n : Nat) (x : Pipe) : (s.setPipe n x).la = s.la := rfl
@[simp] theorem setPipe_fire (s : State) (n : Nat) (x : Pipe) : (s.setPipe n x).fire = s.fire := rfl
@[simp] theorem setPipe_mot (s : State) (n : Nat) (x : Pipe) : (s.setPipe n x).mot = s.mot := rfl
@[simp] theorem setPipe_loops (s : State) (n : Nat) (x : Pipe) : (s.setPipe n x).loops = s.loops := rfl
@[simp] theorem setPipe_tu (s : State) (n : Nat) (x : Pipe) : (s.setPipe n x).tu = s.tu := rfl
@[simp] theorem setPipe_net (s : State) (n : Nat) (x : Pipe) : (s.setPipe n x).net = s.net := rfl
@[simp] theorem setPipe_pair (s : State) (n : Nat) (x : Pipe) : (s.setPipe n x).pair = s.pair := rfl
@[simp] theorem setPipe_ln (s : State) (n : Nat) (x : Pipe) : (s.setPipe n x).ln = s.ln := rfl
@[simp] theorem setPipe_cal (s : State) (n : Nat) (x : Pipe) : (s.setPipe n x).cal = s.cal := rfl
@[simp] theorem setPipe_fl (s : State) (n : Nat) (x : Pipe) : (s.setPipe n x).fl = s.fl := rfl
@[simp] theorem setPipe_th (s : State) (n : Nat) (x : Pipe) : (s.setPipe n x).th = s.th := rfl
@[simp] theorem setPipe_gp (s : State) (n : Nat) (x : Pipe) : (s.setPipe n x).gp = s.gp := rfl
@[simp] theorem setPipe_st (s : State) (n : Nat) (x : Pipe) : (s.setPipe n x).st = s.st := rfl
@[simp] theorem setPipe_bnd (s : State) (n : Nat) (x : Pipe) : (s.setPipe n x).bnd = s.bnd := rfl
@[simp] theorem setPipe_pending (s : State) (n : Nat) (x : Pipe) : (s.setPipe n x).pending = s.pending := rfl

@[simp] theorem setGroup_clk (s : State) (g : Nat) (x : Group) : (s.setGroup g x).clk = s.clk := rfl
@[simp] theorem setGroup_timeOff (s : State) (g : Nat) (x : Group) : (s.setGroup g x).timeOff = s.timeOff := rfl
@[simp] theorem setGroup_freeN (s : State) (g : Nat) (x : Group) : (s.setGroup g x).freeN = s.freeN := rfl
@[simp] theorem setGroup_regs (s : State) (g : Nat) (x : Group) : (s.setGroup g x).regs = s.regs := rfl
@[simp] theorem setGroup_mem (s : State) (g : Nat) (x : Group) : (s.setGroup g x).mem = s.mem := rfl
@[simp] theorem setGroup_out (s : State) (g : Nat) (x : Group) : (s.setGroup g x).out = s.out := rfl
@[simp] theorem setGroup_cat (s : State) (g : Nat) (x : Group) : (s.setGroup g x).cat = s.cat := rfl
@[simp] theorem setGroup_rings (s : State) (g : Nat) (x : Group) : (s.setGroup g x).rings = s.rings := rfl
@[simp] theorem setGroup_evHeld (s : State) (g : Nat) (x : Group) : (s.setGroup g x).evHeld = s.evHeld := rfl
@[simp] theorem setGroup_evLost (s : State) (g : Nat) (x : Group) : (s.setGroup g x).evLost = s.evLost := rfl
@[simp] theorem setGroup_led (s : State) (g : Nat) (x : Group) : (s.setGroup g x).led = s.led := rfl
@[simp] theorem setGroup_md (s : State) (g : Nat) (x : Group) : (s.setGroup g x).md = s.md := rfl
@[simp] theorem setGroup_engines (s : State) (g : Nat) (x : Group) : (s.setGroup g x).engines = s.engines := rfl
@[simp] theorem setGroup_barriers (s : State) (g : Nat) (x : Group) : (s.setGroup g x).barriers = s.barriers := rfl
@[simp] theorem setGroup_traps (s : State) (g : Nat) (x : Group) : (s.setGroup g x).traps = s.traps := rfl
@[simp] theorem setGroup_la (s : State) (g : Nat) (x : Group) : (s.setGroup g x).la = s.la := rfl
@[simp] theorem setGroup_fire (s : State) (g : Nat) (x : Group) : (s.setGroup g x).fire = s.fire := rfl
@[simp] theorem setGroup_mot (s : State) (g : Nat) (x : Group) : (s.setGroup g x).mot = s.mot := rfl
@[simp] theorem setGroup_loops (s : State) (g : Nat) (x : Group) : (s.setGroup g x).loops = s.loops := rfl
@[simp] theorem setGroup_tu (s : State) (g : Nat) (x : Group) : (s.setGroup g x).tu = s.tu := rfl
@[simp] theorem setGroup_net (s : State) (g : Nat) (x : Group) : (s.setGroup g x).net = s.net := rfl
@[simp] theorem setGroup_pair (s : State) (g : Nat) (x : Group) : (s.setGroup g x).pair = s.pair := rfl
@[simp] theorem setGroup_ln (s : State) (g : Nat) (x : Group) : (s.setGroup g x).ln = s.ln := rfl
@[simp] theorem setGroup_cal (s : State) (g : Nat) (x : Group) : (s.setGroup g x).cal = s.cal := rfl
@[simp] theorem setGroup_fl (s : State) (g : Nat) (x : Group) : (s.setGroup g x).fl = s.fl := rfl
@[simp] theorem setGroup_th (s : State) (g : Nat) (x : Group) : (s.setGroup g x).th = s.th := rfl
@[simp] theorem setGroup_gp (s : State) (g : Nat) (x : Group) : (s.setGroup g x).gp = s.gp := rfl
@[simp] theorem setGroup_st (s : State) (g : Nat) (x : Group) : (s.setGroup g x).st = s.st := rfl
@[simp] theorem setGroup_bnd (s : State) (g : Nat) (x : Group) : (s.setGroup g x).bnd = s.bnd := rfl
@[simp] theorem setGroup_pending (s : State) (g : Nat) (x : Group) : (s.setGroup g x).pending = s.pending := rfl

@[simp] theorem ledPut_clk (s : State) (a v : Nat) : (s.ledPut a v).clk = s.clk := rfl
@[simp] theorem ledPut_timeOff (s : State) (a v : Nat) : (s.ledPut a v).timeOff = s.timeOff := rfl
@[simp] theorem ledPut_freeN (s : State) (a v : Nat) : (s.ledPut a v).freeN = s.freeN := rfl
@[simp] theorem ledPut_regs (s : State) (a v : Nat) : (s.ledPut a v).regs = s.regs := rfl
@[simp] theorem ledPut_mem (s : State) (a v : Nat) : (s.ledPut a v).mem = s.mem := rfl
@[simp] theorem ledPut_out (s : State) (a v : Nat) : (s.ledPut a v).out = s.out := rfl
@[simp] theorem ledPut_cat (s : State) (a v : Nat) : (s.ledPut a v).cat = s.cat := rfl
@[simp] theorem ledPut_rings (s : State) (a v : Nat) : (s.ledPut a v).rings = s.rings := rfl
@[simp] theorem ledPut_evHeld (s : State) (a v : Nat) : (s.ledPut a v).evHeld = s.evHeld := rfl
@[simp] theorem ledPut_evLost (s : State) (a v : Nat) : (s.ledPut a v).evLost = s.evLost := rfl
@[simp] theorem ledPut_md (s : State) (a v : Nat) : (s.ledPut a v).md = s.md := rfl
@[simp] theorem ledPut_engines (s : State) (a v : Nat) : (s.ledPut a v).engines = s.engines := rfl
@[simp] theorem ledPut_barriers (s : State) (a v : Nat) : (s.ledPut a v).barriers = s.barriers := rfl
@[simp] theorem ledPut_traps (s : State) (a v : Nat) : (s.ledPut a v).traps = s.traps := rfl
@[simp] theorem ledPut_la (s : State) (a v : Nat) : (s.ledPut a v).la = s.la := rfl
@[simp] theorem ledPut_fire (s : State) (a v : Nat) : (s.ledPut a v).fire = s.fire := rfl
@[simp] theorem ledPut_mot (s : State) (a v : Nat) : (s.ledPut a v).mot = s.mot := rfl
@[simp] theorem ledPut_insp (s : State) (a v : Nat) : (s.ledPut a v).insp = s.insp := rfl
@[simp] theorem ledPut_loops (s : State) (a v : Nat) : (s.ledPut a v).loops = s.loops := rfl
@[simp] theorem ledPut_tu (s : State) (a v : Nat) : (s.ledPut a v).tu = s.tu := rfl
@[simp] theorem ledPut_net (s : State) (a v : Nat) : (s.ledPut a v).net = s.net := rfl
@[simp] theorem ledPut_pair (s : State) (a v : Nat) : (s.ledPut a v).pair = s.pair := rfl
@[simp] theorem ledPut_ln (s : State) (a v : Nat) : (s.ledPut a v).ln = s.ln := rfl
@[simp] theorem ledPut_cal (s : State) (a v : Nat) : (s.ledPut a v).cal = s.cal := rfl
@[simp] theorem ledPut_fl (s : State) (a v : Nat) : (s.ledPut a v).fl = s.fl := rfl
@[simp] theorem ledPut_th (s : State) (a v : Nat) : (s.ledPut a v).th = s.th := rfl
@[simp] theorem ledPut_gp (s : State) (a v : Nat) : (s.ledPut a v).gp = s.gp := rfl
@[simp] theorem ledPut_st (s : State) (a v : Nat) : (s.ledPut a v).st = s.st := rfl
@[simp] theorem ledPut_bnd (s : State) (a v : Nat) : (s.ledPut a v).bnd = s.bnd := rfl
@[simp] theorem ledPut_pending (s : State) (a v : Nat) : (s.ledPut a v).pending = s.pending := rfl

@[simp] theorem ledAdd_clk (s : State) (a n : Nat) : (s.ledAdd a n).clk = s.clk := rfl
@[simp] theorem ledAdd_timeOff (s : State) (a n : Nat) : (s.ledAdd a n).timeOff = s.timeOff := rfl
@[simp] theorem ledAdd_freeN (s : State) (a n : Nat) : (s.ledAdd a n).freeN = s.freeN := rfl
@[simp] theorem ledAdd_regs (s : State) (a n : Nat) : (s.ledAdd a n).regs = s.regs := rfl
@[simp] theorem ledAdd_mem (s : State) (a n : Nat) : (s.ledAdd a n).mem = s.mem := rfl
@[simp] theorem ledAdd_out (s : State) (a n : Nat) : (s.ledAdd a n).out = s.out := rfl
@[simp] theorem ledAdd_cat (s : State) (a n : Nat) : (s.ledAdd a n).cat = s.cat := rfl
@[simp] theorem ledAdd_rings (s : State) (a n : Nat) : (s.ledAdd a n).rings = s.rings := rfl
@[simp] theorem ledAdd_evHeld (s : State) (a n : Nat) : (s.ledAdd a n).evHeld = s.evHeld := rfl
@[simp] theorem ledAdd_evLost (s : State) (a n : Nat) : (s.ledAdd a n).evLost = s.evLost := rfl
@[simp] theorem ledAdd_md (s : State) (a n : Nat) : (s.ledAdd a n).md = s.md := rfl
@[simp] theorem ledAdd_engines (s : State) (a n : Nat) : (s.ledAdd a n).engines = s.engines := rfl
@[simp] theorem ledAdd_barriers (s : State) (a n : Nat) : (s.ledAdd a n).barriers = s.barriers := rfl
@[simp] theorem ledAdd_traps (s : State) (a n : Nat) : (s.ledAdd a n).traps = s.traps := rfl
@[simp] theorem ledAdd_la (s : State) (a n : Nat) : (s.ledAdd a n).la = s.la := rfl
@[simp] theorem ledAdd_fire (s : State) (a n : Nat) : (s.ledAdd a n).fire = s.fire := rfl
@[simp] theorem ledAdd_mot (s : State) (a n : Nat) : (s.ledAdd a n).mot = s.mot := rfl
@[simp] theorem ledAdd_insp (s : State) (a n : Nat) : (s.ledAdd a n).insp = s.insp := rfl
@[simp] theorem ledAdd_loops (s : State) (a n : Nat) : (s.ledAdd a n).loops = s.loops := rfl
@[simp] theorem ledAdd_tu (s : State) (a n : Nat) : (s.ledAdd a n).tu = s.tu := rfl
@[simp] theorem ledAdd_net (s : State) (a n : Nat) : (s.ledAdd a n).net = s.net := rfl
@[simp] theorem ledAdd_pair (s : State) (a n : Nat) : (s.ledAdd a n).pair = s.pair := rfl
@[simp] theorem ledAdd_ln (s : State) (a n : Nat) : (s.ledAdd a n).ln = s.ln := rfl
@[simp] theorem ledAdd_cal (s : State) (a n : Nat) : (s.ledAdd a n).cal = s.cal := rfl
@[simp] theorem ledAdd_fl (s : State) (a n : Nat) : (s.ledAdd a n).fl = s.fl := rfl
@[simp] theorem ledAdd_th (s : State) (a n : Nat) : (s.ledAdd a n).th = s.th := rfl
@[simp] theorem ledAdd_gp (s : State) (a n : Nat) : (s.ledAdd a n).gp = s.gp := rfl
@[simp] theorem ledAdd_st (s : State) (a n : Nat) : (s.ledAdd a n).st = s.st := rfl
@[simp] theorem ledAdd_bnd (s : State) (a n : Nat) : (s.ledAdd a n).bnd = s.bnd := rfl
@[simp] theorem ledAdd_pending (s : State) (a n : Nat) : (s.ledAdd a n).pending = s.pending := rfl

@[simp] theorem ledSub_clk (s : State) (a n : Nat) : (s.ledSub a n).clk = s.clk := rfl
@[simp] theorem ledSub_timeOff (s : State) (a n : Nat) : (s.ledSub a n).timeOff = s.timeOff := rfl
@[simp] theorem ledSub_freeN (s : State) (a n : Nat) : (s.ledSub a n).freeN = s.freeN := rfl
@[simp] theorem ledSub_regs (s : State) (a n : Nat) : (s.ledSub a n).regs = s.regs := rfl
@[simp] theorem ledSub_mem (s : State) (a n : Nat) : (s.ledSub a n).mem = s.mem := rfl
@[simp] theorem ledSub_out (s : State) (a n : Nat) : (s.ledSub a n).out = s.out := rfl
@[simp] theorem ledSub_cat (s : State) (a n : Nat) : (s.ledSub a n).cat = s.cat := rfl
@[simp] theorem ledSub_rings (s : State) (a n : Nat) : (s.ledSub a n).rings = s.rings := rfl
@[simp] theorem ledSub_evHeld (s : State) (a n : Nat) : (s.ledSub a n).evHeld = s.evHeld := rfl
@[simp] theorem ledSub_evLost (s : State) (a n : Nat) : (s.ledSub a n).evLost = s.evLost := rfl
@[simp] theorem ledSub_md (s : State) (a n : Nat) : (s.ledSub a n).md = s.md := rfl
@[simp] theorem ledSub_engines (s : State) (a n : Nat) : (s.ledSub a n).engines = s.engines := rfl
@[simp] theorem ledSub_barriers (s : State) (a n : Nat) : (s.ledSub a n).barriers = s.barriers := rfl
@[simp] theorem ledSub_traps (s : State) (a n : Nat) : (s.ledSub a n).traps = s.traps := rfl
@[simp] theorem ledSub_la (s : State) (a n : Nat) : (s.ledSub a n).la = s.la := rfl
@[simp] theorem ledSub_fire (s : State) (a n : Nat) : (s.ledSub a n).fire = s.fire := rfl
@[simp] theorem ledSub_mot (s : State) (a n : Nat) : (s.ledSub a n).mot = s.mot := rfl
@[simp] theorem ledSub_insp (s : State) (a n : Nat) : (s.ledSub a n).insp = s.insp := rfl
@[simp] theorem ledSub_loops (s : State) (a n : Nat) : (s.ledSub a n).loops = s.loops := rfl
@[simp] theorem ledSub_tu (s : State) (a n : Nat) : (s.ledSub a n).tu = s.tu := rfl
@[simp] theorem ledSub_net (s : State) (a n : Nat) : (s.ledSub a n).net = s.net := rfl
@[simp] theorem ledSub_pair (s : State) (a n : Nat) : (s.ledSub a n).pair = s.pair := rfl
@[simp] theorem ledSub_ln (s : State) (a n : Nat) : (s.ledSub a n).ln = s.ln := rfl
@[simp] theorem ledSub_cal (s : State) (a n : Nat) : (s.ledSub a n).cal = s.cal := rfl
@[simp] theorem ledSub_fl (s : State) (a n : Nat) : (s.ledSub a n).fl = s.fl := rfl
@[simp] theorem ledSub_th (s : State) (a n : Nat) : (s.ledSub a n).th = s.th := rfl
@[simp] theorem ledSub_gp (s : State) (a n : Nat) : (s.ledSub a n).gp = s.gp := rfl
@[simp] theorem ledSub_st (s : State) (a n : Nat) : (s.ledSub a n).st = s.st := rfl
@[simp] theorem ledSub_bnd (s : State) (a n : Nat) : (s.ledSub a n).bnd = s.bnd := rfl
@[simp] theorem ledSub_pending (s : State) (a n : Nat) : (s.ledSub a n).pending = s.pending := rfl

@[simp] theorem ledMove_clk (s : State) (a b n : Nat) : (s.ledMove a b n).clk = s.clk := rfl
@[simp] theorem ledMove_timeOff (s : State) (a b n : Nat) : (s.ledMove a b n).timeOff = s.timeOff := rfl
@[simp] theorem ledMove_freeN (s : State) (a b n : Nat) : (s.ledMove a b n).freeN = s.freeN := rfl
@[simp] theorem ledMove_regs (s : State) (a b n : Nat) : (s.ledMove a b n).regs = s.regs := rfl
@[simp] theorem ledMove_mem (s : State) (a b n : Nat) : (s.ledMove a b n).mem = s.mem := rfl
@[simp] theorem ledMove_out (s : State) (a b n : Nat) : (s.ledMove a b n).out = s.out := rfl
@[simp] theorem ledMove_cat (s : State) (a b n : Nat) : (s.ledMove a b n).cat = s.cat := rfl
@[simp] theorem ledMove_rings (s : State) (a b n : Nat) : (s.ledMove a b n).rings = s.rings := rfl
@[simp] theorem ledMove_evHeld (s : State) (a b n : Nat) : (s.ledMove a b n).evHeld = s.evHeld := rfl
@[simp] theorem ledMove_evLost (s : State) (a b n : Nat) : (s.ledMove a b n).evLost = s.evLost := rfl
@[simp] theorem ledMove_md (s : State) (a b n : Nat) : (s.ledMove a b n).md = s.md := rfl
@[simp] theorem ledMove_engines (s : State) (a b n : Nat) : (s.ledMove a b n).engines = s.engines := rfl
@[simp] theorem ledMove_barriers (s : State) (a b n : Nat) : (s.ledMove a b n).barriers = s.barriers := rfl
@[simp] theorem ledMove_traps (s : State) (a b n : Nat) : (s.ledMove a b n).traps = s.traps := rfl
@[simp] theorem ledMove_la (s : State) (a b n : Nat) : (s.ledMove a b n).la = s.la := rfl
@[simp] theorem ledMove_fire (s : State) (a b n : Nat) : (s.ledMove a b n).fire = s.fire := rfl
@[simp] theorem ledMove_mot (s : State) (a b n : Nat) : (s.ledMove a b n).mot = s.mot := rfl
@[simp] theorem ledMove_insp (s : State) (a b n : Nat) : (s.ledMove a b n).insp = s.insp := rfl
@[simp] theorem ledMove_loops (s : State) (a b n : Nat) : (s.ledMove a b n).loops = s.loops := rfl
@[simp] theorem ledMove_tu (s : State) (a b n : Nat) : (s.ledMove a b n).tu = s.tu := rfl
@[simp] theorem ledMove_net (s : State) (a b n : Nat) : (s.ledMove a b n).net = s.net := rfl
@[simp] theorem ledMove_pair (s : State) (a b n : Nat) : (s.ledMove a b n).pair = s.pair := rfl
@[simp] theorem ledMove_ln (s : State) (a b n : Nat) : (s.ledMove a b n).ln = s.ln := rfl
@[simp] theorem ledMove_cal (s : State) (a b n : Nat) : (s.ledMove a b n).cal = s.cal := rfl
@[simp] theorem ledMove_fl (s : State) (a b n : Nat) : (s.ledMove a b n).fl = s.fl := rfl
@[simp] theorem ledMove_th (s : State) (a b n : Nat) : (s.ledMove a b n).th = s.th := rfl
@[simp] theorem ledMove_gp (s : State) (a b n : Nat) : (s.ledMove a b n).gp = s.gp := rfl
@[simp] theorem ledMove_st (s : State) (a b n : Nat) : (s.ledMove a b n).st = s.st := rfl
@[simp] theorem ledMove_bnd (s : State) (a b n : Nat) : (s.ledMove a b n).bnd = s.bnd := rfl
@[simp] theorem ledMove_pending (s : State) (a b n : Nat) : (s.ledMove a b n).pending = s.pending := rfl

/-! ### `State.at` touches the clock, the device time and the snapshot only -/

@[simp] theorem at_freeN (s : State) (t : Nat) : (s.at t).freeN = s.freeN := by
  unfold State.at; repeat' split
  all_goals rfl
@[simp] theorem at_regs (s : State) (t : Nat) : (s.at t).regs = s.regs := by
  unfold State.at; repeat' split
  all_goals rfl
@[simp] theorem at_mem (s : State) (t : Nat) : (s.at t).mem = s.mem := by
  unfold State.at; repeat' split
  all_goals rfl
@[simp] theorem at_out (s : State) (t : Nat) : (s.at t).out = s.out := by
  unfold State.at; repeat' split
  all_goals rfl
@[simp] theorem at_cat (s : State) (t : Nat) : (s.at t).cat = s.cat := by
  unfold State.at; repeat' split
  all_goals rfl
@[simp] theorem at_rings (s : State) (t : Nat) : (s.at t).rings = s.rings := by
  unfold State.at; repeat' split
  all_goals rfl
@[simp] theorem at_evHeld (s : State) (t : Nat) : (s.at t).evHeld = s.evHeld := by
  unfold State.at; repeat' split
  all_goals rfl
@[simp] theorem at_evLost (s : State) (t : Nat) : (s.at t).evLost = s.evLost := by
  unfold State.at; repeat' split
  all_goals rfl
@[simp] theorem at_md (s : State) (t : Nat) : (s.at t).md = s.md := by
  unfold State.at; repeat' split
  all_goals rfl
@[simp] theorem at_engines (s : State) (t : Nat) : (s.at t).engines = s.engines := by
  unfold State.at; repeat' split
  all_goals rfl
@[simp] theorem at_barriers (s : State) (t : Nat) : (s.at t).barriers = s.barriers := by
  unfold State.at; repeat' split
  all_goals rfl
@[simp] theorem at_traps (s : State) (t : Nat) : (s.at t).traps = s.traps := by
  unfold State.at; repeat' split
  all_goals rfl
@[simp] theorem at_la (s : State) (t : Nat) : (s.at t).la = s.la := by
  unfold State.at; repeat' split
  all_goals rfl
@[simp] theorem at_fire (s : State) (t : Nat) : (s.at t).fire = s.fire := by
  unfold State.at; repeat' split
  all_goals rfl
@[simp] theorem at_mot (s : State) (t : Nat) : (s.at t).mot = s.mot := by
  unfold State.at; repeat' split
  all_goals rfl
@[simp] theorem at_insp (s : State) (t : Nat) : (s.at t).insp = s.insp := by
  unfold State.at; repeat' split
  all_goals rfl
@[simp] theorem at_loops (s : State) (t : Nat) : (s.at t).loops = s.loops := by
  unfold State.at; repeat' split
  all_goals rfl
@[simp] theorem at_tu (s : State) (t : Nat) : (s.at t).tu = s.tu := by
  unfold State.at; repeat' split
  all_goals rfl
@[simp] theorem at_net (s : State) (t : Nat) : (s.at t).net = s.net := by
  unfold State.at; repeat' split
  all_goals rfl
@[simp] theorem at_pair (s : State) (t : Nat) : (s.at t).pair = s.pair := by
  unfold State.at; repeat' split
  all_goals rfl
@[simp] theorem at_ln (s : State) (t : Nat) : (s.at t).ln = s.ln := by
  unfold State.at; repeat' split
  all_goals rfl
@[simp] theorem at_cal (s : State) (t : Nat) : (s.at t).cal = s.cal := by
  unfold State.at; repeat' split
  all_goals rfl
@[simp] theorem at_fl (s : State) (t : Nat) : (s.at t).fl = s.fl := by
  unfold State.at; repeat' split
  all_goals rfl
@[simp] theorem at_th (s : State) (t : Nat) : (s.at t).th = s.th := by
  unfold State.at; repeat' split
  all_goals rfl
@[simp] theorem at_gp (s : State) (t : Nat) : (s.at t).gp = s.gp := by
  unfold State.at; repeat' split
  all_goals rfl
@[simp] theorem at_st (s : State) (t : Nat) : (s.at t).st = s.st := by
  unfold State.at; repeat' split
  all_goals rfl
@[simp] theorem at_bnd (s : State) (t : Nat) : (s.at t).bnd = s.bnd := by
  unfold State.at; repeat' split
  all_goals rfl
@[simp] theorem at_pending (s : State) (t : Nat) : (s.at t).pending = s.pending := by
  unfold State.at; repeat' split
  all_goals rfl
@[simp] theorem at_clk (s : State) (t : Nat) : (s.at t).clk = max s.clk t := by
  unfold State.at; repeat' split
  all_goals rfl

/-! ### Registers -/

theorem key_ne {f g : Fld} {i j : Nat} (h : f.addr * 32 + f.lsb ≠ g.addr * 32 + g.lsb) : f.key i ≠ g.key j := by
  unfold Fld.key
  omega

theorem key_ne_copy {f : Fld} {i j : Nat} (hi : i < 4096) (hj : j < 4096) (h : i ≠ j) : f.key i ≠ f.key j := by
  unfold Fld.key
  omega

/-- The field written holds the low bits of what was written. -/
@[simp] theorem rd_wr_self (s : State) (f : Fld) (i v : Nat) : (s.wr f i v).rd f i = low f.width v := by
  simp [State.rd, State.wr]

/-- Another field keeps its value. -/
theorem rd_wr_field (s : State) {f g : Fld} (i v j : Nat) (h : g.addr * 32 + g.lsb ≠ f.addr * 32 + f.lsb) :
    (s.wr f i v).rd g j = s.rd g j := by
  simp only [State.rd, State.wr]
  exact tbl_get_put_ne _ _ _ (key_ne h)

/-- Another copy keeps its value. -/
theorem rd_wr_copy (s : State) {f : Fld} {i j : Nat} (v : Nat) (hi : i < 4096) (hj : j < 4096) (h : j ≠ i) :
    (s.wr f i v).rd f j = s.rd f j := by
  simp only [State.rd, State.wr]
  exact tbl_get_put_ne _ _ _ (key_ne_copy hj hi h)

/-- A read depends on the registers alone. -/
theorem rd_congr {s t : State} (h : t.regs = s.regs) (f : Fld) (i : Nat) : t.rd f i = s.rd f i := by
  simp only [State.rd, h]

@[simp] theorem rd_emit (s : State) (e : Emit) (f : Fld) (i : Nat) : (s.emit e).rd f i = s.rd f i := rfl
@[simp] theorem rd_spend (s : State) (f : Fld) (i : Nat) : s.spend.rd f i = s.rd f i := rfl
@[simp] theorem rd_at (s : State) (t : Nat) (f : Fld) (i : Nat) : (s.at t).rd f i = s.rd f i := rd_congr (at_regs s t) f i
@[simp] theorem rd_setEng (s : State) (p : Nat) (e : Engine) (f : Fld) (i : Nat) : (s.setEng p e).rd f i = s.rd f i := rfl
@[simp] theorem rd_setRing (s : State) (n : Nat) (r : Ring) (f : Fld) (i : Nat) : (s.setRing n r).rd f i = s.rd f i := rfl

@[simp] theorem eng_setEng_self (s : State) (p : Nat) (e : Engine) : (s.setEng p e).eng p = e := by
  simp [State.eng, State.setEng]

theorem eng_setEng_ne (s : State) {p q : Nat} (e : Engine) (h : q ≠ p) : (s.setEng p e).eng q = s.eng q := by
  simp only [State.eng, State.setEng]
  exact tbl_get_put_ne _ _ _ h

end Sys2Proof.Laws
end

