-- ==== Sys2Proof/Tests/Slice0.lean ====
section
/-! SUPPORT. Tests: terms that WellFormed refuses; for every statement with hypotheses a state and operands that meet them; and results
the manual gives for single commands. -/

namespace Sys2Proof.Tests

open Sys2Proof.Machine

set_option maxRecDepth 20000
set_option synthInstance.maxSize 1000

/-! ### Builders of small states -/

/-- Entry bytes with these fields, `valid` set. -/
def entry (fs : List (EF × Nat)) : List Byte := leBytes 128 (fs.foldl (fun n f => n + f.2 <<< (8 * f.1.off + f.1.lsb)) (2 ^ 64))

/-- The device after reset with these register fields, and these entries in effect. -/
def device (rs : List (Fld × Nat × Nat)) (es : List (Nat × List (EF × Nat))) : State :=
  es.foldl (fun s e => { s with cat := { s.cat with inEffect := s.cat.inEffect.put e.1 (entry e.2) } })
    (rs.foldl (fun s r => s.wr r.1 r.2.1 r.2.2) State.reset)

/-- A field of `k` bytes at byte `o` of row record `i` of a plane entry (Table 4-8). -/
def rowF (i o k : Nat) : EF := ⟨44 + 14 * i + o, k, 0, 8 * k, false, none, 1⟩

/-- A plane of 256 columns whose print row is head slot 0 and whose spare row is head slot 1. -/
def plane : List (EF × Nat) :=
  [(PlaneE.columns, 256), (PlaneE.nPrint, 1), (PlaneE.nSpare, 1), (rowF 0 0 1, 1), (rowF 0 5 1, 0), (rowF 0 6 1, 0xFF), (rowF 0 9 3, 256),
    (rowF 1 0 1, 2), (rowF 1 5 1, 1), (rowF 1 6 1, 0xFF), (rowF 1 9 3, 256)]

/-- In IDLE, with nothing in the Catalog. -/
def idle : State := device [(Reg.MODE_CUR.mode, 0, modeIdle)] []

/-- An engine that has the capabilities `caps`, at pc 0x100, with g1 = `x` and g2 = `y`; slice 3 runs. -/
def scribe (caps x y : Nat) : State :=
  { device [(Reg.MODE_CUR.mode, 0, modeIdle), (Reg.SCRIBE_MAP.valid, 2, 1)] [(chScribe 0, [(ScribeE.caps, caps), (ScribeE.faultLimit, 3)])] with
    engines := [(0, { Engine.reset with g := [(1, BitVec.ofNat 64 x), (2, BitVec.ofNat 64 y)], pc := 0x100, running := some 3 })] }

/-! ### WellFormed refuses what no sender can spell -/

theorem test_wellFormed_engine : ∀ i ∈ [Instr.add 17 1 2 3, .lb 17 1 2 0 0, .jal 17 0, .sysEnd 17, .vadd 17 1 2 3, .illegalInstruction 17 0,
    .timeWaitExpiry 0 17 0, .sliceMaxExceeded 0 17], wellFormed i = false := by decide

theorem test_wellFormed_registers : ∀ i ∈ [Instr.add 0 32 0 0, .add 0 0 32 0, .add 0 0 0 32, .clz 0 1 32, .lui 0 32 0, .sd 0 32 0 0 0, .ld 0 0 32 0 0,
    .amo 0 0 0 0 32 0, .beq 0 32 0 0, .jalr 0 0 32 0, .ringStat 0 1 32, .vadd 0 16 0 0, .vadd 0 0 16 0, .vadd 0 0 0 16, .vsplat 0 0 32, .vextu 0 32 0 0,
    .vld 0 16 0 0 0], wellFormed i = false := by decide

theorem test_wellFormed_fields : ∀ i ∈ [Instr.bfx 0 1 2 3 0, .bfx 0 1 2 3 64, .addi 0 1 2 65536, .shi 0 1 2 256, .lb 0 1 2 8 0, .lb 0 1 2 0 8192, .amo 0 1 2 0 3 4,
    .beq 0 1 2 65536, .jal 0 (2 ^ 26), .lineStat 0 1 64, .sysCsrr 0 1 2048, .sysTrap 0 64, .vshl 0 1 2 16, .vins 0 1 2 16, .timeWaitExpiry 0 0 32,
    .registerWrite 0 18 0 4 0, .registerWrite 0 17 0 3 0, .registerWrite 0 17 0 4 (2 ^ 64), .rcRegisterRead 0 17 0 16, .catalogWindowWrite 0 (2 ^ 19) 0,
    .catInvalidate 0 4096, .ringProducerWrite 0 256 0, .ringConsumerWrite 0 0 (2 ^ 32), .powerReqWrite 0 4, .epochSchedule 0 16 false,
    .gpRunStart 0 (2 ^ 32), .groupRunWrite 0 4 0, .nozRetire 0 (2 ^ 23), .laneMove 0 64, .recalRequest 0 8 0], wellFormed i = false := by decide

theorem test_wellFormed_numbers : ∀ i ∈ [Instr.startOfScan 0 80, .lineDecode 0 16 0 0, .lineDecode 0 0 6 0, .credit 0 48 0, .lineOk 0 0 (2 ^ 66), .twinHb 0 51 (2 ^ 66) true, .thermalSweep 0 [], .stacksRequestServed 0 0 144,
    .stacksRequestServed 0 0 (256 * 144), .scribeRestart 0 16,
    .cameraLinkFail 0 16 true, .csi2Packet 0 0 32 0 0 true [], .groupTrigger 0 4, .frameEnd 0 16 true [] true, .servoPeriod 0 4, .holdDelayExpiry 0 16,
    .switchQualify 0 48 0 true, .indexEdge 0 8, .emulatorEdge 0 4, .timeNowLatch 0 18, .timeTriggerFire 0 64, .neighborSend 0 2, .stacksRequest 0 9 0 0 0 true [],
    .bankRefresh 0 64 0, .bankRefresh 0 0 48, .retrainWindow 0 0 256 0, .binderyCompress 0 16, .laneReady 0 52 0 0 [], .twinHb 0 52 0 false,
    .sensorConversion 0 48 0, .imgData 0 2 0 0 0 [], .supplyExcursion 0 10 0], wellFormed i = false := by decide

theorem test_wellFormed_admits : ∀ i ∈ [Instr.add 16 31 31 31, .bfx 0 1 2 3 63, .addi 0 1 2 65535, .lb 0 1 2 7 8191, .jal 0 (2 ^ 26 - 1), .vshl 15 15 15 15,
    .registerWrite 0 17 0 8 (2 ^ 64 - 1), .ringProducerWrite 0 255 (2 ^ 32 - 1), .startOfScan 0 79, .credit 0 47 0, .csi2Packet 0 15 31 0 0 true [],
    .switchQualify 0 47 0 true, .stacksRequest 0 8 0 0 0 true [], .retrainWindow 0 63 255 255, .laneReady 0 51 0 0 [], .supplyExcursion 0 9 0,
    .lineOk 0 47 (2 ^ 66 - 1), .thermalSweep 0 (List.replicate 48 0), .stacksRequestServed 0 63 (256 * 143 + 143)], wellFormed i = true := by decide

/-! ### Witnesses: the front of the queue, the canonical form, and the instructions -/

theorem witness_StepRunsFront : ({ idle with pending := [.lxReset 0 0, .coldStart 1] } : State).pending = .lxReset 0 0 :: [.coldStart 1] ∧ idle.pending = [] := by
  decide

theorem witness_StepKeepsSound : Sound idle ∧ step idle = .next idle := ⟨⟨by decide, by decide, by decide, by decide⟩, rfl⟩

theorem witness_StepConsumes : ∃ t, step { idle with pending := [.lxReset 7 0] } = .next t := ⟨_, rfl⟩

theorem witness_OnlyEngineNumberStops : (∀ p, engineOf (.sysEnd 16) = some p → p ≤ 16) ∧ engineOf (.sysEnd 17) = some 17 ∧ 16 < 17 := by
  refine ⟨fun p h => ?_, rfl, by decide⟩
  cases h; decide

theorem witness_FolioArithmetic : Runs (scribe 0 7 5) 0 ∧ Runs idle registrar := by unfold Runs; decide

theorem witness_FolioDivideSelectCount : Runs (scribe 0 7 0) 0 ∧ 1 ≤ 1 ∧ 63 ≤ 63 := by unfold Runs; decide

theorem witness_FolioImmediates : Runs (scribe 0 7 0) 0 ∧ 65535 < 65536 ∧ 63 < 64 ∧ 255 = 192 + 63 ∧ 64 = 64 + 0 ∧ 128 = 128 + 0 := by unfold Runs; decide

theorem witness_FolioLoadsLocal : 0x3F7F8 = ((scribe 0 0x3F7F8 0).gget 0 1 + (BitVec.ofNat 13 0).signExtend 64).toNat ∧ 0x3F7F8 < faultBase 0 + 0x400 ∧ 0x3F7F8 % 8 = 0 := by
  decide

theorem witness_FolioStoresLocal :
    0x3CFF8 = ((scribe 0 0x3D000 0).gget 0 1 + (BitVec.ofNat 13 8184).signExtend 64).toNat ∧ 0x3CFF8 + 8 ≤ contextBase 0 ∧
    0x3D000 = ((scribe 0 0x3D000 0).gget 0 1 + (BitVec.ofNat 13 0).signExtend 64).toNat ∧ contextBase 0 ≤ 0x3D000 ∧ 0 ≠ registrar ∧ 0x3D000 % 8 = 0 ∧
    contextBase registrar ≤ 0xFD000 ∧ 0xFD000 < sliceTable registrar := by decide

/-- Scribe 0 with window 1 of 64 bytes at Stacks address 0x1000, readable and writable. -/
def windowed : State :=
  { scribe 0 56 64 with cat := (device [] [(chScribe 0, [(⟨16, 8, 0, 64, false, none, 1⟩, 0x1000), (⟨24, 1, 0, 8, false, none, 1⟩, 6), (⟨25, 1, 0, 8, false, none, 1⟩, 3)])]).cat }

theorem witness_FolioWindows :
    Runs windowed 0 ∧ windowed.offset 0 1 0 = 56 ∧ 56 % 8 = 0 ∧ (windowed.window 0 1).log2 ≠ 0 ∧ 56 + 8 ≤ 2 ^ (windowed.window 0 1).log2 ∧
    (windowed.window 0 1).base + 56 + 8 ≤ stacksSize ∧ bit (windowed.window 0 1).rights 0 = true ∧ bit (windowed.window 0 1).rights 1 = true ∧
    windowed.offset 0 2 0 = 64 ∧ ((windowed.window 0 1).holds 64 8 && (windowed.window 0 1).rd) = false ∧
    ((windowed.window 0 7).holds 56 8 && (windowed.window 0 7).wr) = false := by unfold Runs; decide

theorem witness_FolioMisaligned : Runs (scribe 0 31 0) 0 ∧ (scribe 0 31 0).offset 0 1 0 = 31 ∧ 31 % 2 ≠ 0 ∧ 31 % 4 ≠ 0 ∧ 31 % 8 ≠ 0 ∧ 31 % 32 ≠ 0 ∧ 15 % 32 < 16 ∧ 3 % 8 < 4 := by
  unfold Runs; decide

theorem witness_FolioFaultRecord : 15 < 16 ∧ ((scribe 0 0 0).eng 0).running = some 3 ∧ 15 < 16 ∧ 15 ≠ 4 ∧
    (((scribe 0 0 0).clk :: ((scribe 0 0 0).eng 0).faultTimes).filter (fun t => decide ((scribe 0 0 0).clk < t + secU))).length <
      (scribe 0 0 0).ent (chScribe 0) ScribeE.faultLimit := by decide

theorem witness_FolioAtomic : Runs (scribe 0 0x3CFF8 5) 0 ∧ (scribe 0 0x3CFF8 5).offset 0 1 0 = 0x3CFF8 ∧ 0x3CFF8 % 8 = 0 ∧ 0x3CFF8 + 8 ≤ contextBase 0 ∧ 3 ≤ 3 ∧ 4 ≤ 4 ∧ 7 ≤ 7 := by
  unfold Runs; decide

theorem witness_FolioBranches : Runs (scribe 0 7 7) 0 ∧ 0 ≤ ((scribe 0 7 7).pcOf 0 : Int) + 4 * (BitVec.ofNat 16 0xFFC0).toInt ∧
    (((scribe 0 7 7).pcOf 0 : Int) + 4 * (BitVec.ofNat 16 0xFFC0).toInt).toNat < contextBase 0 ∧ (scribe 0 7 7).gget 0 1 = (scribe 0 7 7).gget 0 2 := by
  unfold Runs; decide

theorem witness_FolioJumps : Runs (scribe 0 0x3CFFC 0) 0 ∧ ((0 : Nat) : Int) = ((scribe 0 0x3CFFC 0).pcOf 0 : Int) + 4 * (BitVec.ofNat 26 (2 ^ 26 - 64)).toInt ∧
    0x3CFFC = ((scribe 0 0x3CFFC 0).gget 0 1 + (BitVec.ofNat 16 0).signExtend 64).toNat ∧ 0x3CFFC % 4 = 0 ∧ 0x3CFFC < contextBase 0 ∧
    0x3CFFD = ((scribe 0 0x3CFFC 0).gget 0 1 + (BitVec.ofNat 16 1).signExtend 64).toNat ∧ 0x3CFFD % 4 ≠ 0 := by unfold Runs; decide

theorem witness_FolioIllegal : Runs (scribe 0 0 0) 0 ∧ 256 ≤ 256 ∧ 65535 < 65536 ∧ 16 ≤ 16 ∧ 31 < 32 ∧ 16 ≤ 16 ∧ 63 < 64 := by unfold Runs; decide

theorem witness_FolioVectorArithmetic : Runs (scribe 0 0 0) 0 ∧ 15 < 16 := by unfold Runs; decide
theorem witness_FolioVectorLogic : Runs (scribe 0 0 0) 0 ∧ 0 < 16 ∧ 15 < 16 := by unfold Runs; decide
theorem witness_FolioVectorRegisters : Runs (scribe 0 0 0) 0 ∧ 15 < 16 := by unfold Runs; decide

theorem witness_FolioVectorMemory : Runs (scribe 0 0x3F7E0 0x3CFE0) 0 ∧ 15 < 16 ∧ (scribe 0 0x3F7E0 0x3CFE0).offset 0 1 0 = 0x3F7E0 ∧ 0x3F7E0 % 32 = 0 ∧
    0x3F7E0 < faultBase 0 + 0x400 ∧ (scribe 0 0x3F7E0 0x3CFE0).offset 0 2 0 = 0x3CFE0 ∧ 0x3CFE0 % 32 = 0 ∧ 0x3CFE0 + 32 ≤ contextBase 0 := by unfold Runs; decide

/-- Scribe 0, logical 0, whose g1 is `n` and g2 is local offset 0x200, with ring 0x10 of 16 descriptors in the Reading Room, from Scribe 0 to Scribe 0,
holding `k` of them, the oldest of one before in flight. -/
def ringed (n k : Nat) : State :=
  { scribe 0x3F n 0x200 with
    cat := (device [] [(chScribe 0, [(ScribeE.caps, 0x3F)]), (chRing 0x10, [(RingE.base, rrBase), (RingE.log2Size, 4), (RingE.direction, 3)])]).cat
    rings := [(0x10, { Ring.reset with prod := k + 1, cons := 1, flight := [(0, 0)] })] }

theorem witness_FolioRings :
    Runs (ringed 0x10 3) 0 ∧ 256 ≤ (ringed 256 0).gnum 0 1 ∧ (ringed 0x10 3).gnum 0 1 = 0x10 ∧ 0x10 < 256 ∧ localFits 0 ((ringed 0x10 3).gnum 0 2) 32 = true ∧
    (ringed 0x10 3).ringUp 0x10 = true ∧ (ringed 0x10 3).ent (chRing 0x10) RingE.producer = (ringed 0x10 3).agent 0 ∧ (ringed 0x10 3).ringFull 0x10 = false ∧
    (ringed 0x10 16).ringFull 0x10 = true ∧ localTakes 0 ((ringed 0x10 3).gnum 0 2) 32 = true ∧
    (ringed 0x10 3).ent (chRing 0x10) RingE.consumer = (ringed 0x10 3).agent 0 ∧ (ringed 0x10 3).ringHolds 0x10 ≠ 0 ∧
    (2 ^ 32 + 0) / 2 ^ 32 = 1 ∧ ((2 ^ 32 + 0) % 2 ^ 32, (ringed 0x10 3).agent 0) ∈ ((ringed 0x10 3).ring 0x10).flight ∧
    areaOf ((ringed 0x10 3).descAddr 0x10 4) = .readingRoom ∧ (ringed 0x10 3).descAddr 0x10 4 + 32 ≤ rrBase + rrSize := by unfold Runs; decide

theorem witness_RingCompletion : ((ringed 0x10 3).ring 0x10).flight.any (fun x => x.1 == 0) = true ∧ (ringed 0x10 3).entOn (chRing 0x10) RingE.irqEn = false ∧
    0 < (({ ringed 0x10 3 with led := { Ledger.reset with live := [(Led.descInFlight 0x10, 1)] } } : State)).ledGet (Led.descInFlight 0x10) ∧
    areaOf ((ringed 0x10 3).descAddr 0x10 0) = .readingRoom ∧ (ringed 0x10 3).descAddr 0x10 0 + 32 ≤ rrBase + rrSize := by decide

theorem witness_FolioReads : Runs (scribe 0 (7 + 8 * 79 + 4096) (3 + 8 * 255 + 16384)) 0 ∧ (scribe 0 1 0).led.final = none ∧
    (scribe 0 (7 + 8 * 79 + 4096) 0).gnum 0 1 = 7 + 8 * 79 + 4096 ∧ (scribe 0 0 (3 + 8 * 255 + 16384)).gnum 0 2 = 3 + 8 * 255 + 16384 ∧ (scribe 0 255 0).gnum 0 1 < 256 ∧
    (scribe 0 4095 0).gnum 0 1 < 4096 ∧ Runs idle registrar := by unfold Runs; decide

/-- Scribe 0 with all capabilities and g1 = x, g2 = y, in a device with plane 0. -/
def lined (caps x y : Nat) : State :=
  { scribe caps x y with
    cat := (device [] [(chScribe 0, [(ScribeE.caps, caps)]), (chPlane 0, plane)]).cat
    la := { Raster.reset with jobs := [{ idx := 0, id := 9, base := 0, policy := 1, ended := none, planes := 1 }] } }

theorem witness_FolioReadsLine : Runs (lined 4 0 0) 0 ∧ (lined 4 0 0).la.jobs.getLast?.isSome = true ∧ nozzleAt (lined 4 (5 * 65536) 0) ((lined 4 (5 * 65536) 0).gnum 0 1 % 2 ^ 23) = none ∧
    nozzleAt (lined 4 255 0) ((lined 4 255 0).gnum 0 1 % 2 ^ 23) = some (0, 0, 255) ∧ (lined 4 15 65520).cap 0 2 = true ∧ (lined 4 15 65520).gnum 0 1 < 16 ∧
    (lined 4 127 65520).gnum 0 2 % 16 = 0 ∧ (lined 4 127 65520).gnum 0 2 ≤ 65520 ∧ (lined 0 0 0).cap 0 2 = false := by unfold Runs; decide

theorem witness_FolioDeviceActs :
    (lined 0x3F 0 0).cap 0 5 = true ∧ (lined 0x3F 0 0).on Reg.LEDGER_SNAP.snap_busy = false ∧ (lined 0 0 0).cap 0 5 = false ∧ (lined 0x3F 15 0x3CFC0).cap 0 2 = true ∧
    localTakes 0 ((lined 0x3F 15 0x3CFC0).gnum 0 2) 64 = true ∧ ((lined 0x3F 15 0x3CFC0).pipe 15).regions = [] ∧ (lined 0x3F 4095 0).gnum 0 1 < 4096 ∧
    (lined 0x80 4095 0).cap 0 7 = true ∧ (lined 0x3F 0 0).cap 0 0 = true ∧ (lined 0x3F 0 0).mode ≠ modeShadow ∧ (lined 0x3F 0 (2 ^ 48 - 1)).gnum 0 2 < 2 ^ 48 ∧
    (lined 0x3F 15 0x3CFE0).cap 0 3 = true ∧ localFits 0 ((lined 0x3F 15 0x3CFE0).gnum 0 2) 32 = true := by decide

theorem witness_TIME_ARM : (lined 0x3F 61 5).cap 0 4 = true ∧ (lined 0x3F 61 5).gnum 0 1 < 62 ∧
    (({ lined 0x3F 61 5 with cat := (device [] [(chScribe 0, [(ScribeE.caps, 0x3F)]), (chTrig 61, [(TrigE.trigEn, 1)])]).cat } : State)).entOn (chTrig 61) TrigE.trigEn = true := by decide

/-- With a job open and line 7 decoded in both rows of plane 0. -/
def jobOpened : State := { (lined 0x3F 0 0).wr Reg.LA_STATUS.job_open 0 1 with la := { (lined 0x3F 0 0).la with rowDone := [(0, 7), (1, 7)] } }

theorem witness_Substitutions : substSetOk jobOpened 255 (65536 + 255) 7 = some (0, 0, 255, 0) ∧ jobOpened.on Reg.LA_STATUS.job_open = true ∧
    substSetOk jobOpened 255 (65536 + 254) 7 = none ∧ nozzleAt jobOpened 255 = some (0, 0, 255) ∧ notAssembled jobOpened 0 0 (substLine jobOpened 6) = false ∧
    nozzleAt jobOpened (65536 + 254) = some (0, 1, 254) ∧
    64 ≤ (({ jobOpened with la := { jobOpened.la with changes := List.replicate 64 { isSet := true, plane := 0, col := 0, spare := 0, row := 0, line := 9 } } } : State)).la.changes.length := by
  decide

theorem witness_FolioSync :
    Runs (scribe 0x40 31 64) 0 ∧ (scribe 0x40 31 64).cap 0 6 = true ∧ (scribe 0x40 31 64).gnum 0 1 < 32 ∧ 1 ≤ (scribe 0x40 31 64).gnum 0 2 ∧ (scribe 0x40 31 64).gnum 0 2 ≤ 64 ∧
    (scribe 0 31 64).cap 0 6 = false ∧ ((scribe 0 31 0).barrier 31).count + 1 ≠ ((scribe 0 31 0).barrier 31).participants ∧
    ((({ scribe 0 31 0 with barriers := [(31, { participants := 1, count := 0, gen := 9 })] } : State)).barrier 31).count + 1 = 1 ∧
    ((scribe 0 31 1).barrier 31).gen ≠ (scribe 0 31 1).gnum 0 2 ∧ ((scribe 0 31 0).barrier 31).gen = (scribe 0 31 0).gnum 0 2 ∧
    ((scribe 0 31 0).eng 0).running = some 3 ∧ 3 ≠ 31 ∧ (scribe 0x40 2 31).physOf 2 = some 0 ∧ (scribe 0x40 2 31).gnum 0 2 < 32 ∧ 63 < 64 ∧ 0 ≠ registrar ∧
    1 ≤ 7 ∧ 7 ≤ 7 ∧ Runs idle registrar := by unfold Runs; decide

theorem witness_FolioRunEnds :
    Runs (scribe 0 31 0) 0 ∧ ((scribe 0 31 0).eng 0).running = some 3 ∧ (scribe 0 31 0).devNs < (scribe 0 31 0).gnum 0 1 ∧ (scribe 0 0 0).gnum 0 1 ≤ (scribe 0 0 0).devNs ∧
    (scribe 0 31 0).gnum 0 1 < 32 ∧ (scribe 0 31 0).sliceTrig 0 31 ≠ 1 ∧
    (∃ s : State, (((s.at 0).slice 0 4).wait = .time 0 ∧ 0 ≤ (s.at 0).devNs ∧ ((s.at 0).slice 0 4).since = none)) ∧
    ((scribe 0 0 0).eng 0).runAt + (scribe 0 0 0).sliceMax 0 3 * 65536 < max (scribe 0 0 0).clk 1 ∧
    max (scribe 0 0 0).clk 0 ≤ ((scribe 0 0 0).eng 0).runAt + (scribe 0 0 0).sliceMax 0 3 * 65536 := by
  refine ⟨by unfold Runs; decide, by decide, by decide, by decide, by decide, by decide,
    ⟨{ idle with engines := [(0, { Engine.reset with slices := [(4, { Slice.reset with wait := .time 0 })] })] }, by decide⟩, by decide, by decide⟩

/-! ### Witnesses: registers, the Catalog, the Ledger and rings -/

theorem witness_RegisterReads :
    reaches (idle.at 5) 17 (Reg.INSP_PORT_ERR.crc_err.addr + 2) = true ∧ (Reg.INSP_PORT_ERR.crc_err.addr + 2) % 2 = 0 ∧
    reaches ((State.reset.at 5)) 17 Reg.LA_WM_RED.wm_red.addr = false ∧ 0x20002 % 4 ≠ 0 := by decide

theorem witness_RegisterWrites :
    reaches (idle.at 5) 17 Reg.LA_WM_RED.wm_red.addr = true ∧ Reg.LA_WM_RED.wm_red.addr % 4 = 0 ∧ Reg.LA_WM_RED.wm_red.addr < bar2 ∧ ownRow Reg.LA_WM_RED.wm_red.addr = false ∧
    regTakes (idle.at 5) Reg.LA_WM_RED.wm_red.addr 250 (regFields (idle.at 5) Reg.LA_WM_RED.wm_red.addr) = true ∧
    regForbids (idle.at 5) Reg.LA_WM_RED.wm_red.addr 1500 = true ∧
    Reg.FS_SOS_CHECK.miss_mult ∈ regTable ∧ Reg.FS_SOS_CHECK.miss_mult.bank = .one ∧ Reg.FS_SOS_CHECK.miss_mult.acc = .rw ∧
    Reg.FS_SOS_CHECK.miss_mult.inRange (bits 0 Reg.FS_SOS_CHECK.miss_mult.lsb Reg.FS_SOS_CHECK.miss_mult.width) = false := by decide

/-- The bytes of an entry with its check over them (R24). -/
def checked (fs : List (EF × Nat)) : List Byte := (entry fs).take 12 ++ leBytes 4 (entryCheck (entry fs)) ++ (entry fs).drop 16

/-- A Scribe entry as it stands in the table, whose Scribe runs slice 3 when `busy`, with two fetches of it asked for. -/
def fetching (busy : Bool) : State :=
  { idle with
    mem := Mem.write [] (entryAddr idle (chScribe 1)) (checked [(HdrE.channel, chScribe 1), (HdrE.cls, 0x0E), (HdrE.layout, 1), (HdrE.generation, 7), (ScribeE.faultLimit, 3)])
    cat := { Catalog.reset with fetches := [(chScribe 1, 2)] }
    engines := [(1, { Engine.reset with running := if busy then some 3 else none })] }

theorem witness_CatalogFetches :
    bar2Open State.reset = false ∧ bar2Open idle = true ∧ classOf 0x50 = none ∧ catFixed (chRing 15) = true ∧ classOf (chRing 5) ≠ none ∧ catFixed (chRing 5) = false ∧
    chRing 255 < 4096 ∧ Tbl.find idle.cat.fetches (chRing 5) = none ∧ Tbl.find (fetching true).cat.fetches (chScribe 1) = some 2 ∧
    entryOk ((fetching true).at 5) (chScribe 2) (((fetching true).at 5).peekBytes (entryAddr (fetching true) (chScribe 2)) 128) = false ∧
    entryOk { ((fetching true).at 5) with cat := { (fetching true).cat with fetches := [(chScribe 1, 1)] } } (chScribe 1)
      (((fetching true).at 5).peekBytes (entryAddr (fetching true) (chScribe 1)) 128) = true ∧
    catWaits (fetching true) (chScribe 1) = true ∧ catWaits (fetching false) (chScribe 1) = false := by decide

theorem witness_CatalogWindowAndLocks :
    HdrE.hostRo.on ((({ idle with mem := Mem.write [] (entryAddr idle 3 + 8) [2] } : State)).peekBytes (entryAddr idle ((128 * 3 + 124) / 128)) 128) = true ∧
    chRing 6 ≤ 128 * chRing 6 / 128 ∧ 128 * chRing 6 / 128 ≤ chRing 15 ∧ mirroredChan 0 = true ∧
    HdrE.hostRo.on (idle.peekBytes (entryAddr idle ((catSize - 4) / 128)) 128) = false ∧ ¬(chRing 6 ≤ (catSize - 4) / 128 ∧ (catSize - 4) / 128 ≤ chRing 15) ∧
    idle.mode ≠ modeShadow ∧ (catSize - 4) % 4 = 0 ∧ catSize - 4 < catSize ∧ catBase idle + catSize ≤ stacksSize ∧ idle.frozen = false ∧ hostOpen idle = true ∧
    bar2Open idle = true := by decide

/-- A snapshot asked for at instant 0, and the counters `c` taken at line 9. -/
def snapping (c : Tbl Nat) : State := { idle with led := { Ledger.reset with asked := some 0, taken := some (c, 9, false), seqStarted := 4 } }

theorem witness_LedgerSnapshots :
    bar2Open idle = true ∧ (idle.at 5).on Reg.LEDGER_SNAP.snap_busy = false ∧ (idle.wr Reg.LEDGER_SNAP.snap_busy 0 1).on Reg.LEDGER_SNAP.snap_busy = true ∧
    (snapping [] |>.at 5).led.taken = some ([], 9, false) ∧ 9 < 2 ^ 48 ∧ ledBroken [] = [] ∧ ledBroken [(Led.linesOffered 79, 1)] = [(1, chSlot 79)] ∧
    (∃ s : State, s.led.taken = none ∧ s.led.asked = some 0 ∧ s.clk < 0 + 10 * usU) ∧
    ((ringed 0x10 3).ring 0x10).held = false := by
  refine ⟨by decide, by decide, by decide, by decide, by decide, by decide, by decide, ⟨{ idle with led := { Ledger.reset with asked := some 0 } }, by decide⟩, by decide⟩

theorem witness_IRQ_HOLDOFF_EXPIRY : ∃ s : State, (s.ring 1).held = true ∧ holdoffPassed (s.at (50 * usU)) 1 (s.ring 1) = true ∧ s.entOn (chRing 1) RingE.irqEn = true ∧
    s.on Reg.MSIX.mask 1 = false ∧ (s.wr Reg.MSIX.mask 1 1).on Reg.MSIX.mask 1 = true :=
  ⟨{ (device [(Reg.MSIX.mask, 1, 0)] [(chRing 1, [(RingE.irqEn, 1), (RingE.irqHoldoff, 50)])]) with rings := [(1, { Ring.reset with held := true, lastMsi := some 0 })] }, by decide⟩

/-- Ring 0xFF of 16 descriptors with this direction, at these indices. -/
def belled (dir prod cons : Nat) : State :=
  { device [(Reg.MODE_CUR.mode, 0, modeIdle)] [(chRing 0xFF, [(RingE.base, rrBase), (RingE.log2Size, 4), (RingE.direction, dir), (RingE.consumer, ownerRegistrar)])] with
    rings := [(0xFF, { Ring.reset with prod := prod, cons := cons })] }

theorem witness_Doorbells :
    bar2Open idle = true ∧ idle.ringUp 0xFF = false ∧ (belled 1 0 0).ringUp 0xFF = true ∧ (belled 1 0 0).ent (chRing 0xFF) RingE.direction = 1 ∧
    diff32 8 ((belled 1 (2 ^ 32 - 8) (2 ^ 32 - 8)).ring 0xFF).prod ≤ (belled 1 0 0).ringSize 0xFF ∧ (belled 1 0 0).ringSize 0xFF < diff32 9 ((belled 1 (2 ^ 32 - 8) (2 ^ 32 - 8)).ring 0xFF).prod ∧
    (belled 1 0 0).ringSize 0xFF < diff32 (2 ^ 32 - 9) ((belled 1 (2 ^ 32 - 8) (2 ^ 32 - 8)).ring 0xFF).prod ∧
    (belled 2 0 0).ent (chRing 0xFF) RingE.direction = 2 ∧ diff32 3 ((belled 2 3 0).ring 0xFF).cons ≤ (belled 2 3 0).ringHolds 0xFF ∧
    (belled 2 3 0).ringHolds 0xFF < diff32 4 ((belled 2 3 0).ring 0xFF).cons := by decide

/-- The bytes of a descriptor: address, length, opcode, chain. -/
def descBytes (a n op : Nat) (chain : Bool) : List Byte := leBytes 8 a ++ leBytes 4 n ++ leBytes 2 op ++ [if chain then 2 else 0]

/-- Intake ring 0xFF that holds two descriptors. -/
def intake (d e : List Byte) : State := { belled 1 2 0 with mem := Mem.write (Mem.write [] rrBase d) (rrBase + 32) e }

theorem witness_IntakeDescriptors :
    intakeReady (intake (descBytes 0 0 7 false) []) 0xFF = true ∧ ((intake (descBytes 0 0 7 false) []).desc 0xFF 0).opcode = 7 ∧
    ((intake (descBytes hostBit 64 0x0101 false) []).desc 0xFF 0).chain = false ∧
    (let s := intake (descBytes hostBit 64 0x0101 true) (descBytes (catBase idle - 64) 0 0x0100 false)
     (s.desc 0xFF 0).opcode = 0x0101 ∧ (s.desc 0xFF 0).chain = true ∧ 2 ≤ s.ringHolds 0xFF ∧ (s.desc 0xFF 1).opcode = 0x0100 ∧
       liesIn (s.desc 0xFF 0).addr (s.desc 0xFF 0).length .host = true ∧ areaOf (s.desc 0xFF 0).addr = .host ∧ (s.desc 0xFF 1).addr + 64 ≤ stacksSize ∧
       overlap (s.desc 0xFF 1).addr 64 (catBase s) catSize = false ∧ s.mode ≠ modeShadow ∧ s.frozen = false) ∧
    stacksSize < ((intake (descBytes hostBit 64 0x0101 true) (descBytes (stacksSize - 63) 0 0x0100 false)).desc 0xFF 1).addr + 64 ∧
    areaOf ((intake (descBytes 64 64 0x0101 true) []).desc 0xFF 0).addr ≠ .host ∧
    ((intake (descBytes (catBase idle - 4) 9 0x0102 false) []).desc 0xFF 0).addr + 4 ≤ stacksSize ∧ (catBase idle - 4) % 4 = 0 ∧ overlap (catBase idle - 3) 4 (catBase idle) catSize = true ∧ overlap (catBase idle - 4) 4 (catBase idle) catSize = false ∧
    Tbl.find idle.la.copying 0xFF = none := by decide

/-! ### Witnesses: modes, epochs, lines and heads -/

theorem witness_PowerStates :
    State.reset.mode ≠ modeIdle ∧ idle.on Reg.MODE_CUR.power_busy = false ∧ 2 < 3 ∧ 3 ≤ 3 ∧ idle.rd Reg.MODE_CUR.power = 0 ∧
    (let s := device [(Reg.MODE_CUR.mode, 0, modeIdle), (Reg.MODE_CUR.power_busy, 0, 1), (Reg.MODE_CUR.power, 0, 1)] []
     s.on Reg.MODE_CUR.power_busy = true ∧ s.rd Reg.MODE_CUR.power = 1 ∧ s.md.powerTo = 0 ∧ s.md.powerAgain = false) ∧
    (let s := { device [(Reg.MODE_CUR.mode, 0, modeIdle), (Reg.MODE_CUR.power_busy, 0, 1)] [] with md := { Modes.reset with powerTo := 2 } }
     s.on Reg.MODE_CUR.power_busy = true ∧ s.rd Reg.MODE_CUR.power = 0 ∧ s.md.powerTo ≠ 0 ∧ s.md.powerTo < 3) ∧
    (let s := { device [(Reg.MODE_CUR.power_busy, 0, 1), (Reg.MODE_CUR.power, 0, 1)] [] with md := { Modes.reset with powerTo := 2, powerAgain := true } }
     s.on Reg.MODE_CUR.power_busy = true ∧ s.rd Reg.MODE_CUR.power = 1 ∧ s.md.powerTo = 2 ∧ s.md.powerAgain = true) := by decide

/-- In IDLE with this state of the last epoch and EPOCH_TIME at 2,000,000 ns. -/
def epoched (state : Nat) : State := device [(Reg.MODE_CUR.mode, 0, modeIdle), (Reg.EPOCH_STATUS.state, 0, state), (Reg.EPOCH_TIME_NS.ep_ns, 0, 2000000),
  (Reg.RING_NODE.learned, 0, 1), (Reg.EPOCH_STATUS.ep_target, 0, modeService)] []

theorem witness_EpochCommands :
    hostOpen (epoched 0) = true ∧ nodeNow (epoched 0) < 2 ^ 14 ∧ nodeNow idle < 2 ^ 14 ∧ (epoched 0).rd Reg.EPOCH_STATUS.state ≠ 1 ∧ (epoched 1).rd Reg.EPOCH_STATUS.state = 1 ∧
    (epoched 2).rd Reg.EPOCH_STATUS.state = 2 ∧ (epoched 4).rd Reg.EPOCH_STATUS.state = 4 ∧ epochAllowed (epoched 0).mode modePrint = true ∧
    epochAllowed (epoched 0).mode modeStop = false ∧ ((epoched 0).at (1980000 * nsU)).devTime + 20 * usU ≤ epochTime (epoched 0) ∧
    epochTime (epoched 0) < ((epoched 0).at (1980001 * nsU)).devTime + 20 * usU ∧ ((epoched 0).at 0).devTime + 2 * msU ≤ epochTime (epoched 0) ∧
    epochTime (epoched 0) < ((epoched 0).at 1).devTime + 2 * msU ∧ (epoched 0).on Reg.RING_NODE.learned = true ∧ (epoched 0).on Reg.RING_NODE.node_dup = false ∧
    (epoched 0).md.tripped = false ∧ bit (2 ^ 31 + 2 ^ 30) 31 = true ∧ bit (2 ^ 31 + 2 ^ 30) 30 = true ∧ bit (2 ^ 31 + 9) 30 = false ∧ 2 ^ 31 + 2 ^ 30 < 2 ^ 32 := by decide

theorem witness_EpochOutcomes :
    (let s := { epoched 2 with md := { Modes.reset with epDeadline := 5 } }
     s.rd Reg.EPOCH_STATUS.state = 2 ∧ s.md.epDeadline ≤ (s.at 5).devTime ∧ (s.at 4).devTime < s.md.epDeadline) ∧
    (let s := { epoched 1 with md := { Modes.reset with epInstant := 5 } }
     let y := trigFire (s.at 5) 62
     epochState y = 1 ∧ y.md.epInstant ≤ y.devTime ∧ epochFits y modeService = true ∧ epochFits y modeStop = false ∧ powered y = true ∧ y.mode ≠ modeShadow ∧
       powered (y.wr Reg.MODE_CUR.power 0 1) = false ∧ modeService ≠ modeStop ∧ modeService < 16) ∧
    (let s := { epoched 4 with md := { Modes.reset with rbInstant := 5, applied := coreBit, before := modeCalibrate } }
     let z := trigFire (s.at 5) 63
     epochState z = 4 ∧ z.md.rbReached = false ∧ z.md.rbInstant ≤ z.devTime ∧ Nat.land z.md.applied coreBit ≠ 0 ∧ z.mode ≠ modeShadow ∧ isPrinting z.mode = false ∧
       z.mode ≠ z.md.before ∧ z.md.before < 16) := by decide

/-- The page of one line that `printing` has queued: plane 0, one band of one line. -/
def page : Page :=
  { addr := 0x400, first := 0, lines := 1, base := 0, planes := 1, bandLines := 1, bandTable := 0x800, bands := 1, job := 9, page := 0, jobIdx := 0,
    jobEnd := true, ready := 1, mark := 0 }

/-- The header of a band of one line, 256 columns and 7 bytes (Table 4-3), with its check. -/
def bandHead : List Byte :=
  let h := leBytes 4 0x444E4142 ++ leBytes 1 0 ++ leBytes 1 1 ++ leBytes 2 0 ++ leBytes 4 0 ++ leBytes 4 256 ++ leBytes 4 7 ++ leBytes 8 0
  h ++ leBytes 4 (crc32 h)

/-- Printing slot 0 from plane 0, with one page queued whose line is 256 pixels of 3. -/
def printing : State :=
  { device [(Reg.MODE_CUR.mode, 0, modePrint), (Reg.LA_STATUS.job_open, 0, 1), (Reg.FS_SLOT_STATE.link, 0, 2), (Reg.FS_SLOT_STATE.temp_state, 0, 0), (Reg.MEM_RR_STATUS.horizon_eff, 0, 16),
      (Reg.LA_VJOB.v_job, 0, 1000)]
      [(chSlot 0, [(SlotE.nozzles, 256), (SlotE.fireEn, 1), (SlotE.wavePeriodNs, 12500), (SlotE.koEn, 1), (SlotE.decapMs, 60), (SlotE.anchorMask, 15), (SlotE.fireTmax, 70), (SlotE.tWarn, 60)]), (chPlane 0, plane)] with
    mem := Mem.write (Mem.write (Mem.write [] 0x800 (leBytes 8 0x1000)) 0x1000 bandHead) 0x1020 [2, 3, 0, 0, 0xF0, 0xFF, 0]
    la := { Raster.reset with pages := [page], jobs := [{ idx := 0, id := 9, base := 0, policy := 1, ended := some 1, planes := 1 }], endLine := 1 }
    fire := { Fire.reset with w0Set := true }
    mot := { Motion.reset with inputs := [(0, { FbInput.reset with dir := 1 })] } }

/-- The part of line 0 at slot 0. -/
def part : Part :=
  { line := 0, fault := false, decoded := true, spare := false, plane := 0, jobIdx := 0, px := List.replicate 256 3, drops := 256, sent := 0, resend := [], complete := false,
    bad := false, sosAt := none, limit := 0, released := none, taken := false }

/-- `printing` with line 0 accepted and this part held at slot 0. -/
def held (q : Part) (x : Slot) : State :=
  { printing with la := { printing.la with accepted := 1, rowDone := [(0, 1)] }, fire := { printing.fire with slots := [(0, { x with parts := [q] })] } }

theorem witness_RasterLines :
    acceptPage idle = none ∧ acceptPage printing = some page ∧ pageOf idle 0 = none ∧ pageOf printing 0 = some page ∧ bandReady page 0 = true ∧
    bandReady { page with ready := 0 } 0 = false ∧ printing.fire.refNext ≤ 0 ∧ farAhead printing 0 = true ∧ 0 < ({ printing.fire with refNext := 1 } : Fire).refNext ∧
    ¬(printing.mode = modeShadow ∧ 0 < printing.pair.catchUp) ∧ nextDecode printing 0 0 = none ∧
    (let s := { printing with la := { printing.la with accepted := 1 } }
     nextDecode s 0 0 = some 0 ∧ fifoHeld s 0 0 < s.rd Reg.MEM_RR_STATUS.horizon_eff ∧ (rasterLine (rowTo s 0 0 0) page 0 0).toOption = some (List.replicate 256 3) ∧
       (match rasterLine { rowTo s 0 0 0 with mem := [] } page 0 0 with | .error k => k | .ok _ => 0) = 3 ∧ 0 ∉ s.la.starved ∧ 0 ∈ (planeRow s 0 0).slots ∧ partOf s 0 0 = none ∧ (s.slot 0).next ≤ 0) := by
  decide

theorem witness_LA_VJOB_and_deadlines :
    hostOpen printing = true ∧ printing.rd Reg.FS_VMIN.v_min ≤ 200 ∧ printing.ent (chAxis 0) AxisE.vMax < 200 * 1000 ∧
    (device [] [(chAxis 0, [(AxisE.vMax, 200000)])]).rd Reg.FS_VMIN.v_min ≤ 200 ∧ 200 * 1000 ≤ (device [] [(chAxis 0, [(AxisE.vMax, 200000)])]).ent (chAxis 0) AxisE.vMax ∧ 200 < 2 ^ 24 ∧
    (printing.wr Reg.LA_STATUS.rw_step 0 3).rd Reg.LA_STATUS.rw_step = 3 ∧ printing.la.dwellUntil ≤ (printing.at 0).clk ∧
    printing.entOn (chSlot 0) SlotE.koEn = true ∧ mayDrive printing 0 = true ∧ chargeMode printing 0 = true ∧ chargeForbidden printing 0 = false ∧
    printing.on Reg.FS_SLOT_STATE.keepopen 0 = false ∧
    (printing.slot 0).lastFire.getD 0 + printing.rd Reg.LA_KEEPOPEN.keepopen_after * msU ≤ (printing.at (printing.rd Reg.LA_KEEPOPEN.keepopen_after * msU)).clk ∧
    (let s := printing.wr Reg.MODE_CUR.mode 0 modeHold
     s.mode = modeHold ∧ s.la.holdAt + s.rd Reg.LA_KEEPOPEN.hold_open * secU ≤ (s.at (s.rd Reg.LA_KEEPOPEN.hold_open * secU)).clk ∧
       s.md.pending.any (fun p => p.1 == modeStop) = false ∧ s.on Reg.LA_STATUS.job_open = true) := by decide

theorem witness_START_OF_SCAN :
    let s := held part { Slot.reset with tempAt := some 0 }
    let x := catApply (s.at 0) (chSlot 0)
    let y := tempEval x 0
    let z := y.setSlot 0 { y.slot 0 with next := (x.slot 0).next + 1 }
    slotGoes (s.at 0) 0 = true ∧ slotGoes (idle.at 0) 0 = false ∧ heldBack x 0 = false ∧ pageOf z 0 = some page ∧ slotRow z 0 = some (0, 0) ∧ bit page.planes 0 = true ∧
    0 < z.la.accepted ∧ 0 ∉ z.la.starved ∧ partOf z 0 0 = some part ∧ z.mode ≠ modeShadow ∧ part.fault = false ∧ freezeOver z = false ∧ chargeForbidden z 0 = false ∧
    tooSoon z 0 = false ∧ part.bad = false ∧ part.complete = false ∧ tooSoon (z.setSlot 0 { z.slot 0 with lastFire := some 0 }) 0 = true ∧
    chargeForbidden (z.wr Reg.FS_SLOT_STATE.temp_state 0 2) 0 = true := by decide

theorem witness_SlotLines :
    refDue (printing.at 0) = true ∧ refDue (idle.at 0) = false ∧ isPrinting printing.mode = true ∧ isPrinting idle.mode = false ∧ sosEarly idle = false ∧
    sosEarly { idle with fire := { Fire.reset with refAt := some 0, refGap := some 1000 } } = true ∧
    (let s := { printing with fire := { printing.fire with refAt := some 0 }, mot := { printing.mot with axes := [(0, { Axis.reset with goal := .speed 150000 })] } }
     s.fire.refAt = some 0 ∧ s.fire.missed = false ∧ (s.axis 0).goal = .speed ((150000 : Nat) : Int) ∧ s.rd Reg.FS_VMIN.v_min * 1000 ≤ 150000) ∧
    (let q := { part with sosAt := some 0, limit := 1 }
     ((held q .reset).slot 0).parts = [q] ∧ q.complete = false ∧ q.taken = false ∧ q.released = none ∧ 0 + q.limit * nsU ≤ ((held q .reset).at nsU).clk) ∧
    (let s := held part { Slot.reset with credits := 1 }
     mayDrive s 0 = true ∧ (s.slot 0).credits = 0 + 1 ∧ (s.slot 0).msgs = [] ∧ (s.slot 0).waveLeft = 0 ∧ nextData s 0 = some (part, 0, false)) ∧
    (let q := { part with sent := 1, resend := [0] }
     nextData (held q .reset) 0 = some (q, 0, true)) ∧
    backSet osCredit 0 = none ∧ (backSet osCredit (orderedSetWord osCredit 0)).isSome = true ∧ slotOfSet (laneHeard (printing.at 0) 0) 0 0 = some 0 ∧
    openPart (held part .reset) 0 0 = some part ∧ bits 0 27 6 < lineFrames printing 0 ∧
    (let q := { part with released := some 0 }
     releasedPart (held q .reset) 0 0 = some q ∧ ackLate ((held q .reset).at (50 * usU)) 0 = some q ∧ bit (2 ^ 32) 32 = true ∧ bit 0 32 = false) := by decide

theorem witness_HeadsAndSessions :
    (let z := { printing with th := { Thermal.reset with heads := [(0, { HeadTemp.reset with plate := some (400, 0) })] } }
     (z.head 0).plate = some (400, 0) ∧ accepted z (z.head 0).plate = true ∧ (z.head 0).disagree < 10) ∧
    bit (2 ^ 45) 45 = true ∧ headEn printing 0 = true ∧ tempSmooth printing 0 false 400 = true ∧
    tempSmooth { printing with th := { Thermal.reset with heads := [(0, { HeadTemp.reset with plate := some (0, 0) })] } } 0 false 400 = false ∧
    backSet 0xB7 0 = none ∧ (backSet 0xB7 (orderedSetWord 0xB7 (2 ^ 45 + 400 * 2 ^ 29))).isSome = true ∧ slotOfSet (laneHeard (printing.at 0) 0) 0 0 = some 0 ∧
    slotOfSet (laneHeard (idle.at 0) 0) 0 0 = none ∧ backSet osStatus 0 = none ∧ (backSet osStatus (orderedSetWord osStatus (127 * 2 ^ 40))).isSome = true ∧
    (laneHeard (printing.at 0) 0).pair.watch ≠ 1 ∧
    (let h := laneHeard (({ printing with pair := { Pair.reset with watch := 1, heardAt := some 0 } } : State).at (7 * usU)) 0
     h.pair.watch = 1 ∧ h.pair.heardAt = some 0 ∧ 0 + 7 * usU ≤ h.clk ∧ slotOfSet h 0 0 = some 0) ∧
    heartbeatDue printing = true ∧ heartbeatDue { printing with fire := { printing.fire with hbAt := some 0 } } = false ∧
    (let s := held part { Slot.reset with forbidAt := some 0, waveDue := true, retryAt := some 5, graceTo := some 5, authAt := some 0, authStep := 2 }
     (s.slot 0).forbidAt = some 0 ∧ 0 + s.ent (chSlot 0) SlotE.decapMs * msU ≤ (s.at (60 * msU)).clk ∧ (s.slot 0).waveDue = true ∧ mayDrive s 0 = true ∧
       s.mode ≠ modeShadow ∧ s.native = true ∧ s.inUse (chSlot 0) = true ∧ linkUp s 0 = true ∧ (s.slot 0).authStep = 2 ∧
       (s.at 5).clk < 0 + 50 * msU ∧ (List.replicate 320 (4 : Byte)).length = 320 ∧ 4 ≤ (((List.replicate 320 (4 : Byte)).take 160).getD 80 0).toNat ∧ (((List.replicate 160 (3 : Byte)).take 160).getD 80 0).toNat < 4 ∧
       bit (s.ent (chSlot 0) SlotE.anchorMask) 3 = true ∧ bit ((s.wr Reg.FS_AUTH.anchors 0 15).rd Reg.FS_AUTH.anchors) 3 = true ∧
       (s.slot 0).authAt = some 0 ∧ 0 + 50 * msU ≤ (s.at (50 * msU)).clk ∧ (s.slot 0).retryAt = some 5 ∧ (s.slot 0).graceTo = some 5 ∧ 5 ≤ (s.at 5).clk) := by decide

theorem witness_USAGE_NOW :
    (let s := held part { Slot.reset with asked := [(7, 65535, 0), (8, 1, 5)], authStep := 5, key := [1], authSeq := 8 }
     (s.slot 0).asked = (7, 65535, 0) :: [(8, 1, 5)] ∧ (s.slot 0).authAt = none ∧ (held part .reset |>.slot 0).asked = [] ∧ 2 ^ 64 - 1 < 2 ^ 64 ∧ (s.slot 0).authStep = 5 ∧ (s.slot 0).graceTo = none ∧
       65535 = (s.rd2 Reg.FS_SLOT_USAGE_LO.usage_lo Reg.FS_SLOT_USAGE_HI.usage_hi 0 + 65535) % 2 ^ 64 ∧ 0 + 10 * msU ≤ (s.at (10 * msU)).clk) ∧
    (let s := { printing.wr Reg.FS_SLOT_STATE.auth 0 2 with led := { Ledger.reset with live := [(Led.usageUnits 0, 65536)] } }
     s.rd Reg.FS_SLOT_STATE.auth 0 = 2 ∧ usageDue s 0 = 65535 + 1 ∧ linkUp s 0 = true ∧ (s.slot 0).lastAdd = none) := by decide

/-! ### Witnesses: cameras, calibration, axes and time -/

/-- A frame of which one trigger, of grid line 4, has been counted and waits since instant 0. -/
def frame : Frame :=
  { num := 1, m0 := 0, firstAt := 0, counted := 1, waiting := [(4, 0)], lines := [], lost := 0, set := none, expo := 0, unconfirmed := false, geom := .reset,
    entry := some (entry [(PipeE.latHi, 100)]) }

/-- Pipeline 0 is bound to virtual channel 1 of port 0 and to group 0; the port is as `p`, the pipeline as `x`, the group as `g`. -/
def camera (link : Nat) (p : CamPort) (x : Pipe) (g : Group) : State :=
  { device [(Reg.MODE_CUR.mode, 0, modeIdle), (Reg.INSP_PORT_STATE.link_up, 0, link), (Reg.INSP_PIPE_BIND.pbound, 0, 1), (Reg.INSP_PIPE_BIND.pvc, 0, 1),
      (Reg.GRP_CFG.run, 0, link), (Reg.INSP_PORT_STATE.gear, 0, 2 * link)] [(chPort 0, [(PortE.portEn, 1), (PortE.gearMax, 3)]), (chPipe 0, [(PipeE.latHi, 100)])] with
    insp := { Insp.reset with ports := [(0, p)], pipes := [(0, x)], groups := [(0, g)] } }

theorem witness_CamerasAndFrames :
    State.reset.ringOpen 4 = false ∧ (idle.camPort 0).train = 0 ∧
    (let b := bootDue ((camera 0 { CamPort.reset with train := 2, top := 3 } .reset .reset).at 5)
     (b.camPort 0).train = 1 + 1 ∧ b.entOn (chPort 0) PortE.portEn = true ∧ b.rd Reg.MODE_CUR.power = 0 ∧ (b.camPort 0).fails = 0 ∧ 1 + 1 < portTop b 0) ∧
    (let b := bootDue ((camera 0 { CamPort.reset with train := 3, fails := 1, top := 3 } .reset .reset).at 5)
     (b.camPort 0).train = 2 + 1 ∧ b.entOn (chPort 0) PortE.portEn = true ∧ b.rd Reg.MODE_CUR.power = 0 ∧ (b.camPort 0).fails ≠ 0 ∧ portTop b 0 ≤ 2 + 1) ∧
    (let s := camera 1 { CamPort.reset with crcAt := List.replicate 17 0 } .reset .reset
     s.rd Reg.INSP_PORT_STATE.gear 0 = 1 + 1 ∧ 16 < crcLate (s.at 5) 0 ∧ crcLate ((camera 1 .reset .reset .reset).at 5) 0 ≤ 16 ∧ s.on Reg.INSP_PORT_STATE.link_up 0 = true ∧
       (camera 0 .reset .reset .reset).on Reg.INSP_PORT_STATE.link_up 0 = false) ∧
    Tbl.find (idle.camPort 0).bufs 1 = none ∧
    (let s := (camera 1 { CamPort.reset with bufs := [(1, 0x2B, [0]), (2, 0x2B, [0])] } { Pipe.reset with frames := [frame] } { Group.reset with on := true }).at 5
     Tbl.find (s.camPort 0).bufs 1 = some (0x2B, [0]) ∧ s.on Reg.INSP_PORT_STATE.link_up 0 = true ∧ pipeOf s 0 2 = none ∧ pipeOf s 0 1 = some 0 ∧
       (s.group (pipeGroup s 0)).on = true ∧ inspRuns s = true ∧ candidate s 0 = some (0, (4, 0)) ∧ (s.pipe 0).lineAt = none ∧ (s.pipe 0).frames[0]? = some frame) ∧
    (let s := (camera 1 .reset .reset { Group.reset with on := true }).at 5
     candidate (linesLost (waitingCount s 0) s 0) 0 = none ∧ (s.group 0).on = true ∧ inspRuns s = true ∧ (s.group 0).started = false) ∧
    (camera 1 .reset .reset .reset |>.group 0).on = false ∧ groupCount (idle.at 5) 0 = none ∧
    (let s := camera 1 .reset .reset { Group.reset with on := true, started := true, top := -1 }
     (s.group 0).on = true ∧ inspRuns s = true ∧ (s.group 0).started = true ∧ (s.group 0).top < webPos (s.at 5)) ∧
    (let s := camera 1 .reset .reset { Group.reset with on := true, started := true }
     (s.group 0).started = true ∧ webPos (s.at 5) ≤ (s.group 0).top) ∧
    (let s := camera 1 .reset { Pipe.reset with frames := [frame] } .reset
     (s.pipe 0).frames = [frame] ∧ frame.waiting = [(4, 0)] ∧ (s.at 5).clk ≤ 0 + s.ent (chPipe 0) PipeE.latHi * 10 * nsU ∧ 0 + s.ent (chPipe 0) PipeE.latHi * 10 * nsU < (s.at (2 * usU)).clk) ∧
    frameReady (idle.at 5) 0 = none ∧ frameReady ((camera 1 .reset { Pipe.reset with frames := [{ frame with waiting := [], counted := 256 }] } .reset).wr Reg.GRP_CFG.frame_lines 0 256 |>.at 5) 0 =
      some { frame with waiting := [], counted := 256 } ∧
    (256 + 2 ^ 31) % 16384 = 256 ∧ bit (256 + 2 ^ 31) 31 = true ∧ bit 8192 31 = false ∧ 8192 % 16384 ≤ 8192 ∧
    (camera 1 .reset .reset .reset).on Reg.GRP_CFG.run 0 = true ∧ (camera 0 .reset .reset .reset).on Reg.GRP_CFG.run 0 = false ∧
    accReady (idle.at 5) 0 (idle.rd Reg.INSP_PLANE_GRP.pgrp 0) = none ∧
    (let s := camera 1 .reset .reset .reset
     accReady { s with insp := { s.insp with parts := [{ grp := 0, frame := 1, pipe := 0, expo := 0, full := true, sums := [] }] } } 0 (s.rd Reg.INSP_PLANE_GRP.pgrp 0) = some 1) ∧
    expoTarget idle 0 (List.replicate 32 0) = 0 ∧
    (let s := (idle.wr Reg.EXPO_DATA.expo_data 0 1).wr Reg.EXPO_DATA.expo_data 1 1000
     let tg := expoTarget (s.at 5) (s.rd Reg.INSP_EXPO_SEL.expo_pipe) (((List.range 8).map (fun i => leBytes 4 (s.rd Reg.EXPO_DATA.expo_data i))).flatten)
     tg ≠ 0 ∧ tg < 2 ^ 48) ∧
    (let s := camera 1 .reset { Pipe.reset with frames := [frame], check := true } .reset
     (s.pipe 0).frames = [] ++ [frame] ∧ (s.pipe 0).check = true ∧ s.on Reg.INSP_PIPE_BIND.pbound 0 = true ∧ s.on Reg.INSP_PIPE_BIND.pbound 1 = false) := by decide

/-- PRINT or the mode `m`, with every loop enabled on plane 0, whose entry can be written again, and completed buffers for density and registration. -/
def looped (m : Nat) : State :=
  { device [(Reg.MODE_CUR.mode, 0, m), (Reg.CL_CTRL.loops_run, 0, 1), (Reg.CL_CTRL.health_en, 0, 1), (Reg.CL_CTRL.dens_en, 0, 1), (Reg.CL_CTRL.reg_en, 0, 1),
      (Reg.CL_CTRL.recal_en, 0, 1), (Reg.CL_PLANE_EN.plane_en, 0, 1), (Reg.CL_XSHIFT.xs_staged, 0, 2 ^ 16 - 1)]
      [(chPlane 0, plane ++ [(HdrE.channel, chPlane 0), (HdrE.cls, 2), (HdrE.layout, 1)])] with
    insp := { Insp.reset with accDone := [(0, (3, 0))], cuNew := 3 } }

theorem witness_CalibrationLoops :
    loopOn idle Reg.CL_CTRL.health_en 0 = false ∧ loopOn (looped modePrint) Reg.CL_CTRL.health_en 0 = true ∧ (looped modePrint).inUse (chPlane 0) = true ∧
    Tbl.find (looped modePrint).insp.accDone 0 = some (3, 0) ∧ Tbl.find (looped modePrint).loops.passed 0 ≠ some 3 ∧ loopIssues (looped modePrint) = true ∧
    loopIssues (looped modeService) = false ∧ loopObserves (looped modeService) = true ∧
    nozzleAt ((looped modePrint).at 5) 255 = some (0, 0, 255) ∧ nozOpen (looped modePrint) 0 = true ∧ nozOpen idle 0 = false ∧ loopLine ((looped modePrint).at 5) < 2 ^ 48 ∧
    (planeRow (looped modePrint) 0 0).kind = 1 ∧ isRetired ((looped modePrint).at 5) 0 0 255 = false ∧
    nozzleAt ((looped modePrint).at 5) (65536 + 255) = some (0, 1, 255) ∧ (planeRow (looped modePrint) 0 1).kind ≠ 1 ∧
    nozzleAt ((looped modePrint).at 5) 256 = none ∧ (looped modePrint).on Reg.CL_CTRL.loops_run = true ∧ hostOpen (looped modePrint) = true ∧ hostOpen State.reset = false ∧
    loopOn (looped modePrint) Reg.CL_CTRL.dens_en 0 = true ∧ bit (looped modePrint).insp.cuNew 0 = true ∧ (looped modePrint).insp.cuDone.1 = 0 ∧ bit idle.insp.cuNew 0 = false ∧
    (looped modePrint).on Reg.CL_CTRL.reg_en = true ∧ (looped modePrint).insp.cuNew / 2 ≠ 0 ∧ (looped modePrint).insp.cuDone.2 = 0 ∧ idle.on Reg.CL_CTRL.loops_run = false ∧
    loopOn (looped modePrint) Reg.CL_CTRL.reg_en 0 = true ∧ observeOnly (looped modePrint) = false ∧ (looped modePrint).mode ≠ modeFreeze ∧
    -1 = (looped modePrint).rdi Reg.CL_XSHIFT.xs_staged 0 ∧ (looped modePrint).on Reg.LA_STATUS.job_open = false ∧ (looped modePrint).la.fired = [] ∧ (looped modePrint).la.pages = [] ∧
    (looped modePrint).entry (chPlane 0) = some (entry (plane ++ [(HdrE.channel, chPlane 0), (HdrE.cls, 2), (HdrE.layout, 1)])) ∧
    shiftEntry (entry plane) 1 = none ∧ planeSubsts ((looped modePrint).at 5) 0 = [] ∧
    (match shiftEntry (entry (plane ++ [(HdrE.channel, chPlane 0), (HdrE.cls, 2), (HdrE.layout, 1)])) (-1) with
      | some e => entryOk ((looped modePrint).at 5) (chPlane 0) (nextEntry e) | none => false) = true := by decide

/-- The loops run; unit `u` of class `c` is due, and the lanes of group 0 are as `rs` says. -/
def recaling (c u : Nat) (rs : List (Fld × Nat × Nat)) : State :=
  { device ([(Reg.MODE_CUR.mode, 0, modePrint), (Reg.CL_CTRL.loops_run, 0, 1), (Reg.CL_CTRL.recal_en, 0, 1), (Reg.LA_STATUS.job_open, 0, 1)] ++ rs) [] with
    cal := { Recal.reset with due := [(c, u, reasonRequest)] } }

/-- Unit `u` of class `c` runs. -/
def recalRuns (c u : Nat) (rs : List (Fld × Nat × Nat)) : State := { recaling c u rs with cal := { Recal.reset with running := [(c, u)] } }

theorem witness_Recalibration :
    hostOpen (looped modePrint) = true ∧ (looped modePrint).on Reg.CL_CTRL.loops_run = true ∧ 47 < classUnits 0 ∧ 3 < classUnits 1 ∧ 63 < classUnits 2 ∧ 15 < classUnits 3 ∧
    classUnits 0 ≤ 48 ∧ hostOpen State.reset = false ∧ recalOpen idle = false ∧ recalOpen (looped modePrint) = true ∧
    (looped modePrint).net.coldAt + (looped modePrint).rd Reg.CL_RECAL_CFG.recal_max_s * secU ≤
      ((looped modePrint).at ((looped modePrint).rd Reg.CL_RECAL_CFG.recal_max_s * secU)).clk ∧
    firstDue (idle.at 5) 3 = none ∧ (∀ c < 3, Tbl.find (recaling c 1 []).cal.running c = none) ∧ recalOpen (recaling 3 1 []) = true ∧
    firstDue ((recaling 3 1 []).at 5) 3 = some 1 ∧ (recaling 3 1 []).on Reg.CL_RECAL_STATUS.xref_fault = false ∧ firstDue ((recaling 2 1 []).at 5) 2 = some 1 ∧
    firstDue ((recaling 1 1 [(Reg.LANE_STATE.lstate, 49, 2)]).at 5) 1 = some 1 ∧ (recaling 1 1 []).rd Reg.MODE_CUR.power = 0 ∧
    firstDue ((recaling 0 5 [(Reg.LANE_STATE.lstate, 5, 3)]).at 5) 0 = some 5 ∧ (recaling 0 5 [(Reg.LANE_STATE.lstate, 5, 3)]).lstate 5 = 3 ∧
    firstDue ((recaling 0 1 [(Reg.LANE_STATE.lstate, 1, 2)]).at 5) 0 = none ∧
    (dueReady ((recaling 0 1 [(Reg.LANE_STATE.lstate, 1, 2)]).at 5) 0).any (fun d => laneWaits ((recaling 0 1 [(Reg.LANE_STATE.lstate, 1, 2)]).at 5) d.2.1) = true ∧
    (recaling 0 1 [(Reg.LANE_STATE.lstate, 1, 2)]).lstate 1 ≠ 3 ∧ laneEnt (recaling 0 1 []) 1 LaneE.ctleMax 15 = 15 ∧
    logicalOn (recaling 0 1 [(Reg.LANE_STATE.lstate, 1, 2)]) 1 = some 1 ∧ freeSpare ((recaling 0 1 [(Reg.LANE_STATE.lstate, 1, 2)]).at 5) 1 = none ∧
    (recaling 0 1 []).on Reg.LA_STATUS.job_open = true ∧
    firstDue ((recaling 0 1 [(Reg.LANE_STATE.lstate, 1, 2), (Reg.LANE_STATE.lstate, 5, 3)]).at 5) 0 = some 1 ∧
    freeSpare ((recaling 0 1 [(Reg.LANE_STATE.lstate, 1, 2), (Reg.LANE_STATE.lstate, 5, 3)]).at 5) 1 = some 5 ∧ moving (recaling 0 1 []) 1 = false ∧
    Tbl.find (recalRuns 2 1 []).cal.running 2 = some 1 ∧ ({ recalRuns 2 1 [] with st := { Stacks.reset with windows := 128 } } : State).st.windows = 128 ∧ (recalRuns 2 1 []).st.windows ≠ 128 ∧
    Tbl.find (recalRuns 3 1 []).cal.running 3 = some 1 ∧ Tbl.find (recalRuns 1 1 []).cal.running 1 = some 1 ∧ (recalRuns 1 1 [(Reg.LANE_STATE.lstate, 49, 4)]).lstate (unitLane 1 1) = 4 ∧
    (recalRuns 0 1 [(Reg.LANE_STATE.lstate, 1, 4)]).lstate (unitLane 0 1) = 4 ∧ logicalOn (recalRuns 0 1 []) (unitLane 0 1) ≠ none ∧ 0 < (recalRuns 1 1 []).rd Reg.CL_Q_LIMITS.eye_w_min ∧
    recalOpen (recalRuns 3 2 []) = true ∧ (recalRuns 3 2 []).on Reg.CL_RECAL_STATUS.xref_fault = false ∧ Tbl.find (recalRuns 3 2 []).cal.running 3 = some 2 ∧ 2 / 2 = 1 ∧
    Tbl.get 0 (recalRuns 3 2 []).loops.convBad 1 < 2 ∧ Tbl.get 0 ({ recalRuns 3 2 [] with loops := { Loops.reset with convBad := [(1, 2)] } } : State).loops.convBad 1 = 2 ∧
    (recalRuns 3 2 []).rd Reg.CL_Q_LIMITS.swap_tol < 2 ^ 16 ∧ decide (4000 < 4000 ∨ 6000 < 4000) = idle.on Reg.CL_RECAL_STATUS.xref_fault ∧
    decide (3999 < 4000 ∨ 6000 < 3999) ≠ idle.on Reg.CL_RECAL_STATUS.xref_fault := by decide

/-- Axis 1, drive 1 of port 0, selected and enabled with speed 1,000 µm/s; the axis and the port as `a` and `p`, the port's link in state `l`. -/
def axed (a : Axis) (p : DrivePort) (l : Nat) : State :=
  { device [(Reg.MODE_CUR.mode, 0, modeIdle), (Reg.MOT_AXIS_SEL.axis_sel, 0, 1), (Reg.MOT_SPEED.speed, 0, 1000), (Reg.MOT_TARGET_LO.target_lo, 0, 7), (Reg.DL_STATE.dl_link, 0, l)]
      [(chAxis 1, [(AxisE.axisEn, 1), (AxisE.vMax, 50000), (AxisE.drive, 1), (AxisE.holdPct, 50), (AxisE.swHome, 3), (AxisE.swPol, 7)]), (chDl 0, [(DlE.portEn, 1), (DlE.drives, 2), (DlE.servoNs, 125000)])] with
    mot := { Motion.reset with axes := [(1, { a with enabled := true })], ports := [(0, p)] } }

/-- The status word 1 in a drive's slot of 16 bytes. -/
def slotBytes : List Byte := List.replicate 8 0 ++ [1, 0, 5, 0, 0, 0, 9, 0]

theorem witness_AxesAndDrives :
    (∀ d ∈ [0, 1], (axed .reset .reset 2).rd Reg.MOT_AX_STATE.home_step 1 = 0 ∧ d * ((axed .reset .reset 2).axis 1).v ≤ (0 : Int)) ∧
    (0 : Int) < 1 * ((axed { Axis.reset with v := 7 } .reset 2).axis 1).v ∧
    axisAt (axed .reset .reset 2) 0 1 = some 1 ∧ bit ((axed .reset .reset 2).drivePort 0).fresh 1 ≠ bit (leNat ((slotBytes.drop 8).take 2)) 0 ∧
    bit (leNat ((slotBytes.drop 8).take 2)) 2 = false ∧
    (let s := axed .reset .reset 2
     hostOpen s = true ∧ commandOk (s.at 5) 1 opMoveAbs = true ∧ commandOk (s.at 5) 1 opMoveRel = true ∧ commandOk (s.at 5) 1 opVelocity = true ∧
       commandOk (s.at 5) 1 opStop = true ∧ commandOk (s.at 5) 1 opHome = true ∧ commandOk (s.at 5) 1 opEnable = true ∧ commandOk (s.at 5) 1 opDisable = true ∧
       1 = s.rd Reg.MOT_AXIS_SEL.axis_sel ∧ (s.axis 1).atRest = true) ∧
    commandOk (idle.at 5) 0 opMoveAbs = false ∧ ((axed { Axis.reset with v := 7 } .reset 2).axis 1).atRest = false ∧ homeActive ((axed .reset .reset 2).at 5) 1 = false ∧
    (idle.drivePort 0).due = false ∧ idle.rd Reg.DL_STATE.dl_link 0 ≠ 2 ∧
    (let s := axed .reset { DrivePort.reset with due := true, lastTrig := some 0 } 2
     (s.drivePort 0).due = true ∧ s.entOn (chDl 0) DlE.portEn = true ∧ s.rd Reg.DL_STATE.dl_link 0 = 2 ∧ s.mode ≠ modeCold ∧ s.mode ≠ modeReload ∧
       (s.drivePort 0).lastTrig = some 0 ∧ 10 * ((s.at 5).clk - 0) < 9 * s.ent (chDl 0) DlE.servoNs * nsU) ∧
    ((axed .reset { DrivePort.reset with due := true } 2).drivePort 0).lastTrig = none ∧ ((axed .reset { DrivePort.reset with due := true } 2).drivePort 0).due = true ∧
    (let cs := List.replicate 136 0 ++ leBytes 4 (crc32 (List.replicate 136 0))
     cs.length = 140 ∧ crc32 (cs.take 136) = leNat (cs.drop 136)) ∧ ([] : List Byte).length ≠ 140 ∧
    (bootDue ((axed .reset .reset 1).at 5)).rd Reg.DL_STATE.dl_link 0 = 1 ∧ (bootDue (idle.at 5)).rd Reg.DL_STATE.dl_link 0 ≠ 1 ∧
    (let s := axed .reset .reset 2
     axisOn s 1 = true ∧ (s.axis 1).atRest = true ∧ s.ent (chAxis 1) AxisE.holdPct < 100 ∧ (s.axis 1).stillAt + s.ent (chAxis 1) AxisE.holdDelay * msU ≤ (s.at 5).clk ∧
       (s.switch 3).level ≠ true ∧ (s.switch 3).ignoreTo ≤ (s.at 5).clk ∧ (s.switch 3).level = false ∧ 3 = s.ent (chAxis 1) AxisE.swHome ∧ s.inUse (chAxis 1) = true ∧
       s.inUse (chAxis 2) = false ∧ axisOn s 2 = false) := by decide

/-- Input 0 of kind `k` with 4,096 counts in a turn, as `x`; emulator 0 runs with its last edge at `e`. -/
def feeding (k : Nat) (x : FbInput) (e : Option Nat) : State :=
  { device [(Reg.MODE_CUR.mode, 0, modeIdle), (Reg.FB_STATE.enc_fault, 0, 1), (Reg.EMU_STATE.emu_running, 0, 1)]
      [(chFb 0, [(FbE.kind, k), (FbE.cpr, 4096), (FbE.ampHold, 1), (FbE.zEn, 1), (FbE.ssiBits, 25), (FbE.ssiTurnBits, 12), (FbE.zeroTimeout, 20)]),
        (chEmu 0, [(EmuE.minEdgeNs, 100)])] with
    mot := { Motion.reset with inputs := [(0, x)], emus := [(0, { Emu.reset with sent := -5, lastEdge := e })] } }

/-- In IDLE with these lock state and time unit. -/
def timed (l : Nat) (x : TimeUnit) : State := { device [(Reg.MODE_CUR.mode, 0, modeIdle), (Reg.TIME_STATE.lock_state, 0, l), (Reg.TIME_PPS.pps_in_en, 0, 1),
  (Reg.TIME_PPS.pps_out_en, 0, 1), (Reg.TIME_STATE.gm_self, 0, 1)] [(chTrig 3, [(TrigE.action, 1), (TrigE.target, 2)])] with tu := x }

theorem witness_FeedbackAndTime :
    (quarterOf false false + 4 - quarterOf ((feeding 1 .reset none).fb 0).levelA ((feeding 1 .reset none).fb 0).levelB) % 4 = 0 ∧
    (quarterOf true false + 4 - quarterOf ((feeding 1 .reset none).fb 0).levelA ((feeding 1 .reset none).fb 0).levelB) % 4 = 1 ∧
    (quarterOf true true + 4 - quarterOf ((feeding 1 .reset none).fb 0).levelA ((feeding 1 .reset none).fb 0).levelB) % 4 = 2 ∧
    (quarterOf false true + 4 - quarterOf ((feeding 1 .reset none).fb 0).levelA ((feeding 1 .reset none).fb 0).levelB) % 4 = 3 ∧
    (feeding 1 .reset none).on Reg.FB_STATE.enc_fault 0 = true ∧
    (let z := feeding 2 .reset none
     0 < z.ent (chFb 0) FbE.ampHold ∧ z.on Reg.FB_STATE.amp_fault 0 = false ∧ phaseStep 4096 (fbExt z 0 % 4096).toNat (4095 % 4096) ≠ 0 ∧
       z.ent (chFb 0) FbE.ampHold ≤ (z.fb 0).ampBad + 1 ∧ z.ent (chFb 0) FbE.kind = 2) ∧
    (let z := feeding 3 .reset none
     (z.fb 0).ssiBad < 2 ∧ z.ent (chFb 0) FbE.kind = 3 ∧ z.entOn (chFb 0) FbE.ssiGray = false ∧ (z.fb 0).ssiSeen = false) ∧
    idle.rd Reg.TIME_SERVO.slew_max * 1000000 < 2 ^ 31 ∧ lockThr idle ≤ (secU : Int).natAbs ∧ (0 : Int) < secU ∧ lockThr idle ≤ (-secU : Int).natAbs ∧
    idle.ent (chFb 0) FbE.kind ≠ 1 ∧ idle.ent (chFb 0) FbE.kind ≠ 2 ∧ (feeding 1 .reset none).ent (chFb 0) FbE.kind = 1 ∧ (feeding 1 .reset none).entOn (chFb 0) FbE.zEn = true ∧
    idle.entOn (chFb 0) FbE.zEn = false ∧
    (let s := feeding 1 { FbInput.reset with edges := [(0, 1)] } none
     (s.fb 0).edges = [(0, 1)] ∧ (s.at 5).clk < 0 + fbZero s 0 ∧ 0 + fbZero s 0 ≤ (s.at (20 * msU)).clk) ∧
    (let s := feeding 1 .reset (some 0)
     s.on Reg.EMU_STATE.emu_running 0 = true ∧ emuLag (s.at 5) 0 ≠ 0 ∧ (s.emu 0).lastEdge = some 0 ∧ (s.at 5).clk < 0 + s.ent (chEmu 0) EmuE.minEdgeNs * nsU ∧
       0 + s.ent (chEmu 0) EmuE.minEdgeNs * nsU ≤ (s.at (100 * nsU)).clk) ∧
    idle.on Reg.EMU_STATE.emu_running 0 = false ∧ lockState idle ≠ lockHold ∧ lockState (timed lockHold .reset) = lockHold ∧
    (timed lockHold .reset).tu.holdAt + (timed lockHold .reset).rd Reg.TIME_TRACE.trace_hold_s * secU ≤
      ((timed lockHold .reset).at ((timed lockHold .reset).rd Reg.TIME_TRACE.trace_hold_s * secU)).clk ∧
    (let s := timed lockOn { TimeUnit.reset with ppsHigh := true, setAtPps := some 9 }
     s.tu.ppsHigh = true ∧ (s.at 5).clk + nsU < s.tu.ppsAt + s.rd Reg.TIME_PPS.pps_width * msU ∧
       s.tu.ppsAt + s.rd Reg.TIME_PPS.pps_width * msU ≤ (s.at secU).clk + nsU ∧ s.tu.setAtPps = some 9 ∧ epochOutstanding s = false) ∧
    epochOutstanding (epoched 2) = true ∧
    (let s := timed lockOn { TimeUnit.reset with everLocked := true }
     s.tu.ppsHigh = false ∧ s.on Reg.TIME_PPS.pps_out_en = true ∧ ((s.at (secU - nsU)).devTime + nsU) % secU ≤ 2 * nsU ∧
       2 * nsU < ((s.at (2 * nsU)).devTime + nsU) % secU ∧ s.tu.setAtPps = none ∧ s.on Reg.TIME_PPS.pps_in_en = true ∧ s.on Reg.TIME_STATE.gm_self = true ∧
       s.tu.everLocked = true ∧ hostOpen s = true ∧ s.on Reg.LA_STATUS.job_open = false ∧ epochOutstanding s = false ∧ lockState s ≠ lockAcq ∧ s.tu.parent = none ∧
       s.rd Reg.TIME_SET_NS.set_ns ≤ 999999999) ∧ idle.on Reg.TIME_PPS.pps_in_en = false ∧
    reaches (idle.at 5) 17 Reg.TIME_PPS.pps_in_en.addr = true ∧ (2 ^ 31 + 500) % 1024 = 500 ∧ 2 ^ 31 + 500 < 2 ^ 32 ∧ bit (2 ^ 31 + 500) 31 = true ∧ bit 1 31 = false ∧ 1 % 1024 = 1 ∧ hostOpen State.reset = false ∧
    (let s := timed lockOn { TimeUnit.reset with trigs := [(3, { Trig.reset with next := some 5 })] }
     (s.trig 3).next = some 5 ∧ 5 ≤ (s.at 5).devTime ∧ (s.at 4).devTime < 5 ∧ (s.trig 2).next = none ∧ 2 = s.ent (chTrig 3) TrigE.target) := by decide

/-! ### Witnesses: the ring and the Stacks -/

/-- An Announce of a clock with this priority 1. -/
def announce (p : Nat) : Announce := { prio1 := p, cls := 6, acc := 0x21, variance := 0, prio2 := 128, gm := 77, steps := 1, at_ := 0, prev := some 0 }

/-- Both ring ports are open, in PTP role 2 and lock state `l`, with number 5 learned, these registers, time unit and ring state. -/
def networked (l : Nat) (rs : List (Fld × Nat × Nat)) (x : TimeUnit) (n : RingNet) : State :=
  { device ([(Reg.MODE_CUR.mode, 0, modeIdle), (Reg.TIME_STATE.lock_state, 0, l), (Reg.TIME_PTP_CFG.ptp_role, 0, 2), (Reg.RING_PORT_STATE.rlink, 0, 2), (Reg.RING_PORT_STATE.rlink, 1, 2),
      (Reg.RING_NODE.node, 0, 5), (Reg.RING_NODE.learned, 0, 1)] ++ rs) [] with
    tu := x, net := n }

theorem witness_RingClock :
    (∀ a ∈ [announce 1, announce 9], let z := networked lockOn [] { TimeUnit.reset with heard := [(154, announce 5), (155, a)] } .reset
      bestOn z 0 = some (announce 5) ∧ bestOn z 1 = some a ∧ parentHeard z = none ∧ (bestHeard z).isSome = true) ∧ (announce 5).better (announce 9) = true ∧
    (announce 5).better (announce 1) = false ∧ (announce 1).better (announce 5) = true ∧ (announce 5).better (announce 5) = false ∧
    bestOn idle 0 = none ∧ bestOn idle 1 = none ∧ bestHeard idle = none ∧
    (∀ a ∈ [announce 1, announce 9], let z := networked lockOn [(Reg.TIME_GM_ID_LO.gm_id_lo, 0, 77)] { TimeUnit.reset with heard := [(3, { a with gm := 1 }), (154, announce 5)], parent := some 0 } .reset
      parentHeard z = some (0, announce 5) ∧ (bestHeard z).isSome = true) ∧
    (announce 5).dataset[0]? = some 5 ∧ (announce 9).dataset[0]? = some 9 ∧
    (let z := networked lockOn [] { TimeUnit.reset with heard := [(154, announce 200)], parent := some 0 } .reset
     bestPort z = some (0, announce 200) ∧ ptpRole z = 2 ∧ lexLt (ownDataset z) (announce 200).dataset = true) ∧
    (let z := networked lockOn [(Reg.TIME_GM_ID_LO.gm_id_lo, 0, 77)] { TimeUnit.reset with heard := [(154, announce 1)], parent := some 0 } .reset
     ¬(ptpRole z = 2 ∧ lexLt (ownDataset z) (announce 1).dataset = true) ∧ z.tu.parent = some 0 ∧
       z.rd2 Reg.TIME_GM_ID_LO.gm_id_lo Reg.TIME_GM_ID_HI.gm_id_hi = (announce 1).gm ∧ bestPort z = some (0, announce 1)) ∧
    bestPort idle = none ∧ ¬(ptpRole idle = 2 ∧ false = true) ∧ (networked lockOn [] .reset .reset).tu.parent ≠ some 0 ∧
    lockState (networked lockHold [] .reset .reset) ≠ lockAcq ∧ lockState (networked lockAcq [] .reset .reset) = lockAcq ∧
    16 = (if (0 : Int).natAbs < lockThr idle then ({ TimeUnit.reset with goodSyncs := 15 } : TimeUnit).goodSyncs + 1 else 0) ∧
    mayStep (networked lockAcq [] .reset .reset) 9 = true ∧ mayStep (networked lockAcq [] { TimeUnit.reset with everLocked := true } .reset) 9 = false ∧
    epochOutstanding (networked lockAcq [] .reset .reset) = false ∧
    (let s := networked lockOn [(Reg.TIME_STATE.gm_self, 0, 1)] { TimeUnit.reset with parent := some 0, reqOut := some (0, 7, 100), heard := [(154, announce 5)] } .reset
     ptpRole s ≠ 0 ∧ rportOpen s 0 = true ∧ rportOpen s 1 = true ∧ 0 = s.rd Reg.TIME_PTP_CFG.domain ∧ 77 ≠ ownIdentity s ∧ s.tu.parent = some 0 ∧ ptpOn s 0 = true ∧
       s.tu.reqOut = some (0, 7, 100) ∧ s.on Reg.TIME_STATE.gm_self = true ∧ (154, announce 5) ∈ s.tu.heard.filter (fun h => decide ((s.at 5).clk < h.2.at_ + announceLife s))) ∧
    rportOpen idle 0 = false ∧ idle.tu.parent = none ∧ ptpRole (device [(Reg.TIME_PTP_CFG.ptp_role, 0, 0)] []) = 0 ∧
    (networked lockOn [] .reset .reset).on Reg.TIME_STATE.gm_self = false := by decide

/-- The bytes of a frame of `networked`'s ring with origin `o`, hops `h`, this check and no body. -/
def frameOf (rt o h : Nat) (mac : List Byte) (good : Bool) : List Byte :=
  let f := [3, 0x42, 0x52, 0, 0, 0] ++ mac ++ be16 (State.reset.rd Reg.RING_CFG.ethertype) ++ leBytes 1 1 ++ leBytes 1 rt ++ leBytes 2 o ++ leBytes 2 9 ++ leBytes 1 h ++
    List.replicate 39 0
  f ++ (if good then leBytes 4 (crc32 f) else leBytes 4 (crc32 f + 1))

/-- The frame without its check sequence, and what DeviceRing reads from it: its type, its origin, its hops and its source. -/
def frameParts (bs : List Byte) : Bool × Nat × Nat × List Byte :=
  let f := bs.take (bs.length - 4)
  (leNat (bs.drop (bs.length - 4)) == crc32 f, frameType f, frameNat f 20 1, (f.drop 6).take 6)

theorem witness_DeviceRing :
    (let s := networked lockOn [] .reset .reset
     rportOpen s 0 = true ∧ Tbl.find s.net.sentAt 0 = none ∧ s.on Reg.RING_NODE.learned = true ∧ s.rd Reg.RING_NODE.node = 5 ∧ s.rd Reg.RING_PORT_STATE.rlink 0 = 2 ∧
       seenBefore (s.at 5) 9 9 = false ∧ (frameParts (frameOf 0x7F 5 1 (macBytes s) true)).2.2.2 = macBytes s) ∧
    (let s := networked lockOn [] .reset { RingNet.reset with sentAt := [(0, 0)], seen := [(9, 9, 0)] }
     Tbl.find s.net.sentAt 0 = some 0 ∧ (s.at 5).clk < 0 + 9 * msU ∧ 0 + 9 * msU ≤ (s.at (9 * msU)).clk ∧ seenBefore (s.at 5) 9 9 = true) ∧
    (let s := networked lockOn [(Reg.RING_NODE.learned, 0, 0), (Reg.RING_NODE.node, 0, 0x3FFF)] .reset { RingNet.reset with upAt := [(1, 5)] }
     learning s = true ∧ 126 % 128 < 127 ∧ ¬(127 % 128 < 127) ∧ s.on Reg.RING_PORT_STATE.partner_lx 1 = false ∧ s.net.upAt ≠ [] ∧
       s.net.upAt.foldl (fun m u => max m u.2) 0 + 100 * msU ≤ (s.at (5 + 100 * msU)).clk ∧ s.on Reg.RING_NODE.learned = false) ∧
    learning (networked lockOn [] .reset .reset) = false ∧
    (let s := networked lockOn [(Reg.RING_PORT_STATE.partner_lx, 0, 1)] .reset { RingNet.reset with lastNeighbor := [(0, 0)], missed := [(0, 2)] }
     2 = Tbl.get 0 s.net.missed 0 ∧ s.on Reg.RING_PORT_STATE.partner_lx 0 = true ∧ Tbl.get 0 s.net.lastNeighbor 0 + (2 + 1) * (11 * msU) ≤ (s.at (33 * msU)).clk ∧
       (s.at (32 * msU)).clk < Tbl.get 0 s.net.lastNeighbor 0 + (2 + 1) * (11 * msU)) ∧
    28 ≤ (frameOf 0x7F 9 1 (List.replicate 6 0) true).length ∧ frameType (List.replicate 60 0) ≠ idle.rd Reg.RING_CFG.ethertype ∧ frameType (List.replicate 60 0) ≠ ptpEthertype ∧
    frameParts (frameOf 0x7F 9 1 (List.replicate 6 0) true) = (true, idle.rd Reg.RING_CFG.ethertype, 1, List.replicate 6 0) ∧
    frameParts (frameOf 0x7F 9 0 (List.replicate 6 0) false) = (false, idle.rd Reg.RING_CFG.ethertype, 0, List.replicate 6 0) ∧
    isLinkFrame rtNeighbor = true ∧ isLinkFrame 0x7F = false ∧ List.replicate 6 0 ≠ macBytes (networked lockOn [(Reg.RING_MAC_LO.mac_lo, 0, 1)] .reset .reset) ∧
    idle.rd Reg.RING_PORT_STATE.rlink 0 ≠ 2 := by decide

/-- With this state of the Stacks, in mode `m`. -/
def stacked (m : Nat) (x : Stacks) : State := { device [(Reg.MODE_CUR.mode, 0, m), (Reg.MEM_STATUS.frozen, 0, if m = modeFreeze then 1 else 0), (Reg.THERM_STATUS.flash_ok, 0, 1)] [] with st := x }

/-- A read of 32 bytes at address 0 by port 3. -/
def request : MemReq := { port := 3, source := 0, addr := 0, len := 32, data := none, arrived := 0, reserved := true }

theorem witness_StacksAndFreeze :
    (stacked modeFreeze .reset).frozen = true ∧ (stacked modeIdle .reset).frozen = false ∧ epochOutstanding (epoched 1) = true ∧
    areaOf (stacksSize - 1) = .stacks ∧ areaOf stacksSize ≠ .stacks ∧
    (let s := stacked modeIdle { Stacks.reset with queue := [request] }
     memNext s 0 = some request ∧ memNext s 1 = none ∧ request ∈ s.st.queue ∧ pcOf request.addr = 0 ∧ sidOf request.addr * 16 + bankOf request.addr = 0) ∧
    (stacked modeIdle .reset).rd Reg.MODE_CUR.power ≠ 2 ∧ (stacked modeIdle .reset).st.scrubPos + 1 < stacksSize / 32 ∧
    stacksSize / 32 ≤ (stacked modeIdle { Stacks.reset with scrubPos := stacksSize / 32 - 1 }).st.scrubPos + 1 ∧
    (stacked modeIdle .reset).st.repairDue = [] ∧
    (let s := stacked modeIdle { Stacks.reset with repairDue := [0, 1], spares := [(0, 31), (1, 32)] }
     s.st.repairDue = 0 :: [1] ∧ Tbl.get 0 s.st.spares (0 % 2 ^ 12) = 31 ∧ Tbl.get 0 s.st.spares (1 % 2 ^ 12) = 32) ∧
    (∃ r, r ∈ ({ stacked modeIdle .reset with fl := { Flash.reset with repair := [(1, 0, false)] } } : State).fl.repair ∧ r.2.2 = false) ∧
    (stacked modeIdle .reset).on Reg.THERM_STATUS.flash_ok = true ∧ ((stacked modeIdle .reset).wr Reg.THERM_STATUS.flash_ok 0 0).on Reg.THERM_STATUS.flash_ok = false ∧
    windowOk (idle.at 5) 1 = false ∧ windowOk ((recalRuns 2 1 []).at 5) 1 = true ∧
    windowOk ({ recalRuns 2 1 [] with st := { Stacks.reset with windows := 127 } } |>.at 5) 1 = true ∧
    (let s := { stacked modeFreeze .reset with fire := { Fire.reset with freezeAt := some 0 } }
     freezeOver (s.at (50 * msU)) = true ∧ freezeOver (s.at 5) = false) ∧
    (stacked modeIdle .reset).st.bankSpares = [64, 65, 66, 67] ∧ (stacked modeIdle .reset).st.testing = none ∧
    (stacked modeIdle .reset).st.rotAt + rotPeriod (stacked modeIdle .reset) ≤ ((stacked modeIdle .reset).at (rotPeriod (stacked modeIdle .reset))).clk ∧
    (stacked modeIdle { Stacks.reset with testing := some 9 }).st.testing = some 9 := by
  refine ⟨by decide, by decide, by decide, by decide, by decide, by decide, by decide, by decide, by decide, by decide, by decide, ⟨(1, 0, false), by decide⟩, by decide⟩

/-! ### Witnesses: the Bindery, Scribes and lanes -/

/-- Bindery unit 0 as `x`, its ring 0x20 holding these two descriptors of `n` published. -/
def binding (x : Bindery) (d e : List Byte) (n : Nat) : State :=
  { device [(Reg.MODE_CUR.mode, 0, modeIdle)] [(chBnd 0, [(BndE.unitEn, 1), (BndE.inRing, 0x20)]), (chRing 0x20, [(RingE.base, rrBase), (RingE.log2Size, 4), (RingE.direction, 1)])] with
    mem := Mem.write (Mem.write [] rrBase d) (rrBase + 32) e, rings := [(0x20, { Ring.reset with prod := n })], bnd := [(0, x)] }

/-- COMPRESS of 1 byte at 0x1000, the first of its stream and its last (`op` 1, `flush` 3), and the descriptor of its output of `n` bytes at 0x2000. -/
def packDesc : List Byte := descBytes 0x1000 1 0x7407 true
def packOut (n : Nat) : List Byte := descBytes 0x2000 n 0x7000 false

/-- The job of `packDesc` under way, its byte 5 held and its header written, with this effort. -/
def packing (effort : Nat) : Bindery :=
  { Bindery.reset with job := some (0, 1), src := 0x1000, srcLen := 1, dst := 0x2000, dstCap := 64, opcode := 0x7407 + 16 * effort, isOpen := true, sop := 1, held := [5], text := [5], headed := true }

/-- Scribe 0 in state `st` with logical number 0, an image of no bytes, and `leaving` as given. -/
def scribed (st : Nat) (leaving : Option (Nat × Nat)) : State :=
  { device [(Reg.MODE_CUR.mode, 0, modeIdle), (Reg.SCRIBE_MAP.valid, 0, 1), (Reg.SCRIBE_STATE.state, 0, st)]
      [(chScribe 0, [(ScribeE.carrelImage, 0x1000)]), (chScribe 1, [(ScribeE.carrelImage, 0x2000)])] with
    mem := Mem.write [] 0x1000 (leBytes 4 0x4F4C4D4B ++ leBytes 2 1), engines := [(0, { Engine.reset with leaving := leaving })] }

theorem witness_BinderyAndRestarts :
    bfirstOf 0x7407 = true ∧ areaOf 0x1000 ≠ .readingRoom ∧ (bopOf 0x7407 == opCompress) = true ∧
    ((binding (packing 0) [] [] 0).bind 0).headed = true ∧
    (scribed 1 none).entry (chScribe 0) = some (entry [(ScribeE.carrelImage, 0x1000)]) ∧ imageCheck (scribed 1 none) (entry [(ScribeE.carrelImage, 0x1000)]) = 0 ∧
    imageCheck (scribed 1 none) (entry [(ScribeE.carrelImage, 0x2000)]) ≠ 0 ∧
    (let s := (binding .reset packDesc (packOut 65571) 2).at 5
     0x20 = s.ent (chBnd 0) BndE.inRing ∧ bndMayRun s 0 = true ∧ s.ringUp 0x20 = true ∧ s.ringHolds 0x20 = 2 ∧ (s.ring 0x20).cons = 0 ∧
       (bopOf (s.desc 0x20 0).opcode == opDecompress) = false ∧ (s.desc 0x20 0).chain = true ∧ bndRefusal s (s.bind 0) (s.desc 0x20 0) (s.desc 0x20 1) = 0) ∧
    (let s := (binding .reset packDesc (packOut 65570) 2).at 5
     bndRefusal s (s.bind 0) (s.desc 0x20 0) (s.desc 0x20 1) = 0x704) ∧ (binding .reset packDesc (packOut 65571) 1).ringHolds 0x20 < 2 ∧
    ((binding .reset (packOut 65571) (packOut 65571) 2).desc 0x20 0).chain = false ∧ bndMayRun idle 0 = false ∧ blockDue (idle.bind 0) = false ∧
    blockDue (packing 0) = true ∧ beffortOf (packing 0).opcode = 0 ∧ beffortOf (packing 6).opcode ≠ 0 ∧
    blockDecodes [] [5] true ((bitsOf ([1, 1, 0, 0xFE, 0xFF, 5])).take 48) 0 = true ∧ blockDecodes [] [5] true [] 0 = false ∧
    (binding (packing 0) [] [] 2 |>.bind 0).job = some (0, 1) ∧ blockDue { packing 0 with finished := true } = false ∧ (idle.bind 0).job = none ∧
    hostOpen (scribed 1 none) = true ∧ (scribed 1 none).physOf 0 = some 0 ∧ idle.physOf 16 = none ∧ (scribed 1 none).rd Reg.SCRIBE_STATE.state 0 = 1 ∧ ((scribed 1 none).eng 0).leaving = none ∧
    (List.range 16).find? (fun p => (scribed 3 none).rd Reg.SCRIBE_STATE.state p == 3 && (scribed 3 none).rd Reg.SCRIBE_INFO.logical p == 0 && !scribeTaken (scribed 3 none) p) = some 0 ∧
    (List.range 16).find? (fun p => (scribed 1 none).rd Reg.SCRIBE_STATE.state p == 3 && (scribed 1 none).rd Reg.SCRIBE_INFO.logical p == 0 && !scribeTaken (scribed 1 none) p) = none ∧
    ((scribed 1 (some (1, 1))).eng 0).leaving = some (1, 1) ∧ ((scribed 1 (some (1, 1))).eng 0).running = none ∧
    (let y := dropPopped (spareEntry ((scribed 1 (some (1, 2))).at 5) 0 1) 0
     (match y.entry (chScribe 1) with | some e => imageCheck y e | none => 1) = 0 ∧ y.entry (chScribe 1) ≠ none ∧
     (match y.entry (chScribe 1) with | some e => imageCheck (loadCarrel y 1 e) e | none => 1) = 0) := by
  simp only [Laws.imageCheck_loadCarrel]
  decide

/-- Lane 1 in state `st` as `x`, lane 5 the spare of its group, with these registers and moves. -/
def laned (st : Nat) (x : Lane) (rs : List (Fld × Nat × Nat)) (ms : List LaneMove) : State :=
  { device ([(Reg.MODE_CUR.mode, 0, modeIdle), (Reg.LANE_STATE.lstate, 1, st), (Reg.LANE_STATE.lstate, 5, 3)] ++ rs) [] with
    ln := { Lanes.reset with lanes := [(1, x)], moves := ms } }

/-- The move of logical lane 1 to lane 5, at this step since instant 0. -/
def moveAt (planned : Bool) (step : Nat) : LaneMove := { l := 1, a := 1, b := 5, step := step, planned := planned, since := 0, asked := false }

theorem witness_LanesAndMoves :
    (laned 1 { Lane.reset with full := true, called := true } [] []).ln.boot = 0 ∧ ((laned 1 { Lane.reset with full := true, called := true } [] []).lane 1).full = true ∧
    logicalOn (laned 2 .reset [] []) 5 = none ∧ ((laned 2 .reset [] []).lane 5).proving = false ∧ logicalOn (laned 2 .reset [] []) 1 = some 1 ∧
    (let b := bootDue ((laned 0 { Lane.reset with called := true } [] []).at 5)
     (b.lane 1).called = true ∧ b.rd Reg.MODE_CUR.power = 0 ∧ (b.lane 2).called = false) ∧
    (bootDue ((laned 1 .reset [] []).at 5)).lstate 1 = 1 ∧ (bootDue ((laned 2 .reset [] []).at 5)).lstate 1 ≠ 1 ∧
    (let s := laned 2 .reset [(Reg.LANE_STATE.block_lock, 1, 1), (Reg.PRBS_CTRL.gen_en, 5, 1), (Reg.PRBS_CTRL.chk_en, 5, 1), (Reg.PRBS_CTRL.inj_period, 5, 3)] []
     s.on Reg.LANE_STATE.block_lock 1 = true ∧ s.lstate 1 ≠ 5 ∧ carriesTraffic s 5 = false ∧ s.on Reg.PRBS_CTRL.gen_en 5 = true ∧ s.rd Reg.PRBS_CTRL.inj_period 5 ≠ 0 ∧
       s.lstate 5 = 3 ∧ s.on Reg.PRBS_CTRL.chk_en 5 = true ∧ s.on Reg.PRBS_CTRL.chk_sync 5 = false ∧ (1, 3) = laneUnit 51 ∧ (0, 47) = laneUnit 47) ∧
    (let s := laned 1 { Lane.reset with full := true, fails := [0] } [] []
     s.on Reg.LANE_STATE.block_lock 1 = false ∧ s.lstate 1 = 1 ∧ (s.lane 1).full = true ∧ (((s.at 5).clk :: (s.lane 1).fails).filter (fun a => decide ((s.at 5).clk ≤ a + 10 * secU))).length < 3) ∧
    (let s := laned 1 { Lane.reset with full := true, fails := [0, 0] } [] []
     3 ≤ (((s.at (10 * secU)).clk :: (s.lane 1).fails).filter (fun a => decide ((s.at (10 * secU)).clk ≤ a + 10 * secU))).length) ∧
    (∀ m ∈ [moveAt true 2, moveAt true 4, moveAt false 4, moveAt true 6], curMove (bootDue ((laned 2 .reset [] [m]).at 5)) = some m) ∧
    curMove (bootDue (idle.at 5)) = none ∧ (bootDue ({ idle with ln := { Lanes.reset with boot := 1 } } |>.at 5)).ln.boot = 1 ∧
    (bootDue ({ idle with ln := { Lanes.reset with boot := 2 } } |>.at 5)).ln.boot = 2 ∧
    (laned 2 .reset [] []).lstate (physLane (laned 2 .reset [] []) 1) = 2 ∧ moving (laned 2 .reset [] []) 1 = false ∧ freeSpare (laned 2 .reset [] []) 1 = some 5 ∧
    (idle.lstate (physLane idle 0) ≠ 2) ∧ (laned 5 .reset [] []).lstate 1 = 5 ∧ (laned 2 .reset [] []).lstate 1 ≠ 5 ∧
    (moveAt true 6).since + 2 * usU ≤ ((laned 2 .reset [] []).at (2 * usU)).clk ∧ ((laned 2 .reset [] []).at (2 * usU - 1)).clk < (moveAt true 6).since + 2 * usU ∧
    (moveAt true 5).since + 100 * usU ≤ ((laned 2 .reset [] []).at (100 * usU)).clk ∧ ((laned 2 .reset [] []).at 5).clk < (moveAt true 5).since + 100 * usU ∧
    (let s := laned 6 { Lane.reset with proving := true } [(Reg.LANE_STATE.block_lock, 1, 1)] []
     (s.lane 1).proving = true ∧ s.lstate 1 = 6 ∧ s.on Reg.LANE_STATE.block_lock 1 = true) ∧ idle.on Reg.LANE_STATE.block_lock 1 = false := by decide

/-! ### Witnesses: the pair -/

/-- A device of a pair in this role and mode, all four twin lanes in service, with these registers and pair state. -/
def paired (role m : Nat) (rs : List (Fld × Nat × Nat)) (x : Pair) : State :=
  { device ([(Reg.MODE_CUR.mode, 0, m), (Reg.PAIR_CFG.pair_en, 0, 1), (Reg.PAIR_STATUS.role_now, 0, role), (Reg.LANE_STATE.lstate, 48, 2), (Reg.LANE_STATE.lstate, 49, 2),
      (Reg.LANE_STATE.lstate, 50, 2), (Reg.LANE_STATE.lstate, 51, 2)] ++ rs) [(chDl 0, [(DlE.portEn, 1), (DlE.servoNs, 125000)]), (chAxis 1, [(AxisE.axisEn, 1), (AxisE.drive, 1), (AxisE.cntNum, 1), (AxisE.cntDen, 1)])] with
    pair := x }

theorem witness_TwinLink :
    idle.on Reg.PAIR_CFG.pair_en = false ∧ (paired 1 modeIdle [] .reset).on Reg.PAIR_CFG.pair_en = true ∧
    (∀ ty ∈ [osTwinCredit, osTwinAck, osTwinNak, osTwinFail, osTwinHb, osTwinLevel], backSet ty 0 = none ∧ backSet ty (orderedSetWord ty (5 * 2 ^ 32)) = some (5 * 2 ^ 32)) ∧
    bits (roleActive * 2 ^ 46 + modePrint * 2 ^ 42) 46 2 = roleActive ∧ bits (roleActive * 2 ^ 46 + modePrint * 2 ^ 42) 42 4 = modePrint ∧
    (let s := paired 2 modeReload [(Reg.PAIR_STATUS.twin_lost, 0, 1)] { Pair.reset with heardAt := some 0, reloadEnd := some 0 }
     2 = ((s.at (3 * usU)).clk - 0) / usU - 1 ∧ true = (s.on Reg.PAIR_STATUS.twin_lost && decide (3 ≤ (twinLanes s).length)) ∧ s.mode = modeReload ∧
       s.on Reg.PAIR_STATUS.role_clash = false ∧ s.primary = false ∧ s.pair.seen = false ∧ 0 + 200 * msU ≤ (s.at (200 * msU)).clk) ∧
    (paired 2 modeShadow [] { Pair.reset with syncAtHb := true }).role = roleStandby ∧ (paired 2 modeShadow [] { Pair.reset with syncAtHb := true }).pair.syncAtHb = true ∧
    (paired 1 modeIdle [] .reset).role ≠ roleStandby ∧ (paired 2 modeShadow [] .reset).pair.syncAtHb = false ∧
    (let s := paired 1 modeIdle [] { Pair.reset with heardAt := some 0 }
     s.on Reg.PAIR_STATUS.twin_lost = false ∧ silent (s.at (4 * usU)) = true ∧ silent (s.at 5) = false ∧ 3 ≤ (twinLanes s).length) ∧ (twinLanes idle).length < 3 ∧
    (let s := paired 2 modeShadow [] { Pair.reset with seqIn := 7 }
     7 = s.pair.seqIn ∧ 0 < diff32 s.pair.seqIn 6 ∧ diff32 s.pair.seqIn 6 < 2 ^ 31 ∧ 6 ≠ s.pair.seqIn ∧ 8 ≠ s.pair.seqIn ∧
       ¬(0 < diff32 s.pair.seqIn 8 ∧ diff32 s.pair.seqIn 8 < 2 ^ 31) ∧ (s.at 5).clk < (s.at 5).clk + 20 * usU) ∧
    (let s := paired 2 modeShadow [] { Pair.reset with seqIn := 7, nak := some (7, 0) }
     s.pair.nak = some (7, 0) ∧ 0 + 20 * usU ≤ (s.at (20 * usU)).clk) ∧
    (let s := { paired 0 modeReload [] .reset with fl := { Flash.reset with cause := 1, bootAt := none } }
     s.mode = modeReload ∧ s.fl.cause ≠ 0 ∧ s.fl.resetAsk = none ∧ s.pair.reloadEnd = none ∧
       (if s.fl.bootAt.isSome && !s.fl.noImage then bootRun (s.at 5) else s.at 5).fl.bootAt = none) ∧
    (let s := { paired 0 modeReload [] .reset with fl := { Flash.reset with cause := 1, bootAt := some 0, noImage := true } }
     (if s.fl.bootAt.isSome && !s.fl.noImage then bootRun (s.at 5) else s.at 5).fl.bootAt ≠ none) ∧ idle.mode ≠ modeReload ∧
    (let s := paired 1 modeReload [(Reg.PAIR_STATUS.primary, 0, 1)] { Pair.reset with reloadEnd := some 0 }
     s.primary = true ∧ s.pair.reloadEnd = some 0 ∧ 0 + 10 * msU ≤ (s.at (10 * msU)).clk) := by decide

theorem witness_PairRecords :
    (paired 2 modeShadow [] .reset).role = roleStandby ∧ (paired 1 modeIdle [] .reset).role = roleActive ∧ idle.on Reg.PAIR_CFG.pair_en = false ∧
    curJob idle = none ∧ (curJob printing).isSome = true ∧ printing.la.jobs ≠ [] ∧ (∃ p, p ∈ printing.la.pages ∧ p.addr = 0x400 ∧ p.first - p.base = 0) ∧
    (∀ p ∈ printing.la.pages, p.addr = 0x400 → p.first - p.base ≠ 1) ∧ axisAt (paired 2 modeShadow [] .reset) 0 1 = some 1 ∧
    (let s := paired 2 modeShadow [(Reg.PAIR_MIR_SIZE.mir_size, 0, 1)] .reset
     s.role ≠ roleActive ∧ s.frozen = false ∧ mirrored s 65535 = true ∧ mirrored s 65536 = false ∧ areaOf rrBase = .readingRoom ∧ areaOf 65536 ≠ .readingRoom) ∧
    true = ((printing.wr Reg.LA_STATUS.job_open 0 1).on Reg.LA_STATUS.job_open && decide (absLine printing 4 < ({ printing.fire with refNext := 5 } : Fire).refNext)) ∧
    (paired 2 modeShadow [(Reg.PAIR_STATUS.in_sync, 0, 1)] .reset).on Reg.PAIR_STATUS.in_sync = true ∧
    mirroredChan (HdrE.channel.get (entry [(HdrE.channel, chPlane 0)])) = true ∧ (entry [(HdrE.channel, chPlane 0)]).length = 128 ∧ mirroredChan (HdrE.channel.get (entry [(HdrE.channel, chRing 0)])) = false ∧
    (List.replicate 32 (2 : Byte)).length = 32 ∧
    (let s := paired 2 modeShadow [(Reg.PAIR_STATUS.in_sync, 0, 1)] { Pair.reset with marked := true }
     syncHolds (s.at 5) true 1 = true ∧ syncHolds (s.at 5) false 1 = false ∧ s.on Reg.PAIR_STATUS.in_sync = true ∧ syncHolds (idle.at 5) true 1 = false) ∧
    (let q := { part with sosAt := some 0 }
     ((held q .reset).slot 0).parts.find? (fun q => match q.sosAt with | some a => decide (a + 50 * usU ≤ ((held q .reset).at (50 * usU)).clk) | none => false) = some q ∧
       (held q .reset).mode ≠ modeShadow ∧ q.taken = false ∧ { q with taken := true }.taken = true ∧ ((held q .reset).wr Reg.MODE_CUR.mode 0 modeShadow).mode = modeShadow) := by
  refine ⟨by decide, by decide, by decide, by decide, by decide, by decide, ⟨page, by decide⟩, by decide, by decide, by decide, by decide, by decide, by decide, by decide, by decide, by decide, by decide,
    by decide⟩

/-- What makes a partner ready at instant 0. -/
def ready : Pair := { Pair.reset with heardAt := some 0, heardSync := true, heardFit := true }

/-- An active device, ready to hand over at a page boundary, whose web moves one wp in a microsecond and whose next page is 4,000 lines ahead. -/
def travelling : State :=
  { paired 1 modePrint [(Reg.LA_STATUS.job_open, 0, 1), (Reg.FS_PITCH.line_pitch, 0, 2 ^ 20)] { ready with handWait := 1 } with
    clk := 2 * usU, la := { Raster.reset with pages := [{ page with first := 4000 }] }
    cat := (device [] [(chFb 0, [(FbE.kind, 1), (FbE.cpr, 4096), (FbE.zeroTimeout, 20), (FbE.wpNum, 1), (FbE.spdEdges, 1), (FbE.wpDen, 1)])]).cat
    mot := { Motion.reset with inputs := [(0, { FbInput.reset with edges := [(2 * usU, 1), (usU, 0)] })] } }

theorem witness_Handover :
    (∀ v ∈ [0, modePrint], (paired 2 modeShadow [(Reg.MODE_CUR.shadow_of, 0, v)] .reset).rd Reg.MODE_CUR.shadow_of = v) ∧ (paired 2 modeShadow [] .reset).role = roleStandby ∧
    (let z := paired 1 modeIdle [] { ready with handWait := 1 }
     z.pair.handWait ≠ 0 ∧ z.pair.handAt = none ∧ z.pair.handLine = none ∧ handAllowed z = true ∧ z.on Reg.LA_STATUS.job_open = false) ∧
    (let z := paired 1 modePrint [(Reg.LA_STATUS.job_open, 0, 1)] { ready with handWait := 1 }
     handAllowed z = true ∧ z.pair.handWait ≠ 2 ∧ z.on Reg.LA_STATUS.job_open = true ∧ handPage z = none) ∧
    (∃ z, handAllowed z = true ∧ z.pair.handWait = 1 ∧ z.on Reg.LA_STATUS.job_open = true ∧ handPage z = some 4000) ∧
    (let s := paired 2 modeShadow [] { Pair.reset with watch := 2 }
     true = (s.mode == modeShadow && (s.pair.watch == 2 || (s.pair.watch == 1 && silent (s.at 5) && othersUnheard s)) && !s.on Reg.PAIR_STATUS.role_clash)) ∧
    (let s := paired 2 modeShadow [] { Pair.reset with watch := 1, heardAt := some 0 }
     true = (s.pair.watch == 1 && silent (s.at (4 * usU)) && othersUnheard s)) ∧ idle.mode ≠ modeShadow ∧ idle.pair.reportAt = none ∧
    (let s := { device [(Reg.MODE_CUR.mode, 0, modeIdle)] [(chRing 5, [(RingE.base, rrBase), (RingE.log2Size, 4), (RingE.direction, 2)])] with pair := { Pair.reset with reportAt := some 0, hoSide := 1 } }
     s.pair.reportAt = some 0 ∧ (s.at 5).clk < 0 + 100 * usU ∧ 0 + 100 * usU ≤ (s.at (100 * usU)).clk ∧ s.ringOpen 5 = true ∧ idle.ringOpen 5 = false) ∧
    hostOpen (paired 1 modeIdle [] ready) = true ∧ handAllowed ((paired 1 modeIdle [] ready).at 5) = true ∧ (paired 1 modeIdle [] ready).pair.handWait = 0 ∧ hostOpen State.reset = false ∧
    handAllowed (idle.at 5) = false ∧ handNear (idle.at 5) = none ∧ handDue (idle.at 5) = false ∧
    (let s := paired 1 modeIdle [] { ready with handAt := some (20 * usU) }
     handNear (s.at 0) = some (20 * usU) ∧ s.pair.handSeq = none ∧ s.role = roleActive ∧ handDue (s.at (20 * usU)) = true ∧ handApplied s = false) ∧
    handApplied (paired 1 modeIdle [] { ready with handAt := some 0, handSeq := some 3 }) = true ∧ idle.pair.handGot = none ∧
    (let s := paired 2 modeShadow [] { Pair.reset with handGot := some (usU, [(9, 4)]) }
     s.pair.handGot = some (usU, [(9, 4)]) ∧ s.mode = modeShadow ∧ usU + usU / 2 ≤ (s.at (2 * usU)).devTime ∧ (s.at usU).devTime < usU + usU / 2) ∧
    (let s := paired 1 modeIdle [] { ready with wtrFrom := some 0 }
     s.pair.wtrFrom = some 0 ∧ 0 + s.rd Reg.PAIR_CFG.wtr_s * secU ≤ (s.at (s.rd Reg.PAIR_CFG.wtr_s * secU)).clk ∧ (s.at 5).clk < 0 + s.rd Reg.PAIR_CFG.wtr_s * secU ∧ s.role = roleActive ∧
       s.primary = false ∧ s.pair.handWait = 0) := by
  refine ⟨by decide, by decide, by decide, by decide,
    ⟨travelling, by decide⟩,
    by decide⟩

/-! ### Witnesses: temperature, resets, flash and the GP-40 mode -/

/-- Sensors 1 and 2, the neighbours of sensor 0, are ok at 25 °C; sensor 0 is in state `st`; with these registers and this thermal state. -/
def sensed (st : Nat) (rs : List (Fld × Nat × Nat)) (x : Thermal) : State :=
  { device ([(Reg.MODE_CUR.mode, 0, modeIdle), (Reg.THERM_SENS.s_state, 0, st), (Reg.THERM_SENS.s_state, 1, 0), (Reg.THERM_SENS.s_state, 2, 0), (Reg.THERM_SENS.s_value, 1, 400),
      (Reg.THERM_SENS.s_value, 2, 400), (Reg.THERM_SENS_RAW.s_raw, 0, 400), (Reg.THERM_SENS_NBR.nbr, 0, 1), (Reg.THERM_SENS_NBR.nbr, 1, 2), (Reg.THERM_SENS_NBR.nbr, 2, 63),
      (Reg.THERM_SENS_NBR.nbr, 3, 63), (Reg.THERM_SENS_NBR.nbr, 4, 63), (Reg.THERM_SENS_NBR5.nbr_5, 0, 63)] ++ rs) [] with
    th := { x with sensors := [(0, { Sensor.reset with lastAt := some 0 }), (1, { Sensor.reset with lastAt := some 0 }), (2, { Sensor.reset with lastAt := some 0 })] } }

theorem witness_ThermalAndResets :
    (sensed 0 [] .reset).rd Reg.THERM_SENS.s_state 0 = 0 ∧ (sensed 2 [] .reset).rd Reg.THERM_SENS.s_state 0 = 2 ∧ nbrMedian (sensed 0 [] .reset) 0 = some 400 ∧
    sensSubEn (sensed 0 [] .reset) 0 = true ∧ 2 ≤ (okNeighbours (sensed 0 [] .reset) 0).length ∧ nbrMedian idle 0 = none ∧
    401 ≠ (sensed 0 [] .reset).rdi Reg.THERM_SENS_RAW.s_raw 0 ∧ 0 < (sensed 0 [] .reset).rd Reg.THERM_XCHECK.xcount ∧ 0 ∉ neighbours (sensed 0 [] .reset) 0 ∧
    liveSensors idle = [] ∧ liveSensors (sensed 0 [] .reset) ≠ [] ∧
    (let z := { idle with md := { Modes.reset with coolReset := true } }
     z.md.coolReset = true ∧ z.rd Reg.THERM_STATUS.die_state = 0 ∧ z.md.tripped = false ∧ idle.md.coolReset = false) ∧
    ({ idle with fl := { Flash.reset with resetAsk := some (2, 0) } } : State).fl.resetAsk = some (2, 0) ∧ idle.fl.resetAsk = none ∧ linesOut idle = false ∧
    (held part .reset).fl.resetAsk = none ∧ (held part .reset).mode ≠ modeShadow ∧ (held part .reset).mode ≠ modeFreeze ∧ (held part .reset).mode ≠ modeCold ∧
    (held part .reset).mode ≠ modeReload ∧ linesOut (held part .reset) = true ∧ 0 < stacksSize ∧
    0 + 200 * usU ≤ ((sensed 0 [] .reset).at (200 * usU)).clk ∧ (idle.sensor 0).lastAt = none ∧
    (let s := { device [] [(chTrig 61, [(TrigE.trigEn, 1), (TrigE.action, 2)])] with tu := { TimeUnit.reset with sweepDue := true } }
     s.tu.sweepDue = true ∧ sweepTriggered s = true ∧ sweepTriggered idle = false) ∧
    ((sensed 2 [] .reset).rdi Reg.THERM_SENS_RAW.s_raw 0 - 400 - sensOffset (sensed 2 [] .reset) 0).natAbs ≤ 16 * (sensed 2 [] .reset).rd Reg.THERM_XCHECK.xdev ∧
    (if (sensed 0 [] { Thermal.reset with tripDue := true }).th.tripDue then 1 % 4 else 1 / 2 % 2 * 2) = 1 ∧ (if idle.th.tripDue then 1 % 4 else 1 / 2 % 2 * 2) = 0 ∧ idle.md.tripped = false ∧
    (let s := { device [(Reg.MODE_CUR.mode, 0, modeIdle), (Reg.THERM_STATUS.tj, 0, 400), (Reg.THERM_TJ_PEAK.tj_min, 0, 400)] [] with th := { Thermal.reset with refused := true, goodAt := some 0 } }
     s.th.goodAt = some 0 ∧ s.th.refused = true ∧ flashGood s 93 2 = true ∧ 0 + 10 * secU ≤ (s.at (10 * secU)).clk ∧ (s.at 5).clk < 0 + 10 * secU) ∧ idle.th.refused = false ∧
    hostOpen idle = true ∧ idle.pair.handReset = false ∧ activeOfPair idle = false ∧ activeOfPair (paired 1 modeIdle [] ready) = true ∧
    handAllowed ((paired 1 modeIdle [] ready).at 5) = true ∧ handAllowed ((paired 1 modeIdle [] .reset).at 5) = false ∧
    (let s := { sensed 0 [(Reg.THERM_SENS.s_value, 1, 1600)] .reset with md := { Modes.reset with tripped := true } }
     s.md.tripped = true ∧ 1 ∈ liveSensors s ∧ 1600 ≤ s.rdi Reg.THERM_SENS.s_value 1) ∧
    (∀ k ∈ liveSensors (sensed 0 [] .reset), (sensed 0 [] .reset).rdi Reg.THERM_SENS.s_value k < 1600) ∧ State.reset.mode = modeCold ∧ idle.mode ≠ modeCold ∧
    (idle.at 5).clk < 0 + 50 * usU ∧ 0 + 50 * usU ≤ (idle.at (50 * usU)).clk := by decide

/-- In IDLE with flash writes as `ok` says, the staging bank in state `st`, and this state of the flash. -/
def flashed (ok st : Nat) (x : Flash) : State :=
  { device [(Reg.MODE_CUR.mode, 0, modeIdle), (Reg.THERM_STATUS.flash_ok, 0, ok), (Reg.UPD_STATUS.stage_state, 0, st), (Reg.BOOT_STATUS.unconfirmed, 0, 1),
      (Reg.RING_PORT_STATE.partner_lx, 0, 1), (Reg.RING_PORT_STATE.rlink, 0, 2), (Reg.UPD_PEER.known, 0, st % 2), (Reg.UPD_ADDR_LO.upd_addr_lo, 0, 0x1000)] [] with fl := x }

/-- A settings slot without records that passes its check (Table 15-4). -/
def emptySlot : List Byte :=
  let b := leBytes 4 0x54455353 ++ leBytes 2 1 ++ List.replicate 14 0
  b ++ leBytes 4 (crc32 (b ++ List.replicate 44 0)) ++ List.replicate 40 0

theorem witness_SettingsAndUpdate :
    flashOk (flashed 1 3 .reset) = true ∧ flashOk (flashed 0 3 .reset) = false ∧ (flashed 1 3 .reset).fl.recA.gen + 1 < 2 ^ 32 ∧ (flashed 1 3 .reset).fl.recB.gen + 1 < 2 ^ 32 ∧
    idle.on Reg.BOOT_STATUS.unconfirmed = false ∧ (flashed 1 3 .reset).on Reg.BOOT_STATUS.unconfirmed = true ∧ (flashed 1 3 .reset).fl.expired = false ∧
    facesDevice (flashed 1 3 .reset) 0 = true ∧ Tbl.find (flashed 1 3 .reset).fl.send 0 = none ∧ facesDevice idle 0 = false ∧ rportOpen (flashed 1 3 .reset) 0 = true ∧
    hostOpen (flashed 1 3 .reset) = true ∧ (flashed 1 3 .reset).on Reg.SET_STATUS.set_busy = false ∧ hostOpen State.reset = false ∧
    slotValid emptySlot = true ∧ emptySlot.length = 64 ∧ slotFmt emptySlot = imgFmt (flashed 1 3 .reset).fl.header ∧ slotRecs emptySlot = [] ∧ slotValid [] = false ∧
    (flashed 1 3 { Flash.reset with setJob := some (0, emptySlot), setStarted := true }).fl.setJob = some (0, emptySlot) ∧
    (flashed 1 3 { Flash.reset with setJob := some (0, emptySlot), setStarted := true }).fl.setStarted = true ∧ idle.fl.setJob = none ∧ emptySlot ≠ [] ∧
    receiving (flashed 1 3 .reset) = false ∧ (bootRec (flashed 1 3 .reset)).armed = false ∧ (flashed 1 3 .reset).fl.arming = false ∧
    (flashed 1 3 .reset).rd2 Reg.UPD_ADDR_LO.upd_addr_lo Reg.UPD_ADDR_HI.upd_addr_hi = 0x1000 ∧
    max 1024 (min 33554432 ((flashed 1 3 .reset).peekNat (0x1000 + 8) 4)) = 1024 ∧ areaOf 0x1000 = .stacks ∧ areaOf (0x1000 + 1024 - 1) = .stacks ∧
    ¬((areaOf rrBase = .stacks ∨ areaOf rrBase = .host) ∧ areaOf (rrBase + 1024 - 1) = areaOf rrBase) ∧
    true = ((flashed 1 3 .reset).rd Reg.UPD_STATUS.stage_state == 3 || (flashed 1 3 .reset).rd Reg.UPD_STATUS.stage_state == 5) ∧
    false = ((flashed 1 4 .reset).rd Reg.UPD_STATUS.stage_state == 3 || (flashed 1 4 .reset).rd Reg.UPD_STATUS.stage_state == 5) ∧
    (bootRec (flashed 1 3 .reset)).unconfirmed = false ∧ levelsFit (flashed 1 5 .reset) (List.replicate 512 255) = false ∧
    levelsFit ((flashed 1 3 .reset).wr Reg.UPD_PEER.known 0 0) (imgHeader (flashed 1 3 .reset) stagingBase) = true ∧
    (flashed 1 3 { Flash.reset with arming := true }).fl.arming = true ∧ (bootRec (flashed 1 4 { Flash.reset with recA := { BootRec.reset with armed := true } })).armed = true ∧
    confirmReady (idle.at 5) = false ∧
    confirmReady ((device [(Reg.MODE_CUR.mode, 0, modeIdle), (Reg.MEM_STATUS.trained, 0, 1), (Reg.SCRIBE_STATE.state, 0, 4), (Reg.SCRIBE_MAP.valid, 0, 1)] [(chScribe 0, [])]).at 5) = true ∧
    (let s := flashed 1 4 { Flash.reset with confirmEnd := some 9 }
     s.fl.confirmEnd = some 9 ∧ s.on Reg.BOOT_STATUS.unconfirmed = true ∧ s.fl.expired = false ∧ 9 ≤ (s.at 9).devTime ∧ (s.at 8).devTime < 9) ∧ idle.fl.confirmEnd = none ∧
    ¬(({ Flash.reset with verify := 1 } : Flash).send = [] ∧ ({ Flash.reset with verify := 1 } : Flash).recv = none ∧ ({ Flash.reset with verify := 1 } : Flash).verify = 0) := by decide

/-- The header of an image of 70,000 bytes signed with key 0, before its digests (Table 15-1). -/
def imageHead : List Byte := leBytes 4 0x4D49584C ++ leBytes 2 1 ++ leBytes 1 0 ++ leBytes 1 1 ++ leBytes 4 70000 ++ leBytes 4 9 ++ List.replicate 1008 0

/-- A transfer of 70,000 bytes to port 0 in this phase. -/
def sender (phase next : Nat) (unacked resend : List Nat) : Sender :=
  { id := 7, base := 0x1000, len := 70000, next := next, unacked := unacked, resend := resend, phase := phase, lastType := rtOffer, lastBody := [], repeats := 0, askedAt := some 0, nextAt := 0 }

/-- Whether a header passes rests on free values alone (the digest of the key and the fuses, logs of Config) once its other fields are right, as those of `imageHead` are. -/
theorem witness_ImageTransfer_header :
    imgHeaderOk imageHead = (Config.sha384 ((imageHead.drop 320).take 96) == keyDigest 0 && !keyRevoked 0) := by rfl

theorem witness_ImageTransfer :
    facesDevice (flashed 1 3 .reset) 0 = true ∧ facesDevice idle 0 = false ∧ flashOk (flashed 1 3 .reset) = true ∧ imgHeaderOk [] = false ∧
    holdsImage { flashed 1 1 .reset with fl := { Flash.reset with header := imageHead, runBase := 3 } } imageHead = some 3 ∧ holdsImage (flashed 1 1 .reset) imageHead = none ∧
    (flashed 1 1 .reset).rd Reg.MODE_CUR.power ≠ 2 ∧ (flashed 1 1 .reset).mode ≠ modeFreeze ∧ receiving (flashed 1 1 .reset) = false ∧ (flashed 1 1 .reset).fl.arming = false ∧
    receiving (flashed 1 1 { Flash.reset with staging := true }) = true ∧
    (let r : Receiver := { id := 7, port := 0, len := 70000, got := List.range 63, blocks := [] }
     (flashed 1 1 { Flash.reset with recv := some r }).fl.recv = some r ∧ (List.range 64).filter (fun j => !(63 :: r.got).contains (64 * 0 + j)) = [] ∧ 0 < xferBlocks r.len ∧ 63 ∉ r.got ∧
       (List.range 64).filter (fun j => !(63 :: r.got.tail).contains (64 * 0 + j)) = [0] ∧ (List.replicate 1024 (0 : Byte)).length = 1024) ∧ idle.fl.recv = none ∧
    Tbl.find idle.fl.send 0 = none ∧
    (∀ x ∈ [sender 2 0 [] [], sender 2 64 [0] [5, 6]], let s := flashed 1 1 { Flash.reset with send := [(0, x)] }
      Tbl.find s.fl.send 0 = some x ∧ x.phase = 2 ∧ x.nextAt ≤ (s.at 5).clk ∧ x.next < 64 * xferBlocks x.len ∧ (x.next % 64 ≠ 0 ∨ x.unacked.length < 4)) ∧
    ¬((sender 2 128 [0, 1] []).next < 64 * xferBlocks (sender 2 128 [0, 1] []).len) ∧ (sender 1 0 [] []).phase = 1 ∧ (sender 1 0 [] []).phase ≠ 2 ∧
    0 + 100 * msU ≤ ((flashed 1 1 .reset).at (100 * msU)).clk ∧ ((flashed 1 1 .reset).at 5).clk < 0 + 100 * msU ∧ (sender 2 0 [] []).repeats < 10 ∧
    10 ≤ { sender 2 0 [] [] with repeats := 10 }.repeats ∧ (flashed 1 1 { Flash.reset with verify := 1 }).fl.verify ≠ 0 ∧ idle.fl.verify = 0 ∧ imgError idle 0 = 1 ∧
    (flashed 1 2 { Flash.reset with staging := true }).fl.staging = true ∧ flashOk (flashed 0 2 .reset) = false ∧ idle.fl.noImage = false := by decide

/-- GP-40 mode with port 0 enabled as the one print row of plane 0, 256 nozzles wide, `run` as given and a page's DMA set up. -/
def gp (run : Nat) : State :=
  device [(Reg.MODE_CUR.mode, 0, modeIdle), (Reg.LX_PERSONA.personality, 0, 2), (Reg.GP_CTRL.run, 0, run), (Reg.GP_PORT_CFG.port_en, 0, 1), (Reg.GP_PORT_CFG.nozzles, 0, 256),
    (Reg.GP_DMA_LINES.dma_lines, 0, 3), (Reg.GP_DMA_STRIDE.stride, 0, 64)] []

theorem witness_Gp40AndSupplies :
    epochOutstanding (gp 0) = false ∧ epochAllowed (gp 0).mode modePrint = true ∧ bit 5 0 = true ∧ bits 5 2 2 ≠ 0 ∧ bit 4 0 = false ∧ bits 4 2 2 ≠ 0 ∧ bits 1 2 2 = 0 ∧ gpOpen (gp 0) = true ∧
    gpOpen idle = false ∧ (gp 1).on Reg.GP_CTRL.run = true ∧ (gp 0).on Reg.GP_CTRL.run = false ∧ gpBuildable (gpCtrl (gp 0) 5 0) = true ∧
    gpBuildable (gpCtrl ((gp 0).wr Reg.GP_PORT_CFG.nozzles 0 0) 5 0) = false ∧ gpQfree (gp 1) ≠ 0 ∧ gpQfree { gp 1 with la := { Raster.reset with pages := List.replicate 4 page } } = 0 ∧
    (gp 1).rd Reg.GP_DMA_LINES.dma_lines ≠ 0 ∧ (gp 1).rd Reg.GP_DMA_STRIDE.stride ≠ 0 ∧ (gp 1).frozen = false ∧ (gp 1).mode ≠ modeShadow ∧ 0x1000 + 64 ≤ stacksSize := by decide

/-- Every entry of that run loads. -/
theorem witness_Gp40AndSupplies_loads :
    let y := { gpCtrl ((gp 0).at 5) 5 0 with mem := Mem.write (gp 0).mem gpWave (List.replicate 256 0) }
    (gpLoadAll y (gpEntries y)).2 = true := by decide +kernel

/-! ### Witnesses of the clauses on the edges of those statements -/

theorem witness_FolioFaultRecord_others : (scribe 0 0 0).engineOf ((scribe 0 0 0).ent (chRing 0) RingE.consumer) = none := by decide

theorem witness_FolioIllegal_words : folioDecode 0 0 = none ∧ folioDecode 0 0x2CA30000 ≠ none := by decide

theorem witness_FolioReads_blocks : (scribe 0 (3 + 8 * 51 + 12288) 0).gnum 0 1 = 3 + 8 * 51 + 12288 ∧ (scribe 0 (3 + 8 * 255 + 16384) 0).gnum 0 1 = 3 + 8 * 255 + 16384 ∧
    (scribe 0 (1 + 8 * 79 + 20480) 0).gnum 0 1 = 1 + 8 * 79 + 20480 ∧ (scribe 0 (7 + 8 * 15 + 8192) 0).gnum 0 1 = 7 + 8 * 15 + 8192 := by decide

/-- `lined` with a SUBST.SET of nozzle 255 pending, or none, and with a frame of pipeline 15 in progress, or none. -/
def pended (caps x y : Nat) (set frames : Bool) : State :=
  { lined caps x y with
    la := { (lined caps x y).la with changes := if set then [{ isSet := true, plane := 0, col := 255, spare := 0, row := 0, line := 9 }] else [] }
    insp := { Insp.reset with pipes := if frames then [(15, { Pipe.reset with frames := [{ num := 1, m0 := 0, firstAt := 0, counted := 1, waiting := [], lines := [], lost := 0, set := none, expo := 0, unconfirmed := false, geom := .reset, entry := none }] })] else [] } }

theorem witness_FolioReadsLine_corners : 6 ≤ 63 ∧ 2 ≤ 2 ∧ 63 < 64 ∧
    (∀ b ∈ [true, false], nozzleAt (pended 4 255 0 b true) ((pended 4 255 0 b true).gnum 0 1 % 2 ^ 23) = some (0, 0, 255) ∧
      (((pended 4 255 0 b true).la.changes.filter (fun y => y.plane == 0 && y.row == 0 && y.col == 255)).getLast?).isSome = b) ∧
    ((pended 4 15 0 true false).pipe 15).frames = [] ∧ ((pended 4 15 0 true true).pipe 15).frames.getLast?.isSome = true ∧ (pended 4 15 0 true true).cap 0 2 = true ∧
    16 ≤ (lined 4 16 0).gnum 0 1 ∧ 128 ≤ (lined 4 128 0).gnum 0 1 ∧ (lined 4 127 65519).gnum 0 2 % 16 ≠ 0 ∧ 65520 < (lined 4 127 65536).gnum 0 2 := by decide

theorem witness_LedgerSnapshots_free : ∃ s : State, s.led.taken = none ∧ (∃ a, s.led.asked = some a ∧ a + 10 * usU ≤ (s.at (10 * usU)).clk) ∧ s.snapLine < 2 ^ 48 :=
  ⟨{ idle with led := { Ledger.reset with asked := some 0 } }, by decide, ⟨0, by decide⟩, by decide⟩

theorem witness_PowerStates_back : let s := device [(Reg.MODE_CUR.mode, 0, modeIdle), (Reg.MODE_CUR.power_busy, 0, 1), (Reg.MODE_CUR.power, 0, 2)] []
    s.on Reg.MODE_CUR.power_busy = true ∧ s.rd Reg.MODE_CUR.power = 2 ∧ s.md.powerTo = 0 ∧ s.md.powerAgain = false := by decide

theorem witness_EpochOutcomes_bounds :
    (let s := { epoched 2 with md := { Modes.reset with tripped := true } }
     s.md.tripped = true ∧ s.rd Reg.EPOCH_STATUS.state = 2) ∧ (epoched 2).md.tripped = false ∧ (epoched 1).md.tripped = false ∧
    (let y := trigFire ((epoched 1).at 5) 62; y.md.tripped = false ∧ ¬(y.devTime < y.md.epInstant)) ∧
    (let z := trigFire (({ epoched 4 with md := { Modes.reset with rbInstant := 5 } } : State).at 5) 63
     z.md.tripped = false ∧ epochState z = 4 ∧ z.md.rbReached = false ∧ z.md.rbInstant ≤ z.devTime ∧ Nat.land z.md.applied coreBit = 0) ∧
    (let s := { (epoched 1).wr Reg.MODE_CUR.mode 0 modeShadow with md := { Modes.reset with heard := modeIdle } }
     let y := trigFire (s.at 5) 62
     epochState y = 1 ∧ y.mode = modeShadow ∧ epochFits y modeService = true ∧ powered y = true) := by decide

theorem witness_RasterLines_dwells :
    (∀ k ∈ [3, 5], let s := (printing.wr Reg.MODE_CUR.mode 0 modeRewind).wr Reg.LA_STATUS.rw_step 0 k
      s.mode = modeRewind ∧ s.rd Reg.LA_STATUS.rw_step = k ∧ s.la.dwellUntil ≤ (s.at 0).clk) ∧
    0 < ({ printing.la with backUp := 65536 } : Raster).backUp / 65536 ∧
    (let s := device [(Reg.MODE_CUR.mode, 0, modePrint)] [(chAxis 0, [(AxisE.vMax, 200000)])]
     hostOpen s = true ∧ s.inUse (chAxis 0) = true ∧ s.rd Reg.FS_VMIN.v_min ≤ 200 ∧ 200 * 1000 ≤ s.ent (chAxis 0) AxisE.vMax ∧ s.ent (chAxis 0) AxisE.vMax < 201 * 1000 ∧ 201 ≠ 0 ∧
       s.mode ≠ modeRewind ∧ s.mode ≠ modeHold ∧ s.mode ≠ modeStop) ∧
    printing.inUse (chAxis 0) = false := by decide

theorem witness_SlotLines_boundaries :
    (∀ s ∈ [printing, idle], s.md.pending = [] ∧ s.md.started = false ∧ s.rd Reg.EPOCH_STATUS.state ≠ 4) ∧ refDue (heldBoundary (printing.at 0)) = true ∧
    refDue (heldBoundary (idle.at 0)) = false ∧ refDue (idle.at 0) = false ∧
    (let s := held part { Slot.reset with credits := 1, waveLeft := 1 }
     mayDrive s 0 = true ∧ (s.slot 0).credits = 0 + 1 ∧ (s.slot 0).msgs = [] ∧ (s.slot 0).waveLeft = 0 + 1) ∧
    (let s := held part { Slot.reset with credits := 1, msgs := [(7, 0, [1])] }
     mayDrive s 0 = true ∧ (s.slot 0).credits = 0 + 1 ∧ (s.slot 0).msgs = (7, 0, [1]) :: []) := by decide

/-- `looped` with `xshift_en` set and lines as high as columns are wide, a pitch that is a free value of the machine. -/
def pitched : State :=
  { looped modePrint with regs := (Reg.FS_PITCH.line_pitch.key 0, Config.columnPitch) :: (Reg.CL_CTRL.xshift_en.key 0, 1) :: (looped modePrint).regs }

theorem witness_CalibrationLoops_shift :
    Config.columnPitch = pitched.rd Reg.FS_PITCH.line_pitch ∧ loopOn pitched Reg.CL_CTRL.reg_en 0 = true ∧ pitched.on Reg.CL_CTRL.xshift_en = true ∧ observeOnly pitched = false ∧
    pitched.mode ≠ modeFreeze ∧ -1 = pitched.rdi Reg.CL_XSHIFT.xs_staged 0 ∧ pitched.on Reg.LA_STATUS.job_open = false ∧ pitched.la.fired = [] ∧ pitched.la.pages = [] ∧
    (looped modePrint).on Reg.CL_CTRL.xshift_en = false ∧ observeOnly (looped modeShadow) = true := by
  refine ⟨rfl, by decide⟩

theorem witness_Recalibration_units :
    (∀ c < 4, c ≠ 2 → (((recaling c 1 []).wr Reg.CL_RECAL_STATUS.xref_fault 0 1)).on Reg.CL_RECAL_STATUS.xref_fault = true) ∧
    ((recaling 1 1 []).wr Reg.MODE_CUR.power 0 1).rd Reg.MODE_CUR.power ≠ 0 ∧
    (let s := (recaling 0 1 [(Reg.LANE_STATE.lstate, 1, 2)]).wr Reg.LA_STATUS.job_open 0 0
     firstDue (s.at 5) 0 = some 1 ∧ s.lstate 1 ≠ 3 ∧ logicalOn s 1 = some 1 ∧ freeSpare (s.at 5) 1 = none ∧ s.on Reg.LA_STATUS.job_open = false) ∧
    (∀ b ∈ [true, false], let s := { recalRuns 3 3 [] with mot := { Motion.reset with inputs := [(1, { FbInput.reset with sc := { SinCos.reset with swapped := b } })] } }
      Tbl.find s.cal.running 3 = some 3 ∧ (s.fb (3 / 2)).sc.swapped = b ∧ 3 / 2 = 1) ∧
    (let s := { recaling 3 2 [] with tu := { TimeUnit.reset with burstDue := [(1, 1)] } }
     recalOpen s = true ∧ (Tbl.find s.tu.burstDue 1).isSome = true ∧ (∀ k, Tbl.find s.cal.running 3 = some k → k / 2 ≠ 1)) ∧
    (∀ s ∈ [State.reset, State.reset.wr Reg.MODE_CUR.mode 0 modeReload], (s.mode = modeCold ∨ s.mode = modeReload) ∧
      decide (3999 < 4000 ∨ 6000 < 3999) ≠ s.on Reg.CL_RECAL_STATUS.xref_fault) := by
  refine ⟨by decide, by decide, by decide, by decide, ⟨by decide, by decide, fun k h => ?_⟩, by decide⟩
  cases h

/-- Switch 3 of an axis whose entry has it stand for 2 samples of 100 × 5 ns, at level low. -/
def bounced : State :=
  device [(Reg.MODE_CUR.mode, 0, modeIdle)] [(chAxis 1, [(AxisE.axisEn, 1), (AxisE.drive, 1), (AxisE.swHome, 3), (AxisE.debounce, 2), (AxisE.debDiv, 100)])]

theorem witness_AxesAndDrives_times :
    debounceOf bounced 3 = usU ∧ (bounced.switch 3).level = false ∧ (bounced.switch 3).ignoreTo ≤ (bounced.at usU).clk ∧ 0 + debounceOf bounced 3 ≤ (bounced.at usU).clk ∧
    (bounced.at (usU - 1)).clk < 0 + debounceOf bounced 3 ∧
    (let s := axed .reset { DrivePort.reset with due := true, lastTrig := some 0 } 2
     (s.drivePort 0).due = true ∧ (s.drivePort 0).lastTrig = some 0 ∧ 9 * s.ent (chDl 0) DlE.servoNs * nsU ≤ 10 * ((s.at (112500 * nsU)).clk - 0) ∧
       10 * ((s.at (112500 * nsU - 1)).clk - 0) < 9 * s.ent (chDl 0) DlE.servoNs * nsU) := by decide

theorem witness_FeedbackAndTime_sincos :
    (∀ b ∈ [0, 1], let z := (feeding 2 .reset none).wr Reg.FB_STATE.amp_fault 0 b
      (z.fb 0).sc.correct 8000 0 = (8000, 0) ∧ (z.fb 0).sc.correct 0 12000 = (0, 12000) ∧ (z.fb 0).sc.correct 7999 0 = (7999, 0) ∧ (z.fb 0).sc.correct 12001 0 = (12001, 0) ∧
        0 < z.ent (chFb 0) FbE.ampHold ∧ z.rd Reg.FB_STATE.amp_fault 0 = b) ∧
    (let z := ({ feeding 2 .reset none with cat := (device [] [(chFb 0, [(FbE.kind, 2), (FbE.cpr, 4096), (FbE.ampHold, 2)])]).cat } : State).wr Reg.FB_STATE.amp_fault 0 1
     z.on Reg.FB_STATE.amp_fault 0 = true ∧ (z.fb 0).ampGood + 1 < z.ent (chFb 0) FbE.ampHold ∧ phaseOf 0 12000 = 0 ∧ phaseOf 12000 0 = 1024 ∧
       fbExt z 0 + 1024 * phaseStep 4 ((z.fb 0).phase / 1024) (1024 / 1024) ≠ fbExt z 0) ∧
    (feeding 2 .reset none).ent (chFb 0) FbE.ampHold ≤ ((feeding 2 .reset none).fb 0).ampBad + 1 ∧
    (let c := { SinCos.reset with from_ := some 0 }
     (∃ a, c.from_ = some a ∧ ((262143 : Int) - a).natAbs < 262144) ∧ ¬(∃ a, c.from_ = some a ∧ ((262144 : Int) - a).natAbs < 262144)) ∧
    (let s := feeding 1 .reset none
     (emuLevels s 0 0).1 = false ∧ (emuLevels s 0 1).1 = true ∧ s.rd Reg.GRP_CFG.trig_out 0 = 0) ∧
    (let s := (paired 1 modeReload [] .reset)
     s.on Reg.PAIR_CFG.pair_en = true ∧ s.mode = modeReload) := by
  refine ⟨by decide, by decide, by decide, ⟨⟨0, by decide⟩, fun ⟨a, h, k⟩ => ?_⟩, by decide, by decide⟩
  cases h; exact absurd k (by decide)

/-- A frame of `networked`'s ring, or of another EtherType, with 0x88F7 behind an 802.1Q tag or not, and its check right or not. -/
def taggedFrame (outer inner : Nat) (good : Bool) : List Byte :=
  let f := List.replicate 12 0 ++ be16 outer ++ [0, 0] ++ be16 inner ++ List.replicate 42 0
  f ++ leBytes 4 (crc32 f + (if good then 0 else 1))

theorem witness_DeviceRing_tags :
    (∀ g ∈ [true, false], let bs := taggedFrame 0x8100 0x88F7 g
      let f := bs.take (bs.length - 4)
      frameType f = 0x8100 ∧ 256 * frameNat f 16 1 + frameNat f 17 1 = 0x88F7 ∧ (leNat (bs.drop (bs.length - 4)) == crc32 f) = g ∧ 28 ≤ bs.length ∧
        frameType f ≠ idle.rd Reg.RING_CFG.ethertype) ∧
    (let bs := taggedFrame 0x8100 0x0800 true
     let f := bs.take (bs.length - 4)
     ¬(frameType f = 0x88F7 ∨ (frameType f = 0x8100 ∧ 256 * frameNat f 16 1 + frameNat f 17 1 = 0x88F7))) ∧
    frameType ((taggedFrame 0x88F7 0 true).take 60) = 0x88F7 := by decide

/-- Requests for burst 0 and for burst 1 of the row at address 0, and one for another row. -/
def requestAt (a : Nat) : MemReq := { request with addr := a }

theorem witness_StacksAndFreeze_lanes :
    (let z := stacked modeIdle .reset
     0 = pcOf 0 * 128 + 36 % 36 ∧ 0 ∉ z.st.laneBad ∧ Tbl.find z.st.laneErrs 0 = none) ∧
    (let z := stacked modeIdle { Stacks.reset with laneErrs := [(0, 0)] }
     Tbl.find z.st.laneErrs 0 = some (0 / 32) ∧ (32 / 32 = 1 ∧ Tbl.find z.st.laneErrs 0 = some 0 ∧ 0 ≠ 1)) ∧
    (let z := stacked modeIdle { Stacks.reset with laneBad := [0] }
     0 ∈ z.st.laneBad ∧ z.st.laneBad = [0] ∧ laneRoom z 0 = true) ∧
    laneRoom (stacked modeIdle { Stacks.reset with laneBad := [2], laneMap := [0, 1] }) 2 = false ∧ laneRoom (stacked modeIdle { Stacks.reset with laneMap := [64] }) 65 = false ∧
    (stacked modeIdle .reset).mode = modeIdle ∧ (stacked modeIdle .reset).on Reg.LA_STATUS.job_open = false := by decide

theorem witness_StacksAndFreeze_rows :
    Tbl.find (stacked modeIdle { Stacks.reset with openRow := [(0, 0)] }).st.openRow 0 = some (rowOf 0) ∧ Tbl.find (stacked modeIdle .reset).st.openRow 0 = none ∧
    (let z := stacked modeIdle { Stacks.reset with queue := [requestAt 32] }
     z.st.queue.any (fun r => pcOf r.addr * 64 + (sidOf r.addr * 16 + bankOf r.addr) == 0 && rowOf r.addr == rowOf 0) = true) ∧
    (∃ r, r ∈ (stacked modeIdle { Stacks.reset with queue := [request] }).st.queue ∧ pcOf r.addr = 0 ∧
      memUrgency ((stacked modeIdle { Stacks.reset with queue := [request] }).at secU) r = 3) ∧
    (∀ r, r ∈ (stacked modeIdle .reset).st.queue → pcOf r.addr = 0 → memUrgency (stacked modeIdle .reset) r ≠ 3) ∧
    (∀ n ∈ [0, 7, 8], let s := stacked modeIdle { Stacks.reset with queue := [request], postponed := [(0, n)] }
      s.frozen = false ∧ n = Tbl.get 0 s.st.postponed 0 ∧ s.st.queue.any (fun r => pcOf r.addr * 64 + (sidOf r.addr * 16 + bankOf r.addr) == 0) = true) ∧
    (stacked modeIdle { Stacks.reset with postponed := [(0, 3)] }).st.queue = [] ∧
    (let s := stacked modeReload .reset
     s.frozen = false ∧ s.rd Reg.MODE_CUR.power ≠ 2 ∧ s.mode = modeReload ∧ s.on Reg.MEM_STATUS.trained = false) ∧
    (let s := stacked modeFreeze .reset
     s.frozen = true ∧ areaOf 0 = .stacks) ∧ (stacked modeIdle .reset).mode ≠ modeCold ∧ State.reset.mode = modeCold := by
  refine ⟨by decide, by decide, by decide, ⟨request, by decide⟩, fun r h => ?_, by decide⟩
  cases h

theorem witness_LanesAndMoves_spares :
    (let z := laned 5 .reset [] []
     1 / 5 = 5 / 6 ∧ z.lstate (physLane z 1) = 5 ∧ physLane z 1 ≠ 5 ∧ moving z 1 = false ∧ spareTaken z 5 = false ∧ z.lstate (physLane z 0) ≠ 5) ∧
    spareTaken (laned 5 .reset [] [moveAt false 4]) 5 = true ∧ (∀ l < 5, (laned 2 .reset [] []).lstate (physLane (laned 2 .reset [] []) l) ≠ 5) ∧
    (laned 1 .reset [] []).ln.moves = [] ∧ (laned 1 .reset [] [moveAt true 0]).ln.moves ≠ [] ∧
    (∀ b ∈ [true, false], curMove (laned 2 .reset [] [moveAt b 0]) = some (moveAt b 0) ∧ (moveAt b 0).l / 5 < 8 ∧
      ∀ g < 8, groupWord (laned 2 .reset [] [moveAt b 0]) g < 2 ^ 24) := by decide

theorem witness_TwinLink_reload :
    (let s := { paired 0 modeReload [] .reset with fl := { Flash.reset with cause := 1, bootAt := none } }
     s.mode = modeReload ∧ s.fl.cause ≠ 0 ∧ s.fl.resetAsk = none ∧ s.pair.reloadEnd = none ∧ s.st.trainBad = false ∧ s.st.laneBad = [] ∧ (lanesFix s).st.laneBad = []) ∧
    (let s := { paired 0 modeReload [] .reset with st := { Stacks.reset with laneBad := [2, 3], laneMap := [0, 1] } }
     s.st.trainBad = false ∧ (lanesFix s).st.laneBad ≠ []) ∧
    ({ paired 0 modeReload [] .reset with st := { Stacks.reset with trainBad := true } } : State).st.trainBad = true ∧
    silent ((paired 1 modeIdle [(Reg.PAIR_STATUS.twin_lost, 0, 1)] { Pair.reset with heardAt := some 0 }).at (4 * usU)) = true := by decide

theorem witness_PairRecords_sync :
    (let s := paired 2 modeShadow [(Reg.PAIR_STATUS.in_sync, 0, 1)] .reset
     syncHolds (s.at 5) true 1 = false ∧ s.on Reg.PAIR_STATUS.in_sync = true ∧ s.mode = modeShadow) ∧
    (let s := paired 1 modeIdle [(Reg.PAIR_STATUS.in_sync, 0, 1)] .reset
     syncHolds (s.at 5) true 1 = false ∧ s.mode ≠ modeShadow) ∧
    (let z := paired 2 modeShadow [] .reset
     0 < 8 ∧ 7 < 8 ∧ axisAt z 0 1 = some 1 ∧ z.role = roleStandby ∧ max 1 (z.ent (chAxis 1) AxisE.cntNum : Int) = 1 ∧ z.ent (chAxis 1) AxisE.cntDen = 1) := by decide

theorem witness_Handover_warning :
    ∀ v ∈ [0, 1], let s := paired 1 modeIdle [(Reg.THERM_STATUS.die_state, 0, v)] { ready with handAt := some (20 * usU) }
      handDue (s.at (20 * usU)) = true ∧ handApplied s = false ∧ s.rd Reg.THERM_STATUS.die_state = v ∧ s.pair.handReset = false := by decide

theorem witness_ThermalAndResets_trip :
    (∀ st ∈ [0, 1], let z := sensed st [] .reset
      z.rd Reg.THERM_SENS.s_state 0 = st ∧ ∀ k < 48, k ≠ 0 → z.rd Reg.THERM_SENS.s_state k ≠ 1) ∧
    (let s := sensed 0 [] { Thermal.reset with tripDue := true }
     (if s.th.tripDue then 3 % 4 else 3 / 2 % 2 * 2) = 3 ∧ 3 ≠ 0 ∧ s.md.tripped = false ∧ Tbl.sorted s.regs = true) ∧
    ({ sensed 0 [] .reset with md := { Modes.reset with tripped := true } } : State).md.tripped = true := by decide

theorem witness_SettingsAndUpdate_ready :
    let s := device [(Reg.MODE_CUR.mode, 0, modeIdle), (Reg.MEM_STATUS.trained, 0, 1), (Reg.PAIR_CFG.pair_en, 0, 1)] []
    confirmReady (({ s with pair := { Pair.reset with fitSince := some 0 } } : State).at (60 * secU)) = true ∧
    confirmReady (({ s with pair := { Pair.reset with fitSince := some 0 } } : State).at (60 * secU - 1)) = false ∧ confirmReady (s.at (60 * secU)) = false := by decide

/-! ### Witnesses of the forms that turn on another unit, on a mode or on what was found before -/

theorem witness_FolioRings_bindery : bndOwns (binding .reset [] [] 0) 0x20 = true ∧ bndOwns (ringed 0x10 3) 0x10 = false ∧ hostOpen State.reset = false := by decide

theorem witness_PowerStates_bindery :
    (let s := { binding (packing 0) [] [] 0 with md := { Modes.reset with powerTo := 2 } }
     s.md.powerTo = 2 ∧ s.bnd.any (fun b => b.2.job.isSome) = true) ∧
    (let s := { (idle.wr Reg.MODE_CUR.power_busy 0 1) with md := { Modes.reset with powerTo := 2 } }
     s.on Reg.MODE_CUR.power_busy = true ∧ s.md.powerTo = 2 ∧ s.bnd.any (fun b => b.2.job.isSome) = false) := by decide

/-- `printing` under policy 2, its first line not accepted when it comes to the reference row. -/
def outran : State := { printing with la := { printing.la with jobs := [{ idx := 0, id := 9, base := 0, policy := 2, ended := some 1, planes := 1 }] } }

theorem witness_SlotLines_outrun : refDue (outran.at 0) = true ∧ outrun (outran.at 0) = true ∧ outrun (printing.at 0) = false ∧
    (let s := held part { Slot.reset with credits := 1 }
     (s.lane (slotLane s 0)).idleTo ≤ (s.at 0).clk) ∧
    (let s := { held part .reset with ln := { Lanes.reset with lanes := [(0, { Lane.reset with idleTo := 9 })] } }
     slotLane s 0 = 0 ∧ (s.at 5).clk < (s.lane (slotLane s 0)).idleTo) ∧
    2 ^ 64 ≤ 2 ^ 66 - 1 ∧ orderedSetWord osCredit 0 < 2 ^ 64 ∧ orderedSetWord 0xB7 (2 ^ 45 + 400 * 2 ^ 29) < 2 ^ 64 ∧ orderedSetWord osStatus (127 * 2 ^ 40) < 2 ^ 64 ∧
    (∀ ty ∈ [osTwinCredit, osTwinAck, osTwinNak, osTwinFail, osTwinHb, osTwinLevel], orderedSetWord ty (5 * 2 ^ 32) < 2 ^ 64) := by decide

theorem witness_Recalibration_moving :
    (let s := { recaling 0 1 [(Reg.LANE_STATE.lstate, 1, 2)] with ln := { Lanes.reset with moves := [{ l := 1, a := 1, b := 5, step := 2, planned := true, since := 0, asked := false }] } }
     firstDue (s.at 5) 0 = some 1 ∧ s.lstate 1 ≠ 3 ∧ logicalOn s 1 = some 1 ∧ moving s 1 = true) ∧
    (let s := (recalRuns 0 1 []).wr Reg.CL_RECAL_STATUS.xref_fault 0 1
     Tbl.find s.cal.running 0 = some 1 ∧ s.on Reg.CL_RECAL_STATUS.xref_fault = true) := by decide

theorem witness_AxesAndDrives_silent : drvSilent (axed .reset .reset 1) = false ∧ drvSilent ((axed .reset .reset 1).wr Reg.MODE_CUR.mode 0 modeShadow) = true ∧
    (let b := bootDue ((axed .reset .reset 1).at 5)
     b.rd Reg.DL_STATE.dl_link 0 = 1 ∧ b.mode ≠ modeCold ∧ b.mode ≠ modeReload) ∧
    (bootDue (((axed .reset .reset 1).wr Reg.MODE_CUR.mode 0 modeReload).at 5)).mode = modeReload := by decide

/-- A ring frame of `n` bytes before its check, which is right. -/
def shortFrame (n : Nat) : List Byte :=
  let f := (List.replicate 12 0 ++ be16 (State.reset.rd Reg.RING_CFG.ethertype) ++ List.replicate 46 0).take n
  f ++ leBytes 4 (crc32 f)

theorem witness_DeviceRing_forwards :
    (let s := networked lockOn [] .reset .reset
     rportOpen s 0 = true ∧ rportOpen s 1 = true ∧ rportOpen (s.wr Reg.RING_PORT_STATE.rlink 1 0) 1 = false) ∧
    (let bs := taggedFrame 0x88F7 0 true
     let f := bs.take (bs.length - 4)
     frameType f = 0x88F7 ∧ frameType f ≠ idle.rd Reg.RING_CFG.ethertype ∧ leNat (bs.drop (bs.length - 4)) = crc32 f) ∧
    (let bs := shortFrame 23
     let f := bs.take (bs.length - 4)
     frameType f = idle.rd Reg.RING_CFG.ethertype ∧ bs.length < 28 ∧ leNat (bs.drop (bs.length - 4)) = crc32 f) := by decide

/-- A write of 40 bytes from address 8, which covers its first and last burst in part. -/
def partWrite : MemReq := { request with addr := 8, len := 0, data := some (List.replicate 72 7) }

theorem witness_StacksAndFreeze_bursts :
    burstsOf 8 72 = [0, 32, 64] ∧ (decide (0 < partWrite.addr) || decide (partWrite.addr + 72 < 0 + 32)) = true ∧
    (decide (32 < partWrite.addr) || decide (partWrite.addr + 72 < 32 + 32)) = false ∧ partWrite.data ≠ none ∧ request.data = none ∧
    rowKey 0 ∉ (stacked modeIdle .reset).st.repaired ∧ (stacked modeIdle { Stacks.reset with repaired := rowKey 0 :: [] }).st.repaired = rowKey 0 :: [] ∧
    (∀ j ∈ [0, 8], reaches (idle.at 5) 17 (Reg.MEM_PORT_CFG.rate_gbs.addr + 8 * j) = true) ∧
    (let a := Reg.MEM_PORT_CFG.rate_gbs.addr
     regTakes (idle.at 5) a (1 + 2 ^ 12 * 1000) (regFields (idle.at 5) a) = true ∧ regTakes (idle.at 5) a (2 ^ 32 - 1) (regFields (idle.at 5) a) = false) ∧
    ((stacked modeIdle .reset).wr Reg.MODE_CUR.power 0 2).rd Reg.MODE_CUR.power = 2 ∧
    (let s := (stacked modeIdle { Stacks.reset with queue := [request] }).at secU
     bankHeld s 0 = true ∧ bankHeld (s.at 0) (32 * 2 ^ 20) = false) ∧
    bankHeld ((stacked modeIdle .reset).at 5) 0 = false ∧
    (Tbl.get [] (stacked modeIdle { Stacks.reset with codes := [(0, [3, -4])] }).st.codes 0)[1]? = some (-4) := by decide

/-- A dynamic block whose two literal codes, of one bit each, are those of the byte 5 and of the end, written by hand from RFC 1951, 3.2.7. -/
def dynamicFive : List Bool := (bitsOf [5, 192, 33, 9, 0, 0, 0, 0, 160, 228, 255, 203, 34]).take 102

theorem witness_BinderyAndRestarts_choices :
    bndRuns (binding (packing 6) [] [] 0) = true ∧ bndRuns ((binding (packing 6) [] [] 0).wr Reg.MODE_CUR.mode 0 modeReload) = false ∧ blockDue (packing 6) = true ∧
    fixedForm dynamicFive = some ([true, true, false] ++ fixedSym 5 ++ fixedSym 256) ∧ blockDecodes [] [5] true dynamicFive 0 = true ∧
    shortest true [5] dynamicFive = [true, true, false] ++ fixedSym 5 ++ fixedSym 256 ∧ shortest true [] [true, false, true] = [true, false, true] ∧
    (let coded := [true, true, false] ++ fixedSym 5 ++ fixedSym 256
     let input : List Byte := [5]
     blockDecodes [] input true coded 0 = true ∧ (shortest true input coded).length ≤ (storedBlocks true 1 input 0).length) ∧
    blockDecodes [] [5] true [] 0 = false ∧ beffortOf (packing 0).opcode = 0 ∧
    ((scribed 1 (some (1, 1))).eng 0).bad = [] ∧ (1 : Nat) ≠ 2 ∧
    (({ scribed 1 (some (1, 1)) with engines := [(0, { Engine.reset with leaving := some (1, 1), bad := [0] })] } : State).eng 0).bad ≠ [] := by decide

theorem witness_LanesAndMoves_boot :
    (laned 5 .reset [(Reg.PRBS_CTRL.chk_en, 5, 1)] []).on Reg.PRBS_CTRL.chk_en 5 = true ∧ (laned 5 .reset [] []).on Reg.PRBS_CTRL.chk_en 5 = false ∧
    (let z := { laned 2 .reset [] [] with ln := { Lanes.reset with boot := 2 } }
     z.ln.boot = 2 ∧ ∀ k < 48, (z.lane k).called = false ∧ z.lstate k ≠ 1) ∧
    (bootDue ({ idle with ln := { Lanes.reset with boot := 3 } } |>.at 5)).ln.boot = 3 ∧ curMove (bootDue ({ idle with ln := { Lanes.reset with boot := 3 } } |>.at 5)) = none ∧
    (laned 5 .reset [] []).lstate (homeLane 1) = 5 ∧ (∀ j < 1, (laned 5 .reset [] []).lstate (homeLane j) ≠ 5) ∧ (laned 5 .reset [] []).lstate (6 * (1 / 5) + 5) = 3 ∧
    (laned 2 .reset [] []).lstate (homeLane 1) ≠ 5 ∧ logicalOn (laned 5 .reset [] []) 1 = some 1 ∧ hostOpen (laned 5 .reset [] []) = true ∧ 47 < 48 ∧ 51 < 52 ∧
    (moveAt true 6).a < 52 ∧ (moveAt true 6).b < 52 ∧ (moveAt true 6).a ≠ (moveAt true 6).b ∧ (laned 3 .reset [] [moveAt true 6]).lstate 1 = 3 ∧
    (let s := laned 2 .reset [(Reg.PRBS_CTRL.gen_en, 5, 1), (Reg.PRBS_CTRL.chk_en, 5, 1), (Reg.PRBS_CTRL.chk_sync, 5, 1), (Reg.LANE_STATE.loop, 5, 3)] []
     carriesTraffic s 5 = false ∧ s.on Reg.PRBS_CTRL.gen_en 5 = true ∧ s.rd Reg.LANE_STATE.loop 5 ≠ 0 ∧ s.on Reg.PRBS_CTRL.chk_sync 5 = true) := by decide

theorem witness_TwinLink_lost :
    (let z := { paired 1 modeIdle [] .reset with pair := { Pair.reset with again := [(3, .syncMark 0)] } }
     z.pair.again = [(3, .syncMark 0)] ∧ recordLane z (.syncMark 0) = none) ∧
    (let z := { paired 1 modeIdle [] .reset with pair := { Pair.reset with again := [(3, .syncMark 0)] }, led := { Ledger.reset with live := [(Led.creditsAvailable 48, 64)] } }
     z.pair.again = [(3, .syncMark 0)] ∧ (recordLane z (.syncMark 0)).isSome = true) ∧
    (let s := paired 2 modeShadow [(Reg.PAIR_STATUS.partner_seen, 0, 1)] { Pair.reset with heardAt := some 0, syncAtHb := true }
     (silent (s.at (4 * usU)) && s.on Reg.PAIR_STATUS.partner_seen) = true ∧ (!s.on Reg.PAIR_STATUS.twin_lost && (silent (s.at (4 * usU)) || decide ((twinLanes s).length < 3))) = true) ∧
    (let s := paired 2 modeShadow [(Reg.PAIR_STATUS.twin_lost, 0, 1)] { Pair.reset with heardAt := some 0 }
     (silent (s.at 5) && s.on Reg.PAIR_STATUS.partner_seen) = false ∧ (!s.on Reg.PAIR_STATUS.twin_lost && (silent (s.at 5) || decide ((twinLanes s).length < 3))) = false) := by decide

theorem witness_PairRecords_held :
    (let s := paired 2 modeShadow [] .reset
     s.on Reg.PAIR_CFG.pair_en = true ∧ s.role = roleStandby ∧ s.pair.marked = false ∧ 5 < (s.at 6).devTime ∧ (s.at 6).devTime ≤ 7) ∧
    (let s := paired 2 modeShadow [] { Pair.reset with marked := true }
     s.role = roleStandby ∧ s.pair.marked = true ∧ s.la.jobs = [] ∧ ∀ p ∈ s.la.pages, p.addr = 1 → p.first - p.base ≠ 0) ∧
    (0 : Nat) ≠ 1 := by decide

theorem witness_Handover_barred :
    (let z := paired 1 modeIdle [] { ready with handWait := 1, heardFit := false }
     z.pair.handWait ≠ 0 ∧ z.role = roleActive ∧ partnerReady z = false) ∧ partnerReady (paired 1 modeIdle [] ready) = true ∧
    (let s := paired 1 modeStop [] { ready with handAt := some (20 * usU) }
     handNear (s.at 0) = some (20 * usU) ∧ s.pair.handSeq = none ∧ s.role = roleActive ∧ handBarred s = true ∧ handDue (s.at (20 * usU)) = true) ∧
    handBarred (paired 1 modeIdle [] ready) = false ∧
    (∀ m ∈ [(modeStop, true), (modePrint, false)], let s := paired 2 modeShadow [(Reg.MODE_CUR.shadow_of, 0, m.1)] { Pair.reset with handGot := some (usU, []) }
      s.mode = modeShadow ∧ usU + usU / 2 ≤ (s.at (2 * usU)).devTime ∧ modeKeepsRole (s.rd Reg.MODE_CUR.shadow_of) = m.2) := by decide

theorem witness_ThermalAndResets_warm :
    (let z := { travelling with fire := { Fire.reset with w0Set := true }, mot := { Motion.reset with inputs := [(0, { FbInput.reset with edges := [(2 * usU, 100), (usU, 0)] })] } }
     headsRunning z = true ∧ z.fl.resetAsk = none ∧ z.mode ≠ modeShadow ∧ z.mode ≠ modeFreeze ∧ z.mode ≠ modeCold ∧ z.mode ≠ modeReload) ∧
    headsRunning (held part .reset) = false ∧ linesOut (held part .reset) = true ∧ headsRunning idle = false ∧
    (let s := { sensed 0 [] .reset with th := { Thermal.reset with sweepAt := some 0 } }
     (List.replicate 48 (400 : Int)).length = 48 ∧ sweepTriggered s = false ∧ s.th.sweepAt = some 0 ∧ 0 + 99 * msU ≤ (s.at (99 * msU)).clk ∧ ¬(0 + 99 * msU ≤ (s.at 5).clk)) ∧
    (idle.fl.resetWait = none ∧ ({ idle with fl := { Flash.reset with resetWait := some 2 } } : State).fl.resetWait ≠ none) := by decide

theorem witness_SettingsAndUpdate_refused :
    (let s := flashed 0 3 { Flash.reset with setJob := some (0, emptySlot), setStarted := true }
     s.fl.setJob ≠ none ∧ s.fl.setStarted = true ∧ flashOk s = false) ∧
    (∀ e ∈ [0, 5], let s := (flashed 0 3 { Flash.reset with arming := true }).wr Reg.UPD_STATUS.upd_err 0 e
      s.fl.arming = true ∧ flashOk s = false ∧ s.rd Reg.UPD_STATUS.upd_err = e) ∧
    (∀ st ∈ [2, 6], let s := flashed 0 st { Flash.reset with staging := true }
      s.fl.staging = true ∧ flashOk s = false ∧ s.rd Reg.UPD_STATUS.stage_state = st) ∧
    (∀ ok ∈ [0, 1], let s := flashed ok 1 { Flash.reset with verify := 1, noImage := true }
      s.fl.verify ≠ 0 ∧ s.fl.noImage = true ∧ flashOk s = (ok == 1)) := by decide

/-! ### Results the manual gives -/

/-- What is seen of the state after a command, if it has a next state. -/
def after {α : Type} (c : Instr) (s : State) (f : State → α) : Option α := match exec c s with | .next t => some (f t) | _ => none

/-- R527: the CRC-8 of the bytes "123456789". -/
theorem test_crc8_check_value : crc8Field 72 0x313233343536373839 = 0xF4 := by decide
/-- Chapter 0 (R527): the CRC-32 of the bytes "123456789". -/
theorem test_crc32_check_value : crc32 [0x31, 0x32, 0x33, 0x34, 0x35, 0x36, 0x37, 0x38, 0x39] = 0xCBF43926 := by decide

/-- The example of chapter 4 (R139, R140): a CODED record of 20 columns, then a DELTA record that changes column 9 from 1 to 3. -/
theorem test_band_code_example :
    (bandTo 20 [2, 5, 0, 0, 0x04, 0x73, 0x83, 0x89, 0x06] 0).px = some [0, 0, 0, 0, 0, 3, 3, 3, 3, 1, 2, 0, 2, 0, 0, 0, 0, 0, 0, 0] ∧
    (bandTo 20 [2, 5, 0, 0, 0x04, 0x73, 0x83, 0x89, 0x06, 3, 3, 0, 0, 0x08, 0x60, 0x09] 1).px =
      some [0, 0, 0, 0, 0, 3, 3, 3, 3, 3, 2, 0, 2, 0, 0, 0, 0, 0, 0, 0] ∧ tokenBound 20 = 11 := by decide
/-- R139 (Table 4-4): a REPEAT may not be the first line of its band. -/
theorem test_band_code_repeat_first : (bandTo 20 [1, 0] 0).px = none ∧ (bandTo 20 [0, 1] 1).px = some (List.replicate 20 0) := by decide

/-- R89 (Table 3-6): ADD wraps, SLT is signed, SLTU is not, and a shift takes the low six bits of rs2. -/
theorem test_add_wraps : after (.add 0 3 1 2) (scribe 0 (2 ^ 64 - 1) 2) (·.gget 0 3) = some 1 := by decide
theorem test_slt_signed : after (.slt 0 3 1 2) (scribe 0 (2 ^ 64 - 1) 2) (·.gget 0 3) = some 1 ∧
    after (.sltu 0 3 1 2) (scribe 0 (2 ^ 64 - 1) 2) (·.gget 0 3) = some 0 := by decide
theorem test_shift_low_six_bits : after (.sll 0 3 1 2) (scribe 0 1 65) (·.gget 0 3) = some 2 ∧ after (.sra 0 3 1 2) (scribe 0 (2 ^ 63) 63) (·.gget 0 3) = some 0xFFFFFFFFFFFFFFFF := by decide
theorem test_mulh_signed : after (.mulh 0 3 1 2) (scribe 0 (2 ^ 64 - 1) 2) (·.gget 0 3) = some 0xFFFFFFFFFFFFFFFF ∧ after (.mulhu 0 3 1 2) (scribe 0 (2 ^ 64 - 1) 2) (·.gget 0 3) = some 1 := by decide
/-- R89: the corners of a division. -/
theorem test_division_by_zero : after (.divu 0 3 1 2) (scribe 0 7 0) (·.gget 0 3) = some 0xFFFFFFFFFFFFFFFF ∧ after (.remu 0 3 1 2) (scribe 0 7 0) (·.gget 0 3) = some 7 := by decide
theorem test_clz_of_zero : after (.clz 0 3 1) (scribe 0 0 0) (·.gget 0 3) = some 64 ∧ after (.popc 0 3 1) (scribe 0 0xFF 0) (·.gget 0 3) = some 8 := by decide
theorem test_bfx_field : after (.bfx 0 3 1 2 8) (scribe 0 0xABCD 4) (·.gget 0 3) = some 0xBC := by decide
/-- g0 reads as zero and takes no value (R79). -/
theorem test_g0_takes_nothing : after (.add 0 0 1 2) (scribe 0 7 5) (·.gget 0 0) = some 0 := by decide
/-- A source that is also the destination is read first. -/
theorem test_source_is_destination : after (.sub 0 1 2 1) (scribe 0 7 5) (·.gget 0 1) = some 0xFFFFFFFFFFFFFFFE := by decide
/-- R90: ADDI sign-extends, ORI does not, LUI sign-extends what it shifts, SHI with 0b11 rotates. -/
theorem test_immediates_extend : after (.addi 0 3 1 0xFFFF) (scribe 0 7 0) (·.gget 0 3) = some 6 ∧ after (.ori 0 3 1 0xFFFF) (scribe 0 0 0) (·.gget 0 3) = some 0xFFFF := by decide
theorem test_lui_sign_extends : after (.lui 0 3 0x8000) (scribe 0 0 0) (·.gget 0 3) = some 0xFFFFFFFF80000000 := by decide
theorem test_shi_rotates : after (.shi 0 3 1 0xC1) (scribe 0 1 0) (·.gget 0 3) = some 0x8000000000000000 := by decide
/-- R93: a branch goes to its own address plus four times the offset; JALR reads rs1 before it writes rd. -/
theorem test_branch_backwards : after (.beq 0 1 2 0xFFFF) (scribe 0 5 5) (·.pcOf 0) = some 0xFC ∧ after (.bne 0 1 2 0xFFFF) (scribe 0 5 5) (·.pcOf 0) = some 0x104 := by decide
theorem test_jalr_reads_first : after (.jalr 0 1 1 8) (scribe 0 0x200 0) (fun t => (t.pcOf 0, t.gget 0 1)) = some (0x208, 0x104) := by decide
theorem test_jal_links : after (.jal 0 2) (scribe 0 0 0) (fun t => (t.pcOf 0, t.gget 0 31)) = some (0x108, 0x104) := by decide
/-- R91: loads extend as they are named; a misaligned access is a fault and ends the run. -/
theorem test_store_then_load : (after (.sw 0 2 1 0 0) (scribe 0 0x40 0xFFFFFFFF80000001) id).bind (fun s => after (.lh 0 3 1 0 0) s (·.gget 0 3)) = some 1 ∧
    (after (.sw 0 2 1 0 0) (scribe 0 0x40 0xFFFFFFFF80000001) id).bind (fun s => after (.lw 0 3 1 0 0) s (·.gget 0 3)) = some 0xFFFFFFFF80000001 ∧
    (after (.sw 0 2 1 0 0) (scribe 0 0x40 0xFFFFFFFF80000001) id).bind (fun s => after (.lwu 0 3 1 0 0) s (·.gget 0 3)) = some 0x80000001 := by decide
theorem test_misaligned_ends_the_run : after (.ld 0 3 1 0 0) (scribe 0 0x44 0) (fun t => (t.eng 0).running) = some none ∧ after (.ld 0 3 1 0 0) (scribe 0 0x44 0) (fun t => (t.eng 0).faults) = some 1 := by decide
/-- R92: an AMO returns the old word and leaves the new one. -/
theorem test_amo_returns_old : (after (.sd 0 2 1 0 0) (scribe 0 0x40 7) id).bind (fun s => after (.amo 0 3 1 0 2 0) s (fun t => (t.gget 0 3, after (.ld 0 4 1 0 0) t (·.gget 0 4)))) = some (7, some 14) := by decide

/-- The example of chapter 10 (R348): the Bindery's read of port 7, target 20,000 ns, reserved, and as an excess request. -/
theorem test_urgency_example : State.reset.rd Reg.MEM_PORT_CFG.target_ns 7 = 20000 ∧
    [9999, 10000, 15000, 18000].map (fun n => urgencyOf (n * nsU) 20000) = [0, 1, 2, 3] ∧ [39999, 40000, 72000].map (fun n => urgencyOf (n * nsU) (4 * 20000)) = [0, 1, 3] := by decide
/-- The example of chapter 5: at 1,200 lines per inch, one row in four and 12,500 ns, the cap shows 6,637 mm/s. -/
theorem test_speed_cap_example :
    vCap { device [(Reg.LA_STATUS.job_open, 0, 1), (Reg.FS_PITCH.line_pitch, 0, 90910141)]
      [(chSlot 0, [(SlotE.nozzles, 256), (SlotE.wavePeriodNs, 12500)]), (chPlane 0, plane.map (fun f => if f.1 = PlaneE.nPrint then (f.1, 4) else f))] with
        la := { Raster.reset with pages := [page], jobs := [{ idx := 0, id := 9, base := 0, policy := 1, ended := some 1, planes := 1 }], endLine := 1 } } = 6637 := by decide
/-- The example of chapter 8: 8 : 5 turns counts of 1/40,960 mm into wp. -/
theorem test_web_position_example : fbWp (device [] [(chFb 2, [(FbE.wpNum, 8), (FbE.wpDen, 5)])]) 2 40960 = 65536 := by decide
/-- The example of chapter 11: opcode 0x7907 is DECOMPRESS, zlib, FINISH, `first`. -/
theorem test_bindery_opcode_example : bopOf 0x7907 = opDecompress ∧ bwrapOf 0x7907 = 1 ∧ bflushOf 0x7907 = flushFinish ∧ bfirstOf 0x7907 = true ∧ bopOk 0x7907 = true := by decide
/-- RFC 1950 and 1951, as R368 takes them: a stored block, and a fixed-code block, give their byte back. -/
theorem test_inflate_blocks : inflate 0 8 [1, 1, 0, 0xFE, 0xFF, 5] = ([5], 6, 2) ∧ (inflate 0 8 [0x63, 0, 0]).1 = [0] := by decide

/-- R106 (Table 3-10): lanes wrap or saturate, VMULQ saturates only at −1 × −1, VEMA keeps 17 bits, VREDADD is signed. Lane 0 of v1 and of v2 are g1 and g2. -/
def lanes (x y : Nat) : State := ((scribe 0 0 0).vset 0 1 (BitVec.ofNat 256 x)).vset 0 2 (BitVec.ofNat 256 y)

theorem test_vadd_wraps_per_lane : after (.vadd 0 3 1 2) (lanes 0x1FFFF 1) (·.vget 0 3) = some 0x10000 ∧ after (.vadds 0 3 1 2) (lanes 0x7FFF 1) (·.vget 0 3) = some 0x7FFF ∧
    after (.vaddus 0 3 1 2) (lanes 0xFFFF 1) (·.vget 0 3) = some 0xFFFF := by decide
theorem test_vsub_saturates : after (.vsubus 0 3 1 2) (lanes 1 2) (·.vget 0 3) = some 0 ∧ after (.vsubs 0 3 1 2) (lanes 0x8000 1) (·.vget 0 3) = some 0x8000 ∧
    after (.vabsdu 0 3 1 2) (lanes 1 0xFFFF) (·.vget 0 3) = some 0xFFFE := by decide
theorem test_vmulq_saturates : after (.vmulq 0 3 1 2) (lanes 0x8000 0x8000) (·.vget 0 3) = some 0x7FFF ∧ after (.vmulq 0 3 1 2) (lanes 0x4000 0x4000) (·.vget 0 3) = some 0x2000 := by decide
theorem test_vema_example : after (.vema 0 2 1 1) (lanes 0x10 0x30) (·.vget 0 2) = some 0x20 ∧ after (.vema 0 2 1 4) (lanes 0xFFFF 0) (·.vget 0 2) = some 0x0FFF := by decide
theorem test_vredadd_signed : after (.vredadd 0 3 1) (lanes 0xFFFF0001FFFE 0) (·.gget 0 3) = some 0xFFFFFFFFFFFFFFFE ∧ after (.vany 0 3 1) (lanes 0x50000 0) (·.gget 0 3) = some 2 := by decide
/-- R88: k of 16 in a vector shift is illegal, which is fault 0x01 (Table 3-13). -/
theorem test_vector_shift_illegal : after (.vshl 0 3 1 16) (lanes 1 0) (fun t => ((t.eng 0).running, (t.eng 0).faults)) = some (none, 1) := by decide

/-- Table 1-14: LX_IDENT reads part 0x5240. -/
theorem test_ident_part : after (.rcRegisterRead 5 17 (Reg.LX_IDENT.part.addr + 2) 2) idle (fun t => t.out) = some [.readData 17 0x5240] := by decide
/-- R40: a write of 16 bits is ignored, one of 32 bits is taken. -/
theorem test_register_write : after (.registerWrite 5 17 Reg.LA_WM_RED.wm_red.addr 4 250) idle (fun t => t.rd Reg.LA_WM_RED.wm_red) = some 250 ∧
    after (.registerWrite 5 17 Reg.LA_WM_RED.wm_red.addr 2 250) idle (fun t => t.rd Reg.LA_WM_RED.wm_red) = some (idle.rd Reg.LA_WM_RED.wm_red) := by decide
/-- R32: a producer index that would leave more than the ring's descriptors published is ignored. -/
theorem test_doorbell_range : after (.ringProducerWrite 5 0xFF 16) (belled 1 0 0) (fun t => (t.ring 0xFF).prod) = some 16 ∧
    after (.ringProducerWrite 5 0xFF 17) (belled 1 0 0) (fun t => (t.ring 0xFF).prod) = some 0 := by decide
/-- R60: an epoch to a mode the table does not allow is not scheduled. -/
theorem test_epoch_schedule : after (.epochSchedule 0 modePrint false) (epoched 0) (fun t => t.rd Reg.EPOCH_STATUS.state) = some 1 ∧
    after (.epochSchedule 0 modePrint false) (epoched 2) (fun t => t.rd Reg.EPOCH_STATUS.state) = some 2 := by decide
/-- R49: a trip drives TRIP_N low and leaves COLD. -/
theorem test_trip : after (.hardwareTrip 5 2) idle (fun t => (t.mode, t.md.tripped, t.out)) = some (modeCold, true, [.ball .tripN false]) := by decide
/-- R294: one edge is one count, which wraps at `cpr`; R296: both edges at once are an error and no count. -/
theorem test_quadrature : after (.feedbackPositionUpdate 5 0 1 0) (feeding 1 .reset none) (fun t => (t.rd Reg.FB_COUNT.count 0, t.rd Reg.FB_QERR.qerr 0)) = some (1, 0) ∧
    after (.feedbackPositionUpdate 5 0 0 1) (feeding 1 .reset none) (fun t => (t.rd Reg.FB_COUNT.count 0, t.rd Reg.FB_REV.rev 0)) = some (4095, 2 ^ 32 - 1) ∧
    after (.feedbackPositionUpdate 5 0 1 1) (feeding 1 .reset none) (fun t => (t.rd Reg.FB_COUNT.count 0, t.rd Reg.FB_QERR.qerr 0)) = some (0, 1) := by decide
/-- The example of chapter 14: a sensor that fails among neighbours at 82 °C with an offset of 6 °C reads 88 °C. -/
theorem test_sensor_substitution_example :
    (let s := sensFail (((sensed 0 [(Reg.THERM_SENS.s_value, 1, 82 * 16), (Reg.THERM_SENS.s_value, 2, 82 * 16)] .reset).wr Reg.THERM_SENS_RAW.s_offset 0 (6 * 16))) 0
     (s.rd Reg.THERM_SENS.s_state 0, s.rd Reg.THERM_SENS.s_value 0)) = (1, 88 * 16) := by decide
/-- R186: pixel 0 of a frame lies in bits 1:0 of its first byte. -/
theorem test_pack_pixels : packPixels 2 [3, 0, 1, 2, 1] = [0x93, 1] := by decide
/-- R188, R190: a set with a wrong check is counted and grants no credit; the right one grants what it says. -/
theorem test_credit : after (.credit 5 0 (orderedSetWord osCredit (9 * 2 ^ 31))) printing (fun t => (t.slot 0).credits) = some 9 ∧
    after (.credit 5 0 (orderedSetWord osCredit (9 * 2 ^ 31) + 1)) printing (fun t => ((t.slot 0).credits, t.rd Reg.LANE_ERR.os_err 0)) = some (0, 1) := by decide
/-- R87, R88 (Tables 3-5 to 3-12): words written from the formats, opcode in bits [31:26] — LD g5, [w0: g3 + 0] is 11, 5, 3, 0, 0; RING.POP g4, g2, g3
is 0x20, 4, 2, 3, func 2; LINE.PAGE g8, g5, g6 is 0x24, 8, 5, 6, func 1 — and words of no instruction. -/
theorem test_folio_words : folioDecode 0 0x2CA30000 = some (.ld 0 5 3 0 0) ∧ folioDecode 0 0x80821880 = some (.ringPop 0 4 2 3) ∧ folioDecode 0 0x91053040 = some (.linePage 0 8 5 6) ∧
    folioDecode 0 0 = none ∧ folioDecode 0 0xFFFFFFFF = none := by decide
/-- The opcode table gives no row any bits, so no word spells a command. -/
theorem test_no_word : decodeTableWord 32 0x2CA30000 = none := rfl
/-- An empty queue leaves the block as it is. -/
theorem test_idle_step : step State.reset = .next State.reset := rfl

end Sys2Proof.Tests
end

/-! ## Register writes (Tables 0-3 and 1-12; R10, R40, R41) -/

namespace Sys2Proof

open Machine Laws

/-! ### Numbers as bits -/

theorem testBit_bits (n lo w j : Nat) : (bits n lo w).testBit j = (decide (j < w) && n.testBit (lo + j)) := by
  rw [bits, Nat.testBit_mod_two_pow, Nat.testBit_div_two_pow, Nat.add_comm]

theorem testBit_low (w n j : Nat) : (low w n).testBit j = (decide (j < w) && n.testBit j) := Nat.testBit_mod_two_pow ..

theorem bits_lt (n lo w : Nat) : bits n lo w < 2 ^ w := Nat.mod_lt _ (Nat.two_pow_pos w)

@[simp] theorem low_bits (n lo w : Nat) : low w (bits n lo w) = bits n lo w := Nat.mod_mod ..

/-- The mask of a W1C write holds the bits that the written word leaves. -/
theorem testBit_w1cMask {w x j : Nat} (hx : x < 2 ^ w) (hj : j < w) : (2 ^ w - 1 - x).testBit j = !x.testBit j := by
  rw [Nat.sub_sub, Nat.add_comm 1 x, Nat.testBit_two_pow_sub_succ hx, decide_eq_true hj, Bool.true_and]

/-! ### Changes of register fields alone -/

theorem OnlyRegs.refl (s : State) : OnlyRegs s s [] := ⟨rfl, fun _ _ _ => rfl⟩

theorem OnlyRegs.trans {s t u : State} {fs gs : List Nat} (h : OnlyRegs s t fs) (k : OnlyRegs t u gs) : OnlyRegs s u (fs ++ gs) := by
  refine ⟨by rw [k.1, h.1], fun f i hn => ?_⟩
  rw [List.mem_append, not_or] at hn
  rw [k.2 f i hn.2, h.2 f i hn.1]

theorem OnlyRegs.mono {s t : State} {fs gs : List Nat} (h : OnlyRegs s t fs) (hs : fs ⊆ gs) : OnlyRegs s t gs :=
  ⟨h.1, fun f i hn => h.2 f i (fun hm => hn (hs hm))⟩

theorem onlyRegs_wr (s : State) (f : Fld) (i v : Nat) : OnlyRegs s (s.wr f i v) [f.key i] :=
  ⟨rfl, fun _ _ hn => tbl_get_put_ne _ _ _ (List.mem_singleton.not.1 hn)⟩

theorem OnlyRegs.same {s : State} (fs : List Nat) : OnlyRegs s s fs := (OnlyRegs.refl s).mono (List.nil_subset fs)

/-! ### The register map: no two fields begin at one bit -/

/-- The bit of the address space at which a field begins. -/
def place (f : Fld) : Nat := f.addr * 32 + f.lsb

theorem regTable_places_ascend : ((regTable.map place).insertionSort (· ≤ ·)).IsChain (· < ·) := by decide +kernel

theorem regTable_places_nodup : (regTable.map place).Nodup :=
  (List.perm_insertionSort (· ≤ ·) _).nodup_iff.1 ((List.isChain_iff_pairwise.1 regTable_places_ascend).imp Nat.ne_of_lt)

theorem regTable_nodup : regTable.Nodup := regTable_places_nodup.of_map

/-- Copies of different fields of the map stand under different keys. -/
theorem regTable_key_ne {f g : Fld} (hf : f ∈ regTable) (hg : g ∈ regTable) (h : f ≠ g) (i j : Nat) : f.key i ≠ g.key j :=
  key_ne (fun e => h (List.inj_on_of_nodup_map regTable_places_nodup hf hg e))

/-- The field that holds a lock bit. -/
def lockFld : LockId → Fld
  | .cat => Reg.CAT_STATUS.cat_lock
  | .lim => Reg.FS_LIMITS.lim_lock
  | .tlim => Reg.THERM_LIMITS.tlim_lock
  | .cfg => Reg.RING_CFG.cfg_lock

theorem locked_eq (s : State) (k : LockId) : locked s k = s.on (lockFld k) := by cases k <;> rfl

theorem lockFld_acc (k : LockId) : (lockFld k).acc = .w1s := by cases k <;> rfl

theorem lockFld_mem (k : LockId) : lockFld k ∈ regTable := by cases k <;> decide +kernel

/-! ### The fields of one register -/

/-- The key under which a field that an address names stands. -/
def fieldKey (p : FieldAt) : Nat := p.1.key p.2.1

/-- Whatever its bank, a field has an address name copies of itself alone. -/
theorem fst_of_mem_atAddr {s : State} {a : Nat} {f : Fld} {p : FieldAt} (h : p ∈ f.atAddr s a) : p.1 = f := by
  unfold Fld.atAddr at h
  split at h <;> grind

/-- A field of one copy is named once by its address; every other field named there is another one of the map. -/
theorem regFields_around (s : State) {f : Fld} (hf : f ∈ regTable) (hb : f.bank = .one) :
    ∃ A B, regFields s f.addr = A ++ (f, 0, f.lsb) :: B ∧ ∀ p ∈ A ++ B, p.1 ∈ regTable ∧ p.1 ≠ f := by
  obtain ⟨L, R, e⟩ := List.append_of_mem hf
  have hn : f ∉ L ++ R := (List.nodup_cons.1 (List.nodup_middle.1 (e ▸ regTable_nodup))).1
  refine ⟨L.flatMap (Fld.atAddr s f.addr), R.flatMap (Fld.atAddr s f.addr), ?_, fun p hp => ?_⟩
  · have hone : f.atAddr s f.addr = [(f, 0, f.lsb)] := by simp [Fld.atAddr, hb]
    rw [regFields, e, List.flatMap_append, List.flatMap_cons, hone, List.singleton_append]
  · rw [← List.flatMap_append] at hp
    obtain ⟨g, hg, hpg⟩ := List.mem_flatMap.1 hp
    rw [fst_of_mem_atAddr hpg]
    exact ⟨e ▸ List.mem_append.2 ((List.mem_append.1 hg).imp id (List.mem_cons_of_mem f)), fun h => hn (h ▸ hg)⟩

theorem mem_regFields (s : State) {f : Fld} (hf : f ∈ regTable) (hb : f.bank = .one) : (f, 0, f.lsb) ∈ regFields s f.addr := by
  obtain ⟨A, B, e, -⟩ := regFields_around s hf hb
  simp [e]

/-! ### What a write does to the fields of its register -/

/-- The fields of a word in the order in which they are written: those that close a lock or set a bit last. -/
def writeOrder (ps : List FieldAt) : List FieldAt := ps.filter (fun p => !(p.1.acc == .w1s)) ++ ps.filter (fun p => p.1.acc == .w1s)

theorem fieldsWrite_eq (s : State) (v : Nat) (ps : List FieldAt) :
    fieldsWrite s v ps = (writeOrder ps).foldl (fun s p => fieldWrite s v p) s := by
  rw [fieldsWrite, List.partition_eq_filter_filter]
  rfl

theorem writeOrder_subset (ps : List FieldAt) : writeOrder ps ⊆ ps :=
  List.append_subset.2 ⟨List.filter_subset_self _, List.filter_subset_self _⟩

/-- Before a field that sets no bits, none that does is written. -/
theorem writeOrder_around (A B : List FieldAt) (p : FieldAt) :
    ∃ C D, writeOrder (A ++ p :: B) = C ++ p :: D ∧ C ++ D ⊆ A ++ B ∧ (p.1.acc ≠ .w1s → ∀ q ∈ C, q.1.acc ≠ .w1s) := by
  by_cases hp : p.1.acc = .w1s
  · refine ⟨(A ++ B).filter (fun q => !(q.1.acc == .w1s)) ++ A.filter (fun q => q.1.acc == .w1s), B.filter (fun q => q.1.acc == .w1s),
      ?_, ?_, fun h => absurd hp h⟩
    · simp [writeOrder, hp]
    · grind
  · refine ⟨A.filter (fun q => !(q.1.acc == .w1s)), B.filter (fun q => !(q.1.acc == .w1s)) ++ (A ++ B).filter (fun q => q.1.acc == .w1s),
      ?_, ?_, fun _ q hq => ?_⟩
    · simp [writeOrder, hp]
    · grind
    · simpa using (List.mem_filter.1 hq).2

theorem fieldWrite_onlyRegs (s : State) (v : Nat) (p : FieldAt) : OnlyRegs s (fieldWrite s v p) [fieldKey p] := by
  unfold fieldWrite
  split
  case h_1 => exact onlyRegs_wr ..
  case h_4 => exact onlyRegs_wr ..
  case h_2 | h_3 =>
    split
    · exact OnlyRegs.same _
    · exact onlyRegs_wr ..
  all_goals exact OnlyRegs.same _

theorem fieldWrites_onlyRegs (v : Nat) (ps : List FieldAt) (s : State) :
    OnlyRegs s (ps.foldl (fun s p => fieldWrite s v p) s) (ps.map fieldKey) := by
  induction ps generalizing s with
  | nil => exact OnlyRegs.refl s
  | cons p ps ih => exact (fieldWrite_onlyRegs s v p).trans (ih _)

theorem fieldsWrite_onlyRegs (s : State) (v : Nat) (ps : List FieldAt) : OnlyRegs s (fieldsWrite s v ps) (ps.map fieldKey) := by
  rw [fieldsWrite_eq]
  exact (fieldWrites_onlyRegs v _ s).mono (List.map_subset _ (writeOrder_subset ps))

/-- Writes of other fields of the map leave a field alone. -/
theorem fieldWrites_rd_other (v : Nat) (s : State) {ps : List FieldAt} {f : Fld} (hf : f ∈ regTable)
    (h : ∀ p ∈ ps, p.1 ∈ regTable ∧ p.1 ≠ f) : (ps.foldl (fun s p => fieldWrite s v p) s).rd f = s.rd f := by
  refine (fieldWrites_onlyRegs v ps s).2 f 0 (fun hm => ?_)
  obtain ⟨p, hp, e⟩ := List.mem_map.1 hm
  exact regTable_key_ne (h p hp).1 hf (h p hp).2 p.2.1 0 e

/-- Writes of fields that set no bits leave the locks as they are. -/
theorem fieldWrites_locked (v : Nat) (s : State) {ps : List FieldAt} (k : LockId) (h : ∀ p ∈ ps, p.1 ∈ regTable ∧ p.1.acc ≠ .w1s) :
    locked (ps.foldl (fun s p => fieldWrite s v p) s) k = locked s k := by
  have hrd := fieldWrites_rd_other v s (lockFld_mem k) (fun p hp => ⟨(h p hp).1, fun e => (h p hp).2 (e ▸ lockFld_acc k)⟩)
  rw [locked_eq, locked_eq, State.on, State.on, hrd]

/-- What a field of one copy holds after a taken write of `v` to its register, by its access code (Table 0-3). -/
def written (s : State) (v : Nat) (f : Fld) : Nat :=
  match f.acc with
  | .rw => bits v f.lsb f.width
  | .rwl k => if locked s k then s.rd f else bits v f.lsb f.width
  | .w1c => low f.width (s.rd f &&& (2 ^ f.width - 1 - bits v f.lsb f.width))
  | .w1s => low f.width (s.rd f ||| bits v f.lsb f.width)
  | .ro | .wo | .rc => s.rd f

/-- The encoder fault, the one field whose write its cause can bar (R300), has a copy per encoder: no field of one copy is it. -/
theorem fieldWrite_rd_self (s : State) (v : Nat) {f : Fld} (hb : f.bank = .one) :
    (fieldWrite s v (f, 0, f.lsb)).rd f = written s v f := by
  have hne : f ≠ Reg.FB_STATE.enc_fault := fun e => by rw [e] at hb; exact absurd hb (by decide)
  cases ha : f.acc with
  | rwl k => by_cases hk : locked s k = true <;> simp [fieldWrite, written, ha, hk, FieldAt.of]
  | w1c => simp only [fieldWrite, written, ha, hne, false_and, if_false, rd_wr_self]; rfl
  | w1s => simp only [fieldWrite, written, ha, rd_wr_self]; rfl
  | _ => simp [fieldWrite, written, ha, FieldAt.of]

/-- What `written` depends on: the field itself, and where it sets no bits the locks. -/
theorem written_congr {s t : State} (v : Nat) {f : Fld} (hrd : t.rd f = s.rd f)
    (hk : f.acc ≠ .w1s → ∀ k, locked t k = locked s k) : written t v f = written s v f := by
  unfold written
  split <;> simp_all

theorem fieldsWrite_rd (s : State) (v : Nat) {f : Fld} (hf : f ∈ regTable) (hb : f.bank = .one) :
    (fieldsWrite s v (regFields s f.addr)).rd f = written s v f := by
  obtain ⟨A, B, hps, hother⟩ := regFields_around s hf hb
  obtain ⟨C, D, horder, hsub, hlocks⟩ := writeOrder_around A B (f, 0, f.lsb)
  have hC : ∀ q ∈ C, q.1 ∈ regTable ∧ q.1 ≠ f := fun q hq => hother q (hsub (List.mem_append_left D hq))
  have hD : ∀ q ∈ D, q.1 ∈ regTable ∧ q.1 ≠ f := fun q hq => hother q (hsub (List.mem_append_right C hq))
  rw [fieldsWrite_eq, hps, horder, List.foldl_append, List.foldl_cons, fieldWrites_rd_other v _ hf hD, fieldWrite_rd_self _ v hb]
  exact written_congr v (fieldWrites_rd_other v s hf hC)
    (fun hacc k => fieldWrites_locked v s k (fun q hq => ⟨(hC q hq).1, hlocks hacc q hq⟩))

/-- A 1 clears a bit of a W1C field, a 0 leaves it. -/
theorem testBit_written_w1c (s : State) (v : Nat) {f : Fld} (ha : f.acc = .w1c) {j : Nat} (hj : j < f.width) :
    (written s v f).testBit j = ((s.rd f).testBit j && !v.testBit (f.lsb + j)) := by
  simp only [written, ha]
  rw [testBit_low, Nat.testBit_and, testBit_w1cMask (bits_lt ..) hj, testBit_bits, decide_eq_true hj, Bool.true_and, Bool.true_and]

/-- A 1 sets a bit of a W1S field, a 0 leaves it. -/
theorem testBit_written_w1s (s : State) (v : Nat) {f : Fld} (ha : f.acc = .w1s) {j : Nat} (hj : j < f.width) :
    (written s v f).testBit j = ((s.rd f).testBit j || v.testBit (f.lsb + j)) := by
  simp only [written, ha]
  rw [testBit_low, Nat.testBit_or, testBit_bits, decide_eq_true hj, Bool.true_and, Bool.true_and]

/-! ### Which writes are taken -/

theorem regTakes_of_forbids {s : State} {a v : Nat} (ps : List FieldAt) (h : regForbids s a v = true) : regTakes s a v ps = false := by
  simp [regTakes, h]

/-- A value out of the range of an RW field of one copy bars the write. -/
theorem regTakes_of_out_of_range {s : State} {v : Nat} {f : Fld} (hf : f ∈ regTable) (hb : f.bank = .one) (ha : f.acc = .rw)
    (h : f.inRange (bits v f.lsb f.width) = false) : regTakes s f.addr v (regFields s f.addr) = false := by
  refine Bool.eq_false_iff.2 (fun htaken => ?_)
  simp only [regTakes, Bool.and_eq_true, List.all_eq_true] at htaken
  obtain ⟨⟨-, hall⟩, -⟩ := htaken
  have hfield := hall _ (mem_regFields s hf hb)
  simp [Fld.writable, ha, FieldAt.of, h] at hfield

theorem plainWrite_of_refused {s : State} {a v : Nat} (h : regTakes s a v (regFields s a) = false) : plainWrite s a v = s := by
  simp [plainWrite, h]

theorem plainWrite_of_taken {s : State} {a v : Nat} (h : regTakes s a v (regFields s a) = true) :
    plainWrite s a v = fieldsWrite s v (regFields s a) := by
  simp [plainWrite, h]

/-! ### The bus -/

theorem busAlias_bar0 {a : Nat} (h : a < bar2) : busAlias a = a := by
  unfold busAlias
  rw [if_neg (by omega), if_neg (by omega), if_neg (by omega)]

/-- A register of BAR0 without a row of its own has no effect but on its fields. -/
theorem bar0Write_plain (s : State) {a : Nat} (v : Nat) (h : ownRow a = false) : bar0Write s a v = plainWrite s a v := by
  have hgrp : Reg.GRP_CFG.run.addr = 0x70100 := rfl
  simp only [ownRow, hgrp, Bool.or_eq_false_iff, List.contains_eq_mem, decide_eq_false_iff_not, List.mem_cons, not_or] at h
  obtain ⟨⟨hrows, hport⟩, hmsix⟩ := h
  simp [bar0Write, hrows, hport, hmsix]

/-- A write that does not answer, or is not aligned, is ignored. -/
theorem busWriteWord_ignored {s : State} {src a : Nat} (v : Nat) (h : reaches s src a = false ∨ a % 4 ≠ 0) : busWriteWord s src a v = s := by
  unfold busWriteWord
  exact if_pos (by simpa using h)

theorem busWriteWord_bar0 {s : State} {src a : Nat} (v : Nat) (hr : reaches s src a = true) (h4 : a % 4 = 0) (ha : a < bar2)
    (ho : ownRow a = false) : busWriteWord s src a v = (plainWrite s a v).settle := by
  simp [busWriteWord, hr, h4, busAlias_bar0 ha, ha, bar0Write_plain s v ho]

theorem busWrite_word (s : State) (src a v : Nat) : busWrite s src a 4 v = busWriteWord s src a (low 32 v) := rfl

theorem busWrite_double (s : State) (src a v : Nat) :
    busWrite s src a 8 v = busWriteWord (busWriteWord s src a (low 32 v)) src (a + 4) (low 32 (v / 2 ^ 32)) := rfl

theorem busWrite_narrow {s : State} {src a n : Nat} (v : Nat) (hn : n = 1 ∨ n = 2) (ha : a < bar2 ∨ bar2 + catSize ≤ a) :
    busWrite s src a n v = s := by
  unfold busWrite busWriteNarrow
  rw [if_neg (by omega), if_pos hn, if_neg (by omega)]

/-- Settles O32: a plain register takes its word field by field (`fieldsWrite_rd`), and no two fields of the map share a key. -/
theorem registerWrites : Obligations.RegisterWrites := by
  unfold Obligations.RegisterWrites
  rintro s σ t src a v ps rfl rfl
  simp only [exec_registerWrite, execRegisterWrite]
  refine ⟨fun h => ?_, fun n hn ha => ?_, ?_, fun hr h4 ha ho hv => ?_⟩
  · rw [busWrite_word, busWriteWord_ignored _ h]
  · rw [busWrite_narrow v hn ha]
  · rw [busWrite_double]; rfl
  · rw [busWrite_word, busWriteWord_bar0 _ hr h4 ha ho, low, Nat.mod_eq_of_lt hv]
    refine ⟨?_, fun h => ?_, fun h => ?_⟩
    · rintro f hf hb rfl hacc h
      rw [plainWrite_of_refused (regTakes_of_out_of_range hf hb hacc h)]
    · rw [plainWrite_of_refused (regTakes_of_forbids _ h)]
    · rw [plainWrite_of_taken h]
      refine ⟨_, rfl, fieldsWrite_onlyRegs _ v _, ?_⟩
      rintro f hf hb rfl
      rw [fieldsWrite_rd _ v hf hb]
      refine ⟨fun hacc => ?_, fun hacc => ?_, fun k hacc => ?_, fun hacc j hj => testBit_written_w1c _ v hacc hj,
        fun hacc j hj => testBit_written_w1s _ v hacc hj⟩
      · simp only [written, hacc]
      · rcases hacc with hacc | hacc | hacc <;> simp only [written, hacc]
      · simp only [written, hacc]

end Sys2Proof

/-! ## What reads depend on, memory writes, rings and the Ledger (R9, R17, R29 to R39) -/

namespace Sys2Proof

open Machine Laws

/-! ### What the clock leaves as it is -/

theorem on_congr {s t : State} (h : t.regs = s.regs) (f : Fld) (i : Nat) : t.on f i = s.on f i := by
  simp only [State.on, rd_congr h]

theorem entry_congr {s t : State} (h : t.cat.inEffect = s.cat.inEffect) (ch : Nat) : t.entry ch = s.entry ch := by
  simp only [State.entry, h]

@[simp] theorem on_at (s : State) (t : Nat) (f : Fld) (i : Nat) : (s.at t).on f i = s.on f i := on_congr (at_regs s t) f i

@[simp] theorem entry_at (s : State) (t ch : Nat) : (s.at t).entry ch = s.entry ch := entry_congr (by rw [at_cat]) ch

@[simp] theorem ent_at (s : State) (t ch : Nat) (f : EF) : (s.at t).ent ch f = s.ent ch f := by simp only [State.ent, entry_at]

@[simp] theorem entOn_at (s : State) (t ch : Nat) (f : EF) : (s.at t).entOn ch f = s.entOn ch f := by
  simp only [State.entOn, entry_at]

@[simp] theorem inUse_at (s : State) (t ch : Nat) : (s.at t).inUse ch = s.inUse ch := by simp only [State.inUse, entry_at]

@[simp] theorem ring_at (s : State) (t n : Nat) : (s.at t).ring n = s.ring n := by simp only [State.ring, at_rings]

@[simp] theorem ringUp_at (s : State) (t n : Nat) : (s.at t).ringUp n = s.ringUp n := inUse_at s t _

@[simp] theorem ringSize_at (s : State) (t n : Nat) : (s.at t).ringSize n = s.ringSize n := by simp only [State.ringSize, ent_at]

@[simp] theorem ringHolds_at (s : State) (t n : Nat) : (s.at t).ringHolds n = s.ringHolds n := by simp only [State.ringHolds, ring_at]

/-- The clock takes at most the snapshot asked for (R38): every other part of the Ledger stays. -/
theorem at_led (s : State) (t : Nat) : (s.at t).led = { s.led with taken := (s.at t).led.taken } := by
  unfold State.at
  repeat' split
  all_goals rfl

@[simp] theorem ledGet_at (s : State) (t o : Nat) : (s.at t).ledGet o = s.ledGet o := by rw [State.ledGet, at_led, State.ledGet]

/-! ### Rings and counters -/

@[simp] theorem ring_setRing_self (s : State) (n : Nat) (r : Ring) : (s.setRing n r).ring n = r := by
  simp [State.ring, State.setRing]

theorem ring_setRing_ne (s : State) {n k : Nat} (r : Ring) (h : k ≠ n) : (s.setRing n r).ring k = s.ring k :=
  tbl_get_put_ne _ _ _ h

@[simp] theorem ledGet_setRing (s : State) (n : Nat) (r : Ring) (o : Nat) : (s.setRing n r).ledGet o = s.ledGet o := rfl

theorem ledGet_ledPut (s : State) (a b v : Nat) : (s.ledPut a v).ledGet b = if b = a then low 64 v else s.ledGet b :=
  tbl_get_put ..

theorem ledGet_ledAdd (s : State) (a b n : Nat) : (s.ledAdd a n).ledGet b = if b = a then low 64 (s.ledGet a + n) else s.ledGet b :=
  ledGet_ledPut ..

theorem ledGet_ledSub (s : State) (a b n : Nat) :
    (s.ledSub a n).ledGet b = if b = a then low 64 (s.ledGet a + 2 ^ 64 - low 64 n) else s.ledGet b :=
  ledGet_ledPut ..

/-- What leaves one counter for another is counted once in each (R35). -/
theorem ledGet_ledMove (s : State) {src dst : Nat} (n : Nat) (h : dst ≠ src) :
    (s.ledMove src dst n).ledGet src = low 64 (s.ledGet src + 2 ^ 64 - low 64 n) ∧
    (s.ledMove src dst n).ledGet dst = low 64 (s.ledGet dst + n) := by
  simp [State.ledMove, ledGet_ledAdd, ledGet_ledSub, h, h.symm]

/-! ### Bytes written to the device's address space -/

@[simp] theorem length_leBytes (k n : Nat) : (leBytes k n).length = k := by
  induction k generalizing n with
  | zero => rfl
  | succ k ih => simp [leBytes, ih]

theorem areaOf_eq_stacks {a : Nat} : areaOf a = .stacks ↔ a < stacksSize := by
  unfold areaOf
  split
  · simp [*]
  · simp only [*, iff_false]
    repeat' split
    all_goals simp

theorem areaOf_eq_readingRoom {a : Nat} : areaOf a = .readingRoom ↔ rrBase ≤ a ∧ a < rrBase + rrSize := by
  have hlow : stacksSize ≤ rrBase := by decide
  unfold areaOf
  split
  · simp only [reduceCtorEq, false_iff]; omega
  · split
    · simp_all
    · simp only [Bool.and_eq_true, decide_eq_true_eq] at *
      simp only [*, iff_false]
      repeat' split
      all_goals simp

/-- A byte written reaches memory and the marks of bad words of the Reading Room alone. -/
theorem poke_frame (s : State) (a : Nat) (b : Byte) : s.poke a b = { s with mem := (s.poke a b).mem, st := (s.poke a b).st } := by
  unfold State.poke
  repeat' split
  all_goals rfl

theorem pokeList_frame (s : State) (a : Nat) (bs : List Byte) :
    s.pokeList a bs = { s with mem := (s.pokeList a bs).mem, st := (s.pokeList a bs).st } := by
  induction bs generalizing s a with
  | nil => rfl
  | cons b bs ih => rw [State.pokeList, ih, poke_frame]

/-- Bytes written may also be mirrored to the partner (R414). -/
theorem pokeBytes_frame (s : State) (a : Nat) (bs : List Byte) : s.pokeBytes a bs =
    { s with mem := (s.pokeList a bs).mem, st := (s.pokeList a bs).st, pair := (s.pokeBytes a bs).pair } := by
  unfold State.pokeBytes
  dsimp only
  split <;> (rw [pokeList_frame])

theorem pokeBytes_mem (s : State) (a : Nat) (bs : List Byte) : (s.pokeBytes a bs).mem = (s.pokeList a bs).mem := by
  rw [pokeBytes_frame]

@[simp] theorem pokeBytes_rings (s : State) (a : Nat) (bs : List Byte) : (s.pokeBytes a bs).rings = s.rings := by rw [pokeBytes_frame]

@[simp] theorem pokeBytes_led (s : State) (a : Nat) (bs : List Byte) : (s.pokeBytes a bs).led = s.led := by rw [pokeBytes_frame]

@[simp] theorem pokeBytes_cat (s : State) (a : Nat) (bs : List Byte) : (s.pokeBytes a bs).cat = s.cat := by rw [pokeBytes_frame]

/-- Bytes that lie in the Reading Room land in memory. -/
theorem pokeList_mem_readingRoom (s : State) (a : Nat) (bs : List Byte) (hlo : rrBase ≤ a) (hhi : a + bs.length ≤ rrBase + rrSize) :
    (s.pokeList a bs).mem = Mem.write s.mem a bs := by
  induction bs generalizing s a with
  | nil => rfl
  | cons b bs ih =>
    rw [List.length_cons] at hhi
    have harea : areaOf a = .readingRoom := areaOf_eq_readingRoom.2 ⟨hlo, by omega⟩
    rw [State.pokeList, ih _ _ (by omega) (by omega), State.poke, harea, Mem.write]

/-- Bytes that lie in the Stacks land in memory, outside FREEZE and SHADOW, and change nothing else. -/
theorem pokeList_stacks (s : State) (a : Nat) (bs : List Byte) (hhi : a + bs.length ≤ stacksSize) (hf : s.frozen = false)
    (hm : s.mode ≠ modeShadow) : s.pokeList a bs = { s with mem := Mem.write s.mem a bs } := by
  induction bs generalizing s a with
  | nil => rfl
  | cons b bs ih =>
    rw [List.length_cons] at hhi
    have harea : areaOf a = .stacks := areaOf_eq_stacks.2 (by omega)
    have hpoke : s.poke a b = { s with mem := Mem.put s.mem a b } := by
      simp [State.poke, harea, hf, hm]
    rw [State.pokeList, hpoke]
    exact ih _ _ (by omega) hf hm

theorem mem_read_append (m : List Host.Cell) (a j k : Nat) : Mem.read m a (j + k) = Mem.read m a j ++ Mem.read m (a + j) k := by
  induction j generalizing a with
  | zero => simp [Mem.read]
  | succ j ih => rw [Nat.succ_add, Mem.read, ih, Mem.read, List.cons_append, Nat.succ_add_eq_add_succ]

/-- A read depends on the bytes it covers alone. -/
theorem mem_read_congr {m m' : List Host.Cell} {a n : Nat} (h : ∀ x, a ≤ x → x < a + n → Mem.get m' x = Mem.get m x) :
    Mem.read m' a n = Mem.read m a n := by
  induction n generalizing a with
  | zero => rfl
  | succ n ih => rw [Mem.read, Mem.read, h a (by omega) (by omega), ih (fun x hx hn => h x (by omega) (by omega))]

/-- Two runs of bytes written one behind the other read as one. -/
theorem mem_read_write_write (m : List Host.Cell) (a : Nat) (bs cs : List Byte) :
    Mem.read (Mem.write (Mem.write m a bs) (a + bs.length) cs) a (bs.length + cs.length) = bs ++ cs := by
  rw [mem_read_append, mem_read_write,
    mem_read_congr (m := Mem.write m a bs) (fun x _ hx => mem_get_write_out _ _ _ (.inl hx)), mem_read_write]

/-! ### Signalling events (R34) -/

/-- What a signalling event can do: nothing, a pending bit, a message, or a note that one fell within the holdoff. -/
theorem msiEvent_cases (s : State) (n : Nat) :
    msiEvent s n = s ∨ msiEvent s n = s.wr Reg.MSIX_PBA.pend n 1 ∨ msiEvent s n = msiSend s n ∨
    msiEvent s n = s.setRing n { s.ring n with held := true } := by
  unfold msiEvent
  repeat' split
  all_goals simp

theorem msiEvent_off {s : State} {n : Nat} (h : s.entOn (chRing n) RingE.irqEn = false) : msiEvent s n = s := by
  simp [msiEvent, h]

/-- A signalling event leaves the indices of its ring and what is in flight on it. -/
theorem msiEvent_ring_self (s : State) (n : Nat) : ∃ last held, (msiEvent s n).ring n = { s.ring n with lastMsi := last, held := held } := by
  rcases msiEvent_cases s n with h | h | h | h <;> rw [h]
  · exact ⟨_, _, rfl⟩
  · exact ⟨_, _, rfl⟩
  · exact ⟨_, _, ring_setRing_self ..⟩
  · exact ⟨_, _, ring_setRing_self ..⟩

theorem msiEvent_ring_ne (s : State) {n k : Nat} (hk : k ≠ n) : (msiEvent s n).ring k = s.ring k := by
  rcases msiEvent_cases s n with h | h | h | h <;> rw [h]
  · rfl
  · exact ring_setRing_ne s _ hk
  · exact ring_setRing_ne s _ hk

@[simp] theorem msiEvent_mem (s : State) (n : Nat) : (msiEvent s n).mem = s.mem := by
  rcases msiEvent_cases s n with h | h | h | h <;> rw [h] <;> rfl

@[simp] theorem msiEvent_led (s : State) (n : Nat) : (msiEvent s n).led = s.led := by
  rcases msiEvent_cases s n with h | h | h | h <;> rw [h] <;> rfl

/-! ### Completing a descriptor (R30) -/

/-- A descriptor's status and result, where it lies. -/
def descWritten (s : State) (n i status result : Nat) : State :=
  ((s.setRing n { s.ring n with flight := (s.ring n).flight.filter (fun x => x.1 != i) }).pokeNat (s.descAddr n i + 24) 4 status).pokeNat
    (s.descAddr n i + 28) 4 result

theorem descWritten_ring (s : State) (n i status result : Nat) : (descWritten s n i status result).ring n =
    { s.ring n with flight := (s.ring n).flight.filter (fun x => x.1 != i) } := by
  simp [descWritten, State.pokeNat, State.ring, State.setRing]

@[simp] theorem descWritten_led (s : State) (n i status result : Nat) : (descWritten s n i status result).led = s.led := by
  simp [descWritten, State.pokeNat]

@[simp] theorem descWritten_cat (s : State) (n i status result : Nat) : (descWritten s n i status result).cat = s.cat := by
  simp [descWritten, State.pokeNat]

theorem descWritten_mem (s : State) {n i : Nat} (status result : Nat) (hlo : rrBase ≤ s.descAddr n i)
    (hhi : s.descAddr n i + 32 ≤ rrBase + rrSize) :
    Mem.read (descWritten s n i status result).mem (s.descAddr n i + 24) 8 = leBytes 4 status ++ leBytes 4 result := by
  have hs := length_leBytes 4 status
  have hr := length_leBytes 4 result
  have h := mem_read_write_write s.mem (s.descAddr n i + 24) (leBytes 4 status) (leBytes 4 result)
  simp only [hs, hr, Nat.add_assoc, Nat.reduceAdd] at h
  rw [descWritten, State.pokeNat, State.pokeNat, pokeBytes_mem, pokeList_mem_readingRoom, pokeBytes_mem, pokeList_mem_readingRoom,
    setRing_mem, h]
  all_goals omega

/-- A ring that raises no interrupts: a descriptor in flight is written and counted, and no more. -/
theorem ringComplete_quiet {s : State} {n i : Nat} (status result : Nat) (hf : (s.ring n).flight.any (fun x => x.1 == i) = true)
    (hq : s.entOn (chRing n) RingE.irqEn = false) : ringComplete s n i status result =
      (descWritten s n i status result).ledMove (Led.descInFlight n) (Led.descCompleted n) 1 := by
  have hoff : ((descWritten s n i status result).ledMove (Led.descInFlight n) (Led.descCompleted n) 1).entOn (chRing n) RingE.irqEn = false := by
    rw [← hq]
    simp only [State.entOn]
    rw [entry_congr (s := s)]
    simp
  rw [ringComplete, if_pos hf]
  dsimp only
  split
  · exact msiEvent_off hoff
  · rfl

/-- Settles O24: no interrupt follows (`ringComplete_quiet`), and status and result lie in the Reading Room. -/
theorem ringCompletion : Obligations.RingCompletion := by
  unfold Obligations.RingCompletion
  intro s n i status result hflight hquiet
  have hne : Led.descCompleted n ≠ Led.descInFlight n := by simp [Led.descCompleted, Led.descInFlight]
  have hring : (ringComplete s n i status result).ring n = { s.ring n with flight := (s.ring n).flight.filter (fun x => x.1 != i) } := by
    rw [ringComplete_quiet status result hflight hquiet, ← descWritten_ring s n i status result]; rfl
  refine ⟨by rw [hring], by rw [hring], by rw [hring], fun hpos hlt => ?_, fun harea hhi => ?_⟩
  · obtain ⟨hsrc, hdst⟩ := ledGet_ledMove (descWritten s n i status result) 1 hne
    rw [ringComplete_quiet status result hflight hquiet, hsrc, hdst]
    simp only [State.ledGet, descWritten_led, low] at hpos hlt ⊢
    exact ⟨by omega, trivial⟩
  · rw [ringComplete_quiet status result hflight hquiet, ledMove_mem]
    exact descWritten_mem s status result (areaOf_eq_readingRoom.1 harea).1 hhi

end Sys2Proof

/-! ## Doorbells (R32, R44) -/

namespace Sys2Proof

open Machine Laws

theorem low_of_lt {w n : Nat} (h : n < 2 ^ w) : low w n = n := Nat.mod_eq_of_lt h

/-- The index that stands `diff32 i p` ahead of `p` is `i` (R31). -/
theorem mod32_add_diff32 (p : Nat) {i : Nat} (h : i < 2 ^ 32) : mod32 (p + diff32 i p) = i := by
  unfold mod32 diff32
  omega

/-! ### Producer indices -/

theorem doorProducer_refused {s : State} {n p : Nat} (h : s.ringUp n = false ∨ s.ent (chRing n) RingE.direction ≠ 1 ∨
    s.ringSize n < diff32 p (s.ring n).prod ∨ s.ringSize n < diff32 p (s.ring n).cons) : doorProducer s n p = s := by
  unfold doorProducer
  exact if_pos (by simpa [or_assoc] using h)

/-- Descriptors published on a ring: its producer index moves and `desc_posted` counts them. -/
def published (s : State) (n k : Nat) : State :=
  (s.setRing n { s.ring n with prod := mod32 ((s.ring n).prod + k) }).ledAdd (Led.descPosted n) k

/-- The vector may be raised between the count and the wake of the consumer (R34). -/
theorem ringPublish_cases (s : State) (n k : Nat) (irq : Bool) :
    ringPublish s n k irq = ringWake (published s n k) n ∨ ringPublish s n k irq = ringWake (msiEvent (published s n k) n) n := by
  unfold ringPublish
  dsimp only
  split
  · exact .inr rfl
  · exact .inl rfl

theorem doorProducer_taken {s : State} {n p : Nat} (hup : s.ringUp n = true) (hd : s.ent (chRing n) RingE.direction = 1)
    (hp : diff32 p (s.ring n).prod ≤ s.ringSize n) (hc : diff32 p (s.ring n).cons ≤ s.ringSize n) :
    ∃ irq, doorProducer s n p = ringPublish s n (diff32 p (s.ring n).prod) irq := by
  unfold doorProducer
  exact ⟨_, if_neg (by simp [hup, hd, hp, hc])⟩

/-! ### Consumer indices -/

theorem doorConsumer_refused {s : State} {n c : Nat} (h : s.ringUp n = false ∨ s.ent (chRing n) RingE.direction ≠ 2 ∨
    s.ringHolds n < diff32 c (s.ring n).cons) : doorConsumer s n c = s := by
  unfold doorConsumer
  exact if_pos (by simpa [or_assoc] using h)

/-- The descriptors that a consumer index passes are consumed and completed at once. -/
def passedBy (s : State) (n c : Nat) : State :=
  ((s.setRing n { s.ring n with cons := c }).ledAdd (Led.descConsumed n) (diff32 c (s.ring n).cons)).ledAdd (Led.descCompleted n)
    (diff32 c (s.ring n).cons)

theorem doorConsumer_taken {s : State} {n c : Nat} (hc : c < 2 ^ 32) (hup : s.ringUp n = true)
    (hd : s.ent (chRing n) RingE.direction = 2) (hh : diff32 c (s.ring n).cons ≤ s.ringHolds n) :
    doorConsumer s n c = if n = 0 then (passedBy s n c).flushEvents else passedBy s n c := by
  have hmod : mod32 c = c := Nat.mod_eq_of_lt hc
  unfold doorConsumer
  rw [if_neg (by simp [hup, hd, hh]), hmod]
  rfl

/-! ### The commands -/

theorem execRingProducerWrite_open {s : State} (t : Nat) {n i : Nat} (hb : bar2Open s = true) (hn : n < 256) (hi : i < 2 ^ 32) :
    execRingProducerWrite t n i s = .next (doorProducer (s.at t) n i) := by
  simp [execRingProducerWrite, hb, hn, low_of_lt hi]

theorem execRingConsumerWrite_open {s : State} (t : Nat) {n i : Nat} (hb : bar2Open s = true) (hn : n < 256) (hi : i < 2 ^ 32) :
    execRingConsumerWrite t n i s = .next (doorConsumer (s.at t) n i) := by
  simp [execRingConsumerWrite, hb, hn, low_of_lt hi]

theorem execRingProducerWrite_closed {s : State} (t n i : Nat) (hb : bar2Open s = false) : execRingProducerWrite t n i s = .next (s.at t) := by
  simp [execRingProducerWrite, hb]

theorem execRingConsumerWrite_closed {s : State} (t n i : Nat) (hb : bar2Open s = false) : execRingConsumerWrite t n i s = .next (s.at t) := by
  simp [execRingConsumerWrite, hb]

/-- A producer index is ignored, whether BAR2 is closed or the ring refuses it. -/
theorem ringProducerWrite_refused {s : State} (t : Nat) {n i : Nat} (hn : n < 256) (hi : i < 2 ^ 32)
    (h : s.ringUp n = false ∨ s.ent (chRing n) RingE.direction ≠ 1 ∨
      s.ringSize n < diff32 i (s.ring n).prod ∨ s.ringSize n < diff32 i (s.ring n).cons) :
    exec (.ringProducerWrite t n i) s = .next (s.at t) := by
  rw [exec_ringProducerWrite]
  cases hb : bar2Open s with
  | false => exact execRingProducerWrite_closed t n i hb
  | true => rw [execRingProducerWrite_open t hb hn hi, doorProducer_refused (by simpa using h)]

/-- A consumer index likewise. -/
theorem ringConsumerWrite_refused {s : State} (t : Nat) {n i : Nat} (hn : n < 256) (hi : i < 2 ^ 32)
    (h : s.ringUp n = false ∨ s.ent (chRing n) RingE.direction ≠ 2 ∨ s.ringHolds n < diff32 i (s.ring n).cons) :
    exec (.ringConsumerWrite t n i) s = .next (s.at t) := by
  rw [exec_ringConsumerWrite]
  cases hb : bar2Open s with
  | false => exact execRingConsumerWrite_closed t n i hb
  | true => rw [execRingConsumerWrite_open t hb hn hi, doorConsumer_refused (by simpa using h)]

/-- What a taken producer index leaves before the consumer is woken: the statement of O36 about it. -/
def Posted (s u : State) (n i : Nat) : Prop :=
  (u.ring n).prod = i ∧ (u.ring n).cons = (s.ring n).cons ∧ (u.ring n).flight = (s.ring n).flight ∧
  u.ledGet (Led.descPosted n) = low 64 (s.ledGet (Led.descPosted n) + diff32 i (s.ring n).prod) ∧
  (∀ k, k ≠ n → u.ring k = s.ring k) ∧ u.mem = s.mem

theorem posted_published (s : State) (n : Nat) {i : Nat} (hi : i < 2 ^ 32) : Posted s (published s n (diff32 i (s.ring n).prod)) n i := by
  have hring : (published s n (diff32 i (s.ring n).prod)).ring n = { s.ring n with prod := i } := by
    rw [published, mod32_add_diff32 _ hi]
    exact ring_setRing_self ..
  refine ⟨by rw [hring], by rw [hring], by rw [hring], ?_, fun k hk => ring_setRing_ne s _ hk, rfl⟩
  rw [published, ledGet_ledAdd, if_pos rfl]
  rfl

theorem Posted.msiEvent {s u : State} {n i : Nat} (h : Posted s u n i) : Posted s (msiEvent u n) n i := by
  obtain ⟨hprod, hcons, hflight, hled, hother, hmem⟩ := h
  obtain ⟨last, held, hring⟩ := msiEvent_ring_self u n
  refine ⟨by rw [hring, ← hprod], by rw [hring, ← hcons], by rw [hring, ← hflight], ?_, fun k hk => ?_, ?_⟩
  · rw [← hled, State.ledGet, msiEvent_led, State.ledGet]
  · rw [msiEvent_ring_ne u hk, hother k hk]
  · rw [msiEvent_mem, hmem]

/-- Settles O36: `ringPublish_cases` says what may come between the count and the wake, and `Posted` holds either way. -/
theorem doorbells : Obligations.Doorbells := by
  unfold Obligations.Doorbells
  rintro s σ t n i rfl hn hi
  refine ⟨fun h => ⟨?_, ?_⟩, fun hd => ringProducerWrite_refused t hn hi (.inr (.inl hd)),
    fun hd => ringConsumerWrite_refused t hn hi (.inr (.inl hd)), fun hb hup hd => ⟨fun hp hc => ?_, fun h => ?_⟩,
    fun hb hup hd => ⟨fun hh => ?_, fun h => ringConsumerWrite_refused t hn hi (.inr (.inr h))⟩⟩
  · rcases h with hb | hup
    · exact execRingProducerWrite_closed t n i hb
    · exact ringProducerWrite_refused t hn hi (.inl hup)
  · rcases h with hb | hup
    · exact execRingConsumerWrite_closed t n i hb
    · exact ringConsumerWrite_refused t hn hi (.inl hup)
  · obtain ⟨irq, htaken⟩ := doorProducer_taken (s := s.at t) (n := n) (p := i) (by simpa) (by simpa) (by simpa) (by simpa)
    have hposted := posted_published (s.at t) n hi
    rw [exec_ringProducerWrite, execRingProducerWrite_open t hb hn hi, htaken]
    obtain h | h := ringPublish_cases (s.at t) n (diff32 i ((s.at t).ring n).prod) irq
    · exact ⟨_, by rw [h], by simpa [Posted] using hposted⟩
    · exact ⟨_, by rw [h], by simpa [Posted] using hposted.msiEvent⟩
  · exact ringProducerWrite_refused t hn hi (.inr (.inr h))
  · rw [exec_ringConsumerWrite, execRingConsumerWrite_open t hb hn hi,
      doorConsumer_taken hi (by simpa) (by simpa) (by simpa)]
    refine ⟨passedBy (s.at t) n i, rfl, ?_, fun k hk => ?_, ?_, ?_, ?_, ?_, ?_⟩
    · exact (ring_setRing_self ..).trans (by rw [ring_at])
    · exact (ring_setRing_ne (s.at t) _ hk).trans (ring_at s t k)
    · simp [passedBy, ledGet_ledAdd, Led.descConsumed, Led.descCompleted]
    · simp [passedBy, ledGet_ledAdd, Led.descConsumed, Led.descCompleted]
    · simp [passedBy, ledGet_ledAdd, Led.descConsumed, Led.descCompleted, Led.descInFlight]
    · simp [passedBy]
    · simp [passedBy]

end Sys2Proof

/-! ## The Catalog window and the locks (R40, R45, R200, R334, R414, R445) -/

namespace Sys2Proof

open Machine Laws

/-! ### A register bit set -/

/-- A write of 1 to a field of one bit or more sets it and nothing else. -/
theorem wr_one (s : State) {f : Fld} (i : Nat) (h : 0 < f.width) : (s.wr f i 1).on f i = true ∧ OnlyRegs s (s.wr f i 1) [f.key i] := by
  have hbit : low f.width 1 = 1 := low_of_lt (Nat.one_lt_two_pow h.ne')
  exact ⟨by simp [State.on, hbit], onlyRegs_wr ..⟩

/-! ### Writes through the window -/

theorem catWindow_ignored {s : State} {off : Nat} (v : Nat) (h : HdrE.hostRo.on (s.peekBytes (entryAddr s (off / 128)) 128) = true ∨
    (chRing 6 ≤ off / 128 ∧ off / 128 ≤ chRing 15) ∨ (s.mode = modeShadow ∧ mirroredChan (off / 128) = true) ∨ off % 4 ≠ 0 ∨
    catSize ≤ off) : catWindow s off v = s := by
  unfold catWindow catWindowBytes
  exact if_pos (by simpa [or_assoc] using h)

theorem catWindow_taken {s : State} {off : Nat} (v : Nat) (hro : HdrE.hostRo.on (s.peekBytes (entryAddr s (off / 128)) 128) = false)
    (hring : ¬(chRing 6 ≤ off / 128 ∧ off / 128 ≤ chRing 15)) (hm : s.mode ≠ modeShadow) (h4 : off % 4 = 0) (hoff : off < catSize) :
    catWindow s off v = s.pokeBytes (catBase s + off) (leBytes 4 v) := by
  have hring' : chRing 6 ≤ off / 128 → chRing 15 < off / 128 := by simpa using hring
  unfold catWindow catWindowBytes
  exact if_neg (by simpa [hro, hm, h4, hoff] using hring')

theorem wrote_at {s u : State} {t a : Nat} {bs : List Byte} : Wrote (s.at t) u a bs ↔ Wrote s u a bs := by
  simp only [Wrote, at_mem]

/-- Bytes that lie in the Stacks are written, outside FREEZE and SHADOW, and at most mirrored. -/
theorem pokeBytes_stacks {s : State} {a : Nat} {bs : List Byte} (h : a + bs.length ≤ stacksSize) (hf : s.frozen = false)
    (hm : s.mode ≠ modeShadow) : Wrote s (s.pokeBytes a bs) a bs ∧
      s.pokeBytes a bs = { s with mem := (s.pokeBytes a bs).mem, pair := (s.pokeBytes a bs).pair } := by
  have hlist := pokeList_stacks s a bs h hf hm
  have hmem : (s.pokeBytes a bs).mem = Mem.write s.mem a bs := by rw [pokeBytes_mem, hlist]
  refine ⟨⟨by rw [hmem, mem_read_write], fun x hx => by rw [hmem, mem_get_write_out _ _ _ hx]⟩, ?_⟩
  rw [hmem]
  conv_lhs => rw [pokeBytes_frame, hlist]

/-- Settles O34: the table lies in the Stacks (`pokeBytes_stacks`), and a lock is one bit set (`wr_one`). -/
theorem catalogWindowAndLocks : Obligations.CatalogWindowAndLocks := by
  unfold Obligations.CatalogWindowAndLocks
  rintro s σ t off v rfl
  simp only [exec_catalogWindowWrite, exec_tlimLock, exec_limLock, exec_cfgLock, execCatalogWindowWrite, execTlimLock, execLimLock,
    execCfgLock]
  refine ⟨fun hb => ?_, fun h => ?_, fun hb hro hring hm h4 hoff hbase hf => ?_, fun h => ?_, fun h => ⟨?_, ?_, ?_⟩⟩
  · simp [hb]
  · rw [catWindow_ignored v h, ite_self]
  · have hfit : catBase (s.at t) + off + (leBytes 4 v).length ≤ stacksSize := by
      have h4' : catSize % 4 = 0 := by decide
      rw [length_leBytes]; omega
    rw [if_pos hb, catWindow_taken v hro hring hm h4 hoff]
    obtain ⟨hwrote, hframe⟩ := pokeBytes_stacks hfit hf hm
    exact ⟨_, rfl, wrote_at.1 hwrote, hframe⟩
  · simp [h]
  · rw [if_pos h]
    exact ⟨_, rfl, wr_one _ 0 (by decide)⟩
  · rw [if_pos h]
    exact ⟨_, rfl, wr_one _ 0 (by decide)⟩
  · rw [if_pos h]
    exact ⟨_, rfl, wr_one _ 0 (by decide)⟩

end Sys2Proof

/-! ## Ledger snapshots and the holdoff of interrupts (R34, R37 to R39) -/

namespace Sys2Proof

open Machine Laws

/-! ### Two registers that hold one value -/

/-- A value that fits reads back whole from the two registers it was written to. -/
theorem rd2_wr2 (s : State) {lo hi : Fld} (i : Nat) {v : Nat} (hne : lo.addr * 32 + lo.lsb ≠ hi.addr * 32 + hi.lsb)
    (hv : v < 2 ^ (lo.width + hi.width)) : (s.wr2 lo hi i v).rd2 lo hi i = v := by
  have hhi : v / 2 ^ lo.width < 2 ^ hi.width := Nat.div_lt_of_lt_mul (Nat.pow_add .. ▸ hv)
  rw [State.rd2, State.wr2, rd_wr_self, rd_wr_field _ _ _ _ hne, rd_wr_self, low_of_lt hhi, low, Nat.mod_add_div]

theorem rd_wr2_field (s : State) {lo hi g : Fld} (i v j : Nat) (hlo : g.addr * 32 + g.lsb ≠ lo.addr * 32 + lo.lsb)
    (hhi : g.addr * 32 + g.lsb ≠ hi.addr * 32 + hi.lsb) : (s.wr2 lo hi i v).rd g j = s.rd g j := by
  rw [State.wr2, rd_wr_field _ _ _ _ hhi, rd_wr_field _ _ _ _ hlo]

/-! ### A snapshot asked for -/

theorem snapAsk_busy {s : State} (h : s.on Reg.LEDGER_SNAP.snap_busy = true) : snapAsk s = s := by
  simp [snapAsk, h]

theorem snapAsk_idle {s : State} (h : s.on Reg.LEDGER_SNAP.snap_busy = false) : snapAsk s =
    { s.wr Reg.LEDGER_SNAP.snap_busy 0 1 with
      led := { s.led with asked := some s.clk, taken := none, seqStarted := s.led.seqStarted + 1 } } := by
  simp [snapAsk, h]

/-! ### A snapshot complete -/

/-- The window shows counters `c` as the snapshot taken at `line`, at a line boundary or not. -/
def snapShown (s : State) (c : Tbl Nat) (line : Nat) (free : Bool) : State :=
  ((({ s with led := { s.led with snap := c, asked := none, taken := none, seqDone := s.led.seqStarted } } : State).wr
    Reg.LEDGER_SNAP.snap_busy 0 0).wrb Reg.LEDGER_SNAP.snap_free 0 free).wr2
    Reg.LEDGER_SNAP_LINE_LO.snap_line_lo Reg.LEDGER_SNAP_LINE_HI.snap_line_hi 0 line

theorem snapDone_taken {s : State} {c : Tbl Nat} {line : Nat} {free : Bool} (h : s.led.taken = some (c, line, free)) :
    snapDone s = ledCheck (snapShown s c line free) c line := by
  simp only [snapDone, h]
  rfl

theorem snapDone_none {s : State} (h : s.led.taken = none) : snapDone s = s := by
  simp only [snapDone, h]

/-- Within its 10 µs a snapshot that no line boundary has met stays asked for. -/
theorem execLedgerSnapComplete_early {s : State} {t a : Nat} (ht : (s.at t).led.taken = none) (ha : (s.at t).led.asked = some a)
    (hc : (s.at t).clk < a + 10 * usU) : execLedgerSnapComplete t s = .next (s.at t) := by
  have hwait : decide (a + 10 * usU ≤ (s.at t).clk) = false := decide_eq_false (Nat.not_le.2 hc)
  simp only [execLedgerSnapComplete, ha, hwait, Bool.and_false]
  exact congrArg _ (snapDone_none ht)

/-- Counters taken at a line boundary or as the 10 µs end (R38): either way the window shows them, and they are checked. -/
theorem execLedgerSnapComplete_due {s : State} {t line : Nat} {c : Tbl Nat} {free : Bool}
    (h : (s.at t).led.taken = some (c, line, free) ∨ ((s.at t).led.taken = none ∧
      (∃ a, (s.at t).led.asked = some a ∧ a + 10 * usU ≤ (s.at t).clk) ∧ c = (s.at t).ledView ∧ line = (s.at t).snapLine ∧ free = true)) :
    execLedgerSnapComplete t s = .next (ledCheck (snapShown (s.at t) c line free) c line) := by
  rcases h with ht | ⟨ht, ⟨a, ha, hc⟩, rfl, rfl, rfl⟩
  · rw [← snapDone_taken ht, execLedgerSnapComplete]
    split
    · simp [ht]
    · rfl
  · have hdue : decide (a + 10 * usU ≤ (s.at t).clk) = true := decide_eq_true hc
    simp only [execLedgerSnapComplete, ha, ht, hdue, Option.isNone_none, Bool.and_self, if_true]
    rw [snapDone_taken (s := (s.at t).snapTake true) rfl]
    rfl

theorem snapShown_busy (s : State) (c : Tbl Nat) (line : Nat) (free : Bool) :
    (snapShown s c line free).on Reg.LEDGER_SNAP.snap_busy = false := by
  rw [snapShown, State.on, rd_wr2_field _ _ _ _ (by decide) (by decide), State.wrb, rd_wr_field _ _ _ _ (by decide), rd_wr_self]
  rfl

theorem snapShown_free (s : State) (c : Tbl Nat) (line : Nat) (free : Bool) :
    (snapShown s c line free).on Reg.LEDGER_SNAP.snap_free = free := by
  rw [snapShown, State.on, rd_wr2_field _ _ _ _ (by decide) (by decide), State.wrb, rd_wr_self]
  cases free <;> rfl

theorem snapShown_mismatch (s : State) (c : Tbl Nat) (line : Nat) (free : Bool) :
    (snapShown s c line free).on Reg.LEDGER_SNAP.ledger_mismatch = s.on Reg.LEDGER_SNAP.ledger_mismatch := by
  rw [snapShown, State.on, rd_wr2_field _ _ _ _ (by decide) (by decide), State.wrb, rd_wr_field _ _ _ _ (by decide),
    rd_wr_field _ _ _ _ (by decide)]
  rfl

theorem snapShown_line (s : State) (c : Tbl Nat) {line : Nat} (free : Bool) (h : line < 2 ^ 48) :
    (snapShown s c line free).rd2 Reg.LEDGER_SNAP_LINE_LO.snap_line_lo Reg.LEDGER_SNAP_LINE_HI.snap_line_hi = line :=
  rd2_wr2 _ 0 (by decide) h

theorem ledCheck_cons {c : Tbl Nat} {q ch : Nat} {rest : List (Nat × Nat)} (s : State) (line : Nat) (h : ledBroken c = (q, ch) :: rest) :
    ledCheck s c line = rest.foldl (fun x b => (x.wr Reg.LEDGER_SNAP.ledger_mismatch 0 1).event 0x0003 b.2 line b.1 0)
      ((s.wr Reg.LEDGER_SNAP.ledger_mismatch 0 1).event 0x0003 ch line q 0) := by
  rw [ledCheck, h, List.foldl_cons]

/-! ### The end of a holdoff -/

theorem holdoffEnd_none {s : State} {n : Nat} (h : (s.ring n).held = false ∨ holdoffPassed s n (s.ring n) = false) :
    holdoffEnd s n = s := by
  unfold holdoffEnd
  exact if_pos (by simpa using h)

theorem holdoffEnd_due {s : State} {n : Nat} (hh : (s.ring n).held = true) (hp : holdoffPassed s n (s.ring n) = true)
    (he : s.entOn (chRing n) RingE.irqEn = true) : holdoffEnd s n =
      if s.on Reg.MSIX.mask n then (s.setRing n { s.ring n with held := false }).wr Reg.MSIX_PBA.pend n 1 else msiSend s n := by
  simp [holdoffEnd, hh, hp, he]

/-- Settles O35: a snapshot due is shown (`execLedgerSnapComplete_due`), then checked (`ledCheck_cons`); a holdoff that ends owes one message. -/
theorem ledgerSnapshots : Obligations.LedgerSnapshots := by
  unfold Obligations.LedgerSnapshots
  rintro s σ t n line c free rfl
  have hlive : (s.at t).led.live = s.led.live := by rw [at_led]
  have hseq : (s.at t).led.seqStarted = s.led.seqStarted := by rw [at_led]
  simp only [exec_ledgerSnapWrite, exec_ledgerSnapComplete, exec_irqHoldoffExpiry]
  refine ⟨fun h => ?_, fun hb hidle => ?_, fun a ht ha hc => execLedgerSnapComplete_early ht ha hc,
    fun h hline => ⟨fun hok => ?_, fun q ch rest hbroken => ?_⟩, fun h => ?_, fun hh hp he => ⟨fun hm => ?_, fun hm => ?_⟩⟩
  · rcases h with hb | hbusy
    · simp [execLedgerSnapWrite, hb]
    · simp [execLedgerSnapWrite, snapAsk_busy hbusy]
  · rw [execLedgerSnapWrite, if_pos hb, snapAsk_idle hidle]
    refine ⟨_, rfl, (wr_one _ 0 (by decide)).1, by rw [hseq], rfl, (onlyRegs_wr ..).2⟩
  · rw [execLedgerSnapComplete_due h, ledCheck, hok, List.foldl_nil]
    refine ⟨_, rfl, rfl, hlive, rfl, hseq, snapShown_busy .., snapShown_free .., snapShown_line _ _ _ hline, ?_, at_mem s t, at_out s t⟩
    rw [snapShown_mismatch, on_at]
  · rw [execLedgerSnapComplete_due h, ledCheck_cons _ _ hbroken]
    have hset := wr_one (snapShown (s.at t) c line free) (f := Reg.LEDGER_SNAP.ledger_mismatch) 0 (by decide)
    refine ⟨_, rfl, rfl, hseq, ?_, ?_, ?_, hset.1, at_mem s t, at_out s t⟩
    · rw [State.on, rd_wr_field _ _ _ _ (by decide)]
      exact snapShown_busy ..
    · rw [State.on, rd_wr_field _ _ _ _ (by decide)]
      exact snapShown_free ..
    · rw [State.rd2, rd_wr_field _ _ _ _ (by decide), rd_wr_field _ _ _ _ (by decide)]
      exact snapShown_line _ _ _ hline
  · exact congrArg _ (holdoffEnd_none (by simpa using h))
  · rw [execIrqHoldoffExpiry, holdoffEnd_due (by simpa) (by simpa) (by simpa), on_at, hm]
    refine ⟨_, rfl, congrArg _ (at_out s t), (ring_setRing_self ..).trans (by rw [ring_at]), rfl⟩
  · rw [execIrqHoldoffExpiry, holdoffEnd_due (by simpa) (by simpa) (by simpa), on_at, hm]
    refine ⟨_, rfl, (wr_one _ n (by decide)).1, (ring_setRing_self ..).trans (by rw [ring_at]), at_out s t, onlyRegs_wr ..⟩

end Sys2Proof

/-! ## Register reads (Table 0-3; R41, R312, R332) -/

namespace Sys2Proof

open Machine Laws

/-! ### Fields cleared -/

theorem rd_wr (s : State) (f g : Fld) (i j v : Nat) : (s.wr g j v).rd f i = if f.key i = g.key j then low g.width v else s.rd f i :=
  tbl_get_put ..

/-- Fields cleared one after another. -/
def cleared (s : State) (ps : List FieldAt) : State := ps.foldl (fun s p => s.wr p.1 p.2.1 0) s

theorem cleared_onlyRegs (s : State) (ps : List FieldAt) : OnlyRegs s (cleared s ps) (ps.map fieldKey) := by
  induction ps generalizing s with
  | nil => exact OnlyRegs.refl s
  | cons p ps ih => exact (onlyRegs_wr s p.1 p.2.1 0).trans (ih _)

theorem rd_cleared (s : State) (ps : List FieldAt) (f : Fld) (i : Nat) :
    (cleared s ps).rd f i = if f.key i ∈ ps.map fieldKey then 0 else s.rd f i := by
  induction ps generalizing s with
  | nil => simp [cleared]
  | cons p ps ih =>
    have hstep : cleared s (p :: ps) = cleared (s.wr p.1 p.2.1 0) ps := rfl
    have hzero : low p.1.width 0 = 0 := Nat.zero_mod _
    simp only [hstep, ih, rd_wr, hzero, List.map_cons, List.mem_cons]
    by_cases hmem : f.key i ∈ ps.map fieldKey
    · rw [if_pos hmem, if_pos (.inr hmem)]
    · simp only [hmem, if_false, or_false]
      rfl

/-- A read clears the RC fields within its bytes, and no others (R41). -/
theorem busClear_eq (s : State) (r o n : Nat) : ∃ ps : List FieldAt, busClear s r o n = cleared s ps ∧ ps.map fieldKey = rcWithin s r o n :=
  ⟨_, (List.foldl_filter ..).symm, rfl⟩

/-! ### What a read of a register answers -/

/-- The latch of a read is the reader's alone (R312, R332). -/
theorem busLatch_frame (s : State) (src r : Nat) : ∃ tu, busLatch s src r = { s with tu := tu } := by
  unfold busLatch
  repeat' split
  all_goals exact ⟨_, rfl⟩

theorem busReadWord_ignored {s : State} {src a n : Nat} (h : reaches s src a = false ∨ a % n ≠ 0) : busReadWord s src a n = (s, 0) := by
  unfold busReadWord
  exact if_pos (by simpa using h)

theorem busReadWord_answered {s : State} {src a n : Nat} (hr : reaches s src a = true) (ha : a % n = 0) : busReadWord s src a n =
    (busClear (busLatch s src (busAlias (a / 4 * 4))) (busAlias (a / 4 * 4)) (a % 4) n,
      low (8 * n) (busWord (busLatch s src (busAlias (a / 4 * 4))) src (busAlias (a / 4 * 4)) / 2 ^ (8 * (a % 4)))) := by
  unfold busReadWord
  exact if_neg (by simp [hr, ha])

theorem busRead_within (s : State) (src a : Nat) {n : Nat} (h : n = 1 ∨ n = 2 ∨ n = 4) : busRead s src a n = busReadWord s src a n :=
  if_pos h

theorem execRcRegisterRead_within (t src a : Nat) (s : State) {n : Nat} (h : n = 1 ∨ n = 2 ∨ n = 4) : execRcRegisterRead t src a n s =
    .next ((busReadWord (s.at t) src a n).1.emit (.readData src (busReadWord (s.at t) src a n).2)) := by
  rw [execRcRegisterRead, busRead_within _ _ _ h]

/-- Settles O31: the fields cleared are those of `rcWithin` (`busClear_eq`), and the latch is the reader's (`busLatch_frame`). -/
theorem registerReads : Obligations.RegisterReads := by
  unfold Obligations.RegisterReads
  rintro s σ t src a rfl
  simp only [exec_rcRegisterRead]
  refine ⟨?_, fun n hn h => ?_, ?_⟩
  · rintro n l r hn ha hr rfl rfl
    rw [execRcRegisterRead_within _ _ _ _ hn, busReadWord_answered hr ha]
    obtain ⟨ps, hclear, hkeys⟩ := busClear_eq (busLatch (s.at t) src (busAlias (a / 4 * 4))) (busAlias (a / 4 * 4)) (a % 4) n
    obtain ⟨tu, hlatch⟩ := busLatch_frame (s.at t) src (busAlias (a / 4 * 4))
    obtain ⟨regs, honly⟩ : ∃ regs, cleared { s.at t with tu := tu } ps = { s.at t with tu := tu, regs := regs } :=
      ⟨_, (cleared_onlyRegs _ ps).1⟩
    rw [hclear, ← hkeys, hlatch]
    refine ⟨_, rfl, ?_, fun f i => rd_cleared _ ps f i, ?_⟩
    · rw [honly]; rfl
    · rw [honly]; rfl
  · rw [execRcRegisterRead_within _ _ _ _ hn, busReadWord_ignored h]
  · rintro lo hi rfl rfl
    rfl

end Sys2Proof

/-! ## The Catalog: invalidations, fetches and the lock (R22 to R28) -/

namespace Sys2Proof

open Machine Laws

theorem tbl_find_del_self {α : Type} (t : Tbl α) (k : Nat) : Tbl.find (Tbl.del t k) k = none := by
  induction t with
  | nil => rfl
  | cons c t ih =>
    obtain ⟨a, w⟩ := c
    unfold Tbl.del
    split
    · exact ih
    · simp [Tbl.find, *]

theorem tbl_put_ne_nil {α : Type} (t : Tbl α) (k : Nat) (v : α) : Tbl.put t k v ≠ [] := by
  cases t with
  | nil => exact List.cons_ne_nil _ _
  | cons c t =>
    unfold Tbl.put
    repeat' split
    all_goals exact List.cons_ne_nil _ _

/-! ### Channels -/

theorem catChannels_ascend : catChannels.IsChain (· < ·) := by decide +kernel

theorem catChannels_nodup : catChannels.Nodup := (List.isChain_iff_pairwise.1 catChannels_ascend).imp Nat.ne_of_lt

/-- Every channel that carries entries is listed. -/
theorem mem_catChannels {ch : Nat} (h : (classOf ch).isSome = true) : ch ∈ catChannels := by
  rw [classOf, Option.isSome_map, List.find?_isSome] at h
  obtain ⟨r, hr, hin⟩ := h
  simp only [Bool.and_eq_true, decide_eq_true_eq] at hin
  exact List.mem_flatten.2 ⟨_, List.mem_map_of_mem hr, List.mem_map.2 ⟨ch - r.1, List.mem_range.2 (by omega), by omega⟩⟩

/-! ### What the Catalog registers show -/

theorem catShow_onlyRegs (s : State) : OnlyRegs s (catShow s) [Reg.CAT_STATUS.inv_busy.key 0, Reg.CAT_STATUS.cached.key 0] :=
  (onlyRegs_wr s _ 0 _).trans (onlyRegs_wr _ _ 0 _)

@[simp] theorem catShow_cat (s : State) : (catShow s).cat = s.cat := rfl

@[simp] theorem catShow_mem (s : State) : (catShow s).mem = s.mem := rfl

theorem catShow_busy {s : State} (h : s.cat.fetches ≠ []) : (catShow s).on Reg.CAT_STATUS.inv_busy = true := by
  have hbusy : (s.cat.fetches != []) = true := bne_iff_ne.2 h
  rw [catShow, State.on, rd_wr_field _ _ _ _ (by decide), State.wrb, rd_wr_self, hbusy]
  rfl

/-! ### Invalidations (R26) -/

theorem catInvalidate_ignored {s : State} {ch : Nat} (h : classOf ch = none ∨ catFixed ch = true) : catInvalidate s ch = s := by
  unfold catInvalidate
  exact if_pos (by simpa using h)

theorem catInvalidate_taken {s : State} {ch : Nat} (hc : classOf ch ≠ none) (hf : catFixed ch = false) : catInvalidate s ch =
    catShow { s with cat := { s.cat with fetches := s.cat.fetches.put ch (min 2 (Tbl.get 0 s.cat.fetches ch + 1)) } } := by
  unfold catInvalidate
  exact if_neg (by simpa [hf] using hc)

/-- CAT_INVALIDATE with `all` takes up the channel: unpinned, not reserved, and cached. -/
def catRenews (s : State) (c : Nat) : Bool :=
  (classOf c).any (fun k => !clsPinned k.1) && !catFixed c && ((Tbl.find s.cat.inEffect c).isSome || (Tbl.find s.cat.loaded c).isSome)

theorem class_of_catRenews {s : State} {c : Nat} (h : catRenews s c = true) : (classOf c).isSome = true ∧ catFixed c = false := by
  simp only [catRenews, Bool.and_eq_true, Bool.not_eq_true'] at h
  obtain ⟨⟨hclass, hfixed⟩, -⟩ := h
  obtain ⟨k, hk, -⟩ := (Option.any_eq_true ..).1 hclass
  exact ⟨by rw [hk]; rfl, hfixed⟩

/-- What it does for one channel. -/
def catRenew (s : State) (c : Nat) : State := if catRenews s c then catInvalidate s c else s

theorem catInvalidateAll_eq (s : State) : catInvalidateAll s = catChannels.foldl catRenew s := by
  unfold catInvalidateAll
  refine List.foldl_ext _ _ _ (fun s c _ => ?_)
  cases hc : classOf c with
  | none => simp [catRenew, catRenews, hc]
  | some k =>
    cases hf : catFixed c with
    | true => simp [catRenew, catRenews, hc, hf, catInvalidate_ignored]
    | false => simp [catRenew, catRenews, hc, hf]

theorem catRenew_of_renews {s : State} {c : Nat} (h : catRenews s c = true) : catRenew s c =
    catShow { s with cat := { s.cat with fetches := s.cat.fetches.put c (min 2 (Tbl.get 0 s.cat.fetches c + 1)) } } := by
  obtain ⟨hclass, hfixed⟩ := class_of_catRenews h
  rw [catRenew, if_pos h, catInvalidate_taken (Option.isSome_iff_ne_none.1 hclass) hfixed]

theorem catRenew_of_not {s : State} {c : Nat} (h : catRenews s c = false) : catRenew s c = s := by
  simp [catRenew, h]

theorem catRenew_frame (s : State) (c : Nat) :
    (catRenew s c).cat.inEffect = s.cat.inEffect ∧ (catRenew s c).cat.loaded = s.cat.loaded ∧ (catRenew s c).mem = s.mem := by
  cases h : catRenews s c with
  | true => rw [catRenew_of_renews h]; exact ⟨rfl, rfl, rfl⟩
  | false => rw [catRenew_of_not h]; exact ⟨rfl, rfl, rfl⟩

theorem catRenew_fetches (s : State) (c d : Nat) : Tbl.get 0 (catRenew s c).cat.fetches d =
    if d = c ∧ catRenews s c = true then min 2 (Tbl.get 0 s.cat.fetches d + 1) else Tbl.get 0 s.cat.fetches d := by
  cases h : catRenews s c with
  | true =>
    rw [catRenew_of_renews h]
    by_cases hd : d = c
    · subst hd; simp
    · simp [hd, tbl_get_put_ne]
  | false => simp [catRenew_of_not h]

/-- Over channels without repetition each is taken up once, as the state before has it. -/
theorem foldl_catRenew {cs : List Nat} (hn : cs.Nodup) (s : State) :
    (∀ d, Tbl.get 0 (cs.foldl catRenew s).cat.fetches d =
      if d ∈ cs ∧ catRenews s d = true then min 2 (Tbl.get 0 s.cat.fetches d + 1) else Tbl.get 0 s.cat.fetches d) ∧
    (cs.foldl catRenew s).cat.inEffect = s.cat.inEffect ∧ (cs.foldl catRenew s).cat.loaded = s.cat.loaded ∧
    (cs.foldl catRenew s).mem = s.mem := by
  induction cs generalizing s with
  | nil => simp
  | cons c cs ih =>
    obtain ⟨hc, hcs⟩ := List.nodup_cons.1 hn
    obtain ⟨heff, hload, hmem⟩ := catRenew_frame s c
    obtain ⟨ihf, ihe, ihl, ihm⟩ := ih hcs (catRenew s c)
    have hsame : ∀ d, catRenews (catRenew s c) d = catRenews s d := fun d => by simp only [catRenews, heff, hload]
    refine ⟨fun d => ?_, ihe.trans heff, ihl.trans hload, ihm.trans hmem⟩
    rw [List.foldl_cons, ihf, hsame, catRenew_fetches]
    by_cases hd : d = c
    · subst hd; simp [hc]
    · simp [hd]

theorem catInvalidateAll_fetches (s : State) (d : Nat) : Tbl.get 0 (catInvalidateAll s).cat.fetches d =
    if catRenews s d then min 2 (Tbl.get 0 s.cat.fetches d + 1) else Tbl.get 0 s.cat.fetches d := by
  rw [catInvalidateAll_eq, (foldl_catRenew catChannels_nodup s).1]
  cases h : catRenews s d with
  | false => simp
  | true =>
    have hlisted : d ∈ catChannels := mem_catChannels (class_of_catRenews h).1
    simp [hlisted]

/-! ### Fetches (R24, R27) -/

/-- The entry as it stands in the table. -/
def tableEntry (s : State) (ch : Nat) : List Byte := s.peekBytes (entryAddr s ch) 128

/-- A fetch of the channel ends, where `n` were asked for. -/
def fetchEnded (s : State) (ch n : Nat) : State :=
  { s with cat := { s.cat with fetches := if n ≤ 1 then Tbl.del s.cat.fetches ch else s.cat.fetches.put ch (n - 1) } }

theorem fetchEnded_fetches (s : State) (ch n : Nat) :
    (n ≤ 1 → Tbl.get 0 (fetchEnded s ch n).cat.fetches ch = 0) ∧ (1 < n → Tbl.get 0 (fetchEnded s ch n).cat.fetches ch = n - 1) := by
  refine ⟨fun h => ?_, fun h => ?_⟩
  · rw [fetchEnded, if_pos h]; exact tbl_get_del_self ..
  · rw [fetchEnded, if_neg (Nat.not_le.2 h)]; exact tbl_get_put_self ..

theorem catFetched_none {s : State} {ch : Nat} (h : Tbl.find s.cat.fetches ch = none) : catFetched s ch = s := by
  simp only [catFetched, h]

theorem catFetched_some {s : State} {ch n : Nat} (h : Tbl.find s.cat.fetches ch = some n) :
    catFetched s ch = catShow (catFetch (fetchEnded s ch n) ch) := by
  simp only [catFetched, h, fetchEnded]

/-- A fetch that ends changes no byte, so that the entry is the one which stood in the table. -/
theorem catFetch_fetchEnded (s : State) (ch n : Nat) : catFetch (fetchEnded s ch n) ch =
    if entryOk (fetchEnded s ch n) ch (tableEntry s ch) then catLoad (fetchEnded s ch n) ch (tableEntry s ch) none
    else fetchEnded s ch n := by
  have hpeek : (fetchEnded s ch n).peek = s.peek := rfl
  have haddr : entryAddr (fetchEnded s ch n) ch = entryAddr s ch := rfl
  rw [catFetch, haddr, peekBytes_of_peek hpeek, tableEntry]

/-! ### Entries loaded -/

theorem twin_frame (s : State) (r : TwinRec) : ∃ p, s.twin r = { s with pair := p } := by
  unfold State.twin
  split
  all_goals exact ⟨_, rfl⟩

/-- An entry waits for its unit's boundary; the partner may have been sent it (R414). -/
def entryLoaded (s : State) (ch : Nat) (e : List Byte) : State :=
  let u := { s with cat := { s.cat with loaded := s.cat.loaded.put ch (asCached ch e), since := Tbl.del s.cat.since ch } }
  if mirroredChan ch then u.twin (.entry (asCached ch e) (catCount u ch + (if catWaits u ch then 1 else 0))) else u

theorem entryLoaded_frame (s : State) (ch : Nat) (e : List Byte) : ∃ p, entryLoaded s ch e =
    { s with cat := { s.cat with loaded := s.cat.loaded.put ch (asCached ch e), since := Tbl.del s.cat.since ch }, pair := p } := by
  unfold entryLoaded
  dsimp only
  split
  · exact twin_frame ..
  · exact ⟨_, rfl⟩

theorem catLoad_eq (s : State) (ch : Nat) (e : List Byte) : catLoad s ch e none =
    if catWaits (entryLoaded s ch e) ch then entryLoaded s ch e else catApply (entryLoaded s ch e) ch := rfl

/-- What waits in the Catalog for a boundary does not tell whether the unit stands within an interval. -/
theorem catWaits_entryLoaded (s : State) (ch : Nat) (e : List Byte) : catWaits (entryLoaded s ch e) ch = catWaits s ch := by
  obtain ⟨p, h⟩ := entryLoaded_frame s ch e
  rw [h]
  rfl

theorem catWaits_at (s : State) (t ch : Nat) : catWaits (s.at t) ch = catWaits s ch := by
  simp [catWaits, State.pipe, State.eng, State.bind]

/-- The entry takes effect in place of the one before. -/
theorem catMove_entryLoaded (s : State) (ch : Nat) (e : List Byte) : ∃ p, (entryLoaded s ch e).catMove ch =
    { s with cat := { s.cat with
        inEffect := s.cat.inEffect.put ch (asCached ch e)
        loaded := Tbl.del (s.cat.loaded.put ch (asCached ch e)) ch
        since := Tbl.del (Tbl.del s.cat.since ch) ch }, pair := p } := by
  obtain ⟨p, h⟩ := entryLoaded_frame s ch e
  refine ⟨p, ?_⟩
  simp only [h, State.catMove, tbl_find_put, if_true]

/-- No line, frame or period stands against an entry just loaded: at its boundary it takes effect. -/
theorem catApply_entryLoaded (s : State) (ch : Nat) (e : List Byte) : catApply (entryLoaded s ch e) ch =
    entryTaken ((entryLoaded s ch e).catMove ch) ch (s.entry ch) := by
  obtain ⟨p, h⟩ := entryLoaded_frame s ch e
  have hfind : Tbl.find (entryLoaded s ch e).cat.loaded ch = some (asCached ch e) := by rw [h]; simp [tbl_find_put]
  have hsince : Tbl.get 0 (entryLoaded s ch e).cat.since ch = 0 := by rw [h]; exact tbl_get_del_self ..
  have hentry : (entryLoaded s ch e).entry ch = s.entry ch := by rw [h]; rfl
  simp only [catApply, hfind, hsince, hentry, Nat.zero_le, decide_true, Bool.true_or, if_true]

/-! ### How a fetch ends -/

/-- An entry that fails a check is dropped without trace. -/
theorem catFetched_dropped {s : State} {ch n : Nat} (hn : Tbl.find s.cat.fetches ch = some n)
    (hbad : entryOk (fetchEnded s ch n) ch (tableEntry s ch) = false) : catFetched s ch = catShow (fetchEnded s ch n) := by
  rw [catFetched_some hn, catFetch_fetchEnded, if_neg (Bool.eq_false_iff.1 hbad)]

/-- One that passes waits while its unit stands within an interval. -/
theorem catFetched_waits {s : State} {ch n : Nat} (hn : Tbl.find s.cat.fetches ch = some n)
    (hok : entryOk (fetchEnded s ch n) ch (tableEntry s ch) = true) (hw : catWaits s ch = true) :
    catFetched s ch = catShow (entryLoaded (fetchEnded s ch n) ch (tableEntry s ch)) := by
  have hwaits : catWaits (entryLoaded (fetchEnded s ch n) ch (tableEntry s ch)) ch = true := (catWaits_entryLoaded ..).trans hw
  rw [catFetched_some hn, catFetch_fetchEnded, if_pos hok, catLoad_eq]
  exact congrArg catShow (if_pos hwaits)

/-- Otherwise it takes effect at once. -/
theorem catFetched_applies {s : State} {ch n : Nat} (hn : Tbl.find s.cat.fetches ch = some n)
    (hok : entryOk (fetchEnded s ch n) ch (tableEntry s ch) = true) (hw : catWaits s ch = false) : catFetched s ch =
      catShow (entryTaken ((entryLoaded (fetchEnded s ch n) ch (tableEntry s ch)).catMove ch) ch (s.entry ch)) := by
  have hwaits : catWaits (entryLoaded (fetchEnded s ch n) ch (tableEntry s ch)) ch = false := (catWaits_entryLoaded ..).trans hw
  rw [catFetched_some hn, catFetch_fetchEnded, if_pos hok, catLoad_eq]
  exact congrArg catShow ((if_neg (Bool.eq_false_iff.1 hwaits)).trans (catApply_entryLoaded ..))

/-- Settles O33: each invalidation counts once (`catInvalidate_taken`, `catInvalidateAll_fetches`); a fetched entry is dropped, waits as
`entryLoaded` has it, or takes effect (`catApply_entryLoaded`). -/
theorem catalogFetches : Obligations.CatalogFetches := by
  unfold Obligations.CatalogFetches
  rintro s σ t ch rfl hch
  have hlow : low 12 ch = ch := low_of_lt hch
  simp only [exec_catInvalidate, exec_catInvalidateAll, exec_catLock, exec_catalogFetchComplete, execCatInvalidate, execCatInvalidateAll,
    execCatLock, execCatalogFetchComplete, hlow]
  refine ⟨fun hb => ?_, fun hb => ?_, fun hb h => ?_, fun hb hc hf => ?_, fun hb => ?_, fun h => ?_, ?_⟩
  · simp [hb]
  · rw [if_pos hb]
    exact ⟨_, rfl, wr_one _ 0 (by decide)⟩
  · rw [if_pos hb, catInvalidate_ignored h]
  · rw [if_pos hb, catInvalidate_taken hc hf]
    refine ⟨_, rfl, fun c => ?_, catShow_busy (tbl_put_ne_nil _ _ _), ?_, ?_, ?_, catShow_onlyRegs _⟩
    · simp [tbl_get_put]
    · simp
    · simp
    · simp
  · rw [if_pos hb]
    obtain ⟨-, heff, hload, hmem⟩ := foldl_catRenew catChannels_nodup (s.at t)
    rw [← catInvalidateAll_eq] at heff hload hmem
    refine ⟨_, rfl, fun c => ?_, by rw [heff, at_cat], by rw [hload, at_cat], by rw [hmem, at_mem]⟩
    simpa [catRenews] using catInvalidateAll_fetches (s.at t) c
  · rw [catFetched_none (by simpa using h)]
  · rintro n e x hn rfl hx
    have hended : x = fetchEnded (s.at t) ch n := by rw [hx, fetchEnded, at_cat]
    subst hended
    have hn' : Tbl.find (s.at t).cat.fetches ch = some n := by rw [at_cat, hn]
    obtain ⟨hlast, hmore⟩ := fetchEnded_fetches (s.at t) ch n
    refine ⟨fun hbad => ?_, fun hok => ⟨fun hw => ?_, fun hw => ?_⟩⟩
    · rw [catFetched_dropped hn' hbad]
      exact ⟨_, rfl, hlast, hmore, by simp [fetchEnded], by simp [fetchEnded], catShow_onlyRegs _⟩
    · obtain ⟨p, hloaded⟩ := entryLoaded_frame (fetchEnded (s.at t) ch n) ch (tableEntry (s.at t) ch)
      rw [catFetched_waits hn' hok ((catWaits_at ..).trans hw), hloaded]
      exact ⟨_, rfl, by simp [tbl_find_put, tableEntry], by simp [fetchEnded], at_mem s t, hlast, hmore⟩
    · obtain ⟨p, hmoved⟩ := catMove_entryLoaded (fetchEnded (s.at t) ch n) ch (tableEntry (s.at t) ch)
      rw [catFetched_applies hn' hok ((catWaits_at ..).trans hw), hmoved, entry_at]
      exact ⟨_, rfl, by simp [tbl_find_put, tableEntry], fun c hc => by simp [tbl_find_put, hc, fetchEnded], tbl_find_del_self ..,
        at_mem s t, at_regs s t⟩

end Sys2Proof

/-! ## Power states (R52 to R55) -/

namespace Sys2Proof

open Machine Laws

/-- What no step of a fold changes, the fold does not change. -/
theorem foldl_unchanged {α β γ : Type} (p : α → γ) {f : α → β → α} (h : ∀ a b, p (f a b) = p a) (l : List β) (a : α) :
    p (l.foldl f a) = p a := by
  induction l generalizing a with
  | nil => rfl
  | cons b l ih => rw [List.foldl_cons, ih, h]

@[simp] theorem mode_at (s : State) (t : Nat) : (s.at t).mode = s.mode := rd_at s t _ _

/-! ### Slices and dispatch leave the modes alone -/

@[simp] theorem cyclesTurn_md (s : State) : (cyclesTurn s).md = s.md := by
  unfold cyclesTurn
  exact foldl_unchanged State.md (fun s p => setEng_md s p _) _ s

@[simp] theorem startRun_md (s : State) (p i : Nat) (x : Slice) : (startRun s p i x).md = s.md := by
  unfold startRun
  dsimp only
  split <;> rfl

@[simp] theorem catMove_md (s : State) (ch : Nat) : (s.catMove ch).md = s.md := by
  unfold State.catMove
  split <;> rfl

@[simp] theorem dispatch_md (s : State) (p : Nat) : (dispatch s p).md = s.md := by
  unfold dispatch
  split
  · rfl
  · dsimp only
    split
    · rw [startRun_md, refreshUrgency, setEng_md, catMove_md]
    · rw [refreshUrgency, setEng_md, catMove_md]

@[simp] theorem scribeGoes_md (s : State) (p : Nat) : (scribeGoes s p).md = s.md := by
  rw [scribeGoes, dispatch_md]
  refine foldl_unchanged State.md (fun s i => ?_) _ _
  dsimp only
  split <;> rfl

@[simp] theorem scribesWake_md (s : State) : (scribesWake s).md = s.md := by
  refine foldl_unchanged State.md (fun s p => ?_) _ _
  split
  · exact scribeGoes_md s p
  · exact dispatch_md s p

theorem OnlyRegs.withMd {s u : State} {fs : List Nat} (h : OnlyRegs s u fs) (m : Modes) :
    OnlyRegs { s with md := m } { u with md := m } fs :=
  ⟨by rw [h.1], h.2⟩

/-! ### A state asked for -/

theorem powerWrite_ignored {s : State} {n : Nat} (h : s.mode ≠ modeIdle ∨ s.on Reg.MODE_CUR.power_busy = true ∨ 3 ≤ n) :
    powerWrite s n = s :=
  if_pos (by simp only [Bool.or_eq_true, decide_eq_true_eq]; tauto)

theorem powerWrite_taken {s : State} {n : Nat} (hm : s.mode = modeIdle) (hb : s.on Reg.MODE_CUR.power_busy = false) (hn : n < 3) :
    powerWrite s n = if s.rd Reg.MODE_CUR.power = n then s.wr Reg.POWER_CTRL.power_req 0 n
      else powerStart (s.wr Reg.POWER_CTRL.power_req 0 n) n := by
  have hopen : hostOpen s = true := by simp [hostOpen, hm, modeIdle, modeCold, modeReload]
  have hpower : (s.wr Reg.POWER_CTRL.power_req 0 n).rd Reg.MODE_CUR.power = s.rd Reg.MODE_CUR.power := rd_wr_field _ _ _ _ (by decide)
  unfold powerWrite
  rw [if_neg (by simp [hopen, hm, hb, hn])]
  simp only [hpower]

theorem powerStart_back (s : State) : powerStart s 0 = { s with md := { s.md with powerTo := 0 } }.wr Reg.MODE_CUR.power_busy 0 1 := rfl

theorem powerStart_down {s : State} {n : Nat} (h : n ≠ 0) : powerStart s n =
    ((List.range 4).foldl emuStop (groupsSleep (movesStop { s with md := { s.md with powerTo := n } }))).wr Reg.MODE_CUR.power_busy 0 1 := by
  simp only [powerStart, ne_eq, h, not_false_eq_true, if_true]

/-- The state asked for stands in POWER_CTRL, and nothing else changes. -/
theorem powerReq_stands (s : State) {n : Nat} (hn : n < 3) : (s.wr Reg.POWER_CTRL.power_req 0 n).rd Reg.POWER_CTRL.power_req = n :=
  (rd_wr_self ..).trans (low_of_lt (Nat.lt_trans hn (by decide)))

/-! ### A state reached -/

theorem powerReached_ignored {s : State} (h : s.on Reg.MODE_CUR.power_busy = false ∨
    (s.md.powerTo = 2 ∧ s.bnd.any (fun b => b.2.job.isSome) = true)) : powerReached s = s :=
  if_pos (by simpa using h)

/-- MODE_CUR shows state `p` in effect; cycles up to here are counted at the clock before. -/
@[irreducible] def powerShown (s : State) (p : Nat) : State := ((cyclesTurn s).wr Reg.MODE_CUR.power_busy 0 0).wr Reg.MODE_CUR.power 0 p

@[simp] theorem powerShown_md (s : State) (p : Nat) : (powerShown s p).md = s.md := by
  rw [powerShown, wr_md, wr_md, cyclesTurn_md]

theorem powerShown_power (s : State) {p : Nat} (h : p < 3) : (powerShown s p).rd Reg.MODE_CUR.power = p := by
  rw [powerShown, rd_wr_self, low_of_lt (Nat.lt_trans h (by decide))]

theorem powerShown_busy (s : State) (p : Nat) : (powerShown s p).on Reg.MODE_CUR.power_busy = false := by
  rw [State.on, powerShown, rd_wr_field _ _ _ _ (by decide), rd_wr_self]
  rfl

theorem powerShown_onlyRegs (s : State) (p : Nat) :
    OnlyRegs (cyclesTurn s) (powerShown s p) [Reg.MODE_CUR.power_busy.key 0, Reg.MODE_CUR.power.key 0] := by
  rw [powerShown]
  exact (onlyRegs_wr ..).trans (onlyRegs_wr ..)

/-- What goes down on the way out of P0, and the Scribes that go on after P2. -/
def powerFollow (s : State) (was to_ : Nat) : State :=
  let s := if was = 0 && to_ != 0 then pipes16.foldl portStop (lanesSleep s) else s
  if was = 2 && to_ != 2 then scribesWake s else s

/-- What state `to_` starts: the return that an epoch asked for meanwhile, or in P0 what comes up. -/
def powerStarts (s : State) (to_ : Nat) : State :=
  if s.md.powerAgain then powerStart { s with md := { s.md with powerAgain := false } } 0 else if to_ = 0 then wakeAll s else s

theorem powerReached_done {s : State} (hb : s.on Reg.MODE_CUR.power_busy = true)
    (hj : s.md.powerTo = 2 → s.bnd.any (fun b => b.2.job.isSome) = false) : powerReached s =
      powerStarts (powerFollow (powerShown s s.md.powerTo) (s.rd Reg.MODE_CUR.power) s.md.powerTo) s.md.powerTo := by
  unfold powerReached
  rw [if_neg (by simpa [hb] using hj)]
  simp only [powerStarts, powerFollow, powerShown, wakeAll]

theorem powerFollow_leave (s : State) {p : Nat} (h : p ≠ 0) : powerFollow s 0 p = pipes16.foldl portStop (lanesSleep s) := by
  simp [powerFollow, h]

theorem powerFollow_wake (s : State) : powerFollow s 2 0 = scribesWake s := rfl

/-- Nothing goes down but out of P0, and no Scribe has stood still but in P2. -/
theorem powerFollow_stay (s : State) {was to_ : Nat} (h0 : was ≠ 0) (h2 : was ≠ 2 ∨ to_ = 2) : powerFollow s was to_ = s := by
  unfold powerFollow
  simp only [h0, decide_false, Bool.false_and, Bool.false_eq_true, if_false]
  exact if_neg (by simpa [imp_iff_not_or] using h2)

theorem powerStarts_again {s : State} (to_ : Nat) (h : s.md.powerAgain = true) :
    powerStarts s to_ = powerStart { s with md := { s.md with powerAgain := false } } 0 := if_pos h

theorem powerStarts_up {s : State} (h : s.md.powerAgain = false) : powerStarts s 0 = wakeAll s := by simp [powerStarts, h]

theorem powerStarts_down (s : State) {to_ : Nat} (h : to_ ≠ 0) : powerStarts s to_ =
    if s.md.powerAgain then powerStart { s with md := { s.md with powerAgain := false } } 0 else s := by simp [powerStarts, h]

/-- Settles O38: a write of `power_req` is ignored or stands (`powerWrite_taken`); a state reached is shown (`powerShown`), then come what
goes down or on with it (`powerFollow`) and what it starts (`powerStarts`). -/
theorem powerStates : Obligations.PowerStates := by
  unfold Obligations.PowerStates
  rintro s σ t n to_ was rfl rfl rfl
  simp only [exec_powerReqWrite, exec_powerStateReached, execPowerReqWrite, execPowerStateReached]
  have hmd := at_md s t
  have hon := on_at s t Reg.MODE_CUR.power_busy 0
  have hpower := rd_at s t Reg.MODE_CUR.power 0
  have hbnd := at_bnd s t
  have hmode := mode_at s t
  rw [← hmd, ← hon, ← hpower, ← hbnd, ← hmode]
  generalize s.at t = σ
  refine ⟨fun h => by rw [powerWrite_ignored h], fun hm hb hn => ⟨fun hwas => ?_, fun hwas h0 => ?_, fun hwas h0 => ?_⟩,
    fun hb => by rw [powerReached_ignored (.inl hb)], fun h2 hj => by rw [powerReached_ignored (.inr ⟨h2, hj⟩)],
    fun hb hto hj => ?_⟩
  · rw [powerWrite_taken hm hb hn, if_pos hwas]
    exact ⟨_, rfl, powerReq_stands σ hn, onlyRegs_wr ..⟩
  · subst h0
    rw [powerWrite_taken hm hb hn, if_neg hwas, powerStart_back]
    refine ⟨_, rfl, ?_, ?_, rfl, ?_, ?_, ?_⟩
    · rw [rd_wr_field _ _ _ _ (by decide)]; exact powerReq_stands σ hn
    · exact (wr_one _ 0 (by decide)).1
    · rw [rd_wr_field _ _ _ _ (by decide)]; exact rd_wr_field _ _ _ _ (by decide)
    · rw [State.mode, rd_wr_field _ _ _ _ (by decide)]; exact (rd_wr_field _ _ _ _ (by decide)).trans hm
    · exact (onlyRegs_wr _ Reg.POWER_CTRL.power_req 0 0).trans (onlyRegs_wr _ Reg.MODE_CUR.power_busy 0 1)
  · rw [powerWrite_taken hm hb hn, if_neg hwas, powerStart_down h0]
    exact ⟨_, rfl, powerReq_stands σ hn, rfl, onlyRegs_wr ..⟩
  · rw [powerReached_done hb hj]
    refine ⟨fun h0 h2 hagain => ?_, fun h1 h2 hagain => ?_, fun h0 hne => ?_, fun h1 h0 hagain => ?_, fun h2 h0 hagain => ?_⟩
    · rw [powerFollow_stay _ h0 h2, powerStarts_again _ (by simpa using hagain)]
      exact ⟨_, rfl, powerShown_power σ hto, powerShown_busy .., rfl, (powerShown_onlyRegs ..).withMd _⟩
    · rw [powerFollow_stay _ (by simp [h1]) (.inl (by simp [h1])), h2, powerStarts_down _ (by decide), if_neg (by simp [hagain])]
      exact ⟨_, rfl, powerShown_power σ (by decide), powerShown_busy .., powerShown_onlyRegs ..⟩
    · rw [h0, powerFollow_leave _ hne, powerStarts_down _ hne]
      exact ⟨_, rfl, powerShown_power σ hto, powerShown_busy .., powerShown_md .., powerShown_onlyRegs ..⟩
    · rw [powerFollow_stay _ (by simp [h1]) (.inl (by simp [h1])), h0, powerStarts_up (by simp [hagain])]
      exact ⟨_, rfl, powerShown_power σ (by decide), powerShown_busy .., powerShown_onlyRegs ..⟩
    · rw [h2, h0, powerFollow_wake, powerStarts_up (by simp [hagain])]
      exact ⟨_, rfl, powerShown_power σ (by decide), powerShown_busy .., powerShown_onlyRegs ..⟩

end Sys2Proof

/-! ## Epochs (R56 to R71, R330): the entries that mark their instants -/

namespace Sys2Proof

open Machine Laws

/-! ### Bad words of the Reading Room -/

theorem poke_rrBad_subset (s : State) (a : Nat) (b : Byte) : (s.poke a b).st.rrBad ⊆ s.st.rrBad := by
  unfold State.poke
  split
  · split
    all_goals exact List.Subset.refl _
  · exact List.filter_subset_self ..
  · exact List.Subset.refl _
  · exact List.Subset.refl _

theorem pokeList_rrBad_subset (s : State) (a : Nat) (bs : List Byte) : (s.pokeList a bs).st.rrBad ⊆ s.st.rrBad := by
  induction bs generalizing s a with
  | nil => exact List.Subset.refl _
  | cons b bs ih => exact List.Subset.trans (ih ..) (poke_rrBad_subset ..)

/-- Bytes written to the Reading Room make the word they begin in good again. -/
theorem pokeBytes_rrBad (s : State) {a : Nat} {bs : List Byte} (ha : areaOf a = .readingRoom) (hbs : bs ≠ []) :
    (a - rrBase) / 8 ∉ (s.pokeBytes a bs).st.rrBad := by
  obtain ⟨b, rest, rfl⟩ := List.exists_cons_of_ne_nil hbs
  have hpoke : (a - rrBase) / 8 ∉ (s.poke a b).st.rrBad := by simp [State.poke, ha]
  rw [pokeBytes_frame]
  exact fun h => hpoke (pokeList_rrBad_subset _ _ _ h)

@[simp] theorem pokeBytes_md (s : State) (a : Nat) (bs : List Byte) : (s.pokeBytes a bs).md = s.md := by rw [pokeBytes_frame]

/-! ### The marks of an epoch's instants -/

@[simp] theorem setTrig_st (s : State) (k : Nat) (x : Trig) : (s.setTrig k x).st = s.st := rfl

@[simp] theorem setEpochState_st (s : State) (n : Nat) : (setEpochState s n).st = s.st := by
  unfold setEpochState
  dsimp only
  split <;> rfl

@[simp] theorem setTrig_cat (s : State) (k : Nat) (x : Trig) : (s.setTrig k x).cat = s.cat := rfl

@[simp] theorem setEpochState_cat (s : State) (n : Nat) : (setEpochState s n).cat = s.cat := by
  unfold setEpochState
  dsimp only
  split <;> rfl

@[simp] theorem setTrig_md (s : State) (k : Nat) (x : Trig) : (s.setTrig k x).md = s.md := rfl

@[simp] theorem setEpochState_md (s : State) (n : Nat) : (setEpochState s n).md = s.md := by
  unfold setEpochState
  dsimp only
  split <;> rfl

theorem markEntry_ne_nil (k gen r : Nat) : markEntry k gen r ≠ [] := by
  intro h
  have hlen := congrArg List.length h
  simp [markEntry] at hlen

/-- The entry that marks an instant is written where the Catalog table stands: in the Reading Room it makes a bad word good. -/
theorem epochMark_rrBad {s : State} {k : Nat} (r : Nat) (ha : areaOf (entryAddr s (chTrig k)) = .readingRoom) :
    (entryAddr s (chTrig k) - rrBase) / 8 ∉ (epochMark s k r).st.rrBad := by
  unfold epochMark
  dsimp only
  rw [setTrig_st]
  exact pokeBytes_rrBad s ha (markEntry_ne_nil _ _ _)

@[simp] theorem epochMark_md (s : State) (k r : Nat) : (epochMark s k r).md = s.md := by
  unfold epochMark
  dsimp only
  rw [setTrig_md, pokeBytes_md]

/-- EPOCH_RB shows the rollback epoch, `r`. -/
def rollbackShown (s : State) (r : Nat) : State :=
  ({ s with md := { s.md with rbInstant := r, rbReached := false, returned := 0 } }.wr Reg.EPOCH_RB_NS.rb_ns 0 (nsOf r)).wr2
    Reg.EPOCH_RB_SEC_LO.rb_sec_lo Reg.EPOCH_RB_SEC_HI.rb_sec_hi 0 (secOf r)

theorem setRollback_eq (s : State) (c r : Nat) :
    setRollback s c r = setEpochState ((epochMark (rollbackShown s r) 63 r).wr Reg.EPOCH_STATUS.rb_cause 0 c) 4 := rfl

@[simp] theorem entryAddr_rollbackShown (s : State) (r ch : Nat) : entryAddr (rollbackShown s r) ch = entryAddr s ch := by
  simp only [entryAddr, catBase, rollbackShown]
  rw [rd_wr2_field _ _ _ _ (by decide) (by decide), rd_wr2_field _ _ _ _ (by decide) (by decide), rd_wr_field _ _ _ _ (by decide),
    rd_wr_field _ _ _ _ (by decide)]
  rfl

theorem setRollback_rrBad {s : State} (c r : Nat) (ha : areaOf (entryAddr s (chTrig 63)) = .readingRoom) :
    (entryAddr s (chTrig 63) - rrBase) / 8 ∉ (setRollback s c r).st.rrBad := by
  have hmark := epochMark_rrBad (s := rollbackShown s r) (k := 63) r (by rwa [entryAddr_rollbackShown])
  rw [entryAddr_rollbackShown] at hmark
  rwa [setRollback_eq, setEpochState_st, wr_st]

theorem setRollback_md (s : State) (c r : Nat) :
    (setRollback s c r).md = { s.md with rbInstant := r, rbReached := false, returned := 0 } := by
  rw [setRollback_eq, setEpochState_md, wr_md, epochMark_md]
  rfl

theorem rollBack_local {s : State} (c r : Nat) (h : s.md.system = false) : rollBack s c r = setRollback s c r := by
  simp [rollBack, setRollback_md, h]

/-! ### A Catalog table in the Reading Room -/

/-- A device that applies a local epoch. CAT_BASE_HI holds 16, one more than its four bits carry, so that the Catalog table stands at the
start of the Reading Room, and the word that the entry of trigger 63 begins in is bad. -/
def tableInReadingRoom : State :=
  { State.reset with
    regs := [(Reg.MODE_CUR.mode.key 0, modeIdle), (Reg.EPOCH_STATUS.state.key 0, 2), (Reg.CAT_BASE_LO.base_lo.key 0, 0),
      (Reg.CAT_BASE_HI.base_hi.key 0, 16)]
    st := { Stacks.reset with rrBad := [128 * chTrig 63 / 8] } }

/-- The rollback of its epoch changes more than `RollsBack` allows: it clears the mark of the bad word. -/
theorem setRollback_changes_st (t c r : Nat) :
    (setRollback (tableInReadingRoom.at t) c r).st ≠ (tableInReadingRoom.at t).st := by
  have haddr : entryAddr (tableInReadingRoom.at t) (chTrig 63) = rrBase + 128 * chTrig 63 := by
    simp only [entryAddr, catBase, rd_at]
    decide
  have hcleared := setRollback_rrBad (s := tableInReadingRoom.at t) c r (by rw [haddr]; decide)
  rw [haddr] at hcleared
  intro hst
  rw [hst, at_st] at hcleared
  exact hcleared (by decide)

theorem RollsBack.st {s u : State} {c r : Nat} (h : RollsBack s u c r) : u.st = s.st := by
  obtain ⟨-, -, -, -, -, -, -, hframe⟩ := h
  rw [hframe]

/-- A cancel there rolls its epoch back. -/
theorem cancel_tableInReadingRoom : ∃ r, exec (.epochCancel 0) tableInReadingRoom = .next (setRollback (tableInReadingRoom.at 0) 5 r) := by
  rw [exec_epochCancel, execEpochCancel, if_pos (by decide), epochCancel, if_pos (by decide), rollBack_local _ _ (by decide)]
  exact ⟨_, rfl⟩

/-- Its timeout rolls it back too, and posts it. -/
theorem timeout_tableInReadingRoom :
    ∃ r, exec (.epochTimeout 0) tableInReadingRoom = .next (epochEvent (setRollback (tableInReadingRoom.at 0) 1 r)) := by
  rw [exec_epochTimeout, execEpochTimeout, epochExpire, if_pos (by decide), rollBack_local _ _ (by decide)]
  exact ⟨_, rfl⟩

/-- Refutes O39: a rollback writes the entry of trigger 63 where CAT_BASE has the table (R22, R330). R22 keeps the table within the Stacks,
but the statement is of every state, and `RollsBack` leaves no room for what a write to the Reading Room does besides: in
`tableInReadingRoom` a cancel makes a bad word good (`setRollback_changes_st`). -/
theorem not_epochCommands : ¬ Obligations.EpochCommands := by
  unfold Obligations.EpochCommands
  intro h
  obtain ⟨-, -, hcancel, -⟩ := h tableInReadingRoom (tableInReadingRoom.at 0) 0 0 _ _ _ 0 false rfl (by decide) rfl rfl rfl (by decide)
  obtain ⟨u, hexec, hback⟩ := hcancel rfl (.inr (by decide))
  obtain ⟨r, hnext⟩ := cancel_tableInReadingRoom
  rw [hnext] at hexec
  beta_reduce at hexec
  rw [if_neg (by decide), Host.Outcome.next.injEq] at hexec
  exact setRollback_changes_st 0 5 r (hexec ▸ hback.st)

/-! ### An event that no ring takes -/

theorem eventsOpen_of_down {s : State} (h : s.ringUp 0 = false) : eventsOpen s = false := by
  simp [eventsOpen, State.ringOpen, h]

/-- With ring 0x00 not up an event is held or lost, and no memory is written. -/
theorem event_st {s : State} (code chan line evA evB : Nat) (h : s.ringUp 0 = false) : (s.event code chan line evA evB).st = s.st := by
  have hclosed : eventsOpen s = false := eventsOpen_of_down h
  have hfault : eventsOpen s.faultCount = false := eventsOpen_of_down h
  unfold State.event
  dsimp only
  split <;> (rw [if_neg (by simp [hclosed, hfault])]; split <;> rfl)

theorem epochEvent_st {s : State} (h : s.ringUp 0 = false) : (epochEvent s).st = s.st := event_st _ _ _ _ _ h

theorem RollsBack.ringUp {s u : State} {c r n : Nat} (h : RollsBack s u c r) (hn : n < 256) : u.ringUp n = s.ringUp n := by
  obtain ⟨-, -, -, -, -, ⟨-, -, hothers, -⟩, -⟩ := h
  have hfind := hothers (chRing n) (by unfold chRing chTrig; omega)
  simp only [State.ringUp, State.inUse, State.entry, hfind]

theorem epochMark_cat (s : State) (k r : Nat) : ∃ e, (epochMark s k r).cat = { s.cat with inEffect := s.cat.inEffect.put (chTrig k) e } := by
  unfold epochMark
  dsimp only
  rw [setTrig_cat, pokeBytes_cat]
  exact ⟨_, rfl⟩

/-- The entry of a trigger is no ring's. -/
theorem setRollback_ringUp (s : State) {n : Nat} (c r : Nat) (hn : n < 256) : (setRollback s c r).ringUp n = s.ringUp n := by
  obtain ⟨e, hcat⟩ := epochMark_cat (rollbackShown s r) 63 r
  have hne : chRing n ≠ chTrig 63 := by unfold chRing chTrig; omega
  have hrest : (setRollback s c r).cat = (epochMark (rollbackShown s r) 63 r).cat := by rw [setRollback_eq, setEpochState_cat, wr_cat]
  simp only [State.ringUp, State.inUse, State.entry, hrest, hcat, tbl_find_put, hne, if_false]
  rfl

/-- Refutes O40, by the state that refutes O39: at the timeout too the entry of trigger 63 is written and makes a bad word good
(`setRollback_changes_st`), and the event that follows, with ring 0x00 not up, writes nothing (`epochEvent_st`). -/
theorem not_epochOutcomes : ¬ Obligations.EpochOutcomes := by
  unfold Obligations.EpochOutcomes
  intro h
  obtain ⟨-, htimeout, -⟩ := h tableInReadingRoom (tableInReadingRoom.at 0) _ _ 0 _ rfl rfl rfl rfl
  obtain ⟨u, hexec, hback⟩ := htimeout rfl (by decide) (by decide)
  obtain ⟨r, hnext⟩ := timeout_tableInReadingRoom
  have hring : (tableInReadingRoom.at 0).ringUp 0 = false := by decide
  rw [hnext] at hexec
  beta_reduce at hexec
  rw [if_neg (by decide), Host.Outcome.next.injEq] at hexec
  refine setRollback_changes_st 0 1 r ?_
  calc (setRollback (tableInReadingRoom.at 0) 1 r).st
      = (epochEvent (setRollback (tableInReadingRoom.at 0) 1 r)).st := (epochEvent_st (by rwa [setRollback_ringUp _ _ _ (by decide)])).symm
    _ = (epochEvent u).st := by rw [hexec]
    _ = u.st := epochEvent_st (by rwa [hback.ringUp (by decide)])
    _ = (tableInReadingRoom.at 0).st := hback.st

end Sys2Proof

/-! ## The records of a pair (R62, R414 to R418, R422, R423, Table 13-2) -/

namespace Sys2Proof

open Machine Laws

/-! ### PAGE: the page joins the queue, and W0 is set -/

theorem recPage_waits {s : State} {a first : Nat} {w0 : Option Int} (hr : s.role = roleStandby) (hm : s.pair.marked = false) :
    recPage s a first w0 = { s with pair := { s.pair with held := s.pair.held ++ [.page a first w0] } } := by
  simp [recPage, hr, hm, holdRecord]

theorem recPage_taken {s : State} (a first : Nat) (w0 : Option Int) (hr : s.role = roleStandby) (hm : s.pair.marked = true) :
    recPage s a first w0 = takePage s a first w0 := by
  simp [recPage, hr, hm]

/-- The page is in the queue. -/
def pageThere (s : State) (a first : Nat) : Bool := s.la.pages.any (fun p => p.addr == a && p.first - p.base == first)

theorem pageThere_iff {s : State} {a first : Nat} :
    pageThere s a first = true ↔ ∃ p, p ∈ s.la.pages ∧ p.addr = a ∧ p.first - p.base = first := by
  simp [pageThere]

theorem pageThere_eq_false {s : State} {a first : Nat} (h : ∀ p, p ∈ s.la.pages → p.addr = a → p.first - p.base ≠ first) :
    pageThere s a first = false := by
  rw [Bool.eq_false_iff, Ne, pageThere_iff]
  rintro ⟨p, hp, ha, hf⟩
  exact h p hp ha hf

/-- Where no job is queued the counts of the reconstruction begin anew, and a page that opens none opens one all the same. -/
def pageJob (s : State) (a : Nat) : State :=
  let s := if s.la.jobs == [] then { s with pair := { s.pair with tally := [] } } else s
  if s.la.jobs == [] && s.peekNat (a + 6) 1 % 2 == 0 then jobOpen s (s.peekNat (a + 8) 4) (s.peekNat (a + 7) 1) else s

theorem takePage_there {s : State} {a first : Nat} (h : pageThere s a first = true) :
    takePage s a first none = s ∧ ∀ pos, takePage s a first (some pos) = placeLines s pos := by
  unfold pageThere at h
  simp [takePage, h]

theorem takePage_new {s : State} {a first : Nat} (h : pageThere s a first = false) :
    takePage s a first none = (pageQueue (pageJob s a) a first).1 ∧
    ∀ pos, takePage s a first (some pos) = placeLines (pageQueue (pageJob s a) a first).1 pos := by
  unfold pageThere at h
  simp only [takePage, h]
  exact ⟨rfl, fun _ => rfl⟩

theorem pageJob_of_jobs {s : State} (a : Nat) (h : s.la.jobs ≠ []) : pageJob s a = s := by
  have hjobs : (s.la.jobs == []) = false := beq_eq_false_iff_ne.2 h
  simp [pageJob, hjobs]

theorem jobOpen_pair (s : State) (id code : Nat) : (jobOpen s id code).pair = s.pair := by
  unfold jobOpen
  dsimp only
  split <;> rfl

theorem pageJob_of_none {s : State} (a : Nat) (h : s.la.jobs = []) : (pageJob s a).pair = { s.pair with tally := [] } := by
  have hjobs : (s.la.jobs == []) = true := beq_iff_eq.2 h
  unfold pageJob
  simp only [hjobs, if_true]
  split
  · exact jobOpen_pair _ _ _
  · rfl

/-! ### W0 -/

theorem placeLines_none {s : State} (pos : Int) (h : curJob s = none) : placeLines s pos = s := by
  simp only [placeLines, h]

/-- The origin of the open job: W0, the line it is the position of, and whether it is set. -/
def originOf (s : State) : Int × Nat × Bool := (s.fire.w0, s.fire.w0Line, s.fire.w0Set)

theorem showOrigin_origin (s : State) : originOf (showOrigin s) = originOf s := by
  unfold showOrigin
  split <;> rfl

theorem skipGap_origin (s : State) : originOf (skipGap s) = originOf s := by
  unfold skipGap
  split
  · rfl
  · split <;> rfl

theorem placeLines_origin {s : State} {j : Job} (pos : Int) (h : curJob s = some j) :
    originOf (placeLines s pos) = (pos, j.base, true) := by
  simp only [placeLines, h]
  rw [showOrigin_origin, skipGap_origin]
  exact foldl_unchanged originOf (fun _ _ => rfl) slots80 _

/-! ### SETPOINT: each axis of the port takes the state its set-points spell -/

theorem axisAt_drive {s : State} {port d n : Nat} (h : axisAt s port d = some n) : s.ent (chAxis n) AxisE.drive = d := by
  have hfound := List.find?_some h
  simp only [Bool.and_eq_true, beq_iff_eq] at hfound
  exact hfound.2

theorem axisAt_congr {s u : State} (h : u.cat = s.cat) (port d : Nat) : axisAt u port d = axisAt s port d := by
  simp only [axisAt, State.inUse, State.ent, State.entry, h]

/-- Axis `n` as the set-points of drive `d` of a port in a SETPOINT record leave it. -/
def setpointAxis (s : State) (port dt d n : Nat) (slots : List Byte) : Axis :=
  let x := s.axis n
  let control := leNat ((slots.drop (6 * d)).take 2)
  let count := leNat ((slots.drop (6 * d + 2)).take 4)
  let num : Int := max 1 (s.ent (chAxis n) AxisE.cntNum : Int)
  let old := (x.wp + x.shift) * num / max 1 (s.ent (chAxis n) AxisE.cntDen : Int)
  let full := old + signed 32 (unsigned 32 ((count : Int) - old))
  let wp := -(-full * s.ent (chAxis n) AxisE.cntDen / num) - x.shift
  let v := (wp - x.wp) * 1000000000000 / (65536 * (dt : Int))
  let lim : Int := s.ent (chAxis n) AxisE.aMax * unitA
  let a := (v * unitV - x.v) * 62500000 / (dt : Int)
  { x with
    p := wp * unitP, v := v * unitV, a := if v = 0 then 0 else max (-lim) (min lim a), sent := count, sentTo := some (port, d),
    enabled := bit control 0, goal := if v = 0 then .still else .speed v, last := none, behind := false, past := false }

/-- The set-points of drive `d` of a port reach the axis that is there, if one is. -/
def setpointStep (port dt : Nat) (slots : List Byte) (s : State) (d : Nat) : State :=
  match axisAt s port d with
  | none => s
  | some n => showAxis (s.setAxis n (setpointAxis s port dt d n slots)) n

theorem recSetpoint_taken {s : State} (port period : Nat) (slots : List Byte) (hr : s.role = roleStandby) :
    recSetpoint s port period slots = (List.range 8).foldl (setpointStep port (max 1 (s.ent (chDl port) DlE.servoNs)) slots)
      (s.setDrivePort port { s.drivePort port with period := period }) := by
  unfold recSetpoint
  rw [if_neg (by simp [hr])]
  rfl

theorem showAxis_mot (s : State) (n : Nat) : (showAxis s n).mot = s.mot := rfl

theorem axis_setAxis (s : State) (n m : Nat) (x : Axis) : (s.setAxis n x).axis m = if m = n then x else s.axis m := tbl_get_put ..

section

variable (port dt : Nat) (slots : List Byte)

theorem setpointStep_cat (s : State) (d : Nat) : (setpointStep port dt slots s d).cat = s.cat := by
  unfold setpointStep
  split <;> rfl

theorem setpointStep_ports (s : State) (d : Nat) : (setpointStep port dt slots s d).mot.ports = s.mot.ports := by
  unfold setpointStep
  split <;> rfl

theorem setpointStep_axis_at {s : State} {d n : Nat} (h : axisAt s port d = some n) :
    (setpointStep port dt slots s d).axis n = setpointAxis s port dt d n slots := by
  simp only [setpointStep, h, State.axis, showAxis_mot]
  exact tbl_get_put_self ..

theorem setpointStep_axis_ne {s : State} {d n : Nat} (h : axisAt s port d ≠ some n) :
    (setpointStep port dt slots s d).axis n = s.axis n := by
  unfold setpointStep
  split
  · rfl
  · next m hm =>
    have hnm : n ≠ m := by rintro rfl; exact h hm
    rw [State.axis, showAxis_mot, ← State.axis, axis_setAxis, if_neg hnm]

theorem setpointSteps_cat (s : State) (ds : List Nat) : (ds.foldl (setpointStep port dt slots) s).cat = s.cat :=
  foldl_unchanged State.cat (setpointStep_cat port dt slots) ds s

/-- The set-points of other drives leave an axis alone. -/
theorem setpointSteps_axis_ne {s : State} {n : Nat} {ds : List Nat} (h : ∀ d ∈ ds, axisAt s port d ≠ some n) :
    (ds.foldl (setpointStep port dt slots) s).axis n = s.axis n := by
  induction ds generalizing s with
  | nil => rfl
  | cons d ds ih =>
    have hcat := setpointStep_cat port dt slots s d
    rw [List.foldl_cons, ih (fun e he => by rw [axisAt_congr hcat]; exact h e (List.mem_cons_of_mem _ he)),
      setpointStep_axis_ne port dt slots (h d List.mem_cons_self)]

/-- An axis depends on its own set-points, its entry and itself. -/
theorem setpointAxis_congr {s u : State} {n : Nat} (hc : u.cat = s.cat) (hx : u.axis n = s.axis n) (d : Nat) :
    setpointAxis u port dt d n slots = setpointAxis s port dt d n slots := by
  have hent : ∀ f, u.ent (chAxis n) f = s.ent (chAxis n) f := fun f => by simp only [State.ent, State.entry, hc]
  simp only [setpointAxis, hent, hx]

/-- One drive of a port is one axis's: of the set-points of a record each axis takes its own. -/
theorem setpointSteps_axis {s : State} {d n : Nat} {ds : List Nat} (hds : ds.Nodup) (hd : d ∈ ds) (hn : axisAt s port d = some n) :
    (ds.foldl (setpointStep port dt slots) s).axis n = setpointAxis s port dt d n slots := by
  obtain ⟨before, after, rfl⟩ := List.append_of_mem hd
  have hnot : d ∉ before ++ after := (List.nodup_cons.1 (List.nodup_middle.1 hds)).1
  have hother : ∀ e, e ≠ d → axisAt s port e ≠ some n := fun e he hen => he ((axisAt_drive hen).symm.trans (axisAt_drive hn))
  set u := before.foldl (setpointStep port dt slots) s with hu
  have hcat : u.cat = s.cat := setpointSteps_cat port dt slots s before
  have hun : u.axis n = s.axis n :=
    setpointSteps_axis_ne port dt slots (fun e he => hother e (fun hed => hnot (List.mem_append_left _ (hed ▸ he))))
  have hafter : ∀ e ∈ after, axisAt (setpointStep port dt slots u d) port e ≠ some n := by
    intro e he
    rw [axisAt_congr (setpointStep_cat port dt slots u d), axisAt_congr hcat]
    exact hother e (fun hed => hnot (List.mem_append_right _ (hed ▸ he)))
  rw [List.foldl_append, List.foldl_cons, ← hu, setpointSteps_axis_ne port dt slots hafter,
    setpointStep_axis_at port dt slots ((axisAt_congr hcat ..).trans hn), setpointAxis_congr port dt slots hcat hun]

theorem setpointSteps_ports (s : State) (ds : List Nat) : (ds.foldl (setpointStep port dt slots) s).mot.ports = s.mot.ports :=
  foldl_unchanged (fun z : State => z.mot.ports) (setpointStep_ports port dt slots) ds s

end

theorem recSetpoint_period {s : State} (port period : Nat) (slots : List Byte) (hr : s.role = roleStandby) :
    ((recSetpoint s port period slots).drivePort port).period = period := by
  rw [recSetpoint_taken port period slots hr, State.drivePort, setpointSteps_ports]
  exact congrArg DrivePort.period (tbl_get_put_self ..)

theorem recSetpoint_axis {s : State} {port d n : Nat} (period : Nat) (slots : List Byte) (hr : s.role = roleStandby) (hd : d < 8)
    (hn : axisAt s port d = some n) :
    (recSetpoint s port period slots).axis n = setpointAxis s port (max 1 (s.ent (chDl port) DlE.servoNs)) d n slots := by
  rw [recSetpoint_taken port period slots hr]
  exact setpointSteps_axis port _ slots List.nodup_range (List.mem_range.2 hd) hn

/-! ### What the clock leaves as it is -/

@[simp] theorem role_at (s : State) (t : Nat) : (s.at t).role = s.role := rd_at ..

@[simp] theorem frozen_at (s : State) (t : Nat) : (s.at t).frozen = s.frozen := on_at ..

@[simp] theorem mirrored_at (s : State) (t a : Nat) : mirrored (s.at t) a = mirrored s a := by simp only [mirrored, rd_at]

@[simp] theorem absLine_at (s : State) (t n : Nat) : absLine (s.at t) n = absLine s n := by simp only [absLine, curJob, at_la]

@[simp] theorem entryAddr_at (s : State) (t ch : Nat) : entryAddr (s.at t) ch = entryAddr s ch := by
  simp only [entryAddr, catBase, rd_at]

@[simp] theorem slot_at (s : State) (t k : Nat) : (s.at t).slot k = s.slot k := by simp only [State.slot, at_fire]

@[simp] theorem catCount_at (s : State) (t ch : Nat) : catCount (s.at t) ch = catCount s ch := by
  simp only [catCount, on_at, slot_at, at_fire, State.drivePort, at_mot, ent_at]

/-! ### Records outside a pair, and at a device that is not the standby -/

theorem inPair_on {s : State} (f : State → State) (h : s.on Reg.PAIR_CFG.pair_en = true) : inPair s f = f s := if_pos h

theorem inPair_off {s : State} (f : State → State) (h : s.on Reg.PAIR_CFG.pair_en = false) : inPair s f = s :=
  if_neg (by simp [h])

section

variable {s : State} (hr : s.role ≠ roleStandby)
include hr

theorem recPage_elsewhere (a first : Nat) (w0 : Option Int) : recPage s a first w0 = s := if_pos hr

theorem recMode_elsewhere (m c l st k : Nat) : recMode s m c l st k = s := if_pos hr

theorem recSubst_elsewhere (b : Bool) (n p l : Nat) : recSubst s b n p l = s := if_pos hr

theorem recBank_elsewhere (p b o : Nat) (tr : List Byte) : recBank s p b o tr = s := if_pos hr

theorem recEntry_elsewhere (bs : List Byte) (n : Nat) : recEntry s bs n = s := if_pos (by simp [hr])

theorem recSetpoint_elsewhere (port period : Nat) (bs : List Byte) : recSetpoint s port period bs = s := if_pos hr

theorem recHandover_elsewhere (i : Nat) (x : List (Nat × Nat)) : recHandover s i x = s := if_pos (by simp [hr])

end

/-! ### STACKS_WRITE, SUBST, BANK and ENTRY -/

theorem recStacks_ignored {s : State} {a : Nat} (bs : List Byte)
    (h : s.role = roleActive ∨ s.frozen = true ∨ (areaOf a ≠ .readingRoom ∧ mirrored s a = false)) : recStacks s a bs = s := by
  unfold recStacks
  split
  · rfl
  · next hnot =>
    simp only [Bool.or_eq_true, decide_eq_true_eq, not_or] at hnot
    obtain ⟨hr, hf⟩ := hnot
    obtain ⟨ha, hm⟩ := (h.resolve_left hr).resolve_left hf
    rw [if_neg (by simp [ha, hm])]

theorem recStacks_taken {s : State} {a : Nat} (bs : List Byte) (hr : s.role ≠ roleActive) (hf : s.frozen = false)
    (h : areaOf a = .readingRoom ∨ mirrored s a = true) : recStacks s a bs = { s with mem := Mem.write s.mem a bs } := by
  unfold recStacks
  rw [if_neg (by simp [hr, hf]), if_pos (by simpa using h)]

theorem recSubst_waits {s : State} (b : Bool) (n p l : Nat) (hr : s.role = roleStandby) (hm : s.pair.marked = false) :
    recSubst s b n p l = { s with pair := { s.pair with held := s.pair.held ++ [.subst b n p l] } } := by
  simp [recSubst, hr, hm, holdRecord]

theorem recSubst_taken {s : State} (b : Bool) (n p l : Nat) (hr : s.role = roleStandby) (hm : s.pair.marked = true) :
    recSubst s b n p l = takeSubst s b n p l := by
  simp [recSubst, hr, hm]

theorem recBank_taken {s : State} (p b o : Nat) (tr : List Byte) (hr : s.role = roleStandby) : recBank s p b o tr =
    s.pokeBytes (rrBase + s.ent (chPlane p) (if b = 0 then PlaneE.densBase0 else PlaneE.densBase1) + o) tr := by
  simp [recBank, hr]

theorem recEntry_ignored {s : State} {bs : List Byte} (n : Nat) (h : mirroredChan (HdrE.channel.get bs) = false ∨ bs.length ≠ 128) :
    recEntry s bs n = s := by
  unfold recEntry
  dsimp only
  refine if_pos ?_
  rcases h with h | h <;> simp [h]

theorem recEntry_taken {s : State} {bs : List Byte} (n : Nat) (hr : s.role = roleStandby)
    (hm : mirroredChan (HdrE.channel.get bs) = true) (hl : bs.length = 128) : recEntry s bs n =
      lateFor (catLoad (s.pokeBytes (entryAddr s (HdrE.channel.get bs)) bs) (HdrE.channel.get bs) bs (some n))
        (decide (0 < n) && decide (n < catCount s (HdrE.channel.get bs))) := by
  unfold recEntry
  dsimp only
  rw [if_neg (by simp [hr, hm, hl])]

/-! ### MODE -/

theorem recMode_taken {s : State} (m c l st k : Nat) (hr : s.role = roleStandby) : recMode s m c l st k =
    takeMode { s with pair := { s.pair with held := if s.pair.marked then s.pair.held else s.pair.held ++ [.mode m c l st k] } } m c l st k := by
  unfold recMode
  rw [if_neg (by simp [hr])]
  split <;> rfl

/-- What MODE_CUR, LA_RW_LINE and LA_STATUS show of a MODE record. -/
def modeShown (s : State) (m c st k : Nat) : State :=
  ((((s.wr Reg.MODE_CUR.shadow_of 0 m).wr Reg.MODE_CUR.cause 0 c).wr2 Reg.LA_RW_LINE_LO.rw_line_lo Reg.LA_RW_LINE_HI.rw_line_hi 0 st).wr
    Reg.LA_STATUS.rw_step 0 k)

theorem modeShown_onlyRegs (s : State) (m c st k : Nat) : OnlyRegs s (modeShown s m c st k) [Reg.MODE_CUR.shadow_of.key 0,
    Reg.MODE_CUR.cause.key 0, Reg.LA_RW_LINE_LO.rw_line_lo.key 0, Reg.LA_RW_LINE_HI.rw_line_hi.key 0, Reg.LA_STATUS.rw_step.key 0] :=
  ((((onlyRegs_wr ..).trans (onlyRegs_wr ..)).trans (onlyRegs_wr ..)).trans (onlyRegs_wr ..)).trans (onlyRegs_wr ..)

theorem modeShown_shadowOf (s : State) (m c st k : Nat) :
    (modeShown s m c st k).rd Reg.MODE_CUR.shadow_of = low Reg.MODE_CUR.shadow_of.width m := by
  rw [modeShown, rd_wr_field _ _ _ _ (by decide), rd_wr2_field _ _ _ _ (by decide) (by decide), rd_wr_field _ _ _ _ (by decide), rd_wr_self]

theorem modeShown_cause (s : State) (m c st k : Nat) :
    (modeShown s m c st k).rd Reg.MODE_CUR.cause = low Reg.MODE_CUR.cause.width c := by
  rw [modeShown, rd_wr_field _ _ _ _ (by decide), rd_wr2_field _ _ _ _ (by decide) (by decide), rd_wr_self]

theorem modeShown_step (s : State) (m c st k : Nat) :
    (modeShown s m c st k).rd Reg.LA_STATUS.rw_step = low Reg.LA_STATUS.rw_step.width k := by
  rw [modeShown, rd_wr_self]

theorem modeShown_line (s : State) (m c st k : Nat) : (modeShown s m c st k).rd2 Reg.LA_RW_LINE_LO.rw_line_lo
    Reg.LA_RW_LINE_HI.rw_line_hi = st % 2 ^ (32 + Reg.LA_RW_LINE_HI.rw_line_hi.width) := by
  rw [State.rd2, modeShown, rd_wr_field _ _ _ _ (by decide), rd_wr_field _ _ _ _ (by decide), State.wr2, rd_wr_self,
    rd_wr_field _ _ _ _ (by decide), rd_wr_self, low, low, Nat.pow_add, Nat.mod_mul]
  rfl

/-- A MODE record but for what registers show: the mode from its line of effect, and where a stop or a resume stands. -/
def modeTaken (s : State) (m l st k : Nat) : State :=
  { s with
    md := { s.md with lines := (absLine s l, m) :: s.md.lines }
    la := { s.la with
      stopFrom := if (m = modeRewind ∨ m = modeHold) ∧ 1 ≤ k ∧ k ≤ 6 then some (absLine s (st + 1)) else none
      resumeAt := if 7 ≤ k then absLine s (st + 1) else s.la.resumeAt } }

theorem takeMode_eq (s : State) (m c l st k : Nat) : takeMode s m c l st k = modeShown (modeTaken s m l st k) m c st k := by
  simp only [takeMode, Bool.and_eq_true, Bool.or_eq_true, beq_iff_eq, decide_eq_true_eq, and_assoc]
  rfl

/-! ### HEALTH and HEALTH_SEND -/

/-- The first `n` copies of a field show the values of `g`. -/
def copiesShown (s : State) (f : Fld) (g : Nat → Nat) (n : Nat) : State := (List.range n).foldl (fun s i => s.wr f i (g i)) s

theorem copiesShown_succ (s : State) (f : Fld) (g : Nat → Nat) (n : Nat) :
    copiesShown s f g (n + 1) = (copiesShown s f g n).wr f n (g n) := by
  simp only [copiesShown, List.range_succ, List.foldl_append, List.foldl_cons, List.foldl_nil]

theorem copiesShown_onlyRegs (s : State) (f : Fld) (g : Nat → Nat) (n : Nat) :
    OnlyRegs s (copiesShown s f g n) ((List.range n).map f.key) := by
  induction n with
  | zero => exact .refl s
  | succ n ih =>
    rw [copiesShown_succ, List.range_succ, List.map_append]
    exact ih.trans (onlyRegs_wr ..)

theorem rd_copiesShown (s : State) (f : Fld) (g : Nat → Nat) {n i : Nat} (hn : n ≤ 4096) (hi : i < n) :
    (copiesShown s f g n).rd f i = low f.width (g i) := by
  induction n with
  | zero => exact absurd hi (Nat.not_lt_zero i)
  | succ n ih =>
    rw [copiesShown_succ]
    rcases Nat.lt_succ_iff_lt_or_eq.1 hi with h | rfl
    · rw [rd_wr_copy _ _ (by omega) (by omega) (by omega), ih (by omega) h]
    · exact rd_wr_self ..

theorem leNat_lt (bs : List Byte) : leNat bs < 256 ^ bs.length := by
  induction bs with
  | nil => decide
  | cons b bs ih =>
    have hb := b.isLt
    simp only [leNat, List.length_cons, pow_succ]
    omega

/-- Word `i` of a record. -/
def wordOf (body : List Byte) (i : Nat) : Nat := leNat ((body.drop (4 * i)).take 4)

theorem wordOf_lt (body : List Byte) (i : Nat) : wordOf body i < 2 ^ 32 := by
  refine (leNat_lt _).trans_le ?_
  exact (Nat.pow_le_pow_right (by decide) (List.length_take_le ..)).trans (by decide)

/-- What PAIR_HEALTH_PARTNER and `partner_fit` show of a HEALTH record. -/
def healthShown (s : State) (body : List Byte) : State :=
  (copiesShown s Reg.PAIR_HEALTH_PARTNER.hp (wordOf body) 8).wr Reg.PAIR_STATUS.partner_fit 0 ((body.getD 0 0).toNat % 2)

theorem healthTake_eq (s : State) (body : List Byte) : healthTake s body =
    showFlags (if (body.getD 0 0).toNat % 4 ≠ s.pair.partnerFlags % 4 then
      State.event { healthShown s body with pair := { s.pair with partnerFlags := (body.getD 0 0).toNat } } 0x0B02 noChan 0
        (hflags { healthShown s body with pair := { s.pair with partnerFlags := (body.getD 0 0).toNat } }) (body.getD 0 0).toNat
      else { healthShown s body with pair := { s.pair with partnerFlags := (body.getD 0 0).toNat } }) := by
  have hpair : (healthShown s body).pair = s.pair := by rw [healthShown, wr_pair, (copiesShown_onlyRegs s _ _ 8).1]
  have hdef : healthTake s body = showFlags (if (body.getD 0 0).toNat % 4 != (healthShown s body).pair.partnerFlags % 4 then
      State.event { healthShown s body with pair := { (healthShown s body).pair with partnerFlags := (body.getD 0 0).toNat } } 0x0B02 noChan 0
        (hflags { healthShown s body with pair := { (healthShown s body).pair with partnerFlags := (body.getD 0 0).toNat } })
        (body.getD 0 0).toNat
      else { healthShown s body with pair := { (healthShown s body).pair with partnerFlags := (body.getD 0 0).toNat } }) := rfl
  rw [hdef, hpair]
  simp only [bne_iff_ne]

theorem healthShown_word (s : State) (body : List Byte) {i : Nat} (hi : i < 8) :
    (healthShown s body).rd Reg.PAIR_HEALTH_PARTNER.hp i = low 32 (wordOf body i) := by
  rw [healthShown, rd_wr_field _ _ _ _ (by decide)]
  exact rd_copiesShown s _ _ (by decide) hi

theorem healthShown_fit (s : State) (body : List Byte) :
    (healthShown s body).rd Reg.PAIR_STATUS.partner_fit = (body.getD 0 0).toNat % 2 := by
  rw [healthShown, rd_wr_self]
  exact Nat.mod_mod ..

theorem healthShown_onlyRegs (s : State) (body : List Byte) : OnlyRegs s (healthShown s body)
    (Reg.PAIR_STATUS.partner_fit.key 0 :: (List.range 8).map Reg.PAIR_HEALTH_PARTNER.hp.key) :=
  ((copiesShown_onlyRegs s _ _ 8).trans (onlyRegs_wr ..)).mono
    (fun _ h => (List.mem_append.1 h).elim (List.mem_cons_of_mem _) (fun hfit => List.mem_singleton.1 hfit ▸ List.mem_cons_self))

/-- This device's HEALTH record (Table 13-3), `n` faults counted since the one before. -/
def healthBody (s : State) (n : Nat) : List Byte :=
  leBytes 1 (hflags s) ++ leBytes 1 s.mode ++ leBytes 1 (scribeSpares s) ++ leBytes 1 (spareLanes s).length ++
    leBytes 1 s.st.bankSpares.length ++
    leBytes 1 (pipes16.filter (fun q => !s.on Reg.INSP_PIPE_BIND.pbound q && !(s.pipe q).retired && (s.pipe q).bad == 0)).length ++
    leBytes 1 (sensors48.filter (fun k => 1 ≤ s.rd Reg.THERM_SENS.s_state k)).length ++ leBytes 1 (lostScribes s) ++
    leBytes 2 (s.rd Reg.THERM_STATUS.tj) ++ leBytes 2 (sat 16 n) ++ leBytes 4 s.pair.hseq ++ leBytes 8 s.devNs ++ leBytes 8 0

theorem length_healthBody (s : State) (n : Nat) : (healthBody s n).length = 32 := by
  simp only [healthBody, List.length_append, length_leBytes]

theorem healthBody_flags (s : State) (n : Nat) : ((healthBody s n).getD 0 0).toNat = hflags s % 256 := rfl

theorem healthBody_mode (s : State) (n : Nat) : ((healthBody s n).getD 1 0).toNat = s.mode % 256 := rfl

/-- What is counted for a HEALTH record before it is made: its number, and the faults since the one before. -/
def healthCounted (s : State) : Pair :=
  { s.pair with
    hseq := s.pair.hseq + 1, faultsAt := s.pair.faults, clean := ((s.pair.faults - s.pair.faultsAt == 0) :: s.pair.clean).take 10 }

/-- A HEALTH record of this device, as PAIR_HEALTH_SELF shows it and the link takes it. -/
def healthMade (s : State) (n : Nat) : State :=
  let u := copiesShown s Reg.PAIR_HEALTH_SELF.hs (wordOf (healthBody s n)) 8
  { u with pair := { u.pair with live := u.pair.live ++ [TwinRec.health (healthBody s n)] } }

theorem healthSend_off {s : State} (h : s.on Reg.PAIR_CFG.pair_en = false) : healthSend s = s := if_pos (by simp [h])

theorem healthSend_on {s : State} (h : s.on Reg.PAIR_CFG.pair_en = true) : healthSend s =
    (healthMade (showFlags { s with pair := healthCounted s }) (s.pair.faults - s.pair.faultsAt)).twinPump := by
  unfold healthSend
  rw [if_neg (by simp [h])]
  unfold healthMade copiesShown wordOf healthBody healthCounted
  rfl

theorem healthMade_pair (s : State) (n : Nat) :
    (healthMade s n).pair = { s.pair with live := s.pair.live ++ [TwinRec.health (healthBody s n)] } := by
  have hpair : (copiesShown s Reg.PAIR_HEALTH_SELF.hs (wordOf (healthBody s n)) 8).pair = s.pair := by
    rw [(copiesShown_onlyRegs s _ _ 8).1]
  rw [healthMade, hpair]

theorem healthMade_word (s : State) (n : Nat) {i : Nat} (hi : i < 8) :
    (healthMade s n).rd Reg.PAIR_HEALTH_SELF.hs i = wordOf (healthBody s n) i := by
  have hshown := rd_copiesShown s Reg.PAIR_HEALTH_SELF.hs (wordOf (healthBody s n)) (by decide) hi
  rw [low_of_lt (w := Reg.PAIR_HEALTH_SELF.hs.width) (wordOf_lt ..)] at hshown
  exact (rd_congr (by rfl) _ _).trans hshown

theorem OnlyRegs.withPair {s u : State} {fs : List Nat} (h : OnlyRegs s u fs) (p : Pair) :
    OnlyRegs { s with pair := p } { u with pair := p } fs :=
  ⟨by rw [h.1], h.2⟩

theorem healthMade_onlyRegs (s : State) (n : Nat) : OnlyRegs { s with pair := (healthMade s n).pair } (healthMade s n)
    ((List.range 8).map Reg.PAIR_HEALTH_SELF.hs.key) :=
  (copiesShown_onlyRegs s _ _ 8).withPair _

/-! ### HANDOVER, SYNC_MARK and RESYNC_COMPLETE -/

theorem recHandover_late {s : State} {i : Nat} (x : List (Nat × Nat)) (h : i < s.devTime) : recHandover s i x = s := if_pos (by simp [h])

theorem recHandover_kept {s : State} {i : Nat} (x : List (Nat × Nat)) (hr : s.role = roleStandby) (h : s.devTime ≤ i) :
    recHandover s i x = { s with pair := { s.pair with handGot := some (i, x) } } := if_neg (by simp [hr, h])

theorem recSync_asked {s : State} (h : s.role = roleActive) :
    recSync s 1 = { s with pair := { s.pair with resync := resyncRecords s } }.twinPump := by simp [recSync, h]

theorem recSync_notAsked {s : State} (h : s.role ≠ roleActive) : recSync s 1 = s := by simp [recSync, h]

theorem recSync_done {s : State} {k : Nat} (hk : k ≠ 1) (h : s.role = roleStandby) :
    recSync s k = s.pair.held.foldl takeHeld { s with pair := { s.pair with marked := true, held := [] } } := by
  simp [recSync, hk, h]

theorem recSync_elsewhere {s : State} {k : Nat} (hk : k ≠ 1) (h : s.role ≠ roleStandby) : recSync s k = s := by simp [recSync, hk, h]

theorem resyncDone_holds {s : State} {eq : Bool} {reach : Nat} (h : syncHolds s eq reach = true) :
    resyncDone s eq reach = showFlags ({ s with pair := { s.pair with synced := true } }.wr Reg.PAIR_STATUS.in_sync 0 1) := if_pos h

theorem resyncDone_lost {s : State} {eq : Bool} {reach : Nat} (h : syncHolds s eq reach = false)
    (hs : s.on Reg.PAIR_STATUS.in_sync = true) (hm : s.mode = modeShadow) : resyncDone s eq reach = loseSync s := by
  simp [resyncDone, h, hs, hm]

theorem resyncDone_ignored {s : State} {eq : Bool} {reach : Nat} (h : syncHolds s eq reach = false)
    (hs : s.on Reg.PAIR_STATUS.in_sync = false ∨ s.mode ≠ modeShadow) : resyncDone s eq reach = s := by
  unfold resyncDone
  rw [if_neg (by simp [h]), if_neg (by rcases hs with hs | hs <;> simp [hs])]

/-! ### SHADOW_LINE_TIMEOUT -/

/-- The part of a slot whose REL_ACK has been missing for 50 µs. -/
def latePart (s : State) (k : Nat) : Option Part :=
  (s.slot k).parts.find? (fun q => match q.sosAt with | some t => decide (t + 50 * usU ≤ s.clk) | none => false)

/-- A line taken over that was not acknowledged is skipped, and counted for the report of the takeover. -/
def takenSkipped (s : State) (k : Nat) (q : Part) : State :=
  let s := dropPart s k q.line
  let s := countLines (moveLine s q.jobIdx k Led.linesSkipped) q.jobIdx [k] Led.linesSwitchover
  let s := moveDrops s q.jobIdx q.plane q.drops Led.dropsSkipped
  { s with pair := { s.pair with hoSkipped := s.pair.hoSkipped.put k (Tbl.get 0 s.pair.hoSkipped k + 1) } }

/-- What becomes of a late part: withheld in SHADOW, skipped where it was taken over. -/
def partLate (s : State) (k : Nat) (q : Part) : State :=
  if s.mode = modeShadow then
    setFate (tallyLine (dropPart s k q.line) q.jobIdx k q.plane q.drops Led.linesWithheld Led.dropsWithheld) k q.line fateWithheld
  else if q.taken then markLine (setFate (takenSkipped s k q) k q.line fateSkipped) q.line (markSpoilt + causeSwitchover)
  else s

theorem shadowLate_none {s : State} {k : Nat} (h : latePart s k = none) : shadowLate s k = s := by
  unfold shadowLate
  split
  · rfl
  · next q hq => exact absurd (h.symm.trans hq) (Option.some_ne_none q).symm

theorem shadowLate_some {s : State} {k : Nat} {q : Part} (h : latePart s k = some q) : shadowLate s k = partLate s k q := by
  unfold shadowLate
  split
  · next hq => exact absurd (hq.symm.trans h) (Option.some_ne_none q).symm
  · next p hp =>
    obtain rfl : q = p := Option.some.inj (h.symm.trans hp)
    rfl

theorem partOf_dropPart (s : State) (k g : Nat) : partOf (dropPart s k g) k g = none := by
  simp [partOf, dropPart, State.slot, State.setSlot]

theorem countLines_frame (s : State) (idx k : Nat) (c : Nat → Nat) : ∃ led, countLines s idx [k] c = { s with led := led } := by
  unfold countLines
  split <;> exact ⟨_, rfl⟩

theorem moveLine_frame (s : State) (idx k : Nat) (c : Nat → Nat) : ∃ led, moveLine s idx k c = { s with led := led } := by
  unfold moveLine
  split <;> exact ⟨_, rfl⟩

theorem moveDrops_frame (s : State) (idx p n : Nat) (c : Nat → Nat) : ∃ led, moveDrops s idx p n c = { s with led := led } := by
  unfold moveDrops
  split <;> exact ⟨_, rfl⟩

/-- The counters apart, the part goes and the report counts it. -/
theorem takenSkipped_eq (s : State) (k : Nat) (q : Part) : ∃ led, takenSkipped s k q = { dropPart s k q.line with
    led := led, pair := { s.pair with hoSkipped := s.pair.hoSkipped.put k (Tbl.get 0 s.pair.hoSkipped k + 1) } } := by
  obtain ⟨led₁, h₁⟩ := moveLine_frame (dropPart s k q.line) q.jobIdx k Led.linesSkipped
  obtain ⟨led₂, h₂⟩ := countLines_frame (moveLine (dropPart s k q.line) q.jobIdx k Led.linesSkipped) q.jobIdx k Led.linesSwitchover
  obtain ⟨led₃, h₃⟩ := moveDrops_frame
    (countLines (moveLine (dropPart s k q.line) q.jobIdx k Led.linesSkipped) q.jobIdx [k] Led.linesSwitchover)
    q.jobIdx q.plane q.drops Led.dropsSkipped
  refine ⟨led₃, ?_⟩
  rw [takenSkipped, h₃, h₂, h₁]
  rfl

theorem partLate_shadow {s : State} (k : Nat) (q : Part) (h : s.mode = modeShadow) : partLate s k q =
    setFate (tallyLine (dropPart s k q.line) q.jobIdx k q.plane q.drops Led.linesWithheld Led.dropsWithheld) k q.line fateWithheld :=
  if_pos h

theorem partLate_left {s : State} (k : Nat) {q : Part} (h : s.mode ≠ modeShadow) (ht : q.taken = false) : partLate s k q = s := by
  simp [partLate, h, ht]

theorem partLate_taken {s : State} (k : Nat) {q : Part} (h : s.mode ≠ modeShadow) (ht : q.taken = true) : partLate s k q =
    markLine (setFate (takenSkipped s k q) k q.line fateSkipped) q.line (markSpoilt + causeSwitchover) := by
  simp only [partLate, h, ht, if_true, if_false]

/-- Settles O55: each record by the lemmas on it, outside a pair by `inPair_off`; a record of axes by `recSetpoint_axis`. -/
theorem pairRecords : Obligations.PairRecords := by
  unfold Obligations.PairRecords
  refine ⟨fun z a first w0 hr hm => recPage_waits hr hm, fun z a first hr hm => ⟨fun h => ?_, fun h hj => ?_, fun h hj => ?_⟩,
    fun z pos => ⟨placeLines_none pos, fun j hj => ?_⟩, ?_, ?_⟩
  · obtain ⟨hnone, hpos⟩ := takePage_there (pageThere_iff.2 h)
    simp only [recPage_taken _ _ _ hr hm]
    exact ⟨hnone, hpos⟩
  · have hnew := takePage_new (pageThere_eq_false h)
    rw [pageJob_of_jobs a hj] at hnew
    simp only [recPage_taken _ _ _ hr hm]
    exact hnew
  · obtain ⟨hnone, -⟩ := takePage_new (pageThere_eq_false h)
    exact ⟨pageJob z a, pageJob_of_none a hj, by rw [recPage_taken _ _ _ hr hm, hnone]⟩
  · have horigin := placeLines_origin pos hj
    simpa [originOf] using horigin
  · rintro z u port period n d bs rfl hr
    refine ⟨recSetpoint_period port period bs hr, ?_⟩
    rintro count dt num den old full wp v a lim hd hn rfl rfl rfl rfl rfl rfl rfl rfl rfl rfl
    rw [recSetpoint_axis period bs hr hd hn]
    exact ⟨rfl, rfl, rfl, rfl, rfl, rfl, rfl⟩
  · rintro s σ t rfl
    simp only [exec_stacksWrite, exec_pageRec, exec_substRec, exec_bankRec, exec_entryRec, exec_setpointRec, exec_modeRec, exec_healthRec,
      exec_handoverRec, exec_syncMark, exec_healthSend, exec_resyncComplete, exec_shadowLineTimeout, execStacksWrite, execPageRec,
      execSubstRec, execBankRec, execEntryRec, execSetpointRec, execModeRec, execHealthRec, execHandoverRec, execSyncMark,
      execHealthSend, execResyncComplete, execShadowLineTimeout, List.forall_mem_cons, List.not_mem_nil, false_imp_iff, implies_true]
    simp only [← wrote_at (s := s) (t := t), ← on_at s t, ← role_at s t, ← frozen_at s t, ← mirrored_at s t, ← at_pair s t,
      ← absLine_at s t, ← at_fire s t, ← ent_at s t, ← entryAddr_at s t, ← catCount_at s t, ← mode_at s t, ← slot_at s t, ← at_md s t,
      ← at_la s t]
    generalize s.at t = σ
    refine ⟨?_, ?_, fun a bs hp => ⟨fun h => ?_, fun hr hf ha => ?_⟩, fun a first hw w0 hp hr => ?_, fun nz sp ln b hp hr hm => ?_,
      ?_, ?_, fun pl bk o tr hp hr => ?_, ?_, fun po pe sl hp hr => ?_, ?_, ?_, fun ins tags cr hp hr => ⟨fun h => ?_, fun h => ?_⟩,
      fun hp => ⟨fun hr => ?_, fun hr => ?_, fun k hk hr => ?_, fun k hk hr => ?_⟩, fun hp => ?_, ?_,
      fun eq reach => ⟨fun h => ?_, fun h hs hm => ?_, fun h hs => ?_⟩, ?_⟩
    · -- outside a pair
      intros
      rename_i hp
      simp only [inPair_off _ hp, and_self]
    · -- not at the standby
      intros
      rename_i hp hr
      simp only [inPair_on _ hp, recPage_elsewhere hr, recMode_elsewhere hr, recSubst_elsewhere hr, recBank_elsewhere hr,
        recEntry_elsewhere hr, recSetpoint_elsewhere hr, recHandover_elsewhere hr, and_self]
    · -- STACKS_WRITE
      rw [inPair_on _ hp, recStacks_ignored bs h]
    · rw [inPair_on _ hp, recStacks_taken bs hr hf ha]
      exact ⟨_, rfl, ⟨mem_read_write .., fun x hx => mem_get_write_out _ _ _ hx⟩, rfl⟩
    · rw [inPair_on _ hp]
    · -- SUBST
      rw [inPair_on _ hp, recSubst_waits b nz sp ln hr hm]
    · rintro nz sp ln late hp hr hm rfl
      rw [inPair_on _ hp, inPair_on _ hp, recSubst_taken _ _ _ _ hr hm, recSubst_taken _ _ _ _ hr hm]
      exact ⟨rfl, rfl⟩
    · intro z late
      simp only [lateFor, Bool.and_eq_true]
    · -- BANK
      rw [inPair_on _ hp, recBank_taken pl bk o tr hr]
    · -- ENTRY
      rintro ebs sn ch hp hr rfl
      rw [inPair_on _ hp]
      exact ⟨fun h => by rw [recEntry_ignored sn h], fun hm hl => by rw [recEntry_taken sn hr hm hl]⟩
    · rw [inPair_on _ hp]
    · -- MODE
      rintro m c l st k g hp hr rfl
      rw [inPair_on _ hp, recMode_taken m c l st k hr, takeMode_eq]
      exact ⟨_, rfl, rfl, rfl, modeShown_shadowOf .., modeShown_cause .., modeShown_step .., modeShown_line .., rfl, rfl,
        modeShown_onlyRegs ..⟩
    · -- HEALTH
      rintro body f hp rfl
      rw [inPair_on _ hp, healthTake_eq]
      exact ⟨_, rfl, fun i hi => (rd_congr (s := healthShown σ body) rfl _ _).trans (healthShown_word σ body hi),
        (rd_congr (s := healthShown σ body) rfl _ _).trans (healthShown_fit σ body), rfl, (healthShown_onlyRegs σ body).withPair _⟩
    · -- HANDOVER
      rw [inPair_on _ hp, recHandover_late _ h]
    · rw [inPair_on _ hp, recHandover_kept _ hr h]
    · -- SYNC_MARK
      rw [inPair_on _ hp, recSync_asked hr]
    · rw [inPair_on _ hp, recSync_notAsked hr]
    · rw [inPair_on _ hp, recSync_done hk hr]
    · rw [inPair_on _ hp, recSync_elsewhere hk hr]
    · -- HEALTH_SEND
      rw [healthSend_off hp]
    · rintro n y hp rfl hy
      have hmade : showFlags { σ with pair := healthCounted σ } = y := hy.symm
      rw [healthSend_on hp, hmade]
      exact ⟨healthMade y _, rfl, healthBody y _, healthMade_pair y _, length_healthBody y _, fun i hi => healthMade_word y _ hi,
        healthBody_flags y _, healthBody_mode y _, healthMade_onlyRegs y _⟩
    · -- RESYNC_COMPLETE
      rw [resyncDone_holds h]
      exact ⟨_, rfl, (wr_one _ 0 (by decide)).1, rfl, onlyRegs_wr ..⟩
    · rw [resyncDone_lost h hs hm]
    · rw [resyncDone_ignored h hs]
    · -- SHADOW_LINE_TIMEOUT
      rintro k late hlate
      have hpart : latePart σ k = late := hlate.symm
      refine ⟨fun h => ?_, fun q h hm => ?_, fun q h hm ht => ?_, fun q h hm ht => ?_⟩
      · rw [shadowLate_none (hpart.trans h)]
      · rw [shadowLate_some (hpart.trans h), partLate_shadow k q hm]
        exact ⟨_, rfl, partOf_dropPart .., rfl⟩
      · rw [shadowLate_some (hpart.trans h), partLate_left k hm ht]
      · rw [shadowLate_some (hpart.trans h), partLate_taken k hm ht]
        obtain ⟨led, hskipped⟩ := takenSkipped_eq σ k q
        refine ⟨_, rfl, ?_, ?_⟩
        · rw [hskipped]
          exact partOf_dropPart σ k q.line
        · rw [hskipped]
          exact tbl_get_put_self ..

end Sys2Proof

/-! ## Folio instructions: how one runs (R49, R79, R81, R93) -/

namespace Sys2Proof

open Machine Laws

/-! ### The registers of an engine -/

theorem eng_congr {s t : State} (h : t.engines = s.engines) (p : Nat) : t.eng p = s.eng p := by simp only [State.eng, h]

@[simp] theorem eng_setPc_self (s : State) (p pc : Nat) : (s.setPc p pc).eng p = { s.eng p with pc := pc } := eng_setEng_self ..

theorem eng_setPc_ne (s : State) {p q : Nat} (pc : Nat) (h : q ≠ p) : (s.setPc p pc).eng q = s.eng q := eng_setEng_ne s _ h

@[simp] theorem pcOf_setPc (s : State) (p pc : Nat) : (s.setPc p pc).pcOf p = pc := by simp [State.pcOf]

@[simp] theorem gget_setPc (s : State) (p q pc n : Nat) : (s.setPc p pc).gget q n = s.gget q n := by
  by_cases h : q = p
  · subst h; simp [State.gget]
  · simp only [State.gget, eng_setPc_ne s pc h]

@[simp] theorem vget_setPc (s : State) (p q pc n : Nat) : (s.setPc p pc).vget q n = s.vget q n := by
  by_cases h : q = p
  · subst h; simp [State.vget]
  · simp only [State.vget, eng_setPc_ne s pc h]

/-- A general register after a write of one: g0 stays 0 (R79). -/
theorem gget_gset (s : State) (p n k : Nat) (v : Word) :
    (s.gset p n v).gget p k = if k % 32 = 0 then 0 else if k % 32 = n % 32 then v else s.gget p k := by
  unfold State.gset
  split
  · simp only [State.gget]
    split
    · rfl
    · rw [if_neg (by omega)]
  · simp only [State.gget, eng_setEng_self, tbl_get_put]
    split <;> rfl

theorem eng_gset_self (s : State) (p n : Nat) (v : Word) : (s.gset p n v).eng p = { s.eng p with g := ((s.gset p n v).eng p).g } := by
  unfold State.gset
  split
  · rfl
  · simp

theorem eng_gset_ne (s : State) {p q : Nat} (n : Nat) (v : Word) (h : q ≠ p) : (s.gset p n v).eng q = s.eng q := by
  unfold State.gset
  split
  · rfl
  · exact eng_setEng_ne s _ h

theorem gset_frame (s : State) (p n : Nat) (v : Word) : s.gset p n v = { s with engines := (s.gset p n v).engines } := by
  unfold State.gset
  split <;> rfl

@[simp] theorem pcOf_gset (s : State) (p n : Nat) (v : Word) : (s.gset p n v).pcOf p = s.pcOf p := by
  rw [State.pcOf, eng_gset_self, State.pcOf]

@[simp] theorem bad_gset (s : State) (p n : Nat) (v : Word) : ((s.gset p n v).eng p).bad = (s.eng p).bad := by rw [eng_gset_self]

@[simp] theorem vget_gset (s : State) (p n k : Nat) (v : Word) : (s.gset p n v).vget p k = s.vget p k := by
  rw [State.vget, eng_gset_self, State.vget]

/-- A vector register after a write of one. -/
theorem vget_vset (s : State) (p n k : Nat) (v : VWord) : (s.vset p n v).vget p k = if k % 16 = n % 16 then v else s.vget p k := by
  simp only [State.vget, State.vset, eng_setEng_self, tbl_get_put]

@[simp] theorem gget_vset (s : State) (p n k : Nat) (v : VWord) : (s.vset p n v).gget p k = s.gget p k := by
  simp only [State.gget, State.vset, eng_setEng_self]

/-! ### The state in which an instruction has its effect -/

@[simp] theorem eng_passed_self (s : State) (p : Nat) : (passed s p).eng p = { s.eng p with pc := s.pcOf p + 4 } := eng_setPc_self ..

theorem eng_passed_ne (s : State) {p q : Nat} (h : q ≠ p) : (passed s p).eng q = s.eng q := eng_setPc_ne s _ h

@[simp] theorem pcOf_passed (s : State) (p : Nat) : (passed s p).pcOf p = s.pcOf p + 4 := pcOf_setPc ..

@[simp] theorem gget_passed (s : State) (p q n : Nat) : (passed s p).gget q n = s.gget q n := gget_setPc ..

@[simp] theorem gnum_passed (s : State) (p q n : Nat) : (passed s p).gnum q n = s.gnum q n := by rw [State.gnum, gget_passed, State.gnum]

@[simp] theorem offset_passed (s : State) (p q b i : Nat) : (passed s p).offset q b i = s.offset q b i := by
  rw [State.offset, gget_passed, State.offset]

@[simp] theorem vget_passed (s : State) (p q n : Nat) : (passed s p).vget q n = s.vget q n := vget_setPc ..

@[simp] theorem mem_passed (s : State) (p : Nat) : (passed s p).mem = s.mem := rfl

/-! ### Fetch, effect, fetch -/

theorem localBad_of_good {s : State} {p : Nat} (h : (s.eng p).bad = []) (o n : Nat) : localBad s p o n = false := by simp [localBad, h]

/-- A fetch in the program area of a memory without bad words meets no fault (R81, R93). -/
theorem fetchFault_of_good {s : State} {p : Nat} (hpc : s.pcOf p < contextBase p) (hb : (s.eng p).bad = []) : fetchFault s p = none := by
  unfold fetchFault
  split
  · rfl
  · simp [localBad_of_good hb, Nat.not_le.2 hpc]

theorem fetchCheck_of_good {s : State} {p : Nat} (hpc : s.pcOf p < contextBase p) (hb : (s.eng p).bad = []) : fetchCheck s p = s := by
  simp only [fetchCheck, fetchFault_of_good hpc hb]

theorem Runs.bad {s : State} {p : Nat} (h : Runs s p) : (s.eng p).bad = [] := by
  obtain ⟨-, -, -, -, hbad⟩ := h
  exact hbad

theorem Runs.next_lt {s : State} {p : Nat} (h : Runs s p) : s.pcOf p + 4 < contextBase p := by
  obtain ⟨-, -, -, hpc, -⟩ := h
  exact hpc

theorem Runs.fetches {s : State} {p : Nat} (h : Runs s p) : fetchFault s p = none :=
  fetchFault_of_good (Nat.lt_of_le_of_lt (Nat.le_add_right _ _) h.next_lt) h.bad

theorem Runs.onEngine {s : State} {p : Nat} (h : Runs s p) (f : State → State) : s.onEngine p f = .next (f s) := by
  obtain ⟨hp, htrip, hdorm, -, -⟩ := h
  simp [State.onEngine, isEngine, hp, htrip, hdorm]

theorem Runs.folio {s : State} {p : Nat} (h : Runs s p) (f : State → State) : s.folio p f = .next (fetchCheck (f (passed s p)) p) := by
  simp only [State.folio, h.onEngine, h.fetches]; rfl

theorem folioIf_ok {s : State} {p word : Nat} {bad : State → Option (Nat × Nat)} (hb : bad s = none) (f : State → State) :
    s.folioIf p word bad f = s.folio p f := by
  simp only [State.folioIf, hb]

/-- An instruction that faults: it has no effect, and the state is that of the fault. -/
theorem Runs.folioIf_bad {s : State} {p word cause off : Nat} {bad : State → Option (Nat × Nat)} (h : Runs s p)
    (hb : bad s = some (cause, off)) (f : State → State) : s.folioIf p word bad f = .next (folioFault s p cause word off) := by
  simp only [State.folioIf, hb, h.onEngine, h.fetches]

/-- An instruction after whose effect the next one lies in the program area ends with that effect. -/
theorem Runs.ends {s : State} {p : Nat} {f : State → State} {P : State → Prop} (h : Runs s p)
    (hpc : (f (passed s p)).pcOf p < contextBase p) (hb : ((f (passed s p)).eng p).bad = []) (hP : P (f (passed s p))) :
    Ends (s.folio p f) P :=
  ⟨_, by rw [h.folio, fetchCheck_of_good hpc hb], hP⟩

theorem gWrites_gset (s : State) (p rd : Nat) (v : Word) : GWrites s ((passed s p).gset p rd v) p rd v where
  value := by rw [gget_gset]; simp
  others n hn := by
    rw [gget_gset, gget_passed, if_neg hn]
    split
    · simp [State.gget, *]
    · rfl
  vectors n := by simp
  pc := by simp
  engine := by
    rw [eng_gset_self]; simp [State.pcOf]
  engines q hq := by rw [eng_gset_ne _ _ _ hq, eng_passed_ne s hq]
  memory a := by rw [gset_frame]; rfl
  rest := by rw [gset_frame]; rfl

/-- The instruction's effect is one write of a general register. -/
theorem Runs.gWrites {s : State} {p rd : Nat} {v : Word} {f : State → State} (h : Runs s p)
    (hf : f (passed s p) = (passed s p).gset p rd v) : Ends (s.folio p f) (fun t => GWrites s t p rd v) :=
  h.ends (by rw [hf]; simpa using h.next_lt) (by rw [hf]; simpa using h.bad) (hf ▸ gWrites_gset s p rd v)

end Sys2Proof

/-! ## Folio arithmetic (R89, R90, Table 3-6) -/

namespace Sys2Proof

open Machine Laws

/-! ### Numbers and words -/

/-- Bits `lo` to `lo + w - 1` of an integer's code are the code of the integer shifted down. -/
theorem extractLsb'_ofInt {n lo w : Nat} (h : lo + w ≤ n) (z : Int) :
    (BitVec.ofInt n z).extractLsb' lo w = BitVec.ofInt w (z / 2 ^ lo) := by
  obtain ⟨k, rfl⟩ := Nat.exists_eq_add_of_le h
  have hsplit : z / 2 ^ lo = z % 2 ^ (lo + w + k) / 2 ^ lo + 2 ^ w * (2 ^ k * (z / 2 ^ (lo + w + k))) := by
    conv_lhs => rw [← Int.emod_add_mul_ediv z (2 ^ (lo + w + k)), pow_add, pow_add, mul_assoc, mul_assoc,
      Int.add_mul_ediv_left _ _ (by positivity)]
    simp only [pow_add, mul_assoc]
  obtain ⟨m, hm⟩ := Int.eq_ofNat_of_zero_le (Int.emod_nonneg z (b := 2 ^ (lo + w + k)) (by positivity))
  apply BitVec.eq_of_toNat_eq
  rw [BitVec.extractLsb'_toNat, BitVec.toNat_ofInt, BitVec.toNat_ofInt, hsplit]
  push_cast
  rw [Int.add_mul_emod_self_left, hm, Nat.shiftRight_eq_div_pow]
  norm_cast

theorem toInt_ofNat_eq_signed {w : Nat} (hw : 0 < w) (n : Nat) : (BitVec.ofNat w n).toInt = signed w n := by
  have hpow : 2 ^ w = 2 * 2 ^ (w - 1) := by rw [← pow_succ', Nat.sub_add_cancel hw]
  rw [BitVec.toInt_eq_toNat_cond, BitVec.toNat_ofNat, signed]
  exact if_congr (by omega) rfl rfl

/-- The model's sign extension is that of the word the field spells. -/
theorem sext_eq {w : Nat} (hw : 0 < w) (n : Nat) : sext w n = (BitVec.ofNat w n).signExtend 64 := by
  rw [sext, BitVec.signExtend, toInt_ofNat_eq_signed hw]

/-- Signed words that are not in order are the other way round or one word: `<` and `≤` choose alike. -/
theorem ite_slt_eq {w : Nat} {α : Type} (a b : BitVec w) {x y : α} (h : a = b → x = y) :
    (if a.slt b then x else y) = if a.toInt ≤ b.toInt then x else y := by
  rcases lt_trichotomy a.toInt b.toInt with hlt | heq | hgt
  · simp [BitVec.slt, hlt, hlt.le]
  · simp [BitVec.slt, heq, h (BitVec.toInt_inj.1 heq)]
  · simp [BitVec.slt, hgt.not_gt, hgt.not_ge]

theorem ite_ult_eq {w : Nat} {α : Type} (a b : BitVec w) {x y : α} (h : a = b → x = y) :
    (if a.ult b then x else y) = if a.toNat ≤ b.toNat then x else y := by
  rcases lt_trichotomy a.toNat b.toNat with hlt | heq | hgt
  · simp [BitVec.ult, hlt, hlt.le]
  · simp [BitVec.ult, heq, h (BitVec.eq_of_toNat_eq heq)]
  · simp [BitVec.ult, hgt.not_gt, hgt.not_ge]

/-! ### The results of Table 3-6 -/

theorem ofNat_ofBool_slt (a b : Word) : BitVec.ofNat 64 (ofBool (a.slt b)) = if a.toInt < b.toInt then 1 else 0 := by
  simp [ofBool, BitVec.slt, apply_ite (BitVec.ofNat 64)]

theorem ofNat_ofBool_ult (a b : Word) : BitVec.ofNat 64 (ofBool (a.ult b)) = if a.toNat < b.toNat then 1 else 0 := by
  simp [ofBool, BitVec.ult, apply_ite (BitVec.ofNat 64)]

theorem aluMulh_eq (a b : Word) : aluMulh a b = (a.signExtend 128 * b.signExtend 128).extractLsb' 64 64 := by
  rw [BitVec.signExtend, BitVec.signExtend, ← BitVec.ofInt_mul, extractLsb'_ofInt (by decide)]
  rfl

theorem aluMulhu_eq (a b : Word) : aluMulhu a b = (a.zeroExtend 128 * b.zeroExtend 128).extractLsb' 64 64 := by
  have hlt : a.toNat * b.toNat < 2 ^ 128 := Nat.mul_lt_mul'' (c := 2 ^ 64) (d := 2 ^ 64) a.isLt b.isLt
  have hprod : a.zeroExtend 128 * b.zeroExtend 128 = BitVec.ofNat 128 (a.toNat * b.toNat) := by simp [BitVec.ofNat_mul]
  apply BitVec.eq_of_toNat_eq
  rw [hprod, BitVec.extractLsb'_toNat, BitVec.toNat_ofNat, Nat.mod_eq_of_lt hlt, Nat.shiftRight_eq_div_pow, aluMulhu, BitVec.toNat_ofNat]

theorem aluDivu_eq (a b : Word) : aluDivu a b = if b = 0 then BitVec.allOnes 64 else BitVec.ofNat 64 (a.toNat / b.toNat) :=
  if_congr Iff.rfl rfl BitVec.udiv_def

theorem aluRemu_eq (a b : Word) : aluRemu a b = if b = 0 then a else BitVec.ofNat 64 (a.toNat % b.toNat) :=
  if_congr Iff.rfl rfl BitVec.umod_def

theorem aluPopc_eq (a : Word) : aluPopc a = BitVec.ofNat 64 ((List.range 64).countP (fun i => a.getLsbD i)) := by
  rw [aluPopc, List.countP_eq_length_filter]

/-- How far down from bit 63 a word is zero. -/
def leadingZeros (a : Word) : Nat := (List.range 64).findIdx (fun i => a.getLsbD (63 - i))

theorem leadingZeros_le (a : Word) : leadingZeros a ≤ 64 := by
  simpa [leadingZeros] using List.findIdx_le_length (xs := List.range 64) (p := fun i => a.getLsbD (63 - i))

theorem aluClz_eq (a : Word) : aluClz a = BitVec.ofNat 64 (leadingZeros a) := by
  rw [aluClz, List.takeWhile_eq_take_findIdx_not, List.length_take, List.length_range]
  simp only [Bool.not_not]
  rw [← leadingZeros, Nat.min_eq_left (leadingZeros_le a)]

/-- The bits above the highest one are zero. -/
theorem lt_of_leadingZeros (a : Word) : a.toNat < 2 ^ (64 - leadingZeros a) := by
  refine Nat.lt_pow_two_of_testBit _ fun i hi => ?_
  rw [BitVec.testBit_toNat]
  by_cases h64 : 64 ≤ i
  · exact BitVec.getLsbD_of_ge _ _ h64
  · have hzero := List.not_of_lt_findIdx (xs := List.range 64) (p := fun i => a.getLsbD (63 - i)) (i := 63 - i)
      (by change _ < leadingZeros a; omega)
    rw [List.getElem_range, show 63 - (63 - i) = i by omega] at hzero
    exact hzero

/-- The bit where the leading zeros end is one. -/
theorem le_of_leadingZeros {a : Word} (h : leadingZeros a < 64) : 2 ^ (63 - leadingZeros a) ≤ a.toNat := by
  have hone := List.findIdx_getElem (xs := List.range 64) (p := fun i => a.getLsbD (63 - i)) (w := by simpa [leadingZeros] using h)
  rw [List.getElem_range] at hone
  exact Nat.ge_two_pow_of_testBit ((BitVec.testBit_toNat a).trans hone)

theorem aluBfx_eq (a b : Word) {k : Nat} (h : k ≤ 63) :
    aluBfx a b k = BitVec.ofNat 64 (a.toNat / 2 ^ (b.toNat % 64) % 2 ^ k) := by
  have hk : k % 64 = k := Nat.mod_eq_of_lt (by omega)
  have hpow : 2 ^ k < 2 ^ 64 := Nat.pow_lt_pow_right (by decide) (by omega)
  apply BitVec.eq_of_toNat_eq
  rw [aluBfx, hk, BitVec.toNat_and, BitVec.toNat_ofNat, Nat.mod_eq_of_lt ((Nat.sub_le ..).trans_lt hpow), Nat.and_two_pow_sub_one_eq_mod,
    BitVec.toNat_ushiftRight, Nat.shiftRight_eq_div_pow, shamt, BitVec.toNat_ofNat,
    Nat.mod_eq_of_lt ((Nat.mod_lt _ (Nat.two_pow_pos k)).trans hpow)]

/-! SHI's four shifts, by imm16[7:6]. -/

theorem aluShi_left (a : Word) {n : Nat} (h : n < 64) : aluShi a n = a <<< n := by
  simp [aluShi, Nat.div_eq_of_lt h, Nat.mod_eq_of_lt h]

theorem aluShi_right (a : Word) {n : Nat} (h : n < 64) : aluShi a (64 + n) = a >>> n := by
  simp [aluShi, Nat.div_eq_of_lt h, Nat.mod_eq_of_lt h]

theorem aluShi_signed (a : Word) {n : Nat} (h : n < 64) : aluShi a (128 + n) = a.sshiftRight n := by
  simp [aluShi, show (128 + n) / 64 % 4 = 2 by omega, show (128 + n) % 64 = n by omega]

theorem aluShi_rotate (a : Word) {n : Nat} (h : n < 64) : aluShi a (192 + n) = (a >>> n ||| a <<< (64 - n)) := by
  simp [aluShi, show (192 + n) / 64 % 4 = 3 by omega, show (192 + n) % 64 = n by omega, BitVec.rotateRight_def, Nat.mod_eq_of_lt h]

/-! ### The two shapes -/

section

variable {s : State} {p : Nat} (h : Runs s p) {rd rs1 rs2 : Nat} {v : Word}

include h

theorem alu_gWrites {f : Word → Word → Word} (hv : f (s.gget p rs1) (s.gget p rs2) = v) :
    Ends (alu p rd rs1 rs2 f s) (fun t => GWrites s t p rd v) :=
  h.gWrites (by rw [gget_passed, gget_passed, hv])

theorem aluI_gWrites {f : Word → Word} (hv : f (s.gget p rs1) = v) : Ends (aluI p rd rs1 f s) (fun t => GWrites s t p rd v) :=
  h.gWrites (by rw [gget_passed, hv])

theorem execBfx_gWrites {k : Nat} (hpos : 1 ≤ k) (hk : k ≤ 63) (hv : aluBfx (s.gget p rs1) (s.gget p rs2) k = v) :
    Ends (execBfx p rd rs1 rs2 k s) (fun t => GWrites s t p rd v) := by
  rw [execBfx, folioIf_ok (by rw [illegalIf, if_neg (by simp; omega)])]
  exact h.gWrites (by rw [gget_passed, gget_passed, hv])

theorem execShi_gWrites {imm : Nat} (himm : imm < 256) (hv : aluShi (s.gget p rs1) imm = v) :
    Ends (execShi p rd rs1 imm s) (fun t => GWrites s t p rd v) := by
  rw [execShi, folioIf_ok (by rw [illegalIf, if_neg (by simp [low]; omega)])]
  exact h.gWrites (by rw [gget_passed, hv])

end

/-- Settles O7: each result is the model's own, or `aluMulh_eq` and its like. -/
theorem folioArithmetic : Obligations.FolioArithmetic := by
  unfold Obligations.FolioArithmetic
  intro s p rd rs1 rs2 h
  simp only [exec_add, exec_sub, exec_andR, exec_orR, exec_xorR, exec_sll, exec_srl, exec_sra, exec_slt, exec_sltu, exec_mul, exec_mulh,
    exec_mulhu]
  exact ⟨alu_gWrites h rfl, alu_gWrites h rfl, alu_gWrites h rfl, alu_gWrites h rfl, alu_gWrites h rfl, alu_gWrites h rfl,
    alu_gWrites h rfl, alu_gWrites h rfl, alu_gWrites h (ofNat_ofBool_slt ..), alu_gWrites h (ofNat_ofBool_ult ..), alu_gWrites h rfl,
    alu_gWrites h (aluMulh_eq ..), alu_gWrites h (aluMulhu_eq ..)⟩

/-- Settles O8: each result by its lemma; the leading zeros are counted by `leadingZeros`. -/
theorem folioDivideSelectCount : Obligations.FolioDivideSelectCount := by
  unfold Obligations.FolioDivideSelectCount
  intro s p rd rs1 rs2 k h
  simp only [exec_divu, exec_remu, exec_minS, exec_maxS, exec_minu, exec_maxu, exec_clz, exec_popc, exec_bfx]
  refine ⟨alu_gWrites h (aluDivu_eq ..), alu_gWrites h (aluRemu_eq ..), alu_gWrites h (ite_slt_eq _ _ id),
    alu_gWrites h (ite_slt_eq _ _ Eq.symm), alu_gWrites h (ite_ult_eq _ _ id), alu_gWrites h (ite_ult_eq _ _ Eq.symm), ?_,
    aluI_gWrites h (aluPopc_eq _), fun hpos hk => execBfx_gWrites h hpos hk (aluBfx_eq _ _ hk)⟩
  obtain ⟨t, ht, hw⟩ := aluI_gWrites h (rd := rd) (aluClz_eq (s.gget p rs1))
  exact ⟨t, ht, _, hw, leadingZeros_le _, lt_of_leadingZeros _, le_of_leadingZeros⟩

theorem zext_of_lt {w n : Nat} (h : n < 2 ^ w) : zext w n = BitVec.ofNat 64 n := by rw [zext, low_of_lt h]

/-- Settles O9: the immediates by `sext_eq` and `zext_of_lt`, SHI's shifts by the four lemmas about `aluShi`. -/
theorem folioImmediates : Obligations.FolioImmediates := by
  unfold Obligations.FolioImmediates
  intro s p rd rs1 imm h himm
  have hs : sext 16 imm = (BitVec.ofNat 16 imm).signExtend 64 := sext_eq (by decide) imm
  have hz : zext 16 imm = BitVec.ofNat 64 imm := zext_of_lt himm
  simp only [exec_addi, exec_slti, exec_andi, exec_ori, exec_xori, exec_lui, exec_shi]
  refine ⟨aluI_gWrites h (by rw [hs]), aluI_gWrites h ?_, aluI_gWrites h (by rw [hz]), aluI_gWrites h (by rw [hz]),
    aluI_gWrites h (by rw [hz]), aluI_gWrites h ?_, ?_, ?_, ?_, ?_⟩
  · rw [ofNat_ofBool_slt, hs, BitVec.toInt_signExtend_of_le (by decide)]
  · rw [low_of_lt (n := imm) himm, sext_eq (by decide)]
  · rintro n hn rfl
    exact execShi_gWrites h (by omega) (aluShi_left _ hn)
  · rintro n hn rfl
    exact execShi_gWrites h (by omega) (aluShi_right _ hn)
  · rintro n hn rfl
    exact execShi_gWrites h (by omega) (aluShi_signed _ hn)
  · rintro n hn rfl
    exact execShi_gWrites h (by omega) (aluShi_rotate _ hn)

end Sys2Proof

/-! ## Branches, jumps and faults of Folio instructions (R87 to R93, R106, R107, R112) -/

namespace Sys2Proof

open Machine Laws

/-! ### A program counter set -/

theorem jumps_setPc (s : State) (p pc : Nat) : Jumps s (s.setPc p pc) p pc where
  target := by simp
  engine := by simp
  engines q hq := eng_setPc_ne s _ hq
  memory _ := rfl
  rest := rfl

theorem jumps_passed (s : State) (p : Nat) : Jumps s (passed s p) p (s.pcOf p + 4) := jumps_setPc ..

theorem Jumps.trans {s t u : State} {p a b : Nat} (h : Jumps s t p a) (k : Jumps t u p b) : Jumps s u p b where
  target := k.target
  engine := by rw [k.engine, h.engine]
  engines q hq := (k.engines q hq).trans (h.engines q hq)
  memory x := (k.memory x).trans (h.memory x)
  rest := by rw [k.rest, h.rest]

/-- The instruction's effect is the next address. -/
theorem Runs.jumps {s : State} {p pc : Nat} {f : State → State} (h : Runs s p) (hf : Jumps s (f (passed s p)) p pc)
    (hpc : pc < contextBase p) : Ends (s.folio p f) (fun t => Jumps s t p pc) :=
  h.ends (by rwa [hf.target]) (by rw [hf.engine]; exact h.bad) hf

/-- The instruction's effect is none. -/
theorem Runs.passes {s : State} {p : Nat} {f : State → State} (h : Runs s p) (hf : f (passed s p) = passed s p) :
    Ends (s.folio p f) (fun t => Jumps s t p (s.pcOf p + 4)) :=
  h.jumps (by rw [hf]; exact jumps_passed s p) h.next_lt

/-! ### Branches and jumps (R93) -/

/-- The program area ends far below 2⁶⁴: an address within it is not wrapped. -/
theorem branchTo_eq {pc p : Nat} {off : Int} (h : 0 ≤ (pc : Int) + 4 * off) (hlt : ((pc : Int) + 4 * off).toNat < contextBase p) :
    branchTo pc off = ((pc : Int) + 4 * off).toNat := by
  have hbase : contextBase p < 2 ^ 64 := by unfold contextBase; split <;> decide
  rw [branchTo, unsigned, Int.emod_eq_of_lt h (by omega)]

theorem branch_ends {s : State} {p rs1 rs2 off : Nat} {f : Word → Word → Bool} {c : Prop} [Decidable c] (h : Runs s p)
    (hc : f (s.gget p rs1) (s.gget p rs2) = decide c) (hnn : 0 ≤ (s.pcOf p : Int) + 4 * (BitVec.ofNat 16 off).toInt) :
    if c then ((s.pcOf p : Int) + 4 * (BitVec.ofNat 16 off).toInt).toNat < contextBase p →
      Ends (branch p rs1 rs2 off f s) (fun t => Jumps s t p ((s.pcOf p : Int) + 4 * (BitVec.ofNat 16 off).toInt).toNat)
    else Ends (branch p rs1 rs2 off f s) (fun t => Jumps s t p (s.pcOf p + 4)) := by
  have hsigned : signed 16 off = (BitVec.ofNat 16 off).toInt := (toInt_ofNat_eq_signed (by decide) off).symm
  rw [branch]
  by_cases htaken : c
  · rw [if_pos htaken]
    refine fun hlt => h.jumps ?_ hlt
    rw [gget_passed, gget_passed, hc, if_pos (decide_eq_true htaken), hsigned, branchTo_eq hnn hlt]
    exact (jumps_passed s p).trans (jumps_setPc ..)
  · rw [if_neg htaken]
    exact h.passes (by rw [gget_passed, gget_passed, hc, decide_eq_false htaken]; rfl)

/-- Settles O16: each comparison decides its branch, by `branch_ends`. -/
theorem folioBranches : Obligations.FolioBranches := by
  unfold Obligations.FolioBranches
  intro s p rs1 rs2 off h hnn
  simp only [exec_beq, exec_bne, exec_blt, exec_bge, exec_bltu, exec_bgeu]
  have hge (a b : Int) : (!decide (a < b)) = decide (b ≤ a) := by rw [← decide_not, decide_eq_decide, not_lt]
  have hgeu (a b : Nat) : (!decide (a < b)) = decide (b ≤ a) := by rw [← decide_not, decide_eq_decide, not_lt]
  exact ⟨branch_ends h (beq_eq_decide ..) hnn, branch_ends h (by rw [bne, beq_eq_decide, ← decide_not]) hnn,
    branch_ends h rfl hnn, branch_ends h (hge ..) hnn, branch_ends h rfl hnn, branch_ends h (hgeu ..) hnn⟩

/-- A jump writes its link and then goes. -/
theorem Runs.links {s : State} {p rd dest : Nat} {f : State → State} (h : Runs s p) (hlt : dest < contextBase p)
    (hf : f (passed s p) = ((passed s p).gnat p rd (s.pcOf p + 4)).setPc p dest) :
    Ends (s.folio p f) (fun t => ∃ u, GWrites s u p rd (BitVec.ofNat 64 (s.pcOf p + 4)) ∧ Jumps u t p dest) :=
  h.ends (by simpa [hf] using hlt) (by simpa [hf, State.gnat] using h.bad) ⟨_, gWrites_gset .., hf ▸ jumps_setPc ..⟩

/-- Settles O17. -/
theorem folioJumps : Obligations.FolioJumps := by
  unfold Obligations.FolioJumps
  intro s p rd rs1 off imm dest h
  have hsext : sext 16 imm = (BitVec.ofNat 16 imm).signExtend 64 := sext_eq (by decide) imm
  rw [exec_jal, exec_jalr]
  refine ⟨fun hdest hlt => ?_, fun hdest => ?_⟩
  · rw [toInt_ofNat_eq_signed (by decide)] at hdest
    rw [execJal]
    refine h.links hlt ?_
    rw [branchTo_eq (p := p) (by omega) (by omega), ← hdest, Int.toNat_natCast]
  · have hto : jalrTo p rs1 imm s = dest := by rw [jalrTo, hsext, hdest]
    have hto' : jalrTo p rs1 imm (passed s p) = dest := by rw [← hto, jalrTo, jalrTo, gget_passed]
    refine ⟨fun hal hlt => ?_, fun hal => ?_⟩
    · rw [execJalr, folioIf_ok (by rw [hto, if_pos hal])]
      exact h.links hlt (by rw [hto'])
    · rw [execJalr, h.folioIf_bad (by rw [hto, if_neg hal])]

/-! ### Illegal words (R88) -/

/-- An instruction with an illegal field raises fault 0x01. -/
theorem Runs.illegal {s : State} {p word : Nat} {b : Bool} (h : Runs s p) (hb : b = true) (f : State → State) :
    s.folioIf p word (illegalIf b) f = .next (folioFault s p 1 word 0) :=
  h.folioIf_bad (by rw [illegalIf, if_pos hb]) f

theorem vBad_of_high {n : Nat} (h16 : 16 ≤ n) (h32 : n < 32) : vBad n = true := by simp [vBad, Nat.mod_eq_of_lt h32, h16]

/-- Settles O18: `Runs.illegal` for each field. -/
theorem folioIllegal : Obligations.FolioIllegal := by
  unfold Obligations.FolioIllegal
  intro s p rd rs1 rs2 k imm word h
  simp only [exec_illegalInstruction, exec_bfx, exec_shi, exec_vadd, exec_vsplat, exec_vshl, exec_vextu]
  refine ⟨fun hnone => ?_, fun hsome => ?_, h.illegal rfl _, fun hlo hhi => h.illegal ?_ _,
    fun hlo hhi => ⟨h.illegal ?_ _, h.illegal (vBad_of_high hlo hhi) _⟩, fun hlo hhi => ⟨h.illegal ?_ _, h.illegal ?_ _⟩⟩
  · rw [execIllegalInstruction, hnone, Option.isSome_none, if_neg Bool.false_ne_true, h.illegal rfl]
  · rw [execIllegalInstruction, if_pos (Option.isSome_iff_ne_none.2 hsome), h.onEngine]
  · simp only [low, bne_iff_ne, ne_eq]
    omega
  · rw [vBad_of_high hlo hhi]
    rfl
  · simp [Nat.mod_eq_of_lt hhi, hlo]
  · simp [Nat.mod_eq_of_lt hhi, hlo]

/-! ### Misaligned accesses (R91, R107) -/

section

variable {s : State} {p base win imm n : Nat}

theorem misaligned_of_ne (h : s.offset p base imm % n ≠ 0) : misaligned p base imm n s = some (3, s.offset p base imm) := if_neg h

theorem misaligned_of_eq (h : s.offset p base imm % n = 0) : misaligned p base imm n s = none := if_pos h

theorem loadBad_of_ne (h : s.offset p base imm % n ≠ 0) : loadBad p base win imm n s = some (3, s.offset p base imm) := by
  rw [loadBad, misaligned_of_ne h]

/-- An aligned load from a memory without bad words, or from a window, does not fault. -/
theorem loadBad_of_eq (h : s.offset p base imm % n = 0) (hb : (s.eng p).bad = []) : loadBad p base win imm n s = none := by
  rw [loadBad, misaligned_of_eq h, localBad_of_good hb, Bool.and_false]
  rfl

end

/-- Settles O13. -/
theorem folioMisaligned : Obligations.FolioMisaligned := by
  unfold Obligations.FolioMisaligned
  rintro s p rt base w imm o h rfl
  simp only [exec_lh, exec_lw, exec_ld, exec_lhu, exec_lwu, exec_sh, exec_sw, exec_sd, exec_vld, exec_vst, exec_amo]
  refine ⟨fun hne => h.folioIf_bad (loadBad_of_ne hne) _, fun hne => h.folioIf_bad (loadBad_of_ne hne) _,
    fun hne => h.folioIf_bad (loadBad_of_ne hne) _, fun hne => h.folioIf_bad (loadBad_of_ne hne) _,
    fun hne => h.folioIf_bad (loadBad_of_ne hne) _, fun hne => h.folioIf_bad (misaligned_of_ne hne) _,
    fun hne => h.folioIf_bad (misaligned_of_ne hne) _, fun hne => h.folioIf_bad (misaligned_of_ne hne) _,
    fun hne hrt => ?_, fun rs2 fn hfn hne => ?_⟩
  · have hv : vBad rt = false := by simpa [vBad] using hrt
    refine ⟨h.folioIf_bad ?_ _, h.folioIf_bad ?_ _⟩
    · rw [vloadBad, hv, ← loadBad_of_ne hne]
      rfl
    · rw [vmemBad, hv, ← misaligned_of_ne hne]
      rfl
  · exact h.folioIf_bad (by rw [amoBad, if_neg (by omega), loadBad_of_ne hne]) _

end Sys2Proof

/-! ## Vector instructions (R88, R106, Table 3-10) -/

namespace Sys2Proof

open Machine Laws

/-! ### Lanes -/

/-- The number that `n` lanes spell, lane 0 least significant. -/
def laneSum (f : Nat → Lane16) (n : Nat) : Nat := (List.range n).foldl (fun n i => n + (f i).toNat * 2 ^ (16 * i)) 0

theorem laneSum_succ (f : Nat → Lane16) (n : Nat) : laneSum f (n + 1) = laneSum f n + (f n).toNat * 2 ^ (16 * n) := by
  simp [laneSum, List.range_succ]

theorem laneSum_lt (f : Nat → Lane16) (n : Nat) : laneSum f n < 2 ^ (16 * n) := by
  induction n with
  | zero => exact Nat.one_pos
  | succ n ih =>
    have hlane : (f n).toNat + 1 ≤ 2 ^ 16 := (f n).isLt
    calc laneSum f (n + 1) < 2 ^ (16 * n) + (f n).toNat * 2 ^ (16 * n) := by rw [laneSum_succ]; omega
      _ = ((f n).toNat + 1) * 2 ^ (16 * n) := by ring
      _ ≤ 2 ^ 16 * 2 ^ (16 * n) := Nat.mul_le_mul_right _ hlane
      _ = 2 ^ (16 * (n + 1)) := by ring

theorem laneSum_lane (f : Nat → Lane16) {n i : Nat} (h : i < n) : laneSum f n / 2 ^ (16 * i) % 2 ^ 16 = (f i).toNat := by
  induction n with
  | zero => omega
  | succ n ih =>
    rw [laneSum_succ]
    by_cases hi : i = n
    · subst hi
      rw [Nat.add_mul_div_right _ _ (by positivity), Nat.div_eq_of_lt (laneSum_lt f i), Nat.zero_add, Nat.mod_eq_of_lt (f i).isLt]
    · obtain ⟨k, rfl⟩ := Nat.exists_eq_add_of_lt (show i < n by omega)
      have hpow : (f (i + k + 1)).toNat * 2 ^ (16 * (i + k + 1)) = 2 ^ 16 * ((f (i + k + 1)).toNat * 2 ^ (16 * k)) * 2 ^ (16 * i) := by
        ring
      rw [hpow, Nat.add_mul_div_right _ _ (by positivity), Nat.add_mul_mod_self_left, ih (by omega)]

/-- A vector made of lanes has those lanes. -/
theorem vlane_vmake (f : Nat → Lane16) {i : Nat} (h : i < 16) : vlane (vmake f) i = f i := by
  have hlt : laneSum f 16 < 2 ^ 256 := laneSum_lt f 16
  apply BitVec.eq_of_toNat_eq
  rw [vlane, vmake, ← laneSum, BitVec.toNat_ofNat, BitVec.toNat_ofNat, Nat.mod_eq_of_lt hlt, laneSum_lane f h]

/-! ### The results of Table 3-10 -/

theorem laneSat_eq (x : Int) : laneSat x = BitVec.ofInt 16 (max (-32768) (min 32767 x)) := by
  rw [laneSat, satInt, min_comm]
  rfl

theorem laneMulh_eq (a b : Lane16) : BitVec.ofInt 16 (a.toInt * b.toInt / 65536) = (a.signExtend 32 * b.signExtend 32).extractLsb' 16 16 := by
  rw [BitVec.signExtend, BitVec.signExtend, ← BitVec.ofInt_mul, extractLsb'_ofInt (by decide)]
  rfl

theorem laneAbsd_eq (a b : Lane16) : laneAbsd a b = BitVec.ofNat 16 (max a.toNat b.toNat - min a.toNat b.toNat) := by
  have ha := a.isLt
  have hb := b.isLt
  unfold laneAbsd
  apply BitVec.eq_of_toNat_eq
  split <;> simp only [BitVec.ult, decide_eq_true_eq, BitVec.toNat_sub, BitVec.toNat_ofNat] at * <;> omega

theorem laneMask_slt (a b : Lane16) : laneMask (b.slt a) = if b.toInt < a.toInt then BitVec.allOnes 16 else 0 := by
  simp [laneMask, BitVec.slt]

theorem laneMask_ult (a b : Lane16) : laneMask (b.ult a) = if b.toNat < a.toNat then BitVec.allOnes 16 else 0 := by
  simp [laneMask, BitVec.ult]

theorem laneMask_beq (a b : Lane16) : laneMask (a == b) = if a = b then BitVec.allOnes 16 else 0 := by
  simp [laneMask]

/-- In 17 bits the difference of two lanes is exact, so the shift with sign fill is the division. -/
theorem laneEma_eq (k : Nat) (d a : Lane16) :
    laneEma k d a = (d.zeroExtend 17 + (a.zeroExtend 17 - d.zeroExtend 17).sshiftRight k).extractLsb' 0 16 := by
  have hd := d.isLt
  have ha := a.isLt
  have hz (x : Lane16) : x.zeroExtend 17 = BitVec.ofInt 17 x.toNat := by rw [BitVec.ofInt_natCast, BitVec.ofNat_toNat]
  have hi (x : Lane16) : (x.zeroExtend 17).toInt = x.toNat := by
    have hx := x.isLt
    rw [hz, BitVec.toInt_ofInt, Int.bmod_eq_of_le] <;> omega
  have hdiff : (a.zeroExtend 17 - d.zeroExtend 17).toInt = (a.toNat : Int) - d.toNat := by
    rw [BitVec.toInt_sub, hi, hi, Int.bmod_eq_of_le] <;> omega
  rw [BitVec.sshiftRight, hdiff, hz, ← BitVec.ofInt_add, extractLsb'_ofInt (by decide), pow_zero, Int.ediv_one, laneEma,
    Int.shiftRight_eq_div_pow]
  push_cast
  rfl

/-! ### The shapes of vector instructions -/

theorem vBad_of_lt {n : Nat} (h : n < 16) : vBad n = false := by simp [vBad]; omega

theorem vWrites_vset (s : State) (p vd : Nat) (v : VWord) : VWrites s ((passed s p).vset p vd v) p vd v where
  value := by rw [vget_vset, if_pos rfl]
  others n hn := by rw [vget_vset, if_neg hn, vget_passed]
  generals n := by simp
  pc := by simp [State.vset, State.pcOf]
  engine := by simp [State.vset, State.pcOf]
  engines q hq := by rw [State.vset, eng_setEng_ne _ _ hq, eng_passed_ne s hq]
  memory _ := rfl
  rest := rfl

section

variable {s : State} {p : Nat} (h : Runs s p)

include h

/-- The instruction's effect is one write of a vector register. -/
theorem Runs.vWrites {vd : Nat} {v : VWord} {f : State → State} (hf : f (passed s p) = (passed s p).vset p vd v) :
    Ends (s.folio p f) (fun t => VWrites s t p vd v) :=
  h.ends (by rw [hf]; simpa [State.vset, State.pcOf] using h.next_lt) (by rw [hf]; simpa [State.vset] using h.bad)
    (hf ▸ vWrites_vset s p vd v)

/-- The instruction's effect is one vector register made lane by lane. -/
theorem Runs.vLanes {vd : Nat} {g g' : Nat → Lane16} {f : State → State} (hf : f (passed s p) = (passed s p).vset p vd (vmake g))
    (hg : ∀ i, g i = g' i) : Ends (s.folio p f) (fun t => ∃ r, VWrites s t p vd r ∧ ∀ i, i < 16 → vlane r i = g' i) := by
  obtain ⟨t, ht, hw⟩ := h.vWrites hf
  exact ⟨t, ht, _, hw, fun i hi => (vlane_vmake g hi).trans (hg i)⟩

variable {vd vs1 vs2 : Nat} (hd : vd < 16) (h1 : vs1 < 16)

include hd h1

theorem vec2_lanes (h2 : vs2 < 16) {sub : Nat} {f : Lane16 → Lane16 → Lane16} {g : Nat → Lane16}
    (hg : ∀ i, f (vlane (s.vget p vs1) i) (vlane (s.vget p vs2) i) = g i) :
    Ends (vec2 sub p vd vs1 vs2 f s) (fun t => ∃ r, VWrites s t p vd r ∧ ∀ i, i < 16 → vlane r i = g i) := by
  rw [vec2, folioIf_ok (by rw [vBad_of_lt hd, vBad_of_lt h1, vBad_of_lt h2]; rfl)]
  exact h.vLanes rfl (by simpa using hg)

theorem vecK_lanes {sub k : Nat} (hk : k < 16) {f : Nat → Lane16 → Lane16} {g : Nat → Lane16}
    (hg : ∀ i, f k (vlane (s.vget p vs1) i) = g i) :
    Ends (vecK sub p vd vs1 k f s) (fun t => ∃ r, VWrites s t p vd r ∧ ∀ i, i < 16 → vlane r i = g i) := by
  have hmod : k % 64 = k := Nat.mod_eq_of_lt (by omega)
  rw [vecK, hmod, folioIf_ok (by simp [illegalIf, vBad_of_lt hd, vBad_of_lt h1, hk])]
  exact h.vLanes rfl (by simpa using hg)

end

/-- Settles O19: `vec2_lanes` for each, with the lane's result. -/
theorem folioVectorArithmetic : Obligations.FolioVectorArithmetic := by
  unfold Obligations.FolioVectorArithmetic
  intro s p vd vs1 vs2 h hd h1 h2
  simp only [exec_vadd, exec_vsub, exec_vadds, exec_vsubs, exec_vaddus, exec_vsubus, exec_vmul, exec_vmulh, exec_vmulq, exec_vmin,
    exec_vmax, exec_vminu, exec_vmaxu, exec_vabsdu]
  exact ⟨vec2_lanes h hd h1 h2 fun _ => rfl, vec2_lanes h hd h1 h2 fun _ => rfl, vec2_lanes h hd h1 h2 fun _ => laneSat_eq _,
    vec2_lanes h hd h1 h2 fun _ => laneSat_eq _, vec2_lanes h hd h1 h2 fun _ => rfl, vec2_lanes h hd h1 h2 fun _ => rfl,
    vec2_lanes h hd h1 h2 fun _ => rfl, vec2_lanes h hd h1 h2 fun _ => laneMulh_eq _ _, vec2_lanes h hd h1 h2 fun _ => laneSat_eq _,
    vec2_lanes h hd h1 h2 fun _ => ite_slt_eq _ _ id, vec2_lanes h hd h1 h2 fun _ => ite_slt_eq _ _ Eq.symm,
    vec2_lanes h hd h1 h2 fun _ => ite_ult_eq _ _ id, vec2_lanes h hd h1 h2 fun _ => ite_ult_eq _ _ Eq.symm,
    vec2_lanes h hd h1 h2 fun _ => laneAbsd_eq _ _⟩

/-- Settles O20: `vec2_lanes` and `vecK_lanes` for each; VSEL and VEMA also read vd. -/
theorem folioVectorLogic : Obligations.FolioVectorLogic := by
  unfold Obligations.FolioVectorLogic
  intro s p vd vs1 vs2 k h hd h1 h2 hk
  simp only [exec_vand, exec_vor, exec_vxor, exec_vshl, exec_vsrl, exec_vsra, exec_vcgt, exec_vcgtu, exec_vceq, exec_vsel, exec_vema]
  refine ⟨vec2_lanes h hd h1 h2 fun _ => rfl, vec2_lanes h hd h1 h2 fun _ => rfl, vec2_lanes h hd h1 h2 fun _ => rfl,
    vecK_lanes h hd h1 hk fun _ => rfl, vecK_lanes h hd h1 hk fun _ => rfl, vecK_lanes h hd h1 hk fun _ => rfl,
    vec2_lanes h hd h1 h2 fun _ => laneMask_slt _ _, vec2_lanes h hd h1 h2 fun _ => laneMask_ult _ _,
    vec2_lanes h hd h1 h2 fun _ => laneMask_beq _ _, ?_, ?_⟩
  · rw [execVsel, folioIf_ok (by rw [vBad_of_lt hd, vBad_of_lt h1, vBad_of_lt h2]; rfl)]
    exact h.vLanes rfl fun i => by simp only [vget_passed]
  · rw [execVema, Nat.mod_eq_of_lt (show k < 64 by omega), folioIf_ok (by simp [illegalIf, vBad_of_lt hd, vBad_of_lt h1, hk])]
    exact h.vLanes rfl fun i => by rw [vget_passed, vget_passed, laneEma_eq]

/-! ### Between vector and general registers -/

/-- The number with a bit for each of the first `n` indices that `c` names. -/
def bitSum (c : Nat → Prop) [DecidablePred c] (n : Nat) : Nat := (List.range n).foldl (fun n i => if c i then n else n + 2 ^ i) 0

theorem bitSum_lt (c : Nat → Prop) [DecidablePred c] (n : Nat) : bitSum c n < 2 ^ n := by
  induction n with
  | zero => exact Nat.one_pos
  | succ n ih =>
    have hsucc : bitSum c (n + 1) = if c n then bitSum c n else bitSum c n + 2 ^ n := by simp [bitSum, List.range_succ]
    rw [hsucc, Nat.pow_succ]
    split <;> omega

theorem testBit_bitSum (c : Nat → Prop) [DecidablePred c] (n i : Nat) : (bitSum c n).testBit i = (decide (i < n) && !decide (c i)) := by
  induction n with
  | zero => simp [bitSum]
  | succ n ih =>
    have hsucc : bitSum c (n + 1) = if c n then bitSum c n else 2 ^ n + bitSum c n := by simp [bitSum, List.range_succ, Nat.add_comm]
    have hlt := bitSum_lt c n
    rw [hsucc]
    rcases lt_trichotomy i n with hi | rfl | hi
    · rw [decide_eq_true hi] at ih
      rw [decide_eq_true (Nat.lt_succ_of_lt hi), ← ih]
      split
      · rfl
      · exact Nat.testBit_two_pow_add_gt hi _
    · have hbit := Nat.testBit_lt_two_pow hlt
      split
      · simp [*]
      · simp [*, Nat.testBit_two_pow_add_eq]
    · have hpow : 2 ^ (n + 1) ≤ 2 ^ i := Nat.pow_le_pow_right (by decide) hi
      rw [Nat.testBit_lt_two_pow (by rw [← hsucc]; exact (bitSum_lt c (n + 1)).trans_le hpow)]
      simp [hi]

/-- Settles O21. -/
theorem folioVectorRegisters : Obligations.FolioVectorRegisters := by
  unfold Obligations.FolioVectorRegisters
  intro s p rd r v k h hv hk
  have hmod : k % 64 = k := Nat.mod_eq_of_lt (by omega)
  have hword : BitVec.ofNat 16 (s.gnum p r) = (s.gget p r).setWidth 16 := BitVec.ofNat_toNat ..
  simp only [exec_vsplat, exec_vins, exec_vextu, exec_vredadd, exec_vany]
  refine ⟨?_, ?_, ?_, ?_, ?_⟩
  · rw [execVsplat, folioIf_ok (by rw [vBad_of_lt hv]; rfl)]
    exact h.vLanes rfl fun i => by rw [gnum_passed, hword]
  · rw [execVins, hmod, folioIf_ok (by simp [illegalIf, vBad_of_lt hv, hk])]
    exact h.vLanes rfl fun i => by rw [gnum_passed, hword, vget_passed]
  · rw [execVextu, hmod, folioIf_ok (by simp [illegalIf, vBad_of_lt hv, hk])]
    exact h.gWrites (by rw [vget_passed, State.gnat, BitVec.ofNat_toNat])
  · rw [execVredadd, folioIf_ok (by rw [vBad_of_lt hv]; rfl)]
    exact h.gWrites (by rw [List.sum_eq_foldl, List.foldl_map]; simp only [vget_passed])
  · rw [execVany, folioIf_ok (by rw [vBad_of_lt hv]; rfl)]
    obtain ⟨t, ht, hw⟩ := h.gWrites (rd := rd) (f := fun s => s.gnat p rd (bitSum (fun i => vlane (s.vget p v) i = 0) 16)) rfl
    refine ⟨t, ht, _, hw, fun i hi => ?_⟩
    rw [BitVec.getLsbD_ofNat, testBit_bitSum, vget_passed]
    rw [decide_eq_true hi, Bool.true_and, bne, beq_eq_decide]

end Sys2Proof

/-! ## Loads, stores and atomic operations (R9, R81 to R83, R91, R92, R107, R111, Tables 3-1 and 3-12) -/

namespace Sys2Proof

open Machine Laws

/-! ### Bytes and words of memory -/

@[simp] theorem length_memRead (m : List Host.Cell) (a n : Nat) : (Mem.read m a n).length = n := by
  induction n generalizing a with
  | zero => rfl
  | succ n ih => simp [Mem.read, ih]

/-- A byte that was just written. -/
theorem mem_get_write_in {bs : List Byte} (m : List Host.Cell) (a : Nat) {k : Nat} (h : k < bs.length) :
    Mem.get (Mem.write m a bs) (a + k) = bs[k] := by
  induction bs generalizing m a k with
  | nil => exact absurd h (Nat.not_lt_zero k)
  | cons b bs ih =>
    rw [Mem.write]
    cases k with
    | zero => rw [mem_get_write_out _ _ _ (.inl (by omega)), Nat.add_zero, mem_get_put_self, List.getElem_cons_zero]
    | succ k => rw [show a + (k + 1) = a + 1 + k by omega, ih _ _ (by simpa using h), List.getElem_cons_succ]

theorem getElem_leBytes {n k : Nat} (v : Nat) (h : k < (leBytes n v).length) : (leBytes n v)[k] = BitVec.ofNat 8 (v / 256 ^ k) := by
  induction n generalizing v k with
  | zero => exact absurd h (Nat.not_lt_zero k)
  | succ n ih =>
    cases k with
    | zero => simp [leBytes]
    | succ k => simp only [leBytes, List.getElem_cons_succ, ih, Nat.div_div_eq_div_mul, Nat.pow_succ']

theorem leNat_append (bs cs : List Byte) : leNat (bs ++ cs) = leNat bs + 256 ^ bs.length * leNat cs := by
  induction bs with
  | nil => simp [leNat]
  | cons b bs ih => simp only [List.cons_append, leNat, ih, List.length_cons, pow_succ']; ring

theorem toNat_append_add {v w : Nat} (x : BitVec v) (y : BitVec w) : (x ++ y).toNat = y.toNat + 2 ^ w * x.toNat := by
  rw [BitVec.toNat_append, ← Nat.shiftLeft_add_eq_or_of_lt y.isLt, Nat.shiftLeft_eq]
  ring

theorem leNat_read_1 (s : State) (a : Nat) : leNat (Mem.read s.mem a 1) = (Mem.get s.mem a).toNat := by simp [Mem.read, leNat]

theorem leNat_read_2 (s : State) (a : Nat) : leNat (Mem.read s.mem a 2) = (word16 s a).toNat := by
  rw [mem_read_append s.mem a 1 1, leNat_append, leNat_read_1, leNat_read_1, word16, toNat_append_add]
  simp

theorem leNat_read_4 (s : State) (a : Nat) : leNat (Mem.read s.mem a 4) = (word32 s a).toNat := by
  rw [mem_read_append s.mem a 2 2, leNat_append, leNat_read_2, leNat_read_2, word32, toNat_append_add]
  simp

theorem leNat_read_8 (s : State) (a : Nat) : leNat (Mem.read s.mem a 8) = (word64 s a).toNat := by
  rw [mem_read_append s.mem a 4 4, leNat_append, leNat_read_4, leNat_read_4, word64, toNat_append_add]
  simp

/-- The sign extension of a number that a word spells is that of the word. -/
theorem sext_toNat {w : Nat} (hw : 0 < w) (x : BitVec w) : sext w x.toNat = x.signExtend 64 := by
  rw [sext_eq hw, BitVec.ofNat_toNat, BitVec.setWidth_eq]

/-! ### Local memory (Table 3-1) -/

/-- The program area ends below the fault records (Table 3-1). -/
theorem contextBase_le (p : Nat) : contextBase p ≤ faultBase p := by
  unfold contextBase faultBase
  split <;> decide

/-- Local memory ends at a multiple of every access size. -/
theorem faultEnd_mod (p : Nat) : (faultBase p + 0x400) % 32 = 0 := by
  unfold faultBase
  split <;> rfl

/-- The slice table and the fault records do not meet (Table 3-1). -/
theorem sliceTable_end (p : Nat) : sliceTable p + 0x400 = faultBase p := by
  unfold sliceTable faultBase
  split <;> rfl

theorem localOpen_of_lt {p o : Nat} (h : o < contextBase p) : localOpen p o = true := by simp [localOpen, h]

theorem localWrite_of_good {s : State} {p : Nat} (hb : (s.eng p).bad = []) (o : Nat) (bs : List Byte) :
    localWrite s p o bs = { s with mem := Mem.write s.mem (localBase p + o) bs } := by
  simp only [localWrite, hb, if_true]

/-- An aligned access below an aligned limit lies below it whole. -/
theorem aligned_le {o n e : Nat} (ho : o % n = 0) (he : e % n = 0) (h : o < e) : o + n ≤ e := by
  obtain ⟨k, rfl⟩ := Nat.dvd_of_mod_eq_zero ho
  obtain ⟨j, rfl⟩ := Nat.dvd_of_mod_eq_zero he
  have hkj : k < j := Nat.lt_of_mul_lt_mul_left h
  calc n * k + n = n * (k + 1) := by ring
    _ ≤ n * j := Nat.mul_le_mul_left n hkj

theorem memLoad_local {p o n : Nat} (s : State) (hn : 0 < n) (h : o + n ≤ faultBase p + 0x400) : memLoad s p 0 o n = (s, s.local p o n) := by
  have hdark {x : Nat} (hx : x < faultBase p + 0x400) : localDark p x = false := by simpa [localDark] using hx
  rw [memLoad, if_pos rfl, hdark (by omega), hdark (by omega)]
  rfl

theorem memStore_local {s : State} {p o n : Nat} (hb : (s.eng p).bad = []) (hn : 0 < n) (h : o + n ≤ contextBase p) (v : Nat) :
    memStore s p 0 o n v = { s with mem := Mem.write s.mem (localBase p + o) (leBytes n v) } := by
  rw [memStore, if_pos rfl, localOpen_of_lt (by omega), localOpen_of_lt (by omega), localWrite_of_good hb]
  rfl

theorem memStore_closed {p o : Nat} (s : State) (n v : Nat) (h : localOpen p o = false) : memStore s p 0 o n v = s := by
  rw [memStore, if_pos rfl, h]
  rfl

/-- Bytes stored in local memory, in the state in which an instruction has its effect. -/
theorem stores_write (s : State) (p a n v : Nat) : Stores s { passed s p with mem := Mem.write s.mem a (leBytes n v) } p a n v where
  bytes k hk := by rw [mem_get_write_in s.mem a (by simpa using hk), getElem_leBytes]
  others x hx := mem_get_write_out _ _ _ (by simpa using hx)
  pc := pcOf_passed s p
  engine := (jumps_passed s p).engine
  engines q hq := eng_passed_ne s hq
  rest := rfl

section

variable {s : State} {p rt base imm o n : Nat} (h : Runs s p) (ho : o = s.offset p base imm) (ha : o % n = 0)

include h ho ha

theorem load_local_gWrites {op : Nat} {sgn : Bool} {v : Word} (hn : 0 < n) (hend : o + n ≤ faultBase p + 0x400)
    (hv : (if sgn then sext (8 * n) (leNat (Mem.read s.mem (localBase p + o) n)) else
      BitVec.ofNat 64 (leNat (Mem.read s.mem (localBase p + o) n))) = v) :
    Ends (load op n sgn p rt base 0 imm s) (fun t => GWrites s t p rt v) := by
  subst ho
  rw [load, folioIf_ok (loadBad_of_eq ha h.bad)]
  refine h.gWrites ?_
  rw [offset_passed, memLoad_local _ hn hend]
  exact congrArg ((passed s p).gset p rt) hv

theorem store_local_stores {op : Nat} (hn : 0 < n) (hend : o + n ≤ contextBase p) :
    Ends (store op n p rt base 0 imm s) (fun t => Stores s t p (localBase p + o) n (s.gget p rt).toNat) := by
  subst ho
  have hb : ((passed s p).eng p).bad = [] := by simpa using h.bad
  have heff := memStore_local hb hn hend (s.gnum p rt)
  rw [store, folioIf_ok (misaligned_of_eq ha)]
  refine h.ends ?_ ?_ ?_ <;> rw [offset_passed, gnum_passed, heff]
  · exact h.next_lt.trans_eq' (pcOf_passed s p).symm
  · exact hb
  · exact stores_write ..

theorem store_local_closed {op : Nat} (hclosed : localOpen p o = false) :
    Ends (store op n p rt base 0 imm s) (fun t => Jumps s t p (s.pcOf p + 4)) := by
  subst ho
  rw [store, folioIf_ok (misaligned_of_eq ha)]
  exact h.passes (by rw [offset_passed, memStore_closed _ _ _ hclosed])

end

/-- Settles O10: `load_local_gWrites` with the word that the bytes spell. -/
theorem folioLoadsLocal : Obligations.FolioLoadsLocal := by
  unfold Obligations.FolioLoadsLocal
  intro s p rt base imm o h ho hlt
  have hoff : o = s.offset p base imm := by rw [ho, State.offset, sext_eq (by decide)]
  have hmod := faultEnd_mod p
  simp only [exec_lb, exec_lbu, exec_lh, exec_lhu, exec_lw, exec_lwu, exec_ld]
  refine ⟨?_, ?_, fun ha => ⟨?_, ?_⟩, fun ha => ⟨?_, ?_⟩, fun ha => ?_⟩
  · exact load_local_gWrites h hoff (Nat.mod_one o) (by decide) (by omega) (by rw [leNat_read_1]; exact sext_toNat (by decide) _)
  · exact load_local_gWrites h hoff (Nat.mod_one o) (by decide) (by omega) (by rw [leNat_read_1]; exact BitVec.ofNat_toNat ..)
  · exact load_local_gWrites h hoff ha (by decide) (by omega) (by rw [leNat_read_2]; exact sext_toNat (by decide) _)
  · exact load_local_gWrites h hoff ha (by decide) (by omega) (by rw [leNat_read_2]; exact BitVec.ofNat_toNat ..)
  · exact load_local_gWrites h hoff ha (by decide) (by omega) (by rw [leNat_read_4]; exact sext_toNat (by decide) _)
  · exact load_local_gWrites h hoff ha (by decide) (by omega) (by rw [leNat_read_4]; exact BitVec.ofNat_toNat ..)
  · exact load_local_gWrites h hoff ha (by decide) (by omega)
      (by rw [leNat_read_8]; exact (sext_toNat (by decide) _).trans (BitVec.signExtend_eq _))

/-- Settles O11. -/
theorem folioStoresLocal : Obligations.FolioStoresLocal := by
  unfold Obligations.FolioStoresLocal
  intro s p rt base imm o h ho
  have hoff : o = s.offset p base imm := by rw [ho, State.offset, sext_eq (by decide)]
  simp only [exec_sb, exec_sh, exec_sw, exec_sd]
  refine ⟨fun hend => ⟨?_, fun ha => ?_, fun ha => ?_, fun ha => ?_⟩, fun hlo htab => ?_⟩
  · exact store_local_stores h hoff (Nat.mod_one o) (by decide) (by omega)
  · exact store_local_stores h hoff ha (by decide) (by omega)
  · exact store_local_stores h hoff ha (by decide) (by omega)
  · exact store_local_stores h hoff ha (by decide) (by omega)
  · have hclosed : localOpen p o = false := by
      simp only [localOpen, Bool.or_eq_false_iff, decide_eq_false_iff_not, Bool.and_eq_false_iff, beq_eq_false_iff_ne]
      by_cases hp : p = registrar
      · have := htab hp
        omega
      · exact ⟨Nat.not_lt.2 hlo, .inl (.inl hp)⟩
    exact ⟨store_local_closed h hoff (Nat.mod_one o) hclosed, fun ha => store_local_closed h hoff ha hclosed,
      fun ha => store_local_closed h hoff ha hclosed, fun ha => store_local_closed h hoff ha hclosed⟩

end Sys2Proof

/-! ## Windows, atomic operations and vector accesses (R9, R83, R91, R92, R107, R111, R359, Table 3-12) -/

namespace Sys2Proof

open Machine Laws

/-! ### The Stacks behind a window -/

theorem peekBytes_stacks {s : State} {a n : Nat} (h : a + n ≤ stacksSize) (hf : s.frozen = false) : s.peekBytes a n = Mem.read s.mem a n := by
  induction n generalizing a with
  | zero => rfl
  | succ n ih =>
    have harea : areaOf a = .stacks := areaOf_eq_stacks.2 (by omega)
    rw [State.peekBytes, ih (by omega), Mem.read]
    simp [State.peek, harea, hf]

/-- The frozen Stacks read as zero (R359). -/
theorem leNat_peekBytes_frozen {s : State} {a n : Nat} (h : a + n ≤ stacksSize) (hf : s.frozen = true) : leNat (s.peekBytes a n) = 0 := by
  induction n generalizing a with
  | zero => rfl
  | succ n ih =>
    have harea : areaOf a = .stacks := areaOf_eq_stacks.2 (by omega)
    rw [State.peekBytes, leNat, ih (by omega)]
    simp [State.peek, harea, hf]

theorem deviceRead_stacks {s : State} {a : Nat} (p n : Nat) (h : a < stacksSize) : deviceRead s p a n = (s, leNat (s.peekBytes a n)) := by
  have harea : areaOf a = .stacks := areaOf_eq_stacks.2 h
  simp [deviceRead, memFetch, harea]

/-- A byte of the Stacks written leaves every other byte of memory. -/
theorem mem_get_poke_ne (s : State) {a x : Nat} (b : Byte) (h : x ≠ a) : Mem.get (s.poke a b).mem x = Mem.get s.mem x := by
  unfold State.poke
  have hput : Mem.get (Mem.put s.mem a b) x = Mem.get s.mem x := mem_get_put_ne _ _ h
  split
  · split
    · rfl
    · exact hput
  · exact hput
  · exact hput
  · rfl

theorem mem_get_pokeList_out (s : State) {a x : Nat} (bs : List Byte) (h : x < a ∨ a + bs.length ≤ x) :
    Mem.get (s.pokeList a bs).mem x = Mem.get s.mem x := by
  induction bs generalizing s a with
  | nil => rfl
  | cons b bs ih =>
    rw [List.length_cons] at h
    rw [State.pokeList, ih _ (by omega), mem_get_poke_ne _ _ (by omega)]

theorem mem_get_pokeBytes_out (s : State) {a x : Nat} (bs : List Byte) (h : x < a ∨ a + bs.length ≤ x) :
    Mem.get (s.pokeBytes a bs).mem x = Mem.get s.mem x := by
  rw [pokeBytes_mem, mem_get_pokeList_out s bs h]

/-- A store into the Stacks is dropped or lands in its own bytes, and reaches memory and the records for the partner alone. -/
theorem deviceWrite_stacks {s : State} {a : Nat} (p n v : Nat) (h : a < stacksSize) :
    (deviceWrite s p a n v).regs = s.regs ∧ (deviceWrite s p a n v).engines = s.engines ∧
      ∀ x, (x < a ∨ a + n ≤ x) → Mem.get (deviceWrite s p a n v).mem x = Mem.get s.mem x := by
  have harea : areaOf a = .stacks := areaOf_eq_stacks.2 h
  simp only [deviceWrite, harea]
  split
  · exact ⟨rfl, rfl, fun _ _ => rfl⟩
  · exact ⟨by rw [pokeBytes_frame], by rw [pokeBytes_frame], fun x hx => mem_get_pokeBytes_out s _ (by simpa using hx)⟩

@[simp] theorem window_passed (s : State) (p w : Nat) : (passed s p).window p w = s.window p w := by
  simp only [State.window, eng_passed_self]
  rfl

/-! ### Accesses of eight bytes through a window -/

section

variable {s : State} {p rt base imm w o : Nat} (h : Runs s p) (hw : 1 ≤ w) (hw7 : w ≤ 7) (ho : o = s.offset p base imm) (ha : o % 8 = 0)

include h ho ha

theorem execLd_folio : execLd p rt base w imm s = s.folio p (fun s =>
    (memLoad s p w (s.offset p base imm) 8).1.gset p rt (BitVec.ofNat 64 (memLoad s p w (s.offset p base imm) 8).2)) := by
  subst ho
  have hsext (v : Nat) : sext 64 v = BitVec.ofNat 64 v := by rw [sext_eq (by decide), BitVec.signExtend_eq]
  rw [execLd, load, folioIf_ok (loadBad_of_eq ha h.bad)]
  simp only [if_true, Nat.reduceMul, hsext]

omit h in
theorem execSd_folio : execSd p rt base w imm s = s.folio p (fun s => memStore s p w (s.offset p base imm) 8 (s.gnum p rt)) := by
  subst ho
  rw [execSd, store, folioIf_ok (misaligned_of_eq ha)]

include hw hw7

theorem execLd_closed (hclosed : ((s.window p w).holds o 8 && (s.window p w).rd) = false) :
    Ends (execLd p rt base w imm s) (fun t => GWrites s t p rt 0) := by
  rw [execLd_folio h ho ha]
  refine h.gWrites ?_
  rw [offset_passed, ← ho, memLoad, if_neg (by omega), Nat.mod_eq_of_lt (by omega : w < 8), window_passed]
  simp only [hclosed]
  rfl

theorem execSd_closed (hclosed : ((s.window p w).holds o 8 && (s.window p w).wr) = false) :
    Ends (execSd p rt base w imm s) (fun t => Jumps s t p (s.pcOf p + 4)) := by
  rw [execSd_folio ho ha]
  refine h.passes ?_
  rw [offset_passed, ← ho, memStore, if_neg (by omega), Nat.mod_eq_of_lt (by omega : w < 8), window_passed]
  simp only [hclosed]
  rfl

variable (hlog : (s.window p w).log2 ≠ 0) (hin : o + 8 ≤ 2 ^ (s.window p w).log2) (hst : (s.window p w).base + o + 8 ≤ stacksSize)

include hlog hin hst

theorem execLd_stacks (hr : (s.window p w).rd = true) : Ends (execLd p rt base w imm s)
    (fun t => GWrites s t p rt (if s.frozen then 0 else word64 s ((s.window p w).base + o))) := by
  have hsize : stacksSize < 2 ^ 64 := by decide
  have haddr : (s.window p w).addr o = (s.window p w).base + o := Nat.mod_eq_of_lt (by omega)
  have hload : memLoad (passed s p) p w o 8 = (passed s p, leNat (s.peekBytes ((s.window p w).base + o) 8)) := by
    rw [memLoad, if_neg (by omega), Nat.mod_eq_of_lt (by omega : w < 8), window_passed]
    simp [Window.holds, hlog, hin, hr, haddr, deviceRead_stacks p 8 (by omega : (s.window p w).base + o < stacksSize)]
    rfl
  rw [execLd_folio h ho ha]
  refine h.gWrites ?_
  rw [offset_passed, ← ho, hload]
  cases hf : s.frozen with
  | true => rw [leNat_peekBytes_frozen hst hf]; rfl
  | false => rw [peekBytes_stacks hst hf, leNat_read_8, BitVec.ofNat_toNat, BitVec.setWidth_eq]; rfl

theorem execSd_stacks (hr : (s.window p w).wr = true) : Ends (execSd p rt base w imm s) (fun t => t.regs = s.regs ∧
    t.engines = (passed s p).engines ∧
    ∀ x, (x < (s.window p w).base + o ∨ (s.window p w).base + o + 8 ≤ x) → Mem.get t.mem x = Mem.get s.mem x) := by
  have hsize : stacksSize < 2 ^ 64 := by decide
  have haddr : (s.window p w).addr o = (s.window p w).base + o := Nat.mod_eq_of_lt (by omega)
  have hstore : memStore (passed s p) p w o 8 (s.gnum p rt) = deviceWrite (passed s p) p ((s.window p w).base + o) 8 (s.gnum p rt) := by
    rw [memStore, if_neg (by omega), Nat.mod_eq_of_lt (by omega : w < 8), window_passed]
    simp [Window.holds, hlog, hin, hr, haddr]
  obtain ⟨hregs, heng, hmem⟩ := deviceWrite_stacks (s := passed s p) p 8 (s.gnum p rt) (by omega : (s.window p w).base + o < stacksSize)
  rw [execSd_folio ho ha]
  refine h.ends ?_ ?_ ?_ <;> rw [offset_passed, ← ho, gnum_passed, hstore]
  · rw [State.pcOf, eng_congr heng]
    exact h.next_lt.trans_eq' (pcOf_passed s p).symm
  · rw [eng_congr heng, eng_passed_self]
    exact h.bad
  · exact ⟨hregs, heng, hmem⟩

end

/-- Settles O12: the four accesses by `execLd_closed`, `execSd_closed`, `execLd_stacks` and `execSd_stacks`. -/
theorem folioWindows : Obligations.FolioWindows := by
  unfold Obligations.FolioWindows
  intro s p rt base imm w o h hw hw7 ho ha
  rw [exec_ld, exec_sd]
  exact ⟨execLd_closed h hw hw7 ho ha, execSd_closed h hw hw7 ho ha, fun hlog hin hst =>
    ⟨execLd_stacks h hw hw7 ho ha hlog hin hst, execSd_stacks h hw hw7 ho ha hlog hin hst⟩⟩

/-! ### AMO (R92) -/

theorem amoWord_eq {fn : Nat} {w v n : Word} (hfn : fn ≤ 3) (h0 : fn = 0 → n = w + v) (h1 : fn = 1 → n = v)
    (h2 : fn = 2 → n = if w.toNat ≤ v.toNat then v else w) (h3 : fn = 3 → n = if w.toNat ≤ v.toNat then w else v) : amoWord fn w v = n := by
  obtain rfl | rfl | rfl | rfl : fn = 0 ∨ fn = 1 ∨ fn = 2 ∨ fn = 3 := by omega
  · exact (h0 rfl).symm
  · exact (h1 rfl).symm
  · exact (ite_ult_eq w v Eq.symm).trans (h2 rfl).symm
  · exact (ite_ult_eq w v id).trans (h3 rfl).symm

/-- Settles O15: `amoWord_eq` gives the word stored. -/
theorem folioAtomic : Obligations.FolioAtomic := by
  unfold Obligations.FolioAtomic
  intro s p rt base rs2 fn o h ho ha
  simp only [exec_amo]
  refine ⟨?_, fun w hlo hhi => h.folioIf_bad (by rw [amoBad, if_pos (by omega)]) _⟩
  rintro hend w v n rfl rfl h0 h1 h2 h3 hfn
  have hmod : fn % 8 = fn := Nat.mod_eq_of_lt (by omega)
  have hb : ((passed s p).eng p).bad = [] := by simpa using h.bad
  have hfault := contextBase_le p
  have hdo : amoDo (passed s p) p 0 o fn (s.gget p rs2) =
      ({ passed s p with mem := Mem.write s.mem (localBase p + o) (leBytes 8 n.toNat) }, word64 s (localBase p + o)) := by
    have hload : memLoad (passed s p) p 0 o 8 = (passed s p, (word64 s (localBase p + o)).toNat) := by
      rw [memLoad_local _ (by decide) (by omega), ← leNat_read_8]
      rfl
    simp [amoDo, hload, amoWord_eq hfn h0 h1 h2 h3, memStore_local hb (by decide) hend]
  rw [execAmo, folioIf_ok (by rw [amoBad, if_neg (by omega), loadBad_of_eq (ho ▸ ha) h.bad])]
  refine h.ends ?_ ?_ ?_ <;> rw [offset_passed, ← ho, gget_passed, hmod, hdo]
  · rw [pcOf_gset]
    exact h.next_lt.trans_eq' (pcOf_passed s p).symm
  · rw [bad_gset]
    exact hb
  · exact ⟨_, stores_write .., rfl⟩

/-! ### VLD and VST (R107) -/

theorem leNat_drop (bs : List Byte) (k : Nat) : leNat (bs.drop k) = leNat bs / 256 ^ k := by
  induction k generalizing bs with
  | zero => simp
  | succ k ih =>
    cases bs with
    | nil => simp [leNat]
    | cons b bs =>
      have hb := b.isLt
      rw [List.drop_succ_cons, ih, leNat, pow_succ', ← Nat.div_div_eq_div_mul, Nat.add_mul_div_left _ _ (by decide),
        Nat.div_eq_of_lt hb, Nat.zero_add]

/-- Lane `i` of thirty-two bytes read as a vector is the word of bytes 2i and 2i + 1. -/
theorem vlane_read (s : State) (a : Nat) {i : Nat} (h : i < 16) :
    vlane (BitVec.ofNat 256 (leNat (Mem.read s.mem a 32))) i = word16 s (a + 2 * i) := by
  have hlt : leNat (Mem.read s.mem a 32) < 2 ^ 256 := by
    have hbound := leNat_lt (Mem.read s.mem a 32)
    rw [length_memRead] at hbound
    exact hbound
  have hsplit : Mem.read s.mem a 32 = Mem.read s.mem a (2 * i) ++ (Mem.read s.mem (a + 2 * i) 2 ++ Mem.read s.mem (a + 2 * i + 2) (30 - 2 * i)) := by
    rw [← mem_read_append, ← mem_read_append]
    congr 1
    omega
  have hpow : 2 ^ (16 * i) = 256 ^ (2 * i) := by rw [show (256 : Nat) = 2 ^ 8 by rfl, ← pow_mul]; congr 1; ring
  apply BitVec.eq_of_toNat_eq
  rw [vlane, BitVec.toNat_ofNat, BitVec.toNat_ofNat, Nat.mod_eq_of_lt hlt, hpow, ← leNat_drop, hsplit,
    List.drop_left' (length_memRead ..), leNat_append, leNat_read_2, length_memRead,
    show (2 : Nat) ^ 16 = 256 ^ 2 by rfl, Nat.add_mul_mod_self_left,
    show (256 : Nat) ^ 2 = 2 ^ 16 by rfl, Nat.mod_eq_of_lt (word16 s _).isLt]

/-- Settles O22: a vector read from memory has the lanes of `vlane_read`. -/
theorem folioVectorMemory : Obligations.FolioVectorMemory := by
  unfold Obligations.FolioVectorMemory
  intro s p vt base imm o h hvt ho ha
  have hoff : s.offset p base imm % 32 = 0 := ho ▸ ha
  rw [exec_vld, exec_vst]
  refine ⟨fun hlt => ?_, fun hend => ?_⟩
  · have hend := aligned_le ha (faultEnd_mod p) hlt
    rw [execVld, folioIf_ok (by rw [vloadBad, vBad_of_lt hvt, ← loadBad_of_eq hoff h.bad]; rfl)]
    obtain ⟨t, ht, hw⟩ := h.vWrites (vd := vt) (f := fun s => (memLoad s p 0 (s.offset p base imm) 32).1.vset p vt
      (BitVec.ofNat 256 (memLoad s p 0 (s.offset p base imm) 32).2)) (by rw [offset_passed, ← ho, memLoad_local _ (by decide) hend])
    exact ⟨t, ht, _, hw, fun i hi => vlane_read s _ hi⟩
  · have hb : ((passed s p).eng p).bad = [] := by simpa using h.bad
    rw [execVst, folioIf_ok (by rw [vmemBad, vBad_of_lt hvt, ← misaligned_of_eq hoff]; rfl)]
    refine h.ends ?_ ?_ ?_ <;> rw [offset_passed, ← ho, vget_passed, memStore_local hb (by decide) hend]
    · exact h.next_lt.trans_eq' (pcOf_passed s p).symm
    · exact hb
    · exact stores_write ..

end Sys2Proof

/-! ## Device instructions that read (R94, R98, R103, R105, R111, Tables 1-11, 3-7 to 3-9) -/

namespace Sys2Proof

open Machine Laws

/-- A device instruction that reads: what it reads, in the state in which it has its effect, is what rd takes. -/
theorem Runs.reads {s : State} {p rd v : Nat} {g : State → Nat} (h : Runs s p) (hv : g (passed s p) = v) :
    Ends (devOp p rd (fun s => (s, g s)) s) (fun t => GWrites s t p rd (BitVec.ofNat 64 v)) :=
  h.gWrites (by simp only [hv]; rfl)

/-! ### The Ledger -/

theorem ledShown_of_none {s : State} (h : s.led.final = none) : ledShown s = s.led.snap := by simp [ledShown, h]

/-- Block, number and word in the operand of LEDGER.READ. -/
theorem ledRead_place {s : State} {b i w o : Nat} (hb : 1 ≤ b) (hb7 : b < 8) (hi : i < 256) (hw : w < 8) (hfinal : s.led.final = none)
    (ho : ledPlace b i w = some o) : ledRead s (w + 8 * i + 4096 * b) = Tbl.get 0 s.led.snap o := by
  have hword : bits (w + 8 * i + 4096 * b) 0 3 = w := by simp [bits]; omega
  have hinst : bits (w + 8 * i + 4096 * b) 3 8 = i := by simp [bits]; omega
  have hblock : bits (w + 8 * i + 4096 * b) 12 3 = b := by simp [bits]; omega
  simp only [ledRead, hword, hinst, hblock, if_neg (by omega : b ≠ 0), ho, ledShown_of_none hfinal]

theorem Runs.ledgerRead {s : State} {p rd rs1 b i w o : Nat} (h : Runs s p) (hx : s.gnum p rs1 = w + 8 * i + 4096 * b) (hb : 1 ≤ b)
    (hb7 : b < 8) (hi : i < 256) (hw : w < 8) (hfinal : s.led.final = none) (ho : ledPlace b i w = some o) :
    Ends (execLedgerRead p rd rs1 s) (fun t => GWrites s t p rd (BitVec.ofNat 64 (Tbl.get 0 s.led.snap o))) := by
  refine h.reads ?_
  rw [gnum_passed, hx]
  exact ledRead_place hb hb7 hi hw hfinal ho

/-! ### Windows and special registers -/

theorem catWin_eq {s : State} {p k : Nat} (h1 : 1 ≤ k) (h7 : k ≤ 7) :
    catWin s p k = if (s.window p k).log2 = 0 then 0 else (s.window p k).base := by
  by_cases hz : (s.window p k).log2 = 0 <;> simp [catWin, h1, h7, hz]

theorem catWsize_eq {s : State} {p k : Nat} (h1 : 1 ≤ k) (h7 : k ≤ 7) :
    catWsize s p k = if (s.window p k).log2 = 0 then 0 else 2 ^ (s.window p k).log2 := by
  by_cases hz : (s.window p k).log2 = 0 <;> simp [catWsize, h1, h7, hz]

theorem csrWindow_base {k : Nat} (h1 : 1 ≤ k) (h7 : k ≤ 7) : csrWindow (0x10 + 2 * (k - 1)) = some (k, false) := by
  simp [csrWindow]
  omega

theorem csrRead_base {s : State} {p k : Nat} (h1 : 1 ≤ k) (h7 : k ≤ 7) :
    csrRead s p (0x10 + 2 * (k - 1)) = if p = registrar then Tbl.get 0 (s.eng p).winb k else 0 := by
  simp only [csrRead, csrWindow_base h1 h7, ne_eq, if_neg (by omega : ¬ 0x10 + 2 * (k - 1) = 0), if_neg (by omega : ¬ 0x10 + 2 * (k - 1) = 1),
    if_neg (by omega : ¬ 0x10 + 2 * (k - 1) = 2), if_neg (by omega : ¬ 0x10 + 2 * (k - 1) = 3), if_neg (by omega : ¬ 0x10 + 2 * (k - 1) = 4),
    ite_not]

/-- The special registers read what no fetch changes. -/
theorem csrRead_passed (s : State) (p c : Nat) : csrRead (passed s p) p c = csrRead s p c := by
  simp only [csrRead, coreCycles, cyclesNow, eng_passed_self]
  rfl

theorem Runs.csr {s : State} {p rd c v : Nat} (h : Runs s p) (hc : c < 2048) (hv : csrRead s p c = v) :
    Ends (execSysCsrr p rd c s) (fun t => GWrites s t p rd (BitVec.ofNat 64 v)) :=
  h.reads (by rw [Nat.mod_eq_of_lt hc, csrRead_passed, hv])

/-- Settles O25: each value is read in a state that differs from `s` in a pc alone. -/
theorem folioReads : Obligations.FolioReads := by
  unfold Obligations.FolioReads
  rintro s p rd rs1 k x i w h rfl
  simp only [exec_ledgerSeq, exec_ledgerLine, exec_ledgerRead, exec_timeNow, exec_timeCap, exec_timeCapn, exec_catAddr, exec_catGen,
    exec_catWin, exec_catWsize, exec_sysCsrr]
  refine ⟨h.reads rfl, fun hfinal => h.reads ?_, fun hfinal hw => ⟨fun hi hx => ?_, fun hi hx => ?_, fun hi hw4 hx => ?_,
    fun hi hw4 hx => ?_, fun hi hw2 hx => ?_⟩, h.reads rfl, fun hx => ⟨h.reads ?_, h.reads ?_⟩, fun hx => ⟨h.reads ?_, h.reads ?_⟩,
    fun h1 h7 => ⟨h.reads ?_, h.reads ?_⟩, h.csr (by decide) ?_, h.csr (by decide) ?_,
    fun hp => h.csr (by decide) ?_, fun hp => h.csr (by decide) ?_, fun h1 h7 => h.csr (by omega) (csrRead_base h1 h7)⟩
  case refine_1 => exact (show ledLine s = _ by simp [ledLine, hfinal])
  case refine_2 => exact h.ledgerRead (b := 1) hx (by decide) (by decide) (by omega) hw hfinal (by simp [ledPlace, hi])
  case refine_3 => exact h.ledgerRead (b := 2) hx (by decide) (by decide) (by omega) hw hfinal (by simp [ledPlace, hi])
  case refine_4 => exact h.ledgerRead (b := 3) hx (by decide) (by decide) (by omega) hw hfinal (by simp [ledPlace, hi, hw4])
  case refine_5 => exact h.ledgerRead (b := 4) hx (by decide) (by decide) hi hw hfinal (by simp [ledPlace, hw4])
  case refine_6 => exact h.ledgerRead (b := 5) hx (by decide) (by decide) (by omega) hw hfinal (by simp [ledPlace, hi, hw2])
  case refine_7 => rw [gnum_passed, timeCap, if_pos hx]; rfl
  case refine_8 => rw [gnum_passed, timeCapn, if_pos hx]; rfl
  case refine_9 =>
    rw [gnum_passed, if_pos hx]
    show entryAddr s _ = _
    rw [entryAddr, catBase, Nat.add_comm (_ * 2 ^ 32)]
  case refine_10 =>
    rw [gnum_passed, if_pos hx]
    show catGen s _ = _
    cases hfind : Tbl.find s.cat.inEffect (s.gnum p rs1) <;> simp [catGen, hfind]
  case refine_11 => rw [Nat.mod_eq_of_lt (by omega), catWin_eq h1 h7, window_passed]
  case refine_12 => rw [Nat.mod_eq_of_lt (by omega), catWsize_eq h1 h7, window_passed]
  case refine_13 => simp [csrRead]
  case refine_14 => simp [csrRead, nsU]
  case refine_15 => simp [csrRead, hp]
  case refine_16 => simp [csrRead, State.agent, hp]

end Sys2Proof

/-! ## Device instructions that read the Line Assembler and inspection results (R94, R103, R111, Tables 3-7 and 3-9) -/

namespace Sys2Proof

open Machine Laws

@[simp] theorem cap_passed (s : State) (p q k : Nat) : (passed s p).cap q k = s.cap q k := rfl

/-! ### LINE.STAT -/

theorem lineStat_passed (s : State) (p k : Nat) : lineStat (passed s p) k = lineStat s k := rfl

theorem Runs.lineStat {s : State} {p rd k v : Nat} (h : Runs s p) (hk : k < 64) (hv : lineStat s k = v) :
    Ends (execLineStat p rd k s) (fun t => GWrites s t p rd (BitVec.ofNat 64 v)) :=
  h.reads (by rw [Nat.mod_eq_of_lt hk, lineStat_passed, hv])

theorem lineStat_other {s : State} {k : Nat} (h : 6 ≤ k) : lineStat s k = 0 := by
  simp only [Machine.lineStat]
  repeat rw [if_neg (by omega)]

/-! ### SUBST.GET (Table 3-9) -/

theorem bits_zero (x n : Nat) : bits x 0 n = x % 2 ^ n := by rw [bits, pow_zero, Nat.div_one]

theorem substGet_passed (s : State) (p x k : Nat) : substGet (passed s p) x k = substGet s x k := rfl

theorem Runs.substGet {s : State} {p rd rs1 k v : Nat} (h : Runs s p) (hv : substGet s (s.gnum p rs1) k = v) :
    Ends (execSubstGet p rd rs1 k s) (fun t => GWrites s t p rd (BitVec.ofNat 64 v)) :=
  h.reads (by rw [gnum_passed, substGet_passed, hv])

theorem substGet_other {s : State} {x k : Nat} (h : nozzleAt s (x % 2 ^ 23) = none ∨ (2 ≤ k ∧ k < 64)) : substGet s x k = 0 := by
  unfold Machine.substGet
  rcases h with hnone | ⟨h2, h64⟩
  · simp only [substRead, substSpare, bits_zero, hnone, ite_self]
  · rw [if_neg (by omega), if_neg (by omega)]

/-- The read-back of Table 3-9: bit 63, bit 62 and the line in the low 48 bits. -/
def substWord (on pending : Bool) (line : Nat) : Nat := 2 ^ 63 * ofBool on + 2 ^ 62 * ofBool pending + low 48 line

theorem substWord_toNat (on pending : Bool) (line : Nat) : (BitVec.ofNat 64 (substWord on pending line)).toNat = substWord on pending line := by
  rw [BitVec.toNat_ofNat]
  cases on <;> cases pending <;> simp [substWord, ofBool, low] <;> omega

theorem substWord_on (on pending : Bool) (line : Nat) : (BitVec.ofNat 64 (substWord on pending line)).getLsbD 63 = on := by
  rw [BitVec.getLsbD, substWord_toNat, Nat.testBit_eq_decide_div_mod_eq]
  cases on <;> cases pending <;> simp [substWord, ofBool, low] <;> omega

theorem substWord_pending (on pending : Bool) (line : Nat) : (BitVec.ofNat 64 (substWord on pending line)).getLsbD 62 = pending := by
  rw [BitVec.getLsbD, substWord_toNat, Nat.testBit_eq_decide_div_mod_eq]
  cases on <;> cases pending <;> simp [substWord, ofBool, low] <;> omega

theorem substWord_low (on pending : Bool) (line : Nat) : (BitVec.ofNat 64 (substWord on pending line)).toNat % 2 ^ 62 = line % 2 ^ 48 := by
  rw [substWord_toNat]
  cases on <;> cases pending <;> simp [substWord, ofBool, low] <;> omega

theorem substWord_line (on pending : Bool) (line : Nat) : (BitVec.ofNat 64 (substWord on pending line)).toNat % 2 ^ 48 = line % 2 ^ 48 := by
  rw [← Nat.mod_mod_of_dvd _ (by decide : 2 ^ 48 ∣ 2 ^ 62), substWord_low, Nat.mod_mod]

/-- The line of SUBST.GET: of the last change pending, else of the last one committed. -/
def substLineOf (s : State) (nozzle : Nat) (cs : List SubstChange) : Nat :=
  match cs.getLast? with
  | some y => relLine s y.line
  | none => relLine s (Tbl.get 0 s.la.effLine nozzle)

theorem substRead_eq {s : State} {nozzle b i c : Nat} (h : nozzleAt s nozzle = some (b, i, c)) :
    substRead s nozzle = substWord ((committedSpare s b i c).isSome || (nozzleChanges s b i c).any (·.isSet)) (nozzleChanges s b i c != [])
      (substLineOf s nozzle (nozzleChanges s b i c)) := by
  simp only [substRead, h]
  rfl

/-! ### Inspection results -/

theorem statColframe_off {s : State} {p x : Nat} (h : s.cap p 2 = false ∨ 16 ≤ x) : statColframe s p x = 0 := by
  rw [statColframe, if_neg]
  rcases h with hcap | hx
  · simp [hcap]
  · simp [hx]

theorem statFrame_off {s : State} {p x : Nat} (h : s.cap p 2 = false ∨ 16 ≤ x) : statFrame s p x = 0 := by
  rw [statFrame, if_neg]
  rcases h with hcap | hx
  · simp [hcap]
  · simp [hx]

theorem statVcol_off {s : State} {p x a : Nat} (h : s.cap p 2 = false ∨ 128 ≤ x ∨ a % 16 ≠ 0 ∨ 65520 < a) (i : Nat) :
    statVcol s p x a i = 0 := by
  rw [statVcol, if_neg]
  rcases h with hcap | hx | ha | ha
  · simp [hcap]
  · simp [hx]
  · simp [ha]
  · simp [ha]

theorem vmake_zero : vmake (fun _ => BitVec.ofNat 16 0) = 0 := by decide

/-- Settles O26: SUBST.GET by the fields of `substWord`, STAT.VCOL lane by lane. -/
theorem folioReadsLine : Obligations.FolioReadsLine := by
  unfold Obligations.FolioReadsLine
  rintro s p rd rs1 rs2 vd k x a h rfl rfl
  simp only [exec_lineStat, exec_substGet, exec_statColframe, exec_statFrame, exec_statVcol]
  refine ⟨h.lineStat (by decide) rfl, h.lineStat (by decide) rfl, h.lineStat (by decide) rfl, h.lineStat (by decide) rfl,
    h.lineStat (by decide) rfl, h.lineStat (by decide) rfl, fun h6 h64 => h.lineStat h64 (lineStat_other h6),
    fun hnone => h.substGet (substGet_other hnone), ?_, fun hcap hx => ⟨h.reads ?_, fun hframes => h.reads ?_, fun f hf => h.reads ?_⟩,
    fun hcap hvd hx ha hle => ?_, fun hoff => ⟨h.reads ?_, h.reads ?_⟩, fun hoff hvd => ?_⟩
  case refine_1 =>
    rintro b i c cs hat rfl
    rw [← bits_zero _ 23] at hat ⊢
    refine ⟨⟨_, h.substGet (substRead_eq hat), substWord_on .., substWord_pending .., ?_, fun y hy => ?_, fun hcs => ?_⟩,
      fun r hr => h.substGet ?_⟩
    · rw [substWord_low]
      exact Nat.mod_lt _ (by decide)
    · rw [substWord_line, substLineOf, nozzleChanges, hy]
    · rw [substWord_line, substLineOf, nozzleChanges, hcs]
      rfl
    · subst hr
      show substSpare s _ = _
      simp only [substSpare, hat, nozzleChanges]
      generalize (List.filter _ _).getLast? = last
      cases last with
      | some y => rfl
      | none => cases committedSpare s b i c <;> rfl
  case refine_2 =>
    rw [gnum_passed, statColframe, if_pos (by simp [hcap, hx])]
    rfl
  case refine_3 =>
    rw [gnum_passed, statFrame, if_pos (by simp [hcap, hx])]
    show low 48 (curFrame s _) + 2 ^ 48 * low 16 (match (s.pipe _).frames.getLast? with | some f => f.expo | none => 0) = 0
    rw [curFrame, hframes]
    rfl
  case refine_4 =>
    rw [gnum_passed, statFrame, if_pos (by simp [hcap, hx])]
    show low 48 (curFrame s _) + 2 ^ 48 * low 16 (match (s.pipe _).frames.getLast? with | some f => f.expo | none => 0) = _
    rw [curFrame, hf]
    rfl
  case refine_5 =>
    rw [execStatVcol, folioIf_ok (by rw [vBad_of_lt hvd]; rfl)]
    refine h.vLanes rfl fun i => ?_
    rw [gnum_passed, gnum_passed, statVcol, if_pos (by simp [hcap, hx, ha, hle])]
    rfl
  case refine_6 =>
    rw [gnum_passed]
    exact statColframe_off hoff
  case refine_7 =>
    rw [gnum_passed]
    exact statFrame_off hoff
  case refine_8 =>
    rw [execStatVcol, folioIf_ok (by rw [vBad_of_lt hvd]; rfl)]
    refine h.vWrites ?_
    simp only [gnum_passed, statVcol_off (s := passed s p) hoff, vmake_zero]

end Sys2Proof

/-! ## A command stops only for an engine that does not exist (R76; log 5) -/

namespace Sys2Proof

open Machine Laws

/-- A command of engine `p` answers a next state if the engine exists, and stops if it does not. -/
structure EngineAnswers (p : Nat) (o : Host.Outcome State Fault Refusal) : Prop where
  answers : p ≤ 16 → ∃ t, o = .next t
  stops : 16 < p → o = .fault .noSuchEngine

theorem engineAnswers_onEngine (s : State) (p : Nat) (f : State → State) : EngineAnswers p (s.onEngine p f) where
  answers hp := ⟨_, if_pos (decide_eq_true hp)⟩
  stops hp := if_neg (by rw [isEngine, decide_eq_true_eq]; exact Nat.not_le.2 hp)

theorem engineAnswers_folio (s : State) (p : Nat) (f : State → State) : EngineAnswers p (s.folio p f) := engineAnswers_onEngine ..

theorem engineAnswers_folioIf (s : State) (p word : Nat) (bad : State → Option (Nat × Nat)) (f : State → State) :
    EngineAnswers p (s.folioIf p word bad f) := by
  unfold State.folioIf
  split
  · exact engineAnswers_folio ..
  · exact engineAnswers_onEngine ..

theorem engineAnswers_illegalInstruction (p : Nat) (word : BitVec 32) (s : State) : EngineAnswers p (execIllegalInstruction p word s) := by
  unfold execIllegalInstruction
  split
  · exact engineAnswers_onEngine ..
  · exact engineAnswers_folioIf ..

section

variable (p rd rs1 rs2 : Nat) (s : State)

theorem engineAnswers_alu (f : Word → Word → Word) : EngineAnswers p (alu p rd rs1 rs2 f s) := engineAnswers_folio ..

theorem engineAnswers_aluI (f : Word → Word) : EngineAnswers p (aluI p rd rs1 f s) := engineAnswers_folio ..

theorem engineAnswers_branch (off : Nat) (f : Word → Word → Bool) : EngineAnswers p (branch p rs1 rs2 off f s) := engineAnswers_folio ..

theorem engineAnswers_devOp (f : State → State × Nat) : EngineAnswers p (devOp p rd f s) := engineAnswers_folio ..

theorem engineAnswers_copyOp (op sub r : Nat) (f : State → State × Nat) : EngineAnswers p (copyOp op sub p rd rs1 rs2 r f s) :=
  engineAnswers_folioIf ..

theorem engineAnswers_load (op n : Nat) (sgn : Bool) (base win imm : Nat) : EngineAnswers p (load op n sgn p rd base win imm s) :=
  engineAnswers_folioIf ..

theorem engineAnswers_store (op n base win imm : Nat) : EngineAnswers p (store op n p rd base win imm s) := engineAnswers_folioIf ..

theorem engineAnswers_vec2 (sub : Nat) (f : Lane16 → Lane16 → Lane16) : EngineAnswers p (vec2 sub p rd rs1 rs2 f s) := engineAnswers_folioIf ..

theorem engineAnswers_vecK (sub k : Nat) (f : Nat → Lane16 → Lane16) : EngineAnswers p (vecK sub p rd rs1 k f s) := engineAnswers_folioIf ..

end

theorem engineAnswers_jal (p off : Nat) (s : State) : EngineAnswers p (execJal p off s) := by
  unfold execJal
  exact engineAnswers_folio ..

theorem engineAnswers_jalr (p rd rs1 imm : Nat) (s : State) : EngineAnswers p (execJalr p rd rs1 imm s) := by
  unfold execJalr
  exact engineAnswers_folioIf ..

/-- How a command answers, by the engine it names. -/
def Answers (o : Host.Outcome State Fault Refusal) : Option Nat → Prop
  | none => ∃ t, o = .next t
  | some p => EngineAnswers p o

theorem answers_exec (i : Instr) (s : State) : Answers (exec i s) (engineOf i) := by
  cases i
  all_goals unfold exec
  case timeWaitExpiry | sliceMaxExceeded | sliceUrgencyRise => exact engineAnswers_onEngine ..
  case timeWait | catInv | syncInit | syncWait | syncArm | sysYield | sysEnd | sysFence | sysCsrw | sysArm | sysDisarm | sysTrap |
      sysStart | sysHalt => exact engineAnswers_folio ..
  case bfx | shi | amo | ringDone | statVcol | vsel | vema | vsplat | vextu | vins | vredadd | vany | vld | vst => exact engineAnswers_folioIf ..
  case illegalInstruction => exact engineAnswers_illegalInstruction ..
  case add | sub | andR | orR | xorR | sll | srl | sra | slt | sltu | mul | mulh | mulhu | divu | remu | minS | maxS | minu |
      maxu => exact engineAnswers_alu ..
  case clz | popc | addi | andi | ori | xori | lui | slti => exact engineAnswers_aluI ..
  case lb | lh | lw | ld | lbu | lhu | lwu => exact engineAnswers_load ..
  case sb | sh | sw | sd => exact engineAnswers_store ..
  case beq | bne | blt | bge | bltu | bgeu => exact engineAnswers_branch ..
  case vadd | vsub | vadds | vsubs | vaddus | vsubus | vmul | vmulh | vmulq | vmin | vmax | vminu | vmaxu | vabsdu | vand | vor | vxor |
      vcgt | vcgtu | vceq => exact engineAnswers_vec2 ..
  case vshl | vsrl | vsra => exact engineAnswers_vecK ..
  case ringPop | ringStat | ledgerSnap | ledgerSeq | ledgerRead | ledgerLine | timeNow | timeCap | timeCapn | timeArm | catGen | catAddr |
      catWin | catWsize | linePage | lineStat | substSet | substClr | substGet | statSeg | statColframe | statFrame | syncArrive | sysCsrr =>
    exact engineAnswers_devOp ..
  case ringPush | statExpo => exact engineAnswers_copyOp ..
  case jal => exact engineAnswers_jal ..
  case jalr => exact engineAnswers_jalr ..
  all_goals exact ⟨_, rfl⟩

/-- Settles O4: `answers_exec` for the engine that the command names. -/
theorem onlyEngineNumberStops : Obligations.OnlyEngineNumberStops := by
  unfold Obligations.OnlyEngineNumberStops
  intro i s
  have h := answers_exec i s
  cases he : engineOf i with
  | none =>
    rw [he] at h
    exact ⟨fun _ => h, fun p hp => by cases hp⟩
  | some p =>
    rw [he] at h
    refine ⟨fun hle => h.answers (hle p rfl), fun q hq hlt => ?_⟩
    cases hq
    exact h.stops hlt

end Sys2Proof

/-! ## Substitutions: what is accepted, and what is pending then (R100, R102) -/

namespace Sys2Proof

open Machine Laws

/-- The state in which an accepted change is pending, before those whose lines are assembled commit. -/
def substPending (s : State) (x : SubstChange) (nozzle spare n : Nat) : State :=
  let t := keepChanges (s.twin (.subst x.isSet nozzle spare n)) ((s.twin (.subst x.isSet nozzle spare n)).la.changes ++ [x])
  { t with la := { t.la with effLine := t.la.effLine.put nozzle x.line } }

/-- What joins the pending changes: the change, its line for the nozzle and the count that software reads. -/
theorem substPending_frame (s : State) (x : SubstChange) (nozzle spare n : Nat) : ∃ pair, substPending s x nozzle spare n =
    State.wr { s with
      pair := pair
      la := { s.la with changes := s.la.changes ++ [x], effLine := s.la.effLine.put nozzle x.line } }
      Reg.LA_SUBST_PEND.pending 0 (s.la.changes.length + 1) := by
  obtain ⟨pair, hpair⟩ := twin_frame s (.subst x.isSet nozzle spare n)
  refine ⟨pair, ?_⟩
  simp only [substPending, hpair, keepChanges, List.length_append, List.length_singleton]
  rfl

theorem substAccept_open {s : State} (h : s.on Reg.LA_STATUS.job_open = true) (x : SubstChange) (nozzle spare n : Nat) :
    substAccept s x nozzle spare n = substCommit (substPending s x nozzle spare n) := by
  obtain ⟨pair, hpair⟩ := twin_frame s (.subst x.isSet nozzle spare n)
  have hopen (t : State) (ht : t.regs = s.regs) (cs : List SubstChange) : (keepChanges t cs).on Reg.LA_STATUS.job_open = true := by
    rw [State.on, keepChanges, rd_wr, if_neg (by decide), ← h, State.on]
    simp only [State.rd, ht]
  simp only [substAccept, substPending]
  rw [if_pos (hopen _ (by rw [hpair]) _)]

/-- Nothing joins a full queue (R100). -/
theorem substSetOk_full {s : State} (h : 64 ≤ s.la.changes.length) (nozzle spare n : Nat) : substSetOk s nozzle spare n = none := by
  unfold substSetOk
  split
  · rw [if_neg (by omega)]
  · rfl

theorem substClrOk_full {s : State} (h : 64 ≤ s.la.changes.length) (nozzle n : Nat) : substClrOk s nozzle n = none := by
  unfold substClrOk
  split
  next b i c _ =>
    dsimp only
    split
    · rw [if_neg (by omega)]
    · rfl
  · rfl

/-- A line already assembled takes no change (R100). -/
theorem substSetOk_assembled {s : State} {nozzle b i c n : Nat} (hat : nozzleAt s nozzle = some (b, i, c))
    (hdone : notAssembled s b i (substLine s n) = false) (spare : Nat) : substSetOk s nozzle spare n = none := by
  unfold substSetOk
  split
  next hat' _ =>
    cases hat.symm.trans hat'
    simp [hdone]
  · rfl

theorem substClrOk_assembled {s : State} {nozzle b i c n : Nat} (hat : nozzleAt s nozzle = some (b, i, c))
    (hdone : notAssembled s b i (substLine s n) = false) : substClrOk s nozzle n = none := by
  simp only [substClrOk, hat, hdone]
  split
  · simp
  · rfl

/-- A spare of another plane or column, or a row that is no spare, is refused (R100). -/
theorem substSetOk_other {s : State} {nozzle spare b i c b2 i2 c2 : Nat} (hat : nozzleAt s nozzle = some (b, i, c))
    (hat2 : nozzleAt s spare = some (b2, i2, c2)) (h : b ≠ b2 ∨ c ≠ c2 ∨ (planeRow s b2 i2).kind ≠ 2) (n : Nat) :
    substSetOk s nozzle spare n = none := by
  simp only [substSetOk, hat, hat2]
  refine if_neg ?_
  rintro ⟨rfl, rfl, -, hkind, -⟩
  simp [hkind] at h

theorem substSet_refused {s : State} {nozzle spare n : Nat} (h : substSetOk s nozzle spare n = none) : (substSet s nozzle spare n).1 = s := by
  simp only [substSet, h]

theorem substClr_refused {s : State} {nozzle n : Nat} (h : substClrOk s nozzle n = none) : (substClr s nozzle n).1 = s := by
  simp only [substClr, h]

/-- Settles O28: a change taken by `substPending_frame`, the others by the refusals of `substSetOk` and `substClrOk`. -/
theorem substitutions : Obligations.Substitutions := by
  unfold Obligations.Substitutions
  intro s nozzle spare n
  refine ⟨?_, fun hfull => ⟨substSet_refused (substSetOk_full hfull ..), substClr_refused (substClrOk_full hfull ..)⟩, substSet_refused,
    fun b i c hat _ hdone => ⟨substSet_refused (substSetOk_assembled hat hdone _), substClr_refused (substClrOk_assembled hat hdone)⟩,
    fun b i c b2 i2 c2 hat hat2 hother => substSet_refused (substSetOk_other hat hat2 hother n)⟩
  intro p i c r x hok hopen hx
  have hline : substLine s n = absLine s n := if_pos hopen
  have hxline : x.line = absLine s n := by rw [hx]
  obtain ⟨pair, hframe⟩ := substPending_frame s x nozzle spare n
  refine ⟨substPending s x nozzle spare n, ?_, ?_⟩
  · rw [← substAccept_open hopen, hx]
    simp only [substSet, hok, hline]
  · rw [hframe, ← hxline]
    exact ⟨rfl, tbl_get_put_self .., rd_wr_self .., onlyRegs_wr ..⟩

end Sys2Proof

/-! ## Device instructions that act on a unit (R94, R100, R111, Tables 3-3 and 3-7) -/

namespace Sys2Proof

open Machine Laws

theorem gget_gnat (s : State) (p n v : Nat) : (s.gnat p n v).gget p n = if n % 32 = 0 then 0 else BitVec.ofNat 64 v := by
  rw [State.gnat, gget_gset, if_pos rfl]

theorem gnat_frame (s : State) (p n v : Nat) : s.gnat p n v = { s with engines := (s.gnat p n v).engines } := gset_frame ..

@[simp] theorem pcOf_gnat (s : State) (p n v : Nat) : (s.gnat p n v).pcOf p = s.pcOf p := pcOf_gset ..

@[simp] theorem bad_gnat (s : State) (p n v : Nat) : ((s.gnat p n v).eng p).bad = (s.eng p).bad := bad_gset ..

@[simp] theorem mem_gnat (s : State) (p n v : Nat) : (s.gnat p n v).mem = s.mem := by rw [gnat_frame]

section

variable {s : State} {p rd : Nat} (h : Runs s p)

include h

/-- A device instruction, as its unit leaves the machine and answers. -/
theorem Runs.devOp (f : State → State × Nat) :
    devOp p rd f s = .next (fetchCheck ((f (passed s p)).1.gnat p rd (f (passed s p)).2) p) := h.folio _

/-- The unit leaves the machine as it was and answers `v`. -/
theorem Runs.answers {v : Nat} {f : State → State × Nat} (hf : f (passed s p) = (passed s p, v)) :
    Ends (Machine.devOp p rd f s) (fun t => GWrites s t p rd (BitVec.ofNat 64 v)) :=
  h.gWrites (by simp only [hf]; rfl)

/-- The unit acts without touching the engines. -/
theorem Runs.acts {u : State} {v : Nat} {f : State → State × Nat} {P : State → Prop} (hf : f (passed s p) = (u, v))
    (he : u.engines = (passed s p).engines) (hP : P (u.gnat p rd v)) : Ends (Machine.devOp p rd f s) P := by
  have heng : u.eng p = (passed s p).eng p := eng_congr he p
  refine h.ends ?_ ?_ ?_ <;> simp only [hf]
  · rw [pcOf_gnat, State.pcOf, heng]
    exact h.next_lt.trans_eq' (pcOf_passed s p).symm
  · rw [bad_gnat, heng, eng_passed_self]
    exact h.bad
  · exact hP

theorem copyBad_of_runs (o n : Nat) : copyBad p o n s = none := by rw [copyBad, localBad_of_good h.bad]; rfl

end

/-! ### The units -/

theorem ledSnap_capless {s : State} {p : Nat} (h : s.cap p 5 = false) : ledSnap s p = (s, 0) := by simp [ledSnap, h]

theorem timeArm_capless {s : State} {p : Nat} (h : s.cap p 4 = false) (k ns : Nat) : timeArm s p k ns = (s, 0) := by simp [timeArm, h]

theorem linePageOp_capless {s : State} {p : Nat} (h : s.cap p 0 = false) (a n : Nat) : linePageOp s p a n = (s, 0) := by
  simp [linePageOp, h]

theorem substSetOp_capless {s : State} {p : Nat} (h : s.cap p 1 = false) (x n : Nat) : substSetOp s p x n = (s, 0) := by
  simp [substSetOp, h]

theorem substClrOp_capless {s : State} {p : Nat} (h : s.cap p 1 = false) (x n : Nat) : substClrOp s p x n = (s, 0) := by
  simp [substClrOp, h]

theorem statExpo_capless {s : State} {p : Nat} (h : s.cap p 3 = false) (n o : Nat) : statExpo s p n o = (s, 0) := by simp [statExpo, h]

theorem linePageOp_of_cap {s : State} {p : Nat} (h : s.cap p 0 = true) (hm : s.mode ≠ modeShadow) (a n : Nat) :
    linePageOp s p a n = ((linePage s a n).1.settle, (linePage s a n).2) := by
  simp [linePageOp, h, hm]

theorem substSetOp_of_cap {s : State} {p n : Nat} (h : s.cap p 1 = true) (hm : s.mode ≠ modeShadow) (hn : n < 2 ^ 48) (x : Nat) :
    substSetOp s p x n = substSet s (x % 2 ^ 23) (x / 2 ^ 32 % 2 ^ 23) n := by
  rw [substSetOp, if_neg (by simp [h, hm]; omega), bits_zero]
  rfl

theorem substClrOp_of_cap {s : State} {p n : Nat} (h : s.cap p 1 = true) (hm : s.mode ≠ modeShadow) (hn : n < 2 ^ 48) (x : Nat) :
    substClrOp s p x n = substClr s (x % 2 ^ 23) n := by
  rw [substClrOp, if_neg (by simp [h, hm]; omega), bits_zero]

theorem statExpo_of_cap {s : State} {p n o : Nat} (h : s.cap p 3 = true) (hn : n < 16) (ho : localFits p o 32 = true) :
    statExpo s p n o = expoWrite s n (Mem.read s.mem (localBase p + o) 32) := by
  rw [statExpo, if_neg (by simp [h, hn, ho])]

theorem catInvalidate_engines (s : State) (ch : Nat) : (catInvalidate s ch).engines = s.engines := by
  unfold catInvalidate
  split
  · rfl
  · rfl

@[simp] theorem agent_passed (s : State) (p q : Nat) : (passed s p).agent q = s.agent q := rfl

theorem peekBytes_passed (s : State) (p a n : Nat) : (passed s p).peekBytes a n = s.peekBytes a n :=
  peekBytes_of_peek (s := passed s p) (t := s) rfl a n

theorem catOwner_passed (s : State) (p ch : Nat) : catOwner (passed s p) ch = catOwner s ch := by
  have hentry : entryAddr (passed s p) ch = entryAddr s ch := rfl
  have hcat : (passed s p).cat = s.cat := rfl
  rw [catOwner, catOwner, peekBytes_passed, hentry, hcat]

/-! ### The instructions -/

section

variable {s : State} {p rd rs1 rs2 : Nat} (h : Runs s p)

include h

theorem Runs.ledgerSnap (hcap : s.cap p 5 = true) (hidle : s.on Reg.LEDGER_SNAP.snap_busy = false) :
    Ends (execLedgerSnap p rd s) (fun t => t.rd Reg.LEDGER_SNAP.snap_busy = 1 ∧ t.led.seqStarted = s.led.seqStarted + 1 ∧
      t.led.asked = some s.clk ∧ t.gget p rd = (if rd % 32 = 0 then 0 else BitVec.ofNat 64 (s.led.seqStarted + 1)) ∧ t.mem = s.mem) := by
  have hidle' : (passed s p).on Reg.LEDGER_SNAP.snap_busy = false := hidle
  have hsnap : ledSnap (passed s p) p = (snapAsk (passed s p), s.led.seqStarted + 1) := by
    simp only [ledSnap, cap_passed, hcap, hidle', snapAsk_idle hidle']
    rfl
  rw [snapAsk_idle hidle'] at hsnap
  refine h.acts hsnap rfl ⟨?_, ?_, ?_, gget_gnat .., mem_gnat ..⟩ <;> rw [gnat_frame]
  · exact rd_wr_self ..
  · rfl
  · rfl

theorem Runs.timeArm (hcap : s.cap p 4 = true) (hk : s.gnum p rs1 < 62) (hon : s.entOn (chTrig (s.gnum p rs1)) TrigE.trigEn = true) :
    Ends (execTimeArm p rd rs1 rs2 s) (fun t => (t.trig (s.gnum p rs1)).next = some (s.gnum p rs2 * 65536) ∧
      t.gget p rd = (if rd % 32 = 0 then 0 else s.gget p rs2) ∧ t.mem = s.mem) := by
  have hon' : (passed s p).entOn (chTrig (s.gnum p rs1)) TrigE.trigEn = true := hon
  have harm : Machine.timeArm (passed s p) p ((passed s p).gnum p rs1) ((passed s p).gnum p rs2) =
      (trigArm (passed s p) (s.gnum p rs1) (s.gnum p rs2), s.gnum p rs2) := by
    rw [gnum_passed, gnum_passed, Machine.timeArm, if_pos (by simp [trigArmOk, hcap, hk, hon'])]
  refine h.acts harm rfl ⟨?_, ?_, mem_gnat ..⟩
  · rw [gnat_frame]
    exact congrArg Trig.next (tbl_get_put_self ..)
  · rw [gget_gnat, State.gnum, BitVec.ofNat_toNat, BitVec.setWidth_eq]

theorem Runs.statSeg_none (hnone : (s.pipe (s.gnum p rs1)).regions = []) :
    Ends (execStatSeg p rd rs1 rs2 s) (fun t => GWrites s t p rd (BitVec.ofNat 64 0)) := by
  have hnone' : ((passed s p).pipe (s.gnum p rs1)).regions = [] := hnone
  refine h.answers ?_
  rw [gnum_passed, statSeg, hnone', ite_self]

theorem Runs.statSeg {r : List Byte} {rest : List (List Byte)} (hcap : s.cap p 2 = true) (hn : s.gnum p rs1 < 16)
    (ho : localTakes p (s.gnum p rs2) 64 = true) (hsome : (s.pipe (s.gnum p rs1)).regions = r :: rest) :
    Ends (execStatSeg p rd rs1 rs2 s) (fun t => (t.pipe (s.gnum p rs1)).regions = rest ∧
      Mem.read t.mem (localBase p + s.gnum p rs2) r.length = r ∧ t.gget p rd = (if rd % 32 = 0 then 0 else BitVec.ofNat 64 r.length)) := by
  have hsome' : ((passed s p).pipe (s.gnum p rs1)).regions = r :: rest := hsome
  have hb : ((passed s p).eng p).bad = [] := by simpa using h.bad
  have hseg : Machine.statSeg (passed s p) p ((passed s p).gnum p rs1) ((passed s p).gnum p rs2) =
      ({ (passed s p).setPipe (s.gnum p rs1) { s.pipe (s.gnum p rs1) with regions := rest } with
          mem := Mem.write s.mem (localBase p + s.gnum p rs2) r }, r.length) := by
    rw [gnum_passed, gnum_passed, Machine.statSeg, if_neg (by simp [hcap, hn, ho]), hsome']
    simp only
    rw [localWrite_of_good (by exact hb)]
    rfl
  refine h.acts hseg rfl ⟨?_, ?_, gget_gnat ..⟩ <;> rw [gnat_frame]
  · exact congrArg Pipe.regions (tbl_get_put_self ..)
  · exact mem_read_write ..

theorem Runs.catInv (hch : s.gnum p rs1 < 4096) (hown : (s.cap p 7 || catOwner s (s.gnum p rs1) == s.agent p) = true) :
    execCatInv p rs1 s = .next (catInvalidate (passed s p) (s.gnum p rs1)) := by
  have heng := eng_congr (catInvalidate_engines (passed s p) (s.gnum p rs1)) p
  rw [execCatInv, h.folio, gnum_passed, Machine.catInv, cap_passed, catOwner_passed,
    agent_passed, if_pos (by simp only [hch, hown, decide_true, Bool.and_self]), fetchCheck_of_good]
  · rw [State.pcOf, heng]
    exact h.next_lt.trans_eq' (pcOf_passed s p).symm
  · rw [heng, eng_passed_self]
    exact h.bad

theorem Runs.catInv_refused (hcap : s.cap p 7 = false) (hown : catOwner s (s.gnum p rs1) ≠ s.agent p) :
    Ends (execCatInv p rs1 s) (fun t => Jumps s t p (s.pcOf p + 4)) := by
  refine h.passes ?_
  rw [gnum_passed, Machine.catInv, cap_passed, hcap, catOwner_passed, agent_passed, beq_false_of_ne hown, if_neg (by simp)]

end

/-- Settles O27: each unit by its own lemma, `Runs.answers` where it leaves the machine as it was. -/
theorem folioDeviceActs : Obligations.FolioDeviceActs := by
  unfold Obligations.FolioDeviceActs
  intro s p rd rs1 rs2 h
  simp only [exec_ledgerSnap, exec_timeArm, exec_statSeg, exec_catInv, exec_linePage, exec_substSet, exec_substClr, exec_statExpo]
  refine ⟨h.ledgerSnap, fun hcap => h.answers (ledSnap_capless (s := passed s p) hcap), h.timeArm,
    fun hcap => h.answers (timeArm_capless (s := passed s p) hcap ..), fun hcap hn ho => ⟨h.statSeg_none, fun r rest => h.statSeg hcap hn ho⟩,
    h.catInv, h.catInv_refused, fun hcap hm => ?_, fun hcap hm hn => ⟨?_, ?_⟩,
    fun hcap => h.answers (linePageOp_capless (s := passed s p) hcap ..),
    fun hcap => ⟨h.answers (substSetOp_capless (s := passed s p) hcap ..), h.answers (substClrOp_capless (s := passed s p) hcap ..)⟩,
    fun hcap hn ho => ?_, fun hcap => ?_⟩
  case refine_1 =>
    rw [execLinePage, h.devOp, gnum_passed, gnum_passed, linePageOp_of_cap (s := passed s p) hcap hm]
  case refine_2 =>
    rw [execSubstSet, h.devOp, gnum_passed, gnum_passed, substSetOp_of_cap (s := passed s p) hcap hm hn]
  case refine_3 =>
    rw [execSubstClr, h.devOp, gnum_passed, gnum_passed, substClrOp_of_cap (s := passed s p) hcap hm hn]
  case refine_4 =>
    rw [execStatExpo, copyOp, folioIf_ok (copyBad_of_runs h ..), h.folio]
    rw [gnum_passed, gnum_passed, statExpo_of_cap (s := passed s p) hcap hn ho]
    rfl
  case refine_5 =>
    rw [execStatExpo, copyOp, folioIf_ok (copyBad_of_runs h ..)]
    exact h.answers (statExpo_capless (s := passed s p) hcap ..)

end Sys2Proof

/-! ## Slices: their table in local memory and their state in the engine (R114, R115, Table 3-11) -/

namespace Sys2Proof

open Machine Laws

/-- One byte of local memory, as a number. -/
theorem local_byte (s : State) (p a : Nat) : s.local p a 1 = (Mem.get s.mem (localBase p + a)).toNat := by
  simp [State.local, Mem.read, leNat]

theorem sliceEnable_mem_ne (s : State) {p i : Nat} (b : Bool) {x : Nat} (h : x ≠ localBase p + sliceTable p + 32 * i + 14) :
    Mem.get (s.sliceEnable p i b).mem x = Mem.get s.mem x :=
  mem_get_write_out _ _ _ (by rw [length_leBytes]; omega)

/-- The enable bit of a slice, after it was written (R115). -/
theorem sliceOn_sliceEnable (s : State) (p i : Nat) (b : Bool) : (s.sliceEnable p i b).sliceOn p i = b := by
  have hbyte : (s.sliceEnable p i b).sliceGet p i 14 1 = (s.sliceGet p i 14 1 / 2 * 2 + ofBool b) % 256 := by
    rw [State.sliceGet, local_byte]
    exact congrArg BitVec.toNat (mem_get_write_in (k := 0) s.mem _ (by rw [length_leBytes]; decide))
  rw [State.sliceOn, hbyte]
  cases b <;> simp [ofBool]

/-- Another byte of the slice's entry than the one of its enable bit. -/
theorem sliceGet_sliceEnable (s : State) (p i : Nat) (b : Bool) {o : Nat} (h : o ≠ 14) :
    (s.sliceEnable p i b).sliceGet p i o 1 = s.sliceGet p i o 1 := by
  rw [State.sliceGet, local_byte, sliceEnable_mem_ne s b (by omega), ← local_byte, State.sliceGet]

theorem slice_passed (s : State) (p i : Nat) : (passed s p).slice p i = s.slice p i := by
  rw [State.slice, eng_passed_self, State.slice]

/-- The run of slice `j` ends. -/
theorem endRunning_passed {s : State} {p j : Nat} (hj : (s.eng p).running = some j) (pc : Nat) (f : Slice → Slice) :
    endRunning (passed s p) p pc f = endRun (passed s p) p j pc (f (s.slice p j)) := by
  have hj' : ((passed s p).eng p).running = some j := by rw [eng_passed_self]; exact hj
  simp only [endRunning, hj', slice_passed]

/-- An instruction whose effect changes neither its engine's pc nor the bad words of its memory. -/
theorem Runs.ends_same {s : State} {p : Nat} {f : State → State} {P : State → Prop} (h : Runs s p)
    (hpc : ((f (passed s p)).eng p).pc = s.pcOf p + 4) (hb : ((f (passed s p)).eng p).bad = (s.eng p).bad) (hP : P (f (passed s p))) :
    Ends (s.folio p f) P :=
  h.ends (by rw [State.pcOf, hpc]; exact h.next_lt) (by rw [hb]; exact h.bad) hP

/-! ### Disarming a slice -/

theorem sliceDisarm_of_lt {i : Nat} (s : State) (p : Nat) (h : i < 32) : sliceDisarm s p i =
    (s.sliceEnable p i false).setSlice p i { s.slice p i with since := none, level := false, again := false } :=
  if_neg (by omega)

@[simp] theorem eng_setSlice_self (s : State) (p i : Nat) (x : Slice) :
    (s.setSlice p i x).eng p = { s.eng p with slices := (s.eng p).slices.put i x } := eng_setEng_self ..

theorem eng_setSlice_ne (s : State) {p q : Nat} (i : Nat) (x : Slice) (h : q ≠ p) : (s.setSlice p i x).eng q = s.eng q := eng_setEng_ne s _ h

@[simp] theorem slice_setSlice_self (s : State) (p i : Nat) (x : Slice) : (s.setSlice p i x).slice p i = x := by
  rw [State.slice, eng_setSlice_self]
  exact tbl_get_put_self ..

theorem slice_setSlice_ne (s : State) (p : Nat) {i j : Nat} (x : Slice) (h : j ≠ i) : (s.setSlice p i x).slice p j = s.slice p j := by
  rw [State.slice, eng_setSlice_self]
  exact tbl_get_put_ne _ _ _ h

theorem sliceOn_setSlice (s : State) (p i j : Nat) (x : Slice) : (s.setSlice p i x).sliceOn p j = s.sliceOn p j := rfl

theorem mem_setSlice (s : State) (p i : Nat) (x : Slice) : (s.setSlice p i x).mem = s.mem := rfl

theorem slice_sliceEnable (s : State) (p i j : Nat) (b : Bool) : (s.sliceEnable p i b).slice p j = s.slice p j := rfl

theorem eng_sliceEnable (s : State) (p i : Nat) (b : Bool) (q : Nat) : (s.sliceEnable p i b).eng q = s.eng q := rfl

section

variable {s : State} {p rd rs1 rs2 n : Nat} (h : Runs s p) (hn : n = s.gnum p rs1)

include h hn

theorem Runs.sysDisarm (hlt : n < 32) : Ends (execSysDisarm p rs1 s) (fun t => t.sliceOn p n = false ∧
    t.slice p n = { s.slice p n with since := none, level := false, again := false } ∧ (∀ i, i ≠ n → t.slice p i = s.slice p i) ∧
    t.eng p = { (passed s p).eng p with slices := (t.eng p).slices } ∧ (∀ q, q ≠ p → t.eng q = s.eng q) ∧ t.regs = s.regs ∧
    ∀ x, x ≠ localBase p + sliceTable p + 32 * n + 14 → Mem.get t.mem x = Mem.get s.mem x) := by
  refine h.ends_same ?_ ?_ ?_ <;> rw [gnum_passed, ← hn, sliceDisarm_of_lt _ _ hlt]
  · rw [eng_setSlice_self, eng_sliceEnable, eng_passed_self]
  · rw [eng_setSlice_self, eng_sliceEnable, eng_passed_self]
  · refine ⟨?_, ?_, fun i hi => ?_, ?_, fun q hq => ?_, rfl, fun x hx => ?_⟩
    · rw [sliceOn_setSlice, sliceOn_sliceEnable]
    · rw [slice_setSlice_self, slice_passed]
    · rw [slice_setSlice_ne _ _ _ hi, slice_sliceEnable, slice_passed]
    · rw [eng_setSlice_self, eng_sliceEnable]
    · rw [eng_setSlice_ne _ _ _ hq, eng_sliceEnable, eng_passed_ne s hq]
    · rw [mem_setSlice, sliceEnable_mem_ne _ _ hx, mem_passed]

/-! ### Barriers -/

theorem Runs.syncInit (hcap : s.cap p 6 = true) (hlt : n < 32) (h1 : 1 ≤ s.gnum p rs2) (h64 : s.gnum p rs2 ≤ 64) : ∃ u : State,
    u.barrier n = { participants := s.gnum p rs2, count := 0, gen := 0 } ∧ u.mem = s.mem ∧ u.regs = s.regs ∧
      execSyncInit p rs1 rs2 s = .next (fetchCheck (syncWake u n) p) := by
  refine ⟨{ passed s p with barriers := s.barriers.put n { participants := s.gnum p rs2, count := 0, gen := 0 } },
    tbl_get_put_self .., rfl, rfl, ?_⟩
  rw [execSyncInit, h.folio, gnum_passed, gnum_passed, ← hn, Machine.syncInit, if_pos (by simp [hcap, hlt, h1, h64])]
  rfl

omit hn in
theorem Runs.syncInit_capless (hcap : s.cap p 6 = false) : Ends (execSyncInit p rs1 rs2 s) (fun t => Jumps s t p (s.pcOf p + 4)) :=
  h.passes (by rw [Machine.syncInit, cap_passed, hcap]; rfl)

theorem Runs.syncArrive (hlt : n < 32) (hmore : (s.barrier n).count + 1 ≠ (s.barrier n).participants) :
    Ends (execSyncArrive p rd rs1 s) (fun t => (t.barrier n).count = (s.barrier n).count + 1 ∧ (t.barrier n).gen = (s.barrier n).gen ∧
      t.gget p rd = (if rd % 32 = 0 then 0 else BitVec.ofNat 64 (s.barrier n).gen) ∧ t.mem = s.mem ∧ t.regs = s.regs) := by
  have harrive : Machine.syncArrive (passed s p) ((passed s p).gnum p rs1) =
      ({ passed s p with barriers := s.barriers.put n { s.barrier n with count := (s.barrier n).count + 1 } }, (s.barrier n).gen) := by
    rw [gnum_passed, ← hn, Machine.syncArrive, if_neg (by omega)]
    exact if_neg hmore
  have hbar (v : Nat) : (State.gnat { passed s p with barriers := s.barriers.put n { s.barrier n with count := (s.barrier n).count + 1 } }
      p rd v).barrier n = { s.barrier n with count := (s.barrier n).count + 1 } := by
    rw [gnat_frame]
    exact tbl_get_put_self ..
  refine h.acts harrive rfl ⟨?_, ?_, gget_gnat .., mem_gnat .., ?_⟩
  · rw [hbar]
  · rw [hbar]
  · rw [gnat_frame]
    rfl

theorem Runs.syncArrive_last (hlt : n < 32) (hlast : (s.barrier n).count + 1 = (s.barrier n).participants) : ∃ u : State,
    u.barrier n = { participants := (s.barrier n).participants, count := 0, gen := ((s.barrier n).gen + 1) % 2 ^ 32 } ∧ u.mem = s.mem ∧
      u.regs = s.regs ∧ execSyncArrive p rd rs1 s = .next (fetchCheck ((syncWake u n).gnat p rd (s.barrier n).gen) p) := by
  refine ⟨{ passed s p with barriers := s.barriers.put n { s.barrier n with count := 0, gen := ((s.barrier n).gen + 1) % 2 ^ 32 } },
    tbl_get_put_self .., rfl, rfl, ?_⟩
  have harrive : Machine.syncArrive (passed s p) n = (syncWake { passed s p with
      barriers := s.barriers.put n { s.barrier n with count := 0, gen := ((s.barrier n).gen + 1) % 2 ^ 32 } } n, (s.barrier n).gen) := by
    rw [Machine.syncArrive, if_neg (by omega)]
    exact if_pos hlast
  rw [execSyncArrive, h.devOp, gnum_passed, ← hn, harrive]

theorem Runs.syncWait_past (hgen : (s.barrier n).gen ≠ s.gnum p rs2) :
    Ends (execSyncWait p rs1 rs2 s) (fun t => Jumps s t p (s.pcOf p + 4)) := by
  refine h.passes ?_
  rw [gnum_passed, gnum_passed, ← hn, Machine.syncWait, if_neg]
  simp only [Bool.and_eq_true, beq_iff_eq, not_and]
  exact fun _ => hgen

theorem Runs.syncWait {j : Nat} (hlt : n < 32) (hgen : (s.barrier n).gen = s.gnum p rs2) (hj : (s.eng p).running = some j) :
    execSyncWait p rs1 rs2 s =
      .next (fetchCheck (endRun (passed s p) p j (s.pcOf p + 4) { s.slice p j with wait := .sync n (s.gnum p rs2) }) p) := by
  have hgen' : ((passed s p).barrier n).gen = s.gnum p rs2 := hgen
  rw [execSyncWait, h.folio, gnum_passed, gnum_passed, ← hn, Machine.syncWait, if_pos (by simp [hlt, hgen']), endRunning_passed hj, pcOf_passed]

theorem Runs.syncArm {q : Nat} (hlt : n < 16) (hi : s.gnum p rs2 < 32) (hcap : (s.cap p 6 || s.agent p == n) = true)
    (hq : s.physOf n = some q) : execSyncArm p rs1 rs2 s = .next (fetchCheck (sliceEvent (passed s p) q (s.gnum p rs2)) p) := by
  have hq' : (passed s p).physOf n = some q := hq
  rw [execSyncArm, h.folio, gnum_passed, gnum_passed, ← hn, Machine.syncArm, cap_passed, agent_passed, hcap,
    if_pos (by simp [hlt, hi]), hq']

/-! ### What only the Registrar does -/

theorem Runs.csrw {k : Nat} (hp : p = registrar) (h1 : 1 ≤ k) (h7 : k ≤ 7) : Ends (execSysCsrw p rs1 (0x10 + 2 * (k - 1)) s)
    (fun t => Tbl.get 0 (t.eng p).winb k = n ∧ t.regs = s.regs ∧ t.mem = s.mem) := by
  have hwrite (v : Nat) : csrWrite (passed s p) p ((0x10 + 2 * (k - 1)) % 2048) v =
      (passed s p).setEng p { (passed s p).eng p with winb := ((passed s p).eng p).winb.put k v } := by
    rw [Nat.mod_eq_of_lt (by omega), csrWrite, if_neg (not_not.2 hp), csrWindow_base h1 h7]
  refine h.ends_same ?_ ?_ ?_ <;> rw [gnum_passed, ← hn, hwrite, eng_setEng_self]
  · rw [eng_passed_self]
  · rw [eng_passed_self]
  · exact ⟨tbl_get_put_self .., rfl, rfl⟩

theorem Runs.sysHalt (hp : p = registrar) (hlt : n < 16) : Ends (execSysHalt p rs1 s) (fun t => (t.eng n).halted = true ∧ t.regs = s.regs ∧
    t.mem = s.mem ∧ ∀ q, q ≠ n → q ≠ p → t.eng q = s.eng q) := by
  have hne : p ≠ n := by
    rw [hp]
    exact Nat.ne_of_gt hlt
  have hhalt : Machine.sysHalt (passed s p) p n = (passed s p).setEng n { (passed s p).eng n with halted := true } := if_pos ⟨hp, hlt⟩
  refine h.ends_same ?_ ?_ ?_ <;> rw [gnum_passed, ← hn, hhalt]
  · rw [eng_setEng_ne _ _ hne, eng_passed_self]
  · rw [eng_setEng_ne _ _ hne, eng_passed_self]
  · refine ⟨by rw [eng_setEng_self], rfl, rfl, fun q hqn hqp => ?_⟩
    rw [eng_setEng_ne _ _ hqn, eng_passed_ne s hqp]

end

theorem Runs.sysTrap {s : State} {p k : Nat} (h : Runs s p) (hk : k < 64) (hi : (s.eng p).running.getD 0 ≠ 31) : Ends (execSysTrap p k s)
    (fun t => t.traps = s.traps ++ [(p, (s.eng p).running.getD 0, k)] ∧ t = { passed s p with traps := t.traps }) := by
  have htrap : Machine.sysTrap (passed s p) p (k % 64) =
      { passed s p with traps := s.traps ++ [(p, (s.eng p).running.getD 0, k)] } := by
    rw [Nat.mod_eq_of_lt hk, Machine.sysTrap, eng_passed_self, if_neg (fun hand => hi hand.1)]
    rfl
  refine h.ends_same ?_ ?_ ?_ <;> rw [htrap]
  · exact pcOf_passed s p
  · show ((passed s p).eng p).bad = _
    rw [eng_passed_self]
  · exact ⟨rfl, rfl⟩

/-- Settles O29: one lemma for each instruction. -/
theorem folioSync : Obligations.FolioSync := by
  unfold Obligations.FolioSync
  intro s p rd rs1 rs2 k n h hn
  simp only [exec_sysFence, exec_syncInit, exec_syncArrive, exec_syncWait, exec_syncArm, exec_sysDisarm, exec_sysTrap, exec_sysCsrw,
    exec_sysHalt, exec_sysStart]
  refine ⟨h.passes rfl, h.syncInit hn, h.syncInit_capless, h.syncArrive hn, h.syncArrive_last hn, h.syncWait_past hn,
    fun hlt hgen j => h.syncWait hn hlt hgen, fun hlt hi hcap q => h.syncArm hn hlt hi hcap, h.sysDisarm hn, h.sysTrap,
    fun hp => ⟨h.passes (if_pos hp), h.passes (if_neg fun hand => hp hand.1), h.passes (if_neg hp)⟩, h.csrw hn, h.sysHalt hn, fun hp => ?_⟩
  rw [execSysStart, h.folio, if_pos hp, gnum_passed, gnum_passed, ← hn]

end Sys2Proof

/-! ## Runs that end, and slices that come to run (R98, R114 to R118) -/

namespace Sys2Proof

open Machine Laws

@[simp] theorem eng_at (s : State) (t q : Nat) : (s.at t).eng q = s.eng q := eng_congr (at_engines s t) q

theorem local_at (s : State) (t p a n : Nat) : (s.at t).local p a n = s.local p a n := by rw [State.local, at_mem, State.local]

/-- A time row of an engine that runs comes to its unit at its instant. -/
theorem Runs.onEngine_at {s : State} {p : Nat} (h : Runs s p) (t : Nat) (f : State → State) : (s.at t).onEngine p f = .next (f (s.at t)) := by
  obtain ⟨hp, htrip, hdorm, -, -⟩ := h
  have hdorm' : dormant (s.at t) p = false := by rw [← hdorm, dormant, rd_congr (at_regs s t), dormant]
  simp [State.onEngine, isEngine, hp, htrip, hdorm']

/-! ### SYS.ARM -/

theorem sliceArm_of_trig {s : State} {p i : Nat} (hi : i < 32) (htrig : s.sliceTrig p i ≠ 1) : sliceArm s p i = s.sliceEnable p i true := by
  have hsame : (s.sliceEnable p i true).sliceTrig p i = s.sliceTrig p i := sliceGet_sliceEnable s p i true (by decide)
  rw [sliceArm, if_neg (by omega)]
  refine if_neg ?_
  simp [hsame, htrig]

section

variable {s : State} {p i : Nat} (h : Runs s p)

include h

theorem Runs.sysArm {rs1 : Nat} (hi : s.gnum p rs1 < 32) (htrig : s.sliceTrig p (s.gnum p rs1) ≠ 1) : Ends (execSysArm p rs1 s)
    (fun t => t.sliceOn p (s.gnum p rs1) = true ∧ t.engines = (passed s p).engines ∧ t.regs = s.regs) := by
  refine h.ends_same ?_ ?_ ?_ <;> rw [gnum_passed, sliceArm_of_trig (s := passed s p) hi htrig]
  · rw [eng_sliceEnable, eng_passed_self]
  · rw [eng_sliceEnable, eng_passed_self]
  · exact ⟨sliceOn_sliceEnable .., rfl, rfl⟩

variable (hi : (s.eng p).running = some i)

include hi

/-! ### The end of a run -/

theorem Runs.sysYield : execSysYield p s =
    .next (fetchCheck (endRun (passed s p) p i (s.pcOf p + 4) { s.slice p i with since := some s.clk, level := false, urgency := 0 }) p) := by
  rw [execSysYield, h.folio, endRunning_passed hi, pcOf_passed]
  rfl

theorem Runs.sysEnd : execSysEnd p s = .next (fetchCheck (endRun (passed s p) p i (s.sliceEntry p i) (s.slice p i)) p) := by
  rw [execSysEnd, h.folio, endRunning_passed hi, eng_passed_self, hi]
  rfl

theorem Runs.timeWait_future {rs1 : Nat} (hns : s.devNs < s.gnum p rs1) : execTimeWait p rs1 s =
    .next (fetchCheck (endRun (passed s p) p i (s.pcOf p + 4) { s.slice p i with wait := .time (s.gnum p rs1) }) p) := by
  have hns' : ¬ s.gnum p rs1 ≤ (passed s p).devNs := Nat.not_le.2 hns
  rw [execTimeWait, h.folio, timeWait, endRunning_passed hi, pcOf_passed, gnum_passed, if_neg hns']

theorem Runs.timeWait_past {rs1 : Nat} (hns : s.gnum p rs1 ≤ s.devNs) : execTimeWait p rs1 s =
    .next (fetchCheck (endRun (passed s p) p i (s.pcOf p + 4) { s.slice p i with since := some s.clk, level := false, wait := .none }) p) := by
  have hns' : s.gnum p rs1 ≤ (passed s p).devNs := hns
  rw [execTimeWait, h.folio, timeWait, endRunning_passed hi, pcOf_passed, gnum_passed, if_pos hns']
  rfl

/-! ### SLICE_MAX_EXCEEDED and SLICE_URGENCY_RISE -/

omit h hi in
theorem sliceMax_at (t : Nat) : (s.at t).sliceMax p i = s.sliceMax p i := local_at ..

theorem Runs.sliceMaxExceeded {t : Nat} (hmax : (s.eng p).runAt + s.sliceMax p i * 65536 < max s.clk t) : execSliceMaxExceeded t p s =
    .next (folioFault (s.at t) p 5 (s.local p (s.pcOf p) 4) 0) := by
  rw [execSliceMaxExceeded, h.onEngine_at, sliceOver, eng_at, hi]
  simp only
  rw [sliceMax_at, at_clk, nsU, if_neg (Nat.not_le.2 hmax), local_at]
  rfl

theorem Runs.sliceMaxKept {t : Nat} (hmax : max s.clk t ≤ (s.eng p).runAt + s.sliceMax p i * 65536) :
    execSliceMaxExceeded t p s = .next (s.at t) := by
  rw [execSliceMaxExceeded, h.onEngine_at, sliceOver, eng_at, hi]
  simp only
  rw [sliceMax_at, at_clk, nsU, if_pos hmax]

theorem Runs.sliceUrgencyRise (t : Nat) : Ends (execSliceUrgencyRise t p s) (fun u => u.regs = s.regs ∧ u.mem = s.mem ∧
    (u.eng p).running = some i ∧ (u.eng p).slices.map (·.1) = (s.eng p).slices.map (·.1) ∧
    ∀ c ∈ (u.eng p).slices, ∀ r, c.2.since = some r → c.2.urgency = urgencyOf (max s.clk t - r) (s.sliceTarget p c.1)) := by
  refine ⟨_, h.onEngine_at t _, at_regs s t, at_mem s t, ?_, ?_, ?_⟩ <;> rw [refreshUrgency, eng_setEng_self, eng_at]
  · exact hi
  · rw [List.map_map]
    refine List.map_congr_left fun c _ => ?_
    simp only [Function.comp_apply]
    split
    · rfl
    · rfl
  · intro c hc r hr
    obtain ⟨d, hd, rfl⟩ := List.mem_map.1 hc
    cases hsince : d.2.since with
    | some a =>
      simp only [hsince, Option.some.injEq] at hr ⊢
      rw [← hr, at_clk, State.sliceTarget, State.sliceGet, local_at]
      rfl
    | none =>
      simp only [hsince] at hr
      cases hr

end

/-- Settles O30: the ends of a run by `endRunning_passed`, the time rows by `Runs.onEngine_at`. -/
theorem folioRunEnds : Obligations.FolioRunEnds := by
  unfold Obligations.FolioRunEnds
  intro s p rs1 i j t0 h hi
  simp only [exec_sysYield, exec_sysEnd, exec_timeWait, exec_sysArm, exec_timeWaitExpiry, exec_sliceMaxExceeded, exec_sliceUrgencyRise]
  refine ⟨h.sysYield hi, h.sysEnd hi, h.timeWait_future hi, h.timeWait_past hi, h.sysArm, fun ns hwait hns hsince => ?_, fun ns hwait hns => ?_,
    h.sliceMaxExceeded hi, h.sliceMaxKept hi, h.sliceUrgencyRise hi t0⟩
  · rw [execTimeWaitExpiry, h.onEngine_at, waitOver, hwait]
    simp only
    rw [if_pos (by simp [hns, hsince])]
  · rw [execTimeWaitExpiry, h.onEngine_at, waitOver, hwait]
    simp only
    rw [if_neg (by simp [hns])]

end Sys2Proof

/-! ## The fault of a Scribe (R112, R113, Table 3-13) -/

namespace Sys2Proof

open Machine Laws

/-! ### An engine that runs keeps its run and its entry while others are woken -/

/-- Engine `p` runs slice `i` with entry `e` in effect. -/
structure Busy (p i : Nat) (e : Option (List Byte)) (t : State) : Prop where
  running : (t.eng p).running = some i
  entry : t.entry (chScribe p) = e

theorem entry_catMove_ne (s : State) {c ch : Nat} (h : ch ≠ c) : (s.catMove c).entry ch = s.entry ch := by
  unfold State.catMove
  split
  · simp only [State.entry, tbl_find_put, if_neg h]
  · rfl

theorem engines_catMove (s : State) (c : Nat) : (s.catMove c).engines = s.engines := by
  unfold State.catMove
  split <;> rfl

theorem cat_startRun (s : State) (q i : Nat) (x : Slice) : (startRun s q i x).cat = s.cat := by
  unfold startRun
  dsimp only
  split <;> rfl

theorem eng_startRun_ne (s : State) {p q : Nat} (i : Nat) (x : Slice) (h : p ≠ q) : (startRun s q i x).eng p = s.eng p := by
  unfold startRun
  dsimp only
  split <;> exact eng_setEng_ne s _ h

theorem eng_refreshUrgency_ne (s : State) {p q : Nat} (h : p ≠ q) : (refreshUrgency s q).eng p = s.eng p := eng_setEng_ne s _ h

section

variable {p i : Nat} {e : Option (List Byte)} {t : State}

theorem Busy.setSlice (h : Busy p i e t) (q j : Nat) (x : Slice) : Busy p i e (t.setSlice q j x) where
  running := by
    by_cases hq : p = q
    · subst hq
      rw [eng_setSlice_self]
      exact h.running
    · rw [eng_setSlice_ne _ _ _ hq, h.running]
  entry := h.entry

theorem Busy.dispatch_ne (h : Busy p i e t) {q : Nat} (hq : p ≠ q) : Busy p i e (dispatch t q) := by
  have hch : chScribe p ≠ chScribe q := fun he => hq (Nat.add_left_cancel he)
  have hmoved : Busy p i e (refreshUrgency (t.catMove (chScribe q)) q) :=
    ⟨by rw [eng_refreshUrgency_ne _ hq, eng_congr (engines_catMove ..), h.running], (entry_catMove_ne t hch).trans h.entry⟩
  unfold dispatch
  dsimp only
  split
  · exact h
  · split
    · exact ⟨by rw [eng_startRun_ne _ _ _ hq, hmoved.running], (entry_congr (congrArg Catalog.inEffect (cat_startRun ..)) _).trans hmoved.entry⟩
    · exact hmoved

theorem Busy.dispatch (h : Busy p i e t) (q : Nat) : Busy p i e (Machine.dispatch t q) := by
  by_cases hq : p = q
  · subst hq
    have hsame : Machine.dispatch t p = t := if_pos (by simp [h.running])
    rw [hsame]
    exact h
  · exact h.dispatch_ne hq

/-- The wake of a ring's consumer. -/
theorem Busy.ringWake (h : Busy p i e t) (n : Nat) : Busy p i e (Machine.ringWake t n) := by
  unfold Machine.ringWake
  split
  · exact h
  · split
    · refine List.foldlRecOn _ _ h fun u hu j _ => ?_
      dsimp only
      split
      · exact (hu.setSlice ..).dispatch _
      · exact hu
    · exact h

theorem Busy.congr (h : Busy p i e t) {u : State} (heng : u.engines = t.engines) (hcat : u.cat = t.cat) : Busy p i e u :=
  ⟨by rw [eng_congr heng, h.running], (entry_congr (congrArg _ hcat) _).trans h.entry⟩

theorem msiEvent_engines (s : State) (n : Nat) : (msiEvent s n).engines = s.engines := by
  rcases msiEvent_cases s n with h | h | h | h <;> rw [h] <;> rfl

theorem msiEvent_cat (s : State) (n : Nat) : (msiEvent s n).cat = s.cat := by
  rcases msiEvent_cases s n with h | h | h | h <;> rw [h] <;> rfl

theorem Busy.ringPublish (h : Busy p i e t) (n k : Nat) (irq : Bool) : Busy p i e (Machine.ringPublish t n k irq) := by
  have hpub : Busy p i e (published t n k) := h.congr rfl rfl
  rcases ringPublish_cases t n k irq with hp | hp <;> rw [hp]
  · exact hpub.ringWake n
  · exact (hpub.congr (msiEvent_engines ..) (msiEvent_cat ..)).ringWake n

/-- An event, posted, held or lost. -/
theorem Busy.event (h : Busy p i e t) (code chan line a b : Nat) : Busy p i e (t.event code chan line a b) := by
  have hraised (u : State) (hu : Busy p i e u) (v : Event) : Busy p i e
      (if u.evHeld = [] && u.evLost == 0 && eventsOpen u then postEventNow u v
      else if u.evHeld.length < 64 && u.evLost == 0 then { u with evHeld := u.evHeld ++ [v] } else { u with evLost := u.evLost + 1 }) := by
    split
    · exact (hu.congr (u := u.pokeBytes _ _) (by rw [pokeBytes_frame]) (pokeBytes_cat ..)).ringPublish ..
    · split
      · exact hu.congr rfl rfl
      · exact hu.congr rfl rfl
  unfold State.event
  refine hraised _ ?_ _
  split
  · exact h.congr rfl rfl
  · exact h

end

/-! ### The record -/

/-- Bytes 19:0 of the record of Table 3-13. -/
def faultHead (s : State) (p i cause word : Nat) : List Byte :=
  leBytes 8 s.devNs ++ leBytes 4 (s.pcOf p) ++ leBytes 4 (if cause = 4 then 0 else word) ++ leBytes 1 cause ++ leBytes 1 i ++
    leBytes 1 (s.agent p % 16) ++ leBytes 1 p

/-- The record of Table 3-13. -/
def faultRecord (s : State) (p i cause word off : Nat) : List Byte :=
  faultHead s p i cause word ++ leBytes 4 0 ++ leBytes 8 off ++ leBytes 32 0

theorem length_faultHead (s : State) (p i cause word : Nat) : (faultHead s p i cause word).length = 20 := by
  simp only [faultHead, List.length_append, length_leBytes]

theorem leBytes_one (n : Nat) : leBytes 1 n = [BitVec.ofNat 8 n] := rfl

theorem faultHead_of_word (s : State) {p i cause word : Nat} (h : cause ≠ 4) : faultHead s p i cause word =
    leBytes 8 s.devNs ++ leBytes 4 (s.pcOf p) ++ leBytes 4 word ++
      [BitVec.ofNat 8 cause, BitVec.ofNat 8 i, BitVec.ofNat 8 (s.agent p % 16), BitVec.ofNat 8 p] := by
  simp only [faultHead, if_neg h, leBytes_one, List.append_assoc, List.cons_append, List.nil_append]

/-- Where the next record of engine `p` lies. -/
def faultPlace (s : State) (p : Nat) : Nat := faultBase p + 64 * ((s.eng p).faults % 16)

/-- Faults of engine `p` within the last second, this one among them. -/
def faultTimesNow (s : State) (p : Nat) : List Nat := (s.clk :: (s.eng p).faultTimes).filter (fun t => decide (s.clk < t + secU))

/-- The slice disabled and the record written. -/
def faultWritten (s : State) (p i cause word off : Nat) : State :=
  localWrite (s.sliceEnable p i false) p (faultPlace s p) (faultRecord s p i cause word off)

/-- The fault counted in engine and registers. -/
def faultCounted (w : State) (p faults : Nat) (times : List Nat) (shown cause : Nat) : State :=
  ((w.setEng p { w.eng p with faults := faults, faultTimes := times }).wr Reg.SCRIBE_INFO.faults p (sat 8 shown)).wr
    Reg.SCRIBE_INFO.last_cause p cause

/-- The state when the event of a fault is raised. -/
def faultNoted (s : State) (p i cause word off : Nat) : State :=
  faultCounted (faultWritten s p i cause word off) p ((s.eng p).faults + 1) (faultTimesNow s p) (s.rd Reg.SCRIBE_INFO.faults p + 1) cause

theorem localWrite_regs (s : State) (p o : Nat) (bs : List Byte) : (localWrite s p o bs).regs = s.regs := by
  unfold localWrite
  dsimp only
  split <;> rfl

theorem localWrite_mem (s : State) (p o : Nat) (bs : List Byte) : (localWrite s p o bs).mem = Mem.write s.mem (localBase p + o) bs := by
  unfold localWrite
  dsimp only
  split <;> rfl

theorem localWrite_cat (s : State) (p o : Nat) (bs : List Byte) : (localWrite s p o bs).cat = s.cat := by
  unfold localWrite
  dsimp only
  split <;> rfl

theorem localWrite_eng_ne (s : State) {p q : Nat} (o : Nat) (bs : List Byte) (h : q ≠ p) : (localWrite s p o bs).eng q = s.eng q := by
  unfold localWrite
  dsimp only
  split
  · rfl
  · exact eng_setEng_ne s _ h

theorem localWrite_running (s : State) (p o : Nat) (bs : List Byte) : ((localWrite s p o bs).eng p).running = (s.eng p).running := by
  unfold localWrite
  dsimp only
  split
  · rfl
  · show ((State.setEng ..).eng p).running = _
    rw [eng_setEng_self]

section

variable (w : State) (p faults : Nat) (times : List Nat) (shown cause : Nat)

theorem faultCounted_mem : (faultCounted w p faults times shown cause).mem = w.mem := rfl

theorem faultCounted_cat : (faultCounted w p faults times shown cause).cat = w.cat := rfl

theorem faultCounted_eng : (faultCounted w p faults times shown cause).eng p = { w.eng p with faults := faults, faultTimes := times } :=
  eng_setEng_self ..

theorem faultCounted_eng_ne {q : Nat} (h : q ≠ p) : (faultCounted w p faults times shown cause).eng q = w.eng q := eng_setEng_ne _ _ h

theorem faultCounted_last_cause : (faultCounted w p faults times shown cause).rd Reg.SCRIBE_INFO.last_cause p = low 8 cause := rd_wr_self ..

theorem faultCounted_shown : (faultCounted w p faults times shown cause).rd Reg.SCRIBE_INFO.faults p = min shown 255 := by
  rw [faultCounted, rd_wr_field _ _ _ _ (by decide), rd_wr_self]
  exact low_of_lt (Nat.lt_of_le_of_lt (Nat.min_le_right ..) (by decide))

end

section

variable {s : State} {p i cause word off : Nat}

theorem faultNoted_mem : (faultNoted s p i cause word off).mem = Mem.write (s.sliceEnable p i false).mem (localBase p + faultPlace s p)
    (faultRecord s p i cause word off) := by
  rw [faultNoted, faultCounted_mem, faultWritten, localWrite_mem]

theorem faultNoted_faults : ((faultNoted s p i cause word off).eng p).faults = (s.eng p).faults + 1 := by rw [faultNoted, faultCounted_eng]

theorem faultNoted_eng_ne {q : Nat} (h : q ≠ p) : (faultNoted s p i cause word off).eng q = s.eng q := by
  rw [faultNoted, faultCounted_eng_ne _ _ _ _ _ _ h, faultWritten, localWrite_eng_ne _ _ _ h, eng_sliceEnable]

theorem faultNoted_busy (hi : (s.eng p).running = some i) : Busy p i (s.entry (chScribe p)) (faultNoted s p i cause word off) where
  running := by rw [faultNoted, faultCounted_eng, faultWritten, localWrite_running, eng_sliceEnable, hi]
  entry := by
    refine entry_congr (congrArg _ ?_) _
    rw [faultNoted, faultCounted_cat, faultWritten, localWrite_cat]
    rfl

theorem faultNoted_last_cause (h : cause < 16) : (faultNoted s p i cause word off).rd Reg.SCRIBE_INFO.last_cause p = cause := by
  rw [faultNoted, faultCounted_last_cause, low_of_lt (by omega)]

theorem faultNoted_count : (faultNoted s p i cause word off).rd Reg.SCRIBE_INFO.faults p = min (s.rd Reg.SCRIBE_INFO.faults p + 1) 255 := by
  rw [faultNoted, faultCounted_shown]

theorem faultNoted_sliceOn (h : i < 32) : (faultNoted s p i cause word off).sliceOn p i = false := by
  have hend := sliceTable_end p
  have hbyte : (faultNoted s p i cause word off).sliceGet p i 14 1 = (s.sliceEnable p i false).sliceGet p i 14 1 := by
    rw [State.sliceGet, local_byte, faultNoted_mem, mem_get_write_out _ _ _ (.inl (by rw [faultPlace]; omega)), ← local_byte, State.sliceGet]
  rw [State.sliceOn, hbyte]
  exact sliceOn_sliceEnable ..

/-- The first part of bytes written, read back. -/
theorem mem_read_write_first (m : List Host.Cell) (a : Nat) (bs cs : List Byte) : Mem.read (Mem.write m a (bs ++ cs)) a bs.length = bs := by
  have hall := mem_read_write (bs ++ cs) m a
  rw [List.length_append, mem_read_append] at hall
  exact List.append_inj_left hall (length_memRead ..)

theorem faultNoted_record (h : cause ≠ 4) :
    Mem.read (faultNoted s p i cause word off).mem (localBase p + faultBase p + 64 * ((s.eng p).faults % 16)) 20 =
      leBytes 8 s.devNs ++ leBytes 4 (s.pcOf p) ++ leBytes 4 word ++
        [BitVec.ofNat 8 cause, BitVec.ofNat 8 i, BitVec.ofNat 8 (s.agent p % 16), BitVec.ofNat 8 p] := by
  have hread := mem_read_write_first (s.sliceEnable p i false).mem (localBase p + faultPlace s p) (faultHead s p i cause word)
    (leBytes 4 0 ++ leBytes 8 off ++ leBytes 32 0)
  rw [length_faultHead, ← List.append_assoc, ← List.append_assoc] at hread
  rw [faultNoted_mem, faultRecord, ← faultHead_of_word s h, Nat.add_assoc]
  exact hread

/-! ### The fault -/

theorem faultWritten_clk : (faultWritten s p i cause word off).clk = s.clk := by
  unfold faultWritten localWrite
  dsimp only
  split <;> rfl

theorem faultWritten_rd (f : Fld) (k : Nat) : (faultWritten s p i cause word off).rd f k = s.rd f k := rd_congr (localWrite_regs ..) f k

/-- What follows the event of a fault: a Scribe retired where R123 asks for it, and the end of the run. -/
def faultEnds (s t : State) (p i cause : Nat) (times : List Nat) : State :=
  endRun (if cause = 4 then scribeRetire t p 2 else if t.ent (chScribe p) ScribeE.faultLimit ≤ times.length then scribeRetire t p 1 else t) p i
    (s.pcOf p + 4) Slice.reset

theorem scribeFault_of_running (hi : (s.eng p).running = some i) : scribeFault s p cause word off =
    let w := faultWritten s p i cause word off
    let times := (w.clk :: (s.eng p).faultTimes).filter (fun t => decide (w.clk < t + secU))
    let u := faultCounted w p ((s.eng p).faults + 1) times (w.rd Reg.SCRIBE_INFO.faults p + 1) cause
    faultEnds s (u.event 0x0101 (chScribe p) 0 (cause + 256 * i + 65536 * (s.agent p % 16)) (s.pcOf p)) p i cause times := by
  have htime : (s.sliceEnable p i false).devNs = s.devNs := rfl
  unfold scribeFault faultEnds faultWritten faultPlace faultRecord faultHead State.pcOf
  rw [hi]
  dsimp only
  rw [htime]
  generalize localWrite _ _ _ _ = w
  rfl

/-- A fault below the limit: the run ends after the event, and no Scribe is retired. -/
theorem scribeFault_eq (hi : (s.eng p).running = some i) (hcause : cause ≠ 4)
    (hlimit : (faultTimesNow s p).length < s.ent (chScribe p) ScribeE.faultLimit) : scribeFault s p cause word off =
      endRun ((faultNoted s p i cause word off).event 0x0101 (chScribe p) 0 (cause + 256 * i + 65536 * (s.agent p % 16)) (s.pcOf p)) p i
        (s.pcOf p + 4) Slice.reset := by
  have hbusy := (faultNoted_busy (cause := cause) (word := word) (off := off) hi).event 0x0101 (chScribe p) 0
    (cause + 256 * i + 65536 * (s.agent p % 16)) (s.pcOf p)
  have hent : ((faultNoted s p i cause word off).event 0x0101 (chScribe p) 0 (cause + 256 * i + 65536 * (s.agent p % 16)) (s.pcOf p)).ent
      (chScribe p) ScribeE.faultLimit = s.ent (chScribe p) ScribeE.faultLimit := by
    rw [State.ent, hbusy.entry, State.ent]
  rw [scribeFault_of_running hi]
  dsimp only
  rw [faultWritten_clk, faultWritten_rd]
  exact congrArg (fun t => endRun t p i (s.pcOf p + 4) Slice.reset) ((if_neg hcause).trans (if_neg (by rw [Nat.not_le]; exact hent ▸ hlimit)))

end

/-- Settles O14: the event leaves the entry of the faulting Scribe, so `scribeFault_eq` finds the limit not reached. -/
theorem folioFaultRecord : Obligations.FolioFaultRecord := by
  unfold Obligations.FolioFaultRecord
  refine ⟨fun s word off cause => if_pos rfl, fun s p i cause word off hp hi hcause h4 hlimit => ?_⟩
  have hne : p ≠ registrar := Nat.ne_of_lt hp
  refine ⟨faultNoted s p i cause word off, ?_, faultNoted_sliceOn, faultNoted_faults, faultNoted_last_cause hcause, faultNoted_count,
    faultNoted_record h4, fun _ q => faultNoted_eng_ne⟩
  rw [folioFault, if_neg hne, scribeFault_eq hi h4 hlimit]

end Sys2Proof

/-! ## Rings from a program: RING.PUSH, RING.POP, RING.DONE and RING.STAT (R94, R96, R370, Tables 1-10 and 3-7) -/

namespace Sys2Proof

open Machine Laws

/-! ### RING.PUSH -/

/-- The descriptor that RING.PUSH copies: 32 bytes of local memory, with `seq` the index. -/
def pushedDesc (s : State) (p o i : Nat) : List Byte :=
  (Mem.read s.mem (localBase p + o) 32).take 15 ++ leBytes 1 i ++ (Mem.read s.mem (localBase p + o) 32).drop 16

theorem length_pushedDesc (s : State) (p o i : Nat) : (pushedDesc s p o i).length = 32 := by
  simp [pushedDesc]

theorem getElem_memRead (m : List Host.Cell) (a : Nat) {n k : Nat} (h : k < (Mem.read m a n).length) : (Mem.read m a n)[k] = Mem.get m (a + k) := by
  induction n generalizing a k with
  | zero => exact absurd h (Nat.not_lt_zero k)
  | succ n ih =>
    cases k with
    | zero => rfl
    | succ k =>
      simp only [Mem.read, List.getElem_cons_succ]
      rw [ih, Nat.add_right_comm, Nat.add_assoc]

theorem getElem_pushedDesc (s : State) (p o i : Nat) {k : Nat} (h : k < (pushedDesc s p o i).length) :
    (pushedDesc s p o i)[k] = if k = 15 then BitVec.ofNat 8 i else Mem.get s.mem (localBase p + o + k) := by
  have hk : k < 32 := length_pushedDesc s p o i ▸ h
  rcases Nat.lt_trichotomy k 15 with hlt | rfl | hgt
  · simp [pushedDesc, leBytes_one, List.getElem_append_left, getElem_memRead, hlt, Nat.ne_of_lt hlt]
  · simp [pushedDesc, leBytes_one]
  · obtain ⟨j, rfl⟩ := Nat.exists_eq_add_of_lt hgt
    have hlen : (List.take 15 (Mem.read s.mem (localBase p + o) 32)).length = 15 := by simp
    simp only [pushedDesc, leBytes_one, List.append_assoc, List.singleton_append]
    rw [List.getElem_append_right (by omega), if_neg (by omega)]
    simp only [hlen, show 15 + j + 1 - 15 = j + 1 by omega, List.getElem_cons_succ, List.getElem_drop, getElem_memRead]
    congr 1
    omega

theorem ringPush_off {s : State} {n : Nat} (h : 256 ≤ n) (p o : Nat) : ringPush s p n o = (s, 0) := if_pos (by simp [h])

theorem ringPop_off {s : State} {n : Nat} (h : 256 ≤ n) (p o : Nat) : ringPop s p n o = (s, 0) := if_pos (by simp [h])

theorem ringPop_bndOwns {s : State} {n : Nat} (h : bndOwns s n = true) (p o : Nat) : ringPop s p n o = (s, 0) := if_pos (by simp [h])

theorem ringStat_off {s : State} {n : Nat} (h : 256 ≤ n) : ringStat s n = 0 := if_neg (by omega)

theorem ringPush_full {s : State} {p n o : Nat} (hn : n < 256) (ho : localFits p o 32 = true) (hup : s.ringUp n = true)
    (hprod : s.ent (chRing n) RingE.producer = s.agent p) (hfull : s.ringFull n = true) : ringPush s p n o = (s, (s.ring n).prod) := by
  rw [ringPush, if_neg (by simp [hn, ho, hup, hprod]), if_pos hfull]

theorem ringPush_room {s : State} {p n o : Nat} (hn : n < 256) (ho : localFits p o 32 = true) (hup : s.ringUp n = true)
    (hprod : s.ent (chRing n) RingE.producer = s.agent p) (hroom : s.ringFull n = false) : ∃ irq, ringPush s p n o =
      (ringPublish (s.pokeBytes (s.descAddr n (s.ring n).prod) (pushedDesc s p o (s.ring n).prod)) n 1 irq,
        ((ringPublish (s.pokeBytes (s.descAddr n (s.ring n).prod) (pushedDesc s p o (s.ring n).prod)) n 1 irq).ring n).prod) := by
  refine ⟨(Desc.ofBytes (pushedDesc s p o (s.ring n).prod)).irq, ?_⟩
  rw [ringPush, if_neg (by simp [hn, ho, hup, hprod]), if_neg (by simp [hroom])]
  rfl

/-- A descriptor published, before the ring's consumer is woken. -/
theorem ringPublish_one (s : State) (n : Nat) (irq : Bool) : ∃ u, ringPublish s n 1 irq = ringWake u n ∧
    (u.ring n).prod = mod32 ((s.ring n).prod + 1) ∧ (u.ring n).cons = (s.ring n).cons ∧
    u.ledGet (Led.descPosted n) = low 64 (s.ledGet (Led.descPosted n) + 1) ∧ u.mem = s.mem ∧ u.engines = s.engines := by
  have hdiff : diff32 (mod32 ((s.ring n).prod + 1)) (s.ring n).prod = 1 := by
    unfold diff32 mod32
    omega
  have hposted := posted_published s n (i := mod32 ((s.ring n).prod + 1)) (Nat.mod_lt _ (by decide))
  have hafter (u : State) (hu : Posted s u n (mod32 ((s.ring n).prod + 1))) : (u.ring n).prod = mod32 ((s.ring n).prod + 1) ∧
      (u.ring n).cons = (s.ring n).cons ∧ u.ledGet (Led.descPosted n) = low 64 (s.ledGet (Led.descPosted n) + 1) ∧ u.mem = s.mem := by
    obtain ⟨hprod, hcons, -, hled, -, hmem⟩ := hu
    exact ⟨hprod, hcons, hdiff ▸ hled, hmem⟩
  rw [hdiff] at hposted
  rcases ringPublish_cases s n 1 irq with hp | hp
  · obtain ⟨hprod, hcons, hled, hmem⟩ := hafter _ hposted
    exact ⟨_, hp, hprod, hcons, hled, hmem, rfl⟩
  · obtain ⟨hprod, hcons, hled, hmem⟩ := hafter _ hposted.msiEvent
    exact ⟨_, hp, hprod, hcons, hled, hmem, msiEvent_engines ..⟩

theorem ring_pokeBytes (s : State) (a : Nat) (bs : List Byte) (n : Nat) : (s.pokeBytes a bs).ring n = s.ring n := by
  rw [State.ring, pokeBytes_rings, State.ring]

theorem ledGet_pokeBytes (s : State) (a : Nat) (bs : List Byte) (k : Nat) : (s.pokeBytes a bs).ledGet k = s.ledGet k := by
  rw [State.ledGet, pokeBytes_led, State.ledGet]

/-! ### RING.POP -/

/-- A table whose values are changed one by one, the default not among those that change. -/
theorem tbl_get_map {α : Type} (d : α) (f : Nat → α → α) (hd : ∀ k, f k d = d) (t : Tbl α) (k : Nat) :
    Tbl.get d (t.map (fun c => (c.1, f c.1 c.2))) k = f k (Tbl.get d t k) := by
  induction t with
  | nil => exact (hd k).symm
  | cons c t ih =>
    simp only [List.map_cons, Tbl.get]
    split
    next hk => rw [hk]
    · exact ih

/-- The slices of engine `q` once ring `n` is read again: one made runnable by the ring's level is not where the ring is empty (R116). -/
def settledEngine (s : State) (n q : Nat) (e : Engine) : Engine :=
  { e with slices := e.slices.map (fun x =>
      if x.2.level && s.sliceArg q x.1 == n && !ringLevel s q n then
        (x.1, { x.2 with since := if x.2.again then some s.clk else none, again := false, level := false, urgency := 0 })
      else x) }

theorem eng_ringSettle (s : State) (n q : Nat) : (ringSettle s n).eng q = settledEngine s n q (s.eng q) :=
  tbl_get_map Engine.reset (settledEngine s n) (fun _ => rfl) s.engines q

/-- A descriptor taken changes nothing of an engine but its slices. -/
theorem eng_ringTake (s : State) (n a q : Nat) :
    (ringTake s n a).eng q = { s.eng q with slices := ((ringTake s n a).eng q).slices } := by
  have hsettled : (ringTake s n a).eng q = settledEngine
      (s.setRing n { s.ring n with cons := mod32 ((s.ring n).cons + 1), flight := (s.ring n).flight ++ [((s.ring n).cons, a)] }) n q (s.eng q) :=
    eng_ringSettle ..
  rw [hsettled]
  rfl

theorem ring_ringTake (s : State) (n a : Nat) : (ringTake s n a).ring n =
    { s.ring n with cons := mod32 ((s.ring n).cons + 1), flight := (s.ring n).flight ++ [((s.ring n).cons, a)] } := ring_setRing_self ..

theorem length_peekBytes (s : State) (a n : Nat) : (s.peekBytes a n).length = n := by
  induction n generalizing a with
  | zero => rfl
  | succ n ih => rw [State.peekBytes, List.length_cons, ih]

theorem ringPop_taken {s : State} {p n o : Nat} (hb : (s.eng p).bad = []) (hn : n < 256) (ho : localTakes p o 32 = true) (hup : s.ringUp n = true)
    (hcons : s.ent (chRing n) RingE.consumer = s.agent p) (hown : bndOwns s n = false) (hholds : s.ringHolds n ≠ 0) : ringPop s p n o =
      ({ ringTake s n (s.agent p) with mem := Mem.write s.mem (localBase p + o) (s.peekBytes (s.descAddr n (s.ring n).cons) 32) },
        2 ^ 32 + (s.ring n).cons) := by
  rw [ringPop, if_neg (by simp [hn, ho, hup, hcons, hown, hholds])]
  dsimp only
  rw [localWrite_of_good (by rw [eng_ringTake]; exact hb)]
  rfl

/-! ### RING.DONE -/

theorem ringDone_flight {s : State} {p v n o : Nat} (hn : n < 256) (ho : localFits p o 32 = true)
    (hcons : s.ent (chRing n) RingE.consumer = s.agent p) (hv : v / 2 ^ 32 = 1) (hflight : (v % 2 ^ 32, s.agent p) ∈ (s.ring n).flight) :
    ringDone s p v n o = ringComplete s n (v % 2 ^ 32) (s.local p (o + 24) 4) (s.local p (o + 28) 4) := by
  have hany : (s.ring n).flight.any (fun x => x == (v % 2 ^ 32, s.agent p)) = true := List.any_eq_true.2 ⟨_, hflight, beq_self_eq_true _⟩
  rw [ringDone]
  exact if_neg (by simp only [ho, hcons, hv, hany, bne_self_eq_false, Bool.not_true, Bool.or_false, decide_eq_true_eq]; omega)

/-! ### The instructions -/

section

variable {s : State} {p rd rs1 rs2 n o : Nat} (h : Runs s p) (hn : n = s.gnum p rs1) (ho : o = s.gnum p rs2)

include h hn ho

omit hn ho in
theorem execRingPush_devOp : execRingPush p rd rs1 rs2 s = devOp p rd (fun s => ringPush s p (s.gnum p rs1) (s.gnum p rs2)) s :=
  folioIf_ok (copyBad_of_runs h ..) _

theorem Runs.pushAnswers {v : Nat} (hv : ringPush (passed s p) p n o = (passed s p, v)) :
    Ends (execRingPush p rd rs1 rs2 s) (fun t => GWrites s t p rd (BitVec.ofNat 64 v)) := by
  rw [execRingPush_devOp h]
  exact h.answers (by rw [gnum_passed, gnum_passed, ← hn, ← ho, hv])

theorem Runs.popAnswers {v : Nat} (hv : ringPop (passed s p) p n o = (passed s p, v)) :
    Ends (execRingPop p rd rs1 rs2 s) (fun t => GWrites s t p rd (BitVec.ofNat 64 v)) :=
  h.answers (by rw [gnum_passed, gnum_passed, ← hn, ← ho, hv])

theorem Runs.pushes (hlt : n < 256) (hfits : localFits p o 32 = true) (hup : s.ringUp n = true)
    (hprod : s.ent (chRing n) RingE.producer = s.agent p) (hroom : s.ringFull n = false) : ∃ u : State,
      (u.ring n).prod = ((s.ring n).prod + 1) % 2 ^ 32 ∧ (u.ring n).cons = (s.ring n).cons ∧ u.engines = (passed s p).engines ∧
      u.ledGet (Led.descPosted n) = (s.ledGet (Led.descPosted n) + 1) % 2 ^ 64 ∧
      u.mem = ((passed s p).pokeBytes (s.descAddr n (s.ring n).prod) (pushedDesc s p o (s.ring n).prod)).mem ∧
      execRingPush p rd rs1 rs2 s = .next (fetchCheck ((ringWake u n).gset p rd (BitVec.ofNat 64 ((ringWake u n).ring n).prod)) p) := by
  obtain ⟨irq, hpush⟩ := ringPush_room (s := passed s p) hlt hfits hup hprod hroom
  obtain ⟨u, hu, hprod', hcons, hled, hmem, heng⟩ := ringPublish_one
    ((passed s p).pokeBytes (s.descAddr n (s.ring n).prod) (pushedDesc s p o (s.ring n).prod)) n irq
  rw [ring_pokeBytes] at hprod' hcons
  rw [ledGet_pokeBytes] at hled
  refine ⟨u, hprod', hcons, ?_, hled, hmem, ?_⟩
  · rw [heng, pokeBytes_frame]
  · rw [← hu, execRingPush_devOp h, h.devOp, gnum_passed, gnum_passed, ← hn, ← ho, hpush]
    rfl

theorem Runs.pops (hlt : n < 256) (htakes : localTakes p o 32 = true) (hup : s.ringUp n = true)
    (hcons : s.ent (chRing n) RingE.consumer = s.agent p) (hown : bndOwns s n = false) (hholds : s.ringHolds n ≠ 0) : ∃ u : State,
      (u.ring n).cons = ((s.ring n).cons + 1) % 2 ^ 32 ∧ (u.ring n).prod = (s.ring n).prod ∧
      (u.ring n).flight = (s.ring n).flight ++ [((s.ring n).cons, s.agent p)] ∧
      Mem.read u.mem (localBase p + o) 32 = s.peekBytes (s.descAddr n (s.ring n).cons) 32 ∧
      (∀ x, (x < localBase p + o ∨ localBase p + o + 32 ≤ x) → Mem.get u.mem x = Mem.get s.mem x) ∧ u.regs = s.regs ∧
      (∀ q, u.eng q = { (passed s p).eng q with slices := (u.eng q).slices }) ∧
      execRingPop p rd rs1 rs2 s = .next (u.gset p rd (BitVec.ofNat 64 (2 ^ 32 + (s.ring n).cons))) := by
  have hb : ((passed s p).eng p).bad = [] := by simpa using h.bad
  obtain ⟨u, hu⟩ : ∃ u : State, u = { ringTake (passed s p) n (s.agent p) with
    mem := Mem.write s.mem (localBase p + o) (s.peekBytes (s.descAddr n (s.ring n).cons) 32) } := ⟨_, rfl⟩
  have hpop : ringPop (passed s p) p n o = (u, 2 ^ 32 + (s.ring n).cons) := by
    rw [ringPop_taken (s := passed s p) hb hlt htakes hup hcons hown hholds, peekBytes_passed, hu]
    rfl
  have hring : u.ring n = { s.ring n with cons := mod32 ((s.ring n).cons + 1), flight := (s.ring n).flight ++ [((s.ring n).cons, s.agent p)] } := by
    rw [hu]
    exact ring_ringTake (passed s p) n (s.agent p)
  have hmem : u.mem = Mem.write s.mem (localBase p + o) (s.peekBytes (s.descAddr n (s.ring n).cons) 32) := by rw [hu]
  have heng (q : Nat) : u.eng q = { (passed s p).eng q with slices := (u.eng q).slices } := by
    rw [hu]
    exact eng_ringTake (passed s p) n (s.agent p) q
  have hlen := length_peekBytes s (s.descAddr n (s.ring n).cons) 32
  refine ⟨u, by rw [hring]; rfl, by rw [hring], by rw [hring], ?_, fun x hx => ?_, by rw [hu]; rfl, heng, ?_⟩
  · have hread := mem_read_write (s.peekBytes (s.descAddr n (s.ring n).cons) 32) s.mem (localBase p + o)
    rw [hlen] at hread
    rw [hmem, hread]
  · rw [hmem, mem_get_write_out _ _ _ (by rw [hlen]; exact hx)]
  · rw [execRingPop, h.devOp, gnum_passed, gnum_passed, ← hn, ← ho, hpop, fetchCheck_of_good]
    · rfl
    · rw [pcOf_gnat, State.pcOf, heng, eng_passed_self]
      exact h.next_lt
    · rw [bad_gnat, heng]
      exact hb

end

/-- Settles O23: RING.PUSH by `Runs.pushes`, RING.POP by `Runs.pops`. -/
theorem folioRings : Obligations.FolioRings := by
  unfold Obligations.FolioRings
  rintro s p rd rs1 rs2 n o i h hn ho rfl
  simp only [exec_ringPush, exec_ringPop, exec_ringStat, exec_ringDone]
  refine ⟨fun hoff => ⟨h.pushAnswers hn ho (ringPush_off hoff ..), h.popAnswers hn ho (ringPop_off hoff ..), h.reads ?_⟩,
    fun hlt => h.reads ?_, fun hlt hfits hup hprod => ⟨fun hfull => ?_, fun hroom => ?_⟩, h.pops hn ho,
    fun hown => h.popAnswers hn ho (ringPop_bndOwns (s := passed s p) hown ..),
    fun hlt hfits hcons hv hflight => ⟨passed s p, rfl, rfl, rfl, ?_⟩⟩
  · rw [gnum_passed, ← hn, ringStat_off hoff]
  · rw [gnum_passed, ← hn, ringStat, if_pos hlt]
    rfl
  · exact h.pushAnswers hn ho (ringPush_full (s := passed s p) hlt hfits hup hprod hfull)
  · obtain ⟨u, hprod', hcons, heng, hled, hmem, hexec⟩ := h.pushes hn ho hlt hfits hup hprod hroom
    refine ⟨u, hprod', hcons, heng, hled, fun harea hend k hk => ?_, hexec⟩
    have hlen := length_pushedDesc s p o (s.ring n).prod
    rw [hmem, pokeBytes_mem, pokeList_mem_readingRoom _ _ _ (areaOf_eq_readingRoom.1 harea).1 (by rw [hlen]; exact hend),
      mem_get_write_in _ _ (hlen.symm ▸ hk), getElem_pushedDesc]
  · rw [execRingDone, folioIf_ok (copyBad_of_runs h ..), h.folio]
    rw [gnum_passed, gnum_passed, gnum_passed, ← hn, ← ho, ringDone_flight (s := passed s p) hlt hfits hcons hv hflight]
    rfl

end Sys2Proof

/-! ## The copy engine (R129 to R131) -/

namespace Sys2Proof

open Machine Laws

/-! ### What the clock leaves as it is -/

theorem peekBytes_at (s : State) (t a n : Nat) : (s.at t).peekBytes a n = s.peekBytes a n :=
  peekBytes_of_peek (by funext x; simp only [State.peek, frozen_at, at_mem]) a n

@[simp] theorem desc_at (s : State) (t n i : Nat) : (s.at t).desc n i = s.desc n i := by
  simp only [State.desc, State.descAddr, ent_at, ringSize_at, peekBytes_at]

@[simp] theorem intakeReady_at (s : State) (t n : Nat) : intakeReady (s.at t) n = intakeReady s n := by
  simp only [intakeReady, hostOpen, intakeRing, mode_at, frozen_at, ringUp_at, ent_at, inUse_at, at_la, ringHolds_at]

/-! ### The checks of a descriptor -/

theorem intakeDest_at_eq_true {s : State} {t a n : Nat} :
    intakeDest (s.at t) a n = true ↔ a + n ≤ stacksSize ∧ overlap a n (catBase s) catSize = false := by
  simp [intakeDest, inStacks, catBase]

theorem intakeDest_at_eq_false {s : State} {t a n : Nat} :
    intakeDest (s.at t) a n = false ↔ stacksSize < a + n ∨ overlap a n (catBase s) catSize = true := by
  rw [Bool.eq_false_iff, ne_eq, intakeDest_at_eq_true, ← not_le, ← imp_iff_not_or, not_and, Bool.not_eq_false]

theorem frozen_of_intakeReady {s : State} {n : Nat} (h : intakeReady s n = true) : s.frozen = false := by
  simp only [intakeReady, Bool.and_eq_true, Bool.not_eq_true'] at h
  obtain ⟨⟨⟨⟨-, hfrozen⟩, -⟩, -⟩, -⟩ := h
  exact hfrozen

/-- Both descriptors of a pair are taken. -/
def pairTaken (s : State) (n : Nat) : State := ringTake (ringTake s n copyAgent) n copyAgent

/-- A pair is taken and completes with `status`. -/
def pairRefused (s : State) (n status : Nat) : State :=
  ringComplete (ringComplete (pairTaken s n) n (s.ring n).cons status 0) n (mod32 ((s.ring n).cons + 1)) status 0

/-- A pair is taken and its copy is in progress. -/
def copyStarted (s : State) (n : Nat) : State :=
  { pairTaken s n with la := { s.la with copying := s.la.copying.put n (s.ring n).cons } }

section
variable {s : State} {n : Nat} (hready : intakeReady s n = true)
include hready

theorem copyIn_other (hput : (s.desc n (s.ring n).cons).opcode ≠ 0x0102) (hcopy : (s.desc n (s.ring n).cons).opcode ≠ 0x0101) :
    copyIn s n = intakeRefuse s n 0x103 := by
  simp [copyIn, hready, opPut32, opCopyIn, hput, hcopy, intakeOther]

theorem put32_other (hput : (s.desc n (s.ring n).cons).opcode ≠ 0x0102) (hcopy : (s.desc n (s.ring n).cons).opcode ≠ 0x0101) :
    put32 s n = intakeRefuse s n 0x103 := by
  simp [put32, hready, opPut32, opCopyIn, hput, hcopy, intakeOther]

theorem copyIn_unchained (hcopy : (s.desc n (s.ring n).cons).opcode = 0x0101) (hchain : (s.desc n (s.ring n).cons).chain = false) :
    copyIn s n = intakeRefuse s n 0x104 := by
  simp [copyIn, hready, opPut32, opCopyIn, hcopy, hchain]

theorem put32_refused (hput : (s.desc n (s.ring n).cons).opcode = 0x0102) (hbad : (s.desc n (s.ring n).cons).addr % 4 ≠ 0 ∨
    intakeDest s (s.desc n (s.ring n).cons).addr 4 = false) : put32 s n = intakeRefuse s n 0x102 := by
  simp only [put32, hready, Bool.not_true, Bool.false_eq_true, if_false, opPut32, hput, ne_eq, not_true_eq_false]
  exact if_pos (by simpa using hbad)

theorem put32_taken (hput : (s.desc n (s.ring n).cons).opcode = 0x0102) (h4 : (s.desc n (s.ring n).cons).addr % 4 = 0)
    (hdest : intakeDest s (s.desc n (s.ring n).cons).addr 4 = true) : put32 s n =
      ringComplete ((ringTake s n copyAgent).pokeNat (s.desc n (s.ring n).cons).addr 4 (s.desc n (s.ring n).cons).length) n
        (s.ring n).cons 0 (s.desc n (s.ring n).cons).length := by
  simp only [put32, hready, Bool.not_true, Bool.false_eq_true, if_false, opPut32, hput, ne_eq, not_true_eq_false]
  exact if_neg (by simp [h4, hdest])

/-! ### A COPY_IN with a descriptor behind it -/

section
variable (hcopy : (s.desc n (s.ring n).cons).opcode = 0x0101) (hchain : (s.desc n (s.ring n).cons).chain = true)
  (hholds : 2 ≤ s.ringHolds n)
include hcopy hchain hholds

theorem copyIn_unpaired (hpair : (s.desc n (mod32 ((s.ring n).cons + 1))).opcode ≠ 0x0100) : copyIn s n = intakeRefuse s n 0x104 := by
  simp [copyIn, hready, opPut32, opCopyIn, opCopyDest, hcopy, hchain, hholds.not_gt, hpair]

section
variable (hpair : (s.desc n (mod32 ((s.ring n).cons + 1))).opcode = 0x0100)
include hpair

/-- A pair: the source is checked, then the destination. -/
theorem copyIn_paired : copyIn s n =
    if (!liesIn (s.desc n (s.ring n).cons).addr (s.desc n (s.ring n).cons).length .host ||
      areaOf (s.desc n (s.ring n).cons).addr != .host) = true then pairRefused s n 0x101
    else if intakeDest s (s.desc n (mod32 ((s.ring n).cons + 1))).addr (s.desc n (s.ring n).cons).length = false then pairRefused s n 0x102
    else copyStarted s n := by
  simp only [copyIn, hready, hcopy, hchain, hpair, hholds.not_gt, opPut32, opCopyIn, opCopyDest, ne_eq, not_true_eq_false, Bool.not_true,
    Bool.false_eq_true, if_false, Bool.not_eq_true', Nat.reduceEqDiff]
  rfl

theorem copyIn_badSource (h : liesIn (s.desc n (s.ring n).cons).addr (s.desc n (s.ring n).cons).length .host = false ∨
    areaOf (s.desc n (s.ring n).cons).addr ≠ .host) : copyIn s n = pairRefused s n 0x101 := by
  rw [copyIn_paired hready hcopy hchain hholds hpair]
  exact if_pos (by simpa using h)

variable (hlies : liesIn (s.desc n (s.ring n).cons).addr (s.desc n (s.ring n).cons).length .host = true)
  (harea : areaOf (s.desc n (s.ring n).cons).addr = .host)
include hlies harea

theorem copyIn_badDest (hdest : intakeDest s (s.desc n (mod32 ((s.ring n).cons + 1))).addr (s.desc n (s.ring n).cons).length = false) :
    copyIn s n = pairRefused s n 0x102 := by
  rw [copyIn_paired hready hcopy hchain hholds hpair, if_neg (by simp [hlies, harea])]
  exact if_pos hdest

theorem copyIn_taken (hdest : intakeDest s (s.desc n (mod32 ((s.ring n).cons + 1))).addr (s.desc n (s.ring n).cons).length = true) :
    copyIn s n = copyStarted s n := by
  rw [copyIn_paired hready hcopy hchain hholds hpair, if_neg (by simp [hlies, harea])]
  exact if_neg (by simp [hdest])

end

end

end

theorem ring_copyStarted (s : State) (n : Nat) : (copyStarted s n).ring n =
    { s.ring n with
      cons := mod32 (mod32 ((s.ring n).cons + 1) + 1)
      flight := (s.ring n).flight ++ [((s.ring n).cons, copyAgent), (mod32 ((s.ring n).cons + 1), copyAgent)] } := by
  have hring : (copyStarted s n).ring n = (pairTaken s n).ring n := rfl
  rw [hring, pairTaken, ring_ringTake, ring_ringTake, List.append_assoc, List.singleton_append]

theorem copyStarted_copying (s : State) (n : Nat) : Tbl.find (copyStarted s n).la.copying n = some (s.ring n).cons := by
  rw [copyStarted, tbl_find_put, if_pos rfl]

/-! ### What lands in the Stacks -/

theorem copyDone_idle {s : State} {n : Nat} (h : Tbl.find s.la.copying n = none) : copyDone s n = s := by simp only [copyDone, h]

/-- The copy in progress on ring `n` is over. -/
def copyOver (s : State) (n : Nat) : State := { s with la := { s.la with copying := Tbl.del s.la.copying n } }

theorem peekBytes_copyOver (s : State) (n a k : Nat) : (copyOver s n).peekBytes a k = s.peekBytes a k :=
  peekBytes_of_peek (s := copyOver s n) (t := s) rfl a k

/-- The data of the copy whose descriptors begin at index `j` stands at its destination. -/
def dataLanded (s : State) (n j : Nat) : State :=
  (copyOver s n).pokeBytes (s.desc n (mod32 (j + 1))).addr (s.peekBytes (s.desc n j).addr (s.desc n j).length)

theorem copyDone_landed {s : State} {n j : Nat} (h : Tbl.find s.la.copying n = some j) : copyDone s n =
    ringComplete (ringComplete (dataLanded s n j) n j 0 (s.desc n j).length) n (mod32 (j + 1)) 0 (s.desc n j).length := by
  rw [dataLanded, ← peekBytes_copyOver s n, copyDone, h]
  rfl

theorem dataLanded_stacks {s : State} {n j : Nat} (hfit : (s.desc n (mod32 (j + 1))).addr + (s.desc n j).length ≤ stacksSize)
    (hm : s.mode ≠ modeShadow) (hf : s.frozen = false) :
    Wrote s (dataLanded s n j) (s.desc n (mod32 (j + 1))).addr (s.peekBytes (s.desc n j).addr (s.desc n j).length) ∧
    Tbl.find (dataLanded s n j).la.copying n = none ∧ (dataLanded s n j).rings = s.rings ∧ (dataLanded s n j).regs = s.regs := by
  obtain ⟨hwrote, hframe⟩ := pokeBytes_stacks (s := copyOver s n) (bs := s.peekBytes (s.desc n j).addr (s.desc n j).length)
    (by rwa [length_peekBytes]) hf hm
  refine ⟨hwrote, ?_⟩
  rw [dataLanded, hframe]
  exact ⟨tbl_find_del_self .., rfl, rfl⟩

/-- Settles O37: a lemma for each branch of `copyIn` and `put32`; what passes lands in the Stacks (`pokeBytes_stacks`). -/
theorem intakeDescriptors : Obligations.IntakeDescriptors := by
  unfold Obligations.IntakeDescriptors
  rintro s σ t n i d e rfl rfl rfl rfl
  simp only [exec_copyIn, exec_put32, exec_copyInComplete, execCopyIn, execPut32, execCopyInComplete, Host.Outcome.next.injEq,
    ← ring_at s t, ← desc_at s t, ← ringHolds_at s t]
  refine ⟨fun hready => ?_, fun hidle => copyDone_idle (by rwa [at_la]), ?_⟩
  · rw [← intakeReady_at s t] at hready
    refine ⟨fun hcopy hput => ⟨copyIn_other hready hput hcopy, put32_other hready hput hcopy⟩, copyIn_unchained hready,
      fun hcopy hchain hholds => ⟨copyIn_unpaired hready hcopy hchain hholds, fun hpair => ?_⟩, fun hput => ⟨fun hbad => ?_, ?_⟩⟩
    · refine ⟨copyIn_badSource hready hcopy hchain hholds hpair, fun hlies harea =>
        ⟨fun hdest => copyIn_badDest hready hcopy hchain hholds hpair hlies harea (intakeDest_at_eq_false.2 hdest), fun hfit hapart => ?_⟩⟩
      rw [copyIn_taken hready hcopy hchain hholds hpair hlies harea (intakeDest_at_eq_true.2 ⟨hfit, hapart⟩)]
      have hring := ring_copyStarted (s.at t) n
      exact ⟨_, rfl, copyStarted_copying .., congrArg Ring.cons hring, congrArg Ring.flight hring, at_mem s t, at_regs s t⟩
    · exact put32_refused hready hput (by rwa [intakeDest_at_eq_false])
    · intro h4 hfit hapart hm
      rw [put32_taken hready hput h4 (intakeDest_at_eq_true.2 ⟨hfit, hapart⟩)]
      obtain ⟨hwrote, hframe⟩ := pokeBytes_stacks (s := ringTake (s.at t) n copyAgent) (a := ((s.at t).desc n ((s.at t).ring n).cons).addr)
        (bs := leBytes 4 ((s.at t).desc n ((s.at t).ring n).cons).length) (by rwa [length_leBytes])
        (frozen_of_intakeReady (s := s.at t) hready) ((mode_at s t).trans_ne hm)
      exact ⟨_, rfl, wrote_at.1 hwrote, hframe⟩
  · rintro j d e hj rfl rfl hfit hm hf
    have hlanded := dataLanded_stacks (s := s.at t) (n := n) hfit (by simpa using hm) (by simpa using hf)
    rw [copyDone_landed (by rwa [at_la])]
    simp only [wrote_at, peekBytes_at, at_rings, at_regs] at hlanded
    exact ⟨_, rfl, hlanded⟩

end Sys2Proof

/-! ## Keep-open pulses as the grace of a takeover ends (R194, R206) -/

namespace Sys2Proof

open Machine Laws

/-- Where charge is forbidden no keep-open pulses start (R194). -/
theorem keepopenStart_forbidden {s : State} {k : Nat} (h : chargeForbidden s k = true) : keepopenStart s k = s := by
  simp [keepopenStart, h]

/-- A slot entry with `valid`, `fire_en`, `auth_req` and `ko_en` 1 (Tables 1-5 and 5-10). -/
def authSlotEntry : List Byte := List.replicate 8 0 ++ [1] ++ List.replicate 13 0 ++ [13] ++ List.replicate 105 0

/-- A device in PRINT whose head slot 0, its link up and its head in window, has no authenticated session, under a grace that ends one
unit of the clock from now. -/
def graceEnding : State :=
  { ((State.reset.wr Reg.MODE_CUR.mode 0 modePrint).wr Reg.FS_SLOT_STATE.link 0 2).wr Reg.FS_SLOT_STATE.temp_state 0 0 with
    cat := { State.reset.cat with inEffect := [(chSlot 0, authSlotEntry)] }
    fire := { Fire.reset with slots := [(0, { Slot.reset with graceTo := some 1 })] } }

/-- KEEPOPEN_TIMEOUT 50 ms later finds the grace over, and the slot's charge forbidden. -/
theorem keepopenTimeout_graceEnding : exec (.keepopenTimeout (50 * msU) 0) graceEnding = .next (graceEnding.at (50 * msU)) := by
  rw [exec_keepopenTimeout, execKeepopenTimeout, keepopenStart_forbidden (by decide)]

/-- Refutes O41: the statement asks whether charge is forbidden in the state before the command, but the grace of R206 runs by the clock,
which the command moves on first. In `graceEnding` charge is allowed, 50 ms later it is not, and the keep-open pulses that the statement
claims do not start. -/
theorem not_rasterLines : ¬ Obligations.RasterLines := by
  unfold Obligations.RasterLines
  intro h
  obtain ⟨-, -, -, -, -, -, -, -, -, -, hstarts, -⟩ := h graceEnding (graceEnding.at (50 * msU)) (50 * msU) _ rfl rfl
  obtain ⟨u, hexec, -⟩ := hstarts 0 (by decide) (by decide) (by decide) (by decide) (by decide) (by decide) (by decide)
  rw [keepopenTimeout_graceEnding, Host.Outcome.next.injEq] at hexec
  have hoff : (graceEnding.at (50 * msU)).on Reg.FS_SLOT_STATE.keepopen 0 = false := by decide
  have hon := (wr_one (laneReleased u 0) (f := Reg.FS_SLOT_STATE.keepopen) 0 (by decide)).1
  rw [hexec] at hoff
  exact Bool.false_ne_true (hoff.symm.trans hon)

end Sys2Proof

/-! ## Heads: sets received, temperatures, HEARTBEAT and sessions (R188, R192, R193, R199 to R206, R438, R439) -/

namespace Sys2Proof

open Machine Laws

/-! ### What the clock leaves as it is -/

@[simp] theorem rd2_at (s : State) (t : Nat) (lo hi : Fld) (i : Nat) : (s.at t).rd2 lo hi i = s.rd2 lo hi i := by
  simp only [State.rd2, rd_at]

@[simp] theorem native_at (s : State) (t : Nat) : (s.at t).native = s.native := by simp only [State.native, rd_at]

@[simp] theorem linkUp_at (s : State) (t k : Nat) : linkUp (s.at t) k = linkUp s k := by simp only [linkUp, rd_at]

@[simp] theorem driving_at (s : State) (t : Nat) : driving (s.at t) = driving s := by simp only [driving, mode_at, at_fire]

@[simp] theorem mayDrive_at (s : State) (t k : Nat) : mayDrive (s.at t) k = mayDrive s k := by
  simp only [mayDrive, linkUp_at, driving_at]

@[simp] theorem slotLane_at (s : State) (t k : Nat) : slotLane (s.at t) k = slotLane s k := by
  simp only [slotLane, physLane, rd_at, ent_at]

@[simp] theorem slotHalf_at (s : State) (t k : Nat) : slotHalf (s.at t) k = slotHalf s k := ent_at ..

@[simp] theorem slotFields_at (s : State) (t k n : Nat) : slotFields (s.at t) k n = slotFields s k n := by
  simp only [slotFields, slotHalf_at]

theorem relLine_congr {s u : State} (h : u.la = s.la) (g : Nat) : relLine u g = relLine s g := by
  simp only [relLine, jobOf, h]

@[simp] theorem lineTag_at (s : State) (t g : Nat) : lineTag (s.at t) g = lineTag s g := by
  simp only [lineTag, relLine_congr (at_la s t)]

@[simp] theorem lstate_at (s : State) (t n : Nat) : (s.at t).lstate n = s.lstate n := rd_at ..

@[simp] theorem usageDue_at (s : State) (t k : Nat) : usageDue (s.at t) k = usageDue s k := by
  simp only [usageDue, ledGet_at, slot_at]

/-! ### Counters, flags and signed values -/

theorem rd_count (s : State) (f : Fld) (i n : Nat) : (s.count f i n).rd f i = sat f.width (s.rd f i + n) := by
  have hpos := Nat.two_pow_pos f.width
  rw [State.count, rd_wr_self, low_of_lt]
  exact Nat.lt_of_le_of_lt (Nat.min_le_right ..) (Nat.sub_lt hpos Nat.one_pos)

theorem count_onlyRegs (s : State) (f : Fld) (i n : Nat) : OnlyRegs s (s.count f i n) [f.key i] := onlyRegs_wr ..

theorem unsigned_lt (w : Nat) (v : Int) : unsigned w v < 2 ^ w := by
  have hpos : (0 : Int) < (2 ^ w : Nat) := by exact_mod_cast Nat.two_pow_pos w
  have hlt := Int.emod_lt_of_pos v hpos
  have hnonneg := Int.emod_nonneg v hpos.ne'
  unfold unsigned
  omega

theorem rd_wri_self (s : State) (f : Fld) (i : Nat) (v : Int) : (s.wri f i v).rd f i = unsigned f.width v := by
  rw [State.wri, rd_wr_self, low_of_lt (unsigned_lt ..)]

theorem on_wrb_self (s : State) {f : Fld} (i : Nat) (b : Bool) (h : 0 < f.width) : (s.wrb f i b).on f i = b := by
  have hlow : low f.width (ofBool b) = ofBool b := low_of_lt ((Nat.lt_two_pow_self).trans_le' (by cases b <;> simp [ofBool]; omega))
  rw [State.on, State.wrb, rd_wr_self, hlow]
  cases b <;> rfl

theorem on_wr_field (s : State) {f g : Fld} (i v j : Nat) (h : g.addr * 32 + g.lsb ≠ f.addr * 32 + f.lsb) :
    (s.wr f i v).on g j = s.on g j := by rw [State.on, rd_wr_field s i v j h, State.on]

/-- Other parts of the machine may change beside the registers. -/
theorem OnlyRegs.withFire {s u : State} {fs : List Nat} (h : OnlyRegs s u fs) (x : Fire) :
    OnlyRegs { s with fire := x } { u with fire := x } fs :=
  ⟨by rw [h.1], h.2⟩

theorem OnlyRegs.withTh {s u : State} {fs : List Nat} (h : OnlyRegs s u fs) (x : Thermal) :
    OnlyRegs { s with th := x } { u with th := x } fs :=
  ⟨by rw [h.1], h.2⟩

/-! ### A set received on a lane (R188, R386) -/

section

variable {s : State} {lane type word fields : Nat} (f : State → Nat → Nat → State)

theorem onSet_headerBad (h : 2 ^ 64 ≤ word) : onSet s lane type word f = s.count Reg.LANE_ERR.hdr_err lane := if_pos (by simpa [headerBad])

theorem onSet_discarded (hw : word < 2 ^ 64) (hset : backSet type word = none) :
    onSet s lane type word f = s.count Reg.LANE_ERR.os_err lane := by
  rw [onSet, if_neg (by simpa [headerBad]), hset]
  rfl

variable (hw : word < 2 ^ 64) (hset : backSet type word = some fields)
include hw hset

theorem onSet_noSlot (hslot : slotOfSet (laneHeard s lane) lane fields = none) : onSet s lane type word f = laneHeard s lane := by
  rw [onSet, if_neg (by simpa [headerBad])]
  simp only [hset, hslot]

theorem onSet_slot {k : Nat} (hslot : slotOfSet (laneHeard s lane) lane fields = some k) :
    onSet s lane type word f = f (laneHeard s lane) k fields := by
  rw [onSet, if_neg (by simpa [headerBad])]
  simp only [hset, hslot]

end

theorem osErr_counted (s : State) (lane : Nat) :
    (s.count Reg.LANE_ERR.os_err lane).rd Reg.LANE_ERR.os_err lane = sat 8 (s.rd Reg.LANE_ERR.os_err lane + 1) ∧
    OnlyRegs s (s.count Reg.LANE_ERR.os_err lane) [Reg.LANE_ERR.os_err.key lane] := ⟨rd_count .., count_onlyRegs ..⟩

/-! ### Head slots -/

@[simp] theorem slot_setSlot_self (s : State) (k : Nat) (x : Slot) : (s.setSlot k x).slot k = x := tbl_get_put_self ..

theorem slot_setSlot_ne (s : State) {k j : Nat} (x : Slot) (h : j ≠ k) : (s.setSlot k x).slot j = s.slot j := tbl_get_put_ne _ _ _ h

/-! ### Head temperatures (R195, R438, R439, Table 14-2) -/

theorem headPass_lt (s : State) (k : Nat) : (headPass s k).1 < 2 ^ Reg.THERM_HEAD_STATE.h_state.width := by
  unfold headPass
  dsimp only
  repeat' split
  all_goals exact of_decide_eq_true rfl

theorem headPass_plate {s : State} {k tp : Nat} {p : Int} (hplate : (s.head k).plate = some (p, tp))
    (hnow : accepted s (s.head k).plate = true) (hagree : (s.head k).disagree < 10) : headPass s k = (0, some (p, tp)) := by
  unfold headPass
  rw [hplate] at hnow
  cases hdriver : (s.head k).driver with
  | none => simp [hplate, hdriver, hnow]
  | some c => simp [hplate, hdriver, hnow, hagree.not_ge]

/-- The state of a slot's temperature channels, and whether d is valid, as their registers show them. -/
def headShown (s : State) (k st : Nat) : State :=
  (s.wr Reg.THERM_HEAD_STATE.h_state k st).wrb Reg.THERM_HEAD_STATE.d_valid k (dValid s k)

theorem headShown_shows (s : State) (k : Nat) {st : Nat} (h : st < 2 ^ Reg.THERM_HEAD_STATE.h_state.width) :
    (headShown s k st).rd Reg.THERM_HEAD_STATE.h_state k = st ∧ (headShown s k st).on Reg.THERM_HEAD_STATE.d_valid k = dValid s k ∧
    OnlyRegs s (headShown s k st) [Reg.THERM_HEAD_STATE.h_state.key k, Reg.THERM_HEAD_STATE.d_valid.key k] := by
  refine ⟨?_, on_wrb_self _ _ _ (by decide), (onlyRegs_wr ..).trans (onlyRegs_wr ..)⟩
  rw [headShown, State.wrb, rd_wr_field _ _ _ _ (by decide), rd_wr_self, low_of_lt h]

section

variable {s : State} {k st : Nat} {v : Option (Int × Nat)} (hpass : headPass s k = (st, v))
include hpass

theorem headEval_eq : headEval s k = headValue (if (st != s.rd Reg.THERM_HEAD_STATE.h_state k && st != 0) = true
    then (headShown s k st).event 0x0C02 (chHead (2 * k)) 0 st 0 else headShown s k st) k v := by
  rw [headEval, hpass]
  cases v <;> rfl

theorem headEval_quiet (h : st = s.rd Reg.THERM_HEAD_STATE.h_state k ∨ st = 0) : headEval s k = headValue (headShown s k st) k v := by
  rw [headEval_eq hpass, if_neg]
  rcases h with h | h <;> simp [h]

theorem headEval_posted (hnew : st ≠ s.rd Reg.THERM_HEAD_STATE.h_state k) (hbad : st ≠ 0) :
    headEval s k = headValue ((headShown s k st).event 0x0C02 (chHead (2 * k)) 0 st 0) k v := by
  rw [headEval_eq hpass, if_pos (by simp [hnew, hbad])]

end

theorem headReport_ignored {s : State} {k f : Nat} (h : bit f 45 = false ∨ headEn s (2 * k + ofBool (bit f 46)) = false ∨
    tempSmooth s k (bit f 46) (signed 16 (bits f 29 16) + headEnt s (2 * k + ofBool (bit f 46)) HeadE.trim 0) = false) :
    headReport s k f = headEval s k := by
  refine if_neg fun htaken => ?_
  obtain ⟨hon, hsmooth⟩ := Bool.and_eq_true_iff.1 htaken
  obtain ⟨hvalid, hen⟩ := Bool.and_eq_true_iff.1 hon
  rcases h with h | h | h
  · exact Bool.false_ne_true (h.symm.trans hvalid)
  · exact Bool.false_ne_true (h.symm.trans hen)
  · exact Bool.false_ne_true (h.symm.trans hsmooth)

theorem headReport_taken {s : State} {k f : Nat} (hvalid : bit f 45 = true) (hen : headEn s (2 * k + ofBool (bit f 46)) = true)
    (hsmooth : tempSmooth s k (bit f 46) (signed 16 (bits f 29 16) + headEnt s (2 * k + ofBool (bit f 46)) HeadE.trim 0) = true) :
    headReport s k f =
      headEval (headTake s k (bit f 46) (signed 16 (bits f 29 16) + headEnt s (2 * k + ofBool (bit f 46)) HeadE.trim 0)) k :=
  if_pos (Bool.and_eq_true_iff.2 ⟨Bool.and_eq_true_iff.2 ⟨hvalid, hen⟩, hsmooth⟩)

/-- A value of a channel as its register shows it. -/
def tempShown (s : State) (k : Nat) (driver : Bool) (v : Int) : State :=
  if driver then s.wri Reg.THERM_HEAD.drv_value k v else s.wri Reg.THERM_HEAD.np_value k v

/-- A slot's temperatures with a value of a channel taken; after a break without one, d is learned anew. -/
def headKept (s : State) (k : Nat) (driver : Bool) (v : Int) : HeadTemp :=
  let x := if driver then { s.head k with driver := some (v, s.clk) } else { s.head k with plate := some (v, s.clk) }
  if !(accepted s (if driver then (s.head k).driver else (s.head k).plate)) then { x with learnAt := s.clk, disagree := 0 } else x

theorem headKept_plate (s : State) (k : Nat) (driver : Bool) (v : Int) :
    (headKept s k driver v).plate = if driver then (s.head k).plate else some (v, s.clk) := by
  unfold headKept
  cases driver <;> exact (apply_ite HeadTemp.plate ..).trans (ite_self _)

theorem headKept_driver (s : State) (k : Nat) (driver : Bool) (v : Int) :
    (headKept s k driver v).driver = if driver then some (v, s.clk) else (s.head k).driver := by
  unfold headKept
  cases driver <;> exact (apply_ite HeadTemp.driver ..).trans (ite_self _)

/-- The disagreement of two channels is counted, and d learned from them, temperatures `x` of the slot being kept. -/
def headLearns (s : State) (k : Nat) (driver : Bool) (x : HeadTemp) : State :=
  match x.plate, x.driver with
  | some (p, _), some (w, _) =>
    if accepted s x.plate && accepted s x.driver then
      let off := (dValid s k) && decide (16 * headEnt s (2 * k) HeadE.xcheck 5 < ((p - w) - x.d / 65536).natAbs)
      let x := if driver then x else { x with disagree := if off then x.disagree + 1 else 0 }
      let tau := (headEnt s (2 * k) HeadE.learnS 60).toNat * secU
      let d := match x.dAt with
        | some t => x.d + ((p - w) * 65536 - x.d) * (min (s.clk - t) tau : Nat) / (max 1 tau : Nat)
        | none => (p - w) * 65536
      let x := if s.rd Reg.FS_SLOT_STATE.temp_state k ≤ 1 then { x with d, dAt := some s.clk } else x
      (s.setHead k x).wri Reg.THERM_HEAD_STATE.d_offset k (x.d / 65536)
    else s
  | _, _ => s

theorem headTake_eq (s : State) (k : Nat) (driver : Bool) (v : Int) : headTake s k driver v =
    headLearns ((tempShown s k driver v).setHead k (headKept s k driver v)) k driver (headKept s k driver v) := rfl

theorem headLearns_cases (s : State) (k : Nat) (driver : Bool) (x : HeadTemp) : headLearns s k driver x = s ∨
    ∃ (y : HeadTemp) (d : Int), y.plate = x.plate ∧ y.driver = x.driver ∧
      headLearns s k driver x = (s.setHead k y).wri Reg.THERM_HEAD_STATE.d_offset k d := by
  unfold headLearns
  split
  · split
    · refine .inr ⟨_, _, ?_, ?_, rfl⟩ <;> split <;> split <;> rfl
    · exact .inl rfl
  · exact .inl rfl

theorem head_setHead_self (s : State) (k : Nat) (x : HeadTemp) : (s.setHead k x).head k = x := tbl_get_put_self ..

/-- The register that shows a channel of a slot. -/
def tempFld (driver : Bool) : Fld := if driver then Reg.THERM_HEAD.drv_value else Reg.THERM_HEAD.np_value

theorem tempShown_eq (s : State) (k : Nat) (driver : Bool) (v : Int) : tempShown s k driver v = s.wri (tempFld driver) k v := by
  cases driver <;> rfl

/-- A report taken shows its value and keeps it with its instant; d, where it is learned, is shown. -/
theorem headTake_shows (s : State) (k : Nat) (driver : Bool) (v : Int) :
    ((headTake s k driver v).head k).plate = (if driver then (s.head k).plate else some (v, s.clk)) ∧
    ((headTake s k driver v).head k).driver = (if driver then some (v, s.clk) else (s.head k).driver) ∧
    (headTake s k driver v).rd (tempFld driver) k = unsigned 16 v ∧
    OnlyRegs { s with th := (headTake s k driver v).th } (headTake s k driver v)
      [(tempFld driver).key k, Reg.THERM_HEAD_STATE.d_offset.key k] := by
  have hwidth : (tempFld driver).width = 16 := by cases driver <;> rfl
  have hplace : (tempFld driver).addr * 32 + (tempFld driver).lsb ≠
      Reg.THERM_HEAD_STATE.d_offset.addr * 32 + Reg.THERM_HEAD_STATE.d_offset.lsb := by cases driver <;> decide
  have hvalue : (tempShown s k driver v).rd (tempFld driver) k = unsigned 16 v := by rw [tempShown_eq, rd_wri_self, hwidth]
  have hregs : OnlyRegs s (tempShown s k driver v) [(tempFld driver).key k] := by rw [tempShown_eq]; exact onlyRegs_wr ..
  rw [← headKept_plate s k driver v, ← headKept_driver s k driver v, headTake_eq]
  rcases headLearns_cases ((tempShown s k driver v).setHead k (headKept s k driver v)) k driver (headKept s k driver v) with
    h | ⟨y, d, hplate, hdriver, h⟩
  · rw [h, head_setHead_self]
    exact ⟨rfl, rfl, hvalue, (hregs.withTh _).mono (by simp)⟩
  · have hhead : (((tempShown s k driver v).setHead k (headKept s k driver v)).setHead k y).head k = y := head_setHead_self ..
    rw [h]
    refine ⟨(congrArg HeadTemp.plate hhead).trans hplate, (congrArg HeadTemp.driver hhead).trans hdriver, ?_, ?_⟩
    · exact (rd_wr_field _ _ _ _ hplace).trans hvalue
    · exact (hregs.withTh _).trans (onlyRegs_wr ..)

/-! ### STATUS, HEARTBEAT and waveforms (R192, R193, R199, Table 5-7) -/

/-- A slot's STATUS bits are kept. -/
def statusKept (s : State) (k f : Nat) : State := s.setSlot k { s.slot k with status := some (bits f 40 7) }

theorem statusKept_shape (s : State) (k f : Nat) : (statusKept s k f).slot k = { s.slot k with status := some (bits f 40 7) } ∧
    (∀ j, j ≠ k → (statusKept s k f).slot j = s.slot j) ∧
    statusKept s k f = { s with fire := { s.fire with slots := (statusKept s k f).fire.slots } } :=
  ⟨slot_setSlot_self .., fun _ hj => slot_setSlot_ne _ _ hj, rfl⟩

/-- 7 µs have passed since the partner's last TWIN_HB (R419). -/
def sevenPassed (s : State) : Bool := match s.pair.heardAt with | some t => decide (t + 7 * usU ≤ s.clk) | none => false

theorem slotStatus_eq (s : State) (k f : Nat) : slotStatus s k f =
    if (decide (s.pair.watch = 1) && sevenPassed s && !othersUnheard (statusKept s k f)) = true
    then loseSync { statusKept s k f with pair := { s.pair with watch := 0 } } else statusKept s k f := rfl

theorem slotStatus_kept {s : State} {k : Nat} (f : Nat)
    (h : s.pair.watch ≠ 1 ∨ ∀ a, s.pair.heardAt = some a → s.clk < a + 7 * usU) : slotStatus s k f = statusKept s k f := by
  rw [slotStatus_eq, if_neg]
  rcases h with h | h
  · simp [h]
  · cases hheard : s.pair.heardAt with
    | none => simp [sevenPassed, hheard]
    | some a => simp [sevenPassed, hheard, (h a hheard).not_ge]

theorem slotStatus_late {s : State} {k a : Nat} (f : Nat) (hwatch : s.pair.watch = 1) (hheard : s.pair.heardAt = some a)
    (hlate : a + 7 * usU ≤ s.clk) : slotStatus s k f = if othersUnheard (statusKept s k f) then statusKept s k f
      else loseSync { statusKept s k f with pair := { s.pair with watch := 0 } } := by
  have hseven : sevenPassed s = true := by simp [sevenPassed, hheard, hlate]
  rw [slotStatus_eq, hwatch, hseven]
  cases othersUnheard (statusKept s k f) <;> rfl

theorem foldl_emit {β : Type} (e : β → Emit) (l : List β) (s : State) :
    l.foldl (fun s x => s.emit (e x)) s = { s with out := (l.map e).reverse ++ s.out } := by
  induction l generalizing s with
  | nil => rfl
  | cons x l ih =>
    rw [List.foldl_cons, ih]
    simp [State.emit]

/-- The HEARTBEAT of a device. -/
def heartbeatWord (s : State) : Nat :=
  orderedSetWord osHeartbeat ((if driving s then 1 else 2) * 2 ^ 46 + pairId * 2 ^ 38 + s.fire.hbSeq % 65536 * 2 ^ 22)

theorem heartbeat_eq (s : State) : heartbeat s = { s with
    out := ((heads48.filter (fun n => s.lstate n == 2)).map (fun n => Emit.orderedSet n (heartbeatWord s))).reverse ++ s.out
    fire := { s.fire with hbSeq := (s.fire.hbSeq + 1) % 65536, hbAt := some s.clk } } := by
  have hsent := foldl_emit (fun n => Emit.orderedSet n (heartbeatWord s)) (heads48.filter (fun n => s.lstate n == 2)) s
  unfold heartbeat
  simp only [sendSet]
  erw [hsent]

theorem decapLapse_early {s : State} {k : Nat} (h : ∀ a, (s.slot k).forbidAt = some a → s.clk < a + s.ent (chSlot k) SlotE.decapMs * msU) :
    decapLapse s k = s := by
  unfold decapLapse
  split
  · next a ha => exact if_neg (h a ha).not_ge
  · rfl

theorem decapLapse_due {s : State} {k a : Nat} (ha : (s.slot k).forbidAt = some a)
    (h : a + s.ent (chSlot k) SlotE.decapMs * msU ≤ s.clk) : decapLapse s k = s.wr Reg.FS_SLOT_STATE.decap_lapsed k 1 := by
  simp only [decapLapse, ha, h, if_true]

theorem waveCommit_ignored {s : State} {k : Nat} (h : (s.slot k).waveDue = false ∨ mayDrive s k = false) : waveCommit s k = s := by
  refine if_neg fun hdue => ?_
  rcases h with h | h <;> simp [h] at hdue

theorem waveCommit_sent {s : State} {k : Nat} (hdue : (s.slot k).waveDue = true) (hmay : mayDrive s k = true) : waveCommit s k =
    (s.setSlot k { s.slot k with waveDue := false }).emit (.orderedSet (slotLane s k) (orderedSetWord osWaveCommit (slotFields s k
      ((s.slot k).waveGen % 16384 * 2 ^ 33 + lineTag s (s.slot k).waveLine * 2 ^ 19)))) := by
  have hmay' : mayDrive (s.setSlot k { s.slot k with waveDue := false }) k = true := hmay
  simp only [waveCommit, hdue, hmay, Bool.and_self, if_true, slotSet, hmay']
  rfl

/-! ### Messages and the opening of a session (R201, R202, Table 5-8) -/

@[simp] theorem length_freeBytes (s : State) (site n : Nat) : (s.freeBytes site n).length = n := by simp [State.freeBytes]

theorem queueMessage_slot (s : State) (k : Nat) (body : List Byte) : (queueMessage s k body).slot k = { s.slot k with
    msgs := (s.slot k).msgs ++ messageFrames ((s.slot k).msgSeq % 16384) (messageHeader s ++ body), msgSeq := (s.slot k).msgSeq + 1 } :=
  slot_setSlot_self ..

/-- HELLO waits to be sent, its nonce and ephemeral key kept. -/
def helloQueued (s : State) (k : Nat) : State :=
  queueMessage ((s.setSlot k { s.slot k with
    authAt := some s.clk, authStep := 2, nonce := s.freeBytes 4 32, key := s.freeBytes 5 32, retryAt := none, asked := [] }).wr
      Reg.FS_SLOT_STATE.auth k 1).spend k (s.freeBytes 4 32 ++ Config.ecPublic (s.freeBytes 5 32))

theorem authStart_ignored {s : State} {k : Nat} (h : s.mode = modeShadow ∨ s.native = false ∨ s.inUse (chSlot k) = false ∨ linkUp s k = false) :
    authStart s k = s := if_pos (by rcases h with h | h | h | h <;> simp [h])

theorem authStart_begun {s : State} {k : Nat} (hmode : s.mode ≠ modeShadow) (hnative : s.native = true) (huse : s.inUse (chSlot k) = true)
    (hlink : linkUp s k = true) : authStart s k = chargeUpdate (helloQueued s k) k := if_neg (by simp [hmode, hnative, huse, hlink])

theorem helloQueued_slot (s : State) (k : Nat) : (helloQueued s k).slot k = { s.slot k with
    authAt := some s.clk, authStep := 2, nonce := s.freeBytes 4 32, key := s.freeBytes 5 32, retryAt := none, asked := []
    msgSeq := (s.slot k).msgSeq + 1
    msgs := (s.slot k).msgs ++ messageFrames ((s.slot k).msgSeq % 16384)
      (s.spend.freeBytes 3 4 ++ (s.freeBytes 4 32 ++ Config.ecPublic (s.freeBytes 5 32))) } := by
  have hslot : ∀ x : Slot, (((s.setSlot k x).wr Reg.FS_SLOT_STATE.auth k 1).spend).slot k = x := fun x => slot_setSlot_self s k x
  rw [helloQueued, queueMessage_slot, hslot]
  rfl

/-- What a failed authentication shows before its event is posted (R205). -/
def authFailShown (s : State) (k : Nat) (regress : Bool) : State :=
  if regress then (s.wr Reg.FS_SLOT_STATE.auth k 3).wr Reg.FS_FLAGS.usage_regress 0 1 else s.wr Reg.FS_SLOT_STATE.auth k 3

theorem authFailShown_shows (s : State) (k : Nat) (regress : Bool) : (authFailShown s k regress).rd Reg.FS_SLOT_STATE.auth k = 3 ∧
    (regress = true → (authFailShown s k regress).on Reg.FS_FLAGS.usage_regress = true) ∧
    OnlyRegs s (authFailShown s k regress) [Reg.FS_SLOT_STATE.auth.key k, Reg.FS_FLAGS.usage_regress.key 0] := by
  have hauth := rd_wr_self s Reg.FS_SLOT_STATE.auth k 3
  cases regress with
  | false => exact ⟨hauth, fun h => absurd h Bool.false_ne_true, (onlyRegs_wr ..).mono (by simp)⟩
  | true => exact ⟨(rd_wr_field _ _ _ _ (by decide)).trans hauth, fun _ => (wr_one _ 0 (by decide)).1, (onlyRegs_wr ..).trans (onlyRegs_wr ..)⟩

/-- The anchor that a certificate names (R202). -/
def certAnchor (msg : List Byte) : Nat := ((msg.take 160).getD 80 0).toNat

/-- A CERT holds: of its length, under an anchor of the settings and of the slot, with both its signatures good (R202). -/
def certHolds (s : State) (k : Nat) (msg : List Byte) : Bool :=
  let anchor := certAnchor msg
  decide (msg.length = 320) && (decide (anchor < 4) && bit (s.rd Reg.FS_AUTH.anchors) anchor && bit (s.ent (chSlot k) SlotE.anchorMask) anchor) &&
  Config.ecdsa256 (Tbl.get [] s.fire.anchors anchor) ((msg.take 160).take 96) ((msg.take 160).drop 96) &&
  Config.ecdsa256 (((msg.take 160).drop 16).take 64)
    ((s.slot k).nonce ++ (msg.drop 160).take 32 ++ Config.ecPublic (s.slot k).key ++ (msg.drop 192).take 64) ((msg.drop 256).take 64)

theorem certHolds_false {s : State} {k : Nat} {msg : List Byte} (h : 4 ≤ certAnchor msg ∨
    bit (s.rd Reg.FS_AUTH.anchors) (certAnchor msg) = false ∨ bit (s.ent (chSlot k) SlotE.anchorMask) (certAnchor msg) = false ∨
    Config.ecdsa256 (Tbl.get [] s.fire.anchors (certAnchor msg)) ((msg.take 160).take 96) ((msg.take 160).drop 96) = false ∨
    Config.ecdsa256 (((msg.take 160).drop 16).take 64)
      ((s.slot k).nonce ++ (msg.drop 160).take 32 ++ Config.ecPublic (s.slot k).key ++ (msg.drop 192).take 64) ((msg.drop 256).take 64) = false) :
    certHolds s k msg = false := by
  rcases h with h | h | h | h | h
  · simp only [certHolds, h.not_gt, decide_false, Bool.false_and, Bool.and_false]
  · simp only [certHolds, h, Bool.false_and, Bool.and_false]
  · simp only [certHolds, h, Bool.false_and, Bool.and_false]
  · simp only [certHolds, h, Bool.false_and, Bool.and_false]
  · simp only [certHolds, h, Bool.and_false]

/-- The session key of a CERT. -/
def certKey (s : State) (k : Nat) (msg : List Byte) : List Byte :=
  Config.hkdf (Config.ecdh (s.slot k).key ((msg.drop 192).take 64)) ((s.slot k).nonce ++ (msg.drop 160).take 32) ((msg.take 160).take 16)

section

variable {s : State} {k : Nat} {msg : List Byte}

theorem authCert_ignored (h : (s.slot k).authStep ≠ 2) : authCert s k msg = s := if_pos h

variable (hstep : (s.slot k).authStep = 2)
include hstep

theorem authCert_eq : authCert s k msg = if certHolds s k msg then sendUsage (s.setSlot k { s.slot k with key := certKey s k msg, authStep := 5 }) k 0
    else authFail s k (if msg.length = 320 then 3 else 2) false := if_neg (not_not_intro hstep)

theorem authCert_good (h : certHolds s k msg = true) :
    authCert s k msg = sendUsage (s.setSlot k { s.slot k with key := certKey s k msg, authStep := 5 }) k 0 := by
  rw [authCert_eq hstep, if_pos h]

theorem authCert_bad (h : certHolds s k msg = false) : authCert s k msg = authFail s k (if msg.length = 320 then 3 else 2) false := by
  rw [authCert_eq hstep, if_neg (by simp [h])]

end

/-! ### Usage messages (R203) -/

/-- The slot of a session that has named `units` in one more USAGE_ADD, with free value `n` next. -/
def usageAsked (s : State) (k units : Nat) : Slot :=
  { s.slot k with
    authSeq := ((s.slot k).authSeq + 1) % 2 ^ 32, asked := (s.slot k).asked ++ [(((s.slot k).authSeq + 1) % 2 ^ 32, units, s.clk)]
    lastAdd := some s.clk, unitsSent := (s.slot k).unitsSent + units }

/-- A USAGE_ADD without its MAC. -/
def usageBody (s : State) (k units : Nat) : List Byte := leBytes 4 (((s.slot k).authSeq + 1) % 2 ^ 32) ++ leBytes 4 units

theorem sendUsage_slot (s : State) (k units : Nat) : (sendUsage s k units).slot k = { usageAsked s k units with
    msgs := (s.slot k).msgs ++ messageFrames ((s.slot k).msgSeq % 16384)
      (messageHeader s ++ (usageBody s k units ++ usageMac (s.slot k) 0 (usageBody s k units)))
    msgSeq := (s.slot k).msgSeq + 1 } := by
  have hslot := slot_setSlot_self s k (usageAsked s k units)
  have hqueued := queueMessage_slot (s.setSlot k (usageAsked s k units)) k (usageBody s k units ++ usageMac (s.slot k) 0 (usageBody s k units))
  rw [hslot] at hqueued
  exact hqueued

theorem usageAdd_ignored {s : State} {k : Nat} (h : s.rd Reg.FS_SLOT_STATE.auth k ≠ 2 ∨ usageDue s k = 0 ∨ linkUp s k = false ∨
    ∃ a, (s.slot k).lastAdd = some a ∧ s.clk < a + msU) : usageAdd s k = s := by
  refine if_neg fun hdue => ?_
  rcases h with h | h | h | ⟨a, ha, hsoon⟩
  · simp [h] at hdue
  · simp [h] at hdue
  · simp [h] at hdue
  · simp [ha, hsoon] at hdue

theorem usageAdd_sent {s : State} {k : Nat} (hauth : s.rd Reg.FS_SLOT_STATE.auth k = 2) (hdue : 0 < usageDue s k) (hlink : linkUp s k = true)
    (hlast : ∀ a, (s.slot k).lastAdd = some a → a + msU ≤ s.clk) : usageAdd s k = sendUsage s k (min (usageDue s k) 65535) := by
  refine if_pos ?_
  cases hadd : (s.slot k).lastAdd with
  | none => simp [hauth, hdue, hlink]
  | some a => simp [hauth, hdue, hlink, (hlast a hadd).not_gt]

/-- A session opens with the counter value: its usage counts begin anew, unless a takeover's run on (R204, R206). -/
def sessionOpened (s : State) (k value : Nat) : State :=
  let w := s.wr2 Reg.FS_SLOT_USAGE_LO.usage_lo Reg.FS_SLOT_USAGE_HI.usage_hi k value
  let w := (if (s.slot k).graceTo.isSome then w else usageClear w k).wr Reg.FS_SLOT_STATE.auth k 2
  w.setSlot k { s.slot k with authAt := none, authStep := 0, asked := [], unitsSent := 0, graceTo := none, retryAt := none }

theorem usageClear_counts (s : State) (k : Nat) : (usageClear s k).ledGet (Led.usageUnits k) = 0 ∧
    (usageClear s k).ledGet (Led.usageResidue k) = 0 ∧ (usageClear s k).ledGet (Led.usageDrops k) = 0 := by
  have hzero : low 64 0 = 0 := rfl
  simp [usageClear, ledGet_ledPut, hzero]

/-- The counter shown, the usage counts with it, and the session up: the slot's own fields apart, `sessionOpened`. -/
def sessionShown (s : State) (k value : Nat) : State :=
  (if (s.slot k).graceTo.isSome then s.wr2 Reg.FS_SLOT_USAGE_LO.usage_lo Reg.FS_SLOT_USAGE_HI.usage_hi k value
    else usageClear (s.wr2 Reg.FS_SLOT_USAGE_LO.usage_lo Reg.FS_SLOT_USAGE_HI.usage_hi k value) k).wr Reg.FS_SLOT_STATE.auth k 2

theorem sessionShown_regs (s : State) (k value : Nat) : (sessionShown s k value).regs =
    ((s.wr2 Reg.FS_SLOT_USAGE_LO.usage_lo Reg.FS_SLOT_USAGE_HI.usage_hi k value).wr Reg.FS_SLOT_STATE.auth k 2).regs := by
  unfold sessionShown
  split <;> rfl

theorem sessionOpened_usage (s : State) (k : Nat) {value : Nat} (h : value < 2 ^ 64) :
    (sessionOpened s k value).rd2 Reg.FS_SLOT_USAGE_LO.usage_lo Reg.FS_SLOT_USAGE_HI.usage_hi k = value := by
  have hregs : (sessionOpened s k value).regs = _ := sessionShown_regs s k value
  simp only [State.rd2, rd_congr hregs]
  rw [rd_wr_field _ _ _ _ (by decide), rd_wr_field _ _ _ _ (by decide)]
  exact rd2_wr2 s k (by decide) h

theorem sessionOpened_carried {s : State} {k value : Nat} (h : (s.slot k).graceTo.isSome = true) : (sessionOpened s k value).led = s.led := by
  have hled : (sessionOpened s k value).led = (sessionShown s k value).led := rfl
  rw [hled, sessionShown, if_pos h]
  rfl

theorem sessionOpened_anew {s : State} {k value : Nat} (h : (s.slot k).graceTo = none) :
    (sessionOpened s k value).ledGet (Led.usageUnits k) = 0 ∧ (sessionOpened s k value).ledGet (Led.usageResidue k) = 0 ∧
    (sessionOpened s k value).ledGet (Led.usageDrops k) = 0 := by
  have hled : (sessionOpened s k value).led = (sessionShown s k value).led := rfl
  simp only [State.ledGet, hled, sessionShown, h, Option.isSome_none, Bool.false_eq_true, if_false]
  exact usageClear_counts ..

section

variable {s : State} {k value seq : Nat} {mac : List Byte}

theorem usageNow_unasked (h : (s.slot k).asked = []) : usageNow s k value seq mac = s := by
  simp only [usageNow, h]

variable {askedSeq units a : Nat} {rest : List (Nat × Nat × Nat)} (hasked : (s.slot k).asked = (askedSeq, units, a) :: rest)
include hasked

theorem usageNow_forged (h : mac ≠ usageMac (s.slot k) 1 (leBytes 4 seq ++ leBytes 8 value) ∨ seq ≠ askedSeq) :
    usageNow s k value seq mac = authFail s k (if (s.slot k).authStep = 5 then 5 else 0) false := by
  have hbad : (mac == usageMac (s.slot k) 1 (leBytes 4 seq ++ leBytes 8 value) && seq == askedSeq) = false := by
    rcases h with h | h <;> simp [h]
  simp only [usageNow, hasked, hbad, Bool.not_false, if_true, beq_iff_eq]

variable (hmac : mac = usageMac (s.slot k) 1 (leBytes 4 seq ++ leBytes 8 value)) (hseq : seq = askedSeq)
include hmac hseq

theorem usageNow_eq : usageNow s k value seq mac =
    if (!((s.slot k).authStep == 5) &&
        decide (value ≠ (s.rd2 Reg.FS_SLOT_USAGE_LO.usage_lo Reg.FS_SLOT_USAGE_HI.usage_hi k + units) % 2 ^ 64)) = true
    then authFail s k 0 true
    else if ((s.slot k).authStep == 5) = true then chargeUpdate (sessionOpened s k value) k
    else (s.wr2 Reg.FS_SLOT_USAGE_LO.usage_lo Reg.FS_SLOT_USAGE_HI.usage_hi k value).setSlot k { s.slot k with asked := rest } := by
  have hok : (mac == usageMac (s.slot k) 1 (leBytes 4 seq ++ leBytes 8 value) && seq == askedSeq) = true := by simp [hmac, hseq]
  simp only [usageNow, hasked, hok, Bool.not_true, Bool.false_eq_true, if_false]
  cases hgrace : (s.slot k).graceTo <;> simp only [sessionOpened, hgrace] <;> rfl

theorem usageNow_regressed (hstep : (s.slot k).authStep ≠ 5)
    (h : value ≠ (s.rd2 Reg.FS_SLOT_USAGE_LO.usage_lo Reg.FS_SLOT_USAGE_HI.usage_hi k + units) % 2 ^ 64) :
    usageNow s k value seq mac = authFail s k 0 true := by
  rw [usageNow_eq hasked hmac hseq, if_pos (by simpa [hstep] using h)]

theorem usageNow_counted (hstep : (s.slot k).authStep ≠ 5)
    (h : value = (s.rd2 Reg.FS_SLOT_USAGE_LO.usage_lo Reg.FS_SLOT_USAGE_HI.usage_hi k + units) % 2 ^ 64) :
    usageNow s k value seq mac =
      (s.wr2 Reg.FS_SLOT_USAGE_LO.usage_lo Reg.FS_SLOT_USAGE_HI.usage_hi k value).setSlot k { s.slot k with asked := rest } := by
  rw [usageNow_eq hasked hmac hseq, if_neg (by simp [h]), if_neg (by simp [hstep])]

theorem usageNow_opening (hstep : (s.slot k).authStep = 5) : usageNow s k value seq mac = chargeUpdate (sessionOpened s k value) k := by
  rw [usageNow_eq hasked hmac hseq, if_neg (by simp [hstep]), if_pos (by simp [hstep])]

end

/-! ### Timers of a session (R205, R206) -/

section

variable {s : State} {k : Nat}

theorem authTimeout_idle (hat : (s.slot k).authAt = none) (hasked : (s.slot k).asked = []) : authTimeout s k = s := by
  simp [authTimeout, hat, hasked]

section

variable {a : Nat} {x : Nat × Nat × Nat} (hat : (s.slot k).authAt = some a)
include hat

theorem authTimeout_late (h : a + 50 * msU ≤ s.clk) : authTimeout s k = authFail s k (s.slot k).authStep false := by
  simp [authTimeout, hat, h]

variable (hearly : s.clk < a + 50 * msU)
include hearly

theorem authTimeout_waits (h : ∀ x, (s.slot k).asked.head? = some x → s.clk < x.2.2 + 10 * msU) : authTimeout s k = s := by
  cases hhead : (s.slot k).asked.head? with
  | none => simp [authTimeout, hat, hearly.not_ge, hhead]
  | some x => simp [authTimeout, hat, hearly.not_ge, hhead, (h x hhead).not_ge]

theorem authTimeout_unanswered (hhead : (s.slot k).asked.head? = some x) (h : x.2.2 + 10 * msU ≤ s.clk) :
    authTimeout s k = authFail s k 5 false := by
  simp [authTimeout, hat, hearly.not_ge, hhead, h]

end

section

variable {n q a : Nat} {rest : List (Nat × Nat × Nat)} (hat : (s.slot k).authAt = none) (hasked : (s.slot k).asked = (q, n, a) :: rest)
include hat hasked

theorem authTimeout_early (h : s.clk < a + 10 * msU) : authTimeout s k = s := by
  simp [authTimeout, hat, hasked, h.not_ge]

theorem authTimeout_counter (h : a + 10 * msU ≤ s.clk) : authTimeout s k = authFail s k 0 false := by
  simp [authTimeout, hat, hasked, h]

end

theorem authRetry_early (h : ∀ a, (s.slot k).retryAt = some a → s.clk < a) : authRetry s k = s := by
  unfold authRetry
  split
  · next a ha => exact if_pos (h a ha)
  · rfl

theorem authRetry_due {a : Nat} (ha : (s.slot k).retryAt = some a) (h : a ≤ s.clk) : authRetry s k =
    (authStart s k).setSlot k { (authStart s k).slot k with retryAt := some ((authStart s k).clk + secU) } := by
  simp only [authRetry, ha, h.not_gt, if_false]

theorem graceOver_early (h : ∀ a, (s.slot k).graceTo = some a → s.clk < a) : graceOver s k = s := by
  unfold graceOver
  split
  · next a ha => exact if_neg (h a ha).not_ge
  · rfl

theorem graceOver_due {a : Nat} (ha : (s.slot k).graceTo = some a) (h : a ≤ s.clk) : graceOver s k = chargeUpdate s k := by
  simp only [graceOver, ha, h, if_true]

end

/-- Settles O43: a lemma for each way a command can go, over the state the clock has moved on; the counter shown by `rd2_wr2`, the messages
by `queueMessage_slot`. -/
theorem headsAndSessions : Obligations.HeadsAndSessions := by
  unfold Obligations.HeadsAndSessions
  refine ⟨fun z k step r => ⟨authFailShown z k r, _, rfl, rfl, authFailShown_shows z k r⟩,
    fun z k tp p hplate hnow hagree => headPass_plate hplate hnow hagree, ?_⟩
  rintro s σ t k rfl
  simp only [exec_tempSet, exec_statusSet, exec_tempTimeout, exec_heartbeat, exec_decapLapse, exec_waveCommit, exec_authStart, exec_cert,
    exec_usageNow, exec_usageAdd, exec_authTimeout, exec_authRetry, exec_authGraceExpiry, execTempSet, execStatusSet, execTempTimeout,
    execHeartbeat, execDecapLapse, execWaveCommit, execAuthStart, execCert, execUsageNow, execUsageAdd, execAuthTimeout, execAuthRetry,
    execAuthGraceExpiry]
  simp only [← rd_at s t, ← rd2_at s t, ← slot_at s t, ← at_regs s t, ← at_out s t, ← at_fire s t, ← ent_at s t, ← lstate_at s t,
    ← mode_at s t, ← native_at s t, ← inUse_at s t, ← linkUp_at s t, ← mayDrive_at s t, ← driving_at s t, ← slotLane_at s t,
    ← slotFields_at s t, ← lineTag_at s t, ← usageDue_at s t]
  generalize s.at t = σ
  refine ⟨fun lane w hw => ⟨?_, ?_⟩, fun lane w hw hset => ?_, ?_, ?_, fun hk => ?_, ?_, fun lane w hw hset => ?_, ?_, fun hdue => ?_,
    fun hdue => ?_, fun h => ?_, fun a ha h => ?_, fun h => ?_, fun hdue hmay => ?_, fun h => ?_, fun hm hn hu hl => ?_, fun msg h => ?_, ?_,
    fun value seq mac h => ?_, ?_, fun h => ?_, ?_, fun h0 h1 => ?_, fun a ha h => ?_, ?_, ?_, fun h => ?_, fun a ha h => ?_, fun h => ?_,
    fun a ha h => ?_⟩
  · -- TEMP
    rw [onSet_headerBad _ hw]
  · rw [onSet_headerBad _ hw]
  · rw [onSet_discarded _ hw hset]
    exact ⟨_, rfl, osErr_counted ..⟩
  · rintro lane w f h hw hset rfl hslot
    rw [onSet_noSlot _ hw hset hslot]
  · rintro lane w f h v d hw hset rfl hslot rfl rfl
    rw [onSet_slot _ hw hset hslot]
    refine ⟨fun h => by rw [headReport_ignored h], fun hvalid hen hsmooth => ?_⟩
    rw [headReport_taken hvalid hen hsmooth]
    obtain ⟨hplate, hdriver, hvalue, hregs⟩ := headTake_shows (laneHeard σ lane) k (bit f 46)
      (signed 16 (bits f 29 16) + headEnt (laneHeard σ lane) (2 * k + ofBool (bit f 46)) HeadE.trim 0)
    refine ⟨_, rfl, fun hd => ?_, fun hd => ?_, ?_⟩
    · rw [hd] at hplate hdriver hvalue ⊢
      exact ⟨hplate, hvalue, hdriver⟩
    · rw [hd] at hplate hdriver hvalue ⊢
      exact ⟨hdriver, hvalue, hplate⟩
    · exact hregs.mono (by cases bit f 46 <;> simp [tempFld])
  · -- TEMP_TIMEOUT
    rw [if_neg hk.not_gt]
  · intro st v hk hpass
    have hlt : st < 2 ^ Reg.THERM_HEAD_STATE.h_state.width := by
      have hpassed := headPass_lt σ k
      rwa [← hpass] at hpassed
    rw [if_pos hk]
    exact ⟨fun h => ⟨headShown σ k st, by rw [headEval_quiet hpass.symm h], headShown_shows σ k hlt⟩,
      fun hnew hbad => ⟨headShown σ k st, by rw [headEval_posted hpass.symm hnew hbad], headShown_shows σ k hlt⟩⟩
  · -- STATUS
    rw [onSet_discarded _ hw hset]
    exact ⟨_, rfl, osErr_counted ..⟩
  · rintro lane w f h hw hset rfl
    refine ⟨fun hslot => by rw [onSet_noSlot _ hw hset hslot], fun hslot h => ?_, fun a hslot hwatch hheard hlate => ?_⟩
    · rw [onSet_slot _ hw hset hslot, slotStatus_kept f h]
      exact ⟨_, rfl, statusKept_shape ..⟩
    · rw [onSet_slot _ hw hset hslot, slotStatus_late f hwatch hheard hlate]
      exact ⟨_, rfl, statusKept_shape ..⟩
  · -- HEARTBEAT
    rw [hdue, if_neg Bool.false_ne_true]
  · rw [if_pos hdue, heartbeat_eq]
    refine ⟨_, rfl, fun n hn hup => List.mem_append_left _ ?_, rfl, rfl⟩
    exact List.mem_reverse.2 (List.mem_map.2 ⟨n, List.mem_filter.2 ⟨List.mem_range.2 hn, beq_iff_eq.2 hup⟩, rfl⟩)
  · -- DECAP_LAPSE
    rw [decapLapse_early h]
  · rw [decapLapse_due ha h]
    exact ⟨_, rfl, wr_one _ _ (by decide)⟩
  · -- WAVE_COMMIT
    rw [waveCommit_ignored h]
  · rw [waveCommit_sent hdue hmay]
    exact ⟨_, rfl, rfl, slot_setSlot_self .., rfl⟩
  · -- AUTH_START
    rw [authStart_ignored h]
  · rw [authStart_begun hm hn hu hl]
    exact ⟨_, rfl, rd_wr_self _ Reg.FS_SLOT_STATE.auth k 1, _, _, _, length_freeBytes .., length_freeBytes .., length_freeBytes ..,
      helloQueued_slot ..⟩
  · -- CERT
    rw [authCert_ignored h]
  · rintro msg anchor hstep rfl
    refine ⟨fun hlen => ?_, fun hlen hbad => ?_, fun hlen h4 hset hmask hcert hsig => ?_⟩
    · rw [authCert_bad hstep (by simp [certHolds, hlen]), if_neg hlen]
    · rw [authCert_bad hstep (certHolds_false hbad), if_pos hlen]
    · rw [authCert_good hstep (by simp only [certHolds, certAnchor, hlen, h4, hset, hmask, hcert, hsig, decide_true, Bool.and_self])]
      have hslot := sendUsage_slot (σ.setSlot k { σ.slot k with key := certKey σ k msg, authStep := 5 }) k 0
      rw [usageAsked, slot_setSlot_self] at hslot
      exact ⟨_, rfl, by rw [hslot], by rw [hslot], by rw [hslot]; rfl, by rw [hslot]; rfl, rfl⟩
  · -- USAGE_NOW
    rw [usageNow_unasked h]
  · intro value seq mac askedSeq units a rest hasked
    refine ⟨fun h => by rw [usageNow_forged hasked h], fun hmac hseq hvalue => ⟨fun hstep h => ?_, fun hstep h => ?_, fun hstep => ?_⟩⟩
    · rw [usageNow_regressed hasked hmac hseq hstep h]
    · rw [usageNow_counted hasked hmac hseq hstep h]
      refine ⟨_, rfl, ?_, slot_setSlot_self .., ?_⟩
      · exact rd2_wr2 σ k (by decide) hvalue
      · exact ((onlyRegs_wr ..).trans (onlyRegs_wr ..)).withFire _
    · rw [usageNow_opening hasked hmac hseq hstep]
      exact ⟨_, rfl, sessionOpened_usage σ k hvalue, rd_wr_self .., slot_setSlot_self .., sessionOpened_carried, sessionOpened_anew⟩
  · -- USAGE_ADD
    rw [usageAdd_ignored h]
  · rintro n seq hauth hdue hlink rfl hlast
    rw [usageAdd_sent hauth (by omega) hlink hlast, hdue]
    have hslot := sendUsage_slot σ k (min (n + 1) 65535)
    exact ⟨_, rfl, by rw [hslot]; rfl, by rw [hslot]; rfl, by rw [hslot]; rfl, by rw [hslot]; rfl, _, _, length_freeBytes .., rfl,
      by rw [hslot]; rfl, rfl⟩
  · -- AUTH_TIMEOUT
    rw [authTimeout_idle h0 h1]
  · rw [authTimeout_late ha h]
  · exact fun a hat hearly => ⟨fun h => by rw [authTimeout_waits hat hearly h], fun x hx h => by rw [authTimeout_unanswered hat hearly hx h]⟩
  · exact fun n q a rest hat hasked => ⟨fun h => by rw [authTimeout_early hat hasked h], fun h => by rw [authTimeout_counter hat hasked h]⟩
  · -- AUTH_RETRY
    rw [authRetry_early h]
  · rw [authRetry_due ha h]
    exact ⟨_, rfl, rfl⟩
  · -- AUTH_GRACE_EXPIRY
    rw [graceOver_early h]
  · rw [graceOver_due ha h]

end Sys2Proof

/-! ## Lines at their start-of-scan, frames and credits (R171 to R191, Tables 5-2 and 5-3) -/

namespace Sys2Proof

open Machine Laws

/-! ### Parts of a slot -/

theorem partOf_line {s : State} {k g : Nat} {q : Part} (h : partOf s k g = some q) : q.line = g := by
  simpa using List.find?_some h

theorem partOf_congr {s u : State} (h : u.fire = s.fire) (k g : Nat) : partOf u k g = partOf s k g := by
  simp only [partOf, State.slot, h]

@[simp] theorem partOf_setPart (s : State) (k : Nat) (q : Part) : partOf (setPart s k q) k q.line = some q := by
  rw [partOf, setPart, slot_setSlot_self]
  split
  · next hany =>
    obtain ⟨y, hy, hline⟩ := List.any_eq_true.1 hany
    rw [List.find?_map, show (fun z : Part => z.line == q.line) ∘ (fun z => if z.line == q.line then q else z) = (fun z => z.line == q.line) from
      funext fun z => by by_cases hz : z.line = q.line <;> simp [hz]]
    obtain ⟨z, hz⟩ := Option.isSome_iff_exists.1 (List.find?_isSome (p := fun z : Part => z.line == q.line).2 ⟨y, hy, hline⟩)
    rw [hz, Option.map_some, if_pos (List.find?_some hz)]
  · next hnone =>
    rw [List.find?_append, List.find?_eq_none.2 fun y hy hline => hnone (List.any_eq_true.2 ⟨y, hy, hline⟩)]
    simp

/-! ### What a latch of the lane switches leaves as it is (R394, R404) -/

/-- The clock and the counts of lines skipped and of data late are as they were. -/
structure LossesKept (s t : State) : Prop where
  clk : t.clk = s.clk
  skipped : t.rd Reg.FS_SKIPPED.skipped = s.rd Reg.FS_SKIPPED.skipped
  dataLate : t.rd Reg.FS_WITHHELD.wh_data_late = s.rd Reg.FS_WITHHELD.wh_data_late

/-- A field other than those two counters. -/
def notLost (f : Fld) : Bool :=
  f.addr * 32 + f.lsb != Reg.FS_SKIPPED.skipped.addr * 32 + Reg.FS_SKIPPED.skipped.lsb &&
  f.addr * 32 + f.lsb != Reg.FS_WITHHELD.wh_data_late.addr * 32 + Reg.FS_WITHHELD.wh_data_late.lsb

namespace LossesKept

variable {s t u : State}

theorem refl (s : State) : LossesKept s s := ⟨rfl, rfl, rfl⟩

theorem trans (h : LossesKept s t) (g : LossesKept t u) : LossesKept s u :=
  ⟨g.clk.trans h.clk, g.skipped.trans h.skipped, g.dataLate.trans h.dataLate⟩

theorem wr (h : LossesKept s t) {f : Fld} (hf : notLost f = true) (i v : Nat) : LossesKept s (t.wr f i v) := by
  obtain ⟨hskip, hlate⟩ := Bool.and_eq_true_iff.1 hf
  exact h.trans ⟨rfl, rd_wr_field _ _ _ _ (bne_iff_ne.1 hskip).symm, rd_wr_field _ _ _ _ (bne_iff_ne.1 hlate).symm⟩

theorem ite {c : Prop} [Decidable c] (h : LossesKept s t) (g : LossesKept s u) : LossesKept s (if c then t else u) := by
  split
  · exact h
  · exact g

theorem foldl {α : Type} {f : State → α → State} (h : LossesKept s t) (hf : ∀ u a, LossesKept u (f u a)) (l : List α) :
    LossesKept s (l.foldl f t) := by
  induction l generalizing t with
  | nil => exact h
  | cons a l ih => exact ih (h.trans (hf t a))

/-- What no part of `LossesKept` speaks of may change. -/
theorem of (h : LossesKept s t) (hclk : u.clk = t.clk) (hregs : u.regs = t.regs) : LossesKept s u :=
  h.trans ⟨hclk, rd_congr hregs _ _, rd_congr hregs _ _⟩

theorem setLane (h : LossesKept s t) (n : Nat) (x : Lane) : LossesKept s (t.setLane n x) := h.of rfl rfl

end LossesKept

theorem lossesKept_gpInt (s : State) {f : Fld} (hf : notLost f = true) : LossesKept s (gpInt s f) := by
  unfold gpInt
  split
  · exact .refl s
  · exact .ite (((LossesKept.refl s).wr hf 0 1).of rfl rfl) ((LossesKept.refl s).wr hf 0 1)

theorem lossesKept_setLstate (s : State) (n c : Nat) : LossesKept s (setLstate s n c) :=
  ((((LossesKept.refl s).wr rfl n c).wr rfl 0 _).wr rfl 0 _).wr rfl 0 _

theorem lossesKept_showLinks (s : State) (l : Nat) : LossesKept s (showLinks s l) :=
  .foldl (.refl s) (fun u k => .wr (.ite (.wr (.ite (lossesKept_gpInt u rfl) (.refl u)) rfl k 0) (.ite (lossesKept_gpInt u rfl) (.refl u))) rfl k _) _

theorem lossesKept_prbsWrite (s : State) (n : Nat) (chk : Bool) : LossesKept s (prbsWrite s n chk) := by
  have hcleared (v : Nat) (x : Lane) : LossesKept s
      (((s.wr2 Reg.PRBS_BITS_LO.bits_lo Reg.PRBS_BITS_HI.bits_hi n v).setLane n x).wr Reg.PRBS_CTRL.chk_sync n 0) :=
    ((((LossesKept.refl s).wr rfl n _).wr rfl n _).setLane n _).wr rfl n 0
  exact .ite (hcleared ..) (.ite (hcleared ..) (.refl s))

theorem lossesKept_laneClear (s : State) (n : Nat) : LossesKept s (laneClear s n) :=
  ((((lossesKept_prbsWrite s n false).wr rfl n 0).wr rfl n 0).wr rfl n 0).wr rfl n 0

theorem lossesKept_laneSpare (s : State) (n : Nat) : LossesKept s (laneSpare s n) :=
  (((((lossesKept_prbsWrite s n true).wr rfl n 3).wr rfl n 4).wr rfl n 1).wr rfl n 1).trans (lossesKept_setLstate ..)

theorem lossesKept_mapLane (s : State) (l a b stateA : Nat) : LossesKept s (mapLane s l a b stateA) :=
  ((((((LossesKept.refl s).wr rfl l b).wr rfl l _).trans (lossesKept_laneClear ..)).trans (lossesKept_setLstate ..)).trans
    (lossesKept_setLstate ..)).trans (lossesKept_showLinks ..)

theorem lossesKept_planLatch (s : State) (m : LaneMove) : LossesKept s (planLatch s m) := by
  have hcredits : LossesKept s (moveCredits (latchWord s (m.l / 5) (finalWord s m)) m.l m.a m.b) := (LossesKept.refl s).of rfl rfl
  have hmapped (c : Nat) := hcredits.trans (lossesKept_mapLane _ m.l m.a m.b c)
  exact .of (.ite ((hmapped _).wr rfl m.a 3) ((hmapped _).trans (lossesKept_laneSpare ..))) rfl rfl

theorem lossesKept_laneReleased (s : State) (k : Nat) : LossesKept s (laneReleased s k) := by
  unfold laneReleased
  split
  · exact .ite (lossesKept_planLatch ..) (.refl s)
  · exact .refl s

theorem laneReleased_idle {s : State} (h : s.ln.moves = []) (k : Nat) : laneReleased s k = s := by
  simp only [laneReleased, curMove, h, List.head?_nil]

/-! ### RELEASE (R177) -/

/-- RELEASE of a part goes out, `e` its response: the set, or the strobe of a GP-40 head port. -/
def releaseEmitted (s : State) (k g disp e : Nat) : State :=
  if s.gp40 then (if mayDrive s k then s.emit (.strobe (slotLane s k) (disp == 0)) else s)
  else slotSet s k osRelease (lineTag s g * 2 ^ 33 + e % 4096 * 2 ^ 21 + disp * 2 ^ 19)

/-- The response of a release, in 1.25 ns. -/
def releaseWait (s : State) (k sos : Nat) : Nat := releaseE s (max s.clk (s.lane (slotLane s k)).idleTo - sos)

/-- RELEASE of a part, before a move that waits for it goes on. -/
def releaseSent (s : State) (k g disp sos : Nat) : State :=
  let e := releaseWait s k sos
  let s := releaseEmitted s k g disp e
  let s := s.setSlot k { s.slot k with unreleased := false }
  (s.wr Reg.FS_RESP_MAX.resp_max 0 (sat 11 (max (s.rd Reg.FS_RESP_MAX.resp_max) (e * 125 / 100)))).spend

theorem sendRelease_eq (s : State) (k g disp sos : Nat) : sendRelease s k g disp sos = laneReleased (releaseSent s k g disp sos) k := rfl

theorem releaseEmitted_frame (s : State) (k g disp e : Nat) : ∃ out, releaseEmitted s k g disp e = { s with out := out } := by
  unfold releaseEmitted slotSet
  split <;> split <;> exact ⟨_, rfl⟩

theorem releaseEmitted_out {s : State} {k : Nat} (g disp e : Nat) (hgp : s.gp40 = false) (hmay : mayDrive s k = true) :
    (releaseEmitted s k g disp e).out = .orderedSet (slotLane s k)
      (orderedSetWord osRelease (slotFields s k (lineTag s g * 2 ^ 33 + e % 4096 * 2 ^ 21 + disp * 2 ^ 19))) :: s.out := by
  rw [releaseEmitted, hgp, if_neg Bool.false_ne_true, slotSet, if_pos hmay]
  rfl

theorem lossesKept_releaseSent (s : State) (k g disp sos : Nat) : LossesKept s (releaseSent s k g disp sos) := by
  obtain ⟨out, h⟩ := releaseEmitted_frame s k g disp (releaseWait s k sos)
  simp only [releaseSent, h]
  exact (((LossesKept.refl s).of rfl rfl).wr rfl 0 _).of rfl rfl

theorem lossesKept_sendRelease (s : State) (k g disp sos : Nat) : LossesKept s (sendRelease s k g disp sos) :=
  (lossesKept_releaseSent ..).trans (lossesKept_laneReleased ..)

/-- Where the slot may drive, what follows from the RELEASE keeps it among what the device sent. -/
theorem released_mem {s u : State} {k : Nat} (g disp sos : Nat) (hgp : s.gp40 = false) (hmay : mayDrive s k = true)
    (h : u.out = (sendRelease s k g disp sos).out) : ∃ e, Emit.orderedSet (slotLane s k)
      (orderedSetWord osRelease (slotFields s k (lineTag s g * 2 ^ 33 + e % 4096 * 2 ^ 21 + disp * 2 ^ 19))) ∈ u.out := by
  have hsuffix := (keeps_laneReleased (releaseSent s k g disp sos) k (Keeps.refl _)).out
  have hsent : (releaseSent s k g disp sos).out = (releaseEmitted s k g disp (releaseWait s k sos)).out := rfl
  rw [hsent, releaseEmitted_out g disp _ hgp hmay] at hsuffix
  rw [h, sendRelease_eq]
  exact ⟨_, hsuffix.subset List.mem_cons_self⟩

/-! ### FIRE, and a part that ends without it (R178, R182 to R185, Table 5-3) -/

/-- What FIRE shows beside the part: marks of the page, `slots_firing`, the line LINE.STAT shows, and `decap_lapsed` in SERVICE. -/
def fireShown (s : State) (k : Nat) (q : Part) : State :=
  let s := refFired (showFiring (headMark (decapMark s k q.line) k q.line) k true) k q.line
  if modeOfLine s q.line = modeService then s.wr Reg.FS_SLOT_STATE.decap_lapsed k 0 else s

theorem decapMark_frame (s : State) (k g : Nat) : ∃ la, decapMark s k g = { s with la := la } := by
  unfold decapMark
  split <;> exact ⟨_, rfl⟩

theorem headMark_frame (s : State) (k g : Nat) : ∃ la, headMark s k g = { s with la := la } := by
  unfold headMark
  split <;> exact ⟨_, rfl⟩

theorem refFired_frame (s : State) (k g : Nat) : ∃ n, refFired s k g = { s with fire := { s.fire with lastFired := n } } := by
  unfold refFired
  split <;> exact ⟨_, rfl⟩

theorem fireShown_frame (s : State) (k : Nat) (q : Part) : ∃ regs la fire,
    fireShown s k q = { s with regs := regs, la := la, fire := fire } ∧ (Tbl.get Slot.reset fire.slots k).firing = true := by
  obtain ⟨la₁, hdecap⟩ := decapMark_frame s k q.line
  obtain ⟨la₂, hhead⟩ := headMark_frame { s with la := la₁ } k q.line
  obtain ⟨n, hfired⟩ := refFired_frame (showFiring { s with la := la₂ } k true) k q.line
  have hfiring : ((showFiring { s with la := la₂ } k true).slot k).firing = true := congrArg Slot.firing (slot_setSlot_self ..)
  simp only [fireShown, hdecap, hhead, hfired]
  split <;> exact ⟨_, _, _, rfl, hfiring⟩

/-- A part fired as of instant `sos` awaits its REL_ACK. -/
def partFired (s : State) (k : Nat) (q : Part) (sos : Nat) : State :=
  let s := { s with fire := { s.fire with firedJob := true } }
  let s := s.setSlot k { s.slot k with lastFire := some sos }
  setPart s k { q with released := some s.clk, sosAt := none }

theorem firePart_eq (s : State) (k : Nat) (q : Part) (sos : Nat) :
    firePart s k q sos = partFired (fireShown (sendRelease s k q.line dispFire sos) k q) k q sos := by
  rw [firePart, partFired, fireShown]

@[simp] theorem lastFire_setPart (s : State) (k : Nat) (q : Part) : ((setPart s k q).slot k).lastFire = (s.slot k).lastFire := by
  rw [setPart, slot_setSlot_self]

@[simp] theorem firing_setPart (s : State) (k : Nat) (q : Part) : ((setPart s k q).slot k).firing = (s.slot k).firing := by
  rw [setPart, slot_setSlot_self]

theorem partOf_partFired (s : State) (k : Nat) (q : Part) (sos : Nat) :
    partOf (partFired s k q sos) k q.line = some { q with released := some s.clk, sosAt := none } :=
  partOf_setPart _ k { q with released := some s.clk, sosAt := none }

theorem slot_partFired (s : State) (k : Nat) (q : Part) (sos : Nat) :
    ((partFired s k q sos).slot k).lastFire = some sos ∧ ((partFired s k q sos).slot k).firing = (s.slot k).firing := by
  simp only [partFired, lastFire_setPart, firing_setPart, slot_setSlot_self]
  exact ⟨trivial, rfl⟩

theorem partFires (s : State) (k sos : Nat) (q : Part) : PartFires s (firePart s k q sos) k q sos := by
  have hclk := (lossesKept_sendRelease s k q.line dispFire sos).clk
  rw [firePart_eq]
  generalize hsent : sendRelease s k q.line dispFire sos = w at hclk ⊢
  obtain ⟨regs, la, fire, hshown, hfiring⟩ := fireShown_frame w k q
  obtain ⟨hlast, hfires⟩ := slot_partFired (fireShown w k q) k q sos
  refine ⟨fun hgp hmay => ?_, ?_, ⟨hlast, hfires.trans ?_⟩, rfl⟩
  · have hout : (partFired (fireShown w k q) k q sos).out = (sendRelease s k q.line dispFire sos).out := by
      rw [hsent, partFired, hshown]
      rfl
    obtain ⟨e, he⟩ := released_mem q.line dispFire sos hgp hmay hout
    rw [dispFire, Nat.zero_mul, Nat.add_zero] at he
    exact ⟨e, he⟩
  · rw [partOf_partFired, hshown, ← hclk]
  · rw [hshown]
    exact hfiring

theorem setFate_frame (s : State) (k g code : Nat) : ∃ mem st pair, setFate s k g code = { s with mem := mem, st := st, pair := pair } :=
  ⟨_, _, _, pokeBytes_frame ..⟩

/-- A part goes, and the Ledger and the fate map say how it ended. -/
def partEnded (s : State) (k : Nat) (q : Part) (disp : Nat) : State :=
  let s := dropPart s k q.line
  if disp = dispSkip then
    let s := moveLine s q.jobIdx k Led.linesSkipped
    let s := countLines s q.jobIdx [k] Led.linesCollided
    setFate (moveDrops s q.jobIdx q.plane q.drops Led.dropsSkipped) k q.line fateSkipped
  else
    let s := moveLine s q.jobIdx k Led.linesWithheld
    setFate (moveDrops s q.jobIdx q.plane q.drops Led.dropsWithheld) k q.line fateWithheld

theorem endPart_eq (s : State) (k : Nat) (q : Part) (disp sos : Nat) :
    endPart s k q disp sos = partEnded (showFiring (sendRelease s k q.line disp sos) k false) k q disp := rfl

theorem partEnded_frame (s : State) (k : Nat) (q : Part) (disp : Nat) : ∃ mem st pair led,
    partEnded s k q disp = { dropPart s k q.line with mem := mem, st := st, pair := pair, led := led } := by
  unfold partEnded
  dsimp only
  split
  · obtain ⟨led, hline⟩ := moveLine_frame (dropPart s k q.line) q.jobIdx k Led.linesSkipped
    rw [hline]
    obtain ⟨led, hcount⟩ := countLines_frame { dropPart s k q.line with led := led } q.jobIdx k Led.linesCollided
    rw [hcount]
    obtain ⟨led, hdrops⟩ := moveDrops_frame { dropPart s k q.line with led := led } q.jobIdx q.plane q.drops Led.dropsSkipped
    rw [hdrops]
    exact ⟨_, _, _, _, pokeBytes_frame ..⟩
  · obtain ⟨led, hline⟩ := moveLine_frame (dropPart s k q.line) q.jobIdx k Led.linesWithheld
    rw [hline]
    obtain ⟨led, hdrops⟩ := moveDrops_frame { dropPart s k q.line with led := led } q.jobIdx q.plane q.drops Led.dropsWithheld
    rw [hdrops]
    exact ⟨_, _, _, _, pokeBytes_frame ..⟩

theorem ledMove_led_congr {s t : State} (h : t.led = s.led) (a b n : Nat) : (t.ledMove a b n).led = (s.ledMove a b n).led := by
  simp only [State.ledMove, State.ledAdd, State.ledSub, State.ledPut, State.ledGet, h]

theorem moveLine_mode (s : State) (idx k : Nat) (c : Nat → Nat) : (moveLine s idx k c).mode = s.mode := by
  obtain ⟨led, h⟩ := moveLine_frame s idx k c
  rw [h]
  rfl

/-- The counts of a part's line and drops go by the Ledger and the mode alone. -/
theorem moveDrops_led_congr {s t : State} (hled : t.led = s.led) (hmode : t.mode = s.mode) (idx k plane n : Nat) (lines drops : Nat → Nat) :
    (moveDrops (moveLine t idx k lines) idx plane n drops).led = (moveDrops (moveLine s idx k lines) idx plane n drops).led := by
  have hlines : (moveLine t idx k lines).led = (moveLine s idx k lines).led := by
    unfold moveLine counting
    rw [hmode]
    split
    · exact ledMove_led_congr hled ..
    · exact hled
  unfold moveDrops counting
  rw [moveLine_mode, moveLine_mode, hmode]
  split
  · exact ledMove_led_congr hlines ..
  · exact hlines

theorem partEnded_withheld (s : State) (k : Nat) (q : Part) : (partEnded s k q dispWithhold).led =
    (moveDrops (moveLine s q.jobIdx k Led.linesWithheld) q.jobIdx q.plane q.drops Led.dropsWithheld).led := by
  have hfate (u : State) (g code : Nat) : (setFate u k g code).led = u.led := pokeBytes_led ..
  rw [partEnded, if_neg (by decide), hfate]
  exact moveDrops_led_congr (s := s) (t := dropPart s k q.line) rfl rfl ..

/-- With no move in progress a RELEASE leaves the Ledger and the mode as they are. -/
theorem released_idle {s : State} {k : Nat} (h : s.ln.moves = []) (g disp sos : Nat) :
    (showFiring (sendRelease s k g disp sos) k false).led = s.led ∧ (showFiring (sendRelease s k g disp sos) k false).mode = s.mode := by
  obtain ⟨out, hemit⟩ := releaseEmitted_frame s k g disp (releaseWait s k sos)
  have hmoves : (releaseSent s k g disp sos).ln.moves = [] := by
    simp only [releaseSent, hemit]
    exact h
  rw [sendRelease_eq, laneReleased_idle hmoves]
  simp only [releaseSent, hemit]
  exact ⟨rfl, (rd_wr_field _ _ _ _ (by decide)).trans (rd_wr_field _ _ _ _ (by decide))⟩

theorem partEnds (s : State) (k sos : Nat) (q : Part) :
    PartEnds s (endPart s k q dispWithhold sos) k q dispWithhold Led.linesWithheld Led.dropsWithheld := by
  obtain ⟨mem, st, pair, led, hended⟩ := partEnded_frame (showFiring (sendRelease s k q.line dispWithhold sos) k false) k q dispWithhold
  refine ⟨fun hgp hmay => released_mem q.line dispWithhold sos hgp hmay ?_, ?_, fun hmoves => ?_⟩
  · rw [endPart_eq, hended]
    rfl
  · rw [endPart_eq, hended]
    exact partOf_dropPart ..
  · obtain ⟨hled, hmode⟩ := released_idle hmoves q.line dispWithhold sos
    rw [endPart_eq, partEnded_withheld]
    exact congrArg Ledger.live (moveDrops_led_congr hled hmode ..)

/-! ### Marks of pages, and what ends a part beside its own line (R243) -/

theorem markLine_pages {s : State} {g m : Nat} {pg : Page} (h : pg ∈ (markLine s g m).la.pages) (hfirst : pg.first ≤ g)
    (hlast : g < pg.first + pg.lines) : ∃ old, pg.mark = Nat.lor old m := by
  obtain ⟨p, -, rfl⟩ := List.mem_map.1 h
  by_cases hin : p.first ≤ g && decide (g < p.first + p.lines)
  · exact ⟨p.mark, by rw [if_pos hin]⟩
  · rw [if_neg hin] at hfirst hlast
    exact absurd (by simp [hfirst, hlast]) hin

theorem bit_lor (a : Nat) {m i : Nat} (h : m.testBit i = true) : bit (Nat.lor a m) i = true := by
  have hbit : (Nat.lor a m).testBit i = true := (Nat.testBit_or a m i).trans (by simp [h])
  rwa [Nat.testBit_eq_decide_div_mod_eq] at hbit

theorem marked {s : State} {g m i : Nat} (hm : m.testBit i = true) : ∀ pg ∈ (markLine s g m).la.pages, pg.first ≤ g → g < pg.first + pg.lines →
    bit pg.mark i = true := by
  intro pg hpg hfirst hlast
  obtain ⟨old, hmark⟩ := markLine_pages hpg hfirst hlast
  rw [hmark, bit_lor old hm]

theorem lossesKept_showFiring (s : State) (k : Nat) (b : Bool) : LossesKept s (showFiring s k b) :=
  LossesKept.wr (f := Reg.FS_STATUS.slots_firing) (LossesKept.of (u := s.setSlot k { s.slot k with firing := b }) (.refl s) rfl rfl) rfl 0 _

theorem lossesKept_endPart (s : State) (k : Nat) (q : Part) (disp sos : Nat) : LossesKept s (endPart s k q disp sos) := by
  obtain ⟨mem, st, pair, led, hended⟩ := partEnded_frame (showFiring (sendRelease s k q.line disp sos) k false) k q disp
  have hdropped (u : State) : LossesKept u (dropPart u k q.line) := (LossesKept.refl u).of rfl rfl
  have hshown := (lossesKept_sendRelease s k q.line disp sos).trans (lossesKept_showFiring _ k false)
  rw [endPart_eq, hended]
  exact (hshown.trans (hdropped _)).of rfl rfl

theorem partOf_endPart (s : State) (k : Nat) (q : Part) (disp sos : Nat) : partOf (endPart s k q disp sos) k q.line = none := by
  obtain ⟨mem, st, pair, led, hended⟩ := partEnded_frame (showFiring (sendRelease s k q.line disp sos) k false) k q disp
  rw [endPart_eq, hended]
  exact partOf_dropPart ..

/-! ### The dispositions of Table 5-2 -/

/-- A skip is counted, its page spoilt, and axis 0 asked to hold v_cap. -/
def skipShown (s : State) (g : Nat) : State :=
  ((markLine (s.count Reg.FS_SKIPPED.skipped) g (markSpoilt + causeCollided)).wr Reg.FS_FLAGS.collided 0 1).wr Reg.FS_STATUS.cap_active 0 1

theorem skipPart_eq (s : State) (k : Nat) (q : Part) : skipPart s k q = skipShown (endPart s k q dispSkip s.clk) q.line := by
  rw [skipPart, skipShown]

theorem skipShown_shows (s : State) (g : Nat) : (skipShown s g).fire = s.fire ∧
    (skipShown s g).on Reg.FS_FLAGS.collided = true ∧ (skipShown s g).on Reg.FS_STATUS.cap_active = true ∧
    (skipShown s g).rd Reg.FS_SKIPPED.skipped = sat 32 (s.rd Reg.FS_SKIPPED.skipped + 1) := by
  refine ⟨rfl, ?_, (wr_one _ _ (by decide)).1, ?_⟩
  · rw [skipShown, on_wr_field _ _ _ _ (by decide)]
    exact (wr_one _ _ (by decide)).1
  · rw [skipShown, rd_wr_field _ _ _ _ (by decide), rd_wr_field _ _ _ _ (by decide)]
    exact rd_count ..

theorem skipPart_shows (s : State) (k : Nat) (q : Part) : partOf (skipPart s k q) k q.line = none ∧
    (skipPart s k q).on Reg.FS_FLAGS.collided = true ∧ (skipPart s k q).on Reg.FS_STATUS.cap_active = true ∧
    (skipPart s k q).rd Reg.FS_SKIPPED.skipped = sat 32 (s.rd Reg.FS_SKIPPED.skipped + 1) := by
  obtain ⟨hfire, hcollided, hcap, hskipped⟩ := skipShown_shows (endPart s k q dispSkip s.clk) q.line
  rw [(lossesKept_endPart s k q dispSkip s.clk).skipped] at hskipped
  rw [skipPart_eq]
  exact ⟨(partOf_congr hfire ..).trans (partOf_endPart ..), hcollided, hcap, hskipped⟩

section

variable {s : State} {k : Nat} {q : Part} (hopen : freezeOver s = false)
include hopen

theorem disposePart_forbidden (h : chargeForbidden s k = true) :
    disposePart s k q = thermalMark (endPart s k q dispWithhold s.clk) k q.line := by
  simp only [disposePart, hopen, h, Bool.false_eq_true, if_false, if_true]

variable (hcharge : chargeForbidden s k = false)
include hcharge

theorem disposePart_soon (h : tooSoon s k = true) : disposePart s k q = skipPart s k q := by
  simp only [disposePart, hopen, hcharge, h, Bool.false_eq_true, if_false, if_true]

variable (hsoon : tooSoon s k = false)
include hsoon

theorem disposePart_bad (h : q.bad = true) : disposePart s k q = endPart s k q dispWithhold s.clk := by
  simp only [disposePart, hopen, hcharge, hsoon, h, Bool.false_eq_true, if_false, if_true]

variable (hgood : q.bad = false)
include hgood

theorem disposePart_complete (h : q.complete = true) : disposePart s k q = firePart s k q s.clk := by
  simp only [disposePart, hopen, hcharge, hsoon, hgood, h, Bool.false_eq_true, if_false, if_true]

theorem disposePart_waits (h : q.complete = false) :
    disposePart s k q = setPart s k { q with sosAt := some s.clk, taken := (s.slot k).unreleased, limit := deadlineOf s k } := by
  simp only [disposePart, hopen, hcharge, hsoon, hgood, h, Bool.false_eq_true, if_false]

end

/-- A slot's line comes due: the temperature is evaluated, and the next line is the one after. -/
def lineTaken (s : State) (k g : Nat) : State :=
  let y := tempEval s k
  y.setSlot k { y.slot k with next := g + 1 }

section

variable {s : State} {k : Nat} (hheld : heldBack s (s.slot k).next = false)
include hheld

theorem slotSos_empty (h : pageOf (lineTaken s k (s.slot k).next) (s.slot k).next = none ∨ slotRow (lineTaken s k (s.slot k).next) k = none) :
    slotSos s k = lineTaken s k (s.slot k).next := by
  have hz : (tempEval s k).setSlot k { (tempEval s k).slot k with next := (s.slot k).next + 1 } = lineTaken s k (s.slot k).next := rfl
  simp only [slotSos, hheld, Bool.false_eq_true, if_false, hz]
  rcases h with h | h
  · rw [h]
  · rw [h]
    cases pageOf (lineTaken s k (s.slot k).next) (s.slot k).next <;> rfl

variable {pg : Page} {p i : Nat} {q : Part} (hpage : pageOf (lineTaken s k (s.slot k).next) (s.slot k).next = some pg)
  (hrow : slotRow (lineTaken s k (s.slot k).next) k = some (p, i)) (hplane : bit pg.planes p = true)
  (haccepted : (s.slot k).next < (lineTaken s k (s.slot k).next).la.accepted)
  (hstarved : (s.slot k).next ∉ (lineTaken s k (s.slot k).next).la.starved)
  (hpart : partOf (lineTaken s k (s.slot k).next) k (s.slot k).next = some q)
include hpage hrow hplane haccepted hstarved hpart

theorem slotSos_shadow (hm : (lineTaken s k (s.slot k).next).mode = modeShadow) :
    slotSos s k = setPart (lineTaken s k (s.slot k).next) k { q with sosAt := some (lineTaken s k (s.slot k).next).clk } := by
  have hz : (tempEval s k).setSlot k { (tempEval s k).slot k with next := (s.slot k).next + 1 } = lineTaken s k (s.slot k).next := rfl
  simp only [slotSos, hheld, Bool.false_eq_true, if_false, hz, hpage, hrow, hplane, haccepted.not_ge, decide_false, hstarved, hpart, hm,
    List.contains_eq_mem, Bool.not_true, Bool.or_self, if_true, shadowPart]

theorem slotSos_disposed (hm : (lineTaken s k (s.slot k).next).mode ≠ modeShadow) (hsound : q.fault = false) :
    slotSos s k = disposePart (lineTaken s k (s.slot k).next) k q := by
  have hz : (tempEval s k).setSlot k { (tempEval s k).slot k with next := (s.slot k).next + 1 } = lineTaken s k (s.slot k).next := rfl
  simp only [slotSos, hheld, Bool.false_eq_true, if_false, hz, hpage, hrow, hplane, haccepted.not_ge, decide_false, hstarved, hpart, hm,
    List.contains_eq_mem, Bool.not_true, Bool.or_self, hsound]

end

/-! ### The reference row (R172, R174, R175) -/

/-- A start-of-scan of the reference row is taken down. -/
def refSeen (s : State) : State :=
  { s with fire := { s.fire with refAt := some s.clk, refGap := s.fire.refAt.map (fun a => s.clk - a), missed := false } }

/-- One that came early is counted. -/
def earlyCounted (s : State) : State := ((refSeen s).wr Reg.FS_FLAGS.sos_early 0 1).count Reg.FS_SOS_COUNT.early

/-- The event of an early one was posted within the last millisecond. -/
def earlyTold (s : State) : Bool := match s.fire.earlyAt with | some t => decide (s.clk < t + msU) | none => false

theorem refInterval_eq (s : State) (g : Nat) : refInterval s g =
    if sosEarly s then
      if earlyTold s then earlyCounted s
      else ({ earlyCounted s with fire := { (earlyCounted s).fire with earlyAt := some s.clk } }).event 0x0302 noChan (relLine (earlyCounted s) g)
        ((earlyCounted s).rd Reg.FS_SOS_COUNT.early) 0
    else refSeen s := by
  have hearly : sosEarly s = match s.fire.refAt.map (fun t => s.clk - t), s.fire.refGap with
      | some a, some b => decide (a * 100 < (100 - s.rd Reg.FS_SOS_CHECK.sos_tol) * b)
      | _, _ => false := by
    unfold sosEarly
    cases s.fire.refAt <;> cases s.fire.refGap <;> rfl
  rw [hearly]
  rfl

theorem earlyCounted_shows (s : State) : (earlyCounted s).on Reg.FS_FLAGS.sos_early = true ∧
    (earlyCounted s).rd Reg.FS_SOS_COUNT.early = sat 16 (s.rd Reg.FS_SOS_COUNT.early + 1) := by
  constructor
  · exact (on_wr_field _ _ _ _ (by decide)).trans (wr_one _ _ (by decide)).1
  · refine (rd_count ..).trans ?_
    rw [rd_wr_field _ _ _ _ (by decide)]
    rfl

theorem refInterval_even {s : State} (g : Nat) (h : sosEarly s = false) : refInterval s g = refSeen s := by
  rw [refInterval_eq, h, if_neg Bool.false_ne_true]

theorem refInterval_told {s : State} (g : Nat) (h : sosEarly s = true) (ht : ∃ a, s.fire.earlyAt = some a ∧ s.clk < a + msU) :
    refInterval s g = earlyCounted s := by
  obtain ⟨a, ha, hlt⟩ := ht
  rw [refInterval_eq, if_pos h, if_pos (by simp [earlyTold, ha, hlt])]

theorem refInterval_posted {s : State} (g : Nat) (h : sosEarly s = true) (ht : ∀ a, s.fire.earlyAt = some a → a + msU ≤ s.clk) :
    refInterval s g = ({ earlyCounted s with fire := { (earlyCounted s).fire with earlyAt := some s.clk } }).event 0x0302 noChan
      (relLine (earlyCounted s) g) ((earlyCounted s).rd Reg.FS_SOS_COUNT.early) 0 := by
  rw [refInterval_eq, if_pos h, if_neg]
  cases ha : s.fire.earlyAt with
  | none => simp [earlyTold, ha]
  | some a => simp [earlyTold, ha, (ht a ha).not_gt]

/-- A line that is due is not one that the reference row holds at a boundary. -/
theorem heldBoundary_due {s : State} (h : refDue s = true) : heldBoundary s = s := by
  refine if_neg fun hheld => ?_
  simp only [refDue, Bool.and_eq_true, Bool.not_eq_true'] at h
  simp [h] at hheld

theorem heldBoundary_quiet {s : State} (hpending : s.md.pending = []) (hstarted : s.md.started = false)
    (hstate : s.rd Reg.EPOCH_STATUS.state ≠ 4) : heldBoundary s = s := by
  refine if_neg ?_
  simp [hpending, hstarted, epochState, hstate]

theorem refSos_outrun {s : State} (h : outrun s = true) : refSos s = lineBoundary (holdBefore s) s.fire.refNext := by
  rw [refSos]
  exact if_pos h

/-- The snapshot that waits for a start-of-scan is taken, and device time captured in channel 0x00. -/
def refCaptured (s : State) : State :=
  let s := if s.led.asked.isSome && s.led.taken.isNone then s.snapTake false else s
  s.capture 0 s.devTime

theorem refSos_taken {s : State} (h : outrun s = false) : refSos s = refTail (refCaptured s) s.fire.refNext := by
  have hline : relLine (refCaptured s) s.fire.refNext = relLine s s.fire.refNext := relLine_congr (by
    unfold refCaptured
    dsimp only
    split <;> rfl) _
  rw [refTail, hline, refSos, if_neg (by simp [h]), refCaptured]

theorem refCaptured_shows (s : State) : Tbl.get 0 (refCaptured s).tu.capAt 0 = s.devTime ∧
    Tbl.get 0 (refCaptured s).tu.capN 0 = (Tbl.get 0 s.tu.capN 0 + 1) % 2 ^ 32 ∧
    (s.led.asked.isSome = true → (refCaptured s).led.taken.isSome = true) ∧
    refCaptured s = { s with led := { s.led with taken := (refCaptured s).led.taken }, tu := (refCaptured s).tu } := by
  unfold refCaptured
  dsimp only
  split
  · exact ⟨tbl_get_put_self .., tbl_get_put_self .., fun _ => rfl, rfl⟩
  · next h =>
    refine ⟨tbl_get_put_self .., tbl_get_put_self .., fun hasked => ?_, rfl⟩
    rw [hasked, Bool.true_and, Option.isNone_iff_eq_none] at h
    exact Option.isSome_iff_ne_none.2 h

section

variable {s : State}

theorem sosMissing_ignored (h : isPrinting s.mode = false ∨ s.fire.missed = true ∨ s.fire.refAt = none) : sosMissing s = s := by
  unfold sosMissing
  dsimp only
  split
  · rfl
  · next a ha =>
    refine if_neg fun hlate => ?_
    rcases h with h | h | h
    · simp [h] at hlate
    · simp [h] at hlate
    · exact absurd (ha.symm.trans h) (by simp)

/-- How long after a start-of-scan the next one is missing, at a speed of `v` µm/s. -/
def missGap (s : State) (v : Nat) : Nat :=
  s.rd Reg.FS_SOS_CHECK.miss_mult * s.rd Reg.FS_PITCH.line_pitch * 1000000000000 / (max 1 v * 65536)

/-- A start-of-scan is known to be missing; this is shown and counted. -/
def missTaken (s : State) : State := { s with fire := { s.fire with missed := true } }

def missShown (s : State) : State := ((missTaken s).wr Reg.FS_FLAGS.sos_missing 0 1).count Reg.FS_SOS_COUNT.missing

variable {a v : Nat} (hmode : isPrinting s.mode = true) (hmissed : s.fire.missed = false) (hat : s.fire.refAt = some a)
  (hgoal : (s.axis 0).goal = .speed v) (hfast : s.rd Reg.FS_VMIN.v_min * 1000 ≤ v)
include hmode hmissed hat hgoal hfast

theorem sosMissing_eq : sosMissing s = if decide (a + missGap s v ≤ s.clk) = true
    then (missShown s).event 0x0303 noChan (relLine (missTaken s) (s.fire.refNext - 1)) 0 0 else s := by
  unfold sosMissing
  simp only [hgoal]
  split
  · next hnone => exact absurd (hat.symm.trans hnone) (by simp)
  · next t ht =>
    obtain rfl : t = a := Option.some.inj (ht.symm.trans hat)
    simp only [hmode, hmissed, Int.toNat_natCast, hfast, decide_true, Bool.not_false, Bool.and_self, Bool.true_and, missGap, missShown, missTaken]
    rfl

theorem sosMissing_early (h : s.clk < a + missGap s v) : sosMissing s = s := by
  rw [sosMissing_eq hmode hmissed hat hgoal hfast, if_neg (by simp [h])]

theorem sosMissing_late (h : a + missGap s v ≤ s.clk) :
    sosMissing s = (missShown s).event 0x0303 noChan (relLine (missTaken s) (s.fire.refNext - 1)) 0 0 := by
  rw [sosMissing_eq hmode hmissed hat hgoal hfast, if_pos (decide_eq_true h)]

end

theorem missShown_shows (s : State) : (missShown s).on Reg.FS_FLAGS.sos_missing = true ∧
    (missShown s).rd Reg.FS_SOS_COUNT.missing = sat 16 (s.rd Reg.FS_SOS_COUNT.missing + 1) ∧ (missShown s).fire.missed = true ∧
    OnlyRegs { s with fire := (missShown s).fire } (missShown s) [Reg.FS_FLAGS.sos_missing.key 0, Reg.FS_SOS_COUNT.missing.key 0] := by
  refine ⟨(on_wr_field _ _ _ _ (by decide)).trans (wr_one _ _ (by decide)).1, (rd_count ..).trans ?_, rfl, (onlyRegs_wr ..).trans (onlyRegs_wr ..)⟩
  rw [rd_wr_field _ _ _ _ (by decide)]
  rfl

/-! ### Data that comes late, and acknowledgements that stay out (R178, R183, R184) -/

/-- Data that the line's start-of-scan still awaited came past its deadline. -/
def lateShown (s : State) (g : Nat) : State :=
  markLine ((s.count Reg.FS_WITHHELD.wh_data_late).wr Reg.FS_FLAGS.data_late 0 1) g (markSpoilt + causeDataLate)

theorem lateShown_shows (s : State) (g : Nat) : (lateShown s g).fire = s.fire ∧ (lateShown s g).on Reg.FS_FLAGS.data_late = true ∧
    (lateShown s g).rd Reg.FS_WITHHELD.wh_data_late = sat 16 (s.rd Reg.FS_WITHHELD.wh_data_late + 1) :=
  ⟨rfl, (wr_one _ _ (by decide)).1, (rd_wr_field _ _ _ _ (by decide)).trans (rd_count ..)⟩

section

variable {s : State} {k : Nat}

theorem dataLate_early (h : s.mode = modeShadow ∨ ∀ q ∈ (s.slot k).parts, ∀ a, q.sosAt = some a → q.complete = true ∨ s.clk < a + q.limit * nsU) :
    dataLate s k = s := by
  unfold dataLate
  dsimp only
  split
  · rfl
  · next hmode =>
    split
    · next q hq =>
      have hmem := List.mem_of_find?_eq_some hq
      have hdue := List.find?_some hq
      cases hat : q.sosAt with
      | none => simp [hat] at hdue
      | some a =>
        rcases (h.resolve_left hmode) q hmem a hat with hdone | hlt
        · simp [hat, hdone] at hdue
        · simp [hat, hlt.not_ge] at hdue
    · rfl

theorem dataLate_late {q : Part} {qs : List Part} {a : Nat} (hmode : s.mode ≠ modeShadow) (hparts : (s.slot k).parts = q :: qs)
    (hat : q.sosAt = some a) (hdata : q.complete = false) (htaken : q.taken = false) (hout : q.released = none)
    (h : a + q.limit * nsU ≤ s.clk) : dataLate s k = lateShown (endPart s k q dispWithhold a) q.line := by
  rw [dataLate, if_neg hmode, hparts, List.find?_cons_of_pos (by simp [hat, hdata, htaken, hout, h])]
  simp only [hat, Option.getD_some, lateShown]

theorem dataLate_shows (q : Part) (a : Nat) :
    partOf (lateShown (endPart s k q dispWithhold a) q.line) k q.line = none ∧
    (lateShown (endPart s k q dispWithhold a) q.line).on Reg.FS_FLAGS.data_late = true ∧
    (lateShown (endPart s k q dispWithhold a) q.line).rd Reg.FS_WITHHELD.wh_data_late = sat 16 (s.rd Reg.FS_WITHHELD.wh_data_late + 1) := by
  obtain ⟨hfire, hlate, hcount⟩ := lateShown_shows (endPart s k q dispWithhold a) q.line
  rw [(lossesKept_endPart s k q dispWithhold a).dataLate] at hcount
  exact ⟨(partOf_congr hfire ..).trans (partOf_endPart ..), hlate, hcount⟩

theorem settlePart_withheld (q : Part) : settlePart s k q false = partEnded s k q dispWithhold := by
  have hkind : dispWithhold ≠ dispSkip := by decide
  rw [settlePart, partEnded, if_neg Bool.false_ne_true, if_neg hkind]

theorem partOf_partEnded (q : Part) (disp : Nat) : partOf (partEnded s k q disp) k q.line = none := by
  obtain ⟨mem, st, pair, led, hended⟩ := partEnded_frame s k q disp
  rw [hended]
  exact partOf_dropPart ..

theorem countDrops_frame (s : State) (idx p n : Nat) (c : Nat → Nat) : ∃ led, countDrops s idx p n c = { s with led := led } := by
  unfold countDrops
  split <;> exact ⟨_, rfl⟩

theorem partOf_settlePart_fired (q : Part) : partOf (settlePart s k q true) k q.line = none := by
  have hfire : (settlePart s k q true).fire = (dropPart s k q.line).fire := by
    obtain ⟨led₁, hline⟩ := moveLine_frame (dropPart s k q.line) q.jobIdx k Led.linesFired
    obtain ⟨led₂, hdrops⟩ := moveDrops_frame { dropPart s k q.line with led := led₁ } q.jobIdx q.plane q.drops Led.dropsFired
    obtain ⟨led₃, hspare⟩ := countDrops_frame { dropPart s k q.line with led := led₂ } q.jobIdx q.plane q.drops Led.dropsSubstituted
    have hfate (u : State) (g code : Nat) : (setFate u k g code).fire = u.fire := by
      obtain ⟨mem, st, pair, h⟩ := setFate_frame u k g code
      rw [h]
    simp only [settlePart, if_true, hfate, hline, hdrops, hspare]
    split <;> rfl
  exact (partOf_congr hfire ..).trans (partOf_dropPart ..)

theorem ackLost_early (h : ∀ q ∈ (s.slot k).parts, ∀ a, q.released = some a → s.clk < a + 50 * usU) : ackLost s k = s := by
  have hnone : ackLate s k = none := by
    refine List.find?_eq_none.2 fun q hq => ?_
    cases hout : q.released with
    | none => simp
    | some a => simp [(h q hq a hout)]
  rw [ackLost, hnone]

/-- An acknowledgement stayed out. -/
def lostShown (s : State) (g : Nat) : State := markLine (s.wr Reg.FS_FLAGS.ack_lost 0 1) g (markSuspect + causeAckLost)

theorem lostShown_shows (s : State) (g : Nat) : (lostShown s g).fire = s.fire ∧ (lostShown s g).on Reg.FS_FLAGS.ack_lost = true ∧
    (lostShown s g).led = s.led := ⟨rfl, (wr_one _ _ (by decide)).1, rfl⟩

theorem ackLost_late {q : Part} (h : ackLate s k = some q) : ackLost s k = lostShown (partEnded s k q dispWithhold) q.line := by
  simp only [ackLost, h, lostShown, settlePart_withheld]

end

/-! ### Frames (R186, R187, R190, R191, R193) -/

theorem sendFrame_out (s : State) (k ftype tag index : Nat) (data : List Byte) : (sendFrame s k ftype tag index data).out =
    .frame (slotLane s k) (trailerBits ftype (slotHalf s k) tag index) data
      (crc32 (data ++ leBytes 3 (trailerBits ftype (slotHalf s k) tag index))) :: s.out := rfl

theorem slot_sendFrame (s : State) (k ftype tag index : Nat) (data : List Byte) :
    (sendFrame s k ftype tag index data).slot k = { s.slot k with credits := (s.slot k).credits - 1 } := by
  unfold sendFrame
  exact slot_setSlot_self ..

theorem partOf_sendFrame (s : State) (k ftype tag index : Nat) (data : List Byte) (g : Nat) :
    partOf (sendFrame s k ftype tag index data) k g = partOf s k g := by
  rw [partOf, slot_sendFrame, partOf]

/-- The first frame of a line ends the slot's keep-open pulses. -/
def keepopenEnded (s : State) (k : Nat) (first : Bool) : State := if first then s.wr Reg.FS_SLOT_STATE.keepopen k 0 else s

theorem keepopenEnded_frame (s : State) (k : Nat) (first : Bool) : slotLane (keepopenEnded s k first) k = slotLane s k ∧
    ∃ regs, keepopenEnded s k first = { s with regs := regs } := by
  cases first
  · exact ⟨rfl, _, rfl⟩
  · refine ⟨?_, _, rfl⟩
    simp only [keepopenEnded, if_true, slotLane, physLane]
    exact rd_wr_field _ _ _ _ (by decide)

theorem sendData_shows (s : State) (k i : Nat) (q r : Part) (first : Bool) :
    (∃ crc, (sendData (setPart (keepopenEnded s k first) k r) k q i).out = .frame (slotLane s k) (trailerBits 0 (slotHalf s k) (lineTag s q.line) i)
      (packPixels 256 ((q.px.drop (1024 * i)).take 1024)) crc :: s.out) ∧
    partOf (sendData (setPart (keepopenEnded s k first) k r) k q i) k r.line = some r ∧
    ((sendData (setPart (keepopenEnded s k first) k r) k q i).slot k).credits = (s.slot k).credits - 1 := by
  obtain ⟨hlane, regs, hregs⟩ := keepopenEnded_frame s k first
  have hsame : slotLane (setPart (keepopenEnded s k first) k r) k = slotLane s k := hlane
  refine ⟨?_, (partOf_sendFrame ..).trans (partOf_setPart ..), ?_⟩
  · rw [sendData, sendFrame_out, hsame, hregs]
    exact ⟨_, rfl⟩
  · rw [sendData, slot_sendFrame, setPart, slot_setSlot_self, hregs]
    rfl

section

variable {s : State} {k : Nat}

theorem frameSend_barred (h : mayDrive s k = false ∨ (s.slot k).credits = 0 ∨ s.clk < (s.lane (slotLane s k)).idleTo) : frameSend s k false = s := by
  refine if_pos ?_
  rcases h with h | h | h <;> simp [h]

variable {c : Nat} (hmay : mayDrive s k = true) (hcredits : (s.slot k).credits = c + 1) (hidle : (s.lane (slotLane s k)).idleTo ≤ s.clk)
include hmay hcredits hidle

theorem frameSend_message {seq i : Nat} {data : List Byte} {ms : List (Nat × Nat × List Byte)} (h : (s.slot k).msgs = (seq, i, data) :: ms) :
    frameSend s k false = sendFrame (s.setSlot k { s.slot k with msgs := ms }) k 2 seq i data := by
  simp only [frameSend, hmay, hcredits, hidle.not_gt, h, Bool.not_true, Nat.add_one_ne_zero, decide_false, Bool.or_self, Bool.false_eq_true, if_false]

variable (hmsgs : (s.slot k).msgs = [])
include hmsgs

theorem frameSend_wave {w : Nat} (h : (s.slot k).waveLeft = w + 1) : frameSend s k false =
    sendFrame (s.setSlot k { s.slot k with waveLeft := w, waveDue := w == 0, waveLine := if w = 0 then firstUnsent s k else (s.slot k).waveLine })
      k 1 ((s.slot k).waveGen % 4096 * 4 + (s.ent (chSlot k) SlotE.waveLen / 256 - (w + 1)) / 64)
      (s.ent (chSlot k) SlotE.waveLen / 256 - (w + 1))
      (s.peekBytes (s.ent (chSlot k) SlotE.waveAddr + 256 * (s.ent (chSlot k) SlotE.waveLen / 256 - (w + 1))) 256) := by
  have hlast : (w + 1 == 1) = (w == 0) := by cases w <;> rfl
  simp only [frameSend, hmay, hcredits, hidle.not_gt, hmsgs, h, Bool.not_true, Nat.add_one_ne_zero, decide_false, Bool.or_self,
    Bool.false_eq_true, if_false, Nat.succ_pos, if_true, Nat.add_sub_cancel, hlast, beq_iff_eq]

variable (hwave : (s.slot k).waveLeft = 0) {q : Part} {i : Nat}
include hwave

theorem frameSend_data {again : Bool} (h : nextData s k = some (q, i, again)) : frameSend s k false =
    sendData (setPart (keepopenEnded s k (decide (i = 0) && !again)) k
      (if again then { q with resend := q.resend.drop 1 } else { q with sent := q.sent + 1 })) k q i := by
  simp only [frameSend, hmay, hcredits, hidle.not_gt, hmsgs, hwave, h, Bool.not_true, Nat.add_one_ne_zero, decide_false, Bool.or_self,
    Bool.false_eq_true, if_false, Nat.lt_irrefl, keepopenEnded]

end

/-! ### CREDIT, LINE_OK, LINE_NAK and REL_ACK (R184, R190, Table 5-7) -/

section

variable {s : State} {k f : Nat}

theorem creditSet_shadow (h : s.mode = modeShadow) : creditSet s k f = s := if_pos h

theorem creditSet_granted (h : s.mode ≠ modeShadow) : creditSet s k f = grantCredits s k (bits f 31 16) := if_neg h

theorem grantCredits_shows (s : State) (k n : Nat) : ((grantCredits s k n).slot k).credits = (s.slot k).credits + n ∧
    (grantCredits s k n).led.live =
      ((s.ledAdd (Led.creditsGranted (slotLane s k)) n).ledAdd (Led.creditsAvailable (slotLane s k)) n).led.live ∧
    (grantCredits s k n).regs = s.regs := by
  refine ⟨?_, rfl, rfl⟩
  unfold grantCredits
  exact congrArg Slot.credits (slot_setSlot_self ..)

variable {q : Part} (hopen : openPart s k (bits f 33 14) = some q)
include hopen

theorem lineOkSet_early (hmode : s.mode ≠ modeShadow) (h : q.sosAt = none) : lineOkSet s k f = setPart s k { q with complete := true } := by
  simp only [lineOkSet, hopen, hmode, if_false, partComplete, h]

theorem lineOkSet_late {a : Nat} (hmode : s.mode ≠ modeShadow) (hat : q.sosAt = some a) (h : a + q.limit * nsU < s.clk) :
    lineOkSet s k f = setPart s k { q with complete := true } := by
  simp only [lineOkSet, hopen, hmode, if_false, partComplete, hat, h.not_ge]
  split <;> rfl

theorem lineOkSet_inTime {a : Nat} (hmode : s.mode ≠ modeShadow) (hat : q.sosAt = some a) (hdrives : s.fire.silent = false)
    (htaken : q.taken = false) (h : s.clk ≤ a + q.limit * nsU) :
    lineOkSet s k f = firePart (setPart s k { q with complete := true }) k { q with complete := true } a := by
  have hdriving : driving s = true := by simp [driving, hmode, hdrives]
  simp only [lineOkSet, hopen, hmode, if_false, partComplete, hat, hdriving, htaken, Bool.not_true, Bool.or_self, Bool.false_eq_true, h, if_true]

theorem lineNakSet_ignored (h : s.mode = modeShadow ∨ q.sent ≤ bits f 27 6 ∨ bits f 27 6 ∈ q.resend) : lineNakSet s k f = s := by
  simp only [lineNakSet, hopen]
  refine if_pos ?_
  rcases h with h | h | h <;> simp [h]

theorem lineNakSet_asked (hmode : s.mode ≠ modeShadow) (hat : q.sosAt = none) (hframe : bits f 27 6 < lineFrames s k)
    (hsent : bits f 27 6 < q.sent) (hnew : bits f 27 6 ∉ q.resend) : lineNakSet s k f = setPart s k { q with resend := q.resend ++ [bits f 27 6] } := by
  simp only [lineNakSet, hopen]
  exact if_neg (by simp [hmode, hat, hframe, hsent, hnew])

end

theorem relAckSet_released {s : State} {k f : Nat} {q : Part} (hmode : s.mode ≠ modeShadow) (h : releasedPart s k (bits f 33 14) = some q) :
    relAckSet s k f = settlePart s k q (bit f 32) := by
  simp only [relAckSet, hmode, if_false, h]

/-! ### Lines, frames and acknowledgements (O42) -/

@[simp] theorem axis_at (s : State) (t n : Nat) : (s.at t).axis n = s.axis n := by
  unfold State.at
  repeat' split
  all_goals rfl

@[simp] theorem lane_at (s : State) (t n : Nat) : (s.at t).lane n = s.lane n := by
  unfold State.at
  repeat' split
  all_goals rfl

@[simp] theorem firstUnsent_at (s : State) (t k : Nat) : firstUnsent (s.at t) k = firstUnsent s k := by
  simp only [firstUnsent, slot_at]

@[simp] theorem nextData_at (s : State) (t k : Nat) : nextData (s.at t) k = nextData s k := by
  have hframes : lineFrames (s.at t) k = lineFrames s k := by simp only [lineFrames, ent_at]
  rw [nextData, slot_at, hframes, nextData]

/-- A frame sent with its row FIFO's words read without an error. -/
theorem frameSend_clean (s : State) (k : Nat) (b : Bool) :
    frameSend (if (decide (0 ≠ 0) && b) = true then rrMet s 0 else s) k (rrErrBad 0).isSome = frameSend s k false := rfl

/-- A slot's line is disposed of as `lineTaken` leaves it: the rows of Table 5-2, the first that applies. -/
theorem slotStart_rows {σ x z : State} {k g : Nat} (hx : x = catApply σ (chSlot k)) (hg : g = (x.slot k).next) (hz : z = lineTaken x k g)
    (hgoes : slotGoes σ k = true) (hheld : heldBack x g = false) :
    (pageOf z g = none ∨ slotRow z k = none → (if slotGoes σ k = true then slotStart σ k else σ) = z) ∧
    ∀ pg p i q, pageOf z g = some pg → slotRow z k = some (p, i) → bit pg.planes p = true → g < z.la.accepted → g ∉ z.la.starved →
      partOf z k g = some q → q.line = g ∧
      (z.mode = modeShadow → (if slotGoes σ k = true then slotStart σ k else σ) = setPart z k { q with sosAt := some z.clk }) ∧
      (z.mode ≠ modeShadow → q.fault = false → (if slotGoes σ k = true then slotStart σ k else σ) = disposePart z k q) := by
  subst hx hg hz
  rw [if_pos hgoes]
  exact ⟨slotSos_empty hheld, fun pg p i q hpage hrow hplane haccepted hstarved hpart => ⟨partOf_line hpart,
    slotSos_shadow hheld hpage hrow hplane haccepted hstarved hpart, slotSos_disposed hheld hpage hrow hplane haccepted hstarved hpart⟩⟩

/-- Settles O42: a lemma for each way a line can go, over the state the clock has moved on; what a lane move that waits for the RELEASE leaves
as it is, by `lossesKept_laneReleased`. -/
theorem slotLines : Obligations.SlotLines := by
  unfold Obligations.SlotLines
  refine ⟨fun z k sos q => ⟨partFires z k sos q, partEnds z k sos q⟩, ?_, ?_⟩
  · rintro z x g rfl
    refine ⟨fun h => refInterval_even g h, fun h ht => ?_, fun h ht => ?_⟩
    · rw [refInterval_told g h ht]
      exact earlyCounted_shows z
    · have hshown := earlyCounted_shows z
      exact ⟨_, refInterval_posted g h ht, hshown.1, hshown.2, rfl⟩
  rintro s σ t rfl
  simp only [exec_startOfScan, exec_referenceStartOfScan, exec_sosMissing, exec_dataDeadlineExpiry, exec_dataFrameSend, exec_credit, exec_lineOk,
    exec_lineNak, exec_relAck, exec_relAckTimeout, execStartOfScan, execReferenceStartOfScan, execSosMissing, execDataDeadlineExpiry,
    execDataFrameSend, execCredit, execLineOk, execLineNak, execRelAck, execRelAckTimeout, frameSend_clean]
  simp only [← rd_at s t, ← slot_at s t, ← at_out s t, ← at_fire s t, ← at_md s t, ← at_tu s t, ← mode_at s t, ← axis_at s t, ← lane_at s t,
    ← mayDrive_at s t, ← slotLane_at s t, ← slotHalf_at s t, ← lineTag_at s t, ← ent_at s t, ← peekBytes_at s t, ← firstUnsent_at s t,
    ← nextData_at s t]
  generalize s.at t = σ
  refine ⟨fun k x g z hx hg hz => ⟨fun hno => by rw [hno, if_neg Bool.false_ne_true], fun hgoes hheld h => ?_,
    fun pg p i q hgoes hheld hpage hrow hplane haccepted hstarved hpart => ?_⟩, fun h => by rw [h, if_neg Bool.false_ne_true],
    fun hpending hstarted hstate h => ?_, fun hdue hout => ?_, fun hdue hout => ?_, fun h => by rw [sosMissing_ignored h],
    fun a v hmode hmissed hat hgoal hfast => ⟨fun h => ?_, fun h => ?_⟩, fun k h => by rw [dataLate_early h],
    fun k q qs a hmode hparts hat hdata htaken hout h => ?_, fun k h => by rw [frameSend_barred h], ?_, fun lane w hw => ?_,
    fun lane w hw hset => ?_, ?_, fun k h => by rw [ackLost_early h], fun k q h => ?_⟩
  · -- START_OF_SCAN
    rw [(slotStart_rows hx hg hz hgoes hheld).1 h]
  · obtain ⟨hline, hshadow, hdisposed⟩ :=
      (slotStart_rows hx hg hz hgoes hheld).2 pg p i q hpage hrow hplane haccepted hstarved hpart
    refine ⟨fun hm => ?_, fun hm hsound hopen => ?_⟩
    · rw [hshadow hm, ← hline]
      exact ⟨_, rfl, partOf_setPart z k { q with sosAt := some z.clk }, rfl⟩
    · rw [hdisposed hm hsound, ← hline]
      refine ⟨fun h => by rw [disposePart_forbidden hopen h], fun hcharge h => ?_, fun hcharge hsoon h => by rw [disposePart_bad hopen hcharge hsoon h],
        fun hcharge hsoon hgood h => by rw [disposePart_complete hopen hcharge hsoon hgood h], fun hcharge hsoon hgood h => ?_⟩
      · rw [disposePart_soon hopen hcharge h]
        exact ⟨_, rfl, skipPart_shows z k q⟩
      · rw [disposePart_waits hopen hcharge hsoon hgood h]
        exact ⟨_, rfl, partOf_setPart z k { q with sosAt := some z.clk, taken := (z.slot k).unreleased, limit := deadlineOf z k }, rfl, rfl⟩
  · -- REFERENCE_START_OF_SCAN
    rw [heldBoundary_quiet hpending hstarted hstate, h, if_neg Bool.false_ne_true]
  · rw [heldBoundary_due hdue, if_pos hdue, refSos_outrun hout]
  · rw [heldBoundary_due hdue, if_pos hdue, refSos_taken hout]
    exact ⟨_, rfl, refCaptured_shows σ⟩
  · -- SOS_MISSING
    rw [sosMissing_early hmode hmissed hat hgoal hfast h]
  · rw [sosMissing_late hmode hmissed hat hgoal hfast h]
    exact ⟨missShown σ, rfl, missShown_shows σ⟩
  · -- DATA_DEADLINE_EXPIRY
    rw [dataLate_late hmode hparts hat hdata htaken hout h]
    obtain ⟨hgone, hlate, hcount⟩ := dataLate_shows (s := σ) (k := k) q a
    exact ⟨_, rfl, hgone, hlate, hcount, marked (by decide)⟩
  · -- DATA_FRAME_SEND
    intro k c hmay hcredits hidle
    refine ⟨fun seq i data ms h => ?_, fun w i hmsgs h hi => ?_, fun q i hmsgs hwave h => ?_, fun q i hmsgs hwave h => ?_⟩
    · rw [frameSend_message hmay hcredits hidle h]
      exact ⟨_, rfl, rfl, by rw [slot_sendFrame, slot_setSlot_self, hcredits, Nat.add_sub_cancel]⟩
    · rw [frameSend_wave hmay hcredits hidle hmsgs h, ← hi]
      exact ⟨_, rfl, ⟨_, rfl⟩, by rw [slot_sendFrame, slot_setSlot_self, hcredits, Nat.add_sub_cancel]⟩
    · rw [frameSend_data hmay hcredits hidle hmsgs hwave h]
      obtain ⟨hout, hpart, hheld⟩ := sendData_shows σ k i q { q with sent := q.sent + 1 } (decide (i = 0) && !false)
      exact ⟨_, rfl, hout, hpart, hheld.trans (by rw [hcredits, Nat.add_sub_cancel])⟩
    · rw [frameSend_data hmay hcredits hidle hmsgs hwave h]
      obtain ⟨hout, hpart, hheld⟩ := sendData_shows σ k i q { q with resend := q.resend.drop 1 } (decide (i = 0) && !true)
      exact ⟨_, rfl, hout, hpart, hheld.trans (by rw [hcredits, Nat.add_sub_cancel])⟩
  · -- CREDIT
    rw [onSet_headerBad _ hw]
    exact ⟨_, rfl, rd_count .., count_onlyRegs ..⟩
  · rw [onSet_discarded _ hw hset]
    exact ⟨_, rfl, osErr_counted ..⟩
  · rintro lane w f k h hw rfl hslot
    refine ⟨fun hset hm => ?_, fun hset hm => ?_, fun q hset hopen hm => ⟨fun hat => ?_,
      fun a x hat hdrives htaken hx => ⟨fun hlate => ?_, fun hnow => ?_⟩⟩, fun q hset hopen => ⟨fun h => ?_, fun hm hat hframe hsent hnew => ?_⟩,
      fun q hset hm hpart => ⟨fun hbit => ⟨?_, ?_⟩, fun hbit => ?_⟩⟩
    · rw [onSet_slot _ hw hset hslot, creditSet_granted hm]
      exact ⟨_, rfl, grantCredits_shows ..⟩
    · rw [onSet_slot _ hw hset hslot, creditSet_shadow hm]
    · -- LINE_OK
      rw [onSet_slot _ hw hset hslot, lineOkSet_early hopen hm hat]
      exact ⟨_, rfl, partOf_setPart _ k { q with complete := true }, rfl⟩
    · rw [onSet_slot _ hw hset hslot, lineOkSet_late hopen hm hat hlate, hx]
    · rw [onSet_slot _ hw hset hslot, lineOkSet_inTime hopen hm hat hdrives htaken hnow, hx]
    · -- LINE_NAK
      rw [onSet_slot _ hw hset hslot, lineNakSet_ignored hopen h]
    · rw [onSet_slot _ hw hset hslot, lineNakSet_asked hopen hm hat hframe hsent hnew]
      exact ⟨_, rfl, partOf_setPart _ k { q with resend := q.resend ++ [bits f 27 6] }, rfl, rfl⟩
    · -- REL_ACK
      rw [onSet_slot _ hw hset hslot, relAckSet_released hm hpart, hbit]
    · exact partOf_settlePart_fired q
    · rw [onSet_slot _ hw hset hslot, relAckSet_released hm hpart, hbit, settlePart_withheld]
      exact ⟨_, rfl, partOf_partEnded q dispWithhold, congrArg Ledger.live (partEnded_withheld (laneHeard σ lane) k q)⟩
  · -- REL_ACK_TIMEOUT
    obtain ⟨hfire, hlost, hled⟩ := lostShown_shows (partEnded σ k q dispWithhold) q.line
    rw [ackLost_late h]
    exact ⟨_, rfl, (partOf_congr hfire ..).trans (partOf_partEnded q dispWithhold), hlost,
      congrArg Ledger.live (hled.trans (partEnded_withheld σ k q)), marked (by decide)⟩

end Sys2Proof

/-! ## The twin link and the end of RELOAD (R408 to R413, R419, R478) -/

namespace Sys2Proof

open Machine Laws

/-! ### What the clock leaves as it is -/

@[simp] theorem twinLanes_at (s : State) (t : Nat) : twinLanes (s.at t) = twinLanes s := by
  simp only [twinLanes, lstate_at]

@[simp] theorem primary_at (s : State) (t : Nat) : (s.at t).primary = s.primary := on_at ..

@[simp] theorem ownHeader_at (s : State) (t : Nat) : ownHeader (s.at t) = ownHeader s := by
  unfold State.at
  repeat' split
  all_goals rfl

theorem twinLanes_congr {s u : State} (h : ∀ n, u.lstate n = s.lstate n) : twinLanes u = twinLanes s := by
  rw [twinLanes, funext h, twinLanes]

/-! ### Sets and records as they are sent (R410 to R412) -/

/-- A set on each twin lane in service, as the emits of it. -/
theorem twinSet_eq (s : State) (type fields : Nat) : twinSet s type fields =
    { s with out := ((twinLanes s).map (fun n => Emit.twinSet n (orderedSetWord type fields))).reverse ++ s.out } :=
  foldl_emit (fun n => Emit.twinSet n (orderedSetWord type fields)) (twinLanes s) s

/-- Type, reserved byte, body length and sequence of a record. -/
def recordHead (seq : Nat) (r : TwinRec) : List Byte := leBytes 1 r.code ++ leBytes 1 0 ++ leBytes 2 r.body.length ++ leBytes 4 seq

theorem length_recordHead (seq : Nat) (r : TwinRec) : (recordHead seq r).length = 8 := by simp [recordHead]

theorem recordWire_parts (seq : Nat) (r : TwinRec) : (recordWire seq r).take 8 = recordHead seq r ∧
    ((recordWire seq r).drop 8).take r.body.length = r.body ∧
    (recordWire seq r).drop (8 + r.body.length) = leBytes 4 (crc32 ((recordWire seq r).take (8 + r.body.length))) := by
  have hlen := length_recordHead seq r
  have hwire : recordWire seq r = recordHead seq r ++ (r.body ++ leBytes 4 (crc32 (recordHead seq r ++ r.body))) :=
    List.append_assoc ..
  have hall : (recordHead seq r ++ r.body).length = 8 + r.body.length := by rw [List.length_append, hlen]
  refine ⟨?_, ?_, ?_⟩
  · rw [hwire, List.take_left' hlen]
  · rw [hwire, List.drop_left' hlen, List.take_left' rfl]
  · rw [hwire, ← List.append_assoc, List.drop_left' hall, List.take_left' hall]

section

variable {s : State} {seq : Nat} {r : TwinRec} {rs : List (Nat × TwinRec)} (hagain : s.pair.again = (seq, r) :: rs)
include hagain

theorem twinPump_stalled (n : Nat) (h : recordLane s r = none) : twinPump n s = s := by
  cases n with
  | zero => rfl
  | succ n => simp only [twinPump, hagain, h]

theorem twinPump_resent (n : Nat) {lane : Nat} (h : recordLane s r = some lane) : twinPump (n + 1) s =
    twinPump n ((recordOut { s with pair := { s.pair with again := rs } } lane seq r).count Reg.PAIR_TWIN.rec_retx) := by
  simp only [twinPump, hagain, h]

end

/-! ### Sets received (R188, R410) -/

section

variable {s : State} {lane type word fields : Nat} (f : State → Nat → State)

theorem onTwinSet_headerBad (h : 2 ^ 64 ≤ word) : onTwinSet s lane type word f = s.count Reg.LANE_ERR.hdr_err lane :=
  if_pos (by simpa [headerBad])

theorem onTwinSet_discarded (hw : word < 2 ^ 64) (hset : backSet type word = none) :
    onTwinSet s lane type word f = s.count Reg.LANE_ERR.os_err lane := by
  rw [onTwinSet, if_neg (by simpa [headerBad])]
  simp only [hset, setError]

theorem onTwinSet_taken (hw : word < 2 ^ 64) (hset : backSet type word = some fields) : onTwinSet s lane type word f = f s fields := by
  rw [onTwinSet, if_neg (by simpa [headerBad])]
  simp only [hset]

end

/-! ### TWIN_HB (R408 to R410, R413) -/

/-- A field's first copy takes a value, where `c` holds. -/
def wrIf (s : State) (c : Prop) [Decidable c] (f : Fld) (v : Nat) : State := if c then s.wr f 0 v else s

section

variable (s : State) (c : Prop) [Decidable c] {f g : Fld} (v i : Nat)

theorem rd_wrIf_self (f : Fld) : (wrIf s c f v).rd f = if c then low f.width v else s.rd f := by
  unfold wrIf
  split
  · exact rd_wr_self ..
  · rfl

theorem rd_wrIf_field (h : g.addr * 32 + g.lsb ≠ f.addr * 32 + f.lsb) : (wrIf s c f v).rd g i = s.rd g i := by
  unfold wrIf
  split
  · exact rd_wr_field _ _ _ _ h
  · rfl

theorem on_wrIf_field (h : g.addr * 32 + g.lsb ≠ f.addr * 32 + f.lsb) : (wrIf s c f v).on g i = s.on g i := by
  rw [State.on, rd_wrIf_field _ _ _ _ h, State.on]

theorem onlyRegs_wrIf (f : Fld) : OnlyRegs s (wrIf s c f v) [f.key 0] := by
  unfold wrIf
  split
  · exact onlyRegs_wr ..
  · exact .same _

theorem wrIf_frame (f : Fld) : ∃ regs, wrIf s c f v = { s with regs := regs } := ⟨_, (onlyRegs_wrIf s c v f).1⟩

end

/-- Heartbeats missed since the last one. -/
def hbMissed (s : State) : Nat := match s.pair.heardAt with | some t => (s.clk - t) / usU - 1 | none => 0

/-- The heartbeats missed are counted. -/
def hbCounted (s : State) : State :=
  wrIf s (0 < hbMissed s) Reg.PAIR_TWIN.hb_miss (sat Reg.PAIR_TWIN.hb_miss.width (s.rd Reg.PAIR_TWIN.hb_miss + hbMissed s))

/-- What a heartbeat says of the partner. -/
def partnerHeard (s : State) (f : Nat) : Pair :=
  { s.pair with
    heardAt := some s.clk, heardRole := bits f 46 2, heardSync := bit f 41, heardFit := bit f 40, seen := true,
    syncAtHb := s.on Reg.PAIR_STATUS.in_sync, watch := if s.pair.watch = 1 then 0 else s.pair.watch }

/-- The modes with the active device's as the heartbeat tells it. -/
def modesHeard (s : State) (f : Nat) : Modes := { s.md with heard := if bits f 46 2 = roleActive then bits f 42 4 else s.md.heard }

/-- It is kept, and with it the mode of the active device. -/
def partnerKept (s : State) (f : Nat) : State :=
  let s := { s with pair := partnerHeard s f }
  if bits f 46 2 = roleActive then { s with md := { s.md with heard := bits f 42 4 } } else s

/-- The active device is in a mode other than the one last heard. -/
def hbNews (s : State) (f : Nat) : Bool := bits f 46 2 == roleActive && bits f 42 4 != s.md.heard

/-- A heartbeat as the registers show it, in SHADOW with `news` the mode of the active device, before the link is up again. -/
def hbShown (s : State) (f : Nat) (news : Bool) (alike : Bool) : State :=
  let s := (s.wr Reg.PAIR_STATUS.partner_seen 0 1).wr Reg.PAIR_STATUS.partner_mode 0 (bits f 42 4)
  wrIf (wrIf s ((decide (s.mode = modeShadow) && news) = true) Reg.MODE_CUR.shadow_of (bits f 42 4)) (alike = true) Reg.PAIR_STATUS.role_clash 1

/-- Three twin lanes are in service again on a link that was lost. -/
def hbBack (s : State) : Bool := s.on Reg.PAIR_STATUS.twin_lost && decide (3 ≤ (twinLanes s).length)

/-- The link, with `back`, is up again. -/
def hbLinked (s : State) (back : Bool) : State := wrIf s (back = true) Reg.PAIR_STATUS.twin_lost 0

/-- What a heartbeat starts: the end of RELOAD at a standby, or what `fit` and `in_sync` bring. -/
def hbFollows (s : State) (f : Nat) : State :=
  if s.mode = modeReload && s.pair.reloadEnd.isSome && bits f 46 2 = roleActive && !s.on Reg.PAIR_STATUS.role_clash then
    resyncStart (enterShadow { s with pair := { s.pair with reloadEnd := none } } (bits f 42 4) causeReset)
  else showFlags s

theorem twinHb_steps {s : State} {w f : Nat} (alike : Bool) (hset : backSet osTwinHb w = some f) : twinHb s w alike =
    let x := hbShown (partnerKept (hbCounted s) f) f (hbNews (hbCounted s) f) alike
    hbFollows (if hbBack x then loseSync (hbLinked x (hbBack x)) else hbLinked x (hbBack x)) f := by
  rw [twinHb, hset]
  rfl

theorem partnerKept_eq (s : State) (f : Nat) : partnerKept s f = { s with pair := partnerHeard s f, md := modesHeard s f } := by
  unfold partnerKept modesHeard
  dsimp only
  split <;> rfl

theorem hbCounted_frame (s : State) : ∃ regs, hbCounted s = { s with regs := regs } := wrIf_frame ..

theorem partnerHeard_hbCounted (s : State) (f : Nat) : partnerHeard (hbCounted s) f = partnerHeard s f := by
  have hsync : (hbCounted s).on Reg.PAIR_STATUS.in_sync = s.on Reg.PAIR_STATUS.in_sync := on_wrIf_field _ _ _ _ (by decide)
  obtain ⟨regs, h⟩ := hbCounted_frame s
  rw [partnerHeard, hsync, h, partnerHeard]

theorem modesHeard_hbCounted (s : State) (f : Nat) : modesHeard (hbCounted s) f = modesHeard s f := by
  obtain ⟨regs, h⟩ := hbCounted_frame s
  rw [h]
  rfl

/-- A heartbeat kept. -/
def hbKept (s : State) (f : Nat) : State := { hbCounted s with pair := partnerHeard s f, md := modesHeard s f }

/-- A heartbeat kept and shown. -/
def hbTaken (s : State) (f : Nat) (alike : Bool) : State := hbShown (hbKept s f) f (hbNews s f) alike

theorem twinHb_eq {s : State} {w f : Nat} (alike : Bool) (hset : backSet osTwinHb w = some f) : twinHb s w alike =
    hbFollows (if hbBack (hbTaken s f alike) then loseSync (hbLinked (hbTaken s f alike) (hbBack (hbTaken s f alike)))
      else hbLinked (hbTaken s f alike) (hbBack (hbTaken s f alike))) f := by
  have hnews : hbNews (hbCounted s) f = hbNews s f := by
    obtain ⟨regs, h⟩ := hbCounted_frame s
    rw [h]
    rfl
  rw [twinHb_steps alike hset, hnews, partnerKept_eq, partnerHeard_hbCounted, modesHeard_hbCounted]
  rfl

/-- The registers that a heartbeat changes. -/
def hbKeys : List Nat := [Reg.PAIR_TWIN.hb_miss.key 0, Reg.PAIR_STATUS.partner_seen.key 0, Reg.PAIR_STATUS.partner_mode.key 0,
  Reg.MODE_CUR.shadow_of.key 0, Reg.PAIR_STATUS.role_clash.key 0, Reg.PAIR_STATUS.twin_lost.key 0]

theorem hbLinked_onlyRegs (s : State) (f : Nat) (alike back : Bool) :
    OnlyRegs { s with pair := partnerHeard s f, md := modesHeard s f } (hbLinked (hbTaken s f alike) back) hbKeys := by
  have hcounted : OnlyRegs s (hbCounted s) [Reg.PAIR_TWIN.hb_miss.key 0] := onlyRegs_wrIf ..
  have hkept : OnlyRegs { s with pair := partnerHeard s f, md := modesHeard s f } (hbKept s f) [Reg.PAIR_TWIN.hb_miss.key 0] :=
    ⟨by rw [hbKept, hcounted.1], hcounted.2⟩
  exact ((((hkept.trans (onlyRegs_wr _ Reg.PAIR_STATUS.partner_seen 0 1)).trans
    (onlyRegs_wr _ Reg.PAIR_STATUS.partner_mode 0 (bits f 42 4))).trans (onlyRegs_wrIf ..)).trans (onlyRegs_wrIf ..)).trans (onlyRegs_wrIf ..)

theorem hbLinked_kept (s : State) (f : Nat) (alike back : Bool) : (hbLinked (hbTaken s f alike) back).pair = partnerHeard s f ∧
    (hbLinked (hbTaken s f alike) back).md = modesHeard s f := by
  have h := (hbLinked_onlyRegs s f alike back).1
  exact ⟨congrArg State.pair h, congrArg State.md h⟩

theorem hbTaken_mode (s : State) (f : Nat) :
    (((hbKept s f).wr Reg.PAIR_STATUS.partner_seen 0 1).wr Reg.PAIR_STATUS.partner_mode 0 (bits f 42 4)).mode = s.mode := by
  refine (rd_wr_field _ _ _ _ (by decide)).trans ((rd_wr_field _ _ _ _ (by decide)).trans ?_)
  exact rd_wrIf_field s _ _ _ (by decide)

section

variable (s : State) (f : Nat) (alike back : Bool)

theorem hbLinked_missed : (hbLinked (hbTaken s f alike) back).rd Reg.PAIR_TWIN.hb_miss = if hbMissed s = 0 then s.rd Reg.PAIR_TWIN.hb_miss
    else sat Reg.PAIR_TWIN.hb_miss.width (s.rd Reg.PAIR_TWIN.hb_miss + hbMissed s) := by
  have hsat : sat Reg.PAIR_TWIN.hb_miss.width (s.rd Reg.PAIR_TWIN.hb_miss + hbMissed s) < 2 ^ Reg.PAIR_TWIN.hb_miss.width :=
    Nat.lt_of_le_of_lt (Nat.min_le_right ..) (by decide)
  rw [hbLinked, rd_wrIf_field _ _ _ _ (by decide), hbTaken, hbShown, rd_wrIf_field _ _ _ _ (by decide), rd_wrIf_field _ _ _ _ (by decide),
    rd_wr_field _ _ _ _ (by decide), rd_wr_field _ _ _ _ (by decide)]
  refine (rd_wrIf_self s (0 < hbMissed s) _ Reg.PAIR_TWIN.hb_miss).trans ?_
  rw [low_of_lt hsat]
  rcases Nat.eq_zero_or_pos (hbMissed s) with h | h
  · rw [if_pos h, if_neg (by omega)]
  · rw [if_pos h, if_neg h.ne']

theorem hbLinked_seen : (hbLinked (hbTaken s f alike) back).on Reg.PAIR_STATUS.partner_seen = true := by
  rw [hbLinked, on_wrIf_field _ _ _ _ (by decide), hbTaken, hbShown, on_wrIf_field _ _ _ _ (by decide), on_wrIf_field _ _ _ _ (by decide),
    on_wr_field _ _ _ _ (by decide)]
  exact (wr_one _ _ (by decide)).1

theorem hbLinked_partnerMode : (hbLinked (hbTaken s f alike) back).rd Reg.PAIR_STATUS.partner_mode = bits f 42 4 := by
  rw [hbLinked, rd_wrIf_field _ _ _ _ (by decide), hbTaken, hbShown, rd_wrIf_field _ _ _ _ (by decide), rd_wrIf_field _ _ _ _ (by decide)]
  exact (rd_wr_self ..).trans (low_of_lt (bits_lt ..))

theorem hbLinked_shadowOf : (hbLinked (hbTaken s f alike) back).rd Reg.MODE_CUR.shadow_of =
    if s.mode = modeShadow ∧ bits f 46 2 = roleActive ∧ bits f 42 4 ≠ s.md.heard then bits f 42 4 else s.rd Reg.MODE_CUR.shadow_of := by
  have hkept : (hbKept s f).rd Reg.MODE_CUR.shadow_of = s.rd Reg.MODE_CUR.shadow_of := rd_wrIf_field s _ _ _ (by decide)
  rw [hbLinked, rd_wrIf_field _ _ _ _ (by decide), hbTaken, hbShown, rd_wrIf_field _ _ _ _ (by decide)]
  rw [rd_wrIf_self, hbTaken_mode, rd_wr_field _ _ _ _ (by decide), rd_wr_field _ _ _ _ (by decide), hkept]
  exact if_congr (by simp [hbNews]) (low_of_lt (bits_lt ..)) rfl

theorem hbLinked_clash (h : alike = true) : (hbLinked (hbTaken s f alike) back).on Reg.PAIR_STATUS.role_clash = true := by
  rw [hbLinked, on_wrIf_field _ _ _ _ (by decide), hbTaken, hbShown, wrIf, if_pos h]
  exact (wr_one _ _ (by decide)).1

theorem hbTaken_lost : (hbTaken s f alike).on Reg.PAIR_STATUS.twin_lost = s.on Reg.PAIR_STATUS.twin_lost := by
  rw [hbTaken, hbShown, on_wrIf_field _ _ _ _ (by decide), on_wrIf_field _ _ _ _ (by decide), on_wr_field _ _ _ _ (by decide),
    on_wr_field _ _ _ _ (by decide)]
  exact on_wrIf_field s _ _ _ (by decide)

theorem hbTaken_lstate (n : Nat) : (hbTaken s f alike).lstate n = s.lstate n := by
  rw [State.lstate, hbTaken, hbShown, rd_wrIf_field _ _ _ _ (by decide), rd_wrIf_field _ _ _ _ (by decide), rd_wr_field _ _ _ _ (by decide),
    rd_wr_field _ _ _ _ (by decide)]
  exact rd_wrIf_field s _ _ _ (by decide)

theorem hbBack_hbTaken : hbBack (hbTaken s f alike) = hbBack s := by
  rw [hbBack, hbTaken_lost, twinLanes_congr (hbTaken_lstate s f alike), hbBack]

theorem hbLinked_lost : (hbLinked (hbTaken s f alike) back).on Reg.PAIR_STATUS.twin_lost = (s.on Reg.PAIR_STATUS.twin_lost && !back) := by
  rw [hbLinked, wrIf]
  cases back
  · simp [hbTaken_lost]
  · simp [State.on, low]

end

theorem hbFollows_eq (s : State) (f : Nat) : hbFollows s f =
    if s.mode = modeReload ∧ s.pair.reloadEnd.isSome = true ∧ bits f 46 2 = roleActive ∧ s.on Reg.PAIR_STATUS.role_clash = false
    then resyncStart (enterShadow { s with pair := { s.pair with reloadEnd := none } } (bits f 42 4) causeReset) else showFlags s :=
  if_congr (by simp [and_assoc]) rfl rfl

/-! ### TWIN_HB as it is sent, credits, TWIN_ACK, TWIN_NAK and TWIN_FAIL (R412, R413, R419) -/

/-- The fields of a heartbeat. -/
def hbFields (s : State) : Nat := (if s.role = roleActive then 1 else 2) * 2 ^ 46 + s.mode * 2 ^ 42 + s.rd Reg.PAIR_STATUS.in_sync * 2 ^ 41 +
  s.rd Reg.PAIR_STATUS.self_fit * 2 ^ 40 + s.pair.hbSeq % 2 ^ 32 * 256

/-- A heartbeat sent. -/
def hbSent (s : State) : State :=
  let s := twinSet s osTwinHb (hbFields s)
  { s with pair := { s.pair with hbSeq := (s.pair.hbSeq + 1) % 2 ^ 32 } }

theorem twinHbSend_eq (s : State) : twinHbSend s =
    if (hbSent s).twinPump.pair.again = [] ∧ (hbSent s).twinPump.pair.live = [] ∧ (hbSent s).twinPump.pair.resync = []
    then twinSet (hbSent s).twinPump osTwinIdle 0 else (hbSent s).twinPump := by
  have hsend : twinHbSend s =
      if (hbSent s).twinPump.pair.again.isEmpty && (hbSent s).twinPump.pair.live.isEmpty && (hbSent s).twinPump.pair.resync.isEmpty
      then twinSet (hbSent s).twinPump osTwinIdle 0 else (hbSent s).twinPump := rfl
  rw [hsend]
  exact if_congr (by simp [and_assoc]) rfl rfl

theorem hbSent_shows (s : State) : (hbSent s).out =
      ((twinLanes s).map (fun n => Emit.twinSet n (orderedSetWord osTwinHb (hbFields s)))).reverse ++ s.out ∧
    (hbSent s).pair = { s.pair with hbSeq := (s.pair.hbSeq + 1) % 2 ^ 32 } ∧
    hbSent s = { s with out := (hbSent s).out, pair := (hbSent s).pair } := by
  rw [hbSent, twinSet_eq]
  exact ⟨rfl, rfl, rfl⟩

/-- The fields of TWIN_ACK, whose number is that of the last record taken. -/
theorem twinAck_shows (s : State) : (twinAck s).pair = { s.pair with unacked := 0 } ∧ (twinAck s).out = ((twinLanes s).map (fun n =>
      Emit.twinSet n (orderedSetWord osTwinAck ((s.pair.seqIn + 2 ^ 32 - 1) % 2 ^ 32 * 2 ^ 16)))).reverse ++ s.out ∧
    twinAck s = { s with pair := (twinAck s).pair, out := (twinAck s).out } := by
  rw [twinAck, twinSet_eq]
  exact ⟨rfl, rfl, rfl⟩

theorem twinAcked_shows (s : State) (seq : Nat) : (twinAcked s seq).pair = { s.pair with
      replay := s.pair.replay.filter (fun r => decide (2 ^ 31 ≤ diff32 seq r.1))
      again := s.pair.again.filter (fun r => decide (2 ^ 31 ≤ diff32 seq r.1)) } ∧
    OnlyRegs { s with pair := (twinAcked s seq).pair } (twinAcked s seq) [Reg.PAIR_SYNC.backlog_kib.key 0] :=
  ⟨rfl, onlyRegs_wr ..⟩

section

variable {s : State}

theorem twinFailed_ignored (h : s.role ≠ roleStandby) : twinFailed s = s := if_pos h

variable (hrole : s.role = roleStandby)
include hrole

theorem twinFailed_synced (h : s.pair.syncAtHb = true) : twinFailed s = { s with pair := { s.pair with watch := 2 } } := by
  rw [twinFailed, if_neg (not_not.2 hrole), if_pos h]

theorem twinFailed_unsynced (h : s.pair.syncAtHb = false) : twinFailed s = loseSync (s.event 0x0B04 noChan 0 0 0) := by
  rw [twinFailed, if_neg (not_not.2 hrole), if_neg (by simp [h])]

end

/-! ### Silence on the link (R413, R419, R420) -/

/-- A silence that begins. -/
def silenceBegins (s : State) : Bool := silent s && s.on Reg.PAIR_STATUS.partner_seen

/-- The link is lost by a silence, or with fewer than three lanes in service. -/
def linkFails (s : State) : Bool := !s.on Reg.PAIR_STATUS.twin_lost && (silent s || decide ((twinLanes s).length < 3))

/-- A silence as it shows; and the link lost with it. -/
def silenceShown (s : State) : State := wrIf s (silent s = true) Reg.PAIR_STATUS.partner_seen 0

def linkShown (s : State) : State := wrIf (silenceShown s) (linkFails s = true) Reg.PAIR_STATUS.twin_lost 1

theorem on_silenceShown (s : State) :
    (silenceShown s).on Reg.PAIR_STATUS.partner_seen = (s.on Reg.PAIR_STATUS.partner_seen && !silent s) := by
  rw [silenceShown, wrIf]
  cases silent s <;> simp [State.on, low]

theorem linkShown_shows (s : State) :
    (linkShown s).on Reg.PAIR_STATUS.twin_lost = (s.on Reg.PAIR_STATUS.twin_lost || linkFails s) ∧
    (linkShown s).on Reg.PAIR_STATUS.partner_seen = (s.on Reg.PAIR_STATUS.partner_seen && !silent s) ∧
    OnlyRegs s (linkShown s) [Reg.PAIR_STATUS.twin_lost.key 0, Reg.PAIR_STATUS.partner_seen.key 0] := by
  refine ⟨?_, ?_, ((onlyRegs_wrIf ..).trans (onlyRegs_wrIf ..)).mono (by simp)⟩
  · have hkept : (silenceShown s).on Reg.PAIR_STATUS.twin_lost = s.on Reg.PAIR_STATUS.twin_lost := on_wrIf_field _ _ _ _ (by decide)
    rw [linkShown, wrIf]
    cases linkFails s
    · simp [hkept]
    · rw [Bool.or_true, if_pos rfl]
      exact (wr_one _ _ (by decide)).1
  · rw [linkShown, on_wrIf_field _ _ _ _ (by decide), on_silenceShown]

theorem twinSilence_single {s : State} (h : s.on Reg.PAIR_CFG.pair_en = false) : twinSilence s = silenceShown s := by
  rw [twinSilence, h, Bool.not_false, if_pos rfl]
  rfl

theorem silent_silenceShown (s : State) : silent (silenceShown s) = silent s := by
  have hmode : (silenceShown s).mode = s.mode := rd_wrIf_field s _ _ _ (by decide)
  obtain ⟨regs, h⟩ := wrIf_frame s (silent s = true) 0 Reg.PAIR_STATUS.partner_seen
  have hpair : (silenceShown s).pair = s.pair := by rw [silenceShown, h]
  have hclk : (silenceShown s).clk = s.clk := by rw [silenceShown, h]
  rw [silent, hmode, hpair, hclk, silent]

theorem twinLanes_silenceShown (s : State) : twinLanes (silenceShown s) = twinLanes s :=
  twinLanes_congr fun _ => rd_wrIf_field s _ _ _ (by decide)

theorem linkFails_silenceShown (s : State) : linkFails (silenceShown s) = linkFails s := by
  have hlost : (silenceShown s).on Reg.PAIR_STATUS.twin_lost = s.on Reg.PAIR_STATUS.twin_lost := on_wrIf_field _ _ _ _ (by decide)
  rw [linkFails, hlost, silent_silenceShown, twinLanes_silenceShown, linkFails]

/-- The twin lanes in service, a bit for each. -/
def twinMap (s : State) : Nat := (twinLanes s).foldl (fun m n => m + 2 ^ (n - 48)) 0

/-- What a silence that begins, or the loss of the link, brings at a standby, and at the active device. -/
def silenceFollows (s : State) (begins lost : Bool) : State :=
  if s.role ≠ roleStandby then (if lost then showFlags s else s)
  else if begins && s.pair.syncAtHb then { s with pair := { s.pair with watch := 1 } }
  else if begins then loseSync (s.event 0x0B04 noChan 0 0 0)
  else if lost then loseSync s
  else s

theorem twinSilence_pair {s : State} (h : s.on Reg.PAIR_CFG.pair_en = true) : twinSilence s = silenceFollows
    (if linkFails s then (linkShown s).event 0x0B01 noChan 0 (twinMap s) 0 else linkShown s) (silenceBegins s) (linkFails s) := by
  have hsteps : twinSilence s = silenceFollows (if linkFails (silenceShown s)
      then ((silenceShown s).wr Reg.PAIR_STATUS.twin_lost 0 1).event 0x0B01 noChan 0 (twinMap (silenceShown s)) 0 else silenceShown s)
      (silenceBegins s) (linkFails (silenceShown s)) := by
    rw [twinSilence, h, Bool.not_true, if_neg Bool.false_ne_true]
    rfl
  rw [hsteps, linkFails_silenceShown, twinMap, twinLanes_silenceShown, twinMap, linkShown, wrIf]
  cases linkFails s <;> rfl

/-! ### Records received (R411, R412) -/

/-- A record received is counted where its check fails, and its credits go back. -/
def recordGot (s : State) (lane : Nat) (good : Bool) (r : TwinRec) : State :=
  (if good then s else s.count Reg.LANE_FRAME_ERR.frame_err lane).emit (.twinSet lane (orderedSetWord osTwinCredit (r.credits * 2 ^ 32)))

/-- Since when the record awaited next is missing. -/
def missingSince (s : State) : Nat := match s.pair.nak with | some (q, t) => if q = s.pair.seqIn then t else s.clk | none => s.clk

/-- The record awaited next is asked for again. -/
def recordAsked (s : State) : State :=
  let since := missingSince s
  let s := twinSet s osTwinNak (s.pair.seqIn % 2 ^ 32 * 2 ^ 16)
  { s with pair := { s.pair with nak := some (s.pair.seqIn, since) } }

/-- The record awaited next is there; or one further on, where that one is given up. -/
def recordTaken (s : State) (seq : Nat) : State :=
  { s with pair := { s.pair with seqIn := (seq + 1) % 2 ^ 32, unacked := s.pair.unacked + 1, nak := none } }

def recordSkips (s : State) (seq : Nat) : State :=
  { s with pair := { s.pair with seqIn := (seq + 1) % 2 ^ 32, nak := none, lost := true } }

/-- A record in order applies, and the 64th not acknowledged is acknowledged with those before it. -/
def recordApplied (s : State) (r : TwinRec) : State :=
  let s := applyRecord s r
  if 64 ≤ s.pair.unacked then twinAck s else s

theorem recordIn_steps (s : State) (lane seq : Nat) (good : Bool) (r : TwinRec) : recordIn s lane seq good r =
    if good && seq == (recordGot s lane good r).pair.seqIn then recordApplied (recordTaken (recordGot s lane good r) seq) r
    else if good && decide (0 < diff32 s.pair.seqIn seq) && decide (diff32 s.pair.seqIn seq < 2 ^ 31) then recordGot s lane good r
    else if good && decide (missingSince (recordGot s lane good r) + 20 * usU ≤ (recordGot s lane good r).clk)
    then applyRecord (loseSync (recordSkips (recordGot s lane good r) seq)) r
    else recordAsked (recordGot s lane good r) := rfl

theorem recordGot_frame (s : State) (lane : Nat) (good : Bool) (r : TwinRec) :
    (recordGot s lane good r).pair = s.pair ∧ (recordGot s lane good r).clk = s.clk := by
  cases good <;> exact ⟨rfl, rfl⟩

theorem missingSince_recordGot (s : State) (lane : Nat) (good : Bool) (r : TwinRec) :
    missingSince (recordGot s lane good r) = missingSince s := by
  obtain ⟨hpair, hclk⟩ := recordGot_frame s lane good r
  rw [missingSince, hpair, hclk, missingSince]

theorem recordAsked_shows (s : State) : (recordAsked s).out =
      ((twinLanes s).map (fun n => Emit.twinSet n (orderedSetWord osTwinNak (s.pair.seqIn % 2 ^ 32 * 2 ^ 16)))).reverse ++ s.out ∧
    (recordAsked s).pair = { s.pair with nak := some (s.pair.seqIn, missingSince s) } ∧
    recordAsked s = { s with out := (recordAsked s).out, pair := (recordAsked s).pair } := by
  rw [recordAsked, twinSet_eq]
  exact ⟨rfl, rfl, rfl⟩

theorem twinLanes_recordGot (s : State) (lane : Nat) (good : Bool) (r : TwinRec) : twinLanes (recordGot s lane good r) = twinLanes s := by
  refine twinLanes_congr fun n => ?_
  cases good
  · exact rd_wr_field _ _ _ _ (by decide)
  · rfl

section

variable (s : State) (lane seq : Nat) (good : Bool) (r : TwinRec)

theorem recordTaken_recordGot : recordTaken (recordGot s lane good r) seq = { recordGot s lane good r with pair :=
    { s.pair with seqIn := (seq + 1) % 2 ^ 32, unacked := s.pair.unacked + 1, nak := none } } := by
  rw [recordTaken, (recordGot_frame s lane good r).1]

theorem recordSkips_recordGot : recordSkips (recordGot s lane good r) seq = { recordGot s lane good r with pair :=
    { s.pair with seqIn := (seq + 1) % 2 ^ 32, nak := none, lost := true } } := by
  rw [recordSkips, (recordGot_frame s lane good r).1]

theorem recordAsked_recordGot : (recordAsked (recordGot s lane good r)).out =
      ((twinLanes s).map (fun n => Emit.twinSet n (orderedSetWord osTwinNak (s.pair.seqIn % 2 ^ 32 * 2 ^ 16)))).reverse ++
        (recordGot s lane good r).out ∧
    (recordAsked (recordGot s lane good r)).pair = { s.pair with nak := some (s.pair.seqIn, missingSince s) } ∧
    recordAsked (recordGot s lane good r) = { recordGot s lane good r with
      out := (recordAsked (recordGot s lane good r)).out, pair := (recordAsked (recordGot s lane good r)).pair } := by
  have h := recordAsked_shows (recordGot s lane good r)
  rwa [missingSince_recordGot, twinLanes_recordGot, (recordGot_frame s lane good r).1] at h

end

section

variable {s : State} {lane seq : Nat} {good : Bool} {r : TwinRec}

theorem recordIn_inOrder (hgood : good = true) (hseq : seq = s.pair.seqIn) :
    recordIn s lane seq good r = recordApplied (recordTaken (recordGot s lane good r) seq) r := by
  rw [recordIn_steps, (recordGot_frame s lane good r).1]
  exact if_pos (by simp [hgood, hseq])

theorem recordIn_seen (hgood : good = true) (hseq : seq ≠ s.pair.seqIn) (h0 : 0 < diff32 s.pair.seqIn seq)
    (h1 : diff32 s.pair.seqIn seq < 2 ^ 31) : recordIn s lane seq good r = recordGot s lane good r := by
  rw [recordIn_steps, (recordGot_frame s lane good r).1]
  exact (if_neg (by simp [hseq])).trans (if_pos (by rw [hgood, decide_eq_true h0, decide_eq_true h1]; rfl))

theorem recordIn_lost (hgood : good = true) (hseq : seq ≠ s.pair.seqIn)
    (hgap : ¬(0 < diff32 s.pair.seqIn seq ∧ diff32 s.pair.seqIn seq < 2 ^ 31)) (h : missingSince s + 20 * usU ≤ s.clk) :
    recordIn s lane seq good r = applyRecord (loseSync (recordSkips (recordGot s lane good r) seq)) r := by
  obtain ⟨hpair, hclk⟩ := recordGot_frame s lane good r
  rw [recordIn_steps, missingSince_recordGot, hpair, hclk]
  refine (if_neg (by simp [hseq])).trans ((if_neg ?_).trans (if_pos (by simp [hgood, h])))
  simpa [hgood] using hgap

theorem recordIn_asked (h : good = false ∨ (seq ≠ s.pair.seqIn ∧ ¬(0 < diff32 s.pair.seqIn seq ∧ diff32 s.pair.seqIn seq < 2 ^ 31) ∧
    s.clk < missingSince s + 20 * usU)) : recordIn s lane seq good r = recordAsked (recordGot s lane good r) := by
  obtain ⟨hpair, hclk⟩ := recordGot_frame s lane good r
  rw [recordIn_steps, missingSince_recordGot, hpair, hclk]
  rcases h with hbad | ⟨hseq, hgap, hsoon⟩
  · exact (if_neg (by simp [hbad])).trans ((if_neg (by simp [hbad])).trans (if_neg (by simp [hbad])))
  · refine (if_neg (by simp [hseq])).trans ((if_neg fun hseen => hgap ?_).trans (if_neg (by simp [hsoon])))
    simp only [Bool.and_eq_true, decide_eq_true_eq] at hseen
    exact ⟨hseen.1.2, hseen.2⟩

end

/-! ### The levels of the twin link, and the end of RELOAD in a pair (R409, R478) -/

theorem twinLevelSend_shows (s : State) : twinLevelSend s = { s with out := (twinLevelSend s).out } ∧ (twinLevelSend s).out =
    ((twinLanes s).map (fun n => Emit.twinSet n
      (orderedSetWord osTwinLevel (imgPair (ownHeader s) * 2 ^ 24 + imgVer (ownHeader s) % 2 ^ 24)))).reverse ++
      s.out := by
  rw [twinLevelSend, twinSet_eq]
  exact ⟨rfl, rfl⟩

theorem reloadPair_pair {s : State} (h : s.on Reg.PAIR_CFG.pair_en = true) :
    reloadPair s = { s with pair := { s.pair with reloadEnd := some s.clk, seen := false } } := if_neg (by simp [h])

theorem reloadPair_single {s : State} (h : s.on Reg.PAIR_CFG.pair_en = false) : reloadPair s = goIdle s := if_pos (by simp [h])

/-- The device is active, or single; its RELOAD has ended. -/
def roleTaken (s : State) : State :=
  let s := if s.on Reg.PAIR_CFG.pair_en then setRole s roleActive else setRole s 0
  { s with pair := { s.pair with reloadEnd := none } }

theorem goIdle_eq (s : State) : goIdle s = linksGo (moveMode (roleTaken s) modeIdle causeReset 0) := rfl

theorem roleTaken_shows (s : State) : (roleTaken s).role = (if s.on Reg.PAIR_CFG.pair_en then roleActive else 0) ∧
    (roleTaken s).pair = { s.pair with reloadEnd := none } ∧
    OnlyRegs { s with pair := (roleTaken s).pair, out := (roleTaken s).out } (roleTaken s) [Reg.PAIR_STATUS.role_now.key 0] := by
  have hrole (r : Nat) (h : r < 4) : (setRole s r).role = r := (rd_wr_self ..).trans (low_of_lt h)
  unfold roleTaken
  cases s.on Reg.PAIR_CFG.pair_en
  · exact ⟨hrole 0 (by decide), rfl, onlyRegs_wr { s with pair := _, out := _ } ..⟩
  · exact ⟨hrole roleActive (by decide), rfl, onlyRegs_wr { s with pair := _, out := _ } ..⟩

/-- The wait at the primary for an active partner's heartbeat is over; that at the secondary for any. -/
def primaryDue (s : State) : Bool := s.primary && (match s.pair.reloadEnd with | some a => decide (a + 10 * msU ≤ s.clk) | none => false)

def secondaryDue (s : State) : Bool :=
  !s.primary && !s.pair.seen && (match s.pair.reloadEnd with | some a => decide (a + 200 * msU ≤ s.clk) | none => false)

section

variable {s : State}

theorem heartbeatWaited_idle (h : s.mode ≠ modeReload ∨ s.on Reg.PAIR_STATUS.role_clash = true) : heartbeatWaited s = s := by
  unfold heartbeatWaited
  split
  · rfl
  · exact if_pos (by simpa using h)

variable (hmode : s.mode = modeReload) (hclash : s.on Reg.PAIR_STATUS.role_clash = false)
include hmode hclash

theorem primaryWait : (if s.primary then heartbeatWaited s else s) = if primaryDue s then goIdle s else s := by
  unfold heartbeatWaited primaryDue
  cases hp : s.primary with
  | false => simp only [Bool.false_and, Bool.false_eq_true, if_false]
  | true =>
    cases s.pair.reloadEnd with
    | none => simp only [Bool.and_false, Bool.false_eq_true, if_false, ite_self]
    | some a => simp only [hmode, hclash, ne_eq, not_true, Bool.false_eq_true, decide_false, Bool.or_self, if_false, Bool.true_and,
        Bool.not_true, Bool.false_and, if_true]

theorem secondaryWait : (if s.primary then s else heartbeatWaited s) = if secondaryDue s then goIdle s else s := by
  unfold heartbeatWaited secondaryDue
  cases hp : s.primary with
  | true => simp only [if_true, Bool.not_true, Bool.false_and, Bool.false_eq_true, if_false]
  | false =>
    cases s.pair.reloadEnd with
    | none => simp only [Bool.and_false, Bool.false_eq_true, if_false]
    | some a => simp only [hmode, hclash, ne_eq, not_true, Bool.false_eq_true, decide_false, Bool.or_self, if_false, Bool.true_and,
        Bool.not_false, Bool.false_and, Bool.and_comm]

end

/-- A wait that is over, or one that does nothing, by what it does. -/
theorem wait_ends {s x : State} {due : Bool} (hidle : s.mode ≠ modeReload ∨ s.on Reg.PAIR_STATUS.role_clash = true → x = s)
    (hwait : s.mode = modeReload → s.on Reg.PAIR_STATUS.role_clash = false → x = if due then goIdle s else s)
    (f : State → Host.Outcome State Fault Refusal) :
    (s.mode ≠ modeReload ∨ s.on Reg.PAIR_STATUS.role_clash = true ∨ due = false → f x = f s) ∧
    (s.mode = modeReload → s.on Reg.PAIR_STATUS.role_clash = false → due = true → f x = f (goIdle s)) := by
  refine ⟨fun h => congrArg f ?_, fun hmode hclash hdue => by rw [hwait hmode hclash, if_pos hdue]⟩
  by_cases hrun : s.mode ≠ modeReload ∨ s.on Reg.PAIR_STATUS.role_clash = true
  · exact hidle hrun
  · have hdue : due = false := (or_assoc.2 h).resolve_left hrun
    rw [not_or, not_not, Bool.not_eq_true] at hrun
    rw [hwait hrun.1 hrun.2, if_neg (by simp [hdue])]

end Sys2Proof

/-! ## The images of RELOAD and the training of the Stacks (R478) -/

namespace Sys2Proof
open Machine Laws

/-! ### No work of a new image touches what training found -/

/-- Whether a lane was left without a redundant one stands as it stood. -/
def TrainKept (s t : State) : Prop := t.st.trainBad = s.st.trainBad

namespace TrainKept

variable {s t u : State}

theorem refl (s : State) : TrainKept s s := rfl

theorem same (h : t.st = s.st) : TrainKept s t := congrArg Stacks.trainBad h

/-- Steps compose, the last one first. -/
theorem comp (g : TrainKept t u) (h : TrainKept s t) : TrainKept s u := Eq.trans g h

theorem of (h : TrainKept s t) (hst : u.st = t.st) : TrainKept s u := comp (same hst) h

theorem wr (h : TrainKept s t) (f : Fld) (i v : Nat) : TrainKept s (t.wr f i v) := h

theorem fl (h : TrainKept s t) (x : Flash) : TrainKept s { t with fl := x } := h

theorem mem (h : TrainKept s t) (x : List Host.Cell) : TrainKept s { t with mem := x } := h

theorem ite {c : Prop} [Decidable c] (h : TrainKept s t) (g : TrainKept s u) : TrainKept s (if c then t else u) := by
  split
  · exact h
  · exact g

theorem foldl {α : Type} {f : State → α → State} (h : TrainKept s t) (hf : ∀ u a, TrainKept u (f u a)) (l : List α) :
    TrainKept s (l.foldl f t) := by
  induction l generalizing t with
  | nil => exact h
  | cons a l ih => exact ih (comp (hf t a) h)

end TrainKept

/-! Events, rings and the dispatch of slices. -/

theorem trainKept_poke (s : State) (a : Nat) (b : Byte) : TrainKept s (s.poke a b) := by
  unfold State.poke
  split
  · exact .ite (.refl s) (.same (by rfl))
  all_goals rfl

theorem trainKept_pokeList (s : State) (a : Nat) (bs : List Byte) : TrainKept s (s.pokeList a bs) := by
  induction bs generalizing s a with
  | nil => exact .refl s
  | cons b bs ih => exact .comp (ih ..) (trainKept_poke ..)

theorem trainKept_pokeBytes (s : State) (a : Nat) (bs : List Byte) : TrainKept s (s.pokeBytes a bs) :=
  .ite (.of (trainKept_pokeList s a bs) rfl) (trainKept_pokeList ..)

theorem trainKept_msiEvent (s : State) (n : Nat) : TrainKept s (msiEvent s n) :=
  .ite (.refl s) (.ite (.same (by rfl)) (.ite (.same (by rfl)) (.same (by rfl))))

theorem trainKept_catMove (s : State) (ch : Nat) : TrainKept s (s.catMove ch) := by
  unfold State.catMove
  split <;> rfl

theorem trainKept_startRun (s : State) (p i : Nat) (x : Slice) : TrainKept s (startRun s p i x) := .ite (.same (by rfl)) (.same (by rfl))

theorem trainKept_dispatch (s : State) (p : Nat) : TrainKept s (dispatch s p) := by
  have hready : TrainKept s (refreshUrgency (s.catMove (chScribe p)) p) := (trainKept_catMove s (chScribe p)).of rfl
  unfold dispatch
  dsimp only
  split
  · exact .refl s
  split
  · exact .comp (trainKept_startRun ..) hready
  · exact hready

theorem trainKept_ringWake (s : State) (n : Nat) : TrainKept s (ringWake s n) := by
  unfold ringWake
  split
  · exact .refl s
  · exact .ite (.foldl (.refl s) (fun u i => .ite (.comp (trainKept_dispatch ..) (.same (by rfl))) (.refl u)) _) (.refl s)

theorem trainKept_ringPublish (s : State) (n k : Nat) (irq : Bool) : TrainKept s (ringPublish s n k irq) :=
  .comp (trainKept_ringWake ..) (.ite (.comp (trainKept_msiEvent ..) (.same (by rfl))) (.same (by rfl)))

theorem trainKept_ringPost (s : State) (n : Nat) (d : Desc) : TrainKept s (ringPost s n d) :=
  .comp (trainKept_ringPublish ..) (trainKept_pokeBytes ..)

theorem trainKept_event (s : State) (code chan line evA evB : Nat) : TrainKept s (s.event code chan line evA evB) := by
  have hcounted (c : Prop) [Decidable c] : TrainKept s (if c then s.faultCount else s) := .ite (.same (by rfl)) (.refl s)
  exact .ite (.comp (trainKept_ringPost ..) (hcounted _)) (.ite ((hcounted _).of rfl) ((hcounted _).of rfl))

theorem trainKept_flushEvents (es : List Event) (s : State) : TrainKept s (flushEvents es s) := by
  induction es generalizing s with
  | nil => exact .ite (.same (by rfl)) (.ite (.of (trainKept_ringPost s ..) rfl) (.same (by rfl)))
  | cons e es ih => exact .ite (.comp (ih _) (trainKept_ringPost ..)) (.same (by rfl))

theorem trainKept_msiOwed (s : State) (n : Nat) : TrainKept s (msiOwed s n) := .ite (.comp (trainKept_msiEvent ..) (.same (by rfl))) (.refl s)

/-! Lanes, links and the charge of heads. -/

theorem trainKept_gpInt (s : State) (f : Fld) : TrainKept s (gpInt s f) := .ite (.refl s) (.ite (.same (by rfl)) (.same (by rfl)))

theorem trainKept_setLstate (s : State) (n c : Nat) : TrainKept s (setLstate s n c) := .same rfl

theorem trainKept_prbsWrite (s : State) (n : Nat) (chk : Bool) : TrainKept s (prbsWrite s n chk) :=
  .ite (.same (by rfl)) (.ite (.same (by rfl)) (.refl s))

theorem trainKept_prbsStop (s : State) (n : Nat) : TrainKept s (prbsStop s n) :=
  .wr (.wr (trainKept_prbsWrite s n false) ..) ..

theorem trainKept_laneClear (s : State) (n : Nat) : TrainKept s (laneClear s n) :=
  .wr (.wr (trainKept_prbsStop s n) ..) ..

theorem trainKept_laneSpare (s : State) (n : Nat) : TrainKept s (laneSpare s n) :=
  .comp (trainKept_setLstate ..) <| .wr (.wr (.wr (.wr (trainKept_prbsWrite s n true) ..) ..) ..) ..

theorem trainKept_showLinks (s : State) (l : Nat) : TrainKept s (showLinks s l) := by
  have hfault (u : State) (c : Prop) [Decidable c] : TrainKept u (if c then gpInt u Reg.GP_INT_STAT.head_fault else u) :=
    .ite (trainKept_gpInt ..) (.refl u)
  exact .foldl (.refl s) (fun u k => .wr (.ite (.wr (hfault u _) ..) (hfault u _)) ..) _

theorem trainKept_mapLane (s : State) (l a b stateA : Nat) : TrainKept s (mapLane s l a b stateA) :=
  .comp (trainKept_showLinks ..) <| .comp (trainKept_setLstate ..) <| .comp (trainKept_setLstate ..) <|
  .comp (trainKept_laneClear ..) (.same (by rfl))

theorem trainKept_planLatch (s : State) (m : LaneMove) : TrainKept s (planLatch s m) := by
  have hmapped (c : Nat) : TrainKept s (mapLane (moveCredits (latchWord s (m.l / 5) (finalWord s m)) m.l m.a m.b) m.l m.a m.b c) :=
    .comp (trainKept_mapLane ..) (.same (by rfl))
  exact .of (.ite (.wr (hmapped _) Reg.LANE_STATE.loop m.a 3) (.comp (trainKept_laneSpare ..) (hmapped _))) rfl

theorem trainKept_laneReleased (s : State) (k : Nat) : TrainKept s (laneReleased s k) := by
  unfold laneReleased
  split
  · exact .ite (trainKept_planLatch ..) (.refl s)
  · exact .refl s

theorem trainKept_slotSet (s : State) (k type rest : Nat) : TrainKept s (slotSet s k type rest) := .ite (.same (by rfl)) (.refl s)

theorem trainKept_keepopenStop (s : State) (k : Nat) : TrainKept s (keepopenStop s k) :=
  .ite (.wr (.comp (trainKept_laneReleased ..) (trainKept_slotSet ..)) ..) (.refl s)

theorem trainKept_chargeUpdate (s : State) (k : Nat) : TrainKept s (chargeUpdate s k) :=
  .ite (.comp (trainKept_keepopenStop ..) (.same (by rfl))) (.same (by rfl))

theorem trainKept_linksDown (s : State) (l : Nat) : TrainKept s (linksDown s l) :=
  .foldl (trainKept_showLinks ..) trainKept_chargeUpdate _

theorem trainKept_laneDown (s : State) (n : Nat) : TrainKept s (laneDown s n) := by
  unfold laneDown
  dsimp only
  refine .ite (.refl s) ?_
  have hcleared (u : State) (h : u.st = s.st) : TrainKept s (setLstate (prbsStop u n) n 0) :=
    .comp (trainKept_setLstate ..) (.comp (trainKept_prbsStop ..) (.same h))
  split
  · exact .comp (trainKept_linksDown ..) (hcleared _ rfl)
  · exact hcleared _ rfl

theorem trainKept_laneCall (s : State) (n : Nat) : TrainKept s (laneCall s n) := .ite (.refl s) (.same (by rfl))

theorem trainKept_ringSettle (s : State) (n : Nat) : TrainKept s (ringSettle s n) := .same rfl

/-! A head's temperature, its waveform and its usage. -/

theorem trainKept_requestStop (s : State) (cause g : Nat) : TrainKept s (requestStop s cause g) := by
  unfold requestStop
  refine .ite (.refl s) (.ite (.ite (.same (by rfl)) (.refl s)) (.ite ?_ ?_))
  all_goals exact .of (.ite (c := s.on Reg.LA_STATUS.job_open = true) (t := setStopFrom s g) (.same rfl) (.refl s)) rfl

theorem trainKept_stopSooner (s : State) (g : Nat) : TrainKept s (stopSooner s g) := .ite (.same (by rfl)) (.refl s)

theorem trainKept_tempChanged (s : State) (k old new : Nat) : TrainKept s (tempChanged s k old new) :=
  .comp (trainKept_chargeUpdate ..) <|
  .comp (.ite (.comp (trainKept_requestStop ..) (trainKept_stopSooner ..)) (.ite (trainKept_requestStop ..) (.refl _))) <|
  .comp (.ite (trainKept_gpInt ..) (.refl _)) <|
  .comp (.ite (trainKept_event ..) (.refl _)) (.same (by rfl))

theorem trainKept_tempEval (s : State) (k : Nat) : TrainKept s (tempEval s k) :=
  .ite (.refl s) (.ite (.refl s) (trainKept_tempChanged ..))

theorem trainKept_usageFlush (s : State) (k : Nat) : TrainKept s (usageFlush s k) :=
  .ite (.foldl (.refl s) (fun _ _ => (.same (by rfl))) _) (.refl s)

theorem trainKept_sendDrive (s : State) (k : Nat) : TrainKept s (sendDrive s k) :=
  .comp (trainKept_slotSet ..) (.ite (trainKept_usageFlush ..) (.refl s))

theorem trainKept_waveStart (s : State) (k : Nat) : TrainKept s (waveStart s k) := .ite (.same (by rfl)) (.same (by rfl))

/-! Cameras, axes, encoders, drives, triggers and binders. -/

theorem trainKept_showGeom (s : State) (p : Nat) : TrainKept s (showGeom s p) := .wr (.wr (.wr (.wr (.refl s) ..) ..) ..) ..

theorem trainKept_setPipe (s : State) (p : Nat) (x : Pipe) : TrainKept s (s.setPipe p x) := .same rfl

theorem trainKept_geomRestart (s : State) (p : Nat) : TrainKept s (geomRestart s p) :=
  .comp (trainKept_showGeom ..) (trainKept_setPipe ..)

theorem trainKept_pipeBind (s : State) (p : Nat) : TrainKept s (pipeBind s p) := by
  unfold pipeBind
  exact .comp (.ite (.comp (trainKept_geomRestart ..) (trainKept_setPipe ..)) (.refl _)) (.wr (.wr (.wr (.wr (.wr (.refl s) ..) ..) ..) ..) ..)

theorem trainKept_axisFlag (s : State) (n : Nat) (f : Fld) : TrainKept s (axisFlag s n f) := .wr (.wr (.refl s) ..) ..

theorem trainKept_showAxis (s : State) (n : Nat) : TrainKept s (showAxis s n) := by
  unfold showAxis
  exact .wr (.wr (.wr (.wr (.wr (.wr (.refl s) ..) ..) ..) ..) ..) ..

theorem trainKept_setAxis (s : State) (n : Nat) (x : Axis) : TrainKept s (s.setAxis n x) := .same rfl

theorem trainKept_homeFail (s : State) (n : Nat) : TrainKept s (homeFail s n) :=
  .ite (.refl s) (.comp (trainKept_axisFlag ..) (.comp (trainKept_setAxis ..) (.wr (.refl s) ..)))

theorem trainKept_axisStop (s : State) (n : Nat) (hard : Bool) : TrainKept s (axisStop s n hard) :=
  .comp (trainKept_showAxis ..) (.comp (trainKept_setAxis ..) (trainKept_homeFail ..))

theorem trainKept_loopSend (s : State) (port : Nat) : TrainKept s (loopSend s port) := .ite (.refl s) (.same (by rfl))

theorem trainKept_driveLinkUp (s : State) (port : Nat) : TrainKept s (driveLinkUp s port) := by
  unfold driveLinkUp
  refine .comp (trainKept_loopSend ..) (.foldl (.same (by rfl)) (fun u n => ?_) _)
  exact .ite (.comp (trainKept_showAxis ..) (.comp (trainKept_setAxis ..) (trainKept_axisStop ..))) (.refl u)

theorem trainKept_emuDrive (s : State) (k : Nat) (a b z : Bool) : TrainKept s (emuDrive s k a b z) := .ite (.refl s) (.same (by rfl))

theorem trainKept_emuStart (s : State) (k : Nat) : TrainKept s (emuStart s k) := by
  unfold emuStart
  exact .comp (trainKept_emuDrive ..) (.wr (.wr (.same (by rfl)) ..) ..)

theorem trainKept_setTrig (s : State) (k : Nat) (x : Trig) : TrainKept s (s.setTrig k x) := .same rfl

theorem trainKept_trigLoad (s : State) (k : Nat) : TrainKept s (trigLoad s k) := by
  unfold trigLoad
  refine .ite (trainKept_setTrig ..) (.ite ?_ (trainKept_setTrig ..))
  exact .comp (trainKept_setTrig ..) (.ite (.wr (.refl s) ..) (.refl s))

theorem trainKept_bndShow (s : State) (u : Nat) : TrainKept s (bndShow s u) := by
  unfold bndShow
  exact .wr (.wr (.wr (.wr (.wr (.refl s) ..) ..) ..) ..) ..

theorem trainKept_bndAbandon (s : State) (u : Nat) : TrainKept s (bndAbandon s u) :=
  .ite (.comp (trainKept_bndShow ..) (.same (by rfl))) (.refl s)

/-! Entries taken into effect, and the Catalog. -/

theorem trainKept_entryTaken (s : State) (ch : Nat) (old : Option (List Byte)) : TrainKept s (entryTaken s ch old) := by
  unfold entryTaken
  dsimp only
  split
  · exact .comp (trainKept_chargeUpdate ..) <| .comp (trainKept_tempEval ..) <| .comp (.ite (trainKept_sendDrive ..) (.refl _)) <|
      .comp (.ite (trainKept_waveStart ..) (.refl _)) <| .comp (.foldl (.refl _) (fun u l => .ite (trainKept_showLinks ..) (.refl u)) _) <|
      .ite (trainKept_laneClear ..) (.refl s)
  · exact .ite (.same (by rfl)) (.refl s)
  · exact .ite (trainKept_laneCall ..) (.ite (trainKept_laneDown ..) (.refl s))
  · exact .ite (trainKept_laneCall ..) (.ite (trainKept_laneDown ..) (.refl s))
  · exact .ite (.same (by rfl)) (.ite (.same (by rfl)) (.refl s))
  · exact trainKept_pipeBind ..
  · exact .comp (trainKept_showAxis ..) (.ite (.comp (trainKept_axisStop ..) (trainKept_homeFail ..)) (.refl s))
  · exact .same rfl
  · exact .ite (trainKept_emuStart ..) (.ite (.same (by rfl)) (.refl s))
  · exact .ite (trainKept_driveLinkUp ..) (.ite (.same (by rfl)) (.refl s))
  · exact .comp (trainKept_ringWake ..) <| .comp (trainKept_ringSettle ..) <| .comp (trainKept_msiOwed ..) <|
      .ite (trainKept_flushEvents ..) (.refl s)
  · exact trainKept_trigLoad ..
  · exact .comp (trainKept_bndShow ..) (.ite (trainKept_bndAbandon ..) (.refl s))
  · exact .ite (.same (by rfl)) (.refl s)
  · exact .refl s

theorem trainKept_catApply (s : State) (ch : Nat) : TrainKept s (catApply s ch) := by
  unfold catApply
  split
  · exact .refl s
  · exact .ite (.comp (trainKept_entryTaken ..) (trainKept_catMove ..)) (.refl s)

theorem trainKept_twin (s : State) (r : TwinRec) : TrainKept s (s.twin r) := .ite (.same (by rfl)) (.refl s)

theorem trainKept_catLoad (s : State) (ch : Nat) (e : List Byte) (since : Option Nat) : TrainKept s (catLoad s ch e since) := by
  unfold catLoad
  refine .comp (t := if mirroredChan ch then State.twin _ _ else _) (.ite (.refl _) (trainKept_catApply ..)) ?_
  exact .ite (.comp (trainKept_twin ..) (.same (by rfl))) (.same (by rfl))

theorem trainKept_catFetch (s : State) (ch : Nat) : TrainKept s (catFetch s ch) := .ite (trainKept_catLoad ..) (.refl s)

theorem trainKept_catShow (s : State) : TrainKept s (catShow s) := .wr (.wr (.refl s) ..) ..

theorem trainKept_loadCatalog (s : State) : TrainKept s (loadCatalog s) :=
  .comp (trainKept_catShow ..) (.foldl (.refl s) (fun u ch => .ite (.ite (.same (by rfl)) (.refl u)) (trainKept_catFetch ..)) _)

/-! The boot record, the settings and the steps of an image's start. -/

theorem trainKept_flashRefuse (s : State) (who : Nat) : TrainKept s (flashRefuse s who) := by
  have hrefused := trainKept_event
    (State.count { s with th := { s.th with refused := true, goodAt := none } } Reg.THERM_FLASH.flash_refused) 0x0C05 noChan 0 who 0
  exact .wr (.ite (hrefused.of (by rfl)) hrefused) ..

theorem trainKept_recStore (s : State) (r : BootRec) : TrainKept s (recStore s r) := .ite (.same (by rfl)) (.same (by rfl))

theorem trainKept_recWrite (s : State) (r : BootRec) : TrainKept s (recWrite s r) :=
  .ite (trainKept_recStore ..) (.comp (trainKept_flashRefuse ..) (.same (by rfl)))

theorem trainKept_activate (s : State) : TrainKept s (activate s).1 := by
  have hstored (r : BootRec) : TrainKept s (recStore (imgCopy s stagingBase (halfBase (1 - (bootRec s).half)) 0x200_0000) r) :=
    .comp (trainKept_recStore ..) (.same (by rfl))
  unfold activate
  dsimp only
  split
  · exact .refl s
  split
  · exact .comp (trainKept_recWrite ..) (.same (by rfl))
  split
  · exact .comp (trainKept_flashRefuse ..) (.same (by rfl))
  · exact (hstored _).of rfl

theorem trainKept_fieldWrite (s : State) (v : Nat) (p : FieldAt) : TrainKept s (fieldWrite s v p) := by
  unfold fieldWrite
  split
  · exact .same rfl
  · exact .ite (.refl s) (.same (by rfl))
  · exact .ite (.refl s) (.same (by rfl))
  all_goals exact .same rfl

theorem trainKept_fieldsWrite (s : State) (v : Nat) (ps : List FieldAt) : TrainKept s (fieldsWrite s v ps) :=
  .foldl (.refl s) (fun u p => trainKept_fieldWrite u v p) _

theorem trainKept_gpStart (s : State) : TrainKept s (gpStart s) := by
  have hpair (c : Prop) [Decidable c] :
      TrainKept s (if c then (s.wr Reg.PAIR_CFG.pair_en 0 0).event 0x0D03 noChan 0 0 0 else s) :=
    .ite (.comp (trainKept_event ..) (.same (by rfl))) (.refl s)
  exact .foldl ((hpair _).of (by rfl)) (fun u i => .ite (trainKept_fieldsWrite ..) (.ite (trainKept_fieldsWrite ..) (.same (by rfl)))) _

theorem trainKept_regRecord (s : State) (a v : Nat) : TrainKept s (regRecord s a v) :=
  .ite (.foldl (.refl s) (fun _ _ => (.same (by rfl))) _) (.same (by rfl))

theorem trainKept_lockRecord (s : State) (a v : Nat) : TrainKept s (lockRecord s a v) := .foldl (.refl s) (fun _ _ => (.same (by rfl))) _

theorem trainKept_applyRecords (s : State) (recs : List SetRec) (island : Bool) : TrainKept s (applyRecords s recs island) := by
  have hregs (bad good : List SetRec) : TrainKept s (good.foldl (fun s r => regRecord s r.2.2.1 (leNat r.2.2.2)) (bad.foldl (fun s r =>
      (State.wr { s with fl := { s.fl with privDrop := r.2.2.1 :: s.fl.privDrop } } Reg.SET_STATUS.priv_reset 0 1).event
        0x0D01 noChan 0 r.2.2.1 r.2.1) s)) :=
    .foldl (.foldl (.refl s) (fun _ _ => .comp (trainKept_event ..) (.same (by rfl))) _) (fun _ _ => trainKept_regRecord ..) _
  have hlocked (bad good : List SetRec) := TrainKept.foldl (hregs bad good)
    (fun u (r : SetRec) => trainKept_lockRecord u r.2.2.1 (leNat r.2.2.2)) good
  unfold applyRecords
  exact (hlocked _ _).of (by rfl)

theorem trainKept_storesDo (s : State) (p : Nat × List Byte) : TrainKept s (storesDo s p) :=
  .ite (.same (by rfl)) (.ite (trainKept_pokeList ..) (.refl s))

theorem trainKept_tableStores {α : Type} (s : State) (cs : List α) (ch : α → Nat) (e : α → List Byte) :
    TrainKept s (cs.foldl (fun s c => tableStore s (ch c) (e c)) s) :=
  .foldl (.refl s) (fun _ _ => (.same (by rfl))) _

theorem trainKept_lanesBoot (s : State) (cold : Bool) : TrainKept s (lanesBoot s cold) :=
  .foldl (.refl s) (fun u n => .ite (.refl u) (.ite (.same (by rfl)) (.ite (.refl u) (.comp (trainKept_setLstate ..) (.same (by rfl)))))) _

theorem trainKept_nodeFound (s : State) : TrainKept s (nodeFound s) := by
  unfold nodeFound
  split
  · exact .wr (.ite (.same (by rfl)) (.refl s)) ..
  · exact .same rfl

theorem trainKept_placeAreas (s : State) : TrainKept s (placeAreas s) := .same rfl

theorem trainKept_loopsShift (s : State) : TrainKept s (loopsShift s) := .same rfl

theorem trainKept_showStage (s : State) : TrainKept s (showStage s) := .wr (.wr (.refl s) ..) ..

theorem trainKept_imageStart (s : State) (base : Nat) (fresh : Bool) : TrainKept s (imageStart s base fresh) := by
  unfold imageStart
  dsimp only
  refine .comp (trainKept_loopsShift ..) <| .comp (trainKept_nodeFound ..) <| .comp (trainKept_lanesBoot ..) <|
    .comp (trainKept_loadCatalog ..) <| .comp (trainKept_tableStores ..) <| .comp (.ite (trainKept_tableStores ..) (.refl _)) <|
    .comp (.foldl (.refl _) trainKept_storesDo _) <| .comp (.ite (trainKept_gpStart ..) (.same (by rfl))) <|
    .comp (trainKept_placeAreas ..) ?_
  split
  rotate_left
  refine .ite (.wr (.wr (.mem ?_ _) ..) ..) (.comp (trainKept_flashRefuse ..) (.wr (.fl ?_ _) ..))
  all_goals exact .comp (trainKept_applyRecords ..) <| .wr (.wr (.wr (.comp (trainKept_showStage ..) <|
    .wr (.wr (.wr (.wr (.wr (.wr (.ite (.same (by rfl)) (.same (by rfl))) ..) ..) ..) ..) ..) ..) ..) ..) ..

theorem trainKept_bootRun (s : State) : TrainKept s (bootRun s) := by
  have hrecord := trainKept_activate s
  unfold bootRun
  dsimp only
  generalize activate s = r at hrecord ⊢
  obtain ⟨u, new⟩ := r
  refine .ite (.comp (trainKept_imageStart ..) hrecord) (.ite ?_ (.ite ?_ ?_))
  · exact .comp (trainKept_imageStart ..) (.fl (.comp (trainKept_recWrite ..) (.wr hrecord ..)) _)
  · exact .comp (trainKept_imageStart ..) (.wr hrecord ..)
  · exact .fl (.wr hrecord ..) _

end Sys2Proof

/-! ## What RELOAD ends with, and the commands of the link (R408 to R413, R478) -/

namespace Sys2Proof
open Machine Laws

/-! ### Redundant lanes and the timing codes (R478) -/

theorem repairAdd_frame (s : State) (kind unit : Nat) : ∃ r, repairAdd s kind unit = { s with fl := { s.fl with repair := r } } := by
  unfold repairAdd
  split <;> exact ⟨_, rfl⟩

/-- What one lane's redundant one leaves as it is, all lanes' leave so too. -/
theorem lanesFix_unchanged {γ : Type} (p : State → γ)
    (h : ∀ s m n r, p { (State.wr { s with st := { s.st with laneMap := m, laneBad := n } } Reg.MEM_REPAIR.lanes_remapped 0 (sat 8 m.length)) with
      fl := { s.fl with repair := r } } = p s) (s : State) : p (lanesFix s) = p s := by
  refine foldl_unchanged p (fun u k => ?_) _ s
  split
  · dsimp only
    obtain ⟨r, hrepair⟩ := repairAdd_frame (State.wr { u with st := { u.st with
      laneMap := u.st.laneMap ++ [k], laneBad := u.st.laneBad.filter (· != k) } } Reg.MEM_REPAIR.lanes_remapped 0
        (sat 8 (u.st.laneMap ++ [k]).length)) repStackLane k
    rw [hrepair]
    exact h ..
  · rfl

theorem lanesFix_bootAt (s : State) : (lanesFix s).fl.bootAt = s.fl.bootAt :=
  lanesFix_unchanged (fun s => s.fl.bootAt) (fun _ _ _ _ => rfl) s

theorem lanesFix_cause (s : State) : (lanesFix s).fl.cause = s.fl.cause :=
  lanesFix_unchanged (fun s => s.fl.cause) (fun _ _ _ _ => rfl) s

theorem lanesFix_trainBad (s : State) : (lanesFix s).st.trainBad = s.st.trainBad :=
  lanesFix_unchanged (fun s => s.st.trainBad) (fun _ _ _ _ => rfl) s

theorem rd_lanesFix (s : State) : (lanesFix s).rd Reg.LX_FW_VER.fw_version = s.rd Reg.LX_FW_VER.fw_version :=
  lanesFix_unchanged (fun s => s.rd Reg.LX_FW_VER.fw_version) (fun s m n _ => rd_wr_field { s with st := { s.st with laneMap := m, laneBad := n } }
    0 _ 0 (by decide)) s

/-- The pseudo-channels of a list take new codes, as far as the training has any for them. -/
def codesFor (s : State) (pcs : List Nat) : State :=
  pcs.foldl (fun s pc => if s.fl.cause = 1 || s.freeVal (1000 * pc + 164) % 2 == 0 then codesTrain s pc else s) s

theorem codesStart_eq (s : State) : codesStart s = codesFor s (List.range 64) := rfl

theorem codesFor_frame (s : State) (pcs : List Nat) : ∃ c n, codesFor s pcs = { s with st := { s.st with codes := c }, freeN := n } := by
  induction pcs generalizing s with
  | nil => exact ⟨_, _, rfl⟩
  | cons pc pcs ih =>
    rw [codesFor, List.foldl_cons, ← codesFor]
    split
    · obtain ⟨c, n, h⟩ := ih (codesTrain s pc)
      exact ⟨c, n, h⟩
    · exact ih s

theorem codesTrain_length (s : State) (pc k : Nat) (h : k = pc ∨ (Tbl.get [] s.st.codes k).length = 36) :
    (Tbl.get [] (codesTrain s pc).st.codes k).length = 36 := by
  have hcodes : (codesTrain s pc).st.codes =
      s.st.codes.put pc ((List.range 36).map (fun i => ((Config.free (163 + 1000 * i) s.freeN % 64 : Nat) : Int))) := rfl
  rw [hcodes, tbl_get_put]
  split
  · rw [List.length_map, List.length_range]
  · next hne => exact h.resolve_left hne

/-- At a cold start every pseudo-channel takes its 36 codes. -/
theorem codesFor_length (s : State) (hcold : s.fl.cause = 1) (pcs : List Nat) (k : Nat)
    (h : k ∈ pcs ∨ (Tbl.get [] s.st.codes k).length = 36) : (Tbl.get [] (codesFor s pcs).st.codes k).length = 36 := by
  induction pcs generalizing s with
  | nil => exact h.resolve_left List.not_mem_nil
  | cons pc pcs ih =>
    rw [codesFor, List.foldl_cons, ← codesFor, if_pos (by simp [hcold])]
    refine ih (codesTrain s pc) hcold ?_
    rcases h with hmem | hset
    · exact (List.mem_cons.1 hmem).elim (fun heq => .inr (codesTrain_length s pc k (.inl heq))) .inl
    · exact .inr (codesTrain_length s pc k (.inr hset))

/-! ### The end of RELOAD (R478) -/

/-- The image that waits has started. -/
def imageRun (s : State) : State := if s.fl.bootAt.isSome && !s.fl.noImage then bootRun s else s

theorem imageRun_trainBad (s : State) : (imageRun s).st.trainBad = s.st.trainBad := TrainKept.ite (trainKept_bootRun s) (.refl s)

/-- The lanes that fail have their redundant ones as far as there are any, and the training begins at its first step. -/
def trainBegun (y : State) : State := { lanesFix y with st := { (lanesFix y).st with trainPos := 0 } }

/-- The pseudo-channels have their codes. -/
def stacksFixed (y : State) : State := codesStart (trainBegun y)

theorem stacksFixed_frame (y : State) : ∃ c n,
    stacksFixed y = { lanesFix y with st := { (lanesFix y).st with trainPos := 0, codes := c }, freeN := n } := by
  obtain ⟨c, n, hcodes⟩ := codesFor_frame (trainBegun y) (List.range 64)
  rw [stacksFixed, codesStart_eq, hcodes]
  exact ⟨c, n, rfl⟩

theorem stacksFixed_length (y : State) (hcold : y.fl.cause = 1) (k : Nat) (hk : k < 64) :
    (Tbl.get [] (stacksFixed y).st.codes k).length = 36 := by
  rw [stacksFixed, codesStart_eq]
  exact codesFor_length (trainBegun y) ((lanesFix_cause y).trans hcold) _ k (.inl (List.mem_range.2 hk))

/-- A lane is left without a redundant one. -/
def laneLeft (y : State) : State :=
  State.wr { stacksFixed y with st := { (stacksFixed y).st with trainBad := true } } Reg.MODE_CUR.cause 0 causeHbm

/-- The Stacks are trained, and the loops run that the image has. -/
def loopsBegun (y : State) : State :=
  ((stacksFixed y).wr Reg.MEM_STATUS.trained 0 1).wrb Reg.CL_CTRL.loops_run 0 (Config.imageLoops (y.rd Reg.LX_FW_VER.fw_version))

/-- RELOAD goes on from its image: the Scribes and the groups start, and the partner is awaited or the mode left. -/
def reloadLast (x : State) : State :=
  let x := groupsWake (scribesStart x)
  reloadPair (windowStart { x with fl := { x.fl with cause := 0 } })

theorem stacksTrain_left {y : State} (h : (lanesFix y).st.laneBad ≠ []) : stacksTrain y = laneLeft y := by
  obtain ⟨c, n, hfixed⟩ := stacksFixed_frame y
  have hbad : (stacksFixed y).st.laneBad ≠ [] := by
    rw [hfixed]
    exact h
  rw [stacksTrain, laneLeft, ← trainBegun, ← stacksFixed, if_neg hbad]

theorem stacksTrain_trained {y : State} (h : (lanesFix y).st.laneBad = []) : stacksTrain y = (stacksFixed y).wr Reg.MEM_STATUS.trained 0 1 := by
  obtain ⟨c, n, hfixed⟩ := stacksFixed_frame y
  have hgood : (stacksFixed y).st.laneBad = [] := by
    rw [hfixed]
    exact h
  rw [stacksTrain, ← trainBegun, ← stacksFixed, if_pos hgood]

theorem laneLeft_shows (y : State) : (laneLeft y).st = { (lanesFix y).st with trainBad := true, trainPos := 0, codes := (laneLeft y).st.codes } ∧
    (laneLeft y).rd Reg.MODE_CUR.cause = causeHbm ∧
    OnlyRegs { lanesFix y with st := (laneLeft y).st, freeN := (laneLeft y).freeN } (laneLeft y) [Reg.MODE_CUR.cause.key 0] := by
  obtain ⟨c, n, hfixed⟩ := stacksFixed_frame y
  rw [laneLeft, hfixed]
  exact ⟨rfl, (rd_wr_self ..).trans (by decide), onlyRegs_wr ..⟩

theorem loopsBegun_shows (y : State) : (loopsBegun y).on Reg.MEM_STATUS.trained = true ∧
    (loopsBegun y).on Reg.CL_CTRL.loops_run = Config.imageLoops (y.rd Reg.LX_FW_VER.fw_version) ∧
    (loopsBegun y).st = { (lanesFix y).st with trainPos := 0, codes := (loopsBegun y).st.codes } ∧
    OnlyRegs { lanesFix y with st := (loopsBegun y).st, freeN := (loopsBegun y).freeN } (loopsBegun y)
      [Reg.MEM_STATUS.trained.key 0, Reg.CL_CTRL.loops_run.key 0] := by
  obtain ⟨c, n, hfixed⟩ := stacksFixed_frame y
  rw [loopsBegun, hfixed]
  exact ⟨(on_wr_field _ _ _ _ (by decide)).trans (wr_one _ _ (by decide)).1, on_wrb_self _ _ _ (by decide), rfl,
    (onlyRegs_wr ..).trans (onlyRegs_wr ..)⟩

theorem loopsBegun_length (y : State) (hcold : y.fl.cause = 1) (k : Nat) (hk : k < 64) :
    (Tbl.get [] (loopsBegun y).st.codes k).length = 36 := by
  rw [loopsBegun, wrb_st, wr_st]
  exact stacksFixed_length y hcold k hk

theorem reloadDone_waits {s : State} (h : s.mode ≠ modeReload ∨ s.fl.cause = 0 ∨ s.fl.resetAsk ≠ none ∨ s.pair.reloadEnd ≠ none ∨
    s.st.trainBad = true) : reloadDone s = s := by
  refine if_pos ?_
  simp only [Bool.or_eq_true, decide_eq_true_eq, ne_eq, Option.isSome_iff_ne_none]
  tauto

section

variable {s : State} (hmode : s.mode = modeReload) (hcause : s.fl.cause ≠ 0) (hask : s.fl.resetAsk = none) (hend : s.pair.reloadEnd = none)
  (hgood : s.st.trainBad = false)
include hmode hcause hask hend hgood

theorem reloadDone_waitsImage (hboot : (imageRun s).fl.bootAt ≠ none) : reloadDone s = imageRun s := by
  have hsome : (imageRun s).fl.bootAt.isSome = true := Option.isSome_iff_ne_none.2 hboot
  rw [reloadDone, if_neg (by simp [hmode, hcause, hask, hend, hgood]), ← imageRun]
  simp only [hsome, if_true, Bool.true_or]

variable (hboot : (imageRun s).fl.bootAt = none)
include hboot

theorem reloadDone_left (hbad : (lanesFix (imageRun s)).st.laneBad ≠ []) : reloadDone s = laneLeft (imageRun s) := by
  have hleft : (laneLeft (imageRun s)).st.trainBad = true := rfl
  rw [reloadDone, if_neg (by simp [hmode, hcause, hask, hend, hgood]), ← imageRun]
  simp only [hboot, Option.isSome_none, Bool.false_eq_true, if_false, stacksTrain_left hbad, hleft, Bool.or_true, if_true]

theorem reloadDone_goesOn (hfixed : (lanesFix (imageRun s)).st.laneBad = []) : reloadDone s = reloadLast (loopsBegun (imageRun s)) := by
  obtain ⟨c, n, hstacks⟩ := stacksFixed_frame (imageRun s)
  have hnone : ((stacksFixed (imageRun s)).wr Reg.MEM_STATUS.trained 0 1).fl.bootAt = none := by
    rw [hstacks]
    exact (lanesFix_bootAt _).trans hboot
  have hkept : ((stacksFixed (imageRun s)).wr Reg.MEM_STATUS.trained 0 1).st.trainBad = false := by
    rw [hstacks]
    exact (lanesFix_trainBad _).trans ((imageRun_trainBad s).trans hgood)
  have hver : ((stacksFixed (imageRun s)).wr Reg.MEM_STATUS.trained 0 1).rd Reg.LX_FW_VER.fw_version =
      (imageRun s).rd Reg.LX_FW_VER.fw_version := by
    rw [rd_wr_field _ _ _ _ (by decide), hstacks]
    exact rd_lanesFix _
  rw [reloadDone, if_neg (by simp [hmode, hcause, hask, hend, hgood]), ← imageRun]
  simp only [hboot, Option.isSome_none, Bool.false_eq_true, if_false, stacksTrain_trained hfixed, hnone, hkept, Bool.or_self, hver,
    reloadLast, loopsBegun]

end

/-! ### The commands of the link (R410 to R413, R478) -/

section

variable (s : State) (t lane w : Nat)

theorem exec_inPair {c : Instr} (hc : c ∈ [Instr.twinCredit t lane w, .twinAck t lane w, .twinNak t lane w, .twinFail t lane w, .twinHbSend t,
    .twinAckSend t]) : ∃ f, exec c s = .next (inPair (s.at t) f) := by
  simp only [List.mem_cons, List.not_mem_nil, or_false] at hc
  rcases hc with rfl | rfl | rfl | rfl | rfl | rfl <;> exact ⟨_, rfl⟩

theorem exec_onTwinSet {c : Instr} {ty : Nat} (hc : (c, ty) ∈ [(Instr.twinCredit t lane w, osTwinCredit), (.twinAck t lane w, osTwinAck),
    (.twinNak t lane w, osTwinNak), (.twinFail t lane w, osTwinFail)]) :
    ∃ f, exec c s = .next (inPair (s.at t) fun z => onTwinSet z lane ty w f) := by
  simp only [List.mem_cons, List.not_mem_nil, or_false, Prod.mk.injEq] at hc
  rcases hc with ⟨rfl, rfl⟩ | ⟨rfl, rfl⟩ | ⟨rfl, rfl⟩ | ⟨rfl, rfl⟩ <;> exact ⟨_, rfl⟩

theorem exec_onSomeTwinSet {c : Instr} (hc : c ∈ [Instr.twinCredit t lane w, .twinAck t lane w, .twinNak t lane w, .twinFail t lane w]) :
    ∃ ty f, exec c s = .next (inPair (s.at t) fun z => onTwinSet z lane ty w f) := by
  simp only [List.mem_cons, List.not_mem_nil, or_false] at hc
  rcases hc with rfl | rfl | rfl | rfl <;> exact ⟨_, _, rfl⟩

/-- The waits at the end of RELOAD, each with the condition that ends it. -/
theorem exec_heartbeatWait {c : Instr} {due : Bool} (hc : (c, due) ∈ [(Instr.activeHeartbeatWaitExpiry t, primaryDue (s.at t)),
    (.secondaryWaitExpiry t, secondaryDue (s.at t))]) :
    ((s.at t).mode ≠ modeReload ∨ (s.at t).on Reg.PAIR_STATUS.role_clash = true ∨ due = false → exec c s = .next (s.at t).lineEnd) ∧
    ((s.at t).mode = modeReload → (s.at t).on Reg.PAIR_STATUS.role_clash = false → due = true →
      exec c s = .next (goIdle (s.at t)).lineEnd) := by
  simp only [List.mem_cons, List.not_mem_nil, or_false, Prod.mk.injEq] at hc
  rcases hc with ⟨rfl, rfl⟩ | ⟨rfl, rfl⟩
  · exact wait_ends (fun h => by rw [heartbeatWaited_idle h, ite_self]) primaryWait (fun x => .next x.lineEnd)
  · exact wait_ends (fun h => by rw [heartbeatWaited_idle h, ite_self]) secondaryWait (fun x => .next x.lineEnd)

end

/-- Settles O54: each command is what it does in a pair, of a set that is taken, and what that shows is a lemma of its own; RELOAD
goes on after an image has started, as no step of that start touches what the training found. -/
theorem twinLink : Obligations.TwinLink := by
  unfold Obligations.TwinLink
  refine ⟨?_, ?_, ?_, ?_, ?_⟩
  · rintro z u lane seq r rfl
    exact ⟨rfl, rfl, rfl⟩
  · rintro seq r b rfl
    exact recordWire_parts seq r
  · exact fun z n seq r rs hagain => ⟨twinPump_stalled hagain n, fun l => twinPump_resent hagain n⟩
  · exact fun z => ⟨reloadPair_pair, reloadPair_single, roleTaken z, goIdle_eq z, roleTaken_shows z⟩
  rintro s σ t lane w rfl
  simp only [exec_twinHb, exec_twinRecordReceive, exec_twinLevel, exec_twinHbSend, exec_twinHbTimeout, exec_twinLevelSend, exec_reloadEnd,
    exec_twinCredit, exec_twinAck, exec_twinNak, exec_twinFail, exec_twinAckSend]
  simp only [execTwinHb, execTwinRecordReceive, execTwinLevel, execTwinHbSend, execTwinHbTimeout, execTwinLevelSend, execReloadEnd,
    execTwinCredit, execTwinAck, execTwinNak, execTwinFail, execTwinAckSend]
  simp only [← rd_at s t, ← on_at s t, ← at_out s t, ← at_pair s t, ← at_md s t, ← mode_at s t, ← role_at s t, ← at_st s t,
    ← at_fl s t, ← twinLanes_at s t, ← ownHeader_at s t, ← primary_at s t]
  refine ⟨fun c seq hc hsingle => ⟨?_, fun al => by rw [inPair_off _ hsingle], fun good r => by rw [inPair_off _ hsingle]⟩,
    fun c hc hpair hw => ⟨?_, fun al => by rw [inPair_on _ hpair, onTwinSet_headerBad _ hw]⟩, fun hw => by rw [onTwinSet_headerBad _ hw],
    fun c ty hc hpair hw hset => ?_, fun al hpair hw hset => ?_, ?_, ?_, fun f hpair hw hset => ?_, fun f hpair hw hset => ?_, ?_,
    fun f hpair hw hset => ⟨fun h => ?_, fun hrole h => ?_, fun hrole h => ?_⟩, fun hsingle => ?_, ?_, ?_, fun hpair => ?_,
    fun hw hset => ?_, fun f hw hset => ?_, ?_, ?_, ?_, fun c due hc => exec_heartbeatWait s t hc⟩
  · obtain ⟨f, hf⟩ := exec_inPair s t lane w hc
    rw [hf, inPair_off _ hsingle]
  · obtain ⟨ty, f, hf⟩ := exec_onSomeTwinSet s t lane w hc
    rw [hf, inPair_on _ hpair, onTwinSet_headerBad _ hw]
  · obtain ⟨f, hf⟩ := exec_onTwinSet s t lane w hc
    rw [hf, inPair_on _ hpair, onTwinSet_discarded _ hw hset]
    exact ⟨_, rfl, osErr_counted ..⟩
  · -- TWIN_HB
    rw [inPair_on _ hpair, onTwinSet_discarded _ hw hset]
    exact ⟨_, rfl, osErr_counted ..⟩
  · rintro al f role mode missed back hpair hw hset rfl rfl rfl rfl
    rw [inPair_on _ hpair, onTwinSet_taken _ hw hset, twinHb_eq al hset, hbBack_hbTaken, hbFollows_eq]
    obtain ⟨hkept, hmodes⟩ := hbLinked_kept (s.at t) f al (hbBack (s.at t))
    refine ⟨hbLinked (hbTaken (s.at t) f al) (hbBack (s.at t)), rfl, hbLinked_missed .., hkept, congrArg Modes.heard hmodes, hbLinked_seen ..,
      hbLinked_partnerMode .., hbLinked_shadowOf .., hbLinked_clash _ _ _ _, hbLinked_lost .., ?_⟩
    rw [hkept, hmodes]
    exact hbLinked_onlyRegs ..
  · -- TWIN_HB_SEND
    rintro h hpair rfl
    rw [inPair_on _ hpair, twinHbSend_eq]
    exact ⟨hbSent (s.at t), rfl, hbSent_shows ..⟩
  · -- TWIN_CREDIT
    rw [inPair_on _ hpair, onTwinSet_taken _ hw hset]
    rfl
  · -- TWIN_ACK
    rw [inPair_on _ hpair, onTwinSet_taken _ hw hset]
    exact ⟨_, rfl, twinAcked_shows ..⟩
  · -- TWIN_NAK
    rintro f again hpair hw hset rfl
    rw [inPair_on _ hpair, onTwinSet_taken _ hw hset]
    rfl
  · -- TWIN_FAIL
    rw [inPair_on _ hpair, onTwinSet_taken _ hw hset, twinFailed_ignored h]
  · rw [inPair_on _ hpair, onTwinSet_taken _ hw hset, twinFailed_synced hrole h]
  · rw [inPair_on _ hpair, onTwinSet_taken _ hw hset, twinFailed_unsynced hrole h]
  · -- TWIN_HB_TIMEOUT
    rw [twinSilence_single hsingle]
    exact ⟨_, rfl, on_silenceShown .., onlyRegs_wrIf ..⟩
  · rintro begins lost hpair rfl rfl
    rw [twinSilence_pair hpair]
    exact ⟨linkShown (s.at t), rfl, linkShown_shows ..⟩
  · -- TWIN_RECORD_RECEIVE
    rintro seq good r y since hpair rfl rfl
    rw [inPair_on _ hpair]
    refine ⟨fun hgood hseq => ?_, fun hgood h0 h1 hseq => ?_, fun hgood hseq hgap h => ?_, fun h => ?_⟩
    · rw [recordIn_inOrder hgood hseq]
      exact ⟨_, rfl, recordTaken_recordGot ..⟩
    · rw [recordIn_seen hgood hseq h0 h1]
      rfl
    · rw [recordIn_lost hgood hseq hgap h]
      exact ⟨_, rfl, recordSkips_recordGot ..⟩
    · rw [recordIn_asked h]
      exact ⟨_, rfl, recordAsked_recordGot ..⟩
  · -- TWIN_ACK_SEND
    rw [inPair_on _ hpair]
    exact ⟨_, rfl, twinAck_shows ..⟩
  · -- TWIN_LEVEL
    rw [onTwinSet_discarded _ hw hset]
    exact ⟨_, rfl, osErr_counted ..⟩
  · rw [onTwinSet_taken _ hw hset]
    rfl
  · rintro h rfl
    exact ⟨_, rfl, twinLevelSend_shows ..⟩
  · -- RELOAD_END
    intro h
    rw [reloadDone_waits h]
  · rintro y hmode hcause hask hend hgood hy
    obtain rfl : y = imageRun (s.at t) := hy
    refine ⟨fun hboot => ?_, fun hboot hbad => ?_, fun hboot hfixed => ?_⟩
    · rw [reloadDone_waitsImage hmode hcause hask hend hgood hboot]
    · rw [reloadDone_left hmode hcause hask hend hgood hboot hbad]
      exact ⟨laneLeft (imageRun (s.at t)), rfl, laneLeft_shows ..⟩
    · rw [reloadDone_goesOn hmode hcause hask hend hgood hboot hfixed]
      obtain ⟨htrained, hloops, hst, honly⟩ := loopsBegun_shows (imageRun (s.at t))
      exact ⟨loopsBegun (imageRun (s.at t)), rfl, htrained, hloops, hst, loopsBegun_length _, honly⟩

end Sys2Proof

/-! ## Cameras, frames, groups and exposure sets (R211, R212, R217 to R222, R234 to R237) -/

namespace Sys2Proof

open Machine Laws

/-! ### What the clock leaves as it is -/

@[simp] theorem camPort_at (s : State) (t n : Nat) : (s.at t).camPort n = s.camPort n := by simp only [State.camPort, at_insp]

@[simp] theorem pipe_at (s : State) (t n : Nat) : (s.at t).pipe n = s.pipe n := by simp only [State.pipe, at_insp]

@[simp] theorem group_at (s : State) (t n : Nat) : (s.at t).group n = s.group n := by simp only [State.group, at_insp]

@[simp] theorem inspRuns_at (s : State) (t : Nat) : inspRuns (s.at t) = inspRuns s := by simp only [inspRuns, mode_at, rd_at]

@[simp] theorem frameView_ent_at (s : State) (t p : Nat) (f : Frame) (ch : Nat) (e : EF) :
    (frameView (s.at t) p f).ent ch e = (frameView s p f).ent ch e := by
  simp only [State.ent, State.entry, frameView, at_cat]

/-! ### Ports, pipelines and groups written -/

@[simp] theorem camPort_setCamPort (s : State) (n : Nat) (x : CamPort) : (s.setCamPort n x).camPort n = x := tbl_get_put_self ..

@[simp] theorem camPort_count (s : State) (f : Fld) (i n k : Nat) : (s.count f i n).camPort k = s.camPort k := rfl

@[simp] theorem pipe_setPipe (s : State) (n : Nat) (x : Pipe) : (s.setPipe n x).pipe n = x := tbl_get_put_self ..

@[simp] theorem group_setGroup (s : State) (n : Nat) (x : Group) : (s.setGroup n x).group n = x := tbl_get_put_self ..

theorem pipe_congr {s t : State} (h : t.insp = s.insp) (n : Nat) : t.pipe n = s.pipe n := by simp only [State.pipe, h]

theorem onlyRegs_wr2 (s : State) (lo hi : Fld) (i v : Nat) : OnlyRegs s (s.wr2 lo hi i v) [lo.key i, hi.key i] :=
  (onlyRegs_wr ..).trans (onlyRegs_wr ..)

/-- A counter counts beside a change of the inspection units. -/
theorem counted_onlyRegs {s x : State} (h : x = { s with insp := x.insp }) (f : Fld) (i : Nat) :
    OnlyRegs { s with insp := (x.count f i).insp } (x.count f i) [f.key i] := by
  have hcount := count_onlyRegs x f i 1
  rw [count_insp, ← h]
  exact hcount

/-! ### Posting leaves the inspection units alone -/

@[simp] theorem pokeBytes_insp (s : State) (a : Nat) (bs : List Byte) : (s.pokeBytes a bs).insp = s.insp := by rw [pokeBytes_frame]

@[simp] theorem pokeNat_insp (s : State) (a n v : Nat) : (s.pokeNat a n v).insp = s.insp := pokeBytes_insp ..

@[simp] theorem msiEvent_insp (s : State) (n : Nat) : (msiEvent s n).insp = s.insp := by
  rcases msiEvent_cases s n with h | h | h | h <;> rw [h] <;> rfl

@[simp] theorem startRun_insp (s : State) (p i : Nat) (x : Slice) : (startRun s p i x).insp = s.insp := by
  unfold startRun
  dsimp only
  split <;> rfl

@[simp] theorem catMove_insp (s : State) (ch : Nat) : (s.catMove ch).insp = s.insp := by
  unfold State.catMove
  split <;> rfl

@[simp] theorem dispatch_insp (s : State) (p : Nat) : (dispatch s p).insp = s.insp := by
  have hready : (refreshUrgency (s.catMove (chScribe p)) p).insp = s.insp := catMove_insp ..
  unfold dispatch
  dsimp only
  split
  · rfl
  split
  · rw [startRun_insp, hready]
  · exact hready

@[simp] theorem ringWake_insp (s : State) (n : Nat) : (ringWake s n).insp = s.insp := by
  unfold ringWake
  split
  · rfl
  split
  · refine foldl_unchanged State.insp (fun s i => ?_) _ _
    dsimp only
    split
    · exact dispatch_insp ..
    · rfl
  · rfl

@[simp] theorem ringPublish_insp (s : State) (n k : Nat) (irq : Bool) : (ringPublish s n k irq).insp = s.insp := by
  rcases ringPublish_cases s n k irq with h | h <;> rw [h, ringWake_insp]
  · rfl
  · exact msiEvent_insp ..

@[simp] theorem ringPost_insp (s : State) (n : Nat) (d : Desc) : (ringPost s n d).insp = s.insp :=
  (ringPublish_insp ..).trans (pokeBytes_insp ..)

/-! ### Camera ports (R211) -/

theorem showPort_shows (s : State) (n : Nat) {gear : Nat} (h : gear < 8) : (showPort s n gear).rd Reg.INSP_PORT_STATE.gear n = gear ∧
    (showPort s n gear).on Reg.INSP_PORT_STATE.link_up n = (gear != 0) ∧
    (showPort s n gear).on Reg.INSP_PORT_STATE.uplink_up n = (gear != 0) := by
  unfold showPort
  refine ⟨?_, ?_, on_wrb_self _ _ _ (by decide)⟩
  · rw [State.wrb, rd_wr_field _ _ _ _ (by decide), State.wrb, rd_wr_field _ _ _ _ (by decide), rd_wr_self, low_of_lt h]
  · rw [State.wrb, on_wr_field _ _ _ _ (by decide), on_wrb_self _ _ _ (by decide)]

theorem showPort_retrains (s : State) (n gear : Nat) :
    (showPort s n gear).rd Reg.INSP_PORT_STATE.retrains n = s.rd Reg.INSP_PORT_STATE.retrains n := by
  unfold showPort State.wrb
  rw [rd_wr_field _ _ _ _ (by decide), rd_wr_field _ _ _ _ (by decide), rd_wr_field _ _ _ _ (by decide)]

theorem camPort_showPort (s : State) (n gear : Nat) : (showPort s n gear).camPort n = s.camPort n := rfl

theorem portTrained_idle {s : State} {n : Nat} (ok : Bool) (h : (s.camPort n).train = 0 ∨ s.entOn (chPort n) PortE.portEn = false ∨
    s.rd Reg.MODE_CUR.power ≠ 0) : portTrained s n ok = s := by
  unfold portTrained
  exact if_pos (by simpa [or_assoc] using h)

section

variable {s : State} {n g : Nat} (htrain : (s.camPort n).train = g + 1) (hen : s.entOn (chPort n) PortE.portEn = true)
  (hpower : s.rd Reg.MODE_CUR.power = 0)
include htrain hen hpower

/-- What the result of training gear `g` + 1 leads to. -/
theorem portTrained_eq (ok : Bool) : portTrained s n ok =
    if ok then
      if g + 1 < portTop s n then s.setCamPort n { s.camPort n with train := g + 2, fails := 0 }
      else showPort (s.setCamPort n { s.camPort n with train := 0, fails := 0, crcAt := [] }) n (g + 1)
    else if (s.camPort n).fails = 0 then s.setCamPort n { s.camPort n with fails := 1 }
    else (s.setCamPort n { s.camPort n with train := max 1 g, fails := 0, top := max 1 g }).event 0x0401 (chPort n) 0 (max 1 g) 0 := by
  simp [portTrained, htrain, hen, hpower]

theorem portTrained_up (h : g + 1 < portTop s n) :
    portTrained s n true = s.setCamPort n { s.camPort n with train := g + 2, fails := 0 } := by
  rw [portTrained_eq htrain hen hpower, if_pos rfl, if_pos h]

theorem portTrained_done (h : portTop s n ≤ g + 1) :
    portTrained s n true = showPort (s.setCamPort n { s.camPort n with train := 0, fails := 0, crcAt := [] }) n (g + 1) := by
  rw [portTrained_eq htrain hen hpower, if_pos rfl, if_neg h.not_gt]

theorem portTrained_failed (h : (s.camPort n).fails = 0) : portTrained s n false = s.setCamPort n { s.camPort n with fails := 1 } := by
  rw [portTrained_eq htrain hen hpower, if_neg Bool.false_ne_true, if_pos h]

theorem portTrained_down (h : (s.camPort n).fails ≠ 0) : portTrained s n false =
    (s.setCamPort n { s.camPort n with train := max 1 g, fails := 0, top := max 1 g }).event 0x0401 (chPort n) 0 (max 1 g) 0 := by
  rw [portTrained_eq htrain hen hpower, if_neg Bool.false_ne_true, if_neg h]

end

theorem portFail_holds {s : State} {n : Nat} {lost : Bool} (h : s.rd Reg.INSP_PORT_STATE.gear n = 0 ∨ (lost = false ∧ crcLate s n ≤ 16)) :
    portFail s n lost = s := by
  unfold portFail
  exact if_pos (by simpa using h)

/-- The port trains again from the gear it had. -/
theorem portFail_retrains {s : State} {n g : Nat} {lost : Bool} (hg : s.rd Reg.INSP_PORT_STATE.gear n = g + 1)
    (h : lost = true ∨ 16 < crcLate s n) : portFail s n lost = showPort ((s.count Reg.INSP_PORT_STATE.retrains n).setCamPort n
      { s.camPort n with train := g + 1, fails := 0, crcAt := [], bufs := [] }) n 0 := by
  have hfails : ¬(s.rd Reg.INSP_PORT_STATE.gear n = 0 || !(lost || decide (16 < crcLate s n))) = true := by
    rcases h with h | h <;> simp [hg, h]
  unfold portFail
  dsimp only
  rw [if_neg hfails, hg]
  rfl

/-! ### Packets (R212) -/

section

variable {s : State} {n vc dt ecc : Nat} {crc : Bool} {bytes : List Byte}

theorem csiPacket_down (h : s.on Reg.INSP_PORT_STATE.link_up n = false) : csiPacket s n vc dt ecc crc bytes = s := by simp [csiPacket, h]

variable (hup : s.on Reg.INSP_PORT_STATE.link_up n = true)
include hup

/-- A packet that fails a check is counted, and no packet of its line stays. -/
theorem csiPacket_bad (h : 2 ≤ ecc ∨ (0x10 ≤ dt ∧ dt ≠ 0x12 ∧ crc = false)) : ∃ at_, csiPacket s n vc dt ecc crc bytes =
    (s.setCamPort n { s.camPort n with bufs := Tbl.del (s.camPort n).bufs vc, crcAt := at_ }).count Reg.INSP_PORT_ERR.crc_err n := by
  by_cases hecc : 2 ≤ ecc
  · refine ⟨(s.camPort n).crcAt, ?_⟩
    simp only [csiPacket, hup, hecc, Bool.not_true, Bool.false_eq_true, if_false, if_true]
  · obtain ⟨hlong, hnot, rfl⟩ := h.resolve_left hecc
    refine ⟨s.clk :: (s.camPort n).crcAt, ?_⟩
    simp only [csiPacket, hup, hecc, hlong.not_gt, hnot, Bool.not_true, Bool.false_eq_true, if_false, Bool.not_false, if_true]

theorem csiPacket_line (hecc : ecc < 2) (hcrc : crc = true) (hdt : dt = 0x2B ∨ dt = 0x2C ∨ dt = 0x24 ∨ dt = 0x1E) :
    csiPacket s n vc dt ecc crc bytes = s.setCamPort n { s.camPort n with bufs := (s.camPort n).bufs.put vc (dt, bytes) } := by
  have hlong : 0x10 ≤ dt ∧ dt ≠ 0x12 := by omega
  have htype : (decide (dt = 0x2B) || decide (dt = 0x2C) || decide (dt = 0x24) || decide (dt = 0x1E)) = true := by simpa [or_assoc] using hdt
  simp only [csiPacket, hup, hecc.not_ge, hlong.1.not_gt, hlong.2, hcrc, htype, Bool.not_true, Bool.false_eq_true, if_false, if_true]

theorem csiPacket_unsupported (hecc : ecc < 2) (hcrc : crc = true) (hlong : 0x10 ≤ dt) (hnot : dt ≠ 0x12)
    (hdt : ¬(dt = 0x2B ∨ dt = 0x2C ∨ dt = 0x24 ∨ dt = 0x1E)) : csiPacket s n vc dt ecc crc bytes =
      (s.setCamPort n { s.camPort n with bufs := Tbl.del (s.camPort n).bufs vc }).count Reg.INSP_PORT_ERR.dt_unsupported n := by
  have htype : (decide (dt = 0x2B) || decide (dt = 0x2C) || decide (dt = 0x24) || decide (dt = 0x1E)) = false := by simpa [and_assoc] using hdt
  simp only [csiPacket, hup, hecc.not_ge, hlong.not_gt, hnot, hcrc, htype, Bool.not_true, Bool.false_eq_true, if_false]

end

/-! ### Lines and triggers (R217 to R221) -/

theorem lineReceive_none {s : State} {n vc : Nat} (h : Tbl.find (s.camPort n).bufs vc = none) : lineReceive s n vc = s := by
  simp [lineReceive, h]

section

variable {s y : State} {n vc dt : Nat} {bytes : List Byte} (hbuf : Tbl.find (s.camPort n).bufs vc = some (dt, bytes))
  (hup : s.on Reg.INSP_PORT_STATE.link_up n = true)
  (hy : y = s.setCamPort n { s.camPort n with bufs := Tbl.del (s.camPort n).bufs vc })
include hbuf hup hy

theorem lineReceive_unbound (h : pipeOf y n vc = none) : lineReceive s n vc = y.count Reg.INSP_PORT_UNBOUND.unbound_lines n := by
  have hup' : y.on Reg.INSP_PORT_STATE.link_up n = true := hy ▸ hup
  simp only [lineReceive, hbuf, ← hy, hup', h, Bool.not_true, Bool.false_eq_true, if_false]

/-- A line of a bound stream goes to its pipeline, where the pipeline's group runs. -/
theorem lineReceive_bound {p : Nat} (h : pipeOf y n vc = some p) : lineReceive s n vc =
    if (y.group (pipeGroup y p)).on && inspRuns y then pipeLine y p dt bytes else y.count Reg.INSP_PIPE_LINES.lines_orphan p := by
  have hup' : y.on Reg.INSP_PORT_STATE.link_up n = true := hy ▸ hup
  simp only [lineReceive, hbuf, ← hy, hup', h, Bool.not_true, Bool.false_eq_true, if_false]

end

theorem pipeLine_orphan {s : State} {p : Nat} (dt : Nat) (bytes : List Byte) (h : candidate (linesLost (waitingCount s p) s p) p = none) :
    pipeLine s p dt bytes = (linesLost (waitingCount s p) s p).count Reg.INSP_PIPE_LINES.lines_orphan p := by
  simp only [pipeLine, h]

/-- A line goes to the trigger it fits, at a pipeline that has had no line before it. -/
theorem pipeLine_paired {s x : State} {p i : Nat} {w : Nat × Nat} {f : Frame} (dt : Nat) (bytes : List Byte)
    (hx : x = linesLost (waitingCount s p) s p) (hw : candidate x p = some (i, w)) (hat : (x.pipe p).lineAt = none)
    (hf : (x.pipe p).frames[i]? = some f) : ∃ l o, l.m = w.1 ∧ pipeLine s p dt bytes = x.setPipe p { x.pipe p with
      lineAt := some x.clk, overlap := o
      frames := (x.pipe p).frames.set i { f with waiting := f.waiting.filter (· != w), lines := l :: f.lines } } := by
  subst hx
  simp only [pipeLine, hw, hf, overRate, hat, Bool.false_eq_true, if_false]
  exact ⟨_, _, rfl, rfl⟩

/-- A trigger older than the latency of its frame is lost (R221). -/
theorem lineLost_oldest {s : State} {p : Nat} {f : Frame} {fs : List Frame} {w : Nat × Nat} {ws : List (Nat × Nat)}
    (hfs : (s.pipe p).frames = f :: fs) (hw : f.waiting = w :: ws) : lineLost s p =
    if w.2 + (frameView s p f).ent (chPipe p) PipeE.latHi * 10 * nsU < s.clk then
      (s.setPipe p { s.pipe p with frames := { f with waiting := ws, lost := f.lost + 1 } :: fs }).count Reg.INSP_PIPE_LINES.lines_lost p
    else s := by
  have hfirst : (s.pipe p).frames.findIdx? (fun f => f.waiting != []) = some 0 := by simp [hfs, List.findIdx?_cons, hw]
  simp only [lineLost, hfirst]
  simp only [hfs, List.getD_cons_zero, hw, List.set_cons_zero]

/-! ### Groups (R217 to R222) -/

theorem groupTrigger_idle {s : State} {g : Nat} (h : groupCount s g = none) : groupTrigger s g = s := by simp only [groupTrigger, h]

theorem groupTrigger_counts {s u : State} {g : Nat} (h : groupCount s g = some u) : groupTrigger s g = triggerReaches u g := by
  simp only [groupTrigger, h]
  rfl

section

variable {s : State} {g : Nat} (hg : g < 4) (hon : (s.group g).on = true) (hruns : inspRuns s = true)
include hg hon hruns

/-- The first trigger of a run stands where the web is (R218). -/
theorem groupCount_first (h : (s.group g).started = false) : groupCount s g = some
    ((s.setGroup g { s.group g with started := true, e0 := webPos s, top := webPos s, k := 0 }).wr2i
      Reg.GRP_ORIGIN_LO.e0_lo Reg.GRP_ORIGIN_HI.e0_hi g (webPos s / 65536)) := by
  simp [groupCount, hg, hon, hruns, h]

/-- After the first, a trigger counts where the web is further than it was. -/
theorem groupCount_later (h : (s.group g).started = true) : groupCount s g =
    if (s.group g).top < webPos s then some (s.setGroup g { s.group g with top := webPos s, k := (s.group g).k + 1 }) else none := by
  simp [groupCount, hg, hon, hruns, h]

end

theorem groupWrite_ignored {s : State} {g v : Nat} (h : 4 ≤ g ∨ v % 16384 < 256 ∨ 8192 < v % 16384 ∨
    (s.on Reg.GRP_CFG.run g = true ∧ bit v 31 = true)) : groupWrite s g v = s := by
  by_cases hrange : 4 ≤ g ∨ v % 16384 < 256 ∨ 8192 < v % 16384
  · unfold groupWrite
    exact if_pos (by simpa [or_assoc] using hrange)
  · obtain ⟨hrun, hbit⟩ : s.on Reg.GRP_CFG.run g = true ∧ bit v 31 = true := by tauto
    simp [groupWrite, hrun, hbit]

/-- A group's fields as a taken write of GRP_CFG leaves them. -/
def groupSet (s : State) (g v : Nat) : State :=
  ((s.wr Reg.GRP_CFG.trig_out g (bits v 16 2)).wr Reg.GRP_CFG.frame_lines g (v % 16384)).wrb Reg.GRP_CFG.run g (bit v 31)

section

variable {s : State} {g v : Nat} (hg : g < 4) (hlo : 256 ≤ v % 16384) (hhi : v % 16384 ≤ 8192)
include hg hlo hhi

/-- A write in range stops a running group or sets the fields of one that stands (R217, R222). -/
theorem groupWrite_taken : groupWrite s g v =
    if s.on Reg.GRP_CFG.run g then (if bit v 31 then s else groupStop (s.wr Reg.GRP_CFG.run g 0) g)
    else if bit v 31 && inspRuns (groupSet s g v) then groupStart (groupSet s g v) g
    else groupSet s g v := by
  unfold groupWrite
  exact if_neg (by simp [hg, hlo, hhi])

theorem groupWrite_stops (hrun : s.on Reg.GRP_CFG.run g = true) (hbit : bit v 31 = false) :
    groupWrite s g v = groupStop (s.wr Reg.GRP_CFG.run g 0) g := by
  rw [groupWrite_taken hg hlo hhi, if_pos hrun, hbit, if_neg Bool.false_ne_true]

theorem groupWrite_sets (hrun : s.on Reg.GRP_CFG.run g = false) :
    groupWrite s g v = if bit v 31 && inspRuns (groupSet s g v) then groupStart (groupSet s g v) g else groupSet s g v := by
  rw [groupWrite_taken hg hlo hhi, hrun, if_neg Bool.false_ne_true]

end

theorem groupSet_shows (s : State) (g v : Nat) : (groupSet s g v).rd Reg.GRP_CFG.trig_out g = bits v 16 2 ∧
    (groupSet s g v).rd Reg.GRP_CFG.frame_lines g = v % 16384 ∧ (groupSet s g v).on Reg.GRP_CFG.run g = bit v 31 ∧
    OnlyRegs s (groupSet s g v) [Reg.GRP_CFG.run.key g, Reg.GRP_CFG.trig_out.key g, Reg.GRP_CFG.frame_lines.key g] := by
  unfold groupSet
  refine ⟨?_, ?_, on_wrb_self _ _ _ (by decide), ?_⟩
  · rw [State.wrb, rd_wr_field _ _ _ _ (by decide), rd_wr_field _ _ _ _ (by decide), rd_wr_self]
    exact low_bits ..
  · rw [State.wrb, rd_wr_field _ _ _ _ (by decide), rd_wr_self]
    exact Nat.mod_mod ..
  · exact (((onlyRegs_wr ..).trans (onlyRegs_wr ..)).trans (onlyRegs_wr ..)).mono (by simp)

/-! ### The end of a frame (R222, R234, R237) -/

@[simp] theorem statPost_insp (s : State) (p g : Nat) (f : Frame) (flags : Nat) : (statPost s p g f flags).insp = s.insp := by
  unfold statPost
  split
  · exact (ringPost_insp ..).trans (pokeBytes_insp ..)
  · rfl

/-- The frames in progress at a pipeline are as they were. -/
def FramesKept (p : Nat) (s t : State) : Prop := (t.pipe p).frames = (s.pipe p).frames

namespace FramesKept

variable {p : Nat} {s t u : State}

theorem refl (p : Nat) (s : State) : FramesKept p s s := rfl

theorem of (h : FramesKept p s t) (hinsp : u.insp = t.insp) : FramesKept p s u := (congrArg Pipe.frames (pipe_congr hinsp p)).trans h

theorem ite {c : Prop} [Decidable c] (h : FramesKept p s t) (g : FramesKept p s u) : FramesKept p s (if c then t else u) := by
  split
  · exact h
  · exact g

theorem foldl {α : Type} {f : State → α → State} (h : FramesKept p s t) (hf : ∀ u a, FramesKept p s u → FramesKept p s (f u a)) (l : List α) :
    FramesKept p s (l.foldl f t) := List.foldlRecOn l f h (fun u hu a _ => hf u a hu)

theorem setPipe (h : FramesKept p s t) {x : Pipe} (hx : x.frames = (t.pipe p).frames) : FramesKept p s (t.setPipe p x) :=
  ((congrArg Pipe.frames (pipe_setPipe t p x)).trans hx).trans h

theorem parts (h : FramesKept p s t) (ps : List AccPart) : FramesKept p s { t with insp := { t.insp with parts := ps } } := h

theorem count (h : FramesKept p s t) (f : Fld) (i n : Nat) : FramesKept p s (t.count f i n) := h

theorem pokeNat (h : FramesKept p s t) (a n v : Nat) : FramesKept p s (t.pokeNat a n v) := h.of (pokeNat_insp ..)

/-! The Calibration Unit's sums stand in memory. -/

theorem densAdd (h : FramesKept p s t) (b i c w : Nat) (eps : Int) : FramesKept p s (Machine.densAdd t b i c w eps) :=
  .ite h ((h.pokeNat ..).pokeNat ..)

theorem densPixel (h : FramesKept p s t) (grp idx : Nat) (inRegion : Bool) (c : Cmp) :
    FramesKept p s (Machine.densPixel t grp idx inRegion c) := .ite h (.foldl h (fun _ _ hu => hu.densAdd ..) _)

theorem regAdd (h : FramesKept p s t) (b slot : Nat) (gx gy d : Int) : FramesKept p s (Machine.regAdd t b slot gx gy d) :=
  (((((h.pokeNat ..).pokeNat ..).pokeNat ..).pokeNat ..).pokeNat ..).pokeNat ..

theorem regPixel (h : FramesKept p s t) (grp idx : Nat) (c : Cmp) : FramesKept p s (Machine.regPixel t grp idx c) :=
  .foldl h (fun _ _ hu => hu.regAdd ..) _

theorem cuAdd (h : FramesKept p s t) (grp : Nat) (cs : List Cmp) (regions : List (List Cmp)) :
    FramesKept p s (Machine.cuAdd t grp cs regions) := .ite (.foldl h (fun _ _ hu => (hu.densPixel ..).regPixel ..) _) h

/-- What is learnt of the geometry is for the next frame (R227). -/
theorem learnt (h : FramesKept p s t) (c : Prop) [Decidable c] (g : Nat) (ests : List Int) :
    FramesKept p s (if c then learnGeom t p g ests else t) := .ite (h.setPipe rfl) h

end FramesKept

/-- The flags of a complete frame show in bit 0 whether it is unconfirmed, and leave bit 1 clear. -/
theorem frameFlags_low (unconfirmed : Bool) (a b c d : Nat) :
    (ofBool unconfirmed + 2 * ofBool false + 4 * a + 8 * b + 16 * c + 32 * d) % 4 = ofBool unconfirmed := by
  have hbit : ofBool unconfirmed ≤ 1 := by cases unconfirmed <;> decide
  rw [show ofBool false = 0 from rfl]
  omega

/-- What a frame that ends in full is made into goes out with its statistics record; the frames in progress stay meanwhile. -/
theorem frameForm_posts (s : State) (p g : Nat) (f : Frame) (learn : Option (List Int)) : ∃ w flags,
    frameForm s p g f false learn = statPost w p g f flags ∧ flags % 4 = ofBool f.unconfirmed ∧ FramesKept p s w := by
  generalize hposted : frameForm s p g f false learn = u
  unfold frameForm at hposted
  extract_lets fl whole held cmp cs regions kept isOver recs part span stale own s₁ low units s₂ s₃ s₄ s₅ s₆ flags at hposted
  have h₁ : FramesKept p s s₁ := .setPipe (.refl p s) rfl
  have h₂ : FramesKept p s s₂ := h₁.parts _
  have h₃ : FramesKept p s s₃ := .ite (h₂.count ..) h₂
  have h₄ : FramesKept p s s₄ := h₃.count ..
  have h₅ : FramesKept p s s₅ := .ite h₄ (h₄.cuAdd ..)
  refine ⟨s₆, flags, hposted.symm, frameFlags_low .., ?_⟩
  cases learn with
  | none => exact h₅
  | some e => exact h₅.learnt ..

theorem frameClose_eq (s : State) (p : Nat) (f : Frame) (inc : Bool) (learn : Option (List Int)) : frameClose s p f inc learn =
    frameLeaves { frameForm (frameView s p f) p (frameGroup s p f) f inc learn with cat := s.cat } p (frameGroup s p f) f := rfl

/-- FRAME_END of a frame whose triggers are all paired or lost: its record is posted, then it leaves. -/
theorem frameEnd_ends {s : State} {p : Nat} {f : Frame} (peak : Bool) (ests : List Int) (ok : Bool) (h : frameReady s p = some f) :
    ∃ x, frameEnd s p peak ests ok = pipeTested (frameLeaves x p (frameGroup s p f) f) p ok ∧ (x.pipe p).frames = (s.pipe p).frames ∧
      ∃ w flags, x = { statPost w p (frameGroup s p f) f flags with cat := s.cat } ∧ flags % 4 = ofBool f.unconfirmed := by
  obtain ⟨w, flags, hposted, hflags, hkept⟩ :=
    frameForm_posts (frameView s p f) p (frameGroup s p f) f (if peak then some ests else none)
  refine ⟨{ statPost w p (frameGroup s p f) f flags with cat := s.cat }, ?_, hkept.of (statPost_insp ..), w, flags, rfl, hflags⟩
  simp only [frameEnd, h, frameClose_eq, hposted]

/-! ### Accumulators (R234) -/

theorem tbl_mem_put {α : Type} {t : Tbl α} {k : Nat} {v : α} {c : Nat × α} (h : c ∈ Tbl.put t k v) : c = (k, v) ∨ c ∈ t := by
  induction t with
  | nil => simpa [Tbl.put] using h
  | cons b t ih =>
    obtain ⟨a, w⟩ := b
    unfold Tbl.put at h
    split at h
    · grind
    · split at h <;> grind

theorem tbl_get_filter {α : Type} (d : α) {q : Nat × α → Bool} {t : Tbl α} {k : Nat} (h : ∀ c, c.1 = k → q c = true) :
    Tbl.get d (t.filter q) k = Tbl.get d t k := by
  induction t with
  | nil => rfl
  | cons c t ih =>
    by_cases hc : c.1 = k
    · rw [List.filter_cons_of_pos (h c hc)]
      simp [Tbl.get, hc]
    · by_cases hq : q c = true
      · rw [List.filter_cons_of_pos hq]
        simp [Tbl.get, hc, ih]
      · rw [List.filter_cons_of_neg hq]
        simp [Tbl.get, hc, ih]

theorem tbl_get_foldl_put {α β : Type} (d : α) {l : List β} (key : β → Nat) (val : β → α) (t : Tbl α) {k : Nat} (h : ∀ x ∈ l, key x ≠ k) :
    Tbl.get d (l.foldl (fun t x => Tbl.put t (key x) (val x)) t) k = Tbl.get d t k := by
  induction l generalizing t with
  | nil => rfl
  | cons x l ih =>
    rw [List.foldl_cons, ih _ (fun y hy => h y (List.mem_cons_of_mem x hy)), tbl_get_put_ne _ _ _ (h x List.mem_cons_self).symm]

/-- What is summed up from entries of certain keys has such keys. -/
theorem foldl_addSum_keys {P : Nat → Prop} {l t : Tbl (Int × Nat)} (hl : ∀ c ∈ l, P c.1) (ht : ∀ c ∈ t, P c.1) :
    ∀ c ∈ l.foldl (fun t x => addSum t x.1 x.2.1 x.2.2) t, P c.1 := by
  induction l generalizing t with
  | nil => exact ht
  | cons x l ih =>
    refine ih (fun c hc => hl c (List.mem_cons_of_mem x hc)) fun c hc => ?_
    rcases tbl_mem_put hc with rfl | hold
    · exact hl x List.mem_cons_self
    · exact ht c hold

/-- What the parts of a frame are summed up to keeps the keys taken from them. -/
theorem partSums_keys {P : Nat → Prop} {q : Nat × (Int × Nat) → Bool} (hq : ∀ c, q c = true → P c.1) (parts : List AccPart) :
    ∀ c ∈ parts.foldl (fun t a => (a.sums.filter q).foldl (fun t x => addSum t x.1 x.2.1 x.2.2) t) [], P c.1 :=
  List.foldlRecOn parts _ (motive := fun t : Tbl (Int × Nat) => ∀ c ∈ t, P c.1) (by simp)
    (fun _ ht _ _ => foldl_addSum_keys (fun c hc => hq c (List.mem_filter.1 hc).2) ht)

/-- A plane's buffer is replaced whole, and no other plane's. -/
theorem accComplete_ready {s : State} {n f : Nat} (h : accReady s n (s.rd Reg.INSP_PLANE_GRP.pgrp n) = some f) : ∃ acc e,
    accComplete s n = triggerSlices { s with insp := { s.insp with acc := acc, accDone := s.insp.accDone.put n (f, e) } } 5 (fun a => a == n) ∧
    ∀ k, k < accKey n 0 0 ∨ accKey (n + 1) 0 0 ≤ k → Tbl.get 0 acc k = Tbl.get 0 s.insp.acc k := by
  simp only [accComplete, h]
  refine ⟨_, _, rfl, fun k hk => ?_⟩
  rw [tbl_get_foldl_put 0 (fun x : Nat × (Int × Nat) => x.1), tbl_get_filter]
  · rintro c rfl
    grind
  · intro c hc
    have hkey := partSums_keys (P := fun k => accKey n 0 0 ≤ k ∧ k < accKey (n + 1) 0 0) (by simp) _ c hc
    omega

/-! ### Exposure sets (R235, R236) -/

@[simp] theorem cciWrite_insp (s : State) (p : Nat) (reg : EF) (v : Nat) : (cciWrite s p reg v).insp = s.insp := by
  unfold cciWrite
  dsimp only
  split <;> rfl

@[simp] theorem expoSend_insp (s : State) (p : Nat) (e : Expo) : (expoSend s p e).insp = s.insp := by
  simp only [expoSend, cciWrite_insp]

@[simp] theorem expoCommit_insp (s : State) (p : Nat) : (expoCommit s p).insp = s.insp := cciWrite_insp ..

/-- Trigger `k` is counted by the newest frame, and waits for its line (R219). -/
theorem pipeTrigger_frames {s : State} {p : Nat} (g k : Nat) {fs : List Frame} {f : Frame} (h : (s.pipe p).frames = fs ++ [f]) :
    ((pipeTrigger s p g k).pipe p).frames =
      fs ++ [{ f with counted := f.counted + 1, waiting := f.waiting ++ [(k - s.ent (chPipe p) PipeE.camLines, s.clk)] }] := by
  simp only [pipeTrigger, h, List.getLast?_append, List.getLast?_singleton, Option.some_or, List.dropLast_concat]
  split
  · rw [pipe_congr (expoCommit_insp ..), pipe_setPipe]
  · rw [pipe_setPipe]

/-- EXPO_GO writes the set of EXPO_DATA, and shows what came of it. -/
theorem expoGo_eq {s : State} {p : Nat} {b : List Byte} (hp : p = s.rd Reg.INSP_EXPO_SEL.expo_pipe)
    (hb : b = ((List.range 8).map (fun i => leBytes 4 (s.rd Reg.EXPO_DATA.expo_data i))).flatten) :
    expoGo s = (expoWrite s p b).1.wr2 Reg.EXPO_RESULT_LO.expo_t_lo Reg.EXPO_RESULT_HI.expo_t_hi 0 (expoWrite s p b).2 := by
  rw [hp, hb]
  rfl

theorem expoWrite_ignored {s : State} {p : Nat} {b : List Byte} (h : expoTarget s p b = 0) : expoWrite s p b = (s, 0) := by
  simp only [expoWrite, h, if_true]

theorem expoWrite_files {s : State} {p : Nat} {b : List Byte} (h : expoTarget s p b ≠ 0) : (expoWrite s p b).2 = expoTarget s p b ∧
    (((expoWrite s p b).1.pipe p).pend =
      (s.pipe p).pend.filter (fun q => q.target != expoTarget s p b) ++ [expoOf b (expoTarget s p b)]) := by
  simp only [expoWrite, h, if_false, true_and]
  have hshown (z : State) : (showPipe z p).insp = z.insp := rfl
  rw [pipe_congr (hshown _)]
  split
  · rw [pipe_congr (expoCommit_insp ..), pipe_congr (expoSend_insp ..), pipe_setPipe]
  · rw [pipe_setPipe]

theorem expoCheck_holds {s : State} {p : Nat} (v : Nat) (h : (s.pipe p).frames = [] ∨ (s.pipe p).check = false) : expoCheck s p v = s := by
  unfold expoCheck
  dsimp only
  rcases h with h | h
  · rw [h]
    rfl
  · rw [h]
    split <;> rfl

/-- What the commit register reads decides whether the frame has its set. -/
theorem expoCheck_eq {s : State} {p : Nat} (v : Nat) {fs : List Frame} {f : Frame} (h : (s.pipe p).frames = fs ++ [f])
    (hc : (s.pipe p).check = true) : expoCheck s p v =
      if v % 2 = 1 then
        (s.setPipe p { s.pipe p with frames := fs ++ [{ f with expo := 0, unconfirmed := true }], check := false, again := true }).event
          0x0402 (chPipe p) f.num ((s.pipe p).expo.elim 0 (·.id)) 0
      else s.setPipe p { s.pipe p with check := false, again := false } := by
  simp only [expoCheck, h, List.getLast?_append, List.getLast?_singleton, Option.some_or, List.dropLast_concat, hc, Bool.not_true,
    Bool.false_eq_true, if_false]

/-! ### Tests of unbound pipelines (R430) -/

theorem pipeIdleTest_skipped {s : State} {p : Nat} (ok : Bool) (h : 16 ≤ p ∨ s.on Reg.INSP_PIPE_BIND.pbound p = true) :
    pipeIdleTest s p ok = s := by
  unfold pipeIdleTest
  exact if_pos (by simpa using h)

theorem pipeIdleTest_tested {s : State} {p : Nat} (ok : Bool) (hp : p < 16) (h : s.on Reg.INSP_PIPE_BIND.pbound p = false) :
    pipeIdleTest s p ok = s.setPipe p { s.pipe p with bad := if ok then 0 else (s.pipe p).bad + 1 } := by
  simp [pipeIdleTest, hp.not_ge, h]

/-- Settles O44: each command by the lemma on what it does, over the state the clock has moved on; what a frame is made into leaves
the frames in progress (`FramesKept`), so that it stands in its pipeline until its record is out. -/
theorem camerasAndFrames : Obligations.CamerasAndFrames := by
  unfold Obligations.CamerasAndFrames
  refine ⟨fun z p g flags f => ⟨fun h => ?_, ?_⟩, fun z p g k fs f h => pipeTrigger_frames g k h, ?_⟩
  · rw [statPost, h, if_neg Bool.false_ne_true]
  · rintro a h rfl
    rw [statPost, h, if_pos rfl]
  rintro s σ b t n rfl rfl
  simp only [exec_cameraPortTrainComplete, exec_cameraLinkFail, exec_csi2Packet, exec_cameraLineReceive, exec_groupTrigger,
    exec_triggerLineLost, exec_frameEnd, exec_groupRunWrite, exec_accumulatorComplete, exec_expoGo, exec_expoCommitCheck,
    exec_pipelineTestTimer]
  simp only [execCameraPortTrainComplete, execCameraLinkFail, execCsi2Packet, execCameraLineReceive, execGroupTrigger,
    execTriggerLineLost, execFrameEnd, execGroupRunWrite, execAccumulatorComplete, execExpoGo, execExpoCommitCheck, execPipelineTestTimer]
  simp only [← rd_at s t, ← on_at s t, ← camPort_at s t, ← pipe_at s t, ← group_at s t, ← inspRuns_at s t, ← frameView_ent_at s t,
    ← at_cat s t, ← at_insp s t, ← at_regs s t]
  generalize s.at t = z
  refine ⟨fun ok h => ?_, fun g htrain hen hpower hg => ⟨fun h => ?_, fun h => ?_, fun h => ?_, fun h => ?_⟩, fun lost h => ?_,
    fun lost g hg h => ?_, fun vc dt ecc crc bytes h => ?_,
    fun vc dt ecc crc bytes hup => ⟨fun h => ?_, fun hecc hcrc h => ?_, fun hecc hcrc hlong hnot h₁ h₂ h₃ h₄ => ?_⟩, fun vc h => ?_, ?_,
    fun h => ?_, fun hn hon hruns => ⟨fun h => ?_, fun h hpos => ?_, fun h hpos => ?_⟩,
    fun f fs w ws hfs hw => ⟨fun h => ?_, fun h => ?_⟩, fun peak ests ok h => ?_, fun peak ests ok f h => ?_, fun v h => ?_,
    fun v hn hlo hhi hrun hbit => ?_, fun v hn hlo hhi hrun => ?_, fun h => ?_, fun f h => ?_, ?_, fun v h => ?_,
    fun v fs f hfs hc => ⟨fun h => ?_, fun h => ?_⟩, fun ok h => ?_, fun ok hn h => ?_⟩
  · -- CAMERA_PORT_TRAIN_COMPLETE
    rw [portTrained_idle ok h]
  · rw [portTrained_up htrain hen hpower h]
    exact ⟨_, rfl, camPort_setCamPort .., rfl⟩
  · rw [portTrained_done htrain hen hpower h]
    obtain ⟨hgear, hlink, huplink⟩ := showPort_shows ((bootDue z).setCamPort n { (bootDue z).camPort n with train := 0, fails := 0, crcAt := [] }) n
      (gear := g + 1) (by omega)
    exact ⟨_, rfl, by rw [camPort_showPort, camPort_setCamPort], hgear, hlink, huplink⟩
  · rw [portTrained_failed htrain hen hpower h]
    exact ⟨_, rfl, camPort_setCamPort .., rfl⟩
  · rw [portTrained_down htrain hen hpower h]
    exact ⟨_, rfl, camPort_setCamPort .., rfl⟩
  · -- CAMERA_LINK_FAIL
    rw [portFail_holds h]
  · rw [portFail_retrains hg h]
    obtain ⟨hgear, hlink, -⟩ := showPort_shows ((z.count Reg.INSP_PORT_STATE.retrains n).setCamPort n
      { z.camPort n with train := g + 1, fails := 0, crcAt := [], bufs := [] }) n (gear := 0) (by omega)
    exact ⟨_, rfl, by rw [camPort_showPort, camPort_setCamPort], hlink, hgear, (showPort_retrains ..).trans (rd_count ..)⟩
  · -- CSI2_PACKET
    rw [csiPacket_down h]
  · obtain ⟨at_, hpacket⟩ := csiPacket_bad (vc := vc) (bytes := bytes) hup h
    rw [hpacket]
    exact ⟨_, rfl, by rw [camPort_count, camPort_setCamPort]; exact tbl_find_del_self .., rd_count .., counted_onlyRegs rfl ..⟩
  · rw [csiPacket_line hup hecc hcrc h]
    exact ⟨_, rfl, by rw [camPort_setCamPort, tbl_find_put, if_pos rfl],
      fun v hv => by rw [camPort_setCamPort, tbl_find_put, if_neg hv], rfl⟩
  · rw [csiPacket_unsupported hup hecc hcrc hlong hnot (by tauto)]
    exact ⟨_, rfl, by rw [camPort_count, camPort_setCamPort]; exact tbl_find_del_self .., rd_count ..⟩
  · -- CAMERA_LINE_RECEIVE
    rw [lineReceive_none h]
  · intro vc dt bytes y hbuf hup hy
    refine ⟨fun h => ?_, fun p x h hx => ?_⟩
    · rw [lineReceive_unbound hbuf hup hy h]
      exact ⟨_, rfl, count_onlyRegs .., (rd_count ..).trans (by rw [hy]; rfl)⟩
    · rw [lineReceive_bound hbuf hup hy h]
      refine ⟨fun hoff => ?_, fun hon hruns hnone => ?_, fun i w f hon hruns hw hat hf => ?_⟩
      · rw [if_neg (by rcases hoff with h | h <;> simp [h])]
        exact ⟨_, rfl, count_onlyRegs .., (rd_count ..).trans (by rw [hy]; rfl)⟩
      · rw [if_pos (by rw [hon, hruns]; rfl), hx, pipeLine_orphan _ _ (hx ▸ hnone)]
        exact ⟨_, rfl, rd_count .., count_onlyRegs ..⟩
      · obtain ⟨l, o, hl, hpaired⟩ := pipeLine_paired dt bytes hx hw hat hf
        rw [if_pos (by rw [hon, hruns]; rfl), hpaired]
        refine ⟨_, rfl, by rw [pipe_setPipe], rfl, l, hl, ?_⟩
        rw [pipe_setPipe]
        exact List.getElem?_set_self (List.getElem?_eq_some_iff.1 hf).1
  · -- GROUP_TRIGGER
    rw [groupTrigger_idle h]
  · rw [groupTrigger_counts (groupCount_first hn hon hruns h)]
    exact ⟨_, rfl, (group_setGroup .. :), onlyRegs_wr2 ..⟩
  · rw [groupTrigger_counts (by rw [groupCount_later hn hon hruns h, if_pos hpos])]
    exact ⟨_, rfl, group_setGroup .., rfl⟩
  · rw [groupTrigger_idle (by rw [groupCount_later hn hon hruns h, if_neg hpos.not_gt])]
  · -- TRIGGER_LINE_LOST
    rw [lineLost_oldest hfs hw, if_neg h.not_gt]
  · rw [lineLost_oldest hfs hw, if_pos h]
    exact ⟨_, rfl, by rw [pipe_congr (count_insp ..), pipe_setPipe], rd_count .., counted_onlyRegs rfl ..⟩
  · -- FRAME_END
    simp only [frameEnd, h]
  · obtain ⟨x, hend, hposted⟩ := frameEnd_ends peak ests ok h
    rw [hend]
    exact ⟨x, rfl, hposted⟩
  · -- GROUP_RUN_WRITE
    rw [groupWrite_ignored h]
  · rw [groupWrite_stops hn hlo hhi hrun hbit]
    exact ⟨_, rfl, by rw [State.on, rd_wr_self]; rfl, onlyRegs_wr ..⟩
  · rw [groupWrite_sets hn hlo hhi hrun]
    exact ⟨groupSet z n v, rfl, groupSet_shows z n v⟩
  · -- ACCUMULATOR_COMPLETE
    simp only [accComplete, h]
  · obtain ⟨acc, e, hdone, hothers⟩ := accComplete_ready h
    rw [hdone]
    exact ⟨_, rfl, by rw [tbl_get_put_self], rfl, hothers⟩
  · -- EXPO_GO
    intro p bytes tg hp hbytes htg
    rw [expoGo_eq hp hbytes]
    refine ⟨fun h => ?_, fun h hlt => ?_⟩
    · rw [expoWrite_ignored (htg.symm.trans h)]
      exact ⟨_, rfl, rd2_wr2 _ _ (by decide) (Nat.two_pow_pos _), onlyRegs_wr2 ..⟩
    · obtain ⟨hresult, hpend⟩ := expoWrite_files (htg ▸ h)
      rw [← htg] at hresult hpend
      rw [hresult]
      exact ⟨_, rfl, rd2_wr2 _ _ (by decide) hlt, hpend⟩
  · -- EXPO_COMMIT_CHECK
    rw [expoCheck_holds v h]
  · rw [expoCheck_eq v hfs hc, if_neg (by omega)]
    exact ⟨_, rfl, pipe_setPipe .., rfl⟩
  · rw [expoCheck_eq v hfs hc, if_pos h]
    exact ⟨_, rfl, pipe_setPipe .., rfl⟩
  · -- PIPELINE_TEST_TIMER
    rw [pipeIdleTest_skipped ok h]
  · rw [pipeIdleTest_tested ok hn h]
    exact ⟨_, rfl, pipe_setPipe .., rfl⟩

end Sys2Proof

/-! ## Recalibration of units (R266 to R271) -/

namespace Sys2Proof

open Machine Laws

/-! ### What the clock leaves as it is -/

@[simp] theorem rdi_at (s : State) (t : Nat) (f : Fld) (i : Nat) : (s.at t).rdi f i = s.rdi f i := by simp only [State.rdi, rd_at]

@[simp] theorem hostOpen_at (s : State) (t : Nat) : hostOpen (s.at t) = hostOpen s := by simp only [hostOpen, mode_at]

@[simp] theorem recalOpen_at (s : State) (t : Nat) : recalOpen (s.at t) = recalOpen s := by simp only [recalOpen, on_at, mode_at]

@[simp] theorem quality_at (s : State) (t cls i : Nat) : (s.at t).quality cls i = s.quality cls i := by
  simp only [State.quality, at_cal]

@[simp] theorem fb_at (s : State) (t i : Nat) : (s.at t).fb i = s.fb i := by simp only [State.fb, at_mot]

@[simp] theorem logicalOn_at (s : State) (t n : Nat) : logicalOn (s.at t) n = logicalOn s n := by
  simp only [logicalOn, physLane, rd_at]

@[simp] theorem moving_at (s : State) (t l : Nat) : moving (s.at t) l = moving s l := by simp only [moving, at_ln]

@[simp] theorem laneEnt_at (s : State) (t n : Nat) (f : EF) (v : Nat) : laneEnt (s.at t) n f v = laneEnt s n f v := by
  simp only [laneEnt, inUse_at, ent_at]

/-! ### Tables, figures and inputs written -/

theorem tbl_get_of_find {α : Type} (d : α) {t : Tbl α} {k : Nat} {v : α} (h : Tbl.find t k = some v) : Tbl.get d t k = v := by
  induction t with
  | nil => cases h
  | cons c t ih =>
    unfold Tbl.find at h
    unfold Tbl.get
    split <;> simp_all

@[simp] theorem quality_setQuality (s : State) (cls i : Nat) (q : Quality) :
    (s.setQuality cls i q).quality cls i = { q with at_ := some s.clk } := tbl_get_put_self ..

@[simp] theorem quality_noteQuality (s : State) (cls i : Nat) (q : Quality) : (s.noteQuality cls i q).quality cls i = q := tbl_get_put_self ..

@[simp] theorem fb_setFb (s : State) (i : Nat) (x : FbInput) : (s.setFb i x).fb i = x := tbl_get_put_self ..

@[simp] theorem rd_setQuality (s : State) (cls i : Nat) (q : Quality) (f : Fld) (k : Nat) : (s.setQuality cls i q).rd f k = s.rd f k := rfl

@[simp] theorem rd_setLane (s : State) (n : Nat) (x : Lane) (f : Fld) (k : Nat) : (s.setLane n x).rd f k = s.rd f k := rfl

@[simp] theorem lane_setLane (s : State) (n : Nat) (x : Lane) : (s.setLane n x).lane n = x := tbl_get_put_self ..

/-! ### What is due (R266) -/

theorem recalDue_files (s : State) (cls u reason : Nat) : (cls, u, reason) ∈ (recalDue s cls u reason).cal.due ∧
    (∀ d, d ∈ s.cal.due → d ∈ (recalDue s cls u reason).cal.due) ∧
    recalDue s cls u reason = { s with cal := { s.cal with due := (recalDue s cls u reason).cal.due } } := by
  unfold recalDue
  split
  · next h => exact ⟨by simpa using h, fun _ hd => hd, rfl⟩
  · exact ⟨List.mem_append_right _ (List.mem_singleton_self _), fun _ hd => List.mem_append_left _ hd, rfl⟩

theorem recalRequest_ignored {s : State} {cls u : Nat} (h : hostOpen s = false ∨ s.on Reg.CL_CTRL.loops_run = false ∨ 4 ≤ cls ∨
    classUnits cls ≤ u) : recalRequest s cls u = s := by
  refine if_neg fun hc => ?_
  simp only [Bool.and_eq_true, decide_eq_true_eq] at hc
  obtain ⟨⟨⟨hhost, hrun⟩, hcls⟩, hu⟩ := hc
  rcases h with h | h | h | h
  · exact Bool.false_ne_true (h.symm.trans hhost)
  · exact Bool.false_ne_true (h.symm.trans hrun)
  · omega
  · omega

theorem recalRequest_taken {s : State} {cls u : Nat} (hhost : hostOpen s = true) (hrun : s.on Reg.CL_CTRL.loops_run = true)
    (hcls : cls < 4) (hu : u < classUnits cls) : recalRequest s cls u = recalDue s cls u reasonRequest :=
  if_pos (by simp [hhost, hrun, hcls, hu])

/-- When a unit last ran, or the machine started cold. -/
def lastRunAt (s : State) (cls u : Nat) : Nat :=
  match Tbl.find s.cal.lastRun (unitKey cls u) with | some (a, _) => a | none => s.net.coldAt

theorem recalAge_eq (s : State) (cls u : Nat) : recalAge s cls u =
    if (recalOpen s && decide (cls < 4) && decide (u < classUnits cls) &&
      decide (lastRunAt s cls u + s.rd Reg.CL_RECAL_CFG.recal_max_s * secU ≤ s.clk)) = true then recalDue s cls u reasonAge else s := rfl

theorem recalAge_ignored {s : State} {cls u : Nat} (h : recalOpen s = false ∨ 4 ≤ cls ∨ classUnits cls ≤ u ∨
    s.clk < lastRunAt s cls u + s.rd Reg.CL_RECAL_CFG.recal_max_s * secU) : recalAge s cls u = s := by
  rw [recalAge_eq]
  refine if_neg fun hc => ?_
  simp only [Bool.and_eq_true, decide_eq_true_eq] at hc
  obtain ⟨⟨⟨hopen, hcls⟩, hu⟩, hage⟩ := hc
  rcases h with h | h | h | h
  · exact Bool.false_ne_true (h.symm.trans hopen)
  · omega
  · omega
  · omega

theorem recalAge_taken {s : State} {cls u : Nat} (hopen : recalOpen s = true) (hcls : cls < 4) (hu : u < classUnits cls)
    (hage : lastRunAt s cls u + s.rd Reg.CL_RECAL_CFG.recal_max_s * secU ≤ s.clk) : recalAge s cls u = recalDue s cls u reasonAge := by
  rw [recalAge_eq]
  exact if_pos (by simp [hopen, hcls, hu, hage])

/-! ### A run begins and ends (R267) -/

theorem showBusy_onlyRegs (s : State) : OnlyRegs s (showBusy s) [Reg.CL_RECAL_STATUS.busy.key 0] := onlyRegs_wr ..

theorem recalRun_shows (s : State) (cls u : Nat) : Tbl.find (recalRun s cls u).cal.running cls = some u ∧
    (∀ d ∈ (recalRun s cls u).cal.due, ¬(d.1 = cls ∧ d.2.1 = u)) ∧
    OnlyRegs { s with cal := (recalRun s cls u).cal } (recalRun s cls u)
      [Reg.CL_RECAL_STATUS.busy.key 0, Reg.CL_RECAL_STATUS.deferred.key 0] := by
  refine ⟨?_, fun d hd => ?_, ?_⟩
  · exact (tbl_find_put ..).trans (if_pos rfl)
  · have hd : d ∈ s.cal.due.filter (fun d => !(d.1 == cls && d.2.1 == u)) := hd
    exact not_and_or.2 (by simpa using (List.mem_filter.1 hd).2)
  · exact ((onlyRegs_wr ..).trans (showBusy_onlyRegs _)).mono (by simp)

theorem recalEnd_onlyRegs (s : State) (cls u : Nat) (counts : Bool) :
    OnlyRegs { s with cal := (recalEnd s cls u counts).cal } (recalEnd s cls u counts)
      [Reg.CL_RECAL_STATUS.recal_runs.key 0, Reg.CL_RECAL_STATUS.busy.key 0] := by
  cases counts
  · exact (showBusy_onlyRegs _).mono (by simp)
  · exact (count_onlyRegs ..).trans (showBusy_onlyRegs _)

theorem recalEnd_files (s : State) (cls u : Nat) : Tbl.find (recalEnd s cls u true).cal.running cls = none ∧
    Tbl.find (recalEnd s cls u true).cal.lastRun (unitKey cls u) = some (s.clk, s.rdi Reg.THERM_SENS.s_value (unitSensor cls u)) ∧
    (recalEnd s cls u true).rd Reg.CL_RECAL_STATUS.recal_runs = sat 16 (s.rd Reg.CL_RECAL_STATUS.recal_runs + 1) := by
  refine ⟨tbl_find_del_self .., (tbl_find_put ..).trans (if_pos rfl), ?_⟩
  rw [recalEnd, showBusy, rd_wr_field _ _ _ _ (by decide), if_pos rfl, rd_count]
  rfl

/-! ### RECAL_START (R267) -/

theorem recalStart_held {s : State} {cls : Nat} (h : recalOpen s = false ∨ 4 ≤ cls ∨ (Tbl.find s.cal.running cls).isSome = true ∨
    (cls ≠ 2 ∧ s.on Reg.CL_RECAL_STATUS.xref_fault = true) ∨ (cls ≤ 1 ∧ s.rd Reg.MODE_CUR.power ≠ 0) ∨
    (cls ≠ 0 ∧ firstDue s cls = none)) : recalStart s cls = s := by
  unfold recalStart
  dsimp only
  split
  · rfl
  · next hc =>
    rcases h with h | h | h | ⟨h, hx⟩ | ⟨h, hp⟩ | ⟨h, hdue⟩
    · exact absurd (by simp [h]) hc
    · exact absurd (by simp [h]) hc
    · exact absurd (by simp [h]) hc
    · exact absurd (by simp [h, hx]) hc
    · exact absurd (by simp [h, hp]) hc
    · rw [hdue, if_neg h]

section

variable {s : State} {cls u : Nat} (hopen : recalOpen s = true) (hidle : Tbl.find s.cal.running cls = none)
  (hx : cls = 2 ∨ s.on Reg.CL_RECAL_STATUS.xref_fault = false) (hp : 2 ≤ cls ∨ s.rd Reg.MODE_CUR.power = 0) (hcls : cls < 4)

include hopen hidle hx hp hcls

/-- Nothing bars a run of the class. -/
theorem recalStart_free : (!recalOpen s || 4 ≤ cls || (Tbl.find s.cal.running cls).isSome ||
    (cls != 2 && s.on Reg.CL_RECAL_STATUS.xref_fault) || (decide (cls ≤ 1) && s.rd Reg.MODE_CUR.power != 0)) = false := by
  have hx' : (cls != 2 && s.on Reg.CL_RECAL_STATUS.xref_fault) = false := by
    rcases hx with rfl | hx
    · rfl
    · rw [hx, Bool.and_false]
  have hp' : (decide (cls ≤ 1) && s.rd Reg.MODE_CUR.power != 0) = false := by
    rcases hp with hp | hp
    · rw [decide_eq_false (by omega), Bool.false_and]
    · rw [hp]; exact Bool.and_false _
  rw [hx', hp', hopen, hidle, decide_eq_false (by omega)]
  rfl

theorem recalStart_other (h0 : cls ≠ 0) (hdue : firstDue s cls = some u) : recalStart s cls =
    if cls = 1 then setLstate (recalRun s 1 u) (48 + u) 4
    else if cls = 2 then { recalRun s 2 u with st := { (recalRun s 2 u).st with windows := 0 } } else recalRun s 3 u := by
  unfold recalStart
  dsimp only
  rw [recalStart_free hopen hidle hx hp hcls, if_neg Bool.false_ne_true, if_neg h0, hdue]
  exact if_neg h0

end

/-- A due head lane that has to wait lets the next one run. -/
theorem laneWaits_firstDue {s : State} {u : Nat} (h : firstDue s 0 = some u) : laneWaits s u = false := by
  obtain ⟨r, -, hr⟩ := List.mem_filterMap.1 (List.mem_of_mem_head? h)
  obtain ⟨d, hd, rfl⟩ := Option.map_eq_some_iff.1 hr
  simpa using (List.mem_filter.1 (List.mem_of_find?_eq_some hd)).2

/-- What becomes of the head lane that is due first. -/
def lanesRun (s : State) : State := match firstDue s 0 with | none => s | some u => recalLane s u

theorem recalStart_lanes {s : State} (hopen : recalOpen s = true) (hidle : Tbl.find s.cal.running 0 = none)
    (hx : s.on Reg.CL_RECAL_STATUS.xref_fault = false) (hp : s.rd Reg.MODE_CUR.power = 0) : recalStart s 0 =
    setDeferred (lanesRun s) 0 ((dueReady s 0).any (fun d => laneWaits s d.2.1)) := by
  unfold recalStart lanesRun
  dsimp only
  rw [recalStart_free hopen hidle (.inr hx) (.inr hp) (by decide), if_neg Bool.false_ne_true]
  rfl

section

variable {s : State} {u : Nat}

theorem recalLane_bare (h : s.lstate u = 3 ∨ logicalOn s u = none) : recalLane s u = setLstate (recalRun s 0 u) u 4 := by
  have hnone : (if s.lstate u = 3 then none else logicalOn s u) = none := by
    rcases h with h | h
    · exact if_pos h
    · rw [h, ite_self]
  rw [recalLane, hnone]

variable {l : Nat} (h3 : s.lstate u ≠ 3) (hl : logicalOn s u = some l)

include h3 hl

theorem recalLane_moving (h : moving s l = true) : recalLane s u = s := by
  rw [recalLane, if_neg h3, hl]
  dsimp only
  split <;> exact if_pos h

theorem recalLane_spare {b : Nat} (hm : moving s l = false) (h : freeSpare s l = some b) :
    recalLane s u = moveAdd (recalRun s 0 u) l b true false := by
  rw [recalLane, if_neg h3, hl]
  dsimp only
  rw [h]
  exact if_neg (by simp [hm])

theorem recalLane_down (hm : moving s l = false) (h : freeSpare s l = none) :
    recalLane s u = showLinks (setLstate (recalRun s 0 u) u 4) l := by
  rw [recalLane, if_neg h3, hl]
  dsimp only
  rw [h]
  exact if_neg (by simp [hm])

/-- One that need not wait, with no spare: no job is open. -/
theorem job_closed_of_ready (hw : laneWaits s u = false) (hm : moving s l = false) (h : freeSpare s l = none) :
    s.on Reg.LA_STATUS.job_open = false := by
  simpa [laneWaits, h3, hl, hm, h] using hw

end

/-! ### RECAL_COMPLETE (R267, R268, R271) -/

theorem recalComplete_ignored {s : State} {cls u : Nat} (a b ctle : Nat)
    (h : Tbl.find s.cal.running cls ≠ some u ∨ (cls ≠ 2 ∧ s.on Reg.CL_RECAL_STATUS.xref_fault = true)) :
    recalComplete s cls u a b ctle = s := if_pos h

/-- Tap `k` of a lane's equaliser as its run left it; one that the lane does not have is 0. -/
def tapFound (n : Nat) (s : State) (k : Nat) : State :=
  s.wri Reg.LANE_DFE.tap (12 * n + k) (if k < laneEnt s n LaneE.dfeTaps 12 then signed 8 (s.freeVal (169 + 1000 * k) % 256) else 0)

def tapsFound (s : State) (n : Nat) : State := (List.range 12).foldl (tapFound n) s

@[simp] theorem tapsFound_cal (s : State) (n : Nat) : (tapsFound s n).cal = s.cal := foldl_unchanged State.cal (f := tapFound n) (fun _ _ => rfl) _ s

@[simp] theorem tapsFound_clk (s : State) (n : Nat) : (tapsFound s n).clk = s.clk := foldl_unchanged State.clk (f := tapFound n) (fun _ _ => rfl) _ s

theorem rd_tapsFound (s : State) (n : Nat) {g : Fld} (i : Nat)
    (h : g.addr * 32 + g.lsb ≠ Reg.LANE_DFE.tap.addr * 32 + Reg.LANE_DFE.tap.lsb) : (tapsFound s n).rd g i = s.rd g i :=
  foldl_unchanged (fun x => x.rd g i) (fun x _ => rd_wr_field x _ _ _ h) _ s

/-- A lane's run ended, with the eye's width and height, the temperature and the run counted among its figures. -/
def laneGraded (s : State) (cls u a b : Nat) : State :=
  (recalEnd s cls u true).setQuality cls u { s.quality cls u with
    a1 := low 16 a, a0 := low 16 b, b1 := unsigned 16 (s.rdi Reg.THERM_SENS.s_value (unitSensor cls u))
    b0 := sat 16 ((s.quality cls u).b0 + 1) }

/-- And with its new settings. -/
def laneFiled (s : State) (cls u a b ctle : Nat) : State :=
  let n := unitLane cls u
  let x := (tapsFound ((laneGraded s cls u a b).wr Reg.LANE_STATE.ctle n
    (min ctle (laneEnt (laneGraded s cls u a b) n LaneE.ctleMax 15))) n).spend
  x.setLane n { x.lane n with isOver := false, tapsAt := some x.clk }

theorem laneFiled_rd (s : State) (cls u a b ctle : Nat) {g : Fld} (i : Nat)
    (htap : g.addr * 32 + g.lsb ≠ Reg.LANE_DFE.tap.addr * 32 + Reg.LANE_DFE.tap.lsb)
    (hctle : g.addr * 32 + g.lsb ≠ Reg.LANE_STATE.ctle.addr * 32 + Reg.LANE_STATE.ctle.lsb) :
    (laneFiled s cls u a b ctle).rd g i = (recalEnd s cls u true).rd g i := by
  rw [laneFiled, rd_setLane, rd_spend, rd_tapsFound _ _ _ htap, rd_wr_field _ _ _ _ hctle, laneGraded, rd_setQuality]

/-- The limits of the figures stay. -/
theorem laneFiled_limits (s : State) (cls u a b ctle : Nat) :
    (laneFiled s cls u a b ctle).rd Reg.CL_Q_LIMITS.eye_w_min = s.rd Reg.CL_Q_LIMITS.eye_w_min ∧
    (laneFiled s cls u a b ctle).rd Reg.CL_Q_LIMITS.eye_h_min = s.rd Reg.CL_Q_LIMITS.eye_h_min := by
  constructor <;> rw [laneFiled_rd _ _ _ _ _ _ _ (by decide) (by decide)] <;> exact (recalEnd_onlyRegs s cls u true).2 _ 0 (by decide)

theorem laneFiled_quality (s : State) (cls u a b ctle : Nat) :
    (laneFiled s cls u a b ctle).quality cls u = (laneGraded s cls u a b).quality cls u := by
  rw [laneFiled, State.quality, setLane_cal, spend_cal, tapsFound_cal, wr_cal, ← State.quality]

theorem laneFiled_shows (s : State) (cls u a b ctle : Nat) :
    ((laneFiled s cls u a b ctle).quality cls u).a1 = low 16 a ∧ ((laneFiled s cls u a b ctle).quality cls u).a0 = low 16 b ∧
    ((laneFiled s cls u a b ctle).lane (unitLane cls u)).isOver = false ∧
    ((laneFiled s cls u a b ctle).lane (unitLane cls u)).tapsAt = some s.clk ∧
    (laneFiled s cls u a b ctle).rd Reg.LANE_STATE.ctle (unitLane cls u) =
      low 4 (min ctle (laneEnt s (unitLane cls u) LaneE.ctleMax 15)) ∧
    (laneFiled s cls u a b ctle).rd Reg.CL_RECAL_STATUS.recal_runs = sat 16 (s.rd Reg.CL_RECAL_STATUS.recal_runs + 1) := by
  refine ⟨?_, ?_, ?_, ?_, ?_, ?_⟩
  · rw [laneFiled_quality, laneGraded, quality_setQuality]
  · rw [laneFiled_quality, laneGraded, quality_setQuality]
  · rw [laneFiled, lane_setLane]
  · rw [laneFiled, lane_setLane, spend_clk, tapsFound_clk]
    rfl
  · rw [laneFiled, rd_setLane, rd_spend, rd_tapsFound _ _ _ (by decide), rd_wr_self]
    rfl
  · rw [laneFiled_rd _ _ _ _ _ _ _ (by decide) (by decide), (recalEnd_files s cls u).2.2]

/-- Where a lane within its limits goes: a twin lane into service, a head lane back to its logical lane or to stand by. -/
def laneBack (s : State) (cls n : Nat) : State :=
  if cls = 1 then setLstate s n 2
  else match logicalOn s n with
    | some l => showLinks (setLstate s n 2) l
    | none => laneStandby s n

section

variable {s : State} {cls u : Nat} (a b ctle : Nat) (hrun : Tbl.find s.cal.running cls = some u)
  (hx : cls = 2 ∨ s.on Reg.CL_RECAL_STATUS.xref_fault = false)

include hrun hx

theorem recalComplete_goesOn : ¬(Tbl.find s.cal.running cls ≠ some u ∨ (cls ≠ 2 ∧ s.on Reg.CL_RECAL_STATUS.xref_fault = true)) := by
  rintro (h | ⟨h, hfault⟩)
  · exact h hrun
  · rcases hx with rfl | hx
    · exact h rfl
    · exact Bool.false_ne_true (hx.symm.trans hfault)

theorem recalComplete_stacks (h : cls = 2) : recalComplete s cls u a b ctle = if s.st.windows = 128 then recalEnd s 2 u true else s := by
  unfold recalComplete
  rw [if_neg (recalComplete_goesOn hrun hx)]
  subst h
  rfl

theorem recalComplete_converter (h : cls = 3) : recalComplete s cls u a b ctle = if (s.fb (u / 2)).sc.swapped = true then
      (((recalEnd s 3 u true).setFb (u / 2) { s.fb (u / 2) with sc := { (s.fb (u / 2)).sc with swapped := false } }).noteQuality 2 (u / 2)
        { s.quality 2 (u / 2) with b1 := unsigned 16 (s.rdi Reg.THERM_SENS.s_value (unitSensor 3 u)) })
    else s := by
  unfold recalComplete
  rw [if_neg (recalComplete_goesOn hrun hx)]
  subst h
  rfl

theorem recalComplete_laneLost (hc : cls ≤ 1) (h : s.lstate (unitLane cls u) ≠ 4) : recalComplete s cls u a b ctle =
    if moving s ((logicalOn s (unitLane cls u)).getD 40) = true then s else recalEnd s cls u false := by
  unfold recalComplete
  rw [if_neg (recalComplete_goesOn hrun hx)]
  dsimp only
  rw [if_pos hc, if_neg h]

theorem recalComplete_lane (hc : cls ≤ 1) (h : s.lstate (unitLane cls u) = 4) : recalComplete s cls u a b ctle =
    if (!(decide (s.rd Reg.CL_Q_LIMITS.eye_w_min ≤ a) && decide (2 * s.rd Reg.CL_Q_LIMITS.eye_h_min ≤ b))) = true then
      laneRetire (laneFiled s cls u a b ctle) (unitLane cls u)
    else laneBack (laneFiled s cls u a b ctle) cls (unitLane cls u) := by
  obtain ⟨hw, hh⟩ := laneFiled_limits s cls u a b ctle
  unfold recalComplete
  rw [if_neg (recalComplete_goesOn hrun hx)]
  extract_lets temp n q ended graded set tapped spent lane filed ok
  have hfiled : filed = laneFiled s cls u a b ctle := rfl
  have hok : ok = (decide (filed.rd Reg.CL_Q_LIMITS.eye_w_min ≤ a) && decide (2 * filed.rd Reg.CL_Q_LIMITS.eye_h_min ≤ b)) := rfl
  clear_value filed ok
  subst hok hfiled
  rw [if_pos hc, if_pos h, hw, hh]
  generalize laneFiled s cls u a b ctle = y
  rfl

end

/-! ### CONVERTER_SWAP (R268) -/

/-- The converter in calibration, where it serves this input. -/
def swapRun (s : State) (i : Nat) : Option Nat :=
  match Tbl.find s.cal.running 3 with | some u => if u / 2 = i then some u else none | none => none

theorem swapRun_of_find {s : State} {u : Nat} (h : Tbl.find s.cal.running 3 = some u) : swapRun s (u / 2) = some u := by
  rw [swapRun, h]
  exact if_pos rfl

theorem swapRun_isSome {s : State} {i : Nat} (h : ∃ u, Tbl.find s.cal.running 3 = some u ∧ u / 2 = i) : (swapRun s i).isSome = true := by
  obtain ⟨u, hu, rfl⟩ := h
  rw [swapRun_of_find hu]
  rfl

theorem swapRun_eq_none {s : State} {i : Nat} : swapRun s i = none ↔ ∀ u, Tbl.find s.cal.running 3 = some u → u / 2 ≠ i := by
  unfold swapRun
  cases Tbl.find s.cal.running 3 with
  | none => simp
  | some u => simp

/-- A swap within `swap_tol`. -/
def swapAgreed (s : State) (i : Nat) : State :=
  let y := { s with tu := { s.tu with burstDue := Tbl.del s.tu.burstDue i }, loops := { s.loops with convBad := Tbl.del s.loops.convBad i } }
  (y.setFb i { s.fb i with sc := { (s.fb i).sc.takeOver ((swapRun s i).elim (s.freeVal 154 % 2) (· % 2)) with
    swapped := (swapRun s i).isSome } }).spend.noteQuality 2 i { s.quality 2 i with b0 := sat 16 ((s.quality 2 i).b0 + 1) }

/-- A swap beyond it, before what the third in a row leads to: the run, where there is one, is asked for anew. -/
def swapFailed (s : State) (i n : Nat) : State :=
  let y := { s with tu := { s.tu with burstDue := Tbl.del s.tu.burstDue i }
                    loops := { s.loops with convBad := if n = 3 then Tbl.del s.loops.convBad i else s.loops.convBad.put i n } }
  (swapRun s i).elim y (fun u => recalDue (recalEnd y 3 u false) 3 u reasonRequest)

theorem converterSwap_eq (s : State) (i d : Nat) : converterSwap s i d =
    if (!recalOpen s || decide (8 ≤ i) || s.on Reg.CL_RECAL_STATUS.xref_fault ||
      !((swapRun s i).isSome || (Tbl.find s.tu.burstDue i).isSome) || (s.fb i).sc.swapped) = true then s
    else if d ≤ s.rd Reg.CL_Q_LIMITS.swap_tol then swapAgreed s i
    else if Tbl.get 0 s.loops.convBad i + 1 = 3 then encFault (swapFailed s i (Tbl.get 0 s.loops.convBad i + 1)) i 0
    else swapFailed s i (Tbl.get 0 s.loops.convBad i + 1) := by
  unfold converterSwap swapAgreed swapFailed swapRun
  cases Tbl.find s.cal.running 3 with
  | none => rfl
  | some u =>
    by_cases h : u / 2 = i
    · simp only [if_pos h]
      rfl
    · simp only [if_neg h]
      rfl

theorem converterSwap_held {s : State} {i : Nat} (d : Nat) (h : recalOpen s = false ∨ 8 ≤ i ∨ s.on Reg.CL_RECAL_STATUS.xref_fault = true ∨
    (s.fb i).sc.swapped = true ∨ (swapRun s i = none ∧ Tbl.find s.tu.burstDue i = none)) : converterSwap s i d = s := by
  rw [converterSwap_eq]
  refine if_pos ?_
  rcases h with h | h | h | h | ⟨h, hburst⟩
  · simp [h]
  · simp [h]
  · simp [h]
  · simp [h]
  · simp [h, hburst]

section

variable {s : State} {i d : Nat} (hopen : recalOpen s = true) (hi : i < 8) (hx : s.on Reg.CL_RECAL_STATUS.xref_fault = false)
  (hs : (s.fb i).sc.swapped = false) (hr : (swapRun s i).isSome = true ∨ (Tbl.find s.tu.burstDue i).isSome = true)

include hopen hi hx hs hr

theorem converterSwap_open : converterSwap s i d = if d ≤ s.rd Reg.CL_Q_LIMITS.swap_tol then swapAgreed s i
    else if Tbl.get 0 s.loops.convBad i + 1 = 3 then encFault (swapFailed s i (Tbl.get 0 s.loops.convBad i + 1)) i 0
    else swapFailed s i (Tbl.get 0 s.loops.convBad i + 1) := by
  have hrun : ((swapRun s i).isSome || (Tbl.find s.tu.burstDue i).isSome) = true := by
    rcases hr with h | h <;> simp [h]
  rw [converterSwap_eq, hopen, hx, hs, hrun, decide_eq_false hi.not_ge]
  rfl

end

theorem swapAgreed_shows (s : State) (i : Nat) :
    ((swapAgreed s i).quality 2 i).b0 = sat 16 ((s.quality 2 i).b0 + 1) ∧ ((swapAgreed s i).quality 2 i).at_ = (s.quality 2 i).at_ ∧
    Tbl.get 0 (swapAgreed s i).loops.convBad i = 0 ∧ Tbl.find (swapAgreed s i).tu.burstDue i = none ∧ (swapAgreed s i).regs = s.regs := by
  refine ⟨?_, ?_, tbl_get_del_self .., tbl_find_del_self .., rfl⟩
  · rw [swapAgreed, quality_noteQuality]
  · rw [swapAgreed, quality_noteQuality]

theorem swapAgreed_fb (s : State) (i : Nat) : ((swapAgreed s i).fb i).sc =
    { (s.fb i).sc.takeOver ((swapRun s i).elim (s.freeVal 154 % 2) (· % 2)) with swapped := (swapRun s i).isSome } :=
  congrArg FbInput.sc (fb_setFb ..)

theorem swapFailed_shows (s : State) (i n : Nat) : Tbl.get 0 (swapFailed s i n).loops.convBad i = (if n = 3 then 0 else n) ∧
    ((swapFailed s i n).fb i).sc = (s.fb i).sc ∧ (swapFailed s i n).out = s.out := by
  have hbad : Tbl.get 0 (if n = 3 then Tbl.del s.loops.convBad i else s.loops.convBad.put i n) i = if n = 3 then 0 else n := by
    split
    · exact tbl_get_del_self ..
    · exact tbl_get_put_self ..
  unfold swapFailed
  cases swapRun s i with
  | none => exact ⟨hbad, rfl, rfl⟩
  | some u =>
    dsimp only [Option.elim]
    rw [(recalDue_files _ 3 u reasonRequest).2.2]
    exact ⟨hbad, rfl, rfl⟩

/-! ### XREF_CHECK (R270, R271) -/

/-- A reference beyond its limits, found at start-up, gives way to the coefficients of the fuses. -/
def xrefUsed (s : State) (ohms : Nat) : State :=
  if (decide (ohms < 4000 ∨ 6000 < ohms) && (s.mode == modeCold || s.mode == modeReload)) = true then (List.range 8).foldl factoryCoefs s
  else s

theorem xrefUsed_regs (s : State) (ohms : Nat) : (xrefUsed s ohms).regs = s.regs := by
  unfold xrefUsed
  split
  · exact foldl_unchanged State.regs (f := factoryCoefs) (fun _ _ => rfl) _ s
  · rfl

theorem xrefCheck_eq (s : State) (ohms : Nat) : xrefCheck s ohms =
    if decide (ohms < 4000 ∨ 6000 < ohms) = s.on Reg.CL_RECAL_STATUS.xref_fault then xrefUsed s ohms
    else ((xrefUsed s ohms).wrb Reg.CL_RECAL_STATUS.xref_fault 0 (decide (ohms < 4000 ∨ 6000 < ohms))).event 0x0502 noChan 0
      (ofBool (decide (ohms < 4000 ∨ 6000 < ohms))) ohms := by
  have hor : (decide (ohms < 4000) || decide (6000 < ohms)) = decide (ohms < 4000 ∨ 6000 < ohms) := (Bool.decide_or ..).symm
  rw [← on_congr (xrefUsed_regs s ohms)]
  unfold xrefCheck
  rw [hor]
  extract_lets bad y
  simp only [beq_iff_eq]
  rfl

/-- Settles O46: each command by the lemma on what it does, over the state the clock has moved on. -/
theorem recalibration : Obligations.Recalibration := by
  unfold Obligations.Recalibration
  rintro s σ t c n rfl
  simp only [exec_recalRequest, exec_recalAgeExpiry, exec_recalStart, exec_recalComplete, exec_converterSwap, exec_xrefCheck]
  simp only [execRecalRequest, execRecalAgeExpiry, execRecalStart, execRecalComplete, execConverterSwap, execXrefCheck]
  simp only [← rd_at s t, ← on_at s t, ← rdi_at s t, ← hostOpen_at s t, ← recalOpen_at s t, ← quality_at s t, ← fb_at s t,
    ← logicalOn_at s t, ← moving_at s t, ← laneEnt_at s t, ← lstate_at s t, ← mode_at s t, ← at_cal s t, ← at_net s t, ← at_st s t,
    ← at_tu s t, ← at_loops s t, ← at_out s t, ← at_regs s t]
  generalize s.at t = z
  refine ⟨fun h => ?_, fun hhost hon hc hu => ?_, ?_, fun h => ?_,
    fun hopen hidle hx hp => ⟨?_, ?_, ?_, ?_⟩,
    fun z => recalRun_shows z c n, fun z => recalEnd_files z c n, fun a b ctle h => ?_,
    fun a b ctle hrun hx => ⟨fun hc h => ?_, fun hc h => ?_, fun hc h => ?_, fun hc h => ?_, fun hc h => ⟨fun hm => ?_, fun hm => ?_⟩,
      fun hc h hw hh => ?_, fun hc h hbad => ?_⟩,
    fun d h => ?_, fun d hopen hn hx hs hr => ⟨fun hd => ?_, fun hd => ⟨fun h => ?_, fun h => ?_⟩⟩,
    fun r y hy => ⟨fun h => ?_, fun h => ?_⟩⟩
  · -- RECAL_REQUEST
    rw [recalRequest_ignored h]
  · rw [recalRequest_taken hhost hon hc hu]
    exact ⟨_, rfl, recalDue_files ..⟩
  · -- RECAL_AGE_EXPIRY
    intro a ha
    obtain rfl : a = lastRunAt z c n := ha
    refine ⟨fun h => ?_, fun hopen hc hu hage => ?_⟩
    · rw [recalAge_ignored h]
    · rw [recalAge_taken hopen hc hu hage]
      obtain ⟨hmem, -, hframe⟩ := recalDue_files z c n reasonAge
      exact ⟨_, rfl, hmem, hframe⟩
  · -- RECAL_START
    rw [recalStart_held h]
  · rintro rfl hdue
    rw [recalStart_other hopen hidle hx hp (by decide) (by decide) hdue]
    rfl
  · rintro rfl hdue
    rw [recalStart_other hopen hidle hx hp (by decide) (by decide) hdue]
    exact ⟨_, rfl, rfl⟩
  · rintro rfl hdue
    rw [recalStart_other hopen hidle hx hp (by decide) (by decide) hdue]
    rfl
  · rintro rfl
    rw [recalStart_lanes hopen hidle (by simpa using hx) (by simpa using hp)]
    refine ⟨lanesRun z, rfl, fun h => by rw [lanesRun, h], fun h => ?_⟩
    have hready := laneWaits_firstDue h
    rw [show lanesRun z = recalLane z n by rw [lanesRun, h]]
    exact ⟨hready, recalLane_bare, fun l h3 hl => ⟨recalLane_moving h3 hl,
      fun hm hf => ⟨job_closed_of_ready h3 hl hready hm hf, recalLane_down h3 hl hm hf⟩, fun b hm hf => recalLane_spare h3 hl hm hf⟩⟩
  · -- RECAL_COMPLETE
    rw [recalComplete_ignored a b ctle h]
  · rw [recalComplete_stacks a b ctle hrun hx hc, if_pos h]
  · rw [recalComplete_stacks a b ctle hrun hx hc, if_neg h]
  · rw [recalComplete_converter a b ctle hrun hx hc, if_neg (by simp [h])]
  · rw [recalComplete_converter a b ctle hrun hx hc, if_pos h]
    refine ⟨_, rfl, congrArg FbInput.sc (fb_setFb ..), ?_, ?_, tbl_find_del_self .., rfl, rfl⟩ <;> rw [quality_noteQuality]
  · rw [recalComplete_laneLost a b ctle hrun hx hc h, if_pos hm]
  · rw [recalComplete_laneLost a b ctle hrun hx hc h, if_neg (by simp [hm])]
  · rw [recalComplete_lane a b ctle hrun hx hc h, if_neg (by simp [hw, hh])]
    refine ⟨laneFiled z c n a b ctle, ?_, laneFiled_shows z c n a b ctle⟩
    generalize laneFiled z c n a b ctle = y
    obtain rfl | rfl : c = 0 ∨ c = 1 := by omega
    · rw [laneBack, if_neg (by decide)]
      cases hl : logicalOn y (unitLane 0 n) <;> simp only [hl]
    · rfl
  · rw [recalComplete_lane a b ctle hrun hx hc h, if_pos (by rcases hbad with h | h <;> simp [h.not_ge])]
    obtain ⟨hwidth, -, -, -, -, hruns⟩ := laneFiled_shows z c n a b ctle
    exact ⟨_, rfl, hwidth, hruns⟩
  · -- CONVERTER_SWAP
    rw [← swapRun_eq_none] at h
    rw [converterSwap_held d h]
  · rw [converterSwap_open hopen hn hx hs (hr.imp_left swapRun_isSome), if_pos hd]
    obtain ⟨hcount, hat, hbad, hburst, hregs⟩ := swapAgreed_shows z n
    refine ⟨_, rfl, hcount, hat, fun k hk hkn => ?_, fun h => ?_, hbad, hburst, hregs⟩
    · subst hkn
      rw [swapAgreed_fb, swapRun_of_find hk]
      rfl
    · refine ⟨z.freeVal 154 % 2, Nat.mod_lt _ (by decide), ?_⟩
      rw [swapAgreed_fb, swapRun_eq_none.2 h, show (none : Option Nat).isSome = (z.fb n).sc.swapped from hs.symm]
      rfl
  · rw [converterSwap_open hopen hn hx hs (hr.imp_left swapRun_isSome), if_neg hd.not_ge, if_neg (by omega)]
    obtain ⟨hbad, hsc, hout⟩ := swapFailed_shows z n (Tbl.get 0 z.loops.convBad n + 1)
    exact ⟨_, rfl, by rw [hbad, if_neg (by omega)], hsc, hout⟩
  · rw [converterSwap_open hopen hn hx hs (hr.imp_left swapRun_isSome), if_neg hd.not_ge, if_pos (by omega)]
    obtain ⟨hbad, hsc, hout⟩ := swapFailed_shows z n (Tbl.get 0 z.loops.convBad n + 1)
    exact ⟨_, rfl, by rw [hbad, if_pos (by omega)], hsc, hout⟩
  · -- XREF_CHECK
    rw [xrefCheck_eq, if_pos h, hy]
    rfl
  · rw [xrefCheck_eq, if_neg h]
    obtain rfl : y = xrefUsed z r := hy
    exact ⟨_, rfl, on_wrb_self _ _ _ (by decide), onlyRegs_wr ..⟩

end Sys2Proof

/-! ## Live calibration: nozzles, density and registration (R248 to R264) -/

namespace Sys2Proof

open Machine Laws

/-! ### What the clock leaves as it is -/

@[simp] theorem observeOnly_at (s : State) (t : Nat) : observeOnly (s.at t) = observeOnly s := by
  simp only [observeOnly, State.gp40, mode_at, rd_at]

@[simp] theorem loopIssues_at (s : State) (t : Nat) : loopIssues (s.at t) = loopIssues s := by
  simp only [loopIssues, mode_at, observeOnly_at]

@[simp] theorem loopObserves_at (s : State) (t : Nat) : loopObserves (s.at t) = loopObserves s := by
  simp only [loopObserves, State.gp40, mode_at, rd_at]

@[simp] theorem loopOn_at (s : State) (t : Nat) (en : Fld) (p : Nat) : loopOn (s.at t) en p = loopOn s en p := by
  simp only [loopOn, on_at, rd_at]

@[simp] theorem nozOpen_at (s : State) (t p : Nat) : nozOpen (s.at t) p = nozOpen s p := by
  simp only [nozOpen, hostOpen_at, loopOn_at, observeOnly_at, mode_at]

@[simp] theorem planeRow_at (s : State) (t p i : Nat) : planeRow (s.at t) p i = planeRow s p i := by
  simp only [planeRow, entry_at]

@[simp] theorem regAddr_at (s : State) (t b slot : Nat) : regAddr (s.at t) b slot = regAddr s b slot := by
  simp only [regAddr, cuBase, rd_at]

/-- Whether the loops issue changes is read from the registers alone. -/
theorem loopIssues_congr {s t : State} (h : t.regs = s.regs) : loopIssues t = loopIssues s := by
  simp only [loopIssues, observeOnly, State.mode, State.gp40, rd_congr h]

/-! ### The health pass (R248, R249) -/

/-- What looking at a row of nozzles leaves alone. -/
def besideHealth (s : State) := (s.regs, s.la, s.cat, s.out, s.loops.passed, s.loops.retry)

theorem pokeBytes_beside (s : State) (a : Nat) (bs : List Byte) : besideHealth (s.pokeBytes a bs) = besideHealth s := by
  rw [pokeBytes_frame]
  rfl

theorem setHealth_beside (s : State) (p i c w : Nat) : besideHealth (setHealth s p i c w) = besideHealth s := pokeBytes_beside ..

theorem ite_beside {c : Prop} [Decidable c] {a b : State × List Nat} {s : State} (ha : besideHealth a.1 = besideHealth s)
    (hb : besideHealth b.1 = besideHealth s) : besideHealth (if c then a else b).1 = besideHealth s := by
  split
  · exact ha
  · exact hb

theorem healthRow_beside (s : State) (p i : Nat) : besideHealth (healthRow s p i).1 = besideHealth s :=
  foldl_unchanged (fun x : State × List Nat => besideHealth x.1)
    (fun _ _ => ite_beside (setHealth_beside ..) (ite_beside (setHealth_beside ..) (setHealth_beside ..))) _ (s, [])

/-- The frame of a plane's completed accumulators is used. -/
def passNoted (s : State) (p f : Nat) : State := { s with loops := { s.loops with passed := s.loops.passed.put p f } }

/-- One row looked at: the nozzles confirmed are added. -/
def rowLooked (p : Nat) (x : State × List (Nat × Nat × Nat)) (i : Nat) : State × List (Nat × Nat × Nat) :=
  ((healthRow x.1 p i).1, x.2 ++ (healthRow x.1 p i).2.map (fun c => (p, i, c)))

/-- The plane's rows looked at. -/
def rowsLooked (s : State) (p : Nat) : State × List (Nat × Nat × Nat) :=
  (rows6.filter (fun i => (planeRow s p i).kind != 0)).foldl (rowLooked p) (s, [])

theorem rowsLooked_beside (s : State) (p : Nat) : besideHealth (rowsLooked s p).1 = besideHealth s :=
  foldl_unchanged (fun x : State × List (Nat × Nat × Nat) => besideHealth x.1) (f := rowLooked p) (fun _ _ => healthRow_beside ..) _ (s, [])

/-- The confirmations kept for the plane are due. -/
def retryTaken (s : State) (p : Nat) : State :=
  { s with loops := { s.loops with retry := s.loops.retry.filter (fun x => x.1 != p) } }

/-- The nozzles to take up: those kept first, then those newly confirmed. -/
def confirmedNow (s : State) (p : Nat) (conf : List (Nat × Nat × Nat)) : List (Nat × Nat × Nat) :=
  s.loops.retry.filter (fun x => x.1 == p) ++ conf.filter (fun x => !(s.loops.retry.filter (fun x => x.1 == p)).contains x)

theorem healthPass_skipped {s : State} {p : Nat} (h : loopOn s Reg.CL_CTRL.health_en p = false ∨
    (loopIssues s = false ∧ loopObserves s = false) ∨ s.inUse (chPlane p) = false ∨ Tbl.find s.insp.accDone p = none ∨
    (∃ f e, Tbl.find s.insp.accDone p = some (f, e) ∧ Tbl.find s.loops.passed p = some f)) : healthPass s p = s := by
  refine if_pos ?_
  rcases h with h | ⟨h, ho⟩ | h | h | ⟨f, e, hdone, hpassed⟩
  · simp [h]
  · simp [h, ho]
  · simp [h]
  · simp [h]
  · simp [tbl_get_of_find (0, 0) hdone, hpassed]

theorem healthPass_runs {s : State} {p f e : Nat} (hon : loopOn s Reg.CL_CTRL.health_en p = true) (huse : s.inUse (chPlane p) = true)
    (hdone : Tbl.find s.insp.accDone p = some (f, e)) (hnew : Tbl.find s.loops.passed p ≠ some f)
    (hacts : (loopIssues s || loopObserves s) = true) : healthPass s p =
    if loopIssues s = true then
      (confirmAll (retryTaken (rowsLooked (passNoted s p f) p).1 p) (confirmedNow s p (rowsLooked (passNoted s p f) p).2)).spend
    else (rowsLooked (passNoted s p f) p).1.spend := by
  have hregs : (rowsLooked (passNoted s p f) p).1.regs = s.regs := congrArg Prod.fst (rowsLooked_beside (passNoted s p f) p)
  rw [← loopIssues_congr hregs]
  unfold healthPass
  rw [tbl_get_of_find (0, 0) hdone]
  dsimp only
  rw [if_neg (by simp [hon, huse, hdone, hnew, hacts])]
  rfl

theorem rowsLooked_shows (s : State) (p f : Nat) : Tbl.find (rowsLooked (passNoted s p f) p).1.loops.passed p = some f ∧
    (rowsLooked (passNoted s p f) p).1.la = s.la ∧ (rowsLooked (passNoted s p f) p).1.cat = s.cat ∧
    (rowsLooked (passNoted s p f) p).1.out = s.out ∧ (rowsLooked (passNoted s p f) p).1.regs = s.regs := by
  have h := rowsLooked_beside (passNoted s p f) p
  simp only [besideHealth, Prod.mk.injEq] at h
  obtain ⟨hregs, hla, hcat, hout, hpassed, -⟩ := h
  exact ⟨by rw [hpassed]; exact (tbl_find_put ..).trans (if_pos rfl), hla, hcat, hout, hregs⟩

/-! ### CL_NOZ_CMD (R254) -/

/-- The registers that CL_NOZ_RESULT consists of. -/
def nozResultKeys : List Nat :=
  [Reg.CL_NOZ_RESULT_LO.noz_line_lo.key 0, Reg.CL_NOZ_RESULT_HI.noz_line_hi.key 0, Reg.CL_NOZ_RESULT_HI.noz_result.key 0]

theorem nozResult_code (s : State) (line : Nat) {code : Nat} (h : code < 4) :
    (nozResult s line code).rd Reg.CL_NOZ_RESULT_HI.noz_result = code := (rd_wr_self ..).trans (Nat.mod_eq_of_lt h)

theorem nozResult_line (s : State) {line : Nat} (code : Nat) (h : line < 2 ^ 48) :
    (nozResult s line code).rd2 Reg.CL_NOZ_RESULT_LO.noz_line_lo Reg.CL_NOZ_RESULT_HI.noz_line_hi = line := by
  have hlo := rd_wr_field (s.wr2 Reg.CL_NOZ_RESULT_LO.noz_line_lo Reg.CL_NOZ_RESULT_HI.noz_line_hi 0 line)
    (f := Reg.CL_NOZ_RESULT_HI.noz_result) (g := Reg.CL_NOZ_RESULT_LO.noz_line_lo) 0 code 0 (by decide)
  have hhi := rd_wr_field (s.wr2 Reg.CL_NOZ_RESULT_LO.noz_line_lo Reg.CL_NOZ_RESULT_HI.noz_line_hi 0 line)
    (f := Reg.CL_NOZ_RESULT_HI.noz_result) (g := Reg.CL_NOZ_RESULT_HI.noz_line_hi) 0 code 0 (by decide)
  refine Eq.trans ?_ (rd2_wr2 s (lo := Reg.CL_NOZ_RESULT_LO.noz_line_lo) (hi := Reg.CL_NOZ_RESULT_HI.noz_line_hi) 0 (by decide) h)
  unfold State.rd2
  rw [← hlo, ← hhi]
  rfl

theorem nozResult_onlyRegs (s : State) (line code : Nat) : OnlyRegs s (nozResult s line code) nozResultKeys :=
  ((onlyRegs_wr ..).trans (onlyRegs_wr ..)).trans (onlyRegs_wr ..)

/-- The code of CL_NOZ_RESULT for what came of a try. -/
def triedCode : Tried → Nat
  | .taken => 1
  | .full => 2
  | .noSpare => 3

section

variable {s : State} {noz : Nat}

theorem nozRetire_off (hat : nozzleAt s noz = none) (h : s.on Reg.CL_CTRL.loops_run = false ∨ hostOpen s = false) : nozRetire s noz = s := by
  rw [nozRetire, hat]
  exact if_neg (by rcases h with h | h <;> simp [h])

theorem nozRestore_off (hat : nozzleAt s noz = none) (h : s.on Reg.CL_CTRL.loops_run = false ∨ hostOpen s = false) : nozRestore s noz = s := by
  rw [nozRestore, hat]
  exact if_neg (by rcases h with h | h <;> simp [h])

theorem nozRetire_nowhere (hat : nozzleAt s noz = none) (hon : s.on Reg.CL_CTRL.loops_run = true) (hhost : hostOpen s = true) :
    nozRetire s noz = nozResult s (loopLine s) 2 := by
  rw [nozRetire, hat]
  exact if_pos (by simp [hon, hhost])

theorem nozRestore_nowhere (hat : nozzleAt s noz = none) (hon : s.on Reg.CL_CTRL.loops_run = true) (hhost : hostOpen s = true) :
    nozRestore s noz = nozResult s (loopLine s) 2 := by
  rw [nozRestore, hat]
  exact if_pos (by simp [hon, hhost])

variable {p i c : Nat} (hat : nozzleAt s noz = some (p, i, c))

include hat

theorem nozRetire_closed (h : nozOpen s p = false) : nozRetire s noz = s := by
  rw [nozRetire, hat]
  exact if_pos (by simp [h])

theorem nozRestore_closed (h : nozOpen s p = false) : nozRestore s noz = s := by
  rw [nozRestore, hat]
  exact if_pos (by simp [h])

theorem nozRetire_refused (hopen : nozOpen s p = true) (h : (planeRow s p i).kind ≠ 1 ∨ isRetired s p i c = true) :
    nozRetire s noz = nozResult s (loopLine s) 2 := by
  rw [nozRetire, hat]
  dsimp only
  rw [if_neg (by simp [hopen]), if_pos (by rcases h with h | h <;> simp [h])]

theorem nozRetire_tried (hopen : nozOpen s p = true) (hkind : (planeRow s p i).kind = 1) (h : isRetired s p i c = false) :
    nozRetire s noz = (nozResult (retireNozzle s p i c).1 (loopLine s) (triedCode (retireNozzle s p i c).2)).spend := by
  rw [nozRetire, hat]
  dsimp only
  rw [if_neg (by simp [hopen]), if_neg (by simp [hkind, h])]
  rfl

/-- A nozzle given back: its substitution is to end, no confirmation of it is kept, its count and `no_spare` are 0. -/
def nozFreed (s : State) (noz p i c : Nat) : State :=
  let x := (substClr s noz (loopLine s)).1
  let x := { x with loops := { x.loops with retry := x.loops.retry.filter (· != (p, i, c)) } }
  setHealth x p i c (healthWord x p i c / 2 ^ 20 * 2 ^ 20 + healthWord x p i c % 65536)

omit hat in
theorem nozFreed_retry (s : State) (noz p i c : Nat) : (p, i, c) ∉ (nozFreed s noz p i c).loops.retry := by
  rw [nozFreed, setHealth, State.pokeNat, pokeBytes_frame]
  simp

theorem nozRestore_open (hopen : nozOpen s p = true) : nozRestore s noz =
    nozResult (nozFreed s noz p i c) (loopLine s) (if (substClrOk s noz (loopLine s)).isSome then 1 else 2) := by
  rw [nozRestore, hat]
  dsimp only
  rw [if_neg (by simp [hopen])]
  rfl

end

/-- One substitution of a plane ended, and whether all so far were accepted. -/
def planeCleared (line : Nat) (x : State × Bool) (noz : Nat) : State × Bool :=
  ((clearNozzle x.1 noz line).1, x.2 && (clearNozzle x.1 noz line).2)

/-- A plane's substitutions ended, and what the loop keeps of its nozzles. -/
def planeFreed (s : State) (p : Nat) : State :=
  let x := ((planeSubsts s p).foldl (planeCleared (loopLine s)) (s, true)).1
  healthClear { x with loops := { x.loops with
    failed := x.loops.failed.filter (fun f => f.2 != p)
    retry := x.loops.retry.filter (fun x => x.1 != p)
    quiet := x.loops.quiet.filter (fun x => x.1 / 131072 / 6 != p) } } p

theorem nozRestorePlane_closed {s : State} {p : Nat} (h : nozOpen s p = false) : nozRestorePlane s p = s := if_pos (by simp [h])

theorem nozRestorePlane_open {s : State} {p : Nat} (h : nozOpen s p = true) : nozRestorePlane s p = nozResult (planeFreed s p) (loopLine s)
    (if ((planeSubsts s p).foldl (planeCleared (loopLine s)) (s, true)).2 = true then 1 else 2) := by
  unfold nozRestorePlane
  rw [if_neg (by simp [h])]
  rfl

theorem planeFreed_shows (s : State) (p : Nat) : (∀ x ∈ (planeFreed s p).loops.failed, x.2 ≠ p) ∧
    ∀ x ∈ (planeFreed s p).loops.retry, x.1 ≠ p := by
  refine ⟨fun x hx => ?_, fun x hx => ?_⟩
  · simpa using (List.mem_filter (p := fun f : Nat × Nat => f.2 != p).1 hx).2
  · simpa using (List.mem_filter (p := fun f : Nat × Nat × Nat => f.1 != p).1 hx).2

/-! ### A density update (R256 to R259) -/

theorem bit_sub_one {n : Nat} (h : bit n 0 = true) : bit (n - 1) 0 = false := by
  simp only [bit, beq_iff_eq, beq_eq_false_iff_ne] at *
  omega

/-- The completed buffer is used. -/
def densTaken (s : State) : State := { s with insp := { s.insp with cuNew := s.insp.cuNew - 1 } }

/-- The plane's figures of the buffer. -/
def densFiled (s : State) (p : Nat) : State := s.setQuality 4 p { s.quality 4 p with
  a1 := sat 16 (densQuality s p).1, a0 := unsigned 16 (satInt 16 (densQuality s p).2), b0 := sat 16 ((s.quality 4 p).b0 + 1) }

/-- The next buffer is for the next plane, unless the host has asked for a swap. -/
def densNext (s : State) (p : Nat) : State :=
  if s.on Reg.CL_CU_CTRL.swap then s else { s with insp := { s.insp with cuPlane := some (nextPlane s s.insp.cuDone.2 p) } }

theorem densityUpdate_skipped {s : State} {p : Nat} (h : loopOn s Reg.CL_CTRL.dens_en p = false ∨
    (loopIssues s = false ∧ loopObserves s = false) ∨ bit s.insp.cuNew 0 = false ∨ s.insp.cuDone.1 ≠ p ∨
    s.inUse (chPlane p) = false) : densityUpdate s p = s := by
  refine if_pos ?_
  rcases h with h | ⟨h, ho⟩ | h | h | h
  · simp [h]
  · simp [h, ho]
  · simp [h]
  · simp [h]
  · simp [h]

theorem densityUpdate_runs {s : State} {p : Nat} (hon : loopOn s Reg.CL_CTRL.dens_en p = true) (hnew : bit s.insp.cuNew 0 = true)
    (hdone : s.insp.cuDone.1 = p) (huse : s.inUse (chPlane p) = true) (hacts : loopIssues s = true ∨ loopObserves s = true) :
    densityUpdate s p = (densNext (if loopIssues s = true then densIssue (densFiled (densTaken s) p) p
      else densFiled (densTaken s) p) p).spend := by
  unfold densityUpdate
  rw [if_neg (by rcases hacts with h | h <;> simp [hon, hnew, hdone, huse, h])]
  rfl

theorem densFiled_shows (s : State) (p : Nat) : ((densFiled s p).quality 4 p).a1 = sat 16 (densQuality s p).1 ∧
    ((densFiled s p).quality 4 p).a0 = unsigned 16 (satInt 16 (densQuality s p).2) ∧
    ((densFiled s p).quality 4 p).b0 = sat 16 ((s.quality 4 p).b0 + 1) ∧ ((densFiled s p).quality 4 p).at_ = some s.clk := by
  rw [densFiled, quality_setQuality]
  exact ⟨rfl, rfl, rfl, rfl⟩

/-! ### A registration window (R260, R261) -/

/-- A slot's sums with its record of the completed buffer. -/
def slotSums (s : State) (slot : Nat) : RegSums :=
  let a := regAddr s (1 - s.rd Reg.CL_CU_CTRL.cu_buf) slot
  let u (o : Nat) := s.peekNat (a + o) 8
  let x := Tbl.get RegSums.reset s.loops.sums slot
  { sxx := x.sxx + u 0, syy := x.syy + u 8, sxy := x.sxy + signed 64 (u 16), sdx := x.sdx + signed 64 (u 24),
    sdy := x.sdy + signed 64 (u 32), npix := x.npix + s.peekNat (a + 40) 4 }

theorem regTake_eq (s : State) (slot : Nat) :
    regTake s slot = { s with loops := { s.loops with sums := s.loops.sums.put slot (slotSums s slot) } } := rfl

theorem regTakes_frame (s : State) (ks : List Nat) :
    ks.foldl regTake s = { s with loops := { s.loops with sums := (ks.foldl regTake s).loops.sums } } := by
  induction ks generalizing s with
  | nil => rfl
  | cons k ks ih => rw [List.foldl_cons, ih, regTake_eq]

theorem regTakes_other (s : State) {ks : List Nat} {k : Nat} (hk : k ∉ ks) :
    Tbl.get RegSums.reset (ks.foldl regTake s).loops.sums k = Tbl.get RegSums.reset s.loops.sums k := by
  induction ks generalizing s with
  | nil => rfl
  | cons j ks ih =>
    rw [List.mem_cons, not_or] at hk
    rw [List.foldl_cons, ih _ hk.2, regTake_eq, tbl_get_put_ne _ _ _ hk.1]

/-- What a slot's record holds does not depend on the sums. -/
theorem peekNat_regTake (s : State) (j a n : Nat) : (regTake s j).peekNat a n = s.peekNat a n :=
  congrArg leNat (peekBytes_of_peek (s := regTake s j) (t := s) rfl a n)

theorem regTakes_npix (s : State) {ks : List Nat} (hks : ks.Nodup) {k : Nat} (hk : k ∈ ks) :
    (Tbl.get RegSums.reset (ks.foldl regTake s).loops.sums k).npix = (Tbl.get RegSums.reset s.loops.sums k).npix +
      s.peekNat (regAddr s (1 - s.rd Reg.CL_CU_CTRL.cu_buf) k + 40) 4 := by
  induction ks generalizing s with
  | nil => cases hk
  | cons j ks ih =>
    obtain ⟨hj, hks⟩ := List.nodup_cons.1 hks
    rw [List.foldl_cons]
    rcases List.mem_cons.1 hk with rfl | hk
    · rw [regTakes_other _ hj, regTake_eq, tbl_get_put_self]
      rfl
    · rw [ih _ hks hk, peekNat_regTake]
      congr 2
      exact tbl_get_put_ne _ _ _ (fun h => hj (h ▸ hk))

/-- The completed buffer is used. -/
def regTaken (s : State) : State := { s with insp := { s.insp with cuNew := s.insp.cuNew % 2 } }

/-- Its frames join the window. -/
def framesCounted (s : State) : State := { s with loops := { s.loops with frames := s.loops.frames + s.rd Reg.CL_CU_FIRST_HI.cu_frames } }

/-- Sums and frames of the slots `ks` join the window. -/
def windowGathered (s : State) (ks : List Nat) : State := framesCounted (ks.foldl regTake (regTaken s))

theorem windowGathered_frame (s : State) (ks : List Nat) :
    windowGathered s ks = { regTaken s with loops := (windowGathered s ks).loops } := by
  rw [windowGathered, regTakes_frame]
  rfl

theorem windowGathered_frames (s : State) (ks : List Nat) :
    (windowGathered s ks).loops.frames = s.loops.frames + s.rd Reg.CL_CU_FIRST_HI.cu_frames := by
  rw [windowGathered, regTakes_frame]
  rfl

theorem windowGathered_npix (s : State) {ks : List Nat} (hks : ks.Nodup) {k : Nat} (hk : k ∈ ks) :
    (Tbl.get RegSums.reset (windowGathered s ks).loops.sums k).npix = (Tbl.get RegSums.reset s.loops.sums k).npix +
      s.peekNat (regAddr s (1 - s.rd Reg.CL_CU_CTRL.cu_buf) k + 40) 4 := by
  have hpeek (a n : Nat) : (regTaken s).peekNat a n = s.peekNat a n :=
    congrArg leNat (peekBytes_of_peek (s := regTaken s) (t := s) rfl a n)
  have hsum := regTakes_npix (regTaken s) hks hk
  rw [hpeek] at hsum
  exact hsum

theorem registration_skipped {s : State} {g : Nat} (speed : Nat) (steady : Bool) (h : s.on Reg.CL_CTRL.loops_run = false ∨
    s.on Reg.CL_CTRL.reg_en = false ∨ (loopIssues s = false ∧ observeOnly s = false) ∨ s.insp.cuNew / 2 = 0 ∨ s.insp.cuDone.2 ≠ g) :
    registration s g speed steady = s := by
  refine if_pos ?_
  rcases h with h | h | ⟨h, ho⟩ | h | h
  · simp [h]
  · simp [h]
  · simp [h, ho]
  · simp only [h, decide_true, Bool.or_true, Bool.true_or]
  · simp [h]

/-- What a window does with the slots `ks`; the slots stay a variable, for their fold is not to be computed. -/
theorem windowGathered_then (s : State) (speed : Nat) (steady : Bool) (ks : List Nat) :
    (let s := { s with insp := { s.insp with cuNew := s.insp.cuNew % 2 } }
     let s := ks.foldl regTake s
     let n := s.loops.frames + s.rd Reg.CL_CU_FIRST_HI.cu_frames
     let s := { s with loops := { s.loops with frames := n } }
     (if s.rd Reg.CL_REG_CFG.reg_frames ≤ n then regWindow s speed steady else s).spend) =
    (if (windowGathered s ks).rd Reg.CL_REG_CFG.reg_frames ≤ (windowGathered s ks).loops.frames then
      regWindow (windowGathered s ks) speed steady else windowGathered s ks).spend := rfl

theorem windowGathered_rd (s : State) (ks : List Nat) (f : Fld) (i : Nat) : (windowGathered s ks).rd f i = s.rd f i := by
  rw [windowGathered_frame]
  rfl

theorem registration_runs {s : State} {g : Nat} (speed : Nat) (steady : Bool) (hon : s.on Reg.CL_CTRL.loops_run = true)
    (hen : s.on Reg.CL_CTRL.reg_en = true) (hacts : loopIssues s = true ∨ observeOnly s = true) (hnew : s.insp.cuNew / 2 ≠ 0)
    (hdone : s.insp.cuDone.2 = g) : registration s g speed steady =
    (if s.rd Reg.CL_REG_CFG.reg_frames ≤ (windowGathered s slots80).loops.frames then regWindow (windowGathered s slots80) speed steady
      else windowGathered s slots80).spend := by
  rw [← windowGathered_rd s slots80, ← windowGathered_then]
  exact if_neg (by rcases hacts with h | h <;> simp [hon, hen, hdone, h, hnew])

/-! ### A shift of whole columns (R264, R265) -/

/-- The plane's substitutions ended. -/
def pairsCleared (s : State) (pairs : List (Nat × Nat)) : State := pairs.foldl (fun x z => (substClr x z.1 0).1) s

/-- The plane's substitutions with their spares. -/
def planePairs (s : State) (p : Nat) : List (Nat × Nat) := (planeSubsts s p).map (fun z => (z, substSpare s z))

/-- The shifted entry with the banks moved, before it is loaded. -/
def shiftStored (s : State) (p : Nat) (k : Int) (b : List Byte) : State :=
  let t := (shiftBanks s p k).pokeBytes (entryAddr s (chPlane p)) b
  (bankRecords t p 0 ++ bankRecords t p 1).foldl (fun t r => t.twin r) t

/-- The staged shift is discarded. -/
def shiftRefused (s : State) (p : Nat) : State := (accession (s.wr Reg.CL_XSHIFT.xs_staged p 0) 5 p none false none none).spend

/-- The shift counts as applied. -/
def shiftCounted (s : State) (p : Nat) (k : Int) : State :=
  (s.wri Reg.CL_XSHIFT.xs_applied p (s.rdi Reg.CL_XSHIFT.xs_applied p + k)).wr Reg.CL_XSHIFT.xs_staged p 0

theorem xshiftApply_skipped {s : State} {p : Nat} (h : loopOn s Reg.CL_CTRL.reg_en p = false ∨ s.on Reg.CL_CTRL.xshift_en = false ∨
    Config.columnPitch ≠ s.rd Reg.FS_PITCH.line_pitch ∨ observeOnly s = true ∨ s.mode = modeFreeze ∨ s.rd Reg.CL_XSHIFT.xs_staged p = 0 ∨
    s.on Reg.LA_STATUS.job_open = true ∨ s.la.fired ≠ [] ∨ s.la.pages ≠ [] ∨ s.entry (chPlane p) = none) : xshiftApply s p = s := by
  unfold xshiftApply
  dsimp only
  split
  · rfl
  · next hc =>
    rcases h with h | h | h | h | h | h | h | h | h | h
    · exact absurd (by simp [h]) hc
    · exact absurd (by simp [h]) hc
    · exact absurd (by simp [h]) hc
    · exact absurd (by simp [h]) hc
    · exact absurd (by simp [h]) hc
    · exact absurd (by simp [State.rdi, h, signed]) hc
    · exact absurd (by simp [h]) hc
    · exact absurd (by simp [h]) hc
    · exact absurd (by simp [h]) hc
    · rw [h]

section

variable {s : State} {p : Nat} {e : List Byte} (hon : loopOn s Reg.CL_CTRL.reg_en p = true) (hen : s.on Reg.CL_CTRL.xshift_en = true)
  (hpitch : Config.columnPitch = s.rd Reg.FS_PITCH.line_pitch) (hobs : observeOnly s = false) (hmode : s.mode ≠ modeFreeze)
  (hk : s.rdi Reg.CL_XSHIFT.xs_staged p ≠ 0) (hjob : s.on Reg.LA_STATUS.job_open = false) (hfired : s.la.fired = [])
  (hpages : s.la.pages = []) (he : s.entry (chPlane p) = some e)

include hon hen hpitch hobs hmode hk hjob hfired hpages

/-- Nothing bars a staged shift. -/
theorem shift_free : (!loopOn s Reg.CL_CTRL.reg_en p || !s.on Reg.CL_CTRL.xshift_en || (Config.columnPitch : Nat) != s.rd Reg.FS_PITCH.line_pitch ||
    observeOnly s || s.mode == modeFreeze || decide (s.rdi Reg.CL_XSHIFT.xs_staged p = 0) || s.on Reg.LA_STATUS.job_open ||
    decide (s.la.fired ≠ []) || decide (s.la.pages ≠ [])) = false := by
  simp [hon, hen, hpitch, hobs, hmode, hk, hjob, hfired, hpages]

include he

theorem xshiftApply_impossible (h : shiftEntry e (s.rdi Reg.CL_XSHIFT.xs_staged p) = none) : xshiftApply s p = shiftRefused s p := by
  unfold xshiftApply
  dsimp only
  rw [shift_free hon hen hpitch hobs hmode hk hjob hfired hpages, if_neg Bool.false_ne_true, he]
  dsimp only
  rw [h]
  rfl

theorem xshiftApply_refused {b : List Byte} (h : shiftEntry e (s.rdi Reg.CL_XSHIFT.xs_staged p) = some b)
    (hbad : entryOk (pairsCleared s (planePairs s p)) (chPlane p) (nextEntry b) = false) : xshiftApply s p = shiftRefused s p := by
  unfold xshiftApply
  dsimp only
  rw [shift_free hon hen hpitch hobs hmode hk hjob hfired hpages, if_neg Bool.false_ne_true, he]
  dsimp only
  rw [h]
  exact if_pos (by rw [pairsCleared, planePairs] at hbad; rw [hbad]; rfl)

theorem xshiftApply_shifts {b : List Byte} (h : shiftEntry e (s.rdi Reg.CL_XSHIFT.xs_staged p) = some b)
    (hok : entryOk (pairsCleared s (planePairs s p)) (chPlane p) (nextEntry b) = true) : xshiftApply s p =
    shiftCounted ((planePairs s p).foldl (fun x z => (substSet x z.1 z.2 0).1) (catLoad
      (shiftStored (pairsCleared s (planePairs s p)) p (s.rdi Reg.CL_XSHIFT.xs_staged p) (nextEntry b)) (chPlane p) (nextEntry b) none))
      p (s.rdi Reg.CL_XSHIFT.xs_staged p) := by
  unfold xshiftApply
  dsimp only
  rw [shift_free hon hen hpitch hobs hmode hk hjob hfired hpages, if_neg Bool.false_ne_true, he]
  dsimp only
  rw [h]
  exact if_neg (by rw [pairsCleared, planePairs] at hok; rw [hok]; exact Bool.false_ne_true)

end

/-! ### CL_CU_CTRL `swap` (R256) -/

theorem cuSwapAsk_closed {s : State} (h : hostOpen s = false) : cuSwapAsk s = s := if_neg (by simp [h])

theorem cuSwapAsk_open {s : State} (h : hostOpen s = true) : cuSwapAsk s = s.wr Reg.CL_CU_CTRL.swap 0 1 := if_pos h

/-! ### What the passes and commands show (R248, R254) -/

theorem healthPass_observes {s : State} {p f e : Nat} (hon : loopOn s Reg.CL_CTRL.health_en p = true) (huse : s.inUse (chPlane p) = true)
    (hdone : Tbl.find s.insp.accDone p = some (f, e)) (hnew : Tbl.find s.loops.passed p ≠ some f)
    (hissues : loopIssues s = false) (hobs : loopObserves s = true) :
    EndsIn (.next (healthPass s p)) State.spend (fun u => Tbl.find u.loops.passed p = some f ∧ u.la = s.la ∧ u.cat = s.cat ∧
      u.out = s.out ∧ u.regs = s.regs) := by
  refine ⟨(rowsLooked (passNoted s p f) p).1, ?_, rowsLooked_shows s p f⟩
  rw [healthPass_runs hon huse hdone hnew (by simp [hobs]), if_neg (by simp [hissues])]

theorem healthPass_issues {s : State} {p f e : Nat} (hon : loopOn s Reg.CL_CTRL.health_en p = true) (huse : s.inUse (chPlane p) = true)
    (hdone : Tbl.find s.insp.accDone p = some (f, e)) (hnew : Tbl.find s.loops.passed p ≠ some f) (hissues : loopIssues s = true) :
    ∃ conf, EndsIn (.next (healthPass s p)) (fun x => (confirmAll x conf).spend) (fun u => Tbl.find u.loops.passed p = some f ∧
      u.la = s.la ∧ u.regs = s.regs ∧ ∀ x ∈ u.loops.retry, x.1 ≠ p) := by
  obtain ⟨hpassed, hla, -, -, hregs⟩ := rowsLooked_shows s p f
  refine ⟨confirmedNow s p (rowsLooked (passNoted s p f) p).2,
    retryTaken (rowsLooked (passNoted s p f) p).1 p, ?_, hpassed, hla, hregs, fun x hx => ?_⟩
  · rw [healthPass_runs hon huse hdone hnew (by simp [hissues]), if_pos hissues]
  · simpa using (List.mem_filter (p := fun x : Nat × Nat × Nat => x.1 != p).1 hx).2

/-- CL_NOZ_RESULT shows the line and the result. -/
theorem nozResult_shows (s : State) {line code : Nat} (hcode : code < 4) (hline : line < 2 ^ 48) :
    (nozResult s line code).rd Reg.CL_NOZ_RESULT_HI.noz_result = code ∧
    (nozResult s line code).rd2 Reg.CL_NOZ_RESULT_LO.noz_line_lo Reg.CL_NOZ_RESULT_HI.noz_line_hi = line ∧
    OnlyRegs s (nozResult s line code) nozResultKeys :=
  ⟨nozResult_code s line hcode, nozResult_line s code hline, nozResult_onlyRegs s line code⟩

section

variable {s : State} {noz p i c : Nat} (hat : nozzleAt s noz = some (p, i, c)) (hopen : nozOpen s p = true) (hline : loopLine s < 2 ^ 48)

include hat hopen hline

theorem nozRetire_shows {x : State} {r : Tried} (hkind : (planeRow s p i).kind = 1) (hret : isRetired s p i c = false)
    (hx : (x, r) = retireNozzle s p i c) : EndsIn (.next (nozRetire s noz)) State.spend (fun u =>
      u.rd Reg.CL_NOZ_RESULT_HI.noz_result = triedCode r ∧
      u.rd2 Reg.CL_NOZ_RESULT_LO.noz_line_lo Reg.CL_NOZ_RESULT_HI.noz_line_hi = loopLine s ∧ OnlyRegs x u nozResultKeys) := by
  refine ⟨nozResult x (loopLine s) (triedCode r), ?_, nozResult_shows x (by cases r <;> decide) hline⟩
  rw [nozRetire_tried hat hopen hkind hret, ← hx]

theorem nozRestore_shows : Ends (.next (nozRestore s noz)) (fun u =>
    u.rd Reg.CL_NOZ_RESULT_HI.noz_result = (if (substClrOk s noz (loopLine s)).isSome then 1 else 2) ∧
    u.rd2 Reg.CL_NOZ_RESULT_LO.noz_line_lo Reg.CL_NOZ_RESULT_HI.noz_line_hi = loopLine s ∧ (p, i, c) ∉ u.loops.retry) := by
  obtain ⟨hcode, hat_line, -⟩ := nozResult_shows (nozFreed s noz p i c)
    (code := if (substClrOk s noz (loopLine s)).isSome then 1 else 2) (by split <;> decide) hline
  exact ⟨_, congrArg _ (nozRestore_open hat hopen), hcode, hat_line, nozFreed_retry s noz p i c⟩

end

theorem nozRestorePlane_shows {s : State} {p : Nat} (hopen : nozOpen s p = true) (hline : loopLine s < 2 ^ 48) :
    Ends (.next (nozRestorePlane s p)) (fun u =>
      (u.rd Reg.CL_NOZ_RESULT_HI.noz_result = 1 ∨ u.rd Reg.CL_NOZ_RESULT_HI.noz_result = 2) ∧
      (planeSubsts s p = [] → u.rd Reg.CL_NOZ_RESULT_HI.noz_result = 1) ∧
      u.rd2 Reg.CL_NOZ_RESULT_LO.noz_line_lo Reg.CL_NOZ_RESULT_HI.noz_line_hi = loopLine s ∧
      (∀ x ∈ u.loops.failed, x.2 ≠ p) ∧ ∀ x ∈ u.loops.retry, x.1 ≠ p) := by
  obtain ⟨hcode, hat_line, -⟩ := nozResult_shows (planeFreed s p)
    (code := if ((planeSubsts s p).foldl (planeCleared (loopLine s)) (s, true)).2 = true then 1 else 2) (by split <;> decide) hline
  refine ⟨_, congrArg _ (nozRestorePlane_open hopen), ?_, fun hnone => ?_, hat_line, planeFreed_shows s p⟩
  · rw [hcode]
    split
    · exact .inl rfl
    · exact .inr rfl
  · rw [hcode, hnone]
    rfl

/-- Settles O45: each command by the lemma on what it does, over the state the clock has moved on; what looking at the rows leaves alone is
`besideHealth`, and the sums of a window are those of `windowGathered_npix`. -/
theorem calibrationLoops : Obligations.CalibrationLoops := by
  unfold Obligations.CalibrationLoops
  rintro s σ t n rfl
  simp only [exec_healthPass, exec_nozRetire, exec_nozRestore, exec_nozRestorePlane, exec_cuSwapRequest, exec_densityUpdate,
    exec_registrationWindow, exec_xshiftApply]
  simp only [execHealthPass, execNozRetire, execNozRestore, execNozRestorePlane, execCuSwapRequest, execDensityUpdate,
    execRegistrationWindow, execXshiftApply]
  simp only [← rd_at s t, ← on_at s t, ← rdi_at s t, ← hostOpen_at s t, ← inUse_at s t, ← entry_at s t, ← mode_at s t, ← quality_at s t,
    ← observeOnly_at s t, ← loopIssues_at s t, ← loopObserves_at s t, ← loopOn_at s t, ← nozOpen_at s t, ← planeRow_at s t,
    ← regAddr_at s t, ← at_insp s t, ← at_loops s t, ← at_la s t, ← at_cat s t, ← at_out s t, ← at_regs s t]
  generalize s.at t = z
  refine ⟨fun h => ?healthSkipped, fun f e hon huse hdone hnew => ⟨?healthObserves, ?healthIssues⟩,
    fun p i c hat => ⟨?nozClosed, fun hopen hline => ⟨?nozRefused, ?nozTried, ?nozRestored⟩⟩,
    fun hat => ⟨?nozOff, ?nozNowhere⟩, ?planeClosed, ?planeRestored, ?swapClosed, ?swapAsked, ?densSkipped, ?densRuns,
    ?regSkipped, ?regRuns, ?shiftSkipped, fun e k hon hen hpitch hobs hmode hkeq hk hjob hfired hpages he => ⟨?shiftRefused, ?shiftMade⟩⟩
  case healthSkipped => exact congrArg _ (healthPass_skipped h)
  case healthObserves => exact healthPass_observes hon huse hdone hnew
  case healthIssues => exact healthPass_issues hon huse hdone hnew
  case nozClosed => exact fun h => ⟨congrArg _ (nozRetire_closed hat h), congrArg _ (nozRestore_closed hat h)⟩
  case nozRefused =>
    exact fun h => ⟨_, congrArg _ (nozRetire_refused hat hopen h), nozResult_shows z (by decide) hline⟩
  case nozTried =>
    intro x r hkind hret hx
    have h := nozRetire_shows hat hopen hline hkind hret hx
    cases r <;> exact h
  case nozRestored => exact nozRestore_shows hat hopen hline
  case nozOff => exact fun h => ⟨congrArg _ (nozRetire_off hat h), congrArg _ (nozRestore_off hat h)⟩
  case nozNowhere =>
    intro hon hhost
    have hcode := nozResult_code z (loopLine z) (code := 2) (by decide)
    exact ⟨⟨_, congrArg _ (nozRetire_nowhere hat hon hhost), hcode⟩, ⟨_, congrArg _ (nozRestore_nowhere hat hon hhost), hcode⟩⟩
  case planeClosed => exact fun h => congrArg _ (nozRestorePlane_closed h)
  case planeRestored => exact nozRestorePlane_shows
  case swapClosed => exact fun h => congrArg _ (cuSwapAsk_closed h)
  case swapAsked =>
    refine fun h => ⟨_, congrArg _ (cuSwapAsk_open h), ?_, onlyRegs_wr ..⟩
    rw [State.on, rd_wr_self]
    rfl
  case densSkipped => exact fun h => congrArg _ (densityUpdate_skipped h)
  case densRuns =>
    rintro _ hon hnew hdone huse rfl hacts
    obtain ⟨ha1, ha0, hb0, hat⟩ := densFiled_shows (densTaken z) n
    refine ⟨densFiled (densTaken z) n, ?_, bit_sub_one hnew, ha1, ha0, hb0, hat, rfl⟩
    rw [densityUpdate_runs hon hnew hdone huse hacts]
    rfl
  case regSkipped => exact fun speed steady h => congrArg _ (registration_skipped speed steady h)
  case regRuns =>
    intro speed steady hon hen hacts hnew hdone
    refine ⟨windowGathered z slots80, congrArg _ (registration_runs speed steady hon hen hacts hnew hdone), ?_, windowGathered_frames z slots80,
      fun k hk => windowGathered_npix z List.nodup_range (List.mem_range.2 hk), ?_⟩
    · rw [windowGathered_frame]
      rfl
    · rw [windowGathered_frame]
      rfl
  case shiftSkipped => exact fun h => congrArg _ (xshiftApply_skipped h)
  case shiftRefused =>
    subst hkeq
    intro h
    refine ⟨z.wr Reg.CL_XSHIFT.xs_staged n 0, congrArg _ ?_, rd_wr_self .., onlyRegs_wr ..⟩
    change _ = shiftRefused z n
    rcases h with h | ⟨b, h, hbad⟩
    · exact xshiftApply_impossible hon hen hpitch hobs hmode hk hjob hfired hpages he h
    · refine xshiftApply_refused hon hen hpitch hobs hmode hk hjob hfired hpages he h ?_
      rwa [pairsCleared, planePairs, List.foldl_map]
  case shiftMade =>
    subst hkeq
    rintro b _ h rfl hok
    exact ⟨_, congrArg _ (xshiftApply_shifts hon hen hpitch hobs hmode hk hjob hfired hpages he h hok), _, rfl⟩

end Sys2Proof
